-- ==== Sys2Proof/Syntax.lean ====
section
/-! DEFINITION. The commands of the FK-6400, one constructor per row of the opcode table, with their operands. A command is an
operation of the management plane, of a protocol, of a clock or timer, or of a core. -/

namespace Sys2Proof

/-- The three masters of the management ring (R20). -/
inductive Rm where
  | core0 | debug | config
  deriving DecidableEq, Repr

/-- One access of the ring: place, direction and write data. -/
structure RingReq where
  die : Nat
  block : Nat
  off : Nat
  write : Bool
  data : W32
  deriving DecidableEq, Repr

/-- The strap pins, and which of their seven bits float (R423): bits 0 to 2 `CFG_MODE`, 3 `CFG_PULL`, 4 to 6 `OSC_DLY`. -/
structure Straps where
  cfgMode : BitVec 3
  cfgPull : Bool
  oscDly : BitVec 3
  floating : BitVec 7
  deriving DecidableEq, Repr

/-- A network interface: die and index. -/
structure NiId where
  die : Nat
  ni : Nat
  deriving DecidableEq, Repr

/-- A die-link module, named by its register set: die, block and set number (chapter 06, Registers). -/
structure LinkId where
  die : Nat
  block : Nat
  set : Nat
  deriving DecidableEq, Repr

/-- A frame as it arrives at a die-link receiver (R130): four positions, `VLD`, sideband ticks 0 to 2
and the CRC; `marginErr` when the fifth group's PRBS check failed in it (R141). -/
structure LinkFrame where
  pos0 : BitVec 256
  pos1 : BitVec 256
  pos2 : BitVec 256
  pos3 : BitVec 256
  vld : BitVec 8
  sb : BitVec 48
  crc : BitVec 16
  marginErr : Bool
  deriving DecidableEq, Repr

/-- A serial lane: die, quad of the die and lane of the quad. On H, quad 4p + k holds lanes 4k to 4k + 3 of torus port p. -/
structure LaneId where
  die : Nat
  quad : Nat
  lane : Nat
  deriving DecidableEq, Repr

/-- An ordered set as a lane receives it: its characters 1 to 7, and which of its characters 0 to 7 are code errors (R153, R156). -/
structure LaneSet where
  chars : BitVec 56
  errs : BitVec 8
  deriving DecidableEq, Repr

/-- An exchange position as it arrives: its bytes, and which of them are code errors (R153, R169). -/
structure ExchangeRx where
  content : BitVec 256
  errs : BitVec 32
  deriving DecidableEq, Repr

/-- What a lane's receiver found: the lane, whether it lost lock, and the code errors of its last 1,024 characters that no position and no
ordered set of a command carried (R174, R182). -/
structure LaneTrouble where
  id : LaneId
  lost : Bool
  errs : Nat
  deriving DecidableEq, Repr

/-- A position as it leaves a port's receive deskew (R161, R166): whether its byte 0 is a K character, its bytes, and the characters that
are code errors (R153). -/
structure PortRx where
  k : Bool
  content : BitVec 256
  errs : BitVec 32
  deriving DecidableEq, Repr

/-- Sources of configuration stream words (R214). -/
inductive CfgSrc where
  | parallel | spi | port (p : Fin 6) | sdata
  deriving DecidableEq, Repr


/-- A symbol that a DRAM device returns wrong: codeword, device position and error (R302, R303). -/
structure SymErr where
  word : Fin 32
  dev : Fin 10
  err : BitVec 8
  deriving DecidableEq, Repr


/-- The commands. -/
inductive Instr where
  /-- The rim releases the power-on reset once the six monitored supplies have been in range together for 2 ms, and start-up begins. (R429) -/
  | powerOnReset (straps : Straps)
  /-- A monitored supply falls below its minimum for more than 10 µs and the device returns to power-on reset. (R429) -/
  | supplyDrop
  /-- Release of RESET_N resets the device without repeating the oscillator delay, and configuration preparation restarts. (R212) -/
  | pinReset (straps : Straps) (silent : BitVec 8)
  /-- The strap-selected oscillator delay ends and REFCLK edges are admitted to the root PLL. (R30) -/
  | oscDlyExpiry
  /-- The root PLL locks and the domain clocks are first released, which starts the tick from zero. (R30) -/
  | rootPllLock (silent : BitVec 8)
  /-- A die does not answer the revision read within 4,096 ring cycles, so its PRESENT bit clears and VALID stays 0. (R15) -/
  | revisionReadTimeout (d : Fin 8)
  /-- The ring root grants a master's access, and the target performs it or answers DECODE or REFUSED. (R21) -/
  | ringAccess (m : Rm) (r : RingReq)
  /-- A target's answer returns to the ring root and the access completes with its status. (R21) -/
  | ringAccessComplete (m : Rm)
  /-- No answer arrives within 4,096 ring cycles of the grant and the access completes with TIMEOUT. (R21) -/
  | ringAccessTimeout (m : Rm)
  /-- A ring write to a register that has no row of its own stores the whole word, with the field rules of its table. (R8) -/
  | registerWrite (m : Rm) (die : Fin 8) (block off : BitVec 16) (v : W32)
  /-- A write of DEVICE_ID is refused while any torus port is in scheduled mode, and otherwise changes routing from the next ring cycle. (R26) -/
  | deviceIdWrite (m : Rm) (v : W32)
  /-- Writing RST_L bit n resets logic die n: its registers, frames, pattern banks and route tables clear, and its ring accesses time out. (R27) -/
  | dieResetLogic (m : Rm) (d : Fin 6)
  /-- Writing RST_A resets die A and leaves it awaiting rejoin. (R27) -/
  | dieResetAnalog (m : Rm)
  /-- A die reset ends after 1,024 ring cycles, and the die's links start full training. (R27) -/
  | dieResetEnd (d : Fin 8)
  /-- A reference source has been present for the QUAL time, so REC_OK or LOC_OK is set. (R31) -/
  | refQualified (recovered : Bool)
  /-- A write of REF_CTRL is checked as a whole; if accepted it switches the root source phase-continuously and ends holdover. (R32) -/
  | refCtrlWrite (m : Rm) (v : W32)
  /-- The root frequency slew after a source switch ends and SLEW clears. (R32) -/
  | slewEnd
  /-- The recovered reference stops being present, and the root enters holdover or, with no fallback, the clocks stop. (R33) -/
  | recoveredRefLoss
  /-- The local oscillator stops while the recovered reference is active, so LOC_OK clears and event 18 is raised. (R36) -/
  | localOscLoss
  /-- A 1 ms monitor window ends, FREQ_MON is updated, and a DIFF outside the presence window treats the recovered reference as absent. (R42) -/
  | freqMonAverage (diff : BitVec 24) (rootDeparted : Bool)
  /-- Missing edges of the active source with no fallback drive user outputs to safe states and stop every domain clock. (R37) -/
  | clockLossNoFallback (pllFault : Bool)
  /-- REFCLK has been present without interruption for the qualification time while the clocks are stopped, so SRC_VALID is set. (R38) -/
  | rimSrcValid
  /-- A JTAG write of ACK while SRC_VALID is 1 starts resumption; otherwise it is ignored. (R38) -/
  | rimClkAck
  /-- After the root relocks, the hub's domain clocks are released, the tick resumes and SRC is set to 0. (R39) -/
  | resumeHubClocks
  /-- At T+64 the clocks of the other dies are released, the ring runs, links and ports train and event 19 is raised. (R39) -/
  | resumeDieClocks
  /-- At T+256 user outputs are released from their safe states. (R39) -/
  | resumeUserOutputs
  /-- A write of SSC_CTRL is refused for a DEPTH above 10, and otherwise the spread change is scheduled. (R41) -/
  | sscCtrlWrite (m : Rm) (v : W32)
  /-- A new spread depth or rate takes effect at the next modulation period boundary. (R41) -/
  | sscChange
  /-- A write of FCLK_CFG_n is refused for a bad divisor, and otherwise the change is scheduled. (R45) -/
  | fclkCfgWrite (m : Rm) (n : Fin 16) (v : W32)
  /-- A fabric clock generator restarts with its new setting at the first tick with tick mod 24 = 0. (R45) -/
  | fclkChange (n : Fin 16)
  /-- Writing TICK_SNAP captures the tick into the writing master's snapshot pair. (R46) -/
  | tickSnap (m : Rm) (v : W32)
  /-- At each tick with tick mod 65,536 = 0, every port sends a time marker with the tick and the aligned flag. (R163) -/
  | timeMarkerSend
  /-- A marker arriving on the upstream port within its window is compared with the local tick, and alignment may be lost. (R47) -/
  | timeMarkerCompare (value : W64) (aligned : Bool) (frac : Fin 64)
  /-- No marker has been compared 64 ticks after an expected marker tick, and this counts as a failed comparison. (R47) -/
  | markerMissing
  /-- Writing TICK_CTRL.ARM is accepted only with no pattern, no armed action and MASTER left at 0. (R48) -/
  | tickLoadArm (m : Rm) (v : W32)
  /-- An aligned upstream marker arrives while a load is armed; the tick and root phase are set, ALIGNED is set and event 21 is raised. (R48) -/
  | tickLoad (value : W64)
  /-- A write that changes MASTER or UP_PORT is refused while a port is scheduled; clearing MASTER clears ALIGNED. (R50) -/
  | tickCtrlMasterWrite (m : Rm) (v : W32)
  /-- At each slot tick a source NI injects each entry's flit, or a marker with its cause. (R56) -/
  | slotInject (i : NiId)
  /-- A router steers a scheduled flit by its flow table to leave on the next tick, and resolves conflicts. (R74) -/
  | routerForwardScheduled
  /-- On each tick the destination egress checks its arrival table and presents the flit, or a marker, or discards a stray. (R63) -/
  | egressCheck (i : NiId)
  /-- Writing SF_POP removes the head schedule-fault record. (R64) -/
  | sfPop (m : Rm) (v : W32)
  /-- ACTION = start is checked against the refusal codes and, if accepted, armed for PAT_AT. (R67) -/
  | patternStart (m : Rm)
  /-- ACTION = swap is checked against the refusal codes and, if accepted, armed for PAT_AT. (R67) -/
  | patternSwap (m : Rm)
  /-- ACTION = stop is checked against the refusal codes and, if accepted, armed for PAT_AT. (R67) -/
  | patternStop (m : Rm)
  /-- ACTION = cancel disarms an armed action up to 4,096 ticks before its tick, and otherwise is refused. (R68) -/
  | patternCancel (m : Rm)
  /-- At the PAT_AT tick the armed start, swap or stop takes effect on every die, the banks and headers exchange, and event 26 or 27 is raised. (R437) -/
  | patternActionTick
  /-- The last old-bank flit that concerns the device has passed, so TAIL clears and event 28 is raised after a stop. (R70) -/
  | tailEnd
  /-- A write of PS_DATA_3 stores an entry into the shadow table, or the route table, and clears SHADOW_OK for pattern tables. (R84) -/
  | patternTableWrite (m : Rm) (i : NiId) (v : W32)
  /-- A read of the advancing PS_DATA word returns the entry and advances INDEX, except on the debug peek path. (R84) -/
  | psDataRead (m : Rm) (i : NiId) (word : Fin 4)
  /-- Writing PS_COMMIT_d starts the two-pass commit of die d, clears OK and SHADOW_OK and sets BUSY. (R85) -/
  | commitStart (m : Rm) (d : Fin 7) (crc : W32)
  /-- The commit ends, setting OK and SHADOW_OK, or recording the R86 error and the first failing entry. (R85) -/
  | commitEnd (d : Fin 7)
  /-- An NI admits a request from MREQ once response space and a tag are available, looks up its route and injects it. (R110) -/
  | beRequestIssue (i : NiId)
  /-- A router forwards a best-effort packet by virtual cut-through once downstream credits cover it under the bubble rule. (R103) -/
  | beHop (i : NiId) (out : Fin 6) (vc : Fin 2)
  /-- A credit for a freed downstream place becomes usable at the upstream output. (R103) -/
  | creditReturn (i : NiId)
  /-- A waiting header has waited AGE ticks and counts as BE3 in arbitration. (R108) -/
  | headerAged (i : NiId) (input : Fin 7)
  /-- A best-effort header has not moved for STALL × 4,096 ticks, so BE_FLAG.STALL is set. (R121) -/
  | stallDetect (i : NiId)
  /-- A best-effort packet reaches its destination NI and is checked, forwarded toward the torus, or delivered to its target or FIFO. (R90) -/
  | bePacketArrive (i : NiId)
  /-- A response reaches its requester NI and fills its reservation, or is discarded as late or unmatched. (R112) -/
  | beResponseArrive (i : NiId)
  /-- A tracked request reaches its timeout and the NI writes a timeout response and releases its tag. (R112) -/
  | beTimeout (i : NiId) (tag : BitVec 10)
  /-- User logic writes scheduled flits into the staging queue, subject to discard debt and overflow. (R96) -/
  | flitStageWrite (i : NiId) (flits : List (BitVec 256))
  /-- A buffered flit or marker is presented on the fabric egress lanes at the first allowed SCLK edge. (R97) -/
  | egressPresent (i : NiId)
  /-- A flit is written into an NI FIFO and its pointer crosses to the far clock, or it is discarded when the FIFO is full. (R98) -/
  | fifoWrite (i : NiId) (k : Fin 4) (flit : BitVec 256) (last : Bool)
  /-- A flit is read from an NI FIFO, or NV is returned when it is empty. (R101) -/
  | fifoRead (i : NiId) (k : Fin 4)
  /-- Writing FIFO_FLUSH bit k marks FIFO k for flush and sets FLUSHING. (R100) -/
  | fifoFlush (m : Rm) (i : NiId) (mask : BitVec 4)
  /-- The next write-side packet boundary passes, the earlier flits are discarded and FLUSHING clears. (R100) -/
  | flushBoundary (i : NiId) (k : Fin 4)
  /-- Writing DIS = 1 with FORCE = 0 stops admission and begins completing accepted work. (R123) -/
  | niDisable (m : Rm) (i : NiId)
  /-- Writing FORCE = 1 with DIS completes everything outstanding with status 0b100 and discards the staged and egress flits. (R124) -/
  | niForcedDisable (m : Rm) (i : NiId)
  /-- An NI's accepted work has completed, and its slots become cause 0x8 markers from the next period boundary. (R123) -/
  | niDrainComplete (i : NiId)
  /-- At the first period boundary after draining, the slots become markers, DRAINED is set and EN clears. (R123) -/
  | niDisableBoundary (i : NiId)
  /-- Writing DIS = 0 before step 3 cancels the disable and admission resumes. (R123) -/
  | niDisableCancel (m : Rm) (i : NiId)
  /-- Writing EN = 1 with DIS and FORCE at 0 re-enables a drained NI and clears DRAINED. (R125) -/
  | niEnable (m : Rm) (i : NiId)
  /-- Writing NI_CTRL.LOOP is accepted only on a drained logic-die NI or the analog endpoint, and loops the fabric port. (R420) -/
  | niLoop (m : Rm) (i : NiId) (on : Bool)
  /-- A write of SP_CTRL.EN is checked against the region rules and refused or accepted. (R117) -/
  | spillEnable (m : Rm) (i : NiId) (v : W32)
  /-- TREQ has stayed full for SPILL_THR ticks with a header waiting, so the NI begins spilling arrivals to DRAM. (R113) -/
  | spillStart (i : NiId)
  /-- A request packet at the ejection input is written to the spill region as one record. (R115) -/
  | spillRecordWrite (i : NiId)
  /-- A spill write response arrives; an error answers the requester and sets BROKEN. (R119) -/
  | spillWriteResponse (i : NiId)
  /-- With COUNT nonzero and 9 free places in TREQ, the NI reads the record at SP_RP to replay it. (R114) -/
  | spillReplay (i : NiId)
  /-- The replay read returns, and the packet enters TREQ, or the record is skipped on an error or a bad CRC. (R114) -/
  | replayReadResponse (i : NiId)
  /-- A die-link receiver checks a frame and releases its positions, or treats it as failed. (R131) -/
  | linkFrameReceive (l : LinkId) (f : LinkFrame)
  /-- A receiver accepts a training word from TRN or SB_7 and advances the handshake fields. (R136) -/
  | trainingWordReceive (l : LinkId) (w : W32)
  /-- The receiver has seen 256 ticks of clean edges on its chosen forwarded clock and leaves CLOCK. (R136) -/
  | linkClockDetect (l : LinkId) (fck fcks : Bool)
  /-- The tap sweep ends and each wire is set to the centre of its widest passing run. (R136) -/
  | linkDeskewDone (l : LinkId)
  /-- VERIFY ends and the receiver decides the good groups, the sideband group and the mask. (R137) -/
  | linkVerifyDone (l : LinkId) (errors : BitVec 169)
  /-- Both sides have seen each other's mask values twice and the module moves to FRAME. (R138) -/
  | linkMaskAgreed (l : LinkId)
  /-- After 16 passing frames the module enters RUN on a frame boundary. (R139) -/
  | linkFrameLock (l : LinkId)
  /-- A training stage overruns its limit, so STAGE_TMO is set and training restarts from CLOCK. (R138) -/
  | linkStageTimeout (l : LinkId)
  /-- Writing LM_CTRL.FENCE fences the module from the next checked frame. (R145) -/
  | linkFence (m : Rm) (l : LinkId)
  /-- Writing UNFENCE takes a fenced module out of FENCED, zeroes the mismatch count and starts full training. (R145) -/
  | linkUnfence (m : Rm) (l : LinkId)
  /-- Writing LM_CTRL.RETRAIN starts full training of the module. (R140) -/
  | linkRetrain (m : Rm) (l : LinkId)
  /-- Writing CLR_CNT clears LM_COUNT. (R145) -/
  | linkClrCnt (m : Rm) (l : LinkId)
  /-- A write of LM_CTRL.LOOP on a fenced link selects a loop-back depth and sends the VERIFY streams. (R417) -/
  | linkLoop (m : Rm) (l : LinkId) (depth : Fin 4) (errors : BitVec 169)
  /-- 32 ticks after both modules are in RUN with no arrival, the receiver returns credits for all its free places. (R143) -/
  | creditResyncReturn (l : LinkId)
  /-- Link 0's module is fenced or trains for more than 1,024 ticks, so the ring share moves to link 1. (R148) -/
  | ringShareMove (l : LinkId)
  /-- A lane receives a TS or TQ set and applies any tap request within 64 ticks. (R156) -/
  | laneTrainingSetReceive (p : Fin 6) (lane : Fin 16) (set : LaneSet)
  /-- Both ends have sent and seen done on all 16 lanes and the LANE stage ends. (R156) -/
  | laneEqDone (p : Fin 6)
  /-- Writing LN_ALIGN.SLIP moves the lane's character boundary one bit later. (R157) -/
  | lnAlignSlip (m : Rm) (l : LaneId)
  /-- Writing LN_ALIGN.DONE declares the lane aligned. (R157) -/
  | lnAlignDone (m : Rm) (l : LaneId)
  /-- A lane is not declared aligned within 8,192 ticks, and aligns itself on the next alignment marker. (R157) -/
  | laneAlignTimeout (p : Fin 6) (lane : Fin 16)
  /-- An alignment marker arrives; the lanes deskew, or a skew or misplacement is reported. (R158) -/
  | alignmentMarkerReceive (p : Fin 6) (arrive : List (Option Nat))
  /-- A port training stage overruns its limit, so TP_ERR.STAGE is set and a restart is scheduled. (R168) -/
  | portStageTimeout (p : Fin 6)
  /-- 65,536 ticks after an overrun, the port restarts training from LANE. (R168) -/
  | portTrainRestart (p : Fin 6)
  /-- An exchange position arrives and contributes a round trip to the measurement of D. (R169) -/
  | exchangePositionReceive (p : Fin 6) (pos : ExchangeRx) (frac : Fin 64)
  /-- D and M are recorded, or FAR is set, and the neighbour's identity is verified or the port becomes UNVERIFIED. (R169) -/
  | exchangeComplete (p : Fin 6)
  /-- Writing TP_CTRL.ACCEPT copies TP_SEEN into TP_EXP and moves the port to LINK, unless PAIR is the cause. (R170) -/
  | portAccept (m : Rm) (p : Fin 6)
  /-- A control position arrives and its flags, credits, ring half and keys are taken, or it is ignored on a CRC failure. (R162) -/
  | controlPositionReceive (p : Fin 6) (content : BitVec 256) (errs : BitVec 32)
  /-- A condition ends scheduled mode, and the port leaves SCHED at the next frame boundary. (R173) -/
  | leaveSched (p : Fin 6)
  /-- A scheduled, best-effort or stream position leaves the receive deskew and is released or collected. (R166) -/
  | portPositionReceive (p : Fin 6) (pos : PortRx)
  /-- A scheduled flit reaches the port transmit side and is admitted, or becomes a cause 0x2 marker. (R165) -/
  | portAdmitScheduled (p : Fin 6)
  /-- A lane loses lock, counts 16 code errors or misses a marker, so FAULT is set. (R174) -/
  | laneFault (l : LaneTrouble)
  /-- At the agreed frame both transmitters move to the chosen half and the port enters HALF. (R175) -/
  | halfWidthSwitch (p : Fin 6)
  /-- Writing LSTATE = quiet requests quiet, and is refused while the active budget is nonzero. (R159) -/
  | portQuiet (m : Rm) (p : Fin 6)
  /-- Writing LSTATE = rest is refused for a budgeted or reference port, and is otherwise accepted. (R160) -/
  | portRest (m : Rm) (p : Fin 6)
  /-- Writing LSTATE = active, or having traffic to send, returns a quiet port to active. (R159) -/
  | portActive (m : Option Rm) (p : Fin 6)
  /-- Both ends enter quiet at the second frame boundary after seeing each other's request. (R159) -/
  | quietEnter (p : Fin 6)
  /-- Writing TP_CTRL.RETRAIN starts full training from LANE. (R168) -/
  | portRetrain (m : Rm) (p : Fin 6)
  /-- TP_CTRL.DIS, with or without FORCE, disables a port in the four steps and ends in DOWN. (R180) -/
  | portDisable (m : Rm) (p : Fin 6) (force : Bool)
  /-- Writing EN = 1 with DIS = 0 starts training from LANE. (R180) -/
  | portEnable (m : Rm) (p : Fin 6)
  /-- RG_CTRL.OP = read sends a remote ring read packet and sets BUSY. (R177) -/
  | gatewayRead (m : Rm)
  /-- RG_CTRL.OP = write sends a remote ring write packet and sets BUSY. (R177) -/
  | gatewayWrite (m : Rm)
  /-- A remote ring packet is forwarded on, performed by the configuration controller, or delivered to its gateway as a response. (R178) -/
  | remotePacketReceive (p : Fin 7)
  /-- No answer arrives within TMO × 256 ring cycles, and the gateway reports result 0x5. (R177) -/
  | gatewayTimeout (m : Rm)
  /-- Writing TP_CFG_CTRL.GO starts sending a stored configuration stream over the port. (R184) -/
  | streamSendGo (m : Rm) (p : Fin 6)
  /-- Writing ABORT stops the send at a position boundary. (R184) -/
  | streamSendAbort (m : Rm) (p : Fin 6)
  /-- The send ends with DONE, or with ERR after a read error, and raises the stream event. (R184) -/
  | streamSendEnd (p : Fin 6)
  /-- A rising edge on the fabric signal GL_SLIP slips a general lane by one bit. (R181) -/
  | glSlip (l : LaneId)
  /-- A rising edge on USER_EVT_i raises user event 1,952 + 16d + i. (R200) -/
  | userEvent (d : Fin 6) (i : Fin 16)
  /-- Writing BR_HOLD holds a region: its border cells hold and its NI ports mark, discarding their queues. (R205) -/
  | regionHold (m : Rm) (d : Fin 6) (mask : BitVec 16)
  /-- Region gating completes and the HOLD bit is set, so frames may be written. (R205) -/
  | regionHoldComplete (d : Fin 6) (n : Fin 16)
  /-- Writing BR_RELEASE starts the release; the flip-flops take INIT and the entering cells pass. (R205) -/
  | regionRelease (m : Rm) (d : Fin 6) (mask : BitVec 16)
  /-- At E + 8 the region's clock gate is released. (R205) -/
  | regionGateRelease (d : Fin 6) (n : Fin 16)
  /-- At E + 16 the leaving cells pass, the NIs run normally and HOLD clears. (R205) -/
  | regionReleaseComplete (d : Fin 6) (n : Fin 16)
  /-- A write of BR_RGN_n is refused if it is invalid, overlapping, or made while the region is held or pending. (R208) -/
  | brRgnWrite (m : Rm) (d : Fin 6) (n : Fin 16) (v : W32)
  /-- A write of PRB_SEL_i reselects a probe source within 32 ring cycles. (R204) -/
  | prbSelWrite (m : Rm) (d : Fin 6) (i : Fin 8) (v : W32)
  /-- Every frame is cleared and the maps are set to ones, and INIT_N is released. (R212) -/
  | clearComplete
  /-- INIT_N reads high, so the controller enters SYNC and, in SPI mode, the flash read begins. (R212) -/
  | initNHigh
  /-- PROG_N held low for 1 µs abandons any stream, resets the logic dies and enters CLEAR. (R213) -/
  | progNAssert
  /-- A write of CFG_SDATA enters a stream word, or is refused when the buffer is full or another source owns the stream. (R215) -/
  | cfgSdataWrite (m : Rm) (v : W32)
  /-- The sync word makes its source the stream owner and restarts the running CRC. (R215) -/
  | syncWord (src : CfgSrc)
  /-- A NOP header has no effect. (R217) -/
  | streamNop (src : CfgSrc) (words : List W32)
  /-- The CRC register compares the word with the running CRC and fails the stream on a mismatch. (R218) -/
  | streamCrc (src : CfgSrc) (words : List W32)
  /-- The DEVICE_CODE register must equal the device code, and otherwise the stream fails. (R217) -/
  | streamDeviceCode (src : CfgSrc) (words : List W32)
  /-- The FEATURE register fails the stream if its level exceeds FEATURE_LEVEL or VALID is 0. (R14) -/
  | streamFeature (src : CfgSrc) (words : List W32)
  /-- FRAME_ADDR sets the address of the next frame. (R210) -/
  | streamFrameAddr (src : CfgSrc) (words : List W32)
  /-- FDATA words are written into frames, each frame when its 128th word arrives, after the select-field check. (R220) -/
  | streamFdata (src : CfgSrc) (words : List W32)
  /-- OPTIONS records whether upset scanning starts with the dies. (R217) -/
  | streamOptions (src : CfgSrc) (words : List W32)
  /-- REGION names the die and region for HOLD and RELEASE. (R217) -/
  | streamRegion (src : CfgSrc) (words : List W32)
  /-- EBM_ADDR sets the frame address of the next map words. (R217) -/
  | streamEbmAddr (src : CfgSrc) (words : List W32)
  /-- EBM_DATA writes essential-bit map words. (R226) -/
  | streamEbmData (src : CfgSrc) (words : List W32)
  /-- The NULL command has no effect. (R217) -/
  | cmdNull (src : CfgSrc) (words : List W32)
  /-- A START that R219 honours schedules start-up of every loading die at tick T. (R222) -/
  | cmdStart (src : CfgSrc) (words : List W32)
  /-- HOLD writes BR_HOLD for the named region and stalls the stream until it is held. (R217) -/
  | cmdHold (src : CfgSrc) (words : List W32)
  /-- RELEASE writes BR_RELEASE for the named region. (R217) -/
  | cmdRelease (src : CfgSrc) (words : List W32)
  /-- DESYNC ends the stream and returns the controller to SYNC. (R217) -/
  | cmdDesync (src : CfgSrc) (words : List W32)
  /-- No word arrives for the TMO time while words are accepted, so the stream fails with cause 0x1. (R223) -/
  | streamTimeout
  /-- At T the started dies enter state starting and their frames close to writes. (R222) -/
  | startupBegin
  /-- At T+16 to T+256 start-up releases in turn the inputs, blocks, clocks, flip-flops, ports and outputs. (R222) -/
  | startupStage
  /-- At T+288 the dies enter state running, scanning may begin and DONE is released when all six run. (R222) -/
  | startupRunning
  /-- Every 128 ring cycles the frame engine checks the next configuration frame. (R227) -/
  | scanFrame (d : Fin 8) (flips : List Nat)
  /-- Writing FE_LOG_POP removes the head upset record. (R229) -/
  | feLogPop (m : Rm) (d : Fin 8) (v : W32)
  /-- A write of FE_LOG_STAT clears LOST with bit 16 and the upset counters with bit 0. (R229) -/
  | feLogStatWrite (m : Rm) (d : Fin 8) (v : W32)
  /-- A read of FE_RB_DATA returns the addressed word and advances, except on the debug peek path. (R230) -/
  | feRbDataRead (m : Rm) (d : Fin 8)
  /-- Writing CAPTURE copies every flip-flop of the die into the capture store on one tick. (R231) -/
  | feRbCapture (m : Rm) (d : Fin 8)
  /-- Issue of an undefined opcode, a misplaced operation or a nonzero must-be-zero field raises the illegal-operation fault. (R235) -/
  | illegalOperation (c : Fin 8)
  /-- NOP has no effect. (R235) -/
  | nop (c : Fin 8) (slot : Fin 4) (w : W32)
  /-- d = a + b, saturated when FN[0] is 1. (R235) -/
  | addOp (c : Fin 8) (slot : Fin 4) (w : W32)
  /-- d = a − b, saturated when FN[0] is 1. (R235) -/
  | subOp (c : Fin 8) (slot : Fin 4) (w : W32)
  /-- Bitwise and of a and b. (R235) -/
  | andOp (c : Fin 8) (slot : Fin 4) (w : W32)
  /-- Bitwise or of a and b. (R235) -/
  | orOp (c : Fin 8) (slot : Fin 4) (w : W32)
  /-- Bitwise xor of a and b. (R235) -/
  | xorOp (c : Fin 8) (slot : Fin 4) (w : W32)
  /-- a shifted left by b[4:0]. (R235) -/
  | shl (c : Fin 8) (slot : Fin 4) (w : W32)
  /-- a shifted right logically by b[4:0]. (R235) -/
  | shr (c : Fin 8) (slot : Fin 4) (w : W32)
  /-- a shifted right arithmetically by b[4:0]. (R235) -/
  | sra (c : Fin 8) (slot : Fin 4) (w : W32)
  /-- Signed minimum of a and b. (R235) -/
  | minOp (c : Fin 8) (slot : Fin 4) (w : W32)
  /-- Signed maximum of a and b. (R235) -/
  | maxOp (c : Fin 8) (slot : Fin 4) (w : W32)
  /-- d = a + imm10. (R235) -/
  | addi (c : Fin 8) (slot : Fin 4) (w : W32)
  /-- a shifted left by imm10[4:0]. (R235) -/
  | shli (c : Fin 8) (slot : Fin 4) (w : W32)
  /-- a shifted right logically by imm10[4:0]. (R235) -/
  | shri (c : Fin 8) (slot : Fin 4) (w : W32)
  /-- a shifted right arithmetically by imm10[4:0]. (R235) -/
  | srai (c : Fin 8) (slot : Fin 4) (w : W32)
  /-- d = imm16, sign-extended. (R235) -/
  | movi (c : Fin 8) (slot : Fin 4) (w : W32)
  /-- d[31:16] = imm16, with d[15:0] unchanged. (R235) -/
  | movhi (c : Fin 8) (slot : Fin 4) (w : W32)
  /-- Sets a predicate from comparing a and b under COND. (R235) -/
  | cmp (c : Fin 8) (slot : Fin 4) (w : W32)
  /-- Sets a predicate from comparing a and imm10 under COND. (R235) -/
  | cmpi (c : Fin 8) (slot : Fin 4) (w : W32)
  /-- d = a or b, chosen by a predicate. (R235) -/
  | sel (c : Fin 8) (slot : Fin 4) (w : W32)
  /-- Loads a scratchpad word, which delivers at latency 4. (R238) -/
  | ldw (c : Fin 8) (slot : Fin 4) (w : W32)
  /-- Loads a sign-extended halfword. (R235) -/
  | ldh (c : Fin 8) (slot : Fin 4) (w : W32)
  /-- Loads a zero-extended halfword. (R235) -/
  | ldhu (c : Fin 8) (slot : Fin 4) (w : W32)
  /-- Loads a sign-extended byte. (R235) -/
  | ldb (c : Fin 8) (slot : Fin 4) (w : W32)
  /-- Stores a word to the scratchpad at the end of the issue cycle. (R238) -/
  | stw (c : Fin 8) (slot : Fin 4) (w : W32)
  /-- Stores a halfword to the scratchpad. (R238) -/
  | sth (c : Fin 8) (slot : Fin 4) (w : W32)
  /-- Stores a byte to the scratchpad. (R238) -/
  | stb (c : Fin 8) (slot : Fin 4) (w : W32)
  /-- Loads a word and sets the reservation on it. (R250) -/
  | ldr (c : Fin 8) (slot : Fin 4) (w : W32)
  /-- Loads a word at a and then post-increments a. (R235) -/
  | ldwp (c : Fin 8) (slot : Fin 4) (w : W32)
  /-- Stores a word at a and then post-increments a. (R235) -/
  | stwp (c : Fin 8) (slot : Fin 4) (w : W32)
  /-- Stores only while the reservation is valid, clears the reservation and reports the outcome in d. (R250) -/
  | stc (c : Fin 8) (slot : Fin 4) (w : W32)
  /-- Accumulates four 16 × 16 products with a broadcast operand. (R240) -/
  | mac4 (c : Fin 8) (slot : Fin 4) (w : W32)
  /-- Writes four 16 × 16 products to the accumulators. (R240) -/
  | mul4 (c : Fin 8) (slot : Fin 4) (w : W32)
  /-- Accumulates two 32 × 16 products. (R240) -/
  | mac2 (c : Fin 8) (slot : Fin 4) (w : W32)
  /-- Writes two 32 × 16 products to the accumulators. (R240) -/
  | mul2 (c : Fin 8) (slot : Fin 4) (w : W32)
  /-- Reads an accumulator rounded, shifted and saturated into d. (R242) -/
  | accrd (c : Fin 8) (slot : Fin 4) (w : W32)
  /-- Writes an accumulator from a source register. (R242) -/
  | accwr (c : Fin 8) (slot : Fin 4) (w : W32)
  /-- Clears the accumulators named in the mask. (R235) -/
  | accclr (c : Fin 8) (slot : Fin 4) (w : W32)
  /-- d = low 32 bits of a times the sign-extended b[15:0]. (R235) -/
  | muls (c : Fin 8) (slot : Fin 4) (w : W32)
  /-- Relative branch with three delay slots. (R239) -/
  | brOp (c : Fin 8) (slot : Fin 4) (w : W32)
  /-- Indirect branch to a[13:0] with three delay slots. (R239) -/
  | bri (c : Fin 8) (slot : Fin 4) (w : W32)
  /-- Branch that writes the return bundle to v31. (R239) -/
  | callOp (c : Fin 8) (slot : Fin 4) (w : W32)
  /-- Repeats the following LEN bundles v[a] times, rotating the file when ROT is set. (R243) -/
  | repOp (c : Fin 8) (slot : Fin 4) (w : W32)
  /-- Advances TURN by one modulo RSIZE. (R234) -/
  | rotOp (c : Fin 8) (slot : Fin 4) (w : W32)
  /-- Returns from an interrupt, restoring TURN and the repeat state and setting IE. (R244) -/
  | reti (c : Fin 8) (slot : Fin 4) (w : W32)
  /-- Writes a special register, with effect for the next bundle. (R255) -/
  | mts (c : Fin 8) (slot : Fin 4) (w : W32)
  /-- Reads a special register into d. (R255) -/
  | mfs (c : Fin 8) (slot : Fin 4) (w : W32)
  /-- Queues 32 bytes of scratchpad data for a slot of the running pattern, or discards the send with a flag. (R246) -/
  | sendAt (c : Fin 8) (slot : Fin 4) (w : W32)
  /-- At the target tick the NI injects the queued payload in place of its entry's flit, or flags SND_NOENT. (R246) -/
  | sendAtInject (c : Fin 8)
  /-- Issues an external read of up to 256 bytes into the scratchpad under a tag. (R248) -/
  | xrd (c : Fin 8) (slot : Fin 4) (w : W32)
  /-- Issues an external write of up to 256 bytes from the scratchpad under a tag. (R248) -/
  | xwr (c : Fin 8) (slot : Fin 4) (w : W32)
  /-- An external transfer's response sets XSTAT, and XERR on a non-OK status. (R248) -/
  | xferComplete (c : Fin 8) (tag : Fin 16)
  /-- Stalls the core until the tags complete, an interrupt is taken, or the tick is reached. (R249) -/
  | waitOp (c : Fin 8) (slot : Fin 4) (w : W32)
  /-- A WAIT condition comes to hold and the core resumes issuing. (R249) -/
  | waitConditionMet (c : Fin 8)
  /-- Raises event 64 + 8n + 5. (R235) -/
  | sev (c : Fin 8) (slot : Fin 4) (w : W32)
  /-- Halts the core for debug when debug is enabled, and otherwise acts as NOP. (R388) -/
  | bkpt (c : Fin 8) (slot : Fin 4) (w : W32)
  /-- At an allowed boundary the core drains, saves its state in EPC, ESTAT and EREP, and fetches the handler. (R244) -/
  | interruptTake (c : Fin 8)
  /-- A flit or marker at the core's hub NI egress is written into the receive ring, or discarded on overflow. (R247) -/
  | rxRingWrite (c : Fin 8)
  /-- WD_CNT reaches zero or a wrong key is written; the watchdog sets EXPIRED, reloads and acts as ACT selects. (R251) -/
  | watchdogExpiry (c : Fin 8)
  /-- Writing CORE_CTRL.RST resets the core's registers and send queue within 16 cycles. (R253) -/
  | coreReset (m : Rm) (c : Fin 8)
  /-- Writing RUN = 0 stops the core at the next boundary, and writing 1 resumes it. (R253) -/
  | coreRunWrite (m : Rm) (c : Fin 8) (run : Bool)
  /-- A write of IM_DATA_3 stores a bundle into instruction memory, or is refused for the boot ROM. (R255) -/
  | imDataWrite (m : Rm) (c : Fin 8) (v : W32)
  /-- A ring access of DM_DATA reads or writes a scratchpad word as a crossbar access. (R233) -/
  | dmDataAccess (m : Rm) (c : Fin 8) (v : Option W32)
  /-- The boot ROM sees BOOT_MBOX.GO, stops serving ports and branches to ENTRY. (R254) -/
  | bootGo
  /-- A request to a hub memory bank is granted at its port, checked for ownership and performed. (R257) -/
  | bankRequest (portA : Bool) (bank : Fin 64) (bad : Option (Fin 8192))
  /-- A ring write of BANK_OWNER_n hands the bank over, or is refused. (R261) -/
  | bankOwnerWrite (m : Rm) (bank : Fin 64) (v : W32)
  /-- A write of CC_SEL_k selects what is counted and clears CC_CNT_k. (R263) -/
  | ccSelWrite (m : Rm) (k : Fin 16) (v : W32)
  /-- A bank returning from retention or off finishes waking or zeroing and accepts accesses. (R266) -/
  | bankWakeComplete (bank : Fin 64)
  /-- Writing BIST_CTRL.GO takes ownership of the bank and starts the test, or is refused. (R267) -/
  | bistGo (m : Rm) (bank : Fin 64)
  /-- Writing ABORT ends the test within 64 cycles and restores the previous owner. (R267) -/
  | bistAbort (m : Rm)
  /-- An urgent or debug request makes BIST restore the word under test and pause. (R267) -/
  | bistPause
  /-- 1,024 cycles pass with no urgent request and BIST resumes. (R267) -/
  | bistResume
  /-- The test finishes, restores the owner, sets DONE and raises event 130 or 131. (R267) -/
  | bistEnd (bad : List (Fin 8192))
  /-- Writing DMA_CTRL.GO fetches the head descriptor and starts the chain. (R269) -/
  | dmaGo (m : Rm) (e : Fin 4)
  /-- All writes of a descriptor are answered; the engine fetches NEXT or clears BUSY. (R269) -/
  | descriptorComplete (e : Fin 4)
  /-- DIS, with or without FORCE, drains the engine, sets DRAINED and clears EN. (R270) -/
  | dmaDisable (m : Rm) (e : Fin 4) (force : Bool)
  /-- Writing EN = 1 with DIS and FORCE at 0 re-enables the engine and clears DRAINED. (R270) -/
  | dmaEnable (m : Rm) (e : Fin 4)
  /-- Writing Q_CTRL.RETRAIN starts training of the pair. (R274) -/
  | qdrRetrain (m : Rm) (q : Fin 4)
  /-- Pair training ends with the pair ready or failed. (R274) -/
  | qdrTrainEnd (q : Fin 4) (ok : Bool)
  /-- At a service tick port A performs a scheduled read or write, or drops it as crowded or without an entry. (R275) -/
  | qdrServiceTick (q : Fin 4) (flips : List (Fin 4 × Fin 72))
  /-- A pair serves a best-effort request, correcting errors and answering within 2,048 ticks. (R281) -/
  | qdrBeRequest (q : Fin 4) (flips : List (Fin 32 × Fin 72))
  /-- A write of QS_DATA_1 stores a service-table entry, or is refused outside the shadow conditions. (R278) -/
  | qsDataWrite (m : Rm) (q : Fin 4) (v : W32)
  /-- Q_CTRL.SDIS disables the slot service through the four steps. (R283) -/
  | qdrSlotDisable (m : Rm) (q : Fin 4)
  /-- Q_CTRL.DIS disables the whole pair through the four steps. (R283) -/
  | qdrDisable (m : Rm) (q : Fin 4) (force : Bool)
  /-- Writing EN = 1 with the other bits at 0 re-enables the pair. (R283) -/
  | qdrEnable (m : Rm) (q : Fin 4)
  /-- Q_LB.GO runs a loop-back pattern at the selected depth. (R418) -/
  | qdrLbGo (m : Rm) (q : Fin 4)
  /-- The loop-back run completes, sets DONE and records the failing bits. (R418) -/
  | qdrLbDone (q : Fin 4) (fails : BitVec 144)
  /-- A write of Q_LB.DEPTH enters a loop when drained or failed, and DEPTH = 0 starts training. (R418) -/
  | qdrLbDepthWrite (m : Rm) (q : Fin 4) (depth : BitVec 2)
  /-- Writing DR_CTRL.INIT holds reset, starts CK and runs impedance calibration. (R299) -/
  | dramInit (m : Rm) (d : Fin 4)
  /-- Initialisation ends and STATE reads initialised. (R299) -/
  | dramInitComplete (d : Fin 4)
  /-- A write of DR_MR performs a mode-register read or write on one channel or all. (R299) -/
  | modeRegisterAccess (m : Rm) (d : Fin 4) (v : W32)
  /-- DR_TRN.GO starts a helper run of the selected MODE. (R299) -/
  | trainingRun (m : Rm) (d : Fin 4) (mode : BitVec 3) (devs : BitVec 10)
  /-- A helper run ends, the comparators hold their results and TRN_DONE is set. (R299) -/
  | trainingRunDone (d : Fin 4) (fails : List (BitVec 18))
  /-- Writing DR_CTRL.EN makes an initialised or drained set ready, or is refused. (R299) -/
  | dramEnable (m : Rm) (d : Fin 4)
  /-- DIS, with or without FORCE, drains the set while it keeps refreshing. (R300) -/
  | dramDisable (m : Rm) (d : Fin 4) (force : Bool)
  /-- A set takes a request into its places and performs it with correction, mix and tag checks. (R288) -/
  | dramRequest (d : Fin 4) (noise metaNoise : List SymErr)
  /-- A master's penalty time ends and its activates proceed. (R294) -/
  | throttleEnd (d : Fin 4) (master : BitVec 8)
  /-- At each refresh interval the set issues one per-bank refresh. (R293) -/
  | perBankRefresh (d : Fin 4)
  /-- A bank idle for IDLE CK cycles is precharged. (R289) -/
  | rowIdlePrecharge (d : Fin 4) (bank : Fin 16)
  /-- Every 16 ms the set reads the refresh-rate field and sets the refresh interval. (R295) -/
  | refreshRatePoll (d : Fin 4) (rates : List (Fin 4))
  /-- A write of DR_LB.DEPTH enters or leaves a loop-back through self-refresh. (R419) -/
  | drLbWrite (m : Rm) (d : Fin 4) (depth : BitVec 2)
  /-- A write of DR_ECC_CTRL enters or leaves erasure mode, or is refused for a bad POS. (R304) -/
  | drEccCtrlWrite (m : Rm) (d : Fin 4) (v : W32)
  /-- A write of KM_CTRL.EN is accepted only while no set is ready. (R307) -/
  | keyedMixEnable (m : Rm) (en : Bool)
  /-- All four sets become ready, so INIT is set and the metadata zero-fill begins. (R307) -/
  | kmFillStart
  /-- The metadata fill ends, READY is set and event 356 is raised. (R307) -/
  | kmFillComplete
  /-- KM_CTRL.FLUSH starts writing back every dirty metadata line. (R314) -/
  | kmFlush (m : Rm)
  /-- The write-back completes, FLUSHING clears and event 357 is raised. (R314) -/
  | kmFlushComplete
  /-- KM_CTRL.RETIRE begins retiring a key ID: its requests fail, and the flush and scan follow. (R316) -/
  | kmRetire (m : Rm) (k : Fin 16)
  /-- The scan ends, the key is zeroed, VALID clears and event 358 is raised. (R316) -/
  | kmRetireComplete
  /-- A write of KM_SLOT_k.VALID puts a key slot in or out of use, refused while retiring. (R308) -/
  | kmSlotWrite (m : Rm) (k : Fin 16) (v : W32)
  /-- A write of a key word is refused while VALID is 1. (R308) -/
  | kmKeyWrite (m : Rm) (k : Fin 16) (w : Fin 4) (v : W32)
  /-- KM_MCMD read fetches a line's counter, tag and key ID through the cache. (R317) -/
  | metadataRead (m : Rm) (metaNoise : List SymErr)
  /-- KM_MCMD write stores a line's counter, tag and key ID. (R317) -/
  | metadataWrite (m : Rm) (key : BitVec 4) (metaNoise : List SymErr)
  /-- SW_SWAP_CTRL.ARM arms an analog swap for a tick or an AC_SWAP edge, or is refused. (R331) -/
  | swapArm (m : Rm) (edge mat : Bool)
  /-- CANCEL disarms the swap up to 256 ticks before W, and otherwise is refused. (R331) -/
  | swapCancel (m : Rm)
  /-- A rising edge of AC_SWAP fixes the swap tick W. (R331) -/
  | acSwapEdge
  /-- At W the resulting configuration is checked, and the swap is performed or refused. (R332) -/
  | swapTake
  /-- AB_CMD.RUN starts a sampling run at a tick or on the grid, or is refused. (R334) -/
  | abRun (m : Rm) (n : Fin 48) (atStart : Bool)
  /-- AB_CMD.STOP ends the run, and drops a queued run. (R334) -/
  | abStop (m : Rm) (n : Fin 48)
  /-- AB_CMD.CAL starts or queues a block calibration. (R337) -/
  | abCal (m : Rm) (n : Fin 48)
  /-- A rising edge of AC_CMP_n or AC_TRIG_n starts a run on the next grid tick. (R334) -/
  | abTriggerEdge (n : Fin 48) (comparator : Bool)
  /-- On each sample tick the SAR takes a sample, and the run ends after COUNT samples. (R334) -/
  | abSample (n : Fin 48) (raw : BitVec 20)
  /-- 256 ticks after its sample a result enters the FIFO, or is discarded with OVF. (R335) -/
  | abResultEnter (n : Fin 48)
  /-- Block calibration ends, stores its factors, sets CAL_DONE and starts a queued run. (R337) -/
  | abCalEnd (n : Fin 48) (amp adc : W32)
  /-- A read of AB_RESULT removes the head word, or returns zero with RD_EMPTY. (R335) -/
  | abResultRead (m : Rm) (n : Fin 48)
  /-- A write of AB_CAL_AMP or AB_CAL_ADC is refused during calibration, and otherwise applies from the next sample. (R340) -/
  | abCalWrite (m : Rm) (n : Fin 48) (adc : Bool) (v : W32)
  /-- A write of AS_DATA_1 stores a stream entry into the shadow bank, or is refused. (R344) -/
  | asDataWrite (m : Rm) (v : W32)
  /-- A write of AF_CLK_k changes an analog fabric clock line without shortened phases. (R348) -/
  | afClkWrite (m : Rm) (k : Fin 4) (v : W32)
  /-- IC_CMD.RUN starts a conversion run, or is refused. (R357) -/
  | icRun (m : Rm) (n : Fin 16) (atStart : Bool)
  /-- IC_CMD.STOP ends the run after the current conversion and drops a queued run. (R357) -/
  | icStop (m : Rm) (n : Fin 16)
  /-- IC_CMD.CAL starts or queues calibration of the selected range. (R364) -/
  | icCal (m : Rm) (n : Fin 16)
  /-- At a start tick a conversion takes its configuration and begins integration, or the tick is skipped with LATE. (R352) -/
  | conversionStart (n : Fin 16)
  /-- After I ticks the input is disconnected and auto-zero or residue begins. (R352) -/
  | inputIntegrationEnd (n : Fin 16)
  /-- After auto-zero the residue measurement starts. (R352) -/
  | residueStart (n : Fin 16)
  /-- The result word enters the FIFO, or is discarded with OVF, and the conversion ends. (R360) -/
  | conversionEnd (n : Fin 16) (raw : BitVec 40)
  /-- Converter calibration ends, stores or rejects the factors, sets CAL_DONE and resumes a run. (R363) -/
  | icCalEnd (n : Fin 16) (zero ref : BitVec 40)
  /-- A read of IC_RESULT removes the head word, or returns zero with RD_EMPTY. (R361) -/
  | icResultRead (m : Rm) (n : Fin 16)
  /-- A rising mains crossing is timed, updates the tracker and may lock it or start a conversion. (R355) -/
  | mainsCrossing
  /-- No crossing arrives for 50 ms, so the tracker unlocks and LOST is set. (R355) -/
  | mainsUnlockTimeout
  /-- A write of PWR_REQ starts a domain request, or is refused. (R371) -/
  | pwrReq (m : Rm) (domain : BitVec 7) (target : BitVec 2)
  /-- The controller asks every block of the domain and collects grant, delay or refuse. (R372) -/
  | powerHandshakeAsk
  /-- The largest delay count ends and the controller asks the blocks again. (R372) -/
  | powerDelayExpiry
  /-- The request is not granted within PWR_LIMIT rim cycles and ends refused with reason 0x7. (R372) -/
  | powerLimitExpiry
  /-- After all blocks grant, the domain changes state, DONE is set and event 0 is raised. (R372) -/
  | domainStateChange
  /-- A domain turning on becomes ready after the time of its own chapter. (R372) -/
  | domainReady (domain : BitVec 7)
  /-- Writing RTC_CTRL.LOAD copies RTC_SET into the counter at the next rim cycle. (R376) -/
  | rtcLoad (m : Rm)
  /-- Writing RTC_SNAP captures the RTC counter and the tick together. (R376) -/
  | rtcSnap (m : Rm)
  /-- The counter equals RTC_ALM, so ALARM is set and the wake requests may be issued. (R377) -/
  | rtcAlarm
  /-- No crystal edge arrives for 1 ms, so RTC_FAIL is set and the counter stops. (R377) -/
  | rtcFail
  /-- VCC_AUX is lost, the rim runs from VBAT and VBAT_USED is set. (R375) -/
  | vbatSwitchover
  /-- A source pulse sets its raw bit and goes to the cores, pins and channel messages that its route names. (R381) -/
  | eventOccurrence (e : BitVec 11)
  /-- A die's event collector sends one event message for a rising pending bit once its path is available. (R379) -/
  | collectorMessageSend (e : BitVec 11)
  /-- The bridge sends a queued channel message through hub NI 47. (R381) -/
  | bridgeMessageSend
  /-- The event bridge raises the event of a collector or channel message, or drops it as bad. (R380) -/
  | eventMessageReceive
  /-- A pulse on EVT_OUT_i ends after WIDTH × 16 ticks. (R383) -/
  | evtOutPulseEnd (i : Fin 8)
  /-- Writing EV_OUT_CLR bit i ends a level on EVT_OUT_i. (R383) -/
  | evOutClr (m : Rm) (mask : BitVec 8)
  /-- A write of EV_OUT_CFG_i with EN = 0 ends any pulse, level or toggle. (R383) -/
  | evOutCfgWrite (m : Rm) (i : Fin 8) (v : W32)
  /-- Update-DR of the RING register starts a debug ring access, or sets OVERRUN. (R386) -/
  | jtagRingUpdate (r : BitVec 68)
  /-- Update-DR of the RIM register with WR = 1 writes a rim register. (R387) -/
  | jtagRimUpdate (r : BitVec 40)
  /-- TRST_N or Test-Logic-Reset resets the hub TAP and every TAP in the chain. (R385) -/
  | tapReset (trst : Bool)
  /-- Update-IR loads an instruction, which may take the pins or start intrusive effects. (R406) -/
  | tapInstructionLoad (hub : BitVec 8) (dies : BitVec 64)
  /-- Update-DR of CHAIN_SEL chooses which die TAPs are in the chain. (R405) -/
  | chainSelUpdate (v : BitVec 8)
  /-- Update-DR of DIE_BIST starts a march test on an unconfigured die, or is refused. (R410) -/
  | dieBistStart (d : Fin 8) (start : Bool)
  /-- The march test ends with its result, and the frames and map reset. (R410) -/
  | dieBistEnd (d : Fin 8) (fails : Nat)
  /-- Update-DR of D2D_TEST selects a module or starts an interconnect run, or is refused. (R411) -/
  | d2dTestUpdate (v : BitVec 16)
  /-- Each test step drives a pattern, which the receiving die samples. (R412) -/
  | d2dStep (wrong : List (Fin 2752))
  /-- The results are latched, DONE is set and every module of the edge starts full training. (R412) -/
  | d2dRunEnd
  /-- DBG_RUNCTL.HALT requests a halt of each named core. (R392) -/
  | dbgHalt (m : Rm) (mask : BitVec 8)
  /-- DBG_RUNCTL.RESUME returns each named halted core to its previous state. (R392) -/
  | dbgResume (m : Rm) (mask : BitVec 8)
  /-- DBG_RUNCTL.STEP runs each named halted core to the next boundary, then halts it. (R392) -/
  | dbgStep (m : Rm) (mask : BitVec 8)
  /-- At an allowed boundary the core drains, sets HALTED and raises its halt event. (R389) -/
  | haltTaken (c : Fin 8)
  /-- A halt deferred by a reservation for 256 cycles is forced and clears the reservation. (R389) -/
  | haltDeferExpiry (c : Fin 8)
  /-- A bundle matches a breakpoint comparator or range, and the core halts before it. (R395) -/
  | breakpointMatch (c : Fin 8)
  /-- A load or store matches a data comparator, and the core halts at the next boundary. (R396) -/
  | dataWatchMatch (c : Fin 8)
  /-- An access of DBG_REG_DATA_n reads or writes a halted core's state, or is refused. (R394) -/
  | dbgRegAccess (m : Rm) (c : Fin 8) (v : Option W32)
  /-- The device side writes DBG_TX and sets TXV, or is refused. (R401) -/
  | terminalTxWrite (m : Rm) (v : W32)
  /-- The host writes 1 to TXV to consume the word, raising event 1,929. (R401) -/
  | terminalTxConsume (m : Rm)
  /-- The host writes DBG_RX and sets RXV, raising event 1,928, or is refused. (R401) -/
  | terminalRxWrite (m : Rm) (v : W32)
  /-- The device side writes 1 to RXV to consume the word. (R401) -/
  | terminalRxConsume (m : Rm)
  /-- A write of TP_CTRL.LOOP or TP_LB.RET selects a lane loop-back in DOWN with EN = 0, or is refused. (R415) -/
  | tpLbWrite (m : Rm) (p : Fin 6) (ret : Bool) (v : BitVec 2)
  /-- A write of GL_LB sets each general lane's loop-back depth, with effect within 64 ticks. (R416) -/
  | glLbWrite (m : Rm) (d : Fin 6) (q : Fin 4) (v : W32)
  /-- A write of REF_LOOP drives a reference level onto a bus, or is refused when the net has a driver. (R421) -/
  | refLoopWrite (m : Rm) (v : W32)
  /-- A die-link receiver loses both FCK and FCKS, for example when the far transmitter stops, and starts full training. (R140) -/
  | forwardedClockLoss (l : LinkId)
  /-- A quad PLL of a torus port loses lock and raises the port's event with k = 8. (R185) -/
  | quadPllLockLoss (p : Fin 6) (q : Fin 4)
  /-- Crystal edges return after RTC_FAIL, and the RTC counter and alarm run again. (R377) -/
  | rtcEdgesReturn
  /-- REFCLK is interrupted while the domain clocks are stopped, which clears SRC_VALID and restarts the qualification time. (R38) -/
  | refclkInterruption
  /-- PROG_N returns high after an assertion, and clearing then completes within 3,000,000 ticks. (R213) -/
  | progNRelease
  /-- A frame engine finishes writing a frame from its input buffer, freeing room so a stalled source can resume, and may finish its last frame before start-up. (R216) -/
  | frameEngineWriteDone (d : Fin 8)
  /-- Capture-DR of the RING register loads BUSY, STATUS and the read data, and clears OVERRUN. (R386) -/
  | ringCaptureDr
  /-- Update-DR of a boundary register under an intrusive instruction drives the pins that the register names. (R409) -/
  | boundaryScanUpdate (d : Fin 8) (v : Nat)
  deriving DecidableEq, Repr

end Sys2Proof
end

