-- ==== Sys2Proof/Config.lean ====
section
/-! DEFINITION. The free values of the model: what the spec leaves open (DESIGN CHOICE, safe, log entry 9). Each is a constant with no body, applied to the
plain counter `State.free`, so that every reading is a fresh value of which nothing can be proved. -/

namespace Sys2Proof.Config

/-- The free word: a value the spec does not state, numbered by the counter of the state that reads it. -/
opaque freeWord : Nat → BitVec 1024
/-- The free choice: a yes or no the spec leaves open. -/
opaque freeBool : Nat → Bool

/-- Whether a frame fails the select-field check: the spec does not say which bits are select fields (R190, R210). -/
opaque selectBad : Nat → BitVec 4096 → Bool
/-- The bits of a word of a minor that are flip-flop `INIT` values: the spec does not list them, fixed per minor (R210). -/
opaque initBits : Nat → BitVec 32
/-- A word of a memory block that user logic may have written: the tick of the read, and the place (R198). -/
opaque blockWord : Nat → Nat → BitVec 32
/-- A word of a capture of the flip-flops: the capture's number, and the place (R231). -/
opaque captured : Nat → Nat → BitVec 32

end Sys2Proof.Config
end

