-- ==== Sys2Proof/Machine/Regs.lean ====
section
/-! DEFINITION. The register map of chapters 01 to 18: every register's address, its fields, its reset value and which of its
bits a ring write stores or clears (R8 to R10). -/

namespace Sys2Proof.Machine

/-- A register field: its least significant bit and its width. -/
structure Fld where
  lsb : Nat
  width : Nat
  deriving DecidableEq, Repr

/-- One row of the register map: `count` registers from `off` in steps of `stride`, their reset value, the bits a write
stores and the bits a written 1 clears; every other bit ignores a write (R9). -/
structure RegRow where
  off : Nat
  stride : Nat
  count : Nat
  reset : Nat
  rw : Nat
  w1c : Nat
  deriving DecidableEq, Repr

/-- The row holds a register at this offset. -/
def RegRow.hits (r : RegRow) (o : Nat) : Bool :=
  decide (r.off ≤ o) && (o - r.off) % r.stride == 0 && decide ((o - r.off) / r.stride < r.count)

/-- A control register's place: die, block and offset in one number (chapter 01, control space). -/
def ra (d b o : Nat) : Nat := 4294967296 * d + 65536 * b + o
/-- NI n of die d; the analog endpoint (die 7) keeps its NI registers at 0x1000 of block 0x0A00. -/
def niA (d n o : Nat) : Nat := if d = 7 then ra 7 0xA00 (0x1000 + o) else ra d (0x100 + n) o
/-- The frame engine of a die: block 0x0004, on die 7 block 0x0A00 (R349). -/
def feA (d o : Nat) : Nat := if d = 7 then ra 7 0xA00 o else ra d 4 o

/-! ### Register addresses, one name per register of the spec -/
def aDIE_INFO (d : Nat) : Nat := ra d 0 0x0
def aDEVICE_CODE : Nat := ra 6 0 0x4
def aFEATURE_LEVEL : Nat := ra 6 0 0x8
def aDIE_PRESENT : Nat := ra 6 0 0xC
def aGRADE : Nat := ra 6 0 0x10
def aUID_LO : Nat := ra 6 0 0x18
def aUID_HI : Nat := ra 6 0 0x1C
def aDEVICE_ID : Nat := ra 6 0 0x20
def aDIE_RESET : Nat := ra 6 0 0x24
def aREF_CTRL : Nat := ra 6 1 0x0
def aREF_STATUS : Nat := ra 6 1 0x4
def aSSC_CTRL : Nat := ra 6 1 0x8
def aFREQ_MON : Nat := ra 6 1 0xC
def aSTRAP_CLK : Nat := ra 6 1 0x10
def aRIM_CLK : Nat := ra 6 1 0x20
def aFCLK_CFG (k : Nat) : Nat := ra 6 1 (0x40 + 4 * k)
def aTICK_SNAP : Nat := ra 6 0x300 0x0
def aTICK_LO (k : Nat) : Nat := ra 6 0x300 (0x8 + 8 * k)
def aTICK_HI (k : Nat) : Nat := ra 6 0x300 (0xC + 8 * k)
def aTICK_CTRL : Nat := ra 6 0x300 0x20
def aTICK_ALIGN : Nat := ra 6 0x300 0x24
def aPAT_CTRL : Nat := ra 6 0x300 0x100
def aPAT_AT_LO : Nat := ra 6 0x300 0x104
def aPAT_AT_HI : Nat := ra 6 0x300 0x108
def aPAT_STATUS : Nat := ra 6 0x300 0x10C
def aSH_PERIOD : Nat := ra 6 0x300 0x110
def aACT_PERIOD : Nat := ra 6 0x300 0x130
def aSH_ID : Nat := ra 6 0x300 0x114
def aACT_ID : Nat := ra 6 0x300 0x134
def aSH_BUDGET (k : Nat) : Nat := ra 6 0x300 (0x118 + 4 * k)
def aACT_BUDGET (k : Nat) : Nat := ra 6 0x300 (0x138 + 4 * k)
def aSF_HEAD_0 : Nat := ra 6 0x300 0x150
def aSF_HEAD_1 : Nat := ra 6 0x300 0x154
def aSF_HEAD_2 : Nat := ra 6 0x300 0x158
def aSF_STATUS : Nat := ra 6 0x300 0x15C
def aSF_POP : Nat := ra 6 0x300 0x160
def aBREACH_SUM : Nat := ra 6 0x300 0x170
def aNI_CTRL (d n : Nat) : Nat := niA d n 0x0
def aNI_STATUS (d n : Nat) : Nat := niA d n 0x4
def aNI_ERR (d n : Nat) : Nat := niA d n 0x8
def aFIFO_CFG (d n : Nat) (k : Nat) : Nat := niA d n (0x10 + 4 * k)
def aFIFO_STAT (d n : Nat) (k : Nat) : Nat := niA d n (0x20 + 4 * k)
def aFIFO_FLUSH (d n : Nat) : Nat := niA d n 0x30
def aPS_ADDR (d n : Nat) : Nat := niA d n 0x40
def aPS_DATA_0 (d n : Nat) : Nat := niA d n 0x44
def aPS_DATA_1 (d n : Nat) : Nat := niA d n 0x48
def aPS_DATA_2 (d n : Nat) : Nat := niA d n 0x4C
def aPS_DATA_3 (d n : Nat) : Nat := niA d n 0x50
def aPS_COMMIT (k : Nat) : Nat := ra 6 0x300 (0x180 + 8 * k)
def aPS_CSTAT (k : Nat) : Nat := ra 6 0x300 (0x184 + 8 * k)
def aBE_CFG (d n : Nat) : Nat := niA d n 0x60
def aBE_TMO (d n : Nat) : Nat := niA d n 0x64
def aSP_BASE_LO (d n : Nat) : Nat := niA d n 0x68
def aSP_BASE_HI (d n : Nat) : Nat := niA d n 0x6C
def aSP_SIZE (d n : Nat) : Nat := niA d n 0x70
def aSP_CTRL (d n : Nat) : Nat := niA d n 0x74
def aSP_STAT (d n : Nat) : Nat := niA d n 0x78
def aSP_RP (d n : Nat) : Nat := niA d n 0x7C
def aBE_STATUS (d n : Nat) : Nat := niA d n 0x80
def aBE_FLAG (d n : Nat) : Nat := niA d n 0x84
def aLM_CTRL (b : Nat) : Nat := b + 0x0
def aLM_STATUS (b : Nat) : Nat := b + 0x4
def aLM_ERR (b : Nat) : Nat := b + 0x8
def aLM_COUNT (b : Nat) : Nat := b + 0xC
def aLM_WIRE (b : Nat) (k : Nat) : Nat := b + (0x10 + 4 * k)
def aLM_SBWIRE (b : Nat) : Nat := b + 0x24
def aLN_CTRL (b j : Nat) : Nat := b + (0x20 * j + 0x0)
def aLN_TAP (b j : Nat) : Nat := b + (0x20 * j + 0x4)
def aLN_ALIGN (b j : Nat) : Nat := b + (0x20 * j + 0x8)
def aLN_CAPTURE (b j : Nat) : Nat := b + (0x20 * j + 0xC)
def aLN_STATUS (b j : Nat) : Nat := b + (0x20 * j + 0x10)
def aLN_ERRCNT (b j : Nat) : Nat := b + (0x20 * j + 0x14)
def aTP_CTRL (p : Nat) : Nat := ra 6 (0x200 + 4 * p) 0x100
def aTP_STATUS (p : Nat) : Nat := ra 6 (0x200 + 4 * p) 0x104
def aTP_ERR (p : Nat) : Nat := ra 6 (0x200 + 4 * p) 0x108
def aTP_LAT (p : Nat) : Nat := ra 6 (0x200 + 4 * p) 0x10C
def aTP_EXP_LO (p : Nat) : Nat := ra 6 (0x200 + 4 * p) 0x110
def aTP_EXP_HI (p : Nat) : Nat := ra 6 (0x200 + 4 * p) 0x114
def aTP_SEEN_LO (p : Nat) : Nat := ra 6 (0x200 + 4 * p) 0x118
def aTP_SEEN_HI (p : Nat) : Nat := ra 6 (0x200 + 4 * p) 0x11C
def aTP_SEEN_INFO (p : Nat) : Nat := ra 6 (0x200 + 4 * p) 0x120
def aTP_CFG_BASE_LO (p : Nat) : Nat := ra 6 (0x200 + 4 * p) 0x130
def aTP_CFG_BASE_HI (p : Nat) : Nat := ra 6 (0x200 + 4 * p) 0x134
def aTP_CFG_LEN (p : Nat) : Nat := ra 6 (0x200 + 4 * p) 0x138
def aTP_CFG_CTRL (p : Nat) : Nat := ra 6 (0x200 + 4 * p) 0x13C
def aTORUS_SIZE : Nat := ra 6 0 0x28
def aRG_ADDR_LO (k : Nat) : Nat := ra 6 0 (0x100 + 32 * k)
def aRG_ADDR_HI (k : Nat) : Nat := ra 6 0 (0x104 + 32 * k)
def aRG_DATA (k : Nat) : Nat := ra 6 0 (0x108 + 32 * k)
def aRG_CTRL (k : Nat) : Nat := ra 6 0 (0x10C + 32 * k)
def aRG_STATUS (k : Nat) : Nat := ra 6 0 (0x110 + 32 * k)
def aPRB_SEL (d : Nat) (k : Nat) : Nat := ra d 0 (0x200 + 4 * k)
def aBR_RGN (d : Nat) (k : Nat) : Nat := ra d 0x600 (0x0 + 4 * k)
def aBR_STAT (d : Nat) : Nat := ra d 0x600 0x40
def aBR_HOLD (d : Nat) : Nat := ra d 0x600 0x44
def aBR_RELEASE (d : Nat) : Nat := ra d 0x600 0x48
def aCFG_STATUS : Nat := ra 6 4 0x0
def aCFG_CTRL : Nat := ra 6 4 0x4
def aCFG_SDATA : Nat := ra 6 4 0x8
def aCFG_SPACE : Nat := ra 6 4 0xC
def aCFG_DIES : Nat := ra 6 4 0x10
def aCFG_FAIL_WORD : Nat := ra 6 4 0x14
def aCFG_FAIL_FA : Nat := ra 6 4 0x18
def aCFG_WORDS : Nat := ra 6 4 0x1C
def aFE_SCAN_CTRL (d : Nat) : Nat := feA d 0x0
def aFE_SCAN_POS (d : Nat) : Nat := feA d 0x4
def aFE_SCAN_FRAME (d : Nat) : Nat := feA d 0x8
def aFE_UPSET_CNT (d : Nat) : Nat := feA d 0xC
def aFE_LOG_0 (d : Nat) : Nat := feA d 0x10
def aFE_LOG_1 (d : Nat) : Nat := feA d 0x14
def aFE_LOG_2 (d : Nat) : Nat := feA d 0x18
def aFE_LOG_STAT (d : Nat) : Nat := feA d 0x1C
def aFE_LOG_POP (d : Nat) : Nat := feA d 0x20
def aFE_RB_ADDR (d : Nat) : Nat := feA d 0x40
def aFE_RB_CTRL (d : Nat) : Nat := feA d 0x44
def aFE_RB_DATA (d : Nat) : Nat := feA d 0x48
def aFE_RB_PEEK (d : Nat) : Nat := feA d 0x4C
def aFE_RB_ECC (d : Nat) : Nat := feA d 0x50
def aCORE_CTRL (n : Nat) : Nat := ra 6 (0x10 + n) 0x0
def aCORE_STATUS (n : Nat) : Nat := ra 6 (0x10 + n) 0x4
def aCORE_FLAG (n : Nat) : Nat := ra 6 (0x10 + n) 0x8
def aIM_ADDR (n : Nat) : Nat := ra 6 (0x10 + n) 0x10
def aIM_DATA_0 (n : Nat) : Nat := ra 6 (0x10 + n) 0x14
def aIM_DATA_1 (n : Nat) : Nat := ra 6 (0x10 + n) 0x18
def aIM_DATA_2 (n : Nat) : Nat := ra 6 (0x10 + n) 0x1C
def aIM_DATA_3 (n : Nat) : Nat := ra 6 (0x10 + n) 0x20
def aDM_ADDR (n : Nat) : Nat := ra 6 (0x10 + n) 0x30
def aDM_DATA (n : Nat) : Nat := ra 6 (0x10 + n) 0x34
def aWD_CTRL (n : Nat) : Nat := ra 6 (0x10 + n) 0x40
def aWD_LOAD (n : Nat) : Nat := ra 6 (0x10 + n) 0x44
def aWD_CNT (n : Nat) : Nat := ra 6 (0x10 + n) 0x48
def aBOOT_MBOX : Nat := ra 6 0x10 0x50
def aBANK_OWNER (k : Nat) : Nat := ra 6 0x20 (0x0 + 4 * k)
def aBANK_PWR (k : Nat) : Nat := ra 6 0x20 (0x100 + 4 * k)
def aBANK_FAULT_0 : Nat := ra 6 0x20 0x110
def aBANK_FAULT_1 : Nat := ra 6 0x20 0x114
def aBANK_PAR : Nat := ra 6 0x20 0x118
def aCC_SEL (k : Nat) : Nat := ra 6 0x20 (0x200 + 8 * k)
def aCC_CNT (k : Nat) : Nat := ra 6 0x20 (0x204 + 8 * k)
def aBIST_CTRL : Nat := ra 6 0x20 0x300
def aBIST_STATUS : Nat := ra 6 0x20 0x304
def aDMA_CTRL (k : Nat) : Nat := ra 6 0x20 (0x400 + 32 * k)
def aDMA_HEAD_LO (k : Nat) : Nat := ra 6 0x20 (0x404 + 32 * k)
def aDMA_HEAD_HI (k : Nat) : Nat := ra 6 0x20 (0x408 + 32 * k)
def aDMA_STATUS (k : Nat) : Nat := ra 6 0x20 (0x40C + 32 * k)
def aDMA_CUR (k : Nat) : Nat := ra 6 0x20 (0x410 + 32 * k)
def aQ_CTRL (q : Nat) : Nat := ra 6 (0x40 + q) 0x0
def aQ_STATUS (q : Nat) : Nat := ra 6 (0x40 + q) 0x4
def aQ_ERR (q : Nat) : Nat := ra 6 (0x40 + q) 0x8
def aQ_CNT (q : Nat) : Nat := ra 6 (0x40 + q) 0xC
def aQ_UE (q : Nat) : Nat := ra 6 (0x40 + q) 0x10
def aQ_EADDR (q : Nat) : Nat := ra 6 (0x40 + q) 0x14
def aQS_ADDR (q : Nat) : Nat := ra 6 (0x40 + q) 0x20
def aQS_DATA_0 (q : Nat) : Nat := ra 6 (0x40 + q) 0x24
def aQS_DATA_1 (q : Nat) : Nat := ra 6 (0x40 + q) 0x28
def aDR_CTRL (q : Nat) : Nat := ra 6 (0x30 + q) 0x0
def aDR_CFG (q : Nat) : Nat := ra 6 (0x30 + q) 0x4
def aDR_STATUS (q : Nat) : Nat := ra 6 (0x30 + q) 0x8
def aDR_PAGE (q : Nat) : Nat := ra 6 (0x30 + q) 0xC
def aDR_PASR (q : Nat) : Nat := ra 6 (0x30 + q) 0x10
def aDR_RH_CFG (q : Nat) : Nat := ra 6 (0x30 + q) 0x14
def aDR_RH_LOG (q : Nat) : Nat := ra 6 (0x30 + q) 0x18
def aDR_MR (q : Nat) : Nat := ra 6 (0x30 + q) 0x20
def aDR_TRN (q : Nat) : Nat := ra 6 (0x30 + q) 0x24
def aDR_PG (q : Nat) : Nat := ra 6 (0x30 + q) 0x28
def aDR_CMP (q : Nat) (k : Nat) : Nat := ra 6 (0x30 + q) (0x30 + 4 * k)
def aDR_DLY_ADDR (q : Nat) : Nat := ra 6 (0x30 + q) 0x60
def aDR_DLY_DATA (q : Nat) : Nat := ra 6 (0x30 + q) 0x64
def aDR_CE (q : Nat) (k : Nat) : Nat := ra 6 (0x30 + q) (0x70 + 4 * k)
def aDR_UE (q : Nat) : Nat := ra 6 (0x30 + q) 0x84
def aDR_ELOG_LO (q : Nat) : Nat := ra 6 (0x30 + q) 0x88
def aDR_ELOG_HI (q : Nat) : Nat := ra 6 (0x30 + q) 0x8C
def aDR_ELOG_CTRL (q : Nat) : Nat := ra 6 (0x30 + q) 0x90
def aDR_FLAG (q : Nat) : Nat := ra 6 (0x30 + q) 0x94
def aDR_ECC_CTRL (q : Nat) : Nat := ra 6 (0x30 + q) 0xA0
def aDR_ECC_STAT (q : Nat) : Nat := ra 6 (0x30 + q) 0xA4
def aKM_CTRL : Nat := ra 6 0x38 0x0
def aKM_STATUS : Nat := ra 6 0x38 0x4
def aKM_ERR : Nat := ra 6 0x38 0x8
def aKM_ELINE_LO : Nat := ra 6 0x38 0xC
def aKM_ELINE_HI : Nat := ra 6 0x38 0x10
def aKM_EINFO : Nat := ra 6 0x38 0x14
def aKM_MISS : Nat := ra 6 0x38 0x18
def aKM_SLOT (k : Nat) : Nat := ra 6 0x38 (0x20 + 4 * k)
def aKM_KEY (k : Nat) : Nat := ra 6 0x38 (0x100 + 4 * k)
def aKM_MADDR_LO : Nat := ra 6 0x38 0x60
def aKM_MADDR_HI : Nat := ra 6 0x38 0x64
def aKM_MCTR_LO : Nat := ra 6 0x38 0x68
def aKM_MCTR_HI : Nat := ra 6 0x38 0x6C
def aKM_MTAG : Nat := ra 6 0x38 0x70
def aKM_MCMD : Nat := ra 6 0x38 0x74
def aAB_CFG_AMP (n : Nat) : Nat := ra 7 (0x700 + n) 0x0
def aAB_CFG_FLT (n : Nat) : Nat := ra 7 (0x700 + n) 0x4
def aAB_CFG_ADC (n : Nat) : Nat := ra 7 (0x700 + n) 0x8
def aAB_CFG_IN (n : Nat) : Nat := ra 7 (0x700 + n) 0xC
def aAB_ACT_AMP (n : Nat) : Nat := ra 7 (0x700 + n) 0x20
def aAB_ACT_FLT (n : Nat) : Nat := ra 7 (0x700 + n) 0x24
def aAB_ACT_ADC (n : Nat) : Nat := ra 7 (0x700 + n) 0x28
def aAB_ACT_IN (n : Nat) : Nat := ra 7 (0x700 + n) 0x2C
def aAB_TRIG (n : Nat) : Nat := ra 7 (0x700 + n) 0x40
def aAB_START_LO (n : Nat) : Nat := ra 7 (0x700 + n) 0x44
def aAB_START_HI (n : Nat) : Nat := ra 7 (0x700 + n) 0x48
def aAB_COUNT (n : Nat) : Nat := ra 7 (0x700 + n) 0x4C
def aAB_CMD (n : Nat) : Nat := ra 7 (0x700 + n) 0x50
def aAB_STATUS (n : Nat) : Nat := ra 7 (0x700 + n) 0x54
def aAB_FLAG (n : Nat) : Nat := ra 7 (0x700 + n) 0x58
def aAB_RESULT (n : Nat) : Nat := ra 7 (0x700 + n) 0x60
def aAB_PEEK (n : Nat) : Nat := ra 7 (0x700 + n) 0x64
def aAB_FIFO_CFG (n : Nat) : Nat := ra 7 (0x700 + n) 0x68
def aAB_CAL_AMP (n : Nat) : Nat := ra 7 (0x700 + n) 0x70
def aAB_CAL_ADC (n : Nat) : Nat := ra 7 (0x700 + n) 0x74
def aSW_PIN (k : Nat) : Nat := ra 7 0x780 (0x0 + 4 * k)
def aSW_ACT (k : Nat) : Nat := ra 7 0x780 (0x80 + 4 * k)
def aSW_SWAP_CTRL : Nat := ra 7 0x780 0x100
def aSW_SWAP_AT_LO : Nat := ra 7 0x780 0x104
def aSW_SWAP_AT_HI : Nat := ra 7 0x780 0x108
def aSW_SWAP_MASK_LO : Nat := ra 7 0x780 0x10C
def aSW_SWAP_MASK_HI : Nat := ra 7 0x780 0x110
def aSW_SWAP_STAT : Nat := ra 7 0x780 0x114
def aAS_ADDR : Nat := ra 7 0xA00 0x100
def aAS_DATA_0 : Nat := ra 7 0xA00 0x104
def aAS_DATA_1 : Nat := ra 7 0xA00 0x108
def aAS_ERR : Nat := ra 7 0xA00 0x10C
def aAF_CLK (k : Nat) : Nat := ra 7 0xA00 (0x120 + 4 * k)
def aIC_CFG (n : Nat) : Nat := ra 7 (0x800 + n) 0x0
def aIC_PER (n : Nat) : Nat := ra 7 (0x800 + n) 0x4
def aIC_START_LO (n : Nat) : Nat := ra 7 (0x800 + n) 0x8
def aIC_START_HI (n : Nat) : Nat := ra 7 (0x800 + n) 0xC
def aIC_COUNT (n : Nat) : Nat := ra 7 (0x800 + n) 0x10
def aIC_CMD (n : Nat) : Nat := ra 7 (0x800 + n) 0x14
def aIC_STATUS (n : Nat) : Nat := ra 7 (0x800 + n) 0x18
def aIC_FLAG (n : Nat) : Nat := ra 7 (0x800 + n) 0x1C
def aIC_RESULT (n : Nat) : Nat := ra 7 (0x800 + n) 0x20
def aIC_PEEK (n : Nat) : Nat := ra 7 (0x800 + n) 0x24
def aIC_FIFO_CFG (n : Nat) : Nat := ra 7 (0x800 + n) 0x28
def aIC_TSTAMP_LO (n : Nat) : Nat := ra 7 (0x800 + n) 0x30
def aIC_TSTAMP_HI (n : Nat) : Nat := ra 7 (0x800 + n) 0x34
def aCAL_OFFSET (n : Nat) (k : Nat) : Nat := ra 7 (0x800 + n) (0x40 + 8 * k)
def aCAL_GAIN (n : Nat) (k : Nat) : Nat := ra 7 (0x800 + n) (0x44 + 8 * k)
def aMS_CTRL : Nat := ra 7 0x900 0x0
def aMS_PERIOD : Nat := ra 7 0x900 0x4
def aMS_MEAS : Nat := ra 7 0x900 0x8
def aMS_FLAG : Nat := ra 7 0x900 0xC
def aMS_CAL : Nat := ra 7 0x900 0x10
def aREF_VAL (k : Nat) : Nat := ra 7 0x900 (0x20 + 4 * k)
def aREF_LOOP : Nat := ra 7 0x900 0x30
def aPWR_REQ : Nat := ra 6 2 0x0
def aPWR_RESULT : Nat := ra 6 2 0x4
def aPWR_LIMIT : Nat := ra 6 2 0x8
def aPWR_STATE (k : Nat) : Nat := ra 6 2 (0x10 + 4 * k)
def aRIM_STAT : Nat := ra 6 2 0x100
def aRTC_CTRL : Nat := ra 6 2 0x104
def aRTC_SET_LO : Nat := ra 6 2 0x108
def aRTC_SET_HI : Nat := ra 6 2 0x10C
def aRTC_ALM_LO : Nat := ra 6 2 0x110
def aRTC_ALM_HI : Nat := ra 6 2 0x114
def aRTC_SNAP : Nat := ra 6 2 0x118
def aRTC_SNAP_LO : Nat := ra 6 2 0x11C
def aRTC_SNAP_HI : Nat := ra 6 2 0x120
def aRTC_SNAP_TLO : Nat := ra 6 2 0x124
def aRTC_SNAP_THI : Nat := ra 6 2 0x128
def aRTC_WAKE (k : Nat) : Nat := ra 6 2 (0x130 + 4 * k)
def aRIM_BACKUP (k : Nat) : Nat := ra 6 2 (0x140 + 4 * k)
def aEV_CTRL : Nat := ra 6 3 0x0
def aEV_STAT : Nat := ra 6 3 0x4
def aEV_OUT_CFG (k : Nat) : Nat := ra 6 3 (0x10 + 4 * k)
def aEV_OUT_CLR : Nat := ra 6 3 0x30
def aEV_MSG (k : Nat) : Nat := ra 6 3 (0x40 + 4 * k)
def aEV_RX_0 (k : Nat) : Nat := ra 6 3 (0x80 + 4 * k)
def aEV_RX_1 (k : Nat) : Nat := ra 6 3 (0xA0 + 4 * k)
def aEV_CORE (k : Nat) : Nat := ra 6 3 (0xC0 + 4 * k)
def aEV_RAW (k : Nat) : Nat := ra 6 3 (0x400 + 4 * k)
def aEV_PEND (k : Nat) : Nat := ra 6 3 (0x500 + 4 * k)
def aEV_ROUTE (k : Nat) : Nat := ra 6 3 (0x1000 + 4 * k)
def aDBG_CTRL : Nat := ra 6 0x400 0x0
def aDBG_RUNCTL : Nat := ra 6 0x400 0x4
def aDBG_LOST : Nat := ra 6 0x400 0x8
def aDBG_TX : Nat := ra 6 0x400 0x10
def aDBG_RX : Nat := ra 6 0x400 0x14
def aDBG_TERM_STAT : Nat := ra 6 0x400 0x18
def aDBG_CORE_CTRL (n : Nat) : Nat := ra 6 0x400 (0x100 + 0x80 * n + 0x0)
def aDBG_CORE_STAT (n : Nat) : Nat := ra 6 0x400 (0x100 + 0x80 * n + 0x4)
def aDBG_FRZ (n : Nat) : Nat := ra 6 0x400 (0x100 + 0x80 * n + 0x8)
def aDBG_REG_ADDR (n : Nat) : Nat := ra 6 0x400 (0x100 + 0x80 * n + 0xC)
def aDBG_REG_DATA (n : Nat) : Nat := ra 6 0x400 (0x100 + 0x80 * n + 0x10)
def aBP_CFG (n : Nat) : Nat := ra 6 0x400 (0x100 + 0x80 * n + 0x14)
def aBP_VAL (n : Nat) (k : Nat) : Nat := ra 6 0x400 (0x100 + 0x80 * n + 0x20 + 4 * k)
def aBP_RNG (n : Nat) (k : Nat) : Nat := ra 6 0x400 (0x100 + 0x80 * n + 0x40 + 4 * k)
def aWP_ADDR (n : Nat) (k : Nat) : Nat := ra 6 0x400 (0x100 + 0x80 * n + 0x50 + 8 * k)
def aWP_CTL (n : Nat) (k : Nat) : Nat := ra 6 0x400 (0x100 + 0x80 * n + 0x54 + 8 * k)
def aTP_LB (p : Nat) : Nat := ra 6 (0x200 + 4 * p) 0x140
def aGL_LB (d q : Nat) : Nat := ra d (0x200 + q) 0x80
def aQ_LB (q : Nat) : Nat := ra 6 (0x40 + q) 0x30
def aQ_LB_FAIL (q : Nat) (k : Nat) : Nat := ra 6 (0x40 + q) (0x34 + 4 * k)
def aDR_LB (q : Nat) : Nat := ra 6 (0x30 + q) 0xB0

/-! ### Register fields, [lsb, width] as the register tables give them -/
def fDIE_INFO_DIE_TYPE : Fld := ⟨8, 2⟩
def fDIE_INFO_DIE_INDEX : Fld := ⟨4, 3⟩
def fDIE_INFO_DIE_REV : Fld := ⟨0, 4⟩
def fDEVICE_CODE_CODE : Fld := ⟨0, 32⟩
def fFEATURE_LEVEL_VALID : Fld := ⟨8, 1⟩
def fFEATURE_LEVEL_MIN_DIE : Fld := ⟨4, 3⟩
def fFEATURE_LEVEL_LEVEL : Fld := ⟨0, 4⟩
def fDIE_PRESENT_PRESENT : Fld := ⟨0, 8⟩
def fGRADE_TEMP : Fld := ⟨8, 1⟩
def fGRADE_SPEED : Fld := ⟨0, 2⟩
def fUID_LO_UID : Fld := ⟨0, 32⟩
def fUID_HI_UID : Fld := ⟨0, 32⟩
def fDEVICE_ID_ID : Fld := ⟨0, 16⟩
def fDIE_RESET_RST_A : Fld := ⟨7, 1⟩
def fDIE_RESET_RST_L : Fld := ⟨0, 6⟩
def fREF_CTRL_INH : Fld := ⟨18, 4⟩
def fREF_CTRL_QUAL : Fld := ⟨16, 2⟩
def fREF_CTRL_HOLD_EN : Fld := ⟨12, 1⟩
def fREF_CTRL_PORT : Fld := ⟨8, 3⟩
def fREF_CTRL_LANE : Fld := ⟨4, 4⟩
def fREF_CTRL_SRC : Fld := ⟨0, 1⟩
def fREF_STATUS_ROOT_LOCK : Fld := ⟨5, 1⟩
def fREF_STATUS_SLEW : Fld := ⟨4, 1⟩
def fREF_STATUS_HOLD : Fld := ⟨3, 1⟩
def fREF_STATUS_ACTIVE : Fld := ⟨2, 1⟩
def fREF_STATUS_REC_OK : Fld := ⟨1, 1⟩
def fREF_STATUS_LOC_OK : Fld := ⟨0, 1⟩
def fSSC_CTRL_RATE : Fld := ⟨8, 2⟩
def fSSC_CTRL_DEPTH : Fld := ⟨0, 4⟩
def fFREQ_MON_VALID : Fld := ⟨31, 1⟩
def fFREQ_MON_DIFF : Fld := ⟨0, 24⟩
def fSTRAP_CLK_OSC_DLY : Fld := ⟨0, 3⟩
def fRIM_CLK_CAUSE : Fld := ⟨12, 4⟩
def fRIM_CLK_LATCHED : Fld := ⟨8, 1⟩
def fRIM_CLK_ACK : Fld := ⟨3, 1⟩
def fRIM_CLK_SRC_VALID : Fld := ⟨1, 1⟩
def fRIM_CLK_STOPPED : Fld := ⟨0, 1⟩
def fFCLK_CFG_EN : Fld := ⟨31, 1⟩
def fFCLK_CFG_DIV : Fld := ⟨0, 12⟩
def fTICK_SNAP_SNAP : Fld := ⟨0, 32⟩
def fTICK_LO_TICK : Fld := ⟨0, 32⟩
def fTICK_HI_TICK : Fld := ⟨0, 32⟩
def fTICK_CTRL_TOL : Fld := ⟨16, 6⟩
def fTICK_CTRL_ARM : Fld := ⟨8, 1⟩
def fTICK_CTRL_UP_PORT : Fld := ⟨4, 3⟩
def fTICK_CTRL_MASTER : Fld := ⟨0, 1⟩
def fTICK_ALIGN_ALIGNED : Fld := ⟨31, 1⟩
def fTICK_ALIGN_LOST : Fld := ⟨30, 1⟩
def fTICK_ALIGN_UP_ALIGNED : Fld := ⟨29, 1⟩
def fTICK_ALIGN_OFFSET : Fld := ⟨0, 16⟩
def fPAT_CTRL_ACTION : Fld := ⟨0, 3⟩
def fPAT_AT_LO_AT : Fld := ⟨0, 32⟩
def fPAT_AT_HI_AT : Fld := ⟨0, 32⟩
def fPAT_STATUS_RUN : Fld := ⟨31, 1⟩
def fPAT_STATUS_TAIL : Fld := ⟨30, 1⟩
def fPAT_STATUS_ACT_BANK : Fld := ⟨29, 1⟩
def fPAT_STATUS_ARMED : Fld := ⟨26, 3⟩
def fPAT_STATUS_REFUSE : Fld := ⟨16, 4⟩
def fPAT_STATUS_SHADOW_OK : Fld := ⟨0, 8⟩
def fSH_PERIOD_P16 : Fld := ⟨0, 13⟩
def fACT_PERIOD_P16 : Fld := ⟨0, 13⟩
def fSH_ID_ID : Fld := ⟨0, 32⟩
def fACT_ID_ID : Fld := ⟨0, 32⟩
def fSH_BUDGET_B : Fld := ⟨0, 12⟩
def fACT_BUDGET_B : Fld := ⟨0, 12⟩
def fSF_HEAD_0_FLOW_B : Fld := ⟨16, 12⟩
def fSF_HEAD_0_FLOW_A : Fld := ⟨0, 12⟩
def fSF_HEAD_1_KIND : Fld := ⟨28, 4⟩
def fSF_HEAD_1_DIE : Fld := ⟨24, 3⟩
def fSF_HEAD_1_ROUTER : Fld := ⟨16, 6⟩
def fSF_HEAD_1_PORT : Fld := ⟨8, 3⟩
def fSF_HEAD_2_TICK : Fld := ⟨0, 32⟩
def fSF_STATUS_LOST : Fld := ⟨16, 16⟩
def fSF_STATUS_COUNT : Fld := ⟨0, 5⟩
def fSF_POP_POP : Fld := ⟨0, 32⟩
def fBREACH_SUM_ALIGN : Fld := ⟨17, 1⟩
def fBREACH_SUM_HOLD : Fld := ⟨16, 1⟩
def fBREACH_SUM_PORT : Fld := ⟨8, 6⟩
def fBREACH_SUM_DIE : Fld := ⟨0, 8⟩
def fNI_CTRL_LOOP : Fld := ⟨8, 1⟩
def fNI_CTRL_RATIO : Fld := ⟨4, 3⟩
def fNI_CTRL_FORCE : Fld := ⟨2, 1⟩
def fNI_CTRL_DIS : Fld := ⟨1, 1⟩
def fNI_CTRL_EN : Fld := ⟨0, 1⟩
def fNI_STATUS_EGR : Fld := ⟨16, 4⟩
def fNI_STATUS_STAGED : Fld := ⟨8, 6⟩
def fNI_STATUS_DEBT : Fld := ⟨2, 6⟩
def fNI_STATUS_MARKS : Fld := ⟨1, 1⟩
def fNI_STATUS_DRAINED : Fld := ⟨0, 1⟩
def fNI_ERR_CTRL_SPACE : Fld := ⟨7, 1⟩
def fNI_ERR_SB_PAR : Fld := ⟨6, 1⟩
def fNI_ERR_BAD_TYPE : Fld := ⟨5, 1⟩
def fNI_ERR_PORT_MISMATCH : Fld := ⟨4, 1⟩
def fNI_ERR_ROUTE_MISS : Fld := ⟨3, 1⟩
def fNI_ERR_EGR_OVF : Fld := ⟨2, 1⟩
def fNI_ERR_STG_OVF : Fld := ⟨1, 1⟩
def fNI_ERR_FIFO_OVF : Fld := ⟨0, 1⟩
def fFIFO_CFG_LVL_EN : Fld := ⟨8, 1⟩
def fFIFO_CFG_LEVEL : Fld := ⟨0, 6⟩
def fFIFO_STAT_FLUSHING : Fld := ⟨11, 1⟩
def fFIFO_STAT_LVL : Fld := ⟨10, 1⟩
def fFIFO_STAT_FULL : Fld := ⟨9, 1⟩
def fFIFO_STAT_EMPTY : Fld := ⟨8, 1⟩
def fFIFO_STAT_COUNT : Fld := ⟨0, 7⟩
def fFIFO_FLUSH_FLUSH : Fld := ⟨0, 4⟩
def fPS_ADDR_AINC : Fld := ⟨21, 1⟩
def fPS_ADDR_BANK : Fld := ⟨20, 1⟩
def fPS_ADDR_TSEL : Fld := ⟨16, 4⟩
def fPS_ADDR_INDEX : Fld := ⟨0, 16⟩
def fPS_DATA_0_DATA : Fld := ⟨0, 32⟩
def fPS_DATA_1_DATA : Fld := ⟨0, 32⟩
def fPS_DATA_2_DATA : Fld := ⟨0, 32⟩
def fPS_DATA_3_DATA : Fld := ⟨0, 32⟩
def fPS_COMMIT_CRC : Fld := ⟨0, 32⟩
def fPS_CSTAT_BUSY : Fld := ⟨31, 1⟩
def fPS_CSTAT_OK : Fld := ⟨30, 1⟩
def fPS_CSTAT_ERR : Fld := ⟨26, 4⟩
def fPS_CSTAT_NI : Fld := ⟨20, 6⟩
def fPS_CSTAT_TSEL : Fld := ⟨16, 4⟩
def fPS_CSTAT_INDEX : Fld := ⟨0, 16⟩
def fBE_CFG_AGE : Fld := ⟨16, 16⟩
def fBE_CFG_SPILL_THR : Fld := ⟨0, 16⟩
def fBE_TMO_STALL : Fld := ⟨24, 8⟩
def fBE_TMO_TIMEOUT : Fld := ⟨0, 24⟩
def fSP_BASE_LO_BASE : Fld := ⟨9, 23⟩
def fSP_BASE_HI_BASE : Fld := ⟨0, 16⟩
def fSP_SIZE_RECORDS : Fld := ⟨0, 20⟩
def fSP_CTRL_EN : Fld := ⟨0, 1⟩
def fSP_STAT_SPILLING : Fld := ⟨31, 1⟩
def fSP_STAT_FULL : Fld := ⟨30, 1⟩
def fSP_STAT_BROKEN : Fld := ⟨29, 1⟩
def fSP_STAT_COUNT : Fld := ⟨0, 20⟩
def fSP_RP_RP : Fld := ⟨0, 20⟩
def fBE_STATUS_RSV : Fld := ⟨8, 7⟩
def fBE_STATUS_OUTSTANDING : Fld := ⟨0, 7⟩
def fBE_FLAG_DRAINED : Fld := ⟨7, 1⟩
def fBE_FLAG_STALL : Fld := ⟨6, 1⟩
def fBE_FLAG_SPILL_ERR : Fld := ⟨5, 1⟩
def fBE_FLAG_SPILL_FULL : Fld := ⟨4, 1⟩
def fBE_FLAG_SPILL_START : Fld := ⟨3, 1⟩
def fBE_FLAG_TAG_DUP : Fld := ⟨2, 1⟩
def fBE_FLAG_LATE_RSP : Fld := ⟨1, 1⟩
def fBE_FLAG_TIMEOUT : Fld := ⟨0, 1⟩
def fLM_CTRL_FCKS : Fld := ⟨16, 1⟩
def fLM_CTRL_LOOP : Fld := ⟨12, 2⟩
def fLM_CTRL_CAP : Fld := ⟨8, 3⟩
def fLM_CTRL_CLR_CNT : Fld := ⟨3, 1⟩
def fLM_CTRL_FENCE : Fld := ⟨2, 1⟩
def fLM_CTRL_UNFENCE : Fld := ⟨1, 1⟩
def fLM_CTRL_RETRAIN : Fld := ⟨0, 1⟩
def fLM_STATUS_MISMATCH : Fld := ⟨30, 2⟩
def fLM_STATUS_RING : Fld := ⟨29, 1⟩
def fLM_STATUS_MARGIN_BAD : Fld := ⟨28, 1⟩
def fLM_STATUS_CLK_S : Fld := ⟨27, 1⟩
def fLM_STATUS_SBG : Fld := ⟨24, 3⟩
def fLM_STATUS_WIDTH : Fld := ⟨20, 3⟩
def fLM_STATUS_TX_MASK : Fld := ⟨15, 5⟩
def fLM_STATUS_MASK : Fld := ⟨10, 5⟩
def fLM_STATUS_STATE : Fld := ⟨0, 4⟩
def fLM_ERR_STAGE_TMO : Fld := ⟨8, 1⟩
def fLM_ERR_RING_MOVED : Fld := ⟨7, 1⟩
def fLM_ERR_MARGIN : Fld := ⟨6, 1⟩
def fLM_ERR_WIDTH_LOSS : Fld := ⟨5, 1⟩
def fLM_ERR_FENCED : Fld := ⟨4, 1⟩
def fLM_ERR_MISMATCH : Fld := ⟨3, 1⟩
def fLM_ERR_RETRAIN : Fld := ⟨2, 1⟩
def fLM_ERR_RESYNC : Fld := ⟨1, 1⟩
def fLM_ERR_CRC : Fld := ⟨0, 1⟩
def fLM_COUNT_TRAINS : Fld := ⟨16, 16⟩
def fLM_COUNT_CRC_ERR : Fld := ⟨0, 16⟩
def fLM_WIRE_FAIL : Fld := ⟨0, 32⟩
def fLM_SBWIRE_FCKS_BAD : Fld := ⟨10, 1⟩
def fLM_SBWIRE_FCK_BAD : Fld := ⟨9, 1⟩
def fLM_SBWIRE_VLD : Fld := ⟨8, 1⟩
def fLM_SBWIRE_SB : Fld := ⟨0, 8⟩
def fLN_CTRL_MODE : Fld := ⟨24, 2⟩
def fLN_CTRL_RATE : Fld := ⟨20, 2⟩
def fLN_CTRL_TXPOL : Fld := ⟨17, 1⟩
def fLN_CTRL_RXPOL : Fld := ⟨16, 1⟩
def fLN_CTRL_CLR : Fld := ⟨8, 1⟩
def fLN_CTRL_TXEN : Fld := ⟨0, 1⟩
def fLN_TAP_MAIN : Fld := ⟨16, 6⟩
def fLN_TAP_POST : Fld := ⟨8, 4⟩
def fLN_TAP_PRE : Fld := ⟨0, 4⟩
def fLN_ALIGN_LOCKED : Fld := ⟨31, 1⟩
def fLN_ALIGN_BY_AM : Fld := ⟨30, 1⟩
def fLN_ALIGN_DONE : Fld := ⟨24, 1⟩
def fLN_ALIGN_SLIP : Fld := ⟨16, 1⟩
def fLN_ALIGN_OFFSET : Fld := ⟨0, 4⟩
def fLN_CAPTURE_RAW : Fld := ⟨0, 20⟩
def fLN_STATUS_FAULT : Fld := ⟨3, 1⟩
def fLN_STATUS_CDR_LOCK : Fld := ⟨2, 1⟩
def fLN_STATUS_PLL_LOCK : Fld := ⟨1, 1⟩
def fLN_STATUS_ACTIVE : Fld := ⟨0, 1⟩
def fLN_ERRCNT_ERR : Fld := ⟨0, 16⟩
def fTP_CTRL_LOOP : Fld := ⟨16, 2⟩
def fTP_CTRL_LSTATE : Fld := ⟨12, 2⟩
def fTP_CTRL_FW_ALIGN : Fld := ⟨8, 1⟩
def fTP_CTRL_CFG_RX : Fld := ⟨7, 1⟩
def fTP_CTRL_ACCEPT : Fld := ⟨5, 1⟩
def fTP_CTRL_RETRAIN : Fld := ⟨4, 1⟩
def fTP_CTRL_FORCE : Fld := ⟨2, 1⟩
def fTP_CTRL_DIS : Fld := ⟨1, 1⟩
def fTP_CTRL_EN : Fld := ⟨0, 1⟩
def fTP_STATUS_REFUSE : Fld := ⟨28, 4⟩
def fTP_STATUS_DRAINED : Fld := ⟨19, 1⟩
def fTP_STATUS_FAR_SCHED : Fld := ⟨18, 1⟩
def fTP_STATUS_HALF : Fld := ⟨16, 1⟩
def fTP_STATUS_DEGRADED : Fld := ⟨7, 1⟩
def fTP_STATUS_VERIFIED : Fld := ⟨6, 1⟩
def fTP_STATUS_SCHED : Fld := ⟨5, 1⟩
def fTP_STATUS_STATE : Fld := ⟨0, 4⟩
def fTP_ERR_CFG : Fld := ⟨8, 1⟩
def fTP_ERR_BUDGET : Fld := ⟨7, 1⟩
def fTP_ERR_PAIR : Fld := ⟨6, 1⟩
def fTP_ERR_ID : Fld := ⟨5, 1⟩
def fTP_ERR_FAR : Fld := ⟨4, 1⟩
def fTP_ERR_SKEW : Fld := ⟨3, 1⟩
def fTP_ERR_STAGE : Fld := ⟨2, 1⟩
def fTP_ERR_CTRL_CRC : Fld := ⟨1, 1⟩
def fTP_ERR_LANE : Fld := ⟨0, 1⟩
def fTP_LAT_M : Fld := ⟨20, 12⟩
def fTP_LAT_D : Fld := ⟨0, 20⟩
def fTP_EXP_LO_UID : Fld := ⟨0, 32⟩
def fTP_EXP_HI_UID : Fld := ⟨0, 32⟩
def fTP_SEEN_LO_UID : Fld := ⟨0, 32⟩
def fTP_SEEN_HI_UID : Fld := ⟨0, 32⟩
def fTP_SEEN_INFO_DEV : Fld := ⟨16, 16⟩
def fTP_SEEN_INFO_PORT : Fld := ⟨0, 3⟩
def fTP_CFG_BASE_LO_BASE : Fld := ⟨2, 30⟩
def fTP_CFG_BASE_HI_BASE : Fld := ⟨0, 16⟩
def fTP_CFG_LEN_WORDS : Fld := ⟨0, 28⟩
def fTP_CFG_CTRL_BUSY : Fld := ⟨31, 1⟩
def fTP_CFG_CTRL_DONE : Fld := ⟨30, 1⟩
def fTP_CFG_CTRL_ERR : Fld := ⟨29, 1⟩
def fTP_CFG_CTRL_ABORT : Fld := ⟨1, 1⟩
def fTP_CFG_CTRL_GO : Fld := ⟨0, 1⟩
def fTORUS_SIZE_SX : Fld := ⟨16, 6⟩
def fTORUS_SIZE_SY : Fld := ⟨8, 5⟩
def fTORUS_SIZE_SZ : Fld := ⟨0, 5⟩
def fRG_ADDR_LO_BLOCK : Fld := ⟨16, 16⟩
def fRG_ADDR_LO_OFFSET : Fld := ⟨2, 14⟩
def fRG_ADDR_HI_DEV : Fld := ⟨16, 16⟩
def fRG_ADDR_HI_DIE : Fld := ⟨8, 3⟩
def fRG_ADDR_HI_PORT : Fld := ⟨4, 3⟩
def fRG_ADDR_HI_DIRECT : Fld := ⟨0, 1⟩
def fRG_DATA_DATA : Fld := ⟨0, 32⟩
def fRG_CTRL_TMO : Fld := ⟨16, 16⟩
def fRG_CTRL_OP : Fld := ⟨0, 2⟩
def fRG_STATUS_BUSY : Fld := ⟨31, 1⟩
def fRG_STATUS_RESULT : Fld := ⟨0, 3⟩
def fPRB_SEL_EN : Fld := ⟨31, 1⟩
def fPRB_SEL_MODE : Fld := ⟨30, 1⟩
def fPRB_SEL_SRC : Fld := ⟨28, 2⟩
def fPRB_SEL_CLK : Fld := ⟨23, 5⟩
def fPRB_SEL_COLUMN : Fld := ⟨14, 9⟩
def fPRB_SEL_ROW : Fld := ⟨4, 10⟩
def fPRB_SEL_CELL : Fld := ⟨1, 3⟩
def fPRB_SEL_FF : Fld := ⟨0, 1⟩
def fBR_RGN_V : Fld := ⟨31, 1⟩
def fBR_RGN_COL_LAST : Fld := ⟨17, 9⟩
def fBR_RGN_COL_FIRST : Fld := ⟨8, 9⟩
def fBR_RGN_RB_LAST : Fld := ⟨4, 4⟩
def fBR_RGN_RB_FIRST : Fld := ⟨0, 4⟩
def fBR_STAT_PENDING : Fld := ⟨16, 16⟩
def fBR_STAT_HOLD : Fld := ⟨0, 16⟩
def fBR_HOLD_MASK : Fld := ⟨0, 16⟩
def fBR_RELEASE_MASK : Fld := ⟨0, 16⟩
def fCFG_STATUS_STATE : Fld := ⟨28, 4⟩
def fCFG_STATUS_CAUSE : Fld := ⟨24, 4⟩
def fCFG_STATUS_SRC : Fld := ⟨21, 3⟩
def fCFG_STATUS_PORT : Fld := ⟨18, 3⟩
def fCFG_STATUS_DONE : Fld := ⟨17, 1⟩
def fCFG_STATUS_INIT : Fld := ⟨16, 1⟩
def fCFG_STATUS_OTHER : Fld := ⟨15, 1⟩
def fCFG_STATUS_MODE : Fld := ⟨8, 3⟩
def fCFG_STATUS_PULL : Fld := ⟨7, 1⟩
def fCFG_CTRL_TMO : Fld := ⟨0, 16⟩
def fCFG_SDATA_WORD : Fld := ⟨0, 32⟩
def fCFG_SPACE_FREE : Fld := ⟨0, 9⟩
def fCFG_DIES_DIE_7 : Fld := ⟨14, 2⟩
def fCFG_DIES_DIE_0 : Fld := ⟨0, 12⟩
def fCFG_FAIL_WORD_VALUE : Fld := ⟨0, 32⟩
def fCFG_FAIL_FA_VALUE : Fld := ⟨0, 32⟩
def fCFG_WORDS_VALUE : Fld := ⟨0, 32⟩
def fFE_SCAN_CTRL_PASS_EVT : Fld := ⟨8, 1⟩
def fFE_SCAN_CTRL_EN : Fld := ⟨0, 1⟩
def fFE_SCAN_POS_PASSES : Fld := ⟨16, 16⟩
def fFE_SCAN_FRAME_F : Fld := ⟨0, 17⟩
def fFE_UPSET_CNT_NONESS : Fld := ⟨20, 12⟩
def fFE_UPSET_CNT_ESS : Fld := ⟨8, 12⟩
def fFE_UPSET_CNT_UNCORR : Fld := ⟨0, 8⟩
def fFE_LOG_0_FA : Fld := ⟨0, 32⟩
def fFE_LOG_1_KIND : Fld := ⟨30, 2⟩
def fFE_LOG_1_CHK : Fld := ⟨13, 1⟩
def fFE_LOG_1_WORD : Fld := ⟨5, 8⟩
def fFE_LOG_1_BIT : Fld := ⟨0, 5⟩
def fFE_LOG_2_TICK : Fld := ⟨0, 32⟩
def fFE_LOG_STAT_LOST : Fld := ⟨16, 16⟩
def fFE_LOG_STAT_COUNT : Fld := ⟨0, 4⟩
def fFE_LOG_POP_POP : Fld := ⟨0, 32⟩
def fFE_RB_ADDR_FA : Fld := ⟨8, 24⟩
def fFE_RB_ADDR_WORD : Fld := ⟨0, 7⟩
def fFE_RB_CTRL_CAPTURE : Fld := ⟨8, 1⟩
def fFE_RB_CTRL_SRC : Fld := ⟨0, 1⟩
def fFE_RB_DATA_DATA : Fld := ⟨0, 32⟩
def fFE_RB_PEEK_DATA : Fld := ⟨0, 32⟩
def fFE_RB_ECC_C : Fld := ⟨0, 14⟩
def fCORE_CTRL_ENTRY : Fld := ⟨16, 14⟩
def fCORE_CTRL_RST : Fld := ⟨1, 1⟩
def fCORE_CTRL_RUN : Fld := ⟨0, 1⟩
def fCORE_STATUS_STATE : Fld := ⟨29, 3⟩
def fCORE_STATUS_FCAUSE : Fld := ⟨24, 4⟩
def fCORE_STATUS_PC : Fld := ⟨0, 14⟩
def fCORE_FLAG_X_ERR : Fld := ⟨5, 1⟩
def fCORE_FLAG_RX_OVF : Fld := ⟨4, 1⟩
def fCORE_FLAG_SND_NORUN : Fld := ⟨3, 1⟩
def fCORE_FLAG_SND_DUP : Fld := ⟨2, 1⟩
def fCORE_FLAG_SND_NOENT : Fld := ⟨1, 1⟩
def fCORE_FLAG_SND_OVF : Fld := ⟨0, 1⟩
def fIM_ADDR_AINC : Fld := ⟨31, 1⟩
def fIM_ADDR_INDEX : Fld := ⟨0, 14⟩
def fIM_DATA_0_SLOT : Fld := ⟨0, 32⟩
def fIM_DATA_1_SLOT : Fld := ⟨0, 32⟩
def fIM_DATA_2_SLOT : Fld := ⟨0, 32⟩
def fIM_DATA_3_SLOT : Fld := ⟨0, 32⟩
def fDM_ADDR_AINC : Fld := ⟨31, 1⟩
def fDM_ADDR_WORD : Fld := ⟨2, 16⟩
def fDM_DATA_DATA : Fld := ⟨0, 32⟩
def fWD_CTRL_EXPIRED : Fld := ⟨8, 1⟩
def fWD_CTRL_ACT : Fld := ⟨4, 2⟩
def fWD_CTRL_FRZ : Fld := ⟨1, 1⟩
def fWD_CTRL_EN : Fld := ⟨0, 1⟩
def fWD_LOAD_COUNT : Fld := ⟨0, 32⟩
def fWD_CNT_COUNT : Fld := ⟨0, 32⟩
def fBOOT_MBOX_GO : Fld := ⟨31, 1⟩
def fBOOT_MBOX_ENTRY : Fld := ⟨0, 14⟩
def fBANK_OWNER_GIVE_EN : Fld := ⟨9, 1⟩
def fBANK_OWNER_RD_SHARE : Fld := ⟨8, 1⟩
def fBANK_OWNER_OWNER : Fld := ⟨0, 8⟩
def fBANK_PWR_STATE : Fld := ⟨0, 32⟩
def fBANK_FAULT_0_COUNT : Fld := ⟨24, 8⟩
def fBANK_FAULT_0_MASTER : Fld := ⟨16, 8⟩
def fBANK_FAULT_0_WRITE : Fld := ⟨15, 1⟩
def fBANK_FAULT_0_BANK : Fld := ⟨8, 6⟩
def fBANK_FAULT_0_OWNER : Fld := ⟨0, 8⟩
def fBANK_FAULT_1_WORD : Fld := ⟨0, 13⟩
def fBANK_PAR_ERR : Fld := ⟨31, 1⟩
def fBANK_PAR_BANK : Fld := ⟨13, 6⟩
def fBANK_PAR_WORD : Fld := ⟨0, 13⟩
def fCC_SEL_ALL : Fld := ⟨16, 1⟩
def fCC_SEL_BANK : Fld := ⟨8, 6⟩
def fCC_SEL_MASTER : Fld := ⟨0, 8⟩
def fCC_CNT_CYCLES : Fld := ⟨0, 32⟩
def fBIST_CTRL_ABORT : Fld := ⟨9, 1⟩
def fBIST_CTRL_GO : Fld := ⟨8, 1⟩
def fBIST_CTRL_BANK : Fld := ⟨0, 6⟩
def fBIST_STATUS_BUSY : Fld := ⟨31, 1⟩
def fBIST_STATUS_PAUSED : Fld := ⟨30, 1⟩
def fBIST_STATUS_DONE : Fld := ⟨29, 1⟩
def fBIST_STATUS_FAIL : Fld := ⟨28, 1⟩
def fBIST_STATUS_WORD : Fld := ⟨8, 13⟩
def fBIST_STATUS_PREV : Fld := ⟨0, 8⟩
def fDMA_CTRL_GO : Fld := ⟨3, 1⟩
def fDMA_CTRL_FORCE : Fld := ⟨2, 1⟩
def fDMA_CTRL_DIS : Fld := ⟨1, 1⟩
def fDMA_CTRL_EN : Fld := ⟨0, 1⟩
def fDMA_HEAD_LO_HEAD : Fld := ⟨0, 32⟩
def fDMA_HEAD_HI_HEAD : Fld := ⟨0, 32⟩
def fDMA_STATUS_BUSY : Fld := ⟨31, 1⟩
def fDMA_STATUS_DRAINED : Fld := ⟨30, 1⟩
def fDMA_STATUS_ERR : Fld := ⟨29, 1⟩
def fDMA_STATUS_STATUS : Fld := ⟨26, 3⟩
def fDMA_STATUS_LEFT : Fld := ⟨0, 24⟩
def fDMA_CUR_ADDR : Fld := ⟨0, 32⟩
def fQ_CTRL_RETRAIN : Fld := ⟨4, 1⟩
def fQ_CTRL_SDIS : Fld := ⟨3, 1⟩
def fQ_CTRL_FORCE : Fld := ⟨2, 1⟩
def fQ_CTRL_DIS : Fld := ⟨1, 1⟩
def fQ_CTRL_EN : Fld := ⟨0, 1⟩
def fQ_STATUS_STATE : Fld := ⟨29, 3⟩
def fQ_STATUS_DRAINED : Fld := ⟨28, 1⟩
def fQ_STATUS_SDRAINED : Fld := ⟨27, 1⟩
def fQ_STATUS_QUEUED : Fld := ⟨0, 6⟩
def fQ_ERR_TRN_FAIL : Fld := ⟨4, 1⟩
def fQ_ERR_NOENT : Fld := ⟨3, 1⟩
def fQ_ERR_CROWD : Fld := ⟨2, 1⟩
def fQ_ERR_UE : Fld := ⟨1, 1⟩
def fQ_ERR_CE : Fld := ⟨0, 1⟩
def fQ_CNT_CE_1 : Fld := ⟨16, 16⟩
def fQ_CNT_CE_0 : Fld := ⟨0, 16⟩
def fQ_UE_COUNT : Fld := ⟨16, 16⟩
def fQ_EADDR_UE : Fld := ⟨31, 1⟩
def fQ_EADDR_WORD : Fld := ⟨0, 22⟩
def fQS_ADDR_AINC : Fld := ⟨31, 1⟩
def fQS_ADDR_BANK : Fld := ⟨20, 1⟩
def fQS_ADDR_WTAB : Fld := ⟨16, 1⟩
def fQS_ADDR_INDEX : Fld := ⟨0, 12⟩
def fQS_DATA_0_DATA : Fld := ⟨0, 32⟩
def fQS_DATA_1_DATA : Fld := ⟨0, 32⟩
def fDR_CTRL_KEEP : Fld := ⟨4, 1⟩
def fDR_CTRL_INIT : Fld := ⟨3, 1⟩
def fDR_CTRL_FORCE : Fld := ⟨2, 1⟩
def fDR_CTRL_DIS : Fld := ⟨1, 1⟩
def fDR_CTRL_EN : Fld := ⟨0, 1⟩
def fDR_CFG_DENS : Fld := ⟨0, 2⟩
def fDR_STATUS_STATE : Fld := ⟨29, 3⟩
def fDR_STATUS_SR_HELD : Fld := ⟨28, 1⟩
def fDR_STATUS_HOT : Fld := ⟨27, 1⟩
def fDR_STATUS_RATE : Fld := ⟨25, 2⟩
def fDR_STATUS_DRAINED : Fld := ⟨24, 1⟩
def fDR_STATUS_THROTTLING : Fld := ⟨23, 1⟩
def fDR_STATUS_QUEUED : Fld := ⟨0, 7⟩
def fDR_PAGE_IDLE : Fld := ⟨0, 16⟩
def fDR_PASR_MASK : Fld := ⟨0, 8⟩
def fDR_RH_CFG_WIN : Fld := ⟨24, 5⟩
def fDR_RH_CFG_THR : Fld := ⟨8, 16⟩
def fDR_RH_CFG_PEN : Fld := ⟨0, 8⟩
def fDR_RH_LOG_MASTER : Fld := ⟨24, 8⟩
def fDR_RH_LOG_BANK : Fld := ⟨16, 4⟩
def fDR_RH_LOG_COUNT : Fld := ⟨0, 16⟩
def fDR_MR_BUSY : Fld := ⟨31, 1⟩
def fDR_MR_ALL : Fld := ⟨30, 1⟩
def fDR_MR_DEV : Fld := ⟨26, 4⟩
def fDR_MR_WR : Fld := ⟨24, 1⟩
def fDR_MR_OP : Fld := ⟨16, 8⟩
def fDR_MR_MA : Fld := ⟨0, 7⟩
def fDR_TRN_BUSY : Fld := ⟨31, 1⟩
def fDR_TRN_MODE : Fld := ⟨16, 3⟩
def fDR_TRN_GO : Fld := ⟨15, 1⟩
def fDR_TRN_DEVS : Fld := ⟨0, 10⟩
def fDR_PG_PRBS : Fld := ⟨31, 1⟩
def fDR_PG_PAT : Fld := ⟨0, 16⟩
def fDR_CMP_FAIL : Fld := ⟨0, 18⟩
def fDR_DLY_ADDR_DEV : Fld := ⟨12, 4⟩
def fDR_DLY_ADDR_KIND : Fld := ⟨8, 3⟩
def fDR_DLY_ADDR_BIT : Fld := ⟨0, 5⟩
def fDR_DLY_DATA_VALUE : Fld := ⟨0, 7⟩
def fDR_CE_POS_HI : Fld := ⟨16, 16⟩
def fDR_CE_POS_LO : Fld := ⟨0, 16⟩
def fDR_UE_COUNT : Fld := ⟨16, 16⟩
def fDR_ELOG_LO_BASE : Fld := ⟨8, 24⟩
def fDR_ELOG_HI_BASE : Fld := ⟨0, 16⟩
def fDR_ELOG_CTRL_EN : Fld := ⟨31, 1⟩
def fDR_ELOG_CTRL_SIZE : Fld := ⟨16, 12⟩
def fDR_ELOG_CTRL_WP : Fld := ⟨0, 12⟩
def fDR_FLAG_ELOG_WRAP : Fld := ⟨9, 1⟩
def fDR_FLAG_READY : Fld := ⟨8, 1⟩
def fDR_FLAG_SR : Fld := ⟨7, 1⟩
def fDR_FLAG_TRN_DONE : Fld := ⟨6, 1⟩
def fDR_FLAG_DRAINED : Fld := ⟨5, 1⟩
def fDR_FLAG_THROTTLE : Fld := ⟨4, 1⟩
def fDR_FLAG_HOT : Fld := ⟨3, 1⟩
def fDR_FLAG_RATE : Fld := ⟨2, 1⟩
def fDR_FLAG_UE : Fld := ⟨1, 1⟩
def fDR_FLAG_CE : Fld := ⟨0, 1⟩
def fDR_ECC_CTRL_THR : Fld := ⟨16, 16⟩
def fDR_ECC_CTRL_AUTO : Fld := ⟨8, 1⟩
def fDR_ECC_CTRL_ERASE : Fld := ⟨4, 1⟩
def fDR_ECC_CTRL_POS : Fld := ⟨0, 4⟩
def fDR_ECC_STAT_SUSPECT : Fld := ⟨31, 1⟩
def fDR_ECC_STAT_EXTRA : Fld := ⟨30, 1⟩
def fDR_ECC_STAT_SPOS : Fld := ⟨0, 4⟩
def fKM_CTRL_RET_ID : Fld := ⟨12, 4⟩
def fKM_CTRL_RETIRE : Fld := ⟨9, 1⟩
def fKM_CTRL_FLUSH : Fld := ⟨8, 1⟩
def fKM_CTRL_EN : Fld := ⟨0, 1⟩
def fKM_STATUS_READY : Fld := ⟨31, 1⟩
def fKM_STATUS_INIT : Fld := ⟨30, 1⟩
def fKM_STATUS_FLUSHING : Fld := ⟨29, 1⟩
def fKM_STATUS_RETIRING : Fld := ⟨28, 1⟩
def fKM_STATUS_RID : Fld := ⟨24, 4⟩
def fKM_STATUS_DIRTY : Fld := ⟨0, 12⟩
def fKM_ERR_LINK_RX : Fld := ⟨7, 1⟩
def fKM_ERR_LINK_TX : Fld := ⟨6, 1⟩
def fKM_ERR_META_UE : Fld := ⟨5, 1⟩
def fKM_ERR_META : Fld := ⟨4, 1⟩
def fKM_ERR_CTR_END : Fld := ⟨3, 1⟩
def fKM_ERR_NOKEY : Fld := ⟨2, 1⟩
def fKM_ERR_KEYID : Fld := ⟨1, 1⟩
def fKM_ERR_TAG : Fld := ⟨0, 1⟩
def fKM_ELINE_LO_LINE : Fld := ⟨8, 24⟩
def fKM_ELINE_HI_LINE : Fld := ⟨0, 16⟩
def fKM_EINFO_MASTER : Fld := ⟨8, 8⟩
def fKM_EINFO_KIND : Fld := ⟨0, 3⟩
def fKM_MISS_COUNT : Fld := ⟨0, 32⟩
def fKM_SLOT_VALID : Fld := ⟨0, 1⟩
def fKM_KEY_KEY : Fld := ⟨0, 32⟩
def fKM_MADDR_LO_LINE : Fld := ⟨8, 24⟩
def fKM_MADDR_HI_LINE : Fld := ⟨0, 16⟩
def fKM_MCTR_LO_CTR : Fld := ⟨0, 32⟩
def fKM_MCTR_HI_CTR : Fld := ⟨0, 32⟩
def fKM_MTAG_TAG : Fld := ⟨0, 32⟩
def fKM_MCMD_BUSY : Fld := ⟨31, 1⟩
def fKM_MCMD_KEY : Fld := ⟨16, 4⟩
def fKM_MCMD_OP : Fld := ⟨0, 2⟩
def fAB_CFG_AMP_EN1 : Fld := ⟨31, 1⟩
def fAB_CFG_AMP_EN2 : Fld := ⟨30, 1⟩
def fAB_CFG_AMP_MODE1 : Fld := ⟨28, 2⟩
def fAB_CFG_AMP_MODE2 : Fld := ⟨26, 2⟩
def fAB_CFG_AMP_G1 : Fld := ⟨20, 6⟩
def fAB_CFG_AMP_G2 : Fld := ⟨14, 6⟩
def fAB_CFG_AMP_CHOP : Fld := ⟨13, 1⟩
def fAB_CFG_AMP_CHOP_DIV : Fld := ⟨4, 9⟩
def fAB_CFG_FLT_FMODE : Fld := ⟨30, 2⟩
def fAB_CFG_FLT_FR : Fld := ⟨24, 6⟩
def fAB_CFG_FLT_FC : Fld := ⟨18, 6⟩
def fAB_CFG_FLT_FQ : Fld := ⟨15, 3⟩
def fAB_CFG_FLT_SC_DIV : Fld := ⟨4, 11⟩
def fAB_CFG_ADC_EN : Fld := ⟨31, 1⟩
def fAB_CFG_ADC_SRC : Fld := ⟨29, 2⟩
def fAB_CFG_ADC_FMT : Fld := ⟨27, 2⟩
def fAB_CFG_ADC_UNI : Fld := ⟨26, 1⟩
def fAB_CFG_ADC_SETTLE : Fld := ⟨22, 4⟩
def fAB_CFG_ADC_DEST : Fld := ⟨20, 2⟩
def fAB_CFG_IN_INP : Fld := ⟨27, 5⟩
def fAB_CFG_IN_INB : Fld := ⟨22, 5⟩
def fAB_CFG_IN_OUT : Fld := ⟨17, 5⟩
def fAB_CFG_IN_CEN : Fld := ⟨16, 1⟩
def fAB_CFG_IN_CHYS : Fld := ⟨14, 2⟩
def fAB_CFG_IN_CINV : Fld := ⟨13, 1⟩
def fAB_ACT_AMP_EN1 : Fld := ⟨31, 1⟩
def fAB_ACT_AMP_EN2 : Fld := ⟨30, 1⟩
def fAB_ACT_AMP_MODE1 : Fld := ⟨28, 2⟩
def fAB_ACT_AMP_MODE2 : Fld := ⟨26, 2⟩
def fAB_ACT_AMP_G1 : Fld := ⟨20, 6⟩
def fAB_ACT_AMP_G2 : Fld := ⟨14, 6⟩
def fAB_ACT_AMP_CHOP : Fld := ⟨13, 1⟩
def fAB_ACT_AMP_CHOP_DIV : Fld := ⟨4, 9⟩
def fAB_ACT_FLT_FMODE : Fld := ⟨30, 2⟩
def fAB_ACT_FLT_FR : Fld := ⟨24, 6⟩
def fAB_ACT_FLT_FC : Fld := ⟨18, 6⟩
def fAB_ACT_FLT_FQ : Fld := ⟨15, 3⟩
def fAB_ACT_FLT_SC_DIV : Fld := ⟨4, 11⟩
def fAB_ACT_ADC_EN : Fld := ⟨31, 1⟩
def fAB_ACT_ADC_SRC : Fld := ⟨29, 2⟩
def fAB_ACT_ADC_FMT : Fld := ⟨27, 2⟩
def fAB_ACT_ADC_UNI : Fld := ⟨26, 1⟩
def fAB_ACT_ADC_SETTLE : Fld := ⟨22, 4⟩
def fAB_ACT_ADC_DEST : Fld := ⟨20, 2⟩
def fAB_ACT_IN_INP : Fld := ⟨27, 5⟩
def fAB_ACT_IN_INB : Fld := ⟨22, 5⟩
def fAB_ACT_IN_OUT : Fld := ⟨17, 5⟩
def fAB_ACT_IN_CEN : Fld := ⟨16, 1⟩
def fAB_ACT_IN_CHYS : Fld := ⟨14, 2⟩
def fAB_ACT_IN_CINV : Fld := ⟨13, 1⟩
def fAB_TRIG_TSRC : Fld := ⟨30, 2⟩
def fAB_TRIG_PER : Fld := ⟨0, 20⟩
def fAB_START_LO_VALUE : Fld := ⟨0, 32⟩
def fAB_START_HI_VALUE : Fld := ⟨0, 32⟩
def fAB_COUNT_VALUE : Fld := ⟨0, 32⟩
def fAB_CMD_AT : Fld := ⟨3, 1⟩
def fAB_CMD_CAL : Fld := ⟨2, 1⟩
def fAB_CMD_STOP : Fld := ⟨1, 1⟩
def fAB_CMD_RUN : Fld := ⟨0, 1⟩
def fAB_STATUS_STATE : Fld := ⟨29, 3⟩
def fAB_STATUS_CAL_Q : Fld := ⟨28, 1⟩
def fAB_STATUS_RUN_Q : Fld := ⟨27, 1⟩
def fAB_STATUS_COUNT : Fld := ⟨0, 7⟩
def fAB_FLAG_LATE : Fld := ⟨5, 1⟩
def fAB_FLAG_OVF : Fld := ⟨4, 1⟩
def fAB_FLAG_OVR : Fld := ⟨3, 1⟩
def fAB_FLAG_RD_EMPTY : Fld := ⟨2, 1⟩
def fAB_FLAG_CAL_DONE : Fld := ⟨1, 1⟩
def fAB_FLAG_RUN_DONE : Fld := ⟨0, 1⟩
def fAB_RESULT_WORD : Fld := ⟨0, 32⟩
def fAB_PEEK_WORD : Fld := ⟨0, 32⟩
def fAB_FIFO_CFG_LVL_EN : Fld := ⟨8, 1⟩
def fAB_FIFO_CFG_LEVEL : Fld := ⟨0, 6⟩
def fAB_CAL_AMP_OFS_2 : Fld := ⟨16, 16⟩
def fAB_CAL_AMP_OFS_1 : Fld := ⟨0, 16⟩
def fAB_CAL_ADC_GAIN : Fld := ⟨16, 16⟩
def fAB_CAL_ADC_OFS : Fld := ⟨0, 16⟩
def fSW_PIN_ENA : Fld := ⟨31, 1⟩
def fSW_PIN_BUSA : Fld := ⟨27, 4⟩
def fSW_PIN_ENB : Fld := ⟨26, 1⟩
def fSW_PIN_BUSB : Fld := ⟨22, 4⟩
def fSW_ACT_ENA : Fld := ⟨31, 1⟩
def fSW_ACT_BUSA : Fld := ⟨27, 4⟩
def fSW_ACT_ENB : Fld := ⟨26, 1⟩
def fSW_ACT_BUSB : Fld := ⟨22, 4⟩
def fSW_SWAP_CTRL_MAT : Fld := ⟨8, 1⟩
def fSW_SWAP_CTRL_SRC : Fld := ⟨5, 1⟩
def fSW_SWAP_CTRL_CANCEL : Fld := ⟨1, 1⟩
def fSW_SWAP_CTRL_ARM : Fld := ⟨0, 1⟩
def fSW_SWAP_AT_LO_VALUE : Fld := ⟨0, 32⟩
def fSW_SWAP_AT_HI_VALUE : Fld := ⟨0, 32⟩
def fSW_SWAP_MASK_LO_VALUE : Fld := ⟨0, 32⟩
def fSW_SWAP_MASK_HI_VALUE : Fld := ⟨0, 32⟩
def fSW_SWAP_STAT_ARMED : Fld := ⟨31, 1⟩
def fSW_SWAP_STAT_DONE : Fld := ⟨30, 1⟩
def fSW_SWAP_STAT_REFUSED : Fld := ⟨29, 1⟩
def fSW_SWAP_STAT_REFUSE : Fld := ⟨16, 4⟩
def fSW_SWAP_STAT_BLOCK : Fld := ⟨8, 6⟩
def fSW_SWAP_STAT_BUS : Fld := ⟨0, 4⟩
def fAS_ADDR_AINC : Fld := ⟨31, 1⟩
def fAS_ADDR_BANK : Fld := ⟨8, 1⟩
def fAS_ADDR_INDEX : Fld := ⟨0, 8⟩
def fAS_DATA_0_DATA : Fld := ⟨0, 32⟩
def fAS_DATA_1_DATA : Fld := ⟨0, 32⟩
def fAS_ERR_BADSRC : Fld := ⟨1, 1⟩
def fAS_ERR_SHORT : Fld := ⟨0, 1⟩
def fAF_CLK_EN : Fld := ⟨31, 1⟩
def fAF_CLK_DIV : Fld := ⟨0, 12⟩
def fIC_CFG_INP : Fld := ⟨27, 5⟩
def fIC_CFG_SE : Fld := ⟨26, 1⟩
def fIC_CFG_RANGE : Fld := ⟨24, 2⟩
def fIC_CFG_AZ : Fld := ⟨23, 1⟩
def fIC_CFG_FMT : Fld := ⟨22, 1⟩
def fIC_CFG_TSRC : Fld := ⟨20, 2⟩
def fIC_CFG_NPLC : Fld := ⟨0, 14⟩
def fIC_PER_VALUE : Fld := ⟨0, 32⟩
def fIC_START_LO_VALUE : Fld := ⟨0, 32⟩
def fIC_START_HI_VALUE : Fld := ⟨0, 32⟩
def fIC_COUNT_VALUE : Fld := ⟨0, 32⟩
def fIC_CMD_AT : Fld := ⟨3, 1⟩
def fIC_CMD_CAL : Fld := ⟨2, 1⟩
def fIC_CMD_STOP : Fld := ⟨1, 1⟩
def fIC_CMD_RUN : Fld := ⟨0, 1⟩
def fIC_STATUS_STATE : Fld := ⟨29, 3⟩
def fIC_STATUS_CAL_Q : Fld := ⟨28, 1⟩
def fIC_STATUS_RUN_Q : Fld := ⟨27, 1⟩
def fIC_STATUS_CAL_RANGE : Fld := ⟨25, 2⟩
def fIC_STATUS_BITS : Fld := ⟨8, 5⟩
def fIC_STATUS_COUNT : Fld := ⟨0, 5⟩
def fIC_FLAG_DISTURB : Fld := ⟨7, 1⟩
def fIC_FLAG_CAL_FAIL : Fld := ⟨6, 1⟩
def fIC_FLAG_LATE : Fld := ⟨5, 1⟩
def fIC_FLAG_OVF : Fld := ⟨4, 1⟩
def fIC_FLAG_OVR : Fld := ⟨3, 1⟩
def fIC_FLAG_RD_EMPTY : Fld := ⟨2, 1⟩
def fIC_FLAG_CAL_DONE : Fld := ⟨1, 1⟩
def fIC_FLAG_RUN_DONE : Fld := ⟨0, 1⟩
def fIC_RESULT_WORD : Fld := ⟨0, 32⟩
def fIC_PEEK_WORD : Fld := ⟨0, 32⟩
def fIC_FIFO_CFG_LVL_EN : Fld := ⟨8, 1⟩
def fIC_FIFO_CFG_LEVEL : Fld := ⟨0, 4⟩
def fIC_TSTAMP_LO_TICK : Fld := ⟨0, 32⟩
def fIC_TSTAMP_HI_TICK : Fld := ⟨0, 32⟩
def fCAL_OFFSET_OFFSET : Fld := ⟨0, 32⟩
def fCAL_GAIN_GAIN : Fld := ⟨0, 32⟩
def fMS_CTRL_FALLBACK : Fld := ⟨4, 1⟩
def fMS_CTRL_SRC : Fld := ⟨0, 2⟩
def fMS_PERIOD_PERIOD : Fld := ⟨0, 32⟩
def fMS_MEAS_LOCKED : Fld := ⟨31, 1⟩
def fMS_MEAS_PERIOD : Fld := ⟨0, 26⟩
def fMS_FLAG_LOST : Fld := ⟨1, 1⟩
def fMS_FLAG_LOCKED : Fld := ⟨0, 1⟩
def fMS_CAL_NPLC : Fld := ⟨0, 14⟩
def fREF_VAL_X : Fld := ⟨0, 32⟩
def fREF_LOOP_EN : Fld := ⟨31, 1⟩
def fREF_LOOP_BUS : Fld := ⟨16, 4⟩
def fREF_LOOP_LEVEL : Fld := ⟨0, 2⟩
def fPWR_REQ_BUSY : Fld := ⟨31, 1⟩
def fPWR_REQ_TARGET : Fld := ⟨16, 2⟩
def fPWR_REQ_DOMAIN : Fld := ⟨0, 7⟩
def fPWR_RESULT_DONE : Fld := ⟨31, 1⟩
def fPWR_RESULT_REFUSED : Fld := ⟨30, 1⟩
def fPWR_RESULT_REASON : Fld := ⟨24, 4⟩
def fPWR_RESULT_DIE : Fld := ⟨20, 3⟩
def fPWR_RESULT_BLOCK : Fld := ⟨0, 16⟩
def fPWR_LIMIT_LIMIT : Fld := ⟨0, 24⟩
def fPWR_STATE_STATE : Fld := ⟨0, 32⟩
def fRIM_STAT_ALARM : Fld := ⟨3, 1⟩
def fRIM_STAT_RTC_FAIL : Fld := ⟨2, 1⟩
def fRIM_STAT_VBAT_USED : Fld := ⟨1, 1⟩
def fRIM_STAT_AUX_OK : Fld := ⟨0, 1⟩
def fRTC_CTRL_LOAD : Fld := ⟨8, 1⟩
def fRTC_CTRL_WAKE_EN : Fld := ⟨1, 1⟩
def fRTC_CTRL_ALM_EN : Fld := ⟨0, 1⟩
def fRTC_SET_LO_VALUE : Fld := ⟨0, 32⟩
def fRTC_SET_HI_VALUE : Fld := ⟨0, 16⟩
def fRTC_ALM_LO_VALUE : Fld := ⟨0, 32⟩
def fRTC_ALM_HI_VALUE : Fld := ⟨0, 16⟩
def fRTC_SNAP_SNAP : Fld := ⟨0, 32⟩
def fRTC_SNAP_LO_RTC : Fld := ⟨0, 32⟩
def fRTC_SNAP_HI_RTC : Fld := ⟨0, 16⟩
def fRTC_SNAP_TLO_TICK : Fld := ⟨0, 32⟩
def fRTC_SNAP_THI_TICK : Fld := ⟨0, 32⟩
def fRTC_WAKE_MASK : Fld := ⟨0, 32⟩
def fRIM_BACKUP_DATA : Fld := ⟨0, 32⟩
def fEV_CTRL_PSEL : Fld := ⟨0, 3⟩
def fEV_STAT_MSG_LOST : Fld := ⟨16, 16⟩
def fEV_STAT_BADMSG : Fld := ⟨0, 16⟩
def fEV_OUT_CFG_EN : Fld := ⟨31, 1⟩
def fEV_OUT_CFG_POL : Fld := ⟨30, 1⟩
def fEV_OUT_CFG_MODE : Fld := ⟨28, 2⟩
def fEV_OUT_CFG_WIDTH : Fld := ⟨0, 8⟩
def fEV_OUT_CLR_CLR : Fld := ⟨0, 8⟩
def fEV_MSG_DEV : Fld := ⟨16, 16⟩
def fEV_MSG_V : Fld := ⟨15, 1⟩
def fEV_MSG_FAB : Fld := ⟨14, 1⟩
def fEV_MSG_DIE : Fld := ⟨11, 3⟩
def fEV_MSG_CH : Fld := ⟨8, 3⟩
def fEV_RX_0_DEV : Fld := ⟨16, 16⟩
def fEV_RX_0_EVENT : Fld := ⟨0, 11⟩
def fEV_RX_1_COUNT : Fld := ⟨0, 16⟩
def fEV_CORE_VALID : Fld := ⟨31, 1⟩
def fEV_CORE_LEVEL : Fld := ⟨16, 3⟩
def fEV_CORE_EVENT : Fld := ⟨0, 11⟩
def fEV_RAW_BITS : Fld := ⟨0, 32⟩
def fEV_PEND_BITS : Fld := ⟨0, 32⟩
def fEV_ROUTE_CORES : Fld := ⟨24, 8⟩
def fEV_ROUTE_OUT_EN : Fld := ⟨23, 1⟩
def fEV_ROUTE_OUT : Fld := ⟨20, 3⟩
def fEV_ROUTE_MSG_EN : Fld := ⟨19, 1⟩
def fEV_ROUTE_MSG : Fld := ⟨15, 4⟩
def fEV_ROUTE_LEVEL : Fld := ⟨8, 3⟩
def fDBG_CTRL_GROUP : Fld := ⟨8, 8⟩
def fDBG_CTRL_ALLOW_SIDE : Fld := ⟨0, 1⟩
def fDBG_RUNCTL_STEP : Fld := ⟨16, 8⟩
def fDBG_RUNCTL_RESUME : Fld := ⟨8, 8⟩
def fDBG_RUNCTL_HALT : Fld := ⟨0, 8⟩
def fDBG_LOST_CORE_PWR : Fld := ⟨16, 8⟩
def fDBG_LOST_CORE_RST : Fld := ⟨8, 8⟩
def fDBG_LOST_CLOCK : Fld := ⟨2, 1⟩
def fDBG_LOST_RESET : Fld := ⟨1, 1⟩
def fDBG_LOST_POWER : Fld := ⟨0, 1⟩
def fDBG_TX_DATA : Fld := ⟨0, 32⟩
def fDBG_RX_DATA : Fld := ⟨0, 32⟩
def fDBG_TERM_STAT_RXV : Fld := ⟨1, 1⟩
def fDBG_TERM_STAT_TXV : Fld := ⟨0, 1⟩
def fDBG_CORE_CTRL_CATCH : Fld := ⟨2, 1⟩
def fDBG_CORE_CTRL_STEP_IE : Fld := ⟨1, 1⟩
def fDBG_CORE_CTRL_EN : Fld := ⟨0, 1⟩
def fDBG_CORE_STAT_REASON : Fld := ⟨28, 4⟩
def fDBG_CORE_STAT_HALTED : Fld := ⟨27, 1⟩
def fDBG_CORE_STAT_PENDING : Fld := ⟨26, 1⟩
def fDBG_CORE_STAT_FORCED : Fld := ⟨25, 1⟩
def fDBG_CORE_STAT_DEFER : Fld := ⟨24, 1⟩
def fDBG_CORE_STAT_WHICH : Fld := ⟨21, 3⟩
def fDBG_CORE_STAT_SLOT : Fld := ⟨20, 1⟩
def fDBG_CORE_STAT_PC : Fld := ⟨0, 14⟩
def fDBG_FRZ_FRZ : Fld := ⟨0, 6⟩
def fDBG_REG_ADDR_AINC : Fld := ⟨31, 1⟩
def fDBG_REG_ADDR_INDEX : Fld := ⟨0, 9⟩
def fDBG_REG_DATA_DATA : Fld := ⟨0, 32⟩
def fBP_CFG_EN : Fld := ⟨8, 8⟩
def fBP_CFG_MODE : Fld := ⟨0, 1⟩
def fBP_VAL_PC : Fld := ⟨0, 14⟩
def fBP_RNG_CTX : Fld := ⟨16, 16⟩
def fBP_RNG_CTX_EN : Fld := ⟨15, 1⟩
def fBP_RNG_LINK_EN : Fld := ⟨13, 1⟩
def fBP_RNG_LINK_D : Fld := ⟨11, 2⟩
def fWP_ADDR_ADDR : Fld := ⟨0, 18⟩
def fWP_CTL_EN : Fld := ⟨31, 1⟩
def fWP_CTL_ACC : Fld := ⟨29, 2⟩
def fWP_CTL_MASK : Fld := ⟨0, 18⟩
def fTP_LB_RET : Fld := ⟨0, 2⟩
def fGL_LB_DEPTH_0 : Fld := ⟨0, 3⟩
def fGL_LB_DEPTH_1 : Fld := ⟨4, 3⟩
def fGL_LB_DEPTH_2 : Fld := ⟨8, 3⟩
def fGL_LB_DEPTH_3 : Fld := ⟨12, 3⟩
def fQ_LB_BUSY : Fld := ⟨31, 1⟩
def fQ_LB_DONE : Fld := ⟨30, 1⟩
def fQ_LB_GO : Fld := ⟨4, 1⟩
def fQ_LB_DEPTH : Fld := ⟨0, 2⟩
def fQ_LB_FAIL_FAIL : Fld := ⟨0, 32⟩
def fDR_LB_DEPTH : Fld := ⟨0, 2⟩

/-! ### Register rows: offset, stride, count, reset value, and the writable and write-one-to-clear bits -/
def rowsIdent : List RegRow := [
  ⟨0x0, 4, 1, 0x0, 0x0, 0x0⟩]
def rowsId : List RegRow := [
  ⟨0x4, 4, 1, 0xFA64001, 0x0, 0x0⟩,
  ⟨0x8, 4, 1, 0x0, 0x0, 0x0⟩,
  ⟨0xC, 4, 1, 0x0, 0x0, 0x0⟩,
  ⟨0x10, 4, 1, 0x0, 0x0, 0x0⟩,
  ⟨0x18, 4, 1, 0x0, 0x0, 0x0⟩,
  ⟨0x1C, 4, 1, 0x0, 0x0, 0x0⟩,
  ⟨0x20, 4, 1, 0x0, 0xFFFF, 0x0⟩,
  ⟨0x24, 4, 1, 0x0, 0x0, 0x0⟩,
  ⟨0x28, 4, 1, 0x0, 0x3F1F1F, 0x0⟩,
  ⟨0x100, 32, 3, 0x0, 0xFFFFFFFC, 0x0⟩,
  ⟨0x104, 32, 3, 0x0, 0xFFFF0771, 0x0⟩,
  ⟨0x108, 32, 3, 0x0, 0xFFFFFFFF, 0x0⟩,
  ⟨0x10C, 32, 3, 0x1000000, 0xFFFF0000, 0x0⟩,
  ⟨0x110, 32, 3, 0x0, 0x0, 0x0⟩]
def rowsClk : List RegRow := [
  ⟨0x0, 4, 1, 0x11000, 0x3F17F1, 0x0⟩,
  ⟨0x4, 4, 1, 0x21, 0x0, 0x0⟩,
  ⟨0x8, 4, 1, 0x0, 0x30F, 0x0⟩,
  ⟨0xC, 4, 1, 0x0, 0x0, 0x0⟩,
  ⟨0x10, 4, 1, 0x0, 0x0, 0x0⟩,
  ⟨0x20, 4, 1, 0x0, 0x0, 0x100⟩,
  ⟨0x40, 4, 16, 0x0, 0x80000FFF, 0x0⟩]
def rowsPwr : List RegRow := [
  ⟨0x0, 4, 1, 0x0, 0x0, 0x0⟩,
  ⟨0x4, 4, 1, 0x0, 0x0, 0xC0000000⟩,
  ⟨0x8, 4, 1, 0x40000, 0xFFFFFF, 0x0⟩,
  ⟨0x10, 4, 1, 0x3FFF0FFF, 0x0, 0x0⟩,
  ⟨0x14, 4, 1, 0x3FFFF, 0x0, 0x0⟩,
  ⟨0x18, 4, 1, 0xFFFFFFF, 0x0, 0x0⟩,
  ⟨0x1C, 4, 1, 0x3F0FFF, 0x0, 0x0⟩,
  ⟨0x20, 4, 1, 0xFFFFFFFF, 0x0, 0x0⟩,
  ⟨0x24, 4, 1, 0xFFFFFFFF, 0x0, 0x0⟩,
  ⟨0x28, 4, 1, 0xFFFFFFFF, 0x0, 0x0⟩,
  ⟨0x2C, 4, 1, 0xFFFFFFFF, 0x0, 0x0⟩,
  ⟨0x100, 4, 1, 0x1, 0x0, 0xE⟩,
  ⟨0x104, 4, 1, 0x0, 0x3, 0x0⟩,
  ⟨0x108, 4, 1, 0x0, 0xFFFFFFFF, 0x0⟩,
  ⟨0x10C, 4, 1, 0x0, 0xFFFF, 0x0⟩,
  ⟨0x110, 4, 1, 0x0, 0xFFFFFFFF, 0x0⟩,
  ⟨0x114, 4, 1, 0x0, 0xFFFF, 0x0⟩,
  ⟨0x118, 4, 1, 0x0, 0x0, 0x0⟩,
  ⟨0x11C, 4, 1, 0x0, 0x0, 0x0⟩,
  ⟨0x120, 4, 1, 0x0, 0x0, 0x0⟩,
  ⟨0x124, 4, 1, 0x0, 0x0, 0x0⟩,
  ⟨0x128, 4, 1, 0x0, 0x0, 0x0⟩,
  ⟨0x130, 4, 4, 0x0, 0xFFFFFFFF, 0x0⟩,
  ⟨0x140, 4, 8, 0x0, 0xFFFFFFFF, 0x0⟩]
def rowsEv : List RegRow := [
  ⟨0x0, 4, 1, 0x0, 0x7, 0x0⟩,
  ⟨0x4, 4, 1, 0x0, 0x0, 0xFFFFFFFF⟩,
  ⟨0x10, 4, 8, 0x1, 0xF00000FF, 0x0⟩,
  ⟨0x30, 4, 1, 0x0, 0x0, 0x0⟩,
  ⟨0x40, 4, 16, 0x0, 0xFFFFFF00, 0x0⟩,
  ⟨0x80, 4, 8, 0x0, 0x0, 0x0⟩,
  ⟨0xA0, 4, 8, 0x0, 0x0, 0xFFFF⟩,
  ⟨0xC0, 4, 8, 0x0, 0x0, 0x0⟩,
  ⟨0x400, 4, 64, 0x0, 0x0, 0xFFFFFFFF⟩,
  ⟨0x500, 4, 64, 0x0, 0x0, 0xFFFFFFFF⟩,
  ⟨0x1000, 4, 2048, 0x0, 0xFFFF8700, 0x0⟩]
def rowsCfg : List RegRow := [
  ⟨0x0, 4, 1, 0x0, 0x0, 0x8000⟩,
  ⟨0x4, 4, 1, 0x1000, 0xFFFF, 0x0⟩,
  ⟨0x8, 4, 1, 0x0, 0x0, 0x0⟩,
  ⟨0xC, 4, 1, 0x100, 0x0, 0x0⟩,
  ⟨0x10, 4, 1, 0x0, 0x0, 0x0⟩,
  ⟨0x14, 4, 1, 0x0, 0x0, 0x0⟩,
  ⟨0x18, 4, 1, 0x0, 0x0, 0x0⟩,
  ⟨0x1C, 4, 1, 0x0, 0x0, 0x0⟩]
def rowsCore : List RegRow := [
  ⟨0x0, 4, 1, 0x0, 0x3FFF0001, 0x0⟩,
  ⟨0x4, 4, 1, 0x0, 0x0, 0x0⟩,
  ⟨0x8, 4, 1, 0x0, 0x0, 0x3F⟩,
  ⟨0x10, 4, 1, 0x80000000, 0x80003FFF, 0x0⟩,
  ⟨0x14, 4, 1, 0x0, 0xFFFFFFFF, 0x0⟩,
  ⟨0x18, 4, 1, 0x0, 0xFFFFFFFF, 0x0⟩,
  ⟨0x1C, 4, 1, 0x0, 0xFFFFFFFF, 0x0⟩,
  ⟨0x20, 4, 1, 0x0, 0xFFFFFFFF, 0x0⟩,
  ⟨0x30, 4, 1, 0x80000000, 0x8003FFFC, 0x0⟩,
  ⟨0x34, 4, 1, 0x0, 0xFFFFFFFF, 0x0⟩,
  ⟨0x40, 4, 1, 0x2, 0x33, 0x100⟩,
  ⟨0x44, 4, 1, 0x40000000, 0xFFFFFFFF, 0x0⟩,
  ⟨0x48, 4, 1, 0x40000000, 0x0, 0x0⟩]
def rowsCore0 : List RegRow := [
  ⟨0x0, 4, 1, 0x20000001, 0x3FFF0001, 0x0⟩,
  ⟨0x4, 4, 1, 0x0, 0x0, 0x0⟩,
  ⟨0x8, 4, 1, 0x0, 0x0, 0x3F⟩,
  ⟨0x10, 4, 1, 0x80000000, 0x80003FFF, 0x0⟩,
  ⟨0x14, 4, 1, 0x0, 0xFFFFFFFF, 0x0⟩,
  ⟨0x18, 4, 1, 0x0, 0xFFFFFFFF, 0x0⟩,
  ⟨0x1C, 4, 1, 0x0, 0xFFFFFFFF, 0x0⟩,
  ⟨0x20, 4, 1, 0x0, 0xFFFFFFFF, 0x0⟩,
  ⟨0x30, 4, 1, 0x80000000, 0x8003FFFC, 0x0⟩,
  ⟨0x34, 4, 1, 0x0, 0xFFFFFFFF, 0x0⟩,
  ⟨0x40, 4, 1, 0x2, 0x33, 0x100⟩,
  ⟨0x44, 4, 1, 0x40000000, 0xFFFFFFFF, 0x0⟩,
  ⟨0x48, 4, 1, 0x40000000, 0x0, 0x0⟩,
  ⟨0x50, 4, 1, 0x0, 0x80003FFF, 0x0⟩]
def rowsBank : List RegRow := [
  ⟨0x0, 4, 64, 0x0, 0x3FF, 0x0⟩,
  ⟨0x100, 4, 4, 0xFFFFFFFF, 0x0, 0x0⟩,
  ⟨0x110, 4, 1, 0x0, 0x0, 0xFF000000⟩,
  ⟨0x114, 4, 1, 0x0, 0x0, 0x0⟩,
  ⟨0x118, 4, 1, 0x0, 0x0, 0x80000000⟩,
  ⟨0x200, 8, 16, 0x0, 0x13FFF, 0x0⟩,
  ⟨0x204, 8, 16, 0x0, 0x0, 0x0⟩,
  ⟨0x300, 4, 1, 0x0, 0x3F, 0x0⟩,
  ⟨0x304, 4, 1, 0x0, 0x0, 0x20000000⟩,
  ⟨0x400, 32, 4, 0x1, 0x7, 0x0⟩,
  ⟨0x404, 32, 4, 0x0, 0xFFFFFFFF, 0x0⟩,
  ⟨0x408, 32, 4, 0x0, 0xFFFFFFFF, 0x0⟩,
  ⟨0x40C, 32, 4, 0x0, 0x0, 0x20000000⟩,
  ⟨0x410, 32, 4, 0x0, 0x0, 0x0⟩]
def rowsDram : List RegRow := [
  ⟨0x0, 4, 1, 0x10, 0x17, 0x0⟩,
  ⟨0x4, 4, 1, 0x3, 0x3, 0x0⟩,
  ⟨0x8, 4, 1, 0x0, 0x0, 0x0⟩,
  ⟨0xC, 4, 1, 0x40, 0xFFFF, 0x0⟩,
  ⟨0x10, 4, 1, 0x0, 0xFF, 0x0⟩,
  ⟨0x14, 4, 1, 0x18100040, 0x1FFFFFFF, 0x0⟩,
  ⟨0x18, 4, 1, 0x0, 0x0, 0xFFFF⟩,
  ⟨0x20, 4, 1, 0x0, 0x7DFF007F, 0x0⟩,
  ⟨0x24, 4, 1, 0x0, 0x703FF, 0x0⟩,
  ⟨0x28, 4, 1, 0x0, 0x8000FFFF, 0x0⟩,
  ⟨0x30, 4, 10, 0x0, 0x0, 0x0⟩,
  ⟨0x60, 4, 1, 0x0, 0xF71F, 0x0⟩,
  ⟨0x64, 4, 1, 0x0, 0x7F, 0x0⟩,
  ⟨0x70, 4, 5, 0x0, 0x0, 0xFFFFFFFF⟩,
  ⟨0x84, 4, 1, 0x0, 0x0, 0xFFFF0000⟩,
  ⟨0x88, 4, 1, 0x0, 0xFFFFFF00, 0x0⟩,
  ⟨0x8C, 4, 1, 0x0, 0xFFFF, 0x0⟩,
  ⟨0x90, 4, 1, 0x0, 0x8FFF0000, 0x0⟩,
  ⟨0x94, 4, 1, 0x0, 0x0, 0x3FF⟩,
  ⟨0xA0, 4, 1, 0x1000000, 0xFFFF011F, 0x0⟩,
  ⟨0xA4, 4, 1, 0xF, 0x0, 0xC0000000⟩,
  ⟨0xB0, 4, 1, 0x0, 0x3, 0x0⟩]
def rowsKm : List RegRow := [
  ⟨0x0, 4, 1, 0x0, 0xF001, 0x0⟩,
  ⟨0x4, 4, 1, 0x0, 0x0, 0x0⟩,
  ⟨0x8, 4, 1, 0x0, 0x0, 0xFF⟩,
  ⟨0xC, 4, 1, 0x0, 0x0, 0x0⟩,
  ⟨0x10, 4, 1, 0x0, 0x0, 0x0⟩,
  ⟨0x14, 4, 1, 0x0, 0x0, 0x0⟩,
  ⟨0x18, 4, 1, 0x0, 0x0, 0xFFFFFFFF⟩,
  ⟨0x20, 4, 16, 0x0, 0x1, 0x0⟩,
  ⟨0x100, 4, 64, 0x0, 0x0, 0x0⟩,
  ⟨0x60, 4, 1, 0x0, 0xFFFFFF00, 0x0⟩,
  ⟨0x64, 4, 1, 0x0, 0xFFFF, 0x0⟩,
  ⟨0x68, 4, 1, 0x0, 0xFFFFFFFF, 0x0⟩,
  ⟨0x6C, 4, 1, 0x0, 0xFFFFFFFF, 0x0⟩,
  ⟨0x70, 4, 1, 0x0, 0xFFFFFFFF, 0x0⟩,
  ⟨0x74, 4, 1, 0x0, 0xF0000, 0x0⟩]
def rowsQdr : List RegRow := [
  ⟨0x0, 4, 1, 0x1, 0xF, 0x0⟩,
  ⟨0x4, 4, 1, 0x0, 0x0, 0x0⟩,
  ⟨0x8, 4, 1, 0x0, 0x0, 0x1F⟩,
  ⟨0xC, 4, 1, 0x0, 0x0, 0xFFFFFFFF⟩,
  ⟨0x10, 4, 1, 0x0, 0x0, 0xFFFF0000⟩,
  ⟨0x14, 4, 1, 0x0, 0x0, 0x0⟩,
  ⟨0x20, 4, 1, 0x80000000, 0x80110FFF, 0x0⟩,
  ⟨0x24, 4, 1, 0x0, 0xFFFFFFFF, 0x0⟩,
  ⟨0x28, 4, 1, 0x0, 0xFFFFFFFF, 0x0⟩,
  ⟨0x30, 4, 1, 0x0, 0x3, 0x40000000⟩,
  ⟨0x34, 4, 5, 0x0, 0x0, 0x0⟩]
def rowsNi : List RegRow := [
  ⟨0x0, 4, 1, 0x10, 0x177, 0x0⟩,
  ⟨0x4, 4, 1, 0x0, 0x0, 0x0⟩,
  ⟨0x8, 4, 1, 0x0, 0x0, 0xFF⟩,
  ⟨0x10, 4, 4, 0x30, 0x13F, 0x0⟩,
  ⟨0x20, 4, 4, 0x100, 0x0, 0x400⟩,
  ⟨0x30, 4, 1, 0x0, 0x0, 0x0⟩,
  ⟨0x40, 4, 1, 0x200000, 0x3FFFFF, 0x0⟩,
  ⟨0x44, 4, 1, 0x0, 0xFFFFFFFF, 0x0⟩,
  ⟨0x48, 4, 1, 0x0, 0xFFFFFFFF, 0x0⟩,
  ⟨0x4C, 4, 1, 0x0, 0xFFFFFFFF, 0x0⟩,
  ⟨0x50, 4, 1, 0x0, 0xFFFFFFFF, 0x0⟩,
  ⟨0x60, 4, 1, 0x10000800, 0xFFFFFFFF, 0x0⟩,
  ⟨0x64, 4, 1, 0x10001000, 0xFFFFFFFF, 0x0⟩,
  ⟨0x68, 4, 1, 0x0, 0xFFFFFE00, 0x0⟩,
  ⟨0x6C, 4, 1, 0x0, 0xFFFF, 0x0⟩,
  ⟨0x70, 4, 1, 0x0, 0xFFFFF, 0x0⟩,
  ⟨0x74, 4, 1, 0x0, 0x1, 0x0⟩,
  ⟨0x78, 4, 1, 0x0, 0x0, 0x0⟩,
  ⟨0x7C, 4, 1, 0x0, 0x0, 0x0⟩,
  ⟨0x80, 4, 1, 0x0, 0x0, 0x0⟩,
  ⟨0x84, 4, 1, 0x0, 0x0, 0xFF⟩]
def rowsNiHub : List RegRow := [
  ⟨0x0, 4, 1, 0x11, 0x177, 0x0⟩,
  ⟨0x4, 4, 1, 0x0, 0x0, 0x0⟩,
  ⟨0x8, 4, 1, 0x0, 0x0, 0xFF⟩,
  ⟨0x10, 4, 4, 0x30, 0x13F, 0x0⟩,
  ⟨0x20, 4, 4, 0x100, 0x0, 0x400⟩,
  ⟨0x30, 4, 1, 0x0, 0x0, 0x0⟩,
  ⟨0x40, 4, 1, 0x200000, 0x3FFFFF, 0x0⟩,
  ⟨0x44, 4, 1, 0x0, 0xFFFFFFFF, 0x0⟩,
  ⟨0x48, 4, 1, 0x0, 0xFFFFFFFF, 0x0⟩,
  ⟨0x4C, 4, 1, 0x0, 0xFFFFFFFF, 0x0⟩,
  ⟨0x50, 4, 1, 0x0, 0xFFFFFFFF, 0x0⟩,
  ⟨0x60, 4, 1, 0x10000800, 0xFFFFFFFF, 0x0⟩,
  ⟨0x64, 4, 1, 0x10001000, 0xFFFFFFFF, 0x0⟩,
  ⟨0x68, 4, 1, 0x0, 0xFFFFFE00, 0x0⟩,
  ⟨0x6C, 4, 1, 0x0, 0xFFFF, 0x0⟩,
  ⟨0x70, 4, 1, 0x0, 0xFFFFF, 0x0⟩,
  ⟨0x74, 4, 1, 0x0, 0x1, 0x0⟩,
  ⟨0x78, 4, 1, 0x0, 0x0, 0x0⟩,
  ⟨0x7C, 4, 1, 0x0, 0x0, 0x0⟩,
  ⟨0x80, 4, 1, 0x0, 0x0, 0x0⟩,
  ⟨0x84, 4, 1, 0x0, 0x0, 0xFF⟩]
def rowsNiEnd : List RegRow := [
  ⟨0x0, 4, 1, 0x31, 0x177, 0x0⟩,
  ⟨0x4, 4, 1, 0x0, 0x0, 0x0⟩,
  ⟨0x8, 4, 1, 0x0, 0x0, 0xFF⟩,
  ⟨0x10, 4, 4, 0x30, 0x13F, 0x0⟩,
  ⟨0x20, 4, 4, 0x100, 0x0, 0x400⟩,
  ⟨0x30, 4, 1, 0x0, 0x0, 0x0⟩,
  ⟨0x60, 4, 1, 0x10000800, 0xFFFFFFFF, 0x0⟩,
  ⟨0x64, 4, 1, 0x10001000, 0xFFFFFFFF, 0x0⟩,
  ⟨0x68, 4, 1, 0x0, 0xFFFFFE00, 0x0⟩,
  ⟨0x6C, 4, 1, 0x0, 0xFFFF, 0x0⟩,
  ⟨0x70, 4, 1, 0x0, 0xFFFFF, 0x0⟩,
  ⟨0x74, 4, 1, 0x0, 0x1, 0x0⟩,
  ⟨0x78, 4, 1, 0x0, 0x0, 0x0⟩,
  ⟨0x7C, 4, 1, 0x0, 0x0, 0x0⟩,
  ⟨0x80, 4, 1, 0x0, 0x0, 0x0⟩,
  ⟨0x84, 4, 1, 0x0, 0x0, 0xFF⟩]
def rowsPort : List RegRow := [
  ⟨0x100, 4, 1, 0x101, 0x33187, 0x0⟩,
  ⟨0x104, 4, 1, 0x0, 0x0, 0x0⟩,
  ⟨0x108, 4, 1, 0x0, 0x0, 0x1FF⟩,
  ⟨0x10C, 4, 1, 0x0, 0x0, 0x0⟩,
  ⟨0x110, 4, 1, 0x0, 0xFFFFFFFF, 0x0⟩,
  ⟨0x114, 4, 1, 0x0, 0xFFFFFFFF, 0x0⟩,
  ⟨0x118, 4, 1, 0x0, 0x0, 0x0⟩,
  ⟨0x11C, 4, 1, 0x0, 0x0, 0x0⟩,
  ⟨0x120, 4, 1, 0x0, 0x0, 0x0⟩,
  ⟨0x130, 4, 1, 0x0, 0xFFFFFFFC, 0x0⟩,
  ⟨0x134, 4, 1, 0x0, 0xFFFF, 0x0⟩,
  ⟨0x138, 4, 1, 0x0, 0xFFFFFFF, 0x0⟩,
  ⟨0x13C, 4, 1, 0x0, 0x0, 0x0⟩,
  ⟨0x140, 4, 1, 0x0, 0x3, 0x0⟩]
def rowsLaneT : List RegRow := [
  ⟨0x0, 4, 1, 0x1000001, 0x30000, 0x0⟩,
  ⟨0x4, 4, 1, 0x200602, 0xF0F, 0x0⟩,
  ⟨0x8, 4, 1, 0x0, 0x0, 0x0⟩,
  ⟨0xC, 4, 1, 0x0, 0x0, 0x0⟩,
  ⟨0x10, 4, 1, 0x0, 0x0, 0x8⟩,
  ⟨0x14, 4, 1, 0x0, 0x0, 0x0⟩]
def rowsLaneG : List RegRow := [
  ⟨0x0, 4, 1, 0x0, 0x3330001, 0x0⟩,
  ⟨0x4, 4, 1, 0x200602, 0xF0F, 0x0⟩,
  ⟨0x8, 4, 1, 0x0, 0x0, 0x0⟩,
  ⟨0xC, 4, 1, 0x0, 0x0, 0x0⟩,
  ⟨0x10, 4, 1, 0x0, 0x0, 0x8⟩,
  ⟨0x14, 4, 1, 0x0, 0x0, 0x0⟩]
def rowsGQuad : List RegRow := [
  ⟨0x80, 4, 1, 0x0, 0x7777, 0x0⟩]
def rowsLink : List RegRow := [
  ⟨0x0, 4, 1, 0x0, 0x13700, 0x0⟩,
  ⟨0x4, 4, 1, 0x7000000, 0x0, 0x0⟩,
  ⟨0x8, 4, 1, 0x0, 0x0, 0x1FF⟩,
  ⟨0xC, 4, 1, 0x0, 0x0, 0x0⟩,
  ⟨0x10, 4, 5, 0x0, 0x0, 0x0⟩,
  ⟨0x24, 4, 1, 0x0, 0x0, 0x0⟩]
def rowsBrd : List RegRow := [
  ⟨0x0, 4, 16, 0x0, 0x83FFFFFF, 0x0⟩,
  ⟨0x40, 4, 1, 0x0, 0x0, 0x0⟩,
  ⟨0x44, 4, 1, 0x0, 0x0, 0x0⟩,
  ⟨0x48, 4, 1, 0x0, 0x0, 0x0⟩]
def rowsPrb : List RegRow := [
  ⟨0x200, 4, 8, 0x0, 0xFFFFFFFF, 0x0⟩]
def rowsTp : List RegRow := [
  ⟨0x0, 4, 1, 0x0, 0x0, 0x0⟩,
  ⟨0x8, 8, 3, 0x0, 0x0, 0x0⟩,
  ⟨0xC, 8, 3, 0x0, 0x0, 0x0⟩,
  ⟨0x20, 4, 1, 0x200000, 0x3F0071, 0x0⟩,
  ⟨0x24, 4, 1, 0x0, 0x0, 0x40000000⟩,
  ⟨0x100, 4, 1, 0x0, 0x0, 0x0⟩,
  ⟨0x104, 4, 1, 0x0, 0xFFFFFFFF, 0x0⟩,
  ⟨0x108, 4, 1, 0x0, 0xFFFFFFFF, 0x0⟩,
  ⟨0x10C, 4, 1, 0x80, 0x0, 0x0⟩,
  ⟨0x110, 4, 1, 0x10, 0x1FFF, 0x0⟩,
  ⟨0x130, 4, 1, 0x0, 0x0, 0x0⟩,
  ⟨0x114, 4, 1, 0x0, 0xFFFFFFFF, 0x0⟩,
  ⟨0x134, 4, 1, 0x0, 0x0, 0x0⟩,
  ⟨0x118, 4, 6, 0x0, 0xFFF, 0x0⟩,
  ⟨0x138, 4, 6, 0x0, 0x0, 0x0⟩,
  ⟨0x150, 4, 1, 0x0, 0x0, 0x0⟩,
  ⟨0x154, 4, 1, 0x0, 0x0, 0x0⟩,
  ⟨0x158, 4, 1, 0x0, 0x0, 0x0⟩,
  ⟨0x15C, 4, 1, 0x0, 0x0, 0xFFFF0000⟩,
  ⟨0x160, 4, 1, 0x0, 0x0, 0x0⟩,
  ⟨0x170, 4, 1, 0x0, 0x0, 0x0⟩,
  ⟨0x180, 8, 7, 0x0, 0x0, 0x0⟩,
  ⟨0x184, 8, 7, 0x0, 0x0, 0x0⟩]
def rowsDbg : List RegRow := [
  ⟨0x0, 4, 1, 0x0, 0xFF01, 0x0⟩,
  ⟨0x4, 4, 1, 0x0, 0x0, 0x0⟩,
  ⟨0x8, 4, 1, 0xFFFF07, 0x0, 0xFFFF07⟩,
  ⟨0x10, 4, 1, 0x0, 0xFFFFFFFF, 0x0⟩,
  ⟨0x14, 4, 1, 0x0, 0xFFFFFFFF, 0x0⟩,
  ⟨0x18, 4, 1, 0x0, 0x0, 0x3⟩]
def rowsDbgCore : List RegRow := [
  ⟨0x0, 4, 1, 0x0, 0x7, 0x0⟩,
  ⟨0x4, 4, 1, 0x0, 0x0, 0x3000000⟩,
  ⟨0x8, 4, 1, 0x0, 0x3F, 0x0⟩,
  ⟨0xC, 4, 1, 0x80000000, 0x800001FF, 0x0⟩,
  ⟨0x10, 4, 1, 0x0, 0xFFFFFFFF, 0x0⟩,
  ⟨0x14, 4, 1, 0x0, 0xFF01, 0x0⟩,
  ⟨0x20, 4, 8, 0x0, 0x3FFF, 0x0⟩,
  ⟨0x40, 4, 4, 0x0, 0xFFFFB800, 0x0⟩,
  ⟨0x50, 8, 4, 0x0, 0x3FFFF, 0x0⟩,
  ⟨0x54, 8, 4, 0x0, 0xE003FFFF, 0x0⟩]
def rowsFe : List RegRow := [
  ⟨0x0, 4, 1, 0x0, 0x101, 0x0⟩,
  ⟨0x4, 4, 1, 0x0, 0x0, 0x0⟩,
  ⟨0x8, 4, 1, 0x0, 0x0, 0x0⟩,
  ⟨0xC, 4, 1, 0x0, 0x0, 0x0⟩,
  ⟨0x10, 4, 1, 0x0, 0x0, 0x0⟩,
  ⟨0x14, 4, 1, 0x0, 0x0, 0x0⟩,
  ⟨0x18, 4, 1, 0x0, 0x0, 0x0⟩,
  ⟨0x1C, 4, 1, 0x0, 0x0, 0xFFFF0000⟩,
  ⟨0x20, 4, 1, 0x0, 0x0, 0x0⟩,
  ⟨0x40, 4, 1, 0x0, 0xFFFFFF7F, 0x0⟩,
  ⟨0x44, 4, 1, 0x0, 0x1, 0x0⟩,
  ⟨0x48, 4, 1, 0x0, 0x0, 0x0⟩,
  ⟨0x4C, 4, 1, 0x0, 0x0, 0x0⟩,
  ⟨0x50, 4, 1, 0x0, 0x0, 0x0⟩]
def rowsAb : List RegRow := [
  ⟨0x0, 4, 1, 0x0, 0xFFFFFFF0, 0x0⟩,
  ⟨0x4, 4, 1, 0x4B0, 0xFFFFFFF0, 0x0⟩,
  ⟨0x8, 4, 1, 0x0, 0xFFF00000, 0x0⟩,
  ⟨0xC, 4, 1, 0x0, 0xFFFFE000, 0x0⟩,
  ⟨0x20, 4, 1, 0x0, 0x0, 0x0⟩,
  ⟨0x24, 4, 1, 0x4B0, 0x0, 0x0⟩,
  ⟨0x28, 4, 1, 0x0, 0x0, 0x0⟩,
  ⟨0x2C, 4, 1, 0x0, 0x0, 0x0⟩,
  ⟨0x40, 4, 1, 0x12C, 0xC00FFFFF, 0x0⟩,
  ⟨0x44, 4, 1, 0x0, 0xFFFFFFFF, 0x0⟩,
  ⟨0x48, 4, 1, 0x0, 0xFFFFFFFF, 0x0⟩,
  ⟨0x4C, 4, 1, 0x0, 0xFFFFFFFF, 0x0⟩,
  ⟨0x50, 4, 1, 0x0, 0x0, 0x0⟩,
  ⟨0x54, 4, 1, 0x0, 0x0, 0x0⟩,
  ⟨0x58, 4, 1, 0x0, 0x0, 0x3F⟩,
  ⟨0x60, 4, 1, 0x0, 0x0, 0x0⟩,
  ⟨0x64, 4, 1, 0x0, 0x0, 0x0⟩,
  ⟨0x68, 4, 1, 0x30, 0x13F, 0x0⟩,
  ⟨0x70, 4, 1, 0x0, 0xFFFFFFFF, 0x0⟩,
  ⟨0x74, 4, 1, 0x80000000, 0xFFFFFFFF, 0x0⟩]
def rowsSw : List RegRow := [
  ⟨0x0, 4, 32, 0x0, 0xFFC00000, 0x0⟩,
  ⟨0x80, 4, 32, 0x0, 0x0, 0x0⟩,
  ⟨0x100, 4, 1, 0x0, 0x120, 0x0⟩,
  ⟨0x104, 4, 1, 0x0, 0xFFFFFFFF, 0x0⟩,
  ⟨0x108, 4, 1, 0x0, 0xFFFFFFFF, 0x0⟩,
  ⟨0x10C, 4, 1, 0x0, 0xFFFFFFFF, 0x0⟩,
  ⟨0x110, 4, 1, 0x0, 0xFFFFFFFF, 0x0⟩,
  ⟨0x114, 4, 1, 0x0, 0x0, 0x60000000⟩]
def rowsIc : List RegRow := [
  ⟨0x0, 4, 1, 0x2000064, 0xFFF03FFF, 0x0⟩,
  ⟨0x4, 4, 1, 0x0, 0xFFFFFFFF, 0x0⟩,
  ⟨0x8, 4, 1, 0x0, 0xFFFFFFFF, 0x0⟩,
  ⟨0xC, 4, 1, 0x0, 0xFFFFFFFF, 0x0⟩,
  ⟨0x10, 4, 1, 0x0, 0xFFFFFFFF, 0x0⟩,
  ⟨0x14, 4, 1, 0x0, 0x0, 0x0⟩,
  ⟨0x18, 4, 1, 0x0, 0x0, 0x0⟩,
  ⟨0x1C, 4, 1, 0x0, 0x0, 0xFF⟩,
  ⟨0x20, 4, 1, 0x0, 0x0, 0x0⟩,
  ⟨0x24, 4, 1, 0x0, 0x0, 0x0⟩,
  ⟨0x28, 4, 1, 0xC, 0x10F, 0x0⟩,
  ⟨0x30, 4, 1, 0x0, 0x0, 0x0⟩,
  ⟨0x34, 4, 1, 0x0, 0x0, 0x0⟩,
  ⟨0x40, 8, 3, 0x0, 0xFFFFFFFF, 0x0⟩,
  ⟨0x44, 8, 3, 0x40000000, 0xFFFFFFFF, 0x0⟩]
def rowsMs : List RegRow := [
  ⟨0x0, 4, 1, 0x0, 0x13, 0x0⟩,
  ⟨0x4, 4, 1, 0x1C9C380, 0xFFFFFFFF, 0x0⟩,
  ⟨0x8, 4, 1, 0x0, 0x0, 0x0⟩,
  ⟨0xC, 4, 1, 0x0, 0x0, 0x3⟩,
  ⟨0x10, 4, 1, 0x3E8, 0x3FFF, 0x0⟩,
  ⟨0x20, 4, 3, 0x40000000, 0xFFFFFFFF, 0x0⟩,
  ⟨0x30, 4, 1, 0x0, 0x800F0003, 0x0⟩]
def rowsAf : List RegRow := [
  ⟨0x100, 4, 1, 0x80000000, 0x800001FF, 0x0⟩,
  ⟨0x104, 4, 1, 0x0, 0xFFFFFFFF, 0x0⟩,
  ⟨0x108, 4, 1, 0x0, 0xFFFFFFFF, 0x0⟩,
  ⟨0x10C, 4, 1, 0x0, 0x0, 0x3⟩,
  ⟨0x120, 4, 4, 0x0, 0x80000FFF, 0x0⟩]

/-- The rows of a block and the offset within them; an offset that falls in no register set is moved past every row. -/
def blockRows (d b o : Nat) : List RegRow × Nat :=
  if d = 6 then
    if b = 0 then (rowsIdent ++ rowsId, o)
    else if b = 1 then (rowsClk, o)
    else if b = 2 then (rowsPwr, o)
    else if b = 3 then (rowsEv, o)
    else if b = 4 then (rowsCfg, o)
    else if b = 0x10 then (rowsCore0, o)
    else if 0x11 ≤ b ∧ b ≤ 0x17 then (rowsCore, o)
    else if b = 0x20 then (rowsBank, o)
    else if 0x30 ≤ b ∧ b ≤ 0x33 then (rowsDram, o)
    else if b = 0x38 then (rowsKm, o)
    else if 0x40 ≤ b ∧ b ≤ 0x43 then (rowsQdr, o)
    else if 0x100 ≤ b ∧ b ≤ 0x12F then (rowsNiHub, o)
    else if 0x200 ≤ b ∧ b ≤ 0x217 then
      if o < 0x80 then (rowsLaneT, o % 0x20)
      else if b % 4 = 0 then (rowsPort, o) else ([], o)
    else if b = 0x300 then (rowsTp, o)
    else if b = 0x400 then
      if 0x100 ≤ o ∧ o < 0x500 then (rowsDbgCore, (o - 0x100) % 0x80) else (rowsDbg, o)
    else ([], o)
  else if d < 6 then
    if b = 0 then (rowsIdent ++ rowsPrb, o)
    else if b = 4 then (rowsFe, o)
    else if 0x100 ≤ b ∧ b ≤ 0x11F then (rowsNi, o)
    else if 0x200 ≤ b ∧ b ≤ 0x203 then
      if o < 0x80 then (rowsLaneG, o % 0x20) else (rowsGQuad, o)
    else if 0x500 ≤ b ∧ b ≤ 0x50F then (if o < 0x80 then (rowsLink, o % 0x40) else ([], o))
    else if (b = 0x510 ∧ d ≠ 0 ∧ d ≠ 3) ∨ (b = 0x511 ∧ d ≠ 2 ∧ d ≠ 5) then
      (if o < 0x200 then (rowsLink, o % 0x40) else ([], o))
    else if (b = 0x512 ∧ d ≠ 0 ∧ d ≠ 3) ∨ (b = 0x513 ∧ d ≠ 2 ∧ d ≠ 5) then
      (if o < 0x100 then (rowsLink, o % 0x40) else ([], o))
    else if b = 0x600 then (rowsBrd, o)
    else ([], o)
  else if d = 7 then
    if b = 0 then
      if 0x100 ≤ o ∧ o < 0x180 then (rowsLink, o % 0x40) else (rowsIdent, o)
    else if 0x700 ≤ b ∧ b ≤ 0x72F then (rowsAb, o)
    else if b = 0x780 then (rowsSw, o)
    else if 0x800 ≤ b ∧ b ≤ 0x80F then (rowsIc, o)
    else if b = 0x900 then (rowsMs, o)
    else if b = 0xA00 then
      if 0x1000 ≤ o then (rowsNiEnd, o - 0x1000) else (rowsFe ++ rowsAf, o)
    else ([], o)
  else ([], o)

/-- The row of the register at an address, if there is one (R10). -/
def regRow (a : Nat) : Option RegRow :=
  let br := blockRows (a / 4294967296) (a / 65536 % 65536) (a % 65536)
  br.1.find? (fun r => r.hits br.2)

/-- The reset value of the register at an address. -/
def regReset (a : Nat) : W32 :=
  match regRow a with
  | some r => BitVec.ofNat 32 r.reset
  | none => 0#32

/-- What a ring write of `v` leaves in a register that held `old`: stored bits, cleared bits, the rest kept (R8, R9). -/
def RegRow.write (r : RegRow) (old v : W32) : W32 :=
  let keep := old &&& ~~~(BitVec.ofNat 32 r.rw) &&& ~~~(BitVec.ofNat 32 r.w1c &&& v)
  keep ||| (v &&& BitVec.ofNat 32 r.rw)

end Sys2Proof.Machine
end

