-- ==== Sys2Proof/Machine/State.lean ====
section
/-! DEFINITION. The state of the FK-6400 as plain data, and the machine right after reset. Control registers stand in one sparse
table keyed by die, block and offset (Regs.lean); what the spec gives the machine beside them stands in the records below. -/

namespace Sys2Proof.Machine

/-- No command of this model ends in a fault: the FK-6400 reports every failure in a register, a status or an event. The
one constructor is never raised; it keeps the type inhabited. -/
inductive Fault where
  /-- Raised by no command: nothing to be safe or unsafe about. -/
  | none
  deriving DecidableEq, Repr

/-- Why a command has no meaning. -/
inductive Refusal where
  /-- An arm of exec not written yet answers so. Safe: the model stops where the device goes on. -/
  | notModelled (mnemonic : String)
  deriving DecidableEq, Repr

/-- Status of a completed ring access (R21). -/
inductive RStat where
  | ok | decode | timeout | refused
  deriving DecidableEq, Repr

/-- What a ring master holds of its one outstanding access (R21). `busy` from the request to its completion; `answered`
once the target's answer is on its way; `status` and `data` are those of the last completed access. -/
structure RingMaster where
  busy : Bool
  req : RingReq
  grantAt : Nat
  answered : Bool
  ansStatus : RStat
  ansData : W32
  status : RStat
  data : W32
  /-- it has asked the root and not been granted yet (R21) -/
  waiting : Bool
  /-- `grantAt` is the tick of a grant -/
  granted : Bool
  /-- the remote packet whose access this is (R178) -/
  remote : Option (BitVec 120)
  deriving DecidableEq, Repr

/-- What the hardware has set in the present ring cycle, which a write of that cycle does not clear (R11): per register its set
bits (the lowest bit of a count), and the pending bits. -/
structure HwSets where
  cycle : Nat
  bits : List (Nat × W32)
  pend : List Nat
  deriving DecidableEq, Repr

/-- The fused facts of the package (R13, R25 and the identity registers); nothing writes them. -/
structure Fuses where
  dieRev : List Nat
  tempE : Bool
  speed : Nat
  uid : W64
  deriving DecidableEq, Repr

/-- Where the root and the domain clocks stand (R29, R30, R37 to R39, R429). -/
inductive ClkPhase where
  /-- a monitored supply is out of range: power-on reset held -/
  | porHold
  /-- the oscillator delay of R30 runs -/
  | oscDelay
  /-- `REFCLK` edges are admitted, the root has not locked -/
  | lockWait
  /-- the domain clocks run -/
  | run
  /-- stopped by a clock loss with no fallback -/
  | stopped
  /-- acknowledged, the root relocks -/
  | relock
  /-- hub clocks run, the other dies' do not: T+0 to T+64 of R39 -/
  | hubOnly
  deriving DecidableEq, Repr

/-- Clock and tick state that no register holds (chapter 02). -/
structure Clk where
  phase : ClkPhase
  /-- ticks of the root that have passed; it stops with the clocks and no load changes it -/
  now : Nat
  tick : W64
  /-- the first tick after the release of the clocks has passed: core 0 runs and the ports train -/
  started : Bool
  /-- the revision read after the last reset has been made -/
  revDone : Bool
  /-- dies the revision read still waits for, and dies that will not answer it -/
  revWait : BitVec 8
  revSilent : BitVec 8
  revAt : Nat
  /-- user outputs driven to their safe states (R37), until T+256 of R39 -/
  outSafe : Bool
  /-- `now` at T+0 of the last resumption -/
  resumeAt : Nat
  /-- qualification time in force at the stop (R38) -/
  stopQual : Nat
  sscAct : W32
  /-- the root ignores the spread setting since a holdover began (R42) -/
  sscHeld : Bool
  /-- averages that have ended since the running depth last changed (R42) -/
  sscSeen : Nat
  /-- settings the fabric clock generators run with, and the tick each last started on -/
  fclkAct : Tab W32
  fclkStart : Tab Nat
  /-- `now` at the last accepted write of each generator's setting (R45) -/
  fclkSet : Tab Nat
  /-- the device ID in force before the last write of `DEVICE_ID`, and the ring cycle from which the new one holds (R26) -/
  idOld : BitVec 16
  idFrom : Nat
  loadArmed : Bool
  /-- root phase shift of the last tick load in 1/64 tick -/
  rootShift : Nat
  /-- expected marker tick whose comparison has been made, plus 1; 0 for none -/
  lastCmp : Nat
  /-- last average that lay in the presence window, and the correction the root applies in holdover (R33) -/
  goodAvg : BitVec 24
  holdCorr : BitVec 24
  /-- time markers sent last: tick value and aligned flag (R163) -/
  markerTick : W64
  markerFlag : Bool
  deriving DecidableEq, Repr

/-- Pins the management plane drives or samples (R212, R383, R422 to R424). -/
structure Pins where
  cfgMode : BitVec 3
  cfgPull : Bool
  oscDly : BitVec 3
  initDriven : Bool
  done : Bool
  progLow : Bool
  deriving DecidableEq, Repr

/-- A request the power controller handles (R371, R372). -/
structure PwrReq where
  domain : Nat
  target : Nat
  /-- rim cycles since the request started -/
  rim : Nat
  /-- rim cycle of the next ask -/
  askAt : Nat
  granted : Bool
  /-- crystal edges since the grant, and the tick of the last (R7, R372) -/
  edges : Nat
  edgeAt : Nat
  deriving DecidableEq, Repr

/-- Power controller and RTC (R369 to R377). -/
structure Pwr where
  cur : Option PwrReq
  /-- domains of wake requests queued behind it (R377) -/
  wakes : List Nat
  /-- domains told to turn on, each with the tick of the crystal edge that ended the step once it has come (R7) -/
  rising : List (Nat × Option Nat)
  /-- of these, the domains that leave retention -/
  kept : List Nat
  /-- domains turning on that are not yet ready, each with the first tick on which it may be (R372) -/
  turning : List (Nat × Nat)
  rtc : BitVec 48
  rtcStopped : Bool
  loadPending : Bool
  /-- the alarm of the present count has been raised -/
  almDone : Bool
  onVbat : Bool
  deriving DecidableEq, Repr

/-- An event message (R380). -/
structure EvMsg where
  addr : W64
  srcDev : BitVec 16
  srcDie : Nat
  pri : Nat
  deriving DecidableEq, Repr

/-- What an `EVT_OUT` pin is doing (R383). -/
structure OutPin where
  pulseUntil : Option Nat
  level : Bool
  toggle : Bool
  /-- tick of `Clk.now` on which the level was last set, plus one -/
  setAt : Nat
  deriving DecidableEq, Repr

/-- Event controller, collectors and bridge (R379 to R383). -/
structure Ev where
  /-- pending bits, keyed `2048 n + e` for core n and event e -/
  pend : Tab Bool
  /-- collector pending bits, keyed by event number -/
  coll : Tab Bool
  /-- messages handed to the bridge and not yet raised, oldest first -/
  flight : List EvMsg
  bridgeQ : List EvMsg
  outs : Tab OutPin
  deriving DecidableEq, Repr

/-- Who waits for the answer of a memory request. -/
inductive Origin where
  /-- a request packet that reached hub NI n from the Weave: its header, and whether an NI's spill or replay issued it -/
  | packet (n : Nat) (hdr : BitVec 256) (own : Nat)
  /-- the client of hub NI n, under a tag that the NI tracks -/
  | client (n tag : Nat)
  /-- a transfer of Thrumas core n: its tag -/
  | core (n tag : Nat)
  /-- a request of DMA engine e: its tag -/
  | dma (e tag : Nat)
  /-- a stream send of torus port p -/
  | stream (p : Nat)
  /-- the QDR pair's scheduled service -/
  | service (q : Nat)
  /-- a DRAM set's error log -/
  | errorLog (d : Nat)
  /-- a requester the model does not hold -/
  | outside
  deriving DecidableEq, Repr

/-- A request waiting at a hub target (chapters 11 and 12). -/
structure MemReq where
  write : Bool
  addr : Nat
  count : Nat
  data : List Byte
  master : Nat
  urgent : Bool
  spill : Bool
  origin : Origin
  arrivedAt : Nat
  deriving DecidableEq, Repr

/-- The answer of a hub target (R91). -/
structure MemRsp where
  origin : Origin
  status : Nat
  addr : Nat
  data : List Byte
  deriving DecidableEq, Repr

/-- What lands in a core on an issue cycle (R236). -/
inductive Landing where
  | reg (r : Nat) (v : W32)
  | pred (p : Nat) (b : Bool)
  | accflag (bits : BitVec 9)
  | special (num : Nat) (v : W32)
  | rot
  | store (a : Nat) (bytes : List Byte)
  deriving DecidableEq, Repr

/-- A result in flight: the issue cycle it lands on, that of its bundle, and the slot it came from. -/
structure InFlight where
  land : Nat
  issue : Nat
  slot : Nat
  what : Landing
  deriving DecidableEq, Repr

/-- A taken branch with its delay slots still to issue (R239). -/
structure Branch where
  target : Nat
  left : Nat
  reti : Bool
  deriving DecidableEq, Repr

/-- An active repeat (R243). -/
structure Repeat where
  start : Nat
  len : Nat
  rot : Bool
  ni : Bool
  left : Nat
  deriving DecidableEq, Repr

/-- An external transfer outstanding (R248). -/
structure Xfer where
  tag : Nat
  write : Bool
  dm : Nat
  count : Nat
  deriving DecidableEq, Repr

/-- A Thrumas core (chapter 10). -/
structure Thrumas where
  /-- physical registers -/
  v : Tab W32
  pred : BitVec 8
  acc : Tab (BitVec 48)
  turn : Nat
  /-- `RSIZE` code -/
  rsize : Nat
  ctl : W32
  epc : BitVec 14
  estat : W32
  tickHi : W32
  accflag : BitVec 9
  xstat : BitVec 16
  xerr : BitVec 16
  xcfg : W32
  rxbase : BitVec 6
  rxwp : BitVec 7
  rxrp : BitVec 7
  ievt : BitVec 11
  raddr : W32
  rdata : W32
  erep : BitVec 16
  ctxid : BitVec 16
  pc : BitVec 14
  /-- issue cycles so far -/
  cycle : Nat
  /-- slots of the bundle at `pc` that have issued -/
  issued : BitVec 4
  flight : List InFlight
  branch : Option Branch
  rep : Option Repeat
  /-- reserved DM word (R250) -/
  resv : Option Nat
  /-- queued sends: target tick and payload (R246) -/
  sends : List (Nat × BitVec 256)
  xfers : List Xfer
  /-- the `WAIT` the core stands at: `FN` and its operand (R249) -/
  wait : Option (Nat × Nat)
  /-- the core was told to stop at the next boundary (R253) -/
  stopAsked : Bool
  /-- a wrong watchdog key was written (R251) -/
  badKey : Bool
  /-- halt requested: its reason, and the tick of the request (R388, R389) -/
  haltReason : Option Nat
  haltAt : Nat
  /-- a stop or halt left the core stopped, for `RESUME` (R392) -/
  wasStopped : Bool
  stepping : Bool
  /-- the next bundle matches no breakpoint (R392), or has matched already -/
  skipBp : Bool
  /-- data comparator and slot that matched in this bundle (R396) -/
  watch : Option (Nat × Nat)
  deriving DecidableEq, Repr


/-- A scheduled flit or absence marker on its way, as its sideband names it (R87). -/
structure Flit where
  valid : Bool
  flow : Nat
  cause : Nat
  key : Nat
  bank : Bool
  parityOk : Bool
  payload : BitVec 256
  deriving DecidableEq, Repr

/-- How a scheduled flit came to a router: through the die-link module with its register set at `base`, or through the
receive side of a torus port. -/
inductive Via where
  | link (base : Nat)
  | port (p : Nat)
  deriving DecidableEq, Repr

/-- Where a scheduled flit is: at an input of a router (with the way it came), at a wrap stage (rows 0 to 9 are lines 0 to 9, column c
is line 10 + c; `up` when it travels from the low end to the high end), at an NI's egress, or at a port's transmit side. -/
inductive Loc where
  | router (d n inp : Nat) (via : Option Via)
  | stage (line : Nat) (up : Bool) (link : Nat)
  | egress (d n : Nat)
  | portTx (p : Nat)
  /-- within a looped NI, on its way to its own egress buffer (R420) -/
  | loop (d n : Nat)
  deriving DecidableEq, Repr

/-- A scheduled flit in flight; `due` is the tick (of `Clk.now`) on which it leaves that place. -/
structure Item where
  flit : Flit
  loc : Loc
  due : Nat
  deriving DecidableEq, Repr

/-- A schedule-fault record (R64). -/
structure SfRec where
  kind : Nat
  flowA : Nat
  flowB : Nat
  die : Nat
  router : Nat
  port : Nat
  tick : W32
  deriving DecidableEq, Repr

/-- A commit in progress (R85). -/
structure Commit where
  die : Nat
  crc : W32
  startedAt : Nat
  deriving DecidableEq, Repr

/-- The pattern: banks, what each bank injected when, the fault log (chapters 03 and 04). -/
structure Pat where
  /-- pattern and route tables, keyed by bank, die, NI, `TSEL` and index (R79, R92) -/
  store : Tab (BitVec 128)
  /-- per bank: the ticks from and until which it was active for injection (R56, R58) -/
  fromTick : Tab Nat
  untilTick : Tab Nat
  /-- tick on which the last flit of the old bank that concerns the device passes (R69, R70) -/
  tailEnd : Nat
  tailStop : Bool
  /-- period the old bank ran with -/
  oldPeriod : Nat
  /-- per bank and die: the committed shares, bit 8b + d -/
  okBits : BitVec 16
  commits : List Commit
  /-- dies that await rejoin (R66, R345) -/
  rejoin : BitVec 8
  flight : List Item
  log : List SfRec
  logOvf : Bool
  /-- alignment was lost and no pattern has been started since (R47) -/
  alignLost : Bool
  deriving DecidableEq, Repr

/-- A best-effort packet: header flit and data flits (R89). -/
structure Packet where
  hdr : BitVec 256
  data : List (BitVec 256)
  deriving DecidableEq, Repr

/-- A flit of a FIFO: payload and `LAST`. -/
structure FifoFlit where
  payload : BitVec 256
  last : Bool
  deriving DecidableEq, Repr

/-- A best-effort packet at a router input (port 0 to 5), at an NI's ejection input (port 6), or at a wrap stage (die 8, twice the
line plus one for the upward stage, port 0). -/
structure BeItem where
  pkt : Packet
  d : Nat
  n : Nat
  inp : Nat
  /-- reserved places it was charged with (R105) -/
  rsv : Nat
  /-- ticks on which its flits reach this place, header first: those that have left the place before (R103) -/
  comes : List Nat
  /-- flits that have left this place, and the output the packet holds (R103) -/
  gone : Nat
  out : Option Nat
  via : Option Via
  /-- the torus port it came over onto this device (R106) -/
  port : Option Nat
  /-- it came over that port and the hub NI of the port's router has not handled it yet (R95) -/
  raw : Bool
  aged : Bool
  /-- 0 an ordinary packet, 1 an NI's spill write, 2 its replay read (R115, R114) -/
  own : Nat
  deriving DecidableEq, Repr

/-- A freed place whose credit is not yet usable (R103). -/
structure CreditDue where
  key : Nat
  ordinary : Nat
  reserved : Nat
  readyAt : Nat
  deriving DecidableEq, Repr

/-- Router state of the best-effort class: what waits, what is charged, which outputs are held. -/
structure Be where
  items : List BeItem
  /-- places charged per input and VC: ordinary and, for requests, reserved (R104, R105) -/
  usedOrd : Tab Nat
  usedRsv : Tab Nat
  /-- over a die edge, the kinds charged per input and VC in their order, a reserved place true (R133) -/
  charges : Tab (List Bool)
  due : List CreditDue
  /-- tick plus 1 on which a flit last left an output, output 6 being an NI's own injection (R107, R108) -/
  lastOut : Tab Nat
  /-- input served last per output and VC, for the round-robin of R107 -/
  lastIn : Tab Nat
  deriving DecidableEq, Repr

/-- A request of a hub client that waits for its NI to take it. -/
structure ClientReq where
  pkt : Packet
  master : Nat
  origin : Origin
  deriving DecidableEq, Repr

/-- An outstanding request of an NI (R110 to R112). -/
structure Outst where
  tag : Nat
  places : Nat
  deadline : Option Nat
  hdr : BitVec 256
  client : Option Origin
  deriving DecidableEq, Repr

/-- A flit or marker in an NI's egress buffer, or presented last (R97). -/
structure Egr where
  flit : Flit
  tag : Nat
  tick : W64
  enter : Nat
  deriving DecidableEq, Repr

/-- A packet the NI holds until its spill write is answered (R115, R119). -/
structure SpillHeld where
  pkt : Packet
  index : Nat
  /-- tick on which the header reached the NI, and the record's sequence number (R115) -/
  tick : Nat
  seq : Nat
  /-- 0 line 1 is being written, 1 line 0 is, 2 line 0 has been written -/
  step : Nat
  deriving DecidableEq, Repr

/-- The pointers of a FIFO: both Gray-coded, and the ticks of the writes that the reader, and of the reads that the writer, has not
seen yet (R98). -/
structure FifoPtr where
  wr : BitVec 7
  rd : BitVec 7
  unseenW : List Nat
  unseenR : List Nat
  deriving DecidableEq, Repr

/-- What an NI holds beside its registers (chapters 04 and 05). -/
structure Ni where
  staging : List (BitVec 256)
  debt : Nat
  egress : List Egr
  presented : List Egr
  /-- tick of the last injection, and of the last egress check, plus 1; 0 for none -/
  injectedAt : Nat
  checkedAt : Nat
  /-- tick of the last `SCLK` edge on which the egress presented, plus 1 (R97) -/
  presentAt : Nat
  /-- tick of the last injection of a marker with cause 0x1, plus 1 -/
  markAt : Nat
  fifo0 : List FifoFlit
  fifo1 : List FifoFlit
  fifo2 : List FifoFlit
  fifo3 : List FifoFlit
  ptrs : Tab FifoPtr
  /-- headers of requests placed in `TREQ` and not yet answered, oldest first (R89, R123, R124) -/
  served : List (BitVec 256)
  /-- what the last FIFO read returned: payload, `LAST` and `NV` (R101) -/
  readOut : BitVec 258
  /-- a packet the writer of each FIFO has begun and not ended -/
  midWrite : BitVec 4
  /-- a packet the reader of each FIFO has begun and not ended -/
  midRead : BitVec 4
  flushing : BitVec 4
  outst : List Outst
  /-- requests of a hub client not yet admitted -/
  clientQ : List ClientReq
  rsv : Nat
  /-- step of a disable in progress: 0 none, 2 completing, 3 waiting for the period boundary (R123) -/
  disStep : Nat
  /-- tick since which `TREQ` has been `FULL` with a request header waiting (R113) -/
  fullSince : Option Nat
  spillSeq : Nat
  spillHeld : List SpillHeld
  /-- statuses of spill writes answered and not yet handled: record index and status -/
  spillRsp : List (Nat × Nat)
  /-- replay in progress: lines read so far, and the status of the last read -/
  replay : Option (List Byte)
  replayStatus : Nat
  replayRead : Nat
  /-- words 0 to 2 written to `PS_DATA` and not yet stored -/
  psWords : BitVec 96
  deriving DecidableEq, Repr

/-- A best-effort packet being collected from frames (R134). -/
structure RxPacket where
  hdr : BitVec 256
  data : List (BitVec 256)
  left : Nat
  deriving DecidableEq, Repr

/-- A die-link receiver beside its registers (chapter 06). -/
structure Lm where
  /-- last accepted training word, and the one before it (R136) -/
  lastWord : W32
  prevWord : W32
  /-- the far receiver asked this module's transmitter to retrain -/
  askRetrain : Bool
  stageAt : Nat
  trainAt : Nat
  passRun : Nat
  /-- tick of entry to `RUN` after a resync, for the 65,536 ticks of R140 -/
  resyncAt : Option Nat
  inResync : Bool
  /-- both forwarded clocks are absent (R138) -/
  clkGone : Bool
  /-- leave tick from which the present state decides what the module passes, and what it put in place of a flit before that
  (none: it passed them); leave tick from which it passes flits in `RUN` (R139, R140, R145) -/
  preCause : Option Nat
  lossFrom : Nat
  okFrom : Nat
  /-- leave ticks that start a failed frame's four positions (cause 0x9) -/
  failed : List Nat
  /-- mask and sideband group decided in `VERIFY` or under `CAP` -/
  decided : BitVec 8
  /-- groups found bad outside the payload groups (R141) -/
  margin : BitVec 5
  /-- frame being formed at a width below 4, and the best-effort flits it has taken (R135) -/
  txFrame : Nat
  txCount : Nat
  /-- the receiver has returned the credits of its free places since the link last left `RUN` (R143) -/
  resynced : Bool
  /-- crossing module: the values on `XC_RX`, those that passed their check with the first tick each is there, and whether the latest
  frame passed (R150, R151) -/
  xcRx : BitVec 512
  xcNext : List (Nat × BitVec 512)
  xcPassed : Bool
  /-- best-effort flits of frames collected until their packet is whole: header, data flits, flits still to come; requests, then
  responses (R132, R134) -/
  rxReq : Option RxPacket
  rxRsp : Option RxPacket
  deriving DecidableEq, Repr

/-- A position as a port sends it or receives it (R161): its send tick, class, flit or bytes. -/
structure PortPos where
  sendTick : Nat
  cls : Nat
  payload : BitVec 256
  codeError : Bool
  deriving DecidableEq, Repr

/-- A stream position the receiving port holds (R183). -/
structure CfgPos where
  words : List W32
  poison : Bool
  deriving DecidableEq, Repr

/-- What a torus port holds beside its registers (chapter 07). -/
structure Port where
  stageAt : Nat
  /-- tick of the restart after a stage overrun (R168) -/
  restartAt : Option Nat
  /-- round trips less turnaround collected in `EXCHANGE`, in 1/64 tick, and the first round trip (R169) -/
  trips : List Nat
  firstTrip : Nat
  exchDone : Bool
  farExchDone : Bool
  /-- the neighbour failed the pairing of R170 -/
  pairCause : Bool
  /-- this end has sent a control position with scheduled ready -/
  readySent : Bool
  /-- consecutive control positions with the far end's scheduled ready (R172) -/
  readySeen : Nat
  txSched : Bool
  /-- frame boundary from which the transmitter is in scheduled mode (R172) -/
  schedFrom : Nat
  rxSched : Bool
  /-- cause of the markers while out of scheduled mode (R172, R173) -/
  outCause : Nat
  /-- `FLAGS` of the far end's last control position -/
  farFlags : BitVec 8
  /-- best-effort flits sent and not yet credited, per VC -/
  sentReq : Nat
  sentRsp : Nat
  /-- last cumulative counts received (R162) -/
  farReq : BitVec 8
  farRsp : BitVec 8
  farCfg : BitVec 8
  /-- places freed at this end's side input, and stream positions accepted, cumulative (R162) -/
  freedReq : BitVec 8
  freedRsp : BitVec 8
  cfgAccepted : BitVec 8
  /-- receive delay fixed at the first entry into scheduled mode since the port trained (R55) -/
  delay : Option Nat
  /-- send ticks of admitted scheduled positions and markers, each with its flow, newest last (R62, R165) -/
  admits : List (Nat × Nat)
  /-- positions in the transmit frame assembly, newest last (R161) -/
  lastSent : List PortPos
  /-- the start position of the best-effort packet being sent has gone (R164) -/
  startSent : Bool
  /-- credit counts as last sent (R171) -/
  crReq : BitVec 8
  crRsp : BitVec 8
  /-- exchange: own sequence number, the tick it was sent on, whether done has been sent, the last number received, and its arrival in
  1/64 tick (R169) -/
  exchSeq : BitVec 8
  exchLast : Nat
  exchSaid : Bool
  exchSeen : BitVec 8
  exchAt : Nat
  /-- causes of markers that wait for the next admissible position (R165) -/
  markQ : List Nat
  /-- tick at which a half-width request takes effect (R175) -/
  switchAt : Option Nat
  /-- tick of the second frame boundary after both ends asked for quiet, and the state before quiet (R159) -/
  quietAt : Option Nat
  quietFrom : Nat
  /-- tick on which the port is back from quiet (R159) -/
  wakeAt : Option Nat
  /-- best-effort packet being collected: flits still to come, first bytes, flits, damage (R164) -/
  rxLeft : Nat
  rxFirst : List Byte
  rxFlits : List (BitVec 256)
  rxBad : Bool
  /-- keys of the frame's positions, whether its control position passed, positions seen since (R162, R167) -/
  keys : BitVec 128
  keyOk : Bool
  ctrlSeen : Nat
  /-- remote packets waiting to be sent, at most eight (R178), and the one whose second half is next -/
  remoteQ : List (BitVec 120)
  remoteOut : Option (BitVec 120)
  remoteHalf : Option (BitVec 60)
  /-- stream positions received and not yet accepted, at most 128 (R183) -/
  cfgIn : List CfgPos
  /-- stream send: words read so far, a read is outstanding, positions unacknowledged, words read and not yet sent (R184) -/
  sendWord : Nat
  sendAsked : Bool
  sendFail : Bool
  sendUnacked : Nat
  sendBuf : List W32
  /-- the read outstanding belongs to a send that was aborted (R184) -/
  sendStale : Bool
  /-- step of a disable in progress: 1 completing, 2 waiting for the period boundary, 3 for the frame boundary (R180) -/
  disStep : Nat
  deriving DecidableEq, Repr

/-- A lane's receive side beside its registers. -/
structure Lane where
  /-- the hardware aligns the lane on the next alignment marker (R157) -/
  byMarker : Bool
  /-- done seen from the far receiver (R156) -/
  eqSeen : Bool
  /-- done sent by this end's receiver, its last tap request and the tick of it (R156) -/
  eqDone : Bool
  request : BitVec 5
  reqAt : Nat
  /-- faulty since the last training (R174) -/
  faulty : Bool
  /-- ticks of the code errors of the last 1,024 characters (R174) -/
  errAt : List Nat
  deriving DecidableEq, Repr

/-- A remote gateway (R177): deadline of the outstanding packet and the packet itself. -/
structure Gw where
  deadline : Nat
  sent : Option (BitVec 120)
  deriving DecidableEq, Repr

/-- An upset record (R229). -/
structure UpsetRec where
  fa : W32
  kind : Nat
  chk : Bool
  word : Nat
  bit : Nat
  tick : W32
  deriving DecidableEq, Repr

/-- A reconfigurable region being held or released (R205). -/
structure RegionHold where
  /-- tick H on which the hold took effect -/
  since : Nat
  /-- a release was written; its tick E once it has taken effect -/
  asked : Bool
  relAt : Option Nat
  /-- the region's clock gate is closed -/
  gated : Bool
  deriving DecidableEq, Repr

/-- A capture of a die's flip-flops (R231): the number of the free values it took, plus one; whether all of them held `INIT`, the regions in
which they did, and the frames of those (R189). -/
structure Capture where
  num : Nat
  all : Bool
  rgns : List W32
  snap : Tab (BitVec 4096)
  deriving DecidableEq, Repr
/-- No capture has been made: every value reads zero. -/
def Capture.none : Capture := { num := 0, all := true, rgns := [], snap := [] }

/-- What the configuration controller and the frame engines hold beside their registers (chapter 09). -/
structure Cfg where
  /-- frames and their stored check bits by frame address [31:8] (R210, R211) -/
  frames : Tab (BitVec 4096)
  checks : Tab (BitVec 14)
  /-- essential-bit map, four words a configuration frame, keyed by 2^17 die + linear index (R226) -/
  map : Tab (BitVec 128)
  /-- the torus port that delivers the stream, from its first position to the stream's end (R183) -/
  portSrc : Option Nat
  /-- the SPI port reads its flash (R214, R225) -/
  spiRead : Bool
  /-- words waiting in the `CFG_SDATA` buffer -/
  sdata : List W32
  /-- the running CRC (R218) -/
  crc : W32
  /-- every word since the last passing check was a NOP, START, RELEASE or DESYNC -/
  clean : Bool
  devOk : Bool
  featOk : Bool
  frameAddr : W32
  ebmAddr : W32
  /-- the address has run past the last frame (R220) -/
  frameEnd : Bool
  ebmEnd : Bool
  region : W32
  scan : Bool
  /-- data words still to come of an open `FDATA` or `EBM_DATA` header, and the words of the frame or map group so far -/
  fdataLeft : Nat
  ebmLeft : Nat
  acc : List W32
  /-- frames in the engines' input buffers: die, key and bits, oldest first (R216) -/
  engineQ : List (Nat × Nat × BitVec 4096)
  /-- dies of an honoured `START` whose engines have frames to write yet (R222) -/
  startPend : BitVec 8
  /-- region a `HOLD` waits for: die and number -/
  waitHold : Option (Nat × Nat)
  /-- tick of `Clk.now` on which the last word was accepted -/
  lastWord : Nat
  /-- start-up tick T by die, and the rows of R222 that have taken effect -/
  startAt : Tab Nat
  stage : Tab Nat
  /-- start dies with scanning (R217) -/
  startScan : BitVec 8
  /-- held regions, keyed 16 die + region -/
  holds : Tab RegionHold
  /-- upset logs by die, at most eight records -/
  upsets : Tab (List UpsetRec)
  /-- a die's last capture of its flip-flops (R231) -/
  capture : Tab Capture
  deriving DecidableEq, Repr

/-- A test of a hub memory bank (R267). -/
structure Bist where
  bank : Nat
  /-- Thrumas cycles of the test done so far -/
  cycles : Nat
  /-- tick from which a pause's quiet count runs -/
  quietAt : Nat
  /-- `ABORT` was written -/
  aborting : Bool
  deriving DecidableEq, Repr

/-- A descriptor (R268). -/
structure Desc where
  src : Nat
  dst : Nat
  len : Nat
  srcDm : Bool
  dstDm : Bool
  score : Nat
  dcore : Nat
  urgent : Bool
  pri : Nat
  evt : Bool
  last : Bool
  next : Nat
  deriving DecidableEq, Repr

/-- A piece of a move that no request of it crosses a 256 B line with (R269): read, then written. -/
structure DmaPiece where
  tag : Nat
  off : Nat
  len : Nat
  writing : Bool
  deriving DecidableEq, Repr

/-- A DMA engine beside its registers (R268 to R270). -/
structure Dma where
  /-- global address of the current descriptor -/
  cur : Nat
  fetching : Bool
  desc : Option Desc
  /-- bytes for which a piece has been started -/
  issued : Nat
  pieces : List DmaPiece
  draining : Bool
  deriving DecidableEq, Repr

/-- The hub memory banks beside their registers and contents (chapter 11). -/
structure Banks where
  /-- master granted last at each port, keyed 2 bank + port, for the round-robin of R257 -/
  last : Tab Nat
  /-- Thrumas cycle, counted from the first release of the clocks, from which each port is free again (R257) -/
  held : Tab Nat
  /-- addresses of bytes whose parity has failed and that nothing has written since (R259) -/
  badPar : List Nat
  /-- tick at which a waking bank is ready, plus one, and whether it is being zeroed (R266) -/
  wake : Tab (Nat × Bool)
  bist : Option Bist
  /-- engines 0 to 3 -/
  dma : Tab Dma
  deriving DecidableEq, Repr


/-- A scheduled read that its pair has performed: the injection tick it is for, and the payload or the marker's cause
(R275, R279). -/
structure QdrRead where
  tick : Nat
  payload : Option (BitVec 256)
  cause : Nat
  deriving DecidableEq, Repr

/-- A scheduled write on its way to its service tick: arrival entry, flit, period and payload (R275, R277). -/
structure QdrWrite where
  tick : Nat
  bank : Nat
  idx : Nat
  flit : Nat
  period : Nat
  payload : BitVec 256
  deriving DecidableEq, Repr

/-- A QDR-IV pair beside its registers (chapter 12). -/
structure Qdr where
  /-- service tick of the last performed access, plus one -/
  lastDone : Nat
  reads : List QdrRead
  writes : List QdrWrite
  /-- `now` at the write of `DIS`: requests that came later are answered with bus error -/
  disAt : Option Nat
  deriving DecidableEq, Repr


/-- A DRAM set beside its registers and contents (chapters 12 and 13). -/
structure Ds where
  /-- open row and tick of the last access, by bank (R289) -/
  openRow : Tab (Option Nat)
  lastUse : Tab Nat
  /-- activates, keyed 16 times the number of the sub-window plus bank (R294) -/
  acts : Tab Nat
  /-- throttled masters and the tick until which each is (R294) -/
  throttled : List (Nat × Nat)
  /-- corrected symbols by device position in the running poll interval (R304) -/
  ceCount : Tab Nat
  /-- tick of the last record of the error log (R296) -/
  lastLog : Option Nat
  /-- next refresh command and its tick (R293), tick of the next poll (R295) -/
  refNext : Nat
  refAt : Nat
  pollAt : Nat
  /-- delay store, keyed 65536 device + 256 kind + bit -/
  delays : Tab (BitVec 7)
  /-- `STATE` before self-refresh (R297, R419) -/
  heldFrom : Nat
  /-- `now` at the write of `DIS` -/
  disAt : Option Nat
  deriving DecidableEq, Repr

/-- A cached metadata line (R314): its set, its number within the set, its bytes. -/
structure KmLine where
  set : Nat
  line : Nat
  data : List Byte
  dirty : Bool
  deriving DecidableEq, Repr

/-- A sampling run (R334): its first sample tick, the number of the next sample, and the samples taken. -/
structure AbRun where
  first : Nat
  k : Nat
  taken : Nat
  deriving DecidableEq, Repr

/-- A sample taken and not yet entered in the FIFO: its tick, the corrected code, and whether it was clamped or ends its
run (R335, R336). -/
structure AbSample where
  tick : Nat
  code : BitVec 16
  ovr : Bool
  last : Bool
  deriving DecidableEq, Repr

/-- An analog block beside its registers (chapter 14). -/
structure Ab where
  run : Option AbRun
  /-- first sample tick of a queued run (R337) -/
  queued : Option Nat
  /-- tick on which the calibration in progress started -/
  calAt : Option Nat
  samples : List AbSample
  fifo : List W32
  /-- earlier sample of a packed word -/
  half : Option (BitVec 16)
  /-- swaps of this block: W and the `AB_CFG_ADC` word before it, newest last (R333) -/
  before : List (Nat × W32)
  /-- W of the last swap, and results still to carry the settle flag -/
  settleAt : Nat
  settleLeft : Nat
  /-- word waiting for, and word presented on, `AC_RES_n` (R335) -/
  resWait : Option W32
  resOut : Option W32
  deriving DecidableEq, Repr

/-- An armed swap (R331): its blocks, the matrix, and W once it is fixed. -/
structure Swap where
  mask : BitVec 48
  mat : Bool
  at' : Option Nat
  deriving DecidableEq, Repr

/-- A conversion run (R357): its first start tick, the number of the next start, the conversions taken; started by mains
crossings or by the grid. `next` is the start tick of a `PER` = 0 run. -/
structure IcRun where
  first : Nat
  k : Nat
  taken : Nat
  mains : Bool
  next : Nat
  deriving DecidableEq, Repr

/-- A conversion in progress (R352): S, I, the configuration and the factors it started with. -/
structure IcConv where
  start : Nat
  len : Nat
  cfg : W32
  offset : W32
  gain : W32
  disturbed : Bool
  /-- 0 input integration, 1 auto-zero, 2 residue -/
  phase : Nat
  deriving DecidableEq, Repr

/-- A result: word, S, and B. -/
structure IcResult where
  word : W32
  start : Nat
  bits : Nat
  deriving DecidableEq, Repr

/-- An integrating converter beside its registers (chapter 15). -/
structure Ic where
  run : Option IcRun
  queued : Option IcRun
  conv : Option IcConv
  /-- start tick and integration length of the calibration in progress (R362) -/
  cal : Option (Nat × Nat)
  fifo : List IcResult
  deriving DecidableEq, Repr

/-- Die A beside its registers (chapters 14 and 15). -/
structure Ana where
  blocks : Tab Ab
  swap : Option Swap
  ics : Tab Ic
  /-- tick of the last mains crossing seen, and the last periods, at most eight, newest last (R355) -/
  cross : Option Nat
  periods : List Nat
  /-- `AF_CLK_k` lines: the setting before the last change, and the tick it ends on (R348) -/
  afOld : Tab W32
  afSwitch : Tab Nat
  deriving DecidableEq, Repr

/-- A march test of a die (R410): running since a tick, and the last result. -/
structure DieBist where
  since : Option Nat
  pass : Bool
  refused : Bool
  fails : Nat
  deriving DecidableEq, Repr

/-- The interconnect test (R411 to R413): the run's edge, direction and pattern, the module that `D2D_RESULT` reads, and the
wires that failed, as indices 172m + w. -/
structure D2d where
  edge : Nat
  dir : Bool
  mode : Nat
  modSel : Nat
  /-- tick of `Clk.now` on which the run in progress began -/
  since : Option Nat
  step : Nat
  done : Bool
  refused : Bool
  failed : List Nat
  deriving DecidableEq, Repr

/-- The test access ports (chapters 17 and 18): instructions, chain selection, and the data registers that keep a value. -/
structure Tap where
  ir : BitVec 8
  /-- instructions of the die TAPs, by die -/
  dieIr : Tab (BitVec 8)
  chainSel : BitVec 8
  overrun : Bool
  /-- `RING` as last captured -/
  ringCap : BitVec 68
  /-- `INDEX` of the last `RIM` update -/
  rimIndex : BitVec 7
  /-- boundary registers as last updated, by die -/
  boundary : Tab Nat
  bists : Tab DieBist
  d2d : D2d
  deriving DecidableEq, Repr


/-- The state of one FK-6400. -/
structure State where
  /-- every control register, keyed by `ra die block offset` -/
  regs : Tab W32
  clk : Clk
  ringCore : RingMaster
  ringDebug : RingMaster
  ringConfig : RingMaster
  /-- what the hardware set in this ring cycle (R11) -/
  hw : HwSets
  /-- dies held in reset, with the tick the reset began on (R27) -/
  dieReset : Tab (Option Nat)
  /-- edge directions whose ring share link 1's module carries, keyed by link 0's register set (R148) -/
  share1 : Tab Bool
  fuse : Fuses
  pins : Pins
  pwr : Pwr
  ev : Ev
  pat : Pat
  be : Be
  /-- NIs, keyed by 64 die + index -/
  nis : Tab Ni
  /-- die-link receivers, keyed by the address of their register set -/
  lms : Tab Lm
  /-- requests waiting at hub targets, oldest first, and answers not yet taken -/
  mq : List MemReq
  rsps : List MemRsp
  /-- torus ports 0 to 5 -/
  ports : Tab Port
  /-- receive circuits of lanes, keyed by quad address and lane -/
  lanes : Tab Lane
  gws : Tab Gw
  /-- remote packets received, with the port they came over, 6 for this device's own gateways; at most eight a port -/
  remoteIn : List (Nat × BitVec 120)
  /-- the configuration controller and frame engines -/
  cfg : Cfg
  /-- Thrumas cores 0 to 7 -/
  cores : Tab Thrumas
  /-- hub memory banks and DMA engines -/
  banks : Banks
  /-- QDR pairs 0 to 3, and their service tables keyed by pair, bank, table and index (R277) -/
  qdrs : Tab Qdr
  qdrSvc : Tab (BitVec 64)
  /-- DRAM sets 0 to 3, and the counter and tag cache, least recently used line first -/
  dsets : Tab Ds
  km : List KmLine
  /-- die A: analog blocks, switch matrix, converters and mains tracker -/
  ana : Ana
  /-- the test access ports -/
  tap : Tap
  /-- memory: hub banks, QDR, DRAM, core memories and check storage by byte address -/
  mem : List Host.Cell
  /-- the model's own counter of free values drawn -/
  free : Nat
  /-- commands waiting, first in, first out -/
  pending : List Instr
  deriving DecidableEq, Repr

/-- A master with no access outstanding. -/
def RingMaster.idle : RingMaster :=
  { busy := false, req := { die := 0, block := 0, off := 0, write := false, data := 0#32 }, grantAt := 0
    answered := false, ansStatus := .ok, ansData := 0#32, status := .ok, data := 0#32, waiting := false, granted := false
    remote := none }

/-- An NI with nothing in it. -/
def Ni.empty : Ni :=
  { staging := [], debt := 0, egress := [], presented := [], injectedAt := 0, checkedAt := 0, presentAt := 0, markAt := 0, fifo0 := [], fifo1 := [], fifo2 := []
    fifo3 := [], ptrs := [], served := [], readOut := 0, midWrite := 0, midRead := 0, flushing := 0, outst := [], clientQ := [], rsv := 0, disStep := 0, fullSince := none
    spillSeq := 0, spillHeld := [], spillRsp := [], replay := none, replayStatus := 0, replayRead := 0, psWords := 0 }

/-- A die-link receiver in `RESET`. -/
def Lm.empty : Lm :=
  { lastWord := 0, prevWord := 0, askRetrain := false, stageAt := 0, trainAt := 0, passRun := 0, resyncAt := none
    inResync := false, clkGone := false, preCause := none, lossFrom := 0, okFrom := 0, failed := [], decided := 0, margin := 0, txFrame := 0, txCount := 0, resynced := false
    xcRx := 0, xcNext := [], xcPassed := false, rxReq := none, rxRsp := none }

/-- A torus port as reset leaves it. -/
def Port.empty : Port :=
  { stageAt := 0, restartAt := none, trips := [], firstTrip := 0, exchDone := false, farExchDone := false, pairCause := false
    readySent := false, readySeen := 0, txSched := false, schedFrom := 0, rxSched := false, outCause := 4, farFlags := 0
    sentReq := 0, sentRsp := 0, farReq := 0, farRsp := 0, farCfg := 0, freedReq := 0, freedRsp := 0, cfgAccepted := 0
    delay := none, admits := [], lastSent := [], startSent := false, crReq := 0, crRsp := 0, exchSeq := 0, exchLast := 0, exchSaid := false
    exchSeen := 0, exchAt := 0, markQ := [], switchAt := none, quietAt := none, quietFrom := 0, wakeAt := none, rxLeft := 0, rxFirst := []
    rxFlits := [], rxBad := false, keys := 0, keyOk := false, ctrlSeen := 0, remoteQ := [], remoteOut := none
    remoteHalf := none, cfgIn := [], sendWord := 0, sendAsked := false, sendFail := false, sendUnacked := 0, sendBuf := []
    sendStale := false, disStep := 0 }

/-- A lane as reset leaves it. -/
def Lane.empty : Lane :=
  { byMarker := false, eqSeen := false, eqDone := false, request := 0, reqAt := 0, faulty := false, errAt := [] }

/-- The controller and engines as reset leaves them: every frame zero, every map bit one. -/
def Cfg.empty : Cfg :=
  { frames := [], checks := [], map := [], portSrc := none, spiRead := false, sdata := [], crc := 0, clean := false, devOk := false, featOk := false
    frameAddr := 0, ebmAddr := 0, frameEnd := false, ebmEnd := false, region := 0, scan := false, fdataLeft := 0
    ebmLeft := 0, acc := [], engineQ := [], startPend := 0, waitHold := none, lastWord := 0, startAt := [], stage := [], startScan := 0, holds := []
    upsets := [], capture := [] }

/-- A remote gateway with nothing outstanding. -/
def Gw.empty : Gw := { deadline := 0, sent := none }

/-- A core with everything zero, at bundle 0. -/
def Thrumas.empty : Thrumas :=
  { v := [], pred := 1, acc := [], turn := 0, rsize := 0, ctl := 0, epc := 0, estat := 0, tickHi := 0, accflag := 0
    xstat := 0, xerr := 0, xcfg := 0, rxbase := 0, rxwp := 0, rxrp := 0, ievt := 0, raddr := 0, rdata := 0, erep := 0
    ctxid := 0, pc := 0, cycle := 0, issued := 0, flight := [], branch := none, rep := none, resv := none, sends := []
    xfers := [], wait := none, stopAsked := false, badKey := false, haltReason := none, haltAt := 0, wasStopped := false
    stepping := false, skipBp := false, watch := none }

/-- Banks and engines with nothing in progress. -/
def Banks.empty : Banks := { last := [], held := [], badPar := [], wake := [], bist := none, dma := [] }

/-- A pair with nothing in progress. -/
def Qdr.empty : Qdr := { lastDone := 0, reads := [], writes := [], disAt := none }

/-- A set with nothing open and nothing counted. -/
def Ds.empty : Ds :=
  { openRow := [], lastUse := [], acts := [], throttled := [], ceCount := [], lastLog := none, refNext := 0, refAt := 0
    pollAt := 0, delays := [], heldFrom := 0, disAt := none }

/-- A block with nothing in progress. -/
def Ab.empty : Ab :=
  { run := none, queued := none, calAt := none, samples := [], fifo := [], half := none, before := [], settleAt := 0
    settleLeft := 0, resWait := none, resOut := none }

/-- A converter with nothing in progress. -/
def Ic.empty : Ic := { run := none, queued := none, conv := none, cal := none, fifo := [] }

/-- Die A with nothing in progress. -/
def Ana.empty : Ana :=
  { blocks := [], swap := none, ics := [], cross := none, periods := [], afOld := [], afSwitch := [] }

/-- An engine with nothing in it. -/
def Dma.empty : Dma :=
  { cur := 0, fetching := false, desc := none, issued := 0, pieces := [], draining := false }

/-- No march test has run. -/
def DieBist.empty : DieBist := { since := none, pass := false, refused := false, fails := 0 }
/-- The TAPs after `TRST_N`: every one holds `IDCODE`. -/
def Tap.empty : Tap :=
  { ir := 1, dieIr := [], chainSel := 0, overrun := false, ringCap := 0, rimIndex := 0, boundary := [], bists := []
    d2d := { edge := 0, dir := false, mode := 0, modSel := 0, since := none, step := 0, done := false, refused := false
             failed := [] } }

/-- The machine right after reset: the domain clocks first released, tick 0, every register at its reset value (DEDUCED, unsafe for
the first tick, log entry 4; fuses and straps DESIGN CHOICE, unsafe, log entries 5 and 6). -/
def State.reset : State :=
  { regs := []
    clk := { phase := .run, now := 0, tick := 0, started := false, revDone := false, revWait := 0xFF, revSilent := 0, revAt := 0, outSafe := false
             resumeAt := 0, stopQual := 1, sscAct := 0, sscHeld := false, sscSeen := 0, fclkAct := [], fclkStart := [], fclkSet := []
             idOld := 0, idFrom := 0, loadArmed := false, rootShift := 0, lastCmp := 0, goodAvg := 0, holdCorr := 0, markerTick := 0, markerFlag := false }
    ringCore := .idle, ringDebug := .idle, ringConfig := .idle, hw := { cycle := 0, bits := [], pend := [] }
    dieReset := [], share1 := []
    fuse := { dieRev := [0, 0, 0, 0, 0, 0, 0, 0], tempE := false, speed := 1, uid := 1 }
    pins := { cfgMode := 0, cfgPull := false, oscDly := 0, initDriven := true, done := false, progLow := false }
    pwr := { cur := none, wakes := [], rising := [], kept := [], turning := [], rtc := 0, rtcStopped := false, loadPending := false
             almDone := false, onVbat := false }
    ev := { pend := [], coll := [], flight := [], bridgeQ := [], outs := [] }
    pat := { store := [], fromTick := [], untilTick := [], tailEnd := 0, tailStop := false, oldPeriod := 0
             okBits := 0, commits := [], rejoin := 0, flight := [], log := [], logOvf := false, alignLost := false }
    be := { items := [], usedOrd := [], usedRsv := [], charges := [], due := [], lastOut := [], lastIn := [] }
    nis := [], lms := [], mq := [], rsps := [], ports := [], lanes := [], gws := [], remoteIn := [], cfg := Cfg.empty, cores := [], banks := Banks.empty, qdrs := [], qdrSvc := [], dsets := [], km := [], ana := Ana.empty, tap := Tap.empty
    mem := [], free := 0, pending := [] }

end Sys2Proof.Machine
end

