-- ==== Sys2Proof/Machine/Ops.lean ====
section
/-! DEFINITION. The shared operations: sparse tables, register and field access, free values, events with their collectors and
sinks (R379 to R383), the reach of the management ring (R21, R22, R148), and the answer of a ring access. -/

namespace Sys2Proof.Machine

/-! ### Sparse tables -/

/-- The value at a key; an unlisted key reads as the default `d`. -/
def tget {α : Type} (d : Nat → α) : Tab α → Nat → α
  | [], k => d k
  | (k', v) :: r, k => if k = k' then v else if k < k' then d k else tget d r k

/-- Store a value at a key, keeping the keys rising and no entry equal to its default. -/
def tput {α : Type} [DecidableEq α] (d : Nat → α) : Tab α → Nat → α → Tab α
  | [], k, v => if v = d k then [] else [(k, v)]
  | (k', v') :: r, k, v =>
    if k < k' then (if v = d k then (k', v') :: r else (k, v) :: (k', v') :: r)
    else if k = k' then (if v = d k then r else (k, v) :: r)
    else (k', v') :: tput d r k v

/-- Keep only the entries whose key satisfies `p`. -/
def tkeep {α : Type} (p : Nat → Bool) (t : Tab α) : Tab α := t.filter (fun e => p e.1)

/-- The canonical form: keys strictly rising above `lo`, no entry equal to its default. -/
def Tab.wfFrom {α : Type} [DecidableEq α] (d : Nat → α) : Nat → Tab α → Bool
  | _, [] => true
  | lo, (k, v) :: r => decide (lo ≤ k) && decide (v ≠ d k) && Tab.wfFrom d (k + 1) r

/-- The canonical form of a table. -/
def Tab.wf {α : Type} [DecidableEq α] (d : Nat → α) (t : Tab α) : Bool := Tab.wfFrom d 0 t

/-! ### Memory -/

/-- What a byte of memory that nothing has written reads as (DESIGN CHOICE, unsafe, log entry 7). -/
def memDefault (_ : Nat) : Byte := 0#8
/-- The canonical form of memory. -/
abbrev Memory.wf (m : List Host.Cell) : Bool := Tab.wf memDefault m

/-- One byte of memory. -/
def State.byte (s : State) (a : Nat) : Byte := tget memDefault s.mem a
/-- Write one byte of memory. -/
def State.setByte (s : State) (a : Nat) (v : Byte) : State := { s with mem := tput memDefault s.mem a v }
/-- `n` bytes from an address. -/
def State.bytes (s : State) (a n : Nat) : List Byte := (List.range n).map (fun i => s.byte (a + i))
/-- Store a list of bytes from an address on. -/
def State.setBytes (s : State) (a : Nat) : List Byte → State
  | [] => s
  | b :: r => (s.setByte a b).setBytes (a + 1) r

/-- A number from bytes, the lowest address least significant (R6). -/
def leNat : List Byte → Nat
  | [] => 0
  | b :: r => b.toNat + 256 * leNat r
/-- The `n` bytes of a number, least significant first (R6). -/
def natLe : Nat → Nat → List Byte
  | 0, _ => []
  | n + 1, v => BitVec.ofNat 8 v :: natLe n (v / 256)

/-! ### Registers -/

/-- A field of a word. -/
def getF (v : W32) (f : Fld) : Nat := (v.toNat >>> f.lsb) % 2 ^ f.width
/-- A one-bit field of a word. -/
def getB (v : W32) (f : Fld) : Bool := v.toNat.testBit f.lsb
/-- A word with one field replaced. -/
def putF (v : W32) (f : Fld) (n : Nat) : W32 :=
  let mask : W32 := BitVec.ofNat 32 ((2 ^ f.width - 1) <<< f.lsb)
  (v &&& ~~~mask) ||| (BitVec.ofNat 32 ((n % 2 ^ f.width) <<< f.lsb))

/-- The stored value of the register at an address. -/
def State.reg (s : State) (a : Nat) : W32 := tget regReset s.regs a
/-- Set the stored value of a register. -/
def State.setReg (s : State) (a : Nat) (v : W32) : State := { s with regs := tput regReset s.regs a v }
/-- A field of a register. -/
def State.fld (s : State) (a : Nat) (f : Fld) : Nat := getF (s.reg a) f
/-- A one-bit field of a register. -/
def State.bit (s : State) (a : Nat) (f : Fld) : Bool := getB (s.reg a) f
/-- Set a field of a register. -/
def State.setFld (s : State) (a : Nat) (f : Fld) (n : Nat) : State := s.setReg a (putF (s.reg a) f n)
/-- The ring cycle of the present tick: 250 MHz, six ticks (R28). -/
def State.ringCycle (s : State) : Nat := s.clk.now / 6
/-- What the hardware has set in this ring cycle (R11). -/
def State.hwNow (s : State) : HwSets :=
  if s.hw.cycle = s.ringCycle then s.hw else { cycle := s.ringCycle, bits := [], pend := [] }
/-- The hardware sets bits of a register in this ring cycle (R11). -/
def State.hwMark (s : State) (a : Nat) (bits : W32) : State :=
  { s with hw := { s.hwNow with bits := (a, bits) :: s.hwNow.bits } }
/-- Bits of a register that the hardware has set in this ring cycle (R11). -/
def State.hwBits (s : State) (a : Nat) : W32 :=
  s.hwNow.bits.foldl (fun v e => if e.1 = a then v ||| e.2 else v) 0#32
/-- The lowest bit of a field. -/
def Fld.bit (f : Fld) : W32 := BitVec.ofNat 32 (1 <<< f.lsb)
/-- Set a one-bit field of a register. -/
def State.setBit (s : State) (a : Nat) (f : Fld) (b : Bool) : State :=
  if b then (s.setFld a f 1).hwMark a f.bit else s.setFld a f 0
/-- Count one up in a field, saturating. -/
def State.satInc (s : State) (a : Nat) (f : Fld) : State :=
  let n := s.fld a f
  (if n + 1 < 2 ^ f.width then s.setFld a f (n + 1) else s).hwMark a f.bit
/-- The plain effect of a ring write: the row's stored and cleared bits (R8, R9). A bit that the hardware sets in the same ring
cycle ends set, and a count that it raises ends 1 (R11). -/
def State.plainWrite (s : State) (a : Nat) (v : W32) : State :=
  match regRow a with
  | some r => s.setReg a (r.write (s.reg a) v ||| (s.hwBits a &&& v &&& BitVec.ofNat 32 r.w1c))
  | none => s
/-- Two registers as one 64-bit number, low word first. -/
def State.reg64 (s : State) (lo hi : Nat) : Nat := (s.reg lo).toNat + 4294967296 * (s.reg hi).toNat
/-- Set two registers from one 64-bit number. -/
def State.setReg64 (s : State) (lo hi n : Nat) : State :=
  (s.setReg lo (BitVec.ofNat 32 n)).setReg hi (BitVec.ofNat 32 (n / 4294967296))
/-- Return to their reset values every register whose address satisfies `p`. -/
def State.resetRegs (s : State) (p : Nat → Bool) : State := { s with regs := tkeep (fun a => !p a) s.regs }

/-! ### Free values -/

/-- A free value of width `w`, and the state with the counter advanced. -/
def State.fresh (w : Nat) (s : State) : BitVec w × State :=
  ((Config.freeWord s.free).setWidth w, { s with free := s.free + 1 })
/-- A free choice, and the state with the counter advanced. -/
def State.freshB (s : State) : Bool × State := (Config.freeBool s.free, { s with free := s.free + 1 })

/-! ### Time -/

/-- The tick counter as a number. -/
def State.tickN (s : State) : Nat := s.clk.tick.toNat
/-- Ticks passed since the first release of the clocks. -/
def State.now (s : State) : Nat := s.clk.now
/-- The hub's clocks run (T+0 of R39 on). -/
def State.hubRuns (s : State) : Bool := s.clk.phase == .run || s.clk.phase == .hubOnly
/-- Every domain clock runs. -/
def State.runs (s : State) : Bool := s.clk.phase == .run
/-- Ticks in `n` ring cycles of 250 MHz, the first whole tick at or after them. -/
def ringTicks (n : Nat) : Nat := 6 * n

/-! ### Power domains -/

/-- State code of a domain in `PWR_STATE_k`: 0 off, 1 changing, 2 retention, 3 on (R369). -/
def State.domState (s : State) (dom : Nat) : Nat := s.fld (aPWR_STATE (dom / 16)) ⟨2 * (dom % 16), 2⟩
/-- Set a domain's state code. -/
def State.setDom (s : State) (dom v : Nat) : State := s.setFld (aPWR_STATE (dom / 16)) ⟨2 * (dom % 16), 2⟩ v
/-- A domain reads on. -/
def State.domOn (s : State) (dom : Nat) : Bool := s.domState dom == 3
/-- The Weave domain of a die's routers and NIs (R369). -/
def weaveDom (d : Nat) : Nat := if d = 6 then 14 else if d = 7 then 58 else 8 + d
/-- The domain whose state decides whether a control block answers `REFUSED` (R370); none for the blocks that belong to
no domain and for those that keep answering. -/
def blockDom (d b off : Nat) : Option Nat :=
  if d = 6 then
    if 0x10 ≤ b ∧ b ≤ 0x17 then some (16 + (b - 0x10))
    else if 0x100 ≤ b ∧ b ≤ 0x12F then some 14
    else none
  else if d < 6 then
    if 0x100 ≤ b ∧ b ≤ 0x11F then some (8 + d) else none
  else
    if 0x700 ≤ b ∧ b ≤ 0x780 then some 56
    else if 0x800 ≤ b ∧ b ≤ 0x900 then some 57
    else if b = 0xA00 ∧ 0x50 < off then some 58
    else none

/-! ### Events (R379 to R384) -/

/-- Pending-bit key of event e for core n. -/
def pendKey (n e : Nat) : Nat := 2048 * n + e
/-- Event e is pending for core n. -/
def State.evPending (s : State) (n e : Nat) : Bool := tget (fun _ => false) s.ev.pend (pendKey n e)
/-- Set or clear the pending bit of event e for core n. -/
def State.setPending (s : State) (n e : Nat) (b : Bool) : State :=
  { s with ev := { s.ev with pend := tput (fun _ => false) s.ev.pend (pendKey n e) b }
           hw := if b then { s.hwNow with pend := pendKey n e :: s.hwNow.pend } else s.hw }
/-- A write clears the pending bit of event e for core n, but for one that an event sets in the same ring cycle (R11). -/
def State.clearPending (s : State) (n e : Nat) : State :=
  if s.hwNow.pend.contains (pendKey n e) then s else s.setPending n e false

/-- An idle `EVT_OUT` pin. -/
def OutPin.idle : OutPin := { pulseUntil := none, level := false, toggle := false, setAt := 0 }
/-- The state of pin `EVT_OUT_i`. -/
def State.outPin (s : State) (i : Nat) : OutPin := tget (fun _ => OutPin.idle) s.ev.outs i
/-- Set the state of pin `EVT_OUT_i`. -/
def State.setOutPin (s : State) (i : Nat) (p : OutPin) : State :=
  { s with ev := { s.ev with outs := tput (fun _ => OutPin.idle) s.ev.outs i p } }
/-- The pin drives its active level (R383). -/
def OutPin.active (p : OutPin) : Bool := p.pulseUntil.isSome || p.level || p.toggle

/-- An occurrence reaches `EVT_OUT_i` (R383); a pin keeps its state while the clocks are stopped (R37). -/
def State.outOccur (s : State) (i : Nat) : State :=
  let a := aEV_OUT_CFG i
  let p := s.outPin i
  if !s.bit a fEV_OUT_CFG_EN || !s.hubRuns then s
  else
    match s.fld a fEV_OUT_CFG_MODE with
    | 1 => s.setOutPin i { p with level := true, setAt := s.now + 1 }
    | 2 => s.setOutPin i { p with toggle := !p.toggle }
    | _ =>
      let w := s.fld a fEV_OUT_CFG_WIDTH
      if p.pulseUntil.isSome then s
      else s.setOutPin i { p with pulseUntil := some (s.now + 16 * (if w = 0 then 1 else w)) }

/-- Words `ADDR` of an event message to device `dev` (R380): the bridge, or the fabric window of a die. -/
def msgAddr (dev : Nat) (window : Nat) (remote : Bool) (ch e : Nat) : W64 :=
  BitVec.ofNat 64 (2 ^ 48 * dev + 2 ^ 32 * window + (if remote then 2 ^ 15 else 0) + 2 ^ 12 * ch + e)

/-- Pulse of a source as the event controller on H latches and routes it (R381), without the controller's own events. -/
def State.raiseCore (s : State) (e : Nat) : State :=
  let s := s.setBit (aEV_RAW (e / 32)) ⟨e % 32, 1⟩ true
  let r := s.reg (aEV_ROUTE e)
  let cores := getF r fEV_ROUTE_CORES
  let s := (List.range 8).foldl (fun t n => if cores.testBit n then t.setPending n e true else t) s
  if getB r fEV_ROUTE_OUT_EN then s.outOccur (getF r fEV_ROUTE_OUT) else s

/-- The channel message an occurrence queues, when its route and the named entry ask for one (R380, R381). -/
def State.channelMsg (s : State) (e : Nat) : Option EvMsg :=
  let r := s.reg (aEV_ROUTE e)
  let m := s.reg (aEV_MSG (getF r fEV_ROUTE_MSG))
  if getB r fEV_ROUTE_MSG_EN && getB m fEV_MSG_V then
    let window := if getB m fEV_MSG_FAB then 0x3000 + getF m fEV_MSG_DIE * 16 else 0x7E00
    some { addr := msgAddr (getF m fEV_MSG_DEV) window true (getF m fEV_MSG_CH) e
           srcDev := BitVec.ofNat 16 (s.fld aDEVICE_ID fDEVICE_ID_ID)
           srcDie := 6
           pri := getF r fEV_ROUTE_LEVEL / 2 }
  else none

/-- Queue an occurrence's channel message in the bridge, or count it lost when the 32 places are full (R381, R384). -/
def State.queueMsg (s : State) (e : Nat) : State :=
  match s.channelMsg e with
  | none => s
  | some m =>
    if s.ev.bridgeQ.length < 32 then { s with ev := { s.ev with bridgeQ := s.ev.bridgeQ ++ [m] } }
    else
      let first := s.fld aEV_STAT fEV_STAT_MSG_LOST == 0
      let s := s.satInc aEV_STAT fEV_STAT_MSG_LOST
      if first then
        let s := s.raiseCore 3
        match s.channelMsg 3 with
        | none => s
        | some _ => s.satInc aEV_STAT fEV_STAT_MSG_LOST
      else s

/-- A source of H pulses: raw bit, cores, pin and channel message (R381). -/
def State.raiseHub (s : State) (e : Nat) : State := (s.raiseCore e).queueMsg e

/-- The event belongs to a logic die's or to A's collector (R24, R379). -/
def isCollected (e : Nat) : Bool := (768 ≤ e && e < 1536) || (1728 ≤ e && e < 1920) || (1952 ≤ e && e < 2048)
/-- Die whose collector holds an event (R24). -/
def eventDie (e : Nat) : Nat := if e < 1536 then (e - 768) / 128 else if e < 1920 then 7 else (e - 1952) / 16

/-- A source pulses: on H it reaches the controller, on another die its collector's pending bit is set (R379). -/
def State.raise (s : State) (e : Nat) : State :=
  if isCollected e then { s with ev := { s.ev with coll := tput (fun _ => false) s.ev.coll e true } }
  else s.raiseHub e

/-- Set a flag bit; when it goes from 0 to 1 the event is raised. -/
def State.flagRaise (s : State) (a : Nat) (f : Fld) (e : Nat) : State :=
  if s.bit a f then s.hwMark a f.bit else (s.setBit a f true).raise e

/-- The event with the highest `LEVEL` pending for core n, the lower number winning a tie: level and number (R382). -/
def State.presented (s : State) (n : Nat) : Option (Nat × Nat) :=
  s.ev.pend.foldl (fun best (k, v) =>
    if v && k / 2048 == n then
      let e := k % 2048
      let l := s.fld (aEV_ROUTE e) fEV_ROUTE_LEVEL
      match best with
      | none => some (l, e)
      | some (bl, _) => if bl < l then some (l, e) else best
    else best) none

/-! ### The management ring (R20 to R22, R148) -/

/-- The die is held in reset by `DIE_RESET` (R27). -/
def State.inReset (s : State) (d : Nat) : Bool := tget (fun _ => none) s.dieReset d != none

/-- State code of the die-link module with its register set at `b`. -/
def State.lmState (s : State) (b : Nat) : Nat := s.fld (aLM_STATUS b) fLM_STATUS_STATE

/-- The register sets that can carry the ring share of one edge direction: link 0's, and link 1's where there is one. -/
def State.shareBase (s : State) (l0 l1 : Nat) : Nat :=
  if tget (fun _ => false) s.share1 l0 then l1 else l0

/-- The edge direction carries its ring share: the carrying module is in `FRAME` or `RUN` (R148). -/
def State.edgeUp (s : State) (l0 l1 : Nat) : Bool :=
  let st := s.lmState (s.shareBase l0 l1)
  st == 5 || st == 6

/-- The edge directions of the loop that serves a die, as pairs of register sets (chapter 01, ring loops). -/
def loopEdges (d : Nat) : List (Nat × Nat) :=
  if d < 3 then
    [(ra 0 0x500 0, ra 0 0x501 0), (ra 1 0x510 0, ra 1 0x510 0x40), (ra 2 0x510 0, ra 2 0x510 0x40),
     (ra 2 0x500 0x40, ra 2 0x501 0x40)]
  else if d < 6 then
    [(ra 3 0x500 0, ra 3 0x501 0), (ra 4 0x510 0, ra 4 0x510 0x40), (ra 5 0x510 0, ra 5 0x510 0x40),
     (ra 5 0x500 0x40, ra 5 0x501 0x40)]
  else if d = 7 then [(ra 7 0 0x100, ra 7 0 0x100), (ra 7 0 0x140, ra 7 0 0x140)]
  else []

/-- Every share of the die's loop is carried; the hub's own loop always is (R22). -/
def State.reach (s : State) (d : Nat) : Bool := (loopEdges d).all (fun e => s.edgeUp e.1 e.2)

/-- Master number: 0 core 0, 1 debug, 2 configuration controller. -/
def rmIdx : Rm → Nat
  | .core0 => 0
  | .debug => 1
  | .config => 2
/-- Master ID on the ring (R23). -/
def rmId : Rm → Nat
  | .core0 => 0x01
  | .debug => 0x60
  | .config => 0x70

/-- The control address of a ring request. -/
def ringAddr (r : RingReq) : Nat := ra r.die r.block r.off

/-- A ring master's record. -/
def State.master (s : State) : Rm → RingMaster
  | .core0 => s.ringCore
  | .debug => s.ringDebug
  | .config => s.ringConfig
/-- Set a ring master's record. -/
def State.setMaster (s : State) (m : Rm) (r : RingMaster) : State :=
  match m with
  | .core0 => { s with ringCore := r }
  | .debug => { s with ringDebug := r }
  | .config => { s with ringConfig := r }

/-- What a target answers: the next state, the status and the read data. -/
abbrev Answer := State × RStat × W32

/-- The write was performed. -/
def wrote (s : State) : Answer := (s, .ok, 0#32)
/-- The write was refused and changes nothing. -/
def refuse (s : State) : Answer := (s, .refused, 0#32)

/-- An access the ring root answers at once with `TIMEOUT`: the ring does not run, or the die is in reset (R21, R27,
R38). -/
def State.ringClosed (s : State) (d : Nat) : Bool := !s.runs || s.inReset d

/-- The target's own gate: `DECODE` where no register is, `REFUSED` while its domain is not on (R10, R370). -/
def gated (r : RingReq) (f : State → Answer) (s : State) : Answer :=
  match regRow (ringAddr r) with
  | none => (s, .decode, 0#32)
  | some _ =>
    match blockDom r.die r.block r.off with
    | some dom => if s.domOn dom then f s else refuse s
    | none => f s

/-- The ring masters. -/
def allRm : List Rm := [.core0, .debug, .config]
/-- The root has granted an access in this ring cycle (R21). -/
def State.ringGranted (s : State) : Bool :=
  allRm.any (fun m => (s.master m).granted && (s.master m).grantAt / 6 == s.ringCycle)
/-- The master granted last; the configuration controller where none has been (DESIGN CHOICE, log entry 120). -/
def State.lastGranted (s : State) : Rm :=
  let later (a b : Rm) : Rm :=
    if !(s.master b).granted then a
    else if !(s.master a).granted then b
    else if (s.master a).grantAt ≤ (s.master b).grantAt then b else a
  later (later .config .debug) .core0
/-- The waiting master that round-robin order puts next (R21). -/
def State.nextWaiting (s : State) : Option Rm :=
  let order : List Rm := match s.lastGranted with
    | .core0 => [.debug, .config, .core0]
    | .debug => [.config, .core0, .debug]
    | .config => [.core0, .debug, .config]
  order.find? (fun m => (s.master m).busy && (s.master m).waiting)

/-- Master m's access, recorded as `r`, is granted now: it stays in progress where its loop's share is not carried, else its target
performs it and the answer is on its way (R21, R22). -/
def ringGrant (m : Rm) (r : RingMaster) (f : State → Answer) (s : State) : State :=
  let r : RingMaster := { r with grantAt := s.now, waiting := false, granted := true }
  if !s.reach r.req.die then s.setMaster m r
  else
    let a := gated r.req f s
    a.1.setMaster m { r with answered := true, ansStatus := a.2.1, ansData := a.2.2 }

/-- A master's access, when it has none outstanding: answered at once with `TIMEOUT` where the ring is closed; it waits for its grant
while the root has granted another in this ring cycle; else it is granted (R21, R22). -/
def ringDo (m : Rm) (r : RingReq) (f : State → Answer) (s : State) : State :=
  if (s.master m).busy then s
  else
    let rec0 : RingMaster := { s.master m with busy := true, req := r, grantAt := s.now, answered := false, waiting := false, granted := false }
    if s.ringClosed r.die then
      s.setMaster m { rec0 with answered := true, ansStatus := .timeout, ansData := 0#32 }
    else if s.ringGranted then s.setMaster m { rec0 with waiting := true }
    else ringGrant m rec0 f s

/-- A write by master m of the register at an address, whose effect is `f`. -/
def ringPut (m : Rm) (a : Nat) (v : W32) (f : State → Answer) (s : State) : State :=
  ringDo m { die := a / 4294967296, block := a / 65536 % 65536, off := a % 65536, write := true, data := v } f s

end Sys2Proof.Machine
end

