-- ==== Sys2Proof/Machine/Grid.lean ====
section
/-! DEFINITION. The Weave's grid: where routers sit, where each output leads, which die-link module it crosses, and where the
pattern tables of each router are (R72, R73, R79 to R82). -/

namespace Sys2Proof.Machine

/-- Row and column of router n on die d (chapter 04, the router grid). -/
def rcOf (d n : Nat) : Nat × Nat :=
  if d = 6 then (4 + n / 24, n % 24)
  else ((if d < 3 then 0 else 6) + n / 8, 8 * (d % 3) + n % 8)

/-- Die and index of the router at a row and column. -/
def nodeAt (r c : Nat) : Nat × Nat :=
  if r = 4 ∨ r = 5 then (6, 24 * (r - 4) + c)
  else if r < 4 then (c / 8, 8 * r + c % 8)
  else (3 + c / 8, 8 * (r - 6) + c % 8)

/-- The NI exists: 32 on each logic die, 48 on H, one endpoint on A. -/
def niExists (d n : Nat) : Bool := (d < 6 && n < 32) || (d == 6 && n < 48) || (d == 7 && n == 0)

/-- Key of an NI's record. -/
def niKey (d n : Nat) : Nat := d * 64 + n
/-- The record of NI n on die d. -/
def State.ni (s : State) (d n : Nat) : Ni := tget (fun _ => Ni.empty) s.nis (niKey d n)
/-- Set the record of NI n on die d. -/
def State.setNi (s : State) (d n : Nat) (x : Ni) : State :=
  { s with nis := tput (fun _ => Ni.empty) s.nis (niKey d n) x }

/-- Torus port whose side port the hub router carries (R73); port numbers run `XP`, `XN`, `YP`, `YN`, `ZP`, `ZN`. -/
def sidePortOf (n : Nat) : Option Nat :=
  match n with
  | 32 => some 0
  | 38 => some 1
  | 8 => some 2
  | 14 => some 3
  | 11 => some 4
  | 35 => some 5
  | _ => none
/-- Hub router that feeds torus port p (R73). -/
def portRouter (p : Nat) : Nat :=
  match p with
  | 0 => 32
  | 1 => 38
  | 2 => 8
  | 3 => 14
  | 4 => 11
  | _ => 35

/-- Row of a logic-die router counted from its die's first row. -/
def dieRow (r : Nat) : Nat := if r < 4 then r else r - 6

/-- Where output `dir` (0 north, 1 east, 2 south, 3 west) of the router at (r, c) leads, and the ticks until the flit leaves
that place: 2 for a hop, 8 across a die edge (R54, R72, R129). -/
def hopFrom (r c dir : Nat) : Loc × Nat :=
  let rt (r c inp : Nat) (v : Option Via) : Loc := .router (nodeAt r c).1 (nodeAt r c).2 inp v
  let d := (nodeAt r c).1
  match dir with
  | 0 =>
    if r = 0 then (.stage (10 + c) true (ra d (0x508 + c % 8) 0x40), 8)
    else if r = 4 then (rt 3 c 2 (some (.link (ra (c / 8) (0x500 + c % 8) 0))), 8)
    else if r = 6 then (rt 5 c 2 (some (.link (ra d (0x500 + c % 8) 0x40))), 8)
    else (rt (r - 1) c 2 none, 2)
  | 2 =>
    if r = 9 then (.stage (10 + c) false (ra d (0x508 + c % 8) 0x40), 8)
    else if r = 3 then (rt 4 c 0 (some (.link (ra d (0x500 + c % 8) 0x40))), 8)
    else if r = 5 then (rt 6 c 0 (some (.link (ra (3 + c / 8) (0x500 + c % 8) 0))), 8)
    else (rt (r + 1) c 0 none, 2)
  | 1 =>
    if c = 23 then
      if r = 4 ∨ r = 5 then (rt r 0 3 none, 4)
      else (.stage r false (ra (if r < 4 then 1 else 4) 0x511 (0x40 * (4 + dieRow r))), 8)
    else if (c = 7 ∨ c = 15) ∧ ¬ (r = 4 ∨ r = 5) then
      (rt r (c + 1) 3 (some (.link (ra (d + 1) 0x510 (0x40 * dieRow r)))), 8)
    else (rt r (c + 1) 3 none, 2)
  | _ =>
    if c = 0 then
      if r = 4 ∨ r = 5 then (rt r 23 1 none, 4)
      else (.stage r true (ra (if r < 4 then 1 else 4) 0x510 (0x40 * (4 + dieRow r))), 8)
    else if (c = 8 ∨ c = 16) ∧ ¬ (r = 4 ∨ r = 5) then
      (rt r (c - 1) 1 (some (.link (ra (d - 1) 0x511 (0x40 * dieRow r)))), 8)
    else (rt r (c - 1) 1 none, 2)

/-- Where a wrap stage hands its flits on: the router at the far end of the ring, across the second die edge. -/
def stageExit (line : Nat) (up : Bool) : Loc × Nat :=
  let rt (r c inp : Nat) (base : Nat) : Loc := .router (nodeAt r c).1 (nodeAt r c).2 inp (some (.link base))
  if line < 10 then
    let hi := if line < 4 then 2 else 5
    if up then (rt line 23 1 (ra hi 0x510 (0x40 * (4 + dieRow line))), 8)
    else (rt line 0 3 (ra (hi - 2) 0x511 (0x40 * (4 + dieRow line))), 8)
  else
    let c := line - 10
    if up then (rt 9 c 2 (ra (3 + c / 8) (0x508 + c % 8) 0), 8)
    else (rt 0 c 0 (ra (c / 8) (0x508 + c % 8) 0), 8)

/-- NI block that holds a wrap stage's crossing table (R79): the router of the stage's die nearest the sending die. -/
def stageBlock (line : Nat) (up : Bool) : Nat × Nat :=
  if line < 10 then nodeAt line (if up then 8 else 15)
  else nodeAt (if up then 4 else 5) (line - 10)

/-- The router's input `inp` (0 to 3) receives over a die edge. -/
def inputCrosses (r c inp : Nat) : Bool :=
  match inp with
  | 0 => r == 0 || r == 4 || r == 6
  | 2 => r == 3 || r == 5 || r == 9
  | 1 => !(r == 4 || r == 5) && (c == 7 || c == 15 || c == 23)
  | _ => !(r == 4 || r == 5) && (c == 0 || c == 8 || c == 16)

/-- Entries that the table `TSEL` holds at a router or NI; 0 where the router does not have it (R79, R92). -/
def tselSize (d n tsel : Nat) : Nat :=
  let (r, c) := rcOf d n
  if 6 < d then 0 else
  match tsel with
  | 0 => 4096
  | 1 => 2048
  | 2 => 4096
  | 3 => if inputCrosses r c 0 then 1024 else 0
  | 4 => if inputCrosses r c 1 then 1024 else 0
  | 5 => if inputCrosses r c 2 then 1024 else 0
  | 6 => if inputCrosses r c 3 then 1024 else 0
  | 7 => if d = 6 ∧ n = 0 then 1024 else if d = 6 ∧ (sidePortOf n).isSome then 4096 else 0
  | 8 =>
    if d = 6 then 1024
    else if (d = 1 ∨ d = 4) ∧ (n % 8 = 0 ∨ n % 8 = 7) then 1024 else 0
  | 9 => 1024
  | _ => 0

/-! ### The table store -/

/-- Key of an entry: bank, die, NI, table, index. -/
def psKey (bank d n tsel idx : Nat) : Nat := (((bank * 8 + d) * 64 + n) * 16 + tsel) * 8192 + idx
/-- What an unwritten entry reads as: no route in a flow table, zero elsewhere (DESIGN CHOICE, unsafe, log entry 8). -/
def psDefault (k : Nat) : BitVec 128 := if k / 8192 % 16 = 2 then 7#128 else 0#128
/-- An entry of the store. -/
def State.ps (s : State) (bank d n tsel idx : Nat) : BitVec 128 := tget psDefault s.pat.store (psKey bank d n tsel idx)
/-- Set an entry of the store. -/
def State.setPs (s : State) (bank d n tsel idx : Nat) (v : BitVec 128) : State :=
  { s with pat := { s.pat with store := tput psDefault s.pat.store (psKey bank d n tsel idx) v } }
/-- The listed entries of one table: index and entry. -/
def State.psTable (s : State) (bank d n tsel : Nat) : List (Nat × BitVec 128) :=
  (s.pat.store.filter (fun e => e.1 / 8192 == psKey bank d n tsel 0 / 8192)).map (fun e => (e.1 % 8192, e.2))

/-- Bits `[hi:lo]` of word w of an entry. -/
def ew (e : BitVec 128) (w hi lo : Nat) : Nat := bitsOf (e.toNat >>> (32 * w)) hi lo

/-- Bank 0 or 1 now active (`ACT_BANK`). -/
def State.actBank (s : State) : Nat := s.fld aPAT_STATUS fPAT_STATUS_ACT_BANK
/-- The shadow bank. -/
def State.shBank (s : State) : Nat := 1 - s.actBank
/-- The period P of the running pattern in ticks. -/
def State.period (s : State) : Nat := 16 * s.fld aACT_PERIOD fACT_PERIOD_P16
/-- The period a bank runs or ran with: the active bank's, or the old bank's while its tail passes (R69). -/
def State.bankPeriod (s : State) (bank : Nat) : Nat := if bank = s.actBank then s.period else s.pat.oldPeriod

/-- An arrival or crossing entry applies at tick t of its point: its slot and length match, and the injection tick it
implies lies within the time its bank was active (R56, R58, R82). -/
def State.entryApplies (s : State) (bank : Nat) (e : BitVec 128) (t : Nat) : Bool :=
  let p := s.bankPeriod bank
  let slot := ew e 0 15 0
  let lat := ew e 1 19 0
  let len := ew e 1 23 20
  ew e 0 28 28 == 1 && p != 0 && slot < p && (t + p - slot) % p ≤ len && lat ≤ t &&
    decide (tget (fun _ => 2 ^ 64) s.pat.fromTick bank + (t + p - slot) % p ≤ t - lat) &&
    decide (t - lat < tget (fun _ => 2 ^ 64) s.pat.untilTick bank)

/-- A stream entry for arrivals applies at tick t of A's egress (R58, R342). -/
def State.streamApplies (s : State) (bank : Nat) (e : BitVec 128) (t : Nat) : Bool :=
  let p := s.bankPeriod bank
  let slot := ew e 0 15 0
  let lat := ew e 1 19 0
  ew e 0 28 28 == 1 && ew e 0 29 29 == 1 && p != 0 && decide (slot < p) && t % p == slot && decide (lat ≤ t) &&
    decide (tget (fun _ => 2 ^ 64) s.pat.fromTick bank ≤ t - lat) &&
    decide (t - lat < tget (fun _ => 2 ^ 64) s.pat.untilTick bank)

/-- The crossing or arrival entry of a table that applies at tick t, in the banks given, and its bank. -/
def State.findEntry (s : State) (d n tsel t : Nat) (p : Nat → BitVec 128 → Bool) : Option (Nat × BitVec 128) :=
  ([s.actBank, s.shBank].filterMap (fun b =>
    ((s.psTable b d n tsel).find? (fun e => p b e.2 && s.entryApplies b e.2 t)).map (fun e => (b, e.2)))).head?

/-- Injection entries of an NI that cover tick t in a bank: index, entry and flit, none before the bank's start (R56, R80). -/
def State.injEntries (s : State) (d n bank p start t : Nat) : List (Nat × BitVec 128 × Nat) :=
  (s.psTable bank d n 0).filterMap (fun (i, e) =>
    let slot := ew e 0 15 0
    let f := (t + p - slot % p) % p
    if ew e 1 11 11 = 1 ∧ slot < p ∧ f ≤ ew e 0 19 16 ∧ start + f ≤ t then some (i, e, f) else none)

/-- A table of NI n of die d names an injection for this tick (R56, R342). -/
def State.injectsNow (s : State) (d n : Nat) : Bool :=
  let p := s.period
  let bank := s.actBank
  let start := tget (fun _ => 2 ^ 64) s.pat.fromTick bank
  let t := s.tickN
  s.bit aPAT_STATUS fPAT_STATUS_RUN && p != 0 &&
    (if d = 7 then (s.psTable bank 7 0 0).any (fun e =>
        ew e.2 0 28 28 == 1 && ew e.2 0 29 29 == 0 && decide (ew e.2 0 15 0 < p) && t % p == ew e.2 0 15 0 && decide (start ≤ t))
     else !(s.injEntries d n bank p start t).isEmpty)

end Sys2Proof.Machine
end

