-- ==== Sys2Proof/Machine/Breach.lean ====
section
/-! DEFINITION. The schedule-fault log (R62 to R64), breach (R65, R147) and what a breached die-link module or torus port puts in
place of a scheduled flit (R58, R59). -/

namespace Sys2Proof.Machine

/-! ### Schedule-fault log -/

/-- A record enters the log, or is counted lost (R64). -/
def State.logFault (s : State) (kind flowA flowB die router port : Nat) : State :=
  let r : SfRec := { kind := kind, flowA := flowA, flowB := flowB, die := die, router := router, port := port
                     tick := BitVec.ofNat 32 s.tickN }
  if s.pat.log.length < 16 then
    ({ s with pat := { s.pat with log := s.pat.log ++ [r] } }).raise 24
  else
    let t := s.satInc aSF_STATUS fSF_STATUS_LOST
    if s.pat.logOvf then t else ({ t with pat := { t.pat with logOvf := true } }).raise 25

/-- Remove the head record; ignored on an empty log (R64). -/
def State.popFault (s : State) : State :=
  match s.pat.log with
  | [] => s
  | _ :: r => { s with pat := { s.pat with log := r, logOvf := false } }

/-! ### Die-link receivers and torus ports -/

/-- The receiver record of the module at a register set. -/
def State.lm (s : State) (b : Nat) : Lm := tget (fun _ => Lm.empty) s.lms b
/-- Set a receiver record. -/
def State.setLm (s : State) (b : Nat) (x : Lm) : State := { s with lms := tput (fun _ => Lm.empty) s.lms b x }
/-- The port record of torus port p. -/
def State.port (s : State) (p : Nat) : Port := tget (fun _ => Port.empty) s.ports p
/-- Set a port record. -/
def State.setPort (s : State) (p : Nat) (x : Port) : State := { s with ports := tput (fun _ => Port.empty) s.ports p x }

/-- Payload groups of a mask: four for four or five groups, else its size (Widths). -/
def maskWidth (mask : Nat) : Nat :=
  let n := ((List.range 5).filter (fun g => mask.testBit g)).length
  if 4 ≤ n then 4 else n

/-- Die that the module at a register set is driven by. -/
def txDieOf (b : Nat) : Nat :=
  let d := b / 4294967296
  let blk := b / 65536 % 65536
  let o := b % 65536
  if d = 7 then (if o = 0x100 then 6 else 7)
  else if blk < 0x510 then (if o = 0 then 6 else d)
  else if blk = 0x510 ∨ blk = 0x512 then d - 1
  else d + 1

/-- Die that receives the module at a register set. -/
def rxDieOf (b : Nat) : Nat :=
  let d := b / 4294967296
  let blk := b / 65536 % 65536
  let o := b % 65536
  if d = 7 then (if o = 0x100 then 7 else 6)
  else if blk < 0x510 ∧ o = 0x40 then 6
  else d

/-- The die awaits rejoin (R66, R345). -/
def State.awaits (s : State) (d : Nat) : Bool := s.pat.rejoin.toNat.testBit d

/-- Cause that a module's state gives a flit due on tick `due`: below the contract width or fenced, training, or none (R135, R139,
R140, R144, R145). -/
def State.linkStateCause (s : State) (b due : Nat) : Option Nat :=
  let x := s.lm b
  let st := s.lmState b
  if due < x.lossFrom then x.preCause
  else if st = 6 then
    if maskWidth (s.fld (aLM_STATUS b) fLM_STATUS_MASK) < 4 then some 3
    else if due < x.okFrom then some 4
    else none
  else if st = 7 then some 3
  else some 4

/-- Cause a die-link receiver substitutes for a scheduled flit due to leave its first router or stage on tick `due`; none
while it passes flits. Of several causes the first in the order of R59: 0x3 and 0x4, the far die in reset or awaiting rejoin
included, before 0x9 of a failed frame (R59, R66, R140). -/
def State.linkCause (s : State) (b due : Nat) : Option Nat :=
  match s.linkStateCause b due with
  | some c => some c
  | none =>
    if s.inReset (txDieOf b) || s.awaits (txDieOf b) then some 4
    else if (s.lm b).failed.any (fun f => decide (f ≤ due ∧ due < f + 4)) then some 9
    else none

/-- `TICK_ALIGN.ALIGNED` reads 1, as it does on the clock master once `MASTER` is set (R47, R67). -/
def State.aligned (s : State) : Bool := s.bit aTICK_ALIGN fTICK_ALIGN_ALIGNED

/-- State code of torus port p. -/
def State.tpState (s : State) (p : Nat) : Nat := s.fld (aTP_STATUS p) fTP_STATUS_STATE
/-- Active budget of port p (R55). -/
def State.budget (s : State) (p : Nat) : Nat := s.fld (aACT_BUDGET p) fACT_BUDGET_B
/-- The port is in `SCHED`. -/
def State.portSched (s : State) (p : Nat) : Bool := s.tpState p == 7
/-- Any torus port is in scheduled mode. -/
def State.anySched (s : State) : Bool := (List.range 6).any s.portSched

/-- Cause a port's sides put in place of a scheduled flit; none in scheduled mode. The transmit side keeps the cause with which the port
left that mode, the receive side 0x8 (R34, R47, R172, R173, R60). -/
def State.portCause (s : State) (p : Nat) (rx : Bool) : Option Nat :=
  let x := s.port p
  let st := s.tpState p
  if st = 7 ∧ (if rx then x.rxSched else x.txSched && decide (x.schedFrom ≤ s.now)) then none
  else if s.pat.alignLost then some 6
  else if s.bit aREF_STATUS fREF_STATUS_HOLD || x.farFlags.toNat.testBit 0 then some 5
  else if (1 ≤ st ∧ st ≤ 4) ∨ st = 9 then some 4
  else if (st = 7 ∨ st = 6) ∧ !rx then some (if x.outCause = 4 then 8 else x.outCause)
  else some 8

/-- Cause substituted on the way a flit came. -/
def State.viaCause (s : State) (v : Via) (due : Nat) : Option Nat :=
  match v with
  | .link b => s.linkCause b due
  | .port p => s.portCause p true

/-! ### Breach -/

/-- Register sets of the modules that carry the Weave (chapter 06, Registers). -/
def weaveModules : List Nat :=
  ((List.range 6).flatMap (fun d =>
    (List.range 16).flatMap (fun n => [ra d (0x500 + n) 0, ra d (0x500 + n) 0x40])))
  ++ ([1, 2, 4, 5].flatMap (fun d => (List.range 8).map (fun l => ra d 0x510 (0x40 * l))))
  ++ ([0, 1, 3, 4].flatMap (fun d => (List.range 8).map (fun l => ra d 0x511 (0x40 * l))))
  ++ [ra 7 0 0x100, ra 7 0 0x140]

/-- Register sets of every die-link module, the fabric crossing modules included. -/
def allModules : List Nat :=
  weaveModules ++ ([1, 2, 4, 5].flatMap (fun d => (List.range 4).map (fun l => ra d 0x512 (0x40 * l))))
    ++ ([0, 1, 3, 4].flatMap (fun d => (List.range 4).map (fun l => ra d 0x513 (0x40 * l))))

/-- The module is inside the contract: in `RUN` at width 4 (R147). -/
def State.inContract (s : State) (b : Nat) : Bool :=
  s.lmState b == 6 && maskWidth (s.fld (aLM_STATUS b) fLM_STATUS_MASK) == 4

/-- Any active budget is nonzero. -/
def State.anyBudget (s : State) : Bool := (List.range 6).any (fun p => s.budget p != 0)

/-- The bits `BREACH_SUM` shows (R65, R66, R147). -/
def State.breachWord (s : State) : W32 :=
  let bad := (allModules.filter (fun b => !s.inContract b)).map rxDieOf
  let dieBit (d : Nat) : Bool :=
    bad.contains d || (s.awaits d && (d != 7 || s.bit aPAT_STATUS fPAT_STATUS_RUN))
  let dies := ((List.range 8).filter dieBit).foldl (fun n d => n + 2 ^ d) 0
  let ports := ((List.range 6).filter (fun p => s.budget p != 0 && !s.portSched p)).foldl (fun n p => n + 2 ^ (8 + p)) 0
  let hold := if s.bit aREF_STATUS fREF_STATUS_HOLD && s.anyBudget then 2 ^ 16 else 0
  let al := if s.pat.alignLost && s.anyBudget then 2 ^ 17 else 0
  BitVec.ofNat 32 (dies + ports + hold + al)

/-- Bring `BREACH_SUM` up to date; event 30 when a bit was set, event 31 when the last has cleared (R65, R71). -/
def State.syncBreach (s : State) : State :=
  let old := s.reg aBREACH_SUM
  let new := s.breachWord
  if new = old then s
  else
    let t := s.setReg aBREACH_SUM new
    let t := if new &&& ~~~old ≠ 0#32 then t.raise 30 else t
    if new = 0#32 then t.raise 31 else t

end Sys2Proof.Machine
end

