-- ==== Sys2Proof/Machine/Pattern.lean ====
section
/-! DEFINITION. The pattern: its registers and actions (R67 to R70, R437), the tables and their commit (R84 to R86). -/

namespace Sys2Proof.Machine

/-! ### Pattern status -/

/-- A start or swap is armed, or a tail is passing: shadow writes are refused (R68). -/
def State.shadowLocked (s : State) : Bool :=
  let a := s.fld aPAT_STATUS fPAT_STATUS_ARMED
  a == 1 || a == 2 || s.bit aPAT_STATUS fPAT_STATUS_TAIL

/-- An entry write has marked A's share of a bank as written, or A does not await rejoin (R345); the committed shares of
dies 0 to 6 (R85). -/
def State.shadowOk (s : State) : Nat :=
  let ok (d : Nat) : Bool := s.pat.okBits.toNat.testBit (8 * s.shBank + d)
  let low := ((List.range 7).filter ok).foldl (fun n d => n + 2 ^ d) 0
  low + (if !s.awaits 7 || ok 7 then 2 ^ 7 else 0)

/-- Bring `PAT_STATUS.SHADOW_OK` up to date. -/
def State.syncShadowOk (s : State) : State := s.setFld aPAT_STATUS fPAT_STATUS_SHADOW_OK s.shadowOk

/-- Set or clear the committed bit of die d in a bank. -/
def State.setOk (s : State) (bank d : Nat) (b : Bool) : State :=
  let i := 8 * bank + d
  let v := if b then s.pat.okBits ||| BitVec.ofNat 16 (2 ^ i) else s.pat.okBits &&& ~~~(BitVec.ofNat 16 (2 ^ i))
  ({ s with pat := { s.pat with okBits := v } }).syncShadowOk

/-- The code with which an action is refused; 0 when it is accepted (R67). While the active P is 0, no pattern having started since
reset or a clock loss, a swap or stop is not refused for it with code 0x2 (DESIGN CHOICE, unsafe, log entry 128). -/
def State.patRefusal (s : State) (act : Nat) : Nat :=
  let at' := s.reg64 aPAT_AT_LO aPAT_AT_HI
  let p16 := s.fld aSH_PERIOD fSH_PERIOD_P16
  let shB := (List.range 6).map (fun p => s.fld (aSH_BUDGET p) fSH_BUDGET_B)
  let run := s.bit aPAT_STATUS fPAT_STATUS_RUN
  if act ≠ 3 ∧ (p16 < 16 ∨ 4096 < p16) then 1
  else if (act ≠ 1 ∧ s.period ≠ 0 ∧ at' % s.period ≠ 0) ∨ (act ≠ 3 ∧ at' % (16 * p16) ≠ 0) then 2
  else if at' < s.tickN + 4096 then 3
  else if (act = 1) = (run = true) then 4
  else if act ≠ 3 ∧ shB.any (· != 0) ∧ !s.aligned then 5
  else if act = 2 ∧ (List.range 6).any (fun p =>
      s.fld (aSH_BUDGET p) fSH_BUDGET_B != s.budget p && s.portSched p) then 6
  else if act ≠ 3 ∧ (List.range 8).any (fun d =>
      (s.fld aDIE_PRESENT fDIE_PRESENT_PRESENT).testBit d && !s.shadowOk.testBit d) then 7
  else if s.fld aPAT_STATUS fPAT_STATUS_ARMED ≠ 0 ∨ (act = 1 ∧ s.bit aPAT_STATUS fPAT_STATUS_TAIL) then 8
  else if act = 1 ∧ s.clk.loadArmed then 9
  else 0

/-- A write of `PAT_CTRL` (R67, R68). -/
def patCtrlWrite (v : W32) (s : State) : Answer :=
  match getF v fPAT_CTRL_ACTION with
  | 4 =>
    let at' := s.reg64 aPAT_AT_LO aPAT_AT_HI
    if s.fld aPAT_STATUS fPAT_STATUS_ARMED = 0 ∨ at' < s.tickN + 4096 then refuse s
    else wrote (s.setFld aPAT_STATUS fPAT_STATUS_ARMED 0)
  | 1 | 2 | 3 =>
    let act := getF v fPAT_CTRL_ACTION
    let code := s.patRefusal act
    let t := s.setFld aPAT_STATUS fPAT_STATUS_REFUSE code
    if code ≠ 0 then refuse (t.raise 29) else wrote (t.setFld aPAT_STATUS fPAT_STATUS_ARMED act)
  | _ => wrote s

/-- A write of `PAT_AT_LO` or `PAT_AT_HI`: refused while an action is armed (R68). -/
def patAtWrite (a : Nat) (v : W32) (s : State) : Answer :=
  if s.fld aPAT_STATUS fPAT_STATUS_ARMED ≠ 0 then refuse s else wrote (s.plainWrite a v)

/-- A write of the shadow header: refused while R68 says so. -/
def shadowHeaderWrite (a : Nat) (v : W32) (s : State) : Answer :=
  if s.shadowLocked then refuse s else wrote (s.plainWrite a v)

/-- `ACTION` = start, swap, stop or cancel written by master m. -/
def execPatternStart (m : Rm) (s : State) : Host.Outcome State Fault Refusal :=
  .next (ringPut m aPAT_CTRL 1#32 (patCtrlWrite 1#32) s)
@[inherit_doc execPatternStart]
def execPatternSwap (m : Rm) (s : State) : Host.Outcome State Fault Refusal :=
  .next (ringPut m aPAT_CTRL 2#32 (patCtrlWrite 2#32) s)
@[inherit_doc execPatternStart]
def execPatternStop (m : Rm) (s : State) : Host.Outcome State Fault Refusal :=
  .next (ringPut m aPAT_CTRL 3#32 (patCtrlWrite 3#32) s)
@[inherit_doc execPatternStart]
def execPatternCancel (m : Rm) (s : State) : Host.Outcome State Fault Refusal :=
  .next (ringPut m aPAT_CTRL 4#32 (patCtrlWrite 4#32) s)

/-! ### Taking an action -/

/-- Exchange two registers. -/
def State.swapRegs (s : State) (a b : Nat) : State := (s.setReg a (s.reg b)).setReg b (s.reg a)

/-- The shadow and active headers exchange their values (R437). -/
def State.swapHeaders (s : State) : State :=
  let s := (s.swapRegs aSH_PERIOD aACT_PERIOD).swapRegs aSH_ID aACT_ID
  (List.range 6).foldl (fun t p => t.swapRegs (aSH_BUDGET p) (aACT_BUDGET p)) s

/-- Last tick on which an entry of a bank that stopped injecting at tick `until` applies (R58, R69): the greatest over its
flits. -/
def lastArrival (p from' until' len : Nat) (e : BitVec 128) : Nat :=
  let slot := ew e 0 15 0
  let lat := ew e 1 19 0
  let top := until' + lat - 1
  (List.range len).foldl (fun best k =>
    let t := top - (top + p - (slot + k) % p) % p
    if from' + lat + k ≤ t then max best t else best) 0

/-- Flits of an arrival or crossing entry; a stream entry of A for arrivals has one, and an inject entry none (R82, R342). -/
def arrivalLen (d tsel : Nat) (e : BitVec 128) : Nat :=
  if tsel = 2 ∨ tsel = 9 then 0
  else if d = 7 then (if tsel = 0 ∧ ew e 0 29 29 = 1 then 1 else 0)
  else if tsel = 0 then 0 else ew e 1 23 20 + 1

/-- Last tick on which a flit of the bank concerns the device, by its arrival and crossing entries (R69). -/
def State.bankTail (s : State) (bank p until' : Nat) : Nat :=
  let from' := tget (fun _ => 2 ^ 64) s.pat.fromTick bank
  s.pat.store.foldl (fun best (k, e) =>
    let tsel := k / 8192 % 16
    let len := arrivalLen (k / (8192 * 16 * 64) % 8) tsel e
    if k / (8192 * 16 * 64 * 8) = bank ∧ len ≠ 0 ∧ ew e 0 28 28 = 1 ∧ p ≠ 0 ∧ ew e 0 15 0 < p then
      max best (lastArrival p from' until' len e)
    else best) 0

/-- Flits of a bank that this device injected are still on it (R69). What waits at the receive side of a torus port is judged by the
tables alone. -/
def State.bankFlits (s : State) (bank : Nat) : Bool :=
  s.pat.flight.any (fun i => i.flit.bank == (bank == 1) && (match i.loc with
    | .router _ _ _ (some (.port _)) => false
    | _ => true))

/-- Set `TAIL`, or let the tail end at once when nothing of the old bank is left (R69, R70). -/
def State.startTail (s : State) (stop : Bool) (old p w : Nat) : State :=
  let e := s.bankTail old p w
  let mine := s.bankFlits old
  let s := { s with pat := { s.pat with tailEnd := e, tailStop := stop, oldPeriod := p } }
  if e < w && !mine then (if stop then s.raise 28 else s)
  else s.setBit aPAT_STATUS fPAT_STATUS_TAIL true

/-- The `PAT_AT` tick of the armed action (R56, R66, R69, R70, R437). A logic die rejoins at a start too that makes its committed bank
active, as R345 says of A (DESIGN CHOICE, unsafe, log entry 129). -/
def State.takeAction (s : State) : State :=
  let act := s.fld aPAT_STATUS fPAT_STATUS_ARMED
  let w := s.tickN
  let old := s.actBank
  let p := s.period
  let s := s.setFld aPAT_STATUS fPAT_STATUS_ARMED 0
  let stopOld (t : State) : State :=
    { t with pat := { t.pat with untilTick := tput (fun _ => 2 ^ 64) t.pat.untilTick old w } }
  if act = 3 then
    ((stopOld (s.setBit aPAT_STATUS fPAT_STATUS_RUN false)).startTail true old p w).syncBreach
  else
    let new := 1 - old
    let s := if act = 2 then stopOld s else s
    let s := { s with pat := { s.pat with
      fromTick := tput (fun _ => 2 ^ 64) s.pat.fromTick new w
      untilTick := tput (fun _ => 2 ^ 64) s.pat.untilTick new (2 ^ 64) } }
    let joined := (List.range 8).filter (fun d => s.awaits d && s.pat.okBits.toNat.testBit (8 * new + d))
    let left := joined.foldl (fun (v : BitVec 8) d => v &&& ~~~(BitVec.ofNat 8 (2 ^ d))) s.pat.rejoin
    let s := { s with pat := { s.pat with rejoin := left, alignLost := s.pat.alignLost && !(act == 1 && s.aligned) } }
    let s := (s.setFld aPAT_STATUS fPAT_STATUS_ACT_BANK new).swapHeaders
    let s := (s.setBit aPAT_STATUS fPAT_STATUS_RUN true).syncShadowOk
    let s := if act = 2 then (s.startTail false old p w).raise 27 else s.raise 26
    s.syncBreach

/-- The armed action takes effect on the tick in `PAT_AT`; on any other tick nothing happens (R67, R437). -/
def execPatternActionTick (s : State) : Host.Outcome State Fault Refusal :=
  if s.hubRuns && s.fld aPAT_STATUS fPAT_STATUS_ARMED != 0 && s.tickN == s.reg64 aPAT_AT_LO aPAT_AT_HI then
    .next s.takeAction
  else .next s

/-- The last flit of the old bank that concerns the device has passed (R69, R70). -/
def execTailEnd (s : State) : Host.Outcome State Fault Refusal :=
  let oldBank := if s.bit aPAT_STATUS fPAT_STATUS_RUN then s.shBank else s.actBank
  if s.bit aPAT_STATUS fPAT_STATUS_TAIL && decide (s.pat.tailEnd ≤ s.tickN) &&
      !s.bankFlits oldBank then
    let t := s.setBit aPAT_STATUS fPAT_STATUS_TAIL false
    .next (if s.pat.tailStop then (t.raise 28).syncBreach else t)
  else .next s

/-- A write of `SF_POP` removes the head record (R64). -/
def execSfPop (m : Rm) (v : W32) (s : State) : Host.Outcome State Fault Refusal :=
  .next (ringPut m aSF_POP v (fun t => wrote t.popFault) s)

/-! ### Table access (R84) -/

/-- A commit of die d is busy. -/
def State.committing (s : State) (d : Nat) : Bool := s.pat.commits.any (fun c => c.die == d)

/-- The table and index that `PS_ADDR` names exist at this NI (R79, R84). -/
def State.psValid (s : State) (d n : Nat) : Bool :=
  decide (s.fld (aPS_ADDR d n) fPS_ADDR_INDEX < tselSize d n (s.fld (aPS_ADDR d n) fPS_ADDR_TSEL))

/-- Bank that an access reads: the shadow, the active, or for the route table the one bank there is. -/
def State.psBank (s : State) (d n : Nat) : Nat :=
  if s.fld (aPS_ADDR d n) fPS_ADDR_TSEL = 9 then 0
  else if s.bit (aPS_ADDR d n) fPS_ADDR_BANK then s.actBank else s.shBank

/-- Advance `INDEX` when `AINC` is set. -/
def State.psAdvance (s : State) (d n : Nat) : State :=
  if s.bit (aPS_ADDR d n) fPS_ADDR_AINC then
    s.setFld (aPS_ADDR d n) fPS_ADDR_INDEX (s.fld (aPS_ADDR d n) fPS_ADDR_INDEX + 1)
  else s

/-- A write of `PS_DATA_k` (R84): words 0 to 2 wait, word 3 stores the entry. -/
def psDataWrite (d n k : Nat) (v : W32) (s : State) : Answer :=
  let x := s.ni d n
  let tsel := s.fld (aPS_ADDR d n) fPS_ADDR_TSEL
  let idx := s.fld (aPS_ADDR d n) fPS_ADDR_INDEX
  if !s.psValid d n then (s, .decode, 0#32)
  else if tsel = 2 || (tsel != 9 && s.bit (aPS_ADDR d n) fPS_ADDR_BANK) then refuse s
  else if k < 3 then
    let keep := x.psWords &&& ~~~(BitVec.ofNat 96 (4294967295 <<< (32 * k)))
    wrote (s.setNi d n { x with psWords := keep ||| BitVec.ofNat 96 (v.toNat <<< (32 * k)) })
  else
    let e : BitVec 128 := v ++ x.psWords
    if tsel = 9 then wrote ((s.setPs 0 d n 9 idx e).psAdvance d n)
    else if s.shadowLocked || s.committing d then refuse s
    else
      let t := (s.setPs s.shBank d n tsel idx e).setOk s.shBank d false
      wrote ((t.setBit (aPS_CSTAT d) fPS_CSTAT_OK false).psAdvance d n)

/-- A read of `PS_DATA_k`: the word of the addressed entry; the advancing word's read moves `INDEX`, except for the debug
port (R84, R400). -/
def psDataRead (m : Rm) (d n k : Nat) (s : State) : Answer :=
  let tsel := s.fld (aPS_ADDR d n) fPS_ADDR_TSEL
  let idx := s.fld (aPS_ADDR d n) fPS_ADDR_INDEX
  if !s.psValid d n then (s, .decode, 0#32)
  else
    let w := BitVec.ofNat 32 ((s.ps (s.psBank d n) d n tsel idx).toNat >>> (32 * k))
    let t := if m ≠ .debug ∧ k = (if tsel = 2 then 0 else 3) then s.psAdvance d n else s
    (t, .ok, w)

/-- `PS_DATA_3` of an NI written by master m (R84). -/
def execPatternTableWrite (m : Rm) (i : NiId) (v : W32) (s : State) : Host.Outcome State Fault Refusal :=
  if niExists i.die i.ni then .next (ringPut m (aPS_DATA_3 i.die i.ni) v (psDataWrite i.die i.ni 3 v) s) else .next s

/-- A `PS_DATA` word of an NI read by master m (R84). -/
def execPsDataRead (m : Rm) (i : NiId) (word : Fin 4) (s : State) : Host.Outcome State Fault Refusal :=
  let a := aPS_DATA_0 i.die i.ni + 4 * word.val
  if niExists i.die i.ni then
    .next (ringDo m { die := a / 4294967296, block := a / 65536 % 65536, off := a % 65536, write := false, data := 0#32 }
      (psDataRead m i.die i.ni word.val) s)
  else .next s

/-! ### Commit (R85, R86) -/

/-- One byte into a reflected CRC-32. -/
def crc32Byte (c : W32) (b : Byte) : W32 :=
  (List.range 8).foldl (fun c _ => if c.getLsbD 0 then (c >>> 1) ^^^ 0xEDB88320#32 else c >>> 1) (c ^^^ b.setWidth 32)
/-- CRC-32 of IEEE 802.3 over bytes, from a running value. -/
def crc32Run (c : W32) (bs : List Byte) : W32 := bs.foldl crc32Byte c
/-- `n` zero bytes into a running CRC-32. -/
def crc32Zeros : Nat → W32 → W32
  | 0, c => c
  | n + 1, c => crc32Zeros n (crc32Byte c 0#8)
/-- CRC-32 of a list of bytes (R85, R115). -/
def crc32 (bs : List Byte) : W32 := crc32Run 0xFFFFFFFF#32 bs ^^^ 0xFFFFFFFF#32

/-- One table into the CRC: its listed entries with the zero entries between them. -/
def tableCrc (size : Nat) : Nat → List (Nat × BitVec 128) → W32 → W32
  | pos, [], c => crc32Zeros (16 * (size - pos)) c
  | pos, (i, e) :: r, c =>
    tableCrc size (i + 1) r (crc32Run (crc32Zeros (16 * (i - pos)) c) (natLe 16 e.toNat))

/-- NIs of a die. -/
def niCount (d : Nat) : Nat := if d = 6 then 48 else if d < 6 then 32 else 1

/-- CRC-32 of a die's shadow tables, in the order of R85. -/
def State.shareCrc (s : State) (d : Nat) : W32 :=
  let tables := (List.range (niCount d)).flatMap (fun n => [0, 1, 3, 4, 5, 6, 7, 8].map (fun t => (n, t)))
  tables.foldl (fun c (n, t) =>
    let size := tselSize d n t
    if size = 0 then c else tableCrc size 0 (s.psTable s.shBank d n t) c) 0xFFFFFFFF#32 ^^^ 0xFFFFFFFF#32

/-- Listed entries of a die's shadow share in the order of R85: NI, table, index, entry. -/
def State.shareEntries (s : State) (d : Nat) : List (Nat × Nat × Nat × BitVec 128) :=
  (s.pat.store.filter (fun e => e.1 / (8192 * 16 * 64) == s.shBank * 8 + d && e.1 / 8192 % 16 != 2 && e.1 / 8192 % 16 != 9)).map
    (fun e => (e.1 / (8192 * 16) % 64, e.1 / 8192 % 16, e.1 % 8192, e.2))

/-- Check 0x2: `NHOP`, `ORDER` and the reserved fields of an entry (R80, R82, R86). -/
def entryFormOk (tsel : Nat) (e : BitVec 128) : Bool :=
  if tsel = 0 then
    ew e 1 20 16 ≤ 20 && ew e 3 29 27 < 6 && ew e 1 31 23 == 0 && ew e 3 31 30 == 0
  else if tsel = 1 then
    ew e 0 31 31 == 0 && ew e 1 31 24 == 0 && ew e 2 31 0 == 0 && ew e 3 31 0 == 0
  else
    ew e 0 31 29 == 0 && ew e 1 28 24 ≤ 20 && ew e 1 31 31 == 0 && ew e 3 31 8 == 0

/-- Hop code i of an entry (R80): codes 0 to 15 in word 2, 16 to 19 in word 3. -/
def entryHop (e : BitVec 128) (i : Nat) : Nat :=
  if i < 16 then ew e 2 (2 * i + 1) (2 * i) else ew e 3 (2 * (i - 16) + 1) (2 * (i - 16))

/-- Dimension order of an `ORDER` code, 0 X, 1 Y, 2 Z (R78). Codes 6 and 7, which a commit refuses and a route entry's check does not
use, act as 5 in a header that arrives with one (DESIGN CHOICE, unsafe, log entry 130). -/
def dimOrder (o : Nat) : List Nat :=
  match o with
  | 0 => [0, 1, 2]
  | 1 => [0, 2, 1]
  | 2 => [1, 0, 2]
  | 3 => [1, 2, 0]
  | 4 => [2, 0, 1]
  | _ => [2, 1, 0]

/-- Torus port of the first move of a device route: the first nonzero count in the order (R78). -/
def firstMove (dx dy dz : Int) (order : Nat) : Option Nat :=
  ((dimOrder order).filterMap (fun k =>
    let c := if k = 0 then dx else if k = 1 then dy else dz
    if c = 0 then none else some (2 * k + (if 0 < c then 0 else 1)))).head?

/-- A trace of an entry: the outputs it takes at the routers it passes, or the code of the check it fails. -/
inductive Trace where
  | ok (outs : List (Nat × Nat))
  | bad (err : Nat)
  deriving DecidableEq, Repr

/-- End of a route at the router (r, c) of die d: the output its `EXIT` names and checks 0x3 to 0x5. -/
def traceExit (d tsel : Nat) (e : BitVec 128) (exit n : Nat) (outs : List (Nat × Nat)) : Trace :=
  let move := firstMove (sint 7 (ew e 3 14 8)) (sint 6 (ew e 3 20 15)) (sint 6 (ew e 3 26 21)) (ew e 3 29 27)
  match exit with
  | 0 =>
    if tsel = 0 ∧ ¬ (ew e 1 8 6 = d ∧ ew e 1 5 0 = n) then .bad 5 else .ok (outs ++ [(n, 4)])
  | 1 =>
    match (if d = 6 then sidePortOf n else none) with
    | none => .bad 4
    | some p => if tsel = 0 ∧ move ≠ some p then .bad 4 else .ok (outs ++ [(n, 5)])
  | 2 => if d = 6 ∧ n = 0 then .ok (outs ++ [(n, 5)]) else .bad 4
  | _ => .bad 3

/-- Follow an entry's hop codes from router n of die d (R85, second pass). -/
def traceHops (d tsel : Nat) (e : BitVec 128) (exit : Nat) : List Nat → Nat → List (Nat × Nat) → Trace
  | [], n, outs => traceExit d tsel e exit n outs
  | h :: r, n, outs =>
    let outs := outs ++ [(n, h)]
    let (row, col) := rcOf d n
    match (hopFrom row col h).1 with
    | .router d' n' _ none => if d' = d then traceHops d tsel e exit r n' outs else .bad 3
    | _ => if r = [] ∧ exit = 3 then .ok outs else .bad 3

/-- Trace one entry with `V` = 1 (R85, R86); arrival entries and wrap-stage entries pass no router. -/
def traceEntry (d n tsel : Nat) (e : BitVec 128) : Trace :=
  let nhop := if tsel = 0 then ew e 1 20 16 else ew e 1 28 24
  let exit := if tsel = 0 then ew e 1 22 21 else ew e 1 30 29
  if tsel = 1 then .ok []
  else if tsel = 8 then (if nhop = 0 ∧ exit = 3 then .ok [] else .bad 3)
  else traceHops d tsel e exit ((List.range nhop).map (entryHop e)) n []

/-- Flow ID and use bit of an entry. -/
def entryFlow (tsel : Nat) (e : BitVec 128) : Nat := if tsel = 0 then ew e 0 31 20 else ew e 0 27 16
@[inherit_doc entryFlow]
def entryV (tsel : Nat) (e : BitVec 128) : Bool := if tsel = 0 then ew e 1 11 11 == 1 else ew e 0 28 28 == 1

/-- Write a traced entry's outputs into the shadow flow tables, unless one differs from what the flow already has there, or the
entry's own route gives one router two outputs (check 0x6). -/
def State.writeOuts (s : State) (d flow : Nat) (outs : List (Nat × Nat)) : Option State :=
  let twice := outs.any (fun o => outs.any (fun o' => o.1 == o'.1 && o.2 != o'.2))
  if !twice && outs.all (fun o => let v := (s.ps s.shBank d o.1 2 flow).toNat; v == 7 || v == o.2) then
    some (outs.foldl (fun t o => t.setPs t.shBank d o.1 2 flow (BitVec.ofNat 128 o.2)) s)
  else none

/-- The second pass: entry by entry, stopping at the first that fails; the state, and the code with the failing entry. -/
def State.secondPass (d : Nat) : List (Nat × Nat × Nat × BitVec 128) → State → State × Option (Nat × Nat × Nat × Nat)
  | [], s => (s, none)
  | (n, tsel, i, e) :: r, s =>
    if !entryV tsel e then State.secondPass d r s
    else
      match traceEntry d n tsel e with
      | .bad c => (s, some (c, n, tsel, i))
      | .ok outs =>
        match s.writeOuts d (entryFlow tsel e) outs with
        | none => (s, some (6, n, tsel, i))
        | some t => State.secondPass d r t

/-- Remove a die's shadow flow tables: every entry reads no route (R85). -/
def State.clearFlows (s : State) (d : Nat) : State :=
  { s with pat := { s.pat with store := tkeep (fun k => !(k / (8192 * 16 * 64) == s.shBank * 8 + d && k / 8192 % 16 == 2)) s.pat.store } }

/-- A write of `PS_COMMIT_d` (R85). -/
def commitWrite (d : Nat) (crc : W32) (s : State) : Answer :=
  if s.shadowLocked || s.committing d then refuse s
  else
    let t := { s with pat := { s.pat with commits := s.pat.commits ++ [(⟨d, crc, s.now⟩ : Commit)] } }
    wrote ((t.setReg (aPS_CSTAT d) 0x80000000#32).setOk t.shBank d false)

/-- `PS_COMMIT_d` written by master m. -/
def execCommitStart (m : Rm) (d : Fin 7) (crc : W32) (s : State) : Host.Outcome State Fault Refusal :=
  .next (ringPut m (aPS_COMMIT d.val) crc (commitWrite d.val crc) s)

/-- What a commit leaves: the checks of both passes and the flow tables (R85, R86). -/
def State.endCommit (s : State) (d : Nat) (crc : W32) : State :=
  let cstat (err n tsel i : Nat) : W32 := BitVec.ofNat 32 (err <<< 26 + n <<< 20 + tsel <<< 16 + i)
  let es := s.shareEntries d
  let s := { s with pat := { s.pat with commits := s.pat.commits.filter (fun c => c.die != d) } }
  if s.shareCrc d ≠ crc then s.setReg (aPS_CSTAT d) (cstat 1 0 0 0)
  else
    match es.find? (fun x => !entryFormOk x.2.1 x.2.2.2) with
    | some (n, t, i, _) => s.setReg (aPS_CSTAT d) (cstat 2 n t i)
    | none =>
      match State.secondPass d es (s.clearFlows d) with
      | (t, some (c, n, tsel, i)) => t.setReg (aPS_CSTAT d) (cstat c n tsel i)
      | (t, none) => (t.setReg (aPS_CSTAT d) 0x40000000#32).setOk t.shBank d true

/-- The commit of die d ends (R85). -/
def execCommitEnd (d : Fin 7) (s : State) : Host.Outcome State Fault Refusal :=
  match s.pat.commits.find? (fun c => c.die == d.val) with
  | some c => if s.runs then .next (s.endCommit d.val c.crc) else .next s
  | none => .next s

/-- A reset of the die or a clock-loss stop abandons a busy commit with `ERR` 0x7 (R85). -/
def State.abandonCommit (s : State) (d : Nat) : State :=
  if s.committing d then
    let t := { s with pat := { s.pat with commits := s.pat.commits.filter (fun c => c.die != d) } }
    (t.setReg (aPS_CSTAT d) (BitVec.ofNat 32 (7 <<< 26))).setOk t.shBank d false
  else s

end Sys2Proof.Machine
end

