-- ==== Sys2Proof/Machine/Operands.lean ====
section
/-! DEFINITION. The formats that cross a router port (R87 to R91), the local address classes and the best-effort route tables
(R16 to R20, R92 to R95). -/

namespace Sys2Proof.Machine

/-! ### Header fields (R89) -/

/-- Bits `[hi:lo]` of header word w. -/
def hget (h : BitVec 256) (w hi lo : Nat) : Nat := bitsOf (h.toNat >>> (32 * w)) hi lo
/-- A header with bits `[hi:lo]` of word w replaced. -/
def hset (h : BitVec 256) (w hi lo v : Nat) : BitVec 256 :=
  let mask := (2 ^ (hi + 1 - lo) - 1) <<< (32 * w + lo)
  (h &&& ~~~(BitVec.ofNat 256 mask)) ||| BitVec.ofNat 256 ((v % 2 ^ (hi + 1 - lo)) <<< (32 * w + lo))

/-- Packet type. -/
def hType (h : BitVec 256) : Nat := hget h 0 3 0
/-- Priority. -/
def hPri (h : BitVec 256) : Nat := hget h 0 5 4
/-- Data flits that follow. -/
def hNdata (h : BitVec 256) : Nat := hget h 0 9 6
/-- Tag. -/
def hTag (h : BitVec 256) : Nat := hget h 0 31 22
/-- The 64-bit address of words 4 and 5. -/
def hAddr (h : BitVec 256) : Nat := hget h 4 31 0 + 4294967296 * hget h 5 31 0
/-- First byte within the line. -/
def hStart (h : BitVec 256) : Nat := hget h 6 7 0
/-- Byte count. -/
def hCount (h : BitVec 256) : Nat := hget h 6 16 8
/-- `SPILL`. -/
def hSpill (h : BitVec 256) : Bool := hget h 6 21 21 == 1
/-- Virtual channel of a packet: 0 request, 1 response (R90). -/
def hVc (h : BitVec 256) : Nat := if hType h = 2 ∨ hType h = 3 then 1 else 0
/-- Flits that cover `count` bytes from `start` in a line (R89). -/
def coverFlits (start count : Nat) : Nat := if count = 0 then 0 else (start + count - 1) / 32 + 1 - start / 32

/-- The header's `TYPE` and `NDATA` agree with the table of R90. -/
def hFormOk (h : BitVec 256) : Bool :=
  let cover := coverFlits (hStart h) (hCount h)
  match hType h with
  | 0 => hNdata h == 0
  | 1 => hNdata h == cover
  | 2 => hNdata h == (if hget h 6 19 17 = 0 then cover else 0)
  | 3 => hNdata h == 0
  | 4 => hNdata h == 0
  | _ => false

/-- The 40-bit hop field of a header. -/
def hHops (h : BitVec 256) : Nat := hget h 7 31 0 + 4294967296 * hget h 6 29 22
/-- A header with its hop field replaced. -/
def hSetHops (h : BitVec 256) (v : Nat) : BitVec 256 := hset (hset h 7 31 0 v) 6 29 22 (v / 4294967296)
/-- A header after one hop: the field shifted down by one code, `NHOP` one less (R89). -/
def hShift (h : BitVec 256) : BitVec 256 := hset (hSetHops h (hHops h / 4)) 3 26 22 (hget h 3 26 22 - 1)

/-- Remaining device route of a header, signed (R78). -/
def hDx (h : BitVec 256) : Int := sint 7 (hget h 3 6 0)
@[inherit_doc hDx]
def hDy (h : BitVec 256) : Int := sint 6 (hget h 3 12 7)
@[inherit_doc hDx]
def hDz (h : BitVec 256) : Int := sint 6 (hget h 3 18 13)
/-- A header with its device route replaced. -/
def hSetRoute (h : BitVec 256) (dx dy dz : Int) (order : Nat) : BitVec 256 :=
  hset (hset (hset (hset h 3 6 0 (ofInt 7 dx)) 3 12 7 (ofInt 6 dy)) 3 18 13 (ofInt 6 dz)) 3 21 19 order
/-- One step toward zero. -/
def stepZero (c : Int) : Int := if c = 0 then 0 else if 0 < c then c - 1 else c + 1
/-- The header as port p sends it: its dimension's count one step nearer zero (R78). -/
def hSent (h : BitVec 256) (p : Nat) : BitVec 256 :=
  hSetRoute h (if p / 2 = 0 then stepZero (hDx h) else hDx h) (if p / 2 = 1 then stepZero (hDy h) else hDy h)
    (if p / 2 = 2 then stepZero (hDz h) else hDz h) (hget h 3 21 19)

/-! ### Local addresses (R17) -/

/-- Class of a local address (chapter 01, the local map). -/
inductive AddrClass where
  | dram | qdr | banks
  | window (die : Nat)
  | bridge
  | control
  | hole
  deriving DecidableEq, Repr

/-- The class a 48-bit local address falls in (R17 to R20). -/
def classOf (a : Nat) : AddrClass :=
  if a < 0x100000000000 then .dram
  else if 0x100000000000 ≤ a ∧ a ≤ 0x100007FFFFFF then .qdr
  else if 0x200000000000 ≤ a ∧ a ≤ 0x200000FFFFFF then .banks
  else if 0x300 ≤ a / 0x1000000000 ∧ a / 0x1000000000 ≤ 0x305 then .window (a / 0x1000000000 - 0x300)
  else if 0x7E0000000000 ≤ a ∧ a ≤ 0x7E000000FFFF then .bridge
  else if 0x7F0000000000 ≤ a ∧ a ≤ 0x7F07FFFFFFFF then .control
  else .hole

/-- DRAM set of a local address (R287). -/
def dramSet (a : Nat) : Nat := bitsOf a 9 8 ^^^ bitsOf a 21 20
/-- QDR pair of a local address (R273). -/
def qdrPair (a : Nat) : Nat := bitsOf a 11 10

/-- Route-table index of a request's local address; none where the address belongs to no class (R92). -/
def routeIndex (a : Nat) (event : Bool) : Option Nat :=
  match classOf a with
  | .dram => some (16 * dramSet a + bitsOf a 11 8)
  | .qdr => some (64 + 4 * qdrPair a + bitsOf a 9 8)
  | .banks => some (80 + bitsOf a 23 18)
  | .window d => some (144 + 32 * d + bitsOf a 35 31)
  | .bridge => if event then some 577 else none
  | _ => none

/-- Route-table index of a response to a requester on this device (R92). -/
def responseIndex (srcDie srcNi : Nat) : Nat :=
  if srcDie = 7 then 576 else 336 + 24 * (rcOf srcDie srcNi).1 + (rcOf srcDie srcNi).2

/-- Route-table index for another device (R92). -/
def remoteIndex (dev : Nat) : Nat := 768 + bitsOf dev 15 13 * 32 + bitsOf dev 9 7 * 4 + bitsOf dev 4 3

/-! ### Route entries (R93 to R95) -/

/-- The device ID in force: that of `DEVICE_ID` from the ring cycle after its last write on (R26). -/
def State.devId (s : State) : Nat :=
  if s.ringCycle < s.clk.idFrom then s.clk.idOld.toNat else s.fld aDEVICE_ID fDEVICE_ID_ID

/-- A route entry that the NI may use (R94). -/
def routeUsable (e : BitVec 128) : Bool := ew e 0 9 9 == 1 && ew e 0 22 21 != 3 && ew e 0 20 16 ≤ 20

/-- NI whose route table a requester on die d uses: the endpoint of A uses hub NI 0's (R346). -/
def routeNi (d n : Nat) : Nat × Nat := if d = 7 then (6, 0) else (d, n)

/-- Entry of the route table that NI n of die d uses. -/
def State.routeEntry (s : State) (d n idx : Nat) : BitVec 128 := s.ps 0 (routeNi d n).1 (routeNi d n).2 9 idx

/-- A header with the on-chip route of an entry filled in (R93). -/
def hRoute (h : BitVec 256) (e : BitVec 128) (setDst : Bool) : BitVec 256 :=
  let h := if setDst then hset (hset h 2 21 16 (ew e 0 5 0)) 2 24 22 (ew e 0 8 6) else h
  let h := hset (hset h 3 26 22 (ew e 0 20 16)) 3 28 27 (ew e 0 22 21)
  hSetHops h (ew e 1 31 0 + 4294967296 * ew e 2 7 0)

/-- Torus sizes SX, SY, SZ (R176). -/
def State.torusSize (s : State) : Nat × Nat × Nat :=
  (s.fld aTORUS_SIZE fTORUS_SIZE_SX + 1, s.fld aTORUS_SIZE fTORUS_SIZE_SY + 1, s.fld aTORUS_SIZE fTORUS_SIZE_SZ + 1)
/-- Coordinates of a device ID (chapter 01). -/
def coords (dev : Nat) : Nat × Nat × Nat := (bitsOf dev 15 10, bitsOf dev 9 5, bitsOf dev 4 0)
/-- The device ID has every coordinate below its size (R176). -/
def State.idInTorus (s : State) (dev : Nat) : Bool :=
  let (x, y, z) := coords dev
  let (sx, sy, sz) := s.torusSize
  x < sx && y < sy && z < sz

/-- Count of one dimension: (d - s) mod size, or minus (s - d) mod size the negative way (R95). -/
def dimCount (d s size : Nat) (neg : Bool) : Int :=
  if neg then -(((s + size - d % size) % size : Nat) : Int) else (((d + size - s % size) % size : Nat) : Int)

/-- Router that an entry's hop codes end at, from router n of die d; none where a code leaves the grid's links. -/
def pathEnd : List Nat → Nat → Nat → Nat × Nat
  | [], d, n => (d, n)
  | h :: r, d, n =>
    let (row, col) := rcOf d n
    match (hopFrom row col h).1 with
    | .router d' n' _ _ => pathEnd r d' n'
    | .stage line up _ =>
      match (stageExit line up).1 with
      | .router d' n' _ _ => pathEnd r d' n'
      | _ => (d, n)
    | _ => (d, n)

/-- Hop codes of a route entry. -/
def routeHops (e : BitVec 128) : List Nat :=
  (List.range (ew e 0 20 16)).map (fun i =>
    if i < 16 then ew e 1 (2 * i + 1) (2 * i) else ew e 2 (2 * (i - 16) + 1) (2 * (i - 16)))

/-- The router at which packets of NI n on die d enter the grid: the A stage's is hub router 0. -/
def entryRouter (d n : Nat) : Nat × Nat := if d = 7 then (6, 0) else (d, n)

/-- How an NI routes a packet. -/
inductive Route where
  | to (hdr : BitVec 256)
  /-- answered locally with bus error; the flag of `NI_ERR` to set -/
  | err (flag : Option Fld)
  deriving DecidableEq, Repr

/-- Route toward another device: the counts, and the check that the path ends at the port of the first move (R95). -/
def State.routeRemote (s : State) (d n : Nat) (h : BitVec 256) (dev : Nat) : Route :=
  let e := s.routeEntry d n (remoteIndex dev)
  if !routeUsable e || decide (6 ≤ ew e 0 12 10) then .err (some fNI_ERR_ROUTE_MISS)
  else if !s.idInTorus dev then .err none
  else
    let (dx, dy, dz) := coords dev
    let (x, y, z) := coords s.devId
    let (sx, sy, sz) := s.torusSize
    let neg := ew e 0 15 13
    let order := ew e 0 12 10
    let cx := dimCount dx x sx (neg.testBit 0)
    let cy := dimCount dy y sy (neg.testBit 1)
    let cz := dimCount dz z sz (neg.testBit 2)
    let last := pathEnd (routeHops e) (entryRouter d n).1 (entryRouter d n).2
    let port := if last.1 = 6 then sidePortOf last.2 else none
    if firstMove cx cy cz order = none ∨ port ≠ firstMove cx cy cz order ∨ ew e 0 22 21 ≠ 1 then
      .err (some fNI_ERR_PORT_MISMATCH)
    else .to (hSetRoute (hRoute h e false) cx cy cz order)

/-- Route a packet for this device by a table index (R92 to R94). An entry that exits at a torus port is not used, since such a packet
never enters one (R16; DESIGN CHOICE of the flag, unsafe, log entry 126). -/
def State.routeLocal (s : State) (d n : Nat) (h : BitVec 256) (idx : Nat) : Route :=
  let e := s.routeEntry d n idx
  if routeUsable e && ew e 0 22 21 != 1 then .to (hSetRoute (hRoute h e true) 0 0 0 0) else .err (some fNI_ERR_ROUTE_MISS)

/-- Route of a request header from an NI (R16, R20, R92 to R95). -/
def State.routeRequest (s : State) (d n : Nat) (h : BitVec 256) : Route :=
  let dev := hAddr h / 2 ^ 48
  let a := hAddr h % 2 ^ 48
  if dev ≠ s.devId then s.routeRemote d n h dev
  else if classOf a = .control then .err (some fNI_ERR_CTRL_SPACE)
  else
    match routeIndex a (hType h == 4) with
    | none => .err none
    | some i => s.routeLocal d n h i

/-- Route of a response header from an NI toward the requester that its `DST` fields name (R92). -/
def State.routeResponse (s : State) (d n : Nat) (h : BitVec 256) : Route :=
  let dev := hget h 2 15 0
  if dev ≠ s.devId then s.routeRemote d n h dev
  else s.routeLocal d n h (responseIndex (hget h 2 24 22) (hget h 2 21 16))

end Sys2Proof.Machine
end

