-- ==== Sys2Proof/Machine/Places.lean ====
section
/-! DEFINITION. Places of the logic fabric: columns and strips (R186), the places of the hardened interfaces (R187), reconfigurable
regions as the registers hold them (R205, R208), and how far a die's start-up has come (R222). -/

namespace Sys2Proof.Machine

/-! ### Regions -/

/-- Region n of die d is valid. -/
def State.rgnValid (s : State) (d n : Nat) : Bool := s.bit (aBR_RGN d n) fBR_RGN_V
/-- Region n of die d holds a column and row block. -/
def State.rgnHas (s : State) (d n col rb : Nat) : Bool :=
  let w := s.reg (aBR_RGN d n)
  getB w fBR_RGN_V && decide (getF w fBR_RGN_COL_FIRST ≤ col) && decide (col ≤ getF w fBR_RGN_COL_LAST) &&
    decide (getF w fBR_RGN_RB_FIRST ≤ rb) && decide (rb ≤ getF w fBR_RGN_RB_LAST)
/-- `PENDING` and `HOLD` of a region. -/
def State.rgnPending (s : State) (d n : Nat) : Bool := s.bit (aBR_STAT d) ⟨16 + n, 1⟩
@[inherit_doc State.rgnPending]
def State.rgnHeld (s : State) (d n : Nat) : Bool := s.bit (aBR_STAT d) ⟨n, 1⟩
/-- The record of a region's hold. -/
def State.hold (s : State) (d n : Nat) : RegionHold :=
  tget (fun _ => { since := 0, asked := false, relAt := none, gated := false }) s.cfg.holds (16 * d + n)
/-- Set the record of a region's hold. -/
def State.setHold (s : State) (d n : Nat) (x : RegionHold) : State :=
  { s with cfg := { s.cfg with
      holds := tput (fun _ => { since := 0, asked := false, relAt := none, gated := false }) s.cfg.holds (16 * d + n) x } }

/-- The leaving border cells of a region hold: from H to E + 16 (R205). -/
def State.rgnHolds (s : State) (d n : Nat) : Bool :=
  (s.rgnPending d n || s.rgnHeld d n) && (match (s.hold d n).relAt with
    | some e => decide (s.now < e + 16)
    | none => true)
/-- The flip-flops of a region hold `INIT`: from E until its clock gate opens (R189, R205). -/
def State.rgnInit (s : State) (d n : Nat) : Bool := s.rgnHeld d n && (s.hold d n).relAt.isSome && (s.hold d n).gated

/-! ### Columns and places (R186, R187) -/

/-- Type of a column of a logic die. -/
inductive ColType where
  | io | memory | mac | logic
  deriving DecidableEq, Repr
/-- Type of a column, 0 to 481 (R186). -/
def colType (col : Nat) : ColType :=
  if col = 0 ∨ 481 ≤ col then .io
  else match (col - 1) % 60 % 12 with
    | 5 => .memory
    | 11 => .mac
    | _ => .logic

/-- A place of an interface: columns and row blocks, first and last. -/
structure Place where
  colLo : Nat
  colHi : Nat
  rbLo : Nat
  rbHi : Nat
  deriving DecidableEq, Repr
/-- Row blocks of a strip. -/
def stripPlace (c rbLo rbHi : Nat) : Place := { colLo := 1 + 60 * c, colHi := 60 + 60 * c, rbLo := rbLo, rbHi := rbHi }
/-- The fabric-facing port of NI i of a logic die, at die router row i div 8 and column i mod 8. -/
def niPlace (i : Nat) : Place :=
  { colLo := 31 + 60 * (i % 8), colHi := 31 + 60 * (i % 8), rbLo := 4 * (i / 8) + 2, rbHi := 4 * (i / 8) + 2 }
/-- Fabric crossing module m with the west neighbour, or with the east. -/
def xcPlace (east : Bool) (m : Nat) : Place := stripPlace (if east then 7 else 0) (4 * m) (4 * m + 3)
/-- The signals of general lane quad q. -/
def glPlace (q : Nat) : Place := stripPlace (2 * q + 1) 15 15
/-- `USER_EVT`. -/
def evtPlace : Place := stripPlace 3 0 0

/-- Region n of die d reaches into a place: a border cell stands between the two (R187; DESIGN CHOICE where the region covers only part
of the place, unsafe, log entry 148). -/
def State.rgnReaches (s : State) (d n : Nat) (p : Place) : Bool :=
  let w := s.reg (aBR_RGN d n)
  getB w fBR_RGN_V && decide (getF w fBR_RGN_COL_FIRST ≤ p.colHi) && decide (p.colLo ≤ getF w fBR_RGN_COL_LAST) &&
    decide (getF w fBR_RGN_RB_FIRST ≤ p.rbHi) && decide (p.rbLo ≤ getF w fBR_RGN_RB_LAST)
/-- The signals of a place stand still: a region that reaches into it holds (R205, R207). -/
def State.placeHeld (s : State) (d : Nat) (p : Place) : Bool :=
  decide (d < 6) && (List.range 16).any (fun n => s.rgnHolds d n && s.rgnReaches d n p)
/-- The fabric-facing port of NI i of a logic die lies in region n (R187). -/
def State.rgnNi (s : State) (d n i : Nat) : Bool := s.rgnReaches d n (niPlace i)
/-- NIs whose port lies in a region. -/
def State.rgnNis (s : State) (d n : Nat) : List Nat := (List.range 32).filter (fun i => s.rgnNi d n i)

/-! ### Start-up (R222) -/

/-- State of a die: 0 unconfigured, 1 loading, 2 starting, 3 running. -/
def State.dieState (s : State) (d : Nat) : Nat := s.fld aCFG_DIES ⟨2 * d, 2⟩
/-- Rows of R222 that a starting die has passed. -/
def State.dieStage (s : State) (d : Nat) : Nat := tget (fun _ => 0) s.cfg.stage d
/-- The die's NI ports take fabric values: from T + 192 on (R222). -/
def State.portsUp (s : State) (d : Nat) : Bool :=
  s.dieState d == 3 || (s.dieState d == 2 && decide (6 ≤ s.dieStage d))

/-- A die's global lines run: from T + 64 on (R195, R222). -/
def State.linesUp (s : State) (d : Nat) : Bool := s.dieState d == 3 || (s.dieState d == 2 && decide (4 ≤ s.dieStage d))
/-- A die's flip-flops are released: from T + 128 on; before that each holds `INIT` (R189, R222). -/
def State.ffsUp (s : State) (d : Nat) : Bool := s.dieState d == 3 || (s.dieState d == 2 && decide (5 ≤ s.dieStage d))
/-- A die's user outputs drive as configured: from T + 256 on (R222). -/
def State.outsUp (s : State) (d : Nat) : Bool := s.dieState d == 3 || (s.dieState d == 2 && decide (7 ≤ s.dieStage d))
/-- A die's inputs and pulls are as configured: from T + 16 on (R222). -/
def State.pullsUp (s : State) (d : Nat) : Bool := s.dieState d == 3 || (s.dieState d == 2 && decide (2 ≤ s.dieStage d))

end Sys2Proof.Machine
end

