-- ==== Sys2Proof/Machine/Codes.lean ====
section
/-! DEFINITION. The codes over stored data: the keyed mix and its tag (R309, R310), the Reed–Solomon code of a DRAM line (R302,
R303) and the SEC-DED code of a QDR word (R305). -/

namespace Sys2Proof.Machine

/-! ### The keyed mix -/

/-- Four words, as the mix assigns them together. -/
structure Quad where
  x0 : W32
  x1 : W32
  x2 : W32
  x3 : W32
  deriving DecidableEq, Repr

/-- Word i of a block. -/
def Quad.at (q : Quad) (i : Nat) : W32 :=
  match i % 4 with
  | 0 => q.x0
  | 1 => q.x1
  | 2 => q.x2
  | _ => q.x3

/-- The four words of a 128-bit block, low word first. -/
def quadOf (b : BitVec 128) : Quad :=
  { x0 := b.extractLsb' 0 32, x1 := b.extractLsb' 32 32, x2 := b.extractLsb' 64 32, x3 := b.extractLsb' 96 32 }
/-- A block from its four words. -/
def Quad.block (q : Quad) : BitVec 128 := q.x3 ++ q.x2 ++ q.x1 ++ q.x0

/-- Round constants rc[0] to rc[5]. -/
def mixRc (r : Nat) : W32 :=
  match r with
  | 0 => 0x3A5C96E1#32
  | 1 => 0x71D40B2F#32
  | 2 => 0xC5E824A3#32
  | 3 => 0x0F93BD57#32
  | 4 => 0x9B26E16C#32
  | _ => 0x64F17A08#32

/-- Round key rk[r][i] (R309); `t` holds t0, t1, t2 in its first three words. -/
def roundKey (k t : Quad) (r i : Nat) : W32 :=
  k.at (i + r) + (t.at ((i + r) % 3) ^^^ mixRc r).rotateLeft (8 * i + r)

/-- One round of the mix. -/
def mixRound (k t : Quad) (x : Quad) (r : Nat) : Quad :=
  let x0 := x.x0 + (x.x1 ^^^ roundKey k t r 0)
  let x1 := x.x1.rotateLeft 9 ^^^ x0
  let x2 := x.x2 + (x.x3 ^^^ roundKey k t r 1)
  let x3 := x.x3.rotateLeft 13 ^^^ x2
  { x0 := x1, x1 := x2 ^^^ roundKey k t r 3, x2 := x3, x3 := x0 ^^^ roundKey k t r 2 }
/-- One round of the inverse. -/
def unmixRound (k t : Quad) (y : Quad) (r : Nat) : Quad :=
  let x0 := y.x3 ^^^ roundKey k t r 2
  let x1 := y.x0
  let x2 := y.x1 ^^^ roundKey k t r 3
  let x3 := y.x2
  let x3 := (x3 ^^^ x2).rotateLeft 19
  let x2 := x2 - (x3 ^^^ roundKey k t r 1)
  let x1 := (x1 ^^^ x0).rotateLeft 23
  { x0 := x0 - (x1 ^^^ roundKey k t r 0), x1 := x1, x2 := x2, x3 := x3 }
/-- The mix of a block under a key and a tweak (R309). -/
def mixBlock (k t x : Quad) : Quad := [0, 1, 2, 3, 4, 5].foldl (mixRound k t) x
/-- The inverse of the mix. -/
def unmixBlock (k t y : Quad) : Quad := [5, 4, 3, 2, 1, 0].foldl (unmixRound k t) y

/-- Tweak of block b of a DRAM line (R309). -/
def lineTweak (line b : Nat) (ctr : W64) : Quad :=
  { x0 := BitVec.ofNat 32 (line * 16 + b), x1 := ctr.extractLsb' 0 32, x2 := ctr.extractLsb' 32 32, x3 := 0 }
/-- The 128-bit blocks of a byte list of whole blocks. -/
def blocksOf (n : Nat) (bs : List Byte) : List Quad :=
  (List.range n).map (fun b => quadOf (BitVec.ofNat 128 (leNat ((bs.drop (16 * b)).take 16))))
/-- The bytes of blocks. -/
def blockBytes (bl : List Quad) : List Byte := bl.flatMap (fun q => natLe 16 q.block.toNat)
/-- A line mixed block by block. -/
def mixLine (k : Quad) (line : Nat) (ctr : W64) (bs : List Byte) : List Byte :=
  blockBytes ((blocksOf 16 bs).zipIdx.map (fun x => mixBlock k (lineTweak line x.2 ctr) x.1))
/-- A line unmixed block by block. -/
def unmixLine (k : Quad) (line : Nat) (ctr : W64) (bs : List Byte) : List Byte :=
  blockBytes ((blocksOf 16 bs).zipIdx.map (fun x => unmixBlock k (lineTweak line x.2 ctr) x.1))
/-- Tag of a mixed line (R310). -/
def lineTag (k : Quad) (line : Nat) (ctr : W64) (bs : List Byte) : W32 :=
  let zero : Quad := { x0 := 0, x1 := 0, x2 := 0, x3 := 0 }
  let a := (blocksOf 16 bs).foldl (fun a y =>
    { x0 := a.x0.rotateLeft 3 ^^^ y.x0, x1 := a.x1.rotateLeft 3 ^^^ y.x1
      x2 := a.x2.rotateLeft 3 ^^^ y.x2, x3 := a.x3.rotateLeft 3 ^^^ y.x3 }) zero
  let t := lineTweak line 15 ctr
  (mixBlock k { t with x1 := ~~~t.x1 } a).x0

/-- Tweak of block b of a flit sent by port p of device `dev` on send tick s (R318). -/
def linkTweak (dev p sendTick b : Nat) : Quad :=
  let q : W64 := BitVec.ofNat 64 (sendTick / 2)
  { x0 := BitVec.ofNat 32 (dev * 65536 + p * 16 + b), x1 := q.extractLsb' 0 32, x2 := q.extractLsb' 32 32, x3 := 0 }
/-- A flit mixed, or unmixed, for a torus link (R318). -/
def linkMix (undo : Bool) (k : Quad) (dev p sendTick : Nat) (f : BitVec 256) : BitVec 256 :=
  let go (b : Nat) : BitVec 128 :=
    let x := quadOf (f.extractLsb' (128 * b) 128)
    let t := linkTweak dev p sendTick b
    (if undo then unmixBlock k t x else mixBlock k t x).block
  go 1 ++ go 0

/-! ### The Reed–Solomon code of a DRAM line -/

/-- Multiplication by α = 0x02 in the field (R302). -/
def gfX (a : Byte) : Byte := if a.getLsbD 7 then (a <<< 1) ^^^ 0x1D#8 else a <<< 1
/-- Multiplication by α^n. -/
def gfPow (n : Nat) (a : Byte) : Byte := n.repeat gfX a
/-- Check symbols r0 and r1 of eight data symbols (R302): m(x)·x² mod g(x), by Horner's rule from the highest symbol. -/
def rsChecks (data : List Byte) : Byte × Byte :=
  data.reverse.foldl (fun (r : Byte × Byte) d =>
    let t := r.2 ^^^ d
    (gfX t, r.1 ^^^ gfX t ^^^ t)) (0#8, 0#8)
/-- The ten symbols of codeword j, by polynomial position: r0, r1, then data (R302). `line` holds 256 bytes, `chk` 64 check
bytes: r0 and r1 of codeword j at 2j and 2j + 1. -/
def rsWord (line chk : List Byte) (j : Nat) : List Byte :=
  [chk.getD (2 * j) 0, chk.getD (2 * j + 1) 0] ++
    (List.range 8).map (fun p => line.getD (16 * (j / 2) + 2 * p + j % 2) 0)
/-- Device position of polynomial position i (R302). -/
def rsDevice (i : Nat) : Nat := if i < 2 then 8 + i else i - 2
/-- Polynomial position of device position j. -/
def rsPlace (j : Nat) : Nat := if j < 8 then j + 2 else j - 8
/-- Syndromes S0 and S1 of a received codeword (R303). -/
def rsSyndromes (w : List Byte) : Byte × Byte :=
  (w.foldl (· ^^^ ·) 0#8, w.reverse.foldl (fun a d => gfX a ^^^ d) 0#8)
/-- What a codeword decodes to (R303): the symbols, the device corrected if any; none where it is uncorrectable. -/
def rsDecode (w : List Byte) (erased : Option Nat) : Option (List Byte × Option Nat) :=
  let (s0, s1) := rsSyndromes w
  if s0 = 0 ∧ s1 = 0 then some (w, none)
  else if s0 = 0 ∨ s1 = 0 then none
  else
    match (List.range 10).find? (fun i => gfPow i s0 == s1) with
    | none => none
    | some i =>
      if erased = none ∨ erased = some (rsDevice i) then
        some (w.set i (w.getD i 0 ^^^ s0), some (rsDevice i))
      else none
/-- The 64 check bytes of a line. -/
def rsEncode (line : List Byte) : List Byte :=
  (List.range 32).flatMap (fun j =>
    let (r0, r1) := rsChecks ((rsWord line [] j).drop 2)
    [r0, r1])
/-- A line read back (R303): its bytes with the devices corrected, one for each corrected symbol, and whether some codeword
is uncorrectable. -/
def rsLine (line chk : List Byte) (erased : Option Nat) : List Byte × List Nat × Bool :=
  (List.range 32).foldl (fun (a : List Byte × List Nat × Bool) j =>
    match rsDecode (rsWord line chk j) erased with
    | none => (a.1, a.2.1, true)
    | some (w, dev) =>
      ((List.range 8).foldl (fun l p => listSet l (16 * (j / 2) + 2 * p + j % 2) (w.getD (p + 2) 0)) a.1,
       a.2.1 ++ dev.toList, a.2.2)) (line, [], false)

/-! ### The SEC-DED code of a QDR word -/

/-- Code values v(0) to v(63): the 7-bit numbers with at least two bits set, in order (R305). -/
def qdrCode : List Nat :=
  (List.range 72).filter (fun v => decide (2 ≤ ((List.range 7).filter (fun i => v.testBit i)).length))
/-- Parity of the low `w` bits of a number. -/
def parityOf (w n : Nat) : Bool := (List.range w).foldl (fun p i => p != n.testBit i) false
/-- `C[6:0]` of 64 data bits. -/
def qdrCheck (data : W64) : Nat :=
  (qdrCode.zipIdx.filter (fun x => data.getLsbD x.2)).foldl (fun c x => c ^^^ x.1) 0
/-- The check byte `C7:C[6:0]` of 64 data bits: `C7` is the even parity of the 71 other bits. -/
def qdrEncode (data : W64) : Byte :=
  let c := qdrCheck data
  BitVec.ofNat 8 (c + if parityOf 64 data.toNat != parityOf 7 c then 128 else 0)
/-- Outcome of a read of a word and its check byte (R305): the data, and 0 clean, 1 corrected, 2 uncorrectable. -/
def qdrDecode (data : W64) (chk : Byte) : W64 × Nat :=
  let s := qdrCheck data ^^^ bitsOf chk.toNat 6 0
  let q := parityOf 64 data.toNat != parityOf 8 chk.toNat
  if s = 0 ∧ !q then (data, 0)
  else if q then
    match qdrCode.findIdx? (· == s) with
    | some i => (data ^^^ (1#64 <<< i), 1)
    | none => if s = 0 ∨ (List.range 7).any (fun i => s == 2 ^ i) then (data, 1) else (data, 2)
  else (data, 2)

end Sys2Proof.Machine
end

