-- ==== Sys2Proof/Machine/Frames.lean ====
section
/-! DEFINITION. What the wires of a die-link module carry: CRC-16 (R131), the fields, positions and wires of a frame (R128 to R135), the
verify streams (R137), training words (R136), the ring share's packets and the test share (R148, R149), and the signals of a fabric
crossing module (R150). -/

namespace Sys2Proof.Machine

/-! ### CRC-16 and the fields of a frame (R130, R131) -/

/-- One bit into a CRC-16 with polynomial 0x1021. -/
def crc16Bit (c : BitVec 16) (b : Bool) : BitVec 16 :=
  if c.getLsbD 15 != b then (c <<< 1) ^^^ 0x1021#16 else c <<< 1
/-- The bits of a value, bit 0 first, into a running CRC-16. -/
def crc16Run {w : Nat} (c : BitVec 16) (v : BitVec w) : BitVec 16 :=
  (List.range w).foldl (fun c i => crc16Bit c (v.getLsbD i)) c
/-- The CRC-16 of a frame (R131). -/
def frameCrc (f : LinkFrame) : BitVec 16 :=
  crc16Run (crc16Run (crc16Run (crc16Run (crc16Run (crc16Run 0xFFFF#16 f.pos0) f.pos1) f.pos2) f.pos3) f.vld) f.sb
/-- The CRC-16 of a fabric crossing frame, whose payload is that of two groups: positions 0 and 1 of the layout of R135 (R131, R150;
DESIGN CHOICE, unsafe, log entry 133). -/
def xcCrc (f : LinkFrame) : BitVec 16 := crc16Run (crc16Run (crc16Run (crc16Run 0xFFFF#16 f.pos0) f.pos1) f.vld) f.sb

/-- `REQ_CR` of a frame's sideband. -/
def frameReqCr (f : LinkFrame) : Nat := bitsOf f.sb.toNat 2 0
/-- `RSP_CR`. -/
def frameRspCr (f : LinkFrame) : Nat := bitsOf f.sb.toNat 5 3
/-- `MASK`. -/
def frameMask (f : LinkFrame) : Nat := bitsOf f.sb.toNat 10 6
/-- `RETRAIN`. -/
def frameRetrain (f : LinkFrame) : Bool := f.sb.toNat.testBit 11
/-- `MARK` bit of position j. -/
def frameMark (f : LinkFrame) (j : Nat) : Bool := f.sb.toNat.testBit (12 + j)
/-- `ATTR_j`. -/
def frameAttr (f : LinkFrame) (j : Nat) : Nat := bitsOf f.sb.toNat (16 + 4 * j + 3) (16 + 4 * j)
/-- `RING`. -/
def frameRing (f : LinkFrame) : Nat := bitsOf f.sb.toNat 43 32
/-- `TEST`. -/
def frameTest (f : LinkFrame) : Nat := bitsOf f.sb.toNat 46 44
/-- The sideband of a frame from its fields (R130). -/
def frameSb (reqCr rspCr mask : Nat) (retrain : Bool) (mark : Nat) (attr : List Nat) (ring test : Nat) : BitVec 48 :=
  BitVec.ofNat 48 (reqCr % 8 + 2 ^ 3 * (rspCr % 8) + 2 ^ 6 * (mask % 32) + (if retrain then 2 ^ 11 else 0) + 2 ^ 12 * (mark % 16) +
    (List.range 4).foldl (fun n j => n + 2 ^ (16 + 4 * j) * (attr.getD j 0 % 16)) 0 + 2 ^ 32 * (ring % 4096) + 2 ^ 44 * (test % 8))

/-- Class of position j in `VLD`: 0 idle, 1 request, 2 response, 3 scheduled. -/
def frameClass (f : LinkFrame) (j : Nat) : Nat := bitsOf f.vld.toNat (2 * j + 1) (2 * j)
/-- Payload of position j. -/
def framePos (f : LinkFrame) (j : Nat) : BitVec 256 :=
  match j with
  | 0 => f.pos0
  | 1 => f.pos1
  | 2 => f.pos2
  | _ => f.pos3

/-- The class codes are consistent with `MARK` and with the width (R131, R135). -/
def frameClassesOk (f : LinkFrame) (width : Nat) : Bool :=
  (List.range 4).all (fun j =>
    let c := frameClass f j
    (!frameMark f j || c == 3) && (decide (j < width) || c == 0) && (decide (4 ≤ width) || c != 3))

/-! ### Groups, streams and wires (R130, R135, R137) -/

/-- The groups of a mask, lowest first. -/
def groupsOf (mask : Nat) : List Nat := (List.range 5).filter (fun g => mask.testBit g)
/-- The payload groups of a mask: its four lowest-numbered groups at most (R130, R135). -/
def payloadGroups (mask : Nat) : List Nat := (groupsOf mask).take 4
/-- The group outside the payload groups of a mask of five (R130, R141). -/
def marginGroup (mask : Nat) : Option Nat := (groupsOf mask)[4]?

/-- One step of a shift register with feedback from bits a and b. -/
def prbsStep (a b s w : Nat) : Nat := (2 * s + (if s.testBit a != s.testBit b then 1 else 0)) % 2 ^ w
/-- Bit n of the PRBS-7 stream of a wire in `DESKEW`: the highest bit of the register (DESIGN CHOICE, safe, log entry 134). -/
def prbs7 (wire n : Nat) : Bool := ((List.range n).foldl (fun s _ => prbsStep 6 5 s 7) (wire % 127 + 1)).testBit 6
/-- Bit n of the PRBS-15 stream of a wire in `VERIFY` and on the margin group. -/
def prbs15 (wire n : Nat) : Bool := ((List.range n).foldl (fun s _ => prbsStep 14 13 s 15) (wire + 1)).testBit 14

/-- The sideband bit on `SB` wire i in a beat of tick t, the CRC in tick 3 (R130). -/
def sbWire (f : LinkFrame) (i t beat : Nat) : Bool := (f.crc ++ f.sb : BitVec 64).getLsbD (16 * t + 2 * i + beat)
/-- `VLD` in a beat of tick t: the class of the position that sits there (R130, R135). -/
def vldWire (f : LinkFrame) (t beat : Nat) : Bool := f.vld.getLsbD (2 * t + beat)
/-- Data wire w of group g in a beat of tick t, for a mask and sideband group; bit n of its stream where it is the margin group (R130,
R135, R137). -/
def dataWire (mask sbg : Nat) (f : LinkFrame) (n g w t beat : Nat) : Bool :=
  if g = sbg then (if w < 8 then sbWire f w t beat else w == 8 && vldWire f t beat)
  else if marginGroup mask = some g then prbs15 (32 * g + w) n
  else
    match (payloadGroups mask).idxOf? g with
    | none => false
    | some q => if maskWidth mask = 4 then (framePos f t).getLsbD (64 * q + 2 * w + beat) else (framePos f q).getLsbD (64 * t + 2 * w + beat)

/-- A transmitter drives its data, sideband, `VLD` and clock wires low: its die is in reset, or it is in `RESET` or `FENCED` (R128). It
follows the state of its receiver (DESIGN CHOICE, unsafe, log entry 135). -/
def State.txQuiet (s : State) (b : Nat) : Bool := s.inReset (txDieOf b) || s.lmState b == 0 || s.lmState b == 7

/-! ### Training words (R136) -/

/-- The module of the same link that runs in the other direction (chapter 06, Frames). -/
def oppBase (b : Nat) : Nat :=
  let d := b / 4294967296
  let blk := b / 65536 % 65536
  let o := b % 65536
  if d = 7 then (if o = 0x100 then ra 7 0 0x140 else ra 7 0 0x100)
  else if blk < 0x510 then ra d blk (if o = 0 then 0x40 else 0)
  else if blk = 0x510 ∨ blk = 0x512 then ra (d - 1) (blk + 1) o
  else ra (d + 1) (blk - 1) o

/-- Xor of the nibbles of bits 31 to 4. -/
def wordCheck (w : W32) : Nat := (List.range 7).foldl (fun c i => c ^^^ bitsOf w.toNat (4 * i + 7) (4 * i + 4)) 0
/-- The training word's `SYNC` and `CHECK` match (R136). -/
def wordOk (w : W32) : Bool := bitsOf w.toNat 31 29 == 6 && wordCheck w == bitsOf w.toNat 3 0
/-- A receiver asks for retraining: it is out of `RUN` and trains (R140). -/
def State.asksRetrain (s : State) (b : Nat) : Bool := decide (1 ≤ s.lmState b) && decide (s.lmState b ≤ 5)
/-- The training word that module b sends: its own transmitter's state, mask and sideband group, and the feedback of the opposite
module's receiver (R136, R138, R140). -/
def State.trainingWord (s : State) (b : Nat) : W32 :=
  let o := oppBase b
  let dec (b : Nat) : Nat := (s.lm b).decided.toNat
  let n := 6 * 2 ^ 29 + 2 ^ 25 * (if s.inReset (txDieOf b) then 0 else s.lmState b) + 2 ^ 20 * bitsOf (dec b) 4 0 + 2 ^ 17 * bitsOf (dec b) 7 5 +
    2 ^ 13 * s.lmState o + 2 ^ 8 * bitsOf (dec o) 4 0 + 2 ^ 5 * bitsOf (dec o) 7 5 + (if s.asksRetrain o then 16 else 0)
  BitVec.ofNat 32 (n + wordCheck (BitVec.ofNat 32 n))

/-! ### Ring and test shares (R148, R149) -/

/-- The module with this register set carries the ring share (R148). -/
def State.carriesRing (s : State) (b : Nat) : Bool :=
  [0, 3, 7].any (fun d => (loopEdges d).any (fun e => s.shareBase e.1 e.2 == b))

/-- A ring access as the 80 bits that cross an edge: operation 0 read, 1 write, 2 read response, 3 write response (R148). -/
def ringPacket (op status master : Nat) (r : RingReq) : BitVec 80 :=
  BitVec.ofNat 80 (op + 2 ^ 2 * status + 2 ^ 4 * master + 2 ^ 12 * r.die + 2 ^ 15 * r.block + 2 ^ 31 * (r.off / 4) + 2 ^ 45 * r.data.toNat)
/-- The eight `RING` units of a packet, lowest bits first: 10 bits and 0b01 first, 0b10 middle, 0b11 last (R148). -/
def ringUnits (p : BitVec 80) : List Nat :=
  (List.range 8).map (fun i => bitsOf p.toNat (10 * i + 9) (10 * i) + 1024 * (if i = 0 then 1 else if i = 7 then 3 else 2))
/-- The packet that eight units make. -/
def unitsPacket (u : List Nat) : BitVec 80 :=
  BitVec.ofNat 80 ((List.range 8).foldl (fun n i => n + 2 ^ (10 * i) * (u.getD i 0 % 1024)) 0)
/-- The `TEST` field of a frame of module b: `TCK`, `TMS` and the chain's data as sampled for the frame, zero on a module that does not
carry the ring share (R149). -/
def State.testField (s : State) (b : Nat) (tck tms tdo : Bool) : Nat :=
  if s.carriesRing b then (if tck then 1 else 0) + (if tms then 2 else 0) + (if tdo then 4 else 0) else 0

/-! ### Fabric crossing modules (R150) -/

/-- The module is a fabric crossing module. -/
def isCrossing (b : Nat) : Bool := b / 4294967296 != 7 && (b / 65536 % 65536 == 0x512 || b / 65536 % 65536 == 0x513)

/-- Position and bit of a frame that carry signal i: payload group i div 256, wire (i mod 256) div 8, beat i mod 8 of the frame
(chapter 06, Fabric crossing modules; R135). -/
def xcBit (i : Nat) : Nat × Nat := (i / 256, 64 * (i % 8 / 2) + 2 * (i % 256 / 8) + i % 2)
/-- The 512 signals of a crossing frame. -/
def xcSignals (f : LinkFrame) : BitVec 512 :=
  BitVec.ofNat 512 ((List.range 512).foldl (fun n i => if (framePos f (xcBit i).1).getLsbD (xcBit i).2 then n + 2 ^ i else n) 0)
/-- The fields that a crossing frame sends as zero (chapter 06, Fabric crossing modules). -/
def xcQuiet (f : LinkFrame) : Bool := f.vld == 0 && f.sb.toNat % 64 == 0 && f.sb.toNat / 4096 == 0

/-! ### Sideband of a flit (R87, R88) -/

/-- A sideband with its even parity in bit 31. -/
def withParity (n : Nat) : W32 :=
  BitVec.ofNat 32 (n + (if (List.range 31).foldl (fun p i => p != n.testBit i) false then 2 ^ 31 else 0))
/-- Sideband of an idle tick: `VC` = 0b11 and all other bits zero (chapter 04, Flit formats). -/
def idleSide : W32 := 0x60000000#32
/-- Sideband of a scheduled flit or marker; the parity bit is wrong where the flit's parity fails. -/
def Flit.side (f : Flit) : W32 :=
  let n := (if f.valid then 1 else 0) + 2 * (f.flow % 4096) + 2 ^ 13 * (if f.valid then 0 else f.cause % 16) + 2 ^ 23 * (f.key % 16) +
    (if f.bank then 2 ^ 27 else 0)
  if f.parityOk then withParity n else withParity n ^^^ 0x80000000#32
/-- Sideband of flit i of a best-effort packet. -/
def Packet.side (p : Packet) (i : Nat) : W32 :=
  withParity (1 + 2 * i + (if i = p.data.length then 2 ^ 5 else 0) + 2 ^ 23 * hget p.hdr 0 13 10 + 2 ^ 29 * (1 + hVc p.hdr))
/-- The parity of a sideband holds over all its bits (R87). -/
def sideOk (v : W32) : Bool := (List.range 32).foldl (fun p i => p != v.getLsbD i) false == false

end Sys2Proof.Machine
end

