-- ==== Sys2Proof/Machine/Interface.lean ====
section
/-! DEFINITION. The network interface toward its fabric or client: error and best-effort flags (R102, R126), the four FIFOs and
their flush (R98 to R101), the staging queue and the egress buffer (R96, R97). -/

namespace Sys2Proof.Machine

/-! ### Flags -/

/-- Event of an NI's error flags: any `NI_ERR` bit, and on a logic die or A any `BE_FLAG` bit (R102, R126, R350). -/
def niErrEvent (d n : Nat) : Nat := if d = 6 then 384 + 8 * n + 1 else if d = 7 then 1827 else 768 + 128 * d + 32 + n
/-- Set an `NI_ERR` bit. -/
def State.niErr (s : State) (d n : Nat) (f : Fld) : State := s.flagRaise (aNI_ERR d n) f (niErrEvent d n)

/-- Event of a `BE_FLAG` bit (R126). -/
def beFlagEvent (d n : Nat) (f : Fld) : Nat :=
  if d ≠ 6 then niErrEvent d n
  else 384 + 8 * n +
    (if f = fBE_FLAG_SPILL_START then 2 else if f = fBE_FLAG_SPILL_FULL then 3 else if f = fBE_FLAG_DRAINED then 4
     else if f = fBE_FLAG_STALL then 6 else if f = fBE_FLAG_SPILL_ERR then 7 else 5)
/-- Set a `BE_FLAG` bit. -/
def State.beFlag (s : State) (d n : Nat) (f : Fld) : State := s.flagRaise (aBE_FLAG d n) f (beFlagEvent d n f)

/-- The NI's port is enabled (`NI_CTRL.EN`). -/
def State.niOn (s : State) (d n : Nat) : Bool := s.bit (aNI_CTRL d n) fNI_CTRL_EN
/-- The NI admits and accepts packets: enabled, no disable begun, its Weave domain on (R123, R369). -/
def State.niAccepts (s : State) (d n : Nat) : Bool :=
  s.niOn d n && (s.ni d n).disStep == 0 && s.domOn (weaveDom d)
/-- The NI exists, its clock runs, its die is not in reset and its domain is on. -/
def State.niLive (s : State) (d n : Nat) : Bool :=
  niExists d n && (s.runs || (d == 6 && s.hubRuns)) && !s.inReset d && s.domOn (weaveDom d)

/-! ### FIFOs -/

/-- FIFO k of an NI. -/
def niFifo (x : Ni) (k : Nat) : List FifoFlit :=
  match k with
  | 0 => x.fifo0
  | 1 => x.fifo1
  | 2 => x.fifo2
  | _ => x.fifo3
/-- An NI with FIFO k replaced. -/
def niSetFifo (x : Ni) (k : Nat) (l : List FifoFlit) : Ni :=
  match k with
  | 0 => { x with fifo0 := l }
  | 1 => { x with fifo1 := l }
  | 2 => { x with fifo2 := l }
  | _ => { x with fifo3 := l }

/-- Bit k of a 4-bit set, and the set with it put. -/
def bit4 (v : BitVec 4) (k : Nat) : Bool := v.toNat.testBit k
@[inherit_doc bit4]
def put4 (v : BitVec 4) (k : Nat) (b : Bool) : BitVec 4 :=
  if b then v ||| BitVec.ofNat 4 (2 ^ k) else v &&& ~~~(BitVec.ofNat 4 (2 ^ k))

/-- Level event of an NI (R102, R350). -/
def niLevelEvent (d n : Nat) : Nat := if d = 6 then 384 + 8 * n else if d = 7 then 1826 else 768 + 128 * d + n

/-! ### Pointers and flags of a FIFO (R98, R99) -/

/-- The Gray code of a 7-bit pointer. -/
def gray (n : Nat) : BitVec 7 := BitVec.ofNat 7 (n % 128 ^^^ n % 128 / 2)
/-- The number that a Gray-coded pointer stands for. -/
def ungray (g : BitVec 7) : Nat := (List.range 7).foldl (fun n i => n ^^^ g.toNat / 2 ^ i) 0
/-- Pointers at zero, all seen. -/
def FifoPtr.zero : FifoPtr := { wr := 0, rd := 0, unseenW := [], unseenR := [] }
/-- The pointers of FIFO k. -/
def Ni.ptr (x : Ni) (k : Nat) : FifoPtr := tget (fun _ => FifoPtr.zero) x.ptrs k
/-- Set the pointers of FIFO k. -/
def Ni.setPtr (x : Ni) (k : Nat) (p : FifoPtr) : Ni := { x with ptrs := tput (fun _ => FifoPtr.zero) x.ptrs k p }
/-- Flits that the reader of FIFO k sees. -/
def Ni.avail (x : Ni) (k : Nat) : List FifoFlit := (niFifo x k).take ((niFifo x k).length - (x.ptr k).unseenW.length)
/-- Flits of FIFO k as its writer counts them: with those read that it has not seen. -/
def Ni.held (x : Ni) (k : Nat) : Nat := (niFifo x k).length + (x.ptr k).unseenR.length
/-- The NI-side count: the NI reads `MREQ` and `TRSP`, and writes `MRSP` and `TREQ` (R99). -/
def Ni.count (x : Ni) (k : Nat) : Nat := if k = 1 ∨ k = 2 then x.held k else (x.avail k).length
/-- `FULL`, the writer's flag. -/
def Ni.full (x : Ni) (k : Nat) : Bool := decide (64 ≤ x.held k)
/-- `EMPTY`, the reader's flag. -/
def Ni.empties (x : Ni) (k : Nat) : Bool := (x.avail k).isEmpty
/-- Flits are appended to FIFO k: its write pointer moves, and the reader has yet to see it. -/
def Ni.push (x : Ni) (k now : Nat) (fl : List FifoFlit) : Ni :=
  let p := x.ptr k
  (niSetFifo x k (niFifo x k ++ fl)).setPtr k
    { p with wr := gray (ungray p.wr + fl.length), unseenW := p.unseenW ++ List.replicate fl.length now }
/-- The first m flits of FIFO k are read: its read pointer moves, and the writer has yet to see it. -/
def Ni.pop (x : Ni) (k now m : Nat) : Ni :=
  let p := x.ptr k
  (niSetFifo x k ((niFifo x k).drop m)).setPtr k
    { p with rd := gray (ungray p.rd + m), unseenR := p.unseenR ++ List.replicate m now }

/-- The level check of R99 when the NI-side count of FIFO k grew from `old`. -/
def State.fifoLevel (s : State) (d n k old : Nat) : State :=
  let lev := s.fld (aFIFO_CFG d n k) fFIFO_CFG_LEVEL
  let new := (s.ni d n).count k
  if s.bit (aFIFO_CFG d n k) fFIFO_CFG_LVL_EN && decide (old ≤ lev) && decide (lev < new) then
    (s.setBit (aFIFO_STAT d n k) fFIFO_STAT_LVL true).raise (niLevelEvent d n)
  else s

/-- Append flits to FIFO k, with its level check. -/
def State.fifoPush (s : State) (d n k : Nat) (fl : List FifoFlit) : State :=
  let x := s.ni d n
  (s.setNi d n (x.push k s.now fl)).fifoLevel d n k (x.count k)

/-- What a far side still has not seen on this tick: after three ticks it has seen a change where it runs on the Weave clock; else how
many it sees now is free (R98; the cycle of `ACLK` is not the model's, log entry 136). -/
def State.unseen (s : State) (weave : Bool) (l : List Nat) : List Nat × State :=
  let l := if weave then l.filter (fun t => decide (s.now < t + 3)) else l
  if l.isEmpty then (l, s)
  else
    let (v, t) := s.fresh 7
    (l.drop (v.toNat % (l.length + 1)), t)
/-- The pointers of an NI's FIFOs cross to their far clocks (R98, R99). -/
def State.fifoCross (s : State) (d n : Nat) : State :=
  (List.range 4).foldl (fun s k =>
    let x := s.ni d n
    let p := x.ptr k
    let niReads := !(k == 1 || k == 2)
    let (w, s) := s.unseen niReads p.unseenW
    let (r, s) := s.unseen (!niReads) p.unseenR
    if w = p.unseenW ∧ r = p.unseenR then s
    else (s.setNi d n ((s.ni d n).setPtr k { p with unseenW := w, unseenR := r })).fifoLevel d n k (x.count k)) s

/-- A packet as FIFO flits: `LAST` on the final one. -/
def pktFlits (p : Packet) : List FifoFlit :=
  let all := p.hdr :: p.data
  (List.range all.length).map (fun i => { payload := all.getD i 0, last := i + 1 == all.length })

/-- The first whole packet of a FIFO, and what follows it. -/
def firstPacket : List FifoFlit → List (BitVec 256) → Option (List (BitVec 256) × List FifoFlit)
  | [], _ => none
  | f :: r, acc => if f.last then some (acc ++ [f.payload], r) else firstPacket r (acc ++ [f.payload])

/-- The write-side boundary of a flush on tick `now`: every flit before it goes, but for a packet the reader has begun (R100). -/
def afterFlush (x : Ni) (k now : Nat) : Ni :=
  let keep := if bit4 x.midRead k then
    match firstPacket (niFifo x k) [] with
    | some (p, _) => (niFifo x k).take p.length
    | none => niFifo x k
    else []
  let m := (niFifo x k).length - keep.length
  let p := x.ptr k
  { (niSetFifo x k keep).setPtr k
      { p with rd := gray (ungray p.rd + m), unseenW := p.unseenW.take (keep.length - (x.avail k).length)
               unseenR := p.unseenR ++ List.replicate m now } with
    flushing := put4 x.flushing k false }

/-- User logic, or a hub client, writes a flit into FIFO k (R98, R101); a write to a full FIFO is discarded. -/
def execFifoWrite (i : NiId) (k : Fin 4) (flit : BitVec 256) (last : Bool) (s : State) :
    Host.Outcome State Fault Refusal :=
  if !s.niLive i.die i.ni then .next s
  else
    let x := s.ni i.die i.ni
    if x.full k.val then .next (s.niErr i.die i.ni fNI_ERR_FIFO_OVF)
    else
      let t := s.fifoPush i.die i.ni k.val [{ payload := flit, last := last }]
      let y := t.ni i.die i.ni
      .next (t.setNi i.die i.ni { y with midWrite := put4 y.midWrite k.val (!last) })

/-- A flit is read from FIFO k: payload, `LAST` and `NV`; a FIFO that its reader sees empty answers `NV` = 1 alone (R98, R101). -/
def execFifoRead (i : NiId) (k : Fin 4) (s : State) : Host.Outcome State Fault Refusal :=
  if !s.niLive i.die i.ni then .next s
  else
    let x := s.ni i.die i.ni
    match x.avail k.val with
    | [] => .next (s.setNi i.die i.ni { x with readOut := BitVec.ofNat 258 (2 ^ 257) })
    | f :: _ =>
      let out : BitVec 258 := BitVec.ofNat 258 (f.payload.toNat + (if f.last then 2 ^ 256 else 0))
      .next (s.setNi i.die i.ni
        { x.pop k.val s.now 1 with readOut := out, midRead := put4 x.midRead k.val (!f.last) })

/-- A write of `FIFO_FLUSH` (R100): a flush requested while one runs merges with it. -/
def fifoFlushWrite (d n : Nat) (v : W32) (s : State) : Answer :=
  let x := s.ni d n
  wrote (s.setNi d n { x with flushing := x.flushing ||| v.setWidth 4 })

/-- `FIFO_FLUSH` written by master m. -/
def execFifoFlush (m : Rm) (i : NiId) (mask : BitVec 4) (s : State) : Host.Outcome State Fault Refusal :=
  if niExists i.die i.ni then
    .next (ringPut m (aFIFO_FLUSH i.die i.ni) (mask.setWidth 32) (fifoFlushWrite i.die i.ni (mask.setWidth 32)) s)
  else .next s

/-- The next write-side packet boundary of a FIFO marked for flush passes (R100). -/
def execFlushBoundary (i : NiId) (k : Fin 4) (s : State) : Host.Outcome State Fault Refusal :=
  let x := s.ni i.die i.ni
  if s.niLive i.die i.ni && bit4 x.flushing k.val && !bit4 x.midWrite k.val then
    .next (s.setNi i.die i.ni (afterFlush x k.val s.now))
  else .next s

/-! ### Staging queue and egress buffer -/

/-- One staged flit: debt first, then a place (R96). -/
def State.stageOne (s : State) (d n : Nat) (f : BitVec 256) : State :=
  let x := s.ni d n
  if x.debt ≠ 0 then s.setNi d n { x with debt := x.debt - 1 }
  else if 32 ≤ x.staging.length then s.niErr d n fNI_ERR_STG_OVF
  else s.setNi d n { x with staging := x.staging ++ [f] }

/-- User logic writes up to two flits on one `SCLK` edge (R96). -/
def execFlitStageWrite (i : NiId) (flits : List (BitVec 256)) (s : State) : Host.Outcome State Fault Refusal :=
  if s.niLive i.die i.ni && i.die != 6 then
    .next ((flits.take 2).foldl (fun t f => t.stageOne i.die i.ni f) s)
  else .next s

/-- A flit or marker enters the egress buffer, or is lost to a full one (R97). -/
def State.egressPush (s : State) (d n : Nat) (e : Egr) : State :=
  let x := s.ni d n
  if 16 ≤ x.egress.length then s.niErr d n fNI_ERR_EGR_OVF
  else s.setNi d n { x with egress := x.egress ++ [e] }

/-- N of `NI_CTRL.RATIO`. -/
def ratioN (v : Nat) : Nat :=
  match v with
  | 2 => 3
  | 3 => 4
  | 4 => 6
  | 5 => 8
  | _ => 2

/-- On an `SCLK` edge (tick mod N = 0), once, the buffered flits and markers whose egress tick is two or more ticks past are
presented, two lanes on a logic die and one on A (R97, R343). -/
def execEgressPresent (i : NiId) (s : State) : Host.Outcome State Fault Refusal :=
  let n := ratioN (s.fld (aNI_CTRL i.die i.ni) fNI_CTRL_RATIO)
  if s.niLive i.die i.ni && i.die != 6 && s.tickN % n == 0 then
    let x := s.ni i.die i.ni
    if x.presentAt = s.now + 1 then .next s
    else
      let ready := x.egress.takeWhile (fun e => decide (e.enter + 2 ≤ s.now))
      let k := min ready.length (if i.die = 7 then 1 else 2)
      .next (s.setNi i.die i.ni { x with presented := x.egress.take k, egress := x.egress.drop k, presentAt := s.now + 1 })
  else .next s

/-- A write of `NI_CTRL` of which only the ratio is stored: other ratio codes leave the field (chapter 04). -/
def putRatio (old v : W32) : W32 :=
  let r := getF v fNI_CTRL_RATIO
  if 1 ≤ r ∧ r ≤ 5 then putF old fNI_CTRL_RATIO r else old

end Sys2Proof.Machine
end

