-- ==== Sys2Proof/Machine/PortSend.lean ====
section
/-! DEFINITION. The transmit frame assembly of a torus port: which send ticks are free, and what a sent position adds (R161, R162,
R164, R165). Classes of a sent position: 0 scheduled flit, 1 absence marker, 2 best-effort start, 3 best-effort flit, 4 configuration
stream, 6 control, 7 time marker, 8 alignment marker, 9 exchange. -/

namespace Sys2Proof.Machine

/-- Byte i of a position. -/
def posByte (c : BitVec 256) (i : Nat) : Nat := bitsOf c.toNat (8 * i + 7) (8 * i)
/-- The CRC-16 of bytes 1 to 29 of a control or exchange position (R162, R169). -/
def posCrc (c : BitVec 256) : BitVec 16 := crc16Run 0xFFFF#16 (c.extractLsb' 8 232)
/-- The CRC-16 in bytes 30 and 31 of a control or exchange position is right (R162, R169). -/
def posCrcOk (c : BitVec 256) : Bool := posCrc c == c.extractLsb' 240 16
/-- A control or exchange position with its CRC. -/
def withPosCrc (c : BitVec 256) : BitVec 256 := posCrc c ++ c.extractLsb' 0 240

/-- Lane 0, byte 0 of a position of a class other than a scheduled flit's (R158, R161). -/
def clsByte (cls : Nat) : Nat :=
  match cls with
  | 1 => 0x1C
  | 2 => 0x5C
  | 3 => 0x7C
  | 4 => 0xF7
  | 6 => 0xDC
  | 7 => 0xFB
  | 8 => 0x3C
  | 9 => 0xFD
  | _ => 0xBC
/-- Class of a received position by lane 0, byte 0 and whether it is a K character; 5 where it is none of those (R161). -/
def clsOf (k : Bool) (byte : Nat) : Nat :=
  if !k then 0
  else match byte with
    | 0x1C => 1
    | 0x5C => 2
    | 0x7C => 3
    | 0xF7 => 4
    | 0xDC => 6
    | 0xFB => 7
    | 0xFD => 9
    | _ => 5

/-- The port's transmitter uses half the lanes: in `HALF`, or in `SWITCH` from the agreed frame on (R175). -/
def State.txHalf (s : State) (p : Nat) : Bool :=
  s.tpState p == 8 || (s.tpState p == 9 && (match (s.port p).switchAt with
    | some t => decide (t ≤ s.tickN)
    | none => false))
/-- Send ticks that a position takes (R161, R175). -/
def State.posTicks (s : State) (p : Nat) : Nat := if s.txHalf p then 4 else 2
/-- The port runs frames: from `EXCHANGE` to `SWITCH` (R168, R175). -/
def State.portFrames (s : State) (p : Nat) : Bool := decide (4 ≤ s.tpState p) && decide (s.tpState p ≤ 9)

/-- A position may start on send tick u: it overlaps neither the control position, nor the frame's end, nor a position already in the
assembly (R161, R165). -/
def State.slotFree (s : State) (p u : Nat) : Bool :=
  let w := s.posTicks p
  decide (w ≤ u % 64) && decide (u % 64 + w ≤ 64) &&
    (s.port p).lastSent.all (fun x => decide (x.sendTick + w ≤ u) || decide (u + w ≤ x.sendTick))

/-- A position enters the assembly; the key of a scheduled flit goes into its frame's control position, in the place that counts the
positions before it (R162). Positions leave for the wires 64 ticks after their send tick (R161). -/
def State.sendPos (s : State) (p : Nat) (x : PortPos) (key : Nat) : State :=
  let y := s.port p
  let fr := x.sendTick / 64
  let idx := (y.lastSent.filter (fun z => z.sendTick / 64 == fr && decide (z.cls < 6))).length
  let mark (z : PortPos) : PortPos :=
    if key ≠ 0 ∧ (z.cls = 6 ∨ z.cls = 7) ∧ z.sendTick = 64 * fr then
      { z with payload := withPosCrc (z.payload ||| BitVec.ofNat 256 (2 ^ (104 + 4 * idx) * key)) } else z
  s.setPort p { y with lastSent := (y.lastSent.filter (fun z => decide (s.tickN < z.sendTick + 64))).map mark ++ [x] }

/-- A position of a class with its byte 0, on a send tick. -/
def mkPos (u cls : Nat) (rest : Nat) : PortPos :=
  { sendTick := u, cls := cls, payload := BitVec.ofNat 256 (rest * 256 + clsByte cls), codeError := false }

/-- The start position of a best-effort packet: VC, flits that follow, and byte 0 of each (R161, R164). -/
def startPos (u : Nat) (p : Packet) : PortPos :=
  let fl := p.hdr :: p.data
  mkPos u 2 (1 + hVc p.hdr + 4 * fl.length + (List.range fl.length).foldl (fun n i => n + 2 ^ (8 * (i + 1)) * ((fl.getD i 0).toNat % 256)) 0)
/-- A best-effort flit's position. -/
def flitPos (u : Nat) (f : BitVec 256) : PortPos := mkPos u 3 (f.toNat / 256)

end Sys2Proof.Machine
end

