-- ==== Sys2Proof/Machine/BestEffort.lean ====
section
/-! DEFINITION. Best-effort traffic: admission and tags (R110 to R112), hops under credits and the bubble rule (R103 to R108),
arrival at targets and requesters (R90, R95), and stalls (R121). -/

namespace Sys2Proof.Machine

/-! ### Items: which flits of a packet are where (R103, R134) -/

/-- Flits of a packet. -/
def BeItem.len (x : BeItem) : Nat := 1 + x.pkt.data.length
/-- Virtual channel of a packet: 0 request, 1 response. -/
def BeItem.vc (x : BeItem) : Nat := hVc x.pkt.hdr
/-- Every flit has reached the place by tick t. -/
def BeItem.whole (x : BeItem) (t : Nat) : Bool := x.comes.length == x.len && x.comes.all (fun u => decide (u ≤ t))
/-- The packet came over a die edge, whose receive side passes on whole packets only (R134). -/
def BeItem.stored (x : BeItem) : Bool := match x.via with
  | some (.link _) => true
  | _ => false
/-- Flit i is at the place by tick t; what came over a die edge is there when all of the packet is. -/
def BeItem.has (x : BeItem) (i t : Nat) : Bool :=
  if x.stored then x.whole t else decide (i < x.comes.length) && decide (x.comes.getD i 0 ≤ t)
/-- Tick on which the header was held at the place; meaningful once it is (R108, R121). -/
def BeItem.landAt (x : BeItem) : Nat := if x.stored then x.comes.getLastD 0 else x.comes.headD 0
/-- The header waits at the place on tick t: it is there and has not left. -/
def BeItem.waits (x : BeItem) (t : Nat) : Bool := x.has 0 t && x.out.isNone
/-- A packet all of whose flits are at a place on tick t. -/
def BeItem.start (p : Packet) (d n inp t own : Nat) : BeItem :=
  { pkt := p, d := d, n := n, inp := inp, rsv := 0, comes := List.replicate (1 + p.data.length) t, gone := 0, out := none
    via := none, port := none, raw := false, aged := false, own := own }

/-- Remove an item from the routers. -/
def State.dropItem (s : State) (x : BeItem) : State :=
  { s with be := { s.be with items := s.be.items.erase x } }
/-- Put an item in the place of another. -/
def State.putItem (s : State) (x y : BeItem) : State :=
  { s with be := { s.be with items := s.be.items.replace x y } }
/-- Add an item. -/
def State.addItem (s : State) (x : BeItem) : State :=
  { s with be := { s.be with items := s.be.items ++ [x] } }

/-! ### Places and credits (R104, R105, R133) -/

/-- Number of the wrap stage of a line in a direction, among the items' places on die 8. -/
def stageNum (line : Nat) (up : Bool) : Nat := 2 * line + (if up then 1 else 0)
/-- Hub rows: their stages receive over no die edge (R72). -/
def hubLine (line : Nat) : Bool := line == 4 || line == 5

/-- Ordinary and reserved places of an input per VC (R104); input 5 is the side input, 6 the NI's ejection; die 8 holds the wrap
stages. -/
def inputPlaces (d n inp vc : Nat) : Nat × Nat :=
  let rsv := if vc = 0 then 9 else 0
  let (r, c) := rcOf d n
  let total :=
    if d = 8 then (if hubLine (n / 2) then 27 else 45)
    else if inp = 6 then 18
    else if inp = 5 then (if d = 6 ∧ n = 0 then 18 else 1024)
    else if inputCrosses r c inp then 45 else 27
  (total - rsv, rsv)

/-- Key of an input's VC. -/
def inKey (d n inp vc : Nat) : Nat := (niKey d n * 8 + inp) * 2 + vc
/-- Free ordinary places of an input's VC. -/
def State.freeOrd (s : State) (d n inp vc : Nat) : Nat :=
  (inputPlaces d n inp vc).1 - tget (fun _ => 0) s.be.usedOrd (inKey d n inp vc)
/-- Free reserved places of an input's VC. -/
def State.freeRsv (s : State) (d n inp vc : Nat) : Nat :=
  (inputPlaces d n inp vc).2 - tget (fun _ => 0) s.be.usedRsv (inKey d n inp vc)
/-- Charge places; over a die edge the order of the kinds is kept, the reserved ones of a packet first (R133; DESIGN CHOICE of the
order within a packet, unsafe, log entry 137). -/
def State.charge (s : State) (d n inp vc ord rsv : Nat) (edge : Bool) : State :=
  let k := inKey d n inp vc
  { s with be := { s.be with
      usedOrd := tput (fun _ => 0) s.be.usedOrd k (tget (fun _ => 0) s.be.usedOrd k + ord)
      usedRsv := tput (fun _ => 0) s.be.usedRsv k (tget (fun _ => 0) s.be.usedRsv k + rsv)
      charges := if edge then tput (fun _ => []) s.be.charges k
          (tget (fun _ => []) s.be.charges k ++ List.replicate rsv true ++ List.replicate ord false) else s.be.charges } }

/-- First tick from `t` on on which one more credit of a key can be usable: a frame returns at most four per VC (R130, R143). -/
def creditSlot (due : List CreditDue) (key : Nat) : Nat → Nat → Nat
  | 0, t => t
  | n + 1, t =>
    if (due.filter (fun c => c.key == key && c.readyAt / 4 == t / 4)).length < 4 then t
    else creditSlot due key n ((t / 4 + 1) * 4)

/-- Flits i to i + m - 1 of an item leave its place: their places are free. Credits are usable two ticks later, over a die edge eight
ticks later and none while its link resynchronises; those of a port's side input count in what the port returns (R103, R133, R143,
R162). -/
def State.freePlaces (s : State) (x : BeItem) (i m : Nat) : State :=
  let k := inKey x.d x.n x.inp x.vc
  let kind (j : Nat) : Bool := decide (j < x.rsv)
  match x.via with
  | some (.port p) =>
    let y := s.port p
    let c := BitVec.ofNat 8 m
    let r := ((List.range m).filter (fun j => kind (i + j))).length
    let t := { s with be := { s.be with
      usedOrd := tput (fun _ => 0) s.be.usedOrd k (tget (fun _ => 0) s.be.usedOrd k - (m - r))
      usedRsv := tput (fun _ => 0) s.be.usedRsv k (tget (fun _ => 0) s.be.usedRsv k - r) } }
    t.setPort p (if x.vc = 0 then { y with freedReq := y.freedReq + c } else { y with freedRsp := y.freedRsp + c })
  | some (.link b) =>
    if !(s.lm b).resynced then s
    else
      (List.range m).foldl (fun t j =>
        let c : CreditDue := ⟨k, if kind (i + j) then 0 else 1, if kind (i + j) then 1 else 0,
          creditSlot t.be.due k (t.be.due.length + 1) (s.now + 8)⟩
        { t with be := { t.be with due := t.be.due ++ [c] } }) s
  | none =>
    if x.inp = 4 then s
    else
      let r := ((List.range m).filter (fun j => kind (i + j))).length
      { s with be := { s.be with due := s.be.due ++ [⟨k, m - r, r, s.now + 2⟩] } }
/-- The packet is taken or dropped whole: every place it still holds is free. -/
def State.freeItem (s : State) (x : BeItem) : State := (s.freePlaces x x.gone (x.len - x.gone)).dropItem x

/-- A returned credit becomes usable (R103): over a die edge it restores the kind that was charged first (R133). -/
def State.useCredit (s : State) (c : CreditDue) : State :=
  let kinds := tget (fun _ => []) s.be.charges c.key
  let m := c.ordinary + c.reserved
  let (o, r) := if kinds.isEmpty then (c.ordinary, c.reserved)
    else (((kinds.take m).filter (fun b => !b)).length, ((kinds.take m).filter (fun b => b)).length)
  { s with be := { s.be with
      usedOrd := tput (fun _ => 0) s.be.usedOrd c.key (tget (fun _ => 0) s.be.usedOrd c.key - o)
      usedRsv := tput (fun _ => 0) s.be.usedRsv c.key (tget (fun _ => 0) s.be.usedRsv c.key - r)
      charges := tput (fun _ => []) s.be.charges c.key (kinds.drop m) } }

/-- A credit is for an input of router n of die d, for the die edge's side of the wrap stages where d is 8. -/
def CreditDue.at (c : CreditDue) (d n : Nat) : Bool := c.key / 16 == niKey d n

/-- The credits due for the inputs of router n of die d become usable (R103). -/
def execCreditReturn (i : NiId) (s : State) : Host.Outcome State Fault Refusal :=
  let mine (c : CreditDue) : Bool := niExists i.die i.ni && c.at i.die i.ni && decide (c.readyAt ≤ s.now)
  let t := { s with be := { s.be with due := s.be.due.filter (fun c => !mine c) } }
  .next ((s.be.due.filter mine).foldl State.useCredit t)

/-! ### Packets -/

/-- The data flits of a packet that carries `bs` from byte `start` of a line (R89). -/
def lineFlits (start : Nat) (bs : List Byte) : List (BitVec 256) :=
  let first := start / 32
  (List.range (coverFlits start bs.length)).map (fun j =>
    BitVec.ofNat 256 (leNat ((List.range 32).map (fun b =>
      let p := 32 * (first + j) + b
      if start ≤ p then bs.getD (p - start) 0 else 0))))

/-- The bytes that a packet's data flits carry in place. -/
def flitBytes (start count : Nat) (fl : List (BitVec 256)) : List Byte :=
  (List.range count).map (fun i =>
    let p := start + i
    let f := fl.getD (p / 32 - start / 32) 0
    BitVec.ofNat 8 (f.toNat >>> (8 * (p % 32))))

/-- Put a packet at the NI input at which NI n of die d sends it; `port` names the torus port it came over, if any (R106). -/
def State.injectFrom (s : State) (d n : Nat) (p : Packet) (own : Nat) (port : Option Nat) : State :=
  s.addItem { BeItem.start p d n 4 s.now own with port := port, raw := false }
/-- Put a packet of NI n of die d at its NI input. -/
def State.inject (s : State) (d n : Nat) (p : Packet) (own : Nat) : State := s.injectFrom d n p own none

/-- The response header to a request header, from NI n of die d (R89 to R91). -/
def State.responseHdr (s : State) (d n : Nat) (q : BitVec 256) (status : Nat) : BitVec 256 :=
  let read := hType q == 0
  let h := hset q 0 3 0 (if read then 2 else 3)
  let h := hset h 0 9 6 (if read && status == 0 then coverFlits (hStart q) (hCount q) else 0)
  let h := hset (hset (hset h 2 15 0 (hget q 1 15 0)) 2 21 16 (hget q 1 21 16)) 2 24 22 (hget q 1 24 22)
  let h := hset (hset (hset h 1 15 0 s.devId) 1 21 16 n) 1 24 22 d
  hset (hset h 6 19 17 status) 6 20 20 0

/-- Answer a request from NI n of die d; a response without a usable route is discarded (R94). -/
def State.respond (s : State) (d n : Nat) (q : BitVec 256) (own status : Nat) (bs : List Byte) : State :=
  let h := s.responseHdr d n q status
  match s.routeResponse d n h with
  | .err f => match f with
    | some f => s.niErr d n f
    | none => s
  | .to h => s.inject d n { hdr := h, data := if hType q = 0 ∧ status = 0 then lineFlits (hStart q) bs else [] } own

/-! ### Admission (R110, R111) -/

/-- Response flits a request reserves (R110). -/
def rspPlaces (h : BitVec 256) : Nat := if hType h = 0 then 1 + coverFlits (hStart h) (hCount h) else 1

/-- A response written locally into `MRSP`, with the status given. -/
def localRsp (h : BitVec 256) (status : Nat) : Packet :=
  { hdr := hset (hset (hset h 0 3 0 (if hType h = 0 then 2 else 3)) 0 9 6 0) 6 19 17 status, data := [] }

/-- Deliver a response to its requester: into `MRSP`, or to the hub client that issued the request; one to a requester that is
gone is discarded (R206). -/
def State.deliverRsp (s : State) (d n : Nat) (o : Outst) (p : Packet) : State :=
  match o.client with
  | none => s.fifoPush d n 1 (pktFlits p)
  | some .outside => s
  | some c =>
    let r : MemRsp := { origin := c, status := hget p.hdr 6 19 17, addr := hAddr o.hdr
                        data := flitBytes (hStart o.hdr) (hCount o.hdr) p.data }
    { s with rsps := s.rsps ++ [r] }

/-- Release an outstanding request and its reserved places. -/
def State.release (s : State) (d n tag : Nat) : State :=
  let x := s.ni d n
  match x.outst.find? (fun o => o.tag == tag) with
  | none => s
  | some o => s.setNi d n { x with outst := dropFirst (fun o => o.tag == tag) x.outst, rsv := x.rsv - o.places }

/-- The header fields that the NI fills in a request (R89). -/
def State.fillHdr (s : State) (d n master : Nat) (h : BitVec 256) : BitVec 256 :=
  let a := hAddr h
  let key := if classOf (a % 2 ^ 48) = .dram then bitsOf a 43 40 else 0
  let h := hset (hset h 0 13 10 key) 0 21 14 master
  let h := hset (hset (hset (hset h 1 15 0 s.devId) 1 21 16 n) 1 24 22 d) 1 31 25 0
  hset (hset (hset h 2 15 0 (a / 2 ^ 48)) 2 31 25 0) 6 21 21 0

/-- Response deadline of a request sent now (R112). -/
def State.deadline (s : State) (d n : Nat) : Option Nat :=
  let t := s.fld (aBE_TMO d n) fBE_TMO_TIMEOUT
  if t = 0 then none else some (s.now + 256 * t)

/-- A request as it waits at a hub target (R17, R76). -/
def State.memReqOf (s : State) (p : Packet) (master : Nat) (o : Origin) : MemReq :=
  let h := p.hdr
  { write := hType h == 1, addr := hAddr h % 2 ^ 48 / 256 * 256 + hStart h, count := hCount h
    data := flitBytes (hStart h) (hCount h) p.data, master := master, urgent := hget h 6 20 20 == 1
    spill := hSpill h, origin := o, arrivedAt := s.now }
/-- Class of a hardened memory target of the hub crossbar. -/
def memClass (c : AddrClass) : Bool := c == .dram || c == .qdr || c == .banks

/-- A request of NI n or of its client, with space and a tag at hand: tracked, routed and injected, or answered with bus
error on the spot (R92 to R95, R110, R111). A client's request to this device's memories enters the hub crossbar (R75, R76). -/
def State.admitPkt (s : State) (d n : Nat) (p : Packet) (master : Nat) (client : Option Origin) : State :=
  let h := s.fillHdr d n master p.hdr
  let x := s.ni d n
  let o : Outst := { tag := hTag h, places := rspPlaces h, deadline := s.deadline d n, hdr := h, client := client }
  if hType h = 4 then
    match s.routeRequest d n h with
    | .to h => s.inject d n { p with hdr := h } 0
    | .err f => match f with
      | some f => s.niErr d n f
      | none => s
  else if x.outst.any (fun o => o.tag == hTag h) then
    (s.deliverRsp d n o (localRsp h 1)).beFlag d n fBE_FLAG_TAG_DUP
  else if client.isSome && hAddr h / 2 ^ 48 == s.devId && memClass (classOf (hAddr h % 2 ^ 48)) then
    let t := s.setNi d n { x with outst := x.outst ++ [o], rsv := x.rsv + o.places }
    { t with mq := t.mq ++ [s.memReqOf { p with hdr := h } master (.client n (hTag h))] }
  else
    match s.routeRequest d n h with
    | .to h' =>
      (s.setNi d n { x with outst := x.outst ++ [{ o with hdr := h' }], rsv := x.rsv + o.places }).inject d n { p with hdr := h' } 0
    | .err f =>
      let t := s.deliverRsp d n o (localRsp h 1)
      match f with
      | some f => t.niErr d n f
      | none => t

/-- Space and a tag are available for a request: its response has its places in `MRSP`, or toward a hub NI's client in the same way
(R110, R111). A request whose tag is outstanding needs the place of its answer alone. -/
def State.canAdmit (s : State) (d n : Nat) (h : BitVec 256) : Bool :=
  let x := s.ni d n
  if hType h = 4 then true
  else if x.outst.any (fun o => o.tag == hTag h) then decide (x.held 1 + x.rsv + 1 ≤ 64)
  else decide (x.outst.length < 64) && decide (x.held 1 + x.rsv + rspPlaces h ≤ 64)

/-- The header of a response from user logic, for the request it answers: fields that the NI sets are set, whatever was written there
(R89, R90). -/
def State.userRspHdr (s : State) (d n : Nat) (h q : BitVec 256) : BitVec 256 :=
  let h := hset (hset h 0 13 10 0) 0 21 14 0
  let h := hset (hset (hset (hset h 1 15 0 s.devId) 1 21 16 n) 1 24 22 d) 1 31 25 0
  let h := hset (hset (hset (hset h 2 15 0 (hget q 1 15 0)) 2 21 16 (hget q 1 21 16)) 2 24 22 (hget q 1 24 22)) 2 31 25 0
  hset (hset (hSetHops (hset h 3 31 0 0) 0) 6 21 21 0) 6 31 30 0

/-- A request is placed in `TREQ`; the NI keeps the header of one that wants an answer (R89, R123). -/
def State.toTreq (s : State) (d n : Nat) (p : Packet) : State :=
  let x := s.ni d n
  let t := if hType p.hdr = 4 then s else s.setNi d n { x with served := x.served ++ [p.hdr] }
  t.fifoPush d n 2 (pktFlits p)
/-- `TREQ` has room for a packet, as its writer counts. -/
def State.treqRoom (s : State) (d n : Nat) (p : Packet) : Bool := decide ((s.ni d n).held 2 + 1 + p.data.length ≤ 64)

/-- The packet at the head of `TRSP` is sent: it answers the oldest unanswered request of its tag that was placed in `TREQ`, and one
that answers none is discarded (R89, R109; DESIGN CHOICE of the match, unsafe, log entry 132). A looped NI hands it to `MRSP`
(R420). -/
def State.issueRsp (s : State) (d n : Nat) (h : BitVec 256) (r : List (BitVec 256)) : State :=
  let x := s.ni d n
  match x.served.find? (fun q => hTag q == hTag h) with
  | none => s
  | some q =>
    let t := s.setNi d n { x with served := x.served.erase q }
    if s.bit (aNI_CTRL d n) fNI_CTRL_LOOP then
      match x.outst.find? (fun o => o.tag == hTag h) with
      | none => t.beFlag d n fBE_FLAG_LATE_RSP
      | some _ => (t.release d n (hTag h)).fifoPush d n 1 (pktFlits { hdr := h, data := r })
    else
      match t.routeResponse d n (t.userRspHdr d n h q) with
      | .to g => t.inject d n { hdr := g, data := r } 0
      | .err f => match f with
        | some f => t.niErr d n f
        | none => t

/-- A looped NI hands a request of `MREQ` to its own `TREQ`, tracked as usual (R420). -/
def State.loopReq (s : State) (d n : Nat) (p : Packet) : State :=
  let h := s.fillHdr d n 0 p.hdr
  let x := s.ni d n
  let o : Outst := { tag := hTag h, places := rspPlaces h, deadline := s.deadline d n, hdr := h, client := none }
  if hType h = 4 then s.toTreq d n { p with hdr := h }
  else if x.outst.any (fun o => o.tag == hTag h) then (s.deliverRsp d n o (localRsp h 1)).beFlag d n fBE_FLAG_TAG_DUP
  else (s.setNi d n { x with outst := x.outst ++ [o], rsv := x.rsv + o.places }).toTreq d n { p with hdr := h }

/-- The NI sends the head of `TRSP`, else admits the head of `MREQ`, or the oldest request of the hub NI's
client (R109, R110, R76); while it is looped both stay within it (R420). -/
def execBeRequestIssue (i : NiId) (s : State) : Host.Outcome State Fault Refusal :=
  let d := i.die
  let n := i.ni
  let x := s.ni d n
  let looped := s.bit (aNI_CTRL d n) fNI_CTRL_LOOP
  if !s.niLive d n then .next s
  else
    match firstPacket (x.avail 3) [] with
    | some (h :: r, _) => .next ((s.setNi d n (x.pop 3 s.now (1 + r.length))).issueRsp d n h r)
    | _ =>
      match firstPacket (x.avail 0) [] with
      | some (h :: r, _) =>
        let p : Packet := { hdr := h, data := r }
        if !s.canAdmit d n h then .next s
        else if looped then
          if !s.treqRoom d n p then .next s else .next ((s.setNi d n (x.pop 0 s.now (1 + r.length))).loopReq d n p)
        else if !s.niAccepts d n then .next s
        else .next ((s.setNi d n (x.pop 0 s.now (1 + r.length))).admitPkt d n p (if d = 7 then 0x10 else 0) none)
      | _ =>
        match x.clientQ with
        | [] => .next s
        | q :: rest =>
          if s.niAccepts d n && s.canAdmit d n q.pkt.hdr then
            .next ((s.setNi d n { x with clientQ := rest }).admitPkt d n q.pkt q.master (some q.origin))
          else .next s

/-! ### Hops (R103 to R108) -/

/-- Output that a header's route asks for: its next code, or what `EXIT` names (R77). -/
def beOut (h : BitVec 256) : Nat :=
  if hget h 3 26 22 ≠ 0 then hHops h % 4
  else if hget h 3 28 27 = 0 then 4 else 5

/-- Output that a waiting header asks for: from the stage of A the grid, from a torus port's side input the router's NI, whose table routes
it onward (R95). -/
def BeItem.wants (x : BeItem) : Nat := if x.d = 7 then 5 else if x.inp = 5 ∧ x.raw then 4 else beOut x.pkt.hdr

/-- Class of a header in arbitration: an aged one counts as BE3 (R107, R108). -/
def beRank (x : BeItem) : Nat := if x.aged then 3 else hPri x.pkt.hdr

/-- Where a hop through an output leads: die, router, input, the way, and the ticks until the flit is there. Wrap stages are places of
their own, on die 8; the packets of A enter the grid at router (4, 0) (R54, R72, R104). -/
def downstream (d n out : Nat) : Nat × Nat × Nat × Option Via × Nat :=
  let of (l : Loc × Nat) : Nat × Nat × Nat × Option Via × Nat :=
    match l with
    | (.router d' n' inp v, t) => (d', n', inp, v, t)
    | (.stage line up b, t) => (8, stageNum line up, 0, some (.link b), t)
    | _ => (d, n, 6, none, 2)
  if d = 8 then
    let line := n / 2
    let up := n % 2 == 1
    if hubLine line then ((nodeAt line 0).1, (nodeAt line (if up then 23 else 0)).2, if up then 1 else 3, none, 2)
    else of (stageExit line up)
  else if d = 7 then (6, 0, 5, some (.link (ra 7 0 0x140)), 8)
  else if out = 4 then (d, n, 6, none, 2)
  else if out = 5 then (7, 0, 6, some (.link (ra 7 0 0x100)), 8)
  else
    let (r, c) := rcOf d n
    if hubLine r && ((out == 1 && c == 23) || (out == 3 && c == 0)) then (8, stageNum r (out == 3), 0, none, 2)
    else of (hopFrom r c out)

/-- The departure continues a ring or sinks (R106): within the grid it keeps its direction, at a stage always; from A it sinks; through
a torus port it leaves in the dimension and direction in which it came over the opposite one. -/
def continues (x : BeItem) (out : Nat) : Bool :=
  x.d == 7 || x.d == 8 || out == 4 || (out == 5 && x.d == 6 && x.n == 0) || (out < 4 && x.inp == (out + 2) % 4)
/-- A header that leaves through torus port p continues its dimension (R106). -/
def continuesTorus (x : BeItem) (p : Nat) : Bool := x.port == some (if p % 2 = 0 then p + 1 else p - 1)

/-- Places a departing packet takes: ordinary and reserved; none when too few are free. A packet that enters a ring leaves nine more
free; a spill packet leaves on reserved places alone too, which only spill packets hold (R105, R106, R122). -/
def State.takePlaces (s : State) (x : BeItem) (out : Nat) : Option (Nat × Nat) :=
  let n := x.len
  let (d', n', inp, _, _) := downstream x.d x.n out
  let ord := s.freeOrd d' n' inp x.vc
  let rsv := if hSpill x.pkt.hdr && x.vc == 0 then s.freeRsv d' n' inp x.vc else 0
  let need := if continues x out then n else n + 9
  if n ≤ rsv then some (0, n) else if need ≤ ord + rsv then some (n - rsv, rsv) else none

/-- Of two headers for one output, the one served first: higher class, then round-robin after the input served last. -/
def beBefore (last : Nat) (x y : BeItem) : Bool :=
  let turn (z : BeItem) := (z.inp + 12 - last - 1) % 6
  decide (beRank y < beRank x) || (beRank x == beRank y && decide (turn x < turn y))

/-- The oldest of each input (R109). -/
def oldestPer : List Nat → List BeItem → List BeItem
  | _, [] => []
  | seen, x :: r => if seen.contains x.inp then oldestPer seen r else x :: oldestPer (x.inp :: seen) r

/-- The header that wins an output among those that wait for it; only the oldest of an input competes, so that packets of one path
keep their order (R107, R109). -/
def beWinner (last : Nat) (xs : List BeItem) : Option BeItem :=
  (oldestPer [] xs).foldl (fun best x =>
    match best with
    | none => some x
    | some b => if beBefore last x b then some x else best) none

/-- Torus port p carries best-effort flits: in `LINK`, `SCHED` or `HALF` with both ends verified (R171). -/
def State.portCarriesBe (s : State) (p : Nat) : Bool :=
  let st := s.tpState p
  (st == 6 || st == 7 || st == 8) && s.bit (aTP_STATUS p) fTP_STATUS_VERIFIED && (s.port p).farFlags.toNat.testBit 7

/-- The hub NI answers what is routed to port p: `UNVERIFIED` at either end, or the port being disabled (R171, R180). -/
def State.portRefusesBe (s : State) (p : Nat) : Bool :=
  let st := s.tpState p
  st == 5 || (s.port p).disStep != 0 || s.bit (aTP_STATUS p) fTP_STATUS_DRAINED ||
    ((st == 6 || st == 7 || st == 8) && !(s.bit (aTP_STATUS p) fTP_STATUS_VERIFIED && (s.port p).farFlags.toNat.testBit 7))

/-! ### The flits of an output (R74, R103, R107, R108) -/

/-- Key of an output. -/
def outKey (d n out : Nat) : Nat := niKey d n * 8 + out
/-- A flit of any class has left the output on this tick. -/
def State.outUsed (s : State) (d n out : Nat) : Bool := tget (fun _ => 0) s.be.lastOut (outKey d n out) == s.now + 1
/-- An output's tick is taken. -/
def State.useOut (s : State) (d n out : Nat) : State :=
  { s with be := { s.be with lastOut := tput (fun _ => 0) s.be.lastOut (outKey d n out) (s.now + 1) } }

/-- Marker-bearing entries of a receive side at this router apply on this tick and the side is in breach: its outputs (R58). -/
def State.markerOuts (s : State) (d n : Nat) (v : Via) (tsel : Nat) : List Nat :=
  match s.viaCause v s.now with
  | none => []
  | some _ =>
    [s.actBank, s.shBank].flatMap (fun b =>
      ((s.psTable b d n tsel).filter (fun e => s.entryApplies b e.2 s.tickN)).map (fun e =>
        ew (s.ps b d n 2 (ew e.2 0 27 16)) 0 2 0))
/-- The receive sides of a router: how flits come, and their crossing tables. -/
def routerSides (d n : Nat) : List (Via × Nat) :=
  let (r, c) := rcOf d n
  let links := [0, 1, 2, 3].filterMap (fun out =>
    -- the link into input `out` comes from the neighbour on that side
    match hopFrom r c out with
    | (.router d' n' inp (some (.link _)), _) =>
      (match hopFrom (rcOf d' n').1 (rcOf d' n').2 inp with
       | (.router _ _ _ (some (.link b)), _) => some (Via.link b, 3 + out)
       | _ => none)
    | (.stage line up _, _) =>
      (match stageExit line (!up) with
       | (.router _ _ _ (some (.link b)), _) => some (Via.link b, 3 + out)
       | _ => none)
    | _ => none)
  if d = 6 then
    match sidePortOf n with
    | some p => links ++ [(.port p, 7)]
    | none => if n = 0 then links ++ [(.link (ra 7 0 0x140), 7)] else links
  else links

/-- A scheduled flit or marker is to leave the output on this tick (R74): one that stands at the router or stage, a marker of a
receive side, or the NI's own injection. -/
def State.schedOn (s : State) (d n out : Nat) : Bool :=
  if d = 8 then
    s.pat.flight.any (fun i => i.due == s.now && (match i.loc with
      | .stage line up _ => stageNum line up == n
      | _ => false))
  else if d = 7 then s.injectsNow 7 0
  else
    s.pat.flight.any (fun i => i.due == s.now && (match i.loc with
      | .router d' n' _ _ => d' == d && n' == n && ew (s.ps (if i.flit.bank then 1 else 0) d n 2 i.flit.flow) 0 2 0 == out
      | _ => false)) ||
    (routerSides d n).any (fun v => (s.markerOuts d n v.1 v.2).contains out)

/-- The link of a hop passes a best-effort flit now: in `RUN` with its credits resynchronised, and below width 4 with a position of
the forming frame free (R135, R143). -/
def State.linkTakes (s : State) (v : Option Via) : Bool :=
  match v with
  | some (.link b) =>
    let w := maskWidth (s.fld (aLM_STATUS b) fLM_STATUS_MASK)
    let x := s.lm b
    s.lmState b == 6 && x.resynced && (w == 4 || decide ((if x.txFrame = s.tickN / 4 then x.txCount else 0) < w))
  | _ => true

/-- The ticks a flit takes over a hop, and the forming frame with it: at widths 1 to 3 it leaves the first receiving router 8 to 16
ticks after the sending one, a free number in that range (R135, log entry 138). -/
def State.crossLink (s : State) (v : Option Via) (t : Nat) : Nat × State :=
  match v with
  | some (.link b) =>
    if maskWidth (s.fld (aLM_STATUS b) fLM_STATUS_MASK) = 4 then (t, s)
    else
      let x := s.lm b
      let c := if x.txFrame = s.tickN / 4 then x.txCount else 0
      let s := s.setLm b { x with txFrame := s.tickN / 4, txCount := c + 1 }
      let (r, s) := s.fresh 8
      (8 + r.toNat % 9, s)
  | _ => (t, s)

/-- An output, and for a packet at its own NI the NI, has no scheduled flit on this tick and has not been used on it (R74, R108). -/
def State.outFree (s : State) (x : BeItem) (out : Nat) : Bool :=
  !s.outUsed x.d x.n out && !s.schedOn x.d x.n out &&
    (x.inp != 4 || !(s.outUsed x.d x.n 6 || s.injectsNow x.d x.n))

/-- The next flit of a packet that holds an output leaves through it: it frees its place, is on its way to the next place, and the
output is free again after the last (R103). -/
def State.moveFlit (s : State) (x : BeItem) (out : Nat) : State :=
  let (d', n', inp, via, t) := downstream x.d x.n out
  let s := (s.freePlaces x x.gone 1).useOut x.d x.n out
  let (t, s) := s.crossLink via t
  let s := match s.be.items.find? (fun y => y.d == d' && y.n == n' && y.inp == inp && y.vc == x.vc && decide (y.comes.length < y.len)) with
    | some y => s.putItem y { y with comes := y.comes ++ [max (s.now + t) (y.comes.getLastD 0 + 1)] }
    | none => s
  if x.gone + 1 = x.len then s.dropItem x else s.putItem x { x with gone := x.gone + 1, out := some out }

/-- The packet that holds an output's VC. -/
def State.holder (s : State) (d n out vc : Nat) : Option BeItem :=
  s.be.items.find? (fun x => x.d == d && x.n == n && x.out == some out && x.vc == vc)
/-- A packet that holds an output can send its next flit on this tick. -/
def State.canMove (s : State) (x : BeItem) (out : Nat) : Bool :=
  x.has x.gone s.now && s.outFree x out && s.linkTakes (downstream x.d x.n out).2.2.2.1

/-- The header of x leaves through an output: the places of its packet are charged, and the packet holds the output's VC (R103). -/
def State.startHop (s : State) (x : BeItem) (out ord rsv : Nat) : State :=
  let (d', n', inp, via, _) := downstream x.d x.n out
  let h := if out < 4 ∧ x.d < 7 then hShift x.pkt.hdr else x.pkt.hdr
  let y : BeItem := { pkt := { x.pkt with hdr := h }, d := d', n := n', inp := inp, rsv := rsv, comes := [], gone := 0, out := none
                      via := via, port := x.port, raw := x.raw, aged := false, own := x.own }
  let edge := match via with
    | some (.link _) => true
    | _ => false
  ((s.charge d' n' inp x.vc ord rsv edge).addItem y).moveFlit x out

/-- A packet starts through torus port p: its places at the far side input are charged, and it holds the output until its last position
has been sent (R104, R162, R164). -/
def State.startPort (s : State) (p : Nat) (x : BeItem) : State :=
  let y := s.port p
  let s := s.setPort p { y with sentReq := if x.vc = 0 then y.sentReq + x.len else y.sentReq
                                sentRsp := if x.vc = 0 then y.sentRsp else y.sentRsp + x.len }
  s.putItem x { x with out := some 5 }
/-- The far side input has places for a packet: reserved ones for spill alone, nine more where it enters the dimension's ring (R104 to
R106). -/
def State.portRoom (s : State) (p : Nat) (x : BeItem) : Bool :=
  let y := s.port p
  let used := if x.vc = 0 then y.sentReq else y.sentRsp
  let spill := hSpill x.pkt.hdr && x.vc == 0
  let room := (if x.vc = 0 ∧ !spill then 1015 else 1024) - used
  if spill ∨ continuesTorus x p then decide (x.len ≤ room) else decide (x.len + 9 ≤ room)

/-- A best-effort position goes out on port p, where a packet is being sent and the send tick is free: the start position, then a flit
a position (R161, R164, R165). -/
def State.portBe (s : State) (p : Nat) : State :=
  let held := [0, 1].filterMap (fun vc => s.holder 6 (portRouter p) 5 vc)
  match held.head? with
  | none => s
  | some x =>
    let u := s.tickN
    if !s.portCarriesBe p || !s.slotFree p u then s
    else
      let y := s.port p
      if !y.startSent then
        let g : Packet := { x.pkt with hdr := hSent x.pkt.hdr p }
        ((s.setPort p { y with startSent := true }).putItem x { x with pkt := g }).sendPos p (startPos u g) 0
      else
        let t := (s.freePlaces x x.gone 1).sendPos p (flitPos u ((x.pkt.hdr :: x.pkt.data).getD x.gone 0)) 0
        if x.gone + 1 = x.len then (t.setPort p { t.port p with startSent := false }).dropItem x
        else t.putItem x { x with gone := x.gone + 1 }

/-- A port that trains or goes down gives up the packet it was sending, whose rest is lost with it; a packet that has not started waits
again (R112, R164). -/
def State.portCut (s : State) (p : Nat) : State :=
  let cut := (s.port p).startSent
  ([0, 1].filterMap (fun vc => s.holder 6 (portRouter p) 5 vc)).foldl (fun t x =>
    if cut then t.freeItem x else t.putItem x { x with out := none }) s

/-- Something waits for port p to send: a packet, a remote packet or stream words (R159). -/
def State.portBusy (s : State) (p : Nat) : Bool :=
  let y := s.port p
  s.be.items.any (fun x => x.d == 6 && x.n == portRouter p && x.inp < 6 && (x.out == some 5 || (x.waits s.now && x.wants == 5))) ||
    !y.remoteQ.isEmpty || y.remoteOut.isSome || !y.sendBuf.isEmpty

/-- The winner of an output among the headers that wait there; where its places are not free, a spill packet that has its own (R105,
R107, R122). -/
def State.pickHop (s : State) (last out : Nat) (xs : List BeItem) : Option (BeItem × Nat × Nat) :=
  let can (x : Option BeItem) : Option (BeItem × Nat × Nat) := x.bind (fun x => (s.takePlaces x out).map (fun q => (x, q.1, q.2)))
  (can (beWinner last xs)).orElse (fun _ => can (beWinner last (xs.filter (fun x => hSpill x.pkt.hdr && x.vc == 0))))

/-- Router n of die d, or the stage of A, forwards the winning header of a VC through an output, and the packet's other flits follow on
the output's next free ticks (R103 to R107). -/
def execBeHop (i : NiId) (out : Fin 6) (vc : Fin 2) (s : State) : Host.Outcome State Fault Refusal :=
  let d := i.die
  let n := i.ni
  let hk := outKey d n out.val * 2 + vc.val
  let waiting := s.be.items.filter (fun x =>
    x.d == d && x.n == n && x.inp < 6 && x.vc == vc.val && x.wants == out.val && x.waits s.now)
  let last := tget (fun _ => 5) s.be.lastIn hk
  let served (x : BeItem) (t : State) : State := { t with be := { t.be with lastIn := tput (fun _ => 5) t.be.lastIn hk x.inp } }
  if !s.niLive d n || (s.holder d n out.val vc.val).isSome then .next s
  else
    match (if out.val = 5 ∧ d = 6 then sidePortOf n else none) with
    | some p =>
      match beWinner last waiting with
      | none => .next s
      | some x =>
        if s.portRefusesBe p then
          let t := s.freeItem x
          .next (if vc.val = 0 ∧ hType x.pkt.hdr ≠ 4 then t.respond 6 n x.pkt.hdr x.own 1 [] else t)
        else if s.portCarriesBe p && x.whole s.now && s.portRoom p x && (s.holder d n 5 (1 - vc.val)).isNone then
          .next (served x (s.startPort p x))
        else .next s
    | none =>
      if out.val = 5 ∧ d ≠ 7 ∧ ¬ (d = 6 ∧ n = 0) then .next s
      else if vc.val = 0 && (s.holder d n out.val 1).any (fun y => s.canMove y out.val) then .next s
      else
        match s.pickHop last out.val waiting with
        | none => .next s
        | some (x, ord, rsv) =>
          if s.outFree x out.val && s.linkTakes (downstream d n out.val).2.2.2.1 then
            .next (served x (s.startHop x out.val ord rsv))
          else .next s

/-- Wrap stages pass headers on as they come, without arbitration (R72): a header that waits at a stage goes when its output's VC and its
places are free. -/
def State.stageHop (s : State) (n vc : Nat) : State :=
  if (s.holder 8 n 0 vc).isSome then s
  else
    match s.be.items.find? (fun x => x.d == 8 && x.n == n && x.vc == vc && x.waits s.now) with
    | none => s
    | some x =>
      match s.takePlaces x 0 with
      | none => s
      | some (ord, rsv) =>
        if s.outFree x 0 && s.linkTakes (downstream 8 n 0).2.2.2.1 then s.startHop x 0 ord rsv else s

/-- What the best-effort class does on a tick: responses before requests, every packet that holds an output sends its next flit where
the tick is free (R103, R107); headers pass the wrap stages. -/
def State.beTick (s : State) : State :=
  let keys (s : State) (vc : Nat) : List (Nat × Nat × Nat) :=
    s.be.items.filterMap (fun x => if x.vc = vc ∧ (x.out = some 5 → ¬ (x.d = 6 ∧ (sidePortOf x.n).isSome)) then
      x.out.map (fun o => (x.d, x.n, o)) else none)
  let step (vc : Nat) (t : State) : State := (keys t vc).foldl (fun t (d, n, o) =>
    match t.holder d n o vc with
    | some x => if t.canMove x o then t.moveFlit x o else t
    | none => t) t
  let t := step 0 (step 1 s)
  let stages := (t.be.items.filter (fun x => x.d == 8 && x.out.isNone)).map (fun x => (x.n, x.vc))
  stages.foldl (fun t e => t.stageHop e.1 e.2) t

/-- A header at an input of router n has waited `BE_CFG.AGE` ticks (R108). -/
def execHeaderAged (i : NiId) (input : Fin 7) (s : State) : Host.Outcome State Fault Refusal :=
  let age := s.fld (aBE_CFG i.die i.ni) fBE_CFG_AGE
  let hit (x : BeItem) : Bool := x.d == i.die && x.n == i.ni && x.inp == input.val && x.waits s.now && decide (x.landAt + age ≤ s.now)
  if s.niLive i.die i.ni && age != 0 then
    .next { s with be := { s.be with items := s.be.items.map (fun x => if hit x then { x with aged := true } else x) } }
  else .next s

/-- A header has not moved for `STALL` × 4,096 ticks (R121). -/
def execStallDetect (i : NiId) (s : State) : Host.Outcome State Fault Refusal :=
  let lim := s.fld (aBE_TMO i.die i.ni) fBE_TMO_STALL
  if s.niLive i.die i.ni && lim != 0 &&
      s.be.items.any (fun x => x.d == i.die && x.n == i.ni && x.waits s.now && decide (x.landAt + 4096 * lim ≤ s.now)) then
    .next (s.beFlag i.die i.ni fBE_FLAG_STALL)
  else .next s

/-- A hub target answers a request: a response packet from its NI, the response to a hub client, or to the requester inside
the hub (R91, R112). -/
def State.answerReq (s : State) (r : MemReq) (status : Nat) (data : List Byte) : State :=
  let data := if status = 0 ∧ !r.write then data else []
  match r.origin with
  | .packet n h own => s.respond 6 n h own status data
  | .client n tag =>
    match (s.ni 6 n).outst.find? (fun o => o.tag == tag) with
    | none => s.beFlag 6 n fBE_FLAG_LATE_RSP
    | some o =>
      let t := s.release 6 n tag
      match o.client with
      | none => t
      | some .outside => t
      | some c => { t with rsps := t.rsps ++ [{ origin := c, status := status, addr := r.addr, data := data }] }
  | .outside => s
  | .errorLog _ => s
  | o => { s with rsps := s.rsps ++ [{ origin := o, status := status, addr := r.addr, data := data }] }

/-- What a hub client asked through hub NI n has nobody to take it any more: queued requests go, responses will be discarded
(R253, R270). -/
def State.disown (s : State) (n : Nat) (gone : Origin → Bool) : State :=
  let y := s.ni 6 n
  let s := s.setNi 6 n
    { y with clientQ := y.clientQ.filter (fun q => !gone q.origin)
             outst := y.outst.map (fun o => { o with client := o.client.map (fun c => if gone c then .outside else c) }) }
  { s with rsps := s.rsps.filter (fun r => !gone r.origin) }

/-! ### Arrival -/

/-- The oldest packet of a VC that is whole at an NI's ejection input. -/
def State.ejected (s : State) (d n vc : Nat) : Option BeItem :=
  s.be.items.find? (fun x => x.d == d && x.n == n && x.inp == 6 && x.vc == vc && x.whole s.now)
/-- A header of a VC waits in an NI's ejection input. -/
def State.headerWaits (s : State) (d n vc : Nat) : Bool :=
  s.be.items.any (fun x => x.d == d && x.n == n && x.inp == 6 && x.vc == vc && x.waits s.now)
/-- A packet of a die's event collector for the bridge (R379, R380). -/
def isCollectorMsg (d : Nat) (h : BitVec 256) : Bool :=
  d == 6 && hType h == 4 && classOf (hAddr h % 2 ^ 48) == .bridge && !(hAddr h).testBit 15

/-- A header's remaining counts name a next torus port (R95). -/
def nextPort (h : BitVec 256) : Option Nat := firstMove (hDx h) (hDy h) (hDz h) (hget h 3 21 19)

/-- A packet that came over a torus port is routed onward from the hub NI's own table, or found to be for this NI (R95). -/
def State.onward (s : State) (n : Nat) (h : BitVec 256) : Route :=
  match nextPort h with
  | some p =>
    let e := s.routeEntry 6 n (592 + p)
    if routeUsable e then .to (hRoute h e true) else .err (some fNI_ERR_ROUTE_MISS)
  | none =>
    let req := hVc h = 0
    if req ∧ classOf (hAddr h % 2 ^ 48) = .control then .err (some fNI_ERR_CTRL_SPACE)
    else
      let idx := if req then routeIndex (hAddr h % 2 ^ 48) (hType h == 4)
        else some (responseIndex (hget h 2 24 22) (hget h 2 21 16))
      match idx with
      | none => .err none
      | some i =>
        let e := s.routeEntry 6 n i
        if routeUsable e && ew e 0 22 21 != 1 then .to (hRoute (if req then hset h 0 21 14 (0x10 + n) else h) e true)
        else .err (some fNI_ERR_ROUTE_MISS)

/-- Deliver a request to the hub targets behind hub NI n (R75, R76, R17): a memory request, a message for the bridge, or
bus error for a decode hole. -/
def State.toHubTarget (s : State) (n : Nat) (x : BeItem) : State :=
  let h := x.pkt.hdr
  let a := hAddr h % 2 ^ 48
  let cls := classOf a
  if hType h = 4 then
    if cls = .bridge then
      let m : EvMsg :=
        { addr := BitVec.ofNat 64 (hAddr h), srcDev := BitVec.ofNat 16 (hget h 1 15 0), srcDie := hget h 1 24 22, pri := hPri h }
      { s with ev := { s.ev with flight := s.ev.flight ++ [m] } }
    else s
  else if memClass cls then { s with mq := s.mq ++ [s.memReqOf x.pkt (0x10 + n) (.packet n h x.own)] }
  else s.respond 6 n h x.own 1 []

/-- A request packet at the ejection input of NI n of die d is taken (R90, R95, R123, R379); one that finds `TREQ` without room waits,
or is spilled. -/
def execBePacketArrive (i : NiId) (s : State) : Host.Outcome State Fault Refusal :=
  let d := i.die
  let n := i.ni
  if !niExists d n || s.inReset d || !s.runs then .next s
  else
    match s.ejected d n 0 with
    | none => .next s
    | some x =>
      let h := x.pkt.hdr
      let t := s.freeItem x
      if !hFormOk h || hNdata h != x.pkt.data.length then .next (t.niErr d n fNI_ERR_BAD_TYPE)
      else if !s.niAccepts d n && !isCollectorMsg d h then
        .next (if hType h = 4 then t else t.respond d n h x.own 1 [])
      else if d = 6 ∧ x.raw then
        match s.onward n h with
        | .to h' => .next (t.injectFrom 6 n { x.pkt with hdr := h' } x.own x.port)
        | .err f =>
          let t := if hType h = 4 then t else t.respond 6 n h x.own 1 []
          match f with
          | some f => .next (t.niErr 6 n f)
          | none => .next t
      else if d = 6 then .next (t.toHubTarget n x)
      else if d = 7 then .next (if hType h = 4 then t else t.respond d n h x.own 1 [])
      else if s.bit (aSP_STAT d n) fSP_STAT_SPILLING then .next s
      else if s.treqRoom d n x.pkt then .next (t.toTreq d n x.pkt)
      else .next s

/-- A response packet at the ejection input of NI n of die d reaches its requester, or is discarded as late (R112). -/
def execBeResponseArrive (i : NiId) (s : State) : Host.Outcome State Fault Refusal :=
  let d := i.die
  let n := i.ni
  if !niExists d n || s.inReset d || !s.runs then .next s
  else
    match s.ejected d n 1 with
    | none => .next s
    | some x =>
      let h := x.pkt.hdr
      let t := s.freeItem x
      if !hFormOk h || hNdata h != x.pkt.data.length then .next (t.niErr d n fNI_ERR_BAD_TYPE)
      else if d = 6 ∧ x.raw then
        match s.onward n h with
        | .to h' => .next (t.injectFrom 6 n { x.pkt with hdr := h' } x.own x.port)
        | .err f => match f with
          | some f => .next (t.niErr 6 n f)
          | none => .next t
      else
        let y := t.ni d n
        match x.own with
        | 1 => .next (t.setNi d n { y with spillRsp := y.spillRsp ++ [(hTag h, hget h 6 19 17)] })
        | 2 =>
          let got := (y.replay.getD []) ++ flitBytes 0 256 x.pkt.data
          .next (t.setNi d n { y with replay := some got, replayStatus := hget h 6 19 17, replayRead := y.replayRead + 1 })
        | _ =>
          match y.outst.find? (fun o => o.tag == hTag h) with
          | none => .next (t.beFlag d n fBE_FLAG_LATE_RSP)
          | some o => .next ((t.release d n o.tag).deliverRsp d n o x.pkt)

/-- `TREQ` has been `FULL` since a tick with a request header in the ejection input, or is not now (R113). -/
def State.fullTick (s : State) (d n : Nat) : State :=
  let x := s.ni d n
  let now' := s.bit (aSP_CTRL d n) fSP_CTRL_EN && x.full 2 && s.headerWaits d n 0
  if now' ∧ x.fullSince.isNone then s.setNi d n { x with fullSince := some s.now }
  else if !now' ∧ x.fullSince.isSome then s.setNi d n { x with fullSince := none } else s

/-- What the interfaces do on a tick: their FIFO pointers cross, and a full `TREQ` is timed (R98, R113). -/
def State.niTick (s : State) : State :=
  (s.nis.map (fun e => e.1)).foldl (fun t k => (t.fifoCross (k / 64) (k % 64)).fullTick (k / 64) (k % 64)) s

/-- A tracked request reaches its timeout (R112): a response with status 0b010, the reservation and the tag released. -/
def execBeTimeout (i : NiId) (tag : BitVec 10) (s : State) : Host.Outcome State Fault Refusal :=
  let d := i.die
  let n := i.ni
  match (s.ni d n).outst.find? (fun o => o.tag == tag.toNat) with
  | none => .next s
  | some o =>
    match o.deadline with
    | some t =>
      if s.niLive d n && decide (t ≤ s.now) then
        .next (((s.release d n o.tag).deliverRsp d n o (localRsp o.hdr 2)).beFlag d n fBE_FLAG_TIMEOUT)
      else .next s
    | none => .next s

end Sys2Proof.Machine
end

