-- ==== Sys2Proof/Machine/Spill.lean ====
section
/-! DEFINITION. Spill and replay (R113 to R119), and the disable, forced disable, drain, enable and loop of an NI (R123 to R125,
R420). -/

namespace Sys2Proof.Machine

/-! ### Spill region -/

/-- Base of the spill region as a local address (`SP_BASE`). -/
def State.spBase (s : State) (d n : Nat) : Nat :=
  s.fld (aSP_BASE_LO d n) fSP_BASE_LO_BASE * 512 + 4294967296 * s.fld (aSP_BASE_HI d n) fSP_BASE_HI_BASE
/-- Records held (`SP_STAT.COUNT`). -/
def State.spCount (s : State) (d n : Nat) : Nat := s.fld (aSP_STAT d n) fSP_STAT_COUNT
/-- Region size in records. -/
def State.spSize (s : State) (d n : Nat) : Nat := s.fld (aSP_SIZE d n) fSP_SIZE_RECORDS

/-- The region lies within the DRAM range, with bits [39:36] of its addresses zero (R117). -/
def State.spRegionOk (s : State) (d n : Nat) : Bool :=
  let first := s.spBase d n
  let last := first + 512 * s.spSize d n - 1
  s.spSize d n != 0 && decide (last < 0x100000000000) && bitsOf first 39 36 == 0 && bitsOf last 39 36 == 0 &&
    first / 2 ^ 40 == last / 2 ^ 40

/-- A write of `SP_CTRL` (R117, R119): the write that sets `EN` zeroes `SP_RP` and the record sequence, the one that clears
it clears `BROKEN`. -/
def spCtrlWrite (d n : Nat) (v : W32) (s : State) : Answer :=
  let new := getB v fSP_CTRL_EN
  let old := s.bit (aSP_CTRL d n) fSP_CTRL_EN
  if new && !s.spRegionOk d n then refuse s
  else if !new && old && s.spCount d n != 0 then refuse s
  else
    let t := s.setBit (aSP_CTRL d n) fSP_CTRL_EN new
    if new && !old then
      let t := t.setFld (aSP_RP d n) fSP_RP_RP 0
      wrote (t.setNi d n { t.ni d n with spillSeq := 0 })
    else if !new then wrote (t.setBit (aSP_STAT d n) fSP_STAT_BROKEN false)
    else wrote t

/-- Writes of the region's base and size are refused while `EN` is 1 (R117). -/
def spRegionWrite (a d n : Nat) (v : W32) (s : State) : Answer :=
  if s.bit (aSP_CTRL d n) fSP_CTRL_EN then refuse s else wrote (s.plainWrite a v)

/-- `SP_CTRL` written by master m. -/
def execSpillEnable (m : Rm) (i : NiId) (v : W32) (s : State) : Host.Outcome State Fault Refusal :=
  if niExists i.die i.ni then .next (ringPut m (aSP_CTRL i.die i.ni) v (spCtrlWrite i.die i.ni v) s) else .next s

/-- `TREQ` has stayed `FULL` with a header waiting for `SPILL_THR` ticks, at least 16 (R113). -/
def execSpillStart (i : NiId) (s : State) : Host.Outcome State Fault Refusal :=
  let d := i.die
  let n := i.ni
  let thr := max 16 (s.fld (aBE_CFG d n) fBE_CFG_SPILL_THR)
  match (s.ni d n).fullSince with
  | some t =>
    if s.niLive d n && s.bit (aSP_CTRL d n) fSP_CTRL_EN && !s.bit (aSP_STAT d n) fSP_STAT_BROKEN &&
        !s.bit (aSP_STAT d n) fSP_STAT_SPILLING && (s.ni d n).full 2 && s.headerWaits d n 0 && decide (t + thr ≤ s.now) then
      .next ((s.setBit (aSP_STAT d n) fSP_STAT_SPILLING true).beFlag d n fBE_FLAG_SPILL_START)
    else .next s
  | none => .next s

/-- The 512 bytes of a record (R115): line 0 with header, arrival tick, sequence number, flit count and CRC; line 1 with
the data flits. -/
def recordBytes (p : Packet) (tick seq : Nat) : List Byte :=
  let line1 := (p.data.flatMap (fun f => natLe 32 f.toNat) ++ List.replicate 256 0#8).take 256
  let head := natLe 32 p.hdr.toNat ++ natLe 8 tick ++ natLe 4 seq ++ natLe 1 p.data.length ++ [0#8, 0#8, 0#8]
  let crc := crc32 (head ++ line1)
  head ++ natLe 4 crc.toNat ++ List.replicate 204 0#8 ++ line1

/-- A spill or replay request of an NI for one DRAM line of its region, with `SPILL` for writes (R114, R116). -/
def State.spillRequest (s : State) (d n : Nat) (addr tag own : Nat) (line : List Byte) : State :=
  let h0 : BitVec 256 := hset (hset 0 0 3 0 (if own = 1 then 1 else 0)) 0 31 22 tag
  let h1 := hset (hset h0 0 5 4 3) 0 9 6 (if own = 1 then 8 else 0)
  let h2 := hset (hset h1 4 31 0 addr) 5 31 0 (s.devId * 65536 + addr / 4294967296)
  let h3 := s.fillHdr d n 0 (hset (hset h2 6 7 0 0) 6 16 8 256)
  let h := if own = 1 then hset h3 6 21 21 1 else h3
  match s.routeRequest d n h with
  | .to h => s.inject d n { hdr := h, data := if own = 1 then lineFlits 0 line else [] } own
  | .err _ =>
    let x := s.ni d n
    if own = 1 then s.setNi d n { x with spillRsp := x.spillRsp ++ [(tag, 1)] }
    else s.setNi d n { x with replayStatus := 1, replayRead := x.replayRead + 1 }

/-- The oldest request at the ejection input of a spilling NI becomes a record, at the index that `SP_RP` and `COUNT` give: line 1 is
written first. One record is written at a time, so that its index stays the next one (R113, R115, R116, R118; DESIGN CHOICE, safe, log
entry 139). A disabling NI answers in place of spilling (R123). -/
def execSpillRecordWrite (i : NiId) (s : State) : Host.Outcome State Fault Refusal :=
  let d := i.die
  let n := i.ni
  let x := s.ni d n
  match s.ejected d n 0 with
  | none => .next s
  | some it =>
    if !s.niLive d n || !s.niAccepts d n || !s.bit (aSP_STAT d n) fSP_STAT_SPILLING || s.bit (aSP_STAT d n) fSP_STAT_BROKEN ||
        decide (s.spSize d n ≤ s.spCount d n) || !x.spillHeld.isEmpty then .next s
    else if !hFormOk it.pkt.hdr || hNdata it.pkt.hdr != it.pkt.data.length then
      .next ((s.freeItem it).niErr d n fNI_ERR_BAD_TYPE)
    else
      let idx := (s.fld (aSP_RP d n) fSP_RP_RP + s.spCount d n) % s.spSize d n
      let held : SpillHeld := { pkt := it.pkt, index := idx, tick := s.tickN - (s.now - it.landAt), seq := x.spillSeq, step := 0 }
      let t := (s.freeItem it).setNi d n { x with spillSeq := (x.spillSeq + 1) % 4294967296, spillHeld := [held] }
      let bs := recordBytes held.pkt held.tick held.seq
      .next (t.spillRequest d n (s.spBase d n + 512 * idx + 256) (2 * (idx % 512) + 1) 1 (bs.drop 256))

/-- A spill write is answered: line 0 follows line 1, and the record counts as held with line 0 written; an error answers the packet's
requester and ends spilling (R115, R118, R119). -/
def execSpillWriteResponse (i : NiId) (s : State) : Host.Outcome State Fault Refusal :=
  let d := i.die
  let n := i.ni
  let x := s.ni d n
  match (if niExists d n then x.spillRsp else []) with
  | [] => .next s
  | (_, status) :: rest =>
    let t := s.setNi d n { x with spillRsp := rest }
    match x.spillHeld with
    | [] => .next t
    | h :: _ =>
      let dropped := t.setNi d n { t.ni d n with spillHeld := [] }
      if status ≠ 0 then
        let u := if hType h.pkt.hdr = 4 then dropped else dropped.respond d n h.pkt.hdr 0 1 []
        let u := (u.setBit (aSP_STAT d n) fSP_STAT_BROKEN true).setBit (aSP_STAT d n) fSP_STAT_SPILLING (s.spCount d n != 0)
        .next (u.beFlag d n fBE_FLAG_SPILL_ERR)
      else if h.step = 0 then
        let u := t.setNi d n { t.ni d n with spillHeld := [{ h with step := 1 }] }
        .next (u.spillRequest d n (s.spBase d n + 512 * h.index) (2 * (h.index % 512)) 1 ((recordBytes h.pkt h.tick h.seq).take 256))
      else
        let u := dropped.setFld (aSP_STAT d n) fSP_STAT_COUNT (s.spCount d n + 1)
        if s.spCount d n + 1 = s.spSize d n then
          .next ((u.setBit (aSP_STAT d n) fSP_STAT_FULL true).beFlag d n fBE_FLAG_SPILL_FULL)
        else .next u

/-- A forced disable answers what is spilled in place of replaying it (R124). -/
def State.niForced (s : State) (d n : Nat) : Bool :=
  (s.ni d n).disStep != 0 && s.bit (aNI_CTRL d n) fNI_CTRL_FORCE

/-- The record at `SP_RP` is read for replay: line 0 first (R114). -/
def execSpillReplay (i : NiId) (s : State) : Host.Outcome State Fault Refusal :=
  let d := i.die
  let n := i.ni
  let x := s.ni d n
  if s.niLive d n && s.spCount d n != 0 && x.replay.isNone &&
      (decide (x.held 2 + 9 ≤ 64) || s.niForced d n) then
    let a := s.spBase d n + 512 * s.fld (aSP_RP d n) fSP_RP_RP
    .next ((s.setNi d n { x with replay := some [], replayRead := 0, replayStatus := 0 }).spillRequest d n a 0x3FE 2 [])
  else .next s

/-- The replayed record is done: `SP_RP` and `COUNT` move, `FULL` clears, and spilling ends with the last one, no packet being
written (R113, R114, R118). -/
def State.replayDone (s : State) (d n : Nat) : State :=
  let c := s.spCount d n - 1
  let t := s.setFld (aSP_RP d n) fSP_RP_RP ((s.fld (aSP_RP d n) fSP_RP_RP + 1) % s.spSize d n)
  let t := (t.setFld (aSP_STAT d n) fSP_STAT_COUNT c).setBit (aSP_STAT d n) fSP_STAT_FULL false
  let x := t.ni d n
  let t := if c = 0 ∧ x.spillHeld = [] then t.setBit (aSP_STAT d n) fSP_STAT_SPILLING false else t
  t.setNi d n { x with replay := none, replayRead := 0 }

/-- A replay read returns (R114, R115, R119, R124): line 1 follows when the record holds data; a whole record enters `TREQ`,
a bad one is skipped. -/
def execReplayReadResponse (i : NiId) (s : State) : Host.Outcome State Fault Refusal :=
  let d := i.die
  let n := i.ni
  let x := s.ni d n
  match (if niExists d n then x.replay else none) with
  | none => .next s
  | some bs =>
    if x.replayRead = 0 then .next s
    else
      let hdr := BitVec.ofNat 256 (leNat (bs.take 32))
      let nd := (bs.getD 44 0).toNat
      if x.replayStatus ≠ 0 then .next ((s.replayDone d n).beFlag d n fBE_FLAG_SPILL_ERR)
      else if s.niForced d n then
        let t := s.replayDone d n
        .next (if hType hdr = 4 then t else t.respond d n hdr 0 4 [])
      else if nd ≠ 0 ∧ bs.length < 512 then
        let a := s.spBase d n + 512 * s.fld (aSP_RP d n) fSP_RP_RP + 256
        .next ((s.setNi d n { x with replayRead := 0 }).spillRequest d n a 0x3FE 2 [])
      else
        let line1 := if nd = 0 then List.replicate 256 0#8 else bs.drop 256
        let ok := crc32 (bs.take 48 ++ line1) == BitVec.ofNat 32 (leNat ((bs.drop 48).take 4))
        if !ok then .next ((s.replayDone d n).beFlag d n fBE_FLAG_SPILL_ERR)
        else
          let data := (List.range nd).map (fun j => BitVec.ofNat 256 (leNat ((line1.drop (32 * j)).take 32)))
          .next ((s.replayDone d n).toTreq d n { hdr := hdr, data := data })

/-! ### Disable and enable (R123 to R125, R420) -/

/-- Step 4 of a disable: `DRAINED`, its flag, and `EN` cleared (R123). -/
def State.niDisabled (s : State) (d n : Nat) : State :=
  let x := s.ni d n
  let t := s.setNi d n { x with disStep := 0 }
  let t := (t.setBit (aNI_STATUS d n) fNI_STATUS_DRAINED true).setBit (aNI_CTRL d n) fNI_CTRL_EN false
  t.beFlag d n fBE_FLAG_DRAINED

/-- A forced disable completes everything outstanding with status 0b100: requests placed in `TREQ` and not answered, one whose header
user logic has read included, and its own; the staging queue, the egress buffer and `TREQ` are emptied (R124). -/
def State.niForce (s : State) (d n : Nat) : State :=
  let x := s.ni d n
  let s := s.setNi d n
    { x.pop 2 s.now x.fifo2.length with staging := [], egress := [], served := [], midRead := put4 x.midRead 2 false }
  let s := x.served.foldl (fun t h => t.respond d n h 0 4 []) s
  x.outst.foldl (fun t o => (t.release d n o.tag).deliverRsp d n o (localRsp o.hdr 4)) s

/-- A write of `NI_CTRL` (chapter 04; R123 to R125, R420). `DIS` = 0 cancels a disable until the period boundary of its step 3; from then
on the NI is drained and there is none to cancel. -/
def niCtrlWrite (d n : Nat) (v : W32) (s : State) : Answer :=
  let a := aNI_CTRL d n
  let old := s.reg a
  let x := s.ni d n
  let drained := s.bit (aNI_STATUS d n) fNI_STATUS_DRAINED
  let loopChange := getB v fNI_CTRL_LOOP != getB old fNI_CTRL_LOOP
  if loopChange && (d == 6 || !drained) then refuse s
  else
    let w := putF (putRatio old v) fNI_CTRL_LOOP (getF v fNI_CTRL_LOOP)
    let dis := getB v fNI_CTRL_DIS
    let force := getB v fNI_CTRL_FORCE
    let en := getB v fNI_CTRL_EN
    if dis then
      let w := putF (putF w fNI_CTRL_DIS 1) fNI_CTRL_FORCE (if force then 1 else 0)
      let begin' := !getB old fNI_CTRL_DIS && getB old fNI_CTRL_EN
      let t := s.setReg a w
      let t := if begin' then t.setNi d n { x with disStep := 2 } else t
      let forceNow := force && (t.ni d n).disStep == 2
      wrote (if forceNow then t.niForce d n else t)
    else
      let w := putF (putF w fNI_CTRL_DIS 0) fNI_CTRL_FORCE (if force then 1 else 0)
      let t := (s.setNi d n { x with disStep := 0 }).setReg a (putF w fNI_CTRL_EN (if en then 1 else 0))
      wrote (if en && !force then t.setBit (aNI_STATUS d n) fNI_STATUS_DRAINED false else t)

/-- `NI_CTRL` written by master m with some of its fields replaced. -/
def niCtrlPut (m : Rm) (i : NiId) (f : W32 → W32) (s : State) : State :=
  let v := f (s.reg (aNI_CTRL i.die i.ni))
  if niExists i.die i.ni then ringPut m (aNI_CTRL i.die i.ni) v (niCtrlWrite i.die i.ni v) s else s

/-- `DIS` = 1 with `FORCE` = 0 (R123). -/
def execNiDisable (m : Rm) (i : NiId) (s : State) : Host.Outcome State Fault Refusal :=
  .next (niCtrlPut m i (fun v => putF (putF v fNI_CTRL_DIS 1) fNI_CTRL_FORCE 0) s)
/-- `DIS` = 1 with `FORCE` = 1 (R124). -/
def execNiForcedDisable (m : Rm) (i : NiId) (s : State) : Host.Outcome State Fault Refusal :=
  .next (niCtrlPut m i (fun v => putF (putF v fNI_CTRL_DIS 1) fNI_CTRL_FORCE 1) s)
/-- `DIS` = 0 before step 3 (R123). -/
def execNiDisableCancel (m : Rm) (i : NiId) (s : State) : Host.Outcome State Fault Refusal :=
  .next (niCtrlPut m i (fun v => putF (putF v fNI_CTRL_DIS 0) fNI_CTRL_FORCE 0) s)
/-- `EN` = 1 with `DIS` and `FORCE` at 0 (R125). -/
def execNiEnable (m : Rm) (i : NiId) (s : State) : Host.Outcome State Fault Refusal :=
  .next (niCtrlPut m i (fun v => putF (putF (putF v fNI_CTRL_DIS 0) fNI_CTRL_FORCE 0) fNI_CTRL_EN 1) s)
/-- `LOOP` written (R420). -/
def execNiLoop (m : Rm) (i : NiId) (on : Bool) (s : State) : Host.Outcome State Fault Refusal :=
  .next (niCtrlPut m i (fun v => putF v fNI_CTRL_LOOP (if on then 1 else 0)) s)

/-- A disabling NI has completed its accepted work: requests of others answered, also those that user logic has read from `TREQ` or that
wait at a hub target, the spill region empty, its own requests answered or timed out. A packet begun in `TRSP` and not ended holds
nothing up (R123, step 2; R124). -/
def State.niDone (s : State) (d n : Nat) : Bool :=
  let x := s.ni d n
  x.outst.isEmpty && x.served.isEmpty && (x.fifo2.isEmpty || s.niForced d n) && (firstPacket x.fifo3 []).isNone && x.spillHeld.isEmpty &&
    x.replay.isNone && s.spCount d n == 0 &&
    (d != 6 || s.mq.all (fun r => match r.origin with
      | .packet n' _ _ => n' != n
      | _ => true))

/-- Accepted work of a disabling NI has completed (R123, step 2). -/
def execNiDrainComplete (i : NiId) (s : State) : Host.Outcome State Fault Refusal :=
  let d := i.die
  let n := i.ni
  let x := s.ni d n
  if s.niLive d n && x.disStep == 2 && s.niDone d n then .next (s.setNi d n { x with disStep := 3 }) else .next s

/-- The first period boundary after step 2, or any tick while no pattern runs (R123, steps 3 and 4). -/
def execNiDisableBoundary (i : NiId) (s : State) : Host.Outcome State Fault Refusal :=
  let d := i.die
  let n := i.ni
  let boundary := !s.bit aPAT_STATUS fPAT_STATUS_RUN || s.period == 0 || s.tickN % s.period == 0
  if s.niLive d n && (s.ni d n).disStep == 3 && boundary then .next (s.niDisabled d n) else .next s

end Sys2Proof.Machine
end

