-- ==== Sys2Proof/Machine/Links.lean ====
section
/-! DEFINITION. Die-link modules: frames and their check (R129 to R134), training (R136 to R139), faults, fencing and retraining
(R140 to R147), the ring share (R148), fabric crossing modules (R150, R151) and link loop-backs (R417). -/

namespace Sys2Proof.Machine

/-! ### Names -/

/-- Address of a module's register set. -/
def linkBase (l : LinkId) : Nat :=
  if l.block = 0 then ra l.die 0 (0x100 + 0x40 * l.set) else ra l.die l.block (0x40 * l.set)

/-- The module exists (chapter 06, Registers). -/
def linkExists (l : LinkId) : Bool :=
  if l.die = 7 then l.block == 0 && decide (l.set < 2)
  else if 5 < l.die then false
  else if 0x500 ≤ l.block ∧ l.block < 0x510 then decide (l.set < 2)
  else if l.block = 0x510 ∨ l.block = 0x512 then
    l.die != 0 && l.die != 3 && decide (l.set < if l.block = 0x510 then 8 else 4)
  else if l.block = 0x511 ∨ l.block = 0x513 then
    l.die != 2 && l.die != 5 && decide (l.set < if l.block = 0x511 then 8 else 4)
  else false

/-- Where a module's flits arrive: the place, and the die, NI block and table of its crossing entries (R79). -/
def linkDest (b : Nat) : Loc × Nat × Nat × Nat :=
  let d := b / 4294967296
  let blk := b / 65536 % 65536
  let o := b % 65536
  let rt (r c inp : Nat) : Loc × Nat × Nat × Nat :=
    let (dd, n) := nodeAt r c
    (.router dd n inp (some (.link b)), dd, n, 3 + inp)
  let st (line : Nat) (up : Bool) : Loc × Nat × Nat × Nat :=
    let (dd, n) := stageBlock line up
    (.stage line up b, dd, n, 8)
  let n := blk - 0x500
  let c := 8 * (d % 3) + n % 8
  let top := decide (d < 3)
  if d = 7 then (if o = 0x140 then (.router 6 0 5 (some (.link b)), 6, 0, 7) else (.egress 7 0, 7, 0, 1))
  else if blk < 0x510 then
    if o = 0 then
      if n < 8 then (if top then rt 3 c 2 else rt 6 c 0) else (if top then rt 0 c 0 else rt 9 c 2)
    else
      if n < 8 then (if top then rt 4 c 0 else rt 5 c 2) else st (10 + c) top
  else
    let l := o / 0x40
    let row := (if top then 0 else 6) + l % 4
    if blk = 0x510 then
      if l < 4 then rt row (8 * (d % 3)) 3
      else if d % 3 = 1 then st row true else rt row 23 1
    else
      if l < 4 then rt row (8 * (d % 3) + 7) 1
      else if d % 3 = 1 then st row false else rt row 0 3

/-- Event of a module's `LM_ERR` (R152). -/
def lmEvent (b : Nat) : Nat :=
  let d := b / 4294967296
  let blk := b / 65536 % 65536
  if d = 7 then 1919 else if blk < 0x510 then 768 + 128 * d + 64 + (blk - 0x500) else 768 + 128 * d + 80 + (blk - 0x510)
/-- Set an `LM_ERR` bit. -/
def State.lmErr (s : State) (b : Nat) (f : Fld) : State := s.flagRaise (aLM_ERR b) f (lmEvent b)
/-- The module's receiver runs: its die is out of reset and the clocks run. A transmitter sends training words even while its own die is
in reset (R128). -/
def State.lmListens (s : State) (l : LinkId) : Bool := linkExists l && s.runs && !s.inReset (rxDieOf (linkBase l))
/-- Both dies of the module are out of reset and their clocks run. -/
def State.lmLive (s : State) (l : LinkId) : Bool := s.lmListens l && !s.inReset (txDieOf (linkBase l))
/-- Set a module's state code, and the tick the stage began. -/
def State.lmGo (s : State) (b st : Nat) : State :=
  let t := s.setFld (aLM_STATUS b) fLM_STATUS_STATE st
  t.setLm b { t.lm b with stageAt := s.now, passRun := 0 }

/-! ### Frames (R131) -/

/-- Receiver's mask of a module. -/
def State.lmMask (s : State) (b : Nat) : Nat := s.fld (aLM_STATUS b) fLM_STATUS_MASK

/-- The frame passes its check at the module: CRC, mask, and classes; a crossing module's carries nothing but its payload (R131, chapter 06,
Fabric crossing modules). -/
def State.framePasses (s : State) (b : Nat) (f : LinkFrame) : Bool :=
  frameMask f == s.lmMask b &&
    (if isCrossing b then xcCrc f == f.crc && xcQuiet f else frameCrc f == f.crc && frameClassesOk f (maskWidth (s.lmMask b)))

/-! ### Leaving `RUN` -/

/-- Input of a router, NI or wrap stage that the module feeds, for its best-effort credits. -/
def linkInput (b : Nat) : Option (Nat × Nat × Nat) :=
  if isCrossing b then none
  else match (linkDest b).1 with
  | .router d n inp _ => some (d, n, inp)
  | .egress d n => some (d, n, 6)
  | .stage line up _ => some (8, stageNum line up, 0)
  | _ => none

/-- Both transmitters of a link zero their credit counts: none is usable until the receivers return them (R143). -/
def State.zeroCredits (s : State) (b : Nat) : State :=
  [b, oppBase b].foldl (fun t b =>
    match linkInput b with
    | none => t
    | some (d, n, inp) =>
      let t := t.setLm b { t.lm b with resynced := false }
      { t with be := { t.be with due := t.be.due.filter (fun c => c.key / 2 != inKey d n inp 0 / 2) } }) s

/-- Best-effort packets that the module has not passed on whole are discarded: those with a flit that leaves its first router on or
after tick `fromDue`, and what their sender still holds of them (R134, R140, R143). -/
def State.dropPartial (s : State) (b fromDue : Nat) : State :=
  let far (x : BeItem) : Bool := x.via == some (.link b) && (decide (x.comes.length < x.len) || decide (fromDue ≤ x.comes.getLastD 0))
  let near (x : BeItem) : Bool := match x.out with
    | some o => (downstream x.d x.n o).2.2.2.1 == some (.link b)
    | none => false
  let t := (s.be.items.filter near).foldl (fun t x => t.freeItem x) s
  let t := { t with be := { t.be with items := t.be.items.filter (fun x => !far x) } }
  t.setLm b { t.lm b with rxReq := none, rxRsp := none }

/-- The module changes what it passes: scheduled flits that leave its first router before tick `fromDue` are as before, and from then on
the new state decides (R139, R140, R145). -/
def State.lmDefer (s : State) (b fromDue : Nat) : State :=
  s.setLm b { s.lm b with preCause := s.linkStateCause b (fromDue - 1), lossFrom := fromDue }

/-- The module stops passing flits: scheduled ones that leave its first router on or after tick `fromDue`, best-effort packets with a
flit from tick `beDue` on; leaving `RUN`, the link's credits resynchronise (R134, R140, R143, R145). -/
def State.lmStop (s : State) (b fromDue beDue : Nat) : State :=
  let t := s.lmDefer b fromDue
  let t := t.setLm b { t.lm b with xcPassed := false }
  if s.lmState b = 6 then (t.dropPartial b beDue).zeroCredits b else t

/-- Tick of `Clk.now` on which the next frame is checked: the first after now that is 2 modulo 4 on the tick counter. -/
def State.nextCheck (s : State) : Nat := s.now + 1 + (2 + 4 - (s.tickN + 1) % 4) % 4

/-- Full training of one module from `CLOCK`, `BREACH_SUM` not yet brought up to date; the time out of `RUN` counts on through restarts
(R138, R140, R148). -/
def State.trainModule (s : State) (b fromDue beDue : Nat) : State :=
  let was := s.lmState b
  let t := (s.lmStop b fromDue beDue).satInc (aLM_COUNT b) fLM_COUNT_TRAINS
  let t := (t.lmGo b 1).lmErr b fLM_ERR_RETRAIN
  let x := t.lm b
  t.setLm b { x with trainAt := if 1 ≤ was ∧ was ≤ 5 then x.trainAt else s.now, inResync := false, askRetrain := false, lastWord := 0
                     prevWord := 0 }

/-- Full training starts from `CLOCK` (R140). -/
def State.fullTraining (s : State) (b fromDue : Nat) : State := (s.trainModule b fromDue fromDue).syncBreach

/-- A resync starts: `MASK` and `FRAME` only, with the mask as it is less a failed margin group (R140, R141). -/
def State.resync (s : State) (b fromDue beDue : Nat) : State :=
  let t := ((s.lmStop b fromDue beDue).lmGo b 4).lmErr b fLM_ERR_RESYNC
  let x := t.lm b
  let mask := (BitVec.ofNat 5 (s.lmMask b) &&& ~~~x.margin).toNat
  let dec := BitVec.ofNat 8 (mask + 32 * s.fld (aLM_STATUS b) fLM_STATUS_SBG)
  (t.setLm b { x with trainAt := s.now, inResync := true, decided := dec, margin := 0, lastWord := 0, prevWord := 0 }).syncBreach

/-- The module is fenced (R144, R145). -/
def State.fence (s : State) (b fromDue : Nat) : State :=
  if s.lmState b = 7 then s else (((s.lmStop b fromDue fromDue).lmGo b 7).lmErr b fLM_ERR_FENCED).syncBreach

/-- The far receiver asks this module's transmitter to retrain: a module still in `RUN` resynchronises (R130, R136, R140; DESIGN CHOICE,
unsafe, log entry 140). -/
def State.askedRetrain (s : State) (b : Nat) : State :=
  let t := s.setLm b { s.lm b with askRetrain := true }
  if t.lmState b = 6 then t.resync b (t.nextCheck + 2) (t.nextCheck + 2) else t

/-- A frame that fails in `RUN` (R140, R144). -/
def State.frameFailed (s : State) (b : Nat) (mismatch : Bool) : State :=
  let x := s.lm b
  let s := s.setLm b { x with failed := x.failed.filter (fun f => decide (s.now < f + 8)) ++ [s.now + 2] }
  let m := s.fld (aLM_STATUS b) fLM_STATUS_MISMATCH
  let s := if mismatch then (s.setFld (aLM_STATUS b) fLM_STATUS_MISMATCH (m + 1)).lmErr b fLM_ERR_MISMATCH else s
  if mismatch ∧ m + 1 = 3 then s.fence b (s.now + 6)
  else
    match x.resyncAt with
    | some t => if s.now < t + 65536 then (s.trainModule b (s.now + 6) (s.now + 2)).syncBreach else s.resync b (s.now + 6) (s.now + 2)
    | none => s.resync b (s.now + 6) (s.now + 2)

/-! ### Frames received -/

/-- What the receive side of module b puts on the next place on tick `due`, in place of what the model has under way there. -/
def State.putDue (s : State) (b due : Nat) (fl : Option (Flit × Loc × Nat)) : State :=
  let here (i : Item) : Bool :=
    i.due == due && (match i.loc with
      | .router _ _ _ v => v == some (.link b)
      | .stage _ _ v => v == b
      | .egress d _ => d == 7 && b == ra 7 0 0x100
      | _ => false)
  let kept := s.pat.flight.filter (fun i => !here i)
  match fl with
  | none => { s with pat := { s.pat with flight := kept } }
  | some (f, loc, t) => { s with pat := { s.pat with flight := kept ++ [{ flit := f, loc := loc, due := t }] } }

/-- The entry that names a scheduled position of module b for tick t of its point: flow and bank, of the crossing table, or at A of the
stream entries for arrivals (R132, R342). -/
def State.posEntry (s : State) (b t : Nat) : Option (Nat × Nat) :=
  let (_, d, n, tsel) := linkDest b
  if d = 7 then
    ([s.actBank, s.shBank].filterMap (fun k =>
      ((s.psTable k 7 0 0).find? (fun e => s.streamApplies k e.2 t)).map (fun e => (ew e.2 0 27 16, k)))).head?
  else (s.findEntry d n tsel t (fun _ _ => true)).map (fun e => (ew e.2 0 27 16, e.1))

/-- A best-effort position from outside the model's own packets is collected; the whole packet waits at the first place behind the
module (R132, R134). -/
def State.collectPos (s : State) (b vc due : Nat) (fl : BitVec 256) : State :=
  let own := s.be.items.any (fun x => x.via == some (.link b) && x.vc == vc &&
    (decide (x.comes.length < x.len) || decide (s.now ≤ x.comes.getLastD 0)))
  match linkInput b with
  | none => s
  | some (d, n, inp) =>
    if own then s
    else
      let x := s.lm b
      let r : RxPacket := match (if vc = 0 then x.rxReq else x.rxRsp) with
        | none => { hdr := fl, data := [], left := hNdata fl }
        | some r => { r with data := r.data ++ [fl], left := r.left - 1 }
      let keep := if r.left = 0 then none else some r
      let s := s.setLm b (if vc = 0 then { x with rxReq := keep } else { x with rxRsp := keep })
      if r.left ≠ 0 then s
      else
        let len := 1 + r.data.length
        let rsv := if hSpill r.hdr && vc == 0 then min len (s.freeRsv d n inp vc) else 0
        (s.charge d n inp vc (len - rsv) rsv true).addItem
          { BeItem.start { hdr := r.hdr, data := r.data } d n inp due 0 with rsv := rsv, via := some (.link b) }

/-- Release position j of a frame that passed, at A's egress four ticks later than at a router (R341): the flit or marker that the applying
entry names, a stray, or a best-effort flit; an idle position passes nothing on (R83, R88, R129, R132, R134). A stray's record names
flow 0, the frame carrying no flow ID (R83; DESIGN CHOICE, unsafe, log entry 131). -/
def State.releasePos (s : State) (b : Nat) (f : LinkFrame) (j : Nat) : State :=
  let (loc, d, n, _) := linkDest b
  let late := if d = 7 then 4 else 0
  let due := s.now + 2 + j + late
  let c := frameClass f j
  let s := s.putDue b due none
  if c = 0 then s
  else if c ≠ 3 then s.collectPos b (c - 1) (s.now + 2 + j) (framePos f j)
  else
    match s.posEntry b (s.tickN + 2 + j + late) with
    | none => s.logFault 4 0 0 d n 0
    | some (flow, bank) =>
      let fl : Flit :=
        { valid := !frameMark f j, flow := flow, cause := if frameMark f j then (framePos f j).toNat % 16 else 0
          key := frameAttr f j, bank := bank == 1, parityOk := true
          payload := if frameMark f j then 0 else framePos f j }
      s.putDue b due (some (fl, loc, due))

/-- The credits that a frame of module b returns for the opposite module's transmitter take the place of those that the model has for
it (R130, R133); while that link resynchronises none count (R143). -/
def State.takeCredits (s : State) (b : Nat) (f : LinkFrame) : State :=
  let o := oppBase b
  match linkInput o with
  | none => s
  | some (d, n, inp) =>
    if !(s.lm o).resynced then s
    else
      let k := inKey d n inp 0
      let mine (c : CreditDue) : Bool := c.key / 2 == k / 2 && decide (s.now + 2 ≤ c.readyAt) && decide (c.readyAt ≤ s.now + 5)
      let got (vc m : Nat) : List CreditDue := if m = 0 then [] else [⟨k + vc, m, 0, s.now + 2⟩]
      { s with be := { s.be with due := s.be.due.filter (fun c => !mine c) ++ got 0 (frameReqCr f) ++ got 1 (frameRspCr f) } }

/-- The values on a crossing module's `XC_RX` now (R150). -/
def State.xcOut (s : State) (b : Nat) : BitVec 512 :=
  ((s.lm b).xcNext.filter (fun e => decide (e.1 ≤ s.now))).foldl (fun _ e => e.2) (s.lm b).xcRx
/-- `XC_OK`: in `RUN` with at least two good groups in its mask, and the latest frame passed (R151). -/
def State.xcOk (s : State) (b : Nat) : Bool :=
  s.lmState b == 6 && decide (2 ≤ maskWidth (s.lmMask b)) && (s.lm b).xcPassed
/-- A crossing module's frame passed: what it sampled on tick 4s appears on ticks 4s + 24 to 4s + 27, 18 after the check (R150, R151). -/
def State.xcTake (s : State) (b : Nat) (f : LinkFrame) : State :=
  let x := s.lm b
  s.setLm b { x with xcRx := s.xcOut b, xcPassed := true
                     xcNext := x.xcNext.filter (fun e => decide (s.now < e.1)) ++
                       (if s.lmState b = 6 ∧ 2 ≤ maskWidth (s.lmMask b) then [(s.now + 18, xcSignals f)] else []) }

/-- A frame that passed in `RUN`. -/
def State.frameTaken (s : State) (b : Nat) (f : LinkFrame) : State :=
  let t := if 1024 ≤ (s.lm b).passRun then s.setFld (aLM_STATUS b) fLM_STATUS_MISMATCH 0 else s
  let t := if f.marginErr && s.lmMask b == 31 then
      let t := t.setLm b { t.lm b with margin := 16 }
      (t.setBit (aLM_STATUS b) fLM_STATUS_MARGIN_BAD true).lmErr b fLM_ERR_MARGIN
    else t
  if isCrossing b then t.xcTake b f
  else
    let t := (t.takeCredits b f)
    let t := (List.range 4).foldl (fun t j => t.releasePos b f j) t
    if frameRetrain f then t.askedRetrain (oppBase b) else t

/-- A frame arrives at a die-link receiver, on the check tick 4k + 6 (R129 to R135, R139 to R141, R144, R150, R151). -/
def execLinkFrameReceive (l : LinkId) (f : LinkFrame) (s : State) : Host.Outcome State Fault Refusal :=
  let b := linkBase l
  let st := s.lmState b
  if !s.lmLive l || s.tickN % 4 != 2 || !(st == 5 || st == 6) then .next s
  else
    let x := s.lm b
    if s.framePasses b f then
      let t := s.setFld (aLM_STATUS b) fLM_STATUS_TX_MASK (frameMask f)
      let t := t.setLm b { x with passRun := x.passRun + 1 }
      .next (if st = 5 then (if isCrossing b then t.xcTake b f else t) else t.frameTaken b f)
    else
      let t := (s.satInc (aLM_COUNT b) fLM_COUNT_CRC_ERR).lmErr b fLM_ERR_CRC
      let t := t.setLm b { x with passRun := 0, xcPassed := false }
      .next (if st = 5 then t else t.frameFailed b (frameMask f != s.lmMask b))

/-- What module b sends in the frame checked on this tick, as the model has its traffic: scheduled flits and markers that leave its
first router two to five ticks on, the opposite receiver's freed places, and the sampled test bits (R129, R130, R132, R149). -/
def State.sentFrame (s : State) (b : Nat) (ring : Nat) (tck tms tdo : Bool) : LinkFrame :=
  let at' (j : Nat) : Option Item := s.pat.flight.find? (fun i => i.due == s.now + 2 + j && (match i.loc with
    | .router _ _ _ v => v == some (.link b)
    | .stage _ _ v => v == b
    | _ => false))
  let pos (j : Nat) : BitVec 256 := match at' j with
    | some i => if i.flit.valid then i.flit.payload else BitVec.ofNat 256 i.flit.cause
    | none => 0
  let cr (vc : Nat) : Nat := match linkInput (oppBase b) with
    | some (d, n, inp) => ((s.be.due.filter (fun c => c.key == inKey d n inp vc && decide (s.now + 2 ≤ c.readyAt) &&
        decide (c.readyAt ≤ s.now + 5))).map (fun c => c.ordinary + c.reserved)).foldl (· + ·) 0
    | none => 0
  let marks := (List.range 4).foldl (fun n j => match at' j with
    | some i => if i.flit.valid then n else n + 2 ^ j
    | none => n) 0
  let attrs := (List.range 4).map (fun j => match at' j with
    | some i => if i.flit.valid then i.flit.key else 0
    | none => 0)
  let vld := (List.range 4).foldl (fun n j => if (at' j).isSome then n + 3 * 4 ^ j else n) 0
  let sb := frameSb (cr 0) (cr 1) (s.lmMask b) (s.asksRetrain (oppBase b)) marks attrs (if s.carriesRing b then ring else 0)
    (s.testField b tck tms tdo)
  let f : LinkFrame := { pos0 := pos 0, pos1 := pos 1, pos2 := pos 2, pos3 := pos 3, vld := BitVec.ofNat 8 vld, sb := sb, crc := 0
                         marginErr := false }
  { f with crc := frameCrc f }

/-! ### Training (R136 to R139) -/

/-- A field of the last two accepted training words, where both carry it alike (R136). -/
def Lm.twice (x : Lm) (hi lo : Nat) : Option Nat :=
  if wordOk x.lastWord && wordOk x.prevWord && bitsOf x.lastWord.toNat hi lo == bitsOf x.prevWord.toNat hi lo then
    some (bitsOf x.lastWord.toNat hi lo) else none

/-- A training word arrives on `TRN` or `SB_7` (R136); two that carry `RETRAIN` ask the opposite module to retrain (R140). -/
def execTrainingWordReceive (l : LinkId) (w : W32) (s : State) : Host.Outcome State Fault Refusal :=
  let b := linkBase l
  if !s.lmListens l || !wordOk w then .next s
  else
    let x := s.lm b
    let y : Lm := { x with lastWord := w, prevWord := x.lastWord }
    let t := s.setLm b y
    .next (if y.twice 4 4 = some 1 then t.askedRetrain (oppBase b) else t)

/-- 256 ticks of clean edges on the clock the receiver takes (State `CLOCK`). A far transmitter in reset drives none (R128). -/
def execLinkClockDetect (l : LinkId) (fck fcks : Bool) (s : State) : Host.Outcome State Fault Refusal :=
  let b := linkBase l
  let x := s.lm b
  if !s.lmLive l || !(fck || fcks) || s.lmState b != 1 || decide (s.now < x.stageAt + 256) then .next s
  else
    let useS := (s.bit (aLM_CTRL b) fLM_CTRL_FCKS && fcks) || !fck
    let t := (s.setLm b { x with clkGone := false }).setBit (aLM_STATUS b) fLM_STATUS_CLK_S useS
    let t := (t.setBit (aLM_SBWIRE b) fLM_SBWIRE_FCK_BAD (!fck)).setBit (aLM_SBWIRE b) fLM_SBWIRE_FCKS_BAD (!fcks)
    .next (t.lmGo b 2)

/-- The tap sweep of 64 × 96 ticks ends (State `DESKEW`). -/
def execLinkDeskewDone (l : LinkId) (s : State) : Host.Outcome State Fault Refusal :=
  let b := linkBase l
  if s.lmLive l && s.lmState b == 2 && decide ((s.lm b).stageAt + 6144 ≤ s.now) then .next (s.lmGo b 3) else .next s

/-- Groups whose 32 wires counted no error, and that did not fail as the margin group before (R137, R141). -/
def goodGroups (errors : BitVec 169) (margin : BitVec 5) : List Nat :=
  (List.range 5).filter (fun g => bitsOf errors.toNat (32 * g + 31) (32 * g) == 0 && !margin.getLsbD g)

/-- Sideband group and mask that a receiver decides; none where a failed sideband has no good group left (R137). -/
def decideMask (errors : BitVec 169) (margin : BitVec 5) (cap : Nat) : Option (Nat × Nat) :=
  let good := goodGroups errors margin
  let sbBad := bitsOf errors.toNat 168 160 != 0
  let pick (gs : List Nat) : Nat := ((if 1 ≤ cap ∧ cap ≤ 4 then gs.take cap else gs)).foldl (fun m g => m + 2 ^ g) 0
  if sbBad then
    match good.getLast? with
    | none => none
    | some g => some (g, pick (good.filter (· != g)))
  else some (7, pick good)

/-- Record the wires that failed (`LM_WIRE_g`, `LM_SBWIRE`). -/
def State.recordWires (s : State) (b : Nat) (errors : BitVec 169) : State :=
  let t := (List.range 5).foldl (fun t g =>
    t.setReg (aLM_WIRE b g) (BitVec.ofNat 32 (bitsOf errors.toNat (32 * g + 31) (32 * g)))) s
  (t.setFld (aLM_SBWIRE b) fLM_SBWIRE_SB (bitsOf errors.toNat 167 160)).setBit (aLM_SBWIRE b) fLM_SBWIRE_VLD (bitAt errors.toNat 168)

/-- `VERIFY` ends: the receiver decides groups, sideband group and mask (R137). -/
def execLinkVerifyDone (l : LinkId) (errors : BitVec 169) (s : State) : Host.Outcome State Fault Refusal :=
  let b := linkBase l
  if !(s.lmLive l && s.lmState b == 3 && decide ((s.lm b).stageAt + 4096 ≤ s.now)) then .next s
  else
    let t := s.recordWires b errors
    match decideMask errors (s.lm b).margin (s.fld (aLM_CTRL b) fLM_CTRL_CAP) with
    | none => .next (t.fullTraining b 0)
    | some (sbg, mask) =>
      let t := t.lmGo b 4
      .next (t.setLm b { t.lm b with decided := BitVec.ofNat 8 (mask + 32 * sbg), margin := 0 })

/-- Both sides have seen each other's values in two consecutive words: the receiver its own mask and sideband group as `TX_MASK` and
`TX_SBG`, the transmitter the same as `RX_MASK` and `RX_SBG` in the opposite module's words (R138). -/
def execLinkMaskAgreed (l : LinkId) (s : State) : Host.Outcome State Fault Refusal :=
  let b := linkBase l
  let x := s.lm b
  let y := s.lm (oppBase b)
  let mask := bitsOf x.decided.toNat 4 0
  let sbg := bitsOf x.decided.toNat 7 5
  if s.lmLive l && s.lmState b == 4 && x.twice 24 20 == some mask && x.twice 19 17 == some sbg &&
      y.twice 12 8 == some mask && y.twice 7 5 == some sbg then
    let t := (s.setFld (aLM_STATUS b) fLM_STATUS_MASK mask).setFld (aLM_STATUS b) fLM_STATUS_SBG sbg
    .next (t.lmGo b 5)
  else .next s

/-- After 16 consecutive passing frames the module enters `RUN` on a check tick 4k + 6; it carries flits that cross the sending router from
tick 4k + 8 on, which leave the receiving one eight ticks later (R139, R147, worked example of R143). -/
def execLinkFrameLock (l : LinkId) (s : State) : Host.Outcome State Fault Refusal :=
  let b := linkBase l
  let x := s.lm b
  if !(s.lmLive l && s.lmState b == 5 && decide (16 ≤ x.passRun) && s.tickN % 4 == 2) then .next s
  else
    let w := maskWidth (s.lmMask b)
    let t := s.lmGo b 6
    let t := if w < s.fld (aLM_STATUS b) fLM_STATUS_WIDTH then t.lmErr b fLM_ERR_WIDTH_LOSS else t
    let t := (t.setFld (aLM_STATUS b) fLM_STATUS_WIDTH w).setBit (aLM_STATUS b) fLM_STATUS_MARGIN_BAD false
    let y := t.lm b
    let t := t.setLm b { y with okFrom := s.now + 10, lossFrom := 0, failed := [], inResync := false, askRetrain := false
                                resyncAt := if x.inResync then some s.now else none }
    .next t.syncBreach

/-- Maximum ticks of a training stage (States). -/
def stageLimit (st : Nat) : Option Nat :=
  match st with
  | 1 => some 1024
  | 2 => some 6144
  | 3 => some 4096
  | 4 => some 1024
  | 5 => some 256
  | _ => none

/-- A training stage overruns, `CLOCK` only while a forwarded clock is present (R138, R140, States). -/
def execLinkStageTimeout (l : LinkId) (s : State) : Host.Outcome State Fault Refusal :=
  let b := linkBase l
  match stageLimit (s.lmState b) with
  | none => .next s
  | some lim =>
    if s.lmLive l && !(s.lmState b == 1 && (s.lm b).clkGone) && decide ((s.lm b).stageAt + lim ≤ s.now) then
      .next ((s.lmErr b fLM_ERR_STAGE_TMO).fullTraining b 0)
    else .next s

/-! ### Control writes -/

/-- A change of `LOOP` is accepted only while both modules are fenced, and never on the A–H link (R417). -/
def State.loopAllowed (s : State) (b : Nat) : Bool :=
  b / 4294967296 != 7 && s.lmState b == 7 && s.lmState (oppBase b) == 7

/-- A write of `LM_CTRL` (R145, R417): `FENCE` before `UNFENCE` before `RETRAIN`; `CLR_CNT` and the stored fields in any
case. -/
def lmCtrlWrite (b : Nat) (v : W32) (s : State) : Answer :=
  let old := s.reg (aLM_CTRL b)
  if getF v fLM_CTRL_LOOP ≠ getF old fLM_CTRL_LOOP ∧ !s.loopAllowed b then refuse s
  else
    let t := s.plainWrite (aLM_CTRL b) v
    let t := if getF v fLM_CTRL_LOOP ≠ getF old fLM_CTRL_LOOP then t.recordWires b 0 else t
    let t := if getB v fLM_CTRL_CLR_CNT then t.setReg (aLM_COUNT b) 0#32 else t
    let due := s.nextCheck + 2
    if getB v fLM_CTRL_FENCE then wrote (t.fence b due)
    else if getB v fLM_CTRL_UNFENCE then
      wrote (if s.lmState b = 7 then (t.setFld (aLM_STATUS b) fLM_STATUS_MISMATCH 0).fullTraining b due else t)
    else if getB v fLM_CTRL_RETRAIN then wrote (if s.lmState b = 7 then t else t.fullTraining b due)
    else wrote t

/-- `LM_CTRL` written by master m, its stored fields kept but for those that `f` sets. -/
def lmCtrlPut (m : Rm) (l : LinkId) (f : W32 → W32) (s : State) : State :=
  let b := linkBase l
  if linkExists l then ringPut m (aLM_CTRL b) (f (s.reg (aLM_CTRL b))) (lmCtrlWrite b (f (s.reg (aLM_CTRL b)))) s else s

/-- `FENCE` written (R145). -/
def execLinkFence (m : Rm) (l : LinkId) (s : State) : Host.Outcome State Fault Refusal :=
  .next (lmCtrlPut m l (fun v => putF v fLM_CTRL_FENCE 1) s)
/-- `UNFENCE` written (R145). -/
def execLinkUnfence (m : Rm) (l : LinkId) (s : State) : Host.Outcome State Fault Refusal :=
  .next (lmCtrlPut m l (fun v => putF v fLM_CTRL_UNFENCE 1) s)
/-- `RETRAIN` written (R140). -/
def execLinkRetrain (m : Rm) (l : LinkId) (s : State) : Host.Outcome State Fault Refusal :=
  .next (lmCtrlPut m l (fun v => putF v fLM_CTRL_RETRAIN 1) s)
/-- `CLR_CNT` written (R145). -/
def execLinkClrCnt (m : Rm) (l : LinkId) (s : State) : Host.Outcome State Fault Refusal :=
  .next (lmCtrlPut m l (fun v => putF v fLM_CTRL_CLR_CNT 1) s)

/-- `LOOP` written (R417): with a depth accepted, the source set gathers the wires on which the looped `VERIFY` streams
failed. -/
def execLinkLoop (m : Rm) (l : LinkId) (depth : Fin 4) (errors : BitVec 169) (s : State) :
    Host.Outcome State Fault Refusal :=
  let b := linkBase l
  let v := putF (s.reg (aLM_CTRL b)) fLM_CTRL_LOOP depth.val
  if linkExists l then
    .next (ringPut m (aLM_CTRL b) v (fun t =>
      let a := lmCtrlWrite b v t
      if a.2.1 = .ok ∧ depth.val ≠ 0 then (a.1.recordWires b errors, a.2) else a) s)
  else .next s

/-! ### Credits and the ring share -/

/-- Places that packets hold at an input's VC: ordinary and reserved. -/
def State.heldPlaces (s : State) (d n inp vc : Nat) : Nat × Nat :=
  (s.be.items.filter (fun x => x.d == d && x.n == n && x.inp == inp && x.vc == vc)).foldl
    (fun a x =>
      let r := x.rsv - x.gone
      (a.1 + (x.len - x.gone - r), a.2 + r)) (0, 0)

/-- The credits of every free place of an input's VC come back, at most four a frame; what is held stays charged (R130, R143). -/
def State.returnCredits (s : State) (d n inp vc : Nat) : State :=
  let k := inKey d n inp vc
  let (o, r) := inputPlaces d n inp vc
  let (ho, hr) := s.heldPlaces d n inp vc
  let free := (o - ho) + (r - hr)
  let dues := (List.range ((free + 3) / 4)).map (fun i => (⟨k, min 4 (free - 4 * i), 0, s.now + 8 + 4 * i⟩ : CreditDue))
  { s with be := { s.be with
      usedOrd := tput (fun _ => 0) s.be.usedOrd k o, usedRsv := tput (fun _ => 0) s.be.usedRsv k r
      charges := tput (fun _ => []) s.be.charges k
        (List.replicate (o - ho) false ++ List.replicate (r - hr) true ++ List.replicate ho false ++ List.replicate hr true)
      due := s.be.due ++ dues } }

/-- Both modules are in `RUN`, and for 32 ticks no best-effort flit has arrived: the receiver returns credits for all of its free places,
once (R143). -/
def execCreditResyncReturn (l : LinkId) (s : State) : Host.Outcome State Fault Refusal :=
  let b := linkBase l
  let o := oppBase b
  let late (u : Nat) : Bool := decide (s.now < u + 32)
  let ready := s.lmState b == 6 && s.lmState o == 6 && !late (s.lm b).stageAt && !late (s.lm o).stageAt &&
    s.be.items.all (fun x => x.via != some (.link b) || !late (x.comes.getLastD 0))
  match linkInput b with
  | none => .next s
  | some (d, n, inp) =>
    if !s.lmLive l || !ready || (s.lm b).resynced then .next s
    else .next ([0, 1].foldl (fun t vc => t.returnCredits d n inp vc) (s.setLm b { s.lm b with resynced := true }))

/-- A module cannot carry the ring share: fenced, or in training for longer than 1,024 ticks (R148). -/
def State.shareLost (s : State) (b : Nat) : Bool :=
  let st := s.lmState b
  st == 7 || (st != 6 && decide ((s.lm b).trainAt + 1024 < s.now))

/-- The modules that a die coming out of reset trains: those whose register sets stand on it from `RESET`; those that it feeds elsewhere
see its clocks again in `CLOCK`, or start from there (R27, R138, R145, R146). -/
def State.trainDieLinks (s : State) (d : Nat) : State :=
  ((allModules.filter (fun b => txDieOf b == d || rxDieOf b == d)).foldl (fun t b =>
    let t := t.setFld (aLM_STATUS b) fLM_STATUS_MISMATCH 0
    if t.lmState b = 1 ∧ b / 4294967296 ≠ d then t.setLm b { t.lm b with clkGone := false, stageAt := t.now }
    else t.trainModule b (t.now + 1) (t.now + 1)) s).syncBreach

/-- Receivers on other dies lose frame lock when the transmitters of die d stop, and train: they wait in `CLOCK` without a clock (R128,
R138, R146). -/
def State.loseLock (s : State) (d : Nat) : State :=
  let due := s.nextCheck + 2
  ((allModules.filter (fun b => txDieOf b == d && b / 4294967296 != d && !s.inReset (rxDieOf b))).foldl (fun t b =>
    let t := (t.setFld (aLM_STATUS b) fLM_STATUS_MISMATCH 0).trainModule b due due
    t.setLm b { t.lm b with clkGone := true }) s).syncBreach

/-- Every module of every die trains: the dies come out of reset together (R146). -/
def State.trainAllLinks (s : State) : State := (allModules.foldl (fun t b => t.trainModule b 0 0) s).syncBreach

end Sys2Proof.Machine
end

