-- ==== Sys2Proof/Machine/Weave.lean ====
section
/-! DEFINITION. Scheduled forwarding: what stands at every router and wrap stage on a tick, the markers that receive sides put
in place of expected flits (R58), the flow tables (R74), conflicts (R62) and strays (R83). -/

namespace Sys2Proof.Machine

/-- The tick value of `Clk.now` number `due` (the tick is not loaded while a flit is in flight, R48). -/
def State.tickAt (s : State) (due : Nat) : Nat := s.tickN + due - s.now

/-- Die of a place on the Weave. -/
def locDie : Loc → Nat
  | .router d _ _ _ => d
  | .stage line up _ => (stageBlock line up).1
  | .egress d _ => d
  | .portTx _ => 6
  | .loop d _ => d

/-- Add a flit in flight. -/
def State.send (s : State) (f : Flit) (loc : Loc) (due : Nat) : State :=
  { s with pat := { s.pat with flight := s.pat.flight ++ [{ flit := f, loc := loc, due := due }] } }

/-- The receive sides of the Weave: how the flit came, where it stands, and the crossing table (R58, R79). -/
def receiveSides : List (Via × Loc × Nat × Nat × Nat) :=
  (weaveModules.filterMap (fun b =>
    let (loc, d, n, tsel) := linkDest b
    if d = 7 then none else some (Via.link b, loc, d, n, tsel)))
  ++ (List.range 6).map (fun p =>
    (Via.port p, Loc.router 6 (portRouter p) 5 (some (.port p)), 6, portRouter p, 7))

/-- Markers that one receive side puts out on the tick `due`: one for each crossing entry that applies (R58). -/
def State.sideMarkers (s : State) (due : Nat) (side : Via × Loc × Nat × Nat × Nat) : List Item :=
  let (v, loc, d, n, tsel) := side
  match s.viaCause v due with
  | none => []
  | some cause =>
    [s.actBank, s.shBank].flatMap (fun bank =>
      ((s.psTable bank d n tsel).filter (fun e => s.entryApplies bank e.2 (s.tickAt due))).map (fun e =>
        { flit := { valid := false, flow := ew e.2 0 27 16, cause := cause, key := 0, bank := bank == 1
                    parityOk := true, payload := 0 }
          loc := loc, due := due }))

/-- Markers of every receive side in breach on a tick. -/
def State.allMarkers (s : State) (due : Nat) : List Item := receiveSides.flatMap (s.sideMarkers due)

/-- What a receive side makes of a flit that reached its router or stage: dropped in breach (a marker stands in its place),
discarded with kind 0x4 where no entry applies, else with the entry's flow and bank (R58, R83). -/
def State.receiveItem (s : State) (i : Item) : State × Option Item :=
  let check (v : Via) (d n tsel : Nat) : State × Option Item :=
    if (s.viaCause v i.due).isSome then (s, none)
    else
      match s.findEntry d n tsel (s.tickAt i.due) (fun _ _ => true) with
      | none => (s.logFault 4 i.flit.flow i.flit.flow d n 0, none)
      | some (bank, e) => (s, some { i with flit := { i.flit with flow := ew e 0 27 16, bank := bank == 1 } })
  match i.loc with
  | .router d n inp (some v) => check v d n (if inp = 5 then 7 else 3 + inp)
  | .stage line up b => check (.link b) (stageBlock line up).1 (stageBlock line up).2 8
  | _ => (s, some i)

/-- Output that the flow table of a flit's bank names at a router (R74). -/
def State.flowOut (s : State) (d n : Nat) (f : Flit) : Nat := ew (s.ps (if f.bank then 1 else 0) d n 2 f.flow) 0 2 0

/-- Input number of a flit at a router; the NI input is 4. -/
def locInp : Loc → Nat
  | .router _ _ inp _ => inp
  | _ => 0

/-- A flit at a router: with its output, or what becomes of it there (R74, R88, R370). -/
def State.steer (s : State) (i : Item) : State × Option (Item × Nat) :=
  if !s.domOn (weaveDom (locDie i.loc)) || s.inReset (locDie i.loc) then (s, none)
  else
    match i.loc with
    | .router d n _ _ =>
      if !i.flit.parityOk then (s.niErr d n fNI_ERR_SB_PAR, none)
      else
        let o := s.flowOut d n i.flit
        if o = 7 then (s.logFault 4 i.flit.flow i.flit.flow d n 0, none) else (s, some (i, o))
    | .stage _ _ _ => (s, some (i, 8))
    | _ => (s, none)

/-- Where a flit goes from its place through an output, and the ticks to the next (R54, R72, R73). -/
def nextLoc (i : Item) (o : Nat) : Option (Loc × Nat) :=
  match i.loc with
  | .router d n _ _ =>
    if o < 4 then some (hopFrom (rcOf d n).1 (rcOf d n).2 o)
    else if o = 4 then some (.egress d n, 4)
    else if d = 6 ∧ n = 0 then some (.egress 7 0, 12)
    else if d = 6 then (sidePortOf n).map (fun p => (.portTx p, 0))
    else none
  | .stage line up _ => some (stageExit line up)
  | _ => none

/-- Two flits stand at one router for one output on one tick. -/
def sameOut (a b : Item × Nat) : Bool :=
  a.2 == b.2 && a.1.due == b.1.due &&
    (match a.1.loc, b.1.loc with
     | .router d n _ _, .router d' n' _ _ => d == d' && n == n'
     | _, _ => false)

/-- Which of two flits for one output is sent: the lower flow, or on the lower input (R62). -/
def itemBefore (a b : Item × Nat) : Bool :=
  decide (a.1.flit.flow < b.1.flit.flow) ||
    (a.1.flit.flow == b.1.flit.flow && decide (locInp a.1.loc < locInp b.1.loc))

/-- The output that a flit leaves through is taken on this tick (R74). -/
def State.takeOut (s : State) (i : Item) (o : Nat) : State :=
  match i.loc with
  | .router d n _ _ => s.useOut d n o
  | .stage line up _ => s.useOut 8 (stageNum line up) 0
  | _ => s

/-- Send the flits that won; log each that lost, kind 0x1, naming the winner first (R62). -/
def State.resolve (all : List (Item × Nat)) : List (Item × Nat) → State → State
  | [], s => s
  | x :: r, s =>
    let rivals := all.filter (fun y => sameOut x y && itemBefore y x)
    let best := rivals.foldl (fun b y => match b with
      | none => some y
      | some z => if itemBefore y z then some y else b) none
    match best with
    | some w =>
      match x.1.loc with
      | .router d n _ _ => State.resolve all r (s.logFault 1 w.1.flit.flow x.1.flit.flow d n 0)
      | _ => State.resolve all r s
    | none =>
      match nextLoc x.1 x.2 with
      | none => State.resolve all r s
      | some (loc, t) => State.resolve all r ((s.takeOut x.1 x.2).send x.1.flit loc (x.1.due + t))

/-- The item stands at a router or a wrap stage and its tick has come. -/
def State.atRouter (s : State) (i : Item) : Bool :=
  decide (i.due ≤ s.now) && (match i.loc with
    | .router _ _ _ _ => true
    | .stage _ _ _ => true
    | _ => false)

/-- Every router and wrap stage forwards what leaves it by this tick (R62, R74). -/
def State.forwardAll (s : State) : State :=
  let here := s.pat.flight.filter s.atRouter
  let s := { s with pat := { s.pat with flight := s.pat.flight.filter (fun i => !s.atRouter i) } }
  let markers := s.allMarkers s.now
  let (s, kept) := here.foldl (fun (a : State × List Item) i =>
    let (t, o) := a.1.receiveItem i
    (t, a.2 ++ o.toList)) (s, [])
  let (s, steered) := (kept ++ markers).foldl (fun (a : State × List (Item × Nat)) i =>
    let (t, o) := a.1.steer i
    (t, a.2 ++ o.toList)) (s, [])
  State.resolve steered steered s

/-- The routers forward what stands at them on this tick (R74). -/
def execRouterForwardScheduled (s : State) : Host.Outcome State Fault Refusal :=
  if s.hubRuns then .next s.forwardAll else .next s

end Sys2Proof.Machine
end

