-- ==== Sys2Proof/Machine/Torus.lean ====
section
/-! DEFINITION. Serial lanes and the torus ports: lanes and alignment (R153 to R158), training (R168 to R171), positions (R161 to
R167, R318, R319), scheduled mode (R172, R173), lane faults (R174, R175), lane states and disabling (R159, R160, R180). -/

namespace Sys2Proof.Machine

/-! ### Names -/

/-- Block of a quad. -/
def quadBlock (d q : Nat) : Nat := ra d (0x200 + q) 0
/-- Block and lane number of lane i of port p. -/
def portLane (p i : Nat) : Nat × Nat := (quadBlock 6 (4 * p + i / 4), i % 4)
/-- The lane exists. -/
def laneExists (l : LaneId) : Bool := decide (l.lane < 4) && ((l.die == 6 && decide (l.quad < 24)) || (decide (l.die < 6) && decide (l.quad < 4)))
/-- Receive record of a lane. -/
def State.lane (s : State) (b j : Nat) : Lane := tget (fun _ => Lane.empty) s.lanes (b + j)
/-- Set the receive record of a lane. -/
def State.setLane (s : State) (b j : Nat) (x : Lane) : State := { s with lanes := tput (fun _ => Lane.empty) s.lanes (b + j) x }
/-- Event k of port p (R185). -/
def portEvent (p k : Nat) : Nat := 1536 + 32 * p + k
/-- Bytes as the decoder delivers them: one that is a code error is 0x00 (R153). -/
def maskErrs {n : Nat} (errs : BitVec n) (c : BitVec 256) : BitVec 256 :=
  (List.range 32).foldl (fun c i => if errs.toNat.testBit i then c &&& ~~~(BitVec.ofNat 256 (255 * 2 ^ (8 * i))) else c) c
/-- Set a `TP_ERR` bit. -/
def State.tpErr (s : State) (p : Nat) (f : Fld) : State := s.setBit (aTP_ERR p) f true
/-- One-way latency D in whole ticks, rounded up. -/
def State.portD (s : State) (p : Nat) : Nat := (s.fld (aTP_LAT p) fTP_LAT_D + 63) / 64
/-- Port p runs at half width on the half that leaves lane i out (R175). -/
def State.laneExcluded (s : State) (p i : Nat) : Bool := s.tpState p == 8 && i / 8 != s.fld (aTP_STATUS p) fTP_STATUS_HALF
/-- The port carries management traffic: `UNVERIFIED` to `HALF` (R178, R183). -/
def State.portManages (s : State) (p : Nat) : Bool := decide (5 ≤ s.tpState p) && decide (s.tpState p ≤ 8)
/-- The send tick of a position that leaves the receive deskew now (R166). -/
def State.rxTick (s : State) (p : Nat) : Nat := (2 ^ 64 + s.tickN - s.portD p) % 2 ^ 64
/-- Ticks until the next frame boundary, 1 to 64. -/
def State.toFrame (s : State) : Nat := 64 - s.tickN % 64

/-! ### States -/

/-- `TP_STATUS.REFUSE`: why the port is not in scheduled mode; the state first, then the conditions of R172 in their order, the
far end last. -/
def State.portRefuse (s : State) (p : Nat) : Nat :=
  let st := s.tpState p
  let far := (s.port p).farFlags.toNat
  if st = 7 then 0
  else if st = 5 then 2
  else if st = 8 ∨ st = 9 then 6
  else if st ≠ 6 then 9
  else if s.budget p = 0 then 1
  else if s.budget p < s.fld (aTP_LAT p) fTP_LAT_M then 3
  else if s.bit aREF_STATUS fREF_STATUS_HOLD then 5
  else if !s.bit aTICK_ALIGN fTICK_ALIGN_ALIGNED || !far.testBit 1 then 4
  else if (s.port p).disStep ≠ 0 then 8
  else if far.testBit 2 then 0
  else 7

/-- `REFUSE` names why the port is not in scheduled mode; one that newly finds M > B sets `BUDGET` and raises its event (R172). -/
def State.showRefuse (s : State) (p : Nat) : State :=
  let code := s.portRefuse p
  let was := s.fld (aTP_STATUS p) fTP_STATUS_REFUSE
  let t := s.setFld (aTP_STATUS p) fTP_STATUS_REFUSE code
  if code = 3 ∧ was ≠ 3 then (t.tpErr p fTP_ERR_BUDGET).raise (portEvent p 3) else t

/-- Put a port into a state, with the bits of `TP_STATUS` that go with it; leaving `SCHED` raises its event with the cause its
transmit side marks with (R173). -/
def State.portGo (s : State) (p st cause : Nat) : State :=
  let old := s.tpState p
  let a := aTP_STATUS p
  let t := s.setFld a fTP_STATUS_STATE st
  let t := (t.setBit a fTP_STATUS_SCHED (st == 7)).setBit a fTP_STATUS_DEGRADED (st == 8)
  let y := t.port p
  let t := t.setPort p { y with stageAt := s.now, txSched := false, rxSched := false, readySent := false, readySeen := 0
                                outCause := cause }
  let t := t.showRefuse p
  let t := if old = 7 ∧ st ≠ 7 then t.raise (portEvent p 1) else t
  t.syncBreach

/-- Bits of `LN_STATUS` of the port's lanes that are clear in what follows, `FAULT` aside. -/
def State.portLanes (s : State) (p : Nat) (keep : W32) : State :=
  (List.range 16).foldl (fun t i =>
    let (b, j) := portLane p i
    t.setReg (aLN_STATUS b j) (t.reg (aLN_STATUS b j) &&& keep)) s

/-- Full training starts from `LANE` (R168): the lanes load their presets and lose their alignment; remote packets in the port's queue
wait on. -/
def State.portTrain (s : State) (p : Nat) : State :=
  if !s.domOn (40 + p) then s else
  let t := (s.portCut p).portGo p 1 4
  let y := t.port p
  let t := (List.range 16).foldl (fun t i =>
    let (b, j) := portLane p i
    let t := t.setReg (aLN_TAP b j) (putF (putF (putF 0#32 fLN_TAP_MAIN 32) fLN_TAP_POST 6) fLN_TAP_PRE 2)
    let t := (t.setBit (aLN_ALIGN b j) fLN_ALIGN_LOCKED false).setBit (aLN_ALIGN b j) fLN_ALIGN_BY_AM false
    t.setLane b j Lane.empty) (t.portLanes p 8#32)
  let a := aTP_STATUS p
  let t := ((t.setBit a fTP_STATUS_VERIFIED false).setBit a fTP_STATUS_FAR_SCHED false).setBit a fTP_STATUS_HALF false
  t.setPort p { Port.empty with stageAt := s.now, cfgIn := y.cfgIn, sendWord := y.sendWord, sendAsked := y.sendAsked
                                sendFail := y.sendFail, sendBuf := y.sendBuf, sendStale := y.sendStale
                                remoteQ := y.remoteQ, disStep := y.disStep }

/-- The port goes down (R169, R180): no traffic, its lanes idle. -/
def State.portDown (s : State) (p : Nat) : State :=
  let t := ((s.portCut p).portGo p 0 8).portLanes p 10#32
  let y := t.port p
  (t.setBit (aTP_STATUS p) fTP_STATUS_VERIFIED false).setPort p
    { Port.empty with stageAt := s.now, outCause := 8, cfgIn := y.cfgIn, sendWord := y.sendWord, sendAsked := y.sendAsked
                      sendFail := y.sendFail, sendBuf := y.sendBuf, sendStale := y.sendStale, disStep := 0 }

/-- Move on to the next training stage. -/
def State.portStage (s : State) (p st : Nat) : State :=
  let t := s.setFld (aTP_STATUS p) fTP_STATUS_STATE st
  (t.setPort p { t.port p with stageAt := s.now }).showRefuse p

/-! ### Lanes (R155 to R158, R181) -/

/-- One tap request step: hold, increase or decrease. -/
def tapStep (v code : Nat) : Int := if code = 1 then (v : Int) + 1 else if code = 2 then (v : Int) - 1 else v

/-- `LN_TAP` with taps `pre` and `post` (R155). -/
def tapWord (pre post : Nat) : W32 := putF (putF (putF 0#32 fLN_TAP_PRE pre) fLN_TAP_POST post) fLN_TAP_MAIN (40 - pre - post)

/-- A code error of a lane: counted, and its tick kept for the 1,024 characters of R174 (R153). -/
def State.laneErr (s : State) (b j : Nat) : State :=
  let x := s.lane b j
  (s.satInc (aLN_ERRCNT b j) fLN_ERRCNT_ERR).setLane b j
    { x with errAt := x.errAt.filter (fun t => decide (s.now < t + 1024)) ++ [s.now] }

/-- A lane receives an ordered set, its code errors counted (R153, R156): a tap
request is applied, one that would leave a tap out of range is ignored, and a wrong check character makes the set ignored. -/
def execLaneTrainingSetReceive (p : Fin 6) (lane : Fin 16) (set : LaneSet) (s : State) :
    Host.Outcome State Fault Refusal :=
  let (b, j) := portLane p.val lane.val
  let got := (maskErrs set.errs (BitVec.ofNat 256 (set.chars.toNat * 256))).toNat
  let ch (i : Nat) : Nat := bitsOf got (8 * i + 7) (8 * i)
  let good := (List.range 6).foldl (fun c i => c ^^^ ch (i + 1)) 0 == ch 7 && !set.errs.getLsbD 0
  if !s.runs || s.tpState p.val != 1 then .next s
  else
    let s := ((List.range 8).filter (fun i => set.errs.toNat.testBit i)).foldl (fun t _ => t.laneErr b j) s
    if !good || ch 2 != lane.val || ch 1 != 0xB5 then .next s
    else
      let r := ch 3
      let a := aLN_TAP b j
      let pre := s.fld a fLN_TAP_PRE
      let post := s.fld a fLN_TAP_POST
      let t :=
        if r.testBit 4 then s.setReg a (tapWord 2 6)
        else
          let x := tapStep pre (bitsOf r 1 0)
          let y := tapStep post (bitsOf r 3 2)
          if 0 ≤ x ∧ x ≤ 6 ∧ 0 ≤ y ∧ y ≤ 12 then s.setReg a (tapWord x.toNat y.toNat) else s
      .next (if r.testBit 5 then t.setLane b j { t.lane b j with eqSeen := true } else t)

/-- The set that lane i of a port in `LANE` sends in the present eight ticks, characters 1 to 7: a training set and a tap request in turn,
a request in one set only (R156). -/
def State.laneSet (s : State) (p i : Nat) : BitVec 56 :=
  let (b, j) := portLane p i
  let x := s.lane b j
  let a := aLN_TAP b j
  let pre := s.fld a fLN_TAP_PRE
  let post := s.fld a fLN_TAP_POST
  let tq := s.now / 8 % 2 == 1
  let c1 := if tq then 0xB5 else 0x4A
  let c3 := if tq then (if s.now < x.reqAt + 16 then x.request.toNat else 0) + (if x.eqDone then 32 else 0) else p + 16 * s.tpState p
  let c4 := if tq then (if pre = 0 ∨ pre = 6 then 1 else 0) + (if post = 0 ∨ post = 12 then 2 else 0) +
    (if s.fld a fLN_TAP_MAIN < 22 then 4 else 0) else 0
  BitVec.ofNat 56 (c1 + 2 ^ 8 * i + 2 ^ 16 * c3 + 2 ^ 24 * c4 + 2 ^ 48 * (c1 ^^^ i ^^^ c3 ^^^ c4))

/-- What the receivers of a port in `LANE` do once in 256 ticks: each may request a tap step of the far transmitter, and may find that its
eye improves no more; the eye is outside the model, so both are free (R156; DESIGN CHOICE of the ticks, safe, log entry 142). -/
def State.laneTick (s : State) (p : Nat) : State :=
  if s.tpState p ≠ 1 ∨ s.now % 256 ≠ 0 then s
  else
    (List.range 16).foldl (fun t i =>
      let (b, j) := portLane p i
      let (r, t) := t.fresh 5
      let (fin, t) := t.freshB
      let x := t.lane b j
      t.setLane b j { x with request := r, reqAt := s.now, eqDone := x.eqDone || fin }) s

/-- This end has sent done on all 16 lanes and seen done on all: `ALIGN` follows (R156, R157). -/
def execLaneEqDone (p : Fin 6) (s : State) : Host.Outcome State Fault Refusal :=
  let done := (List.range 16).all (fun i =>
    let x := s.lane (portLane p.val i).1 (portLane p.val i).2
    x.eqSeen && x.eqDone)
  if s.runs && s.tpState p.val == 1 && done then
    let t := (List.range 16).foldl (fun t i =>
      let (b, j) := portLane p.val i
      t.setReg (aLN_STATUS b j) (t.reg (aLN_STATUS b j) ||| 7#32)) s
    .next (t.portStage p.val 2)
  else .next s

/-- Every lane of a port in `ALIGN` is aligned: `DESKEW` follows (R157). -/
def State.checkAligned (s : State) (p : Nat) : State :=
  let all := (List.range 16).all (fun i => s.bit (aLN_ALIGN (portLane p i).1 (portLane p i).2) fLN_ALIGN_LOCKED)
  if s.tpState p = 2 ∧ all then s.portStage p 3 else s

/-- The character boundary of a lane moves one bit later (R157). -/
def State.slip (s : State) (b j : Nat) : State :=
  let a := aLN_ALIGN b j
  s.setFld a fLN_ALIGN_OFFSET ((s.fld a fLN_ALIGN_OFFSET + 1) % 10)

/-- A write of `LN_ALIGN` (R157). -/
def lnAlignWrite (d q j : Nat) (v : W32) (s : State) : Answer :=
  let b := quadBlock d q
  let t := if getB v fLN_ALIGN_SLIP then s.slip b j else s
  let t := if getB v fLN_ALIGN_DONE then t.setBit (aLN_ALIGN b j) fLN_ALIGN_LOCKED true else t
  wrote (if d = 6 then t.checkAligned (q / 4) else t)

/-- `LN_ALIGN.SLIP` written by master m. -/
def execLnAlignSlip (m : Rm) (l : LaneId) (s : State) : Host.Outcome State Fault Refusal :=
  let v := putF 0#32 fLN_ALIGN_SLIP 1
  if laneExists l then .next (ringPut m (aLN_ALIGN (quadBlock l.die l.quad) l.lane) v (lnAlignWrite l.die l.quad l.lane v) s)
  else .next s
/-- `LN_ALIGN.DONE` written by master m. -/
def execLnAlignDone (m : Rm) (l : LaneId) (s : State) : Host.Outcome State Fault Refusal :=
  let v := putF 0#32 fLN_ALIGN_DONE 1
  if laneExists l then .next (ringPut m (aLN_ALIGN (quadBlock l.die l.quad) l.lane) v (lnAlignWrite l.die l.quad l.lane v) s)
  else .next s

/-- 8,192 ticks of `ALIGN` pass without a lane declared aligned: its hardware takes over (R157). -/
def execLaneAlignTimeout (p : Fin 6) (lane : Fin 16) (s : State) : Host.Outcome State Fault Refusal :=
  let (b, j) := portLane p.val lane.val
  if s.runs && s.tpState p.val == 2 && !s.bit (aLN_ALIGN b j) fLN_ALIGN_LOCKED &&
      decide ((s.port p.val).stageAt + 8192 ≤ s.now) then
    .next (s.setLane b j { s.lane b j with byMarker := true })
  else .next s

/-- A fabric edge on `GL_SLIP` slips a general lane that is on (R181). There is none while a region at the signal's place holds it (R187,
R207). -/
def execGlSlip (l : LaneId) (s : State) : Host.Outcome State Fault Refusal :=
  let b := quadBlock l.die l.quad
  if laneExists l && l.die != 6 && s.runs && !s.inReset l.die && s.fld (aLN_CTRL b l.lane) fLN_CTRL_MODE != 0 &&
      !s.placeHeld l.die (glPlace l.quad) then
    .next (s.slip b l.lane)
  else .next s

/-- A write of `LN_CTRL`: the rate and mode of a general lane, its polarity, and `CLR` (R181). A lane switched on locks its PLL;
whether its receiver locks is a free choice. -/
def lnCtrlWrite (d q j : Nat) (v : W32) (s : State) : Answer :=
  let b := quadBlock d q
  let a := aLN_CTRL b j
  let old := s.reg a
  let mode := if getF v fLN_CTRL_MODE = 3 then getF old fLN_CTRL_MODE else getF v fLN_CTRL_MODE
  let v := if d = 6 then putF (putF (putF v fLN_CTRL_MODE (getF old fLN_CTRL_MODE)) fLN_CTRL_RATE (getF old fLN_CTRL_RATE))
      fLN_CTRL_TXEN (getF old fLN_CTRL_TXEN)
    else putF v fLN_CTRL_MODE mode
  let t := s.plainWrite a v
  let t := if getB v fLN_CTRL_CLR then t.setReg (aLN_ERRCNT b j) 0#32 else t
  if d = 6 ∨ mode = getF old fLN_CTRL_MODE then wrote t
  else
    let keep := t.reg (aLN_STATUS b j) &&& 8#32
    if mode = 0 then wrote (t.setReg (aLN_STATUS b j) keep)
    else
      let (locked, t) := t.freshB
      wrote (t.setReg (aLN_STATUS b j) (keep ||| (if locked then 7#32 else 3#32)))

/-- A write of `LN_TAP`: refused out of range (R155). -/
def lnTapWrite (d q j : Nat) (v : W32) (s : State) : Answer :=
  let a := aLN_TAP (quadBlock d q) j
  if 6 < getF v fLN_TAP_PRE ∨ 12 < getF v fLN_TAP_POST then refuse s
  else wrote (s.setReg a (tapWord (getF v fLN_TAP_PRE) (getF v fLN_TAP_POST)))

/-! ### Lane faults and half width (R174, R175) -/

/-- A lane of half `h` (0 lanes 0 to 7, 1 lanes 8 to 15) of the port is faulty. -/
def State.halfFaulty (s : State) (p h : Nat) : Bool :=
  (List.range 8).any (fun i => (s.lane (portLane p (8 * h + i)).1 (portLane p (8 * h + i)).2).faulty)

/-- Frame tick at which a half-width request sent in the next control position takes effect (R175). -/
def State.switchTick (s : State) (p : Nat) : Nat :=
  let ctrl := (s.tickN / 64 + 1) * 64
  (ctrl + 2 * s.portD p + 128 + 63) / 64 * 64

/-- A lane of a port is found faulty: its bits and its event; the port moves to the other half where that is fault-free, and trains in full
where it is not, or where it has moved already (R174, R175). -/
def State.portLaneFault (s : State) (p i : Nat) : State :=
  let (b, j) := portLane p i
  let st := s.tpState p
  if (st = 6 ∨ st = 7 ∨ st = 8 ∨ st = 9) ∧ !(s.lane b j).faulty then
    let t := (s.setBit (aLN_STATUS b j) fLN_STATUS_FAULT true).raise (portEvent p (16 + i))
    let t := (t.tpErr p fTP_ERR_LANE).setLane b j { t.lane b j with faulty := true }
    let other := 1 - i / 8
    if st = 8 then t.portTrain p
    else if t.halfFaulty p other then t.portTrain p
    else if st = 9 then (if i / 8 = s.fld (aTP_STATUS p) fTP_STATUS_HALF then t.portTrain p else t)
    else
      let t := (t.portGo p 9 4).setFld (aTP_STATUS p) fTP_STATUS_HALF other
      t.setPort p { t.port p with switchAt := some (s.switchTick p) }
  else s

/-- Lanes of a port in use that counted 16 code errors in 1,024 characters are faulty (R174). -/
def State.judgeLanes (s : State) (p : Nat) : State :=
  (List.range 16).foldl (fun t i =>
    let (b, j) := portLane p i
    let st := t.tpState p
    if (st = 6 ∨ st = 7 ∨ st = 8) ∧ !t.laneExcluded p i ∧ 16 ≤ ((t.lane b j).errAt.filter (fun u => decide (t.now < u + 1024))).length
    then t.portLaneFault p i else t) s

/-- A lane lost lock, or counted code errors in its last 1,024 characters outside positions and ordered sets (R174, R182): a general
lane is faulty by the first, and in coding mode by 16 of the second. -/
def execLaneFault (x : LaneTrouble) (s : State) : Host.Outcome State Fault Refusal :=
  let l := x.id
  let b := quadBlock l.die l.quad
  let a := aLN_STATUS b l.lane
  let mode := s.fld (aLN_CTRL b l.lane) fLN_CTRL_MODE
  if !laneExists l || !s.runs || s.inReset l.die then .next s
  else if l.die ≠ 6 ∧ mode = 0 then .next s
  else
    let coded := l.die == 6 || mode == 1
    let t := if coded then (List.range (min x.errs 1024)).foldl (fun t _ => t.laneErr b l.lane) s else s
    let t := if x.lost then t.setBit a fLN_STATUS_CDR_LOCK false else t
    let bad := x.lost || (coded && decide (16 ≤ (t.lane b l.lane).errAt.length))
    if !bad then .next t
    else if l.die = 6 then .next (t.portLaneFault (l.quad / 4) (4 * (l.quad % 4) + l.lane))
    else .next (t.flagRaise a fLN_STATUS_FAULT (768 + 128 * l.die + 96 + 4 * l.quad + l.lane))

/-- The port enters `HALF` (R175). -/
def State.enterHalf (s : State) (p : Nat) : State :=
  let u := (s.portGo p 8 8).raise (portEvent p 5)
  u.setPort p { u.port p with switchAt := none, markQ := [] }

/-- Both transmitters have moved to the chosen half at the agreed frame, and its control position has come: the port enters `HALF`
(R175). -/
def execHalfWidthSwitch (p : Fin 6) (s : State) : Host.Outcome State Fault Refusal :=
  match (s.port p.val).switchAt with
  | some t => if s.runs && s.tpState p.val == 9 && decide (t + s.portD p.val ≤ s.tickN) then .next (s.enterHalf p.val) else .next s
  | none => .next s

/-- An alignment marker arrives: for each lane its character offset from its place, none where no marker came (R157, R158,
R163, R174). -/
def execAlignmentMarkerReceive (p : Fin 6) (arrive : List (Option Nat)) (s : State) : Host.Outcome State Fault Refusal :=
  let p := p.val
  let st := s.tpState p
  let at' (i : Nat) : Option Nat := (arrive.getD i none)
  if !s.runs then .next s
  else if st = 2 then
    let t := (List.range 16).foldl (fun t i =>
      let (b, j) := portLane p i
      if (at' i).isSome && ((t.lane b j).byMarker || !t.bit (aTP_CTRL p) fTP_CTRL_FW_ALIGN) &&
          !t.bit (aLN_ALIGN b j) fLN_ALIGN_LOCKED then
        let (v, t) := t.fresh 32
        let t := (t.setBit (aLN_ALIGN b j) fLN_ALIGN_LOCKED true).setBit (aLN_ALIGN b j) fLN_ALIGN_BY_AM true
        t.setFld (aLN_ALIGN b j) fLN_ALIGN_OFFSET (v.toNat % 10)
      else t) s
    .next (t.checkAligned p)
  else if st = 3 then
    if (List.range 16).all (fun i => (at' i).isSome) then
      let xs := (List.range 16).map (fun i => (at' i).getD 0)
      let skew := xs.foldl max 0 - xs.foldl min (xs.headD 0)
      if skew ≤ 24 then .next (s.portStage p 4) else .next ((s.tpErr p fTP_ERR_SKEW).portTrain p)
    else .next s
  else if st = 6 ∨ st = 7 ∨ st = 8 then
    let y := s.port p
    let s := s.setPort p { y with keys := 0, keyOk := true, ctrlSeen := 0 }
    .next (((List.range 16).filter (fun i => !s.laneExcluded p i && at' i != some 0)).foldl (fun t i => t.portLaneFault p i) s)
  else .next s

/-- Code errors of a position: the lane of each character counts one, and a lane that has too many is faulty (R153, R174). Character k
travels on lane k mod 16, at half width on lane k mod 8 of the half in use (R161, R175). -/
def State.posErrs (s : State) (p : Nat) (errs : BitVec 32) : State :=
  let half := s.tpState p == 8
  let h := s.fld (aTP_STATUS p) fTP_STATUS_HALF
  let lane (k : Nat) : Nat := if half then 8 * h + k % 8 else k % 16
  (((List.range 32).filter (fun k => errs.toNat.testBit k)).foldl (fun t k =>
    t.laneErr (portLane p (lane k)).1 (portLane p (lane k)).2) s).judgeLanes p

/-! ### Training (R168 to R171) -/

/-- Limit of a training stage in ticks. -/
def portLimit (st : Nat) : Option Nat :=
  match st with
  | 1 => some 1500000
  | 2 => some 40960
  | 3 => some 32768
  | 4 => some 65536
  | _ => none

/-- A training stage overruns (R168). -/
def execPortStageTimeout (p : Fin 6) (s : State) : Host.Outcome State Fault Refusal :=
  let y := s.port p.val
  match portLimit (s.tpState p.val) with
  | none => .next s
  | some lim =>
    if s.runs && y.restartAt.isNone && decide (y.stageAt + lim < s.now) then
      let t := (s.tpErr p.val fTP_ERR_STAGE).raise (portEvent p.val 4)
      .next (t.setPort p.val { t.port p.val with restartAt := some (s.now + 65536) })
    else .next s

/-- 65,536 ticks after an overrun, training restarts (R168). -/
def execPortTrainRestart (p : Fin 6) (s : State) : Host.Outcome State Fault Refusal :=
  match (s.port p.val).restartAt with
  | none => .next s
  | some t => if s.runs && decide (t ≤ s.now) then .next (s.portTrain p.val) else .next s

/-- An exchange position arrives, `frac` the 1/64 tick of its arrival by the CDR phase (R169): it shows the neighbour, and the number it
echoes gives a round trip. -/
def execExchangePositionReceive (p : Fin 6) (pos : ExchangeRx) (frac : Fin 64) (s : State) :
    Host.Outcome State Fault Refusal :=
  let p := p.val
  if !s.runs || s.tpState p != 4 then .next s
  else
    let s := s.posErrs p pos.errs
    let c := maskErrs pos.errs pos.content
    let y := s.port p
    if posByte c 0 ≠ clsByte 9 ∨ pos.errs.getLsbD 0 ∨ !posCrcOk c then .next s
    else
      let t := s.setReg64 (aTP_SEEN_LO p) (aTP_SEEN_HI p) (bitsOf c.toNat 79 16)
      let t := t.setReg (aTP_SEEN_INFO p) (putF (putF 0#32 fTP_SEEN_INFO_DEV (bitsOf c.toNat 95 80)) fTP_SEEN_INFO_PORT
        (bitsOf (posByte c 1) 2 0))
      let arrive := 64 * s.now + frac.val
      let echo := posByte c 13
      let sent := 64 * (y.exchLast - 256 * ((y.exchSeq.toNat + 256 - echo) % 256))
      let trip := arrive - sent
      let turn := bitsOf c.toNat 135 112
      let near := decide (trip ≤ y.firstTrip + 4) && decide (y.firstTrip ≤ trip + 4)
      let y := { y with farExchDone := (posByte c 1).testBit 7, exchSeen := BitVec.ofNat 8 (posByte c 12), exchAt := arrive }
      let y :=
        if echo = 0 ∨ 16 ≤ y.trips.length then y
        else if y.trips = [] ∨ !near then { y with trips := [trip - turn], firstTrip := trip }
        else { y with trips := y.trips ++ [trip - turn] }
      .next (t.setPort p y)

/-- In `EXCHANGE` this end sends an exchange position every 256 ticks, after the control position of the frame; it numbers them from 1, so
that 0 echoes none (R169; DESIGN CHOICE of both, safe, log entry 143). -/
def State.sendExchange (s : State) (p : Nat) : State :=
  let u := s.tickN
  if s.tpState p ≠ 4 ∨ u % 256 ≠ 2 then s
  else
    let y := s.port p
    let seq := y.exchSeq + 1
    let turn := if y.exchSeen = 0 then 0 else 64 * s.now - y.exchAt
    let c := p + (if y.exchDone then 128 else 0) + 2 ^ 8 * s.fuse.uid.toNat + 2 ^ 72 * s.devId + 2 ^ 88 * seq.toNat +
      2 ^ 96 * y.exchSeen.toNat + 2 ^ 104 * (turn % 2 ^ 24)
    let pos := mkPos u 9 c
    (s.setPort p { y with exchSeq := seq, exchLast := s.now, exchSaid := y.exchDone }).sendPos p
      { pos with payload := withPosCrc pos.payload } 0

/-- The neighbour is verified, or why not: identity wrong, pairing wrong (R170). -/
def State.identity (s : State) (p : Nat) : Bool × Bool :=
  let seen := s.reg64 (aTP_SEEN_LO p) (aTP_SEEN_HI p)
  let expd := s.reg64 (aTP_EXP_LO p) (aTP_EXP_HI p)
  let port := s.fld (aTP_SEEN_INFO p) fTP_SEEN_INFO_PORT
  let opp := if p % 2 = 0 then p + 1 else p - 1
  (expd == 0 || seen != expd, port != opp || (seen == s.fuse.uid.toNat && port == p))

/-- The port leaves `EXCHANGE` with its neighbour verified or not (R170). -/
def State.portVerify (s : State) (p : Nat) : State :=
  let (idBad, pairBad) := s.identity p
  let s := s.setPort p { s.port p with pairCause := pairBad }
  if !idBad && !pairBad then (s.setBit (aTP_STATUS p) fTP_STATUS_VERIFIED true).portGo p 6 8
  else
    let s := if idBad then s.tpErr p fTP_ERR_ID else s
    let s := if pairBad then s.tpErr p fTP_ERR_PAIR else s
    (s.portGo p 5 8).raise (portEvent p 2)

/-- Sixteen round trips are in: D and M are recorded and done is sent from the next position on, or the neighbour is too far; once both
ends have sent done the port leaves the stage (R169, R170). -/
def execExchangeComplete (p : Fin 6) (s : State) : Host.Outcome State Fault Refusal :=
  let p := p.val
  let y := s.port p
  if !s.runs || s.tpState p != 4 then .next s
  else if y.exchDone then (if y.exchSaid && y.farExchDone then .next (s.portVerify p) else .next s)
  else if y.trips.length < 16 then .next s
  else
    let d := y.trips.foldl (· + ·) 0 / 32
    if 261440 < d then
      .next (((s.tpErr p fTP_ERR_FAR).portDown p).raise (portEvent p 4))
    else
      let m := (d + 63) / 64 + 10
      let t := s.setReg (aTP_LAT p) (putF (putF 0#32 fTP_LAT_M m) fTP_LAT_D d)
      .next (t.setPort p { y with exchDone := true })

/-! ### Scheduled mode (R172, R173) -/

/-- The port enters scheduled mode (R172); its receive delay is fixed at the first entry since it trained (R55). -/
def State.enterSched (s : State) (p : Nat) : State :=
  let far := (s.port p).farFlags.toNat
  let t := s.portGo p 7 8
  let y := t.port p
  (t.setPort p { y with txSched := true, schedFrom := s.now + s.toFrame, rxSched := far.testBit 3
                        delay := some (y.delay.getD (s.budget p)) }).syncBreach.raise (portEvent p 0)

/-- A port in `LINK` judges R172. -/
def State.portJudge (s : State) (p : Nat) : State :=
  let code := s.portRefuse p
  let t := s.showRefuse p
  let y := t.port p
  if s.tpState p ≠ 6 then t
  else if code = 0 ∧ y.readySent ∧ 2 ≤ y.readySeen then t.enterSched p
  else if code = 0 ∨ code = 7 then t
  else t.setPort p { y with readySent := false }

/-- Cause for which a port in `SCHED` leaves it; none while it stays (R173). -/
def State.leaveCause (s : State) (p : Nat) : Option Nat :=
  let y := s.port p
  if !s.aligned then some 6
  else if s.bit aREF_STATUS fREF_STATUS_HOLD then some 5
  else if s.budget p = 0 ∨ (y.rxSched ∧ !y.farFlags.toNat.testBit 3) then some 8
  else none

/-- The tick is a boundary of the running pattern's period, or no pattern runs (R123, step 3). -/
def State.periodBoundary (s : State) : Bool :=
  !s.bit aPAT_STATUS fPAT_STATUS_RUN || s.period == 0 || s.tickN % s.period == 0

/-- The last step of a disable: `DRAINED`, `EN` cleared, `DOWN`, or `REST` where it was asked for (R159, R180). -/
def State.portDrained (s : State) (p : Nat) : State :=
  let t := (s.portDown p).setBit (aTP_CTRL p) fTP_CTRL_EN false
  let t := (t.setBit (aTP_STATUS p) fTP_STATUS_DRAINED true).raise (portEvent p 6)
  if t.fld (aTP_CTRL p) fTP_CTRL_LSTATE = 2 then (t.portLanes p 8#32).portStage p 11 else t

/-- A forced disable answers the packets that the port has taken with status 0b100, and its remote packets are dropped, whose status has
no such value (R180; DESIGN CHOICE of the latter, unsafe, log entry 144). -/
def State.portForce (s : State) (p : Nat) : State :=
  let held := [0, 1].filterMap (fun vc => s.holder 6 (portRouter p) 5 vc)
  let t := held.foldl (fun t x =>
    let u := t.freeItem x
    if x.vc = 0 ∧ hType x.pkt.hdr ≠ 4 then u.respond 6 (portRouter p) x.pkt.hdr x.own 4 [] else u) s
  t.setPort p { t.port p with startSent := false, remoteQ := [], remoteOut := none }

/-- What a port being disabled does on a tick: the packets and remote packets it has taken complete, a period boundary passes, and a port
out of `SCHED` is drained; one in `SCHED` leaves it at the next frame boundary (R123, R173, R180). -/
def State.portDisTick (s : State) (p : Nat) : State :=
  let y := s.port p
  let idle := ([0, 1].all fun vc => (s.holder 6 (portRouter p) 5 vc).isNone) && y.remoteQ.isEmpty && y.remoteOut.isNone
  if y.disStep = 1 ∧ idle then s.setPort p { y with disStep := 2 }
  else if y.disStep = 2 ∧ s.periodBoundary then s.setPort p { y with disStep := 3 }
  else if y.disStep = 3 ∧ s.tpState p ≠ 7 then s.portDrained p
  else s

/-- A condition of R173 holds at a frame boundary, or a disable has reached step 3: the port leaves `SCHED`. -/
def execLeaveSched (p : Fin 6) (s : State) : Host.Outcome State Fault Refusal :=
  let p := p.val
  if !s.runs || s.tpState p != 7 || s.tickN % 64 != 0 then .next s
  else if (s.port p).disStep = 3 then .next (s.portDrained p)
  else
    match s.leaveCause p with
    | some c => .next (s.portGo p 6 c)
    | none => .next s

/-! ### Positions received -/

/-- Places that a cumulative count reports freed since the last one (R162). -/
def freedSince (new old : BitVec 8) : Nat := (new - old).toNat

/-- A half of a remote ring packet arrives (R162, R178): two halves make a packet; more than eight waiting are dropped. -/
def State.takeHalf (s : State) (p kind : Nat) (half : BitVec 60) : State :=
  let y := s.port p
  match kind, y.remoteHalf with
  | 1, _ => s.setPort p { y with remoteHalf := some half }
  | 2, some lo =>
    let t := s.setPort p { y with remoteHalf := none }
    if (s.remoteIn.filter (fun x => x.1 == p)).length < 8 then { t with remoteIn := t.remoteIn ++ [(p, half ++ lo)] } else t
  | _, _ => s.setPort p { y with remoteHalf := none }

/-- A control position that passed its CRC, or a time marker in its place (R162, R163, R172, R175, R159). In `SWITCH`, one of the agreed frame
or a later one ends the move. -/
def State.takeControl (s : State) (p : Nat) (c : BitVec 256) : State :=
  let marker := posByte c 0 == clsByte 7
  let flags := posByte c 1
  let y := s.port p
  let reqCr := BitVec.ofNat 8 (posByte c 2)
  let rspCr := BitVec.ofNat 8 (posByte c 3)
  let cfgCr := BitVec.ofNat 8 (posByte c 4)
  let st := s.tpState p
  let both := s.fld (aTP_CTRL p) fTP_CTRL_LSTATE == 1 && flags.testBit 6 && (st == 5 || st == 6 || st == 8)
  let y := { y with
    farFlags := BitVec.ofNat 8 flags, keys := c.extractLsb' 104 128, keyOk := true, ctrlSeen := 0
    sentReq := y.sentReq - freedSince reqCr y.farReq, farReq := reqCr
    sentRsp := y.sentRsp - freedSince rspCr y.farRsp, farRsp := rspCr
    sendUnacked := y.sendUnacked - freedSince cfgCr y.farCfg, farCfg := cfgCr
    readySeen := if flags.testBit 2 then y.readySeen + 1 else 0
    rxSched := if st = 7 then y.rxSched || flags.testBit 3 else y.rxSched
    quietAt := if both then (if y.quietAt.isSome then y.quietAt else some ((s.tickN / 64 + 2) * 64)) else none }
  let t := (s.setPort p y).setBit (aTP_STATUS p) fTP_STATUS_FAR_SCHED (flags.testBit 3)
  let t := if marker then t else t.takeHalf p (bitsOf c.toNat 101 100) (c.extractLsb' 40 60)
  if st = 9 then (match y.switchAt with
    | some u => if u + s.portD p ≤ s.tickN then t.enterHalf p else t
    | none => t)
  else if flags.testBit 4 ∧ (st = 6 ∨ st = 7) then
    let f0 := s.tickN / 64
    let dist := (posByte c 29 + 256 - f0 % 256) % 256
    let t := (t.portGo p 9 4).setFld (aTP_STATUS p) fTP_STATUS_HALF (if flags.testBit 5 then 1 else 0)
    t.setPort p { t.port p with switchAt := some ((f0 + dist) * 64) }
  else t.portJudge p

/-- A control position arrives, or a time marker in its place (R162, R163, R167). One whose CRC fails, or whose first character is no such
class, is ignored as a whole, and a remote packet whose other half has come is dropped with it (R178). -/
def execControlPositionReceive (p : Fin 6) (content : BitVec 256) (errs : BitVec 32) (s : State) :
    Host.Outcome State Fault Refusal :=
  let p := p.val
  if !s.runs || !(s.portManages p || s.tpState p == 9) then .next s
  else
    let s := s.posErrs p errs
    let c := maskErrs errs content
    let cls := posByte c 0
    if !(s.portManages p || s.tpState p == 9) then .next s
    else if !errs.getLsbD 0 && (cls == clsByte 6 || cls == clsByte 7) && posCrcOk c then .next (s.takeControl p c)
    else .next ((s.tpErr p fTP_ERR_CTRL_CRC).setPort p { s.port p with keyOk := false, ctrlSeen := 0, remoteHalf := none })

/-- A key slot is in use: valid, and not being retired (R308, R319). -/
def State.slotUsable (s : State) (k : Nat) : Bool :=
  s.bit (aKM_SLOT k) fKM_SLOT_VALID &&
    !(s.bit aKM_STATUS fKM_STATUS_RETIRING && s.fld aKM_STATUS fKM_STATUS_RID == k)
/-- Key of a slot. -/
def State.slotKey (s : State) (k : Nat) : Quad :=
  { x0 := s.reg (aKM_KEY (4 * k)), x1 := s.reg (aKM_KEY (4 * k + 1)), x2 := s.reg (aKM_KEY (4 * k + 2)), x3 := s.reg (aKM_KEY (4 * k + 3)) }
/-- Set a link bit of `KM_ERR`; event 359 when the first of the two goes from 0 to 1 (R319, R320). -/
def State.kmLinkErr (s : State) (f : Fld) : State := s.flagRaise aKM_ERR f 359

/-- The marker that stands for a scheduled position. -/
def markerFlit (cause : Nat) : Flit :=
  { valid := false, flow := 0, cause := cause, key := 0, bank := false, parityOk := true, payload := 0 }

/-- A scheduled position or marker is released to the receiving hub router (R166, R167, R318, R319). -/
def State.takeScheduled (s : State) (p idx : Nat) (x : PortRx) : State :=
  let y := s.port p
  let key := bitsOf y.keys.toNat (4 * idx + 3) (4 * idx)
  let due := s.now + y.delay.getD (s.budget p) - 2 - s.portD p
  let put (t : State) (f : Flit) : State := t.send f (.router 6 (portRouter p) 5 (some (.port p))) due
  if x.k then put s (markerFlit (posByte x.content 1 % 16))
  else if x.errs ≠ 0 ∨ !y.keyOk then put s (markerFlit 9)
  else
    let f : Flit := { markerFlit 0 with valid := true, payload := x.content, key := key }
    if key = 0 then put s f
    else if s.slotUsable key then
      let dev := s.fld (aTP_SEEN_INFO p) fTP_SEEN_INFO_DEV
      let port := s.fld (aTP_SEEN_INFO p) fTP_SEEN_INFO_PORT
      put s { f with payload := linkMix true (s.slotKey key) dev port (s.rxTick p) x.content }
    else put (s.kmLinkErr fKM_ERR_LINK_RX) (markerFlit 9)

/-- A best-effort packet that came whole enters the side input of the port's router (R104, R164). -/
def State.takePacket (s : State) (p : Nat) (fl : List (BitVec 256)) : State :=
  match fl with
  | [] => s
  | h :: data =>
    let n := portRouter p
    let vc := hVc h
    let need := 1 + data.length
    let rsv := if hSpill h && vc == 0 then min need (s.freeRsv 6 n 5 vc) else 0
    let x : BeItem := { BeItem.start { hdr := h, data := data } 6 n 5 s.now 0 with rsv := rsv, via := some (.port p), port := some p, raw := true }
    (s.charge 6 n 5 vc (need - rsv) rsv false).addItem x

/-- A best-effort start or flit (R161, R164). -/
def State.takeBestEffort (s : State) (p : Nat) (start : Bool) (x : PortRx) : State :=
  let y := s.port p
  let bad := x.errs != 0
  if start then
    s.setPort p { y with rxLeft := bitsOf (posByte x.content 1) 5 2
                         rxFirst := (List.range 9).map (fun i => BitVec.ofNat 8 (posByte x.content (2 + i)))
                         rxFlits := [], rxBad := bad }
  else if y.rxLeft = 0 then s
  else
    let i := y.rxFlits.length
    let f : BitVec 256 := x.content.extractLsb' 8 248 ++ y.rxFirst.getD i 0
    let fl := y.rxFlits ++ [f]
    let bad := y.rxBad || bad
    let t := s.setPort p { y with rxLeft := y.rxLeft - 1, rxFlits := fl, rxBad := bad }
    if y.rxLeft = 1 ∧ !bad ∧ fl.length = 1 + hNdata (fl.headD 0) then t.takePacket p fl else t

/-- `CFG_MODE` selects port loading, or the device is configured and the port's `CFG_RX` is 1 (R183). -/
def State.portLoads (s : State) (p : Nat) : Bool :=
  s.pins.cfgMode == 2 || (s.bit aCFG_STATUS fCFG_STATUS_DONE && s.bit (aTP_CTRL p) fTP_CTRL_CFG_RX)

/-- A configuration stream position (R161, R183): the first port that delivers one is the source. A position that is discarded is
returned at once (DESIGN CHOICE, unsafe, log entry 147). -/
def State.takeStream (s : State) (p : Nat) (x : PortRx) : State :=
  let y := s.port p
  let n := posByte x.content 1
  let pos : CfgPos := { words := (List.range (min n 7)).map (fun i => x.content.extractLsb' (32 + 32 * i) 32), poison := x.errs != 0 }
  let src := s.fld aCFG_STATUS fCFG_STATUS_SRC
  let back := s.setPort p { y with cfgAccepted := y.cfgAccepted + 1 }
  if !s.portLoads p then back
  else if (s.cfg.portSrc.getD p) ≠ p then back.tpErr p fTP_ERR_CFG
  else if src ≠ 0 ∧ src ≠ 3 then back.setBit aCFG_STATUS fCFG_STATUS_OTHER true
  else if y.cfgIn.length < 128 then
    { s.setPort p { y with cfgIn := y.cfgIn ++ [pos] } with cfg := { s.cfg with portSrc := some p } }
  else s

/-- A position leaves the receive deskew (R153, R161, R166): its lane 0, byte 0 gives its class, a code error there being data. Control and
exchange positions have commands of their own, and idle positions carry nothing and are not counted (DEDUCED, unsafe, log entry
145). -/
def execPortPositionReceive (p : Fin 6) (pos : PortRx) (s : State) : Host.Outcome State Fault Refusal :=
  let p := p.val
  if !s.runs || !s.portManages p then .next s
  else
    let k := pos.k && !pos.errs.getLsbD 0
    let x : PortRx := { pos with k := k, content := maskErrs pos.errs pos.content }
    let cls := clsOf k (posByte x.content 0)
    let t := s.posErrs p pos.errs
    if !t.portManages p then .next t
    else
      let y := t.port p
      let t := if cls < 5 then t.setPort p { y with ctrlSeen := y.ctrlSeen + 1 } else t
      match cls with
      | 0 => .next (if t.tpState p = 7 ∧ y.rxSched then t.takeScheduled p y.ctrlSeen x else t)
      | 1 => .next (if t.tpState p = 7 ∧ y.rxSched then t.takeScheduled p y.ctrlSeen x else t)
      | 2 => .next (if t.portCarriesBe p then t.takeBestEffort p true x else t)
      | 3 => .next (if t.portCarriesBe p then t.takeBestEffort p false x else t)
      | 4 => .next (t.takeStream p x)
      | _ => .next t

/-! ### Positions sent -/

/-- Send tick t may hold a scheduled position of a flit that leaves the router two ticks before (R165). -/
def frameFits (t : Nat) : Bool := t % 64 != 61 && t % 64 != 62 && t % 64 != 63
/-- The frame of a send tick holds an alignment marker in place of its control position (R158, R163). -/
def alignFrame (sendTick : Nat) : Bool := sendTick / 64 * 64 % 16384 == 64

/-- Back from quiet in 150 ticks (R159). -/
def State.portWake (s : State) (p : Nat) : State :=
  let y := s.port p
  if s.tpState p = 10 ∧ y.wakeAt.isNone then s.setPort p { y with wakeAt := some (s.now + 150) } else s
/-- A port whose 150 ticks are over is active in the state it was in before quiet; one in quiet that has something to send wakes (R159). -/
def State.wakeTick (s : State) (p : Nat) : State :=
  let y := s.port p
  if s.tpState p ≠ 10 then s
  else
    match y.wakeAt with
    | none => if s.portBusy p then s.portWake p else s
    | some t =>
      if t ≤ s.now then
        let u := s.portGo p y.quietFrom 8
        let u := (List.range 16).foldl (fun u i => u.setBit (aLN_STATUS (portLane p i).1 (portLane p i).2) fLN_STATUS_ACTIVE true) u
        u.setPort p { u.port p with wakeAt := none }
      else s

/-- An absence marker enters the assembly on a send tick. -/
def State.sendMarker (s : State) (p u cause : Nat) : State := s.sendPos p (mkPos u 1 cause) 0

/-- One scheduled flit reaches a port's transmit side on tick t (R62, R165, R173, R318, R319). One that breaks the rules becomes a marker
that waits for the next admissible position; at half width the flit's marker goes where its send ticks are free; a port that runs
no frames sends nothing, and one in quiet wakes. -/
def State.admitFlit (s : State) (p : Nat) (i : Item) : State :=
  let t := s.tickAt i.due
  let y := s.port p
  let st := s.tpState p
  let cause : Option Nat := if i.flit.valid then s.portCause p false else some i.flit.cause
  let late (w : Nat) : State :=
    (s.logFault 2 w i.flit.flow 6 (portRouter p) p).setPort p { y with markQ := y.markQ ++ [if i.flit.valid then 2 else i.flit.cause] }
  if st = 10 then s.portWake p
  else if st < 6 ∨ 9 < st then s
  else if s.txHalf p then (if s.slotFree p (t + 2) then s.sendMarker p (t + 2) (cause.getD 8) else s)
  else
    match y.admits.find? (fun a => a.1 == t + 1) with
    | some a => late a.2
    | none =>
      if !frameFits t then late i.flit.flow
      else
        let s := s.setPort p { y with admits := y.admits.filter (fun a => decide (t < a.1 + 64)) ++ [(t + 2, i.flit.flow)] }
        match cause with
        | some c => s.sendMarker p (t + 2) c
        | none =>
          let k := i.flit.key
          let pos (f : BitVec 256) : PortPos := { sendTick := t + 2, cls := 0, payload := f, codeError := false }
          if k = 0 ∨ alignFrame (t + 2) then s.sendPos p (pos i.flit.payload) 0
          else if s.slotUsable k then s.sendPos p (pos (linkMix false (s.slotKey k) s.devId p (t + 2) i.flit.payload)) k
          else (s.kmLinkErr fKM_ERR_LINK_TX).sendPos p (pos i.flit.payload) 0

/-- The flits at a port's transmit side are admitted, in the order of their ticks (R165). -/
def execPortAdmitScheduled (p : Fin 6) (s : State) : Host.Outcome State Fault Refusal :=
  let p := p.val
  let here (i : Item) : Bool := i.loc == .portTx p && decide (i.due ≤ s.now)
  let mine := s.pat.flight.filter here
  if !s.runs || mine.isEmpty then .next s
  else
    let s := { s with pat := { s.pat with flight := s.pat.flight.filter (fun i => !here i) } }
    .next ((mine.mergeSort (fun a b => decide (a.due ≤ b.due))).foldl (fun t i => t.admitFlit p i) s)

/-- A marker that waits takes the tick where it is admissible (R165). -/
def State.lateMarker (s : State) (p : Nat) : State :=
  let y := s.port p
  match y.markQ with
  | [] => s
  | c :: r =>
    if s.portFrames p && s.slotFree p s.tickN then (s.setPort p { y with markQ := r }).sendMarker p s.tickN c else s

/-- This end shows scheduled ready: in `SCHED`, or in `LINK` with every condition of R172 but the far end's. -/
def State.showsReady (s : State) (p : Nat) : Bool :=
  s.tpState p == 7 || (s.tpState p == 6 && (s.portRefuse p == 0 || s.portRefuse p == 7))

/-- `FLAGS` that this end sends (R162). -/
def State.txFlags (s : State) (p : Nat) : Nat :=
  let y := s.port p
  let st := s.tpState p
  let b (i : Nat) (v : Bool) : Nat := if v then 2 ^ i else 0
  b 0 (s.bit aREF_STATUS fREF_STATUS_HOLD) + b 1 s.aligned + b 2 (s.showsReady p) +
    b 3 (st == 7 && y.txSched && decide (y.schedFrom ≤ s.now)) + b 4 (st == 9) +
    b 5 (s.bit (aTP_STATUS p) fTP_STATUS_HALF) + b 6 (s.fld (aTP_CTRL p) fTP_CTRL_LSTATE == 1) +
    b 7 (s.bit (aTP_STATUS p) fTP_STATUS_VERIFIED)

/-- The alignment marker: K28.1 and the lane's index on every lane (R158). -/
def alignMarker : BitVec 256 :=
  BitVec.ofNat 256 ((List.range 16).foldl (fun n i => n + 2 ^ (8 * i) * 0x3C + 2 ^ (8 * (16 + i)) * i) 0)

/-- The next half of a remote packet in the order of the port's queue, with its two kind bits (R162, R178). -/
def Port.nextHalf (y : Port) : Nat × Port :=
  match y.remoteOut with
  | some k => (k.toNat / 2 ^ 60 + 2 * 2 ^ 60, { y with remoteOut := none })
  | none =>
    match y.remoteQ with
    | k :: r => (k.toNat % 2 ^ 60 + 2 ^ 60, { y with remoteOut := some k, remoteQ := r })
    | [] => (0, y)

/-- At a frame boundary a port sends its control position: flags, counts, the next half of a remote packet, its CRC; a time marker in its
place carries the tick, and an alignment marker stands in its place (R158, R162, R163, R171, R175, R178). Frames run from `EXCHANGE`
on, alignment markers from `ALIGN` on. -/
def State.portFrame (s : State) (p : Nat) : State :=
  let u := s.tickN
  let st := s.tpState p
  if u % 64 ≠ 0 ∨ (s.port p).lastSent.any (fun x => x.sendTick == u && decide (6 ≤ x.cls ∧ x.cls ≤ 8)) then s
  else if alignFrame u then
    (if 2 ≤ st ∧ st ≤ 9 then s.sendPos p { sendTick := u, cls := 8, payload := alignMarker, codeError := false } 0 else s)
  else if !s.portFrames p then s
  else
    let s := s.showRefuse p
    let y := s.port p
    let time := u % 65536 == 0
    let (ring, y) : Nat × Port := if time then (u, y) else if s.portManages p then y.nextHalf else (0, y)
    let y := if s.portCarriesBe p then { y with crReq := y.freedReq, crRsp := y.freedRsp } else y
    let sw := (y.switchAt.getD 0) / 64 % 256
    let c := s.txFlags p + 2 ^ 8 * y.crReq.toNat + 2 ^ 16 * y.crRsp.toNat + 2 ^ 24 * y.cfgAccepted.toNat +
      2 ^ 32 * ring + 2 ^ 224 * sw
    let pos := mkPos u (if time then 7 else 6) c
    (s.setPort p { y with readySent := s.showsReady p }).sendPos p { pos with payload := withPosCrc pos.payload } 0

/-- What a port does on a tick beside its streams and best-effort positions. -/
def State.portTick (s : State) (p : Nat) : State :=
  let t := ((s.portDisTick p).wakeTick p).laneTick p
  ((t.portFrame p).sendExchange p).lateMarker p

/-! ### Control writes (R159, R160, R168, R170, R180, R415) -/

/-- A lane state other than active is refused: a budgeted port, or rest of the reference port (R160). -/
def State.lstateRefused (s : State) (p l : Nat) : Bool :=
  (l == 1 || l == 2) && (s.budget p != 0 ||
    (l == 2 && s.fld aREF_CTRL fREF_CTRL_SRC == 1 && s.fld aREF_CTRL fREF_CTRL_PORT == p))

/-- What a stored `TP_CTRL` value does to the port. -/
def State.portApply (s : State) (p : Nat) (old v : W32) : State :=
  let st := s.tpState p
  let en := getB v fTP_CTRL_EN
  let dis := getB v fTP_CTRL_DIS
  let ls := getF v fTP_CTRL_LSTATE
  let s := if getB v fTP_CTRL_ACCEPT then
      (s.setReg (aTP_EXP_LO p) (s.reg (aTP_SEEN_LO p))).setReg (aTP_EXP_HI p) (s.reg (aTP_SEEN_HI p))
    else s
  let s := if getB v fTP_CTRL_ACCEPT ∧ st = 5 then (s.setBit (aTP_STATUS p) fTP_STATUS_VERIFIED true).portGo p 6 8 else s
  if !s.domOn (40 + p) then s
  else if !en then
    let s := if st ≠ 0 ∧ st ≠ 11 then s.portDown p else s
    if ls = 2 ∧ s.tpState p = 0 then (s.portLanes p 8#32).portStage p 11
    else if ls = 0 ∧ st = 11 then s.portStage p 0
    else s
  else if dis then
    if s.bit (aTP_STATUS p) fTP_STATUS_DRAINED then s
    else
      let s := if (s.port p).disStep = 0 then s.setPort p { s.port p with disStep := 1 } else s
      if getB v fTP_CTRL_FORCE ∧ (s.port p).disStep = 1 then s.portForce p else s
  else if (s.port p).disStep = 3 then s
  else
    let s := s.setPort p { s.port p with disStep := 0 }
    if !getB old fTP_CTRL_EN ∧ ls ≠ 2 then (s.setBit (aTP_STATUS p) fTP_STATUS_DRAINED false).portTrain p
    else if getB v fTP_CTRL_RETRAIN then s.portTrain p
    else if ls = 0 then (if st = 11 then s.portTrain p else s.portWake p)
    else s

/-- A write of `TP_CTRL`. -/
def tpCtrlWrite (p : Nat) (v : W32) (s : State) : Answer :=
  let old := s.reg (aTP_CTRL p)
  let loop := getF v fTP_CTRL_LOOP
  let idle := s.tpState p == 0 && !getB old fTP_CTRL_EN
  if loop ≠ 0 ∧ (!idle ∨ s.fld (aTP_LB p) fTP_LB_RET ≠ 0) then refuse s
  else if s.lstateRefused p (getF v fTP_CTRL_LSTATE) then refuse s
  else if getB v fTP_CTRL_ACCEPT ∧ s.tpState p = 5 ∧ (s.port p).pairCause then refuse s
  else wrote ((s.plainWrite (aTP_CTRL p) v).portApply p old v)

/-- `TP_CTRL` written by master m with some of its fields replaced. -/
def tpCtrlPut (m : Rm) (p : Nat) (f : W32 → W32) (s : State) : State :=
  ringPut m (aTP_CTRL p) (f (s.reg (aTP_CTRL p))) (tpCtrlWrite p (f (s.reg (aTP_CTRL p)))) s

/-- `ACCEPT` written (R170). -/
def execPortAccept (m : Rm) (p : Fin 6) (s : State) : Host.Outcome State Fault Refusal :=
  .next (tpCtrlPut m p.val (fun v => putF v fTP_CTRL_ACCEPT 1) s)
/-- `RETRAIN` written (R168). -/
def execPortRetrain (m : Rm) (p : Fin 6) (s : State) : Host.Outcome State Fault Refusal :=
  .next (tpCtrlPut m p.val (fun v => putF v fTP_CTRL_RETRAIN 1) s)
/-- `DIS` written, with or without `FORCE` (R180). -/
def execPortDisable (m : Rm) (p : Fin 6) (force : Bool) (s : State) : Host.Outcome State Fault Refusal :=
  .next (tpCtrlPut m p.val (fun v => putF (putF v fTP_CTRL_DIS 1) fTP_CTRL_FORCE (if force then 1 else 0)) s)
/-- `EN` = 1 with `DIS` = 0 written (R180). -/
def execPortEnable (m : Rm) (p : Fin 6) (s : State) : Host.Outcome State Fault Refusal :=
  .next (tpCtrlPut m p.val (fun v => putF (putF (putF v fTP_CTRL_EN 1) fTP_CTRL_DIS 0) fTP_CTRL_FORCE 0) s)
/-- `LSTATE` = quiet written (R159, R160). -/
def execPortQuiet (m : Rm) (p : Fin 6) (s : State) : Host.Outcome State Fault Refusal :=
  .next (tpCtrlPut m p.val (fun v => putF v fTP_CTRL_LSTATE 1) s)
/-- `LSTATE` = rest written (R159, R160). -/
def execPortRest (m : Rm) (p : Fin 6) (s : State) : Host.Outcome State Fault Refusal :=
  .next (tpCtrlPut m p.val (fun v => putF v fTP_CTRL_LSTATE 2) s)
/-- `LSTATE` = active written by master m, or traffic to send at either end (R159). -/
def execPortActive (m : Option Rm) (p : Fin 6) (s : State) : Host.Outcome State Fault Refusal :=
  match m with
  | some m => .next (tpCtrlPut m p.val (fun v => putF v fTP_CTRL_LSTATE 0) s)
  | none => if s.runs then .next (s.portWake p.val) else .next s
/-- Both ends enter quiet at the second frame boundary after each has seen the other's request (R159). -/
def execQuietEnter (p : Fin 6) (s : State) : Host.Outcome State Fault Refusal :=
  match (s.port p.val).quietAt with
  | some t =>
    let st := s.tpState p.val
    if s.runs && decide (t ≤ s.tickN) && (st == 5 || st == 6 || st == 8) then
      let u := s.portGo p.val 10 8
      .next ((u.portLanes p.val 14#32).setPort p.val { u.port p.val with quietAt := none, quietFrom := st, wakeAt := none })
    else .next s
  | none => .next s

/-- A write of `TP_LB` (R415). -/
def tpLbWrite (p : Nat) (v : W32) (s : State) : Answer :=
  let r := getF v fTP_LB_RET
  let idle := s.tpState p == 0 && !s.bit (aTP_CTRL p) fTP_CTRL_EN
  if r = 3 then wrote s
  else if r ≠ 0 ∧ (!idle ∨ s.fld (aTP_CTRL p) fTP_CTRL_LOOP ≠ 0) then refuse s
  else wrote (s.plainWrite (aTP_LB p) v)

end Sys2Proof.Machine
end

