-- ==== Sys2Proof/Machine/Remote.lean ====
section
/-! DEFINITION. Remote management over the torus: gateways and remote ring packets (R176 to R178), and stored configuration streams
sent over a port (R184). -/

namespace Sys2Proof.Machine

/-! ### Remote ring packets (R148, R177) -/

/-- A remote ring packet, by its fields. -/
structure Remote where
  op : Nat
  status : Nat
  master : Nat
  die : Nat
  block : Nat
  off : Nat
  data : W32
  dx : Int
  dy : Int
  dz : Int
  tx : Int
  ty : Int
  tz : Int
  rev : Bool
  direct : Bool
  deriving DecidableEq, Repr

/-- The 120 bits of a packet (R148, R177). -/
def Remote.bits (r : Remote) : BitVec 120 :=
  let n := r.op + 2 ^ 2 * r.status + 2 ^ 4 * r.master + 2 ^ 12 * r.die + 2 ^ 15 * r.block + 2 ^ 31 * (r.off / 4) +
    2 ^ 45 * r.data.toNat + 2 ^ 80 * ofInt 7 r.dx + 2 ^ 87 * ofInt 6 r.dy + 2 ^ 93 * ofInt 6 r.dz + 2 ^ 99 * ofInt 7 r.tx +
    ofInt 6 r.ty * 2 ^ 106 + ofInt 6 r.tz * 2 ^ 112 + (if r.rev then 2 ^ 118 else 0) + (if r.direct then 2 ^ 119 else 0)
  BitVec.ofNat 120 n

/-- The fields of a packet's 120 bits. -/
def remoteOf (b : BitVec 120) : Remote :=
  let n := b.toNat
  { op := bitsOf n 1 0, status := bitsOf n 3 2, master := bitsOf n 11 4, die := bitsOf n 14 12, block := bitsOf n 30 15
    off := bitsOf n 44 31 * 4, data := BitVec.ofNat 32 (bitsOf n 76 45), dx := sint 7 (bitsOf n 86 80)
    dy := sint 6 (bitsOf n 92 87), dz := sint 6 (bitsOf n 98 93), tx := sint 7 (bitsOf n 105 99)
    ty := sint 6 (bitsOf n 111 106), tz := sint 6 (bitsOf n 117 112), rev := n.testBit 118, direct := n.testBit 119 }

/-- One step of a count in the direction of another. -/
def stepFrom (t d : Int) : Int := if 0 < d then t + 1 else t - 1

/-- Port of the first nonzero remaining count, and the packet with that count moved (R178). -/
def Remote.hop (r : Remote) : Option (Nat × Remote) :=
  let x := if r.dx = 0 then none
    else some (if 0 < r.dx then 0 else 1, { r with dx := stepZero r.dx, tx := stepFrom r.tx r.dx })
  let y := if r.dy = 0 then none
    else some (if 0 < r.dy then 2 else 3, { r with dy := stepZero r.dy, ty := stepFrom r.ty r.dy })
  let z := if r.dz = 0 then none
    else some (if 0 < r.dz then 4 else 5, { r with dz := stepZero r.dz, tz := stepFrom r.tz r.dz })
  if r.rev then z.orElse (fun _ => y.orElse (fun _ => x)) else x.orElse (fun _ => y.orElse (fun _ => z))

/-- A packet goes on: queued at its next port, dropped where the port carries none or its queue is full, or kept for this
device where every count is zero (R178). A port in quiet wakes for it (R159); one being disabled takes none (R180). -/
def State.sendRemote (s : State) (r : Remote) : State :=
  match r.hop with
  | none => { s with remoteIn := s.remoteIn ++ [(6, r.bits)] }
  | some (p, r) =>
    let y := s.port p
    if (s.portManages p ∨ s.tpState p = 10) ∧ y.disStep = 0 ∧ y.remoteQ.length < 8 then
      s.setPort p { y with remoteQ := y.remoteQ ++ [r.bits] } else s

/-! ### Gateways -/

/-- Count of one dimension by the shorter way, a tie going the positive way (R177). -/
def shortCount (d s size : Nat) : Int :=
  let n := (d + size - s) % size
  if size < 2 * n then (n : Int) - size else n

/-- A gateway's record. -/
def State.gw (s : State) (g : Nat) : Gw := tget (fun _ => Gw.empty) s.gws g
/-- Set a gateway's record. -/
def State.setGw (s : State) (g : Nat) (x : Gw) : State := { s with gws := tput (fun _ => Gw.empty) s.gws g x }

/-- Master ID of gateway g (R23). -/
def gwMaster (g : Nat) : Nat := match g with
  | 0 => 0x01
  | 1 => 0x60
  | _ => 0x70

/-- The packet that gateway g sends for operation `op` (R177); none where the device ID has no place in the torus (R176). -/
def State.gwPacket (s : State) (g op : Nat) : Option Remote :=
  let hi := s.reg (aRG_ADDR_HI g)
  let lo := s.reg (aRG_ADDR_LO g)
  let dev := getF hi fRG_ADDR_HI_DEV
  let r : Remote :=
    { op := op - 1, status := 0, master := gwMaster g, die := getF hi fRG_ADDR_HI_DIE, block := getF lo fRG_ADDR_LO_BLOCK
      off := 4 * getF lo fRG_ADDR_LO_OFFSET, data := if op = 2 then s.reg (aRG_DATA g) else 0
      dx := 0, dy := 0, dz := 0, tx := 0, ty := 0, tz := 0, rev := false, direct := getB hi fRG_ADDR_HI_DIRECT }
  if r.direct then
    let p := getF hi fRG_ADDR_HI_PORT
    let one : Int := if p % 2 = 0 then 1 else -1
    match p / 2 with
    | 0 => some { r with dx := one }
    | 1 => some { r with dy := one }
    | 2 => some { r with dz := one }
    | _ => none
  else if !s.idInTorus dev then none
  else
    let (x, y, z) := coords dev
    let (x0, y0, z0) := coords s.devId
    let (sx, sy, sz) := s.torusSize
    some { r with dx := shortCount x x0 sx, dy := shortCount y y0 sy, dz := shortCount z z0 sz }

/-- A write of `RG_CTRL_m`: an operation is refused while one is outstanding (R177). -/
def rgCtrlWrite (g : Nat) (v : W32) (s : State) : Answer :=
  let op := getF v fRG_CTRL_OP
  if op = 1 ∨ op = 2 then
    if s.bit (aRG_STATUS g) fRG_STATUS_BUSY then refuse s
    else
      let t := s.plainWrite (aRG_CTRL g) v
      match t.gwPacket g op with
      | none => wrote (t.setReg (aRG_STATUS g) (putF 0#32 fRG_STATUS_RESULT 4))
      | some r =>
        let t := t.setReg (aRG_STATUS g) (putF 0#32 fRG_STATUS_BUSY 1)
        let limit := ringTicks (256 * t.fld (aRG_CTRL g) fRG_CTRL_TMO)
        wrote ((t.setGw g { deadline := t.now + limit, sent := some r.bits }).sendRemote r)
  else wrote (s.plainWrite (aRG_CTRL g) v)

/-- `RG_CTRL.OP` written by the gateway's own master. -/
def gwOp (m : Rm) (op : Nat) (s : State) : State :=
  let a := aRG_CTRL (rmIdx m)
  let v := putF (s.reg a) fRG_CTRL_OP op
  ringPut m a v (rgCtrlWrite (rmIdx m) v) s

/-- `OP` = read (R177). -/
def execGatewayRead (m : Rm) (s : State) : Host.Outcome State Fault Refusal := .next (gwOp m 1 s)
/-- `OP` = write (R177). -/
def execGatewayWrite (m : Rm) (s : State) : Host.Outcome State Fault Refusal := .next (gwOp m 2 s)

/-- No answer came within `TMO` × 256 ring cycles (R177). -/
def execGatewayTimeout (m : Rm) (s : State) : Host.Outcome State Fault Refusal :=
  let g := rmIdx m
  if s.runs && s.bit (aRG_STATUS g) fRG_STATUS_BUSY && decide ((s.gw g).deadline ≤ s.now) then
    .next ((s.setReg (aRG_STATUS g) (putF 0#32 fRG_STATUS_RESULT 5)).setGw g Gw.empty)
  else .next s

/-- A response reaches its gateway: `RESULT`, the data of a read, `BUSY` cleared; one that nobody waits for is discarded
(R177). -/
def State.gwAnswer (s : State) (r : Remote) : State :=
  match [0, 1, 2].find? (fun g => gwMaster g == r.master) with
  | none => s
  | some g =>
    match (s.gw g).sent with
    | none => s
    | some b =>
      let q := remoteOf b
      if q.op + 2 = r.op ∧ q.die = r.die ∧ q.block = r.block ∧ q.off = r.off then
        let t := (s.setReg (aRG_STATUS g) (putF 0#32 fRG_STATUS_RESULT r.status)).setGw g Gw.empty
        if r.op = 2 then t.setReg (aRG_DATA g) r.data else t
      else s

/-! ### Stored streams (R184) -/

/-- A write of `TP_CFG_CTRL` (R184). -/
def tpCfgCtrlWrite (p : Nat) (v : W32) (s : State) : Answer :=
  let a := aTP_CFG_CTRL p
  let busy := s.bit a fTP_CFG_CTRL_BUSY
  if getB v fTP_CFG_CTRL_GO then
    if busy then refuse s
    else
      let t := s.setReg a (putF 0#32 fTP_CFG_CTRL_BUSY 1)
      wrote (t.setPort p { t.port p with sendWord := 0, sendFail := false, sendBuf := [] })
  else if getB v fTP_CFG_CTRL_ABORT ∧ busy then
    let t := s.setBit a fTP_CFG_CTRL_BUSY false
    wrote (t.setPort p { t.port p with sendBuf := [], sendStale := (t.port p).sendAsked })
  else wrote s

/-- `GO` written (R184). -/
def execStreamSendGo (m : Rm) (p : Fin 6) (s : State) : Host.Outcome State Fault Refusal :=
  let v := putF 0#32 fTP_CFG_CTRL_GO 1
  .next (ringPut m (aTP_CFG_CTRL p.val) v (tpCfgCtrlWrite p.val v) s)
/-- `ABORT` written (R184). -/
def execStreamSendAbort (m : Rm) (p : Fin 6) (s : State) : Host.Outcome State Fault Refusal :=
  let v := putF 0#32 fTP_CFG_CTRL_ABORT 1
  .next (ringPut m (aTP_CFG_CTRL p.val) v (tpCfgCtrlWrite p.val v) s)

/-- Words of a stored stream. -/
def State.sendLen (s : State) (p : Nat) : Nat := s.fld (aTP_CFG_LEN p) fTP_CFG_LEN_WORDS

/-- The answer of a port's stream read: its words, or a failure; one for a send that was aborted is discarded (R184). -/
def State.streamAnswer (s : State) (p : Nat) : State :=
  let mine (r : MemRsp) : Bool := r.origin == .stream p
  let y := s.port p
  match s.rsps.find? mine with
  | none => s
  | some r =>
    let y := { y with sendAsked := false }
    let y := if y.sendStale then { y with sendStale := false }
      else if r.status ≠ 0 then { y with sendFail := true }
      else { y with sendBuf := y.sendBuf ++
               (List.range (r.data.length / 4)).map (fun i => BitVec.ofNat 32 (leNat ((r.data.drop (4 * i)).take 4))) }
    { s.setPort p y with rsps := s.rsps.filter (fun r => !mine r) }

/-- A sending port asks for the rest of the line its next word is in (R73, R76, R184). -/
def State.streamAsk (s : State) (p : Nat) : State :=
  let y := s.port p
  let len := s.sendLen p
  if s.bit (aTP_CFG_CTRL p) fTP_CFG_CTRL_BUSY && !y.sendAsked && !y.sendFail && decide (y.sendWord < len) && decide (y.sendBuf.length < 7) then
    let base := (s.reg (aTP_CFG_BASE_LO p)).toNat / 4 * 4 + 4294967296 * s.fld (aTP_CFG_BASE_HI p) fTP_CFG_BASE_HI_BASE
    let a := base + 4 * y.sendWord
    let n := min (64 - a % 256 / 4) (len - y.sendWord)
    let cls := classOf a
    if cls = .dram ∨ cls = .qdr ∨ cls = .banks then
      let r : MemReq := { write := false, addr := a, count := 4 * n, data := [], master := 0x10 + portRouter p, urgent := false
                          spill := false, origin := .stream p, arrivedAt := s.now }
      { s.setPort p { y with sendAsked := true, sendWord := y.sendWord + n } with mq := s.mq ++ [r] }
    else s.setPort p { y with sendFail := true }
  else s

/-- A sending port puts up to seven words into a position where the send tick is free, no best-effort packet is on its way, and fewer than
128 positions are unacknowledged (R161, R164, R165, R184). -/
def State.streamSend (s : State) (p : Nat) : State :=
  let y := s.port p
  let last := y.sendWord == s.sendLen p && !y.sendAsked
  if s.bit (aTP_CFG_CTRL p) fTP_CFG_CTRL_BUSY && s.portManages p && decide (y.sendUnacked < 128) && !y.sendBuf.isEmpty &&
      (decide (7 ≤ y.sendBuf.length) || last) && !y.startSent && s.slotFree p s.tickN then
    let w := y.sendBuf.take 7
    (s.setPort p { y with sendBuf := y.sendBuf.drop 7, sendUnacked := y.sendUnacked + 1 }).sendPos p
      (mkPos s.tickN 4 (w.length + 2 ^ 24 * leNat (w.flatMap (fun x => natLe 4 x.toNat)))) 0
  else s

/-- What a port's streams and best-effort packets do on a tick. A stream position goes before the next packet (DESIGN CHOICE, safe, log
entry 146). -/
def State.streamTick (s : State) (p : Nat) : State := ((((s.streamAnswer p).streamAsk p).streamSend p).portBe p)

/-- The send ends: every word sent, or a read failed (R184). -/
def execStreamSendEnd (p : Fin 6) (s : State) : Host.Outcome State Fault Refusal :=
  let p := p.val
  let y := s.port p
  let a := aTP_CFG_CTRL p
  if !s.runs || !s.bit a fTP_CFG_CTRL_BUSY then .next s
  else if y.sendFail then .next ((s.setReg a (putF 0#32 fTP_CFG_CTRL_ERR 1)).raise (portEvent p 7))
  else if y.sendWord = s.sendLen p ∧ (!y.sendAsked ∨ y.sendStale) ∧ y.sendBuf = [] then
    .next ((s.setReg a (putF 0#32 fTP_CFG_CTRL_DONE 1)).raise (portEvent p 7))
  else .next s

end Sys2Proof.Machine
end

