-- ==== Sys2Proof/Machine/Fabric.lean ====
section
/-! DEFINITION. The logic fabric: what a cell, a memory block and a MAC tile compute (R188, R189, R196 to R199), user events (R200),
probes (R204) and reconfigurable regions (R205 to R209). -/

namespace Sys2Proof.Machine

/-! ### Cells, blocks and tiles -/

/-- Outputs F and G of a LUT with truth table T and inputs I5..I0 (chapter 08, cells and clusters). -/
def lutOut (staggered : Bool) (t : W64) (i : BitVec 6) : Bool × Bool :=
  if staggered then (t.getLsbD (i.toNat % 32), t.getLsbD (32 + i.toNat / 2)) else (t.getLsbD i.toNat, false)
/-- The adder stage: sum and carry out (R188). -/
def cellAdd (f g ci : Bool) : Bool × Bool := ((f != g) != ci, (f && g) || (f && ci) || (g && ci))
/-- The carry chain of a cluster: sums of cells 0 on, each cell's carry in that of the cell before, and the carry out of the last (R188). -/
def cellChain : Bool → List (Bool × Bool) → List Bool × Bool
  | ci, [] => ([], ci)
  | ci, (f, g) :: r =>
    let (sum, co) := cellAdd f g ci
    let (rest, out) := cellChain co r
    (sum :: rest, out)
/-- Carry into cell 0 of the cluster in a row of a die: from routing where `CI_SRC` selects it, else from cell 7 of the cluster one row to
the south; none comes over the south edge of the die or of a valid region (R188). -/
def State.carryIn (s : State) (d col row : Nat) (ciSrc routed south : Bool) : Bool :=
  let cut := row == 1023 || (row % 64 == 63 && (List.range 16).any (fun n =>
    s.rgnHas d n col (row / 64) && getF (s.reg (aBR_RGN d n)) fBR_RGN_RB_LAST == row / 64))
  if ciSrc then routed else south && !cut
/-- Data input of a flip-flop: F, G, S or X (R188). -/
def ffData (sel : Nat) (f g sum x : Bool) : Bool :=
  match sel with
  | 0 => f
  | 1 => g
  | 2 => sum
  | _ => x
/-- Next value of a flip-flop at a selected edge of its clock, or between edges: set/reset forces `SRVAL`, goes before the clock enable, and
acts at once where it is asynchronous (R189). -/
def flipFlop (edge async q d ce sr srval : Bool) : Bool :=
  if sr && (async || edge) then srval else if edge && ce then d else q

/-! ### Routing (R190) -/

/-- What a multiplexer with a one-hot select field drives: the selected input, low with no bit set (R190). A field with more bits set is in
no frame that was written. -/
def wireMux (select : List Bool) (inputs : List Bool) : Bool :=
  ((select.zip inputs).filter (fun x => x.1)).any (fun x => x.2)
/-- Taps of a routing wire in clusters or columns from its start, by its length (chapter 08, Routing). -/
def wireTaps (len : Nat) : List Nat :=
  match len with
  | 1 => [1]
  | 4 => [2, 4]
  | 12 => [4, 8, 12]
  | 24 => [12, 24]
  | _ => []
/-- Where the taps of a wire stand that starts at a position and runs up or down over positions 0 to `last`; it ends at the die's edge
(R190). -/
def wireAt (len start last : Nat) (up : Bool) : List Nat :=
  (wireTaps len).filterMap (fun t =>
    if up then (if start + t ≤ last then some (start + t) else none) else (if t ≤ start then some (start - t) else none))

/-- What a memory block's read data shows for a read and a write through one port on one edge (R196): `PASS`, `PRIOR` or
`HOLD`. -/
def readDuringWrite (rdw : Nat) (written before held : BitVec 36) : BitVec 36 :=
  match rdw with
  | 0 => written
  | 1 => before
  | _ => held
/-- Bits stored where both ports of a Paired block write the same bits on one edge of a shared line: port 1's (R197). -/
def bothWrite (mask1 data1 mask2 data2 old : BitVec 36) : BitVec 36 :=
  let two := (old &&& ~~~mask2) ||| (data2 &&& mask2)
  (two &&& ~~~mask1) ||| (data1 &&& mask1)

/-- A read of a 64-bit entry and its check bits in Checked mode: the data, `ERR1` and `ERR2`; an uncorrectable entry comes uncorrected
(R198). -/
def checkedRead (data : W64) (chk : Byte) : W64 × Bool × Bool :=
  let (v, k) := qdrDecode data chk
  (v, k == 1, k == 2)
/-- An entry and its check bits after a port-1 clock edge on which port 1 does not write, when a read has corrected it: written back with
`SCRUB` set, unless user logic writes the same entry on that edge (R198). -/
def scrubEntry (scrub : Bool) (user : Option W64) (data : W64) (chk : Byte) : W64 × Byte :=
  match user with
  | some v => (v, qdrEncode v)
  | none =>
    let (v, k) := qdrDecode data chk
    if scrub && k == 1 then (v, qdrEncode v) else (data, chk)

/-- Settings of a MAC tile (R199): `form` 0 single, 1 pair, 2 diff, 3 long; `zsel` 0 zero, 1 r, 2 mk, 3 mcin, 4 mcin >>> 36. -/
structure MacCfg where
  sgnX : Bool
  sgnY : Bool
  form : Nat
  sym : Bool
  zsel : Nat
  sub : Bool
  rnd : Nat
  sat : Nat
  deriving DecidableEq, Repr

/-- An 18-bit operand extended (R199). -/
def ext18 (signed : Bool) (v : BitVec 18) : Int := if signed then v.toInt else v.toNat

/-- The tile's result and whether it clamped (R199). -/
def macTile (c : MacCfg) (mx0 mx1 my0 my1 : BitVec 18) (mk mcin r : W64) : W64 × Bool :=
  let x0 := ext18 c.sgnX mx0
  let x1 := ext18 c.sgnX mx1
  let y1 := ext18 c.sgnY my1
  let y0 := ext18 c.sgnY my0 + (if c.sym ∧ c.form ≠ 3 then y1 else 0)
  let t : Int :=
    match c.form with
    | 0 => x0 * y0
    | 1 => x0 * y0 + x1 * y1
    | 2 => x0 * y0 - x1 * y1
    | _ => (x1 * 262144 + mx0.toNat) * y0
  let z : Int :=
    match c.zsel with
    | 0 => 0
    | 1 => r.toInt
    | 2 => mk.toInt
    | 3 => mcin.toInt
    | _ => (mcin.sshiftRight 36).toInt
  let w := BitVec.ofInt 64 (if c.sub then z - t else z + t)
  let w := if c.rnd ≠ 0 ∧ c.zsel ≠ 1 then w + (1#64 <<< (c.rnd - 1)) else w
  if c.sat = 0 then (w, false)
  else
    let hi : Int := 2 ^ (c.sat - 1) - 1
    let v := clampInt (-hi - 1) hi w.toInt
    (BitVec.ofInt 64 v, v != w.toInt)

/-- `OVF` of a tile: sticky until `MCLR` (R199). -/
def macOvf (ovf clamped mclr : Bool) : Bool := !mclr && (ovf || clamped)
/-- `MCIN` of the tile at a row of a MAC column: forced to 0 in the southernmost tile of the column and of a valid region's rows (R199). -/
def State.macCin (s : State) (d col rb : Nat) (south : Bool) (mcin : W64) : W64 :=
  let cut := south && (rb == 15 || (List.range 16).any (fun n =>
    s.rgnHas d n col rb && getF (s.reg (aBR_RGN d n)) fBR_RGN_RB_LAST == rb))
  if cut then 0#64 else mcin

/-! ### User events and probes -/

/-- A rising edge on `USER_EVT_i` of die d, sampled on the Weave clock (R200). Until the die's start-up passes its signals, and while a region
at their place holds them, there is none (R207, R222). -/
def execUserEvent (d : Fin 6) (i : Fin 16) (s : State) : Host.Outcome State Fault Refusal :=
  if s.runs && !s.inReset d.val && s.portsUp d.val && !s.placeHeld d.val evtPlace then .next (s.raise (1952 + 16 * d.val + i.val)) else .next s

/-- `PRB_SEL_i` of a logic die written by master m (R204). -/
def execPrbSelWrite (m : Rm) (d : Fin 6) (i : Fin 8) (v : W32) (s : State) : Host.Outcome State Fault Refusal :=
  let a := aPRB_SEL d.val i.val
  .next (ringPut m a v (fun t => wrote (t.plainWrite a v)) s)

/-! ### Regions -/

/-- The port of an NI marks with cause 0x7: it lies in a region from H to E + 16 (R205). -/
def State.niHeld (s : State) (d i : Nat) : Bool := s.placeHeld d (niPlace i)

/-- Requests with an answer to come whose headers stand in a FIFO of whole and partial packets; `mid` where its head is the rest of a
packet already begun. -/
def requestsIn : Bool → List FifoFlit → Nat
  | _, [] => 0
  | mid, f :: r => (if !mid && hType f.payload != 4 then 1 else 0) + requestsIn (!f.last) r

/-- At H the NI of a port in the region loses what its user side holds, and no answer comes any more for what the old logic has read
(R206). -/
def State.niHold (s : State) (d i : Nat) : State :=
  let x := s.ni d i
  let left := requestsIn (x.midRead.getLsbD 2) x.fifo2
  s.setNi d i { (x.setPtr 0 .zero).setPtr 3 .zero with
    fifo0 := [], fifo3 := [], staging := [], egress := [], served := x.served.drop (x.served.length - left)
    midWrite := put4 (put4 x.midWrite 0 false) 3 false
    midRead := put4 (put4 x.midRead 0 false) 3 false }
/-- At E the NI discards `MRSP`, and what still answers requests from before H (R206). -/
def State.niRelease (s : State) (d i : Nat) : State :=
  let x := s.ni d i
  s.setNi d i { x.setPtr 1 .zero with
    fifo1 := [], midRead := put4 x.midRead 1 false
    outst := x.outst.map (fun o => { o with client := some .outside }) }

/-- User events of a die that may be raised at H: a leaving cell's constant of 1 does so where the line was low; which cells hold which
constant the frames say in bits the spec does not list, so each is free (R207, R210). -/
def State.holdEvents (s : State) (d : Nat) : State :=
  (List.range 16).foldl (fun t i =>
    let (y, t) := t.freshB
    if y then t.raise (1952 + 16 * d + i) else t) s

/-- Hold one region of a die (R205, H). -/
def State.holdRegion (s : State) (d n : Nat) : State :=
  if !s.rgnValid d n || s.rgnPending d n || s.rgnHeld d n then s
  else
    let t := s.setBit (aBR_STAT d) ⟨16 + n, 1⟩ true
    let t := t.setHold d n { since := s.now, asked := false, relAt := none, gated := true }
    let t := (s.rgnNis d n).foldl (fun t i => t.niHold d i) t
    if s.portsUp d && s.rgnReaches d n evtPlace then t.holdEvents d else t

/-- E of a region: flip-flops take `INIT`, entering cells pass, the NIs discard (R205, R206). -/
def State.startRelease (s : State) (d n : Nat) : State :=
  let t := s.setHold d n { s.hold d n with relAt := some s.now }
  (s.rgnNis d n).foldl (fun t i => t.niRelease d i) t

/-- Release one region of a die; before its `HOLD` bit is set the release waits for it (R205). -/
def State.releaseRegion (s : State) (d n : Nat) : State :=
  if !s.rgnValid d n then s
  else if s.rgnPending d n then s.setHold d n { s.hold d n with asked := true }
  else if s.rgnHeld d n ∧ (s.hold d n).relAt = none then s.startRelease d n
  else s

/-- The regions a mask names. -/
def maskRegions (v : W32) : List Nat := (List.range 16).filter (fun n => v.getLsbD n)
/-- A write of `BR_HOLD`. -/
def brHoldWrite (d : Nat) (v : W32) (s : State) : Answer := wrote ((maskRegions v).foldl (fun t n => t.holdRegion d n) s)
/-- A write of `BR_RELEASE`. -/
def brReleaseWrite (d : Nat) (v : W32) (s : State) : Answer :=
  wrote ((maskRegions v).foldl (fun t n => t.releaseRegion d n) s)

/-- `BR_HOLD` written by master m (R205). -/
def execRegionHold (m : Rm) (d : Fin 6) (mask : BitVec 16) (s : State) : Host.Outcome State Fault Refusal :=
  let v := mask.setWidth 32
  .next (ringPut m (aBR_HOLD d.val) v (brHoldWrite d.val v) s)
/-- `BR_RELEASE` written by master m (R205). -/
def execRegionRelease (m : Rm) (d : Fin 6) (mask : BitVec 16) (s : State) : Host.Outcome State Fault Refusal :=
  let v := mask.setWidth 32
  .next (ringPut m (aBR_RELEASE d.val) v (brReleaseWrite d.val v) s)

/-- Gating completes: the `HOLD` bit is set, and a release already written takes effect (R205, R209). -/
def execRegionHoldComplete (d : Fin 6) (n : Fin 16) (s : State) : Host.Outcome State Fault Refusal :=
  let x := s.hold d.val n.val
  if s.runs && s.rgnPending d.val n.val && decide (x.since < s.now) then
    let t := (s.setBit (aBR_STAT d.val) ⟨16 + n.val, 1⟩ false).setBit (aBR_STAT d.val) ⟨n.val, 1⟩ true
    let t := t.raise (768 + 128 * d.val + 124)
    .next (if x.asked then t.startRelease d.val n.val else t)
  else .next s
/-- At E + 8 the region's clock gate is released (R205). -/
def execRegionGateRelease (d : Fin 6) (n : Fin 16) (s : State) : Host.Outcome State Fault Refusal :=
  match (s.hold d.val n.val).relAt with
  | some e =>
    if s.runs && decide (e + 8 ≤ s.now) then .next (s.setHold d.val n.val { s.hold d.val n.val with gated := false }) else .next s
  | none => .next s
/-- At E + 16 the region runs again and its `HOLD` bit clears (R205, R209). -/
def execRegionReleaseComplete (d : Fin 6) (n : Fin 16) (s : State) : Host.Outcome State Fault Refusal :=
  match (s.hold d.val n.val).relAt with
  | some e =>
    if s.runs && s.rgnHeld d.val n.val && decide (e + 16 ≤ s.now) then
      let t := (s.setBit (aBR_STAT d.val) ⟨n.val, 1⟩ false).raise (768 + 128 * d.val + 125)
      .next (t.setHold d.val n.val { since := 0, asked := false, relAt := none, gated := false })
    else .next s
  | none => .next s

/-- Two region words name overlapping rectangles. -/
def rgnOverlap (a b : W32) : Bool :=
  decide (getF a fBR_RGN_COL_FIRST ≤ getF b fBR_RGN_COL_LAST) && decide (getF b fBR_RGN_COL_FIRST ≤ getF a fBR_RGN_COL_LAST) &&
    decide (getF a fBR_RGN_RB_FIRST ≤ getF b fBR_RGN_RB_LAST) && decide (getF b fBR_RGN_RB_FIRST ≤ getF a fBR_RGN_RB_LAST)

/-- A write of `BR_RGN_n` (R208). -/
def brRgnWrite (d n : Nat) (v : W32) (s : State) : Answer :=
  let bad := getB v fBR_RGN_V && (getF v fBR_RGN_COL_FIRST == 0 || decide (480 < getF v fBR_RGN_COL_LAST) ||
    decide (getF v fBR_RGN_COL_LAST < getF v fBR_RGN_COL_FIRST) || decide (getF v fBR_RGN_RB_LAST < getF v fBR_RGN_RB_FIRST))
  let clash := getB v fBR_RGN_V && (List.range 16).any (fun k => k != n && s.rgnValid d k && rgnOverlap v (s.reg (aBR_RGN d k)))
  if bad || clash || s.rgnPending d n || s.rgnHeld d n then refuse s else wrote (s.plainWrite (aBR_RGN d n) v)

/-- `BR_RGN_n` written by master m. -/
def execBrRgnWrite (m : Rm) (d : Fin 6) (n : Fin 16) (v : W32) (s : State) : Host.Outcome State Fault Refusal :=
  .next (ringPut m (aBR_RGN d.val n.val) v (brRgnWrite d.val n.val v) s)

end Sys2Proof.Machine
end

