-- ==== Sys2Proof/Machine/Configure.lean ====
section
/-! DEFINITION. Configuration: frames and their check code (R210, R211), load ports and the stream (R212 to R221), start-up (R222),
failure (R223, R224), the essential-bit map, upset scanning and readback (R226 to R231). -/

namespace Sys2Proof.Machine

/-! ### Frame addresses (R186, R210, R347) -/

/-- Minors of a column of a die; 0 where there is no such column. -/
def minors (d col : Nat) : Nat :=
  if d = 7 then (if col < 8 then 12 else if col = 8 then 4 else 0)
  else if 5 < d ∨ 481 < col then 0
  else if col = 0 ∨ col = 481 then 16
  else
    match (col - 1) % 60 % 12 with
    | 5 => 44
    | 11 => 8
    | _ => 12
/-- Minors of a column that are configuration frames. -/
def cfgMinors (d col : Nat) : Nat := if minors d col = 44 then 8 else minors d col
/-- Row blocks of a die. -/
def rowBlocks (d : Nat) : Nat := if d = 7 then 1 else 16
/-- Last column of a die. -/
def lastColumn (d : Nat) : Nat := if d = 7 then 8 else 481

/-- A frame address by its fields. -/
structure FrameAddr where
  die : Nat
  col : Nat
  minor : Nat
  rb : Nat
  deriving DecidableEq, Repr

/-- The fields of a frame address. -/
def faOf (w : W32) : FrameAddr :=
  { die := bitsOf w.toNat 31 29, col := bitsOf w.toNat 28 20, minor := bitsOf w.toNat 19 12, rb := bitsOf w.toNat 11 8 }
/-- The word of a frame address. -/
def FrameAddr.word (f : FrameAddr) : W32 := BitVec.ofNat 32 (2 ^ 29 * f.die + 2 ^ 20 * f.col + 2 ^ 12 * f.minor + 2 ^ 8 * f.rb)
/-- The address names a frame (R210). -/
def FrameAddr.valid (f : FrameAddr) : Bool := decide (f.minor < minors f.die f.col) && decide (f.rb < rowBlocks f.die)
/-- Key of a frame in the stores. -/
def FrameAddr.key (f : FrameAddr) : Nat := f.word.toNat / 256

/-- The next frame: by minor, row block, column, over row blocks `lo` to `hi` and columns up to `last` (R220); none past the
last. -/
def FrameAddr.next (f : FrameAddr) (cfgOnly : Bool) (lo hi last : Nat) : Option FrameAddr :=
  let n := if cfgOnly then cfgMinors f.die f.col else minors f.die f.col
  if f.minor + 1 < n then some { f with minor := f.minor + 1 }
  else if f.rb < hi then some { f with minor := 0, rb := f.rb + 1 }
  else if f.col < last then some { f with minor := 0, rb := lo, col := f.col + 1 }
  else none

/-- Configuration frames of a die before a column, in linear-index order (R210). -/
def framesBefore (d col : Nat) : Nat :=
  ((List.range col).foldl (fun n c => n + cfgMinors d c) 0) * rowBlocks d
/-- Linear index of a configuration frame. -/
def FrameAddr.index (f : FrameAddr) : Nat := framesBefore f.die f.col + f.rb * cfgMinors f.die f.col + f.minor
/-- Configuration frames of a die. -/
def frameCount (d : Nat) : Nat := if d = 7 then 100 else 87552
/-- The column that holds linear index `f`, walking columns from `c` with `n` frames before it. -/
def columnOf (d f : Nat) : Nat → Nat → Nat → FrameAddr
  | 0, c, _ => { die := d, col := c, minor := 0, rb := 0 }
  | k + 1, c, n =>
    let m := cfgMinors d c
    if f < n + m * rowBlocks d then { die := d, col := c, minor := (f - n) % m, rb := (f - n) / m }
    else columnOf d f k (c + 1) (n + m * rowBlocks d)
/-- The frame of a linear index. -/
def frameAt (d f : Nat) : FrameAddr := columnOf d f 482 0 0

/-! ### Frames (R211) -/

/-- Code values v(0) to v(4095): the 13-bit numbers with at least two bits set, in order. -/
def frameCode : List Nat :=
  (List.range 0x100E).filter (fun v => decide (2 ≤ ((List.range 13).filter (fun i => v.testBit i)).length))
/-- `C[12:0]` of a frame. -/
def frameXor (b : BitVec 4096) : Nat := (frameCode.zipIdx.filter (fun x => b.getLsbD x.2)).foldl (fun c x => c ^^^ x.1) 0
/-- The 14 check bits of a frame. -/
def frameCheck (b : BitVec 4096) : BitVec 14 :=
  if b = 0 then 0
  else
    let c := frameXor b
    BitVec.ofNat 14 (c + if parityOf 4096 b.toNat != parityOf 13 c then 8192 else 0)
/-- Outcome of a check (R211): clean, a data bit, a check bit, or uncorrectable. -/
inductive FrameOutcome where
  | clean | data (i : Nat) | check (i : Nat) | bad
  deriving DecidableEq, Repr
/-- What a check of stored data and check bits finds. -/
def frameJudge (b : BitVec 4096) (c : BitVec 14) : FrameOutcome :=
  let s := (frameCheck b).toNat % 8192 ^^^ c.toNat % 8192
  let q := parityOf 4096 b.toNat != parityOf 14 c.toNat
  if s = 0 ∧ !q then .clean
  else if !q then .bad
  else
    match frameCode.findIdx? (· == s) with
    | some i => .data i
    | none => if s = 0 then .check 13 else
        match (List.range 13).find? (fun i => s == 2 ^ i) with
        | some i => .check i
        | none => .bad

/-- A stored frame. -/
def State.frame (s : State) (k : Nat) : BitVec 4096 := tget (fun _ => 0#4096) s.cfg.frames k
/-- Stored check bits of a frame. -/
def State.frameChk (s : State) (k : Nat) : BitVec 14 := tget (fun _ => 0#14) s.cfg.checks k
/-- Store a frame with check bits. -/
def State.putFrame (s : State) (k : Nat) (b : BitVec 4096) (c : BitVec 14) : State :=
  { s with cfg := { s.cfg with frames := tput (fun _ => 0#4096) s.cfg.frames k b, checks := tput (fun _ => 0#14) s.cfg.checks k c } }
/-- Map words of a configuration frame (R226). -/
def State.mapWords (s : State) (d f : Nat) : BitVec 128 := tget (fun _ => BitVec.allOnes 128) s.cfg.map (131072 * d + f)
/-- Store map words. -/
def State.putMap (s : State) (d f : Nat) (w : BitVec 128) : State :=
  { s with cfg := { s.cfg with map := tput (fun _ => BitVec.allOnes 128) s.cfg.map (131072 * d + f) w } }
/-- Word w of a frame. -/
def frameWord (b : BitVec 4096) (w : Nat) : W32 := b.extractLsb' (32 * w) 32
/-- Every frame of a die zero, every map bit one (R212, R27). -/
def State.clearFrames (s : State) (d : Nat) : State :=
  { s with cfg := { s.cfg with
      frames := tkeep (fun k => k / 2097152 != d) s.cfg.frames, checks := tkeep (fun k => k / 2097152 != d) s.cfg.checks
      map := tkeep (fun k => k / 131072 != d) s.cfg.map } }

/-! ### Dies -/

/-- Set a die's state. -/
def State.setDie (s : State) (d v : Nat) : State := s.setFld aCFG_DIES ⟨2 * d, 2⟩ v
/-- Dies with fabric. -/
def fabricDies : List Nat := [0, 1, 2, 3, 4, 5, 7]
/-- Base of the events of a die's engine (R232, R350). -/
def feEvent (d k : Nat) : Nat := if d = 7 then 1828 + k else 768 + 128 * d + 112 + k

/-! ### Controller -/

/-- Stored state code of the controller. -/
def State.cfgState (s : State) : Nat := s.fld aCFG_STATUS fCFG_STATUS_STATE
/-- Set the controller's state code. -/
def State.setCfgState (s : State) (v : Nat) : State := s.setFld aCFG_STATUS fCFG_STATUS_STATE v
/-- The sync word. -/
def syncWordValue : W32 := 0x6D1C4E0B#32
/-- Source code and port of a source (`CFG_STATUS`). -/
def srcCode : CfgSrc → Nat × Nat
  | .parallel => (1, 0)
  | .spi => (2, 0)
  | .port p => (3, p.val)
  | .sdata => (4, 0)
/-- The source owns the stream. -/
def State.owns (s : State) (c : CfgSrc) : Bool :=
  s.fld aCFG_STATUS fCFG_STATUS_SRC == (srcCode c).1 && (s.fld aCFG_STATUS fCFG_STATUS_PORT == (srcCode c).2)
/-- `CFG_MODE`, `CFG_RX`, the port's state and the SPI port's one read allow the source (R183, R214, R225). -/
def State.srcAllowed (s : State) (c : CfgSrc) : Bool :=
  match c with
  | .parallel => s.pins.cfgMode == 0
  | .spi => s.cfg.spiRead
  | .port p => s.portLoads p.val
  | .sdata => true
/-- Take `n` words from the front of a port's positions: what is left, positions used up, and whether a poisoned one was
among them (R183). -/
def dropWords : List CfgPos → Nat → Nat → Bool → List CfgPos × Nat × Bool
  | [], _, a, bad => ([], a, bad)
  | p :: ps, n, a, bad =>
    if n = 0 then (p :: ps, a, bad)
    else if p.words.length ≤ n then dropWords ps (n - p.words.length) (a + 1) (bad || p.poison)
    else ({ p with words := p.words.drop n } :: ps, a, bad || p.poison)

/-- With no owner, the words of a port before a sync word are ignored, and their positions returned (R183, R215). -/
def State.flushPort (s : State) (p : Nat) : State :=
  let y := s.port p
  let k := ((y.cfgIn.flatMap (fun x => x.words)).takeWhile (fun w => w != syncWordValue)).length
  let (ps, n, _) := dropWords y.cfgIn k 0 false
  if y.cfgIn.isEmpty then s else s.setPort p { y with cfgIn := ps, cfgAccepted := y.cfgAccepted + BitVec.ofNat 8 n }
/-- With no owner, the words that wait before a sync word are ignored; a port that has more to deliver is the next source. -/
def State.dropUnsynced (s : State) : State :=
  let t := (List.range 6).foldl State.flushPort s
  { t with cfg := { t.cfg with sdata := t.cfg.sdata.dropWhile (fun w => w != syncWordValue)
                               portSrc := (List.range 6).find? (fun p => !(t.port p).cfgIn.isEmpty) } }

/-- The stream ends or fails: nobody owns it, and a read of the flash ends (R214). -/
def State.endStream (s : State) (st : Nat) : State :=
  let t := (s.setFld aCFG_STATUS fCFG_STATUS_SRC 0).setFld aCFG_STATUS fCFG_STATUS_PORT 0
  let t := { t with cfg := { t.cfg with fdataLeft := 0, ebmLeft := 0, acc := [], waitHold := none, spiRead := false } }
  (t.setCfgState st).dropUnsynced

/-- `CONFIG_FAIL` with a cause (R223, R224). -/
def State.cfgFail (s : State) (cause : Nat) : State :=
  let t := (s.endStream 5).setFld aCFG_STATUS fCFG_STATUS_CAUSE cause
  let t := (t.setReg aCFG_FAIL_WORD (s.reg aCFG_WORDS)).setReg aCFG_FAIL_FA s.cfg.frameAddr
  let t := fabricDies.foldl (fun t d => if t.dieState d = 1 then
      { t.setDie d 0 with cfg := { t.cfg with startAt := tput (fun _ => 0) t.cfg.startAt d 0 } } else t) t
  let t := { t with cfg := { t.cfg with startPend := 0 } }
  ({ t.setBit aCFG_STATUS fCFG_STATUS_INIT false with pins := { t.pins with initDriven := true } }).raise 34

/-! ### Words from a source -/

/-- A source delivers words: from its buffer where it has one, where they must stand at the front; none where they do not.
With the state, whether a word came poisoned. -/
def State.takeWords (s : State) (c : CfgSrc) (ws : List W32) : Option (State × Bool) :=
  match c with
  | .parallel => some (s, false)
  | .spi => some (s, false)
  | .sdata =>
    if ws.isPrefixOf s.cfg.sdata then
      some ({ s with cfg := { s.cfg with sdata := s.cfg.sdata.drop ws.length } }, false)
    else none
  | .port p =>
    let y := s.port p.val
    if ws.isPrefixOf (y.cfgIn.flatMap (fun x => x.words)) then
      let (ps, n, bad) := dropWords y.cfgIn ws.length 0 false
      some (s.setPort p.val { y with cfgIn := ps, cfgAccepted := y.cfgAccepted + BitVec.ofNat 8 n }, bad)
    else none

/-- What words at the front of a stream spell (R217): headers with their data, or data of an open header. -/
inductive StreamOp where
  | nop
  | crc (w : W32)
  | deviceCode (w : W32)
  | feature (w : W32)
  | cmd (w : W32)
  | frameAddr (w : W32)
  | fdata (count : Nat) (data : List W32)
  | options (w : W32)
  | region (w : W32)
  | ebmAddr (w : W32)
  | ebmData (count : Nat) (data : List W32)
  | more (data : List W32)
  | bad
  deriving DecidableEq, Repr

/-- A header word with what follows; none where the words end within it, or go on after it. -/
def parseHeader (h : W32) (rest : List W32) : Option StreamOp :=
  let op := bitsOf h.toNat 31 28
  let reg := bitsOf h.toNat 27 20
  let n := bitsOf h.toNat 19 0
  let one (f : W32 → StreamOp) : Option StreamOp :=
    if n ≠ 1 then some .bad
    else match rest with
      | [w] => some (f w)
      | _ => none
  match op with
  | 0 => if reg ≠ 0 ∨ n ≠ 0 then some .bad else if rest = [] then some .nop else none
  | 1 =>
    match reg with
    | 0x00 => one .crc
    | 0x01 => one .deviceCode
    | 0x02 => one .feature
    | 0x03 => one .cmd
    | 0x04 => one .frameAddr
    | 0x05 => if n % 128 ≠ 0 then some .bad else if rest.length ≤ n then some (.fdata n rest) else none
    | 0x08 => one .options
    | 0x0A => one .region
    | 0x10 => one .ebmAddr
    | 0x11 => if n % 4 ≠ 0 then some .bad else if rest.length ≤ n then some (.ebmData n rest) else none
    | _ => some .bad
  | 2 =>
    if n ≠ 0 ∨ (reg ≠ 0x05 ∧ reg ≠ 0x11) then some .bad
    else match rest with
      | [] => none
      | c :: data =>
        let k := c.toNat
        if k % (if reg = 0x05 then 128 else 4) ≠ 0 then some .bad
        else if k < data.length then none
        else some (if reg = 0x05 then .fdata k data else .ebmData k data)
  | _ => some .bad

/-- Which row of the table an operation belongs to. -/
inductive OpKind where
  | nop | crc | deviceCode | feature | frameAddr | fdata | options | region | ebmAddr | ebmData
  | null | start | hold | release | desync
  deriving DecidableEq, Repr

/-- The row of an operation; none for a bad command. -/
def StreamOp.kind : StreamOp → Option OpKind
  | .nop => some .nop
  | .crc _ => some .crc
  | .deviceCode _ => some .deviceCode
  | .feature _ => some .feature
  | .cmd w =>
    match w.toNat with
    | 0 => some .null
    | 2 => some .start
    | 3 => some .hold
    | 4 => some .release
    | 5 => some .desync
    | _ => none
  | .frameAddr _ => some .frameAddr
  | .fdata _ _ => some .fdata
  | .options _ => some .options
  | .region _ => some .region
  | .ebmAddr _ => some .ebmAddr
  | .ebmData _ _ => some .ebmData
  | .more _ => none
  | .bad => none

/-- What words at the front of the stream spell in this state. -/
def State.parse (s : State) (ws : List W32) : Option StreamOp :=
  let left := s.cfg.fdataLeft + s.cfg.ebmLeft
  if left ≠ 0 then (if ws.length ≤ left then some (.more ws) else none)
  else match ws with
    | [] => none
    | h :: rest => parseHeader h rest

/-- Words accepted: counted, and taken into the running CRC (R218). -/
def State.acceptWords (s : State) (ws : List W32) : State :=
  let t := s.setReg aCFG_WORDS (s.reg aCFG_WORDS + BitVec.ofNat 32 ws.length)
  { t with cfg := { t.cfg with crc := crc32Run t.cfg.crc (ws.flatMap (fun w => natLe 4 w.toNat)), lastWord := t.now } }

/-! ### Frame and map data (R190, R219 to R221, R226) -/

/-- Region of a running die that is held and holds a column and row block. -/
def State.heldRegionAt (s : State) (f : FrameAddr) : Option Nat :=
  (List.range 16).find? (fun n => s.rgnHeld f.die n && s.rgnHas f.die n f.col f.rb)

/-- Row blocks and last column over which an address advances, where writing is allowed (R220, R221). -/
def State.writeBounds (s : State) (f : FrameAddr) : Option (Nat × Nat × Nat) :=
  if s.dieState f.die < 2 then some (0, rowBlocks f.die - 1, lastColumn f.die)
  else
    match s.heldRegionAt f with
    | some n =>
      let w := s.reg (aBR_RGN f.die n)
      some (getF w fBR_RGN_RB_FIRST, getF w fBR_RGN_RB_LAST, getF w fBR_RGN_COL_LAST)
    | none => none

/-- The frame can hold select fields: not a truth table, an I/O cell word or memory content (R188, R190, R202, R210). -/
def hasSelects (f : FrameAddr) : Bool :=
  if minors f.die f.col = 12 then decide (8 ≤ f.minor)
  else if minors f.die f.col = 44 then decide (f.minor < 8)
  else if minors f.die f.col = 16 then f.minor != 0
  else true
/-- A frame fails the select-field check (R190): which bits are select fields the spec does not list, so the answer is free
but for a frame with no two bits set. -/
def selectBad (f : FrameAddr) (b : BitVec 4096) : Bool := hasSelects f && b &&& (b - 1) != 0 && Config.selectBad f.key b

/-- One word of frame data arrives. -/
def State.frameDataWord (s : State) (w : W32) : State :=
  let s := s.acceptWords [w]
  let f := faOf s.cfg.frameAddr
  if s.cfg.frameEnd then s.cfgFail 8
  else if s.inReset f.die then s.cfgFail 0xC
  else
    let acc := s.cfg.acc ++ [w]
    let s := { s with cfg := { s.cfg with fdataLeft := s.cfg.fdataLeft - 1, acc := acc } }
    if acc.length < 128 then s
    else
      let b : BitVec 4096 := BitVec.ofNat 4096 (leNat (acc.flatMap (fun x => natLe 4 x.toNat)))
      let s := { s with cfg := { s.cfg with acc := [] } }
      match s.writeBounds f with
      | none => s.cfgFail 9
      | some (lo, hi, last) =>
        if selectBad f b then s.cfgFail 7
        else
          let t := { s with cfg := { s.cfg with engineQ := s.cfg.engineQ ++ [(f.die, f.key, b)] } }
          let t := if t.dieState f.die = 0 then t.setDie f.die 1 else t
          match f.next false lo hi last with
          | some g => { t with cfg := { t.cfg with frameAddr := g.word } }
          | none => { t with cfg := { t.cfg with frameEnd := true } }

/-- One word of map data arrives. -/
def State.mapDataWord (s : State) (w : W32) : State :=
  let s := s.acceptWords [w]
  let f := faOf s.cfg.ebmAddr
  if s.cfg.ebmEnd then s.cfgFail 8
  else if s.inReset f.die then s.cfgFail 0xC
  else
    let acc := s.cfg.acc ++ [w]
    let s := { s with cfg := { s.cfg with ebmLeft := s.cfg.ebmLeft - 1, acc := acc } }
    if acc.length < 4 then s
    else
      let b : BitVec 128 := BitVec.ofNat 128 (leNat (acc.flatMap (fun x => natLe 4 x.toNat)))
      let s := { s with cfg := { s.cfg with acc := [] } }
      match s.writeBounds f with
      | none => s.cfgFail 9
      | some (lo, hi, last) =>
        let t := s.putMap f.die f.index b
        let t := if t.dieState f.die = 0 then t.setDie f.die 1 else t
        match f.next true lo hi last with
        | some g => { t with cfg := { t.cfg with ebmAddr := g.word } }
        | none => { t with cfg := { t.cfg with ebmEnd := true } }

/-- Data words one by one until the stream fails. -/
def State.dataWords (s : State) (ws : List W32) : State :=
  ws.foldl (fun t w => if t.cfgState ≠ 3 then t
    else if t.cfg.fdataLeft ≠ 0 then t.frameDataWord w else t.mapDataWord w) s

/-! ### Commands of the stream (R217 to R219) -/

/-- A command other than the four that keep a check standing. -/
def State.unclean (s : State) : State := { s with cfg := { s.cfg with clean := false } }

/-- The engine of die d has frames to write. -/
def State.engineBusy (s : State) (d : Nat) : Bool := s.cfg.engineQ.any (fun x => x.1 == d)
/-- Once the engines of the dies of an honoured `START` have written their last frames, tick T is fixed (R222). -/
def State.fixStart (s : State) : State :=
  let dies := fabricDies.filter (fun d => s.cfg.startPend.getLsbD d)
  if dies.isEmpty || dies.any s.engineBusy then s
  else
    let tick := (s.tickN + 512 + 1023) / 1024 * 1024
    let t := dies.foldl (fun t d =>
      { t with cfg := { t.cfg with startAt := tput (fun _ => 0) t.cfg.startAt d (tick + 1) } }) s
    { t with cfg := { t.cfg with startPend := 0 } }
/-- Every die in state loading will start (R222). -/
def State.startDies (s : State) : State :=
  let t := fabricDies.foldl (fun t d =>
    if t.dieState d = 1 then
      let bit : BitVec 8 := 1#8 <<< d
      { t with cfg := { t.cfg with startPend := t.cfg.startPend ||| bit
                                   startScan := if t.cfg.scan then t.cfg.startScan ||| bit else t.cfg.startScan &&& ~~~bit } }
    else t) s
  t.fixStart

/-- Die and number of the region that `REGION` names. -/
def State.streamRegion (s : State) : Nat × Nat := (bitsOf s.cfg.region.toNat 18 16, bitsOf s.cfg.region.toNat 3 0)

/-- A `CMD` word (R217, R219). -/
def State.streamCmd (s : State) (k : OpKind) : State :=
  let gated (f : State → State) : State :=
    if !s.cfg.devOk || !s.cfg.featOk then s.cfgFail 6 else f s
  let checked (f : State → State) (t : State) : State := if t.cfg.clean then f t else t.cfgFail 2
  let (d, n) := s.streamRegion
  match k with
  | .start => gated (checked (fun t => t.startDies))
  | .hold => gated (fun t =>
      if d < 6 ∧ t.rgnValid d n then
        let u := t.unclean.holdRegion d n
        if u.rgnHeld d n then u else { u with cfg := { u.cfg with waitHold := some (d, n) } }
      else t.cfgFail 0xD)
  | .release => gated (checked (fun t => if d < 6 ∧ t.rgnValid d n then t.releaseRegion d n else t.cfgFail 0xD))
  | .desync => checked (fun t => (t.endStream 2).raise 33) s
  | _ => s.unclean

/-- A header with its data, accepted and performed. -/
def State.performOp (s : State) (ws : List W32) (op : StreamOp) : State :=
  let ready := s.cfg.devOk && s.cfg.featOk
  let later (f : State → State) : State := if ready then f s.unclean else s.cfgFail 6
  let data (n : Nat) (ebm : Bool) (xs : List W32) : State :=
    later (fun t =>
      let t := { t with cfg := { t.cfg with fdataLeft := if ebm then 0 else n, ebmLeft := if ebm then n else 0, acc := [] } }
      t.dataWords xs)
  match op with
  | .nop => s
  | .crc w =>
    if w = s.cfg.crc ^^^ 0xFFFFFFFF#32 then { s with cfg := { s.cfg with crc := 0xFFFFFFFF#32, clean := true } } else s.cfgFail 3
  | .deviceCode w =>
    if w = s.reg aDEVICE_CODE then { s with cfg := { s.cfg with devOk := true, clean := false } } else s.cfgFail 4
  | .feature w =>
    if 16 ≤ w.toNat then s.cfgFail 0xA
    else if s.bit aFEATURE_LEVEL fFEATURE_LEVEL_VALID ∧ w.toNat ≤ s.fld aFEATURE_LEVEL fFEATURE_LEVEL_LEVEL then
      { s with cfg := { s.cfg with featOk := true, clean := false } }
    else s.cfgFail 5
  | .frameAddr w =>
    if (faOf w).valid && w.toNat % 256 == 0 then
      { s with cfg := { s.cfg with frameAddr := w, frameEnd := false, clean := false } }
    else s.cfgFail 8
  | .options w => later (fun t => if w.toNat < 2 then { t with cfg := { t.cfg with scan := w.toNat == 1 } } else t.cfgFail 0xA)
  | .region w =>
    later (fun t => if w &&& 0xFFF8FFF0#32 = 0 then { t with cfg := { t.cfg with region := w } } else t.cfgFail 0xA)
  | .ebmAddr w =>
    let f := faOf w
    later (fun t => if f.valid && w.toNat % 256 == 0 && f.die != 7 && decide (f.minor < cfgMinors f.die f.col) then
        { t with cfg := { t.cfg with ebmAddr := w, ebmEnd := false } } else t.cfgFail 8)
  | .fdata n xs => data n false xs
  | .ebmData n xs => data n true xs
  | .cmd w =>
    match (StreamOp.cmd w).kind with
    | some k => s.streamCmd k
    | none => s.cfgFail 0xA
  | .more _ => s
  | .bad => let _ := ws; s.cfgFail 0xA

/-- How many of an operation's n words enter the CRC and the count before its data. -/
def StreamOp.headLen (op : StreamOp) (n : Nat) : Nat :=
  match op with
  | .fdata _ xs => n - xs.length
  | .ebmData _ xs => n - xs.length
  | .crc _ => 1
  | .bad => 1
  | .nop => n
  | .deviceCode _ => n
  | .feature _ => n
  | .cmd _ => n
  | .frameAddr _ => n
  | .options _ => n
  | .region _ => n
  | .ebmAddr _ => n
  | .more _ => n
/-- The words of an operation that enter the CRC and the count before its data. -/
def headWords (ws : List W32) (op : StreamOp) : List W32 := ws.take (op.headLen ws.length)

/-- Frames in the input buffer of die d's engine (R216). -/
def State.engineLoad (s : State) (d : Nat) : Nat := (s.cfg.engineQ.filter (fun e => e.1 == d)).length
/-- A march test runs on die d (R410). -/
def State.marching (s : State) (d : Nat) : Bool := (tget (fun _ => DieBist.empty) s.tap.bists d).since.isSome
/-- The input buffer of die d's engine has room for `n` frames, begun ones among them, and its die is under no march test (R216, R410). -/
def State.engineHas (s : State) (d n : Nat) : Bool := decide (s.engineLoad d + n ≤ 64) && !s.marching d
/-- The engine they are destined for has room for the data words of an operation (R216). -/
def State.engineRoom (s : State) (op : StreamOp) : Bool :=
  let frames (xs : List W32) (start : Nat) : Bool :=
    xs.isEmpty || s.engineHas (faOf s.cfg.frameAddr).die ((start + xs.length + 127) / 128)
  let maps (xs : List W32) : Bool := xs.isEmpty || s.engineHas (faOf s.cfg.ebmAddr).die 1
  match op with
  | .fdata _ xs => frames xs 0
  | .ebmData _ xs => maps xs
  | .more xs => if s.cfg.fdataLeft = 0 then maps xs else frames xs s.cfg.acc.length
  | _ => true
/-- The controller accepts no word: it waits for a hold, or the engine of the next word has no room (R216, R223). -/
def State.streamStalled (s : State) : Bool :=
  (match s.cfg.waitHold with
    | some (d, n) => !s.rgnHeld d n
    | none => false) ||
  ((s.cfg.fdataLeft != 0 || s.cfg.ebmLeft != 0) && !s.engineRoom (.more [0#32]))
/-- The time of an early end counts only while the controller accepts words (R223). -/
def State.cfgTick (s : State) : State :=
  if s.cfgState == 3 && s.streamStalled then { s with cfg := { s.cfg with lastWord := s.cfg.lastWord + 1 } } else s

/-- Words of source `c` arrive that spell row `k` (R215, R217): from another source than the owner they are discarded; a stream
that waits for a hold accepts none; words that spell another row are not this command. -/
def streamWords (k : OpKind) (c : CfgSrc) (ws : List W32) (s : State) : State :=
  if !s.runs || s.cfgState != 3 || ws.isEmpty then s
  else if !s.owns c then (if s.srcAllowed c ∧ c ≠ .sdata then s.setBit aCFG_STATUS fCFG_STATUS_OTHER true else s)
  else if s.streamStalled then s
  else
    match s.parse ws with
    | none => s
    | some op =>
      let mine : Bool := match op with
        | .more _ => (k == .fdata && s.cfg.fdataLeft != 0) || (k == .ebmData && s.cfg.ebmLeft != 0)
        | _ => op.kind == none || op.kind == some k
      if !mine || !s.engineRoom op then s
      else
        match s.takeWords c ws with
        | none => s
        | some (t, bad) =>
          let t := { t with cfg := { t.cfg with waitHold := none } }
          if bad then (t.acceptWords ws).cfgFail 0xB
          else
            match op with
            | .more xs => t.dataWords xs
            | .crc w =>
              let t := t.acceptWords [ws.headD 0]
              let t := t.setReg aCFG_WORDS (t.reg aCFG_WORDS + 1)
              t.performOp ws (.crc w)
            | op => (t.acceptWords (headWords ws op)).performOp ws op

/-- A NOP header (R217). -/
def execStreamNop (c : CfgSrc) (ws : List W32) (s : State) : Host.Outcome State Fault Refusal := .next (streamWords .nop c ws s)
/-- `CRC` (R218). -/
def execStreamCrc (c : CfgSrc) (ws : List W32) (s : State) : Host.Outcome State Fault Refusal := .next (streamWords .crc c ws s)
/-- `DEVICE_CODE` (R217). -/
def execStreamDeviceCode (c : CfgSrc) (ws : List W32) (s : State) : Host.Outcome State Fault Refusal :=
  .next (streamWords .deviceCode c ws s)
/-- `FEATURE` (R14, R15). -/
def execStreamFeature (c : CfgSrc) (ws : List W32) (s : State) : Host.Outcome State Fault Refusal :=
  .next (streamWords .feature c ws s)
/-- `FRAME_ADDR` (R210). -/
def execStreamFrameAddr (c : CfgSrc) (ws : List W32) (s : State) : Host.Outcome State Fault Refusal :=
  .next (streamWords .frameAddr c ws s)
/-- `FDATA` (R220). -/
def execStreamFdata (c : CfgSrc) (ws : List W32) (s : State) : Host.Outcome State Fault Refusal := .next (streamWords .fdata c ws s)
/-- `OPTIONS` (R217). -/
def execStreamOptions (c : CfgSrc) (ws : List W32) (s : State) : Host.Outcome State Fault Refusal :=
  .next (streamWords .options c ws s)
/-- `REGION` (R217). -/
def execStreamRegion (c : CfgSrc) (ws : List W32) (s : State) : Host.Outcome State Fault Refusal :=
  .next (streamWords .region c ws s)
/-- `EBM_ADDR` (R217, R347). -/
def execStreamEbmAddr (c : CfgSrc) (ws : List W32) (s : State) : Host.Outcome State Fault Refusal :=
  .next (streamWords .ebmAddr c ws s)
/-- `EBM_DATA` (R226). -/
def execStreamEbmData (c : CfgSrc) (ws : List W32) (s : State) : Host.Outcome State Fault Refusal :=
  .next (streamWords .ebmData c ws s)
/-- `NULL` (R217). -/
def execCmdNull (c : CfgSrc) (ws : List W32) (s : State) : Host.Outcome State Fault Refusal := .next (streamWords .null c ws s)
/-- `START` (R219, R222). -/
def execCmdStart (c : CfgSrc) (ws : List W32) (s : State) : Host.Outcome State Fault Refusal := .next (streamWords .start c ws s)
/-- `HOLD` (R217). -/
def execCmdHold (c : CfgSrc) (ws : List W32) (s : State) : Host.Outcome State Fault Refusal := .next (streamWords .hold c ws s)
/-- `RELEASE` (R217, R219). -/
def execCmdRelease (c : CfgSrc) (ws : List W32) (s : State) : Host.Outcome State Fault Refusal := .next (streamWords .release c ws s)
/-- `DESYNC` (R217, R219). -/
def execCmdDesync (c : CfgSrc) (ws : List W32) (s : State) : Host.Outcome State Fault Refusal := .next (streamWords .desync c ws s)

/-- The frame engine of die d writes the oldest frame of its buffer; a source stalled by it may go on (R216, R222). -/
def execFrameEngineWriteDone (d : Fin 8) (s : State) : Host.Outcome State Fault Refusal :=
  match s.cfg.engineQ.find? (fun x => x.1 == d.val) with
  | none => .next s
  | some x =>
    if !s.runs || s.inReset d.val || s.marching d.val then .next s
    else
      let t := s.putFrame x.2.1 x.2.2 (frameCheck x.2.2)
      .next { t with cfg := { t.cfg with engineQ := t.cfg.engineQ.erase x } }.fixStart

/-! ### Sources (R212 to R215) -/

/-- A write of `CFG_SDATA` (R215). -/
def cfgSdataWrite (v : W32) (s : State) : Answer :=
  let src := s.fld aCFG_STATUS fCFG_STATUS_SRC
  if 256 ≤ s.cfg.sdata.length ∨ (src ≠ 0 ∧ src ≠ 4) then refuse s
  else
    let t := { s with cfg := { s.cfg with sdata := s.cfg.sdata ++ [v] } }
    wrote (if s.cfgState = 2 ∨ s.cfgState = 5 then t.dropUnsynced else t)

/-- `CFG_SDATA` written by master m. -/
def execCfgSdataWrite (m : Rm) (v : W32) (s : State) : Host.Outcome State Fault Refusal :=
  .next (ringPut m aCFG_SDATA v (cfgSdataWrite v) s)

/-- The sync word of a source at the front of its words: those before it are ignored; none where it has none. -/
def State.takeSync (s : State) (c : CfgSrc) : Option State :=
  let upTo (ws : List W32) : Nat := (ws.takeWhile (fun w => w != syncWordValue)).length
  match c with
  | .parallel => some s
  | .spi => some s
  | .sdata =>
    let k := upTo s.cfg.sdata
    if k < s.cfg.sdata.length then some { s with cfg := { s.cfg with sdata := s.cfg.sdata.drop (k + 1) } } else none
  | .port p =>
    let y := s.port p.val
    let ws := y.cfgIn.flatMap (fun x => x.words)
    let k := upTo ws
    let (ps, n, _) := dropWords y.cfgIn (min (k + 1) ws.length) 0 false
    let t := s.setPort p.val { y with cfgIn := ps, cfgAccepted := y.cfgAccepted + BitVec.ofNat 8 n }
    if k < ws.length then some t else none

/-- A sync word: its source owns the stream (R215, R218, R224). -/
def execSyncWord (c : CfgSrc) (s : State) : Host.Outcome State Fault Refusal :=
  if !s.runs || !(s.cfgState == 2 || s.cfgState == 5) || !s.srcAllowed c then .next s
  else
    match s.takeSync c with
    | none => .next s
    | some t =>
      let t := (t.setFld aCFG_STATUS fCFG_STATUS_SRC (srcCode c).1).setFld aCFG_STATUS fCFG_STATUS_PORT (srcCode c).2
      let t := ((t.setReg aCFG_WORDS 0#32).setCfgState 3).setBit aCFG_STATUS fCFG_STATUS_INIT true
      .next ({ t with
        pins := { t.pins with initDriven := false }
        cfg := { t.cfg with crc := 0xFFFFFFFF#32, clean := false, devOk := false, featOk := false, frameAddr := 0, ebmAddr := 0
                            frameEnd := false, ebmEnd := false, region := 0, scan := false, fdataLeft := 0, ebmLeft := 0
                            acc := [], waitHold := none, lastWord := t.now } }.raise 32)

/-- No word for the `TMO` time while words are accepted (R223, cause 0x1). -/
def execStreamTimeout (s : State) : Host.Outcome State Fault Refusal :=
  let tmo := s.fld aCFG_CTRL fCFG_CTRL_TMO
  if s.runs && s.cfgState == 3 && !s.streamStalled && tmo != 0 && decide (s.cfg.lastWord + ringTicks (4096 * tmo) ≤ s.now) then
    .next (s.cfgFail 1)
  else .next s

/-- Clearing completes: every frame zero, every map bit one, `INIT_N` released, the controller in `WAIT` (R212, R213). -/
def execClearComplete (s : State) : Host.Outcome State Fault Refusal :=
  if s.runs && s.cfgState == 0 && s.clk.revDone && s.clk.revWait == 0 && !s.pins.progLow then
    let t := fabricDies.foldl (fun t d => t.clearFrames d) s
    .next ({ t with pins := { t.pins with initDriven := false } }.setCfgState 1)
  else .next s

/-- `INIT_N` reads high: the controller enters `SYNC`, and in mode 0b001 the flash is read from address 0 (R212, R225). -/
def execInitNHigh (s : State) : Host.Outcome State Fault Refusal :=
  if s.runs && s.cfgState == 1 then
    let t := ((s.setBit aCFG_STATUS fCFG_STATUS_INIT true).setCfgState 2).dropUnsynced
    .next { t with cfg := { t.cfg with spiRead := t.pins.cfgMode == 1 } }
  else .next s

/-! ### Start-up (R222) -/

/-- Start tick of a die. -/
def State.dieStart (s : State) (d : Nat) : Option Nat :=
  match tget (fun _ => 0) s.cfg.startAt d with
  | 0 => none
  | n + 1 => some n
/-- Set the rows that a starting die has passed. -/
def State.setStage (s : State) (d v : Nat) : State := { s with cfg := { s.cfg with stage := tput (fun _ => 0) s.cfg.stage d v } }

/-- At T the dies enter state starting. -/
def execStartupBegin (s : State) : Host.Outcome State Fault Refusal :=
  if s.runs then
    .next (fabricDies.foldl (fun t d =>
      match t.dieStart d with
      | some k => if t.dieState d = 1 ∧ k ≤ t.tickN then (t.setDie d 2).setStage d 1 else t
      | none => t) s)
  else .next s

/-- Rows of R222 that have taken effect `n` ticks after T. -/
def rowsPassed (n : Nat) : Nat := ([0, 16, 32, 64, 128, 192, 256].filter (fun k => decide (k ≤ n))).length

/-- At T + 16 to T + 256 inputs, blocks, clocks, flip-flops, ports and outputs are released in turn. -/
def execStartupStage (s : State) : Host.Outcome State Fault Refusal :=
  if s.runs then
    .next (fabricDies.foldl (fun t d =>
      match t.dieStart d with
      | some k => if t.dieState d = 2 then t.setStage d (rowsPassed (t.tickN - k)) else t
      | none => t) s)
  else .next s

/-- The logic dies are all running: `DONE` is released (R222, R232). -/
def State.checkDone (s : State) : State :=
  if [0, 1, 2, 3, 4, 5].all (fun d => s.dieState d == 3) && !s.bit aCFG_STATUS fCFG_STATUS_DONE then
    ({ s.setBit aCFG_STATUS fCFG_STATUS_DONE true with pins := { s.pins with done := true } }).raise 35
  else s

/-- At T + 288 the dies enter state running. -/
def execStartupRunning (s : State) : Host.Outcome State Fault Refusal :=
  if s.runs then
    .next ((fabricDies.foldl (fun t d =>
      match t.dieStart d with
      | some k =>
        if t.dieState d = 2 ∧ k + 288 ≤ t.tickN then
          let u := ((t.setDie d 3).setStage d 0).raise (feEvent d 4)
          let u := { u with cfg := { u.cfg with startAt := tput (fun _ => 0) u.cfg.startAt d 0 } }
          if u.cfg.startScan.getLsbD d then u.setBit (aFE_SCAN_CTRL d) fFE_SCAN_CTRL_EN true else u
        else t
      | none => t) s).checkDone)
  else .next s

/-! ### Upset scanning (R227 to R229, R349) -/

/-- Upset records of a die. -/
def State.upsets (s : State) (d : Nat) : List UpsetRec := tget (fun _ => []) s.cfg.upsets d
/-- Set the upset records of a die. -/
def State.setUpsets (s : State) (d : Nat) (l : List UpsetRec) : State :=
  { s with cfg := { s.cfg with upsets := tput (fun _ => []) s.cfg.upsets d l } }

/-- A record enters a die's log, or is counted lost; event once when the count leaves zero (R229). -/
def State.logUpset (s : State) (d : Nat) (r : UpsetRec) : State :=
  if (s.upsets d).length < 8 then s.setUpsets d (s.upsets d ++ [r])
  else
    let first := s.fld (aFE_LOG_STAT d) fFE_LOG_STAT_LOST == 0
    let t := s.satInc (aFE_LOG_STAT d) fFE_LOG_STAT_LOST
    if first then t.raise (feEvent d 2) else t

/-- Handle what a check of a frame found (R228, R349). -/
def State.handleUpset (s : State) (d f k : Nat) (o : FrameOutcome) : State :=
  let fa : W32 := BitVec.ofNat 32 (k * 256)
  let tick : W32 := BitVec.ofNat 32 s.tickN
  let b := s.frame k
  let c := s.frameChk k
  let a := aFE_UPSET_CNT d
  match o with
  | .clean => s
  | .data i =>
    let t := s.putFrame k (b ^^^ (1#4096 <<< i)) c
    let ess := d == 7 || ((s.mapWords d f).getLsbD (i / 32))
    let r : UpsetRec := { fa := fa, kind := if ess then 2 else 1, chk := false, word := i / 32, bit := i % 32, tick := tick }
    let t := t.logUpset d r
    if ess then (t.satInc a fFE_UPSET_CNT_ESS).raise (feEvent d 0) else t.satInc a fFE_UPSET_CNT_NONESS
  | .check i =>
    let t := s.putFrame k b (c ^^^ (1#14 <<< i))
    let ess := d == 7
    let r : UpsetRec := { fa := fa, kind := if ess then 2 else 1, chk := true, word := 0, bit := i, tick := tick }
    let t := t.logUpset d r
    if ess then (t.satInc a fFE_UPSET_CNT_ESS).raise (feEvent d 0) else t.satInc a fFE_UPSET_CNT_NONESS
  | .bad =>
    let r : UpsetRec := { fa := fa, kind := 3, chk := false, word := 0, bit := 0, tick := tick }
    ((s.logUpset d r).satInc a fFE_UPSET_CNT_UNCORR).raise (feEvent d 1)

/-- Flip stored bits of a frame: 0 to 4095 data, 4096 to 4109 check bits. -/
def State.flipBits (s : State) (k : Nat) (flips : List Nat) : State :=
  flips.foldl (fun t i =>
    if i < 4096 then t.putFrame k (t.frame k ^^^ (1#4096 <<< i)) (t.frameChk k)
    else if i < 4110 then t.putFrame k (t.frame k) (t.frameChk k ^^^ (1#14 <<< (i - 4096)))
    else t) s

/-- The engine of die d checks its next frame, in which the bits given have flipped (R227). -/
def execScanFrame (d : Fin 8) (flips : List Nat) (s : State) : Host.Outcome State Fault Refusal :=
  let d := d.val
  if d = 6 ∨ !s.runs ∨ s.inReset d ∨ !s.bit (aFE_SCAN_CTRL d) fFE_SCAN_CTRL_EN ∨ s.dieState d ≠ 3 then .next s
  else
    let f := s.fld (aFE_SCAN_FRAME d) fFE_SCAN_FRAME_F
    let fa := frameAt d f
    let s := s.flipBits fa.key flips
    let t := if (s.heldRegionAt fa).isSome then s else s.handleUpset d f fa.key (frameJudge (s.frame fa.key) (s.frameChk fa.key))
    if f + 1 < frameCount d then .next (t.setFld (aFE_SCAN_FRAME d) fFE_SCAN_FRAME_F (f + 1))
    else
      let t := (t.setFld (aFE_SCAN_FRAME d) fFE_SCAN_FRAME_F 0).satInc (aFE_SCAN_POS d) fFE_SCAN_POS_PASSES
      .next (if t.bit (aFE_SCAN_CTRL d) fFE_SCAN_CTRL_PASS_EVT then t.raise (feEvent d 3) else t)

/-- A write of `FE_LOG_POP` (R229). -/
def feLogPopWrite (d : Nat) (s : State) : Answer := wrote (s.setUpsets d ((s.upsets d).drop 1))
/-- `FE_LOG_POP` written by master m. -/
def execFeLogPop (m : Rm) (d : Fin 8) (v : W32) (s : State) : Host.Outcome State Fault Refusal :=
  .next (ringPut m (aFE_LOG_POP d.val) v (feLogPopWrite d.val) s)
/-- A write of `FE_LOG_STAT` (R229). -/
def feLogStatWrite (d : Nat) (v : W32) (s : State) : Answer :=
  let t := if v.getLsbD 16 then s.setFld (aFE_LOG_STAT d) fFE_LOG_STAT_LOST 0 else s
  wrote (if v.getLsbD 0 then t.setReg (aFE_UPSET_CNT d) 0#32 else t)
/-- `FE_LOG_STAT` written by master m. -/
def execFeLogStatWrite (m : Rm) (d : Fin 8) (v : W32) (s : State) : Host.Outcome State Fault Refusal :=
  .next (ringPut m (aFE_LOG_STAT d.val) v (feLogStatWrite d.val v) s)

/-! ### Readback (R230, R231) -/

/-- A die's last capture. -/
def State.capture (s : State) (d : Nat) : Capture := tget (fun _ => Capture.none) s.cfg.capture d
/-- The flip-flops of a column and row block held `INIT` when the capture was made. -/
def Capture.holdsInit (c : Capture) (col rb : Nat) : Bool :=
  c.all || c.rgns.any (fun w => decide (getF w fBR_RGN_COL_FIRST ≤ col) && decide (col ≤ getF w fBR_RGN_COL_LAST) &&
    decide (getF w fBR_RGN_RB_FIRST ≤ rb) && decide (rb ≤ getF w fBR_RGN_RB_LAST))
/-- The frame that `FE_RB_ADDR` names, on the engine's own die. -/
def State.rbFrame (s : State) (d : Nat) : FrameAddr := faOf (s.reg (aFE_RB_ADDR d) &&& 0xFFFFFF00#32)
/-- `FE_RB_ADDR` names a frame of this die. -/
def State.rbValid (s : State) (d : Nat) : Bool := (s.rbFrame d).die == d && (s.rbFrame d).valid
/-- A memory block's contents can have been written by user logic: its ports have left reset (R198, R222). -/
def State.blocksUp (s : State) (d : Nat) : Bool := s.dieState d == 3 || (s.dieState d == 2 && decide (3 ≤ s.dieStage d))
/-- The word at an index of the addressed frame: stored, or with captured flip-flop values in place of its `INIT` bits where `SRC` asks for
them; which bits those are, fixed per minor, the spec does not list, so their places and the values of running flip-flops are free.
Flip-flops that held `INIT` when the capture was made show it (R189, R210, R231). Memory content that user logic may have written is free
(R198, R230). -/
def State.rbWord (s : State) (d : Nat) : W32 :=
  let f := s.rbFrame d
  let w := s.fld (aFE_RB_ADDR d) fFE_RB_ADDR_WORD
  let stored := frameWord (s.frame f.key) w
  if s.bit (aFE_RB_CTRL d) fFE_RB_CTRL_SRC ∧ minors d f.col = 12 ∧ 8 ≤ f.minor then
    let c := s.capture d
    let mask := Config.initBits (f.minor * 128 + w)
    let value := if c.holdsInit f.col f.rb then frameWord (tget (fun _ => 0#4096) c.snap f.key) w
      else Config.captured c.num (f.key * 128 + w)
    (stored &&& ~~~mask) ||| (value &&& mask)
  else if minors d f.col = 44 ∧ 8 ≤ f.minor ∧ s.blocksUp d then Config.blockWord s.now (f.key * 128 + w)
  else stored
/-- A read of `FE_RB_DATA` by master m (R230): the debug port takes the peek path. -/
def feRbDataRead (m : Rm) (d : Nat) (s : State) : Answer :=
  if !s.rbValid d then (s, .decode, 0#32)
  else
    let v := s.rbWord d
    if m = .debug then (s, .ok, v)
    else
      let w := s.fld (aFE_RB_ADDR d) fFE_RB_ADDR_WORD
      if w < 127 then (s.setFld (aFE_RB_ADDR d) fFE_RB_ADDR_WORD (w + 1), .ok, v)
      else
        match (s.rbFrame d).next false 0 (rowBlocks d - 1) (lastColumn d) with
        | some g => (s.setReg (aFE_RB_ADDR d) g.word, .ok, v)
        | none => (s.setReg (aFE_RB_ADDR d) (BitVec.ofNat 32 (2 ^ 29 * d + 2 ^ 20 * (lastColumn d + 1))), .ok, v)
/-- `FE_RB_DATA` of die d read by master m. -/
def execFeRbDataRead (m : Rm) (d : Fin 8) (s : State) : Host.Outcome State Fault Refusal :=
  let a := aFE_RB_DATA d.val
  .next (ringDo m { die := a / 4294967296, block := a / 65536 % 65536, off := a % 65536, write := false, data := 0#32 }
    (feRbDataRead m d.val) s)

/-- A capture of a die's flip-flops (R231): a fresh number of the free values, and the frames of those that hold `INIT` (R189). -/
def State.takeCapture (s : State) (d : Nat) : State :=
  let all := !s.ffsUp d
  let rgns := ((List.range 16).filter (s.rgnInit d)).map (fun n => s.reg (aBR_RGN d n))
  let c : Capture := { num := s.free + 1, all := all, rgns := rgns, snap := [] }
  let keep (k : Nat) : Bool :=
    let f := faOf (BitVec.ofNat 32 (256 * k))
    f.die == d && minors d f.col == 12 && decide (8 ≤ f.minor) && c.holdsInit f.col f.rb
  let c := { c with snap := tkeep keep s.cfg.frames }
  { s with cfg := { s.cfg with capture := tput (fun _ => Capture.none) s.cfg.capture d c }, free := s.free + 1 }

/-- A write of `FE_RB_CTRL` (R231). -/
def feRbCtrlWrite (d : Nat) (v : W32) (s : State) : Answer :=
  let t := s.plainWrite (aFE_RB_CTRL d) v
  if getB v fFE_RB_CTRL_CAPTURE then
    wrote (t.takeCapture d)
  else wrote t
/-- `CAPTURE` written by master m (R231). -/
def execFeRbCapture (m : Rm) (d : Fin 8) (s : State) : Host.Outcome State Fault Refusal :=
  let a := aFE_RB_CTRL d.val
  let v := putF (s.reg a) fFE_RB_CTRL_CAPTURE 1
  .next (ringPut m a v (feRbCtrlWrite d.val v) s)

end Sys2Proof.Machine
end

