-- ==== Sys2Proof/Machine/Thrumas.lean ====
section
/-! DEFINITION. The Thrumas core: its registers and memories (R233, R234), which bundle it fetches and whether that is legal (R235,
R239, R243, R252), when results land (R236), bundle boundaries (R244) and the debug comparators at a boundary (R395). -/

namespace Sys2Proof.Machine

/-- The record of core n. -/
def State.thr (s : State) (n : Nat) : Thrumas := tget (fun _ => Thrumas.empty) s.cores n
/-- Set the record of core n. -/
def State.setThr (s : State) (n : Nat) (x : Thrumas) : State :=
  { s with cores := tput (fun _ => Thrumas.empty) s.cores n x }
/-- Hub NI of core n (R75). -/
def coreNi (n : Nat) : Nat := 2 + 6 * n
/-- `CORE_STATUS.STATE` of core n: 0 stopped, 1 running, 2 waiting, 3 halted, 4 faulted. -/
def State.coreState (s : State) (n : Nat) : Nat := s.fld (aCORE_STATUS n) fCORE_STATUS_STATE
/-- Set `CORE_STATUS.STATE`. -/
def State.setCoreState (s : State) (n v : Nat) : State := s.setFld (aCORE_STATUS n) fCORE_STATUS_STATE v
/-- Event k of core n (R256). -/
def coreEvent (n k : Nat) : Nat := 64 + 8 * n + k
/-- Set a bit of `CORE_FLAG`, with its event (R256). -/
def State.coreFlag (s : State) (n : Nat) (f : Fld) : State :=
  let ev := if f = fCORE_FLAG_X_ERR then 4 else if f = fCORE_FLAG_RX_OVF then 6 else 2
  s.flagRaise (aCORE_FLAG n) f (coreEvent n ev)

/-! ### Memories -/

/-- Model address of byte 0 of core n's scratchpad; no global address names it (R233). -/
def dmBase (n : Nat) : Nat := 0x1000000000000 + 0x40000 * n
/-- Model address of byte 0 of core n's instruction memory. -/
def imBase (n : Nat) : Nat := 0x1000001000000 + 0x20000 * n
/-- `n` bytes of a scratchpad as a number. -/
def State.dmRead (s : State) (n a k : Nat) : Nat := leNat (s.bytes (dmBase n + a) k)
/-- Slot `i` of bundle `pc` of core n's instruction memory. -/
def State.imSlot (s : State) (n pc i : Nat) : W32 := BitVec.ofNat 32 (leNat (s.bytes (imBase n + 16 * pc + 4 * i) 4))

/-! ### Registers -/

/-- Number of rotating registers (R234). -/
def rsizeOf (code : Nat) : Nat :=
  match code with
  | 1 => 8
  | 2 => 16
  | 3 => 24
  | _ => 32
/-- Physical register of a name: names `v32` to `v(31 + RSIZE)` rotate (R234). -/
def physOf (x : Thrumas) (r : Nat) : Nat :=
  let m := rsizeOf x.rsize
  if 32 ≤ r ∧ r < 32 + m then 32 + (r - 32 + m - x.turn % m) % m else r
/-- A register by its physical number; `v0` reads zero (R233). -/
def Thrumas.phys (x : Thrumas) (p : Nat) : W32 := if p = 0 then 0#32 else tget (fun _ => 0#32) x.v p
/-- A register by its name. -/
def Thrumas.get (x : Thrumas) (r : Nat) : W32 := x.phys (physOf x r)
/-- Write a physical register; writes to `v0` are discarded (R233). -/
def Thrumas.setPhys (x : Thrumas) (p : Nat) (v : W32) : Thrumas :=
  if p = 0 then x else { x with v := tput (fun _ => 0#32) x.v p v }
/-- Predicate p; `p0` reads 1. -/
def Thrumas.getP (x : Thrumas) (p : Nat) : Bool := p == 0 || x.pred.toNat.testBit p
/-- Write predicate p; writes to `p0` are discarded. -/
def Thrumas.setP (x : Thrumas) (p : Nat) (b : Bool) : Thrumas :=
  if p = 0 then x
  else { x with pred := if b then x.pred ||| BitVec.ofNat 8 (2 ^ p) else x.pred &&& ~~~(BitVec.ofNat 8 (2 ^ p)) }
/-- Accumulator k. -/
def Thrumas.accOf (x : Thrumas) (k : Nat) : BitVec 48 := tget (fun _ => 0#48) x.acc k
/-- Write accumulator k. -/
def Thrumas.setAcc (x : Thrumas) (k : Nat) (v : BitVec 48) : Thrumas :=
  { x with acc := tput (fun _ => 0#48) x.acc k v }
/-- One rotation of the file (R234). -/
def Thrumas.rotate (x : Thrumas) : Thrumas := { x with turn := (x.turn + 1) % rsizeOf x.rsize }

/-! ### Operation words (bundles and operation formats) -/

/-- Opcode. -/
def oOp (w : W32) : Nat := bitsOf w.toNat 31 26
/-- Field d. -/
def oD (w : W32) : Nat := bitsOf w.toNat 21 16
/-- Field a. -/
def oA (w : W32) : Nat := bitsOf w.toNat 15 10
/-- Field b. -/
def oB (w : W32) : Nat := bitsOf w.toNat 9 4
/-- `FN`. -/
def oFn (w : W32) : Nat := bitsOf w.toNat 3 0
/-- imm10, sign-extended to 32 bits. -/
def oImm (w : W32) : W32 := (w.setWidth 10).signExtend 32
/-- The guard: the named predicate, inverted when `NEG` is 1. -/
def guardOn (x : Thrumas) (w : W32) : Bool := x.getP (bitsOf w.toNat 24 22) != w.getLsbD 25

/-- A slot and its nonzero word agree with the table of operations and formats (R235). -/
def opLegal (slot : Nat) (w : W32) : Bool :=
  let op := oOp w
  let z (hi lo : Nat) : Bool := bitsOf w.toNat hi lo == 0
  if op = 0 then true
  else if slot < 2 then
    decide (op ≤ 0x1E) &&
      (if 0x0C ≤ op ∧ op ≤ 0x0E then z 9 5
       else if op = 0x11 ∨ op = 0x12 then decide (bitsOf w.toNat 21 19 ≤ 5)
       else if op = 0x13 then z 3 3
       else true)
  else if slot = 2 then
    decide (0x20 ≤ op) && decide (op ≤ 0x27) &&
      (if op ≤ 0x23 then z 1 0 && z 13 13
       else if op = 0x25 then z 3 0 && (z 4 4 || z 12 8)
       else if op ≤ 0x26 then z 3 0
       else z 3 0)
  else
    decide (0x30 ≤ op) && decide (op ≤ 0x3D) &&
      (if op = 0x33 then z 21 16 && z 1 0
       else if op = 0x39 ∨ op = 0x3A then z 10 10
       else if op = 0x3B then decide (oFn w ≤ 2)
       else true)

/-- `BR`, `BRI`, `CALL`, `RETI` and `REP`: not allowed in a delay slot (R239). -/
def branchClass (w : W32) : Bool := oOp w == 0x30 || oOp w == 0x31 || oOp w == 0x32 || oOp w == 0x33 || oOp w == 0x35

/-- Target of a taken branch of core x at its PC; none for any other operation (R235, R239, R244). -/
def branchTarget (x : Thrumas) (w : W32) : Option Nat :=
  if !guardOn x w then none
  else
    match oOp w with
    | 0x30 | 0x32 => some ((x.pc.toNat + ofInt 14 (sint 22 (bitsOf w.toNat 21 0))) % 16384)
    | 0x31 => some ((x.get (oA w)).toNat % 16384)
    | 0x35 => some x.epc.toNat
    | _ => none

/-! ### Fetch and faults (R235, R239, R243, R252) -/

/-- The PC lies in the boot ROM of core 0, whose content the spec does not give. -/
def inRom (n pc : Nat) : Bool := n == 0 && decide (8192 ≤ pc) && decide (pc < 10240)

/-- The repeat rule fails for slot 3 of the bundle at the PC (R243). -/
def repeatBad (x : Thrumas) (w : W32) : Bool :=
  match x.rep with
  | none => false
  | some r =>
    let inBody (t : Nat) : Bool := decide (r.start ≤ t) && decide (t < r.start + r.len)
    let here := inBody x.pc.toNat
    (oOp w == 0x33 && guardOn x w && here) ||
      (match branchTarget x w with
       | none => false
       | some t => (here && decide (r.start + r.len ≤ x.pc.toNat + 3)) || (oOp w != 0x35 && inBody t))

/-- `FCAUSE` of the bundle at core n's PC; none when it may issue. Words of the boot ROM are the core's own and take no part. -/
def State.bundleFault (s : State) (n : Nat) : Option Nat :=
  let x := s.thr n
  let pc := x.pc.toNat
  if inRom n pc then none
  else if 8192 ≤ pc then some 4
  else
    let w (i : Nat) : W32 := s.imSlot n pc i
    if (List.range 4).any (fun i => !opLegal i (w i)) then some 1
    else if x.branch.isSome && branchClass (w 3) then some 2
    else if repeatBad x (w 3) then some 3
    else none

/-- The same test for a word of the boot ROM, alone. -/
def romWordOk (x : Thrumas) (slot : Nat) (w : W32) : Bool :=
  opLegal slot w && !(slot == 3 && ((x.branch.isSome && branchClass w) || repeatBad x w))

/-! ### Landing (R236) -/

/-- Load `TURN` and `RSIZE`: a turn outside the file is reduced modulo its size (R234). -/
def Thrumas.loadTurn (x : Thrumas) (turn rsize : Nat) : Thrumas := { x with rsize := rsize, turn := turn % rsizeOf rsize }

/-- An `MTS` takes effect (R255, R247, R251). -/
def State.landSpecial (s : State) (n num : Nat) (v : W32) : State :=
  let x := s.thr n
  let put (y : Thrumas) : State := s.setThr n y
  match num with
  | 0x00 => put { x with pred := v.setWidth 8 ||| 1 }
  | 0x01 => put (x.loadTurn (bitsOf v.toNat 4 0) (bitsOf v.toNat 9 8))
  | 0x02 => put { x with ctl := v &&& 0xFFFC000F#32 }
  | 0x03 => put { x with epc := v.setWidth 14 }
  | 0x04 => put { x with estat := v &&& 0xFFFFFE1F#32 }
  | 0x07 => put { x with accflag := x.accflag &&& ~~~(v.setWidth 9) }
  | 0x0A => put { x with xcfg := v &&& 0x13#32 }
  | 0x0B =>
    let m := v &&& 0x3F#32
    s.setReg (aCORE_FLAG n) ((s.reg (aCORE_FLAG n) &&& ~~~m) ||| (s.hwBits (aCORE_FLAG n) &&& m))
  | 0x0C => put { x with rxbase := v.setWidth 6 }
  | 0x0E => put { x with rxrp := v.setWidth 7 }
  | 0x0F => if v = 0x0000A5C3#32 then s.setReg (aWD_CNT n) (s.reg (aWD_LOAD n)) else put { x with badKey := x.badKey || s.bit (aWD_CTRL n) fWD_CTRL_EN }
  | 0x12 => if n = 0 then put { x with raddr := v &&& 0xFFFFFFFC#32 } else s
  | 0x13 => if n = 0 then put { x with rdata := v } else s
  | 0x14 =>
    if n = 0 ∧ s.ringCore.busy = false then
      let req : RingReq := { die := bitsOf v.toNat 6 4, block := bitsOf x.raddr.toNat 31 16
                             off := bitsOf x.raddr.toNat 15 0, write := v.getLsbD 0, data := x.rdata }
      { s with ringCore := { s.ringCore with busy := true, req := req, grantAt := s.now, answered := false, waiting := true, granted := false } }
    else s
  | 0x17 => put { x with erep := v.setWidth 16 }
  | 0x18 => put { x with ctxid := v.setWidth 16 }
  | _ => s

/-- The store touches the reserved word (R250). -/
def storeHits (resv : Option Nat) (a k : Nat) : Bool :=
  match resv with
  | none => false
  | some r => decide (a < r + 4) && decide (r < a + k)

/-- One result lands in core n. -/
def State.land (s : State) (n : Nat) (l : Landing) : State :=
  let x := s.thr n
  match l with
  | .reg p v => s.setThr n (x.setPhys p v)
  | .pred p b => s.setThr n (x.setP p b)
  | .accflag bits => s.setThr n { x with accflag := x.accflag ||| bits }
  | .special num v => s.landSpecial n num v
  | .rot => s.setThr n x.rotate
  | .store a bs =>
    (s.setThr n { x with resv := if storeHits x.resv a bs.length then none else x.resv }).setBytes (dmBase n + a) bs

/-- Result `a` lands before `b`: earlier cycle, then earlier bundle, then lower slot (R236). -/
def landsBefore (a b : InFlight) : Bool :=
  decide (a.land < b.land) || (a.land == b.land &&
    (decide (a.issue < b.issue) || (a.issue == b.issue && decide (a.slot ≤ b.slot))))
/-- Put a result into an ordered list. -/
def insertLanding (a : InFlight) : List InFlight → List InFlight
  | [] => [a]
  | b :: r => if landsBefore b a then b :: insertLanding a r else a :: b :: r
/-- Results in the order in which they land. -/
def landingOrder (l : List InFlight) : List InFlight := l.foldl (fun acc a => insertLanding a acc) []

/-- Every result due by a cycle lands. -/
def State.landUpTo (s : State) (n cyc : Nat) : State :=
  let x := s.thr n
  let due := landingOrder (x.flight.filter (fun f => decide (f.land ≤ cyc)))
  let t := s.setThr n { x with flight := x.flight.filter (fun f => decide (cyc < f.land)) }
  due.foldl (fun t f => t.land n f.what) t

/-- The core issues nothing until every result in flight has landed (R244). -/
def State.drain (s : State) (n : Nat) : State :=
  let x := s.thr n
  let last := x.flight.foldl (fun m f => max m f.land) x.cycle
  let t := s.setThr n { x with cycle := last }
  t.landUpTo n last

/-! ### Boundaries (R244, R389, R395) -/

/-- The core is at a bundle boundary that nothing holds off: no delay slot outstanding, and no repeat but between the
iterations of an interruptible one. -/
def boundaryFree (x : Thrumas) : Bool :=
  x.issued == 0 && x.branch.isNone &&
    (match x.rep with
     | none => true
     | some r => !r.ni && x.pc.toNat == r.start)

/-- Core n is on and its clock runs. -/
def State.coreLive (s : State) (n : Nat) : Bool := s.hubRuns && s.domOn (16 + n)

/-- Breakpoint range k of core n holds the PC, context included (R395). -/
def State.rangeHit (s : State) (n k : Nat) : Bool :=
  let x := s.thr n
  let r := s.reg (aBP_RNG n k)
  let pc := x.pc.toNat
  (s.fld (aBP_CFG n) fBP_CFG_EN).testBit (2 * k) &&
    decide (s.fld (aBP_VAL n (2 * k)) fBP_VAL_PC ≤ pc) && decide (pc ≤ s.fld (aBP_VAL n (2 * k + 1)) fBP_VAL_PC) &&
    (!getB r fBP_RNG_CTX_EN || getF r fBP_RNG_CTX == x.ctxid.toNat)

/-- The comparator or range that matches the bundle at core n's PC (R395, R397). -/
def State.bpMatch (s : State) (n : Nat) : Option Nat :=
  if !s.bit (aDBG_CORE_CTRL n) fDBG_CORE_CTRL_EN then none
  else if s.bit (aBP_CFG n) fBP_CFG_MODE then
    (List.range 4).find? (fun k => s.rangeHit n k && !s.bit (aBP_RNG n k) fBP_RNG_LINK_EN)
  else
    (List.range 8).find? (fun k =>
      (s.fld (aBP_CFG n) fBP_CFG_EN).testBit k && s.fld (aBP_VAL n k) fBP_VAL_PC == (s.thr n).pc.toNat)

/-- A halt is asked for at this boundary, or a comparator must be answered first. -/
def State.boundaryHeld (s : State) (n : Nat) : Bool :=
  let x := s.thr n
  x.watch.isSome || ((s.bpMatch n).isSome && !x.skipBp) ||
    (x.haltReason.isSome && boundaryFree x && x.resv.isNone)

/-- Core n stops at this boundary under `RUN` = 0 (R253). -/
def State.stopCore (s : State) (n : Nat) : State :=
  let t := s.drain n
  let x := t.thr n
  (t.setThr n { x with stopAsked := false, wait := none }).setCoreState n 0

/-! ### The end of an issue cycle -/

/-- Saved repeat state of `ESTAT` and `EREP` as a repeat (R244, R255). -/
def savedRepeat (x : Thrumas) : Option Repeat :=
  if x.estat.getLsbD 31 then
    some { start := bitsOf x.estat.toNat 22 9, len := bitsOf x.estat.toNat 28 23 + 1, rot := x.estat.getLsbD 30
           ni := x.estat.getLsbD 29, left := x.erep.toNat }
  else none

/-- PC, repeat and rotation after the bundle at the PC has issued (R239, R243). -/
def nextPc (x : Thrumas) : Thrumas :=
  let pc := x.pc.toNat
  let plain (y : Thrumas) (p : Nat) : Thrumas := { y with pc := BitVec.ofNat 14 p }
  let x : Thrumas :=
    match x.rep with
    | none => plain x (pc + 1)
    | some r =>
      if pc + 1 = r.start ∧ r.left = 0 then plain { x with rep := none } (r.start + r.len)
      else if pc + 1 = r.start + r.len ∧ r.start ≤ pc then
        let y := if r.rot then x.rotate else x
        if r.left ≤ 1 then plain { y with rep := none } (pc + 1)
        else plain { y with rep := some { r with left := r.left - 1 } } r.start
      else plain x (pc + 1)
  match x.branch with
  | none => x
  | some b =>
    if 1 < b.left then { x with branch := some { b with left := b.left - 1 } }
    else
      let y : Thrumas := { x with branch := none, rep := none, pc := BitVec.ofNat 14 b.target }
      if b.reti then
        { y.loadTurn (bitsOf x.estat.toNat 4 0) x.rsize with rep := savedRepeat x, ctl := x.ctl ||| 1#32 }
      else y

/-- All four slots have issued: the cycle ends, results land, the PC moves, and a step or a stop asked for takes place at a
free boundary (R236, R238, R253, R392). -/
def State.endCycle (s : State) (n : Nat) : State :=
  let x := s.thr n
  let t := (s.setThr n { x with cycle := x.cycle + 1, issued := 0, skipBp := false }).landUpTo n (x.cycle + 1)
  let t := t.setThr n (nextPc (t.thr n))
  let y := t.thr n
  let t := if y.stepping && boundaryFree y then t.setThr n { y with stepping := false, haltReason := some 2, haltAt := s.now } else t
  if (t.thr n).stopAsked && boundaryFree (t.thr n) then t.stopCore n else t

/-! ### Issue -/

/-- Slot 3 of the bundle must issue first: a `WAIT` whose guard holds. -/
def State.slot3First (s : State) (n : Nat) : Bool :=
  let x := s.thr n
  let w := s.imSlot n x.pc.toNat 3
  !inRom n x.pc.toNat && oOp w == 0x3B && guardOn x w && !x.issued.getLsbD 3

/-- The slot of core n's bundle issues this word with this opcode now (R235, R236). -/
def State.issues (s : State) (n slot op : Nat) (w : W32) : Bool :=
  let x := s.thr n
  s.coreLive n && s.coreState n == 1 && oOp w == op && !x.issued.getLsbD slot &&
    (x.issued != 0 || !s.boundaryHeld n) &&
    (if inRom n x.pc.toNat then romWordOk x slot w
     else s.bundleFault n == none && s.imSlot n x.pc.toNat slot == w && (slot == 3 || !s.slot3First n))

/-- The slot has issued; the last of the four ends the cycle. -/
def State.slotDone (s : State) (n slot : Nat) : State :=
  let x := s.thr n
  let t := s.setThr n { x with issued := x.issued ||| BitVec.ofNat 4 (2 ^ slot) }
  if (t.thr n).issued = 0xF#4 then t.endCycle n else t

/-- A result of latency k enters the pipeline of core n. -/
def State.result (s : State) (n slot k : Nat) (l : Landing) : State :=
  let x := s.thr n
  s.setThr n { x with flight := x.flight ++ [{ land := x.cycle + k, issue := x.cycle, slot := slot, what := l }] }

/-- A result for register name r: the name is mapped now (R234). -/
def State.resultReg (s : State) (n slot k r : Nat) (v : W32) : State :=
  s.result n slot k (.reg (physOf (s.thr n) r) v)

/-- One operation of core n: nothing where the slot does not issue this word now; the effect only under its guard. -/
def coreOp (op : Nat) (c : Fin 8) (slot : Fin 4) (w : W32) (eff : State → State) (s : State) :
    Host.Outcome State Fault Refusal :=
  if s.issues c.val slot.val op w then
    .next ((if guardOn (s.thr c.val) w then eff s else s).slotDone c.val slot.val)
  else .next s

/-- A fault: the core stops at the bundle at its PC, results in flight land (R252). -/
def State.coreFault (s : State) (n cause : Nat) : State :=
  let t := s.drain n
  let x := t.thr n
  let t := t.setThr n { x with wait := none, haltReason := none, stepping := false, stopAsked := false, issued := 0 }
  let t := (t.setCoreState n 4).setFld (aCORE_STATUS n) fCORE_STATUS_FCAUSE cause
  let t := (t.setBit (aDBG_CORE_STAT n) fDBG_CORE_STAT_PENDING false).setBit (aDBG_CORE_STAT n) fDBG_CORE_STAT_HALTED false
  t.raise (coreEvent n 1)

/-- The bundle at core c's PC is illegal in one of the ways of R252: it does not issue. -/
def execIllegalOperation (c : Fin 8) (s : State) : Host.Outcome State Fault Refusal :=
  let n := c.val
  if s.coreLive n && s.coreState n == 1 && (s.thr n).issued == 0 && !s.boundaryHeld n then
    match s.bundleFault n with
    | some cause => .next (s.coreFault n cause)
    | none => .next s
  else .next s

end Sys2Proof.Machine
end

