-- ==== Sys2Proof/Machine/ThrumasOps.lean ====
section
/-! DEFINITION. The operations of a Thrumas core: scalar, load-store, multiply-accumulate, control and network slots (R233 to R250, R255).
Each is one slot of a bundle; operands are read when it issues and results enter the pipeline (R236). -/

namespace Sys2Proof.Machine

/-! ### Scalar results -/

/-- Clamp to the signed 32-bit range. -/
def clamp32 (i : Int) : W32 := BitVec.ofInt 32 (clampInt (-2147483648) 2147483647 i)
/-- Sum, clamped when `FN`[0] is 1. -/
def addFn (sat : Bool) (a b : W32) : W32 := if sat then clamp32 (a.toInt + b.toInt) else a + b
/-- Difference, clamped when `FN`[0] is 1. -/
def subFn (sat : Bool) (a b : W32) : W32 := if sat then clamp32 (a.toInt - b.toInt) else a - b
/-- Condition `COND` of two words (R235). -/
def condOf (c : Nat) (a b : W32) : Bool :=
  match c with
  | 0 => a == b
  | 1 => a != b
  | 2 => decide (a.toInt < b.toInt)
  | 3 => decide (b.toInt ≤ a.toInt)
  | 4 => decide (a.toNat < b.toNat)
  | _ => decide (b.toNat ≤ a.toNat)

/-- Format R with a scalar result: d = f(a, b). -/
def effR (n slot : Nat) (w : W32) (f : W32 → W32 → W32) (s : State) : State :=
  let x := s.thr n
  s.resultReg n slot 1 (oD w) (f (x.get (oA w)) (x.get (oB w)))
/-- Format I with a scalar result: d = f(a, imm10). -/
def effI (n slot : Nat) (w : W32) (f : W32 → W32 → W32) (s : State) : State :=
  s.resultReg n slot 1 (oD w) (f ((s.thr n).get (oA w)) (oImm w))
/-- Format C: predicate = `COND`(a, b). -/
def effC (n slot : Nat) (w b : W32) (s : State) : State :=
  s.result n slot 1 (.pred (bitsOf w.toNat 18 16) (condOf (bitsOf w.toNat 21 19) ((s.thr n).get (oA w)) b))

/-! ### Loads and stores (R233, R238, R250) -/

/-- The address of a load or store: bits [17:0], the bits below the access size taken as zero (R233). -/
def dmAddr (size : Nat) (base off : W32) : Nat := ((base + off).toNat % 262144) / size * size
/-- Address of an access of `size` bytes at a + size × imm10. -/
def immAddr (x : Thrumas) (size : Nat) (w : W32) : Nat := dmAddr size (x.get (oA w)) (oImm w * BitVec.ofNat 32 size)

/-- A data comparator j admits an access (R396, R397). -/
def State.watchHit (s : State) (n a : Nat) (store : Bool) (j : Nat) : Bool :=
  let ctl := s.reg (aWP_CTL n j)
  let mask := getF ctl fWP_CTL_MASK
  let linked := s.bit (aBP_CFG n) fBP_CFG_MODE &&
    (List.range 4).any (fun k => s.bit (aBP_RNG n k) fBP_RNG_LINK_EN && s.fld (aBP_RNG n k) fBP_RNG_LINK_D == j)
  let admitted := !linked || (List.range 4).any (fun k =>
    s.bit (aBP_RNG n k) fBP_RNG_LINK_EN && s.fld (aBP_RNG n k) fBP_RNG_LINK_D == j && s.rangeHit n k)
  getB ctl fWP_CTL_EN && (getF ctl fWP_CTL_ACC).testBit (if store then 1 else 0) &&
    (a ||| mask) == (s.fld (aWP_ADDR n j) fWP_ADDR_ADDR ||| mask) && admitted
/-- A load or store of an S slot is shown to the data comparators: the lowest that matches is recorded (R396). -/
def State.watchAccess (s : State) (n slot a : Nat) (store : Bool) : State :=
  if !s.bit (aDBG_CORE_CTRL n) fDBG_CORE_CTRL_EN then s
  else
    match (List.range 4).find? (s.watchHit n a store) with
    | none => s
    | some j =>
      let x := s.thr n
      let best := match x.watch with
        | some (k, sl) => if j < k then (j, slot) else (k, sl)
        | none => (j, slot)
      s.setThr n { x with watch := some best }

/-- A load of `size` bytes at address a into d at latency 4. -/
def effLoad (n slot size : Nat) (signed : Bool) (a : Nat) (w : W32) (s : State) : State :=
  let v := s.dmRead n a size
  let r : W32 := if signed then BitVec.ofInt 32 (sint (8 * size) v) else BitVec.ofNat 32 v
  (s.resultReg n slot 4 (oD w) r).watchAccess n slot a false
/-- A store of the low `size` bytes of v at address a, at the end of the issue cycle. -/
def effStore (n slot size a : Nat) (v : W32) (s : State) : State :=
  (s.result n slot 1 (.store a (natLe size v.toNat))).watchAccess n slot a true
/-- The post-increment of `LDWP` and `STWP`. -/
def effPost (n slot : Nat) (w : W32) (s : State) : State :=
  s.resultReg n slot 1 (oA w) ((s.thr n).get (oA w) + oImm w * 4#32)

/-! ### The multiply-accumulate unit (R240 to R242) -/

/-- A word's low `k` bits, signed or unsigned. -/
def extOf (unsigned : Bool) (k v : Nat) : Int := if unsigned then ((v % 2 ^ k : Nat) : Int) else sint k v

/-- One accumulator's step: the new value and whether it left the 48-bit range (R240). -/
def macStep (acc : Bool) (sub sat : Bool) (old : BitVec 48) (prod : Int) : BitVec 48 × Bool :=
  let base : Int := if acc then old.toInt else 0
  let t := if sub then base - prod else base + prod
  let ov := decide (t < -(2 ^ 47 : Int)) || decide ((2 ^ 47 : Int) - 1 < t)
  (BitVec.ofInt 48 (if sat then clampInt (-(2 ^ 47 : Int)) ((2 ^ 47 : Int) - 1) t else t), ov)

/-- The accumulators `k`, k + 1, … step with the operands given; `OV` bits land with the result (R240, R241). -/
def macAll (acc sub sat ux uw : Bool) (bw wv : Nat) : Nat → List Nat → Thrumas → BitVec 9 → Thrumas × BitVec 9
  | _, [], x, ov => (x, ov)
  | k, v :: r, x, ov =>
    let (a, o) := macStep acc sub sat (x.accOf k) (extOf ux bw v * extOf uw 16 wv)
    macAll acc sub sat ux uw bw wv (k + 1) r (x.setAcc k a) (if o then ov ||| BitVec.ofNat 9 (2 ^ k) else ov)

/-- `MAC4`, `MUL4`, `MAC2` and `MUL2` (R240). -/
def effMac (n slot : Nat) (w : W32) (acc pair : Bool) (s : State) : State :=
  let x := s.thr n
  let t := w.toNat
  let ra' := bitsOf t 18 13
  let a0 := (x.get ra').toNat
  let a1 := (x.get (ra' + 1)).toNat
  let b := (x.get (bitsOf t 12 7)).toNat
  let wv := if t.testBit 6 then b / 65536 else b % 65536
  let xs := if pair then [a0, a1] else [a0 % 65536, a0 / 65536, a1 % 65536, a1 / 65536]
  let k := if pair then 2 * bitsOf t 21 20 else 4 * bitsOf t 21 21
  let (y, ov) := macAll acc (t.testBit 5) (t.testBit 4) (t.testBit 3) (t.testBit 2) (if pair then 32 else 16) wv k xs x 0
  let u := s.setThr n y
  if ov = 0 then u else u.result n slot 3 (.accflag ov)

/-- `ACCRD`: the rounded, shifted and saturated accumulator, and whether it clamped (R242). -/
def accRead (v : BitVec 48) (sh : Nat) (rnd sat w16 : Bool) : W32 × Bool :=
  let v := v.toInt
  let v := if rnd ∧ 0 < sh then v + 2 ^ (sh - 1) else v
  let v := v / (2 ^ sh : Int)
  let m := if w16 then 16 else 32
  let hi : Int := 2 ^ (m - 1) - 1
  let out := decide (v < -hi - 1) || decide (hi < v)
  let r := if sat ∧ out then clampInt (-hi - 1) hi v else v
  (BitVec.ofInt 32 (sint m (ofInt m r)), sat && out)

/-- `ACCRD` (R242). -/
def effAccrd (n slot : Nat) (w : W32) (s : State) : State :=
  let t := w.toNat
  let (d, c) := accRead ((s.thr n).accOf (bitsOf t 15 13)) (bitsOf t 12 8) (t.testBit 7) (t.testBit 6) (t.testBit 5)
  let u := s.resultReg n slot 3 (oD w) d
  if c then u.result n slot 3 (.accflag 0x100#9) else u
/-- `ACCWR`: both forms (R242). -/
def effAccwr (n : Nat) (w : W32) (s : State) : State :=
  let x := s.thr n
  let t := w.toNat
  let k := bitsOf t 15 13
  let v := x.get (oD w)
  let new : BitVec 48 :=
    if t.testBit 4 then (x.accOf k &&& 0xFFFF00000000#48) ||| v.setWidth 48
    else BitVec.ofInt 48 v.toInt <<< bitsOf t 12 8
  s.setThr n (x.setAcc k new)
/-- `ACCCLR`: the accumulators of the mask (chapter 10). -/
def effAccclr (n : Nat) (w : W32) (s : State) : State :=
  s.setThr n ((List.range 8).foldl (fun x k => if w.toNat.testBit (8 + k) then x.setAcc k 0 else x) (s.thr n))
/-- `MULS`. -/
def effMuls (n slot : Nat) (w : W32) (s : State) : State :=
  let x := s.thr n
  s.resultReg n slot 3 (oD w) (x.get (oA w) * ((x.get (oB w)).setWidth 16).signExtend 32)

/-! ### Control (R239, R243, R244, R255) -/

/-- A taken branch, with its three delay slots to come (R239). -/
def effBranch (n : Nat) (w : W32) (reti : Bool) (s : State) : State :=
  let x := s.thr n
  match branchTarget x w with
  | none => s
  | some t => s.setThr n { x with branch := some { target := t, left := 4, reti := reti } }
/-- `CALL`: v31 = this bundle + 4, readable by the target. -/
def effCall (n slot : Nat) (w : W32) (s : State) : State :=
  let pc := (s.thr n).pc.toNat
  effBranch n w false (s.resultReg n slot 4 31 (BitVec.ofNat 32 ((pc + 4) % 16384)))
/-- `REP` (R243). -/
def effRep (n : Nat) (w : W32) (s : State) : State :=
  let x := s.thr n
  let r : Repeat := { start := (x.pc.toNat + 1) % 16384, len := oB w + 1, rot := w.toNat.testBit 3, ni := w.toNat.testBit 2
                      left := (x.get (oA w)).toNat % 65536 }
  s.setThr n { x with rep := some r }

/-- Status code of a ring access (R21). -/
def rstatCode : RStat → Nat
  | .ok => 0
  | .decode => 1
  | .timeout => 2
  | .refused => 3

/-- A special register as `MFS` reads it; `TICKLO` captures the tick (R255). -/
def State.specialRead (s : State) (n num : Nat) : W32 :=
  let x := s.thr n
  match num with
  | 0x00 => x.pred.setWidth 32 ||| 1
  | 0x01 => BitVec.ofNat 32 (x.turn + x.rsize * 256)
  | 0x02 => x.ctl
  | 0x03 => x.epc.setWidth 32
  | 0x04 => x.estat
  | 0x05 => BitVec.ofNat 32 s.tickN
  | 0x06 => x.tickHi
  | 0x07 => x.accflag.setWidth 32
  | 0x08 => x.xstat.setWidth 32
  | 0x09 => x.xerr.setWidth 32
  | 0x0A => x.xcfg
  | 0x0B => s.reg (aCORE_FLAG n)
  | 0x0C => x.rxbase.setWidth 32
  | 0x0D => x.rxwp.setWidth 32
  | 0x0E => x.rxrp.setWidth 32
  | 0x10 => BitVec.ofNat 32 n
  | 0x11 => x.ievt.setWidth 32
  | 0x12 => if n = 0 then x.raddr else 0#32
  | 0x13 => if n = 0 then x.rdata else 0#32
  | 0x14 => if n = 0 then BitVec.ofNat 32 (16 * s.ringCore.req.die + if s.ringCore.req.write then 1 else 0) else 0#32
  | 0x15 => if n = 0 then BitVec.ofNat 32 ((if s.ringCore.busy then 2147483648 else 0) + rstatCode s.ringCore.status) else 0#32
  | 0x16 => if s.bit aPAT_STATUS fPAT_STATUS_RUN then BitVec.ofNat 32 s.period else 0#32
  | 0x17 => x.erep.setWidth 32
  | 0x18 => x.ctxid.setWidth 32
  | _ => 0#32
/-- `MFS`. -/
def effMfs (n slot : Nat) (w : W32) (s : State) : State :=
  let t := s.resultReg n slot 1 (oD w) (s.specialRead n (oB w))
  if oB w = 5 then t.setThr n { t.thr n with tickHi := BitVec.ofNat 32 (s.tickN / 4294967296) } else t

/-! ### Scheduled sends (R246) -/

/-- First tick at or after u + 16 whose slot is s. -/
def sendTarget (u p slot : Nat) : Nat := u + 16 + (slot + p - (u + 16) % p) % p

/-- `SEND.AT a, b`: queued, or discarded with its flag. -/
def effSendAt (n : Nat) (w : W32) (s : State) : State :=
  let x := s.thr n
  let slot := (x.get (oB w)).toNat % 65536
  let p := s.period
  if !s.bit aPAT_STATUS fPAT_STATUS_RUN || decide (p ≤ slot) then s.coreFlag n fCORE_FLAG_SND_NORUN
  else
    let t := sendTarget s.tickN p slot
    if 16 ≤ x.sends.length then s.coreFlag n fCORE_FLAG_SND_OVF
    else if x.sends.any (fun e => e.1 == t) then s.coreFlag n fCORE_FLAG_SND_DUP
    else
      let a := (x.get (oA w)).toNat % 262144 / 32 * 32
      s.setThr n { x with sends := x.sends ++ [(t, BitVec.ofNat 256 (s.dmRead n a 32))] }

/-! ### External transfers (R248, R249) -/

/-- The transfer's request header: address, place in the line, byte count, tag, priority and urgency (R89). -/
def xferHdr (addr count tag pri : Nat) (write urgent : Bool) : BitVec 256 :=
  let start := addr % 256
  let h := hset (hset (hset 0 0 3 0 (if write then 1 else 0)) 0 5 4 pri) 0 31 22 tag
  let h := hset h 0 9 6 (if write then coverFlits start count else 0)
  let h := hset (hset h 4 31 0 addr) 5 31 0 (addr / 4294967296)
  hset (hset (hset h 6 7 0 start) 6 16 8 count) 6 20 20 (if urgent then 1 else 0)

/-- Set the bit of a tag. -/
def put16 (v : BitVec 16) (t : Nat) (b : Bool) : BitVec 16 :=
  if b then v ||| BitVec.ofNat 16 (2 ^ t) else v &&& ~~~(BitVec.ofNat 16 (2 ^ t))

/-- The transfer under a tag ends: `XSTAT`, and with a bad status `XERR` and `X_ERR` (R248). -/
def State.xferEnd (s : State) (n tag : Nat) (bad : Bool) : State :=
  let x := s.thr n
  let t := s.setThr n { x with xstat := put16 x.xstat tag true, xerr := put16 x.xerr tag bad
                               xfers := dropFirst (fun e => e.tag == tag) x.xfers }
  if bad then t.coreFlag n fCORE_FLAG_X_ERR else t

/-- `XRD` and `XWR`: the request waits at the core's hub NI. -/
def effXfer (n : Nat) (w : W32) (write : Bool) (s : State) : State :=
  let x := s.thr n
  let tag := oD w % 16
  let addr := (x.get (oA w)).toNat + 4294967296 * (x.get (oA w + 1)).toNat
  let b := (x.get (oB w)).toNat
  let count := bitsOf b 26 18 + 1
  let dm := bitsOf b 17 0
  let s := s.setThr n { x with xstat := put16 x.xstat tag false, xerr := put16 x.xerr tag false }
  if bitsOf b 31 27 ≠ 0 ∨ 256 < addr % 256 + count then s.xferEnd n tag true
  else
    let h := xferHdr addr count tag (bitsOf x.xcfg.toNat 1 0) write (w.getLsbD 0)
    let bytes := (List.range count).map (fun i => s.byte (dmBase n + (dm + i) % 262144))
    let p : Packet := { hdr := h, data := if write then lineFlits (addr % 256) bytes else [] }
    let y := s.thr n
    let s := s.setThr n { y with xfers := y.xfers ++ [{ tag := tag, write := write, dm := dm, count := count }] }
    let z := s.ni 6 (coreNi n)
    s.setNi 6 (coreNi n) { z with clientQ := z.clientQ ++ [{ pkt := p, master := 1 + n, origin := .core n tag }] }

/-- The transfer's tag is still outstanding: the core stalls (R237). -/
def State.tagBusy (s : State) (n : Nat) (w : W32) : Bool :=
  let x := s.thr n
  guardOn x w && x.xfers.any (fun e => e.tag == oD w % 16)

/-- The condition of a `WAIT` holds (R249); a value the pair a, a + 1 does not give is free. -/
def waitHolds (s : State) (n fn operand : Nat) : Bool :=
  match fn with
  | 0 => !(s.thr n).xfers.any (fun e => operand.testBit e.tag)
  | 1 => false
  | _ => decide (operand ≤ s.tickN)

/-! ### The operations -/

/-- `NOP`. -/
def execNop (c : Fin 8) (slot : Fin 4) (w : W32) (s : State) : Host.Outcome State Fault Refusal :=
  coreOp 0x00 c slot w (id) s
/-- `ADD`. -/
def execAddOp (c : Fin 8) (slot : Fin 4) (w : W32) (s : State) : Host.Outcome State Fault Refusal :=
  coreOp 0x01 c slot w (effR c.val slot.val w (addFn (w.getLsbD 0))) s
/-- `SUB`. -/
def execSubOp (c : Fin 8) (slot : Fin 4) (w : W32) (s : State) : Host.Outcome State Fault Refusal :=
  coreOp 0x02 c slot w (effR c.val slot.val w (subFn (w.getLsbD 0))) s
/-- `AND`. -/
def execAndOp (c : Fin 8) (slot : Fin 4) (w : W32) (s : State) : Host.Outcome State Fault Refusal :=
  coreOp 0x03 c slot w (effR c.val slot.val w (· &&& ·)) s
/-- `OR`. -/
def execOrOp (c : Fin 8) (slot : Fin 4) (w : W32) (s : State) : Host.Outcome State Fault Refusal :=
  coreOp 0x04 c slot w (effR c.val slot.val w (· ||| ·)) s
/-- `XOR`. -/
def execXorOp (c : Fin 8) (slot : Fin 4) (w : W32) (s : State) : Host.Outcome State Fault Refusal :=
  coreOp 0x05 c slot w (effR c.val slot.val w (· ^^^ ·)) s
/-- `SHL`. -/
def execShl (c : Fin 8) (slot : Fin 4) (w : W32) (s : State) : Host.Outcome State Fault Refusal :=
  coreOp 0x06 c slot w (effR c.val slot.val w (fun a b => a <<< (b.toNat % 32))) s
/-- `SHR`. -/
def execShr (c : Fin 8) (slot : Fin 4) (w : W32) (s : State) : Host.Outcome State Fault Refusal :=
  coreOp 0x07 c slot w (effR c.val slot.val w (fun a b => a >>> (b.toNat % 32))) s
/-- `SRA`. -/
def execSra (c : Fin 8) (slot : Fin 4) (w : W32) (s : State) : Host.Outcome State Fault Refusal :=
  coreOp 0x08 c slot w (effR c.val slot.val w (fun a b => a.sshiftRight (b.toNat % 32))) s
/-- `MIN`. -/
def execMinOp (c : Fin 8) (slot : Fin 4) (w : W32) (s : State) : Host.Outcome State Fault Refusal :=
  coreOp 0x09 c slot w (effR c.val slot.val w (fun a b => if a.toInt ≤ b.toInt then a else b)) s
/-- `MAX`. -/
def execMaxOp (c : Fin 8) (slot : Fin 4) (w : W32) (s : State) : Host.Outcome State Fault Refusal :=
  coreOp 0x0A c slot w (effR c.val slot.val w (fun a b => if a.toInt ≤ b.toInt then b else a)) s
/-- `ADDI`. -/
def execAddi (c : Fin 8) (slot : Fin 4) (w : W32) (s : State) : Host.Outcome State Fault Refusal :=
  coreOp 0x0B c slot w (effI c.val slot.val w (· + ·)) s
/-- `SHLI`. -/
def execShli (c : Fin 8) (slot : Fin 4) (w : W32) (s : State) : Host.Outcome State Fault Refusal :=
  coreOp 0x0C c slot w (effI c.val slot.val w (fun a b => a <<< (b.toNat % 32))) s
/-- `SHRI`. -/
def execShri (c : Fin 8) (slot : Fin 4) (w : W32) (s : State) : Host.Outcome State Fault Refusal :=
  coreOp 0x0D c slot w (effI c.val slot.val w (fun a b => a >>> (b.toNat % 32))) s
/-- `SRAI`. -/
def execSrai (c : Fin 8) (slot : Fin 4) (w : W32) (s : State) : Host.Outcome State Fault Refusal :=
  coreOp 0x0E c slot w (effI c.val slot.val w (fun a b => a.sshiftRight (b.toNat % 32))) s
/-- `MOVI`: imm16 sign-extended. -/
def execMovi (c : Fin 8) (slot : Fin 4) (w : W32) (s : State) : Host.Outcome State Fault Refusal :=
  coreOp 0x0F c slot w (fun t => t.resultReg c.val slot.val 1 (oD w) ((w.setWidth 16).signExtend 32)) s
/-- `MOVHI`: imm16 above the old low half. -/
def execMovhi (c : Fin 8) (slot : Fin 4) (w : W32) (s : State) : Host.Outcome State Fault Refusal :=
  coreOp 0x10 c slot w (fun t => t.resultReg c.val slot.val 1 (oD w) (w <<< 16 ||| ((t.thr c.val).get (oD w) &&& 0xFFFF#32))) s
/-- `CMP`. -/
def execCmp (c : Fin 8) (slot : Fin 4) (w : W32) (s : State) : Host.Outcome State Fault Refusal :=
  coreOp 0x11 c slot w (fun t => effC c.val slot.val w ((t.thr c.val).get (oB w)) t) s
/-- `CMPI`. -/
def execCmpi (c : Fin 8) (slot : Fin 4) (w : W32) (s : State) : Host.Outcome State Fault Refusal :=
  coreOp 0x12 c slot w (effC c.val slot.val w (oImm w)) s
/-- `SEL`: a where the predicate of `FN`[2:0] holds, else b. -/
def execSel (c : Fin 8) (slot : Fin 4) (w : W32) (s : State) : Host.Outcome State Fault Refusal :=
  coreOp 0x13 c slot w (fun t => effR c.val slot.val w (fun a b => if (t.thr c.val).getP (oFn w % 8) then a else b) t) s
/-- `LDW` (R238). -/
def execLdw (c : Fin 8) (slot : Fin 4) (w : W32) (s : State) : Host.Outcome State Fault Refusal :=
  coreOp 0x14 c slot w (fun t => effLoad c.val slot.val 4 false (immAddr (t.thr c.val) 4 w) w t) s
/-- `LDH`. -/
def execLdh (c : Fin 8) (slot : Fin 4) (w : W32) (s : State) : Host.Outcome State Fault Refusal :=
  coreOp 0x15 c slot w (fun t => effLoad c.val slot.val 2 true (immAddr (t.thr c.val) 2 w) w t) s
/-- `LDHU`. -/
def execLdhu (c : Fin 8) (slot : Fin 4) (w : W32) (s : State) : Host.Outcome State Fault Refusal :=
  coreOp 0x16 c slot w (fun t => effLoad c.val slot.val 2 false (immAddr (t.thr c.val) 2 w) w t) s
/-- `LDB`. -/
def execLdb (c : Fin 8) (slot : Fin 4) (w : W32) (s : State) : Host.Outcome State Fault Refusal :=
  coreOp 0x17 c slot w (fun t => effLoad c.val slot.val 1 true (immAddr (t.thr c.val) 1 w) w t) s
/-- `STW` (R238). -/
def execStw (c : Fin 8) (slot : Fin 4) (w : W32) (s : State) : Host.Outcome State Fault Refusal :=
  coreOp 0x18 c slot w (fun t => effStore c.val slot.val 4 (immAddr (t.thr c.val) 4 w) ((t.thr c.val).get (oD w)) t) s
/-- `STH`. -/
def execSth (c : Fin 8) (slot : Fin 4) (w : W32) (s : State) : Host.Outcome State Fault Refusal :=
  coreOp 0x19 c slot w (fun t => effStore c.val slot.val 2 (immAddr (t.thr c.val) 2 w) ((t.thr c.val).get (oD w)) t) s
/-- `STB`. -/
def execStb (c : Fin 8) (slot : Fin 4) (w : W32) (s : State) : Host.Outcome State Fault Refusal :=
  coreOp 0x1A c slot w (fun t => effStore c.val slot.val 1 (immAddr (t.thr c.val) 1 w) ((t.thr c.val).get (oD w)) t) s
/-- `LDR`: as `LDW`, and sets the reservation (R250). -/
def execLdr (c : Fin 8) (slot : Fin 4) (w : W32) (s : State) : Host.Outcome State Fault Refusal :=
  coreOp 0x1B c slot w (fun t =>
    let a := immAddr (t.thr c.val) 4 w
    let u := effLoad c.val slot.val 4 false a w t
    u.setThr c.val { u.thr c.val with resv := some a }) s
/-- `LDWP`: the word at a, then a + 4 × imm10. -/
def execLdwp (c : Fin 8) (slot : Fin 4) (w : W32) (s : State) : Host.Outcome State Fault Refusal :=
  coreOp 0x1C c slot w (fun t => effPost c.val slot.val w (effLoad c.val slot.val 4 false (dmAddr 4 ((t.thr c.val).get (oA w)) 0) w t)) s
/-- `STWP`: the word stored at a, then a + 4 × imm10. -/
def execStwp (c : Fin 8) (slot : Fin 4) (w : W32) (s : State) : Host.Outcome State Fault Refusal :=
  coreOp 0x1D c slot w (fun t => effPost c.val slot.val w (effStore c.val slot.val 4 (dmAddr 4 ((t.thr c.val).get (oA w)) 0) ((t.thr c.val).get (oD w)) t)) s
/-- `STC`: stores b at a only while the reservation is valid, clears it, and reports in d (R250). -/
def execStc (c : Fin 8) (slot : Fin 4) (w : W32) (s : State) : Host.Outcome State Fault Refusal :=
  coreOp 0x1E c slot w (fun t =>
    let x := t.thr c.val
    let u := t.resultReg c.val slot.val 4 (oD w) (if x.resv.isSome then 0#32 else 1#32)
    let u := if x.resv.isSome then effStore c.val slot.val 4 (dmAddr 4 (x.get (oA w)) 0) (x.get (oB w)) u else u
    u.setThr c.val { u.thr c.val with resv := none }) s
/-- `MAC4` (R240). -/
def execMac4 (c : Fin 8) (slot : Fin 4) (w : W32) (s : State) : Host.Outcome State Fault Refusal :=
  coreOp 0x20 c slot w (effMac c.val slot.val w true false) s
/-- `MUL4` (R240). -/
def execMul4 (c : Fin 8) (slot : Fin 4) (w : W32) (s : State) : Host.Outcome State Fault Refusal :=
  coreOp 0x21 c slot w (effMac c.val slot.val w false false) s
/-- `MAC2` (R240). -/
def execMac2 (c : Fin 8) (slot : Fin 4) (w : W32) (s : State) : Host.Outcome State Fault Refusal :=
  coreOp 0x22 c slot w (effMac c.val slot.val w true true) s
/-- `MUL2` (R240). -/
def execMul2 (c : Fin 8) (slot : Fin 4) (w : W32) (s : State) : Host.Outcome State Fault Refusal :=
  coreOp 0x23 c slot w (effMac c.val slot.val w false true) s
/-- `ACCRD` (R242). -/
def execAccrd (c : Fin 8) (slot : Fin 4) (w : W32) (s : State) : Host.Outcome State Fault Refusal :=
  coreOp 0x24 c slot w (effAccrd c.val slot.val w) s
/-- `ACCWR` (R242). -/
def execAccwr (c : Fin 8) (slot : Fin 4) (w : W32) (s : State) : Host.Outcome State Fault Refusal :=
  coreOp 0x25 c slot w (effAccwr c.val w) s
/-- `ACCCLR`. -/
def execAccclr (c : Fin 8) (slot : Fin 4) (w : W32) (s : State) : Host.Outcome State Fault Refusal :=
  coreOp 0x26 c slot w (effAccclr c.val w) s
/-- `MULS`. -/
def execMuls (c : Fin 8) (slot : Fin 4) (w : W32) (s : State) : Host.Outcome State Fault Refusal :=
  coreOp 0x27 c slot w (effMuls c.val slot.val w) s
/-- `BR` (R239). -/
def execBrOp (c : Fin 8) (slot : Fin 4) (w : W32) (s : State) : Host.Outcome State Fault Refusal :=
  coreOp 0x30 c slot w (effBranch c.val w false) s
/-- `BRI` (R239). -/
def execBri (c : Fin 8) (slot : Fin 4) (w : W32) (s : State) : Host.Outcome State Fault Refusal :=
  coreOp 0x31 c slot w (effBranch c.val w false) s
/-- `CALL` (R239). -/
def execCallOp (c : Fin 8) (slot : Fin 4) (w : W32) (s : State) : Host.Outcome State Fault Refusal :=
  coreOp 0x32 c slot w (effCall c.val slot.val w) s
/-- `REP` (R243). -/
def execRepOp (c : Fin 8) (slot : Fin 4) (w : W32) (s : State) : Host.Outcome State Fault Refusal :=
  coreOp 0x33 c slot w (effRep c.val w) s
/-- `ROT` (R234, R243). -/
def execRotOp (c : Fin 8) (slot : Fin 4) (w : W32) (s : State) : Host.Outcome State Fault Refusal :=
  coreOp 0x34 c slot w (fun t => t.result c.val slot.val 1 .rot) s
/-- `RETI` (R244). -/
def execReti (c : Fin 8) (slot : Fin 4) (w : W32) (s : State) : Host.Outcome State Fault Refusal :=
  coreOp 0x35 c slot w (effBranch c.val w true) s
/-- `MTS` (R255). -/
def execMts (c : Fin 8) (slot : Fin 4) (w : W32) (s : State) : Host.Outcome State Fault Refusal :=
  coreOp 0x36 c slot w (fun t => t.result c.val slot.val 1 (.special (oB w) ((t.thr c.val).get (oA w)))) s
/-- `MFS` (R255). -/
def execMfs (c : Fin 8) (slot : Fin 4) (w : W32) (s : State) : Host.Outcome State Fault Refusal :=
  coreOp 0x37 c slot w (effMfs c.val slot.val w) s
/-- `SEND.AT` (R246). -/
def execSendAt (c : Fin 8) (slot : Fin 4) (w : W32) (s : State) : Host.Outcome State Fault Refusal :=
  coreOp 0x38 c slot w (effSendAt c.val w) s
/-- `XRD`; it stalls while its tag is outstanding (R237, R248). -/
def execXrd (c : Fin 8) (slot : Fin 4) (w : W32) (s : State) : Host.Outcome State Fault Refusal :=
  if s.tagBusy c.val w then .next s else coreOp 0x39 c slot w (effXfer c.val w false) s
/-- `XWR`; it stalls while its tag is outstanding (R237, R248). -/
def execXwr (c : Fin 8) (slot : Fin 4) (w : W32) (s : State) : Host.Outcome State Fault Refusal :=
  if s.tagBusy c.val w then .next s else coreOp 0x3A c slot w (effXfer c.val w true) s

/-- The operand a `WAIT` keeps: the tags of a[15:0], or the tick of the pair a, a + 1; there is no register 64. -/
def waitOperand (n : Nat) (w : W32) (s : State) : Nat × State :=
  let x := s.thr n
  if oFn w = 0 then ((x.get (oA w)).toNat % 65536, s)
  else if oA w = 63 then
    let (hi, t) := s.fresh 32
    ((x.get 63).toNat + 4294967296 * hi.toNat, t)
  else ((x.get (oA w)).toNat + 4294967296 * (x.get (oA w + 1)).toNat, s)

/-- `WAIT` (R249): the core stands at it until its condition holds, an interrupt is taken, or it stops. Its slot is the first of its bundle
to issue (log entry 71). -/
def execWaitOp (c : Fin 8) (slot : Fin 4) (w : W32) (s : State) : Host.Outcome State Fault Refusal :=
  let n := c.val
  if s.issues n slot.val 0x3B w then
    if guardOn (s.thr n) w then
      if (s.thr n).issued ≠ 0 then .next s else
      let (v, t) := waitOperand n w s
      .next ((t.setThr n { t.thr n with wait := some (oFn w, v) }).setCoreState n 2)
    else .next (s.slotDone n slot.val)
  else .next s

/-- The condition of the `WAIT` that core c stands at holds: the bundle issues (R249). -/
def execWaitConditionMet (c : Fin 8) (s : State) : Host.Outcome State Fault Refusal :=
  let n := c.val
  let x := s.thr n
  match x.wait with
  | some (fn, v) =>
    if s.coreLive n && s.coreState n == 2 && waitHolds s n fn v then
      .next (((s.setThr n { x with wait := none }).setCoreState n 1).slotDone n 3)
    else .next s
  | none => .next s

/-- `SEV`: event 64 + 8n + 5 (R256). -/
def execSev (c : Fin 8) (slot : Fin 4) (w : W32) (s : State) : Host.Outcome State Fault Refusal :=
  coreOp 0x3C c slot w (fun t => t.raise (coreEvent c.val 5)) s
/-- `BKPT`: a debug halt is asked for while `EN` is 1, else nothing (R388); it is taken at the next boundary (R389). -/
def execBkpt (c : Fin 8) (slot : Fin 4) (w : W32) (s : State) : Host.Outcome State Fault Refusal :=
  let n := c.val
  let x := s.thr n
  if s.issues n slot.val 0x3D w && guardOn x w && s.bit (aDBG_CORE_CTRL n) fDBG_CORE_CTRL_EN && x.haltReason.isNone then
    .next (((s.setThr n { x with haltReason := some 5, haltAt := s.now }).setBit (aDBG_CORE_STAT n)
      fDBG_CORE_STAT_PENDING true).slotDone n slot.val)
  else coreOp 0x3D c slot w id s

end Sys2Proof.Machine
end

