-- ==== Sys2Proof/Machine/ThrumasCtl.lean ====
section
/-! DEFINITION. What happens to a Thrumas core from outside its bundles: interrupts (R244), completed transfers (R248), the receive ring
(R247), the watchdog (R251), reset and run control (R253), its memories on the ring, and the boot ROM's branch (R254). -/

namespace Sys2Proof.Machine

/-! ### Interrupts (R244, R382) -/

/-- An interrupt may be taken at this boundary (R244, R390, R392). -/
def State.mayInterrupt (s : State) (n level : Nat) : Bool :=
  let x := s.thr n
  x.ctl.getLsbD 0 && decide (bitsOf x.ctl.toNat 3 1 ≤ level) && boundaryFree x && x.watch.isNone &&
    !(x.haltReason.isSome && x.resv.isNone) && (!x.stepping || s.bit (aDBG_CORE_CTRL n) fDBG_CORE_CTRL_STEP_IE)

/-- `ESTAT` of a core: its repeat and `TURN` (R244, R255). -/
def estatOf (x : Thrumas) : W32 :=
  BitVec.ofNat 32 (x.turn + match x.rep with
    | none => 0
    | some r => 2 ^ 31 + (if r.rot then 2 ^ 30 else 0) + (if r.ni then 2 ^ 29 else 0) + 2 ^ 23 * (r.len - 1) + 2 ^ 9 * r.start)

/-- Core n takes the interrupt of an event at a level (R244). -/
def State.takeInterrupt (s : State) (n level e : Nat) : State :=
  let t := s.drain n
  let x := t.thr n
  let pc := (x.ctl.toNat / 2 ^ 18 + 4 * level) % 16384
  let y : Thrumas :=
    { x with resv := none, epc := x.pc, estat := estatOf x
             erep := match x.rep with
               | none => 0
               | some r => BitVec.ofNat 16 r.left
             ievt := BitVec.ofNat 11 e, ctl := x.ctl &&& ~~~1#32, rep := none, wait := none, pc := BitVec.ofNat 14 pc }
  ((t.setThr n y).setCoreState n 1).setPending n e false

/-- Core c takes the interrupt presented to it (R244). -/
def execInterruptTake (c : Fin 8) (s : State) : Host.Outcome State Fault Refusal :=
  let n := c.val
  match s.presented n with
  | some (level, e) =>
    if s.coreLive n && (s.coreState n == 1 || s.coreState n == 2) && s.mayInterrupt n level then
      .next (s.takeInterrupt n level e)
    else .next s
  | none => .next s

/-! ### Scratchpad writes from the crossbar -/

/-- A crossbar writer stores bytes in a scratchpad, wrapping at its end; a store to the reserved word clears the reservation
(R250). -/
def State.dmWrite (s : State) (n : Nat) (a : Nat) : List Byte → State
  | [] => s
  | b :: r =>
    let x := s.thr n
    let p := a % 262144
    let t := s.setThr n { x with resv := if storeHits x.resv p 1 then none else x.resv }
    (t.setByte (dmBase n + p) b).dmWrite n (a + 1) r

/-- The response of an external transfer of core c arrives (R248); read data reaches DM only on OK. -/
def execXferComplete (c : Fin 8) (tag : Fin 16) (s : State) : Host.Outcome State Fault Refusal :=
  let n := c.val
  match s.rsps.find? (fun r => r.origin == .core n tag.val) with
  | none => .next s
  | some r =>
    let t := { s with rsps := s.rsps.erase r }
    match (s.thr n).xfers.find? (fun e => e.tag == tag.val) with
    | none => .next t
    | some e =>
      let t := if !e.write ∧ r.status = 0 then t.dmWrite n e.dm (r.data.take e.count) else t
      .next (t.xferEnd n tag.val (r.status != 0))

/-! ### Receive ring (R247) -/

/-- The 64 bytes of a receive-ring entry. -/
def ringEntry (e : Egr) : List Byte :=
  natLe 32 (if e.flit.valid then e.flit.payload.toNat else 0) ++
  natLe 2 (e.flit.flow % 4096 + (if e.flit.valid then 0 else e.flit.cause % 16 * 4096)) ++
  natLe 1 (e.tag % 4 + (if e.flit.valid then 128 else 0)) ++ [0#8] ++ natLe 4 e.tick.toNat ++ List.replicate 24 0#8

/-- The oldest flit or marker at the egress of core c's hub NI is written into its receive ring, or discarded (R247). -/
def execRxRingWrite (c : Fin 8) (s : State) : Host.Outcome State Fault Refusal :=
  let n := c.val
  let y := s.ni 6 (coreNi n)
  match y.egress with
  | [] => .next s
  | e :: rest =>
    if !s.hubRuns then .next s
    else
      let x := s.thr n
      let t := s.setNi 6 (coreNi n) { y with egress := rest }
      if (x.rxwp - x.rxrp).toNat = 64 then .next (t.coreFlag n fCORE_FLAG_RX_OVF)
      else
        let t := t.dmWrite n (4096 * x.rxbase.toNat + 64 * (x.rxwp.toNat % 64)) (ringEntry e)
        let t := t.setThr n { t.thr n with rxwp := x.rxwp + 1 }
        .next (if x.xcfg.getLsbD 4 then t.raise (coreEvent n 3) else t)

/-! ### Core reset (R253, R402) -/

/-- Core n abandons its outstanding transfers; the hub NI discards their responses (R253). -/
def State.abandonXfers (s : State) (n : Nat) : State :=
  s.disown (coreNi n) (fun o => match o with
    | .core k _ => k == n
    | _ => false)

/-- Set a bit of `DBG_LOST`; event 1,930 when it goes from 0 to 1 (R402). -/
def State.dbgLost (s : State) (i : Nat) : State := s.flagRaise aDBG_LOST ⟨i, 1⟩ 1930

/-- The halt, step and comparator state of core n that a reset or a power-off tears down (R402). -/
def State.tearDown (s : State) (n : Nat) : State :=
  let x := s.thr n
  let s := s.setThr n { x with haltReason := none, stepping := false, skipBp := false, watch := none, wasStopped := false }
  let s := (s.setBit (aDBG_CORE_STAT n) fDBG_CORE_STAT_HALTED false).setBit (aDBG_CORE_STAT n) fDBG_CORE_STAT_PENDING false
  let s := s.setFld (aBP_CFG n) fBP_CFG_EN 0
  (List.range 4).foldl (fun t j => t.setBit (aWP_CTL n j) fWP_CTL_EN false) s

/-- The registers of core n as a reset leaves them, at `CORE_CTRL.ENTRY` (R253). -/
def State.zeroCore (s : State) (n : Nat) : State :=
  let entry := s.fld (aCORE_CTRL n) fCORE_CTRL_ENTRY
  let s := (s.abandonXfers n).setThr n
    { Thrumas.empty with ctl := BitVec.ofNat 32 (2 ^ 18 * entry), pc := BitVec.ofNat 14 entry }
  let s := (s.setReg (aCORE_FLAG n) 0).setFld (aCORE_STATUS n) fCORE_STATUS_FCAUSE 0
  s.setCoreState n (if s.bit (aCORE_CTRL n) fCORE_CTRL_RUN then 1 else 0)

/-- Core n resets (R253, R402). -/
def State.coreReset (s : State) (n : Nat) : State :=
  let s := ((s.tearDown n).zeroCore n).dbgLost (8 + n)
  if s.bit (aDBG_CORE_CTRL n) fDBG_CORE_CTRL_CATCH then
    let x := s.thr n
    (s.setThr n { x with haltReason := some 7, haltAt := s.now }).setBit (aDBG_CORE_STAT n) fDBG_CORE_STAT_PENDING true
  else s

/-- A write of `CORE_CTRL` (R253). -/
def coreCtrlWrite (n : Nat) (v : W32) (s : State) : Answer :=
  let t := s.plainWrite (aCORE_CTRL n) v
  if getB v fCORE_CTRL_RST then wrote (t.coreReset n)
  else
    let x := t.thr n
    let st := t.coreState n
    if getB v fCORE_CTRL_RUN then
      let t := t.setThr n { x with stopAsked := false, wasStopped := false }
      wrote (if st = 0 then t.setCoreState n 1 else t)
    else if st = 1 ∨ st = 2 then
      wrote (if boundaryFree x then t.stopCore n else t.setThr n { x with stopAsked := true })
    else if st = 3 then wrote (t.setThr n { x with stopAsked := true })
    else wrote t

/-- `CORE_CTRL.RST` = 1 written by master m, `ENTRY` and `RUN` kept. -/
def execCoreReset (m : Rm) (c : Fin 8) (s : State) : Host.Outcome State Fault Refusal :=
  let v := putF (s.reg (aCORE_CTRL c.val)) fCORE_CTRL_RST 1
  .next (ringPut m (aCORE_CTRL c.val) v (coreCtrlWrite c.val v) s)
/-- `CORE_CTRL.RUN` written by master m, `ENTRY` kept. -/
def execCoreRunWrite (m : Rm) (c : Fin 8) (run : Bool) (s : State) : Host.Outcome State Fault Refusal :=
  let v := putF (putF (s.reg (aCORE_CTRL c.val)) fCORE_CTRL_RST 0) fCORE_CTRL_RUN (if run then 1 else 0)
  .next (ringPut m (aCORE_CTRL c.val) v (coreCtrlWrite c.val v) s)

/-! ### Watchdog (R251, R399) -/

/-- The watchdog of core n acts (R251, R399). -/
def State.watchdogAct (s : State) (n : Nat) : State :=
  let x := s.thr n
  let s := s.setThr n { x with badKey := false }
  let s := ((s.setBit (aWD_CTRL n) fWD_CTRL_EXPIRED true).setReg (aWD_CNT n) (s.reg (aWD_LOAD n))).raise (coreEvent n 0)
  match s.fld (aWD_CTRL n) fWD_CTRL_ACT with
  | 1 => if s.coreState n = 4 then s else s.coreFault n 5
  | 2 => s.coreReset n
  | _ => s

/-- `WD_CNT` of core c is zero, or a wrong key was written (R251). -/
def execWatchdogExpiry (c : Fin 8) (s : State) : Host.Outcome State Fault Refusal :=
  let n := c.val
  if s.coreLive n && s.bit (aWD_CTRL n) fWD_CTRL_EN && (s.reg (aWD_CNT n) == 0#32 || (s.thr n).badKey) then
    .next (s.watchdogAct n)
  else .next s

/-- The watchdog of core n counts down by `k` core cycles, but not while it is frozen (R251). -/
def State.watchdogTick (s : State) (n k : Nat) : State :=
  let frozen := s.coreState n == 3 && s.bit (aWD_CTRL n) fWD_CTRL_FRZ
  if s.coreLive n && s.bit (aWD_CTRL n) fWD_CTRL_EN && !frozen then
    s.setReg (aWD_CNT n) (BitVec.ofNat 32 ((s.reg (aWD_CNT n)).toNat - k))
  else s

/-! ### Memories on the ring (`IM_*`, `DM_*`) -/

/-- The bundle index exists in core n: its instruction memory, or the boot ROM of core 0. -/
def imExists (n i : Nat) : Bool := decide (i < 8192) || inRom n i

/-- `INDEX` moves after an access of `IM_DATA_3` while `AINC` is 1. -/
def State.imAdvance (s : State) (n : Nat) : State :=
  if s.bit (aIM_ADDR n) fIM_ADDR_AINC then
    s.setFld (aIM_ADDR n) fIM_ADDR_INDEX (s.fld (aIM_ADDR n) fIM_ADDR_INDEX + 1)
  else s

/-- A write of `IM_DATA_3` stores the bundle; the boot ROM refuses it. -/
def imDataWrite (n : Nat) (v : W32) (s : State) : Answer :=
  let i := s.fld (aIM_ADDR n) fIM_ADDR_INDEX
  if inRom n i then refuse s
  else
    let words := [s.reg (aIM_DATA_0 n), s.reg (aIM_DATA_1 n), s.reg (aIM_DATA_2 n), v]
    let t := if i < 8192 then s.setBytes (imBase n + 16 * i) (words.flatMap (fun w => natLe 4 w.toNat)) else s
    wrote (t.imAdvance n)

/-- A read of `IM_DATA_k`: the slot of the bundle at `INDEX`; what the ROM holds, and what stands at an index that does not
exist, is free. -/
def imDataRead (n k : Nat) (s : State) : Answer :=
  let i := s.fld (aIM_ADDR n) fIM_ADDR_INDEX
  let (v, t) := if i < 8192 then (s.imSlot n i k, s) else s.fresh 32
  (if k = 3 then t.imAdvance n else t, .ok, v)

/-- `IM_DATA_3` of core c written by master m. -/
def execImDataWrite (m : Rm) (c : Fin 8) (v : W32) (s : State) : Host.Outcome State Fault Refusal :=
  .next (ringPut m (aIM_DATA_3 c.val) v (imDataWrite c.val v) s)

/-- `WORD` moves after an access of `DM_DATA` while `AINC` is 1. -/
def State.dmAdvance (s : State) (n : Nat) : State :=
  if s.bit (aDM_ADDR n) fDM_ADDR_AINC then
    s.setFld (aDM_ADDR n) fDM_ADDR_WORD (s.fld (aDM_ADDR n) fDM_ADDR_WORD + 1)
  else s
/-- A write of `DM_DATA`: a crossbar write of the scratchpad word. -/
def dmDataWrite (n : Nat) (v : W32) (s : State) : Answer :=
  wrote ((s.dmWrite n (4 * s.fld (aDM_ADDR n) fDM_ADDR_WORD) (natLe 4 v.toNat)).dmAdvance n)
/-- A read of `DM_DATA`. -/
def dmDataRead (n : Nat) (s : State) : Answer :=
  (s.dmAdvance n, .ok, BitVec.ofNat 32 (s.dmRead n (4 * s.fld (aDM_ADDR n) fDM_ADDR_WORD) 4))

/-- A ring access of `DM_DATA` of core c by master m: a write of v, or a read. -/
def execDmDataAccess (m : Rm) (c : Fin 8) (v : Option W32) (s : State) : Host.Outcome State Fault Refusal :=
  match v with
  | some v => .next (ringPut m (aDM_DATA c.val) v (dmDataWrite c.val v) s)
  | none =>
    .next (ringDo m { die := 6, block := 0x10 + c.val, off := 0x34, write := false, data := 0#32 } (dmDataRead c.val) s)

/-! ### Boot (R254) -/

/-- The boot ROM sees `BOOT_MBOX.GO` and branches to `ENTRY` (R254). -/
def execBootGo (s : State) : Host.Outcome State Fault Refusal :=
  let x := s.thr 0
  if s.coreLive 0 && s.coreState 0 == 1 && inRom 0 x.pc.toNat && s.bit aBOOT_MBOX fBOOT_MBOX_GO then
    let t := s.drain 0
    let y := t.thr 0
    .next (t.setThr 0 { y with pc := BitVec.ofNat 14 (s.fld aBOOT_MBOX fBOOT_MBOX_ENTRY), issued := 0, branch := none, rep := none })
  else .next s

end Sys2Proof.Machine
end

