-- ==== Sys2Proof/Machine/Debug.lean ====
section
/-! DEFINITION. Run control and debug: halts, steps and resumes (R388 to R393), breakpoints and data watches (R395 to R397), a halted
core's state (R394), the virtual terminal (R401) and who may write block 0x0400 (R404). -/

namespace Sys2Proof.Machine

/-! ### Halts (R388 to R393) -/

/-- A halt of core n is requested; a faulted or halted core, and one already asked, ignore it (R389). -/
def State.requestHalt (s : State) (n reason : Nat) : State :=
  let x := s.thr n
  let st := s.coreState n
  if st = 3 ∨ st = 4 ∨ x.haltReason.isSome then s
  else
    (s.setThr n { x with haltReason := some reason, haltAt := s.now }).setBit (aDBG_CORE_STAT n) fDBG_CORE_STAT_PENDING true

/-- Every other running core of core n's halt group receives a halt request (R393). -/
def State.haltGroup (s : State) (n : Nat) : State :=
  let g := s.fld aDBG_CTRL fDBG_CTRL_GROUP
  if g.testBit n then
    (List.range 8).foldl (fun t k =>
      if k ≠ n ∧ g.testBit k ∧ (t.coreState k = 1 ∨ t.coreState k = 2) then t.requestHalt k 6 else t) s
  else s

/-- Core n halts with a reason (R389). -/
def State.haltCore (s : State) (n reason : Nat) : State :=
  let before := s.coreState n
  let t := s.drain n
  let x := t.thr n
  let t := t.setThr n { x with haltReason := none, stepping := false, wait := none, watch := none
                               wasStopped := if reason = 2 then x.wasStopped else before == 0 }
  let a := aDBG_CORE_STAT n
  let t := ((t.setFld a fDBG_CORE_STAT_REASON reason).setBit a fDBG_CORE_STAT_PENDING false).setBit a fDBG_CORE_STAT_HALTED true
  let t := ((t.setFld a fDBG_CORE_STAT_PC x.pc.toNat).setCoreState n 3).raise (1920 + n)
  if reason = 6 then t else t.haltGroup n

/-- A halt asked for is taken at a boundary that nothing holds off (R389). -/
def execHaltTaken (c : Fin 8) (s : State) : Host.Outcome State Fault Refusal :=
  let n := c.val
  let x := s.thr n
  match x.haltReason with
  | some r =>
    if s.coreLive n && decide (s.coreState n ≤ 2) && boundaryFree x && x.resv.isNone then .next (s.haltCore n r)
    else .next s
  | none => .next s

/-- Ticks of 256 core cycles (R389): the core runs at four cycles in five ticks. -/
def deferTicks : Nat := 320

/-- A reservation has deferred a halt of core c for 256 core cycles (R250, R389). -/
def execHaltDeferExpiry (c : Fin 8) (s : State) : Host.Outcome State Fault Refusal :=
  let n := c.val
  let x := s.thr n
  if s.coreLive n && x.haltReason.isSome && x.resv.isSome && decide (x.haltAt + deferTicks ≤ s.now) then
    .next ((s.setThr n { x with resv := none }).setBit (aDBG_CORE_STAT n) fDBG_CORE_STAT_FORCED true)
  else .next s

/-- A halted core is released: its watchdog continues from the held count plus 1,024 (R251). -/
def State.releaseCore (s : State) (n : Nat) (step : Bool) : State :=
  if s.coreState n ≠ 3 then s
  else
    let x := s.thr n
    let t := s.setThr n { x with stepping := step, skipBp := true, haltReason := none }
    let t := (t.setBit (aDBG_CORE_STAT n) fDBG_CORE_STAT_HALTED false).setCoreState n (if x.wasStopped && !step then 0 else 1)
    if s.bit (aWD_CTRL n) fWD_CTRL_EN && s.bit (aWD_CTRL n) fWD_CTRL_FRZ then
      t.setReg (aWD_CNT n) (BitVec.ofNat 32 (min 4294967295 ((s.reg (aWD_CNT n)).toNat + 1024)))
    else t

/-- A write of `DBG_RUNCTL` (R392): a bit set in more than one mask acts as `HALT` only. -/
def runctlWrite (v : W32) (s : State) : Answer :=
  let h := getF v fDBG_RUNCTL_HALT
  let r := getF v fDBG_RUNCTL_RESUME
  let p := getF v fDBG_RUNCTL_STEP
  wrote ((List.range 8).foldl (fun t n =>
    if h.testBit n || (r.testBit n && p.testBit n) then t.requestHalt n 1
    else if r.testBit n then t.releaseCore n false
    else if p.testBit n then t.releaseCore n true
    else t) s)

/-- A write of block 0x0400: only master 0x60's is performed (R404). -/
def dbgOnly (m : Rm) (f : State → Answer) (s : State) : Answer := if m = .debug then f s else refuse s

/-- `DBG_RUNCTL` written by master m. -/
def runctlPut (m : Rm) (v : W32) (s : State) : State := ringPut m aDBG_RUNCTL v (dbgOnly m (runctlWrite v)) s

/-- `HALT` for the cores of a mask (R392). -/
def execDbgHalt (m : Rm) (mask : BitVec 8) (s : State) : Host.Outcome State Fault Refusal :=
  .next (runctlPut m (mask.setWidth 32) s)
/-- `RESUME` for the cores of a mask (R392). -/
def execDbgResume (m : Rm) (mask : BitVec 8) (s : State) : Host.Outcome State Fault Refusal :=
  .next (runctlPut m (mask.setWidth 32 <<< 8) s)
/-- `STEP` for the cores of a mask (R392). -/
def execDbgStep (m : Rm) (mask : BitVec 8) (s : State) : Host.Outcome State Fault Refusal :=
  .next (runctlPut m (mask.setWidth 32 <<< 16) s)

/-! ### Comparators (R395, R396) -/

/-- The bundle at core c's PC matches a breakpoint comparator or range (R395). -/
def execBreakpointMatch (c : Fin 8) (s : State) : Host.Outcome State Fault Refusal :=
  let n := c.val
  let x := s.thr n
  match s.bpMatch n with
  | some k =>
    if s.coreLive n && s.coreState n == 1 && x.issued == 0 && x.watch.isNone && !x.skipBp then
      let t := s.setThr n { x with skipBp := true }
      let t := (t.requestHalt n 3).setFld (aDBG_CORE_STAT n) fDBG_CORE_STAT_WHICH k
      .next (if boundaryFree x then t else t.setBit (aDBG_CORE_STAT n) fDBG_CORE_STAT_DEFER true)
    else .next s
  | none => .next s

/-- An access of the bundle just issued matched a data comparator (R396). -/
def execDataWatchMatch (c : Fin 8) (s : State) : Host.Outcome State Fault Refusal :=
  let n := c.val
  let x := s.thr n
  match x.watch with
  | some (j, slot) =>
    if s.coreLive n && x.issued == 0 then
      let t := (s.setThr n { x with watch := none }).requestHalt n 4
      .next ((t.setFld (aDBG_CORE_STAT n) fDBG_CORE_STAT_WHICH j).setFld (aDBG_CORE_STAT n) fDBG_CORE_STAT_SLOT slot)
    else .next s
  | none => .next s

/-! ### A halted core's state (R394) -/

/-- The item at an index, none where no item is listed. -/
def State.dbgItem (s : State) (n i : Nat) : Option W32 :=
  let x := s.thr n
  if i < 64 then some (x.phys i)
  else if 0x40 ≤ i ∧ i < 0x50 then
    let a := x.accOf ((i - 0x40) / 2)
    some (if i % 2 = 0 then a.setWidth 32 else (a >>> 32).setWidth 16 |>.signExtend 32)
  else if i = 0x85 then some (BitVec.ofNat 32 s.tickN)
  else if i = 0x86 then some (BitVec.ofNat 32 (s.tickN / 4294967296))
  else if 0x80 ≤ i ∧ i ≤ 0x98 then some (s.specialRead n (i - 0x80))
  else if i = 0xC0 then some (x.pc.setWidth 32)
  else none

/-- Write the item at an index. -/
def State.setDbgItem (s : State) (n i : Nat) (v : W32) : State :=
  let x := s.thr n
  if i < 64 then s.setThr n (x.setPhys i v)
  else if i < 0x50 then
    let k := (i - 0x40) / 2
    let a := x.accOf k
    s.setThr n (x.setAcc k (if i % 2 = 0 then (a &&& 0xFFFF00000000#48) ||| v.setWidth 48
      else (a &&& 0xFFFFFFFF#48) ||| (v.setWidth 48 <<< 32)))
  else if i < 0xC0 then s.landSpecial n (i - 0x80) v
  else s.setThr n { x with pc := v.setWidth 14 }

/-- `INDEX` moves after an access while `AINC` is 1. -/
def State.dbgAdvance (s : State) (n : Nat) : State :=
  if s.bit (aDBG_REG_ADDR n) fDBG_REG_ADDR_AINC then
    s.setFld (aDBG_REG_ADDR n) fDBG_REG_ADDR_INDEX (s.fld (aDBG_REG_ADDR n) fDBG_REG_ADDR_INDEX + 1)
  else s

/-- A read of `DBG_REG_DATA_n` (R394). -/
def dbgRegRead (n : Nat) (s : State) : Answer :=
  match s.dbgItem n (s.fld (aDBG_REG_ADDR n) fDBG_REG_ADDR_INDEX) with
  | some v => if s.coreState n = 3 then (s.dbgAdvance n, .ok, v) else refuse s
  | none => refuse s
/-- A write of `DBG_REG_DATA_n` (R394). -/
def dbgRegWrite (n : Nat) (v : W32) (s : State) : Answer :=
  let i := s.fld (aDBG_REG_ADDR n) fDBG_REG_ADDR_INDEX
  if (s.dbgItem n i).isSome && s.coreState n == 3 then wrote ((s.setDbgItem n i v).dbgAdvance n) else refuse s

/-- `DBG_REG_DATA_n` written or read by master m. -/
def execDbgRegAccess (m : Rm) (c : Fin 8) (v : Option W32) (s : State) : Host.Outcome State Fault Refusal :=
  let a := aDBG_REG_DATA c.val
  match v with
  | some v => .next (ringPut m a v (dbgOnly m (dbgRegWrite c.val v)) s)
  | none =>
    .next (ringDo m { die := 6, block := 0x400, off := a % 65536, write := false, data := 0#32 } (dbgRegRead c.val) s)

/-! ### Virtual terminal (R401) -/

/-- A write of `DBG_TX`: the device side's, while no word waits. -/
def dbgTxWrite (m : Rm) (v : W32) (s : State) : Answer :=
  if m = .debug ∨ s.bit aDBG_TERM_STAT fDBG_TERM_STAT_TXV = true then refuse s
  else wrote ((s.setReg aDBG_TX v).setBit aDBG_TERM_STAT fDBG_TERM_STAT_TXV true)
/-- A write of `DBG_RX`: the host's, while no word waits. -/
def dbgRxWrite (m : Rm) (v : W32) (s : State) : Answer :=
  if m ≠ .debug ∨ s.bit aDBG_TERM_STAT fDBG_TERM_STAT_RXV = true then refuse s
  else wrote (((s.setReg aDBG_RX v).setBit aDBG_TERM_STAT fDBG_TERM_STAT_RXV true).raise 1928)
/-- A write of `DBG_TERM_STAT`: the host consumes with `TXV`, the device side with `RXV`. -/
def termStatWrite (m : Rm) (v : W32) (s : State) : Answer :=
  let tx := getB v fDBG_TERM_STAT_TXV
  let rx := getB v fDBG_TERM_STAT_RXV
  if (tx && m != .debug) || (rx && m == .debug) then refuse s
  else
    let t := if tx && s.bit aDBG_TERM_STAT fDBG_TERM_STAT_TXV then
      (s.setBit aDBG_TERM_STAT fDBG_TERM_STAT_TXV false).raise 1929 else s
    wrote (if rx then t.setBit aDBG_TERM_STAT fDBG_TERM_STAT_RXV false else t)

/-- `DBG_TX` written by master m. -/
def execTerminalTxWrite (m : Rm) (v : W32) (s : State) : Host.Outcome State Fault Refusal :=
  .next (ringPut m aDBG_TX v (dbgTxWrite m v) s)
/-- 1 written to `TXV` by master m. -/
def execTerminalTxConsume (m : Rm) (s : State) : Host.Outcome State Fault Refusal :=
  .next (ringPut m aDBG_TERM_STAT 1#32 (termStatWrite m 1#32) s)
/-- `DBG_RX` written by master m. -/
def execTerminalRxWrite (m : Rm) (v : W32) (s : State) : Host.Outcome State Fault Refusal :=
  .next (ringPut m aDBG_RX v (dbgRxWrite m v) s)
/-- 1 written to `RXV` by master m. -/
def execTerminalRxConsume (m : Rm) (s : State) : Host.Outcome State Fault Refusal :=
  .next (ringPut m aDBG_TERM_STAT 2#32 (termStatWrite m 2#32) s)

end Sys2Proof.Machine
end

