-- ==== Sys2Proof/Machine/Banks.lean ====
section
/-! DEFINITION. The hub memory banks: grants and ownership (R257 to R262), conflict counters (R263), waking (R266), the borrowing
self-test (R267), and the DMA engines (R268 to R270). -/

namespace Sys2Proof.Machine

/-! ### Requests (R257 to R262) -/

/-- Local address of byte 0 of a bank. -/
def bankBase (b : Nat) : Nat := 0x200000000000 + 0x40000 * b
/-- Ticks of `n` Thrumas cycles, the first whole tick at or after them. -/
def coreTicks (n : Nat) : Nat := (5 * n + 3) / 4
/-- Port that serves a master: A for Thrumas cores, DMA engines and BIST, B for what enters through the hub NIs. -/
def onPortA (master : Nat) : Bool := (1 ≤ master && master ≤ 8) || (0x40 ≤ master && master ≤ 0x43) || master == 0x50
/-- Masters whose requests are never checked (R260). -/
def uncheckedMaster (master : Nat) : Bool := master == 0x60 || master == 0x70
/-- The halted cores freeze peripheral b (R398). -/
def State.frozen (s : State) (b : Nat) : Bool :=
  (List.range 8).any (fun n => s.coreState n == 3 && (s.fld (aDBG_FRZ n) fDBG_FRZ_FRZ).testBit b)

/-- The request waits at this bank. -/
def forBank (bank : Nat) (r : MemReq) : Bool := classOf r.addr == .banks && (r.addr - 0x200000000000) / 0x40000 == bank
/-- A self-test holds the bank. -/
def State.bistOn (s : State) (bank : Nat) : Option Bist := s.banks.bist.filter (fun t => t.bank == bank)
/-- Owner to be restored after the test. -/
def State.bistPrev (s : State) : Nat := s.fld aBIST_STATUS fBIST_STATUS_PREV
/-- The test is paused. -/
def State.bistPaused (s : State) : Bool := s.bit aBIST_STATUS fBIST_STATUS_PAUSED
/-- A request that a test of the bank pauses for (R267). -/
def State.pausesBist (s : State) (r : MemReq) : Bool :=
  uncheckedMaster r.master || (r.urgent && (r.master == s.bistPrev || s.bistPrev == 0))
/-- The request can be granted, or refused, now: its bank is not waking, and no test makes it wait. -/
def State.grantable (s : State) (bank : Nat) (r : MemReq) : Bool :=
  s.domState (64 + bank) != 1 &&
    ((s.bistOn bank).isNone || s.bistPaused || !s.pausesBist r || s.domState (64 + bank) != 3)

/-- Urgent, or waiting for 512 cycles (R257). -/
def State.countsUrgent (s : State) (r : MemReq) : Bool := r.urgent || decide (r.arrivedAt + coreTicks 512 ≤ s.now)
/-- Of two waiting requests, the one granted first: urgent, then round-robin over master IDs (R257). -/
def State.bankBefore (s : State) (last : Nat) (x y : MemReq) : Bool :=
  let turn (r : MemReq) : Nat := (r.master + 511 - last) % 256
  (s.countsUrgent x && !s.countsUrgent y) || (s.countsUrgent x == s.countsUrgent y && decide (turn x < turn y))
/-- The oldest waiting request of each master. -/
def masterHeads : List MemReq → List Nat → List MemReq
  | [], _ => []
  | r :: rest, seen => if seen.contains r.master then masterHeads rest seen else r :: masterHeads rest (r.master :: seen)
/-- Round-robin key of a bank's port. -/
def portKey (portA : Bool) (bank : Nat) : Nat := 2 * bank + if portA then 1 else 0
/-- The request that a port of a bank grants next. -/
def State.bankPick (s : State) (portA : Bool) (bank : Nat) : Option MemReq :=
  let last := tget (fun _ => 0) s.banks.last (portKey portA bank)
  let heads := masterHeads (s.mq.filter (forBank bank)) []
  (heads.filter (fun r => onPortA r.master == portA && s.grantable bank r)).foldl (fun best r =>
    match best with
    | none => some r
    | some b => if s.bankBefore last r b then some r else best) none

/-- An ownership fault is recorded (R260). -/
def State.ownershipFault (s : State) (bank : Nat) (r : MemReq) : State :=
  let a := aBANK_FAULT_0
  let s := s.satInc a fBANK_FAULT_0_COUNT
  let s := (s.setFld a fBANK_FAULT_0_MASTER r.master).setBit a fBANK_FAULT_0_WRITE r.write
  let s := (s.setFld a fBANK_FAULT_0_BANK bank).setFld a fBANK_FAULT_0_OWNER (s.fld (aBANK_OWNER bank) fBANK_OWNER_OWNER)
  (s.setFld aBANK_FAULT_1 fBANK_FAULT_1_WORD (r.addr % 0x40000 / 32)).raise 128

/-- The value a write gives the handover word: a new owner, or none where the write is wrong (R262). -/
def newOwner (v : Nat) : Option Nat :=
  if v / 0x1000000 % 256 = 0x5A ∧ v / 256 % 65536 = 0 ∧ v % 256 ≠ 0x50 then some (v % 256) else none

/-- Bytes of a bank are written, with fresh parity (R259). -/
def State.bankStore (s : State) (a : Nat) (bs : List Byte) : State :=
  let t := s.setBytes a bs
  { t with banks := { t.banks with badPar := t.banks.badPar.filter (fun p => !(decide (a ≤ p) && decide (p < a + bs.length))) } }
/-- A byte of a word fails its parity from now on (R259). -/
def State.parityFails (s : State) (a : Nat) : State :=
  if s.banks.badPar.contains a then s else { s with banks := { s.banks with badPar := a :: s.banks.badPar } }

/-- The request reads or writes the handover word (R262). -/
def State.handover (s : State) (bank : Nat) (r : MemReq) : Bool :=
  s.bit (aBANK_OWNER bank) fBANK_OWNER_GIVE_EN && decide (0x3FFE0 < r.addr % 0x40000 + r.count)

/-- What a granted request does: the next state, the status and the data read (R258 to R262). While a test borrows the bank, none but a
request it pauses for is performed (R267); a read of the handover word is never a fault. -/
def State.bankPerform (s : State) (bank : Nat) (r : MemReq) : State × Nat × List Byte :=
  let ow := s.reg (aBANK_OWNER bank)
  let owner := getF ow fBANK_OWNER_OWNER
  let off := r.addr % 0x40000
  let last := off + r.count
  let hand := s.handover bank r
  let borrowed := (s.bistOn bank).isSome
  let mine := if borrowed then s.pausesBist r && !(hand && r.write)
    else owner == 0 || r.master == owner || (!r.write && getB ow fBANK_OWNER_RD_SHARE)
  if !(mine || uncheckedMaster r.master || (!r.write && hand && decide (0x3FFE0 ≤ off))) then (s.ownershipFault bank r, 3, [])
  else if r.write then
    if !hand then (s.bankStore r.addr r.data, 0, [])
    else if 0x3FFE0 < off ∨ last < 0x3FFE4 then (s, 1, [])
    else
      match newOwner (leNat ((r.data.drop (0x3FFE0 - off)).take 4)) with
      | none => (s, 1, [])
      | some o => ((s.bankStore r.addr (r.data.take (0x3FFE0 - off))).setFld (aBANK_OWNER bank) fBANK_OWNER_OWNER o, 0, [])
  else
    let stored := if hand then min r.count (0x3FFE0 - off) else r.count
    match s.banks.badPar.filter (fun p => decide (r.addr ≤ p) && decide (p < r.addr + stored)) with
    | p :: ps =>
      ((s.setReg aBANK_PAR (BitVec.ofNat 32 (2 ^ 31 + bank * 2 ^ 13 + ps.foldl min p % 0x40000 / 32))).raise 129, 1, [])
    | [] =>
      let word := natLe 32 (ow.toNat % 512)
      (s, 0, s.bytes r.addr stored ++ (List.range (r.count - stored)).map (fun i => word.getD (off + stored + i - 0x3FFE0) 0))

/-- Thrumas cycle of the present tick: four in five ticks (R28). -/
def State.coreCycle (s : State) : Nat := 4 * s.now / 5
/-- Words that a request covers. -/
def wordsOf (r : MemReq) : Nat := max 1 ((r.addr % 32 + r.count + 31) / 32)
/-- The request that a port grants in this cycle, once the words of its last access are over (R257). -/
def State.bankNext (s : State) (portA : Bool) (bank : Nat) : Option MemReq :=
  if s.coreCycle < tget (fun _ => 0) s.banks.held (portKey portA bank) then none else s.bankPick portA bank

/-- A port takes a request: it holds the port for its words, is the master served last, and an urgent one restarts a test's quiet count
(R257, R267). -/
def State.bankTake (s : State) (portA : Bool) (bank : Nat) (r : MemReq) : State :=
  let t := { s with mq := s.mq.erase r }
  if s.domState (64 + bank) ≠ 3 then t
  else
    let k := portKey portA bank
    let t := { t with banks := { t.banks with last := tput (fun _ => 0) t.banks.last k r.master
                                              held := tput (fun _ => 0) t.banks.held k (s.coreCycle + wordsOf r) } }
    match s.bistOn bank with
    | some y =>
      if r.urgent && s.pausesBist r && !uncheckedMaster r.master then
        { t with banks := { t.banks with bist := some { y with quietAt := s.now } } }
      else t
    | none => t
/-- A request taken is performed and answered; a bank in retention or off answers bus error (R265). -/
def State.bankServe (s : State) (bank : Nat) (r : MemReq) : State :=
  if s.domState (64 + bank) ≠ 3 then s.answerReq r 1 []
  else
    let (u, status, data) := s.bankPerform bank r
    u.answerReq r status data

/-- Of two requests granted in one cycle, port B's goes first (R258): both begin at one word and A reads what B writes, handover
apart, or A comes to the words they share later. -/
def State.bFirst (s : State) (bank : Nat) (a b : MemReq) : Bool :=
  if a.addr / 32 = b.addr / 32 then !a.write && b.write && !s.handover bank b else decide (a.addr / 32 < b.addr / 32)
/-- Requests of both ports granted in one cycle are served (R258): where both write the same bytes of a word in one cycle, port A's are
stored. -/
def State.bankBoth (s : State) (bank : Nat) (a b : MemReq) : State :=
  if s.bFirst bank a b then (s.bankServe bank b).bankServe bank a
  else
    let t := (s.bankServe bank a).bankServe bank b
    let (_, status, _) := s.bankPerform bank a
    if a.addr / 32 = b.addr / 32 ∧ a.write ∧ b.write ∧ status = 0 ∧ s.domState (64 + bank) = 3 then
      t.bankStore a.addr (if s.handover bank a then a.data.take (0x3FFE0 - a.addr % 0x40000) else a.data)
    else t

/-- A port of a bank grants its next request, and the other port its own where one waits there, since each grants in every cycle in which it
is free (R257, R258). `bad` names a word a byte of which fails its parity. -/
def execBankRequest (portA : Bool) (bank : Fin 64) (bad : Option (Fin 8192)) (s : State) : Host.Outcome State Fault Refusal :=
  let b := bank.val
  if !s.hubRuns then .next s
  else
    match s.bankNext portA b with
    | none => .next s
    | some r =>
      let hit : Option Nat := bad.bind (fun w =>
        let base := bankBase b + 32 * w.val
        if r.addr < base + 32 ∧ base < r.addr + r.count then some (max r.addr base) else none)
      let t := match hit with
        | some p => s.parityFails p
        | none => s
      let u := t.bankTake portA b r
      match t.bankNext (!portA) b with
      | none => .next (u.bankServe b r)
      | some q =>
        let u := u.bankTake (!portA) b q
        .next (if portA then u.bankBoth b r q else u.bankBoth b q r)

/-! ### Owner and conflict counters (R261, R263) -/

/-- A write of `BANK_OWNER_n` (R261). -/
def bankOwnerWrite (m : Rm) (bank : Nat) (v : W32) (s : State) : Answer :=
  if m = .config ∨ (s.bistOn bank).isSome = true ∨ getF v fBANK_OWNER_OWNER = 0x50 then refuse s
  else wrote (s.plainWrite (aBANK_OWNER bank) v)
/-- `BANK_OWNER_n` written by master m. -/
def execBankOwnerWrite (m : Rm) (bank : Fin 64) (v : W32) (s : State) : Host.Outcome State Fault Refusal :=
  .next (ringPut m (aBANK_OWNER bank.val) v (bankOwnerWrite m bank.val v) s)

/-- A write of `CC_SEL_k` clears `CC_CNT_k` (R263). -/
def ccSelWrite (k : Nat) (v : W32) (s : State) : Answer := wrote ((s.plainWrite (aCC_SEL k) v).setReg (aCC_CNT k) 0)
/-- `CC_SEL_k` written by master m. -/
def execCcSelWrite (m : Rm) (k : Fin 16) (v : W32) (s : State) : Host.Outcome State Fault Refusal :=
  .next (ringPut m (aCC_SEL k.val) v (ccSelWrite k.val v) s)

/-- Counter k counts `c` cycles of every request it selects that waits; event 133 when it saturates (R263). -/
def State.ccTick (s : State) (c k : Nat) : State :=
  let sel := s.reg (aCC_SEL k)
  let m := getF sel fCC_SEL_MASTER
  if m = 0 ∨ s.frozen 5 = true then s
  else
    let waits := s.mq.filter (fun r => r.master == m && classOf r.addr == .banks &&
      (getB sel fCC_SEL_ALL || (r.addr - 0x200000000000) / 0x40000 == getF sel fCC_SEL_BANK))
    let old := (s.reg (aCC_CNT k)).toNat
    let new := min 0xFFFFFFFF (old + c * waits.length)
    let t := s.setReg (aCC_CNT k) (BitVec.ofNat 32 new)
    if old < 0xFFFFFFFF ∧ new = 0xFFFFFFFF then t.raise 133 else t

/-! ### Waking (R266) -/

/-- A bank is asked on: 64 cycles from retention, 4,096 of zeroing from off (R266). -/
def State.bankTurnOn (s : State) (bank : Nat) (fromOff : Bool) : State :=
  let due := s.now + coreTicks (if fromOff then 4096 else 64) + 1
  { s with banks := { s.banks with wake := tput (fun _ => (0, false)) s.banks.wake bank (due, fromOff) } }
/-- Contents of a bank are lost (R265), and zero comes with correct parity (R266). -/
def State.bankLose (s : State) (bank : Nat) : State :=
  { s with mem := s.mem.filter (fun c => !(decide (bankBase bank ≤ c.1) && decide (c.1 < bankBase (bank + 1))))
           banks := { s.banks with badPar := s.banks.badPar.filter (fun p =>
             !(decide (bankBase bank ≤ p) && decide (p < bankBase (bank + 1)))) } }

/-- A waking bank is ready, or fully zeroed (R266). -/
def execBankWakeComplete (bank : Fin 64) (s : State) : Host.Outcome State Fault Refusal :=
  let b := bank.val
  let (due, zero) := tget (fun _ => (0, false)) s.banks.wake b
  if s.hubRuns && due != 0 && decide (due ≤ s.now + 1) && s.domState (64 + b) == 1 then
    let t := { s with banks := { s.banks with wake := tput (fun _ => (0, false)) s.banks.wake b (0, false) } }
    let t := t.setDom (64 + b) 3
    .next (if zero then (t.bankLose b).raise 132 else t)
  else .next s

/-! ### Self-test (R267) -/

/-- A write of `BIST_CTRL` (R267). -/
def bistCtrlWrite (m : Rm) (v : W32) (s : State) : Answer :=
  let bank := getF v fBIST_CTRL_BANK
  if getB v fBIST_CTRL_GO then
    if m = .config ∨ s.banks.bist.isSome = true ∨ s.domState (64 + bank) ≠ 3 then refuse s
    else
      let prev := s.fld (aBANK_OWNER bank) fBANK_OWNER_OWNER
      let t := (s.plainWrite aBIST_CTRL v).setFld (aBANK_OWNER bank) fBANK_OWNER_OWNER 0x50
      let st := putF (s.reg aBIST_STATUS &&& 0x20000000#32) fBIST_STATUS_BUSY 1
      let t := t.setReg aBIST_STATUS (putF st fBIST_STATUS_PREV prev)
      wrote { t with banks := { t.banks with bist := some { bank := bank, cycles := 0, quietAt := s.now, aborting := false } } }
  else
    let t := s.plainWrite aBIST_CTRL v
    match getB v fBIST_CTRL_ABORT, s.banks.bist with
    | true, some b => wrote { t with banks := { t.banks with bist := some { b with aborting := true } } }
    | _, _ => wrote t

/-- `BIST_CTRL.GO` written by master m for a bank. -/
def execBistGo (m : Rm) (bank : Fin 64) (s : State) : Host.Outcome State Fault Refusal :=
  let v := putF (BitVec.ofNat 32 bank.val) fBIST_CTRL_GO 1
  .next (ringPut m aBIST_CTRL v (bistCtrlWrite m v) s)
/-- `BIST_CTRL.ABORT` written by master m, `BANK` kept. -/
def execBistAbort (m : Rm) (s : State) : Host.Outcome State Fault Refusal :=
  let v := putF (s.reg aBIST_CTRL) fBIST_CTRL_ABORT 1
  .next (ringPut m aBIST_CTRL v (bistCtrlWrite m v) s)

/-- A request that the test pauses for waits, or the debugger freezes it (R267, R398). -/
def execBistPause (s : State) : Host.Outcome State Fault Refusal :=
  match s.banks.bist with
  | some b =>
    if s.hubRuns && !s.bistPaused && (s.frozen 4 || s.mq.any (fun r => forBank b.bank r && s.pausesBist r)) then
      .next ({ s with banks := { s.banks with bist := some { b with quietAt := s.now } } }.setBit aBIST_STATUS
        fBIST_STATUS_PAUSED true)
    else .next s
  | none => .next s
/-- 1,024 cycles have passed with no urgent request (R267). -/
def execBistResume (s : State) : Host.Outcome State Fault Refusal :=
  match s.banks.bist with
  | some b =>
    if s.hubRuns && s.bistPaused && !s.frozen 4 && decide (b.quietAt + coreTicks 1024 ≤ s.now) &&
        !s.mq.any (fun r => forBank b.bank r && s.pausesBist r) then
      .next (s.setBit aBIST_STATUS fBIST_STATUS_PAUSED false)
    else .next s
  | none => .next s

/-- A running test advances by `c` cycles, eight a word (R267). -/
def State.bistTick (s : State) (c : Nat) : State :=
  match s.banks.bist with
  | some b =>
    if s.bistPaused || b.aborting then s
    else
      let n := min 65536 (b.cycles + c)
      ({ s with banks := { s.banks with bist := some { b with cycles := n } } }).setFld aBIST_STATUS
        fBIST_STATUS_WORD (min 8191 (n / 8))
  | none => s

/-- A word whose cells failed holds whatever they retain. -/
def State.spoil (s : State) (a n : Nat) : State :=
  let (v, t) := s.fresh (8 * n)
  t.setBytes a (natLe n v.toNat)

/-- The test ends, at its last word or after `ABORT`; `bad` lists the words that failed (R267). -/
def execBistEnd (bad : List (Fin 8192)) (s : State) : Host.Outcome State Fault Refusal :=
  match s.banks.bist with
  | some b =>
    if s.hubRuns && (b.aborting || b.cycles == 65536) then
      let fails := bad.map (fun w => w.val)
      let t := fails.foldl (fun t w => t.spoil (bankBase b.bank + 32 * w) 32) s
      let clean (p : Nat) : Bool := decide (bankBase b.bank ≤ p) && decide (p < bankBase b.bank + 32 * (b.cycles / 8))
      let t := { t with banks := { t.banks with bist := none, badPar := t.banks.badPar.filter (fun p => !clean p) } }
      let t := t.setFld (aBANK_OWNER b.bank) fBANK_OWNER_OWNER s.bistPrev
      let t := ((t.setBit aBIST_STATUS fBIST_STATUS_BUSY false).setBit aBIST_STATUS fBIST_STATUS_PAUSED false).setBit
        aBIST_STATUS fBIST_STATUS_DONE true
      match fails with
      | [] => .next (t.raise 130)
      | w :: r =>
        .next (((t.setBit aBIST_STATUS fBIST_STATUS_FAIL true).setFld aBIST_STATUS fBIST_STATUS_WORD
          (r.foldl min w)).raise 131)
    else .next s
  | none => .next s

/-! ### DMA engines (R268 to R270) -/

/-- The record of engine e. -/
def State.dma (s : State) (e : Nat) : Dma := tget (fun _ => Dma.empty) s.banks.dma e
/-- Set the record of engine e. -/
def State.setDma (s : State) (e : Nat) (x : Dma) : State :=
  { s with banks := { s.banks with dma := tput (fun _ => Dma.empty) s.banks.dma e x } }
/-- Hub NI of engine e (R75). -/
def dmaNi (e : Nat) : Nat := 10 + 12 * e
/-- A request of engine e waits at its hub NI under its own master ID (R269). -/
def State.dmaAsk (s : State) (e tag addr count pri : Nat) (urgent : Bool) (data : Option (List Byte)) : State :=
  let h := xferHdr addr count tag pri data.isSome urgent
  let p : Packet := { hdr := h, data := lineFlits (addr % 256) (data.getD []) }
  let z := s.ni 6 (dmaNi e)
  s.setNi 6 (dmaNi e) { z with clientQ := z.clientQ ++ [{ pkt := p, master := 0x40 + e, origin := .dma e tag }] }

/-- The engine stops with an error: the status and the descriptor are recorded (R269). -/
def State.dmaStop (s : State) (e status : Nat) : State :=
  let a := aDMA_STATUS e
  let t := (s.setBit a fDMA_STATUS_BUSY false).setFld a fDMA_STATUS_STATUS status
  let t := t.setDma e { t.dma e with fetching := false, desc := none, pieces := [] }
  (t.setBit a fDMA_STATUS_ERR true).raise (140 + e)

/-- The engine fetches the descriptor at a global address, which must lie in the hub memory banks and be aligned (R268,
R269). -/
def State.dmaFetch (s : State) (e addr : Nat) : State :=
  let s := s.setReg (aDMA_CUR e) (BitVec.ofNat 32 addr)
  let s := s.setDma e { s.dma e with cur := addr, desc := none, issued := 0, pieces := [] }
  if addr / 2 ^ 48 = s.devId ∧ classOf (addr % 2 ^ 48) = .banks ∧ addr % 32 = 0 then
    (s.setDma e { s.dma e with fetching := true }).dmaAsk e 8 addr 32 0 false none
  else s.dmaStop e 1

/-- A descriptor from its 32 bytes; none where a reserved field is not zero (R268). -/
def parseDesc (bs : List Byte) : Option Desc :=
  let w (i : Nat) : Nat := leNat ((bs.drop (4 * i)).take 4)
  let f := w 5
  if bitsOf (w 4) 31 24 ≠ 0 ∨ bitsOf f 31 13 ≠ 0 then none
  else some { src := w 0 + 2 ^ 32 * w 1, dst := w 2 + 2 ^ 32 * w 3, len := bitsOf (w 4) 23 0, srcDm := f.testBit 0
              dstDm := f.testBit 1, score := bitsOf f 4 2, dcore := bitsOf f 7 5, urgent := f.testBit 8
              pri := bitsOf f 10 9, evt := f.testBit 11, last := f.testBit 12, next := w 6 + 2 ^ 32 * w 7 }

/-- Length of the piece at an offset: neither side crosses a 256 B line (R269). -/
def pieceLen (x : Desc) (off : Nat) : Nat :=
  min (x.len - off) (min (256 - (x.src + off) % 256) (256 - (x.dst + off) % 256))

/-- Bytes of the descriptor are written: `LEFT`. -/
def State.dmaWrote (s : State) (e tag n : Nat) : State :=
  let y := s.dma e
  let t := s.setDma e { y with pieces := y.pieces.filter (fun p => p.tag != tag) }
  t.setFld (aDMA_STATUS e) fDMA_STATUS_LEFT (s.fld (aDMA_STATUS e) fDMA_STATUS_LEFT - n)

/-- The data of a piece is at hand: written to its destination, a scratchpad at once (R269). -/
def State.dmaData (s : State) (e : Nat) (x : Desc) (p : DmaPiece) (bs : List Byte) : State :=
  if x.dstDm then (s.dmWrite x.dcore (x.dst + p.off) bs).dmaWrote e p.tag p.len
  else
    let y := s.dma e
    let t := s.setDma e { y with pieces := y.pieces.map (fun q => if q.tag = p.tag then { q with writing := true } else q) }
    t.dmaAsk e p.tag (x.dst + p.off) p.len x.pri x.urgent (some bs)

/-- A response to engine e (R269). An engine that drains issues no new request: what a read then returns is not written (R270). -/
def State.dmaResponse (s : State) (e : Nat) (r : MemRsp) (tag : Nat) : State :=
  let y := s.dma e
  if tag = 8 then
    if !y.fetching then s
    else if r.status ≠ 0 then s.dmaStop e r.status
    else
      match parseDesc r.data with
      | none => s.dmaStop e 1
      | some x =>
        (s.setDma e { y with fetching := false, desc := some x, issued := 0 }).setFld (aDMA_STATUS e) fDMA_STATUS_LEFT x.len
  else
    match y.desc, y.pieces.find? (fun p => p.tag == tag) with
    | some x, some p =>
      if r.status ≠ 0 then s.dmaStop e r.status
      else if p.writing then s.dmaWrote e tag p.len
      else if y.draining then s.setDma e { y with pieces := y.pieces.filter (fun q => q.tag != tag) }
      else s.dmaData e x p r.data
    | _, _ => s

/-- One tick of engine e: it takes a response and starts a piece, at most eight outstanding (R269, R270, R398). -/
def State.dmaTick (s : State) (e : Nat) : State :=
  let mine (r : MemRsp) : Option Nat := match r.origin with
    | .dma k t => if k = e then some t else none
    | _ => none
  let s := match s.rsps.find? (fun r => (mine r).isSome) with
    | some r => ({ s with rsps := s.rsps.erase r }).dmaResponse e r ((mine r).getD 0)
    | none => s
  let y := s.dma e
  match y.desc with
  | some x =>
    if y.issued < x.len ∧ y.pieces.length < 8 ∧ !y.draining ∧ !s.frozen e ∧ s.domOn 24 then
      match (List.range 8).find? (fun t => !y.pieces.any (fun p => p.tag == t)) with
      | none => s
      | some tag =>
        let n := pieceLen x y.issued
        let p : DmaPiece := { tag := tag, off := y.issued, len := n, writing := false }
        let t := s.setDma e { y with issued := y.issued + n, pieces := y.pieces ++ [p] }
        if x.srcDm then
          t.dmaData e x p ((List.range n).map (fun i => s.byte (dmBase x.score + (x.src + p.off + i) % 262144)))
        else t.dmaAsk e tag (x.src + p.off) n x.pri x.urgent none
    else s
  | none => s

/-- A draining engine has nothing outstanding (R270). -/
def State.dmaDrained (s : State) (e : Nat) : State :=
  let y := s.dma e
  if y.draining && y.pieces.isEmpty && !y.fetching then
    let a := aDMA_STATUS e
    let t := s.setDma e { y with draining := false, desc := none }
    let t := ((t.setBit a fDMA_STATUS_DRAINED true).setBit a fDMA_STATUS_BUSY false).setBit (aDMA_CTRL e) fDMA_CTRL_EN false
    t.raise (144 + e)
  else s

/-- A write of `DMA_CTRL_e` (R269, R270). -/
def dmaCtrlWrite (e : Nat) (v : W32) (s : State) : Answer :=
  let a := aDMA_CTRL e
  let busy := s.bit (aDMA_STATUS e) fDMA_STATUS_BUSY
  let en := s.bit a fDMA_CTRL_EN
  let force := getB v fDMA_CTRL_FORCE
  if getB v fDMA_CTRL_GO && (busy || !en) then refuse s
  else if getB v fDMA_CTRL_DIS then
    let w := putF (v &&& 0x7#32) fDMA_CTRL_EN (if en then 1 else 0)
    let t := (s.setReg a w).setDma e { s.dma e with draining := (s.dma e).draining || en }
    let t := if force && en then
        (t.disown (dmaNi e) (fun o => match o with
          | .dma k _ => k == e
          | _ => false)).setDma e { t.dma e with pieces := [], fetching := false }
      else t
    wrote (t.dmaDrained e)
  else
    let t := (s.setReg a (v &&& 0x7#32)).setDma e { s.dma e with draining := false }
    let t := if getB v fDMA_CTRL_EN && !force then t.setBit (aDMA_STATUS e) fDMA_STATUS_DRAINED false else t
    if getB v fDMA_CTRL_GO then
      let t := t.setBit (aDMA_STATUS e) fDMA_STATUS_BUSY true
      wrote (t.dmaFetch e (s.reg64 (aDMA_HEAD_LO e) (aDMA_HEAD_HI e)))
    else wrote t

/-- `DMA_CTRL_e` written by master m with some of its fields replaced. -/
def dmaPut (m : Rm) (e : Nat) (f : W32 → W32) (s : State) : State :=
  let v := f (s.reg (aDMA_CTRL e))
  ringPut m (aDMA_CTRL e) v (dmaCtrlWrite e v) s

/-- `GO` (R269). -/
def execDmaGo (m : Rm) (e : Fin 4) (s : State) : Host.Outcome State Fault Refusal :=
  .next (dmaPut m e.val (fun v => putF v fDMA_CTRL_GO 1) s)
/-- `DIS` = 1 (R270). -/
def execDmaDisable (m : Rm) (e : Fin 4) (force : Bool) (s : State) : Host.Outcome State Fault Refusal :=
  .next (dmaPut m e.val (fun v => putF (putF v fDMA_CTRL_DIS 1) fDMA_CTRL_FORCE (if force then 1 else 0)) s)
/-- `EN` = 1 with `DIS` and `FORCE` at 0 (R270). -/
def execDmaEnable (m : Rm) (e : Fin 4) (s : State) : Host.Outcome State Fault Refusal :=
  .next (dmaPut m e.val (fun v => putF (putF (putF v fDMA_CTRL_DIS 0) fDMA_CTRL_FORCE 0) fDMA_CTRL_EN 1) s)

/-- Every write of engine e's descriptor has been answered: its event, and the next descriptor or the end (R269). -/
def execDescriptorComplete (e : Fin 4) (s : State) : Host.Outcome State Fault Refusal :=
  let e := e.val
  let y := s.dma e
  match y.desc with
  | some x =>
    if s.hubRuns && y.issued == x.len && y.pieces.isEmpty && s.bit (aDMA_STATUS e) fDMA_STATUS_BUSY then
      let t := if x.evt then s.raise (136 + e) else s
      if y.draining then .next ((t.setDma e { y with desc := none }).dmaDrained e)
      else if x.last then .next ((t.setDma e { y with desc := none }).setBit (aDMA_STATUS e) fDMA_STATUS_BUSY false)
      else if s.frozen e || !s.domOn 24 then .next s
      else .next (t.dmaFetch e x.next)
    else .next s
  | none => .next s

end Sys2Proof.Machine
end

