-- ==== Sys2Proof/Machine/Qdr.lean ====
section
/-! DEFINITION. The QDR-IV pairs: scheduled service (R275 to R280), best-effort requests (R281, R282), training and disable (R274,
R283), and their loop-backs (R418). -/

namespace Sys2Proof.Machine

/-- The record of pair q. -/
def State.qdr (s : State) (q : Nat) : Qdr := tget (fun _ => Qdr.empty) s.qdrs q
/-- Set the record of pair q. -/
def State.setQdr (s : State) (q : Nat) (x : Qdr) : State := { s with qdrs := tput (fun _ => Qdr.empty) s.qdrs q x }
/-- `Q_STATUS.STATE`: 0 training, 1 ready, 2 failed, 3 retention or off. -/
def State.qdrState (s : State) (q : Nat) : Nat := s.fld (aQ_STATUS q) fQ_STATUS_STATE
/-- Pair q is trained, and its domain is on (R274, R284). -/
def State.qdrReady (s : State) (q : Nat) : Bool := s.qdrState q == 1 && s.domOn (36 + q)
/-- Hub NI of pair q (R75). -/
def qdrNi (q : Nat) : Nat := 5 + 12 * q
/-- Event k of pair q (R285). -/
def qdrEvent (q k : Nat) : Nat := 320 + 8 * q + k
/-- Set a bit of `Q_ERR`, with its event (R285). -/
def State.qdrErr (s : State) (q : Nat) (f : Fld) : State :=
  let k := if f = fQ_ERR_CE then 0 else if f = fQ_ERR_UE then 1 else if f = fQ_ERR_TRN_FAIL then 4 else 2
  s.flagRaise (aQ_ERR q) f (qdrEvent q k)
/-- Set a drained bit of `Q_STATUS`, with its event (R285). -/
def State.qdrDrained (s : State) (q : Nat) (f : Fld) : State := s.flagRaise (aQ_STATUS q) f (qdrEvent q 3)

/-! ### Words (R273, R282, R305) -/

/-- Local address of pair-local byte L of pair q (R273). -/
def qdrAddr (q l : Nat) : Nat := 0x100000000000 + l / 1024 * 4096 + q * 1024 + l % 1024
/-- Pair-local byte of a local address. -/
def qdrLocal (a : Nat) : Nat := bitsOf a 26 12 * 1024 + bitsOf a 9 0
/-- Model address of the check byte of word w of pair q. -/
def qdrChk (q w : Nat) : Nat := 0x1000002000000 + 4194304 * q + w

/-- Word w of a pair as its devices return it: data and check byte, with the bits that `flips` names inverted; bit 0 to 63
is data, 64 to 71 the check byte. -/
def State.qdrRaw (s : State) (q w : Nat) (flips : List Nat) : W64 × Byte :=
  let d : W64 := BitVec.ofNat 64 (leNat (s.bytes (qdrAddr q (8 * w)) 8))
  let c := s.byte (qdrChk q w)
  flips.foldl (fun (x : W64 × Byte) i =>
    if i < 64 then (x.1 ^^^ BitVec.ofNat 64 (2 ^ i), x.2) else (x.1, x.2 ^^^ BitVec.ofNat 8 (2 ^ (i - 64)))) (d, c)

/-- Bit of a word that a correction names: the data bit, or the check bit (R305). -/
def qdrFixedBit (raw : W64 × Byte) : Nat :=
  let s := qdrCheck raw.1 ^^^ bitsOf raw.2.toNat 6 0
  match qdrCode.findIdx? (· == s) with
  | some i => i
  | none => if s = 0 then 71 else 64 + Nat.log2 s

/-- A word is read: its data, none where it is uncorrectable; the errors are counted (R282). -/
def State.qdrWord (s : State) (q w : Nat) (flips : List Nat) : State × Option W64 :=
  let raw := s.qdrRaw q w flips
  match qdrDecode raw.1 raw.2 with
  | (d, 0) => (s, some d)
  | (d, 1) =>
    let dev := if qdrFixedBit raw < 36 then fQ_CNT_CE_0 else fQ_CNT_CE_1
    let t := (s.satInc (aQ_CNT q) dev).setReg (aQ_EADDR q) (BitVec.ofNat 32 w)
    (t.qdrErr q fQ_ERR_CE, some d)
  | (_, _) =>
    let t := (s.satInc (aQ_UE q) fQ_UE_COUNT).setReg (aQ_EADDR q) (BitVec.ofNat 32 (2 ^ 31 + w))
    (t.qdrErr q fQ_ERR_UE, none)

/-- Words `w`, w + 1, … are read; `flips` pairs a word's place with a bit. -/
def State.qdrWords (s : State) (q w : Nat) (flips : List (Nat × Nat)) : Nat → State × Option (List W64)
  | 0 => (s, some [])
  | n + 1 =>
    let (t, r) := s.qdrWords q w flips n
    let (u, d) := t.qdrWord q (w + n) ((flips.filter (fun f => f.1 == n)).map (fun f => f.2))
    (u, match r, d with
      | some l, some d => some (l ++ [d])
      | _, _ => none)

/-- Store one whole word with a fresh check byte. -/
def State.setQdrWord (s : State) (q w : Nat) (d : W64) : State :=
  (s.setBytes (qdrAddr q (8 * w)) (natLe 8 d.toNat)).setByte (qdrChk q w) (qdrEncode d)
/-- Store whole words with fresh check bytes. -/
def State.setQdrWords (s : State) (q w : Nat) (l : List W64) : State :=
  l.zipIdx.foldl (fun t e => t.setQdrWord q (w + e.2) e.1) s

/-! ### Scheduled service (R275 to R280) -/

/-- The bank that is active for injection on tick t, its period and the tick it became active on; none where no pattern runs
then (R56, R437). -/
def State.bankAt (s : State) (t : Nat) : Option (Nat × Nat × Nat) :=
  let act := s.fld aPAT_STATUS fPAT_STATUS_ARMED
  let at' := s.reg64 aPAT_AT_LO aPAT_AT_HI
  if act ≠ 0 ∧ at' ≤ t then
    (if act = 3 then none else some (s.shBank, 16 * s.fld aSH_PERIOD fSH_PERIOD_P16, at'))
  else if s.bit aPAT_STATUS fPAT_STATUS_RUN && s.period != 0 then
    some (s.actBank, s.period, tget (fun _ => 2 ^ 64) s.pat.fromTick s.actBank)
  else none

/-- The entry that injects where several claim one tick: the lower flow (R81). -/
def injWinner (l : List (Nat × BitVec 128 × Nat)) : Option (Nat × BitVec 128 × Nat) :=
  l.foldl (fun best x =>
    match best with
    | none => some x
    | some b => if ew x.2.1 0 31 20 < ew b.2.1 0 31 20 then some x else best) none

/-- Key of a service entry. -/
def svcKey (q bank : Nat) (wtab : Bool) (idx : Nat) : Nat := ((q * 2 + bank) * 2 + if wtab then 1 else 0) * 4096 + idx
/-- A service entry. -/
def State.svcEntry (s : State) (q bank : Nat) (wtab : Bool) (idx : Nat) : BitVec 64 :=
  tget (fun _ => 0#64) s.qdrSvc (svcKey q bank wtab idx)
/-- Unit of flit f of an entry in period k (R277). -/
def svcUnit (e : BitVec 64) (f k : Nat) : Nat :=
  let n := e.toNat
  let ring := bitsOf n 43 32 + 1
  ofInt 20 (((bitsOf n 19 0 + f : Nat) : Int) + ((k % ring : Nat) : Int) * sint 16 (bitsOf n 63 48))
/-- `V` of a service entry. -/
def svcV (e : BitVec 64) : Bool := e.getLsbD 20

/-- The service tick u is 1 or 2 ticks after the last performed access (R276). -/
def State.qdrCrowded (s : State) (q u : Nat) : Bool :=
  let l := (s.qdr q).lastDone
  l != 0 && decide (u + 1 ≤ l + 2) && decide (l < u + 1)

/-- The result of a scheduled read is kept for its injection tick. -/
def State.qdrResult (s : State) (q t : Nat) (payload : Option (BitVec 256)) (cause : Nat) : State :=
  let x := s.qdr q
  s.setQdr q { x with reads := x.reads ++ [{ tick := t, payload := payload, cause := cause }] }

/-- The scheduled read whose service tick is u, if there is one: whether it was performed (R276, R279). -/
def State.qdrServeRead (s : State) (q u : Nat) (flips : List (Nat × Nat)) : State × Bool :=
  let t := u + 40
  match s.bankAt t with
  | none => (s, false)
  | some (bank, p, start) =>
    match injWinner (s.injEntries 6 (qdrNi q) bank p start t) with
    | none => (s, false)
    | some (i, _, f) =>
      let e := s.svcEntry q bank false i
      if s.bit (aQ_STATUS q) fQ_STATUS_SDRAINED then (s.qdrResult q t none 8, false)
      else if !s.qdrReady q then (s.qdrResult q t none 1, false)
      else if !svcV e then ((s.qdrErr q fQ_ERR_NOENT).qdrResult q t none 1, false)
      else if s.qdrCrowded q u then ((s.qdrErr q fQ_ERR_CROWD).qdrResult q t none 1, false)
      else
        let unit := svcUnit e f ((t - f - start) / p)
        match s.qdrWords q (4 * unit) flips 4 with
        | (v, none) => (v.qdrResult q t none 0xA, true)
        | (v, some ws) => (v.qdrResult q t (some (BitVec.ofNat 256 (leNat (ws.flatMap (fun w => natLe 8 w.toNat))))) 0, true)

/-- A scheduled write whose service tick is u: whether it was performed (R276, R279). -/
def State.qdrServeWrite (s : State) (q u : Nat) (read : Bool) (w : QdrWrite) : State × Bool :=
  let e := s.svcEntry q w.bank true w.idx
  if s.bit (aQ_STATUS q) fQ_STATUS_SDRAINED || !s.qdrReady q then (s, false)
  else if !svcV e then (s.qdrErr q fQ_ERR_NOENT, false)
  else if read || s.qdrCrowded q u then (s.qdrErr q fQ_ERR_CROWD, false)
  else
    let words := (List.range 4).map (fun i => w.payload.extractLsb' (64 * i) 64)
    (s.setQdrWords q (4 * svcUnit e w.flit w.period) words, true)

/-- Port A of pair q performs the scheduled accesses of this tick (R275, R276, R279). -/
def execQdrServiceTick (q : Fin 4) (flips : List (Fin 4 × Fin 72)) (s : State) : Host.Outcome State Fault Refusal :=
  let q := q.val
  let u := s.tickN
  let x := s.qdr q
  if !s.hubRuns then .next s
  else
    let done := x.reads.any (fun r => r.tick == u + 40)
    let (t, r) := if done then (s, false) else s.qdrServeRead q u (flips.map (fun f => (f.1.val, f.2.val)))
    let read := r || (x.lastDone == u + 1)
    let (t, w) := (x.writes.filter (fun w => w.tick == u)).foldl (fun (a : State × Bool) w =>
      let (b, d) := a.1.qdrServeWrite q u (read || a.2) w
      (b, a.2 || d)) (t, false)
    let y := t.qdr q
    .next (t.setQdr q { y with writes := y.writes.filter (fun w => w.tick != u)
                               lastDone := if r || w then u + 1 else y.lastDone })

/-! ### Best-effort requests (R281 to R283) -/

/-- The request waits at pair q. -/
def forPair (q : Nat) (r : MemReq) : Bool := classOf r.addr == .qdr && qdrPair r.addr == q

/-- A request performed on a ready pair: status and data (R281, R282). -/
def State.qdrPerform (s : State) (q : Nat) (flips : List (Nat × Nat)) (r : MemReq) : State × Nat × List Byte :=
  let l := qdrLocal r.addr
  let first := l / 8
  let n := if r.count = 0 then 0 else (l + r.count - 1) / 8 + 1 - first
  if r.write then
    let whole (i : Nat) : Bool := decide (l ≤ 8 * (first + i)) && decide (8 * (first + i) + 8 ≤ l + r.count)
    let part := (List.range n).filter (fun i => !whole i)
    let (t, old) := part.foldl (fun (a : State × List (Nat × Option W64)) i =>
      let (b, d) := a.1.qdrWord q (first + i) ((flips.filter (fun f => f.1 == i)).map (fun f => f.2))
      (b, a.2 ++ [(i, d)])) (s, [])
    if old.any (fun x => x.2.isNone) then (t, 1, [])
    else
      let word (i : Nat) : W64 :=
        let base := match old.find? (fun x => x.1 == i) with
          | some (_, some d) => natLe 8 d.toNat
          | _ => []
        BitVec.ofNat 64 (leNat ((List.range 8).map (fun b =>
          let p := 8 * (first + i) + b
          if l ≤ p ∧ p < l + r.count then r.data.getD (p - l) 0 else base.getD b 0)))
      (t.setQdrWords q first ((List.range n).map word), 0, [])
  else
    match s.qdrWords q first flips n with
    | (t, none) => (t, 1, [])
    | (t, some ws) => (t, 0, ((ws.flatMap (fun w => natLe 8 w.toNat)).drop (l - 8 * first)).take r.count)

/-- Pair q serves its oldest best-effort request (R274, R281, R283). -/
def execQdrBeRequest (q : Fin 4) (flips : List (Fin 32 × Fin 72)) (s : State) : Host.Outcome State Fault Refusal :=
  let q := q.val
  match (if s.hubRuns then s.mq.find? (forPair q) else none) with
  | none => .next s
  | some r =>
    let t := { s with mq := s.mq.erase r }
    let c := s.reg (aQ_CTRL q)
    let late := match (s.qdr q).disAt with
      | some d => decide (d ≤ r.arrivedAt)
      | none => false
    if s.qdrReady q = false ∨ getB c fQ_CTRL_EN = false ∨ late = true then .next (t.answerReq r 1 [])
    else if getB c fQ_CTRL_DIS && getB c fQ_CTRL_FORCE then .next (t.answerReq r 4 [])
    else
      let (u, status, data) := t.qdrPerform q (flips.map (fun f => (f.1.val, f.2.val))) r
      .next (u.answerReq r status data)

/-! ### Service tables (R277, R278) -/

/-- Service-table writes reach the bank that is the shadow bank, with no action armed and no tail (R278). -/
def State.svcWritable (s : State) (q : Nat) : Bool :=
  let bank := if s.bit (aQS_ADDR q) fQS_ADDR_BANK then 1 else 0
  bank == s.shBank && s.fld aPAT_STATUS fPAT_STATUS_ARMED == 0 && !s.bit aPAT_STATUS fPAT_STATUS_TAIL
/-- The addressed service entry exists: the write table has 2,048. -/
def State.svcValid (s : State) (q : Nat) : Bool :=
  !(s.bit (aQS_ADDR q) fQS_ADDR_WTAB && decide (2048 ≤ s.fld (aQS_ADDR q) fQS_ADDR_INDEX))
/-- Key of the addressed service entry. -/
def State.svcAt (s : State) (q : Nat) : Nat :=
  svcKey q (if s.bit (aQS_ADDR q) fQS_ADDR_BANK then 1 else 0) (s.bit (aQS_ADDR q) fQS_ADDR_WTAB) (s.fld (aQS_ADDR q) fQS_ADDR_INDEX)
/-- `INDEX` moves after an access of `QS_DATA_1` while `AINC` is 1. -/
def State.svcAdvance (s : State) (q : Nat) : State :=
  if s.bit (aQS_ADDR q) fQS_ADDR_AINC then s.setFld (aQS_ADDR q) fQS_ADDR_INDEX (s.fld (aQS_ADDR q) fQS_ADDR_INDEX + 1) else s

/-- A write of `QS_DATA_k`: word 0 waits for word 1, which stores both (R278). -/
def qsDataWrite (q k : Nat) (v : W32) (s : State) : Answer :=
  if !s.svcValid q then (s, .decode, 0#32)
  else if !s.svcWritable q then refuse s
  else if k = 0 then wrote (s.setReg (aQS_DATA_0 q) v)
  else
    let t := { s with qdrSvc := tput (fun _ => 0#64) s.qdrSvc (s.svcAt q) (v ++ s.reg (aQS_DATA_0 q)) }
    wrote (t.svcAdvance q)
/-- A read of `QS_DATA_k`. -/
def qsDataRead (q k : Nat) (s : State) : Answer :=
  if !s.svcValid q then (s, .decode, 0#32)
  else
    let e := tget (fun _ => 0#64) s.qdrSvc (s.svcAt q)
    (if k = 1 then s.svcAdvance q else s, .ok, e.extractLsb' (32 * k) 32)
/-- `QS_DATA_1` written by master m. -/
def execQsDataWrite (m : Rm) (q : Fin 4) (v : W32) (s : State) : Host.Outcome State Fault Refusal :=
  .next (ringPut m (aQS_DATA_1 q.val) v (qsDataWrite q.val 1 v) s)

/-! ### Training, disable and enable (R274, R283) -/

/-- Training starts (R274); a pair whose devices' clock is stopped does not train. -/
def State.qdrTrain (s : State) (q : Nat) : State :=
  if s.qdrState q = 3 then s else s.setFld (aQ_STATUS q) fQ_STATUS_STATE 0

/-- The scheduled service is disabled at a period boundary, or at once while no pattern runs; with `DIS`, after the accepted
requests (R283). -/
def State.qdrTick (s : State) (q : Nat) : State :=
  let c := s.reg (aQ_CTRL q)
  let st := s.reg (aQ_STATUS q)
  let boundary := !s.bit aPAT_STATUS fPAT_STATUS_RUN || s.period == 0 || s.tickN % s.period == 0
  let waits := match (s.qdr q).disAt with
    | some d => s.mq.any (fun r => forPair q r && decide (r.arrivedAt < d))
    | none => false
  if !boundary then s
  else if getB c fQ_CTRL_DIS && getB c fQ_CTRL_EN && !waits then
    let t := (s.qdrDrained q fQ_STATUS_SDRAINED).qdrDrained q fQ_STATUS_DRAINED
    t.setBit (aQ_CTRL q) fQ_CTRL_EN false
  else if getB c fQ_CTRL_SDIS && !getB st fQ_STATUS_SDRAINED then s.qdrDrained q fQ_STATUS_SDRAINED
  else s

/-- A write of `Q_CTRL` (R274, R283). -/
def qCtrlWrite (q : Nat) (v : W32) (s : State) : Answer :=
  let a := aQ_CTRL q
  let old := s.reg a
  let dis := getB v fQ_CTRL_DIS
  let others := dis || getB v fQ_CTRL_SDIS || getB v fQ_CTRL_FORCE
  let w := if dis && getB old fQ_CTRL_EN then putF (v &&& 0xF#32) fQ_CTRL_EN 1
    else if dis then putF (v &&& 0xF#32) fQ_CTRL_EN 0 else v &&& 0xF#32
  let t := s.setReg a w
  let x := t.qdr q
  let t := t.setQdr q { x with disAt := if dis then some (x.disAt.getD s.now) else none }
  let t := if getB v fQ_CTRL_EN && !others then
    (t.setBit (aQ_STATUS q) fQ_STATUS_DRAINED false).setBit (aQ_STATUS q) fQ_STATUS_SDRAINED false else t
  wrote (if getB v fQ_CTRL_RETRAIN then t.qdrTrain q else t)

/-- `Q_CTRL` written by master m with some of its fields replaced. -/
def qCtrlPut (m : Rm) (q : Nat) (f : W32 → W32) (s : State) : State :=
  let v := f (s.reg (aQ_CTRL q))
  ringPut m (aQ_CTRL q) v (qCtrlWrite q v) s

/-- `RETRAIN` (R274). -/
def execQdrRetrain (m : Rm) (q : Fin 4) (s : State) : Host.Outcome State Fault Refusal :=
  .next (qCtrlPut m q.val (fun v => putF v fQ_CTRL_RETRAIN 1) s)
/-- `SDIS` = 1 (R283). -/
def execQdrSlotDisable (m : Rm) (q : Fin 4) (s : State) : Host.Outcome State Fault Refusal :=
  .next (qCtrlPut m q.val (fun v => putF v fQ_CTRL_SDIS 1) s)
/-- `DIS` = 1 (R283). -/
def execQdrDisable (m : Rm) (q : Fin 4) (force : Bool) (s : State) : Host.Outcome State Fault Refusal :=
  .next (qCtrlPut m q.val (fun v => putF (putF v fQ_CTRL_DIS 1) fQ_CTRL_FORCE (if force then 1 else 0)) s)
/-- `EN` = 1 with the other bits at 0 (R283). -/
def execQdrEnable (m : Rm) (q : Fin 4) (s : State) : Host.Outcome State Fault Refusal :=
  .next (qCtrlPut m q.val (fun _ => 1#32) s)

/-- Training of pair q ends (R274). -/
def execQdrTrainEnd (q : Fin 4) (ok : Bool) (s : State) : Host.Outcome State Fault Refusal :=
  let q := q.val
  if s.hubRuns && s.qdrState q == 0 && s.domOn (36 + q) && s.fld (aQ_LB q) fQ_LB_DEPTH == 0 then
    if ok then .next (s.setFld (aQ_STATUS q) fQ_STATUS_STATE 1)
    else .next ((s.setFld (aQ_STATUS q) fQ_STATUS_STATE 2).qdrErr q fQ_ERR_TRN_FAIL)
  else .next s

/-! ### Loop-backs (R418) -/

/-- `DEPTH` may be written: the pair is drained, or its training failed. -/
def State.qdrQuiet (s : State) (q : Nat) : Bool :=
  (s.bit (aQ_STATUS q) fQ_STATUS_DRAINED && s.bit (aQ_STATUS q) fQ_STATUS_SDRAINED) || s.qdrState q == 2

/-- A write of `Q_LB` (R418): `GO` runs at the depth in force; a new depth needs the quiet state, and 0 starts training. -/
def qLbWrite (q : Nat) (v : W32) (s : State) : Answer :=
  let a := aQ_LB q
  let old := s.fld a fQ_LB_DEPTH
  let new := getF v fQ_LB_DEPTH
  let go := getB v fQ_LB_GO
  if (new ≠ old ∧ s.qdrQuiet q = false) ∨ (go = true ∧ (s.bit a fQ_LB_BUSY = true ∨ new = 0)) then refuse s
  else
    let t := s.plainWrite a v
    let t := if new = 0 ∧ old ≠ 0 then (t.setBit a fQ_LB_BUSY false).qdrTrain q else t
    if go then wrote ((List.range 5).foldl (fun t k => t.setReg (aQ_LB_FAIL q k) 0) (t.setBit a fQ_LB_BUSY true))
    else wrote t

/-- `Q_LB.GO` written by master m, `DEPTH` kept. -/
def execQdrLbGo (m : Rm) (q : Fin 4) (s : State) : Host.Outcome State Fault Refusal :=
  let v := putF (BitVec.ofNat 32 (s.fld (aQ_LB q.val) fQ_LB_DEPTH)) fQ_LB_GO 1
  .next (ringPut m (aQ_LB q.val) v (qLbWrite q.val v) s)
/-- `Q_LB.DEPTH` written by master m. -/
def execQdrLbDepthWrite (m : Rm) (q : Fin 4) (depth : BitVec 2) (s : State) : Host.Outcome State Fault Refusal :=
  .next (ringPut m (aQ_LB q.val) (depth.setWidth 32) (qLbWrite q.val (depth.setWidth 32)) s)
/-- The run ends; `fails` are the bits that failed (R418). -/
def execQdrLbDone (q : Fin 4) (fails : BitVec 144) (s : State) : Host.Outcome State Fault Refusal :=
  let q := q.val
  let a := aQ_LB q
  if s.hubRuns && s.bit a fQ_LB_BUSY then
    let t := (s.setBit a fQ_LB_BUSY false).setBit a fQ_LB_DONE true
    .next ((List.range 5).foldl (fun t k => t.setReg (aQ_LB_FAIL q k) (BitVec.ofNat 32 (fails.toNat >>> (32 * k)))) t)
  else .next s

end Sys2Proof.Machine
end

