-- ==== Sys2Proof/Machine/Dram.lean ====
section
/-! DEFINITION. The LP5 DRAM sets (R286 to R301, R419) with their Reed–Solomon code in service (R303, R304), and the keyed mix
with its counter and tag cache (R306 to R317). -/

namespace Sys2Proof.Machine

/-- The record of set d. -/
def State.ds (s : State) (d : Nat) : Ds := tget (fun _ => Ds.empty) s.dsets d
/-- Set the record of set d. -/
def State.setDs (s : State) (d : Nat) (x : Ds) : State := { s with dsets := tput (fun _ => Ds.empty) s.dsets d x }
/-- `DR_STATUS.STATE`: 0 uninitialised, 1 initialising, 2 initialised, 3 ready, 4 self-refresh, 5 drained. -/
def State.dramState (s : State) (d : Nat) : Nat := s.fld (aDR_STATUS d) fDR_STATUS_STATE
/-- Set `DR_STATUS.STATE`. -/
def State.setDramState (s : State) (d v : Nat) : State := s.setFld (aDR_STATUS d) fDR_STATUS_STATE v
/-- Set a bit of `DR_FLAG`, with its event (R301). -/
def State.drFlag (s : State) (d : Nat) (f : Fld) : State := s.flagRaise (aDR_FLAG d) f (192 + 32 * d + f.lsb)
/-- Every set is in state n. -/
def State.allSets (s : State) (n : Nat) : Bool := (List.range 4).all (fun d => s.dramState d == n)

/-! ### Addresses (R287, R311) -/

/-- Bank of a local address: group × 4 + bank. -/
def dramBank (a : Nat) : Nat :=
  (bitsOf a 11 10 ^^^ bitsOf a 23 22) * 4 + (bitsOf a 13 12 ^^^ bitsOf a 25 24)
/-- Row of a local address. -/
def dramRow (a : Nat) : Nat := a % 2 ^ 36 / 2 ^ 20
/-- Number of a line within its set: row, group, bank, burst. -/
def dramLine (a : Nat) : Nat := dramRow a * 1024 + dramBank a * 64 + bitsOf a 19 14
/-- Byte address of line n of set d, below 2^36. -/
def dramLineAddr (d n : Nat) : Nat :=
  let row := n / 1024
  2 ^ 20 * row + 2 ^ 14 * (n % 64) + (n / 64 % 4 ^^^ row / 16 % 4) * 2 ^ 12 + (n / 256 % 4 ^^^ row / 4 % 4) * 2 ^ 10 +
    (d ^^^ row % 4) * 2 ^ 8
/-- Lines of a set (R286). -/
def State.dramLines (s : State) : Nat := 2 ^ (24 + s.fld (aDR_CFG 0) fDR_CFG_DENS)
/-- The four sets are fitted alike, and a local address lies within the memory fitted (R17, R287). -/
def State.dramFitted (s : State) (a : Nat) : Bool :=
  let dens := s.fld (aDR_CFG 0) fDR_CFG_DENS
  dens != 3 && (List.range 4).all (fun d => s.fld (aDR_CFG d) fDR_CFG_DENS == dens) &&
    bitsOf a 39 36 == 0 && decide (a % 2 ^ 36 < 2 ^ (34 + dens))
/-- First metadata line of a set (R311). -/
def State.metaFirst (s : State) : Nat := 15 * s.dramLines / 16
/-- Model address of the 64 check bytes of the line at byte address a (R302). -/
def dramChk (a : Nat) : Nat := 0x2000000000000 + a / 256 * 64

/-- A set's contents are lost at the addresses that satisfy p: they read as memory never written. -/
def State.dramLose (s : State) (d : Nat) (p : Nat → Bool) : State :=
  let gone (a : Nat) : Bool := dramSet a == d && p a
  { s with mem := tkeep (fun k =>
      if k < 2 ^ 36 then !gone k
      else if 0x2000000000000 ≤ k ∧ k < 0x2000400000000 then !gone ((k - 0x2000000000000) / 64 * 256)
      else true) s.mem }

/-! ### Lines, errors and the error log (R292, R296, R303, R304) -/

/-- Put an error on a symbol of a line and its check bytes as the devices return them (R302). -/
def addSymErr (x : List Byte × List Byte) (e : SymErr) : List Byte × List Byte :=
  let j := e.word.val
  let p := e.dev.val
  if p < 8 then
    let i := 16 * (j / 2) + 2 * p + j % 2
    (listSet x.1 i (x.1.getD i 0 ^^^ e.err), x.2)
  else
    let i := 2 * j + (p - 8)
    (x.1, listSet x.2 i (x.2.getD i 0 ^^^ e.err))

/-- A record of the error log, when it is on and 4,096 ticks have passed since the last (R296). Its write carries the master ID of the
request it records (DESIGN CHOICE, unsafe, log entry 127). -/
def State.errRecord (s : State) (d kind addr master : Nat) (pos : Byte) : State :=
  let c := s.reg (aDR_ELOG_CTRL d)
  let wait := match (s.ds d).lastLog with
    | some t => decide (s.now < t + 4096)
    | none => false
  if !getB c fDR_ELOG_CTRL_EN || wait then s
  else
    let wp := getF c fDR_ELOG_CTRL_WP
    let base := (s.reg (aDR_ELOG_LO d)).toNat + 4294967296 * (s.reg (aDR_ELOG_HI d)).toNat
    let bytes := natLe 8 s.clk.tick.toNat ++ natLe 8 (addr / 256 * 256) ++
      [BitVec.ofNat 8 kind, BitVec.ofNat 8 master, pos, BitVec.ofNat 8 d] ++ List.replicate 236 0#8
    let r : MemReq := { write := true, addr := base + 256 * wp, count := 256, data := bytes, master := master, urgent := false
                        spill := true, origin := .errorLog d, arrivedAt := s.now }
    let last := wp == getF c fDR_ELOG_CTRL_SIZE
    let t := s.setDs d { s.ds d with lastLog := some s.now }
    let t := { t with mq := t.mq ++ [r] }
    let t := t.setFld (aDR_ELOG_CTRL d) fDR_ELOG_CTRL_WP (if last then 0 else wp + 1)
    if last then t.drFlag d fDR_FLAG_ELOG_WRAP else t

/-- Erased position of set d, while erasure mode is active (R304). -/
def State.erased (s : State) (d : Nat) : Option Nat :=
  if s.bit (aDR_ECC_CTRL d) fDR_ECC_CTRL_ERASE then some (s.fld (aDR_ECC_CTRL d) fDR_ECC_CTRL_POS) else none
/-- Erasure mode is entered on a position, with its event (R304, R320). -/
def State.enterErasure (s : State) (d pos : Nat) : State :=
  let t := s.setFld (aDR_ECC_CTRL d) fDR_ECC_CTRL_POS pos
  t.flagRaise (aDR_ECC_CTRL d) fDR_ECC_CTRL_ERASE (192 + 32 * d + 17)

/-- A corrected symbol is counted against its position, which may make the position suspect (R292, R304). -/
def State.countSymbol (d : Nat) (s : State) (pos : Nat) : State :=
  if s.erased d = some pos then s
  else
    let s := s.satInc (aDR_CE d (pos / 2)) (if pos % 2 = 1 then fDR_CE_POS_HI else fDR_CE_POS_LO)
    let x := s.ds d
    let n := tget (fun _ => 0) x.ceCount pos + 1
    let s := s.setDs d { x with ceCount := tput (fun _ => 0) x.ceCount pos n }
    if n = s.fld (aDR_ECC_CTRL d) fDR_ECC_CTRL_THR then
      let t := (s.setFld (aDR_ECC_STAT d) fDR_ECC_STAT_SPOS pos).flagRaise (aDR_ECC_STAT d) fDR_ECC_STAT_SUSPECT (192 + 32 * d + 16)
      if t.bit (aDR_ECC_CTRL d) fDR_ECC_CTRL_AUTO && !t.bit (aDR_ECC_CTRL d) fDR_ECC_CTRL_ERASE then t.enterErasure d pos else t
    else s

/-- What a read of a line finds: its bytes where it is correctable, and the devices corrected. -/
structure LineRead where
  data : Option (List Byte)
  devs : List Nat
  deriving DecidableEq, Repr

/-- A line is read at byte address a (below 2^36) with the errors its devices return; errors are counted (R292, R303). -/
def State.readLine (s : State) (d a : Nat) (noise : List SymErr) : State × LineRead :=
  let (line, chk) := noise.foldl addSymErr (s.bytes a 256, s.bytes (dramChk a) 64)
  match rsLine line chk (s.erased d) with
  | (_, _, true) =>
    let t := (s.satInc (aDR_UE d) fDR_UE_COUNT).drFlag d fDR_FLAG_UE
    let t := if (t.erased d).isSome then t.flagRaise (aDR_ECC_STAT d) fDR_ECC_STAT_EXTRA (192 + 32 * d + 18) else t
    (t, { data := none, devs := [] })
  | (l, [], false) => (s, { data := some l, devs := [] })
  | (l, devs, false) => ((devs.foldl (State.countSymbol d) s).drFlag d fDR_FLAG_CE, { data := some l, devs := devs })

/-- Position byte of a record: one device, or 0xFF for more (R296). -/
def recordPos (devs : List Nat) : Byte :=
  match devs.eraseDups with
  | [p] => BitVec.ofNat 8 p
  | _ => 0xFF#8

/-- A read line is logged: corrected, or uncorrectable under the kind given (R296). -/
def State.logRead (s : State) (d addr master bad : Nat) (r : LineRead) : State :=
  match r.data with
  | none => s.errRecord d bad addr master 0xFF#8
  | some _ => if r.devs = [] then s else s.errRecord d 1 addr master (recordPos r.devs)

/-- A line is written with fresh check symbols (R291, R302). -/
def State.writeLine (s : State) (a : Nat) (bytes : List Byte) : State :=
  (s.setBytes a bytes).setBytes (dramChk a) (rsEncode bytes)

/-! ### Rows and activates (R289, R294) -/

/-- The row of address a is open. -/
def State.rowOpen (s : State) (d a : Nat) : Bool :=
  tget (fun _ => none) (s.ds d).openRow (dramBank a) == some (dramRow a)
/-- Sub-window of the activate count that a tick lies in (R294): 2^(WIN - 3) CK cycles of two ticks. -/
def State.subWindow (s : State) (d : Nat) : Nat := s.now / 2 ^ (s.fld (aDR_RH_CFG d) fDR_RH_CFG_WIN - 2)

/-- An activate that a request causes is counted, and may throttle its master (R294). -/
def State.countActivate (s : State) (d a master : Nat) : State :=
  let bank := dramBank a
  let w := s.subWindow d
  let x := s.ds d
  let acts := tkeep (fun k => decide (w < k / 16 + 8)) x.acts
  let acts := tput (fun _ => 0) acts (16 * w + bank) (tget (fun _ => 0) acts (16 * w + bank) + 1)
  let n := acts.foldl (fun n e => if e.1 % 16 = bank then n + e.2 else n) 0
  let thr := s.fld (aDR_RH_CFG d) fDR_RH_CFG_THR
  let t := s.setDs d { x with acts := acts }
  if thr = 0 ∨ n < thr then t
  else
    let until' := s.now + 512 * s.fld (aDR_RH_CFG d) fDR_RH_CFG_PEN
    let t := t.setDs d { t.ds d with throttled := (x.throttled.filter (fun e => e.1 != master)) ++ [(master, until')] }
    let t := (t.setFld (aDR_RH_LOG d) fDR_RH_LOG_MASTER master).setFld (aDR_RH_LOG d) fDR_RH_LOG_BANK bank
    ((t.satInc (aDR_RH_LOG d) fDR_RH_LOG_COUNT).setBit (aDR_STATUS d) fDR_STATUS_THROTTLING true).drFlag d fDR_FLAG_THROTTLE

/-- The row of address a is opened where it is not, and closed after the access with `IDLE` = 0; an activate counts against the
master that caused it, but not one of the reserved pool (R289, R294). -/
def State.openFor (s : State) (d a master : Nat) (pool : Bool) : State :=
  let bank := dramBank a
  let t := if s.rowOpen d a || pool then s else s.countActivate d a master
  let x := t.ds d
  let row := if t.fld (aDR_PAGE d) fDR_PAGE_IDLE = 0 then none else some (dramRow a)
  t.setDs d { x with openRow := tput (fun _ => none) x.openRow bank row
                     lastUse := tput (fun _ => 0) x.lastUse bank s.now }

/-! ### The counter and tag cache (R311, R314) -/

/-- Cache index of a metadata line. -/
def kmIndex (l : KmLine) : Nat := (l.line % 256 ^^^ 64 * l.set) % 256

/-- A dirty line is written back to its set. -/
def State.kmBack (s : State) (l : KmLine) : State :=
  if l.dirty then s.writeLine (dramLineAddr l.set l.line) l.data else s
/-- Every dirty line is written back and stays cached (R314). -/
def State.kmWriteBack (s : State) : State :=
  let t := s.km.foldl State.kmBack s
  { t with km := t.km.map (fun l => { l with dirty := false }) }
/-- Set d's lines are written back and dropped (R315). -/
def State.kmDropSet (s : State) (d : Nat) : State :=
  let t := (s.km.filter (fun l => l.set == d)).foldl State.kmBack s
  { t with km := t.km.filter (fun l => l.set != d) }
/-- Dirty cached lines. -/
def State.kmDirty (s : State) : Nat := (s.km.filter (fun l => l.dirty)).length

/-- A metadata line through the cache: its bytes, none where the line in DRAM is uncorrectable (R314). -/
def State.kmFetch (s : State) (d mline master : Nat) (pool : Bool) (noise : List SymErr) : State × Option (List Byte) :=
  let mine (l : KmLine) : Bool := l.set == d && l.line == mline
  match s.km.find? mine with
  | some l => ({ s with km := dropFirst mine s.km ++ [l] }, some l.data)
  | none =>
    let t := s.satInc aKM_MISS fKM_MISS_COUNT
    let a := dramLineAddr d mline
    let (t, r) := (t.openFor d a master pool).readLine d a noise
    let t := t.logRead d a master 2 r
    match r.data with
    | none => (t, none)
    | some bytes =>
      let new : KmLine := { set := d, line := mline, data := bytes, dirty := false }
      let same (l : KmLine) : Bool := kmIndex l == kmIndex new
      let t := if (t.km.filter same).length < 8 then t
        else
          let u := match t.km.find? same with
            | some l => if l.dirty then (t.openFor l.set (dramLineAddr l.set l.line) master pool).kmBack l else t
            | none => t
          { u with km := dropFirst same u.km }
      ({ t with km := t.km ++ [new] }, some bytes)

/-- Write counter, tag and key ID of slot i of a metadata line (R311). -/
def kmEntry (line : List Byte) (i : Nat) : W64 × W32 × Nat :=
  let at' (o n : Nat) := leNat ((line.drop o).take n)
  (BitVec.ofNat 64 (at' (12 * i) 8), BitVec.ofNat 32 (at' (12 * i + 8) 4),
   (line.getD (240 + i / 2) 0).toNat / 2 ^ (4 * (i % 2)) % 16)
/-- A metadata line with slot i replaced. -/
def kmPut (line : List Byte) (i : Nat) (ctr : W64) (tag : W32) (key : Nat) : List Byte :=
  let bytes := natLe 8 ctr.toNat ++ natLe 4 tag.toNat
  let l := (List.range 12).foldl (fun l k => listSet l (12 * i + k) (bytes.getD k 0)) line
  let b := (l.getD (240 + i / 2) 0).toNat
  let other := if i % 2 = 0 then b / 16 * 16 + key % 16 else b % 16 + key % 16 * 16
  listSet l (240 + i / 2) (BitVec.ofNat 8 other)
/-- The cached metadata line of a slot takes new contents and is dirty. -/
def State.kmStore (s : State) (d mline i : Nat) (ctr : W64) (tag : W32) (key : Nat) : State :=
  { s with km := s.km.map (fun l =>
      if l.set = d ∧ l.line = mline then { l with data := kmPut l.data i ctr tag key, dirty := true } else l) }

/-! ### Requests (R288, R289, R291, R294, R312) -/

/-- The request waits at set d. -/
def forSet (d : Nat) (r : MemReq) : Bool := classOf r.addr == .dram && dramSet r.addr == d
/-- Requests to set d that hold a place, oldest first, and whether the place is in the reserved pool (R288). -/
def takePools : List MemReq → Nat → Nat → List (MemReq × Bool)
  | [], _, _ => []
  | r :: rest, gen, rsv =>
    if (r.write && r.spill) && decide (rsv < 32) then (r, true) :: takePools rest gen (rsv + 1)
    else if gen < 64 then (r, false) :: takePools rest (gen + 1) rsv
    else takePools rest gen rsv
@[inherit_doc takePools]
def State.placed (s : State) (d : Nat) : List (MemReq × Bool) := takePools (s.mq.filter (forSet d)) 0 0

/-- The master is throttled at set d now (R294). -/
def State.throttledNow (s : State) (d m : Nat) : Bool :=
  (s.ds d).throttled.any (fun x => x.1 == m && decide (s.now < x.2))
/-- Placed requests that may be served: none overtakes an earlier request of its master to its line, and a throttled master's
activates wait (R109, R294). -/
def State.servable (s : State) (d : Nat) : List (MemReq × Bool) → List (MemReq × Bool) → List (MemReq × Bool)
  | [], _ => []
  | x :: rest, before =>
    let ok := !before.any (fun y => y.1.master == x.1.master && y.1.addr / 256 % 2 ^ 28 == x.1.addr / 256 % 2 ^ 28) &&
      (x.2 || s.rowOpen d x.1.addr || !s.throttledNow d x.1.master)
    if ok then x :: s.servable d rest (before ++ [x]) else s.servable d rest (before ++ [x])
/-- Of the servable requests, those that no older one of their bank that has waited 1,024 CK cycles comes before (R288). -/
def notStarving (now : Nat) : List (MemReq × Bool) → List MemReq → List (MemReq × Bool)
  | [], _ => []
  | x :: rest, before =>
    let late := before.any (fun y => dramBank y.addr == dramBank x.1.addr && decide (y.arrivedAt + 2048 ≤ now))
    if late then notStarving now rest (before ++ [x.1]) else x :: notStarving now rest (before ++ [x.1])
/-- The request the set serves next: row hits first, then the oldest (R288). -/
def State.dramNext (s : State) (d : Nat) : Option (MemReq × Bool) :=
  let l := notStarving s.now (s.servable d (s.placed d) []) []
  match l.find? (fun x => s.rowOpen d x.1.addr) with
  | some x => some x
  | none => l.head?

/-- A line with the bytes of a write merged in (R291). -/
def mergeLine (old : List Byte) (r : MemReq) : List Byte :=
  let start := r.addr % 256
  (List.range 256).map (fun i => if start ≤ i ∧ i < start + r.count then r.data.getD (i - start) 0 else old.getD i 0)
/-- The write covers its whole line. -/
def wholeLine (r : MemReq) : Bool := r.addr % 256 == 0 && r.count == 256
/-- The bytes a read asks for. -/
def linePart (line : List Byte) (r : MemReq) : List Byte := (line.drop (r.addr % 256)).take r.count

/-- A request performed with the mix off (R291, R292): status and data. -/
def State.dramPlain (s : State) (d : Nat) (pool : Bool) (noise : List SymErr) (r : MemReq) : State × Nat × List Byte :=
  let a := r.addr % 2 ^ 36 / 256 * 256
  let s := s.openFor d r.addr r.master pool
  if r.write && wholeLine r then (s.writeLine a (mergeLine [] r), 0, [])
  else
    let (t, l) := s.readLine d a noise
    let t := t.logRead d r.addr r.master (if r.write then 3 else 2) l
    match l.data with
    | none => (t, 1, [])
    | some bytes => if r.write then (t.writeLine a (mergeLine bytes r), 0, []) else (t, 0, linePart bytes r)

/-- Bit k of `KM_ERR` is set for a request, with its event and the record of the failure (R312, R313, R317, R320). -/
def State.kmErr (s : State) (k addr master : Nat) : State :=
  let t := if k = 3 then (s.setBit aKM_ERR ⟨3, 1⟩ true).raise 354
    else s.flagRaise aKM_ERR ⟨k, 1⟩ (if k = 0 then 352 else if k < 3 then 353 else 355)
  let t := t.setReg aKM_EINFO (BitVec.ofNat 32 (master % 256 * 256 + k))
  (t.setReg aKM_ELINE_LO (BitVec.ofNat 32 (addr / 256 * 256))).setReg aKM_ELINE_HI (BitVec.ofNat 32 (addr / 4294967296 % 65536))

/-- A mixed line is written under its new counter (R312). -/
def State.kmWrite (s : State) (d n kid : Nat) (ctr : W64) (a : Nat) (plain : List Byte) : State :=
  let line := a / 256
  let c := ctr + 1
  let mixed := mixLine (s.slotKey kid) line c plain
  (s.writeLine a mixed).kmStore d (s.metaFirst + n / 20) (n % 20) c (lineTag (s.slotKey kid) line c mixed) kid

/-- A request performed with the mix on: the first outcome of R312 that applies. -/
def State.dramMixed (s : State) (d : Nat) (pool : Bool) (noise metaNoise : List SymErr) (r : MemReq) : State × Nat × List Byte :=
  let a := r.addr % 2 ^ 36 / 256 * 256
  let n := dramLine a
  let kid := bitsOf r.addr 43 40
  let whole := r.write && wholeLine r
  let part := r.write && !whole
  let access (t : State) : State := t.openFor d r.addr r.master pool
  let fail (t : State) (k : Nat) : State × Nat × List Byte :=
    let t := t.kmErr k r.addr r.master
    if part then
      let (pos, t) := t.fresh 8
      (t.errRecord d 3 r.addr r.master pos, 1, [])
    else (t, 1, [])
  if s.metaFirst ≤ n then (s.kmErr 4 r.addr r.master, 1, [])
  else if !s.slotUsable kid then fail s 2
  else
    match s.kmFetch d (s.metaFirst + n / 20) r.master pool metaNoise with
    | (t, none) => fail t 5
    | (t, some line) =>
      let (ctr, tag, key) := kmEntry line (n % 20)
      if ctr = 0 then
        if r.write then ((access t).kmWrite d n kid ctr a (mergeLine [] r), 0, []) else (t, 0, List.replicate r.count 0#8)
      else if ctr = 0xFFFFFFFFFFFFFFFF#64 ∧ r.write then fail t 3
      else if whole then ((access t).kmWrite d n kid ctr a (mergeLine [] r), 0, [])
      else if key ≠ kid then fail t 1
      else
        let (t, l) := (access t).readLine d a noise
        let t := t.logRead d r.addr r.master (if part then 3 else 2) l
        match l.data with
        | none => (t, 1, [])
        | some mixed =>
          if lineTag (t.slotKey kid) (a / 256) ctr mixed ≠ tag then fail t 0
          else
            let plain := unmixLine (t.slotKey kid) (a / 256) ctr mixed
            if part then (t.kmWrite d n kid ctr a (mergeLine plain r), 0, []) else (t, 0, linePart plain r)

/-- A disable completes once no accepted request is left (R123, R300). -/
def State.dramDrain (s : State) (d : Nat) : State :=
  match (s.ds d).disAt with
  | none => s
  | some t =>
    if s.dramState d ≠ 3 ∨ s.mq.any (fun r => forSet d r && decide (r.arrivedAt < t)) then s
    else
      let u := ((s.setDramState d 5).setBit (aDR_STATUS d) fDR_STATUS_DRAINED true).drFlag d fDR_FLAG_DRAINED
      (u.setBit (aDR_CTRL d) fDR_CTRL_EN false).setDs d { u.ds d with disAt := none }

/-- Set d answers one request: at once with bus error while it is not ready or disabled, or beyond the memory fitted; else
the next by R288, performed to its end. -/
def execDramRequest (d : Fin 4) (noise metaNoise : List SymErr) (s : State) : Host.Outcome State Fault Refusal :=
  let d := d.val
  let late (r : MemReq) : Bool := match (s.ds d).disAt with
    | some t => decide (t ≤ r.arrivedAt)
    | none => false
  let take (r : MemReq) : State := { s with mq := s.mq.erase r }
  let fill := s.bit aKM_CTRL fKM_CTRL_EN && !s.bit aKM_STATUS fKM_STATUS_READY
  if !s.hubRuns then .next s
  else
    match s.mq.find? (fun r => forSet d r && (s.dramState d != 3 || late r || fill || !s.dramFitted r.addr)) with
    | some r => .next (((take r).answerReq r 1 []).dramDrain d)
    | none =>
      if s.bit (aDR_CTRL d) fDR_CTRL_DIS && s.bit (aDR_CTRL d) fDR_CTRL_FORCE then
        match s.mq.find? (forSet d) with
        | none => .next s
        | some r => .next (((take r).answerReq r 4 []).dramDrain d)
      else
        match s.dramNext d with
        | none => .next s
        | some (r, pool) =>
          let t := take r
          let (u, status, data) :=
            if s.bit aKM_CTRL fKM_CTRL_EN then t.dramMixed d pool noise metaNoise r else t.dramPlain d pool noise r
          .next ((u.answerReq r status data).dramDrain d)

/-! ### Timed events (R289, R293 to R295) -/

/-- A throttle's penalty ends (R294). -/
def execThrottleEnd (d : Fin 4) (master : BitVec 8) (s : State) : Host.Outcome State Fault Refusal :=
  let d := d.val
  let x := s.ds d
  let l := x.throttled.filter (fun e => !(e.1 == master.toNat && decide (e.2 ≤ s.now)))
  if s.hubRuns then .next ((s.setDs d { x with throttled := l }).setBit (aDR_STATUS d) fDR_STATUS_THROTTLING (l != []))
  else .next s

/-- Ticks of the refresh interval in force (R295): 488, 244 or 122 ns. -/
def State.refInterval (s : State) (d : Nat) : Nat := 732 / 2 ^ s.fld (aDR_STATUS d) fDR_STATUS_RATE
/-- A bank's row is closed. -/
def State.closeBank (s : State) (d bank : Nat) : State :=
  let x := s.ds d
  s.setDs d { x with openRow := tput (fun _ => none) x.openRow bank none }
/-- The set refreshes itself: from the end of `INIT` on, but for self-refresh (R293). -/
def State.refreshes (s : State) (d : Nat) : Bool := s.dramState d == 2 || s.dramState d == 3 || s.dramState d == 5

/-- One per-bank refresh command (R293): the two banks it covers are closed. -/
def execPerBankRefresh (d : Fin 4) (s : State) : Host.Outcome State Fault Refusal :=
  let d := d.val
  let x := s.ds d
  if s.hubRuns && s.refreshes d && decide (x.refAt ≤ s.now) then
    let t := s.setDs d { x with refAt := x.refAt + s.refInterval d, refNext := (x.refNext + 1) % 8 }
    .next ((t.closeBank d x.refNext).closeBank d (x.refNext + 8))
  else .next s

/-- A bank with no access for `IDLE` CK cycles is precharged (R289). -/
def execRowIdlePrecharge (d : Fin 4) (bank : Fin 16) (s : State) : Host.Outcome State Fault Refusal :=
  let d := d.val
  let idle := 2 * s.fld (aDR_PAGE d) fDR_PAGE_IDLE
  if s.hubRuns && decide (tget (fun _ => 0) (s.ds d).lastUse bank.val + idle ≤ s.now) then .next (s.closeBank d bank.val)
  else .next s

/-- The refresh-rate fields of the ten channels are read: 0 nominal or lower, 1 twice, 2 four times, 3 beyond the range
(R295); the poll interval of R304 ends. -/
def execRefreshRatePoll (d : Fin 4) (rates : List (Fin 4)) (s : State) : Host.Outcome State Fault Refusal :=
  let d := d.val
  let x := s.ds d
  let busy := s.bit (aDR_TRN d) fDR_TRN_BUSY || s.bit (aDR_MR d) fDR_MR_BUSY
  if s.hubRuns && (s.dramState d == 3 || s.dramState d == 5) && decide (x.pollAt ≤ s.now) && !busy then
    let need := (rates.take 10).foldl (fun m r => max m r.val) 0
    let t := s.setDs d { x with pollAt := x.pollAt + 24000000, ceCount := [] }
    let rate := min need 2
    let t := if rate = t.fld (aDR_STATUS d) fDR_STATUS_RATE then t
      else (t.setFld (aDR_STATUS d) fDR_STATUS_RATE rate).drFlag d fDR_FLAG_RATE
    if need = 3 then .next ((t.setBit (aDR_STATUS d) fDR_STATUS_HOT true).drFlag d fDR_FLAG_HOT)
    else .next (t.setBit (aDR_STATUS d) fDR_STATUS_HOT false)
  else .next s

/-! ### Initialisation, training, enable and disable (R299, R300) -/

/-- A write of `DR_CTRL`. -/
def drCtrlWrite (d : Nat) (v : W32) (s : State) : Answer :=
  let a := aDR_CTRL d
  let st := s.dramState d
  let dis := getB v fDR_CTRL_DIS
  let rise := getB v fDR_CTRL_EN && !(st == 3 && s.bit a fDR_CTRL_EN)
  let init := getB v fDR_CTRL_INIT
  if (init = true ∧ st ≠ 0) ∨ (rise = true ∧ ((st ≠ 2 ∧ st ≠ 5) ∨ dis = true ∨ getB v fDR_CTRL_FORCE = true ∨
      s.fld (aDR_LB d) fDR_LB_DEPTH ≠ 0)) then refuse s
  else
    let t := s.plainWrite a v
    let x := t.ds d
    let t := t.setDs d { x with disAt := if dis && st == 3 then some (x.disAt.getD s.now) else none }
    let t := if init then t.setDramState d 1 else t
    if rise then
      let t := ((t.setDramState d 3).setBit (aDR_STATUS d) fDR_STATUS_DRAINED false).setBit (aDR_STATUS d) fDR_STATUS_SR_HELD false
      let t := if st = 2 then t.setDs d { t.ds d with pollAt := s.now + 24000000 } else t
      wrote (t.drFlag d fDR_FLAG_READY)
    else wrote t

/-- `DR_CTRL` written by master m with some of its fields replaced. -/
def drCtrlPut (m : Rm) (d : Nat) (f : W32 → W32) (s : State) : State :=
  let v := f (s.reg (aDR_CTRL d))
  ringPut m (aDR_CTRL d) v (drCtrlWrite d v) s
/-- `INIT` (R299). -/
def execDramInit (m : Rm) (d : Fin 4) (s : State) : Host.Outcome State Fault Refusal :=
  .next (drCtrlPut m d.val (fun v => putF v fDR_CTRL_INIT 1) s)
/-- `EN` = 1 with `DIS` and `FORCE` 0 (R299). -/
def execDramEnable (m : Rm) (d : Fin 4) (s : State) : Host.Outcome State Fault Refusal :=
  .next (drCtrlPut m d.val (fun v => putF (putF (putF v fDR_CTRL_DIS 0) fDR_CTRL_FORCE 0) fDR_CTRL_EN 1) s)
/-- `DIS` = 1, with or without `FORCE` (R300). -/
def execDramDisable (m : Rm) (d : Fin 4) (force : Bool) (s : State) : Host.Outcome State Fault Refusal :=
  .next (drCtrlPut m d.val (fun v => putF (putF v fDR_CTRL_DIS 1) fDR_CTRL_FORCE (if force then 1 else 0)) s)

/-- Initialisation ends; refresh begins (R293, R299). -/
def execDramInitComplete (d : Fin 4) (s : State) : Host.Outcome State Fault Refusal :=
  let d := d.val
  if s.hubRuns && s.dramState d == 1 then
    let t := s.setDramState d 2
    .next (t.setDs d { t.ds d with openRow := [], refNext := 0, refAt := s.now + s.refInterval d })
  else .next s

/-- A mode register access or a helper run is allowed: in state initialised, ready or drained (R295, R299). -/
def State.helpersFree (s : State) (d : Nat) : Bool :=
  s.refreshes d && !s.bit (aDR_TRN d) fDR_TRN_BUSY && !s.bit (aDR_MR d) fDR_MR_BUSY

/-- A write of `DR_MR` performs the access; what a channel returns to a read is the channel's (R299). -/
def drMrWrite (d : Nat) (v : W32) (s : State) : Answer :=
  if !s.helpersFree d then refuse s
  else
    let t := s.plainWrite (aDR_MR d) v
    if getB v fDR_MR_WR then wrote t
    else
      let (op, t) := t.fresh 8
      wrote (t.setFld (aDR_MR d) fDR_MR_OP op.toNat)
/-- `DR_MR` written by master m. -/
def execModeRegisterAccess (m : Rm) (d : Fin 4) (v : W32) (s : State) : Host.Outcome State Fault Refusal :=
  .next (ringPut m (aDR_MR d.val) v (drMrWrite d.val v) s)

/-- A write of `DR_TRN`: `GO` starts a run and clears the comparators; in a loop only `MODE` 5 runs (R299, R419). -/
def drTrnWrite (d : Nat) (v : W32) (s : State) : Answer :=
  let mode := getF v fDR_TRN_MODE
  let looped := s.fld (aDR_LB d) fDR_LB_DEPTH != 0
  let free := if looped then mode == 5 && !s.bit (aDR_TRN d) fDR_TRN_BUSY else s.helpersFree d && decide (1 ≤ mode ∧ mode ≤ 5)
  if !getB v fDR_TRN_GO then (if s.bit (aDR_TRN d) fDR_TRN_BUSY then refuse s else wrote (s.plainWrite (aDR_TRN d) v))
  else if !free then refuse s
  else
    let t := (s.plainWrite (aDR_TRN d) v).setBit (aDR_TRN d) fDR_TRN_BUSY true
    wrote ((List.range 10).foldl (fun t k => t.setReg (aDR_CMP d k) 0) t)
/-- `DR_TRN.GO` written by master m (R299). -/
def execTrainingRun (m : Rm) (d : Fin 4) (mode : BitVec 3) (devs : BitVec 10) (s : State) :
    Host.Outcome State Fault Refusal :=
  let v := putF (putF (putF 0#32 fDR_TRN_MODE mode.toNat) fDR_TRN_DEVS devs.toNat) fDR_TRN_GO 1
  .next (ringPut m (aDR_TRN d.val) v (drTrnWrite d.val v) s)

/-- `n` free bytes, and the state with the counter advanced. -/
def State.freeBytes (s : State) : Nat → List Byte × State
  | 0 => ([], s)
  | n + 1 =>
    let (b, t) := s.fresh 8
    let (l, u) := t.freeBytes n
    (b :: l, u)

/-- Symbol of lane byte j % 2 in beat j / 2 under the fixed lane pattern (R299). -/
def patByte (pat j : Nat) : Byte := if pat.testBit (j / 2) then 0xFF#8 else 0#8
/-- Line n of set d overwritten by an array check on the channels of `devs`: with the fixed pattern, or with what the PRBS
lanes hold there (R299). -/
def State.arrayLine (d : Nat) (devs : Nat) (s : State) (n : Nat) : State :=
  let a := dramLineAddr d n
  let pg := s.reg (aDR_PG d)
  let (free, s) := if getB pg fDR_PG_PRBS then s.freeBytes 320 else ([], s)
  let sym (p j : Nat) : Byte := if getB pg fDR_PG_PRBS then free.getD (32 * p + j) 0 else patByte (getF pg fDR_PG_PAT) j
  let line := s.bytes a 256
  let chk := s.bytes (dramChk a) 64
  let line := (List.range 256).map (fun i =>
    let p := i % 16 / 2
    if devs.testBit p then sym p (2 * (i / 16) + i % 2) else line.getD i 0)
  let chk := (List.range 64).map (fun i => if devs.testBit (8 + i % 2) then sym (8 + i % 2) (i / 2) else chk.getD i 0)
  (s.setBytes a line).setBytes (dramChk a) chk

/-- A run ends: the comparators of the channels taking part hold what it recorded, and `MODE` 5 outside a loop has
overwritten lines 0 to 1,023 (R299, R419). -/
def execTrainingRunDone (d : Fin 4) (fails : List (BitVec 18)) (s : State) : Host.Outcome State Fault Refusal :=
  let d := d.val
  let c := s.reg (aDR_TRN d)
  if s.hubRuns && getB c fDR_TRN_BUSY then
    let mode := getF c fDR_TRN_MODE
    let devs := getF c fDR_TRN_DEVS
    let mask : Nat := if mode = 1 then 0x7F else if mode = 2 then 1 else 0x3FFFF
    let t := s.setBit (aDR_TRN d) fDR_TRN_BUSY false
    let t := (List.range 10).foldl (fun t k =>
      t.setReg (aDR_CMP d k) (BitVec.ofNat 32 (if devs.testBit k then (fails.getD k 0).toNat &&& mask else 0))) t
    let t := if mode = 5 ∧ t.fld (aDR_LB d) fDR_LB_DEPTH = 0 then (List.range 1024).foldl (State.arrayLine d devs) t else t
    .next (t.drFlag d fDR_FLAG_TRN_DONE)
  else .next s

/-- The addressed item of the delay store exists (R299). -/
def dlyExists (v : W32) : Bool :=
  let dev := getF v fDR_DLY_ADDR_DEV
  let bit := getF v fDR_DLY_ADDR_BIT
  match getF v fDR_DLY_ADDR_KIND with
  | 0 => decide (dev < 10 ∧ bit < 18)
  | 1 => decide (dev < 10 ∧ bit < 18)
  | 2 => decide ((dev = 10 ∨ dev = 11) ∧ bit < 8)
  | _ => decide (dev < 10 ∧ bit = 0)
/-- Key of the addressed item. -/
def dlyKey (v : W32) : Nat := getF v fDR_DLY_ADDR_DEV * 65536 + getF v fDR_DLY_ADDR_KIND * 256 + getF v fDR_DLY_ADDR_BIT
/-- A write of `DR_DLY_DATA`. -/
def drDlyWrite (d : Nat) (v : W32) (s : State) : Answer :=
  let a := s.reg (aDR_DLY_ADDR d)
  let x := s.ds d
  if 4 < getF a fDR_DLY_ADDR_KIND then (s, .decode, 0#32)
  else if dlyExists a then
    wrote (s.setDs d { x with delays := tput (fun _ => 0) x.delays (dlyKey a) (BitVec.ofNat 7 (getF v fDR_DLY_DATA_VALUE)) })
  else wrote s
/-- A read of `DR_DLY_DATA`: what an item that does not exist reads as is open. -/
def drDlyRead (d : Nat) (s : State) : Answer :=
  let a := s.reg (aDR_DLY_ADDR d)
  if 4 < getF a fDR_DLY_ADDR_KIND then (s, .decode, 0#32)
  else if dlyExists a then (s, .ok, (tget (fun _ => 0) (s.ds d).delays (dlyKey a)).setWidth 32)
  else
    let (v, t) := s.fresh 7
    (t, .ok, v.setWidth 32)

/-- A write of `DR_CFG`: in state uninitialised only. -/
def drCfgWrite (d : Nat) (v : W32) (s : State) : Answer :=
  if s.dramState d = 0 then wrote (s.plainWrite (aDR_CFG d) v) else refuse s
/-- A write of `DR_RH_CFG`: a window outside 16 to 26 leaves the field; a new window starts its counts afresh (R294). -/
def drRhCfgWrite (d : Nat) (v : W32) (s : State) : Answer :=
  let a := aDR_RH_CFG d
  let old := s.fld a fDR_RH_CFG_WIN
  let win := getF v fDR_RH_CFG_WIN
  let win := if 16 ≤ win ∧ win ≤ 26 then win else old
  let t := s.plainWrite a (putF v fDR_RH_CFG_WIN win)
  wrote (if win = old then t else t.setDs d { t.ds d with acts := [] })
/-- A write of `DR_ELOG_CTRL` (R296): `EN` needs a base in the DRAM range, `SIZE` stays while `EN` is 1. -/
def drElogCtrlWrite (d : Nat) (v : W32) (s : State) : Answer :=
  let a := aDR_ELOG_CTRL d
  let on := s.bit a fDR_ELOG_CTRL_EN
  let base := (s.reg (aDR_ELOG_LO d)).toNat + 4294967296 * (s.reg (aDR_ELOG_HI d)).toNat
  let sets := getB v fDR_ELOG_CTRL_EN && !on
  if (sets = true ∧ (classOf base ≠ .dram ∨ bitsOf base 39 36 ≠ 0)) ∨
      (on = true ∧ getF v fDR_ELOG_CTRL_SIZE ≠ s.fld a fDR_ELOG_CTRL_SIZE) then refuse s
  else
    let t := s.plainWrite a v
    wrote (if sets then t.setFld a fDR_ELOG_CTRL_WP 0 else t)

/-- A write of `DR_ECC_CTRL` (R304). -/
def drEccWrite (d : Nat) (v : W32) (s : State) : Answer :=
  let a := aDR_ECC_CTRL d
  if getB v fDR_ECC_CTRL_ERASE && decide (9 < getF v fDR_ECC_CTRL_POS) then refuse s
  else
    let t := s.plainWrite a v
    wrote (if getB v fDR_ECC_CTRL_ERASE && !s.bit a fDR_ECC_CTRL_ERASE then t.raise (192 + 32 * d + 17) else t)
/-- `DR_ECC_CTRL` written by master m. -/
def execDrEccCtrlWrite (m : Rm) (d : Fin 4) (v : W32) (s : State) : Host.Outcome State Fault Refusal :=
  .next (ringPut m (aDR_ECC_CTRL d.val) v (drEccWrite d.val v) s)

/-- A write of `DR_LB` (R419): into a loop through self-refresh, and back to the state before it. -/
def drLbWrite (d : Nat) (v : W32) (s : State) : Answer :=
  let a := aDR_LB d
  let old := s.fld a fDR_LB_DEPTH
  let new := getF v fDR_LB_DEPTH
  let st := s.dramState d
  let x := s.ds d
  if old = 0 then
    if st ≠ 2 ∧ st ≠ 5 then refuse s
    else if new = 0 then wrote s
    else wrote (((s.plainWrite a v).setDs d { x with heldFrom := st, openRow := [] }).setDramState d 4)
  else if new ≠ 0 then wrote (s.plainWrite a v)
  else
    let t := (s.plainWrite a v).setDramState d x.heldFrom
    wrote (t.setDs d { x with refAt := s.now + s.refInterval d })
/-- `DR_LB.DEPTH` written by master m. -/
def execDrLbWrite (m : Rm) (d : Fin 4) (depth : BitVec 2) (s : State) : Host.Outcome State Fault Refusal :=
  .next (ringPut m (aDR_LB d.val) (depth.setWidth 32) (drLbWrite d.val (depth.setWidth 32)) s)

/-! ### Power (R297, R298, R315) -/

/-- Self-refresh begins: the segments masked are lost, but the metadata's while the mix is on (R297, R315). -/
def State.dramMaskLoss (s : State) (d : Nat) : State :=
  let mask := s.fld (aDR_PASR d) fDR_PASR_MASK
  let mask := if s.bit aKM_CTRL fKM_CTRL_EN then mask % 128 else mask
  s.dramLose d (fun a => mask.testBit (a * 8 / (256 * 4 * s.dramLines)))
/-- Set d enters retention: self-refresh (R297). -/
def State.dramSleep (s : State) (d : Nat) : State :=
  let s := s.kmDropSet d
  let st := s.dramState d
  if st = 0 ∨ st = 1 then s
  else
    let t := (s.dramMaskLoss d).setDs d { s.ds d with heldFrom := st, openRow := [] }
    (t.setDramState d 4).drFlag d fDR_FLAG_SR
/-- Set d is back from retention: in the state before it, ready where it was ready (R297). -/
def State.dramWake (s : State) (d : Nat) : State :=
  if s.dramState d ≠ 4 ∨ s.fld (aDR_LB d) fDR_LB_DEPTH ≠ 0 then s
  else
    let x := s.ds d
    let t := (s.setDramState d x.heldFrom).setDs d { x with refAt := s.now + s.refInterval d }
    if x.heldFrom = 3 then t.drFlag d fDR_FLAG_READY else t
/-- Registers of set d. -/
def inSet (d a : Nat) : Bool := a / 65536 == 6 * 65536 + 0x30 + d
/-- Set d goes off: the controller loses its state; with `KEEP` the rim holds the channels in self-refresh (R298). -/
def State.dramOff (s : State) (d : Nat) : State :=
  let s := s.kmDropSet d
  let st := s.dramState d
  let held := s.bit (aDR_CTRL d) fDR_CTRL_KEEP && st != 0 && st != 1
  let t := if held then (if st = 4 then s else s.dramMaskLoss d) else s.dramLose d (fun _ => true)
  let t := (t.resetRegs (inSet d)).setDs d Ds.empty
  t.setBit (aDR_STATUS d) fDR_STATUS_SR_HELD held

/-! ### The keyed mix's control (R307, R308, R314, R316, R317) -/

/-- Retire, flush or fill is running (R316). -/
def State.kmBusy (s : State) : Bool :=
  s.bit aKM_STATUS fKM_STATUS_INIT || s.bit aKM_STATUS fKM_STATUS_FLUSHING || s.bit aKM_STATUS fKM_STATUS_RETIRING
/-- A write of `KM_CTRL`: `EN` changes only in the states of R307; `FLUSH` and `RETIRE` start (R314, R316). -/
def kmCtrlWrite (v : W32) (s : State) : Answer :=
  let old := s.bit aKM_CTRL fKM_CTRL_EN
  let new := getB v fKM_CTRL_EN
  let retire := getB v fKM_CTRL_RETIRE
  let calm := (List.range 4).all (fun d => s.dramState d == 0 || s.dramState d == 2)
  let ready := (List.range 4).any (fun d => s.dramState d == 3)
  if (new = true ∧ old = false ∧ calm = false) ∨ (new = false ∧ old = true ∧ ready = true) ∨
      (retire = true ∧ s.kmBusy = true) then refuse s
  else
    let t := s.plainWrite aKM_CTRL v
    let t := if old && !new then
        { (t.setBit aKM_STATUS fKM_STATUS_READY false).setBit aKM_STATUS fKM_STATUS_INIT false with km := [] }
      else t
    let t := if getB v fKM_CTRL_FLUSH || retire then t.setBit aKM_STATUS fKM_STATUS_FLUSHING true else t
    if retire then
      wrote ((t.setBit aKM_STATUS fKM_STATUS_RETIRING true).setFld aKM_STATUS fKM_STATUS_RID (getF v fKM_CTRL_RET_ID))
    else wrote t
/-- `KM_CTRL` written by master m with some of its fields replaced. -/
def kmCtrlPut (m : Rm) (f : W32 → W32) (s : State) : State :=
  let v := f (s.reg aKM_CTRL)
  ringPut m aKM_CTRL v (kmCtrlWrite v) s
/-- `EN` written (R307). -/
def execKeyedMixEnable (m : Rm) (en : Bool) (s : State) : Host.Outcome State Fault Refusal :=
  .next (kmCtrlPut m (fun v => putF v fKM_CTRL_EN (if en then 1 else 0)) s)
/-- `FLUSH` written (R314). -/
def execKmFlush (m : Rm) (s : State) : Host.Outcome State Fault Refusal :=
  .next (kmCtrlPut m (fun v => putF v fKM_CTRL_FLUSH 1) s)
/-- `RETIRE` written with `RET_ID` (R316). -/
def execKmRetire (m : Rm) (k : Fin 16) (s : State) : Host.Outcome State Fault Refusal :=
  .next (kmCtrlPut m (fun v => putF (putF v fKM_CTRL_RET_ID k.val) fKM_CTRL_RETIRE 1) s)

/-- All four sets are ready: the zero-fill begins (R307). -/
def execKmFillStart (s : State) : Host.Outcome State Fault Refusal :=
  let due := s.bit aKM_CTRL fKM_CTRL_EN && !s.bit aKM_STATUS fKM_STATUS_READY && !s.bit aKM_STATUS fKM_STATUS_INIT
  if s.hubRuns && due && s.allSets 3 then .next (s.setBit aKM_STATUS fKM_STATUS_INIT true)
  else .next s
/-- The fill ends: the metadata region reads zero (R307). -/
def execKmFillComplete (s : State) : Host.Outcome State Fault Refusal :=
  if s.hubRuns && s.bit aKM_STATUS fKM_STATUS_INIT then
    let first := s.metaFirst * 1024
    let t := (List.range 4).foldl (fun t d => t.dramLose d (fun a => decide (first ≤ a))) s
    let t := { (t.setBit aKM_STATUS fKM_STATUS_INIT false) with km := [] }
    .next (t.flagRaise aKM_STATUS fKM_STATUS_READY 356)
  else .next s
/-- The write-back completes (R314). -/
def execKmFlushComplete (s : State) : Host.Outcome State Fault Refusal :=
  if s.hubRuns && s.bit aKM_STATUS fKM_STATUS_FLUSHING then
    .next ((s.kmWriteBack.setBit aKM_STATUS fKM_STATUS_FLUSHING false).raise 357)
  else .next s

/-- A metadata line with every entry of key ID k zeroed (R316). -/
def kmClear (k : Nat) (line : List Byte) : List Byte :=
  (List.range 20).foldl (fun l i =>
    let (ctr, _, key) := kmEntry l i
    if key = k ∧ ctr ≠ 0 then kmPut l i 0 0 0 else l) line
/-- Metadata lines that hold anything, by set and number: any other holds no entry with a counter. -/
def State.metaLines (s : State) : List (Nat × Nat) :=
  let first := s.metaFirst * 1024
  let size := s.dramLines * 1024
  ((s.mem.filterMap (fun e =>
    if first ≤ e.1 ∧ e.1 < size then some (dramSet e.1, dramLine e.1) else none)) ++ s.km.map (fun l => (l.set, l.line))).eraseDups
/-- One metadata line is scanned through the cache for key ID k (R316). -/
def State.kmScan (k : Nat) (s : State) (x : Nat × Nat) : State :=
  match s.km.find? (fun l => l.set == x.1 && l.line == x.2) with
  | some l =>
    let new := kmClear k l.data
    if new = l.data then s
    else { s with km := s.km.map (fun c => if c.set = x.1 ∧ c.line = x.2 then { c with data := new, dirty := true } else c) }
  | none =>
    let a := dramLineAddr x.1 x.2
    let (t, r) := s.readLine x.1 a []
    match r.data with
    | none => t
    | some bytes => if kmClear k bytes = bytes then t else t.writeLine a (kmClear k bytes)
/-- The scan ends: no entry of the key ID is left, the key is zero and its slot out of use (R316). -/
def execKmRetireComplete (s : State) : Host.Outcome State Fault Refusal :=
  if s.hubRuns && s.bit aKM_STATUS fKM_STATUS_RETIRING && !s.bit aKM_STATUS fKM_STATUS_FLUSHING then
    let k := s.fld aKM_STATUS fKM_STATUS_RID
    let t := s.metaLines.foldl (State.kmScan k) s
    let (miss, t) := t.fresh 32
    let t := t.setReg aKM_MISS miss
    let t := (List.range 4).foldl (fun t w => t.setReg (aKM_KEY (4 * k + w)) 0) t
    .next (((t.setBit (aKM_SLOT k) fKM_SLOT_VALID false).setBit aKM_STATUS fKM_STATUS_RETIRING false).raise 358)
  else .next s

/-- Key slot k is being retired. -/
def State.slotRetiring (s : State) (k : Nat) : Bool :=
  s.bit aKM_STATUS fKM_STATUS_RETIRING && s.fld aKM_STATUS fKM_STATUS_RID == k
/-- A write of `KM_SLOT_k` (R308). -/
def kmSlotWrite (k : Nat) (v : W32) (s : State) : Answer :=
  if s.slotRetiring k then refuse s else wrote (s.plainWrite (aKM_SLOT k) v)
/-- `KM_SLOT_k` written by master m. -/
def execKmSlotWrite (m : Rm) (k : Fin 16) (v : W32) (s : State) : Host.Outcome State Fault Refusal :=
  .next (ringPut m (aKM_SLOT k.val) v (kmSlotWrite k.val v) s)
/-- A write of word i of the key store, four words a slot (R308). -/
def kmKeyWrite (i : Nat) (v : W32) (s : State) : Answer :=
  if s.bit (aKM_SLOT (i / 4)) fKM_SLOT_VALID then refuse s else wrote (s.setReg (aKM_KEY i) v)
/-- `KM_KEY_k_w` written by master m. -/
def execKmKeyWrite (m : Rm) (k : Fin 16) (w : Fin 4) (v : W32) (s : State) : Host.Outcome State Fault Refusal :=
  .next (ringPut m (aKM_KEY (4 * k.val + w.val)) v (kmKeyWrite (4 * k.val + w.val) v) s)

/-- Local address in `KM_MADDR`, its key-ID bits ignored. -/
def State.kmAddr (s : State) : Nat :=
  let a := (s.reg aKM_MADDR_LO).toNat + 4294967296 * (s.reg aKM_MADDR_HI).toNat
  a - 2 ^ 40 * bitsOf a 43 40
/-- A write of `KM_MCMD` by master m (R317). -/
def kmMcmdWrite (m : Rm) (noise : List SymErr) (v : W32) (s : State) : Answer :=
  let op := getF v fKM_MCMD_OP
  let a := s.kmAddr
  let d := dramSet a
  let n := dramLine a
  if m = .config then refuse s
  else if op = 0 ∨ op = 3 then wrote (s.plainWrite aKM_MCMD v)
  else if !s.bit aKM_STATUS fKM_STATUS_READY then refuse s
  else if classOf a ≠ .dram ∨ s.dramFitted a = false ∨ s.metaFirst ≤ n then (s, .decode, 0#32)
  else if s.dramState d ≠ 3 then wrote s
  else
    let t := if op = 2 then s.plainWrite aKM_MCMD v else s
    match t.kmFetch d (s.metaFirst + n / 20) (rmId m) false noise with
    | (t, none) => wrote (t.kmErr 5 a (rmId m))
    | (t, some line) =>
      if op = 1 then
        let (ctr, tag, key) := kmEntry line (n % 20)
        let t := (t.setReg aKM_MCTR_LO (ctr.extractLsb' 0 32)).setReg aKM_MCTR_HI (ctr.extractLsb' 32 32)
        wrote ((t.setReg aKM_MTAG tag).setFld aKM_MCMD fKM_MCMD_KEY key)
      else
        wrote (t.kmStore d (s.metaFirst + n / 20) (n % 20) (t.reg aKM_MCTR_HI ++ t.reg aKM_MCTR_LO) (t.reg aKM_MTAG)
          (getF v fKM_MCMD_KEY))
/-- The metadata command read (R317). -/
def execMetadataRead (m : Rm) (metaNoise : List SymErr) (s : State) : Host.Outcome State Fault Refusal :=
  .next (ringPut m aKM_MCMD 1#32 (kmMcmdWrite m metaNoise 1#32) s)
/-- The metadata command write (R317). -/
def execMetadataWrite (m : Rm) (key : BitVec 4) (metaNoise : List SymErr) (s : State) : Host.Outcome State Fault Refusal :=
  let v := putF 2#32 fKM_MCMD_KEY key.toNat
  .next (ringPut m aKM_MCMD v (kmMcmdWrite m metaNoise v) s)

end Sys2Proof.Machine
end

