-- ==== Sys2Proof/Machine/Analog.lean ====
section
/-! DEFINITION. Die A's analog blocks and switch matrix: swaps (R329 to R333), sampling runs (R334 to R336), calibration (R337 to
R340), the endpoint's stream table (R342, R344) and the analog fabric clocks (R348). -/

namespace Sys2Proof.Machine

/-- The record of block n. -/
def State.ab (s : State) (n : Nat) : Ab := tget (fun _ => Ab.empty) s.ana.blocks n
/-- Set the record of block n. -/
def State.setAb (s : State) (n : Nat) (x : Ab) : State :=
  { s with ana := { s.ana with blocks := tput (fun _ => Ab.empty) s.ana.blocks n x } }
/-- Set a bit of `AB_FLAG`, with its event (R350). -/
def State.abFlag (s : State) (n : Nat) (f : Fld) : State := s.flagRaise (aAB_FLAG n) f (1729 + 2 * n)
/-- Die A's clocks run, it is not in reset, and the domain is on. -/
def State.anaRuns (s : State) (dom : Nat) : Bool := s.runs && !s.inReset 7 && s.domOn dom
/-- Set `AB_STATUS.STATE`: 0 idle, 1 waiting for the first sample, 2 running, 3 calibrating. -/
def State.setAbState (s : State) (n v : Nat) : State := s.setFld (aAB_STATUS n) fAB_STATUS_STATE v

/-! ### The configuration check (R324, R329, R330, R332, R421) -/

/-- The words a swap would leave active: blocks' amplifier, filter and input words, and the pin words. -/
structure AnaCfg where
  amp : List W32
  flt : List W32
  inp : List W32
  pins : List W32
  deriving DecidableEq, Repr

/-- The configuration that a swap would produce (R332). -/
def State.swapCfg (s : State) (w : Swap) : AnaCfg :=
  let pick (sh act : Nat → Nat) (n : Nat) : W32 := s.reg (if w.mask.getLsbD n then sh n else act n)
  { amp := (List.range 48).map (pick aAB_CFG_AMP aAB_ACT_AMP)
    flt := (List.range 48).map (pick aAB_CFG_FLT aAB_ACT_FLT)
    inp := (List.range 48).map (pick aAB_CFG_IN aAB_ACT_IN)
    pins := (List.range 32).map (fun p => s.reg (if w.mat then aSW_PIN p else aSW_ACT p)) }

/-- Resistor and capacitor units of an amplifier mode (R323). -/
def ampUnits (mode g : Nat) : Nat × Nat :=
  match mode with
  | 0 => (0, 0)
  | 1 => (9 + g, 0)
  | _ => (0, 9 + g)
/-- Units that a block's words use (R323 to R325). -/
def blockUnits (amp flt : W32) : Nat × Nat :=
  let one := if getB amp fAB_CFG_AMP_EN1 then ampUnits (getF amp fAB_CFG_AMP_MODE1) (getF amp fAB_CFG_AMP_G1) else (0, 0)
  let fr := getF flt fAB_CFG_FLT_FR + 1
  let fc := getF flt fAB_CFG_FLT_FC + 1
  let two := if !getB amp fAB_CFG_AMP_EN2 then (0, 0)
    else match getF flt fAB_CFG_FLT_FMODE with
      | 0 => ampUnits (getF amp fAB_CFG_AMP_MODE2) (getF amp fAB_CFG_AMP_G2)
      | 1 => (2 * fr, 2 * fc)
      | _ => (0, fr + 2 * fc)
  (one.1 + two.1, one.2 + two.2)
/-- A block's units add up to more than 64 in either resource (R324). -/
def unitsOver (amp flt : W32) : Bool := decide (64 < (blockUnits amp flt).1) || decide (64 < (blockUnits amp flt).2)

/-- An input selection is valid in block n (R329). -/
def inOk (n c : Nat) : Bool := decide (c ≤ 0x10) || (c == 0x11 && n != 0) || (c == 0x12 && n != 47)
/-- Block n's input word makes valid selections (R329). -/
def selectsOk (n : Nat) (w : W32) : Bool :=
  inOk n (getF w fAB_CFG_IN_INP) && inOk n (getF w fAB_CFG_IN_INB) && decide (getF w fAB_CFG_IN_OUT ≤ 0x10)

/-- Buses that a pin word's closed switches name. -/
def pinBuses (w : W32) : List Nat :=
  (if getB w fSW_PIN_ENA then [getF w fSW_PIN_BUSA] else []) ++ (if getB w fSW_PIN_ENB then [getF w fSW_PIN_BUSB] else [])
/-- Join two nets: every bus of the one takes the other's lower name. -/
def joinNets (l : List Nat) (w : W32) : List Nat :=
  match pinBuses w with
  | [a, b] =>
    let x := l.getD a a
    let y := l.getD b b
    l.map (fun v => if v = max x y then min x y else v)
  | _ => l
/-- The net of each bus: its lowest bus (R330). -/
def netsOf (pins : List W32) : List Nat := pins.foldl joinNets (List.range 16)
/-- Buses that block outputs drive. -/
def drivenBuses (inp : List W32) : List Nat :=
  inp.filterMap (fun w => let o := getF w fAB_CFG_IN_OUT; if 1 ≤ o ∧ o ≤ 0x10 then some (o - 1) else none)

/-- The lowest bus of a net with two drivers, or of the reference loop's net with one or with a closed pin switch (R330,
R421). -/
def State.badNet (s : State) (c : AnaCfg) : Option Nat :=
  let nets := netsOf c.pins
  let on (b : Nat) : List Nat := (drivenBuses c.inp).filter (fun x => nets.getD x x == b)
  let loop := s.reg aREF_LOOP
  let loopNet := nets.getD (getF loop fREF_LOOP_BUS) 0
  let pinned (b : Nat) : Bool := c.pins.any (fun w => (pinBuses w).any (fun x => nets.getD x x == b))
  (List.range 16).find? (fun b =>
    decide (2 ≤ (on b).length) ||
      (getB loop fREF_LOOP_EN && loopNet == b && (nets.getD b b == b) && (!(on b).isEmpty || pinned b)))

/-- First failure of a configuration: code, block and bus of `SW_SWAP_STAT` (R332). -/
def State.swapFault (s : State) (c : AnaCfg) : Option (Nat × Nat × Nat) :=
  match (List.range 48).find? (fun n => unitsOver (c.amp.getD n 0) (c.flt.getD n 0)) with
  | some n => some (3, n, 0)
  | none =>
    match (List.range 48).find? (fun n => !selectsOk n (c.inp.getD n 0)) with
    | some n => some (2, n, 0)
    | none => (s.badNet c).map (fun b => (1, 0x3F, b))

/-! ### Swaps (R331 to R333, R359) -/

/-- Blocks of `SW_SWAP_MASK`. -/
def State.swapMask (s : State) : BitVec 48 := (s.reg aSW_SWAP_MASK_HI).setWidth 16 ++ s.reg aSW_SWAP_MASK_LO
/-- A write of `SW_SWAP_CTRL` (R331). -/
def swapCtrlWrite (v : W32) (s : State) : Answer :=
  let w := s.reg64 aSW_SWAP_AT_LO aSW_SWAP_AT_HI
  let armed := s.ana.swap
  let arm := getB v fSW_SWAP_CTRL_ARM
  let cancel := getB v fSW_SWAP_CTRL_CANCEL
  let edge := getB v fSW_SWAP_CTRL_SRC
  let mat := getB v fSW_SWAP_CTRL_MAT
  let tooLate := match armed with
    | some x => match x.at' with
      | some t => decide (t < s.tickN + 256)
      | none => false
    | none => false
  if (cancel = true ∧ tooLate = true) ∨
      (arm = true ∧ ((armed.isSome = true ∧ cancel = false) ∨ (edge = false ∧ w < s.tickN + 256) ∨
        (s.swapMask = 0 ∧ mat = false))) then refuse s
  else
    let t := s.plainWrite aSW_SWAP_CTRL v
    let t := if cancel then ({ t with ana := { t.ana with swap := none } }).setBit aSW_SWAP_STAT fSW_SWAP_STAT_ARMED false else t
    if arm then
      let x : Swap := { mask := s.swapMask, mat := mat, at' := if edge then none else some w }
      wrote (({ t with ana := { t.ana with swap := some x } }).setBit aSW_SWAP_STAT fSW_SWAP_STAT_ARMED true)
    else wrote t
/-- `ARM` written by master m, with `SRC` and `MAT` (R331). -/
def execSwapArm (m : Rm) (edge mat : Bool) (s : State) : Host.Outcome State Fault Refusal :=
  let v := putF (putF (putF 0#32 fSW_SWAP_CTRL_MAT (if mat then 1 else 0)) fSW_SWAP_CTRL_SRC (if edge then 1 else 0)) fSW_SWAP_CTRL_ARM 1
  .next (ringPut m aSW_SWAP_CTRL v (swapCtrlWrite v) s)
/-- `CANCEL` written by master m, `SRC` and `MAT` kept (R331). -/
def execSwapCancel (m : Rm) (s : State) : Host.Outcome State Fault Refusal :=
  let v := putF (s.reg aSW_SWAP_CTRL) fSW_SWAP_CTRL_CANCEL 1
  .next (ringPut m aSW_SWAP_CTRL v (swapCtrlWrite v) s)

/-- A rising edge of `AC_SWAP` fixes W (R331). -/
def execAcSwapEdge (s : State) : Host.Outcome State Fault Refusal :=
  match s.ana.swap with
  | some { mask := mask, mat := mat, at' := none } =>
    if s.anaRuns 56 then
      let w := (s.tickN + 16 + 15) / 16 * 16
      .next { s with ana := { s.ana with swap := some { mask := mask, mat := mat, at' := some w } } }
    else .next s
  | _ => .next s

/-- Block n takes its shadow words on tick W (R332, R333). -/
def State.swapBlock (w : Nat) (s : State) (n : Nat) : State :=
  let x := s.ab n
  let old := s.reg (aAB_ACT_ADC n)
  let t := ((s.setReg (aAB_ACT_AMP n) (s.reg (aAB_CFG_AMP n))).setReg (aAB_ACT_FLT n) (s.reg (aAB_CFG_FLT n))).setReg
    (aAB_ACT_ADC n) (s.reg (aAB_CFG_ADC n))
  let t := t.setReg (aAB_ACT_IN n) (s.reg (aAB_CFG_IN n))
  t.setAb n { x with before := (x.before.filter (fun e => decide (w ≤ e.1 + 512))) ++ [(w, old)], settleAt := w
                     settleLeft := s.fld (aAB_CFG_ADC n) fAB_CFG_ADC_SETTLE }

/-- The record of converter n. -/
def State.ic (s : State) (n : Nat) : Ic := tget (fun _ => Ic.empty) s.ana.ics n
/-- Set the record of converter n. -/
def State.setIc (s : State) (n : Nat) (x : Ic) : State :=
  { s with ana := { s.ana with ics := tput (fun _ => Ic.empty) s.ana.ics n x } }
/-- A swap with the matrix disturbs a conversion in its input integration (R359). -/
def State.disturb (s : State) (n : Nat) : State :=
  let x := s.ic n
  match x.conv with
  | some c => if c.phase = 0 then s.setIc n { x with conv := some { c with disturbed := true } } else s
  | none => s

/-- On tick W the configuration is checked, and the swap takes place or is refused (R332). -/
def execSwapTake (s : State) : Host.Outcome State Fault Refusal :=
  match s.ana.swap with
  | some { mask := mask, mat := mat, at' := some w } =>
    if s.anaRuns 56 && decide (w ≤ s.tickN) then
      let t := ({ s with ana := { s.ana with swap := none } }).setBit aSW_SWAP_STAT fSW_SWAP_STAT_ARMED false
      match s.swapFault (s.swapCfg { mask := mask, mat := mat, at' := some w }) with
      | some (code, block, bus) =>
        let t := (t.setFld aSW_SWAP_STAT fSW_SWAP_STAT_REFUSE code).setFld aSW_SWAP_STAT fSW_SWAP_STAT_BLOCK block
        .next (((t.setFld aSW_SWAP_STAT fSW_SWAP_STAT_BUS bus).setBit aSW_SWAP_STAT fSW_SWAP_STAT_REFUSED true).raise 1825)
      | none =>
        let t := ((List.range 48).filter (fun n => mask.getLsbD n)).foldl (State.swapBlock w) t
        let t := if mat then
            let u := (List.range 32).foldl (fun t p => t.setReg (aSW_ACT p) (t.reg (aSW_PIN p))) t
            (List.range 16).foldl State.disturb u
          else t
        .next ((t.setBit aSW_SWAP_STAT fSW_SWAP_STAT_DONE true).raise 1824)
    else .next s
  | _ => .next s

/-- A shadow word of block n is locked while an armed swap includes it (R331). -/
def State.swapLocks (s : State) (n : Nat) : Bool :=
  match s.ana.swap with
  | some x => x.mask.getLsbD n
  | none => false
/-- A write of a shadow word of block n. -/
def abShadowWrite (n a : Nat) (v : W32) (s : State) : Answer :=
  if s.swapLocks n then refuse s else wrote (s.plainWrite a v)
/-- A write of `SW_PIN_p`. -/
def swPinWrite (a : Nat) (v : W32) (s : State) : Answer :=
  match s.ana.swap with
  | some x => if x.mat then refuse s else wrote (s.plainWrite a v)
  | none => wrote (s.plainWrite a v)

/-! ### Runs (R334, R337, R338) -/

/-- Sample period of block n. -/
def State.abPer (s : State) (n : Nat) : Nat := s.fld (aAB_TRIG n) fAB_TRIG_PER
/-- First tick at or after t that is a multiple of p. -/
def gridFrom (t p : Nat) : Nat := (t + p - 1) / p * p

/-- Calibration starts (R337). -/
def State.abStartCal (s : State) (n : Nat) : State :=
  ((s.setAb n { s.ab n with calAt := some s.tickN }).setBit (aAB_STATUS n) fAB_STATUS_CAL_Q false).setAbState n 3
/-- A run ends: a queued calibration starts, else the block is idle (R337). -/
def State.abEndRun (s : State) (n : Nat) : State :=
  let t := s.setAb n { s.ab n with run := none }
  if t.bit (aAB_STATUS n) fAB_STATUS_CAL_Q then t.abStartCal n else t.setAbState n 0
/-- A run starts at its first sample tick. -/
def State.abBegin (s : State) (n : Nat) (r : AbRun) : State :=
  (s.setAb n { s.ab n with run := some r }).setAbState n 1
/-- A run is queued behind a calibration. -/
def State.abQueue (s : State) (n first : Nat) : State :=
  (s.setAb n { s.ab n with queued := some first }).setBit (aAB_STATUS n) fAB_STATUS_RUN_Q true

/-- First sample tick that a `RUN` command names; none when `AB_START` comes too soon (R334). -/
def State.abFirst (s : State) (n : Nat) (atStart : Bool) : Option Nat :=
  let w := s.reg64 (aAB_START_LO n) (aAB_START_HI n)
  if atStart then (if w < s.tickN + 64 then none else some w) else some (gridFrom (s.tickN + 64) (s.abPer n))

/-- A word enters the FIFO of block n, or waits for the fabric (R335). -/
def State.abWord (s : State) (n dest : Nat) (w : W32) : State :=
  let x := s.ab n
  if dest = 2 then
    (if x.resWait.isSome then s.abFlag n fAB_FLAG_OVF else s.setAb n { x with resWait := some w })
  else if 64 ≤ x.fifo.length then s.abFlag n fAB_FLAG_OVF
  else
    let t := s.setAb n { x with fifo := x.fifo ++ [w] }
    let c := s.reg (aAB_FIFO_CFG n)
    if getB c fAB_FIFO_CFG_LVL_EN && x.fifo.length == getF c fAB_FIFO_CFG_LEVEL then t.raise (1728 + 2 * n) else t

/-- `STOP` (R334): the last sample taken ends the run; a queued run is dropped. -/
def State.abStop (s : State) (n : Nat) : State :=
  let x := s.ab n
  let s := (s.setAb n { x with queued := none }).setBit (aAB_STATUS n) fAB_STATUS_RUN_Q false
  match x.run with
  | none => s
  | some _ =>
    let y := s.ab n
    let t := match y.samples.getLast? with
      | some z => s.setAb n { y with samples := y.samples.dropLast ++ [{ z with last := true }] }
      | none =>
        match y.half with
        | some h => (s.setAb n { y with half := none }).abWord n (s.fld (aAB_ACT_ADC n) fAB_ACT_ADC_DEST) (h.setWidth 32)
        | none => s
    t.abEndRun n

/-- A write of `AB_CMD`: `STOP`, then `CAL`, then `RUN`; refused whole where any part is (R334, R337). -/
def abCmdWrite (n : Nat) (v : W32) (s : State) : Answer :=
  let s1 := if getB v fAB_CMD_STOP then s.abStop n else s
  let cal := getB v fAB_CMD_CAL
  let x1 := s1.ab n
  let queuedCal := s1.bit (aAB_STATUS n) fAB_STATUS_CAL_Q
  let s2 := if !cal then s1
    else if x1.run.isSome || x1.calAt.isSome then s1.setBit (aAB_STATUS n) fAB_STATUS_CAL_Q true
    else s1.abStartCal n
  if cal && queuedCal then refuse s
  else if !getB v fAB_CMD_RUN then wrote s2
  else
    let x2 := s2.ab n
    if x2.run.isSome || x2.queued.isSome then refuse s
    else
      match s2.abFirst n (getB v fAB_CMD_AT) with
      | none => refuse (s.abFlag n fAB_FLAG_LATE)
      | some f =>
        if x2.calAt.isSome then wrote (s2.abQueue n f) else wrote (s2.abBegin n { first := f, k := 0, taken := 0 })

/-- `RUN` written by master m (R334). -/
def execAbRun (m : Rm) (n : Fin 48) (atStart : Bool) (s : State) : Host.Outcome State Fault Refusal :=
  let v := putF 1#32 fAB_CMD_AT (if atStart then 1 else 0)
  .next (ringPut m (aAB_CMD n.val) v (abCmdWrite n.val v) s)
/-- `STOP` written by master m (R334). -/
def execAbStop (m : Rm) (n : Fin 48) (s : State) : Host.Outcome State Fault Refusal :=
  .next (ringPut m (aAB_CMD n.val) 2#32 (abCmdWrite n.val 2#32) s)
/-- `CAL` written by master m (R337). -/
def execAbCal (m : Rm) (n : Fin 48) (s : State) : Host.Outcome State Fault Refusal :=
  .next (ringPut m (aAB_CMD n.val) 4#32 (abCmdWrite n.val 4#32) s)

/-- A rising edge of `AC_CMP_n` or `AC_TRIG_n` (R334): ignored during a run, queued during a calibration. -/
def execAbTriggerEdge (n : Fin 48) (comparator : Bool) (s : State) : Host.Outcome State Fault Refusal :=
  let n := n.val
  let x := s.ab n
  let src := s.fld (aAB_TRIG n) fAB_TRIG_TSRC
  let fits := if comparator then src == 1 && s.bit (aAB_ACT_IN n) fAB_ACT_IN_CEN && x.calAt.isNone else src == 2
  if s.anaRuns 56 && fits && x.run.isNone && x.queued.isNone then
    let f := gridFrom (s.tickN + 8) (s.abPer n)
    if x.calAt.isSome then .next (s.abQueue n f) else .next (s.abBegin n { first := f, k := 0, taken := 0 })
  else .next s

/-! ### Samples and results (R333, R335, R336, R340) -/

/-- The quotient of a division whose rounding the spec leaves open: exact, or one of the two neighbours. -/
def State.eitherWay (s : State) (num : Int) (den : Nat) : Int × State :=
  let q := num / (den : Int)
  if num % (den : Int) = 0 then (q, s)
  else
    let (up, t) := s.freshB
    (if up then q + 1 else q, t)

/-- The corrected code of a raw code, and whether it was clamped (R336, R340). -/
def State.abCorrect (s : State) (n : Nat) (raw : Int) : BitVec 16 × Bool × State :=
  let ofs := sint 16 (s.fld (aAB_CAL_ADC n) fAB_CAL_ADC_OFS)
  let gain : Int := (s.fld (aAB_CAL_ADC n) fAB_CAL_ADC_GAIN : Nat)
  let (c, t) := s.eitherWay ((16 * raw - ofs) * gain) 524288
  let k := clampInt (-32768) 32767 c
  (BitVec.ofInt 16 k, k != c, t)

/-- The SAR takes a sample on its tick; the run ends after `AB_COUNT` samples (R334). -/
def execAbSample (n : Fin 48) (raw : BitVec 20) (s : State) : Host.Outcome State Fault Refusal :=
  let n := n.val
  let x := s.ab n
  match x.run with
  | none => .next s
  | some r =>
    let due := r.first + r.k * s.abPer n
    if s.anaRuns 56 && decide (due ≤ s.tickN) then
      let (code, ovr, t) := s.abCorrect n raw.toInt
      let count := (s.reg (aAB_COUNT n)).toNat
      let last := count != 0 && decide (count ≤ r.taken + 1)
      let smp : AbSample := { tick := due, code := code, ovr := ovr, last := last }
      let t := (t.setAb n { x with samples := x.samples ++ [smp], run := some { r with k := r.k + 1, taken := r.taken + 1 } }).setAbState n 2
      .next (if last then (t.abEndRun n).abFlag n fAB_FLAG_RUN_DONE else t)
    else .next s

/-- The `AB_CFG_ADC` word that governs the sample of tick t: its instant is 1.2 ns after t (R333). -/
def State.abCfgAt (s : State) (n t : Nat) : W32 :=
  match (s.ab n).before.find? (fun e => decide (t + 2 ≤ e.1)) with
  | some e => e.2
  | none => s.reg (aAB_ACT_ADC n)
/-- The code as the format gives it: signed, or offset binary (R336). -/
def abCode (cfg : W32) (code : BitVec 16) : BitVec 16 := if getB cfg fAB_CFG_ADC_UNI then code + 0x8000#16 else code

/-- 256 ticks after its sample a result enters the FIFO (R335, R336). -/
def execAbResultEnter (n : Fin 48) (s : State) : Host.Outcome State Fault Refusal :=
  let n := n.val
  let x := s.ab n
  match x.samples with
  | [] => .next s
  | z :: rest =>
    if s.anaRuns 56 && decide (z.tick + 256 ≤ s.tickN) then
      let cfg := s.abCfgAt n z.tick
      let on := getB cfg fAB_CFG_ADC_EN
      let code := abCode cfg (if on then z.code else 0)
      let ovr := on && z.ovr
      let after := decide (x.settleAt ≤ z.tick + 1) && decide (0 < x.settleLeft)
      let y := { x with samples := rest, settleLeft := if after then x.settleLeft - 1 else x.settleLeft }
      let t := s.setAb n y
      let t := if ovr then t.abFlag n fAB_FLAG_OVR else t
      let dest := getF cfg fAB_CFG_ADC_DEST
      match getF cfg fAB_CFG_ADC_FMT with
      | 1 =>
        .next (t.abWord n dest (code ++ BitVec.ofNat 16 ((if ovr then 2 else 0) + if after then 1 else 0)))
      | 2 =>
        match y.half with
        | some h => .next ((t.setAb n { y with half := none }).abWord n dest (code ++ h))
        | none =>
          if z.last then .next (t.abWord n dest (code.setWidth 32)) else .next (t.setAb n { y with half := some code })
      | _ => .next (t.abWord n dest (if getB cfg fAB_CFG_ADC_UNI then code.setWidth 32 else code.signExtend 32))
    else .next s

/-- `DEST` is the ring. -/
def destRing (cfg : W32) : Bool := let d := getF cfg fAB_CFG_ADC_DEST; d == 0 || d == 3
/-- A read of `AB_RESULT` by master m (R335, R400). -/
def abResultRead (m : Rm) (n : Nat) (s : State) : Answer :=
  let x := s.ab n
  if m = .debug then (s, .ok, x.fifo.headD 0)
  else
    match (if destRing (s.reg (aAB_ACT_ADC n)) then x.fifo else []) with
    | [] => (s.abFlag n fAB_FLAG_RD_EMPTY, .ok, 0#32)
    | w :: r => (s.setAb n { x with fifo := r }, .ok, w)
/-- `AB_RESULT` read by master m. -/
def execAbResultRead (m : Rm) (n : Fin 48) (s : State) : Host.Outcome State Fault Refusal :=
  let a := aAB_RESULT n.val
  .next (ringDo m { die := a / 4294967296, block := a / 65536 % 65536, off := a % 65536, write := false, data := 0#32 }
    (abResultRead m n.val) s)

/-! ### Calibration and its registers (R337, R338, R340) -/

/-- A queued run starts as a calibration ends; one whose start has passed keeps its grid and sets `LATE` (R338). -/
def State.abResume (s : State) (n f : Nat) : State :=
  let t := (s.setAb n { s.ab n with queued := none }).setBit (aAB_STATUS n) fAB_STATUS_RUN_Q false
  if s.tickN < f then t.abBegin n { first := f, k := 0, taken := 0 }
  else
    let p := s.abPer n
    let k := (s.tickN + 64 - f + p - 1) / p
    (t.abBegin n { first := f, k := k, taken := 0 }).abFlag n fAB_FLAG_LATE

/-- Calibration ends after 3,000,000 ticks: its factors are stored, and a queued command starts (R337). -/
def execAbCalEnd (n : Fin 48) (amp adc : W32) (s : State) : Host.Outcome State Fault Refusal :=
  let n := n.val
  let x := s.ab n
  match x.calAt with
  | none => .next s
  | some t0 =>
    if s.anaRuns 56 && decide (t0 + 3000000 ≤ s.tickN) then
      let t := ((s.setReg (aAB_CAL_AMP n) amp).setReg (aAB_CAL_ADC n) adc).setAb n { x with calAt := none }
      let t := (t.setAbState n 0).abFlag n fAB_FLAG_CAL_DONE
      if t.bit (aAB_STATUS n) fAB_STATUS_CAL_Q then .next (t.abStartCal n)
      else
        match x.queued with
        | some f => .next (t.abResume n f)
        | none => .next t
    else .next s

/-- A write of `AB_CAL_AMP` or `AB_CAL_ADC`: refused during calibration (R340). -/
def abCalWrite (n a : Nat) (v : W32) (s : State) : Answer :=
  if (s.ab n).calAt.isSome then refuse s else wrote (s.plainWrite a v)
/-- `AB_CAL_AMP` or `AB_CAL_ADC` written by master m. -/
def execAbCalWrite (m : Rm) (n : Fin 48) (adc : Bool) (v : W32) (s : State) : Host.Outcome State Fault Refusal :=
  let a := if adc then aAB_CAL_ADC n.val else aAB_CAL_AMP n.val
  .next (ringPut m a v (abCalWrite n.val a v) s)

/-- A write of `AB_TRIG`, `AB_START` or `AB_COUNT`: refused during a run or with one queued, and with a period below 300
(R334). -/
def abRunRegWrite (n a : Nat) (v : W32) (s : State) : Answer :=
  let x := s.ab n
  if x.run.isSome || x.queued.isSome || (a == aAB_TRIG n && decide (getF v fAB_TRIG_PER < 300)) then refuse s
  else wrote (s.plainWrite a v)

/-! ### The stream table (R342, R344, R345) -/

/-- A stream entry of a bank, 64 bits. -/
def State.asEntry (s : State) (bank idx : Nat) : BitVec 64 := (s.ps bank 7 0 0 idx).setWidth 64
/-- Bank and index that `AS_ADDR` names. -/
def State.asBank (s : State) : Nat := if s.bit aAS_ADDR fAS_ADDR_BANK then 1 else 0
/-- `INDEX` moves after an access of `AS_DATA_1` while `AINC` is 1. -/
def State.asAdvance (s : State) : State :=
  if s.bit aAS_ADDR fAS_ADDR_AINC then s.setFld aAS_ADDR fAS_ADDR_INDEX (s.fld aAS_ADDR fAS_ADDR_INDEX + 1) else s
/-- A write of `AS_DATA_k` (R344): word 1 stores both, and marks A's share of the bank as written (R345). -/
def asDataWrite (k : Nat) (v : W32) (s : State) : Answer :=
  let locked := s.fld aPAT_STATUS fPAT_STATUS_ARMED != 0 || s.bit aPAT_STATUS fPAT_STATUS_TAIL
  if s.asBank != s.shBank || locked then refuse s
  else if k = 0 then wrote (s.setReg aAS_DATA_0 v)
  else
    let e : BitVec 64 := v ++ s.reg aAS_DATA_0
    let t := (s.setPs s.asBank 7 0 0 (s.fld aAS_ADDR fAS_ADDR_INDEX) (e.setWidth 128)).setOk s.shBank 7 true
    wrote t.asAdvance
/-- A read of `AS_DATA_k`. -/
def asDataRead (k : Nat) (s : State) : Answer :=
  let e := s.asEntry s.asBank (s.fld aAS_ADDR fAS_ADDR_INDEX)
  (if k = 1 then s.asAdvance else s, .ok, e.extractLsb' (32 * k) 32)
/-- `AS_DATA_1` written by master m. -/
def execAsDataWrite (m : Rm) (v : W32) (s : State) : Host.Outcome State Fault Refusal :=
  .next (ringPut m aAS_DATA_1 v (asDataWrite 1 v) s)

/-! ### Analog fabric clocks (R348) and the presentation of results (R335) -/

/-- A write of `AF_CLK_k`: a running line finishes its period under the old divisor (R348). -/
def afClkWrite (k : Nat) (v : W32) (s : State) : Answer :=
  let a := aAF_CLK k
  if getB v fAF_CLK_EN && decide (getF v fAF_CLK_DIV < 2) then refuse s
  else
    let old := s.reg a
    let div := getF old fAF_CLK_DIV
    let stop := if getB old fAF_CLK_EN then s.tickN / div * div + div else 0
    let t := s.plainWrite a v
    wrote { t with ana := { t.ana with afOld := tput (fun _ => 0#32) t.ana.afOld k old
                                       afSwitch := tput (fun _ => 0) t.ana.afSwitch k stop } }
/-- `AF_CLK_k` written by master m. -/
def execAfClkWrite (m : Rm) (k : Fin 4) (v : W32) (s : State) : Host.Outcome State Fault Refusal :=
  .next (ringPut m (aAF_CLK k.val) v (afClkWrite k.val v) s)
/-- `AGCLK_k` rises on tick t. -/
def State.afEdge (s : State) (k t : Nat) : Bool :=
  let w := if t < tget (fun _ => 0) s.ana.afSwitch k then tget (fun _ => 0#32) s.ana.afOld k else s.reg (aAF_CLK k)
  getB w fAF_CLK_EN && getF w fAF_CLK_DIV != 0 && t % getF w fAF_CLK_DIV == 0

/-- On an `AGCLK_0` edge waiting words are presented on `AC_RES_n` (R335). -/
def State.anaTick (s : State) : State :=
  if s.anaRuns 56 && s.afEdge 0 s.tickN then
    (List.range 48).foldl (fun t n =>
      let x := t.ab n
      if x.resWait.isNone && x.resOut.isNone then t else t.setAb n { x with resWait := none, resOut := x.resWait }) s
  else s

/-- Runs, calibrations and samples in flight end without their flags; the FIFOs keep their contents (R322). -/
def State.abHalt (s : State) (n : Nat) : State :=
  let x := s.ab n
  if x.run.isNone && x.calAt.isNone && x.queued.isNone && x.samples.isEmpty && x.half.isNone then s
  else
    let t := s.setAb n { x with run := none, queued := none, calAt := none, samples := [], half := none }
    ((t.setBit (aAB_STATUS n) fAB_STATUS_CAL_Q false).setBit (aAB_STATUS n) fAB_STATUS_RUN_Q false).setAbState n 0

end Sys2Proof.Machine
end

