-- ==== Sys2Proof/Machine/Convert.lean ====
section
/-! DEFINITION. The integrating converters: the conversion cycle (R352, R353), mains tracking (R354 to R356), runs (R357, R358),
results (R360, R361) and calibration (R362 to R365); the reference loop (R421). -/

namespace Sys2Proof.Machine

/-- Set a bit of `IC_FLAG`, with its event (R368). -/
def State.icFlag (s : State) (n : Nat) (f : Fld) : State := s.flagRaise (aIC_FLAG n) f (1857 + 2 * n)
/-- `STATE`: 0 idle, 1 waiting for a start, 2 converting, 3 calibrating, as what is in progress says. -/
def State.syncIc (s : State) (n : Nat) : State :=
  let x := s.ic n
  let v := if x.cal.isSome then 3 else if x.conv.isSome then 2 else if x.run.isSome then 1 else 0
  (s.setFld (aIC_STATUS n) fIC_STATUS_STATE v).setBit (aIC_STATUS n) fIC_STATUS_RUN_Q x.queued.isSome
/-- Set the record of converter n, and its state. -/
def State.putIc (s : State) (n : Nat) (x : Ic) : State := (s.setIc n x).syncIc n

/-! ### The line period (R352, R354) -/

/-- The tracker is locked. -/
def State.mainsLocked (s : State) : Bool := s.bit aMS_MEAS fMS_MEAS_LOCKED
/-- The line period L in force. -/
def State.linePeriod (s : State) : Nat :=
  match s.fld aMS_CTRL fMS_CTRL_SRC with
  | 0 => if s.mainsLocked then s.fld aMS_MEAS fMS_MEAS_PERIOD else if s.bit aMS_CTRL fMS_CTRL_FALLBACK then 25000000 else 30000000
  | 1 => 30000000
  | 2 => 25000000
  | _ => (s.reg aMS_PERIOD).toNat
/-- Integration length of an NPLC code under a line period, rounding half up (R352). -/
def icLength (nplc l : Nat) : Nat := 250 * ((2 * nplc * l + 25000) / 50000)

/-! ### Runs and conversions (R352, R357 to R359, R364) -/

/-- `PER` of converter n. -/
def State.icPer (s : State) (n : Nat) : Nat := (s.reg (aIC_PER n)).toNat
/-- Start tick that a grid run waits for. -/
def State.icDue (s : State) (n : Nat) (r : IcRun) : Nat :=
  if s.icPer n = 0 then r.next else r.first + r.k * s.icPer n

/-- Calibration starts, of the range `IC_CFG` selects then (R362). -/
def State.icStartCal (s : State) (n t : Nat) : State :=
  let x := s.ic n
  let len := icLength (s.fld aMS_CAL fMS_CAL_NPLC) s.linePeriod
  let s := (s.setBit (aIC_STATUS n) fIC_STATUS_CAL_Q false).setFld (aIC_STATUS n) fIC_STATUS_CAL_RANGE (s.fld (aIC_CFG n) fIC_CFG_RANGE)
  s.putIc n { x with cal := some (t, len) }

/-- The run that a `RUN` command asks for; none where it comes too soon, or for a mains start while unlocked (R357). -/
def State.icAsk (s : State) (n : Nat) (atStart : Bool) : Option IcRun :=
  let w := s.reg64 (aIC_START_LO n) (aIC_START_HI n)
  let now := s.tickN + 64
  if s.fld (aIC_CFG n) fIC_CFG_TSRC = 2 then
    (if s.mainsLocked then some { first := now, k := 0, taken := 0, mains := true, next := now } else none)
  else if atStart then (if w < now then none else some { first := w, k := 0, taken := 0, mains := false, next := w })
  else some { first := now, k := 0, taken := 0, mains := false, next := now }

/-- A write of `IC_CMD`: `STOP`, then `CAL`, then `RUN`; refused whole where any part is (R357, R364). -/
def icCmdWrite (n : Nat) (v : W32) (s : State) : Answer :=
  let stop := getB v fIC_CMD_STOP
  let s1 := if stop then s.putIc n { s.ic n with run := none, queued := none } else s
  let x1 := s1.ic n
  let cal := getB v fIC_CMD_CAL
  let queuedCal := s1.bit (aIC_STATUS n) fIC_STATUS_CAL_Q
  let s2 := if !cal then s1
    else if x1.conv.isSome || x1.cal.isSome then s1.setBit (aIC_STATUS n) fIC_STATUS_CAL_Q true
    else s1.icStartCal n s.tickN
  if cal && queuedCal then refuse s
  else if !getB v fIC_CMD_RUN then wrote s2
  else
    let x2 := s2.ic n
    if x2.run.isSome || x2.queued.isSome then refuse s
    else
      match s2.icAsk n (getB v fIC_CMD_AT) with
      | none => refuse (if s.fld (aIC_CFG n) fIC_CFG_TSRC = 2 then s else s.icFlag n fIC_FLAG_LATE)
      | some r =>
        if x2.cal.isSome then wrote (s2.putIc n { x2 with queued := some r }) else wrote (s2.putIc n { x2 with run := some r })

/-- `RUN` written by master m (R357). -/
def execIcRun (m : Rm) (n : Fin 16) (atStart : Bool) (s : State) : Host.Outcome State Fault Refusal :=
  let v := putF 1#32 fIC_CMD_AT (if atStart then 1 else 0)
  .next (ringPut m (aIC_CMD n.val) v (icCmdWrite n.val v) s)
/-- `STOP` written by master m (R357). -/
def execIcStop (m : Rm) (n : Fin 16) (s : State) : Host.Outcome State Fault Refusal :=
  .next (ringPut m (aIC_CMD n.val) 2#32 (icCmdWrite n.val 2#32) s)
/-- `CAL` written by master m (R364). -/
def execIcCal (m : Rm) (n : Fin 16) (s : State) : Host.Outcome State Fault Refusal :=
  .next (ringPut m (aIC_CMD n.val) 4#32 (icCmdWrite n.val 4#32) s)

/-- A conversion starts on tick S with the configuration, line period and factors in force (R352, R356, R365). -/
def State.icBegin (s : State) (n tick : Nat) (r : IcRun) : State :=
  let cfg := s.reg (aIC_CFG n)
  let range := getF cfg fIC_CFG_RANGE
  let c : IcConv :=
    { start := tick, len := icLength (getF cfg fIC_CFG_NPLC) s.linePeriod, cfg := cfg
      offset := s.reg (aCAL_OFFSET n range), gain := s.reg (aCAL_GAIN n range)
      disturbed := s.fld aMS_CTRL fMS_CTRL_SRC == 0 && !s.mainsLocked, phase := 0 }
  s.putIc n { s.ic n with conv := some c, run := some { r with k := r.k + 1, taken := r.taken + 1 } }

/-- A start tick of the grid has come: a conversion starts, or the tick is skipped with `LATE` (R358). -/
def execConversionStart (n : Fin 16) (s : State) : Host.Outcome State Fault Refusal :=
  let n := n.val
  let x := s.ic n
  match x.run with
  | none => .next s
  | some r =>
    if !s.anaRuns 57 || r.mains || x.cal.isSome || decide (s.tickN < s.icDue n r) then .next s
    else if x.conv.isSome then
      if s.icPer n = 0 then .next s
      else .next ((s.setIc n { x with run := some { r with k := r.k + 1 } }).icFlag n fIC_FLAG_LATE)
    else .next (s.icBegin n (s.icDue n r) r)

/-- The converter goes on to a phase of its conversion once a tick has come. -/
def State.icPhase (s : State) (n from' to' due : Nat) : State :=
  let x := s.ic n
  match x.conv with
  | some c =>
    if s.anaRuns 57 && c.phase == from' && decide (c.start + c.len * due ≤ s.tickN) then
      s.setIc n { x with conv := some { c with phase := to' } }
    else s
  | none => s
/-- Input integration ends at S + I: auto-zero with `AZ` = 1, else the residue (R352). -/
def execInputIntegrationEnd (n : Fin 16) (s : State) : Host.Outcome State Fault Refusal :=
  match (s.ic n.val).conv with
  | some c => .next (s.icPhase n.val 0 (if getB c.cfg fIC_CFG_AZ then 1 else 2) 1)
  | none => .next s
/-- Auto-zero ends at S + 2I and the residue starts (R352). -/
def execResidueStart (n : Fin 16) (s : State) : Host.Outcome State Fault Refusal := .next (s.icPhase n.val 1 2 2)

/-! ### Results (R360, R361) -/

/-- Resolution B of an NPLC code. -/
def icBits (nplc : Nat) : Nat := if nplc < 10 then 22 else if nplc < 100 then 25 else if nplc < 1000 then 28 else 30
/-- X of a raw value under the factors, rounded half up to B bits, and then clamped; with whether it was (chapter 15, Result
format). -/
def icValue (c : IcConv) (raw : Int) : Int × Bool :=
  let q : Int := 2 ^ (32 - icBits (getF c.cfg fIC_CFG_NPLC))
  let num := (raw - c.offset.toInt) * (c.gain.toNat : Int)
  let x := (2 * num + q * 2 ^ 30) / (2 * q * 2 ^ 30) * q
  let y := clampInt (-1288490188) 1288490188 x
  let z := if getB c.cfg fIC_CFG_SE && decide (y < 0) then 0 else y
  (z, z != x)
/-- The result word (R360). -/
def icWord (c : IcConv) (x : Int) (ovr : Bool) : W32 :=
  let b := icBits (getF c.cfg fIC_CFG_NPLC)
  if getB c.cfg fIC_CFG_FMT then
    BitVec.ofInt 32 (x / 2 ^ (32 - b) * 2 ^ (32 - b) + (if ovr then 2 else 0) + if c.disturbed then 1 else 0)
  else BitVec.ofInt 32 (x / 2 ^ (32 - b))

/-- A result enters the FIFO of converter n, or is discarded (R361). -/
def State.icPush (s : State) (n : Nat) (r : IcResult) : State :=
  let x := s.ic n
  if 16 ≤ x.fifo.length then s.icFlag n fIC_FLAG_OVF
  else
    let t := s.setIc n { x with fifo := x.fifo ++ [r] }
    let c := s.reg (aIC_FIFO_CFG n)
    if getB c fIC_FIFO_CFG_LVL_EN && x.fifo.length == getF c fIC_FIFO_CFG_LEVEL then t.raise (1856 + 2 * n) else t

/-- A conversion ends 3,000 ticks after the residue began: result, end of the run, queued calibration (R352, R357, R364).
`raw` is the uncalibrated value in units of X. -/
def execConversionEnd (n : Fin 16) (raw : BitVec 40) (s : State) : Host.Outcome State Fault Refusal :=
  let n := n.val
  let x := s.ic n
  match x.conv with
  | none => .next s
  | some c =>
    let fin := c.start + c.len * (if getB c.cfg fIC_CFG_AZ then 2 else 1) + 3000
    if s.anaRuns 57 && c.phase == 2 && decide (fin ≤ s.tickN) then
      let (v, ovr) := icValue c raw.toInt
      let t := s.icPush n { word := icWord c v ovr, start := c.start, bits := icBits (getF c.cfg fIC_CFG_NPLC) }
      let t := if ovr then t.icFlag n fIC_FLAG_OVR else t
      let t := if c.disturbed then t.icFlag n fIC_FLAG_DISTURB else t
      let count := (s.reg (aIC_COUNT n)).toNat
      let done := match x.run with
        | some r => count != 0 && decide (count ≤ r.taken)
        | none => false
      let run := if done then none else x.run.map (fun r => { r with next := fin + 1 })
      let t := t.putIc n { t.ic n with conv := none, run := run }
      let t := if done then t.icFlag n fIC_FLAG_RUN_DONE else t
      .next (if t.bit (aIC_STATUS n) fIC_STATUS_CAL_Q then t.icStartCal n (fin + 1) else t)
    else .next s

/-- A read of `IC_RESULT` by master m (R361, R400). -/
def icResultRead (m : Rm) (n : Nat) (s : State) : Answer :=
  let x := s.ic n
  match x.fifo with
  | [] => if m = .debug then (s, .ok, 0#32) else (s.icFlag n fIC_FLAG_RD_EMPTY, .ok, 0#32)
  | r :: rest => if m = .debug then (s, .ok, r.word) else (s.setIc n { x with fifo := rest }, .ok, r.word)
/-- `IC_RESULT` read by master m. -/
def execIcResultRead (m : Rm) (n : Fin 16) (s : State) : Host.Outcome State Fault Refusal :=
  let a := aIC_RESULT n.val
  .next (ringDo m { die := a / 4294967296, block := a / 65536 % 65536, off := a % 65536, write := false, data := 0#32 }
    (icResultRead m n.val) s)

/-! ### Calibration (R362 to R365) -/

/-- The run goes on after a calibration that ended on tick e: at the first start of its grid at least 64 ticks later, with
`LATE`, where its next start has passed (R364). -/
def State.icResume (s : State) (n e : Nat) (r : IcRun) : State :=
  let x := s.ic n
  let put (t : State) (r : IcRun) : State := t.putIc n { x with run := some r, queued := none }
  let p := s.icPer n
  if r.mains then put s { r with first := max r.first (e + 64) }
  else if e < s.icDue n r then put s r
  else if p = 0 then (put s { r with next := e + 64 }).icFlag n fIC_FLAG_LATE
  else (put s { r with k := max r.k ((e + 64 - r.first + p - 1) / p) }).icFlag n fIC_FLAG_LATE

/-- Calibration ends: the pair is stored or kept, and an interrupted or queued run goes on (R363, R364). `zero` and `ref`
are the mean raw values of the zero and of the reference integrations. -/
def execIcCalEnd (n : Fin 16) (zero ref : BitVec 40) (s : State) : Host.Outcome State Fault Refusal :=
  let n := n.val
  let x := s.ic n
  match x.cal with
  | none => .next s
  | some (t0, len) =>
    let fin := t0 + 8 * (len + 3000)
    if s.anaRuns 57 && decide (fin ≤ s.tickN) then
      let range := s.fld (aIC_STATUS n) fIC_STATUS_CAL_RANGE
      let off := zero.toInt
      let span := ref.toInt - off
      let (gain, t) := if 0 < span then s.eitherWay (2 ^ 30 * ((s.reg (aREF_VAL range)).toNat : Int)) span.toNat else (0, s)
      let bad := gain < 0x3999999A ∨ 0x46666666 < gain ∨ off < -10737418 ∨ 10737418 < off
      let t := if bad then t.icFlag n fIC_FLAG_CAL_FAIL
        else (t.setReg (aCAL_OFFSET n range) (BitVec.ofInt 32 off)).setReg (aCAL_GAIN n range) (BitVec.ofInt 32 gain)
      let t := (t.putIc n { x with cal := none }).icFlag n fIC_FLAG_CAL_DONE
      if t.bit (aIC_STATUS n) fIC_STATUS_CAL_Q then .next (t.icStartCal n (fin + 1))
      else
        match x.run, x.queued with
        | some r, _ => .next (t.icResume n fin r)
        | none, some r => .next (t.icResume n fin r)
        | none, none => .next t
    else .next s

/-- A write of `IC_CFG`: codes that R351, R353 and the range table refuse. -/
def icCfgWrite (n : Nat) (v : W32) (s : State) : Answer :=
  let nplc := getF v fIC_CFG_NPLC
  if 0x11 ≤ getF v fIC_CFG_INP ∨ getF v fIC_CFG_RANGE = 3 ∨ nplc < 2 ∨ 10000 < nplc then refuse s
  else wrote (s.plainWrite (aIC_CFG n) v)
/-- A write of `IC_PER`, `IC_START` or `IC_COUNT`: refused during a run or with one queued (R357). -/
def icRunRegWrite (n a : Nat) (v : W32) (s : State) : Answer :=
  let x := s.ic n
  if x.run.isSome || x.queued.isSome then refuse s else wrote (s.plainWrite a v)
/-- A write of a factor: refused during calibration (R365). -/
def icFactorWrite (n a : Nat) (v : W32) (s : State) : Answer :=
  if (s.ic n).cal.isSome then refuse s else wrote (s.plainWrite a v)
/-- A write of `MS_PERIOD` (R354). -/
def msPeriodWrite (v : W32) (s : State) : Answer :=
  if 21428572 ≤ v.toNat ∧ v.toNat ≤ 37500000 then wrote (s.plainWrite aMS_PERIOD v) else refuse s
/-- A write of `MS_CAL` (R362). -/
def msCalWrite (v : W32) (s : State) : Answer :=
  let n := getF v fMS_CAL_NPLC
  if 2 ≤ n ∧ n ≤ 10000 then wrote (s.plainWrite aMS_CAL v) else refuse s
/-- A write of `REF_VAL_r`: refused during any calibration (R363). -/
def refValWrite (a : Nat) (v : W32) (s : State) : Answer :=
  if (List.range 16).any (fun n => (s.ic n).cal.isSome) then refuse s else wrote (s.plainWrite a v)
/-- A write of `REF_LOOP` (R421). -/
def refLoopWrite (v : W32) (s : State) : Answer :=
  let on := s.bit aREF_LOOP fREF_LOOP_EN
  let pins := (List.range 32).map (fun p => s.reg (aSW_ACT p))
  let nets := netsOf pins
  let b := nets.getD (getF v fREF_LOOP_BUS) 0
  let onNet (x : Nat) : Bool := nets.getD x x == b
  let used := (drivenBuses ((List.range 48).map (fun n => s.reg (aAB_ACT_IN n)))).any onNet ||
    pins.any (fun w => (pinBuses w).any onNet)
  if (getB v fREF_LOOP_EN = true ∧ used = true) ∨ (on = true ∧ getF v fREF_LOOP_BUS ≠ s.fld aREF_LOOP fREF_LOOP_BUS) then refuse s
  else wrote (s.plainWrite aREF_LOOP v)

/-! ### Mains tracking (R355) -/

/-- The tracker loses lock (R355). -/
def State.mainsUnlock (s : State) : State :=
  if s.mainsLocked then (s.setBit aMS_MEAS fMS_MEAS_LOCKED false).flagRaise aMS_FLAG fMS_FLAG_LOST 1889 else s
/-- Eight periods lie between 40 Hz and 70 Hz and within 0.5 % of their mean. -/
def periodsSteady (l : List Nat) : Bool :=
  let sum := l.foldl (· + ·) 0
  l.length == 8 && l.all (fun p => decide (21428572 ≤ p) && decide (p ≤ 37500000) &&
    decide (200 * (8 * p - sum) ≤ sum) && decide (200 * (sum - 8 * p) ≤ sum))
/-- A period differs from the mean of the last eight by more than 2 %. -/
def periodOff (l : List Nat) (p : Nat) : Bool :=
  let sum := l.foldl (· + ·) 0
  decide (sum < 50 * (8 * p - sum)) || decide (sum < 50 * (sum - 8 * p))

/-- A crossing seen now ends a period of p ticks (R355). -/
def State.mainsPeriod (s : State) (p : Nat) : State :=
  let old := s.ana.periods
  let s := if s.mainsLocked && periodOff old p then s.mainsUnlock else s
  let l := (old ++ [p]).drop (old.length + 1 - 8)
  let s := { s with ana := { s.ana with periods := l } }
  if s.mainsLocked || periodsSteady l then
    let (mean, t) := s.eitherWay ((l.foldl (· + ·) 0 : Nat) : Int) 8
    let t := t.setFld aMS_MEAS fMS_MEAS_PERIOD mean.toNat
    if s.mainsLocked then t else (t.setBit aMS_MEAS fMS_MEAS_LOCKED true).flagRaise aMS_FLAG fMS_FLAG_LOCKED 1888
  else s

/-- A converter whose run waits for a crossing starts a conversion (R357). -/
def State.crossStart (s : State) (n : Nat) : State :=
  let x := s.ic n
  match x.run with
  | some r => if r.mains && x.conv.isNone && x.cal.isNone && decide (r.first ≤ s.tickN) then s.icBegin n s.tickN r else s
  | none => s

/-- A rising crossing of `MAINS_SENSE` is seen (R355, R357). -/
def execMainsCrossing (s : State) : Host.Outcome State Fault Refusal :=
  if s.anaRuns 57 then
    let t := match s.ana.cross with
      | some c => s.mainsPeriod (s.now - c)
      | none => s
    let t := { t with ana := { t.ana with cross := some s.now } }
    .next ((List.range 16).foldl State.crossStart t)
  else .next s
/-- No crossing has arrived for 75,000,000 ticks (R355). -/
def execMainsUnlockTimeout (s : State) : Host.Outcome State Fault Refusal :=
  match s.ana.cross with
  | some c =>
    if s.anaRuns 57 && decide (c + 75000000 ≤ s.now) then
      .next { s.mainsUnlock with ana := { s.ana with cross := none, periods := [] } }
    else .next s
  | none => .next s

/-- A conversion or calibration in progress and what is queued end without a result (R366). -/
def State.icHalt (s : State) (n : Nat) : State :=
  let x := s.ic n
  if x.run.isNone && x.queued.isNone && x.conv.isNone && x.cal.isNone then s
  else (s.setBit (aIC_STATUS n) fIC_STATUS_CAL_Q false).putIc n { x with run := none, queued := none, conv := none, cal := none }
/-- The clocks stop on die A (R322, R366). -/
def State.anaHalt (s : State) : State :=
  let t := (List.range 48).foldl State.abHalt s
  (List.range 16).foldl State.icHalt t

end Sys2Proof.Machine
end

