-- ==== Sys2Proof/Machine/Inject.lean ====
section
/-! DEFINITION. Scheduled injection at the source NI (R56, R80, R81, R96, R246, R342) and the check at the destination's egress
(R58 to R63, R97, R343). -/

namespace Sys2Proof.Machine

/-! ### What one NI injects on a tick -/

/-- An injection that a table asks for on a tick: the entry's index, flow, egress tag and key, and for die A its source. -/
structure Inj where
  idx : Nat
  flit : Nat
  flow : Nat
  dport : Nat
  key : Nat
  src : Nat
  deriving DecidableEq, Repr

/-- Injection entries of NI n of die d that cover tick t (R56, R80), and for die A its stream entries (R342). -/
def State.injections (s : State) (d n bank p start t : Nat) : List Inj :=
  if d = 7 then
    (s.psTable bank 7 0 0).filterMap (fun (i, e) =>
      let slot := ew e 0 15 0
      if ew e 0 28 28 = 1 ∧ ew e 0 29 29 = 0 ∧ slot < p ∧ t % p = slot ∧ start ≤ t then
        some { idx := i, flit := 0, flow := ew e 0 27 16, dport := ew e 0 31 30, key := ew e 1 29 26, src := ew e 1 25 20 }
      else none)
  else
    (s.injEntries d n bank p start t).map (fun (i, e, f) =>
      { idx := i, flit := f, flow := ew e 0 31 20, dport := ew e 1 10 9, key := ew e 1 15 12, src := 0 })

/-- The injection with the lowest flow ID (R81). -/
def lowestFlow (l : List Inj) : Option Inj :=
  l.foldl (fun best x =>
    match best with
    | none => some x
    | some b => if x.flow < b.flow then some x else best) none

/-- What a source offers on its slot: a payload, or the cause of a marker. -/
inductive Offer where
  | data (payload : BitVec 256)
  | mark (cause : Nat)
  deriving DecidableEq, Repr

/-- The staging queue's next flit; none adds to the discard debt (R96). -/
def State.takeStaged (s : State) (d n : Nat) : State × Offer :=
  let x := s.ni d n
  match x.staging with
  | f :: r => (s.setNi d n { x with staging := r }, .data f)
  | [] => (s.setNi d n { x with debt := x.debt + 1 }, .mark 1)

/-- Eight words of the result FIFO that a stream entry names, or the staging queue (R342). -/
def State.takeEntry (s : State) (src : Nat) : State × Offer :=
  if src = 48 then s.takeStaged 7 0
  else if 48 < src then (s.flagRaise aAS_ERR fAS_ERR_BADSRC 1827, .mark 1)
  else
    let x := s.ab src
    if s.fld (aAB_ACT_ADC src) fAB_ACT_ADC_DEST ≠ 1 ∨ x.fifo.length < 8 then (s.flagRaise aAS_ERR fAS_ERR_SHORT 1827, .mark 1)
    else
      (s.setAb src { x with fifo := x.fifo.drop 8 },
       .data (BitVec.ofNat 256 (leNat ((x.fifo.take 8).flatMap (fun w => natLe 4 w.toNat)))))

/-- The scheduled client of hub NI n offers what it holds for tick t: a core's send, a pair's read (R75, R246, R275). -/
def State.takeClient (s : State) (n t : Nat) : State × Offer :=
  match (List.range 8).find? (fun c => coreNi c == n) with
  | some c =>
    let x := s.thr c
    match x.sends.find? (fun e => e.1 == t) with
    | some (_, f) => (s.setThr c { x with sends := x.sends.filter (fun e => e.1 != t) }, .data f)
    | none => (s, .mark 1)
  | none =>
    match (List.range 4).find? (fun q => qdrNi q == n) with
    | some q =>
      let x := s.qdr q
      match x.reads.find? (fun r => r.tick == t) with
      | some r =>
        (s.setQdr q { x with reads := x.reads.filter (fun r => decide (t < r.tick)) },
         match r.payload with
         | some f => .data f
         | none => .mark r.cause)
      | none => (s, .mark 1)
    | none => (s, .mark 1)

/-- What NI n of die d offers for an injection on tick t (R59, R60): a disabled NI marks with 0x8, one in a held region with
0x7. -/
def State.offer (s : State) (d n t : Nat) (x : Inj) : State × Offer :=
  if !s.niOn d n then (s, .mark 8)
  else if s.niHeld d n then (s, .mark 7)
  else if d = 6 then s.takeClient n t
  else if d = 7 then s.takeEntry x.src
  else if !s.portsUp d || !s.domOn d then (s, .mark 1)
  else s.takeStaged d n

/-- The flit or marker that an offer makes. -/
def offerFlit (o : Offer) (x : Inj) (bank : Nat) : Flit :=
  match o with
  | .data p => { valid := true, flow := x.flow, cause := 0, key := x.key, bank := bank == 1, parityOk := true, payload := p }
  | .mark c => { valid := false, flow := x.flow, cause := c, key := x.key, bank := bank == 1, parityOk := true, payload := 0 }

/-- An injected flit is on its way: four ticks to leave its router, and from die A twelve to leave router (4, 0) (R54,
R341). -/
def State.launch (s : State) (d n : Nat) (f : Flit) : State :=
  let s := s.useOut d n 6
  if d = 7 then (s.useOut 7 0 5).send f (.router 6 0 5 (some (.link (ra 7 0 0x140)))) (s.now + 12)
  else s.send f (.router d n 4 none) (s.now + 4)

/-- A looped NI's own copy of an injection enters its egress buffer eight ticks later; its egress tag travels in the key
(R420). -/
def State.launchLoop (s : State) (d n bank : Nat) (x : Inj) : State :=
  let (s, o) := if d = 7 then s.takeEntry x.src else s.takeStaged d n
  s.send { offerFlit o x bank with key := x.dport } (.loop d n) (s.now + 8)

/-- Queued sends of core c that this tick has no entry for are discarded (R246). -/
def State.missSends (s : State) (n t : Nat) : State :=
  match (List.range 8).find? (fun c => decide (n = coreNi c)) with
  | none => s
  | some c =>
    let x := s.thr c
    if x.sends.any (fun e => e.1 == t) then
      (s.setThr c { x with sends := x.sends.filter (fun e => e.1 != t) }).coreFlag c fCORE_FLAG_SND_NOENT
    else s

/-- NI n of die d injects what its tables name for this tick, once (R56, R81). -/
def State.injectTick (s : State) (d n : Nat) : State :=
  let y := s.ni d n
  let t := s.tickN
  let live := s.niLive d n && !(d == 7 && s.awaits 7)
  if !live || y.injectedAt == s.now + 1 then s
  else
    let s := s.setNi d n { y with injectedAt := s.now + 1 }
    let runs := s.bit aPAT_STATUS fPAT_STATUS_RUN && s.period != 0
    let bank := s.actBank
    let start := tget (fun _ => 2 ^ 64) s.pat.fromTick bank
    let l := if runs then s.injections d n bank s.period start t else []
    match lowestFlow l with
    | none => if d = 6 then s.missSends n t else s
    | some x =>
      let lost := l.filter (fun z => z != x)
      let s := lost.foldl (fun u z => u.logFault 1 x.flow z.flow d n 0) s
      let (s, o) := s.offer d n t x
      let s := if o = .mark 1 then s.setNi d n { s.ni d n with markAt := s.now + 1 } else s
      let s := s.launch d n (offerFlit o x bank)
      if s.bit (aNI_CTRL d n) fNI_CTRL_LOOP then s.launchLoop d n bank x else s

/-- A source NI injects on its slot ticks (R56). -/
def execSlotInject (i : NiId) (s : State) : Host.Outcome State Fault Refusal := .next (s.injectTick i.die i.ni)

/-- A core's queued send goes out on its target tick (R246). -/
def execSendAtInject (c : Fin 8) (s : State) : Host.Outcome State Fault Refusal :=
  if (s.thr c.val).sends.any (fun e => e.1 == s.tickN) then .next (s.injectTick 6 (coreNi c.val)) else .next s

/-! ### The egress check (R58, R60, R63) -/

/-- An arrival that a table expects on a tick. -/
structure Exp where
  bank : Nat
  idx : Nat
  flow : Nat
  dport : Nat
  /-- flit of the entry, and the period its injection falls in -/
  flit : Nat
  period : Nat
  deriving DecidableEq, Repr

/-- Arrivals that NI n of die d expects on tick t, of either bank. -/
def State.expected (s : State) (d n t : Nat) : List Exp :=
  [s.actBank, s.shBank].flatMap (fun bank =>
    let p := s.bankPeriod bank
    (s.psTable bank d n (if d = 7 then 0 else 1)).filterMap (fun (i, e) =>
      if d = 7 then
        (if s.streamApplies bank e t then
          some { bank := bank, idx := i, flow := ew e 0 27 16, dport := ew e 0 31 30, flit := 0, period := 0 } else none)
      else if s.entryApplies bank e t then
        let f := (t + p - ew e 0 15 0) % p
        let u := t - ew e 1 19 0 - f
        some { bank := bank, idx := i, flow := ew e 0 27 16, dport := ew e 0 30 29, flit := f
               period := (u - tget (fun _ => 2 ^ 64) s.pat.fromTick bank) / p }
      else none))

/-- Cause that the egress itself puts in place of a payload: the link to A, a disabled NI, a held region (R59, R60). -/
def State.egressCause (s : State) (d n : Nat) : Option Nat :=
  match (if d = 7 then s.linkCause (ra 7 0 0x100) (s.now - 4) else none) with
  | some c => some c
  | none => if !s.niOn d n then some 8 else if s.niHeld d n then some 7 else none

/-- The flit as the egress presents it: a marker keeps its cause unless the device never sends it (R59, R60). -/
def presentedFlit (cause : Option Nat) (f : Flit) : Flit :=
  let bad := !f.parityOk || (!f.valid && (f.cause == 0 || decide (0xA < f.cause)))
  let mark (c : Nat) : Flit := { f with valid := false, cause := c, payload := 0, parityOk := true }
  if !f.valid && !bad then f
  else match cause with
    | some c => mark c
    | none => if bad then mark 9 else f

/-- A flit or marker reaches the client or port behind the egress (R97, R247, R275, R222). -/
def State.toClient (s : State) (d n : Nat) (x : Exp) (f : Flit) : State :=
  let e : Egr := { flit := f, tag := x.dport, tick := s.clk.tick, enter := s.now }
  if d = 6 then
    let y := s.ni 6 n
    if (List.range 8).any (fun c => decide (n = coreNi c)) then s.setNi 6 n { y with egress := y.egress ++ [e] }
    else
      match (List.range 4).find? (fun q => qdrNi q == n) with
      | some q =>
        if f.valid then
          let z := s.qdr q
          let w : QdrWrite :=
            { tick := s.tickN + 40, bank := x.bank, idx := x.idx, flit := x.flit, period := x.period, payload := f.payload }
          s.setQdr q { z with writes := z.writes ++ [w] }
        else s
      | none => s
  else if s.portsUp d && (s.domOn d || d == 7) then s.egressPush d n e
  else s

/-- One expected arrival is presented: what came in its place, or a marker with kind 0x3 logged (R63). -/
def State.meet (d n : Nat) (cause : Option Nat) (here : List Item) (s : State) (x : Exp) : State :=
  match here.find? (fun i => i.flit.flow == x.flow && i.flit.bank == (x.bank == 1)) with
  | some i => s.toClient d n x (presentedFlit cause i.flit)
  | none =>
    let f : Flit := { valid := false, flow := x.flow, cause := cause.getD 2, key := 0, bank := x.bank == 1, parityOk := true, payload := 0 }
    let s := if d = 7 ∧ (s.linkCause (ra 7 0 0x100) (s.now - 4)).isSome then s else s.logFault 3 x.flow x.flow d n 0
    s.toClient d n x f

/-- The items whose egress tick at an NI's egress, or in its loop, is this one. One whose tick has passed is gone: nothing is presented
on another tick (R5, R52). -/
def State.takeAt (s : State) (loc : Loc) : List Item × State :=
  let here (i : Item) : Bool := decide (i.loc = loc) && decide (i.due ≤ s.now)
  ((s.pat.flight.filter here).filter (fun i => i.due == s.now),
   { s with pat := { s.pat with flight := s.pat.flight.filter (fun i => !here i) } })

/-- The egress check of NI n of die d, once a tick (R63, R343, R345, R420). -/
def State.egressTick (s : State) (d n : Nat) : State :=
  let y := s.ni d n
  if !s.niLive d n || y.checkedAt == s.now + 1 then s
  else
    let s := s.setNi d n { y with checkedAt := s.now + 1 }
    let (here, s) := s.takeAt (.egress d n)
    let (looped, s) := s.takeAt (.loop d n)
    if s.bit (aNI_CTRL d n) fNI_CTRL_LOOP then
      looped.foldl (fun u i => u.egressPush d n
        { flit := { i.flit with key := 0 }, tag := i.flit.key, tick := s.clk.tick, enter := s.now }) s
    else if d = 7 ∧ s.awaits 7 then s
    else
      let cause := s.egressCause d n
      let exps := s.expected d n s.tickN
      let gone := d == 7 && (s.linkCause (ra 7 0 0x100) (s.now - 4)).isSome
      let live := if gone then [] else here
      let stray := live.filter (fun i => !exps.any (fun x => x.flow == i.flit.flow && i.flit.bank == (x.bank == 1)))
      let s := stray.foldl (fun u i => u.logFault 4 i.flit.flow i.flit.flow d n 0) s
      exps.foldl (State.meet d n cause live) s

/-- The destination egress checks its arrival table (R63). -/
def execEgressCheck (i : NiId) (s : State) : Host.Outcome State Fault Refusal := .next (s.egressTick i.die i.ni)

end Sys2Proof.Machine
end

