-- ==== Sys2Proof/Machine/Lose.lean ====
section
/-! DEFINITION. What a die's Weave and fabric lose, shared by a power domain that goes off (R369), a die reset (R27) and
`PROG_N` (R213). -/

namespace Sys2Proof.Machine

/-- Die of a key of the pattern store. -/
def psKeyDie (k : Nat) : Nat := k / 8388608 % 8

/-- A die's pattern banks and route tables become empty, and a commit of its share is abandoned (R27, R66, R369). -/
def State.loseTables (s : State) (d : Nat) : State :=
  let t := s.abandonCommit d
  let t := { t with pat := { t.pat with store := tkeep (fun k => psKeyDie k != d) t.pat.store } }
  let t := (t.setOk 0 d false).setOk 1 d false
  if d < 7 then t.setBit (aPS_CSTAT d) fPS_CSTAT_OK false else t

/-- What a die's NIs and routers hold of the best-effort class is lost. -/
def State.loseNis (s : State) (d : Nat) : State :=
  { s with
    nis := tkeep (fun k => k / 64 != d) s.nis
    be := { s.be with
      items := s.be.items.filter (fun x => x.d != d)
      usedOrd := tkeep (fun k => k / 1024 != d) s.be.usedOrd
      usedRsv := tkeep (fun k => k / 1024 != d) s.be.usedRsv
      due := s.be.due.filter (fun c => c.key / 1024 != d)
      charges := tkeep (fun k => k / 1024 != d) s.be.charges
      lastOut := tkeep (fun k => k / 512 != d) s.be.lastOut
      lastIn := tkeep (fun k => k / 1024 != d) s.be.lastIn } }

/-- Scheduled flits that are on a die are lost there. -/
def State.purgeFlight (s : State) (d : Nat) : State :=
  { s with pat := { s.pat with flight := s.pat.flight.filter (fun i => locDie i.loc != d) } }

/-- A die that lost its stream table or its banks awaits rejoin (R66, R345). -/
def State.awaitRejoin (s : State) (d : Nat) : State :=
  ({ s with pat := { s.pat with rejoin := s.pat.rejoin ||| BitVec.ofNat 8 (2 ^ d) } }).syncShadowOk.syncBreach

/-- A die returns to unconfigured: frames, checks and map as after reset, nothing starting, held, captured or logged, and
frames in its engine's buffer are gone (R221, R27). -/
def State.unconfigure (s : State) (d : Nat) : State :=
  let t := (s.clearFrames d).setDie d 0
  { t with cfg := { t.cfg with
      startAt := tkeep (fun k => k != d) t.cfg.startAt
      stage := tkeep (fun k => k != d) t.cfg.stage
      startPend := t.cfg.startPend &&& ~~~(BitVec.ofNat 8 (2 ^ d))
      startScan := t.cfg.startScan &&& ~~~(BitVec.ofNat 8 (2 ^ d))
      engineQ := t.cfg.engineQ.filter (fun e => e.1 != d)
      holds := tkeep (fun k => k / 16 != d) t.cfg.holds
      upsets := tkeep (fun k => k != d) t.cfg.upsets
      capture := tkeep (fun k => k != d) t.cfg.capture } }

end Sys2Proof.Machine
end

