-- ==== Sys2Proof/Machine/Power.lean ====
section
/-! DEFINITION. Power domains: the request handshake, its refusals and what a domain loses or keeps (R369 to R374), and the RTC (R376,
R377). -/

namespace Sys2Proof.Machine

/-! ### Domains (R369) -/

/-- The number is a requestable domain: unassigned numbers read 0b00 at reset too. -/
def domKnown (dom : Nat) : Bool := getF (regReset (aPWR_STATE (dom / 16))) ⟨2 * (dom % 16), 2⟩ == 3

/-- The die a domain's blocks are on. -/
def domDie (dom : Nat) : Nat :=
  if dom < 6 then dom else if 8 ≤ dom ∧ dom < 14 then dom - 8 else if 48 ≤ dom ∧ dom < 54 then dom - 48
  else if 56 ≤ dom ∧ dom ≤ 58 then 7 else 6

/-- The one control block a domain has, where it has one. -/
def domBlock (dom : Nat) : Option Nat :=
  if 16 ≤ dom ∧ dom < 24 then some (0x10 + (dom - 16))
  else if dom = 24 then some 0x20
  else if 32 ≤ dom ∧ dom < 36 then some (0x30 + (dom - 32))
  else if 36 ≤ dom ∧ dom < 40 then some (0x40 + (dom - 36))
  else if 40 ≤ dom ∧ dom < 46 then some (0x200 + 4 * (dom - 40))
  else if dom = 58 then some 0xA00
  else if 64 ≤ dom then some 0x20
  else none

/-- The fabric of the domain, if it has one. -/
def domFabric (dom : Nat) : Option Nat := if dom < 6 then some dom else if dom = 58 then some 7 else none
/-- The die whose Weave part the domain holds, if it holds one. -/
def domWeave (dom : Nat) : Option Nat := if 8 ≤ dom ∧ dom < 15 then some (dom - 8) else if dom = 58 then some 7 else none

/-! ### What the blocks of a domain answer (R373) -/

/-- A bank of the pattern routes a flow through a die: a router output, or a valid entry of one of its NIs. -/
def State.routesFlow (s : State) (bank d : Nat) : Bool :=
  s.pat.store.any (fun e =>
    e.1 / 67108864 == bank && psKeyDie e.1 == d && e.1 / 8192 % 16 != 9 &&
    (if d = 7 then e.2.getLsbD 28 else e.1 / 8192 % 16 == 2 || entryV (e.1 / 8192 % 16) e.2))

/-- The active bank, or one armed for start or swap, routes a flow through the die. -/
def State.weaveInUse (s : State) (d : Nat) : Bool :=
  let armed := s.fld aPAT_STATUS fPAT_STATUS_ARMED
  s.routesFlow s.actBank d || ((armed == 1 || armed == 2) && s.routesFlow s.shBank d)

/-- The die is loading or starting, or has a region held. -/
def State.fabricInUse (s : State) (d : Nat) : Bool :=
  s.dieState d == 1 || (s.dieState d == 2 && (s.dieStart d).isSome) || s.cfg.startPend.getLsbD d ||
    (d < 6 && (List.range 16).any (fun n => s.rgnHeld d n))

/-- Any NI of the device holds spill records. -/
def State.anySpill (s : State) : Bool :=
  (List.range 8).any (fun d => (List.range 48).any (fun n => niExists d n && s.fld (aSP_STAT d n) fSP_STAT_COUNT != 0))

/-- The reasons with which the domain's blocks refuse to leave on (R373; a memory bank only while BIST holds it, R264). -/
def State.refusals (s : State) (dom : Nat) : List Nat :=
  let fabric := match domFabric dom with
    | some d => if s.fabricInUse d then [6] else []
    | none => []
  let weave := match domWeave dom with
    | some d => if s.weaveInUse d then [1] else []
    | none => []
  let q := dom - 36
  let p := dom - 40
  let rest :=
    if dom = 16 then [5]
    else if 32 ≤ dom ∧ dom < 36 then
      (if s.bit (aDR_TRN (dom - 32)) fDR_TRN_BUSY || s.anySpill then [3] else [])
    else if 36 ≤ dom ∧ dom < 40 then
      (if s.qdrSvc.any (fun e => e.1 / 8192 == q * 2 + s.actBank && svcV e.2) then [1] else [])
    else if 40 ≤ dom ∧ dom < 46 then
      (if s.budget p ≠ 0 then [1] else []) ++
        (if s.fld aREF_CTRL fREF_CTRL_SRC = 1 ∧ s.fld aREF_CTRL fREF_CTRL_PORT = p then [4] else [])
    else if 64 ≤ dom then (if (s.bistOn (dom - 64)).isSome then [2] else [])
    else []
  fabric ++ weave ++ rest

/-- A block of the domain asks for a delay: accepted requests are not complete (R284, R297), or the port is not disabled
(R159, R180). -/
def State.mustDelay (s : State) (dom : Nat) : Bool :=
  if 32 ≤ dom ∧ dom < 36 then s.mq.any (forSet (dom - 32))
  else if 36 ≤ dom ∧ dom < 40 then s.mq.any (forPair (dom - 36))
  else if 40 ≤ dom ∧ dom < 46 then s.tpState (dom - 40) != 0 && s.tpState (dom - 40) != 11
  else false

/-! ### Turning on (R372) -/

/-- A die whose fabric was kept returns to running; its state read starting meanwhile (R370). -/
def State.fabricReturns (s : State) (d : Nat) : State :=
  if s.dieState d = 2 ∧ (s.dieStart d).isNone then (s.setDie d 3).checkDone else s

/-- General lanes with a mode relock; whether a receiver locks is a free choice. -/
def State.lanesReturn (s : State) (d : Nat) : State :=
  (List.range 16).foldl (fun t i =>
    let b := quadBlock d (i / 4)
    let j := i % 4
    if t.fld (aLN_CTRL b j) fLN_CTRL_MODE = 0 then t
    else
      let (locked, t) := t.freshB
      t.setReg (aLN_STATUS b j) (t.reg (aLN_STATUS b j) &&& 8#32 ||| (if locked then 7#32 else 3#32))) s

/-- The port leaves rest: it trains where it is enabled, and stays at rest where `LSTATE` asks for it (R159, R168). -/
def State.portReturns (s : State) (p : Nat) : State :=
  if s.fld (aTP_CTRL p) fTP_CTRL_LSTATE = 2 then s
  else if s.bit (aTP_CTRL p) fTP_CTRL_EN then s.portTrain p
  else s.portStage p 0

/-- A domain's blocks turn on; where its chapter gives them a time, its state reads changing until they are ready (R372). -/
def State.turnOn (s : State) (dom : Nat) : State :=
  let kept := s.pwr.kept.contains dom
  let s := { s with pwr := { s.pwr with kept := s.pwr.kept.filter (· != dom) } }
  let later (n : Nat) : State := { s with pwr := { s.pwr with turning := s.pwr.turning ++ [(dom, s.now + n)] } }
  if 64 ≤ dom then s.bankTurnOn (dom - 64) (!kept)
  else if 36 ≤ dom ∧ dom < 40 then (if kept then later 1500 else (s.setDom dom 3).qdrTrain (dom - 36))
  else if 32 ≤ dom ∧ dom < 36 then (if kept then later 0 else s.setDom dom 3)
  else if 40 ≤ dom ∧ dom < 46 then (s.setDom dom 3).portReturns (dom - 40)
  else if 48 ≤ dom ∧ dom < 54 then (s.setDom dom 3).lanesReturn (dom - 48)
  else
    let t := s.setDom dom 3
    match domFabric dom with
    | some d => t.fabricReturns d
    | none => t

/-- A request to on: the state reads changing, and the step ends with a crystal edge (R7, R372). -/
def State.askOn (s : State) (dom : Nat) : State :=
  let st := s.domState dom
  if st = 1 ∨ st = 3 then s
  else
    let t := s.setDom dom 1
    { t with pwr := { t.pwr with rising := t.pwr.rising ++ [(dom, none)]
                                 kept := if st = 2 then t.pwr.kept ++ [dom] else t.pwr.kept } }

/-- The step of turning on has ended with the crystal edge at tick `e`: it takes effect on one of the first three ticks after it, which
one being free (R7). -/
def State.rise (s : State) (dom e : Nat) : State :=
  if s.now ≤ e then s
  else
    let (y, t) := s.freshB
    if y || decide (e + 3 ≤ t.now) then
      ({ t with pwr := { t.pwr with rising := t.pwr.rising.filter (fun x => x.1 != dom) } }).turnOn dom
    else t
/-- Every domain whose step has ended turns on, where this is its tick. -/
def State.riseTick (s : State) : State :=
  s.pwr.rising.foldl (fun t x => match x.2 with
    | some e => t.rise x.1 e
    | none => t) s

/-- The last request was performed: `DONE` and event 0 (R378). -/
def State.pwrDone (s : State) : State := (s.setBit aPWR_RESULT fPWR_RESULT_DONE true).raise 0

/-- The wake requests behind the request in progress are handled (R377). -/
def State.drainWakes (s : State) : State :=
  if s.pwr.cur.isSome then s
  else
    let l := s.pwr.wakes
    l.foldl (fun t dom => (t.askOn dom).pwrDone) { s with pwr := { s.pwr with wakes := [] } }

/-! ### Requests (R371, R372) -/

/-- A write of `PWR_REQ` (R371). -/
def pwrReqWrite (v : W32) (s : State) : Answer :=
  let dom := getF v fPWR_REQ_DOMAIN
  let target := getF v fPWR_REQ_TARGET
  let st := s.domState dom
  if s.pwr.cur.isSome || target == 2 || !domKnown dom || (target == 1 && st == 0) then refuse s
  else
    let held := (target == 0 && st == 0) || (target == 1 && st == 2) || (target == 3 && st == 3)
    if held then wrote s.pwrDone
    else if target = 3 then wrote (s.askOn dom).pwrDone
    else
      let r : PwrReq := { domain := dom, target := target, rim := 0, askAt := 0, granted := false, edges := 0, edgeAt := 0 }
      wrote (({ s with pwr := { s.pwr with cur := some r } }).setBit aPWR_REQ fPWR_REQ_BUSY true)

/-- `PWR_REQ` written by master m. -/
def execPwrReq (m : Rm) (domain : BitVec 7) (target : BitVec 2) (s : State) : Host.Outcome State Fault Refusal :=
  let v := putF (putF 0#32 fPWR_REQ_TARGET target.toNat) fPWR_REQ_DOMAIN domain.toNat
  .next (ringPut m aPWR_REQ v (pwrReqWrite v) s)

/-- The request in progress ends. -/
def State.pwrEnd (s : State) : State :=
  ({ s with pwr := { s.pwr with cur := none } }).setBit aPWR_REQ fPWR_REQ_BUSY false

/-- The request ends refused: the reason, the refusing block, event 1 (R372, R378). Where several blocks of the domain could
have refused, which one is named is a free value. -/
def State.pwrRefuse (s : State) (dom reason : Nat) : State :=
  let (blk, s) : Nat × State := match domBlock dom with
    | some b => (b, s)
    | none => ((s.fresh 16).1.toNat, (s.fresh 16).2)
  let a := aPWR_RESULT
  let t := ((s.pwrEnd.setFld a fPWR_RESULT_REASON reason).setFld a fPWR_RESULT_DIE (domDie dom)).setFld a fPWR_RESULT_BLOCK blk
  ((t.setBit a fPWR_RESULT_REFUSED true).raise 1).drainWakes

/-- The blocks' answers to an ask: refuse, delay with a free count of at least 1, or grant (R372, R373). -/
def State.pwrAnswers (s : State) (r : PwrReq) : State :=
  match s.refusals r.domain with
  | [] =>
    if s.mustDelay r.domain then
      let (n, t) := s.fresh 16
      { t with pwr := { t.pwr with cur := some { r with askAt := r.rim + max 1 n.toNat } } }
    else { s with pwr := { s.pwr with cur := some { r with granted := true } } }
  | [x] => s.pwrRefuse r.domain x
  | x :: y :: _ =>
    let (b, t) := s.freshB
    t.pwrRefuse r.domain (if b then x else y)

/-- The controller asks every block of the domain (R372). -/
def execPowerHandshakeAsk (s : State) : Host.Outcome State Fault Refusal :=
  match s.pwr.cur with
  | some r => if s.hubRuns && !r.granted && r.askAt == 0 then .next (s.pwrAnswers r) else .next s
  | none => .next s

/-- The largest delay count ends and the blocks are asked again (R372). -/
def execPowerDelayExpiry (s : State) : Host.Outcome State Fault Refusal :=
  match s.pwr.cur with
  | some r => if s.hubRuns && !r.granted && r.askAt != 0 && decide (r.askAt ≤ r.rim) then .next (s.pwrAnswers r) else .next s
  | none => .next s

/-- `PWR_LIMIT.LIMIT` rim cycles have passed without a grant (R372). -/
def execPowerLimitExpiry (s : State) : Host.Outcome State Fault Refusal :=
  match s.pwr.cur with
  | some r => if !r.granted && decide (s.fld aPWR_LIMIT fPWR_LIMIT_LIMIT ≤ r.rim) then .next (s.pwrRefuse r.domain 7) else .next s
  | none => .next s

/-! ### The change of state (R369, R370) -/

/-- The fabric of a die leaves on: the die is not running, and `DONE` is low (R370); off loses everything. -/
def State.fabricLeaves (s : State) (d : Nat) (off : Bool) : State :=
  let t := if d < 6 then
      { s.setBit aCFG_STATUS fCFG_STATUS_DONE false with pins := { s.pins with done := false } }
    else s
  if off then t.unconfigure d else if t.dieState d = 3 then t.setDie d 2 else t

/-- The registers of a die's NIs. -/
def niRegs (d a : Nat) : Bool :=
  if d = 7 then a / 65536 == 7 * 65536 + 0xA00 && decide (0x50 < a % 65536)
  else a / 4294967296 == d && decide (0x100 ≤ a / 65536 % 65536) && decide (a / 65536 % 65536 < 0x130)

/-- The Weave part of a die goes off: tables, FIFOs and registers are lost (R369); A then awaits rejoin (R345). -/
def State.weaveOff (s : State) (d : Nat) : State :=
  let t := (((s.loseTables d).loseNis d).purgeFlight d).resetRegs (niRegs d)
  if d = 7 then { t with ana := { t.ana with afOld := [], afSwitch := [] } }.awaitRejoin 7 else t

/-- Core n leaves on: it stops, and what the debug logic held of it is lost; off loses the core and its memories (R369). -/
def State.coreLeaves (s : State) (n : Nat) (off : Bool) : State :=
  let halted := s.coreState n == 3
  let t := (s.tearDown n).dbgLost (16 + n)
  let t := if halted then t.setCoreState n (if t.bit (aCORE_CTRL n) fCORE_CTRL_RUN then 1 else 0) else t
  if off then
    let t := t.resetRegs (fun a => a / 65536 == 6 * 65536 + 0x10 + n)
    let t := t.zeroCore n
    { t with mem := tkeep (fun a => !(decide (imBase n ≤ a) && decide (a < imBase n + 0x20000)) &&
        !(decide (dmBase n ≤ a) && decide (a < dmBase n + 0x40000))) t.mem }
  else t

/-- The DMA engines go off (R369). -/
def State.dmaOff (s : State) : State :=
  let t := (List.range 4).foldl (fun t e => t.disown (dmaNi e) (fun o => match o with
    | .dma k _ => k == e
    | _ => false)) s
  let t := { t with banks := { t.banks with dma := [] } }
  t.resetRegs (fun a => a / 65536 == 6 * 65536 + 0x20 && decide (0x400 ≤ a % 65536))

/-- Lanes of Ln go to rest; off returns their registers to reset (R369). -/
def State.lanesLeave (s : State) (d : Nat) (off : Bool) : State :=
  let mine (a : Nat) : Bool := a / 4294967296 == d && decide (0x200 ≤ a / 65536 % 65536) && decide (a / 65536 % 65536 < 0x204)
  if off then { s.resetRegs mine with lanes := tkeep (fun k => !mine k) s.lanes }
  else (List.range 16).foldl (fun t i =>
    let b := quadBlock d (i / 4)
    t.setReg (aLN_STATUS b (i % 4)) (t.reg (aLN_STATUS b (i % 4)) &&& 8#32)) s

/-- The analog blocks leave on: runs end; off is as a die reset of these blocks (R322, R369). -/
def State.blocksLeave (s : State) (off : Bool) : State :=
  let t := (List.range 48).foldl State.abHalt s
  if off then
    let t := t.resetRegs (fun a => a / 4294967296 == 7 && decide (0x700 ≤ a / 65536 % 65536) && decide (a / 65536 % 65536 ≤ 0x780))
    { t with ana := { t.ana with blocks := [], swap := none } }
  else t

/-- The converters leave on: conversions end; off is as after a reset (R366, R369). -/
def State.convertersLeave (s : State) (off : Bool) : State :=
  let t := (List.range 16).foldl State.icHalt s
  if off then
    let t := t.resetRegs (fun a => a / 4294967296 == 7 && decide (0x800 ≤ a / 65536 % 65536) && decide (a / 65536 % 65536 ≤ 0x900))
    { t with ana := { t.ana with ics := [], cross := none, periods := [] } }
  else t

/-- The domain's blocks leave on, for retention or off (R369). -/
def State.leave (s : State) (dom : Nat) (off : Bool) : State :=
  if 64 ≤ dom then
    let t := { s with banks := { s.banks with wake := tput (fun _ => (0, false)) s.banks.wake (dom - 64) (0, false) } }
    if off then t.bankLose (dom - 64) else t
  else if dom < 6 then s.fabricLeaves dom off
  else if dom < 15 then (if off then s.weaveOff (dom - 8) else s)
  else if dom < 24 then s.coreLeaves (dom - 16) off
  else if dom = 24 then (if off then s.dmaOff else s)
  else if 32 ≤ dom ∧ dom < 36 then (if off then s.dramOff (dom - 32) else s.dramSleep (dom - 32))
  else if 36 ≤ dom ∧ dom < 40 then s
  else if 40 ≤ dom ∧ dom < 46 then (if s.tpState (dom - 40) = 11 then s else s.portStage (dom - 40) 11)
  else if 48 ≤ dom ∧ dom < 54 then s.lanesLeave (dom - 48) off
  else if dom = 56 then s.blocksLeave off
  else if dom = 57 then s.convertersLeave off
  else
    let t := s.fabricLeaves 7 off
    if off then t.weaveOff 7 else t

/-- All blocks have granted: the domain changes state (R372). -/
def State.changeDomain (s : State) (r : PwrReq) : State :=
  let waits := s.pwr.rising.any (fun x => x.1 == r.domain)
  let st := if waits then (if s.pwr.kept.contains r.domain then 2 else 0) else s.domState r.domain
  let t := { s with pwr := { s.pwr with turning := s.pwr.turning.filter (fun x => x.1 != r.domain)
                                        rising := s.pwr.rising.filter (fun x => x.1 != r.domain)
                                        kept := s.pwr.kept.filter (· != r.domain) } }
  let t := if r.target = 1 ∧ st = 2 ∨ r.target = 0 ∧ st = 0 then t else t.leave r.domain (r.target == 0)
  ((t.setDom r.domain (if r.target = 1 then 2 else 0)).pwrEnd.pwrDone).drainWakes

/-- The change of a granted request may take effect on this tick: one of the first three after the first or second crystal edge since
the grant (R7, R372). -/
def PwrReq.due (r : PwrReq) (now : Nat) : Bool :=
  r.granted && decide (1 ≤ r.edges) && decide (r.edges ≤ 2) && decide (r.edgeAt < now) && decide (now ≤ r.edgeAt + 3)

/-- The domain of the granted request changes state on one of the ticks that R7 allows. -/
def execDomainStateChange (s : State) : Host.Outcome State Fault Refusal :=
  match s.pwr.cur with
  | some r => if s.hubRuns && r.due s.now then .next (s.changeDomain r) else .next s
  | none => .next s

/-- On the last tick that R7 allows the change takes place. -/
def State.changeTick (s : State) : State :=
  match s.pwr.cur with
  | some r => if r.due s.now && r.edges == 2 && s.now == r.edgeAt + 3 then s.changeDomain r else s
  | none => s

/-- A domain turning on is ready after the time of its chapter (R284, R297, R372). -/
def execDomainReady (domain : BitVec 7) (s : State) : Host.Outcome State Fault Refusal :=
  let dom := domain.toNat
  if s.hubRuns && s.pwr.turning.any (fun x => x.1 == dom && decide (x.2 ≤ s.now)) then
    let t := { s with pwr := { s.pwr with turning := s.pwr.turning.filter (fun x => x.1 != dom) } }
    let t := t.setDom dom 3
    .next (if 32 ≤ dom ∧ dom < 36 then t.dramWake (dom - 32) else t)
  else .next s

/-! ### The RTC (R376, R377) -/

/-- A write of `RTC_CTRL`; `LOAD` copies `RTC_SET` at the next rim cycle. -/
def rtcCtrlWrite (v : W32) (s : State) : Answer :=
  let t := s.plainWrite aRTC_CTRL v
  wrote (if getB v fRTC_CTRL_LOAD then { t with pwr := { t.pwr with loadPending := true } } else t)
/-- `RTC_CTRL.LOAD` written by master m. -/
def execRtcLoad (m : Rm) (s : State) : Host.Outcome State Fault Refusal :=
  let v := putF (s.reg aRTC_CTRL) fRTC_CTRL_LOAD 1
  .next (ringPut m aRTC_CTRL v (rtcCtrlWrite v) s)

/-- The snapshot that a write of `RTC_SNAP` takes; the tick reads zero while domain clocks are stopped. -/
def State.rtcCapture (s : State) : State :=
  let tick := if s.hubRuns then s.tickN else 0
  (s.setReg64 aRTC_SNAP_LO aRTC_SNAP_HI s.pwr.rtc.toNat).setReg64 aRTC_SNAP_TLO aRTC_SNAP_THI tick
/-- `RTC_SNAP` written by master m. -/
def execRtcSnap (m : Rm) (s : State) : Host.Outcome State Fault Refusal :=
  .next (ringPut m aRTC_SNAP 0#32 (fun s => wrote s.rtcCapture) s)

/-- The alarm count that `RTC_ALM` holds. -/
def State.alarmAt (s : State) : Nat := s.reg64 aRTC_ALM_LO aRTC_ALM_HI % 2 ^ 48
/-- Domains whose wake bit is set. -/
def State.wakeList (s : State) : List Nat :=
  (List.range 128).filter (fun j => (s.reg (aRTC_WAKE (j / 32))).getLsbD (j % 32) && domKnown j)

/-- The counter equals the alarm: `ALARM`, event 1,936, and the wake requests unless the domain clocks are stopped. -/
def execRtcAlarm (s : State) : Host.Outcome State Fault Refusal :=
  if s.bit aRTC_CTRL fRTC_CTRL_ALM_EN && !s.pwr.rtcStopped && !s.pwr.almDone && s.pwr.rtc.toNat == s.alarmAt &&
      s.clk.phase != .porHold then
    let t := { s with pwr := { s.pwr with almDone := true } }
    let t := (t.setBit aRIM_STAT fRIM_STAT_ALARM true).raise 1936
    if t.bit aRTC_CTRL fRTC_CTRL_WAKE_EN && t.hubRuns then
      .next ({ t with pwr := { t.pwr with wakes := t.pwr.wakes ++ t.wakeList } }).drainWakes
    else .next t
  else .next s

/-- No crystal edge for 1 ms: `RTC_FAIL`, event 1,937, and the counter stands. -/
def execRtcFail (s : State) : Host.Outcome State Fault Refusal :=
  if s.pwr.rtcStopped then .next s
  else .next (({ s with pwr := { s.pwr with rtcStopped := true } }).setBit aRIM_STAT fRIM_STAT_RTC_FAIL true |>.raise 1937)
/-- Crystal edges return. -/
def execRtcEdgesReturn (s : State) : Host.Outcome State Fault Refusal :=
  .next { s with pwr := { s.pwr with rtcStopped := false } }

end Sys2Proof.Machine
end

