-- ==== Sys2Proof/Machine/Events.lean ====
section
/-! DEFINITION. Event delivery: source pulses (R381, R384), collector messages (R379), the bridge's channel messages (R380, R381) and the
`EVT_OUT` pins (R383). -/

namespace Sys2Proof.Machine

/-- The event number has a source: chapters 01 to 18 assign it (R24, R384). -/
def eventAssigned (e : Nat) : Bool :=
  if e < 64 then !(4 ≤ e && e ≤ 15 || e == 23 || 36 ≤ e && e ≤ 39 || 48 ≤ e)
  else if e < 128 then e % 8 != 7
  else if e < 192 then !(e == 134 || e == 135 || 148 ≤ e)
  else if e < 320 then !(10 ≤ e % 32 && e % 32 ≤ 15 || 19 ≤ e % 32)
  else if e < 352 then decide (e % 8 < 5)
  else if e < 384 then decide (e < 360)
  else if e < 768 then true
  else if e < 1536 then
    let k := e % 128
    !(84 ≤ k && k ≤ 95 || 117 ≤ k && k ≤ 123 || 126 ≤ k)
  else if e < 1728 then !(9 ≤ e % 32 && e % 32 ≤ 15)
  else !(1833 ≤ e && e ≤ 1855 || 1890 ≤ e && e ≤ 1918 || 1931 ≤ e && e ≤ 1935 || 1939 ≤ e && e ≤ 1951)

/-- A source pulses: the raw bit and the sinks of its route on H, the collector's pending bit on another die (R379, R381). -/
def execEventOccurrence (e : BitVec 11) (s : State) : Host.Outcome State Fault Refusal :=
  let n := e.toNat
  let live := if isCollected n then s.runs && !s.inReset (eventDie n) else s.hubRuns
  if live && eventAssigned n then .next (s.raise n) else .next s

/-! ### Collectors (R379) -/

/-- Sending NI of a die's collector, and the code of its one hop; A's collector sends through the A stage. -/
def collectorNi (d : Nat) : Nat × Option Nat := if d < 3 then (24, some 2) else if d < 6 then (0, some 0) else (0, none)

/-- Hub NI at which a collector's messages arrive. -/
def collectorDst (d : Nat) : Nat := if d < 3 then 8 * d else if d < 6 then 24 + 8 * (d - 3) else 0

/-- The path of a collector's messages is available: Weave domains on, the die not in reset, its modules in `RUN`. -/
def State.collectorPath (s : State) (d : Nat) : Bool :=
  let (n, hop) := collectorNi d
  let mods := match hop with
    | some h => (match (downstream d n h).2.2.2.1 with
      | some (.link b) => [b]
      | _ => [])
    | none => [ra 7 0 0x140]
  s.runs && s.domOn (weaveDom d) && s.domOn 14 && !s.inReset d && mods.all (fun b => s.lmState b == 6)

/-- The message of a collector for event e. -/
def State.collectorMsg (s : State) (d e : Nat) : Packet :=
  let (n, hop) := collectorNi d
  let a := msgAddr s.devId 0x7E00 false 0 e
  let h := hset (hset 0#256 0 3 0 4) 0 5 4 3
  let h := hset (hset (hset h 1 15 0 s.devId) 1 21 16 n) 1 24 22 d
  let h := hset (hset (hset h 2 15 0 s.devId) 2 21 16 (collectorDst d)) 2 24 22 6
  let h := hset (hset h 4 31 0 (a.toNat % 2 ^ 32)) 5 31 0 (a.toNat / 2 ^ 32)
  match hop with
  | some c => { hdr := hSetHops (hset h 3 26 22 1) c, data := [] }
  | none => { hdr := h, data := [] }

/-- A collector sends the message of a pending bit once its path is available (R379). -/
def execCollectorMessageSend (e : BitVec 11) (s : State) : Host.Outcome State Fault Refusal :=
  let k := e.toNat
  let d := eventDie k
  if isCollected k && tget (fun _ => false) s.ev.coll k && s.collectorPath d then
    let t := { s with ev := { s.ev with coll := tput (fun _ => false) s.ev.coll k false } }
    .next (t.inject d (collectorNi d).1 (s.collectorMsg d k) 0)
  else .next s

/-! ### The bridge (R380, R381) -/

/-- The packet of a channel message, before its NI fills in the rest. -/
def channelPacket (m : EvMsg) : Packet :=
  let h := hset (hset 0#256 0 3 0 4) 0 5 4 m.pri
  { hdr := hset (hset h 4 31 0 (m.addr.toNat % 2 ^ 32)) 5 31 0 (m.addr.toNat / 2 ^ 32), data := [] }

/-- The bridge's oldest queued message leaves through hub NI 47, whatever the NI's state (R381). -/
def execBridgeMessageSend (s : State) : Host.Outcome State Fault Refusal :=
  match s.ev.bridgeQ with
  | [] => .next s
  | m :: rest =>
    if s.runs && s.domOn 14 then
      .next (({ s with ev := { s.ev with bridgeQ := rest } }).admitPkt 6 47 (channelPacket m) (0x10 + 47) none)
    else .next s

/-- What the bridge does with a message: raise its event or its channel's, or count it as bad (R380, R384). -/
def State.bridgeTake (s : State) (m : EvMsg) : State :=
  let a := m.addr.toNat
  let e := a % 2048
  if a.testBit 15 then
    let c := a / 4096 % 8
    let t := s.setReg (aEV_RX_0 c) (BitVec.ofNat 32 (m.srcDev.toNat * 65536 + e))
    (t.satInc (aEV_RX_1 c) fEV_RX_1_COUNT).raiseHub (40 + c)
  else if m.srcDev.toNat = s.devId ∧ isCollected e ∧ eventDie e = m.srcDie then s.raiseHub e
  else
    let first := s.fld aEV_STAT fEV_STAT_BADMSG == 0
    let t := s.satInc aEV_STAT fEV_STAT_BADMSG
    if first then t.raiseHub 2 else t

/-- The bridge handles the oldest message handed to it (R380). -/
def execEventMessageReceive (s : State) : Host.Outcome State Fault Refusal :=
  match s.ev.flight with
  | [] => .next s
  | m :: rest => if s.hubRuns then .next (({ s with ev := { s.ev with flight := rest } }).bridgeTake m) else .next s

/-! ### `EVT_OUT` (R383) -/

/-- A pulse ends. -/
def execEvtOutPulseEnd (i : Fin 8) (s : State) : Host.Outcome State Fault Refusal :=
  let p := s.outPin i.val
  match p.pulseUntil with
  | some t => if s.hubRuns && decide (t ≤ s.now) then .next (s.setOutPin i.val { p with pulseUntil := none }) else .next s
  | none => .next s

/-- A write of `EV_OUT_CLR`: levels end, but for one set on the same tick. -/
def evOutClrWrite (v : W32) (s : State) : Answer :=
  wrote ((List.range 8).foldl (fun t i =>
    let p := t.outPin i
    if v.getLsbD i && p.setAt != t.now + 1 then t.setOutPin i { p with level := false } else t) s)
/-- `EV_OUT_CLR` written by master m. -/
def execEvOutClr (m : Rm) (mask : BitVec 8) (s : State) : Host.Outcome State Fault Refusal :=
  .next (ringPut m aEV_OUT_CLR (mask.setWidth 32) (evOutClrWrite (mask.setWidth 32)) s)

/-- A write of `EV_OUT_CFG_i`: `EN` = 0 ends whatever the pin was doing. -/
def evOutCfgWrite (i : Nat) (v : W32) (s : State) : Answer :=
  let t := s.plainWrite (aEV_OUT_CFG i) v
  wrote (if getB v fEV_OUT_CFG_EN then t else t.setOutPin i OutPin.idle)
/-- `EV_OUT_CFG_i` written by master m. -/
def execEvOutCfgWrite (m : Rm) (i : Fin 8) (v : W32) (s : State) : Host.Outcome State Fault Refusal :=
  .next (ringPut m (aEV_OUT_CFG i.val) v (evOutCfgWrite i.val v) s)

end Sys2Proof.Machine
end

