-- ==== Sys2Proof/Machine/Clock.lean ====
section
/-! DEFINITION. The end of a ring access at the root (R21, R178), the root's references and their control (R31, R32, R35, R179), fabric
clock generators (R45), the tick and its alignment across devices (R46 to R50, R163). -/

namespace Sys2Proof.Machine

/-! ### The end of a ring access (R10, R21, R178) -/

/-- The response of a remote packet's access retraces the packet's path (R178). -/
def remoteResponse (b : BitVec 120) (st : RStat) (d : W32) : Remote :=
  let r := remoteOf b
  let code := match st with
    | .ok => 0
    | .decode => 1
    | .timeout => 2
    | .refused => 3
  { r with op := r.op + 2, status := code, data := if r.op = 1 then 0#32 else d, dx := -r.tx, dy := -r.ty
           dz := -r.tz, tx := 0, ty := 0, tz := 0, rev := true }

/-- Master m's access completes with a status and read data. The spec states no data for a read that times out or is
refused: a free value. What core 0 reads lands in `RDATA`; a remote packet's access is answered to its gateway (R178). -/
def State.ringFinish (s : State) (m : Rm) (st : RStat) (d : W32) : State :=
  let r := s.master m
  let idle : RingMaster := { r with busy := false, answered := false, waiting := false, remote := none, status := st }
  let stated := r.req.write || st == .ok || st == .decode
  let v : W32 := if stated then d else (s.fresh 32).1
  let t := if stated then s else (s.fresh 32).2
  let t := t.setMaster m (if r.req.write then idle else { idle with data := v })
  match r.remote with
  | some b => t.sendRemote (remoteResponse b st v)
  | none =>
    match m with
    | .core0 => if r.req.write then t else t.setThr 0 { t.thr 0 with rdata := v }
    | _ => t

/-! ### Reference sources (R31 to R36) -/

/-- The recovery lane is present: its port between `UNVERIFIED` and `HALF` or quiet, the lane neither faulty nor left out of a half
width, and locked (R31, R179). -/
def State.laneRecovers (s : State) : Bool :=
  let p := s.fld aREF_CTRL fREF_CTRL_PORT
  let i := s.fld aREF_CTRL fREF_CTRL_LANE
  let (b, j) := portLane p i
  decide (p < 6) && (s.portManages p || s.tpState p == 10) && !s.laneExcluded p i && !(s.lane b j).faulty &&
    s.bit (aLN_STATUS b j) fLN_STATUS_CDR_LOCK

/-- A difference lies in the presence window of R31, in units of 0.01 ppm. -/
def State.inWindow (s : State) (diff : Nat) : Bool :=
  let x := sint 24 diff + 25000 * (s.fld aREF_CTRL fREF_CTRL_INH : Int)
  decide (-20000 ≤ x) && decide (x ≤ 20000)
/-- The last average exists and lies in the window. -/
def State.freqOk (s : State) : Bool := s.bit aFREQ_MON fFREQ_MON_VALID && s.inWindow (s.fld aFREQ_MON fFREQ_MON_DIFF)

/-- A write of `REF_CTRL`, checked as a whole (R32, R35). A new recovery lane has yet to qualify, and no average of it exists (DEDUCED).
A write that keeps `SRC` = 1 and names another lane sets no `SLEW` (DESIGN CHOICE, unsafe, log entry 121). -/
def refCtrlWrite (v : W32) (s : State) : Answer :=
  let r := aREF_STATUS
  let src := getB v fREF_CTRL_SRC
  let active := s.bit r fREF_STATUS_ACTIVE
  let hold := s.bit r fREF_STATUS_HOLD
  let bad := if src then !s.bit r fREF_STATUS_REC_OK else (active || hold) && !s.bit r fREF_STATUS_LOC_OK
  if 10 < getF v fREF_CTRL_INH ∨ bad then refuse s
  else
    let moved := getF v fREF_CTRL_PORT != s.fld aREF_CTRL fREF_CTRL_PORT || getF v fREF_CTRL_LANE != s.fld aREF_CTRL fREF_CTRL_LANE
    let t := s.plainWrite aREF_CTRL v
    let t := (t.setBit r fREF_STATUS_ACTIVE src).setBit r fREF_STATUS_HOLD false
    let t := if src != active || hold then t.setBit r fREF_STATUS_SLEW true else t
    let t := if moved then (t.setBit r fREF_STATUS_REC_OK false).setBit aFREQ_MON fFREQ_MON_VALID false else t
    wrote { t with clk := { t.clk with sscHeld := t.clk.sscHeld && src } }.syncBreach
/-- `REF_CTRL` written by master m. -/
def execRefCtrlWrite (m : Rm) (v : W32) (s : State) : Host.Outcome State Fault Refusal :=
  .next (ringPut m aREF_CTRL v (refCtrlWrite v) s)

/-! ### Spread spectrum and the fabric clock generators (R41, R45) -/

/-- A write of `SSC_CTRL`. -/
def sscCtrlWrite (v : W32) (s : State) : Answer :=
  if 10 < getF v fSSC_CTRL_DEPTH then refuse s else wrote (s.plainWrite aSSC_CTRL v)
/-- `SSC_CTRL` written by master m. -/
def execSscCtrlWrite (m : Rm) (v : W32) (s : State) : Host.Outcome State Fault Refusal :=
  .next (ringPut m aSSC_CTRL v (sscCtrlWrite v) s)
/-- A modulation period boundary: the setting takes effect (R41), unless a holdover has made the root ignore it (R42). -/
def execSscChange (s : State) : Host.Outcome State Fault Refusal :=
  if s.hubRuns && !s.clk.sscHeld then
    let seen := if s.clk.sscAct = s.reg aSSC_CTRL then s.clk.sscSeen else 0
    .next { s with clk := { s.clk with sscAct := s.reg aSSC_CTRL, sscSeen := seen } }
  else .next s

/-- A write of `FCLK_CFG_n`. -/
def fclkCfgWrite (n : Nat) (v : W32) (s : State) : Answer :=
  if getB v fFCLK_CFG_EN && decide (getF v fFCLK_CFG_DIV < 8) then refuse s
  else
    let t := s.plainWrite (aFCLK_CFG n) v
    wrote { t with clk := { t.clk with fclkSet := tput (fun _ => 0) t.clk.fclkSet n t.now } }
/-- `FCLK_CFG_n` written by master m. -/
def execFclkCfgWrite (m : Rm) (n : Fin 16) (v : W32) (s : State) : Host.Outcome State Fault Refusal :=
  .next (ringPut m (aFCLK_CFG n.val) v (fclkCfgWrite n.val v) s)
/-- The generator runs with a changed setting from a tick after the write that is a multiple of 24 (R45). -/
def execFclkChange (n : Fin 16) (s : State) : Host.Outcome State Fault Refusal :=
  let v := s.reg (aFCLK_CFG n.val)
  if s.hubRuns && s.tickN % 24 == 0 && decide (tget (fun _ => 0) s.clk.fclkSet n.val < s.now) && tget (fun _ => 0#32) s.clk.fclkAct n.val != v then
    .next { s with clk := { s.clk with fclkAct := tput (fun _ => 0#32) s.clk.fclkAct n.val v
                                       fclkStart := tput (fun _ => 0) s.clk.fclkStart n.val s.tickN } }
  else .next s

/-! ### The tick (R46 to R50, R163) -/

/-- A write of `TICK_SNAP` by master m captures the tick into m's pair (R46). -/
def tickSnapWrite (m : Rm) (s : State) : Answer := wrote (s.setReg64 (aTICK_LO (rmIdx m)) (aTICK_HI (rmIdx m)) s.tickN)
/-- `TICK_SNAP` written by master m. -/
def execTickSnap (m : Rm) (v : W32) (s : State) : Host.Outcome State Fault Refusal :=
  .next (ringPut m aTICK_SNAP v (tickSnapWrite m) s)

/-- Every port that runs frames sends a time marker with the tick and the aligned flag, once on its tick (R163). -/
def execTimeMarkerSend (s : State) : Host.Outcome State Fault Refusal :=
  if s.runs && s.tickN % 65536 == 0 then
    let t := { s with clk := { s.clk with markerTick := s.clk.tick, markerFlag := s.aligned } }
    .next ((List.range 6).foldl State.portFrame t)
  else .next s

/-- Upstream port, where it is one and its receive side delivers control positions. -/
def State.upPort (s : State) : Option Nat :=
  let p := s.fld aTICK_CTRL fTICK_CTRL_UP_PORT
  if p < 6 ∧ s.portManages p then some p else none

/-- Alignment is lost (R47). -/
def State.loseAlign (s : State) : State :=
  let a := aTICK_ALIGN
  let t := ((s.setBit a fTICK_ALIGN_ALIGNED false).setBit a fTICK_ALIGN_LOST true).raise 22
  ({ t with pat := { t.pat with alignLost := true } }).syncBreach

/-- The expected marker tick nearest to tick `a`, where it lies within 64 ticks of it (R47). -/
def expectedNear (c a : Nat) : Option Nat :=
  let x := (a + 65536 * (c / 65536 + 1) - c) % 65536
  if x ≤ 64 ∧ x ≤ a then some (a - x) else if 65536 - 64 ≤ x then some (a + (65536 - x)) else none

/-- What a comparison of a marker from port p measures, in 64ths of a tick: this device's tick less D less the marker's value (R47; DESIGN
CHOICE of the sign, unsafe, log entry 26). -/
def State.markerOff (s : State) (p : Nat) (value : W64) (frac : Fin 64) : Int :=
  sint 70 (ofInt 70 (((s.tickN * 64 + frac.val : Nat) : Int) - s.fld (aTP_LAT p) fTP_LAT_D - ((value.toNat * 64 : Nat) : Int)))

/-- A marker leaves the receive deskew of the upstream port, `frac` 64ths of a tick after the present tick began. Inside its window
an aligned device compares it; outside, the device ignores it (R47). A difference that does not fit `OFFSET` leaves a free value there
(log entry 26). -/
def execTimeMarkerCompare (value : W64) (aligned : Bool) (frac : Fin 64) (s : State) : Host.Outcome State Fault Refusal :=
  match s.upPort with
  | some p =>
    let d := s.fld (aTP_LAT p) fTP_LAT_D
    let a := aTICK_ALIGN
    if !s.runs || s.bit aTICK_CTRL fTICK_CTRL_MASTER || (s.clk.loadArmed && aligned) then .next s
    else if !s.bit a fTICK_ALIGN_ALIGNED then .next (s.setBit a fTICK_ALIGN_UP_ALIGNED aligned)
    else
      match expectedNear ((d + 63) / 64) s.tickN with
      | some e =>
        if s.clk.lastCmp ≤ e then
          let off := s.markerOff p value frac
          let fits := decide (-32768 ≤ off) && decide (off ≤ 32767)
          let (v, t) := if fits then (ofInt 16 off, s) else ((s.fresh 16).1.toNat, (s.fresh 16).2)
          let t := (t.setBit a fTICK_ALIGN_UP_ALIGNED aligned).setFld a fTICK_ALIGN_OFFSET v
          let t := { t with clk := { t.clk with lastCmp := e + 1 } }
          .next (if t.fld aTICK_CTRL fTICK_CTRL_TOL < off.natAbs || !aligned then t.loseAlign else t)
        else .next s
      | none => .next s
  | none => .next s

/-- The last expected tick that 64 ticks have passed since has had no comparison (R47). -/
def execMarkerMissing (s : State) : Host.Outcome State Fault Refusal :=
  let c := (s.fld (aTP_LAT (s.fld aTICK_CTRL fTICK_CTRL_UP_PORT)) fTP_LAT_D + 63) / 64
  let t := s.tickN
  if s.runs && s.bit aTICK_ALIGN fTICK_ALIGN_ALIGNED && !s.bit aTICK_CTRL fTICK_CTRL_MASTER && decide (c + 64 ≤ t) then
    let e := t - 64 - (t - 64 - c) % 65536
    .next (if s.clk.lastCmp ≤ e then s.loseAlign else s)
  else .next s

/-- A write of `TICK_CTRL` (R48, R50). -/
def tickCtrlWrite (v : W32) (s : State) : Answer :=
  let old := s.reg aTICK_CTRL
  let v := if getF v fTICK_CTRL_TOL = 0 then putF v fTICK_CTRL_TOL (getF old fTICK_CTRL_TOL) else v
  let mst := getB v fTICK_CTRL_MASTER
  let was := getB old fTICK_CTRL_MASTER
  let upMoved := getF v fTICK_CTRL_UP_PORT != getF old fTICK_CTRL_UP_PORT
  let arm := getB v fTICK_CTRL_ARM
  let busy := s.bit aPAT_STATUS fPAT_STATUS_RUN || s.fld aPAT_STATUS fPAT_STATUS_ARMED != 0
  if ((mst != was || upMoved) && s.anySched) || (arm && (busy || mst)) then refuse s
  else
    let t := s.plainWrite aTICK_CTRL v
    let t := if mst || was then t.setBit aTICK_ALIGN fTICK_ALIGN_ALIGNED mst else t
    let t := { t with clk := { t.clk with
      loadArmed := (t.clk.loadArmed && !mst) || arm
      lastCmp := if upMoved then t.tickN + 1 else t.clk.lastCmp } }
    wrote t.syncBreach
/-- `TICK_CTRL` written by master m with `ARM` = 1 (R48). -/
def execTickLoadArm (m : Rm) (v : W32) (s : State) : Host.Outcome State Fault Refusal :=
  let v := putF v fTICK_CTRL_ARM 1
  .next (ringPut m aTICK_CTRL v (tickCtrlWrite v) s)
/-- `TICK_CTRL` written by master m (R50). -/
def execTickCtrlMasterWrite (m : Rm) (v : W32) (s : State) : Host.Outcome State Fault Refusal :=
  .next (ringPut m aTICK_CTRL v (tickCtrlWrite v) s)

/-- An aligned upstream marker arrives while a load is armed: tick and root phase are set, and every enabled generator
restarts (R45, R48). -/
def execTickLoad (value : W64) (s : State) : Host.Outcome State Fault Refusal :=
  match s.upPort with
  | some p =>
    if s.runs && s.clk.loadArmed then
      let d := s.fld (aTP_LAT p) fTP_LAT_D
      let tick := value + BitVec.ofNat 64 (d / 64)
      let next := (tick.toNat + 23) / 24 * 24
      let t := { s with clk := { s.clk with
        tick := tick, rootShift := d % 64, loadArmed := false, lastCmp := tick.toNat + 2
        fclkStart := (List.range 16).foldl (fun l n =>
          if (tget (fun _ => 0#32) s.clk.fclkAct n).getLsbD 31 then tput (fun _ => 0) l n next else l) s.clk.fclkStart } }
      let a := aTICK_ALIGN
      .next (((t.setBit a fTICK_ALIGN_ALIGNED true).setBit a fTICK_ALIGN_UP_ALIGNED true).raise 21).syncBreach
    else .next s
  | none => .next s

end Sys2Proof.Machine
end

