-- ==== Sys2Proof/Machine/Reset.lean ====
section
/-! DEFINITION. Resets and start-up: power-on and its end (R29, R30, R429), `RESET_N` (R212), the rim on `VBAT` (R375), the revision read
(R13, R15), `DIE_RESET` (R27, R66), `PROG_N` (R213), and `DEVICE_ID` (R26). -/

namespace Sys2Proof.Machine

/-! ### Power-on and pin reset -/

/-- Registers that the rim keeps on `VBAT` and through every reset: block 0x0002 from offset 0x0100 on (R375). -/
def rimReg (a : Nat) : Bool := a / 65536 == 6 * 65536 + 2 && decide (0x100 ≤ a % 65536)

/-- Everything as at a reset, but for the fuses, the registers kept, the RTC, and what is the model's own. -/
def State.resetKeeping (s : State) (keep : Nat → Bool) (phase : ClkPhase) : State :=
  { State.reset with
    fuse := s.fuse
    regs := tkeep keep s.regs
    pwr := { State.reset.pwr with rtc := s.pwr.rtc, rtcStopped := s.pwr.rtcStopped, loadPending := s.pwr.loadPending
                                  almDone := s.pwr.almDone }
    clk := { State.reset.clk with phase := phase }
    free := s.free
    pending := s.pending }

/-- A strap bit as sampled: a floating one is a free choice (R423). -/
def strapBits (st : Straps) (w lsb : Nat) (v : BitVec w) (s : State) : BitVec w × State :=
  let mask : BitVec w := BitVec.ofNat w (st.floating.toNat / 2 ^ lsb)
  let r := s.fresh w
  ((v &&& ~~~mask) ||| (r.1 &&& mask), r.2)

/-- `CFG_MODE` and `CFG_PULL` are sampled (R212, R423). -/
def State.sampleCfg (s : State) (st : Straps) : State :=
  let (m, s) := strapBits st 3 0 st.cfgMode s
  let (p, s) := strapBits st 1 3 (if st.cfgPull then 1#1 else 0#1) s
  { s with pins := { s.pins with cfgMode := m, cfgPull := p == 1#1 } }

/-- A monitored supply fails: power-on reset with the effects of a first power-on; `VCC_AUX` stands, so the rim keeps what
`RIM_CLK` and `DBG_LOST` keep (R403, R429, R436). -/
def execSupplyDrop (s : State) : Host.Outcome State Fault Refusal :=
  if s.clk.phase == .porHold then .next s
  else
    let t := s.resetKeeping (fun a => rimReg a || a == aDBG_LOST || a == aRIM_CLK) .porHold
    let c := aRIM_CLK
    let t := (t.setBit c fRIM_CLK_STOPPED false).setBit c fRIM_CLK_SRC_VALID false
    .next (t.dbgLost 0)

/-- `VCC_AUX` is lost: the rim runs from `VBAT` and everything it does not keep there is lost (R375). -/
def execVbatSwitchover (s : State) : Host.Outcome State Fault Refusal :=
  let t := s.resetKeeping rimReg .porHold
  let t := (t.setBit aRIM_STAT fRIM_STAT_VBAT_USED true).setBit aRIM_STAT fRIM_STAT_AUX_OK false
  .next { t with pwr := { t.pwr with onVbat := true } }

/-- The supplies have been in range for 2 ms: the straps are sampled and the oscillator delay runs; event 1,938 where
`VBAT_USED` is found set (R30, R378, R423, R429). -/
def execPowerOnReset (straps : Straps) (s : State) : Host.Outcome State Fault Refusal :=
  if s.clk.phase == .porHold then
    let t := s.sampleCfg straps
    let (o, t) := strapBits straps 3 4 straps.oscDly t
    let t := t.setBit aRIM_STAT fRIM_STAT_AUX_OK true
    let t := { t with pins := { t.pins with oscDly := o }, clk := { t.clk with phase := .oscDelay }
                      pwr := { t.pwr with onVbat := false } }
    .next (if t.bit aRIM_STAT fRIM_STAT_VBAT_USED then t.raise 1938 else t)
  else .next s

/-- The oscillator delay ends (R30). -/
def execOscDlyExpiry (s : State) : Host.Outcome State Fault Refusal :=
  if s.clk.phase == .oscDelay then .next { s with clk := { s.clk with phase := .lockWait } } else .next s

/-- The root locks: the domain clocks are released and the tick starts from zero. Dies in `silent` will not answer the
revision read (R13, R30, R46). -/
def execRootPllLock (silent : BitVec 8) (s : State) : Host.Outcome State Fault Refusal :=
  if s.clk.phase == .lockWait then .next { s with clk := { s.clk with phase := .run, tick := 0, revSilent := silent } }
  else .next s

/-- Release of `RESET_N` (R212, R386, R402, R403, R436): everything is reset but the rim, the debug TAP and the two rim
registers; the root keeps its lock where it has one. While the clocks are stopped it ends the stop without `ACK`, and `STOPPED` and
`SRC_VALID` read 0 while the root relocks (DESIGN CHOICE, unsafe, log entry 125). -/
def execPinReset (straps : Straps) (silent : BitVec 8) (s : State) : Host.Outcome State Fault Refusal :=
  match s.clk.phase with
  | .porHold => .next s
  | .oscDelay | .lockWait => .next (s.sampleCfg straps)
  | ph =>
    let s := if s.ringDebug.busy then s.ringFinish .debug .timeout 0#32 else s
    let locked := ph == .run || ph == .hubOnly
    let t := s.resetKeeping (fun a => rimReg a || a == aDBG_LOST || a == aRIM_CLK) (if locked then .run else .lockWait)
    let c := aRIM_CLK
    let t := (t.setBit c fRIM_CLK_STOPPED false).setBit c fRIM_CLK_SRC_VALID false
    let t := { t with ringDebug := s.ringDebug, tap := s.tap, pins := { t.pins with oscDly := s.pins.oscDly }
                      clk := { t.clk with revSilent := silent } }
    .next ((t.sampleCfg straps).dbgLost 1)

/-- The first tick: core 0 runs, every die link trains, and the enabled ports train (R138, R168, R253). -/
def State.startUp (s : State) : State :=
  let t := (List.range 8).foldl State.zeroCore { s with clk := { s.clk with started := true } }
  ((List.range 6).foldl (fun t p => if t.bit (aTP_CTRL p) fTP_CTRL_EN then t.portTrain p else t) t).trainAllLinks

/-! ### The revision read (R13, R15) -/

/-- Every die has answered or timed out: the common level, valid only when all answered. -/
def State.revFinish (s : State) : State :=
  if s.clk.revWait = 0 ∧ s.clk.revDone = false then
    let here := (List.range 8).filter (fun d => (s.reg aDIE_PRESENT).getLsbD d)
    let revs := here.map (fun d => s.fuse.dieRev.getD d 0)
    let low := revs.foldl min (revs.headD 0)
    let first := (here.find? (fun d => s.fuse.dieRev.getD d 0 == low)).getD 0
    let t := (s.setFld aFEATURE_LEVEL fFEATURE_LEVEL_LEVEL low).setFld aFEATURE_LEVEL fFEATURE_LEVEL_MIN_DIE first
    let t := t.setBit aFEATURE_LEVEL fFEATURE_LEVEL_VALID (here.length == 8)
    { t with clk := { t.clk with revDone := true } }
  else s

/-- Dies that can be reached answer the revision read. -/
def State.revTick (s : State) : State :=
  if s.clk.revWait = 0 then s
  else
    let t := (List.range 8).foldl (fun t d =>
      if t.clk.revWait.getLsbD d && !t.clk.revSilent.getLsbD d && t.reach d then
        { t.setBit aDIE_PRESENT ⟨d, 1⟩ true with clk := { t.clk with revWait := t.clk.revWait &&& ~~~(BitVec.ofNat 8 (2 ^ d)) } }
      else t) s
    t.revFinish

/-- A die has not answered within 4,096 ring cycles. -/
def execRevisionReadTimeout (d : Fin 8) (s : State) : Host.Outcome State Fault Refusal :=
  if s.runs && s.clk.revWait.getLsbD d.val && decide (s.clk.revAt + ringTicks 4096 ≤ s.now) then
    let t := { s with clk := { s.clk with revWait := s.clk.revWait &&& ~~~(BitVec.ofNat 8 (2 ^ d.val)) } }
    .next (t.setBit aDIE_PRESENT ⟨d.val, 1⟩ false).revFinish
  else .next s

/-! ### `DIE_RESET` (R27, R66, R345) -/

/-- Die d is reset: it lasts 1,024 ring cycles from now. -/
def State.resetDie (s : State) (d : Nat) : State :=
  let t := [Rm.core0, Rm.debug, Rm.config].foldl (fun t m =>
    let r := t.master m
    if r.busy && r.req.die == d then t.ringFinish m .timeout 0#32 else t) s
  let mine (k : Nat) : Bool := k / 4294967296 == d
  let t := if t.cfgState = 3 ∧ (t.dieState d = 1 ∨ (faOf t.cfg.frameAddr).die = d) then t.cfgFail 0xC else t
  let t := ((((t.loseTables d).loseNis d).purgeFlight d).resetRegs mine).unconfigure d
  let t := { t with lms := tkeep (fun k => !mine k) t.lms, lanes := tkeep (fun k => !mine k) t.lanes
                    share1 := tkeep (fun k => !mine k) t.share1
                    dieReset := tput (fun _ => none) t.dieReset d (some t.now) }
  let t := t.loseLock d
  let t := if d = 7 then { t with ana := Ana.empty }
    else { t.setBit aCFG_STATUS fCFG_STATUS_DONE false with pins := { t.pins with done := false } }
  t.awaitRejoin d

/-- A write of `DIE_RESET`. -/
def dieResetWrite (v : W32) (s : State) : Answer :=
  wrote (([0, 1, 2, 3, 4, 5, 7].filter (fun d => v.getLsbD d)).foldl State.resetDie s)
/-- `RST_L` bit d written by master m. -/
def execDieResetLogic (m : Rm) (d : Fin 6) (s : State) : Host.Outcome State Fault Refusal :=
  let v := BitVec.ofNat 32 (2 ^ d.val)
  .next (ringPut m aDIE_RESET v (dieResetWrite v) s)
/-- `RST_A` written by master m. -/
def execDieResetAnalog (m : Rm) (s : State) : Host.Outcome State Fault Refusal :=
  .next (ringPut m aDIE_RESET 0x80#32 (dieResetWrite 0x80#32) s)

/-- A die reset ends after 1,024 ring cycles, and the die's links train. -/
def execDieResetEnd (d : Fin 8) (s : State) : Host.Outcome State Fault Refusal :=
  match tget (fun _ => none) s.dieReset d.val with
  | some t0 =>
    if s.runs && decide (t0 + ringTicks 1024 ≤ s.now) then
      .next ({ s with dieReset := tput (fun _ => none) s.dieReset d.val none }.trainDieLinks d.val).syncBreach
    else .next s
  | none => .next s

/-! ### `PROG_N` (R213) and `DEVICE_ID` (R26) -/

/-- `PROG_N` is asserted: any stream is abandoned, the logic dies are reset, the analog-side fabric is cleared, and the
controller clears with `INIT_N` low. -/
def execProgNAssert (s : State) : Host.Outcome State Fault Refusal :=
  if s.clk.phase == .porHold || s.clk.phase == .oscDelay || s.clk.phase == .lockWait then .next s
  else
    let t := s.endStream 0
    let t := (List.range 6).foldl State.resetDie t
    let t := (t.unconfigure 7).setBit aCFG_STATUS fCFG_STATUS_INIT false
    .next { t with pins := { t.pins with initDriven := true, progLow := true } }
/-- `PROG_N` returns high: clearing can complete. -/
def execProgNRelease (s : State) : Host.Outcome State Fault Refusal :=
  .next { s with pins := { s.pins with progLow := false } }

/-- A write of `DEVICE_ID`: the new ID holds from the next ring cycle on (R26). -/
def deviceIdWrite (v : W32) (s : State) : Answer :=
  if s.anySched then refuse s
  else
    let t := s.plainWrite aDEVICE_ID v
    wrote { t with clk := { t.clk with idOld := BitVec.ofNat 16 s.devId, idFrom := s.ringCycle + 1 } }
/-- `DEVICE_ID` written by master m. -/
def execDeviceIdWrite (m : Rm) (v : W32) (s : State) : Host.Outcome State Fault Refusal :=
  .next (ringPut m aDEVICE_ID v (deviceIdWrite v) s)

end Sys2Proof.Machine
end

