-- ==== Sys2Proof/Machine/Ring.lean ====
section
/-! DEFINITION. Ring accesses by address: what a read of any register returns and what a write of it does, each register by
the rule of its own chapter (R8 to R10), the progress of an access (R21, R22), and remote packets that arrive (R178). -/

namespace Sys2Proof.Machine

/-! ### Reads -/

/-- A register whose value is its stored word. -/
def readStored (a : Nat) (s : State) : Answer := (s, .ok, s.reg a)
/-- A register whose value is computed from the state. -/
def readAs (s : State) (v : W32) : Answer := (s, .ok, v)

/-- `DIE_INFO` of a die: type, index and fused revision. -/
def State.dieInfo (s : State) (d : Nat) : W32 :=
  let t := putF 0#32 fDIE_INFO_DIE_TYPE (if d < 6 then 0 else if d = 6 then 1 else 2)
  putF (putF t fDIE_INFO_DIE_INDEX d) fDIE_INFO_DIE_REV (s.fuse.dieRev.getD d 0)

/-- Words 0 to 2 of the schedule-fault log's head (R64). -/
def State.sfHead (s : State) (k : Nat) : W32 :=
  match s.pat.log.head? with
  | none => 0#32
  | some r =>
    match k with
    | 0 => putF (putF 0#32 fSF_HEAD_0_FLOW_A r.flowA) fSF_HEAD_0_FLOW_B r.flowB
    | 1 => putF (putF (putF (putF 0#32 fSF_HEAD_1_KIND r.kind) fSF_HEAD_1_DIE r.die) fSF_HEAD_1_ROUTER r.router)
        fSF_HEAD_1_PORT r.port
    | _ => r.tick

/-- A marker with cause 0x1 was injected in the last period. -/
def State.niMarks (s : State) (d n : Nat) : Bool :=
  let m := (s.ni d n).markAt
  m != 0 && decide (s.now < m + s.period)

/-- The registers of an NI that show what it holds. -/
def State.niView (s : State) (d n o : Nat) : Option W32 :=
  let x := s.ni d n
  if o = 0x4 then
    let v := putF (s.reg (aNI_STATUS d n)) fNI_STATUS_EGR (min 15 x.egress.length)
    let v := putF (putF v fNI_STATUS_STAGED x.staging.length) fNI_STATUS_DEBT (min 63 x.debt)
    some (putF v fNI_STATUS_MARKS (if s.niMarks d n then 1 else 0))
  else if 0x20 ≤ o ∧ o < 0x30 then
    let k := (o - 0x20) / 4
    let v := putF (s.reg (aFIFO_STAT d n k)) fFIFO_STAT_FLUSHING (if bit4 x.flushing k then 1 else 0)
    let v := putF (putF v fFIFO_STAT_FULL (if x.full k then 1 else 0)) fFIFO_STAT_EMPTY (if x.empties k then 1 else 0)
    some (putF v fFIFO_STAT_COUNT (x.count k))
  else if o = 0x80 then some (putF (putF 0#32 fBE_STATUS_RSV x.rsv) fBE_STATUS_OUTSTANDING x.outst.length)
  else none

/-- A read within an NI's registers by master m. -/
def niRead (m : Rm) (d n o : Nat) (s : State) : Answer :=
  if 0x44 ≤ o ∧ o ≤ 0x50 then psDataRead m d n ((o - 0x44) / 4) s
  else
    match s.niView d n o with
    | some v => readAs s v
    | none => readStored (niA d n o) s

/-- A read within a die-link module's register set. -/
def linkRead (a : Nat) (s : State) : Answer :=
  let b := a / 0x40 * 0x40
  if a = aLM_STATUS b then readAs s (putF (s.reg a) fLM_STATUS_RING (if s.carriesRing b then 1 else 0))
  else readStored a s

/-- A read within a lane's registers: the last received bits are free. -/
def laneRead (a : Nat) (s : State) : Answer :=
  if a % 0x20 = 0xC then
    let (v, t) := s.fresh 20
    (t, .ok, v.setWidth 32)
  else readStored a s

/-- A read within a frame engine's registers by master m (R229, R230). -/
def feRead (m : Rm) (d o : Nat) (s : State) : Answer :=
  let head := (s.upsets d).head?
  let frame := s.rbFrame d
  match o with
  | 0x10 => readAs s (match head with | some r => r.fa | none => 0#32)
  | 0x14 => readAs s (match head with
    | some r => putF (putF (putF (putF 0#32 fFE_LOG_1_KIND r.kind) fFE_LOG_1_CHK (if r.chk then 1 else 0))
        fFE_LOG_1_WORD r.word) fFE_LOG_1_BIT r.bit
    | none => 0#32)
  | 0x18 => readAs s (match head with | some r => r.tick | none => 0#32)
  | 0x1C => readAs s (putF (s.reg (aFE_LOG_STAT d)) fFE_LOG_STAT_COUNT (s.upsets d).length)
  | 0x48 => feRbDataRead m d s
  | 0x4C => if s.rbValid d then readAs s (s.rbWord d) else (s, .decode, 0#32)
  | 0x50 => if s.rbValid d then readAs s ((s.frameChk frame.key).setWidth 32) else (s, .decode, 0#32)
  | _ => readStored (feA d o) s

/-- `CFG_STATUS`: `START` while dies of an honoured start have not reached running, and the sampled straps. -/
def State.cfgStatus (s : State) : W32 :=
  let starting := s.cfg.startPend != 0 || fabricDies.any (fun d => (s.dieStart d).isSome)
  let v := if s.cfgState == 3 && starting then putF (s.reg aCFG_STATUS) fCFG_STATUS_STATE 4 else s.reg aCFG_STATUS
  putF (putF v fCFG_STATUS_MODE s.pins.cfgMode.toNat) fCFG_STATUS_PULL (if s.pins.cfgPull then 1 else 0)

/-- A read within a Thrumas core's block; `PC` of a running core is some value it held lately. -/
def coreRead (n o : Nat) (s : State) : Answer :=
  match o with
  | 0x4 =>
    let v := s.reg (aCORE_STATUS n)
    if s.coreState n = 1 then
      let (pc, t) := s.fresh 14
      (t, .ok, putF v fCORE_STATUS_PC pc.toNat)
    else readAs s (putF v fCORE_STATUS_PC (s.thr n).pc.toNat)
  | 0x14 => imDataRead n 0 s
  | 0x18 => imDataRead n 1 s
  | 0x1C => imDataRead n 2 s
  | 0x20 => imDataRead n 3 s
  | 0x34 => dmDataRead n s
  | _ => readStored (ra 6 (0x10 + n) o) s

/-- The pending bits of one core for the events of one word (`EV_PEND_k`). -/
def State.pendWord (s : State) (k : Nat) : W32 :=
  let n := s.fld aEV_CTRL fEV_CTRL_PSEL
  (List.range 32).foldl (fun v j => if s.evPending n (32 * k + j) then v ||| BitVec.ofNat 32 (2 ^ j) else v) 0#32

/-- A read within the event controller's block. -/
def eventRead (o : Nat) (s : State) : Answer :=
  if 0xC0 ≤ o ∧ o < 0xE0 then
    readAs s (match s.presented ((o - 0xC0) / 4) with
      | some (l, e) => putF (putF (putF 0#32 fEV_CORE_VALID 1) fEV_CORE_LEVEL l) fEV_CORE_EVENT e
      | none => 0#32)
  else if 0x500 ≤ o ∧ o < 0x600 then readAs s (s.pendWord ((o - 0x500) / 4))
  else readStored (ra 6 3 o) s

/-- A read of the identity block. -/
def identRead (o : Nat) (s : State) : Answer :=
  match o with
  | 0x0 => readAs s (s.dieInfo 6)
  | 0x10 => readAs s (putF (putF 0#32 fGRADE_TEMP (if s.fuse.tempE then 1 else 0)) fGRADE_SPEED s.fuse.speed)
  | 0x18 => readAs s (s.fuse.uid.setWidth 32)
  | 0x1C => readAs s ((s.fuse.uid >>> 32).setWidth 32)
  | _ => readStored (ra 6 0 o) s
/-- A read of the configuration controller's block. -/
def cfgRead (o : Nat) (s : State) : Answer :=
  match o with
  | 0x0 => readAs s s.cfgStatus
  | 0xC => readAs s (putF 0#32 fCFG_SPACE_FREE (256 - s.cfg.sdata.length))
  | _ => readStored (ra 6 4 o) s
/-- A read of the block of DRAM set d. -/
def dramBlockRead (d o : Nat) (s : State) : Answer :=
  match o with
  | 0x8 => readAs s (putF (s.reg (ra 6 (0x30 + d) o)) fDR_STATUS_QUEUED (min 96 (s.mq.filter (forSet d)).length))
  | 0x64 => drDlyRead d s
  | _ => readStored (ra 6 (0x30 + d) o) s
/-- A read of the block of QDR pair q. -/
def qdrBlockRead (q o : Nat) (s : State) : Answer :=
  match o with
  | 0x4 => readAs s (putF (s.reg (ra 6 (0x40 + q) o)) fQ_STATUS_QUEUED (min 32 (s.mq.filter (forPair q)).length))
  | 0x24 => qsDataRead q 0 s
  | 0x28 => qsDataRead q 1 s
  | _ => readStored (ra 6 (0x40 + q) o) s
/-- A read of the pattern's block. -/
def patternBlockRead (o : Nat) (s : State) : Answer :=
  match o with
  | 0x150 => readAs s (s.sfHead 0)
  | 0x154 => readAs s (s.sfHead 1)
  | 0x158 => readAs s (s.sfHead 2)
  | 0x15C => readAs s (putF (s.reg (ra 6 0x300 o)) fSF_STATUS_COUNT s.pat.log.length)
  | _ => readStored (ra 6 0x300 o) s

/-- A read of a register of H by master m. -/
def hubRead (m : Rm) (b o : Nat) (s : State) : Answer :=
  let a := ra 6 b o
  if b = 0 then identRead o s
  else if b = 1 then
    if o = 0x10 then readAs s (putF 0#32 fSTRAP_CLK_OSC_DLY s.pins.oscDly.toNat) else readStored a s
  else if b = 3 then eventRead o s
  else if b = 4 then cfgRead o s
  else if 0x10 ≤ b ∧ b ≤ 0x17 then coreRead (b - 0x10) o s
  else if b = 0x20 then
    if 0x100 ≤ o ∧ o < 0x110 then readAs s (s.reg (aPWR_STATE (4 + (o - 0x100) / 4))) else readStored a s
  else if 0x30 ≤ b ∧ b ≤ 0x33 then dramBlockRead (b - 0x30) o s
  else if b = 0x38 then
    if o = 0x4 then readAs s (putF (s.reg a) fKM_STATUS_DIRTY s.kmDirty) else readStored a s
  else if 0x40 ≤ b ∧ b ≤ 0x43 then qdrBlockRead (b - 0x40) o s
  else if 0x100 ≤ b ∧ b ≤ 0x12F then niRead m 6 (b - 0x100) o s
  else if 0x200 ≤ b ∧ b ≤ 0x217 ∧ o < 0x80 then laneRead a s
  else if b = 0x300 then patternBlockRead o s
  else if b = 0x400 ∧ 0x100 ≤ o ∧ o % 0x80 = 0x10 then dbgRegRead ((o - 0x100) / 0x80) s
  else readStored a s

/-- A read of a register of logic die d by master m. -/
def logicRead (m : Rm) (d b o : Nat) (s : State) : Answer :=
  let a := ra d b o
  if b = 0 ∧ o = 0 then readAs s (s.dieInfo d)
  else if b = 4 then feRead m d o s
  else if 0x100 ≤ b ∧ b ≤ 0x11F then niRead m d (b - 0x100) o s
  else if 0x200 ≤ b ∧ b ≤ 0x203 ∧ o < 0x80 then laneRead a s
  else if 0x500 ≤ b ∧ b ≤ 0x513 then linkRead a s
  else readStored a s

/-- A read within an analog block's registers by master m. -/
def abRead (m : Rm) (n o : Nat) (s : State) : Answer :=
  let fifo := (s.ab n).fifo
  match o with
  | 0x54 => readAs s (putF (s.reg (aAB_STATUS n)) fAB_STATUS_COUNT fifo.length)
  | 0x60 => abResultRead m n s
  | 0x64 => readAs s (fifo.headD 0)
  | _ => readStored (ra 7 (0x700 + n) o) s

/-- A read within a converter's registers by master m. -/
def icRead (m : Rm) (n o : Nat) (s : State) : Answer :=
  let fifo := (s.ic n).fifo
  let head := fifo.headD { word := 0, start := 0, bits := 0 }
  match o with
  | 0x18 => readAs s (putF (putF (s.reg (aIC_STATUS n)) fIC_STATUS_BITS head.bits) fIC_STATUS_COUNT fifo.length)
  | 0x20 => icResultRead m n s
  | 0x24 => readAs s head.word
  | 0x30 => readAs s (BitVec.ofNat 32 head.start)
  | 0x34 => readAs s (BitVec.ofNat 32 (head.start / 4294967296))
  | _ => readStored (ra 7 (0x800 + n) o) s

/-- A read of a register of A by master m. -/
def anaRead (m : Rm) (b o : Nat) (s : State) : Answer :=
  let a := ra 7 b o
  if b = 0 then (if o = 0 then readAs s (s.dieInfo 7) else if 0x100 ≤ o then linkRead a s else readStored a s)
  else if 0x700 ≤ b ∧ b ≤ 0x72F then abRead m (b - 0x700) o s
  else if 0x800 ≤ b ∧ b ≤ 0x80F then icRead m (b - 0x800) o s
  else if b = 0xA00 then
    if 0x1000 ≤ o then niRead m 7 0 (o - 0x1000) s
    else
      match o with
      | 0x104 => asDataRead 0 s
      | 0x108 => asDataRead 1 s
      | _ => if o ≤ 0x50 then feRead m 7 o s else readStored a s
  else readStored a s

/-- A read of the register at an address by master m. -/
def regRead (m : Rm) (a : Nat) (s : State) : Answer :=
  let d := a / 4294967296
  let b := a / 65536 % 65536
  let o := a % 65536
  if d = 6 then hubRead m b o s else if d = 7 then anaRead m b o s else logicRead m d b o s

/-! ### Writes -/

/-- The written word with a count's clearing bit, low bit of a field of `n` bits at `l`, spread over the whole field. -/
def spreadBit (l n : Nat) (v : W32) : W32 := if v.getLsbD l then putF v ⟨l, n⟩ (2 ^ n - 1) else putF v ⟨l, n⟩ 0

/-- Counts that one bit of a write clears whole. -/
def countClear (d b o : Nat) (v : W32) : W32 :=
  if d ≠ 6 then v
  else if b = 0x300 ∧ o = 0x15C then spreadBit 16 16 v
  else if b = 0x20 ∧ o = 0x110 then spreadBit 24 8 v
  else if 0x40 ≤ b ∧ b ≤ 0x43 ∧ o = 0xC then spreadBit 0 16 (spreadBit 16 16 v)
  else if 0x40 ≤ b ∧ b ≤ 0x43 ∧ o = 0x10 then spreadBit 16 16 v
  else if 0x30 ≤ b ∧ b ≤ 0x33 ∧ o = 0x18 then spreadBit 0 16 v
  else if 0x30 ≤ b ∧ b ≤ 0x33 ∧ 0x70 ≤ o ∧ o < 0x84 then spreadBit 0 16 (spreadBit 16 16 v)
  else if 0x30 ≤ b ∧ b ≤ 0x33 ∧ o = 0x84 then spreadBit 16 16 v
  else if b = 0x38 ∧ o = 0x18 then spreadBit 0 32 v
  else if b = 3 ∧ o = 4 then spreadBit 0 16 (spreadBit 16 16 v)
  else if b = 3 ∧ 0xA0 ≤ o ∧ o < 0xC0 then spreadBit 0 16 v
  else v

/-- A write with the field rules of the register's table and nothing more (R8, R9). -/
def writePlain (a : Nat) (v : W32) (s : State) : Answer :=
  wrote (s.plainWrite a (countClear (a / 4294967296) (a / 65536 % 65536) (a % 65536) v))

/-- A write within an NI's registers. -/
def niWrite (d n o : Nat) (v : W32) (s : State) : Answer :=
  match o with
  | 0x0 => niCtrlWrite d n v s
  | 0x30 => fifoFlushWrite d n v s
  | 0x44 => psDataWrite d n 0 v s
  | 0x48 => psDataWrite d n 1 v s
  | 0x4C => psDataWrite d n 2 v s
  | 0x50 => psDataWrite d n 3 v s
  | 0x68 => spRegionWrite (aSP_BASE_LO d n) d n v s
  | 0x6C => spRegionWrite (aSP_BASE_HI d n) d n v s
  | 0x70 => spRegionWrite (aSP_SIZE d n) d n v s
  | 0x74 => spCtrlWrite d n v s
  | _ => writePlain (niA d n o) v s

/-- A write within a frame engine's registers. -/
def feWrite (d o : Nat) (v : W32) (s : State) : Answer :=
  match o with
  | 0x1C => feLogStatWrite d v s
  | 0x20 => feLogPopWrite d s
  | 0x44 => feRbCtrlWrite d v s
  | _ => writePlain (feA d o) v s

/-- A write within a lane's registers. -/
def laneWrite (d q o : Nat) (v : W32) (s : State) : Answer :=
  let j := o / 0x20
  match o % 0x20 with
  | 0x0 => lnCtrlWrite d q j v s
  | 0x4 => lnTapWrite d q j v s
  | 0x8 => lnAlignWrite d q j v s
  | _ => writePlain (quadBlock d q + o) v s

/-- The lanes whose bit is set in a set of lanes of one quad relock: each locks again or not (R416). -/
def State.relock (s : State) (b : Nat) (lanes : List Nat) : State :=
  lanes.foldl (fun t j =>
    let (y, t) := t.freshB
    t.setBit (aLN_STATUS b j) fLN_STATUS_CDR_LOCK y) s

/-- Loop depth of general lane j in a `GL_LB` word: values 5 to 7 act as 0 (R416). -/
def glDepth (v : W32) (j : Nat) : Nat :=
  let n := getF v ⟨4 * j, 3⟩
  if 5 ≤ n then 0 else n

/-- A write of `GL_LB` of quad q of die d (R416). -/
def glLbWrite (d q : Nat) (v : W32) (s : State) : Answer :=
  let b := quadBlock d q
  let old := s.reg (aGL_LB d q)
  let t := s.plainWrite (aGL_LB d q) v
  let on (j : Nat) : Bool := s.fld (aLN_CTRL b j) fLN_CTRL_MODE != 0 && s.bit (aLN_STATUS b j) fLN_STATUS_PLL_LOCK
  wrote (t.relock b ((List.range 4).filter (fun j => glDepth old j != glDepth v j && on j)))

/-- A write of `TP_CTRL` or of `TP_LB` of port p that enters or leaves a loop (R415): whether each lane locks is free, and the
lanes stop when the loop ends. -/
def tpLoopWrite (p : Nat) (f : State → Answer) (s : State) : Answer :=
  let a := f s
  let loops (t : State) : Bool := t.fld (aTP_LB p) fTP_LB_RET != 0 || t.fld (aTP_CTRL p) fTP_CTRL_LOOP != 0
  if loops s == loops a.1 then a
  else if loops a.1 then
    (((List.range 4).foldl (fun t k => t.relock (quadBlock 6 (4 * p + k)) [0, 1, 2, 3]) a.1), a.2)
  else
    (((List.range 16).foldl (fun t i =>
      t.setBit (aLN_STATUS (quadBlock 6 (4 * p + i / 4)) (i % 4)) fLN_STATUS_CDR_LOCK false) a.1), a.2)

/-- A write within a torus port's registers. -/
def portWrite (p o : Nat) (v : W32) (s : State) : Answer :=
  match o with
  | 0x100 => tpLoopWrite p (tpCtrlWrite p v) s
  | 0x13C => tpCfgCtrlWrite p v s
  | 0x140 => tpLoopWrite p (tpLbWrite p v) s
  | _ => writePlain (ra 6 (0x200 + 4 * p) o) v s

/-- A write within a Thrumas core's block. -/
def coreWrite (n o : Nat) (v : W32) (s : State) : Answer :=
  match o with
  | 0x0 => coreCtrlWrite n v s
  | 0x20 => imDataWrite n v s
  | 0x34 => dmDataWrite n v s
  | _ => writePlain (ra 6 (0x10 + n) o) v s

/-- A write of `EV_PEND_k` clears pending bits of the core that `PSEL` names. -/
def pendWrite (k : Nat) (v : W32) (s : State) : Answer :=
  let n := s.fld aEV_CTRL fEV_CTRL_PSEL
  wrote ((List.range 32).foldl (fun t j => if v.getLsbD j then t.clearPending n (32 * k + j) else t) s)

/-- A write within the event controller's block. -/
def eventWrite (o : Nat) (v : W32) (s : State) : Answer :=
  if 0x10 ≤ o ∧ o < 0x30 then evOutCfgWrite ((o - 0x10) / 4) v s
  else if o = 0x30 then evOutClrWrite v s
  else if 0x500 ≤ o ∧ o < 0x600 then pendWrite ((o - 0x500) / 4) v s
  else writePlain (ra 6 3 o) v s

/-- A write within the tick and pattern block by master m. -/
def patternWrite (m : Rm) (o : Nat) (v : W32) (s : State) : Answer :=
  match o with
  | 0x0 => tickSnapWrite m s
  | 0x20 => tickCtrlWrite v s
  | 0x100 => patCtrlWrite v s
  | 0x104 => patAtWrite aPAT_AT_LO v s
  | 0x108 => patAtWrite aPAT_AT_HI v s
  | 0x160 => wrote s.popFault
  | _ =>
    if 0x110 ≤ o ∧ o < 0x130 then shadowHeaderWrite (ra 6 0x300 o) v s
    else if 0x180 ≤ o ∧ o < 0x1B8 ∧ o % 8 = 0 then
      commitWrite ((o - 0x180) / 8) v s
    else writePlain (ra 6 0x300 o) v s

/-- A write within the banks' block by master m. -/
def bankWrite (m : Rm) (o : Nat) (v : W32) (s : State) : Answer :=
  if o < 0x100 then bankOwnerWrite m (o / 4) v s
  else if 0x200 ≤ o ∧ o < 0x280 ∧ o % 8 = 0 then ccSelWrite ((o - 0x200) / 8) v s
  else if o = 0x300 then bistCtrlWrite m v s
  else if 0x400 ≤ o ∧ o % 0x20 = 0 then dmaCtrlWrite ((o - 0x400) / 0x20) v s
  else writePlain (ra 6 0x20 o) v s

/-- A write within a DRAM set's block. -/
def dramWrite (d o : Nat) (v : W32) (s : State) : Answer :=
  match o with
  | 0x0 => drCtrlWrite d v s
  | 0x4 => drCfgWrite d v s
  | 0x14 => drRhCfgWrite d v s
  | 0x20 => drMrWrite d v s
  | 0x24 => drTrnWrite d v s
  | 0x64 => drDlyWrite d v s
  | 0x90 => drElogCtrlWrite d v s
  | 0xA0 => drEccWrite d v s
  | 0xB0 => drLbWrite d v s
  | _ => writePlain (ra 6 (0x30 + d) o) v s

/-- A write within the keyed-mix block by master m. -/
def kmWrite (m : Rm) (o : Nat) (v : W32) (s : State) : Answer :=
  if o = 0 then kmCtrlWrite v s
  else if o = 0x74 then kmMcmdWrite m [] v s
  else if 0x20 ≤ o ∧ o < 0x60 then kmSlotWrite ((o - 0x20) / 4) v s
  else if 0x100 ≤ o then kmKeyWrite ((o - 0x100) / 4) v s
  else writePlain (ra 6 0x38 o) v s

/-- A write within a QDR pair's block. -/
def qdrWrite (q o : Nat) (v : W32) (s : State) : Answer :=
  match o with
  | 0x0 => qCtrlWrite q v s
  | 0x24 => qsDataWrite q 0 v s
  | 0x28 => qsDataWrite q 1 v s
  | 0x30 => qLbWrite q v s
  | _ => writePlain (ra 6 (0x40 + q) o) v s

/-- A write within the test and debug block by master m (R401, R404). -/
def debugWrite (m : Rm) (o : Nat) (v : W32) (s : State) : Answer :=
  match o with
  | 0x4 => dbgOnly m (runctlWrite v) s
  | 0x10 => dbgTxWrite m v s
  | 0x14 => dbgRxWrite m v s
  | 0x18 => termStatWrite m v s
  | _ =>
    if 0x100 ≤ o ∧ o % 0x80 = 0x10 then dbgOnly m (dbgRegWrite ((o - 0x100) / 0x80) v) s
    else dbgOnly m (writePlain (ra 6 0x400 o) v) s

/-- A write of a register of H by master m. -/
def hubWrite (m : Rm) (b o : Nat) (v : W32) (s : State) : Answer :=
  let a := ra 6 b o
  if b = 0 then
    match o with
    | 0x20 => deviceIdWrite v s
    | 0x24 => dieResetWrite v s
    | 0x28 => if s.anySched then refuse s else writePlain a v s
    | 0x10C => rgCtrlWrite 0 v s
    | 0x12C => rgCtrlWrite 1 v s
    | 0x14C => rgCtrlWrite 2 v s
    | _ => writePlain a v s
  else if b = 1 then
    if o = 0 then refCtrlWrite v s
    else if o = 8 then sscCtrlWrite v s
    else if 0x40 ≤ o then fclkCfgWrite ((o - 0x40) / 4) v s
    else writePlain a v s
  else if b = 2 then
    match o with
    | 0x0 => pwrReqWrite v s
    | 0x104 => rtcCtrlWrite v s
    | 0x118 => wrote s.rtcCapture
    | _ => writePlain a v s
  else if b = 3 then eventWrite o v s
  else if b = 4 then (if o = 8 then cfgSdataWrite v s else writePlain a v s)
  else if 0x10 ≤ b ∧ b ≤ 0x17 then coreWrite (b - 0x10) o v s
  else if b = 0x20 then bankWrite m o v s
  else if 0x30 ≤ b ∧ b ≤ 0x33 then dramWrite (b - 0x30) o v s
  else if b = 0x38 then kmWrite m o v s
  else if 0x40 ≤ b ∧ b ≤ 0x43 then qdrWrite (b - 0x40) o v s
  else if 0x100 ≤ b ∧ b ≤ 0x12F then niWrite 6 (b - 0x100) o v s
  else if 0x200 ≤ b ∧ b ≤ 0x217 then
    if o < 0x80 then laneWrite 6 (b - 0x200) o v s else portWrite ((b - 0x200) / 4) o v s
  else if b = 0x300 then patternWrite m o v s
  else if b = 0x400 then debugWrite m o v s
  else writePlain a v s

/-- A write of a register of logic die d. -/
def logicWrite (d b o : Nat) (v : W32) (s : State) : Answer :=
  let a := ra d b o
  if b = 4 then feWrite d o v s
  else if 0x100 ≤ b ∧ b ≤ 0x11F then niWrite d (b - 0x100) o v s
  else if 0x200 ≤ b ∧ b ≤ 0x203 then
    if o < 0x80 then laneWrite d (b - 0x200) o v s else glLbWrite d (b - 0x200) v s
  else if 0x500 ≤ b ∧ b ≤ 0x513 then
    (if a % 0x40 = 0 then lmCtrlWrite a v s else writePlain a v s)
  else if b = 0x600 then
    match o with
    | 0x40 => writePlain a v s
    | 0x44 => brHoldWrite d v s
    | 0x48 => brReleaseWrite d v s
    | _ => brRgnWrite d (o / 4) v s
  else writePlain a v s

/-- A write within an analog block's registers. -/
def abWrite (n o : Nat) (v : W32) (s : State) : Answer :=
  let a := ra 7 (0x700 + n) o
  if o < 0x10 then abShadowWrite n a v s
  else if 0x40 ≤ o ∧ o ≤ 0x4C then abRunRegWrite n a v s
  else if o = 0x50 then abCmdWrite n v s
  else if 0x70 ≤ o then abCalWrite n a v s
  else writePlain a v s

/-- A write within a converter's registers. -/
def icWrite (n o : Nat) (v : W32) (s : State) : Answer :=
  let a := ra 7 (0x800 + n) o
  if o = 0 then icCfgWrite n v s
  else if o ≤ 0x10 then icRunRegWrite n a v s
  else if o = 0x14 then icCmdWrite n v s
  else if 0x40 ≤ o then icFactorWrite n a v s
  else writePlain a v s

/-- A write of a register of A. -/
def anaWrite (b o : Nat) (v : W32) (s : State) : Answer :=
  let a := ra 7 b o
  if b = 0 then (if 0x100 ≤ o ∧ o % 0x40 = 0 then lmCtrlWrite a v s else writePlain a v s)
  else if 0x700 ≤ b ∧ b ≤ 0x72F then abWrite (b - 0x700) o v s
  else if b = 0x780 then
    if o < 0x80 then swPinWrite a v s else if o = 0x100 then swapCtrlWrite v s else writePlain a v s
  else if 0x800 ≤ b ∧ b ≤ 0x80F then icWrite (b - 0x800) o v s
  else if b = 0x900 then
    match o with
    | 0x4 => msPeriodWrite v s
    | 0x10 => msCalWrite v s
    | 0x30 => refLoopWrite v s
    | _ => if 0x20 ≤ o then refValWrite a v s else writePlain a v s
  else if b = 0xA00 then
    if 0x1000 ≤ o then niWrite 7 0 (o - 0x1000) v s
    else if o ≤ 0x50 then feWrite 7 o v s
    else
      match o with
      | 0x104 => asDataWrite 0 v s
      | 0x108 => asDataWrite 1 v s
      | _ => if 0x120 ≤ o then afClkWrite ((o - 0x120) / 4) v s else writePlain a v s
  else writePlain a v s

/-- A write of the register at an address by master m. -/
def regWrite (m : Rm) (a : Nat) (v : W32) (s : State) : Answer :=
  let d := a / 4294967296
  let b := a / 65536 % 65536
  let o := a % 65536
  if d = 6 then hubWrite m b o v s else if d = 7 then anaWrite b o v s else logicWrite d b o v s

/-! ### Accesses (R21, R22) -/

/-- What the target does with a request of master m. -/
def ringTarget (m : Rm) (r : RingReq) (s : State) : Answer :=
  if r.write then regWrite m (ringAddr r) r.data s else regRead m (ringAddr r) s

/-- Master m requests an access (R21). -/
def execRingAccess (m : Rm) (r : RingReq) (s : State) : Host.Outcome State Fault Refusal :=
  .next (ringDo m r (ringTarget m r) s)

/-- The access of master m completes: with its target's answer, or, where it was granted and still in progress, with what its target
answers now that the shares are carried (R21, R148); `TIMEOUT` where the ring has closed to it. -/
def State.ringComplete (s : State) (m : Rm) : State :=
  let r := s.master m
  if !r.busy then s
  else if r.answered then s.ringFinish m r.ansStatus r.ansData
  else if s.ringClosed r.req.die then s.ringFinish m .timeout 0#32
  else if s.reach r.req.die && !r.waiting then
    let a := gated r.req (ringTarget m r.req) s
    a.1.ringFinish m a.2.1 a.2.2
  else s
/-- A target's answer returns to the ring root (R21). -/
def execRingAccessComplete (m : Rm) (s : State) : Host.Outcome State Fault Refusal := .next (s.ringComplete m)

/-- Ticks in 4,096 ring cycles. -/
def ringLimit : Nat := ringTicks 4096

/-- A write of master m that has not been answered may or may not have taken effect (R21): a free choice. -/
def State.ringUnsure (s : State) (m : Rm) : State :=
  let r := s.master m
  if !r.answered && r.req.write then
    let (y, t) := s.freshB
    if y then (gated r.req (ringTarget m r.req) t).1 else t
  else s

/-- No answer has come within 4,096 ring cycles of the grant: `TIMEOUT`; a write of an access that was in progress may or may not
have taken effect (R21). -/
def execRingAccessTimeout (m : Rm) (s : State) : Host.Outcome State Fault Refusal :=
  let r := s.master m
  if !r.busy || r.waiting || decide (s.now < r.grantAt + ringLimit) then .next s
  else .next ((s.ringUnsure m).ringFinish m .timeout 0#32)

/-- The ring root grants the next waiting master, one in each ring cycle (R21). -/
def State.ringTick (s : State) : State :=
  if s.ringGranted then s
  else
    match s.nextWaiting with
    | none => s
    | some m =>
      let r := s.master m
      if s.ringClosed r.req.die then
        s.setMaster m { r with waiting := false, answered := true, ansStatus := .timeout, ansData := 0#32 }
      else ringGrant m r (ringTarget m r.req) s

/-- Accesses in flight on the loops through an edge direction end in `TIMEOUT` (R148). -/
def State.timeoutLoop (s : State) (l0 : Nat) : State :=
  allRm.foldl (fun t m =>
    let r := t.master m
    if r.busy && r.granted && (loopEdges r.req.die).any (fun e => e.1 == l0) then
      (t.ringUnsure m).setMaster m { r with answered := true, ansStatus := .timeout, ansData := 0#32 }
    else t) s

/-- The ring share of an edge direction, named by its link 0 module, moves to link 1's module or back (R148). -/
def execRingShareMove (l : LinkId) (s : State) : Host.Outcome State Fault Refusal :=
  let b := linkBase l
  match (([0, 3, 7] : List Nat).flatMap loopEdges).find? (fun e => e.1 == b) with
  | none => .next s
  | some (l0, l1) =>
    let on1 := tget (fun _ => false) s.share1 l0
    let move := linkExists l && l0 != l1 && s.runs && (if on1 then s.shareLost l1 && s.lmState l0 == 6 else s.shareLost l0)
    if move then
      let t := { s with share1 := tput (fun _ => false) s.share1 l0 (!on1) }
      .next (((t.lmErr l0 fLM_ERR_RING_MOVED).lmErr l1 fLM_ERR_RING_MOVED).timeoutLoop l0)
    else .next s

/-- Registers of H, then of the other dies, that have a row of their own for their writes (DEDUCED, safe, log
entry 14). -/
def ownRow (d b o : Nat) : Bool :=
  if d = 6 then
    (b == 0 && [0x20, 0x24, 0x10C, 0x12C, 0x14C].contains o) || (b == 1 && (o == 0 || o == 8 || decide (0x40 ≤ o))) ||
    (b == 2 && [0, 0x104, 0x118].contains o) || (b == 3 && decide (0x10 ≤ o ∧ o ≤ 0x30)) || (b == 4 && o == 8) ||
    (decide (0x10 ≤ b ∧ b ≤ 0x17) && [0, 0x20, 0x34].contains o) ||
    (b == 0x20 && (decide (o < 0x100) || o == 0x300 || (decide (0x200 ≤ o ∧ o < 0x280) && o % 8 == 0) ||
      (decide (0x400 ≤ o) && o % 0x20 == 0))) ||
    (decide (0x30 ≤ b ∧ b ≤ 0x33) && [0, 0x20, 0x24, 0xA0, 0xB0].contains o) ||
    (b == 0x38 && (o == 0 || o == 0x74 || decide (0x20 ≤ o ∧ o < 0x60) || decide (0x100 ≤ o))) ||
    (decide (0x40 ≤ b ∧ b ≤ 0x43) && [0, 0x28, 0x30].contains o) ||
    (decide (0x100 ≤ b ∧ b ≤ 0x12F) && [0, 0x30, 0x50, 0x74].contains o) ||
    (decide (0x200 ≤ b ∧ b ≤ 0x217) && (decide (o < 0x80) && o % 0x20 == 8 || [0x100, 0x13C, 0x140].contains o)) ||
    (b == 0x300 && ([0, 0x20, 0x100, 0x160].contains o || (decide (0x180 ≤ o) && o % 8 == 0))) ||
    (b == 0x400 && ([4, 0x10, 0x14, 0x18].contains o || (decide (0x100 ≤ o) && o % 0x80 == 0x10)))
  else if d = 7 then
    (b == 0 && o % 0x40 == 0 && decide (0x100 ≤ o)) || (decide (0x700 ≤ b ∧ b ≤ 0x72F) && [0x50, 0x70, 0x74].contains o) ||
    (b == 0x780 && o == 0x100) || (decide (0x800 ≤ b ∧ b ≤ 0x80F) && o == 0x14) || (b == 0x900 && o == 0x30) ||
    (b == 0xA00 && ([0x1C, 0x20, 0x44, 0x108, 0x1000, 0x1030].contains o || decide (0x120 ≤ o ∧ o < 0x130)))
  else
    (b == 0 && decide (0x200 ≤ o)) || (b == 4 && [0x1C, 0x20, 0x44].contains o) ||
    (decide (0x100 ≤ b ∧ b ≤ 0x11F) && [0, 0x30, 0x50, 0x74].contains o) ||
    (decide (0x200 ≤ b ∧ b ≤ 0x203) && (o == 0x80 || o % 0x20 == 8)) ||
    (decide (0x500 ≤ b ∧ b ≤ 0x513) && o % 0x40 == 0) || (b == 0x600 && (o == 0x44 || o == 0x48 || decide (o < 0x40)))

/-- Master m writes a register that has no row of its own (R8). -/
def execRegisterWrite (m : Rm) (die : Fin 8) (block off : BitVec 16) (v : W32) (s : State) :
    Host.Outcome State Fault Refusal :=
  let a := ra die.val block.toNat off.toNat
  if ownRow die.val block.toNat off.toNat then .next s else .next (ringPut m a v (regWrite m a v) s)

/-! ### Remote packets (R178) -/

/-- Where every count is zero the configuration controller makes the access as master 0x70; its completion answers the packet. -/
def State.remotePerform (s : State) (b : BitVec 120) : State :=
  let r := remoteOf b
  let q : RingReq := { die := r.die, block := r.block, off := r.off, write := r.op == 1, data := r.data }
  let t := ringDo .config q (ringTarget .config q) s
  t.setMaster .config { t.master .config with remote := some b }

/-- The oldest packet that arrived over port p, 6 for this device's own gateways, is taken: forwarded, performed here, or
delivered to its gateway (R178). -/
def execRemotePacketReceive (p : Fin 7) (s : State) : Host.Outcome State Fault Refusal :=
  match s.remoteIn.find? (fun e => e.1 == p.val) with
  | none => .next s
  | some e =>
    let t := { s with remoteIn := s.remoteIn.erase e }
    let r := remoteOf e.2
    if !s.hubRuns then .next s
    else if r.hop.isSome then .next (t.sendRemote r)
    else if 2 ≤ r.op then .next (t.gwAnswer r)
    else if s.ringConfig.busy then .next s
    else .next (t.remotePerform e.2)

end Sys2Proof.Machine
end

