-- ==== Sys2Proof/Machine/Reference.lean ====
section
/-! DEFINITION. The stop of the clocks (R37, R38, R40), the presence and loss of the root's references (R31, R33 to R37, R42, R179),
and resumption (R38, R39). -/

namespace Sys2Proof.Machine

/-! ### Stop (R37, R38, R40) -/

/-- Every access that waits or is in progress completes with `TIMEOUT`; a write that had not been answered may or may not have
taken effect (R38). -/
def State.ringAbort (s : State) : State :=
  allRm.foldl (fun t m => if (t.master m).busy then (t.ringUnsure m).ringFinish m .timeout 0#32 else t) s

/-- The pattern at a stop of the clocks, as though a stop without a tail had taken effect on this tick (R40). No event 28 is raised
for it (DESIGN CHOICE, unsafe, log entry 122). -/
def State.patternHalt (s : State) : State :=
  let a := aPAT_STATUS
  let ran := s.bit a fPAT_STATUS_RUN
  let t := ((s.setBit a fPAT_STATUS_RUN false).setBit a fPAT_STATUS_TAIL false).setFld a fPAT_STATUS_ARMED 0
  let t := (List.range 6).foldl (fun t p => t.setReg (aACT_BUDGET p) 0#32) (t.setReg aACT_PERIOD 0#32)
  let t := { t with pat := { t.pat with
    flight := [], tailStop := false, tailEnd := 0, oldPeriod := 0
    untilTick := if ran then tput (fun _ => 2 ^ 64) t.pat.untilTick s.actBank s.tickN else t.pat.untilTick } }
  (List.range 7).foldl State.abandonCommit t

/-- The DRAM sets at a stop of the clocks: contents lost, controllers uninitialised; metadata cached of them is void
(R40). -/
def State.dramHalt (s : State) : State :=
  let t := (List.range 4).foldl (fun t d =>
    let t := (t.dramLose d (fun _ => true)).setDramState d 0
    let t := (t.setBit (aDR_TRN d) fDR_TRN_BUSY false).setBit (aDR_STATUS d) fDR_STATUS_SR_HELD false
    t.setDs d { Ds.empty with delays := (t.ds d).delays }) s
  let a := aKM_STATUS
  { ((t.setBit a fKM_STATUS_READY false).setBit a fKM_STATUS_INIT false) with km := [] }

/-- The rim stops every domain clock for a cause (R37, R38, R40). What the hub shows of it waits for T+0, and the pins other than user
outputs keep their state. -/
def State.clockStop (s : State) (cause : Nat) : State :=
  let t := s.ringAbort.patternHalt.dramHalt.anaHalt
  let t := t.setBit aTICK_ALIGN fTICK_ALIGN_ALIGNED false
  let c := aRIM_CLK
  let t := ((t.setFld c fRIM_CLK_CAUSE cause).setBit c fRIM_CLK_LATCHED true).setBit c fRIM_CLK_STOPPED true
  let t := t.setBit c fRIM_CLK_SRC_VALID false
  { t with clk := { t.clk with phase := .stopped, outSafe := true, stopQual := t.fld aREF_CTRL fREF_CTRL_QUAL } }

/-! ### Presence (R31, R33 to R36, R42, R179) -/

/-- Holdover begins: the root is corrected by the last average that lay in the window (DESIGN CHOICE, unsafe, log entry 123), and it
ignores its spread (R33, R34, R42). -/
def State.enterHold (s : State) : State :=
  let r := aREF_STATUS
  let t := ((s.setBit r fREF_STATUS_ACTIVE false).setBit r fREF_STATUS_HOLD true).raise 16
  { t with clk := { t.clk with holdCorr := t.clk.goodAvg, sscAct := 0#32, sscHeld := true } }.syncBreach

/-- The recovered reference is no longer present: holdover where it drove the root and there is a fallback, else a stop
(R33, R37). -/
def State.recoveredLost (s : State) : State :=
  let t := s.setBit aREF_STATUS fREF_STATUS_REC_OK false
  if !t.bit aREF_STATUS fREF_STATUS_ACTIVE then t
  else if !t.bit aREF_CTRL fREF_CTRL_HOLD_EN then t.clockStop 2
  else if !t.bit aREF_STATUS fREF_STATUS_LOC_OK then t.clockStop 3
  else t.enterHold

/-- The recovered reference counts as present (R31, R179). -/
def State.recPresent (s : State) : Bool :=
  s.laneRecovers && (!s.bit aFREQ_MON fFREQ_MON_VALID || s.inWindow (s.fld aFREQ_MON fFREQ_MON_DIFF))

/-- The presence of the recovered reference is judged on every tick: its lane may have left (R179), or its window may have moved
away from the last average, with event 20 (R31, R51). -/
def State.judgeRef (s : State) : State :=
  let r := aREF_STATUS
  if (s.bit r fREF_STATUS_REC_OK || s.bit r fREF_STATUS_ACTIVE) && !s.recPresent then
    (if s.laneRecovers then s.raise 20 else s).recoveredLost
  else s

/-- A source has been present for the qualification time (R31, R35). -/
def execRefQualified (recovered : Bool) (s : State) : Host.Outcome State Fault Refusal :=
  let r := aREF_STATUS
  if !s.hubRuns then .next s
  else if recovered then
    if s.laneRecovers && s.freqOk && !s.bit r fREF_STATUS_REC_OK then
      let t := s.setBit r fREF_STATUS_REC_OK true
      .next (if t.bit r fREF_STATUS_HOLD then t.raise 17 else t)
    else .next s
  else .next (s.setBit r fREF_STATUS_LOC_OK true)

/-- The slew after a switch ends (R32). -/
def execSlewEnd (s : State) : Host.Outcome State Fault Refusal :=
  if s.hubRuns then .next (s.setBit aREF_STATUS fREF_STATUS_SLEW false) else .next s

/-- The recovered reference stops being present (R33, R37). -/
def execRecoveredRefLoss (s : State) : Host.Outcome State Fault Refusal :=
  if s.hubRuns && (s.bit aREF_STATUS fREF_STATUS_REC_OK || s.bit aREF_STATUS fREF_STATUS_ACTIVE) then .next s.recoveredLost
  else .next s

/-- The local oscillator stops while the recovered reference drives the root (R36). -/
def execLocalOscLoss (s : State) : Host.Outcome State Fault Refusal :=
  if s.hubRuns && s.bit aREF_STATUS fREF_STATUS_ACTIVE && s.bit aREF_STATUS fREF_STATUS_LOC_OK then
    .next ((s.setBit aREF_STATUS fREF_STATUS_LOC_OK false).raise 18)
  else .next s

/-- A 1 ms average of the recovery lane ends. Outside its window the reference counts as absent (R31, R36). So it does where the root
has departed from it: the root does so with a spread of its own, and one of the first two averages that end after the spread began
finds it, `rootDeparted` naming the first (R42). -/
def execFreqMonAverage (diff : BitVec 24) (rootDeparted : Bool) (s : State) : Host.Outcome State Fault Refusal :=
  if s.hubRuns && s.laneRecovers then
    let spreads := s.bit aREF_STATUS fREF_STATUS_ACTIVE && getF s.clk.sscAct fSSC_CTRL_DEPTH != 0
    let departed := spreads && (rootDeparted || decide (1 ≤ s.clk.sscSeen))
    let before := !s.bit aFREQ_MON fFREQ_MON_VALID || s.freqOk
    let t := (s.setFld aFREQ_MON fFREQ_MON_DIFF diff.toNat).setBit aFREQ_MON fFREQ_MON_VALID true
    let t := { t with clk := { t.clk with goodAvg := if t.freqOk then diff else t.clk.goodAvg
                                          sscSeen := if spreads then t.clk.sscSeen + 1 else t.clk.sscSeen } }
    if t.freqOk && !departed then .next t
    else .next (if before || departed then t.raise 20 else t).recoveredLost
  else .next s

/-- Clock loss with no fallback: the root PLL, the local oscillator that drives the root, or the recovered reference (R37). -/
def execClockLossNoFallback (pllFault : Bool) (s : State) : Host.Outcome State Fault Refusal :=
  if !s.hubRuns then .next s
  else if pllFault then .next (s.clockStop 4)
  else if !s.bit aREF_STATUS fREF_STATUS_ACTIVE then .next (s.clockStop 1)
  else if !s.bit aREF_CTRL fREF_CTRL_HOLD_EN then .next (s.clockStop 2)
  else if !s.bit aREF_STATUS fREF_STATUS_LOC_OK then .next (s.clockStop 3)
  else .next s

/-! ### Resumption (R38, R39) -/

/-- `REFCLK` has been present for the qualification time of the stop (R38). -/
def execRimSrcValid (s : State) : Host.Outcome State Fault Refusal :=
  if s.clk.phase == .stopped then .next (s.setBit aRIM_CLK fRIM_CLK_SRC_VALID true) else .next s

/-- `REFCLK` is interrupted while the clocks are stopped: qualification starts again (R38). -/
def execRefclkInterruption (s : State) : Host.Outcome State Fault Refusal :=
  if s.clk.phase == .stopped || s.clk.phase == .relock then
    let t := s.setBit aRIM_CLK fRIM_CLK_SRC_VALID false
    .next { t with clk := { t.clk with phase := .stopped } }
  else .next s

/-- `ACK` written over JTAG: resumption starts where the source is valid (R38). -/
def State.rimAck (s : State) : State :=
  if s.clk.phase == .stopped && s.bit aRIM_CLK fRIM_CLK_SRC_VALID then { s with clk := { s.clk with phase := .relock } } else s
/-- A JTAG write of `RIM_CLK.ACK` = 1. -/
def execRimClkAck (s : State) : Host.Outcome State Fault Refusal := .next s.rimAck

/-- T+0: the root has locked to `REFCLK`, and the hub's clocks run from it alone (R39). A configuration load that was in progress ended
early (R40), and breaches show (DESIGN CHOICE of the moment, unsafe, log entry 124). -/
def execResumeHubClocks (s : State) : Host.Outcome State Fault Refusal :=
  if s.clk.phase == .relock then
    let r := aREF_STATUS
    let t := (s.setBit aREF_CTRL fREF_CTRL_SRC false).setBit r fREF_STATUS_ACTIVE false
    let t := ((t.setBit r fREF_STATUS_HOLD false).setBit r fREF_STATUS_ROOT_LOCK true).setBit r fREF_STATUS_LOC_OK true
    let t := ((t.setBit r fREF_STATUS_REC_OK false).setBit r fREF_STATUS_SLEW false).setBit aFREQ_MON fFREQ_MON_VALID false
    let t := { t with clk := { t.clk with phase := .hubOnly, resumeAt := t.now, sscHeld := false } }
    .next (if t.cfgState = 3 then t.cfgFail 1 else t).syncBreach
  else .next s

/-- Core n's halt is released and its comparators are disabled (R402). -/
def State.debugReleased (s : State) (n : Nat) : State :=
  let halted := s.coreState n == 3
  let t := s.tearDown n
  if halted then t.setCoreState n (if t.bit (aCORE_CTRL n) fCORE_CTRL_RUN then 1 else 0) else t

/-- T+64: the other dies' clocks run, the ring runs, modules, ports and pairs train, and event 19 is raised (R39, R274,
R402). -/
def execResumeDieClocks (s : State) : Host.Outcome State Fault Refusal :=
  if s.clk.phase == .hubOnly && decide (s.clk.resumeAt + 64 ≤ s.now) then
    let t := { s with clk := { s.clk with phase := .run } }
    let t := (t.setBit aRIM_CLK fRIM_CLK_STOPPED false).setBit aRIM_CLK fRIM_CLK_SRC_VALID false
    let t := (allModules.filter (fun b => !t.inReset (txDieOf b) && !t.inReset (rxDieOf b))).foldl
      (fun t b => t.fullTraining b (t.now + 1)) t
    let t := (List.range 6).foldl (fun t p =>
      if t.bit (aTP_CTRL p) fTP_CTRL_EN && t.tpState p != 11 then t.portTrain p else t) t
    let t := (List.range 4).foldl State.qdrTrain t
    let t := ((List.range 8).foldl State.debugReleased t).dbgLost 2
    .next (t.raise 19)
  else .next s

/-- T+256: user outputs leave their safe states (R39). -/
def execResumeUserOutputs (s : State) : Host.Outcome State Fault Refusal :=
  if s.runs && s.clk.outSafe && decide (s.clk.resumeAt + 256 ≤ s.now) then
    .next { s with clk := { s.clk with outSafe := false } }
  else .next s

end Sys2Proof.Machine
end

