-- ==== Sys2Proof/Machine/Tap.lean ====
section
/-! DEFINITION. The test access ports: the chain (R405), instructions (R406, R409), the debug registers (R385 to R387), march tests
of dies (R410), the per-wire interconnect test (R411 to R413), boundary registers (R408), loop-backs by row (R414 to R416,
R421), and clock and lock losses that chapters 06 and 07 name. -/

namespace Sys2Proof.Machine

/-! ### The chain (R405) -/

/-- The hub TAP works: it is powered and not held by the power-on reset. -/
def State.tapLive (s : State) : Bool := !s.pwr.onVbat && s.clk.phase != .porHold

/-- Edges of a die's loop up to the die, in the order of the chain. -/
def chainEdges (d : Nat) : List (Nat × Nat) := if d = 6 then [] else (loopEdges d).take (if d = 7 then 1 else d % 3 + 1)

/-- A die TAP is in the chain: selected, its clocks run, it is out of reset, and every edge of its loop before it carries the
share. -/
def State.inChain (s : State) (d : Nat) : Bool :=
  d == 6 || (s.tap.chainSel.getLsbD d && s.runs && !s.inReset d && (chainEdges d).all (fun e => s.edgeUp e.1 e.2))

/-- A die TAP that is out of the chain holds `IDCODE` (R405). -/
def State.syncTaps (s : State) : State := { s with tap := { s.tap with dieIr := tkeep s.inChain s.tap.dieIr } }

/-- Instruction of a die's TAP. -/
def State.tapIr (s : State) (d : Nat) : BitVec 8 := if d = 6 then s.tap.ir else tget (fun _ => 1#8) s.syncTaps.tap.dieIr d

/-- Intrusive instructions (R409). -/
def intrusive (c : BitVec 8) : Bool := c == 0x00#8 || c == 0x03#8 || c == 0x04#8 || c == 0x08#8 || c == 0x09#8

/-- `TRST_N`, or Test-Logic-Reset (R385, R386, R405). -/
def execTapReset (trst : Bool) (s : State) : Host.Outcome State Fault Refusal :=
  let t := { s.tap with ir := 1, dieIr := [], overrun := false, rimIndex := 0
                        chainSel := if trst then 0 else s.tap.chainSel }
  .next { s with tap := t }

/-- An intrusive instruction newly on H: ports lose lock and retrain, DRAM sets lose their contents, pairs retrain (R409). -/
def State.hubIntruded (s : State) : State :=
  if !s.runs then s.dramHalt
  else
    let t := (List.range 6).foldl (fun t p =>
      if t.bit (aTP_CTRL p) fTP_CTRL_EN && t.tpState p != 11 && t.tpState p != 0 then t.portTrain p else t) s.dramHalt
    (List.range 4).foldl State.qdrTrain t

/-- Update-IR: the hub TAP and the die TAPs in the chain load their instructions (R406, R409). -/
def execTapInstructionLoad (hub : BitVec 8) (dies : W64) (s : State) : Host.Outcome State Fault Refusal :=
  if !s.tapLive then .next s
  else
    let s := s.syncTaps
    let old := s.tap.ir
    let ir := [0, 1, 2, 3, 4, 5, 7].foldl (fun l d =>
      if s.inChain d then tput (fun _ => 1#8) l d (dies.extractLsb' (8 * d) 8) else l) s.tap.dieIr
    let t := { s with tap := { s.tap with ir := hub, dieIr := ir } }
    .next (if intrusive hub && !intrusive old then t.hubIntruded else t)

/-- Update-DR of `CHAIN_SEL` (R405). -/
def execChainSelUpdate (v : BitVec 8) (s : State) : Host.Outcome State Fault Refusal :=
  if s.tap.ir = 0x10#8 then .next ({ s with tap := { s.tap with chainSel := v } }).syncTaps else .next s

/-! ### Ring and rim access (R386, R387) -/

/-- Update-DR of `RING`: a read or a write by master 0x60; an update while an access runs is ignored (R386). -/
def execJtagRingUpdate (r : BitVec 68) (s : State) : Host.Outcome State Fault Refusal :=
  let op := bitsOf r.toNat 1 0
  if s.tap.ir ≠ 0x20#8 ∨ (op ≠ 1 ∧ op ≠ 2) ∨ s.clk.phase = .oscDelay ∨ s.clk.phase = .lockWait ∨ !s.tapLive then .next s
  else if s.ringDebug.busy then .next { s with tap := { s.tap with overrun := true } }
  else
    let q : RingReq :=
      { die := bitsOf r.toNat 4 2, block := bitsOf r.toNat 20 5, off := 4 * bitsOf r.toNat 34 21, write := op == 2
        data := BitVec.ofNat 32 (bitsOf r.toNat 66 35) }
    let t := ringDo .debug q (ringTarget .debug q) s
    .next (if s.runs then t else t.ringComplete .debug)

/-- What Capture-DR of `RING` loads: `BUSY`, `OVERRUN`, `STATUS` and the read data (R386). -/
def State.ringDr (s : State) : Nat :=
  let m := s.ringDebug
  (if m.busy then 1 else 0) + (if s.tap.overrun then 2 else 0) + rstatCode m.status * 4 + m.data.toNat * 16
/-- Capture-DR of `RING`; `OVERRUN` is then cleared (R386). -/
def execRingCaptureDr (s : State) : Host.Outcome State Fault Refusal :=
  if s.tap.ir ≠ 0x20#8 then .next s
  else .next { s with tap := { s.tap with ringCap := BitVec.ofNat 68 s.ringDr, overrun := false } }

/-- The register that `RIM` reads at an index (R387). -/
def State.rimRead (s : State) (i : Nat) : W32 :=
  if i = 0 then s.reg aRIM_CLK
  else if i = 1 then s.reg aDBG_LOST
  else if 0x40 ≤ i ∧ i ≤ 0x57 then s.reg (ra 6 2 (0x100 + 4 * (i - 0x40)))
  else 0#32

/-- A `RIM` write of a register (R387). -/
def State.rimWrite (s : State) (i : Nat) (v : W32) : State :=
  if i = 0 then
    let t := s.plainWrite aRIM_CLK v
    if getB v fRIM_CLK_ACK then t.rimAck else t
  else if i = 1 then s.plainWrite aDBG_LOST v
  else if 0x40 ≤ i ∧ i ≤ 0x57 then
    let a := ra 6 2 (0x100 + 4 * (i - 0x40))
    if a = aRTC_CTRL then (rtcCtrlWrite v s).1 else if a = aRTC_SNAP then s.rtcCapture else s.plainWrite a v
  else s

/-- Update-DR of `RIM`: `INDEX` is kept, and with `WR` the register is written (R387). -/
def execJtagRimUpdate (r : BitVec 40) (s : State) : Host.Outcome State Fault Refusal :=
  if s.tap.ir ≠ 0x21#8 ∨ !s.tapLive then .next s
  else
    let i := bitsOf r.toNat 7 1
    let t := { s with tap := { s.tap with rimIndex := BitVec.ofNat 7 i } }
    .next (if r.getLsbD 0 then t.rimWrite i (BitVec.ofNat 32 (bitsOf r.toNat 39 8)) else t)

/-! ### March tests of dies (R410) -/

/-- March test record of a die. -/
def State.dieBist (s : State) (d : Nat) : DieBist := tget (fun _ => DieBist.empty) s.tap.bists d
/-- Set a march test record. -/
def State.setDieBist (s : State) (d : Nat) (x : DieBist) : State :=
  { s with tap := { s.tap with bists := tput (fun _ => DieBist.empty) s.tap.bists d x } }

/-- Update-DR of `DIE_BIST` of die d, with bit 0 as given: a test starts only in state unconfigured (R410). -/
def execDieBistStart (d : Fin 8) (start : Bool) (s : State) : Host.Outcome State Fault Refusal :=
  let d := d.val
  let x := s.dieBist d
  if d = 6 ∨ !start ∨ s.tapIr d ≠ 0x13#8 ∨ !s.inChain d ∨ x.since.isSome then .next s
  else if s.dieState d ≠ 0 then .next (s.setDieBist d { x with refused := true })
  else .next (s.setDieBist d { since := some s.now, pass := false, refused := false, fails := 0 })

/-- The words of a block's result FIFO after a march test are free. -/
def State.scrambleFifo (s : State) (n : Nat) : State :=
  (List.range (s.ab n).fifo.length).foldl (fun t i =>
    let (v, t) := t.fresh 32
    t.setAb n { t.ab n with fifo := (t.ab n).fifo.set i v }) s

/-- A march test ends with a number of failing words: frames read zero and the map all ones (R410). -/
def execDieBistEnd (d : Fin 8) (fails : Nat) (s : State) : Host.Outcome State Fault Refusal :=
  let d := d.val
  let x := s.dieBist d
  if x.since.isNone || !s.runs then .next s
  else
    let t := (s.setDieBist d { since := none, pass := fails == 0, refused := false, fails := min 65535 fails }).clearFrames d
    .next (if d = 7 then (List.range 48).foldl State.scrambleFifo t else t)

/-! ### The interconnect test (R411 to R413) -/

/-- Register sets of the modules of an edge, both directions: those that receive on the higher die or from it first. -/
def d2dModules (e : Nat) : List Nat :=
  if e < 4 then
    let lo := if e < 2 then e else e + 1
    (List.range 8).flatMap (fun k => [ra (lo + 1) 0x510 (0x40 * k), ra lo 0x511 (0x40 * k)]) ++
      (List.range 4).flatMap (fun k => [ra (lo + 1) 0x512 (0x40 * k), ra lo 0x513 (0x40 * k)])
  else if e < 10 then (List.range 16).flatMap (fun k => [ra (e - 4) (0x500 + k) 0, ra (e - 4) (0x500 + k) 0x40])
  else if e = 10 then [ra 7 0 0x100, ra 7 0 0x140]
  else []
/-- Modules of one direction of an edge. -/
def d2dCount (e : Nat) : Nat := (d2dModules e).length / 2
/-- Dies of an edge that a die reset can hold. -/
def d2dDies (e : Nat) : List Nat :=
  if e < 4 then (let lo := if e < 2 then e else e + 1; [lo, lo + 1]) else if e < 10 then [e - 4] else [7]
/-- Steps of a run (R412). -/
def d2dSteps (e mode : Nat) : Nat := if mode = 3 then 4 else 172 * d2dCount e

/-- Update-DR of `D2D_TEST` (R411, R412). -/
def execD2dTestUpdate (v : BitVec 16) (s : State) : Host.Outcome State Fault Refusal :=
  let n := v.toNat
  let e := bitsOf n 3 0
  let mode := bitsOf n 6 5
  let md := bitsOf n 11 8
  let x := s.tap.d2d
  if s.tap.ir ≠ 0x11#8 ∨ !s.tapLive then .next s
  else if !v.getLsbD 7 then .next { s with tap := { s.tap with d2d := { x with modSel := md } } }
  else if x.since.isSome || !s.runs || 10 < e || mode == 0 || (d2dDies e).any s.inReset || d2dCount e ≤ md then
    .next { s with tap := { s.tap with d2d := { x with refused := true } } }
  else
    let t := (d2dModules e).foldl (fun t b => t.fence b (s.nextCheck + 2)) s
    .next { t with tap := { t.tap with d2d :=
      { edge := e, dir := v.getLsbD 4, mode := mode, modSel := md, since := some s.now, step := 0, done := false
        refused := false, failed := [] } } }

/-- The receiving die samples a step; `wrong` lists the wires that had the wrong level (R412, R413). -/
def execD2dStep (wrong : List (Fin 2752)) (s : State) : Host.Outcome State Fault Refusal :=
  let x := s.tap.d2d
  match x.since with
  | none => .next s
  | some t =>
    if s.runs && decide (x.step < d2dSteps x.edge x.mode) && decide (t + 1024 + 64 * x.step + 32 ≤ s.now) then
      let w := (wrong.map (fun i => i.val)).filter (fun i => decide (i < 172 * d2dCount x.edge))
      let failed := w.foldl (fun l i => if l.contains i then l else l ++ [i]) x.failed
      .next { s with tap := { s.tap with d2d := { x with step := x.step + 1, failed := failed } } }
    else .next s

/-- The run ends: results are latched and every module of the edge trains in full (R412). -/
def execD2dRunEnd (s : State) : Host.Outcome State Fault Refusal :=
  let x := s.tap.d2d
  match x.since with
  | none => .next s
  | some t =>
    if s.runs && decide (t + 1024 + 64 * d2dSteps x.edge x.mode ≤ s.now) then
      let u := (d2dModules x.edge).foldl (fun u b => (u.setFld (aLM_STATUS b) fLM_STATUS_MISMATCH 0).fullTraining b 0) s
      .next { u with tap := { u.tap with d2d := { x with since := none, done := true } } }
    else .next s

/-! ### Boundary registers (R408, R409) -/

/-- Cells of a die's boundary register. -/
def boundaryCells (d : Nat) : Nat := if d < 6 then 640 else if d = 6 then 6023 else 1
/-- Instructions under which an update of the boundary register drives pins, or preloads them. -/
def boundaryIr (c : BitVec 8) : Bool := c == 0x00#8 || c == 0x02#8 || c == 0x08#8 || c == 0x09#8
/-- Update-DR of a boundary register; A's one cell only observes (R408). -/
def execBoundaryScanUpdate (d : Fin 8) (v : Nat) (s : State) : Host.Outcome State Fault Refusal :=
  let d := d.val
  if d = 7 ∨ !boundaryIr (s.tapIr d) ∨ !s.tapLive then .next s
  else .next { s with tap := { s.tap with boundary := tput (fun _ => 0) s.tap.boundary d (v % 2 ^ boundaryCells d) } }

/-! ### Data registers at Capture-DR (R405 to R407, R410, R411, R413) -/

/-- The `IDCODE` word of a die (R407). -/
def State.idcode (s : State) (d : Nat) : W32 :=
  let part := if d < 6 then 0xFA61 else if d = 6 then 0xFA64 else 0xFA67
  BitVec.ofNat 32 (2 ^ 28 * (s.fuse.dieRev.getD d 0 % 16) + 2 ^ 12 * part + 2 * 0x2B5 + 1)

/-- The data register that the instruction of a die's TAP selects, as Capture-DR loads it: its length and value. A boundary register loads
the pins, which are outside the model: none. Instructions that the table does not name for a TAP act as `BYPASS` (R406). -/
def State.drCapture (s : State) (d : Nat) : Option (Nat × Nat) :=
  let b (v : Bool) (i : Nat) : Nat := if v then 2 ^ i else 0
  let hub := d == 6
  let x := s.tap.d2d
  match (s.tapIr d).toNat with
  | 0x00 => none
  | 0x02 => none
  | 0x08 => if d = 7 then some (1, 0) else none
  | 0x09 => if d = 7 then some (1, 0) else none
  | 0x01 => some (32, (s.idcode d).toNat)
  | 0x10 => some (if hub then (8, ((List.range 8).filter s.inChain).foldl (fun n i => n + 2 ^ i) 0) else (1, 0))
  | 0x11 => some (if hub then (16, b x.since.isSome 0 + b x.done 1 + b (!x.failed.isEmpty) 2 + b x.refused 3) else (1, 0))
  | 0x12 => some (if hub then (172, if x.since.isSome then 0
      else ((List.range 172).filter (fun w => x.failed.contains (172 * x.modSel + w))).foldl (fun n w => n + 2 ^ w) 0) else (1, 0))
  | 0x13 =>
    let y := s.dieBist d
    some (if hub then (1, 0) else (32, b y.since.isSome 0 + b y.pass 1 + b y.refused 2 + 65536 * y.fails))
  | 0x20 => some (if hub then (68, s.ringDr) else (1, 0))
  | 0x21 => some (if hub then (40, 2 * s.tap.rimIndex.toNat + 256 * (s.rimRead s.tap.rimIndex.toNat).toNat) else (1, 0))
  | _ => some (1, 0)

/-! ### Loop-backs (R415, R416, R421) -/

/-- `TP_CTRL.LOOP`, or with `ret` `TP_LB.RET`, of port p written by master m (R415). -/
def execTpLbWrite (m : Rm) (p : Fin 6) (ret : Bool) (v : BitVec 2) (s : State) : Host.Outcome State Fault Refusal :=
  let p := p.val
  if ret then .next (ringPut m (aTP_LB p) (v.setWidth 32) (tpLoopWrite p (tpLbWrite p (v.setWidth 32))) s)
  else
    let w := putF (s.reg (aTP_CTRL p)) fTP_CTRL_LOOP v.toNat
    .next (ringPut m (aTP_CTRL p) w (tpLoopWrite p (tpCtrlWrite p w)) s)

/-- `GL_LB` of quad q of die d written by master m (R416). -/
def execGlLbWrite (m : Rm) (d : Fin 6) (q : Fin 4) (v : W32) (s : State) : Host.Outcome State Fault Refusal :=
  .next (ringPut m (aGL_LB d.val q.val) v (glLbWrite d.val q.val v) s)

/-- `REF_LOOP` written by master m (R421). -/
def execRefLoopWrite (m : Rm) (v : W32) (s : State) : Host.Outcome State Fault Refusal :=
  .next (ringPut m aREF_LOOP v (refLoopWrite v) s)

/-! ### Losses of a clock or a lock -/

/-- A die-link receiver loses both `FCK` and `FCKS` (R140). -/
def execForwardedClockLoss (l : LinkId) (s : State) : Host.Outcome State Fault Refusal :=
  let b := linkBase l
  let st := s.lmState b
  if s.lmListens l && st != 0 && st != 7 then
    let t := s.fullTraining b (s.nextCheck + 2)
    .next (t.setLm b { t.lm b with clkGone := true })
  else .next s

/-- A quad PLL of port p loses lock (R185). -/
def execQuadPllLockLoss (p : Fin 6) (q : Fin 4) (s : State) : Host.Outcome State Fault Refusal :=
  let b := quadBlock 6 (4 * p.val + q.val)
  if s.runs && s.bit (aLN_STATUS b 0) fLN_STATUS_PLL_LOCK then
    let t := (List.range 4).foldl (fun t j =>
      (t.setBit (aLN_STATUS b j) fLN_STATUS_PLL_LOCK false).setBit (aLN_STATUS b j) fLN_STATUS_CDR_LOCK false) s
    .next (t.raise (portEvent p.val 8))
  else .next s

end Sys2Proof.Machine
end

