-- ==== Sys2Proof/Machine/Tick.lean ====
section
/-! DEFINITION. What time does with no command waiting: one tick of the root where its clocks run, and perhaps one cycle of the rim
(DESIGN CHOICE: the table has no row for a tick). -/

namespace Sys2Proof.Machine

/-- Core cycles that end in the tick after `now`: four in five ticks (R28). -/
def coreCycles (now : Nat) : Nat := 4 * (now + 1) / 5 - 4 * now / 5

/-- One cycle of the 32.768 kHz crystal: the counter counts or takes `RTC_SET`, and the power request in progress grows one
cycle older (R372, R376). -/
def State.rimEdge (s : State) : State :=
  let p := s.pwr
  let rtc : BitVec 48 := if p.loadPending then BitVec.ofNat 48 (s.reg64 aRTC_SET_LO aRTC_SET_HI) else p.rtc + 1
  { s with pwr := { p with rtc := rtc, loadPending := false, almDone := false
                           cur := p.cur.map (fun r => { r with
                             rim := r.rim + 1, edges := if r.granted then r.edges + 1 else 0, edgeAt := s.now })
                           rising := p.rising.map (fun x => (x.1, some (x.2.getD s.now))) } }

/-- The rim's crystal gives an edge in this step or not (DESIGN CHOICE, safe, log entry 3). -/
def State.rimStep (s : State) : State :=
  if s.pwr.rtcStopped then s
  else
    let (y, t) := s.freshB
    if y then t.rimEdge else t

/-- The root advances one tick. -/
def State.advance (s : State) : State := { s with clk := { s.clk with now := s.clk.now + 1, tick := s.clk.tick + 1 } }

/-- What the hub's blocks do on a tick, `k` core cycles long. -/
def State.hubTick (s : State) (k : Nat) : State :=
  let t := s.riseTick.changeTick
  let t := (List.range 8).foldl (fun t n => t.watchdogTick n k) t
  let t := ((List.range 16).foldl (fun t i => t.ccTick k i) t).bistTick k
  let t := (List.range 4).foldl (fun t e => (t.dmaTick e).dmaDrained e) t
  let t := (List.range 4).foldl (fun t q => t.qdrTick q) t
  (List.range 4).foldl (fun t d => t.dramDrain d) t

/-- What the ports, the ring and die A do on a tick while every domain clock runs. -/
def State.dieTick (s : State) : State :=
  let t := s.ringTick.revTick.niTick.beTick
  let t := (List.range 6).foldl (fun t p => (t.portTick p).streamTick p) t
  t.anaTick.cfgTick.syncTaps

/-- One step of time with no command waiting (DESIGN CHOICE, unsafe, log entry 2). -/
def State.idle (s : State) : State :=
  let s := s.rimStep
  if !s.hubRuns then s.syncTaps
  else
    let s := if s.runs && !s.clk.started then s.startUp else s
    let t := s.advance.hubTick (coreCycles s.now)
    let t := if t.runs then t.dieTick else t.syncTaps
    if t.hubRuns then t.judgeRef else t

end Sys2Proof.Machine
end

