-- ==== Sys2Proof/Machine/Dispatch.lean ====
section
/-! DEFINITION. Every command's meaning: one arm per row of the opcode table. -/

namespace Sys2Proof.Machine

/-- The effect of a command on everything but the queue. -/
def exec (i : Instr) (s : State) : Host.Outcome State Fault Refusal :=
  match i with
  | .powerOnReset straps => Sys2Proof.Machine.execPowerOnReset straps s
  | .supplyDrop => Sys2Proof.Machine.execSupplyDrop s
  | .pinReset straps silent => Sys2Proof.Machine.execPinReset straps silent s
  | .oscDlyExpiry => Sys2Proof.Machine.execOscDlyExpiry s
  | .rootPllLock silent => Sys2Proof.Machine.execRootPllLock silent s
  | .revisionReadTimeout d => Sys2Proof.Machine.execRevisionReadTimeout d s
  | .ringAccess m r => Sys2Proof.Machine.execRingAccess m r s
  | .ringAccessComplete m => Sys2Proof.Machine.execRingAccessComplete m s
  | .ringAccessTimeout m => Sys2Proof.Machine.execRingAccessTimeout m s
  | .registerWrite m die block off v => Sys2Proof.Machine.execRegisterWrite m die block off v s
  | .deviceIdWrite m v => Sys2Proof.Machine.execDeviceIdWrite m v s
  | .dieResetLogic m d => Sys2Proof.Machine.execDieResetLogic m d s
  | .dieResetAnalog m => Sys2Proof.Machine.execDieResetAnalog m s
  | .dieResetEnd d => Sys2Proof.Machine.execDieResetEnd d s
  | .refQualified recovered => Sys2Proof.Machine.execRefQualified recovered s
  | .refCtrlWrite m v => Sys2Proof.Machine.execRefCtrlWrite m v s
  | .slewEnd => Sys2Proof.Machine.execSlewEnd s
  | .recoveredRefLoss => Sys2Proof.Machine.execRecoveredRefLoss s
  | .localOscLoss => Sys2Proof.Machine.execLocalOscLoss s
  | .freqMonAverage diff rootDeparted => Sys2Proof.Machine.execFreqMonAverage diff rootDeparted s
  | .clockLossNoFallback pllFault => Sys2Proof.Machine.execClockLossNoFallback pllFault s
  | .rimSrcValid => Sys2Proof.Machine.execRimSrcValid s
  | .rimClkAck => Sys2Proof.Machine.execRimClkAck s
  | .resumeHubClocks => Sys2Proof.Machine.execResumeHubClocks s
  | .resumeDieClocks => Sys2Proof.Machine.execResumeDieClocks s
  | .resumeUserOutputs => Sys2Proof.Machine.execResumeUserOutputs s
  | .sscCtrlWrite m v => Sys2Proof.Machine.execSscCtrlWrite m v s
  | .sscChange => Sys2Proof.Machine.execSscChange s
  | .fclkCfgWrite m n v => Sys2Proof.Machine.execFclkCfgWrite m n v s
  | .fclkChange n => Sys2Proof.Machine.execFclkChange n s
  | .tickSnap m v => Sys2Proof.Machine.execTickSnap m v s
  | .timeMarkerSend => Sys2Proof.Machine.execTimeMarkerSend s
  | .timeMarkerCompare value aligned frac => Sys2Proof.Machine.execTimeMarkerCompare value aligned frac s
  | .markerMissing => Sys2Proof.Machine.execMarkerMissing s
  | .tickLoadArm m v => Sys2Proof.Machine.execTickLoadArm m v s
  | .tickLoad value => Sys2Proof.Machine.execTickLoad value s
  | .tickCtrlMasterWrite m v => Sys2Proof.Machine.execTickCtrlMasterWrite m v s
  | .slotInject j => Sys2Proof.Machine.execSlotInject j s
  | .routerForwardScheduled => Sys2Proof.Machine.execRouterForwardScheduled s
  | .egressCheck j => Sys2Proof.Machine.execEgressCheck j s
  | .sfPop m v => Sys2Proof.Machine.execSfPop m v s
  | .patternStart m => Sys2Proof.Machine.execPatternStart m s
  | .patternSwap m => Sys2Proof.Machine.execPatternSwap m s
  | .patternStop m => Sys2Proof.Machine.execPatternStop m s
  | .patternCancel m => Sys2Proof.Machine.execPatternCancel m s
  | .patternActionTick => Sys2Proof.Machine.execPatternActionTick s
  | .tailEnd => Sys2Proof.Machine.execTailEnd s
  | .patternTableWrite m j v => Sys2Proof.Machine.execPatternTableWrite m j v s
  | .psDataRead m j word => Sys2Proof.Machine.execPsDataRead m j word s
  | .commitStart m d crc => Sys2Proof.Machine.execCommitStart m d crc s
  | .commitEnd d => Sys2Proof.Machine.execCommitEnd d s
  | .beRequestIssue j => Sys2Proof.Machine.execBeRequestIssue j s
  | .beHop j out vc => Sys2Proof.Machine.execBeHop j out vc s
  | .creditReturn j => Sys2Proof.Machine.execCreditReturn j s
  | .headerAged j input => Sys2Proof.Machine.execHeaderAged j input s
  | .stallDetect j => Sys2Proof.Machine.execStallDetect j s
  | .bePacketArrive j => Sys2Proof.Machine.execBePacketArrive j s
  | .beResponseArrive j => Sys2Proof.Machine.execBeResponseArrive j s
  | .beTimeout j tag => Sys2Proof.Machine.execBeTimeout j tag s
  | .flitStageWrite j flits => Sys2Proof.Machine.execFlitStageWrite j flits s
  | .egressPresent j => Sys2Proof.Machine.execEgressPresent j s
  | .fifoWrite j k flit last => Sys2Proof.Machine.execFifoWrite j k flit last s
  | .fifoRead j k => Sys2Proof.Machine.execFifoRead j k s
  | .fifoFlush m j mask => Sys2Proof.Machine.execFifoFlush m j mask s
  | .flushBoundary j k => Sys2Proof.Machine.execFlushBoundary j k s
  | .niDisable m j => Sys2Proof.Machine.execNiDisable m j s
  | .niForcedDisable m j => Sys2Proof.Machine.execNiForcedDisable m j s
  | .niDrainComplete j => Sys2Proof.Machine.execNiDrainComplete j s
  | .niDisableBoundary j => Sys2Proof.Machine.execNiDisableBoundary j s
  | .niDisableCancel m j => Sys2Proof.Machine.execNiDisableCancel m j s
  | .niEnable m j => Sys2Proof.Machine.execNiEnable m j s
  | .niLoop m j on => Sys2Proof.Machine.execNiLoop m j on s
  | .spillEnable m j v => Sys2Proof.Machine.execSpillEnable m j v s
  | .spillStart j => Sys2Proof.Machine.execSpillStart j s
  | .spillRecordWrite j => Sys2Proof.Machine.execSpillRecordWrite j s
  | .spillWriteResponse j => Sys2Proof.Machine.execSpillWriteResponse j s
  | .spillReplay j => Sys2Proof.Machine.execSpillReplay j s
  | .replayReadResponse j => Sys2Proof.Machine.execReplayReadResponse j s
  | .linkFrameReceive l f => Sys2Proof.Machine.execLinkFrameReceive l f s
  | .trainingWordReceive l w => Sys2Proof.Machine.execTrainingWordReceive l w s
  | .linkClockDetect l fck fcks => Sys2Proof.Machine.execLinkClockDetect l fck fcks s
  | .linkDeskewDone l => Sys2Proof.Machine.execLinkDeskewDone l s
  | .linkVerifyDone l errors => Sys2Proof.Machine.execLinkVerifyDone l errors s
  | .linkMaskAgreed l => Sys2Proof.Machine.execLinkMaskAgreed l s
  | .linkFrameLock l => Sys2Proof.Machine.execLinkFrameLock l s
  | .linkStageTimeout l => Sys2Proof.Machine.execLinkStageTimeout l s
  | .linkFence m l => Sys2Proof.Machine.execLinkFence m l s
  | .linkUnfence m l => Sys2Proof.Machine.execLinkUnfence m l s
  | .linkRetrain m l => Sys2Proof.Machine.execLinkRetrain m l s
  | .linkClrCnt m l => Sys2Proof.Machine.execLinkClrCnt m l s
  | .linkLoop m l depth errors => Sys2Proof.Machine.execLinkLoop m l depth errors s
  | .creditResyncReturn l => Sys2Proof.Machine.execCreditResyncReturn l s
  | .ringShareMove l => Sys2Proof.Machine.execRingShareMove l s
  | .laneTrainingSetReceive p lane set => Sys2Proof.Machine.execLaneTrainingSetReceive p lane set s
  | .laneEqDone p => Sys2Proof.Machine.execLaneEqDone p s
  | .lnAlignSlip m l => Sys2Proof.Machine.execLnAlignSlip m l s
  | .lnAlignDone m l => Sys2Proof.Machine.execLnAlignDone m l s
  | .laneAlignTimeout p lane => Sys2Proof.Machine.execLaneAlignTimeout p lane s
  | .alignmentMarkerReceive p arrive => Sys2Proof.Machine.execAlignmentMarkerReceive p arrive s
  | .portStageTimeout p => Sys2Proof.Machine.execPortStageTimeout p s
  | .portTrainRestart p => Sys2Proof.Machine.execPortTrainRestart p s
  | .exchangePositionReceive p pos frac => Sys2Proof.Machine.execExchangePositionReceive p pos frac s
  | .exchangeComplete p => Sys2Proof.Machine.execExchangeComplete p s
  | .portAccept m p => Sys2Proof.Machine.execPortAccept m p s
  | .controlPositionReceive p content errs => Sys2Proof.Machine.execControlPositionReceive p content errs s
  | .leaveSched p => Sys2Proof.Machine.execLeaveSched p s
  | .portPositionReceive p pos => Sys2Proof.Machine.execPortPositionReceive p pos s
  | .portAdmitScheduled p => Sys2Proof.Machine.execPortAdmitScheduled p s
  | .laneFault l => Sys2Proof.Machine.execLaneFault l s
  | .halfWidthSwitch p => Sys2Proof.Machine.execHalfWidthSwitch p s
  | .portQuiet m p => Sys2Proof.Machine.execPortQuiet m p s
  | .portRest m p => Sys2Proof.Machine.execPortRest m p s
  | .portActive m p => Sys2Proof.Machine.execPortActive m p s
  | .quietEnter p => Sys2Proof.Machine.execQuietEnter p s
  | .portRetrain m p => Sys2Proof.Machine.execPortRetrain m p s
  | .portDisable m p force => Sys2Proof.Machine.execPortDisable m p force s
  | .portEnable m p => Sys2Proof.Machine.execPortEnable m p s
  | .gatewayRead m => Sys2Proof.Machine.execGatewayRead m s
  | .gatewayWrite m => Sys2Proof.Machine.execGatewayWrite m s
  | .remotePacketReceive p => Sys2Proof.Machine.execRemotePacketReceive p s
  | .gatewayTimeout m => Sys2Proof.Machine.execGatewayTimeout m s
  | .streamSendGo m p => Sys2Proof.Machine.execStreamSendGo m p s
  | .streamSendAbort m p => Sys2Proof.Machine.execStreamSendAbort m p s
  | .streamSendEnd p => Sys2Proof.Machine.execStreamSendEnd p s
  | .glSlip l => Sys2Proof.Machine.execGlSlip l s
  | .userEvent d j => Sys2Proof.Machine.execUserEvent d j s
  | .regionHold m d mask => Sys2Proof.Machine.execRegionHold m d mask s
  | .regionHoldComplete d n => Sys2Proof.Machine.execRegionHoldComplete d n s
  | .regionRelease m d mask => Sys2Proof.Machine.execRegionRelease m d mask s
  | .regionGateRelease d n => Sys2Proof.Machine.execRegionGateRelease d n s
  | .regionReleaseComplete d n => Sys2Proof.Machine.execRegionReleaseComplete d n s
  | .brRgnWrite m d n v => Sys2Proof.Machine.execBrRgnWrite m d n v s
  | .prbSelWrite m d j v => Sys2Proof.Machine.execPrbSelWrite m d j v s
  | .clearComplete => Sys2Proof.Machine.execClearComplete s
  | .initNHigh => Sys2Proof.Machine.execInitNHigh s
  | .progNAssert => Sys2Proof.Machine.execProgNAssert s
  | .cfgSdataWrite m v => Sys2Proof.Machine.execCfgSdataWrite m v s
  | .syncWord src => Sys2Proof.Machine.execSyncWord src s
  | .streamNop src words => Sys2Proof.Machine.execStreamNop src words s
  | .streamCrc src words => Sys2Proof.Machine.execStreamCrc src words s
  | .streamDeviceCode src words => Sys2Proof.Machine.execStreamDeviceCode src words s
  | .streamFeature src words => Sys2Proof.Machine.execStreamFeature src words s
  | .streamFrameAddr src words => Sys2Proof.Machine.execStreamFrameAddr src words s
  | .streamFdata src words => Sys2Proof.Machine.execStreamFdata src words s
  | .streamOptions src words => Sys2Proof.Machine.execStreamOptions src words s
  | .streamRegion src words => Sys2Proof.Machine.execStreamRegion src words s
  | .streamEbmAddr src words => Sys2Proof.Machine.execStreamEbmAddr src words s
  | .streamEbmData src words => Sys2Proof.Machine.execStreamEbmData src words s
  | .cmdNull src words => Sys2Proof.Machine.execCmdNull src words s
  | .cmdStart src words => Sys2Proof.Machine.execCmdStart src words s
  | .cmdHold src words => Sys2Proof.Machine.execCmdHold src words s
  | .cmdRelease src words => Sys2Proof.Machine.execCmdRelease src words s
  | .cmdDesync src words => Sys2Proof.Machine.execCmdDesync src words s
  | .streamTimeout => Sys2Proof.Machine.execStreamTimeout s
  | .startupBegin => Sys2Proof.Machine.execStartupBegin s
  | .startupStage => Sys2Proof.Machine.execStartupStage s
  | .startupRunning => Sys2Proof.Machine.execStartupRunning s
  | .scanFrame d flips => Sys2Proof.Machine.execScanFrame d flips s
  | .feLogPop m d v => Sys2Proof.Machine.execFeLogPop m d v s
  | .feLogStatWrite m d v => Sys2Proof.Machine.execFeLogStatWrite m d v s
  | .feRbDataRead m d => Sys2Proof.Machine.execFeRbDataRead m d s
  | .feRbCapture m d => Sys2Proof.Machine.execFeRbCapture m d s
  | .illegalOperation c => Sys2Proof.Machine.execIllegalOperation c s
  | .nop c slot w => Sys2Proof.Machine.execNop c slot w s
  | .addOp c slot w => Sys2Proof.Machine.execAddOp c slot w s
  | .subOp c slot w => Sys2Proof.Machine.execSubOp c slot w s
  | .andOp c slot w => Sys2Proof.Machine.execAndOp c slot w s
  | .orOp c slot w => Sys2Proof.Machine.execOrOp c slot w s
  | .xorOp c slot w => Sys2Proof.Machine.execXorOp c slot w s
  | .shl c slot w => Sys2Proof.Machine.execShl c slot w s
  | .shr c slot w => Sys2Proof.Machine.execShr c slot w s
  | .sra c slot w => Sys2Proof.Machine.execSra c slot w s
  | .minOp c slot w => Sys2Proof.Machine.execMinOp c slot w s
  | .maxOp c slot w => Sys2Proof.Machine.execMaxOp c slot w s
  | .addi c slot w => Sys2Proof.Machine.execAddi c slot w s
  | .shli c slot w => Sys2Proof.Machine.execShli c slot w s
  | .shri c slot w => Sys2Proof.Machine.execShri c slot w s
  | .srai c slot w => Sys2Proof.Machine.execSrai c slot w s
  | .movi c slot w => Sys2Proof.Machine.execMovi c slot w s
  | .movhi c slot w => Sys2Proof.Machine.execMovhi c slot w s
  | .cmp c slot w => Sys2Proof.Machine.execCmp c slot w s
  | .cmpi c slot w => Sys2Proof.Machine.execCmpi c slot w s
  | .sel c slot w => Sys2Proof.Machine.execSel c slot w s
  | .ldw c slot w => Sys2Proof.Machine.execLdw c slot w s
  | .ldh c slot w => Sys2Proof.Machine.execLdh c slot w s
  | .ldhu c slot w => Sys2Proof.Machine.execLdhu c slot w s
  | .ldb c slot w => Sys2Proof.Machine.execLdb c slot w s
  | .stw c slot w => Sys2Proof.Machine.execStw c slot w s
  | .sth c slot w => Sys2Proof.Machine.execSth c slot w s
  | .stb c slot w => Sys2Proof.Machine.execStb c slot w s
  | .ldr c slot w => Sys2Proof.Machine.execLdr c slot w s
  | .ldwp c slot w => Sys2Proof.Machine.execLdwp c slot w s
  | .stwp c slot w => Sys2Proof.Machine.execStwp c slot w s
  | .stc c slot w => Sys2Proof.Machine.execStc c slot w s
  | .mac4 c slot w => Sys2Proof.Machine.execMac4 c slot w s
  | .mul4 c slot w => Sys2Proof.Machine.execMul4 c slot w s
  | .mac2 c slot w => Sys2Proof.Machine.execMac2 c slot w s
  | .mul2 c slot w => Sys2Proof.Machine.execMul2 c slot w s
  | .accrd c slot w => Sys2Proof.Machine.execAccrd c slot w s
  | .accwr c slot w => Sys2Proof.Machine.execAccwr c slot w s
  | .accclr c slot w => Sys2Proof.Machine.execAccclr c slot w s
  | .muls c slot w => Sys2Proof.Machine.execMuls c slot w s
  | .brOp c slot w => Sys2Proof.Machine.execBrOp c slot w s
  | .bri c slot w => Sys2Proof.Machine.execBri c slot w s
  | .callOp c slot w => Sys2Proof.Machine.execCallOp c slot w s
  | .repOp c slot w => Sys2Proof.Machine.execRepOp c slot w s
  | .rotOp c slot w => Sys2Proof.Machine.execRotOp c slot w s
  | .reti c slot w => Sys2Proof.Machine.execReti c slot w s
  | .mts c slot w => Sys2Proof.Machine.execMts c slot w s
  | .mfs c slot w => Sys2Proof.Machine.execMfs c slot w s
  | .sendAt c slot w => Sys2Proof.Machine.execSendAt c slot w s
  | .sendAtInject c => Sys2Proof.Machine.execSendAtInject c s
  | .xrd c slot w => Sys2Proof.Machine.execXrd c slot w s
  | .xwr c slot w => Sys2Proof.Machine.execXwr c slot w s
  | .xferComplete c tag => Sys2Proof.Machine.execXferComplete c tag s
  | .waitOp c slot w => Sys2Proof.Machine.execWaitOp c slot w s
  | .waitConditionMet c => Sys2Proof.Machine.execWaitConditionMet c s
  | .sev c slot w => Sys2Proof.Machine.execSev c slot w s
  | .bkpt c slot w => Sys2Proof.Machine.execBkpt c slot w s
  | .interruptTake c => Sys2Proof.Machine.execInterruptTake c s
  | .rxRingWrite c => Sys2Proof.Machine.execRxRingWrite c s
  | .watchdogExpiry c => Sys2Proof.Machine.execWatchdogExpiry c s
  | .coreReset m c => Sys2Proof.Machine.execCoreReset m c s
  | .coreRunWrite m c run => Sys2Proof.Machine.execCoreRunWrite m c run s
  | .imDataWrite m c v => Sys2Proof.Machine.execImDataWrite m c v s
  | .dmDataAccess m c v => Sys2Proof.Machine.execDmDataAccess m c v s
  | .bootGo => Sys2Proof.Machine.execBootGo s
  | .bankRequest portA bank bad => Sys2Proof.Machine.execBankRequest portA bank bad s
  | .bankOwnerWrite m bank v => Sys2Proof.Machine.execBankOwnerWrite m bank v s
  | .ccSelWrite m k v => Sys2Proof.Machine.execCcSelWrite m k v s
  | .bankWakeComplete bank => Sys2Proof.Machine.execBankWakeComplete bank s
  | .bistGo m bank => Sys2Proof.Machine.execBistGo m bank s
  | .bistAbort m => Sys2Proof.Machine.execBistAbort m s
  | .bistPause => Sys2Proof.Machine.execBistPause s
  | .bistResume => Sys2Proof.Machine.execBistResume s
  | .bistEnd bad => Sys2Proof.Machine.execBistEnd bad s
  | .dmaGo m e => Sys2Proof.Machine.execDmaGo m e s
  | .descriptorComplete e => Sys2Proof.Machine.execDescriptorComplete e s
  | .dmaDisable m e force => Sys2Proof.Machine.execDmaDisable m e force s
  | .dmaEnable m e => Sys2Proof.Machine.execDmaEnable m e s
  | .qdrRetrain m q => Sys2Proof.Machine.execQdrRetrain m q s
  | .qdrTrainEnd q ok => Sys2Proof.Machine.execQdrTrainEnd q ok s
  | .qdrServiceTick q flips => Sys2Proof.Machine.execQdrServiceTick q flips s
  | .qdrBeRequest q flips => Sys2Proof.Machine.execQdrBeRequest q flips s
  | .qsDataWrite m q v => Sys2Proof.Machine.execQsDataWrite m q v s
  | .qdrSlotDisable m q => Sys2Proof.Machine.execQdrSlotDisable m q s
  | .qdrDisable m q force => Sys2Proof.Machine.execQdrDisable m q force s
  | .qdrEnable m q => Sys2Proof.Machine.execQdrEnable m q s
  | .qdrLbGo m q => Sys2Proof.Machine.execQdrLbGo m q s
  | .qdrLbDone q fails => Sys2Proof.Machine.execQdrLbDone q fails s
  | .qdrLbDepthWrite m q depth => Sys2Proof.Machine.execQdrLbDepthWrite m q depth s
  | .dramInit m d => Sys2Proof.Machine.execDramInit m d s
  | .dramInitComplete d => Sys2Proof.Machine.execDramInitComplete d s
  | .modeRegisterAccess m d v => Sys2Proof.Machine.execModeRegisterAccess m d v s
  | .trainingRun m d mode devs => Sys2Proof.Machine.execTrainingRun m d mode devs s
  | .trainingRunDone d fails => Sys2Proof.Machine.execTrainingRunDone d fails s
  | .dramEnable m d => Sys2Proof.Machine.execDramEnable m d s
  | .dramDisable m d force => Sys2Proof.Machine.execDramDisable m d force s
  | .dramRequest d noise metaNoise => Sys2Proof.Machine.execDramRequest d noise metaNoise s
  | .throttleEnd d master => Sys2Proof.Machine.execThrottleEnd d master s
  | .perBankRefresh d => Sys2Proof.Machine.execPerBankRefresh d s
  | .rowIdlePrecharge d bank => Sys2Proof.Machine.execRowIdlePrecharge d bank s
  | .refreshRatePoll d rates => Sys2Proof.Machine.execRefreshRatePoll d rates s
  | .drLbWrite m d depth => Sys2Proof.Machine.execDrLbWrite m d depth s
  | .drEccCtrlWrite m d v => Sys2Proof.Machine.execDrEccCtrlWrite m d v s
  | .keyedMixEnable m en => Sys2Proof.Machine.execKeyedMixEnable m en s
  | .kmFillStart => Sys2Proof.Machine.execKmFillStart s
  | .kmFillComplete => Sys2Proof.Machine.execKmFillComplete s
  | .kmFlush m => Sys2Proof.Machine.execKmFlush m s
  | .kmFlushComplete => Sys2Proof.Machine.execKmFlushComplete s
  | .kmRetire m k => Sys2Proof.Machine.execKmRetire m k s
  | .kmRetireComplete => Sys2Proof.Machine.execKmRetireComplete s
  | .kmSlotWrite m k v => Sys2Proof.Machine.execKmSlotWrite m k v s
  | .kmKeyWrite m k w v => Sys2Proof.Machine.execKmKeyWrite m k w v s
  | .metadataRead m metaNoise => Sys2Proof.Machine.execMetadataRead m metaNoise s
  | .metadataWrite m key metaNoise => Sys2Proof.Machine.execMetadataWrite m key metaNoise s
  | .swapArm m edge mat => Sys2Proof.Machine.execSwapArm m edge mat s
  | .swapCancel m => Sys2Proof.Machine.execSwapCancel m s
  | .acSwapEdge => Sys2Proof.Machine.execAcSwapEdge s
  | .swapTake => Sys2Proof.Machine.execSwapTake s
  | .abRun m n atStart => Sys2Proof.Machine.execAbRun m n atStart s
  | .abStop m n => Sys2Proof.Machine.execAbStop m n s
  | .abCal m n => Sys2Proof.Machine.execAbCal m n s
  | .abTriggerEdge n comparator => Sys2Proof.Machine.execAbTriggerEdge n comparator s
  | .abSample n raw => Sys2Proof.Machine.execAbSample n raw s
  | .abResultEnter n => Sys2Proof.Machine.execAbResultEnter n s
  | .abCalEnd n amp adc => Sys2Proof.Machine.execAbCalEnd n amp adc s
  | .abResultRead m n => Sys2Proof.Machine.execAbResultRead m n s
  | .abCalWrite m n adc v => Sys2Proof.Machine.execAbCalWrite m n adc v s
  | .asDataWrite m v => Sys2Proof.Machine.execAsDataWrite m v s
  | .afClkWrite m k v => Sys2Proof.Machine.execAfClkWrite m k v s
  | .icRun m n atStart => Sys2Proof.Machine.execIcRun m n atStart s
  | .icStop m n => Sys2Proof.Machine.execIcStop m n s
  | .icCal m n => Sys2Proof.Machine.execIcCal m n s
  | .conversionStart n => Sys2Proof.Machine.execConversionStart n s
  | .inputIntegrationEnd n => Sys2Proof.Machine.execInputIntegrationEnd n s
  | .residueStart n => Sys2Proof.Machine.execResidueStart n s
  | .conversionEnd n raw => Sys2Proof.Machine.execConversionEnd n raw s
  | .icCalEnd n zero ref => Sys2Proof.Machine.execIcCalEnd n zero ref s
  | .icResultRead m n => Sys2Proof.Machine.execIcResultRead m n s
  | .mainsCrossing => Sys2Proof.Machine.execMainsCrossing s
  | .mainsUnlockTimeout => Sys2Proof.Machine.execMainsUnlockTimeout s
  | .pwrReq m domain target => Sys2Proof.Machine.execPwrReq m domain target s
  | .powerHandshakeAsk => Sys2Proof.Machine.execPowerHandshakeAsk s
  | .powerDelayExpiry => Sys2Proof.Machine.execPowerDelayExpiry s
  | .powerLimitExpiry => Sys2Proof.Machine.execPowerLimitExpiry s
  | .domainStateChange => Sys2Proof.Machine.execDomainStateChange s
  | .domainReady domain => Sys2Proof.Machine.execDomainReady domain s
  | .rtcLoad m => Sys2Proof.Machine.execRtcLoad m s
  | .rtcSnap m => Sys2Proof.Machine.execRtcSnap m s
  | .rtcAlarm => Sys2Proof.Machine.execRtcAlarm s
  | .rtcFail => Sys2Proof.Machine.execRtcFail s
  | .vbatSwitchover => Sys2Proof.Machine.execVbatSwitchover s
  | .eventOccurrence e => Sys2Proof.Machine.execEventOccurrence e s
  | .collectorMessageSend e => Sys2Proof.Machine.execCollectorMessageSend e s
  | .bridgeMessageSend => Sys2Proof.Machine.execBridgeMessageSend s
  | .eventMessageReceive => Sys2Proof.Machine.execEventMessageReceive s
  | .evtOutPulseEnd j => Sys2Proof.Machine.execEvtOutPulseEnd j s
  | .evOutClr m mask => Sys2Proof.Machine.execEvOutClr m mask s
  | .evOutCfgWrite m j v => Sys2Proof.Machine.execEvOutCfgWrite m j v s
  | .jtagRingUpdate r => Sys2Proof.Machine.execJtagRingUpdate r s
  | .jtagRimUpdate r => Sys2Proof.Machine.execJtagRimUpdate r s
  | .tapReset trst => Sys2Proof.Machine.execTapReset trst s
  | .tapInstructionLoad hub dies => Sys2Proof.Machine.execTapInstructionLoad hub dies s
  | .chainSelUpdate v => Sys2Proof.Machine.execChainSelUpdate v s
  | .dieBistStart d start => Sys2Proof.Machine.execDieBistStart d start s
  | .dieBistEnd d fails => Sys2Proof.Machine.execDieBistEnd d fails s
  | .d2dTestUpdate v => Sys2Proof.Machine.execD2dTestUpdate v s
  | .d2dStep wrong => Sys2Proof.Machine.execD2dStep wrong s
  | .d2dRunEnd => Sys2Proof.Machine.execD2dRunEnd s
  | .dbgHalt m mask => Sys2Proof.Machine.execDbgHalt m mask s
  | .dbgResume m mask => Sys2Proof.Machine.execDbgResume m mask s
  | .dbgStep m mask => Sys2Proof.Machine.execDbgStep m mask s
  | .haltTaken c => Sys2Proof.Machine.execHaltTaken c s
  | .haltDeferExpiry c => Sys2Proof.Machine.execHaltDeferExpiry c s
  | .breakpointMatch c => Sys2Proof.Machine.execBreakpointMatch c s
  | .dataWatchMatch c => Sys2Proof.Machine.execDataWatchMatch c s
  | .dbgRegAccess m c v => Sys2Proof.Machine.execDbgRegAccess m c v s
  | .terminalTxWrite m v => Sys2Proof.Machine.execTerminalTxWrite m v s
  | .terminalTxConsume m => Sys2Proof.Machine.execTerminalTxConsume m s
  | .terminalRxWrite m v => Sys2Proof.Machine.execTerminalRxWrite m v s
  | .terminalRxConsume m => Sys2Proof.Machine.execTerminalRxConsume m s
  | .tpLbWrite m p ret v => Sys2Proof.Machine.execTpLbWrite m p ret v s
  | .glLbWrite m d q v => Sys2Proof.Machine.execGlLbWrite m d q v s
  | .refLoopWrite m v => Sys2Proof.Machine.execRefLoopWrite m v s
  | .forwardedClockLoss l => Sys2Proof.Machine.execForwardedClockLoss l s
  | .quadPllLockLoss p q => Sys2Proof.Machine.execQuadPllLockLoss p q s
  | .rtcEdgesReturn => Sys2Proof.Machine.execRtcEdgesReturn s
  | .refclkInterruption => Sys2Proof.Machine.execRefclkInterruption s
  | .progNRelease => Sys2Proof.Machine.execProgNRelease s
  | .frameEngineWriteDone d => Sys2Proof.Machine.execFrameEngineWriteDone d s
  | .ringCaptureDr => Sys2Proof.Machine.execRingCaptureDr s
  | .boundaryScanUpdate d v => Sys2Proof.Machine.execBoundaryScanUpdate d v s

end Sys2Proof.Machine
end

