-- ==== Sys2Proof/WellFormed.lean ====
section
/-! DEFINITION. Which commands are well formed: their operands name things the device has, in the shapes the spec gives them. A
command that is not well formed has no occurrence (log entry 1). -/

namespace Sys2Proof

open Sys2Proof.Machine in
/-- The command's operands name things that exist. -/
def Instr.wf (c : Instr) : Bool :=
  match c with
  | .powerOnReset _ => true
  | .supplyDrop => true
  | .pinReset _ _ => true
  | .oscDlyExpiry => true
  | .rootPllLock _ => true
  | .revisionReadTimeout _ => true
  | .ringAccess _ r => decide (r.die < 8 ∧ r.block < 65536 ∧ r.off < 65536) && r.off % 4 == 0
  | .ringAccessComplete _ => true
  | .ringAccessTimeout _ => true
  | .registerWrite _ _ _ off _ => off.toNat % 4 == 0
  | .deviceIdWrite _ _ => true
  | .dieResetLogic _ _ => true
  | .dieResetAnalog _ => true
  | .dieResetEnd d => d.val != 6
  | .refQualified _ => true
  | .refCtrlWrite _ _ => true
  | .slewEnd => true
  | .recoveredRefLoss => true
  | .localOscLoss => true
  | .freqMonAverage _ _ => true
  | .clockLossNoFallback _ => true
  | .rimSrcValid => true
  | .rimClkAck => true
  | .resumeHubClocks => true
  | .resumeDieClocks => true
  | .resumeUserOutputs => true
  | .sscCtrlWrite _ _ => true
  | .sscChange => true
  | .fclkCfgWrite _ _ _ => true
  | .fclkChange _ => true
  | .tickSnap _ _ => true
  | .timeMarkerSend => true
  | .timeMarkerCompare _ _ _ => true
  | .markerMissing => true
  | .tickLoadArm _ _ => true
  | .tickLoad _ => true
  | .tickCtrlMasterWrite _ _ => true
  | .slotInject i => niExists i.die i.ni
  | .routerForwardScheduled => true
  | .egressCheck i => niExists i.die i.ni
  | .sfPop _ _ => true
  | .patternStart _ => true
  | .patternSwap _ => true
  | .patternStop _ => true
  | .patternCancel _ => true
  | .patternActionTick => true
  | .tailEnd => true
  | .patternTableWrite _ i _ => niExists i.die i.ni
  | .psDataRead _ i _ => niExists i.die i.ni
  | .commitStart _ _ _ => true
  | .commitEnd _ => true
  | .beRequestIssue i => niExists i.die i.ni
  | .beHop i _ _ => niExists i.die i.ni
  | .creditReturn i => niExists i.die i.ni
  | .headerAged i _ => niExists i.die i.ni
  | .stallDetect i => niExists i.die i.ni
  | .bePacketArrive i => niExists i.die i.ni
  | .beResponseArrive i => niExists i.die i.ni
  | .beTimeout i _ => niExists i.die i.ni
  | .flitStageWrite i flits => niExists i.die i.ni && decide (flits.length ≤ 2)
  | .egressPresent i => niExists i.die i.ni
  | .fifoWrite i _ _ _ => niExists i.die i.ni
  | .fifoRead i _ => niExists i.die i.ni
  | .fifoFlush _ i _ => niExists i.die i.ni
  | .flushBoundary i _ => niExists i.die i.ni
  | .niDisable _ i => niExists i.die i.ni
  | .niForcedDisable _ i => niExists i.die i.ni
  | .niDrainComplete i => niExists i.die i.ni
  | .niDisableBoundary i => niExists i.die i.ni
  | .niDisableCancel _ i => niExists i.die i.ni
  | .niEnable _ i => niExists i.die i.ni
  | .niLoop _ i _ => niExists i.die i.ni
  | .spillEnable _ i _ => niExists i.die i.ni
  | .spillStart i => niExists i.die i.ni
  | .spillRecordWrite i => niExists i.die i.ni
  | .spillWriteResponse i => niExists i.die i.ni
  | .spillReplay i => niExists i.die i.ni
  | .replayReadResponse i => niExists i.die i.ni
  | .linkFrameReceive l _ => linkExists l
  | .trainingWordReceive l _ => linkExists l
  | .linkClockDetect l _ _ => linkExists l
  | .linkDeskewDone l => linkExists l
  | .linkVerifyDone l _ => linkExists l
  | .linkMaskAgreed l => linkExists l
  | .linkFrameLock l => linkExists l
  | .linkStageTimeout l => linkExists l
  | .linkFence _ l => linkExists l
  | .linkUnfence _ l => linkExists l
  | .linkRetrain _ l => linkExists l
  | .linkClrCnt _ l => linkExists l
  | .linkLoop _ l _ _ => linkExists l
  | .creditResyncReturn l => linkExists l
  | .ringShareMove l => linkExists l
  | .laneTrainingSetReceive _ _ _ => true
  | .laneEqDone _ => true
  | .lnAlignSlip _ l => laneExists l
  | .lnAlignDone _ l => laneExists l
  | .laneAlignTimeout _ _ => true
  | .alignmentMarkerReceive _ arrive => arrive.length == 16
  | .portStageTimeout _ => true
  | .portTrainRestart _ => true
  | .exchangePositionReceive _ _ _ => true
  | .exchangeComplete _ => true
  | .portAccept _ _ => true
  | .controlPositionReceive _ _ _ => true
  | .leaveSched _ => true
  | .portPositionReceive _ _ => true
  | .portAdmitScheduled _ => true
  | .laneFault l => laneExists l.id && decide (l.errs ≤ 1024)
  | .halfWidthSwitch _ => true
  | .portQuiet _ _ => true
  | .portRest _ _ => true
  | .portActive _ _ => true
  | .quietEnter _ => true
  | .portRetrain _ _ => true
  | .portDisable _ _ _ => true
  | .portEnable _ _ => true
  | .gatewayRead _ => true
  | .gatewayWrite _ => true
  | .remotePacketReceive _ => true
  | .gatewayTimeout _ => true
  | .streamSendGo _ _ => true
  | .streamSendAbort _ _ => true
  | .streamSendEnd _ => true
  | .glSlip l => laneExists l && l.die != 6
  | .userEvent _ _ => true
  | .regionHold _ _ _ => true
  | .regionHoldComplete _ _ => true
  | .regionRelease _ _ _ => true
  | .regionGateRelease _ _ => true
  | .regionReleaseComplete _ _ => true
  | .brRgnWrite _ _ _ _ => true
  | .prbSelWrite _ _ _ _ => true
  | .clearComplete => true
  | .initNHigh => true
  | .progNAssert => true
  | .cfgSdataWrite _ _ => true
  | .syncWord _ => true
  | .streamNop _ words => !words.isEmpty
  | .streamCrc _ words => !words.isEmpty
  | .streamDeviceCode _ words => !words.isEmpty
  | .streamFeature _ words => !words.isEmpty
  | .streamFrameAddr _ words => !words.isEmpty
  | .streamFdata _ words => !words.isEmpty
  | .streamOptions _ words => !words.isEmpty
  | .streamRegion _ words => !words.isEmpty
  | .streamEbmAddr _ words => !words.isEmpty
  | .streamEbmData _ words => !words.isEmpty
  | .cmdNull _ words => !words.isEmpty
  | .cmdStart _ words => !words.isEmpty
  | .cmdHold _ words => !words.isEmpty
  | .cmdRelease _ words => !words.isEmpty
  | .cmdDesync _ words => !words.isEmpty
  | .streamTimeout => true
  | .startupBegin => true
  | .startupStage => true
  | .startupRunning => true
  | .scanFrame d flips => flips.all (fun k => decide (k < 4110)) && d.val != 6
  | .feLogPop _ d _ => d.val != 6
  | .feLogStatWrite _ d _ => d.val != 6
  | .feRbDataRead _ d => d.val != 6
  | .feRbCapture _ d => d.val != 6
  | .illegalOperation _ => true
  | .nop _ _ _ => true
  | .addOp _ _ _ => true
  | .subOp _ _ _ => true
  | .andOp _ _ _ => true
  | .orOp _ _ _ => true
  | .xorOp _ _ _ => true
  | .shl _ _ _ => true
  | .shr _ _ _ => true
  | .sra _ _ _ => true
  | .minOp _ _ _ => true
  | .maxOp _ _ _ => true
  | .addi _ _ _ => true
  | .shli _ _ _ => true
  | .shri _ _ _ => true
  | .srai _ _ _ => true
  | .movi _ _ _ => true
  | .movhi _ _ _ => true
  | .cmp _ _ _ => true
  | .cmpi _ _ _ => true
  | .sel _ _ _ => true
  | .ldw _ _ _ => true
  | .ldh _ _ _ => true
  | .ldhu _ _ _ => true
  | .ldb _ _ _ => true
  | .stw _ _ _ => true
  | .sth _ _ _ => true
  | .stb _ _ _ => true
  | .ldr _ _ _ => true
  | .ldwp _ _ _ => true
  | .stwp _ _ _ => true
  | .stc _ _ _ => true
  | .mac4 _ _ _ => true
  | .mul4 _ _ _ => true
  | .mac2 _ _ _ => true
  | .mul2 _ _ _ => true
  | .accrd _ _ _ => true
  | .accwr _ _ _ => true
  | .accclr _ _ _ => true
  | .muls _ _ _ => true
  | .brOp _ _ _ => true
  | .bri _ _ _ => true
  | .callOp _ _ _ => true
  | .repOp _ _ _ => true
  | .rotOp _ _ _ => true
  | .reti _ _ _ => true
  | .mts _ _ _ => true
  | .mfs _ _ _ => true
  | .sendAt _ _ _ => true
  | .sendAtInject _ => true
  | .xrd _ _ _ => true
  | .xwr _ _ _ => true
  | .xferComplete _ _ => true
  | .waitOp _ _ _ => true
  | .waitConditionMet _ => true
  | .sev _ _ _ => true
  | .bkpt _ _ _ => true
  | .interruptTake _ => true
  | .rxRingWrite _ => true
  | .watchdogExpiry _ => true
  | .coreReset _ _ => true
  | .coreRunWrite _ _ _ => true
  | .imDataWrite _ _ _ => true
  | .dmDataAccess _ _ _ => true
  | .bootGo => true
  | .bankRequest _ _ _ => true
  | .bankOwnerWrite _ _ _ => true
  | .ccSelWrite _ _ _ => true
  | .bankWakeComplete _ => true
  | .bistGo _ _ => true
  | .bistAbort _ => true
  | .bistPause => true
  | .bistResume => true
  | .bistEnd _ => true
  | .dmaGo _ _ => true
  | .descriptorComplete _ => true
  | .dmaDisable _ _ _ => true
  | .dmaEnable _ _ => true
  | .qdrRetrain _ _ => true
  | .qdrTrainEnd _ _ => true
  | .qdrServiceTick _ _ => true
  | .qdrBeRequest _ _ => true
  | .qsDataWrite _ _ _ => true
  | .qdrSlotDisable _ _ => true
  | .qdrDisable _ _ _ => true
  | .qdrEnable _ _ => true
  | .qdrLbGo _ _ => true
  | .qdrLbDone _ _ => true
  | .qdrLbDepthWrite _ _ _ => true
  | .dramInit _ _ => true
  | .dramInitComplete _ => true
  | .modeRegisterAccess _ _ _ => true
  | .trainingRun _ _ _ _ => true
  | .trainingRunDone _ fails => decide (fails.length ≤ 10)
  | .dramEnable _ _ => true
  | .dramDisable _ _ _ => true
  | .dramRequest _ _ _ => true
  | .throttleEnd _ _ => true
  | .perBankRefresh _ => true
  | .rowIdlePrecharge _ _ => true
  | .refreshRatePoll _ rates => decide (rates.length ≤ 10)
  | .drLbWrite _ _ _ => true
  | .drEccCtrlWrite _ _ _ => true
  | .keyedMixEnable _ _ => true
  | .kmFillStart => true
  | .kmFillComplete => true
  | .kmFlush _ => true
  | .kmFlushComplete => true
  | .kmRetire _ _ => true
  | .kmRetireComplete => true
  | .kmSlotWrite _ _ _ => true
  | .kmKeyWrite _ _ _ _ => true
  | .metadataRead _ _ => true
  | .metadataWrite _ _ _ => true
  | .swapArm _ _ _ => true
  | .swapCancel _ => true
  | .acSwapEdge => true
  | .swapTake => true
  | .abRun _ _ _ => true
  | .abStop _ _ => true
  | .abCal _ _ => true
  | .abTriggerEdge _ _ => true
  | .abSample _ _ => true
  | .abResultEnter _ => true
  | .abCalEnd _ _ _ => true
  | .abResultRead _ _ => true
  | .abCalWrite _ _ _ _ => true
  | .asDataWrite _ _ => true
  | .afClkWrite _ _ _ => true
  | .icRun _ _ _ => true
  | .icStop _ _ => true
  | .icCal _ _ => true
  | .conversionStart _ => true
  | .inputIntegrationEnd _ => true
  | .residueStart _ => true
  | .conversionEnd _ _ => true
  | .icCalEnd _ _ _ => true
  | .icResultRead _ _ => true
  | .mainsCrossing => true
  | .mainsUnlockTimeout => true
  | .pwrReq _ _ _ => true
  | .powerHandshakeAsk => true
  | .powerDelayExpiry => true
  | .powerLimitExpiry => true
  | .domainStateChange => true
  | .domainReady _ => true
  | .rtcLoad _ => true
  | .rtcSnap _ => true
  | .rtcAlarm => true
  | .rtcFail => true
  | .vbatSwitchover => true
  | .eventOccurrence _ => true
  | .collectorMessageSend _ => true
  | .bridgeMessageSend => true
  | .eventMessageReceive => true
  | .evtOutPulseEnd _ => true
  | .evOutClr _ _ => true
  | .evOutCfgWrite _ _ _ => true
  | .jtagRingUpdate _ => true
  | .jtagRimUpdate _ => true
  | .tapReset _ => true
  | .tapInstructionLoad _ _ => true
  | .chainSelUpdate _ => true
  | .dieBistStart d _ => d.val != 6
  | .dieBistEnd d _ => d.val != 6
  | .d2dTestUpdate _ => true
  | .d2dStep _ => true
  | .d2dRunEnd => true
  | .dbgHalt _ _ => true
  | .dbgResume _ _ => true
  | .dbgStep _ _ => true
  | .haltTaken _ => true
  | .haltDeferExpiry _ => true
  | .breakpointMatch _ => true
  | .dataWatchMatch _ => true
  | .dbgRegAccess _ _ _ => true
  | .terminalTxWrite _ _ => true
  | .terminalTxConsume _ => true
  | .terminalRxWrite _ _ => true
  | .terminalRxConsume _ => true
  | .tpLbWrite _ _ _ _ => true
  | .glLbWrite _ _ _ _ => true
  | .refLoopWrite _ _ => true
  | .forwardedClockLoss l => linkExists l
  | .quadPllLockLoss _ _ => true
  | .rtcEdgesReturn => true
  | .refclkInterruption => true
  | .progNRelease => true
  | .frameEngineWriteDone d => d.val != 6
  | .ringCaptureDr => true
  | .boundaryScanUpdate d v => d.val != 7 && decide (v < 2 ^ if d.val = 6 then 6023 else 640)

end Sys2Proof
end

