-- ==== Sys2Proof/Safety.lean ====
section
/-! DEFINITION. What the claims speak of: a command's next state, what it leaves alone, a ring write performed at its target, and the
invariant of the state. -/

namespace Sys2Proof.Machine

/-- Command `c` has a next state from `s`, and `P` holds of it. -/
def Leads (c : Instr) (s : State) (P : State → Prop) : Prop := ∃ t, exec c s = .next t ∧ P t

/-- The parts of the state beside the control registers. -/
inductive Part where
  | clk | ringCore | ringDebug | ringConfig | hw | dieReset | share1 | fuse | pins | pwr | ev | pat | be | nis | lms | mq | rsps
  | ports | lanes | gws | remoteIn | cfg | cores | banks | qdrs | qdrSvc | dsets | km | ana | tap | mem | free | pending
  deriving DecidableEq, Repr

/-- The part is the same in two states; of memory, every byte reads the same. -/
def Part.same (s t : State) : Part → Prop
  | .clk => t.clk = s.clk
  | .ringCore => t.ringCore = s.ringCore
  | .ringDebug => t.ringDebug = s.ringDebug
  | .ringConfig => t.ringConfig = s.ringConfig
  | .hw => t.hw = s.hw
  | .dieReset => t.dieReset = s.dieReset
  | .share1 => t.share1 = s.share1
  | .fuse => t.fuse = s.fuse
  | .pins => t.pins = s.pins
  | .pwr => t.pwr = s.pwr
  | .ev => t.ev = s.ev
  | .pat => t.pat = s.pat
  | .be => t.be = s.be
  | .nis => t.nis = s.nis
  | .lms => t.lms = s.lms
  | .mq => t.mq = s.mq
  | .rsps => t.rsps = s.rsps
  | .ports => t.ports = s.ports
  | .lanes => t.lanes = s.lanes
  | .gws => t.gws = s.gws
  | .remoteIn => t.remoteIn = s.remoteIn
  | .cfg => t.cfg = s.cfg
  | .cores => t.cores = s.cores
  | .banks => t.banks = s.banks
  | .qdrs => t.qdrs = s.qdrs
  | .qdrSvc => t.qdrSvc = s.qdrSvc
  | .dsets => t.dsets = s.dsets
  | .km => t.km = s.km
  | .ana => t.ana = s.ana
  | .tap => t.tap = s.tap
  | .mem => ∀ a, t.byte a = s.byte a
  | .free => t.free = s.free
  | .pending => t.pending = s.pending

/-- The registers in which every block's events and breaches show: `EV_RAW_k`, `EV_STAT` and `BREACH_SUM` (R65, R381). -/
def notice (a : Nat) : Bool := (decide (aEV_RAW 0 ≤ a) && decide (a ≤ aEV_RAW 63)) || a == aEV_STAT || a == aBREACH_SUM

/-- The frame: outside `parts`, and outside the registers that `ok` admits and those that record events, nothing has changed. -/
def State.keepsElse (s t : State) (parts : List Part) (ok : Nat → Bool) : Prop :=
  (∀ p : Part, p ∉ parts → p.same s t) ∧ ∀ a, ok a = false → notice a = false → t.reg a = s.reg a

/-- The registers in a list. -/
def among (l : List Nat) (a : Nat) : Bool := l.contains a
/-- The registers of control block `b` of die `d`. -/
def inBlock (d b a : Nat) : Bool := a / 65536 == d * 65536 + b

/-- An access of master m to the register at `a` is performed at once: the master has none outstanding, the root has granted no other in
this ring cycle, the ring runs, the die is not in reset, every share of its loop is carried, a register is there, and its domain is on
(R10, R21, R22, R27, R370). -/
def State.ringReady (s : State) (m : Rm) (a : Nat) : Bool :=
  let d := a / 4294967296
  !(s.master m).busy && !s.ringGranted && !s.ringClosed d && s.reach d && (regRow a).isSome &&
    (blockDom d (a / 65536 % 65536) (a % 65536)).all s.domOn

/-- What master m holds once its write of `v` at `a` has been answered with a status (R21). -/
def State.answered (s : State) (m : Rm) (a : Nat) (v : W32) (st : RStat) : RingMaster :=
  { s.master m with
    busy := true
    req := { die := a / 4294967296, block := a / 65536 % 65536, off := a % 65536, write := true, data := v }
    grantAt := s.now, waiting := false, granted := true, answered := true, ansStatus := st, ansData := 0#32 }

/-- Command `c` is performed as master m's write of `v` at `a`: `P` holds of the state its target leaves, and the answer is on
its way with the status. -/
def Writes (c : Instr) (m : Rm) (a : Nat) (v : W32) (st : RStat) (s : State) (P : State → Prop) : Prop :=
  ∃ u, exec c s = .next (u.setMaster m (s.answered m a v st)) ∧ P u

/-- Every sparse table of the state is in canonical form: keys strictly rising, no entry equal to what an unlisted key reads as. -/
def State.tablesWf (s : State) : Bool :=
  Memory.wf s.mem && Tab.wf regReset s.regs && Tab.wf (fun _ => none) s.dieReset && Tab.wf (fun _ => false) s.share1 &&
  Tab.wf (fun _ => Ni.empty) s.nis && Tab.wf (fun _ => Lm.empty) s.lms && Tab.wf (fun _ => Port.empty) s.ports &&
  Tab.wf (fun _ => Lane.empty) s.lanes && Tab.wf (fun _ => Gw.empty) s.gws && Tab.wf (fun _ => Thrumas.empty) s.cores &&
  Tab.wf (fun _ => Qdr.empty) s.qdrs && Tab.wf (fun _ => 0#64) s.qdrSvc && Tab.wf (fun _ => Ds.empty) s.dsets &&
  Tab.wf psDefault s.pat.store && Tab.wf (fun _ => false) s.ev.pend && Tab.wf (fun _ => false) s.ev.coll &&
  Tab.wf (fun _ => OutPin.idle) s.ev.outs && Tab.wf (fun _ => 2 ^ 64) s.pat.fromTick && Tab.wf (fun _ => 2 ^ 64) s.pat.untilTick &&
  Tab.wf (fun _ => 0) s.be.usedOrd && Tab.wf (fun _ => 0) s.be.usedRsv && Tab.wf (fun _ => []) s.be.charges &&
  Tab.wf (fun _ => 0) s.be.lastOut && Tab.wf (fun _ => 5) s.be.lastIn &&
  Tab.wf (fun _ => 0#32) s.clk.fclkAct && Tab.wf (fun _ => 0) s.clk.fclkStart && Tab.wf (fun _ => 0) s.clk.fclkSet &&
  Tab.wf (fun _ => 0#4096) s.cfg.frames && Tab.wf (fun _ => 0#14) s.cfg.checks &&
  Tab.wf (fun _ => BitVec.allOnes 128) s.cfg.map && Tab.wf (fun _ => (⟨0, false, none, false⟩ : RegionHold)) s.cfg.holds &&
  Tab.wf (fun _ => 0) s.cfg.startAt && Tab.wf (fun _ => 0) s.cfg.stage && Tab.wf (fun _ => []) s.cfg.upsets &&
  Tab.wf (fun _ => Capture.none) s.cfg.capture && Tab.wf (fun _ => Dma.empty) s.banks.dma &&
  Tab.wf (fun _ => 0) s.banks.last && Tab.wf (fun _ => 0) s.banks.held && Tab.wf (fun _ => (0, false)) s.banks.wake &&
  Tab.wf (fun _ => Ab.empty) s.ana.blocks && Tab.wf (fun _ => Ic.empty) s.ana.ics && Tab.wf (fun _ => 0#32) s.ana.afOld &&
  Tab.wf (fun _ => 0) s.ana.afSwitch && Tab.wf (fun _ => 1#8) s.tap.dieIr && Tab.wf (fun _ => 0) s.tap.boundary &&
  Tab.wf (fun _ => DieBist.empty) s.tap.bists

/-- The invariant of the state: every table in canonical form, at most 16 records in the schedule-fault log (R64), at most 32 messages
in the bridge's queue (R381). -/
abbrev State.Inv (s : State) : Prop := s.tablesWf = true ∧ s.pat.log.length ≤ 16 ∧ s.ev.bridgeQ.length ≤ 32

/-- Event `e` shows in the state: its raw bit on H, its pending bit in another die's collector (R379, R381). -/
def State.showsEvent (s : State) (e : Nat) : Prop :=
  (if isCollected e then tget (fun _ => false) s.ev.coll e else s.bit (aEV_RAW (e / 32)) ⟨e % 32, 1⟩) = true

/-- The code with which an action (1 start, 2 swap, 3 stop) is refused applies (R67). A swap or stop while the active period is 0 is no
multiple of it and is not refused for that (the model's choice, log entry 128). -/
def State.actionFault (s : State) (act code : Nat) : Bool :=
  let at' := s.reg64 aPAT_AT_LO aPAT_AT_HI
  let p16 := s.fld aSH_PERIOD fSH_PERIOD_P16
  match code with
  | 1 => act != 3 && (decide (p16 < 16) || decide (4096 < p16))
  | 2 => (act != 1 && s.period != 0 && at' % s.period != 0) || (act != 3 && at' % (16 * p16) != 0)
  | 3 => decide (at' < s.tickN + 4096)
  | 4 => (act == 1) == s.bit aPAT_STATUS fPAT_STATUS_RUN
  | 5 => act != 3 && (List.range 6).any (fun p => s.fld (aSH_BUDGET p) fSH_BUDGET_B != 0) && !s.aligned
  | 6 => act == 2 && (List.range 6).any (fun p => s.portSched p && s.fld (aSH_BUDGET p) fSH_BUDGET_B != s.budget p)
  | 7 => act != 3 && (List.range 8).any (fun d => (s.fld aDIE_PRESENT fDIE_PRESENT_PRESENT).testBit d && !s.shadowOk.testBit d)
  | 8 => s.fld aPAT_STATUS fPAT_STATUS_ARMED != 0 || (act == 1 && s.bit aPAT_STATUS fPAT_STATUS_TAIL)
  | 9 => act == 1 && s.clk.loadArmed
  | _ => false
/-- Code `c` is the lowest that refuses the action; 0 where none does (R67). -/
def State.actionCode (s : State) (act c : Nat) : Bool :=
  (List.range 10).all (fun k => k == 0 || (if k < c ∨ c = 0 then !s.actionFault act k else true)) && (c == 0 || s.actionFault act c)

/-- What a scheduled flit or marker at a router or wrap stage goes on as: its domain is on, its die is not in reset, its sideband parity
holds, and its flow has a route there (R62, R74). -/
def State.goesOn (s : State) (x : Item) : Option Item :=
  if !s.domOn (weaveDom (locDie x.loc)) || s.inReset (locDie x.loc) then none
  else
    let o := match x.loc with
      | .router d n _ _ => if x.flit.parityOk then s.flowOut d n x.flit else 7
      | _ => 8
    if o = 7 then none else (nextLoc x o).map (fun l => { x with loc := l.1, due := x.due + l.2 })
/-- Two flits want one output of one router on one tick (R62). -/
def State.sameWay (s : State) (x y : Item) : Bool :=
  match x.loc, y.loc with
  | .router d n _ _, .router d' n' _ _ => d == d' && n == n' && x.due == y.due && s.flowOut d n x.flit == s.flowOut d n y.flit
  | _, _ => false
/-- The flit came to its place over no die edge and no torus port: no crossing table judges it there. -/
def cameWithin (x : Item) : Bool := match x.loc with
  | .router _ _ _ none => true
  | _ => false

/-- The registers of die `d`. -/
def dieReg (d a : Nat) : Bool := a / 4294967296 == d
/-- The registers of control blocks `b0` to `b1` of die `d`. -/
def blockFrom (d b0 b1 a : Nat) : Bool := decide (d * 65536 + b0 ≤ a / 65536) && decide (a / 65536 ≤ d * 65536 + b1)
/-- The registers of the die-link modules (chapter 06). -/
def linkReg (a : Nat) : Bool :=
  let d := a / 4294967296
  let b := a / 65536 % 65536
  (decide (d < 6) && decide (0x500 ≤ b) && decide (b ≤ 0x513)) || (d == 7 && b == 0 && decide (0x100 ≤ a % 65536))
/-- The registers of the network interfaces of any die. -/
def niReg (a : Nat) : Bool :=
  let b := a / 65536 % 65536
  decide (0x100 ≤ b) && decide (b ≤ 0x12F) || (a / 4294967296 == 7 && b == 0xA00 && decide (0x1000 ≤ a % 65536))
/-- The registers of NI `n` of die `d`. -/
def niBlock (d n a : Nat) : Bool := if d = 7 then niReg a && dieReg 7 a else inBlock d (0x100 + n) a
/-- The registers of a torus port and of its lanes. -/
def portReg (a : Nat) : Bool := blockFrom 6 0x200 0x217 a
/-- The registers of the lane quads of any die. -/
def laneReg (a : Nat) : Bool :=
  let b := a / 65536 % 65536
  decide (a / 4294967296 < 7) && decide (0x200 ≤ b) && decide (b ≤ 0x217)
/-- The registers of the frame engine of die `d`. -/
def feReg (d a : Nat) : Bool := if d = 7 then inBlock 7 0xA00 a else inBlock d 4 a

/-- The controller takes stream words from source `c`. -/
def State.takesFrom (s : State) (c : CfgSrc) : Bool := s.runs && s.cfgState == 3 && !s.streamStalled && s.owns c
/-- The controller takes stream words from source `c` and stands at a header (R215, R217). -/
def State.atHeader (s : State) (c : CfgSrc) : Bool := s.takesFrom c && s.cfg.fdataLeft == 0 && s.cfg.ebmLeft == 0
/-- Source `c` has these words at the front of what it delivers, none of them poisoned (R183). -/
def State.sound (s : State) (c : CfgSrc) (ws : List W32) : Bool := (s.takeWords c ws).any (fun x => !x.2)
/-- The command of a row of the stream's table. -/
def OpKind.instr (k : OpKind) (c : CfgSrc) (ws : List W32) : Instr :=
  match k with
  | .nop => .streamNop c ws
  | .crc => .streamCrc c ws
  | .deviceCode => .streamDeviceCode c ws
  | .feature => .streamFeature c ws
  | .frameAddr => .streamFrameAddr c ws
  | .fdata => .streamFdata c ws
  | .options => .streamOptions c ws
  | .region => .streamRegion c ws
  | .ebmAddr => .streamEbmAddr c ws
  | .ebmData => .streamEbmData c ws
  | .null => .cmdNull c ws
  | .start => .cmdStart c ws
  | .hold => .cmdHold c ws
  | .release => .cmdRelease c ws
  | .desync => .cmdDesync c ws
/-- `DEVICE_CODE` and `FEATURE` have been accepted in this stream (R217). -/
def State.identified (s : State) : Bool := s.cfg.devOk && s.cfg.featOk

/-! ### Operations of a core (R234 to R250) -/

/-- An operation of core n in a slot has issued: `x` is the core's record with the operation's effects at issue, and `new` are its
results with their latencies. While slots of the bundle remain, the results are in flight and nothing else has changed. The last slot
ends the cycle: a result due by its end is in its register, unless another result for that register lands too; those not yet due stay
in flight. Only a store in flight changes memory, and no other core changes (R236). -/
def State.pipes (s t : State) (n slot : Nat) (x : Thrumas) (new : List (Nat × Landing)) : Prop :=
  let y := t.thr n
  let all := x.flight ++ new.map (fun e => { land := x.cycle + e.1, issue := x.cycle, slot := slot, what := e.2 })
  let issued := x.issued ||| BitVec.ofNat 4 (2 ^ slot)
  (issued ≠ 0xF#4 → y = { x with flight := all, issued := issued } ∧ s.keepsElse t [.cores] (fun _ => false)) ∧
  (issued = 0xF#4 →
    y.issued = 0#4 ∧
    (∀ p v e, e ∈ all → e.what = .reg p v → e.land ≤ x.cycle + 1 →
      (∀ g ∈ all, ∀ u, g.what = .reg p u → g = e ∨ (x.cycle + 1 < g.land ∧ x.stopAsked = false)) →
      y.phys p = if p = 0 then 0#32 else v) ∧
    (x.stopAsked = false →
      y.cycle = x.cycle + 1 ∧ y.flight = all.filter (fun e => decide (x.cycle + 1 < e.land))) ∧
    s.keepsElse t [.cores, .ringCore, .mem] (among [aCORE_STATUS n, aCORE_FLAG n, aWD_CNT n])) ∧
  (∀ a, (∀ e ∈ all, ∀ b bs, e.what = .store b bs → a < dmBase n + b ∨ dmBase n + b + bs.length ≤ a) → t.byte a = s.byte a) ∧
  ∀ k, k ≠ n → t.thr k = s.thr k

/-- The results of an operation, where its guard holds. -/
def guarded (x : Thrumas) (w : W32) (l : List (Nat × Landing)) : List (Nat × Landing) := if guardOn x w then l else []
/-- The result for the register that field d names. -/
def toD (x : Thrumas) (w : W32) (k : Nat) (v : W32) : List (Nat × Landing) := guarded x w [(k, .reg (physOf x (oD w)) v)]
/-- The exact sum of one accumulator of `MAC4`, `MUL4` (`k` = 16) or `MAC2`, `MUL2` (`k` = 32), element i (R240). -/
def macSum (x : Thrumas) (w : W32) (acc : Bool) (k i a : Nat) : Int :=
  let r := bitsOf w.toNat 18 13
  let e := extOf (w.getLsbD 3) k (((x.get r).toNat + 4294967296 * (x.get (r + 1)).toNat) / 2 ^ (k * i))
  let b := x.get (bitsOf w.toNat 12 7)
  let m := extOf (w.getLsbD 2) 16 (if w.getLsbD 6 then b.toNat / 65536 else b.toNat)
  (if acc then (x.accOf a).toInt else 0) + (if w.getLsbD 5 then -(e * m) else e * m)
/-- The value of a sum in 48 bits, clamped where `SAT` is 1. -/
def macWord (w : W32) (t : Int) : BitVec 48 :=
  BitVec.ofInt 48 (if w.getLsbD 4 then clampInt (-(2 ^ 47 : Int)) (2 ^ 47 - 1) t else t)
/-- The sum leaves the signed 48-bit range. -/
def macOut (t : Int) : Bool := decide (t < -(2 ^ 47 : Int)) || decide ((2 ^ 47 : Int) ≤ t)
/-- The `OV` bits of accumulators from `a` on whose sums leave the range. -/
def ovBits (a : Nat) (l : List Int) : BitVec 9 :=
  (l.zipIdx).foldl (fun v e => if macOut e.1 then v ||| BitVec.ofNat 9 (2 ^ (a + e.2)) else v) 0#9

/-- The request is one that the bank's owner rule lets through: of an unchecked master, while a test borrows the bank one that the test
pauses for, else of the owner, of anyone while there is none, or a read that is shared; reads of the handover word never fault (R260 to
R262, R267). -/
def State.bankAllows (s : State) (bank : Nat) (r : MemReq) : Bool :=
  let owner := s.fld (aBANK_OWNER bank) fBANK_OWNER_OWNER
  uncheckedMaster r.master || (!r.write && s.handover bank r && decide (0x3FFE0 ≤ r.addr % 0x40000)) ||
    (if (s.bistOn bank).isSome then s.pausesBist r && !(s.handover bank r && r.write)
     else owner == 0 || r.master == owner || (!r.write && s.bit (aBANK_OWNER bank) fBANK_OWNER_RD_SHARE))

/-- The set answers the request at once with bus error: it is not ready, the request came after its `DIS`, the keyed mix has not filled
its metadata yet, or the address lies beyond the memory fitted (R287, R290, R300, R307). -/
def State.dramTurnsAway (s : State) (d : Nat) (r : MemReq) : Bool :=
  forSet d r && (s.dramState d != 3 || (s.ds d).disAt.any (fun t => decide (t ≤ r.arrivedAt)) ||
    (s.bit aKM_CTRL fKM_CTRL_EN && !s.bit aKM_STATUS fKM_STATUS_READY) || !s.dramFitted r.addr)
/-- The set performs this request next, from the pool or not: it turns none away, and no forced disable answers for it (R288, R300). -/
def State.dramServes (s : State) (d : Nat) (r : MemReq) (pool : Bool) : Bool :=
  s.hubRuns && !s.mq.any (s.dramTurnsAway d) && !(s.bit (aDR_CTRL d) fDR_CTRL_DIS && s.bit (aDR_CTRL d) fDR_CTRL_FORCE) &&
    s.dramNext d == some (r, pool)
/-- Byte address of a request's line within the DRAM range. -/
def lineOf (r : MemReq) : Nat := r.addr % 2 ^ 36 / 256 * 256
/-- Number of the metadata line of a request's line (R311). -/
def State.metaOf (s : State) (r : MemReq) : Nat := s.metaFirst + dramLine (lineOf r) / 20

/-- A result of block n has been taken: by the fabric, where the place is free, or by the FIFO, with the level event; else it is lost and
`OVF` says so (R335, R350). -/
def State.abTakes (s t : State) (n dest : Nat) (w : W32) : Prop :=
  let x := s.ab n
  let y := t.ab n
  if dest = 2 then
    y.fifo = x.fifo ∧ (x.resWait = none → y.resWait = some w) ∧
      (x.resWait ≠ none → y.resWait = x.resWait ∧ t.bit (aAB_FLAG n) fAB_FLAG_OVF = true)
  else
    y.resWait = x.resWait ∧ (64 ≤ x.fifo.length → y.fifo = x.fifo ∧ t.bit (aAB_FLAG n) fAB_FLAG_OVF = true) ∧
      (x.fifo.length < 64 → y.fifo = x.fifo ++ [w] ∧
        (s.bit (aAB_FIFO_CFG n) fAB_FIFO_CFG_LVL_EN = true → x.fifo.length = s.fld (aAB_FIFO_CFG n) fAB_FIFO_CFG_LEVEL →
          t.showsEvent (1728 + 2 * n)))
/-- A result of converter n has entered the FIFO, with the level event, or is lost and `OVF` says so (R361, R368). -/
def State.icTakes (s t : State) (n : Nat) (r : IcResult) : Prop :=
  let x := s.ic n
  (16 ≤ x.fifo.length → (t.ic n).fifo = x.fifo ∧ t.bit (aIC_FLAG n) fIC_FLAG_OVF = true) ∧
    (x.fifo.length < 16 → (t.ic n).fifo = x.fifo ++ [r] ∧
      (s.bit (aIC_FIFO_CFG n) fIC_FIFO_CFG_LVL_EN = true → x.fifo.length = s.fld (aIC_FIFO_CFG n) fIC_FIFO_CFG_LEVEL →
        t.showsEvent (1856 + 2 * n)))
/-- A block's output or a closed pin switch is on the net of bus b, as the active words have it (R330, R421). -/
def State.netUsed (s : State) (b : Nat) : Bool :=
  let pins := (List.range 32).map (fun p => s.reg (aSW_ACT p))
  let onNet (x : Nat) : Bool := (netsOf pins).getD x x == (netsOf pins).getD b 0
  (drivenBuses ((List.range 48).map (fun n => s.reg (aAB_ACT_IN n)))).any onNet || pins.any (fun w => (pinBuses w).any onNet)

/-- The state that a domain's blocks are in: one told to turn on is in the state it leaves until its step takes effect (R7, R372). -/
def State.heldState (s : State) (dom : Nat) : Nat :=
  if s.pwr.rising.any (fun x => x.1 == dom) then (if s.pwr.kept.contains dom then 2 else 0) else s.domState dom

end Sys2Proof.Machine
end

