-- ==== Sys2Proof/Certificates/Slice0/Obligations.lean ====
section
/-! DEFINITION. The statements about the FK-6400 model. -/

open Sys2Proof Sys2Proof.Machine

/-- With command c at the front of the queue, step is exec of c on the state whose queue is the rest; with the queue empty,
step lets one tick pass. Model choices it rests on: log entry 2. (95_what_each_step_holds.md, INDEX.md) -/
def Obligations.StepRunsFrontCommand : Prop :=
  (∀ (c : Instr) (r : List Instr) (s : State), step { s with pending := c :: r } = exec c { s with pending := r }) ∧
  ∀ s : State, s.pending = [] → step s = .next s.idle

/-- At reset, memory and the register table are in canonical form, the schedule-fault log holds at most 16 records and the
event bridge at most 32 messages. Model choices it rests on: log entry 7. (03_weave_contract.md R64, 16_power_and_events.md
R381) -/
def Obligations.ResetMeetsInvariant : Prop :=
  State.reset.Inv

/-- From every state that meets the invariant, a step that answers a next state answers one that meets it: memory and the
register table stay in canonical form, the schedule-fault log holds at most 16 records (R64) and the bridge queue at most 32
messages (R381). (03_weave_contract.md R64, 16_power_and_events.md R381) -/
def Obligations.StepKeepsInvariant : Prop :=
  ∀ s t : State, s.Inv → step s = .next t → t.Inv

/-- No command ends in a fault or a refusal: the device reports every failure in a register, a status or an event, so a step
always answers a next state. Model choices it rests on: log entry 10. (00_scope.md R12, 01_dies_and_address_map.md R21) -/
def Obligations.EveryCommandAnswers : Prop :=
  (∀ (c : Instr) (s : State), ∃ t, exec c s = .next t) ∧ ∀ s : State, ∃ t, step s = .next t

/-- Whatever the command and the state, the fused facts of the package (device revisions, grade, identity number) and the
queue of the commands that wait are in the next state what they were; a step takes the front command from the queue and adds
none. Model choices it rests on: log entry 5. (01_dies_and_address_map.md R13, R25) -/
def Obligations.CommandsKeepFusesAndQueue : Prop :=
  (∀ (c : Instr) (s t : State), exec c s = .next t → t.fuse = s.fuse ∧ t.pending = s.pending) ∧
  ∀ s t : State, step s = .next t → t.fuse = s.fuse ∧ t.pending = s.pending.drop 1

/-- A qualified recovered source sets REC_OK and, in holdover, raises event 17; the local one sets LOC_OK. An accepted
REF_CTRL write switches at once, ends holdover and, where the source changes, starts the slew; a refused one changes nothing;
the slew end clears SLEW. Losing an inactive recovered source clears REC_OK; losing the active one begins holdover with event
16 where there is a fallback and stops the clocks where there is none. Losing the local oscillator raises 18. Every average is
stored; one outside the window, or one that finds the root departed in a spread of its own, makes the source absent, with
event 20. Model choices it rests on: log entries 23, 24, 25, 121, 123. (02_clocks_and_time.md R31 to R36, R42) -/
def Obligations.ReferenceCommands : Prop :=
  ∀ s : State, s.Inv →
    (s.hubRuns → s.laneRecovers → s.freqOk → Leads (.refQualified true) s (fun t => t.bit aREF_STATUS fREF_STATUS_REC_OK ∧
      (s.bit aREF_STATUS fREF_STATUS_REC_OK = false → s.bit aREF_STATUS fREF_STATUS_HOLD → t.showsEvent 17) ∧
      s.keepsElse t [.hw, .ev] (among [aREF_STATUS]))) ∧
    (s.hubRuns → exec (.refQualified false) s = .next (s.setBit aREF_STATUS fREF_STATUS_LOC_OK true)) ∧
    (∀ (m : Rm) (v : W32), s.ringReady m aREF_CTRL → ¬ (10 < getF v fREF_CTRL_INH ∨
      (if getB v fREF_CTRL_SRC then s.bit aREF_STATUS fREF_STATUS_REC_OK = false else (s.bit aREF_STATUS fREF_STATUS_ACTIVE ∨
      s.bit aREF_STATUS fREF_STATUS_HOLD) ∧ s.bit aREF_STATUS fREF_STATUS_LOC_OK = false)) →
      Writes (.refCtrlWrite m v) m aREF_CTRL v .ok s (fun u => u.reg aREF_CTRL = (s.plainWrite aREF_CTRL v).reg aREF_CTRL ∧
      u.bit aREF_STATUS fREF_STATUS_ACTIVE = getB v fREF_CTRL_SRC ∧ u.bit aREF_STATUS fREF_STATUS_HOLD = false ∧
      ((getB v fREF_CTRL_SRC ≠ s.bit aREF_STATUS fREF_STATUS_ACTIVE ∨ s.bit aREF_STATUS fREF_STATUS_HOLD) →
      u.bit aREF_STATUS fREF_STATUS_SLEW) ∧ s.keepsElse u [.clk, .hw, .ev] (among [aFREQ_MON, aREF_CTRL, aREF_STATUS]))) ∧
    (∀ (m : Rm) (v : W32), s.ringReady m aREF_CTRL → (10 < getF v fREF_CTRL_INH ∨
      (if getB v fREF_CTRL_SRC then s.bit aREF_STATUS fREF_STATUS_REC_OK = false else (s.bit aREF_STATUS fREF_STATUS_ACTIVE ∨
      s.bit aREF_STATUS fREF_STATUS_HOLD) ∧ s.bit aREF_STATUS fREF_STATUS_LOC_OK = false)) →
      Writes (.refCtrlWrite m v) m aREF_CTRL v .refused s (fun u => u = s)) ∧
    (s.hubRuns → exec (.slewEnd) s = .next (s.setBit aREF_STATUS fREF_STATUS_SLEW false)) ∧
    (s.hubRuns → s.bit aREF_STATUS fREF_STATUS_REC_OK → s.bit aREF_STATUS fREF_STATUS_ACTIVE = false →
      exec (.recoveredRefLoss) s = .next (s.setBit aREF_STATUS fREF_STATUS_REC_OK false)) ∧
    (s.hubRuns → s.bit aREF_STATUS fREF_STATUS_ACTIVE → s.bit aREF_CTRL fREF_CTRL_HOLD_EN → s.bit aREF_STATUS fREF_STATUS_LOC_OK →
      Leads (.recoveredRefLoss) s (fun t => t.bit aREF_STATUS fREF_STATUS_REC_OK = false ∧
      t.bit aREF_STATUS fREF_STATUS_ACTIVE = false ∧ t.bit aREF_STATUS fREF_STATUS_HOLD ∧ t.showsEvent 16 ∧
      t.clk.holdCorr = s.clk.goodAvg ∧ t.clk.sscHeld ∧ s.keepsElse t [.clk, .hw, .ev] (among [aREF_STATUS]))) ∧
    (s.hubRuns → s.bit aREF_STATUS fREF_STATUS_ACTIVE → s.bit aREF_CTRL fREF_CTRL_HOLD_EN = false →
      Leads (.recoveredRefLoss) s (fun t => t.clk.phase = .stopped ∧ t.bit aRIM_CLK fRIM_CLK_STOPPED ∧
      t.fld aRIM_CLK fRIM_CLK_CAUSE = 2)) ∧
    (s.hubRuns → s.bit aREF_STATUS fREF_STATUS_ACTIVE → s.bit aREF_CTRL fREF_CTRL_HOLD_EN →
      s.bit aREF_STATUS fREF_STATUS_LOC_OK = false → Leads (.recoveredRefLoss) s (fun t => t.clk.phase = .stopped ∧
      t.bit aRIM_CLK fRIM_CLK_STOPPED ∧ t.fld aRIM_CLK fRIM_CLK_CAUSE = 3)) ∧
    (s.hubRuns → s.bit aREF_STATUS fREF_STATUS_ACTIVE → s.bit aREF_STATUS fREF_STATUS_LOC_OK →
      Leads (.localOscLoss) s (fun t => t.bit aREF_STATUS fREF_STATUS_LOC_OK = false ∧ t.showsEvent 18 ∧ s.keepsElse t [.hw,
      .ev] (among [aREF_STATUS]))) ∧
    (∀ (d : BitVec 24) (b : Bool), s.hubRuns → s.laneRecovers →
      Leads (.freqMonAverage d b) s (fun t => (s.inWindow d.toNat = false → t.clk.phase = s.clk.phase →
      t.bit aREF_STATUS fREF_STATUS_REC_OK = false) ∧ (s.inWindow d.toNat = false → (s.bit aFREQ_MON fFREQ_MON_VALID = false ∨
      s.freqOk) → t.showsEvent 20) ∧ (t.clk.phase = s.clk.phase → t.fld aFREQ_MON fFREQ_MON_DIFF = d.toNat ∧
      t.bit aFREQ_MON fFREQ_MON_VALID))) ∧
    (∀ (d : BitVec 24) (b : Bool), s.hubRuns → s.laneRecovers → s.inWindow d.toNat →
      (s.bit aREF_STATUS fREF_STATUS_ACTIVE = false ∨ getF s.clk.sscAct fSSC_CTRL_DEPTH = 0 ∨ (b = false ∧ s.clk.sscSeen = 0)) →
      Leads (.freqMonAverage d b) s (fun t => t.fld aFREQ_MON fFREQ_MON_DIFF = d.toNat ∧ t.bit aFREQ_MON fFREQ_MON_VALID ∧
      t.clk.goodAvg = d ∧ s.keepsElse t [.clk, .hw] (among [aFREQ_MON]))) ∧
    (∀ (d : BitVec 24) (b : Bool), s.hubRuns → s.laneRecovers → s.bit aREF_STATUS fREF_STATUS_ACTIVE →
      getF s.clk.sscAct fSSC_CTRL_DEPTH ≠ 0 → (b ∨ 1 ≤ s.clk.sscSeen) → s.bit aREF_CTRL fREF_CTRL_HOLD_EN →
      s.bit aREF_STATUS fREF_STATUS_LOC_OK →
      Leads (.freqMonAverage d b) s (fun t => t.bit aREF_STATUS fREF_STATUS_REC_OK = false ∧
      t.bit aREF_STATUS fREF_STATUS_HOLD ∧ t.showsEvent 20 ∧ t.showsEvent 16))

/-- A root fault, a dead local source, or a dead recovered source without fallback stops every domain clock, records its
cause, ends the pattern and the ring accesses; source validity, its interruption and the acknowledgement move the stopped rim,
and an acknowledgement without a valid source is ignored; T+0 returns to the local reference with the hub running; T+64 runs
the ring and raises event 19; T+256 releases the user outputs. Model choices it rests on: log entries 22, 28, 29, 122, 124.
(02_clocks_and_time.md R37 to R40) -/
def Obligations.ClockLossAndResumption : Prop :=
  ∀ s : State, s.Inv →
    (s.hubRuns → Leads (.clockLossNoFallback true) s (fun t => t.fld aRIM_CLK fRIM_CLK_CAUSE = 4 ∧ t.clk.phase = .stopped ∧
      t.bit aRIM_CLK fRIM_CLK_STOPPED ∧ t.bit aRIM_CLK fRIM_CLK_LATCHED ∧ t.clk.outSafe ∧
      t.bit aPAT_STATUS fPAT_STATUS_RUN = false ∧ t.bit aTICK_ALIGN fTICK_ALIGN_ALIGNED = false ∧ t.pat.flight = [] ∧
      t.ringCore.busy = false ∧ t.ringDebug.busy = false ∧ t.ringConfig.busy = false)) ∧
    (s.hubRuns → s.bit aREF_STATUS fREF_STATUS_ACTIVE = false →
      Leads (.clockLossNoFallback false) s (fun t => t.fld aRIM_CLK fRIM_CLK_CAUSE = 1 ∧ t.clk.phase = .stopped ∧
      t.bit aRIM_CLK fRIM_CLK_STOPPED ∧ t.bit aRIM_CLK fRIM_CLK_LATCHED ∧ t.clk.outSafe ∧
      t.bit aPAT_STATUS fPAT_STATUS_RUN = false ∧ t.bit aTICK_ALIGN fTICK_ALIGN_ALIGNED = false ∧ t.pat.flight = [] ∧
      t.ringCore.busy = false ∧ t.ringDebug.busy = false ∧ t.ringConfig.busy = false)) ∧
    (s.hubRuns → s.bit aREF_STATUS fREF_STATUS_ACTIVE → s.bit aREF_CTRL fREF_CTRL_HOLD_EN = false →
      Leads (.clockLossNoFallback false) s (fun t => t.fld aRIM_CLK fRIM_CLK_CAUSE = 2 ∧ t.clk.phase = .stopped ∧
      t.bit aRIM_CLK fRIM_CLK_STOPPED ∧ t.bit aRIM_CLK fRIM_CLK_LATCHED ∧ t.clk.outSafe ∧
      t.bit aPAT_STATUS fPAT_STATUS_RUN = false ∧ t.bit aTICK_ALIGN fTICK_ALIGN_ALIGNED = false ∧ t.pat.flight = [] ∧
      t.ringCore.busy = false ∧ t.ringDebug.busy = false ∧ t.ringConfig.busy = false)) ∧
    (s.hubRuns → s.bit aREF_STATUS fREF_STATUS_ACTIVE → s.bit aREF_CTRL fREF_CTRL_HOLD_EN →
      s.bit aREF_STATUS fREF_STATUS_LOC_OK = false →
      Leads (.clockLossNoFallback false) s (fun t => t.fld aRIM_CLK fRIM_CLK_CAUSE = 3 ∧ t.clk.phase = .stopped ∧
      t.bit aRIM_CLK fRIM_CLK_STOPPED ∧ t.bit aRIM_CLK fRIM_CLK_LATCHED ∧ t.clk.outSafe ∧
      t.bit aPAT_STATUS fPAT_STATUS_RUN = false ∧ t.bit aTICK_ALIGN fTICK_ALIGN_ALIGNED = false ∧ t.pat.flight = [] ∧
      t.ringCore.busy = false ∧ t.ringDebug.busy = false ∧ t.ringConfig.busy = false)) ∧
    (∀ (b : Bool), s.hubRuns → s.ringCore.busy = false → s.ringDebug.busy = false → s.ringConfig.busy = false →
      Leads (.clockLossNoFallback b) s (fun t => s.keepsElse t [.clk, .ringCore, .ringDebug, .ringConfig, .hw, .dieReset,
      .share1, .pins, .pwr, .ev, .pat, .be, .nis, .lms, .mq, .rsps, .ports, .lanes, .gws, .remoteIn, .cfg, .cores, .banks,
      .qdrs, .qdrSvc, .dsets, .km, .ana, .tap, .mem, .free, .pending] (fun a => among [aACT_PERIOD, aKM_STATUS, aPAT_STATUS,
      aRIM_CLK, aTICK_ALIGN] a || blockFrom 6 0x30 0x33 a || dieReg 7 a || inBlock 6 0x300 a || linkReg a || portReg a))) ∧
    (s.clk.phase = .stopped → exec (.rimSrcValid) s = .next (s.setBit aRIM_CLK fRIM_CLK_SRC_VALID true)) ∧
    (s.clk.phase = .stopped ∨ s.clk.phase = .relock →
      Leads (.refclkInterruption) s (fun t => t.clk = { s.clk with phase := .stopped } ∧
      t.bit aRIM_CLK fRIM_CLK_SRC_VALID = false ∧ s.keepsElse t [.clk] (among [aRIM_CLK]))) ∧
    (s.clk.phase = .stopped → s.bit aRIM_CLK fRIM_CLK_SRC_VALID →
      exec (.rimClkAck) s = .next ({ s with clk := { s.clk with phase := .relock } })) ∧
    (s.bit aRIM_CLK fRIM_CLK_SRC_VALID = false → exec (.rimClkAck) s = .next (s)) ∧
    (s.clk.phase = .relock →
      Leads (.resumeHubClocks) s (fun t => t.clk = { s.clk with phase := .hubOnly, resumeAt := s.now, sscHeld := false } ∧
      t.bit aREF_CTRL fREF_CTRL_SRC = false ∧ t.bit aREF_STATUS fREF_STATUS_ACTIVE = false ∧
      t.bit aREF_STATUS fREF_STATUS_HOLD = false ∧ t.bit aREF_STATUS fREF_STATUS_ROOT_LOCK ∧
      t.bit aREF_STATUS fREF_STATUS_LOC_OK ∧ (s.cfgState = 3 → t.cfgState = 5 ∧ t.showsEvent 34) ∧ s.keepsElse t [.clk, .hw,
      .pins, .ev, .ports, .cfg, .free] (fun a => among [aCFG_DIES, aCFG_FAIL_FA, aCFG_FAIL_WORD, aCFG_STATUS, aCFG_WORDS,
      aFREQ_MON, aREF_CTRL, aREF_STATUS] a || laneReg a))) ∧
    (s.clk.phase = .hubOnly → s.clk.resumeAt + 64 ≤ s.now →
      Leads (.resumeDieClocks) s (fun t => t.clk = { s.clk with phase := .run } ∧ t.bit aRIM_CLK fRIM_CLK_STOPPED = false ∧
      t.bit aRIM_CLK fRIM_CLK_SRC_VALID = false ∧ t.showsEvent 19 ∧ (∀ p, p < 6 → s.bit (aTP_CTRL p) fTP_CTRL_EN →
      s.tpState p ≠ 11 → t.tpState p = 1) ∧ t.bit aDBG_LOST fDBG_LOST_CLOCK ∧ s.keepsElse t [.clk, .hw, .ev, .be, .nis, .lms,
      .ports, .lanes, .cores] (fun a => among [aDBG_LOST,
      aRIM_CLK] a || blockFrom 6 0x10 0x17 a || blockFrom 6 0x40 0x43 a || inBlock 6 0x400 a || laneReg a || linkReg a || portReg a))) ∧
    (s.runs → s.clk.outSafe → s.clk.resumeAt + 256 ≤ s.now →
      exec (.resumeUserOutputs) s = .next ({ s with clk := { s.clk with outSafe := false } }))

/-- A write of SSC_CTRL with DEPTH above 10 and one of FCLK_CFG_n that enables a divider below 8 are refused and change
nothing; others are stored. The spread changes at a modulation boundary unless a holdover holds it off, a fabric clock on a
tick after the write that is a multiple of 24, where it starts. TICK_SNAP stores the tick in the pair of the master that
writes it. Model choices it rests on: log entry 27. (02_clocks_and_time.md R41, R42, R45, R46) -/
def Obligations.ClockSettingCommands : Prop :=
  ∀ s : State, s.Inv →
    (∀ (m : Rm) (v : W32), s.ringReady m aSSC_CTRL → getF v fSSC_CTRL_DEPTH ≤ 10 →
      Writes (.sscCtrlWrite m v) m aSSC_CTRL v .ok s (fun u => u = s.plainWrite aSSC_CTRL v)) ∧
    (∀ (m : Rm) (v : W32), s.ringReady m aSSC_CTRL → 10 < getF v fSSC_CTRL_DEPTH →
      Writes (.sscCtrlWrite m v) m aSSC_CTRL v .refused s (fun u => u = s)) ∧
    (s.hubRuns → s.clk.sscHeld = false → Leads (.sscChange) s (fun t => t.clk.sscAct = s.reg aSSC_CTRL ∧
      t = { s with clk := { s.clk with sscAct := s.reg aSSC_CTRL, sscSeen := t.clk.sscSeen } })) ∧
    (s.clk.sscHeld → exec (.sscChange) s = .next (s)) ∧
    (∀ (m : Rm) (n : Fin 16) (v : W32), s.ringReady m (aFCLK_CFG n.val) → (getB v fFCLK_CFG_EN = false ∨
      8 ≤ getF v fFCLK_CFG_DIV) →
      Writes (.fclkCfgWrite m n v) m (aFCLK_CFG n.val) v .ok s (fun u => tget (fun _ => 0) u.clk.fclkSet n.val = s.now ∧
      u = { s.plainWrite (aFCLK_CFG n.val) v with clk := { s.clk with fclkSet := u.clk.fclkSet } })) ∧
    (∀ (m : Rm) (n : Fin 16) (v : W32), s.ringReady m (aFCLK_CFG n.val) → getB v fFCLK_CFG_EN → getF v fFCLK_CFG_DIV < 8 →
      Writes (.fclkCfgWrite m n v) m (aFCLK_CFG n.val) v .refused s (fun u => u = s)) ∧
    (∀ (n : Fin 16), s.hubRuns → s.tickN % 24 = 0 → tget (fun _ => 0) s.clk.fclkSet n.val < s.now →
      tget (fun _ => 0#32) s.clk.fclkAct n.val ≠ s.reg (aFCLK_CFG n.val) →
      Leads (.fclkChange n) s (fun t => tget (fun _ => 0#32) t.clk.fclkAct n.val = s.reg (aFCLK_CFG n.val) ∧
      tget (fun _ => 0) t.clk.fclkStart n.val = s.tickN ∧ t = { s with clk := t.clk })) ∧
    (∀ (m : Rm) (v : W32), s.ringReady m aTICK_SNAP →
      Writes (.tickSnap m v) m aTICK_SNAP v .ok s (fun u => u.reg64 (aTICK_LO (rmIdx m)) (aTICK_HI (rmIdx m)) = s.tickN ∧
      s.keepsElse u [] (among [aTICK_LO (rmIdx m), aTICK_HI (rmIdx m)])))

/-- On multiples of 65,536 every port that runs frames sends the tick in a time marker; a marker compared within its window on
an aligned device stores its offset, and one beyond TOL or with a clear flag, or none in time, loses alignment with event 22;
an unaligned device takes the flag alone; TICK_CTRL is refused while a port is scheduled and its master or upstream port would
change, or for a load on a master or while a pattern runs or is armed, and stored otherwise; an armed load takes the marker
value plus D and aligns with event 21. Model choices it rests on: log entry 26. (02_clocks_and_time.md R46 to R50,
07_device_torus.md R163) -/
def Obligations.TickAlignment : Prop :=
  ∀ s : State, s.Inv →
    (s.runs → s.tickN % 65536 = 0 →
      Leads (.timeMarkerSend) s (fun t => t.clk = { s.clk with markerTick := s.clk.tick, markerFlag := s.aligned } ∧ (∀ p,
      p < 6 → s.portFrames p → (s.port p).lastSent = [] →
      (t.port p).lastSent.any (fun x => x.sendTick == s.tickN && x.cls == 7 && x.payload.extractLsb' 40 64 == s.clk.tick)) ∧
      s.keepsElse t [.clk, .hw, .ev, .ports] (fun a => among [aREF_STATUS, aTICK_ALIGN] a || inBlock 6 0x300 a || portReg a))) ∧
    (∀ (x : W64) (al : Bool) (f : Fin 64) (p e : Nat), s.upPort = some p → s.runs → s.bit aTICK_CTRL fTICK_CTRL_MASTER = false →
      (s.clk.loadArmed = false ∨ al = false) → s.bit aTICK_ALIGN fTICK_ALIGN_ALIGNED →
      expectedNear ((s.fld (aTP_LAT p) fTP_LAT_D + 63) / 64) s.tickN = some e → s.clk.lastCmp ≤ e →
      Leads (.timeMarkerCompare x al f) s (fun t => t.clk = { s.clk with lastCmp := e + 1 } ∧
      t.bit aTICK_ALIGN fTICK_ALIGN_UP_ALIGNED = al ∧ (-32768 ≤ s.markerOff p x f → s.markerOff p x f ≤ 32767 →
      t.fld aTICK_ALIGN fTICK_ALIGN_OFFSET = (BitVec.ofInt 16 (s.markerOff p x f)).toNat) ∧
      t.bit aTICK_ALIGN fTICK_ALIGN_ALIGNED = (al && decide ((s.markerOff p x f).natAbs ≤ s.fld aTICK_CTRL fTICK_CTRL_TOL)) ∧
      ((al = false ∨ s.fld aTICK_CTRL fTICK_CTRL_TOL < (s.markerOff p x f).natAbs) → t.bit aTICK_ALIGN fTICK_ALIGN_LOST ∧
      t.showsEvent 22 ∧ t.pat.alignLost) ∧ s.keepsElse t [.clk, .hw, .ev, .pat, .free] (among [aTICK_ALIGN]))) ∧
    (∀ (x : W64) (al : Bool) (f : Fin 64) (p : Nat), s.upPort = some p → s.runs → s.bit aTICK_CTRL fTICK_CTRL_MASTER = false →
      (s.clk.loadArmed = false ∨ al = false) → s.bit aTICK_ALIGN fTICK_ALIGN_ALIGNED = false →
      exec (.timeMarkerCompare x al f) s = .next (s.setBit aTICK_ALIGN fTICK_ALIGN_UP_ALIGNED al)) ∧
    (∀ (c : Nat), c = (s.fld (aTP_LAT (s.fld aTICK_CTRL fTICK_CTRL_UP_PORT)) fTP_LAT_D + 63) / 64 → s.runs →
      s.bit aTICK_ALIGN fTICK_ALIGN_ALIGNED → s.bit aTICK_CTRL fTICK_CTRL_MASTER = false → c + 64 ≤ s.tickN →
      s.clk.lastCmp ≤ s.tickN - 64 - (s.tickN - 64 - c) % 65536 →
      Leads (.markerMissing) s (fun t => t.bit aTICK_ALIGN fTICK_ALIGN_ALIGNED = false ∧ t.bit aTICK_ALIGN fTICK_ALIGN_LOST ∧
      t.showsEvent 22 ∧ t.pat.alignLost ∧ s.keepsElse t [.hw, .ev, .pat] (among [aTICK_ALIGN]))) ∧
    (∀ (m : Rm) (v : W32), s.ringReady m aTICK_CTRL → ¬ (((getB v fTICK_CTRL_MASTER ≠ s.bit aTICK_CTRL fTICK_CTRL_MASTER ∨
      getF v fTICK_CTRL_UP_PORT ≠ s.fld aTICK_CTRL fTICK_CTRL_UP_PORT) ∧ s.anySched = true) ∨ (getB v fTICK_CTRL_MASTER = true ∨
      s.bit aPAT_STATUS fPAT_STATUS_RUN = true ∨ s.fld aPAT_STATUS fPAT_STATUS_ARMED ≠ 0)) →
      Writes (.tickLoadArm m v) m aTICK_CTRL (putF v fTICK_CTRL_ARM 1) .ok s (fun u => u.clk.loadArmed ∧
      u.fld aTICK_CTRL fTICK_CTRL_UP_PORT = getF v fTICK_CTRL_UP_PORT ∧ u.bit aTICK_CTRL fTICK_CTRL_MASTER = false ∧
      (s.bit aTICK_CTRL fTICK_CTRL_MASTER → u.bit aTICK_ALIGN fTICK_ALIGN_ALIGNED = false) ∧ s.keepsElse u [.clk, .hw,
      .ev] (among [aTICK_CTRL, aTICK_ALIGN]))) ∧
    (∀ (m : Rm) (v : W32), s.ringReady m aTICK_CTRL → (((getB v fTICK_CTRL_MASTER ≠ s.bit aTICK_CTRL fTICK_CTRL_MASTER ∨
      getF v fTICK_CTRL_UP_PORT ≠ s.fld aTICK_CTRL fTICK_CTRL_UP_PORT) ∧ s.anySched = true) ∨ (getB v fTICK_CTRL_MASTER = true ∨
      s.bit aPAT_STATUS fPAT_STATUS_RUN = true ∨ s.fld aPAT_STATUS fPAT_STATUS_ARMED ≠ 0)) →
      Writes (.tickLoadArm m v) m aTICK_CTRL (putF v fTICK_CTRL_ARM 1) .refused s (fun u => u = s)) ∧
    (∀ (x : W64) (p : Nat), s.upPort = some p → s.runs → s.clk.loadArmed →
      Leads (.tickLoad x) s (fun t => t.clk.tick = x + BitVec.ofNat 64 (s.fld (aTP_LAT p) fTP_LAT_D / 64) ∧
      t.clk.rootShift = s.fld (aTP_LAT p) fTP_LAT_D % 64 ∧ t.clk.loadArmed = false ∧ t.bit aTICK_ALIGN fTICK_ALIGN_ALIGNED ∧
      t.bit aTICK_ALIGN fTICK_ALIGN_UP_ALIGNED ∧ t.showsEvent 21 ∧ (∀ n, n < 16 →
      (tget (fun _ => 0#32) s.clk.fclkAct n).getLsbD 31 → tget (fun _ => 0) t.clk.fclkStart n = (t.tickN + 23) / 24 * 24) ∧
      s.keepsElse t [.clk, .hw, .ev] (among [aTICK_ALIGN]))) ∧
    (∀ (m : Rm) (v : W32), s.ringReady m aTICK_CTRL → ¬ (((getB v fTICK_CTRL_MASTER ≠ s.bit aTICK_CTRL fTICK_CTRL_MASTER ∨
      getF v fTICK_CTRL_UP_PORT ≠ s.fld aTICK_CTRL fTICK_CTRL_UP_PORT) ∧ s.anySched = true) ∨ (getB v fTICK_CTRL_ARM ∧
      (getB v fTICK_CTRL_MASTER = true ∨ s.bit aPAT_STATUS fPAT_STATUS_RUN = true ∨ s.fld aPAT_STATUS fPAT_STATUS_ARMED ≠ 0))) →
      Writes (.tickCtrlMasterWrite m v) m aTICK_CTRL v .ok s (fun u => u.bit aTICK_CTRL fTICK_CTRL_MASTER = getB v fTICK_CTRL_MASTER ∧
      u.fld aTICK_CTRL fTICK_CTRL_UP_PORT = getF v fTICK_CTRL_UP_PORT ∧
      u.fld aTICK_CTRL fTICK_CTRL_TOL = (if getF v fTICK_CTRL_TOL = 0 then s.fld aTICK_CTRL fTICK_CTRL_TOL else getF v fTICK_CTRL_TOL) ∧
      u.bit aTICK_ALIGN fTICK_ALIGN_ALIGNED = (if getB v fTICK_CTRL_MASTER || s.bit aTICK_CTRL fTICK_CTRL_MASTER then getB v fTICK_CTRL_MASTER else s.bit aTICK_ALIGN fTICK_ALIGN_ALIGNED) ∧
      u.clk.loadArmed = (getB v fTICK_CTRL_ARM || (s.clk.loadArmed && !getB v fTICK_CTRL_MASTER)) ∧ s.keepsElse u [.clk, .hw,
      .ev] (among [aTICK_CTRL, aTICK_ALIGN]))) ∧
    (∀ (m : Rm) (v : W32), s.ringReady m aTICK_CTRL → (((getB v fTICK_CTRL_MASTER ≠ s.bit aTICK_CTRL fTICK_CTRL_MASTER ∨
      getF v fTICK_CTRL_UP_PORT ≠ s.fld aTICK_CTRL fTICK_CTRL_UP_PORT) ∧ s.anySched = true) ∨ (getB v fTICK_CTRL_ARM ∧
      (getB v fTICK_CTRL_MASTER = true ∨ s.bit aPAT_STATUS fPAT_STATUS_RUN = true ∨ s.fld aPAT_STATUS fPAT_STATUS_ARMED ≠ 0))) →
      Writes (.tickCtrlMasterWrite m v) m aTICK_CTRL v .refused s (fun u => u = s))

/-- Losing a supply holds the power-on reset with every register at its reset value but those the rim keeps and those that
record events; on VBAT only the rim registers stay; the release samples the straps, a floating bit freely, and starts the
oscillator delay, its end admits REFCLK, the lock starts the tick from zero; RESET_N has no effect under the power-on reset,
samples the configuration straps again before the lock, and afterwards resets all but the rim and the debug TAP; a die that
does not answer the revision read in 4,096 ring cycles reads absent. Model choices it rests on: log entries 4, 6, 19, 20, 21,
30, 125. (02_clocks_and_time.md R30, R46, 01_dies_and_address_map.md R13, 09_configuration.md R212, 16_power_and_events.md
R375, 17_debug.md R402, R403, 19_pins_and_ratings.md R423, R429) -/
def Obligations.ResetsAndStartUp : Prop :=
  ∀ s : State, s.Inv →
    (s.clk.phase ≠ .porHold → Leads (.supplyDrop) s (fun t => t.clk = { State.reset.clk with phase := .porHold } ∧ (∀ a,
      rimReg a = false → notice a = false → a ≠ aDBG_LOST → a ≠ aRIM_CLK → t.reg a = regReset a) ∧ (∀ a, rimReg a →
      t.reg a = s.reg a) ∧ (∀ a, t.byte a = 0#8) ∧ t.pwr.rtc = s.pwr.rtc ∧ t.fuse = s.fuse ∧ t.bit aDBG_LOST fDBG_LOST_POWER ∧
      t.bit aRIM_CLK fRIM_CLK_STOPPED = false ∧ t.tap = State.reset.tap ∧ t.pwr.onVbat = false)) ∧
    (s.clk.phase = .porHold → exec (.supplyDrop) s = .next (s)) ∧
    (Leads (.vbatSwitchover) s (fun t => t.clk = { State.reset.clk with phase := .porHold } ∧ t.pwr.onVbat ∧
      t.bit aRIM_STAT fRIM_STAT_VBAT_USED ∧ t.bit aRIM_STAT fRIM_STAT_AUX_OK = false ∧ t.pwr.rtc = s.pwr.rtc ∧ t.fuse = s.fuse ∧
      (∀ a, t.byte a = 0#8) ∧ (∀ a, rimReg a = false → t.reg a = regReset a) ∧ (∀ a, rimReg a → a ≠ aRIM_STAT →
      t.reg a = s.reg a))) ∧
    (∀ (x : Straps), s.clk.phase = .porHold → Leads (.powerOnReset x) s (fun t => t.clk = { s.clk with phase := .oscDelay } ∧
      (∀ i, i < 3 → x.floating.getLsbD i = false → t.pins.cfgMode.getLsbD i = x.cfgMode.getLsbD i) ∧
      (x.floating.getLsbD 3 = false → t.pins.cfgPull = x.cfgPull) ∧ (∀ i, i < 3 → x.floating.getLsbD (4 + i) = false →
      t.pins.oscDly.getLsbD i = x.oscDly.getLsbD i) ∧ t.pwr.onVbat = false ∧ t.bit aRIM_STAT fRIM_STAT_AUX_OK ∧
      (s.bit aRIM_STAT fRIM_STAT_VBAT_USED → t.showsEvent 1938) ∧ s.keepsElse t [.clk, .ev, .hw, .free, .pins,
      .pwr] (among [aRIM_STAT]))) ∧
    (s.clk.phase = .oscDelay → exec (.oscDlyExpiry) s = .next ({ s with clk := { s.clk with phase := .lockWait } })) ∧
    (∀ (b : BitVec 8), s.clk.phase = .lockWait →
      exec (.rootPllLock b) s = .next ({ s with clk := { s.clk with phase := .run, tick := 0, revSilent := b } })) ∧
    (∀ (x : Straps) (b : BitVec 8), s.clk.phase = .porHold → exec (.pinReset x b) s = .next (s)) ∧
    (∀ (x : Straps) (b : BitVec 8), s.clk.phase = .oscDelay ∨ s.clk.phase = .lockWait → Leads (.pinReset x b) s (fun t => (∀ i,
      i < 3 → x.floating.getLsbD i = false → t.pins.cfgMode.getLsbD i = x.cfgMode.getLsbD i) ∧ (x.floating.getLsbD 3 = false →
      t.pins.cfgPull = x.cfgPull) ∧ t.pins.oscDly = s.pins.oscDly ∧ s.keepsElse t [.pins, .free] (fun _ => false))) ∧
    (∀ (x : Straps) (b : BitVec 8), s.clk.phase = .run ∨ s.clk.phase = .hubOnly ∨ s.clk.phase = .stopped ∨ s.clk.phase = .relock →
      Leads (.pinReset x b) s (fun t => t.clk = { State.reset.clk with phase := if s.clk.phase = .run ∨ s.clk.phase = .hubOnly then .run else .lockWait, revSilent := b } ∧
      (∀ i, i < 3 → x.floating.getLsbD i = false → t.pins.cfgMode.getLsbD i = x.cfgMode.getLsbD i) ∧
      (x.floating.getLsbD 3 = false → t.pins.cfgPull = x.cfgPull) ∧ t.pins.oscDly = s.pins.oscDly ∧ t.tap = s.tap ∧ (∀ a,
      rimReg a = false → notice a = false → a ≠ aDBG_LOST → a ≠ aRIM_CLK → t.reg a = regReset a) ∧ (∀ a, rimReg a →
      t.reg a = s.reg a) ∧ (∀ a, t.byte a = 0#8) ∧ t.pwr.rtc = s.pwr.rtc ∧ t.fuse = s.fuse ∧ t.bit aDBG_LOST fDBG_LOST_RESET ∧
      t.ringDebug.busy = false ∧ (s.ringDebug.busy → s.ringDebug.remote = none → t.ringDebug.status = .timeout))) ∧
    (∀ (d : Fin 8), s.runs → s.clk.revWait.getLsbD d.val → s.clk.revAt + ringTicks 4096 ≤ s.now →
      Leads (.revisionReadTimeout d) s (fun t => t.bit aDIE_PRESENT ⟨d.val, 1⟩ = false ∧
      t.clk.revWait = s.clk.revWait &&& ~~~(BitVec.ofNat 8 (2 ^ d.val)) ∧ (t.clk.revWait = 0 → s.clk.revDone = false →
      t.clk.revDone ∧ t.bit aFEATURE_LEVEL fFEATURE_LEVEL_VALID = false) ∧ s.keepsElse t [.clk, .hw] (among [aDIE_PRESENT,
      aFEATURE_LEVEL])))

/-- DEVICE_ID is refused while a torus port is scheduled and stored otherwise, holding from the next ring cycle; a die reset
returns its registers to their reset values, empties its pattern tables, and ends after 1,024 ring cycles with its links in
training; PROG_N resets the six logic dies and clears the configuration with INIT_N low until it returns high. Model choices
it rests on: log entry 31. (01_dies_and_address_map.md R26, R27, 03_weave_contract.md R66, 09_configuration.md R213) -/
def Obligations.DieResetsAndProgN : Prop :=
  ∀ s : State, s.Inv →
    (∀ (m : Rm) (v : W32), s.ringReady m aDEVICE_ID → s.anySched = false →
      Writes (.deviceIdWrite m v) m aDEVICE_ID v .ok s (fun u => u.clk.idOld = BitVec.ofNat 16 s.devId ∧
      u.clk.idFrom = s.ringCycle + 1 ∧
      u = { s.plainWrite aDEVICE_ID v with clk := { s.clk with idOld := u.clk.idOld, idFrom := u.clk.idFrom } })) ∧
    (∀ (m : Rm) (v : W32), s.ringReady m aDEVICE_ID → s.anySched →
      Writes (.deviceIdWrite m v) m aDEVICE_ID v .refused s (fun u => u = s)) ∧
    (∀ (m : Rm) (d : Fin 6), s.ringReady m aDIE_RESET →
      Writes (.dieResetLogic m d) m aDIE_RESET (BitVec.ofNat 32 (2 ^ d.val)) .ok s (fun u => u.inReset d.val ∧ (∀ a,
      dieReg d.val a → u.reg a = regReset a) ∧ (∀ b i k x, b < 2 → i < 64 → k < 16 → x < 8192 →
      u.ps b d.val i k x = psDefault (psKey b d.val i k x)) ∧ u.awaits d.val ∧ u.pins.done = false ∧ s.keepsElse u [.clk,
      .ringCore, .ringDebug, .ringConfig, .hw, .dieReset, .share1, .pins, .pwr, .ev, .pat, .be, .nis, .lms, .mq, .rsps, .ports,
      .lanes, .gws, .remoteIn, .cfg, .cores, .banks, .qdrs, .qdrSvc, .dsets, .km, .ana, .tap, .mem, .free,
      .pending] (fun a => dieReg d.val a || among [aCFG_DIES, aCFG_FAIL_FA, aCFG_FAIL_WORD, aCFG_STATUS, aCFG_WORDS,
      aPAT_STATUS] a || inBlock 6 0x300 a || linkReg a || portReg a))) ∧
    (∀ (m : Rm), s.ringReady m aDIE_RESET → Writes (.dieResetAnalog m) m aDIE_RESET 0x80#32 .ok s (fun u => u.inReset 7 ∧ (∀ a,
      dieReg 7 a → u.reg a = regReset a) ∧ u.ana = Ana.empty ∧ u.awaits 7 ∧ s.keepsElse u [.clk, .ringCore, .ringDebug,
      .ringConfig, .hw, .dieReset, .share1, .pins, .pwr, .ev, .pat, .be, .nis, .lms, .mq, .rsps, .ports, .lanes, .gws,
      .remoteIn, .cfg, .cores, .banks, .qdrs, .qdrSvc, .dsets, .km, .ana, .tap, .mem, .free,
      .pending] (fun a => dieReg 7 a || among [aCFG_DIES, aCFG_FAIL_FA, aCFG_FAIL_WORD, aCFG_STATUS, aCFG_WORDS,
      aPAT_STATUS] a || inBlock 6 0x300 a || linkReg a || portReg a))) ∧
    (∀ (d : Fin 8) (n : Nat), s.runs → tget (fun _ => none) s.dieReset d.val = some n → n + ringTicks 1024 ≤ s.now →
      Leads (.dieResetEnd d) s (fun t => t.inReset d.val = false ∧ s.keepsElse t [.hw, .dieReset, .ev, .be, .nis, .lms,
      .ports] (fun a => inBlock 6 2 a || linkReg a))) ∧
    (s.clk.phase ≠ .porHold → s.clk.phase ≠ .oscDelay → s.clk.phase ≠ .lockWait →
      Leads (.progNAssert) s (fun t => t.pins.initDriven ∧ t.pins.progLow ∧ t.bit aCFG_STATUS fCFG_STATUS_INIT = false ∧ (∀ d,
      d < 6 → t.inReset d) ∧ (∀ a, a / 4294967296 < 6 → t.reg a = regReset a) ∧ s.keepsElse t [.clk, .ringCore, .ringDebug,
      .ringConfig, .hw, .dieReset, .share1, .pins, .pwr, .ev, .pat, .be, .nis, .lms, .mq, .rsps, .ports, .lanes, .gws,
      .remoteIn, .cfg, .cores, .banks, .qdrs, .qdrSvc, .dsets, .km, .ana, .tap, .mem, .free,
      .pending] (fun a => decide (a / 4294967296 < 6) || among [aCFG_DIES, aCFG_FAIL_FA, aCFG_FAIL_WORD, aCFG_STATUS,
      aCFG_WORDS, aPAT_STATUS] a || inBlock 6 0x300 a || linkReg a || portReg a))) ∧
    (exec (.progNRelease) s = .next ({ s with pins := { s.pins with progLow := false } }))

/-- A write of ACTION (start, swap or stop) to which no code applies arms it and REFUSE reads 0; else it changes no pattern,
names the lowest code in REFUSE and raises event 29. CANCEL disarms until 4,096 ticks before the tick in PAT_AT and is refused
later or with nothing armed. On that tick a start or swap makes the shadow bank active, exchanges the headers and runs; a stop
clears RUN; the tail ends, after a stop with event 28, once nothing of the old bank is left. Model choices it rests on: log
entries 34, 128, 129. (03_weave_contract.md R67 to R70, R437) -/
def Obligations.PatternActions : Prop :=
  ∀ s : State, s.Inv →
    (∀ (m : Rm), s.ringReady m aPAT_CTRL → s.actionCode 1 0 →
      Writes (.patternStart m) m aPAT_CTRL 1#32 .ok s (fun u => u.fld aPAT_STATUS fPAT_STATUS_ARMED = 1 ∧
      u.fld aPAT_STATUS fPAT_STATUS_REFUSE = 0 ∧ s.keepsElse u [] (among [aPAT_STATUS]))) ∧
    (∀ (m : Rm) (c : Nat), s.ringReady m aPAT_CTRL → 1 ≤ c → s.actionCode 1 c →
      Writes (.patternStart m) m aPAT_CTRL 1#32 .refused s (fun u => u.fld aPAT_STATUS fPAT_STATUS_REFUSE = c ∧
      u.fld aPAT_STATUS fPAT_STATUS_ARMED = s.fld aPAT_STATUS fPAT_STATUS_ARMED ∧ u.showsEvent 29 ∧ s.keepsElse u [.ev,
      .hw] (among [aPAT_STATUS]))) ∧
    (∀ (m : Rm), s.ringReady m aPAT_CTRL → s.actionCode 2 0 →
      Writes (.patternSwap m) m aPAT_CTRL 2#32 .ok s (fun u => u.fld aPAT_STATUS fPAT_STATUS_ARMED = 2 ∧
      u.fld aPAT_STATUS fPAT_STATUS_REFUSE = 0 ∧ s.keepsElse u [] (among [aPAT_STATUS]))) ∧
    (∀ (m : Rm) (c : Nat), s.ringReady m aPAT_CTRL → 1 ≤ c → s.actionCode 2 c →
      Writes (.patternSwap m) m aPAT_CTRL 2#32 .refused s (fun u => u.fld aPAT_STATUS fPAT_STATUS_REFUSE = c ∧
      u.fld aPAT_STATUS fPAT_STATUS_ARMED = s.fld aPAT_STATUS fPAT_STATUS_ARMED ∧ u.showsEvent 29 ∧ s.keepsElse u [.ev,
      .hw] (among [aPAT_STATUS]))) ∧
    (∀ (m : Rm), s.ringReady m aPAT_CTRL → s.actionCode 3 0 →
      Writes (.patternStop m) m aPAT_CTRL 3#32 .ok s (fun u => u.fld aPAT_STATUS fPAT_STATUS_ARMED = 3 ∧
      u.fld aPAT_STATUS fPAT_STATUS_REFUSE = 0 ∧ s.keepsElse u [] (among [aPAT_STATUS]))) ∧
    (∀ (m : Rm) (c : Nat), s.ringReady m aPAT_CTRL → 1 ≤ c → s.actionCode 3 c →
      Writes (.patternStop m) m aPAT_CTRL 3#32 .refused s (fun u => u.fld aPAT_STATUS fPAT_STATUS_REFUSE = c ∧
      u.fld aPAT_STATUS fPAT_STATUS_ARMED = s.fld aPAT_STATUS fPAT_STATUS_ARMED ∧ u.showsEvent 29 ∧ s.keepsElse u [.ev,
      .hw] (among [aPAT_STATUS]))) ∧
    (∀ (m : Rm), s.ringReady m aPAT_CTRL → s.fld aPAT_STATUS fPAT_STATUS_ARMED ≠ 0 →
      s.tickN + 4096 ≤ s.reg64 aPAT_AT_LO aPAT_AT_HI →
      Writes (.patternCancel m) m aPAT_CTRL 4#32 .ok s (fun u => u = s.setFld aPAT_STATUS fPAT_STATUS_ARMED 0)) ∧
    (∀ (m : Rm), s.ringReady m aPAT_CTRL → (s.fld aPAT_STATUS fPAT_STATUS_ARMED = 0 ∨
      s.reg64 aPAT_AT_LO aPAT_AT_HI < s.tickN + 4096) → Writes (.patternCancel m) m aPAT_CTRL 4#32 .refused s (fun u => u = s)) ∧
    (s.hubRuns → s.fld aPAT_STATUS fPAT_STATUS_ARMED = 1 → s.tickN = s.reg64 aPAT_AT_LO aPAT_AT_HI →
      Leads (.patternActionTick) s (fun t => t.bit aPAT_STATUS fPAT_STATUS_RUN ∧ t.fld aPAT_STATUS fPAT_STATUS_ARMED = 0 ∧
      t.actBank = 1 - s.actBank ∧ t.reg aACT_PERIOD = s.reg aSH_PERIOD ∧ t.reg aSH_PERIOD = s.reg aACT_PERIOD ∧
      t.reg aACT_ID = s.reg aSH_ID ∧ t.reg aSH_ID = s.reg aACT_ID ∧ (∀ p, p < 6 → t.reg (aACT_BUDGET p) = s.reg (aSH_BUDGET p) ∧
      t.reg (aSH_BUDGET p) = s.reg (aACT_BUDGET p)) ∧ tget (fun _ => 2 ^ 64) t.pat.fromTick (1 - s.actBank) = s.tickN ∧
      t.pat.store = s.pat.store ∧ t.pat.flight = s.pat.flight ∧ t.showsEvent 26 ∧ s.keepsElse t [.ev, .hw,
      .pat] (fun a => among [aPAT_STATUS, aSH_PERIOD, aACT_PERIOD, aSH_ID,
      aACT_ID] a || among ((List.range 6).flatMap (fun p => [aSH_BUDGET p, aACT_BUDGET p])) a))) ∧
    (s.hubRuns → s.fld aPAT_STATUS fPAT_STATUS_ARMED = 2 → s.tickN = s.reg64 aPAT_AT_LO aPAT_AT_HI →
      Leads (.patternActionTick) s (fun t => t.bit aPAT_STATUS fPAT_STATUS_RUN ∧ t.fld aPAT_STATUS fPAT_STATUS_ARMED = 0 ∧
      t.actBank = 1 - s.actBank ∧ t.reg aACT_PERIOD = s.reg aSH_PERIOD ∧ t.reg aSH_PERIOD = s.reg aACT_PERIOD ∧
      t.reg aACT_ID = s.reg aSH_ID ∧ t.reg aSH_ID = s.reg aACT_ID ∧ (∀ p, p < 6 → t.reg (aACT_BUDGET p) = s.reg (aSH_BUDGET p) ∧
      t.reg (aSH_BUDGET p) = s.reg (aACT_BUDGET p)) ∧ tget (fun _ => 2 ^ 64) t.pat.fromTick (1 - s.actBank) = s.tickN ∧
      t.pat.store = s.pat.store ∧ t.pat.flight = s.pat.flight ∧ t.showsEvent 27 ∧
      tget (fun _ => 2 ^ 64) t.pat.untilTick s.actBank = s.tickN ∧ (s.bankFlits s.actBank →
      t.bit aPAT_STATUS fPAT_STATUS_TAIL) ∧ s.keepsElse t [.ev, .hw, .pat] (fun a => among [aPAT_STATUS, aSH_PERIOD,
      aACT_PERIOD, aSH_ID, aACT_ID] a || among ((List.range 6).flatMap (fun p => [aSH_BUDGET p, aACT_BUDGET p])) a))) ∧
    (s.hubRuns → s.fld aPAT_STATUS fPAT_STATUS_ARMED = 3 → s.tickN = s.reg64 aPAT_AT_LO aPAT_AT_HI →
      Leads (.patternActionTick) s (fun t => t.bit aPAT_STATUS fPAT_STATUS_RUN = false ∧
      t.fld aPAT_STATUS fPAT_STATUS_ARMED = 0 ∧ t.actBank = s.actBank ∧
      tget (fun _ => 2 ^ 64) t.pat.untilTick s.actBank = s.tickN ∧ (s.bankFlits s.actBank →
      t.bit aPAT_STATUS fPAT_STATUS_TAIL) ∧ (t.bit aPAT_STATUS fPAT_STATUS_TAIL = false → t.showsEvent 28) ∧
      t.pat.store = s.pat.store ∧ t.pat.flight = s.pat.flight ∧ s.keepsElse t [.ev, .hw, .pat] (among [aPAT_STATUS]))) ∧
    ((s.fld aPAT_STATUS fPAT_STATUS_ARMED = 0 ∨ s.tickN ≠ s.reg64 aPAT_AT_LO aPAT_AT_HI) →
      exec (.patternActionTick) s = .next (s)) ∧
    (s.bit aPAT_STATUS fPAT_STATUS_TAIL → s.pat.tailEnd ≤ s.tickN →
      s.bankFlits (if s.bit aPAT_STATUS fPAT_STATUS_RUN then s.shBank else s.actBank) = false → s.pat.tailStop = true →
      Leads (.tailEnd) s (fun t => t.bit aPAT_STATUS fPAT_STATUS_TAIL = false ∧ t.showsEvent 28 ∧ s.keepsElse t [.ev,
      .hw] (among [aPAT_STATUS]))) ∧
    (s.bit aPAT_STATUS fPAT_STATUS_TAIL → s.pat.tailEnd ≤ s.tickN →
      s.bankFlits (if s.bit aPAT_STATUS fPAT_STATUS_RUN then s.shBank else s.actBank) = false → s.pat.tailStop = false →
      exec (.tailEnd) s = .next (s.setBit aPAT_STATUS fPAT_STATUS_TAIL false)) ∧
    ((s.tickN < s.pat.tailEnd ∨ s.bankFlits (if s.bit aPAT_STATUS fPAT_STATUS_RUN then s.shBank else s.actBank)) →
      exec (.tailEnd) s = .next (s))

/-- The write of word 3 stores the whole entry in the shadow bank and withdraws the commit of its die, or stores a route entry
at once; one that names the flow table, the active bank, or the shadow bank while it is locked or being committed is refused,
and one that names no entry answers DECODE. A read answers a word of the entry that PS_ADDR names, and the debug port advances
nothing. A commit is busy from its write; it ends with ERR 0x1 where the CRC differs, with the first entry out of form under
ERR 0x2, and with OK where every entry is unused or in form without a route to trace. SF_POP removes the oldest schedule-fault
record. Model choices it rests on: log entries 8, 34. (03_weave_contract.md R64, 04_weave_ports_tables.md R84 to R86,
17_debug.md R400) -/
def Obligations.PatternTables : Prop :=
  ∀ s : State, s.Inv →
    (∀ (m : Rm) (i : NiId) (v : W32), niExists i.die i.ni → s.ringReady m (aPS_DATA_3 i.die i.ni) → s.psValid i.die i.ni →
      s.fld (aPS_ADDR i.die i.ni) fPS_ADDR_TSEL ≠ 9 → s.fld (aPS_ADDR i.die i.ni) fPS_ADDR_TSEL ≠ 2 →
      s.bit (aPS_ADDR i.die i.ni) fPS_ADDR_BANK = false → s.shadowLocked = false → s.committing i.die = false →
      Writes (.patternTableWrite m i v) m (aPS_DATA_3 i.die i.ni) v .ok s (fun u => u.ps s.shBank i.die i.ni (s.fld (aPS_ADDR i.die i.ni) fPS_ADDR_TSEL) (s.fld (aPS_ADDR i.die i.ni) fPS_ADDR_INDEX) = v ++ (s.ni i.die i.ni).psWords ∧
      u.bit (aPS_CSTAT i.die) fPS_CSTAT_OK = false ∧
      (u.fld (aPS_ADDR i.die i.ni) fPS_ADDR_INDEX = if s.bit (aPS_ADDR i.die i.ni) fPS_ADDR_AINC then (s.fld (aPS_ADDR i.die i.ni) fPS_ADDR_INDEX + 1) % 8192 else s.fld (aPS_ADDR i.die i.ni) fPS_ADDR_INDEX) ∧
      u.pat.flight = s.pat.flight ∧ s.keepsElse u [.pat] (among [(aPS_ADDR i.die i.ni), aPAT_STATUS, aPS_CSTAT i.die]))) ∧
    (∀ (m : Rm) (i : NiId) (v : W32), niExists i.die i.ni → s.ringReady m (aPS_DATA_3 i.die i.ni) → s.psValid i.die i.ni →
      s.fld (aPS_ADDR i.die i.ni) fPS_ADDR_TSEL = 9 →
      Writes (.patternTableWrite m i v) m (aPS_DATA_3 i.die i.ni) v .ok s (fun u => u.ps 0 i.die i.ni 9 (s.fld (aPS_ADDR i.die i.ni) fPS_ADDR_INDEX) = v ++ (s.ni i.die i.ni).psWords ∧
      (u.fld (aPS_ADDR i.die i.ni) fPS_ADDR_INDEX = if s.bit (aPS_ADDR i.die i.ni) fPS_ADDR_AINC then (s.fld (aPS_ADDR i.die i.ni) fPS_ADDR_INDEX + 1) % 8192 else s.fld (aPS_ADDR i.die i.ni) fPS_ADDR_INDEX) ∧
      s.keepsElse u [.pat] (among [(aPS_ADDR i.die i.ni)]))) ∧
    (∀ (m : Rm) (i : NiId) (v : W32), niExists i.die i.ni → s.ringReady m (aPS_DATA_3 i.die i.ni) → s.psValid i.die i.ni →
      (s.fld (aPS_ADDR i.die i.ni) fPS_ADDR_TSEL = 2 ∨ (s.fld (aPS_ADDR i.die i.ni) fPS_ADDR_TSEL ≠ 9 ∧
      (s.bit (aPS_ADDR i.die i.ni) fPS_ADDR_BANK ∨ s.shadowLocked ∨ s.committing i.die))) →
      Writes (.patternTableWrite m i v) m (aPS_DATA_3 i.die i.ni) v .refused s (fun u => u = s)) ∧
    (∀ (m : Rm) (i : NiId) (v : W32), niExists i.die i.ni → s.ringReady m (aPS_DATA_3 i.die i.ni) → s.psValid i.die i.ni = false →
      Writes (.patternTableWrite m i v) m (aPS_DATA_3 i.die i.ni) v .decode s (fun u => u = s)) ∧
    (∀ (m : Rm) (i : NiId) (w : Fin 4), niExists i.die i.ni → s.ringReady m (aPS_DATA_0 i.die i.ni + 4 * w.val) →
      s.psValid i.die i.ni → Leads (.psDataRead m i w) s (fun t => (t.master m).answered ∧ (t.master m).ansStatus = .ok ∧
      (t.master m).ansData = BitVec.ofNat 32 ((s.ps (s.psBank i.die i.ni) i.die i.ni (s.fld (aPS_ADDR i.die i.ni) fPS_ADDR_TSEL) (s.fld (aPS_ADDR i.die i.ni) fPS_ADDR_INDEX)).toNat >>> (32 * w.val)) ∧
      (t.fld (aPS_ADDR i.die i.ni) fPS_ADDR_INDEX = if m ≠ .debug ∧
      w.val = (if s.fld (aPS_ADDR i.die i.ni) fPS_ADDR_TSEL = 2 then 0 else 3) ∧
      s.bit (aPS_ADDR i.die i.ni) fPS_ADDR_AINC then (s.fld (aPS_ADDR i.die i.ni) fPS_ADDR_INDEX + 1) % 8192 else s.fld (aPS_ADDR i.die i.ni) fPS_ADDR_INDEX) ∧
      (m = .debug → t.regs = s.regs) ∧ (m ≠ .core0 → t.ringCore = s.ringCore) ∧ (m ≠ .debug → t.ringDebug = s.ringDebug) ∧
      (m ≠ .config → t.ringConfig = s.ringConfig) ∧ s.keepsElse t [.ringCore, .ringDebug,
      .ringConfig] (among [(aPS_ADDR i.die i.ni)]))) ∧
    (∀ (m : Rm) (i : NiId) (w : Fin 4), niExists i.die i.ni → s.ringReady m (aPS_DATA_0 i.die i.ni + 4 * w.val) →
      s.psValid i.die i.ni = false → Leads (.psDataRead m i w) s (fun t => (t.master m).answered ∧
      (t.master m).ansStatus = .decode ∧ t.regs = s.regs ∧ s.keepsElse t [.ringCore, .ringDebug, .ringConfig] (fun _ => false))) ∧
    (∀ (m : Rm) (d : Fin 7) (v : W32), s.ringReady m (aPS_COMMIT d.val) → s.shadowLocked = false → s.committing d.val = false →
      Writes (.commitStart m d v) m (aPS_COMMIT d.val) v .ok s (fun u => u.reg (aPS_CSTAT d.val) = 0x80000000#32 ∧
      u.committing d.val ∧ u.pat.store = s.pat.store ∧ u.pat.flight = s.pat.flight ∧
      s.keepsElse u [.pat] (among [aPS_CSTAT d.val, aPAT_STATUS]))) ∧
    (∀ (m : Rm) (d : Fin 7) (v : W32), s.ringReady m (aPS_COMMIT d.val) → (s.shadowLocked ∨ s.committing d.val) →
      Writes (.commitStart m d v) m (aPS_COMMIT d.val) v .refused s (fun u => u = s)) ∧
    (∀ (d : Fin 7) (c : Commit), s.runs → s.pat.commits.find? (fun c => c.die == d.val) = some c →
      Leads (.commitEnd d) s (fun t => t.committing d.val = false ∧ t.bit (aPS_CSTAT d.val) fPS_CSTAT_BUSY = false ∧
      (s.shareCrc d.val ≠ c.crc → t.fld (aPS_CSTAT d.val) fPS_CSTAT_ERR = 1 ∧ t.pat.store = s.pat.store) ∧
      (s.shareCrc d.val = c.crc → (s.shareEntries d.val).any (fun y => !entryFormOk y.2.1 y.2.2.2) →
      t.fld (aPS_CSTAT d.val) fPS_CSTAT_ERR = 2 ∧ t.pat.store = s.pat.store) ∧ (s.shareCrc d.val = c.crc →
      (s.shareEntries d.val).all (fun y => entryFormOk y.2.1 y.2.2.2 && (!entryV y.2.1 y.2.2.2 || y.2.1 == 1)) →
      t.bit (aPS_CSTAT d.val) fPS_CSTAT_OK ∧ t.fld (aPS_CSTAT d.val) fPS_CSTAT_ERR = 0 ∧ t.shadowOk.testBit d.val) ∧
      s.keepsElse t [.pat] (among [aPS_CSTAT d.val, aPAT_STATUS]))) ∧
    (∀ (m : Rm) (v : W32), s.ringReady m aSF_POP → Writes (.sfPop m v) m aSF_POP v .ok s (fun u => u.pat.log = s.pat.log.drop 1 ∧
      u.pat.store = s.pat.store ∧ u.pat.flight = s.pat.flight ∧ s.keepsElse u [.pat] (fun _ => false)))

/-- On its slot tick an NI injects what its source offers: the oldest staged flit, a marker with cause 0x1 that adds one to
the discard debt, cause 0x8 while disabled, 0x7 in a held region. Routers and wrap stages send every flit and marker on by its
flow table; a receive side gives it the flow and bank of the entry that applies, discards one without an entry and logs kind
4, as a router does for a flow without a route. The egress hands an expected flit over with its tick, and puts a marker of
cause 0x2 with a record of kind 3 where one is missing. Model choices it rests on: log entry 33. (03_weave_contract.md R56 to
R63, 04_weave_ports_tables.md R74, R80, R83, R96, R97, 14_analog_blocks.md R342, R343) -/
def Obligations.ScheduledFlits : Prop :=
  ∀ s : State, s.Inv →
    (∀ (i : NiId) (x : Inj), s.niLive i.die i.ni → (s.ni i.die i.ni).injectedAt ≠ s.now + 1 → s.bit aPAT_STATUS fPAT_STATUS_RUN →
      s.period ≠ 0 → (i.die ≠ 7 ∨ s.awaits 7 = false) →
      lowestFlow (s.injections i.die i.ni s.actBank s.period (tget (fun _ => 2 ^ 64) s.pat.fromTick s.actBank) s.tickN) = some x →
      s.bit (aNI_CTRL i.die i.ni) fNI_CTRL_LOOP = false →
      Leads (.slotInject i) s (fun t => t.pat.flight = s.pat.flight ++ [{ flit := offerFlit ((s.offer i.die i.ni s.tickN x).2) x s.actBank, loc := if i.die = 7 then .router 6 0 5 (some (.link (ra 7 0 0x140))) else .router i.die i.ni 4 none, due := s.now + (if i.die = 7 then 12 else 4) }] ∧
      (t.ni i.die i.ni).injectedAt = s.now + 1 ∧ t.outUsed i.die i.ni 6 ∧ t.pat.store = s.pat.store ∧ s.keepsElse t [.ana, .be,
      .cores, .ev, .hw, .nis, .pat, .qdrs] (among [aAS_ERR]))) ∧
    (∀ (i : NiId) (x : Inj) (f : BitVec 256) (r : List (BitVec 256)), s.niLive i.die i.ni →
      (s.ni i.die i.ni).injectedAt ≠ s.now + 1 → s.bit aPAT_STATUS fPAT_STATUS_RUN → s.period ≠ 0 → i.die < 6 →
      s.injections i.die i.ni s.actBank s.period (tget (fun _ => 2 ^ 64) s.pat.fromTick s.actBank) s.tickN = [x] →
      s.bit (aNI_CTRL i.die i.ni) fNI_CTRL_LOOP = false → s.niOn i.die i.ni → s.niHeld i.die i.ni = false → s.portsUp i.die →
      s.domOn i.die → (s.ni i.die i.ni).staging = f :: r → Leads (.slotInject i) s (fun t => (t.ni i.die i.ni).staging = r ∧
      (t.ni i.die i.ni).debt = (s.ni i.die i.ni).debt ∧
      t.pat.flight = s.pat.flight ++ [{ flit := offerFlit (.data f) x s.actBank, loc := .router i.die i.ni 4 none, due := s.now + 4 }] ∧
      s.keepsElse t [.pat, .nis, .be] (fun _ => false))) ∧
    (∀ (i : NiId) (x : Inj), s.niLive i.die i.ni → (s.ni i.die i.ni).injectedAt ≠ s.now + 1 → s.bit aPAT_STATUS fPAT_STATUS_RUN →
      s.period ≠ 0 → i.die < 6 →
      s.injections i.die i.ni s.actBank s.period (tget (fun _ => 2 ^ 64) s.pat.fromTick s.actBank) s.tickN = [x] →
      s.bit (aNI_CTRL i.die i.ni) fNI_CTRL_LOOP = false → s.niOn i.die i.ni → s.niHeld i.die i.ni = false → s.portsUp i.die →
      s.domOn i.die → (s.ni i.die i.ni).staging = [] →
      Leads (.slotInject i) s (fun t => (t.ni i.die i.ni).debt = (s.ni i.die i.ni).debt + 1 ∧
      (t.ni i.die i.ni).markAt = s.now + 1 ∧
      t.pat.flight = s.pat.flight ++ [{ flit := offerFlit (.mark 1) x s.actBank, loc := .router i.die i.ni 4 none, due := s.now + 4 }] ∧
      s.keepsElse t [.pat, .nis, .be] (fun _ => false))) ∧
    (∀ (i : NiId) (x : Inj), s.niLive i.die i.ni → (s.ni i.die i.ni).injectedAt ≠ s.now + 1 → s.bit aPAT_STATUS fPAT_STATUS_RUN →
      s.period ≠ 0 → i.die < 6 →
      s.injections i.die i.ni s.actBank s.period (tget (fun _ => 2 ^ 64) s.pat.fromTick s.actBank) s.tickN = [x] →
      s.bit (aNI_CTRL i.die i.ni) fNI_CTRL_LOOP = false → s.niOn i.die i.ni = false →
      Leads (.slotInject i) s (fun t => (t.ni i.die i.ni).staging = (s.ni i.die i.ni).staging ∧
      t.pat.flight = s.pat.flight ++ [{ flit := offerFlit (.mark 8) x s.actBank, loc := .router i.die i.ni 4 none, due := s.now + 4 }] ∧
      s.keepsElse t [.pat, .nis, .be] (fun _ => false))) ∧
    (∀ (i : NiId) (x : Inj), s.niLive i.die i.ni → (s.ni i.die i.ni).injectedAt ≠ s.now + 1 → s.bit aPAT_STATUS fPAT_STATUS_RUN →
      s.period ≠ 0 → i.die < 6 →
      s.injections i.die i.ni s.actBank s.period (tget (fun _ => 2 ^ 64) s.pat.fromTick s.actBank) s.tickN = [x] →
      s.bit (aNI_CTRL i.die i.ni) fNI_CTRL_LOOP = false → s.niOn i.die i.ni → s.niHeld i.die i.ni →
      Leads (.slotInject i) s (fun t => (t.ni i.die i.ni).staging = (s.ni i.die i.ni).staging ∧
      t.pat.flight = s.pat.flight ++ [{ flit := offerFlit (.mark 7) x s.actBank, loc := .router i.die i.ni 4 none, due := s.now + 4 }] ∧
      s.keepsElse t [.pat, .nis, .be] (fun _ => false))) ∧
    (s.hubRuns → (s.pat.flight.filter s.atRouter).all cameWithin →
      ((s.pat.flight.filter s.atRouter) ++ s.allMarkers s.now).all (fun x => (s.goesOn x).isSome) →
      ((s.pat.flight.filter s.atRouter) ++ s.allMarkers s.now).Pairwise (fun x y => s.sameWay x y = false) →
      Leads (.routerForwardScheduled) s (fun t => t.pat.flight = s.pat.flight.filter (fun i => !s.atRouter i) ++ ((s.pat.flight.filter s.atRouter) ++ s.allMarkers s.now).filterMap s.goesOn ∧
      t.pat.log = s.pat.log ∧ t.pat.store = s.pat.store ∧ s.keepsElse t [.be, .pat] (fun _ => false))) ∧
    (∀ (x y : Item) (d n p b : Nat) (v : Via) (e : BitVec 128), s.hubRuns → s.allMarkers s.now = [] →
      s.pat.flight.filter s.atRouter = [x] → x.loc = .router d n p (some v) → s.viaCause v x.due = none →
      s.findEntry d n (if p = 5 then 7 else 3 + p) (s.tickAt x.due) (fun _ _ => true) = some (b, e) →
      s.goesOn { x with flit := { x.flit with flow := ew e 0 27 16, bank := b == 1 } } = some y →
      Leads (.routerForwardScheduled) s (fun t => t.pat.flight = s.pat.flight.filter (fun i => !s.atRouter i) ++ [y] ∧
      t.pat.log = s.pat.log ∧ s.keepsElse t [.be, .pat] (fun _ => false))) ∧
    (∀ (x : Item) (d n p : Nat) (v : Via), s.hubRuns → s.allMarkers s.now = [] → s.pat.flight.filter s.atRouter = [x] →
      x.loc = .router d n p (some v) → s.viaCause v x.due = none →
      s.findEntry d n (if p = 5 then 7 else 3 + p) (s.tickAt x.due) (fun _ _ => true) = none → s.pat.log.length < 16 →
      Leads (.routerForwardScheduled) s (fun t => t.pat.flight = s.pat.flight.filter (fun i => !s.atRouter i) ∧
      t.pat.log = s.pat.log ++ [{ kind := 4, flowA := x.flit.flow, flowB := x.flit.flow, die := d, router := n, port := 0, tick := BitVec.ofNat 32 s.tickN }] ∧
      t.showsEvent 24 ∧ s.keepsElse t [.ev, .hw, .pat] (fun _ => false))) ∧
    (∀ (x : Item) (d n p : Nat) (v : Via), s.hubRuns → s.allMarkers s.now = [] → s.pat.flight.filter s.atRouter = [x] →
      x.loc = .router d n p (some v) → (s.viaCause v x.due).isSome →
      Leads (.routerForwardScheduled) s (fun t => t.pat.flight = s.pat.flight.filter (fun i => !s.atRouter i) ∧
      t.pat.log = s.pat.log ∧ s.keepsElse t [.pat] (fun _ => false))) ∧
    (∀ (x : Item) (d n p : Nat), s.hubRuns → s.allMarkers s.now = [] → s.pat.flight.filter s.atRouter = [x] →
      x.loc = .router d n p none → s.domOn (weaveDom d) → s.inReset d = false → x.flit.parityOk → s.flowOut d n x.flit < 4 →
      Leads (.routerForwardScheduled) s (fun t => t.pat.flight = s.pat.flight.filter (fun i => !s.atRouter i) ++ [{ flit := x.flit, loc := (hopFrom (rcOf d n).1 (rcOf d n).2 (s.flowOut d n x.flit)).1, due := x.due + (hopFrom (rcOf d n).1 (rcOf d n).2 (s.flowOut d n x.flit)).2 }] ∧
      t.outUsed d n (s.flowOut d n x.flit) ∧ s.keepsElse t [.be, .pat] (fun _ => false))) ∧
    (∀ (x : Item) (d n p : Nat), s.hubRuns → s.allMarkers s.now = [] → s.pat.flight.filter s.atRouter = [x] →
      x.loc = .router d n p none → s.domOn (weaveDom d) → s.inReset d = false → x.flit.parityOk → s.flowOut d n x.flit = 7 →
      s.pat.log.length < 16 →
      Leads (.routerForwardScheduled) s (fun t => t.pat.flight = s.pat.flight.filter (fun i => !s.atRouter i) ∧
      t.pat.log = s.pat.log ++ [{ kind := 4, flowA := x.flit.flow, flowB := x.flit.flow, die := d, router := n, port := 0, tick := BitVec.ofNat 32 s.tickN }] ∧
      t.showsEvent 24 ∧ s.keepsElse t [.ev, .hw, .pat] (fun _ => false))) ∧
    (∀ (x : Item) (d n p : Nat), s.hubRuns → s.allMarkers s.now = [] → s.pat.flight.filter s.atRouter = [x] →
      x.loc = .router d n p none → s.domOn (weaveDom d) → s.inReset d = false → x.flit.parityOk → s.flowOut d n x.flit = 7 →
      16 ≤ s.pat.log.length →
      Leads (.routerForwardScheduled) s (fun t => t.pat.flight = s.pat.flight.filter (fun i => !s.atRouter i) ∧
      t.pat.log = s.pat.log ∧ t.pat.logOvf ∧ (s.pat.logOvf = false → t.showsEvent 25) ∧
      t.fld aSF_STATUS fSF_STATUS_LOST = min (s.fld aSF_STATUS fSF_STATUS_LOST + 1) (2 ^ fSF_STATUS_LOST.width - 1) ∧
      s.keepsElse t [.ev, .hw, .pat] (among [aSF_STATUS]))) ∧
    (∀ (x : Item) (d n p : Nat), s.hubRuns → s.allMarkers s.now = [] → s.pat.flight.filter s.atRouter = [x] →
      x.loc = .router d n p none → s.domOn (weaveDom d) → s.inReset d = false → x.flit.parityOk = false →
      Leads (.routerForwardScheduled) s (fun t => t.pat.flight = s.pat.flight.filter (fun i => !s.atRouter i) ∧
      t.bit (aNI_ERR d n) fNI_ERR_SB_PAR ∧ t.pat.log = s.pat.log ∧ s.keepsElse t [.ev, .hw, .pat] (among [aNI_ERR d n]))) ∧
    (∀ (i : NiId) (x : Exp) (y : Item), s.niLive i.die i.ni → (s.ni i.die i.ni).checkedAt ≠ s.now + 1 →
      s.bit (aNI_CTRL i.die i.ni) fNI_CTRL_LOOP = false → (i.die ≠ 7 ∨ s.awaits 7 = false) → s.egressCause i.die i.ni = none →
      s.expected i.die i.ni s.tickN = [x] → i.die ≠ 6 → (i.die = 7 ∨ (s.portsUp i.die ∧ s.domOn i.die)) →
      (s.ni i.die i.ni).egress.length < 16 →
      s.pat.flight.filter (fun y => decide (y.loc = .egress i.die i.ni) && decide (y.due ≤ s.now)) = [y] → y.due = s.now →
      y.flit.flow = x.flow → y.flit.bank = (x.bank == 1) → y.flit.valid → y.flit.parityOk →
      Leads (.egressCheck i) s (fun t => (t.ni i.die i.ni).egress = (s.ni i.die i.ni).egress ++ [{ flit := y.flit, tag := x.dport, tick := s.clk.tick, enter := s.now }] ∧
      y ∉ t.pat.flight ∧ t.pat.log = s.pat.log ∧ t.pat.store = s.pat.store ∧ s.keepsElse t [.pat, .nis] (fun _ => false))) ∧
    (∀ (i : NiId) (x : Exp), s.niLive i.die i.ni → (s.ni i.die i.ni).checkedAt ≠ s.now + 1 →
      s.bit (aNI_CTRL i.die i.ni) fNI_CTRL_LOOP = false → (i.die ≠ 7 ∨ s.awaits 7 = false) → s.egressCause i.die i.ni = none →
      s.expected i.die i.ni s.tickN = [x] → i.die ≠ 6 → (i.die = 7 ∨ (s.portsUp i.die ∧ s.domOn i.die)) →
      (s.ni i.die i.ni).egress.length < 16 →
      s.pat.flight.filter (fun y => decide (y.loc = .egress i.die i.ni) && decide (y.due ≤ s.now)) = [] →
      s.pat.log.length < 16 →
      Leads (.egressCheck i) s (fun t => (t.ni i.die i.ni).egress = (s.ni i.die i.ni).egress ++ [{ flit := { valid := false, flow := x.flow, cause := 2, key := 0, bank := x.bank == 1, parityOk := true, payload := 0 }, tag := x.dport, tick := s.clk.tick, enter := s.now }] ∧
      t.pat.log = s.pat.log ++ [{ kind := 3, flowA := x.flow, flowB := x.flow, die := i.die, router := i.ni, port := 0, tick := BitVec.ofNat 32 s.tickN }] ∧
      t.showsEvent 24 ∧ s.keepsElse t [.ev, .hw, .pat, .nis] (fun _ => false))) ∧
    (∀ (i : NiId) (x : Exp) (y : Item) (c : Fin 8), i.die = 6 → i.ni = coreNi c.val → s.niLive i.die i.ni →
      (s.ni i.die i.ni).checkedAt ≠ s.now + 1 → s.bit (aNI_CTRL i.die i.ni) fNI_CTRL_LOOP = false → (i.die ≠ 7 ∨
      s.awaits 7 = false) → s.egressCause i.die i.ni = none → s.expected i.die i.ni s.tickN = [x] →
      s.pat.flight.filter (fun y => decide (y.loc = .egress i.die i.ni) && decide (y.due ≤ s.now)) = [y] → y.due = s.now →
      y.flit.flow = x.flow → y.flit.bank = (x.bank == 1) → y.flit.valid → y.flit.parityOk →
      Leads (.egressCheck i) s (fun t => (t.ni i.die i.ni).egress = (s.ni i.die i.ni).egress ++ [{ flit := y.flit, tag := x.dport, tick := s.clk.tick, enter := s.now }] ∧
      y ∉ t.pat.flight ∧ t.pat.log = s.pat.log ∧ s.keepsElse t [.pat, .nis] (fun _ => false))) ∧
    (∀ (i : NiId), s.niLive i.die i.ni → (s.ni i.die i.ni).checkedAt ≠ s.now + 1 →
      s.bit (aNI_CTRL i.die i.ni) fNI_CTRL_LOOP = false → (i.die ≠ 7 ∨ s.awaits 7 = false) →
      s.expected i.die i.ni s.tickN = [] →
      s.pat.flight.filter (fun y => decide (y.loc = .egress i.die i.ni) && decide (y.due ≤ s.now)) = [] →
      Leads (.egressCheck i) s (fun t => (t.ni i.die i.ni).egress = (s.ni i.die i.ni).egress ∧ t.pat.log = s.pat.log ∧
      s.keepsElse t [.pat, .nis] (fun _ => false)))

/-- Each staged flit, up to two on an edge, pays a discard debt first, else takes a place of 32, else is lost with STG_OVF. On
an SCLK edge, once, the oldest buffered flits two ticks past their egress tick are presented, two on a logic die and one on A.
A write to a FIFO with room appends its flit, one to a full FIFO is discarded with FIFO_OVF. A read takes the oldest flit that
the reader sees, with LAST, or NV from a FIFO that reads empty. A flush marks its FIFOs and empties them at the next packet
boundary, but for a packet whose reading has begun. Model choices it rests on: log entries 35, 136. (04_weave_ports_tables.md
R96 to R101, 14_analog_blocks.md R343) -/
def Obligations.NiFifosAndStaging : Prop :=
  ∀ s : State, s.Inv →
    (∀ (i : NiId) (l : List (BitVec 256)), s.niLive i.die i.ni → i.die ≠ 6 → l.length ≤ 2 → l.length ≤ (s.ni i.die i.ni).debt →
      Leads (.flitStageWrite i l) s (fun t => (t.ni i.die i.ni).debt = (s.ni i.die i.ni).debt - l.length ∧
      (t.ni i.die i.ni).staging = (s.ni i.die i.ni).staging ∧ s.keepsElse t [.nis] (fun _ => false))) ∧
    (∀ (i : NiId) (l : List (BitVec 256)), s.niLive i.die i.ni → i.die ≠ 6 → l.length ≤ 2 → (s.ni i.die i.ni).debt = 0 →
      (s.ni i.die i.ni).staging.length + l.length ≤ 32 →
      Leads (.flitStageWrite i l) s (fun t => (t.ni i.die i.ni).staging = (s.ni i.die i.ni).staging ++ l ∧
      (t.ni i.die i.ni).debt = 0 ∧ s.keepsElse t [.nis] (fun _ => false))) ∧
    (∀ (i : NiId) (f g : BitVec 256), s.niLive i.die i.ni → i.die ≠ 6 → (s.ni i.die i.ni).debt = 1 →
      (s.ni i.die i.ni).staging.length < 32 → exec (.flitStageWrite i [f,
      g]) s = .next (s.setNi i.die i.ni { (s.ni i.die i.ni) with debt := 0, staging := (s.ni i.die i.ni).staging ++ [g] })) ∧
    (∀ (i : NiId) (f : BitVec 256), s.niLive i.die i.ni → i.die ≠ 6 → (s.ni i.die i.ni).debt = 0 →
      32 ≤ (s.ni i.die i.ni).staging.length → Leads (.flitStageWrite i [f]) s (fun t => t.nis = s.nis ∧
      t.bit (aNI_ERR i.die i.ni) fNI_ERR_STG_OVF ∧ s.keepsElse t [.ev, .hw] (among [aNI_ERR i.die i.ni]))) ∧
    (∀ (i : NiId), s.niLive i.die i.ni → i.die ≠ 6 → s.tickN % ratioN (s.fld (aNI_CTRL i.die i.ni) fNI_CTRL_RATIO) = 0 →
      (s.ni i.die i.ni).presentAt ≠ s.now + 1 → (s.ni i.die i.ni).egress.all (fun e => decide (e.enter + 2 ≤ s.now)) →
      Leads (.egressPresent i) s (fun t => (t.ni i.die i.ni).presented = (s.ni i.die i.ni).egress.take (if i.die = 7 then 1 else 2) ∧
      (t.ni i.die i.ni).egress = (s.ni i.die i.ni).egress.drop (if i.die = 7 then 1 else 2) ∧
      t = s.setNi i.die i.ni { (s.ni i.die i.ni) with presented := (t.ni i.die i.ni).presented, egress := (t.ni i.die i.ni).egress, presentAt := s.now + 1 })) ∧
    (∀ (i : NiId), (s.tickN % ratioN (s.fld (aNI_CTRL i.die i.ni) fNI_CTRL_RATIO) ≠ 0 ∨ (s.ni i.die i.ni).presentAt = s.now + 1 ∨
      i.die = 6) → exec (.egressPresent i) s = .next (s)) ∧
    (∀ (i : NiId) (k : Fin 4) (f : BitVec 256) (l : Bool), s.niLive i.die i.ni → (s.ni i.die i.ni).full k.val = false →
      Leads (.fifoWrite i k f l) s (fun t => niFifo (t.ni i.die i.ni) k.val = niFifo (s.ni i.die i.ni) k.val ++ [{ payload := f, last := l }] ∧
      bit4 (t.ni i.die i.ni).midWrite k.val = !l ∧ (∀ j : Fin 4, j ≠ k →
      niFifo (t.ni i.die i.ni) j.val = niFifo (s.ni i.die i.ni) j.val) ∧ s.keepsElse t [.ev, .hw,
      .nis] (among [aFIFO_STAT i.die i.ni k.val]))) ∧
    (∀ (i : NiId) (k : Fin 4) (f : BitVec 256) (l : Bool), s.niLive i.die i.ni → (s.ni i.die i.ni).full k.val →
      Leads (.fifoWrite i k f l) s (fun t => t.nis = s.nis ∧ t.bit (aNI_ERR i.die i.ni) fNI_ERR_FIFO_OVF ∧ s.keepsElse t [.ev,
      .hw] (among [aNI_ERR i.die i.ni]))) ∧
    (∀ (i : NiId) (k : Fin 4) (f : FifoFlit) (r : List FifoFlit), s.niLive i.die i.ni → (s.ni i.die i.ni).avail k.val = f :: r →
      Leads (.fifoRead i k) s (fun t => niFifo (t.ni i.die i.ni) k.val = (niFifo (s.ni i.die i.ni) k.val).drop 1 ∧
      (t.ni i.die i.ni).readOut.toNat = f.payload.toNat + (if f.last then 2 ^ 256 else 0) ∧
      bit4 (t.ni i.die i.ni).midRead k.val = !f.last ∧ (∀ j : Fin 4, j ≠ k →
      niFifo (t.ni i.die i.ni) j.val = niFifo (s.ni i.die i.ni) j.val) ∧ s.keepsElse t [.nis] (fun _ => false))) ∧
    (∀ (i : NiId) (k : Fin 4), s.niLive i.die i.ni → (s.ni i.die i.ni).avail k.val = [] →
      exec (.fifoRead i k) s = .next (s.setNi i.die i.ni { (s.ni i.die i.ni) with readOut := BitVec.ofNat 258 (2 ^ 257) })) ∧
    (∀ (m : Rm) (i : NiId) (b : BitVec 4), niExists i.die i.ni → s.ringReady m (aFIFO_FLUSH i.die i.ni) →
      Writes (.fifoFlush m i b) m (aFIFO_FLUSH i.die i.ni) (b.setWidth 32) .ok s (fun u => u = s.setNi i.die i.ni { (s.ni i.die i.ni) with flushing := (s.ni i.die i.ni).flushing ||| b })) ∧
    (∀ (i : NiId) (k : Fin 4), s.niLive i.die i.ni → bit4 (s.ni i.die i.ni).flushing k.val →
      bit4 (s.ni i.die i.ni).midWrite k.val = false → bit4 (s.ni i.die i.ni).midRead k.val = false →
      Leads (.flushBoundary i k) s (fun t => niFifo (t.ni i.die i.ni) k.val = [] ∧
      bit4 (t.ni i.die i.ni).flushing k.val = false ∧ (∀ j : Fin 4, j ≠ k →
      niFifo (t.ni i.die i.ni) j.val = niFifo (s.ni i.die i.ni) j.val) ∧ s.keepsElse t [.nis] (fun _ => false))) ∧
    (∀ (i : NiId) (k : Fin 4) (p : List (BitVec 256)) (r : List FifoFlit), s.niLive i.die i.ni →
      bit4 (s.ni i.die i.ni).flushing k.val → bit4 (s.ni i.die i.ni).midWrite k.val = false →
      bit4 (s.ni i.die i.ni).midRead k.val → firstPacket (niFifo (s.ni i.die i.ni) k.val) [] = some (p, r) →
      Leads (.flushBoundary i k) s (fun t => niFifo (t.ni i.die i.ni) k.val = (niFifo (s.ni i.die i.ni) k.val).take p.length ∧
      bit4 (t.ni i.die i.ni).flushing k.val = false ∧ (∀ j : Fin 4, j ≠ k →
      niFifo (t.ni i.die i.ni) j.val = niFifo (s.ni i.die i.ni) j.val) ∧ s.keepsElse t [.nis] (fun _ => false))) ∧
    (∀ (i : NiId) (k : Fin 4), (bit4 (s.ni i.die i.ni).flushing k.val = false ∨ bit4 (s.ni i.die i.ni).midWrite k.val) →
      exec (.flushBoundary i k) s = .next (s))

/-- An admitted request leaves MREQ, is tracked with its tag and places, and enters the grid with the route of its address;
one without a route is answered with bus error, one whose tag is outstanding too, with TAG_DUP; a message is not tracked; the
head of TRSP answers the request it names. A winning header takes its places downstream and moves there, its first flit on its
way; through a torus port it starts, or is answered with bus error where the port refuses. Places freed become credits when
due; headers age and stalls are flagged. A request with room enters TREQ or reaches its hub target, a response ends its
request in MRSP, and one not answered in time is ended with status 0b010 and TIMEOUT. Model choices it rests on: log entries
38, 40, 42, 126, 132, 137, 138. (04_weave_ports_tables.md R90 to R95, 05_weave_best_effort.md R103 to R112, R121) -/
def Obligations.BestEffortPackets : Prop :=
  ∀ s : State, s.Inv →
    (∀ (i : NiId) (h q : BitVec 256) (l : List (BitVec 256)) (rest : List FifoFlit), s.niLive i.die i.ni →
      firstPacket ((s.ni i.die i.ni).avail 3) [] = none → firstPacket ((s.ni i.die i.ni).avail 0) [] = some (h :: l, rest) →
      s.canAdmit i.die i.ni h → s.bit (aNI_CTRL i.die i.ni) fNI_CTRL_LOOP = false → s.niAccepts i.die i.ni → hType h < 2 →
      (∀ o ∈ (s.ni i.die i.ni).outst, o.tag ≠ hTag h) →
      s.routeRequest i.die i.ni (s.fillHdr i.die i.ni (if i.die = 7 then 0x10 else 0) h) = .to q →
      Leads (.beRequestIssue i) s (fun t => (t.ni i.die i.ni).fifo0 = (s.ni i.die i.ni).fifo0.drop (1 + l.length) ∧
      (t.ni i.die i.ni).outst = (s.ni i.die i.ni).outst ++ [{ tag := hTag h, places := rspPlaces h, deadline := s.deadline i.die i.ni, hdr := q, client := none }] ∧
      (t.ni i.die i.ni).rsv = (s.ni i.die i.ni).rsv + rspPlaces h ∧
      t.be.items = s.be.items ++ [BeItem.start { hdr := q, data := l } i.die i.ni 4 s.now 0] ∧ s.keepsElse t [.be,
      .nis] (fun _ => false))) ∧
    (∀ (i : NiId) (h : BitVec 256) (f : Option Fld) (l : List (BitVec 256)) (rest : List FifoFlit), s.niLive i.die i.ni →
      firstPacket ((s.ni i.die i.ni).avail 3) [] = none → firstPacket ((s.ni i.die i.ni).avail 0) [] = some (h :: l, rest) →
      s.canAdmit i.die i.ni h → s.bit (aNI_CTRL i.die i.ni) fNI_CTRL_LOOP = false → s.niAccepts i.die i.ni → hType h < 2 →
      (∀ o ∈ (s.ni i.die i.ni).outst, o.tag ≠ hTag h) →
      s.routeRequest i.die i.ni (s.fillHdr i.die i.ni (if i.die = 7 then 0x10 else 0) h) = .err f →
      Leads (.beRequestIssue i) s (fun t => (t.ni i.die i.ni).fifo0 = (s.ni i.die i.ni).fifo0.drop (1 + l.length) ∧
      (t.ni i.die i.ni).outst = (s.ni i.die i.ni).outst ∧
      (t.ni i.die i.ni).fifo1 = (s.ni i.die i.ni).fifo1 ++ pktFlits (localRsp (s.fillHdr i.die i.ni (if i.die = 7 then 0x10 else 0) h) 1) ∧
      t.be = s.be ∧ f.all (fun g => t.bit (aNI_ERR i.die i.ni) g) ∧ s.keepsElse t [.ev, .hw, .nis] (among [aNI_ERR i.die i.ni,
      aFIFO_STAT i.die i.ni 1]))) ∧
    (∀ (i : NiId) (h : BitVec 256) (l : List (BitVec 256)) (rest : List FifoFlit), s.niLive i.die i.ni →
      firstPacket ((s.ni i.die i.ni).avail 3) [] = none → firstPacket ((s.ni i.die i.ni).avail 0) [] = some (h :: l, rest) →
      s.canAdmit i.die i.ni h → s.bit (aNI_CTRL i.die i.ni) fNI_CTRL_LOOP = false → s.niAccepts i.die i.ni → hType h ≠ 4 →
      (s.ni i.die i.ni).outst.any (fun o => o.tag == hTag h) →
      Leads (.beRequestIssue i) s (fun t => (t.ni i.die i.ni).fifo0 = (s.ni i.die i.ni).fifo0.drop (1 + l.length) ∧
      (t.ni i.die i.ni).outst = (s.ni i.die i.ni).outst ∧
      (t.ni i.die i.ni).fifo1 = (s.ni i.die i.ni).fifo1 ++ pktFlits (localRsp (s.fillHdr i.die i.ni (if i.die = 7 then 0x10 else 0) h) 1) ∧
      t.be = s.be ∧ t.bit (aBE_FLAG i.die i.ni) fBE_FLAG_TAG_DUP ∧ s.keepsElse t [.ev, .hw, .nis] (among [aBE_FLAG i.die i.ni,
      aFIFO_STAT i.die i.ni 1]))) ∧
    (∀ (i : NiId) (h q : BitVec 256) (l : List (BitVec 256)) (rest : List FifoFlit), s.niLive i.die i.ni →
      firstPacket ((s.ni i.die i.ni).avail 3) [] = none → firstPacket ((s.ni i.die i.ni).avail 0) [] = some (h :: l, rest) →
      s.canAdmit i.die i.ni h → s.bit (aNI_CTRL i.die i.ni) fNI_CTRL_LOOP = false → s.niAccepts i.die i.ni → hType h = 4 →
      s.routeRequest i.die i.ni (s.fillHdr i.die i.ni (if i.die = 7 then 0x10 else 0) h) = .to q →
      Leads (.beRequestIssue i) s (fun t => (t.ni i.die i.ni).fifo0 = (s.ni i.die i.ni).fifo0.drop (1 + l.length) ∧
      (t.ni i.die i.ni).outst = (s.ni i.die i.ni).outst ∧ (t.ni i.die i.ni).rsv = (s.ni i.die i.ni).rsv ∧
      t.be.items = s.be.items ++ [BeItem.start { hdr := q, data := l } i.die i.ni 4 s.now 0] ∧ s.keepsElse t [.be,
      .nis] (fun _ => false))) ∧
    (∀ (i : NiId) (h q g : BitVec 256) (l : List (BitVec 256)) (rest : List FifoFlit), s.niLive i.die i.ni →
      firstPacket ((s.ni i.die i.ni).avail 3) [] = some (h :: l, rest) →
      (s.ni i.die i.ni).served.find? (fun q => hTag q == hTag h) = some q → s.bit (aNI_CTRL i.die i.ni) fNI_CTRL_LOOP = false →
      s.routeResponse i.die i.ni (s.userRspHdr i.die i.ni h q) = .to g →
      Leads (.beRequestIssue i) s (fun t => (t.ni i.die i.ni).fifo3 = (s.ni i.die i.ni).fifo3.drop (1 + l.length) ∧
      (t.ni i.die i.ni).served = (s.ni i.die i.ni).served.erase q ∧
      t.be.items = s.be.items ++ [BeItem.start { hdr := g, data := l } i.die i.ni 4 s.now 0] ∧ s.keepsElse t [.be,
      .nis] (fun _ => false))) ∧
    (∀ (i : NiId) (q : ClientReq) (r : List ClientReq), s.niLive i.die i.ni → i.die = 6 →
      firstPacket ((s.ni i.die i.ni).avail 3) [] = none → firstPacket ((s.ni i.die i.ni).avail 0) [] = none →
      (s.ni i.die i.ni).clientQ = q :: r → s.canAdmit 6 i.ni q.pkt.hdr → s.niAccepts 6 i.ni → hType q.pkt.hdr < 2 →
      (∀ o ∈ (s.ni i.die i.ni).outst, o.tag ≠ hTag q.pkt.hdr) → hAddr q.pkt.hdr / 2 ^ 48 = s.devId →
      memClass (classOf (hAddr q.pkt.hdr % 2 ^ 48)) → Leads (.beRequestIssue i) s (fun t => (t.ni i.die i.ni).clientQ = r ∧
      (t.ni i.die i.ni).outst.length = (s.ni i.die i.ni).outst.length + 1 ∧
      (t.ni i.die i.ni).rsv = (s.ni i.die i.ni).rsv + rspPlaces q.pkt.hdr ∧
      t.mq = s.mq ++ [s.memReqOf { q.pkt with hdr := s.fillHdr 6 i.ni q.master q.pkt.hdr } q.master (.client i.ni (hTag q.pkt.hdr))] ∧
      s.keepsElse t [.mq, .nis] (fun _ => false))) ∧
    (∀ (i : NiId) (out : Fin 6) (vc : Fin 2) (x : BeItem) (ord rsv d n inp k : Nat) (via : Option Via), s.niLive i.die i.ni →
      s.holder i.die i.ni out.val vc.val = none → (out.val ≠ 5 ∨ i.die = 7 ∨ (i.die = 6 ∧ i.ni = 0)) → (vc.val ≠ 0 ∨
      (s.holder i.die i.ni out.val 1).any (fun y => s.canMove y out.val) = false) →
      s.pickHop (tget (fun _ => 5) s.be.lastIn (outKey i.die i.ni out.val * 2 + vc.val)) out.val (s.be.items.filter (fun y => y.d == i.die && y.n == i.ni && y.inp < 6 && y.vc == vc.val && y.wants == out.val && y.waits s.now)) = some (x,
      ord, rsv) → s.outFree x out.val → downstream i.die i.ni out.val = (d, n, inp, via, k) → s.linkTakes via → x.gone = 0 →
      s.be.items.all (fun y => !(y.d == d && y.n == n && y.inp == inp && y.vc == vc.val) || decide (y.len ≤ y.comes.length)) →
      via.all (fun v => match v with | .link b => maskWidth (s.fld (aLM_STATUS b) fLM_STATUS_MASK) == 4 | _ => true) →
      Leads (.beHop i out vc) s (fun t => t.be.items = (if x.len = 1 then s.be.items.erase x else s.be.items.replace x { x with gone := 1, out := some out.val }) ++ [{ pkt := { x.pkt with hdr := if out.val < 4 ∧ i.die < 7 then hShift x.pkt.hdr else x.pkt.hdr }, d := d, n := n, inp := inp, rsv := rsv, comes := [s.now + k], gone := 0, out := none, via := via, port := x.port, raw := x.raw, aged := false, own := x.own }] ∧
      tget (fun _ => 0) t.be.usedOrd (inKey d n inp vc.val) = tget (fun _ => 0) s.be.usedOrd (inKey d n inp vc.val) + ord ∧
      tget (fun _ => 0) t.be.usedRsv (inKey d n inp vc.val) = tget (fun _ => 0) s.be.usedRsv (inKey d n inp vc.val) + rsv ∧
      tget (fun _ => 5) t.be.lastIn (outKey i.die i.ni out.val * 2 + vc.val) = x.inp ∧ t.outUsed i.die i.ni out.val ∧
      s.keepsElse t [.be, .ports] (fun _ => false))) ∧
    (∀ (i : NiId) (out : Fin 6) (vc : Fin 2) (x : BeItem) (ord rsv d n inp k b : Nat) (via : Option Via), s.niLive i.die i.ni →
      s.holder i.die i.ni out.val vc.val = none → (out.val ≠ 5 ∨ i.die = 7 ∨ (i.die = 6 ∧ i.ni = 0)) → (vc.val ≠ 0 ∨
      (s.holder i.die i.ni out.val 1).any (fun y => s.canMove y out.val) = false) →
      s.pickHop (tget (fun _ => 5) s.be.lastIn (outKey i.die i.ni out.val * 2 + vc.val)) out.val (s.be.items.filter (fun y => y.d == i.die && y.n == i.ni && y.inp < 6 && y.vc == vc.val && y.wants == out.val && y.waits s.now)) = some (x,
      ord, rsv) → s.outFree x out.val → downstream i.die i.ni out.val = (d, n, inp, via, k) → s.linkTakes via → x.gone = 0 →
      s.be.items.all (fun y => !(y.d == d && y.n == n && y.inp == inp && y.vc == vc.val) || decide (y.len ≤ y.comes.length)) →
      via = some (.link b) → maskWidth (s.fld (aLM_STATUS b) fLM_STATUS_MASK) ≠ 4 →
      Leads (.beHop i out vc) s (fun t => (t.be.items.getLast?).any (fun y => y.d == d && y.n == n && y.inp == inp && y.comes.length == 1 && y.comes.all (fun c => decide (s.now + 8 ≤ c) && decide (c ≤ s.now + 16))) ∧
      t.outUsed i.die i.ni out.val ∧ s.keepsElse t [.be, .ports, .lms, .free] (fun _ => false))) ∧
    (∀ (i : NiId) (vc : Fin 2) (x : BeItem) (p : Nat), s.niLive i.die i.ni → i.die = 6 → sidePortOf i.ni = some p →
      s.holder 6 i.ni 5 vc.val = none →
      beWinner (tget (fun _ => 5) s.be.lastIn (outKey 6 i.ni 5 * 2 + vc.val)) (s.be.items.filter (fun y => y.d == 6 && y.n == i.ni && y.inp < 6 && y.vc == vc.val && y.wants == 5 && y.waits s.now)) = some x →
      s.portRefusesBe p = false → s.portCarriesBe p → x.whole s.now → s.portRoom p x → s.holder 6 i.ni 5 (1 - vc.val) = none →
      Leads (.beHop i 5 vc) s (fun t => t.be.items = s.be.items.replace x { x with out := some 5 } ∧
      (t.port p).sentReq = (s.port p).sentReq + (if vc.val = 0 then x.len else 0) ∧
      (t.port p).sentRsp = (s.port p).sentRsp + (if vc.val = 0 then 0 else x.len) ∧ s.keepsElse t [.be,
      .ports] (fun _ => false))) ∧
    (∀ (i : NiId) (vc : Fin 2) (x : BeItem) (p : Nat) (g : BitVec 256), s.niLive i.die i.ni → i.die = 6 →
      sidePortOf i.ni = some p → s.holder 6 i.ni 5 vc.val = none →
      beWinner (tget (fun _ => 5) s.be.lastIn (outKey 6 i.ni 5 * 2 + vc.val)) (s.be.items.filter (fun y => y.d == 6 && y.n == i.ni && y.inp < 6 && y.vc == vc.val && y.wants == 5 && y.waits s.now)) = some x →
      s.portRefusesBe p → (vc.val ≠ 0 ∨ hType x.pkt.hdr = 4 ∨
      s.routeResponse 6 i.ni (s.responseHdr 6 i.ni x.pkt.hdr 1) = .to g) →
      Leads (.beHop i 5 vc) s (fun t => t.be.items = s.be.items.erase x ++ (if vc.val = 0 ∧
      hType x.pkt.hdr ≠ 4 then [BeItem.start { hdr := g, data := [] } 6 i.ni 4 s.now x.own] else []) ∧ s.keepsElse t [.be,
      .ports] (fun _ => false))) ∧
    (∀ (i : NiId), niExists i.die i.ni →
      Leads (.creditReturn i) s (fun t => t.be.due = s.be.due.filter (fun c => !(c.at i.die i.ni && decide (c.readyAt ≤ s.now))) ∧
      t.be.items = s.be.items ∧ s.keepsElse t [.be] (fun _ => false))) ∧
    (∀ (i : NiId) (c : CreditDue), niExists i.die i.ni → s.be.due = [c] → c.at i.die i.ni → c.readyAt ≤ s.now →
      tget (fun _ => []) s.be.charges c.key = [] →
      Leads (.creditReturn i) s (fun t => tget (fun _ => 0) t.be.usedOrd c.key = tget (fun _ => 0) s.be.usedOrd c.key - c.ordinary ∧
      tget (fun _ => 0) t.be.usedRsv c.key = tget (fun _ => 0) s.be.usedRsv c.key - c.reserved ∧ t.be.due = [] ∧
      t.be.items = s.be.items)) ∧
    (∀ (i : NiId) (c : CreditDue) (b : Bool) (r : List Bool), niExists i.die i.ni → s.be.due = [c] → c.at i.die i.ni →
      c.readyAt ≤ s.now → c.ordinary + c.reserved = 1 → tget (fun _ => []) s.be.charges c.key = b :: r →
      Leads (.creditReturn i) s (fun t => tget (fun _ => 0) t.be.usedOrd c.key = tget (fun _ => 0) s.be.usedOrd c.key - (if b then 0 else 1) ∧
      tget (fun _ => 0) t.be.usedRsv c.key = tget (fun _ => 0) s.be.usedRsv c.key - (if b then 1 else 0) ∧
      tget (fun _ => []) t.be.charges c.key = r ∧ t.be.items = s.be.items)) ∧
    (∀ (i : NiId) (p : Fin 7), s.niLive i.die i.ni → s.fld (aBE_CFG i.die i.ni) fBE_CFG_AGE ≠ 0 →
      Leads (.headerAged i p) s (fun t => t.be.items = s.be.items.map (fun x => if x.d = i.die ∧ x.n = i.ni ∧ x.inp = p.val ∧
      x.waits s.now ∧ x.landAt + s.fld (aBE_CFG i.die i.ni) fBE_CFG_AGE ≤ s.now then { x with aged := true } else x) ∧
      t = { s with be := { s.be with items := t.be.items } })) ∧
    (∀ (i : NiId) (p : Fin 7), s.fld (aBE_CFG i.die i.ni) fBE_CFG_AGE = 0 → exec (.headerAged i p) s = .next (s)) ∧
    (∀ (i : NiId), s.niLive i.die i.ni → s.fld (aBE_TMO i.die i.ni) fBE_TMO_STALL ≠ 0 →
      s.be.items.any (fun x => x.d == i.die && x.n == i.ni && x.waits s.now && decide (x.landAt + 4096 * s.fld (aBE_TMO i.die i.ni) fBE_TMO_STALL ≤ s.now)) →
      Leads (.stallDetect i) s (fun t => t.bit (aBE_FLAG i.die i.ni) fBE_FLAG_STALL ∧ s.keepsElse t [.ev,
      .hw] (among [aBE_FLAG i.die i.ni]))) ∧
    (∀ (i : NiId), (s.fld (aBE_TMO i.die i.ni) fBE_TMO_STALL = 0 ∨
      s.be.items.any (fun x => x.d == i.die && x.n == i.ni && x.waits s.now && decide (x.landAt + 4096 * s.fld (aBE_TMO i.die i.ni) fBE_TMO_STALL ≤ s.now)) = false) →
      exec (.stallDetect i) s = .next (s)) ∧
    (∀ (i : NiId) (x : BeItem), niExists i.die i.ni → s.inReset i.die = false → s.runs → s.ejected i.die i.ni 0 = some x →
      hFormOk x.pkt.hdr → hNdata x.pkt.hdr = x.pkt.data.length → i.die < 6 → s.niAccepts i.die i.ni →
      s.bit (aSP_STAT i.die i.ni) fSP_STAT_SPILLING = false → s.treqRoom i.die i.ni x.pkt →
      Leads (.bePacketArrive i) s (fun t => (t.ni i.die i.ni).fifo2 = (s.ni i.die i.ni).fifo2 ++ pktFlits x.pkt ∧
      (t.ni i.die i.ni).served = (s.ni i.die i.ni).served ++ (if hType x.pkt.hdr = 4 then [] else [x.pkt.hdr]) ∧
      t.be.items = s.be.items.erase x ∧ s.keepsElse t [.ev, .hw, .be, .nis, .ports] (among [aFIFO_STAT i.die i.ni 2]))) ∧
    (∀ (i : NiId) (x : BeItem), niExists i.die i.ni → s.inReset i.die = false → s.runs → s.ejected i.die i.ni 0 = some x →
      hFormOk x.pkt.hdr → hNdata x.pkt.hdr = x.pkt.data.length → i.die < 6 → s.niAccepts i.die i.ni →
      (s.bit (aSP_STAT i.die i.ni) fSP_STAT_SPILLING ∨ s.treqRoom i.die i.ni x.pkt = false) →
      exec (.bePacketArrive i) s = .next (s)) ∧
    (∀ (i : NiId) (x : BeItem) (g : BitVec 256), niExists i.die i.ni → s.inReset i.die = false → s.runs →
      s.ejected i.die i.ni 0 = some x → hFormOk x.pkt.hdr → hNdata x.pkt.hdr = x.pkt.data.length →
      s.niAccepts i.die i.ni = false → isCollectorMsg i.die x.pkt.hdr = false → (hType x.pkt.hdr = 4 ∨
      s.routeResponse i.die i.ni (s.responseHdr i.die i.ni x.pkt.hdr 1) = .to g) →
      Leads (.bePacketArrive i) s (fun t => t.be.items = s.be.items.erase x ++ (if hType x.pkt.hdr = 4 then [] else [BeItem.start { hdr := g, data := [] } i.die i.ni 4 s.now x.own]) ∧
      t.nis = s.nis ∧ s.keepsElse t [.be, .ports] (fun _ => false))) ∧
    (∀ (i : NiId) (x : BeItem), niExists i.die i.ni → s.inReset i.die = false → s.runs → s.ejected i.die i.ni 0 = some x →
      hFormOk x.pkt.hdr → hNdata x.pkt.hdr = x.pkt.data.length → i.die = 6 → s.niAccepts 6 i.ni → x.raw = false →
      hType x.pkt.hdr ≠ 4 → memClass (classOf (hAddr x.pkt.hdr % 2 ^ 48)) →
      Leads (.bePacketArrive i) s (fun t => t.be.items = s.be.items.erase x ∧
      t.mq = s.mq ++ [s.memReqOf x.pkt (0x10 + i.ni) (.packet i.ni x.pkt.hdr x.own)] ∧ s.keepsElse t [.be, .ports,
      .mq] (fun _ => false))) ∧
    (∀ (i : NiId) (x : BeItem), niExists i.die i.ni → s.inReset i.die = false → s.runs → s.ejected i.die i.ni 0 = some x →
      hFormOk x.pkt.hdr → hNdata x.pkt.hdr = x.pkt.data.length → i.die = 6 → s.niAccepts 6 i.ni → x.raw = false →
      hType x.pkt.hdr = 4 → classOf (hAddr x.pkt.hdr % 2 ^ 48) = .bridge →
      Leads (.bePacketArrive i) s (fun t => t.be.items = s.be.items.erase x ∧
      t.ev.flight = s.ev.flight ++ [{ addr := BitVec.ofNat 64 (hAddr x.pkt.hdr), srcDev := BitVec.ofNat 16 (hget x.pkt.hdr 1 15 0), srcDie := hget x.pkt.hdr 1 24 22, pri := hPri x.pkt.hdr }] ∧
      s.keepsElse t [.be, .ports, .ev] (fun _ => false))) ∧
    (∀ (i : NiId) (x : BeItem) (g : BitVec 256), niExists i.die i.ni → s.inReset i.die = false → s.runs →
      s.ejected i.die i.ni 0 = some x → hFormOk x.pkt.hdr → hNdata x.pkt.hdr = x.pkt.data.length → i.die = 6 →
      s.niAccepts 6 i.ni → x.raw = true → s.onward i.ni x.pkt.hdr = .to g →
      Leads (.bePacketArrive i) s (fun t => t.be.items = s.be.items.erase x ++ [{ BeItem.start { x.pkt with hdr := g } 6 i.ni 4 s.now x.own with port := x.port }] ∧
      s.keepsElse t [.be, .ports] (fun _ => false))) ∧
    (∀ (i : NiId) (x : BeItem), niExists i.die i.ni → s.inReset i.die = false → s.runs → s.ejected i.die i.ni 0 = some x →
      (hFormOk x.pkt.hdr = false ∨ hNdata x.pkt.hdr ≠ x.pkt.data.length) → Leads (.bePacketArrive i) s (fun t => t.nis = s.nis ∧
      t.be.items = s.be.items.erase x ∧ t.bit (aNI_ERR i.die i.ni) fNI_ERR_BAD_TYPE ∧ s.keepsElse t [.ev, .hw, .be,
      .ports] (among [aNI_ERR i.die i.ni]))) ∧
    (∀ (i : NiId) (x : BeItem) (q : Outst), niExists i.die i.ni → s.inReset i.die = false → s.runs →
      s.ejected i.die i.ni 1 = some x → hFormOk x.pkt.hdr → hNdata x.pkt.hdr = x.pkt.data.length → (¬ (i.die = 6 ∧ x.raw)) →
      x.own = 0 → (s.ni i.die i.ni).outst.find? (fun o => o.tag == hTag x.pkt.hdr) = some q → q.client = none →
      Leads (.beResponseArrive i) s (fun t => (t.ni i.die i.ni).fifo1 = (s.ni i.die i.ni).fifo1 ++ pktFlits x.pkt ∧
      (t.ni i.die i.ni).outst = dropFirst (fun o => o.tag == q.tag) (s.ni i.die i.ni).outst ∧
      (t.ni i.die i.ni).rsv = (s.ni i.die i.ni).rsv - q.places ∧ t.be.items = s.be.items.erase x ∧ s.keepsElse t [.ev, .hw, .be,
      .nis, .ports] (among [aFIFO_STAT i.die i.ni 1]))) ∧
    (∀ (i : NiId) (x : BeItem) (q : Outst) (c : Origin), niExists i.die i.ni → s.inReset i.die = false → s.runs →
      s.ejected i.die i.ni 1 = some x → hFormOk x.pkt.hdr → hNdata x.pkt.hdr = x.pkt.data.length → (¬ (i.die = 6 ∧ x.raw)) →
      x.own = 0 → (s.ni i.die i.ni).outst.find? (fun o => o.tag == hTag x.pkt.hdr) = some q → q.client = some c → c ≠ .outside →
      Leads (.beResponseArrive i) s (fun t => t.rsps = s.rsps ++ [{ origin := c, status := hget x.pkt.hdr 6 19 17, addr := hAddr q.hdr, data := flitBytes (hStart q.hdr) (hCount q.hdr) x.pkt.data }] ∧
      (t.ni i.die i.ni).outst = dropFirst (fun o => o.tag == q.tag) (s.ni i.die i.ni).outst ∧
      (t.ni i.die i.ni).rsv = (s.ni i.die i.ni).rsv - q.places ∧ t.be.items = s.be.items.erase x ∧ s.keepsElse t [.be, .nis,
      .ports, .rsps] (fun _ => false))) ∧
    (∀ (i : NiId) (x : BeItem), niExists i.die i.ni → s.inReset i.die = false → s.runs → s.ejected i.die i.ni 1 = some x →
      hFormOk x.pkt.hdr → hNdata x.pkt.hdr = x.pkt.data.length → (¬ (i.die = 6 ∧ x.raw)) → x.own = 0 →
      (∀ o ∈ (s.ni i.die i.ni).outst, o.tag ≠ hTag x.pkt.hdr) →
      Leads (.beResponseArrive i) s (fun t => t.be.items = s.be.items.erase x ∧ t.nis = s.nis ∧
      t.bit (aBE_FLAG i.die i.ni) fBE_FLAG_LATE_RSP ∧ s.keepsElse t [.ev, .hw, .be, .ports] (among [aBE_FLAG i.die i.ni]))) ∧
    (∀ (i : NiId) (x : BeItem), niExists i.die i.ni → s.inReset i.die = false → s.runs → s.ejected i.die i.ni 1 = some x →
      hFormOk x.pkt.hdr → hNdata x.pkt.hdr = x.pkt.data.length → (¬ (i.die = 6 ∧ x.raw)) → x.own = 1 →
      Leads (.beResponseArrive i) s (fun t => t.be.items = s.be.items.erase x ∧
      (t.ni i.die i.ni).spillRsp = (s.ni i.die i.ni).spillRsp ++ [(hTag x.pkt.hdr, hget x.pkt.hdr 6 19 17)] ∧
      s.keepsElse t [.be, .nis, .ports] (fun _ => false))) ∧
    (∀ (i : NiId) (x : BeItem), niExists i.die i.ni → s.inReset i.die = false → s.runs → s.ejected i.die i.ni 1 = some x →
      hFormOk x.pkt.hdr → hNdata x.pkt.hdr = x.pkt.data.length → (¬ (i.die = 6 ∧ x.raw)) → x.own = 2 →
      Leads (.beResponseArrive i) s (fun t => t.be.items = s.be.items.erase x ∧
      (t.ni i.die i.ni).replay = some (((s.ni i.die i.ni).replay.getD []) ++ flitBytes 0 256 x.pkt.data) ∧
      (t.ni i.die i.ni).replayStatus = hget x.pkt.hdr 6 19 17 ∧
      (t.ni i.die i.ni).replayRead = (s.ni i.die i.ni).replayRead + 1 ∧ s.keepsElse t [.be, .nis, .ports] (fun _ => false))) ∧
    (∀ (i : NiId) (g : BitVec 10) (q : Outst) (k : Nat), s.niLive i.die i.ni →
      (s.ni i.die i.ni).outst.find? (fun o => o.tag == g.toNat) = some q → q.deadline = some k → k ≤ s.now → q.client = none →
      Leads (.beTimeout i g) s (fun t => (t.ni i.die i.ni).fifo1 = (s.ni i.die i.ni).fifo1 ++ pktFlits (localRsp q.hdr 2) ∧
      (t.ni i.die i.ni).outst = dropFirst (fun o => o.tag == q.tag) (s.ni i.die i.ni).outst ∧
      (t.ni i.die i.ni).rsv = (s.ni i.die i.ni).rsv - q.places ∧ t.bit (aBE_FLAG i.die i.ni) fBE_FLAG_TIMEOUT ∧
      s.keepsElse t [.ev, .hw, .nis] (among [aFIFO_STAT i.die i.ni 1, aBE_FLAG i.die i.ni]))) ∧
    (∀ (i : NiId) (g : BitVec 10) (q : Outst) (k : Nat) (c : Origin), s.niLive i.die i.ni →
      (s.ni i.die i.ni).outst.find? (fun o => o.tag == g.toNat) = some q → q.deadline = some k → k ≤ s.now → q.client = some c →
      c ≠ .outside → Leads (.beTimeout i g) s (fun t => t.rsps.length = s.rsps.length + 1 ∧
      (t.rsps.getLast?).any (fun r => decide (r.origin = c) && r.status == 2) ∧
      (t.ni i.die i.ni).outst = dropFirst (fun o => o.tag == q.tag) (s.ni i.die i.ni).outst ∧
      (t.ni i.die i.ni).rsv = (s.ni i.die i.ni).rsv - q.places ∧ t.bit (aBE_FLAG i.die i.ni) fBE_FLAG_TIMEOUT ∧
      s.keepsElse t [.ev, .hw, .nis, .rsps] (among [aBE_FLAG i.die i.ni])))

/-- A write of DIS to an enabled NI starts the disable with EN still 1; FORCE ends what is outstanding at once; when accepted
work is done the NI waits for the period boundary, where it sets DRAINED, with its flag, and clears EN. DIS written 0 before
that cancels the disable. EN clears DRAINED. LOOP changes only in a drained NI, never on a hub NI. Model choices it rests on:
log entry 43. (05_weave_best_effort.md R123 to R125, 18_test_and_loopbacks.md R420) -/
def Obligations.NiDisableAndEnable : Prop :=
  ∀ s : State, s.Inv →
    (∀ (m : Rm) (i : NiId), niExists i.die i.ni → s.ringReady m (aNI_CTRL i.die i.ni) → s.bit (aNI_CTRL i.die i.ni) fNI_CTRL_EN →
      s.bit (aNI_CTRL i.die i.ni) fNI_CTRL_DIS = false →
      Writes (.niDisable m i) m (aNI_CTRL i.die i.ni) (putF (putF (s.reg (aNI_CTRL i.die i.ni)) fNI_CTRL_DIS 1) fNI_CTRL_FORCE 0) .ok s (fun u => (u.ni i.die i.ni).disStep = 2 ∧
      u.bit (aNI_CTRL i.die i.ni) fNI_CTRL_EN ∧ u.bit (aNI_CTRL i.die i.ni) fNI_CTRL_DIS ∧
      u.bit (aNI_CTRL i.die i.ni) fNI_CTRL_FORCE = false ∧ s.keepsElse u [.nis] (among [(aNI_CTRL i.die i.ni)]))) ∧
    (∀ (m : Rm) (i : NiId), niExists i.die i.ni → s.ringReady m (aNI_CTRL i.die i.ni) →
      (s.bit (aNI_CTRL i.die i.ni) fNI_CTRL_EN = false ∨ s.bit (aNI_CTRL i.die i.ni) fNI_CTRL_DIS) →
      Writes (.niDisable m i) m (aNI_CTRL i.die i.ni) (putF (putF (s.reg (aNI_CTRL i.die i.ni)) fNI_CTRL_DIS 1) fNI_CTRL_FORCE 0) .ok s (fun u => u = s.setReg (aNI_CTRL i.die i.ni) (putF (putF (s.reg (aNI_CTRL i.die i.ni)) fNI_CTRL_DIS 1) fNI_CTRL_FORCE 0))) ∧
    (∀ (m : Rm) (i : NiId), niExists i.die i.ni → s.ringReady m (aNI_CTRL i.die i.ni) → ((s.ni i.die i.ni).disStep = 2 ∨
      (s.bit (aNI_CTRL i.die i.ni) fNI_CTRL_EN ∧ s.bit (aNI_CTRL i.die i.ni) fNI_CTRL_DIS = false)) →
      Writes (.niForcedDisable m i) m (aNI_CTRL i.die i.ni) (putF (putF (s.reg (aNI_CTRL i.die i.ni)) fNI_CTRL_DIS 1) fNI_CTRL_FORCE 1) .ok s (fun u => (u.ni i.die i.ni).disStep = 2 ∧
      (u.ni i.die i.ni).staging = [] ∧ (u.ni i.die i.ni).egress = [] ∧ (u.ni i.die i.ni).fifo2 = [] ∧
      (u.ni i.die i.ni).served = [] ∧ (u.ni i.die i.ni).outst = [] ∧ u.bit (aNI_CTRL i.die i.ni) fNI_CTRL_FORCE ∧
      u.bit (aNI_CTRL i.die i.ni) fNI_CTRL_DIS ∧ s.keepsElse u [.be, .ev, .hw, .nis, .rsps] (among [(aNI_CTRL i.die i.ni),
      aFIFO_STAT i.die i.ni 1, aNI_ERR i.die i.ni]))) ∧
    (∀ (i : NiId), s.niLive i.die i.ni → (s.ni i.die i.ni).disStep = 2 → (s.ni i.die i.ni).outst = [] →
      (s.ni i.die i.ni).served = [] → ((s.ni i.die i.ni).fifo2 = [] ∨ s.niForced i.die i.ni) →
      firstPacket (s.ni i.die i.ni).fifo3 [] = none → (s.ni i.die i.ni).spillHeld = [] → (s.ni i.die i.ni).replay = none →
      s.spCount i.die i.ni = 0 → (i.die ≠ 6 ∨
      s.mq.all (fun r => match r.origin with | .packet n _ _ => n != i.ni | _ => true)) →
      exec (.niDrainComplete i) s = .next (s.setNi i.die i.ni { (s.ni i.die i.ni) with disStep := 3 })) ∧
    (∀ (i : NiId), ((s.ni i.die i.ni).disStep ≠ 2 ∨ (s.ni i.die i.ni).outst ≠ [] ∨ (s.ni i.die i.ni).served ≠ [] ∨
      (s.ni i.die i.ni).spillHeld ≠ [] ∨ s.spCount i.die i.ni ≠ 0) → exec (.niDrainComplete i) s = .next (s)) ∧
    (∀ (i : NiId), s.niLive i.die i.ni → (s.ni i.die i.ni).disStep = 3 → (s.bit aPAT_STATUS fPAT_STATUS_RUN = false ∨
      s.period = 0 ∨ s.tickN % s.period = 0) → Leads (.niDisableBoundary i) s (fun t => (t.ni i.die i.ni).disStep = 0 ∧
      t.bit (aNI_CTRL i.die i.ni) fNI_CTRL_EN = false ∧ t.bit (aNI_STATUS i.die i.ni) fNI_STATUS_DRAINED ∧
      t.bit (aBE_FLAG i.die i.ni) fBE_FLAG_DRAINED ∧ s.keepsElse t [.ev, .hw, .nis] (among [(aNI_CTRL i.die i.ni),
      aNI_STATUS i.die i.ni, aBE_FLAG i.die i.ni]))) ∧
    (∀ (i : NiId), ((s.ni i.die i.ni).disStep ≠ 3 ∨ (s.bit aPAT_STATUS fPAT_STATUS_RUN ∧ s.period ≠ 0 ∧ s.tickN % s.period ≠ 0)) →
      exec (.niDisableBoundary i) s = .next (s)) ∧
    (∀ (m : Rm) (i : NiId), niExists i.die i.ni → s.ringReady m (aNI_CTRL i.die i.ni) →
      Writes (.niDisableCancel m i) m (aNI_CTRL i.die i.ni) (putF (putF (s.reg (aNI_CTRL i.die i.ni)) fNI_CTRL_DIS 0) fNI_CTRL_FORCE 0) .ok s (fun u => (u.ni i.die i.ni).disStep = 0 ∧
      u.bit (aNI_CTRL i.die i.ni) fNI_CTRL_DIS = false ∧
      u.bit (aNI_CTRL i.die i.ni) fNI_CTRL_EN = s.bit (aNI_CTRL i.die i.ni) fNI_CTRL_EN ∧
      s.keepsElse u [.nis] (among [(aNI_CTRL i.die i.ni), aNI_STATUS i.die i.ni]))) ∧
    (∀ (m : Rm) (i : NiId), niExists i.die i.ni → s.ringReady m (aNI_CTRL i.die i.ni) →
      Writes (.niEnable m i) m (aNI_CTRL i.die i.ni) (putF (putF (putF (s.reg (aNI_CTRL i.die i.ni)) fNI_CTRL_DIS 0) fNI_CTRL_FORCE 0) fNI_CTRL_EN 1) .ok s (fun u => (u.ni i.die i.ni).disStep = 0 ∧
      u.bit (aNI_CTRL i.die i.ni) fNI_CTRL_EN ∧ u.bit (aNI_CTRL i.die i.ni) fNI_CTRL_DIS = false ∧
      u.bit (aNI_STATUS i.die i.ni) fNI_STATUS_DRAINED = false ∧ s.keepsElse u [.nis] (among [(aNI_CTRL i.die i.ni),
      aNI_STATUS i.die i.ni]))) ∧
    (∀ (m : Rm) (i : NiId) (b : Bool), niExists i.die i.ni → s.ringReady m (aNI_CTRL i.die i.ni) →
      (b = s.bit (aNI_CTRL i.die i.ni) fNI_CTRL_LOOP ∨ (i.die ≠ 6 ∧ s.bit (aNI_STATUS i.die i.ni) fNI_STATUS_DRAINED)) →
      Writes (.niLoop m i b) m (aNI_CTRL i.die i.ni) (putF (s.reg (aNI_CTRL i.die i.ni)) fNI_CTRL_LOOP (if b then 1 else 0)) .ok s (fun u => u.bit (aNI_CTRL i.die i.ni) fNI_CTRL_LOOP = b ∧
      u.bit (aNI_CTRL i.die i.ni) fNI_CTRL_EN = s.bit (aNI_CTRL i.die i.ni) fNI_CTRL_EN ∧ s.keepsElse u [.be, .ev, .hw, .nis,
      .rsps] (niBlock i.die i.ni))) ∧
    (∀ (m : Rm) (i : NiId) (b : Bool), niExists i.die i.ni → s.ringReady m (aNI_CTRL i.die i.ni) →
      b ≠ s.bit (aNI_CTRL i.die i.ni) fNI_CTRL_LOOP → (i.die = 6 ∨ s.bit (aNI_STATUS i.die i.ni) fNI_STATUS_DRAINED = false) →
      Writes (.niLoop m i b) m (aNI_CTRL i.die i.ni) (putF (s.reg (aNI_CTRL i.die i.ni)) fNI_CTRL_LOOP (if b then 1 else 0)) .refused s (fun u => u = s))

/-- SP_CTRL.EN is refused for a region outside DRAM and zeroes the read pointer where it rises; EN written 0 is refused while
records are held and clears BROKEN otherwise. Spilling starts when TREQ has been full for the threshold with a header waiting.
The oldest request becomes a record whose line 1 is written first, then line 0; with that the record counts, and a failed
write breaks the region. Replay reads the record at SP_RP, line 1 after line 0 where there is data; a good record enters TREQ,
one that was read with an error is skipped with SPILL_ERR. Model choices it rests on: log entries 39, 41, 139.
(05_weave_best_effort.md R113 to R119, R124) -/
def Obligations.SpillAndReplay : Prop :=
  ∀ s : State, s.Inv →
    (∀ (m : Rm) (i : NiId) (v : W32), niExists i.die i.ni → s.ringReady m (aSP_CTRL i.die i.ni) → getB v fSP_CTRL_EN →
      s.spRegionOk i.die i.ni → s.bit (aSP_CTRL i.die i.ni) fSP_CTRL_EN = false →
      Writes (.spillEnable m i v) m (aSP_CTRL i.die i.ni) v .ok s (fun u => u.bit (aSP_CTRL i.die i.ni) fSP_CTRL_EN ∧
      u.fld (aSP_RP i.die i.ni) fSP_RP_RP = 0 ∧ (u.ni i.die i.ni).spillSeq = 0 ∧ s.keepsElse u [.nis,
      .hw] (among [(aSP_CTRL i.die i.ni), (aSP_RP i.die i.ni)]))) ∧
    (∀ (m : Rm) (i : NiId) (v : W32), niExists i.die i.ni → s.ringReady m (aSP_CTRL i.die i.ni) → getB v fSP_CTRL_EN →
      s.spRegionOk i.die i.ni → s.bit (aSP_CTRL i.die i.ni) fSP_CTRL_EN →
      Writes (.spillEnable m i v) m (aSP_CTRL i.die i.ni) v .ok s (fun u => u.bit (aSP_CTRL i.die i.ni) fSP_CTRL_EN ∧
      s.keepsElse u [.hw] (fun _ => false))) ∧
    (∀ (m : Rm) (i : NiId) (v : W32), niExists i.die i.ni → s.ringReady m (aSP_CTRL i.die i.ni) → getB v fSP_CTRL_EN = false →
      (s.bit (aSP_CTRL i.die i.ni) fSP_CTRL_EN = false ∨ s.spCount i.die i.ni = 0) →
      Writes (.spillEnable m i v) m (aSP_CTRL i.die i.ni) v .ok s (fun u => u.bit (aSP_CTRL i.die i.ni) fSP_CTRL_EN = false ∧
      u.bit (aSP_STAT i.die i.ni) fSP_STAT_BROKEN = false ∧ s.keepsElse u [] (among [(aSP_CTRL i.die i.ni),
      (aSP_STAT i.die i.ni)]))) ∧
    (∀ (m : Rm) (i : NiId) (v : W32), niExists i.die i.ni → s.ringReady m (aSP_CTRL i.die i.ni) → ((getB v fSP_CTRL_EN ∧
      s.spRegionOk i.die i.ni = false) ∨ (getB v fSP_CTRL_EN = false ∧ s.bit (aSP_CTRL i.die i.ni) fSP_CTRL_EN ∧
      s.spCount i.die i.ni ≠ 0)) → Writes (.spillEnable m i v) m (aSP_CTRL i.die i.ni) v .refused s (fun u => u = s)) ∧
    (∀ (i : NiId) (k : Nat), s.niLive i.die i.ni → (s.ni i.die i.ni).fullSince = some k →
      s.bit (aSP_CTRL i.die i.ni) fSP_CTRL_EN → s.bit (aSP_STAT i.die i.ni) fSP_STAT_BROKEN = false →
      s.bit (aSP_STAT i.die i.ni) fSP_STAT_SPILLING = false → (s.ni i.die i.ni).full 2 → s.headerWaits i.die i.ni 0 →
      k + max 16 (s.fld (aBE_CFG i.die i.ni) fBE_CFG_SPILL_THR) ≤ s.now →
      Leads (.spillStart i) s (fun t => t.bit (aSP_STAT i.die i.ni) fSP_STAT_SPILLING ∧
      t.bit (aBE_FLAG i.die i.ni) fBE_FLAG_SPILL_START ∧ s.keepsElse t [.ev, .hw] (among [(aSP_STAT i.die i.ni),
      (aBE_FLAG i.die i.ni)]))) ∧
    (∀ (i : NiId) (x : BeItem), s.niLive i.die i.ni → s.niAccepts i.die i.ni → s.ejected i.die i.ni 0 = some x →
      s.bit (aSP_STAT i.die i.ni) fSP_STAT_SPILLING → s.bit (aSP_STAT i.die i.ni) fSP_STAT_BROKEN = false →
      (s.ni i.die i.ni).spillHeld = [] → s.spCount i.die i.ni < s.spSize i.die i.ni → hFormOk x.pkt.hdr →
      hNdata x.pkt.hdr = x.pkt.data.length →
      Leads (.spillRecordWrite i) s (fun t => (t.ni i.die i.ni).spillHeld = [{ pkt := x.pkt, index := (s.fld (aSP_RP i.die i.ni) fSP_RP_RP + s.spCount i.die i.ni) % s.spSize i.die i.ni, tick := s.tickN - (s.now - x.landAt), seq := (s.ni i.die i.ni).spillSeq, step := 0 }] ∧
      (t.ni i.die i.ni).spillSeq = ((s.ni i.die i.ni).spillSeq + 1) % 4294967296 ∧ s.be.items.length ≤ t.be.items.length + 1 ∧
      s.keepsElse t [.be, .nis, .ports] (fun _ => false))) ∧
    (∀ (i : NiId) (g : Nat) (q : SpillHeld) (l : List SpillHeld) (r : List (Nat × Nat)), niExists i.die i.ni →
      (s.ni i.die i.ni).spillHeld = q :: l → (s.ni i.die i.ni).spillRsp = (g, 0) :: r → q.step ≠ 0 →
      s.spCount i.die i.ni + 1 < s.spSize i.die i.ni →
      Leads (.spillWriteResponse i) s (fun t => t.spCount i.die i.ni = s.spCount i.die i.ni + 1 ∧
      (t.ni i.die i.ni).spillRsp = r ∧ (t.ni i.die i.ni).spillHeld = [] ∧ s.keepsElse t [.nis] (among [(aSP_STAT i.die i.ni)]))) ∧
    (∀ (i : NiId) (g : Nat) (q : SpillHeld) (l : List SpillHeld) (r : List (Nat × Nat)), niExists i.die i.ni →
      (s.ni i.die i.ni).spillHeld = q :: l → (s.ni i.die i.ni).spillRsp = (g, 0) :: r → q.step ≠ 0 →
      s.spCount i.die i.ni + 1 = s.spSize i.die i.ni →
      Leads (.spillWriteResponse i) s (fun t => (t.ni i.die i.ni).spillHeld = [] ∧ t.bit (aSP_STAT i.die i.ni) fSP_STAT_FULL ∧
      t.bit (aBE_FLAG i.die i.ni) fBE_FLAG_SPILL_FULL ∧ s.keepsElse t [.nis, .ev, .hw] (among [(aSP_STAT i.die i.ni),
      (aBE_FLAG i.die i.ni)]))) ∧
    (∀ (i : NiId) (g : Nat) (q : SpillHeld) (l : List SpillHeld) (r : List (Nat × Nat)), niExists i.die i.ni →
      (s.ni i.die i.ni).spillHeld = q :: l → (s.ni i.die i.ni).spillRsp = (g, 0) :: r → q.step = 0 →
      Leads (.spillWriteResponse i) s (fun t => (t.ni i.die i.ni).spillHeld = [{ q with step := 1 }] ∧ t.regs = s.regs ∧
      s.keepsElse t [.be, .nis] (fun _ => false))) ∧
    (∀ (i : NiId) (g e : Nat) (q : SpillHeld) (l : List SpillHeld) (r : List (Nat × Nat)), niExists i.die i.ni →
      (s.ni i.die i.ni).spillHeld = q :: l → (s.ni i.die i.ni).spillRsp = (g, e) :: r → e ≠ 0 →
      Leads (.spillWriteResponse i) s (fun t => (t.ni i.die i.ni).spillHeld = [] ∧ t.bit (aSP_STAT i.die i.ni) fSP_STAT_BROKEN ∧
      t.bit (aSP_STAT i.die i.ni) fSP_STAT_SPILLING = (s.spCount i.die i.ni != 0) ∧
      t.bit (aBE_FLAG i.die i.ni) fBE_FLAG_SPILL_ERR ∧ s.keepsElse t [.be, .nis, .ev, .hw] (among [(aSP_STAT i.die i.ni),
      (aBE_FLAG i.die i.ni), aNI_ERR i.die i.ni]))) ∧
    (∀ (i : NiId), s.niLive i.die i.ni → s.spCount i.die i.ni ≠ 0 → (s.ni i.die i.ni).replay = none →
      ((s.ni i.die i.ni).held 2 + 9 ≤ 64 ∨ s.niForced i.die i.ni) →
      Leads (.spillReplay i) s (fun t => (t.ni i.die i.ni).replay = some [] ∧ ((t.ni i.die i.ni).replayRead = 0 ∨
      (t.ni i.die i.ni).replayStatus = 1) ∧ s.keepsElse t [.be, .nis] (fun _ => false))) ∧
    (∀ (i : NiId) (l : List Byte), niExists i.die i.ni → (s.ni i.die i.ni).replay = some l → (s.ni i.die i.ni).replayRead ≠ 0 →
      (s.ni i.die i.ni).replayStatus ≠ 0 → Leads (.replayReadResponse i) s (fun t => (t.ni i.die i.ni).replay = none ∧
      t.spCount i.die i.ni = s.spCount i.die i.ni - 1 ∧ (s.spSize i.die i.ni ≠ 0 →
      t.fld (aSP_RP i.die i.ni) fSP_RP_RP = (s.fld (aSP_RP i.die i.ni) fSP_RP_RP + 1) % s.spSize i.die i.ni) ∧
      t.bit (aBE_FLAG i.die i.ni) fBE_FLAG_SPILL_ERR ∧ (t.ni i.die i.ni).fifo2 = (s.ni i.die i.ni).fifo2 ∧ s.keepsElse t [.ev,
      .hw, .nis] (among [(aSP_STAT i.die i.ni), (aSP_RP i.die i.ni), (aBE_FLAG i.die i.ni)]))) ∧
    (∀ (i : NiId) (l : List Byte), niExists i.die i.ni → (s.ni i.die i.ni).replay = some l → (s.ni i.die i.ni).replayRead ≠ 0 →
      (s.ni i.die i.ni).replayStatus = 0 → s.niForced i.die i.ni = false → (l.getD 44 0).toNat ≠ 0 → l.length < 512 →
      Leads (.replayReadResponse i) s (fun t => (t.ni i.die i.ni).replay = some l ∧ ((t.ni i.die i.ni).replayRead = 0 ∨
      (t.ni i.die i.ni).replayStatus = 1) ∧ t.regs = s.regs ∧ s.keepsElse t [.be, .nis] (fun _ => false))) ∧
    (∀ (i : NiId) (l : List Byte), niExists i.die i.ni → (s.ni i.die i.ni).replay = some l → (s.ni i.die i.ni).replayRead ≠ 0 →
      (s.ni i.die i.ni).replayStatus = 0 → s.niForced i.die i.ni →
      Leads (.replayReadResponse i) s (fun t => (t.ni i.die i.ni).replay = none ∧
      t.spCount i.die i.ni = s.spCount i.die i.ni - 1 ∧ (s.spSize i.die i.ni ≠ 0 →
      t.fld (aSP_RP i.die i.ni) fSP_RP_RP = (s.fld (aSP_RP i.die i.ni) fSP_RP_RP + 1) % s.spSize i.die i.ni) ∧
      (t.ni i.die i.ni).fifo2 = (s.ni i.die i.ni).fifo2 ∧ s.keepsElse t [.be, .ev, .hw, .nis] (among [(aSP_STAT i.die i.ni),
      (aSP_RP i.die i.ni), aNI_ERR i.die i.ni]))) ∧
    (∀ (i : NiId) (q : Packet) (k n : Nat), niExists i.die i.ni → (s.ni i.die i.ni).replay = some (recordBytes q k n) →
      (s.ni i.die i.ni).replayRead ≠ 0 → (s.ni i.die i.ni).replayStatus = 0 → s.niForced i.die i.ni = false →
      q.data.length ≤ 8 → s.spCount i.die i.ni ≠ 0 → Leads (.replayReadResponse i) s (fun t => (t.ni i.die i.ni).replay = none ∧
      t.spCount i.die i.ni = s.spCount i.die i.ni - 1 ∧ (s.spSize i.die i.ni ≠ 0 →
      t.fld (aSP_RP i.die i.ni) fSP_RP_RP = (s.fld (aSP_RP i.die i.ni) fSP_RP_RP + 1) % s.spSize i.die i.ni) ∧
      (t.ni i.die i.ni).fifo2 = (s.ni i.die i.ni).fifo2 ++ pktFlits q ∧
      (t.ni i.die i.ni).served = (s.ni i.die i.ni).served ++ (if hType q.hdr = 4 then [] else [q.hdr]) ∧ s.keepsElse t [.ev,
      .hw, .nis] (among [(aSP_STAT i.die i.ni), (aSP_RP i.die i.ni), aFIFO_STAT i.die i.ni 2])))

/-- Clean edges take a module from CLOCK to DESKEW, the sweep to VERIFY, its counters to MASK with the mask they decide (full
training where they decide none), two agreeing words of both modules to FRAME with that mask, and 16 passing frames on a check
tick to RUN; an overrun starts full training. Two training words that ask for it retrain the opposite module. In RUN a passing
frame releases its scheduled positions by the crossing table and its best-effort ones whole; a stray is discarded with a
record of kind 4; a failing one counts CRC_ERR and starts a resync, full training soon after one, or the third mismatch
fences. A crossing frame appears 18 ticks after its check. Model choices it rests on: log entries 49, 50, 131, 133, 140.
(06_die_links.md R129 to R141, R144, R150, R151) -/
def Obligations.LinkTraining : Prop :=
  ∀ s : State, s.Inv →
    (∀ (l : LinkId) (w : W32), s.lmListens l → wordOk w →
      ({ s.lm (linkBase l) with lastWord := w, prevWord := (s.lm (linkBase l)).lastWord } : Lm).twice 4 4 ≠ some 1 →
      exec (.trainingWordReceive l w) s = .next (s.setLm (linkBase l) ({ s.lm (linkBase l) with lastWord := w, prevWord := (s.lm (linkBase l)).lastWord } : Lm))) ∧
    (∀ (l : LinkId) (w : W32), s.lmListens l → wordOk w →
      ({ s.lm (linkBase l) with lastWord := w, prevWord := (s.lm (linkBase l)).lastWord } : Lm).twice 4 4 = some 1 →
      Leads (.trainingWordReceive l w) s (fun t => (t.lm (oppBase (linkBase l))).askRetrain ∧ (t.lm (linkBase l)).lastWord = w ∧
      t.lmState (oppBase (linkBase l)) = (if s.lmState (oppBase (linkBase l)) = 6 then 4 else s.lmState (oppBase (linkBase l))) ∧
      (s.lmState (oppBase (linkBase l)) = 6 → t.bit (aLM_ERR (oppBase (linkBase l))) fLM_ERR_RESYNC) ∧ s.keepsElse t [.be, .ev,
      .hw, .lms] (among [aLM_STATUS (oppBase (linkBase l)), aLM_ERR (oppBase (linkBase l))]))) ∧
    (∀ (l : LinkId) (w : W32), (s.lmListens l = false ∨ wordOk w = false) → exec (.trainingWordReceive l w) s = .next (s)) ∧
    (∀ (l : LinkId) (c c2 : Bool), s.lmLive l → (c ∨ c2) → s.lmState (linkBase l) = 1 →
      (s.lm (linkBase l)).stageAt + 256 ≤ s.now → Leads (.linkClockDetect l c c2) s (fun t => t.lmState (linkBase l) = 2 ∧
      t.bit (aLM_STATUS (linkBase l)) fLM_STATUS_CLK_S = ((s.bit (aLM_CTRL (linkBase l)) fLM_CTRL_FCKS && c2) || !c) ∧
      t.bit (aLM_SBWIRE (linkBase l)) fLM_SBWIRE_FCK_BAD = !c ∧ t.bit (aLM_SBWIRE (linkBase l)) fLM_SBWIRE_FCKS_BAD = !c2 ∧
      (t.lm (linkBase l)).stageAt = s.now ∧ (t.lm (linkBase l)).clkGone = false ∧ s.keepsElse t [.hw,
      .lms] (among [aLM_STATUS (linkBase l), aLM_SBWIRE (linkBase l)]))) ∧
    (∀ (l : LinkId) (c c2 : Bool), (s.lmLive l = false ∨ (c = false ∧ c2 = false) ∨ s.lmState (linkBase l) ≠ 1 ∨
      s.now < (s.lm (linkBase l)).stageAt + 256) → exec (.linkClockDetect l c c2) s = .next (s)) ∧
    (∀ (l : LinkId), s.lmLive l → s.lmState (linkBase l) = 2 → (s.lm (linkBase l)).stageAt + 6144 ≤ s.now →
      Leads (.linkDeskewDone l) s (fun t => t.lmState (linkBase l) = 3 ∧ (t.lm (linkBase l)).stageAt = s.now ∧
      s.keepsElse t [.lms] (among [aLM_STATUS (linkBase l)]))) ∧
    (∀ (l : LinkId), (s.lmLive l = false ∨ s.lmState (linkBase l) ≠ 2 ∨ s.now < (s.lm (linkBase l)).stageAt + 6144) →
      exec (.linkDeskewDone l) s = .next (s)) ∧
    (∀ (l : LinkId) (e : BitVec 169) (g k : Nat), s.lmLive l → s.lmState (linkBase l) = 3 →
      (s.lm (linkBase l)).stageAt + 4096 ≤ s.now →
      decideMask e (s.lm (linkBase l)).margin (s.fld (aLM_CTRL (linkBase l)) fLM_CTRL_CAP) = some (g, k) →
      Leads (.linkVerifyDone l e) s (fun t => t.lmState (linkBase l) = 4 ∧
      (t.lm (linkBase l)).decided = BitVec.ofNat 8 (k + 32 * g) ∧ (t.lm (linkBase l)).margin = 0 ∧ (∀ j, j < 5 →
      t.reg (aLM_WIRE (linkBase l) j) = BitVec.ofNat 32 (bitsOf e.toNat (32 * j + 31) (32 * j))) ∧
      t.fld (aLM_SBWIRE (linkBase l)) fLM_SBWIRE_SB = bitsOf e.toNat 167 160 ∧
      t.bit (aLM_SBWIRE (linkBase l)) fLM_SBWIRE_VLD = e.getLsbD 168 ∧ s.keepsElse t [.hw, .lms] linkReg)) ∧
    (∀ (l : LinkId) (e : BitVec 169), s.lmLive l → s.lmState (linkBase l) = 3 → (s.lm (linkBase l)).stageAt + 4096 ≤ s.now →
      decideMask e (s.lm (linkBase l)).margin (s.fld (aLM_CTRL (linkBase l)) fLM_CTRL_CAP) = none →
      Leads (.linkVerifyDone l e) s (fun t => t.lmState (linkBase l) = 1 ∧ t.bit (aLM_ERR (linkBase l)) fLM_ERR_RETRAIN ∧ (∀ j,
      j < 5 → t.reg (aLM_WIRE (linkBase l) j) = BitVec.ofNat 32 (bitsOf e.toNat (32 * j + 31) (32 * j))) ∧ s.keepsElse t [.ev,
      .hw, .lms] linkReg)) ∧
    (∀ (l : LinkId) (e : BitVec 169), (s.lmLive l = false ∨ s.lmState (linkBase l) ≠ 3 ∨
      s.now < (s.lm (linkBase l)).stageAt + 4096) → exec (.linkVerifyDone l e) s = .next (s)) ∧
    (∀ (l : LinkId), s.lmLive l → s.lmState (linkBase l) = 4 →
      (s.lm (linkBase l)).twice 24 20 = some (bitsOf (s.lm (linkBase l)).decided.toNat 4 0) →
      (s.lm (linkBase l)).twice 19 17 = some (bitsOf (s.lm (linkBase l)).decided.toNat 7 5) →
      (s.lm (oppBase (linkBase l))).twice 12 8 = some (bitsOf (s.lm (linkBase l)).decided.toNat 4 0) →
      (s.lm (oppBase (linkBase l))).twice 7 5 = some (bitsOf (s.lm (linkBase l)).decided.toNat 7 5) →
      Leads (.linkMaskAgreed l) s (fun t => t.lmState (linkBase l) = 5 ∧
      t.lmMask (linkBase l) = bitsOf (s.lm (linkBase l)).decided.toNat 4 0 ∧
      t.fld (aLM_STATUS (linkBase l)) fLM_STATUS_SBG = bitsOf (s.lm (linkBase l)).decided.toNat 7 5 ∧
      (t.lm (linkBase l)).stageAt = s.now ∧ (t.lm (linkBase l)).passRun = 0 ∧
      s.keepsElse t [.lms] (among [aLM_STATUS (linkBase l)]))) ∧
    (∀ (l : LinkId), (s.lmLive l = false ∨ s.lmState (linkBase l) ≠ 4 ∨
      (s.lm (linkBase l)).twice 24 20 ≠ some (bitsOf (s.lm (linkBase l)).decided.toNat 4 0) ∨
      (s.lm (linkBase l)).twice 19 17 ≠ some (bitsOf (s.lm (linkBase l)).decided.toNat 7 5) ∨
      (s.lm (oppBase (linkBase l))).twice 12 8 ≠ some (bitsOf (s.lm (linkBase l)).decided.toNat 4 0) ∨
      (s.lm (oppBase (linkBase l))).twice 7 5 ≠ some (bitsOf (s.lm (linkBase l)).decided.toNat 7 5)) →
      exec (.linkMaskAgreed l) s = .next (s)) ∧
    (∀ (l : LinkId), s.lmLive l → s.lmState (linkBase l) = 5 → 16 ≤ (s.lm (linkBase l)).passRun → s.tickN % 4 = 2 →
      Leads (.linkFrameLock l) s (fun t => t.lmState (linkBase l) = 6 ∧
      t.fld (aLM_STATUS (linkBase l)) fLM_STATUS_WIDTH = maskWidth (s.lmMask (linkBase l)) ∧
      t.bit (aLM_STATUS (linkBase l)) fLM_STATUS_MARGIN_BAD = false ∧
      (maskWidth (s.lmMask (linkBase l)) < s.fld (aLM_STATUS (linkBase l)) fLM_STATUS_WIDTH →
      t.bit (aLM_ERR (linkBase l)) fLM_ERR_WIDTH_LOSS) ∧ (t.lm (linkBase l)).okFrom = s.now + 10 ∧
      (t.lm (linkBase l)).resyncAt = (if (s.lm (linkBase l)).inResync then some s.now else none) ∧ s.keepsElse t [.ev, .hw,
      .lms] (among [aLM_STATUS (linkBase l), aLM_ERR (linkBase l)]))) ∧
    (∀ (l : LinkId), (s.lmLive l = false ∨ s.lmState (linkBase l) ≠ 5 ∨ (s.lm (linkBase l)).passRun < 16 ∨ s.tickN % 4 ≠ 2) →
      exec (.linkFrameLock l) s = .next (s)) ∧
    (∀ (l : LinkId) (k : Nat), s.lmLive l → stageLimit (s.lmState (linkBase l)) = some k → (s.lmState (linkBase l) ≠ 1 ∨
      (s.lm (linkBase l)).clkGone = false) → (s.lm (linkBase l)).stageAt + k ≤ s.now →
      Leads (.linkStageTimeout l) s (fun t => t.lmState (linkBase l) = 1 ∧ t.bit (aLM_ERR (linkBase l)) fLM_ERR_STAGE_TMO ∧
      t.bit (aLM_ERR (linkBase l)) fLM_ERR_RETRAIN ∧ (t.lm (linkBase l)).stageAt = s.now ∧ s.keepsElse t [.ev, .hw,
      .lms] linkReg)) ∧
    (∀ (l : LinkId), (s.lmLive l = false ∨ stageLimit (s.lmState (linkBase l)) = none ∨ (s.lmState (linkBase l) = 1 ∧
      (s.lm (linkBase l)).clkGone) ∨ s.now < (s.lm (linkBase l)).stageAt + (stageLimit (s.lmState (linkBase l))).getD 0) →
      exec (.linkStageTimeout l) s = .next (s)) ∧
    (∀ (l : LinkId) (f : LinkFrame), s.lmLive l → s.tickN % 4 = 2 → s.lmState (linkBase l) = 5 → isCrossing (linkBase l) = false →
      s.framePasses (linkBase l) f →
      Leads (.linkFrameReceive l f) s (fun t => (t.lm (linkBase l)).passRun = (s.lm (linkBase l)).passRun + 1 ∧
      t.fld (aLM_STATUS (linkBase l)) fLM_STATUS_TX_MASK = frameMask f ∧ t.lmState (linkBase l) = 5 ∧
      s.keepsElse t [.lms] (among [aLM_STATUS (linkBase l)]))) ∧
    (∀ (l : LinkId) (f : LinkFrame), s.lmLive l → s.tickN % 4 = 2 → s.lmState (linkBase l) = 6 → isCrossing (linkBase l) = false →
      s.framePasses (linkBase l) f → f.vld = 0 → f.marginErr = false → frameRetrain f = false →
      (s.lm (linkBase l)).passRun < 1023 →
      Leads (.linkFrameReceive l f) s (fun t => (t.lm (linkBase l)).passRun = (s.lm (linkBase l)).passRun + 1 ∧
      t.lmState (linkBase l) = 6 ∧ (∀ i ∈ t.pat.flight, i ∈ s.pat.flight) ∧ t.be.items = s.be.items ∧ t.pat.log = s.pat.log ∧
      t.pat.store = s.pat.store ∧ s.keepsElse t [.be, .lms, .pat] (among [aLM_STATUS (linkBase l)]))) ∧
    (∀ (l : LinkId) (f : LinkFrame) (j w k : Nat), s.lmLive l → s.tickN % 4 = 2 → s.lmState (linkBase l) = 6 →
      isCrossing (linkBase l) = false → s.framePasses (linkBase l) f → j < 4 → frameClass f j = 3 →
      s.posEntry (linkBase l) (s.tickN + 2 + j + (if (linkDest (linkBase l)).2.1 = 7 then 4 else 0)) = some (w, k) →
      Leads (.linkFrameReceive l f) s (fun t => { flit := { valid := !frameMark f j, flow := w, cause := if frameMark f j then (framePos f j).toNat % 16 else 0, key := frameAttr f j, bank := k == 1, parityOk := true, payload := if frameMark f j then 0 else framePos f j }, loc := (linkDest (linkBase l)).1, due := s.now + 2 + j + (if (linkDest (linkBase l)).2.1 = 7 then 4 else 0) } ∈ t.pat.flight ∧
      t.fld (aLM_STATUS (linkBase l)) fLM_STATUS_TX_MASK = frameMask f ∧ s.keepsElse t [.be, .ev, .hw, .lms,
      .pat] (fun a => linkReg a || among [aSF_STATUS] a))) ∧
    (∀ (l : LinkId) (f : LinkFrame) (j : Nat), s.lmLive l → s.tickN % 4 = 2 → s.lmState (linkBase l) = 6 →
      isCrossing (linkBase l) = false → s.framePasses (linkBase l) f → j < 4 → frameClass f j = 3 →
      f.vld = BitVec.ofNat 8 (3 * 4 ^ j) →
      s.posEntry (linkBase l) (s.tickN + 2 + j + (if (linkDest (linkBase l)).2.1 = 7 then 4 else 0)) = none →
      s.pat.log.length < 16 →
      Leads (.linkFrameReceive l f) s (fun t => t.pat.log = s.pat.log ++ [{ kind := 4, flowA := 0, flowB := 0, die := (linkDest (linkBase l)).2.1, router := (linkDest (linkBase l)).2.2.1, port := 0, tick := BitVec.ofNat 32 s.tickN }] ∧
      t.showsEvent 24 ∧ (∀ i ∈ t.pat.flight, i ∈ s.pat.flight) ∧ s.keepsElse t [.be, .ev, .hw, .lms,
      .pat] (fun a => linkReg a || among [aSF_STATUS] a))) ∧
    (∀ (l : LinkId) (f : LinkFrame) (j : Nat) (c d n p : Nat), s.lmLive l → s.tickN % 4 = 2 → s.lmState (linkBase l) = 6 →
      isCrossing (linkBase l) = false → s.framePasses (linkBase l) f → j < 4 → 1 ≤ c → c ≤ 2 →
      f.vld = BitVec.ofNat 8 (c * 4 ^ j) → s.be.items.all (fun x => x.via != some (.link (linkBase l))) →
      linkInput (linkBase l) = some (d, n, p) → hNdata (framePos f j) = 0 →
      (if c = 1 then (s.lm (linkBase l)).rxReq else (s.lm (linkBase l)).rxRsp).isNone → frameRetrain f = false →
      Leads (.linkFrameReceive l f) s (fun t => t.be.items.length = s.be.items.length + 1 ∧
      t.be.items.take s.be.items.length = s.be.items ∧
      (t.be.items.drop s.be.items.length).all (fun x => x.pkt == { hdr := framePos f j, data := [] } && x.d == d && x.n == n && x.inp == p && x.via == some (.link (linkBase l))) ∧
      s.keepsElse t [.be, .ev, .hw, .lms, .pat] (fun a => linkReg a || among [aSF_STATUS] a))) ∧
    (∀ (l : LinkId) (f : LinkFrame), s.lmLive l → s.tickN % 4 = 2 → s.lmState (linkBase l) = 5 →
      s.framePasses (linkBase l) f = false → Leads (.linkFrameReceive l f) s (fun t => (t.lm (linkBase l)).passRun = 0 ∧
      t.lmState (linkBase l) = 5 ∧ t.bit (aLM_ERR (linkBase l)) fLM_ERR_CRC ∧ s.keepsElse t [.ev, .hw,
      .lms] (among [aLM_COUNT (linkBase l), aLM_ERR (linkBase l)]))) ∧
    (∀ (l : LinkId) (f : LinkFrame), s.lmLive l → s.tickN % 4 = 2 → s.lmState (linkBase l) = 6 →
      s.framePasses (linkBase l) f = false → (frameMask f = s.lmMask (linkBase l) ∨
      s.fld (aLM_STATUS (linkBase l)) fLM_STATUS_MISMATCH ≠ 2) →
      (s.lm (linkBase l)).resyncAt.all (fun k => decide (k + 65536 ≤ s.now)) →
      Leads (.linkFrameReceive l f) s (fun t => t.lmState (linkBase l) = 4 ∧ t.bit (aLM_ERR (linkBase l)) fLM_ERR_CRC ∧
      t.bit (aLM_ERR (linkBase l)) fLM_ERR_RESYNC ∧
      t.fld (aLM_COUNT (linkBase l)) fLM_COUNT_CRC_ERR = min (s.fld (aLM_COUNT (linkBase l)) fLM_COUNT_CRC_ERR + 1) 65535 ∧
      (frameMask f ≠ s.lmMask (linkBase l) → t.bit (aLM_ERR (linkBase l)) fLM_ERR_MISMATCH) ∧ (t.lm (linkBase l)).inResync ∧
      (t.lm (linkBase l)).lossFrom = s.now + 6 ∧ s.keepsElse t [.be, .ev, .hw, .lms] (among [aLM_STATUS (linkBase l),
      aLM_COUNT (linkBase l), aLM_ERR (linkBase l)]))) ∧
    (∀ (l : LinkId) (f : LinkFrame) (k : Nat), s.lmLive l → s.tickN % 4 = 2 → s.lmState (linkBase l) = 6 →
      s.framePasses (linkBase l) f = false → (frameMask f = s.lmMask (linkBase l) ∨
      s.fld (aLM_STATUS (linkBase l)) fLM_STATUS_MISMATCH ≠ 2) → (s.lm (linkBase l)).resyncAt = some k → s.now < k + 65536 →
      Leads (.linkFrameReceive l f) s (fun t => t.lmState (linkBase l) = 1 ∧ t.bit (aLM_ERR (linkBase l)) fLM_ERR_CRC ∧
      t.bit (aLM_ERR (linkBase l)) fLM_ERR_RETRAIN ∧
      t.fld (aLM_COUNT (linkBase l)) fLM_COUNT_CRC_ERR = min (s.fld (aLM_COUNT (linkBase l)) fLM_COUNT_CRC_ERR + 1) 65535 ∧
      (frameMask f ≠ s.lmMask (linkBase l) → t.bit (aLM_ERR (linkBase l)) fLM_ERR_MISMATCH) ∧
      (t.lm (linkBase l)).lossFrom = s.now + 6 ∧ s.keepsElse t [.be, .ev, .hw, .lms] (among [aLM_STATUS (linkBase l),
      aLM_COUNT (linkBase l), aLM_ERR (linkBase l)]))) ∧
    (∀ (l : LinkId) (f : LinkFrame), s.lmLive l → s.tickN % 4 = 2 → s.lmState (linkBase l) = 6 →
      s.framePasses (linkBase l) f = false → frameMask f ≠ s.lmMask (linkBase l) →
      s.fld (aLM_STATUS (linkBase l)) fLM_STATUS_MISMATCH = 2 →
      Leads (.linkFrameReceive l f) s (fun t => t.lmState (linkBase l) = 7 ∧ t.bit (aLM_ERR (linkBase l)) fLM_ERR_CRC ∧
      t.bit (aLM_ERR (linkBase l)) fLM_ERR_MISMATCH ∧ t.bit (aLM_ERR (linkBase l)) fLM_ERR_FENCED ∧
      t.fld (aLM_COUNT (linkBase l)) fLM_COUNT_CRC_ERR = min (s.fld (aLM_COUNT (linkBase l)) fLM_COUNT_CRC_ERR + 1) 65535 ∧
      s.keepsElse t [.be, .ev, .hw, .lms] (among [aLM_STATUS (linkBase l), aLM_COUNT (linkBase l), aLM_ERR (linkBase l)]))) ∧
    (∀ (l : LinkId) (f : LinkFrame), s.lmLive l → s.tickN % 4 = 2 → s.lmState (linkBase l) = 6 → s.framePasses (linkBase l) f →
      isCrossing (linkBase l) → f.marginErr = false → (s.lm (linkBase l)).passRun < 1023 →
      Leads (.linkFrameReceive l f) s (fun t => (t.lm (linkBase l)).xcPassed ∧
      (t.lm (linkBase l)).passRun = (s.lm (linkBase l)).passRun + 1 ∧ (2 ≤ maskWidth (s.lmMask (linkBase l)) → (s.now + 18,
      xcSignals f) ∈ (t.lm (linkBase l)).xcNext) ∧ s.keepsElse t [.lms] (among [aLM_STATUS (linkBase l)]))) ∧
    (∀ (l : LinkId) (f : LinkFrame), (s.lmLive l = false ∨ s.tickN % 4 ≠ 2 ∨ (s.lmState (linkBase l) ≠ 5 ∧
      s.lmState (linkBase l) ≠ 6)) → exec (.linkFrameReceive l f) s = .next (s))

/-- FENCE fences a module, UNFENCE starts full training of a fenced one with MISMATCH at 0, RETRAIN starts it in one that is
not fenced, CLR_CNT zeroes its counters, LOOP changes only while both directions are fenced; each is a no-op where it does not
apply. Credits come back once for every free place 32 quiet ticks after both directions run again. A lost ring share moves to
the other link with RING_MOVED in both. A lost forwarded clock starts full training. Model choices it rests on: log entries
49, 51, 140. (06_die_links.md R140, R143, R145, R148, 18_test_and_loopbacks.md R417) -/
def Obligations.LinkControl : Prop :=
  ∀ s : State, s.Inv →
    (∀ (m : Rm) (l : LinkId), linkExists l → s.ringReady m (aLM_CTRL (linkBase l)) → s.lmState (linkBase l) ≠ 7 →
      Writes (.linkFence m l) m (aLM_CTRL (linkBase l)) (putF (s.reg (aLM_CTRL (linkBase l))) fLM_CTRL_FENCE 1) .ok s (fun u => u.lmState (linkBase l) = 7 ∧
      u.bit (aLM_ERR (linkBase l)) fLM_ERR_FENCED ∧ s.keepsElse u [.be, .ev, .hw, .lms] (among [aLM_STATUS (linkBase l),
      aLM_COUNT (linkBase l), aLM_ERR (linkBase l), (aLM_CTRL (linkBase l))]))) ∧
    (∀ (m : Rm) (l : LinkId), linkExists l → s.ringReady m (aLM_CTRL (linkBase l)) → s.lmState (linkBase l) = 7 →
      Writes (.linkFence m l) m (aLM_CTRL (linkBase l)) (putF (s.reg (aLM_CTRL (linkBase l))) fLM_CTRL_FENCE 1) .ok s (fun u => u.lmState (linkBase l) = 7 ∧
      s.keepsElse u [] (among [aLM_COUNT (linkBase l), (aLM_CTRL (linkBase l))]))) ∧
    (∀ (m : Rm) (l : LinkId), linkExists l → s.ringReady m (aLM_CTRL (linkBase l)) →
      s.bit (aLM_CTRL (linkBase l)) fLM_CTRL_FENCE = false → s.lmState (linkBase l) = 7 →
      Writes (.linkUnfence m l) m (aLM_CTRL (linkBase l)) (putF (s.reg (aLM_CTRL (linkBase l))) fLM_CTRL_UNFENCE 1) .ok s (fun u => u.lmState (linkBase l) = 1 ∧
      u.fld (aLM_STATUS (linkBase l)) fLM_STATUS_MISMATCH = 0 ∧ u.bit (aLM_ERR (linkBase l)) fLM_ERR_RETRAIN ∧
      s.keepsElse u [.be, .ev, .hw, .lms] (among [aLM_STATUS (linkBase l), aLM_COUNT (linkBase l), aLM_ERR (linkBase l),
      (aLM_CTRL (linkBase l))]))) ∧
    (∀ (m : Rm) (l : LinkId), linkExists l → s.ringReady m (aLM_CTRL (linkBase l)) →
      s.bit (aLM_CTRL (linkBase l)) fLM_CTRL_FENCE = false → s.lmState (linkBase l) ≠ 7 →
      Writes (.linkUnfence m l) m (aLM_CTRL (linkBase l)) (putF (s.reg (aLM_CTRL (linkBase l))) fLM_CTRL_UNFENCE 1) .ok s (fun u => u.lmState (linkBase l) = s.lmState (linkBase l) ∧
      s.keepsElse u [] (among [aLM_COUNT (linkBase l), (aLM_CTRL (linkBase l))]))) ∧
    (∀ (m : Rm) (l : LinkId), linkExists l → s.ringReady m (aLM_CTRL (linkBase l)) →
      s.bit (aLM_CTRL (linkBase l)) fLM_CTRL_FENCE = false → s.bit (aLM_CTRL (linkBase l)) fLM_CTRL_UNFENCE = false →
      s.lmState (linkBase l) ≠ 7 →
      Writes (.linkRetrain m l) m (aLM_CTRL (linkBase l)) (putF (s.reg (aLM_CTRL (linkBase l))) fLM_CTRL_RETRAIN 1) .ok s (fun u => u.lmState (linkBase l) = 1 ∧
      u.bit (aLM_ERR (linkBase l)) fLM_ERR_RETRAIN ∧ s.keepsElse u [.be, .ev, .hw, .lms] (among [aLM_STATUS (linkBase l),
      aLM_COUNT (linkBase l), aLM_ERR (linkBase l), (aLM_CTRL (linkBase l))]))) ∧
    (∀ (m : Rm) (l : LinkId), linkExists l → s.ringReady m (aLM_CTRL (linkBase l)) →
      s.bit (aLM_CTRL (linkBase l)) fLM_CTRL_FENCE = false → s.bit (aLM_CTRL (linkBase l)) fLM_CTRL_UNFENCE = false →
      s.lmState (linkBase l) = 7 →
      Writes (.linkRetrain m l) m (aLM_CTRL (linkBase l)) (putF (s.reg (aLM_CTRL (linkBase l))) fLM_CTRL_RETRAIN 1) .ok s (fun u => u.lmState (linkBase l) = 7 ∧
      s.keepsElse u [] (among [aLM_COUNT (linkBase l), (aLM_CTRL (linkBase l))]))) ∧
    (∀ (m : Rm) (l : LinkId), linkExists l → s.ringReady m (aLM_CTRL (linkBase l)) →
      s.bit (aLM_CTRL (linkBase l)) fLM_CTRL_FENCE = false → s.bit (aLM_CTRL (linkBase l)) fLM_CTRL_UNFENCE = false →
      s.bit (aLM_CTRL (linkBase l)) fLM_CTRL_RETRAIN = false →
      Writes (.linkClrCnt m l) m (aLM_CTRL (linkBase l)) (putF (s.reg (aLM_CTRL (linkBase l))) fLM_CTRL_CLR_CNT 1) .ok s (fun u => u.reg (aLM_COUNT (linkBase l)) = 0#32 ∧
      u.lmState (linkBase l) = s.lmState (linkBase l) ∧ s.keepsElse u [] (among [aLM_COUNT (linkBase l),
      (aLM_CTRL (linkBase l))]))) ∧
    (∀ (m : Rm) (l : LinkId) (k : Fin 4) (e : BitVec 169), linkExists l → s.ringReady m (aLM_CTRL (linkBase l)) →
      s.bit (aLM_CTRL (linkBase l)) fLM_CTRL_FENCE = false → s.bit (aLM_CTRL (linkBase l)) fLM_CTRL_UNFENCE = false →
      s.bit (aLM_CTRL (linkBase l)) fLM_CTRL_RETRAIN = false → (s.loopAllowed (linkBase l) ∨
      k.val = s.fld (aLM_CTRL (linkBase l)) fLM_CTRL_LOOP) → k.val ≠ 0 →
      Writes (.linkLoop m l k e) m (aLM_CTRL (linkBase l)) (putF (s.reg (aLM_CTRL (linkBase l))) fLM_CTRL_LOOP k.val) .ok s (fun u => u.fld (aLM_CTRL (linkBase l)) fLM_CTRL_LOOP = k.val ∧
      (∀ j, j < 5 → u.reg (aLM_WIRE (linkBase l) j) = BitVec.ofNat 32 (bitsOf e.toNat (32 * j + 31) (32 * j))) ∧
      s.keepsElse u [.hw] linkReg)) ∧
    (∀ (m : Rm) (l : LinkId) (k : Fin 4) (e : BitVec 169), linkExists l → s.ringReady m (aLM_CTRL (linkBase l)) →
      s.bit (aLM_CTRL (linkBase l)) fLM_CTRL_FENCE = false → s.bit (aLM_CTRL (linkBase l)) fLM_CTRL_UNFENCE = false →
      s.bit (aLM_CTRL (linkBase l)) fLM_CTRL_RETRAIN = false → (s.loopAllowed (linkBase l) ∨
      k.val = s.fld (aLM_CTRL (linkBase l)) fLM_CTRL_LOOP) → k.val = 0 →
      Writes (.linkLoop m l k e) m (aLM_CTRL (linkBase l)) (putF (s.reg (aLM_CTRL (linkBase l))) fLM_CTRL_LOOP k.val) .ok s (fun u => u.fld (aLM_CTRL (linkBase l)) fLM_CTRL_LOOP = k.val ∧
      s.keepsElse u [.hw] linkReg)) ∧
    (∀ (m : Rm) (l : LinkId) (k : Fin 4) (e : BitVec 169), linkExists l → s.ringReady m (aLM_CTRL (linkBase l)) →
      s.loopAllowed (linkBase l) = false → k.val ≠ s.fld (aLM_CTRL (linkBase l)) fLM_CTRL_LOOP →
      Writes (.linkLoop m l k e) m (aLM_CTRL (linkBase l)) (putF (s.reg (aLM_CTRL (linkBase l))) fLM_CTRL_LOOP k.val) .refused s (fun u => u = s)) ∧
    (∀ (l : LinkId) (d n p : Nat) (v : Fin 2), s.lmLive l → s.lmState (linkBase l) = 6 → s.lmState (oppBase (linkBase l)) = 6 →
      (s.lm (linkBase l)).stageAt + 32 ≤ s.now → (s.lm (oppBase (linkBase l))).stageAt + 32 ≤ s.now →
      s.be.items.all (fun x => x.via != some (.link (linkBase l)) || decide (x.comes.getLastD 0 + 32 ≤ s.now)) →
      linkInput (linkBase l) = some (d, n, p) → (s.lm (linkBase l)).resynced = false →
      Leads (.creditResyncReturn l) s (fun t => (t.lm (linkBase l)).resynced ∧
      tget (fun _ => 0) t.be.usedOrd (inKey d n p v.val) = (inputPlaces d n p v.val).1 ∧
      tget (fun _ => 0) t.be.usedRsv (inKey d n p v.val) = (inputPlaces d n p v.val).2 ∧ (∀ c ∈ t.be.due, c ∈ s.be.due ∨
      (c.key / 2 = inKey d n p 0 / 2 ∧ c.ordinary ≤ 4 ∧ c.reserved = 0 ∧ s.now + 8 ≤ c.readyAt)) ∧
      ((t.be.due.filter (fun c => c.key == (inKey d n p v.val))).map (fun c => c.ordinary)).sum = ((s.be.due.filter (fun c => c.key == (inKey d n p v.val))).map (fun c => c.ordinary)).sum + ((inputPlaces d n p v.val).1 - (s.heldPlaces d n p v.val).1) + ((inputPlaces d n p v.val).2 - (s.heldPlaces d n p v.val).2) ∧
      t.be.items = s.be.items ∧ s.keepsElse t [.be, .lms] (fun _ => false))) ∧
    (∀ (l : LinkId), (s.lmLive l = false ∨ s.lmState (linkBase l) ≠ 6 ∨ s.lmState (oppBase (linkBase l)) ≠ 6 ∨
      s.now < (s.lm (linkBase l)).stageAt + 32 ∨ s.now < (s.lm (oppBase (linkBase l))).stageAt + 32 ∨
      (s.lm (linkBase l)).resynced ∨ linkInput (linkBase l) = none) → exec (.creditResyncReturn l) s = .next (s)) ∧
    (∀ (l : LinkId) (k : Nat), linkExists l → s.runs → (([0, 3,
      7] : List Nat).flatMap loopEdges).find? (fun e => e.1 == (linkBase l)) = some ((linkBase l), k) → (linkBase l) ≠ k →
      [Rm.core0, Rm.debug, Rm.config].all (fun m => !(s.master m).busy || (s.master m).answered || !(s.master m).req.write) →
      tget (fun _ => false) s.share1 (linkBase l) = false → s.shareLost (linkBase l) →
      Leads (.ringShareMove l) s (fun t => tget (fun _ => false) t.share1 (linkBase l) = true ∧
      t.bit (aLM_ERR (linkBase l)) fLM_ERR_RING_MOVED ∧ t.bit (aLM_ERR k) fLM_ERR_RING_MOVED ∧ s.keepsElse t [.ringCore,
      .ringDebug, .ringConfig, .share1, .ev, .hw] (among [aLM_ERR (linkBase l), aLM_ERR k]))) ∧
    (∀ (l : LinkId) (k : Nat), linkExists l → s.runs → (([0, 3,
      7] : List Nat).flatMap loopEdges).find? (fun e => e.1 == (linkBase l)) = some ((linkBase l), k) → (linkBase l) ≠ k →
      [Rm.core0, Rm.debug, Rm.config].all (fun m => !(s.master m).busy || (s.master m).answered || !(s.master m).req.write) →
      tget (fun _ => false) s.share1 (linkBase l) = true → s.shareLost k → s.lmState (linkBase l) = 6 →
      Leads (.ringShareMove l) s (fun t => tget (fun _ => false) t.share1 (linkBase l) = false ∧
      t.bit (aLM_ERR (linkBase l)) fLM_ERR_RING_MOVED ∧ t.bit (aLM_ERR k) fLM_ERR_RING_MOVED ∧ s.keepsElse t [.ringCore,
      .ringDebug, .ringConfig, .share1, .ev, .hw] (among [aLM_ERR (linkBase l), aLM_ERR k]))) ∧
    (∀ (l : LinkId) (k : Nat), (([0, 3,
      7] : List Nat).flatMap loopEdges).find? (fun e => e.1 == (linkBase l)) = some ((linkBase l), k) →
      (if tget (fun _ => false) s.share1 (linkBase l) then s.shareLost k && s.lmState (linkBase l) == 6 else s.shareLost (linkBase l)) = false →
      exec (.ringShareMove l) s = .next (s)) ∧
    (∀ (l : LinkId), s.lmListens l → s.lmState (linkBase l) ≠ 0 → s.lmState (linkBase l) ≠ 7 →
      Leads (.forwardedClockLoss l) s (fun t => t.lmState (linkBase l) = 1 ∧ (t.lm (linkBase l)).clkGone ∧
      t.bit (aLM_ERR (linkBase l)) fLM_ERR_RETRAIN ∧ s.keepsElse t [.be, .ev, .hw, .lms] (among [aLM_STATUS (linkBase l),
      aLM_COUNT (linkBase l), aLM_ERR (linkBase l)]))) ∧
    (∀ (l : LinkId), (s.lmListens l = false ∨ s.lmState (linkBase l) = 0 ∨ s.lmState (linkBase l) = 7) →
      exec (.forwardedClockLoss l) s = .next (s))

/-- A training set with a good check character moves the taps it asks for, or loads the presets; a request out of range and a
set with a wrong check change no tap; its code errors count. Equalisation sent and seen done on 16 lanes starts ALIGN. SLIP
moves a lane one bit modulo 10 and DONE declares it aligned, the last one starting DESKEW; a lane not aligned in time is left
to the hardware, which aligns it on a marker. A marker with a skew of at most 24 characters ends DESKEW, a larger one retrains
with SKEW; later a misplaced lane is faulty. A faulty lane of a full-width port turns it to its other half, or trains it where
that half is faulty too. A quad PLL that loses lock shows it in its lanes. Model choices it rests on: log entries 57, 59, 142.
(07_device_torus.md R153, R155 to R158, R174, R175, R181, R182, R185) -/
def Obligations.LaneCommands : Prop :=
  ∀ s : State, s.Inv →
    (∀ (p : Fin 6) (i : Fin 16) (w : BitVec 56), s.runs → s.tpState p.val = 1 → bitsOf w.toNat 7 0 = 0xB5 →
      bitsOf w.toNat 15 8 = i.val →
      (List.range 6).foldl (fun c k => c ^^^ bitsOf w.toNat (8 * k + 7) (8 * k)) 0 = bitsOf w.toNat 55 48 →
      w.getLsbD 20 = false →
      (0 ≤ tapStep (s.fld (aLN_TAP (portLane p.val i.val).1 (portLane p.val i.val).2) fLN_TAP_PRE) (bitsOf w.toNat 17 16) ∧
      tapStep (s.fld (aLN_TAP (portLane p.val i.val).1 (portLane p.val i.val).2) fLN_TAP_PRE) (bitsOf w.toNat 17 16) ≤ 6 ∧
      0 ≤ tapStep (s.fld (aLN_TAP (portLane p.val i.val).1 (portLane p.val i.val).2) fLN_TAP_POST) (bitsOf w.toNat 19 18) ∧
      tapStep (s.fld (aLN_TAP (portLane p.val i.val).1 (portLane p.val i.val).2) fLN_TAP_POST) (bitsOf w.toNat 19 18) ≤ 12) →
      Leads (.laneTrainingSetReceive p i ⟨w,
      0⟩) s (fun t => t.reg (aLN_TAP (portLane p.val i.val).1 (portLane p.val i.val).2) = tapWord (tapStep (s.fld (aLN_TAP (portLane p.val i.val).1 (portLane p.val i.val).2) fLN_TAP_PRE) (bitsOf w.toNat 17 16)).toNat (tapStep (s.fld (aLN_TAP (portLane p.val i.val).1 (portLane p.val i.val).2) fLN_TAP_POST) (bitsOf w.toNat 19 18)).toNat ∧
      (t.lane (portLane p.val i.val).1 (portLane p.val i.val).2).eqSeen = ((s.lane (portLane p.val i.val).1 (portLane p.val i.val).2).eqSeen || w.getLsbD 21) ∧
      s.keepsElse t [.lanes] (among [(aLN_TAP (portLane p.val i.val).1 (portLane p.val i.val).2)]))) ∧
    (∀ (p : Fin 6) (i : Fin 16) (w : BitVec 56), s.runs → s.tpState p.val = 1 → bitsOf w.toNat 7 0 = 0xB5 →
      bitsOf w.toNat 15 8 = i.val →
      (List.range 6).foldl (fun c k => c ^^^ bitsOf w.toNat (8 * k + 7) (8 * k)) 0 = bitsOf w.toNat 55 48 →
      w.getLsbD 20 = false →
      ¬ (0 ≤ tapStep (s.fld (aLN_TAP (portLane p.val i.val).1 (portLane p.val i.val).2) fLN_TAP_PRE) (bitsOf w.toNat 17 16) ∧
      tapStep (s.fld (aLN_TAP (portLane p.val i.val).1 (portLane p.val i.val).2) fLN_TAP_PRE) (bitsOf w.toNat 17 16) ≤ 6 ∧
      0 ≤ tapStep (s.fld (aLN_TAP (portLane p.val i.val).1 (portLane p.val i.val).2) fLN_TAP_POST) (bitsOf w.toNat 19 18) ∧
      tapStep (s.fld (aLN_TAP (portLane p.val i.val).1 (portLane p.val i.val).2) fLN_TAP_POST) (bitsOf w.toNat 19 18) ≤ 12) →
      Leads (.laneTrainingSetReceive p i ⟨w,
      0⟩) s (fun t => t.reg (aLN_TAP (portLane p.val i.val).1 (portLane p.val i.val).2) = s.reg (aLN_TAP (portLane p.val i.val).1 (portLane p.val i.val).2) ∧
      (t.lane (portLane p.val i.val).1 (portLane p.val i.val).2).eqSeen = ((s.lane (portLane p.val i.val).1 (portLane p.val i.val).2).eqSeen || w.getLsbD 21) ∧
      s.keepsElse t [.lanes] (among [(aLN_TAP (portLane p.val i.val).1 (portLane p.val i.val).2)]))) ∧
    (∀ (p : Fin 6) (i : Fin 16) (w : BitVec 56), s.runs → s.tpState p.val = 1 → bitsOf w.toNat 7 0 = 0xB5 →
      bitsOf w.toNat 15 8 = i.val →
      (List.range 6).foldl (fun c k => c ^^^ bitsOf w.toNat (8 * k + 7) (8 * k)) 0 = bitsOf w.toNat 55 48 → w.getLsbD 20 →
      Leads (.laneTrainingSetReceive p i ⟨w,
      0⟩) s (fun t => t.reg (aLN_TAP (portLane p.val i.val).1 (portLane p.val i.val).2) = tapWord 2 6 ∧
      (t.lane (portLane p.val i.val).1 (portLane p.val i.val).2).eqSeen = ((s.lane (portLane p.val i.val).1 (portLane p.val i.val).2).eqSeen || w.getLsbD 21) ∧
      s.keepsElse t [.lanes] (among [(aLN_TAP (portLane p.val i.val).1 (portLane p.val i.val).2)]))) ∧
    (∀ (p : Fin 6) (i : Fin 16) (w : BitVec 56), s.runs → s.tpState p.val = 1 → (bitsOf w.toNat 7 0 ≠ 0xB5 ∨
      bitsOf w.toNat 15 8 ≠ i.val ∨
      (List.range 6).foldl (fun c k => c ^^^ bitsOf w.toNat (8 * k + 7) (8 * k)) 0 ≠ bitsOf w.toNat 55 48) →
      exec (.laneTrainingSetReceive p i ⟨w, 0⟩) s = .next (s)) ∧
    (∀ (p : Fin 6) (i : Fin 16) (w : BitVec 56) (e : BitVec 8), s.runs → s.tpState p.val = 1 → e.getLsbD 0 →
      Leads (.laneTrainingSetReceive p i ⟨w,
      e⟩) s (fun t => t.fld (aLN_ERRCNT (portLane p.val i.val).1 (portLane p.val i.val).2) fLN_ERRCNT_ERR = min (s.fld (aLN_ERRCNT (portLane p.val i.val).1 (portLane p.val i.val).2) fLN_ERRCNT_ERR + ((List.range 8).filter (fun k => e.getLsbD k)).length) 65535 ∧
      t.reg (aLN_TAP (portLane p.val i.val).1 (portLane p.val i.val).2) = s.reg (aLN_TAP (portLane p.val i.val).1 (portLane p.val i.val).2) ∧
      s.keepsElse t [.hw, .lanes] (among [(aLN_ERRCNT (portLane p.val i.val).1 (portLane p.val i.val).2)]))) ∧
    (∀ (p : Fin 6) (i : Fin 16) (w : BitVec 56) (e : BitVec 8), (s.runs = false ∨ s.tpState p.val ≠ 1) →
      exec (.laneTrainingSetReceive p i ⟨w, e⟩) s = .next (s)) ∧
    (∀ (p : Fin 6), s.runs → s.tpState p.val = 1 →
      (List.range 16).all (fun i => (s.lane (portLane p.val i).1 (portLane p.val i).2).eqSeen && (s.lane (portLane p.val i).1 (portLane p.val i).2).eqDone) →
      Leads (.laneEqDone p) s (fun t => t.tpState p.val = 2 ∧ (t.port p.val).stageAt = s.now ∧ (∀ i, i < 16 →
      t.reg (aLN_STATUS (portLane p.val i).1 (portLane p.val i).2) = s.reg (aLN_STATUS (portLane p.val i).1 (portLane p.val i).2) ||| 7#32) ∧
      s.keepsElse t [.ev, .hw, .ports] portReg)) ∧
    (∀ (p : Fin 6), (s.runs = false ∨ s.tpState p.val ≠ 1 ∨
      (List.range 16).all (fun i => (s.lane (portLane p.val i).1 (portLane p.val i).2).eqSeen && (s.lane (portLane p.val i).1 (portLane p.val i).2).eqDone) = false) →
      exec (.laneEqDone p) s = .next (s)) ∧
    (∀ (m : Rm) (l : LaneId), laneExists l → s.ringReady m (aLN_ALIGN (quadBlock l.die l.quad) l.lane) →
      Writes (.lnAlignSlip m l) m (aLN_ALIGN (quadBlock l.die l.quad) l.lane) (putF 0#32 fLN_ALIGN_SLIP 1) .ok s (fun u => u.fld (aLN_ALIGN (quadBlock l.die l.quad) l.lane) fLN_ALIGN_OFFSET = (s.fld (aLN_ALIGN (quadBlock l.die l.quad) l.lane) fLN_ALIGN_OFFSET + 1) % 10 ∧
      s.keepsElse u [.ev, .hw, .ports] laneReg)) ∧
    (∀ (m : Rm) (l : LaneId), laneExists l → s.ringReady m (aLN_ALIGN (quadBlock l.die l.quad) l.lane) →
      Writes (.lnAlignDone m l) m (aLN_ALIGN (quadBlock l.die l.quad) l.lane) (putF 0#32 fLN_ALIGN_DONE 1) .ok s (fun u => u.bit (aLN_ALIGN (quadBlock l.die l.quad) l.lane) fLN_ALIGN_LOCKED ∧
      u.fld (aLN_ALIGN (quadBlock l.die l.quad) l.lane) fLN_ALIGN_OFFSET = s.fld (aLN_ALIGN (quadBlock l.die l.quad) l.lane) fLN_ALIGN_OFFSET ∧
      (l.die = 6 → s.tpState (l.quad / 4) = 2 →
      (List.range 16).all (fun i => s.bit (aLN_ALIGN (portLane (l.quad / 4) i).1 (portLane (l.quad / 4) i).2) fLN_ALIGN_LOCKED || portLane (l.quad / 4) i == ((quadBlock l.die l.quad),
      l.lane)) → u.tpState (l.quad / 4) = 3) ∧ s.keepsElse u [.ev, .hw, .ports] laneReg)) ∧
    (∀ (p : Fin 6) (i : Fin 16), s.runs → s.tpState p.val = 2 →
      s.bit (aLN_ALIGN (portLane p.val i.val).1 (portLane p.val i.val).2) fLN_ALIGN_LOCKED = false →
      (s.port p.val).stageAt + 8192 ≤ s.now →
      exec (.laneAlignTimeout p i) s = .next (s.setLane (portLane p.val i.val).1 (portLane p.val i.val).2 { s.lane (portLane p.val i.val).1 (portLane p.val i.val).2 with byMarker := true })) ∧
    (∀ (p : Fin 6) (i : Fin 16), (s.runs = false ∨ s.tpState p.val ≠ 2 ∨
      s.bit (aLN_ALIGN (portLane p.val i.val).1 (portLane p.val i.val).2) fLN_ALIGN_LOCKED ∨
      s.now < (s.port p.val).stageAt + 8192) → exec (.laneAlignTimeout p i) s = .next (s)) ∧
    (∀ (p : Fin 6) (x : List (Option Nat)), s.runs → s.tpState p.val = 2 → Leads (.alignmentMarkerReceive p x) s (fun t => (∀ i,
      i < 16 →
      t.bit (aLN_ALIGN (portLane p.val i).1 (portLane p.val i).2) fLN_ALIGN_LOCKED = (s.bit (aLN_ALIGN (portLane p.val i).1 (portLane p.val i).2) fLN_ALIGN_LOCKED || ((x.getD i none).isSome && ((s.lane (portLane p.val i).1 (portLane p.val i).2).byMarker || !s.bit (aTP_CTRL p.val) fTP_CTRL_FW_ALIGN))) ∧
      (s.bit (aLN_ALIGN (portLane p.val i).1 (portLane p.val i).2) fLN_ALIGN_LOCKED = false →
      t.bit (aLN_ALIGN (portLane p.val i).1 (portLane p.val i).2) fLN_ALIGN_LOCKED →
      t.bit (aLN_ALIGN (portLane p.val i).1 (portLane p.val i).2) fLN_ALIGN_BY_AM ∧
      t.fld (aLN_ALIGN (portLane p.val i).1 (portLane p.val i).2) fLN_ALIGN_OFFSET < 10)) ∧
      t.tpState p.val = (if (List.range 16).all (fun i => (s.bit (aLN_ALIGN (portLane p.val i).1 (portLane p.val i).2) fLN_ALIGN_LOCKED || ((x.getD i none).isSome && ((s.lane (portLane p.val i).1 (portLane p.val i).2).byMarker || !s.bit (aTP_CTRL p.val) fTP_CTRL_FW_ALIGN)))) then 3 else 2) ∧
      s.keepsElse t [.ev, .free, .hw, .ports] portReg)) ∧
    (∀ (p : Fin 6) (x : List (Option Nat)), s.runs → s.tpState p.val = 3 → (List.range 16).all (fun i => (x.getD i none).isSome) →
      (List.range 16).all (fun i => (List.range 16).all (fun j => decide ((x.getD i none).getD 0 ≤ (x.getD j none).getD 0 + 24))) →
      Leads (.alignmentMarkerReceive p x) s (fun t => t.tpState p.val = 4 ∧ (t.port p.val).stageAt = s.now ∧ s.keepsElse t [.ev,
      .hw, .ports] (among [aTP_STATUS p.val, aTP_ERR p.val]))) ∧
    (∀ (p : Fin 6) (x : List (Option Nat)), s.runs → s.tpState p.val = 3 → (List.range 16).all (fun i => (x.getD i none).isSome) →
      ((List.range 16).all (fun i => (List.range 16).all (fun j => decide ((x.getD i none).getD 0 ≤ (x.getD j none).getD 0 + 24)))) = false →
      Leads (.alignmentMarkerReceive p x) s (fun t => t.tpState p.val = (if s.domOn (40 + p.val) then 1 else 3) ∧
      t.bit (aTP_ERR p.val) fTP_ERR_SKEW ∧ s.keepsElse t [.be, .ev, .hw, .lanes, .nis, .ports] portReg)) ∧
    (∀ (p : Fin 6) (x : List (Option Nat)), s.runs → (s.tpState p.val = 6 ∨ s.tpState p.val = 7 ∨ s.tpState p.val = 8) →
      (List.range 16).all (fun i => s.laneExcluded p.val i || x.getD i none == some 0) →
      exec (.alignmentMarkerReceive p x) s = .next (s.setPort p.val { s.port p.val with keys := 0, keyOk := true, ctrlSeen := 0 })) ∧
    (∀ (p : Fin 6) (x : List (Option Nat)) (i : Fin 16), s.runs → (s.tpState p.val = 6 ∨ s.tpState p.val = 7 ∨
      s.tpState p.val = 8) → (List.range i.val).all (fun i => s.laneExcluded p.val i || x.getD i none == some 0) →
      s.laneExcluded p.val i.val = false → x.getD i.val none ≠ some 0 →
      (s.lane (portLane p.val i.val).1 (portLane p.val i.val).2).faulty = false →
      Leads (.alignmentMarkerReceive p x) s (fun t => t.bit (aLN_STATUS (portLane p.val i.val).1 (portLane p.val i.val).2) fLN_STATUS_FAULT ∧
      t.bit (aTP_ERR p.val) fTP_ERR_LANE ∧ t.showsEvent (portEvent p.val (16 + i.val)) ∧ s.keepsElse t [.be, .ev, .hw, .lanes,
      .nis, .ports] portReg)) ∧
    (∀ (p : Fin 6) (x : List (Option Nat)), (s.runs = false ∨ (s.tpState p.val = 3 ∧
      (List.range 16).all (fun i => (x.getD i none).isSome) = false) ∨ [0, 1, 4, 5, 9, 10, 11].contains (s.tpState p.val)) →
      exec (.alignmentMarkerReceive p x) s = .next (s)) ∧
    (∀ (l : LaneId) (n : Nat), laneExists l → s.runs → s.inReset l.die = false → l.die < 6 →
      s.fld (aLN_CTRL (quadBlock l.die l.quad) l.lane) fLN_CTRL_MODE ≠ 0 → Leads (.laneFault ⟨l, true,
      n⟩) s (fun t => t.bit (aLN_STATUS (quadBlock l.die l.quad) l.lane) fLN_STATUS_FAULT ∧
      t.bit (aLN_STATUS (quadBlock l.die l.quad) l.lane) fLN_STATUS_CDR_LOCK = false ∧
      (s.fld (aLN_CTRL (quadBlock l.die l.quad) l.lane) fLN_CTRL_MODE = 1 →
      t.fld (aLN_ERRCNT (quadBlock l.die l.quad) l.lane) fLN_ERRCNT_ERR = min (s.fld (aLN_ERRCNT (quadBlock l.die l.quad) l.lane) fLN_ERRCNT_ERR + min n 1024) 65535) ∧
      s.keepsElse t [.ev, .hw, .lanes] (among [(aLN_STATUS (quadBlock l.die l.quad) l.lane),
      (aLN_ERRCNT (quadBlock l.die l.quad) l.lane)]))) ∧
    (∀ (l : LaneId) (n : Nat), laneExists l → s.runs → s.inReset l.die = false → l.die < 6 →
      s.fld (aLN_CTRL (quadBlock l.die l.quad) l.lane) fLN_CTRL_MODE ≠ 0 →
      s.fld (aLN_CTRL (quadBlock l.die l.quad) l.lane) fLN_CTRL_MODE = 1 → 16 ≤ n → Leads (.laneFault ⟨l, false,
      n⟩) s (fun t => t.bit (aLN_STATUS (quadBlock l.die l.quad) l.lane) fLN_STATUS_FAULT ∧
      t.fld (aLN_ERRCNT (quadBlock l.die l.quad) l.lane) fLN_ERRCNT_ERR = min (s.fld (aLN_ERRCNT (quadBlock l.die l.quad) l.lane) fLN_ERRCNT_ERR + min n 1024) 65535 ∧
      s.keepsElse t [.ev, .hw, .lanes] (among [(aLN_STATUS (quadBlock l.die l.quad) l.lane),
      (aLN_ERRCNT (quadBlock l.die l.quad) l.lane)]))) ∧
    (∀ (l : LaneId) (n : Nat), laneExists l → s.runs → s.inReset l.die = false → l.die < 6 →
      s.fld (aLN_CTRL (quadBlock l.die l.quad) l.lane) fLN_CTRL_MODE ≠ 0 →
      s.fld (aLN_CTRL (quadBlock l.die l.quad) l.lane) fLN_CTRL_MODE = 1 →
      (s.lane (quadBlock l.die l.quad) l.lane).errAt.length + n < 16 → Leads (.laneFault ⟨l, false,
      n⟩) s (fun t => t.fld (aLN_ERRCNT (quadBlock l.die l.quad) l.lane) fLN_ERRCNT_ERR = min (s.fld (aLN_ERRCNT (quadBlock l.die l.quad) l.lane) fLN_ERRCNT_ERR + min n 1024) 65535 ∧
      s.keepsElse t [.hw, .lanes] (among [(aLN_ERRCNT (quadBlock l.die l.quad) l.lane)]))) ∧
    (∀ (l : LaneId) (n : Nat), laneExists l → s.runs → s.inReset l.die = false → l.die < 6 →
      s.fld (aLN_CTRL (quadBlock l.die l.quad) l.lane) fLN_CTRL_MODE ≠ 0 →
      s.fld (aLN_CTRL (quadBlock l.die l.quad) l.lane) fLN_CTRL_MODE ≠ 1 →
      (s.lane (quadBlock l.die l.quad) l.lane).errAt.length < 16 → exec (.laneFault ⟨l, false, n⟩) s = .next (s)) ∧
    (∀ (l : LaneId) (k : Bool) (n : Nat), (laneExists l = false ∨ s.runs = false ∨ s.inReset l.die ∨ (l.die ≠ 6 ∧
      s.fld (aLN_CTRL (quadBlock l.die l.quad) l.lane) fLN_CTRL_MODE = 0)) → exec (.laneFault ⟨l, k, n⟩) s = .next (s)) ∧
    (∀ (l : LaneId) (k : Bool) (n : Nat), laneExists l → s.runs → s.inReset l.die = false → l.die = 6 → (k ∨ 16 ≤ n) →
      (s.lane (quadBlock l.die l.quad) l.lane).faulty = false → (s.tpState (l.quad / 4) = 6 ∨ s.tpState (l.quad / 4) = 7) →
      s.halfFaulty (l.quad / 4) (1 - (4 * (l.quad % 4) + l.lane) / 8) = false → Leads (.laneFault ⟨l, k,
      n⟩) s (fun t => t.tpState (l.quad / 4) = 9 ∧
      t.fld (aTP_STATUS (l.quad / 4)) fTP_STATUS_HALF = 1 - (4 * (l.quad % 4) + l.lane) / 8 ∧
      (t.port (l.quad / 4)).switchAt.isSome ∧ (t.lane (quadBlock l.die l.quad) l.lane).faulty ∧
      t.bit (aLN_STATUS (quadBlock l.die l.quad) l.lane) fLN_STATUS_FAULT ∧ t.bit (aTP_ERR (l.quad / 4)) fTP_ERR_LANE ∧
      t.showsEvent (portEvent (l.quad / 4) (16 + (4 * (l.quad % 4) + l.lane))) ∧ s.keepsElse t [.be, .ev, .hw, .lanes, .nis,
      .ports] portReg)) ∧
    (∀ (l : LaneId) (k : Bool) (n : Nat), laneExists l → s.runs → s.inReset l.die = false → l.die = 6 → (k ∨ 16 ≤ n) →
      (s.lane (quadBlock l.die l.quad) l.lane).faulty = false → ((((s.tpState (l.quad / 4) = 6 ∨ s.tpState (l.quad / 4) = 7) ∨
      s.tpState (l.quad / 4) = 9) ∧ s.halfFaulty (l.quad / 4) (1 - (4 * (l.quad % 4) + l.lane) / 8)) ∨
      s.tpState (l.quad / 4) = 8 ∨ (s.tpState (l.quad / 4) = 9 ∧
      (4 * (l.quad % 4) + l.lane) / 8 = s.fld (aTP_STATUS (l.quad / 4)) fTP_STATUS_HALF)) → s.domOn (40 + (l.quad / 4)) →
      Leads (.laneFault ⟨l, k, n⟩) s (fun t => t.tpState (l.quad / 4) = 1 ∧
      t.bit (aLN_STATUS (quadBlock l.die l.quad) l.lane) fLN_STATUS_FAULT ∧ t.bit (aTP_ERR (l.quad / 4)) fTP_ERR_LANE ∧
      t.showsEvent (portEvent (l.quad / 4) (16 + (4 * (l.quad % 4) + l.lane))) ∧ s.keepsElse t [.be, .ev, .hw, .lanes, .nis,
      .ports] portReg)) ∧
    (∀ (l : LaneId) (k : Bool) (n : Nat), laneExists l → s.runs → s.inReset l.die = false → l.die = 6 → (k ∨ 16 ≤ n) →
      (s.lane (quadBlock l.die l.quad) l.lane).faulty = false → s.tpState (l.quad / 4) = 9 →
      s.halfFaulty (l.quad / 4) (1 - (4 * (l.quad % 4) + l.lane) / 8) = false →
      (4 * (l.quad % 4) + l.lane) / 8 ≠ s.fld (aTP_STATUS (l.quad / 4)) fTP_STATUS_HALF → Leads (.laneFault ⟨l, k,
      n⟩) s (fun t => t.tpState (l.quad / 4) = 9 ∧
      t.fld (aTP_STATUS (l.quad / 4)) fTP_STATUS_HALF = s.fld (aTP_STATUS (l.quad / 4)) fTP_STATUS_HALF ∧
      t.bit (aLN_STATUS (quadBlock l.die l.quad) l.lane) fLN_STATUS_FAULT ∧ t.bit (aTP_ERR (l.quad / 4)) fTP_ERR_LANE ∧
      t.showsEvent (portEvent (l.quad / 4) (16 + (4 * (l.quad % 4) + l.lane))) ∧ s.keepsElse t [.be, .ev, .hw, .lanes, .nis,
      .ports] portReg)) ∧
    (∀ (l : LaneId) (k : Bool) (n : Nat), laneExists l → s.runs → s.inReset l.die = false → l.die = 6 →
      (s.tpState (l.quad / 4) < 6 ∨ 9 < s.tpState (l.quad / 4) ∨ (s.lane (quadBlock l.die l.quad) l.lane).faulty) →
      Leads (.laneFault ⟨l, k, n⟩) s (fun t => t.tpState (l.quad / 4) = s.tpState (l.quad / 4) ∧
      t.fld (aLN_ERRCNT (quadBlock l.die l.quad) l.lane) fLN_ERRCNT_ERR = min (s.fld (aLN_ERRCNT (quadBlock l.die l.quad) l.lane) fLN_ERRCNT_ERR + min n 1024) 65535 ∧
      (k → t.bit (aLN_STATUS (quadBlock l.die l.quad) l.lane) fLN_STATUS_CDR_LOCK = false) ∧ s.keepsElse t [.hw,
      .lanes] (among [(aLN_STATUS (quadBlock l.die l.quad) l.lane), (aLN_ERRCNT (quadBlock l.die l.quad) l.lane)]))) ∧
    (∀ (l : LaneId), laneExists l → s.runs → s.inReset l.die = false → l.die ≠ 6 →
      s.fld (aLN_CTRL (quadBlock l.die l.quad) l.lane) fLN_CTRL_MODE ≠ 0 → s.placeHeld l.die (glPlace l.quad) = false →
      exec (.glSlip l) s = .next (s.setFld (aLN_ALIGN (quadBlock l.die l.quad) l.lane) fLN_ALIGN_OFFSET ((s.fld (aLN_ALIGN (quadBlock l.die l.quad) l.lane) fLN_ALIGN_OFFSET + 1) % 10))) ∧
    (∀ (l : LaneId), (laneExists l = false ∨ s.runs = false ∨ s.inReset l.die ∨ l.die = 6 ∨
      s.fld (aLN_CTRL (quadBlock l.die l.quad) l.lane) fLN_CTRL_MODE = 0 ∨ s.placeHeld l.die (glPlace l.quad)) →
      exec (.glSlip l) s = .next (s)) ∧
    (∀ (p : Fin 6) (k : Fin 4), s.runs → s.bit (aLN_STATUS (quadBlock 6 (4 * p.val + k.val)) 0) fLN_STATUS_PLL_LOCK →
      Leads (.quadPllLockLoss p k) s (fun t => (∀ j, j < 4 →
      t.bit (aLN_STATUS (quadBlock 6 (4 * p.val + k.val)) j) fLN_STATUS_PLL_LOCK = false ∧
      t.bit (aLN_STATUS (quadBlock 6 (4 * p.val + k.val)) j) fLN_STATUS_CDR_LOCK = false) ∧ t.showsEvent (portEvent p.val 8) ∧
      s.keepsElse t [.ev, .hw] (among [aLN_STATUS (quadBlock 6 (4 * p.val + k.val)) 0,
      aLN_STATUS (quadBlock 6 (4 * p.val + k.val)) 1, aLN_STATUS (quadBlock 6 (4 * p.val + k.val)) 2,
      aLN_STATUS (quadBlock 6 (4 * p.val + k.val)) 3]))) ∧
    (∀ (p : Fin 6) (k : Fin 4), (s.runs = false ∨
      s.bit (aLN_STATUS (quadBlock 6 (4 * p.val + k.val)) 0) fLN_STATUS_PLL_LOCK = false) →
      exec (.quadPllLockLoss p k) s = .next (s))

/-- A stage overrun sets STAGE and restarts training 65,536 ticks later. Exchange positions record the neighbour and give
round trips, 16 of which give D and M, or FAR and DOWN; once done is sent and seen, a neighbour that passes both checks takes
the port to LINK, one that fails to UNVERIFIED, and ACCEPT copies TP_SEEN to TP_EXP and moves on unless PAIR is the cause. A
control position that passes stores the far flags and keys, or the request for half width; a bad one sets CTRL_CRC. A lost
condition leaves SCHED at a frame boundary with event 1 of the port, a disable drains it there; the agreed frame enters HALF.
Model choices it rests on: log entries 53, 54, 55, 143, 153. (07_device_torus.md R162, R168 to R175, R178, R180) -/
def Obligations.PortTraining : Prop :=
  ∀ s : State, s.Inv →
    (∀ (p : Fin 6) (k : Nat), s.runs → portLimit (s.tpState p.val) = some k → (s.port p.val).restartAt = none →
      (s.port p.val).stageAt + k < s.now → Leads (.portStageTimeout p) s (fun t => t.bit (aTP_ERR p.val) fTP_ERR_STAGE ∧
      (t.port p.val).restartAt = some (s.now + 65536) ∧ t.tpState p.val = s.tpState p.val ∧ t.showsEvent (portEvent p.val 4) ∧
      s.keepsElse t [.ev, .hw, .ports] (among [aTP_ERR p.val]))) ∧
    (∀ (p : Fin 6), (s.runs = false ∨ portLimit (s.tpState p.val) = none ∨ (s.port p.val).restartAt.isSome ∨
      s.now ≤ (s.port p.val).stageAt + (portLimit (s.tpState p.val)).getD 0) → exec (.portStageTimeout p) s = .next (s)) ∧
    (∀ (p : Fin 6) (k : Nat), s.runs → (s.port p.val).restartAt = some k → k ≤ s.now → s.domOn (40 + p.val) →
      Leads (.portTrainRestart p) s (fun t => t.tpState p.val = 1 ∧ (t.port p.val).restartAt = none ∧
      (t.port p.val).stageAt = s.now ∧ s.keepsElse t [.be, .ev, .hw, .lanes, .nis, .ports] portReg)) ∧
    (∀ (p : Fin 6), (s.runs = false ∨ (s.port p.val).restartAt.all (fun k => decide (s.now < k)) ∨ s.domOn (40 + p.val) = false) →
      exec (.portTrainRestart p) s = .next (s)) ∧
    (∀ (p : Fin 6) (c : BitVec 256) (f : Fin 64), s.runs → s.tpState p.val = 4 → posByte c 0 = clsByte 9 → posCrcOk c →
      (posByte c 13 = 0 ∨ 16 ≤ (s.port p.val).trips.length) → Leads (.exchangePositionReceive p ⟨c,
      0⟩ f) s (fun t => (t.port p.val).trips = (s.port p.val).trips ∧
      t.reg64 (aTP_SEEN_LO p.val) (aTP_SEEN_HI p.val) = bitsOf c.toNat 79 16 ∧
      t.fld (aTP_SEEN_INFO p.val) fTP_SEEN_INFO_DEV = bitsOf c.toNat 95 80 ∧
      t.fld (aTP_SEEN_INFO p.val) fTP_SEEN_INFO_PORT = bitsOf (posByte c 1) 2 0 ∧
      (t.port p.val).farExchDone = (posByte c 1).testBit 7 ∧ (t.port p.val).exchSeen = BitVec.ofNat 8 (posByte c 12) ∧
      t.tpState p.val = 4 ∧ s.keepsElse t [.ports] (among [aTP_SEEN_LO p.val, aTP_SEEN_HI p.val, aTP_SEEN_INFO p.val]))) ∧
    (∀ (p : Fin 6) (c : BitVec 256) (f : Fin 64), s.runs → s.tpState p.val = 4 → posByte c 0 = clsByte 9 → posCrcOk c →
      posByte c 13 ≠ 0 → (s.port p.val).trips.length < 16 → ((s.port p.val).trips = [] ∨
      ¬ ((64 * s.now + f.val - 64 * ((s.port p.val).exchLast - 256 * (((s.port p.val).exchSeq.toNat + 256 - posByte c 13) % 256))) ≤ (s.port p.val).firstTrip + 4 ∧
      (s.port p.val).firstTrip ≤ (64 * s.now + f.val - 64 * ((s.port p.val).exchLast - 256 * (((s.port p.val).exchSeq.toNat + 256 - posByte c 13) % 256))) + 4)) →
      Leads (.exchangePositionReceive p ⟨c,
      0⟩ f) s (fun t => (t.port p.val).trips = [(64 * s.now + f.val - 64 * ((s.port p.val).exchLast - 256 * (((s.port p.val).exchSeq.toNat + 256 - posByte c 13) % 256))) - bitsOf c.toNat 135 112] ∧
      (t.port p.val).firstTrip = (64 * s.now + f.val - 64 * ((s.port p.val).exchLast - 256 * (((s.port p.val).exchSeq.toNat + 256 - posByte c 13) % 256))) ∧
      t.reg64 (aTP_SEEN_LO p.val) (aTP_SEEN_HI p.val) = bitsOf c.toNat 79 16 ∧
      t.fld (aTP_SEEN_INFO p.val) fTP_SEEN_INFO_DEV = bitsOf c.toNat 95 80 ∧
      t.fld (aTP_SEEN_INFO p.val) fTP_SEEN_INFO_PORT = bitsOf (posByte c 1) 2 0 ∧
      (t.port p.val).farExchDone = (posByte c 1).testBit 7 ∧ (t.port p.val).exchSeen = BitVec.ofNat 8 (posByte c 12) ∧
      t.tpState p.val = 4 ∧ s.keepsElse t [.ports] (among [aTP_SEEN_LO p.val, aTP_SEEN_HI p.val, aTP_SEEN_INFO p.val]))) ∧
    (∀ (p : Fin 6) (c : BitVec 256) (f : Fin 64), s.runs → s.tpState p.val = 4 → posByte c 0 = clsByte 9 → posCrcOk c →
      posByte c 13 ≠ 0 → (s.port p.val).trips.length < 16 → (s.port p.val).trips ≠ [] →
      ((64 * s.now + f.val - 64 * ((s.port p.val).exchLast - 256 * (((s.port p.val).exchSeq.toNat + 256 - posByte c 13) % 256))) ≤ (s.port p.val).firstTrip + 4 ∧
      (s.port p.val).firstTrip ≤ (64 * s.now + f.val - 64 * ((s.port p.val).exchLast - 256 * (((s.port p.val).exchSeq.toNat + 256 - posByte c 13) % 256))) + 4) →
      Leads (.exchangePositionReceive p ⟨c,
      0⟩ f) s (fun t => (t.port p.val).trips = (s.port p.val).trips ++ [(64 * s.now + f.val - 64 * ((s.port p.val).exchLast - 256 * (((s.port p.val).exchSeq.toNat + 256 - posByte c 13) % 256))) - bitsOf c.toNat 135 112] ∧
      (t.port p.val).firstTrip = (s.port p.val).firstTrip ∧
      t.reg64 (aTP_SEEN_LO p.val) (aTP_SEEN_HI p.val) = bitsOf c.toNat 79 16 ∧
      t.fld (aTP_SEEN_INFO p.val) fTP_SEEN_INFO_DEV = bitsOf c.toNat 95 80 ∧
      t.fld (aTP_SEEN_INFO p.val) fTP_SEEN_INFO_PORT = bitsOf (posByte c 1) 2 0 ∧
      (t.port p.val).farExchDone = (posByte c 1).testBit 7 ∧ (t.port p.val).exchSeen = BitVec.ofNat 8 (posByte c 12) ∧
      t.tpState p.val = 4 ∧ s.keepsElse t [.ports] (among [aTP_SEEN_LO p.val, aTP_SEEN_HI p.val, aTP_SEEN_INFO p.val]))) ∧
    (∀ (p : Fin 6) (c : BitVec 256) (f : Fin 64), s.runs → s.tpState p.val = 4 → (posByte c 0 ≠ clsByte 9 ∨ posCrcOk c = false) →
      exec (.exchangePositionReceive p ⟨c, 0⟩ f) s = .next (s)) ∧
    (∀ (p : Fin 6) (c : BitVec 256) (e : BitVec 32) (f : Fin 64), s.runs → s.tpState p.val = 4 → e.getLsbD 0 →
      Leads (.exchangePositionReceive p ⟨c, e⟩ f) s (fun t => t.tpState p.val = 4 ∧ (t.port p.val) = (s.port p.val) ∧
      s.keepsElse t [.hw, .lanes] portReg)) ∧
    (∀ (p : Fin 6) (c : BitVec 256) (e : BitVec 32) (f : Fin 64), (s.runs = false ∨ s.tpState p.val ≠ 4) →
      exec (.exchangePositionReceive p ⟨c, e⟩ f) s = .next (s)) ∧
    (∀ (p : Fin 6), s.runs → s.tpState p.val = 4 → (s.port p.val).exchDone = false → 16 ≤ (s.port p.val).trips.length →
      (s.port p.val).trips.foldl (· + ·) 0 / 32 ≤ 261440 →
      Leads (.exchangeComplete p) s (fun t => t.fld (aTP_LAT p.val) fTP_LAT_D = (s.port p.val).trips.foldl (· + ·) 0 / 32 ∧
      t.fld (aTP_LAT p.val) fTP_LAT_M = ((s.port p.val).trips.foldl (· + ·) 0 / 32 + 63) / 64 + 10 ∧ (t.port p.val).exchDone ∧
      t.tpState p.val = 4 ∧ s.keepsElse t [.ports] (among [aTP_LAT p.val]))) ∧
    (∀ (p : Fin 6), s.runs → s.tpState p.val = 4 → (s.port p.val).exchDone = false → 16 ≤ (s.port p.val).trips.length →
      261440 < (s.port p.val).trips.foldl (· + ·) 0 / 32 → Leads (.exchangeComplete p) s (fun t => t.tpState p.val = 0 ∧
      t.bit (aTP_ERR p.val) fTP_ERR_FAR ∧ t.showsEvent (portEvent p.val 4) ∧ s.keepsElse t [.be, .ev, .hw, .nis,
      .ports] portReg)) ∧
    (∀ (p : Fin 6), s.runs → s.tpState p.val = 4 → (s.port p.val).exchDone → (s.port p.val).exchSaid →
      (s.port p.val).farExchDone →
      Leads (.exchangeComplete p) s (fun t => t.tpState p.val = (if (s.identity p.val).1 || (s.identity p.val).2 then 5 else 6) ∧
      (t.port p.val).pairCause = (s.identity p.val).2 ∧ ((s.identity p.val).1 → t.bit (aTP_ERR p.val) fTP_ERR_ID) ∧
      ((s.identity p.val).2 → t.bit (aTP_ERR p.val) fTP_ERR_PAIR) ∧ ((s.identity p.val).1 || (s.identity p.val).2 →
      t.showsEvent (portEvent p.val 2)) ∧ s.keepsElse t [.ev, .hw, .ports] (among [aTP_STATUS p.val, aTP_ERR p.val]))) ∧
    (∀ (p : Fin 6), (s.runs = false ∨ s.tpState p.val ≠ 4 ∨ ((s.port p.val).exchDone = false ∧ (s.port p.val).trips.length < 16) ∨
      ((s.port p.val).exchDone ∧ ((s.port p.val).exchSaid = false ∨ (s.port p.val).farExchDone = false))) →
      exec (.exchangeComplete p) s = .next (s)) ∧
    (∀ (m : Rm) (p : Fin 6), s.ringReady m (aTP_CTRL p.val) → s.fld (aTP_CTRL p.val) fTP_CTRL_LOOP = 0 →
      s.lstateRefused p.val (s.fld (aTP_CTRL p.val) fTP_CTRL_LSTATE) = false → s.bit (aTP_CTRL p.val) fTP_CTRL_EN →
      s.bit (aTP_CTRL p.val) fTP_CTRL_RETRAIN = false → s.tpState p.val = 5 → (s.port p.val).pairCause = false →
      Writes (.portAccept m p) m (aTP_CTRL p.val) (putF (s.reg (aTP_CTRL p.val)) fTP_CTRL_ACCEPT 1) .ok s (fun u => u.reg (aTP_EXP_LO p.val) = s.reg (aTP_SEEN_LO p.val) ∧
      u.reg (aTP_EXP_HI p.val) = s.reg (aTP_SEEN_HI p.val) ∧ u.tpState p.val = 6 ∧
      u.bit (aTP_STATUS p.val) fTP_STATUS_VERIFIED ∧ s.keepsElse u [.be, .ev, .hw, .lanes, .nis, .ports] portReg)) ∧
    (∀ (m : Rm) (p : Fin 6), s.ringReady m (aTP_CTRL p.val) → s.fld (aTP_CTRL p.val) fTP_CTRL_LOOP = 0 →
      s.lstateRefused p.val (s.fld (aTP_CTRL p.val) fTP_CTRL_LSTATE) = false → s.bit (aTP_CTRL p.val) fTP_CTRL_EN →
      s.bit (aTP_CTRL p.val) fTP_CTRL_RETRAIN = false → s.tpState p.val ≠ 5 → s.tpState p.val ≠ 11 →
      Writes (.portAccept m p) m (aTP_CTRL p.val) (putF (s.reg (aTP_CTRL p.val)) fTP_CTRL_ACCEPT 1) .ok s (fun u => u.reg (aTP_EXP_LO p.val) = s.reg (aTP_SEEN_LO p.val) ∧
      u.reg (aTP_EXP_HI p.val) = s.reg (aTP_SEEN_HI p.val) ∧ u.tpState p.val = s.tpState p.val ∧ s.keepsElse u [.be, .ev, .hw,
      .lanes, .nis, .ports] portReg)) ∧
    (∀ (m : Rm) (p : Fin 6), s.ringReady m (aTP_CTRL p.val) → s.tpState p.val = 5 → (s.port p.val).pairCause →
      s.fld (aTP_CTRL p.val) fTP_CTRL_LOOP = 0 →
      Writes (.portAccept m p) m (aTP_CTRL p.val) (putF (s.reg (aTP_CTRL p.val)) fTP_CTRL_ACCEPT 1) .refused s (fun u => u = s)) ∧
    (∀ (p : Fin 6) (c : BitVec 256), s.runs → (posByte c 0 = clsByte 6 ∨ posByte c 0 = clsByte 7) → posCrcOk c →
      (s.tpState p.val = 5 ∨ ((s.tpState p.val = 6 ∨ s.tpState p.val = 7) ∧ (posByte c 1).testBit 4 = false) ∨
      s.tpState p.val = 8) →
      (List.range 16).all (fun i => decide ((s.lane (portLane p.val i).1 (portLane p.val i).2).errAt.length < 16)) →
      Leads (.controlPositionReceive p c 0) s (fun t => (t.tpState p.val = s.tpState p.val ∨ (s.tpState p.val = 6 ∧
      t.tpState p.val = 7)) ∧ (t.port p.val).farFlags = BitVec.ofNat 8 (posByte c 1) ∧
      (t.port p.val).keys = c.extractLsb' 104 128 ∧ (t.port p.val).keyOk ∧
      (t.port p.val).farReq = BitVec.ofNat 8 (posByte c 2) ∧
      (t.port p.val).sentReq = (s.port p.val).sentReq - freedSince (BitVec.ofNat 8 (posByte c 2)) (s.port p.val).farReq ∧
      (t.port p.val).sentRsp = (s.port p.val).sentRsp - freedSince (BitVec.ofNat 8 (posByte c 3)) (s.port p.val).farRsp ∧
      t.bit (aTP_STATUS p.val) fTP_STATUS_FAR_SCHED = (posByte c 1).testBit 3 ∧ s.keepsElse t [.ev, .hw, .ports,
      .remoteIn] (among [aTP_STATUS p.val, aTP_ERR p.val]))) ∧
    (∀ (p : Fin 6) (c : BitVec 256), s.runs → (posByte c 0 = clsByte 6 ∨ posByte c 0 = clsByte 7) → posCrcOk c →
      (s.tpState p.val = 6 ∨ s.tpState p.val = 7) → (posByte c 1).testBit 4 →
      (List.range 16).all (fun i => decide ((s.lane (portLane p.val i).1 (portLane p.val i).2).errAt.length < 16)) →
      Leads (.controlPositionReceive p c 0) s (fun t => t.tpState p.val = 9 ∧
      t.fld (aTP_STATUS p.val) fTP_STATUS_HALF = (if (posByte c 1).testBit 5 then 1 else 0) ∧
      (t.port p.val).switchAt.any (fun k => k / 64 % 256 == posByte c 29) ∧
      (t.port p.val).farFlags = BitVec.ofNat 8 (posByte c 1) ∧ (t.port p.val).keys = c.extractLsb' 104 128 ∧
      (t.port p.val).keyOk ∧ (t.port p.val).farReq = BitVec.ofNat 8 (posByte c 2) ∧
      (t.port p.val).sentReq = (s.port p.val).sentReq - freedSince (BitVec.ofNat 8 (posByte c 2)) (s.port p.val).farReq ∧
      (t.port p.val).sentRsp = (s.port p.val).sentRsp - freedSince (BitVec.ofNat 8 (posByte c 3)) (s.port p.val).farRsp ∧
      t.bit (aTP_STATUS p.val) fTP_STATUS_FAR_SCHED = (posByte c 1).testBit 3 ∧ s.keepsElse t [.ev, .hw, .ports,
      .remoteIn] (among [aTP_STATUS p.val, aTP_ERR p.val]))) ∧
    (∀ (p : Fin 6) (c : BitVec 256) (k : Nat), s.runs → (posByte c 0 = clsByte 6 ∨ posByte c 0 = clsByte 7) → posCrcOk c →
      s.tpState p.val = 9 → (s.port p.val).switchAt = some k → k + s.portD p.val ≤ s.tickN →
      Leads (.controlPositionReceive p c 0) s (fun t => t.tpState p.val = 8 ∧ t.showsEvent (portEvent p.val 5) ∧
      (t.port p.val).farFlags = BitVec.ofNat 8 (posByte c 1) ∧ (t.port p.val).keys = c.extractLsb' 104 128 ∧
      (t.port p.val).keyOk ∧ (t.port p.val).farReq = BitVec.ofNat 8 (posByte c 2) ∧
      (t.port p.val).sentReq = (s.port p.val).sentReq - freedSince (BitVec.ofNat 8 (posByte c 2)) (s.port p.val).farReq ∧
      (t.port p.val).sentRsp = (s.port p.val).sentRsp - freedSince (BitVec.ofNat 8 (posByte c 3)) (s.port p.val).farRsp ∧
      t.bit (aTP_STATUS p.val) fTP_STATUS_FAR_SCHED = (posByte c 1).testBit 3 ∧ s.keepsElse t [.ev, .hw, .ports,
      .remoteIn] (among [aTP_STATUS p.val, aTP_ERR p.val]))) ∧
    (∀ (p : Fin 6) (c : BitVec 256), s.runs → (posByte c 0 = clsByte 6 ∨ posByte c 0 = clsByte 7) → posCrcOk c →
      s.tpState p.val = 9 → (s.port p.val).switchAt.all (fun k => decide (s.tickN < k + s.portD p.val)) →
      Leads (.controlPositionReceive p c 0) s (fun t => t.tpState p.val = 9 ∧
      (t.port p.val).farFlags = BitVec.ofNat 8 (posByte c 1) ∧ (t.port p.val).keys = c.extractLsb' 104 128 ∧
      (t.port p.val).keyOk ∧ (t.port p.val).farReq = BitVec.ofNat 8 (posByte c 2) ∧
      (t.port p.val).sentReq = (s.port p.val).sentReq - freedSince (BitVec.ofNat 8 (posByte c 2)) (s.port p.val).farReq ∧
      (t.port p.val).sentRsp = (s.port p.val).sentRsp - freedSince (BitVec.ofNat 8 (posByte c 3)) (s.port p.val).farRsp ∧
      t.bit (aTP_STATUS p.val) fTP_STATUS_FAR_SCHED = (posByte c 1).testBit 3 ∧ s.keepsElse t [.ev, .hw, .ports,
      .remoteIn] (among [aTP_STATUS p.val, aTP_ERR p.val]))) ∧
    (∀ (p : Fin 6) (c : BitVec 256), s.runs → 5 ≤ s.tpState p.val → s.tpState p.val ≤ 9 →
      (List.range 16).all (fun i => decide ((s.lane (portLane p.val i).1 (portLane p.val i).2).errAt.length < 16)) →
      (posCrcOk c = false ∨ (posByte c 0 ≠ clsByte 6 ∧ posByte c 0 ≠ clsByte 7)) →
      Leads (.controlPositionReceive p c 0) s (fun t => t.bit (aTP_ERR p.val) fTP_ERR_CTRL_CRC ∧ (t.port p.val).keyOk = false ∧
      (t.port p.val).remoteHalf = none ∧ (t.port p.val).farFlags = (s.port p.val).farFlags ∧ s.keepsElse t [.hw,
      .ports] (among [aTP_ERR p.val]))) ∧
    (∀ (p : Fin 6) (c : BitVec 256) (e : BitVec 32), (s.runs = false ∨ s.tpState p.val < 5 ∨ 9 < s.tpState p.val) →
      exec (.controlPositionReceive p c e) s = .next (s)) ∧
    (∀ (p : Fin 6) (c : Nat), s.runs → s.tpState p.val = 7 → s.tickN % 64 = 0 → (s.port p.val).disStep ≠ 3 →
      s.leaveCause p.val = some c → Leads (.leaveSched p) s (fun t => t.tpState p.val = 6 ∧ (t.port p.val).outCause = c ∧
      t.bit (aTP_STATUS p.val) fTP_STATUS_SCHED = false ∧ t.showsEvent (portEvent p.val 1) ∧ s.keepsElse t [.ev, .hw,
      .ports] (among [aTP_STATUS p.val, aTP_ERR p.val]))) ∧
    (∀ (p : Fin 6), s.runs → s.tpState p.val = 7 → s.tickN % 64 = 0 → (s.port p.val).disStep = 3 →
      Leads (.leaveSched p) s (fun t => t.tpState p.val = (if s.fld (aTP_CTRL p.val) fTP_CTRL_LSTATE = 2 then 11 else 0) ∧
      t.bit (aTP_CTRL p.val) fTP_CTRL_EN = false ∧ t.bit (aTP_STATUS p.val) fTP_STATUS_DRAINED ∧
      t.showsEvent (portEvent p.val 6) ∧ t.showsEvent (portEvent p.val 1) ∧ s.keepsElse t [.be, .ev, .hw, .nis,
      .ports] portReg)) ∧
    (∀ (p : Fin 6), (s.runs = false ∨ s.tpState p.val ≠ 7 ∨ s.tickN % 64 ≠ 0 ∨ ((s.port p.val).disStep ≠ 3 ∧
      s.leaveCause p.val = none)) → exec (.leaveSched p) s = .next (s)) ∧
    (∀ (p : Fin 6) (k : Nat), s.runs → s.tpState p.val = 9 → (s.port p.val).switchAt = some k → k + s.portD p.val ≤ s.tickN →
      Leads (.halfWidthSwitch p) s (fun t => t.tpState p.val = 8 ∧ (t.port p.val).switchAt = none ∧
      t.bit (aTP_STATUS p.val) fTP_STATUS_DEGRADED ∧ t.showsEvent (portEvent p.val 5) ∧ s.keepsElse t [.ev, .hw,
      .ports] (among [aTP_STATUS p.val, aTP_ERR p.val]))) ∧
    (∀ (p : Fin 6), (s.runs = false ∨ s.tpState p.val ≠ 9 ∨
      (s.port p.val).switchAt.all (fun k => decide (s.tickN < k + s.portD p.val))) → exec (.halfWidthSwitch p) s = .next (s))

/-- A scheduled position in scheduled mode is released to the hub router its delay after its send tick, decrypted where its
key slot is usable, a marker in its place where it is damaged, its frame lost its control position, or its key cannot be used;
best-effort and stream positions are collected. A flit at the transmit side is sent two ticks on; one that overlaps the one
before, or the frame end, waits as a marker with a record of kind 2. RETRAIN and EN start training; DIS begins a disable,
forced or not; a budgeted port refuses quiet and rest; rest and quiet are stored, quiet is entered on the agreed boundary and
left 150 ticks after traffic asks. A port loop needs an idle port. Model choices it rests on: log entries 44, 52, 56, 58, 144,
145, 147, 149. (07_device_torus.md R159 to R162, R165, R166, R180, R183, 13_ecc_and_keyed_mix.md R318, R319,
18_test_and_loopbacks.md R415, R416) -/
def Obligations.PortPositionsAndControl : Prop :=
  ∀ s : State, s.Inv →
    (∀ (p : Fin 6) (x : PortRx), s.runs → s.tpState p.val = 7 → (s.port p.val).rxSched → x.k = false → x.errs = 0 →
      (List.range 16).all (fun i => decide ((s.lane (portLane p.val i).1 (portLane p.val i).2).errAt.length < 16)) →
      (s.port p.val).keyOk →
      bitsOf (s.port p.val).keys.toNat (4 * (s.port p.val).ctrlSeen + 3) (4 * (s.port p.val).ctrlSeen) = 0 →
      Leads (.portPositionReceive p x) s (fun t => t.pat.flight = s.pat.flight ++ [{ flit := { markerFlit 0 with valid := true, payload := x.content }, loc := .router 6 (portRouter p.val) 5 (some (.port p.val)), due := s.now + (s.port p.val).delay.getD (s.budget p.val) - 2 - s.portD p.val }] ∧
      (t.port p.val).ctrlSeen = (s.port p.val).ctrlSeen + 1 ∧ s.keepsElse t [.pat, .ports] (fun _ => false))) ∧
    (∀ (p : Fin 6) (x : PortRx), s.runs → s.tpState p.val = 7 → (s.port p.val).rxSched → x.k = false → x.errs = 0 →
      (List.range 16).all (fun i => decide ((s.lane (portLane p.val i).1 (portLane p.val i).2).errAt.length < 16)) →
      (s.port p.val).keyOk →
      bitsOf (s.port p.val).keys.toNat (4 * (s.port p.val).ctrlSeen + 3) (4 * (s.port p.val).ctrlSeen) ≠ 0 →
      s.slotUsable (bitsOf (s.port p.val).keys.toNat (4 * (s.port p.val).ctrlSeen + 3) (4 * (s.port p.val).ctrlSeen)) →
      Leads (.portPositionReceive p x) s (fun t => t.pat.flight = s.pat.flight ++ [{ flit := { markerFlit 0 with valid := true, key := bitsOf (s.port p.val).keys.toNat (4 * (s.port p.val).ctrlSeen + 3) (4 * (s.port p.val).ctrlSeen), payload := linkMix true (s.slotKey (bitsOf (s.port p.val).keys.toNat (4 * (s.port p.val).ctrlSeen + 3) (4 * (s.port p.val).ctrlSeen))) (s.fld (aTP_SEEN_INFO p.val) fTP_SEEN_INFO_DEV) (s.fld (aTP_SEEN_INFO p.val) fTP_SEEN_INFO_PORT) (s.rxTick p.val) x.content }, loc := .router 6 (portRouter p.val) 5 (some (.port p.val)), due := s.now + (s.port p.val).delay.getD (s.budget p.val) - 2 - s.portD p.val }] ∧
      (t.port p.val).ctrlSeen = (s.port p.val).ctrlSeen + 1 ∧ s.keepsElse t [.pat, .ports] (fun _ => false))) ∧
    (∀ (p : Fin 6) (x : PortRx), s.runs → s.tpState p.val = 7 → (s.port p.val).rxSched → x.k = false → x.errs = 0 →
      (List.range 16).all (fun i => decide ((s.lane (portLane p.val i).1 (portLane p.val i).2).errAt.length < 16)) →
      (s.port p.val).keyOk →
      bitsOf (s.port p.val).keys.toNat (4 * (s.port p.val).ctrlSeen + 3) (4 * (s.port p.val).ctrlSeen) ≠ 0 →
      s.slotUsable (bitsOf (s.port p.val).keys.toNat (4 * (s.port p.val).ctrlSeen + 3) (4 * (s.port p.val).ctrlSeen)) = false →
      Leads (.portPositionReceive p x) s (fun t => t.pat.flight = s.pat.flight ++ [{ flit := markerFlit 9, loc := .router 6 (portRouter p.val) 5 (some (.port p.val)), due := s.now + (s.port p.val).delay.getD (s.budget p.val) - 2 - s.portD p.val }] ∧
      t.bit aKM_ERR fKM_ERR_LINK_RX ∧ (t.port p.val).ctrlSeen = (s.port p.val).ctrlSeen + 1 ∧ s.keepsElse t [.ev, .hw, .pat,
      .ports] (among [aKM_ERR]))) ∧
    (∀ (p : Fin 6) (x : PortRx), s.runs → s.tpState p.val = 7 → (s.port p.val).rxSched → x.k = false → x.errs = 0 →
      (List.range 16).all (fun i => decide ((s.lane (portLane p.val i).1 (portLane p.val i).2).errAt.length < 16)) →
      (s.port p.val).keyOk = false →
      Leads (.portPositionReceive p x) s (fun t => t.pat.flight = s.pat.flight ++ [{ flit := markerFlit 9, loc := .router 6 (portRouter p.val) 5 (some (.port p.val)), due := s.now + (s.port p.val).delay.getD (s.budget p.val) - 2 - s.portD p.val }] ∧
      (t.port p.val).ctrlSeen = (s.port p.val).ctrlSeen + 1 ∧ s.keepsElse t [.pat, .ports] (fun _ => false))) ∧
    (∀ (p : Fin 6) (x : PortRx), s.runs → s.tpState p.val = 7 → (s.port p.val).rxSched → x.k = false → x.errs ≠ 0 →
      (List.range 16).all (fun i => decide ((s.lane (portLane p.val i).1 (portLane p.val i).2).errAt.length < 12)) →
      Leads (.portPositionReceive p x) s (fun t => t.pat.flight = s.pat.flight ++ [{ flit := markerFlit 9, loc := .router 6 (portRouter p.val) 5 (some (.port p.val)), due := s.now + (s.port p.val).delay.getD (s.budget p.val) - 2 - s.portD p.val }] ∧
      (t.port p.val).ctrlSeen = (s.port p.val).ctrlSeen + 1 ∧ (∀ k, k < 16 → x.errs.getLsbD k →
      x.errs.getLsbD (16 + k) = false →
      t.fld (aLN_ERRCNT (portLane p.val k).1 (portLane p.val k).2) fLN_ERRCNT_ERR = min (s.fld (aLN_ERRCNT (portLane p.val k).1 (portLane p.val k).2) fLN_ERRCNT_ERR + 1) 65535) ∧
      s.keepsElse t [.hw, .lanes, .pat, .ports] portReg)) ∧
    (∀ (p : Fin 6) (x : PortRx), s.runs → s.portManages p.val → x.k → x.errs = 0 →
      (List.range 16).all (fun i => decide ((s.lane (portLane p.val i).1 (portLane p.val i).2).errAt.length < 16)) →
      posByte x.content 0 = clsByte 1 → s.tpState p.val = 7 → (s.port p.val).rxSched →
      Leads (.portPositionReceive p x) s (fun t => t.pat.flight = s.pat.flight ++ [{ flit := markerFlit (posByte x.content 1 % 16), loc := .router 6 (portRouter p.val) 5 (some (.port p.val)), due := s.now + (s.port p.val).delay.getD (s.budget p.val) - 2 - s.portD p.val }] ∧
      (t.port p.val).ctrlSeen = (s.port p.val).ctrlSeen + 1 ∧ s.keepsElse t [.pat, .ports] (fun _ => false))) ∧
    (∀ (p : Fin 6) (x : PortRx), s.runs → s.portManages p.val → x.k → x.errs = 0 →
      (List.range 16).all (fun i => decide ((s.lane (portLane p.val i).1 (portLane p.val i).2).errAt.length < 16)) →
      posByte x.content 0 = clsByte 2 → s.portCarriesBe p.val →
      Leads (.portPositionReceive p x) s (fun t => (t.port p.val).rxLeft = bitsOf (posByte x.content 1) 5 2 ∧
      (t.port p.val).rxFlits = [] ∧ (t.port p.val).rxBad = false ∧ (t.port p.val).ctrlSeen = (s.port p.val).ctrlSeen + 1 ∧
      s.keepsElse t [.ports] (fun _ => false))) ∧
    (∀ (p : Fin 6) (x : PortRx), s.runs → s.portManages p.val → x.k → x.errs = 0 →
      (List.range 16).all (fun i => decide ((s.lane (portLane p.val i).1 (portLane p.val i).2).errAt.length < 16)) →
      posByte x.content 0 = clsByte 3 → s.portCarriesBe p.val → (s.port p.val).rxLeft = 1 → (s.port p.val).rxFlits = [] →
      (s.port p.val).rxBad = false → hNdata (x.content.extractLsb' 8 248 ++ (s.port p.val).rxFirst.getD 0 0 : BitVec 256) = 0 →
      Leads (.portPositionReceive p x) s (fun t => (t.port p.val).rxLeft = 0 ∧ t.be.items.length = s.be.items.length + 1 ∧
      t.be.items.take s.be.items.length = s.be.items ∧
      (t.be.items.drop s.be.items.length).all (fun z => z.pkt == { hdr := (x.content.extractLsb' 8 248 ++ (s.port p.val).rxFirst.getD 0 0 : BitVec 256), data := [] } && z.d == 6 && z.n == portRouter p.val && z.inp == 5) ∧
      s.keepsElse t [.be, .ports] (fun _ => false))) ∧
    (∀ (p : Fin 6) (x : PortRx), s.runs → s.portManages p.val → x.k → x.errs = 0 →
      (List.range 16).all (fun i => decide ((s.lane (portLane p.val i).1 (portLane p.val i).2).errAt.length < 16)) →
      posByte x.content 0 = clsByte 4 → s.portLoads p.val → s.cfg.portSrc.getD p.val = p.val →
      (s.fld aCFG_STATUS fCFG_STATUS_SRC = 0 ∨ s.fld aCFG_STATUS fCFG_STATUS_SRC = 3) → (s.port p.val).cfgIn.length < 128 →
      Leads (.portPositionReceive p x) s (fun t => (t.port p.val).cfgIn = (s.port p.val).cfgIn ++ [{ words := (List.range (min (posByte x.content 1) 7)).map (fun i => x.content.extractLsb' (32 + 32 * i) 32), poison := false }] ∧
      t.cfg.portSrc = some p.val ∧ s.keepsElse t [.cfg, .ports] (fun _ => false))) ∧
    (∀ (p : Fin 6) (x : PortRx), s.runs → s.portManages p.val → x.k → x.errs = 0 →
      (List.range 16).all (fun i => decide ((s.lane (portLane p.val i).1 (portLane p.val i).2).errAt.length < 16)) →
      posByte x.content 0 = clsByte 4 → s.portLoads p.val = false →
      Leads (.portPositionReceive p x) s (fun t => (t.port p.val).cfgIn = (s.port p.val).cfgIn ∧
      (t.port p.val).cfgAccepted = (s.port p.val).cfgAccepted + 1 ∧ s.keepsElse t [.ports] (fun _ => false))) ∧
    (∀ (p : Fin 6) (x : PortRx), s.runs → s.portManages p.val → x.k → x.errs = 0 →
      (List.range 16).all (fun i => decide ((s.lane (portLane p.val i).1 (portLane p.val i).2).errAt.length < 16)) →
      clsOf true (posByte x.content 0) = 5 → exec (.portPositionReceive p x) s = .next (s)) ∧
    (∀ (p : Fin 6) (x : PortRx), (s.runs = false ∨ s.portManages p.val = false) → exec (.portPositionReceive p x) s = .next (s)) ∧
    (∀ (p : Fin 6) (i : Item), s.runs → s.pat.flight.filter (fun y => y.loc == .portTx p.val && decide (y.due ≤ s.now)) = [i] →
      s.tpState p.val = 7 → (s.port p.val).admits.all (fun a => a.1 != s.tickAt i.due + 1) → frameFits (s.tickAt i.due) →
      i.flit.valid → s.portCause p.val false = none → (i.flit.key = 0 ∨ alignFrame (s.tickAt i.due + 2)) →
      Leads (.portAdmitScheduled p) s (fun t => (t.port p.val).lastSent.getLast? = some { sendTick := s.tickAt i.due + 2, cls := 0, payload := i.flit.payload, codeError := false } ∧
      (s.tickAt i.due + 2, i.flit.flow) ∈ (t.port p.val).admits ∧
      t.pat.flight = s.pat.flight.filter (fun y => !(y.loc == .portTx p.val && decide (y.due ≤ s.now))) ∧
      t.pat.log = s.pat.log ∧ s.keepsElse t [.pat, .ports] (fun _ => false))) ∧
    (∀ (p : Fin 6) (i : Item), s.runs → s.pat.flight.filter (fun y => y.loc == .portTx p.val && decide (y.due ≤ s.now)) = [i] →
      s.tpState p.val = 7 → (s.port p.val).admits.all (fun a => a.1 != s.tickAt i.due + 1) → frameFits (s.tickAt i.due) →
      i.flit.valid → s.portCause p.val false = none → ¬ (i.flit.key = 0 ∨ alignFrame (s.tickAt i.due + 2)) →
      s.slotUsable i.flit.key →
      Leads (.portAdmitScheduled p) s (fun t => (t.port p.val).lastSent.getLast? = some { sendTick := s.tickAt i.due + 2, cls := 0, payload := linkMix false (s.slotKey i.flit.key) s.devId p.val (s.tickAt i.due + 2) i.flit.payload, codeError := false } ∧
      (s.tickAt i.due + 2, i.flit.flow) ∈ (t.port p.val).admits ∧
      t.pat.flight = s.pat.flight.filter (fun y => !(y.loc == .portTx p.val && decide (y.due ≤ s.now))) ∧
      t.pat.log = s.pat.log ∧ s.keepsElse t [.pat, .ports] (fun _ => false))) ∧
    (∀ (p : Fin 6) (i : Item), s.runs → s.pat.flight.filter (fun y => y.loc == .portTx p.val && decide (y.due ≤ s.now)) = [i] →
      s.tpState p.val = 7 → (s.port p.val).admits.all (fun a => a.1 != s.tickAt i.due + 1) → frameFits (s.tickAt i.due) →
      i.flit.valid → s.portCause p.val false = none → ¬ (i.flit.key = 0 ∨ alignFrame (s.tickAt i.due + 2)) →
      s.slotUsable i.flit.key = false →
      Leads (.portAdmitScheduled p) s (fun t => (t.port p.val).lastSent.getLast? = some { sendTick := s.tickAt i.due + 2, cls := 0, payload := i.flit.payload, codeError := false } ∧
      t.bit aKM_ERR fKM_ERR_LINK_TX ∧ (s.tickAt i.due + 2, i.flit.flow) ∈ (t.port p.val).admits ∧
      t.pat.flight = s.pat.flight.filter (fun y => !(y.loc == .portTx p.val && decide (y.due ≤ s.now))) ∧
      t.pat.log = s.pat.log ∧ s.keepsElse t [.ev, .hw, .pat, .ports] (among [aKM_ERR]))) ∧
    (∀ (p : Fin 6) (i : Item) (c : Nat), s.runs →
      s.pat.flight.filter (fun y => y.loc == .portTx p.val && decide (y.due ≤ s.now)) = [i] → s.tpState p.val = 7 →
      (s.port p.val).admits.all (fun a => a.1 != s.tickAt i.due + 1) → frameFits (s.tickAt i.due) →
      (if i.flit.valid then s.portCause p.val false else some i.flit.cause) = some c →
      Leads (.portAdmitScheduled p) s (fun t => (t.port p.val).lastSent.getLast? = some (mkPos (s.tickAt i.due + 2) 1 c) ∧
      (s.tickAt i.due + 2, i.flit.flow) ∈ (t.port p.val).admits ∧
      t.pat.flight = s.pat.flight.filter (fun y => !(y.loc == .portTx p.val && decide (y.due ≤ s.now))) ∧
      t.pat.log = s.pat.log ∧ s.keepsElse t [.pat, .ports] (fun _ => false))) ∧
    (∀ (p : Fin 6) (i : Item) (a : Nat × Nat), s.runs →
      s.pat.flight.filter (fun y => y.loc == .portTx p.val && decide (y.due ≤ s.now)) = [i] → s.tpState p.val = 7 →
      (s.port p.val).admits.find? (fun a => a.1 == s.tickAt i.due + 1) = some a → s.pat.log.length < 16 →
      Leads (.portAdmitScheduled p) s (fun t => t.pat.log = s.pat.log ++ [{ kind := 2, flowA := a.2, flowB := i.flit.flow, die := 6, router := portRouter p.val, port := p.val, tick := BitVec.ofNat 32 s.tickN }] ∧
      (t.port p.val).markQ = (s.port p.val).markQ ++ [if i.flit.valid then 2 else i.flit.cause] ∧
      (t.port p.val).lastSent = (s.port p.val).lastSent ∧ t.showsEvent 24 ∧
      t.pat.flight = s.pat.flight.filter (fun y => !(y.loc == .portTx p.val && decide (y.due ≤ s.now))) ∧ s.keepsElse t [.ev,
      .hw, .pat, .ports] (fun _ => false))) ∧
    (∀ (p : Fin 6) (i : Item), s.runs → s.pat.flight.filter (fun y => y.loc == .portTx p.val && decide (y.due ≤ s.now)) = [i] →
      s.tpState p.val = 7 → (s.port p.val).admits.all (fun a => a.1 != s.tickAt i.due + 1) →
      frameFits (s.tickAt i.due) = false → s.pat.log.length < 16 →
      Leads (.portAdmitScheduled p) s (fun t => t.pat.log = s.pat.log ++ [{ kind := 2, flowA := i.flit.flow, flowB := i.flit.flow, die := 6, router := portRouter p.val, port := p.val, tick := BitVec.ofNat 32 s.tickN }] ∧
      (t.port p.val).markQ = (s.port p.val).markQ ++ [if i.flit.valid then 2 else i.flit.cause] ∧
      (t.port p.val).lastSent = (s.port p.val).lastSent ∧ t.showsEvent 24 ∧
      t.pat.flight = s.pat.flight.filter (fun y => !(y.loc == .portTx p.val && decide (y.due ≤ s.now))) ∧ s.keepsElse t [.ev,
      .hw, .pat, .ports] (fun _ => false))) ∧
    (∀ (p : Fin 6), (s.runs = false ∨ s.pat.flight.filter (fun y => y.loc == .portTx p.val && decide (y.due ≤ s.now)) = []) →
      exec (.portAdmitScheduled p) s = .next (s)) ∧
    (∀ (m : Rm) (p : Fin 6), s.ringReady m (aTP_CTRL p.val) → s.fld (aTP_CTRL p.val) fTP_CTRL_LOOP = 0 →
      s.lstateRefused p.val (s.fld (aTP_CTRL p.val) fTP_CTRL_LSTATE) = false → s.domOn (40 + p.val) →
      s.bit (aTP_CTRL p.val) fTP_CTRL_ACCEPT = false → s.bit (aTP_CTRL p.val) fTP_CTRL_EN →
      s.bit (aTP_CTRL p.val) fTP_CTRL_DIS = false → (s.port p.val).disStep ≠ 3 →
      Writes (.portRetrain m p) m (aTP_CTRL p.val) (putF (s.reg (aTP_CTRL p.val)) fTP_CTRL_RETRAIN 1) .ok s (fun u => u.tpState p.val = 1 ∧
      (u.port p.val).stageAt = s.now ∧ s.keepsElse u [.be, .ev, .hw, .lanes, .nis, .ports] portReg)) ∧
    (∀ (m : Rm) (p : Fin 6), s.ringReady m (aTP_CTRL p.val) → s.fld (aTP_CTRL p.val) fTP_CTRL_LOOP = 0 →
      s.lstateRefused p.val (s.fld (aTP_CTRL p.val) fTP_CTRL_LSTATE) = false → s.domOn (40 + p.val) →
      s.bit (aTP_CTRL p.val) fTP_CTRL_ACCEPT = false → s.bit (aTP_CTRL p.val) fTP_CTRL_EN = false →
      s.fld (aTP_CTRL p.val) fTP_CTRL_LSTATE ≠ 2 → (s.port p.val).disStep ≠ 3 →
      Writes (.portEnable m p) m (aTP_CTRL p.val) (putF (putF (putF (s.reg (aTP_CTRL p.val)) fTP_CTRL_EN 1) fTP_CTRL_DIS 0) fTP_CTRL_FORCE 0) .ok s (fun u => u.tpState p.val = 1 ∧
      u.bit (aTP_CTRL p.val) fTP_CTRL_EN ∧ u.bit (aTP_STATUS p.val) fTP_STATUS_DRAINED = false ∧ s.keepsElse u [.be, .ev, .hw,
      .lanes, .nis, .ports] portReg)) ∧
    (∀ (m : Rm) (p : Fin 6), s.ringReady m (aTP_CTRL p.val) → s.fld (aTP_CTRL p.val) fTP_CTRL_LOOP = 0 →
      s.lstateRefused p.val (s.fld (aTP_CTRL p.val) fTP_CTRL_LSTATE) = false → s.domOn (40 + p.val) →
      s.bit (aTP_CTRL p.val) fTP_CTRL_ACCEPT = false → s.bit (aTP_CTRL p.val) fTP_CTRL_EN →
      s.bit (aTP_CTRL p.val) fTP_CTRL_RETRAIN = false → s.tpState p.val ≠ 11 →
      Writes (.portEnable m p) m (aTP_CTRL p.val) (putF (putF (putF (s.reg (aTP_CTRL p.val)) fTP_CTRL_EN 1) fTP_CTRL_DIS 0) fTP_CTRL_FORCE 0) .ok s (fun u => u.tpState p.val = s.tpState p.val ∧
      (u.port p.val).disStep = (if (s.port p.val).disStep = 3 then 3 else 0) ∧ u.bit (aTP_CTRL p.val) fTP_CTRL_DIS = false ∧
      s.keepsElse u [.ports] (among [(aTP_CTRL p.val)]))) ∧
    (∀ (m : Rm) (p : Fin 6), s.ringReady m (aTP_CTRL p.val) → s.fld (aTP_CTRL p.val) fTP_CTRL_LOOP = 0 →
      s.lstateRefused p.val (s.fld (aTP_CTRL p.val) fTP_CTRL_LSTATE) = false → s.domOn (40 + p.val) →
      s.bit (aTP_CTRL p.val) fTP_CTRL_ACCEPT = false → s.bit (aTP_CTRL p.val) fTP_CTRL_EN →
      s.bit (aTP_STATUS p.val) fTP_STATUS_DRAINED = false → (s.port p.val).disStep = 0 →
      Writes (.portDisable m p false) m (aTP_CTRL p.val) (putF (putF (s.reg (aTP_CTRL p.val)) fTP_CTRL_DIS 1) fTP_CTRL_FORCE 0) .ok s (fun u => u.tpState p.val = s.tpState p.val ∧
      (u.port p.val).disStep = 1 ∧ (u.port p.val).remoteQ = (s.port p.val).remoteQ ∧ u.bit (aTP_CTRL p.val) fTP_CTRL_EN ∧
      u.bit (aTP_CTRL p.val) fTP_CTRL_DIS ∧ s.keepsElse u [.ports] (among [(aTP_CTRL p.val)]))) ∧
    (∀ (m : Rm) (p : Fin 6), s.ringReady m (aTP_CTRL p.val) → s.fld (aTP_CTRL p.val) fTP_CTRL_LOOP = 0 →
      s.lstateRefused p.val (s.fld (aTP_CTRL p.val) fTP_CTRL_LSTATE) = false → s.domOn (40 + p.val) →
      s.bit (aTP_CTRL p.val) fTP_CTRL_ACCEPT = false → s.bit (aTP_CTRL p.val) fTP_CTRL_EN →
      s.bit (aTP_STATUS p.val) fTP_STATUS_DRAINED = false → ((s.port p.val).disStep = 0 ∨ (s.port p.val).disStep = 1) →
      Writes (.portDisable m p true) m (aTP_CTRL p.val) (putF (putF (s.reg (aTP_CTRL p.val)) fTP_CTRL_DIS 1) fTP_CTRL_FORCE 1) .ok s (fun u => u.tpState p.val = s.tpState p.val ∧
      (u.port p.val).disStep = 1 ∧ (u.port p.val).remoteQ = [] ∧ (u.port p.val).remoteOut = none ∧
      (u.port p.val).startSent = false ∧ u.bit (aTP_CTRL p.val) fTP_CTRL_EN ∧ s.keepsElse u [.be, .ev, .hw, .nis,
      .ports] (fun a => a == (aTP_CTRL p.val) || niReg a))) ∧
    (∀ (m : Rm) (p : Fin 6) (k : Bool), s.ringReady m (aTP_CTRL p.val) → s.fld (aTP_CTRL p.val) fTP_CTRL_LOOP = 0 →
      s.lstateRefused p.val (s.fld (aTP_CTRL p.val) fTP_CTRL_LSTATE) = false → s.domOn (40 + p.val) →
      s.bit (aTP_CTRL p.val) fTP_CTRL_ACCEPT = false → s.bit (aTP_CTRL p.val) fTP_CTRL_EN →
      s.bit (aTP_STATUS p.val) fTP_STATUS_DRAINED →
      Writes (.portDisable m p k) m (aTP_CTRL p.val) (putF (putF (s.reg (aTP_CTRL p.val)) fTP_CTRL_DIS 1) fTP_CTRL_FORCE (if k then 1 else 0)) .ok s (fun u => u.tpState p.val = s.tpState p.val ∧
      s.keepsElse u [] (among [(aTP_CTRL p.val)]))) ∧
    (∀ (m : Rm) (p : Fin 6), s.ringReady m (aTP_CTRL p.val) → s.fld (aTP_CTRL p.val) fTP_CTRL_LOOP = 0 → (s.budget p.val ≠ 0) →
      Writes (.portQuiet m p) m (aTP_CTRL p.val) (putF (s.reg (aTP_CTRL p.val)) fTP_CTRL_LSTATE 1) .refused s (fun u => u = s)) ∧
    (∀ (m : Rm) (p : Fin 6), s.ringReady m (aTP_CTRL p.val) → s.fld (aTP_CTRL p.val) fTP_CTRL_LOOP = 0 →
      s.lstateRefused p.val 1 = false → s.bit (aTP_CTRL p.val) fTP_CTRL_ACCEPT = false → s.domOn (40 + p.val) →
      s.bit (aTP_CTRL p.val) fTP_CTRL_EN → s.bit (aTP_CTRL p.val) fTP_CTRL_DIS = false →
      s.bit (aTP_CTRL p.val) fTP_CTRL_RETRAIN = false →
      Writes (.portQuiet m p) m (aTP_CTRL p.val) (putF (s.reg (aTP_CTRL p.val)) fTP_CTRL_LSTATE 1) .ok s (fun u => u.fld (aTP_CTRL p.val) fTP_CTRL_LSTATE = 1 ∧
      u.tpState p.val = s.tpState p.val ∧ s.keepsElse u [.ports] (among [(aTP_CTRL p.val)]))) ∧
    (∀ (m : Rm) (p : Fin 6), s.ringReady m (aTP_CTRL p.val) → s.fld (aTP_CTRL p.val) fTP_CTRL_LOOP = 0 → (s.budget p.val ≠ 0 ∨
      (s.fld aREF_CTRL fREF_CTRL_SRC = 1 ∧ s.fld aREF_CTRL fREF_CTRL_PORT = p.val)) →
      Writes (.portRest m p) m (aTP_CTRL p.val) (putF (s.reg (aTP_CTRL p.val)) fTP_CTRL_LSTATE 2) .refused s (fun u => u = s)) ∧
    (∀ (m : Rm) (p : Fin 6), s.ringReady m (aTP_CTRL p.val) → s.fld (aTP_CTRL p.val) fTP_CTRL_LOOP = 0 →
      s.lstateRefused p.val 2 = false → s.bit (aTP_CTRL p.val) fTP_CTRL_ACCEPT = false → s.domOn (40 + p.val) →
      s.bit (aTP_CTRL p.val) fTP_CTRL_EN → s.bit (aTP_CTRL p.val) fTP_CTRL_DIS = false →
      s.bit (aTP_CTRL p.val) fTP_CTRL_RETRAIN = false →
      Writes (.portRest m p) m (aTP_CTRL p.val) (putF (s.reg (aTP_CTRL p.val)) fTP_CTRL_LSTATE 2) .ok s (fun u => u.fld (aTP_CTRL p.val) fTP_CTRL_LSTATE = 2 ∧
      u.tpState p.val = s.tpState p.val ∧ s.keepsElse u [.ports] (among [(aTP_CTRL p.val)]))) ∧
    (∀ (m : Rm) (p : Fin 6), s.ringReady m (aTP_CTRL p.val) → s.fld (aTP_CTRL p.val) fTP_CTRL_LOOP = 0 →
      s.lstateRefused p.val 2 = false → s.bit (aTP_CTRL p.val) fTP_CTRL_ACCEPT = false → s.domOn (40 + p.val) →
      s.bit (aTP_CTRL p.val) fTP_CTRL_EN = false →
      Writes (.portRest m p) m (aTP_CTRL p.val) (putF (s.reg (aTP_CTRL p.val)) fTP_CTRL_LSTATE 2) .ok s (fun u => u.fld (aTP_CTRL p.val) fTP_CTRL_LSTATE = 2 ∧
      u.tpState p.val = 11 ∧ s.keepsElse u [.be, .ev, .hw, .nis, .ports] portReg)) ∧
    (∀ (m : Rm) (p : Fin 6), s.ringReady m (aTP_CTRL p.val) → s.fld (aTP_CTRL p.val) fTP_CTRL_LOOP = 0 →
      s.bit (aTP_CTRL p.val) fTP_CTRL_ACCEPT = false → s.domOn (40 + p.val) → s.bit (aTP_CTRL p.val) fTP_CTRL_EN →
      s.bit (aTP_CTRL p.val) fTP_CTRL_DIS = false → s.bit (aTP_CTRL p.val) fTP_CTRL_RETRAIN = false →
      (s.port p.val).disStep ≠ 3 → s.tpState p.val ≠ 11 →
      Writes (.portActive (some m) p) m (aTP_CTRL p.val) (putF (s.reg (aTP_CTRL p.val)) fTP_CTRL_LSTATE 0) .ok s (fun u => u.fld (aTP_CTRL p.val) fTP_CTRL_LSTATE = 0 ∧
      u.tpState p.val = s.tpState p.val ∧ (u.port p.val).wakeAt = (if s.tpState p.val = 10 ∧
      (s.port p.val).wakeAt.isNone then some (s.now + 150) else (s.port p.val).wakeAt) ∧
      s.keepsElse u [.ports] (among [(aTP_CTRL p.val)]))) ∧
    (∀ (m : Rm) (p : Fin 6), s.ringReady m (aTP_CTRL p.val) → s.fld (aTP_CTRL p.val) fTP_CTRL_LOOP = 0 →
      s.bit (aTP_CTRL p.val) fTP_CTRL_ACCEPT = false → s.domOn (40 + p.val) → s.bit (aTP_CTRL p.val) fTP_CTRL_EN →
      s.bit (aTP_CTRL p.val) fTP_CTRL_DIS = false → s.bit (aTP_CTRL p.val) fTP_CTRL_RETRAIN = false →
      (s.port p.val).disStep ≠ 3 → s.tpState p.val = 11 →
      Writes (.portActive (some m) p) m (aTP_CTRL p.val) (putF (s.reg (aTP_CTRL p.val)) fTP_CTRL_LSTATE 0) .ok s (fun u => u.tpState p.val = 1 ∧
      s.keepsElse u [.be, .ev, .hw, .lanes, .nis, .ports] portReg)) ∧
    (∀ (p : Fin 6), s.runs → s.tpState p.val = 10 → (s.port p.val).wakeAt = none →
      exec (.portActive none p) s = .next (s.setPort p.val { s.port p.val with wakeAt := some (s.now + 150) })) ∧
    (∀ (p : Fin 6), (s.runs = false ∨ s.tpState p.val ≠ 10 ∨ (s.port p.val).wakeAt.isSome) →
      exec (.portActive none p) s = .next (s)) ∧
    (∀ (p : Fin 6) (k : Nat), s.runs → (s.port p.val).quietAt = some k → k ≤ s.tickN → (s.tpState p.val = 5 ∨
      s.tpState p.val = 6 ∨ s.tpState p.val = 8) → Leads (.quietEnter p) s (fun t => t.tpState p.val = 10 ∧
      (t.port p.val).quietFrom = s.tpState p.val ∧ (t.port p.val).quietAt = none ∧ (t.port p.val).wakeAt = none ∧ (∀ i, i < 16 →
      t.reg (aLN_STATUS (portLane p.val i).1 (portLane p.val i).2) = s.reg (aLN_STATUS (portLane p.val i).1 (portLane p.val i).2) &&& 14#32) ∧
      s.keepsElse t [.ev, .hw, .ports] portReg)) ∧
    (∀ (p : Fin 6), (s.runs = false ∨ (s.port p.val).quietAt.all (fun k => decide (s.tickN < k)) ∨ ¬ (s.tpState p.val = 5 ∨
      s.tpState p.val = 6 ∨ s.tpState p.val = 8)) → exec (.quietEnter p) s = .next (s)) ∧
    (∀ (m : Rm) (p : Fin 6) (v : BitVec 2), s.ringReady m (aTP_LB p.val) → s.tpState p.val = 0 →
      s.bit (aTP_CTRL p.val) fTP_CTRL_EN = false → s.fld (aTP_CTRL p.val) fTP_CTRL_LOOP = 0 → v ≠ 3#2 →
      Writes (.tpLbWrite m p true v) m (aTP_LB p.val) (v.setWidth 32) .ok s (fun u => u.fld (aTP_LB p.val) fTP_LB_RET = v.toNat ∧
      s.keepsElse u [.free, .hw] portReg)) ∧
    (∀ (m : Rm) (p : Fin 6) (v : BitVec 2), s.ringReady m (aTP_LB p.val) → v = 0#2 →
      Writes (.tpLbWrite m p true v) m (aTP_LB p.val) (v.setWidth 32) .ok s (fun u => u.fld (aTP_LB p.val) fTP_LB_RET = 0 ∧
      s.keepsElse u [.free, .hw] portReg)) ∧
    (∀ (m : Rm) (p : Fin 6) (v : BitVec 2), s.ringReady m (aTP_LB p.val) → v = 3#2 →
      Writes (.tpLbWrite m p true v) m (aTP_LB p.val) (v.setWidth 32) .ok s (fun u => u = s)) ∧
    (∀ (m : Rm) (p : Fin 6) (v : BitVec 2), s.ringReady m (aTP_LB p.val) → (s.tpState p.val ≠ 0 ∨
      s.bit (aTP_CTRL p.val) fTP_CTRL_EN ∨ s.fld (aTP_CTRL p.val) fTP_CTRL_LOOP ≠ 0) → v ≠ 3#2 → v ≠ 0#2 →
      Writes (.tpLbWrite m p true v) m (aTP_LB p.val) (v.setWidth 32) .refused s (fun u => u = s)) ∧
    (∀ (m : Rm) (p : Fin 6) (v : BitVec 2), s.ringReady m (aTP_CTRL p.val) → s.tpState p.val = 0 →
      s.bit (aTP_CTRL p.val) fTP_CTRL_EN = false → s.fld (aTP_LB p.val) fTP_LB_RET = 0 →
      s.lstateRefused p.val (s.fld (aTP_CTRL p.val) fTP_CTRL_LSTATE) = false →
      Writes (.tpLbWrite m p false v) m (aTP_CTRL p.val) (putF (s.reg (aTP_CTRL p.val)) fTP_CTRL_LOOP v.toNat) .ok s (fun u => u.fld (aTP_CTRL p.val) fTP_CTRL_LOOP = v.toNat ∧
      s.keepsElse u [.be, .ev, .free, .hw, .lanes, .nis, .ports] portReg)) ∧
    (∀ (m : Rm) (p : Fin 6) (v : BitVec 2), s.ringReady m (aTP_CTRL p.val) → v ≠ 0#2 → (s.tpState p.val ≠ 0 ∨
      s.bit (aTP_CTRL p.val) fTP_CTRL_EN ∨ s.fld (aTP_LB p.val) fTP_LB_RET ≠ 0) →
      Writes (.tpLbWrite m p false v) m (aTP_CTRL p.val) (putF (s.reg (aTP_CTRL p.val)) fTP_CTRL_LOOP v.toNat) .refused s (fun u => u = s)) ∧
    (∀ (m : Rm) (d : Fin 6) (q : Fin 4) (v : W32), s.ringReady m (aGL_LB d.val q.val) →
      Writes (.glLbWrite m d q v) m (aGL_LB d.val q.val) v .ok s (fun u => u.reg (aGL_LB d.val q.val) = (s.plainWrite (aGL_LB d.val q.val) v).reg (aGL_LB d.val q.val) ∧
      s.keepsElse u [.free, .hw] (among ([(aGL_LB d.val q.val)] ++ (List.range 4).map (aLN_STATUS (quadBlock d.val q.val))))))

/-- OP starts an operation of a free gateway, sends its packet toward the device it names and is refused while one is
outstanding; no route reads RESULT 0x4, and no answer in time RESULT 0x5. A packet with a count left goes on over the next
port, and is dropped where that port carries none or eight wait; one whose counts are zero is performed here as master 0x70,
and a response ends the operation of its gateway. GO starts the send of a stored stream, is refused while BUSY, ABORT ends it,
and the end raises its event. Model choices it rests on: log entries 17, 18, 146. (07_device_torus.md R176 to R178, R184,
06_die_links.md R148) -/
def Obligations.RemoteManagement : Prop :=
  ∀ s : State, s.Inv →
    (∀ (m : Rm) (r : Remote), s.ringReady m (aRG_CTRL (rmIdx m)) → s.bit (aRG_STATUS (rmIdx m)) fRG_STATUS_BUSY = false →
      (s.plainWrite (aRG_CTRL (rmIdx m)) (putF (s.reg (aRG_CTRL (rmIdx m))) fRG_CTRL_OP 1)).gwPacket (rmIdx m) 1 = some r →
      Writes (.gatewayRead m) m (aRG_CTRL (rmIdx m)) (putF (s.reg (aRG_CTRL (rmIdx m))) fRG_CTRL_OP 1) .ok s (fun u => u.bit (aRG_STATUS (rmIdx m)) fRG_STATUS_BUSY ∧
      (u.gw (rmIdx m)).sent = some r.bits ∧
      (u.gw (rmIdx m)).deadline = s.now + ringTicks (256 * s.fld (aRG_CTRL (rmIdx m)) fRG_CTRL_TMO) ∧ (∀ k, k < 6 →
      (u.port k).remoteQ = (s.port k).remoteQ ∨ ((u.port k).remoteQ.length = (s.port k).remoteQ.length + 1 ∧
      (r.hop.any (fun e => e.1 == k && (u.port k).remoteQ == (s.port k).remoteQ ++ [e.2.bits])))) ∧ s.keepsElse u [.ports, .gws,
      .remoteIn] (among [(aRG_CTRL (rmIdx m)), (aRG_STATUS (rmIdx m))]))) ∧
    (∀ (m : Rm), s.ringReady m (aRG_CTRL (rmIdx m)) → s.bit (aRG_STATUS (rmIdx m)) fRG_STATUS_BUSY = false →
      (s.plainWrite (aRG_CTRL (rmIdx m)) (putF (s.reg (aRG_CTRL (rmIdx m))) fRG_CTRL_OP 1)).gwPacket (rmIdx m) 1 = none →
      Writes (.gatewayRead m) m (aRG_CTRL (rmIdx m)) (putF (s.reg (aRG_CTRL (rmIdx m))) fRG_CTRL_OP 1) .ok s (fun u => u.fld (aRG_STATUS (rmIdx m)) fRG_STATUS_RESULT = 4 ∧
      u.bit (aRG_STATUS (rmIdx m)) fRG_STATUS_BUSY = false ∧ s.keepsElse u [] (among [(aRG_CTRL (rmIdx m)),
      (aRG_STATUS (rmIdx m))]))) ∧
    (∀ (m : Rm), s.ringReady m (aRG_CTRL (rmIdx m)) → s.bit (aRG_STATUS (rmIdx m)) fRG_STATUS_BUSY →
      Writes (.gatewayRead m) m (aRG_CTRL (rmIdx m)) (putF (s.reg (aRG_CTRL (rmIdx m))) fRG_CTRL_OP 1) .refused s (fun u => u = s)) ∧
    (∀ (m : Rm) (r : Remote), s.ringReady m (aRG_CTRL (rmIdx m)) → s.bit (aRG_STATUS (rmIdx m)) fRG_STATUS_BUSY = false →
      (s.plainWrite (aRG_CTRL (rmIdx m)) (putF (s.reg (aRG_CTRL (rmIdx m))) fRG_CTRL_OP 2)).gwPacket (rmIdx m) 2 = some r →
      Writes (.gatewayWrite m) m (aRG_CTRL (rmIdx m)) (putF (s.reg (aRG_CTRL (rmIdx m))) fRG_CTRL_OP 2) .ok s (fun u => u.bit (aRG_STATUS (rmIdx m)) fRG_STATUS_BUSY ∧
      (u.gw (rmIdx m)).sent = some r.bits ∧
      (u.gw (rmIdx m)).deadline = s.now + ringTicks (256 * s.fld (aRG_CTRL (rmIdx m)) fRG_CTRL_TMO) ∧ (∀ k, k < 6 →
      (u.port k).remoteQ = (s.port k).remoteQ ∨ ((u.port k).remoteQ.length = (s.port k).remoteQ.length + 1 ∧
      (r.hop.any (fun e => e.1 == k && (u.port k).remoteQ == (s.port k).remoteQ ++ [e.2.bits])))) ∧ s.keepsElse u [.ports, .gws,
      .remoteIn] (among [(aRG_CTRL (rmIdx m)), (aRG_STATUS (rmIdx m))]))) ∧
    (∀ (m : Rm), s.ringReady m (aRG_CTRL (rmIdx m)) → s.bit (aRG_STATUS (rmIdx m)) fRG_STATUS_BUSY = false →
      (s.plainWrite (aRG_CTRL (rmIdx m)) (putF (s.reg (aRG_CTRL (rmIdx m))) fRG_CTRL_OP 2)).gwPacket (rmIdx m) 2 = none →
      Writes (.gatewayWrite m) m (aRG_CTRL (rmIdx m)) (putF (s.reg (aRG_CTRL (rmIdx m))) fRG_CTRL_OP 2) .ok s (fun u => u.fld (aRG_STATUS (rmIdx m)) fRG_STATUS_RESULT = 4 ∧
      u.bit (aRG_STATUS (rmIdx m)) fRG_STATUS_BUSY = false ∧ s.keepsElse u [] (among [(aRG_CTRL (rmIdx m)),
      (aRG_STATUS (rmIdx m))]))) ∧
    (∀ (m : Rm), s.ringReady m (aRG_CTRL (rmIdx m)) → s.bit (aRG_STATUS (rmIdx m)) fRG_STATUS_BUSY →
      Writes (.gatewayWrite m) m (aRG_CTRL (rmIdx m)) (putF (s.reg (aRG_CTRL (rmIdx m))) fRG_CTRL_OP 2) .refused s (fun u => u = s)) ∧
    (∀ (m : Rm), s.runs → s.bit (aRG_STATUS (rmIdx m)) fRG_STATUS_BUSY → (s.gw (rmIdx m)).deadline ≤ s.now →
      Leads (.gatewayTimeout m) s (fun t => t.fld (aRG_STATUS (rmIdx m)) fRG_STATUS_RESULT = 5 ∧
      t.bit (aRG_STATUS (rmIdx m)) fRG_STATUS_BUSY = false ∧ (t.gw (rmIdx m)).sent = none ∧
      s.keepsElse t [.gws] (among [(aRG_STATUS (rmIdx m))]))) ∧
    (∀ (m : Rm), (s.runs = false ∨ s.bit (aRG_STATUS (rmIdx m)) fRG_STATUS_BUSY = false ∨ s.now < (s.gw (rmIdx m)).deadline) →
      exec (.gatewayTimeout m) s = .next (s)) ∧
    (∀ (p : Fin 7) (e : Nat × BitVec 120) (k : Nat) (r : Remote), s.hubRuns → s.remoteIn.find? (fun e => e.1 == p.val) = some e →
      (remoteOf e.2).hop = some (k, r) → ((s.portManages k ∨ s.tpState k = 10) ∧ (s.port k).disStep = 0 ∧
      (s.port k).remoteQ.length < 8) → Leads (.remotePacketReceive p) s (fun t => t.remoteIn = s.remoteIn.erase e ∧
      (t.port k).remoteQ = (s.port k).remoteQ ++ [r.bits] ∧ s.keepsElse t [.ports, .remoteIn] (fun _ => false))) ∧
    (∀ (p : Fin 7) (e : Nat × BitVec 120) (k : Nat) (r : Remote), s.hubRuns → s.remoteIn.find? (fun e => e.1 == p.val) = some e →
      (remoteOf e.2).hop = some (k, r) → ¬ ((s.portManages k ∨ s.tpState k = 10) ∧ (s.port k).disStep = 0 ∧
      (s.port k).remoteQ.length < 8) → exec (.remotePacketReceive p) s = .next ({ s with remoteIn := s.remoteIn.erase e })) ∧
    (∀ (p : Fin 7) (e : Nat × BitVec 120), s.hubRuns → s.remoteIn.find? (fun e => e.1 == p.val) = some e →
      (remoteOf e.2).hop = none → (remoteOf e.2).op < 2 → s.ringConfig.busy = false →
      Leads (.remotePacketReceive p) s (fun t => t.remoteIn = s.remoteIn.erase e ∧ t.ringConfig.busy ∧
      t.ringConfig.remote = some e.2 ∧
      t.ringConfig.req = { die := (remoteOf e.2).die, block := (remoteOf e.2).block, off := (remoteOf e.2).off, write := (remoteOf e.2).op == 1, data := (remoteOf e.2).data } ∧
      t.ringConfig.grantAt = s.now ∧ (s.ringClosed (remoteOf e.2).die → t.ringConfig.answered ∧
      t.ringConfig.ansStatus = .timeout ∧ s.keepsElse t [.ringConfig, .remoteIn] (fun _ => false)) ∧
      (s.ringClosed (remoteOf e.2).die = false → s.ringGranted → t.ringConfig.waiting ∧ s.keepsElse t [.ringConfig,
      .remoteIn] (fun _ => false)))) ∧
    (∀ (p : Fin 7) (e : Nat × BitVec 120) (g : Nat) (b : BitVec 120), s.hubRuns →
      s.remoteIn.find? (fun e => e.1 == p.val) = some e → (remoteOf e.2).hop = none → 2 ≤ (remoteOf e.2).op → ([0, 1,
      2] : List Nat).find? (fun g => gwMaster g == (remoteOf e.2).master) = some g → (s.gw g).sent = some b →
      (remoteOf b).op + 2 = (remoteOf e.2).op → (remoteOf b).die = (remoteOf e.2).die →
      (remoteOf b).block = (remoteOf e.2).block → (remoteOf b).off = (remoteOf e.2).off →
      Leads (.remotePacketReceive p) s (fun t => t.remoteIn = s.remoteIn.erase e ∧
      t.fld (aRG_STATUS g) fRG_STATUS_RESULT = (remoteOf e.2).status ∧ t.bit (aRG_STATUS g) fRG_STATUS_BUSY = false ∧
      (t.gw g).sent = none ∧ ((remoteOf e.2).op = 2 → t.reg (aRG_DATA g) = (remoteOf e.2).data) ∧ s.keepsElse t [.gws,
      .remoteIn] (among [aRG_STATUS g, aRG_DATA g]))) ∧
    (∀ (p : Fin 7), (s.hubRuns = false ∨ s.remoteIn.find? (fun e => e.1 == p.val) = none) →
      exec (.remotePacketReceive p) s = .next (s)) ∧
    (∀ (m : Rm) (p : Fin 6), s.ringReady m (aTP_CFG_CTRL p.val) → s.bit (aTP_CFG_CTRL p.val) fTP_CFG_CTRL_BUSY = false →
      Writes (.streamSendGo m p) m (aTP_CFG_CTRL p.val) (putF 0#32 fTP_CFG_CTRL_GO 1) .ok s (fun u => u.bit (aTP_CFG_CTRL p.val) fTP_CFG_CTRL_BUSY ∧
      (u.port p.val).sendWord = 0 ∧ (u.port p.val).sendBuf = [] ∧ (u.port p.val).sendFail = false ∧
      s.keepsElse u [.ports] (among [(aTP_CFG_CTRL p.val)]))) ∧
    (∀ (m : Rm) (p : Fin 6), s.ringReady m (aTP_CFG_CTRL p.val) → s.bit (aTP_CFG_CTRL p.val) fTP_CFG_CTRL_BUSY →
      Writes (.streamSendGo m p) m (aTP_CFG_CTRL p.val) (putF 0#32 fTP_CFG_CTRL_GO 1) .refused s (fun u => u = s)) ∧
    (∀ (m : Rm) (p : Fin 6), s.ringReady m (aTP_CFG_CTRL p.val) → s.bit (aTP_CFG_CTRL p.val) fTP_CFG_CTRL_BUSY →
      Writes (.streamSendAbort m p) m (aTP_CFG_CTRL p.val) (putF 0#32 fTP_CFG_CTRL_ABORT 1) .ok s (fun u => u.bit (aTP_CFG_CTRL p.val) fTP_CFG_CTRL_BUSY = false ∧
      (u.port p.val).sendBuf = [] ∧ (u.port p.val).sendStale = (s.port p.val).sendAsked ∧
      s.keepsElse u [.ports] (among [(aTP_CFG_CTRL p.val)]))) ∧
    (∀ (m : Rm) (p : Fin 6), s.ringReady m (aTP_CFG_CTRL p.val) → s.bit (aTP_CFG_CTRL p.val) fTP_CFG_CTRL_BUSY = false →
      Writes (.streamSendAbort m p) m (aTP_CFG_CTRL p.val) (putF 0#32 fTP_CFG_CTRL_ABORT 1) .ok s (fun u => u = s)) ∧
    (∀ (p : Fin 6), s.runs → s.bit (aTP_CFG_CTRL p.val) fTP_CFG_CTRL_BUSY → (s.port p.val).sendFail = false →
      ((s.port p.val).sendWord = s.sendLen p.val ∧ ((s.port p.val).sendAsked = false ∨ (s.port p.val).sendStale) ∧
      (s.port p.val).sendBuf = []) → Leads (.streamSendEnd p) s (fun t => t.bit (aTP_CFG_CTRL p.val) fTP_CFG_CTRL_DONE ∧
      t.bit (aTP_CFG_CTRL p.val) fTP_CFG_CTRL_BUSY = false ∧ t.showsEvent (portEvent p.val 7) ∧ s.keepsElse t [.ev,
      .hw] (among [(aTP_CFG_CTRL p.val)]))) ∧
    (∀ (p : Fin 6), s.runs → s.bit (aTP_CFG_CTRL p.val) fTP_CFG_CTRL_BUSY → (s.port p.val).sendFail →
      Leads (.streamSendEnd p) s (fun t => t.bit (aTP_CFG_CTRL p.val) fTP_CFG_CTRL_ERR ∧
      t.bit (aTP_CFG_CTRL p.val) fTP_CFG_CTRL_BUSY = false ∧ t.showsEvent (portEvent p.val 7) ∧ s.keepsElse t [.ev,
      .hw] (among [(aTP_CFG_CTRL p.val)]))) ∧
    (∀ (p : Fin 6), (s.runs = false ∨ s.bit (aTP_CFG_CTRL p.val) fTP_CFG_CTRL_BUSY = false ∨ ((s.port p.val).sendFail = false ∧
      ¬ ((s.port p.val).sendWord = s.sendLen p.val ∧ ((s.port p.val).sendAsked = false ∨ (s.port p.val).sendStale) ∧
      (s.port p.val).sendBuf = []))) → exec (.streamSendEnd p) s = .next (s))

/-- A user event of a die past its start-up raises the event of its die and number. A region word that lies outside the array,
overlaps a valid region, or belongs to a region in use is refused, and stored otherwise. BR_HOLD makes every valid free region
it names pending and empties the user side of their NIs; the hold completes with its event; a release starts, opens the clock
gate after eight ticks and ends with its event, and one written before the hold completes waits for it. Model choices it rests
on: log entries 67, 148. (08_logic_fabric.md R200, R204 to R209) -/
def Obligations.FabricRegions : Prop :=
  ∀ s : State, s.Inv →
    (∀ (d : Fin 6) (i : Fin 16), s.runs → s.inReset d.val = false → s.portsUp d.val → s.placeHeld d.val evtPlace = false →
      Leads (.userEvent d i) s (fun t => t.showsEvent (1952 + 16 * d.val + i.val) ∧ s.keepsElse t [.ev, .hw] (fun _ => false))) ∧
    (∀ (d : Fin 6) (i : Fin 16), (s.runs = false ∨ s.inReset d.val ∨ s.portsUp d.val = false ∨ s.placeHeld d.val evtPlace) →
      exec (.userEvent d i) s = .next (s)) ∧
    (∀ (m : Rm) (d : Fin 6) (i : Fin 8) (v : W32), s.ringReady m (aPRB_SEL d.val i.val) →
      Writes (.prbSelWrite m d i v) m (aPRB_SEL d.val i.val) v .ok s (fun u => u = s.plainWrite (aPRB_SEL d.val i.val) v)) ∧
    (∀ (m : Rm) (d : Fin 6) (n : Fin 16) (v : W32), s.ringReady m (aBR_RGN d.val n.val) → s.rgnPending d.val n.val = false →
      s.rgnHeld d.val n.val = false → (getB v fBR_RGN_V = false ∨ ((getF v fBR_RGN_COL_FIRST ≠ 0 ∧
      getF v fBR_RGN_COL_LAST ≤ 480 ∧ getF v fBR_RGN_COL_FIRST ≤ getF v fBR_RGN_COL_LAST ∧
      getF v fBR_RGN_RB_FIRST ≤ getF v fBR_RGN_RB_LAST) ∧
      (List.range 16).any (fun k => k != n.val && s.rgnValid d.val k && rgnOverlap v (s.reg (aBR_RGN d.val k))) = false)) →
      Writes (.brRgnWrite m d n v) m (aBR_RGN d.val n.val) v .ok s (fun u => u = s.plainWrite (aBR_RGN d.val n.val) v)) ∧
    (∀ (m : Rm) (d : Fin 6) (n : Fin 16) (v : W32), s.ringReady m (aBR_RGN d.val n.val) → (s.rgnPending d.val n.val ∨
      s.rgnHeld d.val n.val ∨ (getB v fBR_RGN_V ∧ (¬ (getF v fBR_RGN_COL_FIRST ≠ 0 ∧ getF v fBR_RGN_COL_LAST ≤ 480 ∧
      getF v fBR_RGN_COL_FIRST ≤ getF v fBR_RGN_COL_LAST ∧ getF v fBR_RGN_RB_FIRST ≤ getF v fBR_RGN_RB_LAST) ∨
      (List.range 16).any (fun k => k != n.val && s.rgnValid d.val k && rgnOverlap v (s.reg (aBR_RGN d.val k)))))) →
      Writes (.brRgnWrite m d n v) m (aBR_RGN d.val n.val) v .refused s (fun u => u = s)) ∧
    (∀ (m : Rm) (d : Fin 6) (v : BitVec 16) (n : Fin 16), s.ringReady m (aBR_HOLD d.val) → v.getLsbD n.val →
      s.rgnValid d.val n.val → s.rgnPending d.val n.val = false → s.rgnHeld d.val n.val = false →
      Writes (.regionHold m d v) m (aBR_HOLD d.val) (v.setWidth 32) .ok s (fun u => u.rgnPending d.val n.val ∧
      u.rgnHeld d.val n.val = false ∧ (u.hold d.val n.val).gated ∧ (u.hold d.val n.val).since = s.now ∧ (∀ i,
      s.rgnNi d.val n.val i → i < 32 → (u.ni d.val i).staging = [] ∧ (u.ni d.val i).egress = [] ∧ (u.ni d.val i).fifo0 = [] ∧
      (u.ni d.val i).fifo1 = (s.ni d.val i).fifo1) ∧ s.keepsElse u [.cfg, .ev, .free, .hw, .nis] (among [aBR_STAT d.val]))) ∧
    (∀ (m : Rm) (d : Fin 6) (v : BitVec 16) (n : Fin 16), s.ringReady m (aBR_HOLD d.val) → (v.getLsbD n.val = false ∨
      s.rgnValid d.val n.val = false ∨ s.rgnPending d.val n.val ∨ s.rgnHeld d.val n.val) →
      Writes (.regionHold m d v) m (aBR_HOLD d.val) (v.setWidth 32) .ok s (fun u => u.rgnPending d.val n.val = s.rgnPending d.val n.val ∧
      u.hold d.val n.val = s.hold d.val n.val ∧ s.keepsElse u [.cfg, .ev, .free, .hw, .nis] (among [aBR_STAT d.val]))) ∧
    (∀ (m : Rm) (d : Fin 6) (n : Fin 16), s.ringReady m (aBR_RELEASE d.val) → s.rgnValid d.val n.val →
      s.rgnPending d.val n.val = false → s.rgnHeld d.val n.val → (s.hold d.val n.val).relAt = none →
      Writes (.regionRelease m d (BitVec.ofNat 16 (2 ^ n.val))) m (aBR_RELEASE d.val) ((BitVec.ofNat 16 (2 ^ n.val)).setWidth 32) .ok s (fun u => (u.hold d.val n.val).relAt = some s.now ∧
      u.rgnHeld d.val n.val ∧ (∀ i, i < 32 → s.rgnNi d.val n.val i → (u.ni d.val i).fifo1 = []) ∧ s.keepsElse u [.nis,
      .cfg] (fun _ => false))) ∧
    (∀ (m : Rm) (d : Fin 6) (n : Fin 16), s.ringReady m (aBR_RELEASE d.val) → s.rgnValid d.val n.val → s.rgnPending d.val n.val →
      Writes (.regionRelease m d (BitVec.ofNat 16 (2 ^ n.val))) m (aBR_RELEASE d.val) ((BitVec.ofNat 16 (2 ^ n.val)).setWidth 32) .ok s (fun u => u = s.setHold d.val n.val { s.hold d.val n.val with asked := true })) ∧
    (∀ (m : Rm) (d : Fin 6) (v : BitVec 16), s.ringReady m (aBR_RELEASE d.val) →
      (List.range 16).all (fun n => !v.getLsbD n || !s.rgnValid d.val n || (!s.rgnPending d.val n && (!s.rgnHeld d.val n || (s.hold d.val n).relAt.isSome))) →
      Writes (.regionRelease m d v) m (aBR_RELEASE d.val) (v.setWidth 32) .ok s (fun u => u = s)) ∧
    (∀ (d : Fin 6) (n : Fin 16), s.runs → s.rgnPending d.val n.val → (s.hold d.val n.val).since < s.now →
      Leads (.regionHoldComplete d n) s (fun t => t.rgnPending d.val n.val = false ∧ t.rgnHeld d.val n.val ∧
      t.showsEvent (768 + 128 * d.val + 124) ∧ ((s.hold d.val n.val).asked → (t.hold d.val n.val).relAt = some s.now) ∧
      ((s.hold d.val n.val).asked = false → t.nis = s.nis ∧ t.cfg = s.cfg) ∧ s.keepsElse t [.ev, .hw, .nis,
      .cfg] (among [aBR_STAT d.val]))) ∧
    (∀ (d : Fin 6) (n : Fin 16), (s.runs = false ∨ s.rgnPending d.val n.val = false ∨ s.now ≤ (s.hold d.val n.val).since) →
      exec (.regionHoldComplete d n) s = .next (s)) ∧
    (∀ (d : Fin 6) (n : Fin 16) (e : Nat), s.runs → (s.hold d.val n.val).relAt = some e → e + 8 ≤ s.now →
      exec (.regionGateRelease d n) s = .next (s.setHold d.val n.val { s.hold d.val n.val with gated := false })) ∧
    (∀ (d : Fin 6) (n : Fin 16), (s.runs = false ∨ (s.hold d.val n.val).relAt.all (fun e => decide (s.now < e + 8))) →
      exec (.regionGateRelease d n) s = .next (s)) ∧
    (∀ (d : Fin 6) (n : Fin 16) (e : Nat), s.runs → s.rgnHeld d.val n.val → (s.hold d.val n.val).relAt = some e → e + 16 ≤ s.now →
      Leads (.regionReleaseComplete d n) s (fun t => t.rgnHeld d.val n.val = false ∧ (t.hold d.val n.val).relAt = none ∧
      t.showsEvent (768 + 128 * d.val + 125) ∧ s.keepsElse t [.ev, .hw, .cfg] (among [aBR_STAT d.val]))) ∧
    (∀ (d : Fin 6) (n : Fin 16), (s.runs = false ∨ s.rgnHeld d.val n.val = false ∨
      (s.hold d.val n.val).relAt.all (fun e => decide (s.now < e + 16))) → exec (.regionReleaseComplete d n) s = .next (s))

/-- At a header, from whichever source owns the stream: NOP only counts; CRC resets the running CRC or fails with 0x3;
DEVICE_CODE (0x4), FEATURE (0x5 or 0xA), FRAME_ADDR (0x8), OPTIONS (0xA), REGION (0xA) and EBM_ADDR (0x8) store what they name
or fail with the cause in brackets; those after the first four fail with 0x6 before DEVICE_CODE and FEATURE. Words that spell
no row fail with 0xA, poisoned ones with 0xB, and words of another source are discarded. A failed check enters CONFIG_FAIL:
INIT_N low, event 34, no owner, dies in loading become unconfigured. Model choices it rests on: log entry 12.
(09_configuration.md R215, R217, R218, R223, R224, 07_device_torus.md R183, 01_dies_and_address_map.md R14, R15) -/
def Obligations.StreamHeaders : Prop :=
  ∀ s : State, s.Inv →
    (∀ (c : CfgSrc), s.atHeader c → s.sound c [0#32] →
      Leads (.streamNop c [0#32]) s (fun t => t.reg aCFG_WORDS = s.reg aCFG_WORDS + 1#32 ∧
      t.cfg.crc = crc32Run s.cfg.crc (natLe 4 0) ∧ t.cfg.clean = s.cfg.clean ∧ s.keepsElse t [.cfg,
      .ports] (among [aCFG_WORDS]))) ∧
    (∀ (c : CfgSrc) (w : W32), s.atHeader c → s.sound c [0x10000001#32, w] →
      w = crc32Run s.cfg.crc (natLe 4 0x10000001) ^^^ 0xFFFFFFFF#32 → Leads (.streamCrc c [0x10000001#32,
      w]) s (fun t => t.reg aCFG_WORDS = s.reg aCFG_WORDS + 2#32 ∧ t.cfg.crc = 0xFFFFFFFF#32 ∧ t.cfg.clean ∧
      s.keepsElse t [.cfg, .ports] (among [aCFG_WORDS]))) ∧
    (∀ (c : CfgSrc) (w : W32), s.atHeader c → s.sound c [0x10000001#32, w] →
      w ≠ crc32Run s.cfg.crc (natLe 4 0x10000001) ^^^ 0xFFFFFFFF#32 → Leads (.streamCrc c [0x10000001#32,
      w]) s (fun t => t.cfgState = 5 ∧ t.fld aCFG_STATUS fCFG_STATUS_CAUSE = 3 ∧ t.fld aCFG_STATUS fCFG_STATUS_SRC = 0 ∧
      t.reg aCFG_FAIL_WORD = t.reg aCFG_WORDS ∧ t.pins.initDriven ∧ t.showsEvent 34 ∧ (∀ d, d ∈ fabricDies → t.dieState d ≠ 1) ∧
      s.keepsElse t [.cfg, .ports, .pins, .ev, .hw] (among [aCFG_WORDS, aCFG_STATUS, aCFG_FAIL_WORD, aCFG_FAIL_FA, aCFG_DIES]))) ∧
    (∀ (c : CfgSrc) (w : W32), s.atHeader c → s.sound c [0x10100001#32, w] → w = s.reg aDEVICE_CODE →
      Leads (.streamDeviceCode c [0x10100001#32, w]) s (fun t => t.reg aCFG_WORDS = s.reg aCFG_WORDS + 2#32 ∧ t.cfg.devOk ∧
      t.cfg.clean = false ∧ s.keepsElse t [.cfg, .ports] (among [aCFG_WORDS]))) ∧
    (∀ (c : CfgSrc) (w : W32), s.atHeader c → s.sound c [0x10100001#32, w] → w ≠ s.reg aDEVICE_CODE →
      Leads (.streamDeviceCode c [0x10100001#32, w]) s (fun t => t.cfgState = 5 ∧ t.fld aCFG_STATUS fCFG_STATUS_CAUSE = 4 ∧
      t.fld aCFG_STATUS fCFG_STATUS_SRC = 0 ∧ t.reg aCFG_FAIL_WORD = t.reg aCFG_WORDS ∧ t.pins.initDriven ∧ t.showsEvent 34 ∧
      (∀ d, d ∈ fabricDies → t.dieState d ≠ 1) ∧ s.keepsElse t [.cfg, .ports, .pins, .ev, .hw] (among [aCFG_WORDS, aCFG_STATUS,
      aCFG_FAIL_WORD, aCFG_FAIL_FA, aCFG_DIES]))) ∧
    (∀ (c : CfgSrc) (w : W32), s.atHeader c → s.sound c [0x10200001#32, w] → w.toNat < 16 →
      (s.bit aFEATURE_LEVEL fFEATURE_LEVEL_VALID ∧ w.toNat ≤ s.fld aFEATURE_LEVEL fFEATURE_LEVEL_LEVEL) →
      Leads (.streamFeature c [0x10200001#32, w]) s (fun t => t.reg aCFG_WORDS = s.reg aCFG_WORDS + 2#32 ∧ t.cfg.featOk ∧
      t.cfg.clean = false ∧ s.keepsElse t [.cfg, .ports] (among [aCFG_WORDS]))) ∧
    (∀ (c : CfgSrc) (w : W32), s.atHeader c → s.sound c [0x10200001#32, w] → w.toNat < 16 →
      ¬ (s.bit aFEATURE_LEVEL fFEATURE_LEVEL_VALID ∧ w.toNat ≤ s.fld aFEATURE_LEVEL fFEATURE_LEVEL_LEVEL) →
      Leads (.streamFeature c [0x10200001#32, w]) s (fun t => t.cfgState = 5 ∧ t.fld aCFG_STATUS fCFG_STATUS_CAUSE = 5 ∧
      t.fld aCFG_STATUS fCFG_STATUS_SRC = 0 ∧ t.reg aCFG_FAIL_WORD = t.reg aCFG_WORDS ∧ t.pins.initDriven ∧ t.showsEvent 34 ∧
      (∀ d, d ∈ fabricDies → t.dieState d ≠ 1) ∧ s.keepsElse t [.cfg, .ports, .pins, .ev, .hw] (among [aCFG_WORDS, aCFG_STATUS,
      aCFG_FAIL_WORD, aCFG_FAIL_FA, aCFG_DIES]))) ∧
    (∀ (c : CfgSrc) (w : W32), s.atHeader c → s.sound c [0x10200001#32, w] → 16 ≤ w.toNat →
      Leads (.streamFeature c [0x10200001#32, w]) s (fun t => t.cfgState = 5 ∧ t.fld aCFG_STATUS fCFG_STATUS_CAUSE = 10 ∧
      t.fld aCFG_STATUS fCFG_STATUS_SRC = 0 ∧ t.reg aCFG_FAIL_WORD = t.reg aCFG_WORDS ∧ t.pins.initDriven ∧ t.showsEvent 34 ∧
      (∀ d, d ∈ fabricDies → t.dieState d ≠ 1) ∧ s.keepsElse t [.cfg, .ports, .pins, .ev, .hw] (among [aCFG_WORDS, aCFG_STATUS,
      aCFG_FAIL_WORD, aCFG_FAIL_FA, aCFG_DIES]))) ∧
    (∀ (c : CfgSrc) (w : W32), s.atHeader c → s.sound c [0x10400001#32, w] → ((faOf w).valid ∧ w.toNat % 256 = 0) →
      Leads (.streamFrameAddr c [0x10400001#32, w]) s (fun t => t.reg aCFG_WORDS = s.reg aCFG_WORDS + 2#32 ∧
      t.cfg.frameAddr = w ∧ t.cfg.frameEnd = false ∧ t.cfg.clean = false ∧ s.keepsElse t [.cfg, .ports] (among [aCFG_WORDS]))) ∧
    (∀ (c : CfgSrc) (w : W32), s.atHeader c → s.sound c [0x10400001#32, w] → ¬ ((faOf w).valid ∧ w.toNat % 256 = 0) →
      Leads (.streamFrameAddr c [0x10400001#32, w]) s (fun t => t.cfgState = 5 ∧ t.fld aCFG_STATUS fCFG_STATUS_CAUSE = 8 ∧
      t.fld aCFG_STATUS fCFG_STATUS_SRC = 0 ∧ t.reg aCFG_FAIL_WORD = t.reg aCFG_WORDS ∧ t.pins.initDriven ∧ t.showsEvent 34 ∧
      (∀ d, d ∈ fabricDies → t.dieState d ≠ 1) ∧ s.keepsElse t [.cfg, .ports, .pins, .ev, .hw] (among [aCFG_WORDS, aCFG_STATUS,
      aCFG_FAIL_WORD, aCFG_FAIL_FA, aCFG_DIES]))) ∧
    (∀ (c : CfgSrc) (w : W32), s.atHeader c → s.sound c [0x10800001#32, w] → s.identified → w.toNat < 2 →
      Leads (.streamOptions c [0x10800001#32, w]) s (fun t => t.reg aCFG_WORDS = s.reg aCFG_WORDS + 2#32 ∧
      t.cfg.scan = (w == 1#32) ∧ t.cfg.clean = false ∧ s.keepsElse t [.cfg, .ports] (among [aCFG_WORDS]))) ∧
    (∀ (c : CfgSrc) (w : W32), s.atHeader c → s.sound c [0x10800001#32, w] → s.identified → 2 ≤ w.toNat →
      Leads (.streamOptions c [0x10800001#32, w]) s (fun t => t.cfgState = 5 ∧ t.fld aCFG_STATUS fCFG_STATUS_CAUSE = 10 ∧
      t.fld aCFG_STATUS fCFG_STATUS_SRC = 0 ∧ t.reg aCFG_FAIL_WORD = t.reg aCFG_WORDS ∧ t.pins.initDriven ∧ t.showsEvent 34 ∧
      (∀ d, d ∈ fabricDies → t.dieState d ≠ 1) ∧ s.keepsElse t [.cfg, .ports, .pins, .ev, .hw] (among [aCFG_WORDS, aCFG_STATUS,
      aCFG_FAIL_WORD, aCFG_FAIL_FA, aCFG_DIES]))) ∧
    (∀ (c : CfgSrc) (w : W32), s.atHeader c → s.sound c [0x10A00001#32, w] → s.identified → w &&& 0xFFF8FFF0#32 = 0#32 →
      Leads (.streamRegion c [0x10A00001#32, w]) s (fun t => t.reg aCFG_WORDS = s.reg aCFG_WORDS + 2#32 ∧ t.cfg.region = w ∧
      t.cfg.clean = false ∧ s.keepsElse t [.cfg, .ports] (among [aCFG_WORDS]))) ∧
    (∀ (c : CfgSrc) (w : W32), s.atHeader c → s.sound c [0x10A00001#32, w] → s.identified → w &&& 0xFFF8FFF0#32 ≠ 0#32 →
      Leads (.streamRegion c [0x10A00001#32, w]) s (fun t => t.cfgState = 5 ∧ t.fld aCFG_STATUS fCFG_STATUS_CAUSE = 10 ∧
      t.fld aCFG_STATUS fCFG_STATUS_SRC = 0 ∧ t.reg aCFG_FAIL_WORD = t.reg aCFG_WORDS ∧ t.pins.initDriven ∧ t.showsEvent 34 ∧
      (∀ d, d ∈ fabricDies → t.dieState d ≠ 1) ∧ s.keepsElse t [.cfg, .ports, .pins, .ev, .hw] (among [aCFG_WORDS, aCFG_STATUS,
      aCFG_FAIL_WORD, aCFG_FAIL_FA, aCFG_DIES]))) ∧
    (∀ (c : CfgSrc) (w : W32), s.atHeader c → s.sound c [0x11000001#32, w] → s.identified → ((faOf w).valid ∧ w.toNat % 256 = 0 ∧
      (faOf w).die ≠ 7 ∧ (faOf w).minor < cfgMinors (faOf w).die (faOf w).col) → Leads (.streamEbmAddr c [0x11000001#32,
      w]) s (fun t => t.reg aCFG_WORDS = s.reg aCFG_WORDS + 2#32 ∧ t.cfg.ebmAddr = w ∧ t.cfg.ebmEnd = false ∧
      t.cfg.clean = false ∧ s.keepsElse t [.cfg, .ports] (among [aCFG_WORDS]))) ∧
    (∀ (c : CfgSrc) (w : W32), s.atHeader c → s.sound c [0x11000001#32, w] → s.identified → ¬ ((faOf w).valid ∧
      w.toNat % 256 = 0 ∧ (faOf w).die ≠ 7 ∧ (faOf w).minor < cfgMinors (faOf w).die (faOf w).col) →
      Leads (.streamEbmAddr c [0x11000001#32, w]) s (fun t => t.cfgState = 5 ∧ t.fld aCFG_STATUS fCFG_STATUS_CAUSE = 8 ∧
      t.fld aCFG_STATUS fCFG_STATUS_SRC = 0 ∧ t.reg aCFG_FAIL_WORD = t.reg aCFG_WORDS ∧ t.pins.initDriven ∧ t.showsEvent 34 ∧
      (∀ d, d ∈ fabricDies → t.dieState d ≠ 1) ∧ s.keepsElse t [.cfg, .ports, .pins, .ev, .hw] (among [aCFG_WORDS, aCFG_STATUS,
      aCFG_FAIL_WORD, aCFG_FAIL_FA, aCFG_DIES]))) ∧
    (∀ (c : CfgSrc) (w : W32), s.atHeader c → s.sound c [0x10800001#32, w] → s.identified = false →
      Leads (.streamOptions c [0x10800001#32, w]) s (fun t => t.cfgState = 5 ∧ t.fld aCFG_STATUS fCFG_STATUS_CAUSE = 6 ∧
      t.fld aCFG_STATUS fCFG_STATUS_SRC = 0 ∧ t.reg aCFG_FAIL_WORD = t.reg aCFG_WORDS ∧ t.pins.initDriven ∧ t.showsEvent 34 ∧
      (∀ d, d ∈ fabricDies → t.dieState d ≠ 1) ∧ s.keepsElse t [.cfg, .ports, .pins, .ev, .hw] (among [aCFG_WORDS, aCFG_STATUS,
      aCFG_FAIL_WORD, aCFG_FAIL_FA, aCFG_DIES]))) ∧
    (∀ (c : CfgSrc) (w : W32), s.atHeader c → s.sound c [0x10A00001#32, w] → s.identified = false →
      Leads (.streamRegion c [0x10A00001#32, w]) s (fun t => t.cfgState = 5 ∧ t.fld aCFG_STATUS fCFG_STATUS_CAUSE = 6 ∧
      t.fld aCFG_STATUS fCFG_STATUS_SRC = 0 ∧ t.reg aCFG_FAIL_WORD = t.reg aCFG_WORDS ∧ t.pins.initDriven ∧ t.showsEvent 34 ∧
      (∀ d, d ∈ fabricDies → t.dieState d ≠ 1) ∧ s.keepsElse t [.cfg, .ports, .pins, .ev, .hw] (among [aCFG_WORDS, aCFG_STATUS,
      aCFG_FAIL_WORD, aCFG_FAIL_FA, aCFG_DIES]))) ∧
    (∀ (c : CfgSrc) (w : W32), s.atHeader c → s.sound c [0x11000001#32, w] → s.identified = false →
      Leads (.streamEbmAddr c [0x11000001#32, w]) s (fun t => t.cfgState = 5 ∧ t.fld aCFG_STATUS fCFG_STATUS_CAUSE = 6 ∧
      t.fld aCFG_STATUS fCFG_STATUS_SRC = 0 ∧ t.reg aCFG_FAIL_WORD = t.reg aCFG_WORDS ∧ t.pins.initDriven ∧ t.showsEvent 34 ∧
      (∀ d, d ∈ fabricDies → t.dieState d ≠ 1) ∧ s.keepsElse t [.cfg, .ports, .pins, .ev, .hw] (among [aCFG_WORDS, aCFG_STATUS,
      aCFG_FAIL_WORD, aCFG_FAIL_FA, aCFG_DIES]))) ∧
    (∀ (k : OpKind) (c : CfgSrc) (ws : List W32) (op : StreamOp), s.atHeader c → s.parse ws = some op → op.kind = none →
      s.sound c ws → Leads (k.instr c ws) s (fun t => t.cfgState = 5 ∧ t.fld aCFG_STATUS fCFG_STATUS_CAUSE = 10 ∧
      t.fld aCFG_STATUS fCFG_STATUS_SRC = 0 ∧ t.reg aCFG_FAIL_WORD = t.reg aCFG_WORDS ∧ t.pins.initDriven ∧ t.showsEvent 34 ∧
      (∀ d, d ∈ fabricDies → t.dieState d ≠ 1) ∧ s.keepsElse t [.cfg, .ports, .pins, .ev, .hw] (among [aCFG_WORDS, aCFG_STATUS,
      aCFG_FAIL_WORD, aCFG_FAIL_FA, aCFG_DIES]))) ∧
    (∀ (k : OpKind) (c : CfgSrc) (ws : List W32) (op : StreamOp), s.takesFrom c → s.parse ws = some op → (op.kind = some k ∨
      (k = .fdata ∧ s.cfg.fdataLeft ≠ 0) ∨ (k = .ebmData ∧ s.cfg.ebmLeft ≠ 0)) → s.engineRoom op →
      (s.takeWords c ws).any (fun x => x.2) →
      Leads (k.instr c ws) s (fun t => t.reg aCFG_WORDS = s.reg aCFG_WORDS + BitVec.ofNat 32 ws.length ∧ t.cfgState = 5 ∧
      t.fld aCFG_STATUS fCFG_STATUS_CAUSE = 11 ∧ t.fld aCFG_STATUS fCFG_STATUS_SRC = 0 ∧
      t.reg aCFG_FAIL_WORD = t.reg aCFG_WORDS ∧ t.pins.initDriven ∧ t.showsEvent 34 ∧ (∀ d, d ∈ fabricDies → t.dieState d ≠ 1) ∧
      s.keepsElse t [.cfg, .ports, .pins, .ev, .hw] (among [aCFG_WORDS, aCFG_STATUS, aCFG_FAIL_WORD, aCFG_FAIL_FA, aCFG_DIES]))) ∧
    (∀ (k : OpKind) (c : CfgSrc) (ws : List W32), s.runs → s.cfgState = 3 → ws ≠ [] → s.owns c = false → c ≠ .sdata →
      s.srcAllowed c → Leads (k.instr c ws) s (fun t => t = s.setBit aCFG_STATUS fCFG_STATUS_OTHER true)) ∧
    (∀ (k : OpKind) (c : CfgSrc) (ws : List W32), (s.runs = false ∨ s.cfgState ≠ 3 ∨ ws = [] ∨ (s.owns c = false ∧ (c = .sdata ∨
      s.srcAllowed c = false)) ∨ (s.owns c ∧ (s.streamStalled ∨ s.parse ws = none ∨ s.takeWords c ws = none))) →
      Leads (k.instr c ws) s (fun t => t = s)) ∧
    (∀ (k : OpKind) (c : CfgSrc) (ws : List W32) (op : StreamOp) (j : OpKind), s.atHeader c → s.parse ws = some op →
      op.kind = some j → (j ≠ k ∨ s.engineRoom op = false) → Leads (k.instr c ws) s (fun t => t = s))

/-- FDATA and EBM_DATA headers open that many data words, which may come with the header or in any number at a time. The 128th
word of a frame hands the frame to its die's engine, puts the die in state loading and advances the address; the fourth word
of a map group stores it. A word past the last frame fails with 0x8, one for a die in reset with 0xC, a frame where none may
be written with 0x9, one with two drivers with 0x7. START after a passing check fixes T for every loading die once its engine
is idle; without one it fails with 0x2. HOLD and RELEASE act on the region REGION names, or fail with 0xD. DESYNC ends the
stream with event 33. NULL only needs a new check. Model choices it rests on: log entry 65. (09_configuration.md R216, R217,
R219 to R222, R226, R190, 08_logic_fabric.md R205) -/
def Obligations.StreamDataAndCommands : Prop :=
  ∀ s : State, s.Inv →
    (∀ (c : CfgSrc) (n : Nat) (xs : List W32), s.atHeader c → s.sound c ((BitVec.ofNat 32 (0x10500000 + 128 * n)) :: xs) →
      s.identified → n < 8192 → xs.length < 128 → xs.length ≤ 128 * n → (xs = [] ∨ (s.cfg.frameEnd = false ∧
      s.inReset (faOf s.cfg.frameAddr).die = false ∧ s.engineRoom (.fdata (128 * n) xs))) →
      Leads (.streamFdata c ((BitVec.ofNat 32 (0x10500000 + 128 * n)) :: xs)) s (fun t => t.reg aCFG_WORDS = s.reg aCFG_WORDS + BitVec.ofNat 32 (1 + xs.length) ∧
      t.cfg.fdataLeft = 128 * n - xs.length ∧ t.cfg.ebmLeft = 0 ∧ t.cfg.acc = xs ∧ t.cfg.clean = false ∧
      t.cfg.engineQ = s.cfg.engineQ ∧ s.keepsElse t [.cfg, .ports] (among [aCFG_WORDS]))) ∧
    (∀ (c : CfgSrc) (n : Nat) (xs : List W32), s.atHeader c → s.sound c ((BitVec.ofNat 32 (0x11100000 + 4 * n)) :: xs) →
      s.identified → n < 262144 → xs.length < 4 → xs.length ≤ 4 * n → (xs = [] ∨ (s.cfg.ebmEnd = false ∧
      s.inReset (faOf s.cfg.ebmAddr).die = false ∧ s.engineRoom (.ebmData (4 * n) xs))) →
      Leads (.streamEbmData c ((BitVec.ofNat 32 (0x11100000 + 4 * n)) :: xs)) s (fun t => t.reg aCFG_WORDS = s.reg aCFG_WORDS + BitVec.ofNat 32 (1 + xs.length) ∧
      t.cfg.ebmLeft = 4 * n - xs.length ∧ t.cfg.fdataLeft = 0 ∧ t.cfg.acc = xs ∧ t.cfg.clean = false ∧ t.cfg.map = s.cfg.map ∧
      s.keepsElse t [.cfg, .ports] (among [aCFG_WORDS]))) ∧
    (∀ (c : CfgSrc) (n : W32) (xs : List W32), s.atHeader c → s.sound c (0x20500000#32 :: n :: xs) → s.identified →
      n.toNat % 128 = 0 → xs.length < 128 → xs.length ≤ n.toNat → (xs = [] ∨ (s.cfg.frameEnd = false ∧
      s.inReset (faOf s.cfg.frameAddr).die = false ∧ s.engineRoom (.fdata n.toNat xs))) →
      Leads (.streamFdata c (0x20500000#32 :: n :: xs)) s (fun t => t.reg aCFG_WORDS = s.reg aCFG_WORDS + BitVec.ofNat 32 (2 + xs.length) ∧
      t.cfg.fdataLeft = n.toNat - xs.length ∧ t.cfg.acc = xs ∧ t.cfg.clean = false ∧ s.keepsElse t [.cfg,
      .ports] (among [aCFG_WORDS]))) ∧
    (∀ (c : CfgSrc) (n : W32) (xs : List W32), s.atHeader c → s.sound c (0x21100000#32 :: n :: xs) → s.identified →
      n.toNat % 4 = 0 → xs.length < 4 → xs.length ≤ n.toNat → (xs = [] ∨ (s.cfg.ebmEnd = false ∧
      s.inReset (faOf s.cfg.ebmAddr).die = false ∧ s.engineRoom (.ebmData n.toNat xs))) →
      Leads (.streamEbmData c (0x21100000#32 :: n :: xs)) s (fun t => t.reg aCFG_WORDS = s.reg aCFG_WORDS + BitVec.ofNat 32 (2 + xs.length) ∧
      t.cfg.ebmLeft = n.toNat - xs.length ∧ t.cfg.acc = xs ∧ t.cfg.clean = false ∧ s.keepsElse t [.cfg,
      .ports] (among [aCFG_WORDS]))) ∧
    (∀ (c : CfgSrc) (n : Nat), s.atHeader c → s.sound c [(BitVec.ofNat 32 (0x10500000 + 128 * n))] → n < 8192 →
      s.identified = false → Leads (.streamFdata c [(BitVec.ofNat 32 (0x10500000 + 128 * n))]) s (fun t => t.cfgState = 5 ∧
      t.fld aCFG_STATUS fCFG_STATUS_CAUSE = 6 ∧ t.fld aCFG_STATUS fCFG_STATUS_SRC = 0 ∧
      t.reg aCFG_FAIL_WORD = t.reg aCFG_WORDS ∧ t.pins.initDriven ∧ t.showsEvent 34 ∧ (∀ d, d ∈ fabricDies → t.dieState d ≠ 1) ∧
      s.keepsElse t [.cfg, .ports, .pins, .ev, .hw] (among [aCFG_WORDS, aCFG_STATUS, aCFG_FAIL_WORD, aCFG_FAIL_FA, aCFG_DIES]))) ∧
    (∀ (c : CfgSrc) (n : Nat), s.atHeader c → s.sound c [(BitVec.ofNat 32 (0x11100000 + 4 * n))] → n < 8192 →
      s.identified = false → Leads (.streamEbmData c [(BitVec.ofNat 32 (0x11100000 + 4 * n))]) s (fun t => t.cfgState = 5 ∧
      t.fld aCFG_STATUS fCFG_STATUS_CAUSE = 6 ∧ t.fld aCFG_STATUS fCFG_STATUS_SRC = 0 ∧
      t.reg aCFG_FAIL_WORD = t.reg aCFG_WORDS ∧ t.pins.initDriven ∧ t.showsEvent 34 ∧ (∀ d, d ∈ fabricDies → t.dieState d ≠ 1) ∧
      s.keepsElse t [.cfg, .ports, .pins, .ev, .hw] (among [aCFG_WORDS, aCFG_STATUS, aCFG_FAIL_WORD, aCFG_FAIL_FA, aCFG_DIES]))) ∧
    (∀ (c : CfgSrc) (xs : List W32), s.takesFrom c → s.sound c xs → xs ≠ [] → xs.length ≤ s.cfg.fdataLeft → s.cfg.ebmLeft = 0 →
      s.cfg.frameEnd = false → s.inReset (faOf s.cfg.frameAddr).die = false → s.engineRoom (.more xs) →
      s.cfg.acc.length + xs.length < 128 →
      Leads (.streamFdata c xs) s (fun t => t.reg aCFG_WORDS = s.reg aCFG_WORDS + BitVec.ofNat 32 (xs.length) ∧
      t.cfg.acc = s.cfg.acc ++ xs ∧ t.cfg.fdataLeft = s.cfg.fdataLeft - xs.length ∧ t.cfg.engineQ = s.cfg.engineQ ∧
      s.keepsElse t [.cfg, .ports] (among [aCFG_WORDS]))) ∧
    (∀ (c : CfgSrc) (xs : List W32) (lo hi last : Nat) (g : FrameAddr), s.takesFrom c → s.sound c xs → xs ≠ [] →
      xs.length ≤ s.cfg.fdataLeft → s.cfg.ebmLeft = 0 → s.cfg.frameEnd = false → s.inReset (faOf s.cfg.frameAddr).die = false →
      s.engineRoom (.more xs) → s.cfg.acc.length + xs.length = 128 → s.writeBounds (faOf s.cfg.frameAddr) = some (lo, hi,
      last) →
      selectBad (faOf s.cfg.frameAddr) (BitVec.ofNat 4096 (leNat ((s.cfg.acc ++ xs).flatMap (fun x => natLe 4 x.toNat)))) = false →
      (faOf s.cfg.frameAddr).next false lo hi last = some g → Leads (.streamFdata c xs) s (fun t => t.cfg.frameAddr = g.word ∧
      t.cfg.frameEnd = false ∧ t.reg aCFG_WORDS = s.reg aCFG_WORDS + BitVec.ofNat 32 (xs.length) ∧
      t.cfg.engineQ = s.cfg.engineQ ++ [((faOf s.cfg.frameAddr).die, (faOf s.cfg.frameAddr).key,
      (BitVec.ofNat 4096 (leNat ((s.cfg.acc ++ xs).flatMap (fun x => natLe 4 x.toNat)))))] ∧ t.cfg.acc = [] ∧
      t.cfg.fdataLeft = s.cfg.fdataLeft - xs.length ∧ (s.dieState (faOf s.cfg.frameAddr).die = 0 →
      t.dieState (faOf s.cfg.frameAddr).die = 1) ∧ (s.dieState (faOf s.cfg.frameAddr).die ≠ 0 →
      t.dieState (faOf s.cfg.frameAddr).die = s.dieState (faOf s.cfg.frameAddr).die) ∧ s.keepsElse t [.cfg,
      .ports] (among [aCFG_WORDS, aCFG_DIES]))) ∧
    (∀ (c : CfgSrc) (xs : List W32) (lo hi last : Nat), s.takesFrom c → s.sound c xs → xs ≠ [] → xs.length ≤ s.cfg.fdataLeft →
      s.cfg.ebmLeft = 0 → s.cfg.frameEnd = false → s.inReset (faOf s.cfg.frameAddr).die = false → s.engineRoom (.more xs) →
      s.cfg.acc.length + xs.length = 128 → s.writeBounds (faOf s.cfg.frameAddr) = some (lo, hi, last) →
      selectBad (faOf s.cfg.frameAddr) (BitVec.ofNat 4096 (leNat ((s.cfg.acc ++ xs).flatMap (fun x => natLe 4 x.toNat)))) = false →
      (faOf s.cfg.frameAddr).next false lo hi last = none → Leads (.streamFdata c xs) s (fun t => t.cfg.frameEnd ∧
      t.reg aCFG_WORDS = s.reg aCFG_WORDS + BitVec.ofNat 32 (xs.length) ∧
      t.cfg.engineQ = s.cfg.engineQ ++ [((faOf s.cfg.frameAddr).die, (faOf s.cfg.frameAddr).key,
      (BitVec.ofNat 4096 (leNat ((s.cfg.acc ++ xs).flatMap (fun x => natLe 4 x.toNat)))))] ∧ t.cfg.acc = [] ∧
      t.cfg.fdataLeft = s.cfg.fdataLeft - xs.length ∧ (s.dieState (faOf s.cfg.frameAddr).die = 0 →
      t.dieState (faOf s.cfg.frameAddr).die = 1) ∧ (s.dieState (faOf s.cfg.frameAddr).die ≠ 0 →
      t.dieState (faOf s.cfg.frameAddr).die = s.dieState (faOf s.cfg.frameAddr).die) ∧ s.keepsElse t [.cfg,
      .ports] (among [aCFG_WORDS, aCFG_DIES]))) ∧
    (∀ (c : CfgSrc) (xs : List W32), s.takesFrom c → s.sound c xs → xs ≠ [] → xs.length ≤ s.cfg.fdataLeft → s.cfg.ebmLeft = 0 →
      s.cfg.frameEnd = false → s.inReset (faOf s.cfg.frameAddr).die = false → s.engineRoom (.more xs) →
      s.cfg.acc.length + xs.length = 128 → s.writeBounds (faOf s.cfg.frameAddr) = none →
      Leads (.streamFdata c xs) s (fun t => t.cfgState = 5 ∧ t.fld aCFG_STATUS fCFG_STATUS_CAUSE = 9 ∧
      t.fld aCFG_STATUS fCFG_STATUS_SRC = 0 ∧ t.reg aCFG_FAIL_WORD = t.reg aCFG_WORDS ∧ t.pins.initDriven ∧ t.showsEvent 34 ∧
      (∀ d, d ∈ fabricDies → t.dieState d ≠ 1) ∧ s.keepsElse t [.cfg, .ports, .pins, .ev, .hw] (among [aCFG_WORDS, aCFG_STATUS,
      aCFG_FAIL_WORD, aCFG_FAIL_FA, aCFG_DIES]))) ∧
    (∀ (c : CfgSrc) (xs : List W32), s.takesFrom c → s.sound c xs → xs ≠ [] → xs.length ≤ s.cfg.fdataLeft → s.cfg.ebmLeft = 0 →
      s.cfg.frameEnd = false → s.inReset (faOf s.cfg.frameAddr).die = false → s.engineRoom (.more xs) →
      s.cfg.acc.length + xs.length = 128 → (s.writeBounds (faOf s.cfg.frameAddr)).isSome →
      Leads (.streamFdata c xs) s (fun t => (selectBad (faOf s.cfg.frameAddr) (BitVec.ofNat 4096 (leNat ((s.cfg.acc ++ xs).flatMap (fun x => natLe 4 x.toNat)))) →
      t.cfgState = 5 ∧ t.fld aCFG_STATUS fCFG_STATUS_CAUSE = 7 ∧ t.fld aCFG_STATUS fCFG_STATUS_SRC = 0 ∧
      t.reg aCFG_FAIL_WORD = t.reg aCFG_WORDS ∧ t.pins.initDriven ∧ t.showsEvent 34 ∧ (∀ d, d ∈ fabricDies → t.dieState d ≠ 1) ∧
      s.keepsElse t [.cfg, .ports, .pins, .ev, .hw] (among [aCFG_WORDS, aCFG_STATUS, aCFG_FAIL_WORD, aCFG_FAIL_FA,
      aCFG_DIES])) ∧
      (selectBad (faOf s.cfg.frameAddr) (BitVec.ofNat 4096 (leNat ((s.cfg.acc ++ xs).flatMap (fun x => natLe 4 x.toNat)))) = false →
      t.cfgState = 3))) ∧
    (∀ (c : CfgSrc) (w : W32) (xs : List W32), s.takesFrom c → s.sound c (w :: xs) → xs.length + 1 ≤ s.cfg.fdataLeft →
      s.cfg.ebmLeft = 0 → s.engineRoom (.more (w :: xs)) → s.cfg.frameEnd →
      Leads (.streamFdata c (w :: xs)) s (fun t => t.reg aCFG_WORDS = s.reg aCFG_WORDS + 1#32 ∧ t.cfgState = 5 ∧
      t.fld aCFG_STATUS fCFG_STATUS_CAUSE = 8 ∧ t.fld aCFG_STATUS fCFG_STATUS_SRC = 0 ∧
      t.reg aCFG_FAIL_WORD = t.reg aCFG_WORDS ∧ t.pins.initDriven ∧ t.showsEvent 34 ∧ (∀ d, d ∈ fabricDies → t.dieState d ≠ 1) ∧
      s.keepsElse t [.cfg, .ports, .pins, .ev, .hw] (among [aCFG_WORDS, aCFG_STATUS, aCFG_FAIL_WORD, aCFG_FAIL_FA, aCFG_DIES]))) ∧
    (∀ (c : CfgSrc) (w : W32) (xs : List W32), s.takesFrom c → s.sound c (w :: xs) → xs.length + 1 ≤ s.cfg.fdataLeft →
      s.cfg.ebmLeft = 0 → s.engineRoom (.more (w :: xs)) → s.cfg.frameEnd = false → s.inReset (faOf s.cfg.frameAddr).die →
      Leads (.streamFdata c (w :: xs)) s (fun t => t.reg aCFG_WORDS = s.reg aCFG_WORDS + 1#32 ∧ t.cfgState = 5 ∧
      t.fld aCFG_STATUS fCFG_STATUS_CAUSE = 12 ∧ t.fld aCFG_STATUS fCFG_STATUS_SRC = 0 ∧
      t.reg aCFG_FAIL_WORD = t.reg aCFG_WORDS ∧ t.pins.initDriven ∧ t.showsEvent 34 ∧ (∀ d, d ∈ fabricDies → t.dieState d ≠ 1) ∧
      s.keepsElse t [.cfg, .ports, .pins, .ev, .hw] (among [aCFG_WORDS, aCFG_STATUS, aCFG_FAIL_WORD, aCFG_FAIL_FA, aCFG_DIES]))) ∧
    (∀ (c : CfgSrc) (xs ys : List W32), s.takesFrom c → (c = .parallel ∨ c = .spi) → xs ≠ [] → ys ≠ [] → s.cfg.ebmLeft = 0 →
      xs.length + ys.length ≤ s.cfg.fdataLeft → s.engineRoom (.more (xs ++ ys)) →
      Leads (.streamFdata c xs) s (fun t => exec (.streamFdata c ys) t = exec (.streamFdata c (xs ++ ys)) s)) ∧
    (∀ (c : CfgSrc) (xs : List W32), s.takesFrom c → s.sound c xs → xs ≠ [] → xs.length ≤ s.cfg.ebmLeft → s.cfg.fdataLeft = 0 →
      s.cfg.ebmEnd = false → s.inReset (faOf s.cfg.ebmAddr).die = false → s.engineRoom (.more xs) →
      s.cfg.acc.length + xs.length < 4 →
      Leads (.streamEbmData c xs) s (fun t => t.reg aCFG_WORDS = s.reg aCFG_WORDS + BitVec.ofNat 32 (xs.length) ∧
      t.cfg.acc = s.cfg.acc ++ xs ∧ t.cfg.ebmLeft = s.cfg.ebmLeft - xs.length ∧ t.cfg.map = s.cfg.map ∧ s.keepsElse t [.cfg,
      .ports] (among [aCFG_WORDS]))) ∧
    (∀ (c : CfgSrc) (xs : List W32) (lo hi last : Nat) (g : FrameAddr), s.takesFrom c → s.sound c xs → xs ≠ [] →
      xs.length ≤ s.cfg.ebmLeft → s.cfg.fdataLeft = 0 → s.cfg.ebmEnd = false → s.inReset (faOf s.cfg.ebmAddr).die = false →
      s.engineRoom (.more xs) → s.cfg.acc.length + xs.length = 4 → s.writeBounds (faOf s.cfg.ebmAddr) = some (lo, hi, last) →
      (faOf s.cfg.ebmAddr).next true lo hi last = some g → Leads (.streamEbmData c xs) s (fun t => t.cfg.ebmAddr = g.word ∧
      t.reg aCFG_WORDS = s.reg aCFG_WORDS + BitVec.ofNat 32 (xs.length) ∧
      t.mapWords (faOf s.cfg.ebmAddr).die (faOf s.cfg.ebmAddr).index = BitVec.ofNat 128 (leNat ((s.cfg.acc ++ xs).flatMap (fun x => natLe 4 x.toNat))) ∧
      t.cfg.ebmLeft = s.cfg.ebmLeft - xs.length ∧ (s.dieState (faOf s.cfg.ebmAddr).die = 0 →
      t.dieState (faOf s.cfg.ebmAddr).die = 1) ∧ t.cfg.frames = s.cfg.frames ∧ s.keepsElse t [.cfg, .ports] (among [aCFG_WORDS,
      aCFG_DIES]))) ∧
    (∀ (c : CfgSrc) (xs : List W32) (lo hi last : Nat), s.takesFrom c → s.sound c xs → xs ≠ [] → xs.length ≤ s.cfg.ebmLeft →
      s.cfg.fdataLeft = 0 → s.cfg.ebmEnd = false → s.inReset (faOf s.cfg.ebmAddr).die = false → s.engineRoom (.more xs) →
      s.cfg.acc.length + xs.length = 4 → s.writeBounds (faOf s.cfg.ebmAddr) = some (lo, hi, last) →
      (faOf s.cfg.ebmAddr).next true lo hi last = none → Leads (.streamEbmData c xs) s (fun t => t.cfg.ebmEnd ∧
      t.reg aCFG_WORDS = s.reg aCFG_WORDS + BitVec.ofNat 32 (xs.length) ∧
      t.mapWords (faOf s.cfg.ebmAddr).die (faOf s.cfg.ebmAddr).index = BitVec.ofNat 128 (leNat ((s.cfg.acc ++ xs).flatMap (fun x => natLe 4 x.toNat))) ∧
      t.cfg.ebmLeft = s.cfg.ebmLeft - xs.length ∧ (s.dieState (faOf s.cfg.ebmAddr).die = 0 →
      t.dieState (faOf s.cfg.ebmAddr).die = 1) ∧ t.cfg.frames = s.cfg.frames ∧ s.keepsElse t [.cfg, .ports] (among [aCFG_WORDS,
      aCFG_DIES]))) ∧
    (∀ (c : CfgSrc) (xs : List W32), s.takesFrom c → s.sound c xs → xs ≠ [] → xs.length ≤ s.cfg.ebmLeft → s.cfg.fdataLeft = 0 →
      s.cfg.ebmEnd = false → s.inReset (faOf s.cfg.ebmAddr).die = false → s.engineRoom (.more xs) →
      s.cfg.acc.length + xs.length = 4 → s.writeBounds (faOf s.cfg.ebmAddr) = none →
      Leads (.streamEbmData c xs) s (fun t => t.cfgState = 5 ∧ t.fld aCFG_STATUS fCFG_STATUS_CAUSE = 9 ∧
      t.fld aCFG_STATUS fCFG_STATUS_SRC = 0 ∧ t.reg aCFG_FAIL_WORD = t.reg aCFG_WORDS ∧ t.pins.initDriven ∧ t.showsEvent 34 ∧
      (∀ d, d ∈ fabricDies → t.dieState d ≠ 1) ∧ s.keepsElse t [.cfg, .ports, .pins, .ev, .hw] (among [aCFG_WORDS, aCFG_STATUS,
      aCFG_FAIL_WORD, aCFG_FAIL_FA, aCFG_DIES]))) ∧
    (∀ (c : CfgSrc) (w : W32) (xs : List W32), s.takesFrom c → s.sound c (w :: xs) → xs.length + 1 ≤ s.cfg.ebmLeft →
      s.cfg.fdataLeft = 0 → s.engineRoom (.more (w :: xs)) → s.cfg.ebmEnd →
      Leads (.streamEbmData c (w :: xs)) s (fun t => t.reg aCFG_WORDS = s.reg aCFG_WORDS + 1#32 ∧ t.cfgState = 5 ∧
      t.fld aCFG_STATUS fCFG_STATUS_CAUSE = 8 ∧ t.fld aCFG_STATUS fCFG_STATUS_SRC = 0 ∧
      t.reg aCFG_FAIL_WORD = t.reg aCFG_WORDS ∧ t.pins.initDriven ∧ t.showsEvent 34 ∧ (∀ d, d ∈ fabricDies → t.dieState d ≠ 1) ∧
      s.keepsElse t [.cfg, .ports, .pins, .ev, .hw] (among [aCFG_WORDS, aCFG_STATUS, aCFG_FAIL_WORD, aCFG_FAIL_FA, aCFG_DIES]))) ∧
    (∀ (c : CfgSrc) (w : W32) (xs : List W32), s.takesFrom c → s.sound c (w :: xs) → xs.length + 1 ≤ s.cfg.ebmLeft →
      s.cfg.fdataLeft = 0 → s.engineRoom (.more (w :: xs)) → s.cfg.ebmEnd = false → s.inReset (faOf s.cfg.ebmAddr).die →
      Leads (.streamEbmData c (w :: xs)) s (fun t => t.reg aCFG_WORDS = s.reg aCFG_WORDS + 1#32 ∧ t.cfgState = 5 ∧
      t.fld aCFG_STATUS fCFG_STATUS_CAUSE = 12 ∧ t.fld aCFG_STATUS fCFG_STATUS_SRC = 0 ∧
      t.reg aCFG_FAIL_WORD = t.reg aCFG_WORDS ∧ t.pins.initDriven ∧ t.showsEvent 34 ∧ (∀ d, d ∈ fabricDies → t.dieState d ≠ 1) ∧
      s.keepsElse t [.cfg, .ports, .pins, .ev, .hw] (among [aCFG_WORDS, aCFG_STATUS, aCFG_FAIL_WORD, aCFG_FAIL_FA, aCFG_DIES]))) ∧
    (∀ (c : CfgSrc) (xs ys : List W32), s.takesFrom c → (c = .parallel ∨ c = .spi) → xs ≠ [] → ys ≠ [] → s.cfg.fdataLeft = 0 →
      xs.length + ys.length ≤ s.cfg.ebmLeft → s.engineRoom (.more (xs ++ ys)) →
      Leads (.streamEbmData c xs) s (fun t => exec (.streamEbmData c ys) t = exec (.streamEbmData c (xs ++ ys)) s)) ∧
    (∀ (c : CfgSrc), s.atHeader c → s.sound c [0x10300001#32, 0#32] → Leads (.cmdNull c [0x10300001#32,
      0#32]) s (fun t => t.reg aCFG_WORDS = s.reg aCFG_WORDS + 2#32 ∧ t.cfg.clean = false ∧ t.cfgState = 3 ∧
      s.keepsElse t [.cfg, .ports] (among [aCFG_WORDS]))) ∧
    (∀ (c : CfgSrc), s.atHeader c → s.sound c [0x10300001#32, 2#32] → s.identified → s.cfg.clean →
      (fabricDies.filter (fun d => s.dieState d == 1 || s.cfg.startPend.getLsbD d)).all (fun d => !s.engineBusy d) →
      Leads (.cmdStart c [0x10300001#32, 2#32]) s (fun t => t.reg aCFG_WORDS = s.reg aCFG_WORDS + 2#32 ∧ (∀ d,
      d ∈ (fabricDies.filter (fun d => s.dieState d == 1 || s.cfg.startPend.getLsbD d)) →
      t.dieStart d = some ((s.tickN + 1535) / 1024 * 1024)) ∧
      t.cfg.startPend = (if (fabricDies.filter (fun d => s.dieState d == 1 || s.cfg.startPend.getLsbD d)) = [] then s.cfg.startPend else 0#8) ∧
      s.keepsElse t [.cfg, .ports] (among [aCFG_WORDS]))) ∧
    (∀ (c : CfgSrc), s.atHeader c → s.sound c [0x10300001#32, 2#32] → s.identified → s.cfg.clean →
      (fabricDies.filter (fun d => s.dieState d == 1 || s.cfg.startPend.getLsbD d)).any (fun d => s.engineBusy d) →
      Leads (.cmdStart c [0x10300001#32, 2#32]) s (fun t => t.reg aCFG_WORDS = s.reg aCFG_WORDS + 2#32 ∧ (∀ d,
      d ∈ (fabricDies.filter (fun d => s.dieState d == 1 || s.cfg.startPend.getLsbD d)) → t.cfg.startPend.getLsbD d) ∧
      t.cfg.startAt = s.cfg.startAt ∧ t.cfg.engineQ = s.cfg.engineQ ∧ s.keepsElse t [.cfg, .ports] (among [aCFG_WORDS]))) ∧
    (∀ (c : CfgSrc), s.atHeader c → s.sound c [0x10300001#32, 2#32] → s.identified → s.cfg.clean = false →
      Leads (.cmdStart c [0x10300001#32, 2#32]) s (fun t => t.cfgState = 5 ∧ t.fld aCFG_STATUS fCFG_STATUS_CAUSE = 2 ∧
      t.fld aCFG_STATUS fCFG_STATUS_SRC = 0 ∧ t.reg aCFG_FAIL_WORD = t.reg aCFG_WORDS ∧ t.pins.initDriven ∧ t.showsEvent 34 ∧
      (∀ d, d ∈ fabricDies → t.dieState d ≠ 1) ∧ s.keepsElse t [.cfg, .ports, .pins, .ev, .hw] (among [aCFG_WORDS, aCFG_STATUS,
      aCFG_FAIL_WORD, aCFG_FAIL_FA, aCFG_DIES]))) ∧
    (∀ (c : CfgSrc), s.atHeader c → s.sound c [0x10300001#32, 4#32] → s.identified → s.cfg.clean = false →
      Leads (.cmdRelease c [0x10300001#32, 4#32]) s (fun t => t.cfgState = 5 ∧ t.fld aCFG_STATUS fCFG_STATUS_CAUSE = 2 ∧
      t.fld aCFG_STATUS fCFG_STATUS_SRC = 0 ∧ t.reg aCFG_FAIL_WORD = t.reg aCFG_WORDS ∧ t.pins.initDriven ∧ t.showsEvent 34 ∧
      (∀ d, d ∈ fabricDies → t.dieState d ≠ 1) ∧ s.keepsElse t [.cfg, .ports, .pins, .ev, .hw] (among [aCFG_WORDS, aCFG_STATUS,
      aCFG_FAIL_WORD, aCFG_FAIL_FA, aCFG_DIES]))) ∧
    (∀ (c : CfgSrc), s.atHeader c → s.sound c [0x10300001#32, 2#32] → s.identified = false → Leads (.cmdStart c [0x10300001#32,
      2#32]) s (fun t => t.cfgState = 5 ∧ t.fld aCFG_STATUS fCFG_STATUS_CAUSE = 6 ∧ t.fld aCFG_STATUS fCFG_STATUS_SRC = 0 ∧
      t.reg aCFG_FAIL_WORD = t.reg aCFG_WORDS ∧ t.pins.initDriven ∧ t.showsEvent 34 ∧ (∀ d, d ∈ fabricDies → t.dieState d ≠ 1) ∧
      s.keepsElse t [.cfg, .ports, .pins, .ev, .hw] (among [aCFG_WORDS, aCFG_STATUS, aCFG_FAIL_WORD, aCFG_FAIL_FA, aCFG_DIES]))) ∧
    (∀ (c : CfgSrc), s.atHeader c → s.sound c [0x10300001#32, 3#32] → s.identified = false → Leads (.cmdHold c [0x10300001#32,
      3#32]) s (fun t => t.cfgState = 5 ∧ t.fld aCFG_STATUS fCFG_STATUS_CAUSE = 6 ∧ t.fld aCFG_STATUS fCFG_STATUS_SRC = 0 ∧
      t.reg aCFG_FAIL_WORD = t.reg aCFG_WORDS ∧ t.pins.initDriven ∧ t.showsEvent 34 ∧ (∀ d, d ∈ fabricDies → t.dieState d ≠ 1) ∧
      s.keepsElse t [.cfg, .ports, .pins, .ev, .hw] (among [aCFG_WORDS, aCFG_STATUS, aCFG_FAIL_WORD, aCFG_FAIL_FA, aCFG_DIES]))) ∧
    (∀ (c : CfgSrc), s.atHeader c → s.sound c [0x10300001#32, 4#32] → s.identified = false → Leads (.cmdRelease c [0x10300001#32,
      4#32]) s (fun t => t.cfgState = 5 ∧ t.fld aCFG_STATUS fCFG_STATUS_CAUSE = 6 ∧ t.fld aCFG_STATUS fCFG_STATUS_SRC = 0 ∧
      t.reg aCFG_FAIL_WORD = t.reg aCFG_WORDS ∧ t.pins.initDriven ∧ t.showsEvent 34 ∧ (∀ d, d ∈ fabricDies → t.dieState d ≠ 1) ∧
      s.keepsElse t [.cfg, .ports, .pins, .ev, .hw] (among [aCFG_WORDS, aCFG_STATUS, aCFG_FAIL_WORD, aCFG_FAIL_FA, aCFG_DIES]))) ∧
    (∀ (c : CfgSrc) (d n : Nat), s.atHeader c → s.sound c [0x10300001#32, 3#32] → s.identified → s.streamRegion = (d, n) → d < 6 →
      s.rgnValid d n → Leads (.cmdHold c [0x10300001#32, 3#32]) s (fun t => t.reg aCFG_WORDS = s.reg aCFG_WORDS + 2#32 ∧
      t.rgnHeld d n = s.rgnHeld d n ∧ (t.rgnPending d n ∨ t.rgnHeld d n) ∧
      t.cfg.waitHold = (if s.rgnHeld d n then none else some (d, n)) ∧ t.cfg.clean = false ∧ s.keepsElse t [.cfg, .ports, .nis,
      .ev, .hw, .free] (among [aCFG_WORDS, aBR_STAT d]))) ∧
    (∀ (c : CfgSrc) (d n : Nat), s.atHeader c → s.sound c [0x10300001#32, 4#32] → s.identified → s.streamRegion = (d, n) → d < 6 →
      s.rgnValid d n → s.cfg.clean → s.rgnPending d n = false → s.rgnHeld d n → (s.hold d n).relAt = none →
      Leads (.cmdRelease c [0x10300001#32, 4#32]) s (fun t => t.reg aCFG_WORDS = s.reg aCFG_WORDS + 2#32 ∧
      (t.hold d n).relAt = some s.now ∧ t.rgnHeld d n ∧ s.keepsElse t [.cfg, .ports, .nis] (among [aCFG_WORDS]))) ∧
    (∀ (c : CfgSrc) (d n : Nat), s.atHeader c → s.sound c [0x10300001#32, 4#32] → s.identified → s.streamRegion = (d, n) → d < 6 →
      s.rgnValid d n → s.cfg.clean → s.rgnPending d n → Leads (.cmdRelease c [0x10300001#32,
      4#32]) s (fun t => t.reg aCFG_WORDS = s.reg aCFG_WORDS + 2#32 ∧ (t.hold d n).asked ∧ t.rgnPending d n ∧
      s.keepsElse t [.cfg, .ports] (among [aCFG_WORDS]))) ∧
    (∀ (c : CfgSrc) (d n : Nat), s.atHeader c → s.sound c [0x10300001#32, 4#32] → s.identified → s.streamRegion = (d, n) → d < 6 →
      s.rgnValid d n → s.cfg.clean → s.rgnPending d n = false → (s.rgnHeld d n = false ∨ (s.hold d n).relAt.isSome) →
      Leads (.cmdRelease c [0x10300001#32, 4#32]) s (fun t => t.reg aCFG_WORDS = s.reg aCFG_WORDS + 2#32 ∧
      t.hold d n = s.hold d n ∧ s.keepsElse t [.cfg, .ports] (among [aCFG_WORDS]))) ∧
    (∀ (c : CfgSrc) (d n : Nat), s.atHeader c → s.sound c [0x10300001#32, 3#32] → s.identified → s.cfg.clean →
      s.streamRegion = (d, n) → (6 ≤ d ∨ s.rgnValid d n = false) → Leads (.cmdHold c [0x10300001#32,
      3#32]) s (fun t => t.cfgState = 5 ∧ t.fld aCFG_STATUS fCFG_STATUS_CAUSE = 13 ∧ t.fld aCFG_STATUS fCFG_STATUS_SRC = 0 ∧
      t.reg aCFG_FAIL_WORD = t.reg aCFG_WORDS ∧ t.pins.initDriven ∧ t.showsEvent 34 ∧ (∀ d, d ∈ fabricDies → t.dieState d ≠ 1) ∧
      s.keepsElse t [.cfg, .ports, .pins, .ev, .hw] (among [aCFG_WORDS, aCFG_STATUS, aCFG_FAIL_WORD, aCFG_FAIL_FA, aCFG_DIES]))) ∧
    (∀ (c : CfgSrc) (d n : Nat), s.atHeader c → s.sound c [0x10300001#32, 4#32] → s.identified → s.cfg.clean →
      s.streamRegion = (d, n) → (6 ≤ d ∨ s.rgnValid d n = false) → Leads (.cmdRelease c [0x10300001#32,
      4#32]) s (fun t => t.cfgState = 5 ∧ t.fld aCFG_STATUS fCFG_STATUS_CAUSE = 13 ∧ t.fld aCFG_STATUS fCFG_STATUS_SRC = 0 ∧
      t.reg aCFG_FAIL_WORD = t.reg aCFG_WORDS ∧ t.pins.initDriven ∧ t.showsEvent 34 ∧ (∀ d, d ∈ fabricDies → t.dieState d ≠ 1) ∧
      s.keepsElse t [.cfg, .ports, .pins, .ev, .hw] (among [aCFG_WORDS, aCFG_STATUS, aCFG_FAIL_WORD, aCFG_FAIL_FA, aCFG_DIES]))) ∧
    (∀ (c : CfgSrc), s.atHeader c → s.sound c [0x10300001#32, 5#32] → s.cfg.clean → Leads (.cmdDesync c [0x10300001#32,
      5#32]) s (fun t => t.cfgState = 2 ∧ t.fld aCFG_STATUS fCFG_STATUS_SRC = 0 ∧ t.showsEvent 33 ∧ s.keepsElse t [.cfg, .ports,
      .ev, .hw] (among [aCFG_WORDS, aCFG_STATUS]))) ∧
    (∀ (c : CfgSrc), s.atHeader c → s.sound c [0x10300001#32, 5#32] → s.cfg.clean = false → Leads (.cmdDesync c [0x10300001#32,
      5#32]) s (fun t => t.cfgState = 5 ∧ t.fld aCFG_STATUS fCFG_STATUS_CAUSE = 2 ∧ t.fld aCFG_STATUS fCFG_STATUS_SRC = 0 ∧
      t.reg aCFG_FAIL_WORD = t.reg aCFG_WORDS ∧ t.pins.initDriven ∧ t.showsEvent 34 ∧ (∀ d, d ∈ fabricDies → t.dieState d ≠ 1) ∧
      s.keepsElse t [.cfg, .ports, .pins, .ev, .hw] (among [aCFG_WORDS, aCFG_STATUS, aCFG_FAIL_WORD, aCFG_FAIL_FA, aCFG_DIES])))

/-- Clearing leaves every frame zero and every map bit one, releases INIT_N and enters WAIT; with INIT_N high the controller
enters SYNC. A CFG_SDATA write enters the buffer, where words before a sync word are ignored while nobody owns the stream,
unless it is full or another source owns the stream. The sync word makes its source the owner, in STREAM, with CFG_WORDS zero,
CRC all ones and event 32. A silent TMO time fails with cause 0x1. Model choices it rests on: log entries 64, 154.
(09_configuration.md R212 to R218, R223) -/
def Obligations.ConfigurationController : Prop :=
  ∀ s : State, s.Inv →
    (s.runs → s.cfgState = 0 → s.clk.revDone → s.clk.revWait = 0#8 → s.pins.progLow = false →
      Leads (.clearComplete) s (fun t => (∀ d ∈ fabricDies, ∀ k, k / 2097152 = d → t.frame k = 0#4096 ∧ t.frameChk k = 0#14) ∧
      (∀ d ∈ fabricDies, ∀ f, f < 131072 → t.mapWords d f = BitVec.allOnes 128) ∧ t.pins.initDriven = false ∧ t.cfgState = 1 ∧
      s.keepsElse t [.cfg, .pins] (among [aCFG_STATUS]))) ∧
    ((s.runs = false ∨ s.cfgState ≠ 0 ∨ s.clk.revDone = false ∨ s.clk.revWait ≠ 0#8 ∨ s.pins.progLow) →
      exec (.clearComplete) s = .next (s)) ∧
    (s.runs → s.cfgState = 1 → Leads (.initNHigh) s (fun t => t.cfgState = 2 ∧ t.bit aCFG_STATUS fCFG_STATUS_INIT ∧
      t.cfg.spiRead = (s.pins.cfgMode == 1) ∧ s.keepsElse t [.cfg, .hw, .ports] (among [aCFG_STATUS]))) ∧
    ((s.runs = false ∨ s.cfgState ≠ 1) → exec (.initNHigh) s = .next (s)) ∧
    (∀ (m : Rm) (v : W32), s.ringReady m aCFG_SDATA → s.cfg.sdata.length < 256 → (s.fld aCFG_STATUS fCFG_STATUS_SRC = 0 ∨
      s.fld aCFG_STATUS fCFG_STATUS_SRC = 4) → s.cfgState ≠ 2 → s.cfgState ≠ 5 →
      Writes (.cfgSdataWrite m v) m aCFG_SDATA v .ok s (fun u => u = { s with cfg := { s.cfg with sdata := s.cfg.sdata ++ [v] } })) ∧
    (∀ (m : Rm) (v : W32), s.ringReady m aCFG_SDATA → s.cfg.sdata.length < 256 → (s.fld aCFG_STATUS fCFG_STATUS_SRC = 0 ∨
      s.fld aCFG_STATUS fCFG_STATUS_SRC = 4) → (s.cfgState = 2 ∨ s.cfgState = 5) →
      Writes (.cfgSdataWrite m v) m aCFG_SDATA v .ok s (fun u => u.cfg.sdata = (s.cfg.sdata ++ [v]).dropWhile (fun w => w != syncWordValue) ∧
      s.keepsElse u [.cfg, .ports] (fun _ => false))) ∧
    (∀ (m : Rm) (v : W32), s.ringReady m aCFG_SDATA → (256 ≤ s.cfg.sdata.length ∨ (s.fld aCFG_STATUS fCFG_STATUS_SRC ≠ 0 ∧
      s.fld aCFG_STATUS fCFG_STATUS_SRC ≠ 4)) → Writes (.cfgSdataWrite m v) m aCFG_SDATA v .refused s (fun u => u = s)) ∧
    (∀ (c : CfgSrc), s.runs → (s.cfgState = 2 ∨ s.cfgState = 5) → s.srcAllowed c → (s.takeSync c).isSome →
      Leads (.syncWord c) s (fun t => t.owns c ∧ t.cfgState = 3 ∧ t.bit aCFG_STATUS fCFG_STATUS_INIT ∧
      t.pins.initDriven = false ∧ t.reg aCFG_WORDS = 0#32 ∧ t.cfg.crc = 0xFFFFFFFF#32 ∧ t.cfg.clean = false ∧
      t.identified = false ∧ t.showsEvent 32 ∧ s.keepsElse t [.cfg, .ports, .pins, .ev, .hw] (among [aCFG_STATUS, aCFG_WORDS]))) ∧
    (∀ (c : CfgSrc), (s.runs = false ∨ (s.cfgState ≠ 2 ∧ s.cfgState ≠ 5) ∨ s.srcAllowed c = false ∨ s.takeSync c = none) →
      exec (.syncWord c) s = .next (s)) ∧
    (s.runs → s.cfgState = 3 → s.streamStalled = false → s.fld aCFG_CTRL fCFG_CTRL_TMO ≠ 0 →
      s.cfg.lastWord + ringTicks (4096 * s.fld aCFG_CTRL fCFG_CTRL_TMO) ≤ s.now →
      Leads (.streamTimeout) s (fun t => t.cfgState = 5 ∧ t.fld aCFG_STATUS fCFG_STATUS_CAUSE = 1 ∧
      t.fld aCFG_STATUS fCFG_STATUS_SRC = 0 ∧ t.reg aCFG_FAIL_WORD = t.reg aCFG_WORDS ∧ t.pins.initDriven ∧ t.showsEvent 34 ∧
      (∀ d, d ∈ fabricDies → t.dieState d ≠ 1) ∧ s.keepsElse t [.cfg, .ports, .pins, .ev, .hw] (among [aCFG_WORDS, aCFG_STATUS,
      aCFG_FAIL_WORD, aCFG_FAIL_FA, aCFG_DIES]))) ∧
    ((s.runs = false ∨ s.cfgState ≠ 3 ∨ s.streamStalled ∨ s.fld aCFG_CTRL fCFG_CTRL_TMO = 0 ∨
      s.now < s.cfg.lastWord + ringTicks (4096 * s.fld aCFG_CTRL fCFG_CTRL_TMO)) → exec (.streamTimeout) s = .next (s))

/-- At T every die in loading with its T reached enters state starting, its stages follow the ticks of R222, and at T + 288 it
enters state running with its event, scanned where OPTIONS asked for it; DONE is released once dies 0 to 5 run. An engine
writes the oldest frame of its buffer with its check bits, and the last frame before a START fixes T. Model choices it rests
on: log entry 66. (09_configuration.md R211, R216, R222, R232) -/
def Obligations.StartUp : Prop :=
  ∀ s : State, s.Inv →
    (s.runs → Leads (.startupBegin) s (fun t => (∀ d ∈ fabricDies, ∀ k, s.dieStart d = some k → s.dieState d = 1 → k ≤ s.tickN →
      t.dieState d = 2 ∧ t.dieStage d = 1) ∧ (∀ d ∈ fabricDies, (s.dieState d ≠ 1 ∨ s.dieStart d = none) →
      t.dieState d = s.dieState d) ∧ (∀ d ∈ fabricDies, ∀ k, s.dieStart d = some k → s.tickN < k →
      t.dieState d = s.dieState d) ∧ s.keepsElse t [.cfg] (among [aCFG_DIES]))) ∧
    (s.runs → Leads (.startupStage) s (fun t => (∀ d ∈ fabricDies, ∀ k, s.dieStart d = some k → s.dieState d = 2 →
      t.dieStage d = rowsPassed (s.tickN - k)) ∧ (∀ d ∈ fabricDies, s.dieState d ≠ 2 → t.dieStage d = s.dieStage d) ∧
      s.keepsElse t [.cfg] (fun _ => false))) ∧
    (s.runs → Leads (.startupRunning) s (fun t => (∀ d ∈ fabricDies, ∀ k, s.dieStart d = some k → s.dieState d = 2 →
      k + 288 ≤ s.tickN → t.dieState d = 3 ∧ t.dieStart d = none ∧ t.showsEvent (feEvent d 4) ∧ (s.cfg.startScan.getLsbD d →
      t.bit (aFE_SCAN_CTRL d) fFE_SCAN_CTRL_EN)) ∧ (∀ d ∈ fabricDies, (s.dieState d ≠ 2 ∨ s.dieStart d = none) →
      t.dieState d = s.dieState d) ∧ (∀ d ∈ fabricDies, ∀ k, s.dieStart d = some k → s.tickN < k + 288 →
      t.dieState d = s.dieState d) ∧ ((∀ d, d < 6 → t.dieState d = 3) → t.bit aCFG_STATUS fCFG_STATUS_DONE) ∧
      s.keepsElse t [.cfg, .pins, .ev, .hw] (fun a => among [aCFG_DIES,
      aCFG_STATUS] a || among (fabricDies.map aFE_SCAN_CTRL) a))) ∧
    (s.runs = false → exec (.startupBegin) s = .next (s)) ∧
    (s.runs = false → exec (.startupStage) s = .next (s)) ∧
    (s.runs = false → exec (.startupRunning) s = .next (s)) ∧
    (∀ (d : Fin 8) (k : Nat) (b : BitVec 4096), s.runs → s.inReset d.val = false → s.marching d.val = false →
      s.cfg.engineQ.find? (fun x => x.1 == d.val) = some (d.val, k, b) →
      Leads (.frameEngineWriteDone d) s (fun t => t.frame k = b ∧ t.frameChk k = frameCheck b ∧ (∀ j, j ≠ k →
      t.frame j = s.frame j ∧ t.frameChk j = s.frameChk j) ∧ t.cfg.engineQ = s.cfg.engineQ.erase (d.val, k, b) ∧
      s.keepsElse t [.cfg] (fun _ => false))) ∧
    (∀ (d : Fin 8) (k : Nat) (b : BitVec 4096), s.runs → s.inReset d.val = false → s.marching d.val = false →
      s.cfg.engineQ.find? (fun x => x.1 == d.val) = some (d.val, k, b) → d.val ∈ fabricDies → s.cfg.engineQ = [(d.val, k, b)] →
      s.cfg.startPend = BitVec.ofNat 8 (2 ^ d.val) →
      Leads (.frameEngineWriteDone d) s (fun t => t.dieStart d.val = some ((s.tickN + 1535) / 1024 * 1024) ∧
      t.cfg.startPend = 0#8 ∧ t.cfg.engineQ = [])) ∧
    (∀ (d : Fin 8), (s.runs = false ∨ s.inReset d.val ∨ s.marching d.val ∨ s.cfg.engineQ.find? (fun x => x.1 == d.val) = none) →
      exec (.frameEngineWriteDone d) s = .next (s))

/-- A scan checks the frame at FE_SCAN_FRAME with the bits that have flipped and moves on, counting a pass after the last: a
single wrong bit is corrected, counted essential or not by the map (on A always essential), and logged; an uncorrectable frame
is counted, logged and left; a held region is passed over. A full log counts records lost. FE_LOG_POP drops the oldest record,
FE_LOG_STAT clears what it names. A readback read answers the word addressed and, from any master but the debug port,
advances. CAPTURE takes a new capture. Model choices it rests on: log entries 63, 68. (09_configuration.md R211, R227 to R231,
14_analog_blocks.md R349, 17_debug.md R400) -/
def Obligations.UpsetScanAndReadback : Prop :=
  ∀ s : State, s.Inv →
    (∀ (d : Fin 8) (k : Nat), d.val ≠ 6 → s.runs → s.inReset d.val = false → s.bit (aFE_SCAN_CTRL d.val) fFE_SCAN_CTRL_EN →
      s.dieState d.val = 3 → s.fld (aFE_SCAN_FRAME d.val) fFE_SCAN_FRAME_F + 1 < frameCount d.val →
      s.heldRegionAt (frameAt d.val (s.fld (aFE_SCAN_FRAME d.val) fFE_SCAN_FRAME_F)) = none →
      (frameAt d.val (s.fld (aFE_SCAN_FRAME d.val) fFE_SCAN_FRAME_F)).key = k → s.frameChk k = frameCheck (s.frame k) →
      Leads (.scanFrame d []) s (fun t => t.fld (aFE_SCAN_FRAME d.val) fFE_SCAN_FRAME_F = s.fld (aFE_SCAN_FRAME d.val) fFE_SCAN_FRAME_F + 1 ∧
      t.cfg = s.cfg ∧ s.keepsElse t [] (among [aFE_SCAN_FRAME d.val]))) ∧
    (∀ (d : Fin 8) (k : Nat) (i : Fin 4096), d.val ≠ 6 → s.runs → s.inReset d.val = false →
      s.bit (aFE_SCAN_CTRL d.val) fFE_SCAN_CTRL_EN → s.dieState d.val = 3 →
      s.fld (aFE_SCAN_FRAME d.val) fFE_SCAN_FRAME_F + 1 < frameCount d.val →
      s.heldRegionAt (frameAt d.val (s.fld (aFE_SCAN_FRAME d.val) fFE_SCAN_FRAME_F)) = none →
      (frameAt d.val (s.fld (aFE_SCAN_FRAME d.val) fFE_SCAN_FRAME_F)).key = k → s.frameChk k = frameCheck (s.frame k) →
      (s.upsets d.val).length < 8 →
      Leads (.scanFrame d [i.val]) s (fun t => t.fld (aFE_SCAN_FRAME d.val) fFE_SCAN_FRAME_F = s.fld (aFE_SCAN_FRAME d.val) fFE_SCAN_FRAME_F + 1 ∧
      t.frame k = s.frame k ∧ t.frameChk k = s.frameChk k ∧ (t.upsets d.val).dropLast = s.upsets d.val ∧
      (t.upsets d.val).getLast?.map (fun r => (r.word, r.bit, r.chk)) = some (i.val / 32, i.val % 32, false) ∧
      s.keepsElse t [.cfg, .ev, .hw] (among [aFE_SCAN_FRAME d.val, aFE_UPSET_CNT d.val, aFE_LOG_STAT d.val]))) ∧
    (∀ (d : Fin 8) (l : List Nat) (k : Nat), d.val ≠ 6 → s.runs → s.inReset d.val = false →
      s.bit (aFE_SCAN_CTRL d.val) fFE_SCAN_CTRL_EN → s.dieState d.val = 3 →
      s.fld (aFE_SCAN_FRAME d.val) fFE_SCAN_FRAME_F + 1 < frameCount d.val →
      s.heldRegionAt (frameAt d.val (s.fld (aFE_SCAN_FRAME d.val) fFE_SCAN_FRAME_F)) = none →
      (frameAt d.val (s.fld (aFE_SCAN_FRAME d.val) fFE_SCAN_FRAME_F)).key = k →
      frameJudge ((s.flipBits k l).frame k) ((s.flipBits k l).frameChk k) = .clean →
      Leads (.scanFrame d l) s (fun t => t.fld (aFE_SCAN_FRAME d.val) fFE_SCAN_FRAME_F = s.fld (aFE_SCAN_FRAME d.val) fFE_SCAN_FRAME_F + 1 ∧
      t.cfg = (s.flipBits k l).cfg ∧ s.keepsElse t [.cfg] (among [aFE_SCAN_FRAME d.val]))) ∧
    (∀ (d : Fin 8) (l : List Nat) (k : Nat) (i : Fin 4096), d.val ≠ 6 → s.runs → s.inReset d.val = false →
      s.bit (aFE_SCAN_CTRL d.val) fFE_SCAN_CTRL_EN → s.dieState d.val = 3 →
      s.fld (aFE_SCAN_FRAME d.val) fFE_SCAN_FRAME_F + 1 < frameCount d.val →
      s.heldRegionAt (frameAt d.val (s.fld (aFE_SCAN_FRAME d.val) fFE_SCAN_FRAME_F)) = none →
      (frameAt d.val (s.fld (aFE_SCAN_FRAME d.val) fFE_SCAN_FRAME_F)).key = k →
      frameJudge ((s.flipBits k l).frame k) ((s.flipBits k l).frameChk k) = .data i.val → (s.upsets d.val).length < 8 →
      Leads (.scanFrame d l) s (fun t => t.fld (aFE_SCAN_FRAME d.val) fFE_SCAN_FRAME_F = s.fld (aFE_SCAN_FRAME d.val) fFE_SCAN_FRAME_F + 1 ∧
      t.frame k = (s.flipBits k l).frame k ^^^ (1#4096 <<< i.val) ∧ t.frameChk k = (s.flipBits k l).frameChk k ∧
      (t.upsets d.val) = s.upsets d.val ++ [{ fa := BitVec.ofNat 32 (k * 256), kind := if (d.val = 7 ∨ (s.mapWords d.val (s.fld (aFE_SCAN_FRAME d.val) fFE_SCAN_FRAME_F)).getLsbD (i.val / 32)) then 2 else 1, chk := false, word := i.val / 32, bit := i.val % 32, tick := BitVec.ofNat 32 s.tickN }] ∧
      ((d.val = 7 ∨ (s.mapWords d.val (s.fld (aFE_SCAN_FRAME d.val) fFE_SCAN_FRAME_F)).getLsbD (i.val / 32)) →
      t.fld (aFE_UPSET_CNT d.val) fFE_UPSET_CNT_ESS = min (s.fld (aFE_UPSET_CNT d.val) fFE_UPSET_CNT_ESS + 1) 4095 ∧
      t.showsEvent (feEvent d.val 0)) ∧ (¬ (d.val = 7 ∨
      (s.mapWords d.val (s.fld (aFE_SCAN_FRAME d.val) fFE_SCAN_FRAME_F)).getLsbD (i.val / 32)) →
      t.fld (aFE_UPSET_CNT d.val) fFE_UPSET_CNT_NONESS = min (s.fld (aFE_UPSET_CNT d.val) fFE_UPSET_CNT_NONESS + 1) 4095) ∧
      s.keepsElse t [.cfg, .ev, .hw] (among [aFE_SCAN_FRAME d.val, aFE_UPSET_CNT d.val, aFE_LOG_STAT d.val]))) ∧
    (∀ (d : Fin 8) (l : List Nat) (k : Nat) (i : Fin 14), d.val ≠ 6 → s.runs → s.inReset d.val = false →
      s.bit (aFE_SCAN_CTRL d.val) fFE_SCAN_CTRL_EN → s.dieState d.val = 3 →
      s.fld (aFE_SCAN_FRAME d.val) fFE_SCAN_FRAME_F + 1 < frameCount d.val →
      s.heldRegionAt (frameAt d.val (s.fld (aFE_SCAN_FRAME d.val) fFE_SCAN_FRAME_F)) = none →
      (frameAt d.val (s.fld (aFE_SCAN_FRAME d.val) fFE_SCAN_FRAME_F)).key = k →
      frameJudge ((s.flipBits k l).frame k) ((s.flipBits k l).frameChk k) = .check i.val → (s.upsets d.val).length < 8 →
      Leads (.scanFrame d l) s (fun t => t.fld (aFE_SCAN_FRAME d.val) fFE_SCAN_FRAME_F = s.fld (aFE_SCAN_FRAME d.val) fFE_SCAN_FRAME_F + 1 ∧
      t.frame k = (s.flipBits k l).frame k ∧ t.frameChk k = (s.flipBits k l).frameChk k ^^^ (1#14 <<< i.val) ∧
      (t.upsets d.val) = s.upsets d.val ++ [{ fa := BitVec.ofNat 32 (k * 256), kind := if d.val = 7 then 2 else 1, chk := true, word := 0, bit := i.val, tick := BitVec.ofNat 32 s.tickN }] ∧
      (d.val = 7 →
      t.fld (aFE_UPSET_CNT d.val) fFE_UPSET_CNT_ESS = min (s.fld (aFE_UPSET_CNT d.val) fFE_UPSET_CNT_ESS + 1) 4095 ∧
      t.showsEvent (feEvent d.val 0)) ∧ (d.val ≠ 7 →
      t.fld (aFE_UPSET_CNT d.val) fFE_UPSET_CNT_NONESS = min (s.fld (aFE_UPSET_CNT d.val) fFE_UPSET_CNT_NONESS + 1) 4095) ∧
      s.keepsElse t [.cfg, .ev, .hw] (among [aFE_SCAN_FRAME d.val, aFE_UPSET_CNT d.val, aFE_LOG_STAT d.val]))) ∧
    (∀ (d : Fin 8) (l : List Nat) (k : Nat), d.val ≠ 6 → s.runs → s.inReset d.val = false →
      s.bit (aFE_SCAN_CTRL d.val) fFE_SCAN_CTRL_EN → s.dieState d.val = 3 →
      s.fld (aFE_SCAN_FRAME d.val) fFE_SCAN_FRAME_F + 1 < frameCount d.val →
      s.heldRegionAt (frameAt d.val (s.fld (aFE_SCAN_FRAME d.val) fFE_SCAN_FRAME_F)) = none →
      (frameAt d.val (s.fld (aFE_SCAN_FRAME d.val) fFE_SCAN_FRAME_F)).key = k →
      frameJudge ((s.flipBits k l).frame k) ((s.flipBits k l).frameChk k) = .bad → (s.upsets d.val).length < 8 →
      Leads (.scanFrame d l) s (fun t => t.fld (aFE_SCAN_FRAME d.val) fFE_SCAN_FRAME_F = s.fld (aFE_SCAN_FRAME d.val) fFE_SCAN_FRAME_F + 1 ∧
      t.cfg.frames = (s.flipBits k l).cfg.frames ∧ t.cfg.checks = (s.flipBits k l).cfg.checks ∧
      (t.upsets d.val) = s.upsets d.val ++ [{ fa := BitVec.ofNat 32 (k * 256), kind := 3, chk := false, word := 0, bit := 0, tick := BitVec.ofNat 32 s.tickN }] ∧
      t.fld (aFE_UPSET_CNT d.val) fFE_UPSET_CNT_UNCORR = min (s.fld (aFE_UPSET_CNT d.val) fFE_UPSET_CNT_UNCORR + 1) 255 ∧
      t.showsEvent (feEvent d.val 1) ∧ s.keepsElse t [.cfg, .ev, .hw] (among [aFE_SCAN_FRAME d.val, aFE_UPSET_CNT d.val,
      aFE_LOG_STAT d.val]))) ∧
    (∀ (d : Fin 8) (l : List Nat) (k : Nat), d.val ≠ 6 → s.runs → s.inReset d.val = false →
      s.bit (aFE_SCAN_CTRL d.val) fFE_SCAN_CTRL_EN → s.dieState d.val = 3 →
      s.fld (aFE_SCAN_FRAME d.val) fFE_SCAN_FRAME_F + 1 < frameCount d.val →
      s.heldRegionAt (frameAt d.val (s.fld (aFE_SCAN_FRAME d.val) fFE_SCAN_FRAME_F)) = none →
      (frameAt d.val (s.fld (aFE_SCAN_FRAME d.val) fFE_SCAN_FRAME_F)).key = k →
      frameJudge ((s.flipBits k l).frame k) ((s.flipBits k l).frameChk k) = .bad → 8 ≤ (s.upsets d.val).length →
      Leads (.scanFrame d l) s (fun t => t.fld (aFE_SCAN_FRAME d.val) fFE_SCAN_FRAME_F = s.fld (aFE_SCAN_FRAME d.val) fFE_SCAN_FRAME_F + 1 ∧
      t.upsets d.val = s.upsets d.val ∧
      t.fld (aFE_LOG_STAT d.val) fFE_LOG_STAT_LOST = min (s.fld (aFE_LOG_STAT d.val) fFE_LOG_STAT_LOST + 1) 65535 ∧
      (s.fld (aFE_LOG_STAT d.val) fFE_LOG_STAT_LOST = 0 → t.showsEvent (feEvent d.val 2)) ∧
      t.fld (aFE_UPSET_CNT d.val) fFE_UPSET_CNT_UNCORR = min (s.fld (aFE_UPSET_CNT d.val) fFE_UPSET_CNT_UNCORR + 1) 255 ∧
      t.showsEvent (feEvent d.val 1) ∧ s.keepsElse t [.cfg, .ev, .hw] (among [aFE_SCAN_FRAME d.val, aFE_UPSET_CNT d.val,
      aFE_LOG_STAT d.val]))) ∧
    (∀ (d : Fin 8) (l : List Nat) (k : Nat), d.val ≠ 6 → s.runs → s.inReset d.val = false →
      s.bit (aFE_SCAN_CTRL d.val) fFE_SCAN_CTRL_EN → s.dieState d.val = 3 →
      s.fld (aFE_SCAN_FRAME d.val) fFE_SCAN_FRAME_F + 1 < frameCount d.val →
      (s.heldRegionAt (frameAt d.val (s.fld (aFE_SCAN_FRAME d.val) fFE_SCAN_FRAME_F))).isSome →
      (frameAt d.val (s.fld (aFE_SCAN_FRAME d.val) fFE_SCAN_FRAME_F)).key = k →
      Leads (.scanFrame d l) s (fun t => t.fld (aFE_SCAN_FRAME d.val) fFE_SCAN_FRAME_F = s.fld (aFE_SCAN_FRAME d.val) fFE_SCAN_FRAME_F + 1 ∧
      t.cfg = (s.flipBits k l).cfg ∧ s.keepsElse t [.cfg] (among [aFE_SCAN_FRAME d.val]))) ∧
    (∀ (d : Fin 8) (l : List Nat), d.val ≠ 6 → s.runs → s.inReset d.val = false → s.bit (aFE_SCAN_CTRL d.val) fFE_SCAN_CTRL_EN →
      s.dieState d.val = 3 → frameCount d.val ≤ s.fld (aFE_SCAN_FRAME d.val) fFE_SCAN_FRAME_F + 1 →
      Leads (.scanFrame d l) s (fun t => t.fld (aFE_SCAN_FRAME d.val) fFE_SCAN_FRAME_F = 0 ∧
      t.fld (aFE_SCAN_POS d.val) fFE_SCAN_POS_PASSES = min (s.fld (aFE_SCAN_POS d.val) fFE_SCAN_POS_PASSES + 1) 65535 ∧
      (s.bit (aFE_SCAN_CTRL d.val) fFE_SCAN_CTRL_PASS_EVT → t.showsEvent (feEvent d.val 3)) ∧ s.keepsElse t [.cfg, .ev,
      .hw] (among [aFE_SCAN_FRAME d.val, aFE_SCAN_POS d.val, aFE_UPSET_CNT d.val, aFE_LOG_STAT d.val]))) ∧
    (∀ (d : Fin 8) (l : List Nat), (d.val = 6 ∨ s.runs = false ∨ s.inReset d.val ∨
      s.bit (aFE_SCAN_CTRL d.val) fFE_SCAN_CTRL_EN = false ∨ s.dieState d.val ≠ 3) → exec (.scanFrame d l) s = .next (s)) ∧
    (∀ (m : Rm) (d : Fin 8) (v : W32), s.ringReady m (aFE_LOG_POP d.val) →
      Writes (.feLogPop m d v) m (aFE_LOG_POP d.val) v .ok s (fun u => u.upsets d.val = (s.upsets d.val).drop 1 ∧
      s.keepsElse u [.cfg] (fun _ => false))) ∧
    (∀ (m : Rm) (d : Fin 8) (v : W32), s.ringReady m (aFE_LOG_STAT d.val) →
      Writes (.feLogStatWrite m d v) m (aFE_LOG_STAT d.val) v .ok s (fun u => (v.getLsbD 16 →
      u.fld (aFE_LOG_STAT d.val) fFE_LOG_STAT_LOST = 0) ∧ (v.getLsbD 16 = false →
      u.reg (aFE_LOG_STAT d.val) = s.reg (aFE_LOG_STAT d.val)) ∧
      u.reg (aFE_UPSET_CNT d.val) = (if v.getLsbD 0 then 0#32 else s.reg (aFE_UPSET_CNT d.val)) ∧
      s.keepsElse u [] (among [aFE_LOG_STAT d.val, aFE_UPSET_CNT d.val]))) ∧
    (∀ (m : Rm) (d : Fin 8), s.ringReady m (aFE_RB_DATA d.val) → s.rbValid d.val →
      Leads (.feRbDataRead m d) s (fun t => (t.master m).answered ∧ (t.master m).ansStatus = .ok ∧
      (t.master m).ansData = s.rbWord d.val ∧ (m = .debug → t.regs = s.regs) ∧ (m ≠ .debug →
      s.fld (aFE_RB_ADDR d.val) fFE_RB_ADDR_WORD < 127 →
      t.reg (aFE_RB_ADDR d.val) = putF (s.reg (aFE_RB_ADDR d.val)) fFE_RB_ADDR_WORD (s.fld (aFE_RB_ADDR d.val) fFE_RB_ADDR_WORD + 1)) ∧
      (m ≠ .debug → s.fld (aFE_RB_ADDR d.val) fFE_RB_ADDR_WORD = 127 →
      ((s.rbFrame d.val).next false 0 (rowBlocks d.val - 1) (lastColumn d.val)).all (fun g => t.reg (aFE_RB_ADDR d.val) == g.word)) ∧
      s.keepsElse t [.ringCore, .ringDebug, .ringConfig] (among [(aFE_RB_ADDR d.val)]))) ∧
    (∀ (m : Rm) (d : Fin 8), s.ringReady m (aFE_RB_DATA d.val) → s.rbValid d.val = false →
      Leads (.feRbDataRead m d) s (fun t => (t.master m).answered ∧ (t.master m).ansStatus = .decode ∧ s.keepsElse t [.ringCore,
      .ringDebug, .ringConfig] (fun _ => false))) ∧
    (∀ (m : Rm) (d : Fin 8), s.ringReady m (aFE_RB_CTRL d.val) →
      Writes (.feRbCapture m d) m (aFE_RB_CTRL d.val) (putF (s.reg (aFE_RB_CTRL d.val)) fFE_RB_CTRL_CAPTURE 1) .ok s (fun u => u.free = s.free + 1 ∧
      (u.capture d.val).num = s.free + 1 ∧ (u.capture d.val).all = !s.ffsUp d.val ∧ u.cfg.frames = s.cfg.frames ∧
      s.keepsElse u [.cfg, .free] (among [aFE_RB_CTRL d.val])))

/-- A scalar operation that issues reads its operands then, and, where its guard holds, its result goes to the register (or
predicate) that d names at latency 1: sums and differences wrap or clamp as FN asks, shifts use five bits, MOVHI keeps the low
half, CMP and CMPI write a predicate, SEL chooses by a predicate. With the last slot of the bundle the cycle ends and the
result lands. Nothing else changes. The operations are named in the clauses. Model choices it rests on: log entry 71.
(10_thrumas.md R233 to R236) -/
def Obligations.CoreScalarOperations : Prop :=
  ∀ s : State, s.Inv →
    (∀ (c : Fin 8) (slot : Fin 4) (w : W32) (x : Thrumas), x = s.thr c.val → s.issues c.val slot.val 0x00 w →
      Leads (.nop c slot w) s (fun t => s.pipes t c.val slot.val x [])) ∧
    (∀ (c : Fin 8) (slot : Fin 4) (w : W32) (x : Thrumas), x = s.thr c.val → s.issues c.val slot.val 0x01 w →
      Leads (.addOp c slot w) s (fun t => s.pipes t c.val slot.val x (toD x w 1 (if w.getLsbD 0 then clamp32 ((x.get (oA w)).toInt + (x.get (oB w)).toInt) else x.get (oA w) + x.get (oB w))))) ∧
    (∀ (c : Fin 8) (slot : Fin 4) (w : W32) (x : Thrumas), x = s.thr c.val → s.issues c.val slot.val 0x02 w →
      Leads (.subOp c slot w) s (fun t => s.pipes t c.val slot.val x (toD x w 1 (if w.getLsbD 0 then clamp32 ((x.get (oA w)).toInt - (x.get (oB w)).toInt) else x.get (oA w) - x.get (oB w))))) ∧
    (∀ (c : Fin 8) (slot : Fin 4) (w : W32) (x : Thrumas), x = s.thr c.val → s.issues c.val slot.val 0x03 w →
      Leads (.andOp c slot w) s (fun t => s.pipes t c.val slot.val x (toD x w 1 (x.get (oA w) &&& x.get (oB w))))) ∧
    (∀ (c : Fin 8) (slot : Fin 4) (w : W32) (x : Thrumas), x = s.thr c.val → s.issues c.val slot.val 0x04 w →
      Leads (.orOp c slot w) s (fun t => s.pipes t c.val slot.val x (toD x w 1 (x.get (oA w) ||| x.get (oB w))))) ∧
    (∀ (c : Fin 8) (slot : Fin 4) (w : W32) (x : Thrumas), x = s.thr c.val → s.issues c.val slot.val 0x05 w →
      Leads (.xorOp c slot w) s (fun t => s.pipes t c.val slot.val x (toD x w 1 (x.get (oA w) ^^^ x.get (oB w))))) ∧
    (∀ (c : Fin 8) (slot : Fin 4) (w : W32) (x : Thrumas), x = s.thr c.val → s.issues c.val slot.val 0x06 w →
      Leads (.shl c slot w) s (fun t => s.pipes t c.val slot.val x (toD x w 1 ((x.get (oA w)) <<< ((x.get (oB w)).toNat % 32))))) ∧
    (∀ (c : Fin 8) (slot : Fin 4) (w : W32) (x : Thrumas), x = s.thr c.val → s.issues c.val slot.val 0x07 w →
      Leads (.shr c slot w) s (fun t => s.pipes t c.val slot.val x (toD x w 1 ((x.get (oA w)) >>> ((x.get (oB w)).toNat % 32))))) ∧
    (∀ (c : Fin 8) (slot : Fin 4) (w : W32) (x : Thrumas), x = s.thr c.val → s.issues c.val slot.val 0x08 w →
      Leads (.sra c slot w) s (fun t => s.pipes t c.val slot.val x (toD x w 1 ((x.get (oA w)).sshiftRight ((x.get (oB w)).toNat % 32))))) ∧
    (∀ (c : Fin 8) (slot : Fin 4) (w : W32) (x : Thrumas), x = s.thr c.val → s.issues c.val slot.val 0x09 w →
      Leads (.minOp c slot w) s (fun t => s.pipes t c.val slot.val x (toD x w 1 (BitVec.ofInt 32 (min (x.get (oA w)).toInt (x.get (oB w)).toInt))))) ∧
    (∀ (c : Fin 8) (slot : Fin 4) (w : W32) (x : Thrumas), x = s.thr c.val → s.issues c.val slot.val 0x0A w →
      Leads (.maxOp c slot w) s (fun t => s.pipes t c.val slot.val x (toD x w 1 (BitVec.ofInt 32 (max (x.get (oA w)).toInt (x.get (oB w)).toInt))))) ∧
    (∀ (c : Fin 8) (slot : Fin 4) (w : W32) (x : Thrumas), x = s.thr c.val → s.issues c.val slot.val 0x0B w →
      Leads (.addi c slot w) s (fun t => s.pipes t c.val slot.val x (toD x w 1 (x.get (oA w) + (w.setWidth 10).signExtend 32)))) ∧
    (∀ (c : Fin 8) (slot : Fin 4) (w : W32) (x : Thrumas), x = s.thr c.val → s.issues c.val slot.val 0x0C w →
      Leads (.shli c slot w) s (fun t => s.pipes t c.val slot.val x (toD x w 1 ((x.get (oA w)) <<< (w.toNat % 32))))) ∧
    (∀ (c : Fin 8) (slot : Fin 4) (w : W32) (x : Thrumas), x = s.thr c.val → s.issues c.val slot.val 0x0D w →
      Leads (.shri c slot w) s (fun t => s.pipes t c.val slot.val x (toD x w 1 ((x.get (oA w)) >>> (w.toNat % 32))))) ∧
    (∀ (c : Fin 8) (slot : Fin 4) (w : W32) (x : Thrumas), x = s.thr c.val → s.issues c.val slot.val 0x0E w →
      Leads (.srai c slot w) s (fun t => s.pipes t c.val slot.val x (toD x w 1 ((x.get (oA w)).sshiftRight (w.toNat % 32))))) ∧
    (∀ (c : Fin 8) (slot : Fin 4) (w : W32) (x : Thrumas), x = s.thr c.val → s.issues c.val slot.val 0x0F w →
      Leads (.movi c slot w) s (fun t => s.pipes t c.val slot.val x (toD x w 1 ((w.setWidth 16).signExtend 32)))) ∧
    (∀ (c : Fin 8) (slot : Fin 4) (w : W32) (x : Thrumas), x = s.thr c.val → s.issues c.val slot.val 0x10 w →
      Leads (.movhi c slot w) s (fun t => s.pipes t c.val slot.val x (toD x w 1 (w.setWidth 16 ++ (x.get (oD w)).setWidth 16)))) ∧
    (∀ (c : Fin 8) (slot : Fin 4) (w : W32) (x : Thrumas), x = s.thr c.val → s.issues c.val slot.val 0x11 w →
      Leads (.cmp c slot w) s (fun t => s.pipes t c.val slot.val x (guarded x w [(1,
      .pred (bitsOf w.toNat 18 16) (condOf (bitsOf w.toNat 21 19) (x.get (oA w)) (x.get (oB w))))]))) ∧
    (∀ (c : Fin 8) (slot : Fin 4) (w : W32) (x : Thrumas), x = s.thr c.val → s.issues c.val slot.val 0x12 w →
      Leads (.cmpi c slot w) s (fun t => s.pipes t c.val slot.val x (guarded x w [(1,
      .pred (bitsOf w.toNat 18 16) (condOf (bitsOf w.toNat 21 19) (x.get (oA w)) ((w.setWidth 10).signExtend 32)))]))) ∧
    (∀ (c : Fin 8) (slot : Fin 4) (w : W32) (x : Thrumas), x = s.thr c.val → s.issues c.val slot.val 0x13 w →
      Leads (.sel c slot w) s (fun t => s.pipes t c.val slot.val x (toD x w 1 (if x.getP (w.toNat % 8) then x.get (oA w) else x.get (oB w))))) ∧
    (∀ (c : Fin 8) (slot : Fin 4) (w : W32) (i : Instr × Nat), i ∈ [(.nop c slot w, 0x00), (.addOp c slot w, 0x01),
      (.subOp c slot w, 0x02), (.andOp c slot w, 0x03), (.orOp c slot w, 0x04), (.xorOp c slot w, 0x05), (.shl c slot w, 0x06),
      (.shr c slot w, 0x07), (.sra c slot w, 0x08), (.minOp c slot w, 0x09), (.maxOp c slot w, 0x0A), (.addi c slot w, 0x0B),
      (.shli c slot w, 0x0C), (.shri c slot w, 0x0D), (.srai c slot w, 0x0E), (.movi c slot w, 0x0F), (.movhi c slot w, 0x10),
      (.cmp c slot w, 0x11), (.cmpi c slot w, 0x12), (.sel c slot w, 0x13)] → s.issues c.val slot.val i.2 w = false →
      exec i.1 s = .next s)

/-- The address is the low 18 bits of a plus size times imm10, its bits below the size zero. A load delivers the zero- or
sign-extended value at latency 4; a store writes the low bytes of d at the end of its cycle, and those alone. LDR sets the
reservation; STC stores b only while it is held, clears it and reports; LDWP and STWP use a itself and step it by 4 times
imm10. Data comparators may record the access only while debug is enabled. Model choices it rests on: log entries 71, 77.
(10_thrumas.md R233, R236, R238, R250, 17_debug.md R396) -/
def Obligations.CoreLoadsAndStores : Prop :=
  ∀ s : State, s.Inv →
    (∀ (c : Fin 8) (slot : Fin 4) (w : W32) (x : Thrumas), x = s.thr c.val → s.issues c.val slot.val 0x14 w →
      Leads (.ldw c slot w) s (fun t => (s.bit (aDBG_CORE_CTRL c.val) fDBG_CORE_CTRL_EN = false →
      (t.thr c.val).watch = x.watch) ∧
      s.pipes t c.val slot.val ({ x with watch := (t.thr c.val).watch }) (toD x w 4 (BitVec.ofNat 32 (s.dmRead c.val ((x.get (oA w) + ((w.setWidth 10).signExtend 32) * 4#32).toNat % 262144 / 4 * 4) 4))))) ∧
    (∀ (c : Fin 8) (slot : Fin 4) (w : W32) (x : Thrumas), x = s.thr c.val → s.issues c.val slot.val 0x15 w →
      Leads (.ldh c slot w) s (fun t => (s.bit (aDBG_CORE_CTRL c.val) fDBG_CORE_CTRL_EN = false →
      (t.thr c.val).watch = x.watch) ∧
      s.pipes t c.val slot.val ({ x with watch := (t.thr c.val).watch }) (toD x w 4 ((BitVec.ofNat 16 (s.dmRead c.val ((x.get (oA w) + ((w.setWidth 10).signExtend 32) * 2#32).toNat % 262144 / 2 * 2) 2)).signExtend 32)))) ∧
    (∀ (c : Fin 8) (slot : Fin 4) (w : W32) (x : Thrumas), x = s.thr c.val → s.issues c.val slot.val 0x16 w →
      Leads (.ldhu c slot w) s (fun t => (s.bit (aDBG_CORE_CTRL c.val) fDBG_CORE_CTRL_EN = false →
      (t.thr c.val).watch = x.watch) ∧
      s.pipes t c.val slot.val ({ x with watch := (t.thr c.val).watch }) (toD x w 4 ((BitVec.ofNat 16 (s.dmRead c.val ((x.get (oA w) + ((w.setWidth 10).signExtend 32) * 2#32).toNat % 262144 / 2 * 2) 2)).setWidth 32)))) ∧
    (∀ (c : Fin 8) (slot : Fin 4) (w : W32) (x : Thrumas), x = s.thr c.val → s.issues c.val slot.val 0x17 w →
      Leads (.ldb c slot w) s (fun t => (s.bit (aDBG_CORE_CTRL c.val) fDBG_CORE_CTRL_EN = false →
      (t.thr c.val).watch = x.watch) ∧
      s.pipes t c.val slot.val ({ x with watch := (t.thr c.val).watch }) (toD x w 4 ((BitVec.ofNat 8 (s.dmRead c.val ((x.get (oA w) + ((w.setWidth 10).signExtend 32) * 1#32).toNat % 262144 / 1 * 1) 1)).signExtend 32)))) ∧
    (∀ (c : Fin 8) (slot : Fin 4) (w : W32) (x : Thrumas), x = s.thr c.val → s.issues c.val slot.val 0x18 w →
      Leads (.stw c slot w) s (fun t => (s.bit (aDBG_CORE_CTRL c.val) fDBG_CORE_CTRL_EN = false →
      (t.thr c.val).watch = x.watch) ∧ s.pipes t c.val slot.val ({ x with watch := (t.thr c.val).watch }) (guarded x w [(1,
      .store ((x.get (oA w) + ((w.setWidth 10).signExtend 32) * 4#32).toNat % 262144 / 4 * 4) (natLe 4 (x.get (oD w)).toNat))]))) ∧
    (∀ (c : Fin 8) (slot : Fin 4) (w : W32) (x : Thrumas), x = s.thr c.val → s.issues c.val slot.val 0x19 w →
      Leads (.sth c slot w) s (fun t => (s.bit (aDBG_CORE_CTRL c.val) fDBG_CORE_CTRL_EN = false →
      (t.thr c.val).watch = x.watch) ∧ s.pipes t c.val slot.val ({ x with watch := (t.thr c.val).watch }) (guarded x w [(1,
      .store ((x.get (oA w) + ((w.setWidth 10).signExtend 32) * 2#32).toNat % 262144 / 2 * 2) (natLe 2 (x.get (oD w)).toNat))]))) ∧
    (∀ (c : Fin 8) (slot : Fin 4) (w : W32) (x : Thrumas), x = s.thr c.val → s.issues c.val slot.val 0x1A w →
      Leads (.stb c slot w) s (fun t => (s.bit (aDBG_CORE_CTRL c.val) fDBG_CORE_CTRL_EN = false →
      (t.thr c.val).watch = x.watch) ∧ s.pipes t c.val slot.val ({ x with watch := (t.thr c.val).watch }) (guarded x w [(1,
      .store ((x.get (oA w) + ((w.setWidth 10).signExtend 32) * 1#32).toNat % 262144 / 1 * 1) (natLe 1 (x.get (oD w)).toNat))]))) ∧
    (∀ (c : Fin 8) (slot : Fin 4) (w : W32) (x : Thrumas), x = s.thr c.val → s.issues c.val slot.val 0x1B w →
      Leads (.ldr c slot w) s (fun t => (s.bit (aDBG_CORE_CTRL c.val) fDBG_CORE_CTRL_EN = false →
      (t.thr c.val).watch = x.watch) ∧
      s.pipes t c.val slot.val ({ { x with resv := if guardOn x w then some ((x.get (oA w) + ((w.setWidth 10).signExtend 32) * 4#32).toNat % 262144 / 4 * 4) else x.resv } with watch := (t.thr c.val).watch }) (toD x w 4 (BitVec.ofNat 32 (s.dmRead c.val ((x.get (oA w) + ((w.setWidth 10).signExtend 32) * 4#32).toNat % 262144 / 4 * 4) 4))))) ∧
    (∀ (c : Fin 8) (slot : Fin 4) (w : W32) (x : Thrumas), x = s.thr c.val → s.issues c.val slot.val 0x1C w →
      Leads (.ldwp c slot w) s (fun t => (s.bit (aDBG_CORE_CTRL c.val) fDBG_CORE_CTRL_EN = false →
      (t.thr c.val).watch = x.watch) ∧ s.pipes t c.val slot.val ({ x with watch := (t.thr c.val).watch }) (guarded x w [(4,
      .reg (physOf x (oD w)) (BitVec.ofNat 32 (s.dmRead c.val ((x.get (oA w)).toNat % 262144 / 4 * 4) 4))), (1,
      .reg (physOf x (oA w)) (x.get (oA w) + ((w.setWidth 10).signExtend 32) * 4#32))]))) ∧
    (∀ (c : Fin 8) (slot : Fin 4) (w : W32) (x : Thrumas), x = s.thr c.val → s.issues c.val slot.val 0x1D w →
      Leads (.stwp c slot w) s (fun t => (s.bit (aDBG_CORE_CTRL c.val) fDBG_CORE_CTRL_EN = false →
      (t.thr c.val).watch = x.watch) ∧ s.pipes t c.val slot.val ({ x with watch := (t.thr c.val).watch }) (guarded x w [(1,
      .store ((x.get (oA w)).toNat % 262144 / 4 * 4) (natLe 4 (x.get (oD w)).toNat)), (1,
      .reg (physOf x (oA w)) (x.get (oA w) + ((w.setWidth 10).signExtend 32) * 4#32))]))) ∧
    (∀ (c : Fin 8) (slot : Fin 4) (w : W32) (x : Thrumas), x = s.thr c.val → s.issues c.val slot.val 0x1E w →
      Leads (.stc c slot w) s (fun t => (s.bit (aDBG_CORE_CTRL c.val) fDBG_CORE_CTRL_EN = false →
      (t.thr c.val).watch = x.watch) ∧
      s.pipes t c.val slot.val ({ { x with resv := if guardOn x w then none else x.resv } with watch := (t.thr c.val).watch }) (guarded x w (if x.resv.isSome then [(4,
      .reg (physOf x (oD w)) 0#32), (1,
      .store ((x.get (oA w)).toNat % 262144 / 4 * 4) (natLe 4 (x.get (oB w)).toNat))] else [(4,
      .reg (physOf x (oD w)) 1#32)])))) ∧
    (∀ (c : Fin 8) (slot : Fin 4) (w : W32) (i : Instr × Nat), i ∈ [(.ldw c slot w, 0x14), (.ldh c slot w, 0x15), (.ldhu c slot w,
      0x16), (.ldb c slot w, 0x17), (.stw c slot w, 0x18), (.sth c slot w, 0x19), (.stb c slot w, 0x1A), (.ldr c slot w, 0x1B),
      (.ldwp c slot w, 0x1C), (.stwp c slot w, 0x1D), (.stc c slot w, 0x1E)] → s.issues c.val slot.val i.2 w = false →
      exec i.1 s = .next s)

/-- MAC4 and MUL4 step four accumulators with 16-bit elements, MAC2 and MUL2 two with 32-bit ones, at issue: the exact sum of
the product (negated for SUB) and, for the MAC forms, the old value, clamped where SAT is 1; OV of each that left 48 bits
lands two cycles later. ACCRD rounds, shifts and saturates; ACCWR loads shifted or only the low word; ACCCLR clears the mask.
No other accumulator changes. Model choices it rests on: log entry 73. (10_thrumas.md R236, R240 to R242) -/
def Obligations.CoreMultiplyAccumulate : Prop :=
  ∀ s : State, s.Inv →
    (∀ (c : Fin 8) (slot : Fin 4) (w : W32) (x : Thrumas), x = s.thr c.val → s.issues c.val slot.val 0x20 w →
      Leads (.mac4 c slot w) s (fun t => (∀ i, i < 4 →
      (t.thr c.val).accOf ((4 * bitsOf w.toNat 21 21) + i) = (if guardOn x w then macWord w (macSum x w true 16 i ((4 * bitsOf w.toNat 21 21) + i)) else x.accOf ((4 * bitsOf w.toNat 21 21) + i))) ∧
      (∀ j, (j < (4 * bitsOf w.toNat 21 21) ∨ (4 * bitsOf w.toNat 21 21) + 4 ≤ j) → (t.thr c.val).accOf j = x.accOf j) ∧
      s.pipes t c.val slot.val ({ x with acc := (t.thr c.val).acc }) (guarded x w (if ovBits (4 * bitsOf w.toNat 21 21) ((List.range 4).map (fun i => macSum x w true 16 i ((4 * bitsOf w.toNat 21 21) + i))) = 0#9 then [] else [(3,
      .accflag (ovBits (4 * bitsOf w.toNat 21 21) ((List.range 4).map (fun i => macSum x w true 16 i ((4 * bitsOf w.toNat 21 21) + i)))))])))) ∧
    (∀ (c : Fin 8) (slot : Fin 4) (w : W32) (x : Thrumas), x = s.thr c.val → s.issues c.val slot.val 0x21 w →
      Leads (.mul4 c slot w) s (fun t => (∀ i, i < 4 →
      (t.thr c.val).accOf ((4 * bitsOf w.toNat 21 21) + i) = (if guardOn x w then macWord w (macSum x w false 16 i ((4 * bitsOf w.toNat 21 21) + i)) else x.accOf ((4 * bitsOf w.toNat 21 21) + i))) ∧
      (∀ j, (j < (4 * bitsOf w.toNat 21 21) ∨ (4 * bitsOf w.toNat 21 21) + 4 ≤ j) → (t.thr c.val).accOf j = x.accOf j) ∧
      s.pipes t c.val slot.val ({ x with acc := (t.thr c.val).acc }) (guarded x w (if ovBits (4 * bitsOf w.toNat 21 21) ((List.range 4).map (fun i => macSum x w false 16 i ((4 * bitsOf w.toNat 21 21) + i))) = 0#9 then [] else [(3,
      .accflag (ovBits (4 * bitsOf w.toNat 21 21) ((List.range 4).map (fun i => macSum x w false 16 i ((4 * bitsOf w.toNat 21 21) + i)))))])))) ∧
    (∀ (c : Fin 8) (slot : Fin 4) (w : W32) (x : Thrumas), x = s.thr c.val → s.issues c.val slot.val 0x22 w →
      Leads (.mac2 c slot w) s (fun t => (∀ i, i < 2 →
      (t.thr c.val).accOf ((2 * bitsOf w.toNat 21 20) + i) = (if guardOn x w then macWord w (macSum x w true 32 i ((2 * bitsOf w.toNat 21 20) + i)) else x.accOf ((2 * bitsOf w.toNat 21 20) + i))) ∧
      (∀ j, (j < (2 * bitsOf w.toNat 21 20) ∨ (2 * bitsOf w.toNat 21 20) + 2 ≤ j) → (t.thr c.val).accOf j = x.accOf j) ∧
      s.pipes t c.val slot.val ({ x with acc := (t.thr c.val).acc }) (guarded x w (if ovBits (2 * bitsOf w.toNat 21 20) ((List.range 2).map (fun i => macSum x w true 32 i ((2 * bitsOf w.toNat 21 20) + i))) = 0#9 then [] else [(3,
      .accflag (ovBits (2 * bitsOf w.toNat 21 20) ((List.range 2).map (fun i => macSum x w true 32 i ((2 * bitsOf w.toNat 21 20) + i)))))])))) ∧
    (∀ (c : Fin 8) (slot : Fin 4) (w : W32) (x : Thrumas), x = s.thr c.val → s.issues c.val slot.val 0x23 w →
      Leads (.mul2 c slot w) s (fun t => (∀ i, i < 2 →
      (t.thr c.val).accOf ((2 * bitsOf w.toNat 21 20) + i) = (if guardOn x w then macWord w (macSum x w false 32 i ((2 * bitsOf w.toNat 21 20) + i)) else x.accOf ((2 * bitsOf w.toNat 21 20) + i))) ∧
      (∀ j, (j < (2 * bitsOf w.toNat 21 20) ∨ (2 * bitsOf w.toNat 21 20) + 2 ≤ j) → (t.thr c.val).accOf j = x.accOf j) ∧
      s.pipes t c.val slot.val ({ x with acc := (t.thr c.val).acc }) (guarded x w (if ovBits (2 * bitsOf w.toNat 21 20) ((List.range 2).map (fun i => macSum x w false 32 i ((2 * bitsOf w.toNat 21 20) + i))) = 0#9 then [] else [(3,
      .accflag (ovBits (2 * bitsOf w.toNat 21 20) ((List.range 2).map (fun i => macSum x w false 32 i ((2 * bitsOf w.toNat 21 20) + i)))))])))) ∧
    (∀ (c : Fin 8) (slot : Fin 4) (w : W32) (x : Thrumas), x = s.thr c.val → s.issues c.val slot.val 0x24 w →
      Leads (.accrd c slot w) s (fun t => s.pipes t c.val slot.val x (guarded x w ([(3,
      .reg (physOf x (oD w)) (accRead (x.accOf (bitsOf w.toNat 15 13)) (bitsOf w.toNat 12 8) (w.getLsbD 7) (w.getLsbD 6) (w.getLsbD 5)).1)] ++ (if (accRead (x.accOf (bitsOf w.toNat 15 13)) (bitsOf w.toNat 12 8) (w.getLsbD 7) (w.getLsbD 6) (w.getLsbD 5)).2 then [(3,
      .accflag 0x100#9)] else []))))) ∧
    (∀ (c : Fin 8) (slot : Fin 4) (w : W32) (x : Thrumas), x = s.thr c.val → s.issues c.val slot.val 0x25 w →
      Leads (.accwr c slot w) s (fun t => (guardOn x w →
      (t.thr c.val).accOf (bitsOf w.toNat 15 13) = (if w.getLsbD 4 then (x.accOf (bitsOf w.toNat 15 13)).extractLsb' 32 16 ++ x.get (oD w) else ((x.get (oD w)).signExtend 48) <<< bitsOf w.toNat 12 8)) ∧
      (guardOn x w = false → (t.thr c.val).acc = x.acc) ∧ (∀ j, j ≠ (bitsOf w.toNat 15 13) →
      (t.thr c.val).accOf j = x.accOf j) ∧ s.pipes t c.val slot.val ({ x with acc := (t.thr c.val).acc }) [])) ∧
    (∀ (c : Fin 8) (slot : Fin 4) (w : W32) (x : Thrumas), x = s.thr c.val → s.issues c.val slot.val 0x26 w →
      Leads (.accclr c slot w) s (fun t => (∀ j, j < 8 → (t.thr c.val).accOf j = (if guardOn x w ∧
      w.toNat.testBit (8 + j) then 0#48 else x.accOf j)) ∧ s.pipes t c.val slot.val ({ x with acc := (t.thr c.val).acc }) [])) ∧
    (∀ (c : Fin 8) (slot : Fin 4) (w : W32) (x : Thrumas), x = s.thr c.val → s.issues c.val slot.val 0x27 w →
      Leads (.muls c slot w) s (fun t => s.pipes t c.val slot.val x (toD x w 3 (x.get (oA w) * ((x.get (oB w)).setWidth 16).signExtend 32)))) ∧
    (∀ (c : Fin 8) (slot : Fin 4) (w : W32) (i : Instr × Nat), i ∈ [(.mac4 c slot w, 0x20), (.mul4 c slot w, 0x21),
      (.mac2 c slot w, 0x22), (.mul2 c slot w, 0x23), (.accrd c slot w, 0x24), (.accwr c slot w, 0x25), (.accclr c slot w,
      0x26), (.muls c slot w, 0x27)] → s.issues c.val slot.val i.2 w = false → exec i.1 s = .next s)

/-- BR and CALL take the bundle address plus the offset modulo 16,384, BRI the register, RETI EPC; each with three delay
slots. CALL links v31. REP sets the repeat; ROT rotates; MTS writes and MFS reads a special register. WAIT holds the core in
state waiting; the bundle issues when its condition holds. SEV raises the core's event 5. BKPT asks for a halt while debug is
enabled. After the last slot the PC moves on, to the target after the delay slots, or back to the start of a repeat body.
Model choices it rests on: log entries 74, 75. (10_thrumas.md R234, R236, R239, R243, R244, R249, R255, R256, 17_debug.md
R388) -/
def Obligations.CoreControlOperations : Prop :=
  ∀ s : State, s.Inv →
    (∀ (c : Fin 8) (slot : Fin 4) (w : W32) (x : Thrumas), x = s.thr c.val → s.issues c.val slot.val 0x30 w →
      Leads (.brOp c slot w) s (fun t => s.pipes t c.val slot.val ({ x with branch := if guardOn x w then some { target := (x.pc + w.setWidth 14).toNat, left := 4, reti := false } else x.branch }) [])) ∧
    (∀ (c : Fin 8) (slot : Fin 4) (w : W32) (x : Thrumas), x = s.thr c.val → s.issues c.val slot.val 0x31 w →
      Leads (.bri c slot w) s (fun t => s.pipes t c.val slot.val ({ x with branch := if guardOn x w then some { target := ((x.get (oA w)).setWidth 14).toNat, left := 4, reti := false } else x.branch }) [])) ∧
    (∀ (c : Fin 8) (slot : Fin 4) (w : W32) (x : Thrumas), x = s.thr c.val → s.issues c.val slot.val 0x32 w →
      Leads (.callOp c slot w) s (fun t => s.pipes t c.val slot.val ({ x with branch := if guardOn x w then some { target := (x.pc + w.setWidth 14).toNat, left := 4, reti := false } else x.branch }) (guarded x w [(4,
      .reg 31 ((x.pc + 4#14).setWidth 32))]))) ∧
    (∀ (c : Fin 8) (slot : Fin 4) (w : W32) (x : Thrumas), x = s.thr c.val → s.issues c.val slot.val 0x35 w →
      Leads (.reti c slot w) s (fun t => s.pipes t c.val slot.val ({ x with branch := if guardOn x w then some { target := x.epc.toNat, left := 4, reti := true } else x.branch }) [])) ∧
    (∀ (c : Fin 8) (slot : Fin 4) (w : W32) (x : Thrumas), x = s.thr c.val → s.issues c.val slot.val 0x33 w →
      Leads (.repOp c slot w) s (fun t => s.pipes t c.val slot.val ({ x with rep := if guardOn x w then some { start := (x.pc + 1#14).toNat, len := oB w + 1, rot := w.getLsbD 3, ni := w.getLsbD 2, left := ((x.get (oA w)).setWidth 16).toNat } else x.rep }) [])) ∧
    (∀ (c : Fin 8) (slot : Fin 4) (w : W32) (x : Thrumas), x = s.thr c.val → s.issues c.val slot.val 0x34 w →
      Leads (.rotOp c slot w) s (fun t => s.pipes t c.val slot.val x (guarded x w [(1, .rot)]))) ∧
    (∀ (c : Fin 8) (slot : Fin 4) (w : W32) (x : Thrumas), x = s.thr c.val → s.issues c.val slot.val 0x36 w →
      Leads (.mts c slot w) s (fun t => s.pipes t c.val slot.val x (guarded x w [(1, .special (oB w) (x.get (oA w)))]))) ∧
    (∀ (c : Fin 8) (slot : Fin 4) (w : W32) (x : Thrumas), x = s.thr c.val → s.issues c.val slot.val 0x37 w →
      Leads (.mfs c slot w) s (fun t => s.pipes t c.val slot.val ({ x with tickHi := if guardOn x w ∧ oB w = 5 then BitVec.ofNat 32 (s.tickN / 4294967296) else x.tickHi }) (toD x w 1 (s.specialRead c.val (oB w))))) ∧
    (∀ (c : Fin 8) (slot : Fin 4) (w : W32) (x : Thrumas), x = s.thr c.val → s.issues c.val slot.val 0x3B w → guardOn x w →
      x.issued = 0#4 → (oFn w = 0 ∨ oA w ≠ 63) → Leads (.waitOp c slot w) s (fun t => t.coreState c.val = 2 ∧
      t.thr c.val = { x with wait := some (oFn w, if oFn w = 0 then ((x.get (oA w)).setWidth 16).toNat else (x.get (oA w + 1) ++ x.get (oA w)).toNat) } ∧
      s.keepsElse t [.cores] (among [aCORE_STATUS c.val]))) ∧
    (∀ (c : Fin 8) (slot : Fin 4) (w : W32) (x : Thrumas), x = s.thr c.val → s.issues c.val slot.val 0x3B w → guardOn x w →
      x.issued = 0#4 → oFn w ≠ 0 → oA w = 63 → Leads (.waitOp c slot w) s (fun t => t.coreState c.val = 2 ∧
      t.free = s.free + 1 ∧ ((t.thr c.val).wait.map (fun e => (e.1, e.2 % 4294967296))) = some (oFn w, (x.get 63).toNat) ∧
      s.keepsElse t [.cores, .free] (among [aCORE_STATUS c.val]))) ∧
    (∀ (c : Fin 8) (slot : Fin 4) (w : W32) (x : Thrumas), x = s.thr c.val → s.issues c.val slot.val 0x3B w → guardOn x w →
      x.issued ≠ 0#4 → exec (.waitOp c slot w) s = .next (s)) ∧
    (∀ (c : Fin 8) (slot : Fin 4) (w : W32) (x : Thrumas), x = s.thr c.val → s.issues c.val slot.val 0x3B w →
      guardOn x w = false → Leads (.waitOp c slot w) s (fun t => s.pipes t c.val slot.val x [])) ∧
    (∀ (c : Fin 8) (x : Thrumas) (v : Nat), x = s.thr c.val → s.coreLive c.val → s.coreState c.val = 2 → x.wait = some (2, v) →
      v ≤ s.tickN →
      Leads (.waitConditionMet c) s (fun t => (s.setCoreState c.val 1).pipes t c.val 3 { x with wait := none } [])) ∧
    (∀ (c : Fin 8) (x : Thrumas) (v : Nat), x = s.thr c.val → s.coreLive c.val → s.coreState c.val = 2 → x.wait = some (0, v) →
      (∀ e ∈ x.xfers, v.testBit e.tag = false) →
      Leads (.waitConditionMet c) s (fun t => (s.setCoreState c.val 1).pipes t c.val 3 { x with wait := none } [])) ∧
    (∀ (c : Fin 8), (s.coreLive c.val = false ∨ s.coreState c.val ≠ 2 ∨ (s.thr c.val).wait = none ∨
      (s.thr c.val).wait.any (fun e => !waitHolds s c.val e.1 e.2)) → exec (.waitConditionMet c) s = .next (s)) ∧
    (∀ (c : Fin 8), (s.thr c.val).wait.any (fun e => e.1 = 1) → exec (.waitConditionMet c) s = .next (s)) ∧
    (∀ (c : Fin 8) (slot : Fin 4) (w : W32) (x : Thrumas), x = s.thr c.val → s.issues c.val slot.val 0x3C w →
      Leads (.sev c slot w) s (fun t => (if guardOn x w then s.raise (64 + 8 * c.val + 5) else s).pipes t c.val slot.val x [])) ∧
    (∀ (c : Fin 8) (slot : Fin 4) (w : W32) (x : Thrumas), x = s.thr c.val → s.issues c.val slot.val 0x3D w → guardOn x w →
      s.bit (aDBG_CORE_CTRL c.val) fDBG_CORE_CTRL_EN → x.haltReason = none →
      Leads (.bkpt c slot w) s (fun t => (s.setBit (aDBG_CORE_STAT c.val) fDBG_CORE_STAT_PENDING true).pipes t c.val slot.val ({ x with haltReason := some 5, haltAt := s.now }) [])) ∧
    (∀ (c : Fin 8) (slot : Fin 4) (w : W32) (x : Thrumas), x = s.thr c.val → s.issues c.val slot.val 0x3D w →
      (s.bit (aDBG_CORE_CTRL c.val) fDBG_CORE_CTRL_EN = false ∨ guardOn x w = false ∨ x.haltReason ≠ none) →
      Leads (.bkpt c slot w) s (fun t => s.pipes t c.val slot.val x [])) ∧
    (∀ (c : Fin 8) (slot : Fin 4) (w : W32) (i : Instr × Nat), i ∈ [(.brOp c slot w, 0x30), (.bri c slot w, 0x31),
      (.callOp c slot w, 0x32), (.repOp c slot w, 0x33), (.rotOp c slot w, 0x34), (.reti c slot w, 0x35), (.mts c slot w, 0x36),
      (.mfs c slot w, 0x37), (.waitOp c slot w, 0x3B), (.sev c slot w, 0x3C), (.bkpt c slot w, 0x3D)] →
      s.issues c.val slot.val i.2 w = false → exec i.1 s = .next s) ∧
    (∀ (c : Fin 8) (slot : Fin 4) (w : W32) (x : Thrumas), x = s.thr c.val → s.issues c.val slot.val 0x00 w →
      x.issued ||| BitVec.ofNat 4 (2 ^ slot.val) = 0xF#4 → x.stopAsked = false → x.rep = none → x.branch = none →
      Leads (.nop c slot w) s (fun t => (t.thr c.val).pc = x.pc + 1#14 ∧ (t.thr c.val).branch = none ∧
      (t.thr c.val).rep = none)) ∧
    (∀ (c : Fin 8) (slot : Fin 4) (w : W32) (x : Thrumas) (b : Branch), x = s.thr c.val → s.issues c.val slot.val 0x00 w →
      x.issued ||| BitVec.ofNat 4 (2 ^ slot.val) = 0xF#4 → x.stopAsked = false → x.rep = none → x.branch = some b →
      b.reti = false → Leads (.nop c slot w) s (fun t => (1 < b.left → (t.thr c.val).pc = x.pc + 1#14 ∧
      (t.thr c.val).branch = some { b with left := b.left - 1 }) ∧ (b.left ≤ 1 → (t.thr c.val).pc = BitVec.ofNat 14 b.target ∧
      (t.thr c.val).branch = none))) ∧
    (∀ (c : Fin 8) (slot : Fin 4) (w : W32) (x : Thrumas) (r : Repeat), x = s.thr c.val → s.issues c.val slot.val 0x00 w →
      x.issued ||| BitVec.ofNat 4 (2 ^ slot.val) = 0xF#4 → x.stopAsked = false → x.branch = none → x.rep = some r → r.left ≠ 0 →
      x.pc.toNat + 1 = r.start + r.len → r.start ≤ x.pc.toNat → x.flight = [] → Leads (.nop c slot w) s (fun t => (1 < r.left →
      (t.thr c.val).pc = BitVec.ofNat 14 r.start ∧ (t.thr c.val).rep = some { r with left := r.left - 1 }) ∧ (r.left = 1 →
      (t.thr c.val).pc = x.pc + 1#14 ∧ (t.thr c.val).rep = none) ∧
      (t.thr c.val).turn = (if r.rot then (x.turn + 1) % rsizeOf x.rsize else x.turn))) ∧
    (∀ (c : Fin 8) (slot : Fin 4) (w : W32) (x : Thrumas) (r : Repeat), x = s.thr c.val → s.issues c.val slot.val 0x00 w →
      x.issued ||| BitVec.ofNat 4 (2 ^ slot.val) = 0xF#4 → x.stopAsked = false → x.branch = none → x.rep = some r → r.left = 0 →
      x.pc.toNat + 1 = r.start → Leads (.nop c slot w) s (fun t => (t.thr c.val).pc = BitVec.ofNat 14 (r.start + r.len) ∧
      (t.thr c.val).rep = none)) ∧
    (∀ (c : Fin 8) (slot : Fin 4) (w : W32) (x : Thrumas) (r : Repeat), x = s.thr c.val → s.issues c.val slot.val 0x00 w →
      x.issued ||| BitVec.ofNat 4 (2 ^ slot.val) = 0xF#4 → x.stopAsked = false → x.branch = none → x.rep = some r →
      (x.pc.toNat + 1 ≠ r.start ∨ r.left ≠ 0) → (x.pc.toNat + 1 ≠ r.start + r.len ∨ x.pc.toNat < r.start) →
      Leads (.nop c slot w) s (fun t => (t.thr c.val).pc = x.pc + 1#14 ∧ (t.thr c.val).rep = some r)) ∧
    (∀ (c : Fin 8) (slot : Fin 4) (w : W32) (x : Thrumas) (k : Nat) (v : W32), x = s.thr c.val → s.issues c.val slot.val 0x00 w →
      x.issued ||| BitVec.ofNat 4 (2 ^ slot.val) = 0xF#4 → x.stopAsked = false →
      x.flight = [{ land := x.cycle + 1, issue := x.cycle, slot := 3, what := .special k v }] → x.branch = none → x.rep = none →
      Leads (.nop c slot w) s (fun t => (k = 0 → (t.thr c.val).pred = v.setWidth 8 ||| 1#8) ∧ (k = 1 →
      (t.thr c.val).rsize = bitsOf v.toNat 9 8 ∧ (t.thr c.val).turn = bitsOf v.toNat 4 0 % rsizeOf (bitsOf v.toNat 9 8)) ∧
      (k = 2 → (t.thr c.val).ctl = v &&& 0xFFFC000F#32) ∧ (k = 4 → (t.thr c.val).estat = v &&& 0xFFFFFE1F#32) ∧ (k = 10 →
      (t.thr c.val).xcfg = v &&& 0x13#32) ∧ (k = 12 → (t.thr c.val).rxbase = v.setWidth 6) ∧ (k = 18 → c = 0 →
      (t.thr c.val).raddr = v &&& 0xFFFFFFFC#32) ∧ (k = 19 → c = 0 → (t.thr c.val).rdata = v) ∧ (k = 23 →
      (t.thr c.val).erep = v.setWidth 16))) ∧
    (∀ (c : Fin 8) (slot : Fin 4) (w : W32) (x : Thrumas) (k : Nat) (v : W32), x = s.thr c.val → s.issues c.val slot.val 0x00 w →
      x.issued ||| BitVec.ofNat 4 (2 ^ slot.val) = 0xF#4 → x.stopAsked = false →
      x.flight = [{ land := x.cycle + 1, issue := x.cycle, slot := 3, what := .special k v }] → x.branch = none → x.rep = none →
      Leads (.nop c slot w) s (fun t => (k = 3 → (t.thr c.val).epc = v.setWidth 14) ∧ (k = 7 →
      (t.thr c.val).accflag = x.accflag &&& ~~~(v.setWidth 9)) ∧ (k = 11 →
      t.reg (aCORE_FLAG c.val) = s.reg (aCORE_FLAG c.val) &&& ~~~(v &&& 0x3F#32)) ∧ (k = 14 →
      (t.thr c.val).rxrp = v.setWidth 7) ∧ (k = 15 → v = 0xA5C3#32 → t.reg (aWD_CNT c.val) = s.reg (aWD_LOAD c.val)) ∧ (k = 20 →
      c = 0 → s.ringCore.busy = false → t.ringCore.busy ∧ t.ringCore.req.die = bitsOf v.toNat 6 4 ∧
      t.ringCore.req.write = v.getLsbD 0 ∧ t.ringCore.req.data = x.rdata) ∧ (k = 24 → (t.thr c.val).ctxid = v.setWidth 16)))

/-- SEND.AT queues the 32 bytes at a for the first tick of its slot 16 or more ticks on, or is discarded with SND_NORUN,
SND_OVF or SND_DUP. On that tick it is injected where an entry applies, else discarded with SND_NOENT. XRD and XWR wait while
their tag is outstanding, clear its XSTAT and send a request, or complete at once with XERR and X_ERR when malformed. The
response stores read data and sets XSTAT. A flit at the hub NI fills the next receive-ring entry; a full ring discards it with
RX_OVF. Model choices it rests on: log entry 78. (10_thrumas.md R246 to R248, R237, 03_weave_contract.md R56,
04_weave_ports_tables.md R89) -/
def Obligations.CoreSendsAndTransfers : Prop :=
  ∀ s : State, s.Inv →
    (∀ (c : Fin 8) (slot : Fin 4) (w : W32) (x : Thrumas), x = s.thr c.val → s.issues c.val slot.val 0x38 w → guardOn x w →
      (s.bit aPAT_STATUS fPAT_STATUS_RUN = false ∨ s.period ≤ ((x.get (oB w)).setWidth 16).toNat) →
      Leads (.sendAt c slot w) s (fun t => (s.coreFlag c.val fCORE_FLAG_SND_NORUN).pipes t c.val slot.val x [])) ∧
    (∀ (c : Fin 8) (slot : Fin 4) (w : W32) (x : Thrumas) (T : Nat), x = s.thr c.val → s.issues c.val slot.val 0x38 w →
      guardOn x w → s.bit aPAT_STATUS fPAT_STATUS_RUN → ((x.get (oB w)).setWidth 16).toNat < s.period →
      T % s.period = ((x.get (oB w)).setWidth 16).toNat → s.tickN + 16 ≤ T → T < s.tickN + 16 + s.period → x.sends.length < 16 →
      (∀ e ∈ x.sends, e.1 ≠ T) →
      Leads (.sendAt c slot w) s (fun t => s.pipes t c.val slot.val ({ x with sends := x.sends ++ [(T, BitVec.ofNat 256 (s.dmRead c.val ((x.get (oA w)).toNat % 262144 / 32 * 32) 32))] }) [])) ∧
    (∀ (c : Fin 8) (slot : Fin 4) (w : W32) (x : Thrumas) (T : Nat), x = s.thr c.val → s.issues c.val slot.val 0x38 w →
      guardOn x w → s.bit aPAT_STATUS fPAT_STATUS_RUN → ((x.get (oB w)).setWidth 16).toNat < s.period →
      T % s.period = ((x.get (oB w)).setWidth 16).toNat → s.tickN + 16 ≤ T → T < s.tickN + 16 + s.period → 16 ≤ x.sends.length →
      Leads (.sendAt c slot w) s (fun t => (s.coreFlag c.val fCORE_FLAG_SND_OVF).pipes t c.val slot.val x [])) ∧
    (∀ (c : Fin 8) (slot : Fin 4) (w : W32) (x : Thrumas) (T : Nat), x = s.thr c.val → s.issues c.val slot.val 0x38 w →
      guardOn x w → s.bit aPAT_STATUS fPAT_STATUS_RUN → ((x.get (oB w)).setWidth 16).toNat < s.period →
      T % s.period = ((x.get (oB w)).setWidth 16).toNat → s.tickN + 16 ≤ T → T < s.tickN + 16 + s.period → x.sends.length < 16 →
      (∃ e ∈ x.sends, e.1 = T) →
      Leads (.sendAt c slot w) s (fun t => (s.coreFlag c.val fCORE_FLAG_SND_DUP).pipes t c.val slot.val x [])) ∧
    (∀ (c : Fin 8) (slot : Fin 4) (w : W32) (x : Thrumas), x = s.thr c.val → s.issues c.val slot.val 0x38 w →
      guardOn x w = false → Leads (.sendAt c slot w) s (fun t => s.pipes t c.val slot.val x [])) ∧
    (∀ (c : Fin 8), (s.niLive 6 (coreNi c.val) = false ∨ (s.ni 6 (coreNi c.val)).injectedAt = s.now + 1 ∨
      (s.thr c.val).sends.any (fun e => e.1 == s.tickN) = false) → exec (.sendAtInject c) s = .next (s)) ∧
    (∀ (c : Fin 8), s.niLive 6 (coreNi c.val) → (s.ni 6 (coreNi c.val)).injectedAt ≠ s.now + 1 →
      (s.thr c.val).sends.any (fun e => e.1 == s.tickN) → (s.bit aPAT_STATUS fPAT_STATUS_RUN = false ∨ s.period = 0 ∨
      s.injections 6 (coreNi c.val) s.actBank s.period (tget (fun _ => 2 ^ 64) s.pat.fromTick s.actBank) s.tickN = []) →
      Leads (.sendAtInject c) s (fun t => (t.thr c.val).sends = (s.thr c.val).sends.filter (fun e => e.1 != s.tickN) ∧
      (t.ni 6 (coreNi c.val)).injectedAt = s.now + 1 ∧ t.bit (aCORE_FLAG c.val) fCORE_FLAG_SND_NOENT ∧ t.pat = s.pat ∧
      s.keepsElse t [.ev, .hw, .nis, .cores] (among [aCORE_FLAG c.val]))) ∧
    (∀ (c : Fin 8) (f : BitVec 256) (e : Inj), s.niLive 6 (coreNi c.val) → (s.ni 6 (coreNi c.val)).injectedAt ≠ s.now + 1 →
      (s.thr c.val).sends.any (fun e => e.1 == s.tickN) → s.bit aPAT_STATUS fPAT_STATUS_RUN → s.period ≠ 0 →
      lowestFlow (s.injections 6 (coreNi c.val) s.actBank s.period (tget (fun _ => 2 ^ 64) s.pat.fromTick s.actBank) s.tickN) = some e →
      (s.thr c.val).sends.find? (fun e => e.1 == s.tickN) = some (s.tickN, f) → s.niOn 6 (coreNi c.val) →
      s.niHeld 6 (coreNi c.val) = false →
      Leads (.sendAtInject c) s (fun t => (t.thr c.val).sends = (s.thr c.val).sends.filter (fun e => e.1 != s.tickN) ∧
      (t.ni 6 (coreNi c.val)).injectedAt = s.now + 1 ∧
      t.pat.flight.take (s.pat.flight.length + 1) = s.pat.flight ++ [{ flit := offerFlit (.data f) e s.actBank, loc := .router 6 (coreNi c.val) 4 none, due := s.now + 4 }] ∧
      s.keepsElse t [.pat, .be, .nis, .cores, .ev, .hw] (among [aSF_STATUS]))) ∧
    (∀ (c : Fin 8) (e : Inj), s.niLive 6 (coreNi c.val) → (s.ni 6 (coreNi c.val)).injectedAt ≠ s.now + 1 →
      (s.thr c.val).sends.any (fun e => e.1 == s.tickN) → s.bit aPAT_STATUS fPAT_STATUS_RUN → s.period ≠ 0 →
      lowestFlow (s.injections 6 (coreNi c.val) s.actBank s.period (tget (fun _ => 2 ^ 64) s.pat.fromTick s.actBank) s.tickN) = some e →
      s.niOn 6 (coreNi c.val) = false → Leads (.sendAtInject c) s (fun t => (t.thr c.val).sends = (s.thr c.val).sends ∧
      (t.ni 6 (coreNi c.val)).injectedAt = s.now + 1 ∧
      t.pat.flight.take (s.pat.flight.length + 1) = s.pat.flight ++ [{ flit := offerFlit (.mark 8) e s.actBank, loc := .router 6 (coreNi c.val) 4 none, due := s.now + 4 }] ∧
      s.keepsElse t [.pat, .be, .nis, .cores, .ev, .hw] (among [aSF_STATUS]))) ∧
    (∀ (c : Fin 8) (slot : Fin 4) (w : W32) (i : Instr × Nat), i ∈ [(.sendAt c slot w, 0x38), (.xrd c slot w, 0x39),
      (.xwr c slot w, 0x3A)] → s.issues c.val slot.val i.2 w = false → exec i.1 s = .next s) ∧
    (∀ (c : Fin 8) (slot : Fin 4) (w : W32) (x : Thrumas), x = s.thr c.val → guardOn x w → (∃ e ∈ x.xfers, e.tag = (oD w % 16)) →
      exec (.xrd c slot w) s = .next (s)) ∧
    (∀ (c : Fin 8) (slot : Fin 4) (w : W32) (x : Thrumas), x = s.thr c.val → s.issues c.val slot.val 0x39 w →
      guardOn x w = false → Leads (.xrd c slot w) s (fun t => s.pipes t c.val slot.val x [])) ∧
    (∀ (c : Fin 8) (slot : Fin 4) (w : W32) (x : Thrumas), x = s.thr c.val → s.issues c.val slot.val 0x39 w → guardOn x w →
      (∀ e ∈ x.xfers, e.tag ≠ (oD w % 16)) → bitsOf (x.get (oB w)).toNat 31 27 = 0 →
      ((x.get (oA w + 1) ++ x.get (oA w)).toNat) % 256 + (bitsOf (x.get (oB w)).toNat 26 18 + 1) ≤ 256 →
      Leads (.xrd c slot w) s (fun t => (s.setNi 6 (coreNi c.val) { (s.ni 6 (coreNi c.val)) with clientQ := (s.ni 6 (coreNi c.val)).clientQ ++ [{ pkt := { hdr := xferHdr ((x.get (oA w + 1) ++ x.get (oA w)).toNat) (bitsOf (x.get (oB w)).toNat 26 18 + 1) (oD w % 16) (bitsOf x.xcfg.toNat 1 0) false (w.getLsbD 0), data := [] }, master := 1 + c.val, origin := .core c.val (oD w % 16) }] }).pipes t c.val slot.val ({ x with xstat := put16 x.xstat (oD w % 16) false, xerr := put16 x.xerr (oD w % 16) false, xfers := x.xfers ++ [{ tag := (oD w % 16), write := false, dm := (x.get (oB w)).toNat % 262144, count := (bitsOf (x.get (oB w)).toNat 26 18 + 1) }] }) [])) ∧
    (∀ (c : Fin 8) (slot : Fin 4) (w : W32) (x : Thrumas), x = s.thr c.val → s.issues c.val slot.val 0x39 w → guardOn x w →
      (∀ e ∈ x.xfers, e.tag ≠ (oD w % 16)) → (bitsOf (x.get (oB w)).toNat 31 27 ≠ 0 ∨
      256 < ((x.get (oA w + 1) ++ x.get (oA w)).toNat) % 256 + (bitsOf (x.get (oB w)).toNat 26 18 + 1)) →
      Leads (.xrd c slot w) s (fun t => (s.coreFlag c.val fCORE_FLAG_X_ERR).pipes t c.val slot.val ({ x with xstat := put16 x.xstat (oD w % 16) true, xerr := put16 x.xerr (oD w % 16) true }) [])) ∧
    (∀ (c : Fin 8) (slot : Fin 4) (w : W32) (x : Thrumas), x = s.thr c.val → guardOn x w → (∃ e ∈ x.xfers, e.tag = (oD w % 16)) →
      exec (.xwr c slot w) s = .next (s)) ∧
    (∀ (c : Fin 8) (slot : Fin 4) (w : W32) (x : Thrumas), x = s.thr c.val → s.issues c.val slot.val 0x3A w →
      guardOn x w = false → Leads (.xwr c slot w) s (fun t => s.pipes t c.val slot.val x [])) ∧
    (∀ (c : Fin 8) (slot : Fin 4) (w : W32) (x : Thrumas), x = s.thr c.val → s.issues c.val slot.val 0x3A w → guardOn x w →
      (∀ e ∈ x.xfers, e.tag ≠ (oD w % 16)) → bitsOf (x.get (oB w)).toNat 31 27 = 0 →
      ((x.get (oA w + 1) ++ x.get (oA w)).toNat) % 256 + (bitsOf (x.get (oB w)).toNat 26 18 + 1) ≤ 256 →
      Leads (.xwr c slot w) s (fun t => (s.setNi 6 (coreNi c.val) { (s.ni 6 (coreNi c.val)) with clientQ := (s.ni 6 (coreNi c.val)).clientQ ++ [{ pkt := { hdr := xferHdr ((x.get (oA w + 1) ++ x.get (oA w)).toNat) (bitsOf (x.get (oB w)).toNat 26 18 + 1) (oD w % 16) (bitsOf x.xcfg.toNat 1 0) true (w.getLsbD 0), data := lineFlits (((x.get (oA w + 1) ++ x.get (oA w)).toNat) % 256) ((List.range (bitsOf (x.get (oB w)).toNat 26 18 + 1)).map (fun i => s.byte (dmBase c.val + (((x.get (oB w)).toNat % 262144) + i) % 262144))) }, master := 1 + c.val, origin := .core c.val (oD w % 16) }] }).pipes t c.val slot.val ({ x with xstat := put16 x.xstat (oD w % 16) false, xerr := put16 x.xerr (oD w % 16) false, xfers := x.xfers ++ [{ tag := (oD w % 16), write := true, dm := (x.get (oB w)).toNat % 262144, count := (bitsOf (x.get (oB w)).toNat 26 18 + 1) }] }) [])) ∧
    (∀ (c : Fin 8) (slot : Fin 4) (w : W32) (x : Thrumas), x = s.thr c.val → s.issues c.val slot.val 0x3A w → guardOn x w →
      (∀ e ∈ x.xfers, e.tag ≠ (oD w % 16)) → (bitsOf (x.get (oB w)).toNat 31 27 ≠ 0 ∨
      256 < ((x.get (oA w + 1) ++ x.get (oA w)).toNat) % 256 + (bitsOf (x.get (oB w)).toNat 26 18 + 1)) →
      Leads (.xwr c slot w) s (fun t => (s.coreFlag c.val fCORE_FLAG_X_ERR).pipes t c.val slot.val ({ x with xstat := put16 x.xstat (oD w % 16) true, xerr := put16 x.xerr (oD w % 16) true }) [])) ∧
    (∀ (c : Fin 8) (g : Fin 16) (r : MemRsp) (e : Xfer), s.rsps.find? (fun r => r.origin == .core c.val g.val) = some r →
      (s.thr c.val).xfers.find? (fun e => e.tag == g.val) = some e → e.write = false → r.status = 0 → e.count ≤ r.data.length →
      e.count ≤ 262144 → Leads (.xferComplete c g) s (fun t => (∀ i, i < e.count →
      t.byte (dmBase c.val + (e.dm + i) % 262144) = r.data.getD i 0#8) ∧ (∀ a,
      (List.range e.count).all (fun i => a != dmBase c.val + (e.dm + i) % 262144) → t.byte a = s.byte a) ∧
      (t.thr c.val).xstat.getLsbD g.val ∧ (t.thr c.val).xerr.getLsbD g.val = false ∧ t.rsps = s.rsps.erase r ∧
      s.keepsElse t [.rsps, .cores, .mem] (fun _ => false))) ∧
    (∀ (c : Fin 8) (g : Fin 16) (r : MemRsp) (e : Xfer), s.rsps.find? (fun r => r.origin == .core c.val g.val) = some r →
      (s.thr c.val).xfers.find? (fun e => e.tag == g.val) = some e → r.status ≠ 0 →
      Leads (.xferComplete c g) s (fun t => (t.thr c.val).xstat.getLsbD g.val ∧ (t.thr c.val).xerr.getLsbD g.val ∧
      t.bit (aCORE_FLAG c.val) fCORE_FLAG_X_ERR ∧ t.rsps = s.rsps.erase r ∧
      (t.thr c.val).xfers = dropFirst (fun e => e.tag == g.val) (s.thr c.val).xfers ∧ s.keepsElse t [.ev, .hw, .rsps,
      .cores] (among [aCORE_FLAG c.val]))) ∧
    (∀ (c : Fin 8) (g : Fin 16) (r : MemRsp) (e : Xfer), s.rsps.find? (fun r => r.origin == .core c.val g.val) = some r →
      (s.thr c.val).xfers.find? (fun e => e.tag == g.val) = some e → e.write → r.status = 0 →
      Leads (.xferComplete c g) s (fun t => t.thr c.val = { s.thr c.val with xstat := put16 (s.thr c.val).xstat g.val true, xerr := put16 (s.thr c.val).xerr g.val false, xfers := dropFirst (fun e => e.tag == g.val) (s.thr c.val).xfers } ∧
      t.rsps = s.rsps.erase r ∧ s.keepsElse t [.rsps, .cores] (fun _ => false))) ∧
    (∀ (c : Fin 8) (g : Fin 16), s.rsps.find? (fun r => r.origin == .core c.val g.val) = none →
      exec (.xferComplete c g) s = .next (s)) ∧
    (∀ (c : Fin 8) (g : Fin 16) (r : MemRsp), s.rsps.find? (fun r => r.origin == .core c.val g.val) = some r →
      (s.thr c.val).xfers.find? (fun e => e.tag == g.val) = none →
      exec (.xferComplete c g) s = .next ({ s with rsps := s.rsps.erase r })) ∧
    (∀ (c : Fin 8) (e : Egr) (l : List Egr) (x : Thrumas), s.hubRuns → (s.ni 6 (coreNi c.val)).egress = e :: l → x = s.thr c.val →
      (x.rxwp - x.rxrp).toNat ≠ 64 → Leads (.rxRingWrite c) s (fun t => (∀ i, i < 64 →
      t.byte (dmBase c.val + ((4096 * x.rxbase.toNat + 64 * (x.rxwp.toNat % 64)) + i) % 262144) = (ringEntry e).getD i 0#8) ∧
      (∀ a,
      (List.range 64).all (fun i => a != dmBase c.val + ((4096 * x.rxbase.toNat + 64 * (x.rxwp.toNat % 64)) + i) % 262144) →
      t.byte a = s.byte a) ∧ (t.thr c.val).rxwp = x.rxwp + 1#7 ∧ (t.ni 6 (coreNi c.val)).egress = l ∧ (x.xcfg.getLsbD 4 →
      t.showsEvent (64 + 8 * c.val + 3)) ∧ (x.xcfg.getLsbD 4 = false → t.ev = s.ev) ∧ s.keepsElse t [.ev, .hw, .nis, .cores,
      .mem] (fun _ => false))) ∧
    (∀ (c : Fin 8) (e : Egr) (l : List Egr) (x : Thrumas), s.hubRuns → (s.ni 6 (coreNi c.val)).egress = e :: l → x = s.thr c.val →
      (x.rxwp - x.rxrp).toNat = 64 → Leads (.rxRingWrite c) s (fun t => (t.ni 6 (coreNi c.val)).egress = l ∧ t.thr c.val = x ∧
      t.bit (aCORE_FLAG c.val) fCORE_FLAG_RX_OVF ∧ s.keepsElse t [.ev, .hw, .nis] (among [aCORE_FLAG c.val]))) ∧
    (∀ (c : Fin 8), (s.hubRuns = false ∨ (s.ni 6 (coreNi c.val)).egress = []) → exec (.rxRingWrite c) s = .next (s))

/-- An illegal bundle faults the core with its cause. An interrupt saves PC, TURN and repeat, clears IE and the reservation
and goes to VBR + 4 times its level; RETI's return restores them. The watchdog sets EXPIRED, reloads, and faults or resets the
core as ACT asks. Reset zeroes the core and starts at ENTRY. RUN starts and stops it at a boundary. IM_DATA_3 stores a bundle,
DM_DATA a word. The boot ROM branches to ENTRY on GO. Model choices it rests on: log entries 72, 74, 79. (10_thrumas.md R244,
R251 to R254, R256, 17_debug.md R402) -/
def Obligations.CoreFaultsInterruptsAndReset : Prop :=
  ∀ s : State, s.Inv →
    (∀ (c : Fin 8) (x : Thrumas) (k : Nat), x = s.thr c.val → s.coreLive c.val → s.coreState c.val = 1 → x.issued = 0#4 →
      s.boundaryHeld c.val = false → s.bundleFault c.val = some k →
      Leads (.illegalOperation c) s (fun t => t.coreState c.val = 4 ∧ t.fld (aCORE_STATUS c.val) fCORE_STATUS_FCAUSE = k ∧
      (t.thr c.val).pc = x.pc ∧ (t.thr c.val).flight = [] ∧ t.showsEvent (64 + 8 * c.val + 1) ∧ s.keepsElse t [.cores,
      .ringCore, .mem, .ev, .hw] (among [aCORE_STATUS c.val, aDBG_CORE_STAT c.val, aCORE_FLAG c.val, aWD_CNT c.val]))) ∧
    (∀ (c : Fin 8), (s.coreLive c.val = false ∨ s.coreState c.val ≠ 1 ∨ (s.thr c.val).issued ≠ 0#4 ∨ s.boundaryHeld c.val ∨
      s.bundleFault c.val = none) → exec (.illegalOperation c) s = .next (s)) ∧
    (∀ (c : Fin 8), (s.coreLive c.val = false ∨ (s.coreState c.val ≠ 1 ∧ s.coreState c.val ≠ 2) ∨ s.presented c.val = none ∨
      (s.presented c.val).any (fun p => !s.mayInterrupt c.val p.1)) → exec (.interruptTake c) s = .next (s)) ∧
    (∀ (c : Fin 8) (x : Thrumas) (l e : Nat), x = s.thr c.val → s.presented c.val = some (l, e) → s.coreLive c.val →
      (s.coreState c.val = 1 ∨ s.coreState c.val = 2) → s.mayInterrupt c.val l →
      Leads (.interruptTake c) s (fun t => (t.thr c.val).epc = x.pc ∧ (t.thr c.val).ctl.getLsbD 0 = false ∧
      (t.thr c.val).pc.toNat = ((t.thr c.val).ctl.toNat / 2 ^ 18 + 4 * l) % 16384 ∧ (t.thr c.val).rep = none ∧
      (t.thr c.val).resv = none ∧ (t.thr c.val).wait = none ∧ (t.thr c.val).ievt = BitVec.ofNat 11 e ∧ (x.flight = [] →
      (t.thr c.val).estat = estatOf x ∧ (t.thr c.val).v = x.v ∧ (t.thr c.val).pred = x.pred) ∧ t.coreState c.val = 1 ∧
      t.evPending c.val e = false ∧ s.keepsElse t [.cores, .ringCore, .mem, .ev] (among [aCORE_STATUS c.val, aCORE_FLAG c.val,
      aWD_CNT c.val]))) ∧
    (∀ (c : Fin 8) (slot : Fin 4) (w : W32) (x : Thrumas) (b : Branch), x = s.thr c.val → s.issues c.val slot.val 0x00 w →
      x.issued ||| BitVec.ofNat 4 (2 ^ slot.val) = 0xF#4 → x.stopAsked = false → x.flight = [] → x.branch = some b → b.reti →
      b.left ≤ 1 → Leads (.nop c slot w) s (fun t => (t.thr c.val).pc = BitVec.ofNat 14 b.target ∧
      (t.thr c.val).ctl = x.ctl ||| 1#32 ∧ (t.thr c.val).turn = bitsOf x.estat.toNat 4 0 % rsizeOf x.rsize ∧
      (t.thr c.val).rep = (if x.estat.getLsbD 31 then some { start := bitsOf x.estat.toNat 22 9, len := bitsOf x.estat.toNat 28 23 + 1, rot := x.estat.getLsbD 30, ni := x.estat.getLsbD 29, left := x.erep.toNat } else none) ∧
      (t.thr c.val).branch = none)) ∧
    (∀ (c : Fin 8) (x : Thrumas), x = s.thr c.val → s.coreLive c.val → s.bit (aWD_CTRL c.val) fWD_CTRL_EN →
      (s.reg (aWD_CNT c.val) = 0#32 ∨ x.badKey) → (s.fld (aWD_CTRL c.val) fWD_CTRL_ACT = 0 ∨
      s.fld (aWD_CTRL c.val) fWD_CTRL_ACT = 3 ∨ (s.fld (aWD_CTRL c.val) fWD_CTRL_ACT = 1 ∧ s.coreState c.val = 4)) →
      Leads (.watchdogExpiry c) s (fun t => t.bit (aWD_CTRL c.val) fWD_CTRL_EXPIRED ∧ t.showsEvent (64 + 8 * c.val) ∧
      t.reg (aWD_CNT c.val) = s.reg (aWD_LOAD c.val) ∧ s.keepsElse t [.cores, .ev, .hw] (among [aWD_CTRL c.val,
      aWD_CNT c.val]) ∧ t.thr c.val = { x with badKey := false })) ∧
    (∀ (c : Fin 8) (x : Thrumas), x = s.thr c.val → s.coreLive c.val → s.bit (aWD_CTRL c.val) fWD_CTRL_EN →
      (s.reg (aWD_CNT c.val) = 0#32 ∨ x.badKey) → s.fld (aWD_CTRL c.val) fWD_CTRL_ACT = 1 → s.coreState c.val ≠ 4 →
      Leads (.watchdogExpiry c) s (fun t => t.bit (aWD_CTRL c.val) fWD_CTRL_EXPIRED ∧ t.showsEvent (64 + 8 * c.val) ∧
      t.coreState c.val = 4 ∧ t.fld (aCORE_STATUS c.val) fCORE_STATUS_FCAUSE = 5 ∧ s.keepsElse t [.cores, .ringCore, .mem, .ev,
      .hw] (fun a => among [aWD_CTRL c.val] a || among [aCORE_STATUS c.val, aDBG_CORE_STAT c.val, aCORE_FLAG c.val,
      aWD_CNT c.val] a))) ∧
    (∀ (c : Fin 8) (x : Thrumas), x = s.thr c.val → s.coreLive c.val → s.bit (aWD_CTRL c.val) fWD_CTRL_EN →
      (s.reg (aWD_CNT c.val) = 0#32 ∨ x.badKey) → s.fld (aWD_CTRL c.val) fWD_CTRL_ACT = 2 →
      Leads (.watchdogExpiry c) s (fun t => t.bit (aWD_CTRL c.val) fWD_CTRL_EXPIRED ∧ t.showsEvent (64 + 8 * c.val) ∧
      t.reg (aWD_CNT c.val) = s.reg (aWD_LOAD c.val) ∧
      (t.thr c.val).pc = BitVec.ofNat 14 (s.fld (aCORE_CTRL c.val) fCORE_CTRL_ENTRY) ∧
      t.coreState c.val = (if s.bit (aCORE_CTRL c.val) fCORE_CTRL_RUN then 1 else 0) ∧ s.keepsElse t [.cores, .ev, .hw, .nis,
      .rsps] (among ([aCORE_STATUS c.val, aCORE_FLAG c.val, aDBG_CORE_STAT c.val, aBP_CFG c.val, aDBG_LOST, aWD_CTRL c.val,
      aWD_CNT c.val] ++ (List.range 4).map (aWP_CTL c.val))) ∧ (∀ k, k ≠ c.val → t.thr k = s.thr k))) ∧
    (∀ (c : Fin 8), (s.coreLive c.val = false ∨ s.bit (aWD_CTRL c.val) fWD_CTRL_EN = false ∨ (s.reg (aWD_CNT c.val) ≠ 0#32 ∧
      (s.thr c.val).badKey = false)) → exec (.watchdogExpiry c) s = .next (s)) ∧
    (∀ (m : Rm) (c : Fin 8), s.ringReady m (aCORE_CTRL c.val) →
      Writes (.coreReset m c) m (aCORE_CTRL c.val) (putF (s.reg (aCORE_CTRL c.val)) fCORE_CTRL_RST 1) .ok s (fun u => (u.thr c.val).pc = BitVec.ofNat 14 (s.fld (aCORE_CTRL c.val) fCORE_CTRL_ENTRY) ∧
      (u.thr c.val).ctl = BitVec.ofNat 32 (s.fld (aCORE_CTRL c.val) fCORE_CTRL_ENTRY * 2 ^ 18) ∧ (∀ p,
      (u.thr c.val).phys p = 0#32) ∧ (u.thr c.val).xfers = [] ∧ (u.thr c.val).flight = [] ∧
      u.coreState c.val = (if s.bit (aCORE_CTRL c.val) fCORE_CTRL_RUN then 1 else 0) ∧ u.reg (aCORE_FLAG c.val) = 0#32 ∧
      u.fld (aCORE_STATUS c.val) fCORE_STATUS_FCAUSE = 0 ∧ u.bit aDBG_LOST ⟨8 + c.val, 1⟩ ∧
      (u.thr c.val).haltReason = (if s.bit (aDBG_CORE_CTRL c.val) fDBG_CORE_CTRL_CATCH then some 7 else none) ∧
      s.keepsElse u [.cores, .ev, .hw, .nis, .rsps] (among ([aCORE_STATUS c.val, aCORE_FLAG c.val, aDBG_CORE_STAT c.val,
      aBP_CFG c.val, aDBG_LOST, aCORE_CTRL c.val] ++ (List.range 4).map (aWP_CTL c.val))) ∧ (∀ k, k ≠ c.val →
      u.thr k = s.thr k))) ∧
    (∀ (m : Rm) (c : Fin 8), s.ringReady m (aCORE_CTRL c.val) → s.coreState c.val = 0 →
      Writes (.coreRunWrite m c true) m (aCORE_CTRL c.val) (putF (putF (s.reg (aCORE_CTRL c.val)) fCORE_CTRL_RST 0) fCORE_CTRL_RUN 1) .ok s (fun u => u.coreState c.val = 1 ∧
      u.bit (aCORE_CTRL c.val) fCORE_CTRL_RUN ∧
      u.fld (aCORE_CTRL c.val) fCORE_CTRL_ENTRY = s.fld (aCORE_CTRL c.val) fCORE_CTRL_ENTRY ∧
      (u.thr c.val).pc = (s.thr c.val).pc ∧ s.keepsElse u [.cores] (among [aCORE_CTRL c.val, aCORE_STATUS c.val]))) ∧
    (∀ (m : Rm) (c : Fin 8), s.ringReady m (aCORE_CTRL c.val) → s.coreState c.val ≠ 0 →
      Writes (.coreRunWrite m c true) m (aCORE_CTRL c.val) (putF (putF (s.reg (aCORE_CTRL c.val)) fCORE_CTRL_RST 0) fCORE_CTRL_RUN 1) .ok s (fun u => u.coreState c.val = s.coreState c.val ∧
      u.thr c.val = { s.thr c.val with stopAsked := false, wasStopped := false } ∧ u.bit (aCORE_CTRL c.val) fCORE_CTRL_RUN ∧
      s.keepsElse u [.cores] (among [aCORE_CTRL c.val]))) ∧
    (∀ (m : Rm) (c : Fin 8), s.ringReady m (aCORE_CTRL c.val) → (s.coreState c.val = 0 ∨ 3 ≤ s.coreState c.val) →
      Writes (.coreRunWrite m c false) m (aCORE_CTRL c.val) (putF (putF (s.reg (aCORE_CTRL c.val)) fCORE_CTRL_RST 0) fCORE_CTRL_RUN 0) .ok s (fun u => u.coreState c.val = s.coreState c.val ∧
      u.thr c.val = { s.thr c.val with stopAsked := ((s.thr c.val).stopAsked || s.coreState c.val == 3) } ∧
      u.bit (aCORE_CTRL c.val) fCORE_CTRL_RUN = false ∧ s.keepsElse u [.cores] (among [aCORE_CTRL c.val]))) ∧
    (∀ (m : Rm) (c : Fin 8), s.ringReady m (aCORE_CTRL c.val) → (s.coreState c.val = 1 ∨ s.coreState c.val = 2) →
      boundaryFree (s.thr c.val) →
      Writes (.coreRunWrite m c false) m (aCORE_CTRL c.val) (putF (putF (s.reg (aCORE_CTRL c.val)) fCORE_CTRL_RST 0) fCORE_CTRL_RUN 0) .ok s (fun u => u.coreState c.val = 0 ∧
      u.bit (aCORE_CTRL c.val) fCORE_CTRL_RUN = false ∧ (u.thr c.val).pc = (s.thr c.val).pc ∧ (u.thr c.val).flight = [] ∧
      s.keepsElse u [.cores, .ringCore, .mem] (among [aCORE_CTRL c.val, aCORE_STATUS c.val, aCORE_FLAG c.val, aWD_CNT c.val]))) ∧
    (∀ (m : Rm) (c : Fin 8), s.ringReady m (aCORE_CTRL c.val) → (s.coreState c.val = 1 ∨ s.coreState c.val = 2) →
      boundaryFree (s.thr c.val) = false →
      Writes (.coreRunWrite m c false) m (aCORE_CTRL c.val) (putF (putF (s.reg (aCORE_CTRL c.val)) fCORE_CTRL_RST 0) fCORE_CTRL_RUN 0) .ok s (fun u => u.coreState c.val = s.coreState c.val ∧
      (u.thr c.val).stopAsked ∧ s.keepsElse u [.cores] (among [aCORE_CTRL c.val]))) ∧
    (∀ (m : Rm) (c : Fin 8) (v : W32) (i : Nat), s.ringReady m (aIM_DATA_3 c.val) → s.fld (aIM_ADDR c.val) fIM_ADDR_INDEX = i →
      i < 8192 →
      Writes (.imDataWrite m c v) m (aIM_DATA_3 c.val) v .ok s (fun u => u.imSlot c.val i 0 = s.reg (aIM_DATA_0 c.val) ∧
      u.imSlot c.val i 1 = s.reg (aIM_DATA_1 c.val) ∧ u.imSlot c.val i 2 = s.reg (aIM_DATA_2 c.val) ∧ u.imSlot c.val i 3 = v ∧
      (∀ a, (a < imBase c.val + 16 * i ∨ imBase c.val + 16 * i + 16 ≤ a) → u.byte a = s.byte a) ∧
      (s.bit (aIM_ADDR c.val) fIM_ADDR_AINC → u.fld (aIM_ADDR c.val) fIM_ADDR_INDEX = i + 1) ∧
      (s.bit (aIM_ADDR c.val) fIM_ADDR_AINC = false → u.fld (aIM_ADDR c.val) fIM_ADDR_INDEX = i) ∧
      s.keepsElse u [.mem] (among [aIM_ADDR c.val]))) ∧
    (∀ (m : Rm) (c : Fin 8) (v : W32) (i : Nat), s.ringReady m (aIM_DATA_3 c.val) → s.fld (aIM_ADDR c.val) fIM_ADDR_INDEX = i →
      inRom c.val i → Writes (.imDataWrite m c v) m (aIM_DATA_3 c.val) v .refused s (fun u => u = s)) ∧
    (∀ (m : Rm) (c : Fin 8) (v : W32) (i : Nat), s.ringReady m (aIM_DATA_3 c.val) → s.fld (aIM_ADDR c.val) fIM_ADDR_INDEX = i →
      8192 ≤ i → inRom c.val i = false →
      Writes (.imDataWrite m c v) m (aIM_DATA_3 c.val) v .ok s (fun u => s.keepsElse u [] (among [aIM_ADDR c.val]))) ∧
    (∀ (m : Rm) (c : Fin 8) (v : W32) (i : Nat), s.ringReady m (aDM_DATA c.val) → s.fld (aDM_ADDR c.val) fDM_ADDR_WORD = i →
      Writes (.dmDataAccess m c (some v)) m (aDM_DATA c.val) v .ok s (fun u => u.dmRead c.val (4 * i) 4 = v.toNat ∧ (∀ a,
      (a < dmBase c.val + 4 * i ∨ dmBase c.val + 4 * i + 4 ≤ a) → u.byte a = s.byte a) ∧
      u.fld (aDM_ADDR c.val) fDM_ADDR_WORD = (if s.bit (aDM_ADDR c.val) fDM_ADDR_AINC then (i + 1) % 65536 else i) ∧
      s.keepsElse u [.mem, .cores] (among [aDM_ADDR c.val]))) ∧
    (∀ (m : Rm) (c : Fin 8) (i : Nat), s.ringReady m (aDM_DATA c.val) → s.fld (aDM_ADDR c.val) fDM_ADDR_WORD = i →
      Leads (.dmDataAccess m c none) s (fun t => (t.master m).answered ∧ (t.master m).ansStatus = .ok ∧
      (t.master m).ansData = BitVec.ofNat 32 (s.dmRead c.val (4 * i) 4) ∧
      t.fld (aDM_ADDR c.val) fDM_ADDR_WORD = (if s.bit (aDM_ADDR c.val) fDM_ADDR_AINC then (i + 1) % 65536 else i) ∧
      s.keepsElse t [.ringCore, .ringDebug, .ringConfig] (among [aDM_ADDR c.val]))) ∧
    (s.coreLive 0 → s.coreState 0 = 1 → inRom 0 (s.thr 0).pc.toNat → s.bit aBOOT_MBOX fBOOT_MBOX_GO →
      Leads (.bootGo) s (fun t => (t.thr 0).pc = BitVec.ofNat 14 (s.fld aBOOT_MBOX fBOOT_MBOX_ENTRY) ∧ (t.thr 0).issued = 0#4 ∧
      (∀ k, k ≠ 0 → t.thr k = s.thr k) ∧ s.keepsElse t [.cores, .ringCore, .mem] (among [aCORE_FLAG 0, aWD_CNT 0]))) ∧
    ((s.coreLive 0 = false ∨ s.coreState 0 ≠ 1 ∨ inRom 0 (s.thr 0).pc.toNat = false ∨ s.bit aBOOT_MBOX fBOOT_MBOX_GO = false) →
      exec (.bootGo) s = .next (s))

/-- DBG_RUNCTL is performed for master 0x60 only and refused for others. HALT asks each core of the mask that is not halted,
faulted or asked already; the halt is taken at a free boundary with its reason, PC and event, and a halt group follows with
reason 6. RESUME and STEP release halted cores. A reservation defers a halt at most 256 cycles, then is cleared with FORCED. A
breakpoint or data comparator asks for reason 3 or 4 and reports WHICH. Model choices it rests on: log entry 80. (17_debug.md
R388 to R397, R404, 10_thrumas.md R250) -/
def Obligations.HaltsStepsAndComparators : Prop :=
  ∀ s : State, s.Inv →
    (∀ (k : BitVec 8), s.ringReady .debug aDBG_RUNCTL →
      Writes (.dbgHalt .debug k) .debug aDBG_RUNCTL (k.setWidth 32) .ok s (fun u => (∀ n, n < 8 → k.getLsbD n →
      s.coreState n ≠ 3 → s.coreState n ≠ 4 → (s.thr n).haltReason = none → (u.thr n).haltReason = some 1 ∧
      (u.thr n).haltAt = s.now ∧ u.bit (aDBG_CORE_STAT n) fDBG_CORE_STAT_PENDING) ∧ (∀ n, n < 8 → (k.getLsbD n = false ∨
      s.coreState n = 3 ∨ s.coreState n = 4 ∨ (s.thr n).haltReason ≠ none) → u.thr n = s.thr n) ∧ s.keepsElse u [.cores,
      .hw] (among ((List.range 8).map aDBG_CORE_STAT)))) ∧
    (∀ (k : BitVec 8), s.ringReady .debug aDBG_RUNCTL →
      Writes (.dbgResume .debug k) .debug aDBG_RUNCTL (k.setWidth 32 <<< 8) .ok s (fun u => (∀ n, n < 8 → k.getLsbD n →
      s.coreState n = 3 → u.coreState n = (if (s.thr n).wasStopped then 0 else 1) ∧
      u.bit (aDBG_CORE_STAT n) fDBG_CORE_STAT_HALTED = false ∧ (u.thr n).pc = (s.thr n).pc ∧ (u.thr n).stepping = false) ∧ (∀ n,
      n < 8 → (k.getLsbD n = false ∨ s.coreState n ≠ 3) → u.thr n = s.thr n ∧ u.coreState n = s.coreState n) ∧
      s.keepsElse u [.cores] (among ((List.range 8).flatMap (fun n => [aDBG_CORE_STAT n, aCORE_STATUS n, aWD_CNT n]))))) ∧
    (∀ (k : BitVec 8), s.ringReady .debug aDBG_RUNCTL →
      Writes (.dbgStep .debug k) .debug aDBG_RUNCTL (k.setWidth 32 <<< 16) .ok s (fun u => (∀ n, n < 8 → k.getLsbD n →
      s.coreState n = 3 → u.coreState n = 1 ∧ (u.thr n).stepping ∧ (u.thr n).pc = (s.thr n).pc) ∧ (∀ n, n < 8 →
      (k.getLsbD n = false ∨ s.coreState n ≠ 3) → u.thr n = s.thr n ∧ u.coreState n = s.coreState n) ∧
      s.keepsElse u [.cores] (among ((List.range 8).flatMap (fun n => [aDBG_CORE_STAT n, aCORE_STATUS n, aWD_CNT n]))))) ∧
    (∀ (m : Rm) (k : BitVec 8), s.ringReady m aDBG_RUNCTL → m ≠ .debug →
      Writes (.dbgHalt m k) m aDBG_RUNCTL (k.setWidth 32) .refused s (fun u => u = s)) ∧
    (∀ (m : Rm) (k : BitVec 8), s.ringReady m aDBG_RUNCTL → m ≠ .debug →
      Writes (.dbgResume m k) m aDBG_RUNCTL (k.setWidth 32 <<< 8) .refused s (fun u => u = s)) ∧
    (∀ (m : Rm) (k : BitVec 8), s.ringReady m aDBG_RUNCTL → m ≠ .debug →
      Writes (.dbgStep m k) m aDBG_RUNCTL (k.setWidth 32 <<< 16) .refused s (fun u => u = s)) ∧
    (∀ (c : Fin 8) (x : Thrumas) (r : Nat), x = s.thr c.val → x.haltReason = some r → r < 8 → s.coreLive c.val →
      s.coreState c.val ≤ 2 → boundaryFree x → x.resv = none → Leads (.haltTaken c) s (fun t => t.coreState c.val = 3 ∧
      t.bit (aDBG_CORE_STAT c.val) fDBG_CORE_STAT_HALTED ∧ t.bit (aDBG_CORE_STAT c.val) fDBG_CORE_STAT_PENDING = false ∧
      t.fld (aDBG_CORE_STAT c.val) fDBG_CORE_STAT_REASON = r ∧ t.fld (aDBG_CORE_STAT c.val) fDBG_CORE_STAT_PC = x.pc.toNat ∧
      (t.thr c.val).pc = x.pc ∧ (t.thr c.val).haltReason = none ∧ t.showsEvent (1920 + c.val) ∧ (∀ k, k < 8 → (k ≠ c.val ∧
      r ≠ 6 ∧ (s.fld aDBG_CTRL fDBG_CTRL_GROUP).testBit c.val ∧ (s.fld aDBG_CTRL fDBG_CTRL_GROUP).testBit k ∧
      (s.coreState k = 1 ∨ s.coreState k = 2) ∧ (s.thr k).haltReason = none) → (t.thr k).haltReason = some 6) ∧
      s.keepsElse t [.cores, .ringCore, .mem, .ev, .hw] (among ([aCORE_STATUS c.val, aCORE_FLAG c.val,
      aWD_CNT c.val] ++ (List.range 8).map aDBG_CORE_STAT)))) ∧
    (∀ (c : Fin 8), (s.coreLive c.val = false ∨ (s.thr c.val).haltReason = none ∨ 3 ≤ s.coreState c.val ∨
      boundaryFree (s.thr c.val) = false ∨ (s.thr c.val).resv ≠ none) → exec (.haltTaken c) s = .next (s)) ∧
    (∀ (c : Fin 8), (s.coreLive c.val = false ∨ (s.thr c.val).haltReason = none ∨ (s.thr c.val).resv = none ∨
      s.now < (s.thr c.val).haltAt + 320) → exec (.haltDeferExpiry c) s = .next (s)) ∧
    (∀ (c : Fin 8) (x : Thrumas), x = s.thr c.val → s.coreLive c.val → x.haltReason ≠ none → x.resv ≠ none →
      x.haltAt + 320 ≤ s.now →
      exec (.haltDeferExpiry c) s = .next ((s.setThr c.val { x with resv := none }).setBit (aDBG_CORE_STAT c.val) fDBG_CORE_STAT_FORCED true)) ∧
    (∀ (c : Fin 8) (x : Thrumas) (k : Nat), x = s.thr c.val → s.bpMatch c.val = some k → s.coreLive c.val →
      s.coreState c.val = 1 → x.issued = 0#4 → x.watch = none → x.skipBp = false →
      Leads (.breakpointMatch c) s (fun t => t.thr c.val = { x with skipBp := true, haltReason := x.haltReason.or (some 3), haltAt := if x.haltReason = none then s.now else x.haltAt } ∧
      t.fld (aDBG_CORE_STAT c.val) fDBG_CORE_STAT_WHICH = k ∧ (x.haltReason = none →
      t.bit (aDBG_CORE_STAT c.val) fDBG_CORE_STAT_PENDING) ∧ (boundaryFree x = false →
      t.bit (aDBG_CORE_STAT c.val) fDBG_CORE_STAT_DEFER) ∧ s.keepsElse t [.cores, .hw] (among [aDBG_CORE_STAT c.val]))) ∧
    (∀ (c : Fin 8), (s.bpMatch c.val = none ∨ s.coreLive c.val = false ∨ s.coreState c.val ≠ 1 ∨ (s.thr c.val).issued ≠ 0#4 ∨
      (s.thr c.val).watch ≠ none ∨ (s.thr c.val).skipBp) → exec (.breakpointMatch c) s = .next (s)) ∧
    (∀ (c : Fin 8), ((s.thr c.val).watch = none ∨ s.coreLive c.val = false ∨ (s.thr c.val).issued ≠ 0#4) →
      exec (.dataWatchMatch c) s = .next (s)) ∧
    (∀ (c : Fin 8) (x : Thrumas) (j sl : Nat), x = s.thr c.val → x.watch = some (j, sl) → j < 4 → sl < 2 → s.coreLive c.val →
      x.issued = 0#4 → Leads (.dataWatchMatch c) s (fun t => (x.haltReason = none → s.coreState c.val ≠ 3 →
      s.coreState c.val ≠ 4 → t.thr c.val = { x with watch := none, haltReason := some 4, haltAt := s.now }) ∧
      ((x.haltReason ≠ none ∨ s.coreState c.val = 3 ∨ s.coreState c.val = 4) → t.thr c.val = { x with watch := none }) ∧
      t.fld (aDBG_CORE_STAT c.val) fDBG_CORE_STAT_WHICH = j ∧ t.fld (aDBG_CORE_STAT c.val) fDBG_CORE_STAT_SLOT = sl ∧
      s.keepsElse t [.cores, .hw] (among [aDBG_CORE_STAT c.val])))

/-- DBG_REG_DATA_n reads and writes the item that its address names of a halted core: physical registers 0 to 63 by number,
with register 0 zero, the PC and special registers; it is refused while the core is not halted, and writes of block 0x0400 for
any master but 0x60. The terminal takes one word each way: the device writes DBG_TX and the host consumes it, the host writes
DBG_RX and the device consumes it; a write while a word waits, or by the wrong side, is refused. (17_debug.md R394, R401,
R404) -/
def Obligations.HaltedStateAndTerminal : Prop :=
  ∀ s : State, s.Inv →
    (∀ (c : Fin 8) (v : W32) (i : Nat), s.ringReady .debug (aDBG_REG_DATA c.val) →
      s.fld (aDBG_REG_ADDR c.val) fDBG_REG_ADDR_INDEX = i → s.coreState c.val = 3 → i < 64 →
      Writes (.dbgRegAccess .debug c (some v)) .debug (aDBG_REG_DATA c.val) v .ok s (fun u => (u.thr c.val).phys i = (if i = 0 then 0#32 else v) ∧
      (∀ p, p ≠ i → (u.thr c.val).phys p = (s.thr c.val).phys p) ∧ (u.thr c.val).pc = (s.thr c.val).pc ∧
      u.fld (aDBG_REG_ADDR c.val) fDBG_REG_ADDR_INDEX = (if s.bit (aDBG_REG_ADDR c.val) fDBG_REG_ADDR_AINC then i + 1 else i) ∧
      s.keepsElse u [.cores] (among [aDBG_REG_ADDR c.val]))) ∧
    (∀ (c : Fin 8) (v : W32), s.ringReady .debug (aDBG_REG_DATA c.val) → s.fld (aDBG_REG_ADDR c.val) fDBG_REG_ADDR_INDEX = 0xC0 →
      s.coreState c.val = 3 →
      Writes (.dbgRegAccess .debug c (some v)) .debug (aDBG_REG_DATA c.val) v .ok s (fun u => u.thr c.val = { s.thr c.val with pc := v.setWidth 14 } ∧
      s.keepsElse u [.cores] (among [aDBG_REG_ADDR c.val]))) ∧
    (∀ (c : Fin 8) (v : W32) (i : Nat), s.ringReady .debug (aDBG_REG_DATA c.val) →
      s.fld (aDBG_REG_ADDR c.val) fDBG_REG_ADDR_INDEX = i → s.coreState c.val = 3 → 0x40 ≤ i → i < 0x50 →
      Writes (.dbgRegAccess .debug c (some v)) .debug (aDBG_REG_DATA c.val) v .ok s (fun u => (u.thr c.val).accOf ((i - 64) / 2) = (if i % 2 = 0 then ((s.thr c.val).accOf ((i - 64) / 2)).extractLsb' 32 16 ++ v else v.setWidth 16 ++ ((s.thr c.val).accOf ((i - 64) / 2)).setWidth 32) ∧
      (∀ k, k ≠ (i - 64) / 2 → (u.thr c.val).accOf k = (s.thr c.val).accOf k) ∧
      u.fld (aDBG_REG_ADDR c.val) fDBG_REG_ADDR_INDEX = (if s.bit (aDBG_REG_ADDR c.val) fDBG_REG_ADDR_AINC then i + 1 else i) ∧
      s.keepsElse u [.cores] (among [aDBG_REG_ADDR c.val]))) ∧
    (∀ (c : Fin 8) (v : W32) (i : Nat), s.ringReady .debug (aDBG_REG_DATA c.val) →
      s.fld (aDBG_REG_ADDR c.val) fDBG_REG_ADDR_INDEX = i → s.coreState c.val = 3 → 0x80 ≤ i → i ≤ 0x98 →
      Writes (.dbgRegAccess .debug c (some v)) .debug (aDBG_REG_DATA c.val) v .ok s (fun u => u = (s.landSpecial c.val (i - 0x80) v).dbgAdvance c.val ∧
      (i = 0x80 → (u.thr c.val).pred = v.setWidth 8 ||| 1#8) ∧ (i = 0x83 → (u.thr c.val).epc = v.setWidth 14) ∧ (i = 0x98 →
      (u.thr c.val).ctxid = v.setWidth 16))) ∧
    (∀ (m : Rm) (c : Fin 8) (v : W32), s.ringReady m (aDBG_REG_DATA c.val) → (m ≠ .debug ∨ s.coreState c.val ≠ 3 ∨
      s.dbgItem c.val (s.fld (aDBG_REG_ADDR c.val) fDBG_REG_ADDR_INDEX) = none) →
      Writes (.dbgRegAccess m c (some v)) m (aDBG_REG_DATA c.val) v .refused s (fun u => u = s)) ∧
    (∀ (m : Rm) (c : Fin 8) (i : Nat), s.ringReady m (aDBG_REG_DATA c.val) → s.fld (aDBG_REG_ADDR c.val) fDBG_REG_ADDR_INDEX = i →
      s.coreState c.val = 3 → i < 64 → Leads (.dbgRegAccess m c none) s (fun t => (t.master m).answered ∧
      (t.master m).ansStatus = .ok ∧ (t.master m).ansData = (s.thr c.val).phys i ∧
      t.fld (aDBG_REG_ADDR c.val) fDBG_REG_ADDR_INDEX = (if s.bit (aDBG_REG_ADDR c.val) fDBG_REG_ADDR_AINC then i + 1 else i) ∧
      s.keepsElse t [.ringCore, .ringDebug, .ringConfig] (among [aDBG_REG_ADDR c.val]))) ∧
    (∀ (m : Rm) (c : Fin 8) (i : Nat), s.ringReady m (aDBG_REG_DATA c.val) → s.fld (aDBG_REG_ADDR c.val) fDBG_REG_ADDR_INDEX = i →
      s.coreState c.val = 3 → 0x40 ≤ i → i < 0x50 → Leads (.dbgRegAccess m c none) s (fun t => (t.master m).answered ∧
      (t.master m).ansStatus = .ok ∧
      (t.master m).ansData = (if i % 2 = 0 then ((s.thr c.val).accOf ((i - 64) / 2)).setWidth 32 else (((s.thr c.val).accOf ((i - 64) / 2)).extractLsb' 32 16).signExtend 32) ∧
      t.fld (aDBG_REG_ADDR c.val) fDBG_REG_ADDR_INDEX = (if s.bit (aDBG_REG_ADDR c.val) fDBG_REG_ADDR_AINC then i + 1 else i) ∧
      s.keepsElse t [.ringCore, .ringDebug, .ringConfig] (among [aDBG_REG_ADDR c.val]))) ∧
    (∀ (m : Rm) (c : Fin 8) (i : Nat), s.ringReady m (aDBG_REG_DATA c.val) → s.fld (aDBG_REG_ADDR c.val) fDBG_REG_ADDR_INDEX = i →
      s.coreState c.val = 3 → 0x80 ≤ i → i ≤ 0x98 → i ≠ 0x85 → i ≠ 0x86 →
      Leads (.dbgRegAccess m c none) s (fun t => (t.master m).answered ∧ (t.master m).ansStatus = .ok ∧
      (t.master m).ansData = s.specialRead c.val (i - 0x80) ∧
      t.fld (aDBG_REG_ADDR c.val) fDBG_REG_ADDR_INDEX = (if s.bit (aDBG_REG_ADDR c.val) fDBG_REG_ADDR_AINC then i + 1 else i) ∧
      s.keepsElse t [.ringCore, .ringDebug, .ringConfig] (among [aDBG_REG_ADDR c.val]))) ∧
    (∀ (m : Rm) (c : Fin 8) (i : Nat), s.ringReady m (aDBG_REG_DATA c.val) → s.fld (aDBG_REG_ADDR c.val) fDBG_REG_ADDR_INDEX = i →
      s.coreState c.val = 3 → i = 0x85 → Leads (.dbgRegAccess m c none) s (fun t => (t.master m).answered ∧
      (t.master m).ansStatus = .ok ∧ (t.master m).ansData = BitVec.ofNat 32 s.tickN ∧
      t.fld (aDBG_REG_ADDR c.val) fDBG_REG_ADDR_INDEX = (if s.bit (aDBG_REG_ADDR c.val) fDBG_REG_ADDR_AINC then i + 1 else i) ∧
      s.keepsElse t [.ringCore, .ringDebug, .ringConfig] (among [aDBG_REG_ADDR c.val]))) ∧
    (∀ (m : Rm) (c : Fin 8) (i : Nat), s.ringReady m (aDBG_REG_DATA c.val) → s.fld (aDBG_REG_ADDR c.val) fDBG_REG_ADDR_INDEX = i →
      s.coreState c.val = 3 → i = 0x86 → Leads (.dbgRegAccess m c none) s (fun t => (t.master m).answered ∧
      (t.master m).ansStatus = .ok ∧ (t.master m).ansData = BitVec.ofNat 32 (s.tickN / 4294967296) ∧
      t.fld (aDBG_REG_ADDR c.val) fDBG_REG_ADDR_INDEX = (if s.bit (aDBG_REG_ADDR c.val) fDBG_REG_ADDR_AINC then i + 1 else i) ∧
      s.keepsElse t [.ringCore, .ringDebug, .ringConfig] (among [aDBG_REG_ADDR c.val]))) ∧
    (∀ (m : Rm) (c : Fin 8) (i : Nat), s.ringReady m (aDBG_REG_DATA c.val) → s.fld (aDBG_REG_ADDR c.val) fDBG_REG_ADDR_INDEX = i →
      s.coreState c.val = 3 → i = 0xC0 → Leads (.dbgRegAccess m c none) s (fun t => (t.master m).answered ∧
      (t.master m).ansStatus = .ok ∧ (t.master m).ansData = (s.thr c.val).pc.setWidth 32 ∧
      t.fld (aDBG_REG_ADDR c.val) fDBG_REG_ADDR_INDEX = (if s.bit (aDBG_REG_ADDR c.val) fDBG_REG_ADDR_AINC then i + 1 else i) ∧
      s.keepsElse t [.ringCore, .ringDebug, .ringConfig] (among [aDBG_REG_ADDR c.val]))) ∧
    (∀ (m : Rm) (c : Fin 8), s.ringReady m (aDBG_REG_DATA c.val) → (s.coreState c.val ≠ 3 ∨
      s.dbgItem c.val (s.fld (aDBG_REG_ADDR c.val) fDBG_REG_ADDR_INDEX) = none) →
      Leads (.dbgRegAccess m c none) s (fun t => (t.master m).answered ∧ (t.master m).ansStatus = .refused ∧
      s.keepsElse t [.ringCore, .ringDebug, .ringConfig] (fun _ => false))) ∧
    (∀ (m : Rm) (v : W32), s.ringReady m aDBG_TX → m ≠ .debug → s.bit aDBG_TERM_STAT fDBG_TERM_STAT_TXV = false →
      Writes (.terminalTxWrite m v) m aDBG_TX v .ok s (fun u => u.reg aDBG_TX = v ∧ u.bit aDBG_TERM_STAT fDBG_TERM_STAT_TXV ∧
      u.bit aDBG_TERM_STAT fDBG_TERM_STAT_RXV = s.bit aDBG_TERM_STAT fDBG_TERM_STAT_RXV ∧ s.keepsElse u [.hw] (among [aDBG_TX,
      aDBG_TERM_STAT]))) ∧
    (∀ (m : Rm) (v : W32), s.ringReady m aDBG_TX → (m = .debug ∨ s.bit aDBG_TERM_STAT fDBG_TERM_STAT_TXV) →
      Writes (.terminalTxWrite m v) m aDBG_TX v .refused s (fun u => u = s)) ∧
    (s.ringReady .debug aDBG_TERM_STAT → s.bit aDBG_TERM_STAT fDBG_TERM_STAT_TXV →
      Writes (.terminalTxConsume .debug) .debug aDBG_TERM_STAT 1#32 .ok s (fun u => u.bit aDBG_TERM_STAT fDBG_TERM_STAT_TXV = false ∧
      u.bit aDBG_TERM_STAT fDBG_TERM_STAT_RXV = s.bit aDBG_TERM_STAT fDBG_TERM_STAT_RXV ∧ u.showsEvent 1929 ∧
      s.keepsElse u [.ev, .hw] (among [aDBG_TERM_STAT]))) ∧
    (s.ringReady .debug aDBG_TERM_STAT → s.bit aDBG_TERM_STAT fDBG_TERM_STAT_TXV = false →
      Writes (.terminalTxConsume .debug) .debug aDBG_TERM_STAT 1#32 .ok s (fun u => u = s)) ∧
    (∀ (m : Rm), s.ringReady m aDBG_TERM_STAT → m ≠ .debug →
      Writes (.terminalTxConsume m) m aDBG_TERM_STAT 1#32 .refused s (fun u => u = s)) ∧
    (∀ (v : W32), s.ringReady .debug aDBG_RX → s.bit aDBG_TERM_STAT fDBG_TERM_STAT_RXV = false →
      Writes (.terminalRxWrite .debug v) .debug aDBG_RX v .ok s (fun u => u.reg aDBG_RX = v ∧
      u.bit aDBG_TERM_STAT fDBG_TERM_STAT_RXV ∧
      u.bit aDBG_TERM_STAT fDBG_TERM_STAT_TXV = s.bit aDBG_TERM_STAT fDBG_TERM_STAT_TXV ∧ u.showsEvent 1928 ∧
      s.keepsElse u [.ev, .hw] (among [aDBG_RX, aDBG_TERM_STAT]))) ∧
    (∀ (m : Rm) (v : W32), s.ringReady m aDBG_RX → (m ≠ .debug ∨ s.bit aDBG_TERM_STAT fDBG_TERM_STAT_RXV) →
      Writes (.terminalRxWrite m v) m aDBG_RX v .refused s (fun u => u = s)) ∧
    (∀ (m : Rm), s.ringReady m aDBG_TERM_STAT → m ≠ .debug →
      Writes (.terminalRxConsume m) m aDBG_TERM_STAT 2#32 .ok s (fun u => u.bit aDBG_TERM_STAT fDBG_TERM_STAT_RXV = false ∧
      u.bit aDBG_TERM_STAT fDBG_TERM_STAT_TXV = s.bit aDBG_TERM_STAT fDBG_TERM_STAT_TXV ∧
      s.keepsElse u [] (among [aDBG_TERM_STAT]))) ∧
    (s.ringReady .debug aDBG_TERM_STAT →
      Writes (.terminalRxConsume .debug) .debug aDBG_TERM_STAT 2#32 .refused s (fun u => u = s))

/-- A port that is free performs the request that the arbitration picks, and it leaves the queue; the other port grants its
own in the same cycle. A bank that is not on answers status 1 and stores nothing. An allowed write stores its bytes and those
alone, an allowed read answers the bytes, or status 1 with BANK_PAR and event 129 where a byte failed its parity. A request
that is not allowed is answered 3, counted in BANK_FAULT with event 128, and stores nothing. A write of the handover word with
GIVE_EN names a new owner, or is answered 1 when malformed; a read of it gives the owner word. Where both ports write one
word, port A's bytes stand; a read of A sees what B writes. Model choices it rests on: log entries 81, 82, 155.
(11_memory_banks.md R257 to R262, R265, R267) -/
def Obligations.BankRequests : Prop :=
  ∀ s : State, s.Inv →
    (∀ (p : Bool) (b : Fin 64) (bad : Option (Fin 8192)), (s.hubRuns = false ∨ s.bankNext p b.val = none) →
      exec (.bankRequest p b bad) s = .next (s)) ∧
    (∀ (p : Bool) (b : Fin 64) (r : MemReq) (bad : Option (Fin 8192)), s.hubRuns → s.bankNext p b.val = some r →
      (s.bankTake p b.val r).bankNext (!p) b.val = none → s.domState (64 + b.val) ≠ 3 →
      Leads (.bankRequest p b bad) s (fun t => t.mq = s.mq.erase r ∧ (∀ a, t.byte a = s.byte a) ∧
      t.rsps = (s.answerReq r 1 ([])).rsps ∧ t.be = (s.answerReq r 1 ([])).be ∧ t.nis = (s.answerReq r 1 ([])).nis ∧
      s.keepsElse t [.banks, .be, .ev, .hw, .mq, .nis, .rsps] (niReg))) ∧
    (∀ (p : Bool) (b : Fin 64) (r : MemReq) (bad : Option (Fin 8192)), s.hubRuns → s.bankNext p b.val = some r →
      (s.bankTake p b.val r).bankNext (!p) b.val = none → s.domOn (64 + b.val) → s.bankAllows b.val r → r.write →
      s.handover b.val r = false → Leads (.bankRequest p b bad) s (fun t => t.mq = s.mq.erase r ∧ (∀ i, i < r.data.length →
      t.byte (r.addr + i) = r.data.getD i 0#8) ∧ (∀ a, (a < r.addr ∨ r.addr + r.data.length ≤ a) → t.byte a = s.byte a) ∧
      t.rsps = (s.answerReq r 0 ([])).rsps ∧ t.be = (s.answerReq r 0 ([])).be ∧ t.nis = (s.answerReq r 0 ([])).nis ∧
      s.keepsElse t [.banks, .be, .ev, .hw, .mq, .nis, .rsps, .mem] (niReg))) ∧
    (∀ (p : Bool) (b : Fin 64) (r : MemReq) (bad : Option (Fin 8192)), s.hubRuns → s.bankNext p b.val = some r →
      (s.bankTake p b.val r).bankNext (!p) b.val = none → s.domOn (64 + b.val) → s.bankAllows b.val r → r.write = false →
      s.handover b.val r = false →
      bad.all (fun w => decide (r.addr + r.count ≤ bankBase b.val + 32 * w.val) || decide (bankBase b.val + 32 * w.val + 32 ≤ r.addr)) →
      s.banks.badPar.all (fun k => decide (k < r.addr) || decide (r.addr + (r.count) ≤ k)) →
      Leads (.bankRequest p b bad) s (fun t => t.mq = s.mq.erase r ∧ (∀ a, t.byte a = s.byte a) ∧
      t.rsps = (s.answerReq r 0 (s.bytes r.addr r.count)).rsps ∧ t.be = (s.answerReq r 0 (s.bytes r.addr r.count)).be ∧
      t.nis = (s.answerReq r 0 (s.bytes r.addr r.count)).nis ∧ s.keepsElse t [.banks, .be, .ev, .hw, .mq, .nis, .rsps] (niReg))) ∧
    (∀ (p : Bool) (b : Fin 64) (r : MemReq) (bad : Option (Fin 8192)) (w : Fin 8192), s.hubRuns → s.bankNext p b.val = some r →
      (s.bankTake p b.val r).bankNext (!p) b.val = none → s.domOn (64 + b.val) → s.bankAllows b.val r → r.write = false →
      s.handover b.val r = false → bad = some w → r.addr < bankBase b.val + 32 * w.val + 32 →
      bankBase b.val + 32 * w.val < r.addr + r.count →
      s.banks.badPar.all (fun k => decide (k < r.addr) || decide (r.addr + (r.count) ≤ k)) →
      Leads (.bankRequest p b bad) s (fun t => t.mq = s.mq.erase r ∧ (∀ a, t.byte a = s.byte a) ∧
      t.rsps = (s.answerReq r 1 ([])).rsps ∧ t.be = (s.answerReq r 1 ([])).be ∧ t.nis = (s.answerReq r 1 ([])).nis ∧
      t.reg aBANK_PAR = BitVec.ofNat 32 (2 ^ 31 + b.val * 8192 + w.val) ∧ t.showsEvent 129 ∧ s.keepsElse t [.banks, .be, .ev,
      .hw, .mq, .nis, .rsps] (fun a => among [aBANK_PAR] a || niReg a))) ∧
    (∀ (p : Bool) (b : Fin 64) (r : MemReq) (bad : Option (Fin 8192)) (k : Nat), s.hubRuns → s.bankNext p b.val = some r →
      (s.bankTake p b.val r).bankNext (!p) b.val = none → s.domOn (64 + b.val) → s.bankAllows b.val r → r.write = false →
      s.handover b.val r = false →
      bad.all (fun w => decide (r.addr + r.count ≤ bankBase b.val + 32 * w.val) || decide (bankBase b.val + 32 * w.val + 32 ≤ r.addr)) →
      k ∈ s.banks.badPar → r.addr ≤ k → k < r.addr + r.count →
      s.banks.badPar.all (fun j => decide (j < r.addr) || decide (k ≤ j)) →
      Leads (.bankRequest p b bad) s (fun t => t.mq = s.mq.erase r ∧ (∀ a, t.byte a = s.byte a) ∧
      t.rsps = (s.answerReq r 1 ([])).rsps ∧ t.be = (s.answerReq r 1 ([])).be ∧ t.nis = (s.answerReq r 1 ([])).nis ∧
      t.reg aBANK_PAR = BitVec.ofNat 32 (2 ^ 31 + b.val * 8192 + k % 0x40000 / 32) ∧ t.showsEvent 129 ∧ s.keepsElse t [.banks,
      .be, .ev, .hw, .mq, .nis, .rsps] (fun a => among [aBANK_PAR] a || niReg a))) ∧
    (∀ (p : Bool) (b : Fin 64) (r : MemReq) (bad : Option (Fin 8192)), s.hubRuns → s.bankNext p b.val = some r →
      (s.bankTake p b.val r).bankNext (!p) b.val = none → s.domOn (64 + b.val) → s.bankAllows b.val r = false →
      Leads (.bankRequest p b bad) s (fun t => t.mq = s.mq.erase r ∧ (∀ a, t.byte a = s.byte a) ∧
      t.rsps = (s.answerReq r 3 ([])).rsps ∧ t.be = (s.answerReq r 3 ([])).be ∧ t.nis = (s.answerReq r 3 ([])).nis ∧
      t.fld aBANK_FAULT_0 fBANK_FAULT_0_COUNT = min 255 (s.fld aBANK_FAULT_0 fBANK_FAULT_0_COUNT + 1) ∧ (r.master < 256 →
      t.fld aBANK_FAULT_0 fBANK_FAULT_0_MASTER = r.master) ∧ t.bit aBANK_FAULT_0 fBANK_FAULT_0_WRITE = r.write ∧
      t.fld aBANK_FAULT_0 fBANK_FAULT_0_BANK = b.val ∧
      t.fld aBANK_FAULT_0 fBANK_FAULT_0_OWNER = s.fld (aBANK_OWNER b.val) fBANK_OWNER_OWNER ∧
      t.fld aBANK_FAULT_1 fBANK_FAULT_1_WORD = r.addr % 0x40000 / 32 ∧ t.showsEvent 128 ∧ s.keepsElse t [.banks, .be, .ev, .hw,
      .mq, .nis, .rsps] (fun a => among [aBANK_FAULT_0, aBANK_FAULT_1] a || niReg a))) ∧
    (∀ (p : Bool) (b : Fin 64) (r : MemReq) (bad : Option (Fin 8192)) (n : Nat), s.hubRuns → s.bankNext p b.val = some r →
      (s.bankTake p b.val r).bankNext (!p) b.val = none → s.domOn (64 + b.val) → s.bankAllows b.val r → r.write →
      s.handover b.val r → r.addr % 0x40000 ≤ 0x3FFE0 → 0x3FFE4 ≤ r.addr % 0x40000 + r.count →
      newOwner (leNat ((r.data.drop (0x3FFE0 - r.addr % 0x40000)).take 4)) = some n →
      Leads (.bankRequest p b bad) s (fun t => t.mq = s.mq.erase r ∧ (∀ i,
      i < (r.data.take (0x3FFE0 - r.addr % 0x40000)).length →
      t.byte (r.addr + i) = (r.data.take (0x3FFE0 - r.addr % 0x40000)).getD i 0#8) ∧ (∀ a, (a < r.addr ∨
      r.addr + (r.data.take (0x3FFE0 - r.addr % 0x40000)).length ≤ a) → t.byte a = s.byte a) ∧
      t.rsps = (s.answerReq r 0 ([])).rsps ∧ t.be = (s.answerReq r 0 ([])).be ∧ t.nis = (s.answerReq r 0 ([])).nis ∧
      t.fld (aBANK_OWNER b.val) fBANK_OWNER_OWNER = n ∧ t.bit (aBANK_OWNER b.val) fBANK_OWNER_GIVE_EN ∧ s.keepsElse t [.banks,
      .be, .ev, .hw, .mq, .nis, .rsps, .mem] (fun a => among [aBANK_OWNER b.val] a || niReg a))) ∧
    (∀ (p : Bool) (b : Fin 64) (r : MemReq) (bad : Option (Fin 8192)), s.hubRuns → s.bankNext p b.val = some r →
      (s.bankTake p b.val r).bankNext (!p) b.val = none → s.domOn (64 + b.val) → s.bankAllows b.val r → r.write →
      s.handover b.val r → (0x3FFE0 < r.addr % 0x40000 ∨ r.addr % 0x40000 + r.count < 0x3FFE4 ∨
      newOwner (leNat ((r.data.drop (0x3FFE0 - r.addr % 0x40000)).take 4)) = none) →
      Leads (.bankRequest p b bad) s (fun t => t.mq = s.mq.erase r ∧ (∀ a, t.byte a = s.byte a) ∧
      t.rsps = (s.answerReq r 1 ([])).rsps ∧ t.be = (s.answerReq r 1 ([])).be ∧ t.nis = (s.answerReq r 1 ([])).nis ∧
      s.keepsElse t [.banks, .be, .ev, .hw, .mq, .nis, .rsps] (niReg))) ∧
    (∀ (p : Bool) (b : Fin 64) (r : MemReq) (bad : Option (Fin 8192)), s.hubRuns → s.bankNext p b.val = some r →
      (s.bankTake p b.val r).bankNext (!p) b.val = none → s.domOn (64 + b.val) → s.bankAllows b.val r → r.write = false →
      s.handover b.val r →
      bad.all (fun w => decide (r.addr + r.count ≤ bankBase b.val + 32 * w.val) || decide (bankBase b.val + 32 * w.val + 32 ≤ r.addr)) →
      s.banks.badPar.all (fun k => decide (k < r.addr) || decide (r.addr + (0x3FFE0 - r.addr % 0x40000) ≤ k)) →
      0x3FFE0 ≤ r.addr % 0x40000 → Leads (.bankRequest p b bad) s (fun t => t.mq = s.mq.erase r ∧ (∀ a, t.byte a = s.byte a) ∧
      t.rsps = (s.answerReq r 0 ((List.range r.count).map (fun i => (natLe 32 ((s.reg (aBANK_OWNER b.val)).toNat % 512)).getD (r.addr % 0x40000 - 0x3FFE0 + i) 0))).rsps ∧
      t.be = (s.answerReq r 0 ((List.range r.count).map (fun i => (natLe 32 ((s.reg (aBANK_OWNER b.val)).toNat % 512)).getD (r.addr % 0x40000 - 0x3FFE0 + i) 0))).be ∧
      t.nis = (s.answerReq r 0 ((List.range r.count).map (fun i => (natLe 32 ((s.reg (aBANK_OWNER b.val)).toNat % 512)).getD (r.addr % 0x40000 - 0x3FFE0 + i) 0))).nis ∧
      s.keepsElse t [.banks, .be, .ev, .hw, .mq, .nis, .rsps] (niReg))) ∧
    (∀ (p : Bool) (b : Fin 64) (r : MemReq) (bad : Option (Fin 8192)), s.hubRuns → s.bankNext p b.val = some r →
      (s.bankTake p b.val r).bankNext (!p) b.val = none → s.domOn (64 + b.val) → s.bankAllows b.val r → r.write = false →
      s.handover b.val r →
      bad.all (fun w => decide (r.addr + r.count ≤ bankBase b.val + 32 * w.val) || decide (bankBase b.val + 32 * w.val + 32 ≤ r.addr)) →
      s.banks.badPar.all (fun k => decide (k < r.addr) || decide (r.addr + (0x3FFE0 - r.addr % 0x40000) ≤ k)) →
      r.addr % 0x40000 < 0x3FFE0 → Leads (.bankRequest p b bad) s (fun t => t.mq = s.mq.erase r ∧ (∀ a, t.byte a = s.byte a) ∧
      t.rsps = (s.answerReq r 0 (s.bytes r.addr (0x3FFE0 - r.addr % 0x40000) ++ (List.range (r.addr % 0x40000 + r.count - 0x3FFE0)).map (fun i => (natLe 32 ((s.reg (aBANK_OWNER b.val)).toNat % 512)).getD i 0))).rsps ∧
      t.be = (s.answerReq r 0 (s.bytes r.addr (0x3FFE0 - r.addr % 0x40000) ++ (List.range (r.addr % 0x40000 + r.count - 0x3FFE0)).map (fun i => (natLe 32 ((s.reg (aBANK_OWNER b.val)).toNat % 512)).getD i 0))).be ∧
      t.nis = (s.answerReq r 0 (s.bytes r.addr (0x3FFE0 - r.addr % 0x40000) ++ (List.range (r.addr % 0x40000 + r.count - 0x3FFE0)).map (fun i => (natLe 32 ((s.reg (aBANK_OWNER b.val)).toNat % 512)).getD i 0))).nis ∧
      s.keepsElse t [.banks, .be, .ev, .hw, .mq, .nis, .rsps] (niReg))) ∧
    (∀ (b : Fin 64) (r : MemReq) (e k : Nat) (bad : Option (Fin 8192)) (p : Bool), s.hubRuns → s.bankNext p b.val = some r →
      (s.bankTake p b.val r).bankNext (!p) b.val = none → r.origin = .dma e k → (s.domState (64 + b.val) ≠ 3 ∨
      s.bankAllows b.val r = false) →
      Leads (.bankRequest p b bad) s (fun t => t.rsps = s.rsps ++ [{ origin := r.origin, status := if s.domState (64 + b.val) ≠ 3 then 1 else 3, addr := r.addr, data := [] }])) ∧
    (∀ (p : Bool) (b : Fin 64) (x y : MemReq), s.hubRuns → s.bankNext p b.val = some x →
      (s.bankTake p b.val x).bankNext (!p) b.val = some y →
      exec (.bankRequest p b none) s = .next (((s.bankTake p b.val x).bankTake (!p) b.val y).bankBoth b.val (if p then x else y) (if p then y else x))) ∧
    (∀ (b : Fin 64) (x y : MemReq), s.hubRuns → s.bankNext true b.val = some x →
      (s.bankTake true b.val x).bankNext false b.val = some y → s.domOn (64 + b.val) → s.bistOn b.val = none →
      s.fld (aBANK_OWNER b.val) fBANK_OWNER_OWNER = 0 → s.bit (aBANK_OWNER b.val) fBANK_OWNER_GIVE_EN = false →
      x.addr / 32 = y.addr / 32 → x.write → y.write →
      Leads (.bankRequest true b none) s (fun t => t.mq = (s.mq.erase x).erase y ∧ (∀ i, i < x.data.length →
      t.byte (x.addr + i) = x.data.getD i 0#8) ∧ (∀ i, i < y.data.length → (y.addr + i < x.addr ∨
      x.addr + x.data.length ≤ y.addr + i) → t.byte (y.addr + i) = y.data.getD i 0#8) ∧ (∀ a, (a < x.addr ∨
      x.addr + x.data.length ≤ a) ∧ (a < y.addr ∨ y.addr + y.data.length ≤ a) → t.byte a = s.byte a) ∧ s.keepsElse t [.banks,
      .be, .ev, .hw, .mq, .nis, .rsps, .mem] (niReg))) ∧
    (∀ (b : Fin 64) (x y : MemReq), s.hubRuns → s.bankNext true b.val = some x →
      (s.bankTake true b.val x).bankNext false b.val = some y → s.domOn (64 + b.val) → s.bistOn b.val = none →
      s.fld (aBANK_OWNER b.val) fBANK_OWNER_OWNER = 0 → s.bit (aBANK_OWNER b.val) fBANK_OWNER_GIVE_EN = false →
      x.addr / 32 = y.addr / 32 → x.write = false → y.write → x.addr = y.addr → x.count = y.data.length → s.banks.badPar = [] →
      y.origin = .dma 0 2 → x.origin = .dma 0 3 → Leads (.bankRequest true b none) s (fun t => t.mq = (s.mq.erase x).erase y ∧
      t.rsps = s.rsps ++ [{ origin := .dma 0 2, status := 0, addr := y.addr, data := [] },
      { origin := .dma 0 3, status := 0, addr := x.addr, data := y.data }] ∧ (∀ i, i < y.data.length →
      t.byte (y.addr + i) = y.data.getD i 0#8) ∧ (∀ a, (a < y.addr ∨ y.addr + y.data.length ≤ a) → t.byte a = s.byte a) ∧
      s.keepsElse t [.banks, .be, .ev, .hw, .mq, .nis, .rsps, .mem] (niReg)))

/-- BANK_OWNER_n is refused to the configuration stream, during a test, and for owner 0x50. CC_SEL_k clears its counter. A
waking bank comes on when due, zeroed from off with event 132. GO borrows an idle on bank for master 0x50 and saves its owner;
ABORT ends it early; the test pauses for urgent and debugger requests and resumes after 1,024 quiet cycles; its end restores
the owner and reports event 130, or FAIL with the lowest word and event 131. Model choices it rests on: log entry 83.
(11_memory_banks.md R261, R263, R266, R267) -/
def Obligations.BankOwnersCountersAndTest : Prop :=
  ∀ s : State, s.Inv →
    (∀ (m : Rm) (b : Fin 64) (v : W32), s.ringReady m (aBANK_OWNER b.val) → m ≠ .config → s.bistOn b.val = none →
      getF v fBANK_OWNER_OWNER ≠ 0x50 →
      Writes (.bankOwnerWrite m b v) m (aBANK_OWNER b.val) v .ok s (fun u => u = s.plainWrite (aBANK_OWNER b.val) v)) ∧
    (∀ (m : Rm) (b : Fin 64) (v : W32), s.ringReady m (aBANK_OWNER b.val) → (m = .config ∨ s.bistOn b.val ≠ none ∨
      getF v fBANK_OWNER_OWNER = 0x50) → Writes (.bankOwnerWrite m b v) m (aBANK_OWNER b.val) v .refused s (fun u => u = s)) ∧
    (∀ (m : Rm) (k : Fin 16) (v : W32), s.ringReady m (aCC_SEL k.val) →
      Writes (.ccSelWrite m k v) m (aCC_SEL k.val) v .ok s (fun u => u.reg (aCC_CNT k.val) = 0#32 ∧
      u.reg (aCC_SEL k.val) = (s.plainWrite (aCC_SEL k.val) v).reg (aCC_SEL k.val) ∧ s.keepsElse u [] (among [aCC_SEL k.val,
      aCC_CNT k.val]))) ∧
    (∀ (b : Fin 64) (k : Nat), s.hubRuns → tget (fun _ => (0, false)) s.banks.wake b.val = (k + 1, true) → k ≤ s.now →
      s.domState (64 + b.val) = 1 → Leads (.bankWakeComplete b) s (fun t => t.domOn (64 + b.val) ∧ (∀ i, i < 0x40000 →
      t.byte (bankBase b.val + i) = 0#8) ∧ t.showsEvent 132 ∧ (∀ a, (a < bankBase b.val ∨ bankBase b.val + 0x40000 ≤ a) →
      t.byte a = s.byte a) ∧ tget (fun _ => (0, false)) t.banks.wake b.val = (0, false) ∧ s.keepsElse t [.ev, .hw, .banks,
      .mem] (among [aPWR_STATE (4 + b.val / 16)]))) ∧
    (∀ (b : Fin 64) (k : Nat), s.hubRuns → tget (fun _ => (0, false)) s.banks.wake b.val = (k + 1, false) → k ≤ s.now →
      s.domState (64 + b.val) = 1 → Leads (.bankWakeComplete b) s (fun t => t.domOn (64 + b.val) ∧ tget (fun _ => (0,
      false)) t.banks.wake b.val = (0, false) ∧ s.keepsElse t [.banks] (among [aPWR_STATE (4 + b.val / 16)]))) ∧
    (∀ (b : Fin 64), (s.hubRuns = false ∨ (tget (fun _ => (0, false)) s.banks.wake b.val).1 = 0 ∨ s.now + 1 < (tget (fun _ => (0,
      false)) s.banks.wake b.val).1 ∨ s.domState (64 + b.val) ≠ 1) → exec (.bankWakeComplete b) s = .next (s)) ∧
    (∀ (m : Rm) (b : Fin 64), s.ringReady m aBIST_CTRL → m ≠ .config → s.banks.bist = none → s.domOn (64 + b.val) →
      Writes (.bistGo m b) m aBIST_CTRL (putF (BitVec.ofNat 32 b.val) fBIST_CTRL_GO 1) .ok s (fun u => u.banks.bist = some { bank := b.val, cycles := 0, quietAt := s.now, aborting := false } ∧
      u.fld (aBANK_OWNER b.val) fBANK_OWNER_OWNER = 0x50 ∧ u.bistPrev = s.fld (aBANK_OWNER b.val) fBANK_OWNER_OWNER ∧
      u.bit aBIST_STATUS fBIST_STATUS_BUSY ∧ u.bit aBIST_STATUS fBIST_STATUS_FAIL = false ∧
      s.keepsElse u [.banks] (among [aBIST_CTRL, aBIST_STATUS, (aBANK_OWNER b.val)]))) ∧
    (∀ (m : Rm) (b : Fin 64), s.ringReady m aBIST_CTRL → (m = .config ∨ s.banks.bist ≠ none ∨ s.domState (64 + b.val) ≠ 3) →
      Writes (.bistGo m b) m aBIST_CTRL (putF (BitVec.ofNat 32 b.val) fBIST_CTRL_GO 1) .refused s (fun u => u = s)) ∧
    (∀ (m : Rm) (x : Bist), s.ringReady m aBIST_CTRL → s.banks.bist = some x → s.bit aBIST_CTRL fBIST_CTRL_GO = false →
      Writes (.bistAbort m) m aBIST_CTRL (putF (s.reg aBIST_CTRL) fBIST_CTRL_ABORT 1) .ok s (fun u => u.banks.bist = some { x with aborting := true } ∧
      s.keepsElse u [.banks] (among [aBIST_CTRL]))) ∧
    (∀ (m : Rm), s.ringReady m aBIST_CTRL → s.banks.bist = none → s.bit aBIST_CTRL fBIST_CTRL_GO = false →
      Writes (.bistAbort m) m aBIST_CTRL (putF (s.reg aBIST_CTRL) fBIST_CTRL_ABORT 1) .ok s (fun u => s.keepsElse u [] (among [aBIST_CTRL]))) ∧
    (∀ (x : Bist), s.banks.bist = some x → s.hubRuns → s.bistPaused = false → (s.frozen 4 ∨ (∃ r ∈ s.mq, forBank x.bank r ∧
      s.pausesBist r)) → Leads (.bistPause) s (fun t => t.bistPaused ∧ t.banks.bist = some { x with quietAt := s.now } ∧
      s.keepsElse t [.banks, .hw] (among [aBIST_STATUS]))) ∧
    ((s.hubRuns = false ∨ s.banks.bist = none ∨ s.bistPaused ∨ (s.frozen 4 = false ∧
      s.banks.bist.any (fun x => !s.mq.any (fun r => forBank x.bank r && s.pausesBist r)))) → exec (.bistPause) s = .next (s)) ∧
    ((s.hubRuns = false ∨ s.banks.bist = none ∨ s.bistPaused = false ∨ s.frozen 4 ∨
      s.banks.bist.any (fun x => decide (s.now < x.quietAt + 1280) || s.mq.any (fun r => forBank x.bank r && s.pausesBist r))) →
      exec (.bistResume) s = .next (s)) ∧
    ((s.hubRuns = false ∨ s.banks.bist = none ∨ s.banks.bist.any (fun x => !x.aborting && x.cycles != 65536)) →
      exec (.bistEnd []) s = .next (s)) ∧
    (∀ (x : Bist), s.banks.bist = some x → s.hubRuns → s.bistPaused → s.frozen 4 = false → x.quietAt + 1280 ≤ s.now →
      s.mq.all (fun r => !(forBank x.bank r && s.pausesBist r)) →
      exec (.bistResume) s = .next (s.setBit aBIST_STATUS fBIST_STATUS_PAUSED false)) ∧
    (∀ (x : Bist), s.banks.bist = some x → s.hubRuns → (x.aborting ∨ x.cycles = 65536) →
      Leads (.bistEnd []) s (fun t => t.banks.bist = none ∧ t.fld (aBANK_OWNER x.bank) fBANK_OWNER_OWNER = s.bistPrev ∧
      t.bit aBIST_STATUS fBIST_STATUS_BUSY = false ∧ t.bit aBIST_STATUS fBIST_STATUS_DONE ∧ t.showsEvent 130 ∧
      t.bit aBIST_STATUS fBIST_STATUS_FAIL = s.bit aBIST_STATUS fBIST_STATUS_FAIL ∧ s.keepsElse t [.ev, .hw,
      .banks] (among [aBANK_OWNER x.bank, aBIST_STATUS]))) ∧
    (∀ (x : Bist) (w : Fin 8192) (l : List (Fin 8192)), s.banks.bist = some x → s.hubRuns → (x.aborting ∨ x.cycles = 65536) →
      Leads (.bistEnd (w :: l)) s (fun t => t.banks.bist = none ∧ t.fld (aBANK_OWNER x.bank) fBANK_OWNER_OWNER = s.bistPrev ∧
      t.bit aBIST_STATUS fBIST_STATUS_BUSY = false ∧ t.bit aBIST_STATUS fBIST_STATUS_DONE ∧
      t.bit aBIST_STATUS fBIST_STATUS_FAIL ∧ t.fld aBIST_STATUS fBIST_STATUS_WORD = (l.map (fun k => k.val)).foldl min w.val ∧
      t.showsEvent 131 ∧ (∀ a,
      (w :: l).all (fun k => decide (a < bankBase x.bank + 32 * k.val) || decide (bankBase x.bank + 32 * k.val + 32 ≤ a)) →
      t.byte a = s.byte a) ∧ s.keepsElse t [.ev, .hw, .banks, .mem, .free] (among [aBANK_OWNER x.bank, aBIST_STATUS])))

/-- GO of an enabled idle engine is busy and fetches the descriptor at HEAD under its own master; it stops with status 1 where
HEAD is outside the banks or misaligned, and the write is refused while busy or not enabled. A finished descriptor raises
event 136 + e if it asks, and ends the run or fetches the next. DIS with nothing outstanding, or with FORCE, drains at once:
EN and BUSY clear, DRAINED, event 144 + e. EN clears DRAINED. Model choices it rests on: log entry 84. (11_memory_banks.md
R268 to R270) -/
def Obligations.DmaEngines : Prop :=
  ∀ s : State, s.Inv →
    (∀ (m : Rm) (e : Fin 4) (k : Nat), s.ringReady m (aDMA_CTRL e.val) → s.bit (aDMA_CTRL e.val) fDMA_CTRL_EN →
      s.bit (aDMA_CTRL e.val) fDMA_CTRL_DIS = false → s.bit (aDMA_STATUS e.val) fDMA_STATUS_BUSY = false →
      s.reg64 (aDMA_HEAD_LO e.val) (aDMA_HEAD_HI e.val) = k → k / 2 ^ 48 = s.devId → classOf (k % 2 ^ 48) = .banks →
      k % 32 = 0 →
      Writes (.dmaGo m e) m (aDMA_CTRL e.val) (putF (s.reg (aDMA_CTRL e.val)) fDMA_CTRL_GO 1) .ok s (fun u => u.bit (aDMA_STATUS e.val) fDMA_STATUS_BUSY ∧
      (u.dma e.val).fetching ∧ (u.dma e.val).cur = k ∧ u.reg (aDMA_CUR e.val) = BitVec.ofNat 32 k ∧
      (u.ni 6 (dmaNi e.val)).clientQ = (s.ni 6 (dmaNi e.val)).clientQ ++ [{ pkt := { hdr := xferHdr k 32 8 0 false false, data := lineFlits (k % 256) [] }, master := 0x40 + e.val, origin := .dma e.val 8 }] ∧
      s.keepsElse u [.hw, .nis, .banks] (among [(aDMA_CTRL e.val), (aDMA_STATUS e.val), aDMA_CUR e.val]))) ∧
    (∀ (m : Rm) (e : Fin 4) (k : Nat), s.ringReady m (aDMA_CTRL e.val) → s.bit (aDMA_CTRL e.val) fDMA_CTRL_EN →
      s.bit (aDMA_CTRL e.val) fDMA_CTRL_DIS = false → s.bit (aDMA_STATUS e.val) fDMA_STATUS_BUSY = false →
      s.reg64 (aDMA_HEAD_LO e.val) (aDMA_HEAD_HI e.val) = k → (k / 2 ^ 48 ≠ s.devId ∨ classOf (k % 2 ^ 48) ≠ .banks ∨
      k % 32 ≠ 0) →
      Writes (.dmaGo m e) m (aDMA_CTRL e.val) (putF (s.reg (aDMA_CTRL e.val)) fDMA_CTRL_GO 1) .ok s (fun u => u.bit (aDMA_STATUS e.val) fDMA_STATUS_BUSY = false ∧
      u.bit (aDMA_STATUS e.val) fDMA_STATUS_ERR ∧ u.fld (aDMA_STATUS e.val) fDMA_STATUS_STATUS = 1 ∧
      u.showsEvent (140 + e.val) ∧ s.keepsElse u [.ev, .hw, .banks] (among [(aDMA_CTRL e.val), (aDMA_STATUS e.val),
      aDMA_CUR e.val]))) ∧
    (∀ (m : Rm) (e : Fin 4), s.ringReady m (aDMA_CTRL e.val) → (s.bit (aDMA_CTRL e.val) fDMA_CTRL_EN = false ∨
      s.bit (aDMA_STATUS e.val) fDMA_STATUS_BUSY) →
      Writes (.dmaGo m e) m (aDMA_CTRL e.val) (putF (s.reg (aDMA_CTRL e.val)) fDMA_CTRL_GO 1) .refused s (fun u => u = s)) ∧
    (∀ (m : Rm) (e : Fin 4), s.ringReady m (aDMA_CTRL e.val) → s.bit (aDMA_CTRL e.val) fDMA_CTRL_EN →
      s.bit (aDMA_CTRL e.val) fDMA_CTRL_DIS → s.bit (aDMA_CTRL e.val) fDMA_CTRL_FORCE = false →
      s.bit (aDMA_STATUS e.val) fDMA_STATUS_BUSY = false →
      Writes (.dmaGo m e) m (aDMA_CTRL e.val) (putF (s.reg (aDMA_CTRL e.val)) fDMA_CTRL_GO 1) .ok s (fun u => u.bit (aDMA_STATUS e.val) fDMA_STATUS_BUSY = false ∧
      (u.dma e.val).fetching = (s.dma e.val).fetching ∧ s.keepsElse u [.ev, .hw, .banks] (among [(aDMA_CTRL e.val),
      (aDMA_STATUS e.val)]))) ∧
    (∀ (m : Rm) (e : Fin 4) (f : Bool), s.ringReady m (aDMA_CTRL e.val) → s.bit (aDMA_CTRL e.val) fDMA_CTRL_GO = false →
      (s.bit (aDMA_CTRL e.val) fDMA_CTRL_EN ∨ (s.dma e.val).draining) → (s.dma e.val).pieces = [] →
      (s.dma e.val).fetching = false →
      Writes (.dmaDisable m e f) m (aDMA_CTRL e.val) (putF (putF (s.reg (aDMA_CTRL e.val)) fDMA_CTRL_DIS 1) fDMA_CTRL_FORCE (if f then 1 else 0)) .ok s (fun u => u.bit (aDMA_CTRL e.val) fDMA_CTRL_EN = false ∧
      u.bit (aDMA_STATUS e.val) fDMA_STATUS_DRAINED ∧ u.bit (aDMA_STATUS e.val) fDMA_STATUS_BUSY = false ∧
      u.showsEvent (144 + e.val) ∧ (u.dma e.val).desc = none ∧ s.keepsElse u [.ev, .hw, .banks, .nis,
      .rsps] (among [(aDMA_CTRL e.val), (aDMA_STATUS e.val)]))) ∧
    (∀ (m : Rm) (e : Fin 4), s.ringReady m (aDMA_CTRL e.val) → s.bit (aDMA_CTRL e.val) fDMA_CTRL_GO = false →
      s.bit (aDMA_CTRL e.val) fDMA_CTRL_EN →
      Writes (.dmaDisable m e true) m (aDMA_CTRL e.val) (putF (putF (s.reg (aDMA_CTRL e.val)) fDMA_CTRL_DIS 1) fDMA_CTRL_FORCE 1) .ok s (fun u => u.bit (aDMA_CTRL e.val) fDMA_CTRL_EN = false ∧
      u.bit (aDMA_STATUS e.val) fDMA_STATUS_DRAINED ∧ u.bit (aDMA_STATUS e.val) fDMA_STATUS_BUSY = false ∧
      u.showsEvent (144 + e.val) ∧ (u.dma e.val).desc = none ∧ (u.dma e.val).pieces = [] ∧ (∀ r ∈ u.rsps, ∀ g,
      r.origin ≠ .dma e.val g) ∧ s.keepsElse u [.ev, .hw, .banks, .nis, .rsps] (among [(aDMA_CTRL e.val),
      (aDMA_STATUS e.val)]))) ∧
    (∀ (m : Rm) (e : Fin 4) (f : Bool), s.ringReady m (aDMA_CTRL e.val) → s.bit (aDMA_CTRL e.val) fDMA_CTRL_GO = false →
      (s.bit (aDMA_CTRL e.val) fDMA_CTRL_EN ∨ (s.dma e.val).draining) → (f = false ∨
      s.bit (aDMA_CTRL e.val) fDMA_CTRL_EN = false) → ((s.dma e.val).pieces ≠ [] ∨ (s.dma e.val).fetching) →
      Writes (.dmaDisable m e f) m (aDMA_CTRL e.val) (putF (putF (s.reg (aDMA_CTRL e.val)) fDMA_CTRL_DIS 1) fDMA_CTRL_FORCE (if f then 1 else 0)) .ok s (fun u => u.dma e.val = { s.dma e.val with draining := true } ∧
      u.bit (aDMA_CTRL e.val) fDMA_CTRL_EN = s.bit (aDMA_CTRL e.val) fDMA_CTRL_EN ∧ u.bit (aDMA_CTRL e.val) fDMA_CTRL_DIS ∧
      s.keepsElse u [.banks] (among [(aDMA_CTRL e.val)]))) ∧
    (∀ (m : Rm) (e : Fin 4) (f : Bool), s.ringReady m (aDMA_CTRL e.val) → s.bit (aDMA_CTRL e.val) fDMA_CTRL_GO = false →
      s.bit (aDMA_CTRL e.val) fDMA_CTRL_EN = false → (s.dma e.val).draining = false →
      Writes (.dmaDisable m e f) m (aDMA_CTRL e.val) (putF (putF (s.reg (aDMA_CTRL e.val)) fDMA_CTRL_DIS 1) fDMA_CTRL_FORCE (if f then 1 else 0)) .ok s (fun u => u.dma e.val = s.dma e.val ∧
      u.bit (aDMA_CTRL e.val) fDMA_CTRL_DIS ∧ s.keepsElse u [.banks] (among [(aDMA_CTRL e.val)]))) ∧
    (∀ (m : Rm) (e : Fin 4), s.ringReady m (aDMA_CTRL e.val) → s.bit (aDMA_CTRL e.val) fDMA_CTRL_GO = false →
      Writes (.dmaEnable m e) m (aDMA_CTRL e.val) (putF (putF (putF (s.reg (aDMA_CTRL e.val)) fDMA_CTRL_DIS 0) fDMA_CTRL_FORCE 0) fDMA_CTRL_EN 1) .ok s (fun u => u.bit (aDMA_CTRL e.val) fDMA_CTRL_EN ∧
      u.bit (aDMA_CTRL e.val) fDMA_CTRL_DIS = false ∧ u.bit (aDMA_STATUS e.val) fDMA_STATUS_DRAINED = false ∧
      (u.dma e.val).draining = false ∧ s.keepsElse u [.banks] (among [(aDMA_CTRL e.val), (aDMA_STATUS e.val)]))) ∧
    (∀ (e : Fin 4) (d : Desc), s.hubRuns → (s.dma e.val).desc = some d → (s.dma e.val).issued = d.len →
      (s.dma e.val).pieces = [] → s.bit (aDMA_STATUS e.val) fDMA_STATUS_BUSY → (s.dma e.val).draining = false → d.last →
      Leads (.descriptorComplete e) s (fun t => (d.evt → t.showsEvent (136 + e.val)) ∧
      t.bit (aDMA_STATUS e.val) fDMA_STATUS_BUSY = false ∧ (t.dma e.val).desc = none ∧ s.keepsElse t [.ev, .hw,
      .banks] (among [(aDMA_STATUS e.val)]))) ∧
    (∀ (e : Fin 4) (d : Desc) (k : Nat), s.hubRuns → (s.dma e.val).desc = some d → (s.dma e.val).issued = d.len →
      (s.dma e.val).pieces = [] → s.bit (aDMA_STATUS e.val) fDMA_STATUS_BUSY → (s.dma e.val).draining = false → d.last = false →
      d.next = k → s.frozen e.val = false → s.domOn 24 → k / 2 ^ 48 = s.devId → classOf (k % 2 ^ 48) = .banks → k % 32 = 0 →
      Leads (.descriptorComplete e) s (fun t => (d.evt → t.showsEvent (136 + e.val)) ∧
      t.bit (aDMA_STATUS e.val) fDMA_STATUS_BUSY ∧ (t.dma e.val).fetching ∧ (t.dma e.val).cur = k ∧
      (t.ni 6 (dmaNi e.val)).clientQ = (s.ni 6 (dmaNi e.val)).clientQ ++ [{ pkt := { hdr := xferHdr k 32 8 0 false false, data := lineFlits (k % 256) [] }, master := 0x40 + e.val, origin := .dma e.val 8 }] ∧
      s.keepsElse t [.ev, .hw, .nis, .banks] (among [aDMA_CUR e.val]))) ∧
    (∀ (e : Fin 4) (d : Desc) (k : Nat), s.hubRuns → (s.dma e.val).desc = some d → (s.dma e.val).issued = d.len →
      (s.dma e.val).pieces = [] → s.bit (aDMA_STATUS e.val) fDMA_STATUS_BUSY → (s.dma e.val).draining = false → d.last = false →
      d.next = k → s.frozen e.val = false → s.domOn 24 → (k / 2 ^ 48 ≠ s.devId ∨ classOf (k % 2 ^ 48) ≠ .banks ∨ k % 32 ≠ 0) →
      Leads (.descriptorComplete e) s (fun t => (d.evt → t.showsEvent (136 + e.val)) ∧
      t.bit (aDMA_STATUS e.val) fDMA_STATUS_BUSY = false ∧ t.bit (aDMA_STATUS e.val) fDMA_STATUS_ERR ∧
      t.fld (aDMA_STATUS e.val) fDMA_STATUS_STATUS = 1 ∧ t.showsEvent (140 + e.val) ∧ (t.dma e.val).desc = none ∧
      s.keepsElse t [.ev, .hw, .banks] (among [(aDMA_STATUS e.val), aDMA_CUR e.val]))) ∧
    (∀ (e : Fin 4) (d : Desc), s.hubRuns → (s.dma e.val).desc = some d → (s.dma e.val).issued = d.len →
      (s.dma e.val).pieces = [] → s.bit (aDMA_STATUS e.val) fDMA_STATUS_BUSY → (s.dma e.val).draining = false → d.last = false →
      (s.frozen e.val ∨ s.domOn 24 = false) → exec (.descriptorComplete e) s = .next (s)) ∧
    (∀ (e : Fin 4) (d : Desc), s.hubRuns → (s.dma e.val).desc = some d → (s.dma e.val).issued = d.len →
      (s.dma e.val).pieces = [] → s.bit (aDMA_STATUS e.val) fDMA_STATUS_BUSY → (s.dma e.val).draining →
      (s.dma e.val).fetching = false → Leads (.descriptorComplete e) s (fun t => (d.evt → t.showsEvent (136 + e.val)) ∧
      t.bit (aDMA_CTRL e.val) fDMA_CTRL_EN = false ∧ t.bit (aDMA_STATUS e.val) fDMA_STATUS_DRAINED ∧
      t.bit (aDMA_STATUS e.val) fDMA_STATUS_BUSY = false ∧ t.showsEvent (144 + e.val) ∧ (t.dma e.val).desc = none ∧
      s.keepsElse t [.ev, .hw, .banks] (among [(aDMA_CTRL e.val), (aDMA_STATUS e.val)]))) ∧
    (∀ (e : Fin 4), (s.hubRuns = false ∨ (s.dma e.val).desc = none ∨ (s.dma e.val).pieces ≠ [] ∨
      s.bit (aDMA_STATUS e.val) fDMA_STATUS_BUSY = false ∨ (s.dma e.val).desc.any (fun d => (s.dma e.val).issued != d.len)) →
      exec (.descriptorComplete e) s = .next (s))

/-- A scheduled read is performed on its service tick, 40 before its injection, from the unit its entry names, and its payload
kept for that tick; with the service disabled the result is a marker of cause 8, with the pair not ready 1, without an entry 1
with NOENT, crowded 1 with CROWD, uncorrectable 0xA. A scheduled write stores its 32 bytes and their check bytes alone, or
none where it cannot run. A best-effort request of a ready pair reads or stores its bytes with status 0, or 1 where a word is
uncorrectable; otherwise the answer is 1, and 4 under FORCE. A corrected word counts CE, an uncorrectable one UE. Model
choices it rests on: log entry 85. (12_external_memory.md R273 to R283, R285, 13_ecc_and_keyed_mix.md R305) -/
def Obligations.QdrService : Prop :=
  ∀ s : State, s.Inv →
    (∀ (q : Fin 4) (flips : List (Fin 4 × Fin 72)), s.hubRuns = false → exec (.qdrServiceTick q flips) s = .next (s)) ∧
    (∀ (q : Fin 4) (flips : List (Fin 4 × Fin 72)), s.hubRuns → ((s.qdr q.val).reads.any (fun r => r.tick == s.tickN + 40) ∨
      (s.bankAt (s.tickN + 40)).all (fun x => (injWinner (s.injEntries 6 (qdrNi q.val) x.1 x.2.1 x.2.2 (s.tickN + 40))).isNone)) →
      (∀ w ∈ (s.qdr q.val).writes, w.tick ≠ s.tickN) →
      Leads (.qdrServiceTick q flips) s (fun t => s.keepsElse t [] (fun _ => false))) ∧
    (∀ (q : Fin 4) (k p b i f : Nat) (e : BitVec 128) (flips : List (Fin 4 × Fin 72)) (v : State) (ws : List W64), s.hubRuns →
      (∀ r ∈ (s.qdr q.val).reads, r.tick ≠ s.tickN + 40) → s.bankAt (s.tickN + 40) = some (k, p, b) →
      injWinner (s.injEntries 6 (qdrNi q.val) k p b (s.tickN + 40)) = some (i, e, f) →
      s.bit (aQ_STATUS q.val) fQ_STATUS_SDRAINED = false → s.qdrReady q.val → svcV (s.svcEntry q.val k false i) →
      s.qdrCrowded q.val s.tickN = false → (∀ w ∈ (s.qdr q.val).writes, w.tick ≠ s.tickN) →
      s.qdrWords q.val (4 * (svcUnit (s.svcEntry q.val k false i) f ((s.tickN + 40 - f - b) / p))) (flips.map (fun f => (f.1.val,
      f.2.val))) 4 = (v, some ws) →
      Leads (.qdrServiceTick q flips) s (fun t => (t.qdr q.val).reads = (s.qdr q.val).reads ++ [{ tick := s.tickN + 40, payload := some (BitVec.ofNat 256 (leNat (ws.flatMap (fun w => natLe 8 w.toNat)))), cause := 0 }] ∧
      (t.qdr q.val).lastDone = s.tickN + 1 ∧ v.keepsElse t [.qdrs] (fun _ => false))) ∧
    (∀ (q : Fin 4) (k p b i f : Nat) (e : BitVec 128) (flips : List (Fin 4 × Fin 72)) (v : State), s.hubRuns →
      (∀ r ∈ (s.qdr q.val).reads, r.tick ≠ s.tickN + 40) → s.bankAt (s.tickN + 40) = some (k, p, b) →
      injWinner (s.injEntries 6 (qdrNi q.val) k p b (s.tickN + 40)) = some (i, e, f) →
      s.bit (aQ_STATUS q.val) fQ_STATUS_SDRAINED = false → s.qdrReady q.val → svcV (s.svcEntry q.val k false i) →
      s.qdrCrowded q.val s.tickN = false → (∀ w ∈ (s.qdr q.val).writes, w.tick ≠ s.tickN) →
      s.qdrWords q.val (4 * (svcUnit (s.svcEntry q.val k false i) f ((s.tickN + 40 - f - b) / p))) (flips.map (fun f => (f.1.val,
      f.2.val))) 4 = (v, none) →
      Leads (.qdrServiceTick q flips) s (fun t => (t.qdr q.val).reads = (s.qdr q.val).reads ++ [{ tick := s.tickN + 40, payload := none, cause := 10 }] ∧
      (t.qdr q.val).lastDone = s.tickN + 1 ∧ v.keepsElse t [.qdrs] (fun _ => false))) ∧
    (∀ (q : Fin 4) (k p b i f : Nat) (e : BitVec 128) (flips : List (Fin 4 × Fin 72)), s.hubRuns → (∀ r ∈ (s.qdr q.val).reads,
      r.tick ≠ s.tickN + 40) → s.bankAt (s.tickN + 40) = some (k, p, b) →
      injWinner (s.injEntries 6 (qdrNi q.val) k p b (s.tickN + 40)) = some (i, e, f) → (∀ w ∈ (s.qdr q.val).writes,
      w.tick ≠ s.tickN) → s.bit (aQ_STATUS q.val) fQ_STATUS_SDRAINED →
      Leads (.qdrServiceTick q flips) s (fun t => (t.qdr q.val).reads = (s.qdr q.val).reads ++ [{ tick := s.tickN + 40, payload := none, cause := 8 }] ∧
      s.keepsElse t [.qdrs] (fun _ => false))) ∧
    (∀ (q : Fin 4) (k p b i f : Nat) (e : BitVec 128) (flips : List (Fin 4 × Fin 72)), s.hubRuns → (∀ r ∈ (s.qdr q.val).reads,
      r.tick ≠ s.tickN + 40) → s.bankAt (s.tickN + 40) = some (k, p, b) →
      injWinner (s.injEntries 6 (qdrNi q.val) k p b (s.tickN + 40)) = some (i, e, f) → (∀ w ∈ (s.qdr q.val).writes,
      w.tick ≠ s.tickN) → s.bit (aQ_STATUS q.val) fQ_STATUS_SDRAINED = false → s.qdrReady q.val = false →
      Leads (.qdrServiceTick q flips) s (fun t => (t.qdr q.val).reads = (s.qdr q.val).reads ++ [{ tick := s.tickN + 40, payload := none, cause := 1 }] ∧
      s.keepsElse t [.qdrs] (fun _ => false))) ∧
    (∀ (q : Fin 4) (k p b i f : Nat) (e : BitVec 128) (flips : List (Fin 4 × Fin 72)), s.hubRuns → (∀ r ∈ (s.qdr q.val).reads,
      r.tick ≠ s.tickN + 40) → s.bankAt (s.tickN + 40) = some (k, p, b) →
      injWinner (s.injEntries 6 (qdrNi q.val) k p b (s.tickN + 40)) = some (i, e, f) → (∀ w ∈ (s.qdr q.val).writes,
      w.tick ≠ s.tickN) → s.bit (aQ_STATUS q.val) fQ_STATUS_SDRAINED = false → s.qdrReady q.val →
      svcV (s.svcEntry q.val k false i) = false →
      Leads (.qdrServiceTick q flips) s (fun t => (t.qdr q.val).reads = (s.qdr q.val).reads ++ [{ tick := s.tickN + 40, payload := none, cause := 1 }] ∧
      t.bit (aQ_ERR q.val) fQ_ERR_NOENT ∧ s.keepsElse t [.ev, .hw, .qdrs] (among [aQ_ERR q.val]))) ∧
    (∀ (q : Fin 4) (k p b i f : Nat) (e : BitVec 128) (flips : List (Fin 4 × Fin 72)), s.hubRuns → (∀ r ∈ (s.qdr q.val).reads,
      r.tick ≠ s.tickN + 40) → s.bankAt (s.tickN + 40) = some (k, p, b) →
      injWinner (s.injEntries 6 (qdrNi q.val) k p b (s.tickN + 40)) = some (i, e, f) → (∀ w ∈ (s.qdr q.val).writes,
      w.tick ≠ s.tickN) → s.bit (aQ_STATUS q.val) fQ_STATUS_SDRAINED = false → s.qdrReady q.val →
      svcV (s.svcEntry q.val k false i) → s.qdrCrowded q.val s.tickN →
      Leads (.qdrServiceTick q flips) s (fun t => (t.qdr q.val).reads = (s.qdr q.val).reads ++ [{ tick := s.tickN + 40, payload := none, cause := 1 }] ∧
      t.bit (aQ_ERR q.val) fQ_ERR_CROWD ∧ s.keepsElse t [.ev, .hw, .qdrs] (among [aQ_ERR q.val]))) ∧
    (∀ (q : Fin 4) (k p b i f : Nat) (e : BitVec 128) (flips : List (Fin 4 × Fin 72)) (v : State) (ws : List W64) (w : QdrWrite),
      s.hubRuns → (∀ r ∈ (s.qdr q.val).reads, r.tick ≠ s.tickN + 40) → s.bankAt (s.tickN + 40) = some (k, p, b) →
      injWinner (s.injEntries 6 (qdrNi q.val) k p b (s.tickN + 40)) = some (i, e, f) →
      s.bit (aQ_STATUS q.val) fQ_STATUS_SDRAINED = false → s.qdrReady q.val → svcV (s.svcEntry q.val k false i) →
      s.qdrCrowded q.val s.tickN = false → (s.qdr q.val).writes.filter (fun w => w.tick == s.tickN) = [w] →
      svcV (s.svcEntry q.val w.bank true w.idx) →
      s.qdrWords q.val (4 * (svcUnit (s.svcEntry q.val k false i) f ((s.tickN + 40 - f - b) / p))) (flips.map (fun f => (f.1.val,
      f.2.val))) 4 = (v, some ws) →
      Leads (.qdrServiceTick q flips) s (fun t => (t.qdr q.val).reads = (s.qdr q.val).reads ++ [{ tick := s.tickN + 40, payload := some (BitVec.ofNat 256 (leNat (ws.flatMap (fun w => natLe 8 w.toNat)))), cause := 0 }] ∧
      (t.qdr q.val).lastDone = s.tickN + 1 ∧ (t.qdr q.val).writes = (s.qdr q.val).writes.filter (fun w => w.tick != s.tickN) ∧
      (∀ a, t.byte a = s.byte a) ∧ t.bit (aQ_ERR q.val) fQ_ERR_CROWD ∧ v.keepsElse t [.ev, .hw, .qdrs] (among [aQ_ERR q.val]))) ∧
    (∀ (q : Fin 4) (w : QdrWrite) (flips : List (Fin 4 × Fin 72)), s.hubRuns →
      ((s.qdr q.val).reads.any (fun r => r.tick == s.tickN + 40) ∨
      (s.bankAt (s.tickN + 40)).all (fun x => (injWinner (s.injEntries 6 (qdrNi q.val) x.1 x.2.1 x.2.2 (s.tickN + 40))).isNone)) →
      (s.qdr q.val).writes.filter (fun w => w.tick == s.tickN) = [w] → s.bit (aQ_STATUS q.val) fQ_STATUS_SDRAINED = false →
      s.qdrReady q.val → svcV (s.svcEntry q.val w.bank true w.idx) → (s.qdr q.val).lastDone ≠ s.tickN + 1 →
      s.qdrCrowded q.val s.tickN = false → Leads (.qdrServiceTick q flips) s (fun t => (∀ i, i < 32 →
      t.byte (qdrAddr q.val (32 * (svcUnit (s.svcEntry q.val w.bank true w.idx) w.flit w.period) + i)) = w.payload.extractLsb' (8 * i) 8) ∧
      (∀ i, i < 4 →
      t.byte (qdrChk q.val (4 * (svcUnit (s.svcEntry q.val w.bank true w.idx) w.flit w.period) + i)) = qdrEncode (w.payload.extractLsb' (64 * i) 64)) ∧
      (∀ a,
      ((List.range 32).all (fun i => a != qdrAddr q.val (32 * (svcUnit (s.svcEntry q.val w.bank true w.idx) w.flit w.period) + i)) && (List.range 4).all (fun i => a != qdrChk q.val (4 * (svcUnit (s.svcEntry q.val w.bank true w.idx) w.flit w.period) + i))) = true →
      t.byte a = s.byte a) ∧ (t.qdr q.val).lastDone = s.tickN + 1 ∧
      (t.qdr q.val).writes = (s.qdr q.val).writes.filter (fun w => w.tick != s.tickN) ∧ s.keepsElse t [.qdrs,
      .mem] (fun _ => false))) ∧
    (∀ (q : Fin 4) (w : QdrWrite) (flips : List (Fin 4 × Fin 72)), s.hubRuns →
      ((s.qdr q.val).reads.any (fun r => r.tick == s.tickN + 40) ∨
      (s.bankAt (s.tickN + 40)).all (fun x => (injWinner (s.injEntries 6 (qdrNi q.val) x.1 x.2.1 x.2.2 (s.tickN + 40))).isNone)) →
      (s.qdr q.val).writes.filter (fun w => w.tick == s.tickN) = [w] → s.bit (aQ_STATUS q.val) fQ_STATUS_SDRAINED = false →
      s.qdrReady q.val → svcV (s.svcEntry q.val w.bank true w.idx) = false → Leads (.qdrServiceTick q flips) s (fun t => (∀ a,
      t.byte a = s.byte a) ∧ (t.qdr q.val).writes = (s.qdr q.val).writes.filter (fun w => w.tick != s.tickN) ∧
      t.bit (aQ_ERR q.val) fQ_ERR_NOENT ∧ s.keepsElse t [.ev, .hw, .qdrs] (among [aQ_ERR q.val]))) ∧
    (∀ (q : Fin 4) (w : QdrWrite) (flips : List (Fin 4 × Fin 72)), s.hubRuns →
      ((s.qdr q.val).reads.any (fun r => r.tick == s.tickN + 40) ∨
      (s.bankAt (s.tickN + 40)).all (fun x => (injWinner (s.injEntries 6 (qdrNi q.val) x.1 x.2.1 x.2.2 (s.tickN + 40))).isNone)) →
      (s.qdr q.val).writes.filter (fun w => w.tick == s.tickN) = [w] → s.bit (aQ_STATUS q.val) fQ_STATUS_SDRAINED = false →
      s.qdrReady q.val → svcV (s.svcEntry q.val w.bank true w.idx) → ((s.qdr q.val).lastDone = s.tickN + 1 ∨
      s.qdrCrowded q.val s.tickN) → Leads (.qdrServiceTick q flips) s (fun t => (∀ a, t.byte a = s.byte a) ∧
      (t.qdr q.val).writes = (s.qdr q.val).writes.filter (fun w => w.tick != s.tickN) ∧ t.bit (aQ_ERR q.val) fQ_ERR_CROWD ∧
      s.keepsElse t [.ev, .hw, .qdrs] (among [aQ_ERR q.val]))) ∧
    (∀ (q : Fin 4) (w : QdrWrite) (flips : List (Fin 4 × Fin 72)), s.hubRuns →
      ((s.qdr q.val).reads.any (fun r => r.tick == s.tickN + 40) ∨
      (s.bankAt (s.tickN + 40)).all (fun x => (injWinner (s.injEntries 6 (qdrNi q.val) x.1 x.2.1 x.2.2 (s.tickN + 40))).isNone)) →
      (s.qdr q.val).writes.filter (fun w => w.tick == s.tickN) = [w] → (s.bit (aQ_STATUS q.val) fQ_STATUS_SDRAINED ∨
      s.qdrReady q.val = false) → Leads (.qdrServiceTick q flips) s (fun t => (∀ a, t.byte a = s.byte a) ∧
      (t.qdr q.val).writes = (s.qdr q.val).writes.filter (fun w => w.tick != s.tickN) ∧ s.keepsElse t [.qdrs] (fun _ => false))) ∧
    (∀ (q : Fin 4) (flips : List (Fin 32 × Fin 72)), (s.hubRuns = false ∨ s.mq.find? (forPair q.val) = none) →
      exec (.qdrBeRequest q flips) s = .next (s)) ∧
    (∀ (q : Fin 4) (r : MemReq) (flips : List (Fin 32 × Fin 72)), s.hubRuns → s.mq.find? (forPair q.val) = some r →
      (s.qdrReady q.val = false ∨ s.bit (aQ_CTRL q.val) fQ_CTRL_EN = false ∨
      (s.qdr q.val).disAt.any (fun k => decide (k ≤ r.arrivedAt))) →
      Leads (.qdrBeRequest q flips) s (fun t => t.mq = s.mq.erase r ∧ (∀ a, t.byte a = s.byte a) ∧
      t.rsps = (s.answerReq r 1 ([])).rsps ∧ t.be = (s.answerReq r 1 ([])).be ∧ t.nis = (s.answerReq r 1 ([])).nis ∧
      s.keepsElse t [.be, .ev, .hw, .mq, .nis, .rsps] (niReg))) ∧
    (∀ (q : Fin 4) (r : MemReq) (flips : List (Fin 32 × Fin 72)), s.hubRuns → s.mq.find? (forPair q.val) = some r →
      s.qdrReady q.val → s.bit (aQ_CTRL q.val) fQ_CTRL_EN →
      (s.qdr q.val).disAt.any (fun k => decide (k ≤ r.arrivedAt)) = false → s.bit (aQ_CTRL q.val) fQ_CTRL_DIS →
      s.bit (aQ_CTRL q.val) fQ_CTRL_FORCE → Leads (.qdrBeRequest q flips) s (fun t => t.mq = s.mq.erase r ∧ (∀ a,
      t.byte a = s.byte a) ∧ t.rsps = (s.answerReq r 4 ([])).rsps ∧ t.be = (s.answerReq r 4 ([])).be ∧
      t.nis = (s.answerReq r 4 ([])).nis ∧ s.keepsElse t [.be, .ev, .hw, .mq, .nis, .rsps] (niReg))) ∧
    (∀ (q : Fin 4) (r : MemReq) (flips : List (Fin 32 × Fin 72)) (v : State) (ws : List W64), s.hubRuns →
      s.mq.find? (forPair q.val) = some r → s.qdrReady q.val → s.bit (aQ_CTRL q.val) fQ_CTRL_EN →
      (s.qdr q.val).disAt.any (fun k => decide (k ≤ r.arrivedAt)) = false → (s.bit (aQ_CTRL q.val) fQ_CTRL_DIS = false ∨
      s.bit (aQ_CTRL q.val) fQ_CTRL_FORCE = false) → r.write = false → 0 < r.count →
      s.qdrWords q.val ((qdrLocal r.addr) / 8) (flips.map (fun f => (f.1.val,
      f.2.val))) (((qdrLocal r.addr) + r.count - 1) / 8 + 1 - (qdrLocal r.addr) / 8) = (v, some ws) →
      Leads (.qdrBeRequest q flips) s (fun t => t.mq = s.mq.erase r ∧ (∀ a, t.byte a = s.byte a) ∧
      t.rsps = (s.answerReq r 0 (((ws.flatMap (fun w => natLe 8 w.toNat)).drop ((qdrLocal r.addr) % 8)).take r.count)).rsps ∧
      t.be = (s.answerReq r 0 (((ws.flatMap (fun w => natLe 8 w.toNat)).drop ((qdrLocal r.addr) % 8)).take r.count)).be ∧
      t.nis = (s.answerReq r 0 (((ws.flatMap (fun w => natLe 8 w.toNat)).drop ((qdrLocal r.addr) % 8)).take r.count)).nis ∧
      v.keepsElse t [.be, .ev, .hw, .mq, .nis, .rsps] (niReg))) ∧
    (∀ (q : Fin 4) (r : MemReq) (flips : List (Fin 32 × Fin 72)) (v : State), s.hubRuns → s.mq.find? (forPair q.val) = some r →
      s.qdrReady q.val → s.bit (aQ_CTRL q.val) fQ_CTRL_EN →
      (s.qdr q.val).disAt.any (fun k => decide (k ≤ r.arrivedAt)) = false → (s.bit (aQ_CTRL q.val) fQ_CTRL_DIS = false ∨
      s.bit (aQ_CTRL q.val) fQ_CTRL_FORCE = false) → r.write = false → 0 < r.count →
      s.qdrWords q.val ((qdrLocal r.addr) / 8) (flips.map (fun f => (f.1.val,
      f.2.val))) (((qdrLocal r.addr) + r.count - 1) / 8 + 1 - (qdrLocal r.addr) / 8) = (v, none) →
      Leads (.qdrBeRequest q flips) s (fun t => t.mq = s.mq.erase r ∧ (∀ a, t.byte a = s.byte a) ∧
      t.rsps = (s.answerReq r 1 ([])).rsps ∧ t.be = (s.answerReq r 1 ([])).be ∧ t.nis = (s.answerReq r 1 ([])).nis ∧
      v.keepsElse t [.be, .ev, .hw, .mq, .nis, .rsps] (niReg))) ∧
    (∀ (q : Fin 4) (r : MemReq) (flips : List (Fin 32 × Fin 72)) (d : W64), s.hubRuns → s.mq.find? (forPair q.val) = some r →
      s.qdrReady q.val → s.bit (aQ_CTRL q.val) fQ_CTRL_EN →
      (s.qdr q.val).disAt.any (fun k => decide (k ≤ r.arrivedAt)) = false → (s.bit (aQ_CTRL q.val) fQ_CTRL_DIS = false ∨
      s.bit (aQ_CTRL q.val) fQ_CTRL_FORCE = false) → r.write = false → 0 < r.count → (qdrLocal r.addr) % 8 = 0 → r.count = 8 →
      flips.all (fun f => f.1.val == 0) →
      qdrDecode ((s.qdrRaw q.val ((qdrLocal r.addr) / 8) (flips.map (fun f => f.2.val)))).1 ((s.qdrRaw q.val ((qdrLocal r.addr) / 8) (flips.map (fun f => f.2.val)))).2 = (d,
      1) → Leads (.qdrBeRequest q flips) s (fun t => t.rsps = (s.answerReq r 0 (natLe 8 d.toNat)).rsps ∧
      t.be = (s.answerReq r 0 (natLe 8 d.toNat)).be ∧ t.nis = (s.answerReq r 0 (natLe 8 d.toNat)).nis ∧
      t.bit (aQ_ERR q.val) fQ_ERR_CE ∧ t.reg (aQ_EADDR q.val) = BitVec.ofNat 32 ((qdrLocal r.addr) / 8) ∧
      t.reg (aQ_UE q.val) = s.reg (aQ_UE q.val) ∧ s.keepsElse t [.be, .ev, .hw, .mq, .nis, .rsps] (fun a => among [aQ_CNT q.val,
      aQ_UE q.val, aQ_EADDR q.val, aQ_ERR q.val] a || niReg a))) ∧
    (∀ (q : Fin 4) (r : MemReq) (flips : List (Fin 32 × Fin 72)) (d : W64), s.hubRuns → s.mq.find? (forPair q.val) = some r →
      s.qdrReady q.val → s.bit (aQ_CTRL q.val) fQ_CTRL_EN →
      (s.qdr q.val).disAt.any (fun k => decide (k ≤ r.arrivedAt)) = false → (s.bit (aQ_CTRL q.val) fQ_CTRL_DIS = false ∨
      s.bit (aQ_CTRL q.val) fQ_CTRL_FORCE = false) → r.write = false → 0 < r.count → (qdrLocal r.addr) % 8 = 0 → r.count = 8 →
      flips.all (fun f => f.1.val == 0) →
      qdrDecode ((s.qdrRaw q.val ((qdrLocal r.addr) / 8) (flips.map (fun f => f.2.val)))).1 ((s.qdrRaw q.val ((qdrLocal r.addr) / 8) (flips.map (fun f => f.2.val)))).2 = (d,
      2) → Leads (.qdrBeRequest q flips) s (fun t => t.rsps = (s.answerReq r 1 ([])).rsps ∧ t.be = (s.answerReq r 1 ([])).be ∧
      t.nis = (s.answerReq r 1 ([])).nis ∧ t.bit (aQ_ERR q.val) fQ_ERR_UE ∧
      t.reg (aQ_EADDR q.val) = BitVec.ofNat 32 (2 ^ 31 + (qdrLocal r.addr) / 8) ∧ t.reg (aQ_CNT q.val) = s.reg (aQ_CNT q.val) ∧
      s.keepsElse t [.be, .ev, .hw, .mq, .nis, .rsps] (fun a => among [aQ_CNT q.val, aQ_UE q.val, aQ_EADDR q.val,
      aQ_ERR q.val] a || niReg a))) ∧
    (∀ (q : Fin 4) (r : MemReq), s.hubRuns → s.mq.find? (forPair q.val) = some r → s.qdrReady q.val →
      s.bit (aQ_CTRL q.val) fQ_CTRL_EN → (s.qdr q.val).disAt.any (fun k => decide (k ≤ r.arrivedAt)) = false →
      (s.bit (aQ_CTRL q.val) fQ_CTRL_DIS = false ∨ s.bit (aQ_CTRL q.val) fQ_CTRL_FORCE = false) → r.write → r.count ≤ 256 →
      0 < r.count → (((qdrLocal r.addr) % 8 = 0 ∧ r.count % 8 = 0) ∨ [(qdrLocal r.addr) / 8,
      ((qdrLocal r.addr) + r.count - 1) / 8].all (fun j => (qdrDecode (s.qdrRaw q.val j []).1 (s.qdrRaw q.val j []).2).2 == 0)) →
      Leads (.qdrBeRequest q []) s (fun t => t.mq = s.mq.erase r ∧ (∀ i, i < r.count →
      t.byte (qdrAddr q.val ((qdrLocal r.addr) + i)) = r.data.getD i 0#8) ∧ (∀ a,
      ((List.range r.count).all (fun i => a != qdrAddr q.val ((qdrLocal r.addr) + i)) && (List.range (((qdrLocal r.addr) + r.count - 1) / 8 + 1 - (qdrLocal r.addr) / 8)).all (fun i => a != qdrChk q.val ((qdrLocal r.addr) / 8 + i))) = true →
      t.byte a = s.byte a) ∧ t.rsps = (s.answerReq r 0 ([])).rsps ∧ t.be = (s.answerReq r 0 ([])).be ∧
      t.nis = (s.answerReq r 0 ([])).nis ∧ s.keepsElse t [.be, .ev, .hw, .mq, .nis, .rsps, .mem] (niReg))) ∧
    (∀ (q : Fin 4) (r : MemReq) (flips : List (Fin 32 × Fin 72)) (v : State), s.hubRuns → s.mq.find? (forPair q.val) = some r →
      s.qdrReady q.val → s.bit (aQ_CTRL q.val) fQ_CTRL_EN →
      (s.qdr q.val).disAt.any (fun k => decide (k ≤ r.arrivedAt)) = false → (s.bit (aQ_CTRL q.val) fQ_CTRL_DIS = false ∨
      s.bit (aQ_CTRL q.val) fQ_CTRL_FORCE = false) → r.write → r.count ≤ 256 → 0 < r.count → ((qdrLocal r.addr) % 8 ≠ 0 ∨
      r.count ≠ 8) → (qdrLocal r.addr) % 8 + r.count ≤ 8 → flips.all (fun f => f.1.val == 0) →
      s.qdrWord q.val ((qdrLocal r.addr) / 8) (flips.map (fun f => f.2.val)) = (v, none) →
      Leads (.qdrBeRequest q flips) s (fun t => t.mq = s.mq.erase r ∧ (∀ a, t.byte a = s.byte a) ∧
      t.rsps = (s.answerReq r 1 ([])).rsps ∧ t.be = (s.answerReq r 1 ([])).be ∧ t.nis = (s.answerReq r 1 ([])).nis ∧
      v.keepsElse t [.be, .ev, .hw, .mq, .nis, .rsps] (niReg))) ∧
    (∀ (q : Fin 4) (r : MemReq) (flips : List (Fin 32 × Fin 72)) (v : State) (d : W64), s.hubRuns →
      s.mq.find? (forPair q.val) = some r → s.qdrReady q.val → s.bit (aQ_CTRL q.val) fQ_CTRL_EN →
      (s.qdr q.val).disAt.any (fun k => decide (k ≤ r.arrivedAt)) = false → (s.bit (aQ_CTRL q.val) fQ_CTRL_DIS = false ∨
      s.bit (aQ_CTRL q.val) fQ_CTRL_FORCE = false) → r.write → r.count ≤ 256 → 0 < r.count → ((qdrLocal r.addr) % 8 ≠ 0 ∨
      r.count ≠ 8) → (qdrLocal r.addr) % 8 + r.count ≤ 8 → flips.all (fun f => f.1.val == 0) →
      s.qdrWord q.val ((qdrLocal r.addr) / 8) (flips.map (fun f => f.2.val)) = (v, some d) →
      Leads (.qdrBeRequest q flips) s (fun t => t.mq = s.mq.erase r ∧ (∀ i, i < r.count →
      t.byte (qdrAddr q.val ((qdrLocal r.addr) + i)) = r.data.getD i 0#8) ∧ (∀ i, i < 8 → (i < (qdrLocal r.addr) % 8 ∨
      (qdrLocal r.addr) % 8 + r.count ≤ i) → t.byte (qdrAddr q.val ((qdrLocal r.addr) / 8 * 8 + i)) = d.extractLsb' (8 * i) 8) ∧
      t.rsps = (s.answerReq r 0 ([])).rsps ∧ t.be = (s.answerReq r 0 ([])).be ∧ t.nis = (s.answerReq r 0 ([])).nis ∧
      v.keepsElse t [.be, .ev, .hw, .mq, .nis, .rsps, .mem] (niReg)))

/-- RETRAIN starts training of a pair that is not powered down; it ends ready, or failed with TRN_FAIL. SDIS asks the service
and DIS the pair to drain, EN staying 1 until then; EN alone clears the drained bits. QS_DATA_1 stores the entry of the shadow
bank, and is refused in the active one. Q_LB.GO clears the results and is busy, refused at depth 0 or while busy; its end
shows the failed bits. A new depth needs the pair quiet; depth 0 trains. Model choices it rests on: log entries 43, 86.
(12_external_memory.md R274, R277, R278, R283, R285, 18_test_and_loopbacks.md R418) -/
def Obligations.QdrControl : Prop :=
  ∀ s : State, s.Inv →
    (∀ (m : Rm) (q : Fin 4), s.ringReady m (aQ_CTRL q.val) → s.qdrState q.val ≠ 3 →
      Writes (.qdrRetrain m q) m (aQ_CTRL q.val) (putF (s.reg (aQ_CTRL q.val)) fQ_CTRL_RETRAIN 1) .ok s (fun u => u.qdrState q.val = 0 ∧
      u.bit (aQ_CTRL q.val) fQ_CTRL_EN = s.bit (aQ_CTRL q.val) fQ_CTRL_EN ∧ s.keepsElse u [.qdrs] (among [(aQ_CTRL q.val),
      (aQ_STATUS q.val)]))) ∧
    (∀ (m : Rm) (q : Fin 4), s.ringReady m (aQ_CTRL q.val) → s.qdrState q.val = 3 →
      Writes (.qdrRetrain m q) m (aQ_CTRL q.val) (putF (s.reg (aQ_CTRL q.val)) fQ_CTRL_RETRAIN 1) .ok s (fun u => u.qdrState q.val = 3 ∧
      s.keepsElse u [.qdrs] (among [(aQ_CTRL q.val), (aQ_STATUS q.val)]))) ∧
    (∀ (q : Fin 4), s.hubRuns → s.qdrState q.val = 0 → s.domOn (36 + q.val) → s.fld (aQ_LB q.val) fQ_LB_DEPTH = 0 →
      exec (.qdrTrainEnd q true) s = .next (s.setFld (aQ_STATUS q.val) fQ_STATUS_STATE 1)) ∧
    (∀ (q : Fin 4), s.hubRuns → s.qdrState q.val = 0 → s.domOn (36 + q.val) → s.fld (aQ_LB q.val) fQ_LB_DEPTH = 0 →
      Leads (.qdrTrainEnd q false) s (fun t => t.qdrState q.val = 2 ∧ t.bit (aQ_ERR q.val) fQ_ERR_TRN_FAIL ∧
      (s.bit (aQ_ERR q.val) fQ_ERR_TRN_FAIL = false → t.showsEvent (320 + 8 * q.val + 4)) ∧ s.keepsElse t [.ev,
      .hw] (among [(aQ_STATUS q.val), aQ_ERR q.val]))) ∧
    (∀ (q : Fin 4) (k : Bool), (s.hubRuns = false ∨ s.qdrState q.val ≠ 0 ∨ s.domOn (36 + q.val) = false ∨
      s.fld (aQ_LB q.val) fQ_LB_DEPTH ≠ 0) → exec (.qdrTrainEnd q k) s = .next (s)) ∧
    (∀ (m : Rm) (q : Fin 4) (v : W32), s.ringReady m (aQS_DATA_1 q.val) → s.svcValid q.val = false →
      Writes (.qsDataWrite m q v) m (aQS_DATA_1 q.val) v .decode s (fun u => u = s)) ∧
    (∀ (m : Rm) (q : Fin 4) (v : W32), s.ringReady m (aQS_DATA_1 q.val) → s.svcValid q.val → s.svcWritable q.val →
      Writes (.qsDataWrite m q v) m (aQS_DATA_1 q.val) v .ok s (fun u => tget (fun _ => 0#64) u.qdrSvc (s.svcAt q.val) = v ++ s.reg (aQS_DATA_0 q.val) ∧
      (∀ k, k ≠ s.svcAt q.val → tget (fun _ => 0#64) u.qdrSvc k = tget (fun _ => 0#64) s.qdrSvc k) ∧
      (s.bit (aQS_ADDR q.val) fQS_ADDR_AINC = false → u.regs = s.regs) ∧ (s.bit (aQS_ADDR q.val) fQS_ADDR_AINC →
      u.fld (aQS_ADDR q.val) fQS_ADDR_INDEX = (s.fld (aQS_ADDR q.val) fQS_ADDR_INDEX + 1) % 4096) ∧
      s.keepsElse u [.qdrSvc] (among [aQS_ADDR q.val]))) ∧
    (∀ (m : Rm) (q : Fin 4) (v : W32), s.ringReady m (aQS_DATA_1 q.val) → s.svcValid q.val → s.svcWritable q.val = false →
      Writes (.qsDataWrite m q v) m (aQS_DATA_1 q.val) v .refused s (fun u => u = s)) ∧
    (∀ (m : Rm) (q : Fin 4), s.ringReady m (aQ_CTRL q.val) → s.bit (aQ_CTRL q.val) fQ_CTRL_RETRAIN = false →
      Writes (.qdrSlotDisable m q) m (aQ_CTRL q.val) (putF (s.reg (aQ_CTRL q.val)) fQ_CTRL_SDIS 1) .ok s (fun u => u.bit (aQ_CTRL q.val) fQ_CTRL_SDIS ∧
      u.bit (aQ_CTRL q.val) fQ_CTRL_EN = s.bit (aQ_CTRL q.val) fQ_CTRL_EN ∧ s.keepsElse u [.qdrs] (among [(aQ_CTRL q.val)]))) ∧
    (∀ (m : Rm) (q : Fin 4) (f : Bool), s.ringReady m (aQ_CTRL q.val) → s.bit (aQ_CTRL q.val) fQ_CTRL_RETRAIN = false →
      Writes (.qdrDisable m q f) m (aQ_CTRL q.val) (putF (putF (s.reg (aQ_CTRL q.val)) fQ_CTRL_DIS 1) fQ_CTRL_FORCE (if f then 1 else 0)) .ok s (fun u => u.bit (aQ_CTRL q.val) fQ_CTRL_DIS ∧
      u.bit (aQ_CTRL q.val) fQ_CTRL_FORCE = f ∧ u.bit (aQ_CTRL q.val) fQ_CTRL_EN = s.bit (aQ_CTRL q.val) fQ_CTRL_EN ∧
      (u.qdr q.val).disAt = some ((s.qdr q.val).disAt.getD s.now) ∧ s.keepsElse u [.qdrs] (among [(aQ_CTRL q.val)]))) ∧
    (∀ (m : Rm) (q : Fin 4), s.ringReady m (aQ_CTRL q.val) →
      Writes (.qdrEnable m q) m (aQ_CTRL q.val) 1#32 .ok s (fun u => u.reg (aQ_CTRL q.val) = 1#32 ∧
      u.bit (aQ_STATUS q.val) fQ_STATUS_DRAINED = false ∧ u.bit (aQ_STATUS q.val) fQ_STATUS_SDRAINED = false ∧
      (u.qdr q.val).disAt = none ∧ u.qdrState q.val = s.qdrState q.val ∧ s.keepsElse u [.qdrs] (among [(aQ_CTRL q.val),
      (aQ_STATUS q.val)]))) ∧
    (∀ (m : Rm) (q : Fin 4), s.ringReady m (aQ_LB q.val) → s.fld (aQ_LB q.val) fQ_LB_DEPTH ≠ 0 →
      s.bit (aQ_LB q.val) fQ_LB_BUSY = false →
      Writes (.qdrLbGo m q) m (aQ_LB q.val) (putF (BitVec.ofNat 32 (s.fld (aQ_LB q.val) fQ_LB_DEPTH)) fQ_LB_GO 1) .ok s (fun u => u.bit (aQ_LB q.val) fQ_LB_BUSY ∧
      u.fld (aQ_LB q.val) fQ_LB_DEPTH = s.fld (aQ_LB q.val) fQ_LB_DEPTH ∧ (∀ k, k < 5 → u.reg (aQ_LB_FAIL q.val k) = 0#32) ∧
      s.keepsElse u [.hw] (among ((aQ_LB q.val) :: (List.range 5).map (aQ_LB_FAIL q.val))))) ∧
    (∀ (m : Rm) (q : Fin 4), s.ringReady m (aQ_LB q.val) → (s.fld (aQ_LB q.val) fQ_LB_DEPTH = 0 ∨
      s.bit (aQ_LB q.val) fQ_LB_BUSY) →
      Writes (.qdrLbGo m q) m (aQ_LB q.val) (putF (BitVec.ofNat 32 (s.fld (aQ_LB q.val) fQ_LB_DEPTH)) fQ_LB_GO 1) .refused s (fun u => u = s)) ∧
    (∀ (q : Fin 4) (v : BitVec 144), s.hubRuns → s.bit (aQ_LB q.val) fQ_LB_BUSY →
      Leads (.qdrLbDone q v) s (fun t => t.bit (aQ_LB q.val) fQ_LB_BUSY = false ∧ t.bit (aQ_LB q.val) fQ_LB_DONE ∧ (∀ k, k < 5 →
      t.reg (aQ_LB_FAIL q.val k) = v.extractLsb' (32 * k) 32) ∧
      s.keepsElse t [.hw] (among ((aQ_LB q.val) :: (List.range 5).map (aQ_LB_FAIL q.val))))) ∧
    (∀ (q : Fin 4) (v : BitVec 144), (s.hubRuns = false ∨ s.bit (aQ_LB q.val) fQ_LB_BUSY = false) →
      exec (.qdrLbDone q v) s = .next (s)) ∧
    (∀ (m : Rm) (q : Fin 4) (d : BitVec 2), s.ringReady m (aQ_LB q.val) → d.toNat = s.fld (aQ_LB q.val) fQ_LB_DEPTH →
      Writes (.qdrLbDepthWrite m q d) m (aQ_LB q.val) (d.setWidth 32) .ok s (fun u => u.fld (aQ_LB q.val) fQ_LB_DEPTH = d.toNat ∧
      u.bit (aQ_LB q.val) fQ_LB_BUSY = s.bit (aQ_LB q.val) fQ_LB_BUSY ∧ s.keepsElse u [] (among [(aQ_LB q.val)]))) ∧
    (∀ (m : Rm) (q : Fin 4), s.ringReady m (aQ_LB q.val) → s.qdrQuiet q.val → s.fld (aQ_LB q.val) fQ_LB_DEPTH ≠ 0 →
      s.qdrState q.val = 3 →
      Writes (.qdrLbDepthWrite m q 0#2) m (aQ_LB q.val) 0#32 .ok s (fun u => u.fld (aQ_LB q.val) fQ_LB_DEPTH = 0 ∧
      u.bit (aQ_LB q.val) fQ_LB_BUSY = false ∧ u.qdrState q.val = 3 ∧ s.keepsElse u [] (among [(aQ_LB q.val)]))) ∧
    (∀ (m : Rm) (q : Fin 4) (d : BitVec 2), s.ringReady m (aQ_LB q.val) → s.qdrQuiet q.val → d ≠ 0#2 →
      Writes (.qdrLbDepthWrite m q d) m (aQ_LB q.val) (d.setWidth 32) .ok s (fun u => u.fld (aQ_LB q.val) fQ_LB_DEPTH = d.toNat ∧
      s.keepsElse u [] (among [(aQ_LB q.val)]))) ∧
    (∀ (m : Rm) (q : Fin 4), s.ringReady m (aQ_LB q.val) → s.qdrQuiet q.val → s.fld (aQ_LB q.val) fQ_LB_DEPTH ≠ 0 →
      s.qdrState q.val ≠ 3 →
      Writes (.qdrLbDepthWrite m q 0#2) m (aQ_LB q.val) 0#32 .ok s (fun u => u.fld (aQ_LB q.val) fQ_LB_DEPTH = 0 ∧
      u.bit (aQ_LB q.val) fQ_LB_BUSY = false ∧ u.qdrState q.val = 0 ∧ s.keepsElse u [] (among [(aQ_LB q.val),
      (aQ_STATUS q.val)]))) ∧
    (∀ (m : Rm) (q : Fin 4) (d : BitVec 2), s.ringReady m (aQ_LB q.val) → s.qdrQuiet q.val = false →
      d.toNat ≠ s.fld (aQ_LB q.val) fQ_LB_DEPTH →
      Writes (.qdrLbDepthWrite m q d) m (aQ_LB q.val) (d.setWidth 32) .refused s (fun u => u = s))

/-- A set that is not ready, disabled, unfitted there or still being filled answers 1, under FORCE 4, and stores nothing. Else
the request R288 picks is performed. With the mix off a whole-line write stores the line with its check symbols, a partial one
merges it with the line read, a read answers the bytes asked for; corrected symbols are counted, an uncorrectable line answers
1. With the mix on the outcomes of R312 apply: zeros for a line never written, the mixed line under the next counter for a
write, the unmixed bytes for a read, and status 1 with its KM_ERR bit for metadata lines, unusable keys, uncorrectable
metadata, an ended counter, another key ID and a wrong tag. Model choices it rests on: log entries 88, 98, 127.
(12_external_memory.md R287 to R292, R296, R300, 13_ecc_and_keyed_mix.md R302, R303, R307 to R314) -/
def Obligations.DramRequests : Prop :=
  ∀ s : State, s.Inv →
    (∀ (d : Fin 4) (e f : List SymErr), (s.hubRuns = false ∨ s.mq.any (forSet d.val) = false) →
      exec (.dramRequest d e f) s = .next (s)) ∧
    (∀ (d : Fin 4) (e f : List SymErr), s.mq.any (s.dramTurnsAway d.val) = false → (s.bit (aDR_CTRL d.val) fDR_CTRL_DIS = false ∨
      s.bit (aDR_CTRL d.val) fDR_CTRL_FORCE = false) → s.dramNext d.val = none → exec (.dramRequest d e f) s = .next (s)) ∧
    (∀ (d : Fin 4) (r : MemReq) (e f : List SymErr), s.hubRuns → s.mq.find? (s.dramTurnsAway d.val) = some r →
      Leads (.dramRequest d e f) s (fun t => t.mq = s.mq.erase r ∧ (∀ a, t.byte a = s.byte a) ∧
      t.rsps = (s.answerReq r 1 ([])).rsps ∧ t.be = (s.answerReq r 1 ([])).be ∧ t.nis = (s.answerReq r 1 ([])).nis ∧
      (s.dramState d.val ≠ 3 → t.dsets = s.dsets) ∧ s.keepsElse t [.be, .dsets, .ev, .hw, .mq, .nis,
      .rsps] (fun a => inSet d.val a || niReg a))) ∧
    (∀ (d : Fin 4) (r : MemReq) (e f : List SymErr), s.hubRuns → s.mq.any (s.dramTurnsAway d.val) = false →
      s.bit (aDR_CTRL d.val) fDR_CTRL_DIS → s.bit (aDR_CTRL d.val) fDR_CTRL_FORCE → s.mq.find? (forSet d.val) = some r →
      Leads (.dramRequest d e f) s (fun t => t.mq = s.mq.erase r ∧ (∀ a, t.byte a = s.byte a) ∧
      t.rsps = (s.answerReq r 4 ([])).rsps ∧ t.be = (s.answerReq r 4 ([])).be ∧ t.nis = (s.answerReq r 4 ([])).nis ∧
      s.keepsElse t [.be, .dsets, .ev, .hw, .mq, .nis, .rsps] (fun a => inSet d.val a || niReg a))) ∧
    (∀ (d : Fin 4) (r : MemReq) (p : Bool) (e f : List SymErr), s.dramServes d.val r p → s.bit aKM_CTRL fKM_CTRL_EN = false →
      r.write → wholeLine r → Leads (.dramRequest d e f) s (fun t => t.mq = s.mq.erase r ∧ (∀ i, i < 256 →
      t.byte (lineOf r + i) = r.data.getD i 0#8) ∧ t.bytes (dramChk (lineOf r)) 64 = rsEncode (t.bytes (lineOf r) 256) ∧ (∀ b,
      ((b < lineOf r ∨ lineOf r + 256 ≤ b) ∧ (b < dramChk (lineOf r) ∨ dramChk (lineOf r) + 64 ≤ b)) → t.byte b = s.byte b) ∧
      t.rsps = (s.answerReq r 0 ([])).rsps ∧ t.be = (s.answerReq r 0 ([])).be ∧ t.nis = (s.answerReq r 0 ([])).nis ∧
      s.keepsElse t [.be, .dsets, .ev, .hw, .mq, .nis, .rsps, .mem] (fun a => inSet d.val a || niReg a))) ∧
    (∀ (d : Fin 4) (r : MemReq) (p : Bool) (e f : List SymErr) (x y l : List Byte) (ds : List Nat), s.dramServes d.val r p →
      s.bit aKM_CTRL fKM_CTRL_EN = false → r.write → wholeLine r = false → e.foldl addSymErr (s.bytes (lineOf r) 256,
      s.bytes (dramChk (lineOf r)) 64) = (x, y) → rsLine x y (s.erased d.val) = (l, ds, false) →
      Leads (.dramRequest d e f) s (fun t => t.mq.take (s.mq.erase r).length = s.mq.erase r ∧ (ds = [] → t.mq = s.mq.erase r) ∧
      (∀ i, i < 256 → t.byte (lineOf r + i) = (if r.addr % 256 ≤ i ∧
      i < r.addr % 256 + r.count then r.data.getD (i - r.addr % 256) 0#8 else l.getD i 0#8)) ∧
      t.bytes (dramChk (lineOf r)) 64 = rsEncode (t.bytes (lineOf r) 256) ∧ (∀ b, ((b < lineOf r ∨ lineOf r + 256 ≤ b) ∧
      (b < dramChk (lineOf r) ∨ dramChk (lineOf r) + 64 ≤ b)) → t.byte b = s.byte b) ∧ t.rsps = (s.answerReq r 0 ([])).rsps ∧
      t.be = (s.answerReq r 0 ([])).be ∧ t.nis = (s.answerReq r 0 ([])).nis ∧ (ds ≠ [] → t.bit (aDR_FLAG d.val) fDR_FLAG_CE) ∧
      s.keepsElse t [.be, .dsets, .ev, .hw, .mq, .nis, .rsps, .mem] (fun a => inSet d.val a || niReg a))) ∧
    (∀ (d : Fin 4) (r : MemReq) (p : Bool) (e f : List SymErr) (x y l : List Byte) (ds : List Nat), s.dramServes d.val r p →
      s.bit aKM_CTRL fKM_CTRL_EN = false → r.write = false → e.foldl addSymErr (s.bytes (lineOf r) 256,
      s.bytes (dramChk (lineOf r)) 64) = (x, y) → rsLine x y (s.erased d.val) = (l, ds, false) →
      Leads (.dramRequest d e f) s (fun t => t.mq.take (s.mq.erase r).length = s.mq.erase r ∧ (ds = [] → t.mq = s.mq.erase r) ∧
      (∀ a, t.byte a = s.byte a) ∧ t.rsps = (s.answerReq r 0 ((l.drop (r.addr % 256)).take r.count)).rsps ∧
      t.be = (s.answerReq r 0 ((l.drop (r.addr % 256)).take r.count)).be ∧
      t.nis = (s.answerReq r 0 ((l.drop (r.addr % 256)).take r.count)).nis ∧ (ds ≠ [] → t.bit (aDR_FLAG d.val) fDR_FLAG_CE) ∧
      s.keepsElse t [.be, .dsets, .ev, .hw, .mq, .nis, .rsps] (fun a => inSet d.val a || niReg a))) ∧
    (∀ (d : Fin 4) (r : MemReq) (p : Bool) (e f : List SymErr) (x y l : List Byte) (ds : List Nat), s.dramServes d.val r p →
      s.bit aKM_CTRL fKM_CTRL_EN = false → (r.write = false ∨ wholeLine r = false) → e.foldl addSymErr (s.bytes (lineOf r) 256,
      s.bytes (dramChk (lineOf r)) 64) = (x, y) → rsLine x y (s.erased d.val) = (l, ds, true) →
      Leads (.dramRequest d e f) s (fun t => t.mq.take (s.mq.erase r).length = s.mq.erase r ∧ (∀ a, t.byte a = s.byte a) ∧
      t.rsps = (s.answerReq r 1 ([])).rsps ∧ t.be = (s.answerReq r 1 ([])).be ∧ t.nis = (s.answerReq r 1 ([])).nis ∧
      t.bit (aDR_FLAG d.val) fDR_FLAG_UE ∧
      t.fld (aDR_UE d.val) fDR_UE_COUNT = min 65535 (s.fld (aDR_UE d.val) fDR_UE_COUNT + 1) ∧ s.keepsElse t [.be, .dsets, .ev,
      .hw, .mq, .nis, .rsps] (fun a => inSet d.val a || niReg a))) ∧
    (∀ (d : Fin 4) (r : MemReq) (p : Bool) (e f : List SymErr), s.dramServes d.val r p → s.bit aKM_CTRL fKM_CTRL_EN →
      s.metaFirst ≤ dramLine (lineOf r) → Leads (.dramRequest d e f) s (fun t => t.mq = s.mq.erase r ∧ (∀ a,
      t.byte a = s.byte a) ∧ t.rsps = (s.answerReq r 1 ([])).rsps ∧ t.be = (s.answerReq r 1 ([])).be ∧
      t.nis = (s.answerReq r 1 ([])).nis ∧ t.bit aKM_ERR ⟨4, 1⟩ ∧ t.reg aKM_EINFO = BitVec.ofNat 32 (r.master % 256 * 256 + 4) ∧
      s.keepsElse t [.be, .dsets, .ev, .hw, .mq, .nis, .rsps] (fun a => inSet d.val a || niReg a || inBlock 6 0x38 a))) ∧
    (∀ (d : Fin 4) (r : MemReq) (p : Bool) (e f : List SymErr), s.dramServes d.val r p → s.bit aKM_CTRL fKM_CTRL_EN →
      dramLine (lineOf r) < s.metaFirst → s.slotUsable (bitsOf r.addr 43 40) = false →
      Leads (.dramRequest d e f) s (fun t => t.mq.take (s.mq.erase r).length = s.mq.erase r ∧ (¬ (r.write ∧
      wholeLine r = false) → t.mq = s.mq.erase r) ∧ (∀ a, t.byte a = s.byte a) ∧ t.rsps = (s.answerReq r 1 ([])).rsps ∧
      t.be = (s.answerReq r 1 ([])).be ∧ t.nis = (s.answerReq r 1 ([])).nis ∧ t.bit aKM_ERR ⟨2, 1⟩ ∧
      t.reg aKM_EINFO = BitVec.ofNat 32 (r.master % 256 * 256 + 2) ∧ s.keepsElse t [.be, .dsets, .ev, .hw, .mq, .nis, .rsps,
      .free] (fun a => inSet d.val a || niReg a || inBlock 6 0x38 a))) ∧
    (∀ (d : Fin 4) (r : MemReq) (p : Bool) (e f : List SymErr) (v : State), s.dramServes d.val r p → s.bit aKM_CTRL fKM_CTRL_EN →
      dramLine (lineOf r) < s.metaFirst → s.slotUsable (bitsOf r.addr 43 40) → s.kmFetch d.val (s.metaOf r) r.master p f = (v,
      none) → Leads (.dramRequest d e f) s (fun t => (∀ b, t.byte b = v.byte b) ∧ t.rsps = (s.answerReq r 1 ([])).rsps ∧
      t.be = (s.answerReq r 1 ([])).be ∧ t.nis = (s.answerReq r 1 ([])).nis ∧ t.bit aKM_ERR ⟨5, 1⟩ ∧
      t.reg aKM_EINFO = BitVec.ofNat 32 (r.master % 256 * 256 + 5) ∧ v.keepsElse t [.be, .dsets, .ev, .hw, .mq, .nis, .rsps,
      .free] (fun a => inSet d.val a || niReg a || inBlock 6 0x38 a))) ∧
    (∀ (d : Fin 4) (r : MemReq) (p : Bool) (e f : List SymErr) (v : State) (ln : List Byte) (ctr : W64) (tag : W32) (key : Nat),
      s.dramServes d.val r p → s.bit aKM_CTRL fKM_CTRL_EN → dramLine (lineOf r) < s.metaFirst →
      s.slotUsable (bitsOf r.addr 43 40) → s.kmFetch d.val (s.metaOf r) r.master p f = (v, some ln) →
      kmEntry ln (dramLine (lineOf r) % 20) = (ctr, tag, key) → ctr = 0#64 → r.write = false →
      Leads (.dramRequest d e f) s (fun t => (∀ b, t.byte b = v.byte b) ∧
      t.rsps = (s.answerReq r 0 (List.replicate r.count 0#8)).rsps ∧ t.be = (s.answerReq r 0 (List.replicate r.count 0#8)).be ∧
      t.nis = (s.answerReq r 0 (List.replicate r.count 0#8)).nis ∧ v.keepsElse t [.be, .dsets, .ev, .hw, .mq, .nis,
      .rsps] (fun a => inSet d.val a || niReg a || inBlock 6 0x38 a))) ∧
    (∀ (d : Fin 4) (r : MemReq) (p : Bool) (e f : List SymErr) (v : State) (ln : List Byte) (ctr : W64) (tag : W32) (key : Nat),
      s.dramServes d.val r p → s.bit aKM_CTRL fKM_CTRL_EN → dramLine (lineOf r) < s.metaFirst →
      s.slotUsable (bitsOf r.addr 43 40) → s.kmFetch d.val (s.metaOf r) r.master p f = (v, some ln) →
      kmEntry ln (dramLine (lineOf r) % 20) = (ctr, tag, key) → r.write → (ctr = 0#64 ∨ wholeLine r) →
      ctr ≠ 0xFFFFFFFFFFFFFFFF#64 → Leads (.dramRequest d e f) s (fun t => (∀ i, i < 256 →
      t.byte (lineOf r + i) = (mixLine (s.slotKey (bitsOf r.addr 43 40)) (lineOf r / 256) (ctr + 1) (mergeLine [] r)).getD i 0#8) ∧
      (∀ b, ((b < lineOf r ∨ lineOf r + 256 ≤ b) ∧ (b < dramChk (lineOf r) ∨ dramChk (lineOf r) + 64 ≤ b)) →
      t.byte b = v.byte b) ∧ t.km = v.km.map (fun c => if c.set = d.val ∧
      c.line = s.metaOf r then { c with data := kmPut c.data (dramLine (lineOf r) % 20) (ctr + 1) (lineTag (s.slotKey (bitsOf r.addr 43 40)) (lineOf r / 256) (ctr + 1) (mixLine (s.slotKey (bitsOf r.addr 43 40)) (lineOf r / 256) (ctr + 1) (mergeLine [] r))) (bitsOf r.addr 43 40), dirty := true } else c) ∧
      t.rsps = (s.answerReq r 0 ([])).rsps ∧ t.be = (s.answerReq r 0 ([])).be ∧ t.nis = (s.answerReq r 0 ([])).nis ∧
      v.keepsElse t [.be, .dsets, .ev, .hw, .mq, .nis, .rsps, .mem,
      .km] (fun a => inSet d.val a || niReg a || inBlock 6 0x38 a))) ∧
    (∀ (d : Fin 4) (r : MemReq) (p : Bool) (e f : List SymErr) (v : State) (ln : List Byte) (ctr : W64) (tag : W32) (key : Nat),
      s.dramServes d.val r p → s.bit aKM_CTRL fKM_CTRL_EN → dramLine (lineOf r) < s.metaFirst →
      s.slotUsable (bitsOf r.addr 43 40) → s.kmFetch d.val (s.metaOf r) r.master p f = (v, some ln) →
      kmEntry ln (dramLine (lineOf r) % 20) = (ctr, tag, key) → r.write → ctr = 0xFFFFFFFFFFFFFFFF#64 →
      Leads (.dramRequest d e f) s (fun t => (∀ b, t.byte b = v.byte b) ∧ t.rsps = (s.answerReq r 1 ([])).rsps ∧
      t.be = (s.answerReq r 1 ([])).be ∧ t.nis = (s.answerReq r 1 ([])).nis ∧ t.bit aKM_ERR ⟨3, 1⟩ ∧
      t.reg aKM_EINFO = BitVec.ofNat 32 (r.master % 256 * 256 + 3) ∧ t.showsEvent 354 ∧ v.keepsElse t [.be, .dsets, .ev, .hw,
      .mq, .nis, .rsps, .free] (fun a => inSet d.val a || niReg a || inBlock 6 0x38 a))) ∧
    (∀ (d : Fin 4) (r : MemReq) (p : Bool) (e f : List SymErr) (v : State) (ln : List Byte) (ctr : W64) (tag : W32) (key : Nat),
      s.dramServes d.val r p → s.bit aKM_CTRL fKM_CTRL_EN → dramLine (lineOf r) < s.metaFirst →
      s.slotUsable (bitsOf r.addr 43 40) → s.kmFetch d.val (s.metaOf r) r.master p f = (v, some ln) →
      kmEntry ln (dramLine (lineOf r) % 20) = (ctr, tag, key) → ctr ≠ 0#64 → (r.write = false ∨ (wholeLine r = false ∧
      ctr ≠ 0xFFFFFFFFFFFFFFFF#64)) → key ≠ (bitsOf r.addr 43 40) → Leads (.dramRequest d e f) s (fun t => (∀ b,
      t.byte b = v.byte b) ∧ t.rsps = (s.answerReq r 1 ([])).rsps ∧ t.be = (s.answerReq r 1 ([])).be ∧
      t.nis = (s.answerReq r 1 ([])).nis ∧ t.bit aKM_ERR ⟨1, 1⟩ ∧ t.reg aKM_EINFO = BitVec.ofNat 32 (r.master % 256 * 256 + 1) ∧
      v.keepsElse t [.be, .dsets, .ev, .hw, .mq, .nis, .rsps, .free] (fun a => inSet d.val a || niReg a || inBlock 6 0x38 a))) ∧
    (∀ (d : Fin 4) (r : MemReq) (p : Bool) (e f : List SymErr) (v : State) (ln : List Byte) (ctr : W64) (tag : W32) (key : Nat) (x y l : List Byte) (ds : List Nat),
      s.dramServes d.val r p → s.bit aKM_CTRL fKM_CTRL_EN → dramLine (lineOf r) < s.metaFirst →
      s.slotUsable (bitsOf r.addr 43 40) → s.kmFetch d.val (s.metaOf r) r.master p f = (v, some ln) →
      kmEntry ln (dramLine (lineOf r) % 20) = (ctr, tag, key) → ctr ≠ 0#64 → (r.write = false ∨ (wholeLine r = false ∧
      ctr ≠ 0xFFFFFFFFFFFFFFFF#64)) → key = (bitsOf r.addr 43 40) → e.foldl addSymErr (v.bytes (lineOf r) 256,
      v.bytes (dramChk (lineOf r)) 64) = (x, y) → rsLine x y (v.erased d.val) = (l, ds, true) →
      Leads (.dramRequest d e f) s (fun t => (∀ b, t.byte b = v.byte b) ∧ t.rsps = (s.answerReq r 1 ([])).rsps ∧
      t.be = (s.answerReq r 1 ([])).be ∧ t.nis = (s.answerReq r 1 ([])).nis ∧ t.bit (aDR_FLAG d.val) fDR_FLAG_UE ∧
      v.keepsElse t [.be, .dsets, .ev, .hw, .mq, .nis, .rsps] (fun a => inSet d.val a || niReg a || inBlock 6 0x38 a))) ∧
    (∀ (d : Fin 4) (r : MemReq) (p : Bool) (e f : List SymErr) (v : State) (ln : List Byte) (ctr : W64) (tag : W32) (key : Nat) (x y l : List Byte) (ds : List Nat),
      s.dramServes d.val r p → s.bit aKM_CTRL fKM_CTRL_EN → dramLine (lineOf r) < s.metaFirst →
      s.slotUsable (bitsOf r.addr 43 40) → s.kmFetch d.val (s.metaOf r) r.master p f = (v, some ln) →
      kmEntry ln (dramLine (lineOf r) % 20) = (ctr, tag, key) → ctr ≠ 0#64 → (r.write = false ∨ (wholeLine r = false ∧
      ctr ≠ 0xFFFFFFFFFFFFFFFF#64)) → key = (bitsOf r.addr 43 40) → e.foldl addSymErr (v.bytes (lineOf r) 256,
      v.bytes (dramChk (lineOf r)) 64) = (x, y) → rsLine x y (v.erased d.val) = (l, ds, false) →
      lineTag (s.slotKey (bitsOf r.addr 43 40)) (lineOf r / 256) ctr l ≠ tag → Leads (.dramRequest d e f) s (fun t => (∀ b,
      t.byte b = v.byte b) ∧ t.rsps = (s.answerReq r 1 ([])).rsps ∧ t.be = (s.answerReq r 1 ([])).be ∧
      t.nis = (s.answerReq r 1 ([])).nis ∧ t.bit aKM_ERR ⟨0, 1⟩ ∧ t.reg aKM_EINFO = BitVec.ofNat 32 (r.master % 256 * 256 + 0) ∧
      v.keepsElse t [.be, .dsets, .ev, .hw, .mq, .nis, .rsps, .free] (fun a => inSet d.val a || niReg a || inBlock 6 0x38 a))) ∧
    (∀ (d : Fin 4) (r : MemReq) (p : Bool) (e f : List SymErr) (v : State) (ln : List Byte) (ctr : W64) (tag : W32) (key : Nat) (x y l : List Byte) (ds : List Nat),
      s.dramServes d.val r p → s.bit aKM_CTRL fKM_CTRL_EN → dramLine (lineOf r) < s.metaFirst →
      s.slotUsable (bitsOf r.addr 43 40) → s.kmFetch d.val (s.metaOf r) r.master p f = (v, some ln) →
      kmEntry ln (dramLine (lineOf r) % 20) = (ctr, tag, key) → ctr ≠ 0#64 → (r.write = false ∨ (wholeLine r = false ∧
      ctr ≠ 0xFFFFFFFFFFFFFFFF#64)) → key = (bitsOf r.addr 43 40) → e.foldl addSymErr (v.bytes (lineOf r) 256,
      v.bytes (dramChk (lineOf r)) 64) = (x, y) → rsLine x y (v.erased d.val) = (l, ds, false) →
      lineTag (s.slotKey (bitsOf r.addr 43 40)) (lineOf r / 256) ctr l = tag → r.write = false →
      Leads (.dramRequest d e f) s (fun t => (∀ b, t.byte b = v.byte b) ∧
      t.rsps = (s.answerReq r 0 (((unmixLine (s.slotKey (bitsOf r.addr 43 40)) (lineOf r / 256) ctr l).drop (r.addr % 256)).take r.count)).rsps ∧
      t.be = (s.answerReq r 0 (((unmixLine (s.slotKey (bitsOf r.addr 43 40)) (lineOf r / 256) ctr l).drop (r.addr % 256)).take r.count)).be ∧
      t.nis = (s.answerReq r 0 (((unmixLine (s.slotKey (bitsOf r.addr 43 40)) (lineOf r / 256) ctr l).drop (r.addr % 256)).take r.count)).nis ∧
      v.keepsElse t [.be, .dsets, .ev, .hw, .mq, .nis, .rsps] (fun a => inSet d.val a || niReg a || inBlock 6 0x38 a))) ∧
    (∀ (d : Fin 4) (r : MemReq) (p : Bool) (e f : List SymErr) (v : State) (ln : List Byte) (ctr : W64) (tag : W32) (key : Nat) (x y l : List Byte) (ds : List Nat),
      s.dramServes d.val r p → s.bit aKM_CTRL fKM_CTRL_EN → dramLine (lineOf r) < s.metaFirst →
      s.slotUsable (bitsOf r.addr 43 40) → s.kmFetch d.val (s.metaOf r) r.master p f = (v, some ln) →
      kmEntry ln (dramLine (lineOf r) % 20) = (ctr, tag, key) → ctr ≠ 0#64 → (r.write = false ∨ (wholeLine r = false ∧
      ctr ≠ 0xFFFFFFFFFFFFFFFF#64)) → key = (bitsOf r.addr 43 40) → e.foldl addSymErr (v.bytes (lineOf r) 256,
      v.bytes (dramChk (lineOf r)) 64) = (x, y) → rsLine x y (v.erased d.val) = (l, ds, false) →
      lineTag (s.slotKey (bitsOf r.addr 43 40)) (lineOf r / 256) ctr l = tag → r.write →
      Leads (.dramRequest d e f) s (fun t => (∀ i, i < 256 →
      t.byte (lineOf r + i) = (mixLine (s.slotKey (bitsOf r.addr 43 40)) (lineOf r / 256) (ctr + 1) (mergeLine (unmixLine (s.slotKey (bitsOf r.addr 43 40)) (lineOf r / 256) ctr l) r)).getD i 0#8) ∧
      (∀ b, ((b < lineOf r ∨ lineOf r + 256 ≤ b) ∧ (b < dramChk (lineOf r) ∨ dramChk (lineOf r) + 64 ≤ b)) →
      t.byte b = v.byte b) ∧ t.km = v.km.map (fun c => if c.set = d.val ∧
      c.line = s.metaOf r then { c with data := kmPut c.data (dramLine (lineOf r) % 20) (ctr + 1) (lineTag (s.slotKey (bitsOf r.addr 43 40)) (lineOf r / 256) (ctr + 1) (mixLine (s.slotKey (bitsOf r.addr 43 40)) (lineOf r / 256) (ctr + 1) (mergeLine (unmixLine (s.slotKey (bitsOf r.addr 43 40)) (lineOf r / 256) ctr l) r))) (bitsOf r.addr 43 40), dirty := true } else c) ∧
      t.rsps = (s.answerReq r 0 ([])).rsps ∧ t.be = (s.answerReq r 0 ([])).be ∧ t.nis = (s.answerReq r 0 ([])).nis ∧
      v.keepsElse t [.be, .dsets, .ev, .hw, .mq, .nis, .rsps, .mem,
      .km] (fun a => inSet d.val a || niReg a || inBlock 6 0x38 a)))

/-- INIT starts an uninitialised set and ends initialised with refresh running. EN makes an initialised or drained set ready
with DR_FLAG.READY; elsewhere its rise is refused. DIS of a ready set keeps EN until the drain. Mode-register accesses and
helper runs are refused outside initialised, ready and drained, and in a loop only MODE 5 runs; a run clears the comparators
and ends with TRN_DONE, each comparator holding the fails of its channel under the mask of its mode; MODE 5 outside a loop
overwrites lines 0 to 1,023. A refresh closes two banks, an idle bank is closed, a penalty ends, a poll sets the rate. DR_LB
goes through self-refresh. Each event does nothing where its condition does not hold. Model choices it rests on: log entries
89, 90, 95. (12_external_memory.md R289, R293 to R295, R299 to R301, 13_ecc_and_keyed_mix.md R304, 18_test_and_loopbacks.md
R419) -/
def Obligations.DramControl : Prop :=
  ∀ s : State, s.Inv →
    (∀ (m : Rm) (d : Fin 4), s.ringReady m (aDR_CTRL d.val) → s.dramState d.val = 0 → s.bit (aDR_CTRL d.val) fDR_CTRL_EN = false →
      Writes (.dramInit m d) m (aDR_CTRL d.val) (putF (s.reg (aDR_CTRL d.val)) fDR_CTRL_INIT 1) .ok s (fun u => u.dramState d.val = 1 ∧
      (u.ds d.val).disAt = none ∧ s.keepsElse u [.dsets] (among [(aDR_CTRL d.val), (aDR_STATUS d.val)]))) ∧
    (∀ (m : Rm) (d : Fin 4), s.ringReady m (aDR_CTRL d.val) → (s.dramState d.val ≠ 0 ∨ s.bit (aDR_CTRL d.val) fDR_CTRL_EN) →
      Writes (.dramInit m d) m (aDR_CTRL d.val) (putF (s.reg (aDR_CTRL d.val)) fDR_CTRL_INIT 1) .refused s (fun u => u = s)) ∧
    (∀ (d : Fin 4), s.hubRuns → s.dramState d.val = 1 → Leads (.dramInitComplete d) s (fun t => t.dramState d.val = 2 ∧
      (t.ds d.val).openRow = [] ∧ (t.ds d.val).refNext = 0 ∧
      (t.ds d.val).refAt = s.now + 732 / 2 ^ s.fld (aDR_STATUS d.val) fDR_STATUS_RATE ∧
      s.keepsElse t [.dsets] (among [(aDR_STATUS d.val)]))) ∧
    (∀ (d : Fin 4), (s.hubRuns = false ∨ s.dramState d.val ≠ 1) → exec (.dramInitComplete d) s = .next (s)) ∧
    (∀ (m : Rm) (d : Fin 4), s.ringReady m (aDR_CTRL d.val) → s.bit (aDR_CTRL d.val) fDR_CTRL_INIT = false →
      (s.dramState d.val = 2 ∨ s.dramState d.val = 5) → s.fld (aDR_LB d.val) fDR_LB_DEPTH = 0 →
      Writes (.dramEnable m d) m (aDR_CTRL d.val) (putF (putF (putF (s.reg (aDR_CTRL d.val)) fDR_CTRL_DIS 0) fDR_CTRL_FORCE 0) fDR_CTRL_EN 1) .ok s (fun u => u.dramState d.val = 3 ∧
      u.bit (aDR_CTRL d.val) fDR_CTRL_EN ∧ (u.ds d.val).disAt = none ∧ u.bit (aDR_STATUS d.val) fDR_STATUS_DRAINED = false ∧
      u.bit (aDR_FLAG d.val) fDR_FLAG_READY ∧ (s.bit (aDR_FLAG d.val) fDR_FLAG_READY = false →
      u.showsEvent (192 + 32 * d.val + 8)) ∧ s.keepsElse u [.ev, .hw, .dsets] (among [(aDR_CTRL d.val), (aDR_STATUS d.val),
      aDR_FLAG d.val]))) ∧
    (∀ (m : Rm) (d : Fin 4), s.ringReady m (aDR_CTRL d.val) → s.bit (aDR_CTRL d.val) fDR_CTRL_INIT = false →
      s.dramState d.val = 3 → s.bit (aDR_CTRL d.val) fDR_CTRL_EN →
      Writes (.dramEnable m d) m (aDR_CTRL d.val) (putF (putF (putF (s.reg (aDR_CTRL d.val)) fDR_CTRL_DIS 0) fDR_CTRL_FORCE 0) fDR_CTRL_EN 1) .ok s (fun u => u.dramState d.val = 3 ∧
      u.bit (aDR_CTRL d.val) fDR_CTRL_EN ∧ u.bit (aDR_CTRL d.val) fDR_CTRL_DIS = false ∧ (u.ds d.val).disAt = none ∧
      s.keepsElse u [.dsets] (among [(aDR_CTRL d.val)]))) ∧
    (∀ (m : Rm) (d : Fin 4), s.ringReady m (aDR_CTRL d.val) → ¬(s.dramState d.val = 3 ∧ s.bit (aDR_CTRL d.val) fDR_CTRL_EN) →
      ((s.dramState d.val ≠ 2 ∧ s.dramState d.val ≠ 5) ∨ s.fld (aDR_LB d.val) fDR_LB_DEPTH ≠ 0) →
      Writes (.dramEnable m d) m (aDR_CTRL d.val) (putF (putF (putF (s.reg (aDR_CTRL d.val)) fDR_CTRL_DIS 0) fDR_CTRL_FORCE 0) fDR_CTRL_EN 1) .refused s (fun u => u = s)) ∧
    (∀ (m : Rm) (d : Fin 4) (f : Bool), s.ringReady m (aDR_CTRL d.val) → s.bit (aDR_CTRL d.val) fDR_CTRL_INIT = false →
      (s.dramState d.val = 3 ∨ s.bit (aDR_CTRL d.val) fDR_CTRL_EN = false) →
      Writes (.dramDisable m d f) m (aDR_CTRL d.val) (putF (putF (s.reg (aDR_CTRL d.val)) fDR_CTRL_DIS 1) fDR_CTRL_FORCE (if f then 1 else 0)) .ok s (fun u => u.bit (aDR_CTRL d.val) fDR_CTRL_DIS ∧
      u.bit (aDR_CTRL d.val) fDR_CTRL_FORCE = f ∧ u.bit (aDR_CTRL d.val) fDR_CTRL_EN = s.bit (aDR_CTRL d.val) fDR_CTRL_EN ∧
      u.dramState d.val = s.dramState d.val ∧
      (u.ds d.val).disAt = (if s.dramState d.val = 3 then some ((s.ds d.val).disAt.getD s.now) else none) ∧
      s.keepsElse u [.dsets] (among [(aDR_CTRL d.val)]))) ∧
    (∀ (m : Rm) (d : Fin 4) (f : Bool), s.ringReady m (aDR_CTRL d.val) → s.dramState d.val ≠ 3 →
      s.bit (aDR_CTRL d.val) fDR_CTRL_EN →
      Writes (.dramDisable m d f) m (aDR_CTRL d.val) (putF (putF (s.reg (aDR_CTRL d.val)) fDR_CTRL_DIS 1) fDR_CTRL_FORCE (if f then 1 else 0)) .refused s (fun u => u = s)) ∧
    (∀ (m : Rm) (d : Fin 4) (v : W32), s.ringReady m (aDR_MR d.val) → s.helpersFree d.val → getB v fDR_MR_WR →
      Writes (.modeRegisterAccess m d v) m (aDR_MR d.val) v .ok s (fun u => u = s.plainWrite (aDR_MR d.val) v)) ∧
    (∀ (m : Rm) (d : Fin 4) (v : W32), s.ringReady m (aDR_MR d.val) → s.helpersFree d.val → getB v fDR_MR_WR = false →
      Writes (.modeRegisterAccess m d v) m (aDR_MR d.val) v .ok s (fun u => u.fld (aDR_MR d.val) fDR_MR_MA = getF v fDR_MR_MA ∧
      u.fld (aDR_MR d.val) fDR_MR_DEV = getF v fDR_MR_DEV ∧ s.keepsElse u [.free] (among [(aDR_MR d.val)]))) ∧
    (∀ (m : Rm) (d : Fin 4) (v : W32), s.ringReady m (aDR_MR d.val) → s.helpersFree d.val = false →
      Writes (.modeRegisterAccess m d v) m (aDR_MR d.val) v .refused s (fun u => u = s)) ∧
    (∀ (m : Rm) (d : Fin 4) (k : BitVec 3) (e : BitVec 10), s.ringReady m (aDR_TRN d.val) →
      ((s.fld (aDR_LB d.val) fDR_LB_DEPTH = 0 ∧ s.helpersFree d.val ∧ 1 ≤ k.toNat ∧ k.toNat ≤ 5) ∨
      (s.fld (aDR_LB d.val) fDR_LB_DEPTH ≠ 0 ∧ k = 5#3 ∧ s.bit (aDR_TRN d.val) fDR_TRN_BUSY = false)) →
      Writes (.trainingRun m d k e) m (aDR_TRN d.val) (putF (putF (putF 0#32 fDR_TRN_MODE k.toNat) fDR_TRN_DEVS e.toNat) fDR_TRN_GO 1) .ok s (fun u => u.bit (aDR_TRN d.val) fDR_TRN_BUSY ∧
      u.fld (aDR_TRN d.val) fDR_TRN_MODE = k.toNat ∧ u.fld (aDR_TRN d.val) fDR_TRN_DEVS = e.toNat ∧ (∀ k, k < 10 →
      u.reg (aDR_CMP d.val k) = 0#32) ∧ s.keepsElse u [.hw] (among ((aDR_TRN d.val) :: (List.range 10).map (aDR_CMP d.val))))) ∧
    (∀ (m : Rm) (d : Fin 4) (k : BitVec 3) (e : BitVec 10), s.ringReady m (aDR_TRN d.val) →
      ¬((s.fld (aDR_LB d.val) fDR_LB_DEPTH = 0 ∧ s.helpersFree d.val ∧ 1 ≤ k.toNat ∧ k.toNat ≤ 5) ∨
      (s.fld (aDR_LB d.val) fDR_LB_DEPTH ≠ 0 ∧ k = 5#3 ∧ s.bit (aDR_TRN d.val) fDR_TRN_BUSY = false)) →
      Writes (.trainingRun m d k e) m (aDR_TRN d.val) (putF (putF (putF 0#32 fDR_TRN_MODE k.toNat) fDR_TRN_DEVS e.toNat) fDR_TRN_GO 1) .refused s (fun u => u = s)) ∧
    (∀ (d : Fin 4) (l : List (BitVec 18)), s.hubRuns → s.bit (aDR_TRN d.val) fDR_TRN_BUSY →
      (s.fld (aDR_TRN d.val) fDR_TRN_MODE ≠ 5 ∨ s.fld (aDR_LB d.val) fDR_LB_DEPTH ≠ 0) →
      Leads (.trainingRunDone d l) s (fun t => t.bit (aDR_TRN d.val) fDR_TRN_BUSY = false ∧
      t.bit (aDR_FLAG d.val) fDR_FLAG_TRN_DONE ∧ (s.bit (aDR_FLAG d.val) fDR_FLAG_TRN_DONE = false →
      t.showsEvent (192 + 32 * d.val + fDR_FLAG_TRN_DONE.lsb)) ∧ (∀ k, k < 10 →
      t.reg (aDR_CMP d.val k) = (if (s.fld (aDR_TRN d.val) fDR_TRN_DEVS).testBit k then (l.getD k 0 &&& (if s.fld (aDR_TRN d.val) fDR_TRN_MODE = 1 then 0x7F#18 else if s.fld (aDR_TRN d.val) fDR_TRN_MODE = 2 then 1#18 else 0x3FFFF#18)).setWidth 32 else 0#32)) ∧
      (∀ a, t.byte a = s.byte a) ∧ s.keepsElse t [.ev,
      .hw] (among ((aDR_TRN d.val) :: aDR_FLAG d.val :: (List.range 10).map (aDR_CMP d.val))))) ∧
    (∀ (d : Fin 4) (l : List (BitVec 18)) (n : Fin 1024) (i : Fin 256), s.hubRuns → s.bit (aDR_TRN d.val) fDR_TRN_BUSY →
      s.fld (aDR_TRN d.val) fDR_TRN_MODE = 5 → s.fld (aDR_LB d.val) fDR_LB_DEPTH = 0 →
      Leads (.trainingRunDone d l) s (fun t => t.bit (aDR_TRN d.val) fDR_TRN_BUSY = false ∧
      t.bit (aDR_FLAG d.val) fDR_FLAG_TRN_DONE ∧ (s.bit (aDR_FLAG d.val) fDR_FLAG_TRN_DONE = false →
      t.showsEvent (192 + 32 * d.val + fDR_FLAG_TRN_DONE.lsb)) ∧ (∀ k, k < 10 →
      t.reg (aDR_CMP d.val k) = (if (s.fld (aDR_TRN d.val) fDR_TRN_DEVS).testBit k then (l.getD k 0 &&& (if s.fld (aDR_TRN d.val) fDR_TRN_MODE = 1 then 0x7F#18 else if s.fld (aDR_TRN d.val) fDR_TRN_MODE = 2 then 1#18 else 0x3FFFF#18)).setWidth 32 else 0#32)) ∧
      (s.bit (aDR_PG d.val) fDR_PG_PRBS = false →
      t.byte (dramLineAddr d.val n.val + i.val) = (if (s.fld (aDR_TRN d.val) fDR_TRN_DEVS).testBit (i.val % 16 / 2) then patByte (s.fld (aDR_PG d.val) fDR_PG_PAT) (2 * (i.val / 16) + i.val % 2) else s.byte (dramLineAddr d.val n.val + i.val))) ∧
      (s.bit (aDR_PG d.val) fDR_PG_PRBS → (s.fld (aDR_TRN d.val) fDR_TRN_DEVS).testBit (i.val % 16 / 2) = false →
      t.byte (dramLineAddr d.val n.val + i.val) = s.byte (dramLineAddr d.val n.val + i.val)) ∧ s.keepsElse t [.ev, .hw, .mem,
      .free] (among ((aDR_TRN d.val) :: aDR_FLAG d.val :: (List.range 10).map (aDR_CMP d.val))))) ∧
    (∀ (d : Fin 4) (l : List (BitVec 18)), (s.hubRuns = false ∨ s.bit (aDR_TRN d.val) fDR_TRN_BUSY = false) →
      exec (.trainingRunDone d l) s = .next (s)) ∧
    (∀ (d : Fin 4) (m : BitVec 8), s.hubRuns →
      Leads (.throttleEnd d m) s (fun t => (t.ds d.val).throttled = (s.ds d.val).throttled.filter (fun e => !(e.1 == m.toNat && decide (e.2 ≤ s.now))) ∧
      t.bit (aDR_STATUS d.val) fDR_STATUS_THROTTLING = decide ((t.ds d.val).throttled ≠ []) ∧ s.keepsElse t [.dsets,
      .hw] (among [(aDR_STATUS d.val)]))) ∧
    (∀ (d : Fin 4) (m : BitVec 8), s.hubRuns = false → exec (.throttleEnd d m) s = .next (s)) ∧
    (∀ (d : Fin 4), s.hubRuns → s.refreshes d.val → (s.ds d.val).refAt ≤ s.now →
      Leads (.perBankRefresh d) s (fun t => tget (fun _ => none) (t.ds d.val).openRow (s.ds d.val).refNext = none ∧
      tget (fun _ => none) (t.ds d.val).openRow ((s.ds d.val).refNext + 8) = none ∧ (∀ b, b ≠ (s.ds d.val).refNext →
      b ≠ (s.ds d.val).refNext + 8 →
      tget (fun _ => none) (t.ds d.val).openRow b = tget (fun _ => none) (s.ds d.val).openRow b) ∧
      (t.ds d.val).refNext = ((s.ds d.val).refNext + 1) % 8 ∧
      (t.ds d.val).refAt = (s.ds d.val).refAt + 732 / 2 ^ s.fld (aDR_STATUS d.val) fDR_STATUS_RATE ∧
      s.keepsElse t [.dsets] (fun _ => false))) ∧
    (∀ (d : Fin 4), ¬(s.hubRuns ∧ s.refreshes d.val ∧ (s.ds d.val).refAt ≤ s.now) → exec (.perBankRefresh d) s = .next (s)) ∧
    (∀ (d : Fin 4) (b : Fin 16), s.hubRuns →
      tget (fun _ => 0) (s.ds d.val).lastUse b.val + 2 * s.fld (aDR_PAGE d.val) fDR_PAGE_IDLE ≤ s.now →
      Leads (.rowIdlePrecharge d b) s (fun t => tget (fun _ => none) (t.ds d.val).openRow b.val = none ∧ (∀ k, k ≠ b.val →
      tget (fun _ => none) (t.ds d.val).openRow k = tget (fun _ => none) (s.ds d.val).openRow k) ∧
      s.keepsElse t [.dsets] (fun _ => false))) ∧
    (∀ (d : Fin 4) (b : Fin 16), (s.hubRuns = false ∨
      s.now < tget (fun _ => 0) (s.ds d.val).lastUse b.val + 2 * s.fld (aDR_PAGE d.val) fDR_PAGE_IDLE) →
      exec (.rowIdlePrecharge d b) s = .next (s)) ∧
    (∀ (d : Fin 4) (l : List (Fin 4)), s.hubRuns → (s.dramState d.val = 3 ∨ s.dramState d.val = 5) → (s.ds d.val).pollAt ≤ s.now →
      s.bit (aDR_TRN d.val) fDR_TRN_BUSY = false → s.bit (aDR_MR d.val) fDR_MR_BUSY = false →
      Leads (.refreshRatePoll d l) s (fun t => t.fld (aDR_STATUS d.val) fDR_STATUS_RATE = min 2 ((l.take 10).foldl (fun m r => max m r.val) 0) ∧
      t.bit (aDR_STATUS d.val) fDR_STATUS_HOT = decide (∃ r ∈ l.take 10, r = 3) ∧ (t.ds d.val).ceCount = [] ∧
      (t.ds d.val).pollAt = (s.ds d.val).pollAt + 24000000 ∧
      (min 2 ((l.take 10).foldl (fun m r => max m r.val) 0) ≠ s.fld (aDR_STATUS d.val) fDR_STATUS_RATE →
      t.bit (aDR_FLAG d.val) fDR_FLAG_RATE) ∧ (((l.take 10).foldl (fun m r => max m r.val) 0) = 3 →
      t.bit (aDR_FLAG d.val) fDR_FLAG_HOT) ∧ s.keepsElse t [.ev, .hw, .dsets] (among [(aDR_STATUS d.val), aDR_FLAG d.val]))) ∧
    (∀ (d : Fin 4) (l : List (Fin 4)), ¬(s.hubRuns ∧ (s.dramState d.val = 3 ∨ s.dramState d.val = 5) ∧
      (s.ds d.val).pollAt ≤ s.now ∧ s.bit (aDR_TRN d.val) fDR_TRN_BUSY = false ∧ s.bit (aDR_MR d.val) fDR_MR_BUSY = false) →
      exec (.refreshRatePoll d l) s = .next (s)) ∧
    (∀ (m : Rm) (d : Fin 4) (k : BitVec 2), s.ringReady m (aDR_LB d.val) → s.fld (aDR_LB d.val) fDR_LB_DEPTH = 0 →
      (s.dramState d.val = 2 ∨ s.dramState d.val = 5) → k ≠ 0#2 →
      Writes (.drLbWrite m d k) m (aDR_LB d.val) (k.setWidth 32) .ok s (fun u => u.fld (aDR_LB d.val) fDR_LB_DEPTH = k.toNat ∧
      u.dramState d.val = 4 ∧ (u.ds d.val).heldFrom = s.dramState d.val ∧ (u.ds d.val).openRow = [] ∧
      s.keepsElse u [.dsets] (among [(aDR_LB d.val), (aDR_STATUS d.val)]))) ∧
    (∀ (m : Rm) (d : Fin 4), s.ringReady m (aDR_LB d.val) → s.fld (aDR_LB d.val) fDR_LB_DEPTH = 0 → (s.dramState d.val = 2 ∨
      s.dramState d.val = 5) → Writes (.drLbWrite m d 0#2) m (aDR_LB d.val) 0#32 .ok s (fun u => u = s)) ∧
    (∀ (m : Rm) (d : Fin 4) (k : BitVec 2), s.ringReady m (aDR_LB d.val) → s.fld (aDR_LB d.val) fDR_LB_DEPTH = 0 →
      s.dramState d.val ≠ 2 → s.dramState d.val ≠ 5 →
      Writes (.drLbWrite m d k) m (aDR_LB d.val) (k.setWidth 32) .refused s (fun u => u = s)) ∧
    (∀ (m : Rm) (d : Fin 4) (k : BitVec 2), s.ringReady m (aDR_LB d.val) → s.fld (aDR_LB d.val) fDR_LB_DEPTH ≠ 0 → k ≠ 0#2 →
      Writes (.drLbWrite m d k) m (aDR_LB d.val) (k.setWidth 32) .ok s (fun u => u = s.plainWrite (aDR_LB d.val) (k.setWidth 32))) ∧
    (∀ (m : Rm) (d : Fin 4), s.ringReady m (aDR_LB d.val) → s.fld (aDR_LB d.val) fDR_LB_DEPTH ≠ 0 →
      Writes (.drLbWrite m d 0#2) m (aDR_LB d.val) 0#32 .ok s (fun u => u.fld (aDR_LB d.val) fDR_LB_DEPTH = 0 ∧
      u.dramState d.val = (s.ds d.val).heldFrom % 8 ∧
      (u.ds d.val).refAt = s.now + 732 / 2 ^ s.fld (aDR_STATUS d.val) fDR_STATUS_RATE ∧
      s.keepsElse u [.dsets] (among [(aDR_LB d.val), (aDR_STATUS d.val)]))) ∧
    (∀ (m : Rm) (d : Fin 4) (v : W32), s.ringReady m (aDR_ECC_CTRL d.val) → (getB v fDR_ECC_CTRL_ERASE = false ∨
      getF v fDR_ECC_CTRL_POS ≤ 9) →
      Writes (.drEccCtrlWrite m d v) m (aDR_ECC_CTRL d.val) v .ok s (fun u => u.fld (aDR_ECC_CTRL d.val) fDR_ECC_CTRL_THR = getF v fDR_ECC_CTRL_THR ∧
      u.erased d.val = (if getB v fDR_ECC_CTRL_ERASE then some (getF v fDR_ECC_CTRL_POS) else none) ∧
      (getB v fDR_ECC_CTRL_ERASE → s.bit (aDR_ECC_CTRL d.val) fDR_ECC_CTRL_ERASE = false →
      u.showsEvent (192 + 32 * d.val + 17)) ∧ s.keepsElse u [.ev, .hw] (among [(aDR_ECC_CTRL d.val)]))) ∧
    (∀ (m : Rm) (d : Fin 4) (v : W32), s.ringReady m (aDR_ECC_CTRL d.val) → getB v fDR_ECC_CTRL_ERASE →
      9 < getF v fDR_ECC_CTRL_POS → Writes (.drEccCtrlWrite m d v) m (aDR_ECC_CTRL d.val) v .refused s (fun u => u = s))

/-- EN changes only in the states of R307. With all sets ready the fill starts; it ends with the metadata region zero, READY
and event 356. FLUSH writes dirty lines back and ends with event 357. RETIRE of a key flushes, scans, zeroes the key, clears
VALID and ends with event 358; a second one is refused while busy. Keys are written only while their slot is not valid.
KM_MCMD reads and writes an entry through the cache; it is refused from the configuration master and before READY, answers
decode for a line the mix does not cover, and does nothing while the set is not ready; an uncorrectable metadata line sets
KM_ERR.META_UE. Each event does nothing where its condition does not hold. Model choices it rests on: log entries 96, 97.
(13_ecc_and_keyed_mix.md R307, R308, R312 to R314, R316, R317) -/
def Obligations.KeyedMix : Prop :=
  ∀ s : State, s.Inv →
    (∀ (m : Rm), s.ringReady m aKM_CTRL → s.bit aKM_CTRL fKM_CTRL_FLUSH = false → s.bit aKM_CTRL fKM_CTRL_RETIRE = false →
      (s.bit aKM_CTRL fKM_CTRL_EN ∨ (∀ d : Fin 4, s.dramState d.val = 0 ∨ s.dramState d.val = 2)) →
      Writes (.keyedMixEnable m true) m aKM_CTRL (putF (s.reg aKM_CTRL) fKM_CTRL_EN 1) .ok s (fun u => u.bit aKM_CTRL fKM_CTRL_EN ∧
      s.keepsElse u [] (among [aKM_CTRL]))) ∧
    (∀ (m : Rm), s.ringReady m aKM_CTRL → s.bit aKM_CTRL fKM_CTRL_EN = false → ¬(∀ d : Fin 4, s.dramState d.val = 0 ∨
      s.dramState d.val = 2) →
      Writes (.keyedMixEnable m true) m aKM_CTRL (putF (s.reg aKM_CTRL) fKM_CTRL_EN 1) .refused s (fun u => u = s)) ∧
    (∀ (m : Rm), s.ringReady m aKM_CTRL → s.bit aKM_CTRL fKM_CTRL_FLUSH = false → s.bit aKM_CTRL fKM_CTRL_RETIRE = false →
      s.bit aKM_CTRL fKM_CTRL_EN → (∀ d : Fin 4, s.dramState d.val ≠ 3) →
      Writes (.keyedMixEnable m false) m aKM_CTRL (putF (s.reg aKM_CTRL) fKM_CTRL_EN 0) .ok s (fun u => u.bit aKM_CTRL fKM_CTRL_EN = false ∧
      u.bit aKM_STATUS fKM_STATUS_READY = false ∧ u.bit aKM_STATUS fKM_STATUS_INIT = false ∧ u.km = [] ∧ s.keepsElse u [.hw,
      .km] (among [aKM_CTRL, aKM_STATUS]))) ∧
    (∀ (m : Rm), s.ringReady m aKM_CTRL → s.bit aKM_CTRL fKM_CTRL_FLUSH = false → s.bit aKM_CTRL fKM_CTRL_RETIRE = false →
      s.bit aKM_CTRL fKM_CTRL_EN = false →
      Writes (.keyedMixEnable m false) m aKM_CTRL (putF (s.reg aKM_CTRL) fKM_CTRL_EN 0) .ok s (fun u => u.bit aKM_CTRL fKM_CTRL_EN = false ∧
      s.keepsElse u [] (among [aKM_CTRL]))) ∧
    (∀ (m : Rm), s.ringReady m aKM_CTRL → s.bit aKM_CTRL fKM_CTRL_EN → (∃ d : Fin 4, s.dramState d.val = 3) →
      Writes (.keyedMixEnable m false) m aKM_CTRL (putF (s.reg aKM_CTRL) fKM_CTRL_EN 0) .refused s (fun u => u = s)) ∧
    (s.hubRuns → s.bit aKM_CTRL fKM_CTRL_EN → s.bit aKM_STATUS fKM_STATUS_READY = false →
      s.bit aKM_STATUS fKM_STATUS_INIT = false → s.allSets 3 →
      Leads (.kmFillStart) s (fun t => t.bit aKM_STATUS fKM_STATUS_INIT ∧ t = s.setBit aKM_STATUS fKM_STATUS_INIT true)) ∧
    (¬(s.hubRuns ∧ s.bit aKM_CTRL fKM_CTRL_EN ∧ s.bit aKM_STATUS fKM_STATUS_READY = false ∧
      s.bit aKM_STATUS fKM_STATUS_INIT = false ∧ s.allSets 3) → exec (.kmFillStart) s = .next (s)) ∧
    (s.hubRuns → s.bit aKM_STATUS fKM_STATUS_INIT → Leads (.kmFillComplete) s (fun t => (∀ a, (s.metaFirst * 1024 ≤ a ∧
      a < 2 ^ 36) → t.byte a = 0#8) ∧ (∀ a, (0x2000000000000 + s.metaFirst * 256 ≤ a ∧ a < 0x2000400000000) → t.byte a = 0#8) ∧
      (∀ a, (a < s.metaFirst * 1024 ∨ (2 ^ 36 ≤ a ∧ (a < 0x2000000000000 + s.metaFirst * 256 ∨ 0x2000400000000 ≤ a))) →
      t.byte a = s.byte a) ∧ t.bit aKM_STATUS fKM_STATUS_READY ∧ t.bit aKM_STATUS fKM_STATUS_INIT = false ∧ t.km = [] ∧
      (s.bit aKM_STATUS fKM_STATUS_READY = false → t.showsEvent 356) ∧ s.keepsElse t [.ev, .hw, .km,
      .mem] (among [aKM_STATUS]))) ∧
    ((s.hubRuns = false ∨ s.bit aKM_STATUS fKM_STATUS_INIT = false) → exec (.kmFillComplete) s = .next (s)) ∧
    (∀ (m : Rm), s.ringReady m aKM_CTRL → s.bit aKM_CTRL fKM_CTRL_RETIRE = false →
      Writes (.kmFlush m) m aKM_CTRL (putF (s.reg aKM_CTRL) fKM_CTRL_FLUSH 1) .ok s (fun u => u.bit aKM_STATUS fKM_STATUS_FLUSHING ∧
      s.keepsElse u [.hw] (among [aKM_CTRL, aKM_STATUS]))) ∧
    (s.hubRuns → s.bit aKM_STATUS fKM_STATUS_FLUSHING →
      Leads (.kmFlushComplete) s (fun t => t.bit aKM_STATUS fKM_STATUS_FLUSHING = false ∧ (∀ l ∈ t.km, l.dirty = false) ∧
      t.km.map (fun l => (l.set, l.line, l.data)) = s.km.map (fun l => (l.set, l.line, l.data)) ∧ t.showsEvent 357 ∧
      s.keepsElse t [.ev, .hw, .km, .mem] (among [aKM_STATUS]))) ∧
    (s.hubRuns → s.bit aKM_STATUS fKM_STATUS_FLUSHING → (s.km.map (fun l => (l.set, l.line))).Nodup →
      s.km.all (fun l => decide (l.data.length = 256 ∧ l.line < 2 ^ 26 ∧ l.set < 4)) →
      Leads (.kmFlushComplete) s (fun t => (∀ l ∈ s.km, l.dirty → t.bytes (dramLineAddr l.set l.line) 256 = l.data) ∧
      (∀ l ∈ s.km, l.dirty → t.bytes (dramChk (dramLineAddr l.set l.line)) 64 = rsEncode l.data) ∧ (∀ a,
      (s.km.all (fun l => !l.dirty || ((decide (a < dramLineAddr l.set l.line) || decide (dramLineAddr l.set l.line + 256 ≤ a)) && (decide (a < dramChk (dramLineAddr l.set l.line)) || decide (dramChk (dramLineAddr l.set l.line) + 64 ≤ a))))) = true →
      t.byte a = s.byte a))) ∧
    ((s.hubRuns = false ∨ s.bit aKM_STATUS fKM_STATUS_FLUSHING = false) → exec (.kmFlushComplete) s = .next (s)) ∧
    (∀ (m : Rm) (k : Fin 16), s.ringReady m aKM_CTRL → s.kmBusy = false →
      Writes (.kmRetire m k) m aKM_CTRL (putF (putF (s.reg aKM_CTRL) fKM_CTRL_RET_ID k.val) fKM_CTRL_RETIRE 1) .ok s (fun u => u.bit aKM_STATUS fKM_STATUS_RETIRING ∧
      u.bit aKM_STATUS fKM_STATUS_FLUSHING ∧ u.fld aKM_STATUS fKM_STATUS_RID = k.val ∧ u.slotUsable k.val = false ∧
      s.keepsElse u [.hw] (among [aKM_CTRL, aKM_STATUS]))) ∧
    (∀ (m : Rm) (k : Fin 16), s.ringReady m aKM_CTRL → s.kmBusy →
      Writes (.kmRetire m k) m aKM_CTRL (putF (putF (s.reg aKM_CTRL) fKM_CTRL_RET_ID k.val) fKM_CTRL_RETIRE 1) .refused s (fun u => u = s)) ∧
    (∀ (k : Nat), s.hubRuns → s.bit aKM_STATUS fKM_STATUS_RETIRING → s.bit aKM_STATUS fKM_STATUS_FLUSHING = false →
      s.fld aKM_STATUS fKM_STATUS_RID = k → Leads (.kmRetireComplete) s (fun t => (∀ w, w < 4 →
      t.reg (aKM_KEY (4 * k + w)) = 0#32) ∧ t.bit (aKM_SLOT k) fKM_SLOT_VALID = false ∧
      t.bit aKM_STATUS fKM_STATUS_RETIRING = false ∧ ((s.km.all (fun l => decide (l.data.length = 256)) = true ∧
      (s.km.map (fun l => (l.set, l.line))).Nodup) → ∀ l ∈ t.km, ∀ i, i < 20 → (kmEntry l.data i).2.2 = k →
      (kmEntry l.data i).1 = 0#64) ∧ t.showsEvent 358 ∧ s.keepsElse t [.hw, .ev, .dsets, .km, .mem,
      .free] (fun a => inBlock 6 0x38 a || blockFrom 6 0x30 0x33 a))) ∧
    (¬(s.hubRuns ∧ s.bit aKM_STATUS fKM_STATUS_RETIRING ∧ s.bit aKM_STATUS fKM_STATUS_FLUSHING = false) →
      exec (.kmRetireComplete) s = .next (s)) ∧
    (∀ (m : Rm) (k : Fin 16) (v : W32), s.ringReady m (aKM_SLOT k.val) → s.slotRetiring k.val = false →
      Writes (.kmSlotWrite m k v) m (aKM_SLOT k.val) v .ok s (fun u => u = s.plainWrite (aKM_SLOT k.val) v)) ∧
    (∀ (m : Rm) (k : Fin 16) (v : W32), s.ringReady m (aKM_SLOT k.val) → s.slotRetiring k.val →
      Writes (.kmSlotWrite m k v) m (aKM_SLOT k.val) v .refused s (fun u => u = s)) ∧
    (∀ (m : Rm) (k : Fin 16) (w : Fin 4) (v : W32), s.ringReady m (aKM_KEY (4 * k.val + w.val)) →
      s.bit (aKM_SLOT k.val) fKM_SLOT_VALID = false →
      Writes (.kmKeyWrite m k w v) m (aKM_KEY (4 * k.val + w.val)) v .ok s (fun u => u = s.setReg (aKM_KEY (4 * k.val + w.val)) v)) ∧
    (∀ (m : Rm) (k : Fin 16) (w : Fin 4) (v : W32), s.ringReady m (aKM_KEY (4 * k.val + w.val)) →
      s.bit (aKM_SLOT k.val) fKM_SLOT_VALID →
      Writes (.kmKeyWrite m k w v) m (aKM_KEY (4 * k.val + w.val)) v .refused s (fun u => u = s)) ∧
    (∀ (m : Rm) (a : Nat) (e : List SymErr), s.ringReady m aKM_MCMD → (m = .config ∨ s.bit aKM_STATUS fKM_STATUS_READY = false) →
      a = 0 → Writes (.metadataRead m e) m aKM_MCMD 1#32 .refused s (fun u => u = s)) ∧
    (∀ (m : Rm) (a : Nat) (e : List SymErr), s.ringReady m aKM_MCMD → m ≠ .config → s.bit aKM_STATUS fKM_STATUS_READY →
      s.kmAddr = a → ¬(classOf a = .dram ∧ s.dramFitted a ∧ dramLine a < s.metaFirst) →
      Writes (.metadataRead m e) m aKM_MCMD 1#32 .decode s (fun u => u = s)) ∧
    (∀ (m : Rm) (a : Nat) (e : List SymErr), s.ringReady m aKM_MCMD → m ≠ .config → s.bit aKM_STATUS fKM_STATUS_READY →
      s.kmAddr = a → (classOf a = .dram ∧ s.dramFitted a ∧ dramLine a < s.metaFirst) → s.dramState (dramSet a) ≠ 3 →
      Writes (.metadataRead m e) m aKM_MCMD 1#32 .ok s (fun u => u = s)) ∧
    (∀ (m : Rm) (a : Nat) (e : List SymErr) (v : State), s.ringReady m aKM_MCMD → m ≠ .config →
      s.bit aKM_STATUS fKM_STATUS_READY → s.kmAddr = a → (classOf a = .dram ∧ s.dramFitted a ∧ dramLine a < s.metaFirst) →
      s.dramState (dramSet a) = 3 → s.kmFetch (dramSet a) (s.metaFirst + dramLine a / 20) (rmId m) false e = (v, none) →
      Writes (.metadataRead m e) m aKM_MCMD 1#32 .ok s (fun u => u.bit aKM_ERR ⟨5, 1⟩ ∧
      u.reg aKM_EINFO = BitVec.ofNat 32 (rmId m % 256 * 256 + 5) ∧ v.keepsElse u [.ev, .hw, .free] (inBlock 6 0x38))) ∧
    (∀ (m : Rm) (a : Nat) (e : List SymErr) (v : State) (ln : List Byte), s.ringReady m aKM_MCMD → m ≠ .config →
      s.bit aKM_STATUS fKM_STATUS_READY → s.kmAddr = a → (classOf a = .dram ∧ s.dramFitted a ∧ dramLine a < s.metaFirst) →
      s.dramState (dramSet a) = 3 → s.kmFetch (dramSet a) (s.metaFirst + dramLine a / 20) (rmId m) false e = (v, some ln) →
      Writes (.metadataRead m e) m aKM_MCMD 1#32 .ok s (fun u => u.reg aKM_MCTR_HI ++ u.reg aKM_MCTR_LO = (kmEntry ln (dramLine a % 20)).1 ∧
      u.reg aKM_MTAG = (kmEntry ln (dramLine a % 20)).2.1 ∧ u.fld aKM_MCMD fKM_MCMD_KEY = (kmEntry ln (dramLine a % 20)).2.2 ∧
      v.keepsElse u [] (among [aKM_MCTR_LO, aKM_MCTR_HI, aKM_MTAG, aKM_MCMD]))) ∧
    (∀ (m : Rm) (a : Nat) (e : List SymErr) (k : BitVec 4), s.ringReady m aKM_MCMD → (m = .config ∨
      s.bit aKM_STATUS fKM_STATUS_READY = false) → a = 0 →
      Writes (.metadataWrite m k e) m aKM_MCMD (putF 2#32 fKM_MCMD_KEY k.toNat) .refused s (fun u => u = s)) ∧
    (∀ (m : Rm) (a : Nat) (e : List SymErr) (k : BitVec 4), s.ringReady m aKM_MCMD → m ≠ .config →
      s.bit aKM_STATUS fKM_STATUS_READY → s.kmAddr = a → ¬(classOf a = .dram ∧ s.dramFitted a ∧ dramLine a < s.metaFirst) →
      Writes (.metadataWrite m k e) m aKM_MCMD (putF 2#32 fKM_MCMD_KEY k.toNat) .decode s (fun u => u = s)) ∧
    (∀ (m : Rm) (a : Nat) (e : List SymErr) (k : BitVec 4), s.ringReady m aKM_MCMD → m ≠ .config →
      s.bit aKM_STATUS fKM_STATUS_READY → s.kmAddr = a → (classOf a = .dram ∧ s.dramFitted a ∧ dramLine a < s.metaFirst) →
      s.dramState (dramSet a) ≠ 3 →
      Writes (.metadataWrite m k e) m aKM_MCMD (putF 2#32 fKM_MCMD_KEY k.toNat) .ok s (fun u => u = s)) ∧
    (∀ (m : Rm) (a : Nat) (e : List SymErr) (k : BitVec 4) (v : State), s.ringReady m aKM_MCMD → m ≠ .config →
      s.bit aKM_STATUS fKM_STATUS_READY → s.kmAddr = a → (classOf a = .dram ∧ s.dramFitted a ∧ dramLine a < s.metaFirst) →
      s.dramState (dramSet a) = 3 →
      (s.plainWrite aKM_MCMD (putF 2#32 fKM_MCMD_KEY k.toNat)).kmFetch (dramSet a) (s.metaFirst + dramLine a / 20) (rmId m) false e = (v,
      none) → Writes (.metadataWrite m k e) m aKM_MCMD (putF 2#32 fKM_MCMD_KEY k.toNat) .ok s (fun u => u.bit aKM_ERR ⟨5, 1⟩ ∧
      u.reg aKM_EINFO = BitVec.ofNat 32 (rmId m % 256 * 256 + 5) ∧ v.keepsElse u [.ev, .hw, .free] (inBlock 6 0x38))) ∧
    (∀ (m : Rm) (a : Nat) (e : List SymErr) (k : BitVec 4) (v : State) (ln : List Byte), s.ringReady m aKM_MCMD → m ≠ .config →
      s.bit aKM_STATUS fKM_STATUS_READY → s.kmAddr = a → (classOf a = .dram ∧ s.dramFitted a ∧ dramLine a < s.metaFirst) →
      s.dramState (dramSet a) = 3 →
      (s.plainWrite aKM_MCMD (putF 2#32 fKM_MCMD_KEY k.toNat)).kmFetch (dramSet a) (s.metaFirst + dramLine a / 20) (rmId m) false e = (v,
      some ln) →
      Writes (.metadataWrite m k e) m aKM_MCMD (putF 2#32 fKM_MCMD_KEY k.toNat) .ok s (fun u => u.km = v.km.map (fun c => if c.set = dramSet a ∧
      c.line = s.metaFirst + dramLine a / 20 then { c with data := kmPut c.data (dramLine a % 20) (s.reg aKM_MCTR_HI ++ s.reg aKM_MCTR_LO) (s.reg aKM_MTAG) k.toNat, dirty := true } else c) ∧
      u.fld aKM_MCMD fKM_MCMD_KEY = k.toNat ∧ v.keepsElse u [.km] (fun _ => false)))

/-- ARM captures the mask, MAT and W, or waits for AC_SWAP; it is refused when one is armed, W is less than 256 ticks off, or
nothing is named. CANCEL disarms until 256 ticks before W. The AC_SWAP edge fixes W at a multiple of 16, at least 16 ticks on.
On W the swap gives the masked blocks and, with MAT, the pins their shadow words, disturbs the conversions that integrate
their input, and raises event 1824, or is refused whole with its code and event 1825. Neither does anything where nothing is
due. AF_CLK needs DIV of 2 or more. AS_DATA_1 stores an entry of the shadow bank. Model choices it rests on: log entries 103,
107. (14_analog_blocks.md R324, R329 to R333, R344, R345, R348, 15_integrating_converters.md R359) -/
def Obligations.SwapsAndFabricClocks : Prop :=
  ∀ s : State, s.Inv →
    (∀ (m : Rm) (e k : Bool), s.ringReady m aSW_SWAP_CTRL → s.ana.swap = none → (e ∨
      s.tickN + 256 ≤ s.reg64 aSW_SWAP_AT_LO aSW_SWAP_AT_HI) → (s.swapMask ≠ 0#48 ∨ k) →
      Writes (.swapArm m e k) m aSW_SWAP_CTRL (putF (putF (putF 0#32 fSW_SWAP_CTRL_MAT (if k then 1 else 0)) fSW_SWAP_CTRL_SRC (if e then 1 else 0)) fSW_SWAP_CTRL_ARM 1) .ok s (fun u => u.ana.swap = some { mask := s.swapMask, mat := k, at' := if e then none else some (s.reg64 aSW_SWAP_AT_LO aSW_SWAP_AT_HI) } ∧
      u.bit aSW_SWAP_STAT fSW_SWAP_STAT_ARMED ∧ s.keepsElse u [.ana, .hw] (among [aSW_SWAP_CTRL, aSW_SWAP_STAT]))) ∧
    (∀ (m : Rm) (e k : Bool), s.ringReady m aSW_SWAP_CTRL → (s.ana.swap ≠ none ∨ (e = false ∧
      s.reg64 aSW_SWAP_AT_LO aSW_SWAP_AT_HI < s.tickN + 256) ∨ (s.swapMask = 0#48 ∧ k = false)) →
      Writes (.swapArm m e k) m aSW_SWAP_CTRL (putF (putF (putF 0#32 fSW_SWAP_CTRL_MAT (if k then 1 else 0)) fSW_SWAP_CTRL_SRC (if e then 1 else 0)) fSW_SWAP_CTRL_ARM 1) .refused s (fun u => u = s)) ∧
    (∀ (m : Rm), s.ringReady m aSW_SWAP_CTRL → s.bit aSW_SWAP_CTRL fSW_SWAP_CTRL_ARM = false →
      s.ana.swap.all (fun x => x.at'.all (fun w => decide (s.tickN + 256 ≤ w))) →
      Writes (.swapCancel m) m aSW_SWAP_CTRL (putF (s.reg aSW_SWAP_CTRL) fSW_SWAP_CTRL_CANCEL 1) .ok s (fun u => u.ana.swap = none ∧
      u.bit aSW_SWAP_STAT fSW_SWAP_STAT_ARMED = false ∧ s.keepsElse u [.ana] (among [aSW_SWAP_CTRL, aSW_SWAP_STAT]))) ∧
    (∀ (m : Rm), s.ringReady m aSW_SWAP_CTRL → s.ana.swap.any (fun x => x.at'.any (fun w => decide (w < s.tickN + 256))) →
      Writes (.swapCancel m) m aSW_SWAP_CTRL (putF (s.reg aSW_SWAP_CTRL) fSW_SWAP_CTRL_CANCEL 1) .refused s (fun u => u = s)) ∧
    (∀ (x : Swap) (w : Nat), s.ana.swap = some x → x.at' = none → s.anaRuns 56 → w % 16 = 0 → s.tickN + 16 ≤ w →
      w < s.tickN + 32 → exec (.acSwapEdge) s = .next ({ s with ana := { s.ana with swap := some { x with at' := some w } } })) ∧
    ((s.anaRuns 56 = false ∨ s.ana.swap.all (fun x => x.at'.isSome)) → exec (.acSwapEdge) s = .next (s)) ∧
    (∀ (x : Swap) (w : Nat), s.ana.swap = some x → x.at' = some w → s.anaRuns 56 → w ≤ s.tickN →
      s.swapFault (s.swapCfg x) = none → Leads (.swapTake) s (fun t => (∀ n, n < 48 → x.mask.getLsbD n →
      t.reg (aAB_ACT_AMP n) = s.reg (aAB_CFG_AMP n) ∧ t.reg (aAB_ACT_FLT n) = s.reg (aAB_CFG_FLT n) ∧
      t.reg (aAB_ACT_ADC n) = s.reg (aAB_CFG_ADC n) ∧ t.reg (aAB_ACT_IN n) = s.reg (aAB_CFG_IN n)) ∧ (∀ n, n < 48 →
      x.mask.getLsbD n = false → t.reg (aAB_ACT_AMP n) = s.reg (aAB_ACT_AMP n) ∧ t.reg (aAB_ACT_FLT n) = s.reg (aAB_ACT_FLT n) ∧
      t.reg (aAB_ACT_ADC n) = s.reg (aAB_ACT_ADC n) ∧ t.reg (aAB_ACT_IN n) = s.reg (aAB_ACT_IN n)) ∧ (∀ p, p < 32 →
      t.reg (aSW_ACT p) = s.reg (if x.mat then aSW_PIN p else aSW_ACT p)) ∧ t.ana.swap = none ∧
      t.bit aSW_SWAP_STAT fSW_SWAP_STAT_DONE ∧ t.bit aSW_SWAP_STAT fSW_SWAP_STAT_ARMED = false ∧ t.showsEvent 1824 ∧
      s.keepsElse t [.ana, .ev, .hw] (fun a => blockFrom 7 0x700 0x72F a || inBlock 7 0x780 a))) ∧
    (∀ (x : Swap) (w : Nat) (n : Fin 48), s.ana.swap = some x → x.at' = some w → s.anaRuns 56 → w ≤ s.tickN →
      s.swapFault (s.swapCfg x) = none → x.mask.getLsbD n.val → Leads (.swapTake) s (fun t => (t.ab n.val).settleAt = w ∧
      (t.ab n.val).settleLeft = s.fld (aAB_CFG_ADC n.val) fAB_CFG_ADC_SETTLE ∧
      (t.ab n.val).before = (s.ab n.val).before.filter (fun e => decide (w ≤ e.1 + 512)) ++ [(w, s.reg (aAB_ACT_ADC n.val))])) ∧
    (∀ (x : Swap) (w : Nat) (n : Fin 16) (c : IcConv), s.ana.swap = some x → x.at' = some w → s.anaRuns 56 → w ≤ s.tickN →
      s.swapFault (s.swapCfg x) = none → (s.ic n.val).conv = some c → Leads (.swapTake) s (fun t => t.ic n.val = (if x.mat ∧
      c.phase = 0 then { s.ic n.val with conv := some { c with disturbed := true } } else s.ic n.val))) ∧
    (∀ (x : Swap) (w : Nat) (c b u : Nat), s.ana.swap = some x → x.at' = some w → s.anaRuns 56 → w ≤ s.tickN →
      s.swapFault (s.swapCfg x) = some (c, b, u) → Leads (.swapTake) s (fun t => t.fld aSW_SWAP_STAT fSW_SWAP_STAT_REFUSE = c ∧
      t.fld aSW_SWAP_STAT fSW_SWAP_STAT_BLOCK = b ∧ t.fld aSW_SWAP_STAT fSW_SWAP_STAT_BUS = u ∧
      t.bit aSW_SWAP_STAT fSW_SWAP_STAT_REFUSED ∧ t.bit aSW_SWAP_STAT fSW_SWAP_STAT_ARMED = false ∧
      t.ana = { s.ana with swap := none } ∧ t.showsEvent 1825 ∧ s.keepsElse t [.ana, .ev, .hw] (among [aSW_SWAP_STAT]))) ∧
    ((s.anaRuns 56 = false ∨ s.ana.swap.all (fun x => x.at'.all (fun w => decide (s.tickN < w)))) →
      exec (.swapTake) s = .next (s)) ∧
    (∀ (m : Rm) (k : Fin 4) (v : W32), s.ringReady m (aAF_CLK k.val) → (getB v fAF_CLK_EN = false ∨ 2 ≤ getF v fAF_CLK_DIV) →
      Writes (.afClkWrite m k v) m (aAF_CLK k.val) v .ok s (fun u => u.bit (aAF_CLK k.val) fAF_CLK_EN = getB v fAF_CLK_EN ∧
      u.fld (aAF_CLK k.val) fAF_CLK_DIV = getF v fAF_CLK_DIV ∧ tget (fun _ => 0#32) u.ana.afOld k.val = s.reg (aAF_CLK k.val) ∧
      (s.bit (aAF_CLK k.val) fAF_CLK_EN →
      tget (fun _ => 0) u.ana.afSwitch k.val = s.tickN / s.fld (aAF_CLK k.val) fAF_CLK_DIV * s.fld (aAF_CLK k.val) fAF_CLK_DIV + s.fld (aAF_CLK k.val) fAF_CLK_DIV) ∧
      s.keepsElse u [.ana] (among [(aAF_CLK k.val)]))) ∧
    (∀ (m : Rm) (k : Fin 4) (v : W32), s.ringReady m (aAF_CLK k.val) → getB v fAF_CLK_EN → getF v fAF_CLK_DIV < 2 →
      Writes (.afClkWrite m k v) m (aAF_CLK k.val) v .refused s (fun u => u = s)) ∧
    (∀ (m : Rm) (v : W32), s.ringReady m aAS_DATA_1 → s.asBank = s.shBank → s.fld aPAT_STATUS fPAT_STATUS_ARMED = 0 →
      s.bit aPAT_STATUS fPAT_STATUS_TAIL = false →
      Writes (.asDataWrite m v) m aAS_DATA_1 v .ok s (fun u => u.asEntry s.asBank (s.fld aAS_ADDR fAS_ADDR_INDEX) = v ++ s.reg aAS_DATA_0 ∧
      u.fld aAS_ADDR fAS_ADDR_INDEX = (if s.bit aAS_ADDR fAS_ADDR_AINC then (s.fld aAS_ADDR fAS_ADDR_INDEX + 1) % 256 else s.fld aAS_ADDR fAS_ADDR_INDEX) ∧
      (∀ b k, b < 2 → k < 256 → ¬(b = s.asBank ∧ k = s.fld aAS_ADDR fAS_ADDR_INDEX) → u.asEntry b k = s.asEntry b k) ∧
      s.keepsElse u [.pat] (among [aAS_ADDR, aPAT_STATUS]))) ∧
    (∀ (m : Rm) (v : W32), s.ringReady m aAS_DATA_1 → (s.asBank ≠ s.shBank ∨ s.fld aPAT_STATUS fPAT_STATUS_ARMED ≠ 0 ∨
      s.bit aPAT_STATUS fPAT_STATUS_TAIL) → Writes (.asDataWrite m v) m aAS_DATA_1 v .refused s (fun u => u = s))

/-- RUN starts at AB_START or at the first multiple of PER 64 or more ticks on, waits for a calibration, and is refused with a
run there or a start too soon (LATE). A trigger starts 8 or more ticks on, or waits for the calibration. A sample is corrected
and clamped, and the run ends after AB_COUNT, where a queued calibration starts. 256 ticks later the result enters the FIFO or
goes to the fabric in its format, or is lost with OVF. STOP ends the run, CAL calibrates or is queued; its end stores the
factors and starts what is queued. A read takes the oldest result; the debug port only looks. Each event does nothing where
nothing is due. Model choices it rests on: log entries 99, 100, 101. (14_analog_blocks.md R333 to R340, R350, 17_debug.md
R400) -/
def Obligations.SamplingRuns : Prop :=
  ∀ s : State, s.Inv →
    (∀ (m : Rm) (n : Fin 48) (b : Bool) (f : Nat), s.ringReady m (aAB_CMD n.val) → (s.ab n.val).run = none →
      (s.ab n.val).queued = none → (s.ab n.val).calAt = none →
      (if b then f = s.reg64 (aAB_START_LO n.val) (aAB_START_HI n.val) ∧
      s.tickN + 64 ≤ f else f % s.fld (aAB_TRIG n.val) fAB_TRIG_PER = 0 ∧ s.tickN + 64 ≤ f ∧
      f < s.tickN + 64 + s.fld (aAB_TRIG n.val) fAB_TRIG_PER) →
      Writes (.abRun m n b) m (aAB_CMD n.val) (putF 1#32 fAB_CMD_AT (if b then 1 else 0)) .ok s (fun u => (u.ab n.val).run = some { first := f, k := 0, taken := 0 } ∧
      u.fld (aAB_STATUS n.val) fAB_STATUS_STATE = 1 ∧ (∀ k, k ≠ n.val → u.ab k = s.ab k) ∧
      s.keepsElse u [.ana] (among [(aAB_STATUS n.val)]))) ∧
    (∀ (m : Rm) (n : Fin 48) (b : Bool) (f : Nat) (t : Nat), s.ringReady m (aAB_CMD n.val) → (s.ab n.val).run = none →
      (s.ab n.val).queued = none → (s.ab n.val).calAt = some t →
      (if b then f = s.reg64 (aAB_START_LO n.val) (aAB_START_HI n.val) ∧
      s.tickN + 64 ≤ f else f % s.fld (aAB_TRIG n.val) fAB_TRIG_PER = 0 ∧ s.tickN + 64 ≤ f ∧
      f < s.tickN + 64 + s.fld (aAB_TRIG n.val) fAB_TRIG_PER) →
      Writes (.abRun m n b) m (aAB_CMD n.val) (putF 1#32 fAB_CMD_AT (if b then 1 else 0)) .ok s (fun u => u.ab n.val = { (s.ab n.val) with queued := some f } ∧
      u.bit (aAB_STATUS n.val) fAB_STATUS_RUN_Q ∧ (∀ k, k ≠ n.val → u.ab k = s.ab k) ∧ s.keepsElse u [.ana,
      .hw] (among [(aAB_STATUS n.val)]))) ∧
    (∀ (m : Rm) (n : Fin 48) (b : Bool), s.ringReady m (aAB_CMD n.val) → ((s.ab n.val).run ≠ none ∨ (s.ab n.val).queued ≠ none) →
      Writes (.abRun m n b) m (aAB_CMD n.val) (putF 1#32 fAB_CMD_AT (if b then 1 else 0)) .refused s (fun u => u = s)) ∧
    (∀ (m : Rm) (n : Fin 48), s.ringReady m (aAB_CMD n.val) → (s.ab n.val).run = none → (s.ab n.val).queued = none →
      s.reg64 (aAB_START_LO n.val) (aAB_START_HI n.val) < s.tickN + 64 →
      Writes (.abRun m n true) m (aAB_CMD n.val) (putF 1#32 fAB_CMD_AT (if true then 1 else 0)) .refused s (fun u => u.bit (aAB_FLAG n.val) fAB_FLAG_LATE ∧
      (s.bit (aAB_FLAG n.val) fAB_FLAG_LATE = false → u.showsEvent (1729 + 2 * n.val)) ∧ u.ana = s.ana ∧ s.keepsElse u [.ev,
      .hw] (among [aAB_FLAG n.val]))) ∧
    (∀ (m : Rm) (n : Fin 48), s.ringReady m (aAB_CMD n.val) → (s.ab n.val).run = none →
      Writes (.abStop m n) m (aAB_CMD n.val) 2#32 .ok s (fun u => u.ab n.val = { (s.ab n.val) with queued := none } ∧
      u.bit (aAB_STATUS n.val) fAB_STATUS_RUN_Q = false ∧ (∀ k, k ≠ n.val → u.ab k = s.ab k) ∧
      s.keepsElse u [.ana] (among [(aAB_STATUS n.val)]))) ∧
    (∀ (m : Rm) (n : Fin 48), s.ringReady m (aAB_CMD n.val) → (s.ab n.val).run ≠ none →
      Writes (.abStop m n) m (aAB_CMD n.val) 2#32 .ok s (fun u => (u.ab n.val).run = none ∧ (u.ab n.val).queued = none ∧
      u.bit (aAB_STATUS n.val) fAB_STATUS_RUN_Q = false ∧ (s.bit (aAB_STATUS n.val) fAB_STATUS_CAL_Q →
      (u.ab n.val).calAt = some s.tickN ∧ u.fld (aAB_STATUS n.val) fAB_STATUS_STATE = 3 ∧
      u.bit (aAB_STATUS n.val) fAB_STATUS_CAL_Q = false) ∧ (s.bit (aAB_STATUS n.val) fAB_STATUS_CAL_Q = false →
      (u.ab n.val).calAt = (s.ab n.val).calAt ∧ u.fld (aAB_STATUS n.val) fAB_STATUS_STATE = 0) ∧ ((s.ab n.val).samples ≠ [] →
      (u.ab n.val).samples = (s.ab n.val).samples.dropLast ++ ((s.ab n.val).samples.getLast?.map (fun z => { z with last := true })).toList ∧
      (u.ab n.val).fifo = (s.ab n.val).fifo ∧ (u.ab n.val).half = (s.ab n.val).half) ∧ ((s.ab n.val).samples = [] →
      (u.ab n.val).samples = []) ∧ ((s.ab n.val).samples = [] → (s.ab n.val).half = none →
      (u.ab n.val).fifo = (s.ab n.val).fifo) ∧ s.keepsElse u [.ana, .ev, .hw] (among [(aAB_STATUS n.val), aAB_FLAG n.val]))) ∧
    (∀ (m : Rm) (n : Fin 48) (h : BitVec 16), s.ringReady m (aAB_CMD n.val) → (s.ab n.val).run ≠ none →
      (s.ab n.val).samples = [] → (s.ab n.val).half = some h →
      Writes (.abStop m n) m (aAB_CMD n.val) 2#32 .ok s (fun u => (u.ab n.val).half = none ∧
      s.abTakes u n.val (s.fld (aAB_ACT_ADC n.val) fAB_ACT_ADC_DEST) (h.setWidth 32))) ∧
    (∀ (m : Rm) (n : Fin 48), s.ringReady m (aAB_CMD n.val) → s.bit (aAB_STATUS n.val) fAB_STATUS_CAL_Q = false →
      (s.ab n.val).run = none → (s.ab n.val).calAt = none →
      Writes (.abCal m n) m (aAB_CMD n.val) 4#32 .ok s (fun u => u.ab n.val = { (s.ab n.val) with calAt := some s.tickN } ∧
      u.fld (aAB_STATUS n.val) fAB_STATUS_STATE = 3 ∧ (∀ k, k ≠ n.val → u.ab k = s.ab k) ∧
      s.keepsElse u [.ana] (among [(aAB_STATUS n.val)]))) ∧
    (∀ (m : Rm) (n : Fin 48), s.ringReady m (aAB_CMD n.val) → s.bit (aAB_STATUS n.val) fAB_STATUS_CAL_Q = false →
      ((s.ab n.val).run ≠ none ∨ (s.ab n.val).calAt ≠ none) →
      Writes (.abCal m n) m (aAB_CMD n.val) 4#32 .ok s (fun u => u.bit (aAB_STATUS n.val) fAB_STATUS_CAL_Q ∧
      s.keepsElse u [.hw] (among [(aAB_STATUS n.val)]))) ∧
    (∀ (m : Rm) (n : Fin 48), s.ringReady m (aAB_CMD n.val) → s.bit (aAB_STATUS n.val) fAB_STATUS_CAL_Q →
      Writes (.abCal m n) m (aAB_CMD n.val) 4#32 .refused s (fun u => u = s)) ∧
    (∀ (n : Fin 48) (c : Bool) (f : Nat), s.anaRuns 56 → (if c then s.fld (aAB_TRIG n.val) fAB_TRIG_TSRC = 1 ∧
      s.bit (aAB_ACT_IN n.val) fAB_ACT_IN_CEN ∧ (s.ab n.val).calAt = none else s.fld (aAB_TRIG n.val) fAB_TRIG_TSRC = 2) →
      (s.ab n.val).run = none → (s.ab n.val).queued = none → f % s.fld (aAB_TRIG n.val) fAB_TRIG_PER = 0 → s.tickN + 8 ≤ f →
      f < s.tickN + 8 + s.fld (aAB_TRIG n.val) fAB_TRIG_PER → (s.ab n.val).calAt = none →
      Leads (.abTriggerEdge n c) s (fun t => (t.ab n.val).run = some { first := f, k := 0, taken := 0 } ∧
      t.fld (aAB_STATUS n.val) fAB_STATUS_STATE = 1 ∧ (∀ k, k ≠ n.val → t.ab k = s.ab k) ∧
      s.keepsElse t [.ana] (among [(aAB_STATUS n.val)]))) ∧
    (∀ (n : Fin 48) (c : Bool) (f : Nat), s.anaRuns 56 → (if c then s.fld (aAB_TRIG n.val) fAB_TRIG_TSRC = 1 ∧
      s.bit (aAB_ACT_IN n.val) fAB_ACT_IN_CEN ∧ (s.ab n.val).calAt = none else s.fld (aAB_TRIG n.val) fAB_TRIG_TSRC = 2) →
      (s.ab n.val).run = none → (s.ab n.val).queued = none → f % s.fld (aAB_TRIG n.val) fAB_TRIG_PER = 0 → s.tickN + 8 ≤ f →
      f < s.tickN + 8 + s.fld (aAB_TRIG n.val) fAB_TRIG_PER → (s.ab n.val).calAt ≠ none →
      Leads (.abTriggerEdge n c) s (fun t => t.ab n.val = { (s.ab n.val) with queued := some f } ∧
      t.bit (aAB_STATUS n.val) fAB_STATUS_RUN_Q ∧ (∀ k, k ≠ n.val → t.ab k = s.ab k) ∧ s.keepsElse t [.ana,
      .hw] (among [(aAB_STATUS n.val)]))) ∧
    (∀ (n : Fin 48) (c : Bool), ¬(s.anaRuns 56 ∧ (if c then s.fld (aAB_TRIG n.val) fAB_TRIG_TSRC = 1 ∧
      s.bit (aAB_ACT_IN n.val) fAB_ACT_IN_CEN ∧ (s.ab n.val).calAt = none else s.fld (aAB_TRIG n.val) fAB_TRIG_TSRC = 2) ∧
      (s.ab n.val).run = none ∧ (s.ab n.val).queued = none) → exec (.abTriggerEdge n c) s = .next (s)) ∧
    (∀ (n : Fin 48) (v : BitVec 20) (r : AbRun) (q : Int), (s.ab n.val).run = some r → s.anaRuns 56 →
      r.first + r.k * s.fld (aAB_TRIG n.val) fAB_TRIG_PER ≤ s.tickN →
      q = ((16 * v.toInt - (sint 16 (s.fld (aAB_CAL_ADC n.val) fAB_CAL_ADC_OFS))) * (s.fld (aAB_CAL_ADC n.val) fAB_CAL_ADC_GAIN : Int)) / 524288 →
      ((s.reg (aAB_COUNT n.val)).toNat = 0 ∨ r.taken + 1 < (s.reg (aAB_COUNT n.val)).toNat) →
      Leads (.abSample n v) s (fun t => ((t.ab n.val).samples = (s.ab n.val).samples ++ [{ tick := r.first + r.k * s.fld (aAB_TRIG n.val) fAB_TRIG_PER, code := BitVec.ofInt 16 (clampInt (-32768) 32767 (q)), ovr := decide (clampInt (-32768) 32767 (q) ≠ q), last := false }] ∨
      (((16 * v.toInt - (sint 16 (s.fld (aAB_CAL_ADC n.val) fAB_CAL_ADC_OFS))) * (s.fld (aAB_CAL_ADC n.val) fAB_CAL_ADC_GAIN : Int)) % 524288 ≠ 0 ∧
      (t.ab n.val).samples = (s.ab n.val).samples ++ [{ tick := r.first + r.k * s.fld (aAB_TRIG n.val) fAB_TRIG_PER, code := BitVec.ofInt 16 (clampInt (-32768) 32767 (q + 1)), ovr := decide (clampInt (-32768) 32767 (q + 1) ≠ q + 1), last := false }])) ∧
      (t.ab n.val).run = some { r with k := r.k + 1, taken := r.taken + 1 } ∧ t.fld (aAB_STATUS n.val) fAB_STATUS_STATE = 2 ∧
      (∀ k, k ≠ n.val → t.ab k = s.ab k) ∧ s.keepsElse t [.ana, .free] (among [(aAB_STATUS n.val)]))) ∧
    (∀ (n : Fin 48) (v : BitVec 20) (r : AbRun) (q : Int), (s.ab n.val).run = some r → s.anaRuns 56 →
      r.first + r.k * s.fld (aAB_TRIG n.val) fAB_TRIG_PER ≤ s.tickN →
      q = ((16 * v.toInt - (sint 16 (s.fld (aAB_CAL_ADC n.val) fAB_CAL_ADC_OFS))) * (s.fld (aAB_CAL_ADC n.val) fAB_CAL_ADC_GAIN : Int)) / 524288 →
      (s.reg (aAB_COUNT n.val)).toNat ≠ 0 → (s.reg (aAB_COUNT n.val)).toNat ≤ r.taken + 1 →
      Leads (.abSample n v) s (fun t => ((t.ab n.val).samples = (s.ab n.val).samples ++ [{ tick := r.first + r.k * s.fld (aAB_TRIG n.val) fAB_TRIG_PER, code := BitVec.ofInt 16 (clampInt (-32768) 32767 (q)), ovr := decide (clampInt (-32768) 32767 (q) ≠ q), last := true }] ∨
      (((16 * v.toInt - (sint 16 (s.fld (aAB_CAL_ADC n.val) fAB_CAL_ADC_OFS))) * (s.fld (aAB_CAL_ADC n.val) fAB_CAL_ADC_GAIN : Int)) % 524288 ≠ 0 ∧
      (t.ab n.val).samples = (s.ab n.val).samples ++ [{ tick := r.first + r.k * s.fld (aAB_TRIG n.val) fAB_TRIG_PER, code := BitVec.ofInt 16 (clampInt (-32768) 32767 (q + 1)), ovr := decide (clampInt (-32768) 32767 (q + 1) ≠ q + 1), last := true }])) ∧
      (t.ab n.val).run = none ∧ (s.bit (aAB_STATUS n.val) fAB_STATUS_CAL_Q → (t.ab n.val).calAt = some s.tickN ∧
      t.fld (aAB_STATUS n.val) fAB_STATUS_STATE = 3 ∧ t.bit (aAB_STATUS n.val) fAB_STATUS_CAL_Q = false) ∧
      (s.bit (aAB_STATUS n.val) fAB_STATUS_CAL_Q = false → (t.ab n.val).calAt = (s.ab n.val).calAt ∧
      t.fld (aAB_STATUS n.val) fAB_STATUS_STATE = 0) ∧ t.bit (aAB_FLAG n.val) fAB_FLAG_RUN_DONE ∧
      (s.bit (aAB_FLAG n.val) fAB_FLAG_RUN_DONE = false → t.showsEvent (1729 + 2 * n.val)) ∧ (∀ k, k ≠ n.val →
      t.ab k = s.ab k) ∧ s.keepsElse t [.ana, .ev, .hw, .free] (among [(aAB_STATUS n.val), aAB_FLAG n.val]))) ∧
    (∀ (n : Fin 48) (v : BitVec 20), (s.anaRuns 56 = false ∨
      (s.ab n.val).run.all (fun r => decide (s.tickN < r.first + r.k * s.fld (aAB_TRIG n.val) fAB_TRIG_PER))) →
      exec (.abSample n v) s = .next (s)) ∧
    (∀ (n : Fin 48) (z : AbSample) (l : List AbSample) (c : W32) (k h : BitVec 16), (s.ab n.val).samples = z :: l → s.anaRuns 56 →
      z.tick + 256 ≤ s.tickN → c = s.abCfgAt n.val z.tick → k = (if getB c fAB_CFG_ADC_EN then z.code else 0#16) →
      h = (if getB c fAB_CFG_ADC_UNI then k + 0x8000#16 else k) → (getF c fAB_CFG_ADC_FMT = 0 ∨ getF c fAB_CFG_ADC_FMT = 3) →
      Leads (.abResultEnter n) s (fun t => (t.ab n.val).samples = l ∧
      (t.ab n.val).settleLeft = (if ((s.ab n.val).settleAt ≤ z.tick + 1 ∧
      0 < (s.ab n.val).settleLeft) then (s.ab n.val).settleLeft - 1 else (s.ab n.val).settleLeft) ∧ ((getB c fAB_CFG_ADC_EN ∧
      z.ovr) → t.bit (aAB_FLAG n.val) fAB_FLAG_OVR) ∧ s.keepsElse t [.ana, .ev, .hw] (among [aAB_FLAG n.val]) ∧
      s.abTakes t n.val (getF c fAB_CFG_ADC_DEST) (if getB c fAB_CFG_ADC_UNI then h.setWidth 32 else h.signExtend 32) ∧
      (t.ab n.val).half = (s.ab n.val).half)) ∧
    (∀ (n : Fin 48) (z : AbSample) (l : List AbSample) (c : W32) (k h : BitVec 16), (s.ab n.val).samples = z :: l → s.anaRuns 56 →
      z.tick + 256 ≤ s.tickN → c = s.abCfgAt n.val z.tick → k = (if getB c fAB_CFG_ADC_EN then z.code else 0#16) →
      h = (if getB c fAB_CFG_ADC_UNI then k + 0x8000#16 else k) → getF c fAB_CFG_ADC_FMT = 1 →
      Leads (.abResultEnter n) s (fun t => (t.ab n.val).samples = l ∧
      (t.ab n.val).settleLeft = (if ((s.ab n.val).settleAt ≤ z.tick + 1 ∧
      0 < (s.ab n.val).settleLeft) then (s.ab n.val).settleLeft - 1 else (s.ab n.val).settleLeft) ∧ ((getB c fAB_CFG_ADC_EN ∧
      z.ovr) → t.bit (aAB_FLAG n.val) fAB_FLAG_OVR) ∧ s.keepsElse t [.ana, .ev, .hw] (among [aAB_FLAG n.val]) ∧
      s.abTakes t n.val (getF c fAB_CFG_ADC_DEST) (h ++ BitVec.ofNat 16 ((if (getB c fAB_CFG_ADC_EN ∧
      z.ovr) then 2 else 0) + (if ((s.ab n.val).settleAt ≤ z.tick + 1 ∧ 0 < (s.ab n.val).settleLeft) then 1 else 0))) ∧
      (t.ab n.val).half = (s.ab n.val).half)) ∧
    (∀ (n : Fin 48) (z : AbSample) (l : List AbSample) (c : W32) (k h : BitVec 16) (g : BitVec 16),
      (s.ab n.val).samples = z :: l → s.anaRuns 56 → z.tick + 256 ≤ s.tickN → c = s.abCfgAt n.val z.tick →
      k = (if getB c fAB_CFG_ADC_EN then z.code else 0#16) → h = (if getB c fAB_CFG_ADC_UNI then k + 0x8000#16 else k) →
      getF c fAB_CFG_ADC_FMT = 2 → (s.ab n.val).half = some g → Leads (.abResultEnter n) s (fun t => (t.ab n.val).samples = l ∧
      (t.ab n.val).settleLeft = (if ((s.ab n.val).settleAt ≤ z.tick + 1 ∧
      0 < (s.ab n.val).settleLeft) then (s.ab n.val).settleLeft - 1 else (s.ab n.val).settleLeft) ∧ ((getB c fAB_CFG_ADC_EN ∧
      z.ovr) → t.bit (aAB_FLAG n.val) fAB_FLAG_OVR) ∧ s.keepsElse t [.ana, .ev, .hw] (among [aAB_FLAG n.val]) ∧
      s.abTakes t n.val (getF c fAB_CFG_ADC_DEST) (h ++ g) ∧ (t.ab n.val).half = none)) ∧
    (∀ (n : Fin 48) (z : AbSample) (l : List AbSample) (c : W32) (k h : BitVec 16), (s.ab n.val).samples = z :: l → s.anaRuns 56 →
      z.tick + 256 ≤ s.tickN → c = s.abCfgAt n.val z.tick → k = (if getB c fAB_CFG_ADC_EN then z.code else 0#16) →
      h = (if getB c fAB_CFG_ADC_UNI then k + 0x8000#16 else k) → getF c fAB_CFG_ADC_FMT = 2 → (s.ab n.val).half = none →
      z.last = false → Leads (.abResultEnter n) s (fun t => (t.ab n.val).samples = l ∧
      (t.ab n.val).settleLeft = (if ((s.ab n.val).settleAt ≤ z.tick + 1 ∧
      0 < (s.ab n.val).settleLeft) then (s.ab n.val).settleLeft - 1 else (s.ab n.val).settleLeft) ∧ ((getB c fAB_CFG_ADC_EN ∧
      z.ovr) → t.bit (aAB_FLAG n.val) fAB_FLAG_OVR) ∧ s.keepsElse t [.ana, .ev, .hw] (among [aAB_FLAG n.val]) ∧
      (t.ab n.val).half = some h ∧ (t.ab n.val).fifo = (s.ab n.val).fifo)) ∧
    (∀ (n : Fin 48) (z : AbSample) (l : List AbSample) (c : W32) (k h : BitVec 16), (s.ab n.val).samples = z :: l → s.anaRuns 56 →
      z.tick + 256 ≤ s.tickN → c = s.abCfgAt n.val z.tick → k = (if getB c fAB_CFG_ADC_EN then z.code else 0#16) →
      h = (if getB c fAB_CFG_ADC_UNI then k + 0x8000#16 else k) → getF c fAB_CFG_ADC_FMT = 2 → (s.ab n.val).half = none →
      z.last → Leads (.abResultEnter n) s (fun t => (t.ab n.val).samples = l ∧
      (t.ab n.val).settleLeft = (if ((s.ab n.val).settleAt ≤ z.tick + 1 ∧
      0 < (s.ab n.val).settleLeft) then (s.ab n.val).settleLeft - 1 else (s.ab n.val).settleLeft) ∧ ((getB c fAB_CFG_ADC_EN ∧
      z.ovr) → t.bit (aAB_FLAG n.val) fAB_FLAG_OVR) ∧ s.keepsElse t [.ana, .ev, .hw] (among [aAB_FLAG n.val]) ∧
      s.abTakes t n.val (getF c fAB_CFG_ADC_DEST) (h.setWidth 32) ∧ (t.ab n.val).half = none)) ∧
    (∀ (n : Fin 48), (s.anaRuns 56 = false ∨ (s.ab n.val).samples.head?.all (fun z => decide (s.tickN < z.tick + 256))) →
      exec (.abResultEnter n) s = .next (s)) ∧
    (∀ (n : Fin 48) (k : Nat) (v w : W32), (s.ab n.val).calAt = some k → s.anaRuns 56 → k + 3000000 ≤ s.tickN →
      s.bit (aAB_STATUS n.val) fAB_STATUS_CAL_Q = false → (s.ab n.val).queued = none →
      Leads (.abCalEnd n v w) s (fun t => t.reg (aAB_CAL_AMP n.val) = v ∧ t.reg (aAB_CAL_ADC n.val) = w ∧
      t.bit (aAB_FLAG n.val) fAB_FLAG_CAL_DONE ∧ (s.bit (aAB_FLAG n.val) fAB_FLAG_CAL_DONE = false →
      t.showsEvent (1729 + 2 * n.val)) ∧ (∀ k, k ≠ n.val → t.ab k = s.ab k) ∧ s.keepsElse t [.ana, .ev,
      .hw] (among [aAB_CAL_AMP n.val, aAB_CAL_ADC n.val, (aAB_STATUS n.val), aAB_FLAG n.val]) ∧
      t.ab n.val = { (s.ab n.val) with calAt := none } ∧ t.fld (aAB_STATUS n.val) fAB_STATUS_STATE = 0)) ∧
    (∀ (n : Fin 48) (k : Nat) (v w : W32), (s.ab n.val).calAt = some k → s.anaRuns 56 → k + 3000000 ≤ s.tickN →
      s.bit (aAB_STATUS n.val) fAB_STATUS_CAL_Q → Leads (.abCalEnd n v w) s (fun t => t.reg (aAB_CAL_AMP n.val) = v ∧
      t.reg (aAB_CAL_ADC n.val) = w ∧ t.bit (aAB_FLAG n.val) fAB_FLAG_CAL_DONE ∧
      (s.bit (aAB_FLAG n.val) fAB_FLAG_CAL_DONE = false → t.showsEvent (1729 + 2 * n.val)) ∧ (∀ k, k ≠ n.val →
      t.ab k = s.ab k) ∧ s.keepsElse t [.ana, .ev, .hw] (among [aAB_CAL_AMP n.val, aAB_CAL_ADC n.val, (aAB_STATUS n.val),
      aAB_FLAG n.val]) ∧ t.ab n.val = { (s.ab n.val) with calAt := some s.tickN } ∧
      t.fld (aAB_STATUS n.val) fAB_STATUS_STATE = 3 ∧ t.bit (aAB_STATUS n.val) fAB_STATUS_CAL_Q = false)) ∧
    (∀ (n : Fin 48) (k : Nat) (v w : W32) (f : Nat), (s.ab n.val).calAt = some k → s.anaRuns 56 → k + 3000000 ≤ s.tickN →
      s.bit (aAB_STATUS n.val) fAB_STATUS_CAL_Q = false → (s.ab n.val).queued = some f → s.tickN < f →
      Leads (.abCalEnd n v w) s (fun t => t.reg (aAB_CAL_AMP n.val) = v ∧ t.reg (aAB_CAL_ADC n.val) = w ∧
      t.bit (aAB_FLAG n.val) fAB_FLAG_CAL_DONE ∧ (s.bit (aAB_FLAG n.val) fAB_FLAG_CAL_DONE = false →
      t.showsEvent (1729 + 2 * n.val)) ∧ (∀ k, k ≠ n.val → t.ab k = s.ab k) ∧ s.keepsElse t [.ana, .ev,
      .hw] (among [aAB_CAL_AMP n.val, aAB_CAL_ADC n.val, (aAB_STATUS n.val), aAB_FLAG n.val]) ∧
      (t.ab n.val).run = some { first := f, k := 0, taken := 0 } ∧ (t.ab n.val).calAt = none ∧ (t.ab n.val).queued = none ∧
      t.fld (aAB_STATUS n.val) fAB_STATUS_STATE = 1 ∧ t.bit (aAB_STATUS n.val) fAB_STATUS_RUN_Q = false)) ∧
    (∀ (n : Fin 48) (k : Nat) (v w : W32) (f j : Nat), (s.ab n.val).calAt = some k → s.anaRuns 56 → k + 3000000 ≤ s.tickN →
      s.bit (aAB_STATUS n.val) fAB_STATUS_CAL_Q = false → (s.ab n.val).queued = some f → f ≤ s.tickN →
      s.tickN + 64 ≤ f + j * s.fld (aAB_TRIG n.val) fAB_TRIG_PER →
      f + j * s.fld (aAB_TRIG n.val) fAB_TRIG_PER < s.tickN + 64 + s.fld (aAB_TRIG n.val) fAB_TRIG_PER →
      Leads (.abCalEnd n v w) s (fun t => t.reg (aAB_CAL_AMP n.val) = v ∧ t.reg (aAB_CAL_ADC n.val) = w ∧
      t.bit (aAB_FLAG n.val) fAB_FLAG_CAL_DONE ∧ (s.bit (aAB_FLAG n.val) fAB_FLAG_CAL_DONE = false →
      t.showsEvent (1729 + 2 * n.val)) ∧ (∀ k, k ≠ n.val → t.ab k = s.ab k) ∧ s.keepsElse t [.ana, .ev,
      .hw] (among [aAB_CAL_AMP n.val, aAB_CAL_ADC n.val, (aAB_STATUS n.val), aAB_FLAG n.val]) ∧
      (t.ab n.val).run = some { first := f, k := j, taken := 0 } ∧ (t.ab n.val).calAt = none ∧ (t.ab n.val).queued = none ∧
      t.fld (aAB_STATUS n.val) fAB_STATUS_STATE = 1 ∧ t.bit (aAB_STATUS n.val) fAB_STATUS_RUN_Q = false ∧
      t.bit (aAB_FLAG n.val) fAB_FLAG_LATE)) ∧
    (∀ (n : Fin 48) (v w : W32), (s.anaRuns 56 = false ∨ (s.ab n.val).calAt.all (fun k => decide (s.tickN < k + 3000000))) →
      exec (.abCalEnd n v w) s = .next (s)) ∧
    (∀ (m : Rm) (n : Fin 48) (w : W32) (l : List W32), s.ringReady m (aAB_RESULT n.val) → (s.ab n.val).fifo = w :: l →
      m ≠ .debug → destRing (s.reg (aAB_ACT_ADC n.val)) → Leads (.abResultRead m n) s (fun t => (t.master m).answered ∧
      (t.master m).ansStatus = .ok ∧ (t.master m).ansData = w ∧ t.ab n.val = { (s.ab n.val) with fifo := l } ∧ (∀ k, k ≠ n.val →
      t.ab k = s.ab k) ∧ s.keepsElse t [.ringCore, .ringDebug, .ringConfig, .ana] (fun _ => false))) ∧
    (∀ (n : Fin 48), s.ringReady .debug (aAB_RESULT n.val) →
      Leads (.abResultRead .debug n) s (fun t => (t.master .debug).answered ∧ (t.master .debug).ansStatus = .ok ∧
      (t.master .debug).ansData = (s.ab n.val).fifo.headD 0#32 ∧ s.keepsElse t [.ringCore, .ringDebug,
      .ringConfig] (fun _ => false))) ∧
    (∀ (m : Rm) (n : Fin 48), s.ringReady m (aAB_RESULT n.val) → m ≠ .debug → ((s.ab n.val).fifo = [] ∨
      destRing (s.reg (aAB_ACT_ADC n.val)) = false) → Leads (.abResultRead m n) s (fun t => (t.master m).answered ∧
      (t.master m).ansStatus = .ok ∧ (t.master m).ansData = 0#32 ∧ t.bit (aAB_FLAG n.val) fAB_FLAG_RD_EMPTY ∧
      (s.bit (aAB_FLAG n.val) fAB_FLAG_RD_EMPTY = false → t.showsEvent (1729 + 2 * n.val)) ∧ s.keepsElse t [.ringCore,
      .ringDebug, .ringConfig, .ev, .hw] (among [aAB_FLAG n.val]))) ∧
    (∀ (m : Rm) (n : Fin 48) (a : Bool) (v : W32), s.ringReady m (if a then aAB_CAL_ADC n.val else aAB_CAL_AMP n.val) →
      (s.ab n.val).calAt = none →
      Writes (.abCalWrite m n a v) m (if a then aAB_CAL_ADC n.val else aAB_CAL_AMP n.val) v .ok s (fun u => u = s.plainWrite (if a then aAB_CAL_ADC n.val else aAB_CAL_AMP n.val) v)) ∧
    (∀ (m : Rm) (n : Fin 48) (a : Bool) (v : W32), s.ringReady m (if a then aAB_CAL_ADC n.val else aAB_CAL_AMP n.val) →
      (s.ab n.val).calAt ≠ none →
      Writes (.abCalWrite m n a v) m (if a then aAB_CAL_ADC n.val else aAB_CAL_AMP n.val) v .refused s (fun u => u = s))

/-- RUN starts at IC_START, 64 ticks on, or with the mains, or waits for a calibration; STOP ends the run but not the
conversion; CAL calibrates or is queued. A conversion starts on its grid tick, or the tick is skipped with LATE, or on a mains
crossing; its phases follow S + I and S + 2I, and its end gives the corrected word to the FIFO. Calibration stores the factors
or sets CAL_FAIL; a run goes on after it. A crossing ends a period and may lock or unlock the tracker, as 75,000,000 silent
ticks do. REF_LOOP is refused on a used net. Each event does nothing where nothing is due. Model choices it rests on: log
entries 99, 101, 106. (15_integrating_converters.md R352 to R364, R368, 18_test_and_loopbacks.md R421, 17_debug.md R400) -/
def Obligations.Conversions : Prop :=
  ∀ s : State, s.Inv →
    (∀ (m : Rm) (n : Fin 16) (b : Bool) (f : Nat), s.ringReady m (aIC_CMD n.val) → (s.ic n.val).run = none →
      (s.ic n.val).queued = none → (s.ic n.val).cal = none → (if s.fld (aIC_CFG n.val) fIC_CFG_TSRC = 2 then s.mainsLocked ∧
      f = s.tickN + 64 else if b then f = s.reg64 (aIC_START_LO n.val) (aIC_START_HI n.val) ∧
      s.tickN + 64 ≤ f else f = s.tickN + 64) →
      Writes (.icRun m n b) m (aIC_CMD n.val) (putF 1#32 fAB_CMD_AT (if b then 1 else 0)) .ok s (fun u => u.ic n.val = { (s.ic n.val) with run := some { first := f, k := 0, taken := 0, mains := s.fld (aIC_CFG n.val) fIC_CFG_TSRC == 2, next := f } } ∧
      u.fld (aIC_STATUS n.val) fIC_STATUS_STATE = (if (s.ic n.val).conv.isSome then 2 else 1) ∧ (∀ k, k ≠ n.val →
      u.ic k = s.ic k) ∧ s.keepsElse u [.ana] (among [(aIC_STATUS n.val)]))) ∧
    (∀ (m : Rm) (n : Fin 16) (b : Bool) (f : Nat), s.ringReady m (aIC_CMD n.val) → (s.ic n.val).run = none →
      (s.ic n.val).queued = none → (s.ic n.val).cal ≠ none → (if s.fld (aIC_CFG n.val) fIC_CFG_TSRC = 2 then s.mainsLocked ∧
      f = s.tickN + 64 else if b then f = s.reg64 (aIC_START_LO n.val) (aIC_START_HI n.val) ∧
      s.tickN + 64 ≤ f else f = s.tickN + 64) →
      Writes (.icRun m n b) m (aIC_CMD n.val) (putF 1#32 fAB_CMD_AT (if b then 1 else 0)) .ok s (fun u => u.ic n.val = { (s.ic n.val) with queued := some { first := f, k := 0, taken := 0, mains := s.fld (aIC_CFG n.val) fIC_CFG_TSRC == 2, next := f } } ∧
      u.bit (aIC_STATUS n.val) fIC_STATUS_RUN_Q ∧ u.fld (aIC_STATUS n.val) fIC_STATUS_STATE = 3 ∧ (∀ k, k ≠ n.val →
      u.ic k = s.ic k) ∧ s.keepsElse u [.ana, .hw] (among [(aIC_STATUS n.val)]))) ∧
    (∀ (m : Rm) (n : Fin 16) (b : Bool), s.ringReady m (aIC_CMD n.val) → ((s.ic n.val).run ≠ none ∨ (s.ic n.val).queued ≠ none ∨
      (s.fld (aIC_CFG n.val) fIC_CFG_TSRC = 2 ∧ s.mainsLocked = false)) →
      Writes (.icRun m n b) m (aIC_CMD n.val) (putF 1#32 fAB_CMD_AT (if b then 1 else 0)) .refused s (fun u => u = s)) ∧
    (∀ (m : Rm) (n : Fin 16), s.ringReady m (aIC_CMD n.val) → (s.ic n.val).run = none → (s.ic n.val).queued = none →
      s.fld (aIC_CFG n.val) fIC_CFG_TSRC ≠ 2 → s.reg64 (aIC_START_LO n.val) (aIC_START_HI n.val) < s.tickN + 64 →
      Writes (.icRun m n true) m (aIC_CMD n.val) (putF 1#32 fAB_CMD_AT (if true then 1 else 0)) .refused s (fun u => u.bit (aIC_FLAG n.val) fIC_FLAG_LATE ∧
      (s.bit (aIC_FLAG n.val) fIC_FLAG_LATE = false → u.showsEvent (1857 + 2 * n.val)) ∧ u.ana = s.ana ∧ s.keepsElse u [.ev,
      .hw] (among [aIC_FLAG n.val]))) ∧
    (∀ (m : Rm) (n : Fin 16), s.ringReady m (aIC_CMD n.val) →
      Writes (.icStop m n) m (aIC_CMD n.val) 2#32 .ok s (fun u => u.ic n.val = { (s.ic n.val) with run := none, queued := none } ∧
      u.fld (aIC_STATUS n.val) fIC_STATUS_STATE = (if (s.ic n.val).cal.isSome then 3 else if (s.ic n.val).conv.isSome then 2 else 0) ∧
      u.bit (aIC_STATUS n.val) fIC_STATUS_RUN_Q = false ∧ (∀ k, k ≠ n.val → u.ic k = s.ic k) ∧
      s.keepsElse u [.ana] (among [(aIC_STATUS n.val)]))) ∧
    (∀ (m : Rm) (n : Fin 16), s.ringReady m (aIC_CMD n.val) → s.bit (aIC_STATUS n.val) fIC_STATUS_CAL_Q = false →
      (s.ic n.val).conv = none → (s.ic n.val).cal = none →
      Writes (.icCal m n) m (aIC_CMD n.val) 4#32 .ok s (fun u => u.ic n.val = { (s.ic n.val) with cal := some (s.tickN, icLength (s.fld aMS_CAL fMS_CAL_NPLC) s.linePeriod) } ∧
      u.fld (aIC_STATUS n.val) fIC_STATUS_STATE = 3 ∧
      u.fld (aIC_STATUS n.val) fIC_STATUS_CAL_RANGE = s.fld (aIC_CFG n.val) fIC_CFG_RANGE ∧ (∀ k, k ≠ n.val → u.ic k = s.ic k) ∧
      s.keepsElse u [.ana, .hw] (among [(aIC_STATUS n.val)]))) ∧
    (∀ (m : Rm) (n : Fin 16), s.ringReady m (aIC_CMD n.val) → s.bit (aIC_STATUS n.val) fIC_STATUS_CAL_Q = false →
      ((s.ic n.val).conv ≠ none ∨ (s.ic n.val).cal ≠ none) →
      Writes (.icCal m n) m (aIC_CMD n.val) 4#32 .ok s (fun u => u.bit (aIC_STATUS n.val) fIC_STATUS_CAL_Q ∧
      s.keepsElse u [.hw] (among [(aIC_STATUS n.val)]))) ∧
    (∀ (m : Rm) (n : Fin 16), s.ringReady m (aIC_CMD n.val) → s.bit (aIC_STATUS n.val) fIC_STATUS_CAL_Q →
      Writes (.icCal m n) m (aIC_CMD n.val) 4#32 .refused s (fun u => u = s)) ∧
    (∀ (n : Fin 16) (r : IcRun), (s.ic n.val).run = some r → s.anaRuns 57 → r.mains = false → (s.ic n.val).cal = none →
      s.icDue n.val r ≤ s.tickN → (s.ic n.val).conv = none →
      Leads (.conversionStart n) s (fun t => t.ic n.val = { (s.ic n.val) with conv := some { start := s.icDue n.val r, len := icLength (getF (s.reg (aIC_CFG n.val)) fIC_CFG_NPLC) s.linePeriod, cfg := (s.reg (aIC_CFG n.val)), offset := s.reg (aCAL_OFFSET n.val (getF (s.reg (aIC_CFG n.val)) fIC_CFG_RANGE)), gain := s.reg (aCAL_GAIN n.val (getF (s.reg (aIC_CFG n.val)) fIC_CFG_RANGE)), disturbed := s.fld aMS_CTRL fMS_CTRL_SRC == 0 && !s.mainsLocked, phase := 0 }, run := some { r with k := r.k + 1, taken := r.taken + 1 } } ∧
      t.fld (aIC_STATUS n.val) fIC_STATUS_STATE = 2 ∧ (∀ k, k ≠ n.val → t.ic k = s.ic k) ∧ s.keepsElse t [.ana,
      .hw] (among [(aIC_STATUS n.val)]))) ∧
    (∀ (n : Fin 16) (r : IcRun), (s.ic n.val).run = some r → s.anaRuns 57 → r.mains = false → (s.ic n.val).cal = none →
      s.icDue n.val r ≤ s.tickN → (s.ic n.val).conv ≠ none → s.icPer n.val ≠ 0 →
      Leads (.conversionStart n) s (fun t => t.ic n.val = { (s.ic n.val) with run := some { r with k := r.k + 1 } } ∧
      t.bit (aIC_FLAG n.val) fIC_FLAG_LATE ∧ (s.bit (aIC_FLAG n.val) fIC_FLAG_LATE = false → t.showsEvent (1857 + 2 * n.val)) ∧
      (∀ k, k ≠ n.val → t.ic k = s.ic k) ∧ s.keepsElse t [.ana, .ev, .hw] (among [aIC_FLAG n.val]))) ∧
    (∀ (n : Fin 16), (s.anaRuns 57 = false ∨ (s.ic n.val).cal ≠ none ∨
      (s.ic n.val).run.all (fun r => r.mains || decide (s.tickN < s.icDue n.val r)) ∨ ((s.ic n.val).conv ≠ none ∧
      s.icPer n.val = 0)) → exec (.conversionStart n) s = .next (s)) ∧
    (∀ (n : Fin 16) (c : IcConv), (s.ic n.val).conv = some c → c.phase = 0 → s.anaRuns 57 → c.start + c.len * 1 ≤ s.tickN →
      exec (.inputIntegrationEnd n) s = .next (s.setIc n.val { (s.ic n.val) with conv := some { c with phase := if getB c.cfg fIC_CFG_AZ then 1 else 2 } })) ∧
    (∀ (n : Fin 16), (s.anaRuns 57 = false ∨
      (s.ic n.val).conv.all (fun c => c.phase != 0 || decide (s.tickN < c.start + c.len * 1))) →
      exec (.inputIntegrationEnd n) s = .next (s)) ∧
    (∀ (n : Fin 16) (c : IcConv), (s.ic n.val).conv = some c → c.phase = 1 → s.anaRuns 57 → c.start + c.len * 2 ≤ s.tickN →
      exec (.residueStart n) s = .next (s.setIc n.val { (s.ic n.val) with conv := some { c with phase := 2 } })) ∧
    (∀ (n : Fin 16), (s.anaRuns 57 = false ∨
      (s.ic n.val).conv.all (fun c => c.phase != 1 || decide (s.tickN < c.start + c.len * 2))) →
      exec (.residueStart n) s = .next (s)) ∧
    (∀ (n : Fin 16) (v : BitVec 40) (c : IcConv) (d : Int) (o : Bool), (s.ic n.val).conv = some c → c.phase = 2 → s.anaRuns 57 →
      c.start + c.len * (if getB c.cfg fIC_CFG_AZ then 2 else 1) + 3000 ≤ s.tickN → icValue c v.toInt = (d, o) →
      s.bit (aIC_STATUS n.val) fIC_STATUS_CAL_Q = false →
      Leads (.conversionEnd n v) s (fun t => s.icTakes t n.val { word := icWord c d o, start := c.start, bits := icBits (getF c.cfg fIC_CFG_NPLC) } ∧
      (t.ic n.val).conv = none ∧ (t.ic n.val).queued = (s.ic n.val).queued ∧ (o → t.bit (aIC_FLAG n.val) fIC_FLAG_OVR) ∧
      (c.disturbed → t.bit (aIC_FLAG n.val) fIC_FLAG_DISTURB) ∧
      (t.ic n.val).run = (if (s.ic n.val).run.any (fun r => (s.reg (aIC_COUNT n.val)).toNat != 0 && decide ((s.reg (aIC_COUNT n.val)).toNat ≤ r.taken)) then none else (s.ic n.val).run.map (fun r => { r with next := c.start + c.len * (if getB c.cfg fIC_CFG_AZ then 2 else 1) + 3000 + 1 })) ∧
      ((s.ic n.val).run.any (fun r => (s.reg (aIC_COUNT n.val)).toNat != 0 && decide ((s.reg (aIC_COUNT n.val)).toNat ≤ r.taken)) →
      t.bit (aIC_FLAG n.val) fIC_FLAG_RUN_DONE) ∧ s.keepsElse t [.ana, .ev, .hw] (among [(aIC_STATUS n.val), aIC_FLAG n.val]) ∧
      (t.ic n.val).cal = (s.ic n.val).cal ∧ (∀ k, k ≠ n.val → t.ic k = s.ic k))) ∧
    (∀ (n : Fin 16) (v : BitVec 40) (c : IcConv) (d : Int) (o : Bool), (s.ic n.val).conv = some c → c.phase = 2 → s.anaRuns 57 →
      c.start + c.len * (if getB c.cfg fIC_CFG_AZ then 2 else 1) + 3000 ≤ s.tickN → icValue c v.toInt = (d, o) →
      s.bit (aIC_STATUS n.val) fIC_STATUS_CAL_Q →
      Leads (.conversionEnd n v) s (fun t => s.icTakes t n.val { word := icWord c d o, start := c.start, bits := icBits (getF c.cfg fIC_CFG_NPLC) } ∧
      (t.ic n.val).conv = none ∧ (t.ic n.val).queued = (s.ic n.val).queued ∧ (o → t.bit (aIC_FLAG n.val) fIC_FLAG_OVR) ∧
      (c.disturbed → t.bit (aIC_FLAG n.val) fIC_FLAG_DISTURB) ∧
      (t.ic n.val).run = (if (s.ic n.val).run.any (fun r => (s.reg (aIC_COUNT n.val)).toNat != 0 && decide ((s.reg (aIC_COUNT n.val)).toNat ≤ r.taken)) then none else (s.ic n.val).run.map (fun r => { r with next := c.start + c.len * (if getB c.cfg fIC_CFG_AZ then 2 else 1) + 3000 + 1 })) ∧
      ((s.ic n.val).run.any (fun r => (s.reg (aIC_COUNT n.val)).toNat != 0 && decide ((s.reg (aIC_COUNT n.val)).toNat ≤ r.taken)) →
      t.bit (aIC_FLAG n.val) fIC_FLAG_RUN_DONE) ∧ s.keepsElse t [.ana, .ev, .hw] (among [(aIC_STATUS n.val), aIC_FLAG n.val]) ∧
      (t.ic n.val).cal = some (c.start + c.len * (if getB c.cfg fIC_CFG_AZ then 2 else 1) + 3000 + 1,
      icLength (s.fld aMS_CAL fMS_CAL_NPLC) s.linePeriod) ∧ t.fld (aIC_STATUS n.val) fIC_STATUS_STATE = 3 ∧
      t.fld (aIC_STATUS n.val) fIC_STATUS_CAL_RANGE = s.fld (aIC_CFG n.val) fIC_CFG_RANGE ∧
      t.bit (aIC_STATUS n.val) fIC_STATUS_CAL_Q = false)) ∧
    (∀ (n : Fin 16) (v : BitVec 40), (s.anaRuns 57 = false ∨
      (s.ic n.val).conv.all (fun c => c.phase != 2 || decide (s.tickN < c.start + c.len * (if getB c.cfg fIC_CFG_AZ then 2 else 1) + 3000))) →
      exec (.conversionEnd n v) s = .next (s)) ∧
    (∀ (n : Fin 16) (z v : BitVec 40) (k l r : Nat), (s.ic n.val).cal = some (k, l) → s.anaRuns 57 →
      k + 8 * (l + 3000) ≤ s.tickN → s.fld (aIC_STATUS n.val) fIC_STATUS_CAL_RANGE = r → -10737418 ≤ z.toInt →
      z.toInt ≤ 10737418 → 0 < (v.toInt - z.toInt) →
      0x3999999A ≤ (2 ^ 30 * ((s.reg (aREF_VAL r)).toNat : Int)) / (v.toInt - z.toInt) →
      (2 ^ 30 * ((s.reg (aREF_VAL r)).toNat : Int)) / (v.toInt - z.toInt) < 0x46666666 →
      Leads (.icCalEnd n z v) s (fun t => (((t.reg (aCAL_GAIN n.val r)).toNat : Int) = (2 ^ 30 * ((s.reg (aREF_VAL r)).toNat : Int)) / (v.toInt - z.toInt) ∨
      (((2 ^ 30 * ((s.reg (aREF_VAL r)).toNat : Int))) % (v.toInt - z.toInt) ≠ 0 ∧
      ((t.reg (aCAL_GAIN n.val r)).toNat : Int) = (2 ^ 30 * ((s.reg (aREF_VAL r)).toNat : Int)) / (v.toInt - z.toInt) + 1)) ∧
      t.reg (aCAL_OFFSET n.val r) = BitVec.ofInt 32 z.toInt ∧ t.bit (aIC_FLAG n.val) fIC_FLAG_CAL_DONE ∧
      (s.bit (aIC_FLAG n.val) fIC_FLAG_CAL_DONE = false → t.showsEvent (1857 + 2 * n.val)) ∧ (∀ k, k ≠ n.val →
      t.ic k = s.ic k) ∧ s.keepsElse t [.ana, .ev, .hw, .free] (among [(aIC_STATUS n.val), aIC_FLAG n.val, aCAL_OFFSET n.val r,
      aCAL_GAIN n.val r]))) ∧
    (∀ (n : Fin 16) (z v : BitVec 40) (k l r : Nat), (s.ic n.val).cal = some (k, l) → s.anaRuns 57 →
      k + 8 * (l + 3000) ≤ s.tickN → s.fld (aIC_STATUS n.val) fIC_STATUS_CAL_RANGE = r → ((v.toInt - z.toInt) ≤ 0 ∨
      z.toInt < -10737418 ∨ 10737418 < z.toInt ∨
      (2 ^ 30 * ((s.reg (aREF_VAL r)).toNat : Int)) / (v.toInt - z.toInt) < 0x39999999 ∨
      0x46666666 < (2 ^ 30 * ((s.reg (aREF_VAL r)).toNat : Int)) / (v.toInt - z.toInt)) →
      Leads (.icCalEnd n z v) s (fun t => t.bit (aIC_FLAG n.val) fIC_FLAG_CAL_FAIL ∧
      t.reg (aCAL_OFFSET n.val r) = s.reg (aCAL_OFFSET n.val r) ∧ t.reg (aCAL_GAIN n.val r) = s.reg (aCAL_GAIN n.val r) ∧
      t.bit (aIC_FLAG n.val) fIC_FLAG_CAL_DONE ∧ (s.bit (aIC_FLAG n.val) fIC_FLAG_CAL_DONE = false →
      t.showsEvent (1857 + 2 * n.val)) ∧ (∀ k, k ≠ n.val → t.ic k = s.ic k) ∧ s.keepsElse t [.ana, .ev, .hw,
      .free] (among [(aIC_STATUS n.val), aIC_FLAG n.val, aCAL_OFFSET n.val r, aCAL_GAIN n.val r]))) ∧
    (∀ (n : Fin 16) (z v : BitVec 40) (k l r : Nat), (s.ic n.val).cal = some (k, l) → s.anaRuns 57 →
      k + 8 * (l + 3000) ≤ s.tickN → s.fld (aIC_STATUS n.val) fIC_STATUS_CAL_RANGE = r → -10737418 ≤ z.toInt →
      z.toInt ≤ 10737418 → 0 < (v.toInt - z.toInt) →
      ((2 ^ 30 * ((s.reg (aREF_VAL r)).toNat : Int)) / (v.toInt - z.toInt) = 0x39999999 ∨
      (2 ^ 30 * ((s.reg (aREF_VAL r)).toNat : Int)) / (v.toInt - z.toInt) = 0x46666666) →
      Leads (.icCalEnd n z v) s (fun t => (((((t.reg (aCAL_GAIN n.val r)).toNat : Int) = (2 ^ 30 * ((s.reg (aREF_VAL r)).toNat : Int)) / (v.toInt - z.toInt) ∨
      (((2 ^ 30 * ((s.reg (aREF_VAL r)).toNat : Int))) % (v.toInt - z.toInt) ≠ 0 ∧
      ((t.reg (aCAL_GAIN n.val r)).toNat : Int) = (2 ^ 30 * ((s.reg (aREF_VAL r)).toNat : Int)) / (v.toInt - z.toInt) + 1)) ∧
      t.reg (aCAL_OFFSET n.val r) = BitVec.ofInt 32 z.toInt) ∨ (t.bit (aIC_FLAG n.val) fIC_FLAG_CAL_FAIL ∧
      t.reg (aCAL_OFFSET n.val r) = s.reg (aCAL_OFFSET n.val r) ∧ t.reg (aCAL_GAIN n.val r) = s.reg (aCAL_GAIN n.val r))) ∧
      t.bit (aIC_FLAG n.val) fIC_FLAG_CAL_DONE ∧ (s.bit (aIC_FLAG n.val) fIC_FLAG_CAL_DONE = false →
      t.showsEvent (1857 + 2 * n.val)) ∧ (∀ k, k ≠ n.val → t.ic k = s.ic k) ∧ s.keepsElse t [.ana, .ev, .hw,
      .free] (among [(aIC_STATUS n.val), aIC_FLAG n.val, aCAL_OFFSET n.val r, aCAL_GAIN n.val r]))) ∧
    (∀ (n : Fin 16) (z v : BitVec 40) (k l r : Nat), (s.ic n.val).cal = some (k, l) → s.anaRuns 57 →
      k + 8 * (l + 3000) ≤ s.tickN → s.fld (aIC_STATUS n.val) fIC_STATUS_CAL_RANGE = r →
      s.bit (aIC_STATUS n.val) fIC_STATUS_CAL_Q →
      Leads (.icCalEnd n z v) s (fun t => t.ic n.val = { (s.ic n.val) with cal := some ((k + 8 * (l + 3000)) + 1, icLength (s.fld aMS_CAL fMS_CAL_NPLC) s.linePeriod) } ∧
      t.fld (aIC_STATUS n.val) fIC_STATUS_STATE = 3 ∧
      t.fld (aIC_STATUS n.val) fIC_STATUS_CAL_RANGE = s.fld (aIC_CFG n.val) fIC_CFG_RANGE ∧
      t.bit (aIC_STATUS n.val) fIC_STATUS_CAL_Q = false ∧ (∀ k, k ≠ n.val → t.ic k = s.ic k) ∧ s.keepsElse t [.ana, .ev, .hw,
      .free] (among [(aIC_STATUS n.val), aIC_FLAG n.val, aCAL_OFFSET n.val r, aCAL_GAIN n.val r]))) ∧
    (∀ (n : Fin 16) (z v : BitVec 40) (k l r : Nat), (s.ic n.val).cal = some (k, l) → s.anaRuns 57 →
      k + 8 * (l + 3000) ≤ s.tickN → s.fld (aIC_STATUS n.val) fIC_STATUS_CAL_RANGE = r →
      s.bit (aIC_STATUS n.val) fIC_STATUS_CAL_Q = false → (s.ic n.val).run = none → (s.ic n.val).queued = none →
      Leads (.icCalEnd n z v) s (fun t => t.ic n.val = { (s.ic n.val) with cal := none } ∧
      t.fld (aIC_STATUS n.val) fIC_STATUS_STATE = (if (s.ic n.val).conv.isSome then 2 else 0))) ∧
    (∀ (n : Fin 16) (z v : BitVec 40) (k l r : Nat) (g : IcRun), (s.ic n.val).cal = some (k, l) → s.anaRuns 57 →
      k + 8 * (l + 3000) ≤ s.tickN → s.fld (aIC_STATUS n.val) fIC_STATUS_CAL_RANGE = r →
      s.bit (aIC_STATUS n.val) fIC_STATUS_CAL_Q = false → ((s.ic n.val).run <|> (s.ic n.val).queued) = some g → g.mains →
      Leads (.icCalEnd n z v) s (fun t => t.ic n.val = { (s.ic n.val) with cal := none, queued := none, run := some { g with first := max g.first ((k + 8 * (l + 3000)) + 64) } } ∧
      t.fld (aIC_STATUS n.val) fIC_STATUS_STATE = (if (s.ic n.val).conv.isSome then 2 else 1))) ∧
    (∀ (n : Fin 16) (z v : BitVec 40) (k l r : Nat) (g : IcRun), (s.ic n.val).cal = some (k, l) → s.anaRuns 57 →
      k + 8 * (l + 3000) ≤ s.tickN → s.fld (aIC_STATUS n.val) fIC_STATUS_CAL_RANGE = r →
      s.bit (aIC_STATUS n.val) fIC_STATUS_CAL_Q = false → ((s.ic n.val).run <|> (s.ic n.val).queued) = some g →
      g.mains = false → (k + 8 * (l + 3000)) < s.icDue n.val g →
      Leads (.icCalEnd n z v) s (fun t => t.ic n.val = { (s.ic n.val) with cal := none, queued := none, run := some g } ∧
      t.fld (aIC_STATUS n.val) fIC_STATUS_STATE = (if (s.ic n.val).conv.isSome then 2 else 1))) ∧
    (∀ (n : Fin 16) (z v : BitVec 40) (k l r : Nat) (g : IcRun), (s.ic n.val).cal = some (k, l) → s.anaRuns 57 →
      k + 8 * (l + 3000) ≤ s.tickN → s.fld (aIC_STATUS n.val) fIC_STATUS_CAL_RANGE = r →
      s.bit (aIC_STATUS n.val) fIC_STATUS_CAL_Q = false → ((s.ic n.val).run <|> (s.ic n.val).queued) = some g →
      g.mains = false → s.icDue n.val g ≤ (k + 8 * (l + 3000)) → s.icPer n.val = 0 →
      Leads (.icCalEnd n z v) s (fun t => t.ic n.val = { (s.ic n.val) with cal := none, queued := none, run := some { g with next := (k + 8 * (l + 3000)) + 64 } } ∧
      t.bit (aIC_FLAG n.val) fIC_FLAG_LATE ∧
      t.fld (aIC_STATUS n.val) fIC_STATUS_STATE = (if (s.ic n.val).conv.isSome then 2 else 1))) ∧
    (∀ (n : Fin 16) (z v : BitVec 40) (k l r : Nat) (g : IcRun) (j : Nat), (s.ic n.val).cal = some (k, l) → s.anaRuns 57 →
      k + 8 * (l + 3000) ≤ s.tickN → s.fld (aIC_STATUS n.val) fIC_STATUS_CAL_RANGE = r →
      s.bit (aIC_STATUS n.val) fIC_STATUS_CAL_Q = false → ((s.ic n.val).run <|> (s.ic n.val).queued) = some g →
      g.mains = false → s.icDue n.val g ≤ (k + 8 * (l + 3000)) → (k + 8 * (l + 3000)) + 64 ≤ g.first + j * s.icPer n.val →
      g.first + j * s.icPer n.val < (k + 8 * (l + 3000)) + 64 + s.icPer n.val → g.k ≤ j →
      Leads (.icCalEnd n z v) s (fun t => t.ic n.val = { (s.ic n.val) with cal := none, queued := none, run := some { g with k := j } } ∧
      t.bit (aIC_FLAG n.val) fIC_FLAG_LATE ∧
      t.fld (aIC_STATUS n.val) fIC_STATUS_STATE = (if (s.ic n.val).conv.isSome then 2 else 1))) ∧
    (∀ (n : Fin 16) (z v : BitVec 40), (s.anaRuns 57 = false ∨
      (s.ic n.val).cal.all (fun e => decide (s.tickN < e.1 + 8 * (e.2 + 3000)))) → exec (.icCalEnd n z v) s = .next (s)) ∧
    (∀ (m : Rm) (n : Fin 16) (w : IcResult) (l : List IcResult), s.ringReady m (aIC_RESULT n.val) → (s.ic n.val).fifo = w :: l →
      Leads (.icResultRead m n) s (fun t => (t.master m).answered ∧ (t.master m).ansStatus = .ok ∧
      (t.master m).ansData = w.word ∧ t.ic n.val = { (s.ic n.val) with fifo := if m = .debug then w :: l else l } ∧ (∀ k,
      k ≠ n.val → t.ic k = s.ic k) ∧ s.keepsElse t [.ringCore, .ringDebug, .ringConfig, .ana] (fun _ => false))) ∧
    (∀ (m : Rm) (n : Fin 16), s.ringReady m (aIC_RESULT n.val) → (s.ic n.val).fifo = [] → m ≠ .debug →
      Leads (.icResultRead m n) s (fun t => (t.master m).answered ∧ (t.master m).ansStatus = .ok ∧ (t.master m).ansData = 0#32 ∧
      t.bit (aIC_FLAG n.val) fIC_FLAG_RD_EMPTY ∧ (s.bit (aIC_FLAG n.val) fIC_FLAG_RD_EMPTY = false →
      t.showsEvent (1857 + 2 * n.val)) ∧ s.keepsElse t [.ringCore, .ringDebug, .ringConfig, .ev, .hw] (among [aIC_FLAG n.val]))) ∧
    (∀ (n : Fin 16), s.ringReady .debug (aIC_RESULT n.val) → (s.ic n.val).fifo = [] →
      Leads (.icResultRead .debug n) s (fun t => (t.master .debug).answered ∧ (t.master .debug).ansStatus = .ok ∧
      (t.master .debug).ansData = 0#32 ∧ s.keepsElse t [.ringCore, .ringDebug, .ringConfig] (fun _ => false))) ∧
    (∀ (k : Nat) (l : List Nat), s.anaRuns 57 → s.ana.cross = some k →
      l = (s.ana.periods ++ [s.now - k]).drop (s.ana.periods.length - 7) → s.mainsLocked = false → periodsSteady l →
      Leads (.mainsCrossing) s (fun t => t.ana.cross = some s.now ∧ t.ana.periods = l ∧ s.keepsElse t [.ana, .ev, .hw,
      .free] (fun a => among [aMS_MEAS, aMS_FLAG] a || among ((List.range 16).map aIC_STATUS) a) ∧ t.mainsLocked ∧
      t.bit aMS_FLAG fMS_FLAG_LOCKED ∧ (s.bit aMS_FLAG fMS_FLAG_LOCKED = false → t.showsEvent 1888) ∧
      (((l.foldl (· + ·) 0) / 8) % 2 ^ 26 = t.fld aMS_MEAS fMS_MEAS_PERIOD ∨ ((l.foldl (· + ·) 0) % 8 ≠ 0 ∧
      ((l.foldl (· + ·) 0) / 8 + 1) % 2 ^ 26 = t.fld aMS_MEAS fMS_MEAS_PERIOD)))) ∧
    (∀ (k : Nat) (l : List Nat), s.anaRuns 57 → s.ana.cross = some k →
      l = (s.ana.periods ++ [s.now - k]).drop (s.ana.periods.length - 7) → s.mainsLocked = false → periodsSteady l = false →
      Leads (.mainsCrossing) s (fun t => t.ana.cross = some s.now ∧ t.ana.periods = l ∧ s.keepsElse t [.ana, .ev, .hw,
      .free] (fun a => among [aMS_MEAS, aMS_FLAG] a || among ((List.range 16).map aIC_STATUS) a) ∧
      t.reg aMS_MEAS = s.reg aMS_MEAS ∧ t.reg aMS_FLAG = s.reg aMS_FLAG)) ∧
    (∀ (k : Nat) (l : List Nat), s.anaRuns 57 → s.ana.cross = some k →
      l = (s.ana.periods ++ [s.now - k]).drop (s.ana.periods.length - 7) → s.mainsLocked →
      periodOff s.ana.periods (s.now - k) = false → Leads (.mainsCrossing) s (fun t => t.ana.cross = some s.now ∧
      t.ana.periods = l ∧ s.keepsElse t [.ana, .ev, .hw, .free] (fun a => among [aMS_MEAS,
      aMS_FLAG] a || among ((List.range 16).map aIC_STATUS) a) ∧ t.mainsLocked ∧ t.reg aMS_FLAG = s.reg aMS_FLAG ∧
      (((l.foldl (· + ·) 0) / 8) % 2 ^ 26 = t.fld aMS_MEAS fMS_MEAS_PERIOD ∨ ((l.foldl (· + ·) 0) % 8 ≠ 0 ∧
      ((l.foldl (· + ·) 0) / 8 + 1) % 2 ^ 26 = t.fld aMS_MEAS fMS_MEAS_PERIOD)))) ∧
    (∀ (k : Nat) (l : List Nat), s.anaRuns 57 → s.ana.cross = some k →
      l = (s.ana.periods ++ [s.now - k]).drop (s.ana.periods.length - 7) → s.mainsLocked → periodOff s.ana.periods (s.now - k) →
      periodsSteady l = false → Leads (.mainsCrossing) s (fun t => t.ana.cross = some s.now ∧ t.ana.periods = l ∧
      s.keepsElse t [.ana, .ev, .hw, .free] (fun a => among [aMS_MEAS,
      aMS_FLAG] a || among ((List.range 16).map aIC_STATUS) a) ∧ t.mainsLocked = false ∧ t.bit aMS_FLAG fMS_FLAG_LOST ∧
      (s.bit aMS_FLAG fMS_FLAG_LOST = false → t.showsEvent 1889) ∧
      t.fld aMS_MEAS fMS_MEAS_PERIOD = s.fld aMS_MEAS fMS_MEAS_PERIOD)) ∧
    (∀ (k : Nat) (l : List Nat), s.anaRuns 57 → s.ana.cross = some k →
      l = (s.ana.periods ++ [s.now - k]).drop (s.ana.periods.length - 7) → s.mainsLocked → periodOff s.ana.periods (s.now - k) →
      periodsSteady l → Leads (.mainsCrossing) s (fun t => t.ana.cross = some s.now ∧ t.ana.periods = l ∧ s.keepsElse t [.ana,
      .ev, .hw, .free] (fun a => among [aMS_MEAS, aMS_FLAG] a || among ((List.range 16).map aIC_STATUS) a) ∧ t.mainsLocked ∧
      t.bit aMS_FLAG fMS_FLAG_LOST ∧ t.bit aMS_FLAG fMS_FLAG_LOCKED ∧
      (((l.foldl (· + ·) 0) / 8) % 2 ^ 26 = t.fld aMS_MEAS fMS_MEAS_PERIOD ∨ ((l.foldl (· + ·) 0) % 8 ≠ 0 ∧
      ((l.foldl (· + ·) 0) / 8 + 1) % 2 ^ 26 = t.fld aMS_MEAS fMS_MEAS_PERIOD)))) ∧
    (s.anaRuns 57 → s.ana.cross = none → Leads (.mainsCrossing) s (fun t => t.ana.cross = some s.now ∧
      t.ana.periods = s.ana.periods ∧ s.keepsElse t [.ana, .hw] (among ((List.range 16).map aIC_STATUS)))) ∧
    (∀ (n : Fin 16), s.anaRuns 57 → Leads (.mainsCrossing) s (fun t => (∀ r ∈ (s.ic n.val).run, (r.mains ∧
      (s.ic n.val).conv = none ∧ (s.ic n.val).cal = none ∧ r.first ≤ s.tickN) →
      t.ic n.val = { (s.ic n.val) with conv := some { start := s.tickN, len := icLength (getF (s.reg (aIC_CFG n.val)) fIC_CFG_NPLC) t.linePeriod, cfg := (s.reg (aIC_CFG n.val)), offset := s.reg (aCAL_OFFSET n.val (getF (s.reg (aIC_CFG n.val)) fIC_CFG_RANGE)), gain := s.reg (aCAL_GAIN n.val (getF (s.reg (aIC_CFG n.val)) fIC_CFG_RANGE)), disturbed := s.fld aMS_CTRL fMS_CTRL_SRC == 0 && !t.mainsLocked, phase := 0 }, run := some { r with k := r.k + 1, taken := r.taken + 1 } }) ∧
      (¬(∃ r ∈ (s.ic n.val).run, r.mains ∧ (s.ic n.val).conv = none ∧ (s.ic n.val).cal = none ∧ r.first ≤ s.tickN) →
      t.ic n.val = (s.ic n.val) ∧ t.reg (aIC_STATUS n.val) = s.reg (aIC_STATUS n.val)))) ∧
    (s.anaRuns 57 = false → exec (.mainsCrossing) s = .next (s)) ∧
    (∀ (k : Nat), s.ana.cross = some k → s.anaRuns 57 → k + 75000000 ≤ s.now →
      Leads (.mainsUnlockTimeout) s (fun t => t.ana = { s.ana with cross := none, periods := [] } ∧ t.mainsLocked = false ∧
      (s.mainsLocked → t.bit aMS_FLAG fMS_FLAG_LOST) ∧ s.keepsElse t [.ana, .ev, .hw] (among [aMS_MEAS, aMS_FLAG]))) ∧
    ((s.anaRuns 57 = false ∨ s.ana.cross.all (fun k => decide (s.now < k + 75000000))) → exec (.mainsUnlockTimeout) s = .next (s)) ∧
    (∀ (m : Rm) (v : W32), s.ringReady m aREF_LOOP → ¬((getB v fREF_LOOP_EN ∧ s.netUsed (getF v fREF_LOOP_BUS)) ∨
      (s.bit aREF_LOOP fREF_LOOP_EN ∧ getF v fREF_LOOP_BUS ≠ s.fld aREF_LOOP fREF_LOOP_BUS)) →
      Writes (.refLoopWrite m v) m aREF_LOOP v .ok s (fun u => u.bit aREF_LOOP fREF_LOOP_EN = getB v fREF_LOOP_EN ∧
      u.fld aREF_LOOP fREF_LOOP_BUS = getF v fREF_LOOP_BUS ∧ s.keepsElse u [] (among [aREF_LOOP]))) ∧
    (∀ (m : Rm) (v : W32), s.ringReady m aREF_LOOP → ((getB v fREF_LOOP_EN ∧ s.netUsed (getF v fREF_LOOP_BUS)) ∨
      (s.bit aREF_LOOP fREF_LOOP_EN ∧ getF v fREF_LOOP_BUS ≠ s.fld aREF_LOOP fREF_LOOP_BUS)) →
      Writes (.refLoopWrite m v) m aREF_LOOP v .refused s (fun u => u = s))

/-- PWR_REQ with a domain and a target starts a request and sets BUSY. A write while BUSY, a retention request for a domain
that is off, a request for a number that is no domain, or target 2, is REFUSED and changes nothing. A request for the state
already held completes at once with DONE and event 0. A request to on is never refused: it is DONE, and the domain reads
changing (0b01) until it is ready. (R371) -/
def Obligations.PowerRequests : Prop :=
  ∀ s : State, s.Inv →
    (∀ (m : Rm) (d : BitVec 7) (k : BitVec 2), s.ringReady m aPWR_REQ → s.pwr.cur = none → domKnown d.toNat → ((k = 0#2 ∧
      (s.domState d.toNat) ≠ 0) ∨ (k = 1#2 ∧ (s.domState d.toNat) ≠ 0 ∧ (s.domState d.toNat) ≠ 2)) →
      Writes (.pwrReq m d k) m aPWR_REQ (putF (putF 0#32 fPWR_REQ_TARGET k.toNat) fPWR_REQ_DOMAIN d.toNat) .ok s (fun u => u.pwr = { s.pwr with cur := some { domain := d.toNat, target := k.toNat, rim := 0, askAt := 0, granted := false, edges := 0, edgeAt := 0 } } ∧
      u.bit aPWR_REQ fPWR_REQ_BUSY ∧ u.domState d.toNat = (s.domState d.toNat) ∧ s.keepsElse u [.pwr, .hw] (among [aPWR_REQ]))) ∧
    (∀ (m : Rm) (d : BitVec 7) (k : BitVec 2), s.ringReady m aPWR_REQ → (s.pwr.cur ≠ none ∨ k = 2#2 ∨ domKnown d.toNat = false ∨
      (k = 1#2 ∧ (s.domState d.toNat) = 0)) →
      Writes (.pwrReq m d k) m aPWR_REQ (putF (putF 0#32 fPWR_REQ_TARGET k.toNat) fPWR_REQ_DOMAIN d.toNat) .refused s (fun u => u = s)) ∧
    (∀ (m : Rm) (d : BitVec 7) (k : BitVec 2), s.ringReady m aPWR_REQ → s.pwr.cur = none → domKnown d.toNat → ((k = 0#2 ∧
      (s.domState d.toNat) = 0) ∨ (k = 1#2 ∧ (s.domState d.toNat) = 2) ∨ (k = 3#2 ∧ ((s.domState d.toNat) = 3 ∨
      (s.domState d.toNat) = 1))) →
      Writes (.pwrReq m d k) m aPWR_REQ (putF (putF 0#32 fPWR_REQ_TARGET k.toNat) fPWR_REQ_DOMAIN d.toNat) .ok s (fun u => u.bit aPWR_RESULT fPWR_RESULT_DONE ∧
      u.showsEvent 0 ∧ u.pwr.cur = none ∧ u.domState d.toNat = (s.domState d.toNat) ∧ s.keepsElse u [.ev,
      .hw] (among [aPWR_RESULT]))) ∧
    (∀ (m : Rm) (d : BitVec 7) (k : BitVec 2), s.ringReady m aPWR_REQ → s.pwr.cur = none → domKnown d.toNat → k = 3#2 →
      ((s.domState d.toNat) = 0 ∨ (s.domState d.toNat) = 2) →
      Writes (.pwrReq m d k) m aPWR_REQ (putF (putF 0#32 fPWR_REQ_TARGET k.toNat) fPWR_REQ_DOMAIN d.toNat) .ok s (fun u => u.bit aPWR_RESULT fPWR_RESULT_DONE ∧
      u.showsEvent 0 ∧ u.pwr.cur = none ∧ u.domState d.toNat = 1 ∧
      u.pwr = { s.pwr with rising := s.pwr.rising ++ [(d.toNat, none)], kept := if (s.domState d.toNat) = 2 then s.pwr.kept ++ [d.toNat] else s.pwr.kept } ∧
      s.keepsElse u [.ev, .hw, .pwr] (among [aPWR_RESULT, aPWR_STATE (d.toNat / 16)])))

/-- Asked, the blocks of the domain grant, or delay by a count of 1 to 65,535, or refuse. A refusal ends the request at once
with REFUSED, the reason and the block, and event 1; BUSY falls and the domain stays on. After the delay the blocks are asked
again. At PWR_LIMIT rim cycles a request not granted is refused with 7. Reasons: 1 a scheduled flow, budget or service entry,
2 a self-test, 3 DRAM in use, 4 the reference port, 5 core 0, 6 a fabric in configuration. Nothing happens where no answer is
due. Model choices it rests on: log entries 109, 152. (16_power_and_events.md R372, R373, R378) -/
def Obligations.PowerHandshake : Prop :=
  ∀ s : State, s.Inv →
    (∀ (r : PwrReq), s.pwr.cur = some r → s.hubRuns → r.granted = false → r.askAt = 0 → s.refusals r.domain = [] →
      s.mustDelay r.domain = false →
      exec (.powerHandshakeAsk) s = .next ({ s with pwr := { s.pwr with cur := some { r with granted := true } } })) ∧
    (∀ (r : PwrReq), s.pwr.cur = some r → s.hubRuns → r.granted = false → r.askAt = 0 → s.refusals r.domain = [] →
      s.mustDelay r.domain →
      Leads (.powerHandshakeAsk) s (fun t => t.pwr.cur.any (fun x => decide (x = { r with askAt := x.askAt } ∧
      r.rim + 1 ≤ x.askAt ∧ x.askAt ≤ r.rim + 65535)) ∧ t.pwr = { s.pwr with cur := t.pwr.cur } ∧ s.keepsElse t [.pwr,
      .free] (fun _ => false))) ∧
    (∀ (r : PwrReq) (x : Nat), s.pwr.cur = some r → s.hubRuns → r.granted = false → r.askAt = 0 → s.refusals r.domain = [x] →
      Leads (.powerHandshakeAsk) s (fun t => t.bit aPWR_RESULT fPWR_RESULT_REFUSED ∧ t.fld aPWR_RESULT fPWR_RESULT_REASON = x ∧
      t.fld aPWR_RESULT fPWR_RESULT_DIE = domDie r.domain ∧ (∀ b ∈ domBlock r.domain,
      t.fld aPWR_RESULT fPWR_RESULT_BLOCK = b % 2 ^ fPWR_RESULT_BLOCK.width) ∧ t.pwr.cur = none ∧ t.pwr.wakes = [] ∧
      t.bit aPWR_REQ fPWR_REQ_BUSY = false ∧ t.showsEvent 1 ∧ (r.domain ∉ s.pwr.wakes → r.domain < 128 →
      t.domState r.domain = s.domState r.domain) ∧ (s.pwr.wakes = [] → s.keepsElse t [.pwr, .ev, .free, .hw] (among [aPWR_REQ,
      aPWR_RESULT])))) ∧
    (∀ (r : PwrReq) (x y : Nat) (l : List Nat), s.pwr.cur = some r → s.hubRuns → r.granted = false → r.askAt = 0 →
      s.refusals r.domain = x :: y :: l → Leads (.powerHandshakeAsk) s (fun t => t.bit aPWR_RESULT fPWR_RESULT_REFUSED ∧
      (t.fld aPWR_RESULT fPWR_RESULT_REASON = x ∨ t.fld aPWR_RESULT fPWR_RESULT_REASON = y) ∧
      t.fld aPWR_RESULT fPWR_RESULT_DIE = domDie r.domain ∧ (∀ b ∈ domBlock r.domain,
      t.fld aPWR_RESULT fPWR_RESULT_BLOCK = b % 2 ^ fPWR_RESULT_BLOCK.width) ∧ t.pwr.cur = none ∧ t.pwr.wakes = [] ∧
      t.bit aPWR_REQ fPWR_REQ_BUSY = false ∧ t.showsEvent 1 ∧ (r.domain ∉ s.pwr.wakes → r.domain < 128 →
      t.domState r.domain = s.domState r.domain) ∧ (s.pwr.wakes = [] → s.keepsElse t [.pwr, .ev, .free, .hw] (among [aPWR_REQ,
      aPWR_RESULT])))) ∧
    ((s.hubRuns = false ∨ s.pwr.cur.all (fun r => r.granted || !r.askAt == 0)) → exec (.powerHandshakeAsk) s = .next (s)) ∧
    (∀ (r : PwrReq), s.pwr.cur = some r → s.hubRuns → r.granted = false → r.askAt ≠ 0 → r.askAt ≤ r.rim →
      s.refusals r.domain = [] → s.mustDelay r.domain = false →
      exec (.powerDelayExpiry) s = .next ({ s with pwr := { s.pwr with cur := some { r with granted := true } } })) ∧
    (∀ (r : PwrReq), s.pwr.cur = some r → s.hubRuns → r.granted = false → r.askAt ≠ 0 → r.askAt ≤ r.rim →
      s.refusals r.domain = [] → s.mustDelay r.domain →
      Leads (.powerDelayExpiry) s (fun t => t.pwr.cur.any (fun x => decide (x = { r with askAt := x.askAt } ∧
      r.rim + 1 ≤ x.askAt ∧ x.askAt ≤ r.rim + 65535)) ∧ t.pwr = { s.pwr with cur := t.pwr.cur } ∧ s.keepsElse t [.pwr,
      .free] (fun _ => false))) ∧
    (∀ (r : PwrReq) (x : Nat), s.pwr.cur = some r → s.hubRuns → r.granted = false → r.askAt ≠ 0 → r.askAt ≤ r.rim →
      s.refusals r.domain = [x] → Leads (.powerDelayExpiry) s (fun t => t.bit aPWR_RESULT fPWR_RESULT_REFUSED ∧
      t.fld aPWR_RESULT fPWR_RESULT_REASON = x ∧ t.fld aPWR_RESULT fPWR_RESULT_DIE = domDie r.domain ∧ (∀ b ∈ domBlock r.domain,
      t.fld aPWR_RESULT fPWR_RESULT_BLOCK = b % 2 ^ fPWR_RESULT_BLOCK.width) ∧ t.pwr.cur = none ∧ t.pwr.wakes = [] ∧
      t.bit aPWR_REQ fPWR_REQ_BUSY = false ∧ t.showsEvent 1 ∧ (r.domain ∉ s.pwr.wakes → r.domain < 128 →
      t.domState r.domain = s.domState r.domain) ∧ (s.pwr.wakes = [] → s.keepsElse t [.pwr, .ev, .free, .hw] (among [aPWR_REQ,
      aPWR_RESULT])))) ∧
    (∀ (r : PwrReq) (x y : Nat) (l : List Nat), s.pwr.cur = some r → s.hubRuns → r.granted = false → r.askAt ≠ 0 →
      r.askAt ≤ r.rim → s.refusals r.domain = x :: y :: l →
      Leads (.powerDelayExpiry) s (fun t => t.bit aPWR_RESULT fPWR_RESULT_REFUSED ∧ (t.fld aPWR_RESULT fPWR_RESULT_REASON = x ∨
      t.fld aPWR_RESULT fPWR_RESULT_REASON = y) ∧ t.fld aPWR_RESULT fPWR_RESULT_DIE = domDie r.domain ∧
      (∀ b ∈ domBlock r.domain, t.fld aPWR_RESULT fPWR_RESULT_BLOCK = b % 2 ^ fPWR_RESULT_BLOCK.width) ∧ t.pwr.cur = none ∧
      t.pwr.wakes = [] ∧ t.bit aPWR_REQ fPWR_REQ_BUSY = false ∧ t.showsEvent 1 ∧ (r.domain ∉ s.pwr.wakes → r.domain < 128 →
      t.domState r.domain = s.domState r.domain) ∧ (s.pwr.wakes = [] → s.keepsElse t [.pwr, .ev, .free, .hw] (among [aPWR_REQ,
      aPWR_RESULT])))) ∧
    ((s.hubRuns = false ∨ s.pwr.cur.all (fun r => r.granted || !(r.askAt != 0 && decide (r.askAt ≤ r.rim)))) →
      exec (.powerDelayExpiry) s = .next (s)) ∧
    (∀ (r : PwrReq), s.pwr.cur = some r → r.granted = false → s.fld aPWR_LIMIT fPWR_LIMIT_LIMIT ≤ r.rim →
      Leads (.powerLimitExpiry) s (fun t => t.bit aPWR_RESULT fPWR_RESULT_REFUSED ∧ t.fld aPWR_RESULT fPWR_RESULT_REASON = 7 ∧
      t.fld aPWR_RESULT fPWR_RESULT_DIE = domDie r.domain ∧ (∀ b ∈ domBlock r.domain,
      t.fld aPWR_RESULT fPWR_RESULT_BLOCK = b % 2 ^ fPWR_RESULT_BLOCK.width) ∧ t.pwr.cur = none ∧ t.pwr.wakes = [] ∧
      t.bit aPWR_REQ fPWR_REQ_BUSY = false ∧ t.showsEvent 1 ∧ (r.domain ∉ s.pwr.wakes → r.domain < 128 →
      t.domState r.domain = s.domState r.domain) ∧ (s.pwr.wakes = [] → s.keepsElse t [.pwr, .ev, .free, .hw] (among [aPWR_REQ,
      aPWR_RESULT])))) ∧
    (s.pwr.cur.all (fun r => r.granted || decide (r.rim < s.fld aPWR_LIMIT fPWR_LIMIT_LIMIT)) →
      exec (.powerLimitExpiry) s = .next (s)) ∧
    (s.refusals 16 = [5] ∧ (∀ b, b < 64 → s.refusals (64 + b) = if (s.bistOn b).isSome then [2] else []) ∧ (∀ d, d < 4 →
      s.refusals (32 + d) = if s.bit (aDR_TRN d) fDR_TRN_BUSY ∨ s.anySpill then [3] else []) ∧ (∀ d, d < 6 →
      s.refusals d = if s.fabricInUse d then [6] else []) ∧ (∀ d, d < 7 →
      s.refusals (8 + d) = if s.weaveInUse d then [1] else [])) ∧
    (s.refusals 58 = (if s.fabricInUse 7 then [6] else []) ++ (if s.weaveInUse 7 then [1] else []) ∧ (∀ p, p < 6 →
      s.refusals (40 + p) = (if s.budget p ≠ 0 then [1] else []) ++ (if s.fld aREF_CTRL fREF_CTRL_SRC = 1 ∧
      s.fld aREF_CTRL fREF_CTRL_PORT = p then [4] else [])) ∧ (∀ d, (17 ≤ d ∧ d ≤ 24) → s.refusals d = []) ∧ (∀ d, d < 7 →
      s.weaveInUse d = (s.routesFlow s.actBank d || ((s.fld aPAT_STATUS fPAT_STATUS_ARMED == 1 || s.fld aPAT_STATUS fPAT_STATUS_ARMED == 2) && s.routesFlow s.shBank d))) ∧
      (∀ d, d < 6 → (s.dieState d = 1 ∨ (s.dieState d = 2 ∧ s.dieStart d ≠ none) ∨ ∃ n : Fin 16, s.rgnHeld d n.val) →
      s.fabricInUse d))

/-- A granted request changes the state of its domain, completes with DONE and event 0, and BUSY falls. In retention a core
keeps its memories, a Weave its tables, a bank its bytes, a DRAM set its contents in self-refresh. Off, a core loses its
registers and its memories read zero; a bank loses its bytes; a Weave its NIs; DMA, lane, analog and converter registers
return to reset; a fabric leaves its die unconfigured; a set loses its controller, and with KEEP holds its channels. A torus
port goes to rest. A domain told to on leaves its state at the latest 3 ticks after the crystal edge that ends the step, and
reads on when its time has passed. Model choices it rests on: log entries 108, 110, 152. (16_power_and_events.md R369, R370,
R372, R378, 00_scope.md R7, 12_external_memory.md R297, R298) -/
def Obligations.DomainChanges : Prop :=
  ∀ s : State, s.Inv →
    (∀ (r : PwrReq), s.pwr.cur = some r → s.hubRuns → r.due s.now →
      Leads (.domainStateChange) s (fun t => t.bit aPWR_RESULT fPWR_RESULT_DONE ∧ t.showsEvent 0 ∧ t.pwr.cur = none ∧
      t.bit aPWR_REQ fPWR_REQ_BUSY = false ∧ t.pwr.wakes = [] ∧ t.pwr.turning.all (fun x => x.1 != r.domain) ∧ (r.domain < 128 →
      r.domain ∉ s.pwr.wakes → t.domState r.domain = (if r.target = 1 then 2 else 0) ∧
      t.pwr.rising.all (fun x => x.1 != r.domain)) ∧ t.pending = s.pending)) ∧
    (∀ (r : PwrReq), s.pwr.cur = some r → s.hubRuns → r.due s.now → ((r.target = 1 ∧ s.heldState r.domain = 2) ∨ (r.target = 0 ∧
      s.heldState r.domain = 0)) → s.pwr.wakes = [] → Leads (.domainStateChange) s (fun t => s.keepsElse t [.ev, .pwr,
      .hw] (fun a => among [aPWR_REQ, aPWR_RESULT, aPWR_STATE (r.domain / 16)] a))) ∧
    ((s.hubRuns = false ∨ s.pwr.cur.all (fun r => !r.due s.now)) → exec (.domainStateChange) s = .next (s)) ∧
    (∀ (r : PwrReq) (x : Nat), r.due x → r.granted = true ∧ (r.edges = 1 ∨ r.edges = 2) ∧ r.edgeAt < x ∧ x ≤ r.edgeAt + 3) ∧
    (∀ (r : PwrReq), s.pwr.cur = some r → s.hubRuns → r.due s.now → ¬((r.target = 1 ∧ s.heldState r.domain = 2) ∨ (r.target = 0 ∧
      s.heldState r.domain = 0)) → s.pwr.wakes = [] → r.target = 1 → ((8 ≤ r.domain ∧ r.domain < 15) ∨ r.domain = 24 ∨
      (64 ≤ r.domain ∧ r.domain < 128) ∨ (36 ≤ r.domain ∧ r.domain < 40)) →
      Leads (.domainStateChange) s (fun t => s.keepsElse t [.ev, .pwr, .hw, .banks] (fun a => among [aPWR_REQ, aPWR_RESULT,
      aPWR_STATE (r.domain / 16)] a) ∧ t.banks.dma = s.banks.dma ∧ t.banks.last = s.banks.last ∧ t.banks.bist = s.banks.bist)) ∧
    (∀ (r : PwrReq) (n : Nat), s.pwr.cur = some r → s.hubRuns → r.due s.now → ¬((r.target = 1 ∧ s.heldState r.domain = 2) ∨
      (r.target = 0 ∧ s.heldState r.domain = 0)) → s.pwr.wakes = [] → r.target = 1 → n < 8 → r.domain = 16 + n →
      Leads (.domainStateChange) s (fun t => (t.thr n).v = (s.thr n).v ∧ (t.thr n).acc = (s.thr n).acc ∧
      (t.thr n).pc = (s.thr n).pc ∧ s.keepsElse t [.ev, .pwr, .hw, .cores] (fun a => among [aPWR_REQ, aPWR_RESULT,
      aPWR_STATE (r.domain / 16)] a || inBlock 6 (0x10 + n) a || inBlock 6 0x400 a))) ∧
    (∀ (r : PwrReq) (n : Nat), s.pwr.cur = some r → s.hubRuns → r.due s.now → ¬((r.target = 1 ∧ s.heldState r.domain = 2) ∨
      (r.target = 0 ∧ s.heldState r.domain = 0)) → s.pwr.wakes = [] → r.target ≠ 1 → r.target = 0 → n < 8 → r.domain = 16 + n →
      Leads (.domainStateChange) s (fun t => (∀ p, (t.thr n).phys p = 0#32) ∧ (∀ a, t.byte a = if (imBase n ≤ a ∧
      a < imBase n + 0x20000) ∨ (dmBase n ≤ a ∧ a < dmBase n + 0x40000) then 0#8 else s.byte a) ∧ (∀ k, k ≠ n →
      t.thr k = s.thr k) ∧ t.reg (aCORE_CTRL n) = regReset (aCORE_CTRL n))) ∧
    (∀ (r : PwrReq) (n : Nat), s.pwr.cur = some r → s.hubRuns → r.due s.now → ¬((r.target = 1 ∧ s.heldState r.domain = 2) ∨
      (r.target = 0 ∧ s.heldState r.domain = 0)) → s.pwr.wakes = [] → r.target = 0 → n < 64 → r.domain = 64 + n →
      Leads (.domainStateChange) s (fun t => (∀ a, (bankBase n ≤ a ∧ a < bankBase n + 0x40000) → t.byte a = 0#8) ∧ (∀ a,
      (a < bankBase n ∨ bankBase n + 0x40000 ≤ a) → t.byte a = s.byte a) ∧ s.keepsElse t [.ev, .pwr, .hw, .banks,
      .mem] (fun a => among [aPWR_REQ, aPWR_RESULT, aPWR_STATE (r.domain / 16)] a))) ∧
    (∀ (r : PwrReq) (d : Nat), s.pwr.cur = some r → s.hubRuns → r.due s.now → ¬((r.target = 1 ∧ s.heldState r.domain = 2) ∨
      (r.target = 0 ∧ s.heldState r.domain = 0)) → s.pwr.wakes = [] → r.target = 0 → d < 7 → r.domain = 8 + d →
      Leads (.domainStateChange) s (fun t => (∀ n, n < 64 → t.ni d n = Ni.empty) ∧ (∀ n, n < 48 → niExists d n →
      t.reg (aNI_CTRL d n) = regReset (aNI_CTRL d n)) ∧ (∀ e ∈ t.pat.store, psKeyDie e.1 ≠ d) ∧ (∀ i ∈ t.pat.flight,
      locDie i.loc ≠ d) ∧ (∀ i ∈ t.be.items, i.d ≠ d) ∧ (∀ k, k < 8 → k ≠ d → ∀ n, n < 64 → t.ni k n = s.ni k n))) ∧
    (∀ (r : PwrReq), s.pwr.cur = some r → s.hubRuns → r.due s.now → ¬((r.target = 1 ∧ s.heldState r.domain = 2) ∨ (r.target = 0 ∧
      s.heldState r.domain = 0)) → s.pwr.wakes = [] → r.target = 0 → r.domain = 24 →
      Leads (.domainStateChange) s (fun t => t.banks.dma = [] ∧ (∀ e, e < 4 → t.reg (aDMA_CTRL e) = regReset (aDMA_CTRL e) ∧
      t.reg (aDMA_STATUS e) = regReset (aDMA_STATUS e)))) ∧
    (∀ (r : PwrReq) (d : Nat), s.pwr.cur = some r → s.hubRuns → r.due s.now → ¬((r.target = 1 ∧ s.heldState r.domain = 2) ∨
      (r.target = 0 ∧ s.heldState r.domain = 0)) → s.pwr.wakes = [] → (r.target = 0 ∨ r.target = 1) → d < 6 → r.domain = d →
      Leads (.domainStateChange) s (fun t => t.dieState d = (if r.target = 0 then 0 else if s.dieState d = 3 then 2 else s.dieState d) ∧
      t.pins.done = false ∧ t.bit aCFG_STATUS fCFG_STATUS_DONE = false)) ∧
    (∀ (r : PwrReq), s.pwr.cur = some r → s.hubRuns → r.due s.now → ¬((r.target = 1 ∧ s.heldState r.domain = 2) ∨ (r.target = 0 ∧
      s.heldState r.domain = 0)) → s.pwr.wakes = [] → (r.target = 0 ∨ r.target = 1) → r.domain = 58 →
      Leads (.domainStateChange) s (fun t => t.dieState 7 = (if r.target = 0 then 0 else if s.dieState 7 = 3 then 2 else s.dieState 7) ∧
      (r.target = 0 → ∀ n, n < 64 → t.ni 7 n = Ni.empty) ∧ (r.target = 0 → t.pat.rejoin.getLsbD 7 = true ∧ t.ana.afOld = []) ∧
      (r.target = 1 → t.nis = s.nis ∧ t.pat = s.pat))) ∧
    (∀ (r : PwrReq) (d q j : Nat), s.pwr.cur = some r → s.hubRuns → r.due s.now → ¬((r.target = 1 ∧ s.heldState r.domain = 2) ∨
      (r.target = 0 ∧ s.heldState r.domain = 0)) → s.pwr.wakes = [] → r.target = 0 → d < 6 → q < 4 → j < 4 → r.domain = 48 + d →
      Leads (.domainStateChange) s (fun t => t.reg (aLN_CTRL (quadBlock d q) j) = regReset (aLN_CTRL (quadBlock d q) j) ∧
      t.reg (aLN_STATUS (quadBlock d q) j) = regReset (aLN_STATUS (quadBlock d q) j) ∧ t.lane (quadBlock d q) j = Lane.empty ∧
      s.keepsElse t [.ev, .pwr, .hw, .lanes] (fun a => among [aPWR_REQ, aPWR_RESULT,
      aPWR_STATE (r.domain / 16)] a || (laneReg a && dieReg d a)))) ∧
    (∀ (r : PwrReq) (d q j : Nat), s.pwr.cur = some r → s.hubRuns → r.due s.now → ¬((r.target = 1 ∧ s.heldState r.domain = 2) ∨
      (r.target = 0 ∧ s.heldState r.domain = 0)) → s.pwr.wakes = [] → r.target = 1 → d < 6 → q < 4 → j < 4 → r.domain = 48 + d →
      Leads (.domainStateChange) s (fun t => t.reg (aLN_CTRL (quadBlock d q) j) = s.reg (aLN_CTRL (quadBlock d q) j) ∧
      t.reg (aLN_STATUS (quadBlock d q) j) = s.reg (aLN_STATUS (quadBlock d q) j) &&& 8#32 ∧ s.keepsElse t [.ev, .pwr,
      .hw] (fun a => among [aPWR_REQ, aPWR_RESULT, aPWR_STATE (r.domain / 16)] a || (laneReg a && dieReg d a)))) ∧
    (∀ (r : PwrReq) (p : Nat), s.pwr.cur = some r → s.hubRuns → r.due s.now → ¬((r.target = 1 ∧ s.heldState r.domain = 2) ∨
      (r.target = 0 ∧ s.heldState r.domain = 0)) → s.pwr.wakes = [] → p < 6 → r.domain = 40 + p →
      Leads (.domainStateChange) s (fun t => t.tpState p = 11 ∧ s.keepsElse t [.ev, .pwr, .hw,
      .ports] (fun a => among [aPWR_REQ, aPWR_RESULT, aPWR_STATE (r.domain / 16)] a || portReg a))) ∧
    (∀ (r : PwrReq) (d : Nat), s.pwr.cur = some r → s.hubRuns → r.due s.now → ¬((r.target = 1 ∧ s.heldState r.domain = 2) ∨
      (r.target = 0 ∧ s.heldState r.domain = 0)) → s.pwr.wakes = [] → r.target = 1 → d < 4 → r.domain = 32 + d →
      Leads (.domainStateChange) s (fun t => (∀ l ∈ t.km, l.set ≠ d) ∧ (s.dramState d = 0 ∨ s.dramState d = 1 →
      t.dramState d = s.dramState d) ∧ (2 ≤ s.dramState d → t.dramState d = 4 ∧ (t.ds d).heldFrom = s.dramState d ∧
      (t.ds d).openRow = [] ∧ t.bit (aDR_FLAG d) fDR_FLAG_SR) ∧ (s.km = [] → s.fld (aDR_PASR d) fDR_PASR_MASK = 0 → ∀ a,
      t.byte a = s.byte a) ∧ s.keepsElse t [.ev, .pwr, .hw, .dsets, .mem, .km] (fun a => among [aPWR_REQ, aPWR_RESULT,
      aPWR_STATE (r.domain / 16)] a || inSet d a))) ∧
    (∀ (r : PwrReq) (d : Nat), s.pwr.cur = some r → s.hubRuns → r.due s.now → ¬((r.target = 1 ∧ s.heldState r.domain = 2) ∨
      (r.target = 0 ∧ s.heldState r.domain = 0)) → s.pwr.wakes = [] → r.target = 0 → d < 4 → r.domain = 32 + d →
      Leads (.domainStateChange) s (fun t => (∀ l ∈ t.km, l.set ≠ d) ∧ t.ds d = Ds.empty ∧ t.dramState d = 0 ∧
      t.bit (aDR_STATUS d) fDR_STATUS_SR_HELD = decide (s.bit (aDR_CTRL d) fDR_CTRL_KEEP ∧ 2 ≤ s.dramState d) ∧
      (¬(s.bit (aDR_CTRL d) fDR_CTRL_KEEP ∧ 2 ≤ s.dramState d) → ∀ a, (a < 2 ^ 36 ∧ dramSet a = d) → t.byte a = 0#8) ∧
      ((s.bit (aDR_CTRL d) fDR_CTRL_KEEP ∧ 2 ≤ s.dramState d) → s.km = [] → s.fld (aDR_PASR d) fDR_PASR_MASK = 0 → ∀ a,
      t.byte a = s.byte a) ∧ s.keepsElse t [.ev, .pwr, .hw, .dsets, .mem, .km] (fun a => among [aPWR_REQ, aPWR_RESULT,
      aPWR_STATE (r.domain / 16)] a || inSet d a))) ∧
    (∀ (r : PwrReq), s.pwr.cur = some r → s.hubRuns → r.due s.now → ¬((r.target = 1 ∧ s.heldState r.domain = 2) ∨ (r.target = 0 ∧
      s.heldState r.domain = 0)) → s.pwr.wakes = [] → r.target = 0 → (36 ≤ r.domain ∧ r.domain < 40) →
      Leads (.domainStateChange) s (fun t => s.keepsElse t [.ev, .pwr, .hw] (fun a => among [aPWR_REQ, aPWR_RESULT,
      aPWR_STATE (r.domain / 16)] a))) ∧
    (∀ (r : PwrReq) (n : Fin 48), s.pwr.cur = some r → s.hubRuns → r.due s.now → ¬((r.target = 1 ∧ s.heldState r.domain = 2) ∨
      (r.target = 0 ∧ s.heldState r.domain = 0)) → s.pwr.wakes = [] → (r.target = 0 ∨ r.target = 1) → r.domain = 56 →
      Leads (.domainStateChange) s (fun t => (t.ab n.val).run = none ∧ (t.ab n.val).calAt = none ∧ (t.ab n.val).queued = none ∧
      (t.ab n.val).samples = [] ∧ (r.target = 1 → (t.ab n.val).fifo = (s.ab n.val).fifo ∧ t.ana.swap = s.ana.swap ∧
      t.reg (aAB_ACT_AMP n.val) = s.reg (aAB_ACT_AMP n.val)) ∧ (r.target = 0 → t.ab n.val = Ab.empty ∧ t.ana.swap = none ∧
      t.reg (aAB_ACT_AMP n.val) = regReset (aAB_ACT_AMP n.val) ∧ t.reg (aSW_PIN 3) = regReset (aSW_PIN 3)) ∧ s.keepsElse t [.ev,
      .pwr, .hw, .ana] (fun a => among [aPWR_REQ, aPWR_RESULT, aPWR_STATE (r.domain / 16)] a || blockFrom 7 0x700 0x780 a))) ∧
    (∀ (r : PwrReq) (n : Fin 16), s.pwr.cur = some r → s.hubRuns → r.due s.now → ¬((r.target = 1 ∧ s.heldState r.domain = 2) ∨
      (r.target = 0 ∧ s.heldState r.domain = 0)) → s.pwr.wakes = [] → (r.target = 0 ∨ r.target = 1) → r.domain = 57 →
      Leads (.domainStateChange) s (fun t => (t.ic n.val).run = none ∧ (t.ic n.val).cal = none ∧ (t.ic n.val).queued = none ∧
      (t.ic n.val).conv = none ∧ (r.target = 1 → (t.ic n.val).fifo = (s.ic n.val).fifo ∧ t.ana.cross = s.ana.cross ∧
      t.reg (aIC_CFG n.val) = s.reg (aIC_CFG n.val)) ∧ (r.target = 0 → t.ic n.val = Ic.empty ∧ t.ana.cross = none ∧
      t.ana.periods = [] ∧ t.reg (aIC_CFG n.val) = regReset (aIC_CFG n.val)) ∧ s.keepsElse t [.ev, .pwr, .hw,
      .ana] (fun a => among [aPWR_REQ, aPWR_RESULT, aPWR_STATE (r.domain / 16)] a || blockFrom 7 0x800 0x900 a))) ∧
    (∀ (d : BitVec 7), s.hubRuns → s.pwr.turning.any (fun x => x.1 == d.toNat && decide (x.2 ≤ s.now)) → (d.toNat < 32 ∨
      36 ≤ d.toNat) → Leads (.domainReady d) s (fun t => t.domOn d.toNat ∧
      t.pwr = { s.pwr with turning := s.pwr.turning.filter (fun x => x.1 != d.toNat) } ∧
      s.keepsElse t [.pwr] (among [aPWR_STATE (d.toNat / 16)]))) ∧
    (∀ (d : BitVec 7) (k : Fin 4), s.hubRuns → s.pwr.turning.any (fun x => x.1 == d.toNat && decide (x.2 ≤ s.now)) →
      d.toNat = 32 + k.val → s.dramState k.val = 4 → s.fld (aDR_LB k.val) fDR_LB_DEPTH = 0 →
      Leads (.domainReady d) s (fun t => t.domOn d.toNat ∧
      t.pwr = { s.pwr with turning := s.pwr.turning.filter (fun x => x.1 != d.toNat) } ∧
      t.dramState k.val = (s.ds k.val).heldFrom % 8 ∧ ((s.ds k.val).heldFrom = 3 → t.bit (aDR_FLAG k.val) fDR_FLAG_READY) ∧
      s.keepsElse t [.pwr, .dsets, .ev, .hw] (among [aPWR_STATE 2, aDR_STATUS k.val, aDR_FLAG k.val]))) ∧
    (∀ (d : BitVec 7) (k : Fin 4), s.hubRuns → s.pwr.turning.any (fun x => x.1 == d.toNat && decide (x.2 ≤ s.now)) →
      d.toNat = 32 + k.val → ¬(s.dramState k.val = 4 ∧ s.fld (aDR_LB k.val) fDR_LB_DEPTH = 0) →
      Leads (.domainReady d) s (fun t => t.domOn d.toNat ∧
      t.pwr = { s.pwr with turning := s.pwr.turning.filter (fun x => x.1 != d.toNat) } ∧
      s.keepsElse t [.pwr] (among [aPWR_STATE 2]))) ∧
    (∀ (d : BitVec 7), (s.hubRuns = false ∨ s.pwr.turning.all (fun x => x.1 != d.toNat || decide (s.now < x.2))) →
      exec (.domainReady d) s = .next (s)) ∧
    (∀ (d e : Nat), s.now ≤ e → s.rise d e = s) ∧
    (∀ (d e : Nat), e < s.now → (s.rise d e).pwr.rising = s.pwr.rising ∨
      (s.rise d e).pwr.rising = s.pwr.rising.filter (fun x => x.1 != d)) ∧
    (∀ (d e : Nat), e + 3 ≤ s.now → ((8 ≤ d ∧ d < 32) ∨ d = 56 ∨ d = 57) → (s.rise d e).domOn d) ∧
    (∀ (d e : Nat), e + 3 ≤ s.now → d < 6 → s.dieState d = 2 → s.dieStart d = none → (s.rise d e).domOn d ∧
      (s.rise d e).dieState d = 3) ∧
    (∀ (d e : Nat), e + 3 ≤ s.now → (64 ≤ d ∧ d < 128) → s.domState d = 1 → (s.rise d e).domState d = 1 ∧ tget (fun _ => (0,
      false)) (s.rise d e).banks.wake (d - 64) = (s.now + coreTicks (if d ∈ s.pwr.kept then 64 else 4096) + 1,
      decide (d ∉ s.pwr.kept))) ∧
    (∀ (d e : Nat), e + 3 ≤ s.now → (32 ≤ d ∧ d < 40) → if d ∈ s.pwr.kept then (s.rise d e).pwr.turning = s.pwr.turning ++ [(d,
      s.now + if d < 36 then 0 else 1500)] else (s.rise d e).domOn d)

/-- LOAD copies RTC_SET into the counter at the next rim cycle, on which a request in progress grows one cycle older and the
steps of turning on end. RTC_SNAP captures the counter and the tick. When the counter equals RTC_ALM with ALM_EN, ALARM and
event 1936, and with WAKE_EN each marked domain is asked on, or queued behind the request in progress. Without crystal edges
RTC_FAIL and event 1937, and the counter stands until they return. Model choices it rests on: log entries 3, 111.
(16_power_and_events.md R372, R376 to R378) -/
def Obligations.RealTimeClock : Prop :=
  ∀ s : State, s.Inv →
    (∀ (m : Rm), s.ringReady m aRTC_CTRL →
      Writes (.rtcLoad m) m aRTC_CTRL (putF (s.reg aRTC_CTRL) fRTC_CTRL_LOAD 1) .ok s (fun u => u.pwr = { s.pwr with loadPending := true } ∧
      u.bit aRTC_CTRL fRTC_CTRL_ALM_EN = s.bit aRTC_CTRL fRTC_CTRL_ALM_EN ∧
      u.bit aRTC_CTRL fRTC_CTRL_WAKE_EN = s.bit aRTC_CTRL fRTC_CTRL_WAKE_EN ∧ s.keepsElse u [.pwr] (among [aRTC_CTRL]))) ∧
    (s.rimEdge.pwr.rtc = (if s.pwr.loadPending then BitVec.ofNat 48 (s.reg64 aRTC_SET_LO aRTC_SET_HI) else s.pwr.rtc + 1) ∧
      s.rimEdge.pwr.loadPending = false ∧ s.rimEdge.pwr.almDone = false ∧ s.rimEdge.pwr.cur.map (fun r => (r.rim,
      r.edges)) = s.pwr.cur.map (fun r => (r.rim + 1, if r.granted then r.edges + 1 else 0)) ∧
      s.rimEdge.pwr.rising = s.pwr.rising.map (fun x => (x.1, some (x.2.getD s.now))) ∧
      s.keepsElse s.rimEdge [.pwr] (fun _ => false)) ∧
    (∀ (m : Rm), s.ringReady m aRTC_SNAP →
      Writes (.rtcSnap m) m aRTC_SNAP 0#32 .ok s (fun u => u.reg64 aRTC_SNAP_LO aRTC_SNAP_HI = s.pwr.rtc.toNat ∧
      u.reg64 aRTC_SNAP_TLO aRTC_SNAP_THI = (if s.hubRuns then s.tickN else 0) ∧ s.keepsElse u [] (among [aRTC_SNAP_LO,
      aRTC_SNAP_HI, aRTC_SNAP_TLO, aRTC_SNAP_THI]))) ∧
    (s.bit aRTC_CTRL fRTC_CTRL_ALM_EN → s.pwr.rtcStopped = false → s.pwr.almDone = false → s.pwr.rtc.toNat = s.alarmAt →
      s.clk.phase ≠ .porHold → (s.bit aRTC_CTRL fRTC_CTRL_WAKE_EN = false ∨ s.hubRuns = false) →
      Leads (.rtcAlarm) s (fun t => t.bit aRIM_STAT fRIM_STAT_ALARM ∧ t.showsEvent 1936 ∧ t.pwr.almDone ∧
      t.pwr = { s.pwr with almDone := true } ∧ s.keepsElse t [.ev, .pwr, .hw] (among [aRIM_STAT]))) ∧
    (∀ (r : PwrReq), s.bit aRTC_CTRL fRTC_CTRL_ALM_EN → s.pwr.rtcStopped = false → s.pwr.almDone = false →
      s.pwr.rtc.toNat = s.alarmAt → s.clk.phase ≠ .porHold → s.bit aRTC_CTRL fRTC_CTRL_WAKE_EN → s.hubRuns →
      s.pwr.cur = some r → Leads (.rtcAlarm) s (fun t => t.bit aRIM_STAT fRIM_STAT_ALARM ∧ t.showsEvent 1936 ∧ t.pwr.almDone ∧
      t.pwr = { s.pwr with almDone := true, wakes := s.pwr.wakes ++ s.wakeList } ∧ (∀ j, j < 128 →
      (j ∈ s.wakeList ↔ (s.reg (aRTC_WAKE (j / 32))).getLsbD (j % 32) = true ∧ domKnown j = true)) ∧ s.keepsElse t [.ev, .pwr,
      .hw] (among [aRIM_STAT]))) ∧
    (∀ (l : List Nat), s.bit aRTC_CTRL fRTC_CTRL_ALM_EN → s.pwr.rtcStopped = false → s.pwr.almDone = false →
      s.pwr.rtc.toNat = s.alarmAt → s.clk.phase ≠ .porHold → s.bit aRTC_CTRL fRTC_CTRL_WAKE_EN → s.hubRuns → s.pwr.cur = none →
      l = s.pwr.wakes ++ s.wakeList → l.all (fun j => decide (j < 128)) →
      Leads (.rtcAlarm) s (fun t => t.bit aRIM_STAT fRIM_STAT_ALARM ∧ t.showsEvent 1936 ∧ t.pwr.almDone ∧ (∀ j, j < 128 →
      (j ∈ s.wakeList ↔ (s.reg (aRTC_WAKE (j / 32))).getLsbD (j % 32) = true ∧ domKnown j = true)) ∧ t.pwr.wakes = [] ∧ (∀ j,
      j < 128 → t.domState j = if j ∈ l ∧ s.domState j ≠ 3 then 1 else s.domState j) ∧ (∀ j ∈ l, (s.domState j = 0 ∨
      s.domState j = 2) → (j, none) ∈ t.pwr.rising) ∧ (l ≠ [] → t.bit aPWR_RESULT fPWR_RESULT_DONE ∧ t.showsEvent 0) ∧
      s.keepsElse t [.ev, .pwr, .hw] (fun a => among [aRIM_STAT,
      aPWR_RESULT] a || among (l.map (fun j => aPWR_STATE (j / 16))) a))) ∧
    (¬(s.bit aRTC_CTRL fRTC_CTRL_ALM_EN ∧ s.pwr.rtcStopped = false ∧ s.pwr.almDone = false ∧ s.pwr.rtc.toNat = s.alarmAt ∧
      s.clk.phase ≠ .porHold) → exec (.rtcAlarm) s = .next (s)) ∧
    (s.pwr.rtcStopped = false → Leads (.rtcFail) s (fun t => t.bit aRIM_STAT fRIM_STAT_RTC_FAIL ∧ t.showsEvent 1937 ∧
      t.pwr = { s.pwr with rtcStopped := true } ∧ s.keepsElse t [.ev, .pwr, .hw] (among [aRIM_STAT]))) ∧
    (s.pwr.rtcStopped → exec (.rtcFail) s = .next (s)) ∧
    (exec (.rtcEdgesReturn) s = .next ({ s with pwr := { s.pwr with rtcStopped := false } }))

/-- An occurrence on H sets its raw bit, the pending bit of each core its route names, its pin, and queues a channel message
with PRI = LEVEL div 2, or counts it lost when 32 wait, with event 3 for the first. One on another die sets its collector bit
and nothing else. A number that has no source, or one whose die is in reset or has no clock, never fires. A pin pulses for
WIDTH x 16 ticks, holds its level until EV_OUT_CLR, or toggles; EN = 0 returns it to inactive. Model choices it rests on: log
entries 112, 156. (16_power_and_events.md R379, R381, R383, R384) -/
def Obligations.EventSources : Prop :=
  ∀ s : State, s.Inv →
    (∀ (e : BitVec 11), s.hubRuns → eventAssigned e.toNat → isCollected e.toNat = false → s.channelMsg e.toNat = none →
      Leads (.eventOccurrence e) s (fun t => t.showsEvent e.toNat ∧ (∀ k, k < 8 →
      (s.fld (aEV_ROUTE e.toNat) fEV_ROUTE_CORES).testBit k → t.evPending k e.toNat) ∧ (∀ k j, k < 8 → j < 2048 → (j ≠ e.toNat ∨
      (s.fld (aEV_ROUTE e.toNat) fEV_ROUTE_CORES).testBit k = false) → t.evPending k j = s.evPending k j) ∧
      t.ev.bridgeQ = s.ev.bridgeQ ∧ ((s.bit (aEV_ROUTE e.toNat) fEV_ROUTE_OUT_EN = false ∨
      s.bit (aEV_OUT_CFG (s.fld (aEV_ROUTE e.toNat) fEV_ROUTE_OUT)) fEV_OUT_CFG_EN = false) → t.ev.outs = s.ev.outs) ∧
      s.keepsElse t [.ev, .hw] (fun _ => false))) ∧
    (∀ (e : BitVec 11) (x : EvMsg), s.hubRuns → eventAssigned e.toNat → isCollected e.toNat = false →
      s.channelMsg e.toNat = some x → s.ev.bridgeQ.length < 32 → Leads (.eventOccurrence e) s (fun t => t.showsEvent e.toNat ∧
      (∀ k, k < 8 → (s.fld (aEV_ROUTE e.toNat) fEV_ROUTE_CORES).testBit k → t.evPending k e.toNat) ∧ (∀ k j, k < 8 → j < 2048 →
      (j ≠ e.toNat ∨ (s.fld (aEV_ROUTE e.toNat) fEV_ROUTE_CORES).testBit k = false) → t.evPending k j = s.evPending k j) ∧
      t.ev.bridgeQ = s.ev.bridgeQ ++ [x] ∧ x.pri = s.fld (aEV_ROUTE e.toNat) fEV_ROUTE_LEVEL / 2 ∧
      x.addr.toNat % 4096 = e.toNat ∧ x.srcDev.toNat = s.devId ∧ s.keepsElse t [.ev, .hw] (fun _ => false))) ∧
    (∀ (e : BitVec 11) (x : EvMsg), s.hubRuns → eventAssigned e.toNat → isCollected e.toNat = false →
      s.channelMsg e.toNat = some x → 32 ≤ s.ev.bridgeQ.length → s.fld aEV_STAT fEV_STAT_MSG_LOST = 0 →
      Leads (.eventOccurrence e) s (fun t => t.showsEvent e.toNat ∧ (∀ k, k < 8 →
      (s.fld (aEV_ROUTE e.toNat) fEV_ROUTE_CORES).testBit k → t.evPending k e.toNat) ∧ t.ev.bridgeQ = s.ev.bridgeQ ∧
      t.fld aEV_STAT fEV_STAT_MSG_LOST = (if s.channelMsg 3 = none then 1 else 2) ∧ t.showsEvent 3 ∧ s.keepsElse t [.ev,
      .hw] (fun _ => false))) ∧
    (∀ (e : BitVec 11) (x : EvMsg), s.hubRuns → eventAssigned e.toNat → isCollected e.toNat = false →
      s.channelMsg e.toNat = some x → 32 ≤ s.ev.bridgeQ.length → s.fld aEV_STAT fEV_STAT_MSG_LOST ≠ 0 →
      Leads (.eventOccurrence e) s (fun t => t.showsEvent e.toNat ∧ (∀ k, k < 8 →
      (s.fld (aEV_ROUTE e.toNat) fEV_ROUTE_CORES).testBit k → t.evPending k e.toNat) ∧ (∀ k j, k < 8 → j < 2048 → (j ≠ e.toNat ∨
      (s.fld (aEV_ROUTE e.toNat) fEV_ROUTE_CORES).testBit k = false) → t.evPending k j = s.evPending k j) ∧
      t.ev.bridgeQ = s.ev.bridgeQ ∧
      t.fld aEV_STAT fEV_STAT_MSG_LOST = min (2 ^ fEV_STAT_MSG_LOST.width - 1) (s.fld aEV_STAT fEV_STAT_MSG_LOST + 1) ∧
      s.keepsElse t [.ev, .hw] (fun _ => false))) ∧
    (∀ (e : BitVec 11), s.runs → eventAssigned e.toNat → isCollected e.toNat → s.inReset (eventDie e.toNat) = false →
      Leads (.eventOccurrence e) s (fun t => t.showsEvent e.toNat ∧ (∀ k, k ≠ e.toNat →
      tget (fun _ => false) t.ev.coll k = tget (fun _ => false) s.ev.coll k) ∧ t.ev = { s.ev with coll := t.ev.coll } ∧
      s.keepsElse t [.ev] (fun _ => false) ∧ t.regs = s.regs)) ∧
    (∀ (e : BitVec 11), (eventAssigned e.toNat = false ∨ (isCollected e.toNat ∧ (s.runs = false ∨ s.inReset (eventDie e.toNat))) ∨
      (isCollected e.toNat = false ∧ s.hubRuns = false)) → exec (.eventOccurrence e) s = .next (s)) ∧
    (∀ (e : BitVec 11) (i : Nat), s.hubRuns → eventAssigned e.toNat → isCollected e.toNat = false →
      i = s.fld (aEV_ROUTE e.toNat) fEV_ROUTE_OUT → s.bit (aEV_ROUTE e.toNat) fEV_ROUTE_OUT_EN →
      s.bit (aEV_OUT_CFG i) fEV_OUT_CFG_EN → (s.fld (aEV_OUT_CFG i) fEV_OUT_CFG_MODE = 0 ∨
      s.fld (aEV_OUT_CFG i) fEV_OUT_CFG_MODE = 3) → (s.channelMsg e.toNat = none ∨ s.ev.bridgeQ.length < 32) →
      Leads (.eventOccurrence e) s (fun t => ((t.outPin i) = (if (s.outPin i).pulseUntil = none then { s.outPin i with pulseUntil := some (s.now + 16 * max 1 (s.fld (aEV_OUT_CFG i) fEV_OUT_CFG_WIDTH)) } else s.outPin i)) ∧
      (∀ j, j ≠ i → t.outPin j = s.outPin j))) ∧
    (∀ (e : BitVec 11) (i : Nat), s.hubRuns → eventAssigned e.toNat → isCollected e.toNat = false →
      i = s.fld (aEV_ROUTE e.toNat) fEV_ROUTE_OUT → s.bit (aEV_ROUTE e.toNat) fEV_ROUTE_OUT_EN →
      s.bit (aEV_OUT_CFG i) fEV_OUT_CFG_EN → s.fld (aEV_OUT_CFG i) fEV_OUT_CFG_MODE = 1 → (s.channelMsg e.toNat = none ∨
      s.ev.bridgeQ.length < 32) →
      Leads (.eventOccurrence e) s (fun t => t.outPin i = { s.outPin i with level := true, setAt := s.now + 1 } ∧ (∀ j, j ≠ i →
      t.outPin j = s.outPin j))) ∧
    (∀ (e : BitVec 11) (i : Nat), s.hubRuns → eventAssigned e.toNat → isCollected e.toNat = false →
      i = s.fld (aEV_ROUTE e.toNat) fEV_ROUTE_OUT → s.bit (aEV_ROUTE e.toNat) fEV_ROUTE_OUT_EN →
      s.bit (aEV_OUT_CFG i) fEV_OUT_CFG_EN → s.fld (aEV_OUT_CFG i) fEV_OUT_CFG_MODE = 2 → (s.channelMsg e.toNat = none ∨
      s.ev.bridgeQ.length < 32) →
      Leads (.eventOccurrence e) s (fun t => t.outPin i = { s.outPin i with toggle := !(s.outPin i).toggle } ∧ (∀ j, j ≠ i →
      t.outPin j = s.outPin j))) ∧
    (∀ (i : Fin 8) (k : Nat), s.hubRuns → (s.outPin i.val).pulseUntil = some k → k ≤ s.now →
      Leads (.evtOutPulseEnd i) s (fun t => t.outPin i.val = { s.outPin i.val with pulseUntil := none } ∧ (∀ j, j ≠ i.val →
      t.outPin j = s.outPin j) ∧ s.keepsElse t [.ev] (fun _ => false))) ∧
    (∀ (i : Fin 8), (s.hubRuns = false ∨ (s.outPin i.val).pulseUntil.all (fun k => decide (s.now < k))) →
      exec (.evtOutPulseEnd i) s = .next (s)) ∧
    (∀ (m : Rm) (v : BitVec 8), s.ringReady m aEV_OUT_CLR →
      Writes (.evOutClr m v) m aEV_OUT_CLR (v.setWidth 32) .ok s (fun u => (∀ i, i < 8 → v.getLsbD i →
      (s.outPin i).setAt ≠ s.now + 1 → u.outPin i = { s.outPin i with level := false }) ∧ (∀ i, i < 8 → (v.getLsbD i = false ∨
      (s.outPin i).setAt = s.now + 1) → u.outPin i = s.outPin i) ∧ s.keepsElse u [.ev] (fun _ => false))) ∧
    (∀ (m : Rm) (i : Fin 8) (v : W32), s.ringReady m (aEV_OUT_CFG i.val) →
      Writes (.evOutCfgWrite m i v) m (aEV_OUT_CFG i.val) v .ok s (fun u => u.outPin i.val = (if getB v fEV_OUT_CFG_EN then s.outPin i.val else OutPin.idle) ∧
      (∀ j, j ≠ i.val → u.outPin j = s.outPin j) ∧ u.fld (aEV_OUT_CFG i.val) fEV_OUT_CFG_WIDTH = getF v fEV_OUT_CFG_WIDTH ∧
      u.fld (aEV_OUT_CFG i.val) fEV_OUT_CFG_MODE = getF v fEV_OUT_CFG_MODE ∧
      u.bit (aEV_OUT_CFG i.val) fEV_OUT_CFG_EN = getB v fEV_OUT_CFG_EN ∧ s.keepsElse u [.ev] (among [(aEV_OUT_CFG i.val)])))

/-- A collector whose path is up sends the message of a pending bit from its fixed NI to the bridge and clears the bit,
whatever the NI state. The bridge sends its oldest message through hub NI 47; one without a usable route is dropped with the
NI_ERR bit of its failure. A collector message from the own device, of an event of the sending die, raises it; otherwise it is
dropped and counted in BADMSG, with event 2 for the first. A channel message raises event 40 + c and records source and event
in EV_RX_c. Nothing happens where nothing waits or no clock runs. Model choices it rests on: log entry 112.
(16_power_and_events.md R379 to R381, R384, 05_weave_best_effort.md R89, R92) -/
def Obligations.EventMessages : Prop :=
  ∀ s : State, s.Inv →
    (∀ (e : BitVec 11) (d : Nat), d = eventDie e.toNat → isCollected e.toNat → tget (fun _ => false) s.ev.coll e.toNat = true →
      s.collectorPath d → Leads (.collectorMessageSend e) s (fun t => tget (fun _ => false) t.ev.coll e.toNat = false ∧ (∀ k,
      k ≠ e.toNat → tget (fun _ => false) t.ev.coll k = tget (fun _ => false) s.ev.coll k) ∧
      t.ev = { s.ev with coll := t.ev.coll } ∧ (t.be.items.map (fun x => (x.d, x.n, hType x.pkt.hdr,
      hAddr x.pkt.hdr)) = s.be.items.map (fun x => (x.d, x.n, hType x.pkt.hdr, hAddr x.pkt.hdr)) ++ [(if d = 7 then 6 else d,
      if d = 7 then 0 else (collectorNi d).1, 4, s.devId * 2 ^ 48 + 0x7E00 * 2 ^ 32 + e.toNat)]) ∧ s.keepsElse t [.ev,
      .be] (fun _ => false) ∧ t.regs = s.regs)) ∧
    (∀ (e : BitVec 11), (isCollected e.toNat = false ∨ tget (fun _ => false) s.ev.coll e.toNat = false ∨
      s.collectorPath (eventDie e.toNat) = false) → exec (.collectorMessageSend e) s = .next (s)) ∧
    (∀ (x : EvMsg) (l : List EvMsg) (q : BitVec 256), s.ev.bridgeQ = x :: l → s.runs → s.domOn 14 →
      s.routeRequest 6 47 (s.fillHdr 6 47 (0x10 + 47) (channelPacket x).hdr) = .to q →
      Leads (.bridgeMessageSend) s (fun t => t.ev = { s.ev with bridgeQ := l } ∧ (hType q = 4 → hAddr q = x.addr.toNat →
      (t.be.items.map (fun x => (x.d, x.n, hType x.pkt.hdr, hAddr x.pkt.hdr)) = s.be.items.map (fun x => (x.d, x.n,
      hType x.pkt.hdr, hAddr x.pkt.hdr)) ++ [(6, 47, 4, x.addr.toNat)])) ∧ s.keepsElse t [.ev, .be] (fun _ => false) ∧
      t.regs = s.regs)) ∧
    (∀ (x : EvMsg) (l : List EvMsg), s.ev.bridgeQ = x :: l → s.runs → s.domOn 14 →
      s.routeRequest 6 47 (s.fillHdr 6 47 (0x10 + 47) (channelPacket x).hdr) = .err none →
      Leads (.bridgeMessageSend) s (fun t => t = { s with ev := { s.ev with bridgeQ := l } })) ∧
    (∀ (x : EvMsg) (l : List EvMsg) (f : Fld), s.ev.bridgeQ = x :: l → s.runs → s.domOn 14 →
      s.routeRequest 6 47 (s.fillHdr 6 47 (0x10 + 47) (channelPacket x).hdr) = .err (some f) →
      Leads (.bridgeMessageSend) s (fun t => (t.ev.bridgeQ = l ∨ s.bit (aNI_ERR 6 47) f = false) ∧ t.bit (aNI_ERR 6 47) f ∧
      t.be = s.be ∧ s.keepsElse t [.ev, .hw] (among [aNI_ERR 6 47]))) ∧
    ((s.ev.bridgeQ = [] ∨ s.runs = false ∨ s.domState 14 ≠ 3) → exec (.bridgeMessageSend) s = .next (s)) ∧
    (∀ (x : EvMsg) (l : List EvMsg) (c : Nat), s.ev.flight = x :: l → s.hubRuns → x.addr.getLsbD 15 →
      c = x.addr.toNat / 4096 % 8 → Leads (.eventMessageReceive) s (fun t => t.ev.flight = l ∧ t.showsEvent (40 + c) ∧
      t.fld (aEV_RX_0 c) fEV_RX_0_DEV = x.srcDev.toNat ∧ t.fld (aEV_RX_0 c) fEV_RX_0_EVENT = x.addr.toNat % 2048 ∧
      t.fld (aEV_RX_1 c) fEV_RX_1_COUNT = min 65535 (s.fld (aEV_RX_1 c) fEV_RX_1_COUNT + 1) ∧ s.keepsElse t [.ev,
      .hw] (among [aEV_RX_0 c, aEV_RX_1 c]))) ∧
    (∀ (x : EvMsg) (l : List EvMsg), s.ev.flight = x :: l → s.hubRuns → x.addr.getLsbD 15 = false → x.srcDev.toNat = s.devId →
      isCollected (x.addr.toNat % 2048) → eventDie (x.addr.toNat % 2048) = x.srcDie →
      Leads (.eventMessageReceive) s (fun t => t.ev.flight = l ∧
      t.bit (aEV_RAW (x.addr.toNat % 2048 / 32)) ⟨x.addr.toNat % 2048 % 32, 1⟩ ∧ t.ev.coll = s.ev.coll ∧ s.keepsElse t [.ev,
      .hw] (fun _ => false))) ∧
    (∀ (x : EvMsg) (l : List EvMsg), s.ev.flight = x :: l → s.hubRuns → x.addr.getLsbD 15 = false → (x.srcDev.toNat ≠ s.devId ∨
      isCollected (x.addr.toNat % 2048) = false ∨ eventDie (x.addr.toNat % 2048) ≠ x.srcDie) →
      Leads (.eventMessageReceive) s (fun t => t.ev.flight = l ∧
      t.fld aEV_STAT fEV_STAT_BADMSG = min (2 ^ fEV_STAT_BADMSG.width - 1) (s.fld aEV_STAT fEV_STAT_BADMSG + 1) ∧
      (s.fld aEV_STAT fEV_STAT_BADMSG = 0 → t.showsEvent 2) ∧ (s.fld aEV_STAT fEV_STAT_BADMSG ≠ 0 →
      t.ev = { s.ev with flight := l }) ∧ s.keepsElse t [.ev, .hw] (fun _ => false))) ∧
    ((s.ev.flight = [] ∨ s.hubRuns = false) → exec (.eventMessageReceive) s = .next (s))

/-- A master has one access outstanding; another request of it changes nothing. While the root has granted another access in
this ring cycle the request waits. A read answers the register and changes nothing else. An access where no register is ends
DECODE with zero data; one to a block whose domain is not on ends REFUSED; one to a die in reset or a stopped ring ends
TIMEOUT at once; one whose loop is not carried stays in progress. The answer completes the access, as does TIMEOUT after 4,096
ring cycles; that of a remote packet is sent back. A plain write stores the writable bits and clears the W1C bits written 1.
Model choices it rests on: log entries 12, 13, 14, 15, 16, 120. (01_dies_and_address_map.md R8 to R11, R21, R22, R27,
16_power_and_events.md R370, 07_device_torus.md R178) -/
def Obligations.RingAccesses : Prop :=
  ∀ s : State, s.Inv →
    (∀ (m : Rm) (r : RingReq) (k : Nat), r.die < 8 → r.block < 65536 → r.off < 65536 → k < 4 → s.ringReady m (ringAddr r) →
      r.write = false → (ringAddr r) ∈ [aDEVICE_ID, aDEVICE_CODE, aBREACH_SUM, aPWR_RESULT, aPWR_LIMIT, aEV_STAT, aPAT_STATUS,
      aREF_STATUS, aBANK_OWNER k, aEV_ROUTE k, aEV_RX_0 k, aDMA_CUR k, aNI_ERR k 4, aAB_FLAG k] →
      Leads (.ringAccess m r) s (fun t => t.master m = { s.master m with busy := true, req := r, grantAt := s.now, waiting := false, granted := true, answered := true, ansStatus := .ok, ansData := s.reg (ringAddr r) } ∧
      s.keepsElse t (match m with | .core0 => [.ringCore] | .debug => [.ringDebug] | .config => [.ringConfig]) (fun _ => false) ∧
      t.regs = s.regs)) ∧
    (∀ (m : Rm) (r : RingReq), r.die < 8 → r.block < 65536 → r.off < 65536 → s.ringReady m (ringAddr r) → r.write = false →
      r.die < 7 → (ringAddr r) = aDIE_INFO r.die →
      Leads (.ringAccess m r) s (fun t => t.master m = { s.master m with busy := true, req := r, grantAt := s.now, waiting := false, granted := true, answered := true, ansStatus := .ok, ansData := s.dieInfo r.die } ∧
      getF (s.dieInfo r.die) fDIE_INFO_DIE_INDEX = r.die ∧
      s.keepsElse t (match m with | .core0 => [.ringCore] | .debug => [.ringDebug] | .config => [.ringConfig]) (fun _ => false) ∧
      t.regs = s.regs)) ∧
    (∀ (m : Rm) (r : RingReq), r.die < 8 → r.block < 65536 → r.off < 65536 → s.ringReady m (ringAddr r) →
      Leads (.ringAccess m r) s (fun t => (t.master m).busy ∧ (t.master m).answered ∧ (t.master m).granted ∧
      (t.master m).req = r ∧ (t.master m).grantAt = s.now ∧ (t.master m).ansStatus = (ringTarget m r s).2.1 ∧
      (t.master m).ansData = (ringTarget m r s).2.2 ∧ t = (ringTarget m r s).1.setMaster m (t.master m))) ∧
    (∀ (m : Rm) (r : RingReq), r.die < 8 → r.block < 65536 → r.off < 65536 → (s.master m).busy = false →
      s.ringClosed r.die = false → s.ringGranted = false → s.reach r.die → regRow (ringAddr r) = none →
      Leads (.ringAccess m r) s (fun t => t.master m = { s.master m with busy := true, req := r, grantAt := s.now, waiting := false, granted := true, answered := true, ansStatus := .decode, ansData := 0#32 } ∧
      s.keepsElse t (match m with | .core0 => [.ringCore] | .debug => [.ringDebug] | .config => [.ringConfig]) (fun _ => false) ∧
      t.regs = s.regs)) ∧
    (∀ (m : Rm) (r : RingReq) (d : Nat), r.die < 8 → r.block < 65536 → r.off < 65536 → (s.master m).busy = false →
      s.ringClosed r.die = false → s.ringGranted = false → s.reach r.die → regRow (ringAddr r) ≠ none →
      blockDom r.die r.block r.off = some d → s.domState d ≠ 3 →
      Leads (.ringAccess m r) s (fun t => t.master m = { s.master m with busy := true, req := r, grantAt := s.now, waiting := false, granted := true, answered := true, ansStatus := .refused, ansData := 0#32 } ∧
      s.keepsElse t (match m with | .core0 => [.ringCore] | .debug => [.ringDebug] | .config => [.ringConfig]) (fun _ => false) ∧
      t.regs = s.regs)) ∧
    (∀ (m : Rm) (r : RingReq), (s.master m).busy = false → s.ringClosed r.die →
      Leads (.ringAccess m r) s (fun t => t.master m = { s.master m with busy := true, req := r, grantAt := s.now, waiting := false, granted := false, answered := true, ansStatus := .timeout, ansData := 0#32 } ∧
      s.keepsElse t (match m with | .core0 => [.ringCore] | .debug => [.ringDebug] | .config => [.ringConfig]) (fun _ => false) ∧
      t.regs = s.regs)) ∧
    (∀ (m : Rm) (r : RingReq), (s.master m).busy = false → s.ringClosed r.die = false → s.ringGranted →
      Leads (.ringAccess m r) s (fun t => t.master m = { s.master m with busy := true, req := r, grantAt := s.now, answered := false, waiting := true, granted := false } ∧
      s.keepsElse t (match m with | .core0 => [.ringCore] | .debug => [.ringDebug] | .config => [.ringConfig]) (fun _ => false) ∧
      t.regs = s.regs)) ∧
    (∀ (m : Rm) (r : RingReq), (s.master m).busy = false → s.ringClosed r.die = false → s.ringGranted = false →
      s.reach r.die = false →
      Leads (.ringAccess m r) s (fun t => t.master m = { s.master m with busy := true, req := r, grantAt := s.now, waiting := false, answered := false, granted := true } ∧
      s.keepsElse t (match m with | .core0 => [.ringCore] | .debug => [.ringDebug] | .config => [.ringConfig]) (fun _ => false) ∧
      t.regs = s.regs)) ∧
    (∀ (m : Rm) (r : RingReq), (s.master m).busy → exec (.ringAccess m r) s = .next (s)) ∧
    (∀ (m : Rm) (a : Nat) (v : W32) (f : State → Answer), (s.master m).busy → ringPut m a v f s = s) ∧
    (∀ (m : Rm) (a : Nat) (v : W32) (f : State → Answer), (s.master m).busy = false → s.ringClosed (a / 4294967296) →
      ringPut m a v f s = s.setMaster m { s.master m with busy := true, req := { die := a / 4294967296, block := a / 65536 % 65536, off := a % 65536, write := true, data := v }, grantAt := s.now, answered := true, waiting := false, granted := false, ansStatus := .timeout, ansData := 0#32 }) ∧
    (∀ (m : Rm) (a : Nat) (v : W32) (f : State → Answer), (s.master m).busy = false → s.ringClosed (a / 4294967296) = false →
      s.ringGranted →
      ringPut m a v f s = s.setMaster m { s.master m with busy := true, req := { die := a / 4294967296, block := a / 65536 % 65536, off := a % 65536, write := true, data := v }, grantAt := s.now, answered := false, waiting := true, granted := false }) ∧
    (∀ (m : Rm), s.ringGranted = false → s.nextWaiting = some m → (s.ringTick.master m).waiting = false ∧
      (s.reach (s.master m).req.die = true → (s.ringTick.master m).answered = true)) ∧
    (∀ (m : Rm), (s.master m).busy → (s.master m).answered → (s.master m).remote = none → ((s.master m).req.write ∨
      (s.master m).ansStatus = .ok ∨ (s.master m).ansStatus = .decode) →
      Leads (.ringAccessComplete m) s (fun t => (t.master m).busy = false ∧ (t.master m).waiting = false ∧
      (t.master m).remote = none ∧ (t.master m).status = (s.master m).ansStatus ∧
      (t.master m).data = (if (s.master m).req.write then (s.master m).data else (s.master m).ansData) ∧ (m = .core0 →
      (s.master m).req.write = false → t.thr 0 = { s.thr 0 with rdata := (s.master m).ansData }) ∧
      s.keepsElse t ((match m with | .core0 => [.ringCore] | .debug => [.ringDebug] | .config => [.ringConfig]) ++ [.cores]) (fun _ => false))) ∧
    (∀ (m : Rm), (s.master m).busy → (s.master m).answered → (s.master m).remote = none → ¬((s.master m).req.write ∨
      (s.master m).ansStatus = .ok ∨ (s.master m).ansStatus = .decode) →
      Leads (.ringAccessComplete m) s (fun t => (t.master m).busy = false ∧ (t.master m).waiting = false ∧
      (t.master m).remote = none ∧ (t.master m).status = (s.master m).ansStatus ∧ (m = .core0 →
      t.thr 0 = { s.thr 0 with rdata := (t.master m).data }) ∧
      s.keepsElse t ((match m with | .core0 => [.ringCore] | .debug => [.ringDebug] | .config => [.ringConfig]) ++ [.cores,
      .free]) (fun _ => false))) ∧
    (∀ (m : Rm) (b : BitVec 120), (s.master m).busy → (s.master m).answered → (s.master m).remote = some b →
      Leads (.ringAccessComplete m) s (fun t => (t.master m).busy = false ∧ (t.master m).waiting = false ∧
      (t.master m).remote = none ∧ (t.master m).status = (s.master m).ansStatus ∧
      t.remoteIn = (s.sendRemote (remoteResponse b (s.master m).ansStatus (if (s.master m).req.write ∨
      (s.master m).ansStatus = .ok ∨
      (s.master m).ansStatus = .decode then (s.master m).ansData else (t.master m).data))).remoteIn ∧
      t.ports = (s.sendRemote (remoteResponse b (s.master m).ansStatus (if (s.master m).req.write ∨
      (s.master m).ansStatus = .ok ∨
      (s.master m).ansStatus = .decode then (s.master m).ansData else (t.master m).data))).ports ∧ t.cores = s.cores ∧
      s.keepsElse t ((match m with | .core0 => [.ringCore] | .debug => [.ringDebug] | .config => [.ringConfig]) ++ [.ports,
      .remoteIn, .free]) (fun _ => false))) ∧
    (∀ (m : Rm), (s.master m).busy → (s.master m).answered = false → s.ringClosed (s.master m).req.die →
      Leads (.ringAccessComplete m) s (fun t => (t.master m).busy = false ∧ (t.master m).waiting = false ∧
      (t.master m).remote = none ∧ (t.master m).status = .timeout ∧ (∀ k ∈ [Rm.core0, .debug, .config], k ≠ m →
      t.master k = s.master k) ∧
      s.keepsElse t ((match m with | .core0 => [.ringCore] | .debug => [.ringDebug] | .config => [.ringConfig]) ++ [.cores,
      .free, .ports, .remoteIn]) (fun _ => false))) ∧
    (∀ (m : Rm), (s.master m).busy → (s.master m).answered = false → (s.master m).waiting = false →
      s.ringClosed (s.master m).req.die = false → s.reach (s.master m).req.die →
      Leads (.ringAccessComplete m) s (fun t => (t.master m).busy = false ∧ (t.master m).waiting = false ∧
      (t.master m).remote = none ∧ (t.master m).status = (gated (s.master m).req (ringTarget m (s.master m).req) s).2.1 ∧
      ((s.master m).req.write = false → (gated (s.master m).req (ringTarget m (s.master m).req) s).2.1 = .ok →
      (t.master m).data = (gated (s.master m).req (ringTarget m (s.master m).req) s).2.2))) ∧
    (∀ (m : Rm), ((s.master m).busy = false ∨ ((s.master m).answered = false ∧ s.ringClosed (s.master m).req.die = false ∧
      ((s.master m).waiting ∨ s.reach (s.master m).req.die = false))) → exec (.ringAccessComplete m) s = .next (s)) ∧
    (∀ (m : Rm), (s.master m).busy → (s.master m).waiting = false → (s.master m).grantAt + ringTicks 4096 ≤ s.now →
      ((s.master m).answered ∨ (s.master m).req.write = false) →
      Leads (.ringAccessTimeout m) s (fun t => (t.master m).busy = false ∧ (t.master m).waiting = false ∧
      (t.master m).remote = none ∧ (t.master m).status = .timeout ∧ (∀ k ∈ [Rm.core0, .debug, .config], k ≠ m →
      t.master k = s.master k) ∧
      s.keepsElse t ((match m with | .core0 => [.ringCore] | .debug => [.ringDebug] | .config => [.ringConfig]) ++ [.cores,
      .free, .ports, .remoteIn]) (fun _ => false))) ∧
    (∀ (m : Rm), (s.master m).busy → (s.master m).waiting = false → (s.master m).grantAt + ringTicks 4096 ≤ s.now →
      (s.master m).answered = false → (s.master m).req.write →
      Leads (.ringAccessTimeout m) s (fun t => (t.master m).busy = false ∧ (t.master m).waiting = false ∧
      (t.master m).remote = none ∧ (t.master m).status = .timeout ∧ ((t.regs = s.regs ∧ t.mem = s.mem) ∨
      (t.regs = (gated (s.master m).req (ringTarget m (s.master m).req) (s.freshB).2).1.regs ∧
      t.mem = (gated (s.master m).req (ringTarget m (s.master m).req) (s.freshB).2).1.mem)))) ∧
    (∀ (m : Rm), ((s.master m).busy = false ∨ (s.master m).waiting ∨ s.now < (s.master m).grantAt + ringTicks 4096) →
      exec (.ringAccessTimeout m) s = .next (s)) ∧
    (∀ (m : Rm) (die : Fin 8) (block off : BitVec 16) (v : W32) (a k : Nat) (w : RegRow), a = ra die.val block.toNat off.toNat →
      k < 4 → s.ringReady m a → regRow a = some w → a ∈ [aPWR_LIMIT, aRIM_STAT, aRTC_SET_LO, aRTC_SET_HI, aRTC_ALM_LO,
      aRTC_ALM_HI, aRTC_WAKE k, aEV_CTRL, aEV_MSG k, aEV_ROUTE k, aNI_ERR k 4, aAB_FLAG k] →
      Writes (.registerWrite m die block off v) m a v .ok s (fun u => u.reg a = ((s.reg a &&& ~~~(BitVec.ofNat 32 w.rw) &&& ~~~(BitVec.ofNat 32 w.w1c &&& v)) ||| (v &&& BitVec.ofNat 32 w.rw) ||| (s.hwBits a &&& v &&& BitVec.ofNat 32 w.w1c)) ∧
      s.keepsElse u [] (among [a]))) ∧
    (∀ (m : Rm) (die : Fin 8) (block off : BitVec 16) (v : W32) (a : Nat), a = ra die.val block.toNat off.toNat →
      s.ringReady m a → ownRow die.val block.toNat off.toNat = false →
      Leads (.registerWrite m die block off v) s (fun t => (t.master m).busy ∧ (t.master m).answered ∧
      (t.master m).ansStatus = (regWrite m a v s).2.1 ∧
      (t.master m).req = { die := die.val, block := block.toNat, off := off.toNat, write := true, data := v } ∧
      t = (regWrite m a v s).1.setMaster m (t.master m))) ∧
    (∀ (m : Rm) (die : Fin 8) (block off : BitVec 16) (v : W32), (ownRow die.val block.toNat off.toNat ∨ (s.master m).busy) →
      exec (.registerWrite m die block off v) s = .next (s))

/-- A reset puts IDCODE into every TAP and clears OVERRUN; only TRST_N clears CHAIN_SEL. Update-IR loads the hub TAP and the
dies in the chain; others hold IDCODE, whose capture is the identification word of the die. A newly intrusive instruction on H
makes enabled ports retrain and the DRAM sets lose their contents. CHAIN_SEL and boundary updates store under their
instructions. RING starts an access of master 0x60, ends at once with TIMEOUT while clocks stand, and an update while BUSY
only sets OVERRUN; its capture shows BUSY, OVERRUN, STATUS and data. RIM keeps INDEX and writes with WR. Updates under another
instruction, or of a dead TAP, do nothing. Model choices it rests on: log entry 113. (17_debug.md R385 to R387,
18_test_and_loopbacks.md R405 to R409) -/
def Obligations.TapAccess : Prop :=
  ∀ s : State, s.Inv →
    (∀ (b : Bool), Leads (.tapReset b) s (fun t => (∀ d, d < 8 → t.tapIr d = 1#8) ∧
      t.tap.chainSel = (if b then 0#8 else s.tap.chainSel) ∧ t.tap.overrun = false ∧ t.tap.rimIndex = 0#7 ∧
      t.tap.bists = s.tap.bists ∧ t.tap.d2d = s.tap.d2d ∧ t.tap.boundary = s.tap.boundary ∧
      s.keepsElse t [.tap] (fun _ => false) ∧ t.regs = s.regs)) ∧
    (∀ (h : BitVec 8) (v : W64), s.tapLive → (intrusive h = false ∨ intrusive s.tap.ir) →
      Leads (.tapInstructionLoad h v) s (fun t => t.tapIr 6 = h ∧ (∀ d, d < 8 → d ≠ 6 →
      t.tapIr d = if s.inChain d then v.extractLsb' (8 * d) 8 else 1#8) ∧ t.tap.chainSel = s.tap.chainSel ∧
      s.keepsElse t [.tap] (fun _ => false) ∧ t.regs = s.regs)) ∧
    (∀ (h : BitVec 8) (v : W64), s.tapLive → intrusive h → intrusive s.tap.ir = false → s.runs →
      Leads (.tapInstructionLoad h v) s (fun t => t.tapIr 6 = h ∧ (∀ p, p < 6 → s.bit (aTP_CTRL p) fTP_CTRL_EN →
      s.tpState p ≠ 11 → s.tpState p ≠ 0 → t.tpState p = 1) ∧ (∀ q, q < 4 → s.qdrState q ≠ 3 → t.qdrState q = 0) ∧ (∀ q, q < 4 →
      t.dramState q = 0) ∧ t.km = [])) ∧
    (∀ (h : BitVec 8) (v : W64), s.tapLive → intrusive h → intrusive s.tap.ir = false → s.runs = false →
      Leads (.tapInstructionLoad h v) s (fun t => t.tapIr 6 = h ∧ t.tap.chainSel = s.tap.chainSel ∧ t.ports = s.ports ∧ (∀ q,
      q < 4 → t.dramState q = 0) ∧ t.km = [] ∧ s.keepsElse t [.tap, .mem, .dsets,
      .km] (fun a => (decide (0x60030 ≤ a / 65536) && decide (a / 65536 ≤ 0x60033)) || among [aKM_STATUS] a))) ∧
    (∀ (h : BitVec 8) (v : W64), s.tapLive = false → exec (.tapInstructionLoad h v) s = .next (s)) ∧
    (∀ (v : BitVec 8), s.tap.ir = 0x10#8 → Leads (.chainSelUpdate v) s (fun t => t.tap.chainSel = v ∧ t.tap.ir = s.tap.ir ∧ (∀ d,
      d < 8 → d ≠ 6 → v.getLsbD d = false → t.tapIr d = 1#8) ∧ s.keepsElse t [.tap] (fun _ => false) ∧ t.regs = s.regs)) ∧
    (∀ (v : BitVec 8), s.tap.ir ≠ 0x10#8 → exec (.chainSelUpdate v) s = .next (s)) ∧
    (∀ (d : Fin 8) (v : Nat), d.val ≠ 7 → boundaryIr (s.tapIr d.val) → s.tapLive →
      Leads (.boundaryScanUpdate d v) s (fun t => tget (fun _ => 0) t.tap.boundary d.val = v % 2 ^ (if d.val = 6 then 6023 else 640) ∧
      (∀ k, k ≠ d.val → tget (fun _ => 0) t.tap.boundary k = tget (fun _ => 0) s.tap.boundary k) ∧
      s.keepsElse t [.tap] (fun _ => false) ∧ t.regs = s.regs)) ∧
    (∀ (d : Fin 8) (v : Nat), ¬(d.val ≠ 7 ∧ boundaryIr (s.tapIr d.val) ∧ s.tapLive) →
      exec (.boundaryScanUpdate d v) s = .next (s)) ∧
    (∀ (d : Fin 8), s.tapIr d.val = 1#8 → s.drCapture d.val = some (32, (s.idcode d.val).toNat) ∧
      (s.idcode d.val).toNat % 4096 = 2 * 0x2B5 + 1 ∧
      (s.idcode d.val).toNat / 4096 % 65536 = (if d.val < 6 then 0xFA61 else if d.val = 6 then 0xFA64 else 0xFA67) ∧
      (s.idcode d.val).toNat / 2 ^ 28 = s.fuse.dieRev.getD d.val 0 % 16) ∧
    (∀ (r : BitVec 68) (x : RingReq), s.tap.ir = 0x20#8 → s.tapLive → (r.toNat % 4 = 1 ∨ r.toNat % 4 = 2) → s.runs →
      x = { die := r.toNat / 4 % 8, block := r.toNat / 32 % 65536, off := 4 * (r.toNat / 2 ^ 21 % 2 ^ 14), write := r.getLsbD 1, data := BitVec.ofNat 32 (r.toNat / 2 ^ 35) } →
      s.ringDebug.busy = false → Leads (.jtagRingUpdate r) s (fun t => t.ringDebug.busy ∧ t.ringDebug.req = x ∧ t.tap = s.tap ∧
      t.ringDebug.waiting = (s.ringGranted && !s.inReset x.die) ∧ t = ringDo .debug x (ringTarget .debug x) s)) ∧
    (∀ (r : BitVec 68) (x : RingReq), s.tap.ir = 0x20#8 → s.tapLive → r.toNat % 4 = 1 → s.ringReady .debug (aCORE_STATUS 3) →
      x = { die := r.toNat / 4 % 8, block := r.toNat / 32 % 65536, off := 4 * (r.toNat / 2 ^ 21 % 2 ^ 14), write := r.getLsbD 1, data := BitVec.ofNat 32 (r.toNat / 2 ^ 35) } →
      ringAddr x = aCORE_STATUS 3 → x.die = 6 → x.off = 4 → s.coreState 3 = 0 →
      Leads (.jtagRingUpdate r) s (fun t => t.ringDebug.answered ∧ t.ringDebug.ansStatus = .ok ∧
      t.ringDebug.ansData = putF (s.reg (aCORE_STATUS 3)) fCORE_STATUS_PC (s.thr 3).pc.toNat ∧
      s.keepsElse t [.ringDebug] (fun _ => false) ∧ t.regs = s.regs)) ∧
    (∀ (r : BitVec 68), s.tap.ir = 0x20#8 → s.tapLive → (r.toNat % 4 = 1 ∨ r.toNat % 4 = 2) → s.clk.phase ≠ .oscDelay →
      s.clk.phase ≠ .lockWait → s.runs = false → s.ringDebug.busy = false → s.ringDebug.remote = none →
      Leads (.jtagRingUpdate r) s (fun t => t.ringDebug.busy = false ∧ t.ringDebug.status = .timeout ∧
      s.keepsElse t [.ringDebug, .free] (fun _ => false) ∧ t.regs = s.regs)) ∧
    (∀ (r : BitVec 68), s.tap.ir = 0x20#8 → s.tapLive → (r.toNat % 4 = 1 ∨ r.toNat % 4 = 2) → s.clk.phase ≠ .oscDelay →
      s.clk.phase ≠ .lockWait → s.ringDebug.busy →
      exec (.jtagRingUpdate r) s = .next ({ s with tap := { s.tap with overrun := true } })) ∧
    (∀ (r : BitVec 68), (s.tap.ir ≠ 0x20#8 ∨ s.tapLive = false ∨ r.toNat % 4 = 0 ∨ r.toNat % 4 = 3 ∨ s.clk.phase = .oscDelay ∨
      s.clk.phase = .lockWait) → exec (.jtagRingUpdate r) s = .next (s)) ∧
    (s.tap.ir = 0x20#8 → Leads (.ringCaptureDr) s (fun t => t.tap.ringCap.getLsbD 0 = s.ringDebug.busy ∧
      t.tap.ringCap.getLsbD 1 = s.tap.overrun ∧ t.tap.ringCap.extractLsb' 2 2 = BitVec.ofNat 2 (rstatCode s.ringDebug.status) ∧
      t.tap.ringCap.extractLsb' 4 32 = s.ringDebug.data ∧ t.tap.ringCap.extractLsb' 36 32 = 0#32 ∧ t.tap.overrun = false ∧
      s.keepsElse t [.tap] (fun _ => false) ∧ t.regs = s.regs)) ∧
    (s.tap.ir ≠ 0x20#8 → exec (.ringCaptureDr) s = .next (s)) ∧
    (∀ (r : BitVec 40), s.tap.ir = 0x21#8 → s.tapLive → (r.getLsbD 0 = false ∨ (2 ≤ r.toNat / 2 % 128 ∧
      r.toNat / 2 % 128 < 0x40) ∨ 0x58 ≤ r.toNat / 2 % 128) →
      exec (.jtagRimUpdate r) s = .next ({ s with tap := { s.tap with rimIndex := BitVec.ofNat 7 (r.toNat / 2 % 128) } })) ∧
    (∀ (r : BitVec 40), s.tap.ir = 0x21#8 → s.tapLive → r.getLsbD 0 → r.toNat / 2 % 128 = 0 →
      Leads (.jtagRimUpdate r) s (fun t => t.tap = { s.tap with rimIndex := BitVec.ofNat 7 (r.toNat / 2 % 128) } ∧
      t.clk = (if getB (BitVec.ofNat 32 (r.toNat / 256)) fRIM_CLK_ACK ∧ s.clk.phase = .stopped ∧
      s.bit aRIM_CLK fRIM_CLK_SRC_VALID then { s.clk with phase := .relock } else s.clk) ∧ s.keepsElse t [.tap,
      .clk] (among [aRIM_CLK]))) ∧
    (∀ (r : BitVec 40), s.tap.ir = 0x21#8 → s.tapLive → r.getLsbD 0 → r.toNat / 2 % 128 = 1 →
      Leads (.jtagRimUpdate r) s (fun t => t.tap = { s.tap with rimIndex := BitVec.ofNat 7 (r.toNat / 2 % 128) } ∧
      t.reg aDBG_LOST = (s.reg aDBG_LOST &&& ~~~(BitVec.ofNat 32 (r.toNat / 256))) ||| (s.hwBits aDBG_LOST &&& BitVec.ofNat 32 (r.toNat / 256) &&& 0xFFFFFF#32) ∧
      s.keepsElse t [.tap] (among [aDBG_LOST]))) ∧
    (∀ (r : BitVec 40), s.tap.ir = 0x21#8 → s.tapLive → r.getLsbD 0 → r.toNat / 2 % 128 = 0x41 →
      Leads (.jtagRimUpdate r) s (fun t => t.tap = { s.tap with rimIndex := BitVec.ofNat 7 (r.toNat / 2 % 128) } ∧
      t.pwr = (if getB (BitVec.ofNat 32 (r.toNat / 256)) fRTC_CTRL_LOAD then { s.pwr with loadPending := true } else s.pwr) ∧
      t.bit aRTC_CTRL fRTC_CTRL_ALM_EN = getB (BitVec.ofNat 32 (r.toNat / 256)) fRTC_CTRL_ALM_EN ∧
      t.bit aRTC_CTRL fRTC_CTRL_WAKE_EN = getB (BitVec.ofNat 32 (r.toNat / 256)) fRTC_CTRL_WAKE_EN ∧ s.keepsElse t [.tap,
      .pwr] (among [aRTC_CTRL]))) ∧
    (∀ (r : BitVec 40), s.tap.ir = 0x21#8 → s.tapLive → r.getLsbD 0 → r.toNat / 2 % 128 = 0x46 →
      Leads (.jtagRimUpdate r) s (fun t => t.tap = { s.tap with rimIndex := BitVec.ofNat 7 (r.toNat / 2 % 128) } ∧
      t.reg64 aRTC_SNAP_LO aRTC_SNAP_HI = s.pwr.rtc.toNat ∧
      t.reg64 aRTC_SNAP_TLO aRTC_SNAP_THI = (if s.hubRuns then s.tickN else 0) ∧ s.keepsElse t [.tap] (among [aRTC_SNAP_LO,
      aRTC_SNAP_HI, aRTC_SNAP_TLO, aRTC_SNAP_THI]))) ∧
    (∀ (r : BitVec 40) (a : Nat), s.tap.ir = 0x21#8 → s.tapLive → r.getLsbD 0 → 0x40 ≤ r.toNat / 2 % 128 →
      r.toNat / 2 % 128 < 0x58 → a = ra 6 2 (0x100 + 4 * (r.toNat / 2 % 128 - 0x40)) → a ≠ aRTC_CTRL → a ≠ aRTC_SNAP →
      Leads (.jtagRimUpdate r) s (fun t => t.tap = { s.tap with rimIndex := BitVec.ofNat 7 (r.toNat / 2 % 128) } ∧
      t.reg a = (s.plainWrite a (BitVec.ofNat 32 (r.toNat / 256))).reg a ∧ s.keepsElse t [.tap] (among [a]))) ∧
    (∀ (r : BitVec 40), (s.tap.ir ≠ 0x21#8 ∨ s.tapLive = false) → exec (.jtagRimUpdate r) s = .next (s))

/-- DIE_BIST starts in a die that is in the chain under that instruction only in state unconfigured; otherwise it is refused.
Its end records pass or the saturated count of failing words and leaves frames of zeros. D2D_TEST without START selects the
module to read; with START it is refused while busy, with clocks stopped, for edges above 10, pattern 0, a module the edge has
not, or a die in reset. Each step adds the wires that were wrong; the end latches the result and the modules train. A step or
an end that is not due does nothing. Model choices it rests on: log entry 114. (18_test_and_loopbacks.md R410 to R413) -/
def Obligations.DieTests : Prop :=
  ∀ s : State, s.Inv →
    (∀ (d : Fin 8), d.val ≠ 6 → s.tapIr d.val = 0x13#8 → s.inChain d.val → (s.dieBist d.val).since = none → s.dieState d.val = 0 →
      Leads (.dieBistStart d true) s (fun t => t.dieBist d.val = { since := some s.now, pass := false, refused := false, fails := 0 } ∧
      (∀ k, k ≠ d.val → t.dieBist k = s.dieBist k) ∧ s.keepsElse t [.tap] (fun _ => false) ∧ t.regs = s.regs)) ∧
    (∀ (d : Fin 8), d.val ≠ 6 → s.tapIr d.val = 0x13#8 → s.inChain d.val → (s.dieBist d.val).since = none → s.dieState d.val ≠ 0 →
      Leads (.dieBistStart d true) s (fun t => t.dieBist d.val = { (s.dieBist d.val) with refused := true } ∧ (∀ k, k ≠ d.val →
      t.dieBist k = s.dieBist k) ∧ s.keepsElse t [.tap] (fun _ => false) ∧ t.regs = s.regs)) ∧
    (∀ (d : Fin 8) (b : Bool), (d.val = 6 ∨ b = false ∨ s.tapIr d.val ≠ 0x13#8 ∨ s.inChain d.val = false ∨
      (s.dieBist d.val).since ≠ none) → exec (.dieBistStart d b) s = .next (s)) ∧
    (∀ (d : Fin 8) (f : Nat), (s.dieBist d.val).since ≠ none → s.runs →
      Leads (.dieBistEnd d f) s (fun t => t.dieBist d.val = { since := none, pass := f == 0, refused := false, fails := min 65535 f } ∧
      (∀ k, k ≠ d.val → t.dieBist k = s.dieBist k) ∧ t.cfg.frames.all (fun e => e.1 / 2097152 != d.val) ∧
      t.cfg = { s.cfg with frames := t.cfg.frames, checks := t.cfg.checks, map := t.cfg.map } ∧ (d.val ≠ 7 → t.ana = s.ana ∧
      t.free = s.free) ∧ (d.val = 7 → ∀ n, n < 48 → (t.ab n).fifo.length = (s.ab n).fifo.length) ∧ s.keepsElse t [.tap, .cfg,
      .ana, .free] (fun _ => false))) ∧
    (∀ (d : Fin 8) (f : Nat), ((s.dieBist d.val).since = none ∨ s.runs = false) → exec (.dieBistEnd d f) s = .next (s)) ∧
    (∀ (v : BitVec 16), s.tap.ir = 0x11#8 → s.tapLive → v.getLsbD 7 = false →
      exec (.d2dTestUpdate v) s = .next ({ s with tap := { s.tap with d2d := { s.tap.d2d with modSel := v.toNat / 256 % 16 } } })) ∧
    (∀ (v : BitVec 16), s.tap.ir = 0x11#8 → s.tapLive → v.getLsbD 7 → (s.tap.d2d.since ≠ none ∨ s.runs = false ∨
      10 < v.toNat % 16 ∨ v.toNat / 32 % 4 = 0 ∨ (d2dDies (v.toNat % 16)).any s.inReset ∨
      d2dCount (v.toNat % 16) ≤ v.toNat / 256 % 16) →
      exec (.d2dTestUpdate v) s = .next ({ s with tap := { s.tap with d2d := { s.tap.d2d with refused := true } } })) ∧
    (∀ (v : BitVec 16), s.tap.ir = 0x11#8 → s.tapLive → v.getLsbD 7 → s.tap.d2d.since = none → s.runs → v.toNat % 16 ≤ 10 →
      v.toNat / 32 % 4 ≠ 0 → (d2dDies (v.toNat % 16)).all (fun d => !s.inReset d) →
      v.toNat / 256 % 16 < d2dCount (v.toNat % 16) →
      Leads (.d2dTestUpdate v) s (fun t => t.tap.d2d = { edge := v.toNat % 16, dir := v.getLsbD 4, mode := v.toNat / 32 % 4, modSel := v.toNat / 256 % 16, since := some s.now, step := 0, done := false, refused := false, failed := [] } ∧
      (∀ b ∈ d2dModules (v.toNat % 16), t.lmState b = 7) ∧ t.tap.ir = s.tap.ir ∧ t.cfg = s.cfg ∧ t.mem = s.mem)) ∧
    (∀ (v : BitVec 16), (s.tap.ir ≠ 0x11#8 ∨ s.tapLive = false) → exec (.d2dTestUpdate v) s = .next (s)) ∧
    ((∀ e, e < 11 → d2dCount e = if e < 4 then 12 else if e < 10 then 16 else 1) ∧ d2dCount 11 = 0) ∧
    (∀ (k : Nat) (w : List (Fin 2752)), s.tap.d2d.since = some k → s.runs →
      s.tap.d2d.step < d2dSteps s.tap.d2d.edge s.tap.d2d.mode → k + 1024 + 64 * s.tap.d2d.step + 32 ≤ s.now →
      Leads (.d2dStep w) s (fun t => t.tap = { s.tap with d2d := { s.tap.d2d with step := s.tap.d2d.step + 1, failed := t.tap.d2d.failed } } ∧
      (∀ i : Fin 2752, i ∈ w → i.val < 172 * d2dCount s.tap.d2d.edge → i.val ∈ t.tap.d2d.failed) ∧ (∀ i ∈ s.tap.d2d.failed,
      i ∈ t.tap.d2d.failed) ∧ (∀ i ∈ t.tap.d2d.failed, (i ∈ s.tap.d2d.failed ∨ i ∈ w.map (fun j => j.val))) ∧
      s.keepsElse t [.tap] (fun _ => false) ∧ t.regs = s.regs)) ∧
    (∀ (w : List (Fin 2752)), (s.runs = false ∨
      s.tap.d2d.since.all (fun k => decide (d2dSteps s.tap.d2d.edge s.tap.d2d.mode ≤ s.tap.d2d.step) || decide (s.now < k + 1024 + 64 * s.tap.d2d.step + 32))) →
      exec (.d2dStep w) s = .next (s)) ∧
    (∀ (k : Nat), s.tap.d2d.since = some k → s.runs → k + 1024 + 64 * d2dSteps s.tap.d2d.edge s.tap.d2d.mode ≤ s.now →
      Leads (.d2dRunEnd) s (fun t => t.tap = { s.tap with d2d := { s.tap.d2d with since := none, done := true } } ∧
      (∀ b ∈ d2dModules s.tap.d2d.edge, t.fld (aLM_STATUS b) fLM_STATUS_MISMATCH = 0) ∧ (∀ b ∈ d2dModules s.tap.d2d.edge,
      t.lmState b ≠ 7))) ∧
    ((s.runs = false ∨ s.tap.d2d.since.all (fun k => decide (s.now < k + 1024 + 64 * d2dSteps s.tap.d2d.edge s.tap.d2d.mode))) →
      exec (.d2dRunEnd) s = .next (s))

/-- A write of IC_CFG whose NPLC lies outside 2 to 10,000 completes with REFUSED status and changes nothing, whatever its
other fields. With NPLC in 2 to 10,000, an input of at most 0x10 and a range code other than 3, the write is performed, NPLC
reads as written and only IC_CFG changes. One count of the code is 0.01 line period: the integration length of a conversion is
NPLC hundredths of the line period, rounded to 250 ticks. (R353) -/
def Obligations.NplcOutOfRangeIsRefused : Prop :=
  ∀ s : State, s.Inv →
    (∀ (m : Rm) (n : Fin 16) (v : W32), s.ringReady m (aIC_CFG n.val) → (getF v fIC_CFG_NPLC < 2 ∨ 10000 < getF v fIC_CFG_NPLC) →
      Writes (.registerWrite m 7 (BitVec.ofNat 16 (0x800 + n.val)) 0#16 v) m (aIC_CFG n.val) v .refused s (fun u => u = s)) ∧
    (∀ (m : Rm) (n : Fin 16) (v : W32), s.ringReady m (aIC_CFG n.val) → 2 ≤ getF v fIC_CFG_NPLC → getF v fIC_CFG_NPLC ≤ 10000 →
      getF v fIC_CFG_INP ≤ 0x10 → getF v fIC_CFG_RANGE ≠ 3 →
      Writes (.registerWrite m 7 (BitVec.ofNat 16 (0x800 + n.val)) 0#16 v) m (aIC_CFG n.val) v .ok s (fun u => u.fld (aIC_CFG n.val) fIC_CFG_NPLC = getF v fIC_CFG_NPLC ∧
      s.keepsElse u [] (among [(aIC_CFG n.val)]))) ∧
    (∀ (k l : Nat), 100 * icLength k l ≤ k * l + 12500 ∧ k * l ≤ 100 * icLength k l + 12500)

/-- On every NI, of the hub too: a read from an empty FIFO returns at once NV = 1 with every other bit zero and takes nothing
from any FIFO; a write to a full FIFO is discarded and sets NI_ERR.FIFO_OVF; a write while FULL reads 0 never sets it. (R101)
-/
def Obligations.FifoEndsAreSafe : Prop :=
  ∀ s : State, s.Inv →
    (∀ (i : NiId) (k : Fin 4), s.niLive i.die i.ni → (niFifo (s.ni i.die i.ni) k.val = [] ∨
      (s.niView i.die i.ni (0x20 + 4 * k.val)).any (fun v => getB v fFIFO_STAT_EMPTY)) →
      Leads (.fifoRead i k) s (fun t => (t.ni i.die i.ni).readOut.getLsbD 257 ∧
      (t.ni i.die i.ni).readOut.extractLsb' 0 257 = 0#257 ∧ (∀ j : Fin 4,
      niFifo (t.ni i.die i.ni) j.val = niFifo (s.ni i.die i.ni) j.val) ∧ s.keepsElse t [.nis] (fun _ => false))) ∧
    (∀ (i : NiId) (k : Fin 4) (f : BitVec 256) (l : Bool), s.niLive i.die i.ni → (64 ≤ (niFifo (s.ni i.die i.ni) k.val).length ∨
      (s.niView i.die i.ni (0x20 + 4 * k.val)).any (fun v => getB v fFIFO_STAT_FULL)) →
      Leads (.fifoWrite i k f l) s (fun t => (∀ j : Fin 4, niFifo (t.ni i.die i.ni) j.val = niFifo (s.ni i.die i.ni) j.val) ∧
      t.bit (aNI_ERR i.die i.ni) fNI_ERR_FIFO_OVF ∧ s.keepsElse t [.ev, .hw] (among [aNI_ERR i.die i.ni]))) ∧
    (∀ (i : NiId) (k : Fin 4) (f : BitVec 256) (l : Bool), s.niLive i.die i.ni →
      (s.niView i.die i.ni (0x20 + 4 * k.val)).all (fun v => !getB v fFIFO_STAT_FULL) →
      Leads (.fifoWrite i k f l) s (fun t => t.bit (aNI_ERR i.die i.ni) fNI_ERR_FIFO_OVF = s.bit (aNI_ERR i.die i.ni) fNI_ERR_FIFO_OVF ∧
      niFifo (t.ni i.die i.ni) k.val = niFifo (s.ni i.die i.ni) k.val ++ [{ payload := f, last := l }]))
end

