-- ==== Sys2Proof/Laws/State.lean ====
section
/-! SUPPORT. One lemma for each field of the state under each record update: what an update leaves alone. -/

namespace Sys2Proof.Machine

/-! ### `setReg` changes `regs` alone -/

@[simp] theorem State.setReg_clk (s : State) (a : Nat) (v : W32) : (s.setReg a v).clk = s.clk := rfl
@[simp] theorem State.setReg_ringCore (s : State) (a : Nat) (v : W32) : (s.setReg a v).ringCore = s.ringCore := rfl
@[simp] theorem State.setReg_ringDebug (s : State) (a : Nat) (v : W32) : (s.setReg a v).ringDebug = s.ringDebug := rfl
@[simp] theorem State.setReg_ringConfig (s : State) (a : Nat) (v : W32) : (s.setReg a v).ringConfig = s.ringConfig := rfl
@[simp] theorem State.setReg_hw (s : State) (a : Nat) (v : W32) : (s.setReg a v).hw = s.hw := rfl
@[simp] theorem State.setReg_dieReset (s : State) (a : Nat) (v : W32) : (s.setReg a v).dieReset = s.dieReset := rfl
@[simp] theorem State.setReg_share1 (s : State) (a : Nat) (v : W32) : (s.setReg a v).share1 = s.share1 := rfl
@[simp] theorem State.setReg_fuse (s : State) (a : Nat) (v : W32) : (s.setReg a v).fuse = s.fuse := rfl
@[simp] theorem State.setReg_pins (s : State) (a : Nat) (v : W32) : (s.setReg a v).pins = s.pins := rfl
@[simp] theorem State.setReg_pwr (s : State) (a : Nat) (v : W32) : (s.setReg a v).pwr = s.pwr := rfl
@[simp] theorem State.setReg_ev (s : State) (a : Nat) (v : W32) : (s.setReg a v).ev = s.ev := rfl
@[simp] theorem State.setReg_pat (s : State) (a : Nat) (v : W32) : (s.setReg a v).pat = s.pat := rfl
@[simp] theorem State.setReg_be (s : State) (a : Nat) (v : W32) : (s.setReg a v).be = s.be := rfl
@[simp] theorem State.setReg_nis (s : State) (a : Nat) (v : W32) : (s.setReg a v).nis = s.nis := rfl
@[simp] theorem State.setReg_lms (s : State) (a : Nat) (v : W32) : (s.setReg a v).lms = s.lms := rfl
@[simp] theorem State.setReg_mq (s : State) (a : Nat) (v : W32) : (s.setReg a v).mq = s.mq := rfl
@[simp] theorem State.setReg_rsps (s : State) (a : Nat) (v : W32) : (s.setReg a v).rsps = s.rsps := rfl
@[simp] theorem State.setReg_ports (s : State) (a : Nat) (v : W32) : (s.setReg a v).ports = s.ports := rfl
@[simp] theorem State.setReg_lanes (s : State) (a : Nat) (v : W32) : (s.setReg a v).lanes = s.lanes := rfl
@[simp] theorem State.setReg_gws (s : State) (a : Nat) (v : W32) : (s.setReg a v).gws = s.gws := rfl
@[simp] theorem State.setReg_remoteIn (s : State) (a : Nat) (v : W32) : (s.setReg a v).remoteIn = s.remoteIn := rfl
@[simp] theorem State.setReg_cfg (s : State) (a : Nat) (v : W32) : (s.setReg a v).cfg = s.cfg := rfl
@[simp] theorem State.setReg_cores (s : State) (a : Nat) (v : W32) : (s.setReg a v).cores = s.cores := rfl
@[simp] theorem State.setReg_banks (s : State) (a : Nat) (v : W32) : (s.setReg a v).banks = s.banks := rfl
@[simp] theorem State.setReg_qdrs (s : State) (a : Nat) (v : W32) : (s.setReg a v).qdrs = s.qdrs := rfl
@[simp] theorem State.setReg_qdrSvc (s : State) (a : Nat) (v : W32) : (s.setReg a v).qdrSvc = s.qdrSvc := rfl
@[simp] theorem State.setReg_dsets (s : State) (a : Nat) (v : W32) : (s.setReg a v).dsets = s.dsets := rfl
@[simp] theorem State.setReg_km (s : State) (a : Nat) (v : W32) : (s.setReg a v).km = s.km := rfl
@[simp] theorem State.setReg_ana (s : State) (a : Nat) (v : W32) : (s.setReg a v).ana = s.ana := rfl
@[simp] theorem State.setReg_tap (s : State) (a : Nat) (v : W32) : (s.setReg a v).tap = s.tap := rfl
@[simp] theorem State.setReg_mem (s : State) (a : Nat) (v : W32) : (s.setReg a v).mem = s.mem := rfl
@[simp] theorem State.setReg_free (s : State) (a : Nat) (v : W32) : (s.setReg a v).free = s.free := rfl
@[simp] theorem State.setReg_pending (s : State) (a : Nat) (v : W32) : (s.setReg a v).pending = s.pending := rfl

/-! ### `setByte` changes `mem` alone -/

@[simp] theorem State.setByte_regs (s : State) (a : Nat) (v : Byte) : (s.setByte a v).regs = s.regs := rfl
@[simp] theorem State.setByte_clk (s : State) (a : Nat) (v : Byte) : (s.setByte a v).clk = s.clk := rfl
@[simp] theorem State.setByte_ringCore (s : State) (a : Nat) (v : Byte) : (s.setByte a v).ringCore = s.ringCore := rfl
@[simp] theorem State.setByte_ringDebug (s : State) (a : Nat) (v : Byte) : (s.setByte a v).ringDebug = s.ringDebug := rfl
@[simp] theorem State.setByte_ringConfig (s : State) (a : Nat) (v : Byte) : (s.setByte a v).ringConfig = s.ringConfig := rfl
@[simp] theorem State.setByte_hw (s : State) (a : Nat) (v : Byte) : (s.setByte a v).hw = s.hw := rfl
@[simp] theorem State.setByte_dieReset (s : State) (a : Nat) (v : Byte) : (s.setByte a v).dieReset = s.dieReset := rfl
@[simp] theorem State.setByte_share1 (s : State) (a : Nat) (v : Byte) : (s.setByte a v).share1 = s.share1 := rfl
@[simp] theorem State.setByte_fuse (s : State) (a : Nat) (v : Byte) : (s.setByte a v).fuse = s.fuse := rfl
@[simp] theorem State.setByte_pins (s : State) (a : Nat) (v : Byte) : (s.setByte a v).pins = s.pins := rfl
@[simp] theorem State.setByte_pwr (s : State) (a : Nat) (v : Byte) : (s.setByte a v).pwr = s.pwr := rfl
@[simp] theorem State.setByte_ev (s : State) (a : Nat) (v : Byte) : (s.setByte a v).ev = s.ev := rfl
@[simp] theorem State.setByte_pat (s : State) (a : Nat) (v : Byte) : (s.setByte a v).pat = s.pat := rfl
@[simp] theorem State.setByte_be (s : State) (a : Nat) (v : Byte) : (s.setByte a v).be = s.be := rfl
@[simp] theorem State.setByte_nis (s : State) (a : Nat) (v : Byte) : (s.setByte a v).nis = s.nis := rfl
@[simp] theorem State.setByte_lms (s : State) (a : Nat) (v : Byte) : (s.setByte a v).lms = s.lms := rfl
@[simp] theorem State.setByte_mq (s : State) (a : Nat) (v : Byte) : (s.setByte a v).mq = s.mq := rfl
@[simp] theorem State.setByte_rsps (s : State) (a : Nat) (v : Byte) : (s.setByte a v).rsps = s.rsps := rfl
@[simp] theorem State.setByte_ports (s : State) (a : Nat) (v : Byte) : (s.setByte a v).ports = s.ports := rfl
@[simp] theorem State.setByte_lanes (s : State) (a : Nat) (v : Byte) : (s.setByte a v).lanes = s.lanes := rfl
@[simp] theorem State.setByte_gws (s : State) (a : Nat) (v : Byte) : (s.setByte a v).gws = s.gws := rfl
@[simp] theorem State.setByte_remoteIn (s : State) (a : Nat) (v : Byte) : (s.setByte a v).remoteIn = s.remoteIn := rfl
@[simp] theorem State.setByte_cfg (s : State) (a : Nat) (v : Byte) : (s.setByte a v).cfg = s.cfg := rfl
@[simp] theorem State.setByte_cores (s : State) (a : Nat) (v : Byte) : (s.setByte a v).cores = s.cores := rfl
@[simp] theorem State.setByte_banks (s : State) (a : Nat) (v : Byte) : (s.setByte a v).banks = s.banks := rfl
@[simp] theorem State.setByte_qdrs (s : State) (a : Nat) (v : Byte) : (s.setByte a v).qdrs = s.qdrs := rfl
@[simp] theorem State.setByte_qdrSvc (s : State) (a : Nat) (v : Byte) : (s.setByte a v).qdrSvc = s.qdrSvc := rfl
@[simp] theorem State.setByte_dsets (s : State) (a : Nat) (v : Byte) : (s.setByte a v).dsets = s.dsets := rfl
@[simp] theorem State.setByte_km (s : State) (a : Nat) (v : Byte) : (s.setByte a v).km = s.km := rfl
@[simp] theorem State.setByte_ana (s : State) (a : Nat) (v : Byte) : (s.setByte a v).ana = s.ana := rfl
@[simp] theorem State.setByte_tap (s : State) (a : Nat) (v : Byte) : (s.setByte a v).tap = s.tap := rfl
@[simp] theorem State.setByte_free (s : State) (a : Nat) (v : Byte) : (s.setByte a v).free = s.free := rfl
@[simp] theorem State.setByte_pending (s : State) (a : Nat) (v : Byte) : (s.setByte a v).pending = s.pending := rfl

/-! ### `hwMark` changes `hw` alone -/

@[simp] theorem State.hwMark_regs (s : State) (a : Nat) (bits : W32) : (s.hwMark a bits).regs = s.regs := rfl
@[simp] theorem State.hwMark_clk (s : State) (a : Nat) (bits : W32) : (s.hwMark a bits).clk = s.clk := rfl
@[simp] theorem State.hwMark_ringCore (s : State) (a : Nat) (bits : W32) : (s.hwMark a bits).ringCore = s.ringCore := rfl
@[simp] theorem State.hwMark_ringDebug (s : State) (a : Nat) (bits : W32) : (s.hwMark a bits).ringDebug = s.ringDebug := rfl
@[simp] theorem State.hwMark_ringConfig (s : State) (a : Nat) (bits : W32) : (s.hwMark a bits).ringConfig = s.ringConfig := rfl
@[simp] theorem State.hwMark_dieReset (s : State) (a : Nat) (bits : W32) : (s.hwMark a bits).dieReset = s.dieReset := rfl
@[simp] theorem State.hwMark_share1 (s : State) (a : Nat) (bits : W32) : (s.hwMark a bits).share1 = s.share1 := rfl
@[simp] theorem State.hwMark_fuse (s : State) (a : Nat) (bits : W32) : (s.hwMark a bits).fuse = s.fuse := rfl
@[simp] theorem State.hwMark_pins (s : State) (a : Nat) (bits : W32) : (s.hwMark a bits).pins = s.pins := rfl
@[simp] theorem State.hwMark_pwr (s : State) (a : Nat) (bits : W32) : (s.hwMark a bits).pwr = s.pwr := rfl
@[simp] theorem State.hwMark_ev (s : State) (a : Nat) (bits : W32) : (s.hwMark a bits).ev = s.ev := rfl
@[simp] theorem State.hwMark_pat (s : State) (a : Nat) (bits : W32) : (s.hwMark a bits).pat = s.pat := rfl
@[simp] theorem State.hwMark_be (s : State) (a : Nat) (bits : W32) : (s.hwMark a bits).be = s.be := rfl
@[simp] theorem State.hwMark_nis (s : State) (a : Nat) (bits : W32) : (s.hwMark a bits).nis = s.nis := rfl
@[simp] theorem State.hwMark_lms (s : State) (a : Nat) (bits : W32) : (s.hwMark a bits).lms = s.lms := rfl
@[simp] theorem State.hwMark_mq (s : State) (a : Nat) (bits : W32) : (s.hwMark a bits).mq = s.mq := rfl
@[simp] theorem State.hwMark_rsps (s : State) (a : Nat) (bits : W32) : (s.hwMark a bits).rsps = s.rsps := rfl
@[simp] theorem State.hwMark_ports (s : State) (a : Nat) (bits : W32) : (s.hwMark a bits).ports = s.ports := rfl
@[simp] theorem State.hwMark_lanes (s : State) (a : Nat) (bits : W32) : (s.hwMark a bits).lanes = s.lanes := rfl
@[simp] theorem State.hwMark_gws (s : State) (a : Nat) (bits : W32) : (s.hwMark a bits).gws = s.gws := rfl
@[simp] theorem State.hwMark_remoteIn (s : State) (a : Nat) (bits : W32) : (s.hwMark a bits).remoteIn = s.remoteIn := rfl
@[simp] theorem State.hwMark_cfg (s : State) (a : Nat) (bits : W32) : (s.hwMark a bits).cfg = s.cfg := rfl
@[simp] theorem State.hwMark_cores (s : State) (a : Nat) (bits : W32) : (s.hwMark a bits).cores = s.cores := rfl
@[simp] theorem State.hwMark_banks (s : State) (a : Nat) (bits : W32) : (s.hwMark a bits).banks = s.banks := rfl
@[simp] theorem State.hwMark_qdrs (s : State) (a : Nat) (bits : W32) : (s.hwMark a bits).qdrs = s.qdrs := rfl
@[simp] theorem State.hwMark_qdrSvc (s : State) (a : Nat) (bits : W32) : (s.hwMark a bits).qdrSvc = s.qdrSvc := rfl
@[simp] theorem State.hwMark_dsets (s : State) (a : Nat) (bits : W32) : (s.hwMark a bits).dsets = s.dsets := rfl
@[simp] theorem State.hwMark_km (s : State) (a : Nat) (bits : W32) : (s.hwMark a bits).km = s.km := rfl
@[simp] theorem State.hwMark_ana (s : State) (a : Nat) (bits : W32) : (s.hwMark a bits).ana = s.ana := rfl
@[simp] theorem State.hwMark_tap (s : State) (a : Nat) (bits : W32) : (s.hwMark a bits).tap = s.tap := rfl
@[simp] theorem State.hwMark_mem (s : State) (a : Nat) (bits : W32) : (s.hwMark a bits).mem = s.mem := rfl
@[simp] theorem State.hwMark_free (s : State) (a : Nat) (bits : W32) : (s.hwMark a bits).free = s.free := rfl
@[simp] theorem State.hwMark_pending (s : State) (a : Nat) (bits : W32) : (s.hwMark a bits).pending = s.pending := rfl

/-! ### `setOutPin` changes `ev` alone -/

@[simp] theorem State.setOutPin_regs (s : State) (i : Nat) (p : OutPin) : (s.setOutPin i p).regs = s.regs := rfl
@[simp] theorem State.setOutPin_clk (s : State) (i : Nat) (p : OutPin) : (s.setOutPin i p).clk = s.clk := rfl
@[simp] theorem State.setOutPin_ringCore (s : State) (i : Nat) (p : OutPin) : (s.setOutPin i p).ringCore = s.ringCore := rfl
@[simp] theorem State.setOutPin_ringDebug (s : State) (i : Nat) (p : OutPin) : (s.setOutPin i p).ringDebug = s.ringDebug := rfl
@[simp] theorem State.setOutPin_ringConfig (s : State) (i : Nat) (p : OutPin) : (s.setOutPin i p).ringConfig = s.ringConfig := rfl
@[simp] theorem State.setOutPin_hw (s : State) (i : Nat) (p : OutPin) : (s.setOutPin i p).hw = s.hw := rfl
@[simp] theorem State.setOutPin_dieReset (s : State) (i : Nat) (p : OutPin) : (s.setOutPin i p).dieReset = s.dieReset := rfl
@[simp] theorem State.setOutPin_share1 (s : State) (i : Nat) (p : OutPin) : (s.setOutPin i p).share1 = s.share1 := rfl
@[simp] theorem State.setOutPin_fuse (s : State) (i : Nat) (p : OutPin) : (s.setOutPin i p).fuse = s.fuse := rfl
@[simp] theorem State.setOutPin_pins (s : State) (i : Nat) (p : OutPin) : (s.setOutPin i p).pins = s.pins := rfl
@[simp] theorem State.setOutPin_pwr (s : State) (i : Nat) (p : OutPin) : (s.setOutPin i p).pwr = s.pwr := rfl
@[simp] theorem State.setOutPin_pat (s : State) (i : Nat) (p : OutPin) : (s.setOutPin i p).pat = s.pat := rfl
@[simp] theorem State.setOutPin_be (s : State) (i : Nat) (p : OutPin) : (s.setOutPin i p).be = s.be := rfl
@[simp] theorem State.setOutPin_nis (s : State) (i : Nat) (p : OutPin) : (s.setOutPin i p).nis = s.nis := rfl
@[simp] theorem State.setOutPin_lms (s : State) (i : Nat) (p : OutPin) : (s.setOutPin i p).lms = s.lms := rfl
@[simp] theorem State.setOutPin_mq (s : State) (i : Nat) (p : OutPin) : (s.setOutPin i p).mq = s.mq := rfl
@[simp] theorem State.setOutPin_rsps (s : State) (i : Nat) (p : OutPin) : (s.setOutPin i p).rsps = s.rsps := rfl
@[simp] theorem State.setOutPin_ports (s : State) (i : Nat) (p : OutPin) : (s.setOutPin i p).ports = s.ports := rfl
@[simp] theorem State.setOutPin_lanes (s : State) (i : Nat) (p : OutPin) : (s.setOutPin i p).lanes = s.lanes := rfl
@[simp] theorem State.setOutPin_gws (s : State) (i : Nat) (p : OutPin) : (s.setOutPin i p).gws = s.gws := rfl
@[simp] theorem State.setOutPin_remoteIn (s : State) (i : Nat) (p : OutPin) : (s.setOutPin i p).remoteIn = s.remoteIn := rfl
@[simp] theorem State.setOutPin_cfg (s : State) (i : Nat) (p : OutPin) : (s.setOutPin i p).cfg = s.cfg := rfl
@[simp] theorem State.setOutPin_cores (s : State) (i : Nat) (p : OutPin) : (s.setOutPin i p).cores = s.cores := rfl
@[simp] theorem State.setOutPin_banks (s : State) (i : Nat) (p : OutPin) : (s.setOutPin i p).banks = s.banks := rfl
@[simp] theorem State.setOutPin_qdrs (s : State) (i : Nat) (p : OutPin) : (s.setOutPin i p).qdrs = s.qdrs := rfl
@[simp] theorem State.setOutPin_qdrSvc (s : State) (i : Nat) (p : OutPin) : (s.setOutPin i p).qdrSvc = s.qdrSvc := rfl
@[simp] theorem State.setOutPin_dsets (s : State) (i : Nat) (p : OutPin) : (s.setOutPin i p).dsets = s.dsets := rfl
@[simp] theorem State.setOutPin_km (s : State) (i : Nat) (p : OutPin) : (s.setOutPin i p).km = s.km := rfl
@[simp] theorem State.setOutPin_ana (s : State) (i : Nat) (p : OutPin) : (s.setOutPin i p).ana = s.ana := rfl
@[simp] theorem State.setOutPin_tap (s : State) (i : Nat) (p : OutPin) : (s.setOutPin i p).tap = s.tap := rfl
@[simp] theorem State.setOutPin_mem (s : State) (i : Nat) (p : OutPin) : (s.setOutPin i p).mem = s.mem := rfl
@[simp] theorem State.setOutPin_free (s : State) (i : Nat) (p : OutPin) : (s.setOutPin i p).free = s.free := rfl
@[simp] theorem State.setOutPin_pending (s : State) (i : Nat) (p : OutPin) : (s.setOutPin i p).pending = s.pending := rfl

/-! ### `setNi` changes `nis` alone -/

@[simp] theorem State.setNi_regs (s : State) (d n : Nat) (x : Ni) : (s.setNi d n x).regs = s.regs := rfl
@[simp] theorem State.setNi_clk (s : State) (d n : Nat) (x : Ni) : (s.setNi d n x).clk = s.clk := rfl
@[simp] theorem State.setNi_ringCore (s : State) (d n : Nat) (x : Ni) : (s.setNi d n x).ringCore = s.ringCore := rfl
@[simp] theorem State.setNi_ringDebug (s : State) (d n : Nat) (x : Ni) : (s.setNi d n x).ringDebug = s.ringDebug := rfl
@[simp] theorem State.setNi_ringConfig (s : State) (d n : Nat) (x : Ni) : (s.setNi d n x).ringConfig = s.ringConfig := rfl
@[simp] theorem State.setNi_hw (s : State) (d n : Nat) (x : Ni) : (s.setNi d n x).hw = s.hw := rfl
@[simp] theorem State.setNi_dieReset (s : State) (d n : Nat) (x : Ni) : (s.setNi d n x).dieReset = s.dieReset := rfl
@[simp] theorem State.setNi_share1 (s : State) (d n : Nat) (x : Ni) : (s.setNi d n x).share1 = s.share1 := rfl
@[simp] theorem State.setNi_fuse (s : State) (d n : Nat) (x : Ni) : (s.setNi d n x).fuse = s.fuse := rfl
@[simp] theorem State.setNi_pins (s : State) (d n : Nat) (x : Ni) : (s.setNi d n x).pins = s.pins := rfl
@[simp] theorem State.setNi_pwr (s : State) (d n : Nat) (x : Ni) : (s.setNi d n x).pwr = s.pwr := rfl
@[simp] theorem State.setNi_ev (s : State) (d n : Nat) (x : Ni) : (s.setNi d n x).ev = s.ev := rfl
@[simp] theorem State.setNi_pat (s : State) (d n : Nat) (x : Ni) : (s.setNi d n x).pat = s.pat := rfl
@[simp] theorem State.setNi_be (s : State) (d n : Nat) (x : Ni) : (s.setNi d n x).be = s.be := rfl
@[simp] theorem State.setNi_lms (s : State) (d n : Nat) (x : Ni) : (s.setNi d n x).lms = s.lms := rfl
@[simp] theorem State.setNi_mq (s : State) (d n : Nat) (x : Ni) : (s.setNi d n x).mq = s.mq := rfl
@[simp] theorem State.setNi_rsps (s : State) (d n : Nat) (x : Ni) : (s.setNi d n x).rsps = s.rsps := rfl
@[simp] theorem State.setNi_ports (s : State) (d n : Nat) (x : Ni) : (s.setNi d n x).ports = s.ports := rfl
@[simp] theorem State.setNi_lanes (s : State) (d n : Nat) (x : Ni) : (s.setNi d n x).lanes = s.lanes := rfl
@[simp] theorem State.setNi_gws (s : State) (d n : Nat) (x : Ni) : (s.setNi d n x).gws = s.gws := rfl
@[simp] theorem State.setNi_remoteIn (s : State) (d n : Nat) (x : Ni) : (s.setNi d n x).remoteIn = s.remoteIn := rfl
@[simp] theorem State.setNi_cfg (s : State) (d n : Nat) (x : Ni) : (s.setNi d n x).cfg = s.cfg := rfl
@[simp] theorem State.setNi_cores (s : State) (d n : Nat) (x : Ni) : (s.setNi d n x).cores = s.cores := rfl
@[simp] theorem State.setNi_banks (s : State) (d n : Nat) (x : Ni) : (s.setNi d n x).banks = s.banks := rfl
@[simp] theorem State.setNi_qdrs (s : State) (d n : Nat) (x : Ni) : (s.setNi d n x).qdrs = s.qdrs := rfl
@[simp] theorem State.setNi_qdrSvc (s : State) (d n : Nat) (x : Ni) : (s.setNi d n x).qdrSvc = s.qdrSvc := rfl
@[simp] theorem State.setNi_dsets (s : State) (d n : Nat) (x : Ni) : (s.setNi d n x).dsets = s.dsets := rfl
@[simp] theorem State.setNi_km (s : State) (d n : Nat) (x : Ni) : (s.setNi d n x).km = s.km := rfl
@[simp] theorem State.setNi_ana (s : State) (d n : Nat) (x : Ni) : (s.setNi d n x).ana = s.ana := rfl
@[simp] theorem State.setNi_tap (s : State) (d n : Nat) (x : Ni) : (s.setNi d n x).tap = s.tap := rfl
@[simp] theorem State.setNi_mem (s : State) (d n : Nat) (x : Ni) : (s.setNi d n x).mem = s.mem := rfl
@[simp] theorem State.setNi_free (s : State) (d n : Nat) (x : Ni) : (s.setNi d n x).free = s.free := rfl
@[simp] theorem State.setNi_pending (s : State) (d n : Nat) (x : Ni) : (s.setNi d n x).pending = s.pending := rfl

/-! ### `setLm` changes `lms` alone -/

@[simp] theorem State.setLm_regs (s : State) (b : Nat) (x : Lm) : (s.setLm b x).regs = s.regs := rfl
@[simp] theorem State.setLm_clk (s : State) (b : Nat) (x : Lm) : (s.setLm b x).clk = s.clk := rfl
@[simp] theorem State.setLm_ringCore (s : State) (b : Nat) (x : Lm) : (s.setLm b x).ringCore = s.ringCore := rfl
@[simp] theorem State.setLm_ringDebug (s : State) (b : Nat) (x : Lm) : (s.setLm b x).ringDebug = s.ringDebug := rfl
@[simp] theorem State.setLm_ringConfig (s : State) (b : Nat) (x : Lm) : (s.setLm b x).ringConfig = s.ringConfig := rfl
@[simp] theorem State.setLm_hw (s : State) (b : Nat) (x : Lm) : (s.setLm b x).hw = s.hw := rfl
@[simp] theorem State.setLm_dieReset (s : State) (b : Nat) (x : Lm) : (s.setLm b x).dieReset = s.dieReset := rfl
@[simp] theorem State.setLm_share1 (s : State) (b : Nat) (x : Lm) : (s.setLm b x).share1 = s.share1 := rfl
@[simp] theorem State.setLm_fuse (s : State) (b : Nat) (x : Lm) : (s.setLm b x).fuse = s.fuse := rfl
@[simp] theorem State.setLm_pins (s : State) (b : Nat) (x : Lm) : (s.setLm b x).pins = s.pins := rfl
@[simp] theorem State.setLm_pwr (s : State) (b : Nat) (x : Lm) : (s.setLm b x).pwr = s.pwr := rfl
@[simp] theorem State.setLm_ev (s : State) (b : Nat) (x : Lm) : (s.setLm b x).ev = s.ev := rfl
@[simp] theorem State.setLm_pat (s : State) (b : Nat) (x : Lm) : (s.setLm b x).pat = s.pat := rfl
@[simp] theorem State.setLm_be (s : State) (b : Nat) (x : Lm) : (s.setLm b x).be = s.be := rfl
@[simp] theorem State.setLm_nis (s : State) (b : Nat) (x : Lm) : (s.setLm b x).nis = s.nis := rfl
@[simp] theorem State.setLm_mq (s : State) (b : Nat) (x : Lm) : (s.setLm b x).mq = s.mq := rfl
@[simp] theorem State.setLm_rsps (s : State) (b : Nat) (x : Lm) : (s.setLm b x).rsps = s.rsps := rfl
@[simp] theorem State.setLm_ports (s : State) (b : Nat) (x : Lm) : (s.setLm b x).ports = s.ports := rfl
@[simp] theorem State.setLm_lanes (s : State) (b : Nat) (x : Lm) : (s.setLm b x).lanes = s.lanes := rfl
@[simp] theorem State.setLm_gws (s : State) (b : Nat) (x : Lm) : (s.setLm b x).gws = s.gws := rfl
@[simp] theorem State.setLm_remoteIn (s : State) (b : Nat) (x : Lm) : (s.setLm b x).remoteIn = s.remoteIn := rfl
@[simp] theorem State.setLm_cfg (s : State) (b : Nat) (x : Lm) : (s.setLm b x).cfg = s.cfg := rfl
@[simp] theorem State.setLm_cores (s : State) (b : Nat) (x : Lm) : (s.setLm b x).cores = s.cores := rfl
@[simp] theorem State.setLm_banks (s : State) (b : Nat) (x : Lm) : (s.setLm b x).banks = s.banks := rfl
@[simp] theorem State.setLm_qdrs (s : State) (b : Nat) (x : Lm) : (s.setLm b x).qdrs = s.qdrs := rfl
@[simp] theorem State.setLm_qdrSvc (s : State) (b : Nat) (x : Lm) : (s.setLm b x).qdrSvc = s.qdrSvc := rfl
@[simp] theorem State.setLm_dsets (s : State) (b : Nat) (x : Lm) : (s.setLm b x).dsets = s.dsets := rfl
@[simp] theorem State.setLm_km (s : State) (b : Nat) (x : Lm) : (s.setLm b x).km = s.km := rfl
@[simp] theorem State.setLm_ana (s : State) (b : Nat) (x : Lm) : (s.setLm b x).ana = s.ana := rfl
@[simp] theorem State.setLm_tap (s : State) (b : Nat) (x : Lm) : (s.setLm b x).tap = s.tap := rfl
@[simp] theorem State.setLm_mem (s : State) (b : Nat) (x : Lm) : (s.setLm b x).mem = s.mem := rfl
@[simp] theorem State.setLm_free (s : State) (b : Nat) (x : Lm) : (s.setLm b x).free = s.free := rfl
@[simp] theorem State.setLm_pending (s : State) (b : Nat) (x : Lm) : (s.setLm b x).pending = s.pending := rfl

/-! ### `setPort` changes `ports` alone -/

@[simp] theorem State.setPort_regs (s : State) (p : Nat) (x : Port) : (s.setPort p x).regs = s.regs := rfl
@[simp] theorem State.setPort_clk (s : State) (p : Nat) (x : Port) : (s.setPort p x).clk = s.clk := rfl
@[simp] theorem State.setPort_ringCore (s : State) (p : Nat) (x : Port) : (s.setPort p x).ringCore = s.ringCore := rfl
@[simp] theorem State.setPort_ringDebug (s : State) (p : Nat) (x : Port) : (s.setPort p x).ringDebug = s.ringDebug := rfl
@[simp] theorem State.setPort_ringConfig (s : State) (p : Nat) (x : Port) : (s.setPort p x).ringConfig = s.ringConfig := rfl
@[simp] theorem State.setPort_hw (s : State) (p : Nat) (x : Port) : (s.setPort p x).hw = s.hw := rfl
@[simp] theorem State.setPort_dieReset (s : State) (p : Nat) (x : Port) : (s.setPort p x).dieReset = s.dieReset := rfl
@[simp] theorem State.setPort_share1 (s : State) (p : Nat) (x : Port) : (s.setPort p x).share1 = s.share1 := rfl
@[simp] theorem State.setPort_fuse (s : State) (p : Nat) (x : Port) : (s.setPort p x).fuse = s.fuse := rfl
@[simp] theorem State.setPort_pins (s : State) (p : Nat) (x : Port) : (s.setPort p x).pins = s.pins := rfl
@[simp] theorem State.setPort_pwr (s : State) (p : Nat) (x : Port) : (s.setPort p x).pwr = s.pwr := rfl
@[simp] theorem State.setPort_ev (s : State) (p : Nat) (x : Port) : (s.setPort p x).ev = s.ev := rfl
@[simp] theorem State.setPort_pat (s : State) (p : Nat) (x : Port) : (s.setPort p x).pat = s.pat := rfl
@[simp] theorem State.setPort_be (s : State) (p : Nat) (x : Port) : (s.setPort p x).be = s.be := rfl
@[simp] theorem State.setPort_nis (s : State) (p : Nat) (x : Port) : (s.setPort p x).nis = s.nis := rfl
@[simp] theorem State.setPort_lms (s : State) (p : Nat) (x : Port) : (s.setPort p x).lms = s.lms := rfl
@[simp] theorem State.setPort_mq (s : State) (p : Nat) (x : Port) : (s.setPort p x).mq = s.mq := rfl
@[simp] theorem State.setPort_rsps (s : State) (p : Nat) (x : Port) : (s.setPort p x).rsps = s.rsps := rfl
@[simp] theorem State.setPort_lanes (s : State) (p : Nat) (x : Port) : (s.setPort p x).lanes = s.lanes := rfl
@[simp] theorem State.setPort_gws (s : State) (p : Nat) (x : Port) : (s.setPort p x).gws = s.gws := rfl
@[simp] theorem State.setPort_remoteIn (s : State) (p : Nat) (x : Port) : (s.setPort p x).remoteIn = s.remoteIn := rfl
@[simp] theorem State.setPort_cfg (s : State) (p : Nat) (x : Port) : (s.setPort p x).cfg = s.cfg := rfl
@[simp] theorem State.setPort_cores (s : State) (p : Nat) (x : Port) : (s.setPort p x).cores = s.cores := rfl
@[simp] theorem State.setPort_banks (s : State) (p : Nat) (x : Port) : (s.setPort p x).banks = s.banks := rfl
@[simp] theorem State.setPort_qdrs (s : State) (p : Nat) (x : Port) : (s.setPort p x).qdrs = s.qdrs := rfl
@[simp] theorem State.setPort_qdrSvc (s : State) (p : Nat) (x : Port) : (s.setPort p x).qdrSvc = s.qdrSvc := rfl
@[simp] theorem State.setPort_dsets (s : State) (p : Nat) (x : Port) : (s.setPort p x).dsets = s.dsets := rfl
@[simp] theorem State.setPort_km (s : State) (p : Nat) (x : Port) : (s.setPort p x).km = s.km := rfl
@[simp] theorem State.setPort_ana (s : State) (p : Nat) (x : Port) : (s.setPort p x).ana = s.ana := rfl
@[simp] theorem State.setPort_tap (s : State) (p : Nat) (x : Port) : (s.setPort p x).tap = s.tap := rfl
@[simp] theorem State.setPort_mem (s : State) (p : Nat) (x : Port) : (s.setPort p x).mem = s.mem := rfl
@[simp] theorem State.setPort_free (s : State) (p : Nat) (x : Port) : (s.setPort p x).free = s.free := rfl
@[simp] theorem State.setPort_pending (s : State) (p : Nat) (x : Port) : (s.setPort p x).pending = s.pending := rfl

/-! ### `setLane` changes `lanes` alone -/

@[simp] theorem State.setLane_regs (s : State) (b j : Nat) (x : Lane) : (s.setLane b j x).regs = s.regs := rfl
@[simp] theorem State.setLane_clk (s : State) (b j : Nat) (x : Lane) : (s.setLane b j x).clk = s.clk := rfl
@[simp] theorem State.setLane_ringCore (s : State) (b j : Nat) (x : Lane) : (s.setLane b j x).ringCore = s.ringCore := rfl
@[simp] theorem State.setLane_ringDebug (s : State) (b j : Nat) (x : Lane) : (s.setLane b j x).ringDebug = s.ringDebug := rfl
@[simp] theorem State.setLane_ringConfig (s : State) (b j : Nat) (x : Lane) : (s.setLane b j x).ringConfig = s.ringConfig := rfl
@[simp] theorem State.setLane_hw (s : State) (b j : Nat) (x : Lane) : (s.setLane b j x).hw = s.hw := rfl
@[simp] theorem State.setLane_dieReset (s : State) (b j : Nat) (x : Lane) : (s.setLane b j x).dieReset = s.dieReset := rfl
@[simp] theorem State.setLane_share1 (s : State) (b j : Nat) (x : Lane) : (s.setLane b j x).share1 = s.share1 := rfl
@[simp] theorem State.setLane_fuse (s : State) (b j : Nat) (x : Lane) : (s.setLane b j x).fuse = s.fuse := rfl
@[simp] theorem State.setLane_pins (s : State) (b j : Nat) (x : Lane) : (s.setLane b j x).pins = s.pins := rfl
@[simp] theorem State.setLane_pwr (s : State) (b j : Nat) (x : Lane) : (s.setLane b j x).pwr = s.pwr := rfl
@[simp] theorem State.setLane_ev (s : State) (b j : Nat) (x : Lane) : (s.setLane b j x).ev = s.ev := rfl
@[simp] theorem State.setLane_pat (s : State) (b j : Nat) (x : Lane) : (s.setLane b j x).pat = s.pat := rfl
@[simp] theorem State.setLane_be (s : State) (b j : Nat) (x : Lane) : (s.setLane b j x).be = s.be := rfl
@[simp] theorem State.setLane_nis (s : State) (b j : Nat) (x : Lane) : (s.setLane b j x).nis = s.nis := rfl
@[simp] theorem State.setLane_lms (s : State) (b j : Nat) (x : Lane) : (s.setLane b j x).lms = s.lms := rfl
@[simp] theorem State.setLane_mq (s : State) (b j : Nat) (x : Lane) : (s.setLane b j x).mq = s.mq := rfl
@[simp] theorem State.setLane_rsps (s : State) (b j : Nat) (x : Lane) : (s.setLane b j x).rsps = s.rsps := rfl
@[simp] theorem State.setLane_ports (s : State) (b j : Nat) (x : Lane) : (s.setLane b j x).ports = s.ports := rfl
@[simp] theorem State.setLane_gws (s : State) (b j : Nat) (x : Lane) : (s.setLane b j x).gws = s.gws := rfl
@[simp] theorem State.setLane_remoteIn (s : State) (b j : Nat) (x : Lane) : (s.setLane b j x).remoteIn = s.remoteIn := rfl
@[simp] theorem State.setLane_cfg (s : State) (b j : Nat) (x : Lane) : (s.setLane b j x).cfg = s.cfg := rfl
@[simp] theorem State.setLane_cores (s : State) (b j : Nat) (x : Lane) : (s.setLane b j x).cores = s.cores := rfl
@[simp] theorem State.setLane_banks (s : State) (b j : Nat) (x : Lane) : (s.setLane b j x).banks = s.banks := rfl
@[simp] theorem State.setLane_qdrs (s : State) (b j : Nat) (x : Lane) : (s.setLane b j x).qdrs = s.qdrs := rfl
@[simp] theorem State.setLane_qdrSvc (s : State) (b j : Nat) (x : Lane) : (s.setLane b j x).qdrSvc = s.qdrSvc := rfl
@[simp] theorem State.setLane_dsets (s : State) (b j : Nat) (x : Lane) : (s.setLane b j x).dsets = s.dsets := rfl
@[simp] theorem State.setLane_km (s : State) (b j : Nat) (x : Lane) : (s.setLane b j x).km = s.km := rfl
@[simp] theorem State.setLane_ana (s : State) (b j : Nat) (x : Lane) : (s.setLane b j x).ana = s.ana := rfl
@[simp] theorem State.setLane_tap (s : State) (b j : Nat) (x : Lane) : (s.setLane b j x).tap = s.tap := rfl
@[simp] theorem State.setLane_mem (s : State) (b j : Nat) (x : Lane) : (s.setLane b j x).mem = s.mem := rfl
@[simp] theorem State.setLane_free (s : State) (b j : Nat) (x : Lane) : (s.setLane b j x).free = s.free := rfl
@[simp] theorem State.setLane_pending (s : State) (b j : Nat) (x : Lane) : (s.setLane b j x).pending = s.pending := rfl

/-! ### `setGw` changes `gws` alone -/

@[simp] theorem State.setGw_regs (s : State) (g : Nat) (x : Gw) : (s.setGw g x).regs = s.regs := rfl
@[simp] theorem State.setGw_clk (s : State) (g : Nat) (x : Gw) : (s.setGw g x).clk = s.clk := rfl
@[simp] theorem State.setGw_ringCore (s : State) (g : Nat) (x : Gw) : (s.setGw g x).ringCore = s.ringCore := rfl
@[simp] theorem State.setGw_ringDebug (s : State) (g : Nat) (x : Gw) : (s.setGw g x).ringDebug = s.ringDebug := rfl
@[simp] theorem State.setGw_ringConfig (s : State) (g : Nat) (x : Gw) : (s.setGw g x).ringConfig = s.ringConfig := rfl
@[simp] theorem State.setGw_hw (s : State) (g : Nat) (x : Gw) : (s.setGw g x).hw = s.hw := rfl
@[simp] theorem State.setGw_dieReset (s : State) (g : Nat) (x : Gw) : (s.setGw g x).dieReset = s.dieReset := rfl
@[simp] theorem State.setGw_share1 (s : State) (g : Nat) (x : Gw) : (s.setGw g x).share1 = s.share1 := rfl
@[simp] theorem State.setGw_fuse (s : State) (g : Nat) (x : Gw) : (s.setGw g x).fuse = s.fuse := rfl
@[simp] theorem State.setGw_pins (s : State) (g : Nat) (x : Gw) : (s.setGw g x).pins = s.pins := rfl
@[simp] theorem State.setGw_pwr (s : State) (g : Nat) (x : Gw) : (s.setGw g x).pwr = s.pwr := rfl
@[simp] theorem State.setGw_ev (s : State) (g : Nat) (x : Gw) : (s.setGw g x).ev = s.ev := rfl
@[simp] theorem State.setGw_pat (s : State) (g : Nat) (x : Gw) : (s.setGw g x).pat = s.pat := rfl
@[simp] theorem State.setGw_be (s : State) (g : Nat) (x : Gw) : (s.setGw g x).be = s.be := rfl
@[simp] theorem State.setGw_nis (s : State) (g : Nat) (x : Gw) : (s.setGw g x).nis = s.nis := rfl
@[simp] theorem State.setGw_lms (s : State) (g : Nat) (x : Gw) : (s.setGw g x).lms = s.lms := rfl
@[simp] theorem State.setGw_mq (s : State) (g : Nat) (x : Gw) : (s.setGw g x).mq = s.mq := rfl
@[simp] theorem State.setGw_rsps (s : State) (g : Nat) (x : Gw) : (s.setGw g x).rsps = s.rsps := rfl
@[simp] theorem State.setGw_ports (s : State) (g : Nat) (x : Gw) : (s.setGw g x).ports = s.ports := rfl
@[simp] theorem State.setGw_lanes (s : State) (g : Nat) (x : Gw) : (s.setGw g x).lanes = s.lanes := rfl
@[simp] theorem State.setGw_remoteIn (s : State) (g : Nat) (x : Gw) : (s.setGw g x).remoteIn = s.remoteIn := rfl
@[simp] theorem State.setGw_cfg (s : State) (g : Nat) (x : Gw) : (s.setGw g x).cfg = s.cfg := rfl
@[simp] theorem State.setGw_cores (s : State) (g : Nat) (x : Gw) : (s.setGw g x).cores = s.cores := rfl
@[simp] theorem State.setGw_banks (s : State) (g : Nat) (x : Gw) : (s.setGw g x).banks = s.banks := rfl
@[simp] theorem State.setGw_qdrs (s : State) (g : Nat) (x : Gw) : (s.setGw g x).qdrs = s.qdrs := rfl
@[simp] theorem State.setGw_qdrSvc (s : State) (g : Nat) (x : Gw) : (s.setGw g x).qdrSvc = s.qdrSvc := rfl
@[simp] theorem State.setGw_dsets (s : State) (g : Nat) (x : Gw) : (s.setGw g x).dsets = s.dsets := rfl
@[simp] theorem State.setGw_km (s : State) (g : Nat) (x : Gw) : (s.setGw g x).km = s.km := rfl
@[simp] theorem State.setGw_ana (s : State) (g : Nat) (x : Gw) : (s.setGw g x).ana = s.ana := rfl
@[simp] theorem State.setGw_tap (s : State) (g : Nat) (x : Gw) : (s.setGw g x).tap = s.tap := rfl
@[simp] theorem State.setGw_mem (s : State) (g : Nat) (x : Gw) : (s.setGw g x).mem = s.mem := rfl
@[simp] theorem State.setGw_free (s : State) (g : Nat) (x : Gw) : (s.setGw g x).free = s.free := rfl
@[simp] theorem State.setGw_pending (s : State) (g : Nat) (x : Gw) : (s.setGw g x).pending = s.pending := rfl

/-! ### `setThr` changes `cores` alone -/

@[simp] theorem State.setThr_regs (s : State) (n : Nat) (x : Thrumas) : (s.setThr n x).regs = s.regs := rfl
@[simp] theorem State.setThr_clk (s : State) (n : Nat) (x : Thrumas) : (s.setThr n x).clk = s.clk := rfl
@[simp] theorem State.setThr_ringCore (s : State) (n : Nat) (x : Thrumas) : (s.setThr n x).ringCore = s.ringCore := rfl
@[simp] theorem State.setThr_ringDebug (s : State) (n : Nat) (x : Thrumas) : (s.setThr n x).ringDebug = s.ringDebug := rfl
@[simp] theorem State.setThr_ringConfig (s : State) (n : Nat) (x : Thrumas) : (s.setThr n x).ringConfig = s.ringConfig := rfl
@[simp] theorem State.setThr_hw (s : State) (n : Nat) (x : Thrumas) : (s.setThr n x).hw = s.hw := rfl
@[simp] theorem State.setThr_dieReset (s : State) (n : Nat) (x : Thrumas) : (s.setThr n x).dieReset = s.dieReset := rfl
@[simp] theorem State.setThr_share1 (s : State) (n : Nat) (x : Thrumas) : (s.setThr n x).share1 = s.share1 := rfl
@[simp] theorem State.setThr_fuse (s : State) (n : Nat) (x : Thrumas) : (s.setThr n x).fuse = s.fuse := rfl
@[simp] theorem State.setThr_pins (s : State) (n : Nat) (x : Thrumas) : (s.setThr n x).pins = s.pins := rfl
@[simp] theorem State.setThr_pwr (s : State) (n : Nat) (x : Thrumas) : (s.setThr n x).pwr = s.pwr := rfl
@[simp] theorem State.setThr_ev (s : State) (n : Nat) (x : Thrumas) : (s.setThr n x).ev = s.ev := rfl
@[simp] theorem State.setThr_pat (s : State) (n : Nat) (x : Thrumas) : (s.setThr n x).pat = s.pat := rfl
@[simp] theorem State.setThr_be (s : State) (n : Nat) (x : Thrumas) : (s.setThr n x).be = s.be := rfl
@[simp] theorem State.setThr_nis (s : State) (n : Nat) (x : Thrumas) : (s.setThr n x).nis = s.nis := rfl
@[simp] theorem State.setThr_lms (s : State) (n : Nat) (x : Thrumas) : (s.setThr n x).lms = s.lms := rfl
@[simp] theorem State.setThr_mq (s : State) (n : Nat) (x : Thrumas) : (s.setThr n x).mq = s.mq := rfl
@[simp] theorem State.setThr_rsps (s : State) (n : Nat) (x : Thrumas) : (s.setThr n x).rsps = s.rsps := rfl
@[simp] theorem State.setThr_ports (s : State) (n : Nat) (x : Thrumas) : (s.setThr n x).ports = s.ports := rfl
@[simp] theorem State.setThr_lanes (s : State) (n : Nat) (x : Thrumas) : (s.setThr n x).lanes = s.lanes := rfl
@[simp] theorem State.setThr_gws (s : State) (n : Nat) (x : Thrumas) : (s.setThr n x).gws = s.gws := rfl
@[simp] theorem State.setThr_remoteIn (s : State) (n : Nat) (x : Thrumas) : (s.setThr n x).remoteIn = s.remoteIn := rfl
@[simp] theorem State.setThr_cfg (s : State) (n : Nat) (x : Thrumas) : (s.setThr n x).cfg = s.cfg := rfl
@[simp] theorem State.setThr_banks (s : State) (n : Nat) (x : Thrumas) : (s.setThr n x).banks = s.banks := rfl
@[simp] theorem State.setThr_qdrs (s : State) (n : Nat) (x : Thrumas) : (s.setThr n x).qdrs = s.qdrs := rfl
@[simp] theorem State.setThr_qdrSvc (s : State) (n : Nat) (x : Thrumas) : (s.setThr n x).qdrSvc = s.qdrSvc := rfl
@[simp] theorem State.setThr_dsets (s : State) (n : Nat) (x : Thrumas) : (s.setThr n x).dsets = s.dsets := rfl
@[simp] theorem State.setThr_km (s : State) (n : Nat) (x : Thrumas) : (s.setThr n x).km = s.km := rfl
@[simp] theorem State.setThr_ana (s : State) (n : Nat) (x : Thrumas) : (s.setThr n x).ana = s.ana := rfl
@[simp] theorem State.setThr_tap (s : State) (n : Nat) (x : Thrumas) : (s.setThr n x).tap = s.tap := rfl
@[simp] theorem State.setThr_mem (s : State) (n : Nat) (x : Thrumas) : (s.setThr n x).mem = s.mem := rfl
@[simp] theorem State.setThr_free (s : State) (n : Nat) (x : Thrumas) : (s.setThr n x).free = s.free := rfl
@[simp] theorem State.setThr_pending (s : State) (n : Nat) (x : Thrumas) : (s.setThr n x).pending = s.pending := rfl

/-! ### `setQdr` changes `qdrs` alone -/

@[simp] theorem State.setQdr_regs (s : State) (q : Nat) (x : Qdr) : (s.setQdr q x).regs = s.regs := rfl
@[simp] theorem State.setQdr_clk (s : State) (q : Nat) (x : Qdr) : (s.setQdr q x).clk = s.clk := rfl
@[simp] theorem State.setQdr_ringCore (s : State) (q : Nat) (x : Qdr) : (s.setQdr q x).ringCore = s.ringCore := rfl
@[simp] theorem State.setQdr_ringDebug (s : State) (q : Nat) (x : Qdr) : (s.setQdr q x).ringDebug = s.ringDebug := rfl
@[simp] theorem State.setQdr_ringConfig (s : State) (q : Nat) (x : Qdr) : (s.setQdr q x).ringConfig = s.ringConfig := rfl
@[simp] theorem State.setQdr_hw (s : State) (q : Nat) (x : Qdr) : (s.setQdr q x).hw = s.hw := rfl
@[simp] theorem State.setQdr_dieReset (s : State) (q : Nat) (x : Qdr) : (s.setQdr q x).dieReset = s.dieReset := rfl
@[simp] theorem State.setQdr_share1 (s : State) (q : Nat) (x : Qdr) : (s.setQdr q x).share1 = s.share1 := rfl
@[simp] theorem State.setQdr_fuse (s : State) (q : Nat) (x : Qdr) : (s.setQdr q x).fuse = s.fuse := rfl
@[simp] theorem State.setQdr_pins (s : State) (q : Nat) (x : Qdr) : (s.setQdr q x).pins = s.pins := rfl
@[simp] theorem State.setQdr_pwr (s : State) (q : Nat) (x : Qdr) : (s.setQdr q x).pwr = s.pwr := rfl
@[simp] theorem State.setQdr_ev (s : State) (q : Nat) (x : Qdr) : (s.setQdr q x).ev = s.ev := rfl
@[simp] theorem State.setQdr_pat (s : State) (q : Nat) (x : Qdr) : (s.setQdr q x).pat = s.pat := rfl
@[simp] theorem State.setQdr_be (s : State) (q : Nat) (x : Qdr) : (s.setQdr q x).be = s.be := rfl
@[simp] theorem State.setQdr_nis (s : State) (q : Nat) (x : Qdr) : (s.setQdr q x).nis = s.nis := rfl
@[simp] theorem State.setQdr_lms (s : State) (q : Nat) (x : Qdr) : (s.setQdr q x).lms = s.lms := rfl
@[simp] theorem State.setQdr_mq (s : State) (q : Nat) (x : Qdr) : (s.setQdr q x).mq = s.mq := rfl
@[simp] theorem State.setQdr_rsps (s : State) (q : Nat) (x : Qdr) : (s.setQdr q x).rsps = s.rsps := rfl
@[simp] theorem State.setQdr_ports (s : State) (q : Nat) (x : Qdr) : (s.setQdr q x).ports = s.ports := rfl
@[simp] theorem State.setQdr_lanes (s : State) (q : Nat) (x : Qdr) : (s.setQdr q x).lanes = s.lanes := rfl
@[simp] theorem State.setQdr_gws (s : State) (q : Nat) (x : Qdr) : (s.setQdr q x).gws = s.gws := rfl
@[simp] theorem State.setQdr_remoteIn (s : State) (q : Nat) (x : Qdr) : (s.setQdr q x).remoteIn = s.remoteIn := rfl
@[simp] theorem State.setQdr_cfg (s : State) (q : Nat) (x : Qdr) : (s.setQdr q x).cfg = s.cfg := rfl
@[simp] theorem State.setQdr_cores (s : State) (q : Nat) (x : Qdr) : (s.setQdr q x).cores = s.cores := rfl
@[simp] theorem State.setQdr_banks (s : State) (q : Nat) (x : Qdr) : (s.setQdr q x).banks = s.banks := rfl
@[simp] theorem State.setQdr_qdrSvc (s : State) (q : Nat) (x : Qdr) : (s.setQdr q x).qdrSvc = s.qdrSvc := rfl
@[simp] theorem State.setQdr_dsets (s : State) (q : Nat) (x : Qdr) : (s.setQdr q x).dsets = s.dsets := rfl
@[simp] theorem State.setQdr_km (s : State) (q : Nat) (x : Qdr) : (s.setQdr q x).km = s.km := rfl
@[simp] theorem State.setQdr_ana (s : State) (q : Nat) (x : Qdr) : (s.setQdr q x).ana = s.ana := rfl
@[simp] theorem State.setQdr_tap (s : State) (q : Nat) (x : Qdr) : (s.setQdr q x).tap = s.tap := rfl
@[simp] theorem State.setQdr_mem (s : State) (q : Nat) (x : Qdr) : (s.setQdr q x).mem = s.mem := rfl
@[simp] theorem State.setQdr_free (s : State) (q : Nat) (x : Qdr) : (s.setQdr q x).free = s.free := rfl
@[simp] theorem State.setQdr_pending (s : State) (q : Nat) (x : Qdr) : (s.setQdr q x).pending = s.pending := rfl

/-! ### `setDs` changes `dsets` alone -/

@[simp] theorem State.setDs_regs (s : State) (d : Nat) (x : Ds) : (s.setDs d x).regs = s.regs := rfl
@[simp] theorem State.setDs_clk (s : State) (d : Nat) (x : Ds) : (s.setDs d x).clk = s.clk := rfl
@[simp] theorem State.setDs_ringCore (s : State) (d : Nat) (x : Ds) : (s.setDs d x).ringCore = s.ringCore := rfl
@[simp] theorem State.setDs_ringDebug (s : State) (d : Nat) (x : Ds) : (s.setDs d x).ringDebug = s.ringDebug := rfl
@[simp] theorem State.setDs_ringConfig (s : State) (d : Nat) (x : Ds) : (s.setDs d x).ringConfig = s.ringConfig := rfl
@[simp] theorem State.setDs_hw (s : State) (d : Nat) (x : Ds) : (s.setDs d x).hw = s.hw := rfl
@[simp] theorem State.setDs_dieReset (s : State) (d : Nat) (x : Ds) : (s.setDs d x).dieReset = s.dieReset := rfl
@[simp] theorem State.setDs_share1 (s : State) (d : Nat) (x : Ds) : (s.setDs d x).share1 = s.share1 := rfl
@[simp] theorem State.setDs_fuse (s : State) (d : Nat) (x : Ds) : (s.setDs d x).fuse = s.fuse := rfl
@[simp] theorem State.setDs_pins (s : State) (d : Nat) (x : Ds) : (s.setDs d x).pins = s.pins := rfl
@[simp] theorem State.setDs_pwr (s : State) (d : Nat) (x : Ds) : (s.setDs d x).pwr = s.pwr := rfl
@[simp] theorem State.setDs_ev (s : State) (d : Nat) (x : Ds) : (s.setDs d x).ev = s.ev := rfl
@[simp] theorem State.setDs_pat (s : State) (d : Nat) (x : Ds) : (s.setDs d x).pat = s.pat := rfl
@[simp] theorem State.setDs_be (s : State) (d : Nat) (x : Ds) : (s.setDs d x).be = s.be := rfl
@[simp] theorem State.setDs_nis (s : State) (d : Nat) (x : Ds) : (s.setDs d x).nis = s.nis := rfl
@[simp] theorem State.setDs_lms (s : State) (d : Nat) (x : Ds) : (s.setDs d x).lms = s.lms := rfl
@[simp] theorem State.setDs_mq (s : State) (d : Nat) (x : Ds) : (s.setDs d x).mq = s.mq := rfl
@[simp] theorem State.setDs_rsps (s : State) (d : Nat) (x : Ds) : (s.setDs d x).rsps = s.rsps := rfl
@[simp] theorem State.setDs_ports (s : State) (d : Nat) (x : Ds) : (s.setDs d x).ports = s.ports := rfl
@[simp] theorem State.setDs_lanes (s : State) (d : Nat) (x : Ds) : (s.setDs d x).lanes = s.lanes := rfl
@[simp] theorem State.setDs_gws (s : State) (d : Nat) (x : Ds) : (s.setDs d x).gws = s.gws := rfl
@[simp] theorem State.setDs_remoteIn (s : State) (d : Nat) (x : Ds) : (s.setDs d x).remoteIn = s.remoteIn := rfl
@[simp] theorem State.setDs_cfg (s : State) (d : Nat) (x : Ds) : (s.setDs d x).cfg = s.cfg := rfl
@[simp] theorem State.setDs_cores (s : State) (d : Nat) (x : Ds) : (s.setDs d x).cores = s.cores := rfl
@[simp] theorem State.setDs_banks (s : State) (d : Nat) (x : Ds) : (s.setDs d x).banks = s.banks := rfl
@[simp] theorem State.setDs_qdrs (s : State) (d : Nat) (x : Ds) : (s.setDs d x).qdrs = s.qdrs := rfl
@[simp] theorem State.setDs_qdrSvc (s : State) (d : Nat) (x : Ds) : (s.setDs d x).qdrSvc = s.qdrSvc := rfl
@[simp] theorem State.setDs_km (s : State) (d : Nat) (x : Ds) : (s.setDs d x).km = s.km := rfl
@[simp] theorem State.setDs_ana (s : State) (d : Nat) (x : Ds) : (s.setDs d x).ana = s.ana := rfl
@[simp] theorem State.setDs_tap (s : State) (d : Nat) (x : Ds) : (s.setDs d x).tap = s.tap := rfl
@[simp] theorem State.setDs_mem (s : State) (d : Nat) (x : Ds) : (s.setDs d x).mem = s.mem := rfl
@[simp] theorem State.setDs_free (s : State) (d : Nat) (x : Ds) : (s.setDs d x).free = s.free := rfl
@[simp] theorem State.setDs_pending (s : State) (d : Nat) (x : Ds) : (s.setDs d x).pending = s.pending := rfl

/-! ### `setAb` changes `ana` alone -/

@[simp] theorem State.setAb_regs (s : State) (n : Nat) (x : Ab) : (s.setAb n x).regs = s.regs := rfl
@[simp] theorem State.setAb_clk (s : State) (n : Nat) (x : Ab) : (s.setAb n x).clk = s.clk := rfl
@[simp] theorem State.setAb_ringCore (s : State) (n : Nat) (x : Ab) : (s.setAb n x).ringCore = s.ringCore := rfl
@[simp] theorem State.setAb_ringDebug (s : State) (n : Nat) (x : Ab) : (s.setAb n x).ringDebug = s.ringDebug := rfl
@[simp] theorem State.setAb_ringConfig (s : State) (n : Nat) (x : Ab) : (s.setAb n x).ringConfig = s.ringConfig := rfl
@[simp] theorem State.setAb_hw (s : State) (n : Nat) (x : Ab) : (s.setAb n x).hw = s.hw := rfl
@[simp] theorem State.setAb_dieReset (s : State) (n : Nat) (x : Ab) : (s.setAb n x).dieReset = s.dieReset := rfl
@[simp] theorem State.setAb_share1 (s : State) (n : Nat) (x : Ab) : (s.setAb n x).share1 = s.share1 := rfl
@[simp] theorem State.setAb_fuse (s : State) (n : Nat) (x : Ab) : (s.setAb n x).fuse = s.fuse := rfl
@[simp] theorem State.setAb_pins (s : State) (n : Nat) (x : Ab) : (s.setAb n x).pins = s.pins := rfl
@[simp] theorem State.setAb_pwr (s : State) (n : Nat) (x : Ab) : (s.setAb n x).pwr = s.pwr := rfl
@[simp] theorem State.setAb_ev (s : State) (n : Nat) (x : Ab) : (s.setAb n x).ev = s.ev := rfl
@[simp] theorem State.setAb_pat (s : State) (n : Nat) (x : Ab) : (s.setAb n x).pat = s.pat := rfl
@[simp] theorem State.setAb_be (s : State) (n : Nat) (x : Ab) : (s.setAb n x).be = s.be := rfl
@[simp] theorem State.setAb_nis (s : State) (n : Nat) (x : Ab) : (s.setAb n x).nis = s.nis := rfl
@[simp] theorem State.setAb_lms (s : State) (n : Nat) (x : Ab) : (s.setAb n x).lms = s.lms := rfl
@[simp] theorem State.setAb_mq (s : State) (n : Nat) (x : Ab) : (s.setAb n x).mq = s.mq := rfl
@[simp] theorem State.setAb_rsps (s : State) (n : Nat) (x : Ab) : (s.setAb n x).rsps = s.rsps := rfl
@[simp] theorem State.setAb_ports (s : State) (n : Nat) (x : Ab) : (s.setAb n x).ports = s.ports := rfl
@[simp] theorem State.setAb_lanes (s : State) (n : Nat) (x : Ab) : (s.setAb n x).lanes = s.lanes := rfl
@[simp] theorem State.setAb_gws (s : State) (n : Nat) (x : Ab) : (s.setAb n x).gws = s.gws := rfl
@[simp] theorem State.setAb_remoteIn (s : State) (n : Nat) (x : Ab) : (s.setAb n x).remoteIn = s.remoteIn := rfl
@[simp] theorem State.setAb_cfg (s : State) (n : Nat) (x : Ab) : (s.setAb n x).cfg = s.cfg := rfl
@[simp] theorem State.setAb_cores (s : State) (n : Nat) (x : Ab) : (s.setAb n x).cores = s.cores := rfl
@[simp] theorem State.setAb_banks (s : State) (n : Nat) (x : Ab) : (s.setAb n x).banks = s.banks := rfl
@[simp] theorem State.setAb_qdrs (s : State) (n : Nat) (x : Ab) : (s.setAb n x).qdrs = s.qdrs := rfl
@[simp] theorem State.setAb_qdrSvc (s : State) (n : Nat) (x : Ab) : (s.setAb n x).qdrSvc = s.qdrSvc := rfl
@[simp] theorem State.setAb_dsets (s : State) (n : Nat) (x : Ab) : (s.setAb n x).dsets = s.dsets := rfl
@[simp] theorem State.setAb_km (s : State) (n : Nat) (x : Ab) : (s.setAb n x).km = s.km := rfl
@[simp] theorem State.setAb_tap (s : State) (n : Nat) (x : Ab) : (s.setAb n x).tap = s.tap := rfl
@[simp] theorem State.setAb_mem (s : State) (n : Nat) (x : Ab) : (s.setAb n x).mem = s.mem := rfl
@[simp] theorem State.setAb_free (s : State) (n : Nat) (x : Ab) : (s.setAb n x).free = s.free := rfl
@[simp] theorem State.setAb_pending (s : State) (n : Nat) (x : Ab) : (s.setAb n x).pending = s.pending := rfl

/-! ### `setIc` changes `ana` alone -/

@[simp] theorem State.setIc_regs (s : State) (n : Nat) (x : Ic) : (s.setIc n x).regs = s.regs := rfl
@[simp] theorem State.setIc_clk (s : State) (n : Nat) (x : Ic) : (s.setIc n x).clk = s.clk := rfl
@[simp] theorem State.setIc_ringCore (s : State) (n : Nat) (x : Ic) : (s.setIc n x).ringCore = s.ringCore := rfl
@[simp] theorem State.setIc_ringDebug (s : State) (n : Nat) (x : Ic) : (s.setIc n x).ringDebug = s.ringDebug := rfl
@[simp] theorem State.setIc_ringConfig (s : State) (n : Nat) (x : Ic) : (s.setIc n x).ringConfig = s.ringConfig := rfl
@[simp] theorem State.setIc_hw (s : State) (n : Nat) (x : Ic) : (s.setIc n x).hw = s.hw := rfl
@[simp] theorem State.setIc_dieReset (s : State) (n : Nat) (x : Ic) : (s.setIc n x).dieReset = s.dieReset := rfl
@[simp] theorem State.setIc_share1 (s : State) (n : Nat) (x : Ic) : (s.setIc n x).share1 = s.share1 := rfl
@[simp] theorem State.setIc_fuse (s : State) (n : Nat) (x : Ic) : (s.setIc n x).fuse = s.fuse := rfl
@[simp] theorem State.setIc_pins (s : State) (n : Nat) (x : Ic) : (s.setIc n x).pins = s.pins := rfl
@[simp] theorem State.setIc_pwr (s : State) (n : Nat) (x : Ic) : (s.setIc n x).pwr = s.pwr := rfl
@[simp] theorem State.setIc_ev (s : State) (n : Nat) (x : Ic) : (s.setIc n x).ev = s.ev := rfl
@[simp] theorem State.setIc_pat (s : State) (n : Nat) (x : Ic) : (s.setIc n x).pat = s.pat := rfl
@[simp] theorem State.setIc_be (s : State) (n : Nat) (x : Ic) : (s.setIc n x).be = s.be := rfl
@[simp] theorem State.setIc_nis (s : State) (n : Nat) (x : Ic) : (s.setIc n x).nis = s.nis := rfl
@[simp] theorem State.setIc_lms (s : State) (n : Nat) (x : Ic) : (s.setIc n x).lms = s.lms := rfl
@[simp] theorem State.setIc_mq (s : State) (n : Nat) (x : Ic) : (s.setIc n x).mq = s.mq := rfl
@[simp] theorem State.setIc_rsps (s : State) (n : Nat) (x : Ic) : (s.setIc n x).rsps = s.rsps := rfl
@[simp] theorem State.setIc_ports (s : State) (n : Nat) (x : Ic) : (s.setIc n x).ports = s.ports := rfl
@[simp] theorem State.setIc_lanes (s : State) (n : Nat) (x : Ic) : (s.setIc n x).lanes = s.lanes := rfl
@[simp] theorem State.setIc_gws (s : State) (n : Nat) (x : Ic) : (s.setIc n x).gws = s.gws := rfl
@[simp] theorem State.setIc_remoteIn (s : State) (n : Nat) (x : Ic) : (s.setIc n x).remoteIn = s.remoteIn := rfl
@[simp] theorem State.setIc_cfg (s : State) (n : Nat) (x : Ic) : (s.setIc n x).cfg = s.cfg := rfl
@[simp] theorem State.setIc_cores (s : State) (n : Nat) (x : Ic) : (s.setIc n x).cores = s.cores := rfl
@[simp] theorem State.setIc_banks (s : State) (n : Nat) (x : Ic) : (s.setIc n x).banks = s.banks := rfl
@[simp] theorem State.setIc_qdrs (s : State) (n : Nat) (x : Ic) : (s.setIc n x).qdrs = s.qdrs := rfl
@[simp] theorem State.setIc_qdrSvc (s : State) (n : Nat) (x : Ic) : (s.setIc n x).qdrSvc = s.qdrSvc := rfl
@[simp] theorem State.setIc_dsets (s : State) (n : Nat) (x : Ic) : (s.setIc n x).dsets = s.dsets := rfl
@[simp] theorem State.setIc_km (s : State) (n : Nat) (x : Ic) : (s.setIc n x).km = s.km := rfl
@[simp] theorem State.setIc_tap (s : State) (n : Nat) (x : Ic) : (s.setIc n x).tap = s.tap := rfl
@[simp] theorem State.setIc_mem (s : State) (n : Nat) (x : Ic) : (s.setIc n x).mem = s.mem := rfl
@[simp] theorem State.setIc_free (s : State) (n : Nat) (x : Ic) : (s.setIc n x).free = s.free := rfl
@[simp] theorem State.setIc_pending (s : State) (n : Nat) (x : Ic) : (s.setIc n x).pending = s.pending := rfl

/-! ### `setDma` changes `banks` alone -/

@[simp] theorem State.setDma_regs (s : State) (e : Nat) (x : Dma) : (s.setDma e x).regs = s.regs := rfl
@[simp] theorem State.setDma_clk (s : State) (e : Nat) (x : Dma) : (s.setDma e x).clk = s.clk := rfl
@[simp] theorem State.setDma_ringCore (s : State) (e : Nat) (x : Dma) : (s.setDma e x).ringCore = s.ringCore := rfl
@[simp] theorem State.setDma_ringDebug (s : State) (e : Nat) (x : Dma) : (s.setDma e x).ringDebug = s.ringDebug := rfl
@[simp] theorem State.setDma_ringConfig (s : State) (e : Nat) (x : Dma) : (s.setDma e x).ringConfig = s.ringConfig := rfl
@[simp] theorem State.setDma_hw (s : State) (e : Nat) (x : Dma) : (s.setDma e x).hw = s.hw := rfl
@[simp] theorem State.setDma_dieReset (s : State) (e : Nat) (x : Dma) : (s.setDma e x).dieReset = s.dieReset := rfl
@[simp] theorem State.setDma_share1 (s : State) (e : Nat) (x : Dma) : (s.setDma e x).share1 = s.share1 := rfl
@[simp] theorem State.setDma_fuse (s : State) (e : Nat) (x : Dma) : (s.setDma e x).fuse = s.fuse := rfl
@[simp] theorem State.setDma_pins (s : State) (e : Nat) (x : Dma) : (s.setDma e x).pins = s.pins := rfl
@[simp] theorem State.setDma_pwr (s : State) (e : Nat) (x : Dma) : (s.setDma e x).pwr = s.pwr := rfl
@[simp] theorem State.setDma_ev (s : State) (e : Nat) (x : Dma) : (s.setDma e x).ev = s.ev := rfl
@[simp] theorem State.setDma_pat (s : State) (e : Nat) (x : Dma) : (s.setDma e x).pat = s.pat := rfl
@[simp] theorem State.setDma_be (s : State) (e : Nat) (x : Dma) : (s.setDma e x).be = s.be := rfl
@[simp] theorem State.setDma_nis (s : State) (e : Nat) (x : Dma) : (s.setDma e x).nis = s.nis := rfl
@[simp] theorem State.setDma_lms (s : State) (e : Nat) (x : Dma) : (s.setDma e x).lms = s.lms := rfl
@[simp] theorem State.setDma_mq (s : State) (e : Nat) (x : Dma) : (s.setDma e x).mq = s.mq := rfl
@[simp] theorem State.setDma_rsps (s : State) (e : Nat) (x : Dma) : (s.setDma e x).rsps = s.rsps := rfl
@[simp] theorem State.setDma_ports (s : State) (e : Nat) (x : Dma) : (s.setDma e x).ports = s.ports := rfl
@[simp] theorem State.setDma_lanes (s : State) (e : Nat) (x : Dma) : (s.setDma e x).lanes = s.lanes := rfl
@[simp] theorem State.setDma_gws (s : State) (e : Nat) (x : Dma) : (s.setDma e x).gws = s.gws := rfl
@[simp] theorem State.setDma_remoteIn (s : State) (e : Nat) (x : Dma) : (s.setDma e x).remoteIn = s.remoteIn := rfl
@[simp] theorem State.setDma_cfg (s : State) (e : Nat) (x : Dma) : (s.setDma e x).cfg = s.cfg := rfl
@[simp] theorem State.setDma_cores (s : State) (e : Nat) (x : Dma) : (s.setDma e x).cores = s.cores := rfl
@[simp] theorem State.setDma_qdrs (s : State) (e : Nat) (x : Dma) : (s.setDma e x).qdrs = s.qdrs := rfl
@[simp] theorem State.setDma_qdrSvc (s : State) (e : Nat) (x : Dma) : (s.setDma e x).qdrSvc = s.qdrSvc := rfl
@[simp] theorem State.setDma_dsets (s : State) (e : Nat) (x : Dma) : (s.setDma e x).dsets = s.dsets := rfl
@[simp] theorem State.setDma_km (s : State) (e : Nat) (x : Dma) : (s.setDma e x).km = s.km := rfl
@[simp] theorem State.setDma_ana (s : State) (e : Nat) (x : Dma) : (s.setDma e x).ana = s.ana := rfl
@[simp] theorem State.setDma_tap (s : State) (e : Nat) (x : Dma) : (s.setDma e x).tap = s.tap := rfl
@[simp] theorem State.setDma_mem (s : State) (e : Nat) (x : Dma) : (s.setDma e x).mem = s.mem := rfl
@[simp] theorem State.setDma_free (s : State) (e : Nat) (x : Dma) : (s.setDma e x).free = s.free := rfl
@[simp] theorem State.setDma_pending (s : State) (e : Nat) (x : Dma) : (s.setDma e x).pending = s.pending := rfl

/-! ### `setPs` changes `pat` alone -/

@[simp] theorem State.setPs_regs (s : State) (bank d n tsel idx : Nat) (v : BitVec 128) : (s.setPs bank d n tsel idx v).regs = s.regs := rfl
@[simp] theorem State.setPs_clk (s : State) (bank d n tsel idx : Nat) (v : BitVec 128) : (s.setPs bank d n tsel idx v).clk = s.clk := rfl
@[simp] theorem State.setPs_ringCore (s : State) (bank d n tsel idx : Nat) (v : BitVec 128) : (s.setPs bank d n tsel idx v).ringCore = s.ringCore := rfl
@[simp] theorem State.setPs_ringDebug (s : State) (bank d n tsel idx : Nat) (v : BitVec 128) : (s.setPs bank d n tsel idx v).ringDebug = s.ringDebug := rfl
@[simp] theorem State.setPs_ringConfig (s : State) (bank d n tsel idx : Nat) (v : BitVec 128) : (s.setPs bank d n tsel idx v).ringConfig = s.ringConfig := rfl
@[simp] theorem State.setPs_hw (s : State) (bank d n tsel idx : Nat) (v : BitVec 128) : (s.setPs bank d n tsel idx v).hw = s.hw := rfl
@[simp] theorem State.setPs_dieReset (s : State) (bank d n tsel idx : Nat) (v : BitVec 128) : (s.setPs bank d n tsel idx v).dieReset = s.dieReset := rfl
@[simp] theorem State.setPs_share1 (s : State) (bank d n tsel idx : Nat) (v : BitVec 128) : (s.setPs bank d n tsel idx v).share1 = s.share1 := rfl
@[simp] theorem State.setPs_fuse (s : State) (bank d n tsel idx : Nat) (v : BitVec 128) : (s.setPs bank d n tsel idx v).fuse = s.fuse := rfl
@[simp] theorem State.setPs_pins (s : State) (bank d n tsel idx : Nat) (v : BitVec 128) : (s.setPs bank d n tsel idx v).pins = s.pins := rfl
@[simp] theorem State.setPs_pwr (s : State) (bank d n tsel idx : Nat) (v : BitVec 128) : (s.setPs bank d n tsel idx v).pwr = s.pwr := rfl
@[simp] theorem State.setPs_ev (s : State) (bank d n tsel idx : Nat) (v : BitVec 128) : (s.setPs bank d n tsel idx v).ev = s.ev := rfl
@[simp] theorem State.setPs_be (s : State) (bank d n tsel idx : Nat) (v : BitVec 128) : (s.setPs bank d n tsel idx v).be = s.be := rfl
@[simp] theorem State.setPs_nis (s : State) (bank d n tsel idx : Nat) (v : BitVec 128) : (s.setPs bank d n tsel idx v).nis = s.nis := rfl
@[simp] theorem State.setPs_lms (s : State) (bank d n tsel idx : Nat) (v : BitVec 128) : (s.setPs bank d n tsel idx v).lms = s.lms := rfl
@[simp] theorem State.setPs_mq (s : State) (bank d n tsel idx : Nat) (v : BitVec 128) : (s.setPs bank d n tsel idx v).mq = s.mq := rfl
@[simp] theorem State.setPs_rsps (s : State) (bank d n tsel idx : Nat) (v : BitVec 128) : (s.setPs bank d n tsel idx v).rsps = s.rsps := rfl
@[simp] theorem State.setPs_ports (s : State) (bank d n tsel idx : Nat) (v : BitVec 128) : (s.setPs bank d n tsel idx v).ports = s.ports := rfl
@[simp] theorem State.setPs_lanes (s : State) (bank d n tsel idx : Nat) (v : BitVec 128) : (s.setPs bank d n tsel idx v).lanes = s.lanes := rfl
@[simp] theorem State.setPs_gws (s : State) (bank d n tsel idx : Nat) (v : BitVec 128) : (s.setPs bank d n tsel idx v).gws = s.gws := rfl
@[simp] theorem State.setPs_remoteIn (s : State) (bank d n tsel idx : Nat) (v : BitVec 128) : (s.setPs bank d n tsel idx v).remoteIn = s.remoteIn := rfl
@[simp] theorem State.setPs_cfg (s : State) (bank d n tsel idx : Nat) (v : BitVec 128) : (s.setPs bank d n tsel idx v).cfg = s.cfg := rfl
@[simp] theorem State.setPs_cores (s : State) (bank d n tsel idx : Nat) (v : BitVec 128) : (s.setPs bank d n tsel idx v).cores = s.cores := rfl
@[simp] theorem State.setPs_banks (s : State) (bank d n tsel idx : Nat) (v : BitVec 128) : (s.setPs bank d n tsel idx v).banks = s.banks := rfl
@[simp] theorem State.setPs_qdrs (s : State) (bank d n tsel idx : Nat) (v : BitVec 128) : (s.setPs bank d n tsel idx v).qdrs = s.qdrs := rfl
@[simp] theorem State.setPs_qdrSvc (s : State) (bank d n tsel idx : Nat) (v : BitVec 128) : (s.setPs bank d n tsel idx v).qdrSvc = s.qdrSvc := rfl
@[simp] theorem State.setPs_dsets (s : State) (bank d n tsel idx : Nat) (v : BitVec 128) : (s.setPs bank d n tsel idx v).dsets = s.dsets := rfl
@[simp] theorem State.setPs_km (s : State) (bank d n tsel idx : Nat) (v : BitVec 128) : (s.setPs bank d n tsel idx v).km = s.km := rfl
@[simp] theorem State.setPs_ana (s : State) (bank d n tsel idx : Nat) (v : BitVec 128) : (s.setPs bank d n tsel idx v).ana = s.ana := rfl
@[simp] theorem State.setPs_tap (s : State) (bank d n tsel idx : Nat) (v : BitVec 128) : (s.setPs bank d n tsel idx v).tap = s.tap := rfl
@[simp] theorem State.setPs_mem (s : State) (bank d n tsel idx : Nat) (v : BitVec 128) : (s.setPs bank d n tsel idx v).mem = s.mem := rfl
@[simp] theorem State.setPs_free (s : State) (bank d n tsel idx : Nat) (v : BitVec 128) : (s.setPs bank d n tsel idx v).free = s.free := rfl
@[simp] theorem State.setPs_pending (s : State) (bank d n tsel idx : Nat) (v : BitVec 128) : (s.setPs bank d n tsel idx v).pending = s.pending := rfl

/-! ### `setHold` changes `cfg` alone -/

@[simp] theorem State.setHold_regs (s : State) (d n : Nat) (x : RegionHold) : (s.setHold d n x).regs = s.regs := rfl
@[simp] theorem State.setHold_clk (s : State) (d n : Nat) (x : RegionHold) : (s.setHold d n x).clk = s.clk := rfl
@[simp] theorem State.setHold_ringCore (s : State) (d n : Nat) (x : RegionHold) : (s.setHold d n x).ringCore = s.ringCore := rfl
@[simp] theorem State.setHold_ringDebug (s : State) (d n : Nat) (x : RegionHold) : (s.setHold d n x).ringDebug = s.ringDebug := rfl
@[simp] theorem State.setHold_ringConfig (s : State) (d n : Nat) (x : RegionHold) : (s.setHold d n x).ringConfig = s.ringConfig := rfl
@[simp] theorem State.setHold_hw (s : State) (d n : Nat) (x : RegionHold) : (s.setHold d n x).hw = s.hw := rfl
@[simp] theorem State.setHold_dieReset (s : State) (d n : Nat) (x : RegionHold) : (s.setHold d n x).dieReset = s.dieReset := rfl
@[simp] theorem State.setHold_share1 (s : State) (d n : Nat) (x : RegionHold) : (s.setHold d n x).share1 = s.share1 := rfl
@[simp] theorem State.setHold_fuse (s : State) (d n : Nat) (x : RegionHold) : (s.setHold d n x).fuse = s.fuse := rfl
@[simp] theorem State.setHold_pins (s : State) (d n : Nat) (x : RegionHold) : (s.setHold d n x).pins = s.pins := rfl
@[simp] theorem State.setHold_pwr (s : State) (d n : Nat) (x : RegionHold) : (s.setHold d n x).pwr = s.pwr := rfl
@[simp] theorem State.setHold_ev (s : State) (d n : Nat) (x : RegionHold) : (s.setHold d n x).ev = s.ev := rfl
@[simp] theorem State.setHold_pat (s : State) (d n : Nat) (x : RegionHold) : (s.setHold d n x).pat = s.pat := rfl
@[simp] theorem State.setHold_be (s : State) (d n : Nat) (x : RegionHold) : (s.setHold d n x).be = s.be := rfl
@[simp] theorem State.setHold_nis (s : State) (d n : Nat) (x : RegionHold) : (s.setHold d n x).nis = s.nis := rfl
@[simp] theorem State.setHold_lms (s : State) (d n : Nat) (x : RegionHold) : (s.setHold d n x).lms = s.lms := rfl
@[simp] theorem State.setHold_mq (s : State) (d n : Nat) (x : RegionHold) : (s.setHold d n x).mq = s.mq := rfl
@[simp] theorem State.setHold_rsps (s : State) (d n : Nat) (x : RegionHold) : (s.setHold d n x).rsps = s.rsps := rfl
@[simp] theorem State.setHold_ports (s : State) (d n : Nat) (x : RegionHold) : (s.setHold d n x).ports = s.ports := rfl
@[simp] theorem State.setHold_lanes (s : State) (d n : Nat) (x : RegionHold) : (s.setHold d n x).lanes = s.lanes := rfl
@[simp] theorem State.setHold_gws (s : State) (d n : Nat) (x : RegionHold) : (s.setHold d n x).gws = s.gws := rfl
@[simp] theorem State.setHold_remoteIn (s : State) (d n : Nat) (x : RegionHold) : (s.setHold d n x).remoteIn = s.remoteIn := rfl
@[simp] theorem State.setHold_cores (s : State) (d n : Nat) (x : RegionHold) : (s.setHold d n x).cores = s.cores := rfl
@[simp] theorem State.setHold_banks (s : State) (d n : Nat) (x : RegionHold) : (s.setHold d n x).banks = s.banks := rfl
@[simp] theorem State.setHold_qdrs (s : State) (d n : Nat) (x : RegionHold) : (s.setHold d n x).qdrs = s.qdrs := rfl
@[simp] theorem State.setHold_qdrSvc (s : State) (d n : Nat) (x : RegionHold) : (s.setHold d n x).qdrSvc = s.qdrSvc := rfl
@[simp] theorem State.setHold_dsets (s : State) (d n : Nat) (x : RegionHold) : (s.setHold d n x).dsets = s.dsets := rfl
@[simp] theorem State.setHold_km (s : State) (d n : Nat) (x : RegionHold) : (s.setHold d n x).km = s.km := rfl
@[simp] theorem State.setHold_ana (s : State) (d n : Nat) (x : RegionHold) : (s.setHold d n x).ana = s.ana := rfl
@[simp] theorem State.setHold_tap (s : State) (d n : Nat) (x : RegionHold) : (s.setHold d n x).tap = s.tap := rfl
@[simp] theorem State.setHold_mem (s : State) (d n : Nat) (x : RegionHold) : (s.setHold d n x).mem = s.mem := rfl
@[simp] theorem State.setHold_free (s : State) (d n : Nat) (x : RegionHold) : (s.setHold d n x).free = s.free := rfl
@[simp] theorem State.setHold_pending (s : State) (d n : Nat) (x : RegionHold) : (s.setHold d n x).pending = s.pending := rfl

/-! ### `setUpsets` changes `cfg` alone -/

@[simp] theorem State.setUpsets_regs (s : State) (d : Nat) (l : List UpsetRec) : (s.setUpsets d l).regs = s.regs := rfl
@[simp] theorem State.setUpsets_clk (s : State) (d : Nat) (l : List UpsetRec) : (s.setUpsets d l).clk = s.clk := rfl
@[simp] theorem State.setUpsets_ringCore (s : State) (d : Nat) (l : List UpsetRec) : (s.setUpsets d l).ringCore = s.ringCore := rfl
@[simp] theorem State.setUpsets_ringDebug (s : State) (d : Nat) (l : List UpsetRec) : (s.setUpsets d l).ringDebug = s.ringDebug := rfl
@[simp] theorem State.setUpsets_ringConfig (s : State) (d : Nat) (l : List UpsetRec) : (s.setUpsets d l).ringConfig = s.ringConfig := rfl
@[simp] theorem State.setUpsets_hw (s : State) (d : Nat) (l : List UpsetRec) : (s.setUpsets d l).hw = s.hw := rfl
@[simp] theorem State.setUpsets_dieReset (s : State) (d : Nat) (l : List UpsetRec) : (s.setUpsets d l).dieReset = s.dieReset := rfl
@[simp] theorem State.setUpsets_share1 (s : State) (d : Nat) (l : List UpsetRec) : (s.setUpsets d l).share1 = s.share1 := rfl
@[simp] theorem State.setUpsets_fuse (s : State) (d : Nat) (l : List UpsetRec) : (s.setUpsets d l).fuse = s.fuse := rfl
@[simp] theorem State.setUpsets_pins (s : State) (d : Nat) (l : List UpsetRec) : (s.setUpsets d l).pins = s.pins := rfl
@[simp] theorem State.setUpsets_pwr (s : State) (d : Nat) (l : List UpsetRec) : (s.setUpsets d l).pwr = s.pwr := rfl
@[simp] theorem State.setUpsets_ev (s : State) (d : Nat) (l : List UpsetRec) : (s.setUpsets d l).ev = s.ev := rfl
@[simp] theorem State.setUpsets_pat (s : State) (d : Nat) (l : List UpsetRec) : (s.setUpsets d l).pat = s.pat := rfl
@[simp] theorem State.setUpsets_be (s : State) (d : Nat) (l : List UpsetRec) : (s.setUpsets d l).be = s.be := rfl
@[simp] theorem State.setUpsets_nis (s : State) (d : Nat) (l : List UpsetRec) : (s.setUpsets d l).nis = s.nis := rfl
@[simp] theorem State.setUpsets_lms (s : State) (d : Nat) (l : List UpsetRec) : (s.setUpsets d l).lms = s.lms := rfl
@[simp] theorem State.setUpsets_mq (s : State) (d : Nat) (l : List UpsetRec) : (s.setUpsets d l).mq = s.mq := rfl
@[simp] theorem State.setUpsets_rsps (s : State) (d : Nat) (l : List UpsetRec) : (s.setUpsets d l).rsps = s.rsps := rfl
@[simp] theorem State.setUpsets_ports (s : State) (d : Nat) (l : List UpsetRec) : (s.setUpsets d l).ports = s.ports := rfl
@[simp] theorem State.setUpsets_lanes (s : State) (d : Nat) (l : List UpsetRec) : (s.setUpsets d l).lanes = s.lanes := rfl
@[simp] theorem State.setUpsets_gws (s : State) (d : Nat) (l : List UpsetRec) : (s.setUpsets d l).gws = s.gws := rfl
@[simp] theorem State.setUpsets_remoteIn (s : State) (d : Nat) (l : List UpsetRec) : (s.setUpsets d l).remoteIn = s.remoteIn := rfl
@[simp] theorem State.setUpsets_cores (s : State) (d : Nat) (l : List UpsetRec) : (s.setUpsets d l).cores = s.cores := rfl
@[simp] theorem State.setUpsets_banks (s : State) (d : Nat) (l : List UpsetRec) : (s.setUpsets d l).banks = s.banks := rfl
@[simp] theorem State.setUpsets_qdrs (s : State) (d : Nat) (l : List UpsetRec) : (s.setUpsets d l).qdrs = s.qdrs := rfl
@[simp] theorem State.setUpsets_qdrSvc (s : State) (d : Nat) (l : List UpsetRec) : (s.setUpsets d l).qdrSvc = s.qdrSvc := rfl
@[simp] theorem State.setUpsets_dsets (s : State) (d : Nat) (l : List UpsetRec) : (s.setUpsets d l).dsets = s.dsets := rfl
@[simp] theorem State.setUpsets_km (s : State) (d : Nat) (l : List UpsetRec) : (s.setUpsets d l).km = s.km := rfl
@[simp] theorem State.setUpsets_ana (s : State) (d : Nat) (l : List UpsetRec) : (s.setUpsets d l).ana = s.ana := rfl
@[simp] theorem State.setUpsets_tap (s : State) (d : Nat) (l : List UpsetRec) : (s.setUpsets d l).tap = s.tap := rfl
@[simp] theorem State.setUpsets_mem (s : State) (d : Nat) (l : List UpsetRec) : (s.setUpsets d l).mem = s.mem := rfl
@[simp] theorem State.setUpsets_free (s : State) (d : Nat) (l : List UpsetRec) : (s.setUpsets d l).free = s.free := rfl
@[simp] theorem State.setUpsets_pending (s : State) (d : Nat) (l : List UpsetRec) : (s.setUpsets d l).pending = s.pending := rfl

/-! ### `setStage` changes `cfg` alone -/

@[simp] theorem State.setStage_regs (s : State) (d v : Nat) : (s.setStage d v).regs = s.regs := rfl
@[simp] theorem State.setStage_clk (s : State) (d v : Nat) : (s.setStage d v).clk = s.clk := rfl
@[simp] theorem State.setStage_ringCore (s : State) (d v : Nat) : (s.setStage d v).ringCore = s.ringCore := rfl
@[simp] theorem State.setStage_ringDebug (s : State) (d v : Nat) : (s.setStage d v).ringDebug = s.ringDebug := rfl
@[simp] theorem State.setStage_ringConfig (s : State) (d v : Nat) : (s.setStage d v).ringConfig = s.ringConfig := rfl
@[simp] theorem State.setStage_hw (s : State) (d v : Nat) : (s.setStage d v).hw = s.hw := rfl
@[simp] theorem State.setStage_dieReset (s : State) (d v : Nat) : (s.setStage d v).dieReset = s.dieReset := rfl
@[simp] theorem State.setStage_share1 (s : State) (d v : Nat) : (s.setStage d v).share1 = s.share1 := rfl
@[simp] theorem State.setStage_fuse (s : State) (d v : Nat) : (s.setStage d v).fuse = s.fuse := rfl
@[simp] theorem State.setStage_pins (s : State) (d v : Nat) : (s.setStage d v).pins = s.pins := rfl
@[simp] theorem State.setStage_pwr (s : State) (d v : Nat) : (s.setStage d v).pwr = s.pwr := rfl
@[simp] theorem State.setStage_ev (s : State) (d v : Nat) : (s.setStage d v).ev = s.ev := rfl
@[simp] theorem State.setStage_pat (s : State) (d v : Nat) : (s.setStage d v).pat = s.pat := rfl
@[simp] theorem State.setStage_be (s : State) (d v : Nat) : (s.setStage d v).be = s.be := rfl
@[simp] theorem State.setStage_nis (s : State) (d v : Nat) : (s.setStage d v).nis = s.nis := rfl
@[simp] theorem State.setStage_lms (s : State) (d v : Nat) : (s.setStage d v).lms = s.lms := rfl
@[simp] theorem State.setStage_mq (s : State) (d v : Nat) : (s.setStage d v).mq = s.mq := rfl
@[simp] theorem State.setStage_rsps (s : State) (d v : Nat) : (s.setStage d v).rsps = s.rsps := rfl
@[simp] theorem State.setStage_ports (s : State) (d v : Nat) : (s.setStage d v).ports = s.ports := rfl
@[simp] theorem State.setStage_lanes (s : State) (d v : Nat) : (s.setStage d v).lanes = s.lanes := rfl
@[simp] theorem State.setStage_gws (s : State) (d v : Nat) : (s.setStage d v).gws = s.gws := rfl
@[simp] theorem State.setStage_remoteIn (s : State) (d v : Nat) : (s.setStage d v).remoteIn = s.remoteIn := rfl
@[simp] theorem State.setStage_cores (s : State) (d v : Nat) : (s.setStage d v).cores = s.cores := rfl
@[simp] theorem State.setStage_banks (s : State) (d v : Nat) : (s.setStage d v).banks = s.banks := rfl
@[simp] theorem State.setStage_qdrs (s : State) (d v : Nat) : (s.setStage d v).qdrs = s.qdrs := rfl
@[simp] theorem State.setStage_qdrSvc (s : State) (d v : Nat) : (s.setStage d v).qdrSvc = s.qdrSvc := rfl
@[simp] theorem State.setStage_dsets (s : State) (d v : Nat) : (s.setStage d v).dsets = s.dsets := rfl
@[simp] theorem State.setStage_km (s : State) (d v : Nat) : (s.setStage d v).km = s.km := rfl
@[simp] theorem State.setStage_ana (s : State) (d v : Nat) : (s.setStage d v).ana = s.ana := rfl
@[simp] theorem State.setStage_tap (s : State) (d v : Nat) : (s.setStage d v).tap = s.tap := rfl
@[simp] theorem State.setStage_mem (s : State) (d v : Nat) : (s.setStage d v).mem = s.mem := rfl
@[simp] theorem State.setStage_free (s : State) (d v : Nat) : (s.setStage d v).free = s.free := rfl
@[simp] theorem State.setStage_pending (s : State) (d v : Nat) : (s.setStage d v).pending = s.pending := rfl

/-! ### `setDieBist` changes `tap` alone -/

@[simp] theorem State.setDieBist_regs (s : State) (d : Nat) (x : DieBist) : (s.setDieBist d x).regs = s.regs := rfl
@[simp] theorem State.setDieBist_clk (s : State) (d : Nat) (x : DieBist) : (s.setDieBist d x).clk = s.clk := rfl
@[simp] theorem State.setDieBist_ringCore (s : State) (d : Nat) (x : DieBist) : (s.setDieBist d x).ringCore = s.ringCore := rfl
@[simp] theorem State.setDieBist_ringDebug (s : State) (d : Nat) (x : DieBist) : (s.setDieBist d x).ringDebug = s.ringDebug := rfl
@[simp] theorem State.setDieBist_ringConfig (s : State) (d : Nat) (x : DieBist) : (s.setDieBist d x).ringConfig = s.ringConfig := rfl
@[simp] theorem State.setDieBist_hw (s : State) (d : Nat) (x : DieBist) : (s.setDieBist d x).hw = s.hw := rfl
@[simp] theorem State.setDieBist_dieReset (s : State) (d : Nat) (x : DieBist) : (s.setDieBist d x).dieReset = s.dieReset := rfl
@[simp] theorem State.setDieBist_share1 (s : State) (d : Nat) (x : DieBist) : (s.setDieBist d x).share1 = s.share1 := rfl
@[simp] theorem State.setDieBist_fuse (s : State) (d : Nat) (x : DieBist) : (s.setDieBist d x).fuse = s.fuse := rfl
@[simp] theorem State.setDieBist_pins (s : State) (d : Nat) (x : DieBist) : (s.setDieBist d x).pins = s.pins := rfl
@[simp] theorem State.setDieBist_pwr (s : State) (d : Nat) (x : DieBist) : (s.setDieBist d x).pwr = s.pwr := rfl
@[simp] theorem State.setDieBist_ev (s : State) (d : Nat) (x : DieBist) : (s.setDieBist d x).ev = s.ev := rfl
@[simp] theorem State.setDieBist_pat (s : State) (d : Nat) (x : DieBist) : (s.setDieBist d x).pat = s.pat := rfl
@[simp] theorem State.setDieBist_be (s : State) (d : Nat) (x : DieBist) : (s.setDieBist d x).be = s.be := rfl
@[simp] theorem State.setDieBist_nis (s : State) (d : Nat) (x : DieBist) : (s.setDieBist d x).nis = s.nis := rfl
@[simp] theorem State.setDieBist_lms (s : State) (d : Nat) (x : DieBist) : (s.setDieBist d x).lms = s.lms := rfl
@[simp] theorem State.setDieBist_mq (s : State) (d : Nat) (x : DieBist) : (s.setDieBist d x).mq = s.mq := rfl
@[simp] theorem State.setDieBist_rsps (s : State) (d : Nat) (x : DieBist) : (s.setDieBist d x).rsps = s.rsps := rfl
@[simp] theorem State.setDieBist_ports (s : State) (d : Nat) (x : DieBist) : (s.setDieBist d x).ports = s.ports := rfl
@[simp] theorem State.setDieBist_lanes (s : State) (d : Nat) (x : DieBist) : (s.setDieBist d x).lanes = s.lanes := rfl
@[simp] theorem State.setDieBist_gws (s : State) (d : Nat) (x : DieBist) : (s.setDieBist d x).gws = s.gws := rfl
@[simp] theorem State.setDieBist_remoteIn (s : State) (d : Nat) (x : DieBist) : (s.setDieBist d x).remoteIn = s.remoteIn := rfl
@[simp] theorem State.setDieBist_cfg (s : State) (d : Nat) (x : DieBist) : (s.setDieBist d x).cfg = s.cfg := rfl
@[simp] theorem State.setDieBist_cores (s : State) (d : Nat) (x : DieBist) : (s.setDieBist d x).cores = s.cores := rfl
@[simp] theorem State.setDieBist_banks (s : State) (d : Nat) (x : DieBist) : (s.setDieBist d x).banks = s.banks := rfl
@[simp] theorem State.setDieBist_qdrs (s : State) (d : Nat) (x : DieBist) : (s.setDieBist d x).qdrs = s.qdrs := rfl
@[simp] theorem State.setDieBist_qdrSvc (s : State) (d : Nat) (x : DieBist) : (s.setDieBist d x).qdrSvc = s.qdrSvc := rfl
@[simp] theorem State.setDieBist_dsets (s : State) (d : Nat) (x : DieBist) : (s.setDieBist d x).dsets = s.dsets := rfl
@[simp] theorem State.setDieBist_km (s : State) (d : Nat) (x : DieBist) : (s.setDieBist d x).km = s.km := rfl
@[simp] theorem State.setDieBist_ana (s : State) (d : Nat) (x : DieBist) : (s.setDieBist d x).ana = s.ana := rfl
@[simp] theorem State.setDieBist_mem (s : State) (d : Nat) (x : DieBist) : (s.setDieBist d x).mem = s.mem := rfl
@[simp] theorem State.setDieBist_free (s : State) (d : Nat) (x : DieBist) : (s.setDieBist d x).free = s.free := rfl
@[simp] theorem State.setDieBist_pending (s : State) (d : Nat) (x : DieBist) : (s.setDieBist d x).pending = s.pending := rfl

/-! ### `advance` changes `clk` alone -/

@[simp] theorem State.advance_regs (s : State) : (s.advance).regs = s.regs := rfl
@[simp] theorem State.advance_ringCore (s : State) : (s.advance).ringCore = s.ringCore := rfl
@[simp] theorem State.advance_ringDebug (s : State) : (s.advance).ringDebug = s.ringDebug := rfl
@[simp] theorem State.advance_ringConfig (s : State) : (s.advance).ringConfig = s.ringConfig := rfl
@[simp] theorem State.advance_hw (s : State) : (s.advance).hw = s.hw := rfl
@[simp] theorem State.advance_dieReset (s : State) : (s.advance).dieReset = s.dieReset := rfl
@[simp] theorem State.advance_share1 (s : State) : (s.advance).share1 = s.share1 := rfl
@[simp] theorem State.advance_fuse (s : State) : (s.advance).fuse = s.fuse := rfl
@[simp] theorem State.advance_pins (s : State) : (s.advance).pins = s.pins := rfl
@[simp] theorem State.advance_pwr (s : State) : (s.advance).pwr = s.pwr := rfl
@[simp] theorem State.advance_ev (s : State) : (s.advance).ev = s.ev := rfl
@[simp] theorem State.advance_pat (s : State) : (s.advance).pat = s.pat := rfl
@[simp] theorem State.advance_be (s : State) : (s.advance).be = s.be := rfl
@[simp] theorem State.advance_nis (s : State) : (s.advance).nis = s.nis := rfl
@[simp] theorem State.advance_lms (s : State) : (s.advance).lms = s.lms := rfl
@[simp] theorem State.advance_mq (s : State) : (s.advance).mq = s.mq := rfl
@[simp] theorem State.advance_rsps (s : State) : (s.advance).rsps = s.rsps := rfl
@[simp] theorem State.advance_ports (s : State) : (s.advance).ports = s.ports := rfl
@[simp] theorem State.advance_lanes (s : State) : (s.advance).lanes = s.lanes := rfl
@[simp] theorem State.advance_gws (s : State) : (s.advance).gws = s.gws := rfl
@[simp] theorem State.advance_remoteIn (s : State) : (s.advance).remoteIn = s.remoteIn := rfl
@[simp] theorem State.advance_cfg (s : State) : (s.advance).cfg = s.cfg := rfl
@[simp] theorem State.advance_cores (s : State) : (s.advance).cores = s.cores := rfl
@[simp] theorem State.advance_banks (s : State) : (s.advance).banks = s.banks := rfl
@[simp] theorem State.advance_qdrs (s : State) : (s.advance).qdrs = s.qdrs := rfl
@[simp] theorem State.advance_qdrSvc (s : State) : (s.advance).qdrSvc = s.qdrSvc := rfl
@[simp] theorem State.advance_dsets (s : State) : (s.advance).dsets = s.dsets := rfl
@[simp] theorem State.advance_km (s : State) : (s.advance).km = s.km := rfl
@[simp] theorem State.advance_ana (s : State) : (s.advance).ana = s.ana := rfl
@[simp] theorem State.advance_tap (s : State) : (s.advance).tap = s.tap := rfl
@[simp] theorem State.advance_mem (s : State) : (s.advance).mem = s.mem := rfl
@[simp] theorem State.advance_free (s : State) : (s.advance).free = s.free := rfl
@[simp] theorem State.advance_pending (s : State) : (s.advance).pending = s.pending := rfl

/-! ### `setFld` changes `regs` alone -/

@[simp] theorem State.setFld_clk (s : State) (a : Nat) (f : Fld) (n : Nat) : (s.setFld a f n).clk = s.clk := rfl
@[simp] theorem State.setFld_ringCore (s : State) (a : Nat) (f : Fld) (n : Nat) : (s.setFld a f n).ringCore = s.ringCore := rfl
@[simp] theorem State.setFld_ringDebug (s : State) (a : Nat) (f : Fld) (n : Nat) : (s.setFld a f n).ringDebug = s.ringDebug := rfl
@[simp] theorem State.setFld_ringConfig (s : State) (a : Nat) (f : Fld) (n : Nat) : (s.setFld a f n).ringConfig = s.ringConfig := rfl
@[simp] theorem State.setFld_hw (s : State) (a : Nat) (f : Fld) (n : Nat) : (s.setFld a f n).hw = s.hw := rfl
@[simp] theorem State.setFld_dieReset (s : State) (a : Nat) (f : Fld) (n : Nat) : (s.setFld a f n).dieReset = s.dieReset := rfl
@[simp] theorem State.setFld_share1 (s : State) (a : Nat) (f : Fld) (n : Nat) : (s.setFld a f n).share1 = s.share1 := rfl
@[simp] theorem State.setFld_fuse (s : State) (a : Nat) (f : Fld) (n : Nat) : (s.setFld a f n).fuse = s.fuse := rfl
@[simp] theorem State.setFld_pins (s : State) (a : Nat) (f : Fld) (n : Nat) : (s.setFld a f n).pins = s.pins := rfl
@[simp] theorem State.setFld_pwr (s : State) (a : Nat) (f : Fld) (n : Nat) : (s.setFld a f n).pwr = s.pwr := rfl
@[simp] theorem State.setFld_ev (s : State) (a : Nat) (f : Fld) (n : Nat) : (s.setFld a f n).ev = s.ev := rfl
@[simp] theorem State.setFld_pat (s : State) (a : Nat) (f : Fld) (n : Nat) : (s.setFld a f n).pat = s.pat := rfl
@[simp] theorem State.setFld_be (s : State) (a : Nat) (f : Fld) (n : Nat) : (s.setFld a f n).be = s.be := rfl
@[simp] theorem State.setFld_nis (s : State) (a : Nat) (f : Fld) (n : Nat) : (s.setFld a f n).nis = s.nis := rfl
@[simp] theorem State.setFld_lms (s : State) (a : Nat) (f : Fld) (n : Nat) : (s.setFld a f n).lms = s.lms := rfl
@[simp] theorem State.setFld_mq (s : State) (a : Nat) (f : Fld) (n : Nat) : (s.setFld a f n).mq = s.mq := rfl
@[simp] theorem State.setFld_rsps (s : State) (a : Nat) (f : Fld) (n : Nat) : (s.setFld a f n).rsps = s.rsps := rfl
@[simp] theorem State.setFld_ports (s : State) (a : Nat) (f : Fld) (n : Nat) : (s.setFld a f n).ports = s.ports := rfl
@[simp] theorem State.setFld_lanes (s : State) (a : Nat) (f : Fld) (n : Nat) : (s.setFld a f n).lanes = s.lanes := rfl
@[simp] theorem State.setFld_gws (s : State) (a : Nat) (f : Fld) (n : Nat) : (s.setFld a f n).gws = s.gws := rfl
@[simp] theorem State.setFld_remoteIn (s : State) (a : Nat) (f : Fld) (n : Nat) : (s.setFld a f n).remoteIn = s.remoteIn := rfl
@[simp] theorem State.setFld_cfg (s : State) (a : Nat) (f : Fld) (n : Nat) : (s.setFld a f n).cfg = s.cfg := rfl
@[simp] theorem State.setFld_cores (s : State) (a : Nat) (f : Fld) (n : Nat) : (s.setFld a f n).cores = s.cores := rfl
@[simp] theorem State.setFld_banks (s : State) (a : Nat) (f : Fld) (n : Nat) : (s.setFld a f n).banks = s.banks := rfl
@[simp] theorem State.setFld_qdrs (s : State) (a : Nat) (f : Fld) (n : Nat) : (s.setFld a f n).qdrs = s.qdrs := rfl
@[simp] theorem State.setFld_qdrSvc (s : State) (a : Nat) (f : Fld) (n : Nat) : (s.setFld a f n).qdrSvc = s.qdrSvc := rfl
@[simp] theorem State.setFld_dsets (s : State) (a : Nat) (f : Fld) (n : Nat) : (s.setFld a f n).dsets = s.dsets := rfl
@[simp] theorem State.setFld_km (s : State) (a : Nat) (f : Fld) (n : Nat) : (s.setFld a f n).km = s.km := rfl
@[simp] theorem State.setFld_ana (s : State) (a : Nat) (f : Fld) (n : Nat) : (s.setFld a f n).ana = s.ana := rfl
@[simp] theorem State.setFld_tap (s : State) (a : Nat) (f : Fld) (n : Nat) : (s.setFld a f n).tap = s.tap := rfl
@[simp] theorem State.setFld_mem (s : State) (a : Nat) (f : Fld) (n : Nat) : (s.setFld a f n).mem = s.mem := rfl
@[simp] theorem State.setFld_free (s : State) (a : Nat) (f : Fld) (n : Nat) : (s.setFld a f n).free = s.free := rfl
@[simp] theorem State.setFld_pending (s : State) (a : Nat) (f : Fld) (n : Nat) : (s.setFld a f n).pending = s.pending := rfl

/-! ### `setBit` changes `regs` and `hw` alone -/

@[simp] theorem State.setBit_clk (s : State) (a : Nat) (f : Fld) (b : Bool) : (s.setBit a f b).clk = s.clk := by
  cases b <;> rfl
@[simp] theorem State.setBit_ringCore (s : State) (a : Nat) (f : Fld) (b : Bool) : (s.setBit a f b).ringCore = s.ringCore := by
  cases b <;> rfl
@[simp] theorem State.setBit_ringDebug (s : State) (a : Nat) (f : Fld) (b : Bool) : (s.setBit a f b).ringDebug = s.ringDebug := by
  cases b <;> rfl
@[simp] theorem State.setBit_ringConfig (s : State) (a : Nat) (f : Fld) (b : Bool) : (s.setBit a f b).ringConfig = s.ringConfig := by
  cases b <;> rfl
@[simp] theorem State.setBit_dieReset (s : State) (a : Nat) (f : Fld) (b : Bool) : (s.setBit a f b).dieReset = s.dieReset := by
  cases b <;> rfl
@[simp] theorem State.setBit_share1 (s : State) (a : Nat) (f : Fld) (b : Bool) : (s.setBit a f b).share1 = s.share1 := by
  cases b <;> rfl
@[simp] theorem State.setBit_fuse (s : State) (a : Nat) (f : Fld) (b : Bool) : (s.setBit a f b).fuse = s.fuse := by
  cases b <;> rfl
@[simp] theorem State.setBit_pins (s : State) (a : Nat) (f : Fld) (b : Bool) : (s.setBit a f b).pins = s.pins := by
  cases b <;> rfl
@[simp] theorem State.setBit_pwr (s : State) (a : Nat) (f : Fld) (b : Bool) : (s.setBit a f b).pwr = s.pwr := by
  cases b <;> rfl
@[simp] theorem State.setBit_ev (s : State) (a : Nat) (f : Fld) (b : Bool) : (s.setBit a f b).ev = s.ev := by
  cases b <;> rfl
@[simp] theorem State.setBit_pat (s : State) (a : Nat) (f : Fld) (b : Bool) : (s.setBit a f b).pat = s.pat := by
  cases b <;> rfl
@[simp] theorem State.setBit_be (s : State) (a : Nat) (f : Fld) (b : Bool) : (s.setBit a f b).be = s.be := by
  cases b <;> rfl
@[simp] theorem State.setBit_nis (s : State) (a : Nat) (f : Fld) (b : Bool) : (s.setBit a f b).nis = s.nis := by
  cases b <;> rfl
@[simp] theorem State.setBit_lms (s : State) (a : Nat) (f : Fld) (b : Bool) : (s.setBit a f b).lms = s.lms := by
  cases b <;> rfl
@[simp] theorem State.setBit_mq (s : State) (a : Nat) (f : Fld) (b : Bool) : (s.setBit a f b).mq = s.mq := by
  cases b <;> rfl
@[simp] theorem State.setBit_rsps (s : State) (a : Nat) (f : Fld) (b : Bool) : (s.setBit a f b).rsps = s.rsps := by
  cases b <;> rfl
@[simp] theorem State.setBit_ports (s : State) (a : Nat) (f : Fld) (b : Bool) : (s.setBit a f b).ports = s.ports := by
  cases b <;> rfl
@[simp] theorem State.setBit_lanes (s : State) (a : Nat) (f : Fld) (b : Bool) : (s.setBit a f b).lanes = s.lanes := by
  cases b <;> rfl
@[simp] theorem State.setBit_gws (s : State) (a : Nat) (f : Fld) (b : Bool) : (s.setBit a f b).gws = s.gws := by
  cases b <;> rfl
@[simp] theorem State.setBit_remoteIn (s : State) (a : Nat) (f : Fld) (b : Bool) : (s.setBit a f b).remoteIn = s.remoteIn := by
  cases b <;> rfl
@[simp] theorem State.setBit_cfg (s : State) (a : Nat) (f : Fld) (b : Bool) : (s.setBit a f b).cfg = s.cfg := by
  cases b <;> rfl
@[simp] theorem State.setBit_cores (s : State) (a : Nat) (f : Fld) (b : Bool) : (s.setBit a f b).cores = s.cores := by
  cases b <;> rfl
@[simp] theorem State.setBit_banks (s : State) (a : Nat) (f : Fld) (b : Bool) : (s.setBit a f b).banks = s.banks := by
  cases b <;> rfl
@[simp] theorem State.setBit_qdrs (s : State) (a : Nat) (f : Fld) (b : Bool) : (s.setBit a f b).qdrs = s.qdrs := by
  cases b <;> rfl
@[simp] theorem State.setBit_qdrSvc (s : State) (a : Nat) (f : Fld) (b : Bool) : (s.setBit a f b).qdrSvc = s.qdrSvc := by
  cases b <;> rfl
@[simp] theorem State.setBit_dsets (s : State) (a : Nat) (f : Fld) (b : Bool) : (s.setBit a f b).dsets = s.dsets := by
  cases b <;> rfl
@[simp] theorem State.setBit_km (s : State) (a : Nat) (f : Fld) (b : Bool) : (s.setBit a f b).km = s.km := by
  cases b <;> rfl
@[simp] theorem State.setBit_ana (s : State) (a : Nat) (f : Fld) (b : Bool) : (s.setBit a f b).ana = s.ana := by
  cases b <;> rfl
@[simp] theorem State.setBit_tap (s : State) (a : Nat) (f : Fld) (b : Bool) : (s.setBit a f b).tap = s.tap := by
  cases b <;> rfl
@[simp] theorem State.setBit_mem (s : State) (a : Nat) (f : Fld) (b : Bool) : (s.setBit a f b).mem = s.mem := by
  cases b <;> rfl
@[simp] theorem State.setBit_free (s : State) (a : Nat) (f : Fld) (b : Bool) : (s.setBit a f b).free = s.free := by
  cases b <;> rfl
@[simp] theorem State.setBit_pending (s : State) (a : Nat) (f : Fld) (b : Bool) : (s.setBit a f b).pending = s.pending := by
  cases b <;> rfl

/-! ### `satInc` changes `regs` and `hw` alone -/

@[simp] theorem State.satInc_clk (s : State) (a : Nat) (f : Fld) : (s.satInc a f).clk = s.clk := by
  simp only [State.satInc]; split <;> rfl
@[simp] theorem State.satInc_ringCore (s : State) (a : Nat) (f : Fld) : (s.satInc a f).ringCore = s.ringCore := by
  simp only [State.satInc]; split <;> rfl
@[simp] theorem State.satInc_ringDebug (s : State) (a : Nat) (f : Fld) : (s.satInc a f).ringDebug = s.ringDebug := by
  simp only [State.satInc]; split <;> rfl
@[simp] theorem State.satInc_ringConfig (s : State) (a : Nat) (f : Fld) : (s.satInc a f).ringConfig = s.ringConfig := by
  simp only [State.satInc]; split <;> rfl
@[simp] theorem State.satInc_dieReset (s : State) (a : Nat) (f : Fld) : (s.satInc a f).dieReset = s.dieReset := by
  simp only [State.satInc]; split <;> rfl
@[simp] theorem State.satInc_share1 (s : State) (a : Nat) (f : Fld) : (s.satInc a f).share1 = s.share1 := by
  simp only [State.satInc]; split <;> rfl
@[simp] theorem State.satInc_fuse (s : State) (a : Nat) (f : Fld) : (s.satInc a f).fuse = s.fuse := by
  simp only [State.satInc]; split <;> rfl
@[simp] theorem State.satInc_pins (s : State) (a : Nat) (f : Fld) : (s.satInc a f).pins = s.pins := by
  simp only [State.satInc]; split <;> rfl
@[simp] theorem State.satInc_pwr (s : State) (a : Nat) (f : Fld) : (s.satInc a f).pwr = s.pwr := by
  simp only [State.satInc]; split <;> rfl
@[simp] theorem State.satInc_ev (s : State) (a : Nat) (f : Fld) : (s.satInc a f).ev = s.ev := by
  simp only [State.satInc]; split <;> rfl
@[simp] theorem State.satInc_pat (s : State) (a : Nat) (f : Fld) : (s.satInc a f).pat = s.pat := by
  simp only [State.satInc]; split <;> rfl
@[simp] theorem State.satInc_be (s : State) (a : Nat) (f : Fld) : (s.satInc a f).be = s.be := by
  simp only [State.satInc]; split <;> rfl
@[simp] theorem State.satInc_nis (s : State) (a : Nat) (f : Fld) : (s.satInc a f).nis = s.nis := by
  simp only [State.satInc]; split <;> rfl
@[simp] theorem State.satInc_lms (s : State) (a : Nat) (f : Fld) : (s.satInc a f).lms = s.lms := by
  simp only [State.satInc]; split <;> rfl
@[simp] theorem State.satInc_mq (s : State) (a : Nat) (f : Fld) : (s.satInc a f).mq = s.mq := by
  simp only [State.satInc]; split <;> rfl
@[simp] theorem State.satInc_rsps (s : State) (a : Nat) (f : Fld) : (s.satInc a f).rsps = s.rsps := by
  simp only [State.satInc]; split <;> rfl
@[simp] theorem State.satInc_ports (s : State) (a : Nat) (f : Fld) : (s.satInc a f).ports = s.ports := by
  simp only [State.satInc]; split <;> rfl
@[simp] theorem State.satInc_lanes (s : State) (a : Nat) (f : Fld) : (s.satInc a f).lanes = s.lanes := by
  simp only [State.satInc]; split <;> rfl
@[simp] theorem State.satInc_gws (s : State) (a : Nat) (f : Fld) : (s.satInc a f).gws = s.gws := by
  simp only [State.satInc]; split <;> rfl
@[simp] theorem State.satInc_remoteIn (s : State) (a : Nat) (f : Fld) : (s.satInc a f).remoteIn = s.remoteIn := by
  simp only [State.satInc]; split <;> rfl
@[simp] theorem State.satInc_cfg (s : State) (a : Nat) (f : Fld) : (s.satInc a f).cfg = s.cfg := by
  simp only [State.satInc]; split <;> rfl
@[simp] theorem State.satInc_cores (s : State) (a : Nat) (f : Fld) : (s.satInc a f).cores = s.cores := by
  simp only [State.satInc]; split <;> rfl
@[simp] theorem State.satInc_banks (s : State) (a : Nat) (f : Fld) : (s.satInc a f).banks = s.banks := by
  simp only [State.satInc]; split <;> rfl
@[simp] theorem State.satInc_qdrs (s : State) (a : Nat) (f : Fld) : (s.satInc a f).qdrs = s.qdrs := by
  simp only [State.satInc]; split <;> rfl
@[simp] theorem State.satInc_qdrSvc (s : State) (a : Nat) (f : Fld) : (s.satInc a f).qdrSvc = s.qdrSvc := by
  simp only [State.satInc]; split <;> rfl
@[simp] theorem State.satInc_dsets (s : State) (a : Nat) (f : Fld) : (s.satInc a f).dsets = s.dsets := by
  simp only [State.satInc]; split <;> rfl
@[simp] theorem State.satInc_km (s : State) (a : Nat) (f : Fld) : (s.satInc a f).km = s.km := by
  simp only [State.satInc]; split <;> rfl
@[simp] theorem State.satInc_ana (s : State) (a : Nat) (f : Fld) : (s.satInc a f).ana = s.ana := by
  simp only [State.satInc]; split <;> rfl
@[simp] theorem State.satInc_tap (s : State) (a : Nat) (f : Fld) : (s.satInc a f).tap = s.tap := by
  simp only [State.satInc]; split <;> rfl
@[simp] theorem State.satInc_mem (s : State) (a : Nat) (f : Fld) : (s.satInc a f).mem = s.mem := by
  simp only [State.satInc]; split <;> rfl
@[simp] theorem State.satInc_free (s : State) (a : Nat) (f : Fld) : (s.satInc a f).free = s.free := by
  simp only [State.satInc]; split <;> rfl
@[simp] theorem State.satInc_pending (s : State) (a : Nat) (f : Fld) : (s.satInc a f).pending = s.pending := by
  simp only [State.satInc]; split <;> rfl

/-! ### `setPending` changes `ev` and `hw` alone -/

@[simp] theorem State.setPending_regs (s : State) (n e : Nat) (b : Bool) : (s.setPending n e b).regs = s.regs := rfl
@[simp] theorem State.setPending_clk (s : State) (n e : Nat) (b : Bool) : (s.setPending n e b).clk = s.clk := rfl
@[simp] theorem State.setPending_ringCore (s : State) (n e : Nat) (b : Bool) : (s.setPending n e b).ringCore = s.ringCore := rfl
@[simp] theorem State.setPending_ringDebug (s : State) (n e : Nat) (b : Bool) : (s.setPending n e b).ringDebug = s.ringDebug := rfl
@[simp] theorem State.setPending_ringConfig (s : State) (n e : Nat) (b : Bool) : (s.setPending n e b).ringConfig = s.ringConfig := rfl
@[simp] theorem State.setPending_dieReset (s : State) (n e : Nat) (b : Bool) : (s.setPending n e b).dieReset = s.dieReset := rfl
@[simp] theorem State.setPending_share1 (s : State) (n e : Nat) (b : Bool) : (s.setPending n e b).share1 = s.share1 := rfl
@[simp] theorem State.setPending_fuse (s : State) (n e : Nat) (b : Bool) : (s.setPending n e b).fuse = s.fuse := rfl
@[simp] theorem State.setPending_pins (s : State) (n e : Nat) (b : Bool) : (s.setPending n e b).pins = s.pins := rfl
@[simp] theorem State.setPending_pwr (s : State) (n e : Nat) (b : Bool) : (s.setPending n e b).pwr = s.pwr := rfl
@[simp] theorem State.setPending_pat (s : State) (n e : Nat) (b : Bool) : (s.setPending n e b).pat = s.pat := rfl
@[simp] theorem State.setPending_be (s : State) (n e : Nat) (b : Bool) : (s.setPending n e b).be = s.be := rfl
@[simp] theorem State.setPending_nis (s : State) (n e : Nat) (b : Bool) : (s.setPending n e b).nis = s.nis := rfl
@[simp] theorem State.setPending_lms (s : State) (n e : Nat) (b : Bool) : (s.setPending n e b).lms = s.lms := rfl
@[simp] theorem State.setPending_mq (s : State) (n e : Nat) (b : Bool) : (s.setPending n e b).mq = s.mq := rfl
@[simp] theorem State.setPending_rsps (s : State) (n e : Nat) (b : Bool) : (s.setPending n e b).rsps = s.rsps := rfl
@[simp] theorem State.setPending_ports (s : State) (n e : Nat) (b : Bool) : (s.setPending n e b).ports = s.ports := rfl
@[simp] theorem State.setPending_lanes (s : State) (n e : Nat) (b : Bool) : (s.setPending n e b).lanes = s.lanes := rfl
@[simp] theorem State.setPending_gws (s : State) (n e : Nat) (b : Bool) : (s.setPending n e b).gws = s.gws := rfl
@[simp] theorem State.setPending_remoteIn (s : State) (n e : Nat) (b : Bool) : (s.setPending n e b).remoteIn = s.remoteIn := rfl
@[simp] theorem State.setPending_cfg (s : State) (n e : Nat) (b : Bool) : (s.setPending n e b).cfg = s.cfg := rfl
@[simp] theorem State.setPending_cores (s : State) (n e : Nat) (b : Bool) : (s.setPending n e b).cores = s.cores := rfl
@[simp] theorem State.setPending_banks (s : State) (n e : Nat) (b : Bool) : (s.setPending n e b).banks = s.banks := rfl
@[simp] theorem State.setPending_qdrs (s : State) (n e : Nat) (b : Bool) : (s.setPending n e b).qdrs = s.qdrs := rfl
@[simp] theorem State.setPending_qdrSvc (s : State) (n e : Nat) (b : Bool) : (s.setPending n e b).qdrSvc = s.qdrSvc := rfl
@[simp] theorem State.setPending_dsets (s : State) (n e : Nat) (b : Bool) : (s.setPending n e b).dsets = s.dsets := rfl
@[simp] theorem State.setPending_km (s : State) (n e : Nat) (b : Bool) : (s.setPending n e b).km = s.km := rfl
@[simp] theorem State.setPending_ana (s : State) (n e : Nat) (b : Bool) : (s.setPending n e b).ana = s.ana := rfl
@[simp] theorem State.setPending_tap (s : State) (n e : Nat) (b : Bool) : (s.setPending n e b).tap = s.tap := rfl
@[simp] theorem State.setPending_mem (s : State) (n e : Nat) (b : Bool) : (s.setPending n e b).mem = s.mem := rfl
@[simp] theorem State.setPending_free (s : State) (n e : Nat) (b : Bool) : (s.setPending n e b).free = s.free := rfl
@[simp] theorem State.setPending_pending (s : State) (n e : Nat) (b : Bool) : (s.setPending n e b).pending = s.pending := rfl

/-! ### `clearPending` changes `ev` and `hw` alone -/

@[simp] theorem State.clearPending_regs (s : State) (n e : Nat) : (s.clearPending n e).regs = s.regs := by
  simp only [State.clearPending]; split <;> rfl
@[simp] theorem State.clearPending_clk (s : State) (n e : Nat) : (s.clearPending n e).clk = s.clk := by
  simp only [State.clearPending]; split <;> rfl
@[simp] theorem State.clearPending_ringCore (s : State) (n e : Nat) : (s.clearPending n e).ringCore = s.ringCore := by
  simp only [State.clearPending]; split <;> rfl
@[simp] theorem State.clearPending_ringDebug (s : State) (n e : Nat) : (s.clearPending n e).ringDebug = s.ringDebug := by
  simp only [State.clearPending]; split <;> rfl
@[simp] theorem State.clearPending_ringConfig (s : State) (n e : Nat) : (s.clearPending n e).ringConfig = s.ringConfig := by
  simp only [State.clearPending]; split <;> rfl
@[simp] theorem State.clearPending_dieReset (s : State) (n e : Nat) : (s.clearPending n e).dieReset = s.dieReset := by
  simp only [State.clearPending]; split <;> rfl
@[simp] theorem State.clearPending_share1 (s : State) (n e : Nat) : (s.clearPending n e).share1 = s.share1 := by
  simp only [State.clearPending]; split <;> rfl
@[simp] theorem State.clearPending_fuse (s : State) (n e : Nat) : (s.clearPending n e).fuse = s.fuse := by
  simp only [State.clearPending]; split <;> rfl
@[simp] theorem State.clearPending_pins (s : State) (n e : Nat) : (s.clearPending n e).pins = s.pins := by
  simp only [State.clearPending]; split <;> rfl
@[simp] theorem State.clearPending_pwr (s : State) (n e : Nat) : (s.clearPending n e).pwr = s.pwr := by
  simp only [State.clearPending]; split <;> rfl
@[simp] theorem State.clearPending_pat (s : State) (n e : Nat) : (s.clearPending n e).pat = s.pat := by
  simp only [State.clearPending]; split <;> rfl
@[simp] theorem State.clearPending_be (s : State) (n e : Nat) : (s.clearPending n e).be = s.be := by
  simp only [State.clearPending]; split <;> rfl
@[simp] theorem State.clearPending_nis (s : State) (n e : Nat) : (s.clearPending n e).nis = s.nis := by
  simp only [State.clearPending]; split <;> rfl
@[simp] theorem State.clearPending_lms (s : State) (n e : Nat) : (s.clearPending n e).lms = s.lms := by
  simp only [State.clearPending]; split <;> rfl
@[simp] theorem State.clearPending_mq (s : State) (n e : Nat) : (s.clearPending n e).mq = s.mq := by
  simp only [State.clearPending]; split <;> rfl
@[simp] theorem State.clearPending_rsps (s : State) (n e : Nat) : (s.clearPending n e).rsps = s.rsps := by
  simp only [State.clearPending]; split <;> rfl
@[simp] theorem State.clearPending_ports (s : State) (n e : Nat) : (s.clearPending n e).ports = s.ports := by
  simp only [State.clearPending]; split <;> rfl
@[simp] theorem State.clearPending_lanes (s : State) (n e : Nat) : (s.clearPending n e).lanes = s.lanes := by
  simp only [State.clearPending]; split <;> rfl
@[simp] theorem State.clearPending_gws (s : State) (n e : Nat) : (s.clearPending n e).gws = s.gws := by
  simp only [State.clearPending]; split <;> rfl
@[simp] theorem State.clearPending_remoteIn (s : State) (n e : Nat) : (s.clearPending n e).remoteIn = s.remoteIn := by
  simp only [State.clearPending]; split <;> rfl
@[simp] theorem State.clearPending_cfg (s : State) (n e : Nat) : (s.clearPending n e).cfg = s.cfg := by
  simp only [State.clearPending]; split <;> rfl
@[simp] theorem State.clearPending_cores (s : State) (n e : Nat) : (s.clearPending n e).cores = s.cores := by
  simp only [State.clearPending]; split <;> rfl
@[simp] theorem State.clearPending_banks (s : State) (n e : Nat) : (s.clearPending n e).banks = s.banks := by
  simp only [State.clearPending]; split <;> rfl
@[simp] theorem State.clearPending_qdrs (s : State) (n e : Nat) : (s.clearPending n e).qdrs = s.qdrs := by
  simp only [State.clearPending]; split <;> rfl
@[simp] theorem State.clearPending_qdrSvc (s : State) (n e : Nat) : (s.clearPending n e).qdrSvc = s.qdrSvc := by
  simp only [State.clearPending]; split <;> rfl
@[simp] theorem State.clearPending_dsets (s : State) (n e : Nat) : (s.clearPending n e).dsets = s.dsets := by
  simp only [State.clearPending]; split <;> rfl
@[simp] theorem State.clearPending_km (s : State) (n e : Nat) : (s.clearPending n e).km = s.km := by
  simp only [State.clearPending]; split <;> rfl
@[simp] theorem State.clearPending_ana (s : State) (n e : Nat) : (s.clearPending n e).ana = s.ana := by
  simp only [State.clearPending]; split <;> rfl
@[simp] theorem State.clearPending_tap (s : State) (n e : Nat) : (s.clearPending n e).tap = s.tap := by
  simp only [State.clearPending]; split <;> rfl
@[simp] theorem State.clearPending_mem (s : State) (n e : Nat) : (s.clearPending n e).mem = s.mem := by
  simp only [State.clearPending]; split <;> rfl
@[simp] theorem State.clearPending_free (s : State) (n e : Nat) : (s.clearPending n e).free = s.free := by
  simp only [State.clearPending]; split <;> rfl
@[simp] theorem State.clearPending_pending (s : State) (n e : Nat) : (s.clearPending n e).pending = s.pending := by
  simp only [State.clearPending]; split <;> rfl

/-! ### `plainWrite` changes `regs` alone -/

@[simp] theorem State.plainWrite_clk (s : State) (a : Nat) (v : W32) : (s.plainWrite a v).clk = s.clk := by
  unfold State.plainWrite; split <;> rfl
@[simp] theorem State.plainWrite_ringCore (s : State) (a : Nat) (v : W32) : (s.plainWrite a v).ringCore = s.ringCore := by
  unfold State.plainWrite; split <;> rfl
@[simp] theorem State.plainWrite_ringDebug (s : State) (a : Nat) (v : W32) : (s.plainWrite a v).ringDebug = s.ringDebug := by
  unfold State.plainWrite; split <;> rfl
@[simp] theorem State.plainWrite_ringConfig (s : State) (a : Nat) (v : W32) : (s.plainWrite a v).ringConfig = s.ringConfig := by
  unfold State.plainWrite; split <;> rfl
@[simp] theorem State.plainWrite_hw (s : State) (a : Nat) (v : W32) : (s.plainWrite a v).hw = s.hw := by
  unfold State.plainWrite; split <;> rfl
@[simp] theorem State.plainWrite_dieReset (s : State) (a : Nat) (v : W32) : (s.plainWrite a v).dieReset = s.dieReset := by
  unfold State.plainWrite; split <;> rfl
@[simp] theorem State.plainWrite_share1 (s : State) (a : Nat) (v : W32) : (s.plainWrite a v).share1 = s.share1 := by
  unfold State.plainWrite; split <;> rfl
@[simp] theorem State.plainWrite_fuse (s : State) (a : Nat) (v : W32) : (s.plainWrite a v).fuse = s.fuse := by
  unfold State.plainWrite; split <;> rfl
@[simp] theorem State.plainWrite_pins (s : State) (a : Nat) (v : W32) : (s.plainWrite a v).pins = s.pins := by
  unfold State.plainWrite; split <;> rfl
@[simp] theorem State.plainWrite_pwr (s : State) (a : Nat) (v : W32) : (s.plainWrite a v).pwr = s.pwr := by
  unfold State.plainWrite; split <;> rfl
@[simp] theorem State.plainWrite_ev (s : State) (a : Nat) (v : W32) : (s.plainWrite a v).ev = s.ev := by
  unfold State.plainWrite; split <;> rfl
@[simp] theorem State.plainWrite_pat (s : State) (a : Nat) (v : W32) : (s.plainWrite a v).pat = s.pat := by
  unfold State.plainWrite; split <;> rfl
@[simp] theorem State.plainWrite_be (s : State) (a : Nat) (v : W32) : (s.plainWrite a v).be = s.be := by
  unfold State.plainWrite; split <;> rfl
@[simp] theorem State.plainWrite_nis (s : State) (a : Nat) (v : W32) : (s.plainWrite a v).nis = s.nis := by
  unfold State.plainWrite; split <;> rfl
@[simp] theorem State.plainWrite_lms (s : State) (a : Nat) (v : W32) : (s.plainWrite a v).lms = s.lms := by
  unfold State.plainWrite; split <;> rfl
@[simp] theorem State.plainWrite_mq (s : State) (a : Nat) (v : W32) : (s.plainWrite a v).mq = s.mq := by
  unfold State.plainWrite; split <;> rfl
@[simp] theorem State.plainWrite_rsps (s : State) (a : Nat) (v : W32) : (s.plainWrite a v).rsps = s.rsps := by
  unfold State.plainWrite; split <;> rfl
@[simp] theorem State.plainWrite_ports (s : State) (a : Nat) (v : W32) : (s.plainWrite a v).ports = s.ports := by
  unfold State.plainWrite; split <;> rfl
@[simp] theorem State.plainWrite_lanes (s : State) (a : Nat) (v : W32) : (s.plainWrite a v).lanes = s.lanes := by
  unfold State.plainWrite; split <;> rfl
@[simp] theorem State.plainWrite_gws (s : State) (a : Nat) (v : W32) : (s.plainWrite a v).gws = s.gws := by
  unfold State.plainWrite; split <;> rfl
@[simp] theorem State.plainWrite_remoteIn (s : State) (a : Nat) (v : W32) : (s.plainWrite a v).remoteIn = s.remoteIn := by
  unfold State.plainWrite; split <;> rfl
@[simp] theorem State.plainWrite_cfg (s : State) (a : Nat) (v : W32) : (s.plainWrite a v).cfg = s.cfg := by
  unfold State.plainWrite; split <;> rfl
@[simp] theorem State.plainWrite_cores (s : State) (a : Nat) (v : W32) : (s.plainWrite a v).cores = s.cores := by
  unfold State.plainWrite; split <;> rfl
@[simp] theorem State.plainWrite_banks (s : State) (a : Nat) (v : W32) : (s.plainWrite a v).banks = s.banks := by
  unfold State.plainWrite; split <;> rfl
@[simp] theorem State.plainWrite_qdrs (s : State) (a : Nat) (v : W32) : (s.plainWrite a v).qdrs = s.qdrs := by
  unfold State.plainWrite; split <;> rfl
@[simp] theorem State.plainWrite_qdrSvc (s : State) (a : Nat) (v : W32) : (s.plainWrite a v).qdrSvc = s.qdrSvc := by
  unfold State.plainWrite; split <;> rfl
@[simp] theorem State.plainWrite_dsets (s : State) (a : Nat) (v : W32) : (s.plainWrite a v).dsets = s.dsets := by
  unfold State.plainWrite; split <;> rfl
@[simp] theorem State.plainWrite_km (s : State) (a : Nat) (v : W32) : (s.plainWrite a v).km = s.km := by
  unfold State.plainWrite; split <;> rfl
@[simp] theorem State.plainWrite_ana (s : State) (a : Nat) (v : W32) : (s.plainWrite a v).ana = s.ana := by
  unfold State.plainWrite; split <;> rfl
@[simp] theorem State.plainWrite_tap (s : State) (a : Nat) (v : W32) : (s.plainWrite a v).tap = s.tap := by
  unfold State.plainWrite; split <;> rfl
@[simp] theorem State.plainWrite_mem (s : State) (a : Nat) (v : W32) : (s.plainWrite a v).mem = s.mem := by
  unfold State.plainWrite; split <;> rfl
@[simp] theorem State.plainWrite_free (s : State) (a : Nat) (v : W32) : (s.plainWrite a v).free = s.free := by
  unfold State.plainWrite; split <;> rfl
@[simp] theorem State.plainWrite_pending (s : State) (a : Nat) (v : W32) : (s.plainWrite a v).pending = s.pending := by
  unfold State.plainWrite; split <;> rfl

/-! ### `setMaster` changes the records of the ring masters alone -/

@[simp] theorem State.setMaster_regs (s : State) (m : Rm) (r : RingMaster) : (s.setMaster m r).regs = s.regs := by cases m <;> rfl
@[simp] theorem State.setMaster_clk (s : State) (m : Rm) (r : RingMaster) : (s.setMaster m r).clk = s.clk := by cases m <;> rfl
@[simp] theorem State.setMaster_hw (s : State) (m : Rm) (r : RingMaster) : (s.setMaster m r).hw = s.hw := by cases m <;> rfl
@[simp] theorem State.setMaster_dieReset (s : State) (m : Rm) (r : RingMaster) : (s.setMaster m r).dieReset = s.dieReset := by cases m <;> rfl
@[simp] theorem State.setMaster_share1 (s : State) (m : Rm) (r : RingMaster) : (s.setMaster m r).share1 = s.share1 := by cases m <;> rfl
@[simp] theorem State.setMaster_fuse (s : State) (m : Rm) (r : RingMaster) : (s.setMaster m r).fuse = s.fuse := by cases m <;> rfl
@[simp] theorem State.setMaster_pins (s : State) (m : Rm) (r : RingMaster) : (s.setMaster m r).pins = s.pins := by cases m <;> rfl
@[simp] theorem State.setMaster_pwr (s : State) (m : Rm) (r : RingMaster) : (s.setMaster m r).pwr = s.pwr := by cases m <;> rfl
@[simp] theorem State.setMaster_ev (s : State) (m : Rm) (r : RingMaster) : (s.setMaster m r).ev = s.ev := by cases m <;> rfl
@[simp] theorem State.setMaster_pat (s : State) (m : Rm) (r : RingMaster) : (s.setMaster m r).pat = s.pat := by cases m <;> rfl
@[simp] theorem State.setMaster_be (s : State) (m : Rm) (r : RingMaster) : (s.setMaster m r).be = s.be := by cases m <;> rfl
@[simp] theorem State.setMaster_nis (s : State) (m : Rm) (r : RingMaster) : (s.setMaster m r).nis = s.nis := by cases m <;> rfl
@[simp] theorem State.setMaster_lms (s : State) (m : Rm) (r : RingMaster) : (s.setMaster m r).lms = s.lms := by cases m <;> rfl
@[simp] theorem State.setMaster_mq (s : State) (m : Rm) (r : RingMaster) : (s.setMaster m r).mq = s.mq := by cases m <;> rfl
@[simp] theorem State.setMaster_rsps (s : State) (m : Rm) (r : RingMaster) : (s.setMaster m r).rsps = s.rsps := by cases m <;> rfl
@[simp] theorem State.setMaster_ports (s : State) (m : Rm) (r : RingMaster) : (s.setMaster m r).ports = s.ports := by cases m <;> rfl
@[simp] theorem State.setMaster_lanes (s : State) (m : Rm) (r : RingMaster) : (s.setMaster m r).lanes = s.lanes := by cases m <;> rfl
@[simp] theorem State.setMaster_gws (s : State) (m : Rm) (r : RingMaster) : (s.setMaster m r).gws = s.gws := by cases m <;> rfl
@[simp] theorem State.setMaster_remoteIn (s : State) (m : Rm) (r : RingMaster) : (s.setMaster m r).remoteIn = s.remoteIn := by cases m <;> rfl
@[simp] theorem State.setMaster_cfg (s : State) (m : Rm) (r : RingMaster) : (s.setMaster m r).cfg = s.cfg := by cases m <;> rfl
@[simp] theorem State.setMaster_cores (s : State) (m : Rm) (r : RingMaster) : (s.setMaster m r).cores = s.cores := by cases m <;> rfl
@[simp] theorem State.setMaster_banks (s : State) (m : Rm) (r : RingMaster) : (s.setMaster m r).banks = s.banks := by cases m <;> rfl
@[simp] theorem State.setMaster_qdrs (s : State) (m : Rm) (r : RingMaster) : (s.setMaster m r).qdrs = s.qdrs := by cases m <;> rfl
@[simp] theorem State.setMaster_qdrSvc (s : State) (m : Rm) (r : RingMaster) : (s.setMaster m r).qdrSvc = s.qdrSvc := by cases m <;> rfl
@[simp] theorem State.setMaster_dsets (s : State) (m : Rm) (r : RingMaster) : (s.setMaster m r).dsets = s.dsets := by cases m <;> rfl
@[simp] theorem State.setMaster_km (s : State) (m : Rm) (r : RingMaster) : (s.setMaster m r).km = s.km := by cases m <;> rfl
@[simp] theorem State.setMaster_ana (s : State) (m : Rm) (r : RingMaster) : (s.setMaster m r).ana = s.ana := by cases m <;> rfl
@[simp] theorem State.setMaster_tap (s : State) (m : Rm) (r : RingMaster) : (s.setMaster m r).tap = s.tap := by cases m <;> rfl
@[simp] theorem State.setMaster_mem (s : State) (m : Rm) (r : RingMaster) : (s.setMaster m r).mem = s.mem := by cases m <;> rfl
@[simp] theorem State.setMaster_free (s : State) (m : Rm) (r : RingMaster) : (s.setMaster m r).free = s.free := by cases m <;> rfl
@[simp] theorem State.setMaster_pending (s : State) (m : Rm) (r : RingMaster) : (s.setMaster m r).pending = s.pending := by cases m <;> rfl
@[simp] theorem State.setMaster_master (s : State) (m : Rm) (r : RingMaster) : (s.setMaster m r).master m = r := by cases m <;> rfl
theorem State.setMaster_master_ne (s : State) {m n : Rm} (r : RingMaster) (h : n ≠ m) :
    (s.setMaster m r).master n = s.master n := by cases m <;> cases n <;> first | rfl | exact absurd rfl h

/-! ### A draw of a free value changes the counter alone -/

@[simp] theorem State.fresh_regs (s : State) (w : Nat) : (State.fresh w s).2.regs = s.regs := rfl
@[simp] theorem State.freshB_regs (s : State) : s.freshB.2.regs = s.regs := rfl
@[simp] theorem State.fresh_clk (s : State) (w : Nat) : (State.fresh w s).2.clk = s.clk := rfl
@[simp] theorem State.freshB_clk (s : State) : s.freshB.2.clk = s.clk := rfl
@[simp] theorem State.fresh_ringCore (s : State) (w : Nat) : (State.fresh w s).2.ringCore = s.ringCore := rfl
@[simp] theorem State.freshB_ringCore (s : State) : s.freshB.2.ringCore = s.ringCore := rfl
@[simp] theorem State.fresh_ringDebug (s : State) (w : Nat) : (State.fresh w s).2.ringDebug = s.ringDebug := rfl
@[simp] theorem State.freshB_ringDebug (s : State) : s.freshB.2.ringDebug = s.ringDebug := rfl
@[simp] theorem State.fresh_ringConfig (s : State) (w : Nat) : (State.fresh w s).2.ringConfig = s.ringConfig := rfl
@[simp] theorem State.freshB_ringConfig (s : State) : s.freshB.2.ringConfig = s.ringConfig := rfl
@[simp] theorem State.fresh_hw (s : State) (w : Nat) : (State.fresh w s).2.hw = s.hw := rfl
@[simp] theorem State.freshB_hw (s : State) : s.freshB.2.hw = s.hw := rfl
@[simp] theorem State.fresh_dieReset (s : State) (w : Nat) : (State.fresh w s).2.dieReset = s.dieReset := rfl
@[simp] theorem State.freshB_dieReset (s : State) : s.freshB.2.dieReset = s.dieReset := rfl
@[simp] theorem State.fresh_share1 (s : State) (w : Nat) : (State.fresh w s).2.share1 = s.share1 := rfl
@[simp] theorem State.freshB_share1 (s : State) : s.freshB.2.share1 = s.share1 := rfl
@[simp] theorem State.fresh_fuse (s : State) (w : Nat) : (State.fresh w s).2.fuse = s.fuse := rfl
@[simp] theorem State.freshB_fuse (s : State) : s.freshB.2.fuse = s.fuse := rfl
@[simp] theorem State.fresh_pins (s : State) (w : Nat) : (State.fresh w s).2.pins = s.pins := rfl
@[simp] theorem State.freshB_pins (s : State) : s.freshB.2.pins = s.pins := rfl
@[simp] theorem State.fresh_pwr (s : State) (w : Nat) : (State.fresh w s).2.pwr = s.pwr := rfl
@[simp] theorem State.freshB_pwr (s : State) : s.freshB.2.pwr = s.pwr := rfl
@[simp] theorem State.fresh_ev (s : State) (w : Nat) : (State.fresh w s).2.ev = s.ev := rfl
@[simp] theorem State.freshB_ev (s : State) : s.freshB.2.ev = s.ev := rfl
@[simp] theorem State.fresh_pat (s : State) (w : Nat) : (State.fresh w s).2.pat = s.pat := rfl
@[simp] theorem State.freshB_pat (s : State) : s.freshB.2.pat = s.pat := rfl
@[simp] theorem State.fresh_be (s : State) (w : Nat) : (State.fresh w s).2.be = s.be := rfl
@[simp] theorem State.freshB_be (s : State) : s.freshB.2.be = s.be := rfl
@[simp] theorem State.fresh_nis (s : State) (w : Nat) : (State.fresh w s).2.nis = s.nis := rfl
@[simp] theorem State.freshB_nis (s : State) : s.freshB.2.nis = s.nis := rfl
@[simp] theorem State.fresh_lms (s : State) (w : Nat) : (State.fresh w s).2.lms = s.lms := rfl
@[simp] theorem State.freshB_lms (s : State) : s.freshB.2.lms = s.lms := rfl
@[simp] theorem State.fresh_mq (s : State) (w : Nat) : (State.fresh w s).2.mq = s.mq := rfl
@[simp] theorem State.freshB_mq (s : State) : s.freshB.2.mq = s.mq := rfl
@[simp] theorem State.fresh_rsps (s : State) (w : Nat) : (State.fresh w s).2.rsps = s.rsps := rfl
@[simp] theorem State.freshB_rsps (s : State) : s.freshB.2.rsps = s.rsps := rfl
@[simp] theorem State.fresh_ports (s : State) (w : Nat) : (State.fresh w s).2.ports = s.ports := rfl
@[simp] theorem State.freshB_ports (s : State) : s.freshB.2.ports = s.ports := rfl
@[simp] theorem State.fresh_lanes (s : State) (w : Nat) : (State.fresh w s).2.lanes = s.lanes := rfl
@[simp] theorem State.freshB_lanes (s : State) : s.freshB.2.lanes = s.lanes := rfl
@[simp] theorem State.fresh_gws (s : State) (w : Nat) : (State.fresh w s).2.gws = s.gws := rfl
@[simp] theorem State.freshB_gws (s : State) : s.freshB.2.gws = s.gws := rfl
@[simp] theorem State.fresh_remoteIn (s : State) (w : Nat) : (State.fresh w s).2.remoteIn = s.remoteIn := rfl
@[simp] theorem State.freshB_remoteIn (s : State) : s.freshB.2.remoteIn = s.remoteIn := rfl
@[simp] theorem State.fresh_cfg (s : State) (w : Nat) : (State.fresh w s).2.cfg = s.cfg := rfl
@[simp] theorem State.freshB_cfg (s : State) : s.freshB.2.cfg = s.cfg := rfl
@[simp] theorem State.fresh_cores (s : State) (w : Nat) : (State.fresh w s).2.cores = s.cores := rfl
@[simp] theorem State.freshB_cores (s : State) : s.freshB.2.cores = s.cores := rfl
@[simp] theorem State.fresh_banks (s : State) (w : Nat) : (State.fresh w s).2.banks = s.banks := rfl
@[simp] theorem State.freshB_banks (s : State) : s.freshB.2.banks = s.banks := rfl
@[simp] theorem State.fresh_qdrs (s : State) (w : Nat) : (State.fresh w s).2.qdrs = s.qdrs := rfl
@[simp] theorem State.freshB_qdrs (s : State) : s.freshB.2.qdrs = s.qdrs := rfl
@[simp] theorem State.fresh_qdrSvc (s : State) (w : Nat) : (State.fresh w s).2.qdrSvc = s.qdrSvc := rfl
@[simp] theorem State.freshB_qdrSvc (s : State) : s.freshB.2.qdrSvc = s.qdrSvc := rfl
@[simp] theorem State.fresh_dsets (s : State) (w : Nat) : (State.fresh w s).2.dsets = s.dsets := rfl
@[simp] theorem State.freshB_dsets (s : State) : s.freshB.2.dsets = s.dsets := rfl
@[simp] theorem State.fresh_km (s : State) (w : Nat) : (State.fresh w s).2.km = s.km := rfl
@[simp] theorem State.freshB_km (s : State) : s.freshB.2.km = s.km := rfl
@[simp] theorem State.fresh_ana (s : State) (w : Nat) : (State.fresh w s).2.ana = s.ana := rfl
@[simp] theorem State.freshB_ana (s : State) : s.freshB.2.ana = s.ana := rfl
@[simp] theorem State.fresh_tap (s : State) (w : Nat) : (State.fresh w s).2.tap = s.tap := rfl
@[simp] theorem State.freshB_tap (s : State) : s.freshB.2.tap = s.tap := rfl
@[simp] theorem State.fresh_mem (s : State) (w : Nat) : (State.fresh w s).2.mem = s.mem := rfl
@[simp] theorem State.freshB_mem (s : State) : s.freshB.2.mem = s.mem := rfl
@[simp] theorem State.fresh_pending (s : State) (w : Nat) : (State.fresh w s).2.pending = s.pending := rfl
@[simp] theorem State.freshB_pending (s : State) : s.freshB.2.pending = s.pending := rfl

end Sys2Proof.Machine
end

