-- ==== Sys2Proof/Laws/Tables.lean ====
section
/-! SUPPORT. Sparse tables, memory and registers: a read after a write, a write that leaves other keys alone, and the canonical
form that every operation keeps. -/

namespace Sys2Proof.Machine

variable {α : Type} [DecidableEq α] {d : Nat → α}

/-! ### Tables -/

/-- A table in form above a bound is in form above every lower one. -/
theorem Tab.wfFrom_mono {t : Tab α} {lo lo' : Nat} (h : Tab.wfFrom d lo t = true) (hl : lo' ≤ lo) :
    Tab.wfFrom d lo' t = true := by
  cases t with
  | nil => rfl
  | cons e r =>
    simp only [Tab.wfFrom, Bool.and_eq_true, decide_eq_true_eq] at h ⊢
    exact ⟨⟨by omega, h.1.2⟩, h.2⟩

/-- A key below the bound reads its default. -/
theorem tget_below {t : Tab α} {lo k : Nat} (h : Tab.wfFrom d lo t = true) (hk : k < lo) : tget d t k = d k := by
  cases t with
  | nil => rfl
  | cons e r =>
    simp only [Tab.wfFrom, Bool.and_eq_true, decide_eq_true_eq] at h
    have h1 : ¬ k = e.1 := by omega
    have h2 : k < e.1 := by omega
    simp [tget, h1, h2]

/-- A read of the key just stored gives the stored value. -/
theorem tget_tput_same {t : Tab α} {lo : Nat} (h : Tab.wfFrom d lo t = true) (k : Nat) (v : α) :
    tget d (tput d t k v) k = v := by
  induction t generalizing lo with
  | nil =>
    by_cases hv : v = d k
    · simp [tput, tget, hv]
    · simp [tput, tget, hv]
  | cons e r ih =>
    simp only [Tab.wfFrom, Bool.and_eq_true, decide_eq_true_eq] at h
    rcases Nat.lt_trichotomy k e.1 with hk | hk | hk
    · by_cases hv : v = d k
      · have h1 : ¬ k = e.1 := by omega
        simp [tput, tget, hk, hv, h1]
      · simp [tput, tget, hk, hv]
    · by_cases hv : v = d k
      · have := tget_below h.2 (k := k) (by omega)
        simp [tput, ← hk, hv, this]
      · simp [tput, tget, ← hk, hv]
    · have h1 : ¬ k < e.1 := by omega
      have h2 : ¬ k = e.1 := by omega
      simp [tput, tget, h1, h2, ih h.2]

/-- A store leaves every other key as it was. -/
theorem tget_tput_ne {t : Tab α} {lo : Nat} (h : Tab.wfFrom d lo t = true) {k j : Nat} (hj : j ≠ k) (v : α) :
    tget d (tput d t k v) j = tget d t j := by
  induction t generalizing lo with
  | nil =>
    by_cases hv : v = d k
    · simp [tput, tget, hv]
    · simp [tput, tget, hv, hj]
  | cons e r ih =>
    simp only [Tab.wfFrom, Bool.and_eq_true, decide_eq_true_eq] at h
    rcases Nat.lt_trichotomy k e.1 with hk | hk | hk
    · by_cases hv : v = d k
      · simp [tput, hk, hv]
      · by_cases hlt : j < k
        · have h1 : ¬ j = e.1 := by omega
          have h2 : j < e.1 := by omega
          simp [tput, tget, hk, hv, hj, hlt, h1, h2]
        · simp [tput, tget, hk, hv, hj, hlt]
    · by_cases hv : v = d k
      · by_cases hlt : j < e.1
        · have h0 := tget_below h.2 (k := j) (by omega)
          have h1 : ¬ j = e.1 := by omega
          simp [tput, tget, ← hk, hv, h0, hj, hk ▸ hlt]
        · have h1 : ¬ j = e.1 := by omega
          simp [tput, tget, ← hk, hv, hj, hk ▸ hlt]
      · simp [tput, tget, ← hk, hv, hj]
    · have h1 : ¬ k < e.1 := by omega
      have h2 : ¬ k = e.1 := by omega
      simp [tput, tget, h1, h2, ih h.2]

/-- A store keeps the canonical form. -/
theorem tput_wfFrom {t : Tab α} {lo k : Nat} (h : Tab.wfFrom d lo t = true) (hk : lo ≤ k) (v : α) :
    Tab.wfFrom d lo (tput d t k v) = true := by
  induction t generalizing lo with
  | nil =>
    by_cases hv : v = d k
    · simp [tput, Tab.wfFrom, hv]
    · simp [tput, Tab.wfFrom, hv, hk]
  | cons e r ih =>
    have h0 := h
    simp only [Tab.wfFrom, Bool.and_eq_true, decide_eq_true_eq] at h
    rcases Nat.lt_trichotomy k e.1 with hlt | heq | hgt
    · by_cases hv : v = d k
      · simpa [tput, hlt, hv] using h0
      · have h3 : k + 1 ≤ e.1 := by omega
        simp [tput, Tab.wfFrom, hlt, hv, hk, h3, h.1.2, h.2]
    · by_cases hv : v = d k
      · have := Tab.wfFrom_mono h.2 (lo' := lo) (by omega)
        simpa [tput, ← heq, hv] using this
      · simp [tput, Tab.wfFrom, heq, heq ▸ hv, heq ▸ hk, h.2]
    · have h1 : ¬ k < e.1 := by omega
      have h2 : ¬ k = e.1 := by omega
      simp [tput, Tab.wfFrom, h1, h2, h.1.1, h.1.2, ih h.2 (by omega)]

/-- A store keeps the canonical form. -/
theorem tput_wf {t : Tab α} (h : Tab.wf d t = true) (k : Nat) (v : α) : Tab.wf d (tput d t k v) = true :=
  tput_wfFrom h (Nat.zero_le k) v

/-- Keeping some entries keeps the canonical form. -/
theorem tkeep_wfFrom {t : Tab α} {lo : Nat} (h : Tab.wfFrom d lo t = true) (p : Nat → Bool) :
    Tab.wfFrom d lo (tkeep p t) = true := by
  induction t generalizing lo with
  | nil => rfl
  | cons e r ih =>
    simp only [Tab.wfFrom, Bool.and_eq_true, decide_eq_true_eq] at h
    by_cases hp : p e.1 = true
    · have := ih h.2
      simp only [tkeep] at this ⊢
      simp [hp, Tab.wfFrom, h.1.1, h.1.2, this]
    · have := Tab.wfFrom_mono (ih h.2) (lo' := lo) (by omega)
      simpa [tkeep, hp] using this

/-- Keeping some entries keeps the canonical form. -/
theorem tkeep_wf {t : Tab α} (h : Tab.wf d t = true) (p : Nat → Bool) : Tab.wf d (tkeep p t) = true := tkeep_wfFrom h p

/-- A key that is kept reads as before; one that is not reads its default. -/
theorem tget_tkeep {t : Tab α} {lo : Nat} (h : Tab.wfFrom d lo t = true) (p : Nat → Bool) (k : Nat) :
    tget d (tkeep p t) k = if p k then tget d t k else d k := by
  induction t generalizing lo with
  | nil => simp [tkeep, tget]
  | cons e r ih =>
    simp only [Tab.wfFrom, Bool.and_eq_true, decide_eq_true_eq] at h
    have hr := tkeep_wfFrom h.2 p
    have ih := ih h.2
    have hcons : tkeep p (e :: r) = if p e.1 then e :: tkeep p r else tkeep p r := by
      by_cases hp : p e.1 = true <;> simp [tkeep, hp]
    rw [hcons]
    rcases Nat.lt_trichotomy k e.1 with hk | hk | hk
    · have h1 : ¬ k = e.1 := by omega
      have h2 := tget_below hr (k := k) (by omega)
      by_cases hp : p e.1 = true <;> simp [hp, tget, h1, hk, h2]
    · subst hk
      have h2 := tget_below hr (k := e.1) (by omega)
      by_cases hp : p e.1 = true <;> simp [hp, tget, h2]
    · have h1 : ¬ k < e.1 := by omega
      have h2 : ¬ k = e.1 := by omega
      by_cases hp : p e.1 = true <;> simp [hp, tget, h1, h2, ih]

/-! ### Memory -/

/-- A byte just written reads back. -/
theorem State.setByte_byte {s : State} (h : Memory.wf s.mem = true) (a : Nat) (v : Byte) : (s.setByte a v).byte a = v :=
  tget_tput_same h a v

/-- A write of one byte leaves every other byte alone. -/
theorem State.setByte_byte_ne {s : State} (h : Memory.wf s.mem = true) {a b : Nat} (hb : b ≠ a) (v : Byte) :
    (s.setByte a v).byte b = s.byte b := tget_tput_ne h hb v

/-- A write of one byte keeps the canonical form. -/
theorem State.setByte_wf {s : State} (h : Memory.wf s.mem = true) (a : Nat) (v : Byte) :
    Memory.wf (s.setByte a v).mem = true := tput_wf h a v

/-- A write of several bytes keeps the canonical form. -/
theorem State.setBytes_wf {s : State} (h : Memory.wf s.mem = true) (a : Nat) (l : List Byte) :
    Memory.wf (s.setBytes a l).mem = true := by
  induction l generalizing s a with
  | nil => exact h
  | cons b r ih => exact ih (State.setByte_wf h a b) (a + 1)

/-- A write of several bytes leaves every byte outside them alone. -/
theorem State.setBytes_byte_out {s : State} (h : Memory.wf s.mem = true) {a x : Nat} {l : List Byte}
    (hx : x < a ∨ a + l.length ≤ x) : (s.setBytes a l).byte x = s.byte x := by
  induction l generalizing s a with
  | nil => rfl
  | cons b r ih =>
    simp only [List.length_cons] at hx
    have h1 := ih (State.setByte_wf h a b) (a := a + 1) (by omega)
    have h2 := State.setByte_byte_ne h (a := a) (b := x) (by omega) b
    simpa [State.setBytes, h2] using h1

/-- A byte within the written ones reads back. -/
theorem State.setBytes_byte {s : State} (h : Memory.wf s.mem = true) (a : Nat) (l : List Byte) (i : Nat) (hi : i < l.length) :
    (s.setBytes a l).byte (a + i) = l[i] := by
  induction l generalizing s a i with
  | nil => exact absurd hi (by simp)
  | cons b r ih =>
    have hw := State.setByte_wf h a b
    cases i with
    | zero =>
      have h1 := State.setBytes_byte_out hw (a := a + 1) (x := a) (l := r) (by omega)
      simpa [State.setBytes, h1] using State.setByte_byte h a b
    | succ i =>
      have h1 := ih hw (a + 1) i (by simpa using hi)
      have h2 : a + 1 + i = a + (i + 1) := by omega
      simpa [State.setBytes, h2] using h1

/-- The memory after reset is in canonical form. -/
theorem State.reset_mem_wf : Memory.wf State.reset.mem = true := rfl

/-! ### Registers -/

/-- A register just written reads back. -/
theorem State.setReg_reg {s : State} (h : Tab.wf regReset s.regs = true) (a : Nat) (v : W32) : (s.setReg a v).reg a = v :=
  tget_tput_same h a v

/-- A write of one register leaves every other one alone. -/
theorem State.setReg_reg_ne {s : State} (h : Tab.wf regReset s.regs = true) {a b : Nat} (hb : b ≠ a) (v : W32) :
    (s.setReg a v).reg b = s.reg b := tget_tput_ne h hb v

/-- A write of one register keeps the canonical form. -/
theorem State.setReg_wf {s : State} (h : Tab.wf regReset s.regs = true) (a : Nat) (v : W32) :
    Tab.wf regReset (s.setReg a v).regs = true := tput_wf h a v

/-- Resetting registers keeps the canonical form. -/
theorem State.resetRegs_wf {s : State} (h : Tab.wf regReset s.regs = true) (p : Nat → Bool) :
    Tab.wf regReset (s.resetRegs p).regs = true :=
  tkeep_wf (t := s.regs) h (fun a => !p a)

/-- After a reset of some registers those read their reset values, and the others what they read before. -/
theorem State.resetRegs_reg {s : State} (h : Tab.wf regReset s.regs = true) (p : Nat → Bool) (a : Nat) :
    (s.resetRegs p).reg a = if p a then regReset a else s.reg a := by
  have := tget_tkeep (d := regReset) h (fun a => !p a) a
  by_cases hp : p a = true <;> simpa [State.resetRegs, State.reg, hp] using this

end Sys2Proof.Machine
end

