-- ==== Sys2Proof/Laws/Shared.lean ====
section
/-! SUPPORT. What each shared operation can do, said once: ring accesses, events, flags, fields. -/

namespace Sys2Proof.Machine

/-! ### Ring accesses (R21, R22) -/

/-- The parts of a control address name it. -/
theorem ra_parts (a : Nat) : ra (a / 4294967296) (a / 65536 % 65536) (a % 65536) = a := by
  simp only [ra]; omega

/-- A master with an access outstanding makes no other. -/
theorem ringDo_busy {m : Rm} {r : RingReq} {f : State → Answer} {s : State} (h : (s.master m).busy = true) :
    ringDo m r f s = s := by simp [ringDo, h]

/-- A closed ring answers `TIMEOUT` at once; the target does nothing. -/
theorem ringDo_closed {m : Rm} {r : RingReq} {f : State → Answer} {s : State} (h : (s.master m).busy = false)
    (hc : s.ringClosed r.die = true) :
    ringDo m r f s = s.setMaster m { s.master m with
      busy := true, req := r, grantAt := s.now, answered := true, ansStatus := .timeout, ansData := 0#32, waiting := false
      granted := false } := by
  simp [ringDo, h, hc]

/-- Where the root has granted another access in this ring cycle, the access waits for its grant. -/
theorem ringDo_queues {m : Rm} {r : RingReq} {f : State → Answer} {s : State} (h : (s.master m).busy = false)
    (hc : s.ringClosed r.die = false) (hg : s.ringGranted = true) :
    ringDo m r f s = s.setMaster m { s.master m with
      busy := true, req := r, grantAt := s.now, answered := false, waiting := true, granted := false } := by
  simp [ringDo, h, hc, hg]

/-- A share that is not carried leaves the granted access waiting. -/
theorem ringDo_waits {m : Rm} {r : RingReq} {f : State → Answer} {s : State} (h : (s.master m).busy = false)
    (hc : s.ringClosed r.die = false) (hg : s.ringGranted = false) (hr : s.reach r.die = false) :
    ringDo m r f s = s.setMaster m { s.master m with
      busy := true, req := r, grantAt := s.now, answered := false, waiting := false, granted := true } := by
  simp [ringDo, ringGrant, h, hc, hg, hr]

/-- The target gates nothing where a register is and its domain is on. -/
theorem gated_on {r : RingReq} {f : State → Answer} {s : State} (h : (regRow (ringAddr r)).isSome = true)
    (hd : (blockDom r.die r.block r.off).all s.domOn = true) : gated r f s = f s := by
  unfold gated
  split
  · next e => rw [e] at h; exact absurd h Bool.false_ne_true
  · split
    · next dom e =>
      rw [e] at hd
      exact if_pos hd
    · rfl

/-- A write that the ring admits is performed at its target, and the master holds the target's answer. -/
theorem ringPut_ready {m : Rm} {a : Nat} {v : W32} {f : State → Answer} {s : State} (h : s.ringReady m a = true) :
    ringPut m a v f s = (f s).1.setMaster m { s.answered m a v (f s).2.1 with ansData := (f s).2.2 } := by
  simp only [State.ringReady, Bool.and_eq_true, Bool.not_eq_eq_eq_not, Bool.not_true] at h
  obtain ⟨⟨⟨⟨⟨h1, hg1⟩, h2⟩, h3⟩, h4⟩, h5⟩ := h
  have hg := gated_on (r := { die := a / 4294967296, block := a / 65536 % 65536, off := a % 65536, write := true, data := v })
    (f := f) (s := s) (by simpa [ringAddr, ra_parts] using h4) h5
  simp [ringPut, ringDo, ringGrant, h1, hg1, h2, h3, hg, State.answered]

/-- A write that the ring admits and the target performs. -/
theorem ringPut_wrote {m : Rm} {a : Nat} {v : W32} {f : State → Answer} {s t : State} (h : s.ringReady m a = true)
    (hf : f s = wrote t) : ringPut m a v f s = t.setMaster m (s.answered m a v .ok) := by
  simp [ringPut_ready h, hf, wrote, State.answered]

/-- A write that the ring admits and the target refuses changes the master's record alone. -/
theorem ringPut_refused {m : Rm} {a : Nat} {v : W32} {f : State → Answer} {s : State} (h : s.ringReady m a = true)
    (hf : f s = refuse s) : ringPut m a v f s = s.setMaster m (s.answered m a v .refused) := by
  simp [ringPut_ready h, hf, refuse, State.answered]

/-! ### Events (R379 to R384) -/

/-- A pulse on a pin changes the pins alone. -/
theorem State.outOccur_shape (s : State) (i : Nat) : ∃ e, s.outOccur i = { s with ev := e } := by
  simp only [State.outOccur]
  repeat' split
  all_goals exact ⟨_, rfl⟩

/-- Setting pending bits changes the event state and the record of what the hardware sets alone. -/
theorem State.pendCores_shape (s : State) (l : List Nat) (p : Nat → Bool) (e : Nat) :
    ∃ x h, l.foldl (fun t n => if p n then t.setPending n e true else t) s = { s with ev := x, hw := h } := by
  induction l generalizing s with
  | nil => exact ⟨s.ev, s.hw, rfl⟩
  | cons n r ih =>
    simp only [List.foldl_cons]
    by_cases h : p n = true
    · obtain ⟨x, y, hx⟩ := ih (s.setPending n e true)
      exact ⟨x, y, by rw [if_pos h, hx]; rfl⟩
    · obtain ⟨x, y, hx⟩ := ih s
      exact ⟨x, y, by rw [if_neg h, hx]⟩

/-- The event controller changes registers, the event state and the record of what the hardware sets alone. -/
theorem State.raiseCore_shape (s : State) (e : Nat) : ∃ r x h, s.raiseCore e = { s with regs := r, ev := x, hw := h } := by
  simp only [State.raiseCore]
  generalize hs : s.setBit (aEV_RAW (e / 32)) ⟨e % 32, 1⟩ true = t
  have ht : ∃ r h, t = { s with regs := r, hw := h } := ⟨_, _, hs.symm⟩
  obtain ⟨r, h, rfl⟩ := ht
  obtain ⟨x, y, hx⟩ := State.pendCores_shape { s with regs := r, hw := h } (List.range 8)
    (fun n => (getF (State.reg { s with regs := r, hw := h } (aEV_ROUTE e)) fEV_ROUTE_CORES).testBit n) e
  rw [hx]
  split
  · obtain ⟨z, hz⟩ := State.outOccur_shape { s with regs := r, ev := x, hw := y }
      (getF (State.reg { s with regs := r, hw := h } (aEV_ROUTE e)) fEV_ROUTE_OUT)
    exact ⟨r, z, y, hz⟩
  · exact ⟨r, x, y, rfl⟩

/-- A saturating count changes the registers and the record of what the hardware sets alone. -/
theorem State.satInc_shape (s : State) (a : Nat) (f : Fld) : ∃ r h, s.satInc a f = { s with regs := r, hw := h } := by
  simp only [State.satInc]
  split
  · exact ⟨_, _, rfl⟩
  · exact ⟨s.regs, _, rfl⟩

/-- Queueing a channel message changes registers, the event state and the record of what the hardware sets alone. -/
theorem State.queueMsg_shape (s : State) (e : Nat) : ∃ r x h, s.queueMsg e = { s with regs := r, ev := x, hw := h } := by
  simp only [State.queueMsg]
  split
  · exact ⟨s.regs, s.ev, s.hw, rfl⟩
  · split
    · exact ⟨s.regs, _, s.hw, rfl⟩
    · obtain ⟨r, h, hr⟩ := State.satInc_shape s aEV_STAT fEV_STAT_MSG_LOST
      split
      · obtain ⟨r2, x2, y2, h2⟩ := State.raiseCore_shape (s.satInc aEV_STAT fEV_STAT_MSG_LOST) 3
        split
        · exact ⟨r2, x2, y2, by rw [h2, hr]⟩
        · obtain ⟨r3, y3, h3⟩ := State.satInc_shape ((s.satInc aEV_STAT fEV_STAT_MSG_LOST).raiseCore 3) aEV_STAT fEV_STAT_MSG_LOST
          exact ⟨r3, x2, y3, by rw [h3, h2, hr]⟩
      · exact ⟨r, s.ev, h, hr⟩

/-- An event changes registers, the event state and the record of what the hardware sets alone. -/
theorem State.raise_shape (s : State) (e : Nat) : ∃ r x h, s.raise e = { s with regs := r, ev := x, hw := h } := by
  simp only [State.raise]
  split
  · exact ⟨s.regs, _, s.hw, rfl⟩
  · obtain ⟨r, x, y, h⟩ := State.raiseCore_shape s e
    obtain ⟨r2, x2, y2, h2⟩ := State.queueMsg_shape (s.raiseCore e) e
    exact ⟨r2, x2, y2, by rw [State.raiseHub, h2, h]⟩

/-- A flag with its event changes registers, the event state and the record of what the hardware sets alone. -/
theorem State.flagRaise_shape (s : State) (a : Nat) (f : Fld) (e : Nat) :
    ∃ r x h, s.flagRaise a f e = { s with regs := r, ev := x, hw := h } := by
  simp only [State.flagRaise]
  split
  · exact ⟨s.regs, s.ev, _, rfl⟩
  · obtain ⟨r, x, y, h⟩ := State.raise_shape (s.setBit a f true) e
    exact ⟨r, x, y, by rw [h]; rfl⟩

@[simp] theorem State.raise_clk (s : State) (e : Nat) : (s.raise e).clk = s.clk := by
  obtain ⟨r, x, y, h⟩ := State.raise_shape s e; rw [h]
@[simp] theorem State.raise_ringCore (s : State) (e : Nat) : (s.raise e).ringCore = s.ringCore := by
  obtain ⟨r, x, y, h⟩ := State.raise_shape s e; rw [h]
@[simp] theorem State.raise_ringDebug (s : State) (e : Nat) : (s.raise e).ringDebug = s.ringDebug := by
  obtain ⟨r, x, y, h⟩ := State.raise_shape s e; rw [h]
@[simp] theorem State.raise_ringConfig (s : State) (e : Nat) : (s.raise e).ringConfig = s.ringConfig := by
  obtain ⟨r, x, y, h⟩ := State.raise_shape s e; rw [h]
@[simp] theorem State.raise_dieReset (s : State) (e : Nat) : (s.raise e).dieReset = s.dieReset := by
  obtain ⟨r, x, y, h⟩ := State.raise_shape s e; rw [h]
@[simp] theorem State.raise_share1 (s : State) (e : Nat) : (s.raise e).share1 = s.share1 := by
  obtain ⟨r, x, y, h⟩ := State.raise_shape s e; rw [h]
@[simp] theorem State.raise_fuse (s : State) (e : Nat) : (s.raise e).fuse = s.fuse := by
  obtain ⟨r, x, y, h⟩ := State.raise_shape s e; rw [h]
@[simp] theorem State.raise_pins (s : State) (e : Nat) : (s.raise e).pins = s.pins := by
  obtain ⟨r, x, y, h⟩ := State.raise_shape s e; rw [h]
@[simp] theorem State.raise_pwr (s : State) (e : Nat) : (s.raise e).pwr = s.pwr := by
  obtain ⟨r, x, y, h⟩ := State.raise_shape s e; rw [h]
@[simp] theorem State.raise_pat (s : State) (e : Nat) : (s.raise e).pat = s.pat := by
  obtain ⟨r, x, y, h⟩ := State.raise_shape s e; rw [h]
@[simp] theorem State.raise_be (s : State) (e : Nat) : (s.raise e).be = s.be := by
  obtain ⟨r, x, y, h⟩ := State.raise_shape s e; rw [h]
@[simp] theorem State.raise_nis (s : State) (e : Nat) : (s.raise e).nis = s.nis := by
  obtain ⟨r, x, y, h⟩ := State.raise_shape s e; rw [h]
@[simp] theorem State.raise_lms (s : State) (e : Nat) : (s.raise e).lms = s.lms := by
  obtain ⟨r, x, y, h⟩ := State.raise_shape s e; rw [h]
@[simp] theorem State.raise_mq (s : State) (e : Nat) : (s.raise e).mq = s.mq := by
  obtain ⟨r, x, y, h⟩ := State.raise_shape s e; rw [h]
@[simp] theorem State.raise_rsps (s : State) (e : Nat) : (s.raise e).rsps = s.rsps := by
  obtain ⟨r, x, y, h⟩ := State.raise_shape s e; rw [h]
@[simp] theorem State.raise_ports (s : State) (e : Nat) : (s.raise e).ports = s.ports := by
  obtain ⟨r, x, y, h⟩ := State.raise_shape s e; rw [h]
@[simp] theorem State.raise_lanes (s : State) (e : Nat) : (s.raise e).lanes = s.lanes := by
  obtain ⟨r, x, y, h⟩ := State.raise_shape s e; rw [h]
@[simp] theorem State.raise_gws (s : State) (e : Nat) : (s.raise e).gws = s.gws := by
  obtain ⟨r, x, y, h⟩ := State.raise_shape s e; rw [h]
@[simp] theorem State.raise_remoteIn (s : State) (e : Nat) : (s.raise e).remoteIn = s.remoteIn := by
  obtain ⟨r, x, y, h⟩ := State.raise_shape s e; rw [h]
@[simp] theorem State.raise_cfg (s : State) (e : Nat) : (s.raise e).cfg = s.cfg := by
  obtain ⟨r, x, y, h⟩ := State.raise_shape s e; rw [h]
@[simp] theorem State.raise_cores (s : State) (e : Nat) : (s.raise e).cores = s.cores := by
  obtain ⟨r, x, y, h⟩ := State.raise_shape s e; rw [h]
@[simp] theorem State.raise_banks (s : State) (e : Nat) : (s.raise e).banks = s.banks := by
  obtain ⟨r, x, y, h⟩ := State.raise_shape s e; rw [h]
@[simp] theorem State.raise_qdrs (s : State) (e : Nat) : (s.raise e).qdrs = s.qdrs := by
  obtain ⟨r, x, y, h⟩ := State.raise_shape s e; rw [h]
@[simp] theorem State.raise_qdrSvc (s : State) (e : Nat) : (s.raise e).qdrSvc = s.qdrSvc := by
  obtain ⟨r, x, y, h⟩ := State.raise_shape s e; rw [h]
@[simp] theorem State.raise_dsets (s : State) (e : Nat) : (s.raise e).dsets = s.dsets := by
  obtain ⟨r, x, y, h⟩ := State.raise_shape s e; rw [h]
@[simp] theorem State.raise_km (s : State) (e : Nat) : (s.raise e).km = s.km := by
  obtain ⟨r, x, y, h⟩ := State.raise_shape s e; rw [h]
@[simp] theorem State.raise_ana (s : State) (e : Nat) : (s.raise e).ana = s.ana := by
  obtain ⟨r, x, y, h⟩ := State.raise_shape s e; rw [h]
@[simp] theorem State.raise_tap (s : State) (e : Nat) : (s.raise e).tap = s.tap := by
  obtain ⟨r, x, y, h⟩ := State.raise_shape s e; rw [h]
@[simp] theorem State.raise_mem (s : State) (e : Nat) : (s.raise e).mem = s.mem := by
  obtain ⟨r, x, y, h⟩ := State.raise_shape s e; rw [h]
@[simp] theorem State.raise_free (s : State) (e : Nat) : (s.raise e).free = s.free := by
  obtain ⟨r, x, y, h⟩ := State.raise_shape s e; rw [h]
@[simp] theorem State.raise_pending (s : State) (e : Nat) : (s.raise e).pending = s.pending := by
  obtain ⟨r, x, y, h⟩ := State.raise_shape s e; rw [h]
@[simp] theorem State.flagRaise_clk (s : State) (a : Nat) (f : Fld) (e : Nat) : (s.flagRaise a f e).clk = s.clk := by
  obtain ⟨r, x, y, h⟩ := State.flagRaise_shape s a f e; rw [h]
@[simp] theorem State.flagRaise_ringCore (s : State) (a : Nat) (f : Fld) (e : Nat) : (s.flagRaise a f e).ringCore = s.ringCore := by
  obtain ⟨r, x, y, h⟩ := State.flagRaise_shape s a f e; rw [h]
@[simp] theorem State.flagRaise_ringDebug (s : State) (a : Nat) (f : Fld) (e : Nat) : (s.flagRaise a f e).ringDebug = s.ringDebug := by
  obtain ⟨r, x, y, h⟩ := State.flagRaise_shape s a f e; rw [h]
@[simp] theorem State.flagRaise_ringConfig (s : State) (a : Nat) (f : Fld) (e : Nat) : (s.flagRaise a f e).ringConfig = s.ringConfig := by
  obtain ⟨r, x, y, h⟩ := State.flagRaise_shape s a f e; rw [h]
@[simp] theorem State.flagRaise_dieReset (s : State) (a : Nat) (f : Fld) (e : Nat) : (s.flagRaise a f e).dieReset = s.dieReset := by
  obtain ⟨r, x, y, h⟩ := State.flagRaise_shape s a f e; rw [h]
@[simp] theorem State.flagRaise_share1 (s : State) (a : Nat) (f : Fld) (e : Nat) : (s.flagRaise a f e).share1 = s.share1 := by
  obtain ⟨r, x, y, h⟩ := State.flagRaise_shape s a f e; rw [h]
@[simp] theorem State.flagRaise_fuse (s : State) (a : Nat) (f : Fld) (e : Nat) : (s.flagRaise a f e).fuse = s.fuse := by
  obtain ⟨r, x, y, h⟩ := State.flagRaise_shape s a f e; rw [h]
@[simp] theorem State.flagRaise_pins (s : State) (a : Nat) (f : Fld) (e : Nat) : (s.flagRaise a f e).pins = s.pins := by
  obtain ⟨r, x, y, h⟩ := State.flagRaise_shape s a f e; rw [h]
@[simp] theorem State.flagRaise_pwr (s : State) (a : Nat) (f : Fld) (e : Nat) : (s.flagRaise a f e).pwr = s.pwr := by
  obtain ⟨r, x, y, h⟩ := State.flagRaise_shape s a f e; rw [h]
@[simp] theorem State.flagRaise_pat (s : State) (a : Nat) (f : Fld) (e : Nat) : (s.flagRaise a f e).pat = s.pat := by
  obtain ⟨r, x, y, h⟩ := State.flagRaise_shape s a f e; rw [h]
@[simp] theorem State.flagRaise_be (s : State) (a : Nat) (f : Fld) (e : Nat) : (s.flagRaise a f e).be = s.be := by
  obtain ⟨r, x, y, h⟩ := State.flagRaise_shape s a f e; rw [h]
@[simp] theorem State.flagRaise_nis (s : State) (a : Nat) (f : Fld) (e : Nat) : (s.flagRaise a f e).nis = s.nis := by
  obtain ⟨r, x, y, h⟩ := State.flagRaise_shape s a f e; rw [h]
@[simp] theorem State.flagRaise_lms (s : State) (a : Nat) (f : Fld) (e : Nat) : (s.flagRaise a f e).lms = s.lms := by
  obtain ⟨r, x, y, h⟩ := State.flagRaise_shape s a f e; rw [h]
@[simp] theorem State.flagRaise_mq (s : State) (a : Nat) (f : Fld) (e : Nat) : (s.flagRaise a f e).mq = s.mq := by
  obtain ⟨r, x, y, h⟩ := State.flagRaise_shape s a f e; rw [h]
@[simp] theorem State.flagRaise_rsps (s : State) (a : Nat) (f : Fld) (e : Nat) : (s.flagRaise a f e).rsps = s.rsps := by
  obtain ⟨r, x, y, h⟩ := State.flagRaise_shape s a f e; rw [h]
@[simp] theorem State.flagRaise_ports (s : State) (a : Nat) (f : Fld) (e : Nat) : (s.flagRaise a f e).ports = s.ports := by
  obtain ⟨r, x, y, h⟩ := State.flagRaise_shape s a f e; rw [h]
@[simp] theorem State.flagRaise_lanes (s : State) (a : Nat) (f : Fld) (e : Nat) : (s.flagRaise a f e).lanes = s.lanes := by
  obtain ⟨r, x, y, h⟩ := State.flagRaise_shape s a f e; rw [h]
@[simp] theorem State.flagRaise_gws (s : State) (a : Nat) (f : Fld) (e : Nat) : (s.flagRaise a f e).gws = s.gws := by
  obtain ⟨r, x, y, h⟩ := State.flagRaise_shape s a f e; rw [h]
@[simp] theorem State.flagRaise_remoteIn (s : State) (a : Nat) (f : Fld) (e : Nat) : (s.flagRaise a f e).remoteIn = s.remoteIn := by
  obtain ⟨r, x, y, h⟩ := State.flagRaise_shape s a f e; rw [h]
@[simp] theorem State.flagRaise_cfg (s : State) (a : Nat) (f : Fld) (e : Nat) : (s.flagRaise a f e).cfg = s.cfg := by
  obtain ⟨r, x, y, h⟩ := State.flagRaise_shape s a f e; rw [h]
@[simp] theorem State.flagRaise_cores (s : State) (a : Nat) (f : Fld) (e : Nat) : (s.flagRaise a f e).cores = s.cores := by
  obtain ⟨r, x, y, h⟩ := State.flagRaise_shape s a f e; rw [h]
@[simp] theorem State.flagRaise_banks (s : State) (a : Nat) (f : Fld) (e : Nat) : (s.flagRaise a f e).banks = s.banks := by
  obtain ⟨r, x, y, h⟩ := State.flagRaise_shape s a f e; rw [h]
@[simp] theorem State.flagRaise_qdrs (s : State) (a : Nat) (f : Fld) (e : Nat) : (s.flagRaise a f e).qdrs = s.qdrs := by
  obtain ⟨r, x, y, h⟩ := State.flagRaise_shape s a f e; rw [h]
@[simp] theorem State.flagRaise_qdrSvc (s : State) (a : Nat) (f : Fld) (e : Nat) : (s.flagRaise a f e).qdrSvc = s.qdrSvc := by
  obtain ⟨r, x, y, h⟩ := State.flagRaise_shape s a f e; rw [h]
@[simp] theorem State.flagRaise_dsets (s : State) (a : Nat) (f : Fld) (e : Nat) : (s.flagRaise a f e).dsets = s.dsets := by
  obtain ⟨r, x, y, h⟩ := State.flagRaise_shape s a f e; rw [h]
@[simp] theorem State.flagRaise_km (s : State) (a : Nat) (f : Fld) (e : Nat) : (s.flagRaise a f e).km = s.km := by
  obtain ⟨r, x, y, h⟩ := State.flagRaise_shape s a f e; rw [h]
@[simp] theorem State.flagRaise_ana (s : State) (a : Nat) (f : Fld) (e : Nat) : (s.flagRaise a f e).ana = s.ana := by
  obtain ⟨r, x, y, h⟩ := State.flagRaise_shape s a f e; rw [h]
@[simp] theorem State.flagRaise_tap (s : State) (a : Nat) (f : Fld) (e : Nat) : (s.flagRaise a f e).tap = s.tap := by
  obtain ⟨r, x, y, h⟩ := State.flagRaise_shape s a f e; rw [h]
@[simp] theorem State.flagRaise_mem (s : State) (a : Nat) (f : Fld) (e : Nat) : (s.flagRaise a f e).mem = s.mem := by
  obtain ⟨r, x, y, h⟩ := State.flagRaise_shape s a f e; rw [h]
@[simp] theorem State.flagRaise_free (s : State) (a : Nat) (f : Fld) (e : Nat) : (s.flagRaise a f e).free = s.free := by
  obtain ⟨r, x, y, h⟩ := State.flagRaise_shape s a f e; rw [h]
@[simp] theorem State.flagRaise_pending (s : State) (a : Nat) (f : Fld) (e : Nat) : (s.flagRaise a f e).pending = s.pending := by
  obtain ⟨r, x, y, h⟩ := State.flagRaise_shape s a f e; rw [h]

/-! ### Fields of a word (R8) -/

/-- A field just put reads back, within its width. -/
theorem getF_putF (v : W32) (f : Fld) (n : Nat) (h : f.lsb + f.width ≤ 32) : getF (putF v f n) f = n % 2 ^ f.width := by
  have hm : BitVec.toNat (BitVec.ofNat 32 ((n % 2 ^ f.width) <<< f.lsb)) = (n % 2 ^ f.width) <<< f.lsb := by
    rw [BitVec.toNat_ofNat, Nat.mod_eq_of_lt]
    rw [Nat.shiftLeft_eq]
    calc n % 2 ^ f.width * 2 ^ f.lsb < 2 ^ f.width * 2 ^ f.lsb :=
          Nat.mul_lt_mul_of_pos_right (Nat.mod_lt _ (Nat.two_pow_pos _)) (Nat.two_pow_pos _)
      _ = 2 ^ (f.lsb + f.width) := by rw [← pow_add, Nat.add_comm]
      _ ≤ 2 ^ 32 := Nat.pow_le_pow_right (by decide) h
  apply Nat.eq_of_testBit_eq
  intro i
  simp only [getF, putF, Nat.testBit_mod_two_pow, Nat.testBit_shiftRight]
  by_cases hi : i < f.width
  · have h1 : f.lsb + i < 32 := by omega
    rw [BitVec.toNat_or, Nat.testBit_or, hm, BitVec.testBit_toNat, BitVec.getLsbD_and, BitVec.getLsbD_not,
      BitVec.getLsbD_ofNat]
    simp [h1, hi, Nat.testBit_shiftLeft, Nat.testBit_mod_two_pow, Nat.testBit_two_pow_sub_one]
  · simp [hi]

end Sys2Proof.Machine
end

