-- ==== Sys2Proof/Machine/Pins.lean ====
section
/-! DEFINITION. What the pins show: user I/O cells (R201 to R203), probes (R204), the global clock lines that the hub's generators drive
(R43, R193, R195), `EVT_OUT` (R383) and A's pin switches (R322). No command acts on a pin; these are the outputs of the state. -/

namespace Sys2Proof.Machine

/-! ### User I/O cells (R201 to R203) -/

/-- Standards of the table. -/
inductive IoStd where
  | lvcmos12 | lvcmos15 | lvcmos18 | sstl12 | sstl15c1 | sstl15c2 | sstl18c1 | sstl18c2 | hstl15c1 | hstl15c2 | hstl18c1 | hstl18c2
  | pod12 | lvds
  deriving DecidableEq, Repr

/-- Standard of a cell word; a value not in the table acts as LVCMOS18 (R201). -/
def ioStd (w : W32) : IoStd :=
  match getF w ⟨8, 5⟩ with
  | 0x00 => .lvcmos12
  | 0x01 => .lvcmos15
  | 0x02 => .lvcmos18
  | 0x04 => .sstl12
  | 0x05 => .sstl15c1
  | 0x06 => .sstl15c2
  | 0x07 => .sstl18c1
  | 0x08 => .sstl18c2
  | 0x09 => .hstl15c1
  | 0x0A => .hstl15c2
  | 0x0B => .hstl18c1
  | 0x0C => .hstl18c2
  | 0x0D => .pod12
  | 0x0E => .lvds
  | _ => .lvcmos18

/-- Drive in mA of an LVCMOS cell: a value above the standard's range acts as 2 mA; none for the other standards (R202). -/
def ioDrive (w : W32) : Option Nat :=
  let top : Option Nat := match ioStd w with
    | .lvcmos12 => some 8
    | .lvcmos15 => some 12
    | .lvcmos18 => some 16
    | _ => none
  let asked := match getF w ⟨15, 3⟩ with
    | 1 => 4
    | 2 => 6
    | 3 => 8
    | 4 => 12
    | 5 => 16
    | _ => 2
  top.map (fun t => if t < asked then 2 else asked)

/-- Termination in ohms: to the bank's level, or across the pair, which LVDS alone has; other values act as off (R202). -/
def ioOdt (w : W32) : Option Nat :=
  match getF w ⟨19, 3⟩ with
  | 1 => some 40
  | 2 => some 48
  | 3 => some 60
  | 4 => some 120
  | 5 => if ioStd w = .lvds then some 100 else none
  | _ => none
/-- Gearing: 0 single data rate, 1 double, 2 the 4:1 serialiser; other values act as 0 (R202). -/
def ioGear (w : W32) : Nat := if 2 < getF w ⟨4, 3⟩ then 0 else getF w ⟨4, 3⟩
/-- Bank of a pin (chapter 08, User I/O cells). -/
def ioBank (n : Nat) : Nat := n / 24
/-- The pin is clock-capable. -/
def ioClock (n : Nat) : Bool := n % 24 == 0 || n % 24 == 1

/-- The stored cell word of pin n of a logic die (R202, R210). -/
def State.ioWord (s : State) (d n : Nat) : W32 :=
  let k := n % 96
  let f : FrameAddr := { die := d, col := if n < 96 then 0 else 481, minor := 0, rb := k / 6 }
  frameWord (s.frame f.key) (k % 6)
/-- The word that acts on a pin: on the odd pin of a differential pair the even pin's, with its own `IDELAY` (R202). -/
def State.ioCell (s : State) (d n : Nat) : W32 :=
  let even := s.ioWord d (n - 1)
  if n % 2 = 1 ∧ even.getLsbD 7 then putF even ⟨24, 6⟩ (getF (s.ioWord d n) ⟨24, 6⟩) else s.ioWord d n

/-- What an output does. -/
inductive PinOut where
  | highZ | low | high
  /-- it keeps its last level -/
  | last
  /-- the fabric's signal, at the cell's standard -/
  | user
  deriving DecidableEq, Repr

/-- A boundary register's output and enable cells at a place drive a pin (R408, R409). -/
def State.boundaryPin (s : State) (d out : Nat) : PinOut :=
  let v := tget (fun _ => 0) s.tap.boundary d
  if s.tapIr d = 0x03#8 ∨ !v.testBit (out + 1) then .highZ else if v.testBit out then .high else .low

/-- Signals that H's boundary register covers, each with one cell or with three: input, output, output enable (R435). Signals of a QDR device
or a DRAM set are numbered by their cell. -/
inductive HubSignal where
  | torusLane (port lane : Nat)
  | qdr (device cell : Nat)
  | dram (set cell : Nat)
  /-- the 43 input-only balls of configuration: `CFG_D`, `CFG_CLK`, `CFG_WE_N`, `SPI_DQS`, `PROG_N`, `CFG_MODE`, `CFG_PULL`, `OSC_DLY` -/
  | cfgIn (n : Nat)
  /-- `CFG_BUSY`, `SPI_CLK`, `SPI_CS_N`, `SPI_IO[7:0]`, `DONE`, `INIT_N` -/
  | cfgIo (n : Nat)
  | resetN
  | evtOut (i : Nat)
  deriving DecidableEq, Repr

/-- First cell of a signal of H's boundary register, cell 0 nearest `TDO` (R435). -/
def hubCellOf : HubSignal → Nat
  | .torusLane p i => 48 * p + 3 * i
  | .qdr n k => 288 + 345 * n + k
  | .dram n k => 3048 + 717 * n + k
  | .cfgIn n => 5916 + n
  | .cfgIo n => 5959 + 3 * n
  | .resetN => 5998
  | .evtOut i => 5999 + 3 * i

/-- The signal of a cell of H's boundary register, and which of its cells it is (R435). -/
def hubCell (c : Nat) : Option (HubSignal × Nat) :=
  if c < 288 then some (.torusLane (c / 48) (c % 48 / 3), c % 3)
  else if c < 3048 then some (.qdr ((c - 288) / 345) ((c - 288) % 345), 0)
  else if c < 5916 then some (.dram ((c - 3048) / 717) ((c - 3048) % 717), 0)
  else if c < 5959 then some (.cfgIn (c - 5916), 0)
  else if c < 5998 then some (.cfgIo ((c - 5959) / 3), (c - 5959) % 3)
  else if c = 5998 then some (.resetN, 0)
  else if c < boundaryCells 6 then some (.evtOut ((c - 5999) / 3), (c - 5999) % 3)
  else none

/-- Signals of a logic die's boundary register (R408). -/
inductive LogicSignal where
  | userPin (n : Nat)
  | probe (i : Nat)
  /-- general lane, in lane order: its transmitter, its P and its N test receiver -/
  | lane (n : Nat)
  deriving DecidableEq, Repr

/-- The signal of a cell of a logic die's boundary register, and which of its cells it is (R408). -/
def logicCell (c : Nat) : Option (LogicSignal × Nat) :=
  if c < 576 then some (.userPin (c / 3), c % 3)
  else if c < 592 then some (.probe ((c - 576) / 2), (c - 576) % 2)
  else if c < boundaryCells 0 then some (.lane ((c - 592) / 3), (c - 592) % 3)
  else none

/-- Output of pin n of a logic die by its phase (R203, R409). -/
def State.ioPin (s : State) (d n : Nat) : PinOut :=
  let w := s.ioCell d n
  let dir := getF w ⟨2, 2⟩
  if intrusive (s.tapIr d) then s.boundaryPin d (3 * n + 1)
  else if s.inReset d || !s.outsUp d || dir == 0 || dir == 1 then .highZ
  else if s.clk.outSafe then
    match getF w ⟨30, 2⟩ with
    | 0 => .highZ
    | 1 => if n % 2 = 1 ∧ (s.ioWord d (n - 1)).getLsbD 7 then .high else .low
    | 2 => if n % 2 = 1 ∧ (s.ioWord d (n - 1)).getLsbD 7 then .low else .high
    | _ => .last
  else .user
/-- Pull of pin n: 0 none, 1 up, 2 down, 3 keeper (R202, R203). -/
def State.ioPull (s : State) (d n : Nat) : Nat :=
  if s.inReset d || !s.pullsUp d then (if s.pins.cfgPull then 1 else 0) else getF (s.ioCell d n) ⟨13, 2⟩

/-! ### Global clock lines (R43, R45, R193, R195) -/

/-- Quarters of the present tick in which the line of generator n rises: the generator divides the root, four of whose cycles make a tick,
from the tick it started on; a line whose generator is off stays low. -/
def State.gclkRises (s : State) (n : Nat) : List Nat :=
  let v := tget (fun _ => 0#32) s.clk.fclkAct n
  let start := tget (fun _ => 0) s.clk.fclkStart n
  if getB v fFCLK_CFG_EN && s.hubRuns && decide (start ≤ s.tickN) then
    (List.range 4).filter (fun q => (4 * (s.tickN - start) + q) % getF v fFCLK_CFG_DIV == 0)
  else []
/-- The line reaches a load of column and row block of a logic die: start-up has opened its gate, the clocks run, no region gate stands, and
`GCLK_CE`, an input from the fabric that is high when undriven, is high (R195). -/
def State.gclkOpen (s : State) (d col rb : Nat) (ce : Bool) : Bool :=
  s.runs && !s.inReset d && s.linesUp d && ce && !(List.range 16).any (fun n => (s.hold d n).gated && s.rgnHas d n col rb)

/-! ### Probes (R204) -/

/-- Output of `PROBE_d_i`, and whether its weak pull-down is on. A pin keeps its last state while the clocks are stopped. -/
def State.probePin (s : State) (d i : Nat) : PinOut × Bool :=
  let w := s.reg (aPRB_SEL d i)
  if intrusive (s.tapIr d) then (s.boundaryPin d (576 + 2 * i), false)
  else if !getB w fPRB_SEL_EN then (.highZ, true)
  else if !s.runs then (.last, false)
  else
    match getF w fPRB_SEL_SRC with
    | 2 => (if getB w fPRB_SEL_FF then .high else .low, false)
    | 3 => (.user, false)
    | _ => (if colType (getF w fPRB_SEL_COLUMN) = .logic then .user else .low, false)

/-! ### `EVT_OUT` and A's pin switches (R322, R383) -/

/-- `EVT_OUT_i`: the inactive level while `EN` is 0 (R383); its boundary cells while an intrusive instruction holds H (R409, R435). -/
def State.evtOut (s : State) (i : Nat) : PinOut :=
  let a := aEV_OUT_CFG i
  if intrusive (s.tapIr 6) then s.boundaryPin 6 (hubCellOf (.evtOut i) + 1)
  else if (s.bit a fEV_OUT_CFG_EN && (s.outPin i).active) != s.bit a fEV_OUT_CFG_POL then .high else .low
/-- The switch settings that act on the pins of pair p: all open in A's safe state, in its reset, and while domain 56 is not on (R322,
R369). -/
def State.pinSwitches (s : State) (p : Nat) : W32 :=
  if s.clk.outSafe || s.inReset 7 || !s.domOn 56 then 0#32 else s.reg (aSW_ACT p)

end Sys2Proof.Machine
end

