-- ==== Sys2Proof/Tests/Slice0.lean ====
section
/-! SUPPORT. Tests: for each statement, states and operands that meet its hypotheses; ill-formed commands that the check refuses; values
the spec works out; and one step of commands of several families. -/

open Sys2Proof Sys2Proof.Machine
set_option linter.unusedVariables false
set_option Elab.async false

namespace Sys2Proof.Tests

/-- The state after reset. -/
abbrev w0 : State := State.reset
/-- The state after reset with register fields set. -/
def setAll (s : State) (l : List (Nat × Fld × Nat)) : State := l.foldl (fun t e => t.setFld e.1 e.2.1 e.2.2) s
/-- The state after reset with register fields set. -/
def st (l : List (Nat × Fld × Nat)) : State := setAll State.reset l
/-- The state after reset in another phase of its clocks. -/
def ph (p : ClkPhase) : State := { State.reset with clk := { State.reset.clk with phase := p } }
/-- The state on a tick. -/
def tk (n : Nat) (s : State) : State := { s with clk := { s.clk with now := n, tick := BitVec.ofNat 64 n } }
/-- A recovered reference of torus port 0 is locked and measured. -/
def wRec : State :=
  st [(aTP_STATUS 0, fTP_STATUS_STATE, 6), (aLN_STATUS (portLane 0 0).1 (portLane 0 0).2, fLN_STATUS_CDR_LOCK, 1),
    (aFREQ_MON, fFREQ_MON_VALID, 1)]
/-- The recovered reference drives the root, with the local one to fall back on. -/
def wHold : State :=
  st [(aREF_STATUS, fREF_STATUS_ACTIVE, 1), (aREF_STATUS, fREF_STATUS_LOC_OK, 1), (aREF_CTRL, fREF_CTRL_HOLD_EN, 1)]
/-- An aligned device with torus port 0 upstream. -/
def wAligned : State := st [(aTP_STATUS 0, fTP_STATUS_STATE, 6), (aTICK_ALIGN, fTICK_ALIGN_ALIGNED, 1)]

/-- Every die-link module that carries the Weave, in the order of their registers. -/
def upModules : List Nat :=
  (List.range 6).flatMap (fun d =>
    (List.range 16).flatMap (fun n => [ra d (0x500 + n) 0, ra d (0x500 + n) 0x40]) ++
    (if d % 3 = 0 then [] else (List.range 8).map (fun l => ra d 0x510 (0x40 * l))) ++
    (if d % 3 = 2 then [] else (List.range 8).map (fun l => ra d 0x511 (0x40 * l)))) ++ [ra 7 0 0x100, ra 7 0 0x140]
/-- Every such module runs at full width. -/
def wUp : State :=
  { State.reset with regs := upModules.map (fun b => (aLM_STATUS b, putF (putF 0#32 fLM_STATUS_MASK 0x1F) fLM_STATUS_STATE 6)) }
/-- A valid shadow header and action tick. -/
def wPat : State :=
  st [(aSH_PERIOD, fSH_PERIOD_P16, 16), (aTICK_ALIGN, fTICK_ALIGN_ALIGNED, 1), (aPAT_AT_LO, ⟨0, 32⟩, 4096)]
/-- The same with a pattern running. -/
def wPatRun : State := setAll wPat [(aPAT_STATUS, fPAT_STATUS_RUN, 1), (aACT_PERIOD, fACT_PERIOD_P16, 16)]
/-- Every NI used below enabled, the pattern running, and the fabric of dies 0 to 2 running. -/
def wOn : State :=
  st [(aPAT_STATUS, fPAT_STATUS_RUN, 1), (aACT_PERIOD, fACT_PERIOD_P16, 16), (aCFG_DIES, ⟨0, 6⟩, 0x3F),
    (aNI_CTRL 0 4, fNI_CTRL_EN, 1), (aNI_CTRL 2 9, fNI_CTRL_EN, 1)]
/-- NI 4 of die 0 has one injection entry and staged flits. -/
def wInj (l : List (BitVec 256)) : State :=
  let s := wOn.setNi 0 4 { Ni.empty with staging := l }
  { s.setPs 0 0 4 0 0 (BitVec.ofNat 128 (5 * 2 ^ 20 + 2 ^ 43)) with pat :=
    { (s.setPs 0 0 4 0 0 (BitVec.ofNat 128 (5 * 2 ^ 20 + 2 ^ 43))).pat with fromTick := [(0, 0)] } }
/-- A flit of flow 5 at router 26 of the hub, whose flow table sends it east. -/
def wItem : Item :=
  { flit := { valid := true, flow := 5, cause := 0, key := 0, bank := false, parityOk := true, payload := 9 }
    loc := .router 6 26 4 none, due := 0 }
@[inherit_doc wItem]
def wFwd : State :=
  let s := wUp.setPs 0 6 26 2 5 1#128
  { s with pat := { s.pat with flight := [wItem] } }
/-- A flit of flow 5 at the egress of NI 4 of die 0. -/
def wArr : Item := { wItem with loc := .egress 0 4 }
@[inherit_doc wArr]
def wEgr (l : List Item) : State :=
  let s := wOn.setPs 0 0 4 1 0 (BitVec.ofNat 128 (5 * 2 ^ 16 + 2 ^ 28))
  { s with pat := { s.pat with fromTick := [(0, 0)], flight := l } }
/-- A flit came to router 3 of die 0 over a die edge, where a crossing entry for flow 5 applies. -/
def wRecvItem : Item := { wItem with flit := { wItem.flit with flow := 7 }, loc := .router 0 3 0 (some (.link (ra 0 0x500 0))) }
@[inherit_doc wRecvItem]
def wRecvEnt : BitVec 128 := BitVec.ofNat 128 (5 * 2 ^ 16 + 2 ^ 28)
@[inherit_doc wRecvItem]
def wRecv : State :=
  let s := ((setAll wUp [(aACT_PERIOD, fACT_PERIOD_P16, 16)]).setPs 0 0 3 3 0 wRecvEnt).setPs 0 0 3 2 5 2#128
  { s with pat := { s.pat with fromTick := [(0, 0)], flight := [wRecvItem] } }
@[inherit_doc wRecvItem]
def wRecvNext : Item := { wRecvItem with flit := { wRecvItem.flit with flow := 5, bank := false }, loc := (hopFrom 0 3 2).1, due := 2 }
/-- A flit of flow 5 at the egress of core 0's NI. -/
def wEgrHub : State :=
  let s := (setAll wOn [(aNI_CTRL 6 2, fNI_CTRL_EN, 1)]).setPs 0 6 2 1 0 (BitVec.ofNat 128 (5 * 2 ^ 16 + 2 ^ 28))
  { s with pat := { s.pat with fromTick := [(0, 0)], flight := [{ wArr with loc := .egress 6 2 }] } }
/-- A read request waits in `MREQ` of NI 9 of die 2, with a route. -/
def wReq : State := (wOn.setNi 2 9 { Ni.empty with fifo0 := [⟨0#256, true⟩] }).setPs 0 2 9 9 0 (BitVec.ofNat 128 (2 ^ 9))
@[inherit_doc wReq]
def wReqHdr : BitVec 256 :=
  match wReq.routeRequest 2 9 (wReq.fillHdr 2 9 0 0#256) with
  | .to q => q
  | .err _ => 0
/-- A request at router 26 of the hub that goes east. -/
def wHopItem : BeItem :=
  { pkt := ⟨hSetHops (hset 0 3 26 22 1) 1, []⟩, d := 6, n := 26, inp := 4, rsv := 0, comes := [0], gone := 0, out := none, via := none, port := none, raw := false, aged := false, own := 0 }
@[inherit_doc wHopItem]
def wHop : State := { wOn with be := { wOn.be with items := [wHopItem] } }
/-- A packet at the ejection input of NI 9 of die 2. -/
def wEjItem (h : BitVec 256) : BeItem :=
  { pkt := ⟨h, []⟩, d := 2, n := 9, inp := 6, rsv := 0, comes := [0], gone := 0, out := none, via := none, port := none, raw := false, aged := false, own := 0 }
@[inherit_doc wEjItem]
def wEj (h : BitVec 256) : State := { wOn with be := { wOn.be with items := [wEjItem h] } }
/-- A message, a response and a client's request that wait at an NI, with their routes. -/
def wMsg : State := wReq.setNi 2 9 { Ni.empty with fifo0 := [⟨4#256, true⟩] }
@[inherit_doc wMsg]
def routed (r : Route) : BitVec 256 := match r with
  | .to q => q
  | .err _ => 0
@[inherit_doc wMsg]
def wMsgHdr : BitVec 256 := routed (wMsg.routeRequest 2 9 (wMsg.fillHdr 2 9 0 4#256))
@[inherit_doc wMsg]
def wTrsp : State := (wOn.setNi 2 9 { Ni.empty with fifo3 := [⟨2#256, true⟩], served := [0#256] }).setPs 0 2 9 9 336 (BitVec.ofNat 128 (2 ^ 9))
@[inherit_doc wMsg]
def wTrspHdr : BitVec 256 := routed (wTrsp.routeResponse 2 9 (wTrsp.userRspHdr 2 9 2#256 0#256))
@[inherit_doc wMsg]
def wCli : ClientReq := ⟨⟨0, []⟩, 0x40, .dma 0 3⟩
/-- A request at router 0 of die 2 that goes west over a module two groups wide. -/
def wNarrowItem : BeItem := { wHopItem with pkt := ⟨hSetHops (hset 0 3 26 22 1) 3, []⟩, d := 2, n := 0 }
@[inherit_doc wNarrowItem]
def wHopNarrow : State :=
  let b := ra 1 0x511 0
  let s := (setAll wOn [(aLM_STATUS b, fLM_STATUS_STATE, 6), (aLM_STATUS b, fLM_STATUS_MASK, 3)]).setLm b { (wOn.lm b) with resynced := true }
  { s with be := { s.be with items := [wNarrowItem] } }
/-- A request at router 32 of the hub that leaves through torus port 0, and one that this port refuses. -/
def wPortItem : BeItem := { wHopItem with pkt := ⟨hset 0 3 28 27 1, []⟩, d := 6, n := 32 }
@[inherit_doc wPortItem]
def wPortBe : State :=
  let s := (setAll wOn [(aTP_STATUS 0, fTP_STATUS_STATE, 6), (aTP_STATUS 0, fTP_STATUS_VERIFIED, 1)]).setPort 0
    { Port.empty with farFlags := 0x80 }
  { s with be := { s.be with items := [wPortItem] } }
@[inherit_doc wPortItem]
def wPortRef : State :=
  let s := (setAll wOn [(aTP_STATUS 0, fTP_STATUS_STATE, 5)]).setPs 0 6 32 9 336 (BitVec.ofNat 128 (2 ^ 9))
  { s with be := { s.be with items := [wPortItem] } }
@[inherit_doc wPortItem]
def wPortRsp : BitVec 256 := routed (wPortRef.routeResponse 6 32 (wPortRef.responseHdr 6 32 wPortItem.pkt.hdr 1))
/-- A request reaches an NI that is off, a hub target, the event bridge, or a hub NI that routes it onward. -/
def wEjOff : State := (setAll (wEj 0) [(aNI_CTRL 2 9, fNI_CTRL_EN, 0)]).setPs 0 2 9 9 336 (BitVec.ofNat 128 (2 ^ 9))
@[inherit_doc wEjOff]
def wEjRsp : BitVec 256 := routed (wEjOff.routeResponse 2 9 (wEjOff.responseHdr 2 9 0 1))
@[inherit_doc wEjOff]
def wEjHubItem (h : BitVec 256) : BeItem := { wEjItem h with d := 6, n := 9 }
@[inherit_doc wEjOff]
def wEjHub (h : BitVec 256) : State :=
  let s := setAll wOn [(aNI_CTRL 6 9, fNI_CTRL_EN, 1)]
  { s with be := { s.be with items := [wEjHubItem h] } }
@[inherit_doc wEjOff]
def wBridgeHdr : BitVec 256 := hset 4 5 31 0 0x7E00
@[inherit_doc wEjOff]
def wEjRawItem : BeItem := { wEjItem 0 with d := 6, n := 32, raw := true, port := some 0 }
@[inherit_doc wEjOff]
def wEjRaw : State :=
  let s := (setAll wOn [(aNI_CTRL 6 32, fNI_CTRL_EN, 1)]).setPs 0 6 32 9 0 (BitVec.ofNat 128 (2 ^ 9))
  { s with be := { s.be with items := [wEjRawItem] } }
@[inherit_doc wEjOff]
def wEjRawHdr : BitVec 256 := routed (wEjRaw.onward 32 0)
/-- An outstanding request with tag 0. -/
def wOut : Outst := { tag := 0, places := 2, deadline := some 0, hdr := 0, client := none }

/-- A module of die 1 and its register set. -/
def wL : LinkId := ⟨1, 0x503, 0⟩
/-- That module in a training stage. -/
def wLink (k : Nat) : State := setAll wUp [(aLM_STATUS (linkBase wL), fLM_STATUS_STATE, k)]
theorem frameCrc_ignores (f : LinkFrame) (c : BitVec 16) : frameCrc { f with crc := c } = frameCrc f := rfl
theorem frameMask_ignores (f : LinkFrame) (c : BitVec 16) : frameMask { f with crc := c } = frameMask f := rfl
theorem frameClasses_ignores (f : LinkFrame) (c : BitVec 16) (n : Nat) :
    frameClassesOk { f with crc := c } n = frameClassesOk f n := rfl
/-- A frame passes under its own CRC. -/
theorem frame_good (f : LinkFrame) (c : BitVec 16) (h : frameCrc f = c) (s : State) (b : Nat) (hx : isCrossing b = false)
    (hm : frameMask f = s.lmMask b) (hc : frameClassesOk f (maskWidth (s.lmMask b)) = true) :
    s.framePasses b { f with crc := c } = true := by
  unfold State.framePasses
  rw [if_neg (by rw [hx]; exact Bool.false_ne_true), frameCrc_ignores, frameMask_ignores, frameClasses_ignores, hm, hc, h]
  simp
/-- A frame fails under another CRC. -/
theorem frame_bad (f : LinkFrame) (c : BitVec 16) (h : frameCrc f ≠ c) (s : State) (b : Nat) (hx : isCrossing b = false) :
    s.framePasses b { f with crc := c } = false := by
  unfold State.framePasses
  rw [if_neg (by rw [hx]; exact Bool.false_ne_true), frameCrc_ignores, beq_eq_false_iff_ne.2 h]
  simp
theorem not_complement (c : BitVec 16) : c ≠ ~~~c := by
  intro e
  have := congrArg (fun x => x.getLsbD 0) e
  simp at this
/-- A frame of flit classes `v` with `p` in position 0 and a given sideband. -/
def wFr0 (p : BitVec 256) (v : BitVec 8) (x : Nat) : LinkFrame :=
  { pos0 := p, pos1 := 0, pos2 := 0, pos3 := 0, vld := v, sb := BitVec.ofNat 48 x, crc := 0, marginErr := false }
/-- The same with its CRC. -/
def wFr (p : BitVec 256) (v : BitVec 8) (x : Nat) : LinkFrame := { wFr0 p v x with crc := frameCrc (wFr0 p v x) }
/-- The same with another CRC. -/
def wFrBad (p : BitVec 256) (v : BitVec 8) (x : Nat) : LinkFrame := { wFr0 p v x with crc := ~~~frameCrc (wFr0 p v x) }
theorem wFr_passes (p : BitVec 256) (v : BitVec 8) (x : Nat) (s : State) (b : Nat) (hx : isCrossing b = false)
    (hm : frameMask (wFr0 p v x) = s.lmMask b) (hc : frameClassesOk (wFr0 p v x) (maskWidth (s.lmMask b)) = true) :
    s.framePasses b (wFr p v x) = true := frame_good (wFr0 p v x) _ rfl s b hx hm hc
theorem wFrBad_fails (p : BitVec 256) (v : BitVec 8) (x : Nat) (s : State) (b : Nat) (hx : isCrossing b = false) :
    s.framePasses b (wFrBad p v x) = false := frame_bad (wFr0 p v x) _ (not_complement _) s b hx
/-- A crossing module's frame with its CRC. -/
def wXc (x : Nat) : LinkFrame := { wFr0 5 0 x with crc := xcCrc (wFr0 5 0 x) }
theorem xcCrc_ignores (f : LinkFrame) (c : BitVec 16) : xcCrc { f with crc := c } = xcCrc f := rfl
theorem xcQuiet_ignores (f : LinkFrame) (c : BitVec 16) : xcQuiet { f with crc := c } = xcQuiet f := rfl
theorem wXc_passes (x : Nat) (s : State) (b : Nat) (hx : isCrossing b = true) (hm : frameMask (wFr0 5 0 x) = s.lmMask b)
    (hq : xcQuiet (wFr0 5 0 x) = true) : s.framePasses b (wXc x) = true := by
  unfold State.framePasses wXc
  rw [if_pos hx, frameMask_ignores, xcCrc_ignores, xcQuiet_ignores, hm, hq]
  simp
/-- The module `wL` runs at full width with one crossing entry. -/
def wLinkRun : State :=
  let (d, n, k) := (linkDest (linkBase wL)).2
  let s := (tk 2 (setAll wUp [(aACT_PERIOD, fACT_PERIOD_P16, 16)])).setPs 0 d n k 0 (BitVec.ofNat 128 (5 * 2 ^ 16 + 2 ^ 28 + 4))
  { s with pat := { s.pat with fromTick := [(0, 0)] } }
/-- A training set for lane 5: increase `PRE`, done. -/
def wSet : BitVec 56 :=
  let l : List Nat := [0xB5, 5, 0x21, 0, 0, 0]
  BitVec.ofNat 56 (leNat ((l ++ [l.foldl (· ^^^ ·) 0]).map (BitVec.ofNat 8)))
/-- A training set for lane 5 that loads the presets. -/
def wSetInit : BitVec 56 :=
  let l : List Nat := [0xB5, 5, 0x10, 0, 0, 0]
  BitVec.ofNat 56 (leNat ((l ++ [l.foldl (· ^^^ ·) 0]).map (BitVec.ofNat 8)))
/-- Equalisation sent and seen done on every lane of torus port 1. -/
def wEq : State :=
  (List.range 16).foldl (fun t i => t.setLane (portLane 1 i).1 (portLane 1 i).2 { Lane.empty with eqSeen := true, eqDone := true })
    (st [(aTP_STATUS 1, fTP_STATUS_STATE, 1)])
/-- A position with its CRC passes the check. -/
theorem withPosCrc_ok (c : BitVec 256) : posCrcOk (withPosCrc c) = true := by
  have h1 : (withPosCrc c).extractLsb' 8 232 = c.extractLsb' 8 232 := by
    apply BitVec.eq_of_getLsbD_eq
    intro i hi
    have h : 8 + i < 240 := by omega
    simp only [BitVec.getLsbD_extractLsb', hi, decide_true, Bool.true_and]
    refine (BitVec.getLsbD_append (x := posCrc c) (y := c.extractLsb' 0 240)).trans ?_
    simp [h]
  have h2 : (withPosCrc c).extractLsb' 240 16 = posCrc c := by
    apply BitVec.eq_of_getLsbD_eq
    intro i hi
    simp only [BitVec.getLsbD_extractLsb', hi, decide_true, Bool.true_and]
    refine (BitVec.getLsbD_append (x := posCrc c) (y := c.extractLsb' 0 240)).trans ?_
    simp
  simp only [posCrcOk, h2]
  simp only [posCrc, h1, beq_self_eq_true]
/-- An exchange position of zeros with its CRC. -/
def wExch : BitVec 256 := withPosCrc (BitVec.ofNat 256 0xFD)
/-- The same, echoing number 1. -/
def wExchEcho : BitVec 256 := withPosCrc (BitVec.ofNat 256 (0xFD + 2 ^ 104))
/-- A control position with the given flags. -/
def wCtl (k : Nat) : BitVec 256 := withPosCrc (BitVec.ofNat 256 (0xDC + 256 * k))
/-- Byte 0 of a position is not its CRC's. -/
theorem posByte_withPosCrc (c : BitVec 256) (i : Nat) (h : i < 30) : posByte (withPosCrc c) i = posByte c i := by
  have e : (withPosCrc c).toNat % 2 ^ 240 = c.toNat % 2 ^ 240 := by
    unfold withPosCrc
    rw [BitVec.toNat_append, BitVec.extractLsb'_toNat, Nat.shiftRight_zero, ← Nat.shiftLeft_add_eq_or_of_lt (Nat.mod_lt _ (by decide)),
      Nat.shiftLeft_eq, Nat.add_mod, Nat.mul_mod_left, Nat.zero_add, Nat.mod_mod, Nat.mod_mod]
  unfold posByte bitsOf
  have g (n : Nat) : n >>> (8 * i) % 2 ^ (8 * i + 7 + 1 - 8 * i) = n % 2 ^ 240 / 2 ^ (8 * i) % 2 ^ 8 := by
    rw [Nat.shiftRight_eq_div_pow, show 8 * i + 7 + 1 - 8 * i = 8 by omega, show (240 : Nat) = 8 * i + (240 - 8 * i) by omega, Nat.pow_add, Nat.mod_mul_right_div_self,
      Nat.mod_mod_of_dvd]
    exact Nat.pow_dvd_pow 2 (by omega)
  rw [g, g, e]
/-- The last part of a check. -/
def wJudge (s : Nat) (q : Bool) : FrameOutcome :=
  if s = 0 ∧ !q then .clean
  else if !q then .bad
  else
    match frameCode.findIdx? (· == s) with
    | some i => .data i
    | none => if s = 0 then .check 13 else
        match (List.range 13).find? (fun i => s == 2 ^ i) with
        | some i => .check i
        | none => .bad
/-- What a check of a frame of zeros with stored check bits c finds. -/
theorem frameJudge_zero (c : BitVec 14) : frameJudge 0#4096 c = wJudge (c.toNat % 8192) (parityOf 14 c.toNat) := by
  have p (w : Nat) : parityOf w 0 = false := by
    unfold parityOf
    induction List.range w with
    | nil => rfl
    | cons a l ih => simp
  have f : frameCheck 0#4096 = 0#14 := if_pos rfl
  have z : (0#4096).toNat = 0 := by decide +kernel
  unfold frameJudge wJudge
  rw [f, z, p]
  generalize frameCode = F
  simp only [BitVec.toNat_ofNat, Nat.zero_mod, Nat.zero_xor, Bool.false_bne] <;>
    (generalize c.toNat % 8192 = s; generalize parityOf 14 c.toNat = q; rfl)
theorem wFrameZero_bad : frameJudge 0#4096 3#14 = .bad := by rw [frameJudge_zero]; decide +kernel
theorem wFrameZero_clean : frameJudge 0#4096 0#14 = .clean := by rw [frameJudge_zero]; decide +kernel
theorem wFrameZero_data : frameJudge 0#4096 8195#14 = .data (0 : Fin 4096).val := by rw [frameJudge_zero]; decide +kernel
theorem wFrameZero_check : frameJudge 0#4096 1#14 = .check (0 : Fin 14).val := by
  have n : frameCode.findIdx? (· == 1) = none := by
    rw [List.findIdx?_eq_none_iff]
    intro x h
    have := (List.mem_filter.1 h).2
    by_contra e
    have e : x = 1 := by simpa using e
    rw [e] at this
    revert this
    decide +kernel
  rw [frameJudge_zero, show (1#14).toNat % 8192 = 1 from rfl, show parityOf 14 (1#14).toNat = true by decide +kernel, wJudge]
  simp only [n]
  decide +kernel
/-- A flit at the transmit side of port 1 in scheduled mode. -/
def wTx : State :=
  let s := (st [(aTP_STATUS 1, fTP_STATUS_STATE, 7)]).setPort 1 { Port.empty with txSched := true }
  { s with pat := { s.pat with flight := [{ wItem with loc := .portTx 1 }] } }
/-- The gateways name a device one step along X. -/
def wGw : State :=
  st [(aTORUS_SIZE, fTORUS_SIZE_SX, 3), (aRG_ADDR_HI 0, fRG_ADDR_HI_DEV, 1024), (aTP_STATUS 0, fTP_STATUS_STATE, 6)]
/-- A read request with the given count along X. -/
def wRemote (dx : Int) : Remote :=
  { op := 0, status := 0, master := 1, die := 3, block := 0, off := 0, data := 0#32, dx := dx, dy := 0, dz := 0, tx := 0, ty := 0
    tz := 0, rev := false, direct := false }
@[inherit_doc wRemote]
def wRemoteNext : Remote := { wRemote 0 with tx := 1 }
@[inherit_doc wRemote]
def wHopPkt : State := { wGw with remoteIn := [(2, (wRemote 1).bits)] }


/-- A stream from the parallel bus whose device code and feature level were accepted. -/
def wStream : State :=
  let s := st [(aCFG_STATUS, fCFG_STATUS_STATE, 3), (aCFG_STATUS, fCFG_STATUS_SRC, 1)]
  { s with cfg := { s.cfg with devOk := true, featOk := true } }
/-- Frame data is open at frame (2, 0, 0, 0), no word of it there yet. -/
def wFdata0 : State :=
  { wStream with cfg := { wStream.cfg with fdataLeft := 128, frameAddr := 0x40000000#32 } }
/-- The same with all but the last word, every one zero. -/
def wFdata : State := { wFdata0 with cfg := { wFdata0.cfg with fdataLeft := 1, acc := List.replicate 127 0#32 } }
/-- Map data is open at the same frame, three words there. -/
def wEbm : State :=
  { wStream with cfg := { wStream.cfg with ebmLeft := 5, ebmAddr := 0x40000000#32, acc := [1#32, 2#32, 3#32] } }
/-- A check has passed, and die 2 is loading. -/
def wStart : State :=
  let s := setAll wStream [(aCFG_DIES, ⟨4, 2⟩, 1)]
  { s with cfg := { s.cfg with clean := true } }
/-- A check has passed, and `REGION` names region 3 of die 2. -/
def wRgn : State :=
  let s := setAll wStream [(aBR_RGN 2 3, fBR_RGN_V, 1), (aBR_RGN 2 3, fBR_RGN_COL_LAST, 40)]
  { s with cfg := { s.cfg with clean := true, region := 0x20003#32 } }
/-- Die 2 is loading and its T is 1,024. -/
def wStartTick : State :=
  tk 1024 { wStart with cfg := { wStart.cfg with startAt := [(2, 1025)] } }
/-- Die 2 runs and is scanned. -/
def wScan : State := st [(aCFG_DIES, ⟨4, 2⟩, 3), (aFE_SCAN_CTRL 2, fFE_SCAN_CTRL_EN, 1)]

/-- A frame of zeros in die 2 with check bits c is found to be o. -/
theorem wScan_judge {s : State} {c : BitVec 14} {o : FrameOutcome} (h : frameJudge 0#4096 c = o)
    (f : s.frame 4194304 = 0#4096) (e : s.frameChk 4194304 = c) : frameJudge (s.frame 4194304) (s.frameChk 4194304) = o := by
  rw [f, e]
  exact h

/-- Core 0 runs at the start of its boot ROM. -/
def wCore : State := (st [(aCORE_STATUS 0, fCORE_STATUS_STATE, 1)]).setThr 0 { Thrumas.empty with pc := 8192#14 }
/-- The same with values in registers 1 to 4. -/
def wRun : State :=
  wCore.setThr 0 { wCore.thr 0 with
    v := [(1, 0x80000000#32), (2, 0x7FFFFFFF#32), (3, 0xFFFF0003#32), (4, 0x0000FFFE#32)]
    acc := [(0, 0x7FFFFFFFFFFF#48), (1, 5#48), (2, 9#48)] }
/-- The same with every slot but the first issued. -/
def wLast : State := wRun.setThr 0 { wRun.thr 0 with issued := 0xE#4 }
/-- An operation word: opcode, fields d, a and b, and the low bits. -/
def wOp (op d a b fn : Nat) : W32 := BitVec.ofNat 32 (op * 2 ^ 26 + d * 65536 + a * 1024 + b * 16 + fn)
/-- An operation word of the multiply-accumulate unit: opcode, accumulator group, operands a and b, and bits 6 to 3. -/
def wMac (op k a b fn : Nat) : W32 := BitVec.ofNat 32 (op * 2 ^ 26 + k * 2 ^ 20 + a * 8192 + b * 128 + fn * 8)
/-- Core 0 runs, with bytes at address 16 of its scratchpad and a reservation. -/
def wMem : State :=
  let s := wRun.setThr 0 { wRun.thr 0 with v := [(1, 0x10#32), (3, 0xFFFF0003#32)], resv := some 16 }
  s.setBytes (dmBase 0 + 16) [0xFE#8, 0x80#8, 3#8, 0x84#8]
@[inherit_doc wMem]
def wMemLast : State := wMem.setThr 0 { wMem.thr 0 with issued := 0xE#4 }
/-- Core 0 waits for tick 0, which has come. -/
def wWait : State :=
  let s := setAll wRun [(aCORE_STATUS 0, fCORE_STATUS_STATE, 2)]
  s.setThr 0 { s.thr 0 with wait := some (2, 0) }
/-- Core 0 runs with debug enabled. -/
def wDbg : State := setAll wRun [(aDBG_CORE_CTRL 0, fDBG_CORE_CTRL_EN, 1)]
/-- Core 0 runs, with a pattern of period 256 running, `v1` = 32 and `v2` = 3. -/
def wSend : State :=
  let s := setAll wRun [(aPAT_STATUS, fPAT_STATUS_RUN, 1), (aACT_PERIOD, fACT_PERIOD_P16, 16)]
  s.setThr 0 { s.thr 0 with v := [(1, 32#32), (2, 3#32)] }
@[inherit_doc wSend]
def wSends (l : List (Nat × BitVec 256)) : State := wSend.setThr 0 { wSend.thr 0 with sends := l }
/-- Core 0 has queued sends, and no pattern runs. -/
def wSends0 (l : List (Nat × BitVec 256)) : State := wRun.setThr 0 { wRun.thr 0 with sends := l }
/-- Core 0 has a queued send for this tick, and NI 2 of the hub an entry for it. -/
def wSendInj : State :=
  let s := (setAll (wSends [(0, 9#256)]) [(aNI_CTRL 6 2, fNI_CTRL_EN, 1)]).setPs 0 6 2 0 0 (BitVec.ofNat 128 (5 * 2 ^ 20 + 2 ^ 43))
  { s with pat := { s.pat with fromTick := [(0, 0)] } }
/-- Core 0 has transfers outstanding; `v5` asks for 4 bytes at 64, `v6` has a reserved bit set. -/
def wXfer (l : List Xfer) : State :=
  wRun.setThr 0 { wRun.thr 0 with v := [(2, 0x1000#32), (5, 0xC0040#32), (6, 0x80000000#32)], xfers := l }
/-- A response of two bytes waits for core 0's transfer of tag 3. -/
def wXrsp (k : Nat) : State := { wXfer [⟨3, false, 8, 2⟩] with rsps := [⟨.core 0 3, k, 0, [7#8, 9#8]⟩] }
/-- A flit at the egress of an NI. -/
def wEgrFlit : Egr :=
  { flit := { valid := true, flow := 5, cause := 0, key := 0, bank := false, parityOk := true, payload := 9 }, tag := 1, tick := 7#64, enter := 0 }
/-- That flit waits at core 0's NI; the ring's write pointer is given. -/
def wRx (k : BitVec 7) : State :=
  (wRun.setThr 0 { wRun.thr 0 with rxwp := k }).setNi 6 2 { Ni.empty with egress := [wEgrFlit] }
/-- Core 0 stands at a bundle of its memory whose slot 0 names no operation. -/
def wIllegal : State :=
  let s := wRun.setThr 0 { wRun.thr 0 with pc := 4#14 }
  s.setBytes (imBase 0 + 64) [0#8, 0#8, 0#8, 0xFF#8]
/-- Event 40 waits for core 0 at level 5, and core 0 has interrupts enabled. -/
def wIrq : State :=
  let s := setAll wRun [(aEV_ROUTE 40, fEV_ROUTE_LEVEL, 5)]
  (s.setThr 0 { s.thr 0 with ctl := 0x80000001#32 }).setPending 0 40 true
/-- Core 0 issues the last delay slot of a return. -/
def wReti : State :=
  wLast.setThr 0 { wLast.thr 0 with epc := 100#14, estat := 0x80000003#32, branch := some ⟨100, 1, true⟩ }
/-- Core 0's watchdog has run out. -/
def wWd (k : Nat) : State :=
  setAll wRun [(aWD_CTRL 0, fWD_CTRL_EN, 1), (aWD_CTRL 0, fWD_CTRL_ACT, k), (aWD_LOAD 0, ⟨0, 32⟩, 5000), (aWD_CNT 0, ⟨0, 32⟩, 0)]
/-- Core 0 is halted. -/
def wHalted : State := setAll wRun [(aCORE_STATUS 0, fCORE_STATUS_STATE, 3), (aDBG_CORE_STAT 0, fDBG_CORE_STAT_HALTED, 1)]
/-- Comparator 1 of core 0 matches its PC. -/
def wBp : State := setAll wDbg [(aBP_CFG 0, fBP_CFG_EN, 2), (aBP_VAL 0 1, fBP_VAL_PC, 8192)]
/-- A request of four bytes at bank 3. -/
def wBankReq (k : Nat) (w : Bool) : MemReq :=
  { write := w, addr := bankBase 3 + 64, count := 4, data := [1#8, 2#8, 3#8, 4#8], master := k, urgent := false, spill := false
    origin := .dma 0 3, arrivedAt := 0 }
@[inherit_doc wBankReq]
def wBank (k : Nat) (w : Bool) : State := { w0 with mq := [wBankReq k w] }
/-- A write of the handover word of bank 3 that names owner 7. -/
def wHandReq : MemReq :=
  { wBankReq 0x40 true with addr := bankBase 3 + 0x3FFE0, data := [7#8, 0#8, 0#8, 0x5A#8] }
@[inherit_doc wHandReq]
def wHand : State := { st [(aBANK_OWNER 3, fBANK_OWNER_GIVE_EN, 1)] with mq := [wHandReq] }
/-- Bank 3 wakes, due at tick 4. -/
def wWake (z : Bool) : State :=
  let s := (tk 4 w0).setDom 67 1
  { s with banks := { s.banks with wake := [(3, (5, z))] } }
/-- Bank 3 is under test. -/
def wBist (k : Nat) : State := { w0 with banks := { w0.banks with bist := some ⟨3, k, 0, false⟩ } }
/-- DMA engine 2 is enabled and idle, its head at an address. -/
def wDma (a : Nat) : State :=
  st [(aDMA_CTRL 2, fDMA_CTRL_EN, 1), (aDMA_HEAD_LO 2, ⟨0, 32⟩, a), (aDMA_HEAD_HI 2, ⟨0, 32⟩, a / 2 ^ 32)]
/-- A finished descriptor of engine 2. -/
def wDescr (l : Bool) : Desc :=
  { src := 0, dst := 0, len := 4, srcDm := false, dstDm := false, score := 0, dcore := 0, urgent := false, pri := 0, evt := true, last := l
    next := 0x200000000040 }
@[inherit_doc wDescr]
def wDesc (l : Bool) : State :=
  (setAll (wDma 0) [(aDMA_STATUS 2, fDMA_STATUS_BUSY, 1)]).setDma 2 { Dma.empty with desc := some (wDescr l), issued := 4 }
/-- An injection entry of a pair's NI for slot 0. -/
def wQdrEnt : BitVec 128 := BitVec.ofNat 128 (5 * 2 ^ 20 + 2 ^ 43)
/-- Pair 2 is ready on tick 472, its NI has an injection entry for tick 512, and its service entry is given. -/
def wQdr (e : Nat) : State :=
  let s := tk 472 (setAll State.reset [(aQ_STATUS 2, fQ_STATUS_STATE, 1), (aPAT_STATUS, fPAT_STATUS_RUN, 1), (aACT_PERIOD, fACT_PERIOD_P16, 16)])
  let s := s.setPs 0 6 (qdrNi 2) 0 0 wQdrEnt
  { s with pat := { s.pat with fromTick := [(0, 0)] }, qdrSvc := if e = 0 then [] else [(svcKey 2 0 false 0, BitVec.ofNat 64 e)] }
/-- A scheduled write for tick 0. -/
def wQdrWrite : QdrWrite := { tick := 0, bank := 0, idx := 0, flit := 0, period := 0, payload := 0x0102030405060708090A#256 }
@[inherit_doc wQdrWrite]
def wQdrWr : State :=
  let s := (setAll State.reset [(aQ_STATUS 2, fQ_STATUS_STATE, 1)]).setQdr 2 { Qdr.empty with writes := [wQdrWrite] }
  { s with qdrSvc := [(svcKey 2 0 true 0, 0x100003#64)] }
/-- A scheduled read and a scheduled write of pair 2 fall on one tick. -/
def wQdrRW : State :=
  let s := (wQdr 0x100000).setQdr 2 { Qdr.empty with writes := [{ wQdrWrite with tick := 472 }] }
  { s with qdrSvc := [(svcKey 2 0 false 0, 0x100000#64), (svcKey 2 0 true 0, 0x100003#64)] }
/-- A best-effort request of eight bytes at pair 2. -/
def wQdrReq (w : Bool) : MemReq :=
  { write := w, addr := qdrAddr 2 64, count := 8, data := (List.range 8).map (BitVec.ofNat 8), master := 0x40, urgent := false, spill := false
    origin := .dma 0 3, arrivedAt := 0 }
@[inherit_doc wQdrReq]
def wQdrBe (w : Bool) : State :=
  { setAll State.reset [(aQ_STATUS 2, fQ_STATUS_STATE, 1), (aQ_CTRL 2, fQ_CTRL_EN, 1)] with mq := [wQdrReq w] }
/-- Every DRAM set is ready, and fitted at the lowest density. -/
def wDrS : State := st ((List.range 4).flatMap (fun d => [(aDR_CFG d, fDR_CFG_DENS, 0), (aDR_STATUS d, fDR_STATUS_STATE, 3)]))
/-- A request at line 0x100 of the DRAM space, in set 1. -/
def wDrReq (w : Bool) (n : Nat) : MemReq :=
  { write := w, addr := 0x100 + (if n = 256 then 0 else 8), count := n, data := (List.range n).map (BitVec.ofNat 8), master := 0x40
    urgent := false, spill := false, origin := .dma 0 3, arrivedAt := 0 }
@[inherit_doc wDrReq]
def wDr (r : MemReq) : State := { wDrS with mq := [r] }
/-- Errors in three symbols of one codeword. -/
def wNoise : List SymErr := [⟨0, 0, 1#8⟩, ⟨0, 1, 2#8⟩, ⟨0, 2, 5#8⟩]
@[inherit_doc wNoise]
def wNoiseOut : List Byte × List Nat × Bool :=
  let x := wNoise.foldl addSymErr (List.replicate 256 0#8, List.replicate 64 0#8)
  rsLine x.1 x.2 none
/-- The cached metadata line of line 0x100, every counter the given one. -/
def wKmLine (k : Nat) : KmLine :=
  { set := 1, line := wDrS.metaFirst + dramLine 0x100 / 20
    data := (List.range 256).map (fun i => if i < 240 ∧ i % 12 = 0 then BitVec.ofNat 8 k else 0#8), dirty := true }
/-- The mix is on and ready with key slot 0, that line cached, and one request waiting. -/
def wKm (r : MemReq) (k : Nat) : State :=
  let s := setAll wDrS [(aKM_CTRL, fKM_CTRL_EN, 1), (aKM_STATUS, fKM_STATUS_READY, 1), (aKM_SLOT 0, fKM_SLOT_VALID, 1)]
  { s with mq := [r], km := [wKmLine k] }
/-- A read of a metadata line. -/
def wMetaReq : MemReq := { wDrReq false 4 with addr := 15 * 2 ^ 30 + 0x100 }
/-- The mix is on and no metadata line is cached. -/
def wKmBad : State := { wKm (wDrReq false 4) 0 with km := [] }
/-- The cached metadata line with every counter all ones. -/
def wKmEndLine : List Byte := (List.range 256).map (fun i => if i < 240 ∧ i % 12 < 8 then 255#8 else 0#8)
@[inherit_doc wKmEndLine]
def wKmEnd : State := { wKm (wDrReq true 256) 0 with km := [{ wKmLine 0 with data := wKmEndLine }] }
/-- A read of line 0x100 under key ID 5. -/
def wDrKey : MemReq := { wDrReq false 4 with addr := 5 * 2 ^ 40 + 0x108 }
/-- The tag of the line of zeros under counter 7. -/
def wKmTagVal : W32 := lineTag (wDrS.slotKey 0) 1 7 (List.replicate 256 0#8)
/-- The cached metadata line with that tag at the entry of line 0x100. -/
def wKmTagLine : List Byte := kmPut (wKmLine 7).data (dramLine 0x100 % 20) 7 wKmTagVal 0
/-- The mix is on with that line cached. -/
def wKmTagOf (r : MemReq) : State := { wKm r 7 with km := [{ wKmLine 7 with data := wKmTagLine }] }
@[inherit_doc wKmTagOf]
def wKmTag : State := wKmTagOf (wDrReq false 4)
@[inherit_doc wKmTagOf]
def wKmTagW : State := wKmTagOf (wDrReq true 4)
/-- A metadata command names line 0x100. -/
def wKmCmd : State := setAll (wKm (wDrReq false 4) 7) [(aKM_MADDR_LO, ⟨0, 32⟩, 0x100), (aKM_MTAG, ⟨0, 32⟩, 77)]
/-- A swap of blocks 1 and 2 and the matrix is armed. -/
def wSwap (w : Option Nat) : State :=
  let s := setAll wUp [(aSW_SWAP_STAT, fSW_SWAP_STAT_ARMED, 1)]
  { s with ana := { s.ana with swap := some ⟨6#48, true, w⟩ } }
/-- Block 2 has a sample period of 300 ticks. -/
def wAna : State := setAll wUp [(aAB_TRIG 2, fAB_TRIG_PER, 300)]
/-- A run of block 2 has its first sample due. -/
def wAnaRun : State := wAna.setAb 2 { Ab.empty with run := some ⟨0, 0, 0⟩ }
/-- A word of `AB_ACT_ADC` with a format. -/
def wAdc (k : Nat) : W32 := putF (putF 0#32 fAB_CFG_ADC_EN 1) fAB_CFG_ADC_FMT k
/-- A sample of block 2 is due to enter its FIFO. -/
def wAnaRes (k : Nat) : State :=
  (tk 300 (setAll wAna [(aAB_ACT_ADC 2, ⟨0, 32⟩, (wAdc k).toNat)])).setAb 2 { Ab.empty with samples := [⟨0, 5#16, false, false⟩] }
/-- A conversion. -/
def wConv : IcConv := { start := 0, len := 250, cfg := 10#32, offset := 0#32, gain := 0x40000000#32, disturbed := true, phase := 0 }
/-- It ends. -/
def wConvEnd : State :=
  tk 4000 ((setAll wUp [(aIC_COUNT 3, ⟨0, 32⟩, 1)]).setIc 3
    { Ic.empty with run := some ⟨0, 1, 1, false, 0⟩, conv := some { wConv with phase := 2 } })
/-- Seven mains periods of 20 ms, and a crossing on the first tick. -/
def wMains : State :=
  let s := tk 30000000 wUp
  { s with ana := { s.ana with cross := some 0, periods := List.replicate 7 30000000 } }
/-- A power request is in progress; all blocks have granted where `g` holds. -/
def wPwr (dom target rim askAt : Nat) (g : Bool) : State :=
  let s := setAll wUp [(aPWR_REQ, fPWR_REQ_BUSY, 1)]
  { s with pwr := { s.pwr with cur := some ⟨dom, target, rim, askAt, g, 1, 0⟩ } }
/-- A request for core 3 stands granted, with a byte in its scratchpad and one in its instruction memory. -/
def wPwrCore (target : Nat) : State := ((wPwr 19 target 1 0 true).setBytes (dmBase 3 + 8) [5#8]).setBytes (imBase 3) [6#8]
/-- The RTC stands at its alarm of 7. -/
def wAlarm : State :=
  let s := setAll wUp [(aRTC_CTRL, fRTC_CTRL_ALM_EN, 1), (aRTC_ALM_LO, ⟨0, 32⟩, 7)]
  { s with pwr := { s.pwr with rtc := 7#48 } }
/-- Domain 33 turns on. -/
def wTurning : State :=
  let s := (tk 9 wUp).setDom 33 1
  { s with pwr := { s.pwr with turning := [(33, 9)] } }
/-- A request for domain 58 while A is loading and its Weave carries a flow. -/
def wPwr58 (k : Nat) : State :=
  let s := setAll (wPwr 58 0 5 k false) [(aCFG_DIES, ⟨14, 2⟩, 1)]
  s.setPs s.actBank 7 0 0 0 (BitVec.ofNat 128 (2 ^ 28))
/-- Event 100 routed to cores 1 and 3, pin 2 and message entry 0, which names channel 3 of device 5. -/
def wEv : State :=
  setAll wUp [(aEV_ROUTE 100, ⟨0, 32⟩, 0x0AA80500), (aEV_MSG 0, ⟨0, 32⟩, 0x00058300), (aEV_OUT_CFG 2, ⟨0, 32⟩, 0x80000004)]
/-- A channel message of event 100. -/
def wEvMsg : EvMsg := { addr := msgAddr 0 0x7E00 true 3 100, srcDev := 7#16, srcDie := 6, pri := 2 }
@[inherit_doc wEvMsg]
def wBridge (l : List EvMsg) : State :=
  let s := wUp.setPs 0 6 47 9 577 (BitVec.ofNat 128 (2 ^ 9))
  { s with ev := { s.ev with bridgeQ := l } }
@[inherit_doc wEvMsg]
def wEvIn (m : EvMsg) : State := { wUp with ev := { wUp.ev with flight := [m] } }
/-- A request of a ring master. -/
def wRq (a : Nat) (w : Bool) : RingReq := { die := a / 4294967296, block := a / 65536 % 65536, off := a % 65536, write := w, data := 9#32 }
/-- Core 0's access waits for its answer, or has it. -/
def wAcc (a : Nat) (w ans : Bool) : State :=
  wUp.setMaster .core0
    { busy := true, req := wRq a w, grantAt := 0, answered := ans, ansStatus := .ok, ansData := 77#32, status := .ok, data := 0#32, waiting := false, granted := true, remote := none }
/-- The hub's TAP holds an instruction, and the chain selects the dies. -/
def wTap (ir : BitVec 8) (sel : BitVec 8) : State := { wUp with tap := { wUp.tap with ir := ir, chainSel := sel } }
/-- The TAP of die 2 holds an instruction. -/
def wTapDie (c : BitVec 8) : State :=
  let s := wTap 0x01#8 0xFF#8
  { s with tap := { s.tap with dieIr := [(2, c)] } }
/-- An interconnect run of edge 4. -/
def wD2d (step : Nat) : State :=
  let s := wTap 0x11#8 0#8
  { s with tap := { s.tap with d2d := { s.tap.d2d with edge := 4, mode := 1, since := some 0, step := step } } }

/-! ### Witnesses of the statements' hypotheses -/

theorem witness_StepRunsFrontCommand :
    ((fun (s : State)  => decide (s.Inv ∧ (s.pending = []))) w0) = true := by decide +kernel

theorem witness_StepKeepsInvariant :
    ((fun (s : State)  => decide (s.Inv ∧ s.Inv)) w0) = true := by decide +kernel

theorem witness_ReferenceCommands :
    ((fun (s : State)  => decide (s.Inv ∧ s.hubRuns ∧ s.laneRecovers ∧ s.freqOk)) wRec &&
    (fun (s : State)  => decide (s.Inv ∧ s.hubRuns)) w0 &&
    (fun (s : State) (m : Rm) (v : W32) => decide (s.Inv ∧ s.ringReady m aREF_CTRL ∧ (¬ (10 < getF v fREF_CTRL_INH ∨
      (if getB v fREF_CTRL_SRC then s.bit aREF_STATUS fREF_STATUS_REC_OK = false else (s.bit aREF_STATUS fREF_STATUS_ACTIVE ∨
      s.bit aREF_STATUS fREF_STATUS_HOLD) ∧ s.bit aREF_STATUS fREF_STATUS_LOC_OK = false))))) w0 .core0 0x50#32 &&
    (fun (s : State) (m : Rm) (v : W32) => decide (s.Inv ∧ s.ringReady m aREF_CTRL ∧ ((10 < getF v fREF_CTRL_INH ∨
      (if getB v fREF_CTRL_SRC then s.bit aREF_STATUS fREF_STATUS_REC_OK = false else (s.bit aREF_STATUS fREF_STATUS_ACTIVE ∨
      s.bit aREF_STATUS fREF_STATUS_HOLD) ∧ s.bit aREF_STATUS fREF_STATUS_LOC_OK = false))))) w0 .core0 1#32 &&
    (fun (s : State)  => decide (s.Inv ∧ s.hubRuns)) w0 &&
    (fun (s : State)  => decide (s.Inv ∧ s.hubRuns ∧ s.bit aREF_STATUS fREF_STATUS_REC_OK ∧
      (s.bit aREF_STATUS fREF_STATUS_ACTIVE = false))) ((st [(aREF_STATUS, fREF_STATUS_REC_OK, 1)])) &&
    (fun (s : State)  => decide (s.Inv ∧ s.hubRuns ∧ s.bit aREF_STATUS fREF_STATUS_ACTIVE ∧ s.bit aREF_CTRL fREF_CTRL_HOLD_EN ∧
      s.bit aREF_STATUS fREF_STATUS_LOC_OK)) wHold &&
    (fun (s : State)  => decide (s.Inv ∧ s.hubRuns ∧ s.bit aREF_STATUS fREF_STATUS_ACTIVE ∧
      (s.bit aREF_CTRL fREF_CTRL_HOLD_EN = false))) ((st [(aREF_STATUS, fREF_STATUS_ACTIVE, 1), (aREF_CTRL, fREF_CTRL_HOLD_EN,
      0)])) &&
    (fun (s : State)  => decide (s.Inv ∧ s.hubRuns ∧ s.bit aREF_STATUS fREF_STATUS_ACTIVE ∧ s.bit aREF_CTRL fREF_CTRL_HOLD_EN ∧
      (s.bit aREF_STATUS fREF_STATUS_LOC_OK = false))) ((st [(aREF_STATUS, fREF_STATUS_ACTIVE, 1), (aREF_CTRL,
      fREF_CTRL_HOLD_EN, 1), (aREF_STATUS, fREF_STATUS_LOC_OK, 0)])) &&
    (fun (s : State)  => decide (s.Inv ∧ s.hubRuns ∧ s.bit aREF_STATUS fREF_STATUS_ACTIVE ∧
      s.bit aREF_STATUS fREF_STATUS_LOC_OK)) wHold &&
    (fun (s : State) (d : BitVec 24) (b : Bool) => decide (s.Inv ∧ s.hubRuns ∧ s.laneRecovers)) wRec 5#24 false &&
    (fun (s : State) (d : BitVec 24) (b : Bool) => decide (s.Inv ∧ s.hubRuns ∧ s.laneRecovers ∧ s.inWindow d.toNat ∧
      ((s.bit aREF_STATUS fREF_STATUS_ACTIVE = false ∨ getF s.clk.sscAct fSSC_CTRL_DEPTH = 0 ∨ (b = false ∧
      s.clk.sscSeen = 0))))) wRec 5#24 false &&
    (fun (s : State) (d : BitVec 24) (b : Bool) => decide (s.Inv ∧ s.hubRuns ∧ s.laneRecovers ∧
      s.bit aREF_STATUS fREF_STATUS_ACTIVE ∧ getF s.clk.sscAct fSSC_CTRL_DEPTH ≠ 0 ∧ ((b ∨ 1 ≤ s.clk.sscSeen)) ∧
      s.bit aREF_CTRL fREF_CTRL_HOLD_EN ∧ s.bit aREF_STATUS fREF_STATUS_LOC_OK)) ((let s := setAll wRec [(aREF_STATUS,
      fREF_STATUS_ACTIVE, 1), (aREF_STATUS, fREF_STATUS_LOC_OK, 1), (aREF_CTRL, fREF_CTRL_HOLD_EN,
      1)]; { s with clk := { s.clk with sscAct := 5#32 } })) 5#24 true) = true := by decide +kernel

theorem witness_ClockLossAndResumption :
    ((fun (s : State)  => decide (s.Inv ∧ s.hubRuns)) w0 &&
    (fun (s : State)  => decide (s.Inv ∧ s.hubRuns ∧ (s.bit aREF_STATUS fREF_STATUS_ACTIVE = false))) w0 &&
    (fun (s : State)  => decide (s.Inv ∧ s.hubRuns ∧ s.bit aREF_STATUS fREF_STATUS_ACTIVE ∧
      (s.bit aREF_CTRL fREF_CTRL_HOLD_EN = false))) ((st [(aREF_STATUS, fREF_STATUS_ACTIVE, 1), (aREF_CTRL, fREF_CTRL_HOLD_EN,
      0)])) &&
    (fun (s : State)  => decide (s.Inv ∧ s.hubRuns ∧ s.bit aREF_STATUS fREF_STATUS_ACTIVE ∧ s.bit aREF_CTRL fREF_CTRL_HOLD_EN ∧
      (s.bit aREF_STATUS fREF_STATUS_LOC_OK = false))) ((st [(aREF_STATUS, fREF_STATUS_ACTIVE, 1), (aREF_CTRL,
      fREF_CTRL_HOLD_EN, 1), (aREF_STATUS, fREF_STATUS_LOC_OK, 0)])) &&
    (fun (s : State) (b : Bool) => decide (s.Inv ∧ s.hubRuns ∧ (s.ringCore.busy = false) ∧ (s.ringDebug.busy = false) ∧
      (s.ringConfig.busy = false))) w0 true &&
    (fun (s : State)  => decide (s.Inv ∧ (s.clk.phase = .stopped))) ((ph .stopped)) &&
    (fun (s : State)  => decide (s.Inv ∧ (s.clk.phase = .stopped ∨ s.clk.phase = .relock))) ((ph .relock)) &&
    (fun (s : State)  => decide (s.Inv ∧ (s.clk.phase = .stopped) ∧
      s.bit aRIM_CLK fRIM_CLK_SRC_VALID)) (((ph .stopped).setBit aRIM_CLK fRIM_CLK_SRC_VALID true)) &&
    (fun (s : State)  => decide (s.Inv ∧ (s.bit aRIM_CLK fRIM_CLK_SRC_VALID = false))) ((ph .stopped)) &&
    (fun (s : State)  => decide (s.Inv ∧ (s.clk.phase = .relock))) ((ph .relock)) &&
    (fun (s : State)  => decide (s.Inv ∧ (s.clk.phase = .hubOnly) ∧
      (s.clk.resumeAt + 64 ≤ s.now))) ({ State.reset with clk := { State.reset.clk with phase := .hubOnly, now := 64 } }) &&
    (fun (s : State)  => decide (s.Inv ∧ s.runs ∧ s.clk.outSafe ∧
      (s.clk.resumeAt + 256 ≤ s.now))) ({ State.reset with clk := { State.reset.clk with outSafe := true, now := 256 } })) = true := by decide +kernel

theorem witness_ClockSettingCommands :
    ((fun (s : State) (m : Rm) (v : W32) => decide (s.Inv ∧ s.ringReady m aSSC_CTRL ∧
      (getF v fSSC_CTRL_DEPTH ≤ 10))) w0 .debug 10#32 &&
    (fun (s : State) (m : Rm) (v : W32) => decide (s.Inv ∧ s.ringReady m aSSC_CTRL ∧
      10 < getF v fSSC_CTRL_DEPTH)) w0 .debug 0xFFFFFFFF#32 &&
    (fun (s : State)  => decide (s.Inv ∧ s.hubRuns ∧ (s.clk.sscHeld = false))) w0 &&
    (fun (s : State)  => decide (s.Inv ∧ s.clk.sscHeld)) ({ w0 with clk := { w0.clk with sscHeld := true } }) &&
    (fun (s : State) (m : Rm) (n : Fin 16) (v : W32) => decide (s.Inv ∧ s.ringReady m (aFCLK_CFG n.val) ∧
      ((getB v fFCLK_CFG_EN = false ∨ 8 ≤ getF v fFCLK_CFG_DIV)))) w0 .config 15 0#32 &&
    (fun (s : State) (m : Rm) (n : Fin 16) (v : W32) => decide (s.Inv ∧ s.ringReady m (aFCLK_CFG n.val) ∧ getB v fFCLK_CFG_EN ∧
      getF v fFCLK_CFG_DIV < 8)) w0 .config 0 0x80000000#32 &&
    (fun (s : State) (n : Fin 16) => decide (s.Inv ∧ s.hubRuns ∧ (s.tickN % 24 = 0) ∧
      (tget (fun _ => 0) s.clk.fclkSet n.val < s.now) ∧
      (tget (fun _ => 0#32) s.clk.fclkAct n.val ≠ s.reg (aFCLK_CFG n.val)))) (((tk 24 (w0.setReg (aFCLK_CFG 3) 0x80000008#32)))) 3 &&
    (fun (s : State) (m : Rm) (v : W32) => decide (s.Inv ∧ s.ringReady m aTICK_SNAP)) w0 .debug 0#32) = true := by decide +kernel

theorem witness_TickAlignment :
    ((fun (s : State)  => decide (s.Inv ∧ s.runs ∧ (s.tickN % 65536 = 0))) ((st [(aTP_STATUS 2, fTP_STATUS_STATE, 6)])) &&
    (fun (s : State) (x : W64) (al : Bool) (f : Fin 64) (p e : Nat) => decide (s.Inv ∧ (s.upPort = some p) ∧ s.runs ∧
      (s.bit aTICK_CTRL fTICK_CTRL_MASTER = false) ∧ ((s.clk.loadArmed = false ∨ al = false)) ∧
      s.bit aTICK_ALIGN fTICK_ALIGN_ALIGNED ∧ (expectedNear ((s.fld (aTP_LAT p) fTP_LAT_D + 63) / 64) s.tickN = some e) ∧
      (s.clk.lastCmp ≤ e))) wAligned 0#64 false 0 0 0 &&
    (fun (s : State) (x : W64) (al : Bool) (f : Fin 64) (p : Nat) => decide (s.Inv ∧ (s.upPort = some p) ∧ s.runs ∧
      (s.bit aTICK_CTRL fTICK_CTRL_MASTER = false) ∧ ((s.clk.loadArmed = false ∨ al = false)) ∧
      (s.bit aTICK_ALIGN fTICK_ALIGN_ALIGNED = false))) ((st [(aTP_STATUS 0, fTP_STATUS_STATE, 6)])) 0#64 true 0 0 &&
    (fun (s : State) (c : Nat) => decide (s.Inv ∧
      (c = (s.fld (aTP_LAT (s.fld aTICK_CTRL fTICK_CTRL_UP_PORT)) fTP_LAT_D + 63) / 64) ∧ s.runs ∧
      s.bit aTICK_ALIGN fTICK_ALIGN_ALIGNED ∧ (s.bit aTICK_CTRL fTICK_CTRL_MASTER = false) ∧ (c + 64 ≤ s.tickN) ∧
      (s.clk.lastCmp ≤ s.tickN - 64 - (s.tickN - 64 - c) % 65536))) ((tk 70 wAligned)) 0 &&
    (fun (s : State) (m : Rm) (v : W32) => decide (s.Inv ∧ s.ringReady m aTICK_CTRL ∧
      (¬ (((getB v fTICK_CTRL_MASTER ≠ s.bit aTICK_CTRL fTICK_CTRL_MASTER ∨
      getF v fTICK_CTRL_UP_PORT ≠ s.fld aTICK_CTRL fTICK_CTRL_UP_PORT) ∧ s.anySched = true) ∨ (getB v fTICK_CTRL_MASTER = true ∨
      s.bit aPAT_STATUS fPAT_STATUS_RUN = true ∨ s.fld aPAT_STATUS fPAT_STATUS_ARMED ≠ 0))))) w0 .core0 0#32 &&
    (fun (s : State) (m : Rm) (v : W32) => decide (s.Inv ∧ s.ringReady m aTICK_CTRL ∧
      ((((getB v fTICK_CTRL_MASTER ≠ s.bit aTICK_CTRL fTICK_CTRL_MASTER ∨
      getF v fTICK_CTRL_UP_PORT ≠ s.fld aTICK_CTRL fTICK_CTRL_UP_PORT) ∧ s.anySched = true) ∨ (getB v fTICK_CTRL_MASTER = true ∨
      s.bit aPAT_STATUS fPAT_STATUS_RUN = true ∨ s.fld aPAT_STATUS fPAT_STATUS_ARMED ≠ 0))))) ((st [(aPAT_STATUS,
      fPAT_STATUS_RUN, 1)])) .core0 0#32 &&
    (fun (s : State) (x : W64) (p : Nat) => decide (s.Inv ∧ (s.upPort = some p) ∧ s.runs ∧
      s.clk.loadArmed)) ({ wAligned with clk := { wAligned.clk with loadArmed := true, fclkAct := [(2, 0x80000008#32)] } }) 7#64 0 &&
    (fun (s : State) (m : Rm) (v : W32) => decide (s.Inv ∧ s.ringReady m aTICK_CTRL ∧
      (¬ (((getB v fTICK_CTRL_MASTER ≠ s.bit aTICK_CTRL fTICK_CTRL_MASTER ∨
      getF v fTICK_CTRL_UP_PORT ≠ s.fld aTICK_CTRL fTICK_CTRL_UP_PORT) ∧ s.anySched = true) ∨ (getB v fTICK_CTRL_ARM ∧
      (getB v fTICK_CTRL_MASTER = true ∨ s.bit aPAT_STATUS fPAT_STATUS_RUN = true ∨
      s.fld aPAT_STATUS fPAT_STATUS_ARMED ≠ 0)))))) w0 .core0 0#32 &&
    (fun (s : State) (m : Rm) (v : W32) => decide (s.Inv ∧ s.ringReady m aTICK_CTRL ∧
      ((((getB v fTICK_CTRL_MASTER ≠ s.bit aTICK_CTRL fTICK_CTRL_MASTER ∨
      getF v fTICK_CTRL_UP_PORT ≠ s.fld aTICK_CTRL fTICK_CTRL_UP_PORT) ∧ s.anySched = true) ∨ (getB v fTICK_CTRL_ARM ∧
      (getB v fTICK_CTRL_MASTER = true ∨ s.bit aPAT_STATUS fPAT_STATUS_RUN = true ∨
      s.fld aPAT_STATUS fPAT_STATUS_ARMED ≠ 0)))))) ((st [(aTP_STATUS 0, fTP_STATUS_STATE,
      7)])) .core0 (((w0.reg aTICK_CTRL) ^^^ BitVec.ofNat 32 (2 ^ fTICK_CTRL_MASTER.lsb)))) = true := by decide +kernel

theorem witness_ResetsAndStartUp :
    ((fun (s : State)  => decide (s.Inv ∧ s.clk.phase ≠ .porHold)) w0 &&
    (fun (s : State)  => decide (s.Inv ∧ (s.clk.phase = .porHold))) ((ph .porHold)) &&
    (fun (s : State)  => decide (s.Inv)) w0 &&
    (fun (s : State) (x : Straps) => decide (s.Inv ∧ (s.clk.phase = .porHold))) ((ph .porHold)) (⟨3, true, 5, 0⟩) &&
    (fun (s : State)  => decide (s.Inv ∧ (s.clk.phase = .oscDelay))) ((ph .oscDelay)) &&
    (fun (s : State) (b : BitVec 8) => decide (s.Inv ∧ (s.clk.phase = .lockWait))) ((ph .lockWait)) 0#8 &&
    (fun (s : State) (x : Straps) (b : BitVec 8) => decide (s.Inv ∧ (s.clk.phase = .porHold))) ((ph .porHold)) (⟨1, false, 0,
      0⟩) 0#8 &&
    (fun (s : State) (x : Straps) (b : BitVec 8) => decide (s.Inv ∧ (s.clk.phase = .oscDelay ∨
      s.clk.phase = .lockWait))) ((ph .lockWait)) (⟨1, false, 0, 0⟩) 0#8 &&
    (fun (s : State) (x : Straps) (b : BitVec 8) => decide (s.Inv ∧ (s.clk.phase = .run ∨ s.clk.phase = .hubOnly ∨
      s.clk.phase = .stopped ∨ s.clk.phase = .relock))) w0 (⟨1, false, 0, 0⟩) 0#8 &&
    (fun (s : State) (d : Fin 8) => decide (s.Inv ∧ s.runs ∧ s.clk.revWait.getLsbD d.val ∧
      (s.clk.revAt + ringTicks 4096 ≤ s.now))) ({ State.reset with clk := { State.reset.clk with now := 30000 } }) 2) = true := by decide +kernel

theorem witness_DieResetsAndProgN :
    ((fun (s : State) (m : Rm) (v : W32) => decide (s.Inv ∧ s.ringReady m aDEVICE_ID ∧ (s.anySched = false))) w0 .core0 7#32 &&
    (fun (s : State) (m : Rm) (v : W32) => decide (s.Inv ∧ s.ringReady m aDEVICE_ID ∧ s.anySched)) ((st [(aTP_STATUS 5,
      fTP_STATUS_STATE, 7)])) .core0 7#32 &&
    (fun (s : State) (m : Rm) (d : Fin 6) => decide (s.Inv ∧ s.ringReady m aDIE_RESET)) w0 .core0 3 &&
    (fun (s : State) (m : Rm) => decide (s.Inv ∧ s.ringReady m aDIE_RESET)) w0 .config &&
    (fun (s : State) (d : Fin 8) (n : Nat) => decide (s.Inv ∧ s.runs ∧ (tget (fun _ => none) s.dieReset d.val = some n) ∧
      (n + ringTicks 1024 ≤ s.now))) ((tk 7000 { State.reset with dieReset := [(2, some 5)] })) 2 5 &&
    (fun (s : State)  => decide (s.Inv ∧ s.clk.phase ≠ .porHold ∧ s.clk.phase ≠ .oscDelay ∧ s.clk.phase ≠ .lockWait)) w0 &&
    (fun (s : State)  => decide (s.Inv)) w0) = true := by decide +kernel

theorem witness_PatternActions :
    ((fun (s : State) (m : Rm) => decide (s.Inv ∧ s.ringReady m aPAT_CTRL ∧ s.actionCode 1 0)) wPat .core0 &&
    (fun (s : State) (m : Rm) (c : Nat) => decide (s.Inv ∧ s.ringReady m aPAT_CTRL ∧ (1 ≤ c) ∧
      s.actionCode 1 c)) ((st [(aSH_PERIOD, fSH_PERIOD_P16, 0)])) .debug 1 &&
    (fun (s : State) (m : Rm) => decide (s.Inv ∧ s.ringReady m aPAT_CTRL ∧ s.actionCode 2 0)) wPatRun .core0 &&
    (fun (s : State) (m : Rm) (c : Nat) => decide (s.Inv ∧ s.ringReady m aPAT_CTRL ∧ (1 ≤ c) ∧
      s.actionCode 2 c)) ((setAll wPat [(aPAT_AT_LO, ⟨0, 32⟩, 8192)])) .config 4 &&
    (fun (s : State) (m : Rm) => decide (s.Inv ∧ s.ringReady m aPAT_CTRL ∧ s.actionCode 3 0)) wPatRun .core0 &&
    (fun (s : State) (m : Rm) (c : Nat) => decide (s.Inv ∧ s.ringReady m aPAT_CTRL ∧ (1 ≤ c) ∧ s.actionCode 3 c)) w0 .config 3 &&
    (fun (s : State) (m : Rm) => decide (s.Inv ∧ s.ringReady m aPAT_CTRL ∧ s.fld aPAT_STATUS fPAT_STATUS_ARMED ≠ 0 ∧
      (s.tickN + 4096 ≤ s.reg64 aPAT_AT_LO aPAT_AT_HI))) ((setAll wPat [(aPAT_STATUS, fPAT_STATUS_ARMED, 1)])) .core0 &&
    (fun (s : State) (m : Rm) => decide (s.Inv ∧ s.ringReady m aPAT_CTRL ∧ ((s.fld aPAT_STATUS fPAT_STATUS_ARMED = 0 ∨
      s.reg64 aPAT_AT_LO aPAT_AT_HI < s.tickN + 4096)))) w0 .core0 &&
    (fun (s : State)  => decide (s.Inv ∧ s.hubRuns ∧ (s.fld aPAT_STATUS fPAT_STATUS_ARMED = 1) ∧
      (s.tickN = s.reg64 aPAT_AT_LO aPAT_AT_HI))) ((setAll w0 [(aPAT_STATUS, fPAT_STATUS_ARMED, 1)])) &&
    (fun (s : State)  => decide (s.Inv ∧ s.hubRuns ∧ (s.fld aPAT_STATUS fPAT_STATUS_ARMED = 2) ∧
      (s.tickN = s.reg64 aPAT_AT_LO aPAT_AT_HI))) ((setAll w0 [(aPAT_STATUS, fPAT_STATUS_ARMED, 2)])) &&
    (fun (s : State)  => decide (s.Inv ∧ s.hubRuns ∧ (s.fld aPAT_STATUS fPAT_STATUS_ARMED = 3) ∧
      (s.tickN = s.reg64 aPAT_AT_LO aPAT_AT_HI))) ((setAll w0 [(aPAT_STATUS, fPAT_STATUS_ARMED, 3)])) &&
    (fun (s : State)  => decide (s.Inv ∧ ((s.fld aPAT_STATUS fPAT_STATUS_ARMED = 0 ∨
      s.tickN ≠ s.reg64 aPAT_AT_LO aPAT_AT_HI)))) w0 &&
    (fun (s : State)  => decide (s.Inv ∧ s.bit aPAT_STATUS fPAT_STATUS_TAIL ∧ (s.pat.tailEnd ≤ s.tickN) ∧
      (s.bankFlits (if s.bit aPAT_STATUS fPAT_STATUS_RUN then s.shBank else s.actBank) = false) ∧
      (s.pat.tailStop = true))) ({ st [(aPAT_STATUS, fPAT_STATUS_TAIL, 1)] with pat := { State.reset.pat with tailStop := true } }) &&
    (fun (s : State)  => decide (s.Inv ∧ s.bit aPAT_STATUS fPAT_STATUS_TAIL ∧ (s.pat.tailEnd ≤ s.tickN) ∧
      (s.bankFlits (if s.bit aPAT_STATUS fPAT_STATUS_RUN then s.shBank else s.actBank) = false) ∧
      (s.pat.tailStop = false))) ((st [(aPAT_STATUS, fPAT_STATUS_TAIL, 1)])) &&
    (fun (s : State)  => decide (s.Inv ∧ ((s.tickN < s.pat.tailEnd ∨
      s.bankFlits (if s.bit aPAT_STATUS fPAT_STATUS_RUN then s.shBank else s.actBank))))) ({ w0 with pat := { w0.pat with tailEnd := 5 } })) = true := by decide +kernel

theorem witness_PatternTables :
    ((fun (s : State) (m : Rm) (i : NiId) (v : W32) => decide (s.Inv ∧ niExists i.die i.ni ∧
      s.ringReady m (aPS_DATA_3 i.die i.ni) ∧ s.psValid i.die i.ni ∧ s.fld (aPS_ADDR i.die i.ni) fPS_ADDR_TSEL ≠ 9 ∧
      s.fld (aPS_ADDR i.die i.ni) fPS_ADDR_TSEL ≠ 2 ∧ (s.bit (aPS_ADDR i.die i.ni) fPS_ADDR_BANK = false) ∧
      (s.shadowLocked = false) ∧ (s.committing i.die = false))) ((setAll w0 [(aPS_ADDR 6 3, fPS_ADDR_AINC, 1)])) .core0 (⟨6,
      3⟩) 0x10#32 &&
    (fun (s : State) (m : Rm) (i : NiId) (v : W32) => decide (s.Inv ∧ niExists i.die i.ni ∧
      s.ringReady m (aPS_DATA_3 i.die i.ni) ∧ s.psValid i.die i.ni ∧
      (s.fld (aPS_ADDR i.die i.ni) fPS_ADDR_TSEL = 9))) ((setAll w0 [(aPS_ADDR 6 3, fPS_ADDR_TSEL, 9)])) .core0 (⟨6, 3⟩) 0x10#32 &&
    (fun (s : State) (m : Rm) (i : NiId) (v : W32) => decide (s.Inv ∧ niExists i.die i.ni ∧
      s.ringReady m (aPS_DATA_3 i.die i.ni) ∧ s.psValid i.die i.ni ∧ ((s.fld (aPS_ADDR i.die i.ni) fPS_ADDR_TSEL = 2 ∨
      (s.fld (aPS_ADDR i.die i.ni) fPS_ADDR_TSEL ≠ 9 ∧ (s.bit (aPS_ADDR i.die i.ni) fPS_ADDR_BANK ∨ s.shadowLocked ∨
      s.committing i.die)))))) ((setAll w0 [(aPS_ADDR 6 3, fPS_ADDR_TSEL, 2)])) .core0 (⟨6, 3⟩) 0x10#32 &&
    (fun (s : State) (m : Rm) (i : NiId) (v : W32) => decide (s.Inv ∧ niExists i.die i.ni ∧
      s.ringReady m (aPS_DATA_3 i.die i.ni) ∧ (s.psValid i.die i.ni = false))) ((setAll w0 [(aPS_ADDR 6 3, fPS_ADDR_TSEL,
      15)])) .core0 (⟨6, 3⟩) 0x10#32 &&
    (fun (s : State) (m : Rm) (i : NiId) (w : Fin 4) => decide (s.Inv ∧ niExists i.die i.ni ∧
      s.ringReady m (aPS_DATA_0 i.die i.ni + 4 * w.val) ∧ s.psValid i.die i.ni)) w0 .debug (⟨6, 0⟩) 2 &&
    (fun (s : State) (m : Rm) (i : NiId) (w : Fin 4) => decide (s.Inv ∧ niExists i.die i.ni ∧
      s.ringReady m (aPS_DATA_0 i.die i.ni + 4 * w.val) ∧ (s.psValid i.die i.ni = false))) ((setAll w0 [(aPS_ADDR 6 3,
      fPS_ADDR_TSEL, 15)])) .debug (⟨6, 3⟩) 2 &&
    (fun (s : State) (m : Rm) (d : Fin 7) (v : W32) => decide (s.Inv ∧ s.ringReady m (aPS_COMMIT d.val) ∧
      (s.shadowLocked = false) ∧ (s.committing d.val = false))) w0 .core0 6 5#32 &&
    (fun (s : State) (m : Rm) (d : Fin 7) (v : W32) => decide (s.Inv ∧ s.ringReady m (aPS_COMMIT d.val) ∧ ((s.shadowLocked ∨
      s.committing d.val)))) ((st [(aPAT_STATUS, fPAT_STATUS_TAIL, 1)])) .core0 6 5#32 &&
    (fun (s : State) (d : Fin 7) (c : Commit) => decide (s.Inv ∧ s.runs ∧
      (s.pat.commits.find? (fun c => c.die == d.val) = some c))) ({ w0 with pat := { w0.pat with commits := [⟨2, 5#32, 0⟩] } }) 2 (⟨2,
      5#32, 0⟩) &&
    (fun (s : State) (m : Rm) (v : W32) => decide (s.Inv ∧ s.ringReady m aSF_POP)) w0 .core0 0#32) = true := by decide +kernel

theorem witness_ScheduledFlits :
    ((fun (s : State) (i : NiId) (x : Inj) => decide (s.Inv ∧ s.niLive i.die i.ni ∧ (s.ni i.die i.ni).injectedAt ≠ s.now + 1 ∧
      s.bit aPAT_STATUS fPAT_STATUS_RUN ∧ s.period ≠ 0 ∧ ((i.die ≠ 7 ∨ s.awaits 7 = false)) ∧
      (lowestFlow (s.injections i.die i.ni s.actBank s.period (tget (fun _ => 2 ^ 64) s.pat.fromTick s.actBank) s.tickN) = some x) ∧
      (s.bit (aNI_CTRL i.die i.ni) fNI_CTRL_LOOP = false))) ((wInj [7#256, 8#256])) (⟨0, 4⟩) (⟨0, 0, 5, 0, 0, 0⟩) &&
    (fun (s : State) (i : NiId) (x : Inj) (f : BitVec 256) (r : List (BitVec 256)) => decide (s.Inv ∧ s.niLive i.die i.ni ∧
      (s.ni i.die i.ni).injectedAt ≠ s.now + 1 ∧ s.bit aPAT_STATUS fPAT_STATUS_RUN ∧ s.period ≠ 0 ∧ i.die < 6 ∧
      (s.injections i.die i.ni s.actBank s.period (tget (fun _ => 2 ^ 64) s.pat.fromTick s.actBank) s.tickN = [x]) ∧
      (s.bit (aNI_CTRL i.die i.ni) fNI_CTRL_LOOP = false) ∧ s.niOn i.die i.ni ∧ (s.niHeld i.die i.ni = false) ∧
      s.portsUp i.die ∧ s.domOn i.die ∧ ((s.ni i.die i.ni).staging = f :: r))) ((wInj [7#256, 8#256])) (⟨0, 4⟩) (⟨0, 0, 5, 0, 0,
      0⟩) 7#256 ([8#256]) &&
    (fun (s : State) (i : NiId) (x : Inj) => decide (s.Inv ∧ s.niLive i.die i.ni ∧ (s.ni i.die i.ni).injectedAt ≠ s.now + 1 ∧
      s.bit aPAT_STATUS fPAT_STATUS_RUN ∧ s.period ≠ 0 ∧ i.die < 6 ∧
      (s.injections i.die i.ni s.actBank s.period (tget (fun _ => 2 ^ 64) s.pat.fromTick s.actBank) s.tickN = [x]) ∧
      (s.bit (aNI_CTRL i.die i.ni) fNI_CTRL_LOOP = false) ∧ s.niOn i.die i.ni ∧ (s.niHeld i.die i.ni = false) ∧
      s.portsUp i.die ∧ s.domOn i.die ∧ ((s.ni i.die i.ni).staging = []))) ((wInj [])) (⟨0, 4⟩) (⟨0, 0, 5, 0, 0, 0⟩) &&
    (fun (s : State) (i : NiId) (x : Inj) => decide (s.Inv ∧ s.niLive i.die i.ni ∧ (s.ni i.die i.ni).injectedAt ≠ s.now + 1 ∧
      s.bit aPAT_STATUS fPAT_STATUS_RUN ∧ s.period ≠ 0 ∧ i.die < 6 ∧
      (s.injections i.die i.ni s.actBank s.period (tget (fun _ => 2 ^ 64) s.pat.fromTick s.actBank) s.tickN = [x]) ∧
      (s.bit (aNI_CTRL i.die i.ni) fNI_CTRL_LOOP = false) ∧
      (s.niOn i.die i.ni = false))) ((setAll (wInj [7#256]) [(aNI_CTRL 0 4, fNI_CTRL_EN, 0)])) (⟨0, 4⟩) (⟨0, 0, 5, 0, 0, 0⟩) &&
    (fun (s : State) (i : NiId) (x : Inj) => decide (s.Inv ∧ s.niLive i.die i.ni ∧ (s.ni i.die i.ni).injectedAt ≠ s.now + 1 ∧
      s.bit aPAT_STATUS fPAT_STATUS_RUN ∧ s.period ≠ 0 ∧ i.die < 6 ∧
      (s.injections i.die i.ni s.actBank s.period (tget (fun _ => 2 ^ 64) s.pat.fromTick s.actBank) s.tickN = [x]) ∧
      (s.bit (aNI_CTRL i.die i.ni) fNI_CTRL_LOOP = false) ∧ s.niOn i.die i.ni ∧
      s.niHeld i.die i.ni)) ((let s := setAll (wInj [7#256]) [(aBR_RGN 0 3, fBR_RGN_V, 1), (aBR_RGN 0 3, fBR_RGN_COL_LAST, 481),
      (aBR_RGN 0 3, fBR_RGN_RB_LAST, 31), (aBR_STAT 0, ⟨3, 1⟩, 1)]; s)) (⟨0, 4⟩) (⟨0, 0, 5, 0, 0, 0⟩) &&
    (fun (s : State)  => decide (s.Inv ∧ s.hubRuns ∧ (s.pat.flight.filter s.atRouter).all cameWithin ∧
      (((s.pat.flight.filter s.atRouter) ++ s.allMarkers s.now).all (fun x => (s.goesOn x).isSome)) ∧
      (((s.pat.flight.filter s.atRouter) ++ s.allMarkers s.now).Pairwise (fun x y => s.sameWay x y = false)))) wFwd &&
    (fun (s : State) (x y : Item) (d n p b : Nat) (v : Via) (e : BitVec 128) => decide (s.Inv ∧ s.hubRuns ∧
      (s.allMarkers s.now = []) ∧ (s.pat.flight.filter s.atRouter = [x]) ∧ (x.loc = .router d n p (some v)) ∧
      (s.viaCause v x.due = none) ∧ (s.findEntry d n (if p = 5 then 7 else 3 + p) (s.tickAt x.due) (fun _ _ => true) = some (b,
      e)) ∧
      (s.goesOn { x with flit := { x.flit with flow := ew e 0 27 16, bank := b == 1 } } = some y))) wRecv wRecvItem wRecvNext 0 3 0 0 ((.link (ra 0 0x500 0))) wRecvEnt &&
    (fun (s : State) (x : Item) (d n p : Nat) (v : Via) => decide (s.Inv ∧ s.hubRuns ∧ (s.allMarkers s.now = []) ∧
      (s.pat.flight.filter s.atRouter = [x]) ∧ (x.loc = .router d n p (some v)) ∧ (s.viaCause v x.due = none) ∧
      (s.findEntry d n (if p = 5 then 7 else 3 + p) (s.tickAt x.due) (fun _ _ => true) = none) ∧
      s.pat.log.length < 16)) ({ wRecv with pat := { wRecv.pat with store := [] } }) wRecvItem 0 3 0 ((.link (ra 0 0x500 0))) &&
    (fun (s : State) (x : Item) (d n p : Nat) (v : Via) => decide (s.Inv ∧ s.hubRuns ∧ (s.allMarkers s.now = []) ∧
      (s.pat.flight.filter s.atRouter = [x]) ∧ (x.loc = .router d n p (some v)) ∧
      (s.viaCause v x.due).isSome)) ({ State.reset with pat := { State.reset.pat with flight := [wRecvItem] } }) wRecvItem 0 3 0 ((.link (ra 0 0x500 0))) &&
    (fun (s : State) (x : Item) (d n p : Nat) => decide (s.Inv ∧ s.hubRuns ∧ (s.allMarkers s.now = []) ∧
      (s.pat.flight.filter s.atRouter = [x]) ∧ (x.loc = .router d n p none) ∧ s.domOn (weaveDom d) ∧ (s.inReset d = false) ∧
      x.flit.parityOk ∧ s.flowOut d n x.flit < 4)) wFwd wItem 6 26 4 &&
    (fun (s : State) (x : Item) (d n p : Nat) => decide (s.Inv ∧ s.hubRuns ∧ (s.allMarkers s.now = []) ∧
      (s.pat.flight.filter s.atRouter = [x]) ∧ (x.loc = .router d n p none) ∧ s.domOn (weaveDom d) ∧ (s.inReset d = false) ∧
      x.flit.parityOk ∧ (s.flowOut d n x.flit = 7) ∧
      s.pat.log.length < 16)) ({ wFwd with pat := { wFwd.pat with store := [] } }) wItem 6 26 4 &&
    (fun (s : State) (x : Item) (d n p : Nat) => decide (s.Inv ∧ s.hubRuns ∧ (s.allMarkers s.now = []) ∧
      (s.pat.flight.filter s.atRouter = [x]) ∧ (x.loc = .router d n p none) ∧ s.domOn (weaveDom d) ∧ (s.inReset d = false) ∧
      x.flit.parityOk ∧ (s.flowOut d n x.flit = 7) ∧
      (16 ≤ s.pat.log.length))) ({ wFwd with pat := { wFwd.pat with store := [], log := List.replicate 16 ⟨1, 0, 0, 0, 0, 0, 0⟩ } }) wItem 6 26 4 &&
    (fun (s : State) (x : Item) (d n p : Nat) => decide (s.Inv ∧ s.hubRuns ∧ (s.allMarkers s.now = []) ∧
      (s.pat.flight.filter s.atRouter = [x]) ∧ (x.loc = .router d n p none) ∧ s.domOn (weaveDom d) ∧ (s.inReset d = false) ∧
      (x.flit.parityOk = false))) ({ wFwd with pat := { wFwd.pat with flight := [{ wItem with flit := { wItem.flit with parityOk := false } }] } }) ({ wItem with flit := { wItem.flit with parityOk := false } }) 6 26 4 &&
    (fun (s : State) (i : NiId) (x : Exp) (y : Item) => decide (s.Inv ∧ s.niLive i.die i.ni ∧
      (s.ni i.die i.ni).checkedAt ≠ s.now + 1 ∧ (s.bit (aNI_CTRL i.die i.ni) fNI_CTRL_LOOP = false) ∧ ((i.die ≠ 7 ∨
      s.awaits 7 = false)) ∧ (s.egressCause i.die i.ni = none) ∧ (s.expected i.die i.ni s.tickN = [x]) ∧ i.die ≠ 6 ∧
      ((i.die = 7 ∨ (s.portsUp i.die ∧ s.domOn i.die))) ∧ (s.ni i.die i.ni).egress.length < 16 ∧
      (s.pat.flight.filter (fun y => decide (y.loc = .egress i.die i.ni) && decide (y.due ≤ s.now)) = [y]) ∧ (y.due = s.now) ∧
      (y.flit.flow = x.flow) ∧ (y.flit.bank = (x.bank == 1)) ∧ y.flit.valid ∧ y.flit.parityOk)) ((wEgr [wArr])) (⟨0, 4⟩) (⟨0, 0,
      5, 0, 0, 0⟩) wArr &&
    (fun (s : State) (i : NiId) (x : Exp) => decide (s.Inv ∧ s.niLive i.die i.ni ∧ (s.ni i.die i.ni).checkedAt ≠ s.now + 1 ∧
      (s.bit (aNI_CTRL i.die i.ni) fNI_CTRL_LOOP = false) ∧ ((i.die ≠ 7 ∨ s.awaits 7 = false)) ∧
      (s.egressCause i.die i.ni = none) ∧ (s.expected i.die i.ni s.tickN = [x]) ∧ i.die ≠ 6 ∧ ((i.die = 7 ∨ (s.portsUp i.die ∧
      s.domOn i.die))) ∧ (s.ni i.die i.ni).egress.length < 16 ∧
      (s.pat.flight.filter (fun y => decide (y.loc = .egress i.die i.ni) && decide (y.due ≤ s.now)) = []) ∧
      s.pat.log.length < 16)) ((wEgr [])) (⟨0, 4⟩) (⟨0, 0, 5, 0, 0, 0⟩) &&
    (fun (s : State) (i : NiId) (x : Exp) (y : Item) (c : Fin 8) => decide (s.Inv ∧ (i.die = 6) ∧ (i.ni = coreNi c.val) ∧
      s.niLive i.die i.ni ∧ (s.ni i.die i.ni).checkedAt ≠ s.now + 1 ∧ (s.bit (aNI_CTRL i.die i.ni) fNI_CTRL_LOOP = false) ∧
      ((i.die ≠ 7 ∨ s.awaits 7 = false)) ∧ (s.egressCause i.die i.ni = none) ∧ (s.expected i.die i.ni s.tickN = [x]) ∧
      (s.pat.flight.filter (fun y => decide (y.loc = .egress i.die i.ni) && decide (y.due ≤ s.now)) = [y]) ∧ (y.due = s.now) ∧
      (y.flit.flow = x.flow) ∧ (y.flit.bank = (x.bank == 1)) ∧ y.flit.valid ∧ y.flit.parityOk)) wEgrHub (⟨6, 2⟩) (⟨0, 0, 5, 0,
      0, 0⟩) ({ wArr with loc := .egress 6 2 }) 0 &&
    (fun (s : State) (i : NiId) => decide (s.Inv ∧ s.niLive i.die i.ni ∧ (s.ni i.die i.ni).checkedAt ≠ s.now + 1 ∧
      (s.bit (aNI_CTRL i.die i.ni) fNI_CTRL_LOOP = false) ∧ ((i.die ≠ 7 ∨ s.awaits 7 = false)) ∧
      (s.expected i.die i.ni s.tickN = []) ∧
      (s.pat.flight.filter (fun y => decide (y.loc = .egress i.die i.ni) && decide (y.due ≤ s.now)) = []))) w0 (⟨7, 0⟩)) = true := by decide +kernel

theorem witness_NiFifosAndStaging :
    ((fun (s : State) (i : NiId) (l : List (BitVec 256)) => decide (s.Inv ∧ s.niLive i.die i.ni ∧ i.die ≠ 6 ∧ (l.length ≤ 2) ∧
      (l.length ≤ (s.ni i.die i.ni).debt))) ((wOn.setNi 2 9 { Ni.empty with debt := 3 })) (⟨2, 9⟩) ([5#256]) &&
    (fun (s : State) (i : NiId) (l : List (BitVec 256)) => decide (s.Inv ∧ s.niLive i.die i.ni ∧ i.die ≠ 6 ∧ (l.length ≤ 2) ∧
      ((s.ni i.die i.ni).debt = 0) ∧ ((s.ni i.die i.ni).staging.length + l.length ≤ 32))) wOn (⟨2, 9⟩) ([5#256, 6#256]) &&
    (fun (s : State) (i : NiId) (f g : BitVec 256) => decide (s.Inv ∧ s.niLive i.die i.ni ∧ i.die ≠ 6 ∧
      ((s.ni i.die i.ni).debt = 1) ∧ (s.ni i.die i.ni).staging.length < 32)) ((wOn.setNi 2 9 { Ni.empty with debt := 1 })) (⟨2,
      9⟩) 5#256 6#256 &&
    (fun (s : State) (i : NiId) (f : BitVec 256) => decide (s.Inv ∧ s.niLive i.die i.ni ∧ i.die ≠ 6 ∧
      ((s.ni i.die i.ni).debt = 0) ∧
      (32 ≤ (s.ni i.die i.ni).staging.length))) ((wOn.setNi 2 9 { Ni.empty with staging := List.replicate 32 5#256 })) (⟨2,
      9⟩) 5#256 &&
    (fun (s : State) (i : NiId) => decide (s.Inv ∧ s.niLive i.die i.ni ∧ i.die ≠ 6 ∧
      (s.tickN % ratioN (s.fld (aNI_CTRL i.die i.ni) fNI_CTRL_RATIO) = 0) ∧ (s.ni i.die i.ni).presentAt ≠ s.now + 1 ∧
      ((s.ni i.die i.ni).egress.all (fun e => decide (e.enter + 2 ≤ s.now))))) ((wOn.setNi 2 9 Ni.empty)) (⟨2, 9⟩) &&
    (fun (s : State) (i : NiId) => decide (s.Inv ∧ ((s.tickN % ratioN (s.fld (aNI_CTRL i.die i.ni) fNI_CTRL_RATIO) ≠ 0 ∨
      (s.ni i.die i.ni).presentAt = s.now + 1 ∨ i.die = 6)))) w0 (⟨6, 3⟩) &&
    (fun (s : State) (i : NiId) (k : Fin 4) (f : BitVec 256) (l : Bool) => decide (s.Inv ∧ s.niLive i.die i.ni ∧
      ((s.ni i.die i.ni).full k.val = false))) wOn (⟨6, 47⟩) 3 5#256 true &&
    (fun (s : State) (i : NiId) (k : Fin 4) (f : BitVec 256) (l : Bool) => decide (s.Inv ∧ s.niLive i.die i.ni ∧
      (s.ni i.die i.ni).full k.val)) ((wOn.setNi 1 2 { Ni.empty with fifo1 := List.replicate 64 ⟨1#256, true⟩ })) (⟨1,
      2⟩) 1 5#256 true &&
    (fun (s : State) (i : NiId) (k : Fin 4) (f : FifoFlit) (r : List FifoFlit) => decide (s.Inv ∧ s.niLive i.die i.ni ∧
      ((s.ni i.die i.ni).avail k.val = f :: r))) ((wOn.setNi 1 2 { Ni.empty with fifo1 := [⟨1#256, true⟩] })) (⟨1,
      2⟩) 1 (⟨1#256, true⟩) ([]) &&
    (fun (s : State) (i : NiId) (k : Fin 4) => decide (s.Inv ∧ s.niLive i.die i.ni ∧
      ((s.ni i.die i.ni).avail k.val = []))) wOn (⟨7, 0⟩) 1 &&
    (fun (s : State) (m : Rm) (i : NiId) (b : BitVec 4) => decide (s.Inv ∧ niExists i.die i.ni ∧
      s.ringReady m (aFIFO_FLUSH i.die i.ni))) w0 .core0 (⟨6, 5⟩) 3#4 &&
    (fun (s : State) (i : NiId) (k : Fin 4) => decide (s.Inv ∧ s.niLive i.die i.ni ∧ bit4 (s.ni i.die i.ni).flushing k.val ∧
      (bit4 (s.ni i.die i.ni).midWrite k.val = false) ∧
      (bit4 (s.ni i.die i.ni).midRead k.val = false))) ((wOn.setNi 1 2 { Ni.empty with flushing := 2, fifo1 := [⟨1#256, true⟩] })) (⟨1,
      2⟩) 1 &&
    (fun (s : State) (i : NiId) (k : Fin 4) (p : List (BitVec 256)) (r : List FifoFlit) => decide (s.Inv ∧ s.niLive i.die i.ni ∧
      bit4 (s.ni i.die i.ni).flushing k.val ∧ (bit4 (s.ni i.die i.ni).midWrite k.val = false) ∧
      bit4 (s.ni i.die i.ni).midRead k.val ∧ (firstPacket (niFifo (s.ni i.die i.ni) k.val) [] = some (p,
      r)))) ((wOn.setNi 1 2 { Ni.empty with flushing := 2, midRead := 2, fifo1 := [⟨1#256, true⟩, ⟨2#256, true⟩] })) (⟨1,
      2⟩) 1 ([1#256]) ([⟨2#256, true⟩]) &&
    (fun (s : State) (i : NiId) (k : Fin 4) => decide (s.Inv ∧ ((bit4 (s.ni i.die i.ni).flushing k.val = false ∨
      bit4 (s.ni i.die i.ni).midWrite k.val)))) w0 (⟨1, 2⟩) 1) = true := by decide +kernel

theorem witness_BestEffortPackets :
    ((fun (s : State) (i : NiId) (h q : BitVec 256) (l : List (BitVec 256)) (rest : List FifoFlit) => decide (s.Inv ∧
      s.niLive i.die i.ni ∧ (firstPacket ((s.ni i.die i.ni).avail 3) [] = none) ∧
      (firstPacket ((s.ni i.die i.ni).avail 0) [] = some (h :: l, rest)) ∧ s.canAdmit i.die i.ni h ∧
      (s.bit (aNI_CTRL i.die i.ni) fNI_CTRL_LOOP = false) ∧ s.niAccepts i.die i.ni ∧ hType h < 2 ∧
      (∀ o ∈ (s.ni i.die i.ni).outst, o.tag ≠ hTag h) ∧
      (s.routeRequest i.die i.ni (s.fillHdr i.die i.ni (if i.die = 7 then 0x10 else 0) h) = .to q))) wReq (⟨2,
      9⟩) 0#256 wReqHdr ([]) ([]) &&
    (fun (s : State) (i : NiId) (h : BitVec 256) (f : Option Fld) (l : List (BitVec 256)) (rest : List FifoFlit) => decide (s.Inv ∧
      s.niLive i.die i.ni ∧ (firstPacket ((s.ni i.die i.ni).avail 3) [] = none) ∧
      (firstPacket ((s.ni i.die i.ni).avail 0) [] = some (h :: l, rest)) ∧ s.canAdmit i.die i.ni h ∧
      (s.bit (aNI_CTRL i.die i.ni) fNI_CTRL_LOOP = false) ∧ s.niAccepts i.die i.ni ∧ hType h < 2 ∧
      (∀ o ∈ (s.ni i.die i.ni).outst, o.tag ≠ hTag h) ∧
      (s.routeRequest i.die i.ni (s.fillHdr i.die i.ni (if i.die = 7 then 0x10 else 0) h) = .err f))) ((wOn.setNi 2 9 { Ni.empty with fifo0 := [⟨0#256, true⟩] })) (⟨2,
      9⟩) 0#256 ((some fNI_ERR_ROUTE_MISS)) ([]) ([]) &&
    (fun (s : State) (i : NiId) (h : BitVec 256) (l : List (BitVec 256)) (rest : List FifoFlit) => decide (s.Inv ∧
      s.niLive i.die i.ni ∧ (firstPacket ((s.ni i.die i.ni).avail 3) [] = none) ∧
      (firstPacket ((s.ni i.die i.ni).avail 0) [] = some (h :: l, rest)) ∧ s.canAdmit i.die i.ni h ∧
      (s.bit (aNI_CTRL i.die i.ni) fNI_CTRL_LOOP = false) ∧ s.niAccepts i.die i.ni ∧ hType h ≠ 4 ∧
      ((s.ni i.die i.ni).outst.any (fun o => o.tag == hTag h)))) ((wOn.setNi 2 9 { Ni.empty with fifo0 := [⟨0#256, true⟩], outst := [wOut] })) (⟨2,
      9⟩) 0#256 ([]) ([]) &&
    (fun (s : State) (i : NiId) (h q : BitVec 256) (l : List (BitVec 256)) (rest : List FifoFlit) => decide (s.Inv ∧
      s.niLive i.die i.ni ∧ (firstPacket ((s.ni i.die i.ni).avail 3) [] = none) ∧
      (firstPacket ((s.ni i.die i.ni).avail 0) [] = some (h :: l, rest)) ∧ s.canAdmit i.die i.ni h ∧
      (s.bit (aNI_CTRL i.die i.ni) fNI_CTRL_LOOP = false) ∧ s.niAccepts i.die i.ni ∧ (hType h = 4) ∧
      (s.routeRequest i.die i.ni (s.fillHdr i.die i.ni (if i.die = 7 then 0x10 else 0) h) = .to q))) wMsg (⟨2,
      9⟩) 4#256 wMsgHdr ([]) ([]) &&
    (fun (s : State) (i : NiId) (h q g : BitVec 256) (l : List (BitVec 256)) (rest : List FifoFlit) => decide (s.Inv ∧
      s.niLive i.die i.ni ∧ (firstPacket ((s.ni i.die i.ni).avail 3) [] = some (h :: l, rest)) ∧
      ((s.ni i.die i.ni).served.find? (fun q => hTag q == hTag h) = some q) ∧
      (s.bit (aNI_CTRL i.die i.ni) fNI_CTRL_LOOP = false) ∧
      (s.routeResponse i.die i.ni (s.userRspHdr i.die i.ni h q) = .to g))) wTrsp (⟨2, 9⟩) 2#256 0#256 wTrspHdr ([]) ([]) &&
    (fun (s : State) (i : NiId) (q : ClientReq) (r : List ClientReq) => decide (s.Inv ∧ s.niLive i.die i.ni ∧ (i.die = 6) ∧
      (firstPacket ((s.ni i.die i.ni).avail 3) [] = none) ∧ (firstPacket ((s.ni i.die i.ni).avail 0) [] = none) ∧
      ((s.ni i.die i.ni).clientQ = q :: r) ∧ s.canAdmit 6 i.ni q.pkt.hdr ∧ s.niAccepts 6 i.ni ∧ hType q.pkt.hdr < 2 ∧
      (∀ o ∈ (s.ni i.die i.ni).outst, o.tag ≠ hTag q.pkt.hdr) ∧ (hAddr q.pkt.hdr / 2 ^ 48 = s.devId) ∧
      memClass (classOf (hAddr q.pkt.hdr % 2 ^ 48)))) (((setAll wOn [(aNI_CTRL 6 9, fNI_CTRL_EN,
      1)]).setNi 6 9 { Ni.empty with clientQ := [wCli] })) (⟨6, 9⟩) wCli ([]) &&
    (fun (s : State) (i : NiId) (out : Fin 6) (vc : Fin 2) (x : BeItem) (ord rsv d n inp k : Nat) (via : Option Via) => decide (s.Inv ∧
      s.niLive i.die i.ni ∧ (s.holder i.die i.ni out.val vc.val = none) ∧ ((out.val ≠ 5 ∨ i.die = 7 ∨ (i.die = 6 ∧ i.ni = 0))) ∧
      ((vc.val ≠ 0 ∨ (s.holder i.die i.ni out.val 1).any (fun y => s.canMove y out.val) = false)) ∧
      (s.pickHop (tget (fun _ => 5) s.be.lastIn (outKey i.die i.ni out.val * 2 + vc.val)) out.val (s.be.items.filter (fun y => y.d == i.die && y.n == i.ni && y.inp < 6 && y.vc == vc.val && y.wants == out.val && y.waits s.now)) = some (x,
      ord, rsv)) ∧ s.outFree x out.val ∧ (downstream i.die i.ni out.val = (d, n, inp, via, k)) ∧ s.linkTakes via ∧
      (x.gone = 0) ∧
      (s.be.items.all (fun y => !(y.d == d && y.n == n && y.inp == inp && y.vc == vc.val) || decide (y.len ≤ y.comes.length))) ∧
      (via.all (fun v => match v with | .link b => maskWidth (s.fld (aLM_STATUS b) fLM_STATUS_MASK) == 4 | _ => true)))) wHop (⟨6,
      26⟩) 1 0 wHopItem 1 0 6 27 3 2 none &&
    (fun (s : State) (i : NiId) (out : Fin 6) (vc : Fin 2) (x : BeItem) (ord rsv d n inp k b : Nat) (via : Option Via) => decide (s.Inv ∧
      s.niLive i.die i.ni ∧ (s.holder i.die i.ni out.val vc.val = none) ∧ ((out.val ≠ 5 ∨ i.die = 7 ∨ (i.die = 6 ∧ i.ni = 0))) ∧
      ((vc.val ≠ 0 ∨ (s.holder i.die i.ni out.val 1).any (fun y => s.canMove y out.val) = false)) ∧
      (s.pickHop (tget (fun _ => 5) s.be.lastIn (outKey i.die i.ni out.val * 2 + vc.val)) out.val (s.be.items.filter (fun y => y.d == i.die && y.n == i.ni && y.inp < 6 && y.vc == vc.val && y.wants == out.val && y.waits s.now)) = some (x,
      ord, rsv)) ∧ s.outFree x out.val ∧ (downstream i.die i.ni out.val = (d, n, inp, via, k)) ∧ s.linkTakes via ∧
      (x.gone = 0) ∧
      (s.be.items.all (fun y => !(y.d == d && y.n == n && y.inp == inp && y.vc == vc.val) || decide (y.len ≤ y.comes.length))) ∧
      (via = some (.link b)) ∧ maskWidth (s.fld (aLM_STATUS b) fLM_STATUS_MASK) ≠ 4)) wHopNarrow (⟨2,
      0⟩) 3 0 wNarrowItem 1 0 1 7 1 8 ((ra 1 0x511 0)) ((some (.link (ra 1 0x511 0)))) &&
    (fun (s : State) (i : NiId) (vc : Fin 2) (x : BeItem) (p : Nat) => decide (s.Inv ∧ s.niLive i.die i.ni ∧ (i.die = 6) ∧
      (sidePortOf i.ni = some p) ∧ (s.holder 6 i.ni 5 vc.val = none) ∧
      (beWinner (tget (fun _ => 5) s.be.lastIn (outKey 6 i.ni 5 * 2 + vc.val)) (s.be.items.filter (fun y => y.d == 6 && y.n == i.ni && y.inp < 6 && y.vc == vc.val && y.wants == 5 && y.waits s.now)) = some x) ∧
      (s.portRefusesBe p = false) ∧ s.portCarriesBe p ∧ x.whole s.now ∧ s.portRoom p x ∧
      (s.holder 6 i.ni 5 (1 - vc.val) = none))) wPortBe (⟨6, 32⟩) 0 wPortItem 0 &&
    (fun (s : State) (i : NiId) (vc : Fin 2) (x : BeItem) (p : Nat) (g : BitVec 256) => decide (s.Inv ∧ s.niLive i.die i.ni ∧
      (i.die = 6) ∧ (sidePortOf i.ni = some p) ∧ (s.holder 6 i.ni 5 vc.val = none) ∧
      (beWinner (tget (fun _ => 5) s.be.lastIn (outKey 6 i.ni 5 * 2 + vc.val)) (s.be.items.filter (fun y => y.d == 6 && y.n == i.ni && y.inp < 6 && y.vc == vc.val && y.wants == 5 && y.waits s.now)) = some x) ∧
      s.portRefusesBe p ∧ ((vc.val ≠ 0 ∨ hType x.pkt.hdr = 4 ∨
      s.routeResponse 6 i.ni (s.responseHdr 6 i.ni x.pkt.hdr 1) = .to g)))) wPortRef (⟨6, 32⟩) 0 wPortItem 0 wPortRsp &&
    (fun (s : State) (i : NiId) => decide (s.Inv ∧ niExists i.die i.ni)) w0 (⟨2, 9⟩) &&
    (fun (s : State) (i : NiId) (c : CreditDue) => decide (s.Inv ∧ niExists i.die i.ni ∧ (s.be.due = [c]) ∧ c.at i.die i.ni ∧
      (c.readyAt ≤ s.now) ∧
      (tget (fun _ => []) s.be.charges c.key = []))) ({ w0 with be := { w0.be with due := [⟨niKey 2 9 * 16, 3, 0, 0⟩] } }) (⟨2,
      9⟩) (⟨niKey 2 9 * 16, 3, 0, 0⟩) &&
    (fun (s : State) (i : NiId) (c : CreditDue) (b : Bool) (r : List Bool) => decide (s.Inv ∧ niExists i.die i.ni ∧
      (s.be.due = [c]) ∧ c.at i.die i.ni ∧ (c.readyAt ≤ s.now) ∧ (c.ordinary + c.reserved = 1) ∧
      (tget (fun _ => []) s.be.charges c.key = b :: r))) ({ w0 with be := { w0.be with due := [⟨niKey 2 9 * 16, 1, 0, 0⟩], charges := [(niKey 2 9 * 16, [true, false])] } }) (⟨2,
      9⟩) (⟨niKey 2 9 * 16, 1, 0, 0⟩) true ([false]) &&
    (fun (s : State) (i : NiId) (p : Fin 7) => decide (s.Inv ∧ s.niLive i.die i.ni ∧
      s.fld (aBE_CFG i.die i.ni) fBE_CFG_AGE ≠ 0)) ((st [(aBE_CFG 2 9, fBE_CFG_AGE, 3)])) (⟨2, 9⟩) 4 &&
    (fun (s : State) (i : NiId) (p : Fin 7) => decide (s.Inv ∧
      (s.fld (aBE_CFG i.die i.ni) fBE_CFG_AGE = 0))) ((setAll w0 [(aBE_CFG 2 9, fBE_CFG_AGE, 0)])) (⟨2, 9⟩) 4 &&
    (fun (s : State) (i : NiId) => decide (s.Inv ∧ s.niLive i.die i.ni ∧ s.fld (aBE_TMO i.die i.ni) fBE_TMO_STALL ≠ 0 ∧
      (s.be.items.any (fun x => x.d == i.die && x.n == i.ni && x.waits s.now && decide (x.landAt + 4096 * s.fld (aBE_TMO i.die i.ni) fBE_TMO_STALL ≤ s.now))))) ((tk 9000 (setAll wHop [(aBE_TMO 6 26,
      fBE_TMO_STALL, 1)]))) (⟨6, 26⟩) &&
    (fun (s : State) (i : NiId) => decide (s.Inv ∧ ((s.fld (aBE_TMO i.die i.ni) fBE_TMO_STALL = 0 ∨
      s.be.items.any (fun x => x.d == i.die && x.n == i.ni && x.waits s.now && decide (x.landAt + 4096 * s.fld (aBE_TMO i.die i.ni) fBE_TMO_STALL ≤ s.now)) = false)))) w0 (⟨6,
      26⟩) &&
    (fun (s : State) (i : NiId) (x : BeItem) => decide (s.Inv ∧ niExists i.die i.ni ∧ (s.inReset i.die = false) ∧ s.runs ∧
      (s.ejected i.die i.ni 0 = some x) ∧ hFormOk x.pkt.hdr ∧ (hNdata x.pkt.hdr = x.pkt.data.length) ∧ i.die < 6 ∧
      s.niAccepts i.die i.ni ∧ (s.bit (aSP_STAT i.die i.ni) fSP_STAT_SPILLING = false) ∧
      s.treqRoom i.die i.ni x.pkt)) ((wEj 0)) (⟨2, 9⟩) ((wEjItem 0)) &&
    (fun (s : State) (i : NiId) (x : BeItem) => decide (s.Inv ∧ niExists i.die i.ni ∧ (s.inReset i.die = false) ∧ s.runs ∧
      (s.ejected i.die i.ni 0 = some x) ∧ hFormOk x.pkt.hdr ∧ (hNdata x.pkt.hdr = x.pkt.data.length) ∧ i.die < 6 ∧
      s.niAccepts i.die i.ni ∧ ((s.bit (aSP_STAT i.die i.ni) fSP_STAT_SPILLING ∨
      s.treqRoom i.die i.ni x.pkt = false)))) ((setAll (wEj 0) [(aSP_STAT 2 9, fSP_STAT_SPILLING, 1)])) (⟨2, 9⟩) ((wEjItem 0)) &&
    (fun (s : State) (i : NiId) (x : BeItem) (g : BitVec 256) => decide (s.Inv ∧ niExists i.die i.ni ∧ (s.inReset i.die = false) ∧
      s.runs ∧ (s.ejected i.die i.ni 0 = some x) ∧ hFormOk x.pkt.hdr ∧ (hNdata x.pkt.hdr = x.pkt.data.length) ∧
      (s.niAccepts i.die i.ni = false) ∧ (isCollectorMsg i.die x.pkt.hdr = false) ∧ ((hType x.pkt.hdr = 4 ∨
      s.routeResponse i.die i.ni (s.responseHdr i.die i.ni x.pkt.hdr 1) = .to g)))) wEjOff (⟨2, 9⟩) ((wEjItem 0)) wEjRsp &&
    (fun (s : State) (i : NiId) (x : BeItem) => decide (s.Inv ∧ niExists i.die i.ni ∧ (s.inReset i.die = false) ∧ s.runs ∧
      (s.ejected i.die i.ni 0 = some x) ∧ hFormOk x.pkt.hdr ∧ (hNdata x.pkt.hdr = x.pkt.data.length) ∧ (i.die = 6) ∧
      s.niAccepts 6 i.ni ∧ (x.raw = false) ∧ hType x.pkt.hdr ≠ 4 ∧
      memClass (classOf (hAddr x.pkt.hdr % 2 ^ 48)))) ((wEjHub (hset 0 3 31 27 0))) (⟨6, 9⟩) ((wEjHubItem (hset 0 3 31 27 0))) &&
    (fun (s : State) (i : NiId) (x : BeItem) => decide (s.Inv ∧ niExists i.die i.ni ∧ (s.inReset i.die = false) ∧ s.runs ∧
      (s.ejected i.die i.ni 0 = some x) ∧ hFormOk x.pkt.hdr ∧ (hNdata x.pkt.hdr = x.pkt.data.length) ∧ (i.die = 6) ∧
      s.niAccepts 6 i.ni ∧ (x.raw = false) ∧ (hType x.pkt.hdr = 4) ∧
      (classOf (hAddr x.pkt.hdr % 2 ^ 48) = .bridge))) ((wEjHub wBridgeHdr)) (⟨6, 9⟩) ((wEjHubItem wBridgeHdr)) &&
    (fun (s : State) (i : NiId) (x : BeItem) (g : BitVec 256) => decide (s.Inv ∧ niExists i.die i.ni ∧ (s.inReset i.die = false) ∧
      s.runs ∧ (s.ejected i.die i.ni 0 = some x) ∧ hFormOk x.pkt.hdr ∧ (hNdata x.pkt.hdr = x.pkt.data.length) ∧ (i.die = 6) ∧
      s.niAccepts 6 i.ni ∧ (x.raw = true) ∧ (s.onward i.ni x.pkt.hdr = .to g))) wEjRaw (⟨6, 32⟩) wEjRawItem wEjRawHdr &&
    (fun (s : State) (i : NiId) (x : BeItem) => decide (s.Inv ∧ niExists i.die i.ni ∧ (s.inReset i.die = false) ∧ s.runs ∧
      (s.ejected i.die i.ni 0 = some x) ∧ ((hFormOk x.pkt.hdr = false ∨ hNdata x.pkt.hdr ≠ x.pkt.data.length)))) ((wEj 64)) (⟨2,
      9⟩) ((wEjItem 64)) &&
    (fun (s : State) (i : NiId) (x : BeItem) (q : Outst) => decide (s.Inv ∧ niExists i.die i.ni ∧ (s.inReset i.die = false) ∧
      s.runs ∧ (s.ejected i.die i.ni 1 = some x) ∧ hFormOk x.pkt.hdr ∧ (hNdata x.pkt.hdr = x.pkt.data.length) ∧ ((¬ (i.die = 6 ∧
      x.raw))) ∧ (x.own = 0) ∧ ((s.ni i.die i.ni).outst.find? (fun o => o.tag == hTag x.pkt.hdr) = some q) ∧
      (q.client = none))) (((wEj 3).setNi 2 9 { Ni.empty with outst := [wOut] })) (⟨2, 9⟩) ((wEjItem 3)) wOut &&
    (fun (s : State) (i : NiId) (x : BeItem) (q : Outst) (c : Origin) => decide (s.Inv ∧ niExists i.die i.ni ∧
      (s.inReset i.die = false) ∧ s.runs ∧ (s.ejected i.die i.ni 1 = some x) ∧ hFormOk x.pkt.hdr ∧
      (hNdata x.pkt.hdr = x.pkt.data.length) ∧ ((¬ (i.die = 6 ∧ x.raw))) ∧ (x.own = 0) ∧
      ((s.ni i.die i.ni).outst.find? (fun o => o.tag == hTag x.pkt.hdr) = some q) ∧ (q.client = some c) ∧
      c ≠ .outside)) (((wEj 3).setNi 2 9 { Ni.empty with outst := [{ wOut with client := some (.dma 0 3) }] })) (⟨2,
      9⟩) ((wEjItem 3)) ({ wOut with client := some (.dma 0 3) }) ((.dma 0 3)) &&
    (fun (s : State) (i : NiId) (x : BeItem) => decide (s.Inv ∧ niExists i.die i.ni ∧ (s.inReset i.die = false) ∧ s.runs ∧
      (s.ejected i.die i.ni 1 = some x) ∧ hFormOk x.pkt.hdr ∧ (hNdata x.pkt.hdr = x.pkt.data.length) ∧ ((¬ (i.die = 6 ∧
      x.raw))) ∧ (x.own = 0) ∧ (∀ o ∈ (s.ni i.die i.ni).outst, o.tag ≠ hTag x.pkt.hdr))) ((wEj 3)) (⟨2, 9⟩) ((wEjItem 3)) &&
    (fun (s : State) (i : NiId) (x : BeItem) => decide (s.Inv ∧ niExists i.die i.ni ∧ (s.inReset i.die = false) ∧ s.runs ∧
      (s.ejected i.die i.ni 1 = some x) ∧ hFormOk x.pkt.hdr ∧ (hNdata x.pkt.hdr = x.pkt.data.length) ∧ ((¬ (i.die = 6 ∧
      x.raw))) ∧ (x.own = 1))) ({ wOn with be := { wOn.be with items := [{ wEjItem 3 with own := 1 }] } }) (⟨2,
      9⟩) ({ wEjItem 3 with own := 1 }) &&
    (fun (s : State) (i : NiId) (x : BeItem) => decide (s.Inv ∧ niExists i.die i.ni ∧ (s.inReset i.die = false) ∧ s.runs ∧
      (s.ejected i.die i.ni 1 = some x) ∧ hFormOk x.pkt.hdr ∧ (hNdata x.pkt.hdr = x.pkt.data.length) ∧ ((¬ (i.die = 6 ∧
      x.raw))) ∧ (x.own = 2))) ({ wOn with be := { wOn.be with items := [{ wEjItem 3 with own := 2 }] } }) (⟨2,
      9⟩) ({ wEjItem 3 with own := 2 }) &&
    (fun (s : State) (i : NiId) (g : BitVec 10) (q : Outst) (k : Nat) => decide (s.Inv ∧ s.niLive i.die i.ni ∧
      ((s.ni i.die i.ni).outst.find? (fun o => o.tag == g.toNat) = some q) ∧ (q.deadline = some k) ∧ (k ≤ s.now) ∧
      (q.client = none))) ((w0.setNi 2 9 { Ni.empty with outst := [wOut] })) (⟨2, 9⟩) 0#10 wOut 0 &&
    (fun (s : State) (i : NiId) (g : BitVec 10) (q : Outst) (k : Nat) (c : Origin) => decide (s.Inv ∧ s.niLive i.die i.ni ∧
      ((s.ni i.die i.ni).outst.find? (fun o => o.tag == g.toNat) = some q) ∧ (q.deadline = some k) ∧ (k ≤ s.now) ∧
      (q.client = some c) ∧
      c ≠ .outside)) ((w0.setNi 2 9 { Ni.empty with outst := [{ wOut with client := some (.dma 0 3) }] })) (⟨2,
      9⟩) 0#10 ({ wOut with client := some (.dma 0 3) }) 0 ((.dma 0 3))) = true := by decide +kernel

theorem witness_NiDisableAndEnable :
    ((fun (s : State) (m : Rm) (i : NiId) => decide (s.Inv ∧ niExists i.die i.ni ∧ s.ringReady m (aNI_CTRL i.die i.ni) ∧
      s.bit (aNI_CTRL i.die i.ni) fNI_CTRL_EN ∧ (s.bit (aNI_CTRL i.die i.ni) fNI_CTRL_DIS = false))) ((setAll w0 [(aNI_CTRL 6 9,
      fNI_CTRL_EN, 1)])) .core0 (⟨6, 9⟩) &&
    (fun (s : State) (m : Rm) (i : NiId) => decide (s.Inv ∧ niExists i.die i.ni ∧ s.ringReady m (aNI_CTRL i.die i.ni) ∧
      ((s.bit (aNI_CTRL i.die i.ni) fNI_CTRL_EN = false ∨
      s.bit (aNI_CTRL i.die i.ni) fNI_CTRL_DIS)))) ((setAll w0 [(aNI_CTRL 6 9, fNI_CTRL_EN, 0)])) .core0 (⟨6, 9⟩) &&
    (fun (s : State) (m : Rm) (i : NiId) => decide (s.Inv ∧ niExists i.die i.ni ∧ s.ringReady m (aNI_CTRL i.die i.ni) ∧
      (((s.ni i.die i.ni).disStep = 2 ∨ (s.bit (aNI_CTRL i.die i.ni) fNI_CTRL_EN ∧
      s.bit (aNI_CTRL i.die i.ni) fNI_CTRL_DIS = false))))) ((setAll w0 [(aNI_CTRL 6 9, fNI_CTRL_EN, 1)])) .core0 (⟨6, 9⟩) &&
    (fun (s : State) (i : NiId) => decide (s.Inv ∧ s.niLive i.die i.ni ∧ ((s.ni i.die i.ni).disStep = 2) ∧
      ((s.ni i.die i.ni).outst = []) ∧ ((s.ni i.die i.ni).served = []) ∧ (((s.ni i.die i.ni).fifo2 = [] ∨
      s.niForced i.die i.ni)) ∧ (firstPacket (s.ni i.die i.ni).fifo3 [] = none) ∧ ((s.ni i.die i.ni).spillHeld = []) ∧
      ((s.ni i.die i.ni).replay = none) ∧ (s.spCount i.die i.ni = 0) ∧ ((i.die ≠ 6 ∨
      s.mq.all (fun r => match r.origin with | .packet n _ _ => n != i.ni | _ => true))))) ((w0.setNi 6 9 { Ni.empty with disStep := 2 })) (⟨6,
      9⟩) &&
    (fun (s : State) (i : NiId) => decide (s.Inv ∧ (((s.ni i.die i.ni).disStep ≠ 2 ∨ (s.ni i.die i.ni).outst ≠ [] ∨
      (s.ni i.die i.ni).served ≠ [] ∨ (s.ni i.die i.ni).spillHeld ≠ [] ∨ s.spCount i.die i.ni ≠ 0)))) w0 (⟨6, 9⟩) &&
    (fun (s : State) (i : NiId) => decide (s.Inv ∧ s.niLive i.die i.ni ∧ ((s.ni i.die i.ni).disStep = 3) ∧
      ((s.bit aPAT_STATUS fPAT_STATUS_RUN = false ∨ s.period = 0 ∨
      s.tickN % s.period = 0)))) ((w0.setNi 6 9 { Ni.empty with disStep := 3 })) (⟨6, 9⟩) &&
    (fun (s : State) (i : NiId) => decide (s.Inv ∧ (((s.ni i.die i.ni).disStep ≠ 3 ∨ (s.bit aPAT_STATUS fPAT_STATUS_RUN ∧
      s.period ≠ 0 ∧ s.tickN % s.period ≠ 0))))) w0 (⟨6, 9⟩) &&
    (fun (s : State) (m : Rm) (i : NiId) => decide (s.Inv ∧ niExists i.die i.ni ∧
      s.ringReady m (aNI_CTRL i.die i.ni))) ((w0.setNi 6 9 { Ni.empty with disStep := 2 })) .core0 (⟨6, 9⟩) &&
    (fun (s : State) (m : Rm) (i : NiId) => decide (s.Inv ∧ niExists i.die i.ni ∧
      s.ringReady m (aNI_CTRL i.die i.ni))) w0 .core0 (⟨6, 9⟩) &&
    (fun (s : State) (m : Rm) (i : NiId) (b : Bool) => decide (s.Inv ∧ niExists i.die i.ni ∧ s.ringReady m (aNI_CTRL i.die i.ni) ∧
      ((b = s.bit (aNI_CTRL i.die i.ni) fNI_CTRL_LOOP ∨ (i.die ≠ 6 ∧
      s.bit (aNI_STATUS i.die i.ni) fNI_STATUS_DRAINED))))) ((setAll wUp [(aNI_STATUS 2 9, fNI_STATUS_DRAINED, 1)])) .core0 (⟨2,
      9⟩) true &&
    (fun (s : State) (m : Rm) (i : NiId) (b : Bool) => decide (s.Inv ∧ niExists i.die i.ni ∧ s.ringReady m (aNI_CTRL i.die i.ni) ∧
      b ≠ s.bit (aNI_CTRL i.die i.ni) fNI_CTRL_LOOP ∧ ((i.die = 6 ∨
      s.bit (aNI_STATUS i.die i.ni) fNI_STATUS_DRAINED = false)))) w0 .core0 (⟨6, 9⟩) true) = true := by decide +kernel

theorem witness_SpillAndReplay_14 :
    (fun (s : State) (i : NiId) (q : Packet) (k n : Nat) => s.Inv ∧ niExists i.die i.ni ∧
      ((s.ni i.die i.ni).replay = some (recordBytes q k n)) ∧ (s.ni i.die i.ni).replayRead ≠ 0 ∧
      ((s.ni i.die i.ni).replayStatus = 0) ∧ (s.niForced i.die i.ni = false) ∧ (q.data.length ≤ 8) ∧
      s.spCount i.die i.ni ≠ 0) ((setAll (w0.setNi 2 9 { Ni.empty with replay := some (recordBytes ⟨5, [7]⟩ 3 4), replayRead := 1 }) [(aSP_STAT 2 9,
      fSP_STAT_COUNT, 1)])) (⟨2, 9⟩) (⟨5, [7]⟩) 3 4 :=
  ⟨by decide +kernel, by decide +kernel, rfl, by decide +kernel, by decide +kernel, by decide +kernel, by decide +kernel, by decide +kernel⟩

theorem witness_SpillAndReplay :
    ((fun (s : State) (m : Rm) (i : NiId) (v : W32) => decide (s.Inv ∧ niExists i.die i.ni ∧ s.ringReady m (aSP_CTRL i.die i.ni) ∧
      getB v fSP_CTRL_EN ∧ s.spRegionOk i.die i.ni ∧
      (s.bit (aSP_CTRL i.die i.ni) fSP_CTRL_EN = false))) ((setAll w0 [(aSP_SIZE 6 9, fSP_SIZE_RECORDS, 4)])) .core0 (⟨6,
      9⟩) 1#32 &&
    (fun (s : State) (m : Rm) (i : NiId) (v : W32) => decide (s.Inv ∧ niExists i.die i.ni ∧ s.ringReady m (aSP_CTRL i.die i.ni) ∧
      getB v fSP_CTRL_EN ∧ s.spRegionOk i.die i.ni ∧ s.bit (aSP_CTRL i.die i.ni) fSP_CTRL_EN)) ((setAll w0 [(aSP_SIZE 6 9,
      fSP_SIZE_RECORDS, 4), (aSP_CTRL 6 9, fSP_CTRL_EN, 1)])) .core0 (⟨6, 9⟩) 1#32 &&
    (fun (s : State) (m : Rm) (i : NiId) (v : W32) => decide (s.Inv ∧ niExists i.die i.ni ∧ s.ringReady m (aSP_CTRL i.die i.ni) ∧
      (getB v fSP_CTRL_EN = false) ∧ ((s.bit (aSP_CTRL i.die i.ni) fSP_CTRL_EN = false ∨
      s.spCount i.die i.ni = 0)))) w0 .core0 (⟨6, 9⟩) 0#32 &&
    (fun (s : State) (m : Rm) (i : NiId) (v : W32) => decide (s.Inv ∧ niExists i.die i.ni ∧ s.ringReady m (aSP_CTRL i.die i.ni) ∧
      (((getB v fSP_CTRL_EN ∧ s.spRegionOk i.die i.ni = false) ∨ (getB v fSP_CTRL_EN = false ∧
      s.bit (aSP_CTRL i.die i.ni) fSP_CTRL_EN ∧ s.spCount i.die i.ni ≠ 0))))) w0 .core0 (⟨6, 9⟩) 1#32 &&
    (fun (s : State) (i : NiId) (k : Nat) => decide (s.Inv ∧ s.niLive i.die i.ni ∧ ((s.ni i.die i.ni).fullSince = some k) ∧
      s.bit (aSP_CTRL i.die i.ni) fSP_CTRL_EN ∧ (s.bit (aSP_STAT i.die i.ni) fSP_STAT_BROKEN = false) ∧
      (s.bit (aSP_STAT i.die i.ni) fSP_STAT_SPILLING = false) ∧ (s.ni i.die i.ni).full 2 ∧ s.headerWaits i.die i.ni 0 ∧
      (k + max 16 (s.fld (aBE_CFG i.die i.ni) fBE_CFG_SPILL_THR) ≤ s.now))) ((tk 70000 (setAll ((wEj 0).setNi 2 9 { Ni.empty with fullSince := some 0, fifo2 := List.replicate 64 ⟨0, true⟩ }) [(aSP_CTRL 2 9,
      fSP_CTRL_EN, 1)]))) (⟨2, 9⟩) 0 &&
    (fun (s : State) (i : NiId) (x : BeItem) => decide (s.Inv ∧ s.niLive i.die i.ni ∧ s.niAccepts i.die i.ni ∧
      (s.ejected i.die i.ni 0 = some x) ∧ s.bit (aSP_STAT i.die i.ni) fSP_STAT_SPILLING ∧
      (s.bit (aSP_STAT i.die i.ni) fSP_STAT_BROKEN = false) ∧ ((s.ni i.die i.ni).spillHeld = []) ∧
      s.spCount i.die i.ni < s.spSize i.die i.ni ∧ hFormOk x.pkt.hdr ∧
      (hNdata x.pkt.hdr = x.pkt.data.length))) ((setAll (wEj 0) [(aSP_STAT 2 9, fSP_STAT_SPILLING, 1), (aSP_SIZE 2 9,
      fSP_SIZE_RECORDS, 4)])) (⟨2, 9⟩) ((wEjItem 0)) &&
    (fun (s : State) (i : NiId) (g : Nat) (q : SpillHeld) (l : List SpillHeld) (r : List (Nat × Nat)) => decide (s.Inv ∧
      niExists i.die i.ni ∧ ((s.ni i.die i.ni).spillHeld = q :: l) ∧ ((s.ni i.die i.ni).spillRsp = (g, 0) :: r) ∧ q.step ≠ 0 ∧
      s.spCount i.die i.ni + 1 < s.spSize i.die i.ni)) ((setAll (w0.setNi 2 9 { Ni.empty with spillRsp := [(0, 0)], spillHeld := [⟨⟨0, []⟩, 0, 0, 0, 1⟩] }) [(aSP_SIZE 2 9,
      fSP_SIZE_RECORDS, 4)])) (⟨2, 9⟩) 0 (⟨⟨0, []⟩, 0, 0, 0, 1⟩) ([]) ([]) &&
    (fun (s : State) (i : NiId) (g : Nat) (q : SpillHeld) (l : List SpillHeld) (r : List (Nat × Nat)) => decide (s.Inv ∧
      niExists i.die i.ni ∧ ((s.ni i.die i.ni).spillHeld = q :: l) ∧ ((s.ni i.die i.ni).spillRsp = (g, 0) :: r) ∧ q.step ≠ 0 ∧
      (s.spCount i.die i.ni + 1 = s.spSize i.die i.ni))) ((setAll (setAll (w0.setNi 2 9 { Ni.empty with spillRsp := [(0, 0)], spillHeld := [⟨⟨0, []⟩, 0, 0, 0, 1⟩] }) [(aSP_SIZE 2 9,
      fSP_SIZE_RECORDS, 4)]) [(aSP_SIZE 2 9, fSP_SIZE_RECORDS, 1)])) (⟨2, 9⟩) 0 (⟨⟨0, []⟩, 0, 0, 0, 1⟩) ([]) ([]) &&
    (fun (s : State) (i : NiId) (g : Nat) (q : SpillHeld) (l : List SpillHeld) (r : List (Nat × Nat)) => decide (s.Inv ∧
      niExists i.die i.ni ∧ ((s.ni i.die i.ni).spillHeld = q :: l) ∧ ((s.ni i.die i.ni).spillRsp = (g, 0) :: r) ∧
      (q.step = 0))) ((setAll (w0.setNi 2 9 { Ni.empty with spillRsp := [(0, 0)], spillHeld := [⟨⟨0, []⟩, 0, 0, 0, 0⟩] }) [(aSP_SIZE 2 9,
      fSP_SIZE_RECORDS, 4)])) (⟨2, 9⟩) 0 (⟨⟨0, []⟩, 0, 0, 0, 0⟩) ([]) ([]) &&
    (fun (s : State) (i : NiId) (g e : Nat) (q : SpillHeld) (l : List SpillHeld) (r : List (Nat × Nat)) => decide (s.Inv ∧
      niExists i.die i.ni ∧ ((s.ni i.die i.ni).spillHeld = q :: l) ∧ ((s.ni i.die i.ni).spillRsp = (g, e) :: r) ∧
      e ≠ 0)) ((setAll (w0.setNi 2 9 { Ni.empty with spillRsp := [(0, 1)], spillHeld := [⟨⟨0, []⟩, 0, 0, 0, 0⟩] }) [(aSP_SIZE 2 9,
      fSP_SIZE_RECORDS, 4)])) (⟨2, 9⟩) 0 1 (⟨⟨0, []⟩, 0, 0, 0, 0⟩) ([]) ([]) &&
    (fun (s : State) (i : NiId) => decide (s.Inv ∧ s.niLive i.die i.ni ∧ s.spCount i.die i.ni ≠ 0 ∧
      ((s.ni i.die i.ni).replay = none) ∧ (((s.ni i.die i.ni).held 2 + 9 ≤ 64 ∨ s.niForced i.die i.ni)))) ((st [(aSP_STAT 2 9,
      fSP_STAT_COUNT, 1)])) (⟨2, 9⟩) &&
    (fun (s : State) (i : NiId) (l : List Byte) => decide (s.Inv ∧ niExists i.die i.ni ∧ ((s.ni i.die i.ni).replay = some l) ∧
      (s.ni i.die i.ni).replayRead ≠ 0 ∧
      (s.ni i.die i.ni).replayStatus ≠ 0)) ((setAll (w0.setNi 2 9 { Ni.empty with replay := some [], replayRead := 1, replayStatus := 3 }) [(aSP_STAT 2 9,
      fSP_STAT_COUNT, 1)])) (⟨2, 9⟩) ([]) &&
    (fun (s : State) (i : NiId) (l : List Byte) => decide (s.Inv ∧ niExists i.die i.ni ∧ ((s.ni i.die i.ni).replay = some l) ∧
      (s.ni i.die i.ni).replayRead ≠ 0 ∧ ((s.ni i.die i.ni).replayStatus = 0) ∧ (s.niForced i.die i.ni = false) ∧
      (l.getD 44 0).toNat ≠ 0 ∧
      l.length < 512)) ((setAll (w0.setNi 2 9 { Ni.empty with replay := some (List.replicate 256 1#8), replayRead := 1 }) [(aSP_STAT 2 9,
      fSP_STAT_COUNT, 1)])) (⟨2, 9⟩) ((List.replicate 256 1#8)) &&
    (fun (s : State) (i : NiId) (l : List Byte) => decide (s.Inv ∧ niExists i.die i.ni ∧ ((s.ni i.die i.ni).replay = some l) ∧
      (s.ni i.die i.ni).replayRead ≠ 0 ∧ ((s.ni i.die i.ni).replayStatus = 0) ∧
      s.niForced i.die i.ni)) ((setAll (w0.setNi 2 9 { Ni.empty with replay := some [], replayRead := 1, disStep := 2 }) [(aSP_STAT 2 9,
      fSP_STAT_COUNT, 1), (aNI_CTRL 2 9, fNI_CTRL_FORCE, 1)])) (⟨2, 9⟩) ([])) = true := by decide +kernel

theorem witness_LinkTraining_16 :
    (fun (s : State) (l : LinkId) (f : LinkFrame) => s.Inv ∧ s.lmLive l ∧ (s.tickN % 4 = 2) ∧ (s.lmState (linkBase l) = 5) ∧
      (isCrossing (linkBase l) = false) ∧ s.framePasses (linkBase l) f) ((tk 2 (wLink 5))) wL (wFr 9 3 1984) :=
  ⟨by decide +kernel, by decide +kernel, by decide +kernel, by decide +kernel, by decide +kernel, wFr_passes _ _ _ _ _ (by decide +kernel) (by decide +kernel) (by decide +kernel)⟩

theorem witness_LinkTraining_17 :
    (fun (s : State) (l : LinkId) (f : LinkFrame) => s.Inv ∧ s.lmLive l ∧ (s.tickN % 4 = 2) ∧ (s.lmState (linkBase l) = 6) ∧
      (isCrossing (linkBase l) = false) ∧ s.framePasses (linkBase l) f ∧ (f.vld = 0) ∧ (f.marginErr = false) ∧
      (frameRetrain f = false) ∧ (s.lm (linkBase l)).passRun < 1023) wLinkRun wL (wFr 0 0 1984) :=
  ⟨by decide +kernel, by decide +kernel, by decide +kernel, by decide +kernel, by decide +kernel, wFr_passes _ _ _ _ _ (by decide +kernel) (by decide +kernel) (by decide +kernel), by decide +kernel, by decide +kernel, by decide +kernel, by decide +kernel⟩

theorem witness_LinkTraining_18 :
    (fun (s : State) (l : LinkId) (f : LinkFrame) (j w k : Nat) => s.Inv ∧ s.lmLive l ∧ (s.tickN % 4 = 2) ∧
      (s.lmState (linkBase l) = 6) ∧ (isCrossing (linkBase l) = false) ∧ s.framePasses (linkBase l) f ∧ j < 4 ∧
      (frameClass f j = 3) ∧
      (s.posEntry (linkBase l) (s.tickN + 2 + j + (if (linkDest (linkBase l)).2.1 = 7 then 4 else 0)) = some (w,
      k))) wLinkRun wL (wFr 9 3 1984) 0 5 0 :=
  ⟨by decide +kernel, by decide +kernel, by decide +kernel, by decide +kernel, by decide +kernel, wFr_passes _ _ _ _ _ (by decide +kernel) (by decide +kernel) (by decide +kernel), by decide +kernel, by decide +kernel, by decide +kernel⟩

theorem witness_LinkTraining_19 :
    (fun (s : State) (l : LinkId) (f : LinkFrame) (j : Nat) => s.Inv ∧ s.lmLive l ∧ (s.tickN % 4 = 2) ∧
      (s.lmState (linkBase l) = 6) ∧ (isCrossing (linkBase l) = false) ∧ s.framePasses (linkBase l) f ∧ j < 4 ∧
      (frameClass f j = 3) ∧ (f.vld = BitVec.ofNat 8 (3 * 4 ^ j)) ∧
      (s.posEntry (linkBase l) (s.tickN + 2 + j + (if (linkDest (linkBase l)).2.1 = 7 then 4 else 0)) = none) ∧
      s.pat.log.length < 16) ({ wLinkRun with pat := { wLinkRun.pat with store := [] } }) wL (wFr 9 3 1984) 0 :=
  ⟨by decide +kernel, by decide +kernel, by decide +kernel, by decide +kernel, by decide +kernel, wFr_passes _ _ _ _ _ (by decide +kernel) (by decide +kernel) (by decide +kernel), by decide +kernel, by decide +kernel, by decide +kernel, by decide +kernel, by decide +kernel⟩

theorem witness_LinkTraining_20 :
    (fun (s : State) (l : LinkId) (f : LinkFrame) (j : Nat) (c d n p : Nat) => s.Inv ∧ s.lmLive l ∧ (s.tickN % 4 = 2) ∧
      (s.lmState (linkBase l) = 6) ∧ (isCrossing (linkBase l) = false) ∧ s.framePasses (linkBase l) f ∧ j < 4 ∧ (1 ≤ c) ∧
      (c ≤ 2) ∧ (f.vld = BitVec.ofNat 8 (c * 4 ^ j)) ∧ (s.be.items.all (fun x => x.via != some (.link (linkBase l)))) ∧
      (linkInput (linkBase l) = some (d, n, p)) ∧ (hNdata (framePos f j) = 0) ∧
      ((if c = 1 then (s.lm (linkBase l)).rxReq else (s.lm (linkBase l)).rxRsp).isNone) ∧
      (frameRetrain f = false)) wLinkRun wL (wFr 0 1 1984) 0 1 1 27 2 :=
  ⟨by decide +kernel, by decide +kernel, by decide +kernel, by decide +kernel, by decide +kernel, wFr_passes _ _ _ _ _ (by decide +kernel) (by decide +kernel) (by decide +kernel), by decide +kernel, by decide +kernel, by decide +kernel, by decide +kernel, by decide +kernel, by decide +kernel, by decide +kernel, by decide +kernel, by decide +kernel⟩

theorem witness_LinkTraining_21 :
    (fun (s : State) (l : LinkId) (f : LinkFrame) => s.Inv ∧ s.lmLive l ∧ (s.tickN % 4 = 2) ∧ (s.lmState (linkBase l) = 5) ∧
      (s.framePasses (linkBase l) f = false)) ((tk 2 (wLink 5))) wL (wFrBad 9 3 1984) :=
  ⟨by decide +kernel, by decide +kernel, by decide +kernel, by decide +kernel, wFrBad_fails _ _ _ _ _ (by decide +kernel)⟩

theorem witness_LinkTraining_22 :
    (fun (s : State) (l : LinkId) (f : LinkFrame) => s.Inv ∧ s.lmLive l ∧ (s.tickN % 4 = 2) ∧ (s.lmState (linkBase l) = 6) ∧
      (s.framePasses (linkBase l) f = false) ∧ ((frameMask f = s.lmMask (linkBase l) ∨
      s.fld (aLM_STATUS (linkBase l)) fLM_STATUS_MISMATCH ≠ 2)) ∧
      ((s.lm (linkBase l)).resyncAt.all (fun k => decide (k + 65536 ≤ s.now)))) wLinkRun wL (wFrBad 9 3 1984) :=
  ⟨by decide +kernel, by decide +kernel, by decide +kernel, by decide +kernel, wFrBad_fails _ _ _ _ _ (by decide +kernel), by decide +kernel, by decide +kernel⟩

theorem witness_LinkTraining_23 :
    (fun (s : State) (l : LinkId) (f : LinkFrame) (k : Nat) => s.Inv ∧ s.lmLive l ∧ (s.tickN % 4 = 2) ∧
      (s.lmState (linkBase l) = 6) ∧ (s.framePasses (linkBase l) f = false) ∧ ((frameMask f = s.lmMask (linkBase l) ∨
      s.fld (aLM_STATUS (linkBase l)) fLM_STATUS_MISMATCH ≠ 2)) ∧ ((s.lm (linkBase l)).resyncAt = some k) ∧
      s.now < k + 65536) ((wLinkRun.setLm (linkBase wL) { Lm.empty with resyncAt := some 0 })) wL (wFrBad 9 3 1984) 0 :=
  ⟨by decide +kernel, by decide +kernel, by decide +kernel, by decide +kernel, wFrBad_fails _ _ _ _ _ (by decide +kernel), by decide +kernel, by decide +kernel, by decide +kernel⟩

theorem witness_LinkTraining_24 :
    (fun (s : State) (l : LinkId) (f : LinkFrame) => s.Inv ∧ s.lmLive l ∧ (s.tickN % 4 = 2) ∧ (s.lmState (linkBase l) = 6) ∧
      (s.framePasses (linkBase l) f = false) ∧ frameMask f ≠ s.lmMask (linkBase l) ∧
      (s.fld (aLM_STATUS (linkBase l)) fLM_STATUS_MISMATCH = 2)) ((setAll wLinkRun [(aLM_STATUS (linkBase wL),
      fLM_STATUS_MISMATCH, 2)])) wL (wFrBad 9 3 0) :=
  ⟨by decide +kernel, by decide +kernel, by decide +kernel, by decide +kernel, wFrBad_fails _ _ _ _ _ (by decide +kernel), by decide +kernel, by decide +kernel⟩

theorem witness_LinkTraining_25 :
    (fun (s : State) (l : LinkId) (f : LinkFrame) => s.Inv ∧ s.lmLive l ∧ (s.tickN % 4 = 2) ∧ (s.lmState (linkBase l) = 6) ∧
      s.framePasses (linkBase l) f ∧ isCrossing (linkBase l) ∧ (f.marginErr = false) ∧
      (s.lm (linkBase l)).passRun < 1023) ((tk 2 (setAll w0 [(aLM_STATUS (ra 1 0x512 0), fLM_STATUS_MASK, 31),
      (aLM_STATUS (ra 1 0x512 0), fLM_STATUS_STATE, 6)]))) (⟨1, 0x512, 0⟩) (wXc 1984) :=
  ⟨by decide +kernel, by decide +kernel, by decide +kernel, by decide +kernel, wXc_passes _ _ _ (by decide +kernel) (by decide +kernel) (by decide +kernel), by decide +kernel, by decide +kernel, by decide +kernel⟩

theorem witness_LinkTraining :
    ((fun (s : State) (l : LinkId) (w : W32) => decide (s.Inv ∧ s.lmListens l ∧ wordOk w ∧
      (({ s.lm (linkBase l) with lastWord := w, prevWord := (s.lm (linkBase l)).lastWord } : Lm).twice 4 4 ≠ some 1))) w0 (⟨2,
      0x500, 1⟩) 0xC000000C#32 &&
    (fun (s : State) (l : LinkId) (w : W32) => decide (s.Inv ∧ s.lmListens l ∧ wordOk w ∧
      (({ s.lm (linkBase l) with lastWord := w, prevWord := (s.lm (linkBase l)).lastWord } : Lm).twice 4 4 = some 1))) ((wUp.setLm (linkBase wL) { Lm.empty with lastWord := 0xC000001D#32 })) wL 0xC000001D#32 &&
    (fun (s : State) (l : LinkId) (w : W32) => decide (s.Inv ∧ ((s.lmListens l = false ∨ wordOk w = false)))) w0 (⟨2, 0x500,
      1⟩) 0#32 &&
    (fun (s : State) (l : LinkId) (c c2 : Bool) => decide (s.Inv ∧ s.lmLive l ∧ ((c ∨ c2)) ∧ (s.lmState (linkBase l) = 1) ∧
      ((s.lm (linkBase l)).stageAt + 256 ≤ s.now))) ((tk 300 (wLink 1))) wL true false &&
    (fun (s : State) (l : LinkId) (c c2 : Bool) => decide (s.Inv ∧ ((s.lmLive l = false ∨ (c = false ∧ c2 = false) ∨
      s.lmState (linkBase l) ≠ 1 ∨ s.now < (s.lm (linkBase l)).stageAt + 256)))) w0 wL true false &&
    (fun (s : State) (l : LinkId) => decide (s.Inv ∧ s.lmLive l ∧ (s.lmState (linkBase l) = 2) ∧
      ((s.lm (linkBase l)).stageAt + 6144 ≤ s.now))) ((tk 7000 (wLink 2))) wL &&
    (fun (s : State) (l : LinkId) => decide (s.Inv ∧ ((s.lmLive l = false ∨ s.lmState (linkBase l) ≠ 2 ∨
      s.now < (s.lm (linkBase l)).stageAt + 6144)))) w0 wL &&
    (fun (s : State) (l : LinkId) (e : BitVec 169) (g k : Nat) => decide (s.Inv ∧ s.lmLive l ∧ (s.lmState (linkBase l) = 3) ∧
      ((s.lm (linkBase l)).stageAt + 4096 ≤ s.now) ∧
      (decideMask e (s.lm (linkBase l)).margin (s.fld (aLM_CTRL (linkBase l)) fLM_CTRL_CAP) = some (g,
      k)))) ((tk 7000 (wLink 3))) wL 0#169 7 31 &&
    (fun (s : State) (l : LinkId) (e : BitVec 169) => decide (s.Inv ∧ s.lmLive l ∧ (s.lmState (linkBase l) = 3) ∧
      ((s.lm (linkBase l)).stageAt + 4096 ≤ s.now) ∧
      (decideMask e (s.lm (linkBase l)).margin (s.fld (aLM_CTRL (linkBase l)) fLM_CTRL_CAP) = none))) ((tk 7000 (wLink 3))) wL (BitVec.allOnes 169) &&
    (fun (s : State) (l : LinkId) (e : BitVec 169) => decide (s.Inv ∧ ((s.lmLive l = false ∨ s.lmState (linkBase l) ≠ 3 ∨
      s.now < (s.lm (linkBase l)).stageAt + 4096)))) w0 wL 0#169 &&
    (fun (s : State) (l : LinkId) => decide (s.Inv ∧ s.lmLive l ∧ (s.lmState (linkBase l) = 4) ∧
      ((s.lm (linkBase l)).twice 24 20 = some (bitsOf (s.lm (linkBase l)).decided.toNat 4 0)) ∧
      ((s.lm (linkBase l)).twice 19 17 = some (bitsOf (s.lm (linkBase l)).decided.toNat 7 5)) ∧
      ((s.lm (oppBase (linkBase l))).twice 12 8 = some (bitsOf (s.lm (linkBase l)).decided.toNat 4 0)) ∧
      ((s.lm (oppBase (linkBase l))).twice 7 5 = some (bitsOf (s.lm (linkBase l)).decided.toNat 7 5)))) ((((wLink 4).setLm (linkBase wL) { Lm.empty with lastWord := 0xC000000C#32, prevWord := 0xC000000C#32 }).setLm (oppBase (linkBase wL)) { Lm.empty with lastWord := 0xC000000C#32, prevWord := 0xC000000C#32 })) wL &&
    (fun (s : State) (l : LinkId) => decide (s.Inv ∧ ((s.lmLive l = false ∨ s.lmState (linkBase l) ≠ 4 ∨
      (s.lm (linkBase l)).twice 24 20 ≠ some (bitsOf (s.lm (linkBase l)).decided.toNat 4 0) ∨
      (s.lm (linkBase l)).twice 19 17 ≠ some (bitsOf (s.lm (linkBase l)).decided.toNat 7 5) ∨
      (s.lm (oppBase (linkBase l))).twice 12 8 ≠ some (bitsOf (s.lm (linkBase l)).decided.toNat 4 0) ∨
      (s.lm (oppBase (linkBase l))).twice 7 5 ≠ some (bitsOf (s.lm (linkBase l)).decided.toNat 7 5))))) w0 wL &&
    (fun (s : State) (l : LinkId) => decide (s.Inv ∧ s.lmLive l ∧ (s.lmState (linkBase l) = 5) ∧
      (16 ≤ (s.lm (linkBase l)).passRun) ∧
      (s.tickN % 4 = 2))) ((tk 2 ((wLink 5).setLm (linkBase wL) { Lm.empty with passRun := 16 }))) wL &&
    (fun (s : State) (l : LinkId) => decide (s.Inv ∧ ((s.lmLive l = false ∨ s.lmState (linkBase l) ≠ 5 ∨
      (s.lm (linkBase l)).passRun < 16 ∨ s.tickN % 4 ≠ 2)))) w0 wL &&
    (fun (s : State) (l : LinkId) (k : Nat) => decide (s.Inv ∧ s.lmLive l ∧ (stageLimit (s.lmState (linkBase l)) = some k) ∧
      ((s.lmState (linkBase l) ≠ 1 ∨ (s.lm (linkBase l)).clkGone = false)) ∧
      ((s.lm (linkBase l)).stageAt + k ≤ s.now))) ((tk 7000 (wLink 3))) wL 4096 &&
    (fun (s : State) (l : LinkId) => decide (s.Inv ∧ ((s.lmLive l = false ∨ stageLimit (s.lmState (linkBase l)) = none ∨
      (s.lmState (linkBase l) = 1 ∧ (s.lm (linkBase l)).clkGone) ∨
      s.now < (s.lm (linkBase l)).stageAt + (stageLimit (s.lmState (linkBase l))).getD 0)))) w0 wL &&
    (fun (s : State) (l : LinkId) (f : LinkFrame) => decide (s.Inv ∧ ((s.lmLive l = false ∨ s.tickN % 4 ≠ 2 ∨
      (s.lmState (linkBase l) ≠ 5 ∧ s.lmState (linkBase l) ≠ 6))))) w0 wL (wFr 9 3 1984)) = true := by decide +kernel

theorem witness_LinkControl :
    ((fun (s : State) (m : Rm) (l : LinkId) => decide (s.Inv ∧ linkExists l ∧ s.ringReady m (aLM_CTRL (linkBase l)) ∧
      s.lmState (linkBase l) ≠ 7)) wUp .core0 (⟨1, 0x503, 0⟩) &&
    (fun (s : State) (m : Rm) (l : LinkId) => decide (s.Inv ∧ linkExists l ∧ s.ringReady m (aLM_CTRL (linkBase l)) ∧
      (s.lmState (linkBase l) = 7))) ((setAll wUp [(aLM_STATUS (ra 1 0x503 0), fLM_STATUS_STATE, 7)])) .core0 (⟨1, 0x503, 0⟩) &&
    (fun (s : State) (m : Rm) (l : LinkId) => decide (s.Inv ∧ linkExists l ∧ s.ringReady m (aLM_CTRL (linkBase l)) ∧
      (s.bit (aLM_CTRL (linkBase l)) fLM_CTRL_FENCE = false) ∧
      (s.lmState (linkBase l) = 7))) ((setAll wUp [(aLM_STATUS (ra 1 0x503 0), fLM_STATUS_STATE, 7)])) .core0 (⟨1, 0x503, 0⟩) &&
    (fun (s : State) (m : Rm) (l : LinkId) => decide (s.Inv ∧ linkExists l ∧ s.ringReady m (aLM_CTRL (linkBase l)) ∧
      (s.bit (aLM_CTRL (linkBase l)) fLM_CTRL_FENCE = false) ∧ s.lmState (linkBase l) ≠ 7)) wUp .core0 (⟨1, 0x503, 0⟩) &&
    (fun (s : State) (m : Rm) (l : LinkId) => decide (s.Inv ∧ linkExists l ∧ s.ringReady m (aLM_CTRL (linkBase l)) ∧
      (s.bit (aLM_CTRL (linkBase l)) fLM_CTRL_FENCE = false) ∧ (s.bit (aLM_CTRL (linkBase l)) fLM_CTRL_UNFENCE = false) ∧
      s.lmState (linkBase l) ≠ 7)) wUp .core0 (⟨1, 0x503, 0⟩) &&
    (fun (s : State) (m : Rm) (l : LinkId) => decide (s.Inv ∧ linkExists l ∧ s.ringReady m (aLM_CTRL (linkBase l)) ∧
      (s.bit (aLM_CTRL (linkBase l)) fLM_CTRL_FENCE = false) ∧ (s.bit (aLM_CTRL (linkBase l)) fLM_CTRL_UNFENCE = false) ∧
      (s.lmState (linkBase l) = 7))) ((setAll wUp [(aLM_STATUS (ra 1 0x503 0), fLM_STATUS_STATE, 7)])) .core0 (⟨1, 0x503, 0⟩) &&
    (fun (s : State) (m : Rm) (l : LinkId) => decide (s.Inv ∧ linkExists l ∧ s.ringReady m (aLM_CTRL (linkBase l)) ∧
      (s.bit (aLM_CTRL (linkBase l)) fLM_CTRL_FENCE = false) ∧ (s.bit (aLM_CTRL (linkBase l)) fLM_CTRL_UNFENCE = false) ∧
      (s.bit (aLM_CTRL (linkBase l)) fLM_CTRL_RETRAIN = false))) wUp .core0 (⟨1, 0x503, 0⟩) &&
    (fun (s : State) (m : Rm) (l : LinkId) (k : Fin 4) (e : BitVec 169) => decide (s.Inv ∧ linkExists l ∧
      s.ringReady m (aLM_CTRL (linkBase l)) ∧ (s.bit (aLM_CTRL (linkBase l)) fLM_CTRL_FENCE = false) ∧
      (s.bit (aLM_CTRL (linkBase l)) fLM_CTRL_UNFENCE = false) ∧ (s.bit (aLM_CTRL (linkBase l)) fLM_CTRL_RETRAIN = false) ∧
      ((s.loopAllowed (linkBase l) ∨ k.val = s.fld (aLM_CTRL (linkBase l)) fLM_CTRL_LOOP)) ∧
      k.val ≠ 0)) ((setAll wUp [(aLM_STATUS (ra 1 0x503 0), fLM_STATUS_STATE, 7), (aLM_STATUS (ra 1 0x503 0x40),
      fLM_STATUS_STATE, 7)])) .core0 (⟨1, 0x503, 0⟩) 2 5#169 &&
    (fun (s : State) (m : Rm) (l : LinkId) (k : Fin 4) (e : BitVec 169) => decide (s.Inv ∧ linkExists l ∧
      s.ringReady m (aLM_CTRL (linkBase l)) ∧ (s.bit (aLM_CTRL (linkBase l)) fLM_CTRL_FENCE = false) ∧
      (s.bit (aLM_CTRL (linkBase l)) fLM_CTRL_UNFENCE = false) ∧ (s.bit (aLM_CTRL (linkBase l)) fLM_CTRL_RETRAIN = false) ∧
      ((s.loopAllowed (linkBase l) ∨ k.val = s.fld (aLM_CTRL (linkBase l)) fLM_CTRL_LOOP)) ∧
      (k.val = 0))) ((setAll wUp [(aLM_STATUS (ra 1 0x503 0), fLM_STATUS_STATE, 7), (aLM_STATUS (ra 1 0x503 0x40),
      fLM_STATUS_STATE, 7)])) .core0 (⟨1, 0x503, 0⟩) 0 5#169 &&
    (fun (s : State) (m : Rm) (l : LinkId) (k : Fin 4) (e : BitVec 169) => decide (s.Inv ∧ linkExists l ∧
      s.ringReady m (aLM_CTRL (linkBase l)) ∧ (s.loopAllowed (linkBase l) = false) ∧
      k.val ≠ s.fld (aLM_CTRL (linkBase l)) fLM_CTRL_LOOP)) wUp .core0 (⟨1, 0x503, 0⟩) 2 5#169 &&
    (fun (s : State) (l : LinkId) (d n p : Nat) (v : Fin 2) => decide (s.Inv ∧ s.lmLive l ∧ (s.lmState (linkBase l) = 6) ∧
      (s.lmState (oppBase (linkBase l)) = 6) ∧ ((s.lm (linkBase l)).stageAt + 32 ≤ s.now) ∧
      ((s.lm (oppBase (linkBase l))).stageAt + 32 ≤ s.now) ∧
      (s.be.items.all (fun x => x.via != some (.link (linkBase l)) || decide (x.comes.getLastD 0 + 32 ≤ s.now))) ∧
      (linkInput (linkBase l) = some (d, n, p)) ∧ ((s.lm (linkBase l)).resynced = false))) ((tk 40 wUp)) (⟨1, 0x503,
      0⟩) 1 27 2 1 &&
    (fun (s : State) (l : LinkId) => decide (s.Inv ∧ ((s.lmLive l = false ∨ s.lmState (linkBase l) ≠ 6 ∨
      s.lmState (oppBase (linkBase l)) ≠ 6 ∨ s.now < (s.lm (linkBase l)).stageAt + 32 ∨
      s.now < (s.lm (oppBase (linkBase l))).stageAt + 32 ∨ (s.lm (linkBase l)).resynced ∨
      linkInput (linkBase l) = none)))) w0 (⟨1, 0x503, 0⟩) &&
    (fun (s : State) (l : LinkId) (k : Nat) => decide (s.Inv ∧ linkExists l ∧ s.runs ∧ ((([0, 3,
      7] : List Nat).flatMap loopEdges).find? (fun e => e.1 == (linkBase l)) = some ((linkBase l), k)) ∧ (linkBase l) ≠ k ∧
      ([Rm.core0, Rm.debug, Rm.config].all (fun m => !(s.master m).busy || (s.master m).answered || !(s.master m).req.write)) ∧
      (tget (fun _ => false) s.share1 (linkBase l) = false) ∧
      s.shareLost (linkBase l))) ((tk 2000 (setAll wUp [(aLM_STATUS (ra 0 0x500 0), fLM_STATUS_STATE, 7)]))) (⟨0, 0x500,
      0⟩) ((ra 0 0x501 0)) &&
    (fun (s : State) (l : LinkId) (k : Nat) => decide (s.Inv ∧ linkExists l ∧ s.runs ∧ ((([0, 3,
      7] : List Nat).flatMap loopEdges).find? (fun e => e.1 == (linkBase l)) = some ((linkBase l), k)) ∧ (linkBase l) ≠ k ∧
      ([Rm.core0, Rm.debug, Rm.config].all (fun m => !(s.master m).busy || (s.master m).answered || !(s.master m).req.write)) ∧
      (tget (fun _ => false) s.share1 (linkBase l) = true) ∧ s.shareLost k ∧
      (s.lmState (linkBase l) = 6))) ({ setAll wUp [(aLM_STATUS (ra 0 0x501 0), fLM_STATUS_STATE, 7)] with share1 := [(ra 0 0x500 0, true)] }) (⟨0,
      0x500, 0⟩) ((ra 0 0x501 0)) &&
    (fun (s : State) (l : LinkId) (k : Nat) => decide (s.Inv ∧ ((([0, 3,
      7] : List Nat).flatMap loopEdges).find? (fun e => e.1 == (linkBase l)) = some ((linkBase l), k)) ∧
      ((if tget (fun _ => false) s.share1 (linkBase l) then s.shareLost k && s.lmState (linkBase l) == 6 else s.shareLost (linkBase l)) = false))) wUp (⟨0,
      0x500, 0⟩) ((ra 0 0x501 0)) &&
    (fun (s : State) (l : LinkId) => decide (s.Inv ∧ s.lmListens l ∧ s.lmState (linkBase l) ≠ 0 ∧
      s.lmState (linkBase l) ≠ 7)) wUp (⟨1, 0x503, 0⟩) &&
    (fun (s : State) (l : LinkId) => decide (s.Inv ∧ ((s.lmListens l = false ∨ s.lmState (linkBase l) = 0 ∨
      s.lmState (linkBase l) = 7)))) w0 (⟨1, 0x503, 0⟩)) = true := by decide +kernel

theorem witness_LaneCommands :
    ((fun (s : State) (p : Fin 6) (i : Fin 16) (w : BitVec 56) => decide (s.Inv ∧ s.runs ∧ (s.tpState p.val = 1) ∧
      (bitsOf w.toNat 7 0 = 0xB5) ∧ (bitsOf w.toNat 15 8 = i.val) ∧
      ((List.range 6).foldl (fun c k => c ^^^ bitsOf w.toNat (8 * k + 7) (8 * k)) 0 = bitsOf w.toNat 55 48) ∧
      (w.getLsbD 20 = false) ∧
      ((0 ≤ tapStep (s.fld (aLN_TAP (portLane p.val i.val).1 (portLane p.val i.val).2) fLN_TAP_PRE) (bitsOf w.toNat 17 16) ∧
      tapStep (s.fld (aLN_TAP (portLane p.val i.val).1 (portLane p.val i.val).2) fLN_TAP_PRE) (bitsOf w.toNat 17 16) ≤ 6 ∧
      0 ≤ tapStep (s.fld (aLN_TAP (portLane p.val i.val).1 (portLane p.val i.val).2) fLN_TAP_POST) (bitsOf w.toNat 19 18) ∧
      tapStep (s.fld (aLN_TAP (portLane p.val i.val).1 (portLane p.val i.val).2) fLN_TAP_POST) (bitsOf w.toNat 19 18) ≤ 12)))) ((st [(aTP_STATUS 1,
      fTP_STATUS_STATE, 1)])) 1 5 wSet &&
    (fun (s : State) (p : Fin 6) (i : Fin 16) (w : BitVec 56) => decide (s.Inv ∧ s.runs ∧ (s.tpState p.val = 1) ∧
      (bitsOf w.toNat 7 0 = 0xB5) ∧ (bitsOf w.toNat 15 8 = i.val) ∧
      ((List.range 6).foldl (fun c k => c ^^^ bitsOf w.toNat (8 * k + 7) (8 * k)) 0 = bitsOf w.toNat 55 48) ∧
      (w.getLsbD 20 = false) ∧
      (¬ (0 ≤ tapStep (s.fld (aLN_TAP (portLane p.val i.val).1 (portLane p.val i.val).2) fLN_TAP_PRE) (bitsOf w.toNat 17 16) ∧
      tapStep (s.fld (aLN_TAP (portLane p.val i.val).1 (portLane p.val i.val).2) fLN_TAP_PRE) (bitsOf w.toNat 17 16) ≤ 6 ∧
      0 ≤ tapStep (s.fld (aLN_TAP (portLane p.val i.val).1 (portLane p.val i.val).2) fLN_TAP_POST) (bitsOf w.toNat 19 18) ∧
      tapStep (s.fld (aLN_TAP (portLane p.val i.val).1 (portLane p.val i.val).2) fLN_TAP_POST) (bitsOf w.toNat 19 18) ≤ 12)))) ((setAll w0 [(aTP_STATUS 1,
      fTP_STATUS_STATE, 1), (aLN_TAP (portLane 1 5).1 (portLane 1 5).2, fLN_TAP_PRE, 6)])) 1 5 wSet &&
    (fun (s : State) (p : Fin 6) (i : Fin 16) (w : BitVec 56) => decide (s.Inv ∧ s.runs ∧ (s.tpState p.val = 1) ∧
      (bitsOf w.toNat 7 0 = 0xB5) ∧ (bitsOf w.toNat 15 8 = i.val) ∧
      ((List.range 6).foldl (fun c k => c ^^^ bitsOf w.toNat (8 * k + 7) (8 * k)) 0 = bitsOf w.toNat 55 48) ∧
      w.getLsbD 20)) ((st [(aTP_STATUS 1, fTP_STATUS_STATE, 1)])) 1 5 wSetInit &&
    (fun (s : State) (p : Fin 6) (i : Fin 16) (w : BitVec 56) => decide (s.Inv ∧ s.runs ∧ (s.tpState p.val = 1) ∧
      ((bitsOf w.toNat 7 0 ≠ 0xB5 ∨ bitsOf w.toNat 15 8 ≠ i.val ∨
      (List.range 6).foldl (fun c k => c ^^^ bitsOf w.toNat (8 * k + 7) (8 * k)) 0 ≠ bitsOf w.toNat 55 48)))) ((st [(aTP_STATUS 1,
      fTP_STATUS_STATE, 1)])) 1 5 0 &&
    (fun (s : State) (p : Fin 6) (i : Fin 16) (w : BitVec 56) (e : BitVec 8) => decide (s.Inv ∧ s.runs ∧ (s.tpState p.val = 1) ∧
      e.getLsbD 0)) ((st [(aTP_STATUS 1, fTP_STATUS_STATE, 1)])) 1 5 wSet 5 &&
    (fun (s : State) (p : Fin 6) (i : Fin 16) (w : BitVec 56) (e : BitVec 8) => decide (s.Inv ∧ ((s.runs = false ∨
      s.tpState p.val ≠ 1)))) w0 1 5 wSet 5 &&
    (fun (s : State) (p : Fin 6) => decide (s.Inv ∧ s.runs ∧ (s.tpState p.val = 1) ∧
      ((List.range 16).all (fun i => (s.lane (portLane p.val i).1 (portLane p.val i).2).eqSeen && (s.lane (portLane p.val i).1 (portLane p.val i).2).eqDone)))) wEq 1 &&
    (fun (s : State) (p : Fin 6) => decide (s.Inv ∧ ((s.runs = false ∨ s.tpState p.val ≠ 1 ∨
      (List.range 16).all (fun i => (s.lane (portLane p.val i).1 (portLane p.val i).2).eqSeen && (s.lane (portLane p.val i).1 (portLane p.val i).2).eqDone) = false)))) w0 1 &&
    (fun (s : State) (m : Rm) (l : LaneId) => decide (s.Inv ∧ laneExists l ∧
      s.ringReady m (aLN_ALIGN (quadBlock l.die l.quad) l.lane))) w0 .core0 (⟨6, 3, 2⟩) &&
    (fun (s : State) (m : Rm) (l : LaneId) => decide (s.Inv ∧ laneExists l ∧
      s.ringReady m (aLN_ALIGN (quadBlock l.die l.quad) l.lane))) ((st [(aTP_STATUS 0, fTP_STATUS_STATE, 2)])) .core0 (⟨6, 3,
      2⟩) &&
    (fun (s : State) (p : Fin 6) (i : Fin 16) => decide (s.Inv ∧ s.runs ∧ (s.tpState p.val = 2) ∧
      (s.bit (aLN_ALIGN (portLane p.val i.val).1 (portLane p.val i.val).2) fLN_ALIGN_LOCKED = false) ∧
      ((s.port p.val).stageAt + 8192 ≤ s.now))) ((tk 9000 (st [(aTP_STATUS 1, fTP_STATUS_STATE, 2)]))) 1 15 &&
    (fun (s : State) (p : Fin 6) (i : Fin 16) => decide (s.Inv ∧ ((s.runs = false ∨ s.tpState p.val ≠ 2 ∨
      s.bit (aLN_ALIGN (portLane p.val i.val).1 (portLane p.val i.val).2) fLN_ALIGN_LOCKED ∨
      s.now < (s.port p.val).stageAt + 8192)))) w0 1 15 &&
    (fun (s : State) (p : Fin 6) (x : List (Option Nat)) => decide (s.Inv ∧ s.runs ∧
      (s.tpState p.val = 2))) ((setAll w0 [(aTP_STATUS 1, fTP_STATUS_STATE, 2), (aTP_CTRL 1, fTP_CTRL_FW_ALIGN,
      0)])) 1 (List.replicate 16 (some 3)) &&
    (fun (s : State) (p : Fin 6) (x : List (Option Nat)) => decide (s.Inv ∧ s.runs ∧ (s.tpState p.val = 3) ∧
      ((List.range 16).all (fun i => (x.getD i none).isSome)) ∧
      ((List.range 16).all (fun i => (List.range 16).all (fun j => decide ((x.getD i none).getD 0 ≤ (x.getD j none).getD 0 + 24)))))) ((st [(aTP_STATUS 1,
      fTP_STATUS_STATE, 3)])) 1 (List.replicate 16 (some 3)) &&
    (fun (s : State) (p : Fin 6) (x : List (Option Nat)) => decide (s.Inv ∧ s.runs ∧ (s.tpState p.val = 3) ∧
      ((List.range 16).all (fun i => (x.getD i none).isSome)) ∧
      (((List.range 16).all (fun i => (List.range 16).all (fun j => decide ((x.getD i none).getD 0 ≤ (x.getD j none).getD 0 + 24)))) = false))) ((st [(aTP_STATUS 1,
      fTP_STATUS_STATE, 3)])) 1 (some 30 :: List.replicate 15 (some 3)) &&
    (fun (s : State) (p : Fin 6) (x : List (Option Nat)) => decide (s.Inv ∧ s.runs ∧ ((s.tpState p.val = 6 ∨ s.tpState p.val = 7 ∨
      s.tpState p.val = 8)) ∧
      ((List.range 16).all (fun i => s.laneExcluded p.val i || x.getD i none == some 0)))) ((st [(aTP_STATUS 1,
      fTP_STATUS_STATE, 6)])) 1 (List.replicate 16 (some 0)) &&
    (fun (s : State) (p : Fin 6) (x : List (Option Nat)) (i : Fin 16) => decide (s.Inv ∧ s.runs ∧ ((s.tpState p.val = 6 ∨
      s.tpState p.val = 7 ∨ s.tpState p.val = 8)) ∧
      ((List.range i.val).all (fun i => s.laneExcluded p.val i || x.getD i none == some 0)) ∧
      (s.laneExcluded p.val i.val = false) ∧ x.getD i.val none ≠ some 0 ∧
      ((s.lane (portLane p.val i.val).1 (portLane p.val i.val).2).faulty = false))) ((st [(aTP_STATUS 1, fTP_STATUS_STATE,
      6)])) 1 (some 0 :: some 1 :: List.replicate 14 (some 0)) 1 &&
    (fun (s : State) (p : Fin 6) (x : List (Option Nat)) => decide (s.Inv ∧ ((s.runs = false ∨ (s.tpState p.val = 3 ∧
      (List.range 16).all (fun i => (x.getD i none).isSome) = false) ∨ [0, 1, 4, 5, 9, 10,
      11].contains (s.tpState p.val))))) w0 1 ([]) &&
    (fun (s : State) (l : LaneId) (n : Nat) => decide (s.Inv ∧ laneExists l ∧ s.runs ∧ (s.inReset l.die = false) ∧ l.die < 6 ∧
      s.fld (aLN_CTRL (quadBlock l.die l.quad) l.lane) fLN_CTRL_MODE ≠ 0)) ((st [(aLN_CTRL (quadBlock 2 1) 3, fLN_CTRL_MODE,
      1)])) (⟨2, 1, 3⟩) 3 &&
    (fun (s : State) (l : LaneId) (n : Nat) => decide (s.Inv ∧ laneExists l ∧ s.runs ∧ (s.inReset l.die = false) ∧ l.die < 6 ∧
      s.fld (aLN_CTRL (quadBlock l.die l.quad) l.lane) fLN_CTRL_MODE ≠ 0 ∧
      (s.fld (aLN_CTRL (quadBlock l.die l.quad) l.lane) fLN_CTRL_MODE = 1) ∧ (16 ≤ n))) ((st [(aLN_CTRL (quadBlock 2 1) 3,
      fLN_CTRL_MODE, 1)])) (⟨2, 1, 3⟩) 16 &&
    (fun (s : State) (l : LaneId) (n : Nat) => decide (s.Inv ∧ laneExists l ∧ s.runs ∧ (s.inReset l.die = false) ∧ l.die < 6 ∧
      s.fld (aLN_CTRL (quadBlock l.die l.quad) l.lane) fLN_CTRL_MODE ≠ 0 ∧
      (s.fld (aLN_CTRL (quadBlock l.die l.quad) l.lane) fLN_CTRL_MODE = 1) ∧
      (s.lane (quadBlock l.die l.quad) l.lane).errAt.length + n < 16)) ((st [(aLN_CTRL (quadBlock 2 1) 3, fLN_CTRL_MODE,
      1)])) (⟨2, 1, 3⟩) 15 &&
    (fun (s : State) (l : LaneId) (n : Nat) => decide (s.Inv ∧ laneExists l ∧ s.runs ∧ (s.inReset l.die = false) ∧ l.die < 6 ∧
      s.fld (aLN_CTRL (quadBlock l.die l.quad) l.lane) fLN_CTRL_MODE ≠ 0 ∧
      s.fld (aLN_CTRL (quadBlock l.die l.quad) l.lane) fLN_CTRL_MODE ≠ 1 ∧
      (s.lane (quadBlock l.die l.quad) l.lane).errAt.length < 16)) ((st [(aLN_CTRL (quadBlock 2 1) 3, fLN_CTRL_MODE, 2)])) (⟨2,
      1, 3⟩) 99 &&
    (fun (s : State) (l : LaneId) (k : Bool) (n : Nat) => decide (s.Inv ∧ ((laneExists l = false ∨ s.runs = false ∨
      s.inReset l.die ∨ (l.die ≠ 6 ∧ s.fld (aLN_CTRL (quadBlock l.die l.quad) l.lane) fLN_CTRL_MODE = 0))))) w0 (⟨2, 1,
      3⟩) true 0 &&
    (fun (s : State) (l : LaneId) (k : Bool) (n : Nat) => decide (s.Inv ∧ laneExists l ∧ s.runs ∧ (s.inReset l.die = false) ∧
      (l.die = 6) ∧ ((k ∨ 16 ≤ n)) ∧ ((s.lane (quadBlock l.die l.quad) l.lane).faulty = false) ∧ ((s.tpState (l.quad / 4) = 6 ∨
      s.tpState (l.quad / 4) = 7)) ∧
      (s.halfFaulty (l.quad / 4) (1 - (4 * (l.quad % 4) + l.lane) / 8) = false))) ((st [(aTP_STATUS 1, fTP_STATUS_STATE,
      6)])) (⟨6, 5, 2⟩) true 0 &&
    (fun (s : State) (l : LaneId) (k : Bool) (n : Nat) => decide (s.Inv ∧ laneExists l ∧ s.runs ∧ (s.inReset l.die = false) ∧
      (l.die = 6) ∧ ((k ∨ 16 ≤ n)) ∧ ((s.lane (quadBlock l.die l.quad) l.lane).faulty = false) ∧
      (((((s.tpState (l.quad / 4) = 6 ∨ s.tpState (l.quad / 4) = 7) ∨ s.tpState (l.quad / 4) = 9) ∧
      s.halfFaulty (l.quad / 4) (1 - (4 * (l.quad % 4) + l.lane) / 8)) ∨ s.tpState (l.quad / 4) = 8 ∨
      (s.tpState (l.quad / 4) = 9 ∧ (4 * (l.quad % 4) + l.lane) / 8 = s.fld (aTP_STATUS (l.quad / 4)) fTP_STATUS_HALF))) ∧
      s.domOn (40 + (l.quad / 4)))) ((st [(aTP_STATUS 1, fTP_STATUS_STATE, 8)])) (⟨6, 5, 2⟩) false 16 &&
    (fun (s : State) (l : LaneId) (k : Bool) (n : Nat) => decide (s.Inv ∧ laneExists l ∧ s.runs ∧ (s.inReset l.die = false) ∧
      (l.die = 6) ∧ ((k ∨ 16 ≤ n)) ∧ ((s.lane (quadBlock l.die l.quad) l.lane).faulty = false) ∧ (s.tpState (l.quad / 4) = 9) ∧
      (s.halfFaulty (l.quad / 4) (1 - (4 * (l.quad % 4) + l.lane) / 8) = false) ∧
      (4 * (l.quad % 4) + l.lane) / 8 ≠ s.fld (aTP_STATUS (l.quad / 4)) fTP_STATUS_HALF)) ((setAll w0 [(aTP_STATUS 1,
      fTP_STATUS_STATE, 9), (aTP_STATUS 1, fTP_STATUS_HALF, 1)])) (⟨6, 5, 2⟩) true 0 &&
    (fun (s : State) (l : LaneId) (k : Bool) (n : Nat) => decide (s.Inv ∧ laneExists l ∧ s.runs ∧ (s.inReset l.die = false) ∧
      (l.die = 6) ∧ ((s.tpState (l.quad / 4) < 6 ∨ 9 < s.tpState (l.quad / 4) ∨
      (s.lane (quadBlock l.die l.quad) l.lane).faulty)))) w0 (⟨6, 5, 2⟩) true 3 &&
    (fun (s : State) (l : LaneId) => decide (s.Inv ∧ laneExists l ∧ s.runs ∧ (s.inReset l.die = false) ∧ l.die ≠ 6 ∧
      s.fld (aLN_CTRL (quadBlock l.die l.quad) l.lane) fLN_CTRL_MODE ≠ 0 ∧
      (s.placeHeld l.die (glPlace l.quad) = false))) ((st [(aLN_CTRL (quadBlock 2 1) 3, fLN_CTRL_MODE, 1)])) (⟨2, 1, 3⟩) &&
    (fun (s : State) (l : LaneId) => decide (s.Inv ∧ ((laneExists l = false ∨ s.runs = false ∨ s.inReset l.die ∨ l.die = 6 ∨
      s.fld (aLN_CTRL (quadBlock l.die l.quad) l.lane) fLN_CTRL_MODE = 0 ∨ s.placeHeld l.die (glPlace l.quad))))) w0 (⟨2, 1, 3⟩) &&
    (fun (s : State) (p : Fin 6) (k : Fin 4) => decide (s.Inv ∧ s.runs ∧
      s.bit (aLN_STATUS (quadBlock 6 (4 * p.val + k.val)) 0) fLN_STATUS_PLL_LOCK)) ((st [(aLN_STATUS (quadBlock 6 6) 0,
      fLN_STATUS_PLL_LOCK, 1)])) 1 2 &&
    (fun (s : State) (p : Fin 6) (k : Fin 4) => decide (s.Inv ∧ ((s.runs = false ∨
      s.bit (aLN_STATUS (quadBlock 6 (4 * p.val + k.val)) 0) fLN_STATUS_PLL_LOCK = false)))) w0 1 2) = true := by decide +kernel

theorem witness_PortTraining_4 :
    (fun (s : State) (p : Fin 6) (c : BitVec 256) (f : Fin 64) => s.Inv ∧ s.runs ∧ (s.tpState p.val = 4) ∧
      (posByte c 0 = clsByte 9) ∧ posCrcOk c ∧ ((posByte c 13 = 0 ∨ 16 ≤ (s.port p.val).trips.length))) ((st [(aTP_STATUS 1,
      fTP_STATUS_STATE, 4)])) 1 wExch 7 :=
  ⟨by decide +kernel, by decide +kernel, by decide +kernel, by decide +kernel, withPosCrc_ok _, by decide +kernel⟩

theorem witness_PortTraining_5 :
    (fun (s : State) (p : Fin 6) (c : BitVec 256) (f : Fin 64) => s.Inv ∧ s.runs ∧ (s.tpState p.val = 4) ∧
      (posByte c 0 = clsByte 9) ∧ posCrcOk c ∧ posByte c 13 ≠ 0 ∧ (s.port p.val).trips.length < 16 ∧
      (((s.port p.val).trips = [] ∨
      ¬ ((64 * s.now + f.val - 64 * ((s.port p.val).exchLast - 256 * (((s.port p.val).exchSeq.toNat + 256 - posByte c 13) % 256))) ≤ (s.port p.val).firstTrip + 4 ∧
      (s.port p.val).firstTrip ≤ (64 * s.now + f.val - 64 * ((s.port p.val).exchLast - 256 * (((s.port p.val).exchSeq.toNat + 256 - posByte c 13) % 256))) + 4)))) ((st [(aTP_STATUS 1,
      fTP_STATUS_STATE, 4)])) 1 wExchEcho 7 :=
  ⟨by decide +kernel, by decide +kernel, by decide +kernel, by decide +kernel, withPosCrc_ok _, by decide +kernel, by decide +kernel, by decide +kernel⟩

theorem witness_PortTraining_6 :
    (fun (s : State) (p : Fin 6) (c : BitVec 256) (f : Fin 64) => s.Inv ∧ s.runs ∧ (s.tpState p.val = 4) ∧
      (posByte c 0 = clsByte 9) ∧ posCrcOk c ∧ posByte c 13 ≠ 0 ∧ (s.port p.val).trips.length < 16 ∧ (s.port p.val).trips ≠ [] ∧
      (((64 * s.now + f.val - 64 * ((s.port p.val).exchLast - 256 * (((s.port p.val).exchSeq.toNat + 256 - posByte c 13) % 256))) ≤ (s.port p.val).firstTrip + 4 ∧
      (s.port p.val).firstTrip ≤ (64 * s.now + f.val - 64 * ((s.port p.val).exchLast - 256 * (((s.port p.val).exchSeq.toNat + 256 - posByte c 13) % 256))) + 4))) (((st [(aTP_STATUS 1,
      fTP_STATUS_STATE, 4)]).setPort 1 { Port.empty with trips := [7], firstTrip := 7 })) 1 wExchEcho 7 :=
  ⟨by decide +kernel, by decide +kernel, by decide +kernel, by decide +kernel, withPosCrc_ok _, by decide +kernel, by decide +kernel, by decide +kernel, by decide +kernel⟩

theorem witness_PortTraining_17 :
    (fun (s : State) (p : Fin 6) (c : BitVec 256) => s.Inv ∧ s.runs ∧ ((posByte c 0 = clsByte 6 ∨ posByte c 0 = clsByte 7)) ∧
      posCrcOk c ∧ ((s.tpState p.val = 5 ∨ ((s.tpState p.val = 6 ∨ s.tpState p.val = 7) ∧ (posByte c 1).testBit 4 = false) ∨
      s.tpState p.val = 8)) ∧
      ((List.range 16).all (fun i => decide ((s.lane (portLane p.val i).1 (portLane p.val i).2).errAt.length < 16)))) ((st [(aTP_STATUS 1,
      fTP_STATUS_STATE, 6)])) 1 (wCtl 0) :=
  ⟨by decide +kernel, by decide +kernel, by decide +kernel, withPosCrc_ok _, by decide +kernel, by decide +kernel⟩

theorem witness_PortTraining_18 :
    (fun (s : State) (p : Fin 6) (c : BitVec 256) => s.Inv ∧ s.runs ∧ ((posByte c 0 = clsByte 6 ∨ posByte c 0 = clsByte 7)) ∧
      posCrcOk c ∧ ((s.tpState p.val = 6 ∨ s.tpState p.val = 7)) ∧ (posByte c 1).testBit 4 ∧
      ((List.range 16).all (fun i => decide ((s.lane (portLane p.val i).1 (portLane p.val i).2).errAt.length < 16)))) ((st [(aTP_STATUS 1,
      fTP_STATUS_STATE, 6)])) 1 (wCtl 16) :=
  ⟨by decide +kernel, by decide +kernel, by decide +kernel, withPosCrc_ok _, by decide +kernel, by decide +kernel, by decide +kernel⟩

theorem witness_PortTraining_19 :
    (fun (s : State) (p : Fin 6) (c : BitVec 256) (k : Nat) => s.Inv ∧ s.runs ∧ ((posByte c 0 = clsByte 6 ∨
      posByte c 0 = clsByte 7)) ∧ posCrcOk c ∧ (s.tpState p.val = 9) ∧ ((s.port p.val).switchAt = some k) ∧
      (k + s.portD p.val ≤ s.tickN)) (((st [(aTP_STATUS 1, fTP_STATUS_STATE,
      9)]).setPort 1 { Port.empty with switchAt := some 0 })) 1 (wCtl 0) 0 :=
  ⟨by decide +kernel, by decide +kernel, by decide +kernel, withPosCrc_ok _, by decide +kernel, by decide +kernel, by decide +kernel⟩

theorem witness_PortTraining_20 :
    (fun (s : State) (p : Fin 6) (c : BitVec 256) => s.Inv ∧ s.runs ∧ ((posByte c 0 = clsByte 6 ∨ posByte c 0 = clsByte 7)) ∧
      posCrcOk c ∧ (s.tpState p.val = 9) ∧
      ((s.port p.val).switchAt.all (fun k => decide (s.tickN < k + s.portD p.val)))) ((st [(aTP_STATUS 1, fTP_STATUS_STATE,
      9)])) 1 (wCtl 0) :=
  ⟨by decide +kernel, by decide +kernel, by decide +kernel, withPosCrc_ok _, by decide +kernel, by decide +kernel⟩

theorem witness_PortTraining :
    ((fun (s : State) (p : Fin 6) (k : Nat) => decide (s.Inv ∧ s.runs ∧ (portLimit (s.tpState p.val) = some k) ∧
      ((s.port p.val).restartAt = none) ∧ (s.port p.val).stageAt + k < s.now)) ((tk 70000 (st [(aTP_STATUS 1, fTP_STATUS_STATE,
      4)]))) 1 65536 &&
    (fun (s : State) (p : Fin 6) => decide (s.Inv ∧ ((s.runs = false ∨ portLimit (s.tpState p.val) = none ∨
      (s.port p.val).restartAt.isSome ∨ s.now ≤ (s.port p.val).stageAt + (portLimit (s.tpState p.val)).getD 0)))) w0 1 &&
    (fun (s : State) (p : Fin 6) (k : Nat) => decide (s.Inv ∧ s.runs ∧ ((s.port p.val).restartAt = some k) ∧ (k ≤ s.now) ∧
      s.domOn (40 + p.val))) ((w0.setPort 1 { Port.empty with restartAt := some 0 })) 1 0 &&
    (fun (s : State) (p : Fin 6) => decide (s.Inv ∧ ((s.runs = false ∨
      (s.port p.val).restartAt.all (fun k => decide (s.now < k)) ∨ s.domOn (40 + p.val) = false)))) w0 1 &&
    (fun (s : State) (p : Fin 6) (c : BitVec 256) (f : Fin 64) => decide (s.Inv ∧ s.runs ∧ (s.tpState p.val = 4) ∧
      ((posByte c 0 ≠ clsByte 9 ∨ posCrcOk c = false)))) ((st [(aTP_STATUS 1, fTP_STATUS_STATE, 4)])) 1 1#256 7 &&
    (fun (s : State) (p : Fin 6) (c : BitVec 256) (e : BitVec 32) (f : Fin 64) => decide (s.Inv ∧ s.runs ∧ (s.tpState p.val = 4) ∧
      e.getLsbD 0)) ((st [(aTP_STATUS 1, fTP_STATUS_STATE, 4)])) 1 wExch 1 7 &&
    (fun (s : State) (p : Fin 6) (c : BitVec 256) (e : BitVec 32) (f : Fin 64) => decide (s.Inv ∧ ((s.runs = false ∨
      s.tpState p.val ≠ 4)))) w0 1 wExch 1 7 &&
    (fun (s : State) (p : Fin 6) => decide (s.Inv ∧ s.runs ∧ (s.tpState p.val = 4) ∧ ((s.port p.val).exchDone = false) ∧
      (16 ≤ (s.port p.val).trips.length) ∧ ((s.port p.val).trips.foldl (· + ·) 0 / 32 ≤ 261440))) (((st [(aTP_STATUS 1,
      fTP_STATUS_STATE, 4)]).setPort 1 { Port.empty with trips := List.replicate 16 640 })) 1 &&
    (fun (s : State) (p : Fin 6) => decide (s.Inv ∧ s.runs ∧ (s.tpState p.val = 4) ∧ ((s.port p.val).exchDone = false) ∧
      (16 ≤ (s.port p.val).trips.length) ∧ 261440 < (s.port p.val).trips.foldl (· + ·) 0 / 32)) (((st [(aTP_STATUS 1,
      fTP_STATUS_STATE, 4)]).setPort 1 { Port.empty with trips := List.replicate 16 1000000 })) 1 &&
    (fun (s : State) (p : Fin 6) => decide (s.Inv ∧ s.runs ∧ (s.tpState p.val = 4) ∧ (s.port p.val).exchDone ∧
      (s.port p.val).exchSaid ∧ (s.port p.val).farExchDone)) (((st [(aTP_STATUS 1, fTP_STATUS_STATE,
      4)]).setPort 1 { Port.empty with exchDone := true, exchSaid := true, farExchDone := true })) 1 &&
    (fun (s : State) (p : Fin 6) => decide (s.Inv ∧ ((s.runs = false ∨ s.tpState p.val ≠ 4 ∨ ((s.port p.val).exchDone = false ∧
      (s.port p.val).trips.length < 16) ∨ ((s.port p.val).exchDone ∧ ((s.port p.val).exchSaid = false ∨
      (s.port p.val).farExchDone = false)))))) w0 1 &&
    (fun (s : State) (m : Rm) (p : Fin 6) => decide (s.Inv ∧ s.ringReady m (aTP_CTRL p.val) ∧
      (s.fld (aTP_CTRL p.val) fTP_CTRL_LOOP = 0) ∧ (s.lstateRefused p.val (s.fld (aTP_CTRL p.val) fTP_CTRL_LSTATE) = false) ∧
      s.bit (aTP_CTRL p.val) fTP_CTRL_EN ∧ (s.bit (aTP_CTRL p.val) fTP_CTRL_RETRAIN = false) ∧ (s.tpState p.val = 5) ∧
      ((s.port p.val).pairCause = false))) ((st [(aTP_STATUS 1, fTP_STATUS_STATE, 5), (aTP_CTRL 1, fTP_CTRL_EN, 1)])) .core0 1 &&
    (fun (s : State) (m : Rm) (p : Fin 6) => decide (s.Inv ∧ s.ringReady m (aTP_CTRL p.val) ∧
      (s.fld (aTP_CTRL p.val) fTP_CTRL_LOOP = 0) ∧ (s.lstateRefused p.val (s.fld (aTP_CTRL p.val) fTP_CTRL_LSTATE) = false) ∧
      s.bit (aTP_CTRL p.val) fTP_CTRL_EN ∧ (s.bit (aTP_CTRL p.val) fTP_CTRL_RETRAIN = false) ∧ s.tpState p.val ≠ 5 ∧
      s.tpState p.val ≠ 11)) ((st [(aTP_STATUS 1, fTP_STATUS_STATE, 6), (aTP_CTRL 1, fTP_CTRL_EN, 1)])) .core0 1 &&
    (fun (s : State) (m : Rm) (p : Fin 6) => decide (s.Inv ∧ s.ringReady m (aTP_CTRL p.val) ∧ (s.tpState p.val = 5) ∧
      (s.port p.val).pairCause ∧ (s.fld (aTP_CTRL p.val) fTP_CTRL_LOOP = 0))) (((st [(aTP_STATUS 1, fTP_STATUS_STATE,
      5)]).setPort 1 { Port.empty with pairCause := true })) .core0 1 &&
    (fun (s : State) (p : Fin 6) (c : BitVec 256) => decide (s.Inv ∧ s.runs ∧ (5 ≤ s.tpState p.val) ∧ (s.tpState p.val ≤ 9) ∧
      ((List.range 16).all (fun i => decide ((s.lane (portLane p.val i).1 (portLane p.val i).2).errAt.length < 16))) ∧
      ((posCrcOk c = false ∨ (posByte c 0 ≠ clsByte 6 ∧ posByte c 0 ≠ clsByte 7))))) ((st [(aTP_STATUS 1, fTP_STATUS_STATE,
      6)])) 1 1#256 &&
    (fun (s : State) (p : Fin 6) (c : BitVec 256) (e : BitVec 32) => decide (s.Inv ∧ ((s.runs = false ∨ s.tpState p.val < 5 ∨
      9 < s.tpState p.val)))) w0 1 1#256 1 &&
    (fun (s : State) (p : Fin 6) (c : Nat) => decide (s.Inv ∧ s.runs ∧ (s.tpState p.val = 7) ∧ (s.tickN % 64 = 0) ∧
      (s.port p.val).disStep ≠ 3 ∧ (s.leaveCause p.val = some c))) ((st [(aTP_STATUS 1, fTP_STATUS_STATE, 7)])) 1 6 &&
    (fun (s : State) (p : Fin 6) => decide (s.Inv ∧ s.runs ∧ (s.tpState p.val = 7) ∧ (s.tickN % 64 = 0) ∧
      ((s.port p.val).disStep = 3))) (((st [(aTP_STATUS 1, fTP_STATUS_STATE, 7)]).setPort 1 { Port.empty with disStep := 3 })) 1 &&
    (fun (s : State) (p : Fin 6) => decide (s.Inv ∧ ((s.runs = false ∨ s.tpState p.val ≠ 7 ∨ s.tickN % 64 ≠ 0 ∨
      ((s.port p.val).disStep ≠ 3 ∧ s.leaveCause p.val = none))))) w0 1 &&
    (fun (s : State) (p : Fin 6) (k : Nat) => decide (s.Inv ∧ s.runs ∧ (s.tpState p.val = 9) ∧
      ((s.port p.val).switchAt = some k) ∧ (k + s.portD p.val ≤ s.tickN))) (((st [(aTP_STATUS 1, fTP_STATUS_STATE,
      9)]).setPort 1 { Port.empty with switchAt := some 0 })) 1 0 &&
    (fun (s : State) (p : Fin 6) => decide (s.Inv ∧ ((s.runs = false ∨ s.tpState p.val ≠ 9 ∨
      (s.port p.val).switchAt.all (fun k => decide (s.tickN < k + s.portD p.val)))))) w0 1) = true := by decide +kernel

theorem witness_PortPositionsAndControl :
    ((fun (s : State) (p : Fin 6) (x : PortRx) => decide (s.Inv ∧ s.runs ∧ (s.tpState p.val = 7) ∧ (s.port p.val).rxSched ∧
      (x.k = false) ∧ (x.errs = 0) ∧
      ((List.range 16).all (fun i => decide ((s.lane (portLane p.val i).1 (portLane p.val i).2).errAt.length < 16))) ∧
      (s.port p.val).keyOk ∧
      (bitsOf (s.port p.val).keys.toNat (4 * (s.port p.val).ctrlSeen + 3) (4 * (s.port p.val).ctrlSeen) = 0))) (((st [(aTP_STATUS 1,
      fTP_STATUS_STATE, 7)]).setPort 1 { Port.empty with rxSched := true, keyOk := true })) 1 (⟨false, 7, 0⟩) &&
    (fun (s : State) (p : Fin 6) (x : PortRx) => decide (s.Inv ∧ s.runs ∧ (s.tpState p.val = 7) ∧ (s.port p.val).rxSched ∧
      (x.k = false) ∧ (x.errs = 0) ∧
      ((List.range 16).all (fun i => decide ((s.lane (portLane p.val i).1 (portLane p.val i).2).errAt.length < 16))) ∧
      (s.port p.val).keyOk ∧
      bitsOf (s.port p.val).keys.toNat (4 * (s.port p.val).ctrlSeen + 3) (4 * (s.port p.val).ctrlSeen) ≠ 0 ∧
      s.slotUsable (bitsOf (s.port p.val).keys.toNat (4 * (s.port p.val).ctrlSeen + 3) (4 * (s.port p.val).ctrlSeen)))) ((setAll ((st [(aTP_STATUS 1,
      fTP_STATUS_STATE, 7)]).setPort 1 { Port.empty with rxSched := true, keyOk := true, keys := 3#128 }) [(aKM_SLOT 3,
      fKM_SLOT_VALID, 1)])) 1 (⟨false, 7, 0⟩) &&
    (fun (s : State) (p : Fin 6) (x : PortRx) => decide (s.Inv ∧ s.runs ∧ (s.tpState p.val = 7) ∧ (s.port p.val).rxSched ∧
      (x.k = false) ∧ (x.errs = 0) ∧
      ((List.range 16).all (fun i => decide ((s.lane (portLane p.val i).1 (portLane p.val i).2).errAt.length < 16))) ∧
      (s.port p.val).keyOk ∧
      bitsOf (s.port p.val).keys.toNat (4 * (s.port p.val).ctrlSeen + 3) (4 * (s.port p.val).ctrlSeen) ≠ 0 ∧
      (s.slotUsable (bitsOf (s.port p.val).keys.toNat (4 * (s.port p.val).ctrlSeen + 3) (4 * (s.port p.val).ctrlSeen)) = false))) (((st [(aTP_STATUS 1,
      fTP_STATUS_STATE, 7)]).setPort 1 { Port.empty with rxSched := true, keyOk := true, keys := 3#128 })) 1 (⟨false, 7, 0⟩) &&
    (fun (s : State) (p : Fin 6) (x : PortRx) => decide (s.Inv ∧ s.runs ∧ (s.tpState p.val = 7) ∧ (s.port p.val).rxSched ∧
      (x.k = false) ∧ (x.errs = 0) ∧
      ((List.range 16).all (fun i => decide ((s.lane (portLane p.val i).1 (portLane p.val i).2).errAt.length < 16))) ∧
      ((s.port p.val).keyOk = false))) (((st [(aTP_STATUS 1, fTP_STATUS_STATE,
      7)]).setPort 1 { Port.empty with rxSched := true })) 1 (⟨false, 7, 0⟩) &&
    (fun (s : State) (p : Fin 6) (x : PortRx) => decide (s.Inv ∧ s.runs ∧ (s.tpState p.val = 7) ∧ (s.port p.val).rxSched ∧
      (x.k = false) ∧ x.errs ≠ 0 ∧
      ((List.range 16).all (fun i => decide ((s.lane (portLane p.val i).1 (portLane p.val i).2).errAt.length < 12))))) (((st [(aTP_STATUS 1,
      fTP_STATUS_STATE, 7)]).setPort 1 { Port.empty with rxSched := true, keyOk := true })) 1 (⟨false, 7, 5⟩) &&
    (fun (s : State) (p : Fin 6) (x : PortRx) => decide (s.Inv ∧ s.runs ∧ s.portManages p.val ∧ x.k ∧ (x.errs = 0) ∧
      ((List.range 16).all (fun i => decide ((s.lane (portLane p.val i).1 (portLane p.val i).2).errAt.length < 16))) ∧
      (posByte x.content 0 = clsByte 1) ∧ (s.tpState p.val = 7) ∧ (s.port p.val).rxSched)) (((st [(aTP_STATUS 1,
      fTP_STATUS_STATE, 7)]).setPort 1 { Port.empty with rxSched := true, keyOk := true })) 1 (⟨true, 0x21C, 0⟩) &&
    (fun (s : State) (p : Fin 6) (x : PortRx) => decide (s.Inv ∧ s.runs ∧ s.portManages p.val ∧ x.k ∧ (x.errs = 0) ∧
      ((List.range 16).all (fun i => decide ((s.lane (portLane p.val i).1 (portLane p.val i).2).errAt.length < 16))) ∧
      (posByte x.content 0 = clsByte 2) ∧ s.portCarriesBe p.val)) (((st [(aTP_STATUS 1, fTP_STATUS_STATE, 6), (aTP_STATUS 1,
      fTP_STATUS_VERIFIED, 1)]).setPort 1 { Port.empty with farFlags := 128#8 })) 1 (⟨true, 0x55C, 0⟩) &&
    (fun (s : State) (p : Fin 6) (x : PortRx) => decide (s.Inv ∧ s.runs ∧ s.portManages p.val ∧ x.k ∧ (x.errs = 0) ∧
      ((List.range 16).all (fun i => decide ((s.lane (portLane p.val i).1 (portLane p.val i).2).errAt.length < 16))) ∧
      (posByte x.content 0 = clsByte 3) ∧ s.portCarriesBe p.val ∧ ((s.port p.val).rxLeft = 1) ∧ ((s.port p.val).rxFlits = []) ∧
      ((s.port p.val).rxBad = false) ∧
      (hNdata (x.content.extractLsb' 8 248 ++ (s.port p.val).rxFirst.getD 0 0 : BitVec 256) = 0))) (((st [(aTP_STATUS 1,
      fTP_STATUS_STATE, 6), (aTP_STATUS 1, fTP_STATUS_VERIFIED,
      1)]).setPort 1 { Port.empty with farFlags := 128#8, rxLeft := 1, rxFirst := [0#8] })) 1 (⟨true, 0x7C, 0⟩) &&
    (fun (s : State) (p : Fin 6) (x : PortRx) => decide (s.Inv ∧ s.runs ∧ s.portManages p.val ∧ x.k ∧ (x.errs = 0) ∧
      ((List.range 16).all (fun i => decide ((s.lane (portLane p.val i).1 (portLane p.val i).2).errAt.length < 16))) ∧
      (posByte x.content 0 = clsByte 4) ∧ s.portLoads p.val ∧ (s.cfg.portSrc.getD p.val = p.val) ∧
      ((s.fld aCFG_STATUS fCFG_STATUS_SRC = 0 ∨ s.fld aCFG_STATUS fCFG_STATUS_SRC = 3)) ∧
      (s.port p.val).cfgIn.length < 128)) ((let s := (st [(aTP_STATUS 1, fTP_STATUS_STATE,
      6)]); { s with pins := { s.pins with cfgMode := 2 } })) 1 (⟨true, 0x1F7, 0⟩) &&
    (fun (s : State) (p : Fin 6) (x : PortRx) => decide (s.Inv ∧ s.runs ∧ s.portManages p.val ∧ x.k ∧ (x.errs = 0) ∧
      ((List.range 16).all (fun i => decide ((s.lane (portLane p.val i).1 (portLane p.val i).2).errAt.length < 16))) ∧
      (posByte x.content 0 = clsByte 4) ∧ (s.portLoads p.val = false))) ((st [(aTP_STATUS 1, fTP_STATUS_STATE, 6)])) 1 (⟨true,
      0x1F7, 0⟩) &&
    (fun (s : State) (p : Fin 6) (x : PortRx) => decide (s.Inv ∧ s.runs ∧ s.portManages p.val ∧ x.k ∧ (x.errs = 0) ∧
      ((List.range 16).all (fun i => decide ((s.lane (portLane p.val i).1 (portLane p.val i).2).errAt.length < 16))) ∧
      (clsOf true (posByte x.content 0) = 5))) ((st [(aTP_STATUS 1, fTP_STATUS_STATE, 6)])) 1 (⟨true, 0xBC, 0⟩) &&
    (fun (s : State) (p : Fin 6) (x : PortRx) => decide (s.Inv ∧ ((s.runs = false ∨ s.portManages p.val = false)))) w0 1 (⟨true,
      0xBC, 0⟩) &&
    (fun (s : State) (p : Fin 6) (i : Item) => decide (s.Inv ∧ s.runs ∧
      (s.pat.flight.filter (fun y => y.loc == .portTx p.val && decide (y.due ≤ s.now)) = [i]) ∧ (s.tpState p.val = 7) ∧
      ((s.port p.val).admits.all (fun a => a.1 != s.tickAt i.due + 1)) ∧ frameFits (s.tickAt i.due) ∧ i.flit.valid ∧
      (s.portCause p.val false = none) ∧ ((i.flit.key = 0 ∨
      alignFrame (s.tickAt i.due + 2))))) wTx 1 ({ wItem with loc := .portTx 1 }) &&
    (fun (s : State) (p : Fin 6) (i : Item) => decide (s.Inv ∧ s.runs ∧
      (s.pat.flight.filter (fun y => y.loc == .portTx p.val && decide (y.due ≤ s.now)) = [i]) ∧ (s.tpState p.val = 7) ∧
      ((s.port p.val).admits.all (fun a => a.1 != s.tickAt i.due + 1)) ∧ frameFits (s.tickAt i.due) ∧ i.flit.valid ∧
      (s.portCause p.val false = none) ∧ (¬ (i.flit.key = 0 ∨ alignFrame (s.tickAt i.due + 2))) ∧
      s.slotUsable i.flit.key)) ((let s := setAll wTx [(aKM_SLOT 3, fKM_SLOT_VALID,
      1)]; { s with pat := { s.pat with flight := [{ wItem with loc := .portTx 1, flit := { wItem.flit with key := 3 } }] } })) 1 ({ wItem with loc := .portTx 1, flit := { wItem.flit with key := 3 } }) &&
    (fun (s : State) (p : Fin 6) (i : Item) => decide (s.Inv ∧ s.runs ∧
      (s.pat.flight.filter (fun y => y.loc == .portTx p.val && decide (y.due ≤ s.now)) = [i]) ∧ (s.tpState p.val = 7) ∧
      ((s.port p.val).admits.all (fun a => a.1 != s.tickAt i.due + 1)) ∧ frameFits (s.tickAt i.due) ∧ i.flit.valid ∧
      (s.portCause p.val false = none) ∧ (¬ (i.flit.key = 0 ∨ alignFrame (s.tickAt i.due + 2))) ∧
      (s.slotUsable i.flit.key = false))) ({ wTx with pat := { wTx.pat with flight := [{ wItem with loc := .portTx 1, flit := { wItem.flit with key := 3 } }] } }) 1 ({ wItem with loc := .portTx 1, flit := { wItem.flit with key := 3 } }) &&
    (fun (s : State) (p : Fin 6) (i : Item) (c : Nat) => decide (s.Inv ∧ s.runs ∧
      (s.pat.flight.filter (fun y => y.loc == .portTx p.val && decide (y.due ≤ s.now)) = [i]) ∧ (s.tpState p.val = 7) ∧
      ((s.port p.val).admits.all (fun a => a.1 != s.tickAt i.due + 1)) ∧ frameFits (s.tickAt i.due) ∧
      ((if i.flit.valid then s.portCause p.val false else some i.flit.cause) = some c))) ({ wTx with pat := { wTx.pat with flight := [{ wItem with loc := .portTx 1, flit := markerFlit 6 }] } }) 1 ({ wItem with loc := .portTx 1, flit := markerFlit 6 }) 6 &&
    (fun (s : State) (p : Fin 6) (i : Item) (a : Nat × Nat) => decide (s.Inv ∧ s.runs ∧
      (s.pat.flight.filter (fun y => y.loc == .portTx p.val && decide (y.due ≤ s.now)) = [i]) ∧ (s.tpState p.val = 7) ∧
      ((s.port p.val).admits.find? (fun a => a.1 == s.tickAt i.due + 1) = some a) ∧
      s.pat.log.length < 16)) ((wTx.setPort 1 { Port.empty with txSched := true, admits := [(wTx.tickAt 0 + 1, 9)] })) 1 ({ wItem with loc := .portTx 1 }) ((wTx.tickAt 0 + 1,
      9)) &&
    (fun (s : State) (p : Fin 6) (i : Item) => decide (s.Inv ∧ s.runs ∧
      (s.pat.flight.filter (fun y => y.loc == .portTx p.val && decide (y.due ≤ s.now)) = [i]) ∧ (s.tpState p.val = 7) ∧
      ((s.port p.val).admits.all (fun a => a.1 != s.tickAt i.due + 1)) ∧ (frameFits (s.tickAt i.due) = false) ∧
      s.pat.log.length < 16)) ((let s := tk 62 wTx; { s with pat := { s.pat with flight := [{ wItem with loc := .portTx 1, due := 62 }] } })) 1 ({ wItem with loc := .portTx 1, due := 62 }) &&
    (fun (s : State) (p : Fin 6) => decide (s.Inv ∧ ((s.runs = false ∨
      s.pat.flight.filter (fun y => y.loc == .portTx p.val && decide (y.due ≤ s.now)) = [])))) w0 1 &&
    (fun (s : State) (m : Rm) (p : Fin 6) => decide (s.Inv ∧ s.ringReady m (aTP_CTRL p.val) ∧
      (s.fld (aTP_CTRL p.val) fTP_CTRL_LOOP = 0) ∧ (s.lstateRefused p.val (s.fld (aTP_CTRL p.val) fTP_CTRL_LSTATE) = false) ∧
      s.domOn (40 + p.val) ∧ (s.bit (aTP_CTRL p.val) fTP_CTRL_ACCEPT = false) ∧ s.bit (aTP_CTRL p.val) fTP_CTRL_EN ∧
      (s.bit (aTP_CTRL p.val) fTP_CTRL_DIS = false) ∧ (s.port p.val).disStep ≠ 3)) ((st [(aTP_STATUS 1, fTP_STATUS_STATE, 6),
      (aTP_CTRL 1, fTP_CTRL_EN, 1)])) .core0 1 &&
    (fun (s : State) (m : Rm) (p : Fin 6) => decide (s.Inv ∧ s.ringReady m (aTP_CTRL p.val) ∧
      (s.fld (aTP_CTRL p.val) fTP_CTRL_LOOP = 0) ∧ (s.lstateRefused p.val (s.fld (aTP_CTRL p.val) fTP_CTRL_LSTATE) = false) ∧
      s.domOn (40 + p.val) ∧ (s.bit (aTP_CTRL p.val) fTP_CTRL_ACCEPT = false) ∧ (s.bit (aTP_CTRL p.val) fTP_CTRL_EN = false) ∧
      s.fld (aTP_CTRL p.val) fTP_CTRL_LSTATE ≠ 2 ∧ (s.port p.val).disStep ≠ 3)) ((setAll w0 [(aTP_CTRL 1, fTP_CTRL_EN,
      0)])) .core0 1 &&
    (fun (s : State) (m : Rm) (p : Fin 6) => decide (s.Inv ∧ s.ringReady m (aTP_CTRL p.val) ∧
      (s.fld (aTP_CTRL p.val) fTP_CTRL_LOOP = 0) ∧ (s.lstateRefused p.val (s.fld (aTP_CTRL p.val) fTP_CTRL_LSTATE) = false) ∧
      s.domOn (40 + p.val) ∧ (s.bit (aTP_CTRL p.val) fTP_CTRL_ACCEPT = false) ∧ s.bit (aTP_CTRL p.val) fTP_CTRL_EN ∧
      (s.bit (aTP_CTRL p.val) fTP_CTRL_RETRAIN = false) ∧ s.tpState p.val ≠ 11)) (((st [(aTP_STATUS 1, fTP_STATUS_STATE, 6),
      (aTP_CTRL 1, fTP_CTRL_EN, 1)]).setPort 1 { Port.empty with disStep := 1 })) .core0 1 &&
    (fun (s : State) (m : Rm) (p : Fin 6) => decide (s.Inv ∧ s.ringReady m (aTP_CTRL p.val) ∧
      (s.fld (aTP_CTRL p.val) fTP_CTRL_LOOP = 0) ∧ (s.lstateRefused p.val (s.fld (aTP_CTRL p.val) fTP_CTRL_LSTATE) = false) ∧
      s.domOn (40 + p.val) ∧ (s.bit (aTP_CTRL p.val) fTP_CTRL_ACCEPT = false) ∧ s.bit (aTP_CTRL p.val) fTP_CTRL_EN ∧
      (s.bit (aTP_STATUS p.val) fTP_STATUS_DRAINED = false) ∧ ((s.port p.val).disStep = 0))) ((st [(aTP_STATUS 1,
      fTP_STATUS_STATE, 7), (aTP_CTRL 1, fTP_CTRL_EN, 1)])) .core0 1 &&
    (fun (s : State) (m : Rm) (p : Fin 6) => decide (s.Inv ∧ s.ringReady m (aTP_CTRL p.val) ∧
      (s.fld (aTP_CTRL p.val) fTP_CTRL_LOOP = 0) ∧ (s.lstateRefused p.val (s.fld (aTP_CTRL p.val) fTP_CTRL_LSTATE) = false) ∧
      s.domOn (40 + p.val) ∧ (s.bit (aTP_CTRL p.val) fTP_CTRL_ACCEPT = false) ∧ s.bit (aTP_CTRL p.val) fTP_CTRL_EN ∧
      (s.bit (aTP_STATUS p.val) fTP_STATUS_DRAINED = false) ∧ (((s.port p.val).disStep = 0 ∨
      (s.port p.val).disStep = 1)))) ((st [(aTP_STATUS 1, fTP_STATUS_STATE, 7), (aTP_CTRL 1, fTP_CTRL_EN, 1)])) .core0 1 &&
    (fun (s : State) (m : Rm) (p : Fin 6) (k : Bool) => decide (s.Inv ∧ s.ringReady m (aTP_CTRL p.val) ∧
      (s.fld (aTP_CTRL p.val) fTP_CTRL_LOOP = 0) ∧ (s.lstateRefused p.val (s.fld (aTP_CTRL p.val) fTP_CTRL_LSTATE) = false) ∧
      s.domOn (40 + p.val) ∧ (s.bit (aTP_CTRL p.val) fTP_CTRL_ACCEPT = false) ∧ s.bit (aTP_CTRL p.val) fTP_CTRL_EN ∧
      s.bit (aTP_STATUS p.val) fTP_STATUS_DRAINED)) ((setAll w0 [(aTP_STATUS 1, fTP_STATUS_DRAINED, 1), (aTP_CTRL 1,
      fTP_CTRL_EN, 1)])) .core0 1 false &&
    (fun (s : State) (m : Rm) (p : Fin 6) => decide (s.Inv ∧ s.ringReady m (aTP_CTRL p.val) ∧
      (s.fld (aTP_CTRL p.val) fTP_CTRL_LOOP = 0) ∧ (s.budget p.val ≠ 0))) ((st [(aACT_BUDGET 1, fACT_BUDGET_B, 30)])) .core0 1 &&
    (fun (s : State) (m : Rm) (p : Fin 6) => decide (s.Inv ∧ s.ringReady m (aTP_CTRL p.val) ∧
      (s.fld (aTP_CTRL p.val) fTP_CTRL_LOOP = 0) ∧ (s.lstateRefused p.val 1 = false) ∧
      (s.bit (aTP_CTRL p.val) fTP_CTRL_ACCEPT = false) ∧ s.domOn (40 + p.val) ∧ s.bit (aTP_CTRL p.val) fTP_CTRL_EN ∧
      (s.bit (aTP_CTRL p.val) fTP_CTRL_DIS = false) ∧ (s.bit (aTP_CTRL p.val) fTP_CTRL_RETRAIN = false))) ((st [(aTP_STATUS 1,
      fTP_STATUS_STATE, 6), (aTP_CTRL 1, fTP_CTRL_EN, 1)])) .core0 1 &&
    (fun (s : State) (m : Rm) (p : Fin 6) => decide (s.Inv ∧ s.ringReady m (aTP_CTRL p.val) ∧
      (s.fld (aTP_CTRL p.val) fTP_CTRL_LOOP = 0) ∧ ((s.budget p.val ≠ 0 ∨ (s.fld aREF_CTRL fREF_CTRL_SRC = 1 ∧
      s.fld aREF_CTRL fREF_CTRL_PORT = p.val))))) ((st [(aACT_BUDGET 1, fACT_BUDGET_B, 30)])) .core0 1 &&
    (fun (s : State) (m : Rm) (p : Fin 6) => decide (s.Inv ∧ s.ringReady m (aTP_CTRL p.val) ∧
      (s.fld (aTP_CTRL p.val) fTP_CTRL_LOOP = 0) ∧ (s.lstateRefused p.val 2 = false) ∧
      (s.bit (aTP_CTRL p.val) fTP_CTRL_ACCEPT = false) ∧ s.domOn (40 + p.val) ∧ s.bit (aTP_CTRL p.val) fTP_CTRL_EN ∧
      (s.bit (aTP_CTRL p.val) fTP_CTRL_DIS = false) ∧ (s.bit (aTP_CTRL p.val) fTP_CTRL_RETRAIN = false))) ((st [(aTP_STATUS 1,
      fTP_STATUS_STATE, 6), (aTP_CTRL 1, fTP_CTRL_EN, 1)])) .core0 1 &&
    (fun (s : State) (m : Rm) (p : Fin 6) => decide (s.Inv ∧ s.ringReady m (aTP_CTRL p.val) ∧
      (s.fld (aTP_CTRL p.val) fTP_CTRL_LOOP = 0) ∧ (s.lstateRefused p.val 2 = false) ∧
      (s.bit (aTP_CTRL p.val) fTP_CTRL_ACCEPT = false) ∧ s.domOn (40 + p.val) ∧
      (s.bit (aTP_CTRL p.val) fTP_CTRL_EN = false))) ((setAll w0 [(aTP_CTRL 1, fTP_CTRL_EN, 0)])) .core0 1 &&
    (fun (s : State) (m : Rm) (p : Fin 6) => decide (s.Inv ∧ s.ringReady m (aTP_CTRL p.val) ∧
      (s.fld (aTP_CTRL p.val) fTP_CTRL_LOOP = 0) ∧ (s.bit (aTP_CTRL p.val) fTP_CTRL_ACCEPT = false) ∧ s.domOn (40 + p.val) ∧
      s.bit (aTP_CTRL p.val) fTP_CTRL_EN ∧ (s.bit (aTP_CTRL p.val) fTP_CTRL_DIS = false) ∧
      (s.bit (aTP_CTRL p.val) fTP_CTRL_RETRAIN = false) ∧ (s.port p.val).disStep ≠ 3 ∧
      s.tpState p.val ≠ 11)) ((st [(aTP_STATUS 1, fTP_STATUS_STATE, 10), (aTP_CTRL 1, fTP_CTRL_EN, 1)])) .core0 1 &&
    (fun (s : State) (m : Rm) (p : Fin 6) => decide (s.Inv ∧ s.ringReady m (aTP_CTRL p.val) ∧
      (s.fld (aTP_CTRL p.val) fTP_CTRL_LOOP = 0) ∧ (s.bit (aTP_CTRL p.val) fTP_CTRL_ACCEPT = false) ∧ s.domOn (40 + p.val) ∧
      s.bit (aTP_CTRL p.val) fTP_CTRL_EN ∧ (s.bit (aTP_CTRL p.val) fTP_CTRL_DIS = false) ∧
      (s.bit (aTP_CTRL p.val) fTP_CTRL_RETRAIN = false) ∧ (s.port p.val).disStep ≠ 3 ∧
      (s.tpState p.val = 11))) ((st [(aTP_STATUS 1, fTP_STATUS_STATE, 11), (aTP_CTRL 1, fTP_CTRL_EN, 1)])) .core0 1 &&
    (fun (s : State) (p : Fin 6) => decide (s.Inv ∧ s.runs ∧ (s.tpState p.val = 10) ∧
      ((s.port p.val).wakeAt = none))) ((st [(aTP_STATUS 1, fTP_STATUS_STATE, 10)])) 1 &&
    (fun (s : State) (p : Fin 6) => decide (s.Inv ∧ ((s.runs = false ∨ s.tpState p.val ≠ 10 ∨
      (s.port p.val).wakeAt.isSome)))) w0 1 &&
    (fun (s : State) (p : Fin 6) (k : Nat) => decide (s.Inv ∧ s.runs ∧ ((s.port p.val).quietAt = some k) ∧ (k ≤ s.tickN) ∧
      ((s.tpState p.val = 5 ∨ s.tpState p.val = 6 ∨ s.tpState p.val = 8)))) (((st [(aTP_STATUS 1, fTP_STATUS_STATE,
      6)]).setPort 1 { Port.empty with quietAt := some 0 })) 1 0 &&
    (fun (s : State) (p : Fin 6) => decide (s.Inv ∧ ((s.runs = false ∨
      (s.port p.val).quietAt.all (fun k => decide (s.tickN < k)) ∨ ¬ (s.tpState p.val = 5 ∨ s.tpState p.val = 6 ∨
      s.tpState p.val = 8))))) w0 1 &&
    (fun (s : State) (m : Rm) (p : Fin 6) (v : BitVec 2) => decide (s.Inv ∧ s.ringReady m (aTP_LB p.val) ∧ (s.tpState p.val = 0) ∧
      (s.bit (aTP_CTRL p.val) fTP_CTRL_EN = false) ∧ (s.fld (aTP_CTRL p.val) fTP_CTRL_LOOP = 0) ∧
      v ≠ 3#2)) ((setAll w0 [(aTP_CTRL 1, fTP_CTRL_EN, 0)])) .core0 1 2#2 &&
    (fun (s : State) (m : Rm) (p : Fin 6) (v : BitVec 2) => decide (s.Inv ∧ s.ringReady m (aTP_LB p.val) ∧
      (v = 0#2))) ((st [(aTP_STATUS 1, fTP_STATUS_STATE, 6)])) .core0 1 0#2 &&
    (fun (s : State) (m : Rm) (p : Fin 6) (v : BitVec 2) => decide (s.Inv ∧ s.ringReady m (aTP_LB p.val) ∧
      (v = 3#2))) ((st [(aTP_STATUS 1, fTP_STATUS_STATE, 6)])) .core0 1 3#2 &&
    (fun (s : State) (m : Rm) (p : Fin 6) (v : BitVec 2) => decide (s.Inv ∧ s.ringReady m (aTP_LB p.val) ∧ ((s.tpState p.val ≠ 0 ∨
      s.bit (aTP_CTRL p.val) fTP_CTRL_EN ∨ s.fld (aTP_CTRL p.val) fTP_CTRL_LOOP ≠ 0)) ∧ v ≠ 3#2 ∧ v ≠ 0#2)) ((st [(aTP_STATUS 1,
      fTP_STATUS_STATE, 6)])) .core0 1 2#2 &&
    (fun (s : State) (m : Rm) (p : Fin 6) (v : BitVec 2) => decide (s.Inv ∧ s.ringReady m (aTP_CTRL p.val) ∧
      (s.tpState p.val = 0) ∧ (s.bit (aTP_CTRL p.val) fTP_CTRL_EN = false) ∧ (s.fld (aTP_LB p.val) fTP_LB_RET = 0) ∧
      (s.lstateRefused p.val (s.fld (aTP_CTRL p.val) fTP_CTRL_LSTATE) = false))) ((setAll w0 [(aTP_CTRL 1, fTP_CTRL_EN,
      0)])) .core0 1 1#2 &&
    (fun (s : State) (m : Rm) (p : Fin 6) (v : BitVec 2) => decide (s.Inv ∧ s.ringReady m (aTP_CTRL p.val) ∧ v ≠ 0#2 ∧
      ((s.tpState p.val ≠ 0 ∨ s.bit (aTP_CTRL p.val) fTP_CTRL_EN ∨ s.fld (aTP_LB p.val) fTP_LB_RET ≠ 0)))) ((st [(aTP_STATUS 1,
      fTP_STATUS_STATE, 6)])) .core0 1 1#2 &&
    (fun (s : State) (m : Rm) (d : Fin 6) (q : Fin 4) (v : W32) => decide (s.Inv ∧
      s.ringReady m (aGL_LB d.val q.val))) wUp .core0 1 2 0x123#32) = true := by decide +kernel

theorem witness_RemoteManagement :
    ((fun (s : State) (m : Rm) (r : Remote) => decide (s.Inv ∧ s.ringReady m (aRG_CTRL (rmIdx m)) ∧
      (s.bit (aRG_STATUS (rmIdx m)) fRG_STATUS_BUSY = false) ∧
      ((s.plainWrite (aRG_CTRL (rmIdx m)) (putF (s.reg (aRG_CTRL (rmIdx m))) fRG_CTRL_OP 1)).gwPacket (rmIdx m) 1 = some r))) wGw .core0 (((wGw.plainWrite (aRG_CTRL 0) (putF (wGw.reg (aRG_CTRL 0)) fRG_CTRL_OP 1)).gwPacket 0 1).getD (remoteOf 0)) &&
    (fun (s : State) (m : Rm) => decide (s.Inv ∧ s.ringReady m (aRG_CTRL (rmIdx m)) ∧
      (s.bit (aRG_STATUS (rmIdx m)) fRG_STATUS_BUSY = false) ∧
      ((s.plainWrite (aRG_CTRL (rmIdx m)) (putF (s.reg (aRG_CTRL (rmIdx m))) fRG_CTRL_OP 1)).gwPacket (rmIdx m) 1 = none))) ((st [(aRG_ADDR_HI 0,
      fRG_ADDR_HI_DEV, 4000)])) .core0 &&
    (fun (s : State) (m : Rm) => decide (s.Inv ∧ s.ringReady m (aRG_CTRL (rmIdx m)) ∧
      s.bit (aRG_STATUS (rmIdx m)) fRG_STATUS_BUSY)) ((st [(aRG_STATUS 1, fRG_STATUS_BUSY, 1)])) .debug &&
    (fun (s : State) (m : Rm) (r : Remote) => decide (s.Inv ∧ s.ringReady m (aRG_CTRL (rmIdx m)) ∧
      (s.bit (aRG_STATUS (rmIdx m)) fRG_STATUS_BUSY = false) ∧
      ((s.plainWrite (aRG_CTRL (rmIdx m)) (putF (s.reg (aRG_CTRL (rmIdx m))) fRG_CTRL_OP 2)).gwPacket (rmIdx m) 2 = some r))) wGw .core0 (((wGw.plainWrite (aRG_CTRL 0) (putF (wGw.reg (aRG_CTRL 0)) fRG_CTRL_OP 2)).gwPacket 0 2).getD (remoteOf 0)) &&
    (fun (s : State) (m : Rm) => decide (s.Inv ∧ s.ringReady m (aRG_CTRL (rmIdx m)) ∧
      (s.bit (aRG_STATUS (rmIdx m)) fRG_STATUS_BUSY = false) ∧
      ((s.plainWrite (aRG_CTRL (rmIdx m)) (putF (s.reg (aRG_CTRL (rmIdx m))) fRG_CTRL_OP 2)).gwPacket (rmIdx m) 2 = none))) ((st [(aRG_ADDR_HI 0,
      fRG_ADDR_HI_DEV, 4000)])) .core0 &&
    (fun (s : State) (m : Rm) => decide (s.Inv ∧ s.ringReady m (aRG_CTRL (rmIdx m)) ∧
      s.bit (aRG_STATUS (rmIdx m)) fRG_STATUS_BUSY)) ((st [(aRG_STATUS 1, fRG_STATUS_BUSY, 1)])) .debug &&
    (fun (s : State) (m : Rm) => decide (s.Inv ∧ s.runs ∧ s.bit (aRG_STATUS (rmIdx m)) fRG_STATUS_BUSY ∧
      ((s.gw (rmIdx m)).deadline ≤ s.now))) ((st [(aRG_STATUS 1, fRG_STATUS_BUSY, 1)])) .debug &&
    (fun (s : State) (m : Rm) => decide (s.Inv ∧ ((s.runs = false ∨ s.bit (aRG_STATUS (rmIdx m)) fRG_STATUS_BUSY = false ∨
      s.now < (s.gw (rmIdx m)).deadline)))) w0 .debug &&
    (fun (s : State) (p : Fin 7) (e : Nat × BitVec 120) (k : Nat) (r : Remote) => decide (s.Inv ∧ s.hubRuns ∧
      (s.remoteIn.find? (fun e => e.1 == p.val) = some e) ∧ ((remoteOf e.2).hop = some (k, r)) ∧ (((s.portManages k ∨
      s.tpState k = 10) ∧ (s.port k).disStep = 0 ∧ (s.port k).remoteQ.length < 8)))) wHopPkt 2 ((2,
      (wRemote 1).bits)) 0 wRemoteNext &&
    (fun (s : State) (p : Fin 7) (e : Nat × BitVec 120) (k : Nat) (r : Remote) => decide (s.Inv ∧ s.hubRuns ∧
      (s.remoteIn.find? (fun e => e.1 == p.val) = some e) ∧ ((remoteOf e.2).hop = some (k, r)) ∧ (¬ ((s.portManages k ∨
      s.tpState k = 10) ∧ (s.port k).disStep = 0 ∧
      (s.port k).remoteQ.length < 8)))) ({ w0 with remoteIn := [(2, (wRemote 1).bits)] }) 2 ((2,
      (wRemote 1).bits)) 0 wRemoteNext &&
    (fun (s : State) (p : Fin 7) (e : Nat × BitVec 120) => decide (s.Inv ∧ s.hubRuns ∧
      (s.remoteIn.find? (fun e => e.1 == p.val) = some e) ∧ ((remoteOf e.2).hop = none) ∧ (remoteOf e.2).op < 2 ∧
      (s.ringConfig.busy = false))) ({ State.reset with remoteIn := [(2, (wRemote 0).bits)], dieReset := [(3, some 0)] }) 2 ((2,
      (wRemote 0).bits)) &&
    (fun (s : State) (p : Fin 7) (e : Nat × BitVec 120) (g : Nat) (b : BitVec 120) => decide (s.Inv ∧ s.hubRuns ∧
      (s.remoteIn.find? (fun e => e.1 == p.val) = some e) ∧ ((remoteOf e.2).hop = none) ∧ (2 ≤ (remoteOf e.2).op) ∧ (([0, 1,
      2] : List Nat).find? (fun g => gwMaster g == (remoteOf e.2).master) = some g) ∧ ((s.gw g).sent = some b) ∧
      ((remoteOf b).op + 2 = (remoteOf e.2).op) ∧ ((remoteOf b).die = (remoteOf e.2).die) ∧
      ((remoteOf b).block = (remoteOf e.2).block) ∧
      ((remoteOf b).off = (remoteOf e.2).off))) ((let s : State := { State.reset with remoteIn := [(2, { wRemote 0 with op := 2 }.bits)] }; s.setGw 0 ⟨9,
      some (wRemote 0).bits⟩)) 2 ((2, { wRemote 0 with op := 2 }.bits)) 0 ((wRemote 0).bits) &&
    (fun (s : State) (p : Fin 7) => decide (s.Inv ∧ ((s.hubRuns = false ∨ s.remoteIn.find? (fun e => e.1 == p.val) = none)))) w0 2 &&
    (fun (s : State) (m : Rm) (p : Fin 6) => decide (s.Inv ∧ s.ringReady m (aTP_CFG_CTRL p.val) ∧
      (s.bit (aTP_CFG_CTRL p.val) fTP_CFG_CTRL_BUSY = false))) w0 .core0 3 &&
    (fun (s : State) (m : Rm) (p : Fin 6) => decide (s.Inv ∧ s.ringReady m (aTP_CFG_CTRL p.val) ∧
      s.bit (aTP_CFG_CTRL p.val) fTP_CFG_CTRL_BUSY)) ((st [(aTP_CFG_CTRL 3, fTP_CFG_CTRL_BUSY, 1)])) .core0 3 &&
    (fun (s : State) (m : Rm) (p : Fin 6) => decide (s.Inv ∧ s.ringReady m (aTP_CFG_CTRL p.val) ∧
      s.bit (aTP_CFG_CTRL p.val) fTP_CFG_CTRL_BUSY)) ((st [(aTP_CFG_CTRL 3, fTP_CFG_CTRL_BUSY, 1)])) .core0 3 &&
    (fun (s : State) (m : Rm) (p : Fin 6) => decide (s.Inv ∧ s.ringReady m (aTP_CFG_CTRL p.val) ∧
      (s.bit (aTP_CFG_CTRL p.val) fTP_CFG_CTRL_BUSY = false))) w0 .core0 3 &&
    (fun (s : State) (p : Fin 6) => decide (s.Inv ∧ s.runs ∧ s.bit (aTP_CFG_CTRL p.val) fTP_CFG_CTRL_BUSY ∧
      ((s.port p.val).sendFail = false) ∧ (((s.port p.val).sendWord = s.sendLen p.val ∧ ((s.port p.val).sendAsked = false ∨
      (s.port p.val).sendStale) ∧ (s.port p.val).sendBuf = [])))) ((st [(aTP_CFG_CTRL 3, fTP_CFG_CTRL_BUSY, 1), (aTP_CFG_LEN 3,
      fTP_CFG_LEN_WORDS, 0)])) 3 &&
    (fun (s : State) (p : Fin 6) => decide (s.Inv ∧ s.runs ∧ s.bit (aTP_CFG_CTRL p.val) fTP_CFG_CTRL_BUSY ∧
      (s.port p.val).sendFail)) (((st [(aTP_CFG_CTRL 3, fTP_CFG_CTRL_BUSY,
      1)]).setPort 3 { Port.empty with sendFail := true })) 3 &&
    (fun (s : State) (p : Fin 6) => decide (s.Inv ∧ ((s.runs = false ∨ s.bit (aTP_CFG_CTRL p.val) fTP_CFG_CTRL_BUSY = false ∨
      ((s.port p.val).sendFail = false ∧ ¬ ((s.port p.val).sendWord = s.sendLen p.val ∧ ((s.port p.val).sendAsked = false ∨
      (s.port p.val).sendStale) ∧ (s.port p.val).sendBuf = [])))))) w0 3) = true := by decide +kernel

theorem witness_FabricRegions :
    ((fun (s : State) (d : Fin 6) (i : Fin 16) => decide (s.Inv ∧ s.runs ∧ (s.inReset d.val = false) ∧ s.portsUp d.val ∧
      (s.placeHeld d.val evtPlace = false))) ((st [(aCFG_DIES, ⟨10, 2⟩, 3)])) 5 15 &&
    (fun (s : State) (d : Fin 6) (i : Fin 16) => decide (s.Inv ∧ ((s.runs = false ∨ s.inReset d.val ∨ s.portsUp d.val = false ∨
      s.placeHeld d.val evtPlace)))) w0 5 15 &&
    (fun (s : State) (m : Rm) (d : Fin 6) (i : Fin 8) (v : W32) => decide (s.Inv ∧
      s.ringReady m (aPRB_SEL d.val i.val))) wUp .core0 5 7 0x81#32 &&
    (fun (s : State) (m : Rm) (d : Fin 6) (n : Fin 16) (v : W32) => decide (s.Inv ∧ s.ringReady m (aBR_RGN d.val n.val) ∧
      (s.rgnPending d.val n.val = false) ∧ (s.rgnHeld d.val n.val = false) ∧ ((getB v fBR_RGN_V = false ∨
      ((getF v fBR_RGN_COL_FIRST ≠ 0 ∧ getF v fBR_RGN_COL_LAST ≤ 480 ∧ getF v fBR_RGN_COL_FIRST ≤ getF v fBR_RGN_COL_LAST ∧
      getF v fBR_RGN_RB_FIRST ≤ getF v fBR_RGN_RB_LAST) ∧
      (List.range 16).any (fun k => k != n.val && s.rgnValid d.val k && rgnOverlap v (s.reg (aBR_RGN d.val k))) = false))))) wUp .core0 5 7 (putF (putF (putF 0#32 fBR_RGN_V 1) fBR_RGN_COL_FIRST 5) fBR_RGN_COL_LAST 9) &&
    (fun (s : State) (m : Rm) (d : Fin 6) (n : Fin 16) (v : W32) => decide (s.Inv ∧ s.ringReady m (aBR_RGN d.val n.val) ∧
      ((s.rgnPending d.val n.val ∨ s.rgnHeld d.val n.val ∨ (getB v fBR_RGN_V ∧ (¬ (getF v fBR_RGN_COL_FIRST ≠ 0 ∧
      getF v fBR_RGN_COL_LAST ≤ 480 ∧ getF v fBR_RGN_COL_FIRST ≤ getF v fBR_RGN_COL_LAST ∧
      getF v fBR_RGN_RB_FIRST ≤ getF v fBR_RGN_RB_LAST) ∨
      (List.range 16).any (fun k => k != n.val && s.rgnValid d.val k && rgnOverlap v (s.reg (aBR_RGN d.val k))))))))) wUp .core0 5 7 (putF (putF 0#32 fBR_RGN_V 1) fBR_RGN_COL_FIRST 5) &&
    (fun (s : State) (m : Rm) (d : Fin 6) (v : BitVec 16) (n : Fin 16) => decide (s.Inv ∧ s.ringReady m (aBR_HOLD d.val) ∧
      v.getLsbD n.val ∧ s.rgnValid d.val n.val ∧ (s.rgnPending d.val n.val = false) ∧
      (s.rgnHeld d.val n.val = false))) ((setAll wUp [(aBR_RGN 2 3, fBR_RGN_V, 1), (aBR_RGN 2 3, fBR_RGN_COL_LAST, 40),
      (aBR_RGN 2 3, fBR_RGN_RB_LAST, 5)])) .core0 2 8#16 3 &&
    (fun (s : State) (m : Rm) (d : Fin 6) (v : BitVec 16) (n : Fin 16) => decide (s.Inv ∧ s.ringReady m (aBR_HOLD d.val) ∧
      ((v.getLsbD n.val = false ∨ s.rgnValid d.val n.val = false ∨ s.rgnPending d.val n.val ∨
      s.rgnHeld d.val n.val)))) ((setAll wUp [(aBR_RGN 2 3, fBR_RGN_V, 1), (aBR_RGN 2 3, fBR_RGN_COL_LAST, 40), (aBR_RGN 2 3,
      fBR_RGN_RB_LAST, 5)])) .core0 2 8#16 4 &&
    (fun (s : State) (m : Rm) (d : Fin 6) (n : Fin 16) => decide (s.Inv ∧ s.ringReady m (aBR_RELEASE d.val) ∧
      s.rgnValid d.val n.val ∧ (s.rgnPending d.val n.val = false) ∧ s.rgnHeld d.val n.val ∧
      ((s.hold d.val n.val).relAt = none))) ((setAll wUp [(aBR_RGN 2 3, fBR_RGN_V, 1), (aBR_STAT 2, ⟨3, 1⟩, 1)])) .core0 2 3 &&
    (fun (s : State) (m : Rm) (d : Fin 6) (n : Fin 16) => decide (s.Inv ∧ s.ringReady m (aBR_RELEASE d.val) ∧
      s.rgnValid d.val n.val ∧ s.rgnPending d.val n.val)) ((setAll wUp [(aBR_RGN 2 3, fBR_RGN_V, 1), (aBR_STAT 2, ⟨19, 1⟩,
      1)])) .core0 2 3 &&
    (fun (s : State) (m : Rm) (d : Fin 6) (v : BitVec 16) => decide (s.Inv ∧ s.ringReady m (aBR_RELEASE d.val) ∧
      ((List.range 16).all (fun n => !v.getLsbD n || !s.rgnValid d.val n || (!s.rgnPending d.val n && (!s.rgnHeld d.val n || (s.hold d.val n).relAt.isSome)))))) wUp .core0 2 9#16 &&
    (fun (s : State) (d : Fin 6) (n : Fin 16) => decide (s.Inv ∧ s.runs ∧ s.rgnPending d.val n.val ∧
      (s.hold d.val n.val).since < s.now)) ((tk 5 (st [(aBR_STAT 2, ⟨19, 1⟩, 1)]))) 2 3 &&
    (fun (s : State) (d : Fin 6) (n : Fin 16) => decide (s.Inv ∧ ((s.runs = false ∨ s.rgnPending d.val n.val = false ∨
      s.now ≤ (s.hold d.val n.val).since)))) w0 2 3 &&
    (fun (s : State) (d : Fin 6) (n : Fin 16) (e : Nat) => decide (s.Inv ∧ s.runs ∧ ((s.hold d.val n.val).relAt = some e) ∧
      (e + 8 ≤ s.now))) ((tk 20 (w0.setHold 2 3 ⟨0, true, some 4, true⟩))) 2 3 4 &&
    (fun (s : State) (d : Fin 6) (n : Fin 16) => decide (s.Inv ∧ ((s.runs = false ∨
      (s.hold d.val n.val).relAt.all (fun e => decide (s.now < e + 8)))))) w0 2 3 &&
    (fun (s : State) (d : Fin 6) (n : Fin 16) (e : Nat) => decide (s.Inv ∧ s.runs ∧ s.rgnHeld d.val n.val ∧
      ((s.hold d.val n.val).relAt = some e) ∧ (e + 16 ≤ s.now))) ((tk 20 (setAll (w0.setHold 2 3 ⟨0, true, some 4,
      true⟩) [(aBR_STAT 2, ⟨3, 1⟩, 1)]))) 2 3 4 &&
    (fun (s : State) (d : Fin 6) (n : Fin 16) => decide (s.Inv ∧ ((s.runs = false ∨ s.rgnHeld d.val n.val = false ∨
      (s.hold d.val n.val).relAt.all (fun e => decide (s.now < e + 16)))))) w0 2 3) = true := by decide +kernel

theorem witness_StreamHeaders :
    ((fun (s : State) (c : CfgSrc) => decide (s.Inv ∧ s.atHeader c ∧ s.sound c [0#32])) wStream .parallel &&
    (fun (s : State) (c : CfgSrc) (w : W32) => decide (s.Inv ∧ s.atHeader c ∧ s.sound c [0x10000001#32, w] ∧
      (w = crc32Run s.cfg.crc (natLe 4 0x10000001) ^^^ 0xFFFFFFFF#32))) wStream .parallel (crc32Run wStream.cfg.crc (natLe 4 0x10000001) ^^^ 0xFFFFFFFF#32) &&
    (fun (s : State) (c : CfgSrc) (w : W32) => decide (s.Inv ∧ s.atHeader c ∧ s.sound c [0x10000001#32, w] ∧
      w ≠ crc32Run s.cfg.crc (natLe 4 0x10000001) ^^^ 0xFFFFFFFF#32)) wStream .parallel 0#32 &&
    (fun (s : State) (c : CfgSrc) (w : W32) => decide (s.Inv ∧ s.atHeader c ∧ s.sound c [0x10100001#32, w] ∧
      (w = s.reg aDEVICE_CODE))) wStream .parallel ((wStream.reg aDEVICE_CODE)) &&
    (fun (s : State) (c : CfgSrc) (w : W32) => decide (s.Inv ∧ s.atHeader c ∧ s.sound c [0x10100001#32, w] ∧
      w ≠ s.reg aDEVICE_CODE)) wStream .parallel 0#32 &&
    (fun (s : State) (c : CfgSrc) (w : W32) => decide (s.Inv ∧ s.atHeader c ∧ s.sound c [0x10200001#32, w] ∧ w.toNat < 16 ∧
      ((s.bit aFEATURE_LEVEL fFEATURE_LEVEL_VALID ∧
      w.toNat ≤ s.fld aFEATURE_LEVEL fFEATURE_LEVEL_LEVEL)))) ((setAll wStream [(aFEATURE_LEVEL, fFEATURE_LEVEL_VALID,
      1)])) .parallel 0#32 &&
    (fun (s : State) (c : CfgSrc) (w : W32) => decide (s.Inv ∧ s.atHeader c ∧ s.sound c [0x10200001#32, w] ∧ w.toNat < 16 ∧
      (¬ (s.bit aFEATURE_LEVEL fFEATURE_LEVEL_VALID ∧
      w.toNat ≤ s.fld aFEATURE_LEVEL fFEATURE_LEVEL_LEVEL)))) wStream .parallel 15#32 &&
    (fun (s : State) (c : CfgSrc) (w : W32) => decide (s.Inv ∧ s.atHeader c ∧ s.sound c [0x10200001#32, w] ∧
      (16 ≤ w.toNat))) wStream .parallel 16#32 &&
    (fun (s : State) (c : CfgSrc) (w : W32) => decide (s.Inv ∧ s.atHeader c ∧ s.sound c [0x10400001#32, w] ∧ (((faOf w).valid ∧
      w.toNat % 256 = 0)))) wStream .parallel 0x20100300#32 &&
    (fun (s : State) (c : CfgSrc) (w : W32) => decide (s.Inv ∧ s.atHeader c ∧ s.sound c [0x10400001#32, w] ∧ (¬ ((faOf w).valid ∧
      w.toNat % 256 = 0)))) wStream .parallel 0xC0000000#32 &&
    (fun (s : State) (c : CfgSrc) (w : W32) => decide (s.Inv ∧ s.atHeader c ∧ s.sound c [0x10800001#32, w] ∧ s.identified ∧
      w.toNat < 2)) wStream .parallel 1#32 &&
    (fun (s : State) (c : CfgSrc) (w : W32) => decide (s.Inv ∧ s.atHeader c ∧ s.sound c [0x10800001#32, w] ∧ s.identified ∧
      (2 ≤ w.toNat))) wStream .parallel 2#32 &&
    (fun (s : State) (c : CfgSrc) (w : W32) => decide (s.Inv ∧ s.atHeader c ∧ s.sound c [0x10A00001#32, w] ∧ s.identified ∧
      (w &&& 0xFFF8FFF0#32 = 0#32))) wStream .parallel 0x20003#32 &&
    (fun (s : State) (c : CfgSrc) (w : W32) => decide (s.Inv ∧ s.atHeader c ∧ s.sound c [0x10A00001#32, w] ∧ s.identified ∧
      w &&& 0xFFF8FFF0#32 ≠ 0#32)) wStream .parallel 0x20013#32 &&
    (fun (s : State) (c : CfgSrc) (w : W32) => decide (s.Inv ∧ s.atHeader c ∧ s.sound c [0x11000001#32, w] ∧ s.identified ∧
      (((faOf w).valid ∧ w.toNat % 256 = 0 ∧ (faOf w).die ≠ 7 ∧
      (faOf w).minor < cfgMinors (faOf w).die (faOf w).col)))) wStream .parallel 0x20100300#32 &&
    (fun (s : State) (c : CfgSrc) (w : W32) => decide (s.Inv ∧ s.atHeader c ∧ s.sound c [0x11000001#32, w] ∧ s.identified ∧
      (¬ ((faOf w).valid ∧ w.toNat % 256 = 0 ∧ (faOf w).die ≠ 7 ∧
      (faOf w).minor < cfgMinors (faOf w).die (faOf w).col)))) wStream .parallel 0xE0000000#32 &&
    (fun (s : State) (c : CfgSrc) (w : W32) => decide (s.Inv ∧ s.atHeader c ∧ s.sound c [0x10800001#32, w] ∧
      (s.identified = false))) ((st [(aCFG_STATUS, fCFG_STATUS_STATE, 3), (aCFG_STATUS, fCFG_STATUS_SRC, 1)])) .parallel 0#32 &&
    (fun (s : State) (c : CfgSrc) (w : W32) => decide (s.Inv ∧ s.atHeader c ∧ s.sound c [0x10A00001#32, w] ∧
      (s.identified = false))) ((st [(aCFG_STATUS, fCFG_STATUS_STATE, 3), (aCFG_STATUS, fCFG_STATUS_SRC, 1)])) .parallel 0#32 &&
    (fun (s : State) (c : CfgSrc) (w : W32) => decide (s.Inv ∧ s.atHeader c ∧ s.sound c [0x11000001#32, w] ∧
      (s.identified = false))) ((st [(aCFG_STATUS, fCFG_STATUS_STATE, 3), (aCFG_STATUS, fCFG_STATUS_SRC, 1)])) .parallel 0#32 &&
    (fun (s : State) (k : OpKind) (c : CfgSrc) (ws : List W32) (op : StreamOp) => decide (s.Inv ∧ s.atHeader c ∧
      (s.parse ws = some op) ∧ (op.kind = none) ∧ s.sound c ws)) wStream .nop .parallel ([0x1FF00001#32]) .bad &&
    (fun (s : State) (k : OpKind) (c : CfgSrc) (ws : List W32) (op : StreamOp) => decide (s.Inv ∧ s.takesFrom c ∧
      (s.parse ws = some op) ∧ ((op.kind = some k ∨ (k = .fdata ∧ s.cfg.fdataLeft ≠ 0) ∨ (k = .ebmData ∧ s.cfg.ebmLeft ≠ 0))) ∧
      s.engineRoom op ∧ ((s.takeWords c ws).any (fun x => x.2)))) (((st [(aCFG_STATUS, fCFG_STATUS_STATE, 3), (aCFG_STATUS,
      fCFG_STATUS_SRC, 3), (aCFG_STATUS, fCFG_STATUS_PORT,
      1)]).setPort 1 { Port.empty with cfgIn := [⟨[0#32], true⟩] })) .nop (.port 1) ([0#32]) .nop &&
    (fun (s : State) (k : OpKind) (c : CfgSrc) (ws : List W32) => decide (s.Inv ∧ s.runs ∧ (s.cfgState = 3) ∧ ws ≠ [] ∧
      (s.owns c = false) ∧ c ≠ .sdata ∧ s.srcAllowed c)) ((setAll wStream [(aCFG_STATUS, fCFG_STATUS_SRC,
      4)])) .nop .parallel ([0#32]) &&
    (fun (s : State) (k : OpKind) (c : CfgSrc) (ws : List W32) => decide (s.Inv ∧ ((s.runs = false ∨ s.cfgState ≠ 3 ∨ ws = [] ∨
      (s.owns c = false ∧ (c = .sdata ∨ s.srcAllowed c = false)) ∨ (s.owns c ∧ (s.streamStalled ∨ s.parse ws = none ∨
      s.takeWords c ws = none)))))) w0 .nop .parallel ([0#32]) &&
    (fun (s : State) (k : OpKind) (c : CfgSrc) (ws : List W32) (op : StreamOp) (j : OpKind) => decide (s.Inv ∧ s.atHeader c ∧
      (s.parse ws = some op) ∧ (op.kind = some j) ∧ ((j ≠ k ∨
      s.engineRoom op = false)))) wStream .crc .parallel ([0#32]) .nop .nop) = true := by decide +kernel

theorem witness_StreamDataAndCommands :
    ((fun (s : State) (c : CfgSrc) (n : Nat) (xs : List W32) => decide (s.Inv ∧ s.atHeader c ∧
      s.sound c ((BitVec.ofNat 32 (0x10500000 + 128 * n)) :: xs) ∧ s.identified ∧ n < 8192 ∧ xs.length < 128 ∧
      (xs.length ≤ 128 * n) ∧ ((xs = [] ∨ (s.cfg.frameEnd = false ∧ s.inReset (faOf s.cfg.frameAddr).die = false ∧
      s.engineRoom (.fdata (128 * n) xs)))))) wStream .parallel 3 ([7#32, 8#32]) &&
    (fun (s : State) (c : CfgSrc) (n : Nat) (xs : List W32) => decide (s.Inv ∧ s.atHeader c ∧
      s.sound c ((BitVec.ofNat 32 (0x11100000 + 4 * n)) :: xs) ∧ s.identified ∧ n < 262144 ∧ xs.length < 4 ∧
      (xs.length ≤ 4 * n) ∧ ((xs = [] ∨ (s.cfg.ebmEnd = false ∧ s.inReset (faOf s.cfg.ebmAddr).die = false ∧
      s.engineRoom (.ebmData (4 * n) xs)))))) wStream .parallel 3 ([7#32]) &&
    (fun (s : State) (c : CfgSrc) (n : W32) (xs : List W32) => decide (s.Inv ∧ s.atHeader c ∧
      s.sound c (0x20500000#32 :: n :: xs) ∧ s.identified ∧ (n.toNat % 128 = 0) ∧ xs.length < 128 ∧ (xs.length ≤ n.toNat) ∧
      ((xs = [] ∨ (s.cfg.frameEnd = false ∧ s.inReset (faOf s.cfg.frameAddr).die = false ∧
      s.engineRoom (.fdata n.toNat xs)))))) wStream .parallel 0x200000#32 ([7#32]) &&
    (fun (s : State) (c : CfgSrc) (n : W32) (xs : List W32) => decide (s.Inv ∧ s.atHeader c ∧
      s.sound c (0x21100000#32 :: n :: xs) ∧ s.identified ∧ (n.toNat % 4 = 0) ∧ xs.length < 4 ∧ (xs.length ≤ n.toNat) ∧
      ((xs = [] ∨ (s.cfg.ebmEnd = false ∧ s.inReset (faOf s.cfg.ebmAddr).die = false ∧
      s.engineRoom (.ebmData n.toNat xs)))))) wStream .parallel 0x200000#32 ([7#32]) &&
    (fun (s : State) (c : CfgSrc) (n : Nat) => decide (s.Inv ∧ s.atHeader c ∧
      s.sound c [(BitVec.ofNat 32 (0x10500000 + 128 * n))] ∧ n < 8192 ∧ (s.identified = false))) ((st [(aCFG_STATUS,
      fCFG_STATUS_STATE, 3), (aCFG_STATUS, fCFG_STATUS_SRC, 1)])) .parallel 3 &&
    (fun (s : State) (c : CfgSrc) (n : Nat) => decide (s.Inv ∧ s.atHeader c ∧ s.sound c [(BitVec.ofNat 32 (0x11100000 + 4 * n))] ∧
      n < 8192 ∧ (s.identified = false))) ((st [(aCFG_STATUS, fCFG_STATUS_STATE, 3), (aCFG_STATUS, fCFG_STATUS_SRC,
      1)])) .parallel 3 &&
    (fun (s : State) (c : CfgSrc) (xs : List W32) => decide (s.Inv ∧ s.takesFrom c ∧ s.sound c xs ∧ xs ≠ [] ∧
      (xs.length ≤ s.cfg.fdataLeft) ∧ (s.cfg.ebmLeft = 0) ∧ (s.cfg.frameEnd = false) ∧
      (s.inReset (faOf s.cfg.frameAddr).die = false) ∧ s.engineRoom (.more xs) ∧
      s.cfg.acc.length + xs.length < 128)) wFdata0 .parallel ([7#32, 8#32]) &&
    (fun (s : State) (c : CfgSrc) (xs : List W32) (lo hi last : Nat) (g : FrameAddr) => decide (s.Inv ∧ s.takesFrom c ∧
      s.sound c xs ∧ xs ≠ [] ∧ (xs.length ≤ s.cfg.fdataLeft) ∧ (s.cfg.ebmLeft = 0) ∧ (s.cfg.frameEnd = false) ∧
      (s.inReset (faOf s.cfg.frameAddr).die = false) ∧ s.engineRoom (.more xs) ∧ (s.cfg.acc.length + xs.length = 128) ∧
      (s.writeBounds (faOf s.cfg.frameAddr) = some (lo, hi, last)) ∧
      (selectBad (faOf s.cfg.frameAddr) (BitVec.ofNat 4096 (leNat ((s.cfg.acc ++ xs).flatMap (fun x => natLe 4 x.toNat)))) = false) ∧
      ((faOf s.cfg.frameAddr).next false lo hi last = some g))) wFdata .parallel ([0#32]) 0 15 481 (⟨2, 0, 1, 0⟩) &&
    (fun (s : State) (c : CfgSrc) (xs : List W32) (lo hi last : Nat) => decide (s.Inv ∧ s.takesFrom c ∧ s.sound c xs ∧ xs ≠ [] ∧
      (xs.length ≤ s.cfg.fdataLeft) ∧ (s.cfg.ebmLeft = 0) ∧ (s.cfg.frameEnd = false) ∧
      (s.inReset (faOf s.cfg.frameAddr).die = false) ∧ s.engineRoom (.more xs) ∧ (s.cfg.acc.length + xs.length = 128) ∧
      (s.writeBounds (faOf s.cfg.frameAddr) = some (lo, hi, last)) ∧
      (selectBad (faOf s.cfg.frameAddr) (BitVec.ofNat 4096 (leNat ((s.cfg.acc ++ xs).flatMap (fun x => natLe 4 x.toNat)))) = false) ∧
      ((faOf s.cfg.frameAddr).next false lo hi last = none))) ({ wFdata with cfg := { wFdata.cfg with frameAddr := (⟨2, 481, 15, 15⟩ : FrameAddr).word } }) .parallel ([0#32]) 0 15 481 &&
    (fun (s : State) (c : CfgSrc) (xs : List W32) => decide (s.Inv ∧ s.takesFrom c ∧ s.sound c xs ∧ xs ≠ [] ∧
      (xs.length ≤ s.cfg.fdataLeft) ∧ (s.cfg.ebmLeft = 0) ∧ (s.cfg.frameEnd = false) ∧
      (s.inReset (faOf s.cfg.frameAddr).die = false) ∧ s.engineRoom (.more xs) ∧ (s.cfg.acc.length + xs.length = 128) ∧
      (s.writeBounds (faOf s.cfg.frameAddr) = none))) ((setAll wFdata [(aCFG_DIES, ⟨4, 2⟩, 3)])) .parallel ([0#32]) &&
    (fun (s : State) (c : CfgSrc) (xs : List W32) => decide (s.Inv ∧ s.takesFrom c ∧ s.sound c xs ∧ xs ≠ [] ∧
      (xs.length ≤ s.cfg.fdataLeft) ∧ (s.cfg.ebmLeft = 0) ∧ (s.cfg.frameEnd = false) ∧
      (s.inReset (faOf s.cfg.frameAddr).die = false) ∧ s.engineRoom (.more xs) ∧ (s.cfg.acc.length + xs.length = 128) ∧
      (s.writeBounds (faOf s.cfg.frameAddr)).isSome)) wFdata .parallel ([0#32]) &&
    (fun (s : State) (c : CfgSrc) (w : W32) (xs : List W32) => decide (s.Inv ∧ s.takesFrom c ∧ s.sound c (w :: xs) ∧
      (xs.length + 1 ≤ s.cfg.fdataLeft) ∧ (s.cfg.ebmLeft = 0) ∧ s.engineRoom (.more (w :: xs)) ∧
      s.cfg.frameEnd)) ({ wFdata0 with cfg := { wFdata0.cfg with frameEnd := true } }) .parallel 7#32 ([]) &&
    (fun (s : State) (c : CfgSrc) (w : W32) (xs : List W32) => decide (s.Inv ∧ s.takesFrom c ∧ s.sound c (w :: xs) ∧
      (xs.length + 1 ≤ s.cfg.fdataLeft) ∧ (s.cfg.ebmLeft = 0) ∧ s.engineRoom (.more (w :: xs)) ∧ (s.cfg.frameEnd = false) ∧
      s.inReset (faOf s.cfg.frameAddr).die)) ({ wFdata0 with dieReset := [(2, some 0)] }) .parallel 7#32 ([8#32]) &&
    (fun (s : State) (c : CfgSrc) (xs ys : List W32) => decide (s.Inv ∧ s.takesFrom c ∧ ((c = .parallel ∨ c = .spi)) ∧ xs ≠ [] ∧
      ys ≠ [] ∧ (s.cfg.ebmLeft = 0) ∧ (xs.length + ys.length ≤ s.cfg.fdataLeft) ∧
      s.engineRoom (.more (xs ++ ys)))) wFdata0 .parallel ([0#32]) ([5#32]) &&
    (fun (s : State) (c : CfgSrc) (xs : List W32) => decide (s.Inv ∧ s.takesFrom c ∧ s.sound c xs ∧ xs ≠ [] ∧
      (xs.length ≤ s.cfg.ebmLeft) ∧ (s.cfg.fdataLeft = 0) ∧ (s.cfg.ebmEnd = false) ∧
      (s.inReset (faOf s.cfg.ebmAddr).die = false) ∧ s.engineRoom (.more xs) ∧
      s.cfg.acc.length + xs.length < 4)) ({ wEbm with cfg := { wEbm.cfg with acc := [] } }) .parallel ([7#32, 8#32]) &&
    (fun (s : State) (c : CfgSrc) (xs : List W32) (lo hi last : Nat) (g : FrameAddr) => decide (s.Inv ∧ s.takesFrom c ∧
      s.sound c xs ∧ xs ≠ [] ∧ (xs.length ≤ s.cfg.ebmLeft) ∧ (s.cfg.fdataLeft = 0) ∧ (s.cfg.ebmEnd = false) ∧
      (s.inReset (faOf s.cfg.ebmAddr).die = false) ∧ s.engineRoom (.more xs) ∧ (s.cfg.acc.length + xs.length = 4) ∧
      (s.writeBounds (faOf s.cfg.ebmAddr) = some (lo, hi, last)) ∧
      ((faOf s.cfg.ebmAddr).next true lo hi last = some g))) wEbm .parallel ([9#32]) 0 15 481 (⟨2, 0, 1, 0⟩) &&
    (fun (s : State) (c : CfgSrc) (xs : List W32) (lo hi last : Nat) => decide (s.Inv ∧ s.takesFrom c ∧ s.sound c xs ∧ xs ≠ [] ∧
      (xs.length ≤ s.cfg.ebmLeft) ∧ (s.cfg.fdataLeft = 0) ∧ (s.cfg.ebmEnd = false) ∧
      (s.inReset (faOf s.cfg.ebmAddr).die = false) ∧ s.engineRoom (.more xs) ∧ (s.cfg.acc.length + xs.length = 4) ∧
      (s.writeBounds (faOf s.cfg.ebmAddr) = some (lo, hi, last)) ∧
      ((faOf s.cfg.ebmAddr).next true lo hi last = none))) ({ wEbm with cfg := { wEbm.cfg with ebmAddr := (⟨2, 481, 15, 15⟩ : FrameAddr).word } }) .parallel ([9#32]) 0 15 481 &&
    (fun (s : State) (c : CfgSrc) (xs : List W32) => decide (s.Inv ∧ s.takesFrom c ∧ s.sound c xs ∧ xs ≠ [] ∧
      (xs.length ≤ s.cfg.ebmLeft) ∧ (s.cfg.fdataLeft = 0) ∧ (s.cfg.ebmEnd = false) ∧
      (s.inReset (faOf s.cfg.ebmAddr).die = false) ∧ s.engineRoom (.more xs) ∧ (s.cfg.acc.length + xs.length = 4) ∧
      (s.writeBounds (faOf s.cfg.ebmAddr) = none))) ((setAll wEbm [(aCFG_DIES, ⟨4, 2⟩, 3)])) .parallel ([0#32]) &&
    (fun (s : State) (c : CfgSrc) (w : W32) (xs : List W32) => decide (s.Inv ∧ s.takesFrom c ∧ s.sound c (w :: xs) ∧
      (xs.length + 1 ≤ s.cfg.ebmLeft) ∧ (s.cfg.fdataLeft = 0) ∧ s.engineRoom (.more (w :: xs)) ∧
      s.cfg.ebmEnd)) ({ wEbm with cfg := { wEbm.cfg with ebmEnd := true } }) .parallel 7#32 ([]) &&
    (fun (s : State) (c : CfgSrc) (w : W32) (xs : List W32) => decide (s.Inv ∧ s.takesFrom c ∧ s.sound c (w :: xs) ∧
      (xs.length + 1 ≤ s.cfg.ebmLeft) ∧ (s.cfg.fdataLeft = 0) ∧ s.engineRoom (.more (w :: xs)) ∧ (s.cfg.ebmEnd = false) ∧
      s.inReset (faOf s.cfg.ebmAddr).die)) ({ wEbm with dieReset := [(2, some 0)] }) .parallel 7#32 ([8#32]) &&
    (fun (s : State) (c : CfgSrc) (xs ys : List W32) => decide (s.Inv ∧ s.takesFrom c ∧ ((c = .parallel ∨ c = .spi)) ∧ xs ≠ [] ∧
      ys ≠ [] ∧ (s.cfg.fdataLeft = 0) ∧ (xs.length + ys.length ≤ s.cfg.ebmLeft) ∧
      s.engineRoom (.more (xs ++ ys)))) wEbm .parallel ([0#32]) ([5#32]) &&
    (fun (s : State) (c : CfgSrc) => decide (s.Inv ∧ s.atHeader c ∧ s.sound c [0x10300001#32, 0#32])) wStream .parallel &&
    (fun (s : State) (c : CfgSrc) => decide (s.Inv ∧ s.atHeader c ∧ s.sound c [0x10300001#32, 2#32] ∧ s.identified ∧ s.cfg.clean ∧
      ((fabricDies.filter (fun d => s.dieState d == 1 || s.cfg.startPend.getLsbD d)).all (fun d => !s.engineBusy d)))) wStart .parallel &&
    (fun (s : State) (c : CfgSrc) => decide (s.Inv ∧ s.atHeader c ∧ s.sound c [0x10300001#32, 2#32] ∧ s.identified ∧ s.cfg.clean ∧
      ((fabricDies.filter (fun d => s.dieState d == 1 || s.cfg.startPend.getLsbD d)).any (fun d => s.engineBusy d)))) ({ wStart with cfg := { wStart.cfg with engineQ := [(2, 5, 0#4096)] } }) .parallel &&
    (fun (s : State) (c : CfgSrc) => decide (s.Inv ∧ s.atHeader c ∧ s.sound c [0x10300001#32, 2#32] ∧ s.identified ∧
      (s.cfg.clean = false))) wStream .parallel &&
    (fun (s : State) (c : CfgSrc) => decide (s.Inv ∧ s.atHeader c ∧ s.sound c [0x10300001#32, 4#32] ∧ s.identified ∧
      (s.cfg.clean = false))) wStream .parallel &&
    (fun (s : State) (c : CfgSrc) => decide (s.Inv ∧ s.atHeader c ∧ s.sound c [0x10300001#32, 2#32] ∧
      (s.identified = false))) ((st [(aCFG_STATUS, fCFG_STATUS_STATE, 3), (aCFG_STATUS, fCFG_STATUS_SRC, 1)])) .parallel &&
    (fun (s : State) (c : CfgSrc) => decide (s.Inv ∧ s.atHeader c ∧ s.sound c [0x10300001#32, 3#32] ∧
      (s.identified = false))) ((st [(aCFG_STATUS, fCFG_STATUS_STATE, 3), (aCFG_STATUS, fCFG_STATUS_SRC, 1)])) .parallel &&
    (fun (s : State) (c : CfgSrc) => decide (s.Inv ∧ s.atHeader c ∧ s.sound c [0x10300001#32, 4#32] ∧
      (s.identified = false))) ((st [(aCFG_STATUS, fCFG_STATUS_STATE, 3), (aCFG_STATUS, fCFG_STATUS_SRC, 1)])) .parallel &&
    (fun (s : State) (c : CfgSrc) (d n : Nat) => decide (s.Inv ∧ s.atHeader c ∧ s.sound c [0x10300001#32, 3#32] ∧ s.identified ∧
      (s.streamRegion = (d, n)) ∧ d < 6 ∧ s.rgnValid d n)) wRgn .parallel 2 3 &&
    (fun (s : State) (c : CfgSrc) (d n : Nat) => decide (s.Inv ∧ s.atHeader c ∧ s.sound c [0x10300001#32, 4#32] ∧ s.identified ∧
      (s.streamRegion = (d, n)) ∧ d < 6 ∧ s.rgnValid d n ∧ s.cfg.clean ∧ (s.rgnPending d n = false) ∧ s.rgnHeld d n ∧
      ((s.hold d n).relAt = none))) ((setAll wRgn [(aBR_STAT 2, ⟨3, 1⟩, 1)])) .parallel 2 3 &&
    (fun (s : State) (c : CfgSrc) (d n : Nat) => decide (s.Inv ∧ s.atHeader c ∧ s.sound c [0x10300001#32, 4#32] ∧ s.identified ∧
      (s.streamRegion = (d, n)) ∧ d < 6 ∧ s.rgnValid d n ∧ s.cfg.clean ∧ s.rgnPending d n)) ((setAll wRgn [(aBR_STAT 2, ⟨19, 1⟩,
      1)])) .parallel 2 3 &&
    (fun (s : State) (c : CfgSrc) (d n : Nat) => decide (s.Inv ∧ s.atHeader c ∧ s.sound c [0x10300001#32, 4#32] ∧ s.identified ∧
      (s.streamRegion = (d, n)) ∧ d < 6 ∧ s.rgnValid d n ∧ s.cfg.clean ∧ (s.rgnPending d n = false) ∧ ((s.rgnHeld d n = false ∨
      (s.hold d n).relAt.isSome)))) wRgn .parallel 2 3 &&
    (fun (s : State) (c : CfgSrc) (d n : Nat) => decide (s.Inv ∧ s.atHeader c ∧ s.sound c [0x10300001#32, 3#32] ∧ s.identified ∧
      s.cfg.clean ∧ (s.streamRegion = (d, n)) ∧ ((6 ≤ d ∨ s.rgnValid d n = false)))) ((setAll wRgn [(aBR_RGN 2 3, fBR_RGN_V,
      0)])) .parallel 2 3 &&
    (fun (s : State) (c : CfgSrc) (d n : Nat) => decide (s.Inv ∧ s.atHeader c ∧ s.sound c [0x10300001#32, 4#32] ∧ s.identified ∧
      s.cfg.clean ∧ (s.streamRegion = (d, n)) ∧ ((6 ≤ d ∨ s.rgnValid d n = false)))) ((setAll wRgn [(aBR_RGN 2 3, fBR_RGN_V,
      0)])) .parallel 2 3 &&
    (fun (s : State) (c : CfgSrc) => decide (s.Inv ∧ s.atHeader c ∧ s.sound c [0x10300001#32, 5#32] ∧
      s.cfg.clean)) wStart .parallel &&
    (fun (s : State) (c : CfgSrc) => decide (s.Inv ∧ s.atHeader c ∧ s.sound c [0x10300001#32, 5#32] ∧
      (s.cfg.clean = false))) wStream .parallel) = true := by decide +kernel

theorem witness_ConfigurationController :
    ((fun (s : State)  => decide (s.Inv ∧ s.runs ∧ (s.cfgState = 0) ∧ s.clk.revDone ∧ (s.clk.revWait = 0#8) ∧
      (s.pins.progLow = false))) ({ st [(aCFG_STATUS, fCFG_STATUS_STATE, 0)] with clk := { w0.clk with revDone := true, revWait := 0#8 }, pins := { w0.pins with progLow := false } }) &&
    (fun (s : State)  => decide (s.Inv ∧ ((s.runs = false ∨ s.cfgState ≠ 0 ∨ s.clk.revDone = false ∨ s.clk.revWait ≠ 0#8 ∨
      s.pins.progLow)))) wStream &&
    (fun (s : State)  => decide (s.Inv ∧ s.runs ∧ (s.cfgState = 1))) ((st [(aCFG_STATUS, fCFG_STATUS_STATE, 1)])) &&
    (fun (s : State)  => decide (s.Inv ∧ ((s.runs = false ∨ s.cfgState ≠ 1)))) wStream &&
    (fun (s : State) (m : Rm) (v : W32) => decide (s.Inv ∧ s.ringReady m aCFG_SDATA ∧ s.cfg.sdata.length < 256 ∧
      ((s.fld aCFG_STATUS fCFG_STATUS_SRC = 0 ∨ s.fld aCFG_STATUS fCFG_STATUS_SRC = 4)) ∧ s.cfgState ≠ 2 ∧
      s.cfgState ≠ 5)) ((st [(aCFG_STATUS, fCFG_STATUS_STATE, 3)])) .config 5#32 &&
    (fun (s : State) (m : Rm) (v : W32) => decide (s.Inv ∧ s.ringReady m aCFG_SDATA ∧ s.cfg.sdata.length < 256 ∧
      ((s.fld aCFG_STATUS fCFG_STATUS_SRC = 0 ∨ s.fld aCFG_STATUS fCFG_STATUS_SRC = 4)) ∧ ((s.cfgState = 2 ∨
      s.cfgState = 5)))) ((st [(aCFG_STATUS, fCFG_STATUS_STATE, 2)])) .config syncWordValue &&
    (fun (s : State) (m : Rm) (v : W32) => decide (s.Inv ∧ s.ringReady m aCFG_SDATA ∧ ((256 ≤ s.cfg.sdata.length ∨
      (s.fld aCFG_STATUS fCFG_STATUS_SRC ≠ 0 ∧ s.fld aCFG_STATUS fCFG_STATUS_SRC ≠ 4))))) wStream .config 5#32 &&
    (fun (s : State) (c : CfgSrc) => decide (s.Inv ∧ s.runs ∧ ((s.cfgState = 2 ∨ s.cfgState = 5)) ∧ s.srcAllowed c ∧
      (s.takeSync c).isSome)) ((st [(aCFG_STATUS, fCFG_STATUS_STATE, 2)])) .parallel &&
    (fun (s : State) (c : CfgSrc) => decide (s.Inv ∧ ((s.runs = false ∨ (s.cfgState ≠ 2 ∧ s.cfgState ≠ 5) ∨
      s.srcAllowed c = false ∨ s.takeSync c = none)))) wStream .parallel &&
    (fun (s : State)  => decide (s.Inv ∧ s.runs ∧ (s.cfgState = 3) ∧ (s.streamStalled = false) ∧
      s.fld aCFG_CTRL fCFG_CTRL_TMO ≠ 0 ∧
      (s.cfg.lastWord + ringTicks (4096 * s.fld aCFG_CTRL fCFG_CTRL_TMO) ≤ s.now))) ((tk 4194304 (setAll wStream [(aCFG_CTRL,
      fCFG_CTRL_TMO, 1)]))) &&
    (fun (s : State)  => decide (s.Inv ∧ ((s.runs = false ∨ s.cfgState ≠ 3 ∨ s.streamStalled ∨ s.fld aCFG_CTRL fCFG_CTRL_TMO = 0 ∨
      s.now < s.cfg.lastWord + ringTicks (4096 * s.fld aCFG_CTRL fCFG_CTRL_TMO))))) w0) = true := by decide +kernel

theorem witness_StartUp :
    ((fun (s : State)  => decide (s.Inv ∧ s.runs)) wStartTick &&
    (fun (s : State)  => decide (s.Inv ∧ s.runs)) wStartTick &&
    (fun (s : State)  => decide (s.Inv ∧ s.runs)) ((tk 1400 (setAll wStartTick [(aCFG_DIES, ⟨4, 2⟩, 2)]))) &&
    (fun (s : State)  => decide (s.Inv ∧ (s.runs = false))) ((ph .stopped)) &&
    (fun (s : State)  => decide (s.Inv ∧ (s.runs = false))) ((ph .stopped)) &&
    (fun (s : State)  => decide (s.Inv ∧ (s.runs = false))) ((ph .stopped)) &&
    (fun (s : State) (d : Fin 8) (k : Nat) (b : BitVec 4096) => decide (s.Inv ∧ s.runs ∧ (s.inReset d.val = false) ∧
      (s.marching d.val = false) ∧ (s.cfg.engineQ.find? (fun x => x.1 == d.val) = some (d.val, k,
      b)))) ({ w0 with cfg := { w0.cfg with engineQ := [(3, 0x600000, 5#4096), (3, 0x600001, 6#4096)] } }) 3 0x600000 5#4096 &&
    (fun (s : State) (d : Fin 8) (k : Nat) (b : BitVec 4096) => decide (s.Inv ∧ s.runs ∧ (s.inReset d.val = false) ∧
      (s.marching d.val = false) ∧ (s.cfg.engineQ.find? (fun x => x.1 == d.val) = some (d.val, k, b)) ∧ d.val ∈ fabricDies ∧
      (s.cfg.engineQ = [(d.val, k, b)]) ∧
      (s.cfg.startPend = BitVec.ofNat 8 (2 ^ d.val)))) ({ w0 with cfg := { w0.cfg with engineQ := [(3, 0x600000, 5#4096)], startPend := 8#8 } }) 3 0x600000 5#4096 &&
    (fun (s : State) (d : Fin 8) => decide (s.Inv ∧ ((s.runs = false ∨ s.inReset d.val ∨ s.marching d.val ∨
      s.cfg.engineQ.find? (fun x => x.1 == d.val) = none)))) w0 3) = true := by decide +kernel

theorem witness_UpsetScanAndReadback_2 :
    (fun (s : State) (d : Fin 8) (l : List Nat) (k : Nat) => s.Inv ∧ d.val ≠ 6 ∧ s.runs ∧ (s.inReset d.val = false) ∧
      s.bit (aFE_SCAN_CTRL d.val) fFE_SCAN_CTRL_EN ∧ (s.dieState d.val = 3) ∧
      s.fld (aFE_SCAN_FRAME d.val) fFE_SCAN_FRAME_F + 1 < frameCount d.val ∧
      (s.heldRegionAt (frameAt d.val (s.fld (aFE_SCAN_FRAME d.val) fFE_SCAN_FRAME_F)) = none) ∧
      ((frameAt d.val (s.fld (aFE_SCAN_FRAME d.val) fFE_SCAN_FRAME_F)).key = k) ∧
      (frameJudge ((s.flipBits k l).frame k) ((s.flipBits k l).frameChk k) = .clean)) wScan 2 ([]) 4194304 :=
  ⟨by decide +kernel, by decide +kernel, by decide +kernel, by decide +kernel, by decide +kernel, by decide +kernel, by decide +kernel, by decide +kernel, by decide +kernel, wScan_judge wFrameZero_clean (by decide +kernel) (by decide +kernel)⟩

theorem witness_UpsetScanAndReadback_3 :
    (fun (s : State) (d : Fin 8) (l : List Nat) (k : Nat) (i : Fin 4096) => s.Inv ∧ d.val ≠ 6 ∧ s.runs ∧
      (s.inReset d.val = false) ∧ s.bit (aFE_SCAN_CTRL d.val) fFE_SCAN_CTRL_EN ∧ (s.dieState d.val = 3) ∧
      s.fld (aFE_SCAN_FRAME d.val) fFE_SCAN_FRAME_F + 1 < frameCount d.val ∧
      (s.heldRegionAt (frameAt d.val (s.fld (aFE_SCAN_FRAME d.val) fFE_SCAN_FRAME_F)) = none) ∧
      ((frameAt d.val (s.fld (aFE_SCAN_FRAME d.val) fFE_SCAN_FRAME_F)).key = k) ∧
      (frameJudge ((s.flipBits k l).frame k) ((s.flipBits k l).frameChk k) = .data i.val) ∧
      (s.upsets d.val).length < 8) ((wScan.putFrame 4194304 0#4096 8195#14)) 2 ([]) 4194304 0 :=
  ⟨by decide +kernel, by decide +kernel, by decide +kernel, by decide +kernel, by decide +kernel, by decide +kernel, by decide +kernel, by decide +kernel, by decide +kernel, wScan_judge wFrameZero_data (by decide +kernel) (by decide +kernel), by decide +kernel⟩

theorem witness_UpsetScanAndReadback_4 :
    (fun (s : State) (d : Fin 8) (l : List Nat) (k : Nat) (i : Fin 14) => s.Inv ∧ d.val ≠ 6 ∧ s.runs ∧ (s.inReset d.val = false) ∧
      s.bit (aFE_SCAN_CTRL d.val) fFE_SCAN_CTRL_EN ∧ (s.dieState d.val = 3) ∧
      s.fld (aFE_SCAN_FRAME d.val) fFE_SCAN_FRAME_F + 1 < frameCount d.val ∧
      (s.heldRegionAt (frameAt d.val (s.fld (aFE_SCAN_FRAME d.val) fFE_SCAN_FRAME_F)) = none) ∧
      ((frameAt d.val (s.fld (aFE_SCAN_FRAME d.val) fFE_SCAN_FRAME_F)).key = k) ∧
      (frameJudge ((s.flipBits k l).frame k) ((s.flipBits k l).frameChk k) = .check i.val) ∧
      (s.upsets d.val).length < 8) ((wScan.putFrame 4194304 0#4096 1#14)) 2 ([]) 4194304 0 :=
  ⟨by decide +kernel, by decide +kernel, by decide +kernel, by decide +kernel, by decide +kernel, by decide +kernel, by decide +kernel, by decide +kernel, by decide +kernel, wScan_judge wFrameZero_check (by decide +kernel) (by decide +kernel), by decide +kernel⟩

theorem witness_UpsetScanAndReadback_5 :
    (fun (s : State) (d : Fin 8) (l : List Nat) (k : Nat) => s.Inv ∧ d.val ≠ 6 ∧ s.runs ∧ (s.inReset d.val = false) ∧
      s.bit (aFE_SCAN_CTRL d.val) fFE_SCAN_CTRL_EN ∧ (s.dieState d.val = 3) ∧
      s.fld (aFE_SCAN_FRAME d.val) fFE_SCAN_FRAME_F + 1 < frameCount d.val ∧
      (s.heldRegionAt (frameAt d.val (s.fld (aFE_SCAN_FRAME d.val) fFE_SCAN_FRAME_F)) = none) ∧
      ((frameAt d.val (s.fld (aFE_SCAN_FRAME d.val) fFE_SCAN_FRAME_F)).key = k) ∧
      (frameJudge ((s.flipBits k l).frame k) ((s.flipBits k l).frameChk k) = .bad) ∧
      (s.upsets d.val).length < 8) ((wScan.putFrame 4194304 0#4096 3#14)) 2 ([]) 4194304 :=
  ⟨by decide +kernel, by decide +kernel, by decide +kernel, by decide +kernel, by decide +kernel, by decide +kernel, by decide +kernel, by decide +kernel, by decide +kernel, wScan_judge wFrameZero_bad (by decide +kernel) (by decide +kernel), by decide +kernel⟩

theorem witness_UpsetScanAndReadback_6 :
    (fun (s : State) (d : Fin 8) (l : List Nat) (k : Nat) => s.Inv ∧ d.val ≠ 6 ∧ s.runs ∧ (s.inReset d.val = false) ∧
      s.bit (aFE_SCAN_CTRL d.val) fFE_SCAN_CTRL_EN ∧ (s.dieState d.val = 3) ∧
      s.fld (aFE_SCAN_FRAME d.val) fFE_SCAN_FRAME_F + 1 < frameCount d.val ∧
      (s.heldRegionAt (frameAt d.val (s.fld (aFE_SCAN_FRAME d.val) fFE_SCAN_FRAME_F)) = none) ∧
      ((frameAt d.val (s.fld (aFE_SCAN_FRAME d.val) fFE_SCAN_FRAME_F)).key = k) ∧
      (frameJudge ((s.flipBits k l).frame k) ((s.flipBits k l).frameChk k) = .bad) ∧
      (8 ≤ (s.upsets d.val).length)) (((wScan.putFrame 4194304 0#4096 3#14).setUpsets 2 (List.replicate 8 ⟨0, 1, false, 0, 0,
      0⟩))) 2 ([]) 4194304 :=
  ⟨by decide +kernel, by decide +kernel, by decide +kernel, by decide +kernel, by decide +kernel, by decide +kernel, by decide +kernel, by decide +kernel, by decide +kernel, wScan_judge wFrameZero_bad (by decide +kernel) (by decide +kernel), by decide +kernel⟩

theorem witness_UpsetScanAndReadback :
    ((fun (s : State) (d : Fin 8) (k : Nat) => decide (s.Inv ∧ d.val ≠ 6 ∧ s.runs ∧ (s.inReset d.val = false) ∧
      s.bit (aFE_SCAN_CTRL d.val) fFE_SCAN_CTRL_EN ∧ (s.dieState d.val = 3) ∧
      s.fld (aFE_SCAN_FRAME d.val) fFE_SCAN_FRAME_F + 1 < frameCount d.val ∧
      (s.heldRegionAt (frameAt d.val (s.fld (aFE_SCAN_FRAME d.val) fFE_SCAN_FRAME_F)) = none) ∧
      ((frameAt d.val (s.fld (aFE_SCAN_FRAME d.val) fFE_SCAN_FRAME_F)).key = k) ∧
      (s.frameChk k = frameCheck (s.frame k)))) wScan 2 4194304 &&
    (fun (s : State) (d : Fin 8) (k : Nat) (i : Fin 4096) => decide (s.Inv ∧ d.val ≠ 6 ∧ s.runs ∧ (s.inReset d.val = false) ∧
      s.bit (aFE_SCAN_CTRL d.val) fFE_SCAN_CTRL_EN ∧ (s.dieState d.val = 3) ∧
      s.fld (aFE_SCAN_FRAME d.val) fFE_SCAN_FRAME_F + 1 < frameCount d.val ∧
      (s.heldRegionAt (frameAt d.val (s.fld (aFE_SCAN_FRAME d.val) fFE_SCAN_FRAME_F)) = none) ∧
      ((frameAt d.val (s.fld (aFE_SCAN_FRAME d.val) fFE_SCAN_FRAME_F)).key = k) ∧ (s.frameChk k = frameCheck (s.frame k)) ∧
      (s.upsets d.val).length < 8)) wScan 2 4194304 70 &&
    (fun (s : State) (d : Fin 8) (l : List Nat) (k : Nat) => decide (s.Inv ∧ d.val ≠ 6 ∧ s.runs ∧ (s.inReset d.val = false) ∧
      s.bit (aFE_SCAN_CTRL d.val) fFE_SCAN_CTRL_EN ∧ (s.dieState d.val = 3) ∧
      s.fld (aFE_SCAN_FRAME d.val) fFE_SCAN_FRAME_F + 1 < frameCount d.val ∧
      (s.heldRegionAt (frameAt d.val (s.fld (aFE_SCAN_FRAME d.val) fFE_SCAN_FRAME_F))).isSome ∧
      ((frameAt d.val (s.fld (aFE_SCAN_FRAME d.val) fFE_SCAN_FRAME_F)).key = k))) ((setAll wScan [(aBR_RGN 2 3, fBR_RGN_V, 1),
      (aBR_RGN 2 3, fBR_RGN_COL_LAST, 40), (aBR_RGN 2 3, fBR_RGN_RB_LAST, 5), (aBR_STAT 2, ⟨3, 1⟩, 1)])) 2 ([5]) 4194304 &&
    (fun (s : State) (d : Fin 8) (l : List Nat) => decide (s.Inv ∧ d.val ≠ 6 ∧ s.runs ∧ (s.inReset d.val = false) ∧
      s.bit (aFE_SCAN_CTRL d.val) fFE_SCAN_CTRL_EN ∧ (s.dieState d.val = 3) ∧
      (frameCount d.val ≤ s.fld (aFE_SCAN_FRAME d.val) fFE_SCAN_FRAME_F + 1))) ((setAll wScan [(aFE_SCAN_FRAME 2,
      fFE_SCAN_FRAME_F, 87551)])) 2 ([]) &&
    (fun (s : State) (d : Fin 8) (l : List Nat) => decide (s.Inv ∧ ((d.val = 6 ∨ s.runs = false ∨ s.inReset d.val ∨
      s.bit (aFE_SCAN_CTRL d.val) fFE_SCAN_CTRL_EN = false ∨ s.dieState d.val ≠ 3)))) w0 2 ([5]) &&
    (fun (s : State) (m : Rm) (d : Fin 8) (v : W32) => decide (s.Inv ∧ s.ringReady m (aFE_LOG_POP d.val))) wUp .core0 2 1#32 &&
    (fun (s : State) (m : Rm) (d : Fin 8) (v : W32) => decide (s.Inv ∧ s.ringReady m (aFE_LOG_STAT d.val))) wUp .core0 7 1#32 &&
    (fun (s : State) (m : Rm) (d : Fin 8) => decide (s.Inv ∧ s.ringReady m (aFE_RB_DATA d.val) ∧
      s.rbValid d.val)) ((setAll wUp [(aFE_RB_ADDR 7, ⟨29, 3⟩, 7)])) .core0 7 &&
    (fun (s : State) (m : Rm) (d : Fin 8) => decide (s.Inv ∧ s.ringReady m (aFE_RB_DATA d.val) ∧
      (s.rbValid d.val = false))) wUp .core0 7 &&
    (fun (s : State) (m : Rm) (d : Fin 8) => decide (s.Inv ∧ s.ringReady m (aFE_RB_CTRL d.val))) wUp .core0 2) = true := by decide +kernel

theorem witness_CoreScalarOperations :
    ((fun (s : State) (c : Fin 8) (slot : Fin 4) (w : W32) (x : Thrumas) => decide (s.Inv ∧ (x = s.thr c.val) ∧
      s.issues c.val slot.val 0x00 w)) wLast 0 0 0#32 ((wLast.thr 0)) &&
    (fun (s : State) (c : Fin 8) (slot : Fin 4) (w : W32) (x : Thrumas) => decide (s.Inv ∧ (x = s.thr c.val) ∧
      s.issues c.val slot.val 0x01 w)) wLast 0 0 ((wOp 0x01 5 2 2 1)) ((wLast.thr 0)) &&
    (fun (s : State) (c : Fin 8) (slot : Fin 4) (w : W32) (x : Thrumas) => decide (s.Inv ∧ (x = s.thr c.val) ∧
      s.issues c.val slot.val 0x02 w)) wLast 0 0 ((wOp 0x02 0 1 2 1)) ((wLast.thr 0)) &&
    (fun (s : State) (c : Fin 8) (slot : Fin 4) (w : W32) (x : Thrumas) => decide (s.Inv ∧ (x = s.thr c.val) ∧
      s.issues c.val slot.val 0x03 w)) wLast 0 0 ((wOp 0x03 5 3 4 0)) ((wLast.thr 0)) &&
    (fun (s : State) (c : Fin 8) (slot : Fin 4) (w : W32) (x : Thrumas) => decide (s.Inv ∧ (x = s.thr c.val) ∧
      s.issues c.val slot.val 0x04 w)) wLast 0 0 ((wOp 0x04 5 3 4 0)) ((wLast.thr 0)) &&
    (fun (s : State) (c : Fin 8) (slot : Fin 4) (w : W32) (x : Thrumas) => decide (s.Inv ∧ (x = s.thr c.val) ∧
      s.issues c.val slot.val 0x05 w)) wLast 0 0 ((wOp 0x05 5 3 4 0)) ((wLast.thr 0)) &&
    (fun (s : State) (c : Fin 8) (slot : Fin 4) (w : W32) (x : Thrumas) => decide (s.Inv ∧ (x = s.thr c.val) ∧
      s.issues c.val slot.val 0x06 w)) wLast 0 0 ((wOp 0x06 5 3 4 0)) ((wLast.thr 0)) &&
    (fun (s : State) (c : Fin 8) (slot : Fin 4) (w : W32) (x : Thrumas) => decide (s.Inv ∧ (x = s.thr c.val) ∧
      s.issues c.val slot.val 0x07 w)) wLast 0 0 ((wOp 0x07 5 3 4 0)) ((wLast.thr 0)) &&
    (fun (s : State) (c : Fin 8) (slot : Fin 4) (w : W32) (x : Thrumas) => decide (s.Inv ∧ (x = s.thr c.val) ∧
      s.issues c.val slot.val 0x08 w)) wLast 0 0 ((wOp 0x08 5 3 4 0)) ((wLast.thr 0)) &&
    (fun (s : State) (c : Fin 8) (slot : Fin 4) (w : W32) (x : Thrumas) => decide (s.Inv ∧ (x = s.thr c.val) ∧
      s.issues c.val slot.val 0x09 w)) wLast 0 0 ((wOp 0x09 5 1 4 0)) ((wLast.thr 0)) &&
    (fun (s : State) (c : Fin 8) (slot : Fin 4) (w : W32) (x : Thrumas) => decide (s.Inv ∧ (x = s.thr c.val) ∧
      s.issues c.val slot.val 0x0A w)) wLast 0 0 ((wOp 0x0A 5 1 4 0)) ((wLast.thr 0)) &&
    (fun (s : State) (c : Fin 8) (slot : Fin 4) (w : W32) (x : Thrumas) => decide (s.Inv ∧ (x = s.thr c.val) ∧
      s.issues c.val slot.val 0x0B w)) wRun 0 0 ((wOp 0x0B 5 1 63 15)) ((wRun.thr 0)) &&
    (fun (s : State) (c : Fin 8) (slot : Fin 4) (w : W32) (x : Thrumas) => decide (s.Inv ∧ (x = s.thr c.val) ∧
      s.issues c.val slot.val 0x0C w)) wLast 0 0 ((wOp 0x0C 5 3 0 7)) ((wLast.thr 0)) &&
    (fun (s : State) (c : Fin 8) (slot : Fin 4) (w : W32) (x : Thrumas) => decide (s.Inv ∧ (x = s.thr c.val) ∧
      s.issues c.val slot.val 0x0D w)) wLast 0 0 ((wOp 0x0D 5 3 0 7)) ((wLast.thr 0)) &&
    (fun (s : State) (c : Fin 8) (slot : Fin 4) (w : W32) (x : Thrumas) => decide (s.Inv ∧ (x = s.thr c.val) ∧
      s.issues c.val slot.val 0x0E w)) wLast 0 0 ((wOp 0x0E 5 3 0 7)) ((wLast.thr 0)) &&
    (fun (s : State) (c : Fin 8) (slot : Fin 4) (w : W32) (x : Thrumas) => decide (s.Inv ∧ (x = s.thr c.val) ∧
      s.issues c.val slot.val 0x0F w)) wLast 0 0 ((wOp 0x0F 5 63 3 0)) ((wLast.thr 0)) &&
    (fun (s : State) (c : Fin 8) (slot : Fin 4) (w : W32) (x : Thrumas) => decide (s.Inv ∧ (x = s.thr c.val) ∧
      s.issues c.val slot.val 0x10 w)) wLast 0 0 ((wOp 0x10 3 1 2 3)) ((wLast.thr 0)) &&
    (fun (s : State) (c : Fin 8) (slot : Fin 4) (w : W32) (x : Thrumas) => decide (s.Inv ∧ (x = s.thr c.val) ∧
      s.issues c.val slot.val 0x11 w)) wLast 0 0 ((wOp 0x11 17 1 2 0)) ((wLast.thr 0)) &&
    (fun (s : State) (c : Fin 8) (slot : Fin 4) (w : W32) (x : Thrumas) => decide (s.Inv ∧ (x = s.thr c.val) ∧
      s.issues c.val slot.val 0x12 w)) wLast 0 0 ((wOp 0x12 17 1 2 0)) ((wLast.thr 0)) &&
    (fun (s : State) (c : Fin 8) (slot : Fin 4) (w : W32) (x : Thrumas) => decide (s.Inv ∧ (x = s.thr c.val) ∧
      s.issues c.val slot.val 0x13 w)) wLast 0 0 ((wOp 0x13 5 1 2 4)) ((wLast.thr 0)) &&
    (fun (s : State) (c : Fin 8) (slot : Fin 4) (w : W32) (i : Instr × Nat) => decide (s.Inv ∧ i ∈ [(.nop c slot w, 0x00),
      (.addOp c slot w, 0x01), (.subOp c slot w, 0x02), (.andOp c slot w, 0x03), (.orOp c slot w, 0x04), (.xorOp c slot w,
      0x05), (.shl c slot w, 0x06), (.shr c slot w, 0x07), (.sra c slot w, 0x08), (.minOp c slot w, 0x09), (.maxOp c slot w,
      0x0A), (.addi c slot w, 0x0B), (.shli c slot w, 0x0C), (.shri c slot w, 0x0D), (.srai c slot w, 0x0E), (.movi c slot w,
      0x0F), (.movhi c slot w, 0x10), (.cmp c slot w, 0x11), (.cmpi c slot w, 0x12), (.sel c slot w, 0x13)] ∧
      (s.issues c.val slot.val i.2 w = false))) w0 0 0 0#32 ((.nop 0 0 0#32, 0x00))) = true := by decide +kernel

theorem witness_CoreLoadsAndStores :
    ((fun (s : State) (c : Fin 8) (slot : Fin 4) (w : W32) (x : Thrumas) => decide (s.Inv ∧ (x = s.thr c.val) ∧
      s.issues c.val slot.val 0x14 w)) wMem 0 0 ((wOp 0x14 5 1 0 4)) ((wMem.thr 0)) &&
    (fun (s : State) (c : Fin 8) (slot : Fin 4) (w : W32) (x : Thrumas) => decide (s.Inv ∧ (x = s.thr c.val) ∧
      s.issues c.val slot.val 0x15 w)) wMemLast 0 0 ((wOp 0x15 5 1 0 8)) ((wMemLast.thr 0)) &&
    (fun (s : State) (c : Fin 8) (slot : Fin 4) (w : W32) (x : Thrumas) => decide (s.Inv ∧ (x = s.thr c.val) ∧
      s.issues c.val slot.val 0x16 w)) wMem 0 0 ((wOp 0x16 5 1 0 8)) ((wMem.thr 0)) &&
    (fun (s : State) (c : Fin 8) (slot : Fin 4) (w : W32) (x : Thrumas) => decide (s.Inv ∧ (x = s.thr c.val) ∧
      s.issues c.val slot.val 0x17 w)) wMem 0 0 ((wOp 0x17 5 1 1 1)) ((wMem.thr 0)) &&
    (fun (s : State) (c : Fin 8) (slot : Fin 4) (w : W32) (x : Thrumas) => decide (s.Inv ∧ (x = s.thr c.val) ∧
      s.issues c.val slot.val 0x18 w)) wMemLast 0 0 ((wOp 0x18 3 1 0 5)) ((wMemLast.thr 0)) &&
    (fun (s : State) (c : Fin 8) (slot : Fin 4) (w : W32) (x : Thrumas) => decide (s.Inv ∧ (x = s.thr c.val) ∧
      s.issues c.val slot.val 0x19 w)) wMemLast 0 0 ((wOp 0x19 3 1 0 5)) ((wMemLast.thr 0)) &&
    (fun (s : State) (c : Fin 8) (slot : Fin 4) (w : W32) (x : Thrumas) => decide (s.Inv ∧ (x = s.thr c.val) ∧
      s.issues c.val slot.val 0x1A w)) wMemLast 0 0 ((wOp 0x1A 3 1 0 5)) ((wMemLast.thr 0)) &&
    (fun (s : State) (c : Fin 8) (slot : Fin 4) (w : W32) (x : Thrumas) => decide (s.Inv ∧ (x = s.thr c.val) ∧
      s.issues c.val slot.val 0x1B w)) wMem 0 0 ((wOp 0x1B 5 1 0 4)) ((wMem.thr 0)) &&
    (fun (s : State) (c : Fin 8) (slot : Fin 4) (w : W32) (x : Thrumas) => decide (s.Inv ∧ (x = s.thr c.val) ∧
      s.issues c.val slot.val 0x1C w)) wMem 0 0 ((wOp 0x1C 5 1 0 2)) ((wMem.thr 0)) &&
    (fun (s : State) (c : Fin 8) (slot : Fin 4) (w : W32) (x : Thrumas) => decide (s.Inv ∧ (x = s.thr c.val) ∧
      s.issues c.val slot.val 0x1D w)) wMemLast 0 0 ((wOp 0x1D 3 1 0 2)) ((wMemLast.thr 0)) &&
    (fun (s : State) (c : Fin 8) (slot : Fin 4) (w : W32) (x : Thrumas) => decide (s.Inv ∧ (x = s.thr c.val) ∧
      s.issues c.val slot.val 0x1E w)) wMem 0 0 ((wOp 0x1E 3 1 2 2)) ((wMem.thr 0)) &&
    (fun (s : State) (c : Fin 8) (slot : Fin 4) (w : W32) (i : Instr × Nat) => decide (s.Inv ∧ i ∈ [(.ldw c slot w, 0x14),
      (.ldh c slot w, 0x15), (.ldhu c slot w, 0x16), (.ldb c slot w, 0x17), (.stw c slot w, 0x18), (.sth c slot w, 0x19),
      (.stb c slot w, 0x1A), (.ldr c slot w, 0x1B), (.ldwp c slot w, 0x1C), (.stwp c slot w, 0x1D), (.stc c slot w, 0x1E)] ∧
      (s.issues c.val slot.val i.2 w = false))) w0 0 0 0#32 ((.ldw 0 0 0#32, 0x14))) = true := by decide +kernel

theorem witness_CoreMultiplyAccumulate :
    ((fun (s : State) (c : Fin 8) (slot : Fin 4) (w : W32) (x : Thrumas) => decide (s.Inv ∧ (x = s.thr c.val) ∧
      s.issues c.val slot.val 0x20 w)) wRun 0 2 ((wMac 0x20 0 2 4 0b0000)) ((wRun.thr 0)) &&
    (fun (s : State) (c : Fin 8) (slot : Fin 4) (w : W32) (x : Thrumas) => decide (s.Inv ∧ (x = s.thr c.val) ∧
      s.issues c.val slot.val 0x21 w)) wRun 0 2 ((wMac 0x21 2 2 4 0b1101)) ((wRun.thr 0)) &&
    (fun (s : State) (c : Fin 8) (slot : Fin 4) (w : W32) (x : Thrumas) => decide (s.Inv ∧ (x = s.thr c.val) ∧
      s.issues c.val slot.val 0x22 w)) wRun 0 2 ((wMac 0x22 0 2 3 0b0100)) ((wRun.thr 0)) &&
    (fun (s : State) (c : Fin 8) (slot : Fin 4) (w : W32) (x : Thrumas) => decide (s.Inv ∧ (x = s.thr c.val) ∧
      s.issues c.val slot.val 0x23 w)) wRun 0 2 ((wMac 0x23 1 2 3 0b1010)) ((wRun.thr 0)) &&
    (fun (s : State) (c : Fin 8) (slot : Fin 4) (w : W32) (x : Thrumas) => decide (s.Inv ∧ (x = s.thr c.val) ∧
      s.issues c.val slot.val 0x24 w)) wRun 0 2 ((BitVec.ofNat 32 (0x24 * 2 ^ 26 + 7 * 65536 + 4 * 256 + 0xC0))) ((wRun.thr 0)) &&
    (fun (s : State) (c : Fin 8) (slot : Fin 4) (w : W32) (x : Thrumas) => decide (s.Inv ∧ (x = s.thr c.val) ∧
      s.issues c.val slot.val 0x25 w)) wRun 0 2 ((BitVec.ofNat 32 (0x25 * 2 ^ 26 + 3 * 65536 + 1 * 8192 + 4 * 256))) ((wRun.thr 0)) &&
    (fun (s : State) (c : Fin 8) (slot : Fin 4) (w : W32) (x : Thrumas) => decide (s.Inv ∧ (x = s.thr c.val) ∧
      s.issues c.val slot.val 0x26 w)) wRun 0 2 ((BitVec.ofNat 32 (0x26 * 2 ^ 26 + 5 * 256))) ((wRun.thr 0)) &&
    (fun (s : State) (c : Fin 8) (slot : Fin 4) (w : W32) (x : Thrumas) => decide (s.Inv ∧ (x = s.thr c.val) ∧
      s.issues c.val slot.val 0x27 w)) wRun 0 2 ((wOp 0x27 5 3 4 0)) ((wRun.thr 0)) &&
    (fun (s : State) (c : Fin 8) (slot : Fin 4) (w : W32) (i : Instr × Nat) => decide (s.Inv ∧ i ∈ [(.mac4 c slot w, 0x20),
      (.mul4 c slot w, 0x21), (.mac2 c slot w, 0x22), (.mul2 c slot w, 0x23), (.accrd c slot w, 0x24), (.accwr c slot w, 0x25),
      (.accclr c slot w, 0x26), (.muls c slot w, 0x27)] ∧
      (s.issues c.val slot.val i.2 w = false))) w0 0 0 0#32 ((.mac4 0 0 0#32, 0x20))) = true := by decide +kernel

theorem witness_CoreControlOperations :
    ((fun (s : State) (c : Fin 8) (slot : Fin 4) (w : W32) (x : Thrumas) => decide (s.Inv ∧ (x = s.thr c.val) ∧
      s.issues c.val slot.val 0x30 w)) wRun 0 3 ((BitVec.ofNat 32 (0x30 * 2 ^ 26 + 0x3FFFFE))) ((wRun.thr 0)) &&
    (fun (s : State) (c : Fin 8) (slot : Fin 4) (w : W32) (x : Thrumas) => decide (s.Inv ∧ (x = s.thr c.val) ∧
      s.issues c.val slot.val 0x31 w)) wRun 0 3 ((wOp 0x31 0 3 0 0)) ((wRun.thr 0)) &&
    (fun (s : State) (c : Fin 8) (slot : Fin 4) (w : W32) (x : Thrumas) => decide (s.Inv ∧ (x = s.thr c.val) ∧
      s.issues c.val slot.val 0x32 w)) wRun 0 3 ((BitVec.ofNat 32 (0x32 * 2 ^ 26 + 0x3FFFFE))) ((wRun.thr 0)) &&
    (fun (s : State) (c : Fin 8) (slot : Fin 4) (w : W32) (x : Thrumas) => decide (s.Inv ∧ (x = s.thr c.val) ∧
      s.issues c.val slot.val 0x35 w)) wRun 0 3 ((wOp 0x35 0 0 0 0)) ((wRun.thr 0)) &&
    (fun (s : State) (c : Fin 8) (slot : Fin 4) (w : W32) (x : Thrumas) => decide (s.Inv ∧ (x = s.thr c.val) ∧
      s.issues c.val slot.val 0x33 w)) wRun 0 3 ((wOp 0x33 0 3 4 12)) ((wRun.thr 0)) &&
    (fun (s : State) (c : Fin 8) (slot : Fin 4) (w : W32) (x : Thrumas) => decide (s.Inv ∧ (x = s.thr c.val) ∧
      s.issues c.val slot.val 0x34 w)) wRun 0 3 ((wOp 0x34 0 0 0 0)) ((wRun.thr 0)) &&
    (fun (s : State) (c : Fin 8) (slot : Fin 4) (w : W32) (x : Thrumas) => decide (s.Inv ∧ (x = s.thr c.val) ∧
      s.issues c.val slot.val 0x36 w)) wRun 0 3 ((wOp 0x36 0 3 2 0)) ((wRun.thr 0)) &&
    (fun (s : State) (c : Fin 8) (slot : Fin 4) (w : W32) (x : Thrumas) => decide (s.Inv ∧ (x = s.thr c.val) ∧
      s.issues c.val slot.val 0x37 w)) wRun 0 3 ((wOp 0x37 6 0 5 0)) ((wRun.thr 0)) &&
    (fun (s : State) (c : Fin 8) (slot : Fin 4) (w : W32) (x : Thrumas) => decide (s.Inv ∧ (x = s.thr c.val) ∧
      s.issues c.val slot.val 0x3B w ∧ guardOn x w ∧ (x.issued = 0#4) ∧ ((oFn w = 0 ∨
      oA w ≠ 63)))) wRun 0 3 ((wOp 0x3B 0 3 0 2)) ((wRun.thr 0)) &&
    (fun (s : State) (c : Fin 8) (slot : Fin 4) (w : W32) (x : Thrumas) => decide (s.Inv ∧ (x = s.thr c.val) ∧
      s.issues c.val slot.val 0x3B w ∧ guardOn x w ∧ (x.issued = 0#4) ∧ oFn w ≠ 0 ∧
      (oA w = 63))) wRun 0 3 ((wOp 0x3B 0 63 0 2)) ((wRun.thr 0)) &&
    (fun (s : State) (c : Fin 8) (slot : Fin 4) (w : W32) (x : Thrumas) => decide (s.Inv ∧ (x = s.thr c.val) ∧
      s.issues c.val slot.val 0x3B w ∧ guardOn x w ∧
      x.issued ≠ 0#4)) ((wRun.setThr 0 { wRun.thr 0 with issued := 1#4 })) 0 3 ((wOp 0x3B 0 3 0 2)) (((wRun.setThr 0 { wRun.thr 0 with issued := 1#4 }).thr 0)) &&
    (fun (s : State) (c : Fin 8) (slot : Fin 4) (w : W32) (x : Thrumas) => decide (s.Inv ∧ (x = s.thr c.val) ∧
      s.issues c.val slot.val 0x3B w ∧ (guardOn x w = false))) wRun 0 3 ((wOp 0x3B 0 3 0 2 ||| 0x02000000#32)) ((wRun.thr 0)) &&
    (fun (s : State) (c : Fin 8) (x : Thrumas) (v : Nat) => decide (s.Inv ∧ (x = s.thr c.val) ∧ s.coreLive c.val ∧
      (s.coreState c.val = 2) ∧ (x.wait = some (2, v)) ∧ (v ≤ s.tickN))) wWait 0 ((wWait.thr 0)) 0 &&
    (fun (s : State) (c : Fin 8) (x : Thrumas) (v : Nat) => decide (s.Inv ∧ (x = s.thr c.val) ∧ s.coreLive c.val ∧
      (s.coreState c.val = 2) ∧ (x.wait = some (0, v)) ∧ ((∀ e ∈ x.xfers,
      v.testBit e.tag = false)))) ((wWait.setThr 0 { wWait.thr 0 with wait := some (0, 3) })) 0 (((wWait.setThr 0 { wWait.thr 0 with wait := some (0, 3) }).thr 0)) 3 &&
    (fun (s : State) (c : Fin 8) => decide (s.Inv ∧ ((s.coreLive c.val = false ∨ s.coreState c.val ≠ 2 ∨
      (s.thr c.val).wait = none ∨ (s.thr c.val).wait.any (fun e => !waitHolds s c.val e.1 e.2))))) w0 0 &&
    (fun (s : State) (c : Fin 8) => decide (s.Inv ∧
      ((s.thr c.val).wait.any (fun e => e.1 = 1)))) ((wWait.setThr 0 { wWait.thr 0 with wait := some (1, 0) })) 0 &&
    (fun (s : State) (c : Fin 8) (slot : Fin 4) (w : W32) (x : Thrumas) => decide (s.Inv ∧ (x = s.thr c.val) ∧
      s.issues c.val slot.val 0x3C w)) wRun 0 3 ((wOp 0x3C 0 0 0 0)) ((wRun.thr 0)) &&
    (fun (s : State) (c : Fin 8) (slot : Fin 4) (w : W32) (x : Thrumas) => decide (s.Inv ∧ (x = s.thr c.val) ∧
      s.issues c.val slot.val 0x3D w ∧ guardOn x w ∧ s.bit (aDBG_CORE_CTRL c.val) fDBG_CORE_CTRL_EN ∧
      (x.haltReason = none))) wDbg 0 3 ((wOp 0x3D 0 0 0 0)) ((wDbg.thr 0)) &&
    (fun (s : State) (c : Fin 8) (slot : Fin 4) (w : W32) (x : Thrumas) => decide (s.Inv ∧ (x = s.thr c.val) ∧
      s.issues c.val slot.val 0x3D w ∧ ((s.bit (aDBG_CORE_CTRL c.val) fDBG_CORE_CTRL_EN = false ∨ guardOn x w = false ∨
      x.haltReason ≠ none)))) wRun 0 3 ((wOp 0x3D 0 0 0 0)) ((wRun.thr 0)) &&
    (fun (s : State) (c : Fin 8) (slot : Fin 4) (w : W32) (i : Instr × Nat) => decide (s.Inv ∧ i ∈ [(.brOp c slot w, 0x30),
      (.bri c slot w, 0x31), (.callOp c slot w, 0x32), (.repOp c slot w, 0x33), (.rotOp c slot w, 0x34), (.reti c slot w, 0x35),
      (.mts c slot w, 0x36), (.mfs c slot w, 0x37), (.waitOp c slot w, 0x3B), (.sev c slot w, 0x3C), (.bkpt c slot w, 0x3D)] ∧
      (s.issues c.val slot.val i.2 w = false))) w0 0 0 0#32 ((.brOp 0 0 0#32, 0x30)) &&
    (fun (s : State) (c : Fin 8) (slot : Fin 4) (w : W32) (x : Thrumas) => decide (s.Inv ∧ (x = s.thr c.val) ∧
      s.issues c.val slot.val 0x00 w ∧ (x.issued ||| BitVec.ofNat 4 (2 ^ slot.val) = 0xF#4) ∧ (x.stopAsked = false) ∧
      (x.rep = none) ∧ (x.branch = none))) wLast 0 0 0#32 ((wLast.thr 0)) &&
    (fun (s : State) (c : Fin 8) (slot : Fin 4) (w : W32) (x : Thrumas) (b : Branch) => decide (s.Inv ∧ (x = s.thr c.val) ∧
      s.issues c.val slot.val 0x00 w ∧ (x.issued ||| BitVec.ofNat 4 (2 ^ slot.val) = 0xF#4) ∧ (x.stopAsked = false) ∧
      (x.rep = none) ∧ (x.branch = some b) ∧
      (b.reti = false))) ((wLast.setThr 0 { wLast.thr 0 with branch := some ⟨9000, 1, false⟩ })) 0 0 0#32 (((wLast.setThr 0 { wLast.thr 0 with branch := some ⟨9000, 1, false⟩ }).thr 0)) (⟨9000,
      1, false⟩) &&
    (fun (s : State) (c : Fin 8) (slot : Fin 4) (w : W32) (x : Thrumas) (r : Repeat) => decide (s.Inv ∧ (x = s.thr c.val) ∧
      s.issues c.val slot.val 0x00 w ∧ (x.issued ||| BitVec.ofNat 4 (2 ^ slot.val) = 0xF#4) ∧ (x.stopAsked = false) ∧
      (x.branch = none) ∧ (x.rep = some r) ∧ r.left ≠ 0 ∧ (x.pc.toNat + 1 = r.start + r.len) ∧ (r.start ≤ x.pc.toNat) ∧
      (x.flight = []))) ((wLast.setThr 0 { wLast.thr 0 with rep := some ⟨8191, 2, true, false, 3⟩ })) 0 0 0#32 (((wLast.setThr 0 { wLast.thr 0 with rep := some ⟨8191, 2, true, false, 3⟩ }).thr 0)) (⟨8191,
      2, true, false, 3⟩) &&
    (fun (s : State) (c : Fin 8) (slot : Fin 4) (w : W32) (x : Thrumas) (r : Repeat) => decide (s.Inv ∧ (x = s.thr c.val) ∧
      s.issues c.val slot.val 0x00 w ∧ (x.issued ||| BitVec.ofNat 4 (2 ^ slot.val) = 0xF#4) ∧ (x.stopAsked = false) ∧
      (x.branch = none) ∧ (x.rep = some r) ∧ (r.left = 0) ∧
      (x.pc.toNat + 1 = r.start))) ((wLast.setThr 0 { wLast.thr 0 with rep := some ⟨8193, 2, true, false, 0⟩ })) 0 0 0#32 (((wLast.setThr 0 { wLast.thr 0 with rep := some ⟨8193, 2, true, false, 0⟩ }).thr 0)) (⟨8193,
      2, true, false, 0⟩) &&
    (fun (s : State) (c : Fin 8) (slot : Fin 4) (w : W32) (x : Thrumas) (r : Repeat) => decide (s.Inv ∧ (x = s.thr c.val) ∧
      s.issues c.val slot.val 0x00 w ∧ (x.issued ||| BitVec.ofNat 4 (2 ^ slot.val) = 0xF#4) ∧ (x.stopAsked = false) ∧
      (x.branch = none) ∧ (x.rep = some r) ∧ ((x.pc.toNat + 1 ≠ r.start ∨ r.left ≠ 0)) ∧ ((x.pc.toNat + 1 ≠ r.start + r.len ∨
      x.pc.toNat < r.start)))) ((wLast.setThr 0 { wLast.thr 0 with rep := some ⟨8192, 2, true, false, 1⟩ })) 0 0 0#32 (((wLast.setThr 0 { wLast.thr 0 with rep := some ⟨8192, 2, true, false, 1⟩ }).thr 0)) (⟨8192,
      2, true, false, 1⟩) &&
    (fun (s : State) (c : Fin 8) (slot : Fin 4) (w : W32) (x : Thrumas) (k : Nat) (v : W32) => decide (s.Inv ∧ (x = s.thr c.val) ∧
      s.issues c.val slot.val 0x00 w ∧ (x.issued ||| BitVec.ofNat 4 (2 ^ slot.val) = 0xF#4) ∧ (x.stopAsked = false) ∧
      (x.flight = [{ land := x.cycle + 1, issue := x.cycle, slot := 3, what := .special k v }]) ∧ (x.branch = none) ∧
      (x.rep = none))) ((wLast.setThr 0 { wLast.thr 0 with flight := [⟨1, 0, 3, .special 20 0x21#32⟩] })) 0 0 0#32 (((wLast.setThr 0 { wLast.thr 0 with flight := [⟨1, 0, 3, .special 20 0x21#32⟩] }).thr 0)) 20 0x21#32 &&
    (fun (s : State) (c : Fin 8) (slot : Fin 4) (w : W32) (x : Thrumas) (k : Nat) (v : W32) => decide (s.Inv ∧ (x = s.thr c.val) ∧
      s.issues c.val slot.val 0x00 w ∧ (x.issued ||| BitVec.ofNat 4 (2 ^ slot.val) = 0xF#4) ∧ (x.stopAsked = false) ∧
      (x.flight = [{ land := x.cycle + 1, issue := x.cycle, slot := 3, what := .special k v }]) ∧ (x.branch = none) ∧
      (x.rep = none))) ((wLast.setThr 0 { wLast.thr 0 with flight := [⟨1, 0, 3, .special 20 0x21#32⟩] })) 0 0 0#32 (((wLast.setThr 0 { wLast.thr 0 with flight := [⟨1, 0, 3, .special 20 0x21#32⟩] }).thr 0)) 20 0x21#32) = true := by decide +kernel

theorem witness_CoreSendsAndTransfers :
    ((fun (s : State) (c : Fin 8) (slot : Fin 4) (w : W32) (x : Thrumas) => decide (s.Inv ∧ (x = s.thr c.val) ∧
      s.issues c.val slot.val 0x38 w ∧ guardOn x w ∧ ((s.bit aPAT_STATUS fPAT_STATUS_RUN = false ∨
      s.period ≤ ((x.get (oB w)).setWidth 16).toNat)))) wRun 0 3 ((wOp 0x38 0 1 2 0)) ((wRun.thr 0)) &&
    (fun (s : State) (c : Fin 8) (slot : Fin 4) (w : W32) (x : Thrumas) (T : Nat) => decide (s.Inv ∧ (x = s.thr c.val) ∧
      s.issues c.val slot.val 0x38 w ∧ guardOn x w ∧ s.bit aPAT_STATUS fPAT_STATUS_RUN ∧
      ((x.get (oB w)).setWidth 16).toNat < s.period ∧ (T % s.period = ((x.get (oB w)).setWidth 16).toNat) ∧ (s.tickN + 16 ≤ T) ∧
      T < s.tickN + 16 + s.period ∧ x.sends.length < 16 ∧ (∀ e ∈ x.sends,
      e.1 ≠ T))) wSend 0 3 ((wOp 0x38 0 1 2 0)) ((wSend.thr 0)) 259 &&
    (fun (s : State) (c : Fin 8) (slot : Fin 4) (w : W32) (x : Thrumas) (T : Nat) => decide (s.Inv ∧ (x = s.thr c.val) ∧
      s.issues c.val slot.val 0x38 w ∧ guardOn x w ∧ s.bit aPAT_STATUS fPAT_STATUS_RUN ∧
      ((x.get (oB w)).setWidth 16).toNat < s.period ∧ (T % s.period = ((x.get (oB w)).setWidth 16).toNat) ∧ (s.tickN + 16 ≤ T) ∧
      T < s.tickN + 16 + s.period ∧ (16 ≤ x.sends.length))) ((wSends (List.replicate 16 (7,
      0#256)))) 0 3 ((wOp 0x38 0 1 2 0)) (((wSends (List.replicate 16 (7, 0#256))).thr 0)) 259 &&
    (fun (s : State) (c : Fin 8) (slot : Fin 4) (w : W32) (x : Thrumas) (T : Nat) => decide (s.Inv ∧ (x = s.thr c.val) ∧
      s.issues c.val slot.val 0x38 w ∧ guardOn x w ∧ s.bit aPAT_STATUS fPAT_STATUS_RUN ∧
      ((x.get (oB w)).setWidth 16).toNat < s.period ∧ (T % s.period = ((x.get (oB w)).setWidth 16).toNat) ∧ (s.tickN + 16 ≤ T) ∧
      T < s.tickN + 16 + s.period ∧ x.sends.length < 16 ∧ ((∃ e ∈ x.sends, e.1 = T)))) ((wSends [(259,
      0#256)])) 0 3 ((wOp 0x38 0 1 2 0)) (((wSends [(259, 0#256)]).thr 0)) 259 &&
    (fun (s : State) (c : Fin 8) (slot : Fin 4) (w : W32) (x : Thrumas) => decide (s.Inv ∧ (x = s.thr c.val) ∧
      s.issues c.val slot.val 0x38 w ∧ (guardOn x w = false))) wRun 0 3 ((wOp 0x38 0 1 2 0 ||| 0x02000000#32)) ((wRun.thr 0)) &&
    (fun (s : State) (c : Fin 8) => decide (s.Inv ∧ ((s.niLive 6 (coreNi c.val) = false ∨
      (s.ni 6 (coreNi c.val)).injectedAt = s.now + 1 ∨ (s.thr c.val).sends.any (fun e => e.1 == s.tickN) = false)))) w0 0 &&
    (fun (s : State) (c : Fin 8) => decide (s.Inv ∧ s.niLive 6 (coreNi c.val) ∧ (s.ni 6 (coreNi c.val)).injectedAt ≠ s.now + 1 ∧
      ((s.thr c.val).sends.any (fun e => e.1 == s.tickN)) ∧ ((s.bit aPAT_STATUS fPAT_STATUS_RUN = false ∨ s.period = 0 ∨
      s.injections 6 (coreNi c.val) s.actBank s.period (tget (fun _ => 2 ^ 64) s.pat.fromTick s.actBank) s.tickN = [])))) ((tk 3 (wSends0 [(3,
      9#256)]))) 0 &&
    (fun (s : State) (c : Fin 8) (f : BitVec 256) (e : Inj) => decide (s.Inv ∧ s.niLive 6 (coreNi c.val) ∧
      (s.ni 6 (coreNi c.val)).injectedAt ≠ s.now + 1 ∧ ((s.thr c.val).sends.any (fun e => e.1 == s.tickN)) ∧
      s.bit aPAT_STATUS fPAT_STATUS_RUN ∧ s.period ≠ 0 ∧
      (lowestFlow (s.injections 6 (coreNi c.val) s.actBank s.period (tget (fun _ => 2 ^ 64) s.pat.fromTick s.actBank) s.tickN) = some e) ∧
      ((s.thr c.val).sends.find? (fun e => e.1 == s.tickN) = some (s.tickN, f)) ∧ s.niOn 6 (coreNi c.val) ∧
      (s.niHeld 6 (coreNi c.val) = false))) wSendInj 0 9#256 (⟨0, 0, 5, 0, 0, 0⟩) &&
    (fun (s : State) (c : Fin 8) (e : Inj) => decide (s.Inv ∧ s.niLive 6 (coreNi c.val) ∧
      (s.ni 6 (coreNi c.val)).injectedAt ≠ s.now + 1 ∧ ((s.thr c.val).sends.any (fun e => e.1 == s.tickN)) ∧
      s.bit aPAT_STATUS fPAT_STATUS_RUN ∧ s.period ≠ 0 ∧
      (lowestFlow (s.injections 6 (coreNi c.val) s.actBank s.period (tget (fun _ => 2 ^ 64) s.pat.fromTick s.actBank) s.tickN) = some e) ∧
      (s.niOn 6 (coreNi c.val) = false))) ((setAll wSendInj [(aNI_CTRL 6 2, fNI_CTRL_EN, 0)])) 0 (⟨0, 0, 5, 0, 0, 0⟩) &&
    (fun (s : State) (c : Fin 8) (slot : Fin 4) (w : W32) (i : Instr × Nat) => decide (s.Inv ∧ i ∈ [(.sendAt c slot w, 0x38),
      (.xrd c slot w, 0x39), (.xwr c slot w, 0x3A)] ∧ (s.issues c.val slot.val i.2 w = false))) w0 0 0 0#32 ((.sendAt 0 0 0#32,
      0x38)) &&
    (fun (s : State) (c : Fin 8) (slot : Fin 4) (w : W32) (x : Thrumas) => decide (s.Inv ∧ (x = s.thr c.val) ∧ guardOn x w ∧
      ((∃ e ∈ x.xfers, e.tag = (oD w % 16))))) ((wXfer [⟨3, false, 0, 4⟩])) 0 3 ((wOp 0x39 3 2 5 0)) (((wXfer [⟨3, false, 0,
      4⟩]).thr 0)) &&
    (fun (s : State) (c : Fin 8) (slot : Fin 4) (w : W32) (x : Thrumas) => decide (s.Inv ∧ (x = s.thr c.val) ∧
      s.issues c.val slot.val 0x39 w ∧ (guardOn x w = false))) wRun 0 3 ((wOp 0x39 3 2 5 0 ||| 0x02000000#32)) ((wRun.thr 0)) &&
    (fun (s : State) (c : Fin 8) (slot : Fin 4) (w : W32) (x : Thrumas) => decide (s.Inv ∧ (x = s.thr c.val) ∧
      s.issues c.val slot.val 0x39 w ∧ guardOn x w ∧ (∀ e ∈ x.xfers, e.tag ≠ (oD w % 16)) ∧
      (bitsOf (x.get (oB w)).toNat 31 27 = 0) ∧
      (((x.get (oA w + 1) ++ x.get (oA w)).toNat) % 256 + (bitsOf (x.get (oB w)).toNat 26 18 + 1) ≤ 256))) ((wXfer [])) 0 3 ((wOp 0x39 3 2 5 0)) (((wXfer []).thr 0)) &&
    (fun (s : State) (c : Fin 8) (slot : Fin 4) (w : W32) (x : Thrumas) => decide (s.Inv ∧ (x = s.thr c.val) ∧
      s.issues c.val slot.val 0x39 w ∧ guardOn x w ∧ (∀ e ∈ x.xfers, e.tag ≠ (oD w % 16)) ∧
      ((bitsOf (x.get (oB w)).toNat 31 27 ≠ 0 ∨
      256 < ((x.get (oA w + 1) ++ x.get (oA w)).toNat) % 256 + (bitsOf (x.get (oB w)).toNat 26 18 + 1))))) ((wXfer [])) 0 3 ((wOp 0x39 3 2 6 0)) (((wXfer []).thr 0)) &&
    (fun (s : State) (c : Fin 8) (slot : Fin 4) (w : W32) (x : Thrumas) => decide (s.Inv ∧ (x = s.thr c.val) ∧ guardOn x w ∧
      ((∃ e ∈ x.xfers, e.tag = (oD w % 16))))) ((wXfer [⟨3, false, 0, 4⟩])) 0 3 ((wOp 0x3A 3 2 5 0)) (((wXfer [⟨3, false, 0,
      4⟩]).thr 0)) &&
    (fun (s : State) (c : Fin 8) (slot : Fin 4) (w : W32) (x : Thrumas) => decide (s.Inv ∧ (x = s.thr c.val) ∧
      s.issues c.val slot.val 0x3A w ∧ (guardOn x w = false))) wRun 0 3 ((wOp 0x3A 3 2 5 0 ||| 0x02000000#32)) ((wRun.thr 0)) &&
    (fun (s : State) (c : Fin 8) (slot : Fin 4) (w : W32) (x : Thrumas) => decide (s.Inv ∧ (x = s.thr c.val) ∧
      s.issues c.val slot.val 0x3A w ∧ guardOn x w ∧ (∀ e ∈ x.xfers, e.tag ≠ (oD w % 16)) ∧
      (bitsOf (x.get (oB w)).toNat 31 27 = 0) ∧
      (((x.get (oA w + 1) ++ x.get (oA w)).toNat) % 256 + (bitsOf (x.get (oB w)).toNat 26 18 + 1) ≤ 256))) ((wXfer [])) 0 3 ((wOp 0x3A 3 2 5 0)) (((wXfer []).thr 0)) &&
    (fun (s : State) (c : Fin 8) (slot : Fin 4) (w : W32) (x : Thrumas) => decide (s.Inv ∧ (x = s.thr c.val) ∧
      s.issues c.val slot.val 0x3A w ∧ guardOn x w ∧ (∀ e ∈ x.xfers, e.tag ≠ (oD w % 16)) ∧
      ((bitsOf (x.get (oB w)).toNat 31 27 ≠ 0 ∨
      256 < ((x.get (oA w + 1) ++ x.get (oA w)).toNat) % 256 + (bitsOf (x.get (oB w)).toNat 26 18 + 1))))) ((wXfer [])) 0 3 ((wOp 0x3A 3 2 6 0)) (((wXfer []).thr 0)) &&
    (fun (s : State) (c : Fin 8) (g : Fin 16) (r : MemRsp) (e : Xfer) => decide (s.Inv ∧
      (s.rsps.find? (fun r => r.origin == .core c.val g.val) = some r) ∧
      ((s.thr c.val).xfers.find? (fun e => e.tag == g.val) = some e) ∧ (e.write = false) ∧ (r.status = 0) ∧
      (e.count ≤ r.data.length) ∧ (e.count ≤ 262144))) ((wXrsp 0)) 0 3 (⟨.core 0 3, 0, 0, [7#8, 9#8]⟩) (⟨3, false, 8, 2⟩) &&
    (fun (s : State) (c : Fin 8) (g : Fin 16) (r : MemRsp) (e : Xfer) => decide (s.Inv ∧
      (s.rsps.find? (fun r => r.origin == .core c.val g.val) = some r) ∧
      ((s.thr c.val).xfers.find? (fun e => e.tag == g.val) = some e) ∧ r.status ≠ 0)) ((wXrsp 2)) 0 3 (⟨.core 0 3, 2, 0, [7#8,
      9#8]⟩) (⟨3, false, 8, 2⟩) &&
    (fun (s : State) (c : Fin 8) (g : Fin 16) (r : MemRsp) (e : Xfer) => decide (s.Inv ∧
      (s.rsps.find? (fun r => r.origin == .core c.val g.val) = some r) ∧
      ((s.thr c.val).xfers.find? (fun e => e.tag == g.val) = some e) ∧ e.write ∧
      (r.status = 0))) ({ wXfer [⟨3, true, 8, 2⟩] with rsps := [⟨.core 0 3, 0, 0, []⟩] }) 0 3 (⟨.core 0 3, 0, 0, []⟩) (⟨3, true,
      8, 2⟩) &&
    (fun (s : State) (c : Fin 8) (g : Fin 16) => decide (s.Inv ∧
      (s.rsps.find? (fun r => r.origin == .core c.val g.val) = none))) w0 0 3 &&
    (fun (s : State) (c : Fin 8) (g : Fin 16) (r : MemRsp) => decide (s.Inv ∧
      (s.rsps.find? (fun r => r.origin == .core c.val g.val) = some r) ∧
      ((s.thr c.val).xfers.find? (fun e => e.tag == g.val) = none))) ({ wXfer [] with rsps := [⟨.core 0 3, 0, 0, []⟩] }) 0 3 (⟨.core 0 3,
      0, 0, []⟩) &&
    (fun (s : State) (c : Fin 8) (e : Egr) (l : List Egr) (x : Thrumas) => decide (s.Inv ∧ s.hubRuns ∧
      ((s.ni 6 (coreNi c.val)).egress = e :: l) ∧ (x = s.thr c.val) ∧
      (x.rxwp - x.rxrp).toNat ≠ 64)) ((wRx 0#7)) 0 wEgrFlit ([]) (((wRx 0#7).thr 0)) &&
    (fun (s : State) (c : Fin 8) (e : Egr) (l : List Egr) (x : Thrumas) => decide (s.Inv ∧ s.hubRuns ∧
      ((s.ni 6 (coreNi c.val)).egress = e :: l) ∧ (x = s.thr c.val) ∧
      ((x.rxwp - x.rxrp).toNat = 64))) ((wRx 64#7)) 0 wEgrFlit ([]) (((wRx 64#7).thr 0)) &&
    (fun (s : State) (c : Fin 8) => decide (s.Inv ∧ ((s.hubRuns = false ∨ (s.ni 6 (coreNi c.val)).egress = [])))) w0 0) = true := by decide +kernel

theorem witness_CoreFaultsInterruptsAndReset :
    ((fun (s : State) (c : Fin 8) (x : Thrumas) (k : Nat) => decide (s.Inv ∧ (x = s.thr c.val) ∧ s.coreLive c.val ∧
      (s.coreState c.val = 1) ∧ (x.issued = 0#4) ∧ (s.boundaryHeld c.val = false) ∧
      (s.bundleFault c.val = some k))) wIllegal 0 ((wIllegal.thr 0)) 1 &&
    (fun (s : State) (c : Fin 8) => decide (s.Inv ∧ ((s.coreLive c.val = false ∨ s.coreState c.val ≠ 1 ∨
      (s.thr c.val).issued ≠ 0#4 ∨ s.boundaryHeld c.val ∨ s.bundleFault c.val = none)))) wRun 0 &&
    (fun (s : State) (c : Fin 8) => decide (s.Inv ∧ ((s.coreLive c.val = false ∨ (s.coreState c.val ≠ 1 ∧ s.coreState c.val ≠ 2) ∨
      s.presented c.val = none ∨ (s.presented c.val).any (fun p => !s.mayInterrupt c.val p.1))))) wRun 0 &&
    (fun (s : State) (c : Fin 8) (x : Thrumas) (l e : Nat) => decide (s.Inv ∧ (x = s.thr c.val) ∧ (s.presented c.val = some (l,
      e)) ∧ s.coreLive c.val ∧ ((s.coreState c.val = 1 ∨ s.coreState c.val = 2)) ∧
      s.mayInterrupt c.val l)) wIrq 0 ((wIrq.thr 0)) 5 40 &&
    (fun (s : State) (c : Fin 8) (slot : Fin 4) (w : W32) (x : Thrumas) (b : Branch) => decide (s.Inv ∧ (x = s.thr c.val) ∧
      s.issues c.val slot.val 0x00 w ∧ (x.issued ||| BitVec.ofNat 4 (2 ^ slot.val) = 0xF#4) ∧ (x.stopAsked = false) ∧
      (x.flight = []) ∧ (x.branch = some b) ∧ b.reti ∧ (b.left ≤ 1))) wReti 0 0 0#32 ((wReti.thr 0)) (⟨100, 1, true⟩) &&
    (fun (s : State) (c : Fin 8) (x : Thrumas) => decide (s.Inv ∧ (x = s.thr c.val) ∧ s.coreLive c.val ∧
      s.bit (aWD_CTRL c.val) fWD_CTRL_EN ∧ ((s.reg (aWD_CNT c.val) = 0#32 ∨ x.badKey)) ∧
      ((s.fld (aWD_CTRL c.val) fWD_CTRL_ACT = 0 ∨ s.fld (aWD_CTRL c.val) fWD_CTRL_ACT = 3 ∨
      (s.fld (aWD_CTRL c.val) fWD_CTRL_ACT = 1 ∧ s.coreState c.val = 4))))) ((wWd 0)) 0 (((wWd 0).thr 0)) &&
    (fun (s : State) (c : Fin 8) (x : Thrumas) => decide (s.Inv ∧ (x = s.thr c.val) ∧ s.coreLive c.val ∧
      s.bit (aWD_CTRL c.val) fWD_CTRL_EN ∧ ((s.reg (aWD_CNT c.val) = 0#32 ∨ x.badKey)) ∧
      (s.fld (aWD_CTRL c.val) fWD_CTRL_ACT = 1) ∧ s.coreState c.val ≠ 4)) ((wWd 1)) 0 (((wWd 1).thr 0)) &&
    (fun (s : State) (c : Fin 8) (x : Thrumas) => decide (s.Inv ∧ (x = s.thr c.val) ∧ s.coreLive c.val ∧
      s.bit (aWD_CTRL c.val) fWD_CTRL_EN ∧ ((s.reg (aWD_CNT c.val) = 0#32 ∨ x.badKey)) ∧
      (s.fld (aWD_CTRL c.val) fWD_CTRL_ACT = 2))) ((wWd 2)) 0 (((wWd 2).thr 0)) &&
    (fun (s : State) (c : Fin 8) => decide (s.Inv ∧ ((s.coreLive c.val = false ∨ s.bit (aWD_CTRL c.val) fWD_CTRL_EN = false ∨
      (s.reg (aWD_CNT c.val) ≠ 0#32 ∧ (s.thr c.val).badKey = false))))) wRun 0 &&
    (fun (s : State) (m : Rm) (c : Fin 8) => decide (s.Inv ∧ s.ringReady m (aCORE_CTRL c.val))) wRun .debug 0 &&
    (fun (s : State) (m : Rm) (c : Fin 8) => decide (s.Inv ∧ s.ringReady m (aCORE_CTRL c.val) ∧
      (s.coreState c.val = 0))) w0 .debug 3 &&
    (fun (s : State) (m : Rm) (c : Fin 8) => decide (s.Inv ∧ s.ringReady m (aCORE_CTRL c.val) ∧
      s.coreState c.val ≠ 0)) wLast .debug 0 &&
    (fun (s : State) (m : Rm) (c : Fin 8) => decide (s.Inv ∧ s.ringReady m (aCORE_CTRL c.val) ∧ ((s.coreState c.val = 0 ∨
      3 ≤ s.coreState c.val)))) wHalted .debug 0 &&
    (fun (s : State) (m : Rm) (c : Fin 8) => decide (s.Inv ∧ s.ringReady m (aCORE_CTRL c.val) ∧ ((s.coreState c.val = 1 ∨
      s.coreState c.val = 2)) ∧ boundaryFree (s.thr c.val))) wRun .debug 0 &&
    (fun (s : State) (m : Rm) (c : Fin 8) => decide (s.Inv ∧ s.ringReady m (aCORE_CTRL c.val) ∧ ((s.coreState c.val = 1 ∨
      s.coreState c.val = 2)) ∧ (boundaryFree (s.thr c.val) = false))) wLast .debug 0 &&
    (fun (s : State) (m : Rm) (c : Fin 8) (v : W32) (i : Nat) => decide (s.Inv ∧ s.ringReady m (aIM_DATA_3 c.val) ∧
      (s.fld (aIM_ADDR c.val) fIM_ADDR_INDEX = i) ∧ i < 8192)) ((setAll wRun [(aIM_DATA_0 0, ⟨0, 32⟩, 0x04050040), (aIM_ADDR 0,
      fIM_ADDR_AINC, 1)])) .debug 0 0x12345678#32 0 &&
    (fun (s : State) (m : Rm) (c : Fin 8) (v : W32) (i : Nat) => decide (s.Inv ∧ s.ringReady m (aIM_DATA_3 c.val) ∧
      (s.fld (aIM_ADDR c.val) fIM_ADDR_INDEX = i) ∧ inRom c.val i)) ((setAll wRun [(aIM_ADDR 0, fIM_ADDR_INDEX,
      8192)])) .debug 0 0#32 8192 &&
    (fun (s : State) (m : Rm) (c : Fin 8) (v : W32) (i : Nat) => decide (s.Inv ∧ s.ringReady m (aIM_DATA_3 c.val) ∧
      (s.fld (aIM_ADDR c.val) fIM_ADDR_INDEX = i) ∧ (8192 ≤ i) ∧ (inRom c.val i = false))) ((setAll wRun [(aIM_ADDR 0,
      fIM_ADDR_INDEX, 12000)])) .debug 0 0#32 12000 &&
    (fun (s : State) (m : Rm) (c : Fin 8) (v : W32) (i : Nat) => decide (s.Inv ∧ s.ringReady m (aDM_DATA c.val) ∧
      (s.fld (aDM_ADDR c.val) fDM_ADDR_WORD = i))) ((setAll wRun [(aDM_ADDR 0, fDM_ADDR_AINC, 1)])) .debug 0 0x12345678#32 0 &&
    (fun (s : State) (m : Rm) (c : Fin 8) (i : Nat) => decide (s.Inv ∧ s.ringReady m (aDM_DATA c.val) ∧
      (s.fld (aDM_ADDR c.val) fDM_ADDR_WORD = i))) ((setAll wMem [(aDM_ADDR 0, fDM_ADDR_WORD, 4)])) .debug 0 4 &&
    (fun (s : State)  => decide (s.Inv ∧ s.coreLive 0 ∧ (s.coreState 0 = 1) ∧ inRom 0 (s.thr 0).pc.toNat ∧
      s.bit aBOOT_MBOX fBOOT_MBOX_GO)) ((setAll wRun [(aBOOT_MBOX, fBOOT_MBOX_GO, 1), (aBOOT_MBOX, fBOOT_MBOX_ENTRY, 64)])) &&
    (fun (s : State)  => decide (s.Inv ∧ ((s.coreLive 0 = false ∨ s.coreState 0 ≠ 1 ∨ inRom 0 (s.thr 0).pc.toNat = false ∨
      s.bit aBOOT_MBOX fBOOT_MBOX_GO = false)))) wRun) = true := by decide +kernel

theorem witness_HaltsStepsAndComparators :
    ((fun (s : State) (k : BitVec 8) => decide (s.Inv ∧ s.ringReady .debug aDBG_RUNCTL)) wRun 0x81#8 &&
    (fun (s : State) (k : BitVec 8) => decide (s.Inv ∧ s.ringReady .debug aDBG_RUNCTL)) wHalted 1#8 &&
    (fun (s : State) (k : BitVec 8) => decide (s.Inv ∧ s.ringReady .debug aDBG_RUNCTL)) wHalted 1#8 &&
    (fun (s : State) (m : Rm) (k : BitVec 8) => decide (s.Inv ∧ s.ringReady m aDBG_RUNCTL ∧ m ≠ .debug)) wRun .core0 1#8 &&
    (fun (s : State) (m : Rm) (k : BitVec 8) => decide (s.Inv ∧ s.ringReady m aDBG_RUNCTL ∧ m ≠ .debug)) wRun .core0 1#8 &&
    (fun (s : State) (m : Rm) (k : BitVec 8) => decide (s.Inv ∧ s.ringReady m aDBG_RUNCTL ∧ m ≠ .debug)) wRun .core0 1#8 &&
    (fun (s : State) (c : Fin 8) (x : Thrumas) (r : Nat) => decide (s.Inv ∧ (x = s.thr c.val) ∧ (x.haltReason = some r) ∧ r < 8 ∧
      s.coreLive c.val ∧ (s.coreState c.val ≤ 2) ∧ boundaryFree x ∧
      (x.resv = none))) ((setAll (wRun.setThr 0 { wRun.thr 0 with haltReason := some 1 }) [(aDBG_CTRL, fDBG_CTRL_GROUP, 3),
      (aCORE_STATUS 1, fCORE_STATUS_STATE, 1)])) 0 (((wRun.setThr 0 { wRun.thr 0 with haltReason := some 1 }).thr 0)) 1 &&
    (fun (s : State) (c : Fin 8) => decide (s.Inv ∧ ((s.coreLive c.val = false ∨ (s.thr c.val).haltReason = none ∨
      3 ≤ s.coreState c.val ∨ boundaryFree (s.thr c.val) = false ∨ (s.thr c.val).resv ≠ none)))) wRun 0 &&
    (fun (s : State) (c : Fin 8) => decide (s.Inv ∧ ((s.coreLive c.val = false ∨ (s.thr c.val).haltReason = none ∨
      (s.thr c.val).resv = none ∨ s.now < (s.thr c.val).haltAt + 320)))) wRun 0 &&
    (fun (s : State) (c : Fin 8) (x : Thrumas) => decide (s.Inv ∧ (x = s.thr c.val) ∧ s.coreLive c.val ∧ x.haltReason ≠ none ∧
      x.resv ≠ none ∧
      (x.haltAt + 320 ≤ s.now))) ((tk 400 (wRun.setThr 0 { wRun.thr 0 with haltReason := some 1, resv := some 8 }))) 0 (((wRun.setThr 0 { wRun.thr 0 with haltReason := some 1, resv := some 8 }).thr 0)) &&
    (fun (s : State) (c : Fin 8) (x : Thrumas) (k : Nat) => decide (s.Inv ∧ (x = s.thr c.val) ∧ (s.bpMatch c.val = some k) ∧
      s.coreLive c.val ∧ (s.coreState c.val = 1) ∧ (x.issued = 0#4) ∧ (x.watch = none) ∧
      (x.skipBp = false))) wBp 0 ((wBp.thr 0)) 1 &&
    (fun (s : State) (c : Fin 8) => decide (s.Inv ∧ ((s.bpMatch c.val = none ∨ s.coreLive c.val = false ∨ s.coreState c.val ≠ 1 ∨
      (s.thr c.val).issued ≠ 0#4 ∨ (s.thr c.val).watch ≠ none ∨ (s.thr c.val).skipBp)))) wRun 0 &&
    (fun (s : State) (c : Fin 8) => decide (s.Inv ∧ (((s.thr c.val).watch = none ∨ s.coreLive c.val = false ∨
      (s.thr c.val).issued ≠ 0#4)))) wRun 0 &&
    (fun (s : State) (c : Fin 8) (x : Thrumas) (j sl : Nat) => decide (s.Inv ∧ (x = s.thr c.val) ∧ (x.watch = some (j, sl)) ∧
      j < 4 ∧ sl < 2 ∧ s.coreLive c.val ∧
      (x.issued = 0#4))) ((wRun.setThr 0 { wRun.thr 0 with watch := some (2, 1) })) 0 (((wRun.setThr 0 { wRun.thr 0 with watch := some (2, 1) }).thr 0)) 2 1) = true := by decide +kernel

theorem witness_HaltedStateAndTerminal :
    ((fun (s : State) (c : Fin 8) (v : W32) (i : Nat) => decide (s.Inv ∧ s.ringReady .debug (aDBG_REG_DATA c.val) ∧
      (s.fld (aDBG_REG_ADDR c.val) fDBG_REG_ADDR_INDEX = i) ∧ (s.coreState c.val = 3) ∧ i < 64)) wHalted 0 7#32 0 &&
    (fun (s : State) (c : Fin 8) (v : W32) => decide (s.Inv ∧ s.ringReady .debug (aDBG_REG_DATA c.val) ∧
      (s.fld (aDBG_REG_ADDR c.val) fDBG_REG_ADDR_INDEX = 0xC0) ∧ (s.coreState c.val = 3))) ((setAll wHalted [(aDBG_REG_ADDR 0,
      fDBG_REG_ADDR_INDEX, 0xC0)])) 0 7#32 &&
    (fun (s : State) (c : Fin 8) (v : W32) (i : Nat) => decide (s.Inv ∧ s.ringReady .debug (aDBG_REG_DATA c.val) ∧
      (s.fld (aDBG_REG_ADDR c.val) fDBG_REG_ADDR_INDEX = i) ∧ (s.coreState c.val = 3) ∧ (0x40 ≤ i) ∧
      i < 0x50)) ((setAll wHalted [(aDBG_REG_ADDR 0, fDBG_REG_ADDR_INDEX, 0x41)])) 0 7#32 0x41 &&
    (fun (s : State) (c : Fin 8) (v : W32) (i : Nat) => decide (s.Inv ∧ s.ringReady .debug (aDBG_REG_DATA c.val) ∧
      (s.fld (aDBG_REG_ADDR c.val) fDBG_REG_ADDR_INDEX = i) ∧ (s.coreState c.val = 3) ∧ (0x80 ≤ i) ∧
      (i ≤ 0x98))) ((setAll wHalted [(aDBG_REG_ADDR 0, fDBG_REG_ADDR_INDEX, 0x83)])) 0 7#32 0x83 &&
    (fun (s : State) (m : Rm) (c : Fin 8) (v : W32) => decide (s.Inv ∧ s.ringReady m (aDBG_REG_DATA c.val) ∧ ((m ≠ .debug ∨
      s.coreState c.val ≠ 3 ∨ s.dbgItem c.val (s.fld (aDBG_REG_ADDR c.val) fDBG_REG_ADDR_INDEX) = none)))) wRun .debug 0 7#32 &&
    (fun (s : State) (m : Rm) (c : Fin 8) (i : Nat) => decide (s.Inv ∧ s.ringReady m (aDBG_REG_DATA c.val) ∧
      (s.fld (aDBG_REG_ADDR c.val) fDBG_REG_ADDR_INDEX = i) ∧ (s.coreState c.val = 3) ∧
      i < 64)) ((setAll wHalted [(aDBG_REG_ADDR 0, fDBG_REG_ADDR_INDEX, 2)])) .debug 0 2 &&
    (fun (s : State) (m : Rm) (c : Fin 8) (i : Nat) => decide (s.Inv ∧ s.ringReady m (aDBG_REG_DATA c.val) ∧
      (s.fld (aDBG_REG_ADDR c.val) fDBG_REG_ADDR_INDEX = i) ∧ (s.coreState c.val = 3) ∧ (0x40 ≤ i) ∧
      i < 0x50)) ((setAll wHalted [(aDBG_REG_ADDR 0, fDBG_REG_ADDR_INDEX, 67)])) .debug 0 67 &&
    (fun (s : State) (m : Rm) (c : Fin 8) (i : Nat) => decide (s.Inv ∧ s.ringReady m (aDBG_REG_DATA c.val) ∧
      (s.fld (aDBG_REG_ADDR c.val) fDBG_REG_ADDR_INDEX = i) ∧ (s.coreState c.val = 3) ∧ (0x80 ≤ i) ∧ (i ≤ 0x98) ∧ i ≠ 0x85 ∧
      i ≠ 0x86)) ((setAll wHalted [(aDBG_REG_ADDR 0, fDBG_REG_ADDR_INDEX, 144)])) .debug 0 144 &&
    (fun (s : State) (m : Rm) (c : Fin 8) (i : Nat) => decide (s.Inv ∧ s.ringReady m (aDBG_REG_DATA c.val) ∧
      (s.fld (aDBG_REG_ADDR c.val) fDBG_REG_ADDR_INDEX = i) ∧ (s.coreState c.val = 3) ∧
      (i = 0x85))) ((setAll wHalted [(aDBG_REG_ADDR 0, fDBG_REG_ADDR_INDEX, 133)])) .debug 0 133 &&
    (fun (s : State) (m : Rm) (c : Fin 8) (i : Nat) => decide (s.Inv ∧ s.ringReady m (aDBG_REG_DATA c.val) ∧
      (s.fld (aDBG_REG_ADDR c.val) fDBG_REG_ADDR_INDEX = i) ∧ (s.coreState c.val = 3) ∧
      (i = 0x86))) ((setAll wHalted [(aDBG_REG_ADDR 0, fDBG_REG_ADDR_INDEX, 134)])) .debug 0 134 &&
    (fun (s : State) (m : Rm) (c : Fin 8) (i : Nat) => decide (s.Inv ∧ s.ringReady m (aDBG_REG_DATA c.val) ∧
      (s.fld (aDBG_REG_ADDR c.val) fDBG_REG_ADDR_INDEX = i) ∧ (s.coreState c.val = 3) ∧
      (i = 0xC0))) ((setAll wHalted [(aDBG_REG_ADDR 0, fDBG_REG_ADDR_INDEX, 192)])) .debug 0 192 &&
    (fun (s : State) (m : Rm) (c : Fin 8) => decide (s.Inv ∧ s.ringReady m (aDBG_REG_DATA c.val) ∧ ((s.coreState c.val ≠ 3 ∨
      s.dbgItem c.val (s.fld (aDBG_REG_ADDR c.val) fDBG_REG_ADDR_INDEX) = none)))) wRun .debug 0 &&
    (fun (s : State) (m : Rm) (v : W32) => decide (s.Inv ∧ s.ringReady m aDBG_TX ∧ m ≠ .debug ∧
      (s.bit aDBG_TERM_STAT fDBG_TERM_STAT_TXV = false))) wRun .core0 65#32 &&
    (fun (s : State) (m : Rm) (v : W32) => decide (s.Inv ∧ s.ringReady m aDBG_TX ∧ ((m = .debug ∨
      s.bit aDBG_TERM_STAT fDBG_TERM_STAT_TXV)))) wRun .debug 65#32 &&
    (fun (s : State)  => decide (s.Inv ∧ s.ringReady .debug aDBG_TERM_STAT ∧
      s.bit aDBG_TERM_STAT fDBG_TERM_STAT_TXV)) ((setAll wRun [(aDBG_TERM_STAT, fDBG_TERM_STAT_TXV, 1)])) &&
    (fun (s : State)  => decide (s.Inv ∧ s.ringReady .debug aDBG_TERM_STAT ∧
      (s.bit aDBG_TERM_STAT fDBG_TERM_STAT_TXV = false))) wRun &&
    (fun (s : State) (m : Rm) => decide (s.Inv ∧ s.ringReady m aDBG_TERM_STAT ∧ m ≠ .debug)) wRun .core0 &&
    (fun (s : State) (v : W32) => decide (s.Inv ∧ s.ringReady .debug aDBG_RX ∧
      (s.bit aDBG_TERM_STAT fDBG_TERM_STAT_RXV = false))) wRun 65#32 &&
    (fun (s : State) (m : Rm) (v : W32) => decide (s.Inv ∧ s.ringReady m aDBG_RX ∧ ((m ≠ .debug ∨
      s.bit aDBG_TERM_STAT fDBG_TERM_STAT_RXV)))) wRun .core0 65#32 &&
    (fun (s : State) (m : Rm) => decide (s.Inv ∧ s.ringReady m aDBG_TERM_STAT ∧ m ≠ .debug)) ((setAll wRun [(aDBG_TERM_STAT,
      fDBG_TERM_STAT_RXV, 1)])) .core0 &&
    (fun (s : State)  => decide (s.Inv ∧ s.ringReady .debug aDBG_TERM_STAT)) wRun) = true := by decide +kernel

theorem witness_BankRequests :
    ((fun (s : State) (p : Bool) (b : Fin 64) (bad : Option (Fin 8192)) => decide (s.Inv ∧ ((s.hubRuns = false ∨
      s.bankNext p b.val = none)))) w0 true 3 none &&
    (fun (s : State) (p : Bool) (b : Fin 64) (r : MemReq) (bad : Option (Fin 8192)) => decide (s.Inv ∧ s.hubRuns ∧
      (s.bankNext p b.val = some r) ∧ ((s.bankTake p b.val r).bankNext (!p) b.val = none) ∧
      s.domState (64 + b.val) ≠ 3)) ((setAll (wBank 0x40 true) [(aPWR_STATE 4, ⟨6, 2⟩, 2)])) true 3 (wBankReq 0x40 true) none &&
    (fun (s : State) (p : Bool) (b : Fin 64) (r : MemReq) (bad : Option (Fin 8192)) => decide (s.Inv ∧ s.hubRuns ∧
      (s.bankNext p b.val = some r) ∧ ((s.bankTake p b.val r).bankNext (!p) b.val = none) ∧ s.domOn (64 + b.val) ∧
      s.bankAllows b.val r ∧ r.write ∧ (s.handover b.val r = false))) ((wBank 0x40 true)) true 3 (wBankReq 0x40 true) none &&
    (fun (s : State) (p : Bool) (b : Fin 64) (r : MemReq) (bad : Option (Fin 8192)) => decide (s.Inv ∧ s.hubRuns ∧
      (s.bankNext p b.val = some r) ∧ ((s.bankTake p b.val r).bankNext (!p) b.val = none) ∧ s.domOn (64 + b.val) ∧
      s.bankAllows b.val r ∧ (r.write = false) ∧ (s.handover b.val r = false) ∧
      (bad.all (fun w => decide (r.addr + r.count ≤ bankBase b.val + 32 * w.val) || decide (bankBase b.val + 32 * w.val + 32 ≤ r.addr))) ∧
      (s.banks.badPar.all (fun k => decide (k < r.addr) || decide (r.addr + (r.count) ≤ k))))) ((wBank 0x40 false)) true 3 (wBankReq 0x40 false) none &&
    (fun (s : State) (p : Bool) (b : Fin 64) (r : MemReq) (bad : Option (Fin 8192)) (w : Fin 8192) => decide (s.Inv ∧ s.hubRuns ∧
      (s.bankNext p b.val = some r) ∧ ((s.bankTake p b.val r).bankNext (!p) b.val = none) ∧ s.domOn (64 + b.val) ∧
      s.bankAllows b.val r ∧ (r.write = false) ∧ (s.handover b.val r = false) ∧ (bad = some w) ∧
      r.addr < bankBase b.val + 32 * w.val + 32 ∧ bankBase b.val + 32 * w.val < r.addr + r.count ∧
      (s.banks.badPar.all (fun k => decide (k < r.addr) || decide (r.addr + (r.count) ≤ k))))) ((wBank 0x40 false)) true 3 (wBankReq 0x40 false) (some 2) 2 &&
    (fun (s : State) (p : Bool) (b : Fin 64) (r : MemReq) (bad : Option (Fin 8192)) (k : Nat) => decide (s.Inv ∧ s.hubRuns ∧
      (s.bankNext p b.val = some r) ∧ ((s.bankTake p b.val r).bankNext (!p) b.val = none) ∧ s.domOn (64 + b.val) ∧
      s.bankAllows b.val r ∧ (r.write = false) ∧ (s.handover b.val r = false) ∧
      (bad.all (fun w => decide (r.addr + r.count ≤ bankBase b.val + 32 * w.val) || decide (bankBase b.val + 32 * w.val + 32 ≤ r.addr))) ∧
      k ∈ s.banks.badPar ∧ (r.addr ≤ k) ∧ k < r.addr + r.count ∧
      (s.banks.badPar.all (fun j => decide (j < r.addr) || decide (k ≤ j))))) ((let s := wBank 0x40 false; { s with banks := { s.banks with badPar := [bankBase 3 + 65] } })) true 3 (wBankReq 0x40 false) none (bankBase 3 + 65) &&
    (fun (s : State) (p : Bool) (b : Fin 64) (r : MemReq) (bad : Option (Fin 8192)) => decide (s.Inv ∧ s.hubRuns ∧
      (s.bankNext p b.val = some r) ∧ ((s.bankTake p b.val r).bankNext (!p) b.val = none) ∧ s.domOn (64 + b.val) ∧
      (s.bankAllows b.val r = false))) ((setAll (wBank 0x40 true) [(aBANK_OWNER 3, fBANK_OWNER_OWNER,
      5)])) true 3 (wBankReq 0x40 true) none &&
    (fun (s : State) (p : Bool) (b : Fin 64) (r : MemReq) (bad : Option (Fin 8192)) (n : Nat) => decide (s.Inv ∧ s.hubRuns ∧
      (s.bankNext p b.val = some r) ∧ ((s.bankTake p b.val r).bankNext (!p) b.val = none) ∧ s.domOn (64 + b.val) ∧
      s.bankAllows b.val r ∧ r.write ∧ s.handover b.val r ∧ (r.addr % 0x40000 ≤ 0x3FFE0) ∧
      (0x3FFE4 ≤ r.addr % 0x40000 + r.count) ∧
      (newOwner (leNat ((r.data.drop (0x3FFE0 - r.addr % 0x40000)).take 4)) = some n))) wHand true 3 wHandReq none 7 &&
    (fun (s : State) (p : Bool) (b : Fin 64) (r : MemReq) (bad : Option (Fin 8192)) => decide (s.Inv ∧ s.hubRuns ∧
      (s.bankNext p b.val = some r) ∧ ((s.bankTake p b.val r).bankNext (!p) b.val = none) ∧ s.domOn (64 + b.val) ∧
      s.bankAllows b.val r ∧ r.write ∧ s.handover b.val r ∧ ((0x3FFE0 < r.addr % 0x40000 ∨
      r.addr % 0x40000 + r.count < 0x3FFE4 ∨
      newOwner (leNat ((r.data.drop (0x3FFE0 - r.addr % 0x40000)).take 4)) = none)))) ({ wHand with mq := [{ wHandReq with data := [7#8, 1#8, 0#8, 0x5A#8] }] }) true 3 ({ wHandReq with data := [7#8, 1#8, 0#8, 0x5A#8] }) none &&
    (fun (s : State) (p : Bool) (b : Fin 64) (r : MemReq) (bad : Option (Fin 8192)) => decide (s.Inv ∧ s.hubRuns ∧
      (s.bankNext p b.val = some r) ∧ ((s.bankTake p b.val r).bankNext (!p) b.val = none) ∧ s.domOn (64 + b.val) ∧
      s.bankAllows b.val r ∧ (r.write = false) ∧ s.handover b.val r ∧
      (bad.all (fun w => decide (r.addr + r.count ≤ bankBase b.val + 32 * w.val) || decide (bankBase b.val + 32 * w.val + 32 ≤ r.addr))) ∧
      (s.banks.badPar.all (fun k => decide (k < r.addr) || decide (r.addr + (0x3FFE0 - r.addr % 0x40000) ≤ k))) ∧
      (0x3FFE0 ≤ r.addr % 0x40000))) ({ wHand with mq := [{ wHandReq with write := false, data := [] }] }) true 3 ({ wHandReq with write := false, data := [] }) none &&
    (fun (s : State) (p : Bool) (b : Fin 64) (r : MemReq) (bad : Option (Fin 8192)) => decide (s.Inv ∧ s.hubRuns ∧
      (s.bankNext p b.val = some r) ∧ ((s.bankTake p b.val r).bankNext (!p) b.val = none) ∧ s.domOn (64 + b.val) ∧
      s.bankAllows b.val r ∧ (r.write = false) ∧ s.handover b.val r ∧
      (bad.all (fun w => decide (r.addr + r.count ≤ bankBase b.val + 32 * w.val) || decide (bankBase b.val + 32 * w.val + 32 ≤ r.addr))) ∧
      (s.banks.badPar.all (fun k => decide (k < r.addr) || decide (r.addr + (0x3FFE0 - r.addr % 0x40000) ≤ k))) ∧
      r.addr % 0x40000 < 0x3FFE0)) ({ wHand with mq := [{ wHandReq with write := false, data := [], addr := bankBase 3 + 0x3FFDE }] }) true 3 ({ wHandReq with write := false, data := [], addr := bankBase 3 + 0x3FFDE }) none &&
    (fun (s : State) (b : Fin 64) (r : MemReq) (e k : Nat) (bad : Option (Fin 8192)) (p : Bool) => decide (s.Inv ∧ s.hubRuns ∧
      (s.bankNext p b.val = some r) ∧ ((s.bankTake p b.val r).bankNext (!p) b.val = none) ∧ (r.origin = .dma e k) ∧
      ((s.domState (64 + b.val) ≠ 3 ∨ s.bankAllows b.val r = false)))) ((setAll (wBank 0x40 true) [(aPWR_STATE 4, ⟨6, 2⟩,
      2)])) 3 (wBankReq 0x40 true) 0 3 none true &&
    (fun (s : State) (p : Bool) (b : Fin 64) (x y : MemReq) => decide (s.Inv ∧ s.hubRuns ∧ (s.bankNext p b.val = some x) ∧
      ((s.bankTake p b.val x).bankNext (!p) b.val = some y))) ({ w0 with mq := [wBankReq 0x40 true, wBankReq 0x20 false] }) true 3 (wBankReq 0x40 true) (wBankReq 0x20 false) &&
    (fun (s : State) (b : Fin 64) (x y : MemReq) => decide (s.Inv ∧ s.hubRuns ∧ (s.bankNext true b.val = some x) ∧
      ((s.bankTake true b.val x).bankNext false b.val = some y) ∧ s.domOn (64 + b.val) ∧ (s.bistOn b.val = none) ∧
      (s.fld (aBANK_OWNER b.val) fBANK_OWNER_OWNER = 0) ∧ (s.bit (aBANK_OWNER b.val) fBANK_OWNER_GIVE_EN = false) ∧
      (x.addr / 32 = y.addr / 32) ∧ x.write ∧
      y.write)) ({ w0 with mq := [wBankReq 0x40 true, { wBankReq 0x20 true with data := [9#8] }] }) 3 (wBankReq 0x40 true) ({ wBankReq 0x20 true with data := [9#8] }) &&
    (fun (s : State) (b : Fin 64) (x y : MemReq) => decide (s.Inv ∧ s.hubRuns ∧ (s.bankNext true b.val = some x) ∧
      ((s.bankTake true b.val x).bankNext false b.val = some y) ∧ s.domOn (64 + b.val) ∧ (s.bistOn b.val = none) ∧
      (s.fld (aBANK_OWNER b.val) fBANK_OWNER_OWNER = 0) ∧ (s.bit (aBANK_OWNER b.val) fBANK_OWNER_GIVE_EN = false) ∧
      (x.addr / 32 = y.addr / 32) ∧ (x.write = false) ∧ y.write ∧ (x.addr = y.addr) ∧ (x.count = y.data.length) ∧
      (s.banks.badPar = []) ∧ (y.origin = .dma 0 2) ∧
      (x.origin = .dma 0 3))) ({ w0 with mq := [wBankReq 0x40 false, { wBankReq 0x20 true with origin := .dma 0 2 }] }) 3 (wBankReq 0x40 false) ({ wBankReq 0x20 true with origin := .dma 0 2 })) = true := by decide +kernel

theorem witness_BankOwnersCountersAndTest :
    ((fun (s : State) (m : Rm) (b : Fin 64) (v : W32) => decide (s.Inv ∧ s.ringReady m (aBANK_OWNER b.val) ∧ m ≠ .config ∧
      (s.bistOn b.val = none) ∧ getF v fBANK_OWNER_OWNER ≠ 0x50)) w0 .core0 3 7#32 &&
    (fun (s : State) (m : Rm) (b : Fin 64) (v : W32) => decide (s.Inv ∧ s.ringReady m (aBANK_OWNER b.val) ∧ ((m = .config ∨
      s.bistOn b.val ≠ none ∨ getF v fBANK_OWNER_OWNER = 0x50)))) w0 .config 3 7#32 &&
    (fun (s : State) (m : Rm) (k : Fin 16) (v : W32) => decide (s.Inv ∧ s.ringReady m (aCC_SEL k.val))) w0 .core0 3 7#32 &&
    (fun (s : State) (b : Fin 64) (k : Nat) => decide (s.Inv ∧ s.hubRuns ∧ (tget (fun _ => (0,
      false)) s.banks.wake b.val = (k + 1, true)) ∧ (k ≤ s.now) ∧ (s.domState (64 + b.val) = 1))) ((wWake true)) 3 4 &&
    (fun (s : State) (b : Fin 64) (k : Nat) => decide (s.Inv ∧ s.hubRuns ∧ (tget (fun _ => (0,
      false)) s.banks.wake b.val = (k + 1, false)) ∧ (k ≤ s.now) ∧ (s.domState (64 + b.val) = 1))) ((wWake false)) 3 4 &&
    (fun (s : State) (b : Fin 64) => decide (s.Inv ∧ ((s.hubRuns = false ∨ (tget (fun _ => (0, false)) s.banks.wake b.val).1 = 0 ∨
      s.now + 1 < (tget (fun _ => (0, false)) s.banks.wake b.val).1 ∨ s.domState (64 + b.val) ≠ 1)))) w0 3 &&
    (fun (s : State) (m : Rm) (b : Fin 64) => decide (s.Inv ∧ s.ringReady m aBIST_CTRL ∧ m ≠ .config ∧ (s.banks.bist = none) ∧
      s.domOn (64 + b.val))) w0 .core0 3 &&
    (fun (s : State) (m : Rm) (b : Fin 64) => decide (s.Inv ∧ s.ringReady m aBIST_CTRL ∧ ((m = .config ∨ s.banks.bist ≠ none ∨
      s.domState (64 + b.val) ≠ 3)))) w0 .config 3 &&
    (fun (s : State) (m : Rm) (x : Bist) => decide (s.Inv ∧ s.ringReady m aBIST_CTRL ∧ (s.banks.bist = some x) ∧
      (s.bit aBIST_CTRL fBIST_CTRL_GO = false))) ((wBist 0)) .core0 (⟨3, 0, 0, false⟩) &&
    (fun (s : State) (m : Rm) => decide (s.Inv ∧ s.ringReady m aBIST_CTRL ∧ (s.banks.bist = none) ∧
      (s.bit aBIST_CTRL fBIST_CTRL_GO = false))) w0 .core0 &&
    (fun (s : State) (x : Bist) => decide (s.Inv ∧ (s.banks.bist = some x) ∧ s.hubRuns ∧ (s.bistPaused = false) ∧ ((s.frozen 4 ∨
      (∃ r ∈ s.mq, forBank x.bank r ∧ s.pausesBist r))))) ({ wBist 0 with mq := [wBankReq 0x60 true] }) (⟨3, 0, 0, false⟩) &&
    (fun (s : State)  => decide (s.Inv ∧ ((s.hubRuns = false ∨ s.banks.bist = none ∨ s.bistPaused ∨ (s.frozen 4 = false ∧
      s.banks.bist.any (fun x => !s.mq.any (fun r => forBank x.bank r && s.pausesBist r))))))) w0 &&
    (fun (s : State)  => decide (s.Inv ∧ ((s.hubRuns = false ∨ s.banks.bist = none ∨ s.bistPaused = false ∨ s.frozen 4 ∨
      s.banks.bist.any (fun x => decide (s.now < x.quietAt + 1280) || s.mq.any (fun r => forBank x.bank r && s.pausesBist r)))))) w0 &&
    (fun (s : State)  => decide (s.Inv ∧ ((s.hubRuns = false ∨ s.banks.bist = none ∨
      s.banks.bist.any (fun x => !x.aborting && x.cycles != 65536))))) w0 &&
    (fun (s : State) (x : Bist) => decide (s.Inv ∧ (s.banks.bist = some x) ∧ s.hubRuns ∧ s.bistPaused ∧ (s.frozen 4 = false) ∧
      (x.quietAt + 1280 ≤ s.now) ∧
      (s.mq.all (fun r => !(forBank x.bank r && s.pausesBist r))))) ((tk 1280 (setAll (wBist 0) [(aBIST_STATUS,
      fBIST_STATUS_PAUSED, 1)]))) (⟨3, 0, 0, false⟩) &&
    (fun (s : State) (x : Bist) => decide (s.Inv ∧ (s.banks.bist = some x) ∧ s.hubRuns ∧ ((x.aborting ∨
      x.cycles = 65536)))) ((wBist 65536)) (⟨3, 65536, 0, false⟩) &&
    (fun (s : State) (x : Bist) (w : Fin 8192) (l : List (Fin 8192)) => decide (s.Inv ∧ (s.banks.bist = some x) ∧ s.hubRuns ∧
      ((x.aborting ∨ x.cycles = 65536)))) ((wBist 65536)) (⟨3, 65536, 0, false⟩) 5 ([2])) = true := by decide +kernel

theorem witness_DmaEngines :
    ((fun (s : State) (m : Rm) (e : Fin 4) (k : Nat) => decide (s.Inv ∧ s.ringReady m (aDMA_CTRL e.val) ∧
      s.bit (aDMA_CTRL e.val) fDMA_CTRL_EN ∧ (s.bit (aDMA_CTRL e.val) fDMA_CTRL_DIS = false) ∧
      (s.bit (aDMA_STATUS e.val) fDMA_STATUS_BUSY = false) ∧ (s.reg64 (aDMA_HEAD_LO e.val) (aDMA_HEAD_HI e.val) = k) ∧
      (k / 2 ^ 48 = s.devId) ∧ (classOf (k % 2 ^ 48) = .banks) ∧ (k % 32 = 0))) ((wDma 0x200000000040)) .core0 2 0x200000000040 &&
    (fun (s : State) (m : Rm) (e : Fin 4) (k : Nat) => decide (s.Inv ∧ s.ringReady m (aDMA_CTRL e.val) ∧
      s.bit (aDMA_CTRL e.val) fDMA_CTRL_EN ∧ (s.bit (aDMA_CTRL e.val) fDMA_CTRL_DIS = false) ∧
      (s.bit (aDMA_STATUS e.val) fDMA_STATUS_BUSY = false) ∧ (s.reg64 (aDMA_HEAD_LO e.val) (aDMA_HEAD_HI e.val) = k) ∧
      ((k / 2 ^ 48 ≠ s.devId ∨ classOf (k % 2 ^ 48) ≠ .banks ∨ k % 32 ≠ 0)))) ((wDma 0x200000000044)) .core0 2 0x200000000044 &&
    (fun (s : State) (m : Rm) (e : Fin 4) => decide (s.Inv ∧ s.ringReady m (aDMA_CTRL e.val) ∧
      ((s.bit (aDMA_CTRL e.val) fDMA_CTRL_EN = false ∨ s.bit (aDMA_STATUS e.val) fDMA_STATUS_BUSY)))) ((setAll w0 [(aDMA_CTRL 2,
      fDMA_CTRL_EN, 0)])) .core0 2 &&
    (fun (s : State) (m : Rm) (e : Fin 4) => decide (s.Inv ∧ s.ringReady m (aDMA_CTRL e.val) ∧
      s.bit (aDMA_CTRL e.val) fDMA_CTRL_EN ∧ s.bit (aDMA_CTRL e.val) fDMA_CTRL_DIS ∧
      (s.bit (aDMA_CTRL e.val) fDMA_CTRL_FORCE = false) ∧
      (s.bit (aDMA_STATUS e.val) fDMA_STATUS_BUSY = false))) ((setAll (wDma 0) [(aDMA_CTRL 2, fDMA_CTRL_DIS, 1)])) .core0 2 &&
    (fun (s : State) (m : Rm) (e : Fin 4) (f : Bool) => decide (s.Inv ∧ s.ringReady m (aDMA_CTRL e.val) ∧
      (s.bit (aDMA_CTRL e.val) fDMA_CTRL_GO = false) ∧ ((s.bit (aDMA_CTRL e.val) fDMA_CTRL_EN ∨ (s.dma e.val).draining)) ∧
      ((s.dma e.val).pieces = []) ∧ ((s.dma e.val).fetching = false))) ((wDma 0)) .core0 2 false &&
    (fun (s : State) (m : Rm) (e : Fin 4) => decide (s.Inv ∧ s.ringReady m (aDMA_CTRL e.val) ∧
      (s.bit (aDMA_CTRL e.val) fDMA_CTRL_GO = false) ∧
      s.bit (aDMA_CTRL e.val) fDMA_CTRL_EN)) (((wDma 0).setDma 2 { Dma.empty with fetching := true })) .core0 2 &&
    (fun (s : State) (m : Rm) (e : Fin 4) (f : Bool) => decide (s.Inv ∧ s.ringReady m (aDMA_CTRL e.val) ∧
      (s.bit (aDMA_CTRL e.val) fDMA_CTRL_GO = false) ∧ ((s.bit (aDMA_CTRL e.val) fDMA_CTRL_EN ∨ (s.dma e.val).draining)) ∧
      ((f = false ∨ s.bit (aDMA_CTRL e.val) fDMA_CTRL_EN = false)) ∧ (((s.dma e.val).pieces ≠ [] ∨
      (s.dma e.val).fetching)))) (((wDma 0).setDma 2 { Dma.empty with fetching := true })) .core0 2 false &&
    (fun (s : State) (m : Rm) (e : Fin 4) (f : Bool) => decide (s.Inv ∧ s.ringReady m (aDMA_CTRL e.val) ∧
      (s.bit (aDMA_CTRL e.val) fDMA_CTRL_GO = false) ∧ (s.bit (aDMA_CTRL e.val) fDMA_CTRL_EN = false) ∧
      ((s.dma e.val).draining = false))) ((setAll w0 [(aDMA_CTRL 2, fDMA_CTRL_EN, 0)])) .core0 2 false &&
    (fun (s : State) (m : Rm) (e : Fin 4) => decide (s.Inv ∧ s.ringReady m (aDMA_CTRL e.val) ∧
      (s.bit (aDMA_CTRL e.val) fDMA_CTRL_GO = false))) w0 .core0 2 &&
    (fun (s : State) (e : Fin 4) (d : Desc) => decide (s.Inv ∧ s.hubRuns ∧ ((s.dma e.val).desc = some d) ∧
      ((s.dma e.val).issued = d.len) ∧ ((s.dma e.val).pieces = []) ∧ s.bit (aDMA_STATUS e.val) fDMA_STATUS_BUSY ∧
      ((s.dma e.val).draining = false) ∧ d.last)) ((wDesc true)) 2 ((wDescr true)) &&
    (fun (s : State) (e : Fin 4) (d : Desc) (k : Nat) => decide (s.Inv ∧ s.hubRuns ∧ ((s.dma e.val).desc = some d) ∧
      ((s.dma e.val).issued = d.len) ∧ ((s.dma e.val).pieces = []) ∧ s.bit (aDMA_STATUS e.val) fDMA_STATUS_BUSY ∧
      ((s.dma e.val).draining = false) ∧ (d.last = false) ∧ (d.next = k) ∧ (s.frozen e.val = false) ∧ s.domOn 24 ∧
      (k / 2 ^ 48 = s.devId) ∧ (classOf (k % 2 ^ 48) = .banks) ∧
      (k % 32 = 0))) ((wDesc false)) 2 ((wDescr false)) 0x200000000040 &&
    (fun (s : State) (e : Fin 4) (d : Desc) (k : Nat) => decide (s.Inv ∧ s.hubRuns ∧ ((s.dma e.val).desc = some d) ∧
      ((s.dma e.val).issued = d.len) ∧ ((s.dma e.val).pieces = []) ∧ s.bit (aDMA_STATUS e.val) fDMA_STATUS_BUSY ∧
      ((s.dma e.val).draining = false) ∧ (d.last = false) ∧ (d.next = k) ∧ (s.frozen e.val = false) ∧ s.domOn 24 ∧
      ((k / 2 ^ 48 ≠ s.devId ∨ classOf (k % 2 ^ 48) ≠ .banks ∨
      k % 32 ≠ 0)))) (((wDesc false).setDma 2 { ((wDesc false).dma 2) with desc := some { wDescr false with next := 4 } })) 2 ({ wDescr false with next := 4 }) 4 &&
    (fun (s : State) (e : Fin 4) (d : Desc) => decide (s.Inv ∧ s.hubRuns ∧ ((s.dma e.val).desc = some d) ∧
      ((s.dma e.val).issued = d.len) ∧ ((s.dma e.val).pieces = []) ∧ s.bit (aDMA_STATUS e.val) fDMA_STATUS_BUSY ∧
      ((s.dma e.val).draining = false) ∧ (d.last = false) ∧ ((s.frozen e.val ∨
      s.domOn 24 = false)))) ((setAll (wDesc false) [(aPWR_STATE 1, ⟨16, 2⟩, 0)])) 2 ((wDescr false)) &&
    (fun (s : State) (e : Fin 4) (d : Desc) => decide (s.Inv ∧ s.hubRuns ∧ ((s.dma e.val).desc = some d) ∧
      ((s.dma e.val).issued = d.len) ∧ ((s.dma e.val).pieces = []) ∧ s.bit (aDMA_STATUS e.val) fDMA_STATUS_BUSY ∧
      (s.dma e.val).draining ∧
      ((s.dma e.val).fetching = false))) (((wDesc true).setDma 2 { ((wDesc true).dma 2) with draining := true })) 2 ((wDescr true)) &&
    (fun (s : State) (e : Fin 4) => decide (s.Inv ∧ ((s.hubRuns = false ∨ (s.dma e.val).desc = none ∨ (s.dma e.val).pieces ≠ [] ∨
      s.bit (aDMA_STATUS e.val) fDMA_STATUS_BUSY = false ∨
      (s.dma e.val).desc.any (fun d => (s.dma e.val).issued != d.len))))) w0 2) = true := by decide +kernel

theorem witness_QdrService :
    ((fun (s : State) (q : Fin 4) (flips : List (Fin 4 × Fin 72)) => decide (s.Inv ∧ (s.hubRuns = false))) ((ph .stopped)) 2 ([]) &&
    (fun (s : State) (q : Fin 4) (flips : List (Fin 4 × Fin 72)) => decide (s.Inv ∧ s.hubRuns ∧
      (((s.qdr q.val).reads.any (fun r => r.tick == s.tickN + 40) ∨
      (s.bankAt (s.tickN + 40)).all (fun x => (injWinner (s.injEntries 6 (qdrNi q.val) x.1 x.2.1 x.2.2 (s.tickN + 40))).isNone))) ∧
      (∀ w ∈ (s.qdr q.val).writes, w.tick ≠ s.tickN))) w0 2 ([]) &&
    (fun (s : State) (q : Fin 4) (k p b i f : Nat) (e : BitVec 128) (flips : List (Fin 4 × Fin 72)) (v : State) (ws : List W64) => decide (s.Inv ∧
      s.hubRuns ∧ (∀ r ∈ (s.qdr q.val).reads, r.tick ≠ s.tickN + 40) ∧ (s.bankAt (s.tickN + 40) = some (k, p, b)) ∧
      (injWinner (s.injEntries 6 (qdrNi q.val) k p b (s.tickN + 40)) = some (i, e, f)) ∧
      (s.bit (aQ_STATUS q.val) fQ_STATUS_SDRAINED = false) ∧ s.qdrReady q.val ∧ svcV (s.svcEntry q.val k false i) ∧
      (s.qdrCrowded q.val s.tickN = false) ∧ (∀ w ∈ (s.qdr q.val).writes, w.tick ≠ s.tickN) ∧
      (s.qdrWords q.val (4 * (svcUnit (s.svcEntry q.val k false i) f ((s.tickN + 40 - f - b) / p))) (flips.map (fun f => (f.1.val,
      f.2.val))) 4 = (v, some ws)))) ((wQdr 0x100000)) 2 0 256 0 0 0 wQdrEnt ([]) ((wQdr 0x100000)) ([0#64, 0#64, 0#64, 0#64]) &&
    (fun (s : State) (q : Fin 4) (k p b i f : Nat) (e : BitVec 128) (flips : List (Fin 4 × Fin 72)) (v : State) => decide (s.Inv ∧
      s.hubRuns ∧ (∀ r ∈ (s.qdr q.val).reads, r.tick ≠ s.tickN + 40) ∧ (s.bankAt (s.tickN + 40) = some (k, p, b)) ∧
      (injWinner (s.injEntries 6 (qdrNi q.val) k p b (s.tickN + 40)) = some (i, e, f)) ∧
      (s.bit (aQ_STATUS q.val) fQ_STATUS_SDRAINED = false) ∧ s.qdrReady q.val ∧ svcV (s.svcEntry q.val k false i) ∧
      (s.qdrCrowded q.val s.tickN = false) ∧ (∀ w ∈ (s.qdr q.val).writes, w.tick ≠ s.tickN) ∧
      (s.qdrWords q.val (4 * (svcUnit (s.svcEntry q.val k false i) f ((s.tickN + 40 - f - b) / p))) (flips.map (fun f => (f.1.val,
      f.2.val))) 4 = (v, none)))) ((wQdr 0x100000)) 2 0 256 0 0 0 wQdrEnt ([(1, 3), (1,
      9)]) (((wQdr 0x100000).qdrWords 2 (4 * svcUnit 0x100000#64 0 2) [(1, 3), (1, 9)] 4).1) &&
    (fun (s : State) (q : Fin 4) (k p b i f : Nat) (e : BitVec 128) (flips : List (Fin 4 × Fin 72)) => decide (s.Inv ∧ s.hubRuns ∧
      (∀ r ∈ (s.qdr q.val).reads, r.tick ≠ s.tickN + 40) ∧ (s.bankAt (s.tickN + 40) = some (k, p, b)) ∧
      (injWinner (s.injEntries 6 (qdrNi q.val) k p b (s.tickN + 40)) = some (i, e, f)) ∧ (∀ w ∈ (s.qdr q.val).writes,
      w.tick ≠ s.tickN) ∧ s.bit (aQ_STATUS q.val) fQ_STATUS_SDRAINED)) ((setAll (wQdr 0x100000) [(aQ_STATUS 2,
      fQ_STATUS_SDRAINED, 1)])) 2 0 256 0 0 0 wQdrEnt ([]) &&
    (fun (s : State) (q : Fin 4) (k p b i f : Nat) (e : BitVec 128) (flips : List (Fin 4 × Fin 72)) => decide (s.Inv ∧ s.hubRuns ∧
      (∀ r ∈ (s.qdr q.val).reads, r.tick ≠ s.tickN + 40) ∧ (s.bankAt (s.tickN + 40) = some (k, p, b)) ∧
      (injWinner (s.injEntries 6 (qdrNi q.val) k p b (s.tickN + 40)) = some (i, e, f)) ∧ (∀ w ∈ (s.qdr q.val).writes,
      w.tick ≠ s.tickN) ∧ (s.bit (aQ_STATUS q.val) fQ_STATUS_SDRAINED = false) ∧
      (s.qdrReady q.val = false))) ((setAll (wQdr 0x100000) [(aQ_STATUS 2, fQ_STATUS_STATE, 0)])) 2 0 256 0 0 0 wQdrEnt ([]) &&
    (fun (s : State) (q : Fin 4) (k p b i f : Nat) (e : BitVec 128) (flips : List (Fin 4 × Fin 72)) => decide (s.Inv ∧ s.hubRuns ∧
      (∀ r ∈ (s.qdr q.val).reads, r.tick ≠ s.tickN + 40) ∧ (s.bankAt (s.tickN + 40) = some (k, p, b)) ∧
      (injWinner (s.injEntries 6 (qdrNi q.val) k p b (s.tickN + 40)) = some (i, e, f)) ∧ (∀ w ∈ (s.qdr q.val).writes,
      w.tick ≠ s.tickN) ∧ (s.bit (aQ_STATUS q.val) fQ_STATUS_SDRAINED = false) ∧ s.qdrReady q.val ∧
      (svcV (s.svcEntry q.val k false i) = false))) ((wQdr 0)) 2 0 256 0 0 0 wQdrEnt ([]) &&
    (fun (s : State) (q : Fin 4) (k p b i f : Nat) (e : BitVec 128) (flips : List (Fin 4 × Fin 72)) => decide (s.Inv ∧ s.hubRuns ∧
      (∀ r ∈ (s.qdr q.val).reads, r.tick ≠ s.tickN + 40) ∧ (s.bankAt (s.tickN + 40) = some (k, p, b)) ∧
      (injWinner (s.injEntries 6 (qdrNi q.val) k p b (s.tickN + 40)) = some (i, e, f)) ∧ (∀ w ∈ (s.qdr q.val).writes,
      w.tick ≠ s.tickN) ∧ (s.bit (aQ_STATUS q.val) fQ_STATUS_SDRAINED = false) ∧ s.qdrReady q.val ∧
      svcV (s.svcEntry q.val k false i) ∧
      s.qdrCrowded q.val s.tickN)) (((wQdr 0x100000).setQdr 2 { Qdr.empty with lastDone := 472 })) 2 0 256 0 0 0 wQdrEnt ([]) &&
    (fun (s : State) (q : Fin 4) (k p b i f : Nat) (e : BitVec 128) (flips : List (Fin 4 × Fin 72)) (v : State) (ws : List W64) (w : QdrWrite) => decide (s.Inv ∧
      s.hubRuns ∧ (∀ r ∈ (s.qdr q.val).reads, r.tick ≠ s.tickN + 40) ∧ (s.bankAt (s.tickN + 40) = some (k, p, b)) ∧
      (injWinner (s.injEntries 6 (qdrNi q.val) k p b (s.tickN + 40)) = some (i, e, f)) ∧
      (s.bit (aQ_STATUS q.val) fQ_STATUS_SDRAINED = false) ∧ s.qdrReady q.val ∧ svcV (s.svcEntry q.val k false i) ∧
      (s.qdrCrowded q.val s.tickN = false) ∧ ((s.qdr q.val).writes.filter (fun w => w.tick == s.tickN) = [w]) ∧
      svcV (s.svcEntry q.val w.bank true w.idx) ∧
      (s.qdrWords q.val (4 * (svcUnit (s.svcEntry q.val k false i) f ((s.tickN + 40 - f - b) / p))) (flips.map (fun f => (f.1.val,
      f.2.val))) 4 = (v, some ws)))) wQdrRW 2 0 256 0 0 0 wQdrEnt ([]) wQdrRW ([0#64, 0#64, 0#64,
      0#64]) ({ wQdrWrite with tick := 472 }) &&
    (fun (s : State) (q : Fin 4) (w : QdrWrite) (flips : List (Fin 4 × Fin 72)) => decide (s.Inv ∧ s.hubRuns ∧
      (((s.qdr q.val).reads.any (fun r => r.tick == s.tickN + 40) ∨
      (s.bankAt (s.tickN + 40)).all (fun x => (injWinner (s.injEntries 6 (qdrNi q.val) x.1 x.2.1 x.2.2 (s.tickN + 40))).isNone))) ∧
      ((s.qdr q.val).writes.filter (fun w => w.tick == s.tickN) = [w]) ∧ (s.bit (aQ_STATUS q.val) fQ_STATUS_SDRAINED = false) ∧
      s.qdrReady q.val ∧ svcV (s.svcEntry q.val w.bank true w.idx) ∧ (s.qdr q.val).lastDone ≠ s.tickN + 1 ∧
      (s.qdrCrowded q.val s.tickN = false))) wQdrWr 2 wQdrWrite ([]) &&
    (fun (s : State) (q : Fin 4) (w : QdrWrite) (flips : List (Fin 4 × Fin 72)) => decide (s.Inv ∧ s.hubRuns ∧
      (((s.qdr q.val).reads.any (fun r => r.tick == s.tickN + 40) ∨
      (s.bankAt (s.tickN + 40)).all (fun x => (injWinner (s.injEntries 6 (qdrNi q.val) x.1 x.2.1 x.2.2 (s.tickN + 40))).isNone))) ∧
      ((s.qdr q.val).writes.filter (fun w => w.tick == s.tickN) = [w]) ∧ (s.bit (aQ_STATUS q.val) fQ_STATUS_SDRAINED = false) ∧
      s.qdrReady q.val ∧ (svcV (s.svcEntry q.val w.bank true w.idx) = false))) ({ wQdrWr with qdrSvc := [] }) 2 wQdrWrite ([]) &&
    (fun (s : State) (q : Fin 4) (w : QdrWrite) (flips : List (Fin 4 × Fin 72)) => decide (s.Inv ∧ s.hubRuns ∧
      (((s.qdr q.val).reads.any (fun r => r.tick == s.tickN + 40) ∨
      (s.bankAt (s.tickN + 40)).all (fun x => (injWinner (s.injEntries 6 (qdrNi q.val) x.1 x.2.1 x.2.2 (s.tickN + 40))).isNone))) ∧
      ((s.qdr q.val).writes.filter (fun w => w.tick == s.tickN) = [w]) ∧ (s.bit (aQ_STATUS q.val) fQ_STATUS_SDRAINED = false) ∧
      s.qdrReady q.val ∧ svcV (s.svcEntry q.val w.bank true w.idx) ∧ (((s.qdr q.val).lastDone = s.tickN + 1 ∨
      s.qdrCrowded q.val s.tickN)))) ((wQdrWr.setQdr 2 { (wQdrWr.qdr 2) with lastDone := 1 })) 2 wQdrWrite ([]) &&
    (fun (s : State) (q : Fin 4) (w : QdrWrite) (flips : List (Fin 4 × Fin 72)) => decide (s.Inv ∧ s.hubRuns ∧
      (((s.qdr q.val).reads.any (fun r => r.tick == s.tickN + 40) ∨
      (s.bankAt (s.tickN + 40)).all (fun x => (injWinner (s.injEntries 6 (qdrNi q.val) x.1 x.2.1 x.2.2 (s.tickN + 40))).isNone))) ∧
      ((s.qdr q.val).writes.filter (fun w => w.tick == s.tickN) = [w]) ∧ ((s.bit (aQ_STATUS q.val) fQ_STATUS_SDRAINED ∨
      s.qdrReady q.val = false)))) ((setAll wQdrWr [(aQ_STATUS 2, fQ_STATUS_SDRAINED, 1)])) 2 wQdrWrite ([]) &&
    (fun (s : State) (q : Fin 4) (flips : List (Fin 32 × Fin 72)) => decide (s.Inv ∧ ((s.hubRuns = false ∨
      s.mq.find? (forPair q.val) = none)))) w0 2 ([]) &&
    (fun (s : State) (q : Fin 4) (r : MemReq) (flips : List (Fin 32 × Fin 72)) => decide (s.Inv ∧ s.hubRuns ∧
      (s.mq.find? (forPair q.val) = some r) ∧ ((s.qdrReady q.val = false ∨ s.bit (aQ_CTRL q.val) fQ_CTRL_EN = false ∨
      (s.qdr q.val).disAt.any (fun k => decide (k ≤ r.arrivedAt)))))) ((setAll (wQdrBe true) [(aQ_CTRL 2, fQ_CTRL_EN,
      0)])) 2 (wQdrReq true) ([]) &&
    (fun (s : State) (q : Fin 4) (r : MemReq) (flips : List (Fin 32 × Fin 72)) => decide (s.Inv ∧ s.hubRuns ∧
      (s.mq.find? (forPair q.val) = some r) ∧ s.qdrReady q.val ∧ s.bit (aQ_CTRL q.val) fQ_CTRL_EN ∧
      ((s.qdr q.val).disAt.any (fun k => decide (k ≤ r.arrivedAt)) = false) ∧ s.bit (aQ_CTRL q.val) fQ_CTRL_DIS ∧
      s.bit (aQ_CTRL q.val) fQ_CTRL_FORCE)) ((setAll (wQdrBe true) [(aQ_CTRL 2, fQ_CTRL_DIS, 1), (aQ_CTRL 2, fQ_CTRL_FORCE,
      1)])) 2 (wQdrReq true) ([]) &&
    (fun (s : State) (q : Fin 4) (r : MemReq) (flips : List (Fin 32 × Fin 72)) (v : State) (ws : List W64) => decide (s.Inv ∧
      s.hubRuns ∧ (s.mq.find? (forPair q.val) = some r) ∧ s.qdrReady q.val ∧ s.bit (aQ_CTRL q.val) fQ_CTRL_EN ∧
      ((s.qdr q.val).disAt.any (fun k => decide (k ≤ r.arrivedAt)) = false) ∧ ((s.bit (aQ_CTRL q.val) fQ_CTRL_DIS = false ∨
      s.bit (aQ_CTRL q.val) fQ_CTRL_FORCE = false)) ∧ (r.write = false) ∧ 0 < r.count ∧
      (s.qdrWords q.val ((qdrLocal r.addr) / 8) (flips.map (fun f => (f.1.val,
      f.2.val))) (((qdrLocal r.addr) + r.count - 1) / 8 + 1 - (qdrLocal r.addr) / 8) = (v,
      some ws)))) ((wQdrBe false)) 2 (wQdrReq false) ([]) ((wQdrBe false)) ([0#64]) &&
    (fun (s : State) (q : Fin 4) (r : MemReq) (flips : List (Fin 32 × Fin 72)) (v : State) => decide (s.Inv ∧ s.hubRuns ∧
      (s.mq.find? (forPair q.val) = some r) ∧ s.qdrReady q.val ∧ s.bit (aQ_CTRL q.val) fQ_CTRL_EN ∧
      ((s.qdr q.val).disAt.any (fun k => decide (k ≤ r.arrivedAt)) = false) ∧ ((s.bit (aQ_CTRL q.val) fQ_CTRL_DIS = false ∨
      s.bit (aQ_CTRL q.val) fQ_CTRL_FORCE = false)) ∧ (r.write = false) ∧ 0 < r.count ∧
      (s.qdrWords q.val ((qdrLocal r.addr) / 8) (flips.map (fun f => (f.1.val,
      f.2.val))) (((qdrLocal r.addr) + r.count - 1) / 8 + 1 - (qdrLocal r.addr) / 8) = (v,
      none)))) ((wQdrBe false)) 2 (wQdrReq false) ([(0, 3), (0, 9)]) (((wQdrBe false).qdrWords 2 8 [(0, 3), (0, 9)] 1).1) &&
    (fun (s : State) (q : Fin 4) (r : MemReq) (flips : List (Fin 32 × Fin 72)) (d : W64) => decide (s.Inv ∧ s.hubRuns ∧
      (s.mq.find? (forPair q.val) = some r) ∧ s.qdrReady q.val ∧ s.bit (aQ_CTRL q.val) fQ_CTRL_EN ∧
      ((s.qdr q.val).disAt.any (fun k => decide (k ≤ r.arrivedAt)) = false) ∧ ((s.bit (aQ_CTRL q.val) fQ_CTRL_DIS = false ∨
      s.bit (aQ_CTRL q.val) fQ_CTRL_FORCE = false)) ∧ (r.write = false) ∧ 0 < r.count ∧ ((qdrLocal r.addr) % 8 = 0) ∧
      (r.count = 8) ∧ (flips.all (fun f => f.1.val == 0)) ∧
      (qdrDecode ((s.qdrRaw q.val ((qdrLocal r.addr) / 8) (flips.map (fun f => f.2.val)))).1 ((s.qdrRaw q.val ((qdrLocal r.addr) / 8) (flips.map (fun f => f.2.val)))).2 = (d,
      1)))) ((wQdrBe false)) 2 (wQdrReq false) ([(0, 3)]) 0#64 &&
    (fun (s : State) (q : Fin 4) (r : MemReq) (flips : List (Fin 32 × Fin 72)) (d : W64) => decide (s.Inv ∧ s.hubRuns ∧
      (s.mq.find? (forPair q.val) = some r) ∧ s.qdrReady q.val ∧ s.bit (aQ_CTRL q.val) fQ_CTRL_EN ∧
      ((s.qdr q.val).disAt.any (fun k => decide (k ≤ r.arrivedAt)) = false) ∧ ((s.bit (aQ_CTRL q.val) fQ_CTRL_DIS = false ∨
      s.bit (aQ_CTRL q.val) fQ_CTRL_FORCE = false)) ∧ (r.write = false) ∧ 0 < r.count ∧ ((qdrLocal r.addr) % 8 = 0) ∧
      (r.count = 8) ∧ (flips.all (fun f => f.1.val == 0)) ∧
      (qdrDecode ((s.qdrRaw q.val ((qdrLocal r.addr) / 8) (flips.map (fun f => f.2.val)))).1 ((s.qdrRaw q.val ((qdrLocal r.addr) / 8) (flips.map (fun f => f.2.val)))).2 = (d,
      2)))) ((wQdrBe false)) 2 (wQdrReq false) ([(0, 3), (0, 9)]) (((qdrDecode 0x208#64 0#8).1)) &&
    (fun (s : State) (q : Fin 4) (r : MemReq) => decide (s.Inv ∧ s.hubRuns ∧ (s.mq.find? (forPair q.val) = some r) ∧
      s.qdrReady q.val ∧ s.bit (aQ_CTRL q.val) fQ_CTRL_EN ∧
      ((s.qdr q.val).disAt.any (fun k => decide (k ≤ r.arrivedAt)) = false) ∧ ((s.bit (aQ_CTRL q.val) fQ_CTRL_DIS = false ∨
      s.bit (aQ_CTRL q.val) fQ_CTRL_FORCE = false)) ∧ r.write ∧ (r.count ≤ 256) ∧ 0 < r.count ∧ ((((qdrLocal r.addr) % 8 = 0 ∧
      r.count % 8 = 0) ∨ [(qdrLocal r.addr) / 8,
      ((qdrLocal r.addr) + r.count - 1) / 8].all (fun j => (qdrDecode (s.qdrRaw q.val j []).1 (s.qdrRaw q.val j []).2).2 == 0))))) ((wQdrBe true)) 2 (wQdrReq true) &&
    (fun (s : State) (q : Fin 4) (r : MemReq) (flips : List (Fin 32 × Fin 72)) (v : State) => decide (s.Inv ∧ s.hubRuns ∧
      (s.mq.find? (forPair q.val) = some r) ∧ s.qdrReady q.val ∧ s.bit (aQ_CTRL q.val) fQ_CTRL_EN ∧
      ((s.qdr q.val).disAt.any (fun k => decide (k ≤ r.arrivedAt)) = false) ∧ ((s.bit (aQ_CTRL q.val) fQ_CTRL_DIS = false ∨
      s.bit (aQ_CTRL q.val) fQ_CTRL_FORCE = false)) ∧ r.write ∧ (r.count ≤ 256) ∧ 0 < r.count ∧ (((qdrLocal r.addr) % 8 ≠ 0 ∨
      r.count ≠ 8)) ∧ ((qdrLocal r.addr) % 8 + r.count ≤ 8) ∧ (flips.all (fun f => f.1.val == 0)) ∧
      (s.qdrWord q.val ((qdrLocal r.addr) / 8) (flips.map (fun f => f.2.val)) = (v,
      none)))) ({ wQdrBe true with mq := [{ wQdrReq true with count := 3 }] }) 2 ({ wQdrReq true with count := 3 }) ([(0, 3),
      (0, 9)]) (({ wQdrBe true with mq := [{ wQdrReq true with count := 3 }] }.qdrWord 2 8 [3, 9]).1) &&
    (fun (s : State) (q : Fin 4) (r : MemReq) (flips : List (Fin 32 × Fin 72)) (v : State) (d : W64) => decide (s.Inv ∧
      s.hubRuns ∧ (s.mq.find? (forPair q.val) = some r) ∧ s.qdrReady q.val ∧ s.bit (aQ_CTRL q.val) fQ_CTRL_EN ∧
      ((s.qdr q.val).disAt.any (fun k => decide (k ≤ r.arrivedAt)) = false) ∧ ((s.bit (aQ_CTRL q.val) fQ_CTRL_DIS = false ∨
      s.bit (aQ_CTRL q.val) fQ_CTRL_FORCE = false)) ∧ r.write ∧ (r.count ≤ 256) ∧ 0 < r.count ∧ (((qdrLocal r.addr) % 8 ≠ 0 ∨
      r.count ≠ 8)) ∧ ((qdrLocal r.addr) % 8 + r.count ≤ 8) ∧ (flips.all (fun f => f.1.val == 0)) ∧
      (s.qdrWord q.val ((qdrLocal r.addr) / 8) (flips.map (fun f => f.2.val)) = (v,
      some d)))) ({ wQdrBe true with mq := [{ wQdrReq true with count := 3 }] }) 2 ({ wQdrReq true with count := 3 }) ([]) ({ wQdrBe true with mq := [{ wQdrReq true with count := 3 }] }) 0#64) = true := by decide +kernel

theorem witness_QdrControl :
    ((fun (s : State) (m : Rm) (q : Fin 4) => decide (s.Inv ∧ s.ringReady m (aQ_CTRL q.val) ∧
      s.qdrState q.val ≠ 3)) ((setAll w0 [(aQ_STATUS 2, fQ_STATUS_STATE, 1)])) .core0 2 &&
    (fun (s : State) (m : Rm) (q : Fin 4) => decide (s.Inv ∧ s.ringReady m (aQ_CTRL q.val) ∧
      (s.qdrState q.val = 3))) ((setAll w0 [(aQ_STATUS 2, fQ_STATUS_STATE, 3)])) .core0 2 &&
    (fun (s : State) (q : Fin 4) => decide (s.Inv ∧ s.hubRuns ∧ (s.qdrState q.val = 0) ∧ s.domOn (36 + q.val) ∧
      (s.fld (aQ_LB q.val) fQ_LB_DEPTH = 0))) ((setAll w0 [(aQ_STATUS 2, fQ_STATUS_STATE, 0)])) 2 &&
    (fun (s : State) (q : Fin 4) => decide (s.Inv ∧ s.hubRuns ∧ (s.qdrState q.val = 0) ∧ s.domOn (36 + q.val) ∧
      (s.fld (aQ_LB q.val) fQ_LB_DEPTH = 0))) ((setAll w0 [(aQ_STATUS 2, fQ_STATUS_STATE, 0)])) 2 &&
    (fun (s : State) (q : Fin 4) (k : Bool) => decide (s.Inv ∧ ((s.hubRuns = false ∨ s.qdrState q.val ≠ 0 ∨
      s.domOn (36 + q.val) = false ∨ s.fld (aQ_LB q.val) fQ_LB_DEPTH ≠ 0)))) ((setAll w0 [(aQ_STATUS 2, fQ_STATUS_STATE,
      1)])) 2 true &&
    (fun (s : State) (m : Rm) (q : Fin 4) (v : W32) => decide (s.Inv ∧ s.ringReady m (aQS_DATA_1 q.val) ∧
      (s.svcValid q.val = false))) ((setAll w0 [(aQS_ADDR 2, fQS_ADDR_WTAB, 1), (aQS_ADDR 2, fQS_ADDR_INDEX,
      2048)])) .core0 2 5#32 &&
    (fun (s : State) (m : Rm) (q : Fin 4) (v : W32) => decide (s.Inv ∧ s.ringReady m (aQS_DATA_1 q.val) ∧ s.svcValid q.val ∧
      s.svcWritable q.val)) ((setAll w0 [(aQS_ADDR 2, fQS_ADDR_BANK, w0.shBank)])) .core0 2 5#32 &&
    (fun (s : State) (m : Rm) (q : Fin 4) (v : W32) => decide (s.Inv ∧ s.ringReady m (aQS_DATA_1 q.val) ∧ s.svcValid q.val ∧
      (s.svcWritable q.val = false))) ((setAll w0 [(aQS_ADDR 2, fQS_ADDR_BANK, w0.actBank)])) .core0 2 5#32 &&
    (fun (s : State) (m : Rm) (q : Fin 4) => decide (s.Inv ∧ s.ringReady m (aQ_CTRL q.val) ∧
      (s.bit (aQ_CTRL q.val) fQ_CTRL_RETRAIN = false))) w0 .core0 2 &&
    (fun (s : State) (m : Rm) (q : Fin 4) (f : Bool) => decide (s.Inv ∧ s.ringReady m (aQ_CTRL q.val) ∧
      (s.bit (aQ_CTRL q.val) fQ_CTRL_RETRAIN = false))) w0 .core0 2 true &&
    (fun (s : State) (m : Rm) (q : Fin 4) => decide (s.Inv ∧ s.ringReady m (aQ_CTRL q.val))) w0 .core0 2 &&
    (fun (s : State) (m : Rm) (q : Fin 4) => decide (s.Inv ∧ s.ringReady m (aQ_LB q.val) ∧ s.fld (aQ_LB q.val) fQ_LB_DEPTH ≠ 0 ∧
      (s.bit (aQ_LB q.val) fQ_LB_BUSY = false))) ((setAll w0 [(aQ_LB 2, fQ_LB_DEPTH, 1)])) .core0 2 &&
    (fun (s : State) (m : Rm) (q : Fin 4) => decide (s.Inv ∧ s.ringReady m (aQ_LB q.val) ∧ ((s.fld (aQ_LB q.val) fQ_LB_DEPTH = 0 ∨
      s.bit (aQ_LB q.val) fQ_LB_BUSY)))) w0 .core0 2 &&
    (fun (s : State) (q : Fin 4) (v : BitVec 144) => decide (s.Inv ∧ s.hubRuns ∧
      s.bit (aQ_LB q.val) fQ_LB_BUSY)) ((setAll w0 [(aQ_LB 2, fQ_LB_BUSY, 1)])) 2 5#144 &&
    (fun (s : State) (q : Fin 4) (v : BitVec 144) => decide (s.Inv ∧ ((s.hubRuns = false ∨
      s.bit (aQ_LB q.val) fQ_LB_BUSY = false)))) w0 2 5#144 &&
    (fun (s : State) (m : Rm) (q : Fin 4) (d : BitVec 2) => decide (s.Inv ∧ s.ringReady m (aQ_LB q.val) ∧
      (d.toNat = s.fld (aQ_LB q.val) fQ_LB_DEPTH))) w0 .core0 2 0#2 &&
    (fun (s : State) (m : Rm) (q : Fin 4) => decide (s.Inv ∧ s.ringReady m (aQ_LB q.val) ∧ s.qdrQuiet q.val ∧
      s.fld (aQ_LB q.val) fQ_LB_DEPTH ≠ 0 ∧ (s.qdrState q.val = 3))) ((setAll w0 [(aQ_STATUS 2, fQ_STATUS_STATE, 3),
      (aQ_STATUS 2, fQ_STATUS_DRAINED, 1), (aQ_STATUS 2, fQ_STATUS_SDRAINED, 1), (aQ_LB 2, fQ_LB_DEPTH, 1)])) .core0 2 &&
    (fun (s : State) (m : Rm) (q : Fin 4) (d : BitVec 2) => decide (s.Inv ∧ s.ringReady m (aQ_LB q.val) ∧ s.qdrQuiet q.val ∧
      d ≠ 0#2)) ((setAll w0 [(aQ_STATUS 2, fQ_STATUS_STATE, 2)])) .core0 2 1#2 &&
    (fun (s : State) (m : Rm) (q : Fin 4) => decide (s.Inv ∧ s.ringReady m (aQ_LB q.val) ∧ s.qdrQuiet q.val ∧
      s.fld (aQ_LB q.val) fQ_LB_DEPTH ≠ 0 ∧ s.qdrState q.val ≠ 3)) ((setAll w0 [(aQ_STATUS 2, fQ_STATUS_STATE, 2), (aQ_LB 2,
      fQ_LB_DEPTH, 1)])) .core0 2 &&
    (fun (s : State) (m : Rm) (q : Fin 4) (d : BitVec 2) => decide (s.Inv ∧ s.ringReady m (aQ_LB q.val) ∧
      (s.qdrQuiet q.val = false) ∧ d.toNat ≠ s.fld (aQ_LB q.val) fQ_LB_DEPTH)) ((setAll w0 [(aQ_STATUS 2, fQ_STATUS_STATE, 1),
      (aQ_STATUS 2, fQ_STATUS_DRAINED, 0)])) .core0 2 1#2) = true := by decide +kernel

theorem witness_DramRequests :
    ((fun (s : State) (d : Fin 4) (e f : List SymErr) => decide (s.Inv ∧ ((s.hubRuns = false ∨
      s.mq.any (forSet d.val) = false)))) w0 1 ([]) ([]) &&
    (fun (s : State) (d : Fin 4) (e f : List SymErr) => decide (s.Inv ∧ (s.mq.any (s.dramTurnsAway d.val) = false) ∧
      ((s.bit (aDR_CTRL d.val) fDR_CTRL_DIS = false ∨ s.bit (aDR_CTRL d.val) fDR_CTRL_FORCE = false)) ∧
      (s.dramNext d.val = none))) w0 1 ([]) ([]) &&
    (fun (s : State) (d : Fin 4) (r : MemReq) (e f : List SymErr) => decide (s.Inv ∧ s.hubRuns ∧
      (s.mq.find? (s.dramTurnsAway d.val) = some r))) ((setAll (wDr (wDrReq true 256)) [(aDR_STATUS 1, fDR_STATUS_STATE,
      5)])) 1 (wDrReq true 256) ([]) ([]) &&
    (fun (s : State) (d : Fin 4) (r : MemReq) (e f : List SymErr) => decide (s.Inv ∧ s.hubRuns ∧
      (s.mq.any (s.dramTurnsAway d.val) = false) ∧ s.bit (aDR_CTRL d.val) fDR_CTRL_DIS ∧ s.bit (aDR_CTRL d.val) fDR_CTRL_FORCE ∧
      (s.mq.find? (forSet d.val) = some r))) ((setAll (wDr (wDrReq true 256)) [(aDR_CTRL 1, fDR_CTRL_DIS, 1), (aDR_CTRL 1,
      fDR_CTRL_FORCE, 1)])) 1 (wDrReq true 256) ([]) ([]) &&
    (fun (s : State) (d : Fin 4) (r : MemReq) (p : Bool) (e f : List SymErr) => decide (s.Inv ∧ s.dramServes d.val r p ∧
      (s.bit aKM_CTRL fKM_CTRL_EN = false) ∧ r.write ∧
      wholeLine r)) ((wDr (wDrReq true 256))) 1 (wDrReq true 256) false ([]) ([]) &&
    (fun (s : State) (d : Fin 4) (r : MemReq) (p : Bool) (e f : List SymErr) (x y l : List Byte) (ds : List Nat) => decide (s.Inv ∧
      s.dramServes d.val r p ∧ (s.bit aKM_CTRL fKM_CTRL_EN = false) ∧ r.write ∧ (wholeLine r = false) ∧
      (e.foldl addSymErr (s.bytes (lineOf r) 256, s.bytes (dramChk (lineOf r)) 64) = (x, y)) ∧
      (rsLine x y (s.erased d.val) = (l, ds,
      false)))) ((wDr (wDrReq true 4))) 1 (wDrReq true 4) false ([]) ([]) (List.replicate 256 0#8) (List.replicate 64 0#8) (List.replicate 256 0#8) ([]) &&
    (fun (s : State) (d : Fin 4) (r : MemReq) (p : Bool) (e f : List SymErr) (x y l : List Byte) (ds : List Nat) => decide (s.Inv ∧
      s.dramServes d.val r p ∧ (s.bit aKM_CTRL fKM_CTRL_EN = false) ∧ (r.write = false) ∧
      (e.foldl addSymErr (s.bytes (lineOf r) 256, s.bytes (dramChk (lineOf r)) 64) = (x, y)) ∧
      (rsLine x y (s.erased d.val) = (l, ds,
      false)))) ((wDr (wDrReq false 4))) 1 (wDrReq false 4) false ([]) ([]) (List.replicate 256 0#8) (List.replicate 64 0#8) (List.replicate 256 0#8) ([]) &&
    (fun (s : State) (d : Fin 4) (r : MemReq) (p : Bool) (e f : List SymErr) (x y l : List Byte) (ds : List Nat) => decide (s.Inv ∧
      s.dramServes d.val r p ∧ (s.bit aKM_CTRL fKM_CTRL_EN = false) ∧ ((r.write = false ∨ wholeLine r = false)) ∧
      (e.foldl addSymErr (s.bytes (lineOf r) 256, s.bytes (dramChk (lineOf r)) 64) = (x, y)) ∧
      (rsLine x y (s.erased d.val) = (l, ds,
      true)))) ((wDr (wDrReq false 4))) 1 (wDrReq false 4) false wNoise ([]) ((wNoise.foldl addSymErr (List.replicate 256 0#8,
      List.replicate 64 0#8)).1) ((wNoise.foldl addSymErr (List.replicate 256 0#8,
      List.replicate 64 0#8)).2) wNoiseOut.1 wNoiseOut.2.1 &&
    (fun (s : State) (d : Fin 4) (r : MemReq) (p : Bool) (e f : List SymErr) => decide (s.Inv ∧ s.dramServes d.val r p ∧
      s.bit aKM_CTRL fKM_CTRL_EN ∧ (s.metaFirst ≤ dramLine (lineOf r)))) ((wKm wMetaReq 0)) 1 wMetaReq false ([]) ([]) &&
    (fun (s : State) (d : Fin 4) (r : MemReq) (p : Bool) (e f : List SymErr) => decide (s.Inv ∧ s.dramServes d.val r p ∧
      s.bit aKM_CTRL fKM_CTRL_EN ∧ dramLine (lineOf r) < s.metaFirst ∧
      (s.slotUsable (bitsOf r.addr 43 40) = false))) ((setAll (wKm (wDrReq false 4) 0) [(aKM_SLOT 0, fKM_SLOT_VALID,
      0)])) 1 (wDrReq false 4) false ([]) ([]) &&
    (fun (s : State) (d : Fin 4) (r : MemReq) (p : Bool) (e f : List SymErr) (v : State) => decide (s.Inv ∧
      s.dramServes d.val r p ∧ s.bit aKM_CTRL fKM_CTRL_EN ∧ dramLine (lineOf r) < s.metaFirst ∧
      s.slotUsable (bitsOf r.addr 43 40) ∧ (s.kmFetch d.val (s.metaOf r) r.master p f = (v,
      none)))) wKmBad 1 (wDrReq false 4) false ([]) wNoise ((wKmBad.kmFetch 1 (wKmBad.metaOf (wDrReq false 4)) 0x40 false wNoise).1) &&
    (fun (s : State) (d : Fin 4) (r : MemReq) (p : Bool) (e f : List SymErr) (v : State) (ln : List Byte) (ctr : W64) (tag : W32) (key : Nat) => decide (s.Inv ∧
      s.dramServes d.val r p ∧ s.bit aKM_CTRL fKM_CTRL_EN ∧ dramLine (lineOf r) < s.metaFirst ∧
      s.slotUsable (bitsOf r.addr 43 40) ∧ (s.kmFetch d.val (s.metaOf r) r.master p f = (v, some ln)) ∧
      (kmEntry ln (dramLine (lineOf r) % 20) = (ctr, tag, key)) ∧ (ctr = 0#64) ∧
      (r.write = false))) ((wKm (wDrReq false 4) 0)) 1 (wDrReq false 4) false ([]) ([]) ((wKm (wDrReq false 4) 0)) ((wKmLine 0).data) 0#64 0#32 0 &&
    (fun (s : State) (d : Fin 4) (r : MemReq) (p : Bool) (e f : List SymErr) (v : State) (ln : List Byte) (ctr : W64) (tag : W32) (key : Nat) => decide (s.Inv ∧
      s.dramServes d.val r p ∧ s.bit aKM_CTRL fKM_CTRL_EN ∧ dramLine (lineOf r) < s.metaFirst ∧
      s.slotUsable (bitsOf r.addr 43 40) ∧ (s.kmFetch d.val (s.metaOf r) r.master p f = (v, some ln)) ∧
      (kmEntry ln (dramLine (lineOf r) % 20) = (ctr, tag, key)) ∧ r.write ∧ ((ctr = 0#64 ∨ wholeLine r)) ∧
      ctr ≠ 0xFFFFFFFFFFFFFFFF#64)) ((wKm (wDrReq true 256) 7)) 1 (wDrReq true 256) false ([]) ([]) ((wKm (wDrReq true 256) 7)) ((wKmLine 7).data) 7#64 0#32 0 &&
    (fun (s : State) (d : Fin 4) (r : MemReq) (p : Bool) (e f : List SymErr) (v : State) (ln : List Byte) (ctr : W64) (tag : W32) (key : Nat) => decide (s.Inv ∧
      s.dramServes d.val r p ∧ s.bit aKM_CTRL fKM_CTRL_EN ∧ dramLine (lineOf r) < s.metaFirst ∧
      s.slotUsable (bitsOf r.addr 43 40) ∧ (s.kmFetch d.val (s.metaOf r) r.master p f = (v, some ln)) ∧
      (kmEntry ln (dramLine (lineOf r) % 20) = (ctr, tag, key)) ∧ r.write ∧
      (ctr = 0xFFFFFFFFFFFFFFFF#64))) wKmEnd 1 (wDrReq true 256) false ([]) ([]) wKmEnd wKmEndLine 0xFFFFFFFFFFFFFFFF#64 0#32 0 &&
    (fun (s : State) (d : Fin 4) (r : MemReq) (p : Bool) (e f : List SymErr) (v : State) (ln : List Byte) (ctr : W64) (tag : W32) (key : Nat) => decide (s.Inv ∧
      s.dramServes d.val r p ∧ s.bit aKM_CTRL fKM_CTRL_EN ∧ dramLine (lineOf r) < s.metaFirst ∧
      s.slotUsable (bitsOf r.addr 43 40) ∧ (s.kmFetch d.val (s.metaOf r) r.master p f = (v, some ln)) ∧
      (kmEntry ln (dramLine (lineOf r) % 20) = (ctr, tag, key)) ∧ ctr ≠ 0#64 ∧ ((r.write = false ∨ (wholeLine r = false ∧
      ctr ≠ 0xFFFFFFFFFFFFFFFF#64))) ∧ key ≠ (bitsOf r.addr 43 40))) ((setAll (wKm (wDrKey) 7) [(aKM_SLOT 5, fKM_SLOT_VALID,
      1)])) 1 wDrKey false ([]) ([]) ((setAll (wKm (wDrKey) 7) [(aKM_SLOT 5, fKM_SLOT_VALID,
      1)])) ((wKmLine 7).data) 7#64 0#32 0 &&
    (fun (s : State) (d : Fin 4) (r : MemReq) (p : Bool) (e f : List SymErr) (v : State) (ln : List Byte) (ctr : W64) (tag : W32) (key : Nat) (x y l : List Byte) (ds : List Nat) => decide (s.Inv ∧
      s.dramServes d.val r p ∧ s.bit aKM_CTRL fKM_CTRL_EN ∧ dramLine (lineOf r) < s.metaFirst ∧
      s.slotUsable (bitsOf r.addr 43 40) ∧ (s.kmFetch d.val (s.metaOf r) r.master p f = (v, some ln)) ∧
      (kmEntry ln (dramLine (lineOf r) % 20) = (ctr, tag, key)) ∧ ctr ≠ 0#64 ∧ ((r.write = false ∨ (wholeLine r = false ∧
      ctr ≠ 0xFFFFFFFFFFFFFFFF#64))) ∧ (key = (bitsOf r.addr 43 40)) ∧ (e.foldl addSymErr (v.bytes (lineOf r) 256,
      v.bytes (dramChk (lineOf r)) 64) = (x, y)) ∧ (rsLine x y (v.erased d.val) = (l, ds,
      true)))) ((wKm (wDrReq false 4) 7)) 1 (wDrReq false 4) false wNoise ([]) ((wKm (wDrReq false 4) 7)) ((wKmLine 7).data) 7#64 0#32 0 ((wNoise.foldl addSymErr (List.replicate 256 0#8,
      List.replicate 64 0#8)).1) ((wNoise.foldl addSymErr (List.replicate 256 0#8,
      List.replicate 64 0#8)).2) wNoiseOut.1 wNoiseOut.2.1 &&
    (fun (s : State) (d : Fin 4) (r : MemReq) (p : Bool) (e f : List SymErr) (v : State) (ln : List Byte) (ctr : W64) (tag : W32) (key : Nat) (x y l : List Byte) (ds : List Nat) => decide (s.Inv ∧
      s.dramServes d.val r p ∧ s.bit aKM_CTRL fKM_CTRL_EN ∧ dramLine (lineOf r) < s.metaFirst ∧
      s.slotUsable (bitsOf r.addr 43 40) ∧ (s.kmFetch d.val (s.metaOf r) r.master p f = (v, some ln)) ∧
      (kmEntry ln (dramLine (lineOf r) % 20) = (ctr, tag, key)) ∧ ctr ≠ 0#64 ∧ ((r.write = false ∨ (wholeLine r = false ∧
      ctr ≠ 0xFFFFFFFFFFFFFFFF#64))) ∧ (key = (bitsOf r.addr 43 40)) ∧ (e.foldl addSymErr (v.bytes (lineOf r) 256,
      v.bytes (dramChk (lineOf r)) 64) = (x, y)) ∧ (rsLine x y (v.erased d.val) = (l, ds, false)) ∧
      lineTag (s.slotKey (bitsOf r.addr 43 40)) (lineOf r / 256) ctr l ≠ tag)) ((wKm (wDrReq false 4) 7)) 1 (wDrReq false 4) false ([]) ([]) ((wKm (wDrReq false 4) 7)) ((wKmLine 7).data) 7#64 0#32 0 (List.replicate 256 0#8) (List.replicate 64 0#8) (List.replicate 256 0#8) ([]) &&
    (fun (s : State) (d : Fin 4) (r : MemReq) (p : Bool) (e f : List SymErr) (v : State) (ln : List Byte) (ctr : W64) (tag : W32) (key : Nat) (x y l : List Byte) (ds : List Nat) => decide (s.Inv ∧
      s.dramServes d.val r p ∧ s.bit aKM_CTRL fKM_CTRL_EN ∧ dramLine (lineOf r) < s.metaFirst ∧
      s.slotUsable (bitsOf r.addr 43 40) ∧ (s.kmFetch d.val (s.metaOf r) r.master p f = (v, some ln)) ∧
      (kmEntry ln (dramLine (lineOf r) % 20) = (ctr, tag, key)) ∧ ctr ≠ 0#64 ∧ ((r.write = false ∨ (wholeLine r = false ∧
      ctr ≠ 0xFFFFFFFFFFFFFFFF#64))) ∧ (key = (bitsOf r.addr 43 40)) ∧ (e.foldl addSymErr (v.bytes (lineOf r) 256,
      v.bytes (dramChk (lineOf r)) 64) = (x, y)) ∧ (rsLine x y (v.erased d.val) = (l, ds, false)) ∧
      (lineTag (s.slotKey (bitsOf r.addr 43 40)) (lineOf r / 256) ctr l = tag) ∧
      (r.write = false))) wKmTag 1 (wDrReq false 4) false ([]) ([]) wKmTag wKmTagLine 7#64 wKmTagVal 0 (List.replicate 256 0#8) (List.replicate 64 0#8) (List.replicate 256 0#8) ([]) &&
    (fun (s : State) (d : Fin 4) (r : MemReq) (p : Bool) (e f : List SymErr) (v : State) (ln : List Byte) (ctr : W64) (tag : W32) (key : Nat) (x y l : List Byte) (ds : List Nat) => decide (s.Inv ∧
      s.dramServes d.val r p ∧ s.bit aKM_CTRL fKM_CTRL_EN ∧ dramLine (lineOf r) < s.metaFirst ∧
      s.slotUsable (bitsOf r.addr 43 40) ∧ (s.kmFetch d.val (s.metaOf r) r.master p f = (v, some ln)) ∧
      (kmEntry ln (dramLine (lineOf r) % 20) = (ctr, tag, key)) ∧ ctr ≠ 0#64 ∧ ((r.write = false ∨ (wholeLine r = false ∧
      ctr ≠ 0xFFFFFFFFFFFFFFFF#64))) ∧ (key = (bitsOf r.addr 43 40)) ∧ (e.foldl addSymErr (v.bytes (lineOf r) 256,
      v.bytes (dramChk (lineOf r)) 64) = (x, y)) ∧ (rsLine x y (v.erased d.val) = (l, ds, false)) ∧
      (lineTag (s.slotKey (bitsOf r.addr 43 40)) (lineOf r / 256) ctr l = tag) ∧
      r.write)) wKmTagW 1 (wDrReq true 4) false ([]) ([]) wKmTagW wKmTagLine 7#64 wKmTagVal 0 (List.replicate 256 0#8) (List.replicate 64 0#8) (List.replicate 256 0#8) ([])) = true := by decide +kernel

theorem witness_DramControl :
    ((fun (s : State) (m : Rm) (d : Fin 4) => decide (s.Inv ∧ s.ringReady m (aDR_CTRL d.val) ∧ (s.dramState d.val = 0) ∧
      (s.bit (aDR_CTRL d.val) fDR_CTRL_EN = false))) w0 .core0 1 &&
    (fun (s : State) (m : Rm) (d : Fin 4) => decide (s.Inv ∧ s.ringReady m (aDR_CTRL d.val) ∧ ((s.dramState d.val ≠ 0 ∨
      s.bit (aDR_CTRL d.val) fDR_CTRL_EN)))) wDrS .core0 1 &&
    (fun (s : State) (d : Fin 4) => decide (s.Inv ∧ s.hubRuns ∧ (s.dramState d.val = 1))) ((st [(aDR_STATUS 1, fDR_STATUS_STATE,
      1)])) 1 &&
    (fun (s : State) (d : Fin 4) => decide (s.Inv ∧ ((s.hubRuns = false ∨ s.dramState d.val ≠ 1)))) w0 1 &&
    (fun (s : State) (m : Rm) (d : Fin 4) => decide (s.Inv ∧ s.ringReady m (aDR_CTRL d.val) ∧
      (s.bit (aDR_CTRL d.val) fDR_CTRL_INIT = false) ∧ ((s.dramState d.val = 2 ∨ s.dramState d.val = 5)) ∧
      (s.fld (aDR_LB d.val) fDR_LB_DEPTH = 0))) ((st [(aDR_STATUS 1, fDR_STATUS_STATE, 2)])) .core0 1 &&
    (fun (s : State) (m : Rm) (d : Fin 4) => decide (s.Inv ∧ s.ringReady m (aDR_CTRL d.val) ∧
      (s.bit (aDR_CTRL d.val) fDR_CTRL_INIT = false) ∧ (s.dramState d.val = 3) ∧
      s.bit (aDR_CTRL d.val) fDR_CTRL_EN)) ((setAll wDrS [(aDR_CTRL 1, fDR_CTRL_EN, 1)])) .core0 1 &&
    (fun (s : State) (m : Rm) (d : Fin 4) => decide (s.Inv ∧ s.ringReady m (aDR_CTRL d.val) ∧ (¬(s.dramState d.val = 3 ∧
      s.bit (aDR_CTRL d.val) fDR_CTRL_EN)) ∧ (((s.dramState d.val ≠ 2 ∧ s.dramState d.val ≠ 5) ∨
      s.fld (aDR_LB d.val) fDR_LB_DEPTH ≠ 0)))) w0 .core0 1 &&
    (fun (s : State) (m : Rm) (d : Fin 4) (f : Bool) => decide (s.Inv ∧ s.ringReady m (aDR_CTRL d.val) ∧
      (s.bit (aDR_CTRL d.val) fDR_CTRL_INIT = false) ∧ ((s.dramState d.val = 3 ∨
      s.bit (aDR_CTRL d.val) fDR_CTRL_EN = false)))) ((setAll wDrS [(aDR_CTRL 1, fDR_CTRL_EN, 1)])) .core0 1 true &&
    (fun (s : State) (m : Rm) (d : Fin 4) (f : Bool) => decide (s.Inv ∧ s.ringReady m (aDR_CTRL d.val) ∧ s.dramState d.val ≠ 3 ∧
      s.bit (aDR_CTRL d.val) fDR_CTRL_EN)) ((st [(aDR_CTRL 1, fDR_CTRL_EN, 1)])) .core0 1 true &&
    (fun (s : State) (m : Rm) (d : Fin 4) (v : W32) => decide (s.Inv ∧ s.ringReady m (aDR_MR d.val) ∧ s.helpersFree d.val ∧
      getB v fDR_MR_WR)) wDrS .core0 1 0x01000012#32 &&
    (fun (s : State) (m : Rm) (d : Fin 4) (v : W32) => decide (s.Inv ∧ s.ringReady m (aDR_MR d.val) ∧ s.helpersFree d.val ∧
      (getB v fDR_MR_WR = false))) wDrS .core0 1 0x00000012#32 &&
    (fun (s : State) (m : Rm) (d : Fin 4) (v : W32) => decide (s.Inv ∧ s.ringReady m (aDR_MR d.val) ∧
      (s.helpersFree d.val = false))) w0 .core0 1 0x01000012#32 &&
    (fun (s : State) (m : Rm) (d : Fin 4) (k : BitVec 3) (e : BitVec 10) => decide (s.Inv ∧ s.ringReady m (aDR_TRN d.val) ∧
      (((s.fld (aDR_LB d.val) fDR_LB_DEPTH = 0 ∧ s.helpersFree d.val ∧ 1 ≤ k.toNat ∧ k.toNat ≤ 5) ∨
      (s.fld (aDR_LB d.val) fDR_LB_DEPTH ≠ 0 ∧ k = 5#3 ∧
      s.bit (aDR_TRN d.val) fDR_TRN_BUSY = false))))) wDrS .core0 1 2#3 0x3FF#10 &&
    (fun (s : State) (m : Rm) (d : Fin 4) (k : BitVec 3) (e : BitVec 10) => decide (s.Inv ∧ s.ringReady m (aDR_TRN d.val) ∧
      (¬((s.fld (aDR_LB d.val) fDR_LB_DEPTH = 0 ∧ s.helpersFree d.val ∧ 1 ≤ k.toNat ∧ k.toNat ≤ 5) ∨
      (s.fld (aDR_LB d.val) fDR_LB_DEPTH ≠ 0 ∧ k = 5#3 ∧
      s.bit (aDR_TRN d.val) fDR_TRN_BUSY = false))))) wDrS .core0 1 6#3 0x3FF#10 &&
    (fun (s : State) (d : Fin 4) (l : List (BitVec 18)) => decide (s.Inv ∧ s.hubRuns ∧ s.bit (aDR_TRN d.val) fDR_TRN_BUSY ∧
      ((s.fld (aDR_TRN d.val) fDR_TRN_MODE ≠ 5 ∨ s.fld (aDR_LB d.val) fDR_LB_DEPTH ≠ 0)))) ((setAll wDrS [(aDR_TRN 1,
      fDR_TRN_BUSY, 1), (aDR_TRN 1, fDR_TRN_MODE, 3), (aDR_TRN 1, fDR_TRN_DEVS, 3)])) 1 ([5#18]) &&
    (fun (s : State) (d : Fin 4) (l : List (BitVec 18)) (n : Fin 1024) (i : Fin 256) => decide (s.Inv ∧ s.hubRuns ∧
      s.bit (aDR_TRN d.val) fDR_TRN_BUSY ∧ (s.fld (aDR_TRN d.val) fDR_TRN_MODE = 5) ∧
      (s.fld (aDR_LB d.val) fDR_LB_DEPTH = 0))) ((setAll wDrS [(aDR_TRN 1, fDR_TRN_BUSY, 1), (aDR_TRN 1, fDR_TRN_MODE, 5),
      (aDR_TRN 1, fDR_TRN_DEVS, 3)])) 1 ([5#18]) 7 9 &&
    (fun (s : State) (d : Fin 4) (l : List (BitVec 18)) => decide (s.Inv ∧ ((s.hubRuns = false ∨
      s.bit (aDR_TRN d.val) fDR_TRN_BUSY = false)))) w0 1 ([5#18]) &&
    (fun (s : State) (d : Fin 4) (m : BitVec 8) => decide (s.Inv ∧
      s.hubRuns)) ((w0.setDs 1 { Ds.empty with throttled := [(4, 0)] })) 1 4#8 &&
    (fun (s : State) (d : Fin 4) (m : BitVec 8) => decide (s.Inv ∧ (s.hubRuns = false))) ((ph .stopped)) 1 4#8 &&
    (fun (s : State) (d : Fin 4) => decide (s.Inv ∧ s.hubRuns ∧ s.refreshes d.val ∧
      ((s.ds d.val).refAt ≤ s.now))) ((wDrS.setDs 1 { Ds.empty with openRow := [(0, some 4), (1, some 9)] })) 1 &&
    (fun (s : State) (d : Fin 4) => decide (s.Inv ∧ (¬(s.hubRuns ∧ s.refreshes d.val ∧ (s.ds d.val).refAt ≤ s.now)))) w0 1 &&
    (fun (s : State) (d : Fin 4) (b : Fin 16) => decide (s.Inv ∧ s.hubRuns ∧
      (tget (fun _ => 0) (s.ds d.val).lastUse b.val + 2 * s.fld (aDR_PAGE d.val) fDR_PAGE_IDLE ≤ s.now))) ((tk 200000 (wDrS.setDs 1 { Ds.empty with openRow := [(1, some 9)] }))) 1 1 &&
    (fun (s : State) (d : Fin 4) (b : Fin 16) => decide (s.Inv ∧ ((s.hubRuns = false ∨
      s.now < tget (fun _ => 0) (s.ds d.val).lastUse b.val + 2 * s.fld (aDR_PAGE d.val) fDR_PAGE_IDLE)))) ((ph .stopped)) 1 1 &&
    (fun (s : State) (d : Fin 4) (l : List (Fin 4)) => decide (s.Inv ∧ s.hubRuns ∧ ((s.dramState d.val = 3 ∨
      s.dramState d.val = 5)) ∧ ((s.ds d.val).pollAt ≤ s.now) ∧ (s.bit (aDR_TRN d.val) fDR_TRN_BUSY = false) ∧
      (s.bit (aDR_MR d.val) fDR_MR_BUSY = false))) ((tk 24000000 (wDrS.setDs 1 { Ds.empty with pollAt := 24000000 }))) 1 ([1,
      3]) &&
    (fun (s : State) (d : Fin 4) (l : List (Fin 4)) => decide (s.Inv ∧ (¬(s.hubRuns ∧ (s.dramState d.val = 3 ∨
      s.dramState d.val = 5) ∧ (s.ds d.val).pollAt ≤ s.now ∧ s.bit (aDR_TRN d.val) fDR_TRN_BUSY = false ∧
      s.bit (aDR_MR d.val) fDR_MR_BUSY = false)))) w0 1 ([1, 3]) &&
    (fun (s : State) (m : Rm) (d : Fin 4) (k : BitVec 2) => decide (s.Inv ∧ s.ringReady m (aDR_LB d.val) ∧
      (s.fld (aDR_LB d.val) fDR_LB_DEPTH = 0) ∧ ((s.dramState d.val = 2 ∨ s.dramState d.val = 5)) ∧
      k ≠ 0#2)) ((st [(aDR_STATUS 1, fDR_STATUS_STATE, 2)])) .core0 1 1#2 &&
    (fun (s : State) (m : Rm) (d : Fin 4) => decide (s.Inv ∧ s.ringReady m (aDR_LB d.val) ∧
      (s.fld (aDR_LB d.val) fDR_LB_DEPTH = 0) ∧ ((s.dramState d.val = 2 ∨ s.dramState d.val = 5)))) ((st [(aDR_STATUS 1,
      fDR_STATUS_STATE, 2)])) .core0 1 &&
    (fun (s : State) (m : Rm) (d : Fin 4) (k : BitVec 2) => decide (s.Inv ∧ s.ringReady m (aDR_LB d.val) ∧
      (s.fld (aDR_LB d.val) fDR_LB_DEPTH = 0) ∧ s.dramState d.val ≠ 2 ∧ s.dramState d.val ≠ 5)) w0 .core0 1 1#2 &&
    (fun (s : State) (m : Rm) (d : Fin 4) (k : BitVec 2) => decide (s.Inv ∧ s.ringReady m (aDR_LB d.val) ∧
      s.fld (aDR_LB d.val) fDR_LB_DEPTH ≠ 0 ∧ k ≠ 0#2)) ((setAll w0 [(aDR_LB 1, fDR_LB_DEPTH, 1)])) .core0 1 2#2 &&
    (fun (s : State) (m : Rm) (d : Fin 4) => decide (s.Inv ∧ s.ringReady m (aDR_LB d.val) ∧
      s.fld (aDR_LB d.val) fDR_LB_DEPTH ≠ 0)) ((setAll w0 [(aDR_LB 1, fDR_LB_DEPTH, 1)])) .core0 1 &&
    (fun (s : State) (m : Rm) (d : Fin 4) (v : W32) => decide (s.Inv ∧ s.ringReady m (aDR_ECC_CTRL d.val) ∧
      ((getB v fDR_ECC_CTRL_ERASE = false ∨ getF v fDR_ECC_CTRL_POS ≤ 9)))) w0 .core0 1 0x00050013#32 &&
    (fun (s : State) (m : Rm) (d : Fin 4) (v : W32) => decide (s.Inv ∧ s.ringReady m (aDR_ECC_CTRL d.val) ∧
      getB v fDR_ECC_CTRL_ERASE ∧ 9 < getF v fDR_ECC_CTRL_POS)) w0 .core0 1 0x0005001A#32) = true := by decide +kernel

theorem witness_KeyedMix :
    ((fun (s : State) (m : Rm) => decide (s.Inv ∧ s.ringReady m aKM_CTRL ∧ (s.bit aKM_CTRL fKM_CTRL_FLUSH = false) ∧
      (s.bit aKM_CTRL fKM_CTRL_RETIRE = false) ∧ ((s.bit aKM_CTRL fKM_CTRL_EN ∨ (∀ d : Fin 4, s.dramState d.val = 0 ∨
      s.dramState d.val = 2))))) w0 .core0 &&
    (fun (s : State) (m : Rm) => decide (s.Inv ∧ s.ringReady m aKM_CTRL ∧ (s.bit aKM_CTRL fKM_CTRL_EN = false) ∧ (¬(∀ d : Fin 4,
      s.dramState d.val = 0 ∨ s.dramState d.val = 2)))) wDrS .core0 &&
    (fun (s : State) (m : Rm) => decide (s.Inv ∧ s.ringReady m aKM_CTRL ∧ (s.bit aKM_CTRL fKM_CTRL_FLUSH = false) ∧
      (s.bit aKM_CTRL fKM_CTRL_RETIRE = false) ∧ s.bit aKM_CTRL fKM_CTRL_EN ∧ (∀ d : Fin 4,
      s.dramState d.val ≠ 3))) ((st [(aKM_CTRL, fKM_CTRL_EN, 1)])) .core0 &&
    (fun (s : State) (m : Rm) => decide (s.Inv ∧ s.ringReady m aKM_CTRL ∧ (s.bit aKM_CTRL fKM_CTRL_FLUSH = false) ∧
      (s.bit aKM_CTRL fKM_CTRL_RETIRE = false) ∧ (s.bit aKM_CTRL fKM_CTRL_EN = false))) w0 .core0 &&
    (fun (s : State) (m : Rm) => decide (s.Inv ∧ s.ringReady m aKM_CTRL ∧ s.bit aKM_CTRL fKM_CTRL_EN ∧ ((∃ d : Fin 4,
      s.dramState d.val = 3)))) ((setAll wDrS [(aKM_CTRL, fKM_CTRL_EN, 1)])) .core0 &&
    (fun (s : State)  => decide (s.Inv ∧ s.hubRuns ∧ s.bit aKM_CTRL fKM_CTRL_EN ∧ (s.bit aKM_STATUS fKM_STATUS_READY = false) ∧
      (s.bit aKM_STATUS fKM_STATUS_INIT = false) ∧ s.allSets 3)) ((setAll wDrS [(aKM_CTRL, fKM_CTRL_EN, 1)])) &&
    (fun (s : State)  => decide (s.Inv ∧ (¬(s.hubRuns ∧ s.bit aKM_CTRL fKM_CTRL_EN ∧ s.bit aKM_STATUS fKM_STATUS_READY = false ∧
      s.bit aKM_STATUS fKM_STATUS_INIT = false ∧ s.allSets 3)))) w0 &&
    (fun (s : State)  => decide (s.Inv ∧ s.hubRuns ∧ s.bit aKM_STATUS fKM_STATUS_INIT)) ((setAll wDrS [(aKM_STATUS,
      fKM_STATUS_INIT, 1)])) &&
    (fun (s : State)  => decide (s.Inv ∧ ((s.hubRuns = false ∨ s.bit aKM_STATUS fKM_STATUS_INIT = false)))) w0 &&
    (fun (s : State) (m : Rm) => decide (s.Inv ∧ s.ringReady m aKM_CTRL ∧ (s.bit aKM_CTRL fKM_CTRL_RETIRE = false))) w0 .core0 &&
    (fun (s : State)  => decide (s.Inv ∧ s.hubRuns ∧
      s.bit aKM_STATUS fKM_STATUS_FLUSHING)) ((setAll (wKm (wDrReq false 4) 7) [(aKM_STATUS, fKM_STATUS_FLUSHING, 1)])) &&
    (fun (s : State)  => decide (s.Inv ∧ s.hubRuns ∧ s.bit aKM_STATUS fKM_STATUS_FLUSHING ∧ ((s.km.map (fun l => (l.set,
      l.line))).Nodup) ∧ (s.km.all (fun l => decide (l.data.length = 256 ∧ l.line < 2 ^ 26 ∧
      l.set < 4))))) ((setAll (wKm (wDrReq false 4) 7) [(aKM_STATUS, fKM_STATUS_FLUSHING, 1)])) &&
    (fun (s : State)  => decide (s.Inv ∧ ((s.hubRuns = false ∨ s.bit aKM_STATUS fKM_STATUS_FLUSHING = false)))) w0 &&
    (fun (s : State) (m : Rm) (k : Fin 16) => decide (s.Inv ∧ s.ringReady m aKM_CTRL ∧ (s.kmBusy = false))) w0 .core0 3 &&
    (fun (s : State) (m : Rm) (k : Fin 16) => decide (s.Inv ∧ s.ringReady m aKM_CTRL ∧ s.kmBusy)) ((st [(aKM_STATUS,
      fKM_STATUS_FLUSHING, 1)])) .core0 3 &&
    (fun (s : State) (k : Nat) => decide (s.Inv ∧ s.hubRuns ∧ s.bit aKM_STATUS fKM_STATUS_RETIRING ∧
      (s.bit aKM_STATUS fKM_STATUS_FLUSHING = false) ∧
      (s.fld aKM_STATUS fKM_STATUS_RID = k))) ((setAll (wKm (wDrReq false 4) 7) [(aKM_STATUS, fKM_STATUS_RETIRING, 1)])) 0 &&
    (fun (s : State)  => decide (s.Inv ∧ (¬(s.hubRuns ∧ s.bit aKM_STATUS fKM_STATUS_RETIRING ∧
      s.bit aKM_STATUS fKM_STATUS_FLUSHING = false)))) w0 &&
    (fun (s : State) (m : Rm) (k : Fin 16) (v : W32) => decide (s.Inv ∧ s.ringReady m (aKM_SLOT k.val) ∧
      (s.slotRetiring k.val = false))) w0 .core0 3 1#32 &&
    (fun (s : State) (m : Rm) (k : Fin 16) (v : W32) => decide (s.Inv ∧ s.ringReady m (aKM_SLOT k.val) ∧
      s.slotRetiring k.val)) ((st [(aKM_STATUS, fKM_STATUS_RETIRING, 1), (aKM_STATUS, fKM_STATUS_RID, 3)])) .core0 3 1#32 &&
    (fun (s : State) (m : Rm) (k : Fin 16) (w : Fin 4) (v : W32) => decide (s.Inv ∧ s.ringReady m (aKM_KEY (4 * k.val + w.val)) ∧
      (s.bit (aKM_SLOT k.val) fKM_SLOT_VALID = false))) w0 .core0 3 1 7#32 &&
    (fun (s : State) (m : Rm) (k : Fin 16) (w : Fin 4) (v : W32) => decide (s.Inv ∧ s.ringReady m (aKM_KEY (4 * k.val + w.val)) ∧
      s.bit (aKM_SLOT k.val) fKM_SLOT_VALID)) ((st [(aKM_SLOT 3, fKM_SLOT_VALID, 1)])) .core0 3 1 7#32 &&
    (fun (s : State) (m : Rm) (a : Nat) (e : List SymErr) => decide (s.Inv ∧ s.ringReady m aKM_MCMD ∧ ((m = .config ∨
      s.bit aKM_STATUS fKM_STATUS_READY = false)) ∧ (a = 0))) w0 .core0 0 ([]) &&
    (fun (s : State) (m : Rm) (a : Nat) (e : List SymErr) => decide (s.Inv ∧ s.ringReady m aKM_MCMD ∧ m ≠ .config ∧
      s.bit aKM_STATUS fKM_STATUS_READY ∧ (s.kmAddr = a) ∧ (¬(classOf a = .dram ∧ s.dramFitted a ∧
      dramLine a < s.metaFirst)))) ((setAll wKmCmd [(aKM_MADDR_HI, ⟨0, 32⟩, 8)])) .core0 0x800000100 ([]) &&
    (fun (s : State) (m : Rm) (a : Nat) (e : List SymErr) => decide (s.Inv ∧ s.ringReady m aKM_MCMD ∧ m ≠ .config ∧
      s.bit aKM_STATUS fKM_STATUS_READY ∧ (s.kmAddr = a) ∧ ((classOf a = .dram ∧ s.dramFitted a ∧ dramLine a < s.metaFirst)) ∧
      s.dramState (dramSet a) ≠ 3)) ((setAll wKmCmd [(aDR_STATUS 1, fDR_STATUS_STATE, 5)])) .core0 0x100 ([]) &&
    (fun (s : State) (m : Rm) (a : Nat) (e : List SymErr) (v : State) => decide (s.Inv ∧ s.ringReady m aKM_MCMD ∧ m ≠ .config ∧
      s.bit aKM_STATUS fKM_STATUS_READY ∧ (s.kmAddr = a) ∧ ((classOf a = .dram ∧ s.dramFitted a ∧ dramLine a < s.metaFirst)) ∧
      (s.dramState (dramSet a) = 3) ∧ (s.kmFetch (dramSet a) (s.metaFirst + dramLine a / 20) (rmId m) false e = (v,
      none)))) ({ wKmCmd with km := [] }) .core0 0x100 wNoise (((({ wKmCmd with km := [] } : State)).kmFetch 1 (wKmCmd.metaFirst + dramLine 0x100 / 20) (rmId .core0) false wNoise).1) &&
    (fun (s : State) (m : Rm) (a : Nat) (e : List SymErr) (v : State) (ln : List Byte) => decide (s.Inv ∧ s.ringReady m aKM_MCMD ∧
      m ≠ .config ∧ s.bit aKM_STATUS fKM_STATUS_READY ∧ (s.kmAddr = a) ∧ ((classOf a = .dram ∧ s.dramFitted a ∧
      dramLine a < s.metaFirst)) ∧ (s.dramState (dramSet a) = 3) ∧
      (s.kmFetch (dramSet a) (s.metaFirst + dramLine a / 20) (rmId m) false e = (v,
      some ln)))) wKmCmd .core0 0x100 ([]) wKmCmd ((wKmLine 7).data) &&
    (fun (s : State) (m : Rm) (a : Nat) (e : List SymErr) (k : BitVec 4) => decide (s.Inv ∧ s.ringReady m aKM_MCMD ∧
      ((m = .config ∨ s.bit aKM_STATUS fKM_STATUS_READY = false)) ∧ (a = 0))) w0 .core0 0 ([]) 5#4 &&
    (fun (s : State) (m : Rm) (a : Nat) (e : List SymErr) (k : BitVec 4) => decide (s.Inv ∧ s.ringReady m aKM_MCMD ∧ m ≠ .config ∧
      s.bit aKM_STATUS fKM_STATUS_READY ∧ (s.kmAddr = a) ∧ (¬(classOf a = .dram ∧ s.dramFitted a ∧
      dramLine a < s.metaFirst)))) ((setAll wKmCmd [(aKM_MADDR_HI, ⟨0, 32⟩, 8)])) .core0 0x800000100 ([]) 5#4 &&
    (fun (s : State) (m : Rm) (a : Nat) (e : List SymErr) (k : BitVec 4) => decide (s.Inv ∧ s.ringReady m aKM_MCMD ∧ m ≠ .config ∧
      s.bit aKM_STATUS fKM_STATUS_READY ∧ (s.kmAddr = a) ∧ ((classOf a = .dram ∧ s.dramFitted a ∧ dramLine a < s.metaFirst)) ∧
      s.dramState (dramSet a) ≠ 3)) ((setAll wKmCmd [(aDR_STATUS 1, fDR_STATUS_STATE, 5)])) .core0 0x100 ([]) 5#4 &&
    (fun (s : State) (m : Rm) (a : Nat) (e : List SymErr) (k : BitVec 4) (v : State) => decide (s.Inv ∧ s.ringReady m aKM_MCMD ∧
      m ≠ .config ∧ s.bit aKM_STATUS fKM_STATUS_READY ∧ (s.kmAddr = a) ∧ ((classOf a = .dram ∧ s.dramFitted a ∧
      dramLine a < s.metaFirst)) ∧ (s.dramState (dramSet a) = 3) ∧
      ((s.plainWrite aKM_MCMD (putF 2#32 fKM_MCMD_KEY k.toNat)).kmFetch (dramSet a) (s.metaFirst + dramLine a / 20) (rmId m) false e = (v,
      none)))) ({ wKmCmd with km := [] }) .core0 0x100 wNoise 5#4 (((({ wKmCmd with km := [] } : State).plainWrite aKM_MCMD (putF 2#32 fKM_MCMD_KEY 5)).kmFetch 1 (wKmCmd.metaFirst + dramLine 0x100 / 20) (rmId .core0) false wNoise).1) &&
    (fun (s : State) (m : Rm) (a : Nat) (e : List SymErr) (k : BitVec 4) (v : State) (ln : List Byte) => decide (s.Inv ∧
      s.ringReady m aKM_MCMD ∧ m ≠ .config ∧ s.bit aKM_STATUS fKM_STATUS_READY ∧ (s.kmAddr = a) ∧ ((classOf a = .dram ∧
      s.dramFitted a ∧ dramLine a < s.metaFirst)) ∧ (s.dramState (dramSet a) = 3) ∧
      ((s.plainWrite aKM_MCMD (putF 2#32 fKM_MCMD_KEY k.toNat)).kmFetch (dramSet a) (s.metaFirst + dramLine a / 20) (rmId m) false e = (v,
      some ln)))) wKmCmd .core0 0x100 ([]) 5#4 (wKmCmd.plainWrite aKM_MCMD (putF 2#32 fKM_MCMD_KEY 5)) ((wKmLine 7).data)) = true := by decide +kernel

theorem witness_SwapsAndFabricClocks :
    ((fun (s : State) (m : Rm) (e k : Bool) => decide (s.Inv ∧ s.ringReady m aSW_SWAP_CTRL ∧ (s.ana.swap = none) ∧ ((e ∨
      s.tickN + 256 ≤ s.reg64 aSW_SWAP_AT_LO aSW_SWAP_AT_HI)) ∧ ((s.swapMask ≠ 0#48 ∨ k)))) ((setAll wUp [(aSW_SWAP_MASK_LO, ⟨0,
      32⟩, 6)])) .core0 true false &&
    (fun (s : State) (m : Rm) (e k : Bool) => decide (s.Inv ∧ s.ringReady m aSW_SWAP_CTRL ∧ ((s.ana.swap ≠ none ∨ (e = false ∧
      s.reg64 aSW_SWAP_AT_LO aSW_SWAP_AT_HI < s.tickN + 256) ∨ (s.swapMask = 0#48 ∧ k = false))))) wUp .core0 false true &&
    (fun (s : State) (m : Rm) => decide (s.Inv ∧ s.ringReady m aSW_SWAP_CTRL ∧ (s.bit aSW_SWAP_CTRL fSW_SWAP_CTRL_ARM = false) ∧
      (s.ana.swap.all (fun x => x.at'.all (fun w => decide (s.tickN + 256 ≤ w)))))) ((wSwap none)) .core0 &&
    (fun (s : State) (m : Rm) => decide (s.Inv ∧ s.ringReady m aSW_SWAP_CTRL ∧
      (s.ana.swap.any (fun x => x.at'.any (fun w => decide (w < s.tickN + 256)))))) ((wSwap (some 4))) .core0 &&
    (fun (s : State) (x : Swap) (w : Nat) => decide (s.Inv ∧ (s.ana.swap = some x) ∧ (x.at' = none) ∧ s.anaRuns 56 ∧
      (w % 16 = 0) ∧ (s.tickN + 16 ≤ w) ∧ w < s.tickN + 32)) ((wSwap none)) (⟨6#48, true, none⟩) 16 &&
    (fun (s : State)  => decide (s.Inv ∧ ((s.anaRuns 56 = false ∨ s.ana.swap.all (fun x => x.at'.isSome))))) w0 &&
    (fun (s : State) (x : Swap) (w : Nat) => decide (s.Inv ∧ (s.ana.swap = some x) ∧ (x.at' = some w) ∧ s.anaRuns 56 ∧
      (w ≤ s.tickN) ∧ (s.swapFault (s.swapCfg x) = none))) ((wSwap (some 0))) (⟨6#48, true, some 0⟩) 0 &&
    (fun (s : State) (x : Swap) (w : Nat) (n : Fin 48) => decide (s.Inv ∧ (s.ana.swap = some x) ∧ (x.at' = some w) ∧
      s.anaRuns 56 ∧ (w ≤ s.tickN) ∧ (s.swapFault (s.swapCfg x) = none) ∧ x.mask.getLsbD n.val)) ((wSwap (some 0))) (⟨6#48,
      true, some 0⟩) 0 2 &&
    (fun (s : State) (x : Swap) (w : Nat) (n : Fin 16) (c : IcConv) => decide (s.Inv ∧ (s.ana.swap = some x) ∧ (x.at' = some w) ∧
      s.anaRuns 56 ∧ (w ≤ s.tickN) ∧ (s.swapFault (s.swapCfg x) = none) ∧
      ((s.ic n.val).conv = some c))) (((wSwap (some 0)).setIc 3 { Ic.empty with conv := some { wConv with disturbed := false } })) (⟨6#48,
      true, some 0⟩) 0 3 ({ wConv with disturbed := false }) &&
    (fun (s : State) (x : Swap) (w : Nat) (c b u : Nat) => decide (s.Inv ∧ (s.ana.swap = some x) ∧ (x.at' = some w) ∧
      s.anaRuns 56 ∧ (w ≤ s.tickN) ∧ (s.swapFault (s.swapCfg x) = some (c, b, u)))) ((setAll (wSwap (some 0)) [(aAB_CFG_IN 1,
      ⟨0, 32⟩, 0xFFFFFFFF)])) (⟨6#48, true, some 0⟩) 0 2 1 0 &&
    (fun (s : State)  => decide (s.Inv ∧ ((s.anaRuns 56 = false ∨
      s.ana.swap.all (fun x => x.at'.all (fun w => decide (s.tickN < w))))))) w0 &&
    (fun (s : State) (m : Rm) (k : Fin 4) (v : W32) => decide (s.Inv ∧ s.ringReady m (aAF_CLK k.val) ∧
      ((getB v fAF_CLK_EN = false ∨ 2 ≤ getF v fAF_CLK_DIV)))) wUp .core0 2 0x80000003#32 &&
    (fun (s : State) (m : Rm) (k : Fin 4) (v : W32) => decide (s.Inv ∧ s.ringReady m (aAF_CLK k.val) ∧ getB v fAF_CLK_EN ∧
      getF v fAF_CLK_DIV < 2)) wUp .core0 2 (putF (putF 0#32 fAF_CLK_EN 1) fAF_CLK_DIV 1) &&
    (fun (s : State) (m : Rm) (v : W32) => decide (s.Inv ∧ s.ringReady m aAS_DATA_1 ∧ (s.asBank = s.shBank) ∧
      (s.fld aPAT_STATUS fPAT_STATUS_ARMED = 0) ∧ (s.bit aPAT_STATUS fPAT_STATUS_TAIL = false))) ((setAll wUp [(aAS_ADDR,
      fAS_ADDR_BANK, w0.shBank)])) .core0 5#32 &&
    (fun (s : State) (m : Rm) (v : W32) => decide (s.Inv ∧ s.ringReady m aAS_DATA_1 ∧ ((s.asBank ≠ s.shBank ∨
      s.fld aPAT_STATUS fPAT_STATUS_ARMED ≠ 0 ∨ s.bit aPAT_STATUS fPAT_STATUS_TAIL)))) ((setAll wUp [(aAS_ADDR, fAS_ADDR_BANK,
      w0.actBank)])) .core0 5#32) = true := by decide +kernel

theorem witness_SamplingRuns :
    ((fun (s : State) (m : Rm) (n : Fin 48) (b : Bool) (f : Nat) => decide (s.Inv ∧ s.ringReady m (aAB_CMD n.val) ∧
      ((s.ab n.val).run = none) ∧ ((s.ab n.val).queued = none) ∧ ((s.ab n.val).calAt = none) ∧
      ((if b then f = s.reg64 (aAB_START_LO n.val) (aAB_START_HI n.val) ∧
      s.tickN + 64 ≤ f else f % s.fld (aAB_TRIG n.val) fAB_TRIG_PER = 0 ∧ s.tickN + 64 ≤ f ∧
      f < s.tickN + 64 + s.fld (aAB_TRIG n.val) fAB_TRIG_PER)))) wAna .core0 2 false 300 &&
    (fun (s : State) (m : Rm) (n : Fin 48) (b : Bool) (f : Nat) (t : Nat) => decide (s.Inv ∧ s.ringReady m (aAB_CMD n.val) ∧
      ((s.ab n.val).run = none) ∧ ((s.ab n.val).queued = none) ∧ ((s.ab n.val).calAt = some t) ∧
      ((if b then f = s.reg64 (aAB_START_LO n.val) (aAB_START_HI n.val) ∧
      s.tickN + 64 ≤ f else f % s.fld (aAB_TRIG n.val) fAB_TRIG_PER = 0 ∧ s.tickN + 64 ≤ f ∧
      f < s.tickN + 64 + s.fld (aAB_TRIG n.val) fAB_TRIG_PER)))) ((wAna.setAb 2 { Ab.empty with calAt := some 0 })) .core0 2 false 300 0 &&
    (fun (s : State) (m : Rm) (n : Fin 48) (b : Bool) => decide (s.Inv ∧ s.ringReady m (aAB_CMD n.val) ∧
      (((s.ab n.val).run ≠ none ∨
      (s.ab n.val).queued ≠ none)))) ((wAna.setAb 2 { Ab.empty with queued := some 900 })) .core0 2 false &&
    (fun (s : State) (m : Rm) (n : Fin 48) => decide (s.Inv ∧ s.ringReady m (aAB_CMD n.val) ∧ ((s.ab n.val).run = none) ∧
      ((s.ab n.val).queued = none) ∧ s.reg64 (aAB_START_LO n.val) (aAB_START_HI n.val) < s.tickN + 64)) wAna .core0 2 &&
    (fun (s : State) (m : Rm) (n : Fin 48) => decide (s.Inv ∧ s.ringReady m (aAB_CMD n.val) ∧
      ((s.ab n.val).run = none))) ((wAna.setAb 2 { Ab.empty with queued := some 900 })) .core0 2 &&
    (fun (s : State) (m : Rm) (n : Fin 48) => decide (s.Inv ∧ s.ringReady m (aAB_CMD n.val) ∧
      (s.ab n.val).run ≠ none)) ((wAna.setAb 2 { Ab.empty with run := some ⟨0, 2, 2⟩, samples := [⟨0, 5#16, false, false⟩] })) .core0 2 &&
    (fun (s : State) (m : Rm) (n : Fin 48) (h : BitVec 16) => decide (s.Inv ∧ s.ringReady m (aAB_CMD n.val) ∧
      (s.ab n.val).run ≠ none ∧ ((s.ab n.val).samples = []) ∧
      ((s.ab n.val).half = some h))) ((wAna.setAb 2 { Ab.empty with run := some ⟨0, 2, 2⟩, half := some 5#16 })) .core0 2 5#16 &&
    (fun (s : State) (m : Rm) (n : Fin 48) => decide (s.Inv ∧ s.ringReady m (aAB_CMD n.val) ∧
      (s.bit (aAB_STATUS n.val) fAB_STATUS_CAL_Q = false) ∧ ((s.ab n.val).run = none) ∧
      ((s.ab n.val).calAt = none))) wAna .core0 2 &&
    (fun (s : State) (m : Rm) (n : Fin 48) => decide (s.Inv ∧ s.ringReady m (aAB_CMD n.val) ∧
      (s.bit (aAB_STATUS n.val) fAB_STATUS_CAL_Q = false) ∧ (((s.ab n.val).run ≠ none ∨
      (s.ab n.val).calAt ≠ none)))) ((wAna.setAb 2 { Ab.empty with calAt := some 900 })) .core0 2 &&
    (fun (s : State) (m : Rm) (n : Fin 48) => decide (s.Inv ∧ s.ringReady m (aAB_CMD n.val) ∧
      s.bit (aAB_STATUS n.val) fAB_STATUS_CAL_Q)) ((setAll wAna [(aAB_STATUS 2, fAB_STATUS_CAL_Q, 1)])) .core0 2 &&
    (fun (s : State) (n : Fin 48) (c : Bool) (f : Nat) => decide (s.Inv ∧ s.anaRuns 56 ∧
      ((if c then s.fld (aAB_TRIG n.val) fAB_TRIG_TSRC = 1 ∧ s.bit (aAB_ACT_IN n.val) fAB_ACT_IN_CEN ∧
      (s.ab n.val).calAt = none else s.fld (aAB_TRIG n.val) fAB_TRIG_TSRC = 2)) ∧ ((s.ab n.val).run = none) ∧
      ((s.ab n.val).queued = none) ∧ (f % s.fld (aAB_TRIG n.val) fAB_TRIG_PER = 0) ∧ (s.tickN + 8 ≤ f) ∧
      f < s.tickN + 8 + s.fld (aAB_TRIG n.val) fAB_TRIG_PER ∧ ((s.ab n.val).calAt = none))) ((setAll wAna [(aAB_TRIG 2,
      fAB_TRIG_TSRC, 1), (aAB_ACT_IN 2, fAB_ACT_IN_CEN, 1)])) 2 true 300 &&
    (fun (s : State) (n : Fin 48) (c : Bool) (f : Nat) => decide (s.Inv ∧ s.anaRuns 56 ∧
      ((if c then s.fld (aAB_TRIG n.val) fAB_TRIG_TSRC = 1 ∧ s.bit (aAB_ACT_IN n.val) fAB_ACT_IN_CEN ∧
      (s.ab n.val).calAt = none else s.fld (aAB_TRIG n.val) fAB_TRIG_TSRC = 2)) ∧ ((s.ab n.val).run = none) ∧
      ((s.ab n.val).queued = none) ∧ (f % s.fld (aAB_TRIG n.val) fAB_TRIG_PER = 0) ∧ (s.tickN + 8 ≤ f) ∧
      f < s.tickN + 8 + s.fld (aAB_TRIG n.val) fAB_TRIG_PER ∧ (s.ab n.val).calAt ≠ none)) (((setAll wAna [(aAB_TRIG 2,
      fAB_TRIG_TSRC, 2)]).setAb 2 { Ab.empty with calAt := some 0 })) 2 false 300 &&
    (fun (s : State) (n : Fin 48) (c : Bool) => decide (s.Inv ∧ (¬(s.anaRuns 56 ∧
      (if c then s.fld (aAB_TRIG n.val) fAB_TRIG_TSRC = 1 ∧ s.bit (aAB_ACT_IN n.val) fAB_ACT_IN_CEN ∧
      (s.ab n.val).calAt = none else s.fld (aAB_TRIG n.val) fAB_TRIG_TSRC = 2) ∧ (s.ab n.val).run = none ∧
      (s.ab n.val).queued = none)))) wAna 2 false &&
    (fun (s : State) (n : Fin 48) (v : BitVec 20) (r : AbRun) (q : Int) => decide (s.Inv ∧ ((s.ab n.val).run = some r) ∧
      s.anaRuns 56 ∧ (r.first + r.k * s.fld (aAB_TRIG n.val) fAB_TRIG_PER ≤ s.tickN) ∧
      (q = ((16 * v.toInt - (sint 16 (s.fld (aAB_CAL_ADC n.val) fAB_CAL_ADC_OFS))) * (s.fld (aAB_CAL_ADC n.val) fAB_CAL_ADC_GAIN : Int)) / 524288) ∧
      (((s.reg (aAB_COUNT n.val)).toNat = 0 ∨ r.taken + 1 < (s.reg (aAB_COUNT n.val)).toNat)))) wAnaRun 2 77#20 (⟨0, 0,
      0⟩) ((77 * 16 * 0x8000) / 524288) &&
    (fun (s : State) (n : Fin 48) (v : BitVec 20) (r : AbRun) (q : Int) => decide (s.Inv ∧ ((s.ab n.val).run = some r) ∧
      s.anaRuns 56 ∧ (r.first + r.k * s.fld (aAB_TRIG n.val) fAB_TRIG_PER ≤ s.tickN) ∧
      (q = ((16 * v.toInt - (sint 16 (s.fld (aAB_CAL_ADC n.val) fAB_CAL_ADC_OFS))) * (s.fld (aAB_CAL_ADC n.val) fAB_CAL_ADC_GAIN : Int)) / 524288) ∧
      (s.reg (aAB_COUNT n.val)).toNat ≠ 0 ∧ ((s.reg (aAB_COUNT n.val)).toNat ≤ r.taken + 1))) ((setAll wAnaRun [(aAB_COUNT 2,
      ⟨0, 32⟩, 1)])) 2 77#20 (⟨0, 0, 0⟩) ((77 * 16 * 0x8000) / 524288) &&
    (fun (s : State) (n : Fin 48) (v : BitVec 20) => decide (s.Inv ∧ ((s.anaRuns 56 = false ∨
      (s.ab n.val).run.all (fun r => decide (s.tickN < r.first + r.k * s.fld (aAB_TRIG n.val) fAB_TRIG_PER)))))) wAna 2 77#20 &&
    (fun (s : State) (n : Fin 48) (z : AbSample) (l : List AbSample) (c : W32) (k h : BitVec 16) => decide (s.Inv ∧
      ((s.ab n.val).samples = z :: l) ∧ s.anaRuns 56 ∧ (z.tick + 256 ≤ s.tickN) ∧ (c = s.abCfgAt n.val z.tick) ∧
      (k = (if getB c fAB_CFG_ADC_EN then z.code else 0#16)) ∧ (h = (if getB c fAB_CFG_ADC_UNI then k + 0x8000#16 else k)) ∧
      ((getF c fAB_CFG_ADC_FMT = 0 ∨ getF c fAB_CFG_ADC_FMT = 3)))) ((wAnaRes 0)) 2 (⟨0, 5#16, false,
      false⟩) ([]) (wAdc 0) 5#16 5#16 &&
    (fun (s : State) (n : Fin 48) (z : AbSample) (l : List AbSample) (c : W32) (k h : BitVec 16) => decide (s.Inv ∧
      ((s.ab n.val).samples = z :: l) ∧ s.anaRuns 56 ∧ (z.tick + 256 ≤ s.tickN) ∧ (c = s.abCfgAt n.val z.tick) ∧
      (k = (if getB c fAB_CFG_ADC_EN then z.code else 0#16)) ∧ (h = (if getB c fAB_CFG_ADC_UNI then k + 0x8000#16 else k)) ∧
      (getF c fAB_CFG_ADC_FMT = 1))) ((wAnaRes 1)) 2 (⟨0, 5#16, false, false⟩) ([]) (wAdc 1) 5#16 5#16 &&
    (fun (s : State) (n : Fin 48) (z : AbSample) (l : List AbSample) (c : W32) (k h : BitVec 16) (g : BitVec 16) => decide (s.Inv ∧
      ((s.ab n.val).samples = z :: l) ∧ s.anaRuns 56 ∧ (z.tick + 256 ≤ s.tickN) ∧ (c = s.abCfgAt n.val z.tick) ∧
      (k = (if getB c fAB_CFG_ADC_EN then z.code else 0#16)) ∧ (h = (if getB c fAB_CFG_ADC_UNI then k + 0x8000#16 else k)) ∧
      (getF c fAB_CFG_ADC_FMT = 2) ∧
      ((s.ab n.val).half = some g))) (((wAnaRes 2).setAb 2 { (wAnaRes 2).ab 2 with half := some 9#16 })) 2 (⟨0, 5#16, false,
      false⟩) ([]) (wAdc 2) 5#16 5#16 9#16 &&
    (fun (s : State) (n : Fin 48) (z : AbSample) (l : List AbSample) (c : W32) (k h : BitVec 16) => decide (s.Inv ∧
      ((s.ab n.val).samples = z :: l) ∧ s.anaRuns 56 ∧ (z.tick + 256 ≤ s.tickN) ∧ (c = s.abCfgAt n.val z.tick) ∧
      (k = (if getB c fAB_CFG_ADC_EN then z.code else 0#16)) ∧ (h = (if getB c fAB_CFG_ADC_UNI then k + 0x8000#16 else k)) ∧
      (getF c fAB_CFG_ADC_FMT = 2) ∧ ((s.ab n.val).half = none) ∧ (z.last = false))) ((wAnaRes 2)) 2 (⟨0, 5#16, false,
      false⟩) ([]) (wAdc 2) 5#16 5#16 &&
    (fun (s : State) (n : Fin 48) (z : AbSample) (l : List AbSample) (c : W32) (k h : BitVec 16) => decide (s.Inv ∧
      ((s.ab n.val).samples = z :: l) ∧ s.anaRuns 56 ∧ (z.tick + 256 ≤ s.tickN) ∧ (c = s.abCfgAt n.val z.tick) ∧
      (k = (if getB c fAB_CFG_ADC_EN then z.code else 0#16)) ∧ (h = (if getB c fAB_CFG_ADC_UNI then k + 0x8000#16 else k)) ∧
      (getF c fAB_CFG_ADC_FMT = 2) ∧ ((s.ab n.val).half = none) ∧
      z.last)) (((wAnaRes 2).setAb 2 { Ab.empty with samples := [⟨0, 5#16, false, true⟩] })) 2 (⟨0, 5#16, false,
      true⟩) ([]) (wAdc 2) 5#16 5#16 &&
    (fun (s : State) (n : Fin 48) => decide (s.Inv ∧ ((s.anaRuns 56 = false ∨
      (s.ab n.val).samples.head?.all (fun z => decide (s.tickN < z.tick + 256)))))) wAna 2 &&
    (fun (s : State) (n : Fin 48) (k : Nat) (v w : W32) => decide (s.Inv ∧ ((s.ab n.val).calAt = some k) ∧ s.anaRuns 56 ∧
      (k + 3000000 ≤ s.tickN) ∧ (s.bit (aAB_STATUS n.val) fAB_STATUS_CAL_Q = false) ∧
      ((s.ab n.val).queued = none))) ((tk 3000000 (wAna.setAb 2 { Ab.empty with calAt := some 0 }))) 2 0 5#32 6#32 &&
    (fun (s : State) (n : Fin 48) (k : Nat) (v w : W32) => decide (s.Inv ∧ ((s.ab n.val).calAt = some k) ∧ s.anaRuns 56 ∧
      (k + 3000000 ≤ s.tickN) ∧
      s.bit (aAB_STATUS n.val) fAB_STATUS_CAL_Q)) ((setAll (tk 3000000 (wAna.setAb 2 { Ab.empty with calAt := some 0 })) [(aAB_STATUS 2,
      fAB_STATUS_CAL_Q, 1)])) 2 0 5#32 6#32 &&
    (fun (s : State) (n : Fin 48) (k : Nat) (v w : W32) (f : Nat) => decide (s.Inv ∧ ((s.ab n.val).calAt = some k) ∧
      s.anaRuns 56 ∧ (k + 3000000 ≤ s.tickN) ∧ (s.bit (aAB_STATUS n.val) fAB_STATUS_CAL_Q = false) ∧
      ((s.ab n.val).queued = some f) ∧
      s.tickN < f)) ((tk 3000000 (wAna.setAb 2 { Ab.empty with calAt := some 0, queued := some 4000000 }))) 2 0 5#32 6#32 4000000 &&
    (fun (s : State) (n : Fin 48) (k : Nat) (v w : W32) (f j : Nat) => decide (s.Inv ∧ ((s.ab n.val).calAt = some k) ∧
      s.anaRuns 56 ∧ (k + 3000000 ≤ s.tickN) ∧ (s.bit (aAB_STATUS n.val) fAB_STATUS_CAL_Q = false) ∧
      ((s.ab n.val).queued = some f) ∧ (f ≤ s.tickN) ∧ (s.tickN + 64 ≤ f + j * s.fld (aAB_TRIG n.val) fAB_TRIG_PER) ∧
      f + j * s.fld (aAB_TRIG n.val) fAB_TRIG_PER < s.tickN + 64 + s.fld (aAB_TRIG n.val) fAB_TRIG_PER)) ((tk 3000000 (wAna.setAb 2 { Ab.empty with calAt := some 0, queued := some 2999900 }))) 2 0 5#32 6#32 2999900 1 &&
    (fun (s : State) (n : Fin 48) (v w : W32) => decide (s.Inv ∧ ((s.anaRuns 56 = false ∨
      (s.ab n.val).calAt.all (fun k => decide (s.tickN < k + 3000000)))))) wAna 2 5#32 6#32 &&
    (fun (s : State) (m : Rm) (n : Fin 48) (w : W32) (l : List W32) => decide (s.Inv ∧ s.ringReady m (aAB_RESULT n.val) ∧
      ((s.ab n.val).fifo = w :: l) ∧ m ≠ .debug ∧
      destRing (s.reg (aAB_ACT_ADC n.val)))) ((wAna.setAb 2 { Ab.empty with fifo := [7#32] })) .core0 2 7#32 ([]) &&
    (fun (s : State) (n : Fin 48) => decide (s.Inv ∧
      s.ringReady .debug (aAB_RESULT n.val))) ((wAna.setAb 2 { Ab.empty with fifo := [7#32] })) 2 &&
    (fun (s : State) (m : Rm) (n : Fin 48) => decide (s.Inv ∧ s.ringReady m (aAB_RESULT n.val) ∧ m ≠ .debug ∧
      (((s.ab n.val).fifo = [] ∨ destRing (s.reg (aAB_ACT_ADC n.val)) = false)))) wAna .core0 2 &&
    (fun (s : State) (m : Rm) (n : Fin 48) (a : Bool) (v : W32) => decide (s.Inv ∧
      s.ringReady m (if a then aAB_CAL_ADC n.val else aAB_CAL_AMP n.val) ∧ ((s.ab n.val).calAt = none))) wAna .core0 2 true 5#32 &&
    (fun (s : State) (m : Rm) (n : Fin 48) (a : Bool) (v : W32) => decide (s.Inv ∧
      s.ringReady m (if a then aAB_CAL_ADC n.val else aAB_CAL_AMP n.val) ∧
      (s.ab n.val).calAt ≠ none)) ((wAna.setAb 2 { Ab.empty with calAt := some 0 })) .core0 2 true 5#32) = true := by decide +kernel

theorem witness_Conversions :
    ((fun (s : State) (m : Rm) (n : Fin 16) (b : Bool) (f : Nat) => decide (s.Inv ∧ s.ringReady m (aIC_CMD n.val) ∧
      ((s.ic n.val).run = none) ∧ ((s.ic n.val).queued = none) ∧ ((s.ic n.val).cal = none) ∧
      ((if s.fld (aIC_CFG n.val) fIC_CFG_TSRC = 2 then s.mainsLocked ∧
      f = s.tickN + 64 else if b then f = s.reg64 (aIC_START_LO n.val) (aIC_START_HI n.val) ∧
      s.tickN + 64 ≤ f else f = s.tickN + 64)))) wUp .core0 3 false 64 &&
    (fun (s : State) (m : Rm) (n : Fin 16) (b : Bool) (f : Nat) => decide (s.Inv ∧ s.ringReady m (aIC_CMD n.val) ∧
      ((s.ic n.val).run = none) ∧ ((s.ic n.val).queued = none) ∧ (s.ic n.val).cal ≠ none ∧
      ((if s.fld (aIC_CFG n.val) fIC_CFG_TSRC = 2 then s.mainsLocked ∧
      f = s.tickN + 64 else if b then f = s.reg64 (aIC_START_LO n.val) (aIC_START_HI n.val) ∧
      s.tickN + 64 ≤ f else f = s.tickN + 64)))) ((wUp.setIc 3 { Ic.empty with cal := some (0, 5) })) .core0 3 false 64 &&
    (fun (s : State) (m : Rm) (n : Fin 16) (b : Bool) => decide (s.Inv ∧ s.ringReady m (aIC_CMD n.val) ∧
      (((s.ic n.val).run ≠ none ∨ (s.ic n.val).queued ≠ none ∨ (s.fld (aIC_CFG n.val) fIC_CFG_TSRC = 2 ∧
      s.mainsLocked = false))))) ((wUp.setIc 3 { Ic.empty with run := some ⟨0, 1, 1, false, 0⟩ })) .core0 3 false &&
    (fun (s : State) (m : Rm) (n : Fin 16) => decide (s.Inv ∧ s.ringReady m (aIC_CMD n.val) ∧ ((s.ic n.val).run = none) ∧
      ((s.ic n.val).queued = none) ∧ s.fld (aIC_CFG n.val) fIC_CFG_TSRC ≠ 2 ∧
      s.reg64 (aIC_START_LO n.val) (aIC_START_HI n.val) < s.tickN + 64)) wUp .core0 3 &&
    (fun (s : State) (m : Rm) (n : Fin 16) => decide (s.Inv ∧
      s.ringReady m (aIC_CMD n.val))) ((wUp.setIc 3 { Ic.empty with run := some ⟨0, 1, 1, false, 0⟩ })) .core0 3 &&
    (fun (s : State) (m : Rm) (n : Fin 16) => decide (s.Inv ∧ s.ringReady m (aIC_CMD n.val) ∧
      (s.bit (aIC_STATUS n.val) fIC_STATUS_CAL_Q = false) ∧ ((s.ic n.val).conv = none) ∧
      ((s.ic n.val).cal = none))) wUp .core0 3 &&
    (fun (s : State) (m : Rm) (n : Fin 16) => decide (s.Inv ∧ s.ringReady m (aIC_CMD n.val) ∧
      (s.bit (aIC_STATUS n.val) fIC_STATUS_CAL_Q = false) ∧ (((s.ic n.val).conv ≠ none ∨
      (s.ic n.val).cal ≠ none)))) ((wUp.setIc 3 { Ic.empty with cal := some (0, 5) })) .core0 3 &&
    (fun (s : State) (m : Rm) (n : Fin 16) => decide (s.Inv ∧ s.ringReady m (aIC_CMD n.val) ∧
      s.bit (aIC_STATUS n.val) fIC_STATUS_CAL_Q)) ((setAll wUp [(aIC_STATUS 3, fIC_STATUS_CAL_Q, 1)])) .core0 3 &&
    (fun (s : State) (n : Fin 16) (r : IcRun) => decide (s.Inv ∧ ((s.ic n.val).run = some r) ∧ s.anaRuns 57 ∧ (r.mains = false) ∧
      ((s.ic n.val).cal = none) ∧ (s.icDue n.val r ≤ s.tickN) ∧
      ((s.ic n.val).conv = none))) ((tk 9 (wUp.setIc 3 { Ic.empty with run := some ⟨0, 0, 0, false, 4⟩ }))) 3 (⟨0, 0, 0, false,
      4⟩) &&
    (fun (s : State) (n : Fin 16) (r : IcRun) => decide (s.Inv ∧ ((s.ic n.val).run = some r) ∧ s.anaRuns 57 ∧ (r.mains = false) ∧
      ((s.ic n.val).cal = none) ∧ (s.icDue n.val r ≤ s.tickN) ∧ (s.ic n.val).conv ≠ none ∧
      s.icPer n.val ≠ 0)) ((tk 9 (setAll (wUp.setIc 3 { Ic.empty with run := some ⟨0, 0, 0, false, 4⟩, conv := some wConv }) [(aIC_PER 3,
      ⟨0, 32⟩, 100)]))) 3 (⟨0, 0, 0, false, 4⟩) &&
    (fun (s : State) (n : Fin 16) => decide (s.Inv ∧ ((s.anaRuns 57 = false ∨ (s.ic n.val).cal ≠ none ∨
      (s.ic n.val).run.all (fun r => r.mains || decide (s.tickN < s.icDue n.val r)) ∨ ((s.ic n.val).conv ≠ none ∧
      s.icPer n.val = 0))))) wUp 3 &&
    (fun (s : State) (n : Fin 16) (c : IcConv) => decide (s.Inv ∧ ((s.ic n.val).conv = some c) ∧ (c.phase = 0) ∧ s.anaRuns 57 ∧
      (c.start + c.len * 1 ≤ s.tickN))) ((tk 900 (wUp.setIc 3 { Ic.empty with conv := some wConv }))) 3 wConv &&
    (fun (s : State) (n : Fin 16) => decide (s.Inv ∧ ((s.anaRuns 57 = false ∨
      (s.ic n.val).conv.all (fun c => c.phase != 0 || decide (s.tickN < c.start + c.len * 1)))))) wUp 3 &&
    (fun (s : State) (n : Fin 16) (c : IcConv) => decide (s.Inv ∧ ((s.ic n.val).conv = some c) ∧ (c.phase = 1) ∧ s.anaRuns 57 ∧
      (c.start + c.len * 2 ≤ s.tickN))) ((tk 900 (wUp.setIc 3 { Ic.empty with conv := some { wConv with phase := 1 } }))) 3 ({ wConv with phase := 1 }) &&
    (fun (s : State) (n : Fin 16) => decide (s.Inv ∧ ((s.anaRuns 57 = false ∨
      (s.ic n.val).conv.all (fun c => c.phase != 1 || decide (s.tickN < c.start + c.len * 2)))))) wUp 3 &&
    (fun (s : State) (n : Fin 16) (v : BitVec 40) (c : IcConv) (d : Int) (o : Bool) => decide (s.Inv ∧
      ((s.ic n.val).conv = some c) ∧ (c.phase = 2) ∧ s.anaRuns 57 ∧
      (c.start + c.len * (if getB c.cfg fIC_CFG_AZ then 2 else 1) + 3000 ≤ s.tickN) ∧ (icValue c v.toInt = (d, o)) ∧
      (s.bit (aIC_STATUS n.val) fIC_STATUS_CAL_Q = false))) wConvEnd 3 5000#40 ({ wConv with phase := 2 }) ((icValue { wConv with phase := 2 } 5000).1) ((icValue { wConv with phase := 2 } 5000).2) &&
    (fun (s : State) (n : Fin 16) (v : BitVec 40) (c : IcConv) (d : Int) (o : Bool) => decide (s.Inv ∧
      ((s.ic n.val).conv = some c) ∧ (c.phase = 2) ∧ s.anaRuns 57 ∧
      (c.start + c.len * (if getB c.cfg fIC_CFG_AZ then 2 else 1) + 3000 ≤ s.tickN) ∧ (icValue c v.toInt = (d, o)) ∧
      s.bit (aIC_STATUS n.val) fIC_STATUS_CAL_Q)) ((setAll wConvEnd [(aIC_STATUS 3, fIC_STATUS_CAL_Q,
      1)])) 3 5000#40 ({ wConv with phase := 2 }) ((icValue { wConv with phase := 2 } 5000).1) ((icValue { wConv with phase := 2 } 5000).2) &&
    (fun (s : State) (n : Fin 16) (v : BitVec 40) => decide (s.Inv ∧ ((s.anaRuns 57 = false ∨
      (s.ic n.val).conv.all (fun c => c.phase != 2 || decide (s.tickN < c.start + c.len * (if getB c.cfg fIC_CFG_AZ then 2 else 1) + 3000)))))) wUp 3 5000#40 &&
    (fun (s : State) (n : Fin 16) (z v : BitVec 40) (k l r : Nat) => decide (s.Inv ∧ ((s.ic n.val).cal = some (k, l)) ∧
      s.anaRuns 57 ∧ (k + 8 * (l + 3000) ≤ s.tickN) ∧ (s.fld (aIC_STATUS n.val) fIC_STATUS_CAL_RANGE = r) ∧
      (-10737418 ≤ z.toInt) ∧ (z.toInt ≤ 10737418) ∧ 0 < (v.toInt - z.toInt) ∧
      (0x3999999A ≤ (2 ^ 30 * ((s.reg (aREF_VAL r)).toNat : Int)) / (v.toInt - z.toInt)) ∧
      (2 ^ 30 * ((s.reg (aREF_VAL r)).toNat : Int)) / (v.toInt - z.toInt) < 0x46666666)) ((tk 30000 (wUp.setIc 3 { Ic.empty with cal := some (0, 5) }))) 3 3#40 0x40000003#40 0 5 0 &&
    (fun (s : State) (n : Fin 16) (z v : BitVec 40) (k l r : Nat) => decide (s.Inv ∧ ((s.ic n.val).cal = some (k, l)) ∧
      s.anaRuns 57 ∧ (k + 8 * (l + 3000) ≤ s.tickN) ∧ (s.fld (aIC_STATUS n.val) fIC_STATUS_CAL_RANGE = r) ∧
      (((v.toInt - z.toInt) ≤ 0 ∨ z.toInt < -10737418 ∨ 10737418 < z.toInt ∨
      (2 ^ 30 * ((s.reg (aREF_VAL r)).toNat : Int)) / (v.toInt - z.toInt) < 0x39999999 ∨
      0x46666666 < (2 ^ 30 * ((s.reg (aREF_VAL r)).toNat : Int)) / (v.toInt - z.toInt))))) ((tk 30000 (wUp.setIc 3 { Ic.empty with cal := some (0, 5) }))) 3 0x40000003#40 3#40 0 5 0 &&
    (fun (s : State) (n : Fin 16) (z v : BitVec 40) (k l r : Nat) => decide (s.Inv ∧ ((s.ic n.val).cal = some (k, l)) ∧
      s.anaRuns 57 ∧ (k + 8 * (l + 3000) ≤ s.tickN) ∧ (s.fld (aIC_STATUS n.val) fIC_STATUS_CAL_RANGE = r) ∧
      (-10737418 ≤ z.toInt) ∧ (z.toInt ≤ 10737418) ∧ 0 < (v.toInt - z.toInt) ∧
      (((2 ^ 30 * ((s.reg (aREF_VAL r)).toNat : Int)) / (v.toInt - z.toInt) = 0x39999999 ∨
      (2 ^ 30 * ((s.reg (aREF_VAL r)).toNat : Int)) / (v.toInt - z.toInt) = 0x46666666)))) ((tk 30000 ((setAll wUp [(aREF_VAL 0,
      ⟨0, 32⟩, 0x46666666)]).setIc 3 { Ic.empty with cal := some (0, 5) }))) 3 3#40 0x40000003#40 0 5 0 &&
    (fun (s : State) (n : Fin 16) (z v : BitVec 40) (k l r : Nat) => decide (s.Inv ∧ ((s.ic n.val).cal = some (k, l)) ∧
      s.anaRuns 57 ∧ (k + 8 * (l + 3000) ≤ s.tickN) ∧ (s.fld (aIC_STATUS n.val) fIC_STATUS_CAL_RANGE = r) ∧
      s.bit (aIC_STATUS n.val) fIC_STATUS_CAL_Q)) ((setAll (tk 30000 (wUp.setIc 3 { Ic.empty with cal := some (0, 5) })) [(aIC_STATUS 3,
      fIC_STATUS_CAL_Q, 1)])) 3 3#40 0x40000003#40 0 5 0 &&
    (fun (s : State) (n : Fin 16) (z v : BitVec 40) (k l r : Nat) => decide (s.Inv ∧ ((s.ic n.val).cal = some (k, l)) ∧
      s.anaRuns 57 ∧ (k + 8 * (l + 3000) ≤ s.tickN) ∧ (s.fld (aIC_STATUS n.val) fIC_STATUS_CAL_RANGE = r) ∧
      (s.bit (aIC_STATUS n.val) fIC_STATUS_CAL_Q = false) ∧ ((s.ic n.val).run = none) ∧
      ((s.ic n.val).queued = none))) ((tk 30000 (wUp.setIc 3 { Ic.empty with cal := some (0, 5) }))) 3 3#40 0x40000003#40 0 5 0 &&
    (fun (s : State) (n : Fin 16) (z v : BitVec 40) (k l r : Nat) (g : IcRun) => decide (s.Inv ∧ ((s.ic n.val).cal = some (k,
      l)) ∧ s.anaRuns 57 ∧ (k + 8 * (l + 3000) ≤ s.tickN) ∧ (s.fld (aIC_STATUS n.val) fIC_STATUS_CAL_RANGE = r) ∧
      (s.bit (aIC_STATUS n.val) fIC_STATUS_CAL_Q = false) ∧ (((s.ic n.val).run <|> (s.ic n.val).queued) = some g) ∧
      g.mains)) ((tk 30000 (wUp.setIc 3 { Ic.empty with cal := some (0, 5), run := some ⟨0, 1, 1, true, 0⟩ }))) 3 3#40 0x40000003#40 0 5 0 (⟨0,
      1, 1, true, 0⟩) &&
    (fun (s : State) (n : Fin 16) (z v : BitVec 40) (k l r : Nat) (g : IcRun) => decide (s.Inv ∧ ((s.ic n.val).cal = some (k,
      l)) ∧ s.anaRuns 57 ∧ (k + 8 * (l + 3000) ≤ s.tickN) ∧ (s.fld (aIC_STATUS n.val) fIC_STATUS_CAL_RANGE = r) ∧
      (s.bit (aIC_STATUS n.val) fIC_STATUS_CAL_Q = false) ∧ (((s.ic n.val).run <|> (s.ic n.val).queued) = some g) ∧
      (g.mains = false) ∧
      (k + 8 * (l + 3000)) < s.icDue n.val g)) ((tk 30000 (wUp.setIc 3 { Ic.empty with cal := some (0, 5), queued := some ⟨0, 1, 1, false, 99999⟩ }))) 3 3#40 0x40000003#40 0 5 0 (⟨0,
      1, 1, false, 99999⟩) &&
    (fun (s : State) (n : Fin 16) (z v : BitVec 40) (k l r : Nat) (g : IcRun) => decide (s.Inv ∧ ((s.ic n.val).cal = some (k,
      l)) ∧ s.anaRuns 57 ∧ (k + 8 * (l + 3000) ≤ s.tickN) ∧ (s.fld (aIC_STATUS n.val) fIC_STATUS_CAL_RANGE = r) ∧
      (s.bit (aIC_STATUS n.val) fIC_STATUS_CAL_Q = false) ∧ (((s.ic n.val).run <|> (s.ic n.val).queued) = some g) ∧
      (g.mains = false) ∧ (s.icDue n.val g ≤ (k + 8 * (l + 3000))) ∧
      (s.icPer n.val = 0))) ((tk 30000 (wUp.setIc 3 { Ic.empty with cal := some (0, 5), run := some ⟨0, 1, 1, false, 7⟩ }))) 3 3#40 0x40000003#40 0 5 0 (⟨0,
      1, 1, false, 7⟩) &&
    (fun (s : State) (n : Fin 16) (z v : BitVec 40) (k l r : Nat) (g : IcRun) (j : Nat) => decide (s.Inv ∧
      ((s.ic n.val).cal = some (k, l)) ∧ s.anaRuns 57 ∧ (k + 8 * (l + 3000) ≤ s.tickN) ∧
      (s.fld (aIC_STATUS n.val) fIC_STATUS_CAL_RANGE = r) ∧ (s.bit (aIC_STATUS n.val) fIC_STATUS_CAL_Q = false) ∧
      (((s.ic n.val).run <|> (s.ic n.val).queued) = some g) ∧ (g.mains = false) ∧ (s.icDue n.val g ≤ (k + 8 * (l + 3000))) ∧
      ((k + 8 * (l + 3000)) + 64 ≤ g.first + j * s.icPer n.val) ∧
      g.first + j * s.icPer n.val < (k + 8 * (l + 3000)) + 64 + s.icPer n.val ∧
      (g.k ≤ j))) ((setAll (tk 30000 (wUp.setIc 3 { Ic.empty with cal := some (0, 5), run := some ⟨0, 1, 1, false, 7⟩ })) [(aIC_PER 3,
      ⟨0, 32⟩, 10000)])) 3 3#40 0x40000003#40 0 5 0 (⟨0, 1, 1, false, 7⟩) 3 &&
    (fun (s : State) (n : Fin 16) (z v : BitVec 40) => decide (s.Inv ∧ ((s.anaRuns 57 = false ∨
      (s.ic n.val).cal.all (fun e => decide (s.tickN < e.1 + 8 * (e.2 + 3000))))))) wUp 3 3#40 7#40 &&
    (fun (s : State) (m : Rm) (n : Fin 16) (w : IcResult) (l : List IcResult) => decide (s.Inv ∧
      s.ringReady m (aIC_RESULT n.val) ∧
      ((s.ic n.val).fifo = w :: l))) ((wUp.setIc 3 { Ic.empty with fifo := [⟨7#32, 0, 22⟩] })) .core0 3 (⟨7#32, 0, 22⟩) ([]) &&
    (fun (s : State) (m : Rm) (n : Fin 16) => decide (s.Inv ∧ s.ringReady m (aIC_RESULT n.val) ∧ ((s.ic n.val).fifo = []) ∧
      m ≠ .debug)) wUp .core0 3 &&
    (fun (s : State) (n : Fin 16) => decide (s.Inv ∧ s.ringReady .debug (aIC_RESULT n.val) ∧ ((s.ic n.val).fifo = []))) wUp 3 &&
    (fun (s : State) (k : Nat) (l : List Nat) => decide (s.Inv ∧ s.anaRuns 57 ∧ (s.ana.cross = some k) ∧
      (l = (s.ana.periods ++ [s.now - k]).drop (s.ana.periods.length - 7)) ∧ (s.mainsLocked = false) ∧
      periodsSteady l)) wMains 0 (List.replicate 8 30000000) &&
    (fun (s : State) (k : Nat) (l : List Nat) => decide (s.Inv ∧ s.anaRuns 57 ∧ (s.ana.cross = some k) ∧
      (l = (s.ana.periods ++ [s.now - k]).drop (s.ana.periods.length - 7)) ∧ (s.mainsLocked = false) ∧
      (periodsSteady l = false))) ((tk 40000000 wMains)) 0 (List.replicate 7 30000000 ++ [40000000]) &&
    (fun (s : State) (k : Nat) (l : List Nat) => decide (s.Inv ∧ s.anaRuns 57 ∧ (s.ana.cross = some k) ∧
      (l = (s.ana.periods ++ [s.now - k]).drop (s.ana.periods.length - 7)) ∧ s.mainsLocked ∧
      (periodOff s.ana.periods (s.now - k) = false))) ((setAll { wMains with ana := { wMains.ana with periods := List.replicate 8 30000000 } } [(aMS_MEAS,
      fMS_MEAS_LOCKED, 1)])) 0 (List.replicate 8 30000000) &&
    (fun (s : State) (k : Nat) (l : List Nat) => decide (s.Inv ∧ s.anaRuns 57 ∧ (s.ana.cross = some k) ∧
      (l = (s.ana.periods ++ [s.now - k]).drop (s.ana.periods.length - 7)) ∧ s.mainsLocked ∧
      periodOff s.ana.periods (s.now - k) ∧ (periodsSteady l = false))) ((tk 31000000 (setAll wMains [(aMS_MEAS,
      fMS_MEAS_LOCKED, 1)]))) 0 (List.replicate 7 30000000 ++ [31000000]) &&
    (fun (s : State) (k : Nat) (l : List Nat) => decide (s.Inv ∧ s.anaRuns 57 ∧ (s.ana.cross = some k) ∧
      (l = (s.ana.periods ++ [s.now - k]).drop (s.ana.periods.length - 7)) ∧ s.mainsLocked ∧
      periodOff s.ana.periods (s.now - k) ∧ periodsSteady l)) ((setAll wMains [(aMS_MEAS, fMS_MEAS_LOCKED,
      1)])) 0 (List.replicate 8 30000000) &&
    (fun (s : State)  => decide (s.Inv ∧ s.anaRuns 57 ∧ (s.ana.cross = none))) wUp &&
    (fun (s : State) (n : Fin 16) => decide (s.Inv ∧
      s.anaRuns 57)) ((wUp.setIc 3 { Ic.empty with run := some ⟨0, 0, 0, true, 4⟩ })) 3 &&
    (fun (s : State)  => decide (s.Inv ∧ (s.anaRuns 57 = false))) ((ph .stopped)) &&
    (fun (s : State) (k : Nat) => decide (s.Inv ∧ (s.ana.cross = some k) ∧ s.anaRuns 57 ∧
      (k + 75000000 ≤ s.now))) ((tk 75000000 (setAll wMains [(aMS_MEAS, fMS_MEAS_LOCKED, 1)]))) 0 &&
    (fun (s : State)  => decide (s.Inv ∧ ((s.anaRuns 57 = false ∨ s.ana.cross.all (fun k => decide (s.now < k + 75000000)))))) wUp &&
    (fun (s : State) (m : Rm) (v : W32) => decide (s.Inv ∧ s.ringReady m aREF_LOOP ∧ (¬((getB v fREF_LOOP_EN ∧
      s.netUsed (getF v fREF_LOOP_BUS)) ∨ (s.bit aREF_LOOP fREF_LOOP_EN ∧
      getF v fREF_LOOP_BUS ≠ s.fld aREF_LOOP fREF_LOOP_BUS))))) wUp .core0 0x80030001#32 &&
    (fun (s : State) (m : Rm) (v : W32) => decide (s.Inv ∧ s.ringReady m aREF_LOOP ∧ (((getB v fREF_LOOP_EN ∧
      s.netUsed (getF v fREF_LOOP_BUS)) ∨ (s.bit aREF_LOOP fREF_LOOP_EN ∧
      getF v fREF_LOOP_BUS ≠ s.fld aREF_LOOP fREF_LOOP_BUS))))) ((setAll wUp [(aAB_ACT_IN 5, fAB_ACT_IN_OUT,
      4)])) .core0 0x80030001#32) = true := by decide +kernel

theorem witness_PowerRequests :
    ((fun (s : State) (m : Rm) (d : BitVec 7) (k : BitVec 2) => decide (s.Inv ∧ s.ringReady m aPWR_REQ ∧ (s.pwr.cur = none) ∧
      domKnown d.toNat ∧ (((k = 0#2 ∧ (s.domState d.toNat) ≠ 0) ∨ (k = 1#2 ∧ (s.domState d.toNat) ≠ 0 ∧
      (s.domState d.toNat) ≠ 2))))) wUp .core0 9#7 1#2 &&
    (fun (s : State) (m : Rm) (d : BitVec 7) (k : BitVec 2) => decide (s.Inv ∧ s.ringReady m aPWR_REQ ∧ ((s.pwr.cur ≠ none ∨
      k = 2#2 ∨ domKnown d.toNat = false ∨ (k = 1#2 ∧ (s.domState d.toNat) = 0))))) ((wPwr 16 0 0 0 false)) .core0 9#7 0#2 &&
    (fun (s : State) (m : Rm) (d : BitVec 7) (k : BitVec 2) => decide (s.Inv ∧ s.ringReady m aPWR_REQ ∧ (s.pwr.cur = none) ∧
      domKnown d.toNat ∧ (((k = 0#2 ∧ (s.domState d.toNat) = 0) ∨ (k = 1#2 ∧ (s.domState d.toNat) = 2) ∨ (k = 3#2 ∧
      ((s.domState d.toNat) = 3 ∨ (s.domState d.toNat) = 1)))))) wUp .core0 16#7 3#2 &&
    (fun (s : State) (m : Rm) (d : BitVec 7) (k : BitVec 2) => decide (s.Inv ∧ s.ringReady m aPWR_REQ ∧ (s.pwr.cur = none) ∧
      domKnown d.toNat ∧ (k = 3#2) ∧ (((s.domState d.toNat) = 0 ∨
      (s.domState d.toNat) = 2)))) ((wUp.setDom 19 0)) .core0 19#7 3#2) = true := by decide +kernel

theorem witness_PowerHandshake :
    ((fun (s : State) (r : PwrReq) => decide (s.Inv ∧ (s.pwr.cur = some r) ∧ s.hubRuns ∧ (r.granted = false) ∧ (r.askAt = 0) ∧
      (s.refusals r.domain = []) ∧ (s.mustDelay r.domain = false))) ((wPwr 19 0 5 0 false)) (⟨19, 0, 5, 0, false, 1, 0⟩) &&
    (fun (s : State) (r : PwrReq) => decide (s.Inv ∧ (s.pwr.cur = some r) ∧ s.hubRuns ∧ (r.granted = false) ∧ (r.askAt = 0) ∧
      (s.refusals r.domain = []) ∧ s.mustDelay r.domain)) ((setAll (wPwr 41 0 5 0 false) [(aTP_STATUS 1, fTP_STATUS_STATE,
      7)])) (⟨41, 0, 5, 0, false, 1, 0⟩) &&
    (fun (s : State) (r : PwrReq) (x : Nat) => decide (s.Inv ∧ (s.pwr.cur = some r) ∧ s.hubRuns ∧ (r.granted = false) ∧
      (r.askAt = 0) ∧ (s.refusals r.domain = [x]))) ((wPwr 16 0 5 0 false)) (⟨16, 0, 5, 0, false, 1, 0⟩) 5 &&
    (fun (s : State) (r : PwrReq) (x y : Nat) (l : List Nat) => decide (s.Inv ∧ (s.pwr.cur = some r) ∧ s.hubRuns ∧
      (r.granted = false) ∧ (r.askAt = 0) ∧ (s.refusals r.domain = x :: y :: l))) ((wPwr58 0)) (⟨58, 0, 5, 0, false, 1,
      0⟩) 6 1 ([]) &&
    (fun (s : State)  => decide (s.Inv ∧ ((s.hubRuns = false ∨ s.pwr.cur.all (fun r => r.granted || !r.askAt == 0))))) w0 &&
    (fun (s : State) (r : PwrReq) => decide (s.Inv ∧ (s.pwr.cur = some r) ∧ s.hubRuns ∧ (r.granted = false) ∧ r.askAt ≠ 0 ∧
      (r.askAt ≤ r.rim) ∧ (s.refusals r.domain = []) ∧ (s.mustDelay r.domain = false))) ((wPwr 19 0 5 4 false)) (⟨19, 0, 5, 4,
      false, 1, 0⟩) &&
    (fun (s : State) (r : PwrReq) => decide (s.Inv ∧ (s.pwr.cur = some r) ∧ s.hubRuns ∧ (r.granted = false) ∧ r.askAt ≠ 0 ∧
      (r.askAt ≤ r.rim) ∧ (s.refusals r.domain = []) ∧ s.mustDelay r.domain)) ((setAll (wPwr 41 0 5 4 false) [(aTP_STATUS 1,
      fTP_STATUS_STATE, 7)])) (⟨41, 0, 5, 4, false, 1, 0⟩) &&
    (fun (s : State) (r : PwrReq) (x : Nat) => decide (s.Inv ∧ (s.pwr.cur = some r) ∧ s.hubRuns ∧ (r.granted = false) ∧
      r.askAt ≠ 0 ∧ (r.askAt ≤ r.rim) ∧ (s.refusals r.domain = [x]))) ((wPwr 16 0 5 4 false)) (⟨16, 0, 5, 4, false, 1, 0⟩) 5 &&
    (fun (s : State) (r : PwrReq) (x y : Nat) (l : List Nat) => decide (s.Inv ∧ (s.pwr.cur = some r) ∧ s.hubRuns ∧
      (r.granted = false) ∧ r.askAt ≠ 0 ∧ (r.askAt ≤ r.rim) ∧ (s.refusals r.domain = x :: y :: l))) ((wPwr58 4)) (⟨58, 0, 5, 4,
      false, 1, 0⟩) 6 1 ([]) &&
    (fun (s : State)  => decide (s.Inv ∧ ((s.hubRuns = false ∨
      s.pwr.cur.all (fun r => r.granted || !(r.askAt != 0 && decide (r.askAt ≤ r.rim))))))) w0 &&
    (fun (s : State) (r : PwrReq) => decide (s.Inv ∧ (s.pwr.cur = some r) ∧ (r.granted = false) ∧
      (s.fld aPWR_LIMIT fPWR_LIMIT_LIMIT ≤ r.rim))) ((setAll (wPwr 41 0 7 0 false) [(aPWR_LIMIT, fPWR_LIMIT_LIMIT, 7)])) (⟨41,
      0, 7, 0, false, 1, 0⟩) &&
    (fun (s : State)  => decide (s.Inv ∧
      (s.pwr.cur.all (fun r => r.granted || decide (r.rim < s.fld aPWR_LIMIT fPWR_LIMIT_LIMIT))))) w0 &&
    (fun (s : State)  => decide (s.Inv)) w0 &&
    (fun (s : State)  => decide (s.Inv)) w0) = true := by decide +kernel

theorem witness_DomainChanges :
    ((fun (s : State) (r : PwrReq) => decide (s.Inv ∧ (s.pwr.cur = some r) ∧ s.hubRuns ∧
      r.due s.now)) ((tk 1 (wPwr 19 0 5 0 true))) (⟨19, 0, 5, 0, true, 1, 0⟩) &&
    (fun (s : State) (r : PwrReq) => decide (s.Inv ∧ (s.pwr.cur = some r) ∧ s.hubRuns ∧ r.due s.now ∧ (((r.target = 1 ∧
      s.heldState r.domain = 2) ∨ (r.target = 0 ∧ s.heldState r.domain = 0))) ∧
      (s.pwr.wakes = []))) ((tk 1 ((wPwr 19 0 5 0 true).setDom 19 0))) (⟨19, 0, 5, 0, true, 1, 0⟩) &&
    (fun (s : State)  => decide (s.Inv ∧ ((s.hubRuns = false ∨ s.pwr.cur.all (fun r => !r.due s.now))))) w0 &&
    (fun (s : State) (r : PwrReq) (x : Nat) => decide (s.Inv ∧ r.due x)) w0 (⟨19, 0, 5, 0, true, 1, 0⟩) 2 &&
    (fun (s : State) (r : PwrReq) => decide (s.Inv ∧ (s.pwr.cur = some r) ∧ s.hubRuns ∧ r.due s.now ∧ (¬((r.target = 1 ∧
      s.heldState r.domain = 2) ∨ (r.target = 0 ∧ s.heldState r.domain = 0))) ∧ (s.pwr.wakes = []) ∧ (r.target = 1) ∧
      (((8 ≤ r.domain ∧ r.domain < 15) ∨ r.domain = 24 ∨ (64 ≤ r.domain ∧ r.domain < 128) ∨ (36 ≤ r.domain ∧
      r.domain < 40))))) ((tk 1 (wPwr 67 1 5 0 true))) (⟨67, 1, 5, 0, true, 1, 0⟩) &&
    (fun (s : State) (r : PwrReq) (n : Nat) => decide (s.Inv ∧ (s.pwr.cur = some r) ∧ s.hubRuns ∧ r.due s.now ∧ (¬((r.target = 1 ∧
      s.heldState r.domain = 2) ∨ (r.target = 0 ∧ s.heldState r.domain = 0))) ∧ (s.pwr.wakes = []) ∧ (r.target = 1) ∧ n < 8 ∧
      (r.domain = 16 + n))) ((tk 1 (wPwrCore 1))) (⟨19, 1, 1, 0, true, 1, 0⟩) 3 &&
    (fun (s : State) (r : PwrReq) (n : Nat) => decide (s.Inv ∧ (s.pwr.cur = some r) ∧ s.hubRuns ∧ r.due s.now ∧ (¬((r.target = 1 ∧
      s.heldState r.domain = 2) ∨ (r.target = 0 ∧ s.heldState r.domain = 0))) ∧ (s.pwr.wakes = []) ∧ r.target ≠ 1 ∧
      (r.target = 0) ∧ n < 8 ∧ (r.domain = 16 + n))) ((tk 1 (wPwrCore 0))) (⟨19, 0, 1, 0, true, 1, 0⟩) 3 &&
    (fun (s : State) (r : PwrReq) (n : Nat) => decide (s.Inv ∧ (s.pwr.cur = some r) ∧ s.hubRuns ∧ r.due s.now ∧ (¬((r.target = 1 ∧
      s.heldState r.domain = 2) ∨ (r.target = 0 ∧ s.heldState r.domain = 0))) ∧ (s.pwr.wakes = []) ∧ (r.target = 0) ∧ n < 64 ∧
      (r.domain = 64 + n))) ((tk 1 ((wPwr 67 0 5 0 true).setBytes (bankBase 3) [1#8]))) (⟨67, 0, 5, 0, true, 1, 0⟩) 3 &&
    (fun (s : State) (r : PwrReq) (d : Nat) => decide (s.Inv ∧ (s.pwr.cur = some r) ∧ s.hubRuns ∧ r.due s.now ∧ (¬((r.target = 1 ∧
      s.heldState r.domain = 2) ∨ (r.target = 0 ∧ s.heldState r.domain = 0))) ∧ (s.pwr.wakes = []) ∧ (r.target = 0) ∧ d < 7 ∧
      (r.domain = 8 + d))) ((tk 1 (setAll (wPwr 9 0 5 0 true) [(aNI_CTRL 1 4, fNI_CTRL_EN, 1)]))) (⟨9, 0, 5, 0, true, 1, 0⟩) 1 &&
    (fun (s : State) (r : PwrReq) => decide (s.Inv ∧ (s.pwr.cur = some r) ∧ s.hubRuns ∧ r.due s.now ∧ (¬((r.target = 1 ∧
      s.heldState r.domain = 2) ∨ (r.target = 0 ∧ s.heldState r.domain = 0))) ∧ (s.pwr.wakes = []) ∧ (r.target = 0) ∧
      (r.domain = 24))) ((tk 1 (setAll (wPwr 24 0 5 0 true) [(aDMA_CTRL 2, fDMA_CTRL_EN, 1)]))) (⟨24, 0, 5, 0, true, 1, 0⟩) &&
    (fun (s : State) (r : PwrReq) (d : Nat) => decide (s.Inv ∧ (s.pwr.cur = some r) ∧ s.hubRuns ∧ r.due s.now ∧ (¬((r.target = 1 ∧
      s.heldState r.domain = 2) ∨ (r.target = 0 ∧ s.heldState r.domain = 0))) ∧ (s.pwr.wakes = []) ∧ ((r.target = 0 ∨
      r.target = 1)) ∧ d < 6 ∧ (r.domain = d))) ((tk 1 (setAll (wPwr 2 0 5 0 true) [(aCFG_DIES, ⟨4, 2⟩, 3)]))) (⟨2, 0, 5, 0,
      true, 1, 0⟩) 2 &&
    (fun (s : State) (r : PwrReq) => decide (s.Inv ∧ (s.pwr.cur = some r) ∧ s.hubRuns ∧ r.due s.now ∧ (¬((r.target = 1 ∧
      s.heldState r.domain = 2) ∨ (r.target = 0 ∧ s.heldState r.domain = 0))) ∧ (s.pwr.wakes = []) ∧ ((r.target = 0 ∨
      r.target = 1)) ∧ (r.domain = 58))) ((tk 1 (setAll (wPwr 58 0 5 0 true) [(aCFG_DIES, ⟨14, 2⟩, 3)]))) (⟨58, 0, 5, 0, true,
      1, 0⟩) &&
    (fun (s : State) (r : PwrReq) (d q j : Nat) => decide (s.Inv ∧ (s.pwr.cur = some r) ∧ s.hubRuns ∧ r.due s.now ∧
      (¬((r.target = 1 ∧ s.heldState r.domain = 2) ∨ (r.target = 0 ∧ s.heldState r.domain = 0))) ∧ (s.pwr.wakes = []) ∧
      (r.target = 0) ∧ d < 6 ∧ q < 4 ∧ j < 4 ∧
      (r.domain = 48 + d))) ((tk 1 (setAll (wPwr 50 0 5 0 true) [(aLN_CTRL (quadBlock 2 1) 0, fLN_CTRL_MODE, 1)]))) (⟨50, 0, 5,
      0, true, 1, 0⟩) 2 1 0 &&
    (fun (s : State) (r : PwrReq) (d q j : Nat) => decide (s.Inv ∧ (s.pwr.cur = some r) ∧ s.hubRuns ∧ r.due s.now ∧
      (¬((r.target = 1 ∧ s.heldState r.domain = 2) ∨ (r.target = 0 ∧ s.heldState r.domain = 0))) ∧ (s.pwr.wakes = []) ∧
      (r.target = 1) ∧ d < 6 ∧ q < 4 ∧ j < 4 ∧
      (r.domain = 48 + d))) ((tk 1 (setAll (wPwr 50 1 5 0 true) [(aLN_CTRL (quadBlock 2 1) 0, fLN_CTRL_MODE, 1)]))) (⟨50, 1, 5,
      0, true, 1, 0⟩) 2 1 0 &&
    (fun (s : State) (r : PwrReq) (p : Nat) => decide (s.Inv ∧ (s.pwr.cur = some r) ∧ s.hubRuns ∧ r.due s.now ∧ (¬((r.target = 1 ∧
      s.heldState r.domain = 2) ∨ (r.target = 0 ∧ s.heldState r.domain = 0))) ∧ (s.pwr.wakes = []) ∧ p < 6 ∧
      (r.domain = 40 + p))) ((tk 1 (wPwr 41 0 5 0 true))) (⟨41, 0, 5, 0, true, 1, 0⟩) 1 &&
    (fun (s : State) (r : PwrReq) (d : Nat) => decide (s.Inv ∧ (s.pwr.cur = some r) ∧ s.hubRuns ∧ r.due s.now ∧ (¬((r.target = 1 ∧
      s.heldState r.domain = 2) ∨ (r.target = 0 ∧ s.heldState r.domain = 0))) ∧ (s.pwr.wakes = []) ∧ (r.target = 1) ∧ d < 4 ∧
      (r.domain = 32 + d))) ((tk 1 (setAll (wPwr 33 1 5 0 true) [(aDR_STATUS 1, fDR_STATUS_STATE, 3)]))) (⟨33, 1, 5, 0, true, 1,
      0⟩) 1 &&
    (fun (s : State) (r : PwrReq) (d : Nat) => decide (s.Inv ∧ (s.pwr.cur = some r) ∧ s.hubRuns ∧ r.due s.now ∧ (¬((r.target = 1 ∧
      s.heldState r.domain = 2) ∨ (r.target = 0 ∧ s.heldState r.domain = 0))) ∧ (s.pwr.wakes = []) ∧ (r.target = 0) ∧ d < 4 ∧
      (r.domain = 32 + d))) ((tk 1 (setAll (wPwr 33 0 5 0 true) [(aDR_STATUS 1, fDR_STATUS_STATE, 3), (aDR_CTRL 1,
      fDR_CTRL_KEEP, 1)]))) (⟨33, 0, 5, 0, true, 1, 0⟩) 1 &&
    (fun (s : State) (r : PwrReq) => decide (s.Inv ∧ (s.pwr.cur = some r) ∧ s.hubRuns ∧ r.due s.now ∧ (¬((r.target = 1 ∧
      s.heldState r.domain = 2) ∨ (r.target = 0 ∧ s.heldState r.domain = 0))) ∧ (s.pwr.wakes = []) ∧ (r.target = 0) ∧
      ((36 ≤ r.domain ∧ r.domain < 40)))) ((tk 1 (wPwr 37 0 5 0 true))) (⟨37, 0, 5, 0, true, 1, 0⟩) &&
    (fun (s : State) (r : PwrReq) (n : Fin 48) => decide (s.Inv ∧ (s.pwr.cur = some r) ∧ s.hubRuns ∧ r.due s.now ∧
      (¬((r.target = 1 ∧ s.heldState r.domain = 2) ∨ (r.target = 0 ∧ s.heldState r.domain = 0))) ∧ (s.pwr.wakes = []) ∧
      ((r.target = 0 ∨ r.target = 1)) ∧
      (r.domain = 56))) ((tk 1 ((wPwr 56 0 5 0 true).setAb 2 { Ab.empty with run := some ⟨0, 2, 2⟩, fifo := [9#32] }))) (⟨56, 0,
      5, 0, true, 1, 0⟩) 2 &&
    (fun (s : State) (r : PwrReq) (n : Fin 16) => decide (s.Inv ∧ (s.pwr.cur = some r) ∧ s.hubRuns ∧ r.due s.now ∧
      (¬((r.target = 1 ∧ s.heldState r.domain = 2) ∨ (r.target = 0 ∧ s.heldState r.domain = 0))) ∧ (s.pwr.wakes = []) ∧
      ((r.target = 0 ∨ r.target = 1)) ∧
      (r.domain = 57))) ((tk 1 ((wPwr 57 0 5 0 true).setIc 2 { Ic.empty with run := some ⟨0, 1, 1, false, 0⟩ }))) (⟨57, 0, 5, 0,
      true, 1, 0⟩) 2 &&
    (fun (s : State) (d : BitVec 7) => decide (s.Inv ∧ s.hubRuns ∧
      (s.pwr.turning.any (fun x => x.1 == d.toNat && decide (x.2 ≤ s.now))) ∧ ((d.toNat < 32 ∨
      36 ≤ d.toNat)))) ((((tk 9 wUp).setDom 37 1) |> fun s => { s with pwr := { s.pwr with turning := [(37, 9)] } })) 37#7 &&
    (fun (s : State) (d : BitVec 7) (k : Fin 4) => decide (s.Inv ∧ s.hubRuns ∧
      (s.pwr.turning.any (fun x => x.1 == d.toNat && decide (x.2 ≤ s.now))) ∧ (d.toNat = 32 + k.val) ∧ (s.dramState k.val = 4) ∧
      (s.fld (aDR_LB k.val) fDR_LB_DEPTH = 0))) ((setAll wTurning [(aDR_STATUS 1, fDR_STATUS_STATE, 4)])) 33#7 1 &&
    (fun (s : State) (d : BitVec 7) (k : Fin 4) => decide (s.Inv ∧ s.hubRuns ∧
      (s.pwr.turning.any (fun x => x.1 == d.toNat && decide (x.2 ≤ s.now))) ∧ (d.toNat = 32 + k.val) ∧
      (¬(s.dramState k.val = 4 ∧ s.fld (aDR_LB k.val) fDR_LB_DEPTH = 0)))) wTurning 33#7 1 &&
    (fun (s : State) (d : BitVec 7) => decide (s.Inv ∧ ((s.hubRuns = false ∨
      s.pwr.turning.all (fun x => x.1 != d.toNat || decide (s.now < x.2)))))) w0 33#7 &&
    (fun (s : State) (d e : Nat) => decide (s.Inv ∧ (s.now ≤ e))) w0 19 3 &&
    (fun (s : State) (d e : Nat) => decide (s.Inv ∧ e < s.now)) ((tk 5 (wUp.setDom 19 1))) 19 3 &&
    (fun (s : State) (d e : Nat) => decide (s.Inv ∧ (e + 3 ≤ s.now) ∧ (((8 ≤ d ∧ d < 32) ∨ d = 56 ∨
      d = 57)))) ((tk 9 (wUp.setDom 19 1))) 19 3 &&
    (fun (s : State) (d e : Nat) => decide (s.Inv ∧ (e + 3 ≤ s.now) ∧ d < 6 ∧ (s.dieState d = 2) ∧
      (s.dieStart d = none))) ((tk 9 (setAll (wUp.setDom 2 1) [(aCFG_DIES, ⟨4, 2⟩, 2)]))) 2 3 &&
    (fun (s : State) (d e : Nat) => decide (s.Inv ∧ (e + 3 ≤ s.now) ∧ ((64 ≤ d ∧ d < 128)) ∧
      (s.domState d = 1))) ((tk 9 (wUp.setDom 67 1))) 67 3 &&
    (fun (s : State) (d e : Nat) => decide (s.Inv ∧ (e + 3 ≤ s.now) ∧ ((32 ≤ d ∧ d < 40)))) ((tk 9 (wUp.setDom 37 1))) 37 3) = true := by decide +kernel

theorem witness_RealTimeClock :
    ((fun (s : State) (m : Rm) => decide (s.Inv ∧ s.ringReady m aRTC_CTRL)) wAlarm .core0 &&
    (fun (s : State)  => decide (s.Inv)) ({ w0 with pwr := { w0.pwr with loadPending := true } }) &&
    (fun (s : State) (m : Rm) => decide (s.Inv ∧ s.ringReady m aRTC_SNAP)) ((tk 5 wAlarm)) .core0 &&
    (fun (s : State)  => decide (s.Inv ∧ s.bit aRTC_CTRL fRTC_CTRL_ALM_EN ∧ (s.pwr.rtcStopped = false) ∧ (s.pwr.almDone = false) ∧
      (s.pwr.rtc.toNat = s.alarmAt) ∧ s.clk.phase ≠ .porHold ∧ ((s.bit aRTC_CTRL fRTC_CTRL_WAKE_EN = false ∨
      s.hubRuns = false)))) wAlarm &&
    (fun (s : State) (r : PwrReq) => decide (s.Inv ∧ s.bit aRTC_CTRL fRTC_CTRL_ALM_EN ∧ (s.pwr.rtcStopped = false) ∧
      (s.pwr.almDone = false) ∧ (s.pwr.rtc.toNat = s.alarmAt) ∧ s.clk.phase ≠ .porHold ∧ s.bit aRTC_CTRL fRTC_CTRL_WAKE_EN ∧
      s.hubRuns ∧
      (s.pwr.cur = some r))) ((setAll { wAlarm with pwr := { wAlarm.pwr with cur := some ⟨19, 0, 1, 0, false, 0, 0⟩ } } [(aRTC_CTRL,
      fRTC_CTRL_WAKE_EN, 1), (aRTC_WAKE 0, ⟨17, 1⟩, 1)])) (⟨19, 0, 1, 0, false, 0, 0⟩) &&
    (fun (s : State) (l : List Nat) => decide (s.Inv ∧ s.bit aRTC_CTRL fRTC_CTRL_ALM_EN ∧ (s.pwr.rtcStopped = false) ∧
      (s.pwr.almDone = false) ∧ (s.pwr.rtc.toNat = s.alarmAt) ∧ s.clk.phase ≠ .porHold ∧ s.bit aRTC_CTRL fRTC_CTRL_WAKE_EN ∧
      s.hubRuns ∧ (s.pwr.cur = none) ∧ (l = s.pwr.wakes ++ s.wakeList) ∧
      (l.all (fun j => decide (j < 128))))) (((setAll wAlarm [(aRTC_CTRL, fRTC_CTRL_WAKE_EN, 1), (aRTC_WAKE 0, ⟨17, 1⟩,
      1)]).setDom 17 0)) ([17]) &&
    (fun (s : State)  => decide (s.Inv ∧ (¬(s.bit aRTC_CTRL fRTC_CTRL_ALM_EN ∧ s.pwr.rtcStopped = false ∧ s.pwr.almDone = false ∧
      s.pwr.rtc.toNat = s.alarmAt ∧ s.clk.phase ≠ .porHold)))) w0 &&
    (fun (s : State)  => decide (s.Inv ∧ (s.pwr.rtcStopped = false))) wAlarm &&
    (fun (s : State)  => decide (s.Inv ∧ s.pwr.rtcStopped)) ({ wAlarm with pwr := { wAlarm.pwr with rtcStopped := true } }) &&
    (fun (s : State)  => decide (s.Inv)) wAlarm) = true := by decide +kernel

theorem witness_EventSources :
    ((fun (s : State) (e : BitVec 11) => decide (s.Inv ∧ s.hubRuns ∧ eventAssigned e.toNat ∧ (isCollected e.toNat = false) ∧
      (s.channelMsg e.toNat = none))) ((setAll wEv [(aEV_ROUTE 100, fEV_ROUTE_MSG_EN, 0)])) 100#11 &&
    (fun (s : State) (e : BitVec 11) (x : EvMsg) => decide (s.Inv ∧ s.hubRuns ∧ eventAssigned e.toNat ∧
      (isCollected e.toNat = false) ∧ (s.channelMsg e.toNat = some x) ∧
      s.ev.bridgeQ.length < 32)) wEv 100#11 ({ addr := msgAddr 5 0x7E00 true 3 100, srcDev := 0#16, srcDie := 6, pri := 2 }) &&
    (fun (s : State) (e : BitVec 11) (x : EvMsg) => decide (s.Inv ∧ s.hubRuns ∧ eventAssigned e.toNat ∧
      (isCollected e.toNat = false) ∧ (s.channelMsg e.toNat = some x) ∧ (32 ≤ s.ev.bridgeQ.length) ∧
      (s.fld aEV_STAT fEV_STAT_MSG_LOST = 0))) ({ wEv with ev := { wEv.ev with bridgeQ := List.replicate 32 wEvMsg } }) 100#11 ({ addr := msgAddr 5 0x7E00 true 3 100, srcDev := 0#16, srcDie := 6, pri := 2 }) &&
    (fun (s : State) (e : BitVec 11) (x : EvMsg) => decide (s.Inv ∧ s.hubRuns ∧ eventAssigned e.toNat ∧
      (isCollected e.toNat = false) ∧ (s.channelMsg e.toNat = some x) ∧ (32 ≤ s.ev.bridgeQ.length) ∧
      s.fld aEV_STAT fEV_STAT_MSG_LOST ≠ 0)) ((setAll { wEv with ev := { wEv.ev with bridgeQ := List.replicate 32 wEvMsg } } [(aEV_STAT,
      fEV_STAT_MSG_LOST, 4)])) 100#11 ({ addr := msgAddr 5 0x7E00 true 3 100, srcDev := 0#16, srcDie := 6, pri := 2 }) &&
    (fun (s : State) (e : BitVec 11) => decide (s.Inv ∧ s.runs ∧ eventAssigned e.toNat ∧ isCollected e.toNat ∧
      (s.inReset (eventDie e.toNat) = false))) wEv 1000#11 &&
    (fun (s : State) (e : BitVec 11) => decide (s.Inv ∧ ((eventAssigned e.toNat = false ∨ (isCollected e.toNat ∧ (s.runs = false ∨
      s.inReset (eventDie e.toNat))) ∨ (isCollected e.toNat = false ∧ s.hubRuns = false))))) wEv 4#11 &&
    (fun (s : State) (e : BitVec 11) (i : Nat) => decide (s.Inv ∧ s.hubRuns ∧ eventAssigned e.toNat ∧
      (isCollected e.toNat = false) ∧ (i = s.fld (aEV_ROUTE e.toNat) fEV_ROUTE_OUT) ∧
      s.bit (aEV_ROUTE e.toNat) fEV_ROUTE_OUT_EN ∧ s.bit (aEV_OUT_CFG i) fEV_OUT_CFG_EN ∧
      ((s.fld (aEV_OUT_CFG i) fEV_OUT_CFG_MODE = 0 ∨ s.fld (aEV_OUT_CFG i) fEV_OUT_CFG_MODE = 3)) ∧
      ((s.channelMsg e.toNat = none ∨ s.ev.bridgeQ.length < 32)))) ((setAll wEv [(aEV_ROUTE 100, fEV_ROUTE_MSG_EN, 0),
      (aEV_OUT_CFG 2, fEV_OUT_CFG_MODE, 0)])) 100#11 2 &&
    (fun (s : State) (e : BitVec 11) (i : Nat) => decide (s.Inv ∧ s.hubRuns ∧ eventAssigned e.toNat ∧
      (isCollected e.toNat = false) ∧ (i = s.fld (aEV_ROUTE e.toNat) fEV_ROUTE_OUT) ∧
      s.bit (aEV_ROUTE e.toNat) fEV_ROUTE_OUT_EN ∧ s.bit (aEV_OUT_CFG i) fEV_OUT_CFG_EN ∧
      (s.fld (aEV_OUT_CFG i) fEV_OUT_CFG_MODE = 1) ∧ ((s.channelMsg e.toNat = none ∨
      s.ev.bridgeQ.length < 32)))) ((setAll wEv [(aEV_ROUTE 100, fEV_ROUTE_MSG_EN, 0), (aEV_OUT_CFG 2, fEV_OUT_CFG_MODE,
      1)])) 100#11 2 &&
    (fun (s : State) (e : BitVec 11) (i : Nat) => decide (s.Inv ∧ s.hubRuns ∧ eventAssigned e.toNat ∧
      (isCollected e.toNat = false) ∧ (i = s.fld (aEV_ROUTE e.toNat) fEV_ROUTE_OUT) ∧
      s.bit (aEV_ROUTE e.toNat) fEV_ROUTE_OUT_EN ∧ s.bit (aEV_OUT_CFG i) fEV_OUT_CFG_EN ∧
      (s.fld (aEV_OUT_CFG i) fEV_OUT_CFG_MODE = 2) ∧ ((s.channelMsg e.toNat = none ∨
      s.ev.bridgeQ.length < 32)))) ((setAll wEv [(aEV_ROUTE 100, fEV_ROUTE_MSG_EN, 0), (aEV_OUT_CFG 2, fEV_OUT_CFG_MODE,
      2)])) 100#11 2 &&
    (fun (s : State) (i : Fin 8) (k : Nat) => decide (s.Inv ∧ s.hubRuns ∧ ((s.outPin i.val).pulseUntil = some k) ∧
      (k ≤ s.now))) ((wEv.setOutPin 2 { OutPin.idle with pulseUntil := some 0 })) 2 0 &&
    (fun (s : State) (i : Fin 8) => decide (s.Inv ∧ ((s.hubRuns = false ∨
      (s.outPin i.val).pulseUntil.all (fun k => decide (s.now < k)))))) wEv 2 &&
    (fun (s : State) (m : Rm) (v : BitVec 8) => decide (s.Inv ∧
      s.ringReady m aEV_OUT_CLR)) ((wEv.setOutPin 2 { OutPin.idle with level := true })) .core0 4#8 &&
    (fun (s : State) (m : Rm) (i : Fin 8) (v : W32) => decide (s.Inv ∧
      s.ringReady m (aEV_OUT_CFG i.val))) ((wEv.setOutPin 2 { OutPin.idle with level := true })) .core0 2 7#32) = true := by decide +kernel

theorem witness_EventMessages :
    ((fun (s : State) (e : BitVec 11) (d : Nat) => decide (s.Inv ∧ (d = eventDie e.toNat) ∧ isCollected e.toNat ∧
      (tget (fun _ => false) s.ev.coll e.toNat = true) ∧ s.collectorPath d)) ((wUp.raise 1000)) 1000#11 1 &&
    (fun (s : State) (e : BitVec 11) => decide (s.Inv ∧ ((isCollected e.toNat = false ∨
      tget (fun _ => false) s.ev.coll e.toNat = false ∨ s.collectorPath (eventDie e.toNat) = false)))) wUp 1000#11 &&
    (fun (s : State) (x : EvMsg) (l : List EvMsg) (q : BitVec 256) => decide (s.Inv ∧ (s.ev.bridgeQ = x :: l) ∧ s.runs ∧
      s.domOn 14 ∧
      (s.routeRequest 6 47 (s.fillHdr 6 47 (0x10 + 47) (channelPacket x).hdr) = .to q))) ((wBridge [wEvMsg])) wEvMsg ([]) ((match (wBridge [wEvMsg]).routeRequest 6 47 ((wBridge [wEvMsg]).fillHdr 6 47 63 (channelPacket wEvMsg).hdr) with | .to h => h | .err _ => 0)) &&
    (fun (s : State) (x : EvMsg) (l : List EvMsg) => decide (s.Inv ∧ (s.ev.bridgeQ = x :: l) ∧ s.runs ∧ s.domOn 14 ∧
      (s.routeRequest 6 47 (s.fillHdr 6 47 (0x10 + 47) (channelPacket x).hdr) = .err none))) ({ wUp with ev := { wUp.ev with bridgeQ := [{ wEvMsg with addr := 0x7D0000000000#64 }] } }) ({ wEvMsg with addr := 0x7D0000000000#64 }) ([]) &&
    (fun (s : State) (x : EvMsg) (l : List EvMsg) (f : Fld) => decide (s.Inv ∧ (s.ev.bridgeQ = x :: l) ∧ s.runs ∧ s.domOn 14 ∧
      (s.routeRequest 6 47 (s.fillHdr 6 47 (0x10 + 47) (channelPacket x).hdr) = .err (some f)))) ({ wUp with ev := { wUp.ev with bridgeQ := [{ wEvMsg with addr := msgAddr 0 0x3000 true 3 100 }] } }) ({ wEvMsg with addr := msgAddr 0 0x3000 true 3 100 }) ([]) fNI_ERR_ROUTE_MISS &&
    (fun (s : State)  => decide (s.Inv ∧ ((s.ev.bridgeQ = [] ∨ s.runs = false ∨ s.domState 14 ≠ 3)))) wUp &&
    (fun (s : State) (x : EvMsg) (l : List EvMsg) (c : Nat) => decide (s.Inv ∧ (s.ev.flight = x :: l) ∧ s.hubRuns ∧
      x.addr.getLsbD 15 ∧ (c = x.addr.toNat / 4096 % 8))) ((wEvIn wEvMsg)) wEvMsg ([]) 3 &&
    (fun (s : State) (x : EvMsg) (l : List EvMsg) => decide (s.Inv ∧ (s.ev.flight = x :: l) ∧ s.hubRuns ∧
      (x.addr.getLsbD 15 = false) ∧ (x.srcDev.toNat = s.devId) ∧ isCollected (x.addr.toNat % 2048) ∧
      (eventDie (x.addr.toNat % 2048) = x.srcDie))) ((wEvIn { addr := msgAddr 0 0x7E00 false 0 1000, srcDev := 0#16, srcDie := 1, pri := 3 })) ({ addr := msgAddr 0 0x7E00 false 0 1000, srcDev := 0#16, srcDie := 1, pri := 3 }) ([]) &&
    (fun (s : State) (x : EvMsg) (l : List EvMsg) => decide (s.Inv ∧ (s.ev.flight = x :: l) ∧ s.hubRuns ∧
      (x.addr.getLsbD 15 = false) ∧ ((x.srcDev.toNat ≠ s.devId ∨ isCollected (x.addr.toNat % 2048) = false ∨
      eventDie (x.addr.toNat % 2048) ≠ x.srcDie)))) ((wEvIn { addr := msgAddr 0 0x7E00 false 0 1000, srcDev := 9#16, srcDie := 1, pri := 3 })) ({ addr := msgAddr 0 0x7E00 false 0 1000, srcDev := 9#16, srcDie := 1, pri := 3 }) ([]) &&
    (fun (s : State)  => decide (s.Inv ∧ ((s.ev.flight = [] ∨ s.hubRuns = false)))) wUp) = true := by decide +kernel

theorem witness_RingAccesses :
    ((fun (s : State) (m : Rm) (r : RingReq) (k : Nat) => decide (s.Inv ∧ r.die < 8 ∧ r.block < 65536 ∧ r.off < 65536 ∧ k < 4 ∧
      s.ringReady m (ringAddr r) ∧ (r.write = false) ∧ (ringAddr r) ∈ [aDEVICE_ID, aDEVICE_CODE, aBREACH_SUM, aPWR_RESULT,
      aPWR_LIMIT, aEV_STAT, aPAT_STATUS, aREF_STATUS, aBANK_OWNER k, aEV_ROUTE k, aEV_RX_0 k, aDMA_CUR k, aNI_ERR k 4,
      aAB_FLAG k])) wEv .core0 ((wRq (aEV_ROUTE 1) false)) 1 &&
    (fun (s : State) (m : Rm) (r : RingReq) => decide (s.Inv ∧ r.die < 8 ∧ r.block < 65536 ∧ r.off < 65536 ∧
      s.ringReady m (ringAddr r) ∧ (r.write = false) ∧ r.die < 7 ∧
      ((ringAddr r) = aDIE_INFO r.die))) wEv .debug ((wRq (aDIE_INFO 5) false)) &&
    (fun (s : State) (m : Rm) (r : RingReq) => decide (s.Inv ∧ r.die < 8 ∧ r.block < 65536 ∧ r.off < 65536 ∧
      s.ringReady m (ringAddr r))) wEv .core0 ((wRq (aCORE_CTRL 3) true)) &&
    (fun (s : State) (m : Rm) (r : RingReq) => decide (s.Inv ∧ r.die < 8 ∧ r.block < 65536 ∧ r.off < 65536 ∧
      ((s.master m).busy = false) ∧ (s.ringClosed r.die = false) ∧ (s.ringGranted = false) ∧ s.reach r.die ∧
      (regRow (ringAddr r) = none))) wEv .core0 ((wRq (ra 6 0x999 0) true)) &&
    (fun (s : State) (m : Rm) (r : RingReq) (d : Nat) => decide (s.Inv ∧ r.die < 8 ∧ r.block < 65536 ∧ r.off < 65536 ∧
      ((s.master m).busy = false) ∧ (s.ringClosed r.die = false) ∧ (s.ringGranted = false) ∧ s.reach r.die ∧
      regRow (ringAddr r) ≠ none ∧ (blockDom r.die r.block r.off = some d) ∧
      s.domState d ≠ 3)) ((wUp.setDom 19 0)) .core0 ((wRq (aCORE_CTRL 3) true)) 19 &&
    (fun (s : State) (m : Rm) (r : RingReq) => decide (s.Inv ∧ ((s.master m).busy = false) ∧
      s.ringClosed r.die)) ((ph .stopped)) .core0 ((wRq (aCORE_CTRL 3) true)) &&
    (fun (s : State) (m : Rm) (r : RingReq) => decide (s.Inv ∧ ((s.master m).busy = false) ∧ (s.ringClosed r.die = false) ∧
      s.ringGranted)) ((wAcc (aCORE_CTRL 3) false true)) .debug ((wRq (aCORE_CTRL 3) true)) &&
    (fun (s : State) (m : Rm) (r : RingReq) => decide (s.Inv ∧ ((s.master m).busy = false) ∧ (s.ringClosed r.die = false) ∧
      (s.ringGranted = false) ∧ (s.reach r.die = false))) w0 .core0 ((wRq (aNI_CTRL 1 4) true)) &&
    (fun (s : State) (m : Rm) (r : RingReq) => decide (s.Inv ∧
      (s.master m).busy)) ((wAcc (aCORE_CTRL 3) false true)) .core0 ((wRq (aNI_CTRL 1 4) true)) &&
    (fun (s : State) (m : Rm) (a : Nat) (v : W32) (f : State → Answer) => decide (s.Inv ∧
      (s.master m).busy)) ((wAcc (aCORE_CTRL 3) false true)) .core0 ((aCORE_CTRL 3)) 5#32 ((fun s => wrote s)) &&
    (fun (s : State) (m : Rm) (a : Nat) (v : W32) (f : State → Answer) => decide (s.Inv ∧ ((s.master m).busy = false) ∧
      s.ringClosed (a / 4294967296))) ((ph .stopped)) .core0 ((aCORE_CTRL 3)) 5#32 ((fun s => wrote s)) &&
    (fun (s : State) (m : Rm) (a : Nat) (v : W32) (f : State → Answer) => decide (s.Inv ∧ ((s.master m).busy = false) ∧
      (s.ringClosed (a / 4294967296) = false) ∧
      s.ringGranted)) ((wAcc (aCORE_CTRL 3) false true)) .debug ((aCORE_CTRL 3)) 5#32 ((fun s => wrote s)) &&
    (fun (s : State) (m : Rm) => decide (s.Inv ∧ (s.ringGranted = false) ∧
      (s.nextWaiting = some m))) (((wAcc (aCORE_CTRL 3) false true).setMaster .core0 { (wAcc (aCORE_CTRL 3) false true).master .core0 with waiting := true, answered := false, granted := false })) .core0 &&
    (fun (s : State) (m : Rm) => decide (s.Inv ∧ (s.master m).busy ∧ (s.master m).answered ∧ ((s.master m).remote = none) ∧
      (((s.master m).req.write ∨ (s.master m).ansStatus = .ok ∨
      (s.master m).ansStatus = .decode)))) ((wAcc (aCORE_CTRL 3) false true)) .core0 &&
    (fun (s : State) (m : Rm) => decide (s.Inv ∧ (s.master m).busy ∧ (s.master m).answered ∧ ((s.master m).remote = none) ∧
      (¬((s.master m).req.write ∨ (s.master m).ansStatus = .ok ∨
      (s.master m).ansStatus = .decode)))) (((wAcc (aCORE_CTRL 3) false true).setMaster .core0 { (wAcc (aCORE_CTRL 3) false true).master .core0 with ansStatus := .refused })) .core0 &&
    (fun (s : State) (m : Rm) (b : BitVec 120) => decide (s.Inv ∧ (s.master m).busy ∧ (s.master m).answered ∧
      ((s.master m).remote = some b))) (((wAcc (aCORE_CTRL 3) false true).setMaster .config { (wAcc (aCORE_CTRL 3) false true).master .core0 with remote := some 5#120 })) .config 5#120 &&
    (fun (s : State) (m : Rm) => decide (s.Inv ∧ (s.master m).busy ∧ ((s.master m).answered = false) ∧
      s.ringClosed (s.master m).req.die)) ({ wAcc (aCORE_CTRL 3) true false with clk := (ph .stopped).clk }) .core0 &&
    (fun (s : State) (m : Rm) => decide (s.Inv ∧ (s.master m).busy ∧ ((s.master m).answered = false) ∧
      ((s.master m).waiting = false) ∧ (s.ringClosed (s.master m).req.die = false) ∧
      s.reach (s.master m).req.die)) ((wAcc (aCORE_CTRL 3) false false)) .core0 &&
    (fun (s : State) (m : Rm) => decide (s.Inv ∧ (((s.master m).busy = false ∨ ((s.master m).answered = false ∧
      s.ringClosed (s.master m).req.die = false ∧ ((s.master m).waiting ∨ s.reach (s.master m).req.die = false)))))) w0 .core0 &&
    (fun (s : State) (m : Rm) => decide (s.Inv ∧ (s.master m).busy ∧ ((s.master m).waiting = false) ∧
      ((s.master m).grantAt + ringTicks 4096 ≤ s.now) ∧ (((s.master m).answered ∨
      (s.master m).req.write = false)))) ((tk 25000 (wAcc (aNI_CTRL 1 4) false false))) .core0 &&
    (fun (s : State) (m : Rm) => decide (s.Inv ∧ (s.master m).busy ∧ ((s.master m).waiting = false) ∧
      ((s.master m).grantAt + ringTicks 4096 ≤ s.now) ∧ ((s.master m).answered = false) ∧
      (s.master m).req.write)) ((tk 25000 (wAcc (aNI_CTRL 1 4) true false))) .core0 &&
    (fun (s : State) (m : Rm) => decide (s.Inv ∧ (((s.master m).busy = false ∨ (s.master m).waiting ∨
      s.now < (s.master m).grantAt + ringTicks 4096)))) ((wAcc (aNI_CTRL 1 4) false false)) .core0 &&
    (fun (s : State) (m : Rm) (die : Fin 8) (block off : BitVec 16) (v : W32) (a k : Nat) (w : RegRow) => decide (s.Inv ∧
      (a = ra die.val block.toNat off.toNat) ∧ k < 4 ∧ s.ringReady m a ∧ (regRow a = some w) ∧ a ∈ [aPWR_LIMIT, aRIM_STAT,
      aRTC_SET_LO, aRTC_SET_HI, aRTC_ALM_LO, aRTC_ALM_HI, aRTC_WAKE k, aEV_CTRL, aEV_MSG k, aEV_ROUTE k, aNI_ERR k 4,
      aAB_FLAG k])) wUp .core0 6 2#16 0x130#16 5#32 ((aRTC_WAKE 0)) 0 (((regRow (aRTC_WAKE 0)).getD ⟨0, 1, 0, 0, 0, 0⟩)) &&
    (fun (s : State) (m : Rm) (die : Fin 8) (block off : BitVec 16) (v : W32) (a : Nat) => decide (s.Inv ∧
      (a = ra die.val block.toNat off.toNat) ∧ s.ringReady m a ∧
      (ownRow die.val block.toNat off.toNat = false))) wUp .core0 6 2#16 0x130#16 5#32 ((aRTC_WAKE 0)) &&
    (fun (s : State) (m : Rm) (die : Fin 8) (block off : BitVec 16) (v : W32) => decide (s.Inv ∧
      ((ownRow die.val block.toNat off.toNat ∨ (s.master m).busy)))) wUp .core0 6 2#16 0#16 5#32) = true := by decide +kernel

theorem witness_TapAccess :
    ((fun (s : State) (b : Bool) => decide (s.Inv)) ((wTapDie 0x13#8)) true &&
    (fun (s : State) (h : BitVec 8) (v : W64) => decide (s.Inv ∧ s.tapLive ∧ ((intrusive h = false ∨
      intrusive s.tap.ir)))) ((wTapDie 0x13#8)) 0x10#8 0x0102030405060708#64 &&
    (fun (s : State) (h : BitVec 8) (v : W64) => decide (s.Inv ∧ s.tapLive ∧ intrusive h ∧ (intrusive s.tap.ir = false) ∧
      s.runs)) ((setAll (wTapDie 0x13#8) [(aTP_CTRL 1, fTP_CTRL_EN, 1), (aTP_STATUS 1, fTP_STATUS_STATE,
      6)])) 0x00#8 0x0102030405060708#64 &&
    (fun (s : State) (h : BitVec 8) (v : W64) => decide (s.Inv ∧ s.tapLive ∧ intrusive h ∧ (intrusive s.tap.ir = false) ∧
      (s.runs = false))) ({ wTapDie 0x13#8 with clk := (ph .stopped).clk }) 0x00#8 0x0102030405060708#64 &&
    (fun (s : State) (h : BitVec 8) (v : W64) => decide (s.Inv ∧
      (s.tapLive = false))) ({ wUp with pwr := { wUp.pwr with onVbat := true } }) 0x10#8 0x0102030405060708#64 &&
    (fun (s : State) (v : BitVec 8) => decide (s.Inv ∧ (s.tap.ir = 0x10#8))) ((wTap 0x10#8 0xFF#8)) 2#8 &&
    (fun (s : State) (v : BitVec 8) => decide (s.Inv ∧ s.tap.ir ≠ 0x10#8)) ((wTap 0x11#8 0xFF#8)) 2#8 &&
    (fun (s : State) (d : Fin 8) (v : Nat) => decide (s.Inv ∧ d.val ≠ 7 ∧ boundaryIr (s.tapIr d.val) ∧
      s.tapLive)) ((wTapDie 0x02#8)) 2 5 &&
    (fun (s : State) (d : Fin 8) (v : Nat) => decide (s.Inv ∧ (¬(d.val ≠ 7 ∧ boundaryIr (s.tapIr d.val) ∧
      s.tapLive)))) ((wTapDie 0x13#8)) 2 5 &&
    (fun (s : State) (d : Fin 8) => decide (s.Inv ∧ (s.tapIr d.val = 1#8))) wUp 2 &&
    (fun (s : State) (r : BitVec 68) (x : RingReq) => decide (s.Inv ∧ (s.tap.ir = 0x20#8) ∧ s.tapLive ∧ ((r.toNat % 4 = 1 ∨
      r.toNat % 4 = 2)) ∧ s.runs ∧
      (x = { die := r.toNat / 4 % 8, block := r.toNat / 32 % 65536, off := 4 * (r.toNat / 2 ^ 21 % 2 ^ 14), write := r.getLsbD 1, data := BitVec.ofNat 32 (r.toNat / 2 ^ 35) }) ∧
      (s.ringDebug.busy = false))) ((wTap 0x20#8 0#8)) 0x00000000000200279#68 ({ die := 6, block := 0x13, off := 4, write := false, data := 0#32 }) &&
    (fun (s : State) (r : BitVec 68) (x : RingReq) => decide (s.Inv ∧ (s.tap.ir = 0x20#8) ∧ s.tapLive ∧ (r.toNat % 4 = 1) ∧
      s.ringReady .debug (aCORE_STATUS 3) ∧
      (x = { die := r.toNat / 4 % 8, block := r.toNat / 32 % 65536, off := 4 * (r.toNat / 2 ^ 21 % 2 ^ 14), write := r.getLsbD 1, data := BitVec.ofNat 32 (r.toNat / 2 ^ 35) }) ∧
      (ringAddr x = aCORE_STATUS 3) ∧ (x.die = 6) ∧ (x.off = 4) ∧
      (s.coreState 3 = 0))) ((wTap 0x20#8 0#8)) 0x00000000000200279#68 ({ die := 6, block := 0x13, off := 4, write := false, data := 0#32 }) &&
    (fun (s : State) (r : BitVec 68) => decide (s.Inv ∧ (s.tap.ir = 0x20#8) ∧ s.tapLive ∧ ((r.toNat % 4 = 1 ∨ r.toNat % 4 = 2)) ∧
      s.clk.phase ≠ .oscDelay ∧ s.clk.phase ≠ .lockWait ∧ (s.runs = false) ∧ (s.ringDebug.busy = false) ∧
      (s.ringDebug.remote = none))) ({ wTap 0x20#8 0#8 with clk := (ph .stopped).clk }) 0x00000000000200279#68 &&
    (fun (s : State) (r : BitVec 68) => decide (s.Inv ∧ (s.tap.ir = 0x20#8) ∧ s.tapLive ∧ ((r.toNat % 4 = 1 ∨ r.toNat % 4 = 2)) ∧
      s.clk.phase ≠ .oscDelay ∧ s.clk.phase ≠ .lockWait ∧
      s.ringDebug.busy)) (((wTap 0x20#8 0#8).setMaster .debug ((wAcc 0 true false).master .core0))) 0x00000000000200279#68 &&
    (fun (s : State) (r : BitVec 68) => decide (s.Inv ∧ ((s.tap.ir ≠ 0x20#8 ∨ s.tapLive = false ∨ r.toNat % 4 = 0 ∨
      r.toNat % 4 = 3 ∨ s.clk.phase = .oscDelay ∨ s.clk.phase = .lockWait)))) ((wTap 0x20#8 0#8)) 0#68 &&
    (fun (s : State)  => decide (s.Inv ∧ (s.tap.ir = 0x20#8))) ((wTap 0x20#8 0#8)) &&
    (fun (s : State)  => decide (s.Inv ∧ s.tap.ir ≠ 0x20#8)) ((wTap 0x21#8 0#8)) &&
    (fun (s : State) (r : BitVec 40) => decide (s.Inv ∧ (s.tap.ir = 0x21#8) ∧ s.tapLive ∧ ((r.getLsbD 0 = false ∨
      (2 ≤ r.toNat / 2 % 128 ∧ r.toNat / 2 % 128 < 0x40) ∨ 0x58 ≤ r.toNat / 2 % 128)))) ((wTap 0x21#8 0#8)) 0x80#40 &&
    (fun (s : State) (r : BitVec 40) => decide (s.Inv ∧ (s.tap.ir = 0x21#8) ∧ s.tapLive ∧ r.getLsbD 0 ∧
      (r.toNat / 2 % 128 = 0))) ((wTap 0x21#8 0#8)) 0x001#40 &&
    (fun (s : State) (r : BitVec 40) => decide (s.Inv ∧ (s.tap.ir = 0x21#8) ∧ s.tapLive ∧ r.getLsbD 0 ∧
      (r.toNat / 2 % 128 = 1))) ((setAll (wTap 0x21#8 0#8) [(aDBG_LOST, ⟨0, 8⟩, 7)])) 0x303#40 &&
    (fun (s : State) (r : BitVec 40) => decide (s.Inv ∧ (s.tap.ir = 0x21#8) ∧ s.tapLive ∧ r.getLsbD 0 ∧
      (r.toNat / 2 % 128 = 0x41))) ((wTap 0x21#8 0#8)) 0x10183#40 &&
    (fun (s : State) (r : BitVec 40) => decide (s.Inv ∧ (s.tap.ir = 0x21#8) ∧ s.tapLive ∧ r.getLsbD 0 ∧
      (r.toNat / 2 % 128 = 0x46))) ((wTap 0x21#8 0#8)) 0x8D#40 &&
    (fun (s : State) (r : BitVec 40) (a : Nat) => decide (s.Inv ∧ (s.tap.ir = 0x21#8) ∧ s.tapLive ∧ r.getLsbD 0 ∧
      (0x40 ≤ r.toNat / 2 % 128) ∧ r.toNat / 2 % 128 < 0x58 ∧ (a = ra 6 2 (0x100 + 4 * (r.toNat / 2 % 128 - 0x40))) ∧
      a ≠ aRTC_CTRL ∧ a ≠ aRTC_SNAP)) ((wTap 0x21#8 0#8)) 0x7799#40 ((ra 6 2 (0x100 + 4 * (0x4C - 0x40)))) &&
    (fun (s : State) (r : BitVec 40) => decide (s.Inv ∧ ((s.tap.ir ≠ 0x21#8 ∨ s.tapLive = false)))) ((wTap 0x20#8 0#8)) 0x80#40) = true := by decide +kernel

theorem witness_DieTests :
    ((fun (s : State) (d : Fin 8) => decide (s.Inv ∧ d.val ≠ 6 ∧ (s.tapIr d.val = 0x13#8) ∧ s.inChain d.val ∧
      ((s.dieBist d.val).since = none) ∧ (s.dieState d.val = 0))) ((wTapDie 0x13#8)) 2 &&
    (fun (s : State) (d : Fin 8) => decide (s.Inv ∧ d.val ≠ 6 ∧ (s.tapIr d.val = 0x13#8) ∧ s.inChain d.val ∧
      ((s.dieBist d.val).since = none) ∧ s.dieState d.val ≠ 0)) ((setAll (wTapDie 0x13#8) [(aCFG_DIES, ⟨4, 2⟩, 3)])) 2 &&
    (fun (s : State) (d : Fin 8) (b : Bool) => decide (s.Inv ∧ ((d.val = 6 ∨ b = false ∨ s.tapIr d.val ≠ 0x13#8 ∨
      s.inChain d.val = false ∨ (s.dieBist d.val).since ≠ none)))) wUp 2 true &&
    (fun (s : State) (d : Fin 8) (f : Nat) => decide (s.Inv ∧ (s.dieBist d.val).since ≠ none ∧
      s.runs)) ((wUp.setDieBist 2 { DieBist.empty with since := some 0 })) 2 3 &&
    (fun (s : State) (d : Fin 8) (f : Nat) => decide (s.Inv ∧ (((s.dieBist d.val).since = none ∨ s.runs = false)))) wUp 2 3 &&
    (fun (s : State) (v : BitVec 16) => decide (s.Inv ∧ (s.tap.ir = 0x11#8) ∧ s.tapLive ∧
      (v.getLsbD 7 = false))) ((wTap 0x11#8 0#8)) 0x0300#16 &&
    (fun (s : State) (v : BitVec 16) => decide (s.Inv ∧ (s.tap.ir = 0x11#8) ∧ s.tapLive ∧ v.getLsbD 7 ∧ ((s.tap.d2d.since ≠ none ∨
      s.runs = false ∨ 10 < v.toNat % 16 ∨ v.toNat / 32 % 4 = 0 ∨ (d2dDies (v.toNat % 16)).any s.inReset ∨
      d2dCount (v.toNat % 16) ≤ v.toNat / 256 % 16)))) ((wTap 0x11#8 0#8)) 0x008F#16 &&
    (fun (s : State) (v : BitVec 16) => decide (s.Inv ∧ (s.tap.ir = 0x11#8) ∧ s.tapLive ∧ v.getLsbD 7 ∧ (s.tap.d2d.since = none) ∧
      s.runs ∧ (v.toNat % 16 ≤ 10) ∧ v.toNat / 32 % 4 ≠ 0 ∧ ((d2dDies (v.toNat % 16)).all (fun d => !s.inReset d)) ∧
      v.toNat / 256 % 16 < d2dCount (v.toNat % 16))) ((wTap 0x11#8 0#8)) 0x00A4#16 &&
    (fun (s : State) (v : BitVec 16) => decide (s.Inv ∧ ((s.tap.ir ≠ 0x11#8 ∨ s.tapLive = false)))) ((wTap 0x10#8 0#8)) 0x0300#16 &&
    (fun (s : State)  => decide (s.Inv)) w0 &&
    (fun (s : State) (k : Nat) (w : List (Fin 2752)) => decide (s.Inv ∧ (s.tap.d2d.since = some k) ∧ s.runs ∧
      s.tap.d2d.step < d2dSteps s.tap.d2d.edge s.tap.d2d.mode ∧
      (k + 1024 + 64 * s.tap.d2d.step + 32 ≤ s.now))) ((tk 2000 (wD2d 3))) 0 ([5, 6]) &&
    (fun (s : State) (w : List (Fin 2752)) => decide (s.Inv ∧ ((s.runs = false ∨
      s.tap.d2d.since.all (fun k => decide (d2dSteps s.tap.d2d.edge s.tap.d2d.mode ≤ s.tap.d2d.step) || decide (s.now < k + 1024 + 64 * s.tap.d2d.step + 32)))))) wUp ([5,
      6]) &&
    (fun (s : State) (k : Nat) => decide (s.Inv ∧ (s.tap.d2d.since = some k) ∧ s.runs ∧
      (k + 1024 + 64 * d2dSteps s.tap.d2d.edge s.tap.d2d.mode ≤ s.now))) ((tk 1000000 (wD2d 3))) 0 &&
    (fun (s : State)  => decide (s.Inv ∧ ((s.runs = false ∨
      s.tap.d2d.since.all (fun k => decide (s.now < k + 1024 + 64 * d2dSteps s.tap.d2d.edge s.tap.d2d.mode)))))) wUp) = true := by decide +kernel

theorem witness_NplcOutOfRangeIsRefused :
    ((fun (s : State) (m : Rm) (n : Fin 16) (v : W32) => decide (s.Inv ∧ s.ringReady m (aIC_CFG n.val) ∧
      ((getF v fIC_CFG_NPLC < 2 ∨ 10000 < getF v fIC_CFG_NPLC)))) wUp .core0 3 (putF 0#32 fIC_CFG_NPLC 1) &&
    (fun (s : State) (m : Rm) (n : Fin 16) (v : W32) => decide (s.Inv ∧ s.ringReady m (aIC_CFG n.val) ∧
      (2 ≤ getF v fIC_CFG_NPLC) ∧ (getF v fIC_CFG_NPLC ≤ 10000) ∧ (getF v fIC_CFG_INP ≤ 0x10) ∧
      getF v fIC_CFG_RANGE ≠ 3)) wUp .core0 3 (putF 0#32 fIC_CFG_NPLC 10000) &&
    (fun (s : State) (k l : Nat) => decide (s.Inv)) wUp 10000 30000000) = true := by decide +kernel

theorem witness_FifoEndsAreSafe :
    ((fun (s : State) (i : NiId) (k : Fin 4) => decide (s.Inv ∧ s.niLive i.die i.ni ∧ ((niFifo (s.ni i.die i.ni) k.val = [] ∨
      (s.niView i.die i.ni (0x20 + 4 * k.val)).any (fun v => getB v fFIFO_STAT_EMPTY))))) wOn (⟨7, 0⟩) 1 &&
    (fun (s : State) (i : NiId) (k : Fin 4) (f : BitVec 256) (l : Bool) => decide (s.Inv ∧ s.niLive i.die i.ni ∧
      ((64 ≤ (niFifo (s.ni i.die i.ni) k.val).length ∨
      (s.niView i.die i.ni (0x20 + 4 * k.val)).any (fun v => getB v fFIFO_STAT_FULL))))) ((wOn.setNi 1 2 { Ni.empty with fifo1 := List.replicate 64 ⟨1#256, true⟩ })) (⟨1,
      2⟩) 1 5#256 true &&
    (fun (s : State) (i : NiId) (k : Fin 4) (f : BitVec 256) (l : Bool) => decide (s.Inv ∧ s.niLive i.die i.ni ∧
      ((s.niView i.die i.ni (0x20 + 4 * k.val)).all (fun v => !getB v fFIFO_STAT_FULL)))) wOn (⟨6, 47⟩) 3 5#256 true) = true := by decide +kernel

/-! ### Well-formedness: one ill-formed command for each check, refused -/

theorem test_wf_ring_offset : Instr.wf (.ringAccess .core0 { wRq (aEV_ROUTE 1) false with off := 3 }) = false := by decide +kernel
theorem test_wf_ring_die : Instr.wf (.ringAccess .core0 { wRq (aEV_ROUTE 1) false with die := 8 }) = false := by decide +kernel
theorem test_wf_register_offset : Instr.wf (.registerWrite .core0 6 2#16 2#16 0#32) = false := by decide +kernel
theorem test_wf_die_reset_end : Instr.wf (.dieResetEnd 6) = false := by decide +kernel
theorem test_wf_ni : Instr.wf (.slotInject ⟨7, 1⟩) = false := by decide +kernel
theorem test_wf_stage : Instr.wf (.flitStageWrite ⟨0, 4⟩ [0#256, 0#256, 0#256]) = false := by decide +kernel
theorem test_wf_link : Instr.wf (.linkDeskewDone ⟨6, 0x500, 0⟩) = false := by decide +kernel
theorem test_wf_lane : Instr.wf (.lnAlignDone .core0 ⟨0, 4, 0⟩) = false := by decide +kernel
theorem test_wf_hub_lane : Instr.wf (.glSlip ⟨6, 0, 0⟩) = false := by decide +kernel
theorem test_wf_arrivals : Instr.wf (.alignmentMarkerReceive 0 []) = false := by decide +kernel
theorem test_wf_stream : Instr.wf (.streamNop .parallel []) = false := by decide +kernel
theorem test_wf_scan_bit : Instr.wf (.scanFrame 2 [4110]) = false := by decide +kernel
theorem test_wf_engine_of_hub : Instr.wf (.feLogPop .core0 6 0#32) = false := by decide +kernel
theorem test_wf_training_fails : Instr.wf (.trainingRunDone 0 (List.replicate 11 0)) = false := by decide +kernel
theorem test_wf_bist_of_hub : Instr.wf (.dieBistStart 6 true) = false := by decide +kernel
theorem test_wf_boundary : Instr.wf (.boundaryScanUpdate 7 0) = false := by decide +kernel
theorem test_wf_boundary_length : Instr.wf (.boundaryScanUpdate 2 (2 ^ 640)) = false := by decide +kernel

/-! ### Values that the spec works out -/

/-- Chapter 02's example: D = 26,408 units rounds up to 413 ticks; the marker of
tick 131,072 is expected 413 ticks later. -/
theorem test_marker_expected : expectedNear 413 (131072 + 418) = some (131072 + 413) := by decide +kernel
/-- R302's example: 0x01 on device 0 encodes as 0x02 and 0x03. -/
theorem test_rs_encode : (rsEncode (1#8 :: List.replicate 255 0#8)).take 2 = [2#8, 3#8] := by decide +kernel
/-- R303's example: device 0 returns 0x81, and the word is corrected to 0x01 with device 0 counted. -/
theorem test_rs_correct : rsDecode ([2#8, 3#8, 0x81#8] ++ List.replicate 7 0#8) none =
    some ([2#8, 3#8, 1#8] ++ List.replicate 7 0#8, some 0) := by decide +kernel
/-- Chapter 13's example: byte 0x1_2345_6700 is line 4,771,925 of set 3. -/
theorem test_dram_line : (dramSet 0x123456700, dramLine 0x123456700) = (3, 4771925) := by decide +kernel
/-- R273 with R279's example: unit 0x0_8000 of pair 1 is pair-local byte 0x10_0000, and lies at 0x1000_0040_0400. -/
theorem test_qdr_address : qdrAddr 1 0x100000 = 0x100000400400 ∧ qdrLocal 0x100000400400 = 0x100000 := by decide +kernel
/-- Chapter 11's note: 0x5A00_0040 hands a bank to DMA engine 0. -/
theorem test_handover_word : newOwner 0x5A000040 = some 0x40 := by decide +kernel
/-- Chapter 15's example: NPLC 100 at 50 Hz integrates 30,000,000 ticks, and code 100 has 28 bits. -/
theorem test_conversion_length : (icLength 100 30000000, icBits 100) = (30000000, 28) := by decide +kernel
/-- Chapter 16's example: event 1,857 with its route and entry sends `ADDR` 0x0000_7E00_0000_B741 with `PRI` 2. -/
theorem test_event_message :
    ((st [(aEV_ROUTE 1857, ⟨0, 32⟩, 0x02A80500), (aEV_MSG 0, ⟨0, 32⟩, 0x00008300)]).channelMsg 1857).map
      (fun m => (m.addr, m.pri)) = some (0x00007E000000B741#64, 2) := by decide +kernel
/-- Chapter 18's example: one direction of L1 to H has 2,752 steps. -/
theorem test_d2d_steps : d2dSteps 5 1 = 2752 := by decide +kernel
/-- Chapter 09's example: region 3 of L1, columns 61 to 120, row blocks 8 to 11: 860 frames a row block. -/
theorem test_region_frames : ((List.range 60).map (fun c => cfgMinors 1 (61 + c))).sum = 860 - 5 * 36 := by decide +kernel

/-! ### One step of a command from each family -/

/-- What a step answers, as one Boolean of the next state. -/
def next (s : State) (c : Instr) (p : State → Bool) : Bool :=
  match step { s with pending := [c] } with
  | .next t => p t && t.pending.isEmpty
  | _ => false

theorem test_step_pwr_req : next wUp (.pwrReq .core0 19 1) (fun t => t.bit aPWR_REQ fPWR_REQ_BUSY) = true := by decide +kernel
theorem test_step_event : next wUp (.eventOccurrence 100) (fun t => t.bit (aEV_RAW 3) ⟨4, 1⟩) = true := by decide +kernel
theorem test_step_ring_read :
    next wUp (.ringAccess .debug (wRq aDEVICE_CODE false)) (fun t => t.ringDebug.ansData == regReset aDEVICE_CODE) = true := by
  decide +kernel
/-- Chapter 10: an `ADD` of 0x7FFF_FFFF and 1 wraps to 0x8000_0000. -/
theorem test_step_add :
    next (wRun.setThr 0 { wRun.thr 0 with v := [(1, 0x7FFFFFFF#32), (2, 1#32)] }) (.addOp 0 0 (wOp 0x01 4 1 2 0))
      (fun t => (t.thr 0).flight.any (fun e => e.what == .reg 4 0x80000000#32)) = true := by
  decide +kernel
theorem test_step_bist : next w0 (.bistGo .core0 3) (fun t => t.bit aBIST_STATUS fBIST_STATUS_BUSY) = true := by decide +kernel
theorem test_step_fifo : next wOn (.fifoWrite ⟨6, 47⟩ 3 5#256 true) (fun t => (t.ni 6 47).fifo3.length == 1) = true := by decide +kernel
/-- The ends of the segments of R435, and `INIT_N`'s output enable, the last cell of configuration. -/
theorem test_hub_cells : hubCell 287 = some (.torusLane 5 15, 2) ∧ hubCell 288 = some (.qdr 0 0, 0) ∧ hubCell 3047 = some (.qdr 7 344, 0) ∧
    hubCell 5915 = some (.dram 3 716, 0) ∧ hubCell 5997 = some (.cfgIo 12, 2) ∧ hubCell 5998 = some (.resetN, 0) ∧
    hubCell 6022 = some (.evtOut 7, 2) ∧ hubCell 6023 = none := by decide

end Sys2Proof.Tests
end

section
/-! ### Every command answers a next state (R12, R21; log entry 10) -/

namespace Sys2Proof.Machine

/-- The outcome is a next state: no fault and no refusal. -/
def Answers (o : Host.Outcome State Fault Refusal) : Prop := ∃ t, o = .next t

theorem Answers.next (t : State) : Answers (.next t) := ⟨t, rfl⟩

theorem Answers.ite {p : Prop} [Decidable p] {a b : Host.Outcome State Fault Refusal} (ha : Answers a) (hb : Answers b) :
    Answers (if p then a else b) := by
  split
  · exact ha
  · exact hb

/-- The split follows the meanings' branches: no condition, one or more conditions, and, where a meaning takes a list or an option
apart, the cases of its own definition. Each branch ends in `.next`. -/
theorem exec_answers (c : Instr) (s : State) : Answers (exec c s) := by
  cases c
  case ringAccess | ringAccessComplete | deviceIdWrite | dieResetLogic | dieResetAnalog | refCtrlWrite | rimClkAck |
      sscCtrlWrite | fclkCfgWrite | tickSnap | tickLoadArm | tickCtrlMasterWrite | slotInject | egressCheck | sfPop |
      patternStart | patternSwap | patternStop | patternCancel | commitStart | creditReturn | niDisable | niForcedDisable |
      niDisableCancel | niEnable | niLoop | linkFence | linkUnfence | linkRetrain | linkClrCnt | portAccept | portQuiet |
      portRest | portRetrain | portDisable | portEnable | gatewayRead | gatewayWrite | streamSendGo | streamSendAbort |
      regionHold | regionRelease | brRgnWrite | prbSelWrite | cfgSdataWrite | streamNop | streamCrc | streamDeviceCode |
      streamFeature | streamFrameAddr | streamFdata | streamOptions | streamRegion | streamEbmAddr | streamEbmData | cmdNull |
      cmdStart | cmdHold | cmdRelease | cmdDesync | feLogPop | feLogStatWrite | feRbDataRead | feRbCapture | coreReset |
      coreRunWrite | imDataWrite | bankOwnerWrite | ccSelWrite | bistGo | bistAbort | dmaGo | dmaDisable | dmaEnable |
      qdrRetrain | qsDataWrite | qdrSlotDisable | qdrDisable | qdrEnable | qdrLbGo | qdrLbDepthWrite | dramInit |
      modeRegisterAccess | trainingRun | dramEnable | dramDisable | drLbWrite | drEccCtrlWrite | keyedMixEnable | kmFlush |
      kmRetire | kmSlotWrite | kmKeyWrite | metadataRead | metadataWrite | swapArm | swapCancel | abRun | abStop | abCal |
      abResultRead | abCalWrite | asDataWrite | afClkWrite | icRun | icStop | icCal | residueStart | icResultRead | pwrReq |
      rtcLoad | rtcSnap | vbatSwitchover | evOutClr | evOutCfgWrite | tapReset | dbgHalt | dbgResume | dbgStep | terminalTxWrite
      | terminalTxConsume | terminalRxWrite | terminalRxConsume | glLbWrite | refLoopWrite | rtcEdgesReturn | progNRelease =>
    exact .next _
  case powerOnReset | supplyDrop | oscDlyExpiry | rootPllLock | revisionReadTimeout | ringAccessTimeout | registerWrite |
      slewEnd | recoveredRefLoss | localOscLoss | rimSrcValid | resumeHubClocks | resumeDieClocks | resumeUserOutputs |
      sscChange | fclkChange | timeMarkerSend | markerMissing | routerForwardScheduled | patternActionTick | tailEnd |
      patternTableWrite | psDataRead | headerAged | stallDetect | flitStageWrite | fifoFlush | flushBoundary | niDrainComplete |
      niDisableBoundary | spillEnable | trainingWordReceive | linkClockDetect | linkDeskewDone | linkMaskAgreed | linkFrameLock
      | linkLoop | laneEqDone | lnAlignSlip | lnAlignDone | laneAlignTimeout | portAdmitScheduled | gatewayTimeout | glSlip |
      userEvent | regionHoldComplete | clearComplete | initNHigh | progNAssert | streamTimeout | startupBegin | startupStage |
      startupRunning | nop | addOp | subOp | andOp | orOp | xorOp | shl | shr | sra | minOp | maxOp | addi | shli | shri | srai
      | movi | movhi | cmp | cmpi | sel | ldw | ldh | ldhu | ldb | stw | sth | stb | ldr | ldwp | stwp | stc | mac4 | mul4 |
      mac2 | mul2 | accrd | accwr | accclr | muls | brOp | bri | callOp | repOp | rotOp | reti | mts | mfs | sendAt |
      sendAtInject | sev | watchdogExpiry | bootGo | bankWakeComplete | qdrServiceTick | qdrLbDone | dramInitComplete |
      trainingRunDone | throttleEnd | perBankRefresh | rowIdlePrecharge | kmFillStart | kmFillComplete | kmFlushComplete |
      kmRetireComplete | mainsCrossing | domainReady | rtcFail | eventOccurrence | collectorMessageSend | jtagRimUpdate |
      tapInstructionLoad | chainSelUpdate | dieBistEnd | haltDeferExpiry | tpLbWrite | forwardedClockLoss | quadPllLockLoss |
      refclkInterruption | ringCaptureDr | boundaryScanUpdate =>
    exact .ite (.next _) (.next _)
  case fifoWrite | linkFrameReceive | laneTrainingSetReceive | exchangePositionReceive | scanFrame | xrd | xwr | bkpt |
      jtagRingUpdate | dieBistStart =>
    exact .ite (.next _) (.ite (.next _) (.next _))
  case freqMonAverage | egressPresent | qdrTrainEnd | refreshRatePoll | abTriggerEdge | rtcAlarm =>
    exact .ite (.ite (.next _) (.next _)) (.next _)
  case streamSendEnd | d2dTestUpdate =>
    exact .ite (.next _) (.ite (.next _) (.ite (.next _) (.next _)))
  all_goals simp only [exec]
  case pinReset straps silent => fun_cases execPinReset straps silent s <;> exact .next _
  case dieResetEnd d => fun_cases execDieResetEnd d s <;> exact .next _
  case refQualified recovered => fun_cases execRefQualified recovered s <;> exact .next _
  case clockLossNoFallback pllFault => fun_cases execClockLossNoFallback pllFault s <;> exact .next _
  case timeMarkerCompare value aligned frac => fun_cases execTimeMarkerCompare value aligned frac s <;> exact .next _
  case tickLoad value => fun_cases execTickLoad value s <;> exact .next _
  case commitEnd d => fun_cases execCommitEnd d s <;> exact .next _
  case beRequestIssue i => fun_cases execBeRequestIssue i s <;> exact .next _
  case beHop i out vc => fun_cases execBeHop i out vc s <;> exact .next _
  case bePacketArrive i => fun_cases execBePacketArrive i s <;> exact .next _
  case beResponseArrive i => fun_cases execBeResponseArrive i s <;> exact .next _
  case beTimeout i tag => fun_cases execBeTimeout i tag s <;> exact .next _
  case fifoRead i k => fun_cases execFifoRead i k s <;> exact .next _
  case spillStart i => fun_cases execSpillStart i s <;> exact .next _
  case spillRecordWrite i => fun_cases execSpillRecordWrite i s <;> exact .next _
  case spillWriteResponse i => fun_cases execSpillWriteResponse i s <;> exact .next _
  case spillReplay i => fun_cases execSpillReplay i s <;> exact .next _
  case replayReadResponse i => fun_cases execReplayReadResponse i s <;> exact .next _
  case linkVerifyDone l errors => fun_cases execLinkVerifyDone l errors s <;> exact .next _
  case linkStageTimeout l => fun_cases execLinkStageTimeout l s <;> exact .next _
  case creditResyncReturn l => fun_cases execCreditResyncReturn l s <;> exact .next _
  case ringShareMove l => fun_cases execRingShareMove l s <;> exact .next _
  case alignmentMarkerReceive p arrive => fun_cases execAlignmentMarkerReceive p arrive s <;> exact .next _
  case portStageTimeout p => fun_cases execPortStageTimeout p s <;> exact .next _
  case portTrainRestart p => fun_cases execPortTrainRestart p s <;> exact .next _
  case exchangeComplete p => fun_cases execExchangeComplete p s <;> exact .next _
  case controlPositionReceive p content errs => fun_cases execControlPositionReceive p content errs s <;> exact .next _
  case leaveSched p => fun_cases execLeaveSched p s <;> exact .next _
  case portPositionReceive p pos => fun_cases execPortPositionReceive p pos s <;> exact .next _
  case laneFault x => fun_cases execLaneFault x s <;> exact .next _
  case halfWidthSwitch p => fun_cases execHalfWidthSwitch p s <;> exact .next _
  case portActive m p => fun_cases execPortActive m p s <;> exact .next _
  case quietEnter p => fun_cases execQuietEnter p s <;> exact .next _
  case remotePacketReceive p => fun_cases execRemotePacketReceive p s <;> exact .next _
  case regionGateRelease d n => fun_cases execRegionGateRelease d n s <;> exact .next _
  case regionReleaseComplete d n => fun_cases execRegionReleaseComplete d n s <;> exact .next _
  case syncWord c => fun_cases execSyncWord c s <;> exact .next _
  case illegalOperation c => fun_cases execIllegalOperation c s <;> exact .next _
  case xferComplete c tag => fun_cases execXferComplete c tag s <;> exact .next _
  case waitOp c slot w => fun_cases execWaitOp c slot w s <;> exact .next _
  case waitConditionMet c => fun_cases execWaitConditionMet c s <;> exact .next _
  case interruptTake c => fun_cases execInterruptTake c s <;> exact .next _
  case rxRingWrite c => fun_cases execRxRingWrite c s <;> exact .next _
  case dmDataAccess m c v => fun_cases execDmDataAccess m c v s <;> exact .next _
  case bankRequest portA bank bad => fun_cases execBankRequest portA bank bad s <;> exact .next _
  case bistPause => fun_cases execBistPause s <;> exact .next _
  case bistResume => fun_cases execBistResume s <;> exact .next _
  case bistEnd bad => fun_cases execBistEnd bad s <;> exact .next _
  case descriptorComplete e => fun_cases execDescriptorComplete e s <;> exact .next _
  case qdrBeRequest q flips => fun_cases execQdrBeRequest q flips s <;> exact .next _
  case dramRequest d noise metaNoise => fun_cases execDramRequest d noise metaNoise s <;> exact .next _
  case acSwapEdge => fun_cases execAcSwapEdge s <;> exact .next _
  case swapTake => fun_cases execSwapTake s <;> exact .next _
  case abSample n raw => fun_cases execAbSample n raw s <;> exact .next _
  case abResultEnter n => fun_cases execAbResultEnter n s <;> exact .next _
  case abCalEnd n amp adc => fun_cases execAbCalEnd n amp adc s <;> exact .next _
  case conversionStart n => fun_cases execConversionStart n s <;> exact .next _
  case inputIntegrationEnd n => fun_cases execInputIntegrationEnd n s <;> exact .next _
  case conversionEnd n raw => fun_cases execConversionEnd n raw s <;> exact .next _
  case icCalEnd n zero ref => fun_cases execIcCalEnd n zero ref s <;> exact .next _
  case mainsUnlockTimeout => fun_cases execMainsUnlockTimeout s <;> exact .next _
  case powerHandshakeAsk => fun_cases execPowerHandshakeAsk s <;> exact .next _
  case powerDelayExpiry => fun_cases execPowerDelayExpiry s <;> exact .next _
  case powerLimitExpiry => fun_cases execPowerLimitExpiry s <;> exact .next _
  case domainStateChange => fun_cases execDomainStateChange s <;> exact .next _
  case bridgeMessageSend => fun_cases execBridgeMessageSend s <;> exact .next _
  case eventMessageReceive => fun_cases execEventMessageReceive s <;> exact .next _
  case evtOutPulseEnd i => fun_cases execEvtOutPulseEnd i s <;> exact .next _
  case d2dStep wrong => fun_cases execD2dStep wrong s <;> exact .next _
  case d2dRunEnd => fun_cases execD2dRunEnd s <;> exact .next _
  case haltTaken c => fun_cases execHaltTaken c s <;> exact .next _
  case breakpointMatch c => fun_cases execBreakpointMatch c s <;> exact .next _
  case dataWatchMatch c => fun_cases execDataWatchMatch c s <;> exact .next _
  case dbgRegAccess m c v => fun_cases execDbgRegAccess m c v s <;> exact .next _
  case frameEngineWriteDone d => fun_cases execFrameEngineWriteDone d s <;> exact .next _

/-- Settles O4: a step is the front command's meaning, or the passing of a tick. -/
theorem everyCommandAnswers : Obligations.EveryCommandAnswers := by
  refine ⟨exec_answers, fun s => ?_⟩
  fun_cases step s
  · exact Answers.next _
  · exact exec_answers _ _

end Sys2Proof.Machine
end

section
/-! ### What an access leaves alone: frames, masters, canonical tables -/

namespace Sys2Proof.Machine

/-- A part kept by two changes in a row is kept by both. -/
theorem Part.same_trans {s t u : State} {p : Part} (h : p.same s t) (k : p.same t u) : p.same s u := by
  cases p
  case mem => exact fun a => (k a).trans (h a)
  all_goals exact Eq.trans k h

/-- Two changes in a row keep what both keep. -/
theorem State.keepsElse_append {s t u : State} {l l' : List Part} {ok : Nat → Bool} (h : s.keepsElse t l ok)
    (k : t.keepsElse u l' ok) : s.keepsElse u (l ++ l') ok := by
  refine ⟨fun p hp => ?_, fun a ho hn => (k.2 a ho hn).trans (h.2 a ho hn)⟩
  rw [List.mem_append, not_or] at hp
  exact Part.same_trans (h.1 p hp.1) (k.1 p hp.2)

theorem State.keepsElse_mono {s t : State} {l l' : List Part} {ok : Nat → Bool} (h : s.keepsElse t l ok) (hl : l ⊆ l') :
    s.keepsElse t l' ok :=
  ⟨fun p hp => h.1 p (fun hm => hp (hl hm)), h.2⟩

theorem State.keepsElse_refl (s : State) (l : List Part) (ok : Nat → Bool) : s.keepsElse s l ok := by
  refine ⟨fun p _ => ?_, fun _ _ _ => rfl⟩
  cases p
  case mem => exact fun _ => rfl
  all_goals rfl

/-- The part of the state that is master m's record. -/
def masterParts : Rm → List Part
  | .core0 => [.ringCore]
  | .debug => [.ringDebug]
  | .config => [.ringConfig]

/-- A master's record is all that setting it changes. -/
theorem State.setMaster_keepsElse (s : State) (m : Rm) (r : RingMaster) :
    s.keepsElse (s.setMaster m r) (masterParts m) (fun _ => false) := by
  refine ⟨fun p hp => ?_, fun a _ _ => by simp [State.reg]⟩
  cases p
  case ringCore | ringDebug | ringConfig => cases m <;> simp_all [masterParts, Part.same, State.setMaster]
  all_goals simp [Part.same, State.byte]

/-! ### The masters' records under updates of other parts -/

@[simp] theorem State.setReg_master (s : State) (a : Nat) (v : W32) (n : Rm) : (s.setReg a v).master n = s.master n := by
  cases n <;> rfl
@[simp] theorem State.setFld_master (s : State) (a : Nat) (f : Fld) (v : Nat) (n : Rm) :
    (s.setFld a f v).master n = s.master n := by
  cases n <;> rfl
@[simp] theorem State.fresh_master (s : State) (w : Nat) (n : Rm) : (State.fresh w s).2.master n = s.master n := by
  cases n <;> rfl
@[simp] theorem State.flagRaise_master (s : State) (a : Nat) (f : Fld) (e : Nat) (n : Rm) :
    (s.flagRaise a f e).master n = s.master n := by
  cases n <;> simp [State.master]
@[simp] theorem State.setAb_master (s : State) (i : Nat) (x : Ab) (n : Rm) : (s.setAb i x).master n = s.master n := by
  cases n <;> rfl
@[simp] theorem State.setIc_master (s : State) (i : Nat) (x : Ic) (n : Rm) : (s.setIc i x).master n = s.master n := by
  cases n <;> rfl

/-! ### Canonical tables of a state that meets the invariant -/

theorem State.Inv.regs_wf {s : State} (h : s.Inv) : Tab.wf regReset s.regs = true := by
  by_contra hn
  simp [State.Inv, State.tablesWf, hn] at h
theorem State.Inv.cores_wf {s : State} (h : s.Inv) : Tab.wf (fun _ => Thrumas.empty) s.cores = true := by
  by_contra hn
  simp [State.Inv, State.tablesWf, hn] at h

/-- A core's record just set reads back. -/
theorem State.setThr_thr {s : State} (h : Tab.wf (fun _ => Thrumas.empty) s.cores = true) (n : Nat) (x : Thrumas) :
    (s.setThr n x).thr n = x :=
  tget_tput_same h n x

end Sys2Proof.Machine
end

section
/-! ### A ring access that is granted (R10, R21, R22, R370) -/

namespace Sys2Proof.Machine

theorem exec_ringAccess (m : Rm) (r : RingReq) (s : State) :
    exec (.ringAccess m r) s = .next (ringDo m r (ringTarget m r) s) := rfl

/-- A control address names its die, block and offset. -/
theorem ra_split {d b o : Nat} (hb : b < 65536) (ho : o < 65536) :
    ra d b o / 4294967296 = d ∧ ra d b o / 65536 % 65536 = b ∧ ra d b o % 65536 = o := by
  simp only [ra]
  omega

/-- Master m's record once its access `r`, granted now, has been answered with a status and read data. -/
def State.answeredTo (s : State) (m : Rm) (r : RingReq) (st : RStat) (d : W32) : RingMaster :=
  { s.master m with
    busy := true, req := r, grantAt := s.now, waiting := false, granted := true, answered := true, ansStatus := st, ansData := d }

/-- An access granted at once to a die within reach is answered by its gated target. -/
theorem ringDo_granted {m : Rm} {r : RingReq} {f : State → Answer} {s : State} (h : (s.master m).busy = false)
    (hc : s.ringClosed r.die = false) (hg : s.ringGranted = false) (hr : s.reach r.die = true) :
    ringDo m r f s = (gated r f s).1.setMaster m (s.answeredTo m r (gated r f s).2.1 (gated r f s).2.2) := by
  simp [ringDo, ringGrant, State.answeredTo, h, hc, hg, hr]

/-- No register is there: `DECODE` with zero data (R10). -/
theorem gated_decode {r : RingReq} {f : State → Answer} {s : State} (h : regRow (ringAddr r) = none) :
    gated r f s = (s, .decode, 0#32) := by
  simp [gated, h]

/-- The block's domain is not on: `REFUSED` (R370). -/
theorem gated_refused {r : RingReq} {f : State → Answer} {s : State} {d : Nat} (h : regRow (ringAddr r) ≠ none)
    (hd : blockDom r.die r.block r.off = some d) (hs : s.domState d ≠ 3) : gated r f s = refuse s := by
  obtain ⟨w, hw⟩ := Option.ne_none_iff_exists'.mp h
  simp [gated, hw, hd, State.domOn, hs]

/-- An access that the ring admits is performed at its target at once. -/
theorem ringDo_ready {m : Rm} {r : RingReq} {f : State → Answer} {s : State} (hb : r.block < 65536) (ho : r.off < 65536)
    (h : s.ringReady m (ringAddr r) = true) :
    ringDo m r f s = (f s).1.setMaster m (s.answeredTo m r (f s).2.1 (f s).2.2) := by
  obtain ⟨hdie, hblock, hoff⟩ := ra_split (d := r.die) hb ho
  rw [← ringAddr] at hdie hblock hoff
  simp only [State.ringReady, hdie, hblock, hoff, Bool.and_eq_true, Bool.not_eq_eq_eq_not, Bool.not_true] at h
  obtain ⟨⟨⟨⟨⟨hbusy, hgranted⟩, hclosed⟩, hreach⟩, hrow⟩, hdom⟩ := h
  rw [ringDo_granted hbusy hclosed hgranted hreach, gated_on hrow hdom]

/-- An access whose only effect is on its master's record. -/
theorem ringAccess_recorded {m : Rm} {r : RingReq} {s : State} {x : RingMaster}
    (h : ringDo m r (ringTarget m r) s = s.setMaster m x) :
    Leads (.ringAccess m r) s (fun t => t.master m = x ∧ s.keepsElse t (masterParts m) (fun _ => false) ∧ t.regs = s.regs) :=
  ⟨s.setMaster m x, by rw [exec_ringAccess, h], by simp, s.setMaster_keepsElse m x, by simp⟩

/-- A read that the ring admits, of a register whose read has no effect. -/
theorem ringAccess_reads {m : Rm} {r : RingReq} {s : State} {v : W32} (hb : r.block < 65536) (ho : r.off < 65536)
    (h : s.ringReady m (ringAddr r) = true) (hw : r.write = false) (hr : regRead m (ringAddr r) s = readAs s v) :
    Leads (.ringAccess m r) s (fun t => t.master m = s.answeredTo m r .ok v ∧
      s.keepsElse t (masterParts m) (fun _ => false) ∧ t.regs = s.regs) := by
  apply ringAccess_recorded
  rw [ringDo_ready hb ho h]
  simp [ringTarget, hw, hr, readAs]

end Sys2Proof.Machine
end

section
/-! ### What reads return and leave alone (R8, R9) -/

namespace Sys2Proof.Machine

/-- These registers read as their stored words. -/
theorem regRead_stored (m : Rm) (s : State) {a k : Nat} (hk : k < 4) (ha : a ∈ [aDEVICE_ID, aDEVICE_CODE, aBREACH_SUM, aPWR_RESULT,
    aPWR_LIMIT, aEV_STAT, aPAT_STATUS, aREF_STATUS, aBANK_OWNER k, aEV_ROUTE k, aEV_RX_0 k, aDMA_CUR k, aNI_ERR k 4, aAB_FLAG k]) :
    regRead m a s = readAs s (s.reg a) := by
  interval_cases k <;> fin_cases ha <;> rfl

/-- `DIE_INFO` reads as the die's type, index and revision. -/
theorem regRead_dieInfo (m : Rm) (s : State) {d : Nat} (hd : d < 7) : regRead m (aDIE_INFO d) s = readAs s (s.dieInfo d) := by
  interval_cases d <;> rfl

/-- A field reads as before once a field apart from it is put. -/
theorem getF_putF_disjoint (v : W32) (f g : Fld) (n : Nat)
    (h : f.lsb + f.width ≤ g.lsb ∨ g.lsb + g.width ≤ f.lsb) : getF (putF v g n) f = getF v f := by
  apply Nat.eq_of_testBit_eq
  intro i
  simp only [getF, putF, Nat.testBit_mod_two_pow, Nat.testBit_shiftRight, BitVec.testBit_toNat, BitVec.getLsbD_or,
    BitVec.getLsbD_and, BitVec.getLsbD_not, BitVec.getLsbD_ofNat, Nat.testBit_shiftLeft, Nat.testBit_two_pow_sub_one]
  by_cases hi : i < f.width
  · have hout : ¬ (g.lsb ≤ f.lsb + i ∧ f.lsb + i - g.lsb < g.width) := by omega
    by_cases hlt : f.lsb + i < 32
    · by_cases hge : g.lsb ≤ f.lsb + i
      · have hw : ¬ f.lsb + i - g.lsb < g.width := fun hw => hout ⟨hge, hw⟩
        simp [hi, hlt, hge, hw]
      · simp [hi, hlt, hge]
    · simp [hlt, BitVec.getLsbD_of_ge v _ (Nat.le_of_not_lt hlt)]
  · simp [hi]

/-- The index field of `DIE_INFO` is the die's number. -/
theorem State.dieInfo_index (s : State) {d : Nat} (hd : d < 7) : getF (s.dieInfo d) fDIE_INFO_DIE_INDEX = d := by
  simp only [State.dieInfo]
  rw [getF_putF_disjoint _ _ _ _ (by decide), getF_putF _ _ _ (by decide)]
  exact Nat.mod_eq_of_lt (by simp only [fDIE_INFO_DIE_INDEX]; omega)

end Sys2Proof.Machine
end

section
/-! ### A read leaves the masters' records alone -/

namespace Sys2Proof.Machine

@[simp] theorem psDataRead_master (m n : Rm) (d i k : Nat) (s : State) : (psDataRead m d i k s).1.master n = s.master n := by
  simp only [psDataRead, State.psAdvance]
  repeat' split
  all_goals simp

@[simp] theorem niRead_master (m n : Rm) (d i o : Nat) (s : State) : (niRead m d i o s).1.master n = s.master n := by
  fun_cases niRead m d i o s
  · simp
  · rfl
  · rfl

@[simp] theorem linkRead_master (n : Rm) (a : Nat) (s : State) : (linkRead a s).1.master n = s.master n := by
  fun_cases linkRead a s <;> rfl

@[simp] theorem laneRead_master (n : Rm) (a : Nat) (s : State) : (laneRead a s).1.master n = s.master n := by
  simp only [laneRead, readStored]
  split <;> simp

@[simp] theorem feRbDataRead_master (m n : Rm) (d : Nat) (s : State) : (feRbDataRead m d s).1.master n = s.master n := by
  fun_cases feRbDataRead m d s <;> simp

@[simp] theorem feRead_master (m n : Rm) (d o : Nat) (s : State) : (feRead m d o s).1.master n = s.master n := by
  fun_cases feRead m d o s
  case case5 => simp
  all_goals rfl

@[simp] theorem imDataRead_master (n : Rm) (i k : Nat) (s : State) : (imDataRead i k s).1.master n = s.master n := by
  simp only [imDataRead, State.imAdvance]
  repeat' split
  all_goals simp

@[simp] theorem dmDataRead_master (n : Rm) (i : Nat) (s : State) : (dmDataRead i s).1.master n = s.master n := by
  simp only [dmDataRead, State.dmAdvance]
  split <;> simp

@[simp] theorem qsDataRead_master (n : Rm) (q k : Nat) (s : State) : (qsDataRead q k s).1.master n = s.master n := by
  simp only [qsDataRead, State.svcAdvance]
  repeat' split
  all_goals simp

@[simp] theorem drDlyRead_master (n : Rm) (d : Nat) (s : State) : (drDlyRead d s).1.master n = s.master n := by
  simp only [drDlyRead]
  repeat' split
  all_goals simp

@[simp] theorem abResultRead_master (m n : Rm) (i : Nat) (s : State) : (abResultRead m i s).1.master n = s.master n := by
  fun_cases abResultRead m i s <;> simp [State.abFlag]

@[simp] theorem icResultRead_master (m n : Rm) (i : Nat) (s : State) : (icResultRead m i s).1.master n = s.master n := by
  fun_cases icResultRead m i s <;> simp [State.icFlag]

@[simp] theorem dbgRegRead_master (n : Rm) (i : Nat) (s : State) : (dbgRegRead i s).1.master n = s.master n := by
  simp only [dbgRegRead, State.dbgAdvance, refuse]
  repeat' split
  all_goals simp

@[simp] theorem asDataRead_master (n : Rm) (k : Nat) (s : State) : (asDataRead k s).1.master n = s.master n := by
  simp only [asDataRead, State.asAdvance]
  repeat' split
  all_goals simp

@[simp] theorem coreRead_master (n : Rm) (i o : Nat) (s : State) : (coreRead i o s).1.master n = s.master n := by
  simp only [coreRead, readAs, readStored]
  repeat' split
  all_goals simp

@[simp] theorem abRead_master (m n : Rm) (i o : Nat) (s : State) : (abRead m i o s).1.master n = s.master n := by
  fun_cases abRead m i o s <;> simp [readAs, readStored]

@[simp] theorem icRead_master (m n : Rm) (i o : Nat) (s : State) : (icRead m i o s).1.master n = s.master n := by
  fun_cases icRead m i o s <;> simp [readAs, readStored]

@[simp] theorem qdrBlockRead_master (n : Rm) (q o : Nat) (s : State) : (qdrBlockRead q o s).1.master n = s.master n := by
  fun_cases qdrBlockRead q o s <;> simp [readAs, readStored]

@[simp] theorem dramBlockRead_master (n : Rm) (d o : Nat) (s : State) : (dramBlockRead d o s).1.master n = s.master n := by
  fun_cases dramBlockRead d o s <;> simp [readAs, readStored]

@[simp] theorem identRead_master (n : Rm) (o : Nat) (s : State) : (identRead o s).1.master n = s.master n := by
  fun_cases identRead o s <;> rfl

@[simp] theorem eventRead_master (n : Rm) (o : Nat) (s : State) : (eventRead o s).1.master n = s.master n := by
  fun_cases eventRead o s <;> rfl

@[simp] theorem cfgRead_master (n : Rm) (o : Nat) (s : State) : (cfgRead o s).1.master n = s.master n := by
  fun_cases cfgRead o s <;> rfl

@[simp] theorem patternBlockRead_master (n : Rm) (o : Nat) (s : State) : (patternBlockRead o s).1.master n = s.master n := by
  fun_cases patternBlockRead o s <;> rfl

@[simp] theorem hubRead_master (m n : Rm) (b o : Nat) (s : State) : (hubRead m b o s).1.master n = s.master n := by
  fun_cases hubRead m b o s <;> simp [readAs, readStored]

@[simp] theorem logicRead_master (m n : Rm) (d b o : Nat) (s : State) : (logicRead m d b o s).1.master n = s.master n := by
  fun_cases logicRead m d b o s <;> simp [readAs, readStored]

@[simp] theorem anaRead_master (m n : Rm) (b o : Nat) (s : State) : (anaRead m b o s).1.master n = s.master n := by
  simp only [anaRead, readAs, readStored]
  repeat' split
  all_goals simp

/-- Whatever register is read, the masters' records stay as they were. -/
theorem regRead_master (m n : Rm) (a : Nat) (s : State) : (regRead m a s).1.master n = s.master n := by
  fun_cases regRead m a s <;> simp

theorem gated_read_master {m n : Rm} {r : RingReq} {s : State} (hw : r.write = false) :
    (gated r (ringTarget m r) s).1.master n = s.master n := by
  have hf : (ringTarget m r s).1.master n = s.master n := by simp [ringTarget, hw, regRead_master]
  fun_cases gated r (ringTarget m r) s <;> simp_all [refuse]

end Sys2Proof.Machine
end

section
/-! ### The end of an access at the root (R21, R178) -/

namespace Sys2Proof.Machine

/-- The record of a master whose access has ended with a status and, for a read, with this data. -/
def RingMaster.finished (x : RingMaster) (st : RStat) (v : W32) : RingMaster :=
  let idle : RingMaster := { x with busy := false, answered := false, waiting := false, remote := none, status := st }
  if x.req.write then idle else { idle with data := v }

/-- A master whose access has ended has none outstanding, and holds its status. -/
theorem RingMaster.finished_idle (x : RingMaster) (st : RStat) (v : W32) :
    (x.finished st v).busy = false ∧ (x.finished st v).waiting = false ∧ (x.finished st v).remote = none ∧
      (x.finished st v).status = st := by
  simp only [RingMaster.finished]
  split <;> exact ⟨rfl, rfl, rfl, rfl⟩

theorem RingMaster.finished_data (x : RingMaster) (st : RStat) (v : W32) :
    (x.finished st v).data = if x.req.write then x.data else v := by
  simp only [RingMaster.finished]
  split <;> rfl

/-- Where the answer of an access recorded as `x` goes on: to the gateway that a remote packet names, or to core 0's `RDATA`. -/
def State.deliver (s : State) (m : Rm) (x : RingMaster) (st : RStat) (v : W32) : State :=
  match x.remote with
  | some b => s.sendRemote (remoteResponse b st v)
  | none =>
    match m with
    | .core0 => if x.req.write then s else s.setThr 0 { s.thr 0 with rdata := v }
    | _ => s

/-- The spec states the data of this answer: the access is a write, or its status is `OK` or `DECODE`. -/
def RingMaster.stated (x : RingMaster) (st : RStat) : Bool := x.req.write || st == .ok || st == .decode

theorem RingMaster.stated_iff (x : RingMaster) (st : RStat) :
    x.stated st = true ↔ x.req.write = true ∨ st = .ok ∨ st = .decode := by
  simp [RingMaster.stated, or_assoc]

/-- An access ends in its master's record and where its answer goes, with data that are free where the spec states none. -/
theorem State.ringFinish_eq (s : State) (m : Rm) (st : RStat) (d : W32) : ∃ n v,
    s.ringFinish m st d = (({ s with free := n }).setMaster m ((s.master m).finished st v)).deliver m (s.master m) st v ∧
    ((s.master m).stated st = true → n = s.free ∧ v = d) := by
  have hform : s.ringFinish m st d =
      ((if (s.master m).stated st then s else (s.fresh 32).2).setMaster m
        ((s.master m).finished st (if (s.master m).stated st then d else (s.fresh 32).1))).deliver m (s.master m) st
        (if (s.master m).stated st then d else (s.fresh 32).1) := rfl
  rw [hform]
  cases (s.master m).stated st
  · exact ⟨s.free + 1, (s.fresh 32).1, rfl, fun h => absurd h Bool.false_ne_true⟩
  · exact ⟨s.free, d, rfl, fun _ => ⟨rfl, rfl⟩⟩

/-- A packet sent on changes the ports and the packets that have arrived alone. -/
theorem State.sendRemote_shape (s : State) (r : Remote) : ∃ p q, s.sendRemote r = { s with ports := p, remoteIn := q } := by
  fun_cases State.sendRemote s r
  · exact ⟨_, _, rfl⟩
  · exact ⟨_, _, rfl⟩
  · exact ⟨s.ports, s.remoteIn, rfl⟩

/-- Which packets go where depends on registers, ports and packets that have arrived alone. -/
theorem State.sendRemote_congr {s t : State} (r : Remote) (hr : t.regs = s.regs) (hp : t.ports = s.ports)
    (hq : t.remoteIn = s.remoteIn) :
    (t.sendRemote r).ports = (s.sendRemote r).ports ∧ (t.sendRemote r).remoteIn = (s.sendRemote r).remoteIn := by
  have hst (p : Nat) : t.tpState p = s.tpState p := by simp [State.tpState, State.fld, State.reg, hr]
  have hman (p : Nat) : t.portManages p = s.portManages p := by simp [State.portManages, hst]
  have hport (p : Nat) : t.port p = s.port p := by simp [State.port, hp]
  simp only [State.sendRemote]
  cases r.hop with
  | none => simp [hp, hq]
  | some e =>
    simp only [hman, hst, hport]
    split <;> simp [State.setPort, hp, hq]

/-- An answer on its way changes core 0's record, or the ports and the packets that have arrived. -/
theorem State.deliver_shape (s : State) (m : Rm) (x : RingMaster) (st : RStat) (v : W32) :
    ∃ c p q, s.deliver m x st v = { s with cores := c, ports := p, remoteIn := q } := by
  fun_cases State.deliver s m x st v
  case case1 b _ =>
    obtain ⟨p, q, h⟩ := s.sendRemote_shape (remoteResponse b st v)
    exact ⟨s.cores, p, q, h⟩
  case case3 => exact ⟨_, s.ports, s.remoteIn, rfl⟩
  all_goals exact ⟨s.cores, s.ports, s.remoteIn, rfl⟩

@[simp] theorem State.deliver_master (s : State) (m : Rm) (x : RingMaster) (st : RStat) (v : W32) (k : Rm) :
    (s.deliver m x st v).master k = s.master k := by
  obtain ⟨c, p, q, h⟩ := s.deliver_shape m x st v
  rw [h]
  cases k <;> rfl
@[simp] theorem State.deliver_regs (s : State) (m : Rm) (x : RingMaster) (st : RStat) (v : W32) :
    (s.deliver m x st v).regs = s.regs := by
  obtain ⟨c, p, q, h⟩ := s.deliver_shape m x st v
  rw [h]
@[simp] theorem State.deliver_mem (s : State) (m : Rm) (x : RingMaster) (st : RStat) (v : W32) :
    (s.deliver m x st v).mem = s.mem := by
  obtain ⟨c, p, q, h⟩ := s.deliver_shape m x st v
  rw [h]


end Sys2Proof.Machine
end

section
/-! ### What the end of an access changes -/

namespace Sys2Proof.Machine

theorem State.keepsElse_free (s : State) (n : Nat) (ok : Nat → Bool) : s.keepsElse { s with free := n } [.free] ok := by
  refine ⟨fun p hp => ?_, fun _ _ _ => rfl⟩
  cases p
  case free => exact absurd (List.mem_singleton.mpr rfl) hp
  case mem => exact fun _ => rfl
  all_goals rfl

theorem State.setThr_keepsElse (s : State) (n : Nat) (x : Thrumas) (ok : Nat → Bool) :
    s.keepsElse (s.setThr n x) [.cores] ok := by
  refine ⟨fun p hp => ?_, fun _ _ _ => rfl⟩
  cases p
  case cores => exact absurd (List.mem_singleton.mpr rfl) hp
  case mem => exact fun _ => rfl
  all_goals rfl

theorem State.sendRemote_keepsElse (s : State) (r : Remote) (ok : Nat → Bool) :
    s.keepsElse (s.sendRemote r) [.ports, .remoteIn] ok := by
  obtain ⟨ps, q, h⟩ := s.sendRemote_shape r
  rw [h]
  refine ⟨fun p hp => ?_, fun _ _ _ => rfl⟩
  cases p
  case ports | remoteIn => simp at hp
  case mem => exact fun _ => rfl
  all_goals rfl

/-- The answer to a master's own access reaches core 0's record at most. -/
theorem State.deliver_keepsElse_own (s : State) {m : Rm} {x : RingMaster} (st : RStat) (v : W32) (hx : x.remote = none)
    (ok : Nat → Bool) : s.keepsElse (s.deliver m x st v) [.cores] ok := by
  fun_cases State.deliver s m x st v
  case case1 hb => simp [hx] at hb
  case case3 => exact s.setThr_keepsElse ..
  all_goals exact s.keepsElse_refl ..

theorem State.deliver_remote (s : State) {m : Rm} {x : RingMaster} (st : RStat) (v : W32) {b : BitVec 120}
    (hx : x.remote = some b) : s.deliver m x st v = s.sendRemote (remoteResponse b st v) := by
  simp [State.deliver, hx]

section Finish
variable {s : State} {m : Rm} {st : RStat} {d : W32}

/-- The master has no access outstanding any more, and holds the status. -/
theorem State.ringFinish_idle (s : State) (m : Rm) (st : RStat) (d : W32) :
    ((s.ringFinish m st d).master m).busy = false ∧ ((s.ringFinish m st d).master m).waiting = false ∧
      ((s.ringFinish m st d).master m).remote = none ∧ ((s.ringFinish m st d).master m).status = st := by
  obtain ⟨n, v, h, -⟩ := s.ringFinish_eq m st d
  simpa [h] using (s.master m).finished_idle st v

/-- A stated answer is what a read leaves in its master's record. -/
theorem State.ringFinish_data (h : (s.master m).stated st = true) :
    ((s.ringFinish m st d).master m).data = if (s.master m).req.write then (s.master m).data else d := by
  obtain ⟨n, v, hf, hv⟩ := s.ringFinish_eq m st d
  obtain ⟨-, rfl⟩ := hv h
  simp [hf, RingMaster.finished_data]

theorem State.ringFinish_master_ne (s : State) (st : RStat) (d : W32) {k : Rm} (hk : k ≠ m) :
    (s.ringFinish m st d).master k = s.master k := by
  obtain ⟨n, v, h, -⟩ := s.ringFinish_eq m st d
  rw [h, State.deliver_master, State.setMaster_master_ne _ _ hk]
  cases k <;> rfl

@[simp] theorem State.ringFinish_regs (s : State) (m : Rm) (st : RStat) (d : W32) : (s.ringFinish m st d).regs = s.regs := by
  obtain ⟨n, v, h, -⟩ := s.ringFinish_eq m st d
  simp [h]

@[simp] theorem State.ringFinish_mem (s : State) (m : Rm) (st : RStat) (d : W32) : (s.ringFinish m st d).mem = s.mem := by
  obtain ⟨n, v, h, -⟩ := s.ringFinish_eq m st d
  simp [h]

/-- A master's own access whose answer is stated changes its record, and core 0's. -/
theorem State.ringFinish_keepsElse_stated (d : W32) (hr : (s.master m).remote = none) (h : (s.master m).stated st = true) :
    s.keepsElse (s.ringFinish m st d) (masterParts m ++ [.cores]) (fun _ => false) := by
  obtain ⟨n, v, hf, hv⟩ := s.ringFinish_eq m st d
  obtain ⟨rfl, rfl⟩ := hv h
  rw [hf]
  exact State.keepsElse_append (s.setMaster_keepsElse m _) (State.deliver_keepsElse_own _ st v hr _)

/-- A master's own access changes its record, and core 0's; data that the spec leaves open draw a free value. -/
theorem State.ringFinish_keepsElse_own (st : RStat) (d : W32) (hr : (s.master m).remote = none) :
    s.keepsElse (s.ringFinish m st d) (masterParts m ++ [.cores, .free]) (fun _ => false) := by
  obtain ⟨n, v, hf, -⟩ := s.ringFinish_eq m st d
  rw [hf]
  refine State.keepsElse_mono (State.keepsElse_append (State.keepsElse_append (s.keepsElse_free n _)
    (State.setMaster_keepsElse _ m _)) (State.deliver_keepsElse_own _ st v hr _)) ?_
  simp

/-- A remote packet's access changes its master's record and where the answering packet goes. -/
theorem State.ringFinish_keepsElse_remote (st : RStat) (d : W32) {b : BitVec 120} (hr : (s.master m).remote = some b) :
    s.keepsElse (s.ringFinish m st d) (masterParts m ++ [.ports, .remoteIn, .free]) (fun _ => false) := by
  obtain ⟨n, v, hf, -⟩ := s.ringFinish_eq m st d
  rw [hf, State.deliver_remote _ st v hr]
  refine State.keepsElse_mono (State.keepsElse_append (State.keepsElse_append (s.keepsElse_free n _)
    (State.setMaster_keepsElse _ m _)) (State.sendRemote_keepsElse _ _ _)) ?_
  simp

theorem State.ringFinish_keepsElse (s : State) (m : Rm) (st : RStat) (d : W32) :
    s.keepsElse (s.ringFinish m st d) (masterParts m ++ [.cores, .free, .ports, .remoteIn]) (fun _ => false) := by
  cases hr : (s.master m).remote with
  | none => exact State.keepsElse_mono (State.ringFinish_keepsElse_own st d hr) (by simp)
  | some b => exact State.keepsElse_mono (State.ringFinish_keepsElse_remote st d hr) (by simp)

/-- What core 0 has read lands in its `RDATA` (R10). -/
theorem State.ringFinish_rdata (hwf : Tab.wf (fun _ => Thrumas.empty) s.cores = true) (st : RStat) (d : W32)
    (hr : (s.master .core0).remote = none) (hw : (s.master .core0).req.write = false) :
    (s.ringFinish .core0 st d).thr 0 = { s.thr 0 with rdata := ((s.ringFinish .core0 st d).master .core0).data } := by
  obtain ⟨n, v, hf, -⟩ := s.ringFinish_eq .core0 st d
  rw [hf, State.deliver_master, State.setMaster_master, RingMaster.finished_data]
  simp only [State.deliver, hr, hw]
  exact State.setThr_thr hwf 0 _

/-- A remote packet's access is answered by a packet with the target's data where they are stated, and otherwise with those that the
master's record then holds (R178). -/
theorem State.ringFinish_sent (st : RStat) (d : W32) {b : BitVec 120} (hr : (s.master m).remote = some b) :
    let t := s.ringFinish m st d
    let u := s.sendRemote (remoteResponse b st (if (s.master m).stated st then d else (t.master m).data))
    t.remoteIn = u.remoteIn ∧ t.ports = u.ports := by
  obtain ⟨n, v, hf, hv⟩ := s.ringFinish_eq m st d
  have hdata : (if (s.master m).stated st then d else ((s.ringFinish m st d).master m).data) = v := by
    cases h : (s.master m).stated st with
    | true => exact (hv h).2.symm
    | false =>
      have hw : (s.master m).req.write = false := by simp_all [RingMaster.stated]
      simp [hf, RingMaster.finished_data, hw]
  simp only [hdata]
  rw [hf, State.deliver_remote _ st v hr]
  have hc := State.sendRemote_congr (s := s) (t := ({ s with free := n }).setMaster m ((s.master m).finished st v))
    (remoteResponse b st v) (by simp) (by simp) (by simp)
  exact ⟨hc.2, hc.1⟩

end Finish

end Sys2Proof.Machine
end

section
/-! ### Completion, `TIMEOUT` and grants of waiting accesses (R21, R148) -/

namespace Sys2Proof.Machine

theorem exec_ringAccessComplete (m : Rm) (s : State) : exec (.ringAccessComplete m) s = .next (s.ringComplete m) := rfl

section Complete
variable {s : State} {m : Rm}

theorem State.ringComplete_answered (hb : (s.master m).busy = true) (ha : (s.master m).answered = true) :
    s.ringComplete m = s.ringFinish m (s.master m).ansStatus (s.master m).ansData := by
  simp [State.ringComplete, hb, ha]

theorem State.ringComplete_closed (hb : (s.master m).busy = true) (ha : (s.master m).answered = false)
    (hc : s.ringClosed (s.master m).req.die = true) : s.ringComplete m = s.ringFinish m .timeout 0#32 := by
  simp [State.ringComplete, hb, ha, hc]

theorem State.ringComplete_performed (hb : (s.master m).busy = true) (ha : (s.master m).answered = false)
    (hw : (s.master m).waiting = false) (hc : s.ringClosed (s.master m).req.die = false)
    (hr : s.reach (s.master m).req.die = true) :
    s.ringComplete m =
      let a := gated (s.master m).req (ringTarget m (s.master m).req) s
      a.1.ringFinish m a.2.1 a.2.2 := by
  simp [State.ringComplete, hb, ha, hw, hc, hr]

theorem State.ringComplete_waits (h : (s.master m).busy = false ∨ ((s.master m).answered = false ∧
    s.ringClosed (s.master m).req.die = false ∧ ((s.master m).waiting = true ∨ s.reach (s.master m).req.die = false))) :
    s.ringComplete m = s := by
  rcases h with hb | ⟨ha, hc, hw | hr⟩
  · simp [State.ringComplete, hb]
  · simp [State.ringComplete, ha, hc, hw]
  · simp [State.ringComplete, ha, hc, hr]

/-- The limit is not reached, or there is no granted access: no `TIMEOUT`. -/
theorem exec_ringAccessTimeout_early (h : (s.master m).busy = false ∨ (s.master m).waiting = true ∨
    s.now < (s.master m).grantAt + ringTicks 4096) : exec (.ringAccessTimeout m) s = .next s := by
  have hc : (!(s.master m).busy || (s.master m).waiting || decide (s.now < (s.master m).grantAt + ringTicks 4096)) = true := by
    simpa [or_assoc] using h
  exact if_pos hc

/-- At the limit the access ends in `TIMEOUT`, after the free choice whether an unanswered write took effect. -/
theorem exec_ringAccessTimeout_due (hb : (s.master m).busy = true) (hw : (s.master m).waiting = false)
    (ht : (s.master m).grantAt + ringTicks 4096 ≤ s.now) :
    exec (.ringAccessTimeout m) s = .next ((s.ringUnsure m).ringFinish m .timeout 0#32) := by
  have hc : ¬ (!(s.master m).busy || (s.master m).waiting || decide (s.now < (s.master m).grantAt + ringTicks 4096)) = true := by
    simpa [hb, hw] using ht
  exact if_neg hc

/-- An access that is answered, or reads, leaves nothing unsure. -/
theorem State.ringUnsure_sure (h : (s.master m).answered = true ∨ (s.master m).req.write = false) : s.ringUnsure m = s := by
  rcases h with h | h <;> simp [State.ringUnsure, h]

/-- A write that is not answered has changed nothing, or what its target changes. -/
theorem State.ringUnsure_write (ha : (s.master m).answered = false) (hw : (s.master m).req.write = true) :
    s.ringUnsure m = s.freshB.2 ∨
      s.ringUnsure m = (gated (s.master m).req (ringTarget m (s.master m).req) s.freshB.2).1 := by
  simp only [State.ringUnsure, ha, hw]
  cases s.freshB.1
  · exact .inl (by simp)
  · exact .inr (by simp)

/-- The master that the root grants next waits no longer; where its die is within reach or closed, it is answered. -/
theorem State.ringTick_grants (hg : s.ringGranted = false) (hn : s.nextWaiting = some m) :
    (s.ringTick.master m).waiting = false ∧ (s.reach (s.master m).req.die = true → (s.ringTick.master m).answered = true) := by
  simp only [State.ringTick, hg, hn]
  cases hc : s.ringClosed (s.master m).req.die
  · cases hr : s.reach (s.master m).req.die <;> simp [ringGrant, hr]
  · simp

end Complete

/-! ### Register writes without a row of their own (R8, R9, log entry 14) -/

/-- These registers have no row of their own, and a write of one has the plain effect alone. -/
theorem regWrite_plain (m : Rm) (v : W32) (s : State) {a k : Nat} (hk : k < 4) (ha : a ∈ [aPWR_LIMIT, aRIM_STAT, aRTC_SET_LO,
    aRTC_SET_HI, aRTC_ALM_LO, aRTC_ALM_HI, aRTC_WAKE k, aEV_CTRL, aEV_MSG k, aEV_ROUTE k, aNI_ERR k 4, aAB_FLAG k]) :
    ownRow (a / 4294967296) (a / 65536 % 65536) (a % 65536) = false ∧ regWrite m a v s = wrote (s.plainWrite a v) := by
  interval_cases k <;> fin_cases ha <;> exact ⟨rfl, rfl⟩

theorem exec_registerWrite {m : Rm} {die : Fin 8} {block off : BitVec 16} {v : W32} {s : State}
    (h : ownRow die.val block.toNat off.toNat = false) :
    exec (.registerWrite m die block off v) s =
      .next (ringPut m (ra die.val block.toNat off.toNat) v (regWrite m (ra die.val block.toNat off.toNat) v) s) := by
  change execRegisterWrite m die block off v s = _
  simp [execRegisterWrite, h]

theorem exec_registerWrite_idle {m : Rm} {die : Fin 8} {block off : BitVec 16} {v : W32} {s : State}
    (h : ownRow die.val block.toNat off.toNat = true ∨ (s.master m).busy = true) :
    exec (.registerWrite m die block off v) s = .next s := by
  change execRegisterWrite m die block off v s = _
  rcases h with h | h
  · simp [execRegisterWrite, h]
  · simp [execRegisterWrite, ringPut, ringDo_busy h]

/-- A plain write leaves the register's row rule in it and every other register as it was. -/
theorem State.plainWrite_eq {s : State} {a : Nat} {w : RegRow} (h : regRow a = some w) (v : W32) :
    s.plainWrite a v = s.setReg a (w.write (s.reg a) v ||| (s.hwBits a &&& v &&& BitVec.ofNat 32 w.w1c)) := by
  simp [State.plainWrite, h]

theorem State.setReg_keepsElse {s : State} (h : Tab.wf regReset s.regs = true) (a : Nat) (v : W32) :
    s.keepsElse (s.setReg a v) [] (among [a]) := by
  refine ⟨fun p _ => ?_, fun b hb _ => State.setReg_reg_ne h (by simpa [among] using hb) v⟩
  cases p
  case mem => exact fun _ => rfl
  all_goals rfl

end Sys2Proof.Machine
end

section
/-! ### The statement about ring accesses -/

namespace Sys2Proof.Machine

/-- Settles O56: the grant, the target's answer, completion and `TIMEOUT` are each one of the lemmas above. -/
theorem ringAccesses : Obligations.RingAccesses := by
  intro s hInv
  refine ⟨?stored, ?dieInfo, ?performed, ?decode, ?refused, ?closed, ?queues, ?waits, ?busy, ?putBusy, ?putClosed, ?putQueues,
    ?granted, ?completeStated, ?completeOpen, ?completeRemote, ?completeClosed, ?completePerformed, ?completeIdle,
    ?timeoutSure, ?timeoutWrite, ?timeoutEarly, ?writePlain, ?writes, ?writeIdle⟩
  case stored =>
    intro m r k _ hb ho hk hready hread ha
    exact ringAccess_reads hb ho hready hread (regRead_stored m s hk ha)
  case dieInfo =>
    intro m r _ hb ho hready hread hd ha
    obtain ⟨t, he, hm, hkeep, hregs⟩ := ringAccess_reads hb ho hready hread (by rw [ha]; exact regRead_dieInfo m s hd)
    exact ⟨t, he, hm, s.dieInfo_index hd, hkeep, hregs⟩
  case performed =>
    intro m r _ hb ho hready
    refine ⟨_, by rw [exec_ringAccess, ringDo_ready hb ho hready], ?_⟩
    simp [State.answeredTo]
  case decode =>
    intro m r _ _ _ hbusy hc hg hr hrow
    apply ringAccess_recorded
    rw [ringDo_granted hbusy hc hg hr, gated_decode hrow]
    rfl
  case refused =>
    intro m r d _ _ _ hbusy hc hg hr hrow hd hs
    apply ringAccess_recorded
    rw [ringDo_granted hbusy hc hg hr, gated_refused hrow hd hs]
    rfl
  case closed => exact fun m r hbusy hc => ringAccess_recorded (ringDo_closed hbusy hc)
  case queues => exact fun m r hbusy hc hg => ringAccess_recorded (ringDo_queues hbusy hc hg)
  case waits => exact fun m r hbusy hc hg hr => ringAccess_recorded (ringDo_waits hbusy hc hg hr)
  case busy => exact fun m r hbusy => by rw [exec_ringAccess, ringDo_busy hbusy]
  case putBusy => exact fun m a v f hbusy => ringDo_busy hbusy
  case putClosed => exact fun m a v f hbusy hc => ringDo_closed hbusy hc
  case putQueues => exact fun m a v f hbusy hc hg => ringDo_queues hbusy hc hg
  case granted => exact fun m hg hn => State.ringTick_grants hg hn
  case completeStated =>
    intro m hb ha hr hst
    have hst := ((s.master m).stated_iff _).mpr hst
    obtain ⟨hbusy, hwait, hrem, hstat⟩ := s.ringFinish_idle m (s.master m).ansStatus (s.master m).ansData
    have hdata := State.ringFinish_data (d := (s.master m).ansData) hst
    refine ⟨_, by rw [exec_ringAccessComplete, State.ringComplete_answered hb ha], hbusy, hwait, hrem, hstat, hdata, ?_,
      State.ringFinish_keepsElse_stated _ hr hst⟩
    rintro rfl hw
    rw [State.ringFinish_rdata hInv.cores_wf _ _ hr hw, hdata, hw]
    rfl
  case completeOpen =>
    intro m hb ha hr hst
    obtain ⟨hbusy, hwait, hrem, hstat⟩ := s.ringFinish_idle m (s.master m).ansStatus (s.master m).ansData
    refine ⟨_, by rw [exec_ringAccessComplete, State.ringComplete_answered hb ha], hbusy, hwait, hrem, hstat, ?_,
      State.ringFinish_keepsElse_own _ _ hr⟩
    rintro rfl
    have hw : (s.master .core0).req.write = false := Bool.eq_false_iff.mpr fun h => hst (.inl h)
    exact State.ringFinish_rdata hInv.cores_wf _ _ hr hw
  case completeRemote =>
    intro m b hb ha hr
    obtain ⟨hbusy, hwait, hrem, hstat⟩ := s.ringFinish_idle m (s.master m).ansStatus (s.master m).ansData
    obtain ⟨hin, hports⟩ := State.ringFinish_sent (s.master m).ansStatus (s.master m).ansData hr
    have hkeep := State.ringFinish_keepsElse_remote (s.master m).ansStatus (s.master m).ansData hr
    simp only [RingMaster.stated_iff] at hin hports
    refine ⟨_, by rw [exec_ringAccessComplete, State.ringComplete_answered hb ha], hbusy, hwait, hrem, hstat, hin, hports, ?_,
      hkeep⟩
    exact hkeep.1 .cores (by cases m <;> decide)
  case completeClosed =>
    intro m hb ha hc
    obtain ⟨hbusy, hwait, hrem, hstat⟩ := s.ringFinish_idle m .timeout 0#32
    exact ⟨_, by rw [exec_ringAccessComplete, State.ringComplete_closed hb ha hc], hbusy, hwait, hrem, hstat,
      fun k _ hk => s.ringFinish_master_ne _ _ hk, s.ringFinish_keepsElse m _ _⟩
  case completePerformed =>
    intro m hb ha hw hc hr
    obtain ⟨hbusy, hwait, hrem, hstat⟩ := State.ringFinish_idle _ m _ _
    refine ⟨_, by rw [exec_ringAccessComplete, State.ringComplete_performed hb ha hw hc hr], hbusy, hwait, hrem, hstat, ?_⟩
    intro hread hok
    have hreq : ((gated (s.master m).req (ringTarget m (s.master m).req) s).1.master m).req.write = false := by
      rw [gated_read_master hread, hread]
    rw [State.ringFinish_data ((RingMaster.stated_iff _ _).mpr (.inr (.inl hok))), hreq]
    rfl
  case completeIdle => exact fun m h => by rw [exec_ringAccessComplete, State.ringComplete_waits h]
  case timeoutSure =>
    intro m hb hw ht h
    obtain ⟨hbusy, hwait, hrem, hstat⟩ := s.ringFinish_idle m .timeout 0#32
    exact ⟨_, by rw [exec_ringAccessTimeout_due hb hw ht, State.ringUnsure_sure h], hbusy, hwait, hrem, hstat,
      fun k _ hk => s.ringFinish_master_ne _ _ hk, s.ringFinish_keepsElse m _ _⟩
  case timeoutWrite =>
    intro m hb hw ht ha hwrite
    obtain ⟨hbusy, hwait, hrem, hstat⟩ := (s.ringUnsure m).ringFinish_idle m .timeout 0#32
    refine ⟨_, exec_ringAccessTimeout_due hb hw ht, hbusy, hwait, hrem, hstat, ?_⟩
    rw [State.ringFinish_regs, State.ringFinish_mem]
    rcases State.ringUnsure_write ha hwrite with h | h
    · exact .inl (by simp [h])
    · exact .inr (by simp [h])
  case timeoutEarly => exact fun m h => exec_ringAccessTimeout_early h
  case writePlain =>
    intro m die block off v a k w ha hk hready hrow hmem
    obtain ⟨hown, hplain⟩ := regWrite_plain m v s hk hmem
    subst ha
    obtain ⟨hd, hb, ho⟩ := ra_split (d := die.val) block.isLt off.isLt
    rw [hd, hb, ho] at hown
    refine ⟨_, by rw [exec_registerWrite hown, ringPut_wrote hready hplain], ?_⟩
    rw [State.plainWrite_eq hrow]
    exact ⟨State.setReg_reg hInv.regs_wf _ _, State.setReg_keepsElse hInv.regs_wf _ _⟩
  case writes =>
    intro m die block off v a ha hready hown
    subst ha
    obtain ⟨hd, hb, ho⟩ := ra_split (d := die.val) block.isLt off.isLt
    refine ⟨_, by rw [exec_registerWrite hown, ringPut_ready hready], ?_⟩
    simp [State.answered, hd, hb, ho]
  case writeIdle => exact fun m die block off v h => exec_registerWrite_idle h

end Sys2Proof.Machine
end

section
/-! ### What no command changes: the fuses and the queue (R13, R25; log entry 5)

An operation of the model is a composition of updates of other fields, so one equation for each says that it keeps the pair
`State.fixed`. The equations are simp lemmas: those of an operation follow from those of the operations that it calls, branch by
branch of its definition. -/

namespace Sys2Proof.Machine

/-- What no command changes: the fused facts of the package, and the commands that wait. -/
def State.fixed (s : State) : Fuses × List Instr := (s.fuse, s.pending)

/-- An update keeps the pair where it writes neither field. -/
@[simp] theorem State.fixed_mk (regs clk ringCore ringDebug ringConfig hw dieReset share1 fuse pins pwr ev pat be nis lms mq rsps
    ports lanes gws remoteIn cfg cores banks qdrs qdrSvc dsets km ana tap mem free pending) :
    State.fixed ⟨regs, clk, ringCore, ringDebug, ringConfig, hw, dieReset, share1, fuse, pins, pwr, ev, pat, be, nis, lms, mq,
      rsps, ports, lanes, gws, remoteIn, cfg, cores, banks, qdrs, qdrSvc, dsets, km, ana, tap, mem, free, pending⟩ =
      (fuse, pending) := by rfl
@[simp] theorem State.fixed_pair (s : State) : (s.fuse, s.pending) = s.fixed := by rfl

@[simp] theorem State.fixed_ite {p : Prop} [Decidable p] (a b : State) :
    (if p then a else b).fixed = if p then a.fixed else b.fixed := apply_ite _ _ _ _
@[simp] theorem fixed_fst_ite {α : Type} {p : Prop} [Decidable p] (a b : State × α) :
    (if p then a else b).1.fixed = if p then a.1.fixed else b.1.fixed := apply_ite (fun x : State × α => x.1.fixed) _ _ _

/-- The first part of a pair that is known by its two parts. -/
theorem fixed_fst {α : Type} {p : State × α} {s t : State} {x : α} (h : p = (t, x)) (hp : p.1.fixed = s.fixed) :
    t.fixed = s.fixed := by
  rw [← hp, h]

@[simp] theorem foldl_fixed {α : Type} {f : State → α → State} (l : List α) (s : State)
    (h : ∀ t x, (f t x).fixed = t.fixed) : (l.foldl f s).fixed = s.fixed := by
  induction l generalizing s with
  | nil => rfl
  | cons x r ih => rw [List.foldl_cons, ih, h]
theorem foldl_fst_fixed {α β : Type} {f : State × β → α → State × β} (l : List α) (p : State × β)
    (h : ∀ q x, (f q x).1.fixed = q.1.fixed) : (l.foldl f p).1.fixed = p.1.fixed := by
  induction l generalizing p with
  | nil => rfl
  | cons x r ih => rw [List.foldl_cons, ih, h]

/-- Where the outcome is a next state, it holds the same fuses and the same queue. -/
def Keeps (s : State) (o : Host.Outcome State Fault Refusal) : Prop := ∀ t, o = .next t → t.fixed = s.fixed

theorem Keeps.next {s t : State} (h : t.fixed = s.fixed) : Keeps s (.next t) := by
  rintro _ ⟨⟩
  exact h
theorem Keeps.ite {s : State} {p : Prop} [Decidable p] {a b : Host.Outcome State Fault Refusal} (ha : Keeps s a)
    (hb : Keeps s b) : Keeps s (if p then a else b) := by
  split
  · exact ha
  · exact hb

end Sys2Proof.Machine
end

section
/-! ### Registers, fields, events, the ring, the schedule-fault log: the fuses and the queue stay as they were (R13, R25) -/

namespace Sys2Proof.Machine

@[simp] theorem State.setByte_fixed (s : State) (a : Nat) (v : Byte) : (s.setByte a v).fixed = s.fixed := by rfl

@[simp] theorem State.setBytes_fixed (s : State) (a : Nat) (l : List Byte) : (s.setBytes a l).fixed = s.fixed := by
  induction l generalizing s a with
  | nil => rfl
  | cons b r ih => simp [State.setBytes, ih]

@[simp] theorem State.setReg_fixed (s : State) (a : Nat) (v : W32) : (s.setReg a v).fixed = s.fixed := by rfl
@[simp] theorem State.setFld_fixed (s : State) (a : Nat) (f : Fld) (n : Nat) : (s.setFld a f n).fixed = s.fixed := by rfl
@[simp] theorem State.hwMark_fixed (s : State) (a : Nat) (bits : W32) : (s.hwMark a bits).fixed = s.fixed := by rfl

@[simp] theorem State.setBit_fixed (s : State) (a : Nat) (f : Fld) (b : Bool) : (s.setBit a f b).fixed = s.fixed := by
  simp [State.setBit]

@[simp] theorem State.satInc_fixed (s : State) (a : Nat) (f : Fld) : (s.satInc a f).fixed = s.fixed := by simp [State.satInc]

@[simp] theorem State.plainWrite_fixed (s : State) (a : Nat) (v : W32) : (s.plainWrite a v).fixed = s.fixed := by
  fun_cases State.plainWrite s a v <;> simp

@[simp] theorem State.setReg64_fixed (s : State) (lo hi n : Nat) : (s.setReg64 lo hi n).fixed = s.fixed := by rfl
@[simp] theorem State.resetRegs_fixed (s : State) (p : Nat → Bool) : (s.resetRegs p).fixed = s.fixed := by rfl
@[simp] theorem State.fresh_fixed (w : Nat) (s : State) : (s.fresh w).2.fixed = s.fixed := by rfl
@[simp] theorem State.freshB_fixed (s : State) : s.freshB.2.fixed = s.fixed := by rfl
@[simp] theorem State.setDom_fixed (s : State) (dom v : Nat) : (s.setDom dom v).fixed = s.fixed := by rfl
@[simp] theorem State.setPending_fixed (s : State) (n e : Nat) (b : Bool) : (s.setPending n e b).fixed = s.fixed := by rfl

@[simp] theorem State.clearPending_fixed (s : State) (n e : Nat) : (s.clearPending n e).fixed = s.fixed := by
  simp [State.clearPending]

@[simp] theorem State.setOutPin_fixed (s : State) (i : Nat) (p : OutPin) : (s.setOutPin i p).fixed = s.fixed := by rfl

@[simp] theorem State.outOccur_fixed (s : State) (i : Nat) : (s.outOccur i).fixed = s.fixed := by
  fun_cases State.outOccur s i <;> simp

@[simp] theorem State.raiseCore_fixed (s : State) (e : Nat) : (s.raiseCore e).fixed = s.fixed := by simp [State.raiseCore]

@[simp] theorem State.queueMsg_fixed (s : State) (e : Nat) : (s.queueMsg e).fixed = s.fixed := by
  fun_cases State.queueMsg s e <;> simp +zetaDelta

@[simp] theorem State.raiseHub_fixed (s : State) (e : Nat) : (s.raiseHub e).fixed = s.fixed := by simp [State.raiseHub]
@[simp] theorem State.raise_fixed (s : State) (e : Nat) : (s.raise e).fixed = s.fixed := by simp [State.raise]

@[simp] theorem State.flagRaise_fixed (s : State) (a : Nat) (f : Fld) (e : Nat) : (s.flagRaise a f e).fixed = s.fixed := by
  simp [State.flagRaise]

@[simp] theorem State.setMaster_fixed (s : State) (m : Rm) (r : RingMaster) : (s.setMaster m r).fixed = s.fixed := by
  fun_cases State.setMaster s m r <;> simp

@[simp] theorem wrote_fixed (s : State) : (wrote s).1.fixed = s.fixed := by rfl
@[simp] theorem refuse_fixed (s : State) : (refuse s).1.fixed = s.fixed := by rfl

@[simp] theorem gated_fixed (r : RingReq) (f : State → Answer) (s : State) (hf : ∀ t, (f t).1.fixed = t.fixed) :
    (gated r f s).1.fixed = s.fixed := by
  fun_cases gated r f s <;> simp_all

@[simp] theorem ringGrant_fixed (m : Rm) (r : RingMaster) (f : State → Answer) (s : State) (hf : ∀ t, (f t).1.fixed = t.fixed) :
    (ringGrant m r f s).fixed = s.fixed := by
  simp [ringGrant, hf]

@[simp] theorem ringDo_fixed (m : Rm) (r : RingReq) (f : State → Answer) (s : State) (hf : ∀ t, (f t).1.fixed = t.fixed) :
    (ringDo m r f s).fixed = s.fixed := by
  fun_cases ringDo m r f s <;> simp_all

@[simp] theorem ringPut_fixed (m : Rm) (a : Nat) (v : W32) (f : State → Answer) (s : State)
    (hf : ∀ t, (f t).1.fixed = t.fixed) : (ringPut m a v f s).fixed = s.fixed :=
  ringDo_fixed m _ f s hf

@[simp] theorem State.setNi_fixed (s : State) (d n : Nat) (x : Ni) : (s.setNi d n x).fixed = s.fixed := by rfl

@[simp] theorem State.setPs_fixed (s : State) (bank d n tsel idx : Nat) (v : BitVec 128) :
    (s.setPs bank d n tsel idx v).fixed = s.fixed := by rfl

@[simp] theorem State.logFault_fixed (s : State) (kind flowA flowB die router port : Nat) :
    (s.logFault kind flowA flowB die router port).fixed = s.fixed := by simp [State.logFault]

@[simp] theorem State.popFault_fixed (s : State) : s.popFault.fixed = s.fixed := by
  fun_cases State.popFault s <;> simp

@[simp] theorem State.setLm_fixed (s : State) (b : Nat) (x : Lm) : (s.setLm b x).fixed = s.fixed := by rfl
@[simp] theorem State.setPort_fixed (s : State) (p : Nat) (x : Port) : (s.setPort p x).fixed = s.fixed := by rfl
@[simp] theorem State.syncBreach_fixed (s : State) : s.syncBreach.fixed = s.fixed := by simp [State.syncBreach]

end Sys2Proof.Machine
end

section
/-! ### The pattern, the network interface: the fuses and the queue stay as they were (R13, R25) -/

namespace Sys2Proof.Machine

@[simp] theorem State.syncShadowOk_fixed (s : State) : s.syncShadowOk.fixed = s.fixed := by rfl
@[simp] theorem State.setOk_fixed (s : State) (bank d : Nat) (b : Bool) : (s.setOk bank d b).fixed = s.fixed := by rfl

@[simp] theorem patCtrlWrite_fixed (v : W32) (s : State) : (patCtrlWrite v s).1.fixed = s.fixed := by
  fun_cases patCtrlWrite v s <;> simp +zetaDelta

@[simp] theorem patAtWrite_fixed (a : Nat) (v : W32) (s : State) : (patAtWrite a v s).1.fixed = s.fixed := by
  fun_cases patAtWrite a v s <;> simp

@[simp] theorem shadowHeaderWrite_fixed (a : Nat) (v : W32) (s : State) : (shadowHeaderWrite a v s).1.fixed = s.fixed := by
  fun_cases shadowHeaderWrite a v s <;> simp

@[simp] theorem State.swapRegs_fixed (s : State) (a b : Nat) : (s.swapRegs a b).fixed = s.fixed := by rfl
@[simp] theorem State.swapHeaders_fixed (s : State) : s.swapHeaders.fixed = s.fixed := by simp [State.swapHeaders]

@[simp] theorem State.startTail_fixed (s : State) (stop : Bool) (old p w : Nat) :
    (s.startTail stop old p w).fixed = s.fixed := by
  simp [State.startTail]

@[simp] theorem State.takeAction_fixed (s : State) : s.takeAction.fixed = s.fixed := by simp [State.takeAction]
@[simp] theorem State.psAdvance_fixed (s : State) (d n : Nat) : (s.psAdvance d n).fixed = s.fixed := by simp [State.psAdvance]

@[simp] theorem psDataWrite_fixed (d n k : Nat) (v : W32) (s : State) : (psDataWrite d n k v s).1.fixed = s.fixed := by
  fun_cases psDataWrite d n k v s <;> simp +zetaDelta

@[simp] theorem psDataRead_fixed (m : Rm) (d n k : Nat) (s : State) : (psDataRead m d n k s).1.fixed = s.fixed := by
  fun_cases psDataRead m d n k s <;> simp +zetaDelta

theorem State.writeOuts_fixed {s t : State} {d flow : Nat} {outs : List (Nat × Nat)} (h : s.writeOuts d flow outs = some t) :
    t.fixed = s.fixed := by
  simp only [State.writeOuts] at h
  split at h
  · obtain rfl := Option.some.inj h
    simp
  · cases h

@[simp] theorem State.secondPass_fixed (d : Nat) (l : List (Nat × Nat × Nat × BitVec 128)) (s : State) :
    (State.secondPass d l s).1.fixed = s.fixed := by
  fun_induction State.secondPass d l s
  case case5 h ih => exact ih.trans (State.writeOuts_fixed h)
  all_goals simp [*]

@[simp] theorem State.clearFlows_fixed (s : State) (d : Nat) : (s.clearFlows d).fixed = s.fixed := by rfl

@[simp] theorem commitWrite_fixed (d : Nat) (crc : W32) (s : State) : (commitWrite d crc s).1.fixed = s.fixed := by
  fun_cases commitWrite d crc s <;> simp +zetaDelta

@[simp] theorem State.endCommit_fixed (s : State) (d : Nat) (crc : W32) : (s.endCommit d crc).fixed = s.fixed := by
  fun_cases State.endCommit s d crc
  case case3 | case4 =>
    have ht := fixed_fst ‹State.secondPass _ _ _ = _› (State.secondPass_fixed ..)
    simpa +zetaDelta using ht
  all_goals simp +zetaDelta

@[simp] theorem execCommitEnd_keeps (d : Fin 7) (s : State) : Keeps s (execCommitEnd d s) := by
  fun_cases execCommitEnd d s <;> exact .next (by simp)

@[simp] theorem State.abandonCommit_fixed (s : State) (d : Nat) : (s.abandonCommit d).fixed = s.fixed := by
  simp [State.abandonCommit]

@[simp] theorem State.setHold_fixed (s : State) (d n : Nat) (x : RegionHold) : (s.setHold d n x).fixed = s.fixed := by rfl
@[simp] theorem State.niErr_fixed (s : State) (d n : Nat) (f : Fld) : (s.niErr d n f).fixed = s.fixed := by simp [State.niErr]
@[simp] theorem State.beFlag_fixed (s : State) (d n : Nat) (f : Fld) : (s.beFlag d n f).fixed = s.fixed := by simp [State.beFlag]

@[simp] theorem State.fifoLevel_fixed (s : State) (d n k old : Nat) : (s.fifoLevel d n k old).fixed = s.fixed := by
  simp [State.fifoLevel]

@[simp] theorem State.fifoPush_fixed (s : State) (d n k : Nat) (fl : List FifoFlit) :
    (s.fifoPush d n k fl).fixed = s.fixed := by
  simp [State.fifoPush]

@[simp] theorem State.unseen_fixed (s : State) (weave : Bool) (l : List Nat) : (s.unseen weave l).2.fixed = s.fixed := by
  simp only [State.unseen]
  repeat' split
  all_goals simp

@[simp] theorem State.fifoCross_fixed (s : State) (d n : Nat) : (s.fifoCross d n).fixed = s.fixed := by simp [State.fifoCross]

@[simp] theorem execFifoRead_keeps (i : NiId) (k : Fin 4) (s : State) : Keeps s (execFifoRead i k s) := by
  fun_cases execFifoRead i k s <;> exact .next (by simp)

@[simp] theorem fifoFlushWrite_fixed (d n : Nat) (v : W32) (s : State) : (fifoFlushWrite d n v s).1.fixed = s.fixed := by rfl

@[simp] theorem State.stageOne_fixed (s : State) (d n : Nat) (f : BitVec 256) : (s.stageOne d n f).fixed = s.fixed := by
  simp [State.stageOne]

@[simp] theorem State.egressPush_fixed (s : State) (d n : Nat) (e : Egr) : (s.egressPush d n e).fixed = s.fixed := by
  simp [State.egressPush]

@[simp] theorem State.sendPos_fixed (s : State) (p : Nat) (x : PortPos) (key : Nat) : (s.sendPos p x key).fixed = s.fixed := by
  rfl

end Sys2Proof.Machine
end

section
/-! ### Best-effort traffic, spill and replay: the fuses and the queue stay as they were (R13, R25) -/

namespace Sys2Proof.Machine

@[simp] theorem State.dropItem_fixed (s : State) (x : BeItem) : (s.dropItem x).fixed = s.fixed := by rfl
@[simp] theorem State.putItem_fixed (s : State) (x y : BeItem) : (s.putItem x y).fixed = s.fixed := by rfl
@[simp] theorem State.addItem_fixed (s : State) (x : BeItem) : (s.addItem x).fixed = s.fixed := by rfl

@[simp] theorem State.charge_fixed (s : State) (d n inp vc ord rsv : Nat) (edge : Bool) :
    (s.charge d n inp vc ord rsv edge).fixed = s.fixed := by rfl

@[simp] theorem State.freePlaces_fixed (s : State) (x : BeItem) (i m : Nat) : (s.freePlaces x i m).fixed = s.fixed := by
  simp only [State.freePlaces]
  split
  · simp
  · split
    · rfl
    · exact foldl_fixed _ s fun _ _ => rfl
  · split <;> simp

@[simp] theorem State.freeItem_fixed (s : State) (x : BeItem) : (s.freeItem x).fixed = s.fixed := by simp [State.freeItem]
@[simp] theorem State.useCredit_fixed (s : State) (c : CreditDue) : (s.useCredit c).fixed = s.fixed := by rfl

@[simp] theorem State.injectFrom_fixed (s : State) (d n : Nat) (p : Packet) (own : Nat) (port : Option Nat) :
    (s.injectFrom d n p own port).fixed = s.fixed := by rfl

@[simp] theorem State.inject_fixed (s : State) (d n : Nat) (p : Packet) (own : Nat) : (s.inject d n p own).fixed = s.fixed := by
  rfl

@[simp] theorem State.respond_fixed (s : State) (d n : Nat) (q : BitVec 256) (own status : Nat) (bs : List Byte) :
    (s.respond d n q own status bs).fixed = s.fixed := by
  fun_cases State.respond s d n q own status bs <;> simp

@[simp] theorem State.deliverRsp_fixed (s : State) (d n : Nat) (o : Outst) (p : Packet) :
    (s.deliverRsp d n o p).fixed = s.fixed := by
  fun_cases State.deliverRsp s d n o p <;> simp

@[simp] theorem State.release_fixed (s : State) (d n tag : Nat) : (s.release d n tag).fixed = s.fixed := by
  fun_cases State.release s d n tag <;> simp

@[simp] theorem State.admitPkt_fixed (s : State) (d n : Nat) (p : Packet) (master : Nat) (client : Option Origin) :
    (s.admitPkt d n p master client).fixed = s.fixed := by
  fun_cases State.admitPkt s d n p master client <;> simp +zetaDelta

@[simp] theorem State.toTreq_fixed (s : State) (d n : Nat) (p : Packet) : (s.toTreq d n p).fixed = s.fixed := by
  simp [State.toTreq]

@[simp] theorem State.issueRsp_fixed (s : State) (d n : Nat) (h : BitVec 256) (r : List (BitVec 256)) :
    (s.issueRsp d n h r).fixed = s.fixed := by
  fun_cases State.issueRsp s d n h r <;> simp +zetaDelta

@[simp] theorem State.loopReq_fixed (s : State) (d n : Nat) (p : Packet) : (s.loopReq d n p).fixed = s.fixed := by
  simp [State.loopReq]

@[simp] theorem execBeRequestIssue_keeps (i : NiId) (s : State) : Keeps s (execBeRequestIssue i s) := by
  fun_cases execBeRequestIssue i s <;> exact .next (by simp)

@[simp] theorem State.useOut_fixed (s : State) (d n out : Nat) : (s.useOut d n out).fixed = s.fixed := by rfl

@[simp] theorem State.crossLink_fixed (s : State) (v : Option Via) (t : Nat) : (s.crossLink v t).2.fixed = s.fixed := by
  simp only [State.crossLink]
  repeat' split
  all_goals simp

@[simp] theorem State.moveFlit_fixed (s : State) (x : BeItem) (out : Nat) : (s.moveFlit x out).fixed = s.fixed := by
  simp only [State.moveFlit]
  repeat' split
  all_goals simp

@[simp] theorem State.startHop_fixed (s : State) (x : BeItem) (out ord rsv : Nat) :
    (s.startHop x out ord rsv).fixed = s.fixed := by simp [State.startHop]

@[simp] theorem State.startPort_fixed (s : State) (p : Nat) (x : BeItem) : (s.startPort p x).fixed = s.fixed := by rfl

@[simp] theorem State.portBe_fixed (s : State) (p : Nat) : (s.portBe p).fixed = s.fixed := by
  fun_cases State.portBe s p <;> simp +zetaDelta

@[simp] theorem State.portCut_fixed (s : State) (p : Nat) : (s.portCut p).fixed = s.fixed := by simp [State.portCut]

@[simp] theorem execBeHop_keeps (i : NiId) (out : Fin 6) (vc : Fin 2) (s : State) : Keeps s (execBeHop i out vc s) := by
  fun_cases execBeHop i out vc s <;> exact .next (by simp +zetaDelta)

@[simp] theorem State.stageHop_fixed (s : State) (n vc : Nat) : (s.stageHop n vc).fixed = s.fixed := by
  fun_cases State.stageHop s n vc <;> simp

@[simp] theorem State.beTick_fixed (s : State) : s.beTick.fixed = s.fixed := by
  simp only [State.beTick]
  refine (foldl_fixed _ _ fun t e => by simp).trans ((foldl_fixed _ _ fun t e => ?_).trans (foldl_fixed _ _ fun t e => ?_))
  all_goals split <;> simp

@[simp] theorem State.answerReq_fixed (s : State) (r : MemReq) (status : Nat) (data : List Byte) :
    (s.answerReq r status data).fixed = s.fixed := by
  fun_cases State.answerReq s r status data <;> simp +zetaDelta

@[simp] theorem State.disown_fixed (s : State) (n : Nat) (gone : Origin → Bool) : (s.disown n gone).fixed = s.fixed := by rfl

@[simp] theorem State.toHubTarget_fixed (s : State) (n : Nat) (x : BeItem) : (s.toHubTarget n x).fixed = s.fixed := by
  simp [State.toHubTarget]

@[simp] theorem execBePacketArrive_keeps (i : NiId) (s : State) : Keeps s (execBePacketArrive i s) := by
  fun_cases execBePacketArrive i s <;> exact .next (by simp +zetaDelta)

@[simp] theorem execBeResponseArrive_keeps (i : NiId) (s : State) : Keeps s (execBeResponseArrive i s) := by
  fun_cases execBeResponseArrive i s <;> exact .next (by simp +zetaDelta)

@[simp] theorem State.fullTick_fixed (s : State) (d n : Nat) : (s.fullTick d n).fixed = s.fixed := by simp [State.fullTick]
@[simp] theorem State.niTick_fixed (s : State) : s.niTick.fixed = s.fixed := by simp [State.niTick]

@[simp] theorem execBeTimeout_keeps (i : NiId) (tag : BitVec 10) (s : State) : Keeps s (execBeTimeout i tag s) := by
  fun_cases execBeTimeout i tag s <;> exact .next (by simp)

@[simp] theorem spCtrlWrite_fixed (d n : Nat) (v : W32) (s : State) : (spCtrlWrite d n v s).1.fixed = s.fixed := by
  fun_cases spCtrlWrite d n v s <;> simp +zetaDelta

@[simp] theorem spRegionWrite_fixed (a d n : Nat) (v : W32) (s : State) : (spRegionWrite a d n v s).1.fixed = s.fixed := by
  fun_cases spRegionWrite a d n v s <;> simp

@[simp] theorem execSpillStart_keeps (i : NiId) (s : State) : Keeps s (execSpillStart i s) := by
  fun_cases execSpillStart i s <;> exact .next (by simp)

@[simp] theorem State.spillRequest_fixed (s : State) (d n : Nat) (addr tag own : Nat) (line : List Byte) :
    (s.spillRequest d n addr tag own line).fixed = s.fixed := by
  fun_cases State.spillRequest s d n addr tag own line <;> simp

@[simp] theorem execSpillRecordWrite_keeps (i : NiId) (s : State) : Keeps s (execSpillRecordWrite i s) := by
  fun_cases execSpillRecordWrite i s <;> exact .next (by simp +zetaDelta)

@[simp] theorem execSpillWriteResponse_keeps (i : NiId) (s : State) : Keeps s (execSpillWriteResponse i s) := by
  fun_cases execSpillWriteResponse i s <;> exact .next (by simp +zetaDelta)

@[simp] theorem State.replayDone_fixed (s : State) (d n : Nat) : (s.replayDone d n).fixed = s.fixed := by simp [State.replayDone]

@[simp] theorem execReplayReadResponse_keeps (i : NiId) (s : State) : Keeps s (execReplayReadResponse i s) := by
  fun_cases execReplayReadResponse i s
  case case7 => exact .next ((State.toTreq_fixed ..).trans (State.replayDone_fixed ..))
  all_goals exact .next (by simp +zetaDelta)

@[simp] theorem State.niDisabled_fixed (s : State) (d n : Nat) : (s.niDisabled d n).fixed = s.fixed := by simp [State.niDisabled]
@[simp] theorem State.niForce_fixed (s : State) (d n : Nat) : (s.niForce d n).fixed = s.fixed := by simp [State.niForce]

@[simp] theorem niCtrlWrite_fixed (d n : Nat) (v : W32) (s : State) : (niCtrlWrite d n v s).1.fixed = s.fixed := by
  fun_cases niCtrlWrite d n v s <;> simp +zetaDelta

@[simp] theorem niCtrlPut_fixed (m : Rm) (i : NiId) (f : W32 → W32) (s : State) : (niCtrlPut m i f s).fixed = s.fixed := by
  simp [niCtrlPut]

end Sys2Proof.Machine
end

section
/-! ### Die links and scheduled forwarding: the fuses and the queue stay as they were (R13, R25) -/

namespace Sys2Proof.Machine

@[simp] theorem State.lmErr_fixed (s : State) (b : Nat) (f : Fld) : (s.lmErr b f).fixed = s.fixed := by simp [State.lmErr]
@[simp] theorem State.lmGo_fixed (s : State) (b st : Nat) : (s.lmGo b st).fixed = s.fixed := by rfl

@[simp] theorem State.zeroCredits_fixed (s : State) (b : Nat) : (s.zeroCredits b).fixed = s.fixed := by
  refine foldl_fixed _ s fun t c => ?_
  split <;> simp

@[simp] theorem State.dropPartial_fixed (s : State) (b fromDue : Nat) : (s.dropPartial b fromDue).fixed = s.fixed := by
  simp [State.dropPartial]

@[simp] theorem State.lmDefer_fixed (s : State) (b fromDue : Nat) : (s.lmDefer b fromDue).fixed = s.fixed := by rfl

@[simp] theorem State.lmStop_fixed (s : State) (b fromDue beDue : Nat) : (s.lmStop b fromDue beDue).fixed = s.fixed := by
  simp [State.lmStop]

@[simp] theorem State.trainModule_fixed (s : State) (b fromDue beDue : Nat) :
    (s.trainModule b fromDue beDue).fixed = s.fixed := by simp [State.trainModule]

@[simp] theorem State.fullTraining_fixed (s : State) (b fromDue : Nat) : (s.fullTraining b fromDue).fixed = s.fixed := by
  simp [State.fullTraining]

@[simp] theorem State.resync_fixed (s : State) (b fromDue beDue : Nat) : (s.resync b fromDue beDue).fixed = s.fixed := by
  simp [State.resync]

@[simp] theorem State.fence_fixed (s : State) (b fromDue : Nat) : (s.fence b fromDue).fixed = s.fixed := by simp [State.fence]

@[simp] theorem State.askedRetrain_fixed (s : State) (b : Nat) : (s.askedRetrain b).fixed = s.fixed := by
  simp [State.askedRetrain]

@[simp] theorem State.frameFailed_fixed (s : State) (b : Nat) (mismatch : Bool) :
    (s.frameFailed b mismatch).fixed = s.fixed := by
  fun_cases State.frameFailed s b mismatch <;> simp +zetaDelta

@[simp] theorem State.putDue_fixed (s : State) (b due : Nat) (fl : Option (Flit × Loc × Nat)) :
    (s.putDue b due fl).fixed = s.fixed := by
  fun_cases State.putDue s b due fl <;> simp

@[simp] theorem State.collectPos_fixed (s : State) (b vc due : Nat) (fl : BitVec 256) :
    (s.collectPos b vc due fl).fixed = s.fixed := by
  fun_cases State.collectPos s b vc due fl <;> simp +zetaDelta

@[simp] theorem State.releasePos_fixed (s : State) (b : Nat) (f : LinkFrame) (j : Nat) :
    (s.releasePos b f j).fixed = s.fixed := by
  fun_cases State.releasePos s b f j <;> simp +zetaDelta

@[simp] theorem State.takeCredits_fixed (s : State) (b : Nat) (f : LinkFrame) : (s.takeCredits b f).fixed = s.fixed := by
  fun_cases State.takeCredits s b f <;> simp

@[simp] theorem State.xcTake_fixed (s : State) (b : Nat) (f : LinkFrame) : (s.xcTake b f).fixed = s.fixed := by rfl

@[simp] theorem State.frameTaken_fixed (s : State) (b : Nat) (f : LinkFrame) : (s.frameTaken b f).fixed = s.fixed := by
  simp [State.frameTaken]

@[simp] theorem State.recordWires_fixed (s : State) (b : Nat) (errors : BitVec 169) :
    (s.recordWires b errors).fixed = s.fixed := by simp [State.recordWires]

@[simp] theorem execLinkVerifyDone_keeps (l : LinkId) (errors : BitVec 169) (s : State) :
    Keeps s (execLinkVerifyDone l errors s) := by
  fun_cases execLinkVerifyDone l errors s <;> exact .next (by simp +zetaDelta)

@[simp] theorem execLinkStageTimeout_keeps (l : LinkId) (s : State) : Keeps s (execLinkStageTimeout l s) := by
  fun_cases execLinkStageTimeout l s <;> exact .next (by simp)

@[simp] theorem lmCtrlWrite_fixed (b : Nat) (v : W32) (s : State) : (lmCtrlWrite b v s).1.fixed = s.fixed := by
  fun_cases lmCtrlWrite b v s <;> simp +zetaDelta

@[simp] theorem lmCtrlPut_fixed (m : Rm) (l : LinkId) (f : W32 → W32) (s : State) : (lmCtrlPut m l f s).fixed = s.fixed := by
  simp [lmCtrlPut]

@[simp] theorem execLinkLoop_keeps (m : Rm) (l : LinkId) (depth : Fin 4) (errors : BitVec 169) (s : State) :
    Keeps s (execLinkLoop m l depth errors s) := by
  refine .ite (.next (ringPut_fixed _ _ _ _ _ fun t => ?_)) (.next rfl)
  simp only [fixed_fst_ite]
  simp

@[simp] theorem State.returnCredits_fixed (s : State) (d n inp vc : Nat) : (s.returnCredits d n inp vc).fixed = s.fixed := by rfl

@[simp] theorem execCreditResyncReturn_keeps (l : LinkId) (s : State) : Keeps s (execCreditResyncReturn l s) := by
  fun_cases execCreditResyncReturn l s <;> exact .next (by simp)

@[simp] theorem State.trainDieLinks_fixed (s : State) (d : Nat) : (s.trainDieLinks d).fixed = s.fixed := by
  simp [State.trainDieLinks]

@[simp] theorem State.loseLock_fixed (s : State) (d : Nat) : (s.loseLock d).fixed = s.fixed := by simp [State.loseLock]
@[simp] theorem State.trainAllLinks_fixed (s : State) : s.trainAllLinks.fixed = s.fixed := by simp [State.trainAllLinks]
@[simp] theorem State.send_fixed (s : State) (f : Flit) (loc : Loc) (due : Nat) : (s.send f loc due).fixed = s.fixed := by rfl

@[simp] theorem State.receiveItem_fixed (s : State) (i : Item) : (s.receiveItem i).1.fixed = s.fixed := by
  simp only [State.receiveItem]
  repeat' split
  all_goals simp

@[simp] theorem State.steer_fixed (s : State) (i : Item) : (s.steer i).1.fixed = s.fixed := by
  fun_cases State.steer s i <;> simp

@[simp] theorem State.takeOut_fixed (s : State) (i : Item) (o : Nat) : (s.takeOut i o).fixed = s.fixed := by
  fun_cases State.takeOut s i o <;> simp

@[simp] theorem State.resolve_fixed (all l : List (Item × Nat)) (s : State) : (State.resolve all l s).fixed = s.fixed := by
  induction l generalizing s with
  | nil => rfl
  | cons x r ih =>
    simp only [State.resolve]
    repeat' split
    all_goals simp [ih]

@[simp] theorem State.forwardAll_fixed (s : State) : s.forwardAll.fixed = s.fixed := by
  simp only [State.forwardAll]
  rw [State.resolve_fixed, foldl_fst_fixed _ _ fun q i => by simp, foldl_fst_fixed _ _ fun q i => by simp]
  rfl

end Sys2Proof.Machine
end

section
/-! ### Torus ports, lanes and remote management: the fuses and the queue stay as they were (R13, R25) -/

namespace Sys2Proof.Machine

@[simp] theorem State.setLane_fixed (s : State) (b j : Nat) (x : Lane) : (s.setLane b j x).fixed = s.fixed := by rfl
@[simp] theorem State.tpErr_fixed (s : State) (p : Nat) (f : Fld) : (s.tpErr p f).fixed = s.fixed := by rfl
@[simp] theorem State.showRefuse_fixed (s : State) (p : Nat) : (s.showRefuse p).fixed = s.fixed := by simp [State.showRefuse]

@[simp] theorem State.portGo_fixed (s : State) (p st cause : Nat) : (s.portGo p st cause).fixed = s.fixed := by
  simp [State.portGo]

@[simp] theorem State.portLanes_fixed (s : State) (p : Nat) (keep : W32) : (s.portLanes p keep).fixed = s.fixed := by
  simp [State.portLanes]

@[simp] theorem State.portTrain_fixed (s : State) (p : Nat) : (s.portTrain p).fixed = s.fixed := by simp [State.portTrain]
@[simp] theorem State.portDown_fixed (s : State) (p : Nat) : (s.portDown p).fixed = s.fixed := by simp [State.portDown]
@[simp] theorem State.portStage_fixed (s : State) (p st : Nat) : (s.portStage p st).fixed = s.fixed := by simp [State.portStage]
@[simp] theorem State.laneErr_fixed (s : State) (b j : Nat) : (s.laneErr b j).fixed = s.fixed := by simp [State.laneErr]
@[simp] theorem State.laneTick_fixed (s : State) (p : Nat) : (s.laneTick p).fixed = s.fixed := by simp [State.laneTick]

@[simp] theorem State.checkAligned_fixed (s : State) (p : Nat) : (s.checkAligned p).fixed = s.fixed := by
  simp [State.checkAligned]

@[simp] theorem State.slip_fixed (s : State) (b j : Nat) : (s.slip b j).fixed = s.fixed := by rfl

@[simp] theorem lnAlignWrite_fixed (d q j : Nat) (v : W32) (s : State) : (lnAlignWrite d q j v s).1.fixed = s.fixed := by
  simp [lnAlignWrite]

@[simp] theorem lnCtrlWrite_fixed (d q j : Nat) (v : W32) (s : State) : (lnCtrlWrite d q j v s).1.fixed = s.fixed := by
  simp only [lnCtrlWrite]
  repeat' split
  all_goals simp

@[simp] theorem lnTapWrite_fixed (d q j : Nat) (v : W32) (s : State) : (lnTapWrite d q j v s).1.fixed = s.fixed := by
  fun_cases lnTapWrite d q j v s <;> simp

@[simp] theorem State.portLaneFault_fixed (s : State) (p i : Nat) : (s.portLaneFault p i).fixed = s.fixed := by
  simp [State.portLaneFault]

@[simp] theorem State.judgeLanes_fixed (s : State) (p : Nat) : (s.judgeLanes p).fixed = s.fixed := by simp [State.judgeLanes]

@[simp] theorem execLaneFault_keeps (x : LaneTrouble) (s : State) : Keeps s (execLaneFault x s) := by
  fun_cases execLaneFault x s <;> exact .next (by simp +zetaDelta)

@[simp] theorem State.enterHalf_fixed (s : State) (p : Nat) : (s.enterHalf p).fixed = s.fixed := by simp [State.enterHalf]

@[simp] theorem execHalfWidthSwitch_keeps (p : Fin 6) (s : State) : Keeps s (execHalfWidthSwitch p s) := by
  fun_cases execHalfWidthSwitch p s <;> exact .next (by simp)

@[simp] theorem execAlignmentMarkerReceive_keeps (p : Fin 6) (arrive : List (Option Nat)) (s : State) :
    Keeps s (execAlignmentMarkerReceive p arrive s) := by
  fun_cases execAlignmentMarkerReceive p arrive s <;> exact .next (by simp +zetaDelta)

@[simp] theorem State.posErrs_fixed (s : State) (p : Nat) (errs : BitVec 32) : (s.posErrs p errs).fixed = s.fixed := by
  simp [State.posErrs]

@[simp] theorem execPortStageTimeout_keeps (p : Fin 6) (s : State) : Keeps s (execPortStageTimeout p s) := by
  fun_cases execPortStageTimeout p s <;> exact .next (by simp +zetaDelta)

@[simp] theorem execPortTrainRestart_keeps (p : Fin 6) (s : State) : Keeps s (execPortTrainRestart p s) := by
  fun_cases execPortTrainRestart p s <;> exact .next (by simp)

@[simp] theorem State.sendExchange_fixed (s : State) (p : Nat) : (s.sendExchange p).fixed = s.fixed := by
  simp [State.sendExchange]

@[simp] theorem State.portVerify_fixed (s : State) (p : Nat) : (s.portVerify p).fixed = s.fixed := by simp [State.portVerify]

@[simp] theorem execExchangeComplete_keeps (p : Fin 6) (s : State) : Keeps s (execExchangeComplete p s) := by
  fun_cases execExchangeComplete p s <;> exact .next (by simp +zetaDelta)

@[simp] theorem State.enterSched_fixed (s : State) (p : Nat) : (s.enterSched p).fixed = s.fixed := by simp [State.enterSched]
@[simp] theorem State.portJudge_fixed (s : State) (p : Nat) : (s.portJudge p).fixed = s.fixed := by simp [State.portJudge]
@[simp] theorem State.portDrained_fixed (s : State) (p : Nat) : (s.portDrained p).fixed = s.fixed := by simp [State.portDrained]
@[simp] theorem State.portForce_fixed (s : State) (p : Nat) : (s.portForce p).fixed = s.fixed := by simp [State.portForce]
@[simp] theorem State.portDisTick_fixed (s : State) (p : Nat) : (s.portDisTick p).fixed = s.fixed := by simp [State.portDisTick]

@[simp] theorem execLeaveSched_keeps (p : Fin 6) (s : State) : Keeps s (execLeaveSched p s) := by
  fun_cases execLeaveSched p s <;> exact .next (by simp)

@[simp] theorem State.takeHalf_fixed (s : State) (p kind : Nat) (half : BitVec 60) :
    (s.takeHalf p kind half).fixed = s.fixed := by
  fun_cases State.takeHalf s p kind half <;> simp +zetaDelta

@[simp] theorem State.takeControl_fixed (s : State) (p : Nat) (c : BitVec 256) : (s.takeControl p c).fixed = s.fixed := by
  fun_cases State.takeControl s p c <;> simp +zetaDelta

@[simp] theorem execControlPositionReceive_keeps (p : Fin 6) (content : BitVec 256) (errs : BitVec 32) (s : State) :
    Keeps s (execControlPositionReceive p content errs s) := by
  fun_cases execControlPositionReceive p content errs s <;> exact .next (by simp +zetaDelta)

@[simp] theorem State.kmLinkErr_fixed (s : State) (f : Fld) : (s.kmLinkErr f).fixed = s.fixed := by simp [State.kmLinkErr]

@[simp] theorem State.takeScheduled_fixed (s : State) (p idx : Nat) (x : PortRx) :
    (s.takeScheduled p idx x).fixed = s.fixed := by
  simp [State.takeScheduled]

@[simp] theorem State.takePacket_fixed (s : State) (p : Nat) (fl : List (BitVec 256)) :
    (s.takePacket p fl).fixed = s.fixed := by
  fun_cases State.takePacket s p fl <;> simp

@[simp] theorem State.takeBestEffort_fixed (s : State) (p : Nat) (start : Bool) (x : PortRx) :
    (s.takeBestEffort p start x).fixed = s.fixed := by simp [State.takeBestEffort]

@[simp] theorem State.takeStream_fixed (s : State) (p : Nat) (x : PortRx) : (s.takeStream p x).fixed = s.fixed := by
  simp [State.takeStream]

@[simp] theorem execPortPositionReceive_keeps (p : Fin 6) (pos : PortRx) (s : State) :
    Keeps s (execPortPositionReceive p pos s) := by
  fun_cases execPortPositionReceive p pos s <;> exact .next (by simp +zetaDelta)

@[simp] theorem State.portWake_fixed (s : State) (p : Nat) : (s.portWake p).fixed = s.fixed := by simp [State.portWake]

@[simp] theorem State.wakeTick_fixed (s : State) (p : Nat) : (s.wakeTick p).fixed = s.fixed := by
  fun_cases State.wakeTick s p <;> simp +zetaDelta

@[simp] theorem State.sendMarker_fixed (s : State) (p u cause : Nat) : (s.sendMarker p u cause).fixed = s.fixed := by rfl

@[simp] theorem State.admitFlit_fixed (s : State) (p : Nat) (i : Item) : (s.admitFlit p i).fixed = s.fixed := by
  fun_cases State.admitFlit s p i <;> simp +zetaDelta

@[simp] theorem State.lateMarker_fixed (s : State) (p : Nat) : (s.lateMarker p).fixed = s.fixed := by
  fun_cases State.lateMarker s p <;> simp

@[simp] theorem State.portFrame_fixed (s : State) (p : Nat) : (s.portFrame p).fixed = s.fixed := by simp [State.portFrame]
@[simp] theorem State.portTick_fixed (s : State) (p : Nat) : (s.portTick p).fixed = s.fixed := by simp [State.portTick]

@[simp] theorem State.portApply_fixed (s : State) (p : Nat) (old v : W32) : (s.portApply p old v).fixed = s.fixed := by
  simp [State.portApply]

@[simp] theorem tpCtrlWrite_fixed (p : Nat) (v : W32) (s : State) : (tpCtrlWrite p v s).1.fixed = s.fixed := by
  fun_cases tpCtrlWrite p v s <;> simp

@[simp] theorem tpCtrlPut_fixed (m : Rm) (p : Nat) (f : W32 → W32) (s : State) : (tpCtrlPut m p f s).fixed = s.fixed := by
  simp [tpCtrlPut]

@[simp] theorem execPortActive_keeps (m : Option Rm) (p : Fin 6) (s : State) : Keeps s (execPortActive m p s) := by
  fun_cases execPortActive m p s <;> exact .next (by simp)

@[simp] theorem execQuietEnter_keeps (p : Fin 6) (s : State) : Keeps s (execQuietEnter p s) := by
  fun_cases execQuietEnter p s <;> exact .next (by simp +zetaDelta)

@[simp] theorem tpLbWrite_fixed (p : Nat) (v : W32) (s : State) : (tpLbWrite p v s).1.fixed = s.fixed := by
  fun_cases tpLbWrite p v s <;> simp

@[simp] theorem State.sendRemote_fixed (s : State) (r : Remote) : (s.sendRemote r).fixed = s.fixed := by
  fun_cases State.sendRemote s r <;> simp

@[simp] theorem State.setGw_fixed (s : State) (g : Nat) (x : Gw) : (s.setGw g x).fixed = s.fixed := by rfl

@[simp] theorem rgCtrlWrite_fixed (g : Nat) (v : W32) (s : State) : (rgCtrlWrite g v s).1.fixed = s.fixed := by
  fun_cases rgCtrlWrite g v s <;> simp +zetaDelta

@[simp] theorem gwOp_fixed (m : Rm) (op : Nat) (s : State) : (gwOp m op s).fixed = s.fixed := by simp [gwOp]

@[simp] theorem State.gwAnswer_fixed (s : State) (r : Remote) : (s.gwAnswer r).fixed = s.fixed := by
  fun_cases State.gwAnswer s r <;> simp +zetaDelta

@[simp] theorem tpCfgCtrlWrite_fixed (p : Nat) (v : W32) (s : State) : (tpCfgCtrlWrite p v s).1.fixed = s.fixed := by
  fun_cases tpCfgCtrlWrite p v s <;> simp +zetaDelta

@[simp] theorem State.streamAnswer_fixed (s : State) (p : Nat) : (s.streamAnswer p).fixed = s.fixed := by
  fun_cases State.streamAnswer s p <;> simp +zetaDelta

@[simp] theorem State.streamAsk_fixed (s : State) (p : Nat) : (s.streamAsk p).fixed = s.fixed := by simp [State.streamAsk]
@[simp] theorem State.streamSend_fixed (s : State) (p : Nat) : (s.streamSend p).fixed = s.fixed := by simp [State.streamSend]
@[simp] theorem State.streamTick_fixed (s : State) (p : Nat) : (s.streamTick p).fixed = s.fixed := by simp [State.streamTick]

@[simp] theorem execStreamSendEnd_keeps (p : Fin 6) (s : State) : Keeps s (execStreamSendEnd p s) := by
  fun_cases execStreamSendEnd p s <;> exact .next (by simp)

end Sys2Proof.Machine
end

section
/-! ### The logic fabric and its configuration: the fuses and the queue stay as they were (R13, R25) -/

namespace Sys2Proof.Machine

@[simp] theorem State.niHold_fixed (s : State) (d i : Nat) : (s.niHold d i).fixed = s.fixed := by rfl
@[simp] theorem State.niRelease_fixed (s : State) (d i : Nat) : (s.niRelease d i).fixed = s.fixed := by rfl
@[simp] theorem State.holdEvents_fixed (s : State) (d : Nat) : (s.holdEvents d).fixed = s.fixed := by simp [State.holdEvents]
@[simp] theorem State.holdRegion_fixed (s : State) (d n : Nat) : (s.holdRegion d n).fixed = s.fixed := by simp [State.holdRegion]

@[simp] theorem State.startRelease_fixed (s : State) (d n : Nat) : (s.startRelease d n).fixed = s.fixed := by
  simp [State.startRelease]

@[simp] theorem State.releaseRegion_fixed (s : State) (d n : Nat) : (s.releaseRegion d n).fixed = s.fixed := by
  simp [State.releaseRegion]

@[simp] theorem brHoldWrite_fixed (d : Nat) (v : W32) (s : State) : (brHoldWrite d v s).1.fixed = s.fixed := by simp [brHoldWrite]

@[simp] theorem brReleaseWrite_fixed (d : Nat) (v : W32) (s : State) : (brReleaseWrite d v s).1.fixed = s.fixed := by
  simp [brReleaseWrite]

@[simp] theorem execRegionGateRelease_keeps (d : Fin 6) (n : Fin 16) (s : State) : Keeps s (execRegionGateRelease d n s) := by
  fun_cases execRegionGateRelease d n s <;> exact .next (by simp)

@[simp] theorem execRegionReleaseComplete_keeps (d : Fin 6) (n : Fin 16) (s : State) :
    Keeps s (execRegionReleaseComplete d n s) := by
  fun_cases execRegionReleaseComplete d n s <;> exact .next (by simp +zetaDelta)

@[simp] theorem brRgnWrite_fixed (d n : Nat) (v : W32) (s : State) : (brRgnWrite d n v s).1.fixed = s.fixed := by
  fun_cases brRgnWrite d n v s <;> simp

@[simp] theorem State.putFrame_fixed (s : State) (k : Nat) (b : BitVec 4096) (c : BitVec 14) :
    (s.putFrame k b c).fixed = s.fixed := by rfl

@[simp] theorem State.putMap_fixed (s : State) (d f : Nat) (w : BitVec 128) : (s.putMap d f w).fixed = s.fixed := by rfl
@[simp] theorem State.clearFrames_fixed (s : State) (d : Nat) : (s.clearFrames d).fixed = s.fixed := by rfl
@[simp] theorem State.setDie_fixed (s : State) (d v : Nat) : (s.setDie d v).fixed = s.fixed := by rfl
@[simp] theorem State.setCfgState_fixed (s : State) (v : Nat) : (s.setCfgState v).fixed = s.fixed := by rfl
@[simp] theorem State.flushPort_fixed (s : State) (p : Nat) : (s.flushPort p).fixed = s.fixed := by simp [State.flushPort]
@[simp] theorem State.dropUnsynced_fixed (s : State) : s.dropUnsynced.fixed = s.fixed := by simp [State.dropUnsynced]
@[simp] theorem State.endStream_fixed (s : State) (st : Nat) : (s.endStream st).fixed = s.fixed := by simp [State.endStream]
@[simp] theorem State.cfgFail_fixed (s : State) (cause : Nat) : (s.cfgFail cause).fixed = s.fixed := by simp [State.cfgFail]

theorem State.takeWords_fixed {s t : State} {c : CfgSrc} {ws : List W32} {bad : Bool} (h : s.takeWords c ws = some (t, bad)) :
    t.fixed = s.fixed := by
  simp only [State.takeWords] at h
  repeat' split at h
  all_goals cases h
  all_goals simp

@[simp] theorem State.acceptWords_fixed (s : State) (ws : List W32) : (s.acceptWords ws).fixed = s.fixed := by rfl

@[simp] theorem State.frameDataWord_fixed (s : State) (w : W32) : (s.frameDataWord w).fixed = s.fixed := by
  fun_cases State.frameDataWord s w <;> simp +zetaDelta

@[simp] theorem State.mapDataWord_fixed (s : State) (w : W32) : (s.mapDataWord w).fixed = s.fixed := by
  fun_cases State.mapDataWord s w <;> simp +zetaDelta

@[simp] theorem State.dataWords_fixed (s : State) (ws : List W32) : (s.dataWords ws).fixed = s.fixed := by simp [State.dataWords]
@[simp] theorem State.unclean_fixed (s : State) : s.unclean.fixed = s.fixed := by rfl

@[simp] theorem State.fixStart_fixed (s : State) : s.fixStart.fixed = s.fixed := by
  simp only [State.fixStart]
  split
  · rfl
  · exact foldl_fixed _ s fun _ _ => rfl

@[simp] theorem State.startDies_fixed (s : State) : s.startDies.fixed = s.fixed := by simp [State.startDies]

@[simp] theorem State.streamCmd_fixed (s : State) (k : OpKind) : (s.streamCmd k).fixed = s.fixed := by
  fun_cases State.streamCmd s k <;> simp +zetaDelta

@[simp] theorem State.performOp_fixed (s : State) (ws : List W32) (op : StreamOp) : (s.performOp ws op).fixed = s.fixed := by
  fun_cases State.performOp s ws op <;> simp +zetaDelta

@[simp] theorem State.cfgTick_fixed (s : State) : s.cfgTick.fixed = s.fixed := by simp [State.cfgTick]

@[simp] theorem streamWords_fixed (k : OpKind) (c : CfgSrc) (ws : List W32) (s : State) :
    (streamWords k c ws s).fixed = s.fixed := by
  fun_cases streamWords k c ws s
  case case8 | case9 | case10 | case11 => simpa +zetaDelta using State.takeWords_fixed ‹_›
  all_goals simp

@[simp] theorem execFrameEngineWriteDone_keeps (d : Fin 8) (s : State) : Keeps s (execFrameEngineWriteDone d s) := by
  fun_cases execFrameEngineWriteDone d s <;> exact .next (by simp +zetaDelta)

@[simp] theorem cfgSdataWrite_fixed (v : W32) (s : State) : (cfgSdataWrite v s).1.fixed = s.fixed := by
  fun_cases cfgSdataWrite v s <;> simp +zetaDelta

theorem State.takeSync_fixed {s t : State} {c : CfgSrc} (h : s.takeSync c = some t) : t.fixed = s.fixed := by
  simp only [State.takeSync] at h
  repeat' split at h
  all_goals cases h
  all_goals simp

@[simp] theorem execSyncWord_keeps (c : CfgSrc) (s : State) : Keeps s (execSyncWord c s) := by
  refine .ite (.next rfl) ?_
  split
  · exact .next rfl
  · next t h => exact .next (by simp [State.takeSync_fixed h])

@[simp] theorem State.setStage_fixed (s : State) (d v : Nat) : (s.setStage d v).fixed = s.fixed := by rfl

@[simp] theorem execStartupBegin_keeps (s : State) : Keeps s (execStartupBegin s) := by
  refine .ite (.next (foldl_fixed _ _ fun t d => ?_)) (.next rfl)
  split <;> simp

@[simp] theorem execStartupStage_keeps (s : State) : Keeps s (execStartupStage s) := by
  refine .ite (.next (foldl_fixed _ _ fun t d => ?_)) (.next rfl)
  split <;> simp

@[simp] theorem State.checkDone_fixed (s : State) : s.checkDone.fixed = s.fixed := by simp [State.checkDone]

@[simp] theorem execStartupRunning_keeps (s : State) : Keeps s (execStartupRunning s) := by
  refine .ite (.next ((State.checkDone_fixed _).trans (foldl_fixed _ _ fun t d => ?_))) (.next rfl)
  split
  · split <;> simp
  · rfl

@[simp] theorem State.setUpsets_fixed (s : State) (d : Nat) (l : List UpsetRec) : (s.setUpsets d l).fixed = s.fixed := by rfl

@[simp] theorem State.logUpset_fixed (s : State) (d : Nat) (r : UpsetRec) : (s.logUpset d r).fixed = s.fixed := by
  simp [State.logUpset]

@[simp] theorem State.handleUpset_fixed (s : State) (d f k : Nat) (o : FrameOutcome) :
    (s.handleUpset d f k o).fixed = s.fixed := by
  fun_cases State.handleUpset s d f k o <;> simp +zetaDelta

@[simp] theorem State.flipBits_fixed (s : State) (k : Nat) (flips : List Nat) : (s.flipBits k flips).fixed = s.fixed := by
  simp [State.flipBits]

@[simp] theorem feLogPopWrite_fixed (d : Nat) (s : State) : (feLogPopWrite d s).1.fixed = s.fixed := by rfl

@[simp] theorem feLogStatWrite_fixed (d : Nat) (v : W32) (s : State) : (feLogStatWrite d v s).1.fixed = s.fixed := by
  simp [feLogStatWrite]

@[simp] theorem feRbDataRead_fixed (m : Rm) (d : Nat) (s : State) : (feRbDataRead m d s).1.fixed = s.fixed := by
  fun_cases feRbDataRead m d s <;> simp

@[simp] theorem State.takeCapture_fixed (s : State) (d : Nat) : (s.takeCapture d).fixed = s.fixed := by rfl

@[simp] theorem feRbCtrlWrite_fixed (d : Nat) (v : W32) (s : State) : (feRbCtrlWrite d v s).1.fixed = s.fixed := by
  fun_cases feRbCtrlWrite d v s <;> simp +zetaDelta

end Sys2Proof.Machine
end

section
/-! ### The Thrumas cores and their debug: the fuses and the queue stay as they were (R13, R25) -/

namespace Sys2Proof.Machine

@[simp] theorem State.setThr_fixed (s : State) (n : Nat) (x : Thrumas) : (s.setThr n x).fixed = s.fixed := by rfl
@[simp] theorem State.setCoreState_fixed (s : State) (n v : Nat) : (s.setCoreState n v).fixed = s.fixed := by rfl

@[simp] theorem State.coreFlag_fixed (s : State) (n : Nat) (f : Fld) : (s.coreFlag n f).fixed = s.fixed := by
  simp [State.coreFlag]

@[simp] theorem State.landSpecial_fixed (s : State) (n num : Nat) (v : W32) : (s.landSpecial n num v).fixed = s.fixed := by
  fun_cases State.landSpecial s n num v <;> simp +zetaDelta

@[simp] theorem State.land_fixed (s : State) (n : Nat) (l : Landing) : (s.land n l).fixed = s.fixed := by
  fun_cases State.land s n l <;> simp

@[simp] theorem State.landUpTo_fixed (s : State) (n cyc : Nat) : (s.landUpTo n cyc).fixed = s.fixed := by simp [State.landUpTo]
@[simp] theorem State.drain_fixed (s : State) (n : Nat) : (s.drain n).fixed = s.fixed := by simp [State.drain]
@[simp] theorem State.stopCore_fixed (s : State) (n : Nat) : (s.stopCore n).fixed = s.fixed := by simp [State.stopCore]
@[simp] theorem State.endCycle_fixed (s : State) (n : Nat) : (s.endCycle n).fixed = s.fixed := by simp [State.endCycle]
@[simp] theorem State.slotDone_fixed (s : State) (n slot : Nat) : (s.slotDone n slot).fixed = s.fixed := by simp [State.slotDone]
@[simp] theorem State.result_fixed (s : State) (n slot k : Nat) (l : Landing) : (s.result n slot k l).fixed = s.fixed := by rfl

@[simp] theorem State.resultReg_fixed (s : State) (n slot k r : Nat) (v : W32) :
    (s.resultReg n slot k r v).fixed = s.fixed := by
  rfl

/-- An operation of a core acts where its cycle issues it, and then ends its slot. -/
theorem coreOp_keeps {op : Nat} {c : Fin 8} {slot : Fin 4} {w : W32} {eff : State → State} {s : State}
    (h : ∀ t, (eff t).fixed = t.fixed) : Keeps s (coreOp op c slot w eff s) :=
  .ite (.next (by simp [h])) (.next rfl)

@[simp] theorem State.coreFault_fixed (s : State) (n cause : Nat) : (s.coreFault n cause).fixed = s.fixed := by
  simp [State.coreFault]

@[simp] theorem execIllegalOperation_keeps (c : Fin 8) (s : State) : Keeps s (execIllegalOperation c s) := by
  fun_cases execIllegalOperation c s <;> exact .next (by simp)

@[simp] theorem effR_fixed (n slot : Nat) (w : W32) (f : W32 → W32 → W32) (s : State) :
    (effR n slot w f s).fixed = s.fixed := by
  rfl

@[simp] theorem effI_fixed (n slot : Nat) (w : W32) (f : W32 → W32 → W32) (s : State) :
    (effI n slot w f s).fixed = s.fixed := by
  rfl

@[simp] theorem effC_fixed (n slot : Nat) (w b : W32) (s : State) : (effC n slot w b s).fixed = s.fixed := by rfl

@[simp] theorem State.watchAccess_fixed (s : State) (n slot a : Nat) (store : Bool) :
    (s.watchAccess n slot a store).fixed = s.fixed := by
  fun_cases State.watchAccess s n slot a store <;> simp

@[simp] theorem effLoad_fixed (n slot size : Nat) (signed : Bool) (a : Nat) (w : W32) (s : State) :
    (effLoad n slot size signed a w s).fixed = s.fixed := by simp [effLoad]

@[simp] theorem effStore_fixed (n slot size a : Nat) (v : W32) (s : State) : (effStore n slot size a v s).fixed = s.fixed := by
  simp [effStore]

@[simp] theorem effPost_fixed (n slot : Nat) (w : W32) (s : State) : (effPost n slot w s).fixed = s.fixed := by rfl

@[simp] theorem effMac_fixed (n slot : Nat) (w : W32) (acc pair : Bool) (s : State) :
    (effMac n slot w acc pair s).fixed = s.fixed := by simp [effMac]

@[simp] theorem effAccrd_fixed (n slot : Nat) (w : W32) (s : State) : (effAccrd n slot w s).fixed = s.fixed := by simp [effAccrd]
@[simp] theorem effAccwr_fixed (n : Nat) (w : W32) (s : State) : (effAccwr n w s).fixed = s.fixed := by rfl
@[simp] theorem effAccclr_fixed (n : Nat) (w : W32) (s : State) : (effAccclr n w s).fixed = s.fixed := by rfl
@[simp] theorem effMuls_fixed (n slot : Nat) (w : W32) (s : State) : (effMuls n slot w s).fixed = s.fixed := by rfl

@[simp] theorem effBranch_fixed (n : Nat) (w : W32) (reti : Bool) (s : State) : (effBranch n w reti s).fixed = s.fixed := by
  fun_cases effBranch n w reti s <;> simp

@[simp] theorem effCall_fixed (n slot : Nat) (w : W32) (s : State) : (effCall n slot w s).fixed = s.fixed := by simp [effCall]
@[simp] theorem effRep_fixed (n : Nat) (w : W32) (s : State) : (effRep n w s).fixed = s.fixed := by rfl
@[simp] theorem effMfs_fixed (n slot : Nat) (w : W32) (s : State) : (effMfs n slot w s).fixed = s.fixed := by simp [effMfs]
@[simp] theorem effSendAt_fixed (n : Nat) (w : W32) (s : State) : (effSendAt n w s).fixed = s.fixed := by simp [effSendAt]

@[simp] theorem State.xferEnd_fixed (s : State) (n tag : Nat) (bad : Bool) : (s.xferEnd n tag bad).fixed = s.fixed := by
  simp [State.xferEnd]

@[simp] theorem effXfer_fixed (n : Nat) (w : W32) (write : Bool) (s : State) : (effXfer n w write s).fixed = s.fixed := by
  simp [effXfer]

@[simp] theorem waitOperand_fixed (n : Nat) (w : W32) (s : State) : (waitOperand n w s).2.fixed = s.fixed := by
  simp only [waitOperand]
  repeat' split
  all_goals simp

@[simp] theorem execWaitOp_keeps (c : Fin 8) (slot : Fin 4) (w : W32) (s : State) : Keeps s (execWaitOp c slot w s) := by
  simp only [execWaitOp]
  repeat' split
  all_goals exact .next (by simp)

@[simp] theorem execWaitConditionMet_keeps (c : Fin 8) (s : State) : Keeps s (execWaitConditionMet c s) := by
  fun_cases execWaitConditionMet c s <;> exact .next (by simp)

@[simp] theorem execBkpt_keeps (c : Fin 8) (slot : Fin 4) (w : W32) (s : State) : Keeps s (execBkpt c slot w s) :=
  .ite (.next (by simp)) (coreOp_keeps fun _ => rfl)

@[simp] theorem State.takeInterrupt_fixed (s : State) (n level e : Nat) : (s.takeInterrupt n level e).fixed = s.fixed := by
  simp [State.takeInterrupt]

@[simp] theorem execInterruptTake_keeps (c : Fin 8) (s : State) : Keeps s (execInterruptTake c s) := by
  fun_cases execInterruptTake c s <;> exact .next (by simp)

@[simp] theorem State.dmWrite_fixed (s : State) (n a : Nat) (l : List Byte) : (s.dmWrite n a l).fixed = s.fixed := by
  induction l generalizing s a with
  | nil => rfl
  | cons b r ih => simp [State.dmWrite, ih]

@[simp] theorem execXferComplete_keeps (c : Fin 8) (tag : Fin 16) (s : State) : Keeps s (execXferComplete c tag s) := by
  fun_cases execXferComplete c tag s <;> exact .next (by simp +zetaDelta)

@[simp] theorem execRxRingWrite_keeps (c : Fin 8) (s : State) : Keeps s (execRxRingWrite c s) := by
  fun_cases execRxRingWrite c s <;> exact .next (by simp +zetaDelta)

@[simp] theorem State.abandonXfers_fixed (s : State) (n : Nat) : (s.abandonXfers n).fixed = s.fixed := by rfl
@[simp] theorem State.dbgLost_fixed (s : State) (i : Nat) : (s.dbgLost i).fixed = s.fixed := by simp [State.dbgLost]
@[simp] theorem State.tearDown_fixed (s : State) (n : Nat) : (s.tearDown n).fixed = s.fixed := by rfl
@[simp] theorem State.zeroCore_fixed (s : State) (n : Nat) : (s.zeroCore n).fixed = s.fixed := by rfl
@[simp] theorem State.coreReset_fixed (s : State) (n : Nat) : (s.coreReset n).fixed = s.fixed := by simp [State.coreReset]

@[simp] theorem coreCtrlWrite_fixed (n : Nat) (v : W32) (s : State) : (coreCtrlWrite n v s).1.fixed = s.fixed := by
  fun_cases coreCtrlWrite n v s <;> simp +zetaDelta

@[simp] theorem State.watchdogAct_fixed (s : State) (n : Nat) : (s.watchdogAct n).fixed = s.fixed := by
  fun_cases State.watchdogAct s n <;> simp +zetaDelta

@[simp] theorem State.watchdogTick_fixed (s : State) (n k : Nat) : (s.watchdogTick n k).fixed = s.fixed := by
  simp [State.watchdogTick]

@[simp] theorem State.imAdvance_fixed (s : State) (n : Nat) : (s.imAdvance n).fixed = s.fixed := by simp [State.imAdvance]

@[simp] theorem imDataWrite_fixed (n : Nat) (v : W32) (s : State) : (imDataWrite n v s).1.fixed = s.fixed := by
  fun_cases imDataWrite n v s <;> simp +zetaDelta

@[simp] theorem imDataRead_fixed (n k : Nat) (s : State) : (imDataRead n k s).1.fixed = s.fixed := by
  simp only [imDataRead]
  repeat' split
  all_goals simp

@[simp] theorem State.dmAdvance_fixed (s : State) (n : Nat) : (s.dmAdvance n).fixed = s.fixed := by simp [State.dmAdvance]
@[simp] theorem dmDataWrite_fixed (n : Nat) (v : W32) (s : State) : (dmDataWrite n v s).1.fixed = s.fixed := by simp [dmDataWrite]
@[simp] theorem dmDataRead_fixed (n : Nat) (s : State) : (dmDataRead n s).1.fixed = s.fixed := by simp [dmDataRead]

@[simp] theorem execDmDataAccess_keeps (m : Rm) (c : Fin 8) (v : Option W32) (s : State) :
    Keeps s (execDmDataAccess m c v s) := by
  fun_cases execDmDataAccess m c v s <;> exact .next (by simp)

@[simp] theorem State.requestHalt_fixed (s : State) (n reason : Nat) : (s.requestHalt n reason).fixed = s.fixed := by
  simp [State.requestHalt]

@[simp] theorem State.haltGroup_fixed (s : State) (n : Nat) : (s.haltGroup n).fixed = s.fixed := by simp [State.haltGroup]

@[simp] theorem State.haltCore_fixed (s : State) (n reason : Nat) : (s.haltCore n reason).fixed = s.fixed := by
  simp [State.haltCore]

@[simp] theorem execHaltTaken_keeps (c : Fin 8) (s : State) : Keeps s (execHaltTaken c s) := by
  fun_cases execHaltTaken c s <;> exact .next (by simp)

@[simp] theorem State.releaseCore_fixed (s : State) (n : Nat) (step : Bool) : (s.releaseCore n step).fixed = s.fixed := by
  simp [State.releaseCore]

@[simp] theorem runctlWrite_fixed (v : W32) (s : State) : (runctlWrite v s).1.fixed = s.fixed := by simp [runctlWrite]

@[simp] theorem dbgOnly_fixed (m : Rm) (f : State → Answer) (s : State) (hf : ∀ t, (f t).1.fixed = t.fixed) :
    (dbgOnly m f s).1.fixed = s.fixed := by
  fun_cases dbgOnly m f s <;> simp_all

@[simp] theorem runctlPut_fixed (m : Rm) (v : W32) (s : State) : (runctlPut m v s).fixed = s.fixed := by simp [runctlPut]

@[simp] theorem execBreakpointMatch_keeps (c : Fin 8) (s : State) : Keeps s (execBreakpointMatch c s) := by
  fun_cases execBreakpointMatch c s <;> exact .next (by simp +zetaDelta)

@[simp] theorem execDataWatchMatch_keeps (c : Fin 8) (s : State) : Keeps s (execDataWatchMatch c s) := by
  fun_cases execDataWatchMatch c s <;> exact .next (by simp +zetaDelta)

@[simp] theorem State.setDbgItem_fixed (s : State) (n i : Nat) (v : W32) : (s.setDbgItem n i v).fixed = s.fixed := by
  simp [State.setDbgItem]

@[simp] theorem State.dbgAdvance_fixed (s : State) (n : Nat) : (s.dbgAdvance n).fixed = s.fixed := by simp [State.dbgAdvance]

@[simp] theorem dbgRegRead_fixed (n : Nat) (s : State) : (dbgRegRead n s).1.fixed = s.fixed := by
  fun_cases dbgRegRead n s <;> simp

@[simp] theorem dbgRegWrite_fixed (n : Nat) (v : W32) (s : State) : (dbgRegWrite n v s).1.fixed = s.fixed := by
  fun_cases dbgRegWrite n v s <;> simp

@[simp] theorem execDbgRegAccess_keeps (m : Rm) (c : Fin 8) (v : Option W32) (s : State) :
    Keeps s (execDbgRegAccess m c v s) := by
  fun_cases execDbgRegAccess m c v s <;> exact .next (by simp)

@[simp] theorem dbgTxWrite_fixed (m : Rm) (v : W32) (s : State) : (dbgTxWrite m v s).1.fixed = s.fixed := by
  fun_cases dbgTxWrite m v s <;> simp

@[simp] theorem dbgRxWrite_fixed (m : Rm) (v : W32) (s : State) : (dbgRxWrite m v s).1.fixed = s.fixed := by
  fun_cases dbgRxWrite m v s <;> simp

@[simp] theorem termStatWrite_fixed (m : Rm) (v : W32) (s : State) : (termStatWrite m v s).1.fixed = s.fixed := by
  fun_cases termStatWrite m v s <;> simp +zetaDelta

end Sys2Proof.Machine
end

section
/-! ### Memory banks, QDR pairs and DRAM sets: the fuses and the queue stay as they were (R13, R25) -/

namespace Sys2Proof.Machine

@[simp] theorem State.ownershipFault_fixed (s : State) (bank : Nat) (r : MemReq) :
    (s.ownershipFault bank r).fixed = s.fixed := by
  simp [State.ownershipFault]

@[simp] theorem State.bankStore_fixed (s : State) (a : Nat) (bs : List Byte) : (s.bankStore a bs).fixed = s.fixed := by
  simp [State.bankStore]

@[simp] theorem State.parityFails_fixed (s : State) (a : Nat) : (s.parityFails a).fixed = s.fixed := by simp [State.parityFails]

@[simp] theorem State.bankPerform_fixed (s : State) (bank : Nat) (r : MemReq) : (s.bankPerform bank r).1.fixed = s.fixed := by
  fun_cases State.bankPerform s bank r <;> simp

@[simp] theorem State.bankTake_fixed (s : State) (portA : Bool) (bank : Nat) (r : MemReq) :
    (s.bankTake portA bank r).fixed = s.fixed := by
  fun_cases State.bankTake s portA bank r <;> simp +zetaDelta

@[simp] theorem State.bankServe_fixed (s : State) (bank : Nat) (r : MemReq) : (s.bankServe bank r).fixed = s.fixed := by
  simp [State.bankServe]

@[simp] theorem State.bankBoth_fixed (s : State) (bank : Nat) (a b : MemReq) : (s.bankBoth bank a b).fixed = s.fixed := by
  simp [State.bankBoth]

@[simp] theorem execBankRequest_keeps (portA : Bool) (bank : Fin 64) (bad : Option (Fin 8192)) (s : State) :
    Keeps s (execBankRequest portA bank bad s) := by
  simp only [execBankRequest]
  repeat' split
  all_goals exact .next (by simp)

@[simp] theorem bankOwnerWrite_fixed (m : Rm) (bank : Nat) (v : W32) (s : State) :
    (bankOwnerWrite m bank v s).1.fixed = s.fixed := by
  fun_cases bankOwnerWrite m bank v s <;> simp

@[simp] theorem ccSelWrite_fixed (k : Nat) (v : W32) (s : State) : (ccSelWrite k v s).1.fixed = s.fixed := by simp [ccSelWrite]
@[simp] theorem State.ccTick_fixed (s : State) (c k : Nat) : (s.ccTick c k).fixed = s.fixed := by simp [State.ccTick]

@[simp] theorem State.bankTurnOn_fixed (s : State) (bank : Nat) (fromOff : Bool) :
    (s.bankTurnOn bank fromOff).fixed = s.fixed := by rfl

@[simp] theorem State.bankLose_fixed (s : State) (bank : Nat) : (s.bankLose bank).fixed = s.fixed := by rfl

@[simp] theorem bistCtrlWrite_fixed (m : Rm) (v : W32) (s : State) : (bistCtrlWrite m v s).1.fixed = s.fixed := by
  fun_cases bistCtrlWrite m v s <;> simp +zetaDelta

@[simp] theorem execBistPause_keeps (s : State) : Keeps s (execBistPause s) := by
  fun_cases execBistPause s <;> exact .next (by simp)

@[simp] theorem execBistResume_keeps (s : State) : Keeps s (execBistResume s) := by
  fun_cases execBistResume s <;> exact .next (by simp)

@[simp] theorem State.bistTick_fixed (s : State) (c : Nat) : (s.bistTick c).fixed = s.fixed := by
  fun_cases State.bistTick s c <;> simp

@[simp] theorem State.spoil_fixed (s : State) (a n : Nat) : (s.spoil a n).fixed = s.fixed := by simp [State.spoil]

@[simp] theorem execBistEnd_keeps (bad : List (Fin 8192)) (s : State) : Keeps s (execBistEnd bad s) := by
  fun_cases execBistEnd bad s <;> exact .next (by simp +zetaDelta)

@[simp] theorem State.setDma_fixed (s : State) (e : Nat) (x : Dma) : (s.setDma e x).fixed = s.fixed := by rfl

@[simp] theorem State.dmaAsk_fixed (s : State) (e tag addr count pri : Nat) (urgent : Bool) (data : Option (List Byte)) :
    (s.dmaAsk e tag addr count pri urgent data).fixed = s.fixed := by rfl

@[simp] theorem State.dmaStop_fixed (s : State) (e status : Nat) : (s.dmaStop e status).fixed = s.fixed := by simp [State.dmaStop]
@[simp] theorem State.dmaFetch_fixed (s : State) (e addr : Nat) : (s.dmaFetch e addr).fixed = s.fixed := by simp [State.dmaFetch]
@[simp] theorem State.dmaWrote_fixed (s : State) (e tag n : Nat) : (s.dmaWrote e tag n).fixed = s.fixed := by rfl

@[simp] theorem State.dmaData_fixed (s : State) (e : Nat) (x : Desc) (p : DmaPiece) (bs : List Byte) :
    (s.dmaData e x p bs).fixed = s.fixed := by simp [State.dmaData]

@[simp] theorem State.dmaResponse_fixed (s : State) (e : Nat) (r : MemRsp) (tag : Nat) :
    (s.dmaResponse e r tag).fixed = s.fixed := by
  fun_cases State.dmaResponse s e r tag <;> simp

@[simp] theorem State.dmaTick_fixed (s : State) (e : Nat) : (s.dmaTick e).fixed = s.fixed := by
  simp only [State.dmaTick]
  repeat' split
  all_goals simp

@[simp] theorem State.dmaDrained_fixed (s : State) (e : Nat) : (s.dmaDrained e).fixed = s.fixed := by simp [State.dmaDrained]

@[simp] theorem dmaCtrlWrite_fixed (e : Nat) (v : W32) (s : State) : (dmaCtrlWrite e v s).1.fixed = s.fixed := by
  fun_cases dmaCtrlWrite e v s <;> simp +zetaDelta

@[simp] theorem dmaPut_fixed (m : Rm) (e : Nat) (f : W32 → W32) (s : State) : (dmaPut m e f s).fixed = s.fixed := by simp [dmaPut]

@[simp] theorem execDescriptorComplete_keeps (e : Fin 4) (s : State) : Keeps s (execDescriptorComplete e s) := by
  fun_cases execDescriptorComplete e s <;> exact .next (by simp +zetaDelta)

@[simp] theorem State.setQdr_fixed (s : State) (q : Nat) (x : Qdr) : (s.setQdr q x).fixed = s.fixed := by rfl
@[simp] theorem State.qdrErr_fixed (s : State) (q : Nat) (f : Fld) : (s.qdrErr q f).fixed = s.fixed := by simp [State.qdrErr]

@[simp] theorem State.qdrDrained_fixed (s : State) (q : Nat) (f : Fld) : (s.qdrDrained q f).fixed = s.fixed := by
  simp [State.qdrDrained]

@[simp] theorem State.qdrWord_fixed (s : State) (q w : Nat) (flips : List Nat) : (s.qdrWord q w flips).1.fixed = s.fixed := by
  fun_cases State.qdrWord s q w flips <;> simp +zetaDelta

@[simp] theorem State.qdrWords_fixed (s : State) (q w : Nat) (flips : List (Nat × Nat)) (n : Nat) :
    (s.qdrWords q w flips n).1.fixed = s.fixed := by
  induction n with
  | zero => rfl
  | succ n ih => simp [State.qdrWords, ih]

@[simp] theorem State.setQdrWord_fixed (s : State) (q w : Nat) (d : W64) : (s.setQdrWord q w d).fixed = s.fixed := by
  simp [State.setQdrWord]

@[simp] theorem State.setQdrWords_fixed (s : State) (q w : Nat) (l : List W64) : (s.setQdrWords q w l).fixed = s.fixed := by
  simp [State.setQdrWords]

@[simp] theorem State.qdrResult_fixed (s : State) (q t : Nat) (payload : Option (BitVec 256)) (cause : Nat) :
    (s.qdrResult q t payload cause).fixed = s.fixed := by rfl

@[simp] theorem State.qdrServeRead_fixed (s : State) (q u : Nat) (flips : List (Nat × Nat)) :
    (s.qdrServeRead q u flips).1.fixed = s.fixed := by
  fun_cases State.qdrServeRead s q u flips
  case case7 h | case8 h => simpa using fixed_fst h (State.qdrWords_fixed ..)
  all_goals simp

@[simp] theorem State.qdrServeWrite_fixed (s : State) (q u : Nat) (read : Bool) (w : QdrWrite) :
    (s.qdrServeWrite q u read w).1.fixed = s.fixed := by
  fun_cases State.qdrServeWrite s q u read w <;> simp

@[simp] theorem execQdrServiceTick_keeps (q : Fin 4) (flips : List (Fin 4 × Fin 72)) (s : State) :
    Keeps s (execQdrServiceTick q flips s) := by
  simp only [execQdrServiceTick]
  refine .ite (.next rfl) (.next ?_)
  rw [State.setQdr_fixed, foldl_fst_fixed _ _ fun _ _ => by simp]
  simp

@[simp] theorem State.qdrPerform_fixed (s : State) (q : Nat) (flips : List (Nat × Nat)) (r : MemReq) :
    (s.qdrPerform q flips r).1.fixed = s.fixed := by
  fun_cases State.qdrPerform s q flips r
  case case1 h _ | case2 h _ _ => simpa using fixed_fst h (foldl_fst_fixed _ _ fun q i => by simp)
  case case3 h | case4 h => simpa using fixed_fst h (State.qdrWords_fixed ..)

@[simp] theorem execQdrBeRequest_keeps (q : Fin 4) (flips : List (Fin 32 × Fin 72)) (s : State) :
    Keeps s (execQdrBeRequest q flips s) := by
  simp only [execQdrBeRequest]
  repeat' split
  all_goals exact .next (by simp)

@[simp] theorem State.svcAdvance_fixed (s : State) (q : Nat) : (s.svcAdvance q).fixed = s.fixed := by simp [State.svcAdvance]

@[simp] theorem qsDataWrite_fixed (q k : Nat) (v : W32) (s : State) : (qsDataWrite q k v s).1.fixed = s.fixed := by
  fun_cases qsDataWrite q k v s <;> simp +zetaDelta

@[simp] theorem qsDataRead_fixed (q k : Nat) (s : State) : (qsDataRead q k s).1.fixed = s.fixed := by
  fun_cases qsDataRead q k s <;> simp

@[simp] theorem State.qdrTrain_fixed (s : State) (q : Nat) : (s.qdrTrain q).fixed = s.fixed := by simp [State.qdrTrain]
@[simp] theorem State.qdrTick_fixed (s : State) (q : Nat) : (s.qdrTick q).fixed = s.fixed := by simp [State.qdrTick]
@[simp] theorem qCtrlWrite_fixed (q : Nat) (v : W32) (s : State) : (qCtrlWrite q v s).1.fixed = s.fixed := by simp [qCtrlWrite]

@[simp] theorem qCtrlPut_fixed (m : Rm) (q : Nat) (f : W32 → W32) (s : State) : (qCtrlPut m q f s).fixed = s.fixed := by
  simp [qCtrlPut]

@[simp] theorem qLbWrite_fixed (q : Nat) (v : W32) (s : State) : (qLbWrite q v s).1.fixed = s.fixed := by
  fun_cases qLbWrite q v s <;> simp +zetaDelta

@[simp] theorem State.setDs_fixed (s : State) (d : Nat) (x : Ds) : (s.setDs d x).fixed = s.fixed := by rfl
@[simp] theorem State.setDramState_fixed (s : State) (d v : Nat) : (s.setDramState d v).fixed = s.fixed := by rfl
@[simp] theorem State.drFlag_fixed (s : State) (d : Nat) (f : Fld) : (s.drFlag d f).fixed = s.fixed := by simp [State.drFlag]
@[simp] theorem State.dramLose_fixed (s : State) (d : Nat) (p : Nat → Bool) : (s.dramLose d p).fixed = s.fixed := by rfl

@[simp] theorem State.errRecord_fixed (s : State) (d kind addr master : Nat) (pos : Byte) :
    (s.errRecord d kind addr master pos).fixed = s.fixed := by simp [State.errRecord]

@[simp] theorem State.enterErasure_fixed (s : State) (d pos : Nat) : (s.enterErasure d pos).fixed = s.fixed := by
  simp [State.enterErasure]

@[simp] theorem State.countSymbol_fixed (d : Nat) (s : State) (pos : Nat) : (s.countSymbol d pos).fixed = s.fixed := by
  simp [State.countSymbol]

@[simp] theorem State.readLine_fixed (s : State) (d a : Nat) (noise : List SymErr) :
    (s.readLine d a noise).1.fixed = s.fixed := by
  fun_cases State.readLine s d a noise <;> simp +zetaDelta

@[simp] theorem State.logRead_fixed (s : State) (d addr master bad : Nat) (r : LineRead) :
    (s.logRead d addr master bad r).fixed = s.fixed := by
  fun_cases State.logRead s d addr master bad r <;> simp

@[simp] theorem State.writeLine_fixed (s : State) (a : Nat) (bytes : List Byte) : (s.writeLine a bytes).fixed = s.fixed := by
  simp [State.writeLine]

@[simp] theorem State.countActivate_fixed (s : State) (d a master : Nat) : (s.countActivate d a master).fixed = s.fixed := by
  simp [State.countActivate]

@[simp] theorem State.openFor_fixed (s : State) (d a master : Nat) (pool : Bool) :
    (s.openFor d a master pool).fixed = s.fixed := by simp [State.openFor]

@[simp] theorem State.kmBack_fixed (s : State) (l : KmLine) : (s.kmBack l).fixed = s.fixed := by simp [State.kmBack]
@[simp] theorem State.kmWriteBack_fixed (s : State) : s.kmWriteBack.fixed = s.fixed := by simp [State.kmWriteBack]
@[simp] theorem State.kmDropSet_fixed (s : State) (d : Nat) : (s.kmDropSet d).fixed = s.fixed := by simp [State.kmDropSet]

@[simp] theorem State.kmFetch_fixed (s : State) (d mline master : Nat) (pool : Bool) (noise : List SymErr) :
    (s.kmFetch d mline master pool noise).1.fixed = s.fixed := by
  simp only [State.kmFetch]
  repeat' split
  all_goals simp

@[simp] theorem State.kmStore_fixed (s : State) (d mline i : Nat) (ctr : W64) (tag : W32) (key : Nat) :
    (s.kmStore d mline i ctr tag key).fixed = s.fixed := by rfl

@[simp] theorem State.dramPlain_fixed (s : State) (d : Nat) (pool : Bool) (noise : List SymErr) (r : MemReq) :
    (s.dramPlain d pool noise r).1.fixed = s.fixed := by
  simp only [State.dramPlain]
  repeat' split
  all_goals simp

@[simp] theorem State.kmErr_fixed (s : State) (k addr master : Nat) : (s.kmErr k addr master).fixed = s.fixed := by
  simp [State.kmErr]

@[simp] theorem State.kmWrite_fixed (s : State) (d n kid : Nat) (ctr : W64) (a : Nat) (plain : List Byte) :
    (s.kmWrite d n kid ctr a plain).fixed = s.fixed := by simp [State.kmWrite]

@[simp] theorem State.dramMixed_fixed (s : State) (d : Nat) (pool : Bool) (noise metaNoise : List SymErr) (r : MemReq) :
    (s.dramMixed d pool noise metaNoise r).1.fixed = s.fixed := by
  fun_cases State.dramMixed s d pool noise metaNoise r
  case case1 | case2 => simp +zetaDelta
  all_goals have ht := fixed_fst ‹s.kmFetch _ _ _ _ _ = _› (State.kmFetch_fixed ..)
  case case9 | case10 | case11 | case12 =>
    have hu := fixed_fst ‹State.readLine _ _ _ _ = _› (State.readLine_fixed ..)
    simp +zetaDelta [ht, hu]
  all_goals simp +zetaDelta [ht]

@[simp] theorem State.dramDrain_fixed (s : State) (d : Nat) : (s.dramDrain d).fixed = s.fixed := by
  fun_cases State.dramDrain s d <;> simp +zetaDelta

@[simp] theorem execDramRequest_keeps (d : Fin 4) (noise metaNoise : List SymErr) (s : State) :
    Keeps s (execDramRequest d noise metaNoise s) := by
  simp only [execDramRequest]
  repeat' split
  all_goals exact .next (by simp)

@[simp] theorem State.closeBank_fixed (s : State) (d bank : Nat) : (s.closeBank d bank).fixed = s.fixed := by rfl

@[simp] theorem drCtrlWrite_fixed (d : Nat) (v : W32) (s : State) : (drCtrlWrite d v s).1.fixed = s.fixed := by
  fun_cases drCtrlWrite d v s <;> simp +zetaDelta

@[simp] theorem drCtrlPut_fixed (m : Rm) (d : Nat) (f : W32 → W32) (s : State) : (drCtrlPut m d f s).fixed = s.fixed := by
  simp [drCtrlPut]

@[simp] theorem drMrWrite_fixed (d : Nat) (v : W32) (s : State) : (drMrWrite d v s).1.fixed = s.fixed := by
  simp only [drMrWrite]
  repeat' split
  all_goals simp

@[simp] theorem drTrnWrite_fixed (d : Nat) (v : W32) (s : State) : (drTrnWrite d v s).1.fixed = s.fixed := by
  fun_cases drTrnWrite d v s <;> simp +zetaDelta

@[simp] theorem State.freeBytes_fixed (s : State) (n : Nat) : (s.freeBytes n).2.fixed = s.fixed := by
  induction n generalizing s with
  | zero => rfl
  | succ n ih => simp [State.freeBytes, ih]

@[simp] theorem State.arrayLine_fixed (d devs : Nat) (s : State) (n : Nat) : (s.arrayLine d devs n).fixed = s.fixed := by
  simp only [State.arrayLine]
  split <;> simp [State.freeBytes_fixed]

@[simp] theorem drDlyWrite_fixed (d : Nat) (v : W32) (s : State) : (drDlyWrite d v s).1.fixed = s.fixed := by
  fun_cases drDlyWrite d v s <;> simp

@[simp] theorem drDlyRead_fixed (d : Nat) (s : State) : (drDlyRead d s).1.fixed = s.fixed := by
  simp only [drDlyRead]
  repeat' split
  all_goals simp

@[simp] theorem drCfgWrite_fixed (d : Nat) (v : W32) (s : State) : (drCfgWrite d v s).1.fixed = s.fixed := by
  fun_cases drCfgWrite d v s <;> simp

@[simp] theorem drRhCfgWrite_fixed (d : Nat) (v : W32) (s : State) : (drRhCfgWrite d v s).1.fixed = s.fixed := by
  simp [drRhCfgWrite]

@[simp] theorem drElogCtrlWrite_fixed (d : Nat) (v : W32) (s : State) : (drElogCtrlWrite d v s).1.fixed = s.fixed := by
  fun_cases drElogCtrlWrite d v s <;> simp +zetaDelta

@[simp] theorem drEccWrite_fixed (d : Nat) (v : W32) (s : State) : (drEccWrite d v s).1.fixed = s.fixed := by
  fun_cases drEccWrite d v s <;> simp +zetaDelta

@[simp] theorem drLbWrite_fixed (d : Nat) (v : W32) (s : State) : (drLbWrite d v s).1.fixed = s.fixed := by
  fun_cases drLbWrite d v s <;> simp +zetaDelta

@[simp] theorem State.dramMaskLoss_fixed (s : State) (d : Nat) : (s.dramMaskLoss d).fixed = s.fixed := by rfl
@[simp] theorem State.dramSleep_fixed (s : State) (d : Nat) : (s.dramSleep d).fixed = s.fixed := by simp [State.dramSleep]
@[simp] theorem State.dramWake_fixed (s : State) (d : Nat) : (s.dramWake d).fixed = s.fixed := by simp [State.dramWake]
@[simp] theorem State.dramOff_fixed (s : State) (d : Nat) : (s.dramOff d).fixed = s.fixed := by simp [State.dramOff]

@[simp] theorem kmCtrlWrite_fixed (v : W32) (s : State) : (kmCtrlWrite v s).1.fixed = s.fixed := by
  fun_cases kmCtrlWrite v s <;> simp +zetaDelta

@[simp] theorem kmCtrlPut_fixed (m : Rm) (f : W32 → W32) (s : State) : (kmCtrlPut m f s).fixed = s.fixed := by simp [kmCtrlPut]

@[simp] theorem State.kmScan_fixed (k : Nat) (s : State) (x : Nat × Nat) : (s.kmScan k x).fixed = s.fixed := by
  simp only [State.kmScan]
  repeat' split
  all_goals simp

@[simp] theorem kmSlotWrite_fixed (k : Nat) (v : W32) (s : State) : (kmSlotWrite k v s).1.fixed = s.fixed := by
  fun_cases kmSlotWrite k v s <;> simp

@[simp] theorem kmKeyWrite_fixed (i : Nat) (v : W32) (s : State) : (kmKeyWrite i v s).1.fixed = s.fixed := by
  fun_cases kmKeyWrite i v s <;> simp

@[simp] theorem kmMcmdWrite_fixed (m : Rm) (noise : List SymErr) (v : W32) (s : State) :
    (kmMcmdWrite m noise v s).1.fixed = s.fixed := by
  fun_cases kmMcmdWrite m noise v s
  case case6 | case7 | case8 =>
    have ht := fixed_fst ‹State.kmFetch _ _ _ _ _ _ = _› (State.kmFetch_fixed ..)
    simpa +zetaDelta using ht
  all_goals simp

end Sys2Proof.Machine
end

section
/-! ### Analog blocks and converters: the fuses and the queue stay as they were (R13, R25) -/

namespace Sys2Proof.Machine

@[simp] theorem State.setAb_fixed (s : State) (n : Nat) (x : Ab) : (s.setAb n x).fixed = s.fixed := by rfl
@[simp] theorem State.abFlag_fixed (s : State) (n : Nat) (f : Fld) : (s.abFlag n f).fixed = s.fixed := by simp [State.abFlag]
@[simp] theorem State.setAbState_fixed (s : State) (n v : Nat) : (s.setAbState n v).fixed = s.fixed := by rfl

@[simp] theorem swapCtrlWrite_fixed (v : W32) (s : State) : (swapCtrlWrite v s).1.fixed = s.fixed := by
  fun_cases swapCtrlWrite v s <;> simp +zetaDelta

@[simp] theorem execAcSwapEdge_keeps (s : State) : Keeps s (execAcSwapEdge s) := by
  fun_cases execAcSwapEdge s <;> exact .next (by simp)

@[simp] theorem State.swapBlock_fixed (w : Nat) (s : State) (n : Nat) : (s.swapBlock w n).fixed = s.fixed := by rfl
@[simp] theorem State.setIc_fixed (s : State) (n : Nat) (x : Ic) : (s.setIc n x).fixed = s.fixed := by rfl

@[simp] theorem State.disturb_fixed (s : State) (n : Nat) : (s.disturb n).fixed = s.fixed := by
  fun_cases State.disturb s n <;> simp

@[simp] theorem execSwapTake_keeps (s : State) : Keeps s (execSwapTake s) := by
  fun_cases execSwapTake s <;> exact .next (by simp +zetaDelta)

@[simp] theorem abShadowWrite_fixed (n a : Nat) (v : W32) (s : State) : (abShadowWrite n a v s).1.fixed = s.fixed := by
  fun_cases abShadowWrite n a v s <;> simp

@[simp] theorem swPinWrite_fixed (a : Nat) (v : W32) (s : State) : (swPinWrite a v s).1.fixed = s.fixed := by
  fun_cases swPinWrite a v s <;> simp

@[simp] theorem State.abStartCal_fixed (s : State) (n : Nat) : (s.abStartCal n).fixed = s.fixed := by rfl
@[simp] theorem State.abEndRun_fixed (s : State) (n : Nat) : (s.abEndRun n).fixed = s.fixed := by simp [State.abEndRun]
@[simp] theorem State.abBegin_fixed (s : State) (n : Nat) (r : AbRun) : (s.abBegin n r).fixed = s.fixed := by rfl
@[simp] theorem State.abQueue_fixed (s : State) (n first : Nat) : (s.abQueue n first).fixed = s.fixed := by rfl

@[simp] theorem State.abWord_fixed (s : State) (n dest : Nat) (w : W32) : (s.abWord n dest w).fixed = s.fixed := by
  simp [State.abWord]

@[simp] theorem State.abStop_fixed (s : State) (n : Nat) : (s.abStop n).fixed = s.fixed := by
  simp only [State.abStop]
  repeat' split
  all_goals simp

@[simp] theorem abCmdWrite_fixed (n : Nat) (v : W32) (s : State) : (abCmdWrite n v s).1.fixed = s.fixed := by
  fun_cases abCmdWrite n v s <;> simp +zetaDelta

@[simp] theorem State.eitherWay_fixed (s : State) (num : Int) (den : Nat) : (s.eitherWay num den).2.fixed = s.fixed := by
  simp only [State.eitherWay]
  repeat' split
  all_goals simp

@[simp] theorem State.abCorrect_fixed (s : State) (n : Nat) (raw : Int) : (s.abCorrect n raw).2.2.fixed = s.fixed := by
  simp [State.abCorrect]

@[simp] theorem execAbSample_keeps (n : Fin 48) (raw : BitVec 20) (s : State) : Keeps s (execAbSample n raw s) := by
  simp only [execAbSample]
  repeat' split
  all_goals exact .next (by simp)

@[simp] theorem execAbResultEnter_keeps (n : Fin 48) (s : State) : Keeps s (execAbResultEnter n s) := by
  fun_cases execAbResultEnter n s <;> exact .next (by simp +zetaDelta)

@[simp] theorem abResultRead_fixed (m : Rm) (n : Nat) (s : State) : (abResultRead m n s).1.fixed = s.fixed := by
  fun_cases abResultRead m n s <;> simp

@[simp] theorem State.abResume_fixed (s : State) (n f : Nat) : (s.abResume n f).fixed = s.fixed := by simp [State.abResume]

@[simp] theorem execAbCalEnd_keeps (n : Fin 48) (amp adc : W32) (s : State) : Keeps s (execAbCalEnd n amp adc s) := by
  fun_cases execAbCalEnd n amp adc s <;> exact .next (by simp +zetaDelta)

@[simp] theorem abCalWrite_fixed (n a : Nat) (v : W32) (s : State) : (abCalWrite n a v s).1.fixed = s.fixed := by
  fun_cases abCalWrite n a v s <;> simp

@[simp] theorem abRunRegWrite_fixed (n a : Nat) (v : W32) (s : State) : (abRunRegWrite n a v s).1.fixed = s.fixed := by
  fun_cases abRunRegWrite n a v s <;> simp

@[simp] theorem State.asAdvance_fixed (s : State) : s.asAdvance.fixed = s.fixed := by simp [State.asAdvance]

@[simp] theorem asDataWrite_fixed (k : Nat) (v : W32) (s : State) : (asDataWrite k v s).1.fixed = s.fixed := by
  fun_cases asDataWrite k v s <;> simp +zetaDelta

@[simp] theorem asDataRead_fixed (k : Nat) (s : State) : (asDataRead k s).1.fixed = s.fixed := by simp [asDataRead]

@[simp] theorem afClkWrite_fixed (k : Nat) (v : W32) (s : State) : (afClkWrite k v s).1.fixed = s.fixed := by
  fun_cases afClkWrite k v s <;> simp +zetaDelta

@[simp] theorem State.anaTick_fixed (s : State) : s.anaTick.fixed = s.fixed := by simp [State.anaTick]
@[simp] theorem State.abHalt_fixed (s : State) (n : Nat) : (s.abHalt n).fixed = s.fixed := by simp [State.abHalt]
@[simp] theorem State.icFlag_fixed (s : State) (n : Nat) (f : Fld) : (s.icFlag n f).fixed = s.fixed := by simp [State.icFlag]
@[simp] theorem State.syncIc_fixed (s : State) (n : Nat) : (s.syncIc n).fixed = s.fixed := by simp [State.syncIc]
@[simp] theorem State.putIc_fixed (s : State) (n : Nat) (x : Ic) : (s.putIc n x).fixed = s.fixed := by simp [State.putIc]
@[simp] theorem State.icStartCal_fixed (s : State) (n t : Nat) : (s.icStartCal n t).fixed = s.fixed := by simp [State.icStartCal]

@[simp] theorem icCmdWrite_fixed (n : Nat) (v : W32) (s : State) : (icCmdWrite n v s).1.fixed = s.fixed := by
  fun_cases icCmdWrite n v s <;> simp +zetaDelta

@[simp] theorem State.icBegin_fixed (s : State) (n tick : Nat) (r : IcRun) : (s.icBegin n tick r).fixed = s.fixed := by
  simp [State.icBegin]

@[simp] theorem execConversionStart_keeps (n : Fin 16) (s : State) : Keeps s (execConversionStart n s) := by
  fun_cases execConversionStart n s <;> exact .next (by simp)

@[simp] theorem State.icPhase_fixed (s : State) (n from' to' due : Nat) : (s.icPhase n from' to' due).fixed = s.fixed := by
  fun_cases State.icPhase s n from' to' due <;> simp

@[simp] theorem execInputIntegrationEnd_keeps (n : Fin 16) (s : State) : Keeps s (execInputIntegrationEnd n s) := by
  fun_cases execInputIntegrationEnd n s <;> exact .next (by simp)

@[simp] theorem State.icPush_fixed (s : State) (n : Nat) (r : IcResult) : (s.icPush n r).fixed = s.fixed := by simp [State.icPush]

@[simp] theorem execConversionEnd_keeps (n : Fin 16) (raw : BitVec 40) (s : State) : Keeps s (execConversionEnd n raw s) := by
  fun_cases execConversionEnd n raw s <;> exact .next (by simp +zetaDelta)

@[simp] theorem icResultRead_fixed (m : Rm) (n : Nat) (s : State) : (icResultRead m n s).1.fixed = s.fixed := by
  fun_cases icResultRead m n s <;> simp

@[simp] theorem State.icResume_fixed (s : State) (n e : Nat) (r : IcRun) : (s.icResume n e r).fixed = s.fixed := by
  simp [State.icResume]

@[simp] theorem execIcCalEnd_keeps (n : Fin 16) (zero ref : BitVec 40) (s : State) : Keeps s (execIcCalEnd n zero ref s) := by
  simp only [execIcCalEnd]
  repeat' split
  all_goals exact .next (by simp)

@[simp] theorem icCfgWrite_fixed (n : Nat) (v : W32) (s : State) : (icCfgWrite n v s).1.fixed = s.fixed := by
  fun_cases icCfgWrite n v s <;> simp

@[simp] theorem icRunRegWrite_fixed (n a : Nat) (v : W32) (s : State) : (icRunRegWrite n a v s).1.fixed = s.fixed := by
  fun_cases icRunRegWrite n a v s <;> simp

@[simp] theorem icFactorWrite_fixed (n a : Nat) (v : W32) (s : State) : (icFactorWrite n a v s).1.fixed = s.fixed := by
  fun_cases icFactorWrite n a v s <;> simp

@[simp] theorem msPeriodWrite_fixed (v : W32) (s : State) : (msPeriodWrite v s).1.fixed = s.fixed := by
  fun_cases msPeriodWrite v s <;> simp

@[simp] theorem msCalWrite_fixed (v : W32) (s : State) : (msCalWrite v s).1.fixed = s.fixed := by
  fun_cases msCalWrite v s <;> simp

@[simp] theorem refValWrite_fixed (a : Nat) (v : W32) (s : State) : (refValWrite a v s).1.fixed = s.fixed := by
  fun_cases refValWrite a v s <;> simp

@[simp] theorem refLoopWrite_fixed (v : W32) (s : State) : (refLoopWrite v s).1.fixed = s.fixed := by
  fun_cases refLoopWrite v s <;> simp

@[simp] theorem State.mainsUnlock_fixed (s : State) : s.mainsUnlock.fixed = s.fixed := by simp [State.mainsUnlock]
@[simp] theorem State.mainsPeriod_fixed (s : State) (p : Nat) : (s.mainsPeriod p).fixed = s.fixed := by simp [State.mainsPeriod]

@[simp] theorem State.crossStart_fixed (s : State) (n : Nat) : (s.crossStart n).fixed = s.fixed := by
  fun_cases State.crossStart s n <;> simp

@[simp] theorem execMainsCrossing_keeps (s : State) : Keeps s (execMainsCrossing s) := by
  simp only [execMainsCrossing]
  repeat' split
  all_goals exact .next (by simp)

@[simp] theorem execMainsUnlockTimeout_keeps (s : State) : Keeps s (execMainsUnlockTimeout s) := by
  fun_cases execMainsUnlockTimeout s <;> exact .next (by simp)

@[simp] theorem State.icHalt_fixed (s : State) (n : Nat) : (s.icHalt n).fixed = s.fixed := by simp [State.icHalt]
@[simp] theorem State.anaHalt_fixed (s : State) : s.anaHalt.fixed = s.fixed := by simp [State.anaHalt]

end Sys2Proof.Machine
end

section
/-! ### Injection, power domains and event delivery: the fuses and the queue stay as they were (R13, R25) -/

namespace Sys2Proof.Machine

@[simp] theorem State.takeStaged_fixed (s : State) (d n : Nat) : (s.takeStaged d n).1.fixed = s.fixed := by
  fun_cases State.takeStaged s d n <;> simp

@[simp] theorem State.takeEntry_fixed (s : State) (src : Nat) : (s.takeEntry src).1.fixed = s.fixed := by
  fun_cases State.takeEntry s src <;> simp

@[simp] theorem State.takeClient_fixed (s : State) (n t : Nat) : (s.takeClient n t).1.fixed = s.fixed := by
  fun_cases State.takeClient s n t <;> simp

@[simp] theorem State.offer_fixed (s : State) (d n t : Nat) (x : Inj) : (s.offer d n t x).1.fixed = s.fixed := by
  fun_cases State.offer s d n t x <;> simp

@[simp] theorem State.launch_fixed (s : State) (d n : Nat) (f : Flit) : (s.launch d n f).fixed = s.fixed := by simp [State.launch]

@[simp] theorem State.launchLoop_fixed (s : State) (d n bank : Nat) (x : Inj) : (s.launchLoop d n bank x).fixed = s.fixed := by
  simp only [State.launchLoop]
  repeat' split
  all_goals simp

@[simp] theorem State.missSends_fixed (s : State) (n t : Nat) : (s.missSends n t).fixed = s.fixed := by
  fun_cases State.missSends s n t <;> simp

@[simp] theorem State.injectTick_fixed (s : State) (d n : Nat) : (s.injectTick d n).fixed = s.fixed := by
  simp only [State.injectTick]
  repeat' split
  all_goals simp

@[simp] theorem State.toClient_fixed (s : State) (d n : Nat) (x : Exp) (f : Flit) : (s.toClient d n x f).fixed = s.fixed := by
  fun_cases State.toClient s d n x f <;> simp

@[simp] theorem State.meet_fixed (d n : Nat) (cause : Option Nat) (here : List Item) (s : State) (x : Exp) :
    (s.meet d n cause here x).fixed = s.fixed := by
  fun_cases State.meet d n cause here s x <;> simp +zetaDelta

@[simp] theorem State.takeAt_fixed (s : State) (loc : Loc) : (s.takeAt loc).2.fixed = s.fixed := by rfl
@[simp] theorem State.egressTick_fixed (s : State) (d n : Nat) : (s.egressTick d n).fixed = s.fixed := by simp [State.egressTick]
@[simp] theorem State.loseTables_fixed (s : State) (d : Nat) : (s.loseTables d).fixed = s.fixed := by simp [State.loseTables]
@[simp] theorem State.loseNis_fixed (s : State) (d : Nat) : (s.loseNis d).fixed = s.fixed := by rfl
@[simp] theorem State.purgeFlight_fixed (s : State) (d : Nat) : (s.purgeFlight d).fixed = s.fixed := by rfl
@[simp] theorem State.awaitRejoin_fixed (s : State) (d : Nat) : (s.awaitRejoin d).fixed = s.fixed := by simp [State.awaitRejoin]
@[simp] theorem State.unconfigure_fixed (s : State) (d : Nat) : (s.unconfigure d).fixed = s.fixed := by rfl

@[simp] theorem State.fabricReturns_fixed (s : State) (d : Nat) : (s.fabricReturns d).fixed = s.fixed := by
  simp [State.fabricReturns]

@[simp] theorem State.lanesReturn_fixed (s : State) (d : Nat) : (s.lanesReturn d).fixed = s.fixed := by simp [State.lanesReturn]
@[simp] theorem State.portReturns_fixed (s : State) (p : Nat) : (s.portReturns p).fixed = s.fixed := by simp [State.portReturns]

@[simp] theorem State.turnOn_fixed (s : State) (dom : Nat) : (s.turnOn dom).fixed = s.fixed := by
  fun_cases State.turnOn s dom <;> simp +zetaDelta

@[simp] theorem State.askOn_fixed (s : State) (dom : Nat) : (s.askOn dom).fixed = s.fixed := by simp [State.askOn]
@[simp] theorem State.rise_fixed (s : State) (dom e : Nat) : (s.rise dom e).fixed = s.fixed := by simp [State.rise]

@[simp] theorem State.riseTick_fixed (s : State) : s.riseTick.fixed = s.fixed := by
  refine foldl_fixed _ s fun t x => ?_
  split <;> simp

@[simp] theorem State.pwrDone_fixed (s : State) : s.pwrDone.fixed = s.fixed := by simp [State.pwrDone]
@[simp] theorem State.drainWakes_fixed (s : State) : s.drainWakes.fixed = s.fixed := by simp [State.drainWakes]

@[simp] theorem pwrReqWrite_fixed (v : W32) (s : State) : (pwrReqWrite v s).1.fixed = s.fixed := by
  fun_cases pwrReqWrite v s <;> simp

@[simp] theorem State.pwrEnd_fixed (s : State) : s.pwrEnd.fixed = s.fixed := by rfl

@[simp] theorem State.pwrRefuse_fixed (s : State) (dom reason : Nat) : (s.pwrRefuse dom reason).fixed = s.fixed := by
  simp only [State.pwrRefuse]
  repeat' split
  all_goals simp

@[simp] theorem State.pwrAnswers_fixed (s : State) (r : PwrReq) : (s.pwrAnswers r).fixed = s.fixed := by
  simp only [State.pwrAnswers]
  repeat' split
  all_goals simp

@[simp] theorem execPowerHandshakeAsk_keeps (s : State) : Keeps s (execPowerHandshakeAsk s) := by
  fun_cases execPowerHandshakeAsk s <;> exact .next (by simp)

@[simp] theorem execPowerDelayExpiry_keeps (s : State) : Keeps s (execPowerDelayExpiry s) := by
  fun_cases execPowerDelayExpiry s <;> exact .next (by simp)

@[simp] theorem execPowerLimitExpiry_keeps (s : State) : Keeps s (execPowerLimitExpiry s) := by
  fun_cases execPowerLimitExpiry s <;> exact .next (by simp)

@[simp] theorem State.fabricLeaves_fixed (s : State) (d : Nat) (off : Bool) : (s.fabricLeaves d off).fixed = s.fixed := by
  simp [State.fabricLeaves]

@[simp] theorem State.weaveOff_fixed (s : State) (d : Nat) : (s.weaveOff d).fixed = s.fixed := by simp [State.weaveOff]

@[simp] theorem State.coreLeaves_fixed (s : State) (n : Nat) (off : Bool) : (s.coreLeaves n off).fixed = s.fixed := by
  simp [State.coreLeaves]

@[simp] theorem State.dmaOff_fixed (s : State) : s.dmaOff.fixed = s.fixed := by simp [State.dmaOff]

@[simp] theorem State.lanesLeave_fixed (s : State) (d : Nat) (off : Bool) : (s.lanesLeave d off).fixed = s.fixed := by
  simp [State.lanesLeave]

@[simp] theorem State.blocksLeave_fixed (s : State) (off : Bool) : (s.blocksLeave off).fixed = s.fixed := by
  simp [State.blocksLeave]

@[simp] theorem State.convertersLeave_fixed (s : State) (off : Bool) : (s.convertersLeave off).fixed = s.fixed := by
  simp [State.convertersLeave]

@[simp] theorem State.leave_fixed (s : State) (dom : Nat) (off : Bool) : (s.leave dom off).fixed = s.fixed := by
  simp [State.leave]

@[simp] theorem State.changeDomain_fixed (s : State) (r : PwrReq) : (s.changeDomain r).fixed = s.fixed := by
  simp [State.changeDomain]

@[simp] theorem execDomainStateChange_keeps (s : State) : Keeps s (execDomainStateChange s) := by
  fun_cases execDomainStateChange s <;> exact .next (by simp)

@[simp] theorem State.changeTick_fixed (s : State) : s.changeTick.fixed = s.fixed := by
  fun_cases State.changeTick s <;> simp

@[simp] theorem rtcCtrlWrite_fixed (v : W32) (s : State) : (rtcCtrlWrite v s).1.fixed = s.fixed := by simp [rtcCtrlWrite]
@[simp] theorem State.rtcCapture_fixed (s : State) : s.rtcCapture.fixed = s.fixed := by rfl

@[simp] theorem execBridgeMessageSend_keeps (s : State) : Keeps s (execBridgeMessageSend s) := by
  fun_cases execBridgeMessageSend s <;> exact .next (by simp)

@[simp] theorem State.bridgeTake_fixed (s : State) (m : EvMsg) : (s.bridgeTake m).fixed = s.fixed := by simp [State.bridgeTake]

@[simp] theorem execEventMessageReceive_keeps (s : State) : Keeps s (execEventMessageReceive s) := by
  fun_cases execEventMessageReceive s <;> exact .next (by simp)

@[simp] theorem execEvtOutPulseEnd_keeps (i : Fin 8) (s : State) : Keeps s (execEvtOutPulseEnd i s) := by
  fun_cases execEvtOutPulseEnd i s <;> exact .next (by simp)

@[simp] theorem evOutClrWrite_fixed (v : W32) (s : State) : (evOutClrWrite v s).1.fixed = s.fixed := by simp [evOutClrWrite]

@[simp] theorem evOutCfgWrite_fixed (i : Nat) (v : W32) (s : State) : (evOutCfgWrite i v s).1.fixed = s.fixed := by
  simp [evOutCfgWrite]

end Sys2Proof.Machine
end

section
/-! ### Clocks, resets and ring accesses by address: the fuses and the queue stay as they were (R13, R25) -/

namespace Sys2Proof.Machine

@[simp] theorem State.ringFinish_fixed (s : State) (m : Rm) (st : RStat) (d : W32) : (s.ringFinish m st d).fixed = s.fixed := by
  fun_cases State.ringFinish s m st d <;> simp +zetaDelta

@[simp] theorem refCtrlWrite_fixed (v : W32) (s : State) : (refCtrlWrite v s).1.fixed = s.fixed := by
  fun_cases refCtrlWrite v s <;> simp +zetaDelta

@[simp] theorem sscCtrlWrite_fixed (v : W32) (s : State) : (sscCtrlWrite v s).1.fixed = s.fixed := by
  fun_cases sscCtrlWrite v s <;> simp

@[simp] theorem fclkCfgWrite_fixed (n : Nat) (v : W32) (s : State) : (fclkCfgWrite n v s).1.fixed = s.fixed := by
  fun_cases fclkCfgWrite n v s <;> simp +zetaDelta

@[simp] theorem tickSnapWrite_fixed (m : Rm) (s : State) : (tickSnapWrite m s).1.fixed = s.fixed := by rfl
@[simp] theorem State.loseAlign_fixed (s : State) : s.loseAlign.fixed = s.fixed := by simp [State.loseAlign]

@[simp] theorem execTimeMarkerCompare_keeps (value : W64) (aligned : Bool) (frac : Fin 64) (s : State) :
    Keeps s (execTimeMarkerCompare value aligned frac s) := by
  simp only [execTimeMarkerCompare]
  repeat' split
  all_goals exact .next (by simp)

@[simp] theorem tickCtrlWrite_fixed (v : W32) (s : State) : (tickCtrlWrite v s).1.fixed = s.fixed := by
  fun_cases tickCtrlWrite v s <;> simp +zetaDelta

@[simp] theorem execTickLoad_keeps (value : W64) (s : State) : Keeps s (execTickLoad value s) := by
  fun_cases execTickLoad value s <;> exact .next (by simp +zetaDelta)

@[simp] theorem State.resetKeeping_fixed (s : State) (keep : Nat → Bool) (phase : ClkPhase) :
    (s.resetKeeping keep phase).fixed = s.fixed := by rfl

@[simp] theorem strapBits_fixed (st : Straps) (w lsb : Nat) (v : BitVec w) (s : State) :
    (strapBits st w lsb v s).2.fixed = s.fixed := by rfl

@[simp] theorem State.sampleCfg_fixed (s : State) (st : Straps) : (s.sampleCfg st).fixed = s.fixed := by rfl

@[simp] theorem execPinReset_keeps (straps : Straps) (silent : BitVec 8) (s : State) :
    Keeps s (execPinReset straps silent s) := by
  fun_cases execPinReset straps silent s <;> exact .next (by simp +zetaDelta)

@[simp] theorem State.startUp_fixed (s : State) : s.startUp.fixed = s.fixed := by simp [State.startUp]
@[simp] theorem State.revFinish_fixed (s : State) : s.revFinish.fixed = s.fixed := by simp [State.revFinish]
@[simp] theorem State.revTick_fixed (s : State) : s.revTick.fixed = s.fixed := by simp [State.revTick]
@[simp] theorem State.resetDie_fixed (s : State) (d : Nat) : (s.resetDie d).fixed = s.fixed := by simp [State.resetDie]
@[simp] theorem dieResetWrite_fixed (v : W32) (s : State) : (dieResetWrite v s).1.fixed = s.fixed := by simp [dieResetWrite]

@[simp] theorem execDieResetEnd_keeps (d : Fin 8) (s : State) : Keeps s (execDieResetEnd d s) := by
  fun_cases execDieResetEnd d s <;> exact .next (by simp)

@[simp] theorem deviceIdWrite_fixed (v : W32) (s : State) : (deviceIdWrite v s).1.fixed = s.fixed := by
  fun_cases deviceIdWrite v s <;> simp +zetaDelta

@[simp] theorem readStored_fixed (a : Nat) (s : State) : (readStored a s).1.fixed = s.fixed := by rfl
@[simp] theorem readAs_fixed (s : State) (v : W32) : (readAs s v).1.fixed = s.fixed := by rfl

@[simp] theorem niRead_fixed (m : Rm) (d n o : Nat) (s : State) : (niRead m d n o s).1.fixed = s.fixed := by
  fun_cases niRead m d n o s <;> simp

@[simp] theorem linkRead_fixed (a : Nat) (s : State) : (linkRead a s).1.fixed = s.fixed := by
  fun_cases linkRead a s <;> simp

@[simp] theorem laneRead_fixed (a : Nat) (s : State) : (laneRead a s).1.fixed = s.fixed := by
  simp only [laneRead]
  repeat' split
  all_goals simp

@[simp] theorem feRead_fixed (m : Rm) (d o : Nat) (s : State) : (feRead m d o s).1.fixed = s.fixed := by
  fun_cases feRead m d o s <;> simp

@[simp] theorem coreRead_fixed (n o : Nat) (s : State) : (coreRead n o s).1.fixed = s.fixed := by
  simp only [coreRead]
  repeat' split
  all_goals simp

@[simp] theorem eventRead_fixed (o : Nat) (s : State) : (eventRead o s).1.fixed = s.fixed := by
  fun_cases eventRead o s <;> simp

@[simp] theorem identRead_fixed (o : Nat) (s : State) : (identRead o s).1.fixed = s.fixed := by
  fun_cases identRead o s <;> simp

@[simp] theorem cfgRead_fixed (o : Nat) (s : State) : (cfgRead o s).1.fixed = s.fixed := by
  fun_cases cfgRead o s <;> simp

@[simp] theorem dramBlockRead_fixed (d o : Nat) (s : State) : (dramBlockRead d o s).1.fixed = s.fixed := by
  fun_cases dramBlockRead d o s <;> simp

@[simp] theorem qdrBlockRead_fixed (q o : Nat) (s : State) : (qdrBlockRead q o s).1.fixed = s.fixed := by
  fun_cases qdrBlockRead q o s <;> simp

@[simp] theorem patternBlockRead_fixed (o : Nat) (s : State) : (patternBlockRead o s).1.fixed = s.fixed := by
  fun_cases patternBlockRead o s <;> simp

@[simp] theorem hubRead_fixed (m : Rm) (b o : Nat) (s : State) : (hubRead m b o s).1.fixed = s.fixed := by
  fun_cases hubRead m b o s <;> simp

@[simp] theorem logicRead_fixed (m : Rm) (d b o : Nat) (s : State) : (logicRead m d b o s).1.fixed = s.fixed := by
  fun_cases logicRead m d b o s <;> simp

@[simp] theorem abRead_fixed (m : Rm) (n o : Nat) (s : State) : (abRead m n o s).1.fixed = s.fixed := by
  fun_cases abRead m n o s <;> simp

@[simp] theorem icRead_fixed (m : Rm) (n o : Nat) (s : State) : (icRead m n o s).1.fixed = s.fixed := by
  fun_cases icRead m n o s <;> simp

@[simp] theorem anaRead_fixed (m : Rm) (b o : Nat) (s : State) : (anaRead m b o s).1.fixed = s.fixed := by
  fun_cases anaRead m b o s <;> simp

@[simp] theorem regRead_fixed (m : Rm) (a : Nat) (s : State) : (regRead m a s).1.fixed = s.fixed := by
  fun_cases regRead m a s <;> simp

@[simp] theorem writePlain_fixed (a : Nat) (v : W32) (s : State) : (writePlain a v s).1.fixed = s.fixed := by simp [writePlain]

@[simp] theorem niWrite_fixed (d n o : Nat) (v : W32) (s : State) : (niWrite d n o v s).1.fixed = s.fixed := by
  fun_cases niWrite d n o v s <;> simp

@[simp] theorem feWrite_fixed (d o : Nat) (v : W32) (s : State) : (feWrite d o v s).1.fixed = s.fixed := by
  fun_cases feWrite d o v s <;> simp

@[simp] theorem laneWrite_fixed (d q o : Nat) (v : W32) (s : State) : (laneWrite d q o v s).1.fixed = s.fixed := by
  fun_cases laneWrite d q o v s <;> simp

@[simp] theorem State.relock_fixed (s : State) (b : Nat) (lanes : List Nat) : (s.relock b lanes).fixed = s.fixed := by
  simp [State.relock]

@[simp] theorem glLbWrite_fixed (d q : Nat) (v : W32) (s : State) : (glLbWrite d q v s).1.fixed = s.fixed := by simp [glLbWrite]

@[simp] theorem tpLoopWrite_fixed (p : Nat) (f : State → Answer) (s : State) (hf : ∀ t, (f t).1.fixed = t.fixed) :
    (tpLoopWrite p f s).1.fixed = s.fixed := by
  fun_cases tpLoopWrite p f s <;> simp +zetaDelta [hf]

@[simp] theorem portWrite_fixed (p o : Nat) (v : W32) (s : State) : (portWrite p o v s).1.fixed = s.fixed := by
  fun_cases portWrite p o v s <;> simp

@[simp] theorem coreWrite_fixed (n o : Nat) (v : W32) (s : State) : (coreWrite n o v s).1.fixed = s.fixed := by
  fun_cases coreWrite n o v s <;> simp

@[simp] theorem pendWrite_fixed (k : Nat) (v : W32) (s : State) : (pendWrite k v s).1.fixed = s.fixed := by simp [pendWrite]

@[simp] theorem eventWrite_fixed (o : Nat) (v : W32) (s : State) : (eventWrite o v s).1.fixed = s.fixed := by
  fun_cases eventWrite o v s <;> simp

@[simp] theorem patternWrite_fixed (m : Rm) (o : Nat) (v : W32) (s : State) : (patternWrite m o v s).1.fixed = s.fixed := by
  fun_cases patternWrite m o v s <;> simp

@[simp] theorem bankWrite_fixed (m : Rm) (o : Nat) (v : W32) (s : State) : (bankWrite m o v s).1.fixed = s.fixed := by
  fun_cases bankWrite m o v s <;> simp

@[simp] theorem dramWrite_fixed (d o : Nat) (v : W32) (s : State) : (dramWrite d o v s).1.fixed = s.fixed := by
  fun_cases dramWrite d o v s <;> simp

@[simp] theorem kmWrite_fixed (m : Rm) (o : Nat) (v : W32) (s : State) : (kmWrite m o v s).1.fixed = s.fixed := by
  fun_cases kmWrite m o v s <;> simp

@[simp] theorem qdrWrite_fixed (q o : Nat) (v : W32) (s : State) : (qdrWrite q o v s).1.fixed = s.fixed := by
  fun_cases qdrWrite q o v s <;> simp

@[simp] theorem debugWrite_fixed (m : Rm) (o : Nat) (v : W32) (s : State) : (debugWrite m o v s).1.fixed = s.fixed := by
  fun_cases debugWrite m o v s <;> simp

@[simp] theorem hubWrite_fixed (m : Rm) (b o : Nat) (v : W32) (s : State) : (hubWrite m b o v s).1.fixed = s.fixed := by
  fun_cases hubWrite m b o v s <;> simp

@[simp] theorem logicWrite_fixed (d b o : Nat) (v : W32) (s : State) : (logicWrite d b o v s).1.fixed = s.fixed := by
  fun_cases logicWrite d b o v s <;> simp

@[simp] theorem abWrite_fixed (n o : Nat) (v : W32) (s : State) : (abWrite n o v s).1.fixed = s.fixed := by
  fun_cases abWrite n o v s <;> simp

@[simp] theorem icWrite_fixed (n o : Nat) (v : W32) (s : State) : (icWrite n o v s).1.fixed = s.fixed := by
  fun_cases icWrite n o v s <;> simp

@[simp] theorem anaWrite_fixed (b o : Nat) (v : W32) (s : State) : (anaWrite b o v s).1.fixed = s.fixed := by
  fun_cases anaWrite b o v s <;> simp

@[simp] theorem regWrite_fixed (m : Rm) (a : Nat) (v : W32) (s : State) : (regWrite m a v s).1.fixed = s.fixed := by
  fun_cases regWrite m a v s <;> simp

@[simp] theorem ringTarget_fixed (m : Rm) (r : RingReq) (s : State) : (ringTarget m r s).1.fixed = s.fixed := by
  fun_cases ringTarget m r s <;> simp

@[simp] theorem State.ringComplete_fixed (s : State) (m : Rm) : (s.ringComplete m).fixed = s.fixed := by simp [State.ringComplete]
@[simp] theorem State.ringUnsure_fixed (s : State) (m : Rm) : (s.ringUnsure m).fixed = s.fixed := by simp [State.ringUnsure]

@[simp] theorem State.ringTick_fixed (s : State) : s.ringTick.fixed = s.fixed := by
  fun_cases State.ringTick s <;> simp

@[simp] theorem State.timeoutLoop_fixed (s : State) (l0 : Nat) : (s.timeoutLoop l0).fixed = s.fixed := by simp [State.timeoutLoop]

@[simp] theorem execRingShareMove_keeps (l : LinkId) (s : State) : Keeps s (execRingShareMove l s) := by
  fun_cases execRingShareMove l s <;> exact .next (by simp +zetaDelta)

@[simp] theorem State.remotePerform_fixed (s : State) (b : BitVec 120) : (s.remotePerform b).fixed = s.fixed := by
  simp [State.remotePerform]

@[simp] theorem execRemotePacketReceive_keeps (p : Fin 7) (s : State) : Keeps s (execRemotePacketReceive p s) := by
  fun_cases execRemotePacketReceive p s <;> exact .next (by simp +zetaDelta)

end Sys2Proof.Machine
end

section
/-! ### References, the test access ports and a tick: the fuses and the queue stay as they were (R13, R25) -/

namespace Sys2Proof.Machine

@[simp] theorem State.ringAbort_fixed (s : State) : s.ringAbort.fixed = s.fixed := by simp [State.ringAbort]
@[simp] theorem State.patternHalt_fixed (s : State) : s.patternHalt.fixed = s.fixed := by simp [State.patternHalt]

@[simp] theorem State.dramHalt_fixed (s : State) : s.dramHalt.fixed = s.fixed := by
  simp [State.dramHalt]

@[simp] theorem State.clockStop_fixed (s : State) (cause : Nat) : (s.clockStop cause).fixed = s.fixed := by simp [State.clockStop]
@[simp] theorem State.enterHold_fixed (s : State) : s.enterHold.fixed = s.fixed := by simp [State.enterHold]
@[simp] theorem State.recoveredLost_fixed (s : State) : s.recoveredLost.fixed = s.fixed := by simp [State.recoveredLost]
@[simp] theorem State.judgeRef_fixed (s : State) : s.judgeRef.fixed = s.fixed := by simp [State.judgeRef]

@[simp] theorem execRefQualified_keeps (recovered : Bool) (s : State) : Keeps s (execRefQualified recovered s) := by
  fun_cases execRefQualified recovered s <;> exact .next (by simp +zetaDelta)

@[simp] theorem execClockLossNoFallback_keeps (pllFault : Bool) (s : State) : Keeps s (execClockLossNoFallback pllFault s) := by
  fun_cases execClockLossNoFallback pllFault s <;> exact .next (by simp)

@[simp] theorem State.rimAck_fixed (s : State) : s.rimAck.fixed = s.fixed := by simp [State.rimAck]

@[simp] theorem State.debugReleased_fixed (s : State) (n : Nat) : (s.debugReleased n).fixed = s.fixed := by
  simp [State.debugReleased]

@[simp] theorem State.syncTaps_fixed (s : State) : s.syncTaps.fixed = s.fixed := by rfl
@[simp] theorem State.hubIntruded_fixed (s : State) : s.hubIntruded.fixed = s.fixed := by simp [State.hubIntruded]

@[simp] theorem State.rimWrite_fixed (s : State) (i : Nat) (v : W32) : (s.rimWrite i v).fixed = s.fixed := by
  simp [State.rimWrite]

@[simp] theorem State.setDieBist_fixed (s : State) (d : Nat) (x : DieBist) : (s.setDieBist d x).fixed = s.fixed := by rfl

@[simp] theorem State.scrambleFifo_fixed (s : State) (n : Nat) : (s.scrambleFifo n).fixed = s.fixed := by
  simp [State.scrambleFifo]

@[simp] theorem execD2dTestUpdate_keeps (v : BitVec 16) (s : State) : Keeps s (execD2dTestUpdate v s) := by
  fun_cases execD2dTestUpdate v s <;> exact .next (by simp +zetaDelta)

@[simp] theorem execD2dStep_keeps (wrong : List (Fin 2752)) (s : State) : Keeps s (execD2dStep wrong s) := by
  fun_cases execD2dStep wrong s <;> exact .next (by simp)

@[simp] theorem execD2dRunEnd_keeps (s : State) : Keeps s (execD2dRunEnd s) := by
  fun_cases execD2dRunEnd s <;> exact .next (by simp +zetaDelta)

@[simp] theorem execTpLbWrite_keeps (m : Rm) (p : Fin 6) (ret : Bool) (v : BitVec 2) (s : State) :
    Keeps s (execTpLbWrite m p ret v s) := by
  fun_cases execTpLbWrite m p ret v s <;> exact .next (by simp)

@[simp] theorem State.rimEdge_fixed (s : State) : s.rimEdge.fixed = s.fixed := by rfl
@[simp] theorem State.rimStep_fixed (s : State) : s.rimStep.fixed = s.fixed := by simp [State.rimStep]
@[simp] theorem State.advance_fixed (s : State) : s.advance.fixed = s.fixed := by rfl
@[simp] theorem State.hubTick_fixed (s : State) (k : Nat) : (s.hubTick k).fixed = s.fixed := by simp [State.hubTick]
@[simp] theorem State.dieTick_fixed (s : State) : s.dieTick.fixed = s.fixed := by simp [State.dieTick]
@[simp] theorem State.idle_fixed (s : State) : s.idle.fixed = s.fixed := by simp [State.idle]

end Sys2Proof.Machine
end

section
/-! ### Every command keeps the fuses and the queue -/

namespace Sys2Proof.Machine

/-- The split follows the meanings' branches: no condition, one or two conditions, and last the meanings with a lemma of their own
above. Each branch ends in `.next` of a composition of operations that keep the pair. -/
theorem exec_keeps (c : Instr) (s : State) : Keeps s (exec c s) := by
  cases c
  case powerOnReset | oscDlyExpiry | rootPllLock | revisionReadTimeout | slewEnd | recoveredRefLoss | localOscLoss |
      rimSrcValid | resumeHubClocks | resumeDieClocks | resumeUserOutputs | sscChange | fclkChange | timeMarkerSend |
      markerMissing | routerForwardScheduled | patternActionTick | tailEnd | patternTableWrite | psDataRead | headerAged |
      stallDetect | flitStageWrite | fifoFlush | flushBoundary | niDrainComplete | niDisableBoundary | spillEnable |
      spillReplay | linkDeskewDone | linkMaskAgreed | laneEqDone | lnAlignSlip | lnAlignDone | laneAlignTimeout |
      gatewayTimeout | glSlip | userEvent | regionHoldComplete | clearComplete | initNHigh | streamTimeout | nop | addOp |
      subOp | andOp | orOp | xorOp | shl | shr | sra | minOp | maxOp | addi | shli | shri | srai | movi | movhi | cmp | cmpi |
      sel | ldw | ldh | ldhu | ldb | stw | sth | stb | ldr | ldwp | stwp | stc | mac4 | mul4 | mac2 | mul2 | accrd | accwr |
      accclr | muls | brOp | bri | callOp | repOp | rotOp | reti | mts | mfs | sendAt | sendAtInject | sev | watchdogExpiry |
      bootGo | bankWakeComplete | qdrLbDone | dramInitComplete | trainingRunDone | throttleEnd | perBankRefresh |
      rowIdlePrecharge | kmFillStart | kmFillComplete | kmFlushComplete | kmRetireComplete | domainReady | eventOccurrence |
      collectorMessageSend | chainSelUpdate | haltDeferExpiry | forwardedClockLoss | quadPllLockLoss | refclkInterruption |
      ringCaptureDr | boundaryScanUpdate =>
    exact .ite (.next (by simp)) (.next rfl)
  case supplyDrop | ringAccessTimeout | registerWrite | trainingWordReceive | linkClockDetect | linkFrameLock |
      portAdmitScheduled | progNAssert | rtcFail | jtagRimUpdate | tapInstructionLoad | dieBistEnd =>
    exact .ite (.next rfl) (.next (by simp))
  case ringAccess | ringAccessComplete | deviceIdWrite | dieResetLogic | dieResetAnalog | refCtrlWrite | rimClkAck |
      sscCtrlWrite | fclkCfgWrite | tickSnap | tickLoadArm | tickCtrlMasterWrite | slotInject | egressCheck | sfPop |
      patternStart | patternSwap | patternStop | patternCancel | commitStart | creditReturn | niDisable | niForcedDisable |
      niDisableCancel | niEnable | niLoop | linkFence | linkUnfence | linkRetrain | linkClrCnt | portAccept | portQuiet |
      portRest | portRetrain | portDisable | portEnable | gatewayRead | gatewayWrite | streamSendGo | streamSendAbort |
      regionHold | regionRelease | brRgnWrite | prbSelWrite | cfgSdataWrite | streamNop | streamCrc | streamDeviceCode |
      streamFeature | streamFrameAddr | streamFdata | streamOptions | streamRegion | streamEbmAddr | streamEbmData | cmdNull |
      cmdStart | cmdHold | cmdRelease | cmdDesync | feLogPop | feLogStatWrite | feRbDataRead | feRbCapture | coreReset |
      coreRunWrite | imDataWrite | bankOwnerWrite | ccSelWrite | bistGo | bistAbort | dmaGo | dmaDisable | dmaEnable |
      qdrRetrain | qsDataWrite | qdrSlotDisable | qdrDisable | qdrEnable | qdrLbGo | qdrLbDepthWrite | dramInit |
      modeRegisterAccess | trainingRun | dramEnable | dramDisable | drLbWrite | drEccCtrlWrite | keyedMixEnable | kmFlush |
      kmRetire | kmSlotWrite | kmKeyWrite | metadataRead | metadataWrite | swapArm | swapCancel | abRun | abStop | abCal |
      abResultRead | abCalWrite | asDataWrite | afClkWrite | icRun | icStop | icCal | residueStart | icResultRead | pwrReq |
      rtcLoad | rtcSnap | vbatSwitchover | evOutClr | evOutCfgWrite | tapReset | dbgHalt | dbgResume | dbgStep |
      terminalTxWrite | terminalTxConsume | terminalRxWrite | terminalRxConsume | glLbWrite | refLoopWrite | rtcEdgesReturn |
      progNRelease =>
    exact .next (by simp)
  case freqMonAverage | egressPresent | qdrTrainEnd | refreshRatePoll | abTriggerEdge | rtcAlarm =>
    exact .ite (.ite (.next (by simp)) (.next (by simp))) (.next rfl)
  case fifoWrite | linkFrameReceive | laneTrainingSetReceive | exchangePositionReceive | scanFrame | jtagRingUpdate =>
    exact .ite (.next rfl) (.ite (.next (by simp)) (.next (by simp)))
  case xrd | xwr | dieBistStart =>
    exact .ite (.next rfl) (.ite (.next (by simp)) (.next rfl))
  all_goals simp [exec]

theorem exec_fuse_pending {c : Instr} {s t : State} (h : exec c s = .next t) : t.fuse = s.fuse ∧ t.pending = s.pending :=
  Prod.mk.inj (exec_keeps c s t h)

/-- Settles O5: a command keeps both, and a step has taken the front command from the queue before. -/
theorem commandsKeepFusesAndQueue : Obligations.CommandsKeepFusesAndQueue := by
  refine ⟨fun c s t => exec_fuse_pending, fun s t h => ?_⟩
  cases hp : s.pending with
  | nil =>
    simp only [step, hp] at h
    cases h
    simpa [hp] using Prod.mk.inj s.idle_fixed
  | cons c r =>
    simp only [step, hp] at h
    exact exec_fuse_pending h

end Sys2Proof.Machine
end

section
/-! ### Where an operation stays within given parts and registers

`State.Within` is the frame `State.keepsElse` together with the canonical form of the register table, which the next operation
needs; it is built operation by operation. -/

namespace Sys2Proof.Machine

/-- From `s` to `t` nothing outside the parts in `l`, the registers that `ok` admits and those that record events has changed, and
the register table is still canonical. -/
structure State.Within (s t : State) (l : List Part) (ok : Nat → Bool) : Prop where
  parts : ∀ p, p ∉ l → p.same s t
  wf : Tab.wf regReset s.regs = true → Tab.wf regReset t.regs = true
  regs : Tab.wf regReset s.regs = true → ∀ a, ok a = false → notice a = false → t.reg a = s.reg a

variable {s t u : State} {l l' : List Part} {ok ok' : Nat → Bool} {a : Nat} {f : Fld}

namespace State.Within

/-- The frame of the statements. -/
theorem keepsElse (h : s.Within t l ok) (hs : Tab.wf regReset s.regs = true) : s.keepsElse t l ok := ⟨h.parts, h.regs hs⟩

/-- A frame with the registers as they were. -/
theorem of_keepsElse (h : s.keepsElse t l ok) (hr : t.regs = s.regs) : s.Within t l ok :=
  ⟨h.1, fun hs => by rwa [hr], fun _ a ho hn => h.2 a ho hn⟩

theorem refl (s : State) (l : List Part) (ok : Nat → Bool) : s.Within s l ok := of_keepsElse (s.keepsElse_refl l ok) rfl

theorem trans (h : s.Within t l ok) (k : t.Within u l ok) : s.Within u l ok where
  parts p hp := Part.same_trans (h.parts p hp) (k.parts p hp)
  wf hs := k.wf (h.wf hs)
  regs hs a ho hn := (k.regs (h.wf hs) a ho hn).trans (h.regs hs a ho hn)

theorem mono (h : s.Within t l ok) (hl : l ⊆ l') (ho : ∀ a, ok a = true → ok' a = true) : s.Within t l' ok' where
  parts p hp := h.parts p (fun hm => hp (hl hm))
  wf := h.wf
  regs hs a ha hn := h.regs hs a (by by_contra hc; simp [ho a (by simpa using hc)] at ha) hn

theorem ite {p : Prop} [Decidable p] (ht : s.Within t l ok) (hu : s.Within u l ok) : s.Within (if p then t else u) l ok := by
  split
  · exact ht
  · exact hu

theorem foldl {α : Type} {g : State → α → State} {x : List α} (h : s.Within t l ok)
    (hg : ∀ v : State, ∀ b ∈ x, v.Within (g v b) l ok) : s.Within (x.foldl g t) l ok := by
  induction x generalizing t with
  | nil => exact h
  | cons b r ih => exact ih (h.trans (hg t b List.mem_cons_self)) (fun v c hc => hg v c (List.mem_cons_of_mem b hc))

/-! #### One part -/

/-- An update that leaves the registers alone and every part outside `l`. -/
theorem put (h : s.Within t l ok) (hp : ∀ p, p ∉ l → p.same t u) (hr : u.regs = t.regs) : s.Within u l ok :=
  h.trans (of_keepsElse ⟨hp, fun a _ _ => by simp [State.reg, hr]⟩ hr)

theorem put_hw (h : s.Within t l ok) {x} (hl : .hw ∈ l := by decide) : s.Within { t with hw := x } l ok := by
  refine h.put (fun p hp => ?_) rfl
  cases p
  case hw => exact absurd hl hp
  case mem => exact fun _ => rfl
  all_goals rfl
theorem put_dieReset (h : s.Within t l ok) {x} (hl : .dieReset ∈ l := by decide) : s.Within { t with dieReset := x } l ok := by
  refine h.put (fun p hp => ?_) rfl
  cases p
  case dieReset => exact absurd hl hp
  case mem => exact fun _ => rfl
  all_goals rfl
theorem put_share1 (h : s.Within t l ok) {x} (hl : .share1 ∈ l := by decide) : s.Within { t with share1 := x } l ok := by
  refine h.put (fun p hp => ?_) rfl
  cases p
  case share1 => exact absurd hl hp
  case mem => exact fun _ => rfl
  all_goals rfl
theorem put_pins (h : s.Within t l ok) {x} (hl : .pins ∈ l := by decide) : s.Within { t with pins := x } l ok := by
  refine h.put (fun p hp => ?_) rfl
  cases p
  case pins => exact absurd hl hp
  case mem => exact fun _ => rfl
  all_goals rfl
theorem put_ev (h : s.Within t l ok) {x} (hl : .ev ∈ l := by decide) : s.Within { t with ev := x } l ok := by
  refine h.put (fun p hp => ?_) rfl
  cases p
  case ev => exact absurd hl hp
  case mem => exact fun _ => rfl
  all_goals rfl
theorem put_pat (h : s.Within t l ok) {x} (hl : .pat ∈ l := by decide) : s.Within { t with pat := x } l ok := by
  refine h.put (fun p hp => ?_) rfl
  cases p
  case pat => exact absurd hl hp
  case mem => exact fun _ => rfl
  all_goals rfl
theorem put_be (h : s.Within t l ok) {x} (hl : .be ∈ l := by decide) : s.Within { t with be := x } l ok := by
  refine h.put (fun p hp => ?_) rfl
  cases p
  case be => exact absurd hl hp
  case mem => exact fun _ => rfl
  all_goals rfl
theorem put_nis (h : s.Within t l ok) {x} (hl : .nis ∈ l := by decide) : s.Within { t with nis := x } l ok := by
  refine h.put (fun p hp => ?_) rfl
  cases p
  case nis => exact absurd hl hp
  case mem => exact fun _ => rfl
  all_goals rfl
theorem put_lms (h : s.Within t l ok) {x} (hl : .lms ∈ l := by decide) : s.Within { t with lms := x } l ok := by
  refine h.put (fun p hp => ?_) rfl
  cases p
  case lms => exact absurd hl hp
  case mem => exact fun _ => rfl
  all_goals rfl
theorem put_ports (h : s.Within t l ok) {x} (hl : .ports ∈ l := by decide) : s.Within { t with ports := x } l ok := by
  refine h.put (fun p hp => ?_) rfl
  cases p
  case ports => exact absurd hl hp
  case mem => exact fun _ => rfl
  all_goals rfl
theorem put_lanes (h : s.Within t l ok) {x} (hl : .lanes ∈ l := by decide) : s.Within { t with lanes := x } l ok := by
  refine h.put (fun p hp => ?_) rfl
  cases p
  case lanes => exact absurd hl hp
  case mem => exact fun _ => rfl
  all_goals rfl
theorem put_cfg (h : s.Within t l ok) {x} (hl : .cfg ∈ l := by decide) : s.Within { t with cfg := x } l ok := by
  refine h.put (fun p hp => ?_) rfl
  cases p
  case cfg => exact absurd hl hp
  case mem => exact fun _ => rfl
  all_goals rfl
theorem put_ana (h : s.Within t l ok) {x} (hl : .ana ∈ l := by decide) : s.Within { t with ana := x } l ok := by
  refine h.put (fun p hp => ?_) rfl
  cases p
  case ana => exact absurd hl hp
  case mem => exact fun _ => rfl
  all_goals rfl

/-! #### One register -/

theorem resetRegs (h : s.Within t l ok) {p : Nat → Bool} (ho : ∀ b, p b = true → ok b = true) :
    s.Within (t.resetRegs p) l ok := by
  refine h.trans ⟨fun q _ => ?_, fun hs => State.resetRegs_wf hs p, fun hs b hb _ => ?_⟩
  · cases q
    case mem => exact fun _ => rfl
    all_goals rfl
  · rw [State.resetRegs_reg hs, if_neg fun hp => by simp [ho b hp] at hb]

theorem setReg (h : s.Within t l ok) {v : W32} (ha : ok a = true ∨ notice a = true) : s.Within (t.setReg a v) l ok := by
  refine h.trans ⟨fun p _ => ?_, fun hs => State.setReg_wf hs a v, fun hs b hb hn => State.setReg_reg_ne hs ?_ v⟩
  · cases p
    case mem => exact fun _ => rfl
    all_goals rfl
  · rintro rfl
    simp [hb, hn] at ha

theorem setFld (h : s.Within t l ok) {n : Nat} (ha : ok a = true ∨ notice a = true) : s.Within (t.setFld a f n) l ok :=
  h.setReg ha

theorem hwMark (h : s.Within t l ok) {v : W32} (hl : .hw ∈ l := by decide) : s.Within (t.hwMark a v) l ok := h.put_hw hl

theorem setBit (h : s.Within t l ok) {b : Bool} (ha : ok a = true ∨ notice a = true) (hl : .hw ∈ l := by decide) :
    s.Within (t.setBit a f b) l ok :=
  ite ((h.setFld ha).hwMark hl) (h.setFld ha)

theorem satInc (h : s.Within t l ok) (ha : ok a = true ∨ notice a = true) (hl : .hw ∈ l := by decide) :
    s.Within (t.satInc a f) l ok :=
  hwMark (ite (h.setFld ha) h) hl

/-! #### Events -/

theorem raiseCore (h : s.Within t l ok) {e : Nat} (he : e < 2048) (hw : .hw ∈ l := by decide) (hv : .ev ∈ l := by decide) :
    s.Within (t.raiseCore e) l ok := by
  have hn : notice (aEV_RAW (e / 32)) = true := by
    have hr : aEV_RAW 0 ≤ aEV_RAW (e / 32) ∧ aEV_RAW (e / 32) ≤ aEV_RAW 63 := by
      simp only [aEV_RAW, ra]
      omega
    simp [notice, hr]
  have hb := h.setBit (f := ⟨e % 32, 1⟩) (b := true) (.inr hn) hw
  simp only [State.raiseCore]
  generalize t.setBit (aEV_RAW (e / 32)) ⟨e % 32, 1⟩ true = u at hb
  obtain ⟨x, y, hx⟩ := State.pendCores_shape u (List.range 8)
    (fun n => (getF (u.reg (aEV_ROUTE e)) fEV_ROUTE_CORES).testBit n) e
  rw [hx]
  have hp := (hb.put_ev (x := x) hv).put_hw (x := y) hw
  split
  · obtain ⟨z, hz⟩ := State.outOccur_shape { u with ev := x, hw := y } (getF (u.reg (aEV_ROUTE e)) fEV_ROUTE_OUT)
    rw [hz]
    exact hp.put_ev hv
  · exact hp

theorem queueMsg (h : s.Within t l ok) {e : Nat} (hw : .hw ∈ l := by decide) (hv : .ev ∈ l := by decide) :
    s.Within (t.queueMsg e) l ok := by
  have hn : notice aEV_STAT = true := by decide
  simp only [State.queueMsg]
  split
  · exact h
  · refine ite (h.put_ev hv) (ite ?_ (h.satInc (.inr hn) hw))
    split
    · exact (h.satInc (.inr hn) hw).raiseCore (by decide) hw hv
    · exact ((h.satInc (.inr hn) hw).raiseCore (by decide) hw hv).satInc (.inr hn) hw

theorem raise (h : s.Within t l ok) {e : Nat} (he : e < 2048) (hw : .hw ∈ l := by decide) (hv : .ev ∈ l := by decide) :
    s.Within (t.raise e) l ok :=
  ite (h.put_ev hv) ((h.raiseCore he hw hv).queueMsg hw hv)

theorem flagRaise (h : s.Within t l ok) {e : Nat} (ha : ok a = true ∨ notice a = true) (he : e < 2048)
    (hw : .hw ∈ l := by decide) (hv : .ev ∈ l := by decide) : s.Within (t.flagRaise a f e) l ok :=
  ite (h.hwMark hw) ((h.setBit ha hw).raise he hw hv)

theorem syncBreach (h : s.Within t l ok) (hw : .hw ∈ l := by decide) (hv : .ev ∈ l := by decide) :
    s.Within t.syncBreach l ok := by
  have hb : s.Within (t.setReg aBREACH_SUM t.breachWord) l ok := h.setReg (.inr (by decide))
  exact ite h (ite ((ite (hb.raise (by decide) hw hv) hb).raise (by decide) hw hv) (ite (hb.raise (by decide) hw hv) hb))

end State.Within

end Sys2Proof.Machine
end

section
/-! ### What the training of die-link modules changes (R138 to R146) -/

namespace Sys2Proof.Machine

/-- The parts that leaving `RUN` and training a module reach. -/
def trainParts : List Part := [.hw, .ev, .be, .lms, .ports]

/-- The registers that a module's training writes. -/
def trainRegs (b : Nat) : List Nat := [aLM_STATUS b, aLM_ERR b, aLM_COUNT b]

/-- Those registers are among the module's, on its die. -/
theorem linkReg_of_trainRegs : ∀ b ∈ allModules, ∀ a ∈ trainRegs b,
    linkReg a = true ∧ a / 4294967296 = b / 4294967296 := by
  decide +kernel

theorem lmEvent_lt : ∀ b ∈ allModules, lmEvent b < 2048 := by decide +kernel

/-- A module that another die drives is received on the die that holds its registers. -/
theorem rxDieOf_of_txDieOf_ne : ∀ b ∈ allModules, txDieOf b ≠ b / 4294967296 → rxDieOf b = b / 4294967296 := by
  decide +kernel

variable {s t : State} {ok : Nat → Bool} {b : Nat}

theorem State.Within.setLm (h : s.Within t trainParts ok) {x : Lm} : s.Within (t.setLm b x) trainParts ok := h.put_lms

theorem State.Within.freePlaces (h : s.Within t trainParts ok) {x : BeItem} {i m : Nat} :
    s.Within (t.freePlaces x i m) trainParts ok := by
  fun_cases State.freePlaces t x i m
  case case1 => exact h.put_be.put_ports
  case case3 => exact h.foldl fun v c _ => (State.Within.refl v _ _).put_be
  case case5 => exact h.put_be
  all_goals exact h

theorem State.Within.freeItem (h : s.Within t trainParts ok) {x : BeItem} : s.Within (t.freeItem x) trainParts ok :=
  h.freePlaces.put_be

theorem State.Within.dropPartial (h : s.Within t trainParts ok) {n : Nat} : s.Within (t.dropPartial b n) trainParts ok :=
  (h.foldl fun v _ _ => (State.Within.refl v _ _).freeItem).put_be.setLm

theorem State.Within.zeroCredits (h : s.Within t trainParts ok) : s.Within (t.zeroCredits b) trainParts ok := by
  refine h.foldl fun v c _ => ?_
  have hv := State.Within.refl v trainParts ok
  split
  · exact hv
  · exact hv.setLm.put_be

theorem State.Within.lmStop (h : s.Within t trainParts ok) {m n : Nat} : s.Within (t.lmStop b m n) trainParts ok :=
  State.Within.ite h.setLm.setLm.dropPartial.zeroCredits h.setLm.setLm

section Module
variable (hb : b ∈ allModules) (ho : ∀ a ∈ trainRegs b, ok a = true)
include hb ho

theorem State.Within.trainModule (h : s.Within t trainParts ok) {m n : Nat} :
    s.Within (t.trainModule b m n) trainParts ok := by
  have hs : ok (aLM_STATUS b) = true := ho _ (by simp [trainRegs])
  have he : ok (aLM_ERR b) = true := ho _ (by simp [trainRegs])
  have hc : ok (aLM_COUNT b) = true := ho _ (by simp [trainRegs])
  have h1 : s.Within (((t.lmStop b m n).satInc (aLM_COUNT b) fLM_COUNT_TRAINS).lmGo b 1) trainParts ok :=
    ((h.lmStop.satInc (.inl hc)).setFld (.inl hs)).setLm
  exact (h1.flagRaise (.inl he) (lmEvent_lt b hb)).setLm

end Module

/-- The registers of modules that `loseLock` reaches: those on other dies that are not in reset. -/
def State.losesLock (s : State) (d a : Nat) : Bool :=
  linkReg a && a / 4294967296 != d && !s.inReset (a / 4294967296)

theorem State.loseLock_within (s : State) (d : Nat) : s.Within (s.loseLock d) trainParts (s.losesLock d) := by
  refine ((State.Within.refl s _ _).foldl fun v b hb => ?_).syncBreach
  simp only [List.mem_filter, Bool.and_eq_true, beq_iff_eq, bne_iff_ne, Bool.not_eq_eq_eq_not, Bool.not_true] at hb
  obtain ⟨hm, ⟨htx, hd⟩, hr⟩ := hb
  have ho : ∀ a ∈ trainRegs b, s.losesLock d a = true := by
    intro a ha
    obtain ⟨hl, hdie⟩ := linkReg_of_trainRegs b hm a ha
    have hrx := rxDieOf_of_txDieOf_ne b hm (by rw [htx]; exact fun e => hd e.symm)
    rw [hrx] at hr
    simp [State.losesLock, hl, hdie, hd, hr]
  exact (((State.Within.refl v _ _).setFld (.inl (ho _ (by simp [trainRegs])))).trainModule hm ho).setLm

/-- A die whose reset ends trains the modules at its edges. -/
theorem State.trainDieLinks_within (s : State) (d : Nat) : s.Within (s.trainDieLinks d) trainParts linkReg := by
  refine ((State.Within.refl s _ _).foldl fun v b hb => ?_).syncBreach
  have hm := List.mem_of_mem_filter hb
  have ho : ∀ a ∈ trainRegs b, linkReg a = true := fun a ha => (linkReg_of_trainRegs b hm a ha).1
  have hv := (State.Within.refl v trainParts linkReg).setFld (f := fLM_STATUS_MISMATCH) (n := 0)
    (.inl (ho (aLM_STATUS b) (by simp [trainRegs])))
  exact State.Within.ite hv.setLm (hv.trainModule hm ho)

end Sys2Proof.Machine
end

section
/-! ### What a die reset does, stage by stage (R27, R66) -/

namespace Sys2Proof.Machine

variable {s t : State} {ok : Nat → Bool} {d : Nat}

/-! #### Accesses of the ring masters -/

/-- The parts that the end of an access reaches. -/
def finishParts : List Part := [.ringCore, .ringDebug, .ringConfig, .cores, .free, .ports, .remoteIn]

theorem State.Within.ringFinish (h : s.Within t finishParts ok) {m : Rm} {st : RStat} {v : W32} :
    s.Within (t.ringFinish m st v) finishParts ok := by
  have hk := State.Within.of_keepsElse (t.ringFinish_keepsElse m st v) (t.ringFinish_regs m st v)
  exact h.trans (hk.mono (by cases m <;> decide) (by simp))

/-- Accesses to the die end with `TIMEOUT`. -/
def State.endAccesses (s : State) (d : Nat) : State :=
  [Rm.core0, Rm.debug, Rm.config].foldl (fun t m =>
    let r := t.master m
    if r.busy && r.req.die == d then t.ringFinish m .timeout 0#32 else t) s

theorem State.endAccesses_within (s : State) (d : Nat) : s.Within (s.endAccesses d) finishParts ok :=
  (State.Within.refl s _ _).foldl fun v _ _ => State.Within.ite (State.Within.refl v _ _).ringFinish (State.Within.refl v _ _)

/-! #### A stream that loads the die -/

/-- The parts that the end of a stream reaches. -/
def streamParts : List Part := [.hw, .ev, .ports, .cfg, .pins]

/-- The registers of the controller that a failed stream writes. -/
def streamRegs : List Nat := [aCFG_STATUS, aCFG_FAIL_WORD, aCFG_FAIL_FA, aCFG_DIES]

theorem State.Within.flushPort (h : s.Within t streamParts ok) {p : Nat} : s.Within (t.flushPort p) streamParts ok :=
  State.Within.ite h h.put_ports

theorem State.Within.dropUnsynced (h : s.Within t streamParts ok) : s.Within t.dropUnsynced streamParts ok :=
  (h.foldl fun v _ _ => (State.Within.refl v _ _).flushPort).put_cfg

theorem among_streamRegs :
    among streamRegs aCFG_STATUS = true ∧ among streamRegs aCFG_FAIL_WORD = true ∧ among streamRegs aCFG_FAIL_FA = true ∧
      among streamRegs aCFG_DIES = true := by decide

theorem State.Within.endStream (h : s.Within t streamParts (among streamRegs)) {n : Nat} :
    s.Within (t.endStream n) streamParts (among streamRegs) := by
  have hs := Or.inl (b := notice aCFG_STATUS = true) among_streamRegs.1
  unfold State.endStream
  exact (((h.setFld hs).setFld hs).put_cfg.setFld hs).dropUnsynced

theorem State.Within.cfgFail (h : s.Within t streamParts (among streamRegs)) {n : Nat} :
    s.Within (t.cfgFail n) streamParts (among streamRegs) := by
  obtain ⟨hs, hw, hf, hd⟩ := among_streamRegs
  unfold State.cfgFail
  have h1 := ((h.endStream (n := 5)).setFld (f := fCFG_STATUS_CAUSE) (n := n) (.inl hs)).setReg (v := t.reg aCFG_WORDS) (.inl hw)
  have h2 := (h1.setReg (v := t.cfg.frameAddr) (.inl hf))
  refine State.Within.raise ?_ (by decide)
  refine State.Within.put_pins (State.Within.setBit (State.Within.put_cfg (h2.foldl fun v d _ => ?_)) (.inl hs))
  have hv := State.Within.refl v streamParts (among streamRegs)
  exact State.Within.ite (hv.setFld (.inl hd)).put_cfg hv

/-- A stream that loads the die fails. -/
def State.failLoading (s : State) (d : Nat) : State :=
  if s.cfgState = 3 ∧ (s.dieState d = 1 ∨ (faOf s.cfg.frameAddr).die = d) then s.cfgFail 0xC else s

theorem State.failLoading_within (s : State) (d : Nat) : s.Within (s.failLoading d) streamParts (among streamRegs) :=
  State.Within.ite (State.Within.refl s _ _).cfgFail (State.Within.refl s _ _)

end Sys2Proof.Machine
end

section
/-! ### What a die holds is emptied (R27, R66) -/

namespace Sys2Proof.Machine

variable {s t : State} {ok : Nat → Bool} {d a : Nat}

/-! #### The tables of the pattern -/

/-- The parts that the tables of the pattern stand in. -/
def tableParts : List Part := [.hw, .pat]

theorem State.Within.setOk (h : s.Within t tableParts ok) (ho : ok aPAT_STATUS = true) {b : Nat} {v : Bool} :
    s.Within (t.setOk b d v) tableParts ok := h.put_pat.setFld (.inl ho)

/-- The commit status of a die stands with the pattern's registers. -/
theorem inBlock_aPS_CSTAT (hd : d < 8) : inBlock 6 0x300 (aPS_CSTAT d) = true := by interval_cases d <;> rfl

theorem State.Within.abandonCommit (h : s.Within t tableParts (inBlock 6 0x300)) (hd : d < 8) :
    s.Within (t.abandonCommit d) tableParts (inBlock 6 0x300) :=
  State.Within.ite ((h.put_pat.setReg (.inl (inBlock_aPS_CSTAT hd))).setOk (by decide)) h

theorem State.loseTables_within (s : State) (hd : d < 8) : s.Within (s.loseTables d) tableParts (inBlock 6 0x300) := by
  have ha := (State.Within.refl s tableParts (inBlock 6 0x300)).abandonCommit hd
  refine State.Within.ite (State.Within.setBit ?_ (.inl (inBlock_aPS_CSTAT hd))) ?_ <;>
    exact (ha.put_pat.setOk (by decide)).setOk (by decide)

@[simp] theorem State.setOk_store (s : State) (b d : Nat) (v : Bool) : (s.setOk b d v).pat.store = s.pat.store := rfl

/-- The entries of the die are the ones that leave the store. -/
theorem State.loseTables_store (s : State) (d : Nat) :
    (s.loseTables d).pat.store = tkeep (fun k => psKeyDie k != d) s.pat.store := by
  have ha : (s.abandonCommit d).pat.store = s.pat.store := by
    simp only [State.abandonCommit]
    split <;> rfl
  simp only [State.loseTables]
  split <;> simp [ha]

/-- The records of a die's links and lanes are lost, and it is held in reset from now. -/
def State.holdDie (s : State) (d : Nat) : State :=
  { s with lms := tkeep (fun k => !dieReg d k) s.lms, lanes := tkeep (fun k => !dieReg d k) s.lanes
           share1 := tkeep (fun k => !dieReg d k) s.share1
           dieReset := tput (fun _ => none) s.dieReset d (some s.now) }

/-- A die loses its tables, its traffic, its registers, its configuration and its records, and is held in reset. -/
def State.emptyDie (s : State) (d : Nat) : State :=
  (((((s.loseTables d).loseNis d).purgeFlight d).resetRegs (dieReg d)).unconfigure d).holdDie d

/-- The parts that emptying a die reaches. -/
def emptyParts : List Part := [.hw, .pat, .nis, .be, .cfg, .lms, .lanes, .share1, .dieReset]

/-- The registers that emptying a die reaches. -/
def emptyRegs (d a : Nat) : Bool := dieReg d a || inBlock 6 0x300 a || among [aCFG_DIES] a

theorem State.Within.loseNis (h : s.Within t emptyParts ok) : s.Within (t.loseNis d) emptyParts ok :=
  (h.put_nis (x := tkeep (fun k => k / 64 != d) t.nis)).put_be

theorem State.Within.purgeFlight (h : s.Within t emptyParts ok) : s.Within (t.purgeFlight d) emptyParts ok := h.put_pat

theorem State.Within.unconfigure {l : List Part} (h : s.Within t l ok) (ho : ok aCFG_DIES = true)
    (hl : .cfg ∈ l := by decide) : s.Within (t.unconfigure d) l ok :=
  ((h.put_cfg hl).setFld (.inl ho)).put_cfg hl

theorem State.Within.holdDie (h : s.Within t emptyParts ok) : s.Within (t.holdDie d) emptyParts ok :=
  (((h.put_lms (x := tkeep (fun k => !dieReg d k) t.lms)).put_lanes (x := tkeep (fun k => !dieReg d k) t.lanes)).put_share1
    (x := tkeep (fun k => !dieReg d k) t.share1)).put_dieReset

theorem State.emptyDie_within (s : State) (hd : d < 8) : s.Within (s.emptyDie d) emptyParts (emptyRegs d) := by
  have h := (s.loseTables_within hd).mono (l' := emptyParts) (ok' := emptyRegs d) (by decide) (by simp_all [emptyRegs])
  have hr := ((h.loseNis (d := d)).purgeFlight (d := d)).resetRegs (p := dieReg d) (by simp_all [emptyRegs])
  have hu := hr.unconfigure (d := d) (by simp [emptyRegs, among])
  exact hu.holdDie

/-- The die's registers read their reset values. -/
theorem State.emptyDie_reg (hs : Tab.wf regReset s.regs = true) (hd : d < 8) (h6 : d ≠ 6) (ha : dieReg d a = true) :
    (s.emptyDie d).reg a = regReset a := by
  have hw := (s.loseTables_within hd).wf hs
  have hne : a ≠ aCFG_DIES := by
    rintro rfl
    exact h6 (Eq.symm (by simpa [dieReg, aCFG_DIES, ra] using ha))
  calc (s.emptyDie d).reg a = ((s.loseTables d).resetRegs (dieReg d)).reg a :=
        State.setReg_reg_ne (s := (s.loseTables d).resetRegs (dieReg d)) (State.resetRegs_wf hw _) hne _
    _ = regReset a := by rw [State.resetRegs_reg hw, if_pos ha]

theorem State.emptyDie_dieReset (s : State) (hd : d < 8) :
    (s.emptyDie d).dieReset = tput (fun _ => none) s.dieReset d (some s.now) := by
  have hr : (s.loseTables d).dieReset = s.dieReset := (s.loseTables_within hd).parts .dieReset (by decide)
  have hc : (s.loseTables d).clk = s.clk := (s.loseTables_within hd).parts .clk (by decide)
  calc (s.emptyDie d).dieReset = tput (fun _ => none) (s.loseTables d).dieReset d (some (s.loseTables d).clk.now) := rfl
    _ = tput (fun _ => none) s.dieReset d (some s.now) := by rw [hr, hc, State.now]

theorem State.emptyDie_store (s : State) (d : Nat) :
    (s.emptyDie d).pat.store = tkeep (fun k => psKeyDie k != d) s.pat.store := s.loseTables_store d

end Sys2Proof.Machine
end

section
/-! ### A die reset as a whole (R27, R66, R345) -/

namespace Sys2Proof.Machine

variable {s t : State} {d e a : Nat}

/-- The die's rows after the reset: A's units are empty; a logic die's configuration is not `DONE`. -/
def State.dropDone (s : State) (d : Nat) : State :=
  if d = 7 then { s with ana := Ana.empty }
  else { s.setBit aCFG_STATUS fCFG_STATUS_DONE false with pins := { s.pins with done := false } }

/-- A die reset stage by stage. -/
theorem State.resetDie_eq (s : State) (d : Nat) :
    s.resetDie d = ((((((s.endAccesses d).failLoading d).emptyDie d).loseLock d).dropDone d).awaitRejoin d) := by
  simp only [State.resetDie, State.dropDone]
  rfl

theorem State.dropDone_within (s : State) (d : Nat) : s.Within (s.dropDone d) [.hw, .pins, .ana] (among [aCFG_STATUS]) :=
  State.Within.ite (State.Within.refl s _ _).put_ana ((State.Within.refl s _ _).setBit (.inl (by decide))).put_pins

theorem State.awaitRejoin_within (s : State) (d : Nat) : s.Within (s.awaitRejoin d) [.hw, .ev, .pat] (inBlock 6 0x300) :=
  ((State.Within.refl s _ _).put_pat.setFld (.inl (by decide))).syncBreach

/-- The summary of breaches stands in a register; the pattern is as it was. -/
@[simp] theorem State.syncBreach_pat (s : State) : s.syncBreach.pat = s.pat :=
  ((State.Within.refl s [.hw, .ev] fun _ => false).syncBreach).parts .pat (by decide)

theorem State.awaitRejoin_pat (s : State) (d : Nat) :
    (s.awaitRejoin d).pat = { s.pat with rejoin := s.pat.rejoin ||| BitVec.ofNat 8 (2 ^ d) } := by
  simp only [State.awaitRejoin, State.syncBreach_pat]
  rfl

theorem State.awaitRejoin_awaits (s : State) (hd : d < 8) : (s.awaitRejoin d).awaits d = true := by
  simp only [State.awaits, State.awaitRejoin_pat, BitVec.testBit_toNat, BitVec.getLsbD_or, BitVec.getLsbD_ofNat]
  simp [hd]

/-! #### Registers by die -/

theorem inBlock_die {b : Nat} (hb : b < 65536) (h : inBlock d b a = true) : a / 4294967296 = d := by
  simp only [inBlock, beq_iff_eq] at h
  omega

/-- The registers that record events stand on H. -/
theorem notice_die (h : notice a = true) : a / 4294967296 = 6 := by
  simp only [notice, Bool.or_eq_true, Bool.and_eq_true, decide_eq_true_eq, beq_iff_eq] at h
  simp only [aEV_RAW, aEV_STAT, aBREACH_SUM, ra] at h
  omega

theorem among_streamRegs_die (h : among streamRegs a = true) : a / 4294967296 = 6 := by
  simp only [among, streamRegs, List.contains_eq_mem, decide_eq_true_eq] at h
  fin_cases h <;> rfl

/-- Off H there is no register that records events, none of the controller, and none of the pattern. -/
theorem apart_of_die_ne (h : a / 4294967296 ≠ 6) :
    notice a = false ∧ among streamRegs a = false ∧ inBlock 6 0x300 a = false :=
  ⟨Bool.eq_false_iff.2 fun hn => h (notice_die hn), Bool.eq_false_iff.2 fun hc => h (among_streamRegs_die hc),
    Bool.eq_false_iff.2 fun hb => h (inBlock_die (by decide) hb)⟩

/-! #### The records of resets -/

theorem State.inReset_of_put (hs : Tab.wf (fun _ => none) s.dieReset = true) {n : Option Nat}
    (h : t.dieReset = tput (fun _ => none) s.dieReset d n) : t.inReset e = if e = d then n != none else s.inReset e := by
  unfold State.inReset
  rw [h]
  split
  · next he => rw [he, tget_tput_same hs]
  · next he => rw [tget_tput_ne hs he]

/-- The stages up to the emptied die record its reset alone. -/
theorem State.emptied_dieReset (s : State) (hd : d < 8) :
    (((s.endAccesses d).failLoading d).emptyDie d).dieReset = tput (fun _ => none) s.dieReset d (some s.now) := by
  have ha := s.endAccesses_within (ok := fun _ => false) d
  have hf := (s.endAccesses d).failLoading_within d
  have hr : ((s.endAccesses d).failLoading d).dieReset = s.dieReset :=
    Eq.trans (hf.parts .dieReset (by decide)) (ha.parts .dieReset (by decide))
  have hc : ((s.endAccesses d).failLoading d).clk = s.clk := Eq.trans (hf.parts .clk (by decide)) (ha.parts .clk (by decide))
  rw [State.emptyDie_dieReset _ hd, hr, State.now, hc, State.now]

theorem State.resetDie_dieReset (s : State) (hd : d < 8) :
    (s.resetDie d).dieReset = tput (fun _ => none) s.dieReset d (some s.now) := by
  rw [s.resetDie_eq d, ← s.emptied_dieReset hd]
  generalize ((s.endAccesses d).failLoading d).emptyDie d = t
  have hl : (t.loseLock d).dieReset = t.dieReset := (t.loseLock_within d).parts .dieReset (by decide)
  have hp : ((t.loseLock d).dropDone d).dieReset = (t.loseLock d).dieReset :=
    (State.dropDone_within _ d).parts .dieReset (by decide)
  exact Eq.trans ((State.awaitRejoin_within _ d).parts .dieReset (by decide)) (hp.trans hl)

/-! #### Registers -/

/-- The registers that the stages of a reset of die d reach beside the die's own. -/
def State.resetSpill (s : State) (d a : Nat) : Bool := among streamRegs a || inBlock 6 0x300 a || s.losesLock d a

/-- The registers that a reset of die d reaches. -/
def State.resetReach (s : State) (d a : Nat) : Bool := dieReg d a || s.resetSpill d a

theorem State.resetSpill_eq_true :
    s.resetSpill d a = true ↔ among streamRegs a = true ∨ inBlock 6 0x300 a = true ∨ s.losesLock d a = true := by
  simp only [State.resetSpill, Bool.or_eq_true, or_assoc]

theorem State.resetReach_eq_true : s.resetReach d a = true ↔ dieReg d a = true ∨ s.resetSpill d a = true := by
  simp only [State.resetReach, Bool.or_eq_true]

/-- Every part. -/
def everyPart : List Part := [.clk, .ringCore, .ringDebug, .ringConfig, .hw, .dieReset, .share1, .fuse, .pins, .pwr, .ev, .pat,
  .be, .nis, .lms, .mq, .rsps, .ports, .lanes, .gws, .remoteIn, .cfg, .cores, .banks, .qdrs, .qdrSvc, .dsets, .km, .ana, .tap,
  .mem, .free, .pending]

theorem mem_everyPart (p : Part) : p ∈ everyPart := by cases p <;> decide

/-- What the stages before the emptied die reach. -/
theorem State.beforeEmpty_within (s : State) (d : Nat) :
    s.Within ((s.endAccesses d).failLoading d) everyPart (among streamRegs) :=
  ((s.endAccesses_within d).mono (fun p _ => mem_everyPart p) (fun _ => id)).trans
    (((s.endAccesses d).failLoading_within d).mono (fun p _ => mem_everyPart p) (fun _ => id))

/-- What the stages after the emptied die reach. -/
theorem State.afterEmpty_within (s : State) (d : Nat) :
    s.Within (((s.loseLock d).dropDone d).awaitRejoin d) everyPart (s.resetSpill d) := by
  have hl := (s.loseLock_within d).mono (l' := everyPart) (ok' := s.resetSpill d) (fun p _ => mem_everyPart p)
    fun a ha => State.resetSpill_eq_true.2 (.inr (.inr ha))
  have hp := ((s.loseLock d).dropDone_within d).mono (l' := everyPart) (ok' := s.resetSpill d) (fun p _ => mem_everyPart p)
    fun a ha => State.resetSpill_eq_true.2 (.inl (by simp_all [among, streamRegs]))
  exact (hl.trans hp).trans ((State.awaitRejoin_within _ d).mono (fun p _ => mem_everyPart p)
    fun a ha => State.resetSpill_eq_true.2 (.inr (.inl ha)))

theorem State.resetDie_within (hs : Tab.wf (fun _ => none) s.dieReset = true) (hd : d < 8) :
    s.Within (s.resetDie d) everyPart (s.resetReach d) := by
  rw [State.resetDie_eq]
  have hb := (s.beforeEmpty_within d).mono (fun _ => id) (ok' := s.resetReach d)
    fun a ha => State.resetReach_eq_true.2 (.inr (State.resetSpill_eq_true.2 (.inl ha)))
  have he := (((s.endAccesses d).failLoading d).emptyDie_within hd).mono (fun p _ => mem_everyPart p) (ok' := s.resetReach d)
    fun a ha => by
      simp only [emptyRegs, Bool.or_eq_true, or_assoc] at ha
      rw [State.resetReach_eq_true, State.resetSpill_eq_true]
      obtain hr | hp | hc := ha
      · exact .inl hr
      · exact .inr (.inr (.inl hp))
      · exact .inr (.inl (by simp_all [among, streamRegs]))
  refine (hb.trans he).trans ((State.afterEmpty_within _ d).mono (fun _ => id) fun a ha => ?_)
  rw [State.resetReach_eq_true, State.resetSpill_eq_true]
  obtain hc | hp | hl := State.resetSpill_eq_true.1 ha
  · exact .inr (.inl hc)
  · exact .inr (.inr (.inl hp))
  · have hne : a / 4294967296 ≠ d := by
      rintro hda
      simp [State.losesLock, hda] at hl
    simp only [State.losesLock, State.inReset_of_put hs (s.emptied_dieReset hd), if_neg hne] at hl
    exact .inr (.inr (.inr hl))

theorem State.resetDie_reg (hs : Tab.wf regReset s.regs = true) (hd : d < 8) (h6 : d ≠ 6) (ha : dieReg d a = true) :
    (s.resetDie d).reg a = regReset a := by
  have hb := (s.beforeEmpty_within d).wf hs
  have he := (State.emptyDie_within _ hd).wf hb
  have hda : a / 4294967296 = d := by simpa [dieReg] using ha
  obtain ⟨hn, hc, hp⟩ := apart_of_die_ne (hda.trans_ne h6)
  have hs : (((s.endAccesses d).failLoading d).emptyDie d).resetSpill d a = false := by
    simp [State.resetSpill, hc, hp, State.losesLock, hda]
  rw [State.resetDie_eq, (State.afterEmpty_within _ d).regs he a hs hn, State.emptyDie_reg hb hd h6 ha]

end Sys2Proof.Machine
end

section
/-! ### A die reset at its register, and its end (R27, R66; log entry 31) -/

namespace Sys2Proof.Machine

variable {s t : State} {d a : Nat} {m : Rm}

theorem State.Inv.dieReset_wf (h : s.Inv) : Tab.wf (fun _ => none) s.dieReset = true := by
  by_contra hn
  simp [State.Inv, State.tablesWf, hn] at h

theorem State.Inv.store_wf (h : s.Inv) : Tab.wf psDefault s.pat.store = true := by
  by_contra hn
  simp [State.Inv, State.tablesWf, hn] at h

/-! #### What the reset leaves of the die -/

theorem State.resetDie_inReset (hs : Tab.wf (fun _ => none) s.dieReset = true) (hd : d < 8) {e : Nat} :
    (s.resetDie d).inReset e = (e == d || s.inReset e) := by
  rw [State.inReset_of_put hs (s.resetDie_dieReset hd)]
  by_cases he : e = d <;> simp [he]

theorem State.resetDie_awaits (s : State) (hd : d < 8) : (s.resetDie d).awaits d = true := by
  rw [State.resetDie_eq]
  exact State.awaitRejoin_awaits _ hd

theorem State.resetDie_store (s : State) (d : Nat) :
    (s.resetDie d).pat.store = tkeep (fun k => psKeyDie k != d) s.pat.store := by
  have ha := (s.endAccesses_within (ok := fun _ => false) d).parts .pat (by decide)
  have hf := ((s.endAccesses d).failLoading_within d).parts .pat (by decide)
  rw [State.resetDie_eq, State.awaitRejoin_pat]
  have hl := ((((s.endAccesses d).failLoading d).emptyDie d).loseLock_within d).parts .pat (by decide)
  have hp := (((((s.endAccesses d).failLoading d).emptyDie d).loseLock d).dropDone_within d).parts .pat (by decide)
  simp only [Part.same] at ha hf hl hp
  simp only [hp, hl, State.emptyDie_store, hf, ha]

theorem psKeyDie_psKey {b i k x : Nat} (hd : d < 8) (hi : i < 64) (hk : k < 16) (hx : x < 8192) :
    psKeyDie (psKey b d i k x) = d := by
  simp only [psKeyDie, psKey]
  omega

/-- The pattern tables of the die are empty. -/
theorem State.resetDie_ps (hs : Tab.wf psDefault s.pat.store = true) {b i k x : Nat} (hd : d < 8) (hi : i < 64) (hk : k < 16)
    (hx : x < 8192) : (s.resetDie d).ps b d i k x = psDefault (psKey b d i k x) := by
  rw [State.ps, State.resetDie_store, tget_tkeep hs]
  simp [psKeyDie_psKey hd hi hk hx]

theorem State.resetDie_done (s : State) (hd : d ≠ 7) : (s.resetDie d).pins.done = false := by
  rw [State.resetDie_eq, (State.awaitRejoin_within _ d).parts .pins (by decide), State.dropDone, if_neg hd]

theorem State.resetDie_ana (s : State) : (s.resetDie 7).ana = Ana.empty := by
  rw [State.resetDie_eq, (State.awaitRejoin_within _ 7).parts .ana (by decide), State.dropDone, if_pos rfl]

/-! #### The frame of the statements -/

/-- The registers that a reset of dies with registers in `mine` may change. -/
def resetOk (mine : Nat → Bool) (a : Nat) : Bool :=
  mine a || among [aCFG_DIES, aCFG_FAIL_FA, aCFG_FAIL_WORD, aCFG_STATUS, aCFG_WORDS, aPAT_STATUS] a || inBlock 6 0x300 a ||
    linkReg a || portReg a

theorem resetOk_of_streamRegs {mine : Nat → Bool} (h : among streamRegs a = true) : resetOk mine a = true := by
  simp only [among, streamRegs, List.contains_eq_mem, decide_eq_true_eq] at h
  fin_cases h <;> simp [resetOk, among]

theorem resetOk_of_reach {mine : Nat → Bool} (hm : dieReg d a = true → mine a = true) (h : s.resetReach d a = true) :
    resetOk mine a = true := by
  rw [State.resetReach_eq_true, State.resetSpill_eq_true] at h
  obtain hd | hc | hp | hl := h
  · simp [resetOk, hm hd]
  · exact resetOk_of_streamRegs hc
  · simp [resetOk, hp]
  · have hr : linkReg a = true := by
      simp only [State.losesLock, Bool.and_eq_true] at hl
      exact hl.1.1
    simp [resetOk, hr]

/-- The parts that a reset of a die may change: all but the fuses. -/
def resetParts : List Part := [.clk, .ringCore, .ringDebug, .ringConfig, .hw, .dieReset, .share1, .pins, .pwr, .ev, .pat, .be,
  .nis, .lms, .mq, .rsps, .ports, .lanes, .gws, .remoteIn, .cfg, .cores, .banks, .qdrs, .qdrSvc, .dsets, .km, .ana, .tap, .mem,
  .free, .pending]

theorem State.fuse_of_fixed (h : t.fixed = s.fixed) : t.fuse = s.fuse := congrArg Prod.fst h

theorem Part.same_of_fuse (h : t.fuse = s.fuse) (p : Part) (hp : p ∉ resetParts) : p.same s t := by
  cases p
  case fuse => exact h
  all_goals exact absurd (by decide) hp

theorem State.resetDie_keepsElse (h : s.Inv) (hd : d < 8) : s.keepsElse (s.resetDie d) resetParts (resetOk (dieReg d)) :=
  ⟨Part.same_of_fuse (State.fuse_of_fixed (s.resetDie_fixed d)),
    (((State.resetDie_within h.dieReset_wf hd).mono (fun _ => id) fun _ => resetOk_of_reach id).regs h.regs_wf)⟩

/-! #### The commands -/

/-- One bit of `DIE_RESET` written resets its die. -/
theorem dieResetWrite_of_bit {v : W32} (s : State) (h : [0, 1, 2, 3, 4, 5, 7].filter (fun k => v.getLsbD k) = [d]) :
    dieResetWrite v s = wrote (s.resetDie d) := by
  rw [dieResetWrite, h, List.foldl_cons, List.foldl_nil]

theorem resetBits_logic : ∀ d : Fin 6,
    [0, 1, 2, 3, 4, 5, 7].filter (fun k => (BitVec.ofNat 32 (2 ^ d.val)).getLsbD k) = [d.val] := by
  decide

theorem exec_dieResetLogic (d : Fin 6) (h : s.ringReady m aDIE_RESET = true) :
    exec (.dieResetLogic m d) s =
      .next ((s.resetDie d.val).setMaster m (s.answered m aDIE_RESET (BitVec.ofNat 32 (2 ^ d.val)) .ok)) :=
  congrArg Host.Outcome.next (ringPut_wrote h (dieResetWrite_of_bit s (resetBits_logic d)))

theorem exec_dieResetAnalog (h : s.ringReady m aDIE_RESET = true) :
    exec (.dieResetAnalog m) s = .next ((s.resetDie 7).setMaster m (s.answered m aDIE_RESET 0x80#32 .ok)) :=
  congrArg Host.Outcome.next (ringPut_wrote h (dieResetWrite_of_bit s (by decide)))

/-- The end of a die's reset trains the die's links. -/
theorem exec_dieResetEnd {d : Fin 8} {n : Nat} (hr : s.runs = true) (hn : tget (fun _ => none) s.dieReset d.val = some n)
    (ht : n + ringTicks 1024 ≤ s.now) :
    exec (.dieResetEnd d) s =
      .next ({ s with dieReset := tput (fun _ => none) s.dieReset d.val none }.trainDieLinks d.val).syncBreach := by
  change execDieResetEnd d s = _
  simp [execDieResetEnd, hn, hr, ht]

/-- The parts that the end of a die's reset reaches. -/
theorem dieResetEnd_within (s : State) (d : Nat) (n : Option Nat) :
    s.Within ({ s with dieReset := tput (fun _ => none) s.dieReset d n }.trainDieLinks d).syncBreach
      [.hw, .dieReset, .ev, .be, .nis, .lms, .ports] (fun a => inBlock 6 2 a || linkReg a) := by
  have hp := (State.Within.refl s [.hw, .dieReset, .ev, .be, .nis, .lms, .ports]
    (fun a => inBlock 6 2 a || linkReg a)).put_dieReset (x := tput (fun _ => none) s.dieReset d n)
  exact (hp.trans ((State.trainDieLinks_within _ d).mono (by decide) (by simp_all))).syncBreach

theorem dieResetEnd_inReset (h : s.Inv) (d : Nat) :
    ({ s with dieReset := tput (fun _ => none) s.dieReset d none }.trainDieLinks d).syncBreach.inReset d = false := by
  rw [State.inReset_of_put h.dieReset_wf (n := none) (d := d), if_pos rfl]
  · rfl
  · exact (((State.trainDieLinks_within _ d).syncBreach).parts .dieReset (by decide))

end Sys2Proof.Machine
end

section
/-! ### `PROG_N`, and the statement about resets of dies (R26, R27, R66, R213; log entry 31) -/

namespace Sys2Proof.Machine

variable {s t : State} {d a : Nat} {m : Rm}

/-- The registers of the logic dies. -/
def logicReg (a : Nat) : Bool := decide (a / 4294967296 < 6)

/-- Dies `ds` have been reset on the way from `s` to `t`, logic dies only. -/
structure State.ResetDies (s t : State) (ds : List Nat) : Prop where
  regsWf : Tab.wf regReset t.regs = true
  resetsWf : Tab.wf (fun _ => none) t.dieReset = true
  inReset : ∀ d ∈ ds, t.inReset d = true
  atReset : ∀ d ∈ ds, ∀ a, dieReg d a = true → t.reg a = regReset a
  kept : ∀ a, resetOk logicReg a = false → notice a = false → t.reg a = s.reg a

/-- Of a logic die that is in reset, no register is among those that another die's reset reaches, or those that record events. -/
theorem dieReg_apart {e : Nat} (he : e < 6) (hde : e ≠ d) (hr : s.inReset e = true) (ha : dieReg e a = true) :
    s.resetReach d a = false ∧ notice a = false := by
  have hea : a / 4294967296 = e := by simpa [dieReg] using ha
  obtain ⟨hn, hc, hp⟩ := apart_of_die_ne (a := a) (by omega)
  exact ⟨by simp [State.resetReach, State.resetSpill, hc, hp, State.losesLock, dieReg, hea, hde, hr], hn⟩

/-- One more logic die is reset; those reset before stay as they are, their links being in reset. -/
theorem State.ResetDies.cons {ds : List Nat} (h : s.ResetDies t ds) (hds : ∀ e ∈ ds, e < 6) (hd : d < 6) :
    s.ResetDies (t.resetDie d) (d :: ds) := by
  have h8 : d < 8 := by omega
  have hw := State.resetDie_within h.resetsWf h8
  have hin : ∀ e, e = d ∨ e ∈ ds → (t.resetDie d).inReset e = true := by
    intro e he
    rw [State.resetDie_inReset h.resetsWf h8]
    obtain rfl | he := he
    · simp
    · simp [h.inReset e he]
  refine ⟨hw.wf h.regsWf, ?_, fun e he => hin e (List.mem_cons.1 he), fun e he a ha => ?_, fun a ho hn => ?_⟩
  · rw [State.resetDie_dieReset t h8]
    exact tput_wf h.resetsWf d _
  · by_cases hed : e = d
    · subst hed
      exact State.resetDie_reg h.regsWf h8 (by omega) ha
    · have hm := (List.mem_cons.1 he).resolve_left hed
      obtain ⟨hr, hn⟩ := dieReg_apart (hds e hm) hed (h.inReset e hm) ha
      rw [hw.regs h.regsWf a hr hn, h.atReset e hm a ha]
  · have hm : dieReg d a = true → logicReg a = true := by
      simp only [dieReg, logicReg, beq_iff_eq, decide_eq_true_eq]
      omega
    have hr : t.resetReach d a = false := Bool.eq_false_iff.2 fun hc => by simp [resetOk_of_reach hm hc] at ho
    rw [hw.regs h.regsWf a hr hn, h.kept a ho hn]

theorem State.ResetDies.foldl {ds l : List Nat} (h : s.ResetDies t ds) (hds : ∀ e ∈ ds, e < 6) (hl : ∀ e ∈ l, e < 6) :
    s.ResetDies (l.foldl State.resetDie t) (l.reverse ++ ds) := by
  induction l generalizing t ds with
  | nil => exact h
  | cons d r ih =>
    have hd := hl d List.mem_cons_self
    have hds' : ∀ e ∈ d :: ds, e < 6 := fun e he => (List.mem_cons.1 he).elim (fun h => h ▸ hd) (hds e)
    simpa using ih (h.cons hds hd) hds' fun e he => hl e (List.mem_cons_of_mem d he)

/-- The state in which `PROG_N` has ended the stream and reset the logic dies. -/
def State.logicReset (s : State) : State := (List.range 6).foldl State.resetDie (s.endStream 0)

theorem State.logicReset_dies (h : s.Inv) : s.ResetDies s.logicReset (List.range 6).reverse := by
  have he : s.Within (s.endStream 0) streamParts (among streamRegs) := (State.Within.refl s _ _).endStream
  have hr : (s.endStream 0).dieReset = s.dieReset := he.parts .dieReset (by decide)
  have h0 : s.ResetDies (s.endStream 0) [] :=
    { regsWf := he.wf h.regs_wf
      resetsWf := by rw [hr]; exact h.dieReset_wf
      inReset := by simp
      atReset := by simp
      kept := (he.mono (fun _ => id) fun a => resetOk_of_streamRegs).regs h.regs_wf }
  rw [← List.append_nil (List.range 6).reverse]
  exact h0.foldl (by simp) (by simp)

/-- The last steps of `PROG_N`: the analog side is unconfigured, and the controller clears with `INIT_N` low. -/
def State.holdInit (s : State) : State :=
  let t := (s.unconfigure 7).setBit aCFG_STATUS fCFG_STATUS_INIT false
  { t with pins := { t.pins with initDriven := true, progLow := true } }

theorem exec_progNAssert (h1 : s.clk.phase ≠ .porHold) (h2 : s.clk.phase ≠ .oscDelay) (h3 : s.clk.phase ≠ .lockWait) :
    exec .progNAssert s = .next s.logicReset.holdInit := by
  change execProgNAssert s = _
  simp only [execProgNAssert, State.holdInit, State.logicReset, beq_iff_eq, h1, h2, h3, Bool.or_eq_true, or_self, if_false]

/-- A one-bit field set to zero reads false. -/
theorem getB_putF_zero (v : W32) (f : Fld) (hf : 0 < f.width) (h : f.lsb + f.width ≤ 32) : getB (putF v f 0) f = false := by
  have hb : ∀ w : W32, getB w f = (getF w f).testBit 0 := fun w => by
    simp [getB, getF, Nat.testBit_mod_two_pow, hf, -Nat.testBit_zero]
  rw [hb, getF_putF v f 0 h, Nat.zero_mod, Nat.zero_testBit]

theorem State.holdInit_within (s : State) : s.Within s.holdInit everyPart (among streamRegs) := by
  obtain ⟨hs, -, -, hd⟩ := among_streamRegs
  exact (((State.Within.refl s everyPart _).unconfigure hd).setBit (.inl hs)).put_pins

theorem State.holdInit_init (hs : Tab.wf regReset s.regs = true) : s.holdInit.bit aCFG_STATUS fCFG_STATUS_INIT = false := by
  have hw : Tab.wf regReset (s.unconfigure 7).regs = true := State.setReg_wf hs _ _
  change getB (State.reg (State.setReg (s.unconfigure 7) _ _) aCFG_STATUS) fCFG_STATUS_INIT = false
  rw [State.setReg_reg hw]
  exact getB_putF_zero _ _ (by decide) (by decide)

theorem State.holdInit_dieReset (s : State) : s.holdInit.dieReset = s.dieReset := rfl

theorem State.progReset_reg (h : s.Inv) (ha : a / 4294967296 < 6) : s.logicReset.holdInit.reg a = regReset a := by
  have hl := State.logicReset_dies h
  obtain ⟨hn, hc, -⟩ := apart_of_die_ne (a := a) (by omega)
  rw [s.logicReset.holdInit_within.regs hl.regsWf a hc hn]
  exact hl.atReset (a / 4294967296) (by simpa using ha) a (by simp [dieReg])

theorem State.progReset_inReset (h : s.Inv) (hd : d < 6) : s.logicReset.holdInit.inReset d = true := by
  rw [State.inReset, State.holdInit_dieReset]
  exact (State.logicReset_dies h).inReset d (by simpa using hd)

theorem State.progReset_keepsElse (h : s.Inv) :
    s.keepsElse s.logicReset.holdInit resetParts (resetOk logicReg) := by
  have hl := State.logicReset_dies h
  have hf : s.logicReset.holdInit.fixed = s.fixed := by simp [State.holdInit, State.logicReset]
  refine ⟨Part.same_of_fuse (State.fuse_of_fixed hf), fun a ho hn => ?_⟩
  have hc : among streamRegs a = false := Bool.eq_false_iff.2 fun hc => by simp [resetOk_of_streamRegs hc] at ho
  rw [s.logicReset.holdInit_within.regs hl.regsWf a hc hn, hl.kept a ho hn]

/-! #### `DEVICE_ID` -/

theorem deviceIdWrite_ok (v : W32) (h : s.anySched = false) :
    deviceIdWrite v s = wrote { s.plainWrite aDEVICE_ID v with
      clk := { s.clk with idOld := BitVec.ofNat 16 s.devId, idFrom := s.ringCycle + 1 } } := by
  simp [deviceIdWrite, h]

theorem deviceIdWrite_refused (v : W32) (h : s.anySched = true) : deviceIdWrite v s = refuse s := by
  simp [deviceIdWrite, h]

/-- Settles O11: a reset of a die is followed stage by stage, each stage with the parts and registers that it reaches; `PROG_N`
is an induction over the logic dies, a die reset before not being reached again because its links are in reset. -/
theorem dieResetsAndProgN : Obligations.DieResetsAndProgN := by
  unfold Obligations.DieResetsAndProgN
  intro s hs
  refine ⟨fun m v hr hn => ?_, fun m v hr hn => ?_, fun m d hr => ?_, fun m hr => ?_, fun d n hr hn ht => ?_,
    fun h1 h2 h3 => ?_, rfl⟩
  · exact ⟨_, congrArg Host.Outcome.next (ringPut_wrote hr (deviceIdWrite_ok v hn)), rfl, rfl, rfl⟩
  · exact ⟨s, congrArg Host.Outcome.next (ringPut_refused hr (deviceIdWrite_refused v hn)), rfl⟩
  · have hd : d.val < 8 := by omega
    refine ⟨s.resetDie d, exec_dieResetLogic d hr, ?_, fun a => State.resetDie_reg hs.regs_wf hd (by omega),
      fun b i k x _ => State.resetDie_ps hs.store_wf hd, s.resetDie_awaits hd, s.resetDie_done (by omega),
      State.resetDie_keepsElse hs hd⟩
    simp [State.resetDie_inReset hs.dieReset_wf hd]
  · refine ⟨s.resetDie 7, exec_dieResetAnalog hr, ?_, fun a => State.resetDie_reg hs.regs_wf (by decide) (by decide),
      s.resetDie_ana, s.resetDie_awaits (by decide), State.resetDie_keepsElse hs (by decide)⟩
    simp [State.resetDie_inReset hs.dieReset_wf]
  · exact ⟨_, exec_dieResetEnd hr hn ht, dieResetEnd_inReset hs d, (dieResetEnd_within s d none).keepsElse hs.regs_wf⟩
  · exact ⟨s.logicReset.holdInit, exec_progNAssert h1 h2 h3, rfl, rfl, State.holdInit_init (State.logicReset_dies hs).regsWf,
      fun d => State.progReset_inReset hs, fun a => State.progReset_reg hs, State.progReset_keepsElse hs⟩

end Sys2Proof.Machine
end

section
/-! ### Reading a register after it, or another, has been written (R8)

`Elab.async false`, here and in the sections below, has one proof elaborated after another, as in the architect's tests: the
proofs of the text do not all stand in memory at once. -/

namespace Sys2Proof.Machine

set_option Elab.async false

variable {s t : State} {a b e n : Nat} {c : Bool} {f g : Fld}

/-- A bit of a word after a field has been put: the field's own bit where the field covers it. -/
theorem getB_putF (v : W32) (f g : Fld) (n : Nat) (h : f.lsb < 32) :
    getB (putF v g n) f = if g.lsb ≤ f.lsb ∧ f.lsb < g.lsb + g.width then n.testBit (f.lsb - g.lsb) else getB v f := by
  simp only [getB, putF, BitVec.testBit_toNat, BitVec.getLsbD_or, BitVec.getLsbD_and, BitVec.getLsbD_not, BitVec.getLsbD_ofNat,
    Nat.testBit_shiftLeft, Nat.testBit_mod_two_pow, Nat.testBit_two_pow_sub_one, h]
  by_cases hg : g.lsb ≤ f.lsb
  · by_cases hw : f.lsb - g.lsb < g.width
    · have hc : f.lsb < g.lsb + g.width := by omega
      simp [hg, hw, hc]
    · have hc : ¬ f.lsb < g.lsb + g.width := by omega
      simp [hg, hw, hc]
  · simp [hg]

/-- Putting a 1 into a one-bit field takes no bit away. -/
theorem getLsbD_putF_one {v : W32} {i : Nat} (hf : f.width = 1) (h : v.getLsbD i = true) : (putF v f 1).getLsbD i = true := by
  have hi : i < 32 := BitVec.lt_of_getLsbD h
  have hb := getB_putF v ⟨i, 1⟩ f 1 hi
  simp only [getB, BitVec.testBit_toNat, h, hf] at hb
  rw [hb]
  split
  · next hc => simp [show i - f.lsb = 0 by omega]
  · rfl

/-- The register that a field is set in takes the field; every other one reads as before. -/
theorem State.setFld_reg (hs : Tab.wf regReset s.regs = true) (a : Nat) (f : Fld) (n b : Nat) :
    (s.setFld a f n).reg b = if b = a then putF (s.reg a) f n else s.reg b := by
  split
  · next h => rw [h, State.setFld, State.setReg_reg hs]
  · next h => rw [State.setFld, State.setReg_reg_ne hs h]

theorem State.setBit_reg (hs : Tab.wf regReset s.regs = true) (a : Nat) (f : Fld) (v : Bool) (b : Nat) :
    (s.setBit a f v).reg b = if b = a then putF (s.reg a) f v.toNat else s.reg b := by
  cases v <;> exact State.setFld_reg hs a f _ b

theorem State.setFld_wf (hs : Tab.wf regReset s.regs = true) (a : Nat) (f : Fld) (n : Nat) :
    Tab.wf regReset (s.setFld a f n).regs = true := State.setReg_wf hs a _

theorem State.setBit_wf (hs : Tab.wf regReset s.regs = true) (a : Nat) (f : Fld) (v : Bool) :
    Tab.wf regReset (s.setBit a f v).regs = true := by
  cases v <;> exact State.setFld_wf hs a f _

theorem State.plainWrite_wf (hs : Tab.wf regReset s.regs = true) (a : Nat) (v : W32) :
    Tab.wf regReset (s.plainWrite a v).regs = true := by
  fun_cases State.plainWrite s a v
  · exact State.setReg_wf hs a _
  · exact hs

/-- A plain write changes the register at its address alone. -/
theorem State.plainWrite_reg_ne (hs : Tab.wf regReset s.regs = true) {v : W32} (h : b ≠ a) :
    (s.plainWrite a v).reg b = s.reg b := by
  fun_cases State.plainWrite s a v
  · exact State.setReg_reg_ne hs h _
  · rfl

/-- A field that a register's row stores, and no bit of which it clears, holds what was written after a plain write. -/
theorem State.plainWrite_fld {w : RegRow} (hs : Tab.wf regReset s.regs = true) (hr : regRow a = some w) (v : W32)
    (hf : ∀ i < f.width, w.rw.testBit (f.lsb + i) = true ∧ w.w1c.testBit (f.lsb + i) = false) :
    (s.plainWrite a v).fld a f = getF v f := by
  rw [State.fld, State.plainWrite_eq hr, State.setReg_reg hs]
  apply Nat.eq_of_testBit_eq
  intro i
  simp only [getF, RegRow.write, Nat.testBit_mod_two_pow, Nat.testBit_shiftRight, BitVec.testBit_toNat]
  by_cases hi : i < f.width
  · obtain ⟨hrw, hc⟩ := hf i hi
    by_cases h32 : f.lsb + i < 32
    · simp only [BitVec.getLsbD_or, BitVec.getLsbD_and, BitVec.getLsbD_not, BitVec.getLsbD_ofNat, hrw, hc]
      simp [h32]
    · simp [BitVec.getLsbD_of_ge, Nat.le_of_not_lt h32]
  · simp [hi]

/-- A one-bit field as a bit of its field. -/
theorem getB_eq_testBit_getF (v : W32) (hf : f.width = 1) : getB v f = (getF v f).testBit 0 := by
  rw [getB, getF, hf, Nat.testBit_mod_two_pow, Nat.testBit_shiftRight]
  simp

theorem State.plainWrite_bit {w : RegRow} (hs : Tab.wf regReset s.regs = true) (hr : regRow a = some w) (v : W32)
    (hw : f.width = 1) (hf : w.rw.testBit f.lsb = true ∧ w.w1c.testBit f.lsb = false) :
    (s.plainWrite a v).bit a f = getB v f := by
  have h := State.plainWrite_fld (f := f) hs hr v fun i hi => by
    rw [show i = 0 by omega]
    exact hf
  rw [State.bit, getB_eq_testBit_getF _ hw, getB_eq_testBit_getF _ hw, ← h, State.fld]

/-! #### Bits beside a bit that is set, and words other than a reset value -/

theorem State.setBit_bit_same (hs : Tab.wf regReset s.regs = true) (hw : f.width = 1) (hl : f.lsb < 32) :
    (s.setBit a f c).bit a f = c := by
  rw [State.bit, State.setBit_reg hs, if_pos rfl, getB_putF _ _ _ _ hl, hw]
  cases c <;> simp

theorem State.setBit_bit_ne (hs : Tab.wf regReset s.regs = true) (hl : g.lsb < 32)
    (h : b ≠ a ∨ g.lsb < f.lsb ∨ f.lsb + f.width ≤ g.lsb) : (s.setBit a f c).bit b g = s.bit b g := by
  rw [State.bit, State.setBit_reg hs]
  split
  · next hb =>
    rw [getB_putF _ _ _ _ hl, if_neg (by omega), hb, State.bit]
  · rfl

/-- A register takes a word other than its reset value, canonical or not. -/
theorem tget_tput_of_ne {α : Type} [DecidableEq α] {d : Nat → α} {u : Tab α} {k : Nat} {x : α} (hx : x ≠ d k) :
    tget d (tput d u k x) k = x := by
  induction u with
  | nil => simp [tput, hx, tget]
  | cons p r ih =>
    obtain ⟨k', y⟩ := p
    simp only [tput, hx, if_false]
    split
    · simp [tget]
    · next hlt =>
      split
      · simp [tget]
      · next hne => simp only [tget, if_neg hne, if_neg hlt, ih]

theorem State.setFld_reg_of_ne (h : putF (s.reg a) f n ≠ regReset a) : (s.setFld a f n).reg a = putF (s.reg a) f n :=
  tget_tput_of_ne h

theorem State.setBit_reg_of_ne (h : putF (s.reg a) f c.toNat ≠ regReset a) :
    (s.setBit a f c).reg a = putF (s.reg a) f c.toNat := by
  cases c <;> exact State.setFld_reg_of_ne h

end Sys2Proof.Machine
end


section
/-! ### Events that stay latched (R11, R381)

An event of H shows as a bit of `EV_RAW_k`, which a write of one clears. In the ring cycle of the event the hardware's setting
wins over such a write (R11), so no access takes the bit back in that cycle. `State.Latched` says so of one event; every
operation that an access can reach has a lemma that it keeps it. -/

namespace Sys2Proof.Machine

set_option Elab.async false

variable {s t : State} {a e : Nat} {f : Fld} {v : W32}

/-- The register that an event of H shows in. -/
def rawOf (e : Nat) : Nat := aEV_RAW (e / 32)

/-- The words of the raw event bits. -/
def rawWord (a : Nat) : Bool := decide (aEV_RAW 0 ≤ a) && decide (a ≤ aEV_RAW 63)

theorem rawWord_rawOf (he : e < 2048) : rawWord (rawOf e) = true := by
  have hb : aEV_RAW 0 ≤ rawOf e ∧ rawOf e ≤ aEV_RAW 63 := by
    simp only [rawOf, aEV_RAW, ra]
    omega
  simp [rawWord, hb]

/-- Ring writes store no bit of a raw event word. -/
theorem regRow_rawOf (he : e < 2048) : ∃ r, regRow (rawOf e) = some r ∧ r.rw = 0 := by
  have hrows : ∀ k < 64, (regRow (aEV_RAW k)).map RegRow.rw = some 0 := by decide +kernel
  exact Option.map_eq_some_iff.1 (hrows (e / 32) (by omega))

/-- In these registers, with these marks of what the hardware set, event `e` of the device shows and has been set in the ring
cycle of tick `n`. -/
def LatchedIn (e : Nat) (regs : Tab W32) (hw : HwSets) (n : Nat) : Prop :=
  e < 2048 ∧ Tab.wf regReset regs = true ∧ (tget regReset regs (rawOf e)).getLsbD (e % 32) = true ∧ hw.cycle = n / 6 ∧
    ∃ w, (rawOf e, w) ∈ hw.bits ∧ w.getLsbD (e % 32) = true

/-- The register table is canonical, and event `e` shows and has been set in this ring cycle. It speaks of `regs`, `hw` and
`clk.now` alone, so that an update of any other field keeps it as it stands. -/
def State.Latched (s : State) (e : Nat) : Prop := LatchedIn e s.regs s.hw s.clk.now

/-- The marks of a ring cycle add up, so a bit that one mark holds is among the bits the hardware set. -/
theorem foldl_marks {l : List (Nat × W32)} {a i : Nat} {x : W32}
    (h : x.getLsbD i = true ∨ ∃ w, (a, w) ∈ l ∧ w.getLsbD i = true) :
    (l.foldl (fun v p => if p.1 = a then v ||| p.2 else v) x).getLsbD i = true := by
  induction l generalizing x with
  | nil => simpa using h
  | cons p r ih =>
    refine ih ?_
    obtain hx | ⟨w, hw, hb⟩ := h
    · left
      dsimp only
      split <;> simp [hx]
    · obtain rfl | hr := List.mem_cons.1 hw
      · simp [hb]
      · exact .inr ⟨w, hr, hb⟩

namespace State.Latched

theorem lt (h : s.Latched e) : e < 2048 := h.1

theorem wf (h : s.Latched e) : Tab.wf regReset s.regs = true := h.2.1

theorem shown (h : s.Latched e) : (s.reg (rawOf e)).getLsbD (e % 32) = true := h.2.2.1

theorem showsEvent (h : s.Latched e) (hc : isCollected e = false) : s.showsEvent e := by
  rw [State.showsEvent, hc]
  exact h.shown

/-- What the hardware set in this ring cycle is what it has recorded. -/
theorem hwNow_eq (h : s.Latched e) : s.hwNow = s.hw := if_pos h.2.2.2.1

theorem marked (h : s.Latched e) : ∃ w, (rawOf e, w) ∈ s.hwNow.bits ∧ w.getLsbD (e % 32) = true := by
  rw [h.hwNow_eq]
  exact h.2.2.2.2

theorem hwBits (h : s.Latched e) : (s.hwBits (rawOf e)).getLsbD (e % 32) = true := foldl_marks (.inr h.marked)

theorem ite {p : Prop} [Decidable p] (hs : s.Latched e) (ht : t.Latched e) : (if p then s else t).Latched e := by
  split
  · exact hs
  · exact ht

theorem foldl {α : Type} {g : State → α → State} {l : List α} (h : s.Latched e)
    (hg : ∀ u : State, ∀ x ∈ l, u.Latched e → (g u x).Latched e) : (l.foldl g s).Latched e := by
  induction l generalizing s with
  | nil => exact h
  | cons x r ih => exact ih (hg s x List.mem_cons_self h) fun u y hy => hg u y (List.mem_cons_of_mem x hy)

/-! #### Writes of registers -/

/-- A register takes a word that keeps the bit, where it is the event's own. -/
theorem setReg_of (h : s.Latched e) (hv : a = rawOf e → v.getLsbD (e % 32) = true) : (s.setReg a v).Latched e := by
  refine ⟨h.lt, State.setReg_wf h.wf a v, ?_, h.2.2.2⟩
  change ((s.setReg a v).reg (rawOf e)).getLsbD (e % 32) = true
  by_cases ha : a = rawOf e
  · rw [← ha, State.setReg_reg h.wf]
    exact hv ha
  · rw [State.setReg_reg_ne h.wf (Ne.symm ha)]
    exact h.shown

theorem setReg (h : s.Latched e) (ha : rawWord a = false) : (s.setReg a v).Latched e := by
  refine h.setReg_of ?_
  rintro rfl
  simp [rawWord_rawOf h.lt] at ha

theorem setFld (h : s.Latched e) {n : Nat} (ha : rawWord a = false) : (s.setFld a f n).Latched e := h.setReg ha

theorem hwMark (h : s.Latched e) {a : Nat} {w : W32} : (s.hwMark a w).Latched e := by
  obtain ⟨x, hx, hb⟩ := h.marked
  refine ⟨h.lt, h.wf, h.shown, ?_, x, List.mem_cons_of_mem _ hx, hb⟩
  change s.hwNow.cycle = _
  rw [h.hwNow_eq]
  exact h.2.2.2.1

theorem setBit (h : s.Latched e) {b : Bool} (ha : rawWord a = false) : (s.setBit a f b).Latched e :=
  ite (h.setFld ha).hwMark (h.setFld ha)

/-- A one-bit flag that the hardware sets takes no bit away, wherever it stands. -/
theorem setBit_true (h : s.Latched e) (hf : f.width = 1) : (s.setBit a f true).Latched e := by
  have hr : (s.setFld a f 1).Latched e := by
    refine h.setReg_of ?_
    rintro rfl
    exact getLsbD_putF_one hf h.shown
  exact hr.hwMark

theorem satInc (h : s.Latched e) (ha : rawWord a = false) : (s.satInc a f).Latched e :=
  hwMark (ite (h.setFld ha) h)

theorem setReg64 (h : s.Latched e) {lo hi n : Nat} (hl : rawWord lo = false) (hh : rawWord hi = false) :
    (s.setReg64 lo hi n).Latched e := (h.setReg hl).setReg hh

/-- A ring write clears no bit that the hardware has set in its cycle (R11). -/
theorem plainWrite (h : s.Latched e) : (s.plainWrite a v).Latched e := by
  fun_cases State.plainWrite s a v
  case case1 r hr =>
    refine h.setReg_of ?_
    rintro rfl
    obtain ⟨r', hr', hrw⟩ := regRow_rawOf h.lt
    obtain rfl : r = r' := Option.some.inj (hr.symm.trans hr')
    have hi : e % 32 < 32 := Nat.mod_lt _ (by decide)
    simp only [RegRow.write, hrw, BitVec.getLsbD_or, BitVec.getLsbD_and, BitVec.getLsbD_not, h.shown, h.hwBits]
    cases v.getLsbD (e % 32) <;> simp [hi]
  case case2 => exact h

theorem resetRegs (h : s.Latched e) {p : Nat → Bool} (hp : ∀ a, rawWord a = true → p a = false) :
    (s.resetRegs p).Latched e := by
  refine ⟨h.lt, State.resetRegs_wf h.wf p, ?_, h.2.2.2⟩
  change ((s.resetRegs p).reg (rawOf e)).getLsbD (e % 32) = true
  rw [State.resetRegs_reg h.wf, hp _ (rawWord_rawOf h.lt)]
  exact h.shown

/-! #### Events -/

theorem setPending (h : s.Latched e) {n k : Nat} {b : Bool} : (s.setPending n k b).Latched e := by
  cases b
  · exact h
  · exact ⟨h.lt, h.wf, h.shown, by
      change s.hwNow.cycle = _
      rw [h.hwNow_eq]
      exact h.2.2.2.1, h.marked⟩

theorem outOccur (h : s.Latched e) {i : Nat} : (s.outOccur i).Latched e := by
  obtain ⟨x, hx⟩ := s.outOccur_shape i
  rw [hx]
  exact h

/-- Routing an event that has been latched. -/
theorem routed (h : s.Latched e) {p : Nat → Bool} {k i : Nat} {c : Bool} :
    (if c then ((List.range 8).foldl (fun t n => if p n then t.setPending n k true else t) s).outOccur i
      else (List.range 8).foldl (fun t n => if p n then t.setPending n k true else t) s).Latched e := by
  have hp := h.foldl (l := List.range 8) (g := fun t n => if p n then t.setPending n k true else t)
    fun u n _ hu => ite hu.setPending hu
  exact ite hp.outOccur hp

theorem raiseCore (h : s.Latched e) {k : Nat} : (s.raiseCore k).Latched e := (h.setBit_true rfl).routed

theorem rawWord_evStat : rawWord aEV_STAT = false := by decide

theorem queueMsg (h : s.Latched e) {k : Nat} : (s.queueMsg k).Latched e := by
  simp only [State.queueMsg]
  split
  · exact h
  · refine ite h (ite ?_ (h.satInc rawWord_evStat))
    split
    · exact (h.satInc rawWord_evStat).raiseCore
    · exact (h.satInc rawWord_evStat).raiseCore.satInc rawWord_evStat

theorem raise (h : s.Latched e) {k : Nat} : (s.raise k).Latched e := ite h h.raiseCore.queueMsg

theorem flagRaise (h : s.Latched e) {k : Nat} (hf : f.width = 1) : (s.flagRaise a f k).Latched e :=
  ite h.hwMark (h.setBit_true hf).raise

theorem syncBreach (h : s.Latched e) : s.syncBreach.Latched e := by
  have hb : (s.setReg aBREACH_SUM s.breachWord).Latched e := h.setReg (by decide)
  exact ite h (ite (ite hb.raise hb).raise (ite hb.raise hb))

end State.Latched

/-- An event of H that occurs is latched. -/
theorem State.raise_latched (hs : Tab.wf regReset s.regs = true) (he : e < 2048) (hc : isCollected e = false) :
    (s.raise e).Latched e := by
  have hset : (s.setBit (rawOf e) ⟨e % 32, 1⟩ true).Latched e := by
    refine ⟨he, State.setBit_wf hs _ _ _, ?_, ?_, _, List.mem_cons_self, ?_⟩
    · change ((s.setBit (rawOf e) ⟨e % 32, 1⟩ true).bit (rawOf e) ⟨e % 32, 1⟩) = true
      rw [State.bit, State.setBit_reg hs, if_pos rfl, getB_putF _ _ _ _ (Nat.mod_lt _ (by decide))]
      simp
    · change s.hwNow.cycle = s.ringCycle
      rw [State.hwNow]
      split
      · assumption
      · rfl
    · have hi : e % 32 < 32 := Nat.mod_lt _ (by decide)
      simp only [Fld.bit, BitVec.getLsbD_ofNat, Nat.one_shiftLeft, Nat.testBit_two_pow_self, hi, decide_true, Bool.and_self]
  rw [State.raise, hc]
  exact hset.routed.queueMsg

end Sys2Proof.Machine
end

section
/-! ### Spread spectrum, fabric clock settings and the tick snapshot (R41, R42, R45, R46; log entry 27) -/

namespace Sys2Proof.Machine

set_option Elab.async false

variable {s : State} {m : Rm} {v : W32}

theorem State.Inv.fclkAct_wf (h : s.Inv) : Tab.wf (fun _ => 0#32) s.clk.fclkAct = true := by
  by_contra hn
  simp [State.Inv, State.tablesWf, hn] at h

theorem State.Inv.fclkStart_wf (h : s.Inv) : Tab.wf (fun _ => 0) s.clk.fclkStart = true := by
  by_contra hn
  simp [State.Inv, State.tablesWf, hn] at h

theorem State.Inv.fclkSet_wf (h : s.Inv) : Tab.wf (fun _ => 0) s.clk.fclkSet = true := by
  by_contra hn
  simp [State.Inv, State.tablesWf, hn] at h

theorem sscCtrlWrite_ok (h : getF v fSSC_CTRL_DEPTH ≤ 10) : sscCtrlWrite v s = wrote (s.plainWrite aSSC_CTRL v) :=
  if_neg (by omega)

theorem sscCtrlWrite_refused (h : 10 < getF v fSSC_CTRL_DEPTH) : sscCtrlWrite v s = refuse s := if_pos h

theorem fclkCfgWrite_ok {n : Nat} (h : getB v fFCLK_CFG_EN = false ∨ 8 ≤ getF v fFCLK_CFG_DIV) :
    fclkCfgWrite n v s = wrote { s.plainWrite (aFCLK_CFG n) v with
      clk := { s.clk with fclkSet := tput (fun _ => 0) s.clk.fclkSet n s.now } } := by
  have hc : (getB v fFCLK_CFG_EN && decide (getF v fFCLK_CFG_DIV < 8)) = false := by
    obtain h | h := h <;> simp [h]
  simp [fclkCfgWrite, hc, State.now]

theorem fclkCfgWrite_refused {n : Nat} (he : getB v fFCLK_CFG_EN = true) (hd : getF v fFCLK_CFG_DIV < 8) :
    fclkCfgWrite n v s = refuse s := by
  simp [fclkCfgWrite, he, hd]

theorem exec_sscChange (hr : s.hubRuns = true) (hh : s.clk.sscHeld = false) :
    exec .sscChange s = .next { s with clk := { s.clk with
      sscAct := s.reg aSSC_CTRL, sscSeen := if s.clk.sscAct = s.reg aSSC_CTRL then s.clk.sscSeen else 0 } } :=
  if_pos (by simp [hr, hh])

theorem exec_fclkChange {n : Fin 16} (hr : s.hubRuns = true) (ht : s.tickN % 24 = 0)
    (hw : tget (fun _ => 0) s.clk.fclkSet n.val < s.now)
    (hv : tget (fun _ => 0#32) s.clk.fclkAct n.val ≠ s.reg (aFCLK_CFG n.val)) :
    exec (.fclkChange n) s = .next { s with clk := { s.clk with
      fclkAct := tput (fun _ => 0#32) s.clk.fclkAct n.val (s.reg (aFCLK_CFG n.val))
      fclkStart := tput (fun _ => 0) s.clk.fclkStart n.val s.tickN } } :=
  if_pos (by simp [hr, ht, hw, hv])

/-- The two words of a 64-bit number read back as the number. -/
theorem State.setReg64_reg64 (hs : Tab.wf regReset s.regs = true) {lo hi n : Nat} (h : lo ≠ hi) (hn : n < 2 ^ 64) :
    (s.setReg64 lo hi n).reg64 lo hi = n := by
  have hl : (s.setReg64 lo hi n).reg lo = BitVec.ofNat 32 n := by
    rw [State.setReg64, State.setReg_reg_ne (State.setReg_wf hs _ _) h, State.setReg_reg hs]
  have hh : (s.setReg64 lo hi n).reg hi = BitVec.ofNat 32 (n / 4294967296) := by
    rw [State.setReg64, State.setReg_reg (State.setReg_wf hs _ _)]
  rw [State.reg64, hl, hh, BitVec.toNat_ofNat, BitVec.toNat_ofNat]
  omega

theorem State.setReg64_within (s : State) (lo hi n : Nat) : s.Within (s.setReg64 lo hi n) [] (among [lo, hi]) :=
  ((State.Within.refl s [] _).setReg (.inl (by simp [among]))).setReg (.inl (by simp [among]))

/-- Settles O8: each write is one of the two branches of its register's rule, each occurrence the branch whose trigger holds. -/
theorem clockSettingCommands : Obligations.ClockSettingCommands := by
  unfold Obligations.ClockSettingCommands
  intro s hs
  refine ⟨fun m v hr hd => ?_, fun m v hr hd => ?_, fun hr hh => ?_, fun hh => ?_, fun m n v hr hv => ?_,
    fun m n v hr he hd => ?_, fun n hr ht hw hv => ?_, fun m v hr => ?_⟩
  · exact ⟨_, congrArg Host.Outcome.next (ringPut_wrote hr (sscCtrlWrite_ok hd)), rfl⟩
  · exact ⟨s, congrArg Host.Outcome.next (ringPut_refused hr (sscCtrlWrite_refused hd)), rfl⟩
  · exact ⟨_, exec_sscChange hr hh, rfl, rfl⟩
  · exact if_neg (by simp [hh])
  · exact ⟨_, congrArg Host.Outcome.next (ringPut_wrote hr (fclkCfgWrite_ok hv)), tget_tput_same hs.fclkSet_wf _ _, rfl⟩
  · exact ⟨s, congrArg Host.Outcome.next (ringPut_refused hr (fclkCfgWrite_refused he hd)), rfl⟩
  · exact ⟨_, exec_fclkChange hr ht hw hv, tget_tput_same hs.fclkAct_wf _ _, tget_tput_same hs.fclkStart_wf _ _, rfl⟩
  · have hne : aTICK_LO (rmIdx m) ≠ aTICK_HI (rmIdx m) := by cases m <;> decide
    refine ⟨s.setReg64 (aTICK_LO (rmIdx m)) (aTICK_HI (rmIdx m)) s.tickN,
      congrArg Host.Outcome.next (ringPut_wrote hr rfl), ?_, (s.setReg64_within _ _ _).keepsElse hs.regs_wf⟩
    exact State.setReg64_reg64 hs.regs_wf hne s.clk.tick.isLt

end Sys2Proof.Machine
end

section
/-! ### Time markers at the ports (R161 to R163) -/

namespace Sys2Proof.Machine

set_option Elab.async false

variable {s t u : State} {p q : Nat} {l : List Part} {ok : Nat → Bool}

theorem State.Inv.ports_wf (h : s.Inv) : Tab.wf (fun _ => Port.empty) s.ports = true := by
  by_contra hn
  simp [State.Inv, State.tablesWf, hn] at h

theorem State.Within.put_clk (h : s.Within t l ok) {x} (hl : .clk ∈ l := by decide) : s.Within { t with clk := x } l ok := by
  refine h.put (fun p hp => ?_) rfl
  cases p
  case clk => exact absurd hl hp
  case mem => exact fun _ => rfl
  all_goals rfl

theorem State.setPort_port (h : Tab.wf (fun _ => Port.empty) s.ports = true) (p : Nat) (x : Port) :
    (s.setPort p x).port p = x := tget_tput_same h p x

theorem State.setPort_port_ne (h : Tab.wf (fun _ => Port.empty) s.ports = true) (hq : q ≠ p) (x : Port) :
    (s.setPort p x).port q = s.port q := tget_tput_ne h hq x

theorem portReg_tp (hp : p < 6) : portReg (aTP_STATUS p) = true ∧ portReg (aTP_ERR p) = true := by
  interval_cases p <;> exact ⟨rfl, rfl⟩

/-- The registers that record events stand in the event controller's block, or are the summary of breaches. -/
theorem notice_place {a : Nat} (h : notice a = true) : a / 65536 = 393219 ∨ a = aBREACH_SUM := by
  have hb : aEV_RAW 0 / 65536 = 393219 ∧ aEV_RAW 63 / 65536 = 393219 ∧ aEV_STAT / 65536 = 393219 := by decide
  simp only [notice, Bool.or_eq_true, Bool.and_eq_true, decide_eq_true_eq, beq_iff_eq] at h
  obtain (⟨h0, h1⟩ | rfl) | rfl := h
  · exact .inl (by omega)
  · exact .inl hb.2.2
  · exact .inr rfl

theorem portEvent_lt {k : Nat} (hp : p < 8) (hk : k < 32) : portEvent p k < 2048 := by
  rw [portEvent]
  omega

/-- The refusal code of a port shows in its status; a budget below `M` is also an error with its event (R172). -/
theorem State.showRefuse_within (s : State) (hp : p < 6) : s.Within (s.showRefuse p) [.hw, .ev] portReg := by
  obtain ⟨hs, he⟩ := portReg_tp hp
  have h := (State.Within.refl s [.hw, .ev] portReg).setFld (f := fTP_STATUS_REFUSE) (n := s.portRefuse p) (.inl hs)
  exact State.Within.ite ((h.setBit (.inl he)).raise (portEvent_lt (by omega) (by decide))) h

/-- The state of a port stands beside its refusal code. -/
theorem State.showRefuse_tpState (hs : Tab.wf regReset s.regs = true) (hp : p < 6) :
    (s.showRefuse p).tpState q = s.tpState q := by
  have hfld : (s.setFld (aTP_STATUS p) fTP_STATUS_REFUSE (s.portRefuse p)).tpState q = s.tpState q := by
    simp only [State.tpState, State.fld, State.setFld_reg hs]
    split
    · next h => rw [getF_putF_disjoint _ _ _ _ (by decide), h]
    · rfl
  have hw := State.setFld_wf hs (aTP_STATUS p) fTP_STATUS_REFUSE (s.portRefuse p)
  rw [← hfld]
  simp only [State.showRefuse]
  generalize s.setFld (aTP_STATUS p) fTP_STATUS_REFUSE (s.portRefuse p) = u at hw
  split
  · have hr := ((State.Within.refl u [.hw, .ev] (among [aTP_ERR p])).setBit (a := aTP_ERR p) (f := fTP_ERR_BUDGET)
      (b := true) (.inl (by simp [among]))).raise (portEvent_lt (p := p) (k := 3) (by omega) (by decide))
    have ho : among [aTP_ERR p] (aTP_STATUS q) = false := by
      simp only [among, List.contains_eq_mem, List.mem_singleton, decide_eq_false_iff_not, aTP_ERR, aTP_STATUS, ra]
      omega
    have hn : notice (aTP_STATUS q) = false := by
      refine Bool.eq_false_iff.2 fun hn => ?_
      have hb := notice_place hn
      simp only [aTP_STATUS, aBREACH_SUM, ra] at hb
      omega
    simp only [State.tpState, State.fld]
    rw [← hr.regs hw _ ho hn]
    rfl
  · rfl

/-- A control position that port `p` puts into its frame assembly on a multiple of 65,536 has its time marker. -/
def State.marked (s : State) (p : Nat) : Bool :=
  (s.port p).lastSent.any (fun x => x.sendTick == s.tickN && x.cls == 7 && x.payload.extractLsb' 40 64 == s.clk.tick)

/-- The CRC of a control position covers its other bytes and leaves them. -/
theorem extract_withPosCrc (c : BitVec 256) : (withPosCrc c).extractLsb' 40 64 = c.extractLsb' 40 64 := by
  apply BitVec.eq_of_getLsbD_eq
  intro i hi
  have h : 40 + i < 240 := by omega
  simp only [withPosCrc, BitVec.getLsbD_extractLsb', hi, decide_true, Bool.true_and]
  rw [BitVec.getLsbD_append, if_pos h, BitVec.getLsbD_extractLsb']
  simp [h]

theorem State.txFlags_lt (s : State) (p : Nat) : s.txFlags p < 256 := by
  have hb (i : Nat) (v : Bool) : (if v then 2 ^ i else 0) ≤ 2 ^ i := by cases v <;> simp
  exact lt_of_le_of_lt (add_le_add (add_le_add (add_le_add (add_le_add (add_le_add (add_le_add (add_le_add (hb 0 _) (hb 1 _))
    (hb 2 _)) (hb 3 _)) (hb 4 _)) (hb 5 _)) (hb 6 _)) (hb 7 _)) (by decide)

/-- The content of a control position holds the tick in its remote half, above flags and counts of one byte each (R162, R163). -/
theorem extract_markerContent {c x y z w u : Nat} (hc : c < 256) (hx : x < 256) (hy : y < 256) (hz : z < 256) :
    (mkPos u 7 (c + 2 ^ 8 * x + 2 ^ 16 * y + 2 ^ 24 * z + 2 ^ 32 * u + 2 ^ 224 * w)).payload.extractLsb' 40 64 =
      BitVec.ofNat 64 u := by
  apply BitVec.eq_of_toNat_eq
  simp only [mkPos, clsByte, BitVec.extractLsb'_toNat, BitVec.toNat_ofNat, Nat.shiftRight_eq_div_pow]
  omega

end Sys2Proof.Machine
end

section
/-! ### Every port that runs frames sends its time marker (R163) -/

namespace Sys2Proof.Machine

set_option Elab.async false

variable {s t u : State} {p q : Nat}

theorem State.sendPos_port (h : Tab.wf (fun _ => Port.empty) s.ports = true) (p : Nat) (x : PortPos) :
    x ∈ ((s.sendPos p x 0).port p).lastSent := by
  rw [State.sendPos, State.setPort_port h]
  simp

/-- The time marker of port `p`, with its flags, three counts of one byte each and the half-width boundary beside the tick. -/
def State.timeMarker (s : State) (p : Nat) (x y z : BitVec 8) (w : Nat) : PortPos :=
  let c := s.txFlags p + 2 ^ 8 * x.toNat + 2 ^ 16 * y.toNat + 2 ^ 24 * z.toNat + 2 ^ 32 * s.tickN + 2 ^ 224 * w
  { mkPos s.tickN 7 c with payload := withPosCrc (mkPos s.tickN 7 c).payload }

theorem State.timeMarker_tick (s : State) (p : Nat) (x y z : BitVec 8) (w : Nat) :
    (s.timeMarker p x y z w).payload.extractLsb' 40 64 = s.clk.tick := by
  simp only [State.timeMarker, extract_withPosCrc]
  rw [extract_markerContent (s.txFlags_lt p) x.isLt y.isLt z.isLt, State.tickN, BitVec.ofNat_toNat, BitVec.setWidth_eq]

/-- On a multiple of 65,536 a port that runs frames, and has sent nothing yet, sends a time marker. -/
theorem State.portFrame_sends (hp : p < 6) (ht : s.tickN % 65536 = 0) (hf : s.portFrames p = true)
    (hl : (s.port p).lastSent = []) :
    ∃ y a b c w, s.portFrame p =
      ((s.showRefuse p).setPort p y).sendPos p ((s.showRefuse p).timeMarker p a b c w) 0 := by
  have h64 : ¬ (s.tickN % 64 ≠ 0 ∨ (s.port p).lastSent.any (fun x => x.sendTick == s.tickN &&
      decide (6 ≤ x.cls ∧ x.cls ≤ 8)) = true) := by
    rw [hl]
    simp only [List.any_nil, Bool.false_eq_true, or_false]
    omega
  have ha : ¬ alignFrame s.tickN = true := by
    simp only [alignFrame, beq_iff_eq]
    omega
  have hn : ¬ (!s.portFrames p) = true := by simp [hf]
  have htime : (s.tickN % 65536 == 0) = true := by simp [ht]
  have htick : (s.showRefuse p).tickN = s.tickN := by
    rw [State.tickN, (s.showRefuse_within hp).parts .clk (by decide), State.tickN]
  unfold State.portFrame State.timeMarker
  simp only [if_neg h64, if_neg ha, if_neg hn, htick]
  rw [htime]
  exact ⟨_, _, _, _, _, rfl⟩

theorem State.portFrame_marked (hports : Tab.wf (fun _ => Port.empty) s.ports = true) (hp : p < 6)
    (ht : s.tickN % 65536 = 0) (hf : s.portFrames p = true) (hl : (s.port p).lastSent = []) :
    (s.portFrame p).marked p = true := by
  obtain ⟨y, a, b, c, w, h⟩ := State.portFrame_sends hp ht hf hl
  have hw : Tab.wf (fun _ => Port.empty) (s.showRefuse p).ports = true := by
    rw [(s.showRefuse_within hp).parts .ports (by decide)]
    exact hports
  generalize s.showRefuse p = v at h hw
  rw [h, State.marked, List.any_eq_true]
  refine ⟨_, State.sendPos_port (s := v.setPort p y) (tput_wf hw p y) p _, ?_⟩
  simp only [State.timeMarker_tick]
  simp [State.timeMarker, mkPos, State.sendPos, State.tickN]

theorem State.portFrame_within (s : State) (hp : p < 6) : s.Within (s.portFrame p) [.hw, .ev, .ports] portReg := by
  have h := State.Within.refl s [.hw, .ev, .ports] portReg
  have hr := (s.showRefuse_within hp).mono (l' := [.hw, .ev, .ports]) (by decide) fun _ => id
  fun_cases State.portFrame s p
  case case1 => exact h
  case case2 => exact h.put_ports
  case case3 => exact h
  case case4 => exact h
  all_goals exact hr.put_ports.put_ports

/-- What the frames of other ports leave of port `p`, and what a frame of any port needs: canonical tables and the tick. -/
structure State.SamePort (s t : State) (p : Nat) : Prop where
  regsWf : Tab.wf regReset t.regs = true
  portsWf : Tab.wf (fun _ => Port.empty) t.ports = true
  clk : t.clk = s.clk
  tpState : t.tpState p = s.tpState p
  port : t.port p = s.port p

theorem State.SamePort.marked (h : s.SamePort t p) : t.marked p = s.marked p := by
  rw [State.marked, h.port, State.tickN, h.clk]
  rfl

theorem State.portFrame_portsWf (h : Tab.wf (fun _ => Port.empty) s.ports = true) (hq : q < 6) :
    Tab.wf (fun _ => Port.empty) (s.portFrame q).ports = true := by
  have hr : Tab.wf (fun _ => Port.empty) (s.showRefuse q).ports = true := by
    rw [(s.showRefuse_within hq).parts .ports (by decide)]
    exact h
  fun_cases State.portFrame s q
  case case1 | case3 | case4 => exact h
  case case2 => exact tput_wf h q _
  all_goals exact tput_wf (tput_wf hr q _) q _

theorem State.setPort_tpState (s : State) (q p : Nat) (x : Port) : (s.setPort q x).tpState p = s.tpState p := rfl

theorem State.sendPos_tpState (s : State) (q p n : Nat) (x : PortPos) : (s.sendPos q x n).tpState p = s.tpState p := rfl

theorem State.portFrame_tpState (h : Tab.wf regReset s.regs = true) (hq : q < 6) :
    (s.portFrame q).tpState p = s.tpState p := by
  fun_cases State.portFrame s q
  case case1 | case2 | case3 | case4 => rfl
  all_goals
    rw [State.sendPos_tpState, State.setPort_tpState]
    exact State.showRefuse_tpState h hq

/-- The frame of a port leaves the other ports. -/
theorem State.portFrame_port_ne (h : Tab.wf (fun _ => Port.empty) s.ports = true) (hq : q < 6) (hne : p ≠ q) :
    (s.portFrame q).port p = s.port p := by
  have hports : (s.showRefuse q).ports = s.ports := (s.showRefuse_within hq).parts .ports (by decide)
  have hr : Tab.wf (fun _ => Port.empty) (s.showRefuse q).ports = true := hports ▸ h
  have hport : (s.showRefuse q).port p = s.port p := by rw [State.port, hports, State.port]
  fun_cases State.portFrame s q
  case case1 | case3 | case4 => rfl
  case case2 => exact State.setPort_port_ne h hne _
  all_goals exact (tget_tput_ne (tput_wf hr q _) hne _).trans ((State.setPort_port_ne hr hne _).trans hport)

theorem State.SamePort.portFrame (h : s.SamePort t p) (hq : q < 6) (hne : p ≠ q) : s.SamePort (t.portFrame q) p where
  regsWf := (t.portFrame_within hq).wf h.regsWf
  portsWf := State.portFrame_portsWf h.portsWf hq
  clk := Eq.trans ((t.portFrame_within hq).parts .clk (by decide)) h.clk
  tpState := (State.portFrame_tpState h.regsWf hq).trans h.tpState
  port := (State.portFrame_port_ne h.portsWf hq hne).trans h.port

theorem State.SamePort.foldl (h : s.SamePort t p) {l : List Nat} (hl : ∀ q ∈ l, q < 6 ∧ p ≠ q) :
    s.SamePort (l.foldl State.portFrame t) p := by
  induction l generalizing t with
  | nil => exact h
  | cons q r ih =>
    obtain ⟨hq, hne⟩ := hl q List.mem_cons_self
    exact ih (h.portFrame hq hne) fun k hk => hl k (List.mem_cons_of_mem q hk)

theorem State.SamePort.refl (hr : Tab.wf regReset s.regs = true) (hp : Tab.wf (fun _ => Port.empty) s.ports = true) :
    s.SamePort s p := ⟨hr, hp, rfl, rfl, rfl⟩

/-- Of the six frames of a tick, those before and after port p's leave the port as it is. -/
theorem State.portFrames_marked (hr : Tab.wf regReset s.regs = true) (hports : Tab.wf (fun _ => Port.empty) s.ports = true)
    (hp : p < 6) (ht : s.tickN % 65536 = 0) (hf : s.portFrames p = true) (hl : (s.port p).lastSent = []) :
    ((List.range 6).foldl State.portFrame s).marked p = true := by
  obtain ⟨l, r, hlr⟩ := List.append_of_mem (List.mem_range.2 hp)
  have hnd : (l ++ p :: r).Nodup := hlr ▸ List.nodup_range
  have hlt : ∀ q ∈ l ++ p :: r, q < 6 := fun q hq => List.mem_range.1 (hlr ▸ hq)
  have hleft : ∀ q ∈ l, q < 6 ∧ p ≠ q := fun q hq =>
    ⟨hlt q (by simp [hq]), fun hc => (List.disjoint_of_nodup_append hnd) hq (by simp [hc])⟩
  have hright : ∀ q ∈ r, q < 6 ∧ p ≠ q := fun q hq =>
    ⟨hlt q (by simp [hq]), fun hc => (List.nodup_cons.1 (List.Nodup.of_append_right hnd)).1 (hc ▸ hq)⟩
  rw [hlr, List.foldl_append, List.foldl_cons]
  have h1 := (State.SamePort.refl (p := p) hr hports).foldl hleft
  generalize l.foldl State.portFrame s = t at h1
  have hm : (t.portFrame p).marked p = true :=
    State.portFrame_marked h1.portsWf hp (by rw [State.tickN, h1.clk]; exact ht)
      (by rw [State.portFrames, h1.tpState]; exact hf) (by rw [h1.port]; exact hl)
  have h2 := (State.SamePort.refl (p := p) ((t.portFrame_within hp).wf h1.regsWf)
    (State.portFrame_portsWf h1.portsWf hp)).foldl hright
  rw [h2.marked, hm]

theorem exec_timeMarkerSend (hr : s.runs = true) (ht : s.tickN % 65536 = 0) :
    exec .timeMarkerSend s = .next ((List.range 6).foldl State.portFrame
      { s with clk := { s.clk with markerTick := s.clk.tick, markerFlag := s.aligned } }) :=
  if_pos (by simp [hr, ht])

/-- What the six frames of a tick change. -/
theorem State.portFrames_within (s : State) :
    s.Within ((List.range 6).foldl State.portFrame s) [.hw, .ev, .ports] portReg :=
  (State.Within.refl s _ _).foldl fun v _ hp => v.portFrame_within (List.mem_range.1 hp)

end Sys2Proof.Machine
end

section
/-! ### Alignment: its loss, the comparison of markers, a missing marker (R47; log entry 26) -/

namespace Sys2Proof.Machine

set_option Elab.async false

variable {s t : State} {p e : Nat}

/-! #### Loss of alignment -/

theorem State.loseAlign_within (s : State) : s.Within s.loseAlign [.hw, .ev, .pat] (among [aTICK_ALIGN]) := by
  have ha : among [aTICK_ALIGN] aTICK_ALIGN = true ∨ notice aTICK_ALIGN = true := .inl (by decide)
  exact ((((State.Within.refl s _ _).setBit ha).setBit ha).raise (by decide)).put_pat.syncBreach

/-- What the loss of alignment writes into `TICK_ALIGN`. -/
theorem State.loseAlign_reg (hs : Tab.wf regReset s.regs = true) :
    s.loseAlign.reg aTICK_ALIGN = putF (putF (s.reg aTICK_ALIGN) fTICK_ALIGN_ALIGNED 0) fTICK_ALIGN_LOST 1 := by
  have h0 := State.setBit_wf hs aTICK_ALIGN fTICK_ALIGN_ALIGNED false
  have h1 := State.setBit_wf h0 aTICK_ALIGN fTICK_ALIGN_LOST true
  have hr := (((State.Within.refl ((s.setBit aTICK_ALIGN fTICK_ALIGN_ALIGNED false).setBit aTICK_ALIGN fTICK_ALIGN_LOST true)
    [.hw, .ev, .pat] fun _ => false).raise (e := 22) (by decide)).put_pat
      (x := { (((s.setBit aTICK_ALIGN fTICK_ALIGN_ALIGNED false).setBit aTICK_ALIGN fTICK_ALIGN_LOST true).raise 22).pat with
        alignLost := true })).syncBreach
  rw [State.loseAlign, hr.regs h1 _ rfl (by decide), State.setBit_reg h0, if_pos rfl, State.setBit_reg hs, if_pos rfl]
  rfl

theorem State.loseAlign_aligned (hs : Tab.wf regReset s.regs = true) : s.loseAlign.bit aTICK_ALIGN fTICK_ALIGN_ALIGNED = false := by
  simp [State.bit, State.loseAlign_reg hs, getB_putF, fTICK_ALIGN_ALIGNED, fTICK_ALIGN_LOST]

theorem State.loseAlign_lost (hs : Tab.wf regReset s.regs = true) : s.loseAlign.bit aTICK_ALIGN fTICK_ALIGN_LOST = true := by
  simp [State.bit, State.loseAlign_reg hs, getB_putF, fTICK_ALIGN_ALIGNED, fTICK_ALIGN_LOST]

theorem State.loseAlign_upAligned (hs : Tab.wf regReset s.regs = true) :
    s.loseAlign.bit aTICK_ALIGN fTICK_ALIGN_UP_ALIGNED = s.bit aTICK_ALIGN fTICK_ALIGN_UP_ALIGNED := by
  simp [State.bit, State.loseAlign_reg hs, getB_putF, fTICK_ALIGN_ALIGNED, fTICK_ALIGN_LOST, fTICK_ALIGN_UP_ALIGNED]

theorem State.loseAlign_offset (hs : Tab.wf regReset s.regs = true) :
    s.loseAlign.fld aTICK_ALIGN fTICK_ALIGN_OFFSET = s.fld aTICK_ALIGN fTICK_ALIGN_OFFSET := by
  rw [State.fld, State.loseAlign_reg hs, getF_putF_disjoint _ _ _ _ (by decide), getF_putF_disjoint _ _ _ _ (by decide), State.fld]

theorem State.loseAlign_showsEvent (hs : Tab.wf regReset s.regs = true) : s.loseAlign.showsEvent 22 := by
  have h0 := State.setBit_wf (State.setBit_wf hs aTICK_ALIGN fTICK_ALIGN_ALIGNED false) aTICK_ALIGN fTICK_ALIGN_LOST true
  have h : (((s.setBit aTICK_ALIGN fTICK_ALIGN_ALIGNED false).setBit aTICK_ALIGN fTICK_ALIGN_LOST true).raise 22).Latched 22 :=
    State.raise_latched h0 (by decide) rfl
  exact State.Latched.showsEvent (State.Latched.syncBreach h) rfl

theorem State.loseAlign_alignLost (s : State) : s.loseAlign.pat.alignLost = true := by
  simp only [State.loseAlign, State.syncBreach_pat]

/-! #### Comparison of a marker -/

/-- The state once a marker that measures the offset `off` has been compared at the expected tick `e`, before alignment is judged. -/
def State.compared (s : State) (al : Bool) (e : Nat) (off : Int) : State :=
  let fits := decide (-32768 ≤ off) && decide (off ≤ 32767)
  let r : Nat × State := if fits then (ofInt 16 off, s) else ((s.fresh 16).1.toNat, (s.fresh 16).2)
  let t := (r.2.setBit aTICK_ALIGN fTICK_ALIGN_UP_ALIGNED al).setFld aTICK_ALIGN fTICK_ALIGN_OFFSET r.1
  { t with clk := { t.clk with lastCmp := e + 1 } }

/-- Within its window a marker on an aligned device is compared, and alignment is lost beyond `TOL` or with a clear flag. -/
theorem exec_timeMarkerCompare {x : W64} {al : Bool} {f : Fin 64} (hup : s.upPort = some p) (hr : s.runs = true)
    (hm : s.bit aTICK_CTRL fTICK_CTRL_MASTER = false) (hl : s.clk.loadArmed = false ∨ al = false)
    (ha : s.bit aTICK_ALIGN fTICK_ALIGN_ALIGNED = true)
    (he : expectedNear ((s.fld (aTP_LAT p) fTP_LAT_D + 63) / 64) s.tickN = some e) (hc : s.clk.lastCmp ≤ e) :
    exec (.timeMarkerCompare x al f) s =
      let t := s.compared al e (s.markerOff p x f)
      .next (if t.fld aTICK_CTRL fTICK_CTRL_TOL < (s.markerOff p x f).natAbs || !al then t.loseAlign else t) := by
  change execTimeMarkerCompare x al f s = _
  have hskip : (!s.runs || s.bit aTICK_CTRL fTICK_CTRL_MASTER || (s.clk.loadArmed && al)) = false := by
    obtain h | h := hl <;> simp [hr, hm, h]
  simp only [execTimeMarkerCompare, hup, hskip, ha, he, if_pos hc, State.compared, Bool.false_eq_true, Bool.not_true, if_false]
  split <;> rfl

theorem exec_timeMarkerCompare_unaligned {x : W64} {al : Bool} {f : Fin 64} (hup : s.upPort = some p) (hr : s.runs = true)
    (hm : s.bit aTICK_CTRL fTICK_CTRL_MASTER = false) (hl : s.clk.loadArmed = false ∨ al = false)
    (ha : s.bit aTICK_ALIGN fTICK_ALIGN_ALIGNED = false) :
    exec (.timeMarkerCompare x al f) s = .next (s.setBit aTICK_ALIGN fTICK_ALIGN_UP_ALIGNED al) := by
  change execTimeMarkerCompare x al f s = _
  have hskip : (!s.runs || s.bit aTICK_CTRL fTICK_CTRL_MASTER || (s.clk.loadArmed && al)) = false := by
    obtain h | h := hl <;> simp [hr, hm, h]
  simp [execTimeMarkerCompare, hup, hskip, ha]

theorem exec_markerMissing {c : Nat} (hc : c = (s.fld (aTP_LAT (s.fld aTICK_CTRL fTICK_CTRL_UP_PORT)) fTP_LAT_D + 63) / 64)
    (hr : s.runs = true) (ha : s.bit aTICK_ALIGN fTICK_ALIGN_ALIGNED = true) (hm : s.bit aTICK_CTRL fTICK_CTRL_MASTER = false)
    (ht : c + 64 ≤ s.tickN) (hl : s.clk.lastCmp ≤ s.tickN - 64 - (s.tickN - 64 - c) % 65536) :
    exec .markerMissing s = .next s.loseAlign := by
  change execMarkerMissing s = _
  subst hc
  simp [execMarkerMissing, hr, ha, hm, ht, hl]

section Compared
variable {al : Bool} {off : Int}

theorem State.compared_within (s : State) (al : Bool) (e : Nat) (off : Int) :
    s.Within (s.compared al e off) [.clk, .hw, .ev, .pat, .free] (among [aTICK_ALIGN]) := by
  have ha : among [aTICK_ALIGN] aTICK_ALIGN = true ∨ notice aTICK_ALIGN = true := .inl (by decide)
  have hf : s.Within (s.fresh 16).2 [.clk, .hw, .ev, .pat, .free] (among [aTICK_ALIGN]) :=
    (State.Within.of_keepsElse (s.keepsElse_free (s.free + 1) (among [aTICK_ALIGN])) rfl).mono (by decide) fun _ h => h
  simp only [State.compared]
  split
  · exact (((State.Within.refl s _ _).setBit ha).setFld ha).put_clk
  · exact ((hf.setBit ha).setFld ha).put_clk

/-- What the comparison writes into `TICK_ALIGN`. -/
theorem State.compared_reg (hs : Tab.wf regReset s.regs = true) : ∃ n,
    (s.compared al e off).reg aTICK_ALIGN =
      putF (putF (s.reg aTICK_ALIGN) fTICK_ALIGN_UP_ALIGNED al.toNat) fTICK_ALIGN_OFFSET n ∧
    (-32768 ≤ off → off ≤ 32767 → n = ofInt 16 off) := by
  have hreg : ∀ (t : State) (n : Nat), t.regs = s.regs →
      ((t.setBit aTICK_ALIGN fTICK_ALIGN_UP_ALIGNED al).setFld aTICK_ALIGN fTICK_ALIGN_OFFSET n).reg aTICK_ALIGN =
        putF (putF (s.reg aTICK_ALIGN) fTICK_ALIGN_UP_ALIGNED al.toNat) fTICK_ALIGN_OFFSET n := by
    intro t n ht
    have hw : Tab.wf regReset t.regs = true := ht ▸ hs
    rw [State.setFld_reg (State.setBit_wf hw _ _ _), if_pos rfl, State.setBit_reg hw, if_pos rfl, State.reg, ht, State.reg]
  by_cases hf : (decide (-32768 ≤ off) && decide (off ≤ 32767)) = true
  · refine ⟨ofInt 16 off, ?_, fun _ _ => rfl⟩
    simp only [State.compared, hf, if_true]
    exact hreg s _ rfl
  · refine ⟨(s.fresh 16).1.toNat, ?_, fun h1 h2 => absurd (by simp [h1, h2]) hf⟩
    simp only [State.compared, if_neg hf]
    exact hreg (s.fresh 16).2 _ rfl

theorem State.compared_clk (s : State) (al : Bool) (e : Nat) (off : Int) :
    (s.compared al e off).clk = { s.clk with lastCmp := e + 1 } := by
  simp only [State.compared]
  split <;> cases al <;> rfl

theorem State.compared_aligned (hs : Tab.wf regReset s.regs = true) :
    (s.compared al e off).bit aTICK_ALIGN fTICK_ALIGN_ALIGNED = s.bit aTICK_ALIGN fTICK_ALIGN_ALIGNED := by
  obtain ⟨n, h, -⟩ := State.compared_reg (al := al) (e := e) (off := off) hs
  simp [State.bit, h, getB_putF, fTICK_ALIGN_ALIGNED, fTICK_ALIGN_UP_ALIGNED, fTICK_ALIGN_OFFSET]

theorem State.compared_upAligned (hs : Tab.wf regReset s.regs = true) :
    (s.compared al e off).bit aTICK_ALIGN fTICK_ALIGN_UP_ALIGNED = al := by
  obtain ⟨n, h, -⟩ := State.compared_reg (al := al) (e := e) (off := off) hs
  cases al <;> simp [State.bit, h, getB_putF, fTICK_ALIGN_UP_ALIGNED, fTICK_ALIGN_OFFSET]

theorem State.compared_offset (hs : Tab.wf regReset s.regs = true) (h1 : -32768 ≤ off) (h2 : off ≤ 32767) :
    (s.compared al e off).fld aTICK_ALIGN fTICK_ALIGN_OFFSET = (BitVec.ofInt 16 off).toNat := by
  obtain ⟨n, h, hn⟩ := State.compared_reg (al := al) (e := e) (off := off) hs
  rw [State.fld, h, getF_putF _ _ _ (by decide), hn h1 h2, BitVec.toNat_ofInt, ofInt]
  exact Nat.mod_eq_of_lt (by simp only [fTICK_ALIGN_OFFSET]; omega)

theorem State.compared_tol (hs : Tab.wf regReset s.regs = true) :
    (s.compared al e off).fld aTICK_CTRL fTICK_CTRL_TOL = s.fld aTICK_CTRL fTICK_CTRL_TOL := by
  rw [State.fld, (s.compared_within al e off).regs hs _ (by decide) (by decide), State.fld]

end Compared

end Sys2Proof.Machine
end

section
/-! ### `TICK_CTRL` and tick loads (R46 to R50; log entry 26) -/

namespace Sys2Proof.Machine

set_option Elab.async false

variable {s : State} {m : Rm} {v : W32} {p : Nat}

/-- What a write of `TICK_CTRL` stores: the word written, with the tolerance that stands where it names none. -/
def State.tickCtrlWord (s : State) (v : W32) : W32 :=
  if getF v fTICK_CTRL_TOL = 0 then putF v fTICK_CTRL_TOL (s.fld aTICK_CTRL fTICK_CTRL_TOL) else v

/-- The two registers once `TICK_CTRL` has taken the word `x`: where a master is or was, the aligned bit follows the master bit. -/
def State.tickCtrlTaken (s : State) (x : W32) : State :=
  let mst := getB x fTICK_CTRL_MASTER
  let t := s.plainWrite aTICK_CTRL x
  if mst || s.bit aTICK_CTRL fTICK_CTRL_MASTER then t.setBit aTICK_ALIGN fTICK_ALIGN_ALIGNED mst else t

/-- The state once `TICK_CTRL` has taken the word `x` and the clocks have followed. -/
def State.tickCtrlStored (s : State) (x : W32) : State :=
  let t := s.tickCtrlTaken x
  State.syncBreach { t with clk := { t.clk with
    loadArmed := (t.clk.loadArmed && !getB x fTICK_CTRL_MASTER) || getB x fTICK_CTRL_ARM
    lastCmp := if getF x fTICK_CTRL_UP_PORT != s.fld aTICK_CTRL fTICK_CTRL_UP_PORT then t.tickN + 1 else t.clk.lastCmp } }

theorem State.tickCtrlWord_master (s : State) (v : W32) : getB (s.tickCtrlWord v) fTICK_CTRL_MASTER =
    getB v fTICK_CTRL_MASTER := by
  rw [State.tickCtrlWord]
  split
  · exact getB_putF v fTICK_CTRL_MASTER fTICK_CTRL_TOL _ (by decide)
  · rfl

theorem State.tickCtrlWord_arm (s : State) (v : W32) : getB (s.tickCtrlWord v) fTICK_CTRL_ARM = getB v fTICK_CTRL_ARM := by
  rw [State.tickCtrlWord]
  split
  · exact getB_putF v fTICK_CTRL_ARM fTICK_CTRL_TOL _ (by decide)
  · rfl

theorem State.tickCtrlWord_upPort (s : State) (v : W32) :
    getF (s.tickCtrlWord v) fTICK_CTRL_UP_PORT = getF v fTICK_CTRL_UP_PORT := by
  rw [State.tickCtrlWord]
  split
  · exact getF_putF_disjoint _ _ _ _ (by decide)
  · rfl

theorem State.tickCtrlWord_tol (s : State) (v : W32) : getF (s.tickCtrlWord v) fTICK_CTRL_TOL =
    if getF v fTICK_CTRL_TOL = 0 then s.fld aTICK_CTRL fTICK_CTRL_TOL else getF v fTICK_CTRL_TOL := by
  rw [State.tickCtrlWord]
  split
  · rw [getF_putF _ _ _ (by decide)]
    exact Nat.mod_eq_of_lt (Nat.mod_lt _ (by decide))
  · rfl

/-- A refused write: the master or the upstream port moves under a scheduled port, or a load finds a master or a pattern. -/
def State.tickCtrlBad (s : State) (v : W32) : Prop :=
  ((getB v fTICK_CTRL_MASTER ≠ s.bit aTICK_CTRL fTICK_CTRL_MASTER ∨
      getF v fTICK_CTRL_UP_PORT ≠ s.fld aTICK_CTRL fTICK_CTRL_UP_PORT) ∧ s.anySched = true) ∨
    (getB v fTICK_CTRL_ARM = true ∧ (getB v fTICK_CTRL_MASTER = true ∨ s.bit aPAT_STATUS fPAT_STATUS_RUN = true ∨
      s.fld aPAT_STATUS fPAT_STATUS_ARMED ≠ 0))

/-- The condition the model tests, read off the word that it would store. -/
theorem State.tickCtrlBad_iff (s : State) (v : W32) :
    ((((getB (s.tickCtrlWord v) fTICK_CTRL_MASTER != s.bit aTICK_CTRL fTICK_CTRL_MASTER ||
        getF (s.tickCtrlWord v) fTICK_CTRL_UP_PORT != s.fld aTICK_CTRL fTICK_CTRL_UP_PORT) && s.anySched) ||
      (getB (s.tickCtrlWord v) fTICK_CTRL_ARM && ((s.bit aPAT_STATUS fPAT_STATUS_RUN ||
        s.fld aPAT_STATUS fPAT_STATUS_ARMED != 0) || getB (s.tickCtrlWord v) fTICK_CTRL_MASTER))) = true) ↔ s.tickCtrlBad v := by
  simp only [State.tickCtrlWord_master, State.tickCtrlWord_arm, State.tickCtrlWord_upPort, State.tickCtrlBad, Bool.or_eq_true,
    Bool.and_eq_true, bne_iff_ne]
  tauto

theorem tickCtrlWrite_refused (h : s.tickCtrlBad v) : tickCtrlWrite v s = refuse s :=
  if_pos ((s.tickCtrlBad_iff v).2 h)

theorem tickCtrlWrite_ok (h : ¬ s.tickCtrlBad v) : tickCtrlWrite v s = wrote (s.tickCtrlStored (s.tickCtrlWord v)) :=
  if_neg fun hc => h ((s.tickCtrlBad_iff v).1 hc)

theorem State.tickCtrlStored_within (s : State) (x : W32) :
    s.Within (s.tickCtrlStored x) [.clk, .hw, .ev] (among [aTICK_CTRL, aTICK_ALIGN]) := by
  have hp : s.Within (s.plainWrite aTICK_CTRL x) [.clk, .hw, .ev] (among [aTICK_CTRL, aTICK_ALIGN]) := by
    obtain ⟨r, hr⟩ : ∃ r, regRow aTICK_CTRL = some r := ⟨_, rfl⟩
    rw [State.plainWrite_eq hr]
    exact (State.Within.refl s _ _).setReg (.inl (by decide))
  exact (State.Within.ite (hp.setBit (.inl (by decide))) hp).put_clk.syncBreach

/-- The sum of the breaches is kept after new clocks are in place; it writes no register but those that record events. -/
theorem State.syncBreach_clk_reg {t : State} {a : Nat} (ht : Tab.wf regReset t.regs = true) (c : Clk)
    (ha : notice a = false) : (State.syncBreach { t with clk := c }).reg a = t.reg a :=
  (State.Within.refl { t with clk := c } [.hw, .ev] fun _ => false).syncBreach.regs ht a rfl ha

section Stored
variable {x : W32} (hs : Tab.wf regReset s.regs = true)
include hs

theorem State.tickCtrlTaken_wf : Tab.wf regReset (s.tickCtrlTaken x).regs = true := by
  simp only [State.tickCtrlTaken]
  split
  · exact State.setBit_wf (State.plainWrite_wf hs _ _) _ _ _
  · exact State.plainWrite_wf hs _ _

/-- `TICK_CTRL` stands apart from the sum of the breaches and from `TICK_ALIGN`. -/
theorem State.tickCtrlStored_ctrl : (s.tickCtrlStored x).reg aTICK_CTRL = (s.plainWrite aTICK_CTRL x).reg aTICK_CTRL := by
  have ht : (s.tickCtrlTaken x).reg aTICK_CTRL = (s.plainWrite aTICK_CTRL x).reg aTICK_CTRL := by
    simp only [State.tickCtrlTaken]
    split
    · rw [State.setBit_reg (State.plainWrite_wf hs _ _), if_neg (by decide)]
    · rfl
  rw [← ht]
  exact State.syncBreach_clk_reg (State.tickCtrlTaken_wf hs) _ rfl

theorem State.tickCtrlStored_align : (s.tickCtrlStored x).reg aTICK_ALIGN = (s.tickCtrlTaken x).reg aTICK_ALIGN :=
  State.syncBreach_clk_reg (State.tickCtrlTaken_wf hs) _ rfl

theorem State.tickCtrlStored_master : (s.tickCtrlStored x).bit aTICK_CTRL fTICK_CTRL_MASTER = getB x fTICK_CTRL_MASTER := by
  rw [State.bit, State.tickCtrlStored_ctrl hs]
  exact State.plainWrite_bit hs (w := (regRow aTICK_CTRL).get (by decide)) (by simp) x rfl (by decide)

theorem State.tickCtrlStored_upPort : (s.tickCtrlStored x).fld aTICK_CTRL fTICK_CTRL_UP_PORT = getF x fTICK_CTRL_UP_PORT := by
  rw [State.fld, State.tickCtrlStored_ctrl hs]
  exact State.plainWrite_fld hs (w := (regRow aTICK_CTRL).get (by decide)) (by simp) x (by decide)

theorem State.tickCtrlStored_tol : (s.tickCtrlStored x).fld aTICK_CTRL fTICK_CTRL_TOL = getF x fTICK_CTRL_TOL := by
  rw [State.fld, State.tickCtrlStored_ctrl hs]
  exact State.plainWrite_fld hs (w := (regRow aTICK_CTRL).get (by decide)) (by simp) x (by decide)

/-- A change between master and not, or a write of the master, sets the aligned bit to the master bit. -/
theorem State.tickCtrlStored_aligned : (s.tickCtrlStored x).bit aTICK_ALIGN fTICK_ALIGN_ALIGNED =
    if getB x fTICK_CTRL_MASTER || s.bit aTICK_CTRL fTICK_CTRL_MASTER then getB x fTICK_CTRL_MASTER
    else s.bit aTICK_ALIGN fTICK_ALIGN_ALIGNED := by
  rw [State.bit, State.tickCtrlStored_align hs]
  simp only [State.tickCtrlTaken]
  split
  · exact State.setBit_bit_same (State.plainWrite_wf hs _ _) rfl (by decide)
  · rw [State.plainWrite_reg_ne hs (by decide), State.bit]

end Stored

theorem State.tickCtrlTaken_clk (s : State) (x : W32) : (s.tickCtrlTaken x).clk = s.clk := by
  have hb : ∀ b, ((s.plainWrite aTICK_CTRL x).setBit aTICK_ALIGN fTICK_ALIGN_ALIGNED b).clk = s.clk := fun b => by
    rw [← s.plainWrite_clk aTICK_CTRL x]
    cases b <;> rfl
  simp only [State.tickCtrlTaken]
  split
  · exact hb _
  · exact s.plainWrite_clk _ _

theorem State.tickCtrlStored_loadArmed {x : W32} : (s.tickCtrlStored x).clk.loadArmed =
    (s.clk.loadArmed && !getB x fTICK_CTRL_MASTER || getB x fTICK_CTRL_ARM) := by
  have hb : ∀ t : State, t.syncBreach.clk = t.clk := fun t =>
    ((State.Within.refl t [.hw, .ev] fun _ => false).syncBreach).parts .clk (by decide)
  simp only [State.tickCtrlStored, hb, State.tickCtrlTaken_clk]

/-- The word that a tick load arms with: the master and the upstream port as written, ARM set. -/
theorem tickLoadArm_bits (v : W32) : getB (putF v fTICK_CTRL_ARM 1) fTICK_CTRL_MASTER = getB v fTICK_CTRL_MASTER ∧
    getF (putF v fTICK_CTRL_ARM 1) fTICK_CTRL_UP_PORT = getF v fTICK_CTRL_UP_PORT ∧
    getB (putF v fTICK_CTRL_ARM 1) fTICK_CTRL_ARM = true :=
  ⟨getB_putF v fTICK_CTRL_MASTER fTICK_CTRL_ARM 1 (by decide), getF_putF_disjoint _ _ _ _ (by decide),
    getB_putF v fTICK_CTRL_ARM fTICK_CTRL_ARM 1 (by decide)⟩

theorem State.tickCtrlBad_arm_iff (s : State) (v : W32) : s.tickCtrlBad (putF v fTICK_CTRL_ARM 1) ↔
    ((getB v fTICK_CTRL_MASTER ≠ s.bit aTICK_CTRL fTICK_CTRL_MASTER ∨
      getF v fTICK_CTRL_UP_PORT ≠ s.fld aTICK_CTRL fTICK_CTRL_UP_PORT) ∧ s.anySched = true) ∨
    (getB v fTICK_CTRL_MASTER = true ∨ s.bit aPAT_STATUS fPAT_STATUS_RUN = true ∨ s.fld aPAT_STATUS fPAT_STATUS_ARMED ≠ 0) := by
  obtain ⟨hm, hu, ha⟩ := tickLoadArm_bits v
  simp only [State.tickCtrlBad, hm, hu, ha, true_and]

/-! #### The load -/

/-- A fabric clock that runs takes the start tick `n`. -/
def fclkPut (act : Tab W32) (n : Nat) (start : Tab Nat) (i : Nat) : Tab Nat :=
  if (tget (fun _ => 0#32) act i).getLsbD 31 then tput (fun _ => 0) start i n else start

/-- The start ticks of the fabric clocks once those that run have been brought to `n`. -/
def fclkRestart (act : Tab W32) (n : Nat) (start : Tab Nat) : Tab Nat := (List.range 16).foldl (fclkPut act n) start

section Restart
variable {act : Tab W32} {start : Tab Nat} {n i j : Nat}

theorem fclkPut_wf (h : Tab.wf (fun _ => 0) start = true) : Tab.wf (fun _ => 0) (fclkPut act n start j) = true := by
  rw [fclkPut]
  split
  · exact tput_wf h j n
  · exact h

theorem tget_fclkPut_same (h : Tab.wf (fun _ => 0) start = true) (ha : (tget (fun _ => 0#32) act i).getLsbD 31 = true) :
    tget (fun _ => 0) (fclkPut act n start i) i = n := by
  rw [fclkPut, if_pos ha, tget_tput_same h]

theorem tget_fclkPut_ne (h : Tab.wf (fun _ => 0) start = true) (hj : i ≠ j) :
    tget (fun _ => 0) (fclkPut act n start j) i = tget (fun _ => 0) start i := by
  rw [fclkPut]
  split
  · exact tget_tput_ne h hj n
  · rfl

/-- Every running clock of the sixteen starts at `n`. -/
theorem tget_fclkRestart (hw : Tab.wf (fun _ => 0) start = true) (hi : i < 16)
    (ha : (tget (fun _ => 0#32) act i).getLsbD 31 = true) : tget (fun _ => 0) (fclkRestart act n start) i = n := by
  have hfold : ∀ (l : List Nat) (u : Tab Nat), Tab.wf (fun _ => 0) u = true → i ∈ l ∨ tget (fun _ => 0) u i = n →
      tget (fun _ => 0) (l.foldl (fclkPut act n) u) i = n := by
    intro l
    induction l with
    | nil => exact fun u _ h => h.resolve_left List.not_mem_nil
    | cons j r ih =>
      intro u hu h
      refine ih _ (fclkPut_wf hu) ?_
      by_cases hj : i = j
      · exact .inr (hj ▸ tget_fclkPut_same hu ha)
      · rw [tget_fclkPut_ne hu hj]
        exact h.imp_left fun h => (List.mem_cons.1 h).resolve_left hj
  exact hfold _ _ hw (.inl (List.mem_range.2 hi))

end Restart

/-- The clocks once the marker value `x` has been loaded, at a latency of `d` 64ths of a tick. -/
def Clk.loaded (c : Clk) (x : W64) (d : Nat) : Clk :=
  let tick := x + BitVec.ofNat 64 (d / 64)
  { c with tick := tick, rootShift := d % 64, loadArmed := false, lastCmp := tick.toNat + 2
           fclkStart := fclkRestart c.fclkAct ((tick.toNat + 23) / 24 * 24) c.fclkStart }

/-- The state once its clocks are those of `c`, aligned by a load. -/
def State.loadAligned (s : State) (c : Clk) : State :=
  (((State.setBit { s with clk := c } aTICK_ALIGN fTICK_ALIGN_ALIGNED true).setBit aTICK_ALIGN
    fTICK_ALIGN_UP_ALIGNED true).raise 21).syncBreach

theorem exec_tickLoad {x : W64} (hup : s.upPort = some p) (hr : s.runs = true) (hl : s.clk.loadArmed = true) :
    exec (.tickLoad x) s = .next (s.loadAligned (s.clk.loaded x (s.fld (aTP_LAT p) fTP_LAT_D))) := by
  change execTickLoad x s = _
  simp only [execTickLoad, hup, hr, hl]
  rfl

theorem State.loadAligned_within (s : State) (c : Clk) :
    s.Within (s.loadAligned c) [.clk, .hw, .ev] (among [aTICK_ALIGN]) := by
  have h : s.Within { s with clk := c } [.clk, .hw, .ev] (among [aTICK_ALIGN]) := (State.Within.refl s _ _).put_clk
  exact (((h.setBit (.inl (by decide))).setBit (.inl (by decide))).raise (by decide)).syncBreach

theorem State.loadAligned_clk (s : State) (c : Clk) : (s.loadAligned c).clk = c := by
  have h := (((State.Within.refl ((State.setBit { s with clk := c } aTICK_ALIGN fTICK_ALIGN_ALIGNED true).setBit aTICK_ALIGN
    fTICK_ALIGN_UP_ALIGNED true) [.hw, .ev] fun _ => false).raise (e := 21) (by decide)).syncBreach).parts .clk (by decide)
  exact h

theorem State.loadAligned_bits (hs : Tab.wf regReset s.regs = true) (c : Clk) :
    (s.loadAligned c).bit aTICK_ALIGN fTICK_ALIGN_ALIGNED = true ∧
      (s.loadAligned c).bit aTICK_ALIGN fTICK_ALIGN_UP_ALIGNED = true ∧ (s.loadAligned c).showsEvent 21 := by
  have h0 := State.setBit_wf (s := { s with clk := c }) hs aTICK_ALIGN fTICK_ALIGN_ALIGNED true
  have h1 := State.setBit_wf h0 aTICK_ALIGN fTICK_ALIGN_UP_ALIGNED true
  have hr := ((State.Within.refl _ [.hw, .ev] fun _ => false).raise (e := 21) (by decide)).syncBreach.regs h1 aTICK_ALIGN rfl
    (by decide)
  rw [State.setBit_reg h0, if_pos rfl, State.setBit_reg (s := { s with clk := c }) hs, if_pos rfl] at hr
  refine ⟨?_, ?_, (State.raise_latched h1 (by decide) rfl).syncBreach.showsEvent rfl⟩
  · rw [State.bit, State.loadAligned, hr]
    simp [getB_putF, fTICK_ALIGN_ALIGNED, fTICK_ALIGN_UP_ALIGNED]
  · rw [State.bit, State.loadAligned, hr]
    simp [getB_putF, fTICK_ALIGN_ALIGNED, fTICK_ALIGN_UP_ALIGNED]

end Sys2Proof.Machine
end

section
/-! ### O9: the obligation on the alignment of ticks -/

namespace Sys2Proof.Machine

set_option Elab.async false

variable {s : State} {p : Nat}

/-- On a multiple of 65,536 the marker's tick is set aside and every port that runs frames sends it. -/
theorem timeMarkerSend_leads (hs : s.Inv) (hr : s.runs = true) (ht : s.tickN % 65536 = 0) :
    Leads .timeMarkerSend s fun t => t.clk = { s.clk with markerTick := s.clk.tick, markerFlag := s.aligned } ∧
      (∀ p, p < 6 → s.portFrames p = true → (s.port p).lastSent = [] → t.marked p = true) ∧
      s.Within t [.clk, .hw, .ev, .ports] portReg := by
  refine ⟨_, exec_timeMarkerSend hr ht, ?_⟩
  have h0 : s.Within { s with clk := { s.clk with markerTick := s.clk.tick, markerFlag := s.aligned } }
      [.clk, .hw, .ev, .ports] portReg := (State.Within.refl s _ _).put_clk
  have hf := State.portFrames_within { s with clk := { s.clk with markerTick := s.clk.tick, markerFlag := s.aligned } }
  refine ⟨hf.parts .clk (by decide), fun p hp hpf hl => ?_,
    h0.trans (hf.mono (by decide) fun _ => id)⟩
  exact State.portFrames_marked (s := { s with clk := _ }) hs.regs_wf hs.ports_wf hp ht hpf hl

/-- A comparison in its window keeps alignment with the flag set and the offset within `TOL`, and otherwise loses it. -/
theorem timeMarkerCompare_leads {x : W64} {al : Bool} {f : Fin 64} {e : Nat} (hs : s.Inv) (hup : s.upPort = some p)
    (hr : s.runs = true) (hm : s.bit aTICK_CTRL fTICK_CTRL_MASTER = false) (hl : s.clk.loadArmed = false ∨ al = false)
    (ha : s.bit aTICK_ALIGN fTICK_ALIGN_ALIGNED = true)
    (he : expectedNear ((s.fld (aTP_LAT p) fTP_LAT_D + 63) / 64) s.tickN = some e) (hc : s.clk.lastCmp ≤ e) :
    Leads (.timeMarkerCompare x al f) s (fun t => t.clk = { s.clk with lastCmp := e + 1 } ∧
      t.bit aTICK_ALIGN fTICK_ALIGN_UP_ALIGNED = al ∧ (-32768 ≤ s.markerOff p x f → s.markerOff p x f ≤ 32767 →
      t.fld aTICK_ALIGN fTICK_ALIGN_OFFSET = (BitVec.ofInt 16 (s.markerOff p x f)).toNat) ∧
      t.bit aTICK_ALIGN fTICK_ALIGN_ALIGNED = (al && decide ((s.markerOff p x f).natAbs ≤ s.fld aTICK_CTRL fTICK_CTRL_TOL)) ∧
      ((al = false ∨ s.fld aTICK_CTRL fTICK_CTRL_TOL < (s.markerOff p x f).natAbs) →
        t.bit aTICK_ALIGN fTICK_ALIGN_LOST = true ∧ t.showsEvent 22 ∧ t.pat.alignLost = true) ∧
      s.keepsElse t [.clk, .hw, .ev, .pat, .free] (among [aTICK_ALIGN])) := by
  have hw := hs.regs_wf
  refine ⟨_, exec_timeMarkerCompare hup hr hm hl ha he hc, ?_⟩
  generalize s.markerOff p x f = off
  have hcw := (s.compared_within al e off).wf hw
  have hcc := s.compared_clk al e off
  have hct : (s.compared al e off).fld aTICK_CTRL fTICK_CTRL_TOL = s.fld aTICK_CTRL fTICK_CTRL_TOL := State.compared_tol hw
  rw [hct]
  split
  · next hbad =>
    have hlw := (s.compared al e off).loseAlign_within
    have hfalse : (al && decide (off.natAbs ≤ s.fld aTICK_CTRL fTICK_CTRL_TOL)) = false := by
      cases al
      · rfl
      · simpa using hbad
    refine ⟨Eq.trans (hlw.parts .clk (by decide)) hcc, (State.loseAlign_upAligned hcw).trans (State.compared_upAligned hw),
      fun h1 h2 => (State.loseAlign_offset hcw).trans (State.compared_offset hw h1 h2), ?_, fun _ =>
      ⟨State.loseAlign_lost hcw, State.loseAlign_showsEvent hcw, State.loseAlign_alignLost _⟩, ?_⟩
    · rw [State.loseAlign_aligned hcw, hfalse]
    · exact ((s.compared_within al e off).trans (hlw.mono (by decide) fun _ => id)).keepsElse hw
  · next hgood =>
    simp only [Bool.or_eq_true, decide_eq_true_eq, Bool.not_eq_true', not_or, not_lt, Bool.not_eq_false] at hgood
    obtain ⟨htol, rfl⟩ := hgood
    refine ⟨hcc, State.compared_upAligned hw, State.compared_offset hw, ?_, ?_, (s.compared_within true e off).keepsElse hw⟩
    · simp [State.compared_aligned hw, ha, htol]
    · rintro (h | h)
      · exact absurd h (by decide)
      · omega

/-- Settles O9: clause by clause, each occurrence by its branch and what the operations of that branch do. -/
theorem tickAlignment : Obligations.TickAlignment := by
  unfold Obligations.TickAlignment
  intro s hs
  have hw := hs.regs_wf
  refine ⟨fun hr ht => ?_, fun x al f p e hup hr hm hl ha he hc => timeMarkerCompare_leads hs hup hr hm hl ha he hc,
    fun x al f p hup hr hm hl ha => exec_timeMarkerCompare_unaligned hup hr hm hl ha, fun c hc hr ha hm ht hl => ?_,
    fun m v hr hn => ?_, fun m v hr hb => ?_, fun x p hup hr hl => ?_, fun m v hr hn => ?_, fun m v hr hb => ?_⟩
  · obtain ⟨t, ht, hclk, hmark, hk⟩ := timeMarkerSend_leads hs hr ht
    refine ⟨t, ht, hclk, fun p hp hf hl => ?_, (hk.mono (by decide) fun a ha => by simp [ha]).keepsElse hw⟩
    have hm := hmark p hp hf hl
    simpa only [State.marked, State.tickN, hclk] using hm
  · exact ⟨_, exec_markerMissing hc hr ha hm ht hl, State.loseAlign_aligned hw, State.loseAlign_lost hw,
      State.loseAlign_showsEvent hw, s.loseAlign_alignLost, s.loseAlign_within.keepsElse hw⟩
  · have hbad : ¬ s.tickCtrlBad (putF v fTICK_CTRL_ARM 1) := fun h => hn ((s.tickCtrlBad_arm_iff v).1 h)
    obtain ⟨hmst, hup, harm⟩ := tickLoadArm_bits v
    have hm : getB v fTICK_CTRL_MASTER = false := by
      by_contra h
      exact hn (.inr (.inl (by simpa using h)))
    refine ⟨_, congrArg Host.Outcome.next (ringPut_wrote hr (tickCtrlWrite_ok hbad)), ?_, ?_, ?_, fun hms => ?_,
      (s.tickCtrlStored_within _).keepsElse hw⟩
    · simp [State.tickCtrlStored_loadArmed, State.tickCtrlWord_arm, harm]
    · rw [State.tickCtrlStored_upPort hw, State.tickCtrlWord_upPort, hup]
    · rw [State.tickCtrlStored_master hw, State.tickCtrlWord_master, hmst, hm]
    · rw [State.tickCtrlStored_aligned hw, State.tickCtrlWord_master, hmst, hm, hms]
      rfl
  · exact ⟨s, congrArg Host.Outcome.next (ringPut_refused hr (tickCtrlWrite_refused ((s.tickCtrlBad_arm_iff v).2 hb))), rfl⟩
  · obtain ⟨hal, hua, hev⟩ := State.loadAligned_bits hw (s.clk.loaded x (s.fld (aTP_LAT p) fTP_LAT_D))
    have hclk := s.loadAligned_clk (s.clk.loaded x (s.fld (aTP_LAT p) fTP_LAT_D))
    refine ⟨_, exec_tickLoad hup hr hl, ?_, ?_, ?_, hal, hua, hev, fun n hn ha => ?_, (s.loadAligned_within _).keepsElse hw⟩
    · rw [hclk, Clk.loaded]
    · rw [hclk, Clk.loaded]
    · rw [hclk, Clk.loaded]
    · rw [State.tickN, hclk]
      exact tget_fclkRestart hs.fclkStart_wf hn ha
  · refine ⟨_, congrArg Host.Outcome.next (ringPut_wrote hr (tickCtrlWrite_ok hn)), ?_, ?_, ?_, ?_, ?_,
      (s.tickCtrlStored_within _).keepsElse hw⟩
    · rw [State.tickCtrlStored_master hw, State.tickCtrlWord_master]
    · rw [State.tickCtrlStored_upPort hw, State.tickCtrlWord_upPort]
    · rw [State.tickCtrlStored_tol hw, State.tickCtrlWord_tol]
    · rw [State.tickCtrlStored_aligned hw, State.tickCtrlWord_master]
    · rw [State.tickCtrlStored_loadArmed, State.tickCtrlWord_master, State.tickCtrlWord_arm, Bool.or_comm]
  · exact ⟨s, congrArg Host.Outcome.next (ringPut_refused hr (tickCtrlWrite_refused hb)), rfl⟩

end Sys2Proof.Machine
end

section
/-! ### Resets and start-up (R13, R30, R46, R212, R375, R402, R423, R429; log entries 4, 6, 19, 20, 21, 30, 125) -/

namespace Sys2Proof.Machine

set_option Elab.async false

variable {s t : State} {st x : Straps} {a i : Nat} {keep : Nat → Bool} {ph : ClkPhase}

/-! #### What a reset keeps -/

theorem State.resetKeeping_wf (hs : Tab.wf regReset s.regs = true) (keep : Nat → Bool) (ph : ClkPhase) :
    Tab.wf regReset (s.resetKeeping keep ph).regs = true := tkeep_wf hs keep

theorem State.resetKeeping_reg (hs : Tab.wf regReset s.regs = true) (keep : Nat → Bool) (ph : ClkPhase) (a : Nat) :
    (s.resetKeeping keep ph).reg a = if keep a then s.reg a else regReset a := tget_tkeep hs keep a

/-- The registers that the reset of the device keeps: those of the rim, what has been lost, and the rim's clock. -/
def resetKeeps (a : Nat) : Bool := rimReg a || a == aDBG_LOST || a == aRIM_CLK

/-- The state once the device has been reset into a clock phase, with its clocks no longer recorded as stopped. -/
def State.deviceReset (s : State) (ph : ClkPhase) : State :=
  ((s.resetKeeping resetKeeps ph).setBit aRIM_CLK fRIM_CLK_STOPPED false).setBit aRIM_CLK fRIM_CLK_SRC_VALID false

section DeviceReset
variable (hs : Tab.wf regReset s.regs = true)
include hs

theorem State.deviceReset_wf (ph : ClkPhase) : Tab.wf regReset (s.deviceReset ph).regs = true :=
  State.setBit_wf (State.setBit_wf (State.resetKeeping_wf hs _ ph) _ _ _) _ _ _

theorem State.deviceReset_reg (ph : ClkPhase) (ha : a ≠ aRIM_CLK) :
    (s.deviceReset ph).reg a = if resetKeeps a then s.reg a else regReset a := by
  have h0 := State.resetKeeping_wf hs resetKeeps ph
  rw [State.deviceReset, State.setBit_reg (State.setBit_wf h0 _ _ _), if_neg ha, State.setBit_reg h0, if_neg ha,
    State.resetKeeping_reg hs]

theorem State.deviceReset_stopped (ph : ClkPhase) : (s.deviceReset ph).bit aRIM_CLK fRIM_CLK_STOPPED = false := by
  have h0 := State.resetKeeping_wf hs resetKeeps ph
  rw [State.deviceReset, State.setBit_bit_ne (State.setBit_wf h0 _ _ _) (by decide) (by decide),
    State.setBit_bit_same h0 rfl (by decide)]

end DeviceReset

/-- The rim's registers stand apart from those that record events, from the record of losses and from the rim's clock. -/
theorem rimReg_apart (h : rimReg a = true) : notice a = false ∧ a ≠ aDBG_LOST ∧ a ≠ aRIM_CLK := by
  have hb : a / 65536 = 393218 := by
    simp only [rimReg, Bool.and_eq_true, beq_iff_eq] at h
    exact h.1
  refine ⟨Bool.eq_false_iff.2 fun hn => ?_, ?_, ?_⟩
  · have hp := notice_place hn
    simp only [aBREACH_SUM, ra] at hp
    omega
  · rintro rfl
    simp [aDBG_LOST, ra] at hb
  · rintro rfl
    simp [aRIM_CLK, ra] at hb

/-! #### The record of what has been lost (R403) -/

theorem State.dbgLost_within (s : State) (i : Nat) : s.Within (s.dbgLost i) [.hw, .ev] (among [aDBG_LOST]) :=
  (State.Within.refl s _ _).flagRaise (.inl (by decide)) (by decide)

theorem State.dbgLost_bit (hs : Tab.wf regReset s.regs = true) (hi : i < 32) : (s.dbgLost i).bit aDBG_LOST ⟨i, 1⟩ = true := by
  fun_cases State.flagRaise s aDBG_LOST ⟨i, 1⟩ 1930
  case case1 h =>
    rw [State.dbgLost, State.flagRaise, if_pos h]
    exact h
  case case2 h =>
    have hw := State.setBit_wf hs aDBG_LOST ⟨i, 1⟩ true
    have hr := ((State.Within.refl (s.setBit aDBG_LOST ⟨i, 1⟩ true) [.hw, .ev] fun _ => false).raise (e := 1930)
      (by decide)).regs hw aDBG_LOST rfl (by decide)
    rw [State.dbgLost, State.flagRaise, if_neg h, State.bit, hr, State.setBit_reg hs, if_pos rfl, getB_putF _ _ _ _ hi]
    simp

/-- A reset of the device that records its loss: every register but those it keeps and those that record events, and the
registers of the rim. -/
theorem State.deviceReset_dbgLost (hs : Tab.wf regReset s.regs = true) (ph : ClkPhase) (i : Nat) (hi : i < 32)
    (ht : t.regs = (s.deviceReset ph).regs) :
    (∀ a, rimReg a = false → notice a = false → a ≠ aDBG_LOST → a ≠ aRIM_CLK → (t.dbgLost i).reg a = regReset a) ∧
      (∀ a, rimReg a = true → (t.dbgLost i).reg a = s.reg a) ∧ (t.dbgLost i).bit aDBG_LOST ⟨i, 1⟩ = true ∧
      (t.dbgLost i).bit aRIM_CLK fRIM_CLK_STOPPED = false := by
  have hw : Tab.wf regReset t.regs = true := ht ▸ State.deviceReset_wf hs ph
  have hreg (a : Nat) (hn : notice a = false) (hd : a ≠ aDBG_LOST) : (t.dbgLost i).reg a = (s.deviceReset ph).reg a := by
    rw [(t.dbgLost_within i).regs hw a (by simp [among, hd]) hn, State.reg, ht, State.reg]
  refine ⟨fun a hr hn hd hc => ?_, fun a hr => ?_, State.dbgLost_bit hw hi, ?_⟩
  · rw [hreg a hn hd, State.deviceReset_reg hs ph hc, if_neg (by simp [resetKeeps, hr, hd, hc])]
  · obtain ⟨hn, hd, hc⟩ := rimReg_apart hr
    rw [hreg a hn hd, State.deviceReset_reg hs ph hc, if_pos (by simp [resetKeeps, hr])]
  · rw [State.bit, hreg aRIM_CLK (by decide) (by decide)]
    exact State.deviceReset_stopped hs ph

/-! #### Straps (R212, R423) -/

/-- A strap that does not float is sampled as it stands. -/
theorem strapBits_getLsbD {w lsb : Nat} {v : BitVec w} (hf : st.floating.getLsbD (lsb + i) = false) :
    (strapBits st w lsb v s).1.getLsbD i = v.getLsbD i := by
  have hm : (st.floating.toNat / 2 ^ lsb).testBit i = false := by
    rw [Nat.testBit_div_two_pow, Nat.add_comm]
    exact hf
  simp only [strapBits, BitVec.getLsbD_or, BitVec.getLsbD_and, BitVec.getLsbD_not, BitVec.getLsbD_ofNat, hm]
  by_cases hi : i < w
  · simp [hi]
  · simp [hi, BitVec.getLsbD_of_ge v i (by omega)]

/-- The straps of the configuration, once sampled, and the free values that the floating ones draw. -/
theorem State.sampleCfg_eq (s : State) (st : Straps) : ∃ m p,
    s.sampleCfg st = { s with free := s.free + 2, pins := { s.pins with cfgMode := m, cfgPull := p } } ∧
    (∀ i, i < 3 → st.floating.getLsbD i = false → m.getLsbD i = st.cfgMode.getLsbD i) ∧
    (st.floating.getLsbD 3 = false → p = st.cfgPull) := by
  refine ⟨_, _, rfl, fun i _ hf => strapBits_getLsbD (by rwa [Nat.zero_add]), fun hf => ?_⟩
  have hb : (strapBits st 1 3 (if st.cfgPull then 1#1 else 0#1) (s.fresh 3).2).1 = if st.cfgPull then 1#1 else 0#1 :=
    BitVec.eq_of_getLsbD_eq fun i hi => strapBits_getLsbD (by rwa [show 3 + i = 3 by omega])
  change ((strapBits st 1 3 (if st.cfgPull then 1#1 else 0#1) (s.fresh 3).2).1 == 1#1) = st.cfgPull
  rw [hb]
  cases st.cfgPull <;> rfl

theorem State.sampleCfg_within (s : State) (st : Straps) : s.Within (s.sampleCfg st) [.pins, .free] fun _ => false := by
  obtain ⟨m, p, h, -⟩ := s.sampleCfg_eq st
  rw [h]
  refine (State.Within.refl s _ _).put (fun q hq => ?_) rfl
  cases q
  case pins | free => exact absurd (by decide) hq
  case mem => exact fun _ => rfl
  all_goals rfl

end Sys2Proof.Machine
end

section
/-! ### O10: the occurrences of start-up and reset, and the obligation -/

namespace Sys2Proof.Machine

set_option Elab.async false

variable {s t : State} {x : Straps} {b : BitVec 8} {i : Nat}

/-! #### Supplies -/

theorem exec_supplyDrop (h : s.clk.phase ≠ .porHold) : exec .supplyDrop s = .next ((s.deviceReset .porHold).dbgLost 0) :=
  if_neg (by simpa using h)

/-- On VBAT the registers of the rim alone are kept, and the rim records the switchover. -/
def State.vbatReset (s : State) : State :=
  ((s.resetKeeping rimReg .porHold).setBit aRIM_STAT fRIM_STAT_VBAT_USED true).setBit aRIM_STAT fRIM_STAT_AUX_OK false

theorem exec_vbatSwitchover : exec .vbatSwitchover s = .next { s.vbatReset with pwr := { s.vbatReset.pwr with onVbat := true } } :=
  rfl

theorem State.vbatReset_reg (hs : Tab.wf regReset s.regs = true) {a : Nat} (ha : a ≠ aRIM_STAT) :
    s.vbatReset.reg a = if rimReg a then s.reg a else regReset a := by
  have h0 := State.resetKeeping_wf hs rimReg .porHold
  rw [State.vbatReset, State.setBit_reg (State.setBit_wf h0 _ _ _), if_neg ha, State.setBit_reg h0, if_neg ha,
    State.resetKeeping_reg hs]

theorem State.vbatReset_stat (hs : Tab.wf regReset s.regs = true) :
    s.vbatReset.bit aRIM_STAT fRIM_STAT_VBAT_USED = true ∧ s.vbatReset.bit aRIM_STAT fRIM_STAT_AUX_OK = false := by
  have h0 := State.resetKeeping_wf hs rimReg .porHold
  have h1 := State.setBit_wf h0 aRIM_STAT fRIM_STAT_VBAT_USED true
  constructor
  · rw [State.vbatReset, State.setBit_bit_ne h1 (by decide) (by decide), State.setBit_bit_same h0 rfl (by decide)]
  · rw [State.vbatReset, State.setBit_bit_same h1 rfl (by decide)]

/-! #### The end of the power-on reset -/

/-- The state once the power-on reset has ended, with the straps that were sampled. -/
def State.released (s : State) (m : BitVec 3) (p : Bool) (o : BitVec 3) : State :=
  { s.setBit aRIM_STAT fRIM_STAT_AUX_OK true with
    free := s.free + 3
    pins := { s.pins with cfgMode := m, cfgPull := p, oscDly := o }
    clk := { s.clk with phase := .oscDelay }
    pwr := { s.pwr with onVbat := false } }

/-- The release, with event 1938 where VBAT had been used. -/
def State.releasedEvent (s : State) (m : BitVec 3) (p : Bool) (o : BitVec 3) : State :=
  if (s.released m p o).bit aRIM_STAT fRIM_STAT_VBAT_USED then (s.released m p o).raise 1938 else s.released m p o

theorem exec_powerOnReset (h : s.clk.phase = .porHold) : ∃ m p o, exec (.powerOnReset x) s = .next (s.releasedEvent m p o) ∧
    (∀ i, i < 3 → x.floating.getLsbD i = false → m.getLsbD i = x.cfgMode.getLsbD i) ∧
    (x.floating.getLsbD 3 = false → p = x.cfgPull) ∧
    (∀ i, i < 3 → x.floating.getLsbD (4 + i) = false → o.getLsbD i = x.oscDly.getLsbD i) := by
  obtain ⟨m, p, hc, hm, hp⟩ := s.sampleCfg_eq x
  refine ⟨m, p, (strapBits x 3 4 x.oscDly (s.sampleCfg x)).1, ?_, hm, hp, fun i _ hf => strapBits_getLsbD hf⟩
  change execPowerOnReset x s = _
  rw [execPowerOnReset, if_pos (by simp [h]), hc]
  rfl

theorem State.released_within (s : State) (m : BitVec 3) (p : Bool) (o : BitVec 3) :
    s.Within (s.releasedEvent m p o) [.clk, .ev, .hw, .free, .pins, .pwr] (among [aRIM_STAT]) := by
  have hb : s.Within (s.setBit aRIM_STAT fRIM_STAT_AUX_OK true) [.clk, .ev, .hw, .free, .pins, .pwr] (among [aRIM_STAT]) :=
    (State.Within.refl s _ _).setBit (.inl (by decide))
  have hr : s.Within (s.released m p o) [.clk, .ev, .hw, .free, .pins, .pwr] (among [aRIM_STAT]) := by
    refine hb.put (fun q hq => ?_) rfl
    cases q
    case clk | pins | pwr | free => exact absurd (by decide) hq
    case mem => exact fun _ => rfl
    all_goals rfl
  exact State.Within.ite (hr.raise (by decide)) hr

/-- The event of the release leaves clocks, pins, supplies and the rim's status as the release put them. -/
theorem State.releasedEvent_within (s : State) (m : BitVec 3) (p : Bool) (o : BitVec 3) :
    (s.released m p o).Within (s.releasedEvent m p o) [.hw, .ev] (fun _ => false) :=
  State.Within.ite ((State.Within.refl _ _ _).raise (by decide)) (State.Within.refl _ _ _)

section Released
variable (hs : Tab.wf regReset s.regs = true) {m o : BitVec 3} {p : Bool}
include hs

theorem State.released_wf : Tab.wf regReset (s.released m p o).regs = true :=
  State.setBit_wf hs aRIM_STAT fRIM_STAT_AUX_OK true

theorem State.released_reg : (s.released m p o).reg aRIM_STAT = putF (s.reg aRIM_STAT) fRIM_STAT_AUX_OK 1 :=
  (State.setBit_reg hs aRIM_STAT fRIM_STAT_AUX_OK true aRIM_STAT).trans (if_pos rfl)

theorem State.releasedEvent_auxOk : (s.releasedEvent m p o).bit aRIM_STAT fRIM_STAT_AUX_OK = true := by
  rw [State.bit, (s.releasedEvent_within m p o).regs (State.released_wf hs) _ rfl (by decide), State.released_reg hs]
  simp [getB_putF, fRIM_STAT_AUX_OK]

theorem State.releasedEvent_shows (hv : s.bit aRIM_STAT fRIM_STAT_VBAT_USED = true) :
    (s.releasedEvent m p o).showsEvent 1938 := by
  have hb : (s.released m p o).bit aRIM_STAT fRIM_STAT_VBAT_USED = true := by
    rw [State.bit, State.released_reg hs, getB_putF _ _ _ _ (by decide), if_neg (by decide)]
    exact hv
  rw [State.releasedEvent, if_pos hb]
  exact (State.raise_latched (State.released_wf hs) (by decide) rfl).showsEvent rfl

end Released

/-! #### RESET_N -/

/-- A reset ends the access of the debug TAP, if it has one outstanding, with `TIMEOUT`. -/
def State.debugEnded (s : State) : State := if s.ringDebug.busy then s.ringFinish .debug .timeout 0#32 else s

theorem State.debugEnded_within (s : State) :
    s.Within s.debugEnded [.ringDebug, .cores, .free, .ports, .remoteIn] fun _ => false :=
  State.Within.ite (State.Within.of_keepsElse (s.ringFinish_keepsElse .debug .timeout 0#32) (s.ringFinish_regs _ _ _))
    (State.Within.refl s _ _)

theorem State.debugEnded_reg (s : State) (a : Nat) : s.debugEnded.reg a = s.reg a := by
  rw [State.debugEnded]
  split
  · rw [State.reg, State.ringFinish_regs, State.reg]
  · rfl

theorem State.debugEnded_idle (s : State) :
    s.debugEnded.ringDebug.busy = false ∧ (s.ringDebug.busy = true → s.debugEnded.ringDebug.status = .timeout) := by
  obtain ⟨hb, -, -, hst⟩ := s.ringFinish_idle .debug .timeout 0#32
  rw [State.debugEnded]
  split
  · exact ⟨hb, fun _ => hst⟩
  · next h => exact ⟨by simpa using h, fun hc => absurd hc h⟩

/-- What RESET_N leaves before it samples the straps: the device reset, but for the debug TAP and the strap of the oscillator. -/
def State.pinCleared (s : State) (ph : ClkPhase) (b : BitVec 8) : State :=
  { s.deviceReset ph with
    ringDebug := s.ringDebug
    tap := s.tap
    pins := { State.reset.pins with oscDly := s.pins.oscDly }
    clk := { State.reset.clk with phase := ph, revSilent := b } }

/-- The phase that RESET_N resets the device into. -/
def resetPhase (ph : ClkPhase) : ClkPhase := if ph = .run ∨ ph = .hubOnly then .run else .lockWait

theorem exec_pinReset (h : s.clk.phase = .run ∨ s.clk.phase = .hubOnly ∨ s.clk.phase = .stopped ∨ s.clk.phase = .relock) :
    exec (.pinReset x b) s = .next (((s.debugEnded.pinCleared (resetPhase s.clk.phase) b).sampleCfg x).dbgLost 1) := by
  change execPinReset x b s = _
  obtain h | h | h | h := h <;> rw [execPinReset, h] <;> rfl

theorem exec_pinReset_early (h : s.clk.phase = .oscDelay ∨ s.clk.phase = .lockWait) :
    exec (.pinReset x b) s = .next (s.sampleCfg x) := by
  change execPinReset x b s = _
  obtain h | h := h <;> rw [execPinReset, h]

theorem exec_pinReset_porHold (h : s.clk.phase = .porHold) : exec (.pinReset x b) s = .next s := by
  change execPinReset x b s = _
  rw [execPinReset, h]

/-! #### The revision read (R13) -/

/-- A die that has not answered in time reads absent. -/
def State.dieSilent (s : State) (d : Nat) : State :=
  State.setBit { s with clk := { s.clk with revWait := s.clk.revWait &&& ~~~(BitVec.ofNat 8 (2 ^ d)) } } aDIE_PRESENT ⟨d, 1⟩ false

theorem exec_revisionReadTimeout {d : Fin 8} (hr : s.runs = true) (hd : s.clk.revWait.getLsbD d.val = true)
    (ht : s.clk.revAt + ringTicks 4096 ≤ s.now) : exec (.revisionReadTimeout d) s = .next (s.dieSilent d.val).revFinish :=
  if_pos (by simp [hr, hd, ht])

theorem State.dieSilent_wf (hs : Tab.wf regReset s.regs = true) (d : Nat) : Tab.wf regReset (s.dieSilent d).regs = true :=
  State.setBit_wf hs aDIE_PRESENT ⟨d, 1⟩ false

/-- New clocks beside it leave what a bit set in a register reads as. -/
theorem State.setBit_clk_reg (hs : Tab.wf regReset s.regs = true) (c : Clk) (a : Nat) (f : Fld) (v : Bool) :
    (State.setBit { s with clk := c } a f v).reg a = putF (s.reg a) f v.toNat :=
  (State.setBit_reg (s := { s with clk := c }) hs a f v a).trans (if_pos rfl)

theorem State.dieSilent_absent (hs : Tab.wf regReset s.regs = true) (d : Fin 8) :
    (s.dieSilent d.val).bit aDIE_PRESENT ⟨d.val, 1⟩ = false := by
  have hd : d.val < 32 := by omega
  rw [State.bit, State.dieSilent, State.setBit_clk_reg hs, getB_putF _ _ _ _ hd]
  simp

theorem State.dieSilent_within (s : State) (d : Nat) : s.Within (s.dieSilent d) [.clk, .hw] (among [aDIE_PRESENT]) :=
  ((State.Within.refl s _ _).put_clk).setBit (.inl (by decide))

/-- The end of the revision reads writes the level, and its clocks alone record that it came. -/
theorem State.revFinish_within (s : State) : s.Within s.revFinish [.clk, .hw] (among [aFEATURE_LEVEL]) := by
  have h : ∀ a b c, s.Within ((((s.setFld aFEATURE_LEVEL fFEATURE_LEVEL_LEVEL a).setFld aFEATURE_LEVEL
      fFEATURE_LEVEL_MIN_DIE b)).setBit aFEATURE_LEVEL fFEATURE_LEVEL_VALID c) [.clk, .hw] (among [aFEATURE_LEVEL]) :=
    fun a b c => (((State.Within.refl s _ _).setFld (.inl (by decide))).setFld (.inl (by decide))).setBit (.inl (by decide))
  exact State.Within.ite (h _ _ _).put_clk (State.Within.refl s _ _)

theorem State.revFinish_revWait (s : State) : s.revFinish.clk.revWait = s.clk.revWait := by
  rw [State.revFinish]
  split
  · simp only [State.setBit_clk]
    rfl
  · rfl

/-- With a die absent, the end of the revision reads leaves no valid level. -/
theorem State.revFinish_invalid (hs : Tab.wf regReset s.regs = true) {d : Nat} (hd : d < 8)
    (ha : (s.reg aDIE_PRESENT).getLsbD d = false) (hw : s.clk.revWait = 0) (hn : s.clk.revDone = false) :
    s.revFinish.clk.revDone = true ∧ s.revFinish.bit aFEATURE_LEVEL fFEATURE_LEVEL_VALID = false := by
  have hlen : (((List.range 8).filter fun d => (s.reg aDIE_PRESENT).getLsbD d).length == 8) = false := by
    rw [beq_eq_false_iff_ne]
    intro h
    have hall := List.length_filter_eq_length_iff.1 (h.trans List.length_range.symm) d (List.mem_range.2 hd)
    simp [ha] at hall
  rw [State.revFinish, if_pos ⟨hw, hn⟩]
  refine ⟨rfl, ?_⟩
  simp only [hlen]
  refine (congrArg (getB · fFEATURE_LEVEL_VALID)
    ((State.setBit_reg (State.setFld_wf (State.setFld_wf hs _ _ _) _ _ _) _ _ _ _).trans (if_pos rfl))).trans ?_
  simp [getB_putF, fFEATURE_LEVEL_VALID]

/-! #### The obligation -/

/-- RESET_N in a phase that has a root lock behind it. -/
theorem pinReset_leads (hs : s.Inv)
    (h : s.clk.phase = .run ∨ s.clk.phase = .hubOnly ∨ s.clk.phase = .stopped ∨ s.clk.phase = .relock) :
    Leads (.pinReset x b) s (fun t => t.clk = { State.reset.clk with
        phase := if s.clk.phase = .run ∨ s.clk.phase = .hubOnly then .run else .lockWait, revSilent := b } ∧
      (∀ i, i < 3 → x.floating.getLsbD i = false → t.pins.cfgMode.getLsbD i = x.cfgMode.getLsbD i) ∧
      (x.floating.getLsbD 3 = false → t.pins.cfgPull = x.cfgPull) ∧ t.pins.oscDly = s.pins.oscDly ∧ t.tap = s.tap ∧ (∀ a,
      rimReg a = false → notice a = false → a ≠ aDBG_LOST → a ≠ aRIM_CLK → t.reg a = regReset a) ∧ (∀ a, rimReg a →
      t.reg a = s.reg a) ∧ (∀ a, t.byte a = 0#8) ∧ t.pwr.rtc = s.pwr.rtc ∧ t.fuse = s.fuse ∧ t.bit aDBG_LOST fDBG_LOST_RESET ∧
      t.ringDebug.busy = false ∧ (s.ringDebug.busy → s.ringDebug.remote = none → t.ringDebug.status = .timeout)) := by
  refine ⟨_, exec_pinReset h, ?_⟩
  have hd := s.debugEnded_within
  obtain ⟨hbusy, hstat⟩ := s.debugEnded_idle
  have hreg := s.debugEnded_reg
  have hw := hd.wf hs.regs_wf
  have htap : s.debugEnded.tap = s.tap := hd.parts .tap (by decide)
  have hosc : s.debugEnded.pins.oscDly = s.pins.oscDly := congrArg Pins.oscDly (hd.parts .pins (by decide))
  have hrtc : s.debugEnded.pwr.rtc = s.pwr.rtc := congrArg Pwr.rtc (hd.parts .pwr (by decide))
  have hfuse : s.debugEnded.fuse = s.fuse := hd.parts .fuse (by decide)
  generalize s.debugEnded = u at *
  obtain ⟨m, p, hc, hm, hp⟩ := (u.pinCleared (resetPhase s.clk.phase) b).sampleCfg_eq x
  rw [hc]
  have hl := State.dbgLost_within { u.pinCleared (resetPhase s.clk.phase) b with
    free := (u.pinCleared (resetPhase s.clk.phase) b).free + 2
    pins := { (u.pinCleared (resetPhase s.clk.phase) b).pins with cfgMode := m, cfgPull := p } } 1
  obtain ⟨hreset, hrim, hlost, -⟩ := State.deviceReset_dbgLost (t := { u.pinCleared (resetPhase s.clk.phase) b with
    free := (u.pinCleared (resetPhase s.clk.phase) b).free + 2
    pins := { (u.pinCleared (resetPhase s.clk.phase) b).pins with cfgMode := m, cfgPull := p } }) hw
    (resetPhase s.clk.phase) 1 (by decide) rfl
  have hpin := hl.parts .pins (by decide)
  have hpw := hl.parts .pwr (by decide)
  have hrd := hl.parts .ringDebug (by decide)
  refine ⟨hl.parts .clk (by decide), fun i hi hf => ?_, fun hf => ?_, ?_, Eq.trans (hl.parts .tap (by decide)) htap, hreset,
    fun a ha => (hrim a ha).trans (hreg a), hl.parts .mem (by decide), ?_, Eq.trans (hl.parts .fuse (by decide)) hfuse, hlost,
    ?_, fun hb _ => ?_⟩
  · rw [hpin]
    exact hm i hi hf
  · rw [hpin]
    exact hp hf
  · rw [hpin]
    exact hosc
  · rw [hpw]
    exact hrtc
  · rw [hrd]
    exact hbusy
  · rw [hrd]
    exact hstat hb

/-- Settles O10: clause by clause, the branch of the occurrence, and what the operations of that branch do. -/
theorem resetsAndStartUp : Obligations.ResetsAndStartUp := by
  unfold Obligations.ResetsAndStartUp
  intro s hs
  have hw := hs.regs_wf
  refine ⟨fun h => ?_, fun h => if_pos (by simp [h]), ?_, fun x h => ?_, fun h => if_pos (by simp [h]), fun b h => if_pos (by simp [h]),
    fun x b h => exec_pinReset_porHold h, fun x b h => ?_, fun x b h => pinReset_leads hs h, fun d hr hd ht => ?_⟩
  · obtain ⟨hreset, hrim, hlost, hstop⟩ := State.deviceReset_dbgLost hw .porHold 0 (by decide)
      (rfl : (s.deviceReset .porHold).regs = _)
    have hl := (s.deviceReset .porHold).dbgLost_within 0
    have hpwr : ((s.deviceReset .porHold).dbgLost 0).pwr = (s.deviceReset .porHold).pwr := hl.parts .pwr (by decide)
    have hrtc : (s.deviceReset .porHold).pwr.rtc = s.pwr.rtc ∧ (s.deviceReset .porHold).pwr.onVbat = false := ⟨rfl, rfl⟩
    rw [← hpwr] at hrtc
    obtain ⟨hrtc, hvbat⟩ := hrtc
    exact ⟨_, exec_supplyDrop h, hl.parts .clk (by decide), hreset, hrim, hl.parts .mem (by decide), hrtc,
      hl.parts .fuse (by decide), hlost, hstop, hl.parts .tap (by decide), hvbat⟩
  · obtain ⟨hused, haux⟩ := State.vbatReset_stat hw
    refine ⟨_, exec_vbatSwitchover, rfl, rfl, hused, haux, rfl, rfl, fun _ => rfl, fun a ha => ?_, fun a ha hne => ?_⟩
    · refine (State.vbatReset_reg hw ?_).trans (if_neg (by simp [ha]))
      rintro rfl
      exact absurd ha (by decide)
    · exact (State.vbatReset_reg hw hne).trans (if_pos ha)
  · obtain ⟨m, p, o, he, hm, hp, ho⟩ := exec_powerOnReset (x := x) h
    have hr := s.releasedEvent_within m p o
    have hpins := hr.parts .pins (by decide)
    refine ⟨_, he, hr.parts .clk (by decide), fun i hi hf => ?_, fun hf => ?_, fun i hi hf => ?_,
      congrArg Pwr.onVbat (hr.parts .pwr (by decide)), State.releasedEvent_auxOk hw, State.releasedEvent_shows hw,
      (s.released_within m p o).keepsElse hw⟩
    · rw [hpins]
      exact hm i hi hf
    · rw [hpins]
      exact hp hf
    · rw [hpins]
      exact ho i hi hf
  · obtain ⟨m, p, hc, hm, hp⟩ := s.sampleCfg_eq x
    have hk := s.sampleCfg_within x
    rw [hc] at hk
    exact ⟨_, (exec_pinReset_early h).trans (congrArg _ hc), hm, hp, rfl, hk.keepsElse hw⟩
  · have hsw := State.dieSilent_wf hw d.val
    have hf := (s.dieSilent d.val).revFinish_within
    have habs := State.dieSilent_absent hw d
    have hwait : (s.dieSilent d.val).revFinish.clk.revWait = s.clk.revWait &&& ~~~(BitVec.ofNat 8 (2 ^ d.val)) :=
      State.revFinish_revWait _
    refine ⟨_, exec_revisionReadTimeout hr hd ht, ?_, hwait, fun h0 hn => ?_, ?_⟩
    · rw [State.bit, hf.regs hsw _ (by decide) (by decide)]
      exact habs
    · exact State.revFinish_invalid hsw d.isLt (habs : getB _ _ = false) (hwait.symm.trans h0) hn
    · exact (((s.dieSilent_within d.val).mono (by decide) (by simp +contextual [among])).trans
        (hf.mono (by decide) (by simp +contextual [among]))).keepsElse hw

end Sys2Proof.Machine
end

section
/-! ### O7: a torus port whose domain is off does not train when the die clocks resume (R38 to R40) -/

namespace Sys2Proof.Machine

set_option Elab.async false

/-- Sixty-four ticks after the hub's clocks have resumed: every die but H is still in its reset, and torus port 0 is enabled
while its power domain, 40, is off. -/
def portOffAtResume : State :=
  State.setDom { State.reset with
    clk := { State.reset.clk with phase := .hubOnly, now := 64 }
    regs := tput regReset [] (aTP_CTRL 0) (putF (regReset (aTP_CTRL 0)) fTP_CTRL_EN 1)
    dieReset := [(0, some 0), (1, some 0), (2, some 0), (3, some 0), (4, some 0), (5, some 0), (7, some 0)] } 40 0

theorem portOffAtResume_inv : portOffAtResume.Inv := by decide +kernel

theorem portOffAtResume_enabled : portOffAtResume.bit (aTP_CTRL 0) fTP_CTRL_EN = true ∧ portOffAtResume.tpState 0 = 0 := by
  decide +kernel

/-- The state of port 0 that an outcome leaves, if it leaves one. -/
def portStateAfter : Host.Outcome State Fault Refusal → Option Nat
  | .next t => some (t.tpState 0)
  | _ => none

/-- Training passes over a port whose domain is off: its state stays 0. -/
theorem portOffAtResume_stays : portStateAfter (exec .resumeDieClocks portOffAtResume) = some 0 := by decide +kernel

/-- Refutes O7: `resumeDieClocks` is stated to bring every enabled port that is not scheduled to state 1, but a port whose power
domain is off does not train and stays in state 0. -/
theorem not_clockLossAndResumption : ¬ Obligations.ClockLossAndResumption := by
  unfold Obligations.ClockLossAndResumption
  intro h
  obtain ⟨-, -, -, -, -, -, -, -, -, -, hresume, -⟩ := h portOffAtResume portOffAtResume_inv
  obtain ⟨t, ht, -, -, -, -, htrain, -⟩ := hresume rfl (by decide)
  obtain ⟨hen, hst⟩ := portOffAtResume_enabled
  have hone : t.tpState 0 = 1 := htrain 0 (by decide) hen (by simp [hst])
  have hzero := portOffAtResume_stays
  rw [ht, portStateAfter, hone] at hzero
  exact absurd hzero (by decide)

end Sys2Proof.Machine
end

section
/-! ### What keeps a latched event: addresses, links, network interfaces, ports and lanes -/

namespace Sys2Proof.Machine

set_option Elab.async false

variable {s t : State} {a b d e n p : Nat} {v : W32} {m : Rm}

/-! #### Registers apart from the raw event words -/

theorem rawWord_eq_false_iff : rawWord a = false ↔ a < 25770001408 ∨ 25770001660 < a := by
  have h0 : aEV_RAW 0 = 25770001408 := rfl
  have h1 : aEV_RAW 63 = 25770001660 := rfl
  simp only [rawWord, Bool.and_eq_false_iff, decide_eq_false_iff_not, h0, h1]
  omega

theorem rawWord_ana {b o : Nat} : rawWord (ra 7 b o) = false := by
  rw [rawWord_eq_false_iff, ra]
  omega

/-- The blocks of H behind the event controller's. -/
theorem rawWord_hub {b o : Nat} (hb : 4 ≤ b) : rawWord (ra 6 b o) = false := by
  rw [rawWord_eq_false_iff, ra]
  omega

/-- The blocks of H before the event controller's. -/
theorem rawWord_low {b o : Nat} (hb : 65536 * b + o < 196608) : rawWord (ra 6 b o) = false := by
  rw [rawWord_eq_false_iff, ra]
  omega

theorem rawWord_ni {d n o : Nat} (hn : n < 256) (ho : o < 65536) : rawWord (niA d n o) = false := by
  rw [rawWord_eq_false_iff, niA]
  simp only [ra]
  split <;> omega

theorem rawWord_fe {d o : Nat} (ho : o < 65536) : rawWord (feA d o) = false := by
  rw [rawWord_eq_false_iff, feA]
  simp only [ra]
  split <;> omega

/-- The kilobyte of registers at `b`, a link module's or a quad's lanes, holds none of the raw event words. -/
def RawFree (b : Nat) : Prop := ∀ k < 1024, rawWord (b + k) = false

theorem RawFree.at (h : RawFree b) {k : Nat} (hk : k < 1024) : rawWord (b + k) = false := h k hk

theorem rawFree_iff : RawFree b ↔ b + 1024 ≤ 25770001408 ∨ 25770001660 < b := by
  simp only [RawFree, rawWord_eq_false_iff]
  constructor
  · intro h
    by_contra hc
    have hlo := h (25770001408 - b)
    have hhi := h 0
    omega
  · intro h k hk
    omega

/-- A block of a die other than H, of those that link modules and lanes stand in. -/
theorem rawFree_ra {d b o : Nat} (hd : d ≠ 6) (hb : b < 65000) (ho : o < 65536) : RawFree (ra d b o) := by
  rw [rawFree_iff, ra]
  omega

theorem rawFree_quad {q : Nat} : RawFree (quadBlock d q) := by
  rw [rawFree_iff, quadBlock, ra]
  omega

theorem rawFree_module (hb : b ∈ allModules) : RawFree b := by
  have hall : ∀ b ∈ allModules, b + 1024 ≤ 25770001408 ∨ 25770001660 < b := by decide +kernel
  exact rawFree_iff.2 (hall b hb)

/-- An answer leaves an event latched where both of the answers it is chosen from do, the first under its condition. -/
theorem latched_ite_of {c : Prop} [Decidable c] {x y : Answer} (hx : c → x.1.Latched e) (hy : y.1.Latched e) :
    (if c then x else y).1.Latched e := by
  split
  · exact hx ‹c›
  · exact hy

theorem latched_ite {c : Prop} [Decidable c] {x y : Answer} (hx : x.1.Latched e) (hy : y.1.Latched e) :
    (if c then x else y).1.Latched e := latched_ite_of (fun _ => hx) hy

namespace State.Latched

section Hub
variable {b o : Nat}

theorem setReg_hub (h : s.Latched e) (hb : 4 ≤ b) : (s.setReg (ra 6 b o) v).Latched e := h.setReg (rawWord_hub hb)

theorem setFld_hub (h : s.Latched e) {f : Fld} {k : Nat} (hb : 4 ≤ b) : (s.setFld (ra 6 b o) f k).Latched e :=
  h.setFld (rawWord_hub hb)

theorem setBit_hub (h : s.Latched e) {f : Fld} {c : Bool} (hb : 4 ≤ b) : (s.setBit (ra 6 b o) f c).Latched e :=
  h.setBit (rawWord_hub hb)

theorem satInc_hub (h : s.Latched e) {f : Fld} (hb : 4 ≤ b) : (s.satInc (ra 6 b o) f).Latched e := h.satInc (rawWord_hub hb)

end Hub

theorem freshB (h : s.Latched e) : s.freshB.2.Latched e := h

theorem setNi (h : s.Latched e) {x : Ni} : (s.setNi d n x).Latched e := h

theorem setLm (h : s.Latched e) {x : Lm} : (s.setLm b x).Latched e := h

theorem setPort (h : s.Latched e) {x : Port} : (s.setPort p x).Latched e := h

theorem setLane (h : s.Latched e) {j : Nat} {x : Lane} : (s.setLane b j x).Latched e := h

theorem setThr (h : s.Latched e) {x : Thrumas} : (s.setThr n x).Latched e := h

theorem setDma (h : s.Latched e) {x : Dma} : (s.setDma n x).Latched e := h

theorem setQdr (h : s.Latched e) {x : Qdr} : (s.setQdr n x).Latched e := h

theorem setDs (h : s.Latched e) {x : Ds} : (s.setDs d x).Latched e := h

theorem setAb (h : s.Latched e) {x : Ab} : (s.setAb n x).Latched e := h

theorem putPat (h : s.Latched e) {x} : State.Latched { s with pat := x } e := h

theorem putCfg (h : s.Latched e) {x} : State.Latched { s with cfg := x } e := h

theorem putPins (h : s.Latched e) {x} : State.Latched { s with pins := x } e := h

theorem putAna (h : s.Latched e) {x} : State.Latched { s with ana := x } e := h

/-! #### Best-effort packets and network interfaces -/

theorem freeItem (h : s.Latched e) {x : BeItem} : (s.freeItem x).Latched e := by
  have hp : (s.freePlaces x x.gone (x.len - x.gone)).Latched e := by
    fun_cases State.freePlaces s x x.gone (x.len - x.gone)
    case case3 => exact h.foldl fun u j _ hu => hu
    all_goals exact h
  exact hp

theorem fifoPush (h : s.Latched e) {k : Nat} {fl : List FifoFlit} : (s.fifoPush d n k fl).Latched e :=
  ite ((setBit_true (s := s.setNi d n _) h rfl).raise) h

end State.Latched
end Sys2Proof.Machine
end

section
/-! ### What keeps a latched event: tables of a die, network interfaces and link modules -/

namespace Sys2Proof.Machine

set_option Elab.async false

variable {s t : State} {a b d e k n p : Nat} {v : W32} {m : Rm}

namespace State.Latched

theorem flagRaise_at (h : s.Latched e) (ha : rawWord a = false) {f : Fld} : (s.flagRaise a f k).Latched e :=
  ite h.hwMark (h.setBit ha).raise

/-! #### The pattern's tables -/

theorem setOk (h : s.Latched e) {c : Bool} : (s.setOk k d c).Latched e :=
  setFld (s := { s with pat := _ }) h (rawWord_hub (by omega))

theorem abandonCommit (h : s.Latched e) : (s.abandonCommit d).Latched e := by
  fun_cases State.abandonCommit s d
  case case1 => exact (setReg (s := { s with pat := _ }) h (rawWord_hub (by omega))).setOk
  case case2 => exact h

theorem psAdvance (h : s.Latched e) (hn : n < 256) : (s.psAdvance d n).Latched e := ite (h.setFld (rawWord_ni hn (by decide))) h

/-! #### Network interfaces -/

theorem respond (h : s.Latched e) (hn : n < 256) {q : BitVec 256} {own st : Nat} {bs : List Byte} :
    (s.respond d n q own st bs).Latched e := by
  fun_cases State.respond s d n q own st bs
  case case1 => exact h.flagRaise_at (rawWord_ni hn (by decide))
  all_goals exact h

theorem deliverRsp (h : s.Latched e) {o : Outst} {x : Packet} : (s.deliverRsp d n o x).Latched e := by
  fun_cases State.deliverRsp s d n o x
  case case1 => exact h.fifoPush
  all_goals exact h

theorem release (h : s.Latched e) : (s.release d n k).Latched e := by
  fun_cases State.release s d n k <;> exact h

theorem niForce (h : s.Latched e) (hn : n < 256) : (s.niForce d n).Latched e := by
  unfold State.niForce
  exact foldl (foldl h fun u _ _ hu => hu.respond hn) fun u _ _ hu => hu.release.deliverRsp

/-! #### Link modules -/

theorem lmErr (h : s.Latched e) {f : Fld} (hf : f.width = 1) : (s.lmErr b f).Latched e := h.flagRaise hf

theorem lmGo (h : s.Latched e) (hb : RawFree b) : (s.lmGo b k).Latched e := h.setFld (hb.at (by decide))

theorem dropPartial (h : s.Latched e) : (s.dropPartial b k).Latched e :=
  foldl h fun _ _ _ hu => hu.freeItem

theorem zeroCredits (h : s.Latched e) : (s.zeroCredits b).Latched e := by
  refine h.foldl fun u c _ hu => ?_
  dsimp only
  split <;> exact hu

theorem lmStop (h : s.Latched e) : (s.lmStop b k n).Latched e :=
  ite (dropPartial (s := (s.lmDefer b k).setLm b _) h).zeroCredits h

theorem trainModule (h : s.Latched e) (hb : RawFree b) : (s.trainModule b k n).Latched e :=
  ((h.lmStop.satInc (hb.at (by decide))).lmGo hb).lmErr rfl

theorem fullTraining (h : s.Latched e) (hb : RawFree b) : (s.fullTraining b k).Latched e := (h.trainModule hb).syncBreach

theorem fence (h : s.Latched e) (hb : RawFree b) : (s.fence b k).Latched e :=
  ite h ((h.lmStop.lmGo hb).lmErr rfl).syncBreach

theorem recordWires (h : s.Latched e) (hb : RawFree b) {x : BitVec 169} : (s.recordWires b x).Latched e :=
  ((foldl h fun _ g hg hu => hu.setReg (hb.at (by have := List.mem_range.1 hg; omega))).setFld
    (hb.at (by decide))).setBit (hb.at (by decide))

/-- Modules of dies that are not in reset lose their lock. -/
theorem loseLock (h : s.Latched e) : (s.loseLock d).Latched e := by
  refine (h.foldl fun u b hb hu => ?_).syncBreach
  have hf := rawFree_module (List.mem_of_mem_filter hb)
  exact (hu.setFld (hf.at (by decide))).trainModule hf

end State.Latched

/-! #### Writes -/

theorem latched_writePlain (h : s.Latched e) : (writePlain a v s).1.Latched e := h.plainWrite

theorem latched_patCtrlWrite (h : s.Latched e) : (patCtrlWrite v s).1.Latched e := by
  fun_cases patCtrlWrite v s
  case case1 | case9 => exact h
  case case2 => exact h.setFld_hub (by omega)
  case case3 | case5 | case7 => exact (h.setFld_hub (by omega)).raise
  case case4 | case6 | case8 => exact (h.setFld_hub (by omega)).setFld_hub (by omega)

theorem latched_patAtWrite (h : s.Latched e) : (patAtWrite a v s).1.Latched e := latched_ite h h.plainWrite

theorem latched_shadowHeaderWrite (h : s.Latched e) : (shadowHeaderWrite a v s).1.Latched e := latched_ite h h.plainWrite

theorem latched_psDataWrite (h : s.Latched e) (hn : n < 256) : (psDataWrite d n k v s).1.Latched e := by
  have hp : ∀ u : State, u.Latched e → (u.psAdvance d n).Latched e := fun u hu => hu.psAdvance hn
  refine latched_ite h (latched_ite h (latched_ite h (latched_ite (hp _ h) (latched_ite h ?_))))
  exact hp _ ((State.Latched.setOk (s := s.setPs s.shBank d n _ _ _) h).setBit_hub (by omega))

theorem latched_commitWrite (h : s.Latched e) : (commitWrite d v s).1.Latched e :=
  latched_ite h (State.Latched.setOk (State.Latched.setReg (s := { s with pat := _ }) h (rawWord_hub (by omega))))

theorem latched_spRegionWrite (h : s.Latched e) : (spRegionWrite a d n v s).1.Latched e := latched_ite h h.plainWrite

theorem latched_spCtrlWrite (h : s.Latched e) (hn : n < 256) : (spCtrlWrite d n v s).1.Latched e := by
  have hc : (s.setBit (aSP_CTRL d n) fSP_CTRL_EN (getB v fSP_CTRL_EN)).Latched e := h.setBit (rawWord_ni hn (by decide))
  exact latched_ite h (latched_ite h (latched_ite (hc.setFld (rawWord_ni hn (by decide)))
    (latched_ite (hc.setBit (rawWord_ni hn (by decide))) hc)))

theorem latched_niCtrlWrite (h : s.Latched e) (hn : n < 256) : (niCtrlWrite d n v s).1.Latched e := by
  have hr : ∀ (u : State) w, u.Latched e → (u.setReg (aNI_CTRL d n) w).Latched e := fun u w hu =>
    hu.setReg (rawWord_ni hn (by decide))
  refine latched_ite h (latched_ite ?_ ?_)
  · exact State.Latched.ite (State.Latched.niForce (State.Latched.ite (hr _ _ h) (hr _ _ h)) hn)
      (State.Latched.ite (hr _ _ h) (hr _ _ h))
  · exact State.Latched.ite ((hr (s.setNi d n _) _ h).setBit (rawWord_ni hn (by decide))) (hr (s.setNi d n _) _ h)

theorem latched_lmCtrlWrite (h : s.Latched e) (hb : RawFree b) : (lmCtrlWrite b v s).1.Latched e := by
  have hp : (s.plainWrite (aLM_CTRL b) v).Latched e := h.plainWrite
  have hl := State.Latched.ite (p := getF v fLM_CTRL_LOOP ≠ getF (s.reg (aLM_CTRL b)) fLM_CTRL_LOOP)
    (hp.recordWires hb (x := 0)) hp
  have hc := State.Latched.ite (p := getB v fLM_CTRL_CLR_CNT = true)
    (hl.setReg (v := 0#32) (hb.at (by decide) : rawWord (aLM_COUNT b) = false)) hl
  refine latched_ite h (latched_ite (hc.fence hb) (latched_ite ?_ (latched_ite (State.Latched.ite hc (hc.fullTraining hb)) hc)))
  exact State.Latched.ite ((hc.setFld (hb.at (by decide))).fullTraining hb) hc

end Sys2Proof.Machine
end

section
/-! ### What keeps a latched event: ports, lanes, gateways, regions and configuration -/

namespace Sys2Proof.Machine

set_option Elab.async false

variable {s t : State} {a b d e i j k n p q : Nat} {v w : W32} {m : Rm}

theorem rawWord_lane (hk : k < 1024) : rawWord (quadBlock d q + k) = false := rawFree_quad.at hk

theorem portRouter_lt (p : Nat) : portRouter p < 256 := by
  fun_cases portRouter p <;> decide

namespace State.Latched

/-! #### Ports -/

theorem portCut (h : s.Latched e) : (s.portCut p).Latched e :=
  foldl h fun _ _ _ hu => ite hu.freeItem hu

theorem showRefuse (h : s.Latched e) : (s.showRefuse p).Latched e := by
  have hs := h.setFld (f := fTP_STATUS_REFUSE) (n := s.portRefuse p) (rawWord_hub (by omega) : rawWord (aTP_STATUS p) = false)
  exact ite (hs.setBit_hub (by omega)).raise hs

theorem portGo (h : s.Latched e) : (s.portGo p k n).Latched e := by
  have hs : ∀ u : State, u.Latched e → (u.setFld (aTP_STATUS p) fTP_STATUS_STATE k).Latched e := fun u hu =>
    hu.setFld_hub (by omega)
  have hb : ∀ (u : State) f c, u.Latched e → (u.setBit (aTP_STATUS p) f c).Latched e := fun u f c hu => hu.setBit_hub (by omega)
  have hr := fun x =>
    (setPort (p := p) (x := x) (hb _ fTP_STATUS_DEGRADED (k == 8) (hb _ fTP_STATUS_SCHED (k == 7) (hs _ h)))).showRefuse
    (p := p)
  exact (ite (hr _).raise (hr _)).syncBreach

theorem portLanes (h : s.Latched e) : (s.portLanes p w).Latched e :=
  foldl h fun _ i _ hu => hu.setReg (rawWord_lane (by omega))

theorem portTrain (h : s.Latched e) : (s.portTrain p).Latched e := by
  have hb : ∀ (u : State) f, u.Latched e → (u.setBit (aTP_STATUS p) f false).Latched e := fun u f hu => hu.setBit_hub (by omega)
  refine ite h (setPort (hb _ _ (hb _ _ (hb _ _ (h.portCut.portGo.portLanes.foldl fun u i _ hu => ?_)))))
  exact setLane (setBit (setBit (setReg hu (rawWord_lane (by omega))) (rawWord_lane (by omega)))
    (rawWord_lane (by omega)))

theorem portDown (h : s.Latched e) : (s.portDown p).Latched e := setPort (h.portCut.portGo.portLanes.setBit_hub (by omega))

theorem portStage (h : s.Latched e) : (s.portStage p k).Latched e := (setPort (h.setFld_hub (by omega))).showRefuse

theorem portWake (h : s.Latched e) : (s.portWake p).Latched e := ite h h

theorem portForce (h : s.Latched e) : (s.portForce p).Latched e :=
  setPort (h.foldl fun _ _ _ hu => ite (hu.freeItem.respond (portRouter_lt p)) hu.freeItem)

theorem checkAligned (h : s.Latched e) : (s.checkAligned p).Latched e := ite h.portStage h

theorem sendRemote (h : s.Latched e) {r : Remote} : (s.sendRemote r).Latched e := by
  fun_cases State.sendRemote s r <;> exact h

theorem portApply (h : s.Latched e) : (s.portApply p v w).Latched e := by
  have hb : ∀ (u : State) f c, u.Latched e → (u.setBit (aTP_STATUS p) f c).Latched e := fun u f c hu => hu.setBit_hub (by omega)
  unfold State.portApply
  extract_lets st en dis ls s0 s1
  have h0 : s0.Latched e := ite ((h.setReg_hub (by omega)).setReg_hub (by omega)) h
  have h1 : s1.Latched e := ite (hb _ _ _ h0).portGo h0
  have hdown : ∀ c : Prop, ∀ _ : Decidable c, (if c then s1.portDown p else s1).Latched e := fun _ _ => ite h1.portDown h1
  refine ite h1 (ite ?_ (ite (ite h1 ?_) (ite h1 ?_)))
  · exact ite (hdown _ _).portLanes.portStage (ite (hdown _ _).portStage (hdown _ _))
  · exact ite (ite h1.setPort h1).portForce (ite h1.setPort h1)
  · exact ite (hb _ _ _ h1.setPort).portTrain (ite h1.setPort.portTrain (ite (ite h1.setPort.portTrain h1.setPort.portWake) h1.setPort))

/-! #### Lanes -/

theorem slip (h : s.Latched e) (hj : j < 4) : (s.slip (quadBlock d q) j).Latched e := h.setFld (rawWord_lane (by omega))

theorem relock (h : s.Latched e) {l : List Nat} (hl : ∀ j ∈ l, j < 4) : (s.relock (quadBlock d q) l).Latched e :=
  h.foldl fun u j hj hu => setBit hu.freshB (rawWord_lane (by have := hl j hj; omega))

end State.Latched

/-! #### Writes of lanes and ports -/

theorem latched_lnAlignWrite (h : s.Latched e) (hj : j < 4) : (lnAlignWrite d q j v s).1.Latched e := by
  have hs := State.Latched.ite (p := getB v fLN_ALIGN_SLIP = true) (h.slip (d := d) (q := q) hj) h
  have hl := State.Latched.ite (p := getB v fLN_ALIGN_DONE = true) (hs.setBit_true (a := aLN_ALIGN (quadBlock d q) j)
    (f := fLN_ALIGN_LOCKED) rfl) hs
  exact State.Latched.ite hl.checkAligned hl

theorem latched_lnTapWrite (h : s.Latched e) (hj : j < 4) : (lnTapWrite d q j v s).1.Latched e :=
  latched_ite h (State.Latched.setReg h (rawWord_lane (by omega)))

theorem latched_lnCtrlWrite (h : s.Latched e) (hj : j < 4) : (lnCtrlWrite d q j v s).1.Latched e := by
  have hst : ∀ (u : State) x, u.Latched e → (u.setReg (aLN_STATUS (quadBlock d q) j) x).Latched e :=
    fun u x hu => hu.setReg (rawWord_lane (by omega))
  unfold lnCtrlWrite
  extract_lets b a old mode x t t'
  have ht : t'.Latched e := State.Latched.ite (State.Latched.setReg h.plainWrite (rawWord_lane (by omega))) h.plainWrite
  exact latched_ite ht (latched_ite (hst _ _ ht) (hst _ _ ht.freshB))

theorem latched_laneWrite (h : s.Latched e) {o : Nat} (ho : o < 128) : (laneWrite d q o v s).1.Latched e := by
  have hj : o / 32 < 4 := by omega
  fun_cases laneWrite d q o v s
  case case1 => exact latched_lnCtrlWrite h hj
  case case2 => exact latched_lnTapWrite h hj
  case case3 => exact latched_lnAlignWrite h hj
  case case4 => exact latched_writePlain h

theorem latched_glLbWrite (h : s.Latched e) : (glLbWrite d q v s).1.Latched e :=
  State.Latched.relock h.plainWrite fun _ hj => List.mem_range.1 (List.mem_of_mem_filter hj)

theorem latched_tpLoopWrite {f : State → Answer} (hf : (f s).1.Latched e) :
    (tpLoopWrite p f s).1.Latched e := by
  refine latched_ite hf (latched_ite ?_ ?_)
  · exact hf.foldl fun u k _ hu => hu.relock (by decide)
  · exact hf.foldl fun u i _ hu => hu.setBit (rawWord_lane (by omega))

theorem latched_tpCtrlWrite (h : s.Latched e) : (tpCtrlWrite p v s).1.Latched e :=
  latched_ite h (latched_ite h (latched_ite h h.plainWrite.portApply))

theorem latched_tpLbWrite (h : s.Latched e) : (tpLbWrite p v s).1.Latched e := latched_ite h (latched_ite h h.plainWrite)

theorem latched_tpCfgCtrlWrite (h : s.Latched e) : (tpCfgCtrlWrite p v s).1.Latched e :=
  latched_ite (latched_ite h (State.Latched.setPort (h.setReg_hub (by omega))))
    (latched_ite (State.Latched.setPort (h.setBit_hub (by omega))) h)

theorem latched_portWrite (h : s.Latched e) {o : Nat} : (portWrite p o v s).1.Latched e := by
  fun_cases portWrite p o v s
  case case1 => exact latched_tpLoopWrite (latched_tpCtrlWrite h)
  case case2 => exact latched_tpCfgCtrlWrite h
  case case3 => exact latched_tpLoopWrite (latched_tpLbWrite h)
  case case4 => exact latched_writePlain h

theorem latched_rgCtrlWrite (h : s.Latched e) {g : Nat} (hg : g < 3) : (rgCtrlWrite g v s).1.Latched e := by
  have hr : ∀ (u : State) x, u.Latched e → (u.setReg (aRG_STATUS g) x).Latched e := fun u x hu =>
    hu.setReg (rawWord_low (by omega))
  fun_cases rgCtrlWrite g v s
  case case1 => exact h
  case case2 => exact hr _ _ h.plainWrite
  case case3 =>
    have hs : ∀ (u : State) x y, u.Latched e → ((u.setGw g x).sendRemote y).Latched e := fun u x y hu =>
      State.Latched.sendRemote (s := u.setGw g x) hu
    exact hs _ _ _ (hr _ _ h.plainWrite)
  case case4 => exact h.plainWrite

/-! #### Regions, configuration and the frame engine -/

namespace State.Latched

theorem holdEvents (h : s.Latched e) : (s.holdEvents d).Latched e :=
  h.foldl fun _ _ _ hu => ite hu.freshB.raise hu.freshB

theorem holdRegion (h : s.Latched e) : (s.holdRegion d n).Latched e := by
  have hf : ∀ l x, (List.foldl (fun t i => t.niHold d i) ((s.setBit (aBR_STAT d) ⟨16 + n, 1⟩ true).setHold d n x) l).Latched e :=
    fun l x => foldl (s := State.setHold _ d n x) (h.setBit_true rfl) fun _ _ _ hu => hu
  fun_cases State.holdRegion s d n
  case case1 => exact h
  case case2 => exact (hf _ _).holdEvents
  case case3 => exact hf _ _

theorem releaseRegion (h : s.Latched e) : (s.releaseRegion d n).Latched e :=
  ite h (ite h (ite (foldl h fun _ _ _ hu => hu) h))

theorem setDie (h : s.Latched e) : (s.setDie d k).Latched e := h.setFld_hub (by omega)

theorem flushPort (h : s.Latched e) : (s.flushPort p).Latched e := ite h h

theorem dropUnsynced (h : s.Latched e) : s.dropUnsynced.Latched e := putCfg (h.foldl fun _ _ _ hu => hu.flushPort)

theorem setCfgState (h : s.Latched e) : (s.setCfgState k).Latched e := h.setFld_hub (by omega)

theorem cfgStatus (h : s.Latched e) {f : Fld} : (s.setFld aCFG_STATUS f k).Latched e := h.setFld_hub (by omega)

theorem endStream (h : s.Latched e) : (s.endStream k).Latched e :=
  dropUnsynced (setCfgState (putCfg (cfgStatus (cfgStatus h))))

theorem cfgFail (h : s.Latched e) : (s.cfgFail k).Latched e := by
  have hf := ((h.endStream (k := 5)).setFld (f := fCFG_STATUS_CAUSE) (n := k)
    (rawWord_hub (by omega) : rawWord aCFG_STATUS = false)).setReg
    (v := s.reg aCFG_WORDS) (rawWord_hub (by omega) : rawWord aCFG_FAIL_WORD = false)
  refine (putPins (setBit_hub (putCfg (foldl (hf.setReg_hub (by omega)) fun u d _ hu => ?_)) (by omega))).raise
  exact ite hu.setDie.putCfg hu

theorem unconfigure (h : s.Latched e) : (s.unconfigure d).Latched e := setDie (s := s.clearFrames d) h

end State.Latched

theorem latched_brRgnWrite (h : s.Latched e) : (brRgnWrite d n v s).1.Latched e := latched_ite h h.plainWrite

theorem latched_brHoldWrite (h : s.Latched e) : (brHoldWrite d v s).1.Latched e := h.foldl fun _ _ _ hu => hu.holdRegion

theorem latched_brReleaseWrite (h : s.Latched e) : (brReleaseWrite d v s).1.Latched e :=
  h.foldl fun _ _ _ hu => hu.releaseRegion

theorem latched_cfgSdataWrite (h : s.Latched e) : (cfgSdataWrite v s).1.Latched e :=
  latched_ite h (State.Latched.ite (State.Latched.dropUnsynced (s := { s with cfg := _ }) h) h)

theorem latched_feWrite (h : s.Latched e) {o : Nat} : (feWrite d o v s).1.Latched e := by
  fun_cases feWrite d o v s
  case case1 =>
    have hs := State.Latched.ite (p := v.getLsbD 16 = true)
      (h.setFld (f := fFE_LOG_STAT_LOST) (n := 0) (rawWord_fe (by decide) : rawWord (aFE_LOG_STAT d) = false)) h
    exact State.Latched.ite (hs.setReg (rawWord_fe (by decide))) hs
  case case2 => exact h
  case case3 => exact latched_ite h.plainWrite h.plainWrite
  case case4 => exact latched_writePlain h

end Sys2Proof.Machine
end

section
/-! ### What keeps a latched event: processors, memory banks, DMA, debug and QDR-IV -/

namespace Sys2Proof.Machine

set_option Elab.async false

variable {s t : State} {a b d e i j k n p q : Nat} {v w : W32} {m : Rm}

namespace State.Latched

/-! #### Processors -/

theorem setBytes (h : s.Latched e) {l : List Byte} : (s.setBytes a l).Latched e := by
  induction l generalizing s a with
  | nil => exact h
  | cons x r ih => exact ih (s := s.setByte a x) h

theorem setCoreState (h : s.Latched e) : (s.setCoreState n k).Latched e := h.setFld_hub (by omega)

theorem landSpecial (h : s.Latched e) : (s.landSpecial n k v).Latched e := by
  fun_cases State.landSpecial s n k v
  case case8 | case11 => exact h.setReg_hub (by omega)
  all_goals exact h

theorem land (h : s.Latched e) {l : Landing} : (s.land n l).Latched e := by
  fun_cases State.land s n l
  case case4 => exact h.landSpecial
  case case6 => exact setBytes (setThr h)
  all_goals exact h

theorem landUpTo (h : s.Latched e) : (s.landUpTo n k).Latched e :=
  foldl (s := s.setThr n _) h fun _ _ _ hu => hu.land

theorem stopCore (h : s.Latched e) : (s.stopCore n).Latched e :=
  setCoreState (setThr (landUpTo (setThr h)))

theorem disown (h : s.Latched e) {g : Origin → Bool} : (s.disown n g).Latched e := h

theorem dbgLost (h : s.Latched e) : (s.dbgLost i).Latched e := h.flagRaise rfl

theorem tearDown (h : s.Latched e) : (s.tearDown n).Latched e := by
  refine foldl (setFld_hub (setBit_hub (setBit_hub (setThr h) (by omega)) (by omega)) (by omega)) fun u j _ hu => ?_
  exact hu.setBit_hub (by omega)

theorem zeroCore (h : s.Latched e) : (s.zeroCore n).Latched e :=
  setCoreState (setFld_hub (setReg_hub (setThr (disown h)) (by omega)) (by omega))

theorem coreReset (h : s.Latched e) : (s.coreReset n).Latched e :=
  ite (setBit_hub (setThr h.tearDown.zeroCore.dbgLost) (by omega)) h.tearDown.zeroCore.dbgLost

theorem imAdvance (h : s.Latched e) : (s.imAdvance n).Latched e := ite (h.setFld_hub (by omega)) h

theorem dmAdvance (h : s.Latched e) : (s.dmAdvance n).Latched e := ite (h.setFld_hub (by omega)) h

theorem dmWrite (h : s.Latched e) {l : List Byte} : (s.dmWrite n a l).Latched e := by
  induction l generalizing s a with
  | nil => exact h
  | cons x r ih => exact ih (s := (s.setThr n _).setByte _ x) h

theorem requestHalt (h : s.Latched e) : (s.requestHalt n k).Latched e := ite h (setBit_hub (setThr h) (by omega))

theorem releaseCore (h : s.Latched e) {c : Bool} : (s.releaseCore n c).Latched e := by
  have ht : ∀ x y, (((s.setThr n x).setBit (aDBG_CORE_STAT n) fDBG_CORE_STAT_HALTED false).setCoreState n y).Latched e :=
    fun x y => setCoreState (setBit_hub (setThr h) (by omega))
  exact ite h (ite ((ht _ _).setReg_hub (by omega)) (ht _ _))

theorem dbgAdvance (h : s.Latched e) : (s.dbgAdvance n).Latched e := ite (h.setFld_hub (by omega)) h

theorem setDbgItem (h : s.Latched e) : (s.setDbgItem n i v).Latched e := ite h (ite h (ite h.landSpecial h))

/-! #### DMA -/

theorem dmaStop (h : s.Latched e) : (s.dmaStop n k).Latched e :=
  raise (setBit_hub (setDma (setFld_hub (setBit_hub h (by omega)) (by omega))) (by omega))

theorem dmaFetch (h : s.Latched e) : (s.dmaFetch n a).Latched e :=
  ite (setNi (setDma (setDma (setReg_hub h (by omega))))) (dmaStop (setDma (setReg_hub h (by omega))))

theorem dmaDrained (h : s.Latched e) : (s.dmaDrained n).Latched e :=
  ite (raise (setBit_hub (setBit_hub (setBit_hub (setDma h) (by omega)) (by omega)) (by omega))) h

/-! #### QDR-IV -/

theorem svcAdvance (h : s.Latched e) : (s.svcAdvance q).Latched e := ite (h.setFld_hub (by omega)) h

theorem qdrTrain (h : s.Latched e) : (s.qdrTrain q).Latched e := ite h (h.setFld_hub (by omega))

end State.Latched

/-! #### Writes -/

theorem latched_coreCtrlWrite (h : s.Latched e) : (coreCtrlWrite n v s).1.Latched e := by
  have hp : (s.plainWrite (aCORE_CTRL n) v).Latched e := h.plainWrite
  refine latched_ite hp.coreReset (latched_ite ?_ (latched_ite ?_ (latched_ite hp.setThr hp)))
  · exact State.Latched.ite (State.Latched.setThr hp).setCoreState (State.Latched.setThr hp)
  · exact State.Latched.ite hp.stopCore hp.setThr

theorem latched_imDataWrite (h : s.Latched e) : (imDataWrite n v s).1.Latched e :=
  latched_ite h (State.Latched.imAdvance (State.Latched.ite h.setBytes h))

theorem latched_coreWrite (h : s.Latched e) {o : Nat} : (coreWrite n o v s).1.Latched e := by
  fun_cases coreWrite n o v s
  case case1 => exact latched_coreCtrlWrite h
  case case2 => exact latched_imDataWrite h
  case case3 => exact h.dmWrite.dmAdvance
  case case4 => exact latched_writePlain h

theorem latched_bistCtrlWrite (h : s.Latched e) : (bistCtrlWrite m v s).1.Latched e := by
  have hp : (s.plainWrite aBIST_CTRL v).Latched e := h.plainWrite
  fun_cases bistCtrlWrite m v s
  case case1 => exact h
  case case2 =>
    exact (hp.setFld (a := aBANK_OWNER _) (rawWord_hub (by omega))).setReg_hub (by omega)
  all_goals exact hp

theorem latched_dmaCtrlWrite (h : s.Latched e) : (dmaCtrlWrite n v s).1.Latched e := by
  have hr : ∀ x y, ((s.setReg (aDMA_CTRL n) x).setDma n y).Latched e := fun x y =>
    State.Latched.setDma (h.setReg_hub (by omega))
  refine latched_ite h (latched_ite ?_ ?_)
  · exact State.Latched.dmaDrained (State.Latched.ite (State.Latched.setDma (State.Latched.disown (hr _ _))) (hr _ _))
  · have hd := fun x y => State.Latched.ite (p := (getB v fDMA_CTRL_EN && !getB v fDMA_CTRL_FORCE) = true)
      ((hr x y).setBit (b := false) (f := fDMA_STATUS_DRAINED) (rawWord_hub (by omega) : rawWord (aDMA_STATUS n) = false)) (hr x y)
    exact latched_ite (State.Latched.dmaFetch ((hd _ _).setBit_hub (by omega))) (hd _ _)

theorem latched_bankWrite (h : s.Latched e) {o : Nat} : (bankWrite m o v s).1.Latched e :=
  latched_ite (latched_ite h h.plainWrite) (latched_ite (h.plainWrite.setReg_hub (by omega)) (latched_ite (latched_bistCtrlWrite h)
    (latched_ite (latched_dmaCtrlWrite h) (latched_writePlain h))))

theorem latched_dbgOnly {f : State → Answer} (h : s.Latched e) (hf : (f s).1.Latched e) : (dbgOnly m f s).1.Latched e :=
  latched_ite hf h

theorem latched_runctlWrite (h : s.Latched e) : (runctlWrite v s).1.Latched e :=
  h.foldl fun _ _ _ hu => State.Latched.ite hu.requestHalt (State.Latched.ite hu.releaseCore (State.Latched.ite hu.releaseCore hu))

theorem latched_dbgTxWrite (h : s.Latched e) : (dbgTxWrite m v s).1.Latched e :=
  latched_ite h ((h.setReg_hub (by omega)).setBit_hub (by omega))

theorem latched_dbgRxWrite (h : s.Latched e) : (dbgRxWrite m v s).1.Latched e :=
  latched_ite h (State.Latched.raise ((h.setReg_hub (by omega)).setBit_hub (by omega)))

theorem latched_termStatWrite (h : s.Latched e) : (termStatWrite m v s).1.Latched e := by
  have hb : ∀ (u : State) f, u.Latched e → (u.setBit aDBG_TERM_STAT f false).Latched e := fun u f hu => hu.setBit_hub (by omega)
  have ht : ∀ c : Prop, ∀ _ : Decidable c, (if c then (s.setBit aDBG_TERM_STAT fDBG_TERM_STAT_TXV false).raise 1929
      else s).Latched e := fun _ _ => State.Latched.ite (hb _ _ h).raise h
  exact latched_ite h (State.Latched.ite (hb _ _ (ht _ _)) (ht _ _))

theorem latched_dbgRegWrite (h : s.Latched e) : (dbgRegWrite n v s).1.Latched e := latched_ite h.setDbgItem.dbgAdvance h

theorem latched_debugWrite (h : s.Latched e) {o : Nat} : (debugWrite m o v s).1.Latched e := by
  fun_cases debugWrite m o v s
  case case1 => exact latched_dbgOnly h (latched_runctlWrite h)
  case case2 => exact latched_dbgTxWrite h
  case case3 => exact latched_dbgRxWrite h
  case case4 => exact latched_termStatWrite h
  case case5 | case6 => exact latched_ite (latched_dbgOnly h (latched_dbgRegWrite h)) (latched_dbgOnly h (latched_writePlain h))

theorem latched_qsDataWrite (h : s.Latched e) : (qsDataWrite q k v s).1.Latched e :=
  latched_ite h (latched_ite h (latched_ite (State.Latched.setReg_hub h (by omega))
    (State.Latched.svcAdvance (s := { s with qdrSvc := _ }) h)))

theorem latched_qCtrlWrite (h : s.Latched e) : (qCtrlWrite q v s).1.Latched e := by
  have hr : ∀ x y, ((s.setReg (aQ_CTRL q) x).setQdr q y).Latched e := fun x y => State.Latched.setQdr (h.setReg_hub (by omega))
  have hd : ∀ x y, (((s.setReg (aQ_CTRL q) x).setQdr q y).setBit (aQ_STATUS q) fQ_STATUS_DRAINED false).Latched e :=
    fun x y => (hr x y).setBit_hub (by omega)
  exact State.Latched.ite (State.Latched.qdrTrain (State.Latched.ite ((hd _ _).setBit_hub (by omega)) (hr _ _)))
    (State.Latched.ite ((hd _ _).setBit_hub (by omega)) (hr _ _))

theorem latched_qLbWrite (h : s.Latched e) : (qLbWrite q v s).1.Latched e := by
  have hb : ∀ (u : State) c, u.Latched e → (u.setBit (aQ_LB q) fQ_LB_BUSY c).Latched e := fun u c hu => hu.setBit_hub (by omega)
  have ht : ∀ c : Prop, ∀ _ : Decidable c, (if c then ((s.plainWrite (aQ_LB q) v).setBit (aQ_LB q) fQ_LB_BUSY false).qdrTrain q
      else s.plainWrite (aQ_LB q) v).Latched e := fun _ _ => State.Latched.ite (hb _ _ h.plainWrite).qdrTrain h.plainWrite
  refine latched_ite h (latched_ite ((hb _ _ (ht _ _)).foldl fun u j _ hu => ?_) (ht _ _))
  exact hu.setReg_hub (by omega)

theorem latched_qdrWrite (h : s.Latched e) {o : Nat} : (qdrWrite q o v s).1.Latched e := by
  fun_cases qdrWrite q o v s
  case case1 => exact latched_qCtrlWrite h
  case case2 | case3 => exact latched_qsDataWrite h
  case case4 => exact latched_qLbWrite h
  case case5 => exact latched_writePlain h

end Sys2Proof.Machine
end

section
/-! ### What keeps a latched event: DRAM, the keyed mix and the analog die -/

namespace Sys2Proof.Machine

set_option Elab.async false

variable {s t : State} {a b d e i j k n p q : Nat} {v w : W32} {m : Rm}

namespace State.Latched

/-! #### DRAM -/

theorem setDramState (h : s.Latched e) : (s.setDramState d k).Latched e := h.setFld_hub (by omega)

theorem drFlag (h : s.Latched e) {f : Fld} : (s.drFlag d f).Latched e := h.flagRaise_at (rawWord_hub (by omega))

theorem putMq (h : s.Latched e) {x} : State.Latched { s with mq := x } e := h

theorem errRecord (h : s.Latched e) {x : Byte} : (s.errRecord d k a n x).Latched e := by
  have hr : ∀ x y z, ((({ s.setDs d x with mq := y } : State).setFld (aDR_ELOG_CTRL d) fDR_ELOG_CTRL_WP z)).Latched e :=
    fun x y z => setFld_hub (putMq (setDs h)) (by omega)
  exact ite h (ite (hr _ _ _).drFlag (hr _ _ _))

theorem logRead (h : s.Latched e) {r : LineRead} : (s.logRead d a n k r).Latched e := by
  fun_cases State.logRead s d a n k r
  case case1 | case3 => exact h.errRecord
  case case2 => exact h

theorem enterErasure (h : s.Latched e) : (s.enterErasure d k).Latched e := (h.setFld_hub (by omega)).flagRaise rfl

theorem countSymbol (h : s.Latched e) : (State.countSymbol d s k).Latched e := by
  have hc : ∀ x, ((s.satInc (aDR_CE d (k / 2)) (if k % 2 = 1 then fDR_CE_POS_HI else fDR_CE_POS_LO)).setDs d x).Latched e :=
    fun x => setDs (h.satInc_hub (by omega))
  have hs : ∀ (u : State) j, u.Latched e → (u.setFld (aDR_ECC_STAT d) fDR_ECC_STAT_SPOS j).Latched e :=
    fun u j hu => hu.setFld_hub (by omega)
  have hf : ∀ x j, ((((s.satInc (aDR_CE d (k / 2)) (if k % 2 = 1 then fDR_CE_POS_HI else fDR_CE_POS_LO)).setDs d x).setFld
      (aDR_ECC_STAT d) fDR_ECC_STAT_SPOS k).flagRaise (aDR_ECC_STAT d) fDR_ECC_STAT_SUSPECT j).Latched e :=
    fun x j => flagRaise (hs _ _ (hc x)) rfl
  exact ite h (ite (ite (hf _ _).enterErasure (hf _ _)) (hc _))

theorem readLine (h : s.Latched e) {l : List SymErr} : (s.readLine d a l).1.Latched e := by
  fun_cases State.readLine s d a l
  case case1 =>
    have hu : ((s.satInc (aDR_UE d) fDR_UE_COUNT).drFlag d fDR_FLAG_UE).Latched e := (h.satInc_hub (by omega)).drFlag
    exact ite (hu.flagRaise rfl) hu
  case case2 => exact h
  case case3 => exact (h.foldl fun _ _ _ hu => hu.countSymbol).drFlag

theorem countActivate (h : s.Latched e) : (s.countActivate d a n).Latched e := by
  have hl : ∀ (u : State) f j, u.Latched e → (u.setFld (aDR_RH_LOG d) f j).Latched e := fun u f j hu => hu.setFld_hub (by omega)
  exact ite (setDs h) (drFlag (setBit_hub (satInc_hub (hl _ _ _ (hl _ _ _ (setDs (setDs h)))) (by omega)) (by omega)))

theorem openFor (h : s.Latched e) {c : Bool} : (s.openFor d a n c).Latched e := setDs (ite h h.countActivate)

theorem kmBack (h : s.Latched e) {l : KmLine} : (s.kmBack l).Latched e := ite (setBytes (setBytes h)) h

theorem putKm (h : s.Latched e) {x} : State.Latched { s with km := x } e := h

theorem kmFetch (h : s.Latched e) {c : Bool} {l : List SymErr} : (s.kmFetch d k n c l).1.Latched e := by
  have hm : ∀ x y c, ((((s.satInc aKM_MISS fKM_MISS_COUNT).openFor d x n c).readLine d x y).1).Latched e := fun x y c =>
    (h.satInc_hub (by omega)).openFor.readLine
  fun_cases State.kmFetch s d k n c l
  case case1 => exact h
  case case2 _ _ _ x u r hread v _ =>
    have hu := hm x l c
    rw [hread] at hu
    exact logRead hu
  case case3 _ _ _ x u r hread v _ _ _ _ _ =>
    have hu := hm x l c
    rw [hread] at hu
    have hv : v.Latched e := logRead hu
    refine putKm (ite hv (putKm ?_))
    split
    · exact ite hv.openFor.kmBack hv
    · exact hv

theorem kmErr (h : s.Latched e) : (s.kmErr k a n).Latched e := by
  have hf : ∀ f j, f.width = 1 → (s.flagRaise aKM_ERR f j).Latched e := fun f j hf => h.flagRaise hf
  exact setReg_hub (setReg_hub (setReg_hub (ite (h.setBit_true rfl).raise (hf _ _ rfl)) (by omega)) (by omega)) (by omega)

end State.Latched

theorem latched_drCtrlWrite (h : s.Latched e) : (drCtrlWrite d v s).1.Latched e := by
  have hs : ∀ (u : State) f, u.Latched e → (u.setBit (aDR_STATUS d) f false).Latched e := fun u f hu => hu.setBit_hub (by omega)
  unfold drCtrlWrite
  extract_lets a st dis rise init t x t1 t2 t3 t4
  have h1 : t1.Latched e := State.Latched.setDs h.plainWrite
  have h2 : t2.Latched e := State.Latched.ite h1.setDramState h1
  have h3 : t3.Latched e := hs _ _ (hs _ _ h2.setDramState)
  exact latched_ite h (latched_ite (State.Latched.ite h3.setDs h3).drFlag h2)

theorem latched_drMrWrite (h : s.Latched e) : (drMrWrite d v s).1.Latched e :=
  latched_ite h (latched_ite h.plainWrite (State.Latched.setFld (s := (State.fresh 8 _).2) h.plainWrite (rawWord_hub (by omega))))

theorem latched_drTrnWrite (h : s.Latched e) : (drTrnWrite d v s).1.Latched e := by
  refine latched_ite (latched_ite h h.plainWrite) (latched_ite h ?_)
  exact (State.Latched.setBit_true h.plainWrite rfl).foldl fun u j _ hu => hu.setReg_hub (by omega)

theorem latched_drRhCfgWrite (h : s.Latched e) : (drRhCfgWrite d v s).1.Latched e :=
  State.Latched.ite h.plainWrite h.plainWrite.setDs

theorem latched_drElogCtrlWrite (h : s.Latched e) : (drElogCtrlWrite d v s).1.Latched e :=
  latched_ite h (State.Latched.ite (h.plainWrite.setFld_hub (by omega)) h.plainWrite)

theorem latched_drEccWrite (h : s.Latched e) : (drEccWrite d v s).1.Latched e :=
  latched_ite h (State.Latched.ite h.plainWrite.raise h.plainWrite)

theorem latched_drLbWrite (h : s.Latched e) : (drLbWrite d v s).1.Latched e := by
  have hs : ∀ u x k, u.Latched e → (State.setDramState (State.setDs u d x) d k).Latched e := fun u x k hu =>
    State.Latched.setDramState (State.Latched.setDs hu)
  exact latched_ite (latched_ite h (latched_ite h (hs _ _ _ h.plainWrite)))
    (latched_ite h.plainWrite (State.Latched.setDs h.plainWrite.setDramState))

theorem latched_drDlyWrite (h : s.Latched e) : (drDlyWrite d v s).1.Latched e := latched_ite h (latched_ite h h)

theorem latched_dramWrite (h : s.Latched e) {o : Nat} : (dramWrite d o v s).1.Latched e := by
  fun_cases dramWrite d o v s
  case case1 => exact latched_drCtrlWrite h
  case case2 => exact latched_ite h.plainWrite h
  case case3 => exact latched_drRhCfgWrite h
  case case4 => exact latched_drMrWrite h
  case case5 => exact latched_drTrnWrite h
  case case6 => exact latched_drDlyWrite h
  case case7 => exact latched_drElogCtrlWrite h
  case case8 => exact latched_drEccWrite h
  case case9 => exact latched_drLbWrite h
  case case10 => exact latched_writePlain h

/-! #### The keyed mix -/

theorem latched_kmCtrlWrite (h : s.Latched e) : (kmCtrlWrite v s).1.Latched e := by
  have hb : ∀ (u : State) f c, u.Latched e → (u.setBit aKM_STATUS f c).Latched e := fun u f c hu => hu.setBit_hub (by omega)
  unfold kmCtrlWrite
  extract_lets old new retire calm ready t src t1 t2
  have h1 : t1.Latched e := State.Latched.ite (State.Latched.putKm (s := src) (hb _ _ _ (hb _ _ _ h.plainWrite))) h.plainWrite
  have h2 : t2.Latched e := State.Latched.ite (hb _ _ _ h1) h1
  exact latched_ite h (latched_ite ((hb _ _ _ h2).setFld_hub (by omega)) h2)

theorem latched_kmMcmdWrite (h : s.Latched e) {l : List SymErr} : (kmMcmdWrite m l v s).1.Latched e := by
  unfold kmMcmdWrite
  extract_lets op a d n t
  have ht : t.Latched e := State.Latched.ite h.plainWrite h
  have hk : (t.kmFetch d (s.metaFirst + n / 20) (rmId m) false l).1.Latched e := ht.kmFetch
  refine latched_ite h (latched_ite h.plainWrite (latched_ite h (latched_ite h (latched_ite h ?_))))
  split
  · next u hu =>
    rw [hu] at hk
    exact hk.kmErr
  · next u line hu =>
    rw [hu] at hk
    exact latched_ite (((hk.setReg_hub (by omega)).setReg_hub (by omega)).setReg_hub (by omega) |>.setFld_hub (by omega)) hk

theorem latched_kmWrite (h : s.Latched e) {o : Nat} : (kmWrite m o v s).1.Latched e :=
  latched_ite (latched_kmCtrlWrite h) (latched_ite (latched_kmMcmdWrite h) (latched_ite (latched_ite h h.plainWrite)
    (latched_ite (latched_ite h (State.Latched.setReg_hub h (by omega))) (latched_writePlain h))))

end Sys2Proof.Machine
end

section
/-! ### What keeps a latched event: the analog die, supplies, events, clocks and die resets -/

namespace Sys2Proof.Machine

set_option Elab.async false

variable {s t : State} {a b d e i j k n p q : Nat} {v w : W32} {m : Rm}

namespace State.Latched

/-! #### Analog blocks and converters -/

theorem abFlag (h : s.Latched e) {f : Fld} : (s.abFlag n f).Latched e := h.flagRaise_at rawWord_ana

theorem setAbState (h : s.Latched e) : (s.setAbState n k).Latched e := h.setFld rawWord_ana

theorem abStatus (h : s.Latched e) {f : Fld} {c : Bool} : (s.setBit (aAB_STATUS n) f c).Latched e := h.setBit rawWord_ana

theorem abStartCal (h : s.Latched e) : (s.abStartCal n).Latched e := setAbState (abStatus (setAb h))

theorem abQueue (h : s.Latched e) : (s.abQueue n k).Latched e := abStatus (setAb h)

theorem abBegin (h : s.Latched e) {r : AbRun} : (s.abBegin n r).Latched e := setAbState (setAb h)

theorem abEndRun (h : s.Latched e) : (s.abEndRun n).Latched e := ite (abStartCal (setAb h)) (setAbState (setAb h))

theorem abWord (h : s.Latched e) : (s.abWord n k w).Latched e :=
  ite (ite h.abFlag (setAb h)) (ite h.abFlag (ite (raise (setAb h)) (setAb h)))

theorem abStop (h : s.Latched e) : (s.abStop n).Latched e := by
  have hs : ∀ x, ((s.setAb n x).setBit (aAB_STATUS n) fAB_STATUS_RUN_Q false).Latched e := fun x => abStatus (setAb h)
  fun_cases State.abStop s n
  case case1 => exact hs _
  case case2 _ _ _ _ y t =>
    refine abEndRun ?_
    dsimp only [t]
    split
    · exact setAb (hs _)
    · split
      · exact abWord (setAb (hs _))
      · exact hs _

theorem abHalt (h : s.Latched e) : (s.abHalt n).Latched e := ite h (setAbState (abStatus (abStatus (setAb h))))

theorem icFlag (h : s.Latched e) {f : Fld} : (s.icFlag n f).Latched e := h.flagRaise_at rawWord_ana

theorem putIc (h : s.Latched e) {x : Ic} : (s.putIc n x).Latched e := by
  have hi : (s.setIc n x).Latched e := h
  exact (hi.setFld rawWord_ana).setBit rawWord_ana

theorem icStartCal (h : s.Latched e) : (s.icStartCal n k).Latched e := putIc (setFld (setBit h rawWord_ana) rawWord_ana)

theorem icHalt (h : s.Latched e) : (s.icHalt n).Latched e := ite h (putIc (h.setBit rawWord_ana))

theorem asAdvance (h : s.Latched e) : s.asAdvance.Latched e := ite (h.setFld rawWord_ana) h

/-! #### Supplies and the real-time clock -/

theorem pwrDone (h : s.Latched e) : s.pwrDone.Latched e := (h.setBit_true rfl).raise

theorem askOn (h : s.Latched e) (hd : d < 4096) : (s.askOn d).Latched e :=
  ite h (h.setFld (rawWord_low (by omega)))

theorem rtcCapture (h : s.Latched e) : s.rtcCapture.Latched e :=
  setReg64 (h.setReg64 (by decide) (by decide)) (by decide) (by decide)

/-! #### Resets of dies -/

theorem loseTables (h : s.Latched e) : (s.loseTables d).Latched e := by
  have ht := fun x => setOk (d := d) (k := 1) (c := false) (setOk (d := d) (k := 0) (c := false)
    (putPat (x := x) (h.abandonCommit (d := d))))
  exact ite (setBit_hub (ht _) (by omega)) (ht _)

theorem clearPending (h : s.Latched e) : (s.clearPending n k).Latched e := ite h h.setPending

theorem awaitRejoin (h : s.Latched e) : (s.awaitRejoin d).Latched e :=
  syncBreach (setFld (s := { s with pat := _ }) h (rawWord_hub (by omega)))

/-- What leaves the registers, the marks of the hardware and the clocks as they were leaves an event latched. -/
theorem of_keepsElse (h : s.Latched e) {l : List Part} {ok : Nat → Bool} (hk : s.keepsElse t l ok) (hr : t.regs = s.regs)
    (hw : .hw ∉ l) (hc : .clk ∉ l) : t.Latched e := by
  have hhw : t.hw = s.hw := hk.1 .hw hw
  have hclk : t.clk = s.clk := hk.1 .clk hc
  rw [State.Latched, hr, hhw, hclk]
  exact h

theorem ringFinish (h : s.Latched e) {r : RStat} : (s.ringFinish m r v).Latched e :=
  h.of_keepsElse (s.ringFinish_keepsElse m r v) (s.ringFinish_regs m r v) (by cases m <;> decide) (by cases m <;> decide)

theorem resetDie (h : s.Latched e) (hd : d ≠ 6) : (s.resetDie d).Latched e := by
  have hmine : ∀ a, rawWord a = true → (a / 4294967296 == d) = false := by
    intro a ha
    have hr : ¬ (a < 25770001408 ∨ 25770001660 < a) := fun hc => by simp [rawWord_eq_false_iff.2 hc] at ha
    rw [beq_eq_false_iff_ne]
    omega
  unfold State.resetDie
  extract_lets t0 mine t1 t2 t3 t4 t5
  have h0 : t0.Latched e := h.foldl fun u _ _ hu => ite hu.ringFinish hu
  have h1 : t1.Latched e := ite h0.cfgFail h0
  have h2 : t2.Latched e := unconfigure (resetRegs (s := ((t1.loseTables d).loseNis d).purgeFlight d) h1.loseTables hmine)
  have h4 : t4.Latched e := loseLock (s := t3) h2
  exact awaitRejoin (ite (putAna h4) (putPins (setBit_hub h4 (by omega))))

end State.Latched

theorem latched_swapCtrlWrite (h : s.Latched e) : (swapCtrlWrite v s).1.Latched e := by
  have hb : ∀ (u : State) x c, u.Latched e → (State.setBit { u with ana := x } aSW_SWAP_STAT fSW_SWAP_STAT_ARMED c).Latched e :=
    fun u x c hu => State.Latched.setBit (s := { u with ana := x }) hu rawWord_ana
  have ht : ∀ c : Prop, ∀ _ : Decidable c, ∀ x, (if c then State.setBit { s.plainWrite aSW_SWAP_CTRL v with ana := x }
      aSW_SWAP_STAT fSW_SWAP_STAT_ARMED false else s.plainWrite aSW_SWAP_CTRL v).Latched e :=
    fun _ _ x => State.Latched.ite (hb _ _ _ h.plainWrite) h.plainWrite
  exact latched_ite h (latched_ite (hb _ _ _ (ht _ _ _)) (ht _ _ _))

theorem latched_swPinWrite (h : s.Latched e) : (swPinWrite a v s).1.Latched e := by
  fun_cases swPinWrite a v s
  case case1 => exact h
  all_goals exact h.plainWrite

theorem latched_abCmdWrite (h : s.Latched e) : (abCmdWrite n v s).1.Latched e := by
  unfold abCmdWrite
  extract_lets s1 cal x1 queuedCal s2 x2
  have h1 : s1.Latched e := State.Latched.ite h.abStop h
  have h2 : s2.Latched e := State.Latched.ite h1 (State.Latched.ite h1.abStatus h1.abStartCal)
  refine latched_ite h (latched_ite h2 (latched_ite h ?_))
  split
  · exact h.abFlag
  · exact latched_ite h2.abQueue h2.abBegin

theorem latched_abWrite (h : s.Latched e) {o : Nat} : (abWrite n o v s).1.Latched e :=
  latched_ite (latched_ite h h.plainWrite) (latched_ite (latched_ite h h.plainWrite) (latched_ite (latched_abCmdWrite h)
    (latched_ite (latched_ite h h.plainWrite) (latched_writePlain h))))

theorem latched_icCmdWrite (h : s.Latched e) : (icCmdWrite n v s).1.Latched e := by
  unfold icCmdWrite
  extract_lets stop x s1 x1 cal queuedCal s2 x2
  have h1 : s1.Latched e := State.Latched.ite h.putIc h
  have h2 : s2.Latched e := State.Latched.ite h1 (State.Latched.ite (h1.setBit rawWord_ana) h1.icStartCal)
  refine latched_ite h (latched_ite h2 (latched_ite h ?_))
  split
  · exact State.Latched.ite h h.icFlag
  · exact latched_ite h2.putIc h2.putIc

theorem latched_icWrite (h : s.Latched e) {o : Nat} : (icWrite n o v s).1.Latched e :=
  latched_ite (latched_ite h h.plainWrite) (latched_ite (latched_ite h h.plainWrite) (latched_ite (latched_icCmdWrite h)
    (latched_ite (latched_ite h h.plainWrite) (latched_writePlain h))))

theorem latched_asDataWrite (h : s.Latched e) : (asDataWrite k v s).1.Latched e :=
  latched_ite h (latched_ite (State.Latched.setReg h rawWord_ana)
    (State.Latched.asAdvance (State.Latched.setOk (State.Latched.putPat h))))

theorem latched_afClkWrite (h : s.Latched e) : (afClkWrite k v s).1.Latched e :=
  latched_ite h (State.Latched.putAna h.plainWrite)

theorem latched_pwrReqWrite (h : s.Latched e) : (pwrReqWrite v s).1.Latched e := by
  have hd : getF v fPWR_REQ_DOMAIN < 4096 := lt_of_lt_of_le (Nat.mod_lt _ (by decide)) (by decide)
  exact latched_ite h (latched_ite h.pwrDone (latched_ite (h.askOn hd).pwrDone
    (State.Latched.setBit_true (s := { s with pwr := _ }) h rfl)))

theorem latched_refCtrlWrite (h : s.Latched e) : (refCtrlWrite v s).1.Latched e := by
  have hb : ∀ (u : State) f c, u.Latched e → (u.setBit aREF_STATUS f c).Latched e := fun u f c hu => hu.setBit (by decide)
  unfold refCtrlWrite
  extract_lets r src active hold bad moved t t1 t2 t3
  have h1 : t1.Latched e := hb _ _ _ (hb _ _ _ h.plainWrite)
  have h2 : t2.Latched e := State.Latched.ite (hb _ _ _ h1) h1
  have h3 : t3.Latched e := State.Latched.ite ((hb _ _ _ h2).setBit (by decide)) h2
  exact latched_ite h (State.Latched.syncBreach (s := { t3 with clk := _ }) h3)

theorem latched_fclkCfgWrite (h : s.Latched e) : (fclkCfgWrite n v s).1.Latched e := latched_ite h h.plainWrite

theorem latched_tickCtrlWrite (h : s.Latched e) : (tickCtrlWrite v s).1.Latched e := by
  by_cases hb : s.tickCtrlBad v
  · rw [tickCtrlWrite_refused hb]
    exact h
  · rw [tickCtrlWrite_ok hb]
    have ht : (s.tickCtrlTaken (s.tickCtrlWord v)).Latched e := State.Latched.ite (h.plainWrite.setBit_hub (by omega)) h.plainWrite
    exact State.Latched.syncBreach (s := { s.tickCtrlTaken (s.tickCtrlWord v) with clk := _ }) ht

theorem latched_dieResetWrite (h : s.Latched e) : (dieResetWrite v s).1.Latched e := by
  refine h.foldl fun u d hd hu => hu.resetDie ?_
  have hl : ∀ d ∈ [0, 1, 2, 3, 4, 5, 7], d ≠ 6 := by decide
  exact hl d (List.mem_of_mem_filter hd)

/-! #### The blocks of control registers -/

theorem latched_niWrite (h : s.Latched e) {o : Nat} (hn : n < 256) : (niWrite d n o v s).1.Latched e := by
  fun_cases niWrite d n o v s
  case case1 => exact latched_niCtrlWrite h hn
  case case2 => exact h
  case case3 | case4 | case5 | case6 => exact latched_psDataWrite h hn
  case case7 | case8 | case9 => exact latched_spRegionWrite h
  case case10 => exact latched_spCtrlWrite h hn
  case case11 => exact latched_writePlain h

theorem latched_eventWrite (h : s.Latched e) {o : Nat} : (eventWrite o v s).1.Latched e := by
  refine latched_ite (State.Latched.ite h.plainWrite h.plainWrite) (latched_ite ?_ (latched_ite ?_ (latched_writePlain h)))
  · exact h.foldl fun u i _ hu => State.Latched.ite hu hu
  · exact h.foldl fun u j _ hu => State.Latched.ite (State.Latched.clearPending hu) hu

theorem latched_patternWrite (h : s.Latched e) {o : Nat} : (patternWrite m o v s).1.Latched e := by
  fun_cases patternWrite m o v s
  case case1 =>
    have hlo : rawWord (aTICK_LO (rmIdx m)) = false := rawWord_hub (by omega)
    have hhi : rawWord (aTICK_HI (rmIdx m)) = false := rawWord_hub (by omega)
    exact h.setReg64 hlo hhi
  case case2 => exact latched_tickCtrlWrite h
  case case3 => exact latched_patCtrlWrite h
  case case4 | case5 => exact latched_patAtWrite h
  case case6 =>
    fun_cases State.popFault s <;> exact h
  case case7 | case8 | case9 =>
    exact latched_ite (latched_shadowHeaderWrite h) (latched_ite (latched_commitWrite h) (latched_writePlain h))

theorem latched_hubWrite (h : s.Latched e) {o : Nat} : (hubWrite m b o v s).1.Latched e := by
  have hp : ∀ a, (writePlain a v s).1.Latched e := fun a => latched_writePlain h
  refine latched_ite ?_ (latched_ite ?_ (latched_ite ?_ (latched_ite (latched_eventWrite h) (latched_ite
    (latched_ite (latched_cfgSdataWrite h) (hp _)) (latched_ite (latched_coreWrite h) (latched_ite (latched_bankWrite h)
    (latched_ite (latched_dramWrite h) (latched_ite (latched_kmWrite h) (latched_ite (latched_qdrWrite h) ?_)))))))))
  · split
    · exact latched_ite h h.plainWrite
    · exact latched_dieResetWrite h
    · exact latched_ite h (hp _)
    · exact latched_rgCtrlWrite h (by decide)
    · exact latched_rgCtrlWrite h (by decide)
    · exact latched_rgCtrlWrite h (by decide)
    · exact hp _
  · exact latched_ite (latched_refCtrlWrite h) (latched_ite (latched_ite h h.plainWrite) (latched_ite (latched_fclkCfgWrite h) (hp _)))
  · split
    · exact latched_pwrReqWrite h
    · exact State.Latched.ite h.plainWrite h.plainWrite
    · exact h.rtcCapture
    · exact hp _
  · exact latched_ite_of (fun hb => latched_niWrite h (by omega)) (latched_ite
      (latched_ite_of (fun ho => latched_laneWrite h ho) (latched_portWrite h))
      (latched_ite (latched_patternWrite h) (latched_ite (latched_debugWrite h) (hp _))))

theorem latched_logicWrite (h : s.Latched e) {o : Nat} (hd : d ≠ 6) (ho : o < 65536) : (logicWrite d b o v s).1.Latched e := by
  have hp : ∀ a, (writePlain a v s).1.Latched e := fun a => latched_writePlain h
  refine latched_ite (latched_feWrite h) (latched_ite_of (fun hb => latched_niWrite h (by omega)) (latched_ite
    (latched_ite_of (fun ho => latched_laneWrite h ho) (latched_glLbWrite h)) (latched_ite_of (fun hb => ?_)
    (latched_ite ?_ (hp _)))))
  · exact latched_ite (latched_lmCtrlWrite h (rawFree_ra hd (by omega) ho)) (hp _)
  · split
    · exact hp _
    · exact latched_brHoldWrite h
    · exact latched_brReleaseWrite h
    · exact latched_brRgnWrite h

theorem latched_anaWrite (h : s.Latched e) {o : Nat} (ho : o < 65536) : (anaWrite b o v s).1.Latched e := by
  have hp : ∀ a, (writePlain a v s).1.Latched e := fun a => latched_writePlain h
  refine latched_ite_of (fun hb => ?_) (latched_ite (latched_abWrite h) (latched_ite (latched_ite (latched_swPinWrite h)
    (latched_ite (latched_swapCtrlWrite h) (hp _))) (latched_ite (latched_icWrite h) (latched_ite ?_ (latched_ite ?_ (hp _))))))
  · exact latched_ite (latched_lmCtrlWrite h (rawFree_ra (by decide) (by omega) ho)) (hp _)
  · split
    · exact latched_ite h.plainWrite h
    · exact latched_ite h.plainWrite h
    · exact latched_ite h h.plainWrite
    · exact latched_ite (latched_ite h h.plainWrite) (hp _)
  · refine latched_ite (latched_niWrite h (by decide)) (latched_ite (latched_feWrite h) ?_)
    split
    · exact latched_asDataWrite h
    · exact latched_asDataWrite h
    · exact latched_ite (latched_afClkWrite h) (hp _)

theorem latched_regWrite (h : s.Latched e) : (regWrite m a v s).1.Latched e := by
  have ho : a % 65536 < 65536 := Nat.mod_lt _ (by decide)
  unfold regWrite
  extract_lets d b o
  split
  · exact latched_hubWrite h
  · next h6 => exact latched_ite (latched_anaWrite h ho) (latched_logicWrite h h6 ho)

end Sys2Proof.Machine
end

section
/-! ### What keeps a latched event: an interrupted ring access, and the stop of the clocks (R21, R37, R38) -/

namespace Sys2Proof.Machine

set_option Elab.async false

variable {s t : State} {e k n : Nat} {m : Rm}

/-- The rim's record of a stop of the clocks with its cause, once all that the stop ends has ended (R37, R38, R436). -/
def State.rimStop (s : State) (cause : Nat) : State :=
  let t := s.setBit aTICK_ALIGN fTICK_ALIGN_ALIGNED false
  let t := (((t.setFld aRIM_CLK fRIM_CLK_CAUSE cause).setBit aRIM_CLK fRIM_CLK_LATCHED true).setBit aRIM_CLK fRIM_CLK_STOPPED
    true).setBit aRIM_CLK fRIM_CLK_SRC_VALID false
  { t with clk := { t.clk with phase := .stopped, outSafe := true, stopQual := t.fld aREF_CTRL fREF_CTRL_QUAL } }

theorem State.clockStop_eq (s : State) (k : Nat) : s.clockStop k = s.ringAbort.patternHalt.dramHalt.anaHalt.rimStop k := rfl

namespace State.Latched

/-- New clocks at the same tick. -/
theorem putClk (h : s.Latched e) {c : Clk} (hc : c.now = s.clk.now) : State.Latched { s with clk := c } e := by
  rw [State.Latched, hc]
  exact h

/-- A write access of the ring, wherever it goes. -/
theorem ringWrite (h : s.Latched e) {r : RingReq} (hr : r.write = true) : (gated r (ringTarget m r) s).1.Latched e := by
  have ht : (ringTarget m r s).1.Latched e := by
    rw [ringTarget, if_pos hr]
    exact latched_regWrite h
  fun_cases gated r (ringTarget m r) s
  case case1 | case3 => exact h
  case case2 | case4 => exact ht

/-- Whether an unanswered write is performed is free. -/
theorem ringUnsure (h : s.Latched e) : (s.ringUnsure m).Latched e := by
  fun_cases State.ringUnsure s m
  case case1 hr t hf =>
    simp only [Bool.and_eq_true] at hr
    obtain rfl : s.freshB.2 = t := congrArg Prod.snd hf
    exact h.freshB.ringWrite hr.2
  case case2 _ t hf _ =>
    obtain rfl : s.freshB.2 = t := congrArg Prod.snd hf
    exact h.freshB
  case case3 => exact h

theorem ringAbort (h : s.Latched e) : s.ringAbort.Latched e :=
  h.foldl fun _ _ _ hu => ite hu.ringUnsure.ringFinish hu

theorem patternHalt (h : s.Latched e) : s.patternHalt.Latched e := by
  have hb : ∀ (u : State) f, u.Latched e → (u.setBit aPAT_STATUS f false).Latched e := fun u f hu => hu.setBit_hub (by omega)
  unfold State.patternHalt
  extract_lets a ran t0 t1 _ t2
  have h0 : t0.Latched e := (hb _ _ (hb _ _ h)).setFld_hub (by omega)
  have h1 : t1.Latched e := foldl (h0.setReg (by decide)) fun u p _ hu => hu.setReg_hub (by omega)
  exact foldl (s := t2) h1 fun _ _ _ hu => hu.abandonCommit

theorem dramHalt (h : s.Latched e) : s.dramHalt.Latched e := by
  have hk : ∀ (u : State) f, u.Latched e → (u.setBit aKM_STATUS f false).Latched e := fun u f hu => hu.setBit_hub (by omega)
  refine putKm (hk _ _ (hk _ _ (h.foldl fun u d _ hu => setDs ?_)))
  exact (setDramState (s := u.dramLose d _) hu).setBit_hub (by omega) |>.setBit_hub (by omega)

theorem anaHalt (h : s.Latched e) : s.anaHalt.Latched e :=
  foldl (foldl h fun _ _ _ hu => hu.abHalt) fun _ _ _ hu => hu.icHalt

theorem rimStop (h : s.Latched e) : (s.rimStop k).Latched e := by
  have hb : ∀ (u : State) f c, u.Latched e → (u.setBit aRIM_CLK f c).Latched e := fun u f c hu => hu.setBit (by decide)
  exact hb _ _ _ (hb _ _ _ (hb _ _ _ ((h.setBit_hub (by omega)).setFld (by decide))))

theorem clockStop (h : s.Latched e) : (s.clockStop k).Latched e := h.ringAbort.patternHalt.dramHalt.anaHalt.rimStop

theorem enterHold (h : s.Latched e) : s.enterHold.Latched e := by
  have hb : ∀ (u : State) f c, u.Latched e → (u.setBit aREF_STATUS f c).Latched e := fun u f c hu => hu.setBit (by decide)
  have hr := ((hb _ fREF_STATUS_HOLD true (hb s fREF_STATUS_ACTIVE false h)).raise (k := 16))
  exact syncBreach (s := { ((s.setBit aREF_STATUS fREF_STATUS_ACTIVE false).setBit aREF_STATUS fREF_STATUS_HOLD true).raise 16 with
    clk := _ }) hr

theorem recoveredLost (h : s.Latched e) : s.recoveredLost.Latched e := by
  have ht : (s.setBit aREF_STATUS fREF_STATUS_REC_OK false).Latched e := h.setBit (by decide)
  exact ite ht (ite ht.clockStop (ite ht.clockStop ht.enterHold))

end State.Latched

end Sys2Proof.Machine
end

section
/-! ### References: what their commands store (R31 to R36; log entries 23, 24, 25, 121, 123) -/

namespace Sys2Proof.Machine

set_option Elab.async false

variable {s : State} {a : Nat} {g : Fld} {v : W32}

/-! #### A write of `REF_CTRL` (R31, R35) -/

/-- A refused write: too large an inhibit, or the source it turns to does not hold. -/
def State.refCtrlBad (s : State) (v : W32) : Prop :=
  10 < getF v fREF_CTRL_INH ∨ (if getB v fREF_CTRL_SRC then s.bit aREF_STATUS fREF_STATUS_REC_OK = false
    else (s.bit aREF_STATUS fREF_STATUS_ACTIVE = true ∨ s.bit aREF_STATUS fREF_STATUS_HOLD = true) ∧
      s.bit aREF_STATUS fREF_STATUS_LOC_OK = false)

/-- `REF_CTRL` and the reference it switches to. -/
def State.refTaken (s : State) (v : W32) : State :=
  ((s.plainWrite aREF_CTRL v).setBit aREF_STATUS fREF_STATUS_ACTIVE (getB v fREF_CTRL_SRC)).setBit aREF_STATUS
    fREF_STATUS_HOLD false

/-- A change of the source starts the slew. -/
def State.refSlewed (s : State) (v : W32) : State :=
  if getB v fREF_CTRL_SRC != s.bit aREF_STATUS fREF_STATUS_ACTIVE || s.bit aREF_STATUS fREF_STATUS_HOLD then
    (s.refTaken v).setBit aREF_STATUS fREF_STATUS_SLEW true
  else s.refTaken v

/-- Another port or lane has yet to qualify and to be measured. -/
def State.refMoved (s : State) (v : W32) : State :=
  if getF v fREF_CTRL_PORT != s.fld aREF_CTRL fREF_CTRL_PORT || getF v fREF_CTRL_LANE != s.fld aREF_CTRL fREF_CTRL_LANE then
    ((s.refSlewed v).setBit aREF_STATUS fREF_STATUS_REC_OK false).setBit aFREQ_MON fFREQ_MON_VALID false
  else s.refSlewed v

def State.refStored (s : State) (v : W32) : State :=
  State.syncBreach { s.refMoved v with clk := { (s.refMoved v).clk with
    sscHeld := (s.refMoved v).clk.sscHeld && getB v fREF_CTRL_SRC } }

theorem State.refCtrlBad_iff (s : State) (v : W32) : (10 < getF v fREF_CTRL_INH ∨
    (if getB v fREF_CTRL_SRC then !s.bit aREF_STATUS fREF_STATUS_REC_OK
      else (s.bit aREF_STATUS fREF_STATUS_ACTIVE || s.bit aREF_STATUS fREF_STATUS_HOLD) &&
        !s.bit aREF_STATUS fREF_STATUS_LOC_OK) = true) ↔ s.refCtrlBad v := by
  rw [State.refCtrlBad]
  split <;> simp

theorem refCtrlWrite_refused (h : s.refCtrlBad v) : refCtrlWrite v s = refuse s := if_pos ((s.refCtrlBad_iff v).2 h)

theorem refCtrlWrite_ok (h : ¬ s.refCtrlBad v) : refCtrlWrite v s = wrote (s.refStored v) :=
  if_neg fun hc => h ((s.refCtrlBad_iff v).1 hc)

theorem State.refStored_within (s : State) (v : W32) :
    s.Within (s.refStored v) [.clk, .hw, .ev] (among [aFREQ_MON, aREF_CTRL, aREF_STATUS]) := by
  have hr : among [aFREQ_MON, aREF_CTRL, aREF_STATUS] aREF_STATUS = true ∨ notice aREF_STATUS = true := .inl (by decide)
  have hp : s.Within (s.plainWrite aREF_CTRL v) [.clk, .hw, .ev] (among [aFREQ_MON, aREF_CTRL, aREF_STATUS]) := by
    obtain ⟨r, hr⟩ : ∃ r, regRow aREF_CTRL = some r := ⟨_, rfl⟩
    rw [State.plainWrite_eq hr]
    exact (State.Within.refl s _ _).setReg (.inl (by decide))
  have ht : s.Within (s.refTaken v) [.clk, .hw, .ev] (among [aFREQ_MON, aREF_CTRL, aREF_STATUS]) := (hp.setBit hr).setBit hr
  have hl : s.Within (s.refSlewed v) [.clk, .hw, .ev] (among [aFREQ_MON, aREF_CTRL, aREF_STATUS]) :=
    State.Within.ite (ht.setBit hr) ht
  have hm : s.Within (s.refMoved v) [.clk, .hw, .ev] (among [aFREQ_MON, aREF_CTRL, aREF_STATUS]) :=
    State.Within.ite ((hl.setBit hr).setBit (.inl (by decide))) hl
  exact hm.put_clk.syncBreach

section Stored
variable (hs : Tab.wf regReset s.regs = true)
include hs

theorem State.refTaken_wf : Tab.wf regReset (s.refTaken v).regs = true :=
  State.setBit_wf (State.setBit_wf (State.plainWrite_wf hs _ _) _ _ _) _ _ _

theorem State.refSlewed_wf : Tab.wf regReset (s.refSlewed v).regs = true := by
  rw [State.refSlewed]
  split
  · exact State.setBit_wf (State.refTaken_wf hs) _ _ _
  · exact State.refTaken_wf hs

theorem State.refMoved_wf : Tab.wf regReset (s.refMoved v).regs = true := by
  rw [State.refMoved]
  split
  · exact State.setBit_wf (State.setBit_wf (State.refSlewed_wf hs) _ _ _) _ _ _
  · exact State.refSlewed_wf hs

/-- What is stored, apart from the sum of the breaches. -/
theorem State.refStored_reg (ha : notice a = false) : (s.refStored v).reg a = (s.refMoved v).reg a :=
  State.syncBreach_clk_reg (State.refMoved_wf hs) _ ha

/-- A move of the port or lane leaves the status beside `REC_OK`. -/
theorem State.refMoved_bit (hl : g.lsb < 32) (hg : g.lsb < 1 ∨ 2 ≤ g.lsb) :
    (s.refMoved v).bit aREF_STATUS g = (s.refSlewed v).bit aREF_STATUS g := by
  have hw := State.refSlewed_wf (v := v) hs
  rw [State.refMoved]
  split
  · rw [State.setBit_bit_ne (State.setBit_wf hw _ _ _) hl (.inl (by decide)), State.setBit_bit_ne hw hl (.inr hg)]
  · rfl

theorem State.refSlewed_bit (hl : g.lsb < 32) (hg : g.lsb < 4 ∨ 5 ≤ g.lsb) :
    (s.refSlewed v).bit aREF_STATUS g = (s.refTaken v).bit aREF_STATUS g := by
  rw [State.refSlewed]
  split
  · rw [State.setBit_bit_ne (State.refTaken_wf hs) hl (.inr hg)]
  · rfl

theorem State.refStored_bit (hl : g.lsb < 32) (h1 : g.lsb < 1 ∨ 2 ≤ g.lsb) :
    (s.refStored v).bit aREF_STATUS g = (s.refSlewed v).bit aREF_STATUS g := by
  rw [State.bit, State.refStored_reg hs rfl]
  exact State.refMoved_bit hs hl h1

theorem State.refStored_active : (s.refStored v).bit aREF_STATUS fREF_STATUS_ACTIVE = getB v fREF_CTRL_SRC := by
  have hp := State.plainWrite_wf hs aREF_CTRL v
  rw [State.refStored_bit hs (by decide) (by decide), State.refSlewed_bit hs (by decide) (by decide), State.refTaken,
    State.setBit_bit_ne (State.setBit_wf hp _ _ _) (by decide) (by decide), State.setBit_bit_same hp rfl (by decide)]

theorem State.refStored_hold : (s.refStored v).bit aREF_STATUS fREF_STATUS_HOLD = false := by
  have hp := State.plainWrite_wf hs aREF_CTRL v
  rw [State.refStored_bit hs (by decide) (by decide), State.refSlewed_bit hs (by decide) (by decide), State.refTaken,
    State.setBit_bit_same (State.setBit_wf hp _ _ _) rfl (by decide)]

theorem State.refStored_slew (hc : getB v fREF_CTRL_SRC ≠ s.bit aREF_STATUS fREF_STATUS_ACTIVE ∨
    s.bit aREF_STATUS fREF_STATUS_HOLD = true) : (s.refStored v).bit aREF_STATUS fREF_STATUS_SLEW = true := by
  rw [State.refStored_bit hs (by decide) (by decide), State.refSlewed, if_pos (by simpa using hc),
    State.setBit_bit_same (State.refTaken_wf hs) rfl (by decide)]

theorem State.refStored_ctrl : (s.refStored v).reg aREF_CTRL = (s.plainWrite aREF_CTRL v).reg aREF_CTRL := by
  have hp := State.plainWrite_wf hs aREF_CTRL v
  have ht : (s.refTaken v).reg aREF_CTRL = (s.plainWrite aREF_CTRL v).reg aREF_CTRL := by
    rw [State.refTaken, State.setBit_reg (State.setBit_wf hp _ _ _), if_neg (by decide), State.setBit_reg hp, if_neg (by decide)]
  have hl : (s.refSlewed v).reg aREF_CTRL = (s.refTaken v).reg aREF_CTRL := by
    rw [State.refSlewed]
    split
    · rw [State.setBit_reg (State.refTaken_wf hs), if_neg (by decide)]
    · rfl
  rw [State.refStored_reg hs rfl, State.refMoved, ← ht, ← hl]
  have hw := State.refSlewed_wf (v := v) hs
  split
  · rw [State.setBit_reg (State.setBit_wf hw _ _ _), if_neg (by decide), State.setBit_reg hw, if_neg (by decide)]
  · rfl

end Stored

end Sys2Proof.Machine
end

section
/-! ### O6: loss of a reference, its averages, and the obligation (R31 to R38, R42) -/

namespace Sys2Proof.Machine

set_option Elab.async false

variable {s t : State} {e k : Nat} {d : BitVec 24} {x : Bool}

/-! #### The record of a stop -/

/-- The rim's clock register of a stop with a cause, over what it held. -/
def rimWord (w : W32) (cause : Nat) : W32 :=
  putF (putF (putF (putF w fRIM_CLK_CAUSE cause) fRIM_CLK_LATCHED 1) fRIM_CLK_STOPPED 1) fRIM_CLK_SRC_VALID 0

theorem getF_zero (f : Fld) : getF 0#32 f = 0 := by simp [getF]

/-- A word whose cause is given is not the reset value of the rim's clock register. -/
theorem ne_regReset_of_cause {w : W32} (h : getF w fRIM_CLK_CAUSE = k) (hk : k ≠ 0) : w ≠ regReset aRIM_CLK := by
  have h0 : regReset aRIM_CLK = 0#32 := by decide
  rintro rfl
  exact hk (by rw [← h, h0, getF_zero])

theorem State.rimStop_reg (hk : k ≠ 0) (h16 : k < 16) : ∃ w, (s.rimStop k).reg aRIM_CLK = rimWord w k := by
  generalize hu : s.setBit aTICK_ALIGN fTICK_ALIGN_ALIGNED false = u
  have h1 : getF (putF (u.reg aRIM_CLK) fRIM_CLK_CAUSE k) fRIM_CLK_CAUSE = k := by
    rw [getF_putF _ _ _ (by decide)]
    exact Nat.mod_eq_of_lt h16
  have hkeep : ∀ (w : W32) (g : Fld) n, g.lsb + g.width ≤ 12 → getF w fRIM_CLK_CAUSE = k →
      getF (putF w g n) fRIM_CLK_CAUSE = k := fun w g n hg hw => by
    rw [getF_putF_disjoint _ _ _ _ (.inr hg), hw]
  have h2 := hkeep _ fRIM_CLK_LATCHED 1 (by decide) h1
  have h3 := hkeep _ fRIM_CLK_STOPPED 1 (by decide) h2
  have h4 := hkeep _ fRIM_CLK_SRC_VALID 0 (by decide) h3
  have r1 := State.setFld_reg_of_ne (ne_regReset_of_cause h1 hk)
  have r2 := State.setBit_reg_of_ne (s := u.setFld aRIM_CLK fRIM_CLK_CAUSE k) (a := aRIM_CLK) (f := fRIM_CLK_LATCHED) (c := true)
    (by rw [r1]; exact ne_regReset_of_cause h2 hk)
  rw [r1] at r2
  have r3 := State.setBit_reg_of_ne (a := aRIM_CLK) (f := fRIM_CLK_STOPPED) (c := true)
    (by rw [r2]; exact ne_regReset_of_cause h3 hk)
  rw [r2] at r3
  have r4 := State.setBit_reg_of_ne (a := aRIM_CLK) (f := fRIM_CLK_SRC_VALID) (c := false)
    (by rw [r3]; exact ne_regReset_of_cause h4 hk)
  rw [r3, ← hu] at r4
  exact ⟨_, r4⟩

theorem State.clockStop_record (hk : k ≠ 0) (h16 : k < 16) : (s.clockStop k).clk.phase = .stopped ∧
    (s.clockStop k).bit aRIM_CLK fRIM_CLK_STOPPED = true ∧ (s.clockStop k).fld aRIM_CLK fRIM_CLK_CAUSE = k := by
  rw [State.clockStop_eq]
  obtain ⟨w, hw⟩ := State.rimStop_reg (s := s.ringAbort.patternHalt.dramHalt.anaHalt) hk h16
  refine ⟨rfl, ?_, ?_⟩
  · rw [State.bit, hw, rimWord]
    simp [getB_putF, fRIM_CLK_STOPPED, fRIM_CLK_SRC_VALID]
  · rw [State.fld, hw, rimWord, getF_putF_disjoint _ _ _ _ (by decide), getF_putF_disjoint _ _ _ _ (by decide),
      getF_putF_disjoint _ _ _ _ (by decide), getF_putF _ _ _ (by decide)]
    exact Nat.mod_eq_of_lt h16

/-! #### Holdover (R35) -/

/-- The status with which holdover begins, its event raised. -/
def State.held (s : State) : State :=
  ((s.setBit aREF_STATUS fREF_STATUS_ACTIVE false).setBit aREF_STATUS fREF_STATUS_HOLD true).raise 16

theorem State.enterHold_eq (s : State) : s.enterHold = State.syncBreach { s.held with
    clk := { s.held.clk with holdCorr := s.held.clk.goodAvg, sscAct := 0#32, sscHeld := true } } := rfl

theorem State.held_within (s : State) : s.Within s.held [.clk, .hw, .ev] (among [aREF_STATUS]) :=
  ((((State.Within.refl s _ _).setBit (.inl (by decide))).setBit (.inl (by decide))).raise (by decide))

theorem State.enterHold_within (s : State) : s.Within s.enterHold [.clk, .hw, .ev] (among [aREF_STATUS]) := by
  rw [State.enterHold_eq]
  exact s.held_within.put_clk.syncBreach

theorem State.held_clk (s : State) : s.held.clk = s.clk := by
  have h := (State.Within.refl ((s.setBit aREF_STATUS fREF_STATUS_ACTIVE false).setBit aREF_STATUS fREF_STATUS_HOLD true)
    [.hw, .ev] fun _ => false).raise (e := 16) (by decide)
  exact Eq.trans (h.parts .clk (by decide)) (by simp)

theorem State.enterHold_clk (s : State) : s.enterHold.clk =
    { s.clk with holdCorr := s.clk.goodAvg, sscAct := 0#32, sscHeld := true } := by
  rw [State.enterHold_eq]
  refine Eq.trans (((State.Within.refl { s.held with clk := _ } [.hw, .ev] fun _ => false).syncBreach).parts .clk (by decide)) ?_
  change { s.held.clk with holdCorr := s.held.clk.goodAvg, sscAct := 0#32, sscHeld := true } = _
  rw [s.held_clk]

section Held
variable (hs : Tab.wf regReset s.regs = true)
include hs

/-- Holdover changes the status at its source and its own bit. -/
theorem State.enterHold_reg : s.enterHold.reg aREF_STATUS =
    putF (putF (s.reg aREF_STATUS) fREF_STATUS_ACTIVE 0) fREF_STATUS_HOLD 1 := by
  have h0 := State.setBit_wf hs aREF_STATUS fREF_STATUS_ACTIVE false
  have h1 := State.setBit_wf h0 aREF_STATUS fREF_STATUS_HOLD true
  have hr := ((State.Within.refl _ [.hw, .ev] fun _ => false).raise (e := 16) (by decide)).regs h1 aREF_STATUS rfl (by decide)
  rw [State.enterHold_eq, State.syncBreach_clk_reg (s.held_within.wf hs) _ (by decide), State.held, hr, State.setBit_reg h0,
    if_pos rfl, State.setBit_reg hs, if_pos rfl]
  rfl

theorem State.enterHold_bits : s.enterHold.bit aREF_STATUS fREF_STATUS_ACTIVE = false ∧
    s.enterHold.bit aREF_STATUS fREF_STATUS_HOLD = true ∧
    s.enterHold.bit aREF_STATUS fREF_STATUS_REC_OK = s.bit aREF_STATUS fREF_STATUS_REC_OK := by
  refine ⟨?_, ?_, ?_⟩ <;> rw [State.bit, State.enterHold_reg hs] <;>
    simp [getB_putF, State.bit, fREF_STATUS_ACTIVE, fREF_STATUS_HOLD, fREF_STATUS_REC_OK]

theorem State.enterHold_latched : s.enterHold.Latched 16 := by
  have h0 := State.setBit_wf (State.setBit_wf hs aREF_STATUS fREF_STATUS_ACTIVE false) aREF_STATUS fREF_STATUS_HOLD true
  have hr : s.held.Latched 16 := State.raise_latched h0 (by decide) rfl
  exact State.Latched.syncBreach (hr.putClk (c := { s.held.clk with
    holdCorr := s.held.clk.goodAvg, sscAct := 0#32, sscHeld := true }) rfl)

/-! #### Loss of the recovered source (R34, R38) -/

/-- The loss of `REC_OK` leaves what decides on a fallback. -/
theorem State.recLost_bits : (s.setBit aREF_STATUS fREF_STATUS_REC_OK false).bit aREF_STATUS fREF_STATUS_ACTIVE =
      s.bit aREF_STATUS fREF_STATUS_ACTIVE ∧
    (s.setBit aREF_STATUS fREF_STATUS_REC_OK false).bit aREF_CTRL fREF_CTRL_HOLD_EN = s.bit aREF_CTRL fREF_CTRL_HOLD_EN ∧
    (s.setBit aREF_STATUS fREF_STATUS_REC_OK false).bit aREF_STATUS fREF_STATUS_LOC_OK = s.bit aREF_STATUS fREF_STATUS_LOC_OK ∧
    (s.setBit aREF_STATUS fREF_STATUS_REC_OK false).bit aREF_STATUS fREF_STATUS_REC_OK = false :=
  ⟨State.setBit_bit_ne hs (by decide) (by decide), State.setBit_bit_ne hs (by decide) (by decide),
    State.setBit_bit_ne hs (by decide) (by decide), State.setBit_bit_same hs rfl (by decide)⟩

theorem State.recoveredLost_inactive (ha : s.bit aREF_STATUS fREF_STATUS_ACTIVE = false) :
    s.recoveredLost = s.setBit aREF_STATUS fREF_STATUS_REC_OK false := by
  obtain ⟨hact, -⟩ := State.recLost_bits hs
  simp only [State.recoveredLost, hact, ha, Bool.not_false, if_true]

theorem State.recoveredLost_noHold (ha : s.bit aREF_STATUS fREF_STATUS_ACTIVE = true)
    (hh : s.bit aREF_CTRL fREF_CTRL_HOLD_EN = false) :
    s.recoveredLost = (s.setBit aREF_STATUS fREF_STATUS_REC_OK false).clockStop 2 := by
  obtain ⟨hact, hen, -⟩ := State.recLost_bits hs
  simp only [State.recoveredLost, hact, hen, ha, hh, Bool.not_true, Bool.not_false, Bool.false_eq_true, if_true, if_false]

theorem State.recoveredLost_noLocal (ha : s.bit aREF_STATUS fREF_STATUS_ACTIVE = true)
    (hh : s.bit aREF_CTRL fREF_CTRL_HOLD_EN = true) (hl : s.bit aREF_STATUS fREF_STATUS_LOC_OK = false) :
    s.recoveredLost = (s.setBit aREF_STATUS fREF_STATUS_REC_OK false).clockStop 3 := by
  obtain ⟨hact, hen, hloc, -⟩ := State.recLost_bits hs
  simp only [State.recoveredLost, hact, hen, hloc, ha, hh, hl, Bool.not_true, Bool.not_false, Bool.false_eq_true, if_true,
    if_false]

theorem State.recoveredLost_hold (ha : s.bit aREF_STATUS fREF_STATUS_ACTIVE = true)
    (hh : s.bit aREF_CTRL fREF_CTRL_HOLD_EN = true) (hl : s.bit aREF_STATUS fREF_STATUS_LOC_OK = true) :
    s.recoveredLost = (s.setBit aREF_STATUS fREF_STATUS_REC_OK false).enterHold := by
  obtain ⟨hact, hen, hloc, -⟩ := State.recLost_bits hs
  simp only [State.recoveredLost, hact, hen, hloc, ha, hh, hl, Bool.not_true, Bool.false_eq_true, if_false]

/-- Where the clocks run on, the source is absent and its measure stands. -/
theorem State.recoveredLost_runs (hp : s.clk.phase ≠ .stopped) (h : s.recoveredLost.clk.phase = s.clk.phase) :
    s.recoveredLost.bit aREF_STATUS fREF_STATUS_REC_OK = false ∧ s.recoveredLost.reg aFREQ_MON = s.reg aFREQ_MON := by
  have hw := State.setBit_wf hs aREF_STATUS fREF_STATUS_REC_OK false
  obtain ⟨-, -, -, hrec⟩ := State.recLost_bits hs
  have hmon : (s.setBit aREF_STATUS fREF_STATUS_REC_OK false).reg aFREQ_MON = s.reg aFREQ_MON := by
    rw [State.setBit_reg hs, if_neg (by decide)]
  have hstop : ∀ k, k ≠ 0 → k < 16 → s.recoveredLost ≠ (s.setBit aREF_STATUS fREF_STATUS_REC_OK false).clockStop k :=
    fun k h0 h16 hc => hp (by rw [← h, hc, (State.clockStop_record h0 h16).1])
  cases ha : s.bit aREF_STATUS fREF_STATUS_ACTIVE with
  | false =>
    rw [State.recoveredLost_inactive hs ha]
    exact ⟨hrec, hmon⟩
  | true =>
    cases hh : s.bit aREF_CTRL fREF_CTRL_HOLD_EN with
    | false => exact absurd (State.recoveredLost_noHold hs ha hh) (hstop 2 (by decide) (by decide))
    | true =>
      cases hl : s.bit aREF_STATUS fREF_STATUS_LOC_OK with
      | false => exact absurd (State.recoveredLost_noLocal hs ha hh hl) (hstop 3 (by decide) (by decide))
      | true =>
        obtain ⟨-, -, hbit⟩ := State.enterHold_bits hw
        rw [State.recoveredLost_hold hs ha hh hl]
        exact ⟨hbit.trans hrec, ((State.enterHold_within _).regs hw _ (by decide) (by decide)).trans hmon⟩

end Held

end Sys2Proof.Machine
end

section
/-! ### O6: averages of the recovered reference, and the obligation (R33, R42) -/

namespace Sys2Proof.Machine

set_option Elab.async false

variable {s t : State} {d : BitVec 24} {x : Bool}

/-- A spread of the root that is in use. -/
def State.spreads (s : State) : Bool := s.bit aREF_STATUS fREF_STATUS_ACTIVE && getF s.clk.sscAct fSSC_CTRL_DEPTH != 0

/-- The average finds the root departed in a spread of its own. -/
def State.departed (s : State) (x : Bool) : Bool := s.spreads && (x || decide (1 ≤ s.clk.sscSeen))

/-- The registers once an average has been stored. -/
def State.measured (s : State) (d : BitVec 24) : State :=
  (s.setFld aFREQ_MON fFREQ_MON_DIFF d.toNat).setBit aFREQ_MON fFREQ_MON_VALID true

/-- The state once an average has been stored and its clocks have taken it. -/
def State.averaged (s : State) (d : BitVec 24) : State :=
  { s.measured d with clk := { (s.measured d).clk with
      goodAvg := if (s.measured d).freqOk then d else (s.measured d).clk.goodAvg
      sscSeen := if s.spreads then (s.measured d).clk.sscSeen + 1 else (s.measured d).clk.sscSeen } }

/-- The state of an absent source's average, with its event where the source was not absent before. -/
def State.absentEvent (s : State) (d : BitVec 24) (x : Bool) : State :=
  if (!s.bit aFREQ_MON fFREQ_MON_VALID || s.freqOk) || s.departed x then (s.averaged d).raise 20 else s.averaged d

theorem exec_freqMonAverage_good (hr : s.hubRuns = true) (hl : s.laneRecovers = true) (hf : (s.averaged d).freqOk = true)
    (hd : s.departed x = false) : exec (.freqMonAverage d x) s = .next (s.averaged d) := by
  change execFreqMonAverage d x s = _
  rw [execFreqMonAverage, if_pos (by simp [hr, hl])]
  exact if_pos (show ((s.averaged d).freqOk && !s.departed x) = true by simp [hf, hd])

theorem exec_freqMonAverage_absent (hr : s.hubRuns = true) (hl : s.laneRecovers = true)
    (h : (s.averaged d).freqOk = false ∨ s.departed x = true) :
    exec (.freqMonAverage d x) s = .next (s.absentEvent d x).recoveredLost := by
  change execFreqMonAverage d x s = _
  rw [execFreqMonAverage, if_pos (by simp [hr, hl])]
  exact if_neg (show ¬ ((s.averaged d).freqOk && !s.departed x) = true by obtain h | h := h <;> simp [h])

theorem State.averaged_within (s : State) (d : BitVec 24) : s.Within (s.averaged d) [.clk, .hw] (among [aFREQ_MON]) := by
  have hm : s.Within (s.measured d) [.clk, .hw] (among [aFREQ_MON]) :=
    ((State.Within.refl s _ _).setFld (.inl (by decide))).setBit (.inl (by decide))
  exact hm.put_clk

/-- The event of an absent source leaves what the average stored, the status and the clocks. -/
theorem State.absentEvent_within : (s.averaged d).Within (s.absentEvent d x) [.hw, .ev] fun _ => false :=
  State.Within.ite ((State.Within.refl _ _ _).raise (by decide)) (State.Within.refl _ _ _)

section Averaged
variable (hs : Tab.wf regReset s.regs = true)
include hs

theorem State.averaged_reg : (s.averaged d).reg aFREQ_MON =
    putF (putF (s.reg aFREQ_MON) fFREQ_MON_DIFF d.toNat) fFREQ_MON_VALID 1 := by
  have h := State.setBit_reg (State.setFld_wf hs aFREQ_MON fFREQ_MON_DIFF d.toNat) aFREQ_MON fFREQ_MON_VALID true aFREQ_MON
  rw [if_pos rfl, State.setFld_reg hs, if_pos rfl] at h
  exact h

theorem State.averaged_valid : (s.averaged d).bit aFREQ_MON fFREQ_MON_VALID = true := by
  rw [State.bit, State.averaged_reg hs]
  simp [getB_putF, fFREQ_MON_VALID]

theorem State.averaged_diff : (s.averaged d).fld aFREQ_MON fFREQ_MON_DIFF = d.toNat := by
  rw [State.fld, State.averaged_reg hs, getF_putF_disjoint _ _ _ _ (by decide), getF_putF _ _ _ (by decide)]
  exact Nat.mod_eq_of_lt d.isLt

/-- An average in the window is one that the measure accepts. -/
theorem State.averaged_freqOk : (s.averaged d).freqOk = s.inWindow d.toNat := by
  have hc : (s.averaged d).fld aREF_CTRL fREF_CTRL_INH = s.fld aREF_CTRL fREF_CTRL_INH := by
    rw [State.fld, (s.averaged_within d).regs hs _ (by decide) (by decide), State.fld]
  rw [State.freqOk, State.averaged_valid hs, State.averaged_diff hs, Bool.true_and, State.inWindow, hc, State.inWindow]

theorem State.averaged_goodAvg (h : s.inWindow d.toNat = true) : (s.averaged d).clk.goodAvg = d := by
  rw [← State.averaged_freqOk hs] at h
  exact if_pos h

theorem State.absentEvent_wf : Tab.wf regReset (s.absentEvent d x).regs = true :=
  State.absentEvent_within.wf ((s.averaged_within d).wf hs)

theorem State.absentEvent_reg {a : Nat} (ha : notice a = false) (hm : a ≠ aFREQ_MON) :
    (s.absentEvent d x).reg a = s.reg a := by
  rw [State.absentEvent_within.regs ((s.averaged_within d).wf hs) _ rfl ha,
    (s.averaged_within d).regs hs _ (by simp [among, hm]) ha]

theorem State.absentEvent_mon : (s.absentEvent d x).reg aFREQ_MON = (s.averaged d).reg aFREQ_MON :=
  State.absentEvent_within.regs ((s.averaged_within d).wf hs) _ rfl (by decide)

/-- Event 20 shows where the source was not absent before, or is so for its own spread; nothing that follows takes it back. -/
theorem State.absentEvent_latched (h : s.bit aFREQ_MON fFREQ_MON_VALID = false ∨ s.freqOk = true ∨ s.departed x = true) :
    (s.absentEvent d x).Latched 20 := by
  have hc : ((!s.bit aFREQ_MON fFREQ_MON_VALID || s.freqOk) || s.departed x) = true := by
    obtain h | h | h := h <;> simp [h]
  rw [State.absentEvent, if_pos hc]
  exact State.raise_latched ((s.averaged_within d).wf hs) (by decide) rfl

end Averaged

/-! #### The obligation -/

theorem phase_of_hubRuns (h : s.hubRuns = true) : s.clk.phase ≠ .stopped := by
  intro hc
  rw [State.hubRuns, hc] at h
  exact absurd h (by decide)

/-- Every average is stored; one outside the window makes the source absent, with its event. -/
theorem freqMonAverage_leads (hs : s.Inv) (hr : s.hubRuns = true) (hl : s.laneRecovers = true) :
    Leads (.freqMonAverage d x) s (fun t => (s.inWindow d.toNat = false → t.clk.phase = s.clk.phase →
      t.bit aREF_STATUS fREF_STATUS_REC_OK = false) ∧ (s.inWindow d.toNat = false →
      (s.bit aFREQ_MON fFREQ_MON_VALID = false ∨ s.freqOk = true) → t.showsEvent 20) ∧ (t.clk.phase = s.clk.phase →
      t.fld aFREQ_MON fFREQ_MON_DIFF = d.toNat ∧ t.bit aFREQ_MON fFREQ_MON_VALID = true)) := by
  have hw := hs.regs_wf
  by_cases h : (s.averaged d).freqOk = true ∧ s.departed x = false
  · obtain ⟨hf, hd⟩ := h
    have hin : s.inWindow d.toNat = true := by rw [← State.averaged_freqOk hw, hf]
    exact ⟨_, exec_freqMonAverage_good hr hl hf hd, fun hc => by simp [hin] at hc, fun hc => by simp [hin] at hc,
      fun _ => ⟨State.averaged_diff hw, State.averaged_valid hw⟩⟩
  · have hbad : (s.averaged d).freqOk = false ∨ s.departed x = true := by
      by_contra hc
      simp only [not_or, Bool.not_eq_false, Bool.not_eq_true] at hc
      exact h hc
    have haw := State.absentEvent_wf (d := d) (x := x) hw
    have hclk : (s.absentEvent d x).clk = (s.averaged d).clk := (State.absentEvent_within).parts .clk (by decide)
    have hphase : (s.absentEvent d x).clk.phase = s.clk.phase := by
      have hm : (s.measured d).clk.phase = s.clk.phase := by simp [State.measured]
      rw [hclk]
      exact hm
    have hruns := State.recoveredLost_runs haw (by rw [hphase]; exact phase_of_hubRuns hr)
    rw [hphase] at hruns
    refine ⟨_, exec_freqMonAverage_absent hr hl hbad, fun _ hp => (hruns hp).1, fun _ hv => ?_, fun hp => ?_⟩
    · exact (State.absentEvent_latched hw (hv.imp_right .inl)).recoveredLost.showsEvent rfl
    · obtain ⟨-, hmon⟩ := hruns hp
      rw [State.absentEvent_mon hw] at hmon
      rw [State.fld, State.bit, hmon]
      exact ⟨State.averaged_diff hw, State.averaged_valid hw⟩

/-- A source that qualifies during holdover raises its event. -/
theorem refQualified_leads (hs : s.Inv) (hr : s.hubRuns = true) (hl : s.laneRecovers = true) (hf : s.freqOk = true) :
    Leads (.refQualified true) s (fun t => t.bit aREF_STATUS fREF_STATUS_REC_OK = true ∧
      (s.bit aREF_STATUS fREF_STATUS_REC_OK = false → s.bit aREF_STATUS fREF_STATUS_HOLD = true → t.showsEvent 17) ∧
      s.keepsElse t [.hw, .ev] (among [aREF_STATUS])) := by
  have hw := hs.regs_wf
  cases hrec : s.bit aREF_STATUS fREF_STATUS_REC_OK with
  | true =>
    refine ⟨s, ?_, hrec, fun h => by simp at h, (State.Within.refl s _ _).keepsElse hw⟩
    simp [exec, execRefQualified, hr, hrec]
  | false =>
    have hq : s.Within (s.setBit aREF_STATUS fREF_STATUS_REC_OK true) [.hw, .ev] (among [aREF_STATUS]) :=
      (State.Within.refl s _ _).setBit (.inl (by decide))
    have hqw := State.setBit_wf hw aREF_STATUS fREF_STATUS_REC_OK true
    have hok := State.setBit_bit_same (a := aREF_STATUS) (f := fREF_STATUS_REC_OK) (c := true) hw rfl (by decide)
    have hhold : (s.setBit aREF_STATUS fREF_STATUS_REC_OK true).bit aREF_STATUS fREF_STATUS_HOLD =
        s.bit aREF_STATUS fREF_STATUS_HOLD := State.setBit_bit_ne hw (by decide) (by decide)
    cases hh : s.bit aREF_STATUS fREF_STATUS_HOLD with
    | true =>
      have hraise := (State.Within.refl (s.setBit aREF_STATUS fREF_STATUS_REC_OK true) [.hw, .ev] fun _ => false).raise
        (e := 17) (by decide)
      refine ⟨(s.setBit aREF_STATUS fREF_STATUS_REC_OK true).raise 17, ?_, ?_, fun _ _ => ?_, (hq.raise (by decide)).keepsElse hw⟩
      · simp [exec, execRefQualified, hr, hl, hf, hrec, hhold, hh]
      · rw [State.bit, hraise.regs hqw _ rfl (by decide)]
        exact hok
      · exact (State.raise_latched hqw (by decide) rfl).showsEvent rfl
    | false =>
      refine ⟨s.setBit aREF_STATUS fREF_STATUS_REC_OK true, ?_, hok, fun _ h => by simp at h, hq.keepsElse hw⟩
      simp [exec, execRefQualified, hr, hl, hf, hrec, hhold, hh]

theorem exec_recoveredRefLoss (hr : s.hubRuns = true) (h : s.bit aREF_STATUS fREF_STATUS_REC_OK = true ∨
    s.bit aREF_STATUS fREF_STATUS_ACTIVE = true) : exec .recoveredRefLoss s = .next s.recoveredLost :=
  if_pos (by obtain h | h := h <;> simp [hr, h])

theorem exec_localOscLoss (hr : s.hubRuns = true) (ha : s.bit aREF_STATUS fREF_STATUS_ACTIVE = true)
    (hl : s.bit aREF_STATUS fREF_STATUS_LOC_OK = true) :
    exec .localOscLoss s = .next ((s.setBit aREF_STATUS fREF_STATUS_LOC_OK false).raise 18) :=
  if_pos (by simp [hr, ha, hl])

/-- The loss of the active source with a fallback. -/
theorem recoveredRefLoss_hold (hs : s.Inv) (hr : s.hubRuns = true) (ha : s.bit aREF_STATUS fREF_STATUS_ACTIVE = true)
    (hh : s.bit aREF_CTRL fREF_CTRL_HOLD_EN = true) (hl : s.bit aREF_STATUS fREF_STATUS_LOC_OK = true) :
    Leads .recoveredRefLoss s (fun t => t.bit aREF_STATUS fREF_STATUS_REC_OK = false ∧
      t.bit aREF_STATUS fREF_STATUS_ACTIVE = false ∧ t.bit aREF_STATUS fREF_STATUS_HOLD = true ∧ t.showsEvent 16 ∧
      t.clk.holdCorr = s.clk.goodAvg ∧ t.clk.sscHeld = true ∧ s.keepsElse t [.clk, .hw, .ev] (among [aREF_STATUS])) := by
  have hw := hs.regs_wf
  have hu := State.setBit_wf hw aREF_STATUS fREF_STATUS_REC_OK false
  obtain ⟨-, -, -, hrec⟩ := State.recLost_bits hw
  obtain ⟨hact, hhold, hok⟩ := State.enterHold_bits hu
  have hclk := (s.setBit aREF_STATUS fREF_STATUS_REC_OK false).enterHold_clk
  rw [State.setBit_clk] at hclk
  have hk : s.Within (s.setBit aREF_STATUS fREF_STATUS_REC_OK false) [.clk, .hw, .ev] (among [aREF_STATUS]) :=
    (State.Within.refl s _ _).setBit (.inl (by decide))
  refine ⟨_, (exec_recoveredRefLoss hr (.inr ha)).trans (congrArg _ (State.recoveredLost_hold hw ha hh hl)), hok.trans hrec, hact,
    hhold, (State.enterHold_latched hu).showsEvent rfl, ?_, ?_, (hk.trans (State.enterHold_within _)).keepsElse hw⟩
  · rw [hclk]
  · rw [hclk]

/-- An average that finds the root departed, where there is a fallback. -/
theorem freqMonAverage_departed (hs : s.Inv) (hr : s.hubRuns = true) (hl : s.laneRecovers = true) (hd : s.departed x = true)
    (ha : s.bit aREF_STATUS fREF_STATUS_ACTIVE = true) (hh : s.bit aREF_CTRL fREF_CTRL_HOLD_EN = true)
    (hloc : s.bit aREF_STATUS fREF_STATUS_LOC_OK = true) :
    Leads (.freqMonAverage d x) s (fun t => t.bit aREF_STATUS fREF_STATUS_REC_OK = false ∧
      t.bit aREF_STATUS fREF_STATUS_HOLD = true ∧ t.showsEvent 20 ∧ t.showsEvent 16) := by
  have hw := hs.regs_wf
  have haw := State.absentEvent_wf (d := d) (x := x) hw
  have hstat : (s.absentEvent d x).reg aREF_STATUS = s.reg aREF_STATUS := State.absentEvent_reg hw (by decide) (by decide)
  have hctrl : (s.absentEvent d x).reg aREF_CTRL = s.reg aREF_CTRL := State.absentEvent_reg hw (by decide) (by decide)
  have h20 : (s.absentEvent d x).recoveredLost.Latched 20 :=
    (State.absentEvent_latched hw (.inr (.inr hd))).recoveredLost
  have hlost := State.recoveredLost_hold haw (by rw [State.bit, hstat]; exact ha) (by rw [State.bit, hctrl]; exact hh)
    (by rw [State.bit, hstat]; exact hloc)
  have hu := State.setBit_wf haw aREF_STATUS fREF_STATUS_REC_OK false
  obtain ⟨-, -, -, hrec⟩ := State.recLost_bits haw
  obtain ⟨-, hhold, hok⟩ := State.enterHold_bits hu
  refine ⟨_, exec_freqMonAverage_absent hr hl (.inr hd), ?_, ?_, h20.showsEvent rfl, ?_⟩
  · rw [hlost, hok, hrec]
  · rw [hlost, hhold]
  · rw [hlost]
    exact (State.enterHold_latched hu).showsEvent rfl

/-- Settles O6: clause by clause, each occurrence by its branch. Event 20 of an average outlasts a stop of the clocks, which may
still perform a ring write, because no write clears in its own cycle what the hardware has set (`State.Latched`). -/
theorem referenceCommands : Obligations.ReferenceCommands := by
  unfold Obligations.ReferenceCommands
  intro s hs
  have hw := hs.regs_wf
  refine ⟨fun hr hl hf => ?_, fun hr => by simp [exec, execRefQualified, hr], fun m v hr hn => ?_, fun m v hr hb => ?_,
    fun hr => if_pos hr, fun hr hrec ha => ?_, fun hr ha hh hl => ?_, fun hr ha hh => ?_, fun hr ha hh hl => ?_,
    fun hr ha hl => ?_, fun d x hr hl => freqMonAverage_leads hs hr hl, fun d x hr hl hin hd => ?_,
    fun d x hr hl ha hdep hx hh hloc => ?_⟩
  · exact refQualified_leads hs hr hl hf
  · exact ⟨_, congrArg Host.Outcome.next (ringPut_wrote hr (refCtrlWrite_ok hn)), State.refStored_ctrl hw,
      State.refStored_active hw, State.refStored_hold hw, State.refStored_slew hw, (s.refStored_within v).keepsElse hw⟩
  · exact ⟨s, congrArg Host.Outcome.next (ringPut_refused hr (refCtrlWrite_refused hb)), rfl⟩
  · rw [exec_recoveredRefLoss hr (.inl hrec), State.recoveredLost_inactive hw ha]
  · exact recoveredRefLoss_hold hs hr ha hh hl
  · refine ⟨_, exec_recoveredRefLoss hr (.inr ha), ?_⟩
    rw [State.recoveredLost_noHold hw ha hh]
    exact State.clockStop_record (by decide) (by decide)
  · refine ⟨_, exec_recoveredRefLoss hr (.inr ha), ?_⟩
    rw [State.recoveredLost_noLocal hw ha hh hl]
    exact State.clockStop_record (by decide) (by decide)
  · have hu := State.setBit_wf hw aREF_STATUS fREF_STATUS_LOC_OK false
    have hraise := (State.Within.refl (s.setBit aREF_STATUS fREF_STATUS_LOC_OK false) [.hw, .ev] fun _ => false).raise
      (e := 18) (by decide)
    refine ⟨_, exec_localOscLoss hr ha hl, ?_, (State.raise_latched hu (by decide) rfl).showsEvent rfl,
      (((State.Within.refl s _ _).setBit (.inl (by decide))).raise (by decide)).keepsElse hw⟩
    rw [State.bit, hraise.regs hu _ rfl (by decide)]
    exact State.setBit_bit_same hw rfl (by decide)
  · have hdep : s.departed x = false := by
      obtain h | h | ⟨hx, hseen⟩ := hd
      · simp [State.departed, State.spreads, h]
      · simp [State.departed, State.spreads, h]
      · simp [State.departed, hx, hseen]
    exact ⟨_, exec_freqMonAverage_good hr hl (by rw [State.averaged_freqOk hw, hin]) hdep, State.averaged_diff hw,
      State.averaged_valid hw, State.averaged_goodAvg hw hin, (s.averaged_within d).keepsElse hw⟩
  · refine freqMonAverage_departed hs hr hl ?_ ha hh hloc
    obtain hx | hx := hx <;> simp [State.departed, State.spreads, ha, hdep, hx]

end Sys2Proof.Machine
end

section
/-! ### The canonical form of every table, and the bounds of the two queues (R64, R381)

`State.Canon` says what the invariant says, as a structure with a name for each table, stated of the tables themselves: an update
of a field that holds no table keeps it as it stands, and one that stores in a table replaces that component alone. -/

namespace Sys2Proof.Machine

/-- Every table in canonical form, and the two queues within their places. -/
structure Tables (mem : List Host.Cell) (regs : Tab W32) (dieReset : Tab (Option Nat)) (share1 : Tab Bool) (nis : Tab Ni)
    (lms : Tab Lm) (ports : Tab Port) (lanes : Tab Lane) (gws : Tab Gw) (cores : Tab Thrumas) (qdrs : Tab Qdr)
    (qdrSvc : Tab (BitVec 64)) (dsets : Tab Ds) (store : Tab (BitVec 128)) (fromTick untilTick : Tab Nat) (log : List SfRec)
    (pend coll : Tab Bool) (outs : Tab OutPin) (bridgeQ : List EvMsg) (usedOrd usedRsv : Tab Nat) (charges : Tab (List Bool))
    (lastOut lastIn : Tab Nat) (fclkAct : Tab W32) (fclkStart fclkSet : Tab Nat) (frames : Tab (BitVec 4096))
    (checks : Tab (BitVec 14)) (map : Tab (BitVec 128)) (holds : Tab RegionHold) (startAt stage : Tab Nat)
    (upsets : Tab (List UpsetRec)) (capture : Tab Capture) (dma : Tab Dma) (last held : Tab Nat) (wake : Tab (Nat × Bool))
    (blocks : Tab Ab) (ics : Tab Ic) (afOld : Tab W32) (afSwitch : Tab Nat) (dieIr : Tab (BitVec 8)) (boundary : Tab Nat)
    (bists : Tab DieBist) : Prop where
  mem : Memory.wf mem = true
  regs : Tab.wf regReset regs = true
  dieReset : Tab.wf (fun _ => none) dieReset = true
  share1 : Tab.wf (fun _ => false) share1 = true
  nis : Tab.wf (fun _ => Ni.empty) nis = true
  lms : Tab.wf (fun _ => Lm.empty) lms = true
  ports : Tab.wf (fun _ => Port.empty) ports = true
  lanes : Tab.wf (fun _ => Lane.empty) lanes = true
  gws : Tab.wf (fun _ => Gw.empty) gws = true
  cores : Tab.wf (fun _ => Thrumas.empty) cores = true
  qdrs : Tab.wf (fun _ => Qdr.empty) qdrs = true
  qdrSvc : Tab.wf (fun _ => 0#64) qdrSvc = true
  dsets : Tab.wf (fun _ => Ds.empty) dsets = true
  store : Tab.wf psDefault store = true
  fromTick : Tab.wf (fun _ => 2 ^ 64) fromTick = true
  untilTick : Tab.wf (fun _ => 2 ^ 64) untilTick = true
  log : log.length ≤ 16
  pend : Tab.wf (fun _ => false) pend = true
  coll : Tab.wf (fun _ => false) coll = true
  outs : Tab.wf (fun _ => OutPin.idle) outs = true
  bridgeQ : bridgeQ.length ≤ 32
  usedOrd : Tab.wf (fun _ => 0) usedOrd = true
  usedRsv : Tab.wf (fun _ => 0) usedRsv = true
  charges : Tab.wf (fun _ => []) charges = true
  lastOut : Tab.wf (fun _ => 0) lastOut = true
  lastIn : Tab.wf (fun _ => 5) lastIn = true
  fclkAct : Tab.wf (fun _ => 0#32) fclkAct = true
  fclkStart : Tab.wf (fun _ => 0) fclkStart = true
  fclkSet : Tab.wf (fun _ => 0) fclkSet = true
  frames : Tab.wf (fun _ => 0#4096) frames = true
  checks : Tab.wf (fun _ => 0#14) checks = true
  map : Tab.wf (fun _ => BitVec.allOnes 128) map = true
  holds : Tab.wf (fun _ => (⟨0, false, none, false⟩ : RegionHold)) holds = true
  startAt : Tab.wf (fun _ => 0) startAt = true
  stage : Tab.wf (fun _ => 0) stage = true
  upsets : Tab.wf (fun _ => []) upsets = true
  capture : Tab.wf (fun _ => Capture.none) capture = true
  dma : Tab.wf (fun _ => Dma.empty) dma = true
  last : Tab.wf (fun _ => 0) last = true
  held : Tab.wf (fun _ => 0) held = true
  wake : Tab.wf (fun _ => (0, false)) wake = true
  blocks : Tab.wf (fun _ => Ab.empty) blocks = true
  ics : Tab.wf (fun _ => Ic.empty) ics = true
  afOld : Tab.wf (fun _ => 0#32) afOld = true
  afSwitch : Tab.wf (fun _ => 0) afSwitch = true
  dieIr : Tab.wf (fun _ => 1#8) dieIr = true
  boundary : Tab.wf (fun _ => 0) boundary = true
  bists : Tab.wf (fun _ => DieBist.empty) bists = true

/-- The invariant of the state, component by component. -/
def State.Canon (s : State) : Prop :=
  Tables s.mem s.regs s.dieReset s.share1 s.nis s.lms s.ports s.lanes s.gws s.cores s.qdrs s.qdrSvc s.dsets s.pat.store
    s.pat.fromTick s.pat.untilTick s.pat.log s.ev.pend s.ev.coll s.ev.outs s.ev.bridgeQ s.be.usedOrd s.be.usedRsv s.be.charges
    s.be.lastOut s.be.lastIn s.clk.fclkAct s.clk.fclkStart s.clk.fclkSet s.cfg.frames s.cfg.checks s.cfg.map s.cfg.holds
    s.cfg.startAt s.cfg.stage s.cfg.upsets s.cfg.capture s.banks.dma s.banks.last s.banks.held s.banks.wake s.ana.blocks
    s.ana.ics s.ana.afOld s.ana.afSwitch s.tap.dieIr s.tap.boundary s.tap.bists

theorem State.canon_iff (s : State) : s.Canon ↔ s.Inv := by
  constructor
  · intro h
    refine ⟨?_, h.log, h.bridgeQ⟩
    simp only [State.tablesWf, Bool.and_eq_true, h.mem, h.regs, h.dieReset, h.share1, h.nis, h.lms, h.ports, h.lanes, h.gws,
      h.cores, h.qdrs, h.qdrSvc, h.dsets, h.store, h.fromTick, h.untilTick, h.pend, h.coll, h.outs, h.usedOrd, h.usedRsv,
      h.charges, h.lastOut, h.lastIn, h.fclkAct, h.fclkStart, h.fclkSet, h.frames, h.checks, h.map, h.holds, h.startAt, h.stage,
      h.upsets, h.capture, h.dma, h.last, h.held, h.wake, h.blocks, h.ics, h.afOld, h.afSwitch, h.dieIr, h.boundary, h.bists,
      and_self]
  · rintro ⟨h, hlog, hq⟩
    simp only [State.tablesWf, Bool.and_eq_true, and_assoc] at h
    obtain ⟨mem, regs, dieReset, share1, nis, lms, ports, lanes, gws, cores, qdrs, qdrSvc, dsets, store, pend, coll, outs,
      fromTick, untilTick, usedOrd, usedRsv, charges, lastOut, lastIn, fclkAct, fclkStart, fclkSet, frames, checks, map, holds,
      startAt, stage, upsets, capture, dma, last, held, wake, blocks, ics, afOld, afSwitch, dieIr, boundary, bists⟩ := h
    exact ⟨mem, regs, dieReset, share1, nis, lms, ports, lanes, gws, cores, qdrs, qdrSvc, dsets, store, fromTick, untilTick, hlog,
      pend, coll, outs, hq, usedOrd, usedRsv, charges, lastOut, lastIn, fclkAct, fclkStart, fclkSet, frames, checks, map, holds,
      startAt, stage, upsets, capture, dma, last, held, wake, blocks, ics, afOld, afSwitch, dieIr, boundary, bists⟩

namespace State.Canon
variable {s t : State} {a : Nat} {f : Fld} {v : W32}

theorem ite {p : Prop} [Decidable p] (hs : s.Canon) (ht : t.Canon) : (if p then s else t).Canon := by
  split
  · exact hs
  · exact ht

theorem foldl {α : Type} {g : State → α → State} {l : List α} (h : s.Canon) (hg : ∀ u x, State.Canon u → (g u x).Canon) :
    (l.foldl g s).Canon := by
  induction l generalizing s with
  | nil => exact h
  | cons x r ih => exact ih (hg s x h)

theorem setByte (h : s.Canon) {v : Byte} : (s.setByte a v).Canon := { h with mem := tput_wf h.mem _ _ }
theorem setReg (h : s.Canon) : (s.setReg a v).Canon := { h with regs := tput_wf h.regs _ _ }
theorem setFld (h : s.Canon) {n : Nat} : (s.setFld a f n).Canon := h.setReg
theorem hwMark (h : s.Canon) : (s.hwMark a v).Canon := h
theorem setBit (h : s.Canon) {b : Bool} : (s.setBit a f b).Canon := ite h.setFld.hwMark h.setFld
theorem satInc (h : s.Canon) : (s.satInc a f).Canon := hwMark (ite h.setFld h)
theorem setPending (h : s.Canon) {n e : Nat} {b : Bool} : (s.setPending n e b).Canon := { h with pend := tput_wf h.pend _ _ }
theorem setOutPin (h : s.Canon) {i : Nat} {p : OutPin} : (s.setOutPin i p).Canon := { h with outs := tput_wf h.outs _ _ }
theorem outOccur (h : s.Canon) {i : Nat} : (s.outOccur i).Canon := by
  fun_cases State.outOccur s i <;> grind [setOutPin]
theorem raiseCore (h : s.Canon) {e : Nat} : (s.raiseCore e).Canon := by
  unfold State.raiseCore
  extract_lets t r cores u
  have hu : u.Canon := foldl h.setBit fun _ _ hv => ite hv.setPending hv
  exact ite hu.outOccur hu
theorem queueMsg (h : s.Canon) {e : Nat} : (s.queueMsg e).Canon := by
  fun_cases State.queueMsg s e
  case case2 m hm hq => exact { h with bridgeQ := by simpa using hq }
  all_goals grind [satInc, raiseCore]
theorem raise (h : s.Canon) {e : Nat} : (s.raise e).Canon := ite { h with coll := tput_wf h.coll _ _ } h.raiseCore.queueMsg
theorem flagRaise (h : s.Canon) {e : Nat} : (s.flagRaise a f e).Canon := ite h.hwMark h.setBit.raise

end State.Canon

/-- Storing in a table at the places that a test picks keeps its canonical form. -/
theorem foldl_tput_wf {α : Type} [DecidableEq α] {d : Nat → α} {p : Nat → Bool} {v : Nat → α} {l : List Nat} {tb : Tab α}
    (h : Tab.wf d tb = true) : Tab.wf d (l.foldl (fun t x => if p x then tput d t x (v x) else t) tb) = true := by
  induction l generalizing tb with
  | nil => exact h
  | cons x r ih =>
    rw [List.foldl_cons]
    split
    · exact ih (tput_wf h _ _)
    · exact ih h

/-- The next state that a command answers, if it answers one, meets the invariant. -/
def CanonNext (o : Host.Outcome State Fault Refusal) : Prop := ∀ t, o = .next t → t.Canon

theorem CanonNext.next {t : State} (h : t.Canon) : CanonNext (.next t) := by
  rintro _ ⟨⟩
  exact h
theorem CanonNext.ite {p : Prop} [Decidable p] {a b : Host.Outcome State Fault Refusal} (ha : CanonNext a) (hb : CanonNext b) :
    CanonNext (if p then a else b) := by
  split
  · exact ha
  · exact hb

theorem canon_ite {α : Type} {p : Prop} [Decidable p] {a b : State × α} (ha : a.1.Canon) (hb : b.1.Canon) :
    (if p then a else b).1.Canon := by
  split
  · exact ha
  · exact hb
theorem canon_ite_snd {α : Type} {p : Prop} [Decidable p] {a b : α × State} (ha : a.2.Canon) (hb : b.2.Canon) :
    (if p then a else b).2.Canon := by
  split
  · exact ha
  · exact hb
theorem canon_fst {α : Type} {p : State × α} {t : State} {x : α} (h : p = (t, x)) (hp : p.1.Canon) : t.Canon := by
  rwa [h] at hp
theorem canon_snd {α : Type} {p : α × State} {t : State} {x : α} (h : p = (x, t)) (hp : p.2.Canon) : t.Canon := by
  rwa [h] at hp

namespace State.Canon


/-! #### Operations of `Machine/Ops` -/

theorem setBytes {s : State} {a : Nat} {a' : List Byte} (h : s.Canon) : (s.setBytes a a').Canon := by
  fun_cases State.setBytes s a a'
  case case1 => exact h
  case case2 => exact h.setByte.setBytes

theorem plainWrite {s : State} {a : Nat} {v : W32} (h : s.Canon) : (s.plainWrite a v).Canon := by
  fun_cases State.plainWrite s a v
  case case1 => exact h.setReg
  case case2 => exact h

theorem setReg64 {s : State} {lo hi n : Nat} (h : s.Canon) : (s.setReg64 lo hi n).Canon := h.setReg.setReg
theorem resetRegs {s : State} {p : Nat → Bool} (h : s.Canon) : (s.resetRegs p).Canon :=
  { h with regs := tkeep_wf h.regs fun a => !p a }
theorem fresh {w : Nat} {s : State} (h : s.Canon) : (s.fresh w).2.Canon := h
theorem freshB {s : State} (h : s.Canon) : s.freshB.2.Canon := h
theorem setDom {s : State} {dom v : Nat} (h : s.Canon) : (s.setDom dom v).Canon := h.setFld
theorem clearPending {s : State} {n e : Nat} (h : s.Canon) : (s.clearPending n e).Canon := ite h h.setPending
theorem raiseHub {s : State} {e : Nat} (h : s.Canon) : (s.raiseHub e).Canon := h.raiseCore.queueMsg

theorem setMaster {s : State} {m : Rm} {r : RingMaster} (h : s.Canon) : (s.setMaster m r).Canon := by
  fun_cases State.setMaster s m r
  all_goals exact h

theorem wrote_canon {s : State} (h : s.Canon) : (wrote s).1.Canon := h
theorem refuse_canon {s : State} (h : s.Canon) : (refuse s).1.Canon := h

theorem gated_canon {r : RingReq} {f : State → Answer} {s : State} (h : s.Canon) (hf : ∀ t, State.Canon t → ((f t).1).Canon) :
    (gated r f s).1.Canon := by
  fun_cases gated r f s
  case case1 => exact h
  case case3 => exact refuse_canon h
  all_goals exact hf _ h

theorem ringGrant_canon {m : Rm} {r : RingMaster} {f : State → Answer} {s : State} (h : s.Canon) (hf : ∀ t, State.Canon t → ((f
    t).1).Canon) :
    (ringGrant m r f s).Canon := ite h.setMaster (setMaster (gated_canon h hf))

theorem ringDo_canon {m : Rm} {r : RingReq} {f : State → Answer} {s : State} (h : s.Canon) (hf : ∀ t, State.Canon t → ((f
    t).1).Canon) :
    (ringDo m r f s).Canon := ite h (ite h.setMaster (ite h.setMaster (ringGrant_canon h hf)))

theorem ringPut_canon {m : Rm} {a : Nat} {v : W32} {f : State → Answer} {s : State} (h : s.Canon) (hf : ∀ t, State.Canon t → ((f
    t).1).Canon) :
    (ringPut m a v f s).Canon := ringDo_canon h hf

/-! #### Operations of `Machine/Grid` -/

theorem setNi {s : State} {d n : Nat} {x : Ni} (h : s.Canon) : (s.setNi d n x).Canon := { h with nis := tput_wf h.nis _ _ }
theorem setPs {s : State} {bank d n tsel idx : Nat} {v : BitVec 128} (h : s.Canon) : (s.setPs bank d n tsel idx v).Canon :=
  { h with store := tput_wf h.store _ _ }

/-! #### Operations of `Machine/Breach` -/

theorem logFault {s : State} {kind flowA flowB die router port : Nat} (h : s.Canon) :
    (s.logFault kind flowA flowB die router port).Canon := by
  fun_cases State.logFault s kind flowA flowB die router port
  case case1 r hlt =>
    refine raise ?_
    exact { h with log := (List.length_append (as := s.pat.log) (bs := [r])).trans_le hlt }
  case case2 => exact h.satInc
  case case3 t _ =>
    have ht : t.Canon := h.satInc
    clear_value t
    exact raise (s := { t with pat := { t.pat with logOvf := true } }) ht

theorem popFault {s : State} (h : s.Canon) : s.popFault.Canon := by
  fun_cases State.popFault s
  case case1 => exact h
  case case2 hr => exact { h with log := by have := h.log; simp only [hr, List.length_cons] at this; dsimp only; omega }

theorem setLm {s : State} {b : Nat} {x : Lm} (h : s.Canon) : (s.setLm b x).Canon := { h with lms := tput_wf h.lms _ _ }
theorem setPort {s : State} {p : Nat} {x : Port} (h : s.Canon) : (s.setPort p x).Canon :=
  { h with ports := tput_wf h.ports _ _ }
theorem syncBreach {s : State} (h : s.Canon) : s.syncBreach.Canon :=
  ite h (ite (raise (ite h.setReg.raise h.setReg)) (ite h.setReg.raise h.setReg))

/-! #### Operations of `Machine/Pattern` -/

theorem syncShadowOk {s : State} (h : s.Canon) : s.syncShadowOk.Canon := h.setFld
theorem setOk {s : State} {bank d : Nat} {b : Bool} (h : s.Canon) : (s.setOk bank d b).Canon := syncShadowOk h

theorem patCtrlWrite_canon {v : W32} {s : State} (h : s.Canon) : (patCtrlWrite v s).1.Canon := by
  fun_cases patCtrlWrite v s
  case case1 => exact refuse_canon h
  case case2 => exact wrote_canon h.setFld
  case case4 | case6 | case8 => exact wrote_canon h.setFld.setFld
  case case9 => exact wrote_canon h
  all_goals exact refuse_canon h.setFld.raise

theorem patAtWrite_canon {a : Nat} {v : W32} {s : State} (h : s.Canon) : (patAtWrite a v s).1.Canon :=
  canon_ite (refuse_canon h) (wrote_canon h.plainWrite)
theorem shadowHeaderWrite_canon {a : Nat} {v : W32} {s : State} (h : s.Canon) : (shadowHeaderWrite a v s).1.Canon :=
  canon_ite (refuse_canon h) (wrote_canon h.plainWrite)
theorem execPatternStart_canon {m : Rm} {s : State} (h : s.Canon) : CanonNext (execPatternStart m s) :=
  .next (ringPut_canon h fun _ hu => patCtrlWrite_canon hu)
theorem execPatternSwap_canon {m : Rm} {s : State} (h : s.Canon) : CanonNext (execPatternSwap m s) :=
  .next (ringPut_canon h fun _ hu => patCtrlWrite_canon hu)
theorem execPatternStop_canon {m : Rm} {s : State} (h : s.Canon) : CanonNext (execPatternStop m s) :=
  .next (ringPut_canon h fun _ hu => patCtrlWrite_canon hu)
theorem execPatternCancel_canon {m : Rm} {s : State} (h : s.Canon) : CanonNext (execPatternCancel m s) :=
  .next (ringPut_canon h fun _ hu => patCtrlWrite_canon hu)
theorem swapRegs {s : State} {a b : Nat} (h : s.Canon) : (s.swapRegs a b).Canon := h.setReg.setReg
theorem swapHeaders {s : State} (h : s.Canon) : s.swapHeaders.Canon := foldl h.swapRegs.swapRegs fun _ _ hu => hu.swapRegs

theorem startTail {s : State} {stop : Bool} {old p w : Nat} (h : s.Canon) : (s.startTail stop old p w).Canon := by
  fun_cases State.startTail s stop old p w
  case case1 t _ _ => exact raise (s := t) h
  case case2 => exact h
  case case3 t _ => exact setBit (s := t) h

theorem takeAction {s : State} (h : s.Canon) : s.takeAction.Canon := by
  have hold : ∀ (u : State) (old w : Nat), u.Canon →
      State.Canon { u with pat := { u.pat with untilTick := tput (fun _ => 2 ^ 64) u.pat.untilTick old w } } :=
    fun _ _ _ hu => { hu with untilTick := tput_wf hu.untilTick _ _ }
  unfold State.takeAction
  extract_lets act w old p s0 stopOld new s1 p2 s2 joined left p3 s3 s4 s5 s6
  have h0 : s0.Canon := h.setFld
  clear_value s0
  have h1 : s1.Canon := ite (hold _ _ _ h0) h0
  clear_value s1
  have h2 : s2.Canon := { h1 with fromTick := tput_wf h1.fromTick _ _, untilTick := tput_wf h1.untilTick _ _ }
  clear_value s2
  have h3 : s3.Canon := h2
  have h5 : s5.Canon := h3.setFld.swapHeaders.setBit.syncShadowOk
  clear_value s5
  exact ite (hold _ _ _ h0.setBit).startTail.syncBreach (ite h5.startTail.raise h5.raise).syncBreach

theorem execPatternActionTick_canon {s : State} (h : s.Canon) : CanonNext (execPatternActionTick s) :=
  .ite (.next h.takeAction) (.next h)
theorem execTailEnd_canon {s : State} (h : s.Canon) : CanonNext (execTailEnd s) :=
  .ite (.next (ite h.setBit.raise.syncBreach h.setBit)) (.next h)
theorem execSfPop_canon {m : Rm} {v : W32} {s : State} (h : s.Canon) : CanonNext (execSfPop m v s) :=
  .next (ringPut_canon h fun _ hu => wrote_canon hu.popFault)
theorem psAdvance {s : State} {d n : Nat} (h : s.Canon) : (s.psAdvance d n).Canon := ite h.setFld h

theorem psDataWrite_canon {d n k : Nat} {v : W32} {s : State} (h : s.Canon) : (psDataWrite d n k v s).1.Canon :=
  canon_ite h (canon_ite (refuse_canon h) (canon_ite (wrote_canon h.setNi) (canon_ite (wrote_canon h.setPs.psAdvance) (canon_ite
    (refuse_canon h) (wrote_canon h.setPs.setOk.setBit.psAdvance)))))

theorem psDataRead_canon {m : Rm} {d n k : Nat} {s : State} (h : s.Canon) : (psDataRead m d n k s).1.Canon :=
  canon_ite h (ite h.psAdvance h)
theorem execPatternTableWrite_canon {m : Rm} {i : NiId} {v : W32} {s : State} (h : s.Canon) :
    CanonNext (execPatternTableWrite m i v s) := .ite (.next (ringPut_canon h fun _ hu => psDataWrite_canon hu)) (.next h)
theorem execPsDataRead_canon {m : Rm} {i : NiId} {word : Fin 4} {s : State} (h : s.Canon) :
    CanonNext (execPsDataRead m i word s) := .ite (.next (ringDo_canon h fun _ hu => psDataRead_canon hu)) (.next h)

theorem writeOuts_some {s t : State} {d flow : Nat} {outs : List (Nat × Nat)} (h : s.Canon) (hw : s.writeOuts d flow outs = some
    t) :
    t.Canon := by
  unfold State.writeOuts at hw
  extract_lets twice at hw
  split at hw
  · cases hw
    exact foldl h fun _ _ hu => hu.setPs
  · cases hw

theorem secondPass {d : Nat} {a : List (Nat × Nat × Nat × BitVec 128)} {a' : State} (h : a'.Canon) :
    (a'.secondPass d a).1.Canon := by
  fun_induction State.secondPass d a a'
  case case2 ih => exact ih h
  case case5 hw ih => exact ih (writeOuts_some h hw)
  all_goals exact h

theorem clearFlows {s : State} {d : Nat} (h : s.Canon) : (s.clearFlows d).Canon :=
  { h with store := tkeep_wf h.store fun k => !(k / (8192 * 16 * 64) == s.shBank * 8 + d && k / 8192 % 16 == 2) }
theorem commitWrite_canon {d : Nat} {crc : W32} {s : State} (h : s.Canon) : (commitWrite d crc s).1.Canon :=
  canon_ite (refuse_canon h) (wrote_canon (setOk (setReg h)))
theorem execCommitStart_canon {m : Rm} {d : Fin 7} {crc : W32} {s : State} (h : s.Canon) :
    CanonNext (execCommitStart m d crc s) := .next (ringPut_canon h fun _ hu => commitWrite_canon hu)

theorem endCommit {s : State} {d : Nat} {crc : W32} (h : s.Canon) : (s.endCommit d crc).Canon := by
  fun_cases State.endCommit s d crc
  case case3 he => exact (canon_fst he (secondPass (clearFlows h))).setReg
  case case4 he => exact ((canon_fst he (secondPass (clearFlows h))).setReg).setOk
  all_goals exact setReg h

theorem execCommitEnd_canon {d : Fin 7} {s : State} (h : s.Canon) : CanonNext (execCommitEnd d s) := by
  fun_cases execCommitEnd d s
  case case1 => exact .next h.endCommit
  all_goals exact .next h

theorem abandonCommit {s : State} {d : Nat} (h : s.Canon) : (s.abandonCommit d).Canon := ite (setOk (setReg h)) h

/-! #### Operations of `Machine/Places` -/

theorem setHold {s : State} {d n : Nat} {x : RegionHold} (h : s.Canon) : (s.setHold d n x).Canon :=
  { h with holds := tput_wf h.holds _ _ }

/-! #### Operations of `Machine/Interface` -/

theorem niErr {s : State} {d n : Nat} {f : Fld} (h : s.Canon) : (s.niErr d n f).Canon := h.flagRaise
theorem beFlag {s : State} {d n : Nat} {f : Fld} (h : s.Canon) : (s.beFlag d n f).Canon := h.flagRaise
theorem fifoLevel {s : State} {d n k old : Nat} (h : s.Canon) : (s.fifoLevel d n k old).Canon := ite h.setBit.raise h
theorem fifoPush {s : State} {d n k : Nat} {fl : List FifoFlit} (h : s.Canon) : (s.fifoPush d n k fl).Canon := h.setNi.fifoLevel
theorem unseen {s : State} {weave : Bool} {l : List Nat} (h : s.Canon) : (s.unseen weave l).2.Canon := canon_ite_snd h h

theorem fifoCross {s : State} {d n : Nat} (h : s.Canon) : (s.fifoCross d n).Canon := by
  refine foldl h fun u k hu => ?_
  extract_lets x p niReads
  have hw : (u.unseen niReads p.unseenW).2.Canon := hu.unseen
  have hr := hw.unseen (weave := !niReads) (l := p.unseenR)
  exact ite hr hr.setNi.fifoLevel

theorem execFifoWrite_canon {i : NiId} {k : Fin 4} {flit : BitVec 256} {last : Bool} {s : State} (h : s.Canon) :
    CanonNext (execFifoWrite i k flit last s) := .ite (.next h) (.ite (.next h.niErr) (.next h.fifoPush.setNi))

theorem execFifoRead_canon {i : NiId} {k : Fin 4} {s : State} (h : s.Canon) : CanonNext (execFifoRead i k s) := by
  fun_cases execFifoRead i k s
  case case1 => exact .next h
  all_goals exact .next h.setNi

theorem fifoFlushWrite_canon {d n : Nat} {v : W32} {s : State} (h : s.Canon) : (fifoFlushWrite d n v s).1.Canon :=
  wrote_canon h.setNi
theorem execFifoFlush_canon {m : Rm} {i : NiId} {mask : BitVec 4} {s : State} (h : s.Canon) :
    CanonNext (execFifoFlush m i mask s) := .ite (.next (ringPut_canon h fun _ hu => fifoFlushWrite_canon hu)) (.next h)
theorem execFlushBoundary_canon {i : NiId} {k : Fin 4} {s : State} (h : s.Canon) : CanonNext (execFlushBoundary i k s) :=
  .ite (.next h.setNi) (.next h)
theorem stageOne {s : State} {d n : Nat} {f : BitVec 256} (h : s.Canon) : (s.stageOne d n f).Canon :=
  ite h.setNi (ite h.niErr h.setNi)
theorem execFlitStageWrite_canon {i : NiId} {flits : List (BitVec 256)} {s : State} (h : s.Canon) :
    CanonNext (execFlitStageWrite i flits s) := .ite (.next (foldl h fun _ _ hu => hu.stageOne)) (.next h)
theorem egressPush {s : State} {d n : Nat} {e : Egr} (h : s.Canon) : (s.egressPush d n e).Canon := ite h.niErr h.setNi
theorem execEgressPresent_canon {i : NiId} {s : State} (h : s.Canon) : CanonNext (execEgressPresent i s) :=
  .ite (.ite (.next h) (.next h.setNi)) (.next h)

/-! #### Operations of `Machine/PortSend` -/

theorem sendPos {s : State} {p : Nat} {x : PortPos} {key : Nat} (h : s.Canon) : (s.sendPos p x key).Canon := h.setPort

/-! #### Operations of `Machine/BestEffort` -/

theorem dropItem {s : State} {x : BeItem} (h : s.Canon) : (s.dropItem x).Canon := h
theorem putItem {s : State} {x y : BeItem} (h : s.Canon) : (s.putItem x y).Canon := h
theorem addItem {s : State} {x : BeItem} (h : s.Canon) : (s.addItem x).Canon := h

theorem charge {s : State} {d n inp vc ord rsv : Nat} {edge : Bool} (h : s.Canon) :
    (s.charge d n inp vc ord rsv edge).Canon := by
  fun_cases State.charge s d n inp vc ord rsv edge
  exact { h with
    usedOrd := tput_wf h.usedOrd _ _
    usedRsv := tput_wf h.usedRsv _ _
    charges := by
      dsimp only
      split
      · exact tput_wf h.charges _ _
      · exact h.charges }

theorem freePlaces {s : State} {x : BeItem} {i m : Nat} (h : s.Canon) : (s.freePlaces x i m).Canon := by
  fun_cases State.freePlaces s x i m
  case case1 => exact setPort ({ h with usedOrd := tput_wf h.usedOrd _ _, usedRsv := tput_wf h.usedRsv _ _ })
  case case3 => exact foldl h fun _ _ hu => hu
  all_goals exact h

theorem freeItem {s : State} {x : BeItem} (h : s.Canon) : (s.freeItem x).Canon := h.freePlaces.dropItem
theorem useCredit {s : State} {c : CreditDue} (h : s.Canon) : (s.useCredit c).Canon :=
  { h with usedOrd := tput_wf h.usedOrd _ _, usedRsv := tput_wf h.usedRsv _ _, charges := tput_wf h.charges _ _ }
theorem execCreditReturn_canon {i : NiId} {s : State} (h : s.Canon) : CanonNext (execCreditReturn i s) :=
  .next (foldl h fun _ _ hu => hu.useCredit)
theorem injectFrom {s : State} {d n : Nat} {p : Packet} {own : Nat} {port : Option Nat} (h : s.Canon) :
    (s.injectFrom d n p own port).Canon := h.addItem
theorem inject {s : State} {d n : Nat} {p : Packet} {own : Nat} (h : s.Canon) : (s.inject d n p own).Canon := h.injectFrom

theorem respond {s : State} {d n : Nat} {q : BitVec 256} {own status : Nat} {bs : List Byte} (h : s.Canon) :
    (s.respond d n q own status bs).Canon := by
  fun_cases State.respond s d n q own status bs
  case case1 => exact h.niErr
  case case2 => exact h
  case case3 => exact h.inject

theorem deliverRsp {s : State} {d n : Nat} {o : Outst} {p : Packet} (h : s.Canon) : (s.deliverRsp d n o p).Canon := by
  fun_cases State.deliverRsp s d n o p
  case case1 => exact h.fifoPush
  all_goals exact h

theorem release {s : State} {d n tag : Nat} (h : s.Canon) : (s.release d n tag).Canon := by
  fun_cases State.release s d n tag
  case case1 => exact h
  case case2 => exact h.setNi

theorem admitPkt {s : State} {d n : Nat} {p : Packet} {master : Nat} {client : Option Origin} (h : s.Canon) :
    (s.admitPkt d n p master client).Canon := by
  fun_cases State.admitPkt s d n p master client
  case case1 => exact h.inject
  case case2 => exact h.niErr
  case case3 => exact h
  case case4 => exact h.deliverRsp.beFlag
  case case5 => exact h.setNi
  case case6 => exact h.setNi.inject
  case case7 => exact h.deliverRsp.niErr
  case case8 => exact h.deliverRsp

theorem toTreq {s : State} {d n : Nat} {p : Packet} (h : s.Canon) : (s.toTreq d n p).Canon := fifoPush (ite h h.setNi)

theorem issueRsp {s : State} {d n : Nat} {h' : BitVec 256} {r : List (BitVec 256)} (h : s.Canon) :
    (s.issueRsp d n h' r).Canon := by
  fun_cases State.issueRsp s d n h' r
  case case1 => exact h
  case case2 => exact h.setNi.beFlag
  case case3 => exact h.setNi.release.fifoPush
  case case4 => exact h.setNi.inject
  case case5 => exact h.setNi.niErr
  case case6 => exact h.setNi

theorem loopReq {s : State} {d n : Nat} {p : Packet} (h : s.Canon) : (s.loopReq d n p).Canon :=
  ite h.toTreq (ite h.deliverRsp.beFlag h.setNi.toTreq)

theorem execBeRequestIssue_canon {i : NiId} {s : State} (h : s.Canon) : CanonNext (execBeRequestIssue i s) := by
  fun_cases execBeRequestIssue i s
  case case2 => exact .next h.setNi.issueRsp
  case case5 => exact .next h.setNi.loopReq
  case case7 | case9 => exact .next h.setNi.admitPkt
  all_goals exact .next h

theorem useOut {s : State} {d n out : Nat} (h : s.Canon) : (s.useOut d n out).Canon :=
  { h with lastOut := tput_wf h.lastOut _ _ }

theorem crossLink {s : State} {v : Option Via} {t : Nat} (h : s.Canon) : (s.crossLink v t).2.Canon := by
  fun_cases State.crossLink s v t
  case case2 he => exact (canon_snd he h.setLm.fresh)
  all_goals exact h

theorem moveFlit {s : State} {x : BeItem} {out : Nat} (h : s.Canon) : (s.moveFlit x out).Canon := by
  fun_cases State.moveFlit s x out
  all_goals grind [useOut, freePlaces, crossLink, putItem, dropItem]

theorem startHop {s : State} {x : BeItem} {out ord rsv : Nat} (h : s.Canon) : (s.startHop x out ord rsv).Canon :=
  h.charge.addItem.moveFlit
theorem startPort {s : State} {p : Nat} {x : BeItem} (h : s.Canon) : (s.startPort p x).Canon := h.setPort.putItem

theorem portBe {s : State} {p : Nat} (h : s.Canon) : (s.portBe p).Canon := by
  fun_cases State.portBe s p
  case case3 => exact h.setPort.putItem.sendPos
  case case4 => exact h.freePlaces.sendPos.setPort.dropItem
  case case5 => exact h.freePlaces.sendPos.putItem
  all_goals exact h

theorem portCut {s : State} {p : Nat} (h : s.Canon) : (s.portCut p).Canon := foldl h fun _ _ hu => ite hu.freeItem hu.putItem

theorem execBeHop_canon {i : NiId} {out : Fin 6} {vc : Fin 2} {s : State} (h : s.Canon) : CanonNext (execBeHop i out vc s) := by
  fun_cases execBeHop i out vc s
  case case3 => exact .next (ite h.freeItem.respond h.freeItem)
  case case4 => exact .next ({ h.startPort with lastIn := tput_wf h.startPort.lastIn _ _ })
  case case9 => exact .next ({ h.startHop with lastIn := tput_wf h.startHop.lastIn _ _ })
  all_goals exact .next h

theorem stageHop {s : State} {n vc : Nat} (h : s.Canon) : (s.stageHop n vc).Canon := by
  fun_cases State.stageHop s n vc
  case case4 => exact h.startHop
  all_goals exact h

theorem beTick {s : State} (h : s.Canon) : s.beTick.Canon := by
  have hstep : ∀ (u : State) (vc : Nat) (l : List (Nat × Nat × Nat)), u.Canon →
      (l.foldl (fun t (d, n, o) => match t.holder d n o vc with
        | some x => if t.canMove x o then t.moveFlit x o else t
        | none => t) u).Canon := by
    intro u vc l hu
    refine foldl hu fun t x ht => ?_
    dsimp only
    split
    · exact ite ht.moveFlit ht
    · exact ht
  exact foldl (hstep _ 0 _ (hstep _ 1 _ h)) fun _ _ hu => hu.stageHop

theorem execHeaderAged_canon {i : NiId} {input : Fin 7} {s : State} (h : s.Canon) : CanonNext (execHeaderAged i input s) :=
  .ite (.next h) (.next h)
theorem execStallDetect_canon {i : NiId} {s : State} (h : s.Canon) : CanonNext (execStallDetect i s) :=
  .ite (.next h.beFlag) (.next h)

theorem answerReq {s : State} {r : MemReq} {status : Nat} {data : List Byte} (h : s.Canon) :
    (s.answerReq r status data).Canon := by
  fun_cases State.answerReq s r status data
  case case1 => exact h.respond
  case case2 => exact h.beFlag
  case case6 | case7 | case8 => exact h
  all_goals exact h.release

theorem disown {s : State} {n : Nat} {gone : Origin → Bool} (h : s.Canon) : (s.disown n gone).Canon := h.setNi
theorem toHubTarget {s : State} {n : Nat} {x : BeItem} (h : s.Canon) : (s.toHubTarget n x).Canon :=
  ite (ite h h) (ite h h.respond)

theorem execBePacketArrive_canon {i : NiId} {s : State} (h : s.Canon) : CanonNext (execBePacketArrive i s) := by
  fun_cases execBePacketArrive i s
  case case3 => exact .next h.freeItem.niErr
  case case4 | case7 | case9 => exact .next (ite h.freeItem h.freeItem.respond)
  case case5 => exact .next h.freeItem.injectFrom
  case case6 => exact .next (niErr (ite h.freeItem h.freeItem.respond))
  case case8 => exact .next h.freeItem.toHubTarget
  case case11 => exact .next h.freeItem.toTreq
  all_goals exact .next h

theorem execBeResponseArrive_canon {i : NiId} {s : State} (h : s.Canon) : CanonNext (execBeResponseArrive i s) := by
  fun_cases execBeResponseArrive i s
  case case3 | case5 => exact .next h.freeItem.niErr
  case case4 => exact .next h.freeItem.injectFrom
  case case6 => exact .next h.freeItem
  case case7 | case8 => exact .next h.freeItem.setNi
  case case9 => exact .next h.freeItem.beFlag
  case case10 => exact .next h.freeItem.release.deliverRsp
  all_goals exact .next h

theorem fullTick {s : State} {d n : Nat} (h : s.Canon) : (s.fullTick d n).Canon := ite h.setNi (ite h.setNi h)
theorem niTick {s : State} (h : s.Canon) : s.niTick.Canon := foldl h fun _ _ hu => hu.fifoCross.fullTick

theorem execBeTimeout_canon {i : NiId} {tag : BitVec 10} {s : State} (h : s.Canon) : CanonNext (execBeTimeout i tag s) := by
  fun_cases execBeTimeout i tag s
  case case2 => exact .next h.release.deliverRsp.beFlag
  all_goals exact .next h

/-! #### Operations of `Machine/Spill` -/

theorem spCtrlWrite_canon {d n : Nat} {v : W32} {s : State} (h : s.Canon) : (spCtrlWrite d n v s).1.Canon :=
  canon_ite (refuse_canon h) (canon_ite (refuse_canon h) (canon_ite (wrote_canon h.setBit.setFld.setNi) (canon_ite (wrote_canon
    h.setBit.setBit) (wrote_canon h.setBit))))

theorem spRegionWrite_canon {a d n : Nat} {v : W32} {s : State} (h : s.Canon) : (spRegionWrite a d n v s).1.Canon :=
  canon_ite (refuse_canon h) (wrote_canon h.plainWrite)
theorem execSpillEnable_canon {m : Rm} {i : NiId} {v : W32} {s : State} (h : s.Canon) : CanonNext (execSpillEnable m i v s) :=
  .ite (.next (ringPut_canon h fun _ hu => spCtrlWrite_canon hu)) (.next h)

theorem execSpillStart_canon {i : NiId} {s : State} (h : s.Canon) : CanonNext (execSpillStart i s) := by
  fun_cases execSpillStart i s
  case case1 => exact .next h.setBit.beFlag
  all_goals exact .next h

theorem spillRequest {s : State} {d n addr tag own : Nat} {line : List Byte} (h : s.Canon) :
    (s.spillRequest d n addr tag own line).Canon := by
  fun_cases State.spillRequest s d n addr tag own line
  case case1 => exact h.inject
  all_goals exact h.setNi

theorem execSpillRecordWrite_canon {i : NiId} {s : State} (h : s.Canon) : CanonNext (execSpillRecordWrite i s) := by
  fun_cases execSpillRecordWrite i s
  case case3 => exact .next h.freeItem.niErr
  case case4 => exact .next h.freeItem.setNi.spillRequest
  all_goals exact .next h

theorem execSpillWriteResponse_canon {i : NiId} {s : State} (h : s.Canon) : CanonNext (execSpillWriteResponse i s) := by
  fun_cases execSpillWriteResponse i s
  case case1 => exact .next h
  case case2 => exact .next h.setNi
  case case3 => exact .next (beFlag (setBit (setBit (ite h.setNi.setNi h.setNi.setNi.respond))))
  case case4 => exact .next h.setNi.setNi.spillRequest
  case case5 => exact .next h.setNi.setNi.setFld.setBit.beFlag
  case case6 => exact .next h.setNi.setNi.setFld

theorem execSpillReplay_canon {i : NiId} {s : State} (h : s.Canon) : CanonNext (execSpillReplay i s) :=
  .ite (.next h.setNi.spillRequest) (.next h)
theorem replayDone {s : State} {d n : Nat} (h : s.Canon) : (s.replayDone d n).Canon :=
  setNi (ite h.setFld.setFld.setBit.setBit h.setFld.setFld.setBit)

theorem execReplayReadResponse_canon {i : NiId} {s : State} (h : s.Canon) : CanonNext (execReplayReadResponse i s) := by
  fun_cases execReplayReadResponse i s
  case case3 | case6 => exact .next h.replayDone.beFlag
  case case4 => exact .next (ite h.replayDone h.replayDone.respond)
  case case5 => exact .next h.setNi.spillRequest
  case case7 => exact .next h.replayDone.toTreq
  all_goals exact .next h

theorem niDisabled {s : State} {d n : Nat} (h : s.Canon) : (s.niDisabled d n).Canon := h.setNi.setBit.setBit.beFlag
theorem niForce {s : State} {d n : Nat} (h : s.Canon) : (s.niForce d n).Canon :=
  foldl (foldl h.setNi fun _ _ hu => hu.respond) fun _ _ hu => hu.release.deliverRsp

theorem niCtrlWrite_canon {d n : Nat} {v : W32} {s : State} (h : s.Canon) : (niCtrlWrite d n v s).1.Canon :=
  canon_ite (refuse_canon h) (canon_ite (wrote_canon (ite (niForce (ite h.setReg.setNi h.setReg)) (ite h.setReg.setNi
    h.setReg))) (wrote_canon (ite h.setNi.setReg.setBit h.setNi.setReg)))

theorem niCtrlPut_canon {m : Rm} {i : NiId} {f : W32 → W32} {s : State} (h : s.Canon) : (niCtrlPut m i f s).Canon :=
  ite (ringPut_canon h fun _ hu => niCtrlWrite_canon hu) h
theorem execNiDisable_canon {m : Rm} {i : NiId} {s : State} (h : s.Canon) : CanonNext (execNiDisable m i s) :=
  .next (niCtrlPut_canon h)
theorem execNiForcedDisable_canon {m : Rm} {i : NiId} {s : State} (h : s.Canon) : CanonNext (execNiForcedDisable m i s) :=
  .next (niCtrlPut_canon h)
theorem execNiDisableCancel_canon {m : Rm} {i : NiId} {s : State} (h : s.Canon) : CanonNext (execNiDisableCancel m i s) :=
  .next (niCtrlPut_canon h)
theorem execNiEnable_canon {m : Rm} {i : NiId} {s : State} (h : s.Canon) : CanonNext (execNiEnable m i s) :=
  .next (niCtrlPut_canon h)
theorem execNiLoop_canon {m : Rm} {i : NiId} {on : Bool} {s : State} (h : s.Canon) : CanonNext (execNiLoop m i on s) :=
  .next (niCtrlPut_canon h)
theorem execNiDrainComplete_canon {i : NiId} {s : State} (h : s.Canon) : CanonNext (execNiDrainComplete i s) :=
  .ite (.next h.setNi) (.next h)
theorem execNiDisableBoundary_canon {i : NiId} {s : State} (h : s.Canon) : CanonNext (execNiDisableBoundary i s) :=
  .ite (.next h.niDisabled) (.next h)

/-! #### Operations of `Machine/Links` -/

theorem lmErr {s : State} {b : Nat} {f : Fld} (h : s.Canon) : (s.lmErr b f).Canon := h.flagRaise
theorem lmGo {s : State} {b st : Nat} (h : s.Canon) : (s.lmGo b st).Canon := h.setFld.setLm

theorem zeroCredits {s : State} {b : Nat} (h : s.Canon) : (s.zeroCredits b).Canon := by
  refine foldl h fun t b ht => ?_
  split
  · exact ht
  · exact ht.setLm

theorem dropPartial {s : State} {b fromDue : Nat} (h : s.Canon) : (s.dropPartial b fromDue).Canon :=
  setLm (foldl h fun _ _ hu => hu.freeItem)
theorem lmDefer {s : State} {b fromDue : Nat} (h : s.Canon) : (s.lmDefer b fromDue).Canon := h.setLm
theorem lmStop {s : State} {b fromDue beDue : Nat} (h : s.Canon) : (s.lmStop b fromDue beDue).Canon :=
  ite h.lmDefer.setLm.dropPartial.zeroCredits h.lmDefer.setLm
theorem trainModule {s : State} {b fromDue beDue : Nat} (h : s.Canon) : (s.trainModule b fromDue beDue).Canon :=
  h.lmStop.satInc.lmGo.lmErr.setLm
theorem fullTraining {s : State} {b fromDue : Nat} (h : s.Canon) : (s.fullTraining b fromDue).Canon := h.trainModule.syncBreach
theorem resync {s : State} {b fromDue beDue : Nat} (h : s.Canon) : (s.resync b fromDue beDue).Canon :=
  h.lmStop.lmGo.lmErr.setLm.syncBreach
theorem fence {s : State} {b fromDue : Nat} (h : s.Canon) : (s.fence b fromDue).Canon := ite h h.lmStop.lmGo.lmErr.syncBreach
theorem askedRetrain {s : State} {b : Nat} (h : s.Canon) : (s.askedRetrain b).Canon := ite h.setLm.resync h.setLm

theorem frameFailed {s : State} {b : Nat} {mismatch : Bool} (h : s.Canon) : (s.frameFailed b mismatch).Canon := by
  fun_cases State.frameFailed s b mismatch
  case case1 => exact fence (ite h.setLm.setFld.lmErr h.setLm)
  case case2 => exact syncBreach (trainModule (ite h.setLm.setFld.lmErr h.setLm))
  all_goals exact resync (ite h.setLm.setFld.lmErr h.setLm)

theorem putDue {s : State} {b due : Nat} {fl : Option (Flit × Loc × Nat)} (h : s.Canon) : (s.putDue b due fl).Canon := by
  fun_cases State.putDue s b due fl
  all_goals exact h

theorem collectPos {s : State} {b vc due : Nat} {fl : BitVec 256} (h : s.Canon) : (s.collectPos b vc due fl).Canon := by
  fun_cases State.collectPos s b vc due fl
  case case3 => exact h.setLm
  case case4 => exact h.setLm.charge.addItem
  all_goals exact h

theorem releasePos {s : State} {b : Nat} {f : LinkFrame} {j : Nat} (h : s.Canon) : (s.releasePos b f j).Canon := by
  fun_cases State.releasePos s b f j
  case case1 => exact h.putDue
  case case2 => exact h.putDue.collectPos
  case case3 => exact h.putDue.logFault
  case case4 => exact h.putDue.putDue

theorem takeCredits {s : State} {b : Nat} {f : LinkFrame} (h : s.Canon) : (s.takeCredits b f).Canon := by
  fun_cases State.takeCredits s b f
  all_goals exact h

theorem xcTake {s : State} {b : Nat} {f : LinkFrame} (h : s.Canon) : (s.xcTake b f).Canon := h.setLm

theorem frameTaken {s : State} {b : Nat} {f : LinkFrame} (h : s.Canon) : (s.frameTaken b f).Canon := by
  unfold State.frameTaken
  extract_lets t1 x t2 t3 t4 t5
  have h1 : t1.Canon := ite h.setFld h
  clear_value t1
  have h3 : t3.Canon := ite h1.setLm.setBit.lmErr h1
  clear_value t3
  have h5 : t5.Canon := foldl h3.takeCredits fun _ _ hu => hu.releasePos
  exact ite h3.xcTake (ite h5.askedRetrain h5)

theorem execLinkFrameReceive_canon {l : LinkId} {f : LinkFrame} {s : State} (h : s.Canon) :
    CanonNext (execLinkFrameReceive l f s) :=
  .ite (.next h) (.ite (.next (ite (ite h.setFld.setLm.xcTake h.setFld.setLm) h.setFld.setLm.frameTaken)) (.next (ite
    h.satInc.lmErr.setLm h.satInc.lmErr.setLm.frameFailed)))

theorem execTrainingWordReceive_canon {l : LinkId} {w : W32} {s : State} (h : s.Canon) :
    CanonNext (execTrainingWordReceive l w s) := .ite (.next h) (.next (ite h.setLm.askedRetrain h.setLm))
theorem execLinkClockDetect_canon {l : LinkId} {fck fcks : Bool} {s : State} (h : s.Canon) :
    CanonNext (execLinkClockDetect l fck fcks s) := .ite (.next h) (.next h.setLm.setBit.setBit.setBit.lmGo)
theorem execLinkDeskewDone_canon {l : LinkId} {s : State} (h : s.Canon) : CanonNext (execLinkDeskewDone l s) :=
  .ite (.next h.lmGo) (.next h)
theorem recordWires {s : State} {b : Nat} {errors : BitVec 169} (h : s.Canon) : (s.recordWires b errors).Canon :=
  setBit (setFld (foldl h fun _ _ hu => hu.setReg))

theorem execLinkVerifyDone_canon {l : LinkId} {errors : BitVec 169} {s : State} (h : s.Canon) :
    CanonNext (execLinkVerifyDone l errors s) := by
  fun_cases execLinkVerifyDone l errors s
  case case1 => exact .next h
  case case2 => exact .next h.recordWires.fullTraining
  case case3 => exact .next h.recordWires.lmGo.setLm

theorem execLinkMaskAgreed_canon {l : LinkId} {s : State} (h : s.Canon) : CanonNext (execLinkMaskAgreed l s) :=
  .ite (.next h.setFld.setFld.lmGo) (.next h)
theorem execLinkFrameLock_canon {l : LinkId} {s : State} (h : s.Canon) : CanonNext (execLinkFrameLock l s) :=
  .ite (.next h) (.next (syncBreach (setLm (setBit (setFld (ite h.lmGo.lmErr h.lmGo))))))

theorem execLinkStageTimeout_canon {l : LinkId} {s : State} (h : s.Canon) : CanonNext (execLinkStageTimeout l s) := by
  fun_cases execLinkStageTimeout l s
  case case2 => exact .next h.lmErr.fullTraining
  all_goals exact .next h

theorem lmCtrlWrite_canon {b : Nat} {v : W32} {s : State} (h : s.Canon) : (lmCtrlWrite b v s).1.Canon := by
  unfold lmCtrlWrite
  extract_lets old t t1 t2 due
  have h1 : t1.Canon := ite h.plainWrite.recordWires h.plainWrite
  clear_value t1
  have h2 : t2.Canon := ite h1.setReg h1
  clear_value t2
  exact canon_ite (refuse_canon h) (canon_ite (wrote_canon h2.fence) (canon_ite (wrote_canon (ite h2.setFld.fullTraining h2))
    (canon_ite (wrote_canon (ite h2 h2.fullTraining)) (wrote_canon h2))))

theorem lmCtrlPut_canon {m : Rm} {l : LinkId} {f : W32 → W32} {s : State} (h : s.Canon) : (lmCtrlPut m l f s).Canon :=
  ite (ringPut_canon h fun _ hu => lmCtrlWrite_canon hu) h
theorem execLinkFence_canon {m : Rm} {l : LinkId} {s : State} (h : s.Canon) : CanonNext (execLinkFence m l s) :=
  .next (lmCtrlPut_canon h)
theorem execLinkUnfence_canon {m : Rm} {l : LinkId} {s : State} (h : s.Canon) : CanonNext (execLinkUnfence m l s) :=
  .next (lmCtrlPut_canon h)
theorem execLinkRetrain_canon {m : Rm} {l : LinkId} {s : State} (h : s.Canon) : CanonNext (execLinkRetrain m l s) :=
  .next (lmCtrlPut_canon h)
theorem execLinkClrCnt_canon {m : Rm} {l : LinkId} {s : State} (h : s.Canon) : CanonNext (execLinkClrCnt m l s) :=
  .next (lmCtrlPut_canon h)

theorem execLinkLoop_canon {m : Rm} {l : LinkId} {depth : Fin 4} {errors : BitVec 169} {s : State} (h : s.Canon) :
    CanonNext (execLinkLoop m l depth errors s) :=
  .ite (.next (ringPut_canon h fun _ hu => canon_ite (recordWires (lmCtrlWrite_canon hu)) (lmCtrlWrite_canon hu))) (.next h)

theorem returnCredits {s : State} {d n inp vc : Nat} (h : s.Canon) : (s.returnCredits d n inp vc).Canon :=
  { h with usedOrd := tput_wf h.usedOrd _ _, usedRsv := tput_wf h.usedRsv _ _, charges := tput_wf h.charges _ _ }

theorem execCreditResyncReturn_canon {l : LinkId} {s : State} (h : s.Canon) : CanonNext (execCreditResyncReturn l s) := by
  fun_cases execCreditResyncReturn l s
  case case3 => exact .next (foldl h.setLm fun _ _ hu => hu.returnCredits)
  all_goals exact .next h

theorem trainDieLinks {s : State} {d : Nat} (h : s.Canon) : (s.trainDieLinks d).Canon :=
  syncBreach (foldl h fun _ _ hu => ite hu.setFld.setLm hu.setFld.trainModule)
theorem loseLock {s : State} {d : Nat} (h : s.Canon) : (s.loseLock d).Canon :=
  syncBreach (foldl h fun _ _ hu => hu.setFld.trainModule.setLm)
theorem trainAllLinks {s : State} (h : s.Canon) : s.trainAllLinks.Canon := syncBreach (foldl h fun _ _ hu => hu.trainModule)

/-! #### Operations of `Machine/Weave` -/

theorem send {s : State} {f : Flit} {loc : Loc} {due : Nat} (h : s.Canon) : (s.send f loc due).Canon := h

theorem receiveItem {s : State} {i : Item} (h : s.Canon) : (s.receiveItem i).1.Canon := by
  fun_cases State.receiveItem s i
  all_goals grind [logFault]

theorem steer {s : State} {i : Item} (h : s.Canon) : (s.steer i).1.Canon := by
  fun_cases State.steer s i
  case case2 => exact h.niErr
  case case3 => exact h.logFault
  all_goals exact h

theorem takeOut {s : State} {i : Item} {o : Nat} (h : s.Canon) : (s.takeOut i o).Canon := by
  fun_cases State.takeOut s i o
  case case3 => exact h
  all_goals exact h.useOut

theorem resolve {all a : List (Item × Nat)} {a' : State} (h : a'.Canon) : (a'.resolve all a).Canon := by
  fun_cases State.resolve all a a'
  case case1 => exact h
  case case2 => exact h.logFault.resolve
  case case5 => exact h.takeOut.send.resolve
  all_goals exact h.resolve

theorem foldl_fst {α β : Type} {g : State × β → α → State × β} {l : List α} {p : State × β} (h : p.1.Canon)
    (hg : ∀ q x, State.Canon q.1 → (g q x).1.Canon) : (l.foldl g p).1.Canon := by
  induction l generalizing p with
  | nil => exact h
  | cons x r ih => exact ih (hg p x h)

theorem forwardAll {s : State} (h : s.Canon) : s.forwardAll.Canon :=
  resolve (foldl_fst (foldl_fst h fun _ _ hq => receiveItem hq) fun _ _ hq => steer hq)
theorem execRouterForwardScheduled_canon {s : State} (h : s.Canon) : CanonNext (execRouterForwardScheduled s) :=
  .ite (.next h.forwardAll) (.next h)

/-! #### Operations of `Machine/Torus` -/

theorem setLane {s : State} {b j : Nat} {x : Lane} (h : s.Canon) : (s.setLane b j x).Canon :=
  { h with lanes := tput_wf h.lanes _ _ }
theorem tpErr {s : State} {p : Nat} {f : Fld} (h : s.Canon) : (s.tpErr p f).Canon := h.setBit
theorem showRefuse {s : State} {p : Nat} (h : s.Canon) : (s.showRefuse p).Canon := ite h.setFld.tpErr.raise h.setFld
theorem portGo {s : State} {p st cause : Nat} (h : s.Canon) : (s.portGo p st cause).Canon :=
  syncBreach (ite h.setFld.setBit.setBit.setPort.showRefuse.raise h.setFld.setBit.setBit.setPort.showRefuse)
theorem portLanes {s : State} {p : Nat} {keep : W32} (h : s.Canon) : (s.portLanes p keep).Canon :=
  foldl h fun _ _ hu => hu.setReg
theorem portTrain {s : State} {p : Nat} (h : s.Canon) : (s.portTrain p).Canon :=
  ite h (setPort (setBit (setBit (setBit (foldl h.portCut.portGo.portLanes fun _ _ hu => hu.setReg.setBit.setBit.setLane)))))
theorem portDown {s : State} {p : Nat} (h : s.Canon) : (s.portDown p).Canon := h.portCut.portGo.portLanes.setBit.setPort
theorem portStage {s : State} {p st : Nat} (h : s.Canon) : (s.portStage p st).Canon := h.setFld.setPort.showRefuse
theorem laneErr {s : State} {b j : Nat} (h : s.Canon) : (s.laneErr b j).Canon := h.satInc.setLane

theorem execLaneTrainingSetReceive_canon {p : Fin 6} {lane : Fin 16} {set : LaneSet} {s : State} (h : s.Canon) :
    CanonNext (execLaneTrainingSetReceive p lane set s) := by
  unfold execLaneTrainingSetReceive
  split
  extract_lets got ch good u r a pre post x y t
  have hu : u.Canon := foldl h fun _ _ hu => hu.laneErr
  clear_value u
  have ht : t.Canon := ite hu.setReg (ite hu.setReg hu)
  clear_value t
  exact .ite (.next h) (.ite (.next hu) (.next (ite ht.setLane ht)))

theorem laneTick {s : State} {p : Nat} (h : s.Canon) : (s.laneTick p).Canon := ite h (foldl h fun _ _ hu => setLane hu)
theorem execLaneEqDone_canon {p : Fin 6} {s : State} (h : s.Canon) : CanonNext (execLaneEqDone p s) :=
  .ite (.next (portStage (foldl h fun _ _ hu => hu.setReg))) (.next h)
theorem checkAligned {s : State} {p : Nat} (h : s.Canon) : (s.checkAligned p).Canon := ite h.portStage h
theorem slip {s : State} {b j : Nat} (h : s.Canon) : (s.slip b j).Canon := h.setFld
theorem lnAlignWrite_canon {d q j : Nat} {v : W32} {s : State} (h : s.Canon) : (lnAlignWrite d q j v s).1.Canon :=
  wrote_canon (ite (checkAligned (ite (setBit (ite h.slip h)) (ite h.slip h))) (ite (setBit (ite h.slip h)) (ite h.slip h)))
theorem execLnAlignSlip_canon {m : Rm} {l : LaneId} {s : State} (h : s.Canon) : CanonNext (execLnAlignSlip m l s) :=
  .ite (.next (ringPut_canon h fun _ hu => lnAlignWrite_canon hu)) (.next h)
theorem execLnAlignDone_canon {m : Rm} {l : LaneId} {s : State} (h : s.Canon) : CanonNext (execLnAlignDone m l s) :=
  .ite (.next (ringPut_canon h fun _ hu => lnAlignWrite_canon hu)) (.next h)
theorem execLaneAlignTimeout_canon {p : Fin 6} {lane : Fin 16} {s : State} (h : s.Canon) :
    CanonNext (execLaneAlignTimeout p lane s) := .ite (.next h.setLane) (.next h)
theorem execGlSlip_canon {l : LaneId} {s : State} (h : s.Canon) : CanonNext (execGlSlip l s) := .ite (.next h.slip) (.next h)

theorem lnCtrlWrite_canon {d q j : Nat} {v : W32} {s : State} (h : s.Canon) : (lnCtrlWrite d q j v s).1.Canon :=
  canon_ite (wrote_canon (ite h.plainWrite.setReg h.plainWrite)) (canon_ite (wrote_canon (setReg (ite h.plainWrite.setReg
    h.plainWrite))) (wrote_canon (setReg (ite h.plainWrite.setReg h.plainWrite))))

theorem lnTapWrite_canon {d q j : Nat} {v : W32} {s : State} (h : s.Canon) : (lnTapWrite d q j v s).1.Canon :=
  canon_ite (refuse_canon h) (wrote_canon h.setReg)

theorem portLaneFault {s : State} {p i : Nat} (h : s.Canon) : (s.portLaneFault p i).Canon :=
  ite (ite h.setBit.raise.tpErr.setLane.portTrain (ite h.setBit.raise.tpErr.setLane.portTrain (ite (ite
    h.setBit.raise.tpErr.setLane.portTrain h.setBit.raise.tpErr.setLane) h.setBit.raise.tpErr.setLane.portGo.setFld.setPort))) h

theorem judgeLanes {s : State} {p : Nat} (h : s.Canon) : (s.judgeLanes p).Canon := foldl h fun _ _ hu => ite hu.portLaneFault hu

theorem execLaneFault_canon {x : LaneTrouble} {s : State} (h : s.Canon) : CanonNext (execLaneFault x s) := by
  have herrs : ∀ (l : List Nat) (b i : Nat), (l.foldl (fun t _ => t.laneErr b i) s).Canon := fun _ _ _ => foldl h fun _ _ hu =>
      hu.laneErr
  unfold execLaneFault
  extract_lets l b a mode coded t1 t2 bad
  have h1 : t1.Canon := ite (herrs _ _ _) h
  clear_value t1
  have h2 : t2.Canon := ite h1.setBit h1
  clear_value t2
  exact .ite (.next h) (.ite (.next h) (.ite (.next h2) (.ite (.next h2.portLaneFault) (.next h2.flagRaise))))

theorem enterHalf {s : State} {p : Nat} (h : s.Canon) : (s.enterHalf p).Canon := h.portGo.raise.setPort

theorem execHalfWidthSwitch_canon {p : Fin 6} {s : State} (h : s.Canon) : CanonNext (execHalfWidthSwitch p s) := by
  fun_cases execHalfWidthSwitch p s
  case case1 => exact .next h.enterHalf
  all_goals exact .next h

theorem execAlignmentMarkerReceive_canon {p : Fin 6} {arrive : List (Option Nat)} {s : State} (h : s.Canon) :
    CanonNext (execAlignmentMarkerReceive p arrive s) := by
  unfold execAlignmentMarkerReceive
  refine .ite (.next h) (.ite (.next (checkAligned (foldl h fun u i hu => ?_))) (.ite (.ite (.ite (.next h.portStage) (.next
      h.tpErr.portTrain)) (.next h))
    (.ite (.next (foldl h.setPort fun _ _ hu => hu.portLaneFault)) (.next h))))
  have hf : (u.fresh 32).2.Canon := hu.fresh
  exact ite hf.setBit.setBit.setFld hu

theorem posErrs {s : State} {p : Nat} {errs : BitVec 32} (h : s.Canon) : (s.posErrs p errs).Canon :=
  judgeLanes (foldl h fun _ _ hu => hu.laneErr)

theorem execPortStageTimeout_canon {p : Fin 6} {s : State} (h : s.Canon) : CanonNext (execPortStageTimeout p s) := by
  fun_cases execPortStageTimeout p s
  case case2 => exact .next h.tpErr.raise.setPort
  all_goals exact .next h

theorem execPortTrainRestart_canon {p : Fin 6} {s : State} (h : s.Canon) : CanonNext (execPortTrainRestart p s) := by
  fun_cases execPortTrainRestart p s
  case case2 => exact .next h.portTrain
  all_goals exact .next h

theorem execExchangePositionReceive_canon {p : Fin 6} {pos : ExchangeRx} {frac : Fin 64} {s : State} (h : s.Canon) :
    CanonNext (execExchangePositionReceive p pos frac s) :=
  .ite (.next h) (.ite (.next h.posErrs) (.next h.posErrs.setReg64.setReg.setPort))

theorem sendExchange {s : State} {p : Nat} (h : s.Canon) : (s.sendExchange p).Canon := ite h h.setPort.sendPos
theorem portVerify {s : State} {p : Nat} (h : s.Canon) : (s.portVerify p).Canon :=
  ite h.setPort.setBit.portGo (raise (portGo (ite (tpErr (ite h.setPort.tpErr h.setPort)) (ite h.setPort.tpErr h.setPort))))

theorem execExchangeComplete_canon {p : Fin 6} {s : State} (h : s.Canon) : CanonNext (execExchangeComplete p s) :=
  .ite (.next h) (.ite (.ite (.next h.portVerify) (.next h)) (.ite (.next h) (.ite (.next h.tpErr.portDown.raise) (.next
    h.setReg.setPort))))

theorem enterSched {s : State} {p : Nat} (h : s.Canon) : (s.enterSched p).Canon := h.portGo.setPort.syncBreach.raise
theorem portJudge {s : State} {p : Nat} (h : s.Canon) : (s.portJudge p).Canon :=
  ite h.showRefuse (ite h.showRefuse.enterSched (ite h.showRefuse h.showRefuse.setPort))
theorem portDrained {s : State} {p : Nat} (h : s.Canon) : (s.portDrained p).Canon :=
  ite h.portDown.setBit.setBit.raise.portLanes.portStage h.portDown.setBit.setBit.raise
theorem portForce {s : State} {p : Nat} (h : s.Canon) : (s.portForce p).Canon :=
  setPort (foldl h fun _ _ hu => ite hu.freeItem.respond hu.freeItem)
theorem portDisTick {s : State} {p : Nat} (h : s.Canon) : (s.portDisTick p).Canon :=
  ite h.setPort (ite h.setPort (ite h.portDrained h))

theorem execLeaveSched_canon {p : Fin 6} {s : State} (h : s.Canon) : CanonNext (execLeaveSched p s) := by
  fun_cases execLeaveSched p s
  case case2 => exact .next h.portDrained
  case case3 => exact .next h.portGo
  all_goals exact .next h

theorem takeHalf {s : State} {p kind : Nat} {half : BitVec 60} (h : s.Canon) : (s.takeHalf p kind half).Canon := by
  fun_cases State.takeHalf s p kind half
  all_goals exact h.setPort

theorem takeControl {s : State} {p : Nat} {c : BitVec 256} (h : s.Canon) : (s.takeControl p c).Canon := by
  fun_cases State.takeControl s p c
  case case1 => exact enterHalf (ite h.setPort.setBit h.setPort.setBit.takeHalf)
  case case4 => exact setPort (setFld (portGo (ite h.setPort.setBit h.setPort.setBit.takeHalf)))
  case case5 => exact portJudge (ite h.setPort.setBit h.setPort.setBit.takeHalf)
  all_goals exact ite h.setPort.setBit h.setPort.setBit.takeHalf

theorem execControlPositionReceive_canon {p : Fin 6} {content : BitVec 256} {errs : BitVec 32} {s : State} (h : s.Canon) :
    CanonNext (execControlPositionReceive p content errs s) :=
  .ite (.next h) (.ite (.next h.posErrs) (.ite (.next h.posErrs.takeControl) (.next h.posErrs.tpErr.setPort)))

theorem kmLinkErr {s : State} {f : Fld} (h : s.Canon) : (s.kmLinkErr f).Canon := h.flagRaise
theorem takeScheduled {s : State} {p idx : Nat} {x : PortRx} (h : s.Canon) : (s.takeScheduled p idx x).Canon :=
  ite h.send (ite h.send (ite h.send (ite h.send h.kmLinkErr.send)))

theorem takePacket {s : State} {p : Nat} {fl : List (BitVec 256)} (h : s.Canon) : (s.takePacket p fl).Canon := by
  fun_cases State.takePacket s p fl
  case case1 => exact h
  case case2 => exact h.charge.addItem

theorem takeBestEffort {s : State} {p : Nat} {start : Bool} {x : PortRx} (h : s.Canon) : (s.takeBestEffort p start x).Canon :=
  ite h.setPort (ite h (ite h.setPort.takePacket h.setPort))
theorem takeStream {s : State} {p : Nat} {x : PortRx} (h : s.Canon) : (s.takeStream p x).Canon :=
  ite h.setPort (ite h.setPort.tpErr (ite h.setPort.setBit (ite h.setPort h)))

theorem execPortPositionReceive_canon {p : Fin 6} {pos : PortRx} {s : State} (h : s.Canon) :
    CanonNext (execPortPositionReceive p pos s) := by
  fun_cases execPortPositionReceive p pos s
  case case1 => exact .next h
  case case2 => exact .next h.posErrs
  case case8 => exact .next (ite h.posErrs.setPort h.posErrs)
  case case7 => exact .next (takeStream (ite h.posErrs.setPort h.posErrs))
  all_goals
    rename_i t _ _ u _
    have hu : u.Canon := ite h.posErrs.setPort h.posErrs
    clear_value u
  case case3 | case4 => exact .next (ite hu.takeScheduled hu)
  case case5 | case6 => exact .next (ite hu.takeBestEffort hu)

theorem portWake {s : State} {p : Nat} (h : s.Canon) : (s.portWake p).Canon := ite h.setPort h

theorem wakeTick {s : State} {p : Nat} (h : s.Canon) : (s.wakeTick p).Canon := by
  fun_cases State.wakeTick s p
  case case2 => exact h.portWake
  case case4 => exact setPort (foldl h.portGo fun _ _ hu => hu.setBit)
  all_goals exact h

theorem sendMarker {s : State} {p u cause : Nat} (h : s.Canon) : (s.sendMarker p u cause).Canon := h.sendPos

theorem admitFlit {s : State} {p : Nat} {i : Item} (h : s.Canon) : (s.admitFlit p i).Canon := by
  fun_cases State.admitFlit s p i
  case case1 => exact h.portWake
  case case3 => exact h.sendMarker
  case case5 | case6 => exact h.logFault.setPort
  case case7 => exact h.setPort.sendMarker
  case case8 | case9 => exact h.setPort.sendPos
  case case10 => exact h.setPort.kmLinkErr.sendPos
  all_goals exact h

theorem execPortAdmitScheduled_canon {p : Fin 6} {s : State} (h : s.Canon) : CanonNext (execPortAdmitScheduled p s) :=
  .ite (.next h) (.next (foldl h fun _ _ hu => hu.admitFlit))

theorem lateMarker {s : State} {p : Nat} (h : s.Canon) : (s.lateMarker p).Canon := by
  fun_cases State.lateMarker s p
  case case2 => exact h.setPort.sendMarker
  all_goals exact h

theorem portFrame {s : State} {p : Nat} (h : s.Canon) : (s.portFrame p).Canon :=
  ite h (ite (ite h.sendPos h) (ite h h.showRefuse.setPort.sendPos))
theorem portTick {s : State} {p : Nat} (h : s.Canon) : (s.portTick p).Canon :=
  h.portDisTick.wakeTick.laneTick.portFrame.sendExchange.lateMarker

theorem portApply {s : State} {p : Nat} {old v : W32} (h : s.Canon) : (s.portApply p old v).Canon := by
  unfold State.portApply
  extract_lets st en dis ls u v w px x y
  have hu : u.Canon := ite h.setReg.setReg h
  clear_value u
  have hv : v.Canon := ite hu.setBit.portGo hu
  clear_value v
  have hw : w.Canon := ite hv.portDown hv
  clear_value w
  have hx : x.Canon := ite hv.setPort hv
  clear_value x
  have hy : y.Canon := hv.setPort
  clear_value y
  refine ite hv (ite (ite hw.portLanes.portStage (ite hw.portStage hw)) (ite (ite hv (ite hx.portForce hx)) (ite hv ?_)))
  exact ite hy.setBit.portTrain (ite hy.portTrain (ite (ite hy.portTrain hy.portWake) hy))

theorem tpCtrlWrite_canon {p : Nat} {v : W32} {s : State} (h : s.Canon) : (tpCtrlWrite p v s).1.Canon :=
  canon_ite (refuse_canon h) (canon_ite (refuse_canon h) (canon_ite (refuse_canon h) (wrote_canon h.plainWrite.portApply)))
theorem tpCtrlPut_canon {m : Rm} {p : Nat} {f : W32 → W32} {s : State} (h : s.Canon) : (tpCtrlPut m p f s).Canon :=
  ringPut_canon h fun _ hu => tpCtrlWrite_canon hu
theorem execPortAccept_canon {m : Rm} {p : Fin 6} {s : State} (h : s.Canon) : CanonNext (execPortAccept m p s) :=
  .next (tpCtrlPut_canon h)
theorem execPortRetrain_canon {m : Rm} {p : Fin 6} {s : State} (h : s.Canon) : CanonNext (execPortRetrain m p s) :=
  .next (tpCtrlPut_canon h)
theorem execPortDisable_canon {m : Rm} {p : Fin 6} {force : Bool} {s : State} (h : s.Canon) :
    CanonNext (execPortDisable m p force s) := .next (tpCtrlPut_canon h)
theorem execPortEnable_canon {m : Rm} {p : Fin 6} {s : State} (h : s.Canon) : CanonNext (execPortEnable m p s) :=
  .next (tpCtrlPut_canon h)
theorem execPortQuiet_canon {m : Rm} {p : Fin 6} {s : State} (h : s.Canon) : CanonNext (execPortQuiet m p s) :=
  .next (tpCtrlPut_canon h)
theorem execPortRest_canon {m : Rm} {p : Fin 6} {s : State} (h : s.Canon) : CanonNext (execPortRest m p s) :=
  .next (tpCtrlPut_canon h)

theorem execPortActive_canon {m : Option Rm} {p : Fin 6} {s : State} (h : s.Canon) : CanonNext (execPortActive m p s) := by
  fun_cases execPortActive m p s
  case case1 => exact .next (tpCtrlPut_canon h)
  case case2 => exact .next h.portWake
  case case3 => exact .next h

theorem execQuietEnter_canon {p : Fin 6} {s : State} (h : s.Canon) : CanonNext (execQuietEnter p s) := by
  fun_cases execQuietEnter p s
  case case1 => exact .next h.portGo.portLanes.setPort
  all_goals exact .next h

theorem tpLbWrite_canon {p : Nat} {v : W32} {s : State} (h : s.Canon) : (tpLbWrite p v s).1.Canon :=
  canon_ite (wrote_canon h) (canon_ite (refuse_canon h) (wrote_canon h.plainWrite))

/-! #### Operations of `Machine/Remote` -/

theorem sendRemote {s : State} {r : Remote} (h : s.Canon) : (s.sendRemote r).Canon := by
  fun_cases State.sendRemote s r
  case case2 => exact h.setPort
  all_goals exact h

theorem setGw {s : State} {g : Nat} {x : Gw} (h : s.Canon) : (s.setGw g x).Canon := { h with gws := tput_wf h.gws _ _ }

theorem rgCtrlWrite_canon {g : Nat} {v : W32} {s : State} (h : s.Canon) : (rgCtrlWrite g v s).1.Canon := by
  fun_cases rgCtrlWrite g v s
  case case1 => exact refuse_canon h
  case case2 => exact wrote_canon h.plainWrite.setReg
  case case3 => exact wrote_canon h.plainWrite.setReg.setGw.sendRemote
  case case4 => exact wrote_canon h.plainWrite

theorem gwOp_canon {m : Rm} {op : Nat} {s : State} (h : s.Canon) : (gwOp m op s).Canon :=
  ringPut_canon h fun _ hu => rgCtrlWrite_canon hu
theorem execGatewayRead_canon {m : Rm} {s : State} (h : s.Canon) : CanonNext (execGatewayRead m s) := .next (gwOp_canon h)
theorem execGatewayWrite_canon {m : Rm} {s : State} (h : s.Canon) : CanonNext (execGatewayWrite m s) := .next (gwOp_canon h)
theorem execGatewayTimeout_canon {m : Rm} {s : State} (h : s.Canon) : CanonNext (execGatewayTimeout m s) :=
  .ite (.next h.setReg.setGw) (.next h)

theorem gwAnswer {s : State} {r : Remote} (h : s.Canon) : (s.gwAnswer r).Canon := by
  fun_cases State.gwAnswer s r
  case case3 => exact h.setReg.setGw.setReg
  case case4 => exact h.setReg.setGw
  all_goals exact h

theorem tpCfgCtrlWrite_canon {p : Nat} {v : W32} {s : State} (h : s.Canon) : (tpCfgCtrlWrite p v s).1.Canon :=
  canon_ite (canon_ite (refuse_canon h) (wrote_canon h.setReg.setPort)) (canon_ite (wrote_canon h.setBit.setPort) (wrote_canon
    h))

theorem execStreamSendGo_canon {m : Rm} {p : Fin 6} {s : State} (h : s.Canon) : CanonNext (execStreamSendGo m p s) :=
  .next (ringPut_canon h fun _ hu => tpCfgCtrlWrite_canon hu)
theorem execStreamSendAbort_canon {m : Rm} {p : Fin 6} {s : State} (h : s.Canon) : CanonNext (execStreamSendAbort m p s) :=
  .next (ringPut_canon h fun _ hu => tpCfgCtrlWrite_canon hu)

theorem streamAnswer {s : State} {p : Nat} (h : s.Canon) : (s.streamAnswer p).Canon := by
  fun_cases State.streamAnswer s p
  case case1 => exact h
  case case2 => exact h.setPort

theorem streamAsk {s : State} {p : Nat} (h : s.Canon) : (s.streamAsk p).Canon := ite (ite h.setPort h.setPort) h
theorem streamSend {s : State} {p : Nat} (h : s.Canon) : (s.streamSend p).Canon := ite h.setPort.sendPos h
theorem streamTick {s : State} {p : Nat} (h : s.Canon) : (s.streamTick p).Canon := h.streamAnswer.streamAsk.streamSend.portBe
theorem execStreamSendEnd_canon {p : Fin 6} {s : State} (h : s.Canon) : CanonNext (execStreamSendEnd p s) :=
  .ite (.next h) (.ite (.next h.setReg.raise) (.ite (.next h.setReg.raise) (.next h)))

/-! #### Operations of `Machine/Fabric` -/

theorem execUserEvent_canon {d : Fin 6} {i : Fin 16} {s : State} (h : s.Canon) : CanonNext (execUserEvent d i s) :=
  .ite (.next h.raise) (.next h)
theorem execPrbSelWrite_canon {m : Rm} {d : Fin 6} {i : Fin 8} {v : W32} {s : State} (h : s.Canon) :
    CanonNext (execPrbSelWrite m d i v s) := .next (ringPut_canon h fun _ hu => wrote_canon hu.plainWrite)
theorem niHold {s : State} {d i : Nat} (h : s.Canon) : (s.niHold d i).Canon := h.setNi
theorem niRelease {s : State} {d i : Nat} (h : s.Canon) : (s.niRelease d i).Canon := h.setNi
theorem holdEvents {s : State} {d : Nat} (h : s.Canon) : (s.holdEvents d).Canon :=
  foldl h fun _ _ hu => ite (raise (freshB hu)) (freshB hu)
theorem holdRegion {s : State} {d n : Nat} (h : s.Canon) : (s.holdRegion d n).Canon :=
  ite h (ite (holdEvents (foldl h.setBit.setHold fun _ _ hu => hu.niHold)) (foldl h.setBit.setHold fun _ _ hu => hu.niHold))
theorem startRelease {s : State} {d n : Nat} (h : s.Canon) : (s.startRelease d n).Canon :=
  foldl h.setHold fun _ _ hu => hu.niRelease
theorem releaseRegion {s : State} {d n : Nat} (h : s.Canon) : (s.releaseRegion d n).Canon :=
  ite h (ite h.setHold (ite h.startRelease h))
theorem brHoldWrite_canon {d : Nat} {v : W32} {s : State} (h : s.Canon) : (brHoldWrite d v s).1.Canon :=
  wrote_canon (foldl h fun _ _ hu => hu.holdRegion)
theorem brReleaseWrite_canon {d : Nat} {v : W32} {s : State} (h : s.Canon) : (brReleaseWrite d v s).1.Canon :=
  wrote_canon (foldl h fun _ _ hu => hu.releaseRegion)
theorem execRegionHold_canon {m : Rm} {d : Fin 6} {mask : BitVec 16} {s : State} (h : s.Canon) :
    CanonNext (execRegionHold m d mask s) := .next (ringPut_canon h fun _ hu => brHoldWrite_canon hu)
theorem execRegionRelease_canon {m : Rm} {d : Fin 6} {mask : BitVec 16} {s : State} (h : s.Canon) :
    CanonNext (execRegionRelease m d mask s) := .next (ringPut_canon h fun _ hu => brReleaseWrite_canon hu)

theorem execRegionHoldComplete_canon {d : Fin 6} {n : Fin 16} {s : State} (h : s.Canon) :
    CanonNext (execRegionHoldComplete d n s) :=
  .ite (.next (ite h.setBit.setBit.raise.startRelease h.setBit.setBit.raise)) (.next h)

theorem execRegionGateRelease_canon {d : Fin 6} {n : Fin 16} {s : State} (h : s.Canon) :
    CanonNext (execRegionGateRelease d n s) := by
  fun_cases execRegionGateRelease d n s
  case case1 => exact .next h.setHold
  all_goals exact .next h

theorem execRegionReleaseComplete_canon {d : Fin 6} {n : Fin 16} {s : State} (h : s.Canon) :
    CanonNext (execRegionReleaseComplete d n s) := by
  fun_cases execRegionReleaseComplete d n s
  case case1 => exact .next h.setBit.raise.setHold
  all_goals exact .next h

theorem brRgnWrite_canon {d n : Nat} {v : W32} {s : State} (h : s.Canon) : (brRgnWrite d n v s).1.Canon :=
  canon_ite (refuse_canon h) (wrote_canon h.plainWrite)
theorem execBrRgnWrite_canon {m : Rm} {d : Fin 6} {n : Fin 16} {v : W32} {s : State} (h : s.Canon) :
    CanonNext (execBrRgnWrite m d n v s) := .next (ringPut_canon h fun _ hu => brRgnWrite_canon hu)

/-! #### Operations of `Machine/Configure` -/

theorem putFrame {s : State} {k : Nat} {b : BitVec 4096} {c : BitVec 14} (h : s.Canon) : (s.putFrame k b c).Canon :=
  { h with frames := tput_wf h.frames _ _, checks := tput_wf h.checks _ _ }
theorem putMap {s : State} {d f : Nat} {w : BitVec 128} (h : s.Canon) : (s.putMap d f w).Canon :=
  { h with map := tput_wf h.map _ _ }

theorem clearFrames {s : State} {d : Nat} (h : s.Canon) : (s.clearFrames d).Canon := { h with
    frames := tkeep_wf h.frames fun k => k / 2097152 != d
    checks := tkeep_wf h.checks fun k => k / 2097152 != d
    map := tkeep_wf h.map fun k => k / 131072 != d }

theorem setDie {s : State} {d v : Nat} (h : s.Canon) : (s.setDie d v).Canon := h.setFld
theorem setCfgState {s : State} {v : Nat} (h : s.Canon) : (s.setCfgState v).Canon := h.setFld
theorem flushPort {s : State} {p : Nat} (h : s.Canon) : (s.flushPort p).Canon := ite h h.setPort

theorem dropUnsynced {s : State} (h : s.Canon) : s.dropUnsynced.Canon := by
  unfold State.dropUnsynced
  extract_lets t
  have ht : t.Canon := foldl h fun _ _ hu => hu.flushPort
  clear_value t
  exact ht

theorem endStream {s : State} {st : Nat} (h : s.Canon) : (s.endStream st).Canon := dropUnsynced (setCfgState h.setFld.setFld)

theorem startAt_put {s : State} (h : s.Canon) {d v : Nat} :
    State.Canon { s with cfg := { s.cfg with startAt := tput (fun _ => 0) s.cfg.startAt d v } } :=
  { h with startAt := tput_wf h.startAt _ _ }

theorem cfgFail {s : State} {cause : Nat} (h : s.Canon) : (s.cfgFail cause).Canon := by
  unfold State.cfgFail
  extract_lets t0 t1 t2 c3 t3 p4
  have h1 : t1.Canon := h.endStream.setFld.setReg.setReg
  clear_value t1
  have h2 : t2.Canon := foldl h1 fun u d hu => ite (startAt_put (s := u.setDie d 0) hu.setDie) hu
  clear_value t2
  have h3 : t3.Canon := h2
  have h4 : p4.Canon := h3.setBit
  clear_value p4
  refine raise ?_
  exact h4

theorem acceptWords {s : State} {ws : List W32} (h : s.Canon) : (s.acceptWords ws).Canon := h.setReg

theorem frameDataWord {s : State} {w : W32} (h : s.Canon) : (s.frameDataWord w).Canon := by
  fun_cases State.frameDataWord s w
  case case3 => exact h.acceptWords
  case case4 | case5 => exact cfgFail h.acceptWords
  case case6 | case7 => exact ite (setDie h.acceptWords) h.acceptWords
  all_goals exact h.acceptWords.cfgFail

theorem mapDataWord {s : State} {w : W32} (h : s.Canon) : (s.mapDataWord w).Canon := by
  fun_cases State.mapDataWord s w
  case case3 => exact h.acceptWords
  case case4 => exact cfgFail h.acceptWords
  case case5 | case6 => exact ite (setDie (putMap h.acceptWords)) (putMap h.acceptWords)
  all_goals exact h.acceptWords.cfgFail

theorem dataWords {s : State} {ws : List W32} (h : s.Canon) : (s.dataWords ws).Canon :=
  foldl h fun _ _ hu => ite hu (ite hu.frameDataWord hu.mapDataWord)
theorem unclean {s : State} (h : s.Canon) : s.unclean.Canon := h
theorem fixStart {s : State} (h : s.Canon) : s.fixStart.Canon :=
  ite h (foldl h fun _ _ hu => { hu with startAt := tput_wf hu.startAt _ _ })
theorem startDies {s : State} (h : s.Canon) : s.startDies.Canon := fixStart (foldl h fun _ _ hu => ite hu hu)

theorem streamCmd {s : State} {k : OpKind} (h : s.Canon) : (s.streamCmd k).Canon := by
  fun_cases State.streamCmd s k
  case case1 => exact ite h.cfgFail (ite h.startDies h.cfgFail)
  case case2 => exact ite h.cfgFail (ite (ite h.unclean.holdRegion h.unclean.holdRegion) h.cfgFail)
  case case3 => exact ite h.cfgFail (ite (ite h.releaseRegion h.cfgFail) h.cfgFail)
  case case4 => exact ite h.endStream.raise h.cfgFail
  case case5 => exact h.unclean

theorem performOp {s : State} {ws : List W32} {op : StreamOp} (h : s.Canon) : (s.performOp ws op).Canon := by
  fun_cases State.performOp s ws op
  case case1 | case2 | case4 | case7 | case9 | case18 => exact h
  case case11 | case12 | case13 => exact ite (ite h.unclean h.unclean.cfgFail) h.cfgFail
  case case14 | case15 => exact ite (dataWords h.unclean) h.cfgFail
  case case16 => exact h.streamCmd
  all_goals exact h.cfgFail

theorem cfgTick {s : State} (h : s.Canon) : s.cfgTick.Canon := ite h h

theorem takeWords_some {s t : State} {c : CfgSrc} {ws : List W32} {bad : Bool} (h : s.Canon) (hw : s.takeWords c ws = some (t,
    bad)) :
    t.Canon := by
  unfold State.takeWords at hw
  split at hw
  · cases hw; exact h
  · cases hw; exact h
  · split at hw <;> cases hw
    exact h
  · dsimp only at hw
    split at hw <;> cases hw
    exact h.setPort

theorem streamWords_canon {k : OpKind} {c : CfgSrc} {ws : List W32} {s : State} (h : s.Canon) :
    (streamWords k c ws s).Canon := by
  have took : ∀ t bad, s.takeWords c ws = some (t, bad) → State.Canon { t with cfg := { t.cfg with waitHold := none } } :=
    fun t bad ht => (takeWords_some h ht :)
  fun_cases streamWords k c ws s
  case case1 | case3 | case4 | case5 | case6 | case7 => exact h
  case case2 => exact h.setBit
  case case8 t _ ht => exact (took _ _ ht).acceptWords.cfgFail
  case case9 ht _ _ _ _ _ _ => exact (took _ _ ht).dataWords
  case case10 ht _ _ _ _ _ _ _ _ => exact (took _ _ ht).acceptWords.setReg.performOp
  case case11 ht _ _ _ _ _ _ _ _ => exact (took _ _ ht).acceptWords.performOp

theorem execStreamNop_canon {c : CfgSrc} {ws : List W32} {s : State} (h : s.Canon) : CanonNext (execStreamNop c ws s) :=
  .next (streamWords_canon h)
theorem execStreamCrc_canon {c : CfgSrc} {ws : List W32} {s : State} (h : s.Canon) : CanonNext (execStreamCrc c ws s) :=
  .next (streamWords_canon h)
theorem execStreamDeviceCode_canon {c : CfgSrc} {ws : List W32} {s : State} (h : s.Canon) :
    CanonNext (execStreamDeviceCode c ws s) := .next (streamWords_canon h)
theorem execStreamFeature_canon {c : CfgSrc} {ws : List W32} {s : State} (h : s.Canon) : CanonNext (execStreamFeature c ws s) :=
  .next (streamWords_canon h)
theorem execStreamFrameAddr_canon {c : CfgSrc} {ws : List W32} {s : State} (h : s.Canon) :
    CanonNext (execStreamFrameAddr c ws s) := .next (streamWords_canon h)
theorem execStreamFdata_canon {c : CfgSrc} {ws : List W32} {s : State} (h : s.Canon) : CanonNext (execStreamFdata c ws s) :=
  .next (streamWords_canon h)
theorem execStreamOptions_canon {c : CfgSrc} {ws : List W32} {s : State} (h : s.Canon) : CanonNext (execStreamOptions c ws s) :=
  .next (streamWords_canon h)
theorem execStreamRegion_canon {c : CfgSrc} {ws : List W32} {s : State} (h : s.Canon) : CanonNext (execStreamRegion c ws s) :=
  .next (streamWords_canon h)
theorem execStreamEbmAddr_canon {c : CfgSrc} {ws : List W32} {s : State} (h : s.Canon) : CanonNext (execStreamEbmAddr c ws s) :=
  .next (streamWords_canon h)
theorem execStreamEbmData_canon {c : CfgSrc} {ws : List W32} {s : State} (h : s.Canon) : CanonNext (execStreamEbmData c ws s) :=
  .next (streamWords_canon h)
theorem execCmdNull_canon {c : CfgSrc} {ws : List W32} {s : State} (h : s.Canon) : CanonNext (execCmdNull c ws s) :=
  .next (streamWords_canon h)
theorem execCmdStart_canon {c : CfgSrc} {ws : List W32} {s : State} (h : s.Canon) : CanonNext (execCmdStart c ws s) :=
  .next (streamWords_canon h)
theorem execCmdHold_canon {c : CfgSrc} {ws : List W32} {s : State} (h : s.Canon) : CanonNext (execCmdHold c ws s) :=
  .next (streamWords_canon h)
theorem execCmdRelease_canon {c : CfgSrc} {ws : List W32} {s : State} (h : s.Canon) : CanonNext (execCmdRelease c ws s) :=
  .next (streamWords_canon h)
theorem execCmdDesync_canon {c : CfgSrc} {ws : List W32} {s : State} (h : s.Canon) : CanonNext (execCmdDesync c ws s) :=
  .next (streamWords_canon h)

theorem execFrameEngineWriteDone_canon {d : Fin 8} {s : State} (h : s.Canon) : CanonNext (execFrameEngineWriteDone d s) := by
  fun_cases execFrameEngineWriteDone d s
  case case3 => exact .next (fixStart h.putFrame)
  all_goals exact .next h

theorem cfgSdataWrite_canon {v : W32} {s : State} (h : s.Canon) : (cfgSdataWrite v s).1.Canon :=
  canon_ite (refuse_canon h) (wrote_canon (ite (dropUnsynced h) h))
theorem execCfgSdataWrite_canon {m : Rm} {v : W32} {s : State} (h : s.Canon) : CanonNext (execCfgSdataWrite m v s) :=
  .next (ringPut_canon h fun _ hu => cfgSdataWrite_canon hu)

theorem takeSync_some {s t : State} {c : CfgSrc} (h : s.Canon) (hw : s.takeSync c = some t) : t.Canon := by
  unfold State.takeSync at hw
  split at hw
  · cases hw; exact h
  · cases hw; exact h
  · dsimp only at hw
    split at hw <;> cases hw
    exact h
  · dsimp only at hw
    split at hw <;> cases hw
    exact h.setPort

theorem execSyncWord_canon {c : CfgSrc} {s : State} (h : s.Canon) : CanonNext (execSyncWord c s) := by
  fun_cases execSyncWord c s
  case case3 t0 ht t1 t2 =>
    have h2 : t2.Canon := (takeSync_some h ht).setFld.setFld.setReg.setCfgState.setBit
    clear_value t2
    refine .next (raise ?_)
    exact h2
  all_goals exact .next h

theorem execStreamTimeout_canon {s : State} (h : s.Canon) : CanonNext (execStreamTimeout s) := .ite (.next h.cfgFail) (.next h)
theorem execClearComplete_canon {s : State} (h : s.Canon) : CanonNext (execClearComplete s) :=
  .ite (.next (setCfgState (foldl h fun _ _ hu => hu.clearFrames))) (.next h)

theorem execInitNHigh_canon {s : State} (h : s.Canon) : CanonNext (execInitNHigh s) := by
  fun_cases execInitNHigh s
  case case1 t =>
    have ht : t.Canon := h.setBit.setCfgState.dropUnsynced
    clear_value t
    exact .next ht
  case case2 => exact .next h

theorem setStage {s : State} {d v : Nat} (h : s.Canon) : (s.setStage d v).Canon := { h with stage := tput_wf h.stage _ _ }

theorem execStartupBegin_canon {s : State} (h : s.Canon) : CanonNext (execStartupBegin s) := by
  refine .ite (.next (foldl h fun u d hu => ?_)) (.next h)
  split
  · exact ite hu.setDie.setStage hu
  · exact hu

theorem execStartupStage_canon {s : State} (h : s.Canon) : CanonNext (execStartupStage s) := by
  refine .ite (.next (foldl h fun u d hu => ?_)) (.next h)
  split
  · exact ite hu.setStage hu
  · exact hu

theorem checkDone {s : State} (h : s.Canon) : s.checkDone.Canon := by
  unfold State.checkDone
  extract_lets t
  have ht : t.Canon := h.setBit
  clear_value t
  refine ite (raise ?_) h
  exact ht

theorem execStartupRunning_canon {s : State} (h : s.Canon) : CanonNext (execStartupRunning s) := by
  refine .ite (.next (checkDone (foldl h fun u d hu => ?_))) (.next h)
  split
  · have hw := startAt_put (d := d) (v := 0) (hu.setDie (d := d) (v := 3) |>.setStage (d := d) (v := 0) |>.raise (e := feEvent d
      4))
    exact ite (ite hw.setBit hw) hu
  · exact hu

theorem setUpsets {s : State} {d : Nat} {l : List UpsetRec} (h : s.Canon) : (s.setUpsets d l).Canon :=
  { h with upsets := tput_wf h.upsets _ _ }
theorem logUpset {s : State} {d : Nat} {r : UpsetRec} (h : s.Canon) : (s.logUpset d r).Canon :=
  ite h.setUpsets (ite h.satInc.raise h.satInc)

theorem handleUpset {s : State} {d f k : Nat} {o : FrameOutcome} (h : s.Canon) : (s.handleUpset d f k o).Canon := by
  fun_cases State.handleUpset s d f k o
  case case1 => exact h
  case case3 | case5 => exact h.putFrame.logUpset.satInc
  case case6 => exact h.logUpset.satInc.raise
  all_goals exact h.putFrame.logUpset.satInc.raise

theorem flipBits {s : State} {k : Nat} {flips : List Nat} (h : s.Canon) : (s.flipBits k flips).Canon :=
  foldl h fun _ _ hu => ite hu.putFrame (ite hu.putFrame hu)

theorem execScanFrame_canon {d : Fin 8} {flips : List Nat} {s : State} (h : s.Canon) : CanonNext (execScanFrame d flips s) := by
  unfold execScanFrame
  extract_lets d f fa u t t1
  have ht : t.Canon := ite h.flipBits h.flipBits.handleUpset
  clear_value t
  have h1 : t1.Canon := ht.setFld.satInc
  clear_value t1
  exact .ite (.next h) (.ite (.next ht.setFld) (.next (ite h1.raise h1)))

theorem feLogPopWrite_canon {d : Nat} {s : State} (h : s.Canon) : (feLogPopWrite d s).1.Canon := wrote_canon h.setUpsets
theorem execFeLogPop_canon {m : Rm} {d : Fin 8} {v : W32} {s : State} (h : s.Canon) : CanonNext (execFeLogPop m d v s) :=
  .next (ringPut_canon h fun _ hu => feLogPopWrite_canon hu)
theorem feLogStatWrite_canon {d : Nat} {v : W32} {s : State} (h : s.Canon) : (feLogStatWrite d v s).1.Canon :=
  wrote_canon (ite (setReg (ite h.setFld h)) (ite h.setFld h))
theorem execFeLogStatWrite_canon {m : Rm} {d : Fin 8} {v : W32} {s : State} (h : s.Canon) :
    CanonNext (execFeLogStatWrite m d v s) := .next (ringPut_canon h fun _ hu => feLogStatWrite_canon hu)

theorem feRbDataRead_canon {m : Rm} {d : Nat} {s : State} (h : s.Canon) : (feRbDataRead m d s).1.Canon := by
  fun_cases feRbDataRead m d s
  case case3 => exact h.setFld
  case case4 | case5 => exact h.setReg
  all_goals exact h

theorem execFeRbDataRead_canon {m : Rm} {d : Fin 8} {s : State} (h : s.Canon) : CanonNext (execFeRbDataRead m d s) :=
  .next (ringDo_canon h fun _ hu => feRbDataRead_canon hu)
theorem takeCapture {s : State} {d : Nat} (h : s.Canon) : (s.takeCapture d).Canon := { h with capture := tput_wf h.capture _ _ }
theorem feRbCtrlWrite_canon {d : Nat} {v : W32} {s : State} (h : s.Canon) : (feRbCtrlWrite d v s).1.Canon :=
  canon_ite (wrote_canon h.plainWrite.takeCapture) (wrote_canon h.plainWrite)
theorem execFeRbCapture_canon {m : Rm} {d : Fin 8} {s : State} (h : s.Canon) : CanonNext (execFeRbCapture m d s) :=
  .next (ringPut_canon h fun _ hu => feRbCtrlWrite_canon hu)

/-! #### Operations of `Machine/Thrumas` -/

theorem setThr {s : State} {n : Nat} {x : Thrumas} (h : s.Canon) : (s.setThr n x).Canon :=
  { h with cores := tput_wf h.cores _ _ }
theorem setCoreState {s : State} {n v : Nat} (h : s.Canon) : (s.setCoreState n v).Canon := h.setFld
theorem coreFlag {s : State} {n : Nat} {f : Fld} (h : s.Canon) : (s.coreFlag n f).Canon := h.flagRaise

theorem landSpecial {s : State} {n num : Nat} {v : W32} (h : s.Canon) : (s.landSpecial n num v).Canon := by
  fun_cases State.landSpecial s n num v
  case case8 | case11 => exact h.setReg
  case case14 | case16 | case17 | case18 | case21 => exact h
  all_goals exact h.setThr

theorem land {s : State} {n : Nat} {l : Landing} (h : s.Canon) : (s.land n l).Canon := by
  fun_cases State.land s n l
  case case4 => exact h.landSpecial
  case case6 => exact h.setThr.setBytes
  all_goals exact h.setThr

theorem landUpTo {s : State} {n cyc : Nat} (h : s.Canon) : (s.landUpTo n cyc).Canon := foldl h.setThr fun _ _ hu => hu.land
theorem drain {s : State} {n : Nat} (h : s.Canon) : (s.drain n).Canon := h.setThr.landUpTo
theorem stopCore {s : State} {n : Nat} (h : s.Canon) : (s.stopCore n).Canon := h.drain.setThr.setCoreState

theorem endCycle {s : State} {n : Nat} (h : s.Canon) : (s.endCycle n).Canon := by
  unfold State.endCycle
  extract_lets x t0 t y t1
  have ht : t.Canon := h.setThr.landUpTo.setThr
  clear_value t
  have h1 : t1.Canon := ite ht.setThr ht
  clear_value t1
  exact ite h1.stopCore h1

theorem slotDone {s : State} {n slot : Nat} (h : s.Canon) : (s.slotDone n slot).Canon := ite h.setThr.endCycle h.setThr
theorem result {s : State} {n slot k : Nat} {l : Landing} (h : s.Canon) : (s.result n slot k l).Canon := h.setThr
theorem resultReg {s : State} {n slot k r : Nat} {v : W32} (h : s.Canon) : (s.resultReg n slot k r v).Canon := h.result

theorem coreOp_canon {op : Nat} {c : Fin 8} {slot : Fin 4} {w : W32} {eff : State → State} {s : State} (h : s.Canon) (hf : ∀ t,
    State.Canon t → ((eff t)).Canon) :
    CanonNext (coreOp op c slot w eff s) := .ite (.next (slotDone (ite (hf _ h) h))) (.next h)

theorem coreFault {s : State} {n cause : Nat} (h : s.Canon) : (s.coreFault n cause).Canon :=
  h.drain.setThr.setCoreState.setFld.setBit.setBit.raise

theorem execIllegalOperation_canon {c : Fin 8} {s : State} (h : s.Canon) : CanonNext (execIllegalOperation c s) := by
  fun_cases execIllegalOperation c s
  case case1 => exact .next h.coreFault
  all_goals exact .next h

/-! #### Operations of `Machine/ThrumasOps` -/

theorem effR_canon {n slot : Nat} {w : W32} {f : W32 → W32 → W32} {s : State} (h : s.Canon) : (effR n slot w f s).Canon :=
  h.resultReg
theorem effI_canon {n slot : Nat} {w : W32} {f : W32 → W32 → W32} {s : State} (h : s.Canon) : (effI n slot w f s).Canon :=
  h.resultReg
theorem effC_canon {n slot : Nat} {w b : W32} {s : State} (h : s.Canon) : (effC n slot w b s).Canon := h.result

theorem watchAccess {s : State} {n slot a : Nat} {store : Bool} (h : s.Canon) : (s.watchAccess n slot a store).Canon := by
  fun_cases State.watchAccess s n slot a store
  case case3 => exact h.setThr
  all_goals exact h

theorem effLoad_canon {n slot size : Nat} {signed : Bool} {a : Nat} {w : W32} {s : State} (h : s.Canon) :
    (effLoad n slot size signed a w s).Canon := h.resultReg.watchAccess
theorem effStore_canon {n slot size a : Nat} {v : W32} {s : State} (h : s.Canon) : (effStore n slot size a v s).Canon :=
  h.result.watchAccess
theorem effPost_canon {n slot : Nat} {w : W32} {s : State} (h : s.Canon) : (effPost n slot w s).Canon := h.resultReg
theorem effMac_canon {n slot : Nat} {w : W32} {acc pair : Bool} {s : State} (h : s.Canon) :
    (effMac n slot w acc pair s).Canon := ite h.setThr h.setThr.result
theorem effAccrd_canon {n slot : Nat} {w : W32} {s : State} (h : s.Canon) : (effAccrd n slot w s).Canon :=
  ite h.resultReg.result h.resultReg
theorem effAccwr_canon {n : Nat} {w : W32} {s : State} (h : s.Canon) : (effAccwr n w s).Canon := h.setThr
theorem effAccclr_canon {n : Nat} {w : W32} {s : State} (h : s.Canon) : (effAccclr n w s).Canon := h.setThr
theorem effMuls_canon {n slot : Nat} {w : W32} {s : State} (h : s.Canon) : (effMuls n slot w s).Canon := h.resultReg

theorem effBranch_canon {n : Nat} {w : W32} {reti : Bool} {s : State} (h : s.Canon) : (effBranch n w reti s).Canon := by
  fun_cases effBranch n w reti s
  case case1 => exact h
  case case2 => exact h.setThr

theorem effCall_canon {n slot : Nat} {w : W32} {s : State} (h : s.Canon) : (effCall n slot w s).Canon :=
  effBranch_canon h.resultReg
theorem effRep_canon {n : Nat} {w : W32} {s : State} (h : s.Canon) : (effRep n w s).Canon := h.setThr
theorem effMfs_canon {n slot : Nat} {w : W32} {s : State} (h : s.Canon) : (effMfs n slot w s).Canon :=
  ite h.resultReg.setThr h.resultReg
theorem effSendAt_canon {n : Nat} {w : W32} {s : State} (h : s.Canon) : (effSendAt n w s).Canon :=
  ite h.coreFlag (ite h.coreFlag (ite h.coreFlag h.setThr))
theorem xferEnd {s : State} {n tag : Nat} {bad : Bool} (h : s.Canon) : (s.xferEnd n tag bad).Canon :=
  ite h.setThr.coreFlag h.setThr
theorem effXfer_canon {n : Nat} {w : W32} {write : Bool} {s : State} (h : s.Canon) : (effXfer n w write s).Canon :=
  ite h.setThr.xferEnd h.setThr.setThr.setNi

theorem execNop_canon {c : Fin 8} {slot : Fin 4} {w : W32} {s : State} (h : s.Canon) : CanonNext (execNop c slot w s) := by
  fun_cases execNop c slot w s
  all_goals grind [coreOp_canon]

theorem execAddOp_canon {c : Fin 8} {slot : Fin 4} {w : W32} {s : State} (h : s.Canon) : CanonNext (execAddOp c slot w s) :=
  coreOp_canon h fun _ hu => effR_canon hu
theorem execSubOp_canon {c : Fin 8} {slot : Fin 4} {w : W32} {s : State} (h : s.Canon) : CanonNext (execSubOp c slot w s) :=
  coreOp_canon h fun _ hu => effR_canon hu
theorem execAndOp_canon {c : Fin 8} {slot : Fin 4} {w : W32} {s : State} (h : s.Canon) : CanonNext (execAndOp c slot w s) :=
  coreOp_canon h fun _ hu => effR_canon hu
theorem execOrOp_canon {c : Fin 8} {slot : Fin 4} {w : W32} {s : State} (h : s.Canon) : CanonNext (execOrOp c slot w s) :=
  coreOp_canon h fun _ hu => effR_canon hu
theorem execXorOp_canon {c : Fin 8} {slot : Fin 4} {w : W32} {s : State} (h : s.Canon) : CanonNext (execXorOp c slot w s) :=
  coreOp_canon h fun _ hu => effR_canon hu
theorem execShl_canon {c : Fin 8} {slot : Fin 4} {w : W32} {s : State} (h : s.Canon) : CanonNext (execShl c slot w s) :=
  coreOp_canon h fun _ hu => effR_canon hu
theorem execShr_canon {c : Fin 8} {slot : Fin 4} {w : W32} {s : State} (h : s.Canon) : CanonNext (execShr c slot w s) :=
  coreOp_canon h fun _ hu => effR_canon hu
theorem execSra_canon {c : Fin 8} {slot : Fin 4} {w : W32} {s : State} (h : s.Canon) : CanonNext (execSra c slot w s) :=
  coreOp_canon h fun _ hu => effR_canon hu
theorem execMinOp_canon {c : Fin 8} {slot : Fin 4} {w : W32} {s : State} (h : s.Canon) : CanonNext (execMinOp c slot w s) :=
  coreOp_canon h fun _ hu => effR_canon hu
theorem execMaxOp_canon {c : Fin 8} {slot : Fin 4} {w : W32} {s : State} (h : s.Canon) : CanonNext (execMaxOp c slot w s) :=
  coreOp_canon h fun _ hu => effR_canon hu
theorem execAddi_canon {c : Fin 8} {slot : Fin 4} {w : W32} {s : State} (h : s.Canon) : CanonNext (execAddi c slot w s) :=
  coreOp_canon h fun _ hu => effI_canon hu
theorem execShli_canon {c : Fin 8} {slot : Fin 4} {w : W32} {s : State} (h : s.Canon) : CanonNext (execShli c slot w s) :=
  coreOp_canon h fun _ hu => effI_canon hu
theorem execShri_canon {c : Fin 8} {slot : Fin 4} {w : W32} {s : State} (h : s.Canon) : CanonNext (execShri c slot w s) :=
  coreOp_canon h fun _ hu => effI_canon hu
theorem execSrai_canon {c : Fin 8} {slot : Fin 4} {w : W32} {s : State} (h : s.Canon) : CanonNext (execSrai c slot w s) :=
  coreOp_canon h fun _ hu => effI_canon hu
theorem execMovi_canon {c : Fin 8} {slot : Fin 4} {w : W32} {s : State} (h : s.Canon) : CanonNext (execMovi c slot w s) :=
  coreOp_canon h fun _ hu => hu.resultReg
theorem execMovhi_canon {c : Fin 8} {slot : Fin 4} {w : W32} {s : State} (h : s.Canon) : CanonNext (execMovhi c slot w s) :=
  coreOp_canon h fun _ hu => hu.resultReg
theorem execCmp_canon {c : Fin 8} {slot : Fin 4} {w : W32} {s : State} (h : s.Canon) : CanonNext (execCmp c slot w s) :=
  coreOp_canon h fun _ hu => effC_canon hu
theorem execCmpi_canon {c : Fin 8} {slot : Fin 4} {w : W32} {s : State} (h : s.Canon) : CanonNext (execCmpi c slot w s) :=
  coreOp_canon h fun _ hu => effC_canon hu
theorem execSel_canon {c : Fin 8} {slot : Fin 4} {w : W32} {s : State} (h : s.Canon) : CanonNext (execSel c slot w s) :=
  coreOp_canon h fun _ hu => effR_canon hu
theorem execLdw_canon {c : Fin 8} {slot : Fin 4} {w : W32} {s : State} (h : s.Canon) : CanonNext (execLdw c slot w s) :=
  coreOp_canon h fun _ hu => effLoad_canon hu
theorem execLdh_canon {c : Fin 8} {slot : Fin 4} {w : W32} {s : State} (h : s.Canon) : CanonNext (execLdh c slot w s) :=
  coreOp_canon h fun _ hu => effLoad_canon hu
theorem execLdhu_canon {c : Fin 8} {slot : Fin 4} {w : W32} {s : State} (h : s.Canon) : CanonNext (execLdhu c slot w s) :=
  coreOp_canon h fun _ hu => effLoad_canon hu
theorem execLdb_canon {c : Fin 8} {slot : Fin 4} {w : W32} {s : State} (h : s.Canon) : CanonNext (execLdb c slot w s) :=
  coreOp_canon h fun _ hu => effLoad_canon hu
theorem execStw_canon {c : Fin 8} {slot : Fin 4} {w : W32} {s : State} (h : s.Canon) : CanonNext (execStw c slot w s) :=
  coreOp_canon h fun _ hu => effStore_canon hu
theorem execSth_canon {c : Fin 8} {slot : Fin 4} {w : W32} {s : State} (h : s.Canon) : CanonNext (execSth c slot w s) :=
  coreOp_canon h fun _ hu => effStore_canon hu
theorem execStb_canon {c : Fin 8} {slot : Fin 4} {w : W32} {s : State} (h : s.Canon) : CanonNext (execStb c slot w s) :=
  coreOp_canon h fun _ hu => effStore_canon hu
theorem execLdr_canon {c : Fin 8} {slot : Fin 4} {w : W32} {s : State} (h : s.Canon) : CanonNext (execLdr c slot w s) :=
  coreOp_canon h fun _ hu => setThr (effLoad_canon hu)
theorem execLdwp_canon {c : Fin 8} {slot : Fin 4} {w : W32} {s : State} (h : s.Canon) : CanonNext (execLdwp c slot w s) :=
  coreOp_canon h fun _ hu => effPost_canon (effLoad_canon hu)
theorem execStwp_canon {c : Fin 8} {slot : Fin 4} {w : W32} {s : State} (h : s.Canon) : CanonNext (execStwp c slot w s) :=
  coreOp_canon h fun _ hu => effPost_canon (effStore_canon hu)
theorem execStc_canon {c : Fin 8} {slot : Fin 4} {w : W32} {s : State} (h : s.Canon) : CanonNext (execStc c slot w s) :=
  coreOp_canon h fun _ hu => setThr (ite (effStore_canon hu.resultReg) hu.resultReg)
theorem execMac4_canon {c : Fin 8} {slot : Fin 4} {w : W32} {s : State} (h : s.Canon) : CanonNext (execMac4 c slot w s) :=
  coreOp_canon h fun _ hu => effMac_canon hu
theorem execMul4_canon {c : Fin 8} {slot : Fin 4} {w : W32} {s : State} (h : s.Canon) : CanonNext (execMul4 c slot w s) :=
  coreOp_canon h fun _ hu => effMac_canon hu
theorem execMac2_canon {c : Fin 8} {slot : Fin 4} {w : W32} {s : State} (h : s.Canon) : CanonNext (execMac2 c slot w s) :=
  coreOp_canon h fun _ hu => effMac_canon hu
theorem execMul2_canon {c : Fin 8} {slot : Fin 4} {w : W32} {s : State} (h : s.Canon) : CanonNext (execMul2 c slot w s) :=
  coreOp_canon h fun _ hu => effMac_canon hu
theorem execAccrd_canon {c : Fin 8} {slot : Fin 4} {w : W32} {s : State} (h : s.Canon) : CanonNext (execAccrd c slot w s) :=
  coreOp_canon h fun _ hu => effAccrd_canon hu
theorem execAccwr_canon {c : Fin 8} {slot : Fin 4} {w : W32} {s : State} (h : s.Canon) : CanonNext (execAccwr c slot w s) :=
  coreOp_canon h fun _ hu => effAccwr_canon hu
theorem execAccclr_canon {c : Fin 8} {slot : Fin 4} {w : W32} {s : State} (h : s.Canon) : CanonNext (execAccclr c slot w s) :=
  coreOp_canon h fun _ hu => effAccclr_canon hu
theorem execMuls_canon {c : Fin 8} {slot : Fin 4} {w : W32} {s : State} (h : s.Canon) : CanonNext (execMuls c slot w s) :=
  coreOp_canon h fun _ hu => effMuls_canon hu
theorem execBrOp_canon {c : Fin 8} {slot : Fin 4} {w : W32} {s : State} (h : s.Canon) : CanonNext (execBrOp c slot w s) :=
  coreOp_canon h fun _ hu => effBranch_canon hu
theorem execBri_canon {c : Fin 8} {slot : Fin 4} {w : W32} {s : State} (h : s.Canon) : CanonNext (execBri c slot w s) :=
  coreOp_canon h fun _ hu => effBranch_canon hu
theorem execCallOp_canon {c : Fin 8} {slot : Fin 4} {w : W32} {s : State} (h : s.Canon) : CanonNext (execCallOp c slot w s) :=
  coreOp_canon h fun _ hu => effCall_canon hu
theorem execRepOp_canon {c : Fin 8} {slot : Fin 4} {w : W32} {s : State} (h : s.Canon) : CanonNext (execRepOp c slot w s) :=
  coreOp_canon h fun _ hu => effRep_canon hu
theorem execRotOp_canon {c : Fin 8} {slot : Fin 4} {w : W32} {s : State} (h : s.Canon) : CanonNext (execRotOp c slot w s) :=
  coreOp_canon h fun _ hu => hu.result
theorem execReti_canon {c : Fin 8} {slot : Fin 4} {w : W32} {s : State} (h : s.Canon) : CanonNext (execReti c slot w s) :=
  coreOp_canon h fun _ hu => effBranch_canon hu
theorem execMts_canon {c : Fin 8} {slot : Fin 4} {w : W32} {s : State} (h : s.Canon) : CanonNext (execMts c slot w s) :=
  coreOp_canon h fun _ hu => hu.result
theorem execMfs_canon {c : Fin 8} {slot : Fin 4} {w : W32} {s : State} (h : s.Canon) : CanonNext (execMfs c slot w s) :=
  coreOp_canon h fun _ hu => effMfs_canon hu
theorem execSendAt_canon {c : Fin 8} {slot : Fin 4} {w : W32} {s : State} (h : s.Canon) : CanonNext (execSendAt c slot w s) :=
  coreOp_canon h fun _ hu => effSendAt_canon hu
theorem execXrd_canon {c : Fin 8} {slot : Fin 4} {w : W32} {s : State} (h : s.Canon) : CanonNext (execXrd c slot w s) :=
  .ite (.next h) (coreOp_canon h fun _ hu => effXfer_canon hu)
theorem execXwr_canon {c : Fin 8} {slot : Fin 4} {w : W32} {s : State} (h : s.Canon) : CanonNext (execXwr c slot w s) :=
  .ite (.next h) (coreOp_canon h fun _ hu => effXfer_canon hu)
theorem waitOperand_canon {n : Nat} {w : W32} {s : State} (h : s.Canon) : (waitOperand n w s).2.Canon :=
  canon_ite_snd h (canon_ite_snd h h)

theorem execWaitOp_canon {c : Fin 8} {slot : Fin 4} {w : W32} {s : State} (h : s.Canon) :
    CanonNext (execWaitOp c slot w s) := by
  fun_cases execWaitOp c slot w s
  case case2 he => exact .next (((canon_snd he (waitOperand_canon h)).setThr).setCoreState)
  case case3 => exact .next h.slotDone
  all_goals exact .next h

theorem execWaitConditionMet_canon {c : Fin 8} {s : State} (h : s.Canon) : CanonNext (execWaitConditionMet c s) := by
  fun_cases execWaitConditionMet c s
  case case1 => exact .next h.setThr.setCoreState.slotDone
  all_goals exact .next h

theorem execSev_canon {c : Fin 8} {slot : Fin 4} {w : W32} {s : State} (h : s.Canon) : CanonNext (execSev c slot w s) :=
  coreOp_canon h fun _ hu => hu.raise
theorem execBkpt_canon {c : Fin 8} {slot : Fin 4} {w : W32} {s : State} (h : s.Canon) : CanonNext (execBkpt c slot w s) :=
  .ite (.next h.setThr.setBit.slotDone) (coreOp_canon h fun _ hu => hu)

/-! #### Operations of `Machine/ThrumasCtl` -/

theorem takeInterrupt {s : State} {n level e : Nat} (h : s.Canon) : (s.takeInterrupt n level e).Canon :=
  h.drain.setThr.setCoreState.setPending

theorem execInterruptTake_canon {c : Fin 8} {s : State} (h : s.Canon) : CanonNext (execInterruptTake c s) := by
  fun_cases execInterruptTake c s
  case case1 => exact .next h.takeInterrupt
  all_goals exact .next h

theorem dmWrite {s : State} {n a : Nat} {a' : List Byte} (h : s.Canon) : (s.dmWrite n a a').Canon := by
  fun_cases State.dmWrite s n a a'
  case case1 => exact h
  case case2 => exact h.setThr.setByte.dmWrite

theorem execXferComplete_canon {c : Fin 8} {tag : Fin 16} {s : State} (h : s.Canon) : CanonNext (execXferComplete c tag s) := by
  fun_cases execXferComplete c tag s
  case case3 => exact .next (xferEnd (ite (dmWrite h) h))
  all_goals exact .next h

theorem execRxRingWrite_canon {c : Fin 8} {s : State} (h : s.Canon) : CanonNext (execRxRingWrite c s) := by
  fun_cases execRxRingWrite c s
  case case3 => exact .next h.setNi.coreFlag
  case case4 => exact .next (ite h.setNi.dmWrite.setThr.raise h.setNi.dmWrite.setThr)
  all_goals exact .next h

theorem abandonXfers {s : State} {n : Nat} (h : s.Canon) : (s.abandonXfers n).Canon := h.disown
theorem dbgLost {s : State} {i : Nat} (h : s.Canon) : (s.dbgLost i).Canon := h.flagRaise
theorem tearDown {s : State} {n : Nat} (h : s.Canon) : (s.tearDown n).Canon :=
  foldl h.setThr.setBit.setBit.setFld fun _ _ hu => hu.setBit
theorem zeroCore {s : State} {n : Nat} (h : s.Canon) : (s.zeroCore n).Canon := h.abandonXfers.setThr.setReg.setFld.setCoreState
theorem coreReset {s : State} {n : Nat} (h : s.Canon) : (s.coreReset n).Canon :=
  ite h.tearDown.zeroCore.dbgLost.setThr.setBit h.tearDown.zeroCore.dbgLost

theorem coreCtrlWrite_canon {n : Nat} {v : W32} {s : State} (h : s.Canon) : (coreCtrlWrite n v s).1.Canon :=
  canon_ite (wrote_canon h.plainWrite.coreReset) (canon_ite (wrote_canon (ite h.plainWrite.setThr.setCoreState
    h.plainWrite.setThr)) (canon_ite (wrote_canon (ite h.plainWrite.stopCore h.plainWrite.setThr)) (canon_ite (wrote_canon
    h.plainWrite.setThr) (wrote_canon h.plainWrite))))

theorem execCoreReset_canon {m : Rm} {c : Fin 8} {s : State} (h : s.Canon) : CanonNext (execCoreReset m c s) :=
  .next (ringPut_canon h fun _ hu => coreCtrlWrite_canon hu)
theorem execCoreRunWrite_canon {m : Rm} {c : Fin 8} {run : Bool} {s : State} (h : s.Canon) :
    CanonNext (execCoreRunWrite m c run s) := .next (ringPut_canon h fun _ hu => coreCtrlWrite_canon hu)

theorem watchdogAct {s : State} {n : Nat} (h : s.Canon) : (s.watchdogAct n).Canon := by
  fun_cases State.watchdogAct s n
  case case2 => exact h.setThr.setBit.setReg.raise.coreFault
  case case3 => exact h.setThr.setBit.setReg.raise.coreReset
  all_goals exact h.setThr.setBit.setReg.raise

theorem execWatchdogExpiry_canon {c : Fin 8} {s : State} (h : s.Canon) : CanonNext (execWatchdogExpiry c s) :=
  .ite (.next h.watchdogAct) (.next h)
theorem watchdogTick {s : State} {n k : Nat} (h : s.Canon) : (s.watchdogTick n k).Canon := ite h.setReg h
theorem imAdvance {s : State} {n : Nat} (h : s.Canon) : (s.imAdvance n).Canon := ite h.setFld h
theorem imDataWrite_canon {n : Nat} {v : W32} {s : State} (h : s.Canon) : (imDataWrite n v s).1.Canon :=
  canon_ite (refuse_canon h) (wrote_canon (imAdvance (ite h.setBytes h)))

theorem imDataRead_canon {n k : Nat} {s : State} (h : s.Canon) : (imDataRead n k s).1.Canon := by
  fun_cases imDataRead n k s
  case case1 he => exact ite ((canon_snd he (canon_ite_snd h h.fresh)).imAdvance) (canon_snd he (canon_ite_snd h h.fresh))

theorem execImDataWrite_canon {m : Rm} {c : Fin 8} {v : W32} {s : State} (h : s.Canon) : CanonNext (execImDataWrite m c v s) :=
  .next (ringPut_canon h fun _ hu => imDataWrite_canon hu)
theorem dmAdvance {s : State} {n : Nat} (h : s.Canon) : (s.dmAdvance n).Canon := ite h.setFld h
theorem dmDataWrite_canon {n : Nat} {v : W32} {s : State} (h : s.Canon) : (dmDataWrite n v s).1.Canon :=
  wrote_canon h.dmWrite.dmAdvance
theorem dmDataRead_canon {n : Nat} {s : State} (h : s.Canon) : (dmDataRead n s).1.Canon := h.dmAdvance

theorem execDmDataAccess_canon {m : Rm} {c : Fin 8} {v : Option W32} {s : State} (h : s.Canon) :
    CanonNext (execDmDataAccess m c v s) := by
  fun_cases execDmDataAccess m c v s
  case case1 => exact .next (ringPut_canon h fun _ hu => dmDataWrite_canon hu)
  case case2 => exact .next (ringDo_canon h fun _ hu => dmDataRead_canon hu)

theorem execBootGo_canon {s : State} (h : s.Canon) : CanonNext (execBootGo s) := .ite (.next h.drain.setThr) (.next h)

/-! #### Operations of `Machine/Debug` -/

theorem requestHalt {s : State} {n reason : Nat} (h : s.Canon) : (s.requestHalt n reason).Canon := ite h h.setThr.setBit
theorem haltGroup {s : State} {n : Nat} (h : s.Canon) : (s.haltGroup n).Canon :=
  ite (foldl h fun _ _ hu => ite hu.requestHalt hu) h

theorem haltCore {s : State} {n reason : Nat} (h : s.Canon) : (s.haltCore n reason).Canon :=
  ite h.drain.setThr.setFld.setBit.setBit.setFld.setCoreState.raise
    h.drain.setThr.setFld.setBit.setBit.setFld.setCoreState.raise.haltGroup

theorem execHaltTaken_canon {c : Fin 8} {s : State} (h : s.Canon) : CanonNext (execHaltTaken c s) := by
  fun_cases execHaltTaken c s
  case case1 => exact .next h.haltCore
  all_goals exact .next h

theorem execHaltDeferExpiry_canon {c : Fin 8} {s : State} (h : s.Canon) : CanonNext (execHaltDeferExpiry c s) :=
  .ite (.next h.setThr.setBit) (.next h)
theorem releaseCore {s : State} {n : Nat} {step : Bool} (h : s.Canon) : (s.releaseCore n step).Canon :=
  ite h (ite h.setThr.setBit.setCoreState.setReg h.setThr.setBit.setCoreState)
theorem runctlWrite_canon {v : W32} {s : State} (h : s.Canon) : (runctlWrite v s).1.Canon :=
  wrote_canon (foldl h fun _ _ hu => ite hu.requestHalt (ite hu.releaseCore (ite hu.releaseCore hu)))
theorem dbgOnly_canon {m : Rm} {f : State → Answer} {s : State} (h : s.Canon) (hf : ∀ t, State.Canon t → ((f t).1).Canon) :
    (dbgOnly m f s).1.Canon := canon_ite (hf _ h) (refuse_canon h)
theorem runctlPut_canon {m : Rm} {v : W32} {s : State} (h : s.Canon) : (runctlPut m v s).Canon :=
  ringPut_canon h fun _ hu => dbgOnly_canon hu fun _ hv => runctlWrite_canon hv
theorem execDbgHalt_canon {m : Rm} {mask : BitVec 8} {s : State} (h : s.Canon) : CanonNext (execDbgHalt m mask s) :=
  .next (runctlPut_canon h)
theorem execDbgResume_canon {m : Rm} {mask : BitVec 8} {s : State} (h : s.Canon) : CanonNext (execDbgResume m mask s) :=
  .next (runctlPut_canon h)
theorem execDbgStep_canon {m : Rm} {mask : BitVec 8} {s : State} (h : s.Canon) : CanonNext (execDbgStep m mask s) :=
  .next (runctlPut_canon h)

theorem execBreakpointMatch_canon {c : Fin 8} {s : State} (h : s.Canon) : CanonNext (execBreakpointMatch c s) := by
  fun_cases execBreakpointMatch c s
  case case1 => exact .next (ite h.setThr.requestHalt.setFld h.setThr.requestHalt.setFld.setBit)
  all_goals exact .next h

theorem execDataWatchMatch_canon {c : Fin 8} {s : State} (h : s.Canon) : CanonNext (execDataWatchMatch c s) := by
  fun_cases execDataWatchMatch c s
  case case1 => exact .next h.setThr.requestHalt.setFld.setFld
  all_goals exact .next h

theorem setDbgItem {s : State} {n i : Nat} {v : W32} (h : s.Canon) : (s.setDbgItem n i v).Canon :=
  ite h.setThr (ite h.setThr (ite h.landSpecial h.setThr))
theorem dbgAdvance {s : State} {n : Nat} (h : s.Canon) : (s.dbgAdvance n).Canon := ite h.setFld h

theorem dbgRegRead_canon {n : Nat} {s : State} (h : s.Canon) : (dbgRegRead n s).1.Canon := by
  fun_cases dbgRegRead n s
  case case1 => exact h.dbgAdvance
  all_goals exact refuse_canon h

theorem dbgRegWrite_canon {n : Nat} {v : W32} {s : State} (h : s.Canon) : (dbgRegWrite n v s).1.Canon :=
  canon_ite (wrote_canon h.setDbgItem.dbgAdvance) (refuse_canon h)

theorem execDbgRegAccess_canon {m : Rm} {c : Fin 8} {v : Option W32} {s : State} (h : s.Canon) :
    CanonNext (execDbgRegAccess m c v s) := by
  fun_cases execDbgRegAccess m c v s
  case case1 => exact .next (ringPut_canon h fun _ hu => dbgOnly_canon hu fun _ hv => dbgRegWrite_canon hv)
  case case2 => exact .next (ringDo_canon h fun _ hu => dbgRegRead_canon hu)

theorem dbgTxWrite_canon {m : Rm} {v : W32} {s : State} (h : s.Canon) : (dbgTxWrite m v s).1.Canon :=
  canon_ite (refuse_canon h) (wrote_canon h.setReg.setBit)
theorem dbgRxWrite_canon {m : Rm} {v : W32} {s : State} (h : s.Canon) : (dbgRxWrite m v s).1.Canon :=
  canon_ite (refuse_canon h) (wrote_canon h.setReg.setBit.raise)
theorem termStatWrite_canon {m : Rm} {v : W32} {s : State} (h : s.Canon) : (termStatWrite m v s).1.Canon :=
  canon_ite (refuse_canon h) (wrote_canon (ite (setBit (ite h.setBit.raise h)) (ite h.setBit.raise h)))
theorem execTerminalTxWrite_canon {m : Rm} {v : W32} {s : State} (h : s.Canon) : CanonNext (execTerminalTxWrite m v s) :=
  .next (ringPut_canon h fun _ hu => dbgTxWrite_canon hu)
theorem execTerminalTxConsume_canon {m : Rm} {s : State} (h : s.Canon) : CanonNext (execTerminalTxConsume m s) :=
  .next (ringPut_canon h fun _ hu => termStatWrite_canon hu)
theorem execTerminalRxWrite_canon {m : Rm} {v : W32} {s : State} (h : s.Canon) : CanonNext (execTerminalRxWrite m v s) :=
  .next (ringPut_canon h fun _ hu => dbgRxWrite_canon hu)
theorem execTerminalRxConsume_canon {m : Rm} {s : State} (h : s.Canon) : CanonNext (execTerminalRxConsume m s) :=
  .next (ringPut_canon h fun _ hu => termStatWrite_canon hu)

/-! #### Operations of `Machine/Banks` -/

theorem ownershipFault {s : State} {bank : Nat} {r : MemReq} (h : s.Canon) : (s.ownershipFault bank r).Canon :=
  h.satInc.setFld.setBit.setFld.setFld.setFld.raise
theorem bankStore {s : State} {a : Nat} {bs : List Byte} (h : s.Canon) : (s.bankStore a bs).Canon := h.setBytes
theorem parityFails {s : State} {a : Nat} (h : s.Canon) : (s.parityFails a).Canon := ite h h

theorem bankPerform {s : State} {bank : Nat} {r : MemReq} (h : s.Canon) : (s.bankPerform bank r).1.Canon := by
  fun_cases State.bankPerform s bank r
  case case1 => exact h.ownershipFault
  case case2 => exact h.bankStore
  case case5 => exact h.bankStore.setFld
  case case6 => exact h.setReg.raise
  all_goals exact h

theorem bankTake {s : State} {portA : Bool} {bank : Nat} {r : MemReq} (h : s.Canon) : (s.bankTake portA bank r).Canon := by
  fun_cases State.bankTake s portA bank r
  case case1 => exact h
  all_goals exact { h with last := tput_wf h.last _ _, held := tput_wf h.held _ _ }

theorem bankServe {s : State} {bank : Nat} {r : MemReq} (h : s.Canon) : (s.bankServe bank r).Canon := by
  fun_cases State.bankServe s bank r
  case case2 he => exact (canon_fst he h.bankPerform).answerReq
  case case1 => exact h.answerReq

theorem bankBoth {s : State} {bank : Nat} {a b : MemReq} (h : s.Canon) : (s.bankBoth bank a b).Canon :=
  ite h.bankServe.bankServe (ite h.bankServe.bankServe.bankStore h.bankServe.bankServe)

theorem execBankRequest_canon {portA : Bool} {bank : Fin 64} {bad : Option (Fin 8192)} {s : State} (h : s.Canon) :
    CanonNext (execBankRequest portA bank bad s) := by
  have hhit : ∀ hit : Option Nat, State.Canon (match hit with | some p => s.parityFails p | none => s) := by
    rintro (_ | p)
    · exact h
    · exact h.parityFails
  fun_cases execBankRequest portA bank bad s
  case case1 | case2 => exact .next h
  case case3 => exact .next (hhit _).bankTake.bankServe
  case case4 => exact .next (ite (hhit _).bankTake.bankTake.bankBoth (hhit _).bankTake.bankTake.bankBoth)

theorem bankOwnerWrite_canon {m : Rm} {bank : Nat} {v : W32} {s : State} (h : s.Canon) : (bankOwnerWrite m bank v s).1.Canon :=
  canon_ite (refuse_canon h) (wrote_canon h.plainWrite)
theorem execBankOwnerWrite_canon {m : Rm} {bank : Fin 64} {v : W32} {s : State} (h : s.Canon) :
    CanonNext (execBankOwnerWrite m bank v s) := .next (ringPut_canon h fun _ hu => bankOwnerWrite_canon hu)
theorem ccSelWrite_canon {k : Nat} {v : W32} {s : State} (h : s.Canon) : (ccSelWrite k v s).1.Canon :=
  wrote_canon h.plainWrite.setReg
theorem execCcSelWrite_canon {m : Rm} {k : Fin 16} {v : W32} {s : State} (h : s.Canon) : CanonNext (execCcSelWrite m k v s) :=
  .next (ringPut_canon h fun _ hu => ccSelWrite_canon hu)
theorem ccTick {s : State} {c k : Nat} (h : s.Canon) : (s.ccTick c k).Canon := ite h (ite h.setReg.raise h.setReg)
theorem bankTurnOn {s : State} {bank : Nat} {fromOff : Bool} (h : s.Canon) : (s.bankTurnOn bank fromOff).Canon :=
  { h with wake := tput_wf h.wake _ _ }
theorem bankLose {s : State} {bank : Nat} (h : s.Canon) : (s.bankLose bank).Canon :=
  { h with mem := tkeep_wf h.mem fun p => !(decide (bankBase bank ≤ p) && decide (p < bankBase (bank + 1))) }

theorem execBankWakeComplete_canon {bank : Fin 64} {s : State} (h : s.Canon) : CanonNext (execBankWakeComplete bank s) := by
  refine .ite ?_ (.next h)
  have ht := setDom (s :=
      { s with banks := { s.banks with wake := tput (fun _ => (0, false)) s.banks.wake bank.val (0, false) } })
    (dom := 64 + bank.val) (v := 3) { h with wake := tput_wf h.wake _ _ }
  exact .next (ite ht.bankLose.raise ht)

theorem bistCtrlWrite_canon {m : Rm} {v : W32} {s : State} (h : s.Canon) : (bistCtrlWrite m v s).1.Canon := by
  fun_cases bistCtrlWrite m v s
  case case1 => exact refuse_canon h
  case case2 => exact wrote_canon h.plainWrite.setFld.setReg
  all_goals exact wrote_canon h.plainWrite

theorem execBistGo_canon {m : Rm} {bank : Fin 64} {s : State} (h : s.Canon) : CanonNext (execBistGo m bank s) :=
  .next (ringPut_canon h fun _ hu => bistCtrlWrite_canon hu)
theorem execBistAbort_canon {m : Rm} {s : State} (h : s.Canon) : CanonNext (execBistAbort m s) :=
  .next (ringPut_canon h fun _ hu => bistCtrlWrite_canon hu)

theorem execBistPause_canon {s : State} (h : s.Canon) : CanonNext (execBistPause s) := by
  fun_cases execBistPause s
  case case1 b _ _ =>
    refine .next (setBit ?_)
    exact h
  all_goals exact .next h

theorem execBistResume_canon {s : State} (h : s.Canon) : CanonNext (execBistResume s) := by
  fun_cases execBistResume s
  case case1 => exact .next h.setBit
  all_goals exact .next h

theorem bistTick {s : State} {c : Nat} (h : s.Canon) : (s.bistTick c).Canon := by
  fun_cases State.bistTick s c
  case case2 => exact setFld h
  all_goals exact h

theorem spoil {s : State} {a n : Nat} (h : s.Canon) : (s.spoil a n).Canon := setBytes h

theorem execBistEnd_canon {bad : List (Fin 8192)} {s : State} (h : s.Canon) : CanonNext (execBistEnd bad s) := by
  have hend : ∀ (y : Bist) (l : List Nat) (clean : Nat → Bool), State.Canon
      (let t := l.foldl (fun t w => t.spoil (bankBase y.bank + 32 * w) 32) s
       { t with banks := { t.banks with bist := none, badPar := t.banks.badPar.filter (fun p => !clean p) } }) :=
    fun _ _ _ => (foldl h fun _ _ hu => hu.spoil :)
  fun_cases execBistEnd bad s
  case case1 => exact .next (hend _ _ _).setFld.setBit.setBit.setBit.raise
  case case2 => exact .next (hend _ _ _).setFld.setBit.setBit.setBit.setBit.setFld.raise
  all_goals exact .next h

theorem setDma {s : State} {e : Nat} {x : Dma} (h : s.Canon) : (s.setDma e x).Canon := { h with dma := tput_wf h.dma _ _ }
theorem dmaAsk {s : State} {e tag addr count pri : Nat} {urgent : Bool} {data : Option (List Byte)} (h : s.Canon) :
    (s.dmaAsk e tag addr count pri urgent data).Canon := h.setNi
theorem dmaStop {s : State} {e status : Nat} (h : s.Canon) : (s.dmaStop e status).Canon := h.setBit.setFld.setDma.setBit.raise
theorem dmaFetch {s : State} {e addr : Nat} (h : s.Canon) : (s.dmaFetch e addr).Canon :=
  ite h.setReg.setDma.setDma.dmaAsk h.setReg.setDma.dmaStop
theorem dmaWrote {s : State} {e tag n : Nat} (h : s.Canon) : (s.dmaWrote e tag n).Canon := h.setDma.setFld
theorem dmaData {s : State} {e : Nat} {x : Desc} {p : DmaPiece} {bs : List Byte} (h : s.Canon) : (s.dmaData e x p bs).Canon :=
  ite h.dmWrite.dmaWrote h.setDma.dmaAsk

theorem dmaResponse {s : State} {e : Nat} {r : MemRsp} {tag : Nat} (h : s.Canon) : (s.dmaResponse e r tag).Canon := by
  fun_cases State.dmaResponse s e r tag
  case case1 | case9 => exact h
  case case4 => exact h.setDma.setFld
  case case6 => exact h.dmaWrote
  case case7 => exact h.setDma
  case case8 => exact h.dmaData
  all_goals exact h.dmaStop

theorem dmaTick {s : State} {e : Nat} (h : s.Canon) : (s.dmaTick e).Canon := by
  have hresp : ∀ (o : Option MemRsp) (f : MemRsp → Nat), State.Canon (match o with
      | some r => ({ s with rsps := s.rsps.erase r }).dmaResponse e r (f r)
      | none => s) := by
    rintro (_ | r) f
    · exact h
    · refine dmaResponse ?_
      exact h
  fun_cases State.dmaTick s e
  case case2 => exact (hresp _ _).setDma.dmaData
  case case3 => exact (hresp _ _).setDma.dmaAsk
  all_goals exact hresp _ _

theorem dmaDrained {s : State} {e : Nat} (h : s.Canon) : (s.dmaDrained e).Canon := ite h.setDma.setBit.setBit.setBit.raise h

theorem dmaCtrlWrite_canon {e : Nat} {v : W32} {s : State} (h : s.Canon) : (dmaCtrlWrite e v s).1.Canon :=
  canon_ite (refuse_canon h) (canon_ite (wrote_canon (dmaDrained (ite h.setReg.setDma.disown.setDma h.setReg.setDma)))
    (canon_ite (wrote_canon (dmaFetch (setBit (ite h.setReg.setDma.setBit h.setReg.setDma)))) (wrote_canon (ite
    h.setReg.setDma.setBit h.setReg.setDma))))

theorem dmaPut_canon {m : Rm} {e : Nat} {f : W32 → W32} {s : State} (h : s.Canon) : (dmaPut m e f s).Canon :=
  ringPut_canon h fun _ hu => dmaCtrlWrite_canon hu
theorem execDmaGo_canon {m : Rm} {e : Fin 4} {s : State} (h : s.Canon) : CanonNext (execDmaGo m e s) := .next (dmaPut_canon h)
theorem execDmaDisable_canon {m : Rm} {e : Fin 4} {force : Bool} {s : State} (h : s.Canon) :
    CanonNext (execDmaDisable m e force s) := .next (dmaPut_canon h)
theorem execDmaEnable_canon {m : Rm} {e : Fin 4} {s : State} (h : s.Canon) : CanonNext (execDmaEnable m e s) :=
  .next (dmaPut_canon h)

theorem execDescriptorComplete_canon {e : Fin 4} {s : State} (h : s.Canon) : CanonNext (execDescriptorComplete e s) := by
  fun_cases execDescriptorComplete e s
  case case1 => exact .next (dmaDrained (setDma (ite h.raise h)))
  case case2 => exact .next (setBit (setDma (ite h.raise h)))
  case case4 => exact .next (dmaFetch (ite h.raise h))
  all_goals exact .next h

/-! #### Operations of `Machine/Qdr` -/

theorem setQdr {s : State} {q : Nat} {x : Qdr} (h : s.Canon) : (s.setQdr q x).Canon := { h with qdrs := tput_wf h.qdrs _ _ }
theorem qdrErr {s : State} {q : Nat} {f : Fld} (h : s.Canon) : (s.qdrErr q f).Canon := h.flagRaise
theorem qdrDrained {s : State} {q : Nat} {f : Fld} (h : s.Canon) : (s.qdrDrained q f).Canon := h.flagRaise

theorem qdrWord {s : State} {q w : Nat} {flips : List Nat} (h : s.Canon) : (s.qdrWord q w flips).1.Canon := by
  fun_cases State.qdrWord s q w flips
  case case1 => exact h
  all_goals exact h.satInc.setReg.qdrErr

theorem qdrWords {s : State} {q w : Nat} {flips : List (Nat × Nat)} {a : Nat} (h : s.Canon) :
    (s.qdrWords q w flips a).1.Canon := by
  fun_cases State.qdrWords s q w flips a
  case case2 he _ _ he1 => exact (canon_fst he1 ((canon_fst he h.qdrWords).qdrWord))
  case case1 => exact h

theorem setQdrWord {s : State} {q w : Nat} {d : W64} (h : s.Canon) : (s.setQdrWord q w d).Canon := h.setBytes.setByte
theorem setQdrWords {s : State} {q w : Nat} {l : List W64} (h : s.Canon) : (s.setQdrWords q w l).Canon :=
  foldl h fun _ _ hu => hu.setQdrWord
theorem qdrResult {s : State} {q t : Nat} {payload : Option (BitVec 256)} {cause : Nat} (h : s.Canon) :
    (s.qdrResult q t payload cause).Canon := h.setQdr

theorem qdrServeRead {s : State} {q u : Nat} {flips : List (Nat × Nat)} (h : s.Canon) : (s.qdrServeRead q u flips).1.Canon := by
  fun_cases State.qdrServeRead s q u flips
  case case7 he => exact (canon_fst he h.qdrWords).qdrResult
  case case8 he => exact (canon_fst he h.qdrWords).qdrResult
  case case3 | case4 => exact h.qdrResult
  case case5 | case6 => exact h.qdrErr.qdrResult
  all_goals exact h

theorem qdrServeWrite {s : State} {q u : Nat} {read : Bool} {w : QdrWrite} (h : s.Canon) :
    (s.qdrServeWrite q u read w).1.Canon := canon_ite h (canon_ite h.qdrErr (canon_ite h.qdrErr h.setQdrWords))

theorem execQdrServiceTick_canon {q : Fin 4} {flips : List (Fin 4 × Fin 72)} {s : State} (h : s.Canon) :
    CanonNext (execQdrServiceTick q flips s) := by
  have hw : ∀ (l : List QdrWrite) (u : Nat) (read : Bool) (p : State × Bool), p.1.Canon →
      (l.foldl (fun (a : State × Bool) w => let (b, d) := a.1.qdrServeWrite q.val u (read || a.2) w; (b, a.2 || d)) p).1.Canon
          :=
    fun _ _ _ _ hp => foldl_fst hp fun _ _ hq => hq.qdrServeWrite
  unfold execQdrServiceTick
  dsimp only
  refine .ite (.next h) (.next (setQdr (hw _ _ _ _ ?_)))
  exact canon_ite h h.qdrServeRead

theorem qdrPerform {s : State} {q : Nat} {flips : List (Nat × Nat)} {r : MemReq} (h : s.Canon) :
    (s.qdrPerform q flips r).1.Canon := by
  have hf : ∀ (l : List Nat) (f : Nat → Nat) (g : Nat → List Nat), (l.foldl (fun (a : State × List (Nat × Option W64)) i =>
        let (b, d) := a.1.qdrWord q (f i) (g i)
        (b, a.2 ++ [(i, d)])) (s, [])).1.Canon :=
    fun _ _ _ => foldl_fst h fun _ _ hq => hq.qdrWord
  unfold State.qdrPerform
  extract_lets l first n whole part
  split
  · exact canon_ite (hf _ _ _) (hf _ _ _).setQdrWords
  · have hr : (s.qdrWords q first flips n).1.Canon := h.qdrWords
    split
    · exact canon_fst ‹_› hr
    · exact canon_fst ‹_› hr

theorem execQdrBeRequest_canon {q : Fin 4} {flips : List (Fin 32 × Fin 72)} {s : State} (h : s.Canon) :
    CanonNext (execQdrBeRequest q flips s) := by
  fun_cases execQdrBeRequest q flips s
  case case4 he => exact .next ((canon_fst he (qdrPerform h)).answerReq)
  case case1 => exact .next h
  all_goals exact .next (answerReq h)

theorem svcAdvance {s : State} {q : Nat} (h : s.Canon) : (s.svcAdvance q).Canon := ite h.setFld h

theorem qsDataWrite_canon {q k : Nat} {v : W32} {s : State} (h : s.Canon) : (qsDataWrite q k v s).1.Canon :=
  canon_ite h (canon_ite (refuse_canon h) (canon_ite (wrote_canon h.setReg) (wrote_canon (svcAdvance
    ({ h with qdrSvc := tput_wf h.qdrSvc _ _ })))))

theorem qsDataRead_canon {q k : Nat} {s : State} (h : s.Canon) : (qsDataRead q k s).1.Canon := canon_ite h (ite h.svcAdvance h)
theorem execQsDataWrite_canon {m : Rm} {q : Fin 4} {v : W32} {s : State} (h : s.Canon) : CanonNext (execQsDataWrite m q v s) :=
  .next (ringPut_canon h fun _ hu => qsDataWrite_canon hu)
theorem qdrTrain {s : State} {q : Nat} (h : s.Canon) : (s.qdrTrain q).Canon := ite h h.setFld
theorem qdrTick {s : State} {q : Nat} (h : s.Canon) : (s.qdrTick q).Canon :=
  ite h (ite h.qdrDrained.qdrDrained.setBit (ite h.qdrDrained h))

theorem qCtrlWrite_canon {q : Nat} {v : W32} {s : State} (h : s.Canon) : (qCtrlWrite q v s).1.Canon :=
  wrote_canon (ite (qdrTrain (ite h.setReg.setQdr.setBit.setBit h.setReg.setQdr)) (ite h.setReg.setQdr.setBit.setBit
    h.setReg.setQdr))

theorem qCtrlPut_canon {m : Rm} {q : Nat} {f : W32 → W32} {s : State} (h : s.Canon) : (qCtrlPut m q f s).Canon :=
  ringPut_canon h fun _ hu => qCtrlWrite_canon hu
theorem execQdrRetrain_canon {m : Rm} {q : Fin 4} {s : State} (h : s.Canon) : CanonNext (execQdrRetrain m q s) :=
  .next (qCtrlPut_canon h)
theorem execQdrSlotDisable_canon {m : Rm} {q : Fin 4} {s : State} (h : s.Canon) : CanonNext (execQdrSlotDisable m q s) :=
  .next (qCtrlPut_canon h)
theorem execQdrDisable_canon {m : Rm} {q : Fin 4} {force : Bool} {s : State} (h : s.Canon) :
    CanonNext (execQdrDisable m q force s) := .next (qCtrlPut_canon h)
theorem execQdrEnable_canon {m : Rm} {q : Fin 4} {s : State} (h : s.Canon) : CanonNext (execQdrEnable m q s) :=
  .next (qCtrlPut_canon h)
theorem execQdrTrainEnd_canon {q : Fin 4} {ok : Bool} {s : State} (h : s.Canon) : CanonNext (execQdrTrainEnd q ok s) :=
  .ite (.ite (.next h.setFld) (.next h.setFld.qdrErr)) (.next h)

theorem qLbWrite_canon {q : Nat} {v : W32} {s : State} (h : s.Canon) : (qLbWrite q v s).1.Canon :=
  canon_ite (refuse_canon h) (canon_ite (wrote_canon (foldl (setBit (ite h.plainWrite.setBit.qdrTrain h.plainWrite)) fun _ _ hu
    => hu.setReg)) (wrote_canon (ite h.plainWrite.setBit.qdrTrain h.plainWrite)))

theorem execQdrLbGo_canon {m : Rm} {q : Fin 4} {s : State} (h : s.Canon) : CanonNext (execQdrLbGo m q s) :=
  .next (ringPut_canon h fun _ hu => qLbWrite_canon hu)
theorem execQdrLbDepthWrite_canon {m : Rm} {q : Fin 4} {depth : BitVec 2} {s : State} (h : s.Canon) :
    CanonNext (execQdrLbDepthWrite m q depth s) := .next (ringPut_canon h fun _ hu => qLbWrite_canon hu)
theorem execQdrLbDone_canon {q : Fin 4} {fails : BitVec 144} {s : State} (h : s.Canon) : CanonNext (execQdrLbDone q fails s) :=
  .ite (.next (foldl h.setBit.setBit fun _ _ hu => hu.setReg)) (.next h)

/-! #### Operations of `Machine/Dram` -/

theorem setDs {s : State} {d : Nat} {x : Ds} (h : s.Canon) : (s.setDs d x).Canon := { h with dsets := tput_wf h.dsets _ _ }
theorem setDramState {s : State} {d v : Nat} (h : s.Canon) : (s.setDramState d v).Canon := h.setFld
theorem drFlag {s : State} {d : Nat} {f : Fld} (h : s.Canon) : (s.drFlag d f).Canon := h.flagRaise

theorem dramLose {s : State} {d : Nat} {p : Nat → Bool} (h : s.Canon) : (s.dramLose d p).Canon :=
  { h with mem := tkeep_wf h.mem fun k =>
    if k < 2 ^ 36 then !(dramSet k == d && p k)
    else if 0x2000000000000 ≤ k ∧ k < 0x2000400000000 then
      !(dramSet ((k - 0x2000000000000) / 64 * 256) == d && p ((k - 0x2000000000000) / 64 * 256))
    else true }

theorem errRecord {s : State} {d kind addr master : Nat} {pos : Byte} (h : s.Canon) :
    (s.errRecord d kind addr master pos).Canon := ite h (ite (drFlag (setFld h.setDs)) (setFld h.setDs))
theorem enterErasure {s : State} {d pos : Nat} (h : s.Canon) : (s.enterErasure d pos).Canon := h.setFld.flagRaise
theorem countSymbol {d : Nat} {s : State} {pos : Nat} (h : s.Canon) : (s.countSymbol d pos).Canon :=
  ite h (ite (ite h.satInc.setDs.setFld.flagRaise.enterErasure h.satInc.setDs.setFld.flagRaise) h.satInc.setDs)

theorem readLine {s : State} {d a : Nat} {noise : List SymErr} (h : s.Canon) : (s.readLine d a noise).1.Canon := by
  fun_cases State.readLine s d a noise
  case case1 => exact ite h.satInc.drFlag.flagRaise h.satInc.drFlag
  case case2 => exact h
  case case3 => exact drFlag (foldl h fun _ _ hu => hu.countSymbol)

theorem logRead {s : State} {d addr master bad : Nat} {r : LineRead} (h : s.Canon) : (s.logRead d addr master bad r).Canon := by
  fun_cases State.logRead s d addr master bad r
  case case2 => exact h
  all_goals exact h.errRecord

theorem writeLine {s : State} {a : Nat} {bytes : List Byte} (h : s.Canon) : (s.writeLine a bytes).Canon := h.setBytes.setBytes
theorem countActivate {s : State} {d a master : Nat} (h : s.Canon) : (s.countActivate d a master).Canon :=
  ite h.setDs h.setDs.setDs.setFld.setFld.satInc.setBit.drFlag
theorem openFor {s : State} {d a master : Nat} {pool : Bool} (h : s.Canon) : (s.openFor d a master pool).Canon :=
  setDs (ite h h.countActivate)
theorem kmBack {s : State} {l : KmLine} (h : s.Canon) : (s.kmBack l).Canon := ite h.writeLine h
theorem kmWriteBack {s : State} (h : s.Canon) : s.kmWriteBack.Canon := foldl h fun _ _ hu => hu.kmBack
theorem kmDropSet {s : State} {d : Nat} (h : s.Canon) : (s.kmDropSet d).Canon := foldl h fun _ _ hu => hu.kmBack

theorem kmFetch {s : State} {d mline master : Nat} {pool : Bool} {noise : List SymErr} (h : s.Canon) :
    (s.kmFetch d mline master pool noise).1.Canon := by
  fun_cases State.kmFetch s d mline master pool noise
  case case1 => exact h
  case case2 t hr _ _ => exact (canon_fst hr h.satInc.openFor.readLine).logRead
  case case3 u a v r hr t1 bs hd new same t =>
    have h1 : t1.Canon := (canon_fst hr h.satInc.openFor.readLine).logRead
    clear_value t1
    have h2 : t.Canon := by
      dsimp only [t]
      refine ite h1 ?_
      split
      · exact ite h1.openFor.kmBack h1
      · exact h1
    exact h2

theorem kmStore {s : State} {d mline i : Nat} {ctr : W64} {tag : W32} {key : Nat} (h : s.Canon) :
    (s.kmStore d mline i ctr tag key).Canon := h

theorem dramPlain {s : State} {d : Nat} {pool : Bool} {noise : List SymErr} {r : MemReq} (h : s.Canon) :
    (s.dramPlain d pool noise r).1.Canon := by
  fun_cases State.dramPlain s d pool noise r
  case case2 he _ _ => exact (canon_fst he h.openFor.readLine).logRead
  case case3 he _ _ _ _ => exact ((canon_fst he h.openFor.readLine).logRead).writeLine
  case case4 he _ _ _ _ => exact (canon_fst he h.openFor.readLine).logRead
  case case1 => exact h.openFor.writeLine

theorem kmErr {s : State} {k addr master : Nat} (h : s.Canon) : (s.kmErr k addr master).Canon :=
  setReg (setReg (setReg (ite h.setBit.raise h.flagRaise)))
theorem kmWrite {s : State} {d n kid : Nat} {c : W64} {addr : Nat} {plain : List Byte} (h : s.Canon) :
    (s.kmWrite d n kid c addr plain).Canon := h.writeLine.kmStore

theorem dramMixed {s : State} {d : Nat} {pool : Bool} {noise metaNoise : List SymErr} {r : MemReq} (h : s.Canon) :
    (s.dramMixed d pool noise metaNoise r).1.Canon := by
  have hfail : ∀ (t : State) (part : Bool) (k : Nat), t.Canon → State.Canon
      (let t := t.kmErr k r.addr r.master
       if part then
         let (pos, t) := t.fresh 8
         ((t.errRecord d 3 r.addr r.master pos, 1, []) : State × Nat × List Byte)
       else (t, 1, [])).1 := by
    intro t part k ht
    have hf : ((t.kmErr k r.addr r.master).fresh 8).2.Canon := ht.kmErr.fresh
    exact canon_ite hf.errRecord ht.kmErr
  unfold State.dramMixed
  extract_lets a n kid whole part access fail
  have hacc : ∀ t : State, t.Canon → (access t).Canon := fun _ ht => ht.openFor
  have hbad : ∀ (t : State) (k : Nat), t.Canon → (fail t k).1.Canon := fun t k ht => hfail t part k ht
  clear_value access fail
  refine canon_ite h.kmErr (canon_ite (hbad _ _ h) ?_)
  split
  · exact hbad _ _ (canon_fst ‹_› h.kmFetch)
  next t line hk =>
    have ht : t.Canon := canon_fst hk h.kmFetch
    have hr : ((access t).readLine d a noise).1.Canon := (hacc _ ht).readLine
    dsimp only
    refine canon_ite (canon_ite (hacc _ ht).kmWrite ht) (canon_ite (hbad _ _ ht) (canon_ite (hacc _ ht).kmWrite
      (canon_ite (hbad _ _ ht) ?_)))
    split
    · exact hr.logRead
    · exact canon_ite (hbad _ _ hr.logRead) (canon_ite hr.logRead.kmWrite hr.logRead)

theorem dramDrain {s : State} {d : Nat} (h : s.Canon) : (s.dramDrain d).Canon := by
  fun_cases State.dramDrain s d
  case case3 => exact h.setDramState.setBit.drFlag.setBit.setDs
  all_goals exact h

theorem execDramRequest_canon {d : Fin 4} {noise metaNoise : List SymErr} {s : State} (h : s.Canon) :
    CanonNext (execDramRequest d noise metaNoise s) := by
  fun_cases execDramRequest d noise metaNoise s
  case case6 he => exact .next (((canon_fst he (canon_ite (dramMixed h) (dramPlain h))).answerReq).dramDrain)
  case case2 | case4 => exact .next (dramDrain (answerReq h))
  all_goals exact .next h

theorem execThrottleEnd_canon {d : Fin 4} {master : BitVec 8} {s : State} (h : s.Canon) :
    CanonNext (execThrottleEnd d master s) := .ite (.next h.setDs.setBit) (.next h)
theorem closeBank {s : State} {d bank : Nat} (h : s.Canon) : (s.closeBank d bank).Canon := h.setDs
theorem execPerBankRefresh_canon {d : Fin 4} {s : State} (h : s.Canon) : CanonNext (execPerBankRefresh d s) :=
  .ite (.next h.setDs.closeBank.closeBank) (.next h)
theorem execRowIdlePrecharge_canon {d : Fin 4} {bank : Fin 16} {s : State} (h : s.Canon) :
    CanonNext (execRowIdlePrecharge d bank s) := .ite (.next h.closeBank) (.next h)

theorem execRefreshRatePoll_canon {d : Fin 4} {rates : List (Fin 4)} {s : State} (h : s.Canon) :
    CanonNext (execRefreshRatePoll d rates s) :=
  .ite (.ite (.next (drFlag (setBit (ite h.setDs h.setDs.setFld.drFlag)))) (.next (setBit (ite h.setDs h.setDs.setFld.drFlag))))
    (.next h)

theorem drCtrlWrite_canon {d : Nat} {v : W32} {s : State} (h : s.Canon) : (drCtrlWrite d v s).1.Canon := by
  unfold drCtrlWrite
  extract_lets a st dis rise init t x t1 t2 t3 t4
  have h2 : t2.Canon := ite h.plainWrite.setDs.setDramState h.plainWrite.setDs
  clear_value t2
  have h3 : t3.Canon := h2.setDramState.setBit.setBit
  clear_value t3
  exact canon_ite (refuse_canon h) (canon_ite (wrote_canon (ite h3.setDs h3).drFlag) (wrote_canon h2))

theorem drCtrlPut_canon {m : Rm} {d : Nat} {f : W32 → W32} {s : State} (h : s.Canon) : (drCtrlPut m d f s).Canon :=
  ringPut_canon h fun _ hu => drCtrlWrite_canon hu
theorem execDramInit_canon {m : Rm} {d : Fin 4} {s : State} (h : s.Canon) : CanonNext (execDramInit m d s) :=
  .next (drCtrlPut_canon h)
theorem execDramEnable_canon {m : Rm} {d : Fin 4} {s : State} (h : s.Canon) : CanonNext (execDramEnable m d s) :=
  .next (drCtrlPut_canon h)
theorem execDramDisable_canon {m : Rm} {d : Fin 4} {force : Bool} {s : State} (h : s.Canon) :
    CanonNext (execDramDisable m d force s) := .next (drCtrlPut_canon h)
theorem execDramInitComplete_canon {d : Fin 4} {s : State} (h : s.Canon) : CanonNext (execDramInitComplete d s) :=
  .ite (.next h.setDramState.setDs) (.next h)
theorem drMrWrite_canon {d : Nat} {v : W32} {s : State} (h : s.Canon) : (drMrWrite d v s).1.Canon :=
  canon_ite (refuse_canon h) (canon_ite (wrote_canon h.plainWrite) (wrote_canon (setFld h.plainWrite)))
theorem execModeRegisterAccess_canon {m : Rm} {d : Fin 4} {v : W32} {s : State} (h : s.Canon) :
    CanonNext (execModeRegisterAccess m d v s) := .next (ringPut_canon h fun _ hu => drMrWrite_canon hu)

theorem drTrnWrite_canon {d : Nat} {v : W32} {s : State} (h : s.Canon) : (drTrnWrite d v s).1.Canon :=
  canon_ite (canon_ite (refuse_canon h) (wrote_canon h.plainWrite)) (canon_ite (refuse_canon h) (wrote_canon (foldl
    h.plainWrite.setBit fun _ _ hu => hu.setReg)))

theorem execTrainingRun_canon {m : Rm} {d : Fin 4} {mode : BitVec 3} {devs : BitVec 10} {s : State} (h : s.Canon) :
    CanonNext (execTrainingRun m d mode devs s) := .next (ringPut_canon h fun _ hu => drTrnWrite_canon hu)

theorem freeBytes {s : State} {a : Nat} (h : s.Canon) : (s.freeBytes a).2.Canon := by
  fun_cases State.freeBytes s a
  case case2 he _ _ he1 => exact (canon_snd he1 ((canon_snd he h.fresh).freeBytes))
  case case1 => exact h

theorem arrayLine {d devs : Nat} {s : State} {n : Nat} (h : s.Canon) : (s.arrayLine d devs n).Canon := by
  fun_cases State.arrayLine d devs s n
  case case1 he _ _ _ _ _ => exact ((canon_snd he (canon_ite_snd h.freeBytes h)).setBytes).setBytes

theorem execTrainingRunDone_canon {d : Fin 4} {fails : List (BitVec 18)} {s : State} (h : s.Canon) :
    CanonNext (execTrainingRunDone d fails s) :=
  .ite (.next (drFlag (ite (foldl (foldl h.setBit fun _ _ hu => hu.setReg) fun _ _ hu => hu.arrayLine) (foldl h.setBit fun _ _
    hu => hu.setReg)))) (.next h)

theorem drDlyWrite_canon {d : Nat} {v : W32} {s : State} (h : s.Canon) : (drDlyWrite d v s).1.Canon :=
  canon_ite h (canon_ite (wrote_canon h.setDs) (wrote_canon h))
theorem drDlyRead_canon {d : Nat} {s : State} (h : s.Canon) : (drDlyRead d s).1.Canon := canon_ite h (canon_ite h h)
theorem drCfgWrite_canon {d : Nat} {v : W32} {s : State} (h : s.Canon) : (drCfgWrite d v s).1.Canon :=
  canon_ite (wrote_canon h.plainWrite) (refuse_canon h)
theorem drRhCfgWrite_canon {d : Nat} {v : W32} {s : State} (h : s.Canon) : (drRhCfgWrite d v s).1.Canon :=
  wrote_canon (ite h.plainWrite h.plainWrite.setDs)
theorem drElogCtrlWrite_canon {d : Nat} {v : W32} {s : State} (h : s.Canon) : (drElogCtrlWrite d v s).1.Canon :=
  canon_ite (refuse_canon h) (wrote_canon (ite h.plainWrite.setFld h.plainWrite))
theorem drEccWrite_canon {d : Nat} {v : W32} {s : State} (h : s.Canon) : (drEccWrite d v s).1.Canon :=
  canon_ite (refuse_canon h) (wrote_canon (ite h.plainWrite.raise h.plainWrite))
theorem execDrEccCtrlWrite_canon {m : Rm} {d : Fin 4} {v : W32} {s : State} (h : s.Canon) :
    CanonNext (execDrEccCtrlWrite m d v s) := .next (ringPut_canon h fun _ hu => drEccWrite_canon hu)

theorem drLbWrite_canon {d : Nat} {v : W32} {s : State} (h : s.Canon) : (drLbWrite d v s).1.Canon :=
  canon_ite (canon_ite (refuse_canon h) (canon_ite (wrote_canon h) (wrote_canon h.plainWrite.setDs.setDramState))) (canon_ite
    (wrote_canon h.plainWrite) (wrote_canon h.plainWrite.setDramState.setDs))

theorem execDrLbWrite_canon {m : Rm} {d : Fin 4} {depth : BitVec 2} {s : State} (h : s.Canon) :
    CanonNext (execDrLbWrite m d depth s) := .next (ringPut_canon h fun _ hu => drLbWrite_canon hu)
theorem dramMaskLoss {s : State} {d : Nat} (h : s.Canon) : (s.dramMaskLoss d).Canon := h.dramLose
theorem dramSleep {s : State} {d : Nat} (h : s.Canon) : (s.dramSleep d).Canon :=
  ite h.kmDropSet h.kmDropSet.dramMaskLoss.setDs.setDramState.drFlag
theorem dramWake {s : State} {d : Nat} (h : s.Canon) : (s.dramWake d).Canon :=
  ite h (ite h.setDramState.setDs.drFlag h.setDramState.setDs)
theorem dramOff {s : State} {d : Nat} (h : s.Canon) : (s.dramOff d).Canon :=
  setBit (setDs (resetRegs (ite (ite h.kmDropSet h.kmDropSet.dramMaskLoss) h.kmDropSet.dramLose)))

theorem kmCtrlWrite_canon {v : W32} {s : State} (h : s.Canon) : (kmCtrlWrite v s).1.Canon := by
  unfold kmCtrlWrite
  extract_lets old new retire calm ready t t1 t2 t3
  have ht : t.Canon := h.plainWrite
  clear_value t
  have h1 : t1.Canon := ht.setBit.setBit
  clear_value t1
  have h2 : t2.Canon := ite h1 ht
  clear_value t2
  have h3 : t3.Canon := ite h2.setBit h2
  exact canon_ite (refuse_canon h) (canon_ite (wrote_canon h3.setBit.setFld) (wrote_canon h3))

theorem kmCtrlPut_canon {m : Rm} {f : W32 → W32} {s : State} (h : s.Canon) : (kmCtrlPut m f s).Canon :=
  ringPut_canon h fun _ hu => kmCtrlWrite_canon hu
theorem execKeyedMixEnable_canon {m : Rm} {en : Bool} {s : State} (h : s.Canon) : CanonNext (execKeyedMixEnable m en s) :=
  .next (kmCtrlPut_canon h)
theorem execKmFlush_canon {m : Rm} {s : State} (h : s.Canon) : CanonNext (execKmFlush m s) := .next (kmCtrlPut_canon h)
theorem execKmRetire_canon {m : Rm} {k : Fin 16} {s : State} (h : s.Canon) : CanonNext (execKmRetire m k s) :=
  .next (kmCtrlPut_canon h)
theorem execKmFillStart_canon {s : State} (h : s.Canon) : CanonNext (execKmFillStart s) := .ite (.next h.setBit) (.next h)
theorem km_canon {s : State} {l : List KmLine} (h : s.Canon) : State.Canon { s with km := l } := h

theorem execKmFillComplete_canon {s : State} (h : s.Canon) : CanonNext (execKmFillComplete s) := by
  have ht : ∀ l : List Nat, ∀ p : Nat → Bool, (l.foldl (fun t d => t.dramLose d p) s).Canon :=
    fun _ _ => foldl h fun _ _ hu => hu.dramLose
  unfold execKmFillComplete
  exact .ite (.next (km_canon (ht _ _).setBit).flagRaise) (.next h)

theorem execKmFlushComplete_canon {s : State} (h : s.Canon) : CanonNext (execKmFlushComplete s) :=
  .ite (.next h.kmWriteBack.setBit.raise) (.next h)

theorem kmScan {k : Nat} {s : State} {x : Nat × Nat} (h : s.Canon) : (s.kmScan k x).Canon := by
  fun_cases State.kmScan k s x
  case case3 he _ => exact (canon_fst he h.readLine)
  case case4 he _ _ _ => exact (canon_fst he h.readLine)
  case case5 he _ _ _ => exact (canon_fst he h.readLine).writeLine
  all_goals exact h

theorem execKmRetireComplete_canon {s : State} (h : s.Canon) : CanonNext (execKmRetireComplete s) := by
  fun_cases execKmRetireComplete s
  case case1 he _ _ => exact .next (raise (setBit (setBit (foldl ((canon_snd he (fresh (foldl h fun _ _ hu =>
      hu.kmScan))).setReg) fun _ _ hu => hu.setReg))))
  case case2 => exact .next h

theorem kmSlotWrite_canon {k : Nat} {v : W32} {s : State} (h : s.Canon) : (kmSlotWrite k v s).1.Canon :=
  canon_ite (refuse_canon h) (wrote_canon h.plainWrite)
theorem execKmSlotWrite_canon {m : Rm} {k : Fin 16} {v : W32} {s : State} (h : s.Canon) : CanonNext (execKmSlotWrite m k v s) :=
  .next (ringPut_canon h fun _ hu => kmSlotWrite_canon hu)
theorem kmKeyWrite_canon {i : Nat} {v : W32} {s : State} (h : s.Canon) : (kmKeyWrite i v s).1.Canon :=
  canon_ite (refuse_canon h) (wrote_canon h.setReg)
theorem execKmKeyWrite_canon {m : Rm} {k : Fin 16} {w : Fin 4} {v : W32} {s : State} (h : s.Canon) :
    CanonNext (execKmKeyWrite m k w v s) := .next (ringPut_canon h fun _ hu => kmKeyWrite_canon hu)

theorem kmMcmdWrite_canon {m : Rm} {noise : List SymErr} {v : W32} {s : State} (h : s.Canon) :
    (kmMcmdWrite m noise v s).1.Canon := by
  fun_cases kmMcmdWrite m noise v s
  case case6 he => exact wrote_canon ((canon_fst he (kmFetch (ite h.plainWrite h))).kmErr)
  case case7 he _ _ _ _ _ _ => exact wrote_canon (((((canon_fst he (kmFetch (ite h.plainWrite
      h))).setReg).setReg).setReg).setFld)
  case case8 he _ => exact wrote_canon ((canon_fst he (kmFetch (ite h.plainWrite h))).kmStore)
  case case2 => exact wrote_canon h.plainWrite
  case case4 => exact h
  case case5 => exact wrote_canon h
  all_goals exact refuse_canon h

theorem execMetadataRead_canon {m : Rm} {metaNoise : List SymErr} {s : State} (h : s.Canon) :
    CanonNext (execMetadataRead m metaNoise s) := .next (ringPut_canon h fun _ hu => kmMcmdWrite_canon hu)
theorem execMetadataWrite_canon {m : Rm} {key : BitVec 4} {metaNoise : List SymErr} {s : State} (h : s.Canon) :
    CanonNext (execMetadataWrite m key metaNoise s) := .next (ringPut_canon h fun _ hu => kmMcmdWrite_canon hu)

/-! #### Operations of `Machine/Analog` -/

theorem setAb {s : State} {n : Nat} {x : Ab} (h : s.Canon) : (s.setAb n x).Canon := { h with blocks := tput_wf h.blocks _ _ }
theorem abFlag {s : State} {n : Nat} {f : Fld} (h : s.Canon) : (s.abFlag n f).Canon := h.flagRaise
theorem setAbState {s : State} {n v : Nat} (h : s.Canon) : (s.setAbState n v).Canon := h.setFld

theorem swapCtrlWrite_canon {v : W32} {s : State} (h : s.Canon) : (swapCtrlWrite v s).1.Canon := by
  have hs : ∀ (u : State) (x : Option Swap), u.Canon → State.Canon { u with ana := { u.ana with swap := x } } :=
    fun _ _ hu => (hu :)
  unfold swapCtrlWrite
  extract_lets w armed arm cancel edge mat tooLate t a t1 x a1
  have ht : t.Canon := h.plainWrite
  clear_value t
  have h1 : t1.Canon := ite (hs _ _ ht).setBit ht
  clear_value t1
  exact canon_ite (refuse_canon h) (canon_ite (wrote_canon (hs _ _ h1).setBit) (wrote_canon h1))

theorem execSwapArm_canon {m : Rm} {edge mat : Bool} {s : State} (h : s.Canon) : CanonNext (execSwapArm m edge mat s) :=
  .next (ringPut_canon h fun _ hu => swapCtrlWrite_canon hu)
theorem execSwapCancel_canon {m : Rm} {s : State} (h : s.Canon) : CanonNext (execSwapCancel m s) :=
  .next (ringPut_canon h fun _ hu => swapCtrlWrite_canon hu)

theorem execAcSwapEdge_canon {s : State} (h : s.Canon) : CanonNext (execAcSwapEdge s) := by
  fun_cases execAcSwapEdge s
  all_goals exact .next h

theorem swapBlock {w : Nat} {s : State} {n : Nat} (h : s.Canon) : (s.swapBlock w n).Canon := h.setReg.setReg.setReg.setReg.setAb
theorem setIc {s : State} {n : Nat} {x : Ic} (h : s.Canon) : (s.setIc n x).Canon := { h with ics := tput_wf h.ics _ _ }

theorem disturb {s : State} {n : Nat} (h : s.Canon) : (s.disturb n).Canon := by
  fun_cases State.disturb s n
  case case1 => exact h.setIc
  all_goals exact h

theorem execSwapTake_canon {s : State} (h : s.Canon) : CanonNext (execSwapTake s) := by
  have hs : State.Canon { s with ana := { s.ana with swap := none } } := h
  fun_cases execSwapTake s
  case case1 => exact .next hs.setBit.setFld.setFld.setFld.setBit.raise
  case case2 t0 _ t1 t2 =>
    have h1 : t1.Canon := foldl hs.setBit fun _ _ hu => hu.swapBlock
    clear_value t1
    have h2 : t2.Canon := ite (foldl (foldl h1 fun _ _ hu => hu.setReg) fun _ _ hu => hu.disturb) h1
    exact .next h2.setBit.raise
  all_goals exact .next h

theorem abShadowWrite_canon {n a : Nat} {v : W32} {s : State} (h : s.Canon) : (abShadowWrite n a v s).1.Canon :=
  canon_ite (refuse_canon h) (wrote_canon h.plainWrite)

theorem swPinWrite_canon {a : Nat} {v : W32} {s : State} (h : s.Canon) : (swPinWrite a v s).1.Canon := by
  fun_cases swPinWrite a v s
  case case1 => exact refuse_canon h
  all_goals exact wrote_canon h.plainWrite

theorem abStartCal {s : State} {n : Nat} (h : s.Canon) : (s.abStartCal n).Canon := h.setAb.setBit.setAbState
theorem abEndRun {s : State} {n : Nat} (h : s.Canon) : (s.abEndRun n).Canon := ite h.setAb.abStartCal h.setAb.setAbState
theorem abBegin {s : State} {n : Nat} {r : AbRun} (h : s.Canon) : (s.abBegin n r).Canon := h.setAb.setAbState
theorem abQueue {s : State} {n first : Nat} (h : s.Canon) : (s.abQueue n first).Canon := h.setAb.setBit
theorem abWord {s : State} {n dest : Nat} {w : W32} (h : s.Canon) : (s.abWord n dest w).Canon :=
  ite (ite h.abFlag h.setAb) (ite h.abFlag (ite h.setAb.raise h.setAb))

theorem abStop {s : State} {n : Nat} (h : s.Canon) : (s.abStop n).Canon := by
  fun_cases State.abStop s n
  all_goals grind [setBit, setAb, abWord, abEndRun]

theorem abCmdWrite_canon {n : Nat} {v : W32} {s : State} (h : s.Canon) : (abCmdWrite n v s).1.Canon := by
  unfold abCmdWrite
  extract_lets s1 cal x1 queuedCal s2 x2
  have h1 : s1.Canon := ite h.abStop h
  clear_value s1
  have h2 : s2.Canon := ite h1 (ite h1.setBit h1.abStartCal)
  clear_value s2
  refine canon_ite (refuse_canon h) (canon_ite (wrote_canon h2) (canon_ite (refuse_canon h) ?_))
  split
  · exact refuse_canon h.abFlag
  · exact canon_ite (wrote_canon h2.abQueue) (wrote_canon h2.abBegin)

theorem execAbRun_canon {m : Rm} {n : Fin 48} {atStart : Bool} {s : State} (h : s.Canon) :
    CanonNext (execAbRun m n atStart s) := .next (ringPut_canon h fun _ hu => abCmdWrite_canon hu)
theorem execAbStop_canon {m : Rm} {n : Fin 48} {s : State} (h : s.Canon) : CanonNext (execAbStop m n s) :=
  .next (ringPut_canon h fun _ hu => abCmdWrite_canon hu)
theorem execAbCal_canon {m : Rm} {n : Fin 48} {s : State} (h : s.Canon) : CanonNext (execAbCal m n s) :=
  .next (ringPut_canon h fun _ hu => abCmdWrite_canon hu)
theorem execAbTriggerEdge_canon {n : Fin 48} {comparator : Bool} {s : State} (h : s.Canon) :
    CanonNext (execAbTriggerEdge n comparator s) := .ite (.ite (.next h.abQueue) (.next h.abBegin)) (.next h)
theorem eitherWay {s : State} {num : Int} {den : Nat} (h : s.Canon) : (s.eitherWay num den).2.Canon := canon_ite_snd h h

theorem abCorrect_snd {s : State} {n : Nat} {raw : Int} (h : s.Canon) : (s.abCorrect n raw).2.2.Canon := by
  unfold State.abCorrect
  exact h.eitherWay

theorem execAbSample_canon {n : Fin 48} {raw : BitVec 20} {s : State} (h : s.Canon) : CanonNext (execAbSample n raw s) := by
  fun_cases execAbSample n raw s
  case case2 code ovr t ht _ _ _ t1 =>
    have h0 : t.Canon := by
      have hc := h.abCorrect_snd (n := n) (raw := raw.toInt)
      rwa [ht] at hc
    have h1 : t1.Canon := h0.setAb.setAbState
    clear_value t1
    exact .next (ite h1.abEndRun.abFlag h1)
  all_goals exact .next h

theorem execAbResultEnter_canon {n : Fin 48} {s : State} (h : s.Canon) : CanonNext (execAbResultEnter n s) := by
  fun_cases execAbResultEnter n s
  case case1 | case7 => exact .next h
  case case3 => exact .next (abWord (setAb (ite h.setAb.abFlag h.setAb)))
  case case5 => exact .next (setAb (ite h.setAb.abFlag h.setAb))
  all_goals exact .next (abWord (ite h.setAb.abFlag h.setAb))

theorem abResultRead_canon {m : Rm} {n : Nat} {s : State} (h : s.Canon) : (abResultRead m n s).1.Canon := by
  fun_cases abResultRead m n s
  case case1 => exact h
  case case2 => exact h.abFlag
  case case3 => exact h.setAb

theorem execAbResultRead_canon {m : Rm} {n : Fin 48} {s : State} (h : s.Canon) : CanonNext (execAbResultRead m n s) :=
  .next (ringDo_canon h fun _ hu => abResultRead_canon hu)
theorem abResume {s : State} {n f : Nat} (h : s.Canon) : (s.abResume n f).Canon :=
  ite h.setAb.setBit.abBegin h.setAb.setBit.abBegin.abFlag

theorem execAbCalEnd_canon {n : Fin 48} {amp adc : W32} {s : State} (h : s.Canon) : CanonNext (execAbCalEnd n amp adc s) := by
  fun_cases execAbCalEnd n amp adc s
  case case2 => exact .next h.setReg.setReg.setAb.setAbState.abFlag.abStartCal
  case case3 => exact .next h.setReg.setReg.setAb.setAbState.abFlag.abResume
  case case4 => exact .next h.setReg.setReg.setAb.setAbState.abFlag
  all_goals exact .next h

theorem abCalWrite_canon {n a : Nat} {v : W32} {s : State} (h : s.Canon) : (abCalWrite n a v s).1.Canon :=
  canon_ite (refuse_canon h) (wrote_canon h.plainWrite)
theorem execAbCalWrite_canon {m : Rm} {n : Fin 48} {adc : Bool} {v : W32} {s : State} (h : s.Canon) :
    CanonNext (execAbCalWrite m n adc v s) := .next (ringPut_canon h fun _ hu => abCalWrite_canon hu)
theorem abRunRegWrite_canon {n a : Nat} {v : W32} {s : State} (h : s.Canon) : (abRunRegWrite n a v s).1.Canon :=
  canon_ite (refuse_canon h) (wrote_canon h.plainWrite)
theorem asAdvance {s : State} (h : s.Canon) : s.asAdvance.Canon := ite h.setFld h
theorem asDataWrite_canon {k : Nat} {v : W32} {s : State} (h : s.Canon) : (asDataWrite k v s).1.Canon :=
  canon_ite (refuse_canon h) (canon_ite (wrote_canon h.setReg) (wrote_canon h.setPs.setOk.asAdvance))
theorem asDataRead_canon {k : Nat} {s : State} (h : s.Canon) : (asDataRead k s).1.Canon := ite h.asAdvance h
theorem execAsDataWrite_canon {m : Rm} {v : W32} {s : State} (h : s.Canon) : CanonNext (execAsDataWrite m v s) :=
  .next (ringPut_canon h fun _ hu => asDataWrite_canon hu)

theorem afClkWrite_canon {k : Nat} {v : W32} {s : State} (h : s.Canon) : (afClkWrite k v s).1.Canon :=
  canon_ite (refuse_canon h) (wrote_canon
    ({ h.plainWrite with afOld := tput_wf h.plainWrite.afOld _ _, afSwitch := tput_wf h.plainWrite.afSwitch _ _ }))

theorem execAfClkWrite_canon {m : Rm} {k : Fin 4} {v : W32} {s : State} (h : s.Canon) : CanonNext (execAfClkWrite m k v s) :=
  .next (ringPut_canon h fun _ hu => afClkWrite_canon hu)
theorem anaTick {s : State} (h : s.Canon) : s.anaTick.Canon := ite (foldl h fun _ _ hu => ite hu hu.setAb) h
theorem abHalt {s : State} {n : Nat} (h : s.Canon) : (s.abHalt n).Canon := ite h h.setAb.setBit.setBit.setAbState

/-! #### Operations of `Machine/Convert` -/

theorem icFlag {s : State} {n : Nat} {f : Fld} (h : s.Canon) : (s.icFlag n f).Canon := h.flagRaise
theorem syncIc {s : State} {n : Nat} (h : s.Canon) : (s.syncIc n).Canon := h.setFld.setBit
theorem putIc {s : State} {n : Nat} {x : Ic} (h : s.Canon) : (s.putIc n x).Canon := h.setIc.syncIc
theorem icStartCal {s : State} {n t : Nat} (h : s.Canon) : (s.icStartCal n t).Canon := h.setBit.setFld.putIc

theorem icCmdWrite_canon {n : Nat} {v : W32} {s : State} (h : s.Canon) : (icCmdWrite n v s).1.Canon := by
  fun_cases icCmdWrite n v s
  case case2 => exact wrote_canon (ite (ite h.putIc h) (ite (setBit (ite h.putIc h)) (icStartCal (ite h.putIc h))))
  case case4 => exact refuse_canon (ite h h.icFlag)
  case case5 | case6 => exact wrote_canon (putIc (ite (ite h.putIc h) (ite (setBit (ite h.putIc h)) (icStartCal (ite h.putIc
      h)))))
  all_goals exact refuse_canon h

theorem execIcRun_canon {m : Rm} {n : Fin 16} {atStart : Bool} {s : State} (h : s.Canon) :
    CanonNext (execIcRun m n atStart s) := .next (ringPut_canon h fun _ hu => icCmdWrite_canon hu)
theorem execIcStop_canon {m : Rm} {n : Fin 16} {s : State} (h : s.Canon) : CanonNext (execIcStop m n s) :=
  .next (ringPut_canon h fun _ hu => icCmdWrite_canon hu)
theorem execIcCal_canon {m : Rm} {n : Fin 16} {s : State} (h : s.Canon) : CanonNext (execIcCal m n s) :=
  .next (ringPut_canon h fun _ hu => icCmdWrite_canon hu)
theorem icBegin {s : State} {n tick : Nat} {r : IcRun} (h : s.Canon) : (s.icBegin n tick r).Canon := h.putIc

theorem execConversionStart_canon {n : Fin 16} {s : State} (h : s.Canon) : CanonNext (execConversionStart n s) := by
  fun_cases execConversionStart n s
  case case4 => exact .next h.setIc.icFlag
  case case5 => exact .next h.icBegin
  all_goals exact .next h

theorem icPhase {s : State} {n from' to' due : Nat} (h : s.Canon) : (s.icPhase n from' to' due).Canon := by
  fun_cases State.icPhase s n from' to' due
  case case1 => exact h.setIc
  all_goals exact h

theorem execInputIntegrationEnd_canon {n : Fin 16} {s : State} (h : s.Canon) : CanonNext (execInputIntegrationEnd n s) := by
  fun_cases execInputIntegrationEnd n s
  case case1 => exact .next h.icPhase
  case case2 => exact .next h

theorem execResidueStart_canon {n : Fin 16} {s : State} (h : s.Canon) : CanonNext (execResidueStart n s) := .next h.icPhase
theorem icPush {s : State} {n : Nat} {r : IcResult} (h : s.Canon) : (s.icPush n r).Canon :=
  ite h.icFlag (ite h.setIc.raise h.setIc)

theorem execConversionEnd_canon {n : Fin 16} {raw : BitVec 40} {s : State} (h : s.Canon) :
    CanonNext (execConversionEnd n raw s) := by
  fun_cases execConversionEnd n raw s
  case case2 c _ fin _ v ovr _ t0 t1 t2 count done run t3 t4 =>
    have h1 : t1.Canon := ite h.icPush.icFlag h.icPush
    clear_value t1
    have h2 : t2.Canon := ite h1.icFlag h1
    clear_value t2
    have h4 : t4.Canon := ite h2.putIc.icFlag h2.putIc
    clear_value t4
    exact .next (ite h4.icStartCal h4)
  all_goals exact .next h

theorem icResultRead_canon {m : Rm} {n : Nat} {s : State} (h : s.Canon) : (icResultRead m n s).1.Canon := by
  fun_cases icResultRead m n s
  case case2 => exact h.icFlag
  case case4 => exact h.setIc
  all_goals exact h

theorem execIcResultRead_canon {m : Rm} {n : Fin 16} {s : State} (h : s.Canon) : CanonNext (execIcResultRead m n s) :=
  .next (ringDo_canon h fun _ hu => icResultRead_canon hu)
theorem icResume {s : State} {n e : Nat} {r : IcRun} (h : s.Canon) : (s.icResume n e r).Canon :=
  ite h.putIc (ite h.putIc (ite h.putIc.icFlag h.putIc.icFlag))

theorem execIcCalEnd_canon {n : Fin 16} {zero ref : BitVec 40} {s : State} (h : s.Canon) :
    CanonNext (execIcCalEnd n zero ref s) := by
  have hcal : ∀ (p : Prop) [Decidable p] (num : Int) (den : Nat), State.Canon (if p then s.eitherWay num den else (0, s)).2 :=
    fun _ _ _ _ => canon_ite_snd h.eitherWay h
  unfold execIcCalEnd
  extract_lets n x
  split
  · exact .next h
  refine .ite ?_ (.next h)
  extract_lets
  split
  next gain t0 he =>
    extract_lets bad t1 t2
    have h0 : t0.Canon := canon_snd he (hcal _ _ _)
    have h1 : t1.Canon := ite h0.icFlag h0.setReg.setReg
    clear_value t1
    have h2 : t2.Canon := h1.putIc.icFlag
    clear_value t2
    refine .ite (.next h2.icStartCal) ?_
    split
    · exact .next h2.icResume
    · exact .next h2.icResume
    · exact .next h2

theorem icCfgWrite_canon {n : Nat} {v : W32} {s : State} (h : s.Canon) : (icCfgWrite n v s).1.Canon :=
  canon_ite (refuse_canon h) (wrote_canon h.plainWrite)
theorem icRunRegWrite_canon {n a : Nat} {v : W32} {s : State} (h : s.Canon) : (icRunRegWrite n a v s).1.Canon :=
  canon_ite (refuse_canon h) (wrote_canon h.plainWrite)
theorem icFactorWrite_canon {n a : Nat} {v : W32} {s : State} (h : s.Canon) : (icFactorWrite n a v s).1.Canon :=
  canon_ite (refuse_canon h) (wrote_canon h.plainWrite)
theorem msPeriodWrite_canon {v : W32} {s : State} (h : s.Canon) : (msPeriodWrite v s).1.Canon :=
  canon_ite (wrote_canon h.plainWrite) (refuse_canon h)
theorem msCalWrite_canon {v : W32} {s : State} (h : s.Canon) : (msCalWrite v s).1.Canon :=
  canon_ite (wrote_canon h.plainWrite) (refuse_canon h)
theorem refValWrite_canon {a : Nat} {v : W32} {s : State} (h : s.Canon) : (refValWrite a v s).1.Canon :=
  canon_ite (refuse_canon h) (wrote_canon h.plainWrite)
theorem refLoopWrite_canon {v : W32} {s : State} (h : s.Canon) : (refLoopWrite v s).1.Canon :=
  canon_ite (refuse_canon h) (wrote_canon h.plainWrite)
theorem mainsUnlock {s : State} (h : s.Canon) : s.mainsUnlock.Canon := ite h.setBit.flagRaise h

theorem mainsPeriod {s : State} {p : Nat} (h : s.Canon) : (s.mainsPeriod p).Canon := by
  fun_cases State.mainsPeriod s p
  case case1 he _ _ => exact (canon_snd he (eitherWay (ite h.mainsUnlock h))).setFld
  case case2 he _ _ => exact (((canon_snd he (eitherWay (ite h.mainsUnlock h))).setFld).setBit).flagRaise
  case case3 => exact ite h.mainsUnlock h

theorem crossStart {s : State} {n : Nat} (h : s.Canon) : (s.crossStart n).Canon := by
  fun_cases State.crossStart s n
  case case1 => exact h.icBegin
  all_goals exact h

theorem execMainsCrossing_canon {s : State} (h : s.Canon) : CanonNext (execMainsCrossing s) := by
  unfold execMainsCrossing
  refine .ite (.next (foldl ?_ fun _ _ hu => hu.crossStart)) (.next h)
  split
  · exact (h.mainsPeriod :)
  · exact h

theorem execMainsUnlockTimeout_canon {s : State} (h : s.Canon) : CanonNext (execMainsUnlockTimeout s) := by
  have hm := h.mainsUnlock
  fun_cases execMainsUnlockTimeout s
  case case1 => exact .next { hm with blocks := h.blocks, ics := h.ics, afOld := h.afOld, afSwitch := h.afSwitch }
  all_goals exact .next h

theorem icHalt {s : State} {n : Nat} (h : s.Canon) : (s.icHalt n).Canon := ite h h.setBit.putIc
theorem anaHalt {s : State} (h : s.Canon) : s.anaHalt.Canon := foldl (foldl h fun _ _ hu => hu.abHalt) fun _ _ hu => hu.icHalt

/-! #### Operations of `Machine/Inject` -/

theorem takeStaged {s : State} {d n : Nat} (h : s.Canon) : (s.takeStaged d n).1.Canon := by
  fun_cases State.takeStaged s d n
  all_goals exact h.setNi

theorem takeEntry {s : State} {src : Nat} (h : s.Canon) : (s.takeEntry src).1.Canon :=
  canon_ite h.takeStaged (canon_ite h.flagRaise (canon_ite h.flagRaise h.setAb))

theorem takeClient {s : State} {n t : Nat} (h : s.Canon) : (s.takeClient n t).1.Canon := by
  fun_cases State.takeClient s n t
  case case1 => exact h.setThr
  case case3 => exact h.setQdr
  all_goals exact h

theorem offer {s : State} {d n t : Nat} {x : Inj} (h : s.Canon) : (s.offer d n t x).1.Canon :=
  canon_ite h (canon_ite h (canon_ite h.takeClient (canon_ite h.takeEntry (canon_ite h h.takeStaged))))
theorem launch {s : State} {d n : Nat} {f : Flit} (h : s.Canon) : (s.launch d n f).Canon :=
  ite h.useOut.useOut.send h.useOut.send

theorem launchLoop {s : State} {d n bank : Nat} {x : Inj} (h : s.Canon) : (s.launchLoop d n bank x).Canon := by
  fun_cases State.launchLoop s d n bank x
  case case1 he => exact (canon_fst he (canon_ite h.takeEntry h.takeStaged)).send

theorem missSends {s : State} {n t : Nat} (h : s.Canon) : (s.missSends n t).Canon := by
  fun_cases State.missSends s n t
  case case2 => exact h.setThr.coreFlag
  all_goals exact h

theorem injectTick {s : State} {d n : Nat} (h : s.Canon) : (s.injectTick d n).Canon := by
  have hl : ∀ (x : Inj) (y : Ni) (l : List Inj), (l.foldl (fun u z => u.logFault 1 x.flow z.flow d n 0) (s.setNi d n y)).Canon
      :=
    fun _ _ _ => foldl h.setNi fun _ _ hu => hu.logFault
  fun_cases State.injectTick s d n
  case case1 => exact h
  case case2 => exact h.setNi.missSends
  case case3 => exact h.setNi
  case case4 t0 o he t1 t2 _ =>
    have h0 : t0.Canon := canon_fst he (hl _ _ _).offer
    exact launchLoop (launch (ite h0.setNi h0))
  case case5 t0 o he t1 t2 _ =>
    have h0 : t0.Canon := canon_fst he (hl _ _ _).offer
    exact launch (ite h0.setNi h0)

theorem execSlotInject_canon {i : NiId} {s : State} (h : s.Canon) : CanonNext (execSlotInject i s) := .next h.injectTick
theorem execSendAtInject_canon {c : Fin 8} {s : State} (h : s.Canon) : CanonNext (execSendAtInject c s) :=
  .ite (.next h.injectTick) (.next h)

theorem toClient {s : State} {d n : Nat} {x : Exp} {f : Flit} (h : s.Canon) : (s.toClient d n x f).Canon := by
  fun_cases State.toClient s d n x f
  case case1 => exact h.setNi
  case case2 => exact h.setQdr
  case case5 => exact h.egressPush
  all_goals exact h

theorem meet {d n : Nat} {cause : Option Nat} {here : List Item} {s : State} {x : Exp} (h : s.Canon) :
    (s.meet d n cause here x).Canon := by
  fun_cases State.meet d n cause here s x
  case case1 => exact h.toClient
  case case2 => exact toClient (ite h h.logFault)

theorem takeAt {s : State} {loc : Loc} (h : s.Canon) : (s.takeAt loc).2.Canon := h

theorem egressTick {s : State} {d n : Nat} (h : s.Canon) : (s.egressTick d n).Canon :=
  ite h (ite (foldl h.setNi fun _ _ hu => hu.egressPush) (ite h.setNi (foldl (foldl h.setNi fun _ _ hu => hu.logFault) fun _ _
    hu => hu.meet)))

theorem execEgressCheck_canon {i : NiId} {s : State} (h : s.Canon) : CanonNext (execEgressCheck i s) := .next h.egressTick

/-! #### Operations of `Machine/Lose` -/

theorem loseTables {s : State} {d : Nat} (h : s.Canon) : (s.loseTables d).Canon := by
  unfold State.loseTables
  extract_lets t p t1 t2
  have ht : t.Canon := h.abandonCommit
  clear_value t
  have h1 : t1.Canon := { ht with store := tkeep_wf ht.store fun k => psKeyDie k != d }
  clear_value t1
  exact ite h1.setOk.setOk.setBit h1.setOk.setOk

theorem loseNis {s : State} {d : Nat} (h : s.Canon) : (s.loseNis d).Canon := { h with
    nis := tkeep_wf h.nis fun k => k / 64 != d
    usedOrd := tkeep_wf h.usedOrd fun k => k / 1024 != d
    usedRsv := tkeep_wf h.usedRsv fun k => k / 1024 != d
    charges := tkeep_wf h.charges fun k => k / 1024 != d
    lastOut := tkeep_wf h.lastOut fun k => k / 512 != d
    lastIn := tkeep_wf h.lastIn fun k => k / 1024 != d }

theorem purgeFlight {s : State} {d : Nat} (h : s.Canon) : (s.purgeFlight d).Canon := h
theorem awaitRejoin {s : State} {d : Nat} (h : s.Canon) : (s.awaitRejoin d).Canon := syncBreach (syncShadowOk h)

theorem unconfigure {s : State} {d : Nat} (h : s.Canon) : (s.unconfigure d).Canon := by
  unfold State.unconfigure
  extract_lets t
  have ht : t.Canon := h.clearFrames.setDie
  clear_value t
  exact { ht with
    startAt := tkeep_wf ht.startAt fun k => k != d
    stage := tkeep_wf ht.stage fun k => k != d
    holds := tkeep_wf ht.holds fun k => k / 16 != d
    upsets := tkeep_wf ht.upsets fun k => k != d
    capture := tkeep_wf ht.capture fun k => k != d }

/-! #### Operations of `Machine/Power` -/

theorem fabricReturns {s : State} {d : Nat} (h : s.Canon) : (s.fabricReturns d).Canon := ite h.setDie.checkDone h
theorem lanesReturn {s : State} {d : Nat} (h : s.Canon) : (s.lanesReturn d).Canon := foldl h fun _ _ hu => ite hu (setReg hu)
theorem portReturns {s : State} {p : Nat} (h : s.Canon) : (s.portReturns p).Canon := ite h (ite h.portTrain h.portStage)

theorem turnOn {s : State} {dom : Nat} (h : s.Canon) : (s.turnOn dom).Canon := by
  fun_cases State.turnOn s dom
  case case1 => exact bankTurnOn h
  case case3 => exact qdrTrain (setDom h)
  case case5 | case9 => exact setDom h
  case case6 => exact portReturns (setDom h)
  case case7 => exact lanesReturn (setDom h)
  case case8 => exact fabricReturns (setDom h)
  all_goals exact h

theorem askOn {s : State} {dom : Nat} (h : s.Canon) : (s.askOn dom).Canon := ite h h.setDom
theorem rise {s : State} {dom e : Nat} (h : s.Canon) : (s.rise dom e).Canon := ite h (ite (turnOn h) h)

theorem riseTick {s : State} (h : s.Canon) : s.riseTick.Canon := by
  refine foldl h fun u x hu => ?_
  split
  · exact hu.rise
  · exact hu

theorem pwrDone {s : State} (h : s.Canon) : s.pwrDone.Canon := h.setBit.raise
theorem drainWakes {s : State} (h : s.Canon) : s.drainWakes.Canon := ite h (foldl h fun _ _ hu => hu.askOn.pwrDone)

theorem pwrReqWrite_canon {v : W32} {s : State} (h : s.Canon) : (pwrReqWrite v s).1.Canon := by
  unfold pwrReqWrite
  refine canon_ite (refuse_canon h) (canon_ite (wrote_canon h.pwrDone) (canon_ite (wrote_canon h.askOn.pwrDone) (wrote_canon
      (setBit ?_))))
  exact h

theorem execPwrReq_canon {m : Rm} {domain : BitVec 7} {target : BitVec 2} {s : State} (h : s.Canon) :
    CanonNext (execPwrReq m domain target s) := .next (ringPut_canon h fun _ hu => pwrReqWrite_canon hu)

theorem pwrEnd {s : State} (h : s.Canon) : s.pwrEnd.Canon := by
  refine setBit ?_
  exact h

theorem pwrRefuse {s : State} {dom reason : Nat} (h : s.Canon) : (s.pwrRefuse dom reason).Canon := by
  fun_cases State.pwrRefuse s dom reason
  all_goals grind [fresh, setFld, pwrEnd, drainWakes, raise, setBit]

theorem pwrAnswers {s : State} {r : PwrReq} (h : s.Canon) : (s.pwrAnswers r).Canon := by
  fun_cases State.pwrAnswers s r
  case case1 n t ht => exact (canon_snd ht h.fresh :)
  case case2 => exact h
  case case3 => exact h.pwrRefuse
  case case4 ht => exact (canon_snd ht h.freshB).pwrRefuse

theorem execPowerHandshakeAsk_canon {s : State} (h : s.Canon) : CanonNext (execPowerHandshakeAsk s) := by
  fun_cases execPowerHandshakeAsk s
  case case1 => exact .next h.pwrAnswers
  all_goals exact .next h

theorem execPowerDelayExpiry_canon {s : State} (h : s.Canon) : CanonNext (execPowerDelayExpiry s) := by
  fun_cases execPowerDelayExpiry s
  case case1 => exact .next h.pwrAnswers
  all_goals exact .next h

theorem execPowerLimitExpiry_canon {s : State} (h : s.Canon) : CanonNext (execPowerLimitExpiry s) := by
  fun_cases execPowerLimitExpiry s
  case case1 => exact .next h.pwrRefuse
  all_goals exact .next h

theorem fabricLeaves {s : State} {d : Nat} {off : Bool} (h : s.Canon) : (s.fabricLeaves d off).Canon :=
  ite (unconfigure (ite h.setBit h)) (ite (setDie (ite h.setBit h)) (ite h.setBit h))

theorem weaveOff {s : State} {d : Nat} (h : s.Canon) : (s.weaveOff d).Canon :=
  ite (awaitRejoin ({ h.loseTables.loseNis.purgeFlight.resetRegs with afOld := rfl, afSwitch := rfl }))
    h.loseTables.loseNis.purgeFlight.resetRegs

theorem coreLeaves {s : State} {n : Nat} {off : Bool} (h : s.Canon) : (s.coreLeaves n off).Canon := by
  unfold State.coreLeaves
  extract_lets halted t t1 t2 t3
  have ht : t.Canon := h.tearDown.dbgLost
  clear_value t
  have h1 : t1.Canon := ite ht.setCoreState ht
  clear_value t1
  have h3 : t3.Canon := h1.resetRegs.zeroCore
  clear_value t3
  exact ite { h3 with mem := tkeep_wf h3.mem fun a => !(decide (imBase n ≤ a) && decide (a < imBase n + 0x20000)) &&
        !(decide (dmBase n ≤ a) && decide (a < dmBase n + 0x40000)) } h1

theorem dmaOff {s : State} (h : s.Canon) : s.dmaOff.Canon := by
  unfold State.dmaOff
  extract_lets t b t1
  have ht : t.Canon := foldl h fun _ _ hu => hu.disown
  clear_value t
  have h1 : t1.Canon := { ht with dma := rfl }
  exact h1.resetRegs

theorem lanesLeave {s : State} {d : Nat} {off : Bool} (h : s.Canon) : (s.lanesLeave d off).Canon := by
  unfold State.lanesLeave
  extract_lets mine
  have hr : (s.resetRegs mine).Canon := h.resetRegs
  exact ite { hr with lanes := tkeep_wf h.lanes fun k => !mine k } (foldl h fun _ _ hu => hu.setReg)

theorem blocksLeave {s : State} {off : Bool} (h : s.Canon) : (s.blocksLeave off).Canon := by
  unfold State.blocksLeave
  extract_lets t t1
  have ht : t.Canon := foldl h fun _ _ hu => hu.abHalt
  clear_value t
  have h1 : t1.Canon := ht.resetRegs
  clear_value t1
  exact ite { h1 with blocks := rfl } ht

theorem convertersLeave {s : State} {off : Bool} (h : s.Canon) : (s.convertersLeave off).Canon := by
  unfold State.convertersLeave
  extract_lets t t1
  have ht : t.Canon := foldl h fun _ _ hu => hu.icHalt
  clear_value t
  have h1 : t1.Canon := ht.resetRegs
  clear_value t1
  exact ite { h1 with ics := rfl } ht

theorem leave {s : State} {dom : Nat} {off : Bool} (h : s.Canon) : (s.leave dom off).Canon :=
  ite (ite (bankLose ({ h with wake := tput_wf h.wake _ _ })) ({ h with wake := tput_wf h.wake _ _ })) (ite h.fabricLeaves (ite
    (ite h.weaveOff h) (ite h.coreLeaves (ite (ite h.dmaOff h) (ite (ite h.dramOff h.dramSleep) (ite h (ite (ite h h.portStage)
    (ite h.lanesLeave (ite h.blocksLeave (ite h.convertersLeave (ite h.fabricLeaves.weaveOff h.fabricLeaves)))))))))))

theorem changeDomain {s : State} {r : PwrReq} (h : s.Canon) : (s.changeDomain r).Canon :=
  drainWakes (pwrDone (pwrEnd (setDom (ite h (leave h)))))

theorem execDomainStateChange_canon {s : State} (h : s.Canon) : CanonNext (execDomainStateChange s) := by
  fun_cases execDomainStateChange s
  case case1 => exact .next h.changeDomain
  all_goals exact .next h

theorem changeTick {s : State} (h : s.Canon) : s.changeTick.Canon := by
  fun_cases State.changeTick s
  case case1 => exact h.changeDomain
  all_goals exact h

theorem execDomainReady_canon {domain : BitVec 7} {s : State} (h : s.Canon) : CanonNext (execDomainReady domain s) :=
  .ite (.next (ite (dramWake (setDom h)) (setDom h))) (.next h)
theorem rtcCtrlWrite_canon {v : W32} {s : State} (h : s.Canon) : (rtcCtrlWrite v s).1.Canon :=
  wrote_canon (ite h.plainWrite h.plainWrite)
theorem execRtcLoad_canon {m : Rm} {s : State} (h : s.Canon) : CanonNext (execRtcLoad m s) :=
  .next (ringPut_canon h fun _ hu => rtcCtrlWrite_canon hu)
theorem rtcCapture {s : State} (h : s.Canon) : s.rtcCapture.Canon := h.setReg64.setReg64
theorem execRtcSnap_canon {m : Rm} {s : State} (h : s.Canon) : CanonNext (execRtcSnap m s) :=
  .next (ringPut_canon h fun _ hu => wrote_canon hu.rtcCapture)

theorem execRtcAlarm_canon {s : State} (h : s.Canon) : CanonNext (execRtcAlarm s) := by
  unfold execRtcAlarm
  extract_lets p t t1 p1
  have h0 : t.Canon := h
  have ht : t1.Canon := h0.setBit.raise
  clear_value t1
  refine .ite (.ite (.next (drainWakes ?_)) (.next ht)) (.next h)
  exact ht

theorem execRtcFail_canon {s : State} (h : s.Canon) : CanonNext (execRtcFail s) := by
  refine .ite (.next h) (.next (raise (setBit ?_)))
  exact h

theorem execRtcEdgesReturn_canon {s : State} (h : s.Canon) : CanonNext (execRtcEdgesReturn s) := .next h

/-! #### Operations of `Machine/Events` -/

theorem execEventOccurrence_canon {e : BitVec 11} {s : State} (h : s.Canon) : CanonNext (execEventOccurrence e s) :=
  .ite (.next h.raise) (.next h)
theorem execCollectorMessageSend_canon {e : BitVec 11} {s : State} (h : s.Canon) : CanonNext (execCollectorMessageSend e s) :=
  .ite (.next (inject ({ h with coll := tput_wf h.coll _ _ }))) (.next h)

theorem execBridgeMessageSend_canon {s : State} (h : s.Canon) : CanonNext (execBridgeMessageSend s) := by
  fun_cases execBridgeMessageSend s
  case case2 m rest hq _ =>
    have hlen := h.bridgeQ
    rw [hq, List.length_cons] at hlen
    refine .next (admitPkt ?_)
    exact { h with bridgeQ := Nat.le_of_succ_le hlen }
  all_goals exact .next h

theorem bridgeTake {s : State} {m : EvMsg} (h : s.Canon) : (s.bridgeTake m).Canon :=
  ite h.setReg.satInc.raiseHub (ite h.raiseHub (ite h.satInc.raiseHub h.satInc))

theorem execEventMessageReceive_canon {s : State} (h : s.Canon) : CanonNext (execEventMessageReceive s) := by
  fun_cases execEventMessageReceive s
  case case2 => exact .next (bridgeTake h)
  all_goals exact .next h

theorem execEvtOutPulseEnd_canon {i : Fin 8} {s : State} (h : s.Canon) : CanonNext (execEvtOutPulseEnd i s) := by
  fun_cases execEvtOutPulseEnd i s
  case case1 => exact .next h.setOutPin
  all_goals exact .next h

theorem evOutClrWrite_canon {v : W32} {s : State} (h : s.Canon) : (evOutClrWrite v s).1.Canon :=
  wrote_canon (foldl h fun _ _ hu => ite hu.setOutPin hu)
theorem execEvOutClr_canon {m : Rm} {mask : BitVec 8} {s : State} (h : s.Canon) : CanonNext (execEvOutClr m mask s) :=
  .next (ringPut_canon h fun _ hu => evOutClrWrite_canon hu)
theorem evOutCfgWrite_canon {i : Nat} {v : W32} {s : State} (h : s.Canon) : (evOutCfgWrite i v s).1.Canon :=
  wrote_canon (ite h.plainWrite h.plainWrite.setOutPin)
theorem execEvOutCfgWrite_canon {m : Rm} {i : Fin 8} {v : W32} {s : State} (h : s.Canon) :
    CanonNext (execEvOutCfgWrite m i v s) := .next (ringPut_canon h fun _ hu => evOutCfgWrite_canon hu)

/-! #### Operations of `Machine/Clock` -/

theorem ringFinish {s : State} {m : Rm} {st : RStat} {d : W32} (h : s.Canon) : (s.ringFinish m st d).Canon := by
  fun_cases State.ringFinish s m st d
  case case1 => exact sendRemote (setMaster (ite h h.fresh))
  case case3 => exact setThr (setMaster (ite h h.fresh))
  all_goals exact setMaster (ite h h.fresh)

theorem refCtrlWrite_canon {v : W32} {s : State} (h : s.Canon) : (refCtrlWrite v s).1.Canon :=
  canon_ite (refuse_canon h) (wrote_canon (syncBreach (ite (setBit (setBit (ite h.plainWrite.setBit.setBit.setBit
    h.plainWrite.setBit.setBit))) (ite h.plainWrite.setBit.setBit.setBit h.plainWrite.setBit.setBit))))

theorem execRefCtrlWrite_canon {m : Rm} {v : W32} {s : State} (h : s.Canon) : CanonNext (execRefCtrlWrite m v s) :=
  .next (ringPut_canon h fun _ hu => refCtrlWrite_canon hu)
theorem sscCtrlWrite_canon {v : W32} {s : State} (h : s.Canon) : (sscCtrlWrite v s).1.Canon :=
  canon_ite (refuse_canon h) (wrote_canon h.plainWrite)
theorem execSscCtrlWrite_canon {m : Rm} {v : W32} {s : State} (h : s.Canon) : CanonNext (execSscCtrlWrite m v s) :=
  .next (ringPut_canon h fun _ hu => sscCtrlWrite_canon hu)
theorem execSscChange_canon {s : State} (h : s.Canon) : CanonNext (execSscChange s) := .ite (.next h) (.next h)
theorem fclkCfgWrite_canon {n : Nat} {v : W32} {s : State} (h : s.Canon) : (fclkCfgWrite n v s).1.Canon :=
  canon_ite (refuse_canon h) (wrote_canon ({ h.plainWrite with fclkSet := tput_wf h.plainWrite.fclkSet _ _ }))
theorem execFclkCfgWrite_canon {m : Rm} {n : Fin 16} {v : W32} {s : State} (h : s.Canon) :
    CanonNext (execFclkCfgWrite m n v s) := .next (ringPut_canon h fun _ hu => fclkCfgWrite_canon hu)
theorem execFclkChange_canon {n : Fin 16} {s : State} (h : s.Canon) : CanonNext (execFclkChange n s) :=
  .ite (.next ({ h with fclkAct := tput_wf h.fclkAct _ _, fclkStart := tput_wf h.fclkStart _ _ })) (.next h)
theorem tickSnapWrite_canon {m : Rm} {s : State} (h : s.Canon) : (tickSnapWrite m s).1.Canon := wrote_canon h.setReg64
theorem execTickSnap_canon {m : Rm} {v : W32} {s : State} (h : s.Canon) : CanonNext (execTickSnap m v s) :=
  .next (ringPut_canon h fun _ hu => tickSnapWrite_canon hu)
theorem execTimeMarkerSend_canon {s : State} (h : s.Canon) : CanonNext (execTimeMarkerSend s) :=
  .ite (.next (foldl h fun _ _ hu => hu.portFrame)) (.next h)
theorem loseAlign {s : State} (h : s.Canon) : s.loseAlign.Canon := syncBreach h.setBit.setBit.raise

theorem execTimeMarkerCompare_canon {value : W64} {aligned : Bool} {frac : Fin 64} {s : State} (h : s.Canon) :
    CanonNext (execTimeMarkerCompare value aligned frac s) := by
  fun_cases execTimeMarkerCompare value aligned frac s
  case case2 => exact .next h.setBit
  case case3 v u hu t1 t2 =>
    have h0 : u.Canon := canon_snd hu (canon_ite_snd h (h.fresh (w := 16)))
    have h1 : t1.Canon := h0.setBit.setFld
    clear_value t1
    have h2 : t2.Canon := h1
    exact .next (ite h2.loseAlign h2)
  all_goals exact .next h

theorem execMarkerMissing_canon {s : State} (h : s.Canon) : CanonNext (execMarkerMissing s) :=
  .ite (.next (ite h.loseAlign h)) (.next h)
theorem tickCtrlWrite_canon {v : W32} {s : State} (h : s.Canon) : (tickCtrlWrite v s).1.Canon :=
  canon_ite (refuse_canon h) (wrote_canon (syncBreach (ite h.plainWrite.setBit h.plainWrite)))
theorem execTickLoadArm_canon {m : Rm} {v : W32} {s : State} (h : s.Canon) : CanonNext (execTickLoadArm m v s) :=
  .next (ringPut_canon h fun _ hu => tickCtrlWrite_canon hu)
theorem execTickCtrlMasterWrite_canon {m : Rm} {v : W32} {s : State} (h : s.Canon) :
    CanonNext (execTickCtrlMasterWrite m v s) := .next (ringPut_canon h fun _ hu => tickCtrlWrite_canon hu)

theorem execTickLoad_canon {value : W64} {s : State} (h : s.Canon) : CanonNext (execTickLoad value s) := by
  fun_cases execTickLoad value s
  case case1 =>
    refine .next (syncBreach (raise (setBit (setBit ?_))))
    exact { h with fclkStart := foldl_tput_wf h.fclkStart }
  all_goals exact .next h

theorem reset_canon : State.reset.Canon := by
  constructor <;> decide

/-! #### Operations of `Machine/Reset` -/

theorem resetKeeping {s : State} {keep : Nat → Bool} {phase : ClkPhase} (h : s.Canon) : (s.resetKeeping keep phase).Canon :=
  { reset_canon with regs := tkeep_wf h.regs keep }

theorem strapBits_canon {st : Straps} {w lsb : Nat} {v : BitVec w} {s : State} (h : s.Canon) :
    (strapBits st w lsb v s).2.Canon := by
  fun_cases strapBits st w lsb v s
  all_goals grind [fresh]

theorem sampleCfg {s : State} {st : Straps} (h : s.Canon) : (s.sampleCfg st).Canon := by
  have hm : (strapBits st 3 0 st.cfgMode s).2.Canon := strapBits_canon h
  have hp : (strapBits st 1 3 (if st.cfgPull then 1#1 else 0#1) (strapBits st 3 0 st.cfgMode s).2).2.Canon := strapBits_canon hm
  exact hp

theorem execSupplyDrop_canon {s : State} (h : s.Canon) : CanonNext (execSupplyDrop s) :=
  .ite (.next h) (.next h.resetKeeping.setBit.setBit.dbgLost)
theorem execVbatSwitchover_canon {s : State} (h : s.Canon) : CanonNext (execVbatSwitchover s) :=
  .next h.resetKeeping.setBit.setBit

theorem execPowerOnReset_canon {straps : Straps} {s : State} (h : s.Canon) : CanonNext (execPowerOnReset straps s) := by
  have hc : (strapBits straps 3 4 straps.oscDly (s.sampleCfg straps)).2.Canon := strapBits_canon h.sampleCfg
  have ht : ∀ (u : State) (o : BitVec 3), u.Canon → State.Canon { u with
      pins := { u.pins with oscDly := o }, clk := { u.clk with phase := .oscDelay }, pwr := { u.pwr with onVbat := false } } :=
    fun _ _ hu => hu
  have hn := ht _ (strapBits straps 3 4 straps.oscDly (s.sampleCfg straps)).1 (hc.setBit (a := aRIM_STAT) (f :=
      fRIM_STAT_AUX_OK) (b := true))
  exact .ite (.next (ite hn.raise hn)) (.next h)

theorem execOscDlyExpiry_canon {s : State} (h : s.Canon) : CanonNext (execOscDlyExpiry s) := .ite (.next h) (.next h)
theorem execRootPllLock_canon {silent : BitVec 8} {s : State} (h : s.Canon) : CanonNext (execRootPllLock silent s) :=
  .ite (.next h) (.next h)

theorem execPinReset_canon {straps : Straps} {silent : BitVec 8} {s : State} (h : s.Canon) :
    CanonNext (execPinReset straps silent s) := by
  fun_cases execPinReset straps silent s
  case case1 => exact .next h
  case case2 | case3 => exact .next h.sampleCfg
  case case4 u c _ _ _ locked t0 t1 t2 =>
    have hu : u.Canon := ite h.ringFinish h
    clear_value u
    have h1 : t1.Canon := hu.resetKeeping.setBit.setBit
    clear_value t1
    have h2 : t2.Canon := { h1 with dieIr := hu.dieIr, boundary := hu.boundary, bists := hu.bists }
    exact .next h2.sampleCfg.dbgLost

theorem startUp {s : State} (h : s.Canon) : s.startUp.Canon :=
  trainAllLinks (foldl (foldl h fun _ _ hu => hu.zeroCore) fun _ _ hu => ite hu.portTrain hu)
theorem revFinish {s : State} (h : s.Canon) : s.revFinish.Canon := ite h.setFld.setFld.setBit h

theorem revTick {s : State} (h : s.Canon) : s.revTick.Canon := by
  refine ite h (revFinish (foldl h fun u d hu => ite ?_ hu))
  exact (hu.setBit :)

theorem execRevisionReadTimeout_canon {d : Fin 8} {s : State} (h : s.Canon) : CanonNext (execRevisionReadTimeout d s) := by
  refine .ite (.next (revFinish (setBit ?_))) (.next h)
  exact h

theorem resetDie {s : State} {d : Nat} (h : s.Canon) : (s.resetDie d).Canon := by
  unfold State.resetDie
  extract_lets t mine t1 t2 t3 t4 t5 p6 t6
  have ht : t.Canon := foldl h fun _ _ hu => ite hu.ringFinish hu
  clear_value t
  have h1 : t1.Canon := ite ht.cfgFail ht
  clear_value t1
  have h2 : t2.Canon := h1.loseTables.loseNis.purgeFlight.resetRegs.unconfigure
  clear_value t2
  have h3 : t3.Canon := { h2 with
    lms := tkeep_wf h2.lms fun k => !mine k
    lanes := tkeep_wf h2.lanes fun k => !mine k
    share1 := tkeep_wf h2.share1 fun k => !mine k
    dieReset := tput_wf h2.dieReset _ _ }
  clear_value t3
  have h4 : t4.Canon := h3.loseLock
  clear_value t4
  have hf : ∀ u : State, u.Canon → State.Canon { u with pins := { u.pins with done := false } } := fun _ hu => hu
  exact awaitRejoin (ite { h4 with blocks := rfl, ics := rfl, afOld := rfl, afSwitch := rfl } (hf _ h4.setBit))

theorem dieResetWrite_canon {v : W32} {s : State} (h : s.Canon) : (dieResetWrite v s).1.Canon :=
  wrote_canon (foldl h fun _ _ hu => hu.resetDie)
theorem execDieResetLogic_canon {m : Rm} {d : Fin 6} {s : State} (h : s.Canon) : CanonNext (execDieResetLogic m d s) :=
  .next (ringPut_canon h fun _ hu => dieResetWrite_canon hu)
theorem execDieResetAnalog_canon {m : Rm} {s : State} (h : s.Canon) : CanonNext (execDieResetAnalog m s) :=
  .next (ringPut_canon h fun _ hu => dieResetWrite_canon hu)

theorem execDieResetEnd_canon {d : Fin 8} {s : State} (h : s.Canon) : CanonNext (execDieResetEnd d s) := by
  fun_cases execDieResetEnd d s
  case case1 => exact .next (syncBreach (trainDieLinks ({ h with dieReset := tput_wf h.dieReset _ _ })))
  all_goals exact .next h

theorem execProgNAssert_canon {s : State} (h : s.Canon) : CanonNext (execProgNAssert s) := by
  unfold execProgNAssert
  extract_lets t t1 t2
  have h1 : t2.Canon := (foldl h.endStream fun _ _ hu => hu.resetDie).unconfigure.setBit
  clear_value t2
  exact .ite (.next h) (.next h1)

theorem execProgNRelease_canon {s : State} (h : s.Canon) : CanonNext (execProgNRelease s) := .next h
theorem deviceIdWrite_canon {v : W32} {s : State} (h : s.Canon) : (deviceIdWrite v s).1.Canon :=
  canon_ite (refuse_canon h) (wrote_canon h.plainWrite)
theorem execDeviceIdWrite_canon {m : Rm} {v : W32} {s : State} (h : s.Canon) : CanonNext (execDeviceIdWrite m v s) :=
  .next (ringPut_canon h fun _ hu => deviceIdWrite_canon hu)

/-! #### Operations of `Machine/Ring` -/

theorem readStored_canon {a : Nat} {s : State} (h : s.Canon) : (readStored a s).1.Canon := h
theorem readAs_canon {s : State} {v : W32} (h : s.Canon) : (readAs s v).1.Canon := h

theorem niRead_canon {m : Rm} {d n o : Nat} {s : State} (h : s.Canon) : (niRead m d n o s).1.Canon := by
  fun_cases niRead m d n o s
  case case1 => exact psDataRead_canon h
  case case2 => exact readAs_canon h
  case case3 => exact readStored_canon h

theorem linkRead_canon {a : Nat} {s : State} (h : s.Canon) : (linkRead a s).1.Canon :=
  canon_ite (readAs_canon h) (readStored_canon h)
theorem laneRead_canon {a : Nat} {s : State} (h : s.Canon) : (laneRead a s).1.Canon := canon_ite h (readStored_canon h)

theorem feRead_canon {m : Rm} {d o : Nat} {s : State} (h : s.Canon) : (feRead m d o s).1.Canon := by
  fun_cases feRead m d o s
  case case5 => exact feRbDataRead_canon h
  case case7 | case9 => exact h
  case case10 => exact readStored_canon h
  all_goals exact readAs_canon h

theorem coreRead_canon {n o : Nat} {s : State} (h : s.Canon) : (coreRead n o s).1.Canon := by
  fun_cases coreRead n o s
  case case1 he => exact (canon_snd he h.fresh)
  case case2 => exact readAs_canon h
  case case7 => exact dmDataRead_canon h
  case case8 => exact readStored_canon h
  all_goals exact imDataRead_canon h

theorem eventRead_canon {o : Nat} {s : State} (h : s.Canon) : (eventRead o s).1.Canon :=
  canon_ite (readAs_canon h) (canon_ite (readAs_canon h) (readStored_canon h))

theorem identRead_canon {o : Nat} {s : State} (h : s.Canon) : (identRead o s).1.Canon := by
  fun_cases identRead o s
  case case5 => exact readStored_canon h
  all_goals exact readAs_canon h

theorem cfgRead_canon {o : Nat} {s : State} (h : s.Canon) : (cfgRead o s).1.Canon := by
  fun_cases cfgRead o s
  case case3 => exact readStored_canon h
  all_goals exact readAs_canon h

theorem dramBlockRead_canon {d o : Nat} {s : State} (h : s.Canon) : (dramBlockRead d o s).1.Canon := by
  fun_cases dramBlockRead d o s
  case case1 => exact readAs_canon h
  case case2 => exact drDlyRead_canon h
  case case3 => exact readStored_canon h

theorem qdrBlockRead_canon {q o : Nat} {s : State} (h : s.Canon) : (qdrBlockRead q o s).1.Canon := by
  fun_cases qdrBlockRead q o s
  case case1 => exact readAs_canon h
  case case4 => exact readStored_canon h
  all_goals exact qsDataRead_canon h

theorem patternBlockRead_canon {o : Nat} {s : State} (h : s.Canon) : (patternBlockRead o s).1.Canon := by
  fun_cases patternBlockRead o s
  case case5 => exact readStored_canon h
  all_goals exact readAs_canon h

theorem hubRead_canon {m : Rm} {b o : Nat} {s : State} (h : s.Canon) : (hubRead m b o s).1.Canon :=
  canon_ite (identRead_canon h) (canon_ite (canon_ite (readAs_canon h) (readStored_canon h)) (canon_ite (eventRead_canon h)
    (canon_ite (cfgRead_canon h) (canon_ite (coreRead_canon h) (canon_ite (canon_ite (readAs_canon h) (readStored_canon h))
    (canon_ite (dramBlockRead_canon h) (canon_ite (canon_ite (readAs_canon h) (readStored_canon h)) (canon_ite
    (qdrBlockRead_canon h) (canon_ite (niRead_canon h) (canon_ite (laneRead_canon h) (canon_ite (patternBlockRead_canon h)
    (canon_ite (dbgRegRead_canon h) (readStored_canon h)))))))))))))

theorem logicRead_canon {m : Rm} {d b o : Nat} {s : State} (h : s.Canon) : (logicRead m d b o s).1.Canon :=
  canon_ite (readAs_canon h) (canon_ite (feRead_canon h) (canon_ite (niRead_canon h) (canon_ite (laneRead_canon h) (canon_ite
    (linkRead_canon h) (readStored_canon h)))))

theorem abRead_canon {m : Rm} {n o : Nat} {s : State} (h : s.Canon) : (abRead m n o s).1.Canon := by
  fun_cases abRead m n o s
  case case2 => exact abResultRead_canon h
  case case4 => exact readStored_canon h
  all_goals exact readAs_canon h

theorem icRead_canon {m : Rm} {n o : Nat} {s : State} (h : s.Canon) : (icRead m n o s).1.Canon := by
  fun_cases icRead m n o s
  case case2 => exact icResultRead_canon h
  case case6 => exact readStored_canon h
  all_goals exact readAs_canon h

theorem anaRead_canon {m : Rm} {b o : Nat} {s : State} (h : s.Canon) : (anaRead m b o s).1.Canon := by
  fun_cases anaRead m b o s
  case case1 => exact readAs_canon h
  case case2 => exact linkRead_canon h
  case case4 => exact abRead_canon h
  case case5 => exact icRead_canon h
  case case6 => exact niRead_canon h
  case case7 | case8 => exact asDataRead_canon h
  case case9 | case10 => exact canon_ite (feRead_canon h) (readStored_canon h)
  all_goals exact readStored_canon h

theorem regRead_canon {m : Rm} {a : Nat} {s : State} (h : s.Canon) : (regRead m a s).1.Canon :=
  canon_ite (hubRead_canon h) (canon_ite (anaRead_canon h) (logicRead_canon h))
theorem writePlain_canon {a : Nat} {v : W32} {s : State} (h : s.Canon) : (writePlain a v s).1.Canon := wrote_canon h.plainWrite

theorem niWrite_canon {d n o : Nat} {v : W32} {s : State} (h : s.Canon) : (niWrite d n o v s).1.Canon := by
  fun_cases niWrite d n o v s
  case case1 => exact niCtrlWrite_canon h
  case case2 => exact fifoFlushWrite_canon h
  case case7 | case8 | case9 => exact spRegionWrite_canon h
  case case10 => exact spCtrlWrite_canon h
  case case11 => exact writePlain_canon h
  all_goals exact psDataWrite_canon h

theorem feWrite_canon {d o : Nat} {v : W32} {s : State} (h : s.Canon) : (feWrite d o v s).1.Canon := by
  fun_cases feWrite d o v s
  case case1 => exact feLogStatWrite_canon h
  case case2 => exact feLogPopWrite_canon h
  case case3 => exact feRbCtrlWrite_canon h
  case case4 => exact writePlain_canon h

theorem laneWrite_canon {d q o : Nat} {v : W32} {s : State} (h : s.Canon) : (laneWrite d q o v s).1.Canon := by
  fun_cases laneWrite d q o v s
  case case1 => exact lnCtrlWrite_canon h
  case case2 => exact lnTapWrite_canon h
  case case3 => exact lnAlignWrite_canon h
  case case4 => exact writePlain_canon h

theorem relock {s : State} {b : Nat} {lanes : List Nat} (h : s.Canon) : (s.relock b lanes).Canon :=
  foldl h fun _ _ hu => hu.freshB.setBit
theorem glLbWrite_canon {d q : Nat} {v : W32} {s : State} (h : s.Canon) : (glLbWrite d q v s).1.Canon :=
  wrote_canon h.plainWrite.relock

theorem tpLoopWrite_canon {p : Nat} {f : State → Answer} {s : State} (h : s.Canon) (hf : ∀ t, State.Canon t → ((f t).1).Canon) :
    (tpLoopWrite p f s).1.Canon :=
  canon_ite (hf _ h) (canon_ite (foldl (hf _ h) fun _ _ hu => hu.relock) (foldl (hf _ h) fun _ _ hu => hu.setBit))

theorem portWrite_canon {p o : Nat} {v : W32} {s : State} (h : s.Canon) : (portWrite p o v s).1.Canon := by
  fun_cases portWrite p o v s
  case case1 => exact tpLoopWrite_canon h fun _ hu => tpCtrlWrite_canon hu
  case case2 => exact tpCfgCtrlWrite_canon h
  case case3 => exact tpLoopWrite_canon h fun _ hu => tpLbWrite_canon hu
  case case4 => exact writePlain_canon h

theorem coreWrite_canon {n o : Nat} {v : W32} {s : State} (h : s.Canon) : (coreWrite n o v s).1.Canon := by
  fun_cases coreWrite n o v s
  case case1 => exact coreCtrlWrite_canon h
  case case2 => exact imDataWrite_canon h
  case case3 => exact dmDataWrite_canon h
  case case4 => exact writePlain_canon h

theorem pendWrite_canon {k : Nat} {v : W32} {s : State} (h : s.Canon) : (pendWrite k v s).1.Canon :=
  wrote_canon (foldl h fun _ _ hu => ite hu.clearPending hu)
theorem eventWrite_canon {o : Nat} {v : W32} {s : State} (h : s.Canon) : (eventWrite o v s).1.Canon :=
  canon_ite (evOutCfgWrite_canon h) (canon_ite (evOutClrWrite_canon h) (canon_ite (pendWrite_canon h) (writePlain_canon h)))

theorem patternWrite_canon {m : Rm} {o : Nat} {v : W32} {s : State} (h : s.Canon) : (patternWrite m o v s).1.Canon := by
  fun_cases patternWrite m o v s
  case case1 => exact tickSnapWrite_canon h
  case case2 => exact tickCtrlWrite_canon h
  case case3 => exact patCtrlWrite_canon h
  case case4 | case5 => exact patAtWrite_canon h
  case case6 => exact wrote_canon h.popFault
  all_goals exact canon_ite (shadowHeaderWrite_canon h) (canon_ite (commitWrite_canon h) (writePlain_canon h))

theorem bankWrite_canon {m : Rm} {o : Nat} {v : W32} {s : State} (h : s.Canon) : (bankWrite m o v s).1.Canon :=
  canon_ite (bankOwnerWrite_canon h) (canon_ite (ccSelWrite_canon h) (canon_ite (bistCtrlWrite_canon h) (canon_ite
    (dmaCtrlWrite_canon h) (writePlain_canon h))))

theorem dramWrite_canon {d o : Nat} {v : W32} {s : State} (h : s.Canon) : (dramWrite d o v s).1.Canon := by
  fun_cases dramWrite d o v s
  case case1 => exact drCtrlWrite_canon h
  case case2 => exact drCfgWrite_canon h
  case case3 => exact drRhCfgWrite_canon h
  case case4 => exact drMrWrite_canon h
  case case5 => exact drTrnWrite_canon h
  case case6 => exact drDlyWrite_canon h
  case case7 => exact drElogCtrlWrite_canon h
  case case8 => exact drEccWrite_canon h
  case case9 => exact drLbWrite_canon h
  case case10 => exact writePlain_canon h

theorem qdrWrite_canon {q o : Nat} {v : W32} {s : State} (h : s.Canon) : (qdrWrite q o v s).1.Canon := by
  fun_cases qdrWrite q o v s
  case case1 => exact qCtrlWrite_canon h
  case case4 => exact qLbWrite_canon h
  case case5 => exact writePlain_canon h
  all_goals exact qsDataWrite_canon h

theorem debugWrite_canon {m : Rm} {o : Nat} {v : W32} {s : State} (h : s.Canon) : (debugWrite m o v s).1.Canon := by
  fun_cases debugWrite m o v s
  case case1 => exact dbgOnly_canon h fun _ hu => runctlWrite_canon hu
  case case2 => exact dbgTxWrite_canon h
  case case3 => exact dbgRxWrite_canon h
  case case4 => exact termStatWrite_canon h
  all_goals exact canon_ite (dbgOnly_canon h fun _ hu => dbgRegWrite_canon hu) (dbgOnly_canon h fun _ hu => writePlain_canon hu)

theorem kmWrite_canon {m : Rm} {o : Nat} {v : W32} {s : State} (h : s.Canon) : (Sys2Proof.Machine.kmWrite m o v s).1.Canon :=
  canon_ite (kmCtrlWrite_canon h) (canon_ite (kmMcmdWrite_canon h) (canon_ite (kmSlotWrite_canon h)
    (canon_ite (kmKeyWrite_canon h) (writePlain_canon h))))

theorem hubWrite_canon {m : Rm} {b o : Nat} {v : W32} {s : State} (h : s.Canon) : (hubWrite m b o v s).1.Canon := by
  unfold hubWrite
  extract_lets a
  refine canon_ite ?_ (canon_ite (canon_ite (refCtrlWrite_canon h) (canon_ite (sscCtrlWrite_canon h)
    (canon_ite (fclkCfgWrite_canon h) (writePlain_canon h)))) (canon_ite ?_ (canon_ite (eventWrite_canon h)
    (canon_ite (canon_ite (cfgSdataWrite_canon h) (writePlain_canon h)) (canon_ite (coreWrite_canon h) (canon_ite
        (bankWrite_canon h)
    (canon_ite (dramWrite_canon h) (canon_ite (kmWrite_canon h) (canon_ite (qdrWrite_canon h) (canon_ite (niWrite_canon h)
    (canon_ite (canon_ite (laneWrite_canon h) (portWrite_canon h)) (canon_ite (patternWrite_canon h) (canon_ite
        (debugWrite_canon h)
    (writePlain_canon h))))))))))))))
  · split
    · exact deviceIdWrite_canon h
    · exact dieResetWrite_canon h
    · exact canon_ite (refuse_canon h) (writePlain_canon h)
    · exact rgCtrlWrite_canon h
    · exact rgCtrlWrite_canon h
    · exact rgCtrlWrite_canon h
    · exact writePlain_canon h
  · split
    · exact pwrReqWrite_canon h
    · exact rtcCtrlWrite_canon h
    · exact wrote_canon h.rtcCapture
    · exact writePlain_canon h

theorem logicWrite_canon {d b o : Nat} {v : W32} {s : State} (h : s.Canon) : (logicWrite d b o v s).1.Canon := by
  fun_cases logicWrite d b o v s
  case case1 => exact feWrite_canon h
  case case2 => exact niWrite_canon h
  case case3 => exact laneWrite_canon h
  case case4 => exact glLbWrite_canon h
  case case5 => exact lmCtrlWrite_canon h
  case case8 => exact brHoldWrite_canon h
  case case9 => exact brReleaseWrite_canon h
  case case10 => exact brRgnWrite_canon h
  all_goals exact writePlain_canon h

theorem abWrite_canon {n o : Nat} {v : W32} {s : State} (h : s.Canon) : (abWrite n o v s).1.Canon :=
  canon_ite (abShadowWrite_canon h) (canon_ite (abRunRegWrite_canon h) (canon_ite (abCmdWrite_canon h) (canon_ite
    (abCalWrite_canon h) (writePlain_canon h))))

theorem icWrite_canon {n o : Nat} {v : W32} {s : State} (h : s.Canon) : (icWrite n o v s).1.Canon :=
  canon_ite (icCfgWrite_canon h) (canon_ite (icRunRegWrite_canon h) (canon_ite (icCmdWrite_canon h) (canon_ite
    (icFactorWrite_canon h) (writePlain_canon h))))

theorem anaWrite_canon {b o : Nat} {v : W32} {s : State} (h : s.Canon) : (anaWrite b o v s).1.Canon := by
  fun_cases anaWrite b o v s
  case case1 => exact lmCtrlWrite_canon h
  case case3 => exact abWrite_canon h
  case case4 => exact swPinWrite_canon h
  case case5 => exact swapCtrlWrite_canon h
  case case7 => exact icWrite_canon h
  case case8 => exact msPeriodWrite_canon h
  case case9 => exact msCalWrite_canon h
  case case10 => exact refLoopWrite_canon h
  case case11 | case12 => exact canon_ite (refValWrite_canon h) (writePlain_canon h)
  case case13 => exact niWrite_canon h
  case case14 => exact feWrite_canon h
  case case15 | case16 => exact asDataWrite_canon h
  case case17 | case18 => exact canon_ite (afClkWrite_canon h) (writePlain_canon h)
  all_goals exact writePlain_canon h

theorem regWrite_canon {m : Rm} {a : Nat} {v : W32} {s : State} (h : s.Canon) : (regWrite m a v s).1.Canon :=
  canon_ite (hubWrite_canon h) (canon_ite (anaWrite_canon h) (logicWrite_canon h))
theorem ringTarget_canon {m : Rm} {r : RingReq} {s : State} (h : s.Canon) : (ringTarget m r s).1.Canon :=
  canon_ite (regWrite_canon h) (regRead_canon h)
theorem execRingAccess_canon {m : Rm} {r : RingReq} {s : State} (h : s.Canon) : CanonNext (execRingAccess m r s) :=
  .next (ringDo_canon h fun _ hu => ringTarget_canon hu)
theorem ringComplete {s : State} {m : Rm} (h : s.Canon) : (s.ringComplete m).Canon :=
  ite h (ite h.ringFinish (ite h.ringFinish (ite (ringFinish (gated_canon h fun _ hu => ringTarget_canon hu)) h)))
theorem execRingAccessComplete_canon {m : Rm} {s : State} (h : s.Canon) : CanonNext (execRingAccessComplete m s) :=
  .next h.ringComplete
theorem ringUnsure {s : State} {m : Rm} (h : s.Canon) : (s.ringUnsure m).Canon :=
  ite (ite (gated_canon h fun _ hu => ringTarget_canon hu) h) h
theorem execRingAccessTimeout_canon {m : Rm} {s : State} (h : s.Canon) : CanonNext (execRingAccessTimeout m s) :=
  .ite (.next h) (.next h.ringUnsure.ringFinish)

theorem ringTick {s : State} (h : s.Canon) : s.ringTick.Canon := by
  fun_cases State.ringTick s
  case case3 => exact h.setMaster
  case case4 => exact ringGrant_canon h fun _ hu => ringTarget_canon hu
  all_goals exact h

theorem timeoutLoop {s : State} {l0 : Nat} (h : s.Canon) : (s.timeoutLoop l0).Canon :=
  foldl h fun _ _ hu => ite hu.ringUnsure.setMaster hu

theorem execRingShareMove_canon {l : LinkId} {s : State} (h : s.Canon) : CanonNext (execRingShareMove l s) := by
  fun_cases execRingShareMove l s
  case case2 => exact .next (timeoutLoop (lmErr (lmErr ({ h with share1 := tput_wf h.share1 _ _ }))))
  all_goals exact .next h

theorem execRegisterWrite_canon {m : Rm} {die : Fin 8} {block off : BitVec 16} {v : W32} {s : State} (h : s.Canon) :
    CanonNext (execRegisterWrite m die block off v s) := .ite (.next h) (.next (ringPut_canon h fun _ hu => regWrite_canon hu))
theorem remotePerform {s : State} {b : BitVec 120} (h : s.Canon) : (s.remotePerform b).Canon :=
  setMaster (ringDo_canon h fun _ hu => ringTarget_canon hu)

theorem execRemotePacketReceive_canon {p : Fin 7} {s : State} (h : s.Canon) : CanonNext (execRemotePacketReceive p s) := by
  fun_cases execRemotePacketReceive p s
  case case3 => exact .next (sendRemote h)
  case case4 => exact .next (gwAnswer h)
  case case6 => exact .next (remotePerform h)
  all_goals exact .next h

/-! #### Operations of `Machine/Reference` -/

theorem ringAbort {s : State} (h : s.Canon) : s.ringAbort.Canon := foldl h fun _ _ hu => ite hu.ringUnsure.ringFinish hu

theorem patternHalt {s : State} (h : s.Canon) : s.patternHalt.Canon := by
  unfold State.patternHalt
  extract_lets a ran t t1 p2 t2
  have h1 : t1.Canon := foldl h.setBit.setBit.setFld.setReg fun _ _ hu => hu.setReg
  clear_value t1
  have h2 : t2.Canon := { h1 with untilTick := by dsimp only [t2]; split; exacts [tput_wf h1.untilTick _ _, h1.untilTick] }
  exact foldl h2 fun _ _ hu => hu.abandonCommit

theorem dramHalt {s : State} (h : s.Canon) : s.dramHalt.Canon := by
  unfold State.dramHalt
  extract_lets d0 t a
  have ht : t.Canon := foldl h fun _ _ hu => hu.dramLose.setDramState.setBit.setBit.setDs
  clear_value t
  exact km_canon ht.setBit.setBit

theorem clockStop {s : State} {cause : Nat} (h : s.Canon) : (s.clockStop cause).Canon := by
  unfold State.clockStop
  extract_lets t t1 c t2 t3
  have h3 : t3.Canon := h.ringAbort.patternHalt.dramHalt.anaHalt.setBit.setFld.setBit.setBit.setBit
  clear_value t3
  exact h3

theorem enterHold {s : State} (h : s.Canon) : s.enterHold.Canon := syncBreach h.setBit.setBit.raise
theorem recoveredLost {s : State} (h : s.Canon) : s.recoveredLost.Canon :=
  ite h.setBit (ite h.setBit.clockStop (ite h.setBit.clockStop h.setBit.enterHold))
theorem judgeRef {s : State} (h : s.Canon) : s.judgeRef.Canon := ite (recoveredLost (ite h.raise h)) h
theorem execRefQualified_canon {recovered : Bool} {s : State} (h : s.Canon) : CanonNext (execRefQualified recovered s) :=
  .ite (.next h) (.ite (.ite (.next (ite h.setBit.raise h.setBit)) (.next h)) (.next h.setBit))
theorem execSlewEnd_canon {s : State} (h : s.Canon) : CanonNext (execSlewEnd s) := .ite (.next h.setBit) (.next h)
theorem execRecoveredRefLoss_canon {s : State} (h : s.Canon) : CanonNext (execRecoveredRefLoss s) :=
  .ite (.next h.recoveredLost) (.next h)
theorem execLocalOscLoss_canon {s : State} (h : s.Canon) : CanonNext (execLocalOscLoss s) :=
  .ite (.next h.setBit.raise) (.next h)

theorem execFreqMonAverage_canon {diff : BitVec 24} {rootDeparted : Bool} {s : State} (h : s.Canon) :
    CanonNext (execFreqMonAverage diff rootDeparted s) := by
  unfold execFreqMonAverage
  extract_lets spreads departed before t c t1
  have ht : t.Canon := h.setFld.setBit
  clear_value t
  have h1 : t1.Canon := ht
  clear_value t1
  exact .ite (.ite (.next h1) (.next (ite h1.raise h1).recoveredLost)) (.next h)

theorem execClockLossNoFallback_canon {pllFault : Bool} {s : State} (h : s.Canon) :
    CanonNext (execClockLossNoFallback pllFault s) :=
  .ite (.next h) (.ite (.next h.clockStop) (.ite (.next h.clockStop) (.ite (.next h.clockStop) (.ite (.next h.clockStop) (.next
    h)))))

theorem execRimSrcValid_canon {s : State} (h : s.Canon) : CanonNext (execRimSrcValid s) := .ite (.next h.setBit) (.next h)
theorem execRefclkInterruption_canon {s : State} (h : s.Canon) : CanonNext (execRefclkInterruption s) :=
  .ite (.next h.setBit) (.next h)
theorem rimAck {s : State} (h : s.Canon) : s.rimAck.Canon := ite h h
theorem execRimClkAck_canon {s : State} (h : s.Canon) : CanonNext (execRimClkAck s) := .next h.rimAck

theorem execResumeHubClocks_canon {s : State} (h : s.Canon) : CanonNext (execResumeHubClocks s) :=
  .ite (.next (syncBreach (ite (cfgFail h.setBit.setBit.setBit.setBit.setBit.setBit.setBit.setBit)
    h.setBit.setBit.setBit.setBit.setBit.setBit.setBit.setBit))) (.next h)

theorem debugReleased {s : State} {n : Nat} (h : s.Canon) : (s.debugReleased n).Canon := ite h.tearDown.setCoreState h.tearDown

theorem execResumeDieClocks_canon {s : State} (h : s.Canon) : CanonNext (execResumeDieClocks s) := by
  fun_cases execResumeDieClocks s
  case case1 t0 t1 t2 t3 t4 t5 =>
    have h0 : t0.Canon := h
    have h1 : t1.Canon := h0.setBit.setBit
    clear_value t1
    have h3 : t3.Canon := foldl (foldl h1 fun _ _ hu => hu.fullTraining) fun _ _ hu => ite hu.portTrain hu
    clear_value t3
    exact .next (foldl (foldl h3 fun _ _ hu => hu.qdrTrain) fun _ _ hu => hu.debugReleased).dbgLost.raise
  case case2 => exact .next h

theorem execResumeUserOutputs_canon {s : State} (h : s.Canon) : CanonNext (execResumeUserOutputs s) := .ite (.next h) (.next h)

/-! #### Operations of `Machine/Tap` -/

theorem syncTaps {s : State} (h : s.Canon) : s.syncTaps.Canon := { h with dieIr := tkeep_wf h.dieIr _ }
theorem execTapReset_canon {trst : Bool} {s : State} (h : s.Canon) : CanonNext (execTapReset trst s) :=
  .next ({ h with dieIr := rfl })
theorem hubIntruded {s : State} (h : s.Canon) : s.hubIntruded.Canon :=
  ite h.dramHalt (foldl (foldl h.dramHalt fun _ _ hu => ite hu.portTrain hu) fun _ _ hu => hu.qdrTrain)

theorem execTapInstructionLoad_canon {hub : BitVec 8} {dies : W64} {s : State} (h : s.Canon) :
    CanonNext (execTapInstructionLoad hub dies s) := by
  unfold execTapInstructionLoad
  extract_lets u old ir tp t
  have hu : u.Canon := h.syncTaps
  have ht : t.Canon := { hu with dieIr := foldl_tput_wf hu.dieIr }
  exact .ite (.next h) (.next (ite ht.hubIntruded ht))

theorem execChainSelUpdate_canon {v : BitVec 8} {s : State} (h : s.Canon) : CanonNext (execChainSelUpdate v s) :=
  .ite (.next (syncTaps h)) (.next h)

theorem execJtagRingUpdate_canon {r : BitVec 68} {s : State} (h : s.Canon) : CanonNext (execJtagRingUpdate r s) :=
  .ite (.next h) (.ite (.next h) (.next (ite (ringDo_canon h fun _ hu => ringTarget_canon hu) (ringComplete (ringDo_canon h fun
    _ hu => ringTarget_canon hu)))))

theorem execRingCaptureDr_canon {s : State} (h : s.Canon) : CanonNext (execRingCaptureDr s) := .ite (.next h) (.next h)

theorem rimWrite {s : State} {i : Nat} {v : W32} (h : s.Canon) : (s.rimWrite i v).Canon :=
  ite (ite h.plainWrite.rimAck h.plainWrite) (ite h.plainWrite (ite (ite (rtcCtrlWrite_canon h) (ite h.rtcCapture h.plainWrite))
    h))

theorem execJtagRimUpdate_canon {r : BitVec 40} {s : State} (h : s.Canon) : CanonNext (execJtagRimUpdate r s) :=
  .ite (.next h) (.next (ite (rimWrite h) h))
theorem setDieBist {s : State} {d : Nat} {x : DieBist} (h : s.Canon) : (s.setDieBist d x).Canon :=
  { h with bists := tput_wf h.bists _ _ }
theorem execDieBistStart_canon {d : Fin 8} {start : Bool} {s : State} (h : s.Canon) : CanonNext (execDieBistStart d start s) :=
  .ite (.next h) (.ite (.next h.setDieBist) (.next h.setDieBist))
theorem scrambleFifo {s : State} {n : Nat} (h : s.Canon) : (s.scrambleFifo n).Canon := foldl h fun _ _ hu => setAb hu
theorem execDieBistEnd_canon {d : Fin 8} {fails : Nat} {s : State} (h : s.Canon) : CanonNext (execDieBistEnd d fails s) :=
  .ite (.next h) (.next (ite (foldl h.setDieBist.clearFrames fun _ _ hu => hu.scrambleFifo) h.setDieBist.clearFrames))
theorem execD2dTestUpdate_canon {v : BitVec 16} {s : State} (h : s.Canon) : CanonNext (execD2dTestUpdate v s) :=
  .ite (.next h) (.ite (.next h) (.ite (.next h) (.next (foldl h fun _ _ hu => hu.fence))))

theorem execD2dStep_canon {wrong : List (Fin 2752)} {s : State} (h : s.Canon) : CanonNext (execD2dStep wrong s) := by
  fun_cases execD2dStep wrong s
  all_goals exact .next h

theorem execD2dRunEnd_canon {s : State} (h : s.Canon) : CanonNext (execD2dRunEnd s) := by
  fun_cases execD2dRunEnd s
  case case2 => exact .next (foldl h fun _ _ hu => hu.setFld.fullTraining)
  all_goals exact .next h

theorem execBoundaryScanUpdate_canon {d : Fin 8} {v : Nat} {s : State} (h : s.Canon) :
    CanonNext (execBoundaryScanUpdate d v s) := .ite (.next h) (.next ({ h with boundary := tput_wf h.boundary _ _ }))

theorem execTpLbWrite_canon {m : Rm} {p : Fin 6} {ret : Bool} {v : BitVec 2} {s : State} (h : s.Canon) :
    CanonNext (execTpLbWrite m p ret v s) :=
  .ite (.next (ringPut_canon h fun _ hu => tpLoopWrite_canon hu fun _ hv => tpLbWrite_canon hv)) (.next (ringPut_canon h fun _
    hu => tpLoopWrite_canon hu fun _ hv => tpCtrlWrite_canon hv))

theorem execGlLbWrite_canon {m : Rm} {d : Fin 6} {q : Fin 4} {v : W32} {s : State} (h : s.Canon) :
    CanonNext (execGlLbWrite m d q v s) := .next (ringPut_canon h fun _ hu => glLbWrite_canon hu)
theorem execRefLoopWrite_canon {m : Rm} {v : W32} {s : State} (h : s.Canon) : CanonNext (execRefLoopWrite m v s) :=
  .next (ringPut_canon h fun _ hu => refLoopWrite_canon hu)
theorem execForwardedClockLoss_canon {l : LinkId} {s : State} (h : s.Canon) : CanonNext (execForwardedClockLoss l s) :=
  .ite (.next h.fullTraining.setLm) (.next h)
theorem execQuadPllLockLoss_canon {p : Fin 6} {q : Fin 4} {s : State} (h : s.Canon) : CanonNext (execQuadPllLockLoss p q s) :=
  .ite (.next (raise (foldl h fun _ _ hu => hu.setBit.setBit))) (.next h)

/-! #### Operations of `Machine/Tick` -/

theorem rimEdge {s : State} (h : s.Canon) : s.rimEdge.Canon := h
theorem rimStep {s : State} (h : s.Canon) : s.rimStep.Canon := ite h (ite (rimEdge h) h)
theorem advance {s : State} (h : s.Canon) : s.advance.Canon := h

theorem hubTick {s : State} {k : Nat} (h : s.Canon) : (s.hubTick k).Canon :=
  foldl (foldl (foldl (bistTick (foldl (foldl h.riseTick.changeTick fun _ _ hu => hu.watchdogTick) fun _ _ hu => hu.ccTick)) fun
    _ _ hu => hu.dmaTick.dmaDrained) fun _ _ hu => hu.qdrTick) fun _ _ hu => hu.dramDrain

theorem dieTick {s : State} (h : s.Canon) : s.dieTick.Canon :=
  syncTaps (cfgTick (anaTick (foldl h.ringTick.revTick.niTick.beTick fun _ _ hu => hu.portTick.streamTick)))

theorem idle {s : State} (h : s.Canon) : s.idle.Canon := by
  unfold State.idle
  extract_lets u v t w
  have hu : u.Canon := h.rimStep
  clear_value u
  have hv : v.Canon := ite hu.startUp hu
  clear_value v
  have ht : t.Canon := hv.advance.hubTick
  clear_value t
  have hw : w.Canon := ite ht.dieTick ht.syncTaps
  exact ite hu.syncTaps (ite hw.judgeRef hw)

/-! #### Operations of `Machine/Step` -/

theorem withFetchWord {s : State} {nbits w : Nat} (h : s.Canon) : (s.withFetchWord nbits w).Canon := h

end State.Canon

open State.Canon in
/-- Whatever the command, the next state meets the invariant that the state meets. -/
theorem exec_canon {i : Instr} {s : State} (h : s.Canon) : CanonNext (exec i s) :=
  match i with
  | .powerOnReset _ => execPowerOnReset_canon h
  | .supplyDrop => execSupplyDrop_canon h
  | .pinReset _ _ => execPinReset_canon h
  | .oscDlyExpiry => execOscDlyExpiry_canon h
  | .rootPllLock _ => execRootPllLock_canon h
  | .revisionReadTimeout _ => execRevisionReadTimeout_canon h
  | .ringAccess _ _ => execRingAccess_canon h
  | .ringAccessComplete _ => execRingAccessComplete_canon h
  | .ringAccessTimeout _ => execRingAccessTimeout_canon h
  | .registerWrite _ _ _ _ _ => execRegisterWrite_canon h
  | .deviceIdWrite _ _ => execDeviceIdWrite_canon h
  | .dieResetLogic _ _ => execDieResetLogic_canon h
  | .dieResetAnalog _ => execDieResetAnalog_canon h
  | .dieResetEnd _ => execDieResetEnd_canon h
  | .refQualified _ => execRefQualified_canon h
  | .refCtrlWrite _ _ => execRefCtrlWrite_canon h
  | .slewEnd => execSlewEnd_canon h
  | .recoveredRefLoss => execRecoveredRefLoss_canon h
  | .localOscLoss => execLocalOscLoss_canon h
  | .freqMonAverage _ _ => execFreqMonAverage_canon h
  | .clockLossNoFallback _ => execClockLossNoFallback_canon h
  | .rimSrcValid => execRimSrcValid_canon h
  | .rimClkAck => execRimClkAck_canon h
  | .resumeHubClocks => execResumeHubClocks_canon h
  | .resumeDieClocks => execResumeDieClocks_canon h
  | .resumeUserOutputs => execResumeUserOutputs_canon h
  | .sscCtrlWrite _ _ => execSscCtrlWrite_canon h
  | .sscChange => execSscChange_canon h
  | .fclkCfgWrite _ _ _ => execFclkCfgWrite_canon h
  | .fclkChange _ => execFclkChange_canon h
  | .tickSnap _ _ => execTickSnap_canon h
  | .timeMarkerSend => execTimeMarkerSend_canon h
  | .timeMarkerCompare _ _ _ => execTimeMarkerCompare_canon h
  | .markerMissing => execMarkerMissing_canon h
  | .tickLoadArm _ _ => execTickLoadArm_canon h
  | .tickLoad _ => execTickLoad_canon h
  | .tickCtrlMasterWrite _ _ => execTickCtrlMasterWrite_canon h
  | .slotInject _ => execSlotInject_canon h
  | .routerForwardScheduled => execRouterForwardScheduled_canon h
  | .egressCheck _ => execEgressCheck_canon h
  | .sfPop _ _ => execSfPop_canon h
  | .patternStart _ => execPatternStart_canon h
  | .patternSwap _ => execPatternSwap_canon h
  | .patternStop _ => execPatternStop_canon h
  | .patternCancel _ => execPatternCancel_canon h
  | .patternActionTick => execPatternActionTick_canon h
  | .tailEnd => execTailEnd_canon h
  | .patternTableWrite _ _ _ => execPatternTableWrite_canon h
  | .psDataRead _ _ _ => execPsDataRead_canon h
  | .commitStart _ _ _ => execCommitStart_canon h
  | .commitEnd _ => execCommitEnd_canon h
  | .beRequestIssue _ => execBeRequestIssue_canon h
  | .beHop _ _ _ => execBeHop_canon h
  | .creditReturn _ => execCreditReturn_canon h
  | .headerAged _ _ => execHeaderAged_canon h
  | .stallDetect _ => execStallDetect_canon h
  | .bePacketArrive _ => execBePacketArrive_canon h
  | .beResponseArrive _ => execBeResponseArrive_canon h
  | .beTimeout _ _ => execBeTimeout_canon h
  | .flitStageWrite _ _ => execFlitStageWrite_canon h
  | .egressPresent _ => execEgressPresent_canon h
  | .fifoWrite _ _ _ _ => execFifoWrite_canon h
  | .fifoRead _ _ => execFifoRead_canon h
  | .fifoFlush _ _ _ => execFifoFlush_canon h
  | .flushBoundary _ _ => execFlushBoundary_canon h
  | .niDisable _ _ => execNiDisable_canon h
  | .niForcedDisable _ _ => execNiForcedDisable_canon h
  | .niDrainComplete _ => execNiDrainComplete_canon h
  | .niDisableBoundary _ => execNiDisableBoundary_canon h
  | .niDisableCancel _ _ => execNiDisableCancel_canon h
  | .niEnable _ _ => execNiEnable_canon h
  | .niLoop _ _ _ => execNiLoop_canon h
  | .spillEnable _ _ _ => execSpillEnable_canon h
  | .spillStart _ => execSpillStart_canon h
  | .spillRecordWrite _ => execSpillRecordWrite_canon h
  | .spillWriteResponse _ => execSpillWriteResponse_canon h
  | .spillReplay _ => execSpillReplay_canon h
  | .replayReadResponse _ => execReplayReadResponse_canon h
  | .linkFrameReceive _ _ => execLinkFrameReceive_canon h
  | .trainingWordReceive _ _ => execTrainingWordReceive_canon h
  | .linkClockDetect _ _ _ => execLinkClockDetect_canon h
  | .linkDeskewDone _ => execLinkDeskewDone_canon h
  | .linkVerifyDone _ _ => execLinkVerifyDone_canon h
  | .linkMaskAgreed _ => execLinkMaskAgreed_canon h
  | .linkFrameLock _ => execLinkFrameLock_canon h
  | .linkStageTimeout _ => execLinkStageTimeout_canon h
  | .linkFence _ _ => execLinkFence_canon h
  | .linkUnfence _ _ => execLinkUnfence_canon h
  | .linkRetrain _ _ => execLinkRetrain_canon h
  | .linkClrCnt _ _ => execLinkClrCnt_canon h
  | .linkLoop _ _ _ _ => execLinkLoop_canon h
  | .creditResyncReturn _ => execCreditResyncReturn_canon h
  | .ringShareMove _ => execRingShareMove_canon h
  | .laneTrainingSetReceive _ _ _ => execLaneTrainingSetReceive_canon h
  | .laneEqDone _ => execLaneEqDone_canon h
  | .lnAlignSlip _ _ => execLnAlignSlip_canon h
  | .lnAlignDone _ _ => execLnAlignDone_canon h
  | .laneAlignTimeout _ _ => execLaneAlignTimeout_canon h
  | .alignmentMarkerReceive _ _ => execAlignmentMarkerReceive_canon h
  | .portStageTimeout _ => execPortStageTimeout_canon h
  | .portTrainRestart _ => execPortTrainRestart_canon h
  | .exchangePositionReceive _ _ _ => execExchangePositionReceive_canon h
  | .exchangeComplete _ => execExchangeComplete_canon h
  | .portAccept _ _ => execPortAccept_canon h
  | .controlPositionReceive _ _ _ => execControlPositionReceive_canon h
  | .leaveSched _ => execLeaveSched_canon h
  | .portPositionReceive _ _ => execPortPositionReceive_canon h
  | .portAdmitScheduled _ => execPortAdmitScheduled_canon h
  | .laneFault _ => execLaneFault_canon h
  | .halfWidthSwitch _ => execHalfWidthSwitch_canon h
  | .portQuiet _ _ => execPortQuiet_canon h
  | .portRest _ _ => execPortRest_canon h
  | .portActive _ _ => execPortActive_canon h
  | .quietEnter _ => execQuietEnter_canon h
  | .portRetrain _ _ => execPortRetrain_canon h
  | .portDisable _ _ _ => execPortDisable_canon h
  | .portEnable _ _ => execPortEnable_canon h
  | .gatewayRead _ => execGatewayRead_canon h
  | .gatewayWrite _ => execGatewayWrite_canon h
  | .remotePacketReceive _ => execRemotePacketReceive_canon h
  | .gatewayTimeout _ => execGatewayTimeout_canon h
  | .streamSendGo _ _ => execStreamSendGo_canon h
  | .streamSendAbort _ _ => execStreamSendAbort_canon h
  | .streamSendEnd _ => execStreamSendEnd_canon h
  | .glSlip _ => execGlSlip_canon h
  | .userEvent _ _ => execUserEvent_canon h
  | .regionHold _ _ _ => execRegionHold_canon h
  | .regionHoldComplete _ _ => execRegionHoldComplete_canon h
  | .regionRelease _ _ _ => execRegionRelease_canon h
  | .regionGateRelease _ _ => execRegionGateRelease_canon h
  | .regionReleaseComplete _ _ => execRegionReleaseComplete_canon h
  | .brRgnWrite _ _ _ _ => execBrRgnWrite_canon h
  | .prbSelWrite _ _ _ _ => execPrbSelWrite_canon h
  | .clearComplete => execClearComplete_canon h
  | .initNHigh => execInitNHigh_canon h
  | .progNAssert => execProgNAssert_canon h
  | .cfgSdataWrite _ _ => execCfgSdataWrite_canon h
  | .syncWord _ => execSyncWord_canon h
  | .streamNop _ _ => execStreamNop_canon h
  | .streamCrc _ _ => execStreamCrc_canon h
  | .streamDeviceCode _ _ => execStreamDeviceCode_canon h
  | .streamFeature _ _ => execStreamFeature_canon h
  | .streamFrameAddr _ _ => execStreamFrameAddr_canon h
  | .streamFdata _ _ => execStreamFdata_canon h
  | .streamOptions _ _ => execStreamOptions_canon h
  | .streamRegion _ _ => execStreamRegion_canon h
  | .streamEbmAddr _ _ => execStreamEbmAddr_canon h
  | .streamEbmData _ _ => execStreamEbmData_canon h
  | .cmdNull _ _ => execCmdNull_canon h
  | .cmdStart _ _ => execCmdStart_canon h
  | .cmdHold _ _ => execCmdHold_canon h
  | .cmdRelease _ _ => execCmdRelease_canon h
  | .cmdDesync _ _ => execCmdDesync_canon h
  | .streamTimeout => execStreamTimeout_canon h
  | .startupBegin => execStartupBegin_canon h
  | .startupStage => execStartupStage_canon h
  | .startupRunning => execStartupRunning_canon h
  | .scanFrame _ _ => execScanFrame_canon h
  | .feLogPop _ _ _ => execFeLogPop_canon h
  | .feLogStatWrite _ _ _ => execFeLogStatWrite_canon h
  | .feRbDataRead _ _ => execFeRbDataRead_canon h
  | .feRbCapture _ _ => execFeRbCapture_canon h
  | .illegalOperation _ => execIllegalOperation_canon h
  | .nop _ _ _ => execNop_canon h
  | .addOp _ _ _ => execAddOp_canon h
  | .subOp _ _ _ => execSubOp_canon h
  | .andOp _ _ _ => execAndOp_canon h
  | .orOp _ _ _ => execOrOp_canon h
  | .xorOp _ _ _ => execXorOp_canon h
  | .shl _ _ _ => execShl_canon h
  | .shr _ _ _ => execShr_canon h
  | .sra _ _ _ => execSra_canon h
  | .minOp _ _ _ => execMinOp_canon h
  | .maxOp _ _ _ => execMaxOp_canon h
  | .addi _ _ _ => execAddi_canon h
  | .shli _ _ _ => execShli_canon h
  | .shri _ _ _ => execShri_canon h
  | .srai _ _ _ => execSrai_canon h
  | .movi _ _ _ => execMovi_canon h
  | .movhi _ _ _ => execMovhi_canon h
  | .cmp _ _ _ => execCmp_canon h
  | .cmpi _ _ _ => execCmpi_canon h
  | .sel _ _ _ => execSel_canon h
  | .ldw _ _ _ => execLdw_canon h
  | .ldh _ _ _ => execLdh_canon h
  | .ldhu _ _ _ => execLdhu_canon h
  | .ldb _ _ _ => execLdb_canon h
  | .stw _ _ _ => execStw_canon h
  | .sth _ _ _ => execSth_canon h
  | .stb _ _ _ => execStb_canon h
  | .ldr _ _ _ => execLdr_canon h
  | .ldwp _ _ _ => execLdwp_canon h
  | .stwp _ _ _ => execStwp_canon h
  | .stc _ _ _ => execStc_canon h
  | .mac4 _ _ _ => execMac4_canon h
  | .mul4 _ _ _ => execMul4_canon h
  | .mac2 _ _ _ => execMac2_canon h
  | .mul2 _ _ _ => execMul2_canon h
  | .accrd _ _ _ => execAccrd_canon h
  | .accwr _ _ _ => execAccwr_canon h
  | .accclr _ _ _ => execAccclr_canon h
  | .muls _ _ _ => execMuls_canon h
  | .brOp _ _ _ => execBrOp_canon h
  | .bri _ _ _ => execBri_canon h
  | .callOp _ _ _ => execCallOp_canon h
  | .repOp _ _ _ => execRepOp_canon h
  | .rotOp _ _ _ => execRotOp_canon h
  | .reti _ _ _ => execReti_canon h
  | .mts _ _ _ => execMts_canon h
  | .mfs _ _ _ => execMfs_canon h
  | .sendAt _ _ _ => execSendAt_canon h
  | .sendAtInject _ => execSendAtInject_canon h
  | .xrd _ _ _ => execXrd_canon h
  | .xwr _ _ _ => execXwr_canon h
  | .xferComplete _ _ => execXferComplete_canon h
  | .waitOp _ _ _ => execWaitOp_canon h
  | .waitConditionMet _ => execWaitConditionMet_canon h
  | .sev _ _ _ => execSev_canon h
  | .bkpt _ _ _ => execBkpt_canon h
  | .interruptTake _ => execInterruptTake_canon h
  | .rxRingWrite _ => execRxRingWrite_canon h
  | .watchdogExpiry _ => execWatchdogExpiry_canon h
  | .coreReset _ _ => execCoreReset_canon h
  | .coreRunWrite _ _ _ => execCoreRunWrite_canon h
  | .imDataWrite _ _ _ => execImDataWrite_canon h
  | .dmDataAccess _ _ _ => execDmDataAccess_canon h
  | .bootGo => execBootGo_canon h
  | .bankRequest _ _ _ => execBankRequest_canon h
  | .bankOwnerWrite _ _ _ => execBankOwnerWrite_canon h
  | .ccSelWrite _ _ _ => execCcSelWrite_canon h
  | .bankWakeComplete _ => execBankWakeComplete_canon h
  | .bistGo _ _ => execBistGo_canon h
  | .bistAbort _ => execBistAbort_canon h
  | .bistPause => execBistPause_canon h
  | .bistResume => execBistResume_canon h
  | .bistEnd _ => execBistEnd_canon h
  | .dmaGo _ _ => execDmaGo_canon h
  | .descriptorComplete _ => execDescriptorComplete_canon h
  | .dmaDisable _ _ _ => execDmaDisable_canon h
  | .dmaEnable _ _ => execDmaEnable_canon h
  | .qdrRetrain _ _ => execQdrRetrain_canon h
  | .qdrTrainEnd _ _ => execQdrTrainEnd_canon h
  | .qdrServiceTick _ _ => execQdrServiceTick_canon h
  | .qdrBeRequest _ _ => execQdrBeRequest_canon h
  | .qsDataWrite _ _ _ => execQsDataWrite_canon h
  | .qdrSlotDisable _ _ => execQdrSlotDisable_canon h
  | .qdrDisable _ _ _ => execQdrDisable_canon h
  | .qdrEnable _ _ => execQdrEnable_canon h
  | .qdrLbGo _ _ => execQdrLbGo_canon h
  | .qdrLbDone _ _ => execQdrLbDone_canon h
  | .qdrLbDepthWrite _ _ _ => execQdrLbDepthWrite_canon h
  | .dramInit _ _ => execDramInit_canon h
  | .dramInitComplete _ => execDramInitComplete_canon h
  | .modeRegisterAccess _ _ _ => execModeRegisterAccess_canon h
  | .trainingRun _ _ _ _ => execTrainingRun_canon h
  | .trainingRunDone _ _ => execTrainingRunDone_canon h
  | .dramEnable _ _ => execDramEnable_canon h
  | .dramDisable _ _ _ => execDramDisable_canon h
  | .dramRequest _ _ _ => execDramRequest_canon h
  | .throttleEnd _ _ => execThrottleEnd_canon h
  | .perBankRefresh _ => execPerBankRefresh_canon h
  | .rowIdlePrecharge _ _ => execRowIdlePrecharge_canon h
  | .refreshRatePoll _ _ => execRefreshRatePoll_canon h
  | .drLbWrite _ _ _ => execDrLbWrite_canon h
  | .drEccCtrlWrite _ _ _ => execDrEccCtrlWrite_canon h
  | .keyedMixEnable _ _ => execKeyedMixEnable_canon h
  | .kmFillStart => execKmFillStart_canon h
  | .kmFillComplete => execKmFillComplete_canon h
  | .kmFlush _ => execKmFlush_canon h
  | .kmFlushComplete => execKmFlushComplete_canon h
  | .kmRetire _ _ => execKmRetire_canon h
  | .kmRetireComplete => execKmRetireComplete_canon h
  | .kmSlotWrite _ _ _ => execKmSlotWrite_canon h
  | .kmKeyWrite _ _ _ _ => execKmKeyWrite_canon h
  | .metadataRead _ _ => execMetadataRead_canon h
  | .metadataWrite _ _ _ => execMetadataWrite_canon h
  | .swapArm _ _ _ => execSwapArm_canon h
  | .swapCancel _ => execSwapCancel_canon h
  | .acSwapEdge => execAcSwapEdge_canon h
  | .swapTake => execSwapTake_canon h
  | .abRun _ _ _ => execAbRun_canon h
  | .abStop _ _ => execAbStop_canon h
  | .abCal _ _ => execAbCal_canon h
  | .abTriggerEdge _ _ => execAbTriggerEdge_canon h
  | .abSample _ _ => execAbSample_canon h
  | .abResultEnter _ => execAbResultEnter_canon h
  | .abCalEnd _ _ _ => execAbCalEnd_canon h
  | .abResultRead _ _ => execAbResultRead_canon h
  | .abCalWrite _ _ _ _ => execAbCalWrite_canon h
  | .asDataWrite _ _ => execAsDataWrite_canon h
  | .afClkWrite _ _ _ => execAfClkWrite_canon h
  | .icRun _ _ _ => execIcRun_canon h
  | .icStop _ _ => execIcStop_canon h
  | .icCal _ _ => execIcCal_canon h
  | .conversionStart _ => execConversionStart_canon h
  | .inputIntegrationEnd _ => execInputIntegrationEnd_canon h
  | .residueStart _ => execResidueStart_canon h
  | .conversionEnd _ _ => execConversionEnd_canon h
  | .icCalEnd _ _ _ => execIcCalEnd_canon h
  | .icResultRead _ _ => execIcResultRead_canon h
  | .mainsCrossing => execMainsCrossing_canon h
  | .mainsUnlockTimeout => execMainsUnlockTimeout_canon h
  | .pwrReq _ _ _ => execPwrReq_canon h
  | .powerHandshakeAsk => execPowerHandshakeAsk_canon h
  | .powerDelayExpiry => execPowerDelayExpiry_canon h
  | .powerLimitExpiry => execPowerLimitExpiry_canon h
  | .domainStateChange => execDomainStateChange_canon h
  | .domainReady _ => execDomainReady_canon h
  | .rtcLoad _ => execRtcLoad_canon h
  | .rtcSnap _ => execRtcSnap_canon h
  | .rtcAlarm => execRtcAlarm_canon h
  | .rtcFail => execRtcFail_canon h
  | .vbatSwitchover => execVbatSwitchover_canon h
  | .eventOccurrence _ => execEventOccurrence_canon h
  | .collectorMessageSend _ => execCollectorMessageSend_canon h
  | .bridgeMessageSend => execBridgeMessageSend_canon h
  | .eventMessageReceive => execEventMessageReceive_canon h
  | .evtOutPulseEnd _ => execEvtOutPulseEnd_canon h
  | .evOutClr _ _ => execEvOutClr_canon h
  | .evOutCfgWrite _ _ _ => execEvOutCfgWrite_canon h
  | .jtagRingUpdate _ => execJtagRingUpdate_canon h
  | .jtagRimUpdate _ => execJtagRimUpdate_canon h
  | .tapReset _ => execTapReset_canon h
  | .tapInstructionLoad _ _ => execTapInstructionLoad_canon h
  | .chainSelUpdate _ => execChainSelUpdate_canon h
  | .dieBistStart _ _ => execDieBistStart_canon h
  | .dieBistEnd _ _ => execDieBistEnd_canon h
  | .d2dTestUpdate _ => execD2dTestUpdate_canon h
  | .d2dStep _ => execD2dStep_canon h
  | .d2dRunEnd => execD2dRunEnd_canon h
  | .dbgHalt _ _ => execDbgHalt_canon h
  | .dbgResume _ _ => execDbgResume_canon h
  | .dbgStep _ _ => execDbgStep_canon h
  | .haltTaken _ => execHaltTaken_canon h
  | .haltDeferExpiry _ => execHaltDeferExpiry_canon h
  | .breakpointMatch _ => execBreakpointMatch_canon h
  | .dataWatchMatch _ => execDataWatchMatch_canon h
  | .dbgRegAccess _ _ _ => execDbgRegAccess_canon h
  | .terminalTxWrite _ _ => execTerminalTxWrite_canon h
  | .terminalTxConsume _ => execTerminalTxConsume_canon h
  | .terminalRxWrite _ _ => execTerminalRxWrite_canon h
  | .terminalRxConsume _ => execTerminalRxConsume_canon h
  | .tpLbWrite _ _ _ _ => execTpLbWrite_canon h
  | .glLbWrite _ _ _ _ => execGlLbWrite_canon h
  | .refLoopWrite _ _ => execRefLoopWrite_canon h
  | .forwardedClockLoss _ => execForwardedClockLoss_canon h
  | .quadPllLockLoss _ _ => execQuadPllLockLoss_canon h
  | .rtcEdgesReturn => execRtcEdgesReturn_canon h
  | .refclkInterruption => execRefclkInterruption_canon h
  | .progNRelease => execProgNRelease_canon h
  | .frameEngineWriteDone _ => execFrameEngineWriteDone_canon h
  | .ringCaptureDr => execRingCaptureDr_canon h
  | .boundaryScanUpdate _ _ => execBoundaryScanUpdate_canon h

theorem step_canon {s : State} (h : s.Canon) : CanonNext (step s) := by
  unfold step
  split
  · exact .next h.idle
  · exact exec_canon h

/-- Settles O3: every command and every tick of time keeps the canonical form and the two bounds. -/
theorem stepKeepsInvariant : Obligations.StepKeepsInvariant := fun s t hs ht =>
  t.canon_iff.mp (step_canon (s.canon_iff.mpr hs) t ht)

/-- Settles O2: at reset every table and both queues are empty. -/
theorem resetMeetsInvariant : Obligations.ResetMeetsInvariant := State.reset.canon_iff.mp State.Canon.reset_canon

end Sys2Proof.Machine
end

section
/-! ### A flit of each of two entries on one slot tick, with a full schedule-fault log (R62, R64; refutes O14)

The first clause of the statement leaves `SF_STATUS` out of the registers that an injection may change. Where two entries name one
tick, the flow that loses is logged, and with 16 records in the log it is counted in `SF_STATUS.LOST`. -/

namespace Sys2Proof.Machine

set_option Elab.async false

/-- A pattern of 16 slots runs from tick 0. Entries 0 and 1 of NI 0 on die 0 inject flows 0 and 1 in slot 0; the log is full. -/
def State.twoFlows : State :=
  { State.reset with
    regs := [(aPAT_STATUS, 0x80000000#32), (aACT_PERIOD, 1#32)]
    pat := { State.reset.pat with
      store := [(psKey 0 0 0 0 0, 0x80000000000#128), (psKey 0 0 0 0 1, 0x80000100000#128)]
      fromTick := [(0, 0)]
      log := List.replicate 16 { kind := 1, flowA := 0, flowB := 1, die := 0, router := 0, port := 0, tick := 0 }
      logOvf := true } }

/-- The injection of entry 0, whose flow is the lower. -/
def firstInj : Inj := { idx := 0, flit := 0, flow := 0, dport := 0, key := 0, src := 0 }

theorem twoFlows_inv : State.twoFlows.Inv := by decide

theorem twoFlows_live : State.twoFlows.niLive 0 0 = true ∧ State.twoFlows.bit aPAT_STATUS fPAT_STATUS_RUN = true ∧
    State.twoFlows.bit (aNI_CTRL 0 0) fNI_CTRL_LOOP = false := by decide

theorem twoFlows_injections :
    lowestFlow (State.twoFlows.injections 0 0 State.twoFlows.actBank State.twoFlows.period
      (tget (fun _ => 2 ^ 64) State.twoFlows.pat.fromTick State.twoFlows.actBank) State.twoFlows.tickN) = some firstInj := by decide

/-- The flow that loses is counted. -/
theorem twoFlows_lost : ((State.twoFlows.injectTick 0 0).reg aSF_STATUS, State.twoFlows.reg aSF_STATUS) = (0x10000#32, 0#32) := by decide

/-- Refutes O14: the slot tick of two entries with a full log counts a lost record in `SF_STATUS`, outside the clause's frame. -/
theorem not_scheduledFlits : ¬ Obligations.ScheduledFlits := by
  unfold Obligations.ScheduledFlits
  intro h
  obtain ⟨hlive, hrun, hloop⟩ := twoFlows_live
  obtain ⟨hinject, -⟩ := h State.twoFlows twoFlows_inv
  obtain ⟨t, ht, -, -, -, -, -, hframe⟩ := hinject ⟨0, 0⟩ firstInj hlive (by decide) hrun (by decide) (.inl (by decide))
    twoFlows_injections hloop
  cases ht
  obtain ⟨hnew, hold⟩ := Prod.mk.inj twoFlows_lost
  have hkept := hframe aSF_STATUS (by decide) (by decide)
  exact absurd (hnew.symm.trans (hkept.trans hold)) (by decide)

end Sys2Proof.Machine
end

section
/-! ### Pattern actions (R67 to R70, R437; log entries 34, 128, 129) -/

namespace Sys2Proof.Machine

set_option Elab.async false

variable {s : State} {m : Rm} {v : W32} {a b c act : Nat} {f g : Fld}

/-! #### Fields and bits of a word of which another field is put -/

theorem getB_putF_disjoint (v : W32) (n : Nat) (hf : f.lsb < 32) (h : f.lsb < g.lsb ∨ g.lsb + g.width ≤ f.lsb) :
    getB (putF v g n) f = getB v f := by
  rw [getB_putF _ _ _ _ hf, if_neg (by omega)]

theorem getB_putF_same (v : W32) (c : Bool) (hf : f.lsb < 32) (hw : f.width = 1) : getB (putF v f c.toNat) f = c := by
  rw [getB_putF _ _ _ _ hf, hw]
  cases c <;> simp

/-! #### A write that the ring admits -/

/-- The ring carries the write, whatever the target answers. -/
theorem ringPut_answers {x : State → Answer} {u : State} {st : RStat} (h : s.ringReady m a = true) (hx : x s = (u, st, 0#32)) :
    ringPut m a v x s = u.setMaster m (s.answered m a v st) := by
  simp [ringPut_ready h, hx, State.answered]

/-! #### The code that refuses an action (R67) -/

/-- The codes of the model are those of the statements, lowest first. -/
theorem State.patRefusal_eq (s : State) (act : Nat) :
    s.patRefusal act = if s.actionFault act 1 then 1 else if s.actionFault act 2 then 2 else if s.actionFault act 3 then 3
      else if s.actionFault act 4 then 4 else if s.actionFault act 5 then 5 else if s.actionFault act 6 then 6
      else if s.actionFault act 7 then 7 else if s.actionFault act 8 then 8 else if s.actionFault act 9 then 9 else 0 := by
  dsimp only [State.patRefusal]
  refine if_congr ?_ rfl (if_congr ?_ rfl (if_congr ?_ rfl (if_congr ?_ rfl (if_congr ?_ rfl (if_congr ?_ rfl (if_congr ?_ rfl
    (if_congr ?_ rfl (if_congr ?_ rfl rfl))))))))
  case refine_4 => cases hb : s.bit aPAT_STATUS fPAT_STATUS_RUN <;> simp [State.actionFault, hb]
  all_goals simp [State.actionFault, and_comm, and_left_comm, and_assoc]

theorem State.actionFault_lt (h : s.actionFault act c = true) : c < 10 := by
  by_contra hc
  obtain ⟨k, rfl⟩ := Nat.exists_eq_add_of_le (Nat.le_of_not_lt hc)
  rw [show 10 + k = k + 10 by omega] at h
  simp [State.actionFault] at h

/-- The code that the statements name is the one the write answers. -/
theorem State.patRefusal_of_actionCode (h : s.actionCode act c = true) : s.patRefusal act = c := by
  simp only [State.actionCode, Bool.and_eq_true, List.all_eq_true, List.mem_range, Bool.or_eq_true, beq_iff_eq] at h
  obtain ⟨hlow, hcode⟩ := h
  have hclear : ∀ k, 1 ≤ k → k < 10 → k < c ∨ c = 0 → s.actionFault act k = false := by
    intro k hk hk' hc
    obtain h0 | hf := hlow k hk'
    · omega
    · simpa [hc] using hf
  rw [State.patRefusal_eq]
  obtain rfl | hf := hcode
  · simp [hclear]
  · have hc := State.actionFault_lt hf
    interval_cases c <;> simp_all

/-! #### `PAT_CTRL` -/

theorem patStatus_quiet : notice aPAT_STATUS = false := by decide

/-- A write of start, swap or stop, as the code says. -/
theorem patCtrlWrite_action (hv : getF v fPAT_CTRL_ACTION = act) (ha : act = 1 ∨ act = 2 ∨ act = 3) :
    patCtrlWrite v s =
      (let t := s.setFld aPAT_STATUS fPAT_STATUS_REFUSE (s.patRefusal act)
       if s.patRefusal act ≠ 0 then refuse (t.raise 29) else wrote (t.setFld aPAT_STATUS fPAT_STATUS_ARMED act)) := by
  subst hv
  unfold patCtrlWrite
  obtain h | h | h := ha <;> rw [h] <;> rfl

/-- An action to which no code applies is armed. -/
theorem patCtrl_arms {i : Instr} (hi : exec i s = .next (ringPut m aPAT_CTRL v (patCtrlWrite v) s))
    (hv : getF v fPAT_CTRL_ACTION = act) (ha : act = 1 ∨ act = 2 ∨ act = 3) (hs : s.Inv) (hm : s.ringReady m aPAT_CTRL = true)
    (hc : s.actionCode act 0 = true) :
    Writes i m aPAT_CTRL v .ok s (fun u => u.fld aPAT_STATUS fPAT_STATUS_ARMED = act ∧
      u.fld aPAT_STATUS fPAT_STATUS_REFUSE = 0 ∧ s.keepsElse u [] (among [aPAT_STATUS])) := by
  have hcode := State.patRefusal_of_actionCode hc
  have hw : patCtrlWrite v s = wrote ((s.setFld aPAT_STATUS fPAT_STATUS_REFUSE 0).setFld aPAT_STATUS fPAT_STATUS_ARMED act) := by
    simp [patCtrlWrite_action hv ha, hcode]
  have hwf := State.setFld_wf hs.regs_wf aPAT_STATUS fPAT_STATUS_REFUSE 0
  refine ⟨_, by rw [hi, ringPut_wrote hm hw], ?_, ?_, ?_⟩
  · rw [State.fld, State.setFld_reg hwf, if_pos rfl, getF_putF _ _ _ (by decide)]
    obtain rfl | rfl | rfl := ha <;> rfl
  · rw [State.fld, State.setFld_reg hwf, if_pos rfl, getF_putF_disjoint _ _ _ _ (by decide), State.setFld_reg hs.regs_wf,
      if_pos rfl, getF_putF _ _ _ (by decide)]
    rfl
  · exact (((State.Within.refl s _ _).setFld (.inl (by decide))).setFld (.inl (by decide))).keepsElse hs.regs_wf

/-- An action that a code refuses arms nothing; `REFUSE` names the code and event 29 is raised. -/
theorem patCtrl_refuses {i : Instr} (hi : exec i s = .next (ringPut m aPAT_CTRL v (patCtrlWrite v) s))
    (hv : getF v fPAT_CTRL_ACTION = act) (ha : act = 1 ∨ act = 2 ∨ act = 3) (hs : s.Inv) (hm : s.ringReady m aPAT_CTRL = true)
    (h1 : 1 ≤ c) (hc : s.actionCode act c = true) :
    Writes i m aPAT_CTRL v .refused s (fun u => u.fld aPAT_STATUS fPAT_STATUS_REFUSE = c ∧
      u.fld aPAT_STATUS fPAT_STATUS_ARMED = s.fld aPAT_STATUS fPAT_STATUS_ARMED ∧ u.showsEvent 29 ∧
      s.keepsElse u [.ev, .hw] (among [aPAT_STATUS])) := by
  have hcode := State.patRefusal_of_actionCode hc
  have hlt : c < 10 := by
    simp only [State.actionCode, Bool.and_eq_true, Bool.or_eq_true, beq_iff_eq] at hc
    exact State.actionFault_lt (hc.2.resolve_left (by omega))
  have hw : patCtrlWrite v s = refuse ((s.setFld aPAT_STATUS fPAT_STATUS_REFUSE c).raise 29) := by
    simp [patCtrlWrite_action hv ha, hcode, show c ≠ 0 by omega]
  have hwf := State.setFld_wf hs.regs_wf aPAT_STATUS fPAT_STATUS_REFUSE c
  have hreg := ((State.Within.refl (s.setFld aPAT_STATUS fPAT_STATUS_REFUSE c) [.ev, .hw] (fun _ => false)).raise
    (e := 29) (by decide)).regs hwf aPAT_STATUS rfl patStatus_quiet
  rw [State.setFld_reg hs.regs_wf, if_pos rfl] at hreg
  refine ⟨_, by rw [hi, ringPut_answers hm hw], ?_, ?_, ?_, ?_⟩
  · rw [State.fld, hreg, getF_putF _ _ _ (by decide)]
    exact Nat.mod_eq_of_lt (Nat.lt_trans hlt (by decide))
  · rw [State.fld, hreg, getF_putF_disjoint _ _ _ _ (by decide), State.fld]
  · exact (State.raise_latched hwf (by decide) (by decide)).showsEvent (by decide)
  · exact (((State.Within.refl s _ _).setFld (.inl (by decide))).raise (by decide)).keepsElse hs.regs_wf

theorem patCtrl_cancels (hm : s.ringReady m aPAT_CTRL = true) (ha : s.fld aPAT_STATUS fPAT_STATUS_ARMED ≠ 0)
    (ht : s.tickN + 4096 ≤ s.reg64 aPAT_AT_LO aPAT_AT_HI) :
    Writes (.patternCancel m) m aPAT_CTRL 4#32 .ok s (fun u => u = s.setFld aPAT_STATUS fPAT_STATUS_ARMED 0) := by
  have hw : patCtrlWrite 4#32 s = wrote (s.setFld aPAT_STATUS fPAT_STATUS_ARMED 0) :=
    if_neg (not_or.2 ⟨ha, Nat.not_lt.2 ht⟩)
  exact ⟨_, congrArg Host.Outcome.next (ringPut_wrote hm hw), rfl⟩

theorem patCtrl_cancelRefused (hm : s.ringReady m aPAT_CTRL = true)
    (h : s.fld aPAT_STATUS fPAT_STATUS_ARMED = 0 ∨ s.reg64 aPAT_AT_LO aPAT_AT_HI < s.tickN + 4096) :
    Writes (.patternCancel m) m aPAT_CTRL 4#32 .refused s (fun u => u = s) := by
  have hw : patCtrlWrite 4#32 s = refuse s := if_pos h
  exact ⟨_, congrArg Host.Outcome.next (ringPut_refused hm hw), rfl⟩

end Sys2Proof.Machine
end

section
/-! ### The tick of an action and the end of the tail (R69, R70, R437) -/

namespace Sys2Proof.Machine

set_option Elab.async false

variable {s t : State} {l : List Part} {ok : Nat → Bool} {a b e p w old : Nat} {stop : Bool} {f g : Fld}

theorem State.actBank_lt (s : State) : s.actBank < 2 := Nat.mod_lt _ (by decide)

/-! #### The headers exchange (R437) -/

theorem State.swapRegs_wf (hs : Tab.wf regReset s.regs = true) (a b : Nat) : Tab.wf regReset (s.swapRegs a b).regs = true :=
  State.setReg_wf (State.setReg_wf hs a _) b _

/-- A register reads what its partner read. -/
theorem State.swapRegs_reg (hs : Tab.wf regReset s.regs = true) (a b x : Nat) :
    (s.swapRegs a b).reg x = s.reg (Equiv.swap a b x) := by
  have hw := State.setReg_wf hs a (s.reg b)
  rw [Equiv.swap_apply_def]
  by_cases hb : x = b
  · subst hb
    rw [State.swapRegs, State.setReg_reg hw]
    split
    · next h => rw [h]
    · simp
  · rw [State.swapRegs, State.setReg_reg_ne hw hb, if_neg hb]
    split
    · next h => rw [h, State.setReg_reg hs]
    · next h => exact State.setReg_reg_ne hs h _

/-- The register of the other header that each register of the two headers exchanges its value with. -/
def headerSwap : Equiv.Perm Nat :=
  (List.range 6).foldl (fun q p => (Equiv.swap (aSH_BUDGET p) (aACT_BUDGET p)).trans q)
    ((Equiv.swap aSH_ID aACT_ID).trans (Equiv.swap aSH_PERIOD aACT_PERIOD))

theorem foldl_swapRegs {x y : Nat → Nat} {r : List Nat} {q : Equiv.Perm Nat}
    (ht : Tab.wf regReset t.regs = true) (hq : ∀ a, t.reg a = s.reg (q a)) :
    Tab.wf regReset (r.foldl (fun u p => u.swapRegs (x p) (y p)) t).regs = true ∧
      ∀ a, (r.foldl (fun u p => u.swapRegs (x p) (y p)) t).reg a =
        s.reg (r.foldl (fun q p => (Equiv.swap (x p) (y p)).trans q) q a) := by
  induction r generalizing t q with
  | nil => exact ⟨ht, hq⟩
  | cons p r ih =>
    refine ih (State.swapRegs_wf ht _ _) fun a => ?_
    rw [State.swapRegs_reg ht, hq]
    rfl

theorem State.swapHeaders_shape (hs : Tab.wf regReset s.regs = true) :
    Tab.wf regReset s.swapHeaders.regs = true ∧ ∀ a, s.swapHeaders.reg a = s.reg (headerSwap a) := by
  refine foldl_swapRegs (State.swapRegs_wf (State.swapRegs_wf hs _ _) _ _) fun a => ?_
  rw [State.swapRegs_reg (State.swapRegs_wf hs _ _), State.swapRegs_reg hs]
  rfl

/-- The registers that taking an action may change. -/
def actionReg (a : Nat) : Bool :=
  among [aPAT_STATUS, aSH_PERIOD, aACT_PERIOD, aSH_ID, aACT_ID] a ||
    among ((List.range 6).flatMap (fun p => [aSH_BUDGET p, aACT_BUDGET p])) a

theorem actionReg_budget (hp : p < 6) : actionReg (aSH_BUDGET p) = true ∧ actionReg (aACT_BUDGET p) = true := by
  interval_cases p <;> decide

theorem headerSwap_eq : headerSwap aACT_PERIOD = aSH_PERIOD ∧ headerSwap aSH_PERIOD = aACT_PERIOD ∧ headerSwap aACT_ID = aSH_ID ∧
    headerSwap aSH_ID = aACT_ID ∧ headerSwap aPAT_STATUS = aPAT_STATUS := by decide

theorem headerSwap_budget (hp : p < 6) : headerSwap (aACT_BUDGET p) = aSH_BUDGET p ∧ headerSwap (aSH_BUDGET p) = aACT_BUDGET p := by
  interval_cases p <;> decide

namespace State.Within

theorem swapRegs (h : s.Within t l ok) (ha : ok a = true ∨ notice a = true) (hb : ok b = true ∨ notice b = true) :
    s.Within (t.swapRegs a b) l ok := (h.setReg ha).setReg hb

theorem swapHeaders (h : s.Within t l actionReg) : s.Within t.swapHeaders l actionReg :=
  ((h.swapRegs (.inl (by decide)) (.inl (by decide))).swapRegs (.inl (by decide)) (.inl (by decide))).foldl fun u p hp => by
    obtain ⟨hsh, hact⟩ := actionReg_budget (List.mem_range.1 hp)
    exact (State.Within.refl u l actionReg).swapRegs (.inl hsh) (.inl hact)

end State.Within

/-! #### The bank that becomes active -/

/-- A start or swap before the headers exchange: the tables apply from this tick, and those of the old bank no longer where it is
swapped out. -/
def State.readyBank (s : State) : State :=
  let act := s.fld aPAT_STATUS fPAT_STATUS_ARMED
  let w := s.tickN
  let old := s.actBank
  let s := s.setFld aPAT_STATUS fPAT_STATUS_ARMED 0
  let new := 1 - old
  let s := if act = 2 then { s with pat := { s.pat with untilTick := tput (fun _ => 2 ^ 64) s.pat.untilTick old w } } else s
  let s := { s with pat := { s.pat with
    fromTick := tput (fun _ => 2 ^ 64) s.pat.fromTick new w
    untilTick := tput (fun _ => 2 ^ 64) s.pat.untilTick new (2 ^ 64) } }
  let joined := (List.range 8).filter (fun d => s.awaits d && s.pat.okBits.toNat.testBit (8 * new + d))
  let left := joined.foldl (fun (v : BitVec 8) d => v &&& ~~~(BitVec.ofNat 8 (2 ^ d))) s.pat.rejoin
  { s with pat := { s.pat with rejoin := left, alignLost := s.pat.alignLost && !(act == 1 && s.aligned) } }

/-- A start or swap before the tail and its event: the shadow bank is active, with its header. -/
def State.switchBank (s : State) : State :=
  let t := (s.readyBank.setFld aPAT_STATUS fPAT_STATUS_ACT_BANK (1 - s.actBank)).swapHeaders
  (t.setBit aPAT_STATUS fPAT_STATUS_RUN true).syncShadowOk

theorem State.takeAction_start (h : s.fld aPAT_STATUS fPAT_STATUS_ARMED = 1) :
    s.takeAction = (s.switchBank.raise 26).syncBreach := by
  unfold State.takeAction State.switchBank State.readyBank
  simp only [h]
  rfl

theorem State.takeAction_swap (h : s.fld aPAT_STATUS fPAT_STATUS_ARMED = 2) :
    s.takeAction = ((s.switchBank.startTail false s.actBank s.period s.tickN).raise 27).syncBreach := by
  unfold State.takeAction State.switchBank State.readyBank
  simp only [h]
  rfl

/-- Of the parts, a bank made ready changes the pattern alone. -/
theorem State.readyBank_shape (s : State) : ∃ p : Pat, s.readyBank = { s.setFld aPAT_STATUS fPAT_STATUS_ARMED 0 with pat := p } ∧
    p.store = s.pat.store ∧ p.flight = s.pat.flight ∧
      p.fromTick = tput (fun _ => 2 ^ 64) s.pat.fromTick (1 - s.actBank) s.tickN ∧
      p.untilTick = tput (fun _ => 2 ^ 64) (if s.fld aPAT_STATUS fPAT_STATUS_ARMED = 2 then
        tput (fun _ => 2 ^ 64) s.pat.untilTick s.actBank s.tickN else s.pat.untilTick) (1 - s.actBank) (2 ^ 64) := by
  unfold State.readyBank
  by_cases h : s.fld aPAT_STATUS fPAT_STATUS_ARMED = 2
  · simp only [h, if_true]
    exact ⟨_, rfl, rfl, rfl, rfl, rfl⟩
  · simp only [h, if_false]
    exact ⟨_, rfl, rfl, rfl, rfl, rfl⟩

/-- What is on its way to a pattern's routers, and the tables, are as they were; the new bank injects from this tick, and the old
one, swapped out, until it. -/
theorem State.switchBank_pat (hs : s.Inv) :
    s.switchBank.pat.store = s.pat.store ∧ s.switchBank.pat.flight = s.pat.flight ∧
      tget (fun _ => 2 ^ 64) s.switchBank.pat.fromTick (1 - s.actBank) = s.tickN ∧
      (s.fld aPAT_STATUS fPAT_STATUS_ARMED = 2 → tget (fun _ => 2 ^ 64) s.switchBank.pat.untilTick s.actBank = s.tickN) := by
  have hc := s.canon_iff.mpr hs
  have hold : s.actBank ≠ 1 - s.actBank := by omega
  have hp : s.switchBank.pat = s.readyBank.pat := rfl
  obtain ⟨p, hp', hstore, hflight, hfrom, huntil⟩ := s.readyBank_shape
  rw [hp, hp']
  refine ⟨hstore, hflight, ?_, fun h2 => ?_⟩
  · change tget _ p.fromTick _ = _
    rw [hfrom, tget_tput_same hc.fromTick]
  · change tget _ p.untilTick _ = _
    rw [huntil, if_pos h2, tget_tput_ne (tput_wf hc.untilTick _ _) hold, tget_tput_same hc.untilTick]

theorem State.syncShadowOk_eq (s : State) : ∃ n, s.syncShadowOk = s.setFld aPAT_STATUS fPAT_STATUS_SHADOW_OK n := ⟨_, rfl⟩

/-- The words of the registers once the bank is switched. -/
theorem State.switchBank_reg (hs : Tab.wf regReset s.regs = true) :
    Tab.wf regReset s.switchBank.regs = true ∧ (∀ a, a ≠ aPAT_STATUS → s.switchBank.reg a = s.reg (headerSwap a)) ∧
      ∃ n, s.switchBank.reg aPAT_STATUS = putF (putF (putF (putF (s.reg aPAT_STATUS) fPAT_STATUS_ARMED 0)
        fPAT_STATUS_ACT_BANK (1 - s.actBank)) fPAT_STATUS_RUN true.toNat) fPAT_STATUS_SHADOW_OK n := by
  obtain ⟨p, hp, -⟩ := s.readyBank_shape
  have h1 : Tab.wf regReset s.readyBank.regs = true := by
    rw [hp]
    exact State.setFld_wf hs _ _ _
  have hr1 : ∀ a, s.readyBank.reg a = (s.setFld aPAT_STATUS fPAT_STATUS_ARMED 0).reg a := fun a => by rw [hp]; rfl
  unfold State.switchBank
  generalize s.readyBank = r at h1 hr1
  have h2 := State.setFld_wf h1 aPAT_STATUS fPAT_STATUS_ACT_BANK (1 - s.actBank)
  obtain ⟨h3, hr3⟩ := State.swapHeaders_shape h2
  have h4 := State.setBit_wf h3 aPAT_STATUS fPAT_STATUS_RUN true
  obtain ⟨n, hn⟩ := State.syncShadowOk_eq ((r.setFld aPAT_STATUS fPAT_STATUS_ACT_BANK (1 - s.actBank)).swapHeaders.setBit
    aPAT_STATUS fPAT_STATUS_RUN true)
  rw [hn]
  refine ⟨State.setFld_wf h4 _ _ _, fun a ha => ?_, n, ?_⟩
  · have hb : headerSwap a ≠ aPAT_STATUS := fun h => ha (headerSwap.injective (h.trans headerSwap_eq.2.2.2.2.symm))
    rw [State.setFld_reg h4, if_neg ha, State.setBit_reg h3, if_neg ha, hr3, State.setFld_reg h1, if_neg hb,
      hr1, State.setFld_reg hs, if_neg hb]
  · rw [State.setFld_reg h4, if_pos rfl, State.setBit_reg h3, if_pos rfl, hr3, headerSwap_eq.2.2.2.2,
      State.setFld_reg h1, if_pos rfl, hr1, State.setFld_reg hs, if_pos rfl]

theorem State.switchBank_within (s : State) : s.Within s.switchBank [.ev, .hw, .pat] actionReg := by
  have hst : actionReg aPAT_STATUS = true ∨ notice aPAT_STATUS = true := .inl (by decide)
  obtain ⟨p, hp, -⟩ := s.readyBank_shape
  unfold State.switchBank
  rw [hp]
  exact (((((State.Within.refl s _ _).setFld hst).put_pat).setFld hst).swapHeaders.setBit hst).setFld hst

/-! #### The tail -/

/-- What the start of a tail leaves: the tables, what is on its way and the injections as they were; `TAIL` set while flits of the
old bank are on their way; a stop that needs no tail raises event 28 at once. -/
theorem State.startTail_shape (s : State) (stop : Bool) (old p w : Nat) :
    ∃ q : Pat, q.store = s.pat.store ∧ q.flight = s.pat.flight ∧ q.fromTick = s.pat.fromTick ∧ q.untilTick = s.pat.untilTick ∧
      ((s.bankFlits old = false ∧ s.startTail stop old p w = if stop then { s with pat := q }.raise 28 else { s with pat := q }) ∨
        s.startTail stop old p w = { s with pat := q }.setBit aPAT_STATUS fPAT_STATUS_TAIL true) := by
  refine ⟨{ s.pat with tailEnd := s.bankTail old p w, tailStop := stop, oldPeriod := p }, rfl, rfl, rfl, rfl, ?_⟩
  by_cases h : (decide (s.bankTail old p w < w) && !s.bankFlits old) = true
  · refine .inl ⟨by simpa using (Bool.and_eq_true_iff.1 h).2, ?_⟩
    exact if_pos h
  · exact .inr (if_neg h)

end Sys2Proof.Machine
end

section
/-! ### Taking the armed action (R69, R70, R437) -/

namespace Sys2Proof.Machine

set_option Elab.async false

variable {s t u : State} {a e : Nat}

/-! #### An event and the breach word leave everything else -/

theorem State.signal_reg (hu : Tab.wf regReset u.regs = true) (he : e < 2048) (ha : notice a = false) :
    (u.raise e).syncBreach.reg a = u.reg a :=
  (((State.Within.refl u [.ev, .hw] (fun _ => false)).raise he).syncBreach).regs hu a rfl ha

theorem State.signal_pat (he : e < 2048) : (u.raise e).syncBreach.pat = u.pat :=
  (((State.Within.refl u [.ev, .hw] (fun _ => false)).raise he).syncBreach).parts .pat (by decide)

theorem State.signal_showsEvent (hu : Tab.wf regReset u.regs = true) (he : e < 2048) (hc : isCollected e = false) :
    (u.raise e).syncBreach.showsEvent e :=
  (State.raise_latched hu he hc).syncBreach.showsEvent hc

/-! #### A start or a swap -/

theorem headers_quiet : notice aACT_PERIOD = false ∧ notice aSH_PERIOD = false ∧ notice aACT_ID = false ∧ notice aSH_ID = false := by
  decide

theorem budgets_quiet {p : Nat} (hp : p < 6) : notice (aACT_BUDGET p) = false ∧ notice (aSH_BUDGET p) = false := by
  interval_cases p <;> decide

/-- The state says that the shadow bank has become active with its header. -/
def State.switchedTo (s t : State) : Prop :=
  t.bit aPAT_STATUS fPAT_STATUS_RUN = true ∧ t.fld aPAT_STATUS fPAT_STATUS_ARMED = 0 ∧ t.actBank = 1 - s.actBank ∧
    t.reg aACT_PERIOD = s.reg aSH_PERIOD ∧ t.reg aSH_PERIOD = s.reg aACT_PERIOD ∧ t.reg aACT_ID = s.reg aSH_ID ∧
    t.reg aSH_ID = s.reg aACT_ID ∧
    ∀ p, p < 6 → t.reg (aACT_BUDGET p) = s.reg (aSH_BUDGET p) ∧ t.reg (aSH_BUDGET p) = s.reg (aACT_BUDGET p)

/-- Registers as the switch left them, but for `TAIL`, say so. -/
theorem State.switchedTo_of (hs : Tab.wf regReset s.regs = true)
    (hreg : ∀ a, a ≠ aPAT_STATUS → notice a = false → t.reg a = s.switchBank.reg a)
    (hst : t.reg aPAT_STATUS = s.switchBank.reg aPAT_STATUS ∨
      t.reg aPAT_STATUS = putF (s.switchBank.reg aPAT_STATUS) fPAT_STATUS_TAIL true.toNat) : s.switchedTo t := by
  obtain ⟨-, hswap, n, hword⟩ := State.switchBank_reg hs
  have hfld : ∀ f : Fld, f.lsb + f.width ≤ fPAT_STATUS_TAIL.lsb ∨ fPAT_STATUS_TAIL.lsb + 1 ≤ f.lsb →
      t.fld aPAT_STATUS f = getF (s.switchBank.reg aPAT_STATUS) f := by
    intro f hf
    obtain h | h := hst
    · rw [State.fld, h]
    · rw [State.fld, h, getF_putF_disjoint _ _ _ _ hf]
  have hmove : ∀ a, a ≠ aPAT_STATUS → notice a = false → t.reg a = s.reg (headerSwap a) :=
    fun a ha hn => (hreg a ha hn).trans (hswap a ha)
  obtain ⟨hap, hsp, hai, hsi, -⟩ := headerSwap_eq
  obtain ⟨qap, qsp, qai, qsi⟩ := headers_quiet
  refine ⟨?_, ?_, ?_, ?_, ?_, ?_, ?_, fun p hp => ?_⟩
  · have hrun : t.bit aPAT_STATUS fPAT_STATUS_RUN = getB (s.switchBank.reg aPAT_STATUS) fPAT_STATUS_RUN := by
      rw [State.bit, getB_eq_testBit_getF _ rfl, getB_eq_testBit_getF _ rfl, ← hfld fPAT_STATUS_RUN (.inr (by decide))]
      rfl
    rw [hrun, hword, getB_putF_disjoint _ _ (by decide) (.inr (by decide)), getB_putF_same _ _ (by decide) rfl]
  · rw [hfld _ (.inl (by decide)), hword, getF_putF_disjoint _ _ _ _ (by decide), getF_putF_disjoint _ _ _ _ (by decide),
      getF_putF_disjoint _ _ _ _ (by decide), getF_putF _ _ _ (by decide)]
    rfl
  · rw [State.actBank, hfld _ (.inl (by decide)), hword, getF_putF_disjoint _ _ _ _ (by decide),
      getF_putF_disjoint _ _ _ _ (by decide), getF_putF _ _ _ (by decide)]
    exact Nat.mod_eq_of_lt (Nat.lt_of_le_of_lt (Nat.sub_le 1 _) (by decide))
  · rw [hmove _ (by decide) qap, hap]
  · rw [hmove _ (by decide) qsp, hsp]
  · rw [hmove _ (by decide) qai, hai]
  · rw [hmove _ (by decide) qsi, hsi]
  · obtain ⟨hact, hsh⟩ := headerSwap_budget hp
    obtain ⟨qact, qsh⟩ := budgets_quiet hp
    have hne : aACT_BUDGET p ≠ aPAT_STATUS ∧ aSH_BUDGET p ≠ aPAT_STATUS := by interval_cases p <;> decide
    rw [hmove _ hne.1 qact, hmove _ hne.2 qsh, hact, hsh]
    exact ⟨rfl, rfl⟩

/-- On its tick the armed action is taken. -/
theorem exec_patternActionTick (hr : s.hubRuns = true) (ha : s.fld aPAT_STATUS fPAT_STATUS_ARMED ≠ 0)
    (ht : s.tickN = s.reg64 aPAT_AT_LO aPAT_AT_HI) : exec .patternActionTick s = .next s.takeAction := by
  change execPatternActionTick s = _
  simp [execPatternActionTick, hr, ha, ht]

theorem exec_patternActionTick_idle
    (h : s.fld aPAT_STATUS fPAT_STATUS_ARMED = 0 ∨ s.tickN ≠ s.reg64 aPAT_AT_LO aPAT_AT_HI) : exec .patternActionTick s = .next s := by
  refine if_neg fun hc => ?_
  simp only [Bool.and_eq_true, bne_iff_ne, beq_iff_eq] at hc
  exact h.elim hc.1.2 fun hn => hn hc.2

theorem takeAction_starts (hs : s.Inv) (ha : s.fld aPAT_STATUS fPAT_STATUS_ARMED = 1) :
    s.switchedTo s.takeAction ∧ tget (fun _ => 2 ^ 64) s.takeAction.pat.fromTick (1 - s.actBank) = s.tickN ∧
      s.takeAction.pat.store = s.pat.store ∧ s.takeAction.pat.flight = s.pat.flight ∧ s.takeAction.showsEvent 26 ∧
      s.keepsElse s.takeAction [.ev, .hw, .pat] actionReg := by
  obtain ⟨hstore, hflight, hfrom, -⟩ := State.switchBank_pat hs
  obtain ⟨hwf, -⟩ := State.switchBank_reg hs.regs_wf
  rw [State.takeAction_start ha]
  have hp := State.signal_pat (u := s.switchBank) (e := 26) (by decide)
  refine ⟨State.switchedTo_of hs.regs_wf (fun a _ hn => State.signal_reg hwf (by decide) hn)
    (.inl (State.signal_reg hwf (by decide) patStatus_quiet)), ?_, ?_, ?_, State.signal_showsEvent hwf (by decide) (by decide),
    ((s.switchBank_within.raise (by decide)).syncBreach).keepsElse hs.regs_wf⟩
  · rw [hp, hfrom]
  · rw [hp, hstore]
  · rw [hp, hflight]

/-- The tail of a swap: `TAIL` is set unless no flit of the old bank is on its way. -/
theorem State.startTail_swap {v : State} {old p w : Nat} (hv : Tab.wf regReset v.regs = true) :
    Tab.wf regReset (v.startTail false old p w).regs = true ∧
      (∀ a, a ≠ aPAT_STATUS → (v.startTail false old p w).reg a = v.reg a) ∧
      ((v.startTail false old p w).reg aPAT_STATUS = v.reg aPAT_STATUS ∧ v.bankFlits old = false ∨
        (v.startTail false old p w).reg aPAT_STATUS = putF (v.reg aPAT_STATUS) fPAT_STATUS_TAIL true.toNat) := by
  obtain ⟨q, -, -, -, -, ⟨hnone, h⟩ | h⟩ := v.startTail_shape false old p w
  · rw [h]
    exact ⟨hv, fun _ _ => rfl, .inl ⟨rfl, hnone⟩⟩
  · have hq : Tab.wf regReset ({ v with pat := q } : State).regs = true := hv
    rw [h]
    refine ⟨State.setBit_wf hq _ _ _, fun a ha => ?_, .inr ?_⟩
    · rw [State.setBit_reg hq, if_neg ha]
      rfl
    · rw [State.setBit_reg hq, if_pos rfl]
      rfl

/-- The start of a tail keeps the tables, what is on its way and the ticks of the banks. -/
theorem State.startTail_pat {v : State} {stop : Bool} {old p w : Nat} :
    (v.startTail stop old p w).pat.store = v.pat.store ∧ (v.startTail stop old p w).pat.flight = v.pat.flight ∧
      (v.startTail stop old p w).pat.fromTick = v.pat.fromTick ∧ (v.startTail stop old p w).pat.untilTick = v.pat.untilTick := by
  obtain ⟨q, hstore, hflight, hfrom, huntil, h⟩ := v.startTail_shape stop old p w
  have hp : (v.startTail stop old p w).pat = q := by
    obtain ⟨-, h⟩ | h := h
    · rw [h]
      split
      · exact ((State.Within.refl { v with pat := q } [.ev, .hw] (fun _ => false)).raise (by decide)).parts .pat (by decide)
      · rfl
    · rw [h]
      rfl
  rw [hp]
  exact ⟨hstore, hflight, hfrom, huntil⟩

theorem State.Within.startTail {v : State} {l : List Part} {ok : Nat → Bool} {stop : Bool} {old p w : Nat} (h : s.Within v l ok)
    (ho : ok aPAT_STATUS = true) (hw : .hw ∈ l := by decide) (hv : .ev ∈ l := by decide) (hp : .pat ∈ l := by decide) :
    s.Within (v.startTail stop old p w) l ok := by
  obtain ⟨q, -, -, -, -, ⟨-, e⟩ | e⟩ := v.startTail_shape stop old p w
  · rw [e]
    exact ((h.put_pat hp).raise (by decide) hw hv).ite (h.put_pat hp)
  · rw [e]
    exact (h.put_pat hp).setBit (.inl ho) hw

theorem takeAction_swaps (hs : s.Inv) (ha : s.fld aPAT_STATUS fPAT_STATUS_ARMED = 2) :
    s.switchedTo s.takeAction ∧ tget (fun _ => 2 ^ 64) s.takeAction.pat.fromTick (1 - s.actBank) = s.tickN ∧
      s.takeAction.pat.store = s.pat.store ∧ s.takeAction.pat.flight = s.pat.flight ∧ s.takeAction.showsEvent 27 ∧
      tget (fun _ => 2 ^ 64) s.takeAction.pat.untilTick s.actBank = s.tickN ∧
      (s.bankFlits s.actBank = true → s.takeAction.bit aPAT_STATUS fPAT_STATUS_TAIL = true) ∧
      s.keepsElse s.takeAction [.ev, .hw, .pat] actionReg := by
  obtain ⟨hstore, hflight, hfrom, huntil⟩ := State.switchBank_pat hs
  obtain ⟨hwf, -⟩ := State.switchBank_reg hs.regs_wf
  have hmine : s.switchBank.bankFlits s.actBank = s.bankFlits s.actBank := by rw [State.bankFlits, hflight, State.bankFlits]
  obtain ⟨huwf, hur, hust⟩ := State.startTail_swap (old := s.actBank) (p := s.period) (w := s.tickN) hwf
  obtain ⟨qstore, qflight, qfrom, quntil⟩ :=
    State.startTail_pat (v := s.switchBank) (stop := false) (old := s.actBank) (p := s.period) (w := s.tickN)
  have huw := (s.switchBank_within).startTail (stop := false) (old := s.actBank) (p := s.period) (w := s.tickN) (by decide)
  rw [State.takeAction_swap ha]
  generalize s.switchBank.startTail false s.actBank s.period s.tickN = u at *
  have hp := State.signal_pat (u := u) (e := 27) (by decide)
  have hst := State.signal_reg (e := 27) huwf (by decide) patStatus_quiet
  refine ⟨State.switchedTo_of hs.regs_wf (fun a h hn => (State.signal_reg huwf (by decide) hn).trans (hur a h)) ?_, ?_, ?_, ?_,
    State.signal_showsEvent huwf (by decide) (by decide), ?_, fun hm => ?_,
    ((huw.raise (by decide)).syncBreach).keepsElse hs.regs_wf⟩
  · rw [hst]
    exact hust.imp And.left id
  · rw [hp, qfrom, hfrom]
  · rw [hp, qstore, hstore]
  · rw [hp, qflight, hflight]
  · rw [hp, quntil, huntil ha]
  · obtain ⟨-, hnone⟩ | h := hust
    · simp [hmine, hm] at hnone
    · rw [State.bit, hst, h, getB_putF_same _ _ (by decide) rfl]

end Sys2Proof.Machine
end

section
/-! ### A stop, the end of the tail, and the statement (R69, R70) -/

namespace Sys2Proof.Machine

set_option Elab.async false

variable {s t u : State} {a e : Nat}

/-- A stop before its tail: `ARMED` and `RUN` read 0, and the bank injects no longer. -/
def State.stopBank (s : State) : State :=
  let t := (s.setFld aPAT_STATUS fPAT_STATUS_ARMED 0).setBit aPAT_STATUS fPAT_STATUS_RUN false
  { t with pat := { t.pat with untilTick := tput (fun _ => 2 ^ 64) t.pat.untilTick s.actBank s.tickN } }

theorem State.takeAction_stop (h : s.fld aPAT_STATUS fPAT_STATUS_ARMED = 3) :
    s.takeAction = (s.stopBank.startTail true s.actBank s.period s.tickN).syncBreach := by
  unfold State.takeAction State.stopBank
  simp only [h]
  rfl

theorem State.stopBank_reg (hs : Tab.wf regReset s.regs = true) :
    Tab.wf regReset s.stopBank.regs = true ∧
      s.stopBank.reg aPAT_STATUS = putF (putF (s.reg aPAT_STATUS) fPAT_STATUS_ARMED 0) fPAT_STATUS_RUN false.toNat := by
  have hw := State.setFld_wf hs aPAT_STATUS fPAT_STATUS_ARMED 0
  refine ⟨State.setBit_wf hw _ _ _, ?_⟩
  change ((s.setFld aPAT_STATUS fPAT_STATUS_ARMED 0).setBit aPAT_STATUS fPAT_STATUS_RUN false).reg aPAT_STATUS = _
  rw [State.setBit_reg hw, if_pos rfl, State.setFld_reg hs, if_pos rfl]

/-- The tail of a stop: `TAIL` is set, or no flit of the bank is on its way and event 28 is raised. -/
theorem State.startTail_stop {v : State} {old p w : Nat} (hv : Tab.wf regReset v.regs = true) :
    Tab.wf regReset (v.startTail true old p w).regs = true ∧
      ((v.startTail true old p w).reg aPAT_STATUS = v.reg aPAT_STATUS ∧ v.bankFlits old = false ∧
          (v.startTail true old p w).Latched 28 ∨
        (v.startTail true old p w).reg aPAT_STATUS = putF (v.reg aPAT_STATUS) fPAT_STATUS_TAIL true.toNat) := by
  obtain ⟨q, -, -, -, -, h⟩ := v.startTail_shape true old p w
  have hq : Tab.wf regReset ({ v with pat := q } : State).regs = true := hv
  obtain ⟨hnone, h⟩ | h := h
  · rw [if_pos rfl] at h
    have hr := (State.Within.refl { v with pat := q } [.ev, .hw] (fun _ => false)).raise (e := 28) (by decide)
    rw [h]
    exact ⟨hr.wf hq, .inl ⟨hr.regs hq aPAT_STATUS rfl patStatus_quiet, hnone, State.raise_latched hq (by decide) (by decide)⟩⟩
  · rw [h]
    refine ⟨State.setBit_wf hq _ _ _, .inr ?_⟩
    rw [State.setBit_reg hq, if_pos rfl]
    rfl

theorem State.stopBank_within (s : State) {l : List Part} (hw : .hw ∈ l) (hp : .pat ∈ l) :
    s.Within s.stopBank l (among [aPAT_STATUS]) :=
  (((State.Within.refl s _ _).setFld (.inl (by decide))).setBit (.inl (by decide)) hw).put_pat hp

theorem takeAction_stops (hs : s.Inv) (ha : s.fld aPAT_STATUS fPAT_STATUS_ARMED = 3) :
    s.takeAction.bit aPAT_STATUS fPAT_STATUS_RUN = false ∧ s.takeAction.fld aPAT_STATUS fPAT_STATUS_ARMED = 0 ∧
      s.takeAction.actBank = s.actBank ∧ tget (fun _ => 2 ^ 64) s.takeAction.pat.untilTick s.actBank = s.tickN ∧
      (s.bankFlits s.actBank = true → s.takeAction.bit aPAT_STATUS fPAT_STATUS_TAIL = true) ∧
      (s.takeAction.bit aPAT_STATUS fPAT_STATUS_TAIL = false → s.takeAction.showsEvent 28) ∧
      s.takeAction.pat.store = s.pat.store ∧ s.takeAction.pat.flight = s.pat.flight ∧
      s.keepsElse s.takeAction [.ev, .hw, .pat] (among [aPAT_STATUS]) := by
  have hc := s.canon_iff.mpr hs
  obtain ⟨hwf, hword⟩ := State.stopBank_reg hs.regs_wf
  obtain ⟨huwf, hust⟩ := State.startTail_stop (old := s.actBank) (p := s.period) (w := s.tickN) hwf
  obtain ⟨qstore, qflight, -, quntil⟩ :=
    State.startTail_pat (v := s.stopBank) (stop := true) (old := s.actBank) (p := s.period) (w := s.tickN)
  have huw := (s.stopBank_within (l := [.ev, .hw, .pat]) (by decide) (by decide)).startTail (stop := true) (old := s.actBank)
    (p := s.period) (w := s.tickN) (by decide)
  have hmine : s.stopBank.bankFlits s.actBank = s.bankFlits s.actBank := rfl
  rw [State.takeAction_stop ha]
  generalize s.stopBank.startTail true s.actBank s.period s.tickN = u at *
  have hsync := (State.Within.refl u [.ev, .hw] (fun _ => false)).syncBreach
  have hp : u.syncBreach.pat = u.pat := hsync.parts .pat (by decide)
  have hreg : u.syncBreach.reg aPAT_STATUS = u.reg aPAT_STATUS := hsync.regs huwf aPAT_STATUS rfl patStatus_quiet
  have hfld : ∀ f : Fld, f.lsb + f.width ≤ fPAT_STATUS_TAIL.lsb ∨ fPAT_STATUS_TAIL.lsb + 1 ≤ f.lsb →
      u.syncBreach.fld aPAT_STATUS f = getF (s.stopBank.reg aPAT_STATUS) f := by
    intro f hf
    obtain ⟨h, -, -⟩ | h := hust
    · rw [State.fld, hreg, h]
    · rw [State.fld, hreg, h, getF_putF_disjoint _ _ _ _ hf]
  refine ⟨?_, ?_, ?_, ?_, fun hm => ?_, fun htail => ?_, ?_, ?_, (huw.syncBreach).keepsElse hs.regs_wf⟩
  · have hrun : u.syncBreach.bit aPAT_STATUS fPAT_STATUS_RUN = getB (s.stopBank.reg aPAT_STATUS) fPAT_STATUS_RUN := by
      rw [State.bit, getB_eq_testBit_getF _ rfl, getB_eq_testBit_getF _ rfl, ← hfld fPAT_STATUS_RUN (.inr (by decide))]
      rfl
    rw [hrun, hword, getB_putF_same _ _ (by decide) rfl]
  · rw [hfld _ (.inl (by decide)), hword, getF_putF_disjoint _ _ _ _ (by decide), getF_putF _ _ _ (by decide)]
    rfl
  · rw [State.actBank, hfld _ (.inl (by decide)), hword, getF_putF_disjoint _ _ _ _ (by decide),
      getF_putF_disjoint _ _ _ _ (by decide)]
    rfl
  · rw [hp, quntil]
    exact tget_tput_same hc.untilTick _ _
  · obtain ⟨-, hnone, -⟩ | h := hust
    · simp [hmine, hm] at hnone
    · rw [State.bit, hreg, h, getB_putF_same _ _ (by decide) rfl]
  · obtain ⟨-, -, hl⟩ | h := hust
    · exact hl.syncBreach.showsEvent (by decide)
    · rw [State.bit, hreg, h, getB_putF_same _ _ (by decide) rfl] at htail
      cases htail
  · rw [hp, qstore]
    rfl
  · rw [hp, qflight]
    rfl

/-! #### The end of the tail -/

/-- Bank of the pattern whose tail passes. -/
def State.tailBank (s : State) : Nat := if s.bit aPAT_STATUS fPAT_STATUS_RUN then s.shBank else s.actBank

theorem exec_tailEnd (ht : s.bit aPAT_STATUS fPAT_STATUS_TAIL = true) (he : s.pat.tailEnd ≤ s.tickN)
    (hf : s.bankFlits s.tailBank = false) :
    exec .tailEnd s = .next (if s.pat.tailStop then ((s.setBit aPAT_STATUS fPAT_STATUS_TAIL false).raise 28).syncBreach
      else s.setBit aPAT_STATUS fPAT_STATUS_TAIL false) := by
  refine if_pos ?_
  change (s.bit aPAT_STATUS fPAT_STATUS_TAIL && decide (s.pat.tailEnd ≤ s.tickN) && !s.bankFlits s.tailBank) = true
  simp [ht, he, hf]

theorem exec_tailEnd_idle (h : s.tickN < s.pat.tailEnd ∨ s.bankFlits s.tailBank = true) : exec .tailEnd s = .next s := by
  refine if_neg ?_
  change ¬ (s.bit aPAT_STATUS fPAT_STATUS_TAIL && decide (s.pat.tailEnd ≤ s.tickN) && !s.bankFlits s.tailBank) = true
  obtain h | h := h
  · simp [Nat.not_le.2 h]
  · simp [h]

theorem tailEnd_stop (hs : s.Inv) (ht : s.bit aPAT_STATUS fPAT_STATUS_TAIL = true) (he : s.pat.tailEnd ≤ s.tickN)
    (hf : s.bankFlits s.tailBank = false) (hstop : s.pat.tailStop = true) :
    Leads .tailEnd s (fun t => t.bit aPAT_STATUS fPAT_STATUS_TAIL = false ∧ t.showsEvent 28 ∧
      s.keepsElse t [.ev, .hw] (among [aPAT_STATUS])) := by
  have hw := State.setBit_wf hs.regs_wf aPAT_STATUS fPAT_STATUS_TAIL false
  refine ⟨_, by rw [exec_tailEnd ht he hf, if_pos hstop], ?_, State.signal_showsEvent hw (by decide) (by decide), ?_⟩
  · rw [State.bit, State.signal_reg hw (by decide) patStatus_quiet]
    exact State.setBit_bit_same hs.regs_wf rfl (by decide)
  · exact ((((State.Within.refl s _ _).setBit (.inl (by decide))).raise (by decide)).syncBreach).keepsElse hs.regs_wf

/-- Settles O12, action by action: the write of `PAT_CTRL`, its cancelling, the tick of the action, and the end of the tail. -/
theorem patternActions : Obligations.PatternActions := by
  intro s hs
  refine ⟨fun m hm hc => patCtrl_arms rfl rfl (by decide) hs hm hc, fun m c hm h1 hc => patCtrl_refuses rfl rfl (by decide) hs hm h1 hc,
    fun m hm hc => patCtrl_arms rfl rfl (by decide) hs hm hc, fun m c hm h1 hc => patCtrl_refuses rfl rfl (by decide) hs hm h1 hc,
    fun m hm hc => patCtrl_arms rfl rfl (by decide) hs hm hc, fun m c hm h1 hc => patCtrl_refuses rfl rfl (by decide) hs hm h1 hc,
    fun m => patCtrl_cancels, fun m => patCtrl_cancelRefused, fun hr ha ht => ?_, fun hr ha ht => ?_, fun hr ha ht => ?_,
    exec_patternActionTick_idle, tailEnd_stop hs, fun ht he hf hstop => ?_, exec_tailEnd_idle⟩
  · obtain ⟨⟨hrun, harm, hbank, hap, hsp, hai, hsi, hbud⟩, hrest⟩ := takeAction_starts hs ha
    exact ⟨_, exec_patternActionTick hr (by omega) ht, hrun, harm, hbank, hap, hsp, hai, hsi, hbud, hrest⟩
  · obtain ⟨⟨hrun, harm, hbank, hap, hsp, hai, hsi, hbud⟩, hrest⟩ := takeAction_swaps hs ha
    exact ⟨_, exec_patternActionTick hr (by omega) ht, hrun, harm, hbank, hap, hsp, hai, hsi, hbud, hrest⟩
  · exact ⟨_, exec_patternActionTick hr (by omega) ht, takeAction_stops hs ha⟩
  · rw [exec_tailEnd ht he hf, hstop]
    rfl

end Sys2Proof.Machine
end

section
/-! ### Words of the table entries that `PS_ADDR` names (R84; log entry 8) -/

namespace Sys2Proof.Machine

set_option Elab.async false

variable {s t u : State} {m : Rm} {i : NiId} {v : W32} {d n o k a : Nat} {st : RStat} {ok : Nat → Bool} {l : List Part}

/-! #### Which entry `PS_ADDR` names -/

theorem tselSize_le (d n tsel : Nat) : tselSize d n tsel ≤ 4096 := by
  unfold tselSize
  repeat' split
  all_goals decide

theorem tselSize_of_lt (hd : 6 < d) (n tsel : Nat) : tselSize d n tsel = 0 := if_pos hd

/-- An entry that is there stands on one of the seven dies, and its index is below the size of every table. -/
theorem State.psValid_bounds (h : s.psValid d n = true) : d ≤ 6 ∧ s.fld (aPS_ADDR d n) fPS_ADDR_INDEX < 4096 := by
  have hlt := of_decide_eq_true h
  refine ⟨?_, Nat.lt_of_lt_of_le hlt (tselSize_le _ _ _)⟩
  by_contra hd
  rw [tselSize_of_lt (Nat.lt_of_not_le hd)] at hlt
  exact Nat.not_lt_zero _ hlt

/-- `PS_ADDR` of an NI is no register of the pattern's block. -/
theorem aPS_ADDR_ne (hi : niExists d n = true) (hd : d ≤ 6) (ho : o < 65536) : aPS_ADDR d n ≠ ra 6 0x300 o := by
  have hn : n < 48 := by
    simp [niExists] at hi
    omega
  simp only [aPS_ADDR, niA, show d ≠ 7 by omega, if_false, ra]
  omega

theorem aPS_ADDR_ne_status (hi : niExists d n = true) (hd : d ≤ 6) : aPS_ADDR d n ≠ aPAT_STATUS :=
  aPS_ADDR_ne hi hd (by decide)

theorem aPS_ADDR_ne_cstat (hi : niExists d n = true) (hd : d ≤ 6) : aPS_ADDR d n ≠ aPS_CSTAT d :=
  aPS_ADDR_ne hi hd (by omega)

theorem aPS_CSTAT_ne_status (d : Nat) : aPS_CSTAT d ≠ aPAT_STATUS := by
  simp only [aPS_CSTAT, aPAT_STATUS, ra]
  omega

/-! #### `INDEX` advances -/

@[simp] theorem State.psAdvance_pat (s : State) (d n : Nat) : (s.psAdvance d n).pat = s.pat := by
  unfold State.psAdvance
  split <;> rfl

theorem State.Within.psAdvance (h : s.Within t l ok) (ha : ok (aPS_ADDR d n) = true) : s.Within (t.psAdvance d n) l ok :=
  State.Within.ite (h.setFld (.inl ha)) h

theorem State.psAdvance_reg_ne (hs : Tab.wf regReset s.regs = true) (h : a ≠ aPS_ADDR d n) : (s.psAdvance d n).reg a = s.reg a := by
  unfold State.psAdvance
  split
  · rw [State.setFld_reg hs, if_neg h]
  · rfl

/-- What `INDEX` reads after an access that advances it where `AINC` is set. -/
def State.nextIndex (s : State) (d n : Nat) : Nat :=
  if s.bit (aPS_ADDR d n) fPS_ADDR_AINC then (s.fld (aPS_ADDR d n) fPS_ADDR_INDEX + 1) % 8192
  else s.fld (aPS_ADDR d n) fPS_ADDR_INDEX

/-- An index that names an entry never wraps. -/
theorem State.psAdvance_index (hs : Tab.wf regReset t.regs = true) (hv : s.psValid d n = true)
    (hr : t.reg (aPS_ADDR d n) = s.reg (aPS_ADDR d n)) : (t.psAdvance d n).fld (aPS_ADDR d n) fPS_ADDR_INDEX = s.nextIndex d n := by
  obtain ⟨-, hidx⟩ := State.psValid_bounds hv
  have hb : t.bit (aPS_ADDR d n) fPS_ADDR_AINC = s.bit (aPS_ADDR d n) fPS_ADDR_AINC := by simp only [State.bit, hr]
  have hf : t.fld (aPS_ADDR d n) fPS_ADDR_INDEX = s.fld (aPS_ADDR d n) fPS_ADDR_INDEX := by simp only [State.fld, hr]
  unfold State.psAdvance State.nextIndex
  rw [hb, hf]
  split
  · rw [State.fld, State.setFld_reg hs, if_pos rfl, getF_putF _ _ _ (by decide)]
    change _ % 65536 = _
    omega
  · exact hf

/-! #### The validity bits -/

theorem State.setOk_wf (hs : Tab.wf regReset s.regs = true) (k d : Nat) (b : Bool) : Tab.wf regReset (s.setOk k d b).regs = true :=
  State.setFld_wf (s := { s with pat := _ }) hs _ _ _

theorem State.setOk_reg_ne (hs : Tab.wf regReset s.regs = true) {b : Bool} (h : a ≠ aPAT_STATUS) :
    (s.setOk k d b).reg a = s.reg a :=
  (State.setFld_reg (s := { s with pat := _ }) hs _ _ _ _).trans (if_neg h)

theorem State.Within.putOk (h : s.Within t l ok) (ho : ok aPAT_STATUS = true) {b : Bool} (hl : .pat ∈ l := by decide) :
    s.Within (t.setOk k d b) l ok := (h.put_pat hl).setFld (.inl ho)

/-! #### Writes of word 3 -/

theorem exec_patternTableWrite (hi : niExists i.die i.ni = true) (m : Rm) (v : W32) (s : State) :
    exec (.patternTableWrite m i v) s = .next (ringPut m (aPS_DATA_3 i.die i.ni) v (psDataWrite i.die i.ni 3 v) s) := if_pos hi

theorem psDataWrite_decode (h : s.psValid d n = false) : psDataWrite d n k v s = (s, .decode, 0#32) := by
  simp [psDataWrite, h]

theorem psDataWrite_refused (hv : s.psValid d n = true) (h : s.fld (aPS_ADDR d n) fPS_ADDR_TSEL = 2 ∨
    (s.fld (aPS_ADDR d n) fPS_ADDR_TSEL ≠ 9 ∧ (s.bit (aPS_ADDR d n) fPS_ADDR_BANK = true ∨ s.shadowLocked = true ∨
      s.committing d = true))) : psDataWrite d n 3 v s = refuse s := by
  obtain h2 | ⟨h9, hbank | hbusy⟩ := h
  · simp [psDataWrite, hv, h2]
  · simp [psDataWrite, hv, h9, hbank]
  · simp [psDataWrite, hv, h9, hbusy]

theorem psDataWrite_route (hv : s.psValid d n = true) (h9 : s.fld (aPS_ADDR d n) fPS_ADDR_TSEL = 9) :
    psDataWrite d n 3 v s = wrote ((s.setPs 0 d n 9 (s.fld (aPS_ADDR d n) fPS_ADDR_INDEX) (v ++ (s.ni d n).psWords)).psAdvance d n) := by
  simp [psDataWrite, hv, h9]

/-- The shadow bank with an entry stored: the commit of its die counts no more. -/
def State.storeShadow (s : State) (d n : Nat) (e : BitVec 128) : State :=
  ((s.setPs s.shBank d n (s.fld (aPS_ADDR d n) fPS_ADDR_TSEL) (s.fld (aPS_ADDR d n) fPS_ADDR_INDEX) e).setOk s.shBank d false).setBit
    (aPS_CSTAT d) fPS_CSTAT_OK false

theorem psDataWrite_shadow (hv : s.psValid d n = true) (h9 : s.fld (aPS_ADDR d n) fPS_ADDR_TSEL ≠ 9)
    (h2 : s.fld (aPS_ADDR d n) fPS_ADDR_TSEL ≠ 2) (hbank : s.bit (aPS_ADDR d n) fPS_ADDR_BANK = false)
    (hlock : s.shadowLocked = false) (hbusy : s.committing d = false) :
    psDataWrite d n 3 v s = wrote ((s.storeShadow d n (v ++ (s.ni d n).psWords)).psAdvance d n) := by
  simp [psDataWrite, hv, h9, h2, hbank, hlock, hbusy, State.storeShadow]

/-- An entry just stored reads back. -/
theorem State.setPs_ps (hs : Tab.wf psDefault s.pat.store = true) (k d n tsel idx : Nat) (e : BitVec 128)
    (h : u.pat.store = (s.setPs k d n tsel idx e).pat.store) : u.ps k d n tsel idx = e := by
  unfold State.ps
  rw [h]
  exact tget_tput_same hs _ _

theorem patternTable_shadow (hs : s.Inv) (hi : niExists i.die i.ni = true) (hm : s.ringReady m (aPS_DATA_3 i.die i.ni) = true)
    (hv : s.psValid i.die i.ni = true) (h9 : s.fld (aPS_ADDR i.die i.ni) fPS_ADDR_TSEL ≠ 9)
    (h2 : s.fld (aPS_ADDR i.die i.ni) fPS_ADDR_TSEL ≠ 2) (hbank : s.bit (aPS_ADDR i.die i.ni) fPS_ADDR_BANK = false)
    (hlock : s.shadowLocked = false) (hbusy : s.committing i.die = false) :
    Writes (.patternTableWrite m i v) m (aPS_DATA_3 i.die i.ni) v .ok s (fun u =>
      u.ps s.shBank i.die i.ni (s.fld (aPS_ADDR i.die i.ni) fPS_ADDR_TSEL) (s.fld (aPS_ADDR i.die i.ni) fPS_ADDR_INDEX) =
        v ++ (s.ni i.die i.ni).psWords ∧
      u.bit (aPS_CSTAT i.die) fPS_CSTAT_OK = false ∧ u.fld (aPS_ADDR i.die i.ni) fPS_ADDR_INDEX = s.nextIndex i.die i.ni ∧
      u.pat.flight = s.pat.flight ∧ s.keepsElse u [.pat] (among [aPS_ADDR i.die i.ni, aPAT_STATUS, aPS_CSTAT i.die])) := by
  obtain ⟨hd, -⟩ := State.psValid_bounds hv
  have hcs := aPS_ADDR_ne_cstat hi hd
  have hw1 := State.setOk_wf (s := s.setPs s.shBank i.die i.ni (s.fld (aPS_ADDR i.die i.ni) fPS_ADDR_TSEL)
    (s.fld (aPS_ADDR i.die i.ni) fPS_ADDR_INDEX) (v ++ (s.ni i.die i.ni).psWords)) hs.regs_wf s.shBank i.die false
  have hw2 : Tab.wf regReset (s.storeShadow i.die i.ni (v ++ (s.ni i.die i.ni).psWords)).regs = true := State.setBit_wf hw1 _ _ _
  have haddr : (s.storeShadow i.die i.ni (v ++ (s.ni i.die i.ni).psWords)).reg (aPS_ADDR i.die i.ni) =
      s.reg (aPS_ADDR i.die i.ni) := by
    rw [State.storeShadow, State.setBit_reg hw1, if_neg hcs]
    exact State.setOk_reg_ne (s := s.setPs _ _ _ _ _ _) hs.regs_wf (aPS_ADDR_ne_status hi hd)
  refine ⟨_, by rw [exec_patternTableWrite hi, ringPut_wrote hm (psDataWrite_shadow hv h9 h2 hbank hlock hbusy)], ?_, ?_, ?_, ?_, ?_⟩
  · refine State.setPs_ps hs.store_wf _ _ _ _ _ _ ?_
    rw [State.psAdvance_pat, State.storeShadow, State.setBit_pat, State.setOk_store]
  · rw [State.bit, State.psAdvance_reg_ne hw2 hcs.symm, State.storeShadow, State.setBit_reg hw1, if_pos rfl,
      getB_putF_same _ _ (by decide) rfl]
  · exact State.psAdvance_index hw2 hv haddr
  · rw [State.psAdvance_pat, State.storeShadow, State.setBit_pat]
    rfl
  · have hf : s.Within (s.storeShadow i.die i.ni (v ++ (s.ni i.die i.ni).psWords)) [.pat]
        (among [aPS_ADDR i.die i.ni, aPAT_STATUS, aPS_CSTAT i.die]) :=
      ((State.Within.refl s _ _).put_pat.putOk (by simp [among])).setFld (.inl (by simp [among]))
    exact (hf.psAdvance (by simp [among])).keepsElse hs.regs_wf

theorem patternTable_route (hs : s.Inv) (hi : niExists i.die i.ni = true) (hm : s.ringReady m (aPS_DATA_3 i.die i.ni) = true)
    (hv : s.psValid i.die i.ni = true) (h9 : s.fld (aPS_ADDR i.die i.ni) fPS_ADDR_TSEL = 9) :
    Writes (.patternTableWrite m i v) m (aPS_DATA_3 i.die i.ni) v .ok s (fun u =>
      u.ps 0 i.die i.ni 9 (s.fld (aPS_ADDR i.die i.ni) fPS_ADDR_INDEX) = v ++ (s.ni i.die i.ni).psWords ∧
      u.fld (aPS_ADDR i.die i.ni) fPS_ADDR_INDEX = s.nextIndex i.die i.ni ∧ s.keepsElse u [.pat] (among [aPS_ADDR i.die i.ni])) := by
  refine ⟨_, by rw [exec_patternTableWrite hi, ringPut_wrote hm (psDataWrite_route hv h9)], ?_, ?_, ?_⟩
  · exact State.setPs_ps hs.store_wf _ _ _ _ _ _ (by rw [State.psAdvance_pat])
  · exact State.psAdvance_index hs.regs_wf hv rfl
  · exact ((State.Within.refl s _ _).put_pat.psAdvance (by simp [among])).keepsElse hs.regs_wf

theorem patternTable_refused (hi : niExists i.die i.ni = true) (hm : s.ringReady m (aPS_DATA_3 i.die i.ni) = true)
    (hv : s.psValid i.die i.ni = true) (h : s.fld (aPS_ADDR i.die i.ni) fPS_ADDR_TSEL = 2 ∨
    (s.fld (aPS_ADDR i.die i.ni) fPS_ADDR_TSEL ≠ 9 ∧ (s.bit (aPS_ADDR i.die i.ni) fPS_ADDR_BANK = true ∨ s.shadowLocked = true ∨
      s.committing i.die = true))) :
    Writes (.patternTableWrite m i v) m (aPS_DATA_3 i.die i.ni) v .refused s (fun u => u = s) :=
  ⟨s, by rw [exec_patternTableWrite hi, ringPut_refused hm (psDataWrite_refused hv h)], rfl⟩

theorem patternTable_decode (hi : niExists i.die i.ni = true) (hm : s.ringReady m (aPS_DATA_3 i.die i.ni) = true)
    (hv : s.psValid i.die i.ni = false) :
    Writes (.patternTableWrite m i v) m (aPS_DATA_3 i.die i.ni) v .decode s (fun u => u = s) :=
  ⟨s, by rw [exec_patternTableWrite hi, ringPut_answers hm (psDataWrite_decode hv)], rfl⟩

/-! #### Reads -/

/-- The read of a register as a request on the ring. -/
def readReq (a : Nat) : RingReq :=
  { die := a / 4294967296, block := a / 65536 % 65536, off := a % 65536, write := false, data := 0#32 }

/-- The ring carries the read, whatever the target answers. -/
theorem ringRead_answers {x : State → Answer} (h : s.ringReady m a = true) (hx : x s = (u, st, v)) :
    ringDo m (readReq a) x s = u.setMaster m (s.answeredTo m (readReq a) st v) := by
  rw [ringDo_ready (Nat.mod_lt _ (by decide)) (Nat.mod_lt _ (by decide)), hx]
  rwa [ringAddr, readReq, ra_parts]

theorem exec_psDataRead (hi : niExists i.die i.ni = true) (m : Rm) (w : Fin 4) (s : State) :
    exec (.psDataRead m i w) s = .next (ringDo m (readReq (aPS_DATA_0 i.die i.ni + 4 * w.val)) (psDataRead m i.die i.ni w.val) s) :=
  if_pos hi

theorem psDataRead_decode (h : s.psValid d n = false) : psDataRead m d n k s = (s, .decode, 0#32) := by
  simp [psDataRead, h]

/-- The word k of the entry read moves `INDEX`: the last of its table, read by another master than the debug port. -/
def State.readAdvances (s : State) (m : Rm) (d n k : Nat) : Prop :=
  m ≠ .debug ∧ k = if s.fld (aPS_ADDR d n) fPS_ADDR_TSEL = 2 then 0 else 3

theorem psDataRead_ok (h : s.psValid d n = true) : ∃ u, psDataRead m d n k s = (u, .ok, BitVec.ofNat 32
      ((s.ps (s.psBank d n) d n (s.fld (aPS_ADDR d n) fPS_ADDR_TSEL) (s.fld (aPS_ADDR d n) fPS_ADDR_INDEX)).toNat >>> (32 * k))) ∧
    (s.readAdvances m d n k → u = s.psAdvance d n) ∧ (¬ s.readAdvances m d n k → u = s) := by
  refine ⟨_, by simp [psDataRead, h]; rfl, fun hr => if_pos hr, fun hr => if_neg hr⟩

/-- What a read leaves in place once its master holds the answer. -/
theorem psRead_keeps (hu : s.keepsElse u [] ok) (r : RingMaster) :
    (m ≠ .core0 → (u.setMaster m r).ringCore = s.ringCore) ∧ (m ≠ .debug → (u.setMaster m r).ringDebug = s.ringDebug) ∧
      (m ≠ .config → (u.setMaster m r).ringConfig = s.ringConfig) ∧
      s.keepsElse (u.setMaster m r) [.ringCore, .ringDebug, .ringConfig] ok := by
  have hm := u.setMaster_keepsElse m r
  have hparts : masterParts m ⊆ [.ringCore, .ringDebug, .ringConfig] := by cases m <;> simp [masterParts]
  refine ⟨fun h => ?_, fun h => ?_, fun h => ?_, ?_⟩
  · exact (u.setMaster_master_ne r (Ne.symm h)).trans (hu.1 .ringCore (by simp))
  · exact (u.setMaster_master_ne r (Ne.symm h)).trans (hu.1 .ringDebug (by simp))
  · exact (u.setMaster_master_ne r (Ne.symm h)).trans (hu.1 .ringConfig (by simp))
  · exact State.keepsElse_mono (State.keepsElse_append hu ⟨hm.1, fun a _ hn => hm.2 a rfl hn⟩) hparts

theorem patternTable_reads {w : Fin 4} (hs : s.Inv) (hi : niExists i.die i.ni = true)
    (hm : s.ringReady m (aPS_DATA_0 i.die i.ni + 4 * w.val) = true) (hv : s.psValid i.die i.ni = true) :
    Leads (.psDataRead m i w) s (fun t => (t.master m).answered = true ∧ (t.master m).ansStatus = .ok ∧
      (t.master m).ansData = BitVec.ofNat 32 ((s.ps (s.psBank i.die i.ni) i.die i.ni (s.fld (aPS_ADDR i.die i.ni) fPS_ADDR_TSEL)
        (s.fld (aPS_ADDR i.die i.ni) fPS_ADDR_INDEX)).toNat >>> (32 * w.val)) ∧
      (t.fld (aPS_ADDR i.die i.ni) fPS_ADDR_INDEX = if m ≠ .debug ∧
        w.val = (if s.fld (aPS_ADDR i.die i.ni) fPS_ADDR_TSEL = 2 then 0 else 3) ∧
        s.bit (aPS_ADDR i.die i.ni) fPS_ADDR_AINC then (s.fld (aPS_ADDR i.die i.ni) fPS_ADDR_INDEX + 1) % 8192
        else s.fld (aPS_ADDR i.die i.ni) fPS_ADDR_INDEX) ∧
      (m = .debug → t.regs = s.regs) ∧ (m ≠ .core0 → t.ringCore = s.ringCore) ∧ (m ≠ .debug → t.ringDebug = s.ringDebug) ∧
      (m ≠ .config → t.ringConfig = s.ringConfig) ∧
      s.keepsElse t [.ringCore, .ringDebug, .ringConfig] (among [aPS_ADDR i.die i.ni])) := by
  obtain ⟨u, hu, hadv, hstay⟩ := psDataRead_ok (m := m) (k := w.val) hv
  have hkeep : s.keepsElse u [] (among [aPS_ADDR i.die i.ni]) := by
    by_cases hr : s.readAdvances m i.die i.ni w.val
    · rw [hadv hr]
      exact ((State.Within.refl s _ _).psAdvance (by simp [among])).keepsElse hs.regs_wf
    · rw [hstay hr]
      exact s.keepsElse_refl _ _
  refine ⟨_, by rw [exec_psDataRead hi, ringRead_answers hm hu], by simp [State.answeredTo], by simp [State.answeredTo],
    by simp [State.answeredTo], ?_, fun hdbg => ?_, psRead_keeps hkeep _⟩
  · rw [State.fld, State.reg, State.setMaster_regs, ← State.reg, ← State.fld]
    by_cases hr : s.readAdvances m i.die i.ni w.val
    · rw [hadv hr, State.psAdvance_index hs.regs_wf hv rfl, State.nextIndex]
      exact if_congr ⟨fun h => ⟨hr.1, hr.2, h⟩, fun h => h.2.2⟩ rfl rfl
    · rw [hstay hr, if_neg fun h => hr ⟨h.1, h.2.1⟩]
  · rw [State.setMaster_regs, hstay fun h => h.1 hdbg]

theorem patternTable_readsNone {w : Fin 4} (hi : niExists i.die i.ni = true)
    (hm : s.ringReady m (aPS_DATA_0 i.die i.ni + 4 * w.val) = true) (hv : s.psValid i.die i.ni = false) :
    Leads (.psDataRead m i w) s (fun t => (t.master m).answered = true ∧ (t.master m).ansStatus = .decode ∧ t.regs = s.regs ∧
      s.keepsElse t [.ringCore, .ringDebug, .ringConfig] (fun _ => false)) := by
  obtain ⟨-, -, -, hkeep⟩ := psRead_keeps (m := m) (s.keepsElse_refl [] fun _ => false)
    (s.answeredTo m (readReq (aPS_DATA_0 i.die i.ni + 4 * w.val)) .decode 0#32)
  exact ⟨_, by rw [exec_psDataRead hi, ringRead_answers hm (psDataRead_decode hv)], by simp [State.answeredTo],
    by simp [State.answeredTo], by simp, hkeep⟩

/-! #### `SF_POP` -/

theorem sfPop_drops (hm : s.ringReady m aSF_POP = true) : Writes (.sfPop m v) m aSF_POP v .ok s (fun u =>
    u.pat.log = s.pat.log.drop 1 ∧ u.pat.store = s.pat.store ∧ u.pat.flight = s.pat.flight ∧
      s.keepsElse u [.pat] (fun _ => false)) := by
  refine ⟨s.popFault, congrArg Host.Outcome.next (ringPut_wrote hm rfl), ?_⟩
  fun_cases State.popFault s
  case case1 h => exact ⟨by rw [h]; rfl, rfl, rfl, s.keepsElse_refl _ _⟩
  case case2 r h => exact ⟨by rw [h]; rfl, rfl, rfl, ((State.Within.refl s _ fun _ => false).put_pat (hl := by decide)).parts, fun _ _ _ => rfl⟩

end Sys2Proof.Machine
end

section
/-! ### Commits of the tables (R85, R86; log entry 34) -/

namespace Sys2Proof.Machine

set_option Elab.async false

variable {s t u : State} {m : Rm} {v : W32} {d n tsel i c : Nat} {e : BitVec 128} {p : Pat} {crc : W32}
  {es : List (Nat × Nat × Nat × BitVec 128)}

/-! #### The start -/

/-- A commit of the die is recorded from now. -/
def State.openCommit (s : State) (d : Nat) (crc : W32) : State :=
  { s with pat := { s.pat with commits := s.pat.commits ++ [⟨d, crc, s.now⟩] } }

theorem commitWrite_opens (hlock : s.shadowLocked = false) (hbusy : s.committing d = false) : commitWrite d v s =
    wrote (((s.openCommit d v).setReg (aPS_CSTAT d) 0x80000000#32).setOk s.shBank d false) := by
  unfold commitWrite
  rw [hlock, hbusy]
  rfl

theorem commitWrite_refused (h : s.shadowLocked = true ∨ s.committing d = true) : commitWrite d v s = refuse s := by
  simp [commitWrite, h]

theorem commit_starts {d : Fin 7} (hs : s.Inv) (hm : s.ringReady m (aPS_COMMIT d.val) = true) (hlock : s.shadowLocked = false)
    (hbusy : s.committing d.val = false) : Writes (.commitStart m d v) m (aPS_COMMIT d.val) v .ok s (fun u =>
      u.reg (aPS_CSTAT d.val) = 0x80000000#32 ∧ u.committing d.val = true ∧ u.pat.store = s.pat.store ∧
      u.pat.flight = s.pat.flight ∧ s.keepsElse u [.pat] (among [aPS_CSTAT d.val, aPAT_STATUS])) := by
  have hw : Tab.wf regReset ((s.openCommit d.val v).setReg (aPS_CSTAT d.val) 0x80000000#32).regs = true :=
    State.setReg_wf (s := s.openCommit d.val v) hs.regs_wf _ _
  refine ⟨_, congrArg Host.Outcome.next (ringPut_wrote hm (commitWrite_opens hlock hbusy)), ?_, ?_, rfl, rfl, ?_⟩
  · rw [State.setOk_reg_ne hw (aPS_CSTAT_ne_status d.val)]
    exact State.setReg_reg (s := s.openCommit d.val v) hs.regs_wf _ _
  · change List.any (s.pat.commits ++ [_]) (fun c => c.die == d.val) = true
    simp
  · exact (((State.Within.refl s _ _).put_pat.setReg (.inl (by simp [among]))).putOk (by simp [among])).keepsElse hs.regs_wf

theorem commit_refused {d : Fin 7} (hm : s.ringReady m (aPS_COMMIT d.val) = true)
    (h : s.shadowLocked = true ∨ s.committing d.val = true) :
    Writes (.commitStart m d v) m (aPS_COMMIT d.val) v .refused s (fun u => u = s) :=
  ⟨s, congrArg Host.Outcome.next (ringPut_refused hm (commitWrite_refused h)), rfl⟩

/-! #### What the second pass reports and changes -/

theorem State.foldl_setPs_shape {α : Type} (g : State → α → State)
    (hg : ∀ u a, ∃ x, g u a = { u with pat := { u.pat with store := x } }) (l : List α) (s : State) :
    ∃ x, l.foldl g s = { s with pat := { s.pat with store := x } } := by
  induction l generalizing s with
  | nil => exact ⟨_, rfl⟩
  | cons a r ih =>
    obtain ⟨x, hx⟩ := hg s a
    obtain ⟨y, hy⟩ := ih (g s a)
    exact ⟨y, by rw [List.foldl_cons, hy, hx]⟩

/-- The outputs of a route go to the tables alone. -/
theorem State.writeOuts_shape {outs : List (Nat × Nat)} {flow : Nat} (h : s.writeOuts d flow outs = some t) :
    ∃ x, t = { s with pat := { s.pat with store := x } } := by
  simp only [State.writeOuts, Option.ite_none_right_eq_some, Option.some.injEq] at h
  rw [← h.2]
  exact State.foldl_setPs_shape _ (fun _ _ => ⟨_, rfl⟩) outs s

/-- The second pass changes the tables alone. -/
theorem State.secondPass_shape (d : Nat) (es : List (Nat × Nat × Nat × BitVec 128)) (s : State) :
    ∃ x, (State.secondPass d es s).1 = { s with pat := { s.pat with store := x } } := by
  fun_induction State.secondPass d es s
  case case2 ih => exact ih
  case case5 hw ih =>
    obtain ⟨x, rfl⟩ := State.writeOuts_shape hw
    obtain ⟨y, hy⟩ := ih
    exact ⟨y, hy⟩
  all_goals exact ⟨_, rfl⟩

theorem traceExit_bad {ex : Nat} {outs : List (Nat × Nat)} (h : traceExit d tsel e ex n outs = .bad c) : c < 8 := by
  simp only [traceExit] at h
  repeat' split at h
  all_goals simp at h
  all_goals omega

theorem traceHops_bad {ex : Nat} {l : List Nat} {outs : List (Nat × Nat)} (h : traceHops d tsel e ex l n outs = .bad c) : c < 8 := by
  induction l generalizing n outs with
  | nil => exact traceExit_bad h
  | cons x r ih =>
    simp only [traceHops] at h
    repeat' split at h
    case isTrue => exact ih h
    all_goals simp at h
    all_goals omega

/-- The codes of the second pass are below 8. -/
theorem traceEntry_bad (h : traceEntry d n tsel e = .bad c) : c < 8 := by
  revert h
  fun_cases traceEntry d n tsel e
  case case1 | case2 => exact nofun
  case case3 =>
    rintro ⟨⟩
    decide
  case case4 => exact traceHops_bad

/-- The second pass names an entry of the list, under a code below 8. -/
theorem State.secondPass_reports (h : (State.secondPass d es s).2 = some (c, n, tsel, i)) : c < 8 ∧ ∃ e, (n, tsel, i, e) ∈ es := by
  fun_induction State.secondPass d es s
  case case1 => simp at h
  case case2 ih =>
    obtain ⟨hc, e, he⟩ := ih h
    exact ⟨hc, e, List.mem_cons_of_mem _ he⟩
  case case3 hb =>
    simp only [Option.some.injEq, Prod.mk.injEq] at h
    obtain ⟨rfl, rfl, rfl, rfl⟩ := h
    exact ⟨traceEntry_bad hb, _, List.mem_cons_self⟩
  case case4 =>
    simp only [Option.some.injEq, Prod.mk.injEq] at h
    obtain ⟨rfl, rfl, rfl, rfl⟩ := h
    exact ⟨by decide, _, List.mem_cons_self⟩
  case case5 ih =>
    obtain ⟨hc, e, he⟩ := ih h
    exact ⟨hc, e, List.mem_cons_of_mem _ he⟩

/-- Entries that are unused, or arrival entries, leave the second pass nothing to trace. -/
theorem State.secondPass_passes (h : es.all (fun y => !entryV y.2.1 y.2.2.2 || y.2.1 == 1) = true) :
    State.secondPass d es s = (s, none) := by
  induction es with
  | nil => rfl
  | cons y r ih =>
    obtain ⟨n, tsel, i, e⟩ := y
    simp only [List.all_cons, Bool.and_eq_true, Bool.or_eq_true, beq_iff_eq] at h
    obtain ⟨hy, hr⟩ := h
    by_cases hv : entryV tsel e = true
    · obtain rfl : tsel = 1 := hy.resolve_left (by simp [hv])
      have hout : s.writeOuts d (entryFlow 1 e) [] = some s := rfl
      simp [State.secondPass, hv, traceEntry, hout, ih hr]
    · simp [State.secondPass, hv, ih hr]

/-- The fields of an entry in the list fit those of `PS_CSTAT`. -/
theorem State.shareEntries_bounds (h : (n, tsel, i, e) ∈ s.shareEntries d) : n < 64 ∧ tsel < 16 ∧ i < 8192 := by
  simp only [State.shareEntries, List.mem_map, Prod.mk.injEq] at h
  obtain ⟨x, -, rfl, rfl, rfl, -⟩ := h
  exact ⟨Nat.mod_lt _ (by decide), Nat.mod_lt _ (by decide), Nat.mod_lt _ (by decide)⟩

/-! #### `PS_CSTAT` once the commit is over -/

/-- `PS_CSTAT` with an error and the entry it names. -/
def commitStat (err n tsel i : Nat) : W32 := BitVec.ofNat 32 (err <<< 26 + n <<< 20 + tsel <<< 16 + i)

theorem commitStat_fields (hc : c < 16) (hn : n < 64) (ht : tsel < 16) (hi : i < 8192) :
    getB (commitStat c n tsel i) fPS_CSTAT_BUSY = false ∧ getF (commitStat c n tsel i) fPS_CSTAT_ERR = c := by
  have hv : (commitStat c n tsel i).toNat = c * 2 ^ 26 + n * 2 ^ 20 + tsel * 2 ^ 16 + i := by
    rw [commitStat, BitVec.toNat_ofNat]
    simp only [Nat.shiftLeft_eq]
    omega
  constructor
  · rw [getB, hv]
    exact Nat.testBit_lt_two_pow (by simp only [fPS_CSTAT_BUSY]; omega)
  · rw [getF, hv, Nat.shiftRight_eq_div_pow]
    simp only [fPS_CSTAT_ERR]
    omega

/-- The commit of the die is over: nothing is busy, and the pattern and its status alone have changed. -/
def State.CommitOver (s t : State) (d : Nat) : Prop :=
  t.committing d = false ∧ t.bit (aPS_CSTAT d) fPS_CSTAT_BUSY = false ∧ s.keepsElse t [.pat] (among [aPS_CSTAT d, aPAT_STATUS])

theorem any_filter_die_ne (l : List Commit) (d : Nat) : (l.filter (fun c => c.die != d)).any (fun c => c.die == d) = false := by
  simp

/-- The state with another pattern. -/
def State.putPat (s : State) (p : Pat) : State := { s with pat := p }

/-- The state as a commit ends with an error, its tables and commits in `p`. -/
def State.failCommit (s : State) (d : Nat) (p : Pat) (c n tsel i : Nat) : State :=
  (s.putPat p).setReg (aPS_CSTAT d) (commitStat c n tsel i)

/-- A commit that ends with an error leaves its code. -/
theorem State.commitOver_error (hs : Tab.wf regReset s.regs = true) (hp : p.commits = s.pat.commits.filter (fun c => c.die != d))
    (hc : c < 16) (hn : n < 64) (ht : tsel < 16) (hi : i < 8192) :
    s.CommitOver (s.failCommit d p c n tsel i) d ∧ (s.failCommit d p c n tsel i).fld (aPS_CSTAT d) fPS_CSTAT_ERR = c := by
  obtain ⟨hbusy, herr⟩ := commitStat_fields hc hn ht hi
  have hr : (s.failCommit d p c n tsel i).reg (aPS_CSTAT d) = _ := State.setReg_reg (s := s.putPat p) hs _ _
  refine ⟨⟨?_, by rw [State.bit, hr, hbusy], ?_⟩, by rw [State.fld, hr, herr]⟩
  · change p.commits.any (fun c => c.die == d) = false
    exact hp ▸ any_filter_die_ne _ _
  · exact ((State.Within.refl s _ _).put_pat.setReg (.inl (by simp [among]))).keepsElse hs

/-- The state as a commit ends with `OK`, its tables and commits in `p`. -/
def State.passCommit (s : State) (d : Nat) (p : Pat) : State :=
  ((s.putPat p).setReg (aPS_CSTAT d) 0x40000000#32).setOk s.shBank d true

/-- A commit that ends with `OK` leaves no error. -/
theorem State.commitOver_passes (hs : Tab.wf regReset s.regs = true)
    (hp : p.commits = s.pat.commits.filter (fun c => c.die != d)) :
    s.CommitOver (s.passCommit d p) d ∧ (s.passCommit d p).reg (aPS_CSTAT d) = 0x40000000#32 := by
  have hr : (s.passCommit d p).reg (aPS_CSTAT d) = 0x40000000#32 :=
    (State.setOk_reg_ne (State.setReg_wf (s := s.putPat p) hs _ _) (aPS_CSTAT_ne_status d)).trans
      (State.setReg_reg (s := s.putPat p) hs _ _)
  refine ⟨⟨?_, by rw [State.bit, hr]; decide, ?_⟩, hr⟩
  · change p.commits.any (fun c => c.die == d) = false
    exact hp ▸ any_filter_die_ne _ _
  · exact (((State.Within.refl s _ _).put_pat.setReg (.inl (by simp [among]))).putOk (by simp [among])).keepsElse hs

/-! #### `SHADOW_OK` of the die -/

/-- A number put together from distinct powers of two below 2 to the n has the bits that were put in. -/
theorem testBit_sumBits (ok : Nat → Bool) (n : Nat) :
    ((List.range n).filter ok).foldl (fun x d => x + 2 ^ d) 0 < 2 ^ n ∧
      ∀ i, (((List.range n).filter ok).foldl (fun x d => x + 2 ^ d) 0).testBit i = (decide (i < n) && ok i) := by
  induction n with
  | zero => simp
  | succ n ih =>
    obtain ⟨hlt, hbit⟩ := ih
    rw [List.range_succ, List.filter_append, List.foldl_append]
    generalize ((List.range n).filter ok).foldl (fun x d => x + 2 ^ d) 0 = x at hlt hbit
    by_cases hn : ok n = true
    · rw [List.filter_singleton, hn]
      refine ⟨by simp only [cond_true, List.foldl_cons, List.foldl_nil]; omega, fun i => ?_⟩
      simp only [cond_true, List.foldl_cons, List.foldl_nil]
      rw [Nat.add_comm]
      obtain hi | rfl | hi := Nat.lt_trichotomy i n
      · rw [Nat.testBit_two_pow_add_gt hi, hbit]
        simp [hi, Nat.lt_succ_of_lt hi]
      · rw [Nat.testBit_two_pow_add_eq, hbit]
        simp [hn]
      · rw [Nat.testBit_lt_two_pow (Nat.lt_of_lt_of_le (by omega : 2 ^ n + x < 2 ^ (n + 1)) (Nat.pow_le_pow_right (by decide) hi))]
        simp [show ¬ i < n + 1 by omega]
    · rw [List.filter_singleton, Bool.eq_false_iff.2 hn]
      refine ⟨by simp only [cond_false, List.foldl_nil]; omega, fun i => ?_⟩
      simp only [cond_false, List.foldl_nil, hbit]
      by_cases hi : i = n
      · simp [hi, hn]
      · simp [show i < n + 1 ↔ i < n by omega]

/-- `SHADOW_OK` of a die below 7 is the validity bit of its shadow bank. -/
theorem State.shadowOk_testBit (s : State) (hd : d < 7) : s.shadowOk.testBit d = s.pat.okBits.toNat.testBit (8 * s.shBank + d) := by
  obtain ⟨-, hbit⟩ := testBit_sumBits (fun d => s.pat.okBits.toNat.testBit (8 * s.shBank + d)) 7
  have hlow := hbit d
  simp only [hd, decide_true, Bool.true_and] at hlow
  rw [← hlow]
  dsimp only [State.shadowOk]
  split
  · rw [Nat.add_comm, Nat.testBit_two_pow_add_gt hd]
  · rfl

theorem State.setOk_shBank (hs : Tab.wf regReset s.regs = true) (k d : Nat) (b : Bool) : (s.setOk k d b).shBank = s.shBank := by
  have hreg : ∃ x, (s.setOk k d b).reg aPAT_STATUS = putF (s.reg aPAT_STATUS) fPAT_STATUS_SHADOW_OK x :=
    ⟨_, (State.setFld_reg (s := { s with pat := _ }) hs _ _ _ _).trans (if_pos rfl)⟩
  obtain ⟨x, hx⟩ := hreg
  rw [State.shBank, State.actBank, State.fld, hx, getF_putF_disjoint _ _ _ _ (by decide)]
  rfl

/-- The tables of a die that has passed its commit are valid. -/
theorem State.passCommit_shadowOk (hs : Tab.wf regReset s.regs = true) (hd : d < 7) (p : Pat) :
    (s.passCommit d p).shadowOk.testBit d = true := by
  have hreg := State.setReg_reg_ne (s := s.putPat p) hs (aPS_CSTAT_ne_status d).symm 0x40000000#32
  have hbank : (s.passCommit d p).shBank = s.shBank :=
    (State.setOk_shBank (State.setReg_wf (s := s.putPat p) hs _ _) _ _ _).trans
      (congrArg (fun w => 1 - getF w fPAT_STATUS_ACT_BANK) hreg)
  have hlt : 8 * s.shBank + d < 16 := by
    have : s.shBank ≤ 1 := Nat.sub_le _ _
    omega
  rw [State.shadowOk_testBit _ hd, hbank]
  change (p.okBits ||| BitVec.ofNat 16 (2 ^ (8 * s.shBank + d))).toNat.testBit (8 * s.shBank + d) = true
  rw [BitVec.toNat_or, Nat.testBit_or, BitVec.toNat_ofNat, Nat.mod_eq_of_lt (Nat.pow_lt_pow_right (by decide) hlt),
    Nat.testBit_two_pow_self, Bool.or_true]

/-! #### The end of a commit -/

/-- The commit of the die is withdrawn. -/
def Pat.dropCommit (p : Pat) (d : Nat) : Pat := { p with commits := p.commits.filter (fun c => c.die != d) }

/-- The state in which the second pass starts. -/
def State.passStart (s : State) (d : Nat) : State := (s.putPat (s.pat.dropCommit d)).clearFlows d

/-- The four ends of a commit: a CRC that differs, an entry out of form, an entry that the second pass refuses, and `OK`. -/
inductive CommitEnds (s : State) (d : Nat) (crc : W32) : State → Prop
  | differs (h : s.shareCrc d ≠ crc) : CommitEnds s d crc (s.failCommit d (s.pat.dropCommit d) 1 0 0 0)
  | outOfForm {n tsel i : Nat} {e : BitVec 128} (h : s.shareCrc d = crc)
      (hf : (s.shareEntries d).find? (fun x => !entryFormOk x.2.1 x.2.2.2) = some (n, tsel, i, e)) :
      CommitEnds s d crc (s.failCommit d (s.pat.dropCommit d) 2 n tsel i)
  | refused {c n tsel i : Nat} {x : Tab (BitVec 128)} (h : s.shareCrc d = crc)
      (hf : (s.shareEntries d).find? (fun x => !entryFormOk x.2.1 x.2.2.2) = none)
      (hp : (State.secondPass d (s.shareEntries d) (s.passStart d)).2 = some (c, n, tsel, i)) :
      CommitEnds s d crc (s.failCommit d { s.pat.dropCommit d with store := x } c n tsel i)
  | passes {x : Tab (BitVec 128)} (h : s.shareCrc d = crc)
      (hf : (s.shareEntries d).find? (fun x => !entryFormOk x.2.1 x.2.2.2) = none)
      (hp : (State.secondPass d (s.shareEntries d) (s.passStart d)).2 = none) :
      CommitEnds s d crc (s.passCommit d { s.pat.dropCommit d with store := x })

theorem State.secondPass_start {r : Option (Nat × Nat × Nat × Nat)}
    (h : State.secondPass d (s.shareEntries d) (s.passStart d) = (t, r)) :
    (∃ x, t = s.putPat { s.pat.dropCommit d with store := x }) ∧
      (State.secondPass d (s.shareEntries d) (s.passStart d)).2 = r := by
  obtain ⟨x, hx⟩ := State.secondPass_shape d (s.shareEntries d) (s.passStart d)
  rw [h] at hx ⊢
  exact ⟨⟨x, hx⟩, rfl⟩

theorem State.endCommit_ends (s : State) (d : Nat) (crc : W32) : CommitEnds s d crc (s.endCommit d crc) := by
  fun_cases State.endCommit s d crc
  case case1 h => exact .differs h
  case case2 h _ _ _ _ hf => exact .outOfForm (not_not.1 h) hf
  case case3 h hf u _ _ _ _ he =>
    obtain ⟨⟨x, rfl⟩, hp⟩ := State.secondPass_start he
    exact .refused (not_not.1 h) hf hp
  case case4 h hf u he =>
    obtain ⟨⟨x, rfl⟩, hp⟩ := State.secondPass_start he
    exact .passes (not_not.1 h) hf hp

theorem exec_commitEnd {d : Fin 7} {c : Commit} (hr : s.runs = true)
    (hf : s.pat.commits.find? (fun c => c.die == d.val) = some c) : exec (.commitEnd d) s = .next (s.endCommit d.val c.crc) := by
  change execCommitEnd d s = _
  unfold execCommitEnd
  rw [hf]
  exact if_pos hr

/-- However it ends, the commit is over. -/
theorem CommitEnds.over (hs : Tab.wf regReset s.regs = true) (h : CommitEnds s d crc t) : s.CommitOver t d := by
  cases h with
  | differs _ => exact (State.commitOver_error hs rfl (by decide) (by decide) (by decide) (by decide)).1
  | outOfForm _ hf =>
    obtain ⟨hn, ht, hi⟩ := State.shareEntries_bounds (List.mem_of_find?_eq_some hf)
    exact (State.commitOver_error hs rfl (by decide) hn ht hi).1
  | refused _ _ hp =>
    obtain ⟨hc, e, he⟩ := State.secondPass_reports hp
    obtain ⟨hn, ht, hi⟩ := State.shareEntries_bounds he
    exact (State.commitOver_error hs rfl (by omega) hn ht hi).1
  | passes _ _ _ => exact (State.commitOver_passes hs rfl).1

theorem CommitEnds.crcDiffers (hs : Tab.wf regReset s.regs = true) (h : CommitEnds s d crc t) (hc : s.shareCrc d ≠ crc) :
    t.fld (aPS_CSTAT d) fPS_CSTAT_ERR = 1 ∧ t.pat.store = s.pat.store := by
  cases h with
  | differs _ => exact ⟨(State.commitOver_error hs rfl (by decide) (by decide) (by decide) (by decide)).2, rfl⟩
  | outOfForm h => exact absurd h hc
  | refused h => exact absurd h hc
  | passes h => exact absurd h hc

theorem CommitEnds.formFails (hs : Tab.wf regReset s.regs = true) (h : CommitEnds s d crc t) (hc : s.shareCrc d = crc)
    (hany : (s.shareEntries d).any (fun y => !entryFormOk y.2.1 y.2.2.2) = true) :
    t.fld (aPS_CSTAT d) fPS_CSTAT_ERR = 2 ∧ t.pat.store = s.pat.store := by
  obtain ⟨y, hy, hbad⟩ := List.any_eq_true.1 hany
  cases h with
  | differs h => exact absurd hc h
  | outOfForm _ hf =>
    obtain ⟨hn, ht, hi⟩ := State.shareEntries_bounds (List.mem_of_find?_eq_some hf)
    exact ⟨(State.commitOver_error hs rfl (by decide) hn ht hi).2, rfl⟩
  | refused _ hf => exact absurd hbad (List.find?_eq_none.1 hf y hy)
  | passes _ hf => exact absurd hbad (List.find?_eq_none.1 hf y hy)

/-- A commit whose entries are all unused, or in form with nothing to trace, ends with `OK`. -/
theorem CommitEnds.allPass (hs : Tab.wf regReset s.regs = true) (hd : d < 7) (h : CommitEnds s d crc t) (hc : s.shareCrc d = crc)
    (hall : (s.shareEntries d).all (fun y => entryFormOk y.2.1 y.2.2.2 && (!entryV y.2.1 y.2.2.2 || y.2.1 == 1)) = true) :
    t.bit (aPS_CSTAT d) fPS_CSTAT_OK = true ∧ t.fld (aPS_CSTAT d) fPS_CSTAT_ERR = 0 ∧ t.shadowOk.testBit d = true := by
  simp only [List.all_eq_true, Bool.and_eq_true] at hall
  have hpass : State.secondPass d (s.shareEntries d) (s.passStart d) = (s.passStart d, none) :=
    State.secondPass_passes (List.all_eq_true.2 fun y hy => (hall y hy).2)
  cases h with
  | differs h => exact absurd hc h
  | outOfForm _ hf =>
    have hbad := List.find?_some hf
    rw [(hall _ (List.mem_of_find?_eq_some hf)).1] at hbad
    cases hbad
  | refused _ _ hp =>
    rw [hpass] at hp
    cases hp
  | @passes x _ _ _ =>
    have hreg := (State.commitOver_passes hs (d := d) (p := { s.pat.dropCommit d with store := x }) rfl).2
    rw [State.bit, State.fld, hreg]
    exact ⟨by decide, by decide, State.passCommit_shadowOk hs hd _⟩

theorem commit_ends {d : Fin 7} {c : Commit} (hs : s.Inv) (hr : s.runs = true)
    (hf : s.pat.commits.find? (fun c => c.die == d.val) = some c) :
    Leads (.commitEnd d) s (fun t => t.committing d.val = false ∧ t.bit (aPS_CSTAT d.val) fPS_CSTAT_BUSY = false ∧
      (s.shareCrc d.val ≠ c.crc → t.fld (aPS_CSTAT d.val) fPS_CSTAT_ERR = 1 ∧ t.pat.store = s.pat.store) ∧
      (s.shareCrc d.val = c.crc → (s.shareEntries d.val).any (fun y => !entryFormOk y.2.1 y.2.2.2) = true →
        t.fld (aPS_CSTAT d.val) fPS_CSTAT_ERR = 2 ∧ t.pat.store = s.pat.store) ∧
      (s.shareCrc d.val = c.crc →
        (s.shareEntries d.val).all (fun y => entryFormOk y.2.1 y.2.2.2 && (!entryV y.2.1 y.2.2.2 || y.2.1 == 1)) = true →
        t.bit (aPS_CSTAT d.val) fPS_CSTAT_OK = true ∧ t.fld (aPS_CSTAT d.val) fPS_CSTAT_ERR = 0 ∧
          t.shadowOk.testBit d.val = true) ∧
      s.keepsElse t [.pat] (among [aPS_CSTAT d.val, aPAT_STATUS])) := by
  have he := s.endCommit_ends d.val c.crc
  obtain ⟨hover, hbusy, hkeep⟩ := he.over hs.regs_wf
  exact ⟨_, exec_commitEnd hr hf, hover, hbusy, he.crcDiffers hs.regs_wf, he.formFails hs.regs_wf,
    he.allPass hs.regs_wf d.isLt, hkeep⟩

/-- Settles O13: a case for each access, from what the target of the access does. -/
theorem patternTables : Obligations.PatternTables := by
  unfold Obligations.PatternTables
  intro s hs
  refine ⟨?_, ?_, ?_, ?_, ?_, ?_, ?_, ?_, ?_, ?_⟩
  · intro m i v hi hm hv h9 h2 hbank hlock hbusy
    exact patternTable_shadow hs hi hm hv h9 h2 hbank hlock hbusy
  · intro m i v hi hm hv h9
    exact patternTable_route hs hi hm hv h9
  · intro m i v hi hm hv h
    exact patternTable_refused hi hm hv h
  · intro m i v hi hm hv
    exact patternTable_decode hi hm hv
  · intro m i w hi hm hv
    exact patternTable_reads hs hi hm hv
  · intro m i w hi hm hv
    exact patternTable_readsNone hi hm hv
  · intro m d v hm hlock hbusy
    exact commit_starts hs hm hlock hbusy
  · intro m d v hm h
    exact commit_refused hm h
  · intro d c hr hf
    exact commit_ends hs hr hf
  · intro m v hm
    exact sfPop_drops hm

end Sys2Proof.Machine
end

section
/-! ### The record of a network interface: its FIFOs, what they keep, and its flags (R96 to R102) -/

namespace Sys2Proof.Machine

set_option Elab.async false

variable {s t : State} {l : List Part} {ok : Nat → Bool} {a d e k n o now : Nat} {f : Fld} {x : Ni} {fl : List FifoFlit}

/-! #### The table of records -/

/-- Of two stores at one key the later stands alone. -/
theorem tput_tput {α : Type} [DecidableEq α] {d : Nat → α} {t : Tab α} {lo : Nat} (h : Tab.wfFrom d lo t = true) (k : Nat)
    (v w : α) : tput d (tput d t k v) k w = tput d t k w := by
  induction t generalizing lo with
  | nil => by_cases hv : v = d k <;> simp [tput, hv]
  | cons e r ih =>
    simp only [Tab.wfFrom, Bool.and_eq_true, decide_eq_true_eq] at h
    obtain ⟨⟨-, -⟩, hr⟩ := h
    rcases Nat.lt_trichotomy k e.1 with hk | hk | hk
    · by_cases hv : v = d k <;> simp [tput, hk, hv]
    · subst hk
      by_cases hv : v = d e.1
      · cases r with
        | nil => simp [tput, hv]
        | cons e' r' =>
          simp only [Tab.wfFrom, Bool.and_eq_true, decide_eq_true_eq] at hr
          obtain ⟨⟨hlt, -⟩, -⟩ := hr
          simp [tput, hv, show e.1 < e'.1 by omega]
      · simp [tput, hv]
    · simp [tput, show ¬ k < e.1 by omega, show ¬ k = e.1 by omega, ih hr]

theorem State.Inv.nis_wf (h : s.Inv) : Tab.wf (fun _ => Ni.empty) s.nis = true := (s.canon_iff.mpr h).nis

/-- A record just set reads back. -/
theorem State.setNi_ni (h : Tab.wf (fun _ => Ni.empty) s.nis = true) (d n : Nat) (x : Ni) : (s.setNi d n x).ni d n = x :=
  tget_tput_same h _ _

/-- The record is that of the table that stands. -/
theorem State.ni_congr (h : t.nis = s.nis) (d n : Nat) : t.ni d n = s.ni d n := by rw [State.ni, State.ni, h]

theorem State.setNi_setNi (h : Tab.wf (fun _ => Ni.empty) s.nis = true) (d n : Nat) (x y : Ni) :
    (s.setNi d n x).setNi d n y = s.setNi d n y :=
  congrArg (fun m => ({ s with nis := m } : State)) (tput_tput h _ _ _)

/-! #### Places of the registers and of the events -/

theorem niExists_lt (h : niExists d n = true) : d < 8 ∧ n < 48 := by
  simp [niExists] at h
  omega

/-- The registers of an NI are none of those that record events and breaches. -/
theorem notice_ni (hn : n < 256) (ho : o < 4096) : notice (niA d n o) = false := by
  have hstat : niA d n o ≠ aEV_STAT := by
    simp only [niA, aEV_STAT, ra]
    split <;> omega
  have hsum : niA d n o ≠ aBREACH_SUM := by
    simp only [niA, aBREACH_SUM, ra]
    split <;> omega
  have hraw := rawWord_ni (d := d) hn (show o < 65536 by omega)
  rw [rawWord] at hraw
  simp [notice, hraw, hstat, hsum]

/-- Registers of one NI at different offsets. -/
theorem niA_inj {o o' : Nat} (h : niA d n o = niA d n o') : o = o' := by
  simp only [niA, ra] at h
  split at h <;> omega

theorem niErrEvent_lt (h : niExists d n = true) : niErrEvent d n < 2048 := by
  simp [niExists] at h
  simp only [niErrEvent]
  split
  · omega
  · split <;> omega

theorem niLevelEvent_lt (h : niExists d n = true) : niLevelEvent d n < 2048 := by
  simp [niExists] at h
  simp only [niLevelEvent]
  split
  · omega
  · split <;> omega

theorem beFlagEvent_lt (h : niExists d n = true) (f : Fld) : beFlagEvent d n f < 2048 := by
  have he := niErrEvent_lt h
  have hn := (niExists_lt h).2
  simp only [beFlagEvent]
  repeat' split
  all_goals omega

/-! #### Flags -/

/-- A register outside those that an operation may change has its bits still. -/
theorem State.Within.bit (h : s.Within t l ok) (hs : Tab.wf regReset s.regs = true) (ho : ok a = false)
    (hn : notice a = false) (f : Fld) : t.bit a f = s.bit a f := by rw [State.bit, State.bit, h.regs hs a ho hn]

/-- A flag that is raised is set, whatever the event does. -/
theorem State.flagRaise_bit (hs : Tab.wf regReset s.regs = true) (hw : f.width = 1) (hl : f.lsb < 32) (hn : notice a = false)
    (he : e < 2048) : (s.flagRaise a f e).bit a f = true := by
  unfold State.flagRaise
  split
  · next h => exact h
  · have hraise := (State.Within.refl (s.setBit a f true) [.ev, .hw] fun _ => false).raise he
    rw [hraise.bit (State.setBit_wf hs _ _ _) rfl hn]
    exact State.setBit_bit_same hs hw hl

@[simp] theorem State.niErr_nis (s : State) (d n : Nat) (f : Fld) : (s.niErr d n f).nis = s.nis := by simp [State.niErr]
@[simp] theorem State.niErr_be (s : State) (d n : Nat) (f : Fld) : (s.niErr d n f).be = s.be := by simp [State.niErr]
@[simp] theorem State.beFlag_nis (s : State) (d n : Nat) (f : Fld) : (s.beFlag d n f).nis = s.nis := by simp [State.beFlag]
@[simp] theorem State.beFlag_be (s : State) (d n : Nat) (f : Fld) : (s.beFlag d n f).be = s.be := by simp [State.beFlag]
@[simp] theorem State.beFlag_rsps (s : State) (d n : Nat) (f : Fld) : (s.beFlag d n f).rsps = s.rsps := by simp [State.beFlag]

theorem State.niErr_bit (hs : Tab.wf regReset s.regs = true) (hi : niExists d n = true) (hw : f.width = 1) (hl : f.lsb < 32) :
    (s.niErr d n f).bit (aNI_ERR d n) f = true :=
  State.flagRaise_bit hs hw hl (notice_ni (by have := niExists_lt hi; omega) (by decide)) (niErrEvent_lt hi)

theorem State.beFlag_bit (hs : Tab.wf regReset s.regs = true) (hi : niExists d n = true) (hw : f.width = 1) (hl : f.lsb < 32) :
    (s.beFlag d n f).bit (aBE_FLAG d n) f = true :=
  State.flagRaise_bit hs hw hl (notice_ni (by have := niExists_lt hi; omega) (by decide)) (beFlagEvent_lt hi f)

theorem State.Within.niErr (h : s.Within t l ok) (hi : niExists d n = true) (ha : ok (aNI_ERR d n) = true)
    (hw : .hw ∈ l := by decide) (hv : .ev ∈ l := by decide) : s.Within (t.niErr d n f) l ok :=
  h.flagRaise (.inl ha) (niErrEvent_lt hi) hw hv

theorem State.Within.beFlag (h : s.Within t l ok) (hi : niExists d n = true) (ha : ok (aBE_FLAG d n) = true)
    (hw : .hw ∈ l := by decide) (hv : .ev ∈ l := by decide) : s.Within (t.beFlag d n f) l ok :=
  h.flagRaise (.inl ha) (beFlagEvent_lt hi f) hw hv

/-! #### FIFOs -/

@[simp] theorem niFifo_niSetFifo_same (x : Ni) (k : Nat) (fl : List FifoFlit) : niFifo (niSetFifo x k fl) k = fl :=
  match k with
  | 0 | 1 | 2 | _ + 3 => rfl

@[simp] theorem niFifo_setPtr (x : Ni) (j k : Nat) (p : FifoPtr) : niFifo (x.setPtr k p) j = niFifo x j := rfl

theorem niFifo_niSetFifo_ne (x : Ni) {j k : Fin 4} (h : j ≠ k) (fl : List FifoFlit) :
    niFifo (niSetFifo x k.val fl) j.val = niFifo x j.val := by
  fin_cases j <;> fin_cases k <;> simp [niFifo, niSetFifo] at h ⊢

/-- Replacing a FIFO leaves the record of packets begun and flushes asked for. -/
@[simp] theorem niSetFifo_mids (x : Ni) (k : Nat) (fl : List FifoFlit) : (niSetFifo x k fl).midWrite = x.midWrite ∧
    (niSetFifo x k fl).midRead = x.midRead ∧ (niSetFifo x k fl).flushing = x.flushing := by
  unfold niSetFifo
  split <;> exact ⟨rfl, rfl, rfl⟩

@[simp] theorem niFifo_push (x : Ni) (k now : Nat) (fl : List FifoFlit) : niFifo (x.push k now fl) k = niFifo x k ++ fl :=
  niFifo_niSetFifo_same ..

@[simp] theorem niFifo_pop (x : Ni) (k now m : Nat) : niFifo (x.pop k now m) k = (niFifo x k).drop m :=
  niFifo_niSetFifo_same ..

theorem bit4_put4 (v : BitVec 4) (k : Fin 4) (b : Bool) : bit4 (put4 v k.val b) k.val = b := by
  have hbit : (BitVec.ofNat 4 (2 ^ k.val)).getLsbD k.val = true := by
    simp only [BitVec.getLsbD_ofNat, Nat.testBit_two_pow_self, k.isLt, decide_true, Bool.and_self]
  rw [bit4, put4, BitVec.testBit_toNat]
  cases b
  · rw [if_neg Bool.false_ne_true, BitVec.getLsbD_and, BitVec.getLsbD_not, hbit, Bool.not_true, Bool.and_false, Bool.and_false]
  · rw [if_pos rfl, BitVec.getLsbD_or, hbit, Bool.or_true]

/-- The level check changes no record. -/
@[simp] theorem State.fifoLevel_nis (s : State) (d n k m : Nat) : (s.fifoLevel d n k m).nis = s.nis := by
  unfold State.fifoLevel
  dsimp only
  split <;> simp

/-- A push into a FIFO is what the NI's record shows. -/
theorem State.fifoPush_ni (h : Tab.wf (fun _ => Ni.empty) s.nis = true) (d n k : Nat) (fl : List FifoFlit) :
    (s.fifoPush d n k fl).ni d n = (s.ni d n).push k s.now fl := by
  rw [State.fifoPush, State.ni_congr (State.fifoLevel_nis ..), State.setNi_ni h]

theorem State.Within.setNi (h : s.Within t l ok) (hl : .nis ∈ l := by decide) : s.Within (t.setNi d n x) l ok := h.put_nis hl

theorem State.Within.fifoPush (h : s.Within t l ok) (hi : niExists d n = true) (ha : ok (aFIFO_STAT d n k) = true)
    (hw : .hw ∈ l := by decide) (hv : .ev ∈ l := by decide) (hn : .nis ∈ l := by decide) :
    s.Within (t.fifoPush d n k fl) l ok :=
  State.Within.ite (((h.setNi hn).setBit (.inl ha) hw).raise (niLevelEvent_lt hi) hw hv) (h.setNi hn)

end Sys2Proof.Machine
end

section
/-! ### The four FIFOs of an NI: writes, reads and flushes (R98 to R101) -/

namespace Sys2Proof.Machine

set_option Elab.async false

variable {s : State} {i : NiId} {k : Fin 4} {x : Ni} {d n now : Nat}

theorem State.niLive_exists (h : s.niLive d n = true) : niExists d n = true := by
  simp only [State.niLive, Bool.and_eq_true] at h
  exact h.1.1.1

/-- What `FIFO_STAT` shows of a FIFO: the writer's `FULL` and the reader's `EMPTY`. -/
theorem State.niView_fifo (s : State) (d n : Nat) (k : Fin 4) : ∃ v, s.niView d n (0x20 + 4 * k.val) = some v ∧
    getB v fFIFO_STAT_FULL = (s.ni d n).full k.val ∧ getB v fFIFO_STAT_EMPTY = (s.ni d n).empties k.val := by
  have hk : (0x20 + 4 * k.val - 0x20) / 4 = k.val := by omega
  refine ⟨_, by rw [State.niView, if_neg (by omega), if_pos (by omega)], ?_, ?_⟩
  · rw [hk, getB_putF_disjoint _ _ (by decide) (by decide), getB_putF_disjoint _ _ (by decide) (by decide),
      getB_putF _ _ _ _ (by decide), if_pos (by decide)]
    cases (s.ni d n).full k.val <;> simp
  · rw [hk, getB_putF_disjoint _ _ (by decide) (by decide), getB_putF _ _ _ _ (by decide), if_pos (by decide)]
    cases (s.ni d n).empties k.val <;> simp

/-! #### Writes -/

theorem exec_fifoWrite_full (hl : s.niLive i.die i.ni = true) (hf : (s.ni i.die i.ni).full k.val = true) (f : BitVec 256)
    (l : Bool) : exec (.fifoWrite i k f l) s = .next (s.niErr i.die i.ni fNI_ERR_FIFO_OVF) := by
  change execFifoWrite i k f l s = _
  simp [execFifoWrite, hl, hf]

theorem exec_fifoWrite_room (hl : s.niLive i.die i.ni = true) (hf : (s.ni i.die i.ni).full k.val = false) (f : BitVec 256)
    (l : Bool) : exec (.fifoWrite i k f l) s = .next ((s.fifoPush i.die i.ni k.val [⟨f, l⟩]).setNi i.die i.ni
      { (s.fifoPush i.die i.ni k.val [⟨f, l⟩]).ni i.die i.ni with
        midWrite := put4 ((s.fifoPush i.die i.ni k.val [⟨f, l⟩]).ni i.die i.ni).midWrite k.val (!l) }) := by
  change execFifoWrite i k f l s = _
  simp [execFifoWrite, hl, hf]

theorem fifoWrite_discards (hs : s.Inv) (hl : s.niLive i.die i.ni = true) (hf : (s.ni i.die i.ni).full k.val = true)
    (f : BitVec 256) (l : Bool) : Leads (.fifoWrite i k f l) s (fun t => t.nis = s.nis ∧
      t.bit (aNI_ERR i.die i.ni) fNI_ERR_FIFO_OVF ∧ s.keepsElse t [.ev, .hw] (among [aNI_ERR i.die i.ni])) :=
  ⟨_, exec_fifoWrite_full hl hf f l, State.niErr_nis .., State.niErr_bit hs.regs_wf (State.niLive_exists hl) rfl (by decide),
    ((State.Within.refl s _ _).niErr (State.niLive_exists hl) (by simp [among])).keepsElse hs.regs_wf⟩

theorem fifoWrite_appends (hs : s.Inv) (hl : s.niLive i.die i.ni = true) (hf : (s.ni i.die i.ni).full k.val = false)
    (f : BitVec 256) (l : Bool) : Leads (.fifoWrite i k f l) s (fun t =>
      niFifo (t.ni i.die i.ni) k.val = niFifo (s.ni i.die i.ni) k.val ++ [{ payload := f, last := l }] ∧
      bit4 (t.ni i.die i.ni).midWrite k.val = !l ∧
      (∀ j : Fin 4, j ≠ k → niFifo (t.ni i.die i.ni) j.val = niFifo (s.ni i.die i.ni) j.val) ∧
      s.keepsElse t [.ev, .hw, .nis] (among [aFIFO_STAT i.die i.ni k.val])) := by
  have hw := hs.nis_wf
  have hpush := State.fifoPush_ni hw i.die i.ni k.val [⟨f, l⟩]
  have hwp : Tab.wf (fun _ => Ni.empty) (s.fifoPush i.die i.ni k.val [⟨f, l⟩]).nis = true := by
    rw [State.fifoPush, State.fifoLevel_nis]
    exact tput_wf hw _ _
  refine ⟨_, exec_fifoWrite_room hl hf f l, ?_, ?_, fun j hj => ?_, ?_⟩
  · rw [State.setNi_ni hwp, hpush]
    exact niFifo_push _ _ s.now _
  · rw [State.setNi_ni hwp]
    exact bit4_put4 ..
  · rw [State.setNi_ni hwp, hpush]
    exact niFifo_niSetFifo_ne _ hj _
  · exact ((State.Within.refl s _ _).fifoPush (State.niLive_exists hl) (by simp [among])).setNi.keepsElse hs.regs_wf

/-! #### Reads -/

/-- A FIFO that holds nothing, or shows `EMPTY`, has nothing for its reader. -/
theorem State.avail_of_empty (h : niFifo (s.ni d n) k.val = [] ∨
    (s.niView d n (0x20 + 4 * k.val)).any (fun v => getB v fFIFO_STAT_EMPTY) = true) : (s.ni d n).avail k.val = [] := by
  obtain h | h := h
  · rw [Ni.avail, h, List.take_nil]
  · obtain ⟨v, hv, -, hempty⟩ := s.niView_fifo d n k
    simpa [hv, hempty, Ni.empties] using h

theorem exec_fifoRead_empty (hl : s.niLive i.die i.ni = true) (ha : (s.ni i.die i.ni).avail k.val = []) :
    exec (.fifoRead i k) s =
      .next (s.setNi i.die i.ni { (s.ni i.die i.ni) with readOut := BitVec.ofNat 258 (2 ^ 257) }) := by
  change execFifoRead i k s = _
  simp [execFifoRead, hl, ha]

/-- The record of an NI once the flit `f` of FIFO k has been read. -/
def Ni.read (x : Ni) (k now : Nat) (f : FifoFlit) : Ni :=
  { x.pop k now 1 with
    readOut := BitVec.ofNat 258 (f.payload.toNat + (if f.last then 2 ^ 256 else 0)), midRead := put4 x.midRead k (!f.last) }

theorem exec_fifoRead_flit {f : FifoFlit} {r : List FifoFlit} (hl : s.niLive i.die i.ni = true)
    (ha : (s.ni i.die i.ni).avail k.val = f :: r) :
    exec (.fifoRead i k) s = .next (s.setNi i.die i.ni ((s.ni i.die i.ni).read k.val s.now f)) := by
  change execFifoRead i k s = _
  simp [execFifoRead, hl, ha, Ni.read]

/-- A read returns the payload with `LAST` above it, and `NV` clear. -/
theorem Ni.read_readOut (x : Ni) (k now : Nat) (f : FifoFlit) :
    (x.read k now f).readOut.toNat = f.payload.toNat + (if f.last then 2 ^ 256 else 0) := by
  have hp := f.payload.isLt
  have hlt : f.payload.toNat + (if f.last then 2 ^ 256 else 0) < 2 ^ 258 := by
    split <;> omega
  exact (BitVec.toNat_ofNat _ _).trans (Nat.mod_eq_of_lt hlt)

theorem fifoRead_takes {f : FifoFlit} {r : List FifoFlit} (hs : s.Inv) (hl : s.niLive i.die i.ni = true)
    (ha : (s.ni i.die i.ni).avail k.val = f :: r) : Leads (.fifoRead i k) s (fun t =>
      niFifo (t.ni i.die i.ni) k.val = (niFifo (s.ni i.die i.ni) k.val).drop 1 ∧
      (t.ni i.die i.ni).readOut.toNat = f.payload.toNat + (if f.last then 2 ^ 256 else 0) ∧
      bit4 (t.ni i.die i.ni).midRead k.val = !f.last ∧
      (∀ j : Fin 4, j ≠ k → niFifo (t.ni i.die i.ni) j.val = niFifo (s.ni i.die i.ni) j.val) ∧
      s.keepsElse t [.nis] (fun _ => false)) := by
  refine ⟨_, exec_fifoRead_flit hl ha, ?_⟩
  beta_reduce
  rw [State.setNi_ni hs.nis_wf]
  exact ⟨niFifo_pop _ _ s.now _, Ni.read_readOut .., bit4_put4 .., fun j hj => niFifo_niSetFifo_ne _ hj _,
    (State.Within.refl s _ _).setNi.keepsElse hs.regs_wf⟩

/-! #### Flushes -/

theorem fifoFlush_marks {m : Rm} {b : BitVec 4} (hi : niExists i.die i.ni = true)
    (hm : s.ringReady m (aFIFO_FLUSH i.die i.ni) = true) :
    Writes (.fifoFlush m i b) m (aFIFO_FLUSH i.die i.ni) (b.setWidth 32) .ok s (fun u =>
      u = s.setNi i.die i.ni { (s.ni i.die i.ni) with flushing := (s.ni i.die i.ni).flushing ||| b }) := by
  have hb : (b.setWidth 32).setWidth 4 = b := by
    rw [BitVec.setWidth_setWidth_of_le _ (by decide), BitVec.setWidth_eq]
  have hw : fifoFlushWrite i.die i.ni (b.setWidth 32) s =
      wrote (s.setNi i.die i.ni { (s.ni i.die i.ni) with flushing := (s.ni i.die i.ni).flushing ||| b }) := by
    rw [fifoFlushWrite, hb]
  refine ⟨_, ?_, rfl⟩
  change execFifoFlush m i b s = _
  rw [execFifoFlush, if_pos hi, ringPut_wrote hm hw]

theorem exec_flushBoundary (hl : s.niLive i.die i.ni = true) (hf : bit4 (s.ni i.die i.ni).flushing k.val = true)
    (hw : bit4 (s.ni i.die i.ni).midWrite k.val = false) :
    exec (.flushBoundary i k) s = .next (s.setNi i.die i.ni (afterFlush (s.ni i.die i.ni) k.val s.now)) := by
  change execFlushBoundary i k s = _
  simp [execFlushBoundary, hl, hf, hw]

theorem exec_flushBoundary_idle (h : bit4 (s.ni i.die i.ni).flushing k.val = false ∨
    bit4 (s.ni i.die i.ni).midWrite k.val = true) : exec (.flushBoundary i k) s = .next s := by
  change execFlushBoundary i k s = _
  obtain h | h := h <;> simp [execFlushBoundary, h]

/-- Where no packet's reading has begun, a flush empties the FIFO. -/
theorem afterFlush_idle (h : bit4 x.midRead k.val = false) : niFifo (afterFlush x k.val now) k.val = [] := by
  unfold afterFlush
  rw [h]
  exact niFifo_niSetFifo_same ..

/-- The packet whose reading has begun stays. -/
theorem afterFlush_reading {p : List (BitVec 256)} {r : List FifoFlit} (h : bit4 x.midRead k.val = true)
    (hp : firstPacket (niFifo x k.val) [] = some (p, r)) :
    niFifo (afterFlush x k.val now) k.val = (niFifo x k.val).take p.length := by
  unfold afterFlush
  rw [h, hp]
  exact niFifo_niSetFifo_same ..

/-- A boundary that the flush acts at ends it, and touches one FIFO alone. -/
theorem flushBoundary_leads {l : List FifoFlit} (hs : s.Inv) (hl : s.niLive i.die i.ni = true)
    (hf : bit4 (s.ni i.die i.ni).flushing k.val = true) (hw : bit4 (s.ni i.die i.ni).midWrite k.val = false)
    (hk : niFifo (afterFlush (s.ni i.die i.ni) k.val s.now) k.val = l) : Leads (.flushBoundary i k) s (fun t =>
      niFifo (t.ni i.die i.ni) k.val = l ∧ bit4 (t.ni i.die i.ni).flushing k.val = false ∧
      (∀ j : Fin 4, j ≠ k → niFifo (t.ni i.die i.ni) j.val = niFifo (s.ni i.die i.ni) j.val) ∧
      s.keepsElse t [.nis] (fun _ => false)) := by
  refine ⟨_, exec_flushBoundary hl hf hw, ?_⟩
  beta_reduce
  rw [State.setNi_ni hs.nis_wf]
  exact ⟨hk, bit4_put4 .., fun j hj => niFifo_niSetFifo_ne _ hj _, (State.Within.refl s _ _).setNi.keepsElse hs.regs_wf⟩

end Sys2Proof.Machine
end

section
/-! ### The ends of a FIFO (R101) -/

namespace Sys2Proof.Machine

set_option Elab.async false

variable {s : State} {i : NiId} {k : Fin 4} {d n : Nat}

/-- `NV` alone is what a read of nothing returns. -/
theorem readOut_nothing : (BitVec.ofNat 258 (2 ^ 257)).getLsbD 257 = true ∧ (BitVec.ofNat 258 (2 ^ 257)).extractLsb' 0 257 = 0#257 := by
  decide

theorem fifoRead_empty (hs : s.Inv) (hl : s.niLive i.die i.ni = true) (ha : (s.ni i.die i.ni).avail k.val = []) :
    Leads (.fifoRead i k) s (fun t => (t.ni i.die i.ni).readOut.getLsbD 257 ∧
      (t.ni i.die i.ni).readOut.extractLsb' 0 257 = 0#257 ∧
      (∀ j : Fin 4, niFifo (t.ni i.die i.ni) j.val = niFifo (s.ni i.die i.ni) j.val) ∧
      s.keepsElse t [.nis] (fun _ => false)) := by
  obtain ⟨hnv, hrest⟩ := readOut_nothing
  refine ⟨_, exec_fifoRead_empty hl ha, ?_⟩
  beta_reduce
  rw [State.setNi_ni hs.nis_wf]
  exact ⟨hnv, hrest, fun j => rfl, (State.Within.refl s _ _).setNi.keepsElse hs.regs_wf⟩

/-- A FIFO of 64 flits, or one that shows `FULL`, is full to its writer. -/
theorem State.full_of_shown (h : 64 ≤ (niFifo (s.ni d n) k.val).length ∨
    (s.niView d n (0x20 + 4 * k.val)).any (fun v => getB v fFIFO_STAT_FULL) = true) : (s.ni d n).full k.val = true := by
  obtain h | h := h
  · exact decide_eq_true (Nat.le_add_right_of_le h)
  · obtain ⟨v, hv, hfull, -⟩ := s.niView_fifo d n k
    simpa [hv, hfull] using h

theorem State.full_of_notShown (h : (s.niView d n (0x20 + 4 * k.val)).all (fun v => !getB v fFIFO_STAT_FULL) = true) :
    (s.ni d n).full k.val = false := by
  obtain ⟨v, hv, hfull, -⟩ := s.niView_fifo d n k
  simpa [hv, hfull] using h

/-- A write to a FIFO with room sets no overflow. -/
theorem fifoWrite_room_quiet (hs : s.Inv) (hl : s.niLive i.die i.ni = true) (hf : (s.ni i.die i.ni).full k.val = false)
    (f : BitVec 256) (l : Bool) : Leads (.fifoWrite i k f l) s (fun t =>
      t.bit (aNI_ERR i.die i.ni) fNI_ERR_FIFO_OVF = s.bit (aNI_ERR i.die i.ni) fNI_ERR_FIFO_OVF ∧
      niFifo (t.ni i.die i.ni) k.val = niFifo (s.ni i.die i.ni) k.val ++ [{ payload := f, last := l }]) := by
  obtain ⟨t, ht, hfifo, -, -, -, hregs⟩ := fifoWrite_appends hs hl hf f l
  have hlt := niExists_lt (State.niLive_exists hl)
  have hne : aNI_ERR i.die i.ni ≠ aFIFO_STAT i.die i.ni k.val := fun h => by
    have := niA_inj h
    omega
  refine ⟨t, ht, ?_, hfifo⟩
  rw [State.bit, State.bit, hregs (aNI_ERR i.die i.ni) (by simpa [among] using hne) (notice_ni (by omega) (by decide))]

/-- Settles O60: a read of nothing, a write to a full FIFO and a write with room, each by what the command's branch does. -/
theorem fifoEndsAreSafe : Obligations.FifoEndsAreSafe := by
  unfold Obligations.FifoEndsAreSafe
  intro s hs
  refine ⟨fun i k hl h => ?_, fun i k f l hl h => ?_, fun i k f l hl h => ?_⟩
  · exact fifoRead_empty hs hl (State.avail_of_empty h)
  · obtain ⟨t, ht, hnis, hrest⟩ := fifoWrite_discards hs hl (State.full_of_shown h) f l
    exact ⟨t, ht, fun j => by rw [State.ni_congr hnis], hrest⟩
  · exact fifoWrite_room_quiet hs hl (State.full_of_notShown h) f l

end Sys2Proof.Machine
end

section
/-! ### The staging queue and the egress buffer of an NI (R96, R97, R343) -/

namespace Sys2Proof.Machine

set_option Elab.async false

variable {s : State} {i : NiId} {d n : Nat} {f g : BitVec 256} {l : List (BitVec 256)}

/-! #### One staged flit -/

theorem State.stageOne_pays (h : (s.ni d n).debt ≠ 0) :
    s.stageOne d n f = s.setNi d n { s.ni d n with debt := (s.ni d n).debt - 1 } := if_pos h

theorem State.stageOne_stores (hd : (s.ni d n).debt = 0) (hl : (s.ni d n).staging.length < 32) :
    s.stageOne d n f = s.setNi d n { s.ni d n with staging := (s.ni d n).staging ++ [f] } := by
  rw [State.stageOne, if_neg (not_not_intro hd), if_neg (Nat.not_le_of_lt hl)]

theorem State.stageOne_loses (hd : (s.ni d n).debt = 0) (hl : 32 ≤ (s.ni d n).staging.length) :
    s.stageOne d n f = s.niErr d n fNI_ERR_STG_OVF := by
  rw [State.stageOne, if_neg (not_not_intro hd), if_pos hl]

/-! #### The flits of an edge -/

/-- Flits no more than the debt are discarded. -/
theorem foldl_stageOne_pays (hw : Tab.wf (fun _ => Ni.empty) s.nis = true) (hl : l.length ≤ (s.ni d n).debt) :
    ((l.foldl (fun t f => t.stageOne d n f) s).ni d n).debt = (s.ni d n).debt - l.length ∧
      ((l.foldl (fun t f => t.stageOne d n f) s).ni d n).staging = (s.ni d n).staging ∧
      s.Within (l.foldl (fun t f => t.stageOne d n f) s) [.nis] (fun _ => false) := by
  induction l generalizing s with
  | nil => exact ⟨rfl, rfl, State.Within.refl ..⟩
  | cons f r ih =>
    rw [List.length_cons] at hl
    rw [List.foldl_cons, State.stageOne_pays (by omega)]
    have hni := State.setNi_ni hw d n { s.ni d n with debt := (s.ni d n).debt - 1 }
    have hnow := (State.Within.refl s [.nis] fun _ => false).setNi (d := d) (n := n)
      (x := { s.ni d n with debt := (s.ni d n).debt - 1 })
    obtain ⟨hdebt, hstage, hkeep⟩ := ih (s := s.setNi d n { s.ni d n with debt := (s.ni d n).debt - 1 }) (tput_wf hw _ _)
      (by rw [hni]; dsimp only; omega)
    refine ⟨?_, ?_, hnow.trans hkeep⟩
    · rw [hdebt, hni]
      dsimp only [List.length_cons]
      omega
    · rw [hstage, hni]

/-- Without debt, flits within the 32 places are stored. -/
theorem foldl_stageOne_stores (hw : Tab.wf (fun _ => Ni.empty) s.nis = true) (hd : (s.ni d n).debt = 0)
    (hl : (s.ni d n).staging.length + l.length ≤ 32) :
    ((l.foldl (fun t f => t.stageOne d n f) s).ni d n).staging = (s.ni d n).staging ++ l ∧
      ((l.foldl (fun t f => t.stageOne d n f) s).ni d n).debt = 0 ∧
      s.Within (l.foldl (fun t f => t.stageOne d n f) s) [.nis] (fun _ => false) := by
  induction l generalizing s with
  | nil => exact ⟨(List.append_nil _).symm, hd, State.Within.refl ..⟩
  | cons f r ih =>
    rw [List.length_cons] at hl
    rw [List.foldl_cons, State.stageOne_stores hd (by omega)]
    have hni := State.setNi_ni hw d n { s.ni d n with staging := (s.ni d n).staging ++ [f] }
    have hnow := (State.Within.refl s [.nis] fun _ => false).setNi (d := d) (n := n)
      (x := { s.ni d n with staging := (s.ni d n).staging ++ [f] })
    obtain ⟨hstage, hdebt, hkeep⟩ := ih (s := s.setNi d n { s.ni d n with staging := (s.ni d n).staging ++ [f] })
      (tput_wf hw _ _) (by rw [hni]; exact hd) (by rw [hni]; dsimp only; rw [List.length_append, List.length_singleton]; omega)
    refine ⟨?_, hdebt, hnow.trans hkeep⟩
    rw [hstage, hni]
    exact List.append_cons .. |>.symm

theorem exec_flitStageWrite (hl : s.niLive i.die i.ni = true) (hd : i.die ≠ 6) (l : List (BitVec 256)) :
    exec (.flitStageWrite i l) s = .next ((l.take 2).foldl (fun t f => t.stageOne i.die i.ni f) s) := by
  change execFlitStageWrite i l s = _
  simp [execFlitStageWrite, hl, hd]

theorem flitStageWrite_pays (hs : s.Inv) (hl : s.niLive i.die i.ni = true) (hd : i.die ≠ 6) (h2 : l.length ≤ 2)
    (hdebt : l.length ≤ (s.ni i.die i.ni).debt) : Leads (.flitStageWrite i l) s (fun t =>
      (t.ni i.die i.ni).debt = (s.ni i.die i.ni).debt - l.length ∧ (t.ni i.die i.ni).staging = (s.ni i.die i.ni).staging ∧
      s.keepsElse t [.nis] (fun _ => false)) := by
  obtain ⟨hpaid, hstage, hkeep⟩ := foldl_stageOne_pays hs.nis_wf hdebt
  exact ⟨_, by rw [exec_flitStageWrite hl hd, List.take_of_length_le h2], hpaid, hstage, hkeep.keepsElse hs.regs_wf⟩

theorem flitStageWrite_stores (hs : s.Inv) (hl : s.niLive i.die i.ni = true) (hd : i.die ≠ 6) (h2 : l.length ≤ 2)
    (hdebt : (s.ni i.die i.ni).debt = 0) (hroom : (s.ni i.die i.ni).staging.length + l.length ≤ 32) :
    Leads (.flitStageWrite i l) s (fun t => (t.ni i.die i.ni).staging = (s.ni i.die i.ni).staging ++ l ∧
      (t.ni i.die i.ni).debt = 0 ∧ s.keepsElse t [.nis] (fun _ => false)) := by
  obtain ⟨hstage, hnone, hkeep⟩ := foldl_stageOne_stores hs.nis_wf hdebt hroom
  exact ⟨_, by rw [exec_flitStageWrite hl hd, List.take_of_length_le h2], hstage, hnone, hkeep.keepsElse hs.regs_wf⟩

/-- Of two flits the first pays the last of the debt and the second is stored. -/
theorem flitStageWrite_splits (hs : s.Inv) (hl : s.niLive i.die i.ni = true) (hd : i.die ≠ 6)
    (hdebt : (s.ni i.die i.ni).debt = 1) (hroom : (s.ni i.die i.ni).staging.length < 32) :
    exec (.flitStageWrite i [f, g]) s = .next (s.setNi i.die i.ni
      { (s.ni i.die i.ni) with debt := 0, staging := (s.ni i.die i.ni).staging ++ [g] }) := by
  have hpay : s.stageOne i.die i.ni f = s.setNi i.die i.ni { s.ni i.die i.ni with debt := 0 } := by
    rw [State.stageOne_pays (by omega), hdebt]
  have hni := State.setNi_ni hs.nis_wf i.die i.ni { s.ni i.die i.ni with debt := 0 }
  have hstore := State.stageOne_stores (s := s.setNi i.die i.ni { s.ni i.die i.ni with debt := 0 }) (d := i.die) (n := i.ni)
    (f := g) (by rw [hni]) (by rw [hni]; exact hroom)
  rw [hni, State.setNi_setNi hs.nis_wf] at hstore
  rw [exec_flitStageWrite hl hd]
  change Host.Outcome.next ((s.stageOne i.die i.ni f).stageOne i.die i.ni g) = _
  rw [hpay, hstore]

theorem flitStageWrite_loses (hs : s.Inv) (hl : s.niLive i.die i.ni = true) (hd : i.die ≠ 6)
    (hdebt : (s.ni i.die i.ni).debt = 0) (hfull : 32 ≤ (s.ni i.die i.ni).staging.length) :
    Leads (.flitStageWrite i [f]) s (fun t => t.nis = s.nis ∧ t.bit (aNI_ERR i.die i.ni) fNI_ERR_STG_OVF ∧
      s.keepsElse t [.ev, .hw] (among [aNI_ERR i.die i.ni])) := by
  have hi := State.niLive_exists hl
  refine ⟨_, ?_, State.niErr_nis .., State.niErr_bit hs.regs_wf hi rfl (by decide),
    ((State.Within.refl s _ _).niErr hi (by simp [among])).keepsElse hs.regs_wf⟩
  rw [exec_flitStageWrite hl hd, List.take_of_length_le one_le_two, List.foldl_cons, List.foldl_nil,
    State.stageOne_loses hdebt hfull]

/-! #### Presenting -/

theorem exec_egressPresent_idle (h : s.tickN % ratioN (s.fld (aNI_CTRL i.die i.ni) fNI_CTRL_RATIO) ≠ 0 ∨
    (s.ni i.die i.ni).presentAt = s.now + 1 ∨ i.die = 6) : exec (.egressPresent i) s = .next s := by
  change execEgressPresent i s = _
  obtain h | h | h := h <;> simp [execEgressPresent, h]

/-- Where every buffered flit is due, the first ones are presented, as many as there are lanes. -/
theorem exec_egressPresent_due (hl : s.niLive i.die i.ni = true) (hd : i.die ≠ 6)
    (ht : s.tickN % ratioN (s.fld (aNI_CTRL i.die i.ni) fNI_CTRL_RATIO) = 0)
    (hp : (s.ni i.die i.ni).presentAt ≠ s.now + 1)
    (ha : (s.ni i.die i.ni).egress.all (fun e => decide (e.enter + 2 ≤ s.now)) = true) :
    exec (.egressPresent i) s = .next (s.setNi i.die i.ni { s.ni i.die i.ni with
      presented := (s.ni i.die i.ni).egress.take (if i.die = 7 then 1 else 2)
      egress := (s.ni i.die i.ni).egress.drop (if i.die = 7 then 1 else 2), presentAt := s.now + 1 }) := by
  have hready : (s.ni i.die i.ni).egress.takeWhile (fun e => decide (e.enter + 2 ≤ s.now)) = (s.ni i.die i.ni).egress :=
    List.takeWhile_eq_self_iff.mpr (List.all_eq_true.mp ha)
  have hmin : ∀ m, (s.ni i.die i.ni).egress.take (min (s.ni i.die i.ni).egress.length m) = (s.ni i.die i.ni).egress.take m ∧
      (s.ni i.die i.ni).egress.drop (min (s.ni i.die i.ni).egress.length m) = (s.ni i.die i.ni).egress.drop m := by
    intro m
    obtain h | h := Nat.le_total (s.ni i.die i.ni).egress.length m
    · rw [Nat.min_eq_left h, List.take_length, List.drop_length, List.take_of_length_le h, List.drop_of_length_le h]
      exact ⟨rfl, rfl⟩
    · rw [Nat.min_eq_right h]
      exact ⟨rfl, rfl⟩
  change execEgressPresent i s = _
  simp only [execEgressPresent, hl, ht, hp, hready, hmin]
  simp [hd]

theorem egressPresent_presents (hs : s.Inv) (hl : s.niLive i.die i.ni = true) (hd : i.die ≠ 6)
    (ht : s.tickN % ratioN (s.fld (aNI_CTRL i.die i.ni) fNI_CTRL_RATIO) = 0)
    (hp : (s.ni i.die i.ni).presentAt ≠ s.now + 1)
    (ha : (s.ni i.die i.ni).egress.all (fun e => decide (e.enter + 2 ≤ s.now)) = true) :
    Leads (.egressPresent i) s (fun t => (t.ni i.die i.ni).presented = (s.ni i.die i.ni).egress.take (if i.die = 7 then 1 else 2) ∧
      (t.ni i.die i.ni).egress = (s.ni i.die i.ni).egress.drop (if i.die = 7 then 1 else 2) ∧
      t = s.setNi i.die i.ni { (s.ni i.die i.ni) with presented := (t.ni i.die i.ni).presented, egress := (t.ni i.die i.ni).egress, presentAt := s.now + 1 }) := by
  refine ⟨_, exec_egressPresent_due hl hd ht hp ha, ?_⟩
  beta_reduce
  rw [State.setNi_ni hs.nis_wf]
  exact ⟨rfl, rfl, rfl⟩

/-- Settles O15, command by command: staged flits, the egress buffer, and the writes, reads and flushes of a FIFO. -/
theorem niFifosAndStaging : Obligations.NiFifosAndStaging := by
  unfold Obligations.NiFifosAndStaging
  intro s hs
  refine ⟨fun i l hl hd h2 hdebt => ?_, fun i l hl hd h2 hdebt hroom => ?_, fun i f g hl hd hdebt hroom => ?_,
    fun i f hl hd hdebt hfull => ?_, fun i hl hd ht hp ha => ?_, fun i h => exec_egressPresent_idle h,
    fun i k f l hl hf => ?_, fun i k f l hl hf => ?_, fun i k f r hl ha => ?_, fun i k hl ha => exec_fifoRead_empty hl ha,
    fun m i b hi hm => fifoFlush_marks hi hm, fun i k hl hf hw hr => ?_, fun i k p r hl hf hw hr hp => ?_,
    fun i k h => exec_flushBoundary_idle h⟩
  · exact flitStageWrite_pays hs hl hd h2 hdebt
  · exact flitStageWrite_stores hs hl hd h2 hdebt hroom
  · exact flitStageWrite_splits hs hl hd hdebt hroom
  · exact flitStageWrite_loses hs hl hd hdebt hfull
  · exact egressPresent_presents hs hl hd ht hp ha
  · exact fifoWrite_appends hs hl hf f l
  · exact fifoWrite_discards hs hl hf f l
  · exact fifoRead_takes hs hl ha
  · exact flushBoundary_leads hs hl hf hw (afterFlush_idle hr)
  · exact flushBoundary_leads hs hl hf hw (afterFlush_reading hr hp)

end Sys2Proof.Machine
end

section
/-! ### Fields of a packet's header (R89) -/

namespace Sys2Proof.Machine

set_option Elab.async false

variable {h : BitVec 256} {v w hi lo w' hi' lo' : Nat}

theorem testBit_hget (h : BitVec 256) (w hi lo i : Nat) :
    (hget h w hi lo).testBit i = (decide (i < hi + 1 - lo) && h.getLsbD (32 * w + (lo + i))) := by
  rw [hget, bitsOf, Nat.testBit_mod_two_pow, Nat.testBit_shiftRight, Nat.testBit_shiftRight, BitVec.testBit_toNat]

theorem getLsbD_hset (h : BitVec 256) (w hi lo v i : Nat) : (hset h w hi lo v).getLsbD i =
    if 32 * w + lo ≤ i ∧ i < 32 * w + lo + (hi + 1 - lo) ∧ i < 256 then v.testBit (i - (32 * w + lo)) else h.getLsbD i := by
  simp only [hset, BitVec.getLsbD_or, BitVec.getLsbD_and, BitVec.getLsbD_not, BitVec.getLsbD_ofNat, Nat.testBit_shiftLeft,
    Nat.testBit_mod_two_pow, Nat.testBit_two_pow_sub_one]
  by_cases h256 : i < 256
  · by_cases hge : 32 * w + lo ≤ i
    · by_cases hlt : i - (32 * w + lo) < hi + 1 - lo
      · have hin : i < 32 * w + lo + (hi + 1 - lo) := by omega
        simp [h256, hge, hlt, hin]
      · have hout : ¬ i < 32 * w + lo + (hi + 1 - lo) := by omega
        simp [h256, hge, hlt, hout]
    · simp [h256, hge]
  · simp [h256, Nat.le_of_not_lt h256]

/-- A field reads as before once a field apart from it is set. -/
theorem hget_hset_disjoint (h : BitVec 256) (v : Nat) (hd : 32 * w + hi < 32 * w' + lo' ∨ 32 * w' + hi' < 32 * w + lo) :
    hget (hset h w' hi' lo' v) w hi lo = hget h w hi lo := by
  apply Nat.eq_of_testBit_eq
  intro i
  rw [testBit_hget, testBit_hget, getLsbD_hset]
  by_cases hi' : i < hi + 1 - lo
  · rw [if_neg (by omega)]
  · simp [hi']

/-- A field just set reads back, within its width. -/
theorem hget_hset_same (h : BitVec 256) (v : Nat) (hl : 32 * w + hi < 256) :
    hget (hset h w hi lo v) w hi lo = v % 2 ^ (hi + 1 - lo) := by
  apply Nat.eq_of_testBit_eq
  intro i
  rw [testBit_hget, getLsbD_hset, Nat.testBit_mod_two_pow]
  by_cases hi' : i < hi + 1 - lo
  · rw [if_pos (by omega), show 32 * w + (lo + i) - (32 * w + lo) = i by omega]
  · simp [hi']

/-- The fields that an NI fills in leave those that its user sets: type, tag, address and bytes (R89). -/
theorem State.fillHdr_user (s : State) (d n m : Nat) (h : BitVec 256) :
    hType (s.fillHdr d n m h) = hType h ∧ hTag (s.fillHdr d n m h) = hTag h ∧ hAddr (s.fillHdr d n m h) = hAddr h ∧
      hStart (s.fillHdr d n m h) = hStart h ∧ hCount (s.fillHdr d n m h) = hCount h := by
  simp [State.fillHdr, hType, hTag, hAddr, hStart, hCount, hget_hset_disjoint]

theorem State.fillHdr_rspPlaces (s : State) (d n m : Nat) (h : BitVec 256) :
    rspPlaces (s.fillHdr d n m h) = rspPlaces h := by
  obtain ⟨htype, -, -, hstart, hcount⟩ := s.fillHdr_user d n m h
  rw [rspPlaces, rspPlaces, htype, hstart, hcount]

/-- A response written locally has the status given. -/
theorem localRsp_status (h : BitVec 256) (v : Nat) : hget (localRsp h v).hdr 6 19 17 = v % 8 := hget_hset_same _ _ (by decide)

/-- A hop changes no packet's virtual channel. -/
theorem hVc_hShift (h : BitVec 256) : hVc (hShift h) = hVc h := by
  have htype : hType (hShift h) = hType h := by
    simp [hShift, hSetHops, hType, hget_hset_disjoint]
  rw [hVc, hVc, htype]

theorem hVc_lt (h : BitVec 256) : hVc h < 2 := by
  unfold hVc
  split <;> decide

end Sys2Proof.Machine
end

section
/-! ### Admission of requests (R92 to R95, R109 to R112, R76) -/

namespace Sys2Proof.Machine

set_option Elab.async false

variable {s t : State} {l : List Part} {ok : Nat → Bool} {d n k m : Nat} {p : Packet} {c : Option Origin} {h q : BitVec 256}
  {f : Option Fld} {i : NiId} {o : Outst}

/-! #### Routes -/

/-- The flags of `NI_ERR` that a missing route sets. -/
def routeFlags : List Fld := [fNI_ERR_CTRL_SPACE, fNI_ERR_PORT_MISMATCH, fNI_ERR_ROUTE_MISS]

theorem State.routeRemote_flag (s : State) (d n : Nat) (h : BitVec 256) (dev : Nat) {g : Fld}
    (hr : s.routeRemote d n h dev = .err (some g)) : g ∈ routeFlags := by
  revert hr
  fun_cases State.routeRemote s d n h dev <;> rintro ⟨⟩ <;> simp [routeFlags]

theorem State.routeLocal_flag (s : State) (d n : Nat) (h : BitVec 256) (idx : Nat) {g : Fld}
    (hr : s.routeLocal d n h idx = .err (some g)) : g ∈ routeFlags := by
  revert hr
  fun_cases State.routeLocal s d n h idx
  · rintro ⟨⟩
  · rintro ⟨⟩
    simp [routeFlags]

theorem State.routeRequest_flag (s : State) (d n : Nat) (h : BitVec 256) {g : Fld}
    (hr : s.routeRequest d n h = .err (some g)) : g ∈ routeFlags := by
  revert hr
  fun_cases State.routeRequest s d n h
  case case1 => exact s.routeRemote_flag _ _ _ _
  case case2 =>
    rintro ⟨⟩
    simp [routeFlags]
  case case3 => rintro ⟨⟩
  case case4 => exact s.routeLocal_flag _ _ _ _

/-- Each is one bit of the register. -/
theorem routeFlags_bit {g : Fld} (h : g ∈ routeFlags) : g.width = 1 ∧ g.lsb < 32 := by
  simp only [routeFlags, List.mem_cons, List.not_mem_nil, or_false] at h
  obtain rfl | rfl | rfl := h <;> decide

/-! #### What is tracked -/

/-- A request is tracked, with the places that its response will take (R110). -/
def State.track (s : State) (d n : Nat) (o : Outst) : State :=
  s.setNi d n { s.ni d n with outst := (s.ni d n).outst ++ [o], rsv := (s.ni d n).rsv + o.places }

/-- The request as it is tracked, for the header with the NI's fields. -/
def State.outstOf (s : State) (d n : Nat) (h q : BitVec 256) (c : Option Origin) : Outst :=
  { tag := hTag h, places := rspPlaces h, deadline := s.deadline d n, hdr := q, client := c }

/-- Flits have been read from a FIFO by the NI. -/
def State.popped (s : State) (d n k m : Nat) : State := s.setNi d n ((s.ni d n).pop k s.now m)

theorem State.popped_ni (hs : s.Inv) (d n k m : Nat) : (s.popped d n k m).ni d n = (s.ni d n).pop k s.now m :=
  State.setNi_ni hs.nis_wf ..

theorem State.popped_inv (hs : s.Inv) (d n k m : Nat) : (s.popped d n k m).Inv :=
  State.canon_iff _ |>.mp (s.canon_iff.mpr hs).setNi

theorem State.Within.popped (h : s.Within t l ok) (hl : .nis ∈ l := by decide) : s.Within (t.popped d n k m) l ok := h.setNi hl

theorem State.track_ni (hs : s.Inv) (d n : Nat) (o : Outst) : (s.track d n o).ni d n =
    { s.ni d n with outst := (s.ni d n).outst ++ [o], rsv := (s.ni d n).rsv + o.places } :=
  State.setNi_ni hs.nis_wf ..

theorem State.deliverRsp_user (s : State) (d n : Nat) (h : o.client = none) (p : Packet) :
    s.deliverRsp d n o p = s.fifoPush d n 1 (pktFlits p) := by
  rw [State.deliverRsp, h]

/-! #### The branches of admission -/

theorem State.admitPkt_message (ht : hType p.hdr = 4) (hr : s.routeRequest d n (s.fillHdr d n m p.hdr) = .to q) :
    s.admitPkt d n p m c = s.inject d n { p with hdr := q } 0 := by
  obtain ⟨htype, -⟩ := s.fillHdr_user d n m p.hdr
  simp only [State.admitPkt, htype, ht, hr, if_true]

theorem State.admitPkt_twice (ht : hType p.hdr ≠ 4) (hd : (s.ni d n).outst.any (fun o => o.tag == hTag p.hdr) = true) :
    s.admitPkt d n p m none =
      (s.fifoPush d n 1 (pktFlits (localRsp (s.fillHdr d n m p.hdr) 1))).beFlag d n fBE_FLAG_TAG_DUP := by
  obtain ⟨htype, htag, -⟩ := s.fillHdr_user d n m p.hdr
  simp only [State.admitPkt, htype, htag, ht, hd, if_true, if_false]
  rw [State.deliverRsp_user _ _ _ rfl]

section Fresh
variable (ht : hType p.hdr < 2) (hd : ∀ o ∈ (s.ni d n).outst, o.tag ≠ hTag p.hdr)
include ht hd

theorem State.admitPkt_routed (hr : s.routeRequest d n (s.fillHdr d n m p.hdr) = .to q) :
    s.admitPkt d n p m none = (s.track d n (s.outstOf d n p.hdr q none)).inject d n { p with hdr := q } 0 := by
  obtain ⟨htype, htag, -⟩ := s.fillHdr_user d n m p.hdr
  have hnone : (s.ni d n).outst.any (fun o => o.tag == hTag p.hdr) = false := by simpa using hd
  simp only [State.admitPkt, htype, htag, show ¬ hType p.hdr = 4 by omega, hnone, hr, s.fillHdr_rspPlaces]
  rfl

theorem State.admitPkt_unrouted (hr : s.routeRequest d n (s.fillHdr d n m p.hdr) = .err f) :
    s.admitPkt d n p m none = f.elim (s.fifoPush d n 1 (pktFlits (localRsp (s.fillHdr d n m p.hdr) 1)))
      (fun g => (s.fifoPush d n 1 (pktFlits (localRsp (s.fillHdr d n m p.hdr) 1))).niErr d n g) := by
  obtain ⟨htype, htag, -⟩ := s.fillHdr_user d n m p.hdr
  have hnone : (s.ni d n).outst.any (fun o => o.tag == hTag p.hdr) = false := by simpa using hd
  simp only [State.admitPkt, htype, htag, show ¬ hType p.hdr = 4 by omega, hnone, hr]
  cases f <;> rfl

theorem State.admitPkt_memory {x : Origin} (hdev : hAddr p.hdr / 2 ^ 48 = s.devId)
    (hmem : memClass (classOf (hAddr p.hdr % 2 ^ 48)) = true) :
    s.admitPkt d n p m (some x) =
      { s.track d n (s.outstOf d n p.hdr (s.fillHdr d n m p.hdr) (some x)) with
        mq := s.mq ++ [s.memReqOf { p with hdr := s.fillHdr d n m p.hdr } m (.client n (hTag p.hdr))] } := by
  obtain ⟨htype, htag, haddr, -⟩ := s.fillHdr_user d n m p.hdr
  have hnone : (s.ni d n).outst.any (fun o => o.tag == hTag p.hdr) = false := by simpa using hd
  simp only [State.admitPkt, htype, htag, haddr, show ¬ hType p.hdr = 4 by omega, hnone, hdev, hmem, s.fillHdr_rspPlaces,
    Option.isSome_some, beq_self_eq_true, Bool.and_self, Bool.false_eq_true, if_true, if_false]
  rfl

end Fresh

end Sys2Proof.Machine
end

section
/-! ### An NI sends the head of `TRSP`, of `MREQ`, or of its client's queue (R76, R89, R92 to R95, R109 to R111) -/

namespace Sys2Proof.Machine

set_option Elab.async false

variable {s t : State} {part : List Part} {ok : Nat → Bool} {i : NiId} {d n m : Nat} {h q g : BitVec 256}
  {l : List (BitVec 256)} {rest : List FifoFlit} {x : Ni} {f : Option Fld}

/-! #### What does not depend on an NI's record -/

@[simp] theorem State.setNi_routeRequest (s : State) (d n e k : Nat) (x : Ni) (h : BitVec 256) :
    (s.setNi e k x).routeRequest d n h = s.routeRequest d n h := rfl
@[simp] theorem State.setNi_routeResponse (s : State) (d n e k : Nat) (x : Ni) (h : BitVec 256) :
    (s.setNi e k x).routeResponse d n h = s.routeResponse d n h := rfl
@[simp] theorem State.setNi_fillHdr (s : State) (d n e k : Nat) (x : Ni) (m : Nat) (h : BitVec 256) :
    (s.setNi e k x).fillHdr d n m h = s.fillHdr d n m h := rfl
@[simp] theorem State.setNi_userRspHdr (s : State) (d n e k : Nat) (x : Ni) (h q : BitVec 256) :
    (s.setNi e k x).userRspHdr d n h q = s.userRspHdr d n h q := rfl
@[simp] theorem State.setNi_outstOf (s : State) (d n e k : Nat) (x : Ni) (h q : BitVec 256) (c : Option Origin) :
    (s.setNi e k x).outstOf d n h q c = s.outstOf d n h q c := rfl

theorem State.Within.track (hw : s.Within t part ok) {o : Outst} (hp : .nis ∈ part := by decide) :
    s.Within (t.track d n o) part ok := hw.setNi hp

theorem State.Within.inject (hw : s.Within t part ok) {p : Packet} {own : Nat} (hp : .be ∈ part := by decide) :
    s.Within (t.inject d n p own) part ok := hw.put_be hp

/-- The requests that wait at the hub's memories are a part of their own. -/
theorem State.Within.put_mq (hw : s.Within t part ok) {x : List MemReq} (hp : .mq ∈ part := by decide) :
    s.Within { t with mq := x } part ok := by
  refine hw.put (fun p hn => ?_) rfl
  cases p
  case mq => exact absurd hp hn
  case mem => exact fun _ => rfl
  all_goals rfl

/-! #### A response -/

theorem exec_beRequestIssue_response (hl : s.niLive i.die i.ni = true)
    (h3 : firstPacket ((s.ni i.die i.ni).avail 3) [] = some (h :: l, rest)) :
    exec (.beRequestIssue i) s = .next ((s.popped i.die i.ni 3 (1 + l.length)).issueRsp i.die i.ni h l) := by
  change execBeRequestIssue i s = _
  simp [execBeRequestIssue, hl, h3, State.popped]

/-- A response that answers a served request and has a route enters the grid. -/
theorem State.issueRsp_routed (hq : (s.ni d n).served.find? (fun q => hTag q == hTag h) = some q)
    (hloop : s.bit (aNI_CTRL d n) fNI_CTRL_LOOP = false) (hr : s.routeResponse d n (s.userRspHdr d n h q) = .to g) :
    s.issueRsp d n h l = (s.setNi d n { s.ni d n with served := (s.ni d n).served.erase q }).inject d n { hdr := g, data := l } 0 := by
  simp only [State.issueRsp, hq, hloop, State.setNi_routeResponse, State.setNi_userRspHdr, hr, Bool.false_eq_true, if_false]

theorem beRequestIssue_answers (hs : s.Inv) (hl : s.niLive i.die i.ni = true)
    (h3 : firstPacket ((s.ni i.die i.ni).avail 3) [] = some (h :: l, rest))
    (hq : (s.ni i.die i.ni).served.find? (fun q => hTag q == hTag h) = some q)
    (hloop : s.bit (aNI_CTRL i.die i.ni) fNI_CTRL_LOOP = false)
    (hr : s.routeResponse i.die i.ni (s.userRspHdr i.die i.ni h q) = .to g) :
    Leads (.beRequestIssue i) s (fun t => (t.ni i.die i.ni).fifo3 = (s.ni i.die i.ni).fifo3.drop (1 + l.length) ∧
      (t.ni i.die i.ni).served = (s.ni i.die i.ni).served.erase q ∧
      t.be.items = s.be.items ++ [BeItem.start { hdr := g, data := l } i.die i.ni 4 s.now 0] ∧
      s.keepsElse t [.be, .nis] (fun _ => false)) := by
  have hu := State.popped_ni hs i.die i.ni 3 (1 + l.length)
  have hrsp := State.issueRsp_routed (s := s.popped i.die i.ni 3 (1 + l.length)) (l := l) (by rw [hu]; exact hq) hloop hr
  have hni := State.setNi_ni (State.popped_inv hs i.die i.ni 3 (1 + l.length)).nis_wf i.die i.ni
    { (s.popped i.die i.ni 3 (1 + l.length)).ni i.die i.ni with
      served := ((s.popped i.die i.ni 3 (1 + l.length)).ni i.die i.ni).served.erase q }
  refine ⟨_, by rw [exec_beRequestIssue_response hl h3, hrsp], ?_, ?_, rfl,
    (State.Within.refl s _ _).popped.setNi.inject.keepsElse hs.regs_wf⟩
  · exact (congrArg Ni.fifo3 hni).trans (by rw [hu]; rfl)
  · exact (congrArg Ni.served hni).trans (by rw [hu]; rfl)

/-! #### A request of user logic -/

/-- The NI's record once a request of its user has been answered on the spot. -/
theorem popped_fifoPush_ni (hs : s.Inv) (i : NiId) (p : Packet) :
    ((s.popped i.die i.ni 0 (1 + l.length)).fifoPush i.die i.ni 1 (pktFlits p)).ni i.die i.ni =
      ((s.ni i.die i.ni).pop 0 s.now (1 + l.length)).push 1 s.now (pktFlits p) := by
  rw [State.fifoPush_ni (State.popped_inv hs ..).nis_wf, State.popped_ni hs]
  rfl

@[simp] theorem State.fifoPush_be (s : State) (d n k : Nat) (fl : List FifoFlit) : (s.fifoPush d n k fl).be = s.be := by
  unfold State.fifoPush State.fifoLevel
  dsimp only
  split <;> simp

section Request
variable (hs : s.Inv) (hl : s.niLive i.die i.ni = true) (h3 : firstPacket ((s.ni i.die i.ni).avail 3) [] = none)
  (h0 : firstPacket ((s.ni i.die i.ni).avail 0) [] = some (h :: l, rest)) (hc : s.canAdmit i.die i.ni h = true)
  (hloop : s.bit (aNI_CTRL i.die i.ni) fNI_CTRL_LOOP = false) (ha : s.niAccepts i.die i.ni = true)

include hl h3 h0 hc hloop ha in
theorem exec_beRequestIssue_request : exec (.beRequestIssue i) s =
    .next ((s.popped i.die i.ni 0 (1 + l.length)).admitPkt i.die i.ni { hdr := h, data := l } (if i.die = 7 then 0x10 else 0) none) := by
  change execBeRequestIssue i s = _
  simp [execBeRequestIssue, hl, h3, h0, hc, hloop, ha, State.popped]

include hs hl h3 h0 hc hloop ha

theorem beRequestIssue_tracks (ht : hType h < 2) (hd : ∀ o ∈ (s.ni i.die i.ni).outst, o.tag ≠ hTag h)
    (hr : s.routeRequest i.die i.ni (s.fillHdr i.die i.ni (if i.die = 7 then 0x10 else 0) h) = .to q) :
    Leads (.beRequestIssue i) s (fun t => (t.ni i.die i.ni).fifo0 = (s.ni i.die i.ni).fifo0.drop (1 + l.length) ∧
      (t.ni i.die i.ni).outst = (s.ni i.die i.ni).outst ++ [{ tag := hTag h, places := rspPlaces h, deadline := s.deadline i.die i.ni, hdr := q, client := none }] ∧
      (t.ni i.die i.ni).rsv = (s.ni i.die i.ni).rsv + rspPlaces h ∧
      t.be.items = s.be.items ++ [BeItem.start { hdr := q, data := l } i.die i.ni 4 s.now 0] ∧
      s.keepsElse t [.be, .nis] (fun _ => false)) := by
  have hu := State.popped_ni hs i.die i.ni 0 (1 + l.length)
  have hadm := State.admitPkt_routed (s := s.popped i.die i.ni 0 (1 + l.length)) (p := { hdr := h, data := l }) ht
    (by rw [hu]; exact hd) hr
  have hni := (State.track_ni (State.popped_inv hs i.die i.ni 0 (1 + l.length)) i.die i.ni
    (s.outstOf i.die i.ni h q none)).trans (by rw [hu])
  refine ⟨_, by rw [exec_beRequestIssue_request hl h3 h0 hc hloop ha, hadm], ?_, ?_, ?_, rfl,
    (State.Within.refl s _ _).popped.track.inject.keepsElse hs.regs_wf⟩
  · exact congrArg Ni.fifo0 hni
  · exact congrArg Ni.outst hni
  · exact congrArg Ni.rsv hni

theorem beRequestIssue_sendsMessage (ht : hType h = 4)
    (hr : s.routeRequest i.die i.ni (s.fillHdr i.die i.ni (if i.die = 7 then 0x10 else 0) h) = .to q) :
    Leads (.beRequestIssue i) s (fun t => (t.ni i.die i.ni).fifo0 = (s.ni i.die i.ni).fifo0.drop (1 + l.length) ∧
      (t.ni i.die i.ni).outst = (s.ni i.die i.ni).outst ∧ (t.ni i.die i.ni).rsv = (s.ni i.die i.ni).rsv ∧
      t.be.items = s.be.items ++ [BeItem.start { hdr := q, data := l } i.die i.ni 4 s.now 0] ∧
      s.keepsElse t [.be, .nis] (fun _ => false)) := by
  have hu := State.popped_ni hs i.die i.ni 0 (1 + l.length)
  have hadm := State.admitPkt_message (s := s.popped i.die i.ni 0 (1 + l.length)) (p := { hdr := h, data := l }) (c := none) ht hr
  refine ⟨_, by rw [exec_beRequestIssue_request hl h3 h0 hc hloop ha, hadm], ?_, ?_, ?_, rfl,
    (State.Within.refl s _ _).popped.inject.keepsElse hs.regs_wf⟩
  · exact congrArg Ni.fifo0 hu
  · exact (congrArg Ni.outst hu).trans rfl
  · exact (congrArg Ni.rsv hu).trans rfl

theorem beRequestIssue_unrouted (ht : hType h < 2) (hd : ∀ o ∈ (s.ni i.die i.ni).outst, o.tag ≠ hTag h)
    (hr : s.routeRequest i.die i.ni (s.fillHdr i.die i.ni (if i.die = 7 then 0x10 else 0) h) = .err f) :
    Leads (.beRequestIssue i) s (fun t => (t.ni i.die i.ni).fifo0 = (s.ni i.die i.ni).fifo0.drop (1 + l.length) ∧
      (t.ni i.die i.ni).outst = (s.ni i.die i.ni).outst ∧
      (t.ni i.die i.ni).fifo1 = (s.ni i.die i.ni).fifo1 ++ pktFlits (localRsp (s.fillHdr i.die i.ni (if i.die = 7 then 0x10 else 0) h) 1) ∧
      t.be = s.be ∧ f.all (fun g => t.bit (aNI_ERR i.die i.ni) g) ∧ s.keepsElse t [.ev, .hw, .nis] (among [aNI_ERR i.die i.ni,
      aFIFO_STAT i.die i.ni 1])) := by
  have hi := State.niLive_exists hl
  have hu := State.popped_ni hs i.die i.ni 0 (1 + l.length)
  have hadm := State.admitPkt_unrouted (s := s.popped i.die i.ni 0 (1 + l.length)) (p := { hdr := h, data := l }) ht
    (by rw [hu]; exact hd) hr
  have hexec := exec_beRequestIssue_request hl h3 h0 hc hloop ha
  have hni := popped_fifoPush_ni (l := l) hs i (localRsp (s.fillHdr i.die i.ni (if i.die = 7 then 0x10 else 0) h) 1)
  have hk := ((State.Within.refl s [.ev, .hw, .nis] (among [aNI_ERR i.die i.ni, aFIFO_STAT i.die i.ni 1])).popped
    (d := i.die) (n := i.ni) (k := 0) (m := 1 + l.length)).fifoPush (k := 1) hi (by simp [among])
      (fl := pktFlits (localRsp (s.fillHdr i.die i.ni (if i.die = 7 then 0x10 else 0) h) 1))
  cases f with
  | none =>
    exact ⟨_, by rw [hexec, hadm]; rfl, congrArg Ni.fifo0 hni, (congrArg Ni.outst hni).trans rfl, congrArg Ni.fifo1 hni,
      State.fifoPush_be .., rfl, hk.keepsElse hs.regs_wf⟩
  | some g =>
    obtain ⟨hw, hlsb⟩ := routeFlags_bit (State.routeRequest_flag _ _ _ _ hr)
    have hni' := (State.ni_congr (State.niErr_nis _ i.die i.ni g) i.die i.ni).trans hni
    exact ⟨_, by rw [hexec, hadm]; rfl, congrArg Ni.fifo0 hni', (congrArg Ni.outst hni').trans rfl, congrArg Ni.fifo1 hni',
      (State.niErr_be ..).trans (State.fifoPush_be ..), State.niErr_bit (hk.wf hs.regs_wf) hi hw hlsb,
      (hk.niErr hi (by simp [among])).keepsElse hs.regs_wf⟩

theorem beRequestIssue_refusesTag (ht : hType h ≠ 4) (hd : (s.ni i.die i.ni).outst.any (fun o => o.tag == hTag h) = true) :
    Leads (.beRequestIssue i) s (fun t => (t.ni i.die i.ni).fifo0 = (s.ni i.die i.ni).fifo0.drop (1 + l.length) ∧
      (t.ni i.die i.ni).outst = (s.ni i.die i.ni).outst ∧
      (t.ni i.die i.ni).fifo1 = (s.ni i.die i.ni).fifo1 ++ pktFlits (localRsp (s.fillHdr i.die i.ni (if i.die = 7 then 0x10 else 0) h) 1) ∧
      t.be = s.be ∧ t.bit (aBE_FLAG i.die i.ni) fBE_FLAG_TAG_DUP ∧ s.keepsElse t [.ev, .hw, .nis] (among [aBE_FLAG i.die i.ni,
      aFIFO_STAT i.die i.ni 1])) := by
  have hi := State.niLive_exists hl
  have hu := State.popped_ni hs i.die i.ni 0 (1 + l.length)
  have hadm := State.admitPkt_twice (s := s.popped i.die i.ni 0 (1 + l.length)) (p := { hdr := h, data := l })
    (m := if i.die = 7 then 0x10 else 0) ht (by rw [hu]; exact hd)
  have hni := (State.ni_congr (State.beFlag_nis _ i.die i.ni fBE_FLAG_TAG_DUP) i.die i.ni).trans
    (popped_fifoPush_ni (l := l) hs i (localRsp (s.fillHdr i.die i.ni (if i.die = 7 then 0x10 else 0) h) 1))
  have hk := ((State.Within.refl s [.ev, .hw, .nis] (among [aBE_FLAG i.die i.ni, aFIFO_STAT i.die i.ni 1])).popped
    (d := i.die) (n := i.ni) (k := 0) (m := 1 + l.length)).fifoPush (k := 1) hi (by simp [among])
      (fl := pktFlits (localRsp (s.fillHdr i.die i.ni (if i.die = 7 then 0x10 else 0) h) 1))
  exact ⟨_, by rw [exec_beRequestIssue_request hl h3 h0 hc hloop ha, hadm]; rfl, congrArg Ni.fifo0 hni,
    (congrArg Ni.outst hni).trans rfl, congrArg Ni.fifo1 hni, (State.beFlag_be ..).trans (State.fifoPush_be ..),
    State.beFlag_bit (hk.wf hs.regs_wf) hi rfl (by decide), (hk.beFlag hi (by simp [among])).keepsElse hs.regs_wf⟩

end Request

/-! #### A request of a hub client to a memory of the hub -/

theorem exec_beRequestIssue_client {q : ClientReq} {r : List ClientReq} (hl : s.niLive i.die i.ni = true)
    (h3 : firstPacket ((s.ni i.die i.ni).avail 3) [] = none) (h0 : firstPacket ((s.ni i.die i.ni).avail 0) [] = none)
    (hq : (s.ni i.die i.ni).clientQ = q :: r) (hc : s.canAdmit i.die i.ni q.pkt.hdr = true)
    (ha : s.niAccepts i.die i.ni = true) :
    exec (.beRequestIssue i) s = .next ((s.setNi i.die i.ni { s.ni i.die i.ni with clientQ := r }).admitPkt i.die i.ni q.pkt q.master
      (some q.origin)) := by
  change execBeRequestIssue i s = _
  simp [execBeRequestIssue, hl, h3, h0, hq, hc, ha]

theorem beRequestIssue_entersCrossbar {q : ClientReq} {r : List ClientReq} (hs : s.Inv) (hl : s.niLive i.die i.ni = true)
    (hd : i.die = 6) (h3 : firstPacket ((s.ni i.die i.ni).avail 3) [] = none)
    (h0 : firstPacket ((s.ni i.die i.ni).avail 0) [] = none) (hq : (s.ni i.die i.ni).clientQ = q :: r)
    (hc : s.canAdmit 6 i.ni q.pkt.hdr = true) (ha : s.niAccepts 6 i.ni = true) (ht : hType q.pkt.hdr < 2)
    (hfresh : ∀ o ∈ (s.ni i.die i.ni).outst, o.tag ≠ hTag q.pkt.hdr) (hdev : hAddr q.pkt.hdr / 2 ^ 48 = s.devId)
    (hmem : memClass (classOf (hAddr q.pkt.hdr % 2 ^ 48)) = true) :
    Leads (.beRequestIssue i) s (fun t => (t.ni i.die i.ni).clientQ = r ∧
      (t.ni i.die i.ni).outst.length = (s.ni i.die i.ni).outst.length + 1 ∧
      (t.ni i.die i.ni).rsv = (s.ni i.die i.ni).rsv + rspPlaces q.pkt.hdr ∧
      t.mq = s.mq ++ [s.memReqOf { q.pkt with hdr := s.fillHdr 6 i.ni q.master q.pkt.hdr } q.master (.client i.ni (hTag q.pkt.hdr))] ∧
      s.keepsElse t [.mq, .nis] (fun _ => false)) := by
  have hu := State.setNi_ni hs.nis_wf i.die i.ni { s.ni i.die i.ni with clientQ := r }
  have hinv : (s.setNi i.die i.ni { s.ni i.die i.ni with clientQ := r }).Inv :=
    State.canon_iff _ |>.mp (s.canon_iff.mpr hs).setNi
  have hadm := State.admitPkt_memory (s := s.setNi i.die i.ni { s.ni i.die i.ni with clientQ := r }) (d := i.die) (n := i.ni)
    (m := q.master) (x := q.origin) ht (by rw [hu]; exact hfresh) hdev hmem
  have hni := (State.track_ni hinv i.die i.ni (s.outstOf i.die i.ni q.pkt.hdr (s.fillHdr i.die i.ni q.master q.pkt.hdr)
    (some q.origin))).trans (by rw [hu])
  refine ⟨_, by rw [exec_beRequestIssue_client hl h3 h0 hq (hd ▸ hc) (hd ▸ ha), hadm], ?_, ?_, ?_, by rw [hd]; rfl, ?_⟩
  · exact congrArg Ni.clientQ hni
  · exact (congrArg (fun x => x.outst.length) hni).trans (List.length_append ..)
  · exact congrArg Ni.rsv hni
  · exact ((State.Within.refl s [.mq, .nis] fun _ => false).setNi.track.put_mq).keepsElse hs.regs_wf

end Sys2Proof.Machine
end

section
/-! ### Places that are freed, and links that are crossed (R103, R133, R135) -/

namespace Sys2Proof.Machine

set_option Elab.async false

variable {s t : State} {part : List Part} {ok : Nat → Bool} {x y : BeItem} {d n out k : Nat} {via : Option Via}

/-- The table of used places is as it was, or with another count at one key. -/
def usedBut (key : Nat) (u u' : Tab Nat) : Prop := u' = u ∨ ∃ v, u' = tput (fun _ => 0) u key v

theorem usedBut.other {key j : Nat} {u u' : Tab Nat} (h : usedBut key u u') (hw : Tab.wf (fun _ => 0) u = true) (hj : j ≠ key) :
    tget (fun _ => 0) u' j = tget (fun _ => 0) u j := by
  obtain rfl | ⟨v, rfl⟩ := h
  · rfl
  · exact tget_tput_ne hw hj v

/-- Credits that become due join those that are. -/
theorem foldl_due_shape (s : State) (l : List Nat) (c : State → Nat → CreditDue) :
    ∃ due, l.foldl (fun t j => { t with be := { t.be with due := t.be.due ++ [c t j] } }) s =
      { s with be := { s.be with due := due } } := by
  induction l generalizing s with
  | nil => exact ⟨s.be.due, rfl⟩
  | cons j r ih => exact ih { s with be := { s.be with due := s.be.due ++ [c s j] } }

/-- Freed places are counted among the credits, or by the port they were charged over; no packet and no output changes. -/
theorem State.freePlaces_shape (s : State) (x : BeItem) (i m : Nat) : ∃ b p, s.freePlaces x i m = { s with be := b, ports := p } ∧
    b.items = s.be.items ∧ b.lastOut = s.be.lastOut ∧ b.lastIn = s.be.lastIn ∧
    usedBut (inKey x.d x.n x.inp x.vc) s.be.usedOrd b.usedOrd ∧ usedBut (inKey x.d x.n x.inp x.vc) s.be.usedRsv b.usedRsv := by
  fun_cases State.freePlaces s x i m
  case case1 => exact ⟨_, _, rfl, rfl, rfl, rfl, .inr ⟨_, rfl⟩, .inr ⟨_, rfl⟩⟩
  case case3 =>
    obtain ⟨due, hdue⟩ := foldl_due_shape s (List.range m) _
    exact ⟨_, s.ports, hdue, rfl, rfl, rfl, .inl rfl, .inl rfl⟩
  case case5 => exact ⟨_, s.ports, rfl, rfl, rfl, rfl, .inl rfl, .inl rfl⟩
  all_goals exact ⟨s.be, s.ports, rfl, rfl, rfl, rfl, .inl rfl, .inl rfl⟩

/-- A packet taken or dropped whole leaves the routers; only they and the ports change. -/
theorem State.freeItem_shape (s : State) (x : BeItem) : ∃ b p, s.freeItem x = { s with be := b, ports := p } ∧
    b.items = s.be.items.erase x := by
  obtain ⟨b, p, h, hitems, -⟩ := s.freePlaces_shape x x.gone (x.len - x.gone)
  exact ⟨{ b with items := b.items.erase x }, p, by rw [State.freeItem, h]; rfl, by rw [hitems]⟩

theorem State.freeItem_ni (s : State) (x : BeItem) (d n : Nat) : (s.freeItem x).ni d n = s.ni d n := by
  obtain ⟨b, p, hfree, -⟩ := s.freeItem_shape x
  rw [hfree]
  rfl

theorem State.Within.put_free (hw : s.Within t part ok) {v : Nat} (hp : .free ∈ part := by decide) :
    s.Within { t with free := v } part ok := by
  refine hw.put (fun p hn => ?_) rfl
  cases p
  case free => exact absurd hp hn
  case mem => exact fun _ => rfl
  all_goals rfl

/-- Packets and ports are where a packet that moves is counted. -/
theorem State.Within.put_routers (hw : s.Within t part ok) {b : Be} {p : Tab Port} (hb : .be ∈ part := by decide)
    (hp : .ports ∈ part := by decide) : s.Within { t with be := b, ports := p } part ok := (hw.put_be (x := b) hb).put_ports (x := p) hp

/-- Crossing a link below full width takes a free time from 8 to 16 ticks, and counts in the frame that forms; every other hop takes
the ticks that the grid says. -/
theorem State.crossLink_shape (s : State) (via : Option Via) (k : Nat) : ∃ c l f,
    s.crossLink via k = (c, { s with lms := l, free := f }) ∧
    ((∀ b, via = some (.link b) → maskWidth (s.fld (aLM_STATUS b) fLM_STATUS_MASK) = 4) → c = k ∧ l = s.lms ∧ f = s.free) ∧
    (∀ b, via = some (.link b) → maskWidth (s.fld (aLM_STATUS b) fLM_STATUS_MASK) ≠ 4 → 8 ≤ c ∧ c ≤ 16) := by
  fun_cases State.crossLink s via k
  case case1 b hw =>
    refine ⟨k, s.lms, s.free, rfl, fun _ => ⟨rfl, rfl, rfl⟩, fun b' hb hn => absurd hw ?_⟩
    cases hb
    exact hn
  case case2 b hw x c s1 r s2 hr =>
    obtain ⟨hr1, hr2⟩ := Prod.mk.inj hr
    refine ⟨8 + r.toNat % 9, _, _, by rw [← hr2]; rfl, fun h => absurd (h b rfl) hw, fun _ _ _ => ⟨?_, ?_⟩⟩ <;> omega
  case case3 hv =>
    exact ⟨k, s.lms, s.free, rfl, fun _ => ⟨rfl, rfl, rfl⟩, fun b hb => absurd hb (hv b)⟩

end Sys2Proof.Machine
end

section
/-! ### A winning header moves to the next place (R103 to R108, R135) -/

namespace Sys2Proof.Machine

set_option Elab.async false

variable {s t : State} {x y : BeItem} {d n inp out k ord rsv last : Nat} {via : Option Via} {xs : List BeItem}

/-! #### The winner is one of those that wait -/

theorem mem_of_mem_oldestPer {seen : List Nat} (h : x ∈ oldestPer seen xs) : x ∈ xs := by
  fun_induction oldestPer seen xs
  case case1 => exact h
  case case2 ih => exact List.mem_cons_of_mem _ (ih h)
  case case3 ih =>
    obtain rfl | h := List.mem_cons.mp h
    · exact List.mem_cons_self
    · exact List.mem_cons_of_mem _ (ih h)

theorem mem_of_beWinner (h : beWinner last xs = some x) : x ∈ xs := by
  have hfold : ∀ (l : List BeItem) (b : Option BeItem), l.foldl (fun best x => match best with
      | none => some x
      | some b => if beBefore last x b then some x else best) b = some x → x ∈ l ∨ b = some x := by
    intro l
    induction l with
    | nil => exact fun b hb => .inr hb
    | cons y r ih =>
      intro b hb
      obtain hr | hy := ih _ hb
      · exact .inl (List.mem_cons_of_mem _ hr)
      · cases b with
        | none =>
          cases hy
          exact .inl List.mem_cons_self
        | some z =>
          dsimp only at hy
          split at hy
          · cases hy
            exact .inl List.mem_cons_self
          · exact .inr hy
  obtain hmem | hnone := hfold _ _ h
  · exact mem_of_mem_oldestPer hmem
  · cases hnone

theorem State.mem_of_pickHop (h : s.pickHop last out xs = some (x, ord, rsv)) : x ∈ xs := by
  have hcan : ∀ c : Option BeItem, c.bind (fun x => (s.takePlaces x out).map fun q => (x, q.1, q.2)) = some (x, ord, rsv) →
      c = some x := by
    intro c hc
    obtain ⟨z, hz, hq⟩ := Option.bind_eq_some_iff.mp hc
    obtain ⟨q, -, hq⟩ := Option.map_eq_some_iff.mp hq
    cases hq
    exact hz
  rw [State.pickHop, Option.orElse_eq_or, Option.or_eq_some_iff] at h
  obtain hfirst | ⟨-, hspill⟩ := h
  · exact mem_of_beWinner (hcan _ hfirst)
  · exact List.mem_of_mem_filter (mem_of_beWinner (hcan _ hspill))

end Sys2Proof.Machine
end

section
/-! ### A header goes through an output (R54, R72, R103 to R108, R133, R135) -/

namespace Sys2Proof.Machine

set_option Elab.async false

variable {s t : State} {x y : BeItem} {d n inp out k ord rsv b : Nat} {via : Option Via} {xs : List BeItem} {i : NiId}

/-! #### Where an output leads -/

/-- Every hop takes a tick or more and leads to another router, stage or NI, or to the NI's ejection input. -/
theorem downstream_apart : ∀ d : Fin 8, ∀ n : Fin 48, ∀ out : Fin 6, niExists d.val n.val = true →
    1 ≤ (downstream d.val n.val out.val).2.2.2.2 ∧ (downstream d.val n.val out.val).2.2.1 < 8 ∧
      (niKey (downstream d.val n.val out.val).1 (downstream d.val n.val out.val).2.1 ≠ niKey d.val n.val ∨
        (downstream d.val n.val out.val).2.2.1 = 6) := by decide +kernel

/-- The places ahead are counted apart from those of a router's own input. -/
theorem downstream_key (hi : niExists i.die i.ni = true) {o : Fin 6} {vc j : Nat} (hj : j < 6)
    (hd : downstream i.die i.ni o.val = (d, n, inp, via, k)) : 1 ≤ k ∧ inKey d n inp vc ≠ inKey i.die i.ni j vc := by
  obtain ⟨hdie, hni⟩ := niExists_lt hi
  obtain ⟨hk, hlt, hapart⟩ := downstream_apart ⟨i.die, hdie⟩ ⟨i.ni, hni⟩ o hi
  simp only [hd] at hk hlt hapart
  refine ⟨hk, fun h => ?_⟩
  simp only [inKey] at h
  omega

/-! #### The first flit leaves -/

/-- The packet as it stands at the next place before its first flit is on the way. -/
def BeItem.atNext (x : BeItem) (out d n inp rsv : Nat) (via : Option Via) : BeItem :=
  { pkt := { x.pkt with hdr := if out < 4 ∧ x.d < 7 then hShift x.pkt.hdr else x.pkt.hdr }, d := d, n := n, inp := inp, rsv := rsv,
    comes := [], gone := 0, out := none, via := via, port := x.port, raw := x.raw, aged := false, own := x.own }

theorem BeItem.atNext_vc (x : BeItem) (out d n inp rsv : Nat) (via : Option Via) : (x.atNext out d n inp rsv via).vc = x.vc := by
  rw [BeItem.vc, BeItem.vc, BeItem.atNext]
  split
  · exact hVc_hShift _
  · rfl

/-- A packet of the router whose flits are still coming, as `moveFlit` looks for it. -/
def BeItem.coming (d n inp vc : Nat) (y : BeItem) : Bool :=
  y.d == d && y.n == n && y.inp == inp && y.vc == vc && decide (y.comes.length < y.len)

theorem State.startHop_eq (hd : downstream x.d x.n out = (d, n, inp, via, k)) : ∃ edge, s.startHop x out ord rsv =
    ((s.charge d n inp x.vc ord rsv edge).addItem (x.atNext out d n inp rsv via)).moveFlit x out :=
  ⟨_, by rw [State.startHop, hd]; rfl⟩

/-- The packets once the first flit of x has left: x holds its output until its last flit has left (R103). -/
def leftFirst (x : BeItem) (out : Nat) (l : List BeItem) : List BeItem :=
  if x.len = 1 then l.erase x else l.replace x { x with gone := 1, out := some out }

theorem leftFirst_append (hx : x ∈ xs) (l : List BeItem) : leftFirst x out (xs ++ l) = leftFirst x out xs ++ l := by
  rw [leftFirst, List.erase_append_left _ hx, List.replace_append_left hx, leftFirst]
  split <;> rfl

theorem State.moveFlit_found {u v : State} {c : Nat} (hd : downstream x.d x.n out = (d, n, inp, via, k)) (hg : x.gone = 0)
    (hfree : s.freePlaces x 0 1 = u) (hcross : (u.useOut x.d x.n out).crossLink via k = (c, v))
    (hfind : v.be.items.find? (BeItem.coming d n inp x.vc) = some y) (hc : y.comes = []) :
    s.moveFlit x out = { v with be := { v.be with
      items := leftFirst x out (v.be.items.replace y { y with comes := [max (v.now + c) 1] }) } } := by
  have hlook : v.be.items.find? (fun y => y.d == d && y.n == n && y.inp == inp && y.vc == x.vc && decide (y.comes.length < y.len)) =
    some y := hfind
  rw [State.moveFlit, hd]
  dsimp only
  rw [hg, hfree, hcross]
  dsimp only
  rw [hlook]
  simp only [hc, List.getLastD_nil, Nat.zero_add, List.nil_append, eq_comm (a := 1), leftFirst]
  split <;> rfl

/-- The first flit of x is on its way to y, the last of the items: x holds its output until its last flit has left. -/
theorem State.moveFlit_first (hd : downstream x.d x.n out = (d, n, inp, via, k)) (hg : x.gone = 0) (hitems : s.be.items = xs ++ [y])
    (hx : x ∈ xs) (hxs : ∀ z ∈ xs, z.coming d n inp x.vc = false) (hy : y.coming d n inp x.vc = true) (hc : y.comes = []) :
    ∃ c b p l f, s.moveFlit x out = { s with be := b, ports := p, lms := l, free := f } ∧
      b.items = leftFirst x out xs ++ [{ y with comes := [max (s.now + c) 1] }] ∧
      b.lastOut = tput (fun _ => 0) s.be.lastOut (outKey x.d x.n out) (s.now + 1) ∧ b.lastIn = s.be.lastIn ∧
      usedBut (inKey x.d x.n x.inp x.vc) s.be.usedOrd b.usedOrd ∧ usedBut (inKey x.d x.n x.inp x.vc) s.be.usedRsv b.usedRsv ∧
      ((∀ b, via = some (.link b) → maskWidth (s.fld (aLM_STATUS b) fLM_STATUS_MASK) = 4) → c = k ∧ l = s.lms ∧ f = s.free) ∧
      (∀ b, via = some (.link b) → maskWidth (s.fld (aLM_STATUS b) fLM_STATUS_MASK) ≠ 4 → 8 ≤ c ∧ c ≤ 16) := by
  obtain ⟨b, p, hfree, hi, hlo, hli, huo, hur⟩ := s.freePlaces_shape x 0 1
  obtain ⟨c, l, f, hcross, hwide, hnarrow⟩ := (State.useOut { s with be := b, ports := p } x.d x.n out).crossLink_shape via k
  have hfind : (xs ++ [y]).find? (BeItem.coming d n inp x.vc) = some y := by
    rw [List.find?_append, List.find?_eq_none.mpr (by simpa using hxs)]
    simp [hy]
  have hnot : y ∉ xs := fun hm => by simp [hxs y hm] at hy
  have hput : (xs ++ [y]).replace y { y with comes := [max (s.now + c) 1] } = xs ++ [{ y with comes := [max (s.now + c) 1] }] := by
    rw [List.replace_append_right hnot, List.replace_cons_self]
  have hmove := State.moveFlit_found hd hg hfree hcross (y := y) (by rw [← hfind, ← hitems, ← hi]; rfl) hc
  refine ⟨c, _, p, l, f, hmove, ?_, congrArg (tput _ · _ _) hlo, hli, huo, hur, hwide, hnarrow⟩
  calc leftFirst x out (b.items.replace y { y with comes := [max (s.now + c) 1] })
    _ = leftFirst x out (xs ++ [{ y with comes := [max (s.now + c) 1] }]) := by rw [hi, hitems, hput]
    _ = _ := leftFirst_append hx _

/-- The header of x leaves: its packet is charged for its places ahead, and stands there with its first flit on the way. -/
theorem State.startHop_shape (hs : s.Inv) (hd : downstream x.d x.n out = (d, n, inp, via, k)) (hg : x.gone = 0)
    (hx : x ∈ s.be.items) (hall : ∀ z ∈ s.be.items, z.coming d n inp x.vc = false)
    (hkey : inKey d n inp x.vc ≠ inKey x.d x.n x.inp x.vc) :
    ∃ c b p l f, s.startHop x out ord rsv = { s with be := b, ports := p, lms := l, free := f } ∧
      b.items = leftFirst x out s.be.items ++ [{ x.atNext out d n inp rsv via with comes := [max (s.now + c) 1] }] ∧
      b.lastOut = tput (fun _ => 0) s.be.lastOut (outKey x.d x.n out) (s.now + 1) ∧ b.lastIn = s.be.lastIn ∧
      tget (fun _ => 0) b.usedOrd (inKey d n inp x.vc) = tget (fun _ => 0) s.be.usedOrd (inKey d n inp x.vc) + ord ∧
      tget (fun _ => 0) b.usedRsv (inKey d n inp x.vc) = tget (fun _ => 0) s.be.usedRsv (inKey d n inp x.vc) + rsv ∧
      ((∀ b, via = some (.link b) → maskWidth (s.fld (aLM_STATUS b) fLM_STATUS_MASK) = 4) → c = k ∧ l = s.lms ∧ f = s.free) ∧
      (∀ b, via = some (.link b) → maskWidth (s.fld (aLM_STATUS b) fLM_STATUS_MASK) ≠ 4 → 8 ≤ c ∧ c ≤ 16) := by
  obtain ⟨edge, hstart⟩ := State.startHop_eq (s := s) (ord := ord) (rsv := rsv) hd
  have hwf := (s.canon_iff.mpr hs).charge (d := d) (n := n) (inp := inp) (vc := x.vc) (ord := ord) (rsv := rsv) (edge := edge)
  have hy : (x.atNext out d n inp rsv via).coming d n inp x.vc = true := by
    rw [BeItem.coming, BeItem.atNext_vc]
    simp [BeItem.atNext, BeItem.len]
  obtain ⟨c, b, p, l, f, hmove, hi, hlo, hli, huo, hur, hwide, hnarrow⟩ :=
    State.moveFlit_first (s := (s.charge d n inp x.vc ord rsv edge).addItem (x.atNext out d n inp rsv via)) hd hg rfl hx hall hy rfl
  refine ⟨c, b, p, l, f, hstart.trans hmove, hi, hlo, hli, ?_, ?_, hwide, hnarrow⟩
  · exact (huo.other hwf.usedOrd hkey).trans (tget_tput_same (s.canon_iff.mpr hs).usedOrd _ _)
  · exact (hur.other hwf.usedRsv hkey).trans (tget_tput_same (s.canon_iff.mpr hs).usedRsv _ _)

/-! #### The instruction -/

section Hop
variable {o : Fin 6} {vc : Fin 2} (hs : s.Inv) (hl : s.niLive i.die i.ni = true)
  (hfree : s.holder i.die i.ni o.val vc.val = none) (hside : o.val ≠ 5 ∨ i.die = 7 ∨ (i.die = 6 ∧ i.ni = 0))
  (hrsp : vc.val ≠ 0 ∨ (s.holder i.die i.ni o.val 1).any (fun y => s.canMove y o.val) = false)
  (hpick : s.pickHop (tget (fun _ => 5) s.be.lastIn (outKey i.die i.ni o.val * 2 + vc.val)) o.val
    (s.be.items.filter (fun y => y.d == i.die && y.n == i.ni && y.inp < 6 && y.vc == vc.val && y.wants == o.val && y.waits s.now)) =
      some (x, ord, rsv))
  (hout : s.outFree x o.val = true) (hd : downstream i.die i.ni o.val = (d, n, inp, via, k)) (htakes : s.linkTakes via = true)

include hpick in
/-- The winner waits at the router for the output. -/
theorem State.winner_waits : x ∈ s.be.items ∧ x.d = i.die ∧ x.n = i.ni ∧ x.inp < 6 ∧ x.vc = vc.val := by
  have h := List.mem_filter.mp (State.mem_of_pickHop hpick)
  simp only [Bool.and_eq_true, beq_iff_eq, decide_eq_true_eq] at h
  obtain ⟨hmem, ⟨⟨⟨⟨hdie, hni⟩, hinp⟩, hvc⟩, -⟩, -⟩ := h
  exact ⟨hmem, hdie, hni, hinp, hvc⟩

include hl hfree hside hrsp hpick hout hd htakes in
theorem exec_beHop_starts : exec (.beHop i o vc) s = .next { s.startHop x o.val ord rsv with
    be := { (s.startHop x o.val ord rsv).be with
      lastIn := tput (fun _ => 5) (s.startHop x o.val ord rsv).be.lastIn (outKey i.die i.ni o.val * 2 + vc.val) x.inp } } := by
  have hport : (if o.val = 5 ∧ i.die = 6 then sidePortOf i.ni else none) = none := by
    obtain h | h | ⟨-, h⟩ := hside
    · exact if_neg fun hc => h hc.1
    · exact if_neg fun hc => absurd (h.symm.trans hc.2) (by decide)
    · rw [h, show sidePortOf 0 = none by rfl, ite_self]
  have hgrid : ¬ (o.val = 5 ∧ i.die ≠ 7 ∧ ¬ (i.die = 6 ∧ i.ni = 0)) := by tauto
  have hlow : (vc.val = 0 && (s.holder i.die i.ni o.val 1).any (fun y => s.canMove y o.val)) = false := by
    obtain h | h := hrsp <;> simp [h]
  have hlink : s.linkTakes (downstream i.die i.ni o.val).2.2.2.1 = true := by rw [hd]; exact htakes
  change execBeHop i o vc s = _
  unfold execBeHop
  simp only [hl, hfree, hport, hgrid, hlow, hpick, hout, hlink, Bool.not_true, Option.isSome_none, Bool.or_self, Bool.false_eq_true,
    if_false, Bool.and_self, if_true]

include hs hl hfree hside hrsp hpick hout hd htakes

/-- What the two kinds of hop have in common, from the shape of the state that `startHop` gives. -/
theorem beHop_shape (hg : x.gone = 0) (hall : s.be.items.all (fun y =>
      !(y.d == d && y.n == n && y.inp == inp && y.vc == vc.val) || decide (y.len ≤ y.comes.length)) = true) :
    ∃ c b p l f, exec (.beHop i o vc) s = .next { s with be := b, ports := p, lms := l, free := f } ∧
      b.items = leftFirst x o.val s.be.items ++ [{ x.atNext o.val d n inp rsv via with comes := [s.now + c] }] ∧
      tget (fun _ => 0) b.lastOut (outKey i.die i.ni o.val) = s.now + 1 ∧
      tget (fun _ => 5) b.lastIn (outKey i.die i.ni o.val * 2 + vc.val) = x.inp ∧
      tget (fun _ => 0) b.usedOrd (inKey d n inp vc.val) = tget (fun _ => 0) s.be.usedOrd (inKey d n inp vc.val) + ord ∧
      tget (fun _ => 0) b.usedRsv (inKey d n inp vc.val) = tget (fun _ => 0) s.be.usedRsv (inKey d n inp vc.val) + rsv ∧
      ((∀ b, via = some (.link b) → maskWidth (s.fld (aLM_STATUS b) fLM_STATUS_MASK) = 4) → c = k ∧ l = s.lms ∧ f = s.free) ∧
      (∀ b, via = some (.link b) → maskWidth (s.fld (aLM_STATUS b) fLM_STATUS_MASK) ≠ 4 → 8 ≤ c ∧ c ≤ 16) := by
  obtain ⟨hmem, hdie, hni, hinp, hvc⟩ := State.winner_waits hpick
  obtain ⟨hk, hkey⟩ := downstream_key (State.niLive_exists hl) (vc := vc.val) hinp hd
  have hnone : ∀ z ∈ s.be.items, z.coming d n inp x.vc = false := by
    intro z hz
    have hz := List.all_eq_true.mp hall z hz
    rw [hvc, BeItem.coming]
    simpa [imp_iff_not_or, or_assoc] using hz
  have hc := s.canon_iff.mpr hs
  obtain ⟨c, b, p, l, f, hstart, hi, hlo, hli, huo, hur, hwide, hnarrow⟩ :=
    State.startHop_shape (ord := ord) (rsv := rsv) hs (hdie ▸ hni ▸ hd) hg hmem hnone (by rw [hvc, hdie, hni]; exact hkey)
  have hexec := exec_beHop_starts hl hfree hside hrsp hpick hout hd htakes
  have hpos : 1 ≤ c := by
    by_cases h : ∀ b, via = some (.link b) → maskWidth (s.fld (aLM_STATUS b) fLM_STATUS_MASK) = 4
    · rw [(hwide h).1]
      exact hk
    · push Not at h
      obtain ⟨e, hv, hw⟩ := h
      exact le_trans (by decide) (hnarrow e hv hw).1
  rw [hdie, hni] at hlo
  rw [hvc] at huo hur
  rw [max_eq_left (by omega)] at hi
  rw [hstart] at hexec
  refine ⟨c, _, p, l, f, hexec, hi, ?_, ?_, huo, hur, hwide, hnarrow⟩
  · exact (congrArg (tget _ · _) hlo).trans (tget_tput_same hc.lastOut _ _)
  · exact tget_tput_same (hli ▸ hc.lastIn) _ _

theorem beHop_moves (hg : x.gone = 0) (hall : s.be.items.all (fun y =>
      !(y.d == d && y.n == n && y.inp == inp && y.vc == vc.val) || decide (y.len ≤ y.comes.length)) = true)
    (hw : ∀ b, via = some (.link b) → maskWidth (s.fld (aLM_STATUS b) fLM_STATUS_MASK) = 4) :
    Leads (.beHop i o vc) s (fun t => t.be.items = (if x.len = 1 then s.be.items.erase x else s.be.items.replace x { x with gone := 1, out := some o.val }) ++ [{ pkt := { x.pkt with hdr := if o.val < 4 ∧ i.die < 7 then hShift x.pkt.hdr else x.pkt.hdr }, d := d, n := n, inp := inp, rsv := rsv, comes := [s.now + k], gone := 0, out := none, via := via, port := x.port, raw := x.raw, aged := false, own := x.own }] ∧
      tget (fun _ => 0) t.be.usedOrd (inKey d n inp vc.val) = tget (fun _ => 0) s.be.usedOrd (inKey d n inp vc.val) + ord ∧
      tget (fun _ => 0) t.be.usedRsv (inKey d n inp vc.val) = tget (fun _ => 0) s.be.usedRsv (inKey d n inp vc.val) + rsv ∧
      tget (fun _ => 5) t.be.lastIn (outKey i.die i.ni o.val * 2 + vc.val) = x.inp ∧ t.outUsed i.die i.ni o.val ∧
      s.keepsElse t [.be, .ports] (fun _ => false)) := by
  obtain ⟨c, b, p, l, f, hexec, hi, hlo, hli, huo, hur, hwide, -⟩ := beHop_shape hs hl hfree hside hrsp hpick hout hd htakes hg hall
  obtain ⟨rfl, rfl, rfl⟩ := hwide hw
  obtain ⟨-, hdie, -⟩ := State.winner_waits hpick
  refine ⟨_, hexec, ?_, huo, hur, hli, beq_iff_eq.mpr hlo, (State.Within.refl s _ _).put_routers.keepsElse hs.regs_wf⟩
  rw [← hdie]
  exact hi

theorem beHop_crossesNarrow {e : Nat} (hg : x.gone = 0) (hall : s.be.items.all (fun y =>
      !(y.d == d && y.n == n && y.inp == inp && y.vc == vc.val) || decide (y.len ≤ y.comes.length)) = true)
    (hv : via = some (.link e)) (hw : maskWidth (s.fld (aLM_STATUS e) fLM_STATUS_MASK) ≠ 4) :
    Leads (.beHop i o vc) s (fun t => (t.be.items.getLast?).any (fun y => y.d == d && y.n == n && y.inp == inp && y.comes.length == 1 && y.comes.all (fun c => decide (s.now + 8 ≤ c) && decide (c ≤ s.now + 16))) ∧
      t.outUsed i.die i.ni o.val ∧ s.keepsElse t [.be, .ports, .lms, .free] (fun _ => false)) := by
  obtain ⟨c, b, p, l, f, hexec, hi, hlo, -, -, -, -, hnarrow⟩ := beHop_shape hs hl hfree hside hrsp hpick hout hd htakes hg hall
  obtain ⟨hge, hle⟩ := hnarrow e hv hw
  refine ⟨_, hexec, ?_, beq_iff_eq.mpr hlo, ((State.Within.refl s _ _).put_routers (b := b) (p := p)).put_lms (x := l) |>.put_free.keepsElse hs.regs_wf⟩
  rw [hi, List.getLast?_concat]
  simp [BeItem.atNext, hge, hle]

end Hop

end Sys2Proof.Machine
end

section
/-! ### A packet at a torus port, and a packet that is answered (R91, R94, R104, R162, R171) -/

namespace Sys2Proof.Machine

set_option Elab.async false

variable {s : State} {x : BeItem} {d n p own status : Nat} {q g : BitVec 256} {bs : List Byte} {i : NiId} {vc : Fin 2}

/-! #### An answer -/

/-- A response that has a route enters the grid. -/
theorem State.respond_routed (hr : s.routeResponse d n (s.responseHdr d n q status) = .to g) : s.respond d n q own status bs =
    s.inject d n { hdr := g, data := if hType q = 0 ∧ status = 0 then lineFlits (hStart q) bs else [] } own := by
  simp only [State.respond, hr]

/-- A packet has left, and an answer to it with an error enters the grid. -/
theorem State.freeItem_respond_shape (x : BeItem)
    (hr : s.routeResponse d n (s.responseHdr d n x.pkt.hdr 1) = .to g) :
    ∃ b p, (s.freeItem x).respond d n x.pkt.hdr x.own 1 [] = { s with be := b, ports := p } ∧
      b.items = s.be.items.erase x ++ [BeItem.start { hdr := g, data := [] } d n 4 s.now x.own] := by
  obtain ⟨b, p, hfree, hi⟩ := s.freeItem_shape x
  refine ⟨{ b with items := b.items ++ [BeItem.start { hdr := g, data := [] } d n 4 s.now x.own] }, p, ?_, by rw [hi]⟩
  have hrsp := State.respond_routed (s := { s with be := b, ports := p }) (own := x.own) (bs := []) hr
  rw [hfree, hrsp, if_neg fun h => absurd h.2 (by decide)]
  rfl

/-! #### A torus port -/

section Port
variable (hs : s.Inv) (hl : s.niLive i.die i.ni = true) (hd : i.die = 6) (hp : sidePortOf i.ni = some p)
  (hfree : s.holder 6 i.ni 5 vc.val = none)
  (hwin : beWinner (tget (fun _ => 5) s.be.lastIn (outKey 6 i.ni 5 * 2 + vc.val))
    (s.be.items.filter (fun y => y.d == 6 && y.n == i.ni && y.inp < 6 && y.vc == vc.val && y.wants == 5 && y.waits s.now)) = some x)
include hs hl hd hp hfree hwin

theorem beHop_startsPort (hopen : s.portRefusesBe p = false) (hcar : s.portCarriesBe p = true) (hwh : x.whole s.now = true)
    (hroom : s.portRoom p x = true) (hother : s.holder 6 i.ni 5 (1 - vc.val) = none) :
    Leads (.beHop i 5 vc) s (fun t => t.be.items = s.be.items.replace x { x with out := some 5 } ∧
      (t.port p).sentReq = (s.port p).sentReq + (if vc.val = 0 then x.len else 0) ∧
      (t.port p).sentRsp = (s.port p).sentRsp + (if vc.val = 0 then 0 else x.len) ∧
      s.keepsElse t [.be, .ports] (fun _ => false)) := by
  have hvc : x.vc = vc.val := by
    have h := List.mem_filter.mp (mem_of_beWinner hwin)
    simp only [Bool.and_eq_true, beq_iff_eq] at h
    exact h.2.1.1.2
  have hexec : exec (.beHop i 5 vc) s = .next { s.startPort p x with be := { (s.startPort p x).be with
      lastIn := tput (fun _ => 5) (s.startPort p x).be.lastIn (outKey i.die i.ni 5 * 2 + vc.val) x.inp } } := by
    change execBeHop i 5 vc s = _
    unfold execBeHop
    rw [hd] at hl ⊢
    simp [hl, hfree, hp, hwin, hopen, hcar, hwh, hroom, hother]
  have hport := tget_tput_same (s.canon_iff.mpr hs).ports p { s.port p with
    sentReq := if x.vc = 0 then (s.port p).sentReq + x.len else (s.port p).sentReq
    sentRsp := if x.vc = 0 then (s.port p).sentRsp else (s.port p).sentRsp + x.len }
  rw [← hvc] at hexec ⊢
  refine ⟨_, hexec, rfl, ?_, ?_, (State.Within.refl s _ _).put_routers.keepsElse hs.regs_wf⟩
  · exact (congrArg Port.sentReq hport).trans (by dsimp only; split <;> rfl)
  · exact (congrArg Port.sentRsp hport).trans (by dsimp only; split <;> rfl)

theorem beHop_answersAtPort (hshut : s.portRefusesBe p = true)
    (hr : vc.val ≠ 0 ∨ hType x.pkt.hdr = 4 ∨ s.routeResponse 6 i.ni (s.responseHdr 6 i.ni x.pkt.hdr 1) = .to g) :
    Leads (.beHop i 5 vc) s (fun t => t.be.items = s.be.items.erase x ++ (if vc.val = 0 ∧
      hType x.pkt.hdr ≠ 4 then [BeItem.start { hdr := g, data := [] } 6 i.ni 4 s.now x.own] else []) ∧
      s.keepsElse t [.be, .ports] (fun _ => false)) := by
  have hexec : exec (.beHop i 5 vc) s = .next (if vc.val = 0 ∧ hType x.pkt.hdr ≠ 4 then
      (s.freeItem x).respond 6 i.ni x.pkt.hdr x.own 1 [] else s.freeItem x) := by
    change execBeHop i 5 vc s = _
    unfold execBeHop
    rw [hd] at hl ⊢
    simp [hl, hfree, hp, hwin, hshut]
  by_cases hans : vc.val = 0 ∧ hType x.pkt.hdr ≠ 4
  · obtain ⟨hvc, htype⟩ := hans
    obtain ⟨b, p, hshape, hi⟩ := State.freeItem_respond_shape (g := g) x ((hr.resolve_left (not_not_intro hvc)).resolve_left htype)
    refine ⟨_, by rw [hexec, if_pos ⟨hvc, htype⟩, hshape], ?_, (State.Within.refl s _ _).put_routers.keepsElse hs.regs_wf⟩
    rw [if_pos ⟨hvc, htype⟩]
    exact hi
  · obtain ⟨b, p, hshape, hi⟩ := s.freeItem_shape x
    refine ⟨_, by rw [hexec, if_neg hans, hshape], ?_, (State.Within.refl s _ _).put_routers.keepsElse hs.regs_wf⟩
    rw [if_neg hans, List.append_nil]
    exact hi

end Port

end Sys2Proof.Machine
end

section
/-! ### Credits, age and stalls (R103, R108, R121, R133) -/

namespace Sys2Proof.Machine

set_option Elab.async false

variable {s : State} {c : CreditDue} {d n : Nat} {i : NiId} {p : Fin 7} {b : Bool} {r : List Bool}

/-! #### Credits -/

/-- A credit that becomes usable changes counts of places, and no packet. -/
theorem State.useCredit_shape (s : State) (c : CreditDue) : ∃ b, s.useCredit c = { s with be := b } ∧ b.due = s.be.due ∧
    b.items = s.be.items := ⟨_, rfl, rfl, rfl⟩

theorem State.foldl_useCredit_shape (s : State) (l : List CreditDue) : ∃ b, l.foldl State.useCredit s = { s with be := b } ∧
    b.due = s.be.due ∧ b.items = s.be.items := by
  induction l generalizing s with
  | nil => exact ⟨s.be, rfl, rfl, rfl⟩
  | cons c r ih =>
    obtain ⟨b, hb, hdue, hitems⟩ := ih (s.useCredit c)
    exact ⟨b, hb, hdue, hitems⟩

theorem exec_creditReturn (hi : niExists i.die i.ni = true) : exec (.creditReturn i) s =
    .next ((s.be.due.filter (fun c => c.at i.die i.ni && decide (c.readyAt ≤ s.now))).foldl State.useCredit
      { s with be := { s.be with due := s.be.due.filter (fun c => !(c.at i.die i.ni && decide (c.readyAt ≤ s.now))) } }) := by
  change execCreditReturn i s = _
  simp only [execCreditReturn, hi, Bool.true_and]

theorem creditReturn_filtersDue (hs : s.Inv) (hi : niExists i.die i.ni = true) :
    Leads (.creditReturn i) s (fun t => t.be.due = s.be.due.filter (fun c => !(c.at i.die i.ni && decide (c.readyAt ≤ s.now))) ∧
      t.be.items = s.be.items ∧ s.keepsElse t [.be] (fun _ => false)) := by
  obtain ⟨b, hb, hdue, hitems⟩ := State.foldl_useCredit_shape _ _
  exact ⟨_, (exec_creditReturn hi).trans (congrArg _ hb), hdue, hitems, (State.Within.refl s _ _).put_be.keepsElse hs.regs_wf⟩

/-- Where the order of the kinds is not kept, a credit restores the kinds that it names. -/
theorem State.useCredit_own (h : tget (fun _ => []) s.be.charges c.key = []) : s.useCredit c = { s with be := { s.be with
    usedOrd := tput (fun _ => 0) s.be.usedOrd c.key (tget (fun _ => 0) s.be.usedOrd c.key - c.ordinary)
    usedRsv := tput (fun _ => 0) s.be.usedRsv c.key (tget (fun _ => 0) s.be.usedRsv c.key - c.reserved)
    charges := tput (fun _ => []) s.be.charges c.key [] } } := by
  simp only [State.useCredit, h, List.isEmpty_nil, if_true, List.drop_nil]

/-- A credit of one place restores the kind that was charged first (R133). -/
theorem State.useCredit_charged (hone : c.ordinary + c.reserved = 1) (h : tget (fun _ => []) s.be.charges c.key = b :: r) :
    s.useCredit c = { s with be := { s.be with
      usedOrd := tput (fun _ => 0) s.be.usedOrd c.key (tget (fun _ => 0) s.be.usedOrd c.key - (if b then 0 else 1))
      usedRsv := tput (fun _ => 0) s.be.usedRsv c.key (tget (fun _ => 0) s.be.usedRsv c.key - (if b then 1 else 0))
      charges := tput (fun _ => []) s.be.charges c.key r } } := by
  simp only [State.useCredit, h, hone]
  cases b <;> rfl

/-- One credit is due, and it is usable. -/
theorem exec_creditReturn_one (hi : niExists i.die i.ni = true) (hdue : s.be.due = [c]) (hat : c.at i.die i.ni = true)
    (hready : c.readyAt ≤ s.now) : exec (.creditReturn i) s = .next (({ s with be := { s.be with due := [] } } : State).useCredit c) := by
  rw [exec_creditReturn hi, hdue]
  simp [hat, hready]

section One
variable (hs : s.Inv) (hi : niExists i.die i.ni = true) (hdue : s.be.due = [c]) (hat : c.at i.die i.ni = true)
  (hready : c.readyAt ≤ s.now)
include hs hi hdue hat hready

theorem creditReturn_ownKind (hkinds : tget (fun _ => []) s.be.charges c.key = []) :
    Leads (.creditReturn i) s (fun t => tget (fun _ => 0) t.be.usedOrd c.key = tget (fun _ => 0) s.be.usedOrd c.key - c.ordinary ∧
      tget (fun _ => 0) t.be.usedRsv c.key = tget (fun _ => 0) s.be.usedRsv c.key - c.reserved ∧ t.be.due = [] ∧
      t.be.items = s.be.items) := by
  have hc := s.canon_iff.mpr hs
  exact ⟨_, (exec_creditReturn_one hi hdue hat hready).trans (congrArg _ (State.useCredit_own hkinds)),
    tget_tput_same hc.usedOrd _ _, tget_tput_same hc.usedRsv _ _, rfl, rfl⟩

theorem creditReturn_chargedKind (hone : c.ordinary + c.reserved = 1) (hkinds : tget (fun _ => []) s.be.charges c.key = b :: r) :
    Leads (.creditReturn i) s (fun t => tget (fun _ => 0) t.be.usedOrd c.key = tget (fun _ => 0) s.be.usedOrd c.key - (if b then 0 else 1) ∧
      tget (fun _ => 0) t.be.usedRsv c.key = tget (fun _ => 0) s.be.usedRsv c.key - (if b then 1 else 0) ∧
      tget (fun _ => []) t.be.charges c.key = r ∧ t.be.items = s.be.items) := by
  have hc := s.canon_iff.mpr hs
  exact ⟨_, (exec_creditReturn_one hi hdue hat hready).trans (congrArg _ (State.useCredit_charged hone hkinds)),
    tget_tput_same hc.usedOrd _ _, tget_tput_same hc.usedRsv _ _, tget_tput_same hc.charges _ _, rfl⟩

end One

/-! #### Age and stalls -/

theorem headerAged_marks (hl : s.niLive i.die i.ni = true) (ha : s.fld (aBE_CFG i.die i.ni) fBE_CFG_AGE ≠ 0) :
    Leads (.headerAged i p) s (fun t => t.be.items = s.be.items.map (fun x => if x.d = i.die ∧ x.n = i.ni ∧ x.inp = p.val ∧
      x.waits s.now ∧ x.landAt + s.fld (aBE_CFG i.die i.ni) fBE_CFG_AGE ≤ s.now then { x with aged := true } else x) ∧
      t = { s with be := { s.be with items := t.be.items } }) := by
  have hexec : exec (.headerAged i p) s = .next { s with be := { s.be with items := s.be.items.map (fun x => if x.d = i.die ∧
      x.n = i.ni ∧ x.inp = p.val ∧ x.waits s.now ∧ x.landAt + s.fld (aBE_CFG i.die i.ni) fBE_CFG_AGE ≤ s.now
      then { x with aged := true } else x) } } := by
    change execHeaderAged i p s = _
    simp [execHeaderAged, hl, ha, and_assoc]
  exact ⟨_, hexec, rfl, rfl⟩

theorem exec_headerAged_off (ha : s.fld (aBE_CFG i.die i.ni) fBE_CFG_AGE = 0) : exec (.headerAged i p) s = .next s := by
  change execHeaderAged i p s = _
  simp [execHeaderAged, ha]

theorem stallDetect_flags (hs : s.Inv) (hl : s.niLive i.die i.ni = true) (hlim : s.fld (aBE_TMO i.die i.ni) fBE_TMO_STALL ≠ 0)
    (hany : s.be.items.any (fun x => x.d == i.die && x.n == i.ni && x.waits s.now &&
      decide (x.landAt + 4096 * s.fld (aBE_TMO i.die i.ni) fBE_TMO_STALL ≤ s.now)) = true) :
    Leads (.stallDetect i) s (fun t => t.bit (aBE_FLAG i.die i.ni) fBE_FLAG_STALL ∧
      s.keepsElse t [.ev, .hw] (among [aBE_FLAG i.die i.ni])) := by
  have hi := State.niLive_exists hl
  have hexec : exec (.stallDetect i) s = .next (s.beFlag i.die i.ni fBE_FLAG_STALL) := by
    change execStallDetect i s = _
    simp only [execStallDetect, hl, hany, bne_iff_ne.mpr hlim, Bool.and_self, if_true]
  exact ⟨_, hexec, State.beFlag_bit hs.regs_wf hi rfl (by decide),
    ((State.Within.refl s _ _).beFlag hi (by simp [among])).keepsElse hs.regs_wf⟩

theorem exec_stallDetect_none (h : s.fld (aBE_TMO i.die i.ni) fBE_TMO_STALL = 0 ∨
    s.be.items.any (fun x => x.d == i.die && x.n == i.ni && x.waits s.now &&
      decide (x.landAt + 4096 * s.fld (aBE_TMO i.die i.ni) fBE_TMO_STALL ≤ s.now)) = false) :
    exec (.stallDetect i) s = .next s := by
  change execStallDetect i s = _
  rw [execStallDetect, if_neg]
  intro hc
  simp only [Bool.and_eq_true, bne_iff_ne, ne_eq] at hc
  obtain ⟨⟨-, hlim⟩, hany⟩ := hc
  obtain h | h := h
  · exact hlim h
  · exact absurd (hany.symm.trans h) (by decide)

end Sys2Proof.Machine
end

section
/-! ### A request at an NI's ejection input (R17, R75, R76, R90, R95, R123, R379) -/

namespace Sys2Proof.Machine

set_option Elab.async false

variable {s : State} {x : BeItem} {d n : Nat} {g : BitVec 256} {i : NiId}

/-- The NI's record once a request has been placed in `TREQ`. -/
theorem State.toTreq_ni (hw : Tab.wf (fun _ => Ni.empty) s.nis = true) (d n : Nat) (p : Packet) : (s.toTreq d n p).ni d n =
    ({ s.ni d n with served := (s.ni d n).served ++ if hType p.hdr = 4 then [] else [p.hdr] } : Ni).push 2 s.now (pktFlits p) := by
  by_cases ht : hType p.hdr = 4
  · rw [State.toTreq, if_pos ht, State.fifoPush_ni hw, if_pos ht, List.append_nil]
  · rw [State.toTreq, if_neg ht, State.fifoPush_ni (tput_wf hw _ _), State.setNi_ni hw, if_neg ht]
    rfl

@[simp] theorem State.toTreq_be (s : State) (d n : Nat) (p : Packet) : (s.toTreq d n p).be = s.be := by
  rw [State.toTreq, State.fifoPush_be]
  split <;> rfl

section Arrive
variable (hs : s.Inv) (hi : niExists i.die i.ni = true) (hr : s.inReset i.die = false) (hrun : s.runs = true)
  (he : s.ejected i.die i.ni 0 = some x)

include hi hr hrun he in
theorem exec_bePacketArrive_malformed (hf : hFormOk x.pkt.hdr = false ∨ hNdata x.pkt.hdr ≠ x.pkt.data.length) :
    exec (.bePacketArrive i) s = .next ((s.freeItem x).niErr i.die i.ni fNI_ERR_BAD_TYPE) := by
  change execBePacketArrive i s = _
  obtain h | h := hf <;> simp [execBePacketArrive, hi, hr, hrun, he, h]

include hs hi hr hrun he in
theorem bePacketArrive_malformed (hf : hFormOk x.pkt.hdr = false ∨ hNdata x.pkt.hdr ≠ x.pkt.data.length) :
    Leads (.bePacketArrive i) s (fun t => t.nis = s.nis ∧
      t.be.items = s.be.items.erase x ∧ t.bit (aNI_ERR i.die i.ni) fNI_ERR_BAD_TYPE ∧ s.keepsElse t [.ev, .hw, .be,
      .ports] (among [aNI_ERR i.die i.ni])) := by
  obtain ⟨b, p, hfree, hitems⟩ := s.freeItem_shape x
  have hexec := exec_bePacketArrive_malformed hi hr hrun he hf
  rw [hfree] at hexec
  refine ⟨_, hexec, State.niErr_nis .., ?_,
    State.niErr_bit hs.regs_wf hi rfl (by decide), ((State.Within.refl s _ _).put_routers.niErr hi (by simp [among])).keepsElse hs.regs_wf⟩
  rw [State.niErr_be]
  exact hitems

variable (hf : hFormOk x.pkt.hdr = true) (hn : hNdata x.pkt.hdr = x.pkt.data.length)

/-! #### At an NI that accepts none -/

include hi hr hrun he hf hn in
theorem exec_bePacketArrive_refused (ha : s.niAccepts i.die i.ni = false) (hm : isCollectorMsg i.die x.pkt.hdr = false) :
    exec (.bePacketArrive i) s = .next (if hType x.pkt.hdr = 4 then s.freeItem x
      else (s.freeItem x).respond i.die i.ni x.pkt.hdr x.own 1 []) := by
  change execBePacketArrive i s = _
  simp [execBePacketArrive, hi, hr, hrun, he, hf, hn, ha, hm]

include hs hi hr hrun he hf hn in
theorem bePacketArrive_refuses (ha : s.niAccepts i.die i.ni = false) (hm : isCollectorMsg i.die x.pkt.hdr = false)
    (hroute : hType x.pkt.hdr = 4 ∨ s.routeResponse i.die i.ni (s.responseHdr i.die i.ni x.pkt.hdr 1) = .to g) :
    Leads (.bePacketArrive i) s (fun t => t.be.items = s.be.items.erase x ++ (if hType x.pkt.hdr = 4 then [] else [BeItem.start { hdr := g, data := [] } i.die i.ni 4 s.now x.own]) ∧
      t.nis = s.nis ∧ s.keepsElse t [.be, .ports] (fun _ => false)) := by
  have hexec := exec_bePacketArrive_refused hi hr hrun he hf hn ha hm
  by_cases ht : hType x.pkt.hdr = 4
  · obtain ⟨b, p, hshape, hitems⟩ := s.freeItem_shape x
    rw [if_pos ht, hshape] at hexec
    refine ⟨_, hexec, ?_, rfl, (State.Within.refl s _ _).put_routers.keepsElse hs.regs_wf⟩
    rw [if_pos ht, List.append_nil]
    exact hitems
  · obtain ⟨b, p, hshape, hitems⟩ := State.freeItem_respond_shape x (hroute.resolve_left ht)
    rw [if_neg ht, hshape] at hexec
    refine ⟨_, hexec, ?_, rfl, (State.Within.refl s _ _).put_routers.keepsElse hs.regs_wf⟩
    rw [if_neg ht]
    exact hitems

/-! #### At an NI of a logic die -/

section Logic
variable (hd : i.die < 6) (ha : s.niAccepts i.die i.ni = true)

include hi hr hrun he hf hn hd ha in
theorem exec_bePacketArrive_logic : exec (.bePacketArrive i) s = .next (if s.bit (aSP_STAT i.die i.ni) fSP_STAT_SPILLING then s
      else if s.treqRoom i.die i.ni x.pkt then (s.freeItem x).toTreq i.die i.ni x.pkt else s) := by
  change execBePacketArrive i s = _
  have h6 : i.die ≠ 6 := by omega
  have h7 : i.die ≠ 7 := by omega
  simp only [execBePacketArrive, hi, hr, hrun, he, hf, hn, ha, h6, h7, Bool.not_true, Bool.or_self, Bool.false_eq_true, bne_self_eq_false,
    if_false, false_and, Bool.false_and]
  split
  · rfl
  · split <;> rfl

include hs hi hr hrun he hf hn hd ha in
theorem bePacketArrive_entersTreq (hsp : s.bit (aSP_STAT i.die i.ni) fSP_STAT_SPILLING = false)
    (hroom : s.treqRoom i.die i.ni x.pkt = true) :
    Leads (.bePacketArrive i) s (fun t => (t.ni i.die i.ni).fifo2 = (s.ni i.die i.ni).fifo2 ++ pktFlits x.pkt ∧
      (t.ni i.die i.ni).served = (s.ni i.die i.ni).served ++ (if hType x.pkt.hdr = 4 then [] else [x.pkt.hdr]) ∧
      t.be.items = s.be.items.erase x ∧ s.keepsElse t [.ev, .hw, .be, .nis, .ports] (among [aFIFO_STAT i.die i.ni 2])) := by
  obtain ⟨b, p, hfree, hitems⟩ := s.freeItem_shape x
  have hexec := exec_bePacketArrive_logic hi hr hrun he hf hn hd ha
  rw [hsp, hroom, hfree, if_neg Bool.false_ne_true, if_pos rfl] at hexec
  have hni := State.toTreq_ni (s := { s with be := b, ports := p }) hs.nis_wf i.die i.ni x.pkt
  refine ⟨_, hexec, congrArg Ni.fifo2 hni, (congrArg Ni.served hni).trans rfl, ?_, ?_⟩
  · rw [State.toTreq_be]
    exact hitems
  · have hk := (State.Within.refl s [.ev, .hw, .be, .nis, .ports] (among [aFIFO_STAT i.die i.ni 2])).put_routers (b := b) (p := p)
    exact ((State.Within.ite hk hk.setNi).fifoPush hi (by simp [among])).keepsElse hs.regs_wf

include hi hr hrun he hf hn hd ha in
theorem exec_bePacketArrive_waits
    (h : s.bit (aSP_STAT i.die i.ni) fSP_STAT_SPILLING = true ∨ s.treqRoom i.die i.ni x.pkt = false) :
    exec (.bePacketArrive i) s = .next s := by
  rw [exec_bePacketArrive_logic hi hr hrun he hf hn hd ha]
  obtain h | h := h <;> simp [h]

end Logic

/-! #### At a hub NI -/

section Hub
variable (hd : i.die = 6) (ha : s.niAccepts 6 i.ni = true)

include hi hr hrun he hf hn hd ha in
theorem exec_bePacketArrive_hub (hraw : x.raw = false) :
    exec (.bePacketArrive i) s = .next ((s.freeItem x).toHubTarget i.ni x) := by
  change execBePacketArrive i s = _
  rw [hd] at hi hr he
  simp [execBePacketArrive, hd, hi, hr, hrun, he, hf, hn, ha, hraw]

include hi hr hrun he hf hn hd ha in
theorem exec_bePacketArrive_onward (hraw : x.raw = true) (hon : s.onward i.ni x.pkt.hdr = .to g) :
    exec (.bePacketArrive i) s = .next ((s.freeItem x).injectFrom 6 i.ni { x.pkt with hdr := g } x.own x.port) := by
  change execBePacketArrive i s = _
  rw [hd] at hi hr he
  simp [execBePacketArrive, hd, hi, hr, hrun, he, hf, hn, ha, hraw, hon]

include hs hi hr hrun he hf hn hd ha

theorem bePacketArrive_entersMemory (hraw : x.raw = false) (ht : hType x.pkt.hdr ≠ 4)
    (hmem : memClass (classOf (hAddr x.pkt.hdr % 2 ^ 48)) = true) :
    Leads (.bePacketArrive i) s (fun t => t.be.items = s.be.items.erase x ∧
      t.mq = s.mq ++ [s.memReqOf x.pkt (0x10 + i.ni) (.packet i.ni x.pkt.hdr x.own)] ∧ s.keepsElse t [.be, .ports,
      .mq] (fun _ => false)) := by
  obtain ⟨b, p, hfree, hitems⟩ := s.freeItem_shape x
  have htarget : (s.freeItem x).toHubTarget i.ni x = { s with
      be := b, ports := p, mq := s.mq ++ [s.memReqOf x.pkt (0x10 + i.ni) (.packet i.ni x.pkt.hdr x.own)] } := by
    rw [hfree, State.toHubTarget, if_neg ht, if_pos hmem]
    rfl
  exact ⟨_, by rw [exec_bePacketArrive_hub hi hr hrun he hf hn hd ha hraw, htarget], hitems, rfl,
    ((State.Within.refl s _ _).put_routers (b := b) (p := p)).put_mq.keepsElse hs.regs_wf⟩

theorem bePacketArrive_entersBridge (hraw : x.raw = false) (ht : hType x.pkt.hdr = 4)
    (hbr : classOf (hAddr x.pkt.hdr % 2 ^ 48) = .bridge) :
    Leads (.bePacketArrive i) s (fun t => t.be.items = s.be.items.erase x ∧
      t.ev.flight = s.ev.flight ++ [{ addr := BitVec.ofNat 64 (hAddr x.pkt.hdr), srcDev := BitVec.ofNat 16 (hget x.pkt.hdr 1 15 0), srcDie := hget x.pkt.hdr 1 24 22, pri := hPri x.pkt.hdr }] ∧
      s.keepsElse t [.be, .ports, .ev] (fun _ => false)) := by
  obtain ⟨b, p, hfree, hitems⟩ := s.freeItem_shape x
  have htarget : (s.freeItem x).toHubTarget i.ni x = { s with
      be := b, ports := p, ev := { s.ev with flight := s.ev.flight ++ [{ addr := BitVec.ofNat 64 (hAddr x.pkt.hdr), srcDev := BitVec.ofNat 16 (hget x.pkt.hdr 1 15 0), srcDie := hget x.pkt.hdr 1 24 22, pri := hPri x.pkt.hdr }] } } := by
    rw [hfree, State.toHubTarget, if_pos ht, if_pos hbr]
  exact ⟨_, by rw [exec_bePacketArrive_hub hi hr hrun he hf hn hd ha hraw, htarget], hitems, rfl,
    ((State.Within.refl s _ _).put_routers (b := b) (p := p)).put_ev.keepsElse hs.regs_wf⟩

theorem bePacketArrive_goesOnward (hraw : x.raw = true) (hon : s.onward i.ni x.pkt.hdr = .to g) :
    Leads (.bePacketArrive i) s (fun t => t.be.items = s.be.items.erase x ++ [{ BeItem.start { x.pkt with hdr := g } 6 i.ni 4 s.now x.own with port := x.port }] ∧
      s.keepsElse t [.be, .ports] (fun _ => false)) := by
  obtain ⟨b, p, hfree, hitems⟩ := s.freeItem_shape x
  refine ⟨_, by rw [exec_bePacketArrive_onward hi hr hrun he hf hn hd ha hraw hon, hfree]; rfl, ?_,
    (State.Within.refl s _ _).put_routers.keepsElse hs.regs_wf⟩
  exact congrArg (· ++ _) hitems

end Hub
end Arrive

end Sys2Proof.Machine
end

section
/-! ### A response reaches its requester, or is late, or never comes (R95, R112, R114, R115) -/

namespace Sys2Proof.Machine

set_option Elab.async false

variable {s t : State} {part : List Part} {ok : Nat → Bool} {x : BeItem} {d n k : Nat} {i : NiId} {q : Outst} {c : Origin}

/-! #### Release and delivery -/

/-- The responses on their way to hub clients are a part of their own. -/
theorem State.Within.put_rsps (hw : s.Within t part ok) {r : List MemRsp} (hp : .rsps ∈ part := by decide) :
    s.Within { t with rsps := r } part ok := by
  refine hw.put (fun p hn => ?_) rfl
  cases p
  case rsps => exact absurd hp hn
  case mem => exact fun _ => rfl
  all_goals rfl

/-- The NI's record without an outstanding request and the places that were kept for its response. -/
def Ni.without (y : Ni) (q : Outst) : Ni :=
  { y with outst := dropFirst (fun o => o.tag == q.tag) y.outst, rsv := y.rsv - q.places }

/-- A request found by a tag is the one that its own tag finds. -/
theorem find_own_tag {l : List Outst} (h : l.find? (fun o => o.tag == k) = some q) : l.find? (fun o => o.tag == q.tag) = some q := by
  have htag : q.tag = k := beq_iff_eq.mp (List.find?_some (p := fun o : Outst => o.tag == k) h)
  rw [htag]
  exact h

theorem State.release_found (h : (s.ni d n).outst.find? (fun o => o.tag == k) = some q) :
    s.release d n q.tag = s.setNi d n ((s.ni d n).without q) := by
  rw [State.release]
  rw [find_own_tag h]
  rfl

/-- The response that a hub client is handed for its request (R91). -/
def Outst.rspTo (q : Outst) (c : Origin) (p : Packet) : MemRsp :=
  { origin := c, status := hget p.hdr 6 19 17, addr := hAddr q.hdr, data := flitBytes (hStart q.hdr) (hCount q.hdr) p.data }

theorem State.deliverRsp_client (h : q.client = some c) (hc : c ≠ .outside) (p : Packet) : s.deliverRsp d n q p =
    { s with rsps := s.rsps ++ [q.rspTo c p] } := by
  rw [State.deliverRsp, h]
  cases c
  case outside => exact absurd rfl hc
  all_goals rfl

/-! #### A response at the ejection input -/

section Arrive
variable (hs : s.Inv) (hi : niExists i.die i.ni = true) (hr : s.inReset i.die = false) (hrun : s.runs = true)
  (he : s.ejected i.die i.ni 1 = some x) (hf : hFormOk x.pkt.hdr = true) (hn : hNdata x.pkt.hdr = x.pkt.data.length)
  (hraw : ¬ (i.die = 6 ∧ x.raw = true))

section Requester
variable (hown : x.own = 0)

include hi hr hrun he hf hn hraw hown in
theorem exec_beResponseArrive_found (hq : (s.ni i.die i.ni).outst.find? (fun o => o.tag == hTag x.pkt.hdr) = some q) :
    exec (.beResponseArrive i) s = .next (((s.freeItem x).release i.die i.ni q.tag).deliverRsp i.die i.ni q x.pkt) := by
  change execBeResponseArrive i s = _
  simp [execBeResponseArrive, hi, hr, hrun, he, hf, hn, hraw, hown, State.freeItem_ni, hq]

include hs hi hr hrun he hf hn hraw hown

theorem beResponseArrive_entersMrsp (hq : (s.ni i.die i.ni).outst.find? (fun o => o.tag == hTag x.pkt.hdr) = some q)
    (hcl : q.client = none) :
    Leads (.beResponseArrive i) s (fun t => (t.ni i.die i.ni).fifo1 = (s.ni i.die i.ni).fifo1 ++ pktFlits x.pkt ∧
      (t.ni i.die i.ni).outst = dropFirst (fun o => o.tag == q.tag) (s.ni i.die i.ni).outst ∧
      (t.ni i.die i.ni).rsv = (s.ni i.die i.ni).rsv - q.places ∧ t.be.items = s.be.items.erase x ∧ s.keepsElse t [.ev, .hw, .be,
      .nis, .ports] (among [aFIFO_STAT i.die i.ni 1])) := by
  obtain ⟨b, p, hfree, hitems⟩ := s.freeItem_shape x
  have hexec := exec_beResponseArrive_found hi hr hrun he hf hn hraw hown hq
  rw [hfree, State.release_found (s := { s with be := b, ports := p }) hq, State.deliverRsp_user _ _ _ hcl] at hexec
  have hni := (State.fifoPush_ni (s := State.setNi { s with be := b, ports := p } i.die i.ni ((s.ni i.die i.ni).without q))
    (tput_wf hs.nis_wf _ _) i.die i.ni 1 (pktFlits x.pkt)).trans
      (congrArg (Ni.push · 1 s.now (pktFlits x.pkt)) (State.setNi_ni hs.nis_wf ..))
  refine ⟨_, hexec, congrArg Ni.fifo1 hni, (congrArg Ni.outst hni).trans rfl, (congrArg Ni.rsv hni).trans rfl, ?_,
    ((State.Within.refl s _ _).put_routers.setNi.fifoPush hi (by simp [among])).keepsElse hs.regs_wf⟩
  rw [State.fifoPush_be]
  exact hitems

theorem beResponseArrive_reachesClient (hq : (s.ni i.die i.ni).outst.find? (fun o => o.tag == hTag x.pkt.hdr) = some q)
    (hcl : q.client = some c) (hc : c ≠ .outside) :
    Leads (.beResponseArrive i) s (fun t => t.rsps = s.rsps ++ [{ origin := c, status := hget x.pkt.hdr 6 19 17, addr := hAddr q.hdr, data := flitBytes (hStart q.hdr) (hCount q.hdr) x.pkt.data }] ∧
      (t.ni i.die i.ni).outst = dropFirst (fun o => o.tag == q.tag) (s.ni i.die i.ni).outst ∧
      (t.ni i.die i.ni).rsv = (s.ni i.die i.ni).rsv - q.places ∧ t.be.items = s.be.items.erase x ∧ s.keepsElse t [.be, .nis,
      .ports, .rsps] (fun _ => false)) := by
  obtain ⟨b, p, hfree, hitems⟩ := s.freeItem_shape x
  have hexec := exec_beResponseArrive_found hi hr hrun he hf hn hraw hown hq
  rw [hfree, State.release_found (s := { s with be := b, ports := p }) hq, State.deliverRsp_client hcl hc] at hexec
  have hni := State.setNi_ni hs.nis_wf i.die i.ni ((s.ni i.die i.ni).without q)
  exact ⟨_, hexec, rfl, congrArg Ni.outst hni, congrArg Ni.rsv hni, hitems,
    ((State.Within.refl s _ _).put_routers (b := b) (p := p)).setNi.put_rsps.keepsElse hs.regs_wf⟩

theorem beResponseArrive_late (hq : ∀ o ∈ (s.ni i.die i.ni).outst, o.tag ≠ hTag x.pkt.hdr) :
    Leads (.beResponseArrive i) s (fun t => t.be.items = s.be.items.erase x ∧ t.nis = s.nis ∧
      t.bit (aBE_FLAG i.die i.ni) fBE_FLAG_LATE_RSP ∧ s.keepsElse t [.ev, .hw, .be, .ports] (among [aBE_FLAG i.die i.ni])) := by
  obtain ⟨b, p, hfree, hitems⟩ := s.freeItem_shape x
  have hnone : (s.ni i.die i.ni).outst.find? (fun o => o.tag == hTag x.pkt.hdr) = none := by simpa using hq
  have hexec : exec (.beResponseArrive i) s = .next ((s.freeItem x).beFlag i.die i.ni fBE_FLAG_LATE_RSP) := by
    change execBeResponseArrive i s = _
    simp [execBeResponseArrive, hi, hr, hrun, he, hf, hn, hraw, hown, State.freeItem_ni, hnone]
  rw [hfree] at hexec
  refine ⟨_, hexec, ?_, State.beFlag_nis .., State.beFlag_bit hs.regs_wf hi rfl (by decide),
    ((State.Within.refl s _ _).put_routers.beFlag hi (by simp [among])).keepsElse hs.regs_wf⟩
  rw [State.beFlag_be]
  exact hitems

end Requester

include hs hi hr hrun he hf hn hraw

theorem beResponseArrive_spillWrite (hown : x.own = 1) :
    Leads (.beResponseArrive i) s (fun t => t.be.items = s.be.items.erase x ∧
      (t.ni i.die i.ni).spillRsp = (s.ni i.die i.ni).spillRsp ++ [(hTag x.pkt.hdr, hget x.pkt.hdr 6 19 17)] ∧
      s.keepsElse t [.be, .nis, .ports] (fun _ => false)) := by
  obtain ⟨b, p, hfree, hitems⟩ := s.freeItem_shape x
  have hexec : exec (.beResponseArrive i) s = .next ((s.freeItem x).setNi i.die i.ni
      { s.ni i.die i.ni with spillRsp := (s.ni i.die i.ni).spillRsp ++ [(hTag x.pkt.hdr, hget x.pkt.hdr 6 19 17)] }) := by
    change execBeResponseArrive i s = _
    simp [execBeResponseArrive, hi, hr, hrun, he, hf, hn, hraw, hown, State.freeItem_ni]
  rw [hfree] at hexec
  exact ⟨_, hexec, hitems, congrArg Ni.spillRsp (State.setNi_ni hs.nis_wf ..),
    (State.Within.refl s _ _).put_routers.setNi.keepsElse hs.regs_wf⟩

theorem beResponseArrive_replayRead (hown : x.own = 2) :
    Leads (.beResponseArrive i) s (fun t => t.be.items = s.be.items.erase x ∧
      (t.ni i.die i.ni).replay = some (((s.ni i.die i.ni).replay.getD []) ++ flitBytes 0 256 x.pkt.data) ∧
      (t.ni i.die i.ni).replayStatus = hget x.pkt.hdr 6 19 17 ∧
      (t.ni i.die i.ni).replayRead = (s.ni i.die i.ni).replayRead + 1 ∧ s.keepsElse t [.be, .nis, .ports] (fun _ => false)) := by
  obtain ⟨b, p, hfree, hitems⟩ := s.freeItem_shape x
  have hexec : exec (.beResponseArrive i) s = .next ((s.freeItem x).setNi i.die i.ni
      { s.ni i.die i.ni with replay := some (((s.ni i.die i.ni).replay.getD []) ++ flitBytes 0 256 x.pkt.data)
                             replayStatus := hget x.pkt.hdr 6 19 17
                             replayRead := (s.ni i.die i.ni).replayRead + 1 }) := by
    change execBeResponseArrive i s = _
    simp [execBeResponseArrive, hi, hr, hrun, he, hf, hn, hraw, hown, State.freeItem_ni]
  rw [hfree] at hexec
  have hni := State.setNi_ni hs.nis_wf i.die i.ni
    { s.ni i.die i.ni with replay := some (((s.ni i.die i.ni).replay.getD []) ++ flitBytes 0 256 x.pkt.data)
                           replayStatus := hget x.pkt.hdr 6 19 17
                           replayRead := (s.ni i.die i.ni).replayRead + 1 }
  exact ⟨_, hexec, hitems, congrArg Ni.replay hni, congrArg Ni.replayStatus hni, congrArg Ni.replayRead hni,
    (State.Within.refl s _ _).put_routers.setNi.keepsElse hs.regs_wf⟩

end Arrive

/-! #### A request that is not answered in time -/

section Timeout
variable {g : BitVec 10} {u : Nat} (hs : s.Inv) (hl : s.niLive i.die i.ni = true)
  (hq : (s.ni i.die i.ni).outst.find? (fun o => o.tag == g.toNat) = some q) (hdl : q.deadline = some u) (hu : u ≤ s.now)

include hl hq hdl hu in
theorem exec_beTimeout_due : exec (.beTimeout i g) s =
    .next (((s.setNi i.die i.ni ((s.ni i.die i.ni).without q)).deliverRsp i.die i.ni q (localRsp q.hdr 2)).beFlag i.die i.ni fBE_FLAG_TIMEOUT) := by
  change execBeTimeout i g s = _
  simp [execBeTimeout, hl, hq, hdl, hu, State.release_found hq]

include hs hl hq hdl hu

theorem beTimeout_entersMrsp (hcl : q.client = none) :
    Leads (.beTimeout i g) s (fun t => (t.ni i.die i.ni).fifo1 = (s.ni i.die i.ni).fifo1 ++ pktFlits (localRsp q.hdr 2) ∧
      (t.ni i.die i.ni).outst = dropFirst (fun o => o.tag == q.tag) (s.ni i.die i.ni).outst ∧
      (t.ni i.die i.ni).rsv = (s.ni i.die i.ni).rsv - q.places ∧ t.bit (aBE_FLAG i.die i.ni) fBE_FLAG_TIMEOUT ∧
      s.keepsElse t [.ev, .hw, .nis] (among [aFIFO_STAT i.die i.ni 1, aBE_FLAG i.die i.ni])) := by
  have hi := State.niLive_exists hl
  have hexec := exec_beTimeout_due hl hq hdl hu
  rw [State.deliverRsp_user _ _ _ hcl] at hexec
  have hni := (State.ni_congr (State.beFlag_nis _ i.die i.ni fBE_FLAG_TIMEOUT) i.die i.ni).trans
    ((State.fifoPush_ni (s := s.setNi i.die i.ni ((s.ni i.die i.ni).without q)) (tput_wf hs.nis_wf _ _) i.die i.ni 1
      (pktFlits (localRsp q.hdr 2))).trans
      (congrArg (Ni.push · 1 s.now (pktFlits (localRsp q.hdr 2))) (State.setNi_ni hs.nis_wf ..)))
  have hk := ((State.Within.refl s [.ev, .hw, .nis] (among [aFIFO_STAT i.die i.ni 1, aBE_FLAG i.die i.ni])).setNi
    (d := i.die) (n := i.ni) (x := (s.ni i.die i.ni).without q)).fifoPush (k := 1) (fl := pktFlits (localRsp q.hdr 2)) hi (by simp [among])
  exact ⟨_, hexec, congrArg Ni.fifo1 hni, (congrArg Ni.outst hni).trans rfl, (congrArg Ni.rsv hni).trans rfl,
    State.beFlag_bit (hk.wf hs.regs_wf) hi rfl (by decide), (hk.beFlag hi (by simp [among])).keepsElse hs.regs_wf⟩

theorem beTimeout_reachesClient (hcl : q.client = some c) (hc : c ≠ .outside) :
    Leads (.beTimeout i g) s (fun t => t.rsps.length = s.rsps.length + 1 ∧
      (t.rsps.getLast?).any (fun r => decide (r.origin = c) && r.status == 2) ∧
      (t.ni i.die i.ni).outst = dropFirst (fun o => o.tag == q.tag) (s.ni i.die i.ni).outst ∧
      (t.ni i.die i.ni).rsv = (s.ni i.die i.ni).rsv - q.places ∧ t.bit (aBE_FLAG i.die i.ni) fBE_FLAG_TIMEOUT ∧
      s.keepsElse t [.ev, .hw, .nis, .rsps] (among [aBE_FLAG i.die i.ni])) := by
  have hi := State.niLive_exists hl
  have hexec := exec_beTimeout_due hl hq hdl hu
  rw [State.deliverRsp_client hcl hc] at hexec
  have hni := (State.ni_congr (State.beFlag_nis { s.setNi i.die i.ni ((s.ni i.die i.ni).without q) with
    rsps := s.rsps ++ [q.rspTo c (localRsp q.hdr 2)] } i.die i.ni fBE_FLAG_TIMEOUT) i.die i.ni).trans
    (State.setNi_ni hs.nis_wf i.die i.ni ((s.ni i.die i.ni).without q))
  have hk := ((State.Within.refl s [.ev, .hw, .nis, .rsps] (among [aBE_FLAG i.die i.ni])).setNi
    (d := i.die) (n := i.ni) (x := (s.ni i.die i.ni).without q)).put_rsps (r := s.rsps ++ [q.rspTo c (localRsp q.hdr 2)])
  refine ⟨_, hexec, ?_, ?_, congrArg Ni.outst hni, congrArg Ni.rsv hni,
    State.beFlag_bit (hk.wf hs.regs_wf) hi rfl (by decide), (hk.beFlag hi (by simp [among])).keepsElse hs.regs_wf⟩
  · rw [State.beFlag_rsps]
    exact List.length_append ..
  · rw [State.beFlag_rsps, List.getLast?_concat]
    simp [Outst.rspTo, localRsp_status]

end Timeout

end Sys2Proof.Machine
end

section
/-! ### Best-effort packets (R90 to R95, R103 to R112, R121) -/

namespace Sys2Proof.Machine

set_option Elab.async false

/-- Settles O16: each clause is one branch of its instruction. A freed or moved packet changes only the routers and the ports
(`State.freePlaces_shape`, `State.moveFlit_first`), and the places ahead of a header are counted apart from those it frees
(`downstream_key`). -/
theorem bestEffortPackets : Obligations.BestEffortPackets := by
  unfold Obligations.BestEffortPackets
  intro s hs
  refine ⟨?_, ?_, ?_, ?_, ?_, ?_, ?_, ?_, ?_, ?_, ?_, ?_, ?_, ?_, ?_, ?_, ?_, ?_, ?_, ?_, ?_, ?_, ?_, ?_, ?_, ?_, ?_, ?_, ?_, ?_, ?_⟩
  · exact fun _ _ _ _ _ hl h3 h0 hc hloop ha ht hd hr => beRequestIssue_tracks hs hl h3 h0 hc hloop ha ht hd hr
  · exact fun _ _ _ _ _ hl h3 h0 hc hloop ha ht hd hr => beRequestIssue_unrouted hs hl h3 h0 hc hloop ha ht hd hr
  · exact fun _ _ _ _ hl h3 h0 hc hloop ha ht hd => beRequestIssue_refusesTag hs hl h3 h0 hc hloop ha ht hd
  · exact fun _ _ _ _ _ hl h3 h0 hc hloop ha ht hr => beRequestIssue_sendsMessage hs hl h3 h0 hc hloop ha ht hr
  · exact fun _ _ _ _ _ _ hl h3 hq hloop hr => beRequestIssue_answers hs hl h3 hq hloop hr
  · exact fun _ _ _ hl hd h3 h0 hq hc ha ht hfresh hdev hmem =>
      beRequestIssue_entersCrossbar hs hl hd h3 h0 hq hc ha ht hfresh hdev hmem
  · intro i o vc x ord rsv d n inp k via hl hfree hside hrsp hpick hout hd htakes hg hall hwide
    refine beHop_moves hs hl hfree hside hrsp hpick hout hd htakes hg hall fun b hv => ?_
    rw [hv] at hwide
    exact beq_iff_eq.mp hwide
  · exact fun _ _ _ _ _ _ _ _ _ _ _ _ hl hfree hside hrsp hpick hout hd htakes hg hall hv hw =>
      beHop_crossesNarrow hs hl hfree hside hrsp hpick hout hd htakes hg hall hv hw
  · exact fun _ _ _ _ hl hd hp hfree hwin hopen hcar hwh hroom hother =>
      beHop_startsPort hs hl hd hp hfree hwin hopen hcar hwh hroom hother
  · exact fun _ _ _ _ _ hl hd hp hfree hwin hshut hr => beHop_answersAtPort hs hl hd hp hfree hwin hshut hr
  · exact fun _ hi => creditReturn_filtersDue hs hi
  · exact fun _ _ hi hdue hat hready hkinds => creditReturn_ownKind hs hi hdue hat hready hkinds
  · exact fun _ _ _ _ hi hdue hat hready hone hkinds => creditReturn_chargedKind hs hi hdue hat hready hone hkinds
  · exact fun _ _ hl ha => headerAged_marks hl ha
  · exact fun _ _ ha => exec_headerAged_off ha
  · exact fun _ hl hlim hany => stallDetect_flags hs hl hlim hany
  · exact fun _ h => exec_stallDetect_none h
  · exact fun _ _ hi hr hrun he hf hn hd ha hsp hroom => bePacketArrive_entersTreq hs hi hr hrun he hf hn hd ha hsp hroom
  · exact fun _ _ hi hr hrun he hf hn hd ha h => exec_bePacketArrive_waits hi hr hrun he hf hn hd ha h
  · exact fun _ _ _ hi hr hrun he hf hn ha hm hroute => bePacketArrive_refuses hs hi hr hrun he hf hn ha hm hroute
  · exact fun _ _ hi hr hrun he hf hn hd ha hraw ht hmem => bePacketArrive_entersMemory hs hi hr hrun he hf hn hd ha hraw ht hmem
  · exact fun _ _ hi hr hrun he hf hn hd ha hraw ht hbr => bePacketArrive_entersBridge hs hi hr hrun he hf hn hd ha hraw ht hbr
  · exact fun _ _ _ hi hr hrun he hf hn hd ha hraw hon => bePacketArrive_goesOnward hs hi hr hrun he hf hn hd ha hraw hon
  · exact fun _ _ hi hr hrun he hf => bePacketArrive_malformed hs hi hr hrun he hf
  · exact fun _ _ _ hi hr hrun he hf hn hraw hown hq hcl => beResponseArrive_entersMrsp hs hi hr hrun he hf hn hraw hown hq hcl
  · exact fun _ _ _ _ hi hr hrun he hf hn hraw hown hq hcl hc =>
      beResponseArrive_reachesClient hs hi hr hrun he hf hn hraw hown hq hcl hc
  · exact fun _ _ hi hr hrun he hf hn hraw hown hq => beResponseArrive_late hs hi hr hrun he hf hn hraw hown hq
  · exact fun _ _ hi hr hrun he hf hn hraw hown => beResponseArrive_spillWrite hs hi hr hrun he hf hn hraw hown
  · exact fun _ _ hi hr hrun he hf hn hraw hown => beResponseArrive_replayRead hs hi hr hrun he hf hn hraw hown
  · exact fun _ _ _ _ hl hq hdl hu hcl => beTimeout_entersMrsp hs hl hq hdl hu hcl
  · exact fun _ _ _ _ _ hl hq hdl hu hcl hc => beTimeout_reachesClient hs hl hq hdl hu hcl hc

end Sys2Proof.Machine
end
